-- ==== Sys2Proof/Word.lean ====
section
/-! DEFINITION. The byte and the sparse table: the two data shapes every part of the model is built from.
A `Tbl` lists (key, value) pairs with strictly rising keys; a key that is not listed reads as the
default its reader names. The operations that keep that form stand in Machine/Ops.lean. -/

namespace Sys2Proof

/-- Eight bits (R6). -/
abbrev Byte := BitVec 8

/-- A sparse table by number. -/
abbrev Tbl (α : Type) := List (Nat × α)

end Sys2Proof
end

