-- ==== Sys2Proof/Syntax.lean ====
section
/-! DEFINITION. The commands of the block: one constructor of `Instr` per row of spec/opcode_table.json, and
the data their operands carry. A command packet row carries the packet as it arrived on its channel; a facet
instruction row carries the facet and the stream, whose next word the machine fetches from the scratchpad; a
flit, frame, packet or TLP row carries the arrival; a register row carries the value written; a timer or pin
row names the object it belongs to. -/

namespace Sys2Proof

/-- A command packet less its opcode, which the row fixes (R225). `plen` is the PLEN field, `params` the bytes
after the header. -/
structure Packet where
  version : BitVec 8
  flags   : BitVec 8
  seq     : BitVec 32
  plen    : Nat
  status  : BitVec 16
  rsv14   : BitVec 16
  detail  : BitVec 32
  crc     : BitVec 32
  rseq    : BitVec 32
  elapsed : BitVec 32
  params  : List Byte
  deriving DecidableEq, Repr

/-- A packet on its channel (R228). `src` stands for the datagram's source address and port, the MCTP endpoint,
or the fabric source, as the channel's transport has it. -/
structure Cmd where
  ch  : Nat
  src : Nat
  pkt : Packet
  deriving DecidableEq, Repr

/-- A mesh flit: the header fields of R117 and the payload bytes. -/
structure Flit where
  typ     : Nat
  vc      : Nat
  dx      : Nat
  dy      : Nat
  side    : Nat
  sx      : Nat
  sy      : Nat
  inst    : Nat
  gen     : BitVec 16
  tokc    : Nat
  tokn    : Nat
  last    : Bool
  units   : Nat
  tag     : Nat
  flow    : Nat
  addr    : Nat
  payload : List Byte
  deriving DecidableEq, Repr

/-- A Zaren frame: the header fields of R251, the PCP of its tag and the payload. `rsv` gathers the
reserved bits of FLAGS, TAG, INST and AFL; `lenOk` says that LEN agrees with the frame's length. -/
structure ZFrame where
  version : Nat
  typ     : Nat
  last    : Bool
  sig     : Bool
  tokn    : Nat
  hops    : Nat
  tag     : Nat
  dst     : Nat
  src     : Nat
  job     : Nat
  inst    : Nat
  psn     : BitVec 24
  sfx     : Nat
  sfy     : Nat
  avalid  : Bool
  aclass  : Nat
  apsn    : BitVec 24
  addr    : Nat
  rsx     : Nat
  rsy     : Nat
  tokc    : Nat
  pcp     : Nat
  rsv     : Nat
  lenOk   : Bool
  payload : List Byte
  deriving DecidableEq, Repr

/-- What a read of a stack unit reported (R167). -/
inductive ReadOutcome where
  | ok | corrected | uncorrected | parity
  deriving DecidableEq, Repr

/-- What the attached host's memory returns for the rings of a mailbox channel (R230, R382): the command
ring's PROD, the record at its CONS, the reply ring's CONS, and whether the master accesses succeeded. -/
structure HostRing where
  prod    : Nat
  record  : List Byte
  repCons : Nat
  ok      : Bool
  deriving DecidableEq, Repr

/-- What an Announce message says (R271, IEEE 802.1AS): the grandmaster's priority1, clock class, accuracy, variance, priority2 and
identity, the steps removed, the port that sends it, and the path trace. -/
structure Announce where
  prio1 : Nat
  cls   : Nat
  acc   : Nat
  var   : Nat
  prio2 : Nat
  gm    : BitVec 64
  steps : Nat
  src   : BitVec 64
  port  : Nat
  path  : List (BitVec 64)
  deriving DecidableEq, Repr

/-- A gPTP message after the link's timestamping (R271): a completed two-step synchronisation with its offset in ns, a peer-delay
request with its sequence number and its sender's port identity, a completed peer-delay exchange with the mean link delay, or an
announce. -/
inductive GptpMsg where
  | sync (offset : Int)
  | pdelayReq (seq : Nat) (src : BitVec 64) (port : Nat)
  | pdelay (ns : Nat)
  | announce (a : Announce)
  deriving DecidableEq, Repr

/-- A frame at a MAC (R286): the bytes from destination address up to, not including, the FCS. -/
structure EthFrame where
  bytes : List Byte
  fcsOk : Bool
  phyOk : Bool
  time  : Nat
  deriving DecidableEq, Repr

/-- A RoCEv2 packet after its headers are read (R324, R326): BTH, RETH and AETH fields, payload, the frame's
length from destination address to FCS, and the receive stamp (R344). -/
structure RocePkt where
  icrcOk   : Bool
  tver     : Nat
  pkey     : Nat
  opcode   : Nat
  dqpn     : Nat
  psn      : BitVec 24
  ackReq   : Bool
  va       : Nat
  rkey     : Nat
  dmaLen   : Nat
  syndrome : Nat
  payload  : List Byte
  frameLen : Nat
  stamp    : Nat
  deriving DecidableEq, Repr

/-- A submission entry at its fetch (R357): for a Host controller the entry and the PRP list as the master
reads returned them; a Device controller's entry is read from its ring in State. -/
structure NvmeFetch where
  ctrl    : Nat
  sq      : Nat
  entry   : List Byte
  prpList : List Nat
  deriving DecidableEq, Repr

/-- How a backing access ended (R358). -/
inductive BackCode where
  | ok | uncorrectable | writeFault | unreachable | notPresent | dataTransfer | cipherFail
  deriving DecidableEq, Repr

/-- The end of a backing access: its code, the first failing LBA offset, and the data a drive or peer read. -/
structure BackingResult where
  code : BackCode
  lba  : Nat
  data : List Byte
  deriving DecidableEq, Repr

/-- What enumerating a drive found (R365, R404): link rate and width, class code, namespaces as
(identifier, LBA size exponent, LBAs), deepest exit latency in microseconds, volatile write cache. -/
structure DriveInfo where
  rate       : Nat
  width      : Nat
  classCode  : Nat
  namespaces : List (Nat × Nat × Nat)
  exitUs     : Nat
  vwc        : Bool
  deriving DecidableEq, Repr

/-- The configuration registers of a function that this spec names (R378, R389 to R401). -/
inductive CfgReg where
  | identity | subsystem | classRev | command | devControl | devControl2 | devControl3 | msixControl | pmcsr | sriovControl | sriovNumVfs
  | aerUncorStatus | aerUncorMask | aerUncorSeverity | aerCorStatus | aerCorMask | linkControl | bar0 | bar0Hi | bar2 | bar2Hi | vfBar0 | vfBar0Hi
  | vfBar2 | vfBar2Hi
  deriving DecidableEq, Repr

/-- A configuration request: a read, or a write of the register's 32 bits. -/
structure CfgReq where
  reg   : CfgReg
  write : Option (BitVec 32)
  deriving DecidableEq, Repr

/-- A completion piece at the endpoint (R392). -/
structure CplPiece where
  fn        : Nat
  tag       : Nat
  status    : Nat
  lowerAddr : Nat
  byteCount : Nat
  payload   : List Byte
  ep        : Bool
  deriving DecidableEq, Repr

/-- A memory request from a drive (R405). -/
structure DriveReq where
  addr  : Nat
  write : Bool
  len   : Nat
  data  : List Byte
  deriving DecidableEq, Repr

/-- The wake events of R435. -/
inductive Wake where
  | start | rungSet | alarm | command (ch : Nat) | frame (verdict typ : Nat) | bar | drive | timer | wakeAt
  | pwrwake | perst | smbus
  deriving DecidableEq, Repr

/-- What boot meets outside State (R21, R439 to R445): the PUF reading's check, the trims region's check, the
flash reads, the counters' increments, the dies and stacks whose training failed, and the straps. -/
structure BootInput where
  pufOk     : Bool
  trimsOk   : Bool
  flashOk   : Bool
  epochOk   : Bool
  dieFail   : List Nat
  stackFail : List Nat
  smbAddr   : Nat
  busSel    : Bool
  deriving DecidableEq, Repr

/-- An egress queue's name: queue q of port p, the default queue of link L and class c, or the control queue of
link L (R305). -/
inductive EqName where
  | queue (p q : Nat) | dflt (link cls : Nat) | ctrl (link : Nat)
  deriving DecidableEq, Repr

/-- The commands, one constructor per row of the table of operations and events. -/
inductive Instr where
  /-- TOK (R44): Facet instruction that only waits on and signals token counters, completing at issue -/
  | tok (f st : Nat)
  /-- BEAT (R71): Facet instruction by which a stream arrives at the next beat and stops issuing until the beat closes -/
  | beat (f st : Nat)
  /-- LOOP (R50): Facet instruction that opens the next loop level with a fixed trip count and body length -/
  | loop (f st : Nat)
  /-- SETSTEP (R51): Facet instruction that sets the slot steps of one loop level -/
  | setstep (f st : Nat)
  /-- STOP (R72): Facet instruction that ends its stream -/
  | stop (f st : Nat)
  /-- MMA (R55): Matrix instruction that issues and starts accumulating a matrix product into an accumulator tile -/
  | mma (f st : Nat)
  /-- MMA_COMPLETE (R58): An MMA finishes its last product, and its local and remote signals are applied -/
  | mmaComplete (f : Nat)
  /-- MDRAIN (R59): Matrix instruction that issues and starts converting and storing an accumulator tile -/
  | mdrain (f st : Nat)
  /-- MDRAIN_COMPLETE (R59): An MDRAIN writes its last byte, and its signals are applied -/
  | mdrainComplete (f : Nat)
  /-- VLD (R61): Vector instruction that loads 64 elements into a register, widening exactly -/
  | vld (f st : Nat)
  /-- VST (R61): Vector instruction that stores 64 elements from a register with rounding and saturation -/
  | vst (f st : Nat)
  /-- VMOVI (R62): Vector instruction that broadcasts an immediate to every lane -/
  | vmovi (f st : Nat)
  /-- VADD (R97): Vector lane addition -/
  | vadd (f st : Nat)
  /-- VSUB (R97): Vector lane subtraction -/
  | vsub (f st : Nat)
  /-- VMUL (R97): Vector lane multiplication -/
  | vmul (f st : Nat)
  /-- VFMA (R97): Vector fused multiply-add rounded once -/
  | vfma (f st : Nat)
  /-- VMAX (R98): Vector lane maximum -/
  | vmax (f st : Nat)
  /-- VMIN (R98): Vector lane minimum -/
  | vmin (f st : Nat)
  /-- VABS (R98): Vector lane absolute value -/
  | vabs (f st : Nat)
  /-- VNEG (R98): Vector lane negation -/
  | vneg (f st : Nat)
  /-- VCMP (R98): Vector quiet comparison that writes a mask register -/
  | vcmp (f st : Nat)
  /-- VSEL (R98): Vector per-lane selection by a mask register -/
  | vsel (f st : Nat)
  /-- VCVT (R89): Vector conversion between lane formats -/
  | vcvt (f st : Nat)
  /-- VRSUM (R63): Vector reduction sum of 64 lanes in a fixed tree order -/
  | vrsum (f st : Nat)
  /-- VRMAX (R63): Vector reduction maximum of 64 lanes -/
  | vrmax (f st : Nat)
  /-- VEXP2 (R100): Vector FP32 power of two -/
  | vexp2 (f st : Nat)
  /-- VRCP (R100): Vector FP32 reciprocal -/
  | vrcp (f st : Nat)
  /-- VRSQRT (R100): Vector FP32 reciprocal square root -/
  | vrsqrt (f st : Nat)
  /-- VAND (R99): Vector bitwise AND of I32 lanes -/
  | vand (f st : Nat)
  /-- VOR (R99): Vector bitwise OR of I32 lanes -/
  | vor (f st : Nat)
  /-- VXOR (R99): Vector bitwise XOR of I32 lanes -/
  | vxor (f st : Nat)
  /-- VSHL (R99): Vector left shift of I32 lanes -/
  | vshl (f st : Nat)
  /-- VSHR (R99): Vector arithmetic right shift of I32 lanes -/
  | vshr (f st : Nat)
  /-- VECTOR_COMPLETE (R63): A multi-handshake vector instruction writes its destination and its signals are applied -/
  | vectorComplete (f : Nat)
  /-- SADDR (R65): Stream instruction that sets or adds to an address register -/
  | saddr (f st : Nat)
  /-- SPEER (R65): Stream instruction that sets the peer-rank register -/
  | speer (f st : Nat)
  /-- SPUT (R66): Stream instruction that starts a write from the scratchpad to an instance or peer address -/
  | sput (f st : Nat)
  /-- SGET (R66): Stream instruction that starts a read into the scratchpad -/
  | sget (f st : Nat)
  /-- STOK (R68): Stream instruction that sends a token increment with no data -/
  | stok (f st : Nat)
  /-- SGATHER (R68): Stream instruction that submits a gather descriptor to a memory-girdle die -/
  | sgather (f st : Nat)
  /-- TADD (R70): Scoreboard instruction that adds to a local token counter -/
  | tadd (f st : Nat)
  /-- WAIT_LIMIT (R49): A token wait outlasts FCT_WAITLIM and the facet raises WAIT_LIMIT -/
  | waitLimit (f st : Nat)
  /-- WATCHDOG (R468): A facet handshake is not complete within 16 microseconds -/
  | watchdog (f st : Nat)
  /-- FACET_ARRIVE (R71): A facet arrives at a beat once all streams issued BEAT and every earlier instruction and signal is done -/
  | facetArrive (f : Nat)
  /-- FACET_DONE (R72): A facet enters Done once all streams stopped and every transfer and signal is acknowledged -/
  | facetDone (f : Nat)
  /-- FLIT_ROUTE (R121): A router receives a flit and forwards it in dimension order, or discards it with NACK 0x0004 -/
  | flitRoute (x y port : Nat) (fl : Flit)
  /-- FLIT_WRITE_RECEIVE (R126): A WRITE flit reaches a facet's mesh ingress and is applied, signalled and acknowledged on LAST -/
  | flitWriteReceive (f : Nat) (fl : Flit)
  /-- FLIT_READ_RECEIVE (R128): A READ flit reaches a facet and is served with DATA flits -/
  | flitReadReceive (f : Nat) (fl : Flit)
  /-- FLIT_DATA_RECEIVE (R127): A DATA flit writes returned read data, completing the transfer on LAST -/
  | flitDataReceive (f : Nat) (fl : Flit)
  /-- FLIT_TOKEN_RECEIVE (R117): A TOKEN flit applies its increment and is acknowledged -/
  | flitTokenReceive (f : Nat) (fl : Flit)
  /-- FLIT_ACK_RECEIVE (R127): An ACK frees the transfer named by its TAG -/
  | flitAckReceive (f : Nat) (fl : Flit)
  /-- FLIT_NACK_RECEIVE (R127): A NACK ends the named transfer and raises the exception its status names -/
  | flitNackReceive (f : Nat) (fl : Flit)
  /-- MESH_STALL (R129): A flit is held at a router input beyond TBL_HOLDLIM and a stall is recorded -/
  | meshStall (f port vc : Nat)
  /-- BANK_TRANSITION_DONE (R113): A bank power transition completes and any newer requested state begins -/
  | bankTransitionDone (f bank : Nat)
  /-- TBL_BANKPWR_WRITE (R113): Write of requested bank states, applied only to Empty or Faulted facets -/
  | tblBankpwrWrite (f : Nat) (v : BitVec 64)
  /-- TBL_STALL_WRITE (R129): Write-one-to-clear of the recorded mesh stall -/
  | tblStallWrite (f : Nat) (v : BitVec 64)
  /-- FCT_FPFLAGS_WRITE (R64): Write-one-to-clear of a facet's sticky numeric flags -/
  | fctFpflagsWrite (f : Nat) (v : BitVec 64)
  /-- FCT_DISCARD_READ (R73): Read-and-clear of a facet's discarded-packet count -/
  | fctDiscardRead (f : Nat)
  /-- FCT_SLACKMIN_READ (R77): Read of the minimum slack, which then resets to all ones -/
  | fctSlackminRead (f : Nat)
  /-- TBL_ECC_READ (R108): Read-and-clear of scratchpad ECC counts -/
  | tblEccRead (f : Nat)
  /-- CUT_LOAD (R136): Command that checks a cut image and loads it into an Empty parcel -/
  | cutLoad (c : Cmd)
  /-- CUT_START (R152): Command that starts a loaded cut and sends READY up the tree -/
  | cutStart (c : Cmd)
  /-- CUT_PAUSE (R150): Command that requests a pause of the job at a chosen beat -/
  | cutPause (c : Cmd)
  /-- CUT_RESUME (R150): Command that resumes a paused job -/
  | cutResume (c : Cmd)
  /-- CUT_STOP (R151): Command that stops the job at a beat, or immediately -/
  | cutStop (c : Cmd)
  /-- CUT_UNLOAD (R270): Command that returns a parcel's facets to Empty and removes the job binding, gates and static streams -/
  | cutUnload (c : Cmd)
  /-- CUT_STATUS (R148): Command that reports the parcel's job state -/
  | cutStatus (c : Cmd)
  /-- DEVICE_ARRIVE (R139): The device arrives at a beat once its parcel has arrived and any step-end output copy is complete -/
  | deviceArrive (p : Nat)
  /-- OUTPUT_RECORD_WRITE (R154): Output slot records are copied into the output ring once it has room -/
  | outputRecordWrite (p : Nat)
  /-- BEAT_LIMIT_EXPIRE (R141): An untimed beat does not close within BEAT_LIMIT and the job ends -/
  | beatLimitExpire (p : Nat)
  /-- BEAT_DEADLINE (R144): At D(n) a device that has not arrived, or is pacing, sends SLIP(n) -/
  | beatDeadline (p : Nat)
  /-- WINDOW_END (R144): A timed window ends and the beat is held or closed -/
  | windowEnd (p : Nat)
  /-- TIMED_START (R152): At start time S the window of beat 0 opens -/
  | timedStart (p : Nat)
  /-- START_LIMIT_EXPIRE (R152): GO has not left rank 0 within 10 s and the job ends with START_LIMIT -/
  | startLimitExpire (p : Nat)
  /-- CTRL_ARRIVE (R140): Receipt of an arrival message from a child in the beat tree -/
  | ctrlArrive (link : Nat) (z : ZFrame)
  /-- CTRL_CLOSE (R140): Receipt of a beat closure from the parent; the device closes the beat -/
  | ctrlClose (link : Nat) (z : ZFrame)
  /-- CTRL_SLIP (R144): Receipt of SLIP(n); the window is held, or TIME_FAULT if already closed -/
  | ctrlSlip (link : Nat) (z : ZFrame)
  /-- CTRL_ABORT (R149): Receipt of an abort; the job ends with PEER -/
  | ctrlAbort (link : Nat) (z : ZFrame)
  /-- CTRL_PAUSE (R150): Receipt of PAUSE naming beat p -/
  | ctrlPause (link : Nat) (z : ZFrame)
  /-- CTRL_RESUME (R150): Receipt of RESUME with the new window time -/
  | ctrlResume (link : Nat) (z : ZFrame)
  /-- CTRL_STOP (R151): Receipt of STOP naming beat p -/
  | ctrlStop (link : Nat) (z : ZFrame)
  /-- CTRL_READY (R152): Receipt of READY with hash and bound b from a child -/
  | ctrlReady (link : Nat) (z : ZFrame)
  /-- CTRL_GO (R152): Receipt of GO carrying S and B; facets are released or the start time fixed -/
  | ctrlGo (link : Nat) (z : ZFrame)
  /-- CTRL_CKNOW (R188): Rank 0 receives a forwarded checkpoint request -/
  | ctrlCknow (link : Nat) (z : ZFrame)
  /-- CTRL_CKPT (R188): Receipt of the announced checkpoint step -/
  | ctrlCkpt (link : Nat) (z : ZFrame)
  /-- CTRL_ARMED (R190): Receipt of ARMED from a child after capture -/
  | ctrlArmed (link : Nat) (z : ZFrame)
  /-- CTRL_RELEASE (R190): Receipt of RELEASE; the beat closes and facets are released -/
  | ctrlRelease (link : Nat) (z : ZFrame)
  /-- CTRL_SEALED (R197): Rank 0 receives a seal report for step s -/
  | ctrlSealed (link : Nat) (z : ZFrame)
  /-- CTRL_FAILED (R197): Rank 0 receives a failure report for step s -/
  | ctrlFailed (link : Nat) (z : ZFrame)
  /-- CTRL_DONE (R197): Receipt of DONE(s); the kept step becomes s -/
  | ctrlDone (link : Nat) (z : ZFrame)
  /-- CTRL_PAUSE_REQ (R150): Rank 0 receives a pause request and chooses p -/
  | ctrlPauseReq (link : Nat) (z : ZFrame)
  /-- CTRL_STOP_REQ (R151): Rank 0 receives a stop request and chooses p -/
  | ctrlStopReq (link : Nat) (z : ZFrame)
  /-- MEM_ZONE_SET (R160): Command that changes a zone's mode and zeroes it -/
  | memZoneSet (c : Cmd)
  /-- GTH_TABLE_SET (R170): Command that sets a gather table entry -/
  | gthTableSet (c : Cmd)
  /-- GTH_TABLE_CLEAR (R170): Command that clears a gather table entry -/
  | gthTableClear (c : Cmd)
  /-- GTH_TABLE_GET (R170): Command that returns a gather table entry -/
  | gthTableGet (c : Cmd)
  /-- GTH_CACHE_DROP (R177): Command that drops cached rows of a table or instance -/
  | gthCacheDrop (c : Cmd)
  /-- GTH_TABLE_WAIT_END (R170): Descriptors using a changed entry finish, or 1 s passes, and the table command replies -/
  | gthTableWaitEnd (inst tab : Nat)
  /-- MG_FLIT_RECEIVE (R166): A flit arrives at a memory-girdle die's edge and is checked and queued -/
  | mgFlitReceive (k : Nat) (fl : Flit)
  /-- HBM_WRITE_ISSUE (R166): The controller issues a queued write to a stack after the generation check -/
  | hbmWriteIssue (stack : Nat)
  /-- HBM_READ_COMPLETE (R167): A stack read returns and is delivered, retried or failed as uncorrectable -/
  | hbmReadComplete (stack : Nat) (o : ReadOutcome)
  /-- HBM_REFRESH (R158): A per-bank refresh falls due and is issued -/
  | hbmRefresh (stack pc bank : Nat)
  /-- STACK_TEMP_CROSS (R158): A stack crosses 85 degrees and its refresh interval changes -/
  | stackTempCross (stack temp : Nat)
  /-- PATROL_SCRUB (R169): Patrol scrub reads a unit and rewrites or logs it -/
  | patrolScrub (addr : Nat) (o : ReadOutcome)
  /-- STACK_REQUEST_TIMEOUT (R468): A stack request exceeds 10 microseconds and is treated as uncorrectable -/
  | stackRequestTimeout (stack : Nat)
  /-- GATHER_DESC_RECEIVE (R174): A gather engine reads and checks a descriptor and accepts or NACKs it -/
  | gatherDescReceive (k : Nat) (fl : Flit)
  /-- GATHER_ROW_ARRIVE (R179): A fetched row arrives and is dequantized and pooled; `o` is what the stacks reported of
  it (R167) -/
  | gatherRowArrive (k : Nat) (o : ReadOutcome)
  /-- GATHER_CHUNK_DELIVER (R181): A completed chunk of output rows is written and signalled -/
  | gatherChunkDeliver (k : Nat)
  /-- GTH_CACHE_WRITE (R178): Write of the cache way count, which empties the cache -/
  | gthCacheWrite (k : Nat) (v : BitVec 64)
  /-- GTH_CWAYS_WRITE (R176): Write of an instance's cache way mask, ignored if it overlaps or names non-cache ways -/
  | gthCwaysWrite (k inst : Nat) (v : BitVec 64)
  /-- MEM_UELOG_WRITE (R167): Write-one-to-clear of an uncorrectable log entry -/
  | memUelogWrite (k n : Nat) (v : BitVec 64)
  /-- MEM_ECC_READ (R167): Read-and-clear of stack error counts -/
  | memEccRead (k : Nat)
  /-- MEM_DISCARD_READ (R166): Read-and-clear of discarded-flit count -/
  | memDiscardRead (k : Nat)
  /-- CKP_CONFIG (R187): Command that sets a parcel's checkpoint configuration -/
  | ckpConfig (c : Cmd)
  /-- CKP_NOW (R188): Command that requests a checkpoint at the next step -/
  | ckpNow (c : Cmd)
  /-- CKP_STATUS (R196): Command that reports checkpoint progress -/
  | ckpStatus (c : Cmd)
  /-- CKP_RESTORE (R199): Command that restores a parcel from a sealed manifest -/
  | ckpRestore (c : Cmd)
  /-- CKP_TIMER_EXPIRE (R188): The checkpoint period expires and rank 0 targets the next step -/
  | ckpTimerExpire (p : Nat)
  /-- GRANULE_SAVE_DONE (R192): A pending granule is saved and its held writes proceed -/
  | granuleSaveDone (p g : Nat)
  /-- COPIER_GRANULE (R193): The copier sends the next granule of a shard to the destination -/
  | copierGranule (p : Nat)
  /-- CKPT_SEAL (R196): The final flush completes and the manifest is sealed -/
  | ckptSeal (p : Nat)
  /-- PCL_INST_CREATE (R203): Command that creates an instance and zeroes its map -/
  | pclInstCreate (c : Cmd)
  /-- PCL_INST_RESET (R214): Command that resets an instance and advances its generation -/
  | pclInstReset (c : Cmd)
  /-- PCL_INST_REMOVE (R215): Command that removes an instance -/
  | pclInstRemove (c : Cmd)
  /-- PCL_PARCEL_ALLOC (R208): Command that allocates a parcel rectangle -/
  | pclParcelAlloc (c : Cmd)
  /-- PCL_PARCEL_FREE (R210): Command that frees a parcel and zeroes its scratchpads -/
  | pclParcelFree (c : Cmd)
  /-- PCL_SHARE_SET (R211): Command that sets an instance's shares -/
  | pclShareSet (c : Cmd)
  /-- PCL_MAP_SET (R206): Command that changes instance map entries -/
  | pclMapSet (c : Cmd)
  /-- PCL_BUDGET_SET (R219): Command that sets a parcel's energy budget -/
  | pclBudgetSet (c : Cmd)
  /-- PCL_ACCT_CONFIG (R223): Command that configures the accounting ring -/
  | pclAcctConfig (c : Cmd)
  /-- PCL_INST_STATUS (R201): Command that reports an instance's state and counts -/
  | pclInstStatus (c : Cmd)
  /-- INST_RESET_DRAINED (R214): Every engine reports no old-generation work; the instance becomes Active and the reply leaves -/
  | instResetDrained (i : Nat)
  /-- INST_RESET_TIMEOUT (R214): An engine has not reported within 10 ms and a device fault is raised -/
  | instResetTimeout (i die : Nat)
  /-- MAP_SET_DRAINED (R207): Old translations complete and granules are zeroed; PCL_MAP_SET replies -/
  | mapSetDrained (i : Nat)
  /-- ENERGY_INTERVAL (R217): Every 100 microseconds field energy is apportioned and budget credits updated -/
  | energyInterval 
  /-- ACCT_PERIOD (R224): The accounting period expires and PERIOD records are written -/
  | acctPeriod 
  /-- PCL_PACED_READ (R220): Read-and-clear of the paced beat count -/
  | pclPacedRead (p : Nat)
  /-- PCL_ACCTDROP_READ (R223): Read-and-clear of lost accounting records -/
  | pclAcctdropRead 
  /-- SYS_SYNC (R236): Command that resynchronises a channel's sequence number -/
  | sysSync (c : Cmd)
  /-- SYS_IDENTIFY (R242): Command that returns the part's identity -/
  | sysIdentify (c : Cmd)
  /-- SYS_ABORT (R240): Command that aborts a command on its own channel -/
  | sysAbort (c : Cmd)
  /-- SYS_ECHO (R243): Command that returns its parameters -/
  | sysEcho (c : Cmd)
  /-- SYS_REG_READ (R244): Command that reads control-space registers -/
  | sysRegRead (c : Cmd)
  /-- SYS_REG_WRITE (R244): Command that writes control-space registers -/
  | sysRegWrite (c : Cmd)
  /-- SYS_CHAN_SET (R245): Command that binds and enables a channel -/
  | sysChanSet (c : Cmd)
  /-- SYS_CHAN_STATUS (R246): Command that reports a channel's state -/
  | sysChanStatus (c : Cmd)
  /-- SYS_RING_SET (R247): Command that configures an on-device ring channel -/
  | sysRingSet (c : Cmd)
  /-- UNKNOWN_OPCODE (R14): A command with an unassigned or undefined opcode is rejected -/
  | unknownOpcode (op : Nat) (c : Cmd)
  /-- COMMAND_PACKET_DISCARD (R237): A packet that fails framing is discarded without reply -/
  | commandPacketDiscard (ch src : Nat) (raw : List Byte)
  /-- COMMAND_RING_POLL (R231): A ring channel is checked on doorbell or poll and the next command fetched if room allows -/
  | commandRingPoll (ch : Nat) (h : HostRing)
  /-- MCTP_REASSEMBLY_TIMEOUT (R237): An MCTP message not reassembled within 100 ms is discarded -/
  | mctpReassemblyTimeout 
  /-- REPLY_BOUND_EXPIRE (R238): A command passes its reply bound; BOUND is raised and 0x000D emitted -/
  | replyBoundExpire (ch : Nat) (seq : BitVec 32)
  /-- REGISTER_WRITE (R9): Write to a control-space register that has no row of its own -/
  | registerWrite (addr : Nat) (v : BitVec 64)
  /-- HELLO_SEND (R255): A HELLO is sent on each fabric link every 1 ms -/
  | helloSend (link : Nat)
  /-- HELLO_RECEIVE (R255): A HELLO is received and adjacency and candidate updated -/
  | helloReceive (link : Nat) (z : ZFrame)
  /-- ADJACENCY_DOWN (R255): No hello for 3 ms takes an adjacency down -/
  | adjacencyDown (link : Nat) (key : BitVec 64)
  /-- LSA_SEND (R257): A device sends its LSA on change or every 100 ms -/
  | lsaSend 
  /-- LSA_RECEIVE (R257): An LSA is received, its path extended, and forwarded or used by the fabric manager -/
  | lsaReceive (link : Nat) (z : ZFrame)
  /-- ROUTES_RECEIVE (R258): A ROUTES frame is forwarded along its path or accepted -/
  | routesReceive (link : Nat) (z : ZFrame)
  /-- HEARTBEAT_SEND (R258): The fabric manager sends a heartbeat every 10 ms -/
  | heartbeatSend 
  /-- ROUTES_RESEND (R258): The fabric manager resends an epoch table every 1 ms until acknowledged -/
  | routesResend (key : BitVec 64)
  /-- HEARTBEAT_LOSS (R256): No heartbeat for 50 ms excludes the candidate and elects again -/
  | heartbeatLoss 
  /-- CANDIDATE_EXCLUSION_END (R256): A 100 ms exclusion of a candidate key ends -/
  | candidateExclusionEnd (key : BitVec 64)
  /-- ZAREN_WRITE_RECEIVE (R268): A Zaren WRITE frame is written through the instance map -/
  | zarenWriteReceive (link : Nat) (z : ZFrame)
  /-- ZAREN_READ_RECEIVE (R268): A Zaren READ frame is answered with DATA frames -/
  | zarenReadReceive (link : Nat) (z : ZFrame)
  /-- ZAREN_DATA_RECEIVE (R268): A Zaren DATA frame is passed to the requesting facet as DATA flits -/
  | zarenDataReceive (link : Nat) (z : ZFrame)
  /-- ZAREN_TOKEN_RECEIVE (R268): A Zaren TOKEN frame signals a facet and returns DONE -/
  | zarenTokenReceive (link : Nat) (z : ZFrame)
  /-- ZAREN_DONE_RECEIVE (R268): DONE becomes an ACK flit to the source facet -/
  | zarenDoneReceive (link : Nat) (z : ZFrame)
  /-- ZAREN_FAIL_RECEIVE (R269): FAIL becomes a NACK flit carrying its status -/
  | zarenFailReceive (link : Nat) (z : ZFrame)
  /-- PACK_RECEIVE (R265): A PACK acknowledges frames of a flow, or triggers resend -/
  | packReceive (link : Nat) (z : ZFrame)
  /-- CMD_FRAME_RECEIVE (R228): A CMD frame carries a command packet to a fabric channel -/
  | cmdFrameReceive (link : Nat) (z : ZFrame)
  /-- ENCAP_RECEIVE (R254): An ENCAP frame is decapsulated and its inner frame parsed -/
  | encapReceive (link : Nat) (z : ZFrame)
  /-- RESYNC_RECEIVE (R266): A RESYNC request or reply restarts a flow at PSN 0 -/
  | resyncReceive (link : Nat) (z : ZFrame)
  /-- ZAREN_FORWARD (R262): A transit Zaren frame is forwarded on its route or discarded -/
  | zarenForward (link : Nat) (z : ZFrame)
  /-- PEER_TRANSFER_DONE (R268): Once all writes of a peer transfer are acknowledged, the signal is applied and DONE sent -/
  | peerTransferDone (src tag : Nat)
  /-- ZLK_RTO_EXPIRE (R265): An unacknowledged frame is retransmitted after ZLK_RTO -/
  | zlkRtoExpire (dev cls : Nat)
  /-- ZAREN_ACK_TIMER (R264): A receiver sends an acknowledgement within 2 microseconds of an unacknowledged arrival -/
  | zarenAckTimer (dev cls : Nat)
  /-- RESYNC_SEND (R266): A failed flow resends a RESYNC request every ZLK_RTO -/
  | resyncSend (dev cls : Nat)
  /-- GPTP_MESSAGE_RECEIVE (R271): A gPTP message is processed for time synchronisation -/
  | gptpMessageReceive (link : Nat) (m : GptpMsg)
  /-- GPTP_LOCK_LOSS (R272): A device loses lock by offset or missed synchronisations and timed jobs pause -/
  | gptpLockLoss (offset : Int)
  /-- GRANDMASTER_LOCK (R272): A grandmaster becomes locked after 1 s -/
  | grandmasterLock 
  /-- GATE_ENTRY_ADVANCE (R273): The next gate list entry takes effect on a port -/
  | gateEntryAdvance (port : Nat)
  /-- ADMIN_GATE_START (R276): An administrative gate list starts at its base time -/
  | adminGateStart (port : Nat)
  /-- FAB_GATE_SET (R281): Command that sets a port's administrative gate list -/
  | fabGateSet (c : Cmd)
  /-- FAB_JOB_GET (R279): Command that reports a job binding and its bounds -/
  | fabJobGet (c : Cmd)
  /-- FAB_NEIGH_GET (R255): Command that lists a link's adjacencies -/
  | fabNeighGet (c : Cmd)
  /-- ZLK_PORT_WRITE (R275): Write of a port's fabric mode, ignored while gated -/
  | zlkPortWrite (port : Nat) (v : BitVec 64)
  /-- ZLK_DISCARD_READ (R252): Read-and-clear of fabric discard counts -/
  | zlkDiscardRead (n : Nat)
  /-- FRAME_RECEIVE (R295): A received frame is checked, parsed, classified and delivered -/
  | frameReceive (link : Nat) (fr : EthFrame)
  /-- LINK_UP (R283): A link completes negotiation, training and FEC alignment and enters Up: one of these steps
  at a time -/
  | linkUp (link : Nat)
  /-- LINK_RESTART (R283): A link not Up within 1 s restarts -/
  | linkRestart (link : Nat)
  /-- LINK_FAULT (R283): A local or remote fault takes a link out of Up -/
  | linkFault (link : Nat) (lf rf phy : Bool)
  /-- MGMT_FRAME_RECEIVE (R288): The management port answers ARP, neighbour solicitation, echo or command datagrams -/
  | mgmtFrameReceive (fr : List Byte)
  /-- NET_RULE_SET (R296): Command that writes a classification rule slot -/
  | netRuleSet (c : Cmd)
  /-- NET_RULE_CLEAR (R296): Command that clears a rule slot -/
  | netRuleClear (c : Cmd)
  /-- NET_RULE_GET (R293): Command that returns a rule and its hit counts -/
  | netRuleGet (c : Cmd)
  /-- NET_QUEUE_SET (R301): Command that creates, replaces or removes a receive queue -/
  | netQueueSet (c : Cmd)
  /-- NET_QUEUE_GET (R301): Command that returns a receive queue's status -/
  | netQueueGet (c : Cmd)
  /-- NET_PORT_WRITE (R284): Write of port settings; SPLIT and MEDIA ignored while enabled, clearing ENABLE takes links down -/
  | netPortWrite (port : Nat) (v : BitVec 64)
  /-- NET_LINK_READ (R283): Read-and-clear of a link's restart count -/
  | netLinkRead (link : Nat)
  /-- NET_DROP_READ (R302): Read-and-clear of a die's drop counts -/
  | netDropRead (k n : Nat)
  /-- NET_QSTAT_READ (R302): Read-and-clear of a receive queue's drop count -/
  | netQstatRead (q : Nat)
  /-- TRANSMIT_SELECT (R309): A free link chooses the next eligible frame by class, gate, shaper and deficit round robin -/
  | transmitSelect (link : Nat)
  /-- SHAPER_REFILL (R312): Each microsecond shapers gain RATE bits and pending COMPAT changes apply -/
  | shaperRefill 
  /-- TMS_METER_SET (R317): Command that creates or changes a meter -/
  | tmsMeterSet (c : Cmd)
  /-- TMS_SHAPER_SET (R314): Command that creates or changes a shaper -/
  | tmsShaperSet (c : Cmd)
  /-- TMS_OBJ_FREE (R321): Command that frees a meter or shaper -/
  | tmsObjFree (c : Cmd)
  /-- TMS_OBJ_GET (R320): Command that returns a meter or shaper and its buckets -/
  | tmsObjGet (c : Cmd)
  /-- TMS_EQ_SET (R322): Command that configures an egress queue -/
  | tmsEqSet (c : Cmd)
  /-- TMS_IQMAP_SET (R307): Command that maps a link, instance and class to an egress queue -/
  | tmsIqmapSet (c : Cmd)
  /-- TMS_EQSTAT_READ (R308): Read-and-clear of a queue's drop count -/
  | tmsEqstatRead (q : EqName)
  /-- TMS_DROP_READ (R308): Read-and-clear of a die's egress drop counts -/
  | tmsDropRead (k n : Nat)
  /-- ROCE_WRITE_RECEIVE (R335): An RDMA WRITE packet is checked and written by the responder -/
  | roceWriteReceive (link : Nat) (pk : RocePkt)
  /-- ROCE_READ_REQUEST_RECEIVE (R335): An RDMA READ request is checked and served -/
  | roceReadRequestReceive (link : Nat) (pk : RocePkt)
  /-- ROCE_READ_RESPONSE_RECEIVE (R333): An RDMA READ response is written locally -/
  | roceReadResponseReceive (link : Nat) (pk : RocePkt)
  /-- ROCE_ACK_RECEIVE (R337): An acknowledgement or NAK completes, resends or fails requests -/
  | roceAckReceive (link : Nat) (pk : RocePkt)
  /-- DOORBELL_RING_POLL (R331): The engine reads an instance's doorbell ring every POLL_NS -/
  | doorbellRingPoll (i : Nat)
  /-- RMA_DB (R381): BAR doorbell write naming a queue pair -/
  | rmaDb (fn : Nat) (v : BitVec 64)
  /-- WORK_REQUEST_FETCH (R332): A work request is fetched, checked and started -/
  | workRequestFetch (qp : Nat)
  /-- ROCE_PACKET_SEND (R345): A request packet begins once the congestion window allows -/
  | rocePacketSend (qp : Nat)
  /-- ROCE_RETRANSMIT_TIMEOUT (R337): Unacknowledged requests are resent, or the request fails after RETRY -/
  | roceRetransmitTimeout (qp : Nat)
  /-- ROCE_ACK_TIMER (R336): The responder acknowledges within 2 microseconds -/
  | roceAckTimer (qp : Nat)
  /-- CONTEXT_FETCH_DONE (R343): A queue-pair context is fetched and its parked packets applied -/
  | contextFetchDone (qp : Nat)
  /-- BASE_DELAY_REFRESH (R345): Every 10 s the base delay is reset to the recent minimum -/
  | baseDelayRefresh 
  /-- COMPLETION_ENTRY_WRITE (R334): A completion entry is written once the completion ring has room -/
  | completionEntryWrite (qp : Nat)
  /-- RMA_CTX_AREA (R342): Command that sets the queue-pair context area -/
  | rmaCtxArea (c : Cmd)
  /-- RMA_PD_ALLOC (R328): Command that allocates a protection domain -/
  | rmaPdAlloc (c : Cmd)
  /-- RMA_PD_FREE (R328): Command that frees a protection domain -/
  | rmaPdFree (c : Cmd)
  /-- RMA_QP_CREATE (R329): Command that creates a queue pair -/
  | rmaQpCreate (c : Cmd)
  /-- RMA_QP_MODIFY (R330): Command that moves a queue pair between states -/
  | rmaQpModify (c : Cmd)
  /-- RMA_QP_DESTROY (R348): Command that destroys a queue pair -/
  | rmaQpDestroy (c : Cmd)
  /-- RMA_QP_GET (R330): Command that reports a queue pair -/
  | rmaQpGet (c : Cmd)
  /-- RMA_MW_OPEN (R339): Command that opens a memory window -/
  | rmaMwOpen (c : Cmd)
  /-- RMA_MW_REVOKE (R340): Command that marks a window revoking -/
  | rmaMwRevoke (c : Cmd)
  /-- MW_REVOKE_DRAINED (R340): Accesses checked before revocation finish; WGEN rises and the window frees -/
  | mwRevokeDrained (w : Nat)
  /-- RMA_DB_SET (R331): Command that sets an instance's doorbell ring -/
  | rmaDbSet (c : Cmd)
  /-- SQ_DOORBELL_WRITE (R357): A host writes an NVMe doorbell in BAR0 -/
  | sqDoorbellWrite (fn off : Nat) (v : BitVec 32)
  /-- DOORBELL_AREA_POLL (R356): The engine reads a Device controller's doorbell area every POLL_US -/
  | doorbellAreaPoll (i : Nat)
  /-- CC_EN_WRITE (R352): Host write of CC.EN enabling or resetting a Host controller -/
  | ccEnWrite (fn : Nat) (v : BitVec 32)
  /-- CC_SHN_WRITE (R370): Host write of CC.SHN starting shutdown -/
  | ccShnWrite (fn : Nat) (v : BitVec 32)
  /-- DELETE_IO_SQ (R367): Admin command that deletes an I/O submission queue -/
  | deleteIoSq (e : NvmeFetch)
  /-- CREATE_IO_SQ (R355): Admin command that creates an I/O submission queue -/
  | createIoSq (e : NvmeFetch)
  /-- GET_LOG_PAGE (R354): Admin command that returns a log page -/
  | getLogPage (e : NvmeFetch)
  /-- DELETE_IO_CQ (R355): Admin command that deletes an I/O completion queue -/
  | deleteIoCq (e : NvmeFetch)
  /-- CREATE_IO_CQ (R356): Admin command that creates an I/O completion queue -/
  | createIoCq (e : NvmeFetch)
  /-- IDENTIFY (R354): Admin command that returns identify data -/
  | identify (e : NvmeFetch)
  /-- NVME_ABORT (R368): Admin command that aborts a fetched command -/
  | nvmeAbort (e : NvmeFetch)
  /-- SET_FEATURES (R354): Admin command that sets a feature -/
  | setFeatures (e : NvmeFetch)
  /-- GET_FEATURES (R354): Admin command that returns a feature -/
  | getFeatures (e : NvmeFetch)
  /-- ASYNCHRONOUS_EVENT_REQUEST (R354): Admin command that waits for an asynchronous event -/
  | asynchronousEventRequest (e : NvmeFetch)
  /-- NVM_FLUSH (R364): I/O command that flushes earlier writes -/
  | nvmFlush (e : NvmeFetch)
  /-- NVM_WRITE (R361): I/O command that writes LBAs -/
  | nvmWrite (e : NvmeFetch)
  /-- NVM_READ (R361): I/O command that reads LBAs -/
  | nvmRead (e : NvmeFetch)
  /-- WRITE_ZEROES (R354): I/O command that zeroes LBAs -/
  | writeZeroes (e : NvmeFetch)
  /-- DATASET_MANAGEMENT (R354): I/O command that deallocates LBAs -/
  | datasetManagement (e : NvmeFetch)
  /-- BACKING_COMPLETE (R360): A backing access finishes and the completion entry and signal are posted; `o` is
  what the stacks reported of an access to HBM (R167) -/
  | backingComplete (id : Nat) (o : ReadOutcome)
  /-- DRIVE_COMPLETION_RECEIVE (R365): A local drive completes a command -/
  | driveCompletionReceive (id : Nat) (r : BackingResult)
  /-- DRIVE_TIMEOUT (R365): A drive command exceeds NVC_DRVTO and is aborted -/
  | driveTimeout (id : Nat)
  /-- DRIVE_RESET_TIMEOUT (R365): An aborted drive command still incomplete after 1 s resets the drive -/
  | driveResetTimeout (id : Nat)
  /-- DRIVE_LINK_UP (R365): A drive link comes up and the drive is enabled and enumerated -/
  | driveLinkUp (port : Nat) (d : DriveInfo)
  /-- APST_IDLE_EXPIRE (R373): The idle timer enters the APST target power state -/
  | apstIdleExpire (i : Nat)
  /-- STO_CTRL_EN (R352): Command that enables, resets or shuts down a Device controller -/
  | stoCtrlEn (c : Cmd)
  /-- STO_CTRL_STATUS (R353): Command that reports a controller -/
  | stoCtrlStatus (c : Cmd)
  /-- STO_NS_CREATE (R361): Command that creates a namespace -/
  | stoNsCreate (c : Cmd)
  /-- STO_NS_DELETE (R362): Command that deletes a namespace -/
  | stoNsDelete (c : Cmd)
  /-- STO_NS_ATTACH (R361): Command that attaches or detaches a namespace -/
  | stoNsAttach (c : Cmd)
  /-- STO_NS_COPY (R376): Command that copies LBAs between namespaces -/
  | stoNsCopy (c : Cmd)
  /-- STO_DRIVE_STATUS (R365): Command that reports a drive -/
  | stoDriveStatus (c : Cmd)
  /-- NVC_CTRL_READ (R366): Read-and-clear of a controller's lost completion count -/
  | nvcCtrlRead (i : Nat)
  /-- CONFIG_REQUEST (R379): A configuration request to the endpoint -/
  | configRequest (fn : Nat) (r : CfgReq)
  /-- BAR0_BAD_ACCESS (R382): A BAR0 access of `size` bytes of wrong size or alignment is refused; one of right size and alignment
  acts on a register that has no row of its own (log entry 13) -/
  | bar0BadAccess (fn off size : Nat) (write : Bool) (v : BitVec 64)
  /-- MB_CFG_WRITE (R382): Write of mailbox ring length, which programs the rings -/
  | mbCfgWrite (fn : Nat) (v : BitVec 64)
  /-- MB_DOORBELL (R231): Write that makes the Destan check a mailbox command ring -/
  | mbDoorbell (fn : Nat) (h : HostRing)
  /-- INBOUND_READ (R385): A host memory read through BAR2 is translated and completed -/
  | inboundRead (fn off len tag : Nat)
  /-- INBOUND_WRITE (R385): A host memory write through BAR2 is translated and performed -/
  | inboundWrite (fn off : Nat) (data : List Byte) (ep : Bool)
  /-- MASTER_READ_ISSUE (R391): An outbound read is sent once a tag and buffer room are free -/
  | masterReadIssue (fn : Nat)
  /-- COMPLETION_RECEIVE (R392): A completion piece is checked and written -/
  | completionReceive (pc : CplPiece)
  /-- COMPLETION_TIMEOUT (R393): A read times out and its tag is quarantined -/
  | completionTimeout (fn tag : Nat)
  /-- TAG_QUARANTINE_END (R393): A quarantined tag becomes free -/
  | tagQuarantineEnd (fn tag : Nat)
  /-- BUS_MASTER_DISABLE (R395): Bus Master Enable clears and the function masters nothing -/
  | busMasterDisable (fn : Nat)
  /-- FUNCTION_LEVEL_RESET (R396): A function-level reset runs its five steps -/
  | functionLevelReset (fn : Nat)
  /-- VF_ENABLE_CLEAR (R397): Clearing VF Enable resets every VF -/
  | vfEnableClear 
  /-- HOT_RESET (R397): A hot reset or link loss resets every function -/
  | hotReset 
  /-- D3HOT_ENTRY (R400): A function enters or leaves D3hot -/
  | d3hotEntry (fn : Nat) (d3 : Bool)
  /-- PME_TURN_OFF (R400): PME_Turn_Off is acknowledged and the link enters L2/L3 Ready -/
  | pmeTurnOff 
  /-- ENDPOINT_LINK_RETRY (R377): An endpoint link below 16 GT/s is taken down and retried after 1 s -/
  | endpointLinkRetry 
  /-- PCE_WINDOW_DRAINED (R386): Accesses with an old window entry complete and the window command replies -/
  | pceWindowDrained (outbound : Bool) (entry : Nat)
  /-- PCE_FN_BIND (R380): Command that binds a VF to an instance -/
  | pceFnBind (c : Cmd)
  /-- PCE_IWIN_SET (R383): Command that sets an inbound window -/
  | pceIwinSet (c : Cmd)
  /-- PCE_OWIN_SET (R387): Command that sets an outbound window -/
  | pceOwinSet (c : Cmd)
  /-- PCE_WIN_GET (R383): Command that returns a window entry -/
  | pceWinGet (c : Cmd)
  /-- PCE_DIRTY_SET (R402): Command that sets written-page logging -/
  | pceDirtySet (c : Cmd)
  /-- PCE_DIRTY_SWAP (R403): Command that swaps the active dirty bitmap -/
  | pceDirtySwap (c : Cmd)
  /-- PCE_APER_SET (R382): Command that sets aperture sizes -/
  | pceAperSet (c : Cmd)
  /-- PCE_WAKE (R401): Command that raises a PME event -/
  | pceWake (c : Cmd)
  /-- PCE_FN_STATUS (R389): Command that reports a function -/
  | pceFnStatus (c : Cmd)
  /-- ROOT_PORT_LINK_RETRY (R404): A root port with its link down retries every 1 s -/
  | rootPortLinkRetry (port : Nat)
  /-- DRIVE_REQUEST_RECEIVE (R405): A drive's memory request is checked against its grants -/
  | driveRequestReceive (port : Nat) (r : DriveReq)
  /-- PCE_LINK_READ (R377): Read-and-clear of endpoint retrain count -/
  | pceLinkRead 
  /-- PCE_RPORT_READ (R404): Read-and-clear of a root port's error count -/
  | pceRportRead (port : Nat)
  /-- CIP_CTX_SET (R410): Command that allocates or keys a cipher context -/
  | cipCtxSet (c : Cmd)
  /-- CIP_CTX_FREE (R411): Command that frees a cipher context -/
  | cipCtxFree (c : Cmd)
  /-- CIP_OP (R414): Command that encrypts or decrypts a piece -/
  | cipOp (c : Cmd)
  /-- CIP_STATE_SAVE (R417): Command that saves an open chain -/
  | cipStateSave (c : Cmd)
  /-- CIP_STATE_RESTORE (R418): Command that reopens a chain from a record -/
  | cipStateRestore (c : Cmd)
  /-- CIP_QP_BIND (R420): Command that binds cipher contexts to a queue pair -/
  | cipQpBind (c : Cmd)
  /-- CIP_HASH (R406): Command that computes SHA-256 -/
  | cipHash (c : Cmd)
  /-- CIP_LMS_VERIFY (R406): Command that verifies an HSS signature -/
  | cipLmsVerify (c : Cmd)
  /-- CIP_STATUS_READ (R422): Read-and-clear of the erasure count -/
  | cipStatusRead 
  /-- AVS_SAMPLE (R427): Every 10 microseconds rail voltage and current are read and energy integrated -/
  | avsSample (readings : List (Option (Nat × Nat)))
  /-- ISSUE_GATE_REOPEN (R432): After 10 microseconds gates reopen in field order -/
  | issueGateReopen (field : Nat)
  /-- THERMAL_CEILING_TICK (R428): Each millisecond thermal ceilings move by 10 mV -/
  | thermalCeilingTick (temps : List Nat)
  /-- POWER_CAP_TICK (R431): Each millisecond cap ceilings move by the 100 ms mean power -/
  | powerCapTick 
  /-- DOZE_IDLE_EXPIRE (R435): Entry conditions held for DOZE_IDLE start entry to Doze -/
  | dozeIdleExpire 
  /-- RUNG_ENTRY_START (R435): Entry to Sleep or Dormant begins 1 ms after the reply -/
  | rungEntryStart 
  /-- RUNG_ENTRY_COMPLETE (R434): Entry to a deeper rung completes -/
  | rungEntryComplete 
  /-- WAKE_EVENT (R438): A wake event abandons entry or starts exit to Run -/
  | wakeEvent (w : Wake)
  /-- WAKE_AT_EXPIRE (R435): The WAKE_AT time is reached -/
  | wakeAtExpire 
  /-- RUNG_EXIT_COMPLETE (R434): Exit finishes and the device is at Run -/
  | rungExitComplete 
  /-- PORST_N_DEASSERT (R439): Power-on reset ends and boot begins -/
  | porstNDeassert (b : BootInput)
  /-- PORST_N_ASSERT (R487): Power-on reset asserted; enables drop and state is lost -/
  | porstNAssert 
  /-- PFW_N_ASSERT (R449): Power-fail warning closes gates, stops work and flushes the loupe -/
  | pfwNAssert 
  /-- PFW_N_DEASSERT (R449): Power-fail warning ends and gates reopen -/
  | pfwNDeassert 
  /-- PWRWAKE_N_ASSERT (R435): The wake pin is asserted -/
  | pwrwakeNAssert 
  /-- PWR_RUNG_SET (R435): Command that sets the rung floor -/
  | pwrRungSet (c : Cmd)
  /-- PWR_STATUS (R434): Command that reports power state -/
  | pwrStatus (c : Cmd)
  /-- PWR_CAP_SET (R431): Command that sets the package power cap -/
  | pwrCapSet (c : Cmd)
  /-- PWR_PACE_SET (R430): Command that sets a parcel's VPACE -/
  | pwrPaceSet (c : Cmd)
  /-- FW_STAGE (R446): Command that writes image bytes into the idle slot -/
  | fwStage (c : Cmd)
  /-- FW_COMMIT (R446): Command that verifies and commits the staged slot -/
  | fwCommit (c : Cmd)
  /-- FW_ACTIVATE (R446): Command that stops fetching and starts the committed image -/
  | fwActivate (c : Cmd)
  /-- FW_ACTIVATE_DRAINED (R446): Commands in progress finish, or 500 ms passes, and activation proceeds or is abandoned -/
  | fwActivateDrained 
  /-- FW_FLOOR_SET (R447): Command that raises the rollback floor -/
  | fwFloorSet (c : Cmd)
  /-- ATTEST_QUOTE (R448): Command that writes a signed quote -/
  | attestQuote (c : Cmd)
  /-- PWR_RAILCTL_WRITE (R492): Write of rail controller settings with per-field ignore rules -/
  | pwrRailctlWrite (v : BitVec 64)
  /-- PWR_GATES_READ (R432): Read-and-clear of gate and wake-drop counts -/
  | pwrGatesRead 
  /-- EVENT_STAGE (R452): The arbiter takes an event, assigns SEQ and writes the record into staging -/
  | eventStage 
  /-- LOG_DRAIN (R455): A staged record drains to the device log and instance log -/
  | logDrain 
  /-- TIME_MARK (R451): A TIME_MARK record is written every MARK_MS -/
  | timeMark 
  /-- FLASH_FLUSH (R460): Recent records are flushed to a flash segment -/
  | flashFlush (ok : Bool)
  /-- FREEZE_LIMIT_EXPIRE (R458): A frozen log thaws automatically with FREEZE_END -/
  | freezeLimitExpire (target : Nat)
  /-- LOG_DLOG_SET (R454): Command that places the device log -/
  | logDlogSet (c : Cmd)
  /-- LOG_ILOG_SET (R456): Command that sets an instance log -/
  | logIlogSet (c : Cmd)
  /-- LOG_FREEZE (R458): Command that freezes or thaws a log -/
  | logFreeze (c : Cmd)
  /-- LOG_FLUSH (R460): Command that flushes records to flash -/
  | logFlush (c : Cmd)
  /-- LOG_FLASH_READ (R459): Command that copies a flash segment to memory -/
  | logFlashRead (c : Cmd)
  /-- LOG_DROP_READ (R455): Read-and-clear of dropped record counts -/
  | logDropRead (sev : Nat)
  /-- LOG_OVF_READ (R452): Read-and-clear of overflow counts -/
  | logOvfRead (blk : Nat)
  /-- DGN_FAULT_GET (R474): Command that returns fault table entries -/
  | dgnFaultGet (c : Cmd)
  /-- DGN_FAULT_CLEAR (R474): Command that clears a fault entry -/
  | dgnFaultClear (c : Cmd)
  /-- DGN_DIE_RESTART (R475): Command that restarts a failed die or stack -/
  | dgnDieRestart (c : Cmd)
  /-- DGN_DEVICE_RESET (R475): Command that restarts boot at the mask ROM -/
  | dgnDeviceReset (c : Cmd)
  /-- DGN_INJECT (R475): Command that arms an injected error -/
  | dgnInject (c : Cmd)
  /-- ENGINE_WD (R468): A girdle engine handshake exceeds 100 microseconds and the die fails -/
  | engineWd (die : Nat)
  /-- UCIE_RETRY (R21): A UCIe module exhausts its retries and its die fails -/
  | ucieRetry (die : Nat)
  /-- BEZEL_WATCHDOG (R469): The bezel is not serviced within 100 ms and restarts -/
  | bezelWatchdog 
  /-- LOCKSTEP_MISMATCH (R469): The bezel microcontrollers disagree and restart -/
  | lockstepMismatch 
  /-- BEZEL_RESTART_DONE (R469): The bezel finishes restarting from the running image -/
  | bezelRestartDone 
  /-- PCIE_INTERNAL (R398): An uncorrectable internal endpoint error takes the link down -/
  | pcieInternal 
  /-- VOLTAGE_ALARM (R471): An armed rail leaves its limits or a power good fails -/
  | voltageAlarm (sensor : Nat)
  /-- TEMPERATURE_ALARM (R471): A junction sensor exceeds 110 degrees -/
  | temperatureAlarm (sensor : Nat)
  /-- CLOCK_ALARM (R471): The timekeeping reference drifts or stops -/
  | clockAlarm (sensor : Nat)
  /-- TAMPER_ALARM (R471): The lid mesh or TAMPER_N reports tamper -/
  | tamperAlarm (sensor : Nat)
  /-- ALARM_CLEAR (R471): An alarm condition absent for 10 ms clears and wrapping keys are derived again -/
  | alarmClear (source : Nat)
  /-- PG_TIMEOUT (R486): A power good not asserted within 1 ms of its enable raises the voltage alarm -/
  | pgTimeout (grp : Nat)
  /-- PERST_N_ASSERT (R397): Endpoint reset asserted; every function resets -/
  | perstNAssert 
  /-- PERST_N_DEASSERT (R379): Endpoint reset released; configuration follows -/
  | perstNDeassert 
  /-- PRSNT_N_CHANGE (R480): A drive-present input changes -/
  | prsntNChange (port : Nat) (high : Bool)
  /-- PPS_OUT (R480): The gPTP second pulse rises at each whole second while locked -/
  | ppsOut 
  /-- MGMT_PHY_RESET_RELEASE (R480): The management PHY reset is released 10 ms after VIO -/
  | mgmtPhyResetRelease 
  /-- SPUT_SOURCE_READ (R67): The stream engine finishes reading every source byte of a SPUT and applies its local signal -/
  | sputSourceRead (f tag : Nat)
  /-- CAPTURE_COMPLETE (R190): A device finishes copying facet state to the save area at a checkpoint boundary and sends ARMED or stops holding -/
  | captureComplete (p : Nat)
  /-- RESUME_WINDOW_START (R150): A paused timed cut reaches the TIME given by CUT_RESUME, so W(p+1) opens and the facets are released -/
  | resumeWindowStart (p : Nat)
  /-- GPTP_SYNC_SEND (R271): Every log sync interval, and for peer-delay measurement, the device sends its gPTP messages on each fabric link -/
  | gptpSyncSend (link : Nat)
  /-- PREEMPTION_VERIFIED (R273): A link passes the 802.3br verify process and preemption of TC5 to TC0 becomes allowed -/
  | preemptionVerified (link : Nat)
  /-- ENDPOINT_LINK_UP (R397): The PCIe endpoint link finishes training, master requests may resume and Endpoint containment ends -/
  | endpointLinkUp (flit : Bool) (rate width : Nat)
  /-- ROOT_PORT_LINK_DOWN (R404): A root port's drive link goes down, and commands for that drive's namespaces complete with SC 0x82 -/
  | rootPortLinkDown (port : Nat)
  /-- ROOT_PORT_AER_ERROR (R404): A root port or its drive reports an AER error, which is logged; an uncorrectable one resets the drive's controller -/
  | rootPortAerError (port : Nat) (uncorr : Bool)
  /-- AGGREGATION_TIME_EXPIRE (R354): An Interrupt Coalescing aggregation time runs out and the held MSI-X message of a completion queue is sent -/
  | aggregationTimeExpire (i cq : Nat)
  /-- PG_ASSERT (R485): A power-good input asserts after its enable is released, and power-on goes on to the next rail -/
  | pgAssert (grp : Nat)
  /-- REFERENCE_CLOCK_CHANGE (R484): ETHk_REFCLK or PE_REFCLK goes missing or returns, taking that die's links or the endpoint link down or letting it train -/
  | referenceClockChange (clk : Nat) (present : Bool)
  /-- MGMT_LINK_CHANGE (R288): The management port's SGMII PHY link goes down or comes up, and channel 0 state is kept -/
  | mgmtLinkChange (up : Bool)
  /-- FW_ACTIVATE_COMPLETE (R446): The bezel finishes starting the committed image; fetching resumes and the new firmware replies, or it falls back with 0xB008 -/
  | fwActivateComplete (ok : Bool)
  deriving DecidableEq, Repr

end Sys2Proof
end

