-- ==== Sys2Proof/Config.lean ====
section
/-! DEFINITION. What an implementation fixes and this spec does not: constants without a body, so that every
statement holds whatever they are (log entry 6). -/

namespace Sys2Proof

/-- The order number is FXD-3232-E (R1, R2); otherwise it is FXD-3232-P. -/
opaque Config.energyBinned : Bool

/-- The weights AP, AS, AV, AM of the signed trims, in fJ (R217, PCL_APPW). -/
opaque Config.weightP : BitVec 16
opaque Config.weightS : BitVec 16
opaque Config.weightV : BitVec 16
opaque Config.weightM : BitVec 16

/-- The static part L_f of a field's energy over 100 us, in pJ, at a rail voltage in mV and a temperature in
degrees (R217). -/
opaque Config.leak : Nat → Nat → Nat

/-- The device secret of 32 bytes (R444). -/
opaque Config.deviceSecret : List Byte

/-- The public key of the device, in the trims region (R444): type, OTS type, I, root. -/
opaque Config.devicePub : List Byte

/-- SHA-256 of the vendor's HSS public key, in the mask ROM (R442). -/
opaque Config.vendorKeyHash : List Byte

/-- The randomizer C of the one-time signature of a leaf (R448). -/
opaque Config.lmsRandom : Nat → List Byte

/-- The bytes of Identify Controller that neither this spec nor R354 fixes: serial and model number, firmware
revision, and the rest. -/
opaque Config.identifyByte : Nat → Byte

/-- A byte of the attached host's memory, read by an engine at a local time and output count. -/
opaque Config.hostByte : Nat → Nat → Nat → Byte

/-- A byte that a drive returns, at a local time and output count, by root port and byte number on the drive. -/
opaque Config.driveByte : Nat → Nat → Nat → Nat → Byte

/-- A byte of a peer's memory that an RDMA READ returns, at a local time and output count, by remote address. -/
opaque Config.peerByte : Nat → Nat → Nat → Byte

/-- The settings that the configuration region of the boot flash holds, from its bytes (R439, R441): 0 to 15 NET_PORTn,
16 NET_MGMT_IP4, 17 and 18 the halves of NET_MGMT_IP6, each with its value. -/
opaque Config.configEntries : List Byte → List (Nat × BitVec 64)

/-- The set at which a cached row begins, by instance, table and row (R176). -/
opaque Config.cacheSet : Nat → Nat → Nat → Nat

/-- A byte of a block whose content is free, by the block's number and its place in it (log entry 7). -/
opaque Config.freeByte : Nat → Nat → Byte

/-- A free value by its number (log entry 7). -/
opaque Config.freeValue : Nat → Nat

end Sys2Proof
end

