-- ==== Sys2Proof/Machine/State.lean ====
section
/-! DEFINITION. The state of the Destan: every register, table, queue, buffer, mode and pin the spec gives it,
one structure per chapter, all of it plain data; the reasons a command can stop; and the state right after
power-on reset. Widths are carried by `BitVec` where the value wraps; counts, times, addresses and validated
settings are `Nat`. A `Tbl` lists only the entries that differ from how its reader says an unlisted entry
reads. -/

namespace Sys2Proof.Machine

/-! ## Recorder (spec/18) -/

/-- An event on its way to the recorder (R452, R464): code, the instance and generation it concerns, P0 and P1,
and the parameter bytes after P1. -/
structure Event where
  code  : Nat
  inst  : Option (Nat × BitVec 16)
  p0    : Nat
  p1    : Nat
  extra : List Byte
  deriving DecidableEq, Repr

/-- The input queue of one block: at most 64 events and the pending overflow count (R452). -/
structure InQueue where
  events  : List Event
  pending : Nat
  deriving DecidableEq, Repr

/-- A record in staging (R453): its sequence number and event, whether it is kept in the fixed form, whether it
has drained to the device log (R453) and to the instance log it concerns (R456), and whether a flash segment holds it (R459). -/
structure Record where
  seq     : Nat
  ev      : Event
  fixed   : Bool
  drained : Bool
  copied  : Bool
  inFlash : Bool
  deriving DecidableEq, Repr

/-- The state of a device-log segment as its header shows it (R454). -/
structure Segment where
  sealed   : Bool
  maxSev   : Nat
  count    : Nat
  firstSeq : Nat
  lastSeq  : Nat
  used     : Nat
  deriving DecidableEq, Repr

/-- A freeze in force (R458): LAST_SEQ at the freeze, the six per-severity counts and the thaw instant,
which is 0 once the log thaws and its FREEZE_END is on the way. -/
structure Freeze where
  seq    : Nat
  counts : List Nat
  until_ : Nat
  deriving DecidableEq, Repr

/-- The device log (R454): its instance-0 address, the segments not free, and the filling one. -/
structure DeviceLog where
  addr    : Nat
  segs    : Tbl Segment
  filling : Option Nat
  lastSeq : Nat
  frozen  : Option Freeze
  deriving DecidableEq, Repr

/-- A rate bucket of an instance log (R457): its code, billionths of records it holds, the instant they were
counted, the records suppressed since the last copy, and the SEQ of its last use. -/
structure Bucket where
  code       : Nat
  nano       : Nat
  at_        : Nat
  suppressed : Nat
  used       : Nat
  deriving DecidableEq, Repr

/-- An instance log (R456): ring address, PROD, WRAPS, LAST_SEQ, RATE, the 512 buckets and the freeze. -/
structure InstanceLog where
  ring    : Nat
  prod    : Nat
  wraps   : Nat
  lastSeq : Nat
  rate    : Nat
  buckets : List Bucket
  frozen  : Option Freeze
  deriving DecidableEq, Repr

/-- The loupe (R450 to R463, R490). `lost` are the first and last SEQ overwritten undrained that no DRAIN_LOST has told yet. -/
structure Loupe where
  queues    : Tbl InQueue
  rr        : Nat
  seq       : Nat
  staging   : List Record
  flood     : Bool
  drop      : Tbl Nat
  ovf       : Tbl Nat
  dlog      : Option DeviceLog
  dlogErr   : Bool
  ilogs     : Tbl InstanceLog
  flashSeg  : Nat
  flashErr  : Bool
  flushDue  : Option Nat
  lastFlush : Option Nat
  flushPfw  : Bool
  fallback  : Bool
  fbRing    : Tbl Record
  fbLast    : Nat
  markMs    : Nat
  lastMark  : Nat
  lost      : Option (Nat × Nat)
  deriving DecidableEq, Repr

/-! ## Faults and containment (spec/19) -/

/-- Fault scopes with the codes of the fault entry (R466, R474). -/
inductive Scope where
  | record | command | object | parcel | stack | die | endpoint | bezel | device
  deriving DecidableEq, Repr

/-- The state of a fault entry (R474). -/
inductive FaultStatus where
  | active | causeClear | cleared
  deriving DecidableEq, Repr

/-- An entry of the fault table (R474). -/
structure FaultEntry where
  code     : Nat
  scope    : Scope
  status   : FaultStatus
  object   : Nat
  count    : Nat
  firstSeq : Option Nat
  lastSeq  : Nat
  age      : Nat
  deriving DecidableEq, Repr

/-- The faults' state: the table of 64, the sources of alarms that have not cleared (R471), the
instants of recent BEZEL faults (R469), consecutive time-outs per stack (R468), dies not started or failed
(0 to 7 MG, 8 to 11 NG), armed injections by unit address (R475), whether the bezel is restarting, and the alarms of Sleep and
Dormant, which are recorded at the exit to Run (R487). -/
structure Faults where
  table      : Tbl FaultEntry
  ages       : Nat
  alarms     : List Nat
  bezelTimes : List Nat
  timeouts   : Tbl Nat
  failedDies : List Nat
  inject     : Tbl Nat
  bezelRestart : Bool
  late       : List (Nat × Nat)
  deriving DecidableEq, Repr

/-! ## Command channels (spec/09) -/

/-- The state of a channel (R233, R246). -/
inductive ChanState where
  | disabled | unsynced | synced | error
  deriving DecidableEq, Repr

/-- A command in progress on a channel (R235, R236, R239, R240): what the reply needs, the sender's generation at
its arrival, whether its reply is stale, and whether an abort has been asked. `src` is where the reply goes; `id` tells apart
commands whose SEQ recurs after a SYS_SYNC. -/
structure InProgress where
  id      : Nat
  seq     : BitVec 32
  opcode  : Nat
  crc     : BitVec 32
  params  : List Byte
  src     : Nat
  at_     : Nat
  inst    : Nat
  gen     : BitVec 16
  stale   : Bool
  deriving DecidableEq, Repr

/-- A retained reply (R234), with the instance and generation of its command (R239). -/
structure Retained where
  seq    : BitVec 32
  crc    : BitVec 32
  opcode : Nat
  status : Nat
  detail : Nat
  params : List Byte
  inst   : Nat
  gen    : BitVec 16
  deriving DecidableEq, Repr

/-- A reply on its way out: where it goes, its fields, when its command arrived, and the instance and generation that issued the
command (R225, R239). -/
structure HeldReply where
  dst     : Nat
  opcode  : Nat
  flags   : Nat
  seq     : BitVec 32
  status  : Nat
  detail  : Nat
  at_     : Nat
  inst    : Nat
  gen     : BitVec 16
  params  : List Byte
  deriving DecidableEq, Repr

/-- A channel (R228 to R236, R245 to R247). `peer` is the source of the last SYS_SYNC executed on channel 0; the
ring fields are those of R230, R231; `aborts` are the SYS_ABORT commands waiting for their target's reply, as
(target, abort) identifiers; `nextId` numbers the commands; `held` are the replies that cannot be emitted yet, oldest first, and
`repCons` the CONS last seen of a mailbox's reply ring (R230, R400). -/
structure Channel where
  bound    : Option Nat
  state    : ChanState
  e        : BitVec 32
  rseq     : BitVec 32
  discards : Nat
  source   : Nat
  udpPort  : Nat
  peer     : Option Nat
  inProg   : List InProgress
  kept     : List Retained
  aborts   : List (Nat × Nat)
  nextId   : Nat
  cmdRing  : Nat
  repRing  : Nat
  ringLen  : Nat
  pollUs   : Nat
  cons     : Nat
  prod     : Nat
  repCons  : Nat
  held     : List HeldReply
  deriving DecidableEq, Repr

/-- Names a command in progress: its channel, identifier and sequence number. -/
structure Waiter where
  ch  : Nat
  id  : Nat
  seq : BitVec 32
  deriving DecidableEq, Repr

/-! ## Instances, parcels and accounting (spec/08) -/

/-- The state of an instance (R201). -/
inductive InstState where
  | free | active | resetting | removing
  deriving DecidableEq, Repr

/-- The share fields of R211. -/
structure Shares where
  portWeight : Nat
  storWeight : Nat
  hbmGran    : Nat
  qp         : Nat
  pd         : Nat
  sqp        : Nat
  mw         : Nat
  ns         : Nat
  ciph       : Nat
  meter      : Nat
  shaper     : Nat
  rule       : Nat
  deriving DecidableEq, Repr

/-- A reset or removal under way (R214, R215): who waits for it and when it began. -/
structure ResetWork where
  waiter : Waiter
  began  : Nat
  deriving DecidableEq, Repr

/-- A PCL_MAP_SET in progress (R207): who waits for it, its FIRST, COUNT and ENTRY, how many entries have changed, the device
granules the last changed entries named, and those of them that are zeroed. -/
structure MapWork where
  waiter : Waiter
  first  : Nat
  count  : Nat
  entry  : Nat
  done   : Nat
  olds   : List Nat
  zero   : List Nat
  deriving DecidableEq, Repr

/-- An instance (R201 to R216, R222): the eight cumulative counts are PCL_CNT0 to PCL_CNT7, `last` those at the end of
the last interval of R217 (R224); the energy count keeps
its fraction of a microjoule in femtojoules. -/
structure Instance where
  state    : InstState
  gen      : BitVec 16
  mapBase  : Nat
  mapLen   : Nat
  shares   : Shares
  counts   : Tbl (BitVec 64)
  last     : Tbl (BitVec 64)
  energyFj : Nat
  reset    : Option ResetWork
  mapWork  : List MapWork
  deriving DecidableEq, Repr

/-- The accounting ring and the device's energy accounts (R217, R223, R224). -/
structure Acct where
  ring      : Nat
  ringLen   : Nat
  periodMs  : Nat
  prod      : Nat
  seq       : BitVec 64
  dropped   : Nat
  unowned   : BitVec 64
  unownedFj : Nat
  lastPeriod   : Nat
  lastInterval : Nat
  deriving DecidableEq, Repr

/-! ## Facets (spec/02, spec/03, spec/04) -/

/-- FCT_STATE.STATE (spec/02), which is also the state of a parcel (spec/05). -/
inductive FacetState where
  | empty | loaded | running | paused | done | faulted
  deriving DecidableEq, Repr

/-- FCT_OWNER of a facet in a parcel (spec/02): `pw` and `ph` are the width and height minus 1. -/
structure Owner where
  gen  : BitVec 16
  inst : Nat
  px   : Nat
  py   : Nat
  pw   : Nat
  ph   : Nat
  deriving DecidableEq, Repr

/-- An open loop level (R50). -/
structure LoopLevel where
  start : Nat
  len   : Nat
  trip  : Nat
  idx   : Nat
  deriving DecidableEq, Repr

/-- One stream of a facet: its region, the next index, the open levels from level 0 on, the steps keyed
3 × level + slot (R51), whether it has issued STOP or waits at a BEAT, since when it waits for tokens (R49) with
the limit in force when the wait began, and the scratchpad word it last fetched (R78). -/
structure Stream where
  base    : Nat
  len     : Nat
  next    : Nat
  loops   : List LoopLevel
  steps   : Tbl Int
  stopped : Bool
  atBeat  : Bool
  waiting : Option (Nat × Nat)
  lastWord : Option Nat
  deriving DecidableEq, Repr

/-- FCT_EXC (spec/02). -/
structure Exc where
  more   : Bool
  code   : Nat
  stream : Nat
  index  : Nat
  detail : Nat
  at_    : Nat
  deriving DecidableEq, Repr

/-- The class of an accumulator tile (R57). -/
inductive AccClass where
  | f | i | h | s
  deriving DecidableEq, Repr

/-- A cell of an accumulator tile (R91, R95): V, which in classes H and S holds c in its low 32 bits, and the
flags NAN, PINF, NINF. -/
structure AccCell where
  v    : BitVec 256
  nan  : Bool
  pinf : Bool
  ninf : Bool
  deriving DecidableEq, Repr

/-- An instruction in flight in the matrix or vector engine: its stream, index, words, and the effective values
of its three slots (R52). -/
structure InFlight where
  stream : Nat
  index  : Nat
  word   : BitVec 128
  e0     : Nat
  e1     : Nat
  deriving DecidableEq, Repr

/-- The kinds of transfer of R69. -/
inductive XferKind where
  | put | get | tok | gather
  deriving DecidableEq, Repr

/-- A transfer in flight (R69): its TAG, kind, instruction index and words, the local byte offset, the remote
instance address, the bytes, the peer's rank when it goes to a peer, whether its source has been read, whether
its remote signal is still to be sent as a TOKEN flit, and the acknowledgements still due. -/
structure Xfer where
  tag    : Nat
  kind   : XferKind
  index  : Nat
  word   : BitVec 128
  loc    : Nat
  remote : Nat
  bytes  : Nat
  peer   : Option Nat
  srcRead : Bool
  sig    : Bool
  due    : Nat
  deriving DecidableEq, Repr

/-- The state of a scratchpad bank (R112). -/
inductive BankState where
  | on | retention | off
  deriving DecidableEq, Repr

/-- A stall recorded in TBL_STALL (R129). -/
structure Stall where
  more : Bool
  port : Nat
  vc   : Nat
  deriving DecidableEq, Repr

/-- A request in a bank handshake (R109, R111): the master, whether it writes, and the word. -/
structure BankReq where
  master : Nat
  write  : Bool
  word   : Nat
  deriving DecidableEq, Repr

/-- What a bank has granted in the present bank handshake, in the order of the rotation, when that was, and the master
granted last before it (R111). -/
structure BankUse where
  at_  : Nat
  last : Nat
  reqs : List BankReq
  deriving DecidableEq, Repr

/-- A facet: its registers (spec/02), engines, scoreboard, arrivals, banks and router (spec/04). Vector registers are keyed
64 × register + lane, accumulator cells 2,048 × tile + 64 × i + j. `stepEnd` is MOD[48] of the scoreboard stream's latest
BEAT; `arrived` is when the facet arrived at the present beat. `slots` names the stream of a reserved slot, keyed
16 × port + slot, as 2,048 × source + destination; `wheelPos` is the present slot of a port's wheel; `lastIn` is the input port
an output port served last, keyed 4 × port + channel (R124). `bankSet` holds the states that banks were last asked to take, On when
unlisted; a STATE code of 3 leaves it (R113, R114). -/
structure Facet where
  state    : FacetState
  beats    : BitVec 32
  owner    : Option Owner
  tokown   : BitVec 64
  waitlim  : Nat
  exc      : Option Exc
  fpVec    : BitVec 5
  fpMat    : BitVec 5
  discard  : Nat
  jobSize  : Nat
  rank     : Nat
  streams  : Tbl Stream
  slack    : Nat
  slackMin : Nat
  hskm     : BitVec 64
  hskv     : BitVec 64
  hsks     : BitVec 64
  hskp     : BitVec 64
  toks     : Tbl Nat
  vregs    : Tbl (BitVec 64)
  masks    : Tbl (BitVec 64)
  dregs    : Tbl (BitVec 48)
  peer     : Nat
  acc      : Tbl AccCell
  accClass : Tbl AccClass
  inflight : List InFlight
  xfers    : List Xfer
  signals  : List Nat
  stepEnd  : Bool
  arrived  : Option Nat
  refused  : Tbl Nat
  banks    : Tbl BankState
  bankReq  : BitVec 32
  bankSet  : Tbl BankState
  dozeKeep : BitVec 16
  bankMove : Tbl BankState
  bankUse  : Tbl BankUse
  confl    : Tbl (BitVec 64)
  eccCorr  : Nat
  eccUnc   : Nat
  eccBank  : Nat
  eccWord  : Nat
  links    : Tbl (BitVec 64)
  wheels   : Tbl (BitVec 16)
  statics  : List (Nat × Nat)
  slots    : Tbl Nat
  wheelPos : Tbl Nat
  lastIn   : Tbl Nat
  stall    : Option Stall
  energyPrev : BitVec 64 × BitVec 64 × BitVec 64 × BitVec 64
  deriving DecidableEq, Repr

/-- Where a flit waits in the mesh: an input port of the router at (x, y) (0 north, 1 south, 2 east, 3 west, 4 local), the
ingress of a facet, or the edge ingress of a girdle die. -/
inductive Place where
  | buf (x y port : Nat)
  | facet (f : Nat)
  | die (d : Nat)
  deriving DecidableEq, Repr

/-- A flit where it waits, and since when: its arrival there, or, at a router input, the last time that a flit of its channel
left that input (R129). -/
structure Hop where
  flit  : Flit
  place : Place
  since : Nat
  deriving DecidableEq, Repr

/-- The mesh beside its routers: flits sent and not yet received, in the order of their arrival where they are, and
TBL_HOLDLIM (R116 to R130). -/
structure Mesh where
  transit : List Hop
  holdlim : Nat
  deriving DecidableEq, Repr

/-! ## Stacks, memory girdle, gather engines (spec/06) -/

/-- A write queued in a controller: device address, bytes, and the instance and generation it is checked against
at issue (R166). -/
structure HbmWrite where
  addr : Nat
  data : List Byte
  inst : Nat
  gen  : BitVec 16
  deriving DecidableEq, Repr

/-- A read of a stack waiting to return (R167): the READ flit it serves, its first unit, the units left, and
whether it is the second read; and the bytes as the requests before it left them, since the controller keeps the order of one
requester's requests to a unit (R164). -/
structure HbmRead where
  flit   : Flit
  addr   : Nat
  units  : Nat
  done   : Nat
  second : Bool
  data   : List Byte
  deriving DecidableEq, Repr

/-- The state of a stack (MEM_STK.STATE). -/
inductive StackState where
  | off | training | ready | selfRefresh | failed
  deriving DecidableEq, Repr

/-- The last refresh of a pseudo-channel: the bank and when (R158). -/
structure Refresh where
  bank : Nat
  at_  : Nat
  deriving DecidableEq, Repr

/-- One stack: queued writes oldest first, reads oldest first, temperature, REFMUL, state, activations, the MiB written (R161), the
last refresh of each pseudo-channel, and when the stack began to serve, from which its first interval runs (R158). -/
structure Stack where
  writes  : List HbmWrite
  reads   : List HbmRead
  temp    : Nat
  refmul  : Nat
  state   : StackState
  acts    : BitVec 64
  written : List Nat
  refresh : Tbl Refresh
  readyAt : Nat
  deriving DecidableEq, Repr

/-- An entry of MEM_UELOG. -/
structure UeEntry where
  valid : Bool
  cls   : Nat
  addr  : Nat
  deriving DecidableEq, Repr

/-- The registers of one memory-girdle die (spec/06), the first refusal of each transfer that is arriving (R127), and the units that
scrub is to read once more (R167). -/
structure MemDie where
  w0 : Nat
  w1 : Nat
  w2 : Nat
  w3 : Nat
  scrub   : Nat
  corr    : Nat
  uncorr  : Nat
  parity  : Nat
  ueNext  : Nat
  uelog   : Tbl UeEntry
  discard : Nat
  refused : Tbl Nat
  rereads : List Nat
  deriving DecidableEq, Repr

/-- The stacks and memory girdle: MEM_ZONE, the stacks, the dies, and the uncorrectable units of HBM and
scratchpads by device address (R108, R168). -/
structure Hbm where
  zones  : BitVec 32
  stks   : Tbl Stack
  dies   : Tbl MemDie
  bad    : List Nat
  deriving DecidableEq, Repr

/-- A gather table entry (R170). -/
structure GatherTable where
  cache     : Bool
  immutable : Bool
  format    : Nat
  dim       : Nat
  shards    : Nat
  base      : Nat
  rows      : Nat
  pitch     : Nat
  qp        : Nat
  deriving DecidableEq, Repr

/-- A gather descriptor (R172). -/
structure Descriptor where
  pool     : Nat
  outFmt   : Nat
  table    : Nat
  weighted : Bool
  count    : Nat
  idx      : Nat
  offs     : Nat
  wts      : Nat
  bags     : Nat
  dest     : Nat
  stat     : Nat
  chunk    : Nat
  tokc     : Nat
  tokn     : Nat
  deriving DecidableEq, Repr

/-- A descriptor accepted by an engine (R174 to R183): who submitted it, the entry as at acceptance, its lists as
read, the rows fetched so far as FP32 patterns, the chunks delivered, and the peer row asked for with the number of its request
(R171). -/
structure GatherJob where
  facet   : Nat
  tag     : Nat
  inst    : Nat
  gen     : BitVec 16
  rank    : Nat
  desc    : Descriptor
  tab     : GatherTable
  indices : List Nat
  offsets : List Nat
  weights : List (BitVec 32)
  rows    : Tbl (List (BitVec 32))
  chunks  : Nat
  asked   : Option (Nat × Nat)
  deriving DecidableEq, Repr

/-- A row of the hot-row cache (R176): whose it is, its way, first set and use count, the device ranges of its bytes in
HBM (none for a peer row, whose bytes it holds). -/
structure CachedRow where
  inst  : Nat
  table : Nat
  row   : Nat
  way   : Nat
  set_  : Nat
  uses  : Nat
  lines : Nat
  segs  : List (Nat × Nat)
  data  : List Byte
  deriving DecidableEq, Repr

/-- A gather engine: WAYS, the way masks, the counts GTH_STAT0 to 3, the queue and the cache. -/
structure GatherDie where
  ways  : Nat
  masks : Tbl (BitVec 16)
  stats : Tbl (BitVec 64)
  jobs  : List GatherJob
  cache : List CachedRow
  deriving DecidableEq, Repr

/-- A GTH_TABLE_SET or GTH_TABLE_CLEAR waiting for descriptors (R170): its waiter, when it began, the entry it
writes, and the submitter and tag of the descriptors it waits for. -/
structure TableWait where
  waiter : Waiter
  began  : Nat
  inst   : Nat
  tab    : Nat
  value  : Option GatherTable
  deriving DecidableEq, Repr

/-- The gather engines: tables keyed 16 × instance + number, commands waiting, and the eight dies. -/
structure Gather where
  tables : Tbl GatherTable
  waits  : List TableWait
  dies   : Tbl GatherDie
  deriving DecidableEq, Repr

/-! ## Parcels, jobs, checkpoints (spec/05, spec/07, spec/08) -/

/-- An output slot (R153). -/
structure OutSlot where
  slot   : Nat
  fx     : Nat
  fy     : Nat
  offset : Nat
  len    : Nat
  deriving DecidableEq, Repr

/-- An entry of a gate list (R143): duration in ns and mask. -/
structure GateEntry where
  dur  : Nat
  mask : BitVec 8
  deriving DecidableEq, Repr

/-- A loaded cut: the header fields that run it (R132), the load command's job, rank, RANKTAB and ring, and its
gate lists, output slots and static streams. -/
structure Cut where
  identity  : List Byte
  jobHash   : List Byte
  timed     : Bool
  cycle     : Nat
  guardNs   : Nat
  slipMax   : Nat
  beatLimit : Nat
  jobSize   : Nat
  rank      : Nat
  job       : Nat
  ranktab   : List Nat
  ring      : Nat
  ringLen   : Nat
  gates     : List (Nat × List GateEntry)
  slots     : List OutSlot
  deriving DecidableEq, Repr

/-- The run of a loaded cut (R139 to R152). `ready` holds each child's HASH and b; `sentReady` that READY went up;
`goB` is B; `windowAt` is the start of the present window; `slip` that SLIP was sent or received for the present
beat's window, `slipCap` that a capture caused it; `holds` the holds of this beat that count against SLIP_MAX; `arrivedAt` the
device's arrival at the present beat; `outputs` how many records of the present step end are written; `pauses` the pauses held, each
beat with its cause (R150); `endDue` that the end record is not written;
`pacedBeat` that pacing has delayed the present beat; `closingAt` the instant at which the present beat's closure met a
capture (R190). -/
structure Run where
  started   : Option Nat
  startTime : Nat
  ready     : Tbl (List Byte × Nat)
  sentReady : Bool
  b         : Nat
  goB       : Nat
  released  : Bool
  windowAt  : Nat
  sigma     : Nat
  holds     : Nat
  slip      : Bool
  slipCap   : Bool
  slipped   : Bool
  beat      : Nat
  step      : Nat
  arrivals  : List Nat
  arrivedAt : Option Nat
  outputs   : Nat
  pauses    : Tbl Nat
  pauseCause : Nat
  stop      : Option Nat
  pauseWait : List Waiter
  stopWait  : List Waiter
  resumeAt  : Option Nat
  reason    : Nat
  more      : Bool
  faultRank : Nat
  faultFacet : Nat
  faultCode  : Nat
  faultDetail : Nat
  lagFacet  : Nat
  pausedFor : Nat
  pausedAt  : Option Nat
  endDue    : Bool
  pacedBeat : Bool
  closingAt : Option Nat
  deriving DecidableEq, Repr

/-- The checkpoint configuration of a parcel (R186, R187). -/
structure CkpConf where
  kind      : Nat
  periodMs  : Nat
  every     : Nat
  nsid      : Nat
  peer      : Nat
  qp        : Nat
  base      : Nat
  slotBytes : Nat
  save      : Nat
  saveLen   : Nat
  regions   : List (Nat × Nat)
  deriving DecidableEq, Repr

/-- The phase of a checkpoint (CKP_PSTAT.PHASE). -/
inductive CkpPhase where
  | idle | announced | capturing | copying | sealing | restoring
  deriving DecidableEq, Repr

/-- A write held for a pending granule (R192). -/
structure HeldWrite where
  granule : Nat
  write   : HbmWrite
  flit    : Option Flit
  deriving DecidableEq, Repr

/-- The manifest fields fixed at capture, for the copy that outlives the cut (R195). -/
structure CkpMeta where
  step     : Nat
  beat     : Nat
  jobSize  : Nat
  rank     : Nat
  width    : Nat
  height   : Nat
  job      : Nat
  identity : List Byte
  jobHash  : List Byte
  inst     : Nat
  gen      : BitVec 16
  ranktab  : List Nat
  deriving DecidableEq, Repr

/-- The checkpoint state of a parcel (R185 to R200): `announced` the chosen steps still to be captured; `segs` and `saveSegs` the
device ranges of the regions and of the save area, fixed at capture, `firstPlace` the first granule of the save area
behind the facet shards; `pos` the index of the next shard the copier sends and `copied` the region granules marked
copied; `saved` the place in the save area of each saved granule, `hurt` that the saving of one met uncorrectable data; `stage` what
the copier does next (R196); `digests` of finished shards and `part` the bytes
of the shard being sent; `armed` the children heard at this capture; `sealedBy` at rank 0 the reports heard, each step and rank with
whether it sealed; `nowStep` the step of a CKP_NOW not yet captured; `outs` the drive commands of the copy that have not
completed, `posts` its requests on a queue pair. -/
structure Ckp where
  conf      : Option CkpConf
  phase     : CkpPhase
  fail      : Nat
  announced : List Nat
  timerAt   : Option Nat
  keep      : Option Nat
  ckseq     : Nat
  slot0     : Option Nat
  slot1     : Option Nat
  slot      : Nat
  info      : Option CkpMeta
  active    : Bool
  segs      : List (Nat × Nat)
  saveSegs  : List (Nat × Nat)
  firstPlace : Nat
  pos       : Nat
  copied    : Nat
  saved     : Tbl Nat
  held      : List HeldWrite
  digests   : List (List Byte)
  part      : List Byte
  bytes     : Nat
  armed     : List Nat
  armedSelf : Bool
  sealedBy  : List (Nat × Nat × Bool)
  nowWait   : Option Waiter
  nowStep   : Option Nat
  outs      : List Nat
  posts     : List Nat
  stage     : Nat
  hurt      : Bool
  restored  : Option Nat
  dropConf  : Bool
  deriving DecidableEq, Repr

/-- A parcel (R208 to R210, R219 to R221) with its cut, run and checkpoint. The credit is in microjoules; `budgetNext` holds a set
BUDGET and BURST until the interval in progress ends. -/
structure Parcel where
  valid   : Bool
  inst    : Nat
  gx      : Nat
  gy      : Nat
  gw      : Nat
  gh      : Nat
  budget  : Nat
  burst   : Nat
  budgetNext : Option (Nat × Nat)
  credit  : Int
  charges : List Nat
  paced   : Nat
  vpace   : Nat
  cut     : Option Cut
  run     : Run
  ckp     : Ckp
  deriving DecidableEq, Repr

/-- An output ring in use (R154): its instance, address and length, PROD, the next SEQ and the parcels using it. -/
structure RingUse where
  inst  : Nat
  addr  : Nat
  len   : Nat
  prod  : Nat
  seq   : Nat
  users : List Nat
  deriving DecidableEq, Repr

/-! ## Fabric (spec/10) -/

/-- An adjacency (R255): the neighbour's key, link, identifier and delay, its hellos so far, when it was last
heard, whether it is up, and its candidate as priority, key and distance. -/
structure Adjacency where
  link    : Nat
  key     : BitVec 64
  rlink   : Nat
  id      : Nat
  delay   : Nat
  hellos  : Nat
  heard   : Nat
  up      : Bool
  cprio   : Nat
  ckey    : BitVec 64
  cdist   : Nat
  deriving DecidableEq, Repr

/-- An unacknowledged frame of a flow: transmissions so far and the start of the latest (R265, R266). -/
structure Unacked where
  frame : ZFrame
  count : Nat
  sent  : Nat
  deriving DecidableEq, Repr

/-- A flow context (R263 to R266): next PSN, unacknowledged and waiting frames, expected PSN, arrivals not yet
acknowledged and since when, whether it failed, and when RESYNC was last sent. -/
structure Flow where
  txNext  : BitVec 24
  unacked : List Unacked
  waiting : List ZFrame
  rxNext  : BitVec 24
  rxDue   : Nat
  rxSince : Option Nat
  failed  : Bool
  resync  : Nat
  deriving DecidableEq, Repr

/-- A peer transfer arriving here (R268): its source device, facet and tag, what it needs for the signal, the
first refusal, whether its LAST frame has arrived, and whether a facet has discarded one of its flits, so that no
acknowledgement comes (R73). -/
structure PeerIn where
  src    : Nat
  tag    : Nat
  sfx    : Nat
  sfy    : Nat
  job    : Nat
  inst   : Nat
  signal : Option (Nat × Nat × Nat × Nat)
  err    : Option Nat
  last   : Bool
  lost   : Bool
  deriving DecidableEq, Repr

/-- A job binding (R270): instance and job, its parcel, rank, generation and RANKTAB. -/
structure Binding where
  inst    : Nat
  job     : Nat
  parcel  : Nat
  rank    : Nat
  gen     : BitVec 16
  ranktab : List Nat
  deriving DecidableEq, Repr

/-- A device in the fabric manager's view (R257, R260). -/
structure FmDevice where
  key   : BitVec 64
  id    : Nat
  pref  : Nat
  epoch : Nat
  path  : List Nat
  adjs  : List (BitVec 64 × Nat × Nat × Nat × Nat)
  deriving DecidableEq, Repr

/-- The gates of a port (R273 to R276): the administrative list in force, the next one with its start, the cut's list with W(0), the
index in force and when it took effect. -/
structure PortGates where
  admin   : List GateEntry
  next    : List GateEntry
  adminAt : Option Nat
  adminOn : Bool
  cut     : List GateEntry
  cutOn   : Bool
  gated   : Bool
  idx     : Nat
  since   : Nat
  deriving DecidableEq, Repr

/-- The fabric: the ZLK registers (spec/10), adjacencies, election, the manager's view, routes, flows, transfers,
bindings, gates and gPTP. `offset` is gPTP time minus local time; `announces` the Announce in force on each link, `synced` that the
present master has synchronised the device, `gptpSeq` the next sequence numbers by link and message, `syncAt` and `respAt` when the last
Sync and peer-delay response of a link left; `crossing` the bytes of frames that have crossed the mesh in part, by die and stream
(R262). -/
structure Fabric where
  etype    : BitVec 16
  prefId   : Nat
  priority : Nat
  hops     : Nat
  vid      : Nat
  id       : Nat
  epoch    : Nat
  fmId     : Nat
  rto      : Nat
  prio1    : Nat
  lock     : Nat
  lastOff  : Int
  offset   : Int
  goodSync : Nat
  lastSync : Nat
  masterAt : Option Nat
  announces : Tbl Announce
  synced   : Bool
  gptpSeq  : Tbl Nat
  syncAt   : Tbl Nat
  respAt   : Tbl Nat
  crossing : Tbl (List Byte)
  discards : Tbl Nat
  edge     : List Nat
  switched : List Nat
  switchNs : Tbl Nat
  preempt  : List Nat
  delay    : Tbl Nat
  unusable : List Nat
  adjs     : List Adjacency
  excluded : List (BitVec 64 × Nat)
  heartbeat : Nat
  candKey  : BitVec 64
  routes   : Tbl (BitVec 64)
  collect  : Tbl (BitVec 64)
  collEpoch : Nat
  collId   : Nat
  fmView   : List FmDevice
  fmEpoch  : Nat
  fmTable  : List (BitVec 64 × Nat)
  flows    : Tbl Flow
  peersIn  : List PeerIn
  bindings : List Binding
  gates    : Tbl PortGates
  lsaDue   : Bool
  deriving DecidableEq, Repr

/-! ## Ethernet ports, parsing and classification (spec/11) -/

/-- NET_PORTn (spec/11). -/
structure EthPort where
  enable   : Bool
  split    : Nat
  media    : Nat
  roce     : Bool
  l3sel    : Bool
  depth    : Nat
  maxfrm   : Nat
  dverdict : Nat
  dqueue   : Nat
  deriving DecidableEq, Repr

/-- The state of a link (NET_LINKn.STATE). -/
inductive LinkState where
  | down | negotiating | training | fec | up
  deriving DecidableEq, Repr

/-- The code of NET_LINKn.STATE. -/
def LinkState.code : LinkState → Nat
  | .down => 0 | .negotiating => 1 | .training => 2 | .fec => 3 | .up => 4

/-- A link (R283): NET_LINKn, consecutive restarts, when it last started, and NET_LCNT0 to 7. -/
structure EthLink where
  state    : LinkState
  lfault   : Bool
  rfault   : Bool
  restarts : Nat
  consec   : Nat
  started  : Nat
  cnt      : Tbl (BitVec 64)
  deriving DecidableEq, Repr

/-- An action of a rule (spec/11, Actions). -/
structure Action where
  verdict  : Nat
  setClass : Bool
  count    : Bool
  metered  : Bool
  mirrored : Bool
  decap    : Bool
  cls      : Nat
  target   : Nat
  edit0    : List Byte
  edit1    : List Byte
  meter    : Nat
  mirror   : Nat
  mtrunc   : Nat
  deriving DecidableEq, Repr

/-- A rule with its NET_RHIT counters (R293). -/
structure Rule where
  owner  : Nat
  stage  : Nat
  prio   : Nat
  value  : List Byte
  mask   : List Byte
  action : List Byte
  frames : BitVec 64
  bytes  : BitVec 64
  deriving DecidableEq, Repr

/-- A receive queue (R301, R302). -/
structure RxQueue where
  inst  : Nat
  gen   : BitVec 16
  error : Bool
  drops : Nat
  ring  : Nat
  len   : Nat
  prod  : Nat
  seq   : Nat
  deriving DecidableEq, Repr

/-- Ports, links, rules, receive queues and the management port (spec/11). Drop counts are keyed 8 × die + n. `cleared` holds the
NET_RHIT counters of slots that have been cleared since they were set (R296). -/
structure Eth where
  tpid2   : BitVec 16
  vxlan   : BitVec 16
  geneve  : BitVec 16
  mgmtIp4 : BitVec 64
  mgmtIp6a : BitVec 64
  mgmtIp6b : BitVec 64
  ports   : Tbl EthPort
  links   : Tbl EthLink
  drops   : Tbl Nat
  rules   : Tbl Rule
  cleared : Tbl (BitVec 64 × BitVec 64)
  queues  : Tbl RxQueue
  mgmtUp  : Bool
  deriving DecidableEq, Repr

/-! ## Scheduling, metering and shaping (spec/12) -/

/-- A gPTP message to be sent, with its sequence number (R271). A response names the request's port, and when the request came; the
other times are those at which the frames leave. -/
inductive GptpOut where
  | sync (seq : Nat)
  | followUp (seq : Nat)
  | announce (seq : Nat) (a : Announce)
  | pdelayReq (seq : Nat)
  | pdelayResp (seq : Nat) (src : BitVec 64) (port at_ : Nat)
  | pdelayFollow (seq : Nat) (src : BitVec 64) (port : Nat)
  deriving DecidableEq, Repr

/-- What waits in an egress queue: a Zaren frame, an Ethernet frame or a gPTP message. -/
inductive TxBody where
  | zaren (z : ZFrame)
  | eth (bytes : List Byte)
  | gptp (m : GptpOut)
  deriving DecidableEq, Repr

/-- A frame in an egress queue: its length from destination address to FCS, its instance and recorded generation
(R323), and the queue pair and PSN of a request packet, whose send the MAC stamps (R344). -/
structure TxFrame where
  body : TxBody
  len  : Nat
  inst : Option (Nat × BitVec 16)
  mark : Option (Nat × BitVec 24)
  deriving DecidableEq, Repr

/-- What a queue's present visit of the round robin goes by (R310, R311, R322): the quantum in bytes, the tier, the shaper and the
limit; `zero` says that the deficit is 0 from the next visit on. -/
structure Visit where
  quantum : Nat
  lower   : Bool
  shaper  : Option Nat
  limit   : Nat
  zero    : Bool
  deriving DecidableEq, Repr

/-- A configured egress queue (TMS_EQ) with its frames, deficit and drops, and its visit while one goes on. -/
structure EgressQueue where
  enable  : Bool
  stopped : Bool
  sub     : Nat
  cls     : Nat
  inst    : Option Nat
  shaper  : Option Nat
  quantum : Nat
  limit   : Nat
  frames  : List TxFrame
  deficit : Nat
  drops   : Nat
  visit   : Option Visit
  deriving DecidableEq, Repr

/-- A built-in queue of a link (R305). -/
structure LinkQueue where
  frames  : List TxFrame
  deficit : Nat
  drops   : Nat
  deriving DecidableEq, Repr

/-- A shaper (R312 to R315). -/
structure Shaper where
  owner    : Nat
  compat   : Bool
  rate     : Nat
  burst    : Nat
  overhead : Nat
  tokens   : Nat
  pending  : Option (Nat × Nat × Nat)
  deriving DecidableEq, Repr

/-- A three-colour meter (R316 to R319): buckets in millibits. -/
structure Meter where
  owner  : Nat
  trtcm  : Bool
  aware  : Bool
  colsrc : Bool
  act    : Nat
  cir    : Nat
  pir    : Nat
  cbs    : Nat
  ebs    : Nat
  c      : Nat
  e      : Nat
  last   : Nat
  counts : Tbl (BitVec 64)
  deriving DecidableEq, Repr

/-- A frame, or the rest of one, that a link is sending in a class (R273, R274): when it began, when it ends or is cut by its gate,
and the bytes that are left then. -/
structure TxBusy where
  frame : TxFrame
  cls   : Nat
  began : Nat
  till  : Nat
  rest  : Nat
  deriving DecidableEq, Repr

/-- The transmitter of a link: the frame being sent, a preempted frame with its class and the bytes left, and the round-robin
position of each class and tier (keyed 2 × class + tier): twice the number of the queue to visit, plus 1 while its visit goes on. -/
structure LinkTx where
  busy      : Option TxBusy
  preempted : Option (TxFrame × Nat × Nat)
  pos       : Tbl Nat
  deriving DecidableEq, Repr

/-- The egress schedulers (spec/12). Egress queues are keyed 1,024 × port + queue, default queues 8 × link + class,
IQMAP 512 × link + 8 × instance + class, drop counts 3 × die + n. -/
structure Traffic where
  queues  : Tbl EgressQueue
  dflt    : Tbl LinkQueue
  ctrl    : Tbl LinkQueue
  iqmap   : Tbl Nat
  shapers : Tbl Shaper
  meters  : Tbl Meter
  drops   : Tbl Nat
  tx      : Tbl LinkTx
  lastTick : Nat
  deriving DecidableEq, Repr

/-! ## Remote memory (spec/13) -/

/-- The state of a queue pair (R330). -/
inductive QpState where
  | reset | init | rtr | rts | error
  deriving DecidableEq, Repr

/-- The path of a queue pair (R325, RMA_QP_MODIFY). -/
structure QpPath where
  ipv6   : Bool
  fabric : Bool
  tagged : Bool
  link   : Nat
  cls    : Nat
  ttl    : Nat
  tci    : BitVec 16
  destId : Nat
  sport  : Nat
  dmac   : List Byte
  smac   : List Byte
  tos    : Nat
  sip    : List Byte
  dip    : List Byte
  deriving DecidableEq, Repr

/-- What a request that an engine posted came to (R329): whether it succeeded, and the bytes that a READ returned. -/
structure EngDone where
  ok   : Bool
  data : List Byte
  deriving DecidableEq, Repr

/-- A work request that was fetched (R332): its ring offset, fields, first and last PSN, bytes sent and received, and
its status and syndrome once known. `eng` says that an engine posted it (R329), under the number `wrid`, and `data` is then what a
WRITE sends or what a READ has returned so far. -/
structure WorkReq where
  off    : Nat
  op     : Nat
  signal : Bool
  fence  : Bool
  len    : Nat
  wrid   : BitVec 64
  laddr  : Nat
  raddr  : Nat
  rkey   : Nat
  psn0   : BitVec 24
  npsn   : Nat
  sent   : Nat
  got    : Nat
  started : Bool
  status : Option (Nat × Nat)
  eng    : Bool
  data   : List Byte
  deriving DecidableEq, Repr

/-- A request packet not yet acknowledged (R337, R344); `again` says that it is to be resent. -/
structure SentPkt where
  psn   : BitVec 24
  bytes : Nat
  at_   : Nat
  sends : Nat
  ack   : Bool
  again : Bool
  deriving DecidableEq, Repr

/-- The message the responder is in (R335): the window's R_Key, the next address and the bytes left. -/
structure InMsg where
  rkey : Nat
  addr : Nat
  left : Nat
  deriving DecidableEq, Repr

/-- READ responses still to be sent (R335, R340): the PSN of the next, the R_Key, the next address, the bytes left, and
whether it is the first. -/
structure ReadOut where
  psn   : BitVec 24
  rkey  : Nat
  addr  : Nat
  left  : Nat
  first : Bool
  deriving DecidableEq, Repr

/-- A queue pair (R327 to R349): `reqs` are the requests fetched and not yet retired, in ring order; `msn` counts completed
messages of the responder. -/
structure Qp where
  inst    : Nat
  gen     : BitVec 16
  kind    : Nat
  pd      : Nat
  home    : Nat
  state   : QpState
  sq      : Nat
  sqLen   : Nat
  cq      : Nat
  cqLen   : Nat
  cons    : Nat
  fetched : Nat
  prodSeen : Nat
  cqProd  : Nat
  cqSeq   : BitVec 64
  dqpn    : Nat
  sqPsn   : BitVec 24
  rqPsn   : BitVec 24
  mtu     : Nat
  retry   : Nat
  timeout : Nat
  initDepth : Nat
  respDepth : Nat
  path    : QpPath
  w       : Nat
  base    : Nat
  lastCut : Nat
  probing : Bool
  retries : Nat
  reqs    : List WorkReq
  unacked : List SentPkt
  inMsg   : Option InMsg
  nakSent : Bool
  ackDue  : Nat
  ackSince : Option Nat
  owed    : List (BitVec 24 × Nat)
  minRtt  : Option Nat
  msn     : BitVec 24
  resps   : List ReadOut
  cached  : Bool
  used    : Nat
  parked  : List RocePkt
  cipTx   : Option Nat
  cipRx   : Option Nat
  deriving DecidableEq, Repr

/-- A memory window (R338 to R341). -/
structure Window where
  inst     : Nat
  pd       : Nat
  rd       : Bool
  wr       : Bool
  base     : Nat
  len      : Nat
  revoking : Option Waiter
  deriving DecidableEq, Repr

/-- A doorbell ring (R331). -/
structure DbRing where
  ring   : Nat
  len    : Nat
  pollNs : Nat
  cons   : Nat
  stopped : Bool
  deriving DecidableEq, Repr

/-- The remote-memory engines (spec/13): statistics keyed 8 × die + n, incarnations and generations of free numbers
kept apart from the objects, and the path tables keyed by die as (destination, base delay, time). -/
structure Rma where
  ctxArea : Option Nat
  target  : Nat
  ai      : Nat
  initKib : Nat
  pds     : Tbl Nat
  qps     : Tbl Qp
  incarn  : Tbl Nat
  wins    : Tbl Window
  wgen    : Tbl (BitVec 16)
  rings   : Tbl DbRing
  stats   : Tbl (BitVec 64)
  paths   : Tbl (List (List Byte × Nat × Nat))
  clockUse : Nat
  lastBase : Nat
  nextEng : Nat
  engDone : Tbl EngDone
  crossing : Tbl (List RocePkt)
  deriving DecidableEq, Repr

/-! ## Storage queues (spec/14) -/

/-- The mode of a controller (R352). -/
inductive CtrlMode where
  | off | host | device
  deriving DecidableEq, Repr

/-- A submission queue with its completion queue's identifier (R355); `deleting` is the CID of a Delete I/O SQ that waits for
its commands (R367). -/
structure NvSq where
  base   : Nat
  size   : Nat
  head   : Nat
  tail   : Nat
  cq     : Nat
  frozen : Bool
  deleting : Option Nat
  deriving DecidableEq, Repr

/-- A completion queue (R355, R356): `phase` is the phase tag, `vec` the vector or token, `coal` the entries whose
interrupt Interrupt Coalescing holds. `stuck` are completions held for want of room (R360), `failed` says that it cannot be written
(R366). -/
structure NvCq where
  base   : Nat
  size   : Nat
  head   : Nat
  tail   : Nat
  phase  : Bool
  ien    : Bool
  vec    : Nat
  coal   : Nat
  coalAt : Option Nat
  stuck  : List (List Byte)
  failed : Bool
  deriving DecidableEq, Repr

/-- An Abort that waits for its target's completion (R368): its CID, the target's queue and CID, and bit 0 of Dword 0. -/
structure NvAbort where
  cid    : Nat
  sq     : Nat
  target : Nat
  late   : Bool
  deriving DecidableEq, Repr

/-- A power-state transition entry in use (R373) and the other features of R354. -/
structure NvFeatures where
  arb     : BitVec 32
  pm      : BitVec 32
  temp    : BitVec 32
  tempUnder : BitVec 32
  vwc     : BitVec 32
  nq      : BitVec 32
  coal    : BitVec 32
  aec     : BitVec 32
  apst    : BitVec 32
  apstTab : List Byte
  ivc     : Tbl (BitVec 32)
  deriving DecidableEq, Repr

/-- A controller (R352 to R375). Queue 0 is the admin pair. `resetting` says that a controller reset waits for commands that have
begun (R369), `heldCc` is a CC write held meanwhile (R396), `flushes` are the drive flushes a shutdown waits for (R370), `aborts` the
Aborts that wait (R368). -/
structure NvCtrl where
  mode   : CtrlMode
  rdy    : Bool
  cfs    : Bool
  ps     : Nat
  shst   : Nat
  gen    : BitVec 16
  sqs    : Tbl NvSq
  cqs    : Tbl NvCq
  granted : Nat
  feat   : NvFeatures
  aers   : List Nat
  aens   : List (BitVec 32)
  masked : List Nat
  resetting : Bool
  heldCc : Option (BitVec 32)
  flushes : List Nat
  errs   : List (List Byte)
  errCnt : BitVec 64
  lost   : Nat
  dbArea : Nat
  pollUs : Nat
  idleAt : Option Nat
  changed : List Nat
  cc     : BitVec 32
  aqa    : BitVec 32
  asq    : BitVec 64
  acq    : BitVec 64
  intms  : BitVec 32
  reads  : BitVec 64
  writes : BitVec 64
  unitsR : BitVec 64
  unitsW : BitVec 64
  enWait : Option Waiter
  aborts : List NvAbort
  deriving DecidableEq, Repr

/-- A namespace (R361). -/
structure Namespace where
  kind   : Nat
  owner  : Nat
  lba4k  : Bool
  cipher : Bool
  ciph   : Nat
  port   : Nat
  base   : Nat
  size   : Nat
  drvNs  : Nat
  qp     : Nat
  rkey   : Nat
  attach : List Nat
  deriving DecidableEq, Repr

/-- What a command in progress does (R360 to R365, R376). -/
inductive NvOp where
  | flush | write | read | zeroes | deallocate
  deriving DecidableEq, Repr

/-- A command in progress (R360): its controller, queue and CID, what it does, the namespace ranges (the first, and for Dataset
Management the rest), the data to write, the PRP pages as (address, bytes), whether it has begun a data transfer or backing
access, when it was fetched and when its drive command was aborted, the master reads still due, why it has failed, and the
earlier writes a Flush waits for. `flag` is FUA of a write and DEAC of Write Zeroes, `key` the key of the cipher context taken at
its start (R419), `dead` says that its completion is discarded (R369), `eng` is the number of its request to a peer (R361), and `posts`
are the copier's requests to a peer that a Flush waits for (R364). -/
structure NvCmd where
  ctrl  : Nat
  gen   : BitVec 16
  sq    : Nat
  cid   : Nat
  op    : NvOp
  ns    : Nat
  slba  : Nat
  nlb   : Nat
  flag  : Bool
  more  : List (Nat × Nat)
  data  : List Byte
  prps  : List (Nat × Nat)
  begun : Bool
  at_   : Nat
  aborted : Option Nat
  due   : Nat
  fail  : Option (Nat × Nat)
  waits : List Nat
  key   : Option (List Byte)
  dead  : Bool
  eng   : Option Nat
  posts : List Nat
  deriving DecidableEq, Repr

/-- The state of a drive (STO_DRIVE_STATUS). -/
inductive DriveState where
  | absent | training | ready | failed
  deriving DecidableEq, Repr

/-- A drive on a root port (R365): its namespaces as (identifier, exponent, LBAs), deepest exit latency and cache, and the
controller power state whose drive state it has been sent to (R372). -/
structure Drive where
  state  : DriveState
  nss    : List (Nat × Nat × Nat)
  exitUs : Nat
  vwc    : Bool
  resetting : Bool
  low    : Nat
  deriving DecidableEq, Repr

/-- The storage queue engine (spec/14). `nextCmd` numbers commands in progress. The fetch arbiter of R359: `deficit` and `arbPos` of its
first level, and by controller, keyed 65,536 × controller + queue, those of its second, with the commands taken in a visit;
a position is twice the number to visit, plus 1 while its visit goes on, and of the first level there is one for each tier. `closing`
are the STO_NS_DELETEs that wait for commands in progress, by namespace, and `deletes` the drive zeroings that they wait for, as
waiter and namespace. -/
structure Storage where
  ctrls  : Tbl NvCtrl
  nss    : Tbl Namespace
  cmds   : Tbl NvCmd
  nextCmd : Nat
  drives : Tbl Drive
  drvto  : Nat
  stats  : Tbl (BitVec 64)
  deficit : Tbl Nat
  arbPos  : Tbl Nat
  qDeficit : Tbl Nat
  qPos    : Tbl Nat
  qTaken  : Tbl Nat
  closing : Tbl Waiter
  deletes : Tbl (Waiter × Nat)
  deriving DecidableEq, Repr

/-! ## The PCIe endpoint (spec/15) -/

/-- The state of the endpoint link (PCE_LINK.STATE). -/
inductive PceLinkState where
  | down | training | l0 | l1 | l23
  deriving DecidableEq, Repr

/-- Written-page logging of a function (R402, R403). -/
structure DirtyLog where
  base    : Nat
  len     : Nat
  bmap0   : Nat
  bmap1   : Nat
  active  : Nat
  outside : Bool
  err     : Bool
  on      : Bool
  count   : Nat
  deriving DecidableEq, Repr

/-- AER of a function (R398, R399): uncorrectable and correctable status and masks, severity, header log, first
error pointer. -/
structure Aer where
  ustat : BitVec 32
  umask : BitVec 32
  usev  : BitVec 32
  cstat : BitVec 32
  cmask : BitVec 32
  hdr   : List Byte
  first : Nat
  deriving DecidableEq, Repr

/-- What the data of a master read is for (R391 to R394). -/
inductive ReadDest where
  | facet (f tag off : Nat)
  | command (id page : Nat)
  deriving DecidableEq, Repr

/-- An outstanding or waiting master read (R391, R392): bus address, length, bytes received, and whom it serves. -/
structure MasterRead where
  tag   : Nat
  addr  : Nat
  len   : Nat
  got   : Nat
  inst  : Nat
  gen   : BitVec 16
  sent  : Nat
  dest  : ReadDest
  deriving DecidableEq, Repr

/-- An MSI-X vector: address, data, mask and pending bit. -/
structure MsixVec where
  addr    : BitVec 64
  data    : BitVec 32
  masked  : Bool
  pending : Bool
  deriving DecidableEq, Repr

/-- A function of the endpoint (R380 to R403). `quarantine` lists tags with the instant they are free and whether their later
pieces are discarded silently (R393, R396). -/
structure PceFn where
  bound    : Option Nat
  d3       : Bool
  cmd      : BitVec 32
  devCtl   : BitVec 32
  devCtl2  : BitVec 32
  devCtl3  : BitVec 32
  linkCtl  : BitVec 32
  msixEn   : Bool
  msixMask : Bool
  msix     : Tbl MsixVec
  pmeEn    : Bool
  pmeStat  : Bool
  aer      : Aer
  bar0     : BitVec 64
  bar2     : BitVec 64
  flr      : Bool
  mbCmd    : BitVec 64
  mbRep    : BitVec 64
  mbVec    : Nat
  mbLen    : Nat
  dlog     : Option DirtyLog
  reads    : List MasterRead
  waiting  : List MasterRead
  quarantine : List (Nat × Nat × Bool)
  deriving DecidableEq, Repr

/-- An inbound window (R383). -/
structure InWindow where
  fn    : Nat
  rd    : Bool
  wr    : Bool
  inst  : Nat
  gen   : BitVec 16
  obase : Nat
  len   : Nat
  daddr : Nat
  deriving DecidableEq, Repr

/-- An outbound window (R387). -/
structure OutWindow where
  fn    : Nat
  rd    : Bool
  wr    : Bool
  dbase : Nat
  len   : Nat
  bus   : Nat
  deriving DecidableEq, Repr

/-- The state of a root port (PCE_RPORT.STATE). -/
inductive RootState where
  | down | training | up | failed
  deriving DecidableEq, Repr

/-- A root port (R404, R405): when its link last went down, and the grants as (command, bus address, length, whether the drive may write). -/
structure RootPort where
  state  : RootState
  rate   : Nat
  width  : Nat
  errors : Nat
  downAt : Nat
  grants : List (Nat × Nat × Nat × Bool)
  deriving DecidableEq, Repr

/-- A window command that waits for the accesses translated with its old entry: an outbound entry's function, bus address and length
(R388), or an inbound entry's device range (R386). -/
structure WindowWait where
  outbound : Bool
  entry  : Nat
  waiter : Waiter
  fn     : Nat
  addr   : Nat
  len    : Nat
  deriving DecidableEq, Repr

/-- The endpoint and root ports (spec/15). `winWait` holds the window commands that wait (R386, R388). -/
structure Pcie where
  link     : PceLinkState
  flit     : Bool
  rate     : Nat
  width    : Nat
  retrains : Nat
  downAt   : Nat
  configured : Bool
  perstAt  : Option Nat
  vfEnable : Bool
  numVfs   : Nat
  pfLog2   : Nat
  vfLog2   : Nat
  nextPf   : Nat
  nextVf   : Nat
  vfBar0   : BitVec 64
  vfBar2   : BitVec 64
  fns      : Tbl PceFn
  inWin    : Tbl InWindow
  outWin   : Tbl OutWindow
  winWait  : List WindowWait
  stats    : Tbl (BitVec 64)
  wakeN    : Bool
  roots    : Tbl RootPort
  deriving DecidableEq, Repr

/-! ## Cipher engine (spec/16) -/

/-- An open chain (R414): direction, IV, additional-data bytes, bytes processed, OUT of the first piece, GHASH
accumulator. -/
structure Chain where
  dec     : Bool
  iv      : List Byte
  aadLen  : Nat
  bytes   : Nat
  outBase : Nat
  y       : BitVec 128
  deriving DecidableEq, Repr

/-- A cipher context (R408): the key is none when not keyed. -/
structure CipCtx where
  owner : Nat
  gen   : BitVec 16
  mode  : Nat
  key   : Option (List Byte)
  keyid : BitVec 64
  pend  : Option Nat
  chain : Option Chain
  deriving DecidableEq, Repr

/-- The cipher engine: contexts, counters that outlive them (R412), load count, whether the wrapping keys are
derived, ALARM, ERASURES, CIP_STAT0 to 3. -/
structure Cipher where
  ctxs     : Tbl CipCtx
  counters : Tbl Nat
  loads    : Nat
  keys     : Bool
  alarm    : Bool
  erasures : Nat
  stats    : Tbl (BitVec 64)
  deriving DecidableEq, Repr

/-! ## Rails, the power ladder, boot (spec/17) -/

/-- A rail (R425 to R427): 0 to 5 VTAB0 to VTAB5, 6 VGRD, 7 VSTK_DD, 8 VSTK_DDQ, 9 VSTK_PP, 10 VIO. Voltage in mV,
current in mA, energy in microjoules with its fraction in picojoules. -/
structure Rail where
  set     : Nat
  mv      : Nat
  ma      : Nat
  missing : Nat
  uj      : BitVec 64
  pj      : Nat
  armed   : Bool
  onAt    : Option Nat
  interval : Nat
  deriving DecidableEq, Repr

/-- A field (R428 to R432): hottest sensor, thermal and cap ceilings, whether its gate is closed and since when, and
when a demand was last raised. -/
structure PField where
  temp    : Nat
  thermal : Nat
  cap     : Nat
  closed  : Bool
  closedAt : Nat
  raised  : Option Nat
  deriving DecidableEq, Repr

/-- A demand d(p, f) with its calm count and the time of its last change (R428, R430). -/
structure Demand where
  mv      : Nat
  calm    : Nat
  changed : Nat
  deriving DecidableEq, Repr

/-- The rails and the ladder (spec/17). `lastSample`, `lastTherm` and `lastCap` are when AVS_SAMPLE and the two ceiling ticks last ran. Demands are keyed 6 × parcel + field. `samples` are the package powers in mW of
recent 10 µs samples, newest first. `gateRun` says a run of closures under R432 is on; `reopenAt` when the gates
reopen. `holdGate` are the reasons that keep the gates closed: power fail, device fault. -/
structure Power where
  rails    : Tbl Rail
  fields   : Tbl PField
  demands  : Tbl Demand
  samples  : List Nat
  capW     : Nat
  idlev    : Nat
  slklo    : Nat
  slkhi    : Nat
  tjthr    : Nat
  gates    : Nat
  wakedrop : Nat
  gateRun  : Bool
  reopenAt : Option Nat
  rung     : Nat
  floor    : Nat
  prevFloor : Nat
  entering : Option Nat
  enterAt  : Nat
  exiting  : Bool
  dozeIdle : Nat
  idleSince : Option Nat
  request  : Option (Nat × Nat)
  wakeAt   : Nat
  held     : List (Nat × EthFrame)
  lastSample : Nat
  lastTherm  : Nat
  lastCap    : Nat
  pfw      : Bool
  deriving DecidableEq, Repr

/-- How far the device is from power-on (R439, R440): in `starting` boot waits for power goods. -/
inductive BootPhase where
  | reset | recovery | starting | running
  deriving DecidableEq, Repr

/-- Boot, firmware and flash (R439 to R448). `flash` lists the bytes of the boot flash that are not erased (0xFF), each inverted;
`cnt0` to `cnt2` are the three monotonic counters. `committed` is the slot both directory copies name. `plan` are the dies and stacks
whose training fails in this boot. `resetDue` says that boot restarts at the mask ROM without a power-on reset (R440, R475). -/
structure Boot where
  phase     : BootPhase
  slot      : Nat
  reason    : Nat
  epoch     : Nat
  version   : BitVec 32
  seclevel  : Nat
  imageHash : List Byte
  endOfBoot : Nat
  flash     : List Host.Cell
  flashSize : Nat
  cnt0      : Nat
  cnt1      : Nat
  cnt2      : Nat
  committed : Option Nat
  activating : Option (Waiter × Nat)
  switching : Bool
  resetDue  : Bool
  plan      : List Nat × List Nat
  deriving DecidableEq, Repr

/-! ## Pins (spec/20) -/

/-- The filtered pins and clocks (R479 to R487). -/
structure Pins where
  smbAddr  : Nat
  busSel   : Bool
  tkclkOk  : Bool
  en       : BitVec 4
  pg       : BitVec 4
  enAt     : Tbl Nat
  tamper   : Bool
  pwrwake  : Bool
  perst    : Bool
  porst    : Bool
  ethClk   : Tbl Bool
  peClk    : Bool
  prsnt    : Tbl Bool
  rpPerst  : Tbl Bool
  phyRst   : Bool
  vioAt    : Nat
  lastPps  : Nat
  deriving DecidableEq, Repr

/-! ## Outputs -/

/-- What leaves the Destan, in order: reply packets on their channels with the place they go to, and the datagram, MCTP message or
frame that carries them; frames on links, from destination address up to the FCS (`zaren` with what the bytes say; `txError` says that
the frame being sent on a link is ended with an error code),
TLPs at the endpoint (`message` kinds 1 ERR_COR, 2 ERR_NONFATAL, 3 ERR_FATAL, 4 PM_PME, 5 PME_TO_Ack), drive commands (`flag` is FUA of a write and DEAC of Write Zeroes), AVSBus setpoints, pin changes. -/
inductive Out where
  | reply (ch dst : Nat) (packet : List Byte)
  | zaren (link : Nat) (z : ZFrame) (bytes : List Byte)
  | eth (link : Nat) (bytes : List Byte)
  | txError (link : Nat)
  | mgmt (bytes : List Byte)
  | mctp (eid tag : Nat) (owner : Bool) (message : List Byte)
  | memWrite (fn addr : Nat) (data : List Byte)
  | memRead (fn tag addr len : Nat)
  | completion (fn tag : Nat) (status : Nat) (data : List Byte)
  | config (fn : Nat) (r : CfgReg) (value : BitVec 32) (retry : Bool)
  | barRead (fn off : Nat) (value : BitVec 64)
  | message (fn kind : Nat)
  | msix (fn vec : Nat)
  | driveCommand (port ns : Nat) (op : NvOp) (flag : Bool) (slba nlb : Nat) (data : List Byte) (id : Nat)
  | driveAdmin (port what id : Nat)
  | driveReply (port : Nat) (ok : Bool) (data : List Byte)
  | rail (r mv : Nat)
  | pin (name : String) (level : Bool)
  | readback (value : BitVec 64)
  deriving DecidableEq, Repr

/-! ## The whole state -/

/-- Why the machine stops with a fault. No rule of this spec stops the block, so no meaning raises one; the type is
kept because an outcome has a place for it. -/
inductive Fault where
  /-- Raised by nothing; safe, since no step answers it. -/
  | unreachable
  deriving DecidableEq, Repr

/-- Why a command has no meaning here. -/
inductive Refusal where
  /-- Raised by an arm of `exec` whose command has no meaning yet, by its mnemonic; safe, the machine stops. -/
  | notModelled (mnemonic : String)
  deriving DecidableEq, Repr

/-- The state of the Destan. `now` is the timekeeping island's local time in ns (R41, R439). `mem` holds the device's
memories by device address (R32); an unlisted byte reads 0. `emitted` are the outputs so far. `free` counts the free
values taken. `pending` are the commands that wait, first in, first out. -/
structure State where
  now      : Nat
  mem      : List Host.Cell
  emitted  : List Out
  loupe    : Loupe
  faults   : Faults
  facets   : Tbl Facet
  mesh     : Mesh
  hbm      : Hbm
  gather   : Gather
  parcels  : Tbl Parcel
  rings    : List RingUse
  insts    : Tbl Instance
  acct     : Acct
  chans    : Tbl Channel
  fabric   : Fabric
  eth      : Eth
  traffic  : Traffic
  rma      : Rma
  storage  : Storage
  pcie     : Pcie
  cipher   : Cipher
  power    : Power
  boot     : Boot
  pins     : Pins
  free     : Nat
  pending  : List Instr
  deriving DecidableEq, Repr

/-! ## How an unlisted entry reads, and the state after power-on reset -/

/-- An input queue with nothing in it. -/
def InQueue.initial : InQueue := { events := [], pending := 0 }

/-- Channels 0, 1 and 2 are bound to instance 0 and enabled, channel 66 + k is bound to instance k (R228), and a
channel is unsynced or disabled after power-on reset (R233). -/
def Channel.initial (ch : Nat) : Channel :=
  { bound := if ch < 3 then some 0 else if 66 ≤ ch ∧ ch < 130 then some (ch - 66) else none
    state := if ch < 3 then .unsynced else .disabled
    e := 0, rseq := 0, discards := 0, source := 0
    udpPort := if ch = 0 then 7440 else 0
    peer := none, inProg := [], kept := [], aborts := [], nextId := 0
    cmdRing := 0, repRing := 0, ringLen := 0, pollUs := 0, cons := 0, prod := 0, repCons := 0, held := [] }

/-- Every share and weight at 0 (R211). -/
def Shares.zero : Shares :=
  { portWeight := 0, storWeight := 0, hbmGran := 0, qp := 0, pd := 0, sqp := 0, mw := 0, ns := 0, ciph := 0,
    meter := 0, shaper := 0, rule := 0 }

/-- Instance 0's shares: each count at the device total and the weights at 255 (R211). -/
def Shares.manager : Shares :=
  { portWeight := 255, storWeight := 255, hbmGran := 786432, qp := 262144, pd := 4096, sqp := 4096, mw := 65536,
    ns := 1024, ciph := 4096, meter := 16384, shaper := 16384, rule := 65536 }

/-- A Free instance of generation 0 (R202). -/
def Instance.initial : Instance :=
  { state := .free, gen := 0, mapBase := 0, mapLen := 0, shares := Shares.zero, counts := [], last := [], energyFj := 0,
    reset := none, mapWork := [] }

/-- A stream with no region. -/
def Stream.initial : Stream :=
  { base := 0, len := 0, next := 0, loops := [], steps := [], stopped := false, atBeat := false, waiting := none,
    lastWord := none }

/-- A facet after power-on reset (spec/02, spec/04): WAITLIM 0xF_4240, SLACKMIN all ones, everything else 0. -/
def Facet.initial : Facet :=
  { state := .empty, beats := 0, owner := none, tokown := 0, waitlim := 0xF4240, exc := none, fpVec := 0, fpMat := 0,
    discard := 0, jobSize := 0, rank := 0, streams := [], slack := 0, slackMin := 0xFFFFFFFF, hskm := 0, hskv := 0,
    hsks := 0, hskp := 0, toks := [], vregs := [], masks := [], dregs := [], peer := 0, acc := [], accClass := [],
    inflight := [], xfers := [], signals := [], stepEnd := false, arrived := none, refused := [], banks := [],
    bankReq := 0, bankSet := [], dozeKeep := 0, bankMove := [], bankUse := [], confl := [], eccCorr := 0, eccUnc := 0, eccBank := 0, eccWord := 0,
    links := [], wheels := [], statics := [], slots := [], wheelPos := [], lastIn := [], stall := none,
    energyPrev := (0, 0, 0, 0) }

/-- A stack after power-on reset: off, refresh 32 ms, nothing written. -/
def Stack.initial : Stack :=
  { writes := [], reads := [], temp := 0, refmul := 1, state := .off, acts := 0, written := [], refresh := [], readyAt := 0 }

/-- A memory-girdle die after power-on reset (MEM_ARB 0x4488, MEM_SCRUB 0x18). -/
def MemDie.initial : MemDie :=
  { w0 := 8, w1 := 8, w2 := 4, w3 := 4, scrub := 0x18, corr := 0, uncorr := 0, parity := 0, ueNext := 0, uelog := [],
    discard := 0, refused := [], rereads := [] }

/-- A gather engine after power-on reset: 16 cache ways. -/
def GatherDie.initial : GatherDie := { ways := 0x10, masks := [], stats := [], jobs := [], cache := [] }

/-- A cut that does not run. -/
def Run.initial : Run :=
  { started := none, startTime := 0, ready := [], sentReady := false, b := 0, goB := 0, released := false,
    windowAt := 0, sigma := 0, holds := 0, slip := false, slipCap := false, slipped := false, beat := 0, step := 0, arrivals := [],
    arrivedAt := none, outputs := 0, pauses := [], pauseCause := 0, stop := none, pauseWait := [], stopWait := [],
    resumeAt := none, reason := 0, more := false, faultRank := 0xFFFF, faultFacet := 0xFFFF, faultCode := 0,
    faultDetail := 0, lagFacet := 0xFFFF, pausedFor := 0, pausedAt := none, endDue := false, pacedBeat := false, closingAt := none }

/-- No checkpoint configured. -/
def Ckp.initial : Ckp :=
  { conf := none, phase := .idle, fail := 0, announced := [], timerAt := none, keep := none,
    ckseq := 0, slot0 := none, slot1 := none, slot := 0, info := none, active := false, segs := [],
    saveSegs := [], firstPlace := 0, pos := 0, copied := 0,
    saved := [], held := [], digests := [], part := [], bytes := 0, armed := [], armedSelf := false, sealedBy := [],
    nowWait := none, nowStep := none, outs := [], posts := [], stage := 0, hurt := false, restored := none, dropConf := false }

/-- A parcel number that is not in use; VPACE is 0.60 V (R430). -/
def Parcel.initial : Parcel :=
  { valid := false, inst := 0, gx := 0, gy := 0, gw := 1, gh := 1, budget := 0, burst := 0, budgetNext := none, credit := 0, charges := [],
    paced := 0, vpace := 600, cut := none, run := Run.initial, ckp := Ckp.initial }

/-- A flow starts with PSN 0 (R263). -/
def Flow.initial : Flow :=
  { txNext := 0, unacked := [], waiting := [], rxNext := 0, rxDue := 0, rxSince := none, failed := false, resync := 0 }

/-- A port with no gate list: every class open. -/
def PortGates.initial : PortGates :=
  { admin := [], next := [], adminAt := none, adminOn := false, cut := [], cutOn := false, gated := false, idx := 0, since := 0 }

/-- NET_PORTn after power-on reset (spec/11). -/
def EthPort.initial : EthPort :=
  { enable := false, split := 0, media := 0, roce := true, l3sel := false, depth := 8, maxfrm := 0x2600, dverdict := 0,
    dqueue := 0 }

/-- A link after power-on reset. -/
def EthLink.initial : EthLink :=
  { state := .down, lfault := false, rfault := false, restarts := 0, consec := 0, started := 0, cnt := [] }

/-- An egress queue that is disabled. -/
def EgressQueue.initial : EgressQueue :=
  { enable := false, stopped := false, sub := 0, cls := 0, inst := none, shaper := none, quantum := 0, limit := 0,
    frames := [], deficit := 0, drops := 0, visit := none }

/-- A built-in queue with nothing in it. -/
def LinkQueue.initial : LinkQueue := { frames := [], deficit := 0, drops := 0 }

/-- A link that sends nothing. -/
def LinkTx.initial : LinkTx := { busy := none, preempted := none, pos := [] }

/-- The features of a controller with nothing set; every value is the model's (log entry 3). -/
def NvFeatures.initial : NvFeatures :=
  { arb := 0, pm := 0, temp := 0, tempUnder := 0, vwc := 1, nq := 0, coal := 0, aec := 0, apst := 0, apstTab := [],
    ivc := [] }

/-- A controller that is Off. -/
def NvCtrl.initial : NvCtrl :=
  { mode := .off, rdy := false, cfs := false, ps := 0, shst := 0, gen := 0, sqs := [], cqs := [], granted := 0,
    feat := NvFeatures.initial, aers := [], aens := [], masked := [], resetting := false, heldCc := none, flushes := [], errs := [], errCnt := 0, lost := 0,
    dbArea := 0, pollUs := 0, idleAt := none, changed := [], cc := 0, aqa := 0, asq := 0, acq := 0, intms := 0,
    reads := 0, writes := 0, unitsR := 0, unitsW := 0, enWait := none, aborts := [] }

/-- A drive that is absent. -/
def Drive.initial : Drive := { state := .absent, nss := [], exitUs := 0, vwc := false, resetting := false, low := 0 }

/-- AER at the reset values of PCIe 6.0; they are the model's (log entry 5). -/
def Aer.initial : Aer :=
  { ustat := 0, umask := 0x00400000, usev := 0x00462030, cstat := 0, cmask := 0x0000E000, hdr := [], first := 0 }

/-- A function after reset. PF0 is bound to instance 0 (R380). Device Control's maximum read request of 512 bytes and
the masked MSI-X vectors are PCI Express's (log entry 5). -/
def PceFn.initial (fn : Nat) : PceFn :=
  { bound := if fn = 0 then some 0 else none
    d3 := false, cmd := 0, devCtl := 0x2810, devCtl2 := 0, devCtl3 := 0, linkCtl := 0, msixEn := false, msixMask := false, msix := [],
    pmeEn := false, pmeStat := false, aer := Aer.initial, bar0 := 0, bar2 := 0, flr := false, mbCmd := 0, mbRep := 0,
    mbVec := 0, mbLen := 0, dlog := none, reads := [], waiting := [], quarantine := [] }

/-- A root port that is down. -/
def RootPort.initial : RootPort := { state := .down, rate := 0, width := 0, errors := 0, downAt := 0, grants := [] }

/-- A rail that is off. -/
def Rail.initial : Rail :=
  { set := 0, mv := 0, ma := 0, missing := 0, uj := 0, pj := 0, armed := false, onAt := none, interval := 0 }

/-- A field before boot: PWR_FIELD.CEIL reads 0. -/
def PField.initial : PField := { temp := 0, thermal := 0, cap := 0, closed := false, closedAt := 0, raised := none }

/-- The Destan right after power-on reset, before boot: PORST_N is asserted (R485, R487), nothing is emitted and
nothing waits. -/
def State.reset : State :=
  { now := 0
    mem := []
    emitted := []
    loupe :=
      { queues := [], rr := 0, seq := 0, staging := [], flood := false, drop := [], ovf := [], dlog := none,
        dlogErr := false, ilogs := [], flashSeg := 0, flashErr := false, flushDue := none, lastFlush := none,
        flushPfw := false, fallback := false, fbRing := [], fbLast := 0, markMs := 0x03E8, lastMark := 0, lost := none }
    faults :=
      { table := [], ages := 0, alarms := [], bezelTimes := [], timeouts := [], failedDies := [], inject := [],
        bezelRestart := false, late := [] }
    facets := []
    mesh := { transit := [], holdlim := 0x64 }
    hbm := { zones := 0, stks := [], dies := [], bad := [] }
    gather := { tables := [], waits := [], dies := [] }
    parcels := []
    rings := []
    insts := [(0, { Instance.initial with shares := Shares.manager })]
    acct :=
      { ring := 0, ringLen := 0, periodMs := 0, prod := 0, seq := 0, dropped := 0, unowned := 0, unownedFj := 0,
        lastPeriod := 0, lastInterval := 0 }
    chans := []
    fabric :=
      { etype := 0x88B5, prefId := 0xFFFF, priority := 0x80, hops := 0x20, vid := 0, id := 0xFFFF, epoch := 0xFFFF,
        fmId := 0xFFFF, rto := 0x14, prio1 := 0xF8, lock := 0, lastOff := 0, offset := 0, goodSync := 0, lastSync := 0,
        masterAt := none, announces := [], synced := false, gptpSeq := [], syncAt := [], respAt := [], crossing := [], discards := [], edge := [], switched := [], switchNs := [],
        preempt := [], delay := [], unusable := [], adjs := [], excluded := [], heartbeat := 0, candKey := 0,
        routes := [], collect := [], collEpoch := 0xFFFF, collId := 0xFFFF, fmView := [], fmEpoch := 0, fmTable := [],
        flows := [], peersIn := [], bindings := [], gates := [], lsaDue := false }
    eth :=
      { tpid2 := 0, vxlan := 0x12B5, geneve := 0x17C1, mgmtIp4 := 0, mgmtIp6a := 0, mgmtIp6b := 0, ports := [],
        links := [], drops := [], rules := [], cleared := [], queues := [], mgmtUp := true }
    traffic :=
      { queues := [], dflt := [], ctrl := [], iqmap := [], shapers := [], meters := [], drops := [], tx := [],
        lastTick := 0 }
    rma :=
      { ctxArea := none, target := 0x0BB8, ai := 0x1000, initKib := 0x0040, pds := [], qps := [], incarn := [],
        wins := [], wgen := [], rings := [], stats := [], paths := [], clockUse := 0, lastBase := 0, nextEng := 0, engDone := [], crossing := [] }
    storage :=
      { ctrls := [], nss := [], cmds := [], nextCmd := 0, drives := [], drvto := 0x01F40, stats := [], deficit := [], arbPos := [],
        qDeficit := [], qPos := [], qTaken := [], closing := [], deletes := [] }
    pcie :=
      { link := .down, flit := false, rate := 0, width := 0, retrains := 0, downAt := 0, configured := false,
        perstAt := none, vfEnable := false, numVfs := 0, pfLog2 := 36, vfLog2 := 30, nextPf := 36, nextVf := 30, vfBar0 := 0, vfBar2 := 0,
        fns := [], inWin := [], outWin := [], winWait := [], stats := [], wakeN := false,
        roots := [] }
    cipher := { ctxs := [], counters := [], loads := 1, keys := false, alarm := false, erasures := 0, stats := [] }
    power :=
      { rails := [], fields := [], demands := [], samples := [], capW := 0x0960, idlev := 0x1F4, slklo := 0x0D,
        slkhi := 0x40, tjthr := 0x5F, gates := 0, wakedrop := 0, gateRun := false, reopenAt := none, rung := 0,
        floor := 1, prevFloor := 1, entering := none, enterAt := 0, exiting := false, dozeIdle := 0x3E8,
        idleSince := none, request := none, wakeAt := 0, held := [], lastSample := 0, lastTherm := 0,
        lastCap := 0, pfw := false }
    boot :=
      { phase := .reset, slot := 0, reason := 0, epoch := 0, version := 0, seclevel := 0, imageHash := [],
        endOfBoot := 0, flash := [], flashSize := 0x10000000, cnt0 := 0, cnt1 := 0, cnt2 := 0, committed := none,
        activating := none, switching := false, resetDue := false, plan := ([], []) }
    pins :=
      { smbAddr := 0, busSel := false, tkclkOk := true, en := 1, pg := 0, enAt := [], tamper := false,
        pwrwake := false, perst := true, porst := true, ethClk := [], peClk := true, prsnt := [], rpPerst := [],
        phyRst := true, vioAt := 0, lastPps := 0 }
    free := 0
    pending := [] }

end Sys2Proof.Machine
end

