-- ==== Sys2Proof/Machine/Ops.lean ====
section
/-! DEFINITION. The named operations over the state: tables, bytes, memory, the device-address map, the instance
map, events, faults, outputs, rings. Every other file of Machine/ goes through them. -/

namespace Sys2Proof

/-! ## Tables -/

/-- The entry at a key. -/
def Tbl.find {α : Type} : Tbl α → Nat → Option α
  | [], _ => none
  | (k, v) :: t, n => if k = n then some v else Tbl.find t n

/-- Writes the entry at a key, keeping the keys in rising order. -/
def Tbl.put {α : Type} : Tbl α → Nat → α → Tbl α
  | [], n, x => [(n, x)]
  | (k, v) :: t, n, x =>
    if n < k then (n, x) :: (k, v) :: t else if n = k then (n, x) :: t else (k, v) :: Tbl.put t n x

/-- Removes the entry at a key. -/
def Tbl.del {α : Type} (t : Tbl α) (n : Nat) : Tbl α := t.filter fun e => e.1 ≠ n

/-- The entry at a key, or the default its reader names. -/
def Tbl.getD {α : Type} (t : Tbl α) (n : Nat) (d : α) : α := (Tbl.find t n).getD d

/-- Whether a key is listed. -/
def Tbl.has {α : Type} (t : Tbl α) (n : Nat) : Bool := (Tbl.find t n).isSome

/-- The lowest number below a bound that is not listed, counting from `k`. -/
def Tbl.lowestFree {α : Type} (t : Tbl α) (bound : Nat) : Nat → Nat → Option Nat
  | 0, _ => none
  | fuel + 1, k => if k < bound then if Tbl.has t k then Tbl.lowestFree t bound fuel (k + 1) else some k else none

/-- The lowest number below a bound that is not listed. -/
def Tbl.free {α : Type} (t : Tbl α) (bound : Nat) : Option Nat := Tbl.lowestFree t bound (t.length + 1) 0

/-- Adds 1 to a wrapping count. -/
def Tbl.bump {w : Nat} (t : Tbl (BitVec w)) (n : Nat) (by_ : Nat := 1) : Tbl (BitVec w) :=
  Tbl.put t n (Tbl.getD t n 0 + BitVec.ofNat w by_)

/-- Adds to a saturating count. -/
def Tbl.bumpSat (t : Tbl Nat) (n limit : Nat) (by_ : Nat := 1) : Tbl Nat :=
  Tbl.put t n (min limit (Tbl.getD t n 0 + by_))

/-! ## Bytes -/

/-- The low `n` bytes of a value, little-endian (R7). -/
def leBytes : Nat → Nat → List Byte
  | 0, _ => []
  | n + 1, v => BitVec.ofNat 8 v :: leBytes n (v / 256)

/-- The value of bytes, little-endian (R7). -/
def leNat : List Byte → Nat
  | [] => 0
  | b :: bs => b.toNat + 256 * leNat bs

/-- The low `n` bytes of a value, big-endian (R7, Zaren headers and published headers). -/
def beBytes (n v : Nat) : List Byte := (leBytes n v).reverse

/-- The value of bytes, big-endian. -/
def beNat (bs : List Byte) : Nat := leNat bs.reverse

/-- `n` bytes from an offset; bytes past the end are missing. -/
def slice (bs : List Byte) (off n : Nat) : List Byte := (bs.drop off).take n

/-- The little-endian field of `n` bytes at an offset. -/
def fieldAt (bs : List Byte) (off n : Nat) : Nat := leNat (slice bs off n)

/-- `n` zero bytes. -/
def zeros (n : Nat) : List Byte := List.replicate n 0

/-- Bytes followed by zeros up to a length. -/
def padTo (n : Nat) (bs : List Byte) : List Byte := bs ++ zeros (n - bs.length)

/-- Bytes followed by zeros up to a multiple of `m`. -/
def padMul (m : Nat) (bs : List Byte) : List Byte := padTo ((bs.length + m - 1) / m * m) bs

/-- Whether every byte is zero. -/
def allZero (bs : List Byte) : Bool := bs.all fun b => b == 0

/-- Bits [hi:lo] of a value. -/
def bitsOf (v hi lo : Nat) : Nat := v / 2 ^ lo % 2 ^ (hi + 1 - lo)

/-- Bit `i` of a value. -/
def bitAt (v i : Nat) : Bool := v / 2 ^ i % 2 = 1

/-- 1 for true. -/
def bit (b : Bool) : Nat := if b then 1 else 0

/-- A 64-bit register from its fields as (lowest bit, width, value). -/
def pack (fs : List (Nat × Nat × Nat)) : BitVec 64 :=
  BitVec.ofNat 64 ((fs.map fun (lo, w, v) => v % 2 ^ w * 2 ^ lo).sum)

/-- A value as a two's-complement number of `w` bits. -/
def signedOf (w v : Nat) : Int := if v < 2 ^ (w - 1) then v else (v : Int) - 2 ^ w

/-- A number modulo 2^w. -/
def wrapInt (w : Nat) (z : Int) : Nat := (z % (2 ^ w : Nat)).toNat

/-! ## CRC-32C -/

/-- One bit of CRC-32C (Castagnoli), reflected. -/
def crcBit (c : Nat) : Nat := if c % 2 = 1 then (c / 2) ^^^ 0x82F63B78 else c / 2

/-- One byte of CRC-32C. -/
def crcByte (c : Nat) (b : Byte) : Nat :=
  crcBit (crcBit (crcBit (crcBit (crcBit (crcBit (crcBit (crcBit (c ^^^ b.toNat))))))))

/-- CRC-32C of bytes (R132, R133, R225, R459). -/
def crc32c (bs : List Byte) : Nat := (bs.foldl crcByte 0xFFFFFFFF) ^^^ 0xFFFFFFFF

/-! ## Memory as canonical cells -/

/-- The byte at an address; an unlisted byte reads 0 (R112, R161). -/
def Memory.get : List Host.Cell → Nat → Byte
  | [], _ => 0
  | (k, b) :: m, a => if k = a then b else Memory.get m a

/-- Writes one byte, keeping addresses rising and zeros unlisted. -/
def Memory.set : List Host.Cell → Nat → Byte → List Host.Cell
  | [], a, v => if v = 0 then [] else [(a, v)]
  | (k, b) :: m, a, v =>
    if a < k then if v = 0 then (k, b) :: m else (a, v) :: (k, b) :: m
    else if a = k then if v = 0 then m else (a, v) :: m
    else (k, b) :: Memory.set m a v

/-- Writes bytes at rising addresses. -/
def Memory.write : List Host.Cell → Nat → List Byte → List Host.Cell
  | m, _, [] => m
  | m, a, b :: bs => Memory.write (Memory.set m a b) (a + 1) bs

/-- Zeroes every byte whose address satisfies `p`. -/
def Memory.erase (p : Nat → Bool) (m : List Host.Cell) : List Host.Cell := m.filter fun c => !p c.1

/-- Reads `n` bytes at rising addresses. -/
def Memory.read (m : List Host.Cell) : Nat → Nat → List Byte
  | _, 0 => []
  | a, n + 1 => Memory.get m a :: Memory.read m (a + 1) n

/-- Addresses rise strictly from `lo` on and no listed byte is 0. -/
def Memory.wfFrom : Nat → List Host.Cell → Bool
  | _, [] => true
  | lo, (k, b) :: m => decide (lo ≤ k) && (b != 0) && Memory.wfFrom (k + 1) m

/-- The canonical form of memory: addresses strictly rising, no zero listed. -/
def Memory.wf (m : List Host.Cell) : Bool := Memory.wfFrom 0 m

end Sys2Proof

namespace Sys2Proof.Machine

/-! ## Parts of the state by number -/

def State.facet (s : State) (f : Nat) : Facet := s.facets.getD f Facet.initial
def State.putFacet (s : State) (f : Nat) (x : Facet) : State := { s with facets := s.facets.put f x }
def State.modFacet (s : State) (f : Nat) (g : Facet → Facet) : State := s.putFacet f (g (s.facet f))
def State.inst (s : State) (i : Nat) : Instance := s.insts.getD i Instance.initial
def State.putInst (s : State) (i : Nat) (x : Instance) : State := { s with insts := s.insts.put i x }
def State.modInst (s : State) (i : Nat) (g : Instance → Instance) : State := s.putInst i (g (s.inst i))
def State.parcel (s : State) (p : Nat) : Parcel := s.parcels.getD p Parcel.initial
def State.putParcel (s : State) (p : Nat) (x : Parcel) : State := { s with parcels := s.parcels.put p x }
def State.modParcel (s : State) (p : Nat) (g : Parcel → Parcel) : State := s.putParcel p (g (s.parcel p))
def State.modRun (s : State) (p : Nat) (g : Run → Run) : State := s.modParcel p fun x => { x with run := g x.run }
def State.modCkp (s : State) (p : Nat) (g : Ckp → Ckp) : State := s.modParcel p fun x => { x with ckp := g x.ckp }
def State.chan (s : State) (c : Nat) : Channel := s.chans.getD c (Channel.initial c)
def State.putChan (s : State) (c : Nat) (x : Channel) : State := { s with chans := s.chans.put c x }
def State.modChan (s : State) (c : Nat) (g : Channel → Channel) : State := s.putChan c (g (s.chan c))
def State.stack (s : State) (k : Nat) : Stack := s.hbm.stks.getD k Stack.initial
def State.modStack (s : State) (k : Nat) (g : Stack → Stack) : State :=
  { s with hbm := { s.hbm with stks := s.hbm.stks.put k (g (s.stack k)) } }
def State.memDie (s : State) (k : Nat) : MemDie := s.hbm.dies.getD k MemDie.initial
def State.modMemDie (s : State) (k : Nat) (g : MemDie → MemDie) : State :=
  { s with hbm := { s.hbm with dies := s.hbm.dies.put k (g (s.memDie k)) } }
def State.gatherDie (s : State) (k : Nat) : GatherDie := s.gather.dies.getD k GatherDie.initial
def State.modGatherDie (s : State) (k : Nat) (g : GatherDie → GatherDie) : State :=
  { s with gather := { s.gather with dies := s.gather.dies.put k (g (s.gatherDie k)) } }
def State.flow (s : State) (n : Nat) : Flow := s.fabric.flows.getD n Flow.initial
def State.modFlow (s : State) (n : Nat) (g : Flow → Flow) : State :=
  { s with fabric := { s.fabric with flows := s.fabric.flows.put n (g (s.flow n)) } }
def State.fn (s : State) (n : Nat) : PceFn := s.pcie.fns.getD n (PceFn.initial n)
def State.modFn (s : State) (n : Nat) (g : PceFn → PceFn) : State :=
  { s with pcie := { s.pcie with fns := s.pcie.fns.put n (g (s.fn n)) } }
def State.ctrl (s : State) (i : Nat) : NvCtrl := s.storage.ctrls.getD i NvCtrl.initial
def State.modCtrl (s : State) (i : Nat) (g : NvCtrl → NvCtrl) : State :=
  { s with storage := { s.storage with ctrls := s.storage.ctrls.put i (g (s.ctrl i)) } }
def State.drive (s : State) (p : Nat) : Drive := s.storage.drives.getD p Drive.initial
def State.modDrive (s : State) (p : Nat) (g : Drive → Drive) : State :=
  { s with storage := { s.storage with drives := s.storage.drives.put p (g (s.drive p)) } }
def State.port (s : State) (p : Nat) : EthPort := s.eth.ports.getD p EthPort.initial
def State.modPort (s : State) (p : Nat) (g : EthPort → EthPort) : State :=
  { s with eth := { s.eth with ports := s.eth.ports.put p (g (s.port p)) } }
def State.link (s : State) (l : Nat) : EthLink := s.eth.links.getD l EthLink.initial
def State.modLink (s : State) (l : Nat) (g : EthLink → EthLink) : State :=
  { s with eth := { s.eth with links := s.eth.links.put l (g (s.link l)) } }
def State.gatesOf (s : State) (p : Nat) : PortGates := s.fabric.gates.getD p PortGates.initial
def State.modGates (s : State) (p : Nat) (g : PortGates → PortGates) : State :=
  { s with fabric := { s.fabric with gates := s.fabric.gates.put p (g (s.gatesOf p)) } }
def State.rail (s : State) (r : Nat) : Rail := s.power.rails.getD r Rail.initial
def State.modRail (s : State) (r : Nat) (g : Rail → Rail) : State :=
  { s with power := { s.power with rails := s.power.rails.put r (g (s.rail r)) } }
def State.pfield (s : State) (f : Nat) : PField := s.power.fields.getD f PField.initial
def State.modPField (s : State) (f : Nat) (g : PField → PField) : State :=
  { s with power := { s.power with fields := s.power.fields.put f (g (s.pfield f)) } }
def State.rootPort (s : State) (p : Nat) : RootPort := s.pcie.roots.getD p RootPort.initial
def State.modRoot (s : State) (p : Nat) (g : RootPort → RootPort) : State :=
  { s with pcie := { s.pcie with roots := s.pcie.roots.put p (g (s.rootPort p)) } }
def State.inQueue (s : State) (b : Nat) : InQueue := s.loupe.queues.getD b InQueue.initial
def Facet.stream (x : Facet) (st : Nat) : Stream := x.streams.getD st Stream.initial
def Facet.putStream (x : Facet) (st : Nat) (y : Stream) : Facet := { x with streams := x.streams.put st y }
def Facet.modStream (x : Facet) (st : Nat) (g : Stream → Stream) : Facet := x.putStream st (g (x.stream st))
def Facet.bank (x : Facet) (b : Nat) : BankState := x.banks.getD b .on
def Facet.tok (x : Facet) (n : Nat) : Nat := x.toks.getD n 0

/-- The current generation of an instance (R202). -/
def State.genOf (s : State) (i : Nat) : BitVec 16 := (s.inst i).gen

/-- The instance is Active. -/
def State.isActive (s : State) (i : Nat) : Bool := (s.inst i).state = .active

/-- Moves local time forward to an instant at which a timer is due (log entry 8). -/
def State.reach (s : State) (t : Nat) : State := { s with now := max s.now t }

/-- gPTP time in ns, modulo 2^64 (R271, ZLK_TIME). -/
def State.gptp (s : State) : Nat := wrapInt 64 ((s.now : Int) + s.fabric.offset)

/-- Appends an output. -/
def State.emit (s : State) (o : Out) : State := { s with emitted := s.emitted ++ [o] }

/-- A free value, and the state that has taken it (log entry 7). -/
def State.takeFree (s : State) : Nat × State := (Config.freeValue s.free, { s with free := s.free + 1 })

/-- Whether an operation of a device outside this spec fails: a free value decides (log entries 7 and 65). -/
def State.mayFail (s : State) : Bool × State :=
  let (v, s) := s.takeFree
  (v % 2 = 1, s)

/-- Adds to a cumulative count of an instance (R222): 1 HBM_RD, 2 HBM_WR, 3 PORT_RX, 4 PORT_TX, 5 STOR_RD, 6 STOR_WR,
7 CKPT. -/
def State.charge (s : State) (i n by_ : Nat) : State :=
  s.modInst i fun x => { x with counts := x.counts.bump n by_ }

/-! ## Geometry (R18, R24, R122) -/

/-- Facets of the table. -/
def nFacets : Nat := 1536
/-- The index of the facet at (x, y) (R24). -/
def facetAt (x y : Nat) : Nat := y * 48 + x
/-- x of a facet. -/
def facetX (f : Nat) : Nat := f % 48
/-- y of a facet. -/
def facetY (f : Nat) : Nat := f / 48
/-- The field of a facet (R24). -/
def fieldOf (f : Nat) : Nat := facetX f / 16 + 3 * (facetY f / 16)

/-- A girdle die: MG0 to MG7 are 0 to 7, NG0 to NG3 are 8 to 11, HG is 12. Its side as SIDE spells it (1 south,
2 north, 3 west, 4 east), first edge coordinate and length of its run (R18). -/
def dieRun (d : Nat) : Nat × Nat × Nat :=
  if d < 3 then (1, 16 * d, 16) else if d < 6 then (2, 16 * (d - 3), 16)
  else if d < 8 then (4, 16 * (d - 6), 16) else if d < 10 then (3, 4 * (d - 8), 4)
  else if d < 12 then (3, 24 + 4 * (d - 10), 4) else (3, 8, 16)

/-- The facet of a die's run nearest a coordinate (R122). -/
def runFacet (d x y : Nat) : Nat :=
  let (side, lo, n) := dieRun d
  let c := if side = 1 ∨ side = 2 then x else y
  let e := if c < lo then lo else if lo + n ≤ c then lo + n - 1 else c
  if side = 1 then facetAt e 0 else if side = 2 then facetAt e 31
  else if side = 3 then facetAt 0 e else facetAt 47 e

/-- The facet at a position of a die's run, counted round (R122). -/
def runAt (d k : Nat) : Nat := let (_, lo, n) := dieRun d; runFacet d (lo + k % n) (lo + k % n)

/-- The die beyond a side of a facet, if an edge link is there (R18, R19). -/
def edgeDie (x y side : Nat) : Option Nat :=
  (List.range 13).find? fun d =>
    let (sd, lo, n) := dieRun d
    sd = side && (if side = 1 ∨ side = 2 then decide (lo ≤ x ∧ x < lo + n) && (if side = 1 then y = 0 else y = 31)
      else decide (lo ≤ y ∧ y < lo + n) && (if side = 3 then x = 0 else x = 47))

/-- The memory-girdle die of a stack (R155). -/
def dieOfStack (k : Nat) : Nat := k / 4
/-- The network-girdle die of a port (R18). -/
def dieOfPort (p : Nat) : Nat := p / 4
/-- The network-girdle die of a link (R249). -/
def dieOfLink (l : Nat) : Nat := l / 16
/-- The port of a link (R249). -/
def portOf (l : Nat) : Nat := l / 4

/-! ## HBM interleave (R159) -/

/-- The xor of the 5-bit groups of a value, over at most `n` groups. -/
def fold5 : Nat → Nat → Nat
  | 0, _ => 0
  | n + 1, v => (v % 32) ^^^ fold5 n (v / 32)

/-- Bytes of HBM. -/
def hbmSize : Nat := 0x0180_0000_0000

/-- Where a device address below `hbmSize` lies: stack and byte address within the stack (R159). -/
def hbmPlace (zones : BitVec 32) (d : Nat) : Nat × Nat :=
  let z := d / 0xC_0000_0000
  let o := d % 0xC_0000_0000
  if zones.getLsbD z then (o / 0x6000_0000, z * 0x6000_0000 + o % 0x6000_0000)
  else
    let g := o / 1024
    (fold5 8 g, z * 0x6000_0000 + g / 32 * 1024 + o % 1024)

/-- The whole of `hbm_locate` (R159): stack, pseudo-channel, bank, row, byte within the row. -/
def hbmLocate (zones : BitVec 32) (d : Nat) : Nat × Nat × Nat × Nat × Nat :=
  let (k, a) := hbmPlace zones d
  let h := a / 1024
  let p := h / 32
  (k, fold5 8 h, p % 64, p / 64, a % 1024)

/-- The stack of a device address. -/
def State.stackOf (s : State) (d : Nat) : Nat := (hbmPlace s.hbm.zones d).1

/-! ## The device-address map (R32) -/

/-- What a device address names. -/
inductive Region where
  | hbm | spad (f off : Nat) | sram (k off : Nat) | host | none
  deriving DecidableEq, Repr

/-- First device address of the scratchpads. -/
def spadBase : Nat := 0x1000_0000_0000
/-- First device address of girdle SRAM. -/
def sramBase : Nat := 0x1800_0000_0000
/-- First device address of the attached-host range. -/
def hostBase : Nat := 0x8000_0000_0000

/-- The region of a device address (R32). -/
def regionOf (a : Nat) : Region :=
  if a < hbmSize then .hbm
  else if spadBase ≤ a ∧ a < spadBase + 0x6000_0000 then .spad ((a - spadBase) / 0x10_0000) ((a - spadBase) % 0x10_0000)
  else if sramBase ≤ a ∧ a < sramBase + 0x1000_0000 then
    .sram ((a - sramBase) / 0x0200_0000) ((a - sramBase) % 0x0200_0000)
  else if hostBase ≤ a ∧ a < 0x1_0000_0000_0000 then .host
  else .none

/-- A byte of girdle SRAM lies in a cache way (R176). -/
def State.inCacheWay (s : State) (k off : Nat) : Bool := decide (16 - (s.gatherDie k).ways ≤ off / 0x20_0000)

/-- The device address is unmapped (R32), a cache way included (R176). -/
def State.unmapped (s : State) (a : Nat) : Bool :=
  match regionOf a with
  | .none => true
  | .sram k off => s.inCacheWay k off
  | _ => false

/-! ## Events and faults -/

/-- The severity of an event code (R464). -/
def severityOf (code : Nat) : Nat :=
  if code = 0x2100 ∨ code = 0x2101 then 2
  else if code = 0x2102 ∨ code = 0x2103 ∨ code = 0x4100 then 4
  else if code = 0x4101 ∨ code = 0xB100 then 1
  else if code = 0xB101 then 2 else if code = 0xB102 then 5 else if code = 0xB103 then 6
  else if code = 0xC100 then 3 else if code = 0xC101 ∨ code = 0xC102 then 1
  else if code = 0xC103 then 5 else if code = 0xC104 then 3
  else match code % 0x1000 with
    | 1 => 3 | 2 => 3 | 3 => 4 | 4 => 4 | 5 => 4 | 6 => 2 | 7 => 2 | 8 => 3 | 9 => 5 | _ => 1

/-- The blocks of the control-space map in its order (R27, R452). -/
def blkBZL : Nat := 0
def blkPWR : Nat := 1
def blkLOG : Nat := 2
def blkPCE : Nat := 3
def blkNVC : Nat := 4
def blkCIP : Nat := 5
def blkNET : Nat := 6
def blkTMS : Nat := 7
def blkRMA : Nat := 8
def blkZLK : Nat := 9
def blkMEM : Nat := 10
def blkGTH : Nat := 11
def blkCKP : Nat := 12
def blkPCL : Nat := 13
def blkTBL : Nat := 14
def blkFCT : Nat := 15

/-- An event enters its block's input queue, or, when 64 wait there, is counted (R452, R490). -/
def State.raise (s : State) (blk code : Nat) (inst : Option Nat) (p0 p1 : Nat) (extra : List Byte := []) : State :=
  let q := s.inQueue blk
  let ev : Event := { code, inst := inst.map fun i => (i, s.genOf i), p0, p1, extra }
  let q' := if q.events.length < 64 then { q with events := q.events ++ [ev] } else { q with pending := q.pending + 1 }
  let ovf := if q.events.length < 64 then s.loupe.ovf else s.loupe.ovf.bumpSat blk (2 ^ 64 - 1)
  { s with loupe := { s.loupe with queues := s.loupe.queues.put blk q', ovf } }

/-- A TIME_MARK record (R451): local time, and gPTP time or all ones while unlocked. -/
def State.timeMark (s : State) : State :=
  s.raise blkLOG 0xC101 none s.now (if s.fabric.lock = 0 then 2 ^ 64 - 1 else s.gptp)

/-- The scope's code in a fault entry (R474). -/
def scopeCode : Scope → Nat
  | .record => 1 | .command => 2 | .object => 3 | .parcel => 4 | .stack => 5 | .die => 6 | .endpoint => 7
  | .bezel => 8 | .device => 9

/-- The number of a fault entry that a predicate names. -/
def Faults.entry (x : Faults) (p : FaultEntry → Bool) : Option Nat :=
  (x.table.find? fun e => p e.2).map (·.1)

/-- The oldest cleared entry (R474). -/
def Faults.oldestCleared (x : Faults) : Option Nat :=
  ((x.table.filter fun e => e.2.status = .cleared).foldl
    (fun (best : Option (Nat × Nat)) e => match best with
      | none => some (e.1, e.2.age)
      | some (k, a) => if e.2.age < a then some (e.1, e.2.age) else some (k, a)) none).map (·.1)

/-- Records a fault (R465, R474): its FAULT record, and its entry in the fault table. -/
def State.recordFault (s : State) (code : Nat) (scope : Scope) (object : Nat) : State :=
  let s := s.raise blkBZL 0xD009 none code object
  let x := s.faults
  let fresh : FaultEntry :=
    { code, scope, status := .active, object, count := 1, firstSeq := none, lastSeq := 0, age := x.ages }
  match x.entry fun e => e.code = code ∧ e.object = object with
  | some n =>
    let e := x.table.getD n fresh
    { s with faults := { x with
        table := x.table.put n { e with count := min 0xFFFFFFFF (e.count + 1), status := .active } } }
  | none =>
    let n := match x.table.free 64 with
      | some n => some n
      | none => x.oldestCleared
    match n with
    | none => s
    | some n => { s with faults := { x with table := x.table.put n fresh, ages := x.ages + 1 } }

/-- The cause of the faults of a code is gone (R474). -/
def State.causeGone (s : State) (code : Nat) : State :=
  { s with faults := { s.faults with table := s.faults.table.map fun e =>
      if e.2.code = code ∧ e.2.status = .active then (e.1, { e.2 with status := .causeClear }) else e } }

/-- The cause of a fault of one object is gone (R466, R474). -/
def State.objectWell (s : State) (scope : Scope) (object : Nat) : State :=
  { s with faults := { s.faults with table := s.faults.table.map fun e =>
      if e.2.scope = scope ∧ e.2.object = object ∧ e.2.status = .active then (e.1, { e.2 with status := .causeClear }) else e } }

/-- The active Device-scope faults, lowest code first (R467). -/
def State.deviceFault (s : State) : Option Nat :=
  ((s.faults.table.filter fun e => e.2.scope = .device ∧ e.2.status ≠ .cleared).map (·.2.code)).min?

/-- A die is not started or has failed (R21, R466). -/
def State.dieFailed (s : State) (d : Nat) : Bool := s.faults.failedDies.contains d

/-! ## Scratchpad banks (R107, R109, R111, R115) -/

/-- Device address of a byte of a facet's scratchpad (R32). -/
def spadAddr (f off : Nat) : Nat := spadBase + f * 0x10_0000 + off

/-- The 128-byte words that a range covers (R107). -/
def wordsOf (off n : Nat) : Nat := if n = 0 then 0 else (off + n - 1) / 128 - off / 128 + 1

/-- Every bank of a range is On. -/
def Facet.banksOn (x : Facet) (off n : Nat) : Bool :=
  (List.range ((off + n - 1) / 0x1_0000 - off / 0x1_0000 + 1)).all fun j => x.bank (off / 0x1_0000 + j) = .on

/-- How many masters stand before one in the rotation that begins after the master granted last (R111). -/
def turnOf (last m : Nat) : Nat := (m + 7 - last) % 8

/-- Puts a request into the order of the rotation. -/
def insertTurn (last : Nat) (r : BankReq) : List BankReq → List BankReq
  | [] => [r]
  | q :: t => if turnOf last r.master < turnOf last q.master then r :: q :: t else q :: insertTurn last r t

/-- The port rule of a bank handshake: two reads, one read and one write, or one write alone (R109). -/
def portsAdmit (reads writes : Nat) : Bool := decide ((writes = 0 ∧ reads ≤ 2) ∨ (writes = 1 ∧ reads ≤ 1))

/-- The requests that a bank handshake grants, in the order of the rotation, until the port rule admits no more; and those that it
denies (R111). -/
def grantPorts : Nat → Nat → List BankReq → List BankReq × List BankReq
  | _, _, [] => ([], [])
  | reads, writes, q :: t =>
    let r := if q.write then reads else reads + 1
    let w := if q.write then writes + 1 else writes
    if portsAdmit r w then
      let (g, d) := grantPorts r w t
      (q :: g, d)
    else
      let (g, d) := grantPorts reads writes t
      (g, q :: d)

/-- A bank begins its next handshake: the master granted last is the last one of this handshake. -/
def BankUse.next (u : BankUse) : BankUse :=
  { u with last := match u.reqs.getLast? with | some q => q.master | none => u.last, reqs := [] }

/-- A request joins the bank handshake of its instant; the masters that it leaves denied come with the bank's new use, and their
requests make the next handshake. -/
def BankUse.join (u : BankUse) (r : BankReq) : BankUse × List Nat :=
  let (g, d) := grantPorts 0 0 (insertTurn u.last r u.reqs)
  let u : BankUse := { u with reqs := g }
  if d.isEmpty then (u, []) else ({ u.next with reqs := d }, d.map (·.master))

/-- A bank that has served nothing: the rotation begins with master 0. -/
def BankUse.initial : BankUse := { at_ := 0, last := 7, reqs := [] }

/-- A master accesses words `w0` to `w1` of a bank at one instant. Requests of the same instant share a bank handshake as far as
the port rule admits, and each denial counts in TBL_CONFL (R109, R111). A read of a word that the handshake writes would return
the value held before the write, so one that comes after the write waits for the next handshake (R109); the further words of an
access take handshakes of their own (log entry 50). -/
def Facet.bankTouch (x : Facet) (now m : Nat) (write : Bool) (b w0 w1 : Nat) : Facet :=
  let u := Tbl.getD x.bankUse b BankUse.initial
  let u := if u.at_ = now then u else { u.next with at_ := now }
  let u := if !write && u.reqs.any (fun q => q.write && q.word = w0) then u.next else u
  let (u, ds) := u.join { master := m, write, word := w0 }
  let u := if w0 = w1 then u else { u.next with last := m, reqs := [{ master := m, write, word := w1 }] }
  { x with bankUse := x.bankUse.put b u, confl := ds.foldl (fun t d => t.bump d) x.confl }

/-- A master accesses a list of words, in rising order, of a facet's scratchpad: the access of each bank, and FCT_HSKP (R78). -/
def State.bankWords (s : State) (f m : Nat) (write : Bool) (ws : List Nat) : State :=
  s.modFacet f fun x =>
    let x := (List.range 16).foldl (fun x b =>
      match ws.filter fun w => w / 512 = b with
      | [] => x
      | w :: t => x.bankTouch s.now m write b w (t.getLastD w)) x
    { x with hskp := x.hskp + BitVec.ofNat 64 ws.length }

/-- A master accesses `n` bytes of a facet's scratchpad. -/
def State.bankAccess (s : State) (f m : Nat) (write : Bool) (off n : Nat) : State :=
  s.bankWords f m write ((List.range (wordsOf off n)).map (· + off / 128))

/-! ## Reading and writing device memory -/

/-- Why an engine's access to memory failed: a translation status of R491, uncorrectable data (R168, R472), or a
request that a facet discards (R73). -/
inductive AccErr where
  | trans (status : Nat)
  | uncorr
  | lost
  deriving DecidableEq, Repr

/-- The newest queued byte for an address (R164). -/
def queuedByte (ws : List HbmWrite) (a : Nat) : Option Byte :=
  ws.foldl (fun r w => if w.addr ≤ a ∧ a < w.addr + w.data.length then w.data[a - w.addr]? else r) none

/-- A byte of device memory as a read sees it: a queued write is visible (R164). -/
def State.readByte (s : State) (a : Nat) : Byte :=
  if a < hbmSize then
    match queuedByte (s.stack (s.stackOf a)).writes a with
    | some b => b
    | none => Memory.get s.mem a
  else Memory.get s.mem a

/-- `n` bytes of device memory from an address. -/
def State.readBytes (s : State) (a : Nat) : Nat → List Byte
  | 0 => []
  | n + 1 => s.readByte a :: State.readBytes s (a + 1) n

/-- The bytes of the units that a store checks together: 16 in a scratchpad (R108), 32 elsewhere (R165). -/
def unitOf (a : Nat) : Nat := match regionOf a with | .spad _ _ => 16 | _ => 32

/-- The MiB of an HBM address has been written (R161). -/
def State.mibWritten (s : State) (a : Nat) : Bool :=
  let (k, b) := hbmPlace s.hbm.zones a
  (s.stack k).written.contains (b / 0x10_0000)

/-- The uncorrectable units that a read of a range meets, in rising order. A MiB that nothing has written reads as zeros without
its rows (R161), so no unit of it is met. -/
def State.badUnits (s : State) (a n : Nat) : List Nat :=
  s.hbm.bad.filter fun u => decide (u < a + n ∧ a < u + unitOf u) && (decide (hbmSize ≤ u) || s.mibWritten u)

/-- A range meets uncorrectable data: a bad unit, or a stack that does not serve (R168, R466). -/
def State.rangeBad (s : State) (a n : Nat) : Bool :=
  !(s.badUnits a n).isEmpty ||
  (decide (a < hbmSize) && (List.range ((a + n - 1) / 1024 - a / 1024 + 1)).any fun j =>
    let k := s.stackOf ((a / 1024 + j) * 1024)
    (s.stack k).state = .failed || s.dieFailed (dieOfStack k))

/-- An address lies in HBM, in MiB `m` of stack `k`. -/
def inMib (zones : BitVec 32) (k m u : Nat) : Bool :=
  decide (u < hbmSize ∧ (hbmPlace zones u).1 = k ∧ (hbmPlace zones u).2 / 0x10_0000 = m)

/-- Marks the MiB that a write covers; one that nothing had written is filled with zeros first, which makes every unit of it
correct (R161, R168). -/
def State.markWritten (s : State) (a n : Nat) : State :=
  (List.range ((a + n - 1) / 1024 - a / 1024 + 1)).foldl (fun s j =>
    let (k, b) := hbmPlace s.hbm.zones ((a / 1024 + j) * 1024)
    let m := b / 0x10_0000
    if (s.stack k).written.contains m then s
    else
      let s := s.modStack k fun x => { x with written := m :: x.written }
      { s with hbm := { s.hbm with bad := s.hbm.bad.filter fun u => !inMib s.hbm.zones k m u } }) s

/-- A write drops the cached rows it overlaps (R177). -/
def State.dropRows (s : State) (a n : Nat) : State :=
  { s with gather := { s.gather with
      dies := s.gather.dies.map fun (k, d) =>
        (k, { d with cache := d.cache.filter fun r => !r.segs.any fun e => decide (e.1 < a + n ∧ a < e.1 + e.2) }) } }

/-- Performs a write to device memory (R108, R165, R168): a bad unit that is wholly covered becomes good, one that is
partly covered is not written and the answer is false. -/
def State.storeRaw (s : State) (a : Nat) (bs : List Byte) : State × Bool :=
  let n := bs.length
  if n = 0 then (s, true) else
  let s := if a < hbmSize then s.markWritten a n else s
  let u := unitOf a
  let blocked := s.hbm.bad.filter fun b => decide (b < a + n ∧ a < b + u) && !decide (a ≤ b ∧ b + u ≤ a + n)
  let bad := s.hbm.bad.filter fun b => !decide (a ≤ b ∧ b + u ≤ a + n)
  let mem := if blocked.isEmpty then Memory.write s.mem a bs
    else (List.range n).foldl (fun m i =>
      if blocked.any fun b => decide (b ≤ a + i ∧ a + i < b + u) then m else Memory.set m (a + i) (bs.getD i 0)) s.mem
  let s := { s with mem, hbm := { s.hbm with bad } }
  (if a < hbmSize then s.dropRows a n else s, blocked.isEmpty)

/-- The stack issues its oldest queued write, checking its generation (R166). -/
def State.issueWrite (s : State) (k : Nat) : State :=
  match (s.stack k).writes with
  | [] => s
  | w :: ws =>
    let s := s.modStack k fun x => { x with writes := ws }
    if s.genOf w.inst = w.gen then (s.storeRaw w.addr w.data).1.modStack k fun x => { x with acts := x.acts + 1 } else s

/-- The stack issues all its queued writes. -/
def State.drainStack (s : State) (k : Nat) : Nat → State
  | 0 => s
  | n + 1 => State.drainStack (s.issueWrite k) k n

/-- Every stack issues its queued writes, so that an engine's write lands after them (R164). -/
def State.drainHbm (s : State) : State :=
  s.hbm.stks.foldl (fun s e => s.drainStack e.1 e.2.writes.length) s

/-- The range of `n` bytes `skip` bytes into a list of (address, length) segments. -/
def segAt : List (Nat × Nat) → Nat → Option Nat
  | [], _ => none
  | (b, n) :: t, skip => if skip < n then some (b + skip) else segAt t (skip - n)

/-- The byte position of a device address within a list of segments. -/
def segPos : List (Nat × Nat) → Nat → Nat → Option Nat
  | [], _, _ => none
  | (b, n) :: t, acc, a => if b ≤ a ∧ a < b + n then some (acc + (a - b)) else segPos t (acc + n) a

/-- Requester classes of MEM_UELOG (spec/06): remote-memory and fabric engines; storage, host endpoint, checkpoint, cipher and
bezel, with which the recorder counts (log entry 19). -/
def clsNet : Nat := 2
def clsHost : Nat := 3

/-- The 32-byte unit of an address. -/
def unit32 (a : Nat) : Nat := a / 32 * 32

/-- An uncorrectable unit is counted, logged with its class, recorded, and stays uncorrectable (R167, R168). -/
def State.ueLog (s : State) (cls a : Nat) : State :=
  let u := unit32 a
  let s := s.modMemDie (dieOfStack (s.stackOf u)) fun d =>
    { d with
      uncorr := min 0xFFFF (d.uncorr + 1)
      uelog := d.uelog.put d.ueNext { valid := true, cls, addr := u }
      ueNext := (d.ueNext + 1) % 16 }
  let s : State := if s.hbm.bad.contains u then s else { s with hbm := { s.hbm with bad := u :: s.hbm.bad } }
  s.raise blkMEM 0x3003 none u cls

/-- Logs the uncorrectable units that an access to an HBM range met. -/
def State.ueLogRange (s : State) (cls a n : Nat) : State :=
  ((s.badUnits a n).filter fun u => decide (u < hbmSize)).foldl (fun s u => s.ueLog cls u) s

/-- A corrected unit is counted; its rewrite changes no value. -/
def State.eccCorr (s : State) (a : Nat) : State :=
  s.modMemDie (dieOfStack (s.stackOf a)) fun d => { d with corr := min 0xFFFFFFFF (d.corr + 1) }

/-- A parity error is counted, cured or not. -/
def State.parityErr (s : State) (a : Nat) : State :=
  s.modMemDie (dieOfStack (s.stackOf a)) fun d => { d with parity := min 0xFFFF (d.parity + 1) }

/-- What the stacks report of an engine's read at an address (R167): a corrected unit and a cured parity error are counted, and a unit
that is uncorrectable twice is one from then on. A MiB that nothing has written is not read from its stack (R161). -/
def State.busMet (s : State) (a : Nat) (o : ReadOutcome) : State :=
  if hbmSize ≤ a ∨ !s.mibWritten a then s
  else match o with
    | .ok => s
    | .corrected => s.eccCorr a
    | .parity => s.parityErr a
    | .uncorrected =>
      if s.hbm.bad.contains (unit32 a) then s else { s with hbm := { s.hbm with bad := unit32 a :: s.hbm.bad } }

/-- What the bus reports of a write (R167): a parity error is counted and cured by the retry; a second one logs the unit. -/
def State.busWrote (s : State) (cls a : Nat) (o : ReadOutcome) : State :=
  match o with
  | .parity => s.parityErr a
  | .uncorrected => ((s.parityErr a).parityErr a).ueLog cls a
  | _ => s

/-- What the bus reports of a queued write: a free value (log entry 72). -/
def State.writeOutcome (s : State) : ReadOutcome × State :=
  let (v, s) := s.takeFree
  (if v % 4 = 1 then .parity else if v % 4 = 2 then .uncorrected else .ok, s)

/-- The part of a list of segments from a byte position on, as device ranges. -/
def segSlice : List (Nat × Nat) → Nat → Nat → List (Nat × Nat)
  | [], _, _ => []
  | (b, m) :: t, pos, n =>
    if n = 0 then []
    else if pos < m then (b + pos, min n (m - pos)) :: segSlice t 0 (n - min n (m - pos))
    else segSlice t (pos - m) n

/-- Bytes of a copy-on-write granule (R190). -/
def ckpGranule : Nat := 0x1_0000

/-- Copies `n` bytes of memory as they read. -/
def State.copyRaw (s : State) (src dst n : Nat) : State := (s.storeRaw dst (s.readBytes src n)).1

/-- The first place of the save area that no granule holds (R192). -/
def Ckp.freePlace (c : Ckp) : Option Nat :=
  let total := (c.saveSegs.map (·.2)).sum / ckpGranule
  (List.range (c.saved.length + 1)).findSome? fun j =>
    let pl := c.firstPlace + j
    if decide (pl < total) && !(c.saved.any fun e => e.2 = pl) then some pl else none

/-- The instance for which a copy is made, for its accounts (R222). -/
def Ckp.owner (c : Ckp) : Nat := match c.info with | some m => m.inst | none => 0

/-- Saves a pending granule of a parcel's copy, if a place is free (R192). One that meets uncorrectable data is not copied: the units
are logged, and the copy is to fail (R198). -/
def State.saveGranule (s : State) (p g : Nat) : Option State :=
  let c := (s.parcel p).ckp
  match c.freePlace, segAt c.segs (g * ckpGranule) with
  | some pl, some src =>
    match segAt c.saveSegs (pl * ckpGranule) with
    | some dst =>
      some (if s.rangeBad src ckpGranule then (s.ueLogRange clsHost src ckpGranule).modCkp p fun c => { c with hurt := true }
        else (((s.charge c.owner 1 ckpGranule).charge c.owner 2 ckpGranule).copyRaw src dst ckpGranule).modCkp p fun c =>
          { c with saved := c.saved.put g pl })
    | none => none
  | _, _ => none

/-- The pending granule of an active copy that holds a device address, as (parcel, granule) (R192); of a copy that is to fail none is
pending any more. -/
def State.pendingGranule (s : State) (a : Nat) : Option (Nat × Nat) :=
  s.parcels.findSome? fun (p, x) =>
    if x.ckp.active && !x.ckp.hurt then
      match segPos x.ckp.segs 0 a with
      | some q =>
        let g := q / ckpGranule
        if decide (x.ckp.copied ≤ g) && !x.ckp.saved.has g then some (p, g) else none
      | none => none
    else none

/-- The granule of a device address for which a write is held (R192). -/
def State.heldGranule (s : State) (a : Nat) : Option (Nat × Nat) :=
  s.parcels.findSome? fun (p, x) =>
    (x.ckp.held.find? fun h => h.write.addr / ckpGranule = a / ckpGranule).map fun h => (p, h.granule)

/-- Makes room for a write to the granule of an address: saves it for every copy that has it pending. None, and the write is to be held,
when a save area is full (R192). -/
def State.saveFor (s : State) (a : Nat) : Nat → Option State
  | 0 => some s
  | fuel + 1 =>
    match s.pendingGranule a with
    | none => some s
    | some (p, g) => match s.saveGranule p g with
      | some s' => State.saveFor s' a fuel
      | none => none

/-- Holds a write for a granule of a parcel's copy. -/
def State.holdWrite (s : State) (p g : Nat) (w : HbmWrite) (flit : Option Flit) : State :=
  s.modCkp p fun c => { c with held := c.held ++ [{ granule := g, write := w, flit }] }

/-- An engine's write to the part of one 64 KiB granule during a copy: behind the writes held for it, after the granule is saved, or
held itself (R192). -/
def State.storePart (s : State) (a : Nat) (bs : List Byte) : State × Bool :=
  let w : HbmWrite := { addr := a, data := bs, inst := 0, gen := s.genOf 0 }
  match s.heldGranule a with
  | some (p, g) => (s.holdWrite p g w none, true)
  | none =>
    match s.saveFor a (s.parcels.length + 1), s.pendingGranule a with
    | some s', _ => s'.storeRaw a bs
    | none, some (p, g) => (s.holdWrite p g w none, true)
    | none, none => s.storeRaw a bs

/-- The parts of a write by 64 KiB granules. -/
def granParts : Nat → Nat → List Byte → List (Nat × List Byte)
  | 0, _, _ => []
  | fuel + 1, a, bs =>
    if bs.isEmpty then [] else
    let k := ckpGranule - a % ckpGranule
    (a, bs.take k) :: granParts fuel (a + k) (bs.drop k)

/-- A checkpoint copy has granules or held writes. -/
def State.copying (s : State) : Bool := s.parcels.any fun e => e.2.ckp.active || !e.2.ckp.held.isEmpty

/-- An engine's write to HBM, scratchpad or girdle SRAM by device address. Every write to HBM is checked against the checkpoint copies
under way, granule by granule (R192). -/
def State.store (s : State) (a : Nat) (bs : List Byte) : State × Bool :=
  if a < hbmSize then
    let s := s.drainHbm
    if s.copying then
      (granParts (bs.length / ckpGranule + 2) a bs).foldl (fun r e => let q := r.1.storePart e.1 e.2; (q.1, r.2 && q.2)) (s, true)
    else s.storeRaw a bs
  else s.storeRaw a bs

/-- Zeroes device ranges without any copy-on-write: power, allocation and reset effects (R160, R203, R207, R210). -/
def State.zeroRange (s : State) (a n : Nat) : State :=
  let s := if a < hbmSize then s.drainHbm else s
  let s := { s with
    mem := Memory.erase (fun k => decide (a ≤ k ∧ k < a + n)) s.mem
    hbm := { s.hbm with bad := s.hbm.bad.filter fun b => !decide (a ≤ b ∧ b < a + n) } }
  if a < hbmSize then s.dropRows a n else s

/-- Writes zeros over device ranges as any other write: a pending granule is saved first, or the zeros wait (R192, R207). -/
def State.zeroStore (s : State) (a n : Nat) : State :=
  if decide (a < hbmSize) && s.copying then
    (List.range ((n + ckpGranule - 1) / ckpGranule)).foldl (fun s j =>
      let b := a + j * ckpGranule
      let k := min ckpGranule (n - j * ckpGranule)
      if (s.heldGranule b).isSome || (s.pendingGranule b).isSome then (s.storePart b (zeros k)).1 else s.zeroRange b k) s
  else s.zeroRange a n

/-! ## Windows and the instance map -/

/-- The outbound window over a device address (R387). -/
def State.outWindow (s : State) (a : Nat) (write : Bool) : Option OutWindow :=
  (s.pcie.outWin.find? fun e => decide (e.2.dbase ≤ a ∧ a < e.2.dbase + e.2.len) &&
    (if write then e.2.wr else e.2.rd)).map (·.2)

/-- The endpoint link is up (R4). -/
def Pcie.linkUp (x : Pcie) : Bool := x.link = .l0 || x.link = .l1

/-- The parts of an access to the attached-host range by the windows it spans, as (function, bus address, bytes); none when
a part has no window with the permission (R387). -/
def State.outParts (s : State) (write : Bool) : Nat → Nat → Nat → Option (List (Nat × Nat × Nat))
  | 0, _, n => if n = 0 then some [] else none
  | fuel + 1, a, n =>
    if n = 0 then some []
    else
      match s.outWindow a write with
      | none => none
      | some w =>
        let k := min n (w.dbase + w.len - a)
        (State.outParts s write fuel (a + k) (n - k)).map fun t => (w.fn, w.bus + (a - w.dbase), k) :: t

/-- The parts of an access to the attached-host range. -/
def State.hostParts (s : State) (a n : Nat) (write : Bool) : Option (List (Nat × Nat × Nat)) :=
  s.outParts write (s.pcie.outWin.length + 1) a n

/-- Instance-map granule. -/
def granule : Nat := 0x20_0000

/-- The entry of a granule of an instance's map (R203). -/
def State.mapEntry (s : State) (i g : Nat) : Nat := leNat (s.readBytes ((s.inst i).mapBase + 8 * g) 8)

/-- Translates one address of an instance for a read or a write; an error is the first status of R491 that applies
(R34, R35, R205). -/
def State.translate (s : State) (i a : Nat) (write : Bool) : Except Nat Nat :=
  let g := a / granule
  if (s.inst i).mapLen ≤ g ∨ 2 ^ 48 ≤ a then .error 1
  else
    let e := s.mapEntry i g
    if !bitAt e 63 then .error 2
    else if !write && !bitAt e 62 then .error 3
    else if write && !bitAt e 61 then .error 4
    else
      let d := bitsOf e 47 21 * granule + a % granule
      if s.unmapped d then .error 5
      else if decide (hostBase ≤ d) && (!s.pcie.linkUp || (s.outWindow d write).isNone) then .error 6
      else .ok d

/-- The device range of the part of an access that lies in one granule. -/
def State.rangeOne (s : State) (i a k : Nat) (write : Bool) : Except Nat (Nat × Nat) :=
  match s.translate i a write with
  | .error e => .error e
  | .ok d => if decide (hostBase ≤ d) && (s.hostParts d k write).isNone then .error 6 else .ok (d, k)

/-- The device ranges of `n` bytes of an instance's memory, in order. When several checks fail, in whatever granules, the status
that comes first in the table of R491 is the answer. -/
def State.ranges (s : State) (i : Nat) (write : Bool) : Nat → Nat → Nat → Except Nat (List (Nat × Nat))
  | 0, _, _ => .ok []
  | fuel + 1, a, n =>
    if n = 0 then .ok [] else
    let k := min n (granule - a % granule)
    match s.rangeOne i a k write, State.ranges s i write fuel (a + k) (n - k) with
    | .error e, .error e' => .error (min e e')
    | .error e, .ok _ => .error e
    | .ok _, .error e' => .error e'
    | .ok r, .ok t => .ok (r :: t)

/-- The device ranges of `n` bytes at an instance address. -/
def State.rangesOf (s : State) (i a n : Nat) (write : Bool) : Except Nat (List (Nat × Nat)) :=
  s.ranges i write (n / granule + 2) a n

/-- Every byte of an instance range translates to HBM for reading and writing (R154, R187, R454). -/
def State.inHbm (s : State) (i a n : Nat) : Bool :=
  match s.rangesOf i a n true, s.rangesOf i a n false with
  | .ok rs, .ok _ => rs.all fun r => decide (r.1 < hbmSize)
  | _, _ => false

/-- Every byte of an instance range translates for reading and writing. -/
def State.mapsRw (s : State) (i a n : Nat) : Bool :=
  match s.rangesOf i a n true, s.rangesOf i a n false with
  | .ok _, .ok _ => true
  | _, _ => false

/-- The facet ingress applies a packet of this instance and generation (R73). -/
def Facet.accepts (x : Facet) (i : Nat) (g : BitVec 16) : Bool :=
  match x.owner with
  | some o => o.inst = i && o.gen = g && x.state ≠ .empty && x.state ≠ .faulted
  | none => false

/-- A facet takes an access of this instance and generation; the bezel, which carries none, is not checked. -/
def Facet.takes (x : Facet) : Option (Nat × BitVec 16) → Bool
  | some (i, g) => x.accepts i g
  | none => true

/-- A range of a die's girdle SRAM meets a cache way, which is unmapped (R176, R33). Cache ways are the last ones. -/
def State.cacheMeets (s : State) (k off n : Nat) : Bool := s.inCacheWay k off || s.inCacheWay k (off + n - 1)

/-! ## Master requests (R389, R390, R402) -/

/-- A function may issue requests (R389): the link is up, and it is in D0 with Bus Master Enable, outside a function-level
reset and not a VF without VF Enable. -/
def State.mayMaster (s : State) (fn : Nat) : Bool :=
  s.pcie.linkUp && !(s.fn fn).d3 && (s.fn fn).cmd.getLsbD 2 && !(s.fn fn).flr && (fn = 0 || s.pcie.vfEnable)

/-- Bytes of a payload size field (Device Control), at most the 512 supported (R377). -/
def State.maxPayload (s : State) (fn : Nat) : Nat := 128 * 2 ^ min 2 (bitsOf (s.fn fn).devCtl.toNat 7 5)

/-- The TLPs of a write: cut at every multiple of the payload size, of which 4 KiB is one (R390). -/
def tlpPieces (m : Nat) : Nat → Nat → List Byte → List (Nat × List Byte)
  | 0, _, _ => []
  | fuel + 1, a, bs => if bs.isEmpty then [] else (a, bs.take (m - a % m)) :: tlpPieces m fuel (a + (m - a % m)) (bs.drop (m - a % m))

/-- A bitmap write failed: logging stops (R402). -/
def State.logFail (s : State) (fn : Nat) : State :=
  (s.modFn fn fun x => { x with dlog := x.dlog.map fun (d : DirtyLog) => { d with on := false, err := true } }).raise blkPCE 0x90FF
    none fn 2

/-- A write TLP of a function records in its active bitmap, which lies in the memory of instance 0 (R222, R402, R403). -/
def State.logPage (s : State) (fn bus : Nat) : State :=
  match (s.fn fn).dlog with
  | none => s
  | some d =>
    if !d.on then s
    else if bus < d.base ∨ d.base + d.len ≤ bus then
      (s.modFn fn fun x => { x with dlog := some { d with outside := true } }).raise blkPCE 0x90FF none fn 1
    else
      let p := (bus - d.base) / 4096
      match s.translate 0 ((if d.active = 0 then d.bmap0 else d.bmap1) + p / 8) true with
      | .error _ => s.logFail fn
      | .ok x =>
        if hbmSize ≤ x ∨ s.rangeBad x 1 then s.logFail fn
        else
          ((s.store x [s.readByte x ||| BitVec.ofNat 8 (2 ^ (p % 8))]).1.charge 0 2 32).modFn fn fun y =>
            { y with dlog := some { d with count := d.count + 1 } }

/-- A function writes bytes at a bus address: one memory write for each TLP (R390), each recorded (R402). -/
def State.masterWrite (s : State) (fn bus : Nat) (bs : List Byte) : State :=
  (tlpPieces (s.maxPayload fn) (bs.length + 1) bus bs).foldl
    (fun s e => (s.logPage fn e.1).emit (.memWrite fn e.1 e.2)) s

/-- Writes the parts of an access, in order. -/
def State.masterParts (s : State) : List (Nat × Nat × Nat) → List Byte → State
  | [], _ => s
  | (fn, bus, n) :: t, bs => State.masterParts (s.masterWrite fn bus (bs.take n)) t (bs.drop n)

/-- The parts of an access whose functions may all issue it. -/
def State.mastered (s : State) (a n : Nat) (write : Bool) : Option (List (Nat × Nat × Nat)) :=
  match s.hostParts a n write with
  | some ps => if ps.all fun p => s.mayMaster p.1 then some ps else none
  | none => none

/-- The read requests of a range: cut at every multiple of the read size, of which 4 KiB is one (R390). -/
def readTlps (m : Nat) : Nat → Nat → Nat → List (Nat × Nat)
  | 0, _, _ => []
  | fuel + 1, a, n => if n = 0 then [] else (a, min n (m - a % m)) :: readTlps m fuel (a + min n (m - a % m)) (n - min n (m - a % m))

/-- Max_Read_Request_Size of a function in bytes; the two reserved codes read as 4 KiB. -/
def State.maxRead (s : State) (fn : Nat) : Nat := 128 * 2 ^ min 5 (bitsOf (s.fn fn).devCtl.toNat 14 12)

/-- Queues the reads of an access by its parts, for the work of an instance and generation; `dest` takes the offset in the
access. Answers how many requests wait (R390, R394). -/
def State.queueReads (s : State) (i : Nat) (g : BitVec 16) (dest : Nat → ReadDest) :
    List (Nat × Nat × Nat) → Nat → State × Nat
  | [], _ => (s, 0)
  | (fn, bus, n) :: t, off =>
    let ps := readTlps (s.maxRead fn) (n / 128 + 2) bus n
    let rs : List MasterRead := ps.map fun (a, k) =>
      { tag := 0, addr := a, len := k, got := 0, inst := i, gen := g, sent := 0, dest := dest (off + (a - bus)) }
    let (s', m) := State.queueReads (s.modFn fn fun x => { x with waiting := x.waiting ++ rs }) i g dest t (off + n)
    (s', rs.length + m)

/-- Reads a device range for an engine. The attached host's bytes come from outside (log entry 9). A facet compares the owner
before anything else (R73), then every bank of the range must be On (R115). -/
def State.load (s : State) (who : Option (Nat × BitVec 16)) (a n : Nat) : Except AccErr (List Byte) :=
  match regionOf a with
  | .none => .error (.trans 5)
  | .host =>
    match s.mastered a n false with
    | some _ => .ok ((List.range n).map fun j => Config.hostByte s.now s.emitted.length (a + j))
    | none => .error (.trans 6)
  | .spad f off =>
    if !(s.facet f).takes who then .error .lost
    else if !(s.facet f).banksOn off n then .error (.trans 7)
    else if s.rangeBad a n then .error .uncorr else .ok (s.readBytes a n)
  | .sram k off =>
    if s.cacheMeets k off n then .error (.trans 5)
    else if s.rangeBad a n then .error .uncorr else .ok (s.readBytes a n)
  | .hbm => if s.rangeBad a n then .error .uncorr else .ok (s.readBytes a n)

/-- The flits of 128 bytes that a facet discards of an access of `n` bytes are counted (R73, R117). -/
def State.discardBytes (s : State) (f n : Nat) : State :=
  s.modFacet f fun x => { x with discard := min 0xFFFFFFFF (x.discard + (n + 127) / 128) }

/-- Writes a device range for an engine: a write to the attached host leaves as a memory write (R387, R390); one that
a facet does not accept is discarded and counted (R73); one that meets an uncorrectable unit in part is refused (R108, R168). -/
def State.saveAt (s : State) (who : Option (Nat × BitVec 16)) (a : Nat) (bs : List Byte) : Except AccErr State :=
  match regionOf a with
  | .none => .error (.trans 5)
  | .host =>
    match s.mastered a bs.length true with
    | some ps => .ok (s.masterParts ps bs)
    | none => .error (.trans 6)
  | .spad f off =>
    if !(s.facet f).takes who then .ok (s.discardBytes f bs.length)
    else if !(s.facet f).banksOn off bs.length then .error (.trans 7)
    else
      let (s', ok) := (s.bankAccess f 6 true off bs.length).store a bs
      if ok then .ok s' else .error .uncorr
  | .hbm =>
    if decide ((s.stack (s.stackOf a)).state = .failed) || s.dieFailed (dieOfStack (s.stackOf a)) then .error .uncorr
    else
      let (s', ok) := s.store a bs
      if ok then .ok s' else .error .uncorr
  | .sram k off =>
    if s.cacheMeets k off bs.length then .error (.trans 5)
    else
      let (s', ok) := s.store a bs
      if ok then .ok s' else .error .uncorr

/-- Reads a list of device ranges. -/
def State.loadAll (s : State) (who : Option (Nat × BitVec 16)) : List (Nat × Nat) → Except AccErr (List Byte)
  | [] => .ok []
  | (a, n) :: t =>
    match s.load who a n with
    | .error e => .error e
    | .ok bs => match State.loadAll s who t with
      | .error e => .error e
      | .ok cs => .ok (bs ++ cs)

/-- Writes bytes over a list of device ranges. -/
def State.saveAll (s : State) (who : Option (Nat × BitVec 16)) : List (Nat × Nat) → List Byte → Except AccErr State
  | [], _ => .ok s
  | (a, n) :: t, bs =>
    match s.saveAt who a (bs.take n) with
    | .error e => .error e
    | .ok s' => State.saveAll s' who t (bs.drop n)

/-- The bytes of device ranges that lie in HBM, in whole 32-byte units, for the accounts of R222. -/
def hbmBytes (rs : List (Nat × Nat)) : Nat :=
  (rs.map fun r => if r.1 < hbmSize then ((r.1 + r.2 + 31) / 32 - r.1 / 32) * 32 else 0).sum

/-- An instance address maps into the attached-host range. -/
def State.mapsHost (s : State) (i a : Nat) : Bool :=
  bitAt (s.mapEntry i (a / granule)) 63 && decide (hostBase ≤ bitsOf (s.mapEntry i (a / granule)) 47 21 * granule)

/-- An ADDRESS event (R33) of the requesting block; one into the attached-host range is a master access refused
(PCE_STAT7). -/
def State.addressEvent (s : State) (blk i a obj : Nat) : State :=
  let s : State := if s.mapsHost i a then { s with pcie := { s.pcie with stats := s.pcie.stats.bump 7 } } else s
  s.raise blk 0x0002 (some i) a obj

/-- The scratchpads of device ranges count the words that an access touches: by master 6 a write, by master 7 a read (R78). -/
def State.spadTouch (s : State) (m : Nat) (rs : List (Nat × Nat)) : State :=
  rs.foldl (fun s r => match regionOf r.1 with
    | .spad f off => s.bankAccess f m (m = 6) off r.2
    | _ => s) s

/-- The scratchpads of device ranges discard and count the accesses of another owner's work (R73). -/
def State.discardReads (s : State) (who : Option (Nat × BitVec 16)) (rs : List (Nat × Nat)) : State :=
  rs.foldl (fun s r => match regionOf r.1 with
    | .spad f _ => if (s.facet f).takes who then s else s.discardBytes f 1
    | _ => s) s

/-- An engine reads an instance's memory (R35, R222). -/
def State.readInst (s : State) (i a n : Nat) : Except AccErr (List Byte) :=
  match s.rangesOf i a n false with
  | .error e => .error (.trans e)
  | .ok rs => s.loadAll (some (i, s.genOf i)) rs

/-- An engine writes an instance's memory (R35); translation of the whole precedes any write (R205). -/
def State.writeInst (s : State) (i a : Nat) (bs : List Byte) : Except AccErr State :=
  match s.rangesOf i a bs.length true with
  | .error e => .error (.trans e)
  | .ok rs => match s.saveAll (some (i, s.genOf i)) rs bs with
    | .error e => .error e
    | .ok s' => .ok (s'.charge i 2 (hbmBytes rs))

/-- The addresses of the armed corrected errors in a device range (R475). -/
def State.armedIn (s : State) (a n : Nat) : List Nat :=
  (s.faults.inject.filter fun e => decide (e.1 < a + n ∧ a < e.1 + unitOf e.1)).map (·.1)

/-- Armed errors are gone. -/
def State.disarm (s : State) (l : List Nat) : State :=
  { s with faults := { s.faults with inject := s.faults.inject.filter fun e => !l.contains e.1 } }

/-- A read of a facet's scratchpad meets the corrected errors armed in its units: each is counted by TBL_ECC (R108), and is gone. -/
def State.metSpad (s : State) (f off n : Nat) : State :=
  match s.armedIn (spadAddr f off) n with
  | [] => s
  | l => (s.disarm l).modFacet f fun x => { x with eccCorr := min 0xFFFFFFFF (x.eccCorr + l.length) }

/-- A read of a device range meets the corrected errors that are armed in its units (R475): each is counted, by MEM_ECC (R167) or
TBL_ECC (R108), and is gone. -/
def State.met (s : State) (a n : Nat) : State :=
  match regionOf a with
  | .spad f off => s.metSpad f off n
  | _ =>
    (s.armedIn a n).foldl (fun s e => s.modMemDie (dieOfStack (s.stackOf e)) fun d => { d with corr := min 0xFFFFFFFF (d.corr + 1) })
      (s.disarm (s.armedIn a n))

/-- The account of an engine's read of an instance's memory (R222), with the armed errors and the banks it met. -/
def State.chargeRead (s : State) (i a n : Nat) : State :=
  match s.rangesOf i a n false with
  | .ok rs => ((rs.foldl (fun s r => s.met r.1 r.2) s).spadTouch 7 rs).charge i 1 (hbmBytes rs)
  | .error _ => s

/-! ## Uncorrectable units that an engine meets (R108, R167, R168) -/

/-- Counts the uncorrectable units of a scratchpad that an access met, one by one, and records the last of them (R108). -/
def State.countBad (s : State) (f off n : Nat) : State :=
  (s.badUnits (spadAddr f off) n).foldl (fun s u =>
    let o := u - spadAddr f 0
    s.modFacet f fun x =>
      { x with eccUnc := min 0xFF (x.eccUnc + 1), eccBank := o / 0x1_0000 % 16, eccWord := o / 128 % 512 }) s

/-- A device range met uncorrectable data: units of HBM are logged with the requester's class (R167), units of a scratchpad
count in TBL_ECC (R108). -/
def State.metBad (s : State) (cls a n : Nat) : State :=
  match regionOf a with
  | .spad f off => (s.bankAccess f 7 false off n).countBad f off n
  | _ => s.ueLogRange cls a n

/-- An engine reads an instance's memory, with everything the read does: its account (R222), the log of what it met (R167, R108),
or the count of what a facet discards (R73). -/
def State.readBy (s : State) (cls i a n : Nat) : State × Except AccErr (List Byte) :=
  match s.readInst i a n with
  | .ok bs => (s.chargeRead i a n, .ok bs)
  | .error .uncorr => (match s.rangesOf i a n false with
      | .ok rs => rs.foldl (fun s r => s.metBad cls r.1 r.2) s
      | .error _ => s, .error .uncorr)
  | .error .lost => (match s.rangesOf i a n false with
      | .ok rs => s.discardReads (some (i, s.genOf i)) rs
      | .error _ => s, .error .lost)
  | .error e => (s, .error e)

/-- Performs a write as far as its units allow, and logs those that it could not write (R108, R168). -/
def State.storeMet (s : State) (cls a : Nat) (bs : List Byte) : State :=
  match regionOf a with
  | .spad f off => ((s.bankAccess f 6 true off bs.length).store a bs).1.countBad f off bs.length
  | .hbm =>
    if decide ((s.stack (s.stackOf a)).state = .failed) || s.dieFailed (dieOfStack (s.stackOf a)) then s
    else (s.store a bs).1.ueLogRange cls a bs.length
  | _ => (s.store a bs).1

/-- Writes device ranges as far as they can be written: a unit that is uncorrectable and only partly covered is logged and not
written, and the others are (R168). -/
def State.saveSome (s : State) (who : Option (Nat × BitVec 16)) (cls : Nat) : List (Nat × Nat) → List Byte → State
  | [], _ => s
  | (a, n) :: t, bs =>
    let s := match s.saveAt who a (bs.take n) with
      | .ok s' => s'
      | .error .uncorr => s.storeMet cls a (bs.take n)
      | .error _ => s
    State.saveSome s who cls t (bs.drop n)

/-- An engine writes an instance's memory, with everything the write does, and whether it succeeded. -/
def State.writeBy (s : State) (cls i a : Nat) (bs : List Byte) : State × Except AccErr Unit :=
  match s.writeInst i a bs with
  | .ok s' => (s', .ok ())
  | .error .uncorr => (match s.rangesOf i a bs.length true with
      | .ok rs => s.saveSome (some (i, s.genOf i)) cls rs bs
      | .error _ => s, .error .uncorr)
  | .error e => (s, .error e)

/-! ## Rings in instance memory (R154) -/

/-- How a ring took a record. -/
inductive RingPut where
  | ok (s : State) (prod : Nat)
  | full
  | bad (s : State)
  deriving DecidableEq, Repr

/-- Bytes a ring can take: PROD equal to CONS means empty, so a producer never fills it wholly. -/
def ringRoom (prod cons len : Nat) : Nat := if prod < cons then cons - prod else len - (prod - cons)

/-- Writes one record, padded to a multiple of `m`, at PROD, with `pad` before a return to offset 0 when the record does
not fit before the end of the area, then advances PROD (R154, R301). -/
def State.ringPut (s : State) (cls i ring len prod m : Nat) (rec pad : List Byte) : RingPut :=
  match s.readBy cls i (ring + 8) 8 with
  | (s, .error _) => .bad s
  | (s, .ok cb) =>
    let cons := leNat cb
    if cons % m ≠ 0 ∨ len ≤ cons then .bad s else
    let rec' := padMul m rec
    let n := rec'.length
    let wrap : Bool := decide (len < prod + n)
    let need := if wrap then (len - prod) + n else n
    if ringRoom prod cons len ≤ need then .full else
    let at_ := if wrap then 0 else prod
    match (if wrap then s.writeBy cls i (ring + 64 + prod) (pad.take (len - prod)) else (s, .ok ())) with
    | (s, .error _) => .bad s
    | (s, .ok _) => match s.writeBy cls i (ring + 64 + at_) rec' with
      | (s, .error _) => .bad s
      | (s, .ok _) =>
        let prod' := (at_ + n) % len
        match s.writeBy cls i ring (leBytes 8 prod') with
        | (s, .error _) => .bad s
        | (s, .ok _) => .ok s prod'

/-- Writes PROD and CONS of a ring as zero; false when the ring takes no write. -/
def State.ringReset (s : State) (cls i ring : Nat) : State × Bool :=
  match s.writeBy cls i ring (zeros 16) with
  | (s, .ok _) => (s, true)
  | (s, .error _) => (s, false)

end Sys2Proof.Machine
end

