-- ==== Sys2Proof/Machine/Crypto.lean ====
section
/-! DEFINITION. The published algorithms the spec names (R406, R444): SHA-256 (FIPS 180-4), HMAC and the SP 800-108
counter-mode KDF, AES (FIPS 197), GCM (SP 800-38D), XTS (IEEE 1619), key wrap (SP 800-38F), and LMS, LM-OTS and HSS
(RFC 8554). Their internals are those documents' (log entry 10). -/

namespace Sys2Proof.Machine

/-! ## SHA-256 -/

/-- A 32-bit word rotated right. -/
def rotr (x : BitVec 32) (n : Nat) : BitVec 32 := x.rotateRight n

/-- The round constants. -/
def shaK : List (BitVec 32) :=
  [0x428a2f98, 0x71374491, 0xb5c0fbcf, 0xe9b5dba5, 0x3956c25b, 0x59f111f1, 0x923f82a4, 0xab1c5ed5] ++
  [0xd807aa98, 0x12835b01, 0x243185be, 0x550c7dc3, 0x72be5d74, 0x80deb1fe, 0x9bdc06a7, 0xc19bf174] ++
  [0xe49b69c1, 0xefbe4786, 0x0fc19dc6, 0x240ca1cc, 0x2de92c6f, 0x4a7484aa, 0x5cb0a9dc, 0x76f988da] ++
  [0x983e5152, 0xa831c66d, 0xb00327c8, 0xbf597fc7, 0xc6e00bf3, 0xd5a79147, 0x06ca6351, 0x14292967] ++
  [0x27b70a85, 0x2e1b2138, 0x4d2c6dfc, 0x53380d13, 0x650a7354, 0x766a0abb, 0x81c2c92e, 0x92722c85] ++
  [0xa2bfe8a1, 0xa81a664b, 0xc24b8b70, 0xc76c51a3, 0xd192e819, 0xd6990624, 0xf40e3585, 0x106aa070] ++
  [0x19a4c116, 0x1e376c08, 0x2748774c, 0x34b0bcb5, 0x391c0cb3, 0x4ed8aa4a, 0x5b9cca4f, 0x682e6ff3] ++
  [0x748f82ee, 0x78a5636f, 0x84c87814, 0x8cc70208, 0x90befffa, 0xa4506ceb, 0xbef9a3f7, 0xc67178f2]

/-- The hash state. -/
structure ShaState where
  a : BitVec 32
  b : BitVec 32
  c : BitVec 32
  d : BitVec 32
  e : BitVec 32
  f : BitVec 32
  g : BitVec 32
  h : BitVec 32
  deriving DecidableEq, Repr

/-- The initial hash value. -/
def shaInit : ShaState :=
  { a := 0x6a09e667, b := 0xbb67ae85, c := 0x3c6ef372, d := 0xa54ff53a, e := 0x510e527f, f := 0x9b05688c, g := 0x1f83d9ab,
    h := 0x5be0cd19 }

/-- Extends the message schedule, kept newest first. -/
def shaSchedule : Nat → List (BitVec 32) → List (BitVec 32)
  | 0, w => w
  | n + 1, w =>
    let x := w.getD 1 0
    let y := w.getD 14 0
    let s1 := rotr x 17 ^^^ rotr x 19 ^^^ (x >>> 10)
    let s0 := rotr y 7 ^^^ rotr y 18 ^^^ (y >>> 3)
    shaSchedule n ((s1 + w.getD 6 0 + s0 + w.getD 15 0) :: w)

/-- One round. -/
def shaRound (s : ShaState) (kw : BitVec 32 × BitVec 32) : ShaState :=
  let s1 := rotr s.e 6 ^^^ rotr s.e 11 ^^^ rotr s.e 25
  let ch := (s.e &&& s.f) ^^^ (~~~s.e &&& s.g)
  let t1 := s.h + s1 + ch + kw.1 + kw.2
  let s0 := rotr s.a 2 ^^^ rotr s.a 13 ^^^ rotr s.a 22
  let maj := (s.a &&& s.b) ^^^ (s.a &&& s.c) ^^^ (s.b &&& s.c)
  { a := t1 + s0 + maj, b := s.a, c := s.b, d := s.c, e := s.d + t1, f := s.e, g := s.f, h := s.g }

/-- One block of 64 bytes. -/
def shaBlock (s : ShaState) (bs : List Byte) : ShaState :=
  let w0 := ((List.range 16).map fun i => BitVec.ofNat 32 (beNat (slice bs (4 * i) 4))).reverse
  let w := (shaSchedule 48 w0).reverse
  let t := (shaK.zip w).foldl shaRound s
  { a := s.a + t.a, b := s.b + t.b, c := s.c + t.c, d := s.d + t.d, e := s.e + t.e, f := s.f + t.f, g := s.g + t.g, h := s.h + t.h }

/-- Blocks of a padded message. -/
def shaBlocks : Nat → ShaState → List Byte → ShaState
  | 0, s, _ => s
  | n + 1, s, bs => shaBlocks n (shaBlock s (bs.take 64)) (bs.drop 64)

/-- SHA-256. -/
def sha256 (m : List Byte) : List Byte :=
  let padded := m ++ [0x80] ++ zeros ((55 + 64 * ((m.length + 8) / 64 + 1) - m.length) % 64) ++ beBytes 8 (8 * m.length)
  let s := shaBlocks (padded.length / 64) shaInit padded
  [s.a, s.b, s.c, s.d, s.e, s.f, s.g, s.h].flatMap fun x => beBytes 4 x.toNat

/-- HMAC-SHA-256 with a key of at most 64 bytes. -/
def hmac (key m : List Byte) : List Byte :=
  let k := padTo 64 key
  sha256 ((k.map (· ^^^ 0x5C)) ++ sha256 ((k.map (· ^^^ 0x36)) ++ m))

/-- The SP 800-108 counter-mode KDF with one block: up to 32 bytes for a label and a context (R444). -/
def kdf (key label context : List Byte) (bytes : Nat) : List Byte :=
  (hmac key (beBytes 4 1 ++ label ++ [0] ++ context ++ beBytes 4 (8 * bytes))).take bytes

/-! ## AES -/

/-- Multiplication by x in GF(2^8). -/
def xtime (b : Byte) : Byte := (b <<< 1) ^^^ if b.getLsbD 7 then 0x1B else 0

/-- Multiplication in GF(2^8), over the bits of the second factor from bit n - 1 down. -/
def gmulGo (a b : Byte) : Nat → Byte
  | 0 => 0
  | n + 1 => if b.getLsbD (7 - n) then (Nat.repeat xtime (7 - n) a) ^^^ gmulGo a b n else gmulGo a b n

/-- Multiplication in GF(2^8). -/
def gmul (a b : Byte) : Byte := gmulGo a b 8

/-- The inverse in GF(2^8), as the power 254; 0 for 0. -/
def ginv (a : Byte) : Byte :=
  [true, true, true, true, true, true, true, false].foldl (fun r t => let q := gmul r r; if t then gmul q a else q) 1

/-- The S-box. -/
def sbox (b : Byte) : Byte :=
  let x := ginv b
  x ^^^ x.rotateLeft 1 ^^^ x.rotateLeft 2 ^^^ x.rotateLeft 3 ^^^ x.rotateLeft 4 ^^^ 0x63

/-- The inverse S-box. -/
def invSbox (b : Byte) : Byte :=
  ginv (b.rotateLeft 1 ^^^ b.rotateLeft 3 ^^^ b.rotateLeft 6 ^^^ 0x05)

/-- Bytes xored position by position. -/
def xorBytes (a b : List Byte) : List Byte := List.zipWith (· ^^^ ·) a b

/-- Extends the key schedule, kept newest word first; `i` numbers the next word. -/
def expandKey (nk : Nat) : Nat → Nat → Byte → List (List Byte) → List (List Byte)
  | 0, _, _, w => w
  | n + 1, i, rcon, w =>
    let t := w.getD 0 []
    let (t, rcon) :=
      if i % nk = 0 then
        let r := (t.drop 1 ++ t.take 1).map sbox
        (xorBytes r [rcon, 0, 0, 0], xtime rcon)
      else if 6 < nk ∧ i % nk = 4 then (t.map sbox, rcon)
      else (t, rcon)
    expandKey nk n (i + 1) rcon (xorBytes (w.getD (nk - 1) []) t :: w)

/-- The round keys, each of 16 bytes, first to last. -/
def roundKeys (key : List Byte) : List (List Byte) :=
  let nk := key.length / 4
  let w0 := ((List.range nk).map fun i => slice key (4 * i) 4).reverse
  let ws := (expandKey nk (4 * (nk + 7) - nk) nk 1 w0).reverse
  (List.range (nk + 7)).map fun r => (ws.drop (4 * r)).take 4 |>.flatten

/-- ShiftRows by a step of 1 (encryption) or 3 (decryption) columns per row. -/
def shiftRows (step : Nat) (s : List Byte) : List Byte :=
  (List.range 16).map fun i => s.getD (4 * ((i / 4 + step * (i % 4)) % 4) + i % 4) 0

/-- MixColumns with the first row of its matrix. -/
def mixColumns (m : List Byte) (s : List Byte) : List Byte :=
  (List.range 16).map fun i =>
    let c := i / 4
    let r := i % 4
    (List.range 4).foldl (fun x j => x ^^^ gmul (s.getD (4 * c + j) 0) (m.getD ((j + 4 - r) % 4) 0)) 0

/-- One AES block encrypted under round keys. -/
def aesEnc (ks : List (List Byte)) (b : List Byte) : List Byte :=
  match ks with
  | [] => b
  | k0 :: rest =>
    (rest.zipIdx.foldl (fun s (k, i) =>
      let t := shiftRows 1 (s.map sbox)
      xorBytes (if i + 1 = rest.length then t else mixColumns [2, 3, 1, 1] t) k) (xorBytes b k0))

/-- One AES block decrypted under round keys. -/
def aesDec (ks : List (List Byte)) (b : List Byte) : List Byte :=
  match ks.reverse with
  | [] => b
  | k0 :: rest =>
    (rest.zipIdx.foldl (fun s (k, i) =>
      let t := xorBytes ((shiftRows 3 s).map invSbox) k
      if i + 1 = rest.length then t else mixColumns [14, 11, 13, 9] t) (xorBytes b k0))

/-! ## GCM -/

/-- Sixteen bytes as a block of 128 bits, first byte most significant. -/
def blockOf (bs : List Byte) : BitVec 128 := BitVec.ofNat 128 (beNat (padTo 16 bs))
/-- The bytes of a block. -/
def blockBytes (x : BitVec 128) : List Byte := beBytes 16 x.toNat

/-- Multiplication of SP 800-38D. -/
def gfMul (x y : BitVec 128) : BitVec 128 :=
  ((List.range 128).foldl (fun (zv : BitVec 128 × BitVec 128) i =>
    (if x.getLsbD (127 - i) then zv.1 ^^^ zv.2 else zv.1,
     if zv.2.getLsbD 0 then (zv.2 >>> 1) ^^^ (BitVec.ofNat 128 (0xE1 * 2 ^ 120)) else zv.2 >>> 1)) (0, y)).1

/-- GHASH over data, zero-padded to whole blocks. -/
def ghash (h : BitVec 128) : Nat → BitVec 128 → List Byte → BitVec 128
  | 0, y, _ => y
  | n + 1, y, bs => if bs.isEmpty then y else ghash h n (gfMul (y ^^^ blockOf (bs.take 16)) h) (bs.drop 16)

/-- GHASH of data with enough blocks. -/
def ghashAll (h y : BitVec 128) (bs : List Byte) : BitVec 128 := ghash h (bs.length / 16 + 1) y bs

/-- The hash key. -/
def gcmH (ks : List (List Byte)) : BitVec 128 := blockOf (aesEnc ks (zeros 16))

/-- Counter-mode of GCM from a counter value. -/
def gcmCtr (ks : List (List Byte)) (iv : List Byte) : Nat → Nat → List Byte → List Byte
  | 0, _, _ => []
  | n + 1, c, bs =>
    if bs.isEmpty then []
    else xorBytes (bs.take 16) (aesEnc ks (iv ++ beBytes 4 c)) ++ gcmCtr ks iv n (c + 1) (bs.drop 16)

/-- The tag, from the accumulator after additional data and ciphertext. -/
def gcmTag (ks : List (List Byte)) (iv : List Byte) (y : BitVec 128) (aadLen len : Nat) : List Byte :=
  let y := gfMul (y ^^^ blockOf (beBytes 8 (8 * aadLen) ++ beBytes 8 (8 * len))) (gcmH ks)
  xorBytes (blockBytes y) (aesEnc ks (iv ++ beBytes 4 1))

/-- Seals a message: ciphertext and tag. -/
def gcmSeal (key iv aad pt : List Byte) : List Byte × List Byte :=
  let ks := roundKeys key
  let ct := gcmCtr ks iv (pt.length / 16 + 1) 2 pt
  (ct, gcmTag ks iv (ghashAll (gcmH ks) (ghashAll (gcmH ks) 0 aad) ct) aad.length ct.length)

/-- Opens a message, or none when the tag fails. -/
def gcmOpen (key iv aad ct tag : List Byte) : Option (List Byte) :=
  let ks := roundKeys key
  if gcmTag ks iv (ghashAll (gcmH ks) (ghashAll (gcmH ks) 0 aad) ct) aad.length ct.length = tag then
    some (gcmCtr ks iv (ct.length / 16 + 1) 2 ct)
  else none

/-! ## XTS -/

/-- Multiplication of a tweak by alpha (IEEE 1619). -/
def xtsNext (t : List Byte) : List Byte :=
  let v := leNat t
  leBytes 16 (2 * v % 2 ^ 128 ^^^ if v / 2 ^ 127 = 1 then 0x87 else 0)

/-- One block under a tweak. -/
def xtsBlock (f : List Byte → List Byte) (t b : List Byte) : List Byte := xorBytes (f (xorBytes b t)) t

/-- Whole blocks and, with ciphertext stealing, the last partial one. `dec` swaps the last two tweaks. -/
def xtsGo (f : List Byte → List Byte) (dec : Bool) : Nat → List Byte → List Byte → List Byte
  | 0, _, _ => []
  | n + 1, t, bs =>
    if bs.length < 32 ∧ 16 < bs.length then
      let t' := xtsNext t
      let first := xtsBlock f (if dec then t' else t) (bs.take 16)
      let rest := bs.drop 16
      let second := xtsBlock f (if dec then t else t') (rest ++ first.drop rest.length)
      second ++ first.take rest.length
    else if bs.isEmpty then []
    else xtsBlock f t (bs.take 16) ++ xtsGo f dec n (xtsNext t) (bs.drop 16)

/-- One data unit of AES-256-XTS with its 128-bit number. -/
def xts (dec : Bool) (key : List Byte) (unit : Nat) (bs : List Byte) : List Byte :=
  let k1 := roundKeys (key.take 32)
  let k2 := roundKeys (key.drop 32)
  xtsGo (if dec then aesDec k1 else aesEnc k1) dec (bs.length / 16 + 1) (aesEnc k2 (leBytes 16 unit)) bs

/-- Data units one after another, with rising numbers. -/
def xtsUnits (dec : Bool) (key : List Byte) (du : Nat) : Nat → Nat → List Byte → List Byte
  | 0, _, _ => []
  | n + 1, u, bs => if bs.isEmpty then [] else xts dec key u (bs.take du) ++ xtsUnits dec key du n (u + 1) (bs.drop du)

/-! ## Key wrap (KW) -/

/-- Six passes of the wrapping function: A and the semiblocks. -/
def kwSteps (ks : List (List Byte)) : Nat → Nat → List Byte → List (List Byte) → List Byte × List (List Byte)
  | 0, _, a, r => (a, r)
  | n + 1, t, a, r =>
    let b := aesEnc ks (a ++ r.headD [])
    kwSteps ks n (t + 1) (xorBytes (b.take 8) (beBytes 8 t)) (r.drop 1 ++ [b.drop 8])

/-- Semiblocks of eight bytes. -/
def semis : Nat → List Byte → List (List Byte)
  | 0, _ => []
  | n + 1, bs => bs.take 8 :: semis n (bs.drop 8)

/-- Wraps a multiple of 8 bytes. -/
def kwWrap (key p : List Byte) : List Byte :=
  let n := p.length / 8
  let (a, r) := kwSteps (roundKeys key) (6 * n) 1 (List.replicate 8 0xA6) (semis n p)
  a ++ r.flatten

/-- The inverse steps, from the last down. -/
def kwUnsteps (ks : List (List Byte)) : Nat → List Byte → List (List Byte) → List Byte × List (List Byte)
  | 0, a, r => (a, r)
  | n + 1, a, r =>
    let b := aesDec ks (xorBytes a (beBytes 8 (n + 1)) ++ r.getLastD [])
    kwUnsteps ks n (b.take 8) (b.drop 8 :: r.dropLast)

/-- Unwraps, or none when the integrity value fails. -/
def kwUnwrap (key c : List Byte) : Option (List Byte) :=
  let n := c.length / 8 - 1
  let (a, r) := kwUnsteps (roundKeys key) (6 * n) (c.take 8) (semis n (c.drop 8))
  if a = List.replicate 8 0xA6 then some r.flatten else none

/-! ## LM-OTS, LMS and HSS (RFC 8554) -/

/-- w, p and ls of an LM-OTS type. -/
def otsParams (t : Nat) : Option (Nat × Nat × Nat) :=
  match t with | 1 => some (1, 265, 7) | 2 => some (2, 133, 6) | 3 => some (4, 67, 4) | 4 => some (8, 34, 0) | _ => none

/-- Height of an LMS type. -/
def lmsHeight (t : Nat) : Option Nat :=
  match t with | 5 => some 5 | 6 => some 10 | 7 => some 15 | 8 => some 20 | 9 => some 25 | _ => none

/-- coef(S, i, w). -/
def coef (s : List Byte) (i w : Nat) : Nat :=
  (s.getD (i * w / 8) 0).toNat / 2 ^ (8 - (w * (i % (8 / w)) + w)) % 2 ^ w

/-- Hash chain from step j on. -/
def otsChain (id : List Byte) (q i : Nat) : Nat → Nat → List Byte → List Byte
  | 0, _, t => t
  | n + 1, j, t => otsChain id q i n (j + 1) (sha256 (id ++ beBytes 4 q ++ beBytes 2 i ++ beBytes 1 j ++ t))

/-- The digest with its checksum. -/
def otsDigits (id : List Byte) (q w ls : Nat) (c msg : List Byte) : List Byte :=
  let d := sha256 (id ++ beBytes 4 q ++ [0x81, 0x81] ++ c ++ msg)
  let sum := ((List.range (256 / w)).map fun i => 2 ^ w - 1 - coef d i w).sum
  d ++ beBytes 2 (sum * 2 ^ ls)

/-- The public key candidate of an LM-OTS signature. -/
def otsCandidate (id : List Byte) (q t : Nat) (msg sig : List Byte) : Option (List Byte) :=
  match otsParams t with
  | none => none
  | some (w, p, ls) =>
    let d := otsDigits id q w ls (slice sig 4 32) msg
    let zs := (List.range p).flatMap fun i =>
      let a := coef d i w
      otsChain id q i (2 ^ w - 1 - a) a (slice sig (36 + 32 * i) 32)
    some (sha256 (id ++ beBytes 4 q ++ [0x80, 0x80] ++ zs))

/-- Climbs the tree from a node. -/
def lmsClimb (id : List Byte) : Nat → Nat → List Byte → List Byte → List Byte
  | 0, _, t, _ => t
  | n + 1, node, t, path =>
    let sib := path.take 32
    let pair := if node % 2 = 1 then sib ++ t else t ++ sib
    lmsClimb id n (node / 2) (sha256 (id ++ beBytes 4 (node / 2) ++ [0x83, 0x83] ++ pair)) (path.drop 32)

/-- The length of an LMS signature, from its first bytes and the public key's types. -/
def lmsSigLen (lt ot : Nat) : Option Nat :=
  match lmsHeight lt, otsParams ot with
  | some h, some (_, p, _) => some (12 + 32 + 32 * p + 32 * h)
  | _, _ => none

/-- Verifies an LMS signature under a 56-byte public key. -/
def lmsVerify (pub msg sig : List Byte) : Bool :=
  let lt := beNat (slice pub 0 4)
  let ot := beNat (slice pub 4 4)
  let id := slice pub 8 16
  match lmsHeight lt, otsParams ot, lmsSigLen lt ot with
  | some h, some (_, p, _), some n =>
    let q := beNat (slice sig 0 4)
    let osig := slice sig 4 (36 + 32 * p)
    if sig.length ≠ n ∨ beNat (slice sig 4 4) ≠ ot ∨ beNat (slice sig (40 + 32 * p) 4) ≠ lt ∨ 2 ^ h ≤ q then false
    else
      match otsCandidate id q ot msg osig with
      | none => false
      | some k =>
        let leaf := sha256 (id ++ beBytes 4 (2 ^ h + q) ++ [0x82, 0x82] ++ k)
        lmsClimb id h (2 ^ h + q) leaf (sig.drop (44 + 32 * p)) = slice pub 24 32
  | _, _, _ => false

/-- The types of a public key are those of R406. -/
def lmsTypesOk (pub : List Byte) : Bool :=
  (lmsHeight (beNat (slice pub 0 4))).isSome && (otsParams (beNat (slice pub 4 4))).isSome

/-- Follows an HSS signature down its levels: some false when it fails, none when a type is not supported. -/
def hssGo : Nat → List Byte → List Byte → List Byte → Option Bool
  | 0, pub, msg, sig => if lmsTypesOk pub then some (lmsVerify pub msg sig) else none
  | n + 1, pub, msg, sig =>
    match lmsSigLen (beNat (slice pub 0 4)) (beNat (slice pub 4 4)) with
    | none => none
    | some k =>
      let s := sig.take k
      let next := slice sig k 56
      if lmsTypesOk next then
        if lmsVerify pub next s then hssGo n next msg (sig.drop (k + 56)) else some false
      else none

/-- HSS verification under a 60-byte public key (R406): none when the level count or a type is not supported. -/
def hssVerify (pub msg sig : List Byte) : Option Bool :=
  let levels := beNat (slice pub 0 4)
  if levels = 0 ∨ 8 < levels then none
  else if !lmsTypesOk (pub.drop 4) then none
  else if beNat (slice sig 0 4) + 1 ≠ levels then some false
  else hssGo (levels - 1) (pub.drop 4) msg (sig.drop 4)

/-- A one-time private key element of RFC 8554 Appendix A. -/
def otsPrivate (seed id : List Byte) (q i : Nat) : List Byte :=
  sha256 (id ++ beBytes 4 q ++ beBytes 2 i ++ [0xFF] ++ seed)

/-- The one-time public key of a leaf of type W8. -/
def otsPublic (seed id : List Byte) (q : Nat) : List Byte :=
  sha256 (id ++ beBytes 4 q ++ [0x80, 0x80] ++ (List.range 34).flatMap fun i => otsChain id q i 255 0 (otsPrivate seed id q i))

/-- A node of the tree of height 20, `n` levels above the leaves. -/
def lmsNode (seed id : List Byte) : Nat → Nat → List Byte
  | 0, r => sha256 (id ++ beBytes 4 r ++ [0x82, 0x82] ++ otsPublic seed id (r - 2 ^ 20))
  | n + 1, r => sha256 (id ++ beBytes 4 r ++ [0x83, 0x83] ++ lmsNode seed id n (2 * r) ++ lmsNode seed id n (2 * r + 1))

/-- The LMS_SHA256_M32_H20 signature of a message by leaf q, of 1,772 bytes (R448). -/
def lmsSign (seed id c : List Byte) (q : Nat) (msg : List Byte) : List Byte :=
  let d := otsDigits id q 8 0 c msg
  beBytes 4 q ++ beBytes 4 4 ++ padTo 32 (c.take 32) ++
  ((List.range 34).flatMap fun i => otsChain id q i (coef d i 8) 0 (otsPrivate seed id q i)) ++
  beBytes 4 8 ++ (List.range 20).flatMap fun l => lmsNode seed id l ((2 ^ 20 + q) / 2 ^ l ^^^ 1)

end Sys2Proof.Machine
end

