-- ==== Sys2Proof/Machine/Float.lean ====
section
/-! DEFINITION. Number formats and arithmetic (spec/03): decoding, rounding once to any format, the exact and the
fixed-tree accumulators, the vector lane operations. A finite value is (-1)^neg m 2^e with a natural m, so every
exact result is exact. Flags are the five bits of FCT_FPFLAGS: 16 invalid, 8 divide by zero, 4 overflow,
2 underflow, 1 inexact. -/

namespace Sys2Proof.Machine

/-- A value of an element: NaN, an infinity, or the finite number (-1)^neg m 2^e, with zero of either sign. -/
inductive FVal where
  | nan
  | inf (neg : Bool)
  | fin (neg : Bool) (m : Nat) (e : Int)
  deriving DecidableEq, Repr

/-- Bits of an element by format code (R54, R79). -/
def fmtBits (fmt : Nat) : Nat :=
  match fmt with
  | 0 => 64 | 1 => 32 | 2 => 16 | 3 => 16 | 4 => 8 | 5 => 8 | 6 => 6 | 7 => 6 | 8 => 4 | 9 => 8 | 10 => 4 | _ => 32

/-- Exponent width, fraction width and bias of a floating-point format (R79). -/
def fmtParams (fmt : Nat) : Nat × Nat × Nat :=
  match fmt with
  | 0 => (11, 52, 1023) | 1 => (8, 23, 127) | 2 => (8, 7, 127) | 3 => (5, 10, 15) | 4 => (4, 3, 7) | 5 => (5, 2, 15)
  | 6 => (3, 2, 3) | 7 => (2, 3, 1) | _ => (2, 1, 1)

/-- The format is an integer format (R79). -/
def fmtInt (fmt : Nat) : Bool := fmt = 9 || fmt = 10 || fmt = 11

/-- The format has infinities (R79). -/
def fmtInf (fmt : Nat) : Bool := fmt = 0 || fmt = 1 || fmt = 2 || fmt = 3 || fmt = 5

/-- The encoding of the largest finite magnitude (R79). -/
def fmtMax (fmt : Nat) : Nat :=
  let (ew, fw, _) := fmtParams fmt
  if fmtInf fmt then (2 ^ ew - 1) * 2 ^ fw - 1
  else if fmt = 4 then 2 ^ (ew + fw) - 2 else 2 ^ (ew + fw) - 1

/-- The canonical NaN (R81); 0 for a format without NaN. -/
def fmtNan (fmt : Nat) : Nat :=
  match fmt with
  | 0 => 0x7FF8_0000_0000_0000 | 1 => 0x7FC0_0000 | 2 => 0x7FC0 | 3 => 0x7E00 | 4 => 0x7F | 5 => 0x7E | _ => 0

/-- The value of an element's bits (R79, R80). -/
def decodeElem (fmt bits : Nat) : FVal :=
  if fmtInt fmt then
    let z := signedOf (fmtBits fmt) (bits % 2 ^ fmtBits fmt)
    .fin (decide (z < 0)) z.natAbs 0
  else
    let (ew, fw, b) := fmtParams fmt
    let f := bits % 2 ^ fw
    let e := bits / 2 ^ fw % 2 ^ ew
    let neg := bitAt bits (ew + fw)
    if e = 0 then .fin neg f (1 - (b : Int) - fw)
    else if e = 2 ^ ew - 1 ∧ fmtInf fmt then if f = 0 then .inf neg else .nan
    else if fmt = 4 ∧ e = 15 ∧ f = 7 then .nan
    else .fin neg (2 ^ fw + f) ((e : Int) - b - fw)

/-- Drops `k` low bits of a magnitude under a rounding mode of R54 (0 nearest even, 1 toward zero, 2 down, 3 up). -/
def roundShift (mode : Nat) (neg : Bool) (m k : Nat) : Nat :=
  let q := m / 2 ^ k
  let r := m % 2 ^ k
  let up : Bool := match mode with
    | 0 => decide (2 ^ k < 2 * r) || (decide (2 * r = 2 ^ k) && decide (q % 2 = 1) && decide (0 < r))
    | 1 => false
    | 2 => neg && decide (0 < r)
    | _ => !neg && decide (0 < r)
  if up then q + 1 else q

/-- m 2^e as a multiple of 2^q, rounded; and whether that is exact. -/
def roundTo (mode : Nat) (neg : Bool) (m : Nat) (e q : Int) : Nat × Bool :=
  if q ≤ e then (m * 2 ^ (e - q).toNat, true)
  else
    let k := (q - e).toNat
    (roundShift mode neg m k, decide (m % 2 ^ k = 0))

/-- Rounds a finite non-zero value once to a floating-point format (R87, R88): bits and flags. -/
def roundFloat (fmt mode : Nat) (sat neg : Bool) (m : Nat) (e : Int) : Nat × Nat :=
  let (ew, fw, b) := fmtParams fmt
  let sign := bit neg * 2 ^ (ew + fw)
  let emin : Int := 1 - (b : Int)
  let top : Int := (Nat.log2 m : Int) + e
  let q : Int := max top emin - fw
  let (r, exact) := roundTo mode neg m e q
  let mag : Nat := ((max top emin - emin).toNat) * 2 ^ fw + r
  if fmtMax fmt < mag then
    let trunc : Bool := mode = 1 || (mode = 2 && !neg) || (mode = 3 && neg)
    if trunc || sat || (!fmtInf fmt && fmt ≠ 4) then (sign + fmtMax fmt, 5)
    else if fmt = 4 then (fmtNan 4, 5)
    else (sign + (2 ^ ew - 1) * 2 ^ fw, 5)
  else
    let tiny : Bool := decide (top < emin) && decide ((roundTo mode neg m e (top - fw)).1 < 2 ^ (emin - (top - fw)).toNat)
    (sign + mag, if exact then 0 else if tiny then 3 else 1)

/-- Rounds a finite value to an integer format (R89). -/
def roundInt (fmt mode : Nat) (sat neg : Bool) (m : Nat) (e : Int) : Nat × Nat :=
  let n := fmtBits fmt
  let (r, exact) := roundTo mode neg m e 0
  let z : Int := if neg then -(r : Int) else r
  let lo : Int := -(2 ^ (n - 1) : Nat)
  let hi : Int := (2 ^ (n - 1) : Nat) - 1
  if z < lo ∨ hi < z then (wrapInt n (if sat then (if neg then lo else hi) else z), 16)
  else (wrapInt n z, bit !exact)

/-- Converts a value to a format (R87 to R89): bits and flags. For an infinite input to E3M2, E2M3 or E2M1 under saturate 1 the table
of R88 and the sentence above it differ; the model takes the table's cell (DESIGN CHOICE, log entry 60). -/
def convert (fmt mode : Nat) (sat : Bool) (v : FVal) : Nat × Nat :=
  if fmtInt fmt then
    match v with
    | .nan => (0, 16)
    | .inf neg =>
      let n := fmtBits fmt
      (if sat then (if neg then 2 ^ (n - 1) else 2 ^ (n - 1) - 1) else 0, 16)
    | .fin neg m e => roundInt fmt mode sat neg m e
  else
    let (ew, fw, _) := fmtParams fmt
    match v with
    | .nan => if fmtInf fmt || fmt = 4 then (fmtNan fmt, 0) else (0, 16)
    | .inf neg =>
      let sign := bit neg * 2 ^ (ew + fw)
      if fmtInf fmt then if sat then (sign + fmtMax fmt, 5) else (sign + (2 ^ ew - 1) * 2 ^ fw, 0)
      else if fmt = 4 then if sat then (sign + fmtMax fmt, 5) else (fmtNan 4, 16)
      else (sign + fmtMax fmt, 16)
    | .fin neg m e => if m = 0 then (bit neg * 2 ^ (ew + fw), 0) else roundFloat fmt mode sat neg m e

/-- The value times 2^k. -/
def FVal.scale (v : FVal) (k : Int) : FVal :=
  match v with
  | .fin n m e => .fin n m (e + k)
  | v => v

/-- The value is zero. -/
def FVal.isZero : FVal → Bool
  | .fin _ 0 _ => true
  | _ => false

/-- The sign of a value; NaN counts as positive. -/
def FVal.neg : FVal → Bool
  | .nan => false
  | .inf n => n
  | .fin n _ _ => n

/-- The exact product of two values, and whether it is an infinity times zero (R92, R97). -/
def FVal.mul (a b : FVal) : FVal × Bool :=
  match a, b with
  | .nan, _ => (.nan, false)
  | _, .nan => (.nan, false)
  | .fin na ma ea, .fin nb mb eb => (.fin (na != nb) (ma * mb) (ea + eb), false)
  | a, b => if a.isZero || b.isZero then (.nan, true) else (.inf (a.neg != b.neg), false)

/-- A finite value as an integer multiple of 2^e0, for e0 no larger than its exponent. -/
def scaledInt (e0 : Int) (neg : Bool) (m : Nat) (e : Int) : Int :=
  let z : Int := (m * 2 ^ (e - e0).toNat : Nat)
  if neg then -z else z

/-- The exact sum of two values under a rounding mode, which decides the sign of an exact zero (R97), and whether it
is the difference of two infinities. -/
def FVal.add (mode : Nat) (a b : FVal) : FVal × Bool :=
  match a, b with
  | .nan, _ => (.nan, false)
  | _, .nan => (.nan, false)
  | .inf na, .inf nb => if na = nb then (.inf na, false) else (.nan, true)
  | .inf na, _ => (.inf na, false)
  | _, .inf nb => (.inf nb, false)
  | .fin na ma ea, .fin nb mb eb =>
    let e0 := min ea eb
    let z := scaledInt e0 na ma ea + scaledInt e0 nb mb eb
    if z = 0 then
      let neg := if na = nb && ma = 0 && mb = 0 then na else decide (mode = 2)
      (.fin neg 0 0, false)
    else (.fin (decide (z < 0)) z.natAbs e0, false)

/-- A floating-point lane result: the rounded value and its flags. -/
def finish (fmt mode : Nat) (r : FVal × Bool) : Nat × Nat :=
  if r.2 then (fmtNan fmt, 16) else convert fmt mode false r.1

/-- a + b in a floating-point lane (R97). -/
def fAdd (fmt mode a b : Nat) : Nat × Nat := finish fmt mode ((decodeElem fmt a).add mode (decodeElem fmt b))

/-- The negation of a value. -/
def FVal.negate : FVal → FVal
  | .nan => .nan
  | .inf n => .inf !n
  | .fin n m e => .fin (!n) m e

/-- a - b in a floating-point lane (R97). -/
def fSub (fmt mode a b : Nat) : Nat × Nat :=
  finish fmt mode ((decodeElem fmt a).add mode (decodeElem fmt b).negate)

/-- a b in a floating-point lane (R97). -/
def fMul (fmt mode a b : Nat) : Nat × Nat := finish fmt mode ((decodeElem fmt a).mul (decodeElem fmt b))

/-- a b + c rounded once; infinity times zero is invalid even when c is NaN (R97). -/
def fFma (fmt mode a b c : Nat) : Nat × Nat :=
  let (p, bad) := (decodeElem fmt a).mul (decodeElem fmt b)
  if bad then (fmtNan fmt, 16) else finish fmt mode (p.add mode (decodeElem fmt c))

/-- a < b for values that are not NaN, with -0 below +0 when `zeros` is true (R98). -/
def FVal.lt (zeros : Bool) (a b : FVal) : Bool :=
  match a, b with
  | .nan, _ => false
  | _, .nan => false
  | .inf na, .inf nb => na && !nb
  | .inf na, _ => na
  | _, .inf nb => !nb
  | .fin na ma ea, .fin nb mb eb =>
    let e0 := min ea eb
    let x := scaledInt e0 na ma ea
    let y := scaledInt e0 nb mb eb
    if x = 0 ∧ y = 0 then zeros && na && !nb else decide (x < y)

/-- The maximum (or minimum) of two floating-point lanes (R98). -/
def fMax (fmt : Nat) (mn : Bool) (a b : Nat) : Nat :=
  let x := decodeElem fmt a
  let y := decodeElem fmt b
  if x = .nan ∨ y = .nan then fmtNan fmt
  else if (if mn then y.lt true x else x.lt true y) then b else a

/-- A quiet comparison under a condition of R62 (R98); integers compare as signed (R99). -/
def laneCmp (fmt cond a b : Nat) : Bool :=
  let x := decodeElem fmt a
  let y := decodeElem fmt b
  let un := decide (x = .nan) || decide (y = .nan)
  let lt := x.lt false y
  let gt := y.lt false x
  match cond with
  | 0 => !un && !lt && !gt | 1 => un || lt || gt | 2 => lt | 3 => !un && !gt | 4 => gt | 5 => !un && !lt | _ => un

/-- A lane's low bits for its format. -/
def laneNat (fmt : Nat) (x : BitVec 64) : Nat := x.toNat % 2 ^ fmtBits fmt

/-- ⌊√n⌋ bit by bit, from bit k - 1 of the root down. -/
def isqrtGo (n : Nat) : Nat → Nat → Nat
  | 0, r => r
  | k + 1, r => let t := r + 2 ^ k; isqrtGo n k (if t * t ≤ n then t else r)

/-- ⌊√n⌋ for n below 2^1200. -/
def isqrt (n : Nat) : Nat := isqrtGo n (Nat.log2 n / 2 + 1) 0

/-- Fixed-point bits of the power of two; enough that no FP32 argument's result lies closer to a rounding boundary. -/
def expBits : Nat := 288

/-- ∏ over the fraction bits b_i (i from 1) of 2^(b_i 2^-i), in fixed point rounded down. `c` is 2^(2^-(i-1)). -/
def expFrac : List Bool → Nat → Nat → Nat
  | [], _, acc => acc
  | b :: bs, c, acc =>
    let c' := isqrt (c * 2 ^ expBits)
    expFrac bs c' (if b then acc * c' / 2 ^ expBits else acc)

/-- 2^a rounded once to FP32 (R100). -/
def fExp2 (mode a : Nat) : Nat × Nat :=
  match decodeElem 1 a with
  | .nan => (fmtNan 1, 0)
  | .inf neg => (if neg then 0 else 0x7F80_0000, 0)
  | .fin neg m e =>
    if m = 0 then (0x3F80_0000, 0)
    else if 9 < (Nat.log2 m : Int) + e then roundFloat 1 mode false false 3 (if neg then -600 else 600)
    else
      let z : Int := if neg then -(m : Int) else m
      if 0 ≤ e then roundFloat 1 mode false false 1 (z * 2 ^ e.toNat)
      else
        let k := (-e).toNat
        let n : Int := Int.fdiv z (2 ^ k : Nat)
        let f : Nat := (Int.fmod z (2 ^ k : Nat)).toNat
        if f = 0 then roundFloat 1 mode false false 1 n
        else
          let bits := (List.range k).map fun i => bitAt f (k - 1 - i)
          let p := expFrac bits (2 * 2 ^ expBits) (2 ^ expBits)
          roundFloat 1 mode false false (2 * p + 1) (n - expBits - 1)

/-- 1 / a rounded once to FP32 (R100). -/
def fRcp (mode a : Nat) : Nat × Nat :=
  match decodeElem 1 a with
  | .nan => (fmtNan 1, 0)
  | .inf neg => (bit neg * 2 ^ 31, 0)
  | .fin neg m e =>
    if m = 0 then (bit neg * 2 ^ 31 + 0x7F80_0000, 8)
    else
      let q := 2 ^ 80 / m
      let st := bit (decide (2 ^ 80 % m ≠ 0))
      roundFloat 1 mode false neg (2 * q + st) (-81 - e)

/-- 1 / √a rounded once to FP32 (R100). -/
def fRsqrt (mode a : Nat) : Nat × Nat :=
  match decodeElem 1 a with
  | .nan => (fmtNan 1, 0)
  | .inf neg => if neg then (fmtNan 1, 16) else (0, 0)
  | .fin neg m e =>
    if m = 0 then (bit neg * 2 ^ 31 + 0x7F80_0000, 8)
    else if neg then (fmtNan 1, 16)
    else
      let odd : Bool := decide (e % 2 ≠ 0)
      let m' := if odd then 2 * m else m
      let e' : Int := if odd then e - 1 else e
      let r := isqrt (2 ^ 160 / m')
      let st := bit (decide (r * r * m' ≠ 2 ^ 160))
      roundFloat 1 mode false false (2 * r + st) (-81 - e' / 2)

/-- Bitwise and integer lane operations (R99): the opcode's result on two 32-bit lanes. -/
def i32Op (op a b : Nat) : Nat :=
  let x := BitVec.ofNat 32 a
  let y := BitVec.ofNat 32 b
  let r : BitVec 32 := match op with
    | 0x50 => x + y
    | 0x51 => x - y
    | 0x52 => x * y
    | 0x54 => if x.slt y then y else x
    | 0x55 => if y.slt x then y else x
    | 0x60 => x &&& y
    | 0x61 => x ||| y
    | 0x62 => x ^^^ y
    | 0x63 => x <<< (b % 32)
    | 0x64 => x.sshiftRight (b % 32)
    | _ => x
  r.toNat

/-- A binary vector operation on two lanes (R97 to R99): result and flags. -/
def laneBinary (op fmt mode a b : Nat) : Nat × Nat :=
  if fmt = 11 then (i32Op op a b, 0)
  else match op with
    | 0x50 => fAdd fmt mode a b
    | 0x51 => fSub fmt mode a b
    | 0x52 => fMul fmt mode a b
    | 0x54 => (fMax fmt false a b, 0)
    | _ => (fMax fmt true a b, 0)

/-- Absolute value and negation of a lane (R98, R99). -/
def laneUnary (op fmt a : Nat) : Nat :=
  if fmt = 11 then
    let x := BitVec.ofNat 32 a
    (if op = 0x56 then (if x.slt 0 then -x else x) else -x).toNat
  else
    let s := fmtBits fmt - 1
    if op = 0x56 then a % 2 ^ s else if bitAt a s then a - 2 ^ s else a + 2 ^ s

/-- One level of the reduction tree: combines lanes 2i and 2i + 1 (R63). -/
def reduceLevel (f : Nat → Nat → Nat × Nat) : List Nat → List Nat × Nat
  | a :: b :: t =>
    let (r, fl) := f a b
    let (rs, fl') := reduceLevel f t
    (r :: rs, fl ||| fl')
  | l => (l, 0)

/-- The six levels of R63 over 64 lanes. -/
def reduceTree (f : Nat → Nat → Nat × Nat) : Nat → List Nat → List Nat × Nat
  | 0, l => (l, 0)
  | n + 1, l =>
    let (l', fl) := reduceLevel f l
    let (r, fl') := reduceTree f n l'
    (r, fl ||| fl')

/-! ## Matrix operands and accumulators -/

/-- The class of a format (R54). -/
def fmtClass (fmt : Nat) : Option AccClass :=
  if fmt = 1 then some .s else if fmt = 2 ∨ fmt = 3 then some .h
  else if 4 ≤ fmt ∧ fmt ≤ 8 then some .f else if fmt = 9 ∨ fmt = 10 then some .i else none

/-- Bytes of `n` packed elements (R83). -/
def packedBytes (fmt n : Nat) : Nat := (n * fmtBits fmt + 7) / 8

/-- Element `n` of packed data (R83). -/
def packedElem (fmt : Nat) (data : List Byte) (n : Nat) : Nat :=
  match fmtBits fmt with
  | 4 => (data.getD (n / 2) 0).toNat / 2 ^ (4 * (n % 2)) % 16
  | 6 => fieldAt data (3 * (n / 4)) 3 / 2 ^ (6 * (n % 4)) % 64
  | b => fieldAt data (n * (b / 8)) (b / 8)

/-- The value of elements laid from bit 0 up, `b` bits each. -/
def packNat (b : Nat) : List Nat → Nat
  | [] => 0
  | x :: t => x % 2 ^ b + 2 ^ b * packNat b t

/-- Packs elements (R83). -/
def packElems (fmt : Nat) (l : List Nat) : List Byte := leBytes (packedBytes fmt l.length) (packNat (fmtBits fmt) l)

/-- The column pitch of A in bytes: 32 elements, 32 bytes for FP6 (R84). -/
def colPitch (fmt : Nat) : Nat := if fmtBits fmt = 6 then 32 else packedBytes fmt 32
/-- The row pitch of B in bytes: 64 elements. -/
def rowPitch (fmt : Nat) : Nat := packedBytes fmt 64

/-- The value of an element in block form with scale byte x (R85). -/
def blockVal (fmt bits x : Nat) : FVal :=
  if x = 0xFF then .nan
  else (decodeElem fmt bits).scale ((x : Int) - 127 - (if fmt = 9 then 6 else 0))

/-- Bytes of operand A of an MMA (R56, R84). -/
def aBytes (fmt k : Nat) (mx : Bool) : Nat := k * colPitch fmt + if mx then k / 32 * 32 else 0
/-- Bytes of operand B of an MMA (R56). -/
def bBytes (fmt k : Nat) (mx : Bool) : Nat := k * rowPitch fmt + if mx then k / 32 * 64 else 0

/-- Data cut into `n` lines of `pitch` bytes. -/
def linesOf (pitch : Nat) : Nat → List Byte → List (List Byte)
  | 0, _ => []
  | n + 1, d => d.take pitch :: linesOf pitch n (d.drop pitch)

/-- The values of an operand of K lines of `per` elements: A column by column, B row by row, with the scales of the MX
form directly after the data (R56, R85). -/
def operandVals (fmt per pitch kk : Nat) (mx : Bool) (data : List Byte) : List (List FVal) :=
  let scales := linesOf per (kk / 32) (data.drop (kk * pitch))
  (linesOf pitch kk data).zipIdx.map fun (line, k) =>
    let sc := scales.getD (k / 32) []
    (List.range per).map fun i =>
      let x := packedElem fmt line i
      if mx then blockVal fmt x (sc.getD i 0).toNat else decodeElem fmt x

/-- An accumulator cell of value zero. -/
def AccCell.zero : AccCell := { v := 0, nan := false, pinf := false, ninf := false }

/-- Sets PINF or NINF by a sign. -/
def AccCell.setInf (c : AccCell) (neg : Bool) : AccCell :=
  if neg then { c with ninf := true } else { c with pinf := true }

/-- One product into a cell of class F or I (R92): the cell and the flags. -/
def accExact (c : AccCell) (a b : FVal) (shift : Nat) : AccCell × Nat :=
  match a.mul b with
  | (.nan, bad) => ({ c with nan := true }, if bad then 16 else 0)
  | (.inf neg, _) => (c.setInf neg, 0)
  | (.fin neg m e, _) =>
    let e := e + 8 * shift
    if m = 0 then (c, 0)
    else if 112 ≤ (Nat.log2 m : Int) + e then (c.setInf neg, 5)
    else
      let (r, exact) := roundTo 0 neg m e (-128)
      let z := BitVec.ofNat 256 r
      ({ c with v := if neg then c.v - z else c.v + z }, if exact then 0 else 3)

/-- A group of at most eight products into an FP32 cell (R95): the new pattern and the flags. -/
def accGroup (c : Nat) (ps : List (FVal × Bool)) : Nat × Nat :=
  let vals := decodeElem 1 c :: ps.map (·.1)
  let bad := ps.any (·.2) || (vals.contains (.inf true) && vals.contains (.inf false))
  if bad then (fmtNan 1, 16)
  else if vals.contains .nan then (fmtNan 1, 0)
  else if vals.contains (.inf true) then (0xFF80_0000, 0)
  else if vals.contains (.inf false) then (0x7F80_0000, 0)
  else
    let e0 : Int := vals.foldl (fun (e : Int) v => match v with | .fin _ _ ev => min e ev | _ => e) 0
    let z : Int := (vals.map fun v => match v with | .fin n m e => scaledInt e0 n m e | _ => 0).sum
    if z = 0 then (if vals.all FVal.neg then 0x8000_0000 else 0, 0)
    else roundFloat 1 0 false (decide (z < 0)) z.natAbs e0

/-- Splits a list into groups of eight. -/
def groups8 {α : Type} : Nat → List α → List (List α)
  | 0, _ => []
  | n + 1, l => l.take 8 :: groups8 n (l.drop 8)

/-- All products of one cell, by the class of the tile (R92, R95): the cell and the flags. -/
def accCell (cls : AccClass) (c : AccCell) (ps : List (FVal × FVal)) (shift : Nat) : AccCell × Nat :=
  if cls = .f ∨ cls = .i then
    ps.foldl (fun (r : AccCell × Nat) p => let (c', fl) := accExact r.1 p.1 p.2 shift; (c', r.2 ||| fl)) (c, 0)
  else
    let gs := groups8 ((ps.length + 7) / 8) (ps.map fun p => p.1.mul p.2)
    let (x, fl) := gs.foldl (fun (r : Nat × Nat) g => let (x', f) := accGroup r.1 g; (x', r.2 ||| f))
      (c.v.toNat % 2 ^ 32, 0)
    ({ c with v := BitVec.ofNat 256 x }, fl)

/-- The value a drain reads from a cell (R94, R95). -/
def cellVal (cls : AccClass) (c : AccCell) : FVal :=
  if cls = .f ∨ cls = .i then
    if c.nan || (c.pinf && c.ninf) then .nan
    else if c.pinf then .inf false
    else if c.ninf then .inf true
    else
      let z := c.v.toInt
      .fin (decide (z < 0)) z.natAbs (-128)
  else decodeElem 1 (c.v.toNat % 2 ^ 32)

/-- The largest exponent of a format in block form (R86). -/
def emaxOf (fmt : Nat) : Int := match fmt with | 4 => 8 | 5 => 15 | 6 => 4 | 7 => 2 | 8 => 2 | _ => 0

/-- ⌊log2 |v|⌋ of a finite non-zero value. -/
def FVal.log2 : FVal → Option Int
  | .fin _ m e => if m = 0 then none else some ((Nat.log2 m : Int) + e)
  | _ => none

/-- A block of an MX drain (R86): its scale byte, its elements and the flags. Elements "stored as zero" are +0 (DESIGN CHOICE, log
entry 60). -/
def mxBlock (fmt mode : Nat) (vs : List FVal) : Nat × List Nat × Nat :=
  if vs.any fun v => match v with | .fin _ _ _ => false | _ => true then (0xFF, vs.map fun _ => 0, 0)
  else match (vs.filterMap FVal.log2).max? with
    | none => (0x7F, vs.map fun _ => 0, 0)
    | some top =>
      let x := min 127 (max (-127) (top - emaxOf fmt))
      let rs := vs.map fun v => convert fmt mode true (v.scale (-x + if fmt = 9 then 6 else 0))
      ((x + 127).toNat, rs.map (·.1), rs.foldl (fun f r => f ||| r.2) 0)

/-- Blocks of 32 values of a drain. -/
def mxBlocks (fmt mode : Nat) : Nat → List FVal → List (Nat × List Nat × Nat)
  | 0, _ => []
  | n + 1, l => mxBlock fmt mode (l.take 32) :: mxBlocks fmt mode n (l.drop 32)

/-- Lines of elements, each packed and padded to a pitch. -/
def packLines (fmt per pitch : Nat) : Nat → List Nat → List Byte
  | 0, _ => []
  | n + 1, l => padTo pitch (packElems fmt (l.take per)) ++ packLines fmt per pitch n (l.drop per)

/-- What a drain stores (R59, R86): the bytes and the flags, from the 2,048 cells in row order. -/
def drainBytes (fmt mode : Nat) (mx tr sat : Bool) (cells : List FVal) : List Byte × Nat :=
  let order : List FVal :=
    if tr then (List.range 2048).map fun n => cells.getD (n % 32 * 64 + n / 32) .nan else cells
  let lines := if tr then 64 else 32
  let per := if tr then 32 else 64
  let pitch := if tr then colPitch fmt else rowPitch fmt
  if mx then
    let bs := mxBlocks fmt mode 64 order
    (packLines fmt per pitch lines (bs.flatMap fun b => b.2.1) ++ bs.map fun b => BitVec.ofNat 8 b.1,
     bs.foldl (fun f b => f ||| b.2.2) 0)
  else
    let rs := order.map (convert fmt mode sat)
    (packLines fmt per pitch lines (rs.map (·.1)), rs.foldl (fun f r => f ||| r.2) 0)

/-- Bytes an MDRAIN writes (R59, R84). -/
def drainSize (fmt : Nat) (mx tr : Bool) : Nat :=
  (if tr then 64 * colPitch fmt else 32 * rowPitch fmt) + if mx then 64 else 0

end Sys2Proof.Machine
end

