-- ==== Sys2Proof/Machine/Operands.lean ====
section
/-! DEFINITION. Operands of facet instructions (spec/02): the fields of the operation and token words, stepped slots, the
scratchpad regions an instruction names, the checks of decode in the order of R75, and the resources that order two
instructions of one stream. -/

namespace Sys2Proof.Machine

/-! ## Fields (R42, R43) -/

def wOp (w : BitVec 128) : Nat := bitsOf w.toNat 63 56
def wMod (w : BitVec 128) : Nat := bitsOf w.toNat 55 48
def wS0 (w : BitVec 128) : Nat := bitsOf w.toNat 47 32
def wS1 (w : BitVec 128) : Nat := bitsOf w.toNat 31 16
def wS2 (w : BitVec 128) : Nat := bitsOf w.toNat 15 0
def wWca (w : BitVec 128) : Nat := bitsOf w.toNat 127 123
def wWna (w : BitVec 128) : Nat := bitsOf w.toNat 122 112
def wWcb (w : BitVec 128) : Nat := bitsOf w.toNat 111 107
def wWnb (w : BitVec 128) : Nat := bitsOf w.toNat 106 96
def wLsc (w : BitVec 128) : Nat := bitsOf w.toNat 95 91
def wLsn (w : BitVec 128) : Nat := bitsOf w.toNat 90 88
def wRsc (w : BitVec 128) : Nat := bitsOf w.toNat 87 83
def wRsn (w : BitVec 128) : Nat := bitsOf w.toNat 82 80
def wRsx (w : BitVec 128) : Nat := bitsOf w.toNat 79 74
def wRsy (w : BitVec 128) : Nat := bitsOf w.toNat 73 69

/-- First format field, lane or storage format or address register (MOD[55:52]). -/
def wHi (w : BitVec 128) : Nat := bitsOf w.toNat 55 52
/-- Second format field or condition (MOD[51:48]). -/
def wLo (w : BitVec 128) : Nat := bitsOf w.toNat 51 48
/-- Rounding of the vector instructions of R62. -/
def wRound (w : BitVec 128) : Nat := bitsOf w.toNat 47 46
/-- Destination vector register (S0[4:0]). -/
def wVd (w : BitVec 128) : Nat := bitsOf w.toNat 36 32
/-- Addend register of VFMA (S0[12:8]). -/
def wVc (w : BitVec 128) : Nat := bitsOf w.toNat 44 40
/-- Mask register of VSEL (S0[10:8]). -/
def wVm (w : BitVec 128) : Nat := bitsOf w.toNat 42 40
/-- First source register (S1[4:0]). -/
def wVa (w : BitVec 128) : Nat := bitsOf w.toNat 20 16
/-- Second source register (S2[4:0]). -/
def wVb (w : BitVec 128) : Nat := bitsOf w.toNat 4 0
/-- The peer flag of SPUT, SGET and STOK (MOD[51]). -/
def wPeer (w : BitVec 128) : Bool := bitAt w.toNat 51
/-- Stride of VLD and VST (S2[12:0]). -/
def wStride (w : BitVec 128) : Nat := bitsOf w.toNat 12 0
/-- The accumulator tile of MMA (S2[9]). -/
def wTile (w : BitVec 128) : Nat := bitsOf w.toNat 9 9
/-- K of MMA. -/
def wK (w : BitVec 128) : Nat := bitsOf w.toNat 8 0 + 1
/-- MX, CLR and shift of MMA. -/
def wMx (w : BitVec 128) : Bool := bitAt w.toNat 15
def wClr (w : BitVec 128) : Bool := bitAt w.toNat 14
def wShift (w : BitVec 128) : Nat := bitsOf w.toNat 13 10
/-- Rounding, tile, clear, MX, transpose and saturate of MDRAIN. -/
def wDRound (w : BitVec 128) : Nat := bitsOf w.toNat 51 50
def wDTile (w : BitVec 128) : Nat := bitsOf w.toNat 49 49
def wDClr (w : BitVec 128) : Bool := bitAt w.toNat 48
def wDMx (w : BitVec 128) : Bool := bitAt w.toNat 2
def wDTr (w : BitVec 128) : Bool := bitAt w.toNat 1
def wDSat (w : BitVec 128) : Bool := bitAt w.toNat 0

/-! ## Opcodes (R53, R62) -/

/-- The stream whose engine runs an opcode; 4 stands for every stream and 5 for an opcode that is not listed. -/
def opStream (op : Nat) : Nat :=
  if op ≤ 0x04 then 4
  else if op = 0x20 ∨ op = 0x21 then 0
  else if (0x40 ≤ op ∧ op ≤ 0x42) ∨ (0x50 ≤ op ∧ op ≤ 0x64) then 1
  else if 0x80 ≤ op ∧ op ≤ 0x85 then 2
  else if op = 0xC0 then 3
  else 5

/-- The instruction rounds, so that S0[15:14] is its mode (R62). -/
def opRounds (op : Nat) : Bool :=
  op = 0x50 || op = 0x51 || op = 0x52 || op = 0x53 || op = 0x5A || op = 0x5B || op = 0x5D || op = 0x5E || op = 0x5F

/-- The instruction reads a second source. -/
def opTwo (op : Nat) : Bool :=
  op = 0x50 || op = 0x51 || op = 0x52 || op = 0x53 || op = 0x54 || op = 0x55 || op = 0x58 || op = 0x59 ||
  (decide (0x60 ≤ op) && decide (op ≤ 0x64))

/-- The opcode is a vector operation of R62 other than VMOVI. -/
def opVec (op : Nat) : Bool := decide (0x50 ≤ op) && decide (op ≤ 0x64)

/-- The bits of the operation word below the opcode that an opcode defines, in a stream (R43, R53). -/
def definedBits (op st : Nat) : Nat :=
  let m (hi lo : Nat) : Nat := 2 ^ (hi + 1) - 2 ^ lo
  match op with
  | 0x01 => if st = 3 then m 48 48 else 0
  | 0x02 => m 47 16
  | 0x03 => m 49 48 + m 47 0
  | 0x20 => m 55 0
  | 0x21 => m 55 32 + m 2 0
  | 0x40 => m 55 32 + m 20 16 + m 12 0
  | 0x41 => m 55 32 + m 20 16 + m 15 0
  | 0x42 => m 55 52 + m 36 32 + m 31 0
  | 0x80 => m 52 0
  | 0x81 => m 55 51 + m 47 0
  | 0x82 => m 55 51 + m 47 0
  | 0x83 => m 9 0
  | 0x84 => m 51 51
  | 0x85 => m 50 48 + m 47 16
  | 0xC0 => m 36 32 + m 31 16
  | _ =>
    if opVec op then
      m 55 52 + (if op = 0x58 ∨ op = 0x5A then m 51 48 else 0) + (if op = 0x58 then m 34 32 else m 36 32) +
      (if op = 0x53 then m 44 40 else if op = 0x59 then m 42 40 else 0) + (if opRounds op then m 47 46 else 0) +
      m 20 16 + (if opTwo op then m 4 0 else 0)
    else 0

/-- A reserved bit is set: of the operation word, of the token word (R44, R45), or a remote signal where there is none
(R67, R68). -/
def reservedSet (w : BitVec 128) (st : Nat) : Bool :=
  let n := w.toNat
  let op := wOp w
  decide (bitsOf n 55 0 &&& definedBits op st ≠ bitsOf n 55 0) || decide (bitsOf n 68 64 ≠ 0) ||
  (decide (wWna w = 0) && decide (wWca w ≠ 0)) || (decide (wWnb w = 0) && decide (wWcb w ≠ 0)) ||
  (decide (wRsn w = 0) && decide (bitsOf n 87 83 ≠ 0 ∨ bitsOf n 79 69 ≠ 0)) ||
  ((op = 0x82 || op = 0x85) && decide (bitsOf n 87 69 ≠ 0))

/-! ## Formats an instruction allows (R54, R55, R59, R61, R63, R90) -/

/-- The pair of storage and lane format is one that VLD and VST permit (R90). -/
def vldPair (sto lane : Nat) : Bool :=
  match sto with
  | 0 => lane = 0
  | 1 => lane = 1 || lane = 0
  | 2 => lane = 2 || lane = 1 || lane = 0
  | 3 => lane = 3 || lane = 1 || lane = 0
  | 4 | 5 | 6 | 7 | 8 => lane = 0 || lane = 1 || lane = 2 || lane = 3
  | 9 | 10 => lane = 1 || lane = 11
  | 11 => lane = 11
  | _ => false

/-- A lane format. -/
def isLane (f : Nat) : Bool := f = 0 || f = 1 || f = 2 || f = 3 || f = 11

/-- The lane format that a vector operation allows (R62). -/
def laneOk (op f : Nat) : Bool :=
  if op = 0x53 then decide (f ≤ 3)
  else if op = 0x5D ∨ op = 0x5E ∨ op = 0x5F then f = 1
  else if 0x60 ≤ op ∧ op ≤ 0x64 then f = 11
  else isLane f

/-- The format pairing of MMA breaks R55 or R57. -/
def mmaBad (x : Facet) (w : BitVec 128) : Bool :=
  match fmtClass (wHi w), fmtClass (wLo w) with
  | some a, some b =>
    let pair : Bool := (a = .f && b = .f) || (a = .i && b = .i) || (wHi w = wLo w)
    let block (f : Nat) : Bool := decide (4 ≤ f) && decide (f ≤ 9)
    !pair ||
    (wMx w && !(block (wHi w) && block (wLo w) && wK w % 32 = 0)) ||
    decide (12 < wShift w) ||
    (decide (wShift w ≠ 0) && (a ≠ .i || wMx w)) ||
    (!wClr w && x.accClass.find (wTile w) ≠ some a)
  | _, _ => true

/-- The engine's own operand rules (R75 item 3, first part). -/
def engineBad (x : Facet) (w : BitVec 128) : Bool :=
  let op := wOp w
  match op with
  | 0x20 => mmaBad x w
  | 0x21 =>
    !(decide (1 ≤ wHi w) && decide (wHi w ≤ 10)) || (wDMx w && !(decide (4 ≤ wHi w) && decide (wHi w ≤ 9))) ||
    (x.accClass.find (wDTile w)).isNone
  | 0x40 => !vldPair (wHi w) (wLo w) || (decide (fmtBits (wHi w) < 8) && wStride w ≠ 1)
  | 0x41 => !vldPair (wHi w) (wLo w) || (decide (fmtBits (wHi w) < 8) && wStride w ≠ 1) || wStride w = 0
  | 0x42 => !isLane (wHi w) || ((wHi w = 2 || wHi w = 3) && wS1 w ≠ 0)
  | 0x84 => wRsn w = 0
  | _ =>
    if opVec op then
      !laneOk op (wHi w) || (op = 0x58 && decide (6 < wLo w)) || (op = 0x5A && !isLane (wLo w))
    else false

/-- Two wait counts name one counter (R44). -/
def sameWait (w : BitVec 128) : Bool := decide (wWna w ≠ 0) && decide (wWnb w ≠ 0) && wWca w = wWcb w

/-! ## Stepped slots (R50 to R52) -/

/-- The sum of index times step over the open levels for a slot. -/
def Stream.stepSum (y : Stream) (slot : Nat) : Int :=
  (y.loops.zipIdx.map fun e => (e.1.idx : Int) * y.steps.getD (3 * e.2 + slot) 0).sum

/-- The opcode steps a slot. -/
def stepped (op slot : Nat) : Bool :=
  match slot with
  | 0 => op = 0x20 || op = 0x21 || op = 0x40 || op = 0x41 || op = 0x81 || op = 0x82 || op = 0x85
  | 1 => op = 0x20 || op = 0x81 || op = 0x82
  | _ => op = 0x83

/-- The effective value of slot 0, 1 or 2. -/
def Stream.slot (y : Stream) (w : BitVec 128) (j : Nat) : Int :=
  let v : Nat := match j with | 0 => wS0 w | 1 => wS1 w | _ => wS2 w
  (v : Int) + if stepped (wOp w) j then y.stepSum j else 0

/-- Bytes from the first to the last byte that a vector load or store touches (R61). -/
def vecSpan (w : BitVec 128) : Nat :=
  let b := fmtBits (wHi w)
  if b < 8 then 64 * b / 8 else (63 * wStride w + 1) * (b / 8)

/-- The scratchpad regions an instruction names, as effective slot and length (R43, R52). -/
def spadRegions (y : Stream) (w : BitVec 128) : List (Int × Nat) :=
  match wOp w with
  | 0x20 => [(y.slot w 0, aBytes (wHi w) (wK w) (wMx w)), (y.slot w 1, bBytes (wLo w) (wK w) (wMx w))]
  | 0x21 => [(y.slot w 0, drainSize (wHi w) (wDMx w) (wDTr w))]
  | 0x40 | 0x41 => [(y.slot w 0, vecSpan w)]
  | 0x81 | 0x82 => [(y.slot w 0, 16 * (wS2 w + 1))]
  | 0x85 => [(y.slot w 0, 16 * (wS1 w + 1))]
  | _ => []

/-- A region does not lie within the scratchpad. -/
def regionOut (e : Int × Nat) : Bool :=
  decide (e.1 < 0) || decide (0xFFFF < e.1) || decide (0x10_0000 < 16 * e.1 + (e.2 : Int))

/-! ## Decode (R75) -/

/-- LOOP breaks a rule of R50. -/
def loopBad (y : Stream) (w : BitVec 128) : Bool :=
  let last := y.next + 1 + wS1 w
  decide (4 ≤ y.loops.length) || wS0 w = 0 || wS1 w = 0 || decide (y.len < last) ||
  (match y.loops.getLast? with | some l => decide (l.start + l.len < last) | none => false)

/-- Some other stream of the facet satisfies a condition. -/
def Facet.other (x : Facet) (st : Nat) (p : Stream → Bool) : Bool :=
  (List.range 4).any fun k => k ≠ st && p (x.stream k)

/-- The remote signal's facet lies outside the parcel (R45, R75 item 8). A transfer to a peer of another rank is checked
by that peer. -/
def Facet.targetBad (x : Facet) (w : BitVec 128) : Bool :=
  let peer : Bool := (wOp w = 0x81 || wOp w = 0x84) && wPeer w && x.peer ≠ x.rank
  match x.owner with
  | some o => decide (wRsn w ≠ 0) && !peer && (decide (o.pw < wRsx w) || decide (o.ph < wRsy w))
  | none => decide (wRsn w ≠ 0)

/-- The counter a stream may not wait on (R46), WCA before WCB. -/
def Facet.foreign (x : Facet) (st : Nat) (w : BitVec 128) : Option Nat :=
  let own (c : Nat) : Nat := bitsOf x.tokown.toNat (2 * c + 1) (2 * c)
  if wWna w ≠ 0 ∧ own (wWca w) ≠ st then some (wWca w)
  else if wWnb w ≠ 0 ∧ own (wWcb w) ≠ st then some (wWcb w)
  else none

/-- The exception that decoding a word in a stream raises, as code and detail, in the order of R75. A fetch past the end
of the region is found before the word is read. -/
def decodeExc (x : Facet) (st : Nat) (w : BitVec 128) : Option (Nat × Nat) :=
  let y := x.stream st
  let op := wOp w
  if (opStream op ≠ 4 ∧ opStream op ≠ st) ∨ reservedSet w st then some (0x01, 0)
  else if engineBad x w || sameWait w then some (0x02, 0)
  else if op = 0x02 && loopBad y w then some (0x04, 0)
  else if (spadRegions y w).any regionOut then some (0x03, 0)
  else if (op = 0x04 && x.other st (·.atBeat)) || (op = 0x01 && x.other st (·.stopped)) then some (0x05, 0)
  else match x.foreign st w with
    | some c => some (0x06, c)
    | none =>
      if x.targetBad w then some (0x08, 0)
      else if op = 0x83 ∧ x.jobSize ≤ bitsOf w.toNat 9 0 then some (0x08, 0)
      else none

/-! ## Resources (step 3 of the life of an instruction) -/

/-- Resources an instruction reads or writes: scratchpad ranges, and registers by number (V 0 to 31, M 32 to 39, the
tiles 40 and 41, D 50 to 65, the peer rank 70). -/
structure Uses where
  rSpad : List (Nat × Nat)
  wSpad : List (Nat × Nat)
  rReg  : List Nat
  wReg  : List Nat
  deriving DecidableEq, Repr

/-- An instruction that uses nothing. -/
def Uses.none : Uses := { rSpad := [], wSpad := [], rReg := [], wReg := [] }

/-- The byte range of a region. -/
def byteRange (s : Int) (n : Nat) : Nat × Nat := (16 * s.toNat, n)

/-- What a word uses, with the effective values of slots 0 and 1 (R52). -/
def usesOf (w : BitVec 128) (e0 e1 : Int) : Uses :=
  let op := wOp w
  match op with
  | 0x20 => { rSpad := [byteRange e0 (aBytes (wHi w) (wK w) (wMx w)), byteRange e1 (bBytes (wLo w) (wK w) (wMx w))],
              wSpad := [], rReg := [40 + wTile w], wReg := [40 + wTile w] }
  | 0x21 => { rSpad := [], wSpad := [byteRange e0 (drainSize (wHi w) (wDMx w) (wDTr w))], rReg := [40 + wDTile w],
              wReg := if wDClr w then [40 + wDTile w] else [] }
  | 0x40 => { rSpad := [byteRange e0 (vecSpan w)], wSpad := [], rReg := [], wReg := [wVa w] }
  | 0x41 => { rSpad := [], wSpad := [byteRange e0 (vecSpan w)], rReg := [wVa w], wReg := [] }
  | 0x42 => { Uses.none with wReg := [wVd w] }
  | 0x80 => { Uses.none with rReg := [50 + wLo w], wReg := [50 + wLo w] }
  | 0x83 => { Uses.none with wReg := [70] }
  | 0x81 => { rSpad := [byteRange e0 (16 * (wS2 w + 1))], wSpad := [], rReg := [50 + wHi w] ++ if wPeer w then [70] else [],
              wReg := [] }
  | 0x82 => { rSpad := [], wSpad := [byteRange e0 (16 * (wS2 w + 1))], rReg := [50 + wHi w] ++ if wPeer w then [70] else [],
              wReg := [] }
  | 0x84 => { Uses.none with rReg := if wPeer w then [70] else [] }
  | 0x85 => { Uses.none with rSpad := [byteRange e0 (16 * (wS1 w + 1))] }
  | _ =>
    if opVec op then
      { Uses.none with
        rReg := [wVa w] ++ (if opTwo op then [wVb w] else []) ++ (if op = 0x53 then [wVc w] else []) ++
          if op = 0x59 then [32 + wVm w] else []
        wReg := [if op = 0x58 then 32 + wVd w else wVd w] }
    else Uses.none

/-- Two byte ranges meet. -/
def meet (a b : Nat × Nat) : Bool := decide (a.1 < b.1 + b.2) && decide (b.1 < a.1 + a.2)

/-- Two lists of ranges meet. -/
def meets (a b : List (Nat × Nat)) : Bool := a.any fun p => b.any (meet p)

/-- Two lists of registers share one. -/
def shares (a b : List Nat) : Bool := a.any b.contains

/-- An incomplete instruction orders a later one (step 3): it writes what the later one uses, or uses what it writes. -/
def Uses.blocks (a b : Uses) : Bool :=
  meets a.wSpad b.rSpad || meets a.wSpad b.wSpad || meets a.rSpad b.wSpad ||
  shares a.wReg b.rReg || shares a.wReg b.wReg || shares a.rReg b.wReg

/-- Handshakes of an MMA (R58). -/
def mmaHandshakes (w : BitVec 128) : Nat :=
  let small (f : Nat) : Bool := f = 6 || f = 7 || f = 8 || f = 10
  match fmtClass (wHi w) with
  | some .s => 8 * wK w
  | some .h => 2 * wK w
  | _ => if small (wHi w) && small (wLo w) then (wK w + 1) / 2 else wK w

/-- Handshakes of a vector instruction (R61 to R63). -/
def vecHandshakes (w : BitVec 128) : Nat :=
  match wOp w with
  | 0x5B | 0x5C => 6
  | 0x5D | 0x5E | 0x5F => 4
  | 0x50 | 0x51 | 0x52 | 0x53 => if wHi w = 0 then 2 else 1
  | _ => 1

end Sys2Proof.Machine
end

