-- ==== Sys2Proof/Machine/Flags.lean ====
section
/-! DEFINITION. The sticky numeric flags FCT_FPFLAGS (R64, R87): one field of five bits for each engine. -/

namespace Sys2Proof.Machine

/-- Sets the matrix engine's sticky flags. -/
def Facet.matFlags (x : Facet) (fl : Nat) : Facet := { x with fpMat := x.fpMat ||| BitVec.ofNat 5 fl }

/-- Sets the vector engine's sticky flags. -/
def Facet.vecFlags (x : Facet) (fl : Nat) : Facet := { x with fpVec := x.fpVec ||| BitVec.ofNat 5 fl }

/-- Write-one-to-clear of both fields. -/
def Facet.clearFlags (x : Facet) (v : BitVec 64) : Facet :=
  { x with fpMat := x.fpMat &&& ~~~(v.extractLsb' 0 5), fpVec := x.fpVec &&& ~~~(v.extractLsb' 5 5) }

end Sys2Proof.Machine
end

