-- ==== Sys2Proof/Machine/Send.lean ====
section
/-! DEFINITION. What leaves a block for another: mesh flits, egress queues, Zaren frames and their flows, job
messages. -/

namespace Sys2Proof.Machine

/-! ## The device's key and addresses (R242, R249) -/

/-- DEVICE_KEY (R242): SHA-256 of the device's public key. -/
def deviceKey : List Byte := sha256 Config.devicePub

/-- KEY64 (R249). -/
def key64 : BitVec 64 := BitVec.ofNat 64 (leNat (deviceKey.take 8))

/-- The MAC address of a link: 02-k0-k1-k2-k3-L (R249). -/
def linkMac (link : Nat) : List Byte := [0x02] ++ deviceKey.take 4 ++ beBytes 1 link

end Sys2Proof.Machine

namespace Sys2Proof

/-! ## Flits and frames -/

/-- A flit with every field zero. -/
def Flit.blank : Flit :=
  { typ := 0, vc := 0, dx := 0, dy := 0, side := 0, sx := 0, sy := 0, inst := 0, gen := 0, tokc := 0, tokn := 0,
    last := false, units := 0, tag := 0, flow := 0, addr := 0, payload := [] }

/-- The answer to a flit: ACK, or NACK with a status (R126, R127). It returns to the sender's facet, and for a girdle
die to that die by its side. FLOW is 0, as a facet's flits have it (R117); for the answer of a girdle die, which may choose one, it
is the model's choice (log entry 51). -/
def Flit.answer (fl : Flit) (typ : Nat) (payload : List Byte) : Flit :=
  { Flit.blank with
    typ, vc := 1, dx := fl.sx, dy := fl.sy, sx := fl.dx, sy := fl.dy, inst := fl.inst, gen := fl.gen, last := true,
    tag := fl.tag, payload }

/-- The bytes that UNITS says a payload has (R117). -/
def Flit.data (fl : Flit) : List Byte := fl.payload.take (16 * (fl.units + 1))

/-- Units of a payload (UNITS of R117). -/
def unitsOf (n : Nat) : Nat := (n + 15) / 16 - 1

/-- The 128-bit header of a flit (R117). -/
def Flit.header (fl : Flit) : Nat :=
  fl.typ % 16 * 2 ^ 124 + fl.vc % 4 * 2 ^ 122 + fl.dx % 64 * 2 ^ 116 + fl.dy % 32 * 2 ^ 111 + fl.side % 8 * 2 ^ 108 +
  fl.sx % 64 * 2 ^ 102 + fl.sy % 32 * 2 ^ 97 + fl.inst % 64 * 2 ^ 91 + fl.gen.toNat * 2 ^ 75 + fl.tokc % 32 * 2 ^ 70 +
  fl.tokn % 8 * 2 ^ 67 + bit fl.last * 2 ^ 66 + fl.units % 8 * 2 ^ 63 + fl.tag % 128 * 2 ^ 56 + fl.flow % 256 * 2 ^ 48 +
  fl.addr % 2 ^ 48

/-- The 144 bytes of a flit: the header, little-endian, as bytes 0 to 15, and 128 bytes of payload (R116, R117). -/
def Flit.image (fl : Flit) : List Byte := leBytes 16 fl.header ++ (padTo 128 fl.payload).take 128

/-- The flit that 144 bytes hold; of the payload, the units that UNITS names (R117). -/
def Flit.ofImage (bs : List Byte) : Flit :=
  let h := fieldAt bs 0 16
  let units := bitsOf h 65 63
  { typ := bitsOf h 127 124, vc := bitsOf h 123 122, dx := bitsOf h 121 116, dy := bitsOf h 115 111, side := bitsOf h 110 108
    sx := bitsOf h 107 102, sy := bitsOf h 101 97, inst := bitsOf h 96 91, gen := BitVec.ofNat 16 (bitsOf h 90 75)
    tokc := bitsOf h 74 70, tokn := bitsOf h 69 67, last := bitAt h 66, units, tag := bitsOf h 62 56, flow := bitsOf h 55 48
    addr := bitsOf h 47 0, payload := slice bs 16 (16 * (units + 1)) }

/-- Length of a frame from destination address to FCS: at least 64 bytes. -/
def wireLen (n : Nat) : Nat := max 64 n

/-- Length of a Zaren frame (R251): addresses, tag, type, header, payload, FCS. -/
def ZFrame.wire (z : ZFrame) : Nat := wireLen (54 + z.payload.length)

/-- The 32-byte header of a Zaren frame, big-endian (R7, R251). `rsv` packs the reserved bits: FLAGS [2:0], TAG [7], INST [7:6] and
AFL [7:2], from bit 0 up. -/
def ZFrame.header (z : ZFrame) : List Byte :=
  beBytes 1 (16 * z.version + z.typ % 16) ++ beBytes 1 (128 * bit z.last + 64 * bit z.sig + 8 * (z.tokn % 8) + z.rsv % 8) ++
  beBytes 1 z.hops ++ beBytes 1 (z.tag % 128 + 128 * (z.rsv / 8 % 2)) ++ beBytes 2 z.dst ++ beBytes 2 z.src ++ beBytes 4 z.job ++
  beBytes 1 (z.inst % 64 + 64 * (z.rsv / 16 % 4)) ++ beBytes 3 z.psn.toNat ++ beBytes 1 z.sfx ++ beBytes 1 z.sfy ++
  beBytes 1 (bit z.avalid + 2 * (z.aclass % 2) + 4 * (z.rsv / 64 % 64)) ++ beBytes 3 z.apsn.toNat ++ beBytes 6 z.addr ++
  beBytes 2 z.payload.length ++ beBytes 2 (1024 * (z.rsx % 64) + 32 * (z.rsy % 32) + z.tokc % 32)

/-- The Zaren frame whose header stands at offset `off` of a frame's bytes, in the class `pcp` of its tag. LEN disagrees with the
frame's length unless header, payload and filling to 60 bytes are all there is (R251, R252). -/
def ZFrame.read (pcp off : Nat) (bs : List Byte) : ZFrame :=
  let b := bs.drop off
  let u (o n : Nat) : Nat := beNat (slice b o n)
  let len := u 28 2
  { version := u 0 1 / 16, typ := u 0 1 % 16, last := bitAt (u 1 1) 7, sig := bitAt (u 1 1) 6, tokn := bitsOf (u 1 1) 5 3, hops := u 2 1
    tag := u 3 1 % 128, dst := u 4 2, src := u 6 2, job := u 8 4, inst := u 12 1 % 64, psn := BitVec.ofNat 24 (u 13 3), sfx := u 16 1
    sfy := u 17 1, avalid := bitAt (u 18 1) 0, aclass := bitsOf (u 18 1) 1 1, apsn := BitVec.ofNat 24 (u 19 3), addr := u 22 6
    rsx := bitsOf (u 30 2) 15 10, rsy := bitsOf (u 30 2) 9 5, tokc := bitsOf (u 30 2) 4 0, pcp
    rsv := u 1 1 % 8 + 8 * (u 3 1 / 128) + 16 * (u 12 1 / 64) + 64 * (u 18 1 / 4)
    lenOk := decide (bs.length = max 60 (off + 32 + len)), payload := slice b 32 len }

/-- The frame carries data, a request or a signal of one of this device's transfers, or of a peer's (R267). -/
def ZFrame.transfer (z : ZFrame) : Bool := z.typ = 1 || z.typ = 2 || z.typ = 4

/-- The frame goes to the control queue (R305). -/
def ZFrame.ctl (z : ZFrame) : Bool := z.typ = 8 || z.typ = 0xA || z.typ = 0xB || z.typ = 0xC

/-- The frame carries a PSN (R251). -/
def ZFrame.hasPsn (z : ZFrame) : Bool := (decide (1 ≤ z.typ) && decide (z.typ ≤ 6)) || z.typ = 8 || z.typ = 9

/-- The instance whose frame it is (R306): a job transfer's or a CMD frame's. -/
def ZFrame.instOf (z : ZFrame) : Option Nat :=
  if (1 ≤ z.typ ∧ z.typ ≤ 6) ∨ z.typ = 9 then some z.inst else none

end Sys2Proof

namespace Sys2Proof.Machine

/-- What a command's meaning answers. -/
abbrev Res := Host.Outcome State Fault Refusal

/-! ## Mesh (R116 to R122) -/

/-- A flit arrives at a place, behind those that wait there. -/
def State.putFlit (s : State) (p : Place) (fl : Flit) : State :=
  { s with mesh := { s.mesh with transit := s.mesh.transit ++ [{ flit := fl, place := p, since := s.now }] } }

/-- A facet sends a flit: it waits for the local input of the facet's router (R119, log entry 52). -/
def State.sendFlit (s : State) (fl : Flit) : State := s.putFlit (.buf fl.sx fl.sy 4) fl

/-- The input port of an edge router by which the flits of a side's die enter (R117, R122). -/
def sidePort (side : Nat) : Nat := match side with | 1 => 1 | 2 => 0 | 3 => 3 | _ => 2

/-- A girdle die sends a flit, which enters at the facet its source fields name (R122, R130). -/
def State.dieSend (s : State) (die : Nat) (fl : Flit) : State := s.putFlit (.buf fl.sx fl.sy (sidePort (dieRun die).1)) fl

/-- The first flit at a place that satisfies `p`. -/
def State.firstAt (s : State) (pl : Place) (p : Flit → Bool) : Option Hop :=
  s.mesh.transit.find? fun h => h.place = pl && p h.flit

/-- A flit is the next one of a facet's mesh ingress, which applies flits in arrival order (R126). -/
def State.atFacet (s : State) (f : Nat) (fl : Flit) : Bool := (s.firstAt (.facet f) fun _ => true).map (·.flit) = some fl

/-- A flit is the next one of its edge facet and channel at a girdle die: the edge link keeps each facet's order (R125, R130). -/
def State.atDie (s : State) (d : Nat) (fl : Flit) : Bool :=
  (s.firstAt (.die d) fun g => g.dx = fl.dx && g.dy = fl.dy && g.vc = fl.vc).map (·.flit) = some fl

/-- A flit leaves its place. -/
def State.taken (s : State) (pl : Place) (fl : Flit) : State :=
  { s with mesh := { s.mesh with transit := s.mesh.transit.eraseP fun h => h.place = pl && h.flit = fl } }

/-- The header of a flit from a facet to a facet (R118); its channel is 2 on a static stream, 1 for a response, else 0
(R118, R123). -/
def State.facetFlit (s : State) (src dst typ : Nat) : Flit :=
  let x := s.facet src
  let (i, g) := match x.owner with | some o => (o.inst, o.gen) | none => (0, 0)
  let vc := if typ = 2 ∨ typ = 4 ∨ typ = 5 then 1 else if x.statics.any fun e => e.1 = dst then 2 else 0
  { Flit.blank with
    typ, vc, dx := facetX dst, dy := facetY dst, sx := facetX src, sy := facetY src, inst := i, gen := g }

/-- The header of a flit from a facet to a girdle die, addressed by R122. -/
def State.dieFlit (s : State) (src die typ : Nat) : Flit :=
  let e := runFacet die (facetX src) (facetY src)
  { s.facetFlit src e typ with
    vc := if typ = 2 ∨ typ = 4 ∨ typ = 5 then 1 else 0
    side := (dieRun die).1 }

/-- The header of a flit from a girdle die to a facet, entering by R122. The spec names no channel for a WRITE, READ or TOKEN of
a girdle die to a facet; the model puts it on channel 3, by which the answer knows its sender for a die (log entry 53). -/
def fromDie (die dst inst : Nat) (gen : BitVec 16) (typ : Nat) : Flit :=
  let e := runFacet die (facetX dst) (facetY dst)
  { Flit.blank with
    typ, vc := if typ = 2 ∨ typ = 4 ∨ typ = 5 then 1 else 3, dx := facetX dst, dy := facetY dst, sx := facetX e, sy := facetY e, inst, gen }

/-- The instance and generation of a facet's work (R118). -/
def Facet.who (x : Facet) : Nat × BitVec 16 := match x.owner with | some o => (o.inst, o.gen) | none => (0, 0)

/-- The payload of a NACK. -/
def nackBytes (status : Nat) : List Byte := leBytes 2 status

/-- The route entry of a destination (R259, ZLK_ROUTE). -/
def State.route (s : State) (dst : Nat) : BitVec 64 := s.fabric.routes.getD dst 0

/-- The route entry is VALID. -/
def routeValid (e : BitVec 64) : Bool := e.getLsbD 63

/-- The link of a route entry for a source and destination (R262). -/
def routeLink (e : BitVec 64) (src dst : Nat) : Nat :=
  let n := bitsOf e.toNat 62 61 + 1
  let j := (src + dst) % n
  bitsOf e.toNat (60 - 6 * j) (55 - 6 * j)

/-- The port of a link is in fabric mode (R248). -/
def State.fabricLink (s : State) (link : Nat) : Bool := !s.fabric.edge.contains (portOf link)

/-- The link on which a frame from a source to a destination leaves; none without a valid route, as one whose link's port is in edge
mode is to the model (R248, R262, log entry 67). -/
def State.wayTo (s : State) (src dst : Nat) : Option Nat :=
  let e := s.route dst
  if routeValid e && s.fabricLink (routeLink e src dst) then some (routeLink e src dst) else none

/-- The link by which frames of this device leave for another; 0 without a route. -/
def State.linkTo (s : State) (dev : Nat) : Nat := (s.wayTo s.fabric.id dev).getD 0

/-- A status reaches a facet as a NACK flit of the die that serves a link (R269). -/
def State.nackFacet (s : State) (link f tag inst : Nat) (gen : BitVec 16) (status : Nat) : State :=
  (s.raise blkZLK 0x50FF (some inst) f status).dieSend (8 + dieOfLink link) { fromDie (8 + dieOfLink link) f inst gen 5 with tag, last := true, payload := nackBytes status }

/-! ## Answers -/

/-- The side by which an answer leaves for the girdle die whose run holds a facet. Where a corner facet faces two dies, the header
does not name the sender's; the model takes the first of south, north, west and east (log entry 53). -/
def dieSide (x y : Nat) : Nat := (([1, 2, 3, 4] : List Nat).find? fun sd => (edgeDie x y sd).isSome).getD 0

/-- The answer to a flit: to its facet, or out of the mesh when a girdle die sent it (R117). -/
def answerTo (fl : Flit) (typ : Nat) (payload : List Byte) : Flit :=
  let a := fl.answer typ payload
  if fl.vc = 3 then { a with side := dieSide fl.sx fl.sy } else a

/-- Names a transfer at its destination: its source, TAG and FLOW. -/
def transferKey (fl : Flit) : Nat := fl.tag + 128 * (fl.flow + 256 * (fl.sx + 64 * fl.sy))

/-- A die refuses a flit, and the loupe records it (R117); what made the status 1 has been recorded where it was met (R167). -/
def State.mgNack (s : State) (k : Nat) (fl : Flit) (status : Nat) : State :=
  (if status = 1 then s else s.raise blkMEM 0x30FF (some fl.inst) k status).dieSend k (answerTo fl 5 (nackBytes status))

/-- A flit of an old generation is discarded and counted (R166). -/
def State.mgDiscard (s : State) (k : Nat) : State := s.modMemDie k fun d => { d with discard := min 0xFFFFFFFF (d.discard + 1) }

/-- Remembers the first refusal of a transfer that arrives (R127). -/
def State.mgRefuse (s : State) (k : Nat) (fl : Flit) (status : Nat) : State :=
  s.modMemDie k fun d => if d.refused.has (transferKey fl) then d else { d with refused := d.refused.put (transferKey fl) status }

/-- The answer to a WRITE flit with LAST: ACK once it has entered the queue, or the transfer's first refusal (R127, R164). -/
def State.mgLast (s : State) (k : Nat) (fl : Flit) : State :=
  if !fl.last then s
  else
    match (s.memDie k).refused.find (transferKey fl) with
    | some e => (s.modMemDie k fun d => { d with refused := Tbl.del d.refused (transferKey fl) }).mgNack k fl e
    | none => s.dieSend k (answerTo fl 4 [])

/-! ## Egress (R305 to R308) -/

/-- The rate of a link in Gb/s, from its port's SPLIT (R249). -/
def State.linkGbps (s : State) (link : Nat) : Nat :=
  match (s.port (portOf link)).split with | 0 => 800 | 1 => 400 | _ => 200

/-- A sub-port exists under its port's SPLIT (R249). -/
def subExists (split sub : Nat) : Bool := match split with | 0 => sub = 0 | 1 => decide (sub < 2) | _ => decide (sub < 4)

/-- Bytes queued. -/
def queuedBytes (fs : List TxFrame) : Nat := (fs.map (·.len)).sum

/-- Bytes queued on the links of a network-girdle die. -/
def State.dieQueued (s : State) (die : Nat) : Nat :=
  (s.traffic.queues.map fun e => if e.1 / 4096 = die then queuedBytes e.2.frames else 0).sum +
  (s.traffic.dflt.map fun e => if e.1 / 128 = die then queuedBytes e.2.frames else 0).sum +
  (s.traffic.ctrl.map fun e => if e.1 / 16 = die then queuedBytes e.2.frames else 0).sum

/-- Bytes of a die's egress buffer (R308). -/
def egressBuffer : Nat := 0x0200_0000

/-- Adds 1 to TMS_DROPn of a die. -/
def State.tmsDrop (s : State) (die n : Nat) (by_ : Nat := 1) : State :=
  { s with traffic := { s.traffic with drops := s.traffic.drops.bumpSat (3 * die + n) (2 ^ 64 - 1) by_ } }

/-- What became of a frame offered to a link. -/
inductive Egress where
  | done (s : State)
  | wait
  deriving DecidableEq, Repr

/-- A queue with room takes the frame, otherwise it is dropped or the sender waits (R308). -/
def roomFor (len used limit : Nat) (dieUsed : Nat) : Bool :=
  decide (used + len ≤ limit) && decide (dieUsed + len ≤ egressBuffer)

/-- Places a frame bound for a link and class (R307, R308). `ctl` names the control queue, `waits` says that the sender
waits for room. -/
def State.egress (s : State) (link cls : Nat) (inst : Option Nat) (ctl waits : Bool) (body : TxBody) (len : Nat)
    (mark : Option (Nat × BitVec 24) := none) : Egress :=
  let die := dieOfLink link
  let f : TxFrame := { body, len, inst := inst.map fun i => (i, s.genOf i), mark }
  let t := s.traffic
  let used := s.dieQueued die
  let full (s' : State) : Egress := if waits then .wait else .done (s'.tmsDrop die 1)
  if ctl then
    let q := t.ctrl.getD link LinkQueue.initial
    if q.frames.length < 64 ∧ used + len ≤ egressBuffer then
      .done { s with traffic := { t with ctrl := t.ctrl.put link { q with frames := q.frames ++ [f] } } }
    else full { s with traffic := { t with ctrl := t.ctrl.put link { q with drops := min 0xFFFFFFFF (q.drops + 1) } } }
  else
    let named := inst.bind fun i => t.iqmap.find (512 * link + 8 * i + cls)
    match named with
    | some q =>
      let key := 1024 * portOf link + q
      let e := t.queues.getD key EgressQueue.initial
      if !e.enable || e.stopped || e.sub ≠ link % 4 || e.cls ≠ cls then .done (s.tmsDrop die 0)
      else if roomFor len (queuedBytes e.frames) (16384 * ((e.visit.map (·.limit)).getD e.limit)) used then
        .done { s with traffic := { t with queues := t.queues.put key { e with frames := e.frames ++ [f] } } }
      else full { s with traffic := { t with queues := t.queues.put key { e with drops := min 0xFFFFFFFF (e.drops + 1) } } }
    | none =>
      let key := 8 * link + cls
      let e := t.dflt.getD key LinkQueue.initial
      if roomFor len (queuedBytes e.frames) 262144 used then
        .done { s with traffic := { t with dflt := t.dflt.put key { e with frames := e.frames ++ [f] } } }
      else full { s with traffic := { t with dflt := t.dflt.put key { e with drops := min 0xFFFFFFFF (e.drops + 1) } } }

/-- Places a frame whose sender does not wait. -/
def State.egressDrop (s : State) (link cls : Nat) (inst : Option Nat) (ctl : Bool) (body : TxBody) (len : Nat) : State :=
  match s.egress link cls inst ctl false body len with
  | .done s' => s'
  | .wait => s

/-! ## Zaren frames and flows (R251, R262 to R266) -/

/-- A Zaren frame from this device with every other field zero. -/
def State.zblank (s : State) (typ dst : Nat) : ZFrame :=
  { version := 1, typ, last := false, sig := false, tokn := 0, hops := s.fabric.hops, tag := 0, dst, src := s.fabric.id,
    job := 0, inst := 0, psn := 0, sfx := 0, sfy := 0, avalid := false, aclass := 0, apsn := 0, addr := 0, rsx := 0,
    rsy := 0, tokc := 0, pcp := if 1 ≤ typ ∧ typ ≤ 4 then 7 else 6, rsv := 0, lenOk := true, payload := [] }

/-- The key of a flow to a device in class TC6 or TC7 (R263). -/
def flowKey (dev cls : Nat) : Nat := 2 * dev + bit (cls = 7)

/-- A frame takes the pending acknowledgement of its peer (R264). -/
def State.withAck (s : State) (z : ZFrame) : ZFrame × State :=
  let due (cls : Nat) : Bool := decide (0 < (s.flow (flowKey z.dst cls)).rxDue)
  let stamp (cls : Nat) : ZFrame × State :=
    let k := flowKey z.dst cls
    ({ z with avalid := true, aclass := bit (cls = 7), apsn := (s.flow k).rxNext - 1 },
     s.modFlow k fun f => { f with rxDue := 0, rxSince := none })
  if due 7 then stamp 7 else if due 6 then stamp 6 else (z, s)

/-- Puts an own frame on its route, in its class (R262, R307). -/
def State.putZ (s : State) (z : ZFrame) (waits : Bool) : Egress :=
  match s.wayTo s.fabric.id z.dst with
  | some l => s.egress l z.pcp z.instOf z.ctl waits (.zaren z) z.wire
  | none => .done s

/-- Adds 1 to ZLK_DISCARDn. -/
def State.zDiscard (s : State) (n : Nat) : State :=
  { s with fabric := { s.fabric with discards := s.fabric.discards.bumpSat n (2 ^ 64 - 1) } }

/-- The MAC address of a neighbour's link (R249). -/
def Adjacency.mac (a : Adjacency) : List Byte := [0x02] ++ (leBytes 8 a.key.toNat).take 4 ++ beBytes 1 a.rlink

/-- The destination address of a Zaren frame on a link: a hello's group address (R255), else that of the neighbour there; of several,
that of the device that DST names. Where no adjacency tells which, the spec gives no address and the model takes a free value (log
entry 67). -/
def State.zarenTo (s : State) (link : Nat) (z : ZFrame) : List Byte × State :=
  let as_ := s.fabric.adjs.filter fun a => a.link = link && a.up
  if z.typ = 0xA then
    (if s.fabric.switched.contains link then [0x03, 0, 0, 0x5A, 0x52, 0x01] else [0x01, 0x80, 0xC2, 0, 0, 0x0E], s)
  else match as_, as_.find? fun a => a.id = z.dst with
    | [a], _ => (a.mac, s)
    | _, some a => (a.mac, s)
    | _, none => let (v, s) := s.takeFree; (leBytes 6 v, s)

/-- The tag, EtherType, header and payload of a Zaren frame (R251). -/
def State.zarenBody (s : State) (z : ZFrame) : List Byte :=
  [0x81, 0x00] ++ beBytes 2 (8192 * z.pcp + s.fabric.vid) ++ beBytes 2 s.fabric.etype.toNat ++ z.header ++ z.payload

/-- A Zaren frame begins on a link: its bytes up to the FCS leave, filled to 60 (R251). -/
def State.emitZaren (s : State) (link : Nat) (z : ZFrame) : State :=
  let (to_, s) := s.zarenTo link z
  s.emit (.zaren link z (padTo 60 (to_ ++ linkMac link ++ s.zarenBody z)))

/-- A frame of a transfer finds no valid route: the transfer ends with NACK 0x0022, once (R269). -/
def State.noRoute (s : State) (z : ZFrame) : State :=
  let f := facetAt z.sfx z.sfy
  if (s.facet f).xfers.any fun t => t.tag = z.tag && t.peer.isSome then s.nackFacet 0 f z.tag (s.facet f).who.1 (s.facet f).who.2 0x22
  else s

/-- Sends a frame without a PSN along its route. -/
def State.sendZ (s : State) (z : ZFrame) : State :=
  match s.putZ z false with
  | .done s' => s'
  | .wait => s

/-! ## Frames that cross the table between network-girdle dies (R122, R262) -/

/-- Names the stream of frames that reaches a die: the die, and the stream's entry facet and FLOW. -/
def crossKey (d : Nat) (fl : Flit) : Nat := d + 16 * (fl.flow + 256 * (fl.sx + 64 * fl.sy))

/-- A frame crosses from one network-girdle die to another in WRITE flits on channel 3, from its tag on. What the flits hold besides
FLOW the spec leaves open (DESIGN CHOICE, log entry 67). -/
def State.crossOut (s : State) (g h : Nat) (z : ZFrame) : State :=
  let flow := (z.src ^^^ z.dst) % 256
  let a := runAt g flow
  let b := runAt h flow
  let bs := padMul 16 (s.zarenBody z)
  let n := (bs.length + 127) / 128
  (List.range n).foldl (fun s j =>
    let p := slice bs (128 * j) 128
    s.dieSend g { Flit.blank with
      vc := 3, dx := facetX b, dy := facetY b, side := (dieRun h).1, sx := facetX a, sy := facetY a, inst := z.inst
      gen := s.genOf z.inst, last := decide (j + 1 = n), units := unitsOf p.length, flow, payload := p }) s

/-- A flit of a crossing frame reaches its die; the last one completes the frame, which goes to the egress queue of its route. -/
def State.crossIn (s : State) (d : Nat) (fl : Flit) : State :=
  let k := crossKey d fl
  let bs := s.fabric.crossing.getD k [] ++ fl.data
  if !fl.last then { s with fabric := { s.fabric with crossing := s.fabric.crossing.put k bs } }
  else
    let s : State := { s with fabric := { s.fabric with crossing := Tbl.del s.fabric.crossing k } }
    let z : ZFrame := { ZFrame.read (beNat (slice bs 2 2) / 8192) 6 bs with lenOk := true }
    match s.wayTo z.src z.dst with
    | some l => s.egressDrop l z.pcp none z.ctl (.zaren z) z.wire
    | none => s.zDiscard 1

/-- Moves waiting frames of a flow into transmission while fewer than 1,024 are unacknowledged and the queue has room
(R264, R265, R308). The transmission count starts when the frame leaves the link. A transfer whose frame has no route ends there, and
its frames that wait are dropped (R269). -/
def State.pumpFlow (s : State) (k : Nat) : Nat → State
  | 0 => s
  | n + 1 =>
    let f := s.flow k
    match f.waiting with
    | [] => s
    | z :: rest =>
      if f.failed || 1024 ≤ f.unacked.length then s
      else if z.transfer && (s.wayTo s.fabric.id z.dst).isNone then
        State.pumpFlow ((s.modFlow k fun f =>
          { f with waiting := rest.filter fun y => !(y.transfer && y.tag = z.tag && y.sfx = z.sfx && y.sfy = z.sfy) }).noRoute z) k n
      else
        let z := { z with psn := f.txNext }
        let (z, s1) := s.withAck z
        match s1.putZ z true with
        | .wait => s
        | .done s2 =>
          let s3 := s2.modFlow k fun f =>
            { f with waiting := rest, txNext := f.txNext + 1, unacked := f.unacked ++ [{ frame := z, count := 1, sent := s.now }] }
          State.pumpFlow s3 k n

/-- Sends a frame with a PSN on the flow of its destination and class (R263). -/
def State.sendFlow (s : State) (z : ZFrame) : State :=
  let k := flowKey z.dst z.pcp
  let s := s.modFlow k fun f => { f with waiting := f.waiting ++ [z] }
  s.pumpFlow k (s.flow k).waiting.length

/-- Every flow moves what it can. -/
def State.pumpAll (s : State) : State :=
  s.fabric.flows.foldl (fun s e => if e.2.waiting.isEmpty then s else s.pumpFlow e.1 e.2.waiting.length) s

/-! ## Job messages (R277, R278) -/

/-- The payload of a CTRL frame. Like every Zaren payload it is little-endian (DESIGN CHOICE, log entry 57). -/
def ctrlBytes (code rank arg arg2 arg3 : Nat) (hash : List Byte) : List Byte :=
  [BitVec.ofNat 8 code, 0] ++ leBytes 2 rank ++ zeros 4 ++ leBytes 8 arg ++ leBytes 8 arg2 ++ leBytes 8 arg3 ++ padTo 32 hash

/-- A CTRL frame of a job to a rank. -/
def State.ctrlTo (s : State) (p : Nat) (c : Cut) (rank code arg arg2 arg3 : Nat) (hash : List Byte) : State :=
  let x := s.parcel p
  s.sendFlow { s.zblank 8 (c.ranktab.getD rank 0xFFFF) with
    job := c.job, inst := x.inst, payload := ctrlBytes code c.rank arg arg2 arg3 hash }

/-- A message to every other rank of the job. -/
def State.ctrlAll (s : State) (p : Nat) (c : Cut) (code arg arg2 : Nat) : State :=
  (List.range c.jobSize).foldl (fun s r => if r = c.rank then s else s.ctrlTo p c r code arg arg2 0 []) s

/-- The children of a rank in the tree of R140. -/
def Cut.children (c : Cut) : List Nat := ([2 * c.rank + 1, 2 * c.rank + 2]).filter fun r => decide (r < c.jobSize)

/-- The parent of a rank. -/
def Cut.parent (c : Cut) : Nat := (c.rank - 1) / 2

/-- A message to every child. -/
def State.ctrlChildren (s : State) (p : Nat) (c : Cut) (code arg arg2 arg3 : Nat) (hash : List Byte := []) : State :=
  c.children.foldl (fun s r => s.ctrlTo p c r code arg arg2 arg3 hash) s

/-- A message to the parent. -/
def State.ctrlParent (s : State) (p : Nat) (c : Cut) (code arg arg2 : Nat) (hash : List Byte := []) : State :=
  s.ctrlTo p c c.parent code arg arg2 0 hash

/-! ## Facets of a parcel -/

/-- The facets of a parcel in row-major order of parcel position (R208): its place and size count 4 × 4 blocks. -/
def Parcel.facets (x : Parcel) : List Nat :=
  (List.range (4 * x.gh)).flatMap fun dy => (List.range (4 * x.gw)).map fun dx => facetAt (4 * x.gx + dx) (4 * x.gy + dy)

/-- The facet at a parcel-relative position. -/
def Parcel.facetOf (x : Parcel) (dx dy : Nat) : Nat := facetAt (4 * x.gx + dx) (4 * x.gy + dy)

/-- The parcel that holds a facet. -/
def State.parcelOf (s : State) (f : Nat) : Option Nat :=
  (s.parcels.find? fun e => e.2.valid && e.2.facets.contains f).map (·.1)

/-- The job runs here: started and not ended. -/
def Parcel.jobOn (x : Parcel) : Bool := x.cut.isSome && x.run.started.isSome && x.run.reason = 0

/-- The state of a parcel: that of its facets, FAULTED as soon as one is. While its job runs, a parcel whose facets are all
Done is Running, or Paused at a pause. -/
def State.parcelState (s : State) (p : Nat) : FacetState :=
  let x := s.parcel p
  let fs := x.facets
  if fs.any fun f => (s.facet f).state = .faulted then .faulted
  else if fs.any fun f => (s.facet f).state = .paused then .paused
  else if fs.any fun f => (s.facet f).state = .running then .running
  else if x.jobOn && x.run.released then (if x.run.pausedAt.isSome then .paused else .running)
  else (s.facet (fs.headD 0)).state

end Sys2Proof.Machine
end

