-- ==== Sys2Proof/Machine/Endpoint.lean ====
section
/-! DEFINITION. What the endpoint does for its functions (spec/15): error reporting, interrupts, and the bus accesses of the
users that address the host by bus address. -/

namespace Sys2Proof.Machine

/-! ## Functions -/

/-- The function bound to an instance (R380). -/
def State.fnOf (s : State) (i : Nat) : Option Nat := (List.range 64).find? fun n => decide ((s.fn n).bound = some i)

/-- Adds 1 to PCE_STATn. -/
def State.pceStat (s : State) (n : Nat) : State := { s with pcie := { s.pcie with stats := s.pcie.stats.bump n } }

/-- Why a bus access of a function cannot be issued (R389): 1 LINK_DOWN, 2 NO_MASTER. -/
def State.masterReason (s : State) (fn : Nat) : Option Nat :=
  if !s.pcie.linkUp then some 1 else if !s.mayMaster fn || (s.fn fn).bound.isNone then some 2 else none

/-- A master access that cannot be issued is counted and recorded (R389). -/
def State.masterRefused (s : State) (fn reason : Nat) : State := (s.pceStat 7).raise blkPCE 0x90FF (s.fn fn).bound fn reason

/-- A user that addresses the host by bus address writes (R389, R390). -/
def State.busWrite (s : State) (fn bus : Nat) (bs : List Byte) : State × Bool :=
  match s.masterReason fn with
  | some r => (s.masterRefused fn r, false)
  | none => (s.masterWrite fn bus bs, true)

/-- A user that addresses the host by bus address reads; the bytes come from outside (log entry 9). -/
def State.busRead (s : State) (fn bus n : Nat) : Option (List Byte) :=
  match s.masterReason fn with
  | some _ => none
  | none => some ((List.range n).map fun j => Config.hostByte s.now s.emitted.length (bus + j))

/-! ## Errors (R398, R399) -/

/-- Bits of the uncorrectable error status that the endpoint detects. -/
def erDataLink : Nat := 4
def erPoisoned : Nat := 12
def erTimeout : Nat := 14
def erAbort : Nat := 15
def erUnexpected : Nat := 16
def erMalformed : Nat := 18
def erUnsupported : Nat := 20
def erInternal : Nat := 22

/-- A function's message of an error class: 1 ERR_COR, 2 ERR_NONFATAL, 3 ERR_FATAL, as Device Control enables (R399). -/
def State.errMessage (s : State) (fn cls : Nat) : State :=
  if (s.fn fn).devCtl.getLsbD (cls - 1) then s.emit (.message fn cls) else s

/-- A correctable error (R398). -/
def State.aerCor (s : State) (fn b : Nat) : State :=
  let a := (s.fn fn).aer
  let s := (s.modFn fn fun x => { x with aer := { a with cstat := a.cstat ||| BitVec.ofNat 32 (2 ^ b) } }).raise blkPCE 0x90FF
    (s.fn fn).bound fn (0x100 + b)
  if a.cmask.getLsbD b then s else s.errMessage fn 1

/-- An uncorrectable error (R398, R399); `advisory` where PCIe 6.0 calls the case advisory non-fatal. The header of the first
unmasked one is logged; no command carries a TLP's header, so it is a free value (log entry 7). -/
def State.aerUncor (s : State) (fn b : Nat) (advisory : Bool := false) : State :=
  let a := (s.fn fn).aer
  let m : BitVec 32 := BitVec.ofNat 32 (2 ^ b)
  let masked := a.umask.getLsbD b
  let first := !masked && decide (a.ustat &&& ~~~a.umask = 0)
  let again := !masked && a.ustat.getLsbD b
  let (v, s) := if first then s.takeFree else (0, s)
  let a' : Aer := { a with ustat := a.ustat ||| m, hdr := if first then leBytes 16 v else a.hdr, first := if first then b else a.first }
  let s := (s.modFn fn fun x => { x with aer := a' }).raise blkPCE 0x90FF (s.fn fn).bound fn b
  let s := if again then s.aerCor fn 15 else s
  if advisory && !a.usev.getLsbD b then s.aerCor fn 13
  else if masked then s
  else s.errMessage fn (if a.usev.getLsbD b then 3 else 2)

/-! ## MSI-X (R382, R395) -/

/-- Vectors in a function's table. -/
def vectors (fn : Nat) : Nat := if fn = 0 then 2048 else 64

/-- A vector that no write has set up is masked (log entry 5). -/
def PceFn.vector (x : PceFn) (v : Nat) : MsixVec := x.msix.getD v { addr := 0, data := 0, masked := true, pending := false }

/-- Writes a vector. -/
def State.putVector (s : State) (fn v : Nat) (y : MsixVec) : State := s.modFn fn fun x => { x with msix := x.msix.put v y }

/-- A vector is signalled: a message leaves, or it becomes pending (R382, R395). A vector beyond the table signals nothing. -/
def State.msix (s : State) (fn v : Nat) : State :=
  let x := s.fn fn
  if vectors fn ≤ v ∨ !x.msixEn then s
  else if x.msixMask || (x.vector v).masked || (s.masterReason fn).isSome then s.putVector fn v { x.vector v with pending := true }
  else s.emit (.msix fn v)

/-- Pending vectors of a function that may now be sent are sent. -/
def State.flushMsix (s : State) (fn : Nat) : State :=
  (s.fn fn).msix.foldl (fun s e =>
    if e.2.pending && !e.2.masked && (s.fn fn).msixEn && !(s.fn fn).msixMask && (s.masterReason fn).isNone then
      (s.putVector fn e.1 { e.2 with pending := false }).emit (.msix fn e.1)
    else s) s

/-! ## PME events (R401) -/

/-- A PME event of a function: PME_Status is set where PME_En is, and the host is told by PM_PME, or by WAKE_N when the link is
in L2, with PERST_N asserted or not. -/
def State.pmeEvent (s : State) (fn : Nat) : State :=
  if !(s.fn fn).pmeEn then s
  else
    let s := s.modFn fn fun x => { x with pmeStat := true }
    if s.pcie.linkUp then s.emit (.message fn 4)
    else if (s.pcie.link = .l23 || s.pins.perst) && !s.pcie.wakeN then
      ({ s with pcie := { s.pcie with wakeN := true } }).emit (.pin "WAKE_N" false)
    else s

/-! ## Mailbox rings (R230, R382) -/

/-- A ring length that programs the rings. -/
def ringLenOk (n : Nat) : Bool := decide (0x1_0000 ≤ n ∧ n ≤ 0x100_0000) && decide (2 ^ Nat.log2 n = n)

/-- The function of a mailbox channel (R228). -/
def mailboxFn (ch : Nat) : Option Nat := if 2 ≤ ch ∧ ch < 66 then some (ch - 2) else none

/-- Writes a reply in a mailbox's reply ring, with a pad record where it does not fit, advances PROD and signals the vector. Answers
none while the ring, by the CONS last seen, has no room (R230). -/
def State.mailboxPut (s : State) (ch fn : Nat) (bytes : List Byte) : Option State :=
  let x := s.fn fn
  let c := s.chan ch
  let n := x.mbLen
  let base := x.mbRep.toNat
  let rec_ := padMul 64 bytes
  let wraps := decide (n < c.prod + rec_.length)
  if ringRoom c.prod c.repCons n ≤ (if wraps then n - c.prod else 0) + rec_.length then none
  else
    let s := if wraps then (s.busWrite fn (base + 64 + c.prod) (zeros 64)).1 else s
    let at_ := if wraps then 0 else c.prod
    let s := (s.busWrite fn (base + 64 + at_) rec_).1
    let next := (at_ + rec_.length) % n
    let s := (s.busWrite fn base (leBytes 8 next)).1
    some ((s.modChan ch fun c => { c with prod := next }).msix fn x.mbVec)

end Sys2Proof.Machine
end

