-- ==== Sys2Proof/Machine/Reply.lean ====
section
/-! DEFINITION. Replies to commands (spec/09): building, retaining, replaying and emitting them on their transports; the end of a
command that was in progress. -/

namespace Sys2Proof.Machine

/-! ## Packets of the management port (R228, R288) -/

/-- The one's-complement sum of 16-bit words. -/
def onesSum : List Byte → Nat
  | a :: b :: t => let v := 256 * a.toNat + b.toNat + onesSum t; v % 65536 + v / 65536
  | [a] => 256 * a.toNat
  | [] => 0

/-- The Internet checksum of bytes. -/
def inetSum (bs : List Byte) : Nat := 65535 - onesSum bs

/-- The MAC address of the management port. -/
def mgmtMac : List Byte := [0x02] ++ deviceKey.take 4 ++ [0x40]

/-- The link-local address of the management port, by modified EUI-64. -/
def linkLocal : List Byte := [0xFE, 0x80, 0, 0, 0, 0, 0, 0, 0x00] ++ deviceKey.take 2 ++ [0xFF, 0xFE] ++ (deviceKey.drop 2).take 2 ++ [0x40]

/-- The addresses of the port: NET_MGMT_IP4, NET_MGMT_IP6. -/
def State.mgmtIp4 (s : State) : List Byte := leBytes 4 s.eth.mgmtIp4.toNat
def State.mgmtIp6 (s : State) : List Byte := leBytes 8 s.eth.mgmtIp6a.toNat ++ leBytes 8 s.eth.mgmtIp6b.toNat

/-- A frame leaves the management port, filled to 60 bytes. -/
def State.mgmtSend (s : State) (to_ : List Byte) (et : Nat) (body : List Byte) : State :=
  s.emit (.mgmt (padTo 60 (to_ ++ mgmtMac ++ beBytes 2 et ++ body)))

/-- An IPv4 packet leaves the management port. Its identification and time to live are free values (log entry 7). -/
def State.ip4Send (s : State) (mac own dst : List Byte) (proto : Nat) (body : List Byte) : State :=
  let (v, s) := s.takeFree
  let front := [0x45, 0] ++ beBytes 2 (20 + body.length) ++ beBytes 2 v ++ [0, 0] ++ beBytes 1 (v / 65536) ++ beBytes 1 proto
  s.mgmtSend mac 0x0800 (front ++ beBytes 2 (inetSum (front ++ [0, 0] ++ own ++ dst)) ++ own ++ dst ++ body)

/-- An IPv6 packet leaves the management port. -/
def State.ip6Send (s : State) (mac own dst : List Byte) (proto hop : Nat) (body : List Byte) : State :=
  s.mgmtSend mac 0x86DD ([0x60, 0, 0, 0] ++ beBytes 2 body.length ++ beBytes 1 proto ++ beBytes 1 hop ++ own ++ dst ++ body)

/-- The pseudo-headers of a checksum. -/
def pseudo4 (from_ own : List Byte) (n proto : Nat) : List Byte := from_ ++ own ++ [0] ++ beBytes 1 proto ++ beBytes 2 n
def pseudo6 (from_ own : List Byte) (n proto : Nat) : List Byte := from_ ++ own ++ beBytes 4 n ++ [0, 0, 0] ++ beBytes 1 proto

/-- The source of a datagram as one number: its port, its address in 128 bits, whether it is IPv6, whether it was sent to the link-local
address, and the MAC address it came from (log entry 66). -/
def sourceNo (v6 ll : Bool) (addr : List Byte) (port : Nat) (mac : List Byte) : Nat :=
  port + 2 ^ 16 * leNat addr + 2 ^ 144 * bit v6 + 2 ^ 145 * bit ll + 2 ^ 146 * leNat mac

/-- The address and port of a datagram's source, by which channel 0 knows it (R245). -/
def sourceKey (n : Nat) : Nat := n % 2 ^ 145

/-- A reply of channel 0 leaves as a UDP datagram to its command's source (R228, R288). -/
def State.mgmtReply (s : State) (dst : Nat) (bytes : List Byte) : State :=
  let mac := leBytes 6 (dst / 2 ^ 146)
  let n := 8 + bytes.length
  let udp (sum : Nat) := beBytes 2 (s.chan 0).udpPort ++ beBytes 2 dst ++ beBytes 2 n ++ beBytes 2 sum ++ bytes
  let filled (pseudo : List Byte) := let v := inetSum (pseudo ++ udp 0); udp (if v = 0 then 65535 else v)
  if bitAt dst 144 then
    let to_ := leBytes 16 (dst / 2 ^ 16)
    let own := if bitAt dst 145 then linkLocal else s.mgmtIp6
    let (v, s) := s.takeFree
    s.ip6Send mac own to_ 17 v (filled (pseudo6 own to_ n 17))
  else
    let to_ := leBytes 4 (dst / 2 ^ 16)
    s.ip4Send mac s.mgmtIp4 to_ 17 (filled (pseudo4 s.mgmtIp4 to_ n 17))

/-! ## MCTP messages (R228) -/

/-- The Vendor ID of the endpoint (R381). -/
def vendorId : Nat := 0x1F9C

/-- A reply of channel 1 leaves as an MCTP message of type 0x7E, with the integrity-check bit 0, to the request's endpoint ID with its
tag and the tag-owner bit clear. A source's number on channel 1 is its endpoint ID and, in bits 10:8, the message tag; the vendor
identifier is in network byte order, as DSP0236 has it (log entry 66). -/
def State.mctpReply (s : State) (dst : Nat) (bytes : List Byte) : State :=
  s.emit (.mctp (dst % 256) (dst / 256 % 8) false ([0x7E] ++ beBytes 2 vendorId ++ bytes))

/-! ## Emission -/

/-- A packet's bytes with its CRC (R225). -/
def packetBytes (opcode flags seq status detail rseq elapsed : Nat) (params : List Byte) : List Byte :=
  let front := leBytes 2 opcode ++ leBytes 1 1 ++ leBytes 1 flags ++ leBytes 4 seq ++ leBytes 4 params.length ++
    leBytes 2 status ++ leBytes 2 0 ++ leBytes 4 detail
  let back := leBytes 4 rseq ++ leBytes 4 elapsed ++ params
  front ++ leBytes 4 (crc32c (front ++ zeros 4 ++ back)) ++ back

/-- Microseconds from arrival to emission, saturating (R225). -/
def elapsedUs (now at_ : Nat) : Nat := min 0xFFFFFFFF ((now - at_) / 1000)

/-- A channel enters Error (R231): it fetches nothing and its replies are not written. -/
def State.chanError (s : State) (ch : Nat) : State :=
  (s.modChan ch fun c => { c with state := .error, held := [] }).raise blkBZL 0x0004 ((s.chan ch).bound) ch 0

/-- The channel emits no reply to this command: it is disabled or in Error, or the reply belongs to an older generation (R213, R228,
R231, R239). -/
def State.replyDead (s : State) (ch : Nat) (h : HeldReply) : Bool :=
  (s.chan ch).state = .disabled || (s.chan ch).state = .error || decide (s.genOf h.inst ≠ h.gen)

/-- The reply takes the channel's next RSEQ (R232). -/
def State.numbered (s : State) (ch dst : Nat) (bytes : List Byte) : State :=
  (s.modChan ch fun c => { c with rseq := c.rseq + 1 }).emit (.reply ch dst bytes)

/-- Emits one reply on its channel's transport, or discards a dead one, which takes no RSEQ; none while it must wait, in D3hot (R400)
or for room in the reply ring. A reply on a management link that is down is lost, as is one of a mailbox without rings. -/
def State.emitOne (s : State) (ch : Nat) (h : HeldReply) : Option State :=
  if s.replyDead ch h then some s
  else
    let c := s.chan ch
    let bytes := packetBytes h.opcode h.flags h.seq.toNat h.status h.detail c.rseq.toNat (elapsedUs s.now h.at_) h.params
    match mailboxFn ch with
    | some fn =>
      if (s.fn fn).d3 then none
      else if !ringLenOk (s.fn fn).mbLen then some s
      else (s.numbered ch h.dst bytes).mailboxPut ch fn bytes
    | none =>
      if ch = 0 then
        let s := s.numbered ch h.dst bytes
        some (if s.eth.mgmtUp then s.mgmtReply h.dst bytes else s)
      else if ch = 1 then some ((s.numbered ch h.dst bytes).mctpReply h.dst bytes)
      else if 130 ≤ ch then
        some ((s.numbered ch h.dst bytes).sendFlow { s.zblank 9 h.dst with inst := c.bound.getD 0, payload := bytes })
      else
        match s.ringPut clsHost (ch - 66) c.repRing c.ringLen c.prod 64 bytes (zeros 64) with
        | .ok s2 p => some ((s2.modChan ch fun c => { c with prod := p }).numbered ch h.dst bytes)
        | .full => none
        | .bad s2 => some (s2.chanError ch)

/-- Emits replies in their order until one must wait; it and those behind it are held. -/
def State.flushGo (ch : Nat) : List HeldReply → State → State
  | [], s => s.modChan ch fun c => { c with held := [] }
  | h :: t, s =>
    match s.emitOne ch h with
    | some s' => State.flushGo ch t s'
    | none => s.modChan ch fun c => { c with held := h :: t }

/-- Emits what a channel holds (R230, R232, R400). -/
def State.flushReplies (s : State) (ch : Nat) : State := State.flushGo ch (s.chan ch).held s

/-- A reply is ready: it is emitted behind those held before it. One that is held in D3hot is a PME event (R400, R401). -/
def State.emitReply (s : State) (ch : Nat) (h : HeldReply) : State :=
  if s.replyDead ch h then s
  else
    let s := s.modChan ch fun c => { c with held := c.held ++ [h] }
    (match mailboxFn ch with
     | some fn => if (s.fn fn).d3 then s.pmeEvent fn else s
     | none => s).flushReplies ch

/-- Reply flag bits (R225). -/
def fReply : Nat := 1
def fReplay : Nat := 2
def fStale : Nat := 4

/-- The reply of a command in progress leaves: not at all when its sender's generation is old (R239), with STALE and
unretained after a SYS_SYNC (R236), else retained with those of the last 16 consumed numbers (R234). -/
def State.sendResult (s : State) (ch : Nat) (e : InProgress) (status detail : Nat) (params : List Byte) : State :=
  if s.genOf e.inst ≠ e.gen then s
  else
    let s := if e.stale then s
      else s.modChan ch fun c =>
        { c with
          kept := ({ seq := e.seq, crc := e.crc, opcode := e.opcode, status, detail, params, inst := e.inst, gen := e.gen } :: c.kept).filter
            fun k => decide ((c.e - k.seq - 1).toNat < 16) }
    s.emitReply ch
      { dst := e.src, opcode := e.opcode, flags := fReply + if e.stale then fStale else 0, seq := e.seq, status, detail, at_ := e.at_
        inst := e.inst, gen := e.gen, params }

/-- Takes a command out of progress and sends its reply. -/
def State.finishOne (s : State) (ch id status detail : Nat) (params : List Byte) : State :=
  match (s.chan ch).inProg.find? fun e => e.id = id with
  | none => s
  | some e =>
    (s.modChan ch fun c => { c with inProg := c.inProg.filter fun e => e.id ≠ id }).sendResult ch e status detail params

/-- Answers, for each command that has ended and the RESULT it leaves, the SYS_ABORT commands that waited for it; a SYS_ABORT aimed at
one of these learns that its target ran to completion (R240). -/
def State.abortsGo (ch : Nat) : Nat → List (Nat × Nat) → State → State
  | n + 1, (id, result) :: t, s =>
    let ws := (s.chan ch).aborts.filter fun a => a.1 = id
    let s := s.modChan ch fun c => { c with aborts := c.aborts.filter fun a => a.1 ≠ id }
    let s := ws.foldl (fun s a => s.finishOne ch a.2 0 0 (leBytes 8 result)) s
    State.abortsGo ch n (t ++ ws.map fun a => (a.2, 2)) s
  | _, _, s => s

/-- Sends the replies to the SYS_ABORT commands that waited for a target (R240). -/
def State.finishAborts (s : State) (ch id result : Nat) : State := State.abortsGo ch ((s.chan ch).aborts.length + 1) [(id, result)] s

/-- A command in progress ends: its reply, then the replies to the aborts that ran it to completion (R240). -/
def State.finish (s : State) (w : Waiter) (status detail : Nat) (params : List Byte) : State :=
  (s.finishOne w.ch w.id status detail params).finishAborts w.ch w.id 2

/-- The command is still in progress. -/
def State.waiting (s : State) (w : Waiter) : Bool := (s.chan w.ch).inProg.any fun e => e.id = w.id

end Sys2Proof.Machine
end

