-- ==== Sys2Proof/Machine/Snapshot.lean ====
section
/-! DEFINITION. The facet state block of a checkpoint and the capture at a step boundary (spec/07). -/

namespace Sys2Proof.Machine

/-- FCT_FPFLAGS (spec/02). -/
def Facet.fpflags (x : Facet) : Nat := x.fpVec.toNat * 32 + x.fpMat.toNat

/-- The code of a tile's class in a state block (R185). -/
def classCode : Option AccClass → Nat
  | none => 0 | some .f => 1 | some .i => 2 | some .h => 3 | some .s => 4

/-- The class of a code. -/
def classOfCode (n : Nat) : Option AccClass :=
  match n with | 1 => some .f | 2 => some .i | 3 => some .h | 4 => some .s | _ => none

/-- The 256 bytes of a stream (R185). -/
def streamBlock (y : Stream) : List Byte :=
  let level (l : Nat) : List Byte :=
    match y.loops[l]? with
    | some v => leBytes 2 v.start ++ leBytes 2 v.len ++ leBytes 2 v.trip ++ leBytes 2 v.idx
    | none => zeros 8
  padTo 256 (leBytes 2 y.next ++ leBytes 1 y.loops.length ++ zeros 1 ++ (List.range 4).flatMap level ++
    (List.range 12).flatMap fun n => leBytes 2 (wrapInt 16 (y.steps.getD n 0)))

/-- The facet state block of 155,648 bytes (R185). -/
def facetBlock (x : Facet) : List Byte :=
  ((List.range 32).flatMap fun n => leBytes 2 (x.tok n)) ++ leBytes 8 x.tokown.toNat ++ leBytes 8 x.fpflags ++
  leBytes 2 x.peer ++ leBytes 1 (classCode (x.accClass.find 0)) ++ leBytes 1 (classCode (x.accClass.find 1)) ++ zeros 12 ++
  ((List.range 16).flatMap fun n => leBytes 6 (x.dregs.getD n 0).toNat) ++
  ((List.range 8).flatMap fun n => leBytes 8 (x.masks.getD n 0).toNat) ++
  ((List.range 4).flatMap fun n => streamBlock (x.stream n)) ++ zeros 2816 ++
  ((List.range 2048).flatMap fun n => leBytes 8 (x.vregs.getD n 0).toNat) ++
  ((List.range 4096).flatMap fun n => match x.acc.find n with
    | some c => leBytes 1 (bit c.nan + 2 * bit c.pinf + 4 * bit c.ninf) | none => zeros 1) ++
  ((List.range 4096).flatMap fun n => match x.acc.find n with | some c => leBytes 32 c.v.toNat | none => zeros 32)

/-- A table of the entries that differ from zero. -/
def tableOf {w : Nat} (n : Nat) (f : Nat → Nat) : Tbl (BitVec w) :=
  (List.range n).filterMap fun k => let v := BitVec.ofNat w (f k); if v = 0 then none else some (k, v)

/-- A stream read back from its 256 bytes, in the region it has. -/
def streamFrom (y : Stream) (b : List Byte) : Stream :=
  { y with
    next := fieldAt b 0 2
    loops := (List.range (fieldAt b 2 1)).map fun l =>
      { start := fieldAt b (4 + 8 * l) 2, len := fieldAt b (6 + 8 * l) 2, trip := fieldAt b (8 + 8 * l) 2, idx := fieldAt b (10 + 8 * l) 2 }
    steps := (List.range 12).filterMap fun n =>
      let z := signedOf 16 (fieldAt b (36 + 2 * n) 2); if z = 0 then none else some (n, z)
    stopped := false, atBeat := false, waiting := none }

/-- A facet with its captured state (R200). -/
def facetFrom (x : Facet) (b : List Byte) (beats : Nat) : Facet :=
  { x with
    beats := BitVec.ofNat 32 beats
    toks := (List.range 32).filterMap fun n => let v := fieldAt b (2 * n) 2; if v = 0 then none else some (n, v)
    tokown := BitVec.ofNat 64 (fieldAt b 0x40 8)
    fpVec := BitVec.ofNat 5 (fieldAt b 0x48 8 / 32), fpMat := BitVec.ofNat 5 (fieldAt b 0x48 8)
    peer := fieldAt b 0x50 2
    accClass := (List.range 2).filterMap fun t => (classOfCode (fieldAt b (0x52 + t) 1)).map fun c => (t, c)
    dregs := tableOf 16 fun n => fieldAt b (0x60 + 6 * n) 6
    masks := tableOf 8 fun n => fieldAt b (0xC0 + 8 * n) 8
    streams := (List.range 4).map fun n => (n, streamFrom (x.stream n) (slice b (0x100 + 256 * n) 256))
    vregs := tableOf 2048 fun n => fieldAt b (0x1000 + 8 * n) 8
    acc := (List.range 4096).filterMap fun n =>
      let fl := fieldAt b (0x5000 + n) 1
      let v := BitVec.ofNat 256 (fieldAt b (0x6000 + 32 * n) 32)
      if fl = 0 ∧ v = 0 then none else some (n, { v, nan := bitAt fl 0, pinf := bitAt fl 1, ninf := bitAt fl 2 }) }

/-- Bytes of a facet shard (R185). -/
def facetShard : Nat := 0x10_0000 + 155648

/-- The device ranges of an instance range when all of it translates to HBM, for reading or for writing (R187). -/
def State.hbmRanges (s : State) (i a n : Nat) : Option (List (Nat × Nat)) :=
  let ok (r : Except Nat (List (Nat × Nat))) : Option (List (Nat × Nat)) :=
    match r with
    | .ok rs => if rs.all fun r => decide (r.1 < hbmSize) then some rs else none
    | .error _ => none
  match ok (s.rangesOf i a n false) with
  | some rs => some rs
  | none => ok (s.rangesOf i a n true)

/-- Every region's device ranges, in order. -/
def State.regionSegs (s : State) (i : Nat) : List (Nat × Nat) → Option (List (Nat × Nat))
  | [] => some []
  | (a, n) :: t =>
    match s.hbmRanges i a n, State.regionSegs s i t with
    | some x, some y => some (x ++ y)
    | _, _ => none

/-- A stack that serves nothing lies in a range (R466). -/
def State.rangeDead (s : State) (a n : Nat) : Bool :=
  (List.range ((a + n - 1) / 1024 - a / 1024 + 1)).any fun j =>
    let k := s.stackOf ((a / 1024 + j) * 1024)
    (s.stack k).state = .failed || s.dieFailed (dieOfStack k)

/-- The device ranges of the save area, when all of it takes writes (R191): it translates to HBM for writing, and its stacks serve. -/
def State.saveRanges (s : State) (i a n : Nat) : Option (List (Nat × Nat)) :=
  match s.rangesOf i a n true with
  | .ok rs => if rs.all fun r => decide (r.1 < hbmSize) && !s.rangeDead r.1 r.2 then some rs else none
  | .error _ => none

/-- Writes bytes over device ranges; the save area takes whole units, and zeros as any other value. -/
def State.writeOver (s : State) : List (Nat × Nat) → List Byte → State
  | [], _ => s
  | (a, n) :: t, bs => State.writeOver (s.storeRaw a (bs.take n)).1 t (bs.drop n)

/-- Copies one facet's shard into the save area (R190): its scratchpad, then its state block (R185). -/
def State.saveFacet (s : State) (segs : List (Nat × Nat)) (f k : Nat) : State :=
  (s.metSpad f 0 0x10_0000).writeOver (segSlice segs (k * facetShard) facetShard)
    (s.readBytes (spadAddr f 0) 0x10_0000 ++ facetBlock (s.facet f))

/-- Why a capture fails (R191): codes of CKP_PSTAT.FAIL. The capture reads the scratchpads; uncorrectable data of a region is met by
the copier (R198). -/
def State.captureFault (s : State) (fs : List Nat) (segs save : Option (List (Nat × Nat))) : Nat :=
  match segs, save with
  | none, _ => 3
  | _, none => 6
  | some _, some sv =>
    if (sv.map (·.2)).sum < fs.length * facetShard then 6
    else if fs.any fun f => s.rangeBad (spadAddr f 0) 0x10_0000 then 1
    else 0

/-- Performs a held write (R192): a flit's is answered as R164 says once it is done; one of an old generation is dropped (R166). -/
def State.performHeld (s : State) (h : HeldWrite) : State :=
  let w := h.write
  if s.genOf w.inst ≠ w.gen then s
  else
    match h.flit with
    | none => (s.storeRaw w.addr w.data).1
    | some fl =>
      let k := dieOfStack (s.stackOf w.addr)
      let (s', ok) := (s.charge w.inst 2 (hbmBytes [(w.addr, w.data.length)])).storeRaw w.addr w.data
      (if ok then s' else (s'.ueLogRange 0 w.addr w.data.length).mgRefuse k fl 1).mgLast k fl

/-- Held writes go on in arrival order; one that meets a pending granule of another copy is held for that (R192). -/
def State.freeHeld (s : State) (hs : List HeldWrite) : State :=
  hs.foldl (fun s h => match s.pendingGranule h.write.addr with
    | some (q, e) => s.holdWrite q e h.write h.flit
    | none => s.performHeld h) s

/-- What a copy sends its job with, when the cut may be gone (R195). -/
def CkpMeta.asCut (m : CkpMeta) : Cut :=
  { identity := m.identity, jobHash := m.jobHash, timed := false, cycle := 0, guardNs := 0, slipMax := 0, beatLimit := 0
    jobSize := m.jobSize, rank := m.rank, job := m.job, ranktab := m.ranktab, ring := 0, ringLen := 0, gates := [], slots := [] }

/-- A copy is over: its marks, its save area and its requests are given up. -/
def Ckp.over (c : Ckp) : Ckp :=
  { c with
    active := false, hurt := false, segs := [], saveSegs := [], saved := [], digests := [], part := [], outs := [], posts := [], stage := 0
    phase := if c.phase = .capturing then .capturing else if c.announced.isEmpty then .idle else .announced
    conf := if c.dropConf then none else c.conf, dropConf := false }

/-- Records a failed checkpoint, frees its marks and save area, and tells rank 0 (R191, R197, R198). A capture that fails goes on to
its end, for the device is to be armed all the same (R191). -/
def State.ckpFail (s : State) (p code : Nat) : State :=
  let x := s.parcel p
  let step := match x.ckp.info with | some m => m.step | none => 0
  let s := s.raise blkCKP 0x4100 (some x.inst) step code
  let s := s.modCkp p fun c => { c.over with fail := code, held := [] }
  let s := s.freeHeld x.ckp.held
  match x.ckp.info with
  | some m =>
    if s.genOf m.inst ≠ m.gen then s
    else if m.rank = 0 then s.modCkp p fun c => { c with sealedBy := c.sealedBy ++ [(m.step, 0, false)] }
    else s.ctrlTo p m.asCut 0 0x0F m.step 0 0 []
  | none => s

/-- The capture of step s at the closure of its end beat (R190): the arm point, the marks, and the copy of every facet's
scratchpad and state into the save area. -/
def State.capture (s : State) (p : Nat) (c : Cut) : State :=
  let s := s.drainHbm
  let x := s.parcel p
  match x.ckp.conf with
  | none => s
  | some k =>
    let fs := x.facets
    let segs := s.regionSegs x.inst k.regions
    let save := s.saveRanges x.inst k.save k.saveLen
    let m : CkpMeta :=
      { step := x.run.step, beat := x.run.beat + 1, jobSize := c.jobSize, rank := c.rank, width := 4 * x.gw, height := 4 * x.gh,
        job := c.job, identity := c.identity, jobHash := c.jobHash, inst := x.inst, gen := s.genOf x.inst, ranktab := c.ranktab }
    let s := s.modCkp p fun y =>
      { y with
        announced := y.announced.filter (· ≠ x.run.step), info := some m
        nowStep := if y.nowStep = some x.run.step then none else y.nowStep, armedSelf := false, phase := .capturing
        timerAt := if c.rank = 0 ∧ 0 < k.periodMs then some (s.now + k.periodMs * 1000000) else none }
    let code := s.captureFault fs segs save
    if code ≠ 0 then
      (if code = 1 then fs.foldl (fun s f => s.countBad f 0 0x10_0000) s else s).ckpFail p code
    else
      let sv := save.getD []
      let s := (fs.zipIdx).foldl (fun s (f, j) => s.saveFacet sv f j) (s.charge x.inst 2 (fs.length * facetShard))
      s.modCkp p fun y =>
        { y with
          fail := 0, active := true, hurt := false, segs := segs.getD [], saveSegs := sv, saved := [], copied := 0, pos := 0, bytes := 0
          firstPlace := (fs.length * facetShard + ckpGranule - 1) / ckpGranule, digests := [], part := [], ckseq := y.ckseq + 1
          outs := [], posts := [], stage := 0
          slot := match y.keep with | none => 0 | some k => if y.slot0 = some k then 1 else 0 }

end Sys2Proof.Machine
end

