-- ==== Sys2Proof/Machine/Job.lean ====
section
/-! DEFINITION. The rail controller, accounting records, and the life of a job on this device: start, arrival,
closure, pause, stop, end (spec/05, spec/08 accounting, spec/17 rails). -/

namespace Sys2Proof.Machine

/-! ## The rail controller (R428 to R430) -/

/-- The rail ceiling of the order number in mV (R2). -/
def railCeiling : Nat := if Config.energyBinned then 620 else 750

/-- The cold-start demand in mV (R429). -/
def coldDemand : Nat := if Config.energyBinned then 620 else 700

/-- A field's ceiling: the lowest of the rail, thermal and cap ceilings (R428). -/
def State.fieldCeil (s : State) (f : Nat) : Nat := min railCeiling (min (s.pfield f).thermal (s.pfield f).cap)

/-- The parcel is in use with a facet in the field. -/
def Parcel.inField (x : Parcel) (f : Nat) : Bool := x.valid && x.facets.any fun g => fieldOf g = f

/-- The demand of a parcel in a field. -/
def State.demand (s : State) (p f : Nat) : Demand := s.power.demands.getD (6 * p + f) { mv := 0, calm := 0, changed := 0 }

/-- Writes a demand. -/
def State.putDemand (s : State) (p f : Nat) (d : Demand) : State :=
  { s with power := { s.power with demands := s.power.demands.put (6 * p + f) d } }

/-- Running parcels with facets in a field. -/
def State.runningIn (s : State) (f : Nat) : List Nat :=
  (s.parcels.filter fun e => e.2.inField f && s.parcelState e.1 = .running).map (·.1)

/-- Rounds up to 5 mV. -/
def ceil5 (v : Nat) : Nat := (v + 4) / 5 * 5

/-- The setpoint of a field (R428). -/
def State.fieldTarget (s : State) (f : Nat) : Nat :=
  match ((s.runningIn f).map fun p => (s.demand p f).mv).max? with
  | none => s.power.idlev
  | some d => min (ceil5 d) (s.fieldCeil f)

/-- Sends a rail its setpoint when it changes. -/
def State.setRail (s : State) (r mv : Nat) : State :=
  if (s.rail r).set = mv then s else (s.modRail r fun x => { x with set := mv }).emit (.rail r mv)

/-- No parcel runs and no gather descriptor is queued or in progress. -/
def State.noWork (s : State) : Bool :=
  !(s.parcels.any fun e => e.2.valid && s.parcelState e.1 = .running) && s.gather.dies.all fun e => e.2.jobs.isEmpty

/-- The entry conditions of Idle (R435). -/
def State.idleOk (s : State) : Bool := s.boot.phase = .running && !s.power.pfw && s.noWork

/-- The device moves to a rung, with its record (R434, RUNG of R464). -/
def State.toRung (s : State) (r : Nat) : State :=
  if s.power.rung = r then s
  else ({ s with power := { s.power with rung := r, idleSince := if r = 1 then some s.now else s.power.idleSince } }).raise
    blkPWR 0xB101 none s.power.rung r

/-- Between Run and Idle the device is at the deepest rung at or above the floor whose entry conditions hold (R435); a
power-fail warning keeps it from entering Idle only (R449). -/
def State.settle (s : State) : State :=
  if s.power.rung = 0 ∧ 1 ≤ s.power.floor ∧ s.idleOk then s.toRung 1
  else if s.power.rung = 1 ∧ !s.noWork then s.toRung 0
  else s

/-- Sets the six field rails as R428 states, at rungs 0 and 1; setpoints hold while the bezel starts an image (R446, R469). -/
def State.refreshRails (s : State) : State :=
  let s := s.settle
  if s.boot.phase = .running ∧ s.power.rung ≤ 1 ∧ s.boot.switching = false ∧ s.faults.bezelRestart = false then
    (List.range 6).foldl (fun s f => s.setRail f (s.fieldTarget f)) s
  else s

/-- The parcel has headroom (R221). Charges are in µJ; BUDGET × 1.6 ms is 1.6 µJ per mW. -/
def Parcel.headroom (x : Parcel) : Bool :=
  x.budget = 0 || (decide (0 < x.credit) && decide (1000 * (x.charges.take 16).sum < 95 * 16 * x.budget))

/-- Fields that hold facets of a parcel. -/
def Parcel.fields (x : Parcel) : List Nat := (List.range 6).filter fun f => x.facets.any fun g => fieldOf g = f

/-- The cold start of R429, and the full credit of R219. -/
def State.coldStart (s : State) (p : Nat) : State :=
  let x := s.parcel p
  let s := x.fields.foldl (fun s f => s.putDemand p f { mv := coldDemand, calm := 0, changed := s.now }) s
  s.modParcel p fun x => { x with credit := (x.budget * x.burst : Nat) }

/-- Moves a voltage by 10 mV towards another. -/
def towards (v t : Nat) : Nat := if v < t then min t (v + 10) else max t (v - 10)

/-- The rail controller's action for one field after a beat closure (R430): the state and the action code of R148. `sl` is
the smallest slack, `t` the time between closures, `late` that a slip for lateness concerns this field. No demand rises, in an untimed
cut neither, unless every parcel of the field has headroom (R147, R221). -/
def State.railField (s : State) (p f sl t : Nat) (timed late : Bool) : State × Nat :=
  let d := s.demand p f
  let dwell := decide (d.changed + 1000000 ≤ s.now)
  let (s, d, act) : State × Demand × Nat :=
    if 256 * sl < s.power.slklo * t ∨ late then
      let d := { d with calm := 0 }
      if timed then
        let fresh := match (s.pfield f).raised with | some r => decide (r + 100000 ≤ s.now) | none => true
        if !fresh then (s, d, 3)
        else if !(s.parcels.all fun e => !e.2.inField f || e.2.headroom) then (s, d, 2)
        else
          (s.modPField f fun x => { x with raised := some s.now },
           { d with mv := min (d.mv + 20) (s.fieldCeil f), changed := s.now }, if s.fieldCeil f ≤ d.mv then 1 else 0)
      else if !dwell then (s, d, 3)
      else if decide (d.mv < (s.parcel p).vpace) && !(s.parcels.all fun e => !e.2.inField f || e.2.headroom) then (s, d, 2)
      else (s, { d with mv := towards d.mv (s.parcel p).vpace, changed := s.now }, 4)
    else if s.power.slkhi * t < 256 * sl then (s, { d with calm := d.calm + 1 }, 5)
    else (s, { d with calm := 0 }, 5)
  let d := if 16 ≤ d.calm ∧ d.changed + 1000000 ≤ s.now then { mv := max (d.mv - 10) 450, calm := 0, changed := s.now } else d
  (s.putDemand p f d, act)

/-! ## Accounting records (R223, R224) -/

/-- Cumulative counts in record order: energy, HBM_RD, HBM_WR, PORT_RX, PORT_TX, STOR_RD, STOR_WR, CKPT. -/
def countBytes (t : Tbl (BitVec 64)) : List Byte := (List.range 8).flatMap fun n => leBytes 8 (t.getD n 0).toNat

/-- An accounting record (R223). -/
def State.acctRecord (s : State) (kind i parcel step : Nat) (counts : Tbl (BitVec 64)) (identity : List Byte) : List Byte :=
  let g : Bool := s.fabric.lock ≠ 0
  leBytes 8 s.acct.seq.toNat ++ leBytes 1 kind ++ leBytes 1 i ++ leBytes 1 parcel ++ leBytes 1 (bit g) ++
  leBytes 2 (s.genOf i).toNat ++ zeros 2 ++ leBytes 8 (if g then s.gptp else s.now) ++ leBytes 8 step ++ countBytes counts ++
  padTo 32 identity

/-- Writes an accounting record, or counts it as dropped; with no ring nothing happens (R223). -/
def State.account (s : State) (kind i parcel step : Nat) (counts : Tbl (BitVec 64)) (identity : List Byte) : State :=
  if s.acct.ringLen = 0 then s
  else
    let r := s.acctRecord kind i parcel step counts identity
    let s1 : State := { s with acct := { s.acct with seq := s.acct.seq + 1 } }
    match s1.ringPut clsHost 0 s.acct.ring s.acct.ringLen s.acct.prod 64 r [] with
    | .ok s2 p => { s2 with acct := { s2.acct with prod := p } }
    | .full => { s1 with acct := { s1.acct with dropped := min (2 ^ 64 - 1) (s.acct.dropped + 1) } }
    | .bad s2 => { s2 with acct := { s2.acct with dropped := min (2 ^ 64 - 1) (s.acct.dropped + 1) } }

/-! ## Facet exceptions and the end of a job (R76, R149) -/

/-- FCT_EXC (spec/02). -/
def excWord : Option Exc → BitVec 64
  | none => 0
  | some e => pack [(63, 1, 1), (62, 1, bit e.more), (48, 8, e.code), (40, 2, e.stream), (16, 16, e.index), (0, 16, e.detail)]

/-- A recorded exception gives way to one of a lower stream detected at the same instant (R76); a stop by the job (STOPPED) is no
stream's exception. -/
def Exc.yields (e : Exc) (now stream code : Nat) : Bool :=
  e.at_ = now && decide (stream < e.stream) && e.code ≠ 0x0E && code ≠ 0x0E

/-- The facet records an exception, or sets MORE, and enters Faulted; of two at one instant the lower stream's stands (R76). -/
def State.markExc (s : State) (f code stream index detail : Nat) : State :=
  let x := s.facet f
  match x.exc with
  | some e =>
    let e' : Exc := if e.yields s.now stream code then { e with code, stream, index, detail } else e
    s.putFacet f { x with exc := some { e' with more := true }, state := .faulted }
  | none =>
    let e : Exc := { more := false, code, stream, index, detail, at_ := s.now }
    let y := { x with
      exc := some e, state := .faulted
      streams := x.streams.map fun (k, y) => (k, { y with waiting := none }) }
    (s.putFacet f y).raise blkFCT 0x2102 (x.owner.map (·.inst)) f (excWord (some e)).toNat

/-- A facet stops with STOPPED (R149). -/
def State.stopFacet (s : State) (f detail : Nat) : State :=
  let x := s.facet f
  if x.state = .empty ∨ x.state = .faulted then s else s.markExc f 0x0E 0 0 detail

/-- The ring a cut uses. -/
def State.ringOf (s : State) (i : Nat) (c : Cut) : Option RingUse := s.rings.find? fun r => r.inst = i && r.addr = c.ring

/-- One output record (R154). -/
def outRecord (seq step slot reason : Nat) (identity data : List Byte) : List Byte :=
  leBytes 8 seq ++ leBytes 8 step ++ leBytes 2 slot ++ leBytes 2 data.length ++ leBytes 1 reason ++ zeros 11 ++
  padTo 32 identity ++ data

/-- The pad record of an output ring (R154): its SEQ is 0 and it does not count (DESIGN CHOICE, log entry 61). -/
def padRecord : List Byte := zeros 16 ++ leBytes 2 0xFFFE ++ zeros 46

/-- Writes one record into a cut's output ring (R154). -/
def State.putOutput (s : State) (p : Nat) (c : Cut) (step slot reason : Nat) (data : List Byte) : RingPut :=
  let i := (s.parcel p).inst
  match s.ringOf i c with
  | none => .bad s
  | some r =>
    match s.ringPut clsHost i r.addr r.len r.prod 64 (outRecord r.seq step slot reason c.identity data) padRecord with
    | .ok s' prod => .ok { s' with rings := s'.rings.map fun q =>
        if q.inst = i && q.addr = r.addr then { q with prod, seq := q.seq + 1 } else q } prod
    | e => e

/-- The pause of the present or a coming beat that comes first (R150). -/
def Run.pause (r : Run) : Option Nat := (r.pauses.map (·.1)).min?

/-- Writes the end record when there is room (R154); a ring that fails here is a later reason, which sets MORE (R149). -/
def State.writeEnd (s : State) (p : Nat) : State :=
  let x := s.parcel p
  match x.cut with
  | some c =>
    if x.run.endDue then
      match s.putOutput p c x.run.step 0xFFFF x.run.reason [] with
      | .ok s' _ => s'.modRun p fun r => { r with endDue := false }
      | .full => s
      | .bad s => s.modRun p fun r => { r with endDue := false, more := true }
    else s
  | none => s

/-- The parameters of a CUT_PAUSE, CUT_STOP or CUT_STATUS reply. -/
def State.cutStatus (s : State) (p : Nat) : List Byte :=
  let x := s.parcel p
  let r := x.run
  let code : FacetState → Nat
    | .empty => 0 | .loaded => 1 | .running => 2 | .paused => 3 | .done => 4 | .faulted => 5
  let held := match r.pause, r.stop with
    | some a, some b => min a b | some a, none => a | none, some b => b
    | none, none => 2 ^ 64 - 1
  leBytes 1 (code (s.parcelState p)) ++ leBytes 1 r.reason ++ leBytes 1 r.pauseCause ++ leBytes 1 (bit r.more) ++
  leBytes 2 (match x.cut with | some c => c.rank | none => 0) ++ leBytes 2 r.faultRank ++ leBytes 8 r.beat ++ leBytes 8 r.step ++
  leBytes 8 held ++ leBytes 8 r.sigma ++ leBytes 2 r.faultFacet ++ leBytes 1 r.faultCode ++ zeros 1 ++ leBytes 2 r.faultDetail ++
  leBytes 2 r.lagFacet ++ padTo 32 (match x.cut with | some c => c.identity | none => [])

/-- Replies to the commands that waited for p (R150, R151). -/
def State.answerHeld (s : State) (p : Nat) (stop : Bool) : State :=
  let ws := if stop then (s.parcel p).run.stopWait else (s.parcel p).run.pauseWait
  let s := s.modRun p fun r => if stop then { r with stopWait := [] } else { r with pauseWait := [] }
  ws.foldl (fun s w => s.finish w 0 0 (s.cutStatus p)) s

/-- The job ends on this device (R149): the first reason is recorded, a later one sets MORE. -/
def State.endJob (s : State) (p reason rank : Nat) (send : Bool) : State :=
  let x := s.parcel p
  match x.cut with
  | none => s
  | some c =>
    if x.run.reason ≠ 0 then s.modRun p fun r => { r with more := true }
    else
      let s := s.modRun p fun r =>
        { r with
          reason, faultRank := rank, pauses := [], stop := none, resumeAt := none, pausedAt := none, closingAt := none
          endDue := decide (c.ringLen ≠ 0) }
      let s := if send then s.ctrlAll p c 4 0 (reason + rank * 65536) else s
      let detail := if reason = 4 then 0 else if reason = 5 then 1 else 2
      let s := if reason = 1 ∨ reason = 2 then
          x.facets.foldl (fun s f => s.modFacet f fun y =>
            if y.state = .running ∨ y.state = .paused then { y with state := .done } else y) s
        else x.facets.foldl (fun s f => s.stopFacet f detail) s
      let now := x.ckp.nowWait
      let s := s.modCkp p fun k =>
        { k with announced := [], phase := if k.phase = .announced then .idle else k.phase, nowStep := none, nowWait := none }
      let s := match now with | some w => s.finish w 0x4003 0 [] | none => s
      let s := s.raise blkPCL 0x2100 (some x.inst) c.job (reason + rank * 65536) (padTo 32 c.identity)
      let s := s.writeEnd p
      ((s.answerHeld p false).answerHeld p true).refreshRails

/-- A facet raises an exception (R76): it stops, and the job of its parcel ends with reason FACET. -/
def State.facetExc (s : State) (f code stream index detail : Nat) : State :=
  let first := (s.facet f).exc.isNone
  let lower := (s.facet f).exc.any fun e => e.yields s.now stream code
  let s := s.markExc f code stream index detail
  match s.parcelOf f with
  | none => s
  | some p =>
    let ff := (s.parcel p).run.faultFacet
    let s := if (first && ff = 0xFFFF) || (lower && ff = f) then
        s.modRun p fun r => { r with faultFacet := f, faultCode := code, faultDetail := detail } else s
    let x := s.parcel p
    if x.cut.isSome && x.run.started.isSome then
      s.endJob p 4 (match x.cut with | some c => c.rank | none => 0) true
    else s

/-! ## Beats -/

/-- Every facet of the parcel has arrived or is Done (R139). -/
def State.parcelArrived (s : State) (p : Nat) : Bool :=
  (s.parcel p).facets.all fun f => (s.facet f).arrived.isSome || (s.facet f).state = .done

/-- Every facet of a parcel is Done. -/
def State.allDone (s : State) (p : Nat) : Bool := (s.parcel p).facets.all fun f => (s.facet f).state = .done

/-- Every facet of the job's other devices is Done too (R149). No message carries this, so in a job of several devices it is
a free value (log entry 21). -/
def State.doneElsewhere (s : State) (c : Cut) : Bool × State :=
  if c.ranktab.length ≤ 1 then (true, s)
  else
    let (v, s) := s.takeFree
    (decide (v % 2 = 1), s)

/-- The present beat ends a step (R139): as the deciding facet marks it. -/
def State.stepEndOf (s : State) (p : Nat) : Bool :=
  match (s.parcel p).facets.find? fun f => (s.facet f).arrived.isSome with
  | some f => (s.facet f).stepEnd
  | none => false

/-- A timed cut's window opens (R144): every port's gate list starts again from its first entry, and replaces the
administrative list (R275). -/
def State.openWindow (s : State) (p : Nat) (c : Cut) (t : Nat) : State :=
  let s := s.modRun p fun r => { r with windowAt := t, slip := false, slipCap := false }
  c.gates.foldl (fun s (port, es) => s.modGates port fun g =>
    { g with admin := [], next := [], adminAt := none, adminOn := false, cut := es, cutOn := true, idx := 0, since := t }) s

/-- A facet's slack sample and release at the closure of a beat (R77, R139). -/
def Facet.closeBeat (x : Facet) (now : Nat) (stop : Bool) : Facet :=
  match x.arrived with
  | none => if stop ∧ (x.state = .running ∨ x.state = .paused) then { x with state := .done } else x
  | some t =>
    let sl := min 0xFFFFFFFF (now - t)
    { x with
      slack := sl, slackMin := min x.slackMin sl, beats := x.beats + 1, arrived := none, stepEnd := false
      state := if stop then .done else .running
      streams := x.streams.map fun (k, y) => (k, { y with atBeat := false }) }

/-- The facet of smallest slack among some, with its slack. -/
def State.latest (s : State) (fs : List Nat) : Option (Nat × Nat) :=
  fs.foldl (fun (b : Option (Nat × Nat)) f =>
    let sl := (s.facet f).slack
    match b with | none => some (f, sl) | some (_, m) => if sl < m then some (f, sl) else b) none

/-- The rail controller after a beat closure (R430) over the fields of a parcel: the state and the actions. -/
def State.railUpdate (s : State) (p t : Nat) (fs : List Nat) (timed late : Bool) : State × Tbl Nat :=
  let lateField := (s.latest fs).map fun e => fieldOf e.1
  (s.parcel p).fields.foldl (fun (r : State × Tbl Nat) f =>
    match r.1.latest (fs.filter fun g => fieldOf g = f) with
    | none => r
    | some (_, sl) =>
      let (s', a) := r.1.railField p f sl t timed (timed && late && lateField = some f)
      (s', r.2.put f a)) (s, [])

/-- The beat a request names (R150, R151): untimed, the first beat whose closure is not yet sent; timed, the first whose
deadline comes at least the slip-delivery bound ahead, counted from the first window that is fixed where none is open. -/
def State.pickBeat (s : State) (p : Nat) (c : Cut) : Nat :=
  let r := (s.parcel p).run
  if !c.timed then r.beat + bit (r.closingAt.isSome && r.pausedAt.isNone)
  else if r.pausedAt.isSome && r.resumeAt.isNone then r.beat
  else
    let (n, w) := match r.resumeAt with
      | some t => (r.beat + bit r.released, t)
      | none => (r.beat, r.windowAt)
    let d := w + c.cycle - c.guardNs
    let lim := s.gptp + r.goB
    if lim ≤ d then n else n + (lim - d + c.cycle - 1) / max 1 c.cycle

/-- A chosen checkpoint step is announced or received (R188): the same step twice is one. -/
def State.noteCkpt (s : State) (p st : Nat) : State :=
  if (s.parcel p).run.reason ≠ 0 ∨ (s.parcel p).ckp.conf.isNone ∨ st < (s.parcel p).run.step ∨
      (s.parcel p).ckp.announced.contains st then s
  else s.modCkp p fun k =>
    { k with announced := k.announced ++ [st], phase := if k.phase = .idle then .announced else k.phase }

/-- Rank 0 chooses the first step at or after a target whose end beat qualifies, and announces it (R188). The step in progress
is taken to qualify only while the present beat does. -/
def State.announceCkpt (s : State) (p : Nat) (c : Cut) (target : Nat) : State × Nat :=
  let r := (s.parcel p).run
  let st := max target (if s.pickBeat p c = r.beat then r.step else r.step + 1)
  if (s.parcel p).ckp.announced.contains st then (s, st)
  else ((s.ctrlAll p c 0x0B st 0).noteCkpt p st, st)

/-- The step-count trigger of rank 0 (R188): the next step s from the present one with (s + 1) mod EVERY = 0 is announced. -/
def State.everyTarget (s : State) (p : Nat) (c : Cut) : State :=
  let x := s.parcel p
  match x.ckp.conf with
  | some k =>
    if c.rank = 0 ∧ 0 < k.every ∧ x.run.reason = 0 then
      (s.announceCkpt p c ((x.run.step + k.every) / k.every * k.every - 1)).1
    else s
  | none => s

/-- A LAG event (R148): a facet, its field and rail, and the rail controller's action. -/
def State.lag (s : State) (p f act : Nat) : State :=
  let x := s.parcel p
  let w := f + fieldOf f * 65536 + (s.rail (fieldOf f)).set * 0x1000000 + act * 0x100_0000_0000
  (s.raise blkPCL 0x2101 (some x.inst) x.run.beat w).modRun p fun q => { q with lagFacet := f }

/-- The present beat closes (R139): slack, counts, release, STEP record, rail controller, LAG, a pending stop. -/
def State.closeBeat (s : State) (p : Nat) : State :=
  let x := s.parcel p
  match x.cut with
  | none => s
  | some c =>
    let r := x.run
    let stop := decide (r.stop = some r.beat)
    let se := s.stepEndOf p
    let fs := x.facets.filter fun f => (s.facet f).arrived.isSome
    let clock := if c.timed then s.gptp else s.now
    let t := clock - r.windowAt
    let resumed := r.pausedAt.isSome
    let paused := r.pausedFor + match r.pausedAt with | some a => s.now - a | none => 0
    let tardy := match r.arrivedAt with
      | some a => !c.timed && decide (c.beatLimit * 1000 < 10 * (s.now - a - paused))
      | none => false
    let s := x.facets.foldl (fun s f => s.modFacet f fun y => y.closeBeat s.now stop) s
    let (s, acts) := s.railUpdate p t fs c.timed r.slipped
    let s := match s.latest fs with
      | some (f, _) => if tardy then s.lag p f (Tbl.getD acts (fieldOf f) 5) else s
      | none => s
    let s := if se then s.account 2 x.inst p r.step (s.inst x.inst).last c.identity else s
    let s := s.modRun p fun q =>
      { q with
        beat := r.beat + 1, step := r.step + bit se, arrivals := [], arrivedAt := none, outputs := 0, slip := false
        slipped := false, holds := 0, pausedFor := 0, pausedAt := none, closingAt := none, pacedBeat := false
        pauseCause := if resumed then 0 else q.pauseCause
        windowAt := clock
        pauses := if stop then [] else q.pauses.filter fun e => decide (r.beat < e.1), stop := if stop then none else q.stop }
    let s := s.modCkp p fun k => { k with armedSelf := false, armed := [] }
    let s := if resumed && !stop then s.coldStart p else s
    if stop then s.endJob p 2 c.rank false else (s.everyTarget p c).refreshRails

/-- A captured checkpoint step ends at this beat (R188, R190). -/
def State.captureDue (s : State) (p : Nat) : Bool :=
  let x := s.parcel p
  x.run.closingAt.isNone && x.ckp.announced.contains x.run.step && s.stepEndOf p && x.ckp.conf.isSome

/-- The facets wait at BEAT p in state Paused (R150). -/
def State.enterPause (s : State) (p : Nat) : State :=
  if (s.parcel p).run.pausedAt.isSome then s
  else
    let s := s.modRun p fun r => { r with pausedAt := some s.now, pauseCause := r.pauses.getD r.beat r.pauseCause }
    let s := (s.parcel p).facets.foldl (fun s f => s.modFacet f fun y =>
      if y.state = .running then { y with state := .paused } else y) s
    s.refreshRails

/-- The pause of the present beat is in force. -/
def Run.pauseHere (r : Run) : Bool := decide (r.pause = some r.beat) && !decide (r.stop = some r.beat)

/-- Rank 0 of an untimed job closes the beat when it and all its children have arrived (R140); a pause holds the closure
(R150), a capture comes between (R190). -/
def State.rootClose (s : State) (p : Nat) (c : Cut) : State :=
  let r := (s.parcel p).run
  if r.arrivedAt.isNone || !(c.children.all fun k => r.arrivals.contains k) || r.closingAt.isSome then s
  else if s.captureDue p then
    let s := s.ctrlChildren p c 2 r.beat 0 0
    (s.capture p c).modRun p fun q => { q with closingAt := some s.now }
  else if r.pauseHere then s.enterPause p
  else (s.ctrlChildren p c 2 r.beat 0 0).closeBeat p

/-- An arrival goes up when the device and its children have arrived (R140). `fresh` says that the last of them just did. -/
def State.arriveUp (s : State) (p : Nat) (c : Cut) : State :=
  let r := (s.parcel p).run
  if c.rank = 0 then s.rootClose p c
  else
    let s := if r.arrivedAt.isSome && (c.children.all fun k => r.arrivals.contains k) then s.ctrlParent p c 1 r.beat 0 else s
    if r.pauseHere && r.arrivedAt.isSome && !s.captureDue p && r.closingAt.isNone then s.enterPause p else s

/-- A non-root device receives the closure of its beat in an untimed job (R140, R190). -/
def State.closureHere (s : State) (p : Nat) (c : Cut) : State :=
  let r := (s.parcel p).run
  let s := s.ctrlChildren p c 2 r.beat 0 0
  if s.captureDue p then (s.capture p c).modRun p fun q => { q with closingAt := some s.now }
  else s.closeBeat p

/-- ARMED goes up, and rank 0 releases, once the device and its children are armed (R190); a pause at the same beat holds
the release. -/
def State.armedUp (s : State) (p : Nat) (c : Cut) : State :=
  let x := s.parcel p
  if x.ckp.armedSelf && c.children.all fun k => x.ckp.armed.contains k then
    if c.rank = 0 then
      if x.run.pauseHere then s.enterPause p
      else (s.ctrlChildren p c 0x0D x.run.beat 0 0).closeBeat p
    else
      let s := s.ctrlParent p c 0x0C x.run.beat 0
      if x.run.pauseHere then s.enterPause p else s
  else s

/-- A pause at a beat is announced or received (R150). The smallest one of those held comes first; a later beat's stays held for its own
beat (log entry 62). -/
def State.applyPause (s : State) (p : Nat) (c : Cut) (n cause : Nat) : State :=
  let r := (s.parcel p).run
  let s := if r.reason ≠ 0 ∨ n < r.beat ∨ (r.pausedAt.isSome ∧ n = r.beat) ∨ r.pauses.has n then s
    else
      let first := r.pausedAt.isNone && (match r.pause with | some m => decide (n < m) | none => true)
      s.modRun p fun q => { q with pauses := q.pauses.put n cause, pauseCause := if first then cause else q.pauseCause }
  let s := s.answerHeld p false
  let q := (s.parcel p).run
  if !c.timed && q.pauseHere && q.arrivedAt.isSome && q.reason = 0 && q.pausedAt.isNone then
    if c.rank = 0 then s.rootClose p c
    else if s.captureDue p || (q.closingAt.isSome && !(s.parcel p).ckp.armedSelf) then s
    else s.enterPause p
  else s

/-- A stop at a beat is announced or received (R151). -/
def State.applyStop (s : State) (p : Nat) (c : Cut) (n : Nat) : State :=
  let r := (s.parcel p).run
  let s := if r.reason ≠ 0 ∨ n < r.beat then s
    else s.modRun p fun q => { q with stop := some (match q.stop with | some m => min m n | none => n) }
  let s := s.answerHeld p true
  let q := (s.parcel p).run
  if q.reason = 0 && q.pausedAt.isSome && q.stop = some q.beat then
    let s := s.modRun p fun q => { q with pauses := [] }
    if c.timed then s.closeBeat p
    else if c.rank = 0 then
      if (s.parcel p).ckp.armedSelf then s.armedUp p c else s.rootClose p c
    else s
  else s

/-- A request to pause the job (R145, R150): decided here, or asked of rank 0. -/
def State.requestPause (s : State) (p : Nat) (c : Cut) (cause : Nat) : State :=
  if c.timed ∨ c.rank = 0 then
    let n := s.pickBeat p c
    (s.ctrlAll p c 5 n cause).applyPause p c n cause
  else s.ctrlTo p c 0 0x11 0 cause 0 []

/-- A request to stop the job at a beat (R151). -/
def State.requestStop (s : State) (p : Nat) (c : Cut) : State :=
  if c.timed ∨ c.rank = 0 then
    let n := s.pickBeat p c
    (s.ctrlAll p c 7 n 0).applyStop p c n
  else s.ctrlTo p c 0 0x12 0 0 0 []

/-- A device without gPTP lock pauses a timed job on the first beat that it can still reach (R145). -/
def State.pauseLost (s : State) (p : Nat) (c : Cut) : State :=
  let r := (s.parcel p).run
  if s.fabric.lock = 0 && c.timed && r.started.isSome && r.reason = 0 && (r.resumeAt.isSome || (r.released && r.pausedAt.isNone)) then
    s.requestPause p c 2
  else s

/-- The resume of an untimed job reaches the device: the pause ends, the facets wait for the closure as before, and the rails start
cold (R150, R429). -/
def State.leavePause (s : State) (p : Nat) : State :=
  match (s.parcel p).run.pausedAt with
  | none => s
  | some a =>
    let s := s.modRun p fun q => { q with pausedAt := none, pausedFor := q.pausedFor + (s.now - a), pauseCause := 0 }
    let s := (s.parcel p).facets.foldl (fun s f => s.modFacet f fun y =>
      if y.state = .paused then { y with state := .running } else y) s
    (s.coldStart p).refreshRails

/-- A CUT_STOP that waits at a Paused device has lost to the resume that reaches it first (R152). -/
def State.stopLost (s : State) (p : Nat) : State :=
  let r := (s.parcel p).run
  if r.pausedAt.isNone then s
  else r.stopWait.foldl (fun s w => s.finish w 0x200D 0 []) (s.modRun p fun q => { q with stopWait := [] })

/-- A resume (R150): untimed, rank 0 sends the closure; timed, the window of beat p + 1 opens at TIME, which must lie far
enough ahead (R276). -/
def State.applyResume (s : State) (p : Nat) (c : Cut) (n time : Nat) : State :=
  let r := (s.parcel p).run
  if r.reason ≠ 0 ∨ !r.pauses.has n ∨ r.beat ≠ n then s
  else
    let s := (s.stopLost p).modRun p fun q => { q with pauses := Tbl.del q.pauses n }
    if !c.timed then
      let s := s.leavePause p
      if c.rank = 0 then if (s.parcel p).ckp.armedSelf then s.armedUp p c else s.rootClose p c else s
    else if time < s.gptp + c.guardNs then s.endJob p 8 c.rank true
    else (s.modRun p fun q => { q with resumeAt := some time, startTime := time - (n + 1 + q.sigma) * c.cycle }).pauseLost p c

/-! ## Start (R138, R152) -/

/-- A facet as it is when a cut starts (R138). A restored facet keeps its captured state (R200). -/
def Facet.atStart (x : Facet) (rank : Nat) (restored : Bool) : Facet :=
  let x := { x with exc := none, slackMin := 0xFFFFFFFF, arrived := none, stepEnd := false, inflight := [], xfers := [], signals := [] }
  if restored then x
  else
    { x with
      beats := 0, toks := [], vregs := [], masks := [], dregs := [], peer := rank, accClass := [], acc := [], fpVec := 0, fpMat := 0
      streams := x.streams.map fun (k, y) => (k, { Stream.initial with base := y.base, len := y.len }) }

/-- W(n) of the first beat of a start at S: beat 0, or the beat of a restored job (R144, R200). S is a 64-bit number. -/
def firstWindow (c : Cut) (beat start : Nat) : Nat := (start + beat * c.cycle) % 2 ^ 64

/-- The S for which the first beat's window opens at an instant (R200). -/
def startOf (c : Cut) (beat at_ : Nat) : Nat := (((at_ : Int) - (beat * c.cycle : Nat)) % (2 ^ 64 : Nat)).toNat

/-- The facets of a started cut are released (R152). -/
def State.beginRun (s : State) (p : Nat) (c : Cut) : State :=
  let first := firstWindow c (s.parcel p).run.beat (s.parcel p).run.startTime
  let s := s.modRun p fun r => { r with released := true, windowAt := if c.timed then first else s.now }
  let s := (s.parcel p).facets.foldl (fun s f => s.modFacet f fun y =>
    if y.state = .loaded then { y with state := .running } else y) s
  let s := if c.timed then s.openWindow p c first else s
  ((s.coldStart p).everyTarget p c).refreshRails

/-- GO is received, or sent by rank 0 (R152): B is taken, GO goes down the tree, and the facets are released or the start
time is fixed. -/
def State.go (s : State) (p : Nat) (c : Cut) (start bound : Nat) : State :=
  if (s.parcel p).run.started.isNone ∨ (s.parcel p).run.goB ≠ 0 ∨ (s.parcel p).run.released then s
  else
    let s := s.ctrlChildren p c 9 0 start bound
    let s := s.modRun p fun r => { r with goB := bound, startTime := start }
    let first := firstWindow c (s.parcel p).run.beat start
    if !c.timed then s.beginRun p c
    else if first < s.gptp + c.guardNs then s.endJob p 8 c.rank true
    else (s.modRun p fun r => { r with resumeAt := some first }).pauseLost p c

/-- READY goes up, and rank 0 answers GO, once CUT_START and every child's READY are there (R152, R200, R278). -/
def State.readyUp (s : State) (p : Nat) (c : Cut) (own : List Byte) : State :=
  let r := (s.parcel p).run
  if r.started.isNone || r.sentReady || !(c.children.all fun k => Tbl.has r.ready k) then s
  else
    let kids := c.children.filterMap fun k => Tbl.find r.ready k
    let hash := ((kids.find? fun e => e.1 ≠ own).map (·.1)).getD own
    let b := kids.foldl (fun m e => max m e.2) r.b
    let s := s.modRun p fun q => { q with sentReady := true, b := r.b }
    if c.rank ≠ 0 then s.ctrlParent p c 8 0 b hash
    else if hash ≠ own then s.endJob p 0x0B c.rank true
    else
      let lead := s.gptp + b + c.guardNs
      let k := if r.startTime < lead then (lead - r.startTime + c.cycle - 1) / max 1 c.cycle else 0
      s.go p c (if c.timed then startOf c r.beat (r.startTime + k * c.cycle) else 0) b

end Sys2Proof.Machine
end

