-- ==== Sys2Proof/Machine/Issue.lean ====
section
/-! DEFINITION. The life of a facet instruction (spec/02): fetch, decode, hazard, tokens, issue, completion; token
counters and signals; the facet's own accesses to its scratchpad. -/

namespace Sys2Proof.Machine

/-! ## The scratchpad as the facet's own streams see it (R78, R107, R108, R115) -/

/-- A read by one of the facet's own streams: the bytes, or the exception it raises as code and detail. -/
def State.spadRead (s : State) (f off n : Nat) : Except (Nat × Nat) (List Byte) :=
  if !(s.facet f).banksOn off n then .error (0x09, 7)
  else if s.rangeBad (spadAddr f off) n then .error (0x0B, 0)
  else .ok (s.readBytes (spadAddr f off) n)

/-- A write by one of the facet's own streams. -/
def State.spadWrite (s : State) (f off : Nat) (bs : List Byte) : Except (Nat × Nat) State :=
  if !(s.facet f).banksOn off bs.length then .error (0x09, 7)
  else
    let (s', ok) := s.storeRaw (spadAddr f off) bs
    if ok then .ok s' else .error (0x0B, 0)

/-- The exception of a failed scratchpad access by a bank master: one that met uncorrectable data was an access, and its units
are counted (R78, R108). -/
def State.spadFail (s : State) (f st index off n m : Nat) (write : Bool) (e : Nat × Nat) : State :=
  let s := if e.1 = 0x0B then (s.bankAccess f m write off n).countBad f off n
    else s.addressEvent blkFCT (match (s.facet f).owner with | some o => o.inst | none => 0) (spadAddr f off) f
  s.facetExc f e.1 st index e.2

/-! ## Token counters and signals (R44 to R48) -/

/-- Adds to a counter, or raises TOKEN_OVERFLOW in this facet (R47). -/
def State.addTok (s : State) (f c n : Nat) : State :=
  let x := s.facet f
  if 65535 < x.tok c + n then
    let st := bitsOf x.tokown.toNat (2 * c + 1) (2 * c)
    s.facetExc f 0x07 st (x.stream st).next c
  else if n = 0 then s
  else s.putFacet f { x with toks := x.toks.put c (x.tok c + n) }

/-- The lowest TAG from 16 to 126 that no remote signal of the facet uses. R117 asks only for a unique TAG and R182 bars 0x7F; that
transfers take 0 to 15 and signals the rest is the model's choice (log entry 54). -/
def Facet.freeSignal (x : Facet) : Option Nat := ((List.range 111).map (· + 16)).find? fun t => !x.signals.contains t

/-- Sends a remote signal as a TOKEN flit (R45). -/
def State.remoteSignal (s : State) (f c n rsx rsy : Nat) : State :=
  let x := s.facet f
  match x.owner, x.freeSignal with
  | some o, some tag =>
    let dst := facetAt (o.px + rsx) (o.py + rsy)
    let fl := { s.facetFlit f dst 3 with tokc := c, tokn := n, last := true, tag, addr := spadAddr dst 0 }
    (s.putFacet f { x with signals := x.signals ++ [tag] }).sendFlit fl
  | _, _ => s

/-- Applies the local signal of a completing instruction; a facet that has stopped signals nothing (R76). -/
def State.localSignal (s : State) (f : Nat) (w : BitVec 128) : State :=
  if (s.facet f).state = .faulted ∨ wLsn w = 0 then s else s.addTok f (wLsc w) (wLsn w)

/-- Sends the remote signal of a completing instruction (R45, R76). -/
def State.farSignal (s : State) (f : Nat) (w : BitVec 128) : State :=
  if (s.facet f).state = .faulted ∨ wRsn w = 0 then s else s.remoteSignal f (wRsc w) (wRsn w) (wRsx w) (wRsy w)

/-- Both signals of a completing instruction: the local one first (step 7). -/
def State.signal (s : State) (f : Nat) (w : BitVec 128) : State := (s.localSignal f w).farSignal f w

/-! ## Fetch and advance (R42, R50) -/

/-- Closes or repeats the levels whose body ends before an index. -/
def closeLoops : Nat → Nat → List LoopLevel → Nat × List LoopLevel
  | 0, n, ls => (n, ls)
  | fuel + 1, n, ls =>
    match ls.getLast? with
    | none => (n, ls)
    | some l =>
      if l.start + l.len ≤ n then
        if l.idx + 1 < l.trip then (l.start, ls.dropLast ++ [{ l with idx := l.idx + 1 }])
        else closeLoops fuel n ls.dropLast
      else (n, ls)

/-- The stream after it issues a word: the next index, with the level that LOOP opens. -/
def Stream.advance (y : Stream) (w : BitVec 128) : Stream :=
  if wOp w = 0x02 then
    { y with
      next := y.next + 1
      loops := y.loops ++ [{ start := y.next + 1, len := wS1 w, trip := wS0 w, idx := 0 }]
      waiting := none }
  else
    let (n, ls) := closeLoops 5 (y.next + 1) y.loops
    { y with next := n, loops := ls, waiting := none }

/-- Fetches the word at a stream's next index; an instruction word is one bank access for the eight instructions it
holds (R78). -/
def State.fetch (s : State) (f st : Nat) : Except State (State × BitVec 128) :=
  let y := (s.facet f).stream st
  let off := 16 * (y.base + y.next)
  match s.spadRead f off 16 with
  | .error e => .error (s.spadFail f st y.next off 16 0 false e)
  | .ok bs =>
    let s := s.metSpad f off 16
    let s := if y.lastWord = some (off / 128) then s
      else (s.bankAccess f 0 false off 16).modFacet f fun x => x.modStream st fun y => { y with lastWord := some (off / 128) }
    .ok (s, BitVec.ofNat 128 (leNat bs))

/-! ## Hazards and engines (steps 3 and 4) -/

/-- What a transfer still uses: a SPUT whose source has been read has completed. -/
def Xfer.uses (t : Xfer) : Uses :=
  if t.kind = .put ∧ t.srcRead then Uses.none else usesOf t.word (t.loc / 16 : Nat) 0

/-- An earlier, still-incomplete instruction of the stream orders this one (step 3). -/
def Facet.hazard (x : Facet) (st : Nat) (u : Uses) : Bool :=
  if st = 2 then x.xfers.any fun t => t.uses.blocks u
  else x.inflight.any fun q => q.stream = st && (usesOf q.word q.e0 q.e1).blocks u

/-- The remote signals that instructions in flight still owe; each holds back a TAG from issue on, so that none lacks one when it
completes (R45, log entry 54). -/
def Facet.owed (x : Facet) : Nat :=
  (x.inflight.filter fun q => wRsn q.word ≠ 0).length +
  (x.xfers.filter fun t => t.kind = .put && t.peer.isNone && wRsn t.word ≠ 0).length

/-- The engine accepts the word: one MMA, one MDRAIN and one vector instruction in flight, 16 transfers (R69), and a
tag for the remote signal. -/
def Facet.engineFree (x : Facet) (w : BitVec 128) : Bool :=
  let op := wOp w
  let busy (p : Nat → Bool) : Bool := x.inflight.any fun q => p (wOp q.word)
  (if op = 0x20 then !busy (· = 0x20) else if op = 0x21 then !busy (· = 0x21)
    else if opStream op = 1 then !busy (fun o => opStream o = 1)
    else if 0x81 ≤ op ∧ op ≤ 0x85 ∧ op ≠ 0x83 then decide (x.xfers.length < 16)
    else true) &&
  (decide (wRsn w = 0) || decide (x.signals.length + x.owed < 111))

/-- The counts are there (R44). -/
def Facet.counts (x : Facet) (w : BitVec 128) : Bool :=
  decide (wWna w ≤ x.tok (wWca w)) && decide (wWnb w ≤ x.tok (wWcb w))

/-- Consumes the counts (R44). -/
def Facet.consume (x : Facet) (w : BitVec 128) : Facet :=
  let take (x : Facet) (c n : Nat) : Facet := if n = 0 then x else { x with toks := x.toks.put c (x.tok c - n) }
  take (take x (wWca w) (wWna w)) (wWcb w) (wWnb w)

/-- The facet's engines may issue: Running, its field's gate open, the table at Run (R432, R434). -/
def State.mayIssue (s : State) (f : Nat) : Bool :=
  (s.facet f).state = .running && !(s.pfield (fieldOf f)).closed && s.power.rung = 0

/-- The facet has stopped at this very instant, so that its other streams may still detect an exception in it (R76). -/
def State.faultNow (s : State) (f : Nat) : Bool :=
  (s.facet f).state = .faulted && ((s.facet f).exc.any fun e => e.at_ = s.now) && !(s.pfield (fieldOf f)).closed && s.power.rung = 0

/-- An issued instruction: its facet and stream, its index and word, and the effective values of slots 0 and 1. -/
structure Issued where
  f     : Nat
  st    : Nat
  index : Nat
  word  : BitVec 128
  e0    : Int
  e1    : Int
  e2    : Int
  deriving DecidableEq, Repr

/-- A stream's next instruction, when its opcode is `op`: fetch, decode, hazard, tokens, issue; then `run` executes it
(the life of one instruction). A word of another opcode, or one that must still wait, leaves the facet as it is, but for
the start of a token wait (R49). In a facet that has stopped at this instant a stream still detects its exception, and issues
nothing (R76). -/
def State.issue (s : State) (f st op : Nat) (run : State → Issued → State) : State :=
  let y := (s.facet f).stream st
  if nFacets ≤ f ∨ 4 ≤ st ∨ (!s.mayIssue f && !s.faultNow f) ∨ y.stopped ∨ y.atBeat then s
  else if y.len ≤ y.next then s.facetExc f 0x05 st y.next 0
  else
    match s.fetch f st with
    | .error s' => s'
    | .ok (s1, w) =>
      if opStream (wOp w) = 5 then s1.facetExc f 0x01 st y.next 0
      else if wOp w ≠ op then s1
      else
        let x := s1.facet f
        match decodeExc x st w with
        | some (code, detail) => s1.facetExc f code st y.next detail
        | none =>
          let e0 := y.slot w 0
          let e1 := y.slot w 1
          if !s.mayIssue f || x.hazard st (usesOf w e0 e1) || !x.engineFree w then s1
          else if !x.counts w then
            s1.putFacet f (x.modStream st fun y =>
              { y with waiting := some (y.waiting.getD (s.now, x.waitlim)) })
          else
            let s2 := s1.putFacet f ((x.consume w).modStream st fun y => y.advance w)
            run s2 { f, st, index := y.next, word := w, e0, e1, e2 := y.slot w 2 }

/-! ## Registers of the engines -/

/-- The entries of a table outside a range, with new entries in their place. -/
def Tbl.replace {α : Type} (t : Tbl α) (lo n : Nat) (new : Tbl α) : Tbl α :=
  (t.filter fun e => decide (e.1 < lo)) ++ new ++ t.filter fun e => decide (lo + n ≤ e.1)

/-- The 64 lanes of a vector register as numbers. -/
def Facet.lanes (x : Facet) (r : Nat) : List Nat := (List.range 64).map fun l => (Tbl.getD x.vregs (64 * r + l) 0).toNat

/-- Writes the 64 lanes of a vector register. -/
def Facet.setLanes (x : Facet) (r : Nat) (ls : List Nat) : Facet :=
  { x with vregs := Tbl.replace x.vregs (64 * r) 64 (ls.zipIdx.filterMap fun (v, l) =>
      if v = 0 then none else some (64 * r + l, BitVec.ofNat 64 v)) }

/-- A mask register. -/
def Facet.mask (x : Facet) (m : Nat) : BitVec 64 := Tbl.getD x.masks m 0

/-- The cells of an accumulator tile, row by row. -/
def Facet.cells (x : Facet) (t : Nat) : List AccCell := (List.range 2048).map fun n => Tbl.getD x.acc (2048 * t + n) AccCell.zero

/-- Writes the cells of an accumulator tile. -/
def Facet.setCells (x : Facet) (t : Nat) (cs : List AccCell) : Facet :=
  { x with acc := Tbl.replace x.acc (2048 * t) 2048 (cs.zipIdx.filterMap fun (c, n) =>
      if c = AccCell.zero then none else some (2048 * t + n, c)) }

end Sys2Proof.Machine
end

