-- ==== Sys2Proof/Machine/Facets.lean ====
section
/-! DEFINITION. Facet instructions of every stream, of the matrix and vector engines and of the scoreboard (spec/02), their
completions, and the arrivals and ends of a facet. -/

namespace Sys2Proof.Machine

/-! ## Instructions of every stream -/

/-- TOK (R44): waits and signals, complete at issue. -/
def execTok (f st : Nat) (s : State) : Res := .next (s.issue f st 0x00 fun s q => s.signal f q.word)

/-- BEAT (R71): the stream issues nothing more until the beat closes; the scoreboard's MOD[48] marks a step end. -/
def execBeat (f st : Nat) (s : State) : Res :=
  .next (s.issue f st 0x01 fun s q =>
    (s.modFacet f fun x =>
      let x := x.modStream st fun y => { y with atBeat := true }
      if st = 3 then { x with stepEnd := bitAt q.word.toNat 48 } else x).signal f q.word)

/-- LOOP (R50): opens the next level; its token word applies once. -/
def execLoop (f st : Nat) (s : State) : Res := .next (s.issue f st 0x02 fun s q => s.signal f q.word)

/-- A table entry that is unlisted when zero. -/
def putInt (t : Tbl Int) (n : Nat) (z : Int) : Tbl Int := if z = 0 then Tbl.del t n else Tbl.put t n z

/-- SETSTEP (R51). -/
def execSetstep (f st : Nat) (s : State) : Res :=
  .next (s.issue f st 0x03 fun s q =>
    let l := 3 * bitsOf q.word.toNat 49 48
    (s.modFacet f fun x => x.modStream st fun y =>
      let t := putInt (putInt y.steps l (signedOf 16 (wS0 q.word))) (l + 1) (signedOf 16 (wS1 q.word))
      { y with steps := putInt t (l + 2) (signedOf 16 (wS2 q.word)) }).signal f q.word)

/-- STOP (R72): the stream is finished. -/
def execStop (f st : Nat) (s : State) : Res :=
  .next (s.issue f st 0x04 fun s q =>
    (s.modFacet f fun x => x.modStream st fun y => { y with stopped := true }).signal f q.word)

/-! ## Instructions in flight -/

/-- The instruction enters its engine. -/
def State.enterFlight (s : State) (q : Issued) : State :=
  s.modFacet q.f fun x =>
    { x with inflight := x.inflight ++
        [{ stream := q.st, index := q.index, word := q.word, e0 := q.e0.toNat, e1 := q.e1.toNat }] }

/-- The first instruction in flight whose opcode satisfies `p`. -/
def Facet.flight (x : Facet) (p : Nat → Bool) : Option InFlight := x.inflight.find? fun q => p (wOp q.word)

/-- Takes the first instruction in flight of these opcodes out of its engine. -/
def Facet.leave (x : Facet) (p : Nat → Bool) : Facet := { x with inflight := x.inflight.eraseP fun q => p (wOp q.word) }

/-! ## Matrix engine (R55 to R60, R91 to R96) -/

/-- MMA issues: a cleared tile takes the class of its operands (R57). -/
def execMma (f st : Nat) (s : State) : Res :=
  .next (s.issue f st 0x20 fun s q =>
    (s.modFacet f fun x =>
      match wClr q.word, fmtClass (wHi q.word) with
      | true, some c => { x with accClass := x.accClass.put (wTile q.word) c }
      | _, _ => x).enterFlight q)

/-- The cells and flags an MMA leaves, from its operand bytes (R92, R95). -/
def mmaCells (w : BitVec 128) (cls : AccClass) (old : List AccCell) (a b : List Byte) : List AccCell × Nat :=
  let av := operandVals (wHi w) 32 (colPitch (wHi w)) (wK w) (wMx w) a
  let bv := operandVals (wLo w) 64 (rowPitch (wLo w)) (wK w) (wMx w) b
  let rs := (old.zipIdx.map fun (c, n) =>
    let c := if wClr w then AccCell.zero else c
    accCell cls c (List.zipWith (fun (x y : List FVal) => (x.getD (n / 64) .nan, y.getD (n % 64) .nan)) av bv) (wShift w))
  (rs.map (·.1), rs.foldl (fun fl r => fl ||| r.2) 0)

/-- MMA_COMPLETE (R58): the last product is accumulated, then the signals apply. -/
def execMmaComplete (f : Nat) (s : State) : Res :=
  .next <|
    match (s.facet f).flight (· = 0x20) with
    | none => s
    | some q =>
      let w := q.word
      let s := s.modFacet f fun x => x.leave (· = 0x20)
      let na := aBytes (wHi w) (wK w) (wMx w)
      let nb := bBytes (wLo w) (wK w) (wMx w)
      match s.spadRead f (16 * q.e0) na, s.spadRead f (16 * q.e1) nb with
      | .error e, _ => s.spadFail f 0 q.index (16 * q.e0) na 1 false e
      | _, .error e => s.spadFail f 0 q.index (16 * q.e1) nb 1 false e
      | .ok a, .ok b =>
        let s := (s.metSpad f (16 * q.e0) na).metSpad f (16 * q.e1) nb
        let s := s.modFacet f fun x =>
          let (cs, fl) := mmaCells w ((fmtClass (wHi w)).getD .f) (x.cells (wTile w)) a b
          { (x.setCells (wTile w) cs).matFlags fl with hskm := x.hskm + BitVec.ofNat 64 (mmaHandshakes w) }
        ((s.bankAccess f 1 false (16 * q.e0) na).bankAccess f 1 false (16 * q.e1) nb).signal f w

/-- MDRAIN issues (R59). -/
def execMdrain (f st : Nat) (s : State) : Res := .next (s.issue f st 0x21 State.enterFlight)

/-- MDRAIN_COMPLETE (R59): the last byte is written, the tile is zeroed if asked, then the signals apply. -/
def execMdrainComplete (f : Nat) (s : State) : Res :=
  .next <|
    match (s.facet f).flight (· = 0x21) with
    | none => s
    | some q =>
      let w := q.word
      let x := (s.facet f).leave (· = 0x21)
      let t := wDTile w
      let cls := (x.accClass.find t).getD .f
      let (bs, fl) := drainBytes (wHi w) (wDRound w) (wDMx w) (wDTr w) (wDSat w) ((x.cells t).map (cellVal cls))
      let x := { x.matFlags fl with hskm := x.hskm + 32 }
      let x := if wDClr w then x.setCells t [] else x
      let s := s.putFacet f x
      match s.spadWrite f (16 * q.e0) bs with
      | .error e => s.spadFail f 0 q.index (16 * q.e0) bs.length 2 true e
      | .ok s => (s.bankAccess f 2 true (16 * q.e0) bs.length).signal f w

/-! ## Vector engine (R61 to R63, R97 to R100) -/

/-- The byte ranges of the elements a vector load or store touches; packed formats are one range (R61, R83). -/
def vecRanges (w : BitVec 128) (off : Nat) : List (Nat × Nat) :=
  let b := fmtBits (wHi w)
  if b < 8 then [(off, 64 * b / 8)] else (List.range 64).map fun l => (off + l * wStride w * (b / 8), b / 8)

/-- Scratchpad words that ranges cover, each once. -/
def wordsCovered (rs : List (Nat × Nat)) : List Nat :=
  rs.foldl (fun (l : List Nat) r =>
    (List.range (wordsOf r.1 r.2)).foldl (fun l j => let k := r.1 / 128 + j; if l.contains k then l else l ++ [k]) l) []

/-- A vector load or store fails: the words it touched are counted when one held uncorrectable data (R78, R108). -/
def State.vecFail (s : State) (f st index off : Nat) (w : BitVec 128) (write : Bool) (e : Nat × Nat) : State :=
  if e.1 = 0x0B then
    (((vecRanges w off).foldl (fun s r => s.countBad f r.1 r.2) s).bankWords f 3 write (wordsCovered (vecRanges w off))).facetExc f
      e.1 st index e.2
  else s.spadFail f st index off (vecSpan w) 3 write e

/-- Reads ranges one after another. -/
def State.spadGather (s : State) (f : Nat) : List (Nat × Nat) → Except (Nat × Nat) (List Byte)
  | [] => .ok []
  | (o, n) :: t =>
    match s.spadRead f o n with
    | .error e => .error e
    | .ok bs => match State.spadGather s f t with
      | .error e => .error e
      | .ok cs => .ok (bs ++ cs)

/-- Writes ranges one after another. -/
def State.spadScatter (s : State) (f : Nat) : List (Nat × Nat) → List Byte → Except (Nat × Nat) State
  | [], _ => .ok s
  | (o, n) :: t, bs =>
    match s.spadWrite f o (bs.take n) with
    | .error e => .error e
    | .ok s' => State.spadScatter s' f t (bs.drop n)

/-- Stores the elements of one instruction: an uncorrectable unit all of whose bytes they cover becomes correct, since a
write covers it whole (R108). -/
def State.spadStore (s : State) (f : Nat) (rs : List (Nat × Nat)) (bs : List Byte) : Except (Nat × Nat) State :=
  let whole := fun b => (List.range 16).all fun i => rs.any fun r => spadAddr f r.1 ≤ b + i && b + i < spadAddr f r.1 + r.2
  let s : State := { s with hbm := { s.hbm with bad := s.hbm.bad.filter fun b => !(hbmSize ≤ b && whole b) } }
  s.spadScatter f rs bs

/-- VLD (R61, R81): 64 elements widened exactly, or copied when the formats are equal; the destination is S1[4:0]. -/
def execVld (f st : Nat) (s : State) : Res :=
  .next (s.issue f st 0x40 fun s q =>
    let w := q.word
    let off := 16 * q.e0.toNat
    let rs := vecRanges w off
    match s.spadGather f rs with
    | .error e => s.vecFail f st q.index off w false e
    | .ok bs =>
      let ls := (List.range 64).map fun l =>
        let v := packedElem (wHi w) bs l
        if wHi w = wLo w then v else (convert (wLo w) 0 false (decodeElem (wHi w) v)).1
      let s := rs.foldl (fun s r => s.metSpad f r.1 r.2) s
      ((s.modFacet f fun x => { x.setLanes (wVa w) ls with hskv := x.hskv + 1 }).bankWords f 3 false (wordsCovered rs)).signal f w)

/-- VST (R61): 64 elements rounded once, with saturation if asked. -/
def execVst (f st : Nat) (s : State) : Res :=
  .next (s.issue f st 0x41 fun s q =>
    let w := q.word
    let off := 16 * q.e0.toNat
    let rs := vecRanges w off
    let es := ((s.facet f).lanes (wVa w)).map fun v =>
      if wHi w = wLo w then (v % 2 ^ fmtBits (wLo w), 0)
      else convert (wHi w) (bitsOf w.toNat 15 14) (bitAt w.toNat 13) (decodeElem (wLo w) (v % 2 ^ fmtBits (wLo w)))
    let s := s.modFacet f fun x => { x.vecFlags (es.foldl (fun fl e => fl ||| e.2) 0) with hskv := x.hskv + 1 }
    match s.spadStore f rs (packElems (wHi w) (es.map (·.1))) with
    | .error e => s.vecFail f st q.index off w true e
    | .ok s => (s.bankWords f 3 true (wordsCovered rs)).signal f w)

/-- The pattern VMOVI puts in every lane (R62). -/
def immOf (w : BitVec 128) : Nat :=
  let v := wS1 w * 65536 + wS2 w
  if wHi w = 0 then (convert 0 0 false (decodeElem 1 v)).1
  else if wHi w = 2 ∨ wHi w = 3 then wS2 w else v

/-- VMOVI (R62). -/
def execVmovi (f st : Nat) (s : State) : Res :=
  .next (s.issue f st 0x42 fun s q =>
    (s.modFacet f fun x => { x.setLanes (wVd q.word) (List.replicate 64 (immOf q.word)) with hskv := x.hskv + 1 }).signal f q.word)

/-- One lane of an operation of R62 on a, b and c: result and flags. -/
def laneResult (w : BitVec 128) (a b c : Nat) : Nat × Nat :=
  let fmt := wHi w
  let mode := wRound w
  match wOp w with
  | 0x53 => fFma fmt mode a b c
  | 0x56 | 0x57 => (laneUnary (wOp w) fmt a, 0)
  | 0x5A => convert (wLo w) mode (wLo w = 11) (decodeElem fmt a)
  | 0x5D => fExp2 mode a
  | 0x5E => fRcp mode a
  | 0x5F => fRsqrt mode a
  | op => laneBinary op fmt mode a b

/-- A NaN becomes its format's canonical NaN: VSEL is none of the moves that copy a NaN's bits unchanged (R81). -/
def quietNan (fmt v : Nat) : Nat := if decodeElem fmt v = .nan then fmtNan fmt else v

/-- What a vector operation writes: the facet with its destination and flags (R62, R63, R97 to R100). -/
def Facet.vector (x : Facet) (w : BitVec 128) : Facet :=
  let fmt := wHi w
  let low (r : Nat) : List Nat := (x.lanes r).map (· % 2 ^ fmtBits fmt)
  let a := low (wVa w)
  let b := low (wVb w)
  let x := { x with hskv := x.hskv + BitVec.ofNat 64 (vecHandshakes w) }
  match wOp w with
  | 0x58 =>
    let m := ((List.zipWith (fun p q => laneCmp fmt (wLo w) p q) a b).zipIdx.map fun (t, l) => bit t * 2 ^ l).sum
    { x with masks := x.masks.put (wVd w) (BitVec.ofNat 64 m) }
  | 0x59 =>
    let m := x.mask (wVm w)
    x.setLanes (wVd w) ((List.zip a b).zipIdx.map fun ((p, q), l) => quietNan fmt (if m.getLsbD l then p else q))
  | 0x5B =>
    let (r, fl) := reduceTree (fun p q => laneBinary 0x50 fmt (wRound w) p q) 6 a
    (x.setLanes (wVd w) [r.headD 0]).vecFlags fl
  | 0x5C =>
    let (r, _) := reduceTree (fun p q => laneBinary 0x54 fmt 0 p q) 6 a
    x.setLanes (wVd w) [r.headD 0]
  | _ =>
    let rs := (List.zip (List.zip a b) (low (wVc w))).map fun ((p, q), c) => laneResult w p q c
    (x.setLanes (wVd w) (rs.map (·.1))).vecFlags (rs.foldl (fun fl r => fl ||| r.2) 0)

/-- A vector operation of R62 issues: one of one handshake writes at once, a longer one enters the engine. -/
def State.vectorOp (s : State) (f st op : Nat) : State :=
  s.issue f st op fun s q =>
    if vecHandshakes q.word = 1 then (s.modFacet f fun x => x.vector q.word).signal f q.word else s.enterFlight q

/-- VADD (R97, R99). -/
def execVadd (f st : Nat) (s : State) : Res := .next (s.vectorOp f st 0x50)
/-- VSUB (R97, R99). -/
def execVsub (f st : Nat) (s : State) : Res := .next (s.vectorOp f st 0x51)
/-- VMUL (R97, R99). -/
def execVmul (f st : Nat) (s : State) : Res := .next (s.vectorOp f st 0x52)
/-- VFMA (R97). -/
def execVfma (f st : Nat) (s : State) : Res := .next (s.vectorOp f st 0x53)
/-- VMAX (R98, R99). -/
def execVmax (f st : Nat) (s : State) : Res := .next (s.vectorOp f st 0x54)
/-- VMIN (R98, R99). -/
def execVmin (f st : Nat) (s : State) : Res := .next (s.vectorOp f st 0x55)
/-- VABS (R98, R99). -/
def execVabs (f st : Nat) (s : State) : Res := .next (s.vectorOp f st 0x56)
/-- VNEG (R98, R99). -/
def execVneg (f st : Nat) (s : State) : Res := .next (s.vectorOp f st 0x57)
/-- VCMP (R98, R99): writes the mask register S0[2:0]. -/
def execVcmp (f st : Nat) (s : State) : Res := .next (s.vectorOp f st 0x58)
/-- VSEL (R98). -/
def execVsel (f st : Nat) (s : State) : Res := .next (s.vectorOp f st 0x59)
/-- VCVT (R89): to I32 it always saturates. -/
def execVcvt (f st : Nat) (s : State) : Res := .next (s.vectorOp f st 0x5A)
/-- VRSUM (R63). -/
def execVrsum (f st : Nat) (s : State) : Res := .next (s.vectorOp f st 0x5B)
/-- VRMAX (R63). -/
def execVrmax (f st : Nat) (s : State) : Res := .next (s.vectorOp f st 0x5C)
/-- VEXP2 (R100). -/
def execVexp2 (f st : Nat) (s : State) : Res := .next (s.vectorOp f st 0x5D)
/-- VRCP (R100). -/
def execVrcp (f st : Nat) (s : State) : Res := .next (s.vectorOp f st 0x5E)
/-- VRSQRT (R100). -/
def execVrsqrt (f st : Nat) (s : State) : Res := .next (s.vectorOp f st 0x5F)
/-- VAND (R99). -/
def execVand (f st : Nat) (s : State) : Res := .next (s.vectorOp f st 0x60)
/-- VOR (R99). -/
def execVor (f st : Nat) (s : State) : Res := .next (s.vectorOp f st 0x61)
/-- VXOR (R99). -/
def execVxor (f st : Nat) (s : State) : Res := .next (s.vectorOp f st 0x62)
/-- VSHL (R99). -/
def execVshl (f st : Nat) (s : State) : Res := .next (s.vectorOp f st 0x63)
/-- VSHR (R99). -/
def execVshr (f st : Nat) (s : State) : Res := .next (s.vectorOp f st 0x64)

/-- VECTOR_COMPLETE (R63): the destination of a vector instruction of several handshakes is written, then the signals
apply. -/
def execVectorComplete (f : Nat) (s : State) : Res :=
  .next <|
    match (s.facet f).flight opVec with
    | none => s
    | some q => (s.putFacet f (((s.facet f).leave opVec).vector q.word)).signal f q.word

/-! ## Scoreboard, waits and ends -/

/-- TADD (R70). -/
def execTadd (f st : Nat) (s : State) : Res :=
  .next (s.issue f st 0xC0 fun s q => (s.addTok f (bitsOf q.word.toNat 36 32) (wS1 q.word)).signal f q.word)

/-- WAIT_LIMIT (R49): a token wait has lasted its limit; DETAIL names WCA when WCA is short, else WCB. -/
def execWaitLimit (f st : Nat) (s : State) : Res :=
  .next <|
    let x := s.facet f
    let y := x.stream st
    match y.waiting with
    | none => s
    | some (t, lim) =>
      if lim = 0 ∨ nFacets ≤ f ∨ 4 ≤ st ∨ x.state ≠ .running then s
      else
        let w := BitVec.ofNat 128 (leNat (s.readBytes (spadAddr f (16 * (y.base + y.next))) 16))
        if x.counts w then s
        else
          let c := if x.tok (wWca w) < wWna w then wWca w else wWcb w
          (s.reach (t + 1000 * lim)).facetExc f 0x0C st y.next c

/-- WATCHDOG (R468): a handshake of the facet is not complete within 16 µs. -/
def execWatchdog (f st : Nat) (s : State) : Res :=
  .next <|
    let x := s.facet f
    if nFacets ≤ f ∨ 4 ≤ st ∨ x.state = .empty then s else s.facetExc f 0x0D st (x.stream st).next 0

/-- Nothing of the facet is incomplete: no instruction, no transfer, no remote signal (R71, R72). -/
def Facet.quiet (x : Facet) : Bool := x.inflight.isEmpty && x.xfers.isEmpty && x.signals.isEmpty

/-- FACET_ARRIVE (R71): the facet arrives at the beat that all four streams have reached. -/
def execFacetArrive (f : Nat) (s : State) : Res :=
  .next <|
    let x := s.facet f
    if x.state = .running && x.arrived.isNone && x.quiet && (List.range 4).all fun k => (x.stream k).atBeat then
      s.putFacet f { x with arrived := some s.now }
    else s

/-- FACET_DONE (R72): the facet enters Done; when every facet of every device of the job is Done the job ends (R149). -/
def execFacetDone (f : Nat) (s : State) : Res :=
  .next <|
    let x := s.facet f
    if x.state = .running && x.quiet && (List.range 4).all fun k => (x.stream k).stopped then
      let s := s.putFacet f { x with state := .done }
      match s.parcelOf f with
      | none => s
      | some p =>
        let y := s.parcel p
        match y.cut with
        | none => s
        | some c =>
          if y.jobOn && s.allDone p then
            let (all, s) := s.doneElsewhere c
            if all then s.endJob p 1 c.rank false else s
          else s
    else s

end Sys2Proof.Machine
end

