-- ==== Sys2Proof/Machine/Transfers.lean ====
section
/-! DEFINITION. The stream engine (R65 to R69), its transfers over the mesh, to the attached host and to peers, and what
ends them. -/

namespace Sys2Proof.Machine

/-! ## Pieces of a transfer -/

/-- Where a device address is served: a facet by its index, memory-girdle die k by 2000 + k (R32, R162). -/
def State.serverOf (s : State) (a : Nat) : Nat :=
  match regionOf a with
  | .hbm => 2000 + dieOfStack (s.stackOf a)
  | .spad f _ => f
  | .sram k _ => 2000 + k
  | _ => 3000

/-- Bytes from a device address to the next boundary that a flit may not cross: 1 KiB of HBM (R162), the end of a
scratchpad or of a die's SRAM. -/
def roomAt (a : Nat) : Nat :=
  match regionOf a with
  | .hbm => 1024 - a % 1024
  | .spad _ off => 0x10_0000 - off
  | .sram _ off => 0x0200_0000 - off
  | _ => 0x1000

/-- Cuts a device range into pieces of at most `m` bytes that cross no boundary. -/
def piecesOf (m : Nat) : Nat → Nat → Nat → List (Nat × Nat)
  | 0, _, _ => []
  | fuel + 1, a, n => if n = 0 then [] else let k := min n (min m (roomAt a)); (a, k) :: piecesOf m fuel (a + k) (n - k)

/-- Marks the last element for each key. -/
def marksLast {α : Type} (key : α → Nat) : List α → List (α × Bool)
  | [] => []
  | x :: t => (x, !t.any fun y => key y = key x) :: marksLast key t

/-- The header of a flit from a facet to the server of a device address. -/
def State.flitTo (s : State) (f server typ : Nat) : Flit :=
  if 2000 ≤ server then s.dieFlit f (server - 2000) typ else s.facetFlit f server typ

/-! ## Ends of transfers (R67, R69, R127) -/

/-- The transfer in flight with a TAG. -/
def Facet.xfer (x : Facet) (tag : Nat) : Option Xfer := x.xfers.find? fun t => t.tag = tag

/-- A transfer of the facet leaves the 16. -/
def Facet.dropXfer (x : Facet) (tag : Nat) : Facet := { x with xfers := x.xfers.filter fun t => t.tag ≠ tag }

/-- Changes a transfer in flight. -/
def Facet.modXfer (x : Facet) (tag : Nat) (g : Xfer → Xfer) : Facet :=
  { x with xfers := x.xfers.map fun t => if t.tag = tag then g t else t }

/-- A transfer has received all its acknowledgements: a SPUT sends the remote signal it still owes, any other applies its
local signal. -/
def State.xferComplete (s : State) (f : Nat) (t : Xfer) : State :=
  let s := s.modFacet f fun x => x.dropXfer t.tag
  if t.kind = .put then if t.sig then s.farSignal f t.word else s else s.localSignal f t.word

/-- One acknowledgement, or one last DATA flit, of a transfer. -/
def State.xferAck (s : State) (f : Nat) (t : Xfer) : State :=
  if 1 < t.due then s.modFacet f fun x => x.modXfer t.tag fun t => { t with due := t.due - 1 }
  else s.xferComplete f t

/-- The exception of a transfer status (R117, R182, R269). -/
def statusExc (status : Nat) : Nat :=
  if status = 0x0003 ∨ status = 0x0024 then 0x08
  else if status = 0x0005 ∨ status = 0x0014 then 0x03
  else if status = 0x0011 then 0x09 else 0x0A

/-- A transfer ends with an error (R127). -/
def State.xferFail (s : State) (f : Nat) (t : Xfer) (status : Nat) : State :=
  let s := s.modFacet f fun x => x.dropXfer t.tag
  let s := s.raise blkFCT 0x20FF (some (s.facet f).who.1) f status
  s.facetExc f (statusExc status) 2 t.index status

/-- A refusal of R33 meets one of the facet's own transfers: the event and ADDRESS (R69, R491). -/
def State.addressFail (s : State) (f index a status : Nat) : State :=
  (s.addressEvent blkFCT (s.facet f).who.1 a f).facetExc f 0x09 2 index status

/-- Adds to FCT_DISCARD (R73). -/
def State.facetDiscard (s : State) (f : Nat) : State :=
  s.modFacet f fun x => { x with discard := min 0xFFFFFFFF (x.discard + 1) }

/-! ## Starting transfers -/

/-- The lowest TAG of 0 to 15 that no transfer holds: R117 asks only for a unique one, the choice is the model's (log entry 54). -/
def Facet.freeTag (x : Facet) : Nat := ((List.range 16).find? fun t => (x.xfer t).isNone).getD 0

/-- The remote address of SPUT and SGET (R66). -/
def remoteAddr (x : Facet) (q : Issued) : Nat :=
  wrapInt 48 ((Tbl.getD x.dregs (wHi q.word) 0).toNat + 16 * q.e1)

/-- The peer's rank when the transfer leaves the device (R66). -/
def peerOf (x : Facet) (w : BitVec 128) : Option Nat := if wPeer w && x.peer ≠ x.rank then some x.peer else none

/-- The job's parcel and cut of a facet. -/
def State.cutOf (s : State) (f : Nat) : Option (Nat × Cut) :=
  match s.parcelOf f with
  | none => none
  | some p => (s.parcel p).cut.map fun c => (p, c)

/-- The device of a rank of the facet's job. -/
def State.deviceOf (s : State) (f rank : Nat) : Nat :=
  match s.cutOf f with | some (_, c) => c.ranktab.getD rank 0xFFFF | none => 0xFFFF

/-- A frame of a transfer to a peer (R267). -/
def State.peerFrame (s : State) (f rank typ tag : Nat) : ZFrame :=
  let x := s.facet f
  let dev := s.deviceOf f rank
  { s.zblank typ dev with
    tag, sfx := facetX f, sfy := facetY f, inst := x.who.1
    job := match s.cutOf f with | some (_, c) => c.job | none => 0 }

/-- Adds a transfer in flight. -/
def State.addXfer (s : State) (f : Nat) (t : Xfer) : State := s.modFacet f fun x => { x with xfers := x.xfers ++ [t] }

/-- The network-girdle die on the way to a peer has failed: its edge answers with NACK 1 (R466). -/
def State.peerDead (s : State) (f rank : Nat) : Bool :=
  match s.wayTo s.fabric.id (s.deviceOf f rank) with
  | some l => s.dieFailed (8 + dieOfLink l)
  | none => false

/-- A transfer meets the edge of a failed die. -/
def State.deadNack (s : State) (f rank tag : Nat) : State :=
  let x := s.facet f
  s.nackFacet (s.linkTo (s.deviceOf f rank)) f tag x.who.1 x.who.2 1

/-- SADDR (R65): loads or adds to an address register. -/
def execSaddr (f st : Nat) (s : State) : Res :=
  .next (s.issue f st 0x80 fun s q =>
    let v := BitVec.ofNat 48 q.word.toNat
    (s.modFacet f fun x =>
      let d := wLo q.word
      { x with dregs := x.dregs.put d (if bitAt q.word.toNat 52 then Tbl.getD x.dregs d 0 + v else v) }).signal f q.word)

/-- SPEER (R65): sets the peer rank, modulo the job size. -/
def execSpeer (f st : Nat) (s : State) : Res :=
  .next (s.issue f st 0x83 fun s q =>
    (s.modFacet f fun x => { x with peer := (q.e2 % (x.jobSize : Int)).toNat }).signal f q.word)

/-- SPUT (R66, R67): a write transfer starts; its source is read by SPUT_SOURCE_READ. -/
def execSput (f st : Nat) (s : State) : Res :=
  .next (s.issue f st 0x81 fun s q =>
    let x := s.facet f
    let n := 16 * (wS2 q.word + 1)
    let a := remoteAddr x q
    let peer := peerOf x q.word
    let t : Xfer :=
      { tag := x.freeTag, kind := .put, index := q.index, word := q.word, loc := 16 * q.e0.toNat, remote := a, bytes := n, peer,
        srcRead := false, sig := false, due := 0 }
    match peer with
    | some _ => s.addXfer f t
    | none =>
      match s.rangesOf x.who.1 a n true with
      | .error e => s.addressFail f q.index a e
      | .ok _ => s.addXfer f t)

/-- The WRITE flits of a transfer with the key of their server (R127, R162). -/
def State.writeFlits (s : State) (f tag : Nat) : List (Nat × Nat) → List Byte → List (Nat × Flit)
  | [], _ => []
  | (a, n) :: t, bs =>
    (let k := s.serverOf a
     (k, { s.flitTo f k 0 with units := unitsOf n, tag, addr := a, payload := bs.take n })) ::
      State.writeFlits s f tag t (bs.drop n)

/-- The parts of a range list that lie in the attached host, with their bytes, and the rest as flits' ranges. -/
def hostSplit : List (Nat × Nat) → List Byte → List (Nat × List Byte) × List (Nat × Nat) × List Byte
  | [], _ => ([], [], [])
  | (a, n) :: t, bs =>
    let (h, r, d) := hostSplit t (bs.drop n)
    if hostBase ≤ a then ((a, bs.take n) :: h, r, d) else (h, (a, n) :: r, bs.take n ++ d)

/-- The local part of a SPUT leaves: WRITE flits to facets and memory-girdle dies, memory writes to the attached host. The
signal rides on the last flit when every byte goes to the facet it names (R67, R117, R164). When a function may not issue a write
to the attached host (R389) nothing leaves, and the transfer ends with ADDRESS and status 0x0006 (R69, log entry 55). -/
def State.putLocal (s : State) (f : Nat) (t : Xfer) (rs : List (Nat × Nat)) (bs : List Byte) : State :=
  let x := s.facet f
  let w := t.word
  let (hosts, rest, data) := hostSplit rs bs
  let fls := s.writeFlits f t.tag (rest.flatMap fun r => piecesOf 128 r.2 r.1 r.2) data
  let tgt := match x.owner with | some o => facetAt (o.px + wRsx w) (o.py + wRsy w) | none => 0
  let live := x.state ≠ .faulted ∧ wRsn w ≠ 0
  let rides : Bool := decide live && hosts.isEmpty && fls.all fun e => e.1 = tgt
  let marked := marksLast (fun e : Nat × Flit => e.1) fls
  let due := (marked.filter (·.2)).length
  if hosts.any fun h => (s.mastered h.1 h.2.length true).isNone then
    (s.modFacet f fun x => x.dropXfer t.tag).addressFail f t.index t.remote 6
  else
  let s := hosts.foldl (fun s h => match s.saveAt (some x.who) h.1 h.2 with | .ok s' => s' | .error _ => s) s
  let s := marked.foldl (fun s e =>
    let fl := { e.1.2 with last := e.2 }
    s.sendFlit (if e.2 && rides then { fl with tokc := wRsc w, tokn := wRsn w } else fl)) s
  let s := s.modFacet f fun x => x.modXfer t.tag fun t => { t with due, sig := !rides }
  if due = 0 then s.xferComplete f { t with due, sig := !rides } else s

/-- The WRITE frames of a SPUT to a peer (R267). -/
def State.putPeer (s : State) (f rank : Nat) (t : Xfer) (bs : List Byte) : State :=
  let w := t.word
  let n := (bs.length + 4095) / 4096
  let live : Bool := (s.facet f).state ≠ .faulted && wRsn w ≠ 0
  let s := s.modFacet f fun x => x.modXfer t.tag fun t => { t with due := 1, sig := false }
  if s.peerDead f rank then s.deadNack f rank t.tag else (List.range n).foldl (fun s j =>
    let last := decide (j + 1 = n)
    let sg := last && live
    s.sendFlow { s.peerFrame f rank 1 t.tag with
      last, sig := sg, tokn := if sg then wRsn w else 0, rsx := if sg then wRsx w else 0, rsy := if sg then wRsy w else 0
      tokc := if sg then wRsc w else 0, addr := wrapInt 48 (t.remote + 4096 * j : Nat)
      payload := slice bs (4096 * j) 4096 }) s

/-- SPUT_SOURCE_READ (R67): every source byte is read, the local signal applies, and the bytes leave: LSN is added before the remote
signal is sent, which a facet that the addition stops no longer sends (R45, R47, R76). -/
def execSputSourceRead (f tag : Nat) (s : State) : Res :=
  .next <|
    match (s.facet f).xfer tag with
    | none => s
    | some t =>
      if t.kind ≠ .put ∨ t.srcRead then s
      else
        match s.spadRead f t.loc t.bytes with
        | .error e => (s.modFacet f fun x => x.dropXfer tag).spadFail f 2 t.index t.loc t.bytes 4 false e
        | .ok bs =>
          let s := (s.metSpad f t.loc t.bytes).bankAccess f 4 false t.loc t.bytes
          let s := s.modFacet f fun x =>
            { x.modXfer tag (fun t => { t with srcRead := true }) with hsks := x.hsks + BitVec.ofNat 64 (t.bytes / 16) }
          match t.peer with
          | some r => (s.localSignal f t.word).putPeer f r t bs
          | none =>
            match s.rangesOf (s.facet f).who.1 t.remote t.bytes true with
            | .error e => (s.modFacet f fun x => x.dropXfer tag).addressFail f t.index t.remote e
            | .ok rs => (s.localSignal f t.word).putLocal f { t with srcRead := true } rs bs

/-- The pieces of a READ: one for each whole range of scratchpad or SRAM, one for each KiB of HBM in whole units (R162),
as (address, bytes, offset in the transfer). -/
def readPieces : Nat → Nat → Nat → Nat → List (Nat × Nat × Nat)
  | 0, _, _, _ => []
  | fuel + 1, a, n, off =>
    if n = 0 then []
    else
      let k := match regionOf a with
        | .hbm => min n ((1024 - a % 1024 + 15) / 16 * 16)
        | _ => n
      (a, k, off) :: readPieces fuel (a + k) (n - k) (off + k)

/-- Ranges with their offsets in a transfer. -/
def withOffsets : Nat → List (Nat × Nat) → List (Nat × Nat × Nat)
  | _, [] => []
  | off, (a, n) :: t => (a, n, off) :: withOffsets (off + n) t

/-- The READ flits and master reads of an SGET (R66, R117, R387); the transfer waits for one last DATA for each. -/
def State.getLocal (s : State) (f : Nat) (t : Xfer) (rs : List (Nat × Nat)) : State :=
  let x := s.facet f
  let ps := (withOffsets 0 rs).flatMap fun (a, n, off) => readPieces (n / 512 + 2) a n off
  let (s, due) := ps.foldl (fun (r : State × Nat) (a, n, off) =>
    if hostBase ≤ a then
      let (s', k) := r.1.queueReads x.who.1 x.who.2 (fun o => .facet f t.tag (t.loc + off + o)) ((r.1.hostParts a n false).getD []) 0
      (s', r.2 + k)
    else
      (r.1.sendFlit { r.1.flitTo f (r.1.serverOf a) 1 with
        tag := t.tag, addr := a, last := true
        payload := leBytes 4 (t.loc + off) ++ leBytes 4 (unitsOf n) ++ zeros 8 }, r.2 + 1)) (s, 0)
  s.addXfer f { t with due }

/-- SGET (R66): a read transfer starts. -/
def execSget (f st : Nat) (s : State) : Res :=
  .next (s.issue f st 0x82 fun s q =>
    let x := s.facet f
    let n := 16 * (wS2 q.word + 1)
    let a := remoteAddr x q
    let peer := peerOf x q.word
    let t : Xfer :=
      { tag := x.freeTag, kind := .get, index := q.index, word := q.word, loc := 16 * q.e0.toNat, remote := a, bytes := n, peer,
        srcRead := true, sig := false, due := 1 }
    match peer with
    | some r =>
      let s := s.addXfer f t
      if s.peerDead f r then s.deadNack f r t.tag
      else s.sendFlow { s.peerFrame f r 2 t.tag with addr := a, payload := leBytes 4 t.loc ++ leBytes 4 n }
    | none =>
      match s.rangesOf x.who.1 a n false with
      | .error e => s.addressFail f q.index a e
      | .ok rs => s.getLocal f t rs)

/-- STOK (R68): a remote signal with no data; its local signal waits for the acknowledgement. -/
def execStok (f st : Nat) (s : State) : Res :=
  .next (s.issue f st 0x84 fun s q =>
    let x := s.facet f
    let w := q.word
    let peer := peerOf x w
    let t : Xfer :=
      { tag := x.freeTag, kind := .tok, index := q.index, word := w, loc := 0, remote := 0, bytes := 0, peer, srcRead := true,
        sig := false, due := 1 }
    match peer with
    | some r =>
      let s := s.addXfer f t
      if s.peerDead f r then s.deadNack f r t.tag
      else s.sendFlow { s.peerFrame f r 4 t.tag with
          last := true, sig := true, tokn := wRsn w, rsx := wRsx w, rsy := wRsy w, tokc := wRsc w }
    | none =>
      let dst := match x.owner with | some o => facetAt (o.px + wRsx w) (o.py + wRsy w) | none => 0
      (s.sendFlit { s.facetFlit f dst 3 with
        tokc := wRsc w, tokn := wRsn w, last := true, tag := t.tag, addr := spadAddr dst 0 }).addXfer f t)

/-- The DESC flits of a descriptor: 128 bytes each, the last with LAST (R116, R127). -/
def descFlits (base : Flit) : Nat → Nat → List Byte → List Flit
  | 0, _, _ => []
  | fuel + 1, a, bs =>
    if bs.isEmpty then []
    else
      { base with units := unitsOf (min 128 bs.length), addr := a, last := decide (bs.length ≤ 128), payload := bs.take 128 } ::
        descFlits base fuel (a + 128) (bs.drop 128)

/-- SGATHER (R68): the descriptor is read and sent to the gather engine of a memory-girdle die. -/
def execSgather (f st : Nat) (s : State) : Res :=
  .next (s.issue f st 0x85 fun s q =>
    let x := s.facet f
    let w := q.word
    let off := 16 * q.e0.toNat
    let n := 16 * (wS1 w + 1)
    match s.spadRead f off n with
    | .error e => s.spadFail f 2 q.index off n 4 false e
    | .ok bs =>
      let t : Xfer :=
        { tag := x.freeTag, kind := .gather, index := q.index, word := w, loc := off, remote := 0, bytes := n, peer := none,
          srcRead := true, sig := false, due := 1 }
      let s := ((s.metSpad f off n).bankAccess f 4 false off n).modFacet f fun x => { x with hsks := x.hsks + BitVec.ofNat 64 (n / 16) }
      ((descFlits { s.dieFlit f (bitsOf w.toNat 50 48) 6 with tag := t.tag } (n / 128 + 1) (spadAddr f off) bs).foldl
        State.sendFlit s).addXfer f t)

end Sys2Proof.Machine
end

