-- ==== Sys2Proof/Machine/Gates.lean ====
section
/-! DEFINITION. The issue gates (R432) and the containment of Device-scope faults (R466, R467). -/

namespace Sys2Proof.Machine

/-- Closes a field's issue gate. -/
def State.closeGate (s : State) (f : Nat) : State :=
  if (s.pfield f).closed then s else s.modPField f fun x => { x with closed := true, closedAt := s.now }

/-- The time a token wait has spent at a closed gate does not count (R49, R432). -/
def Facet.shiftWaits (x : Facet) (since now : Nat) : Facet :=
  { x with streams := x.streams.map fun (k, y) =>
      (k, { y with waiting := y.waiting.map fun (t, lim) => (t + (now - max t since), lim) }) }

/-- Opens a field's issue gate. -/
def State.openGate (s : State) (f : Nat) : State :=
  if (s.pfield f).closed then
    let since := (s.pfield f).closedAt
    { s.modPField f (fun x => { x with closed := false }) with
      facets := s.facets.map fun (k, x) => (k, if fieldOf k = f then x.shiftWaits since s.now else x) }
  else s

/-- Closes every field's gate. -/
def State.closeGates (s : State) : State := (List.range 6).foldl State.closeGate s

/-- A reason other than R432 keeps the gates closed: the power-fail warning (R449), or a Device-scope fault whose cause has
not cleared (R467). -/
def State.gateHeld (s : State) : Bool :=
  s.power.pfw || s.faults.table.any fun e => e.2.scope = .device && e.2.status = .active

/-- Opens every field's gate in field order, unless a reason or a closure of R432 keeps them closed. -/
def State.openGates (s : State) : State :=
  if s.gateHeld || s.power.reopenAt.isSome then s else (List.range 6).foldl State.openGate s

/-- Ends a running job at once (R151, R467). -/
def State.stopNow (s : State) (p : Nat) : State :=
  let x := s.parcel p
  match x.cut with
  | some c => if x.jobOn then s.endJob p 3 c.rank true else s
  | none => s

/-- Raises a fault at Device scope (R467): the gates close and every running job ends with STOP_NOW. -/
def State.raiseDevice (s : State) (code object : Nat) : State :=
  let s := (s.recordFault code .device object).closeGates
  s.parcels.foldl (fun s e => s.stopNow e.1) s

/-- The fault code of an alarm by its source: 1 voltage, 2 temperature, 3 clock, 4 tamper. -/
def alarmCode (src : Nat) : Nat := 0x0F + src

/-- An alarm's ALARM record and its Device-scope fault (R471). -/
def State.recordAlarm (s : State) (src sensor : Nat) : State :=
  (s.raise blkBZL 0xB103 none src sensor).raiseDevice (alarmCode src) sensor

/-- The alarms of Sleep and Dormant are recorded at the exit to Run (R487); the fault of one that has cleared since has no cause left. -/
def State.lateAlarms (s : State) : State :=
  s.faults.late.foldl (fun s a =>
    let s := s.recordAlarm a.1 a.2
    if s.faults.alarms.contains a.1 then s else s.causeGone (alarmCode a.1))
    { s with faults := { s.faults with late := [] } }

end Sys2Proof.Machine
end

