-- ==== Sys2Proof/Machine/Mesh.lean ====
section
/-! DEFINITION. The table mesh (R116 to R130): routers, the facet's mesh ingress, stalls, and bank power transitions
(R112, R113). -/

namespace Sys2Proof.Machine

/-! ## Answers -/

/-- The event of a NACK at its responder (R117, R33, R490). -/
def State.nackEvent (s : State) (f inst addr status : Nat) : State :=
  match status with
  | 1 => s.raise blkTBL 0x2003 (some inst) addr 0
  | 2 => s.raise blkTBL 0x2002 (some inst) addr f
  | _ => s.raise blkTBL 0x20FF (some inst) f status

/-- A responder refuses a flit. -/
def State.nack (s : State) (f : Nat) (fl : Flit) (status : Nat) : State :=
  (s.nackEvent f fl.inst fl.addr status).sendFlit (answerTo fl 5 (nackBytes status))

/-! ## Routers (R119, R121, R124) -/

/-- The output port of a router for a flit: 0 north, 1 south, 2 east, 3 west, 4 local. -/
def outPort (x y : Nat) (fl : Flit) : Nat :=
  if x < fl.dx then 2 else if fl.dx < x then 3 else if y < fl.dy then 0 else if fl.dy < y then 1
  else match fl.side with | 1 => 1 | 2 => 0 | 3 => 3 | 4 => 2 | _ => 4

/-- Why a router discards a flit: a destination out of range or a reserved SIDE at the first router, a side with no edge
link, a reserved TYPE or a descriptor for a facet at the destination (R117, R121). -/
def routeFault (x y : Nat) (fl : Flit) : Option Nat :=
  if 48 ≤ fl.dx ∨ 32 ≤ fl.dy ∨ 5 ≤ fl.side then some 4
  else if fl.dx = x ∧ fl.dy = y then
    if fl.side ≠ 0 ∧ (edgeDie x y fl.side).isNone then some 3
    else if fl.side = 0 ∧ 6 ≤ fl.typ then some 4
    else none
  else none

/-- Where a router sends a flit: to its facet, out to the die of a side, or to the facing input of the next router. -/
def nextPlace (x y : Nat) (fl : Flit) : Place :=
  if fl.dx = x ∧ fl.dy = y then
    match fl.side with
    | 0 => .facet (facetAt x y)
    | side => .die ((edgeDie x y side).getD 0)
  else match outPort x y fl with
    | 0 => .buf x (y + 1) 1
    | 1 => .buf x (y - 1) 0
    | 2 => .buf (x + 1) y 3
    | _ => .buf (x - 1) y 2

/-- The flits of a channel at a place. -/
def State.heldAt (s : State) (pl : Place) (vc : Nat) : Nat := (s.mesh.transit.filter fun h => h.place = pl && h.flit.vc = vc).length

/-- The next place takes a flit: a router input holds four flits of each channel (R119); a facet takes a READ only while its router
has a free place for the DATA that answers it (R120). The ingress of a facet and of a die consume what reaches them. -/
def State.roomFor (s : State) (pl : Place) (fl : Flit) : Bool :=
  match pl with
  | .buf .. => decide (s.heldAt pl fl.vc < 4)
  | .facet f => fl.typ ≠ 1 || decide (s.heldAt (.buf (facetX f) (facetY f) 4) 1 < 4)
  | .die _ => true

/-- The flit at the head of a channel of an input port. -/
def State.headAt (s : State) (x y port vc : Nat) : Option Hop := s.firstAt (.buf x y port) fun g => g.vc = vc

/-- The flit at the head of a channel of an input port, when it can leave by an output port now. -/
def State.readyAt (s : State) (x y out port vc : Nat) : Option Flit :=
  match s.headAt x y port vc with
  | some h => if outPort x y h.flit = out && (routeFault x y h.flit).isNone && s.roomFor (nextPlace x y h.flit) h.flit then some h.flit else none
  | none => none

/-- The number of a flit's stream: its source and destination (R123). -/
def streamKey (fl : Flit) : Nat := 2048 * facetAt fl.sx fl.sy + facetAt fl.dx fl.dy

/-- What an output port sends next, with its input port: in a slot reserved to a stream, that stream's next flit if it has one;
otherwise the channels in the order 1, 3, 0, 2, and within a channel the input ports in rotation after the last one served
(R124). -/
def State.pick (s : State) (x y out : Nat) : Option (Nat × Flit) :=
  let t := s.facet (facetAt x y)
  let ready (vc : Nat) (p : Nat) : Option (Nat × Flit) := (s.readyAt x y out p vc).map fun fl => (p, fl)
  let reserved := match t.slots.find (16 * out + t.wheelPos.getD out 0) with
    | some k => (List.range 5).findSome? fun p => (ready 2 p).bind fun e => if streamKey e.2 = k then some e else none
    | none => none
  match reserved with
  | some e => some e
  | none => ([1, 3, 0, 2] : List Nat).findSome? fun vc =>
      (List.range 5).findSome? fun j => ready vc ((t.lastIn.getD (4 * out + vc) 4 + 1 + j) % 5)

/-- A flit leaves a router input: those of its channel that stay there have seen one leave (R129). -/
def State.leaveInput (s : State) (x y port : Nat) (fl : Flit) : State :=
  let s := s.taken (.buf x y port) fl
  let left (h : Hop) : Hop := if h.place = .buf x y port && h.flit.vc = fl.vc then { h with since := s.now } else h
  { s with mesh := { s.mesh with transit := s.mesh.transit.map left } }

/-- A router sends a flit on: its output port counts it, its wheel moves on a slot, and the input port is the last one served
(R116, R124). -/
def State.forward (s : State) (x y port : Nat) (fl : Flit) : State :=
  let out := outPort x y fl
  ((s.leaveInput x y port fl).modFacet (facetAt x y) fun t =>
    { t with
      links := t.links.bump out
      wheelPos := if out < 4 then t.wheelPos.put out ((t.wheelPos.getD out 0 + 1) % 16) else t.wheelPos
      lastIn := t.lastIn.put (4 * out + fl.vc) port }).putFlit (nextPlace x y fl) fl

/-! ## Mesh ingress (R73, R115, R126 to R128) -/

/-- The refusal of an access to a facet's scratchpad from outside: the bank is not On. -/
def State.ingressBank (s : State) (f off n : Nat) : Option Nat := if (s.facet f).banksOn off n then none else some 2

/-- The payload's place in the scratchpad. -/
def flitOff (fl : Flit) : Nat := fl.addr % 0x10_0000

/-- Remembers the first refusal of a transfer (R127). -/
def State.refuse (s : State) (f : Nat) (fl : Flit) (status : Nat) : State :=
  s.modFacet f fun x =>
    if x.refused.has (transferKey fl) then x else { x with refused := x.refused.put (transferKey fl) status }

/-- FLIT_WRITE_RECEIVE (R126, R127): the payload is written, and on LAST the increment is applied and the ACK sent, or
the transfer's first refusal answered. -/
def execFlitWriteReceive (f : Nat) (fl : Flit) (s : State) : Res :=
  .next <|
    if fl.typ ≠ 0 ∨ !s.atFacet f fl then s
    else
    let s := s.taken (.facet f) fl
    if !(s.facet f).accepts fl.inst fl.gen then s.facetDiscard f
    else
      let off := flitOff fl
      let n := fl.data.length
      let s := match s.ingressBank f off n with
        | some e => (s.nackEvent f fl.inst fl.addr e).refuse f fl e
        | none =>
          let (s', ok) := (s.bankAccess f 6 true off n).storeRaw (spadAddr f off) fl.data
          if ok then s' else ((s'.countBad f off n).nackEvent f fl.inst fl.addr 1).refuse f fl 1
      if !fl.last then s
      else
        match (s.facet f).refused.find (transferKey fl) with
        | some e =>
          (s.modFacet f fun x => { x with refused := Tbl.del x.refused (transferKey fl) }).sendFlit
            (answerTo fl 5 (nackBytes e))
        | none => (if fl.tokn = 0 then s else s.addTok f fl.tokc fl.tokn).sendFlit (answerTo fl 4 [])

/-- The DATA flits that answer a READ (R117, R127). -/
def dataFlits (fl : Flit) (dst : Nat) : Nat → Nat → List Byte → List Flit
  | 0, _, _ => []
  | fuel + 1, off, bs =>
    if bs.isEmpty then []
    else
      { fl.answer 2 (bs.take 128) with
        units := unitsOf (min 128 bs.length), addr := spadAddr dst off, last := decide (bs.length ≤ 128) } ::
        dataFlits fl dst fuel (off + 128) (bs.drop 128)

/-- The requester's offset, the length in bytes and whether a reserved payload bit is set, of a READ flit (R117). -/
def readFields (fl : Flit) : Nat × Nat × Bool :=
  let o := fieldAt fl.payload 0 4
  let n := fieldAt fl.payload 4 4
  (o % 0x10_0000, 16 * (n % 65536 + 1), decide (0x10_0000 ≤ o) || decide (65536 ≤ n) || !allZero (slice fl.payload 8 8))

/-- FLIT_READ_RECEIVE (R128): the facet serves a READ with DATA flits. -/
def execFlitReadReceive (f : Nat) (fl : Flit) (s : State) : Res :=
  .next <|
    if fl.typ ≠ 1 ∨ !s.atFacet f fl then s
    else
    let s := s.taken (.facet f) fl
    if !(s.facet f).accepts fl.inst fl.gen then s.facetDiscard f
    else
      let off := flitOff fl
      let (o, n, bad) := readFields fl
      if bad then s.nack f fl 4
      else if 0x10_0000 < off + n then s.nack f fl 5
      else
        match s.ingressBank f off n with
        | some e => s.nack f fl e
        | none =>
          let s := s.bankAccess f 7 false off n
          if s.rangeBad (spadAddr f off) n then (s.countBad f off n).nack f fl 1
          else
            (dataFlits fl (facetAt fl.sx fl.sy) (n / 128 + 1) o (s.readBytes (spadAddr f off) n)).foldl State.sendFlit
              (s.metSpad f off n)

/-- The words of a scratchpad that a piece of an SGET's destination counts: those whose first byte of the transfer lies in it, so
that the transfer counts each word once (R78). -/
def getWords (t : Xfer) (off n : Nat) : List Nat :=
  ((List.range (wordsOf off n)).map (· + off / 128)).filter fun w => off ≤ max (128 * w) t.loc

/-- Writes returned data into the requester's scratchpad, by master `m`, and, on the last of it, ends the transfer (R67, R117). -/
def State.dataArrive (s : State) (f m : Nat) (t : Xfer) (off : Nat) (bs : List Byte) (last : Bool) : State :=
  match s.spadWrite f off bs with
  | .error e => (s.modFacet f fun x => x.dropXfer t.tag).spadFail f 2 t.index off bs.length m true e
  | .ok s =>
    let s := (s.bankWords f m true (getWords t off bs.length)).modFacet f fun x =>
      { x with hsks := x.hsks + BitVec.ofNat 64 ((bs.length + 15) / 16) }
    if last then s.xferAck f t else s

/-- A DATA flit whose TAG names no read in flight is applied all the same, as R73 has it of every matching flit: its bytes are
written, and no transfer ends. -/
def State.dataStray (s : State) (f : Nat) (fl : Flit) : State :=
  match s.ingressBank f (flitOff fl) fl.data.length with
  | some _ => s
  | none => ((s.bankAccess f 6 true (flitOff fl) fl.data.length).storeRaw (spadAddr f (flitOff fl)) fl.data).1

/-- FLIT_DATA_RECEIVE (R117, R127): returned read data. -/
def execFlitDataReceive (f : Nat) (fl : Flit) (s : State) : Res :=
  .next <|
    if fl.typ ≠ 2 ∨ !s.atFacet f fl then s
    else
    let s := s.taken (.facet f) fl
    if !(s.facet f).accepts fl.inst fl.gen then s.facetDiscard f
    else
      match (s.facet f).xfer fl.tag with
      | some t => if t.kind = .get then s.dataArrive f 6 t (flitOff fl) fl.data fl.last else s.dataStray f fl
      | none => s.dataStray f fl

/-- FLIT_TOKEN_RECEIVE (R117, R47): the increment is applied and acknowledged, even when it overflows. -/
def execFlitTokenReceive (f : Nat) (fl : Flit) (s : State) : Res :=
  .next <|
    if fl.typ ≠ 3 ∨ !s.atFacet f fl then s
    else
    let s := s.taken (.facet f) fl
    if !(s.facet f).accepts fl.inst fl.gen then s.facetDiscard f
    else (s.addTok f fl.tokc fl.tokn).sendFlit (answerTo fl 4 [])

/-- An acknowledgement reaches a facet: of a transfer or of a remote signal (R69, R73). -/
def State.ackArrive (s : State) (f tag : Nat) : State :=
  let x := s.facet f
  match x.xfer tag with
  | some t => s.xferAck f t
  | none =>
    if x.signals.contains tag then s.putFacet f { x with signals := x.signals.filter (· ≠ tag) } else s.facetDiscard f

/-- A refusal reaches a facet (R127). A NACK of TAG 0x7F comes from a gather engine (R182); no rule says which instruction
index it records. Nor does one say what the refusal of a remote signal records: the model takes the stream engine's stream, 2, and its
next index, whichever stream sent the signal (log entry 54). -/
def State.nackArrive (s : State) (f tag status : Nat) : State :=
  let x := s.facet f
  match x.xfer tag with
  | some t => s.xferFail f t status
  | none =>
    if x.signals.contains tag then
      ((s.putFacet f { x with signals := x.signals.filter (· ≠ tag) }).raise blkFCT 0x20FF (some x.who.1) f status).facetExc
        f (statusExc status) 2 (x.stream 2).next status
    else if tag = 0x7F ∧ x.state ≠ .empty then
      let (v, s) := s.takeFree
      (s.raise blkFCT 0x20FF (some x.who.1) f status).facetExc f (statusExc status) 2 (v % 65536) status
    else s.facetDiscard f

/-- FLIT_ACK_RECEIVE (R127). -/
def execFlitAckReceive (f : Nat) (fl : Flit) (s : State) : Res :=
  .next <|
    if fl.typ ≠ 4 ∨ !s.atFacet f fl then s else (s.taken (.facet f) fl).ackArrive f fl.tag

/-- FLIT_NACK_RECEIVE (R127, R182). -/
def execFlitNackReceive (f : Nat) (fl : Flit) (s : State) : Res :=
  .next <|
    if fl.typ ≠ 5 ∨ !s.atFacet f fl then s else (s.taken (.facet f) fl).nackArrive f fl.tag (fieldAt fl.payload 0 2)

/-! ## Stalls (R129, R466) -/

/-- TBL_STALL. -/
def stallWord : Option Stall → BitVec 64
  | none => 0
  | some t => pack [(63, 1, 1), (62, 1, bit t.more), (4, 3, t.port), (2, 2, t.vc)]

/-- MESH_STALL (R129): a flit has stayed at a router input longer than TBL_HOLDLIM while none of its channel left it. The first
stall is recorded; it is contained in the facet's Running parcel, else in the device (R466). -/
def execMeshStall (f port vc : Nat) (s : State) : Res :=
  .next <|
    match s.headAt (facetX f) (facetY f) port vc with
    | none => s
    | some h =>
      let s := s.reach (h.since + 1000 * s.mesh.holdlim)
      let s := s.modFacet f fun x =>
        { x with stall := match x.stall with | some t => some { t with more := true } | none => some { more := false, port, vc } }
      let s := s.raise blkTBL 0x2103 ((s.facet f).owner.map (·.inst)) f (stallWord (s.facet f).stall).toNat
      match s.parcelOf f with
      | some p =>
        if s.parcelState p = .running then
          (s.recordFault 0x0005 .parcel f).facetExc f 0x0D 0 ((s.facet f).stream 0).next (0x0100 + port)
        else s.raiseDevice 0x0005 f
      | none => s.raiseDevice 0x0005 f

/-! ## Bank power (R112, R113) -/

/-- Codes of bank states. -/
def bankCode : BankState → Nat
  | .on => 0 | .retention => 1 | .off => 2

/-- The bank state of a code; 3 leaves the bank as it is. -/
def bankOf (code : Nat) (now : BankState) : BankState :=
  match code with | 0 => .on | 1 => .retention | 2 => .off | _ => now

/-- The state TBL_BANKPWR requests for a bank. -/
def Facet.bankWant (x : Facet) (b : Nat) : BankState := bankOf (bitsOf x.bankReq.toNat (2 * b + 1) (2 * b)) (x.bank b)

/-- The states that TBL_BANKPWR asks of the banks are noted; a code of 3 asks for none. -/
def Facet.keepBankSet (x : Facet) : Facet :=
  { x with bankSet := (List.range 16).foldl (fun t b =>
      let c := bitsOf x.bankReq.toNat (2 * b + 1) (2 * b)
      if c = 3 then t else if c = 0 then Tbl.del t b else t.put b (bankOf c .on)) x.bankSet }

/-- A bank takes a state: its contents are lost when it goes Off, so it holds zeros when it returns (R112). -/
def State.setBank (s : State) (f b : Nat) (t : BankState) : State :=
  let s := s.modFacet f fun x => { x with banks := if t = .on then Tbl.del x.banks b else x.banks.put b t }
  if t = .off then s.zeroRange (spadAddr f (0x1_0000 * b)) 0x1_0000 else s

/-- Begins the transition of a bank towards its requested state, if it differs and none is in progress. -/
def State.startBank (s : State) (f b : Nat) : State :=
  let x := s.facet f
  if x.bankMove.has b ∨ x.bankWant b = x.bank b then s
  else s.putFacet f { x with bankMove := x.bankMove.put b (x.bankWant b) }

/-- BANK_TRANSITION_DONE (R113): a transition completes, and a newer request begins its own. -/
def execBankTransitionDone (f b : Nat) (s : State) : Res :=
  .next <|
    match (s.facet f).bankMove.find b with
    | none => s
    | some t => ((s.modFacet f fun x => { x with bankMove := Tbl.del x.bankMove b }).setBank f b t).startBank f b

end Sys2Proof.Machine
end

