-- ==== Sys2Proof/Machine/Rung.lean ====
section
/-! DEFINITION. The power ladder (R434 to R438): what entry to a rung and exit to Run do to rails, banks, stacks, links
and tables, and the wake that a command or a frame causes. -/

namespace Sys2Proof.Machine

/-! ## Enables (R485, R486) -/

/-- The names of the enables by group: IO, STK, GRD, TAB. -/
def enName (g : Nat) : String := match g with | 0 => "EN_IO" | 1 => "EN_STK" | 2 => "EN_GRD" | _ => "EN_TAB"

/-- Releases (true) or pulls low (false) an enable. -/
def State.setEn (s : State) (g : Nat) (on : Bool) : State :=
  if s.pins.en.getLsbD g = on then s
  else
    let m : BitVec 4 := BitVec.ofNat 4 (2 ^ g)
    let p := s.pins
    ({ s with pins := { p with
        en := if on then p.en ||| m else p.en &&& ~~~m
        pg := if on then p.pg else p.pg &&& ~~~m
        enAt := if on then p.enAt.put g s.now else Tbl.del p.enAt g } }).emit (.pin (enName g) on)

/-! ## Banks over facets (R112, R114) -/

/-- Every facet that is listed, and none of whose banks needs an unlisted change, takes new bank states. -/
def State.banksTo (s : State) (want : Nat → Facet → Nat → BankState) : State :=
  (List.range nFacets).foldl (fun s f =>
    (List.range 16).foldl (fun s b =>
      let x := s.facet f
      let t := want f x b
      if t = x.bank b then s else s.setBank f b t) s) s

/-- The bank's state in Doze (R114): a bank that was Off and is kept enters Retention filled with zeros, as which it was left (R112). -/
def dozeBank (x : Facet) (b : Nat) : BankState :=
  if (x.state = .empty ∨ x.state = .faulted) ∧ !x.dozeKeep.getLsbD b then .off else .retention

/-- The bank's state after Doze: its STATE value, where the code 3 stands for what the bank was last asked to take (R114). -/
def Facet.bankBack (x : Facet) (b : Nat) : BankState :=
  if x.state = .empty ∨ x.state = .faulted then x.bankSet.getD b .on else .on

/-- Bank transitions in progress end with the entry to a rung, whose bank states stand instead (R113, R114). -/
def State.endBankMoves (s : State) : State :=
  { s with facets := s.facets.map fun e => (e.1, { e.2 with bankMove := [] }) }

/-! ## Entry -/

/-- The stacks' contents are lost and the written maps and hot-row caches are clear (R161, R178, R434). -/
def State.loseHbm (s : State) : State :=
  { s with
    mem := Memory.erase (fun a => decide (a < hbmSize)) s.mem
    hbm := { s.hbm with
      bad := s.hbm.bad.filter fun a => decide (hbmSize ≤ a)
      stks := s.hbm.stks.map fun (k, x) => (k, { x with writes := [], reads := [], written := [] }) }
    gather := { s.gather with dies := s.gather.dies.map fun (k, d) => (k, { d with cache := [] }) } }

/-- A stack begins to serve: its refresh intervals start (R158). -/
def Stack.serve (x : Stack) (now : Nat) : Stack := { x with state := .ready, refresh := [], readyAt := now }

/-- Every stack that serves takes another state. -/
def State.stacksTo (s : State) (from_ to_ : StackState) : State :=
  { s with hbm := { s.hbm with stks := s.hbm.stks.map fun (k, x) =>
      (k, if x.state ≠ from_ then x else if to_ = .ready then x.serve s.now else { x with state := to_ }) } }

/-- Every Ethernet link leaves Up, and with the PHYs go the frames being sent (R284), the adjacencies (R255) and what neighbours have
announced (R271): alone, the device is its own candidate, whose view begins with its next LSA, and its own grandmaster. -/
def State.linksDown (s : State) : State :=
  let s := s.traffic.tx.foldl (fun s e => if e.2.busy.isSome then s.emit (.txError e.1) else s) s
  let f := s.fabric
  let fresh := f.candKey ≠ key64
  { s with
    eth := { s.eth with links := s.eth.links.map fun (k, x) => (k, { x with state := .down }) }
    traffic := { s.traffic with tx := s.traffic.tx.map fun (k, x) => (k, { x with busy := none, preempted := none }) }
    fabric := { f with
      adjs := [], announces := [], synced := false, masterAt := some s.now, lsaDue := true, candKey := key64
      heartbeat := if fresh then s.now else f.heartbeat
      fmView := if fresh then [] else f.fmView
      fmTable := if !fresh then f.fmTable else if f.id < 0x4000 then [(key64, f.id)] else []
      fmEpoch := if !fresh then f.fmEpoch else if f.epoch = 0xFFFF then 0xFFFE else f.epoch } }

/-- Channels in a range are disabled (R436): nothing in progress or retained survives. -/
def State.disableChan (s : State) (c : Nat) : State :=
  s.modChan c fun x => { x with state := .disabled, inProg := [], kept := [], aborts := [], held := [] }

/-- What is lost at Sleep and Dormant (R434, R436, R454); the queue pairs and their incarnations start anew (R329). -/
def State.sleepLoss (s : State) : State :=
  let locked := s.fabric.lock ≠ 0
  let s := s.loseHbm
  let s := (List.range 128).foldl (fun s k => s.disableChan (66 + k)) s
  let s : State := { s with
    acct := { s.acct with ring := 0, ringLen := 0 }
    rma := { s.rma with qps := [], incarn := [], ctxArea := none }
    loupe := { s.loupe with dlog := none }
    fabric := { s.fabric with lock := 0, goodSync := 0 } }
  if locked then s.timeMark else s

/-- Entry to Doze, Sleep or Dormant completes (R434). -/
def State.enterRung (s : State) (r : Nat) : State :=
  let s : State := { s with power := { s.power with entering := none } }
  let s := s.drainHbm.endBankMoves
  if r = 2 then
    let s := (s.stacksTo .ready .selfRefresh).banksTo fun _ x b => dozeBank x b
    ((List.range 6).foldl (fun s f => s.setRail f 400) s).toRung 2
  else
    let s := (s.banksTo fun _ _ _ => .off).sleepLoss.linksDown
    let s := s.stacksTo .ready .off
    let s := (List.range 6).foldl (fun s f => (s.setRail f 0).modRail f fun x => { x with armed := false, onAt := none }) s
    let s := s.setEn 3 false
    let s := if r = 4 then
        let s := (List.range 66).foldl (fun s c => if c = 1 then s else s.disableChan c) s
        let s := ((s.setRail 6 0).modRail 6 fun x => { x with armed := false, onAt := none }).setEn 2 false
        let s := (s.setEn 1 false).setEn 0 false
        { s with pins := { s.pins with phyRst := true } }
      else s
    s.toRung r

/-! ## Exit -/

/-- The exit latency of a rung in ns (R434). -/
def exitNs (r : Nat) : Nat := match r with | 0 => 0 | 1 => 1000 | 2 => 10000 | 3 => 100000 | _ => 1000000

/-- A field rail comes on at IDLEV and is armed (R438, R471). -/
def State.fieldOn (s : State) (f : Nat) : State :=
  (s.setRail f s.power.idlev).modRail f fun x => { x with armed := true, onAt := some s.now }

/-- Links of enabled ports start (R283, R434). -/
def State.linksStart (s : State) : State :=
  (List.range 64).foldl (fun s l =>
    let p := s.port (portOf l)
    if p.enable && subExists p.split (l % 4) && !s.dieFailed (8 + dieOfLink l) && s.pins.ethClk.getD (dieOfLink l) true then
      s.modLink l fun x => { x with state := if p.media = 2 then .fec else .negotiating, started := s.now }
    else s) s

/-- The bezel places instance 0's map, with every entry zero (R204). -/
def State.placeMap0 (s : State) : State :=
  (s.zeroRange 0x017F_FF80_0000 0x80_0000).modInst 0 fun x => { x with mapBase := 0x017F_FF80_0000, mapLen := 1048576 }

/-- Exit to Run completes (R434, R438): what the rung stopped serves again. -/
def State.exitRung (s : State) : State :=
  let r := s.power.rung
  let s : State := { s with power := { s.power with
      entering := none, exiting := false, request := none
      floor := if 3 ≤ s.power.floor then s.power.prevFloor else s.power.floor } }
  let s :=
    if r = 2 then
      ((List.range 6).foldl (fun s f => s.setRail f s.power.idlev) (s.stacksTo .selfRefresh .ready)).banksTo
        fun _ x b => x.bankBack b
    else if 3 ≤ r then
      let s : State := if r = 4 then
          let s := ((s.setEn 0 true).setEn 1 true).setEn 2 true
          { s with pins := { s.pins with vioAt := s.now } }
        else s
      let s := if r = 4 then (s.setRail 6 750).modRail 6 fun x => { x with armed := true, onAt := some s.now } else s
      let s := s.setEn 3 true
      let s := (List.range 6).foldl State.fieldOn s
      let s := (s.stacksTo .off .ready).banksTo fun _ _ _ => .on
      s.placeMap0.linksStart
    else s
  (s.toRung 0).timeMark.lateAlarms.openGates.refreshRails

/-- A wake event at a rung, or during an entry (R435, R438): the device is at Run after the exit latency, counted from the event that
began the exit. -/
def State.wake (s : State) : State :=
  let since := if s.power.exiting then s.power.enterAt else s.now
  match s.power.entering with
  | some r => (s.reach (since + exitNs r)).exitRung
  | none => if s.power.rung = 0 then s else (s.reach (since + exitNs s.power.rung)).exitRung

/-- What work arriving at Doze or deeper, or during an entry, does first: it wakes the device (R435). -/
def State.wakeDeep (s : State) : State :=
  if 2 ≤ s.power.rung ∨ s.power.entering.isSome ∨ s.power.exiting then s.wake else s

end Sys2Proof.Machine
end

