-- ==== Sys2Proof/Machine/Command.lean ====
section
/-! DEFINITION. Command packets (spec/09): the checks of R237 in their order, sequence numbers, what a command's meaning
answers, and the system commands that touch no register. -/

namespace Sys2Proof.Machine

/-! ## Commands -/

/-- What a command's execution answers: a reply with status, detail and parameters, or a reply that comes later. -/
inductive Act where
  | done (s : State) (status detail : Nat) (params : List Byte)
  | wait (s : State)

/-- Success without parameters. -/
def okay (s : State) : Act := .done s 0 0 []
/-- A failure with a status of the command's chapter. -/
def fails (s : State) (status : Nat) (detail : Nat := 0) : Act := .done s status detail []
/-- Success with parameters. -/
def gives (s : State) (params : List Byte) : Act := .done s 0 0 params

/-- A command: its opcode; whether an instance may issue it; its expected PLEN; the offsets of its parameter fields with
whether each is in range, in rising order; and its execution, with the waiter that names it. An opcode that no chapter defines is not `known`. -/
structure Spec where
  known : Bool := true
  opcode : Nat
  permits : State → Nat → List Byte → Bool
  plen : List Byte → Option Nat
  fields : State → List Byte → List (Nat × Bool)
  run : State → Waiter → Nat → List Byte → Act

/-- Only the manager may issue it (R228). -/
def managerOnly : State → Nat → List Byte → Bool := fun _ i _ => i = 0
/-- Any instance may issue it. -/
def anyone : State → Nat → List Byte → Bool := fun _ _ _ => true
/-- An instance for itself, the manager for any: INST at a byte offset of the parameters. -/
def ownAt (off : Nat) : State → Nat → List Byte → Bool := fun _ i ps => i = 0 || i = fieldAt ps off 1

/-- A PLEN that the chapter fixes. -/
def fixed (n : Nat) : List Byte → Option Nat := fun ps => if ps.length = n then none else some n

/-- A reserved range of parameters. -/
def rsv (ps : List Byte) (off n : Nat) : Nat × Bool := (off, allZero (slice ps off n))
/-- A field of `n` bytes below a bound. -/
def below (ps : List Byte) (off n bound : Nat) : Nat × Bool := (off, decide (fieldAt ps off n < bound))
/-- A field of `n` bytes within a range, both ends included. -/
def within (ps : List Byte) (off n lo hi : Nat) : Nat × Bool := (off, decide (lo ≤ fieldAt ps off n) && decide (fieldAt ps off n ≤ hi))
/-- A field that is a multiple of `m`. -/
def aligned (ps : List Byte) (off n m : Nat) : Nat × Bool := (off, decide (fieldAt ps off n % m = 0))
/-- An instance address of 48 bits that is a multiple of `m` (R34). -/
def address (ps : List Byte) (off m : Nat) : Nat × Bool :=
  (off, decide (fieldAt ps off 8 % m = 0) && decide (fieldAt ps off 8 < 2 ^ 48))

/-! ## Checks (R237) -/

end Sys2Proof.Machine

namespace Sys2Proof

open Machine

/-- The bytes of a packet as they arrived, with its CRC field zero. -/
def Packet.image (p : Packet) (opcode : Nat) : List Byte :=
  leBytes 2 opcode ++ leBytes 1 p.version.toNat ++ leBytes 1 p.flags.toNat ++ leBytes 4 p.seq.toNat ++ leBytes 4 p.plen ++
  leBytes 2 p.status.toNat ++ leBytes 2 p.rsv14.toNat ++ leBytes 4 p.detail.toNat ++ zeros 4 ++ leBytes 4 p.rseq.toNat ++
  leBytes 4 p.elapsed.toNat ++ p.params

/-- The packet passes the framing check (R237 item 1). -/
def Packet.framed (p : Packet) (opcode : Nat) : Bool :=
  decide (p.params.length ≤ 1024) && p.plen = p.params.length && decide (p.plen % 8 = 0) && !p.flags.getLsbD 0 &&
  decide (crc32c (p.image opcode) = p.crc.toNat)

/-- The first reserved header field of a command that is not zero, by its offset. -/
def Packet.headerField (p : Packet) : Option Nat :=
  if p.flags ≠ 0 then some 3 else if p.status ≠ 0 then some 12 else if p.rsv14 ≠ 0 then some 14
  else if p.detail ≠ 0 then some 16 else if p.rseq ≠ 0 then some 24 else if p.elapsed ≠ 0 then some 28 else none

end Sys2Proof

namespace Sys2Proof.Machine

/-- The first parameter field out of range, as a packet byte offset. -/
def badField (l : List (Nat × Bool)) : Option Nat := (l.find? fun e => !e.2).map fun e => 32 + e.1

/-- A channel discards a packet and counts it. -/
def State.chanDiscard (s : State) (ch : Nat) : State :=
  s.modChan ch fun c => { c with discards := min 0xFFFFFFFF (c.discards + 1) }

/-- A channel is served for an opcode: not disabled or in Error, fetching not stopped (R446) but for a SYS_ABORT during step 2 of an
activation (R240), boot far enough (R440). -/
def State.serves (s : State) (ch op : Nat) : Bool :=
  decide (ch < 194) && (s.chan ch).state ≠ .disabled && (s.chan ch).state ≠ .error && (s.chan ch).bound.isSome &&
  (s.boot.activating.isNone || op = 3) && !s.boot.switching && s.boot.phase ≠ .reset && s.boot.phase ≠ .starting && !s.faults.bezelRestart &&
  (s.boot.phase = .running || decide (ch < 2))

/-- The commands that recovery executes (R440). -/
def recoveryOp (op : Nat) : Bool := op = 1 || op = 2 || op = 4 || op = 0xB005 || op = 0xB006

/-- The reply to a packet that is not executed and not retained (R233, R234, R235). -/
def State.refuse1 (s : State) (c : Cmd) (op status detail : Nat) (replay : Bool := false) : State :=
  let i := (s.chan c.ch).bound.getD 0
  s.emitReply c.ch
    { dst := c.src, opcode := op, flags := fReply + if replay then fReplay else 0, seq := c.pkt.seq, status, detail, at_ := s.now
      inst := i, gen := s.genOf i, params := [] }

/-- Checks 2 and 5 to 8 of R237: the status and detail of the first that fails. -/
def State.checked (s : State) (sp : Spec) (c : Cmd) (inst : Nat) : Option (Nat × Nat) :=
  let i := s.inst inst
  if c.pkt.version ≠ 1 then some (2, 0)
  else if !sp.known || (s.boot.phase ≠ .running && !recoveryOp sp.opcode) then some (5, 0)
  else if i.state = .resetting then some (0x0E, 2)
  else if i.state = .removing then some (0x0E, 3)
  else if (i.state = .free && s.boot.phase = .running) || !sp.permits s inst c.pkt.params then some (6, 0)
  else match sp.plen c.pkt.params with
    | some n => some (7, n)
    | none =>
      match c.pkt.headerField with
      | some o => some (1, o)
      | none => (badField (sp.fields s c.pkt.params)).map fun o => (1, o)

/-- The checks of a command that has consumed its number, then its execution. -/
def State.execute (s : State) (sp : Spec) (c : Cmd) (w : Waiter) (inst : Nat) : State :=
  match s.checked sp c inst with
  | some (status, detail) => s.finish w status detail []
  | none =>
    match sp.run s w inst c.pkt.params with
    | .done s' status detail ps => s'.finish w status detail ps
    | .wait s' => s'

/-- A command enters progress. -/
def State.begin (s : State) (c : Cmd) (op inst : Nat) : State :=
  s.modChan c.ch fun x =>
    { x with
      inProg := x.inProg ++
        [{ id := x.nextId, seq := c.pkt.seq, opcode := op, crc := c.pkt.crc, params := c.pkt.params, src := c.src, at_ := s.now, inst,
           gen := s.genOf inst, stale := false }]
      nextId := x.nextId + 1 }

/-- The treatment of a command by its SEQ (R233 to R235), then its execution. -/
def State.sequence (s : State) (sp : Spec) (c : Cmd) (inst : Nat) : State :=
  let x := s.chan c.ch
  let d := (c.pkt.seq - x.e).toNat
  if c.pkt.version ≠ 1 ∧ (x.state = .unsynced ∨ d ≠ 0) then s.refuse1 c sp.opcode 2 0
  else if x.state = .unsynced then s.refuse1 c sp.opcode 3 0
  else if d = 0 then
    if c.pkt.version = 1 ∧ 16 ≤ x.inProg.length then s.refuse1 c sp.opcode 8 x.inProg.length
    else
      ((s.modChan c.ch fun x => { x with e := x.e + 1 }).begin c sp.opcode inst).execute sp c
        { ch := c.ch, id := x.nextId, seq := c.pkt.seq } inst
  else if d ≤ 2 ^ 31 then s.refuse1 c sp.opcode 4 x.e.toNat
  else if 2 ^ 32 - 16 ≤ d then
    match x.inProg.find? fun e => e.seq = c.pkt.seq && !e.stale with
    | some e => if e.crc = c.pkt.crc then s.refuse1 c sp.opcode 9 0 true else s.refuse1 c sp.opcode 0x0B 0
    | none =>
      match x.kept.find? fun k => k.seq = c.pkt.seq with
      | some k =>
        if k.crc = c.pkt.crc then
          s.emitReply c.ch
            { dst := c.src, opcode := k.opcode, flags := fReply + fReplay, seq := k.seq, status := k.status, detail := k.detail
              at_ := s.now, inst := k.inst, gen := k.gen, params := k.params }
        else s.refuse1 c sp.opcode 0x0B 0
      | none => s.refuse1 c sp.opcode 0x0A x.e.toNat
  else s.refuse1 c sp.opcode 0x0A x.e.toNat

/-- The command comes from the source that channel 0 answers, that of the last SYS_SYNC it executed; before the first, any (R245, log
entry 66). -/
def State.knownSource (s : State) (c : Cmd) : Bool :=
  match (s.chan 0).peer with | some p => p = sourceKey c.src | none => true

/-- The channel takes packets of this source: channel 0 the source it answers, and a SYS_SYNC of any (R245), a fabric channel
its bound device. -/
def State.fromSource (s : State) (c : Cmd) (sync : Bool) : Bool :=
  if c.ch = 0 then sync || s.knownSource c
  else if 130 ≤ c.ch then (s.chan c.ch).source = c.src
  else true

/-- What a packet meets before its own checks: the channel, the framing, the source, and the wake it causes. `k` goes on
with the bound instance. -/
def State.packet (s : State) (op : Nat) (c : Cmd) (k : State → Nat → State) : State :=
  if s.power.rung = 4 then if c.ch = 1 then s.wake else s
  else if s.power.rung = 3 ∧ 2 ≤ c.ch then s
  else if !s.serves c.ch op then s
  else if !c.pkt.framed op || !s.fromSource c (op = 1) then s.chanDiscard c.ch
  else
    let s := s.wakeDeep
    k s ((s.chan c.ch).bound.getD 0)

/-- A command packet arrives on its channel. -/
def State.command (s : State) (sp : Spec) (c : Cmd) : State := s.packet sp.opcode c fun s i => s.sequence sp c i

/-! ## SYS_SYNC (R236, R241) -/

/-- SYS_SYNC's own checks. -/
def syncSpec : Spec :=
  { opcode := 1, permits := anyone, plen := fixed 0, fields := fun _ _ => [], run := fun s _ _ _ => okay s }

/-- SYS_SYNC: executed in every state but disabled and error, whatever its SEQ. It sets E, clears what is retained, and its
own reply is retained; one that fails a check consumes its number only where a command would, and on channel 0 is discarded when it
comes from a source that the channel does not answer (R245). -/
def State.syncCommand (s : State) (c : Cmd) : State :=
  s.packet 1 c fun s inst =>
    let x := s.chan c.ch
    let me : InProgress :=
      { id := x.nextId, seq := c.pkt.seq, opcode := 1, crc := c.pkt.crc, params := [], src := c.src, at_ := s.now, inst,
        gen := s.genOf inst, stale := false }
    match s.checked syncSpec c inst with
    | some (status, detail) =>
      if c.ch = 0 && !s.knownSource c then s.chanDiscard 0
      else if x.state = .synced ∧ c.pkt.seq = x.e then
        (s.modChan c.ch fun y => { y with e := y.e + 1 }).sendResult c.ch me status detail []
      else s.refuse1 c 1 status detail
    | none =>
      let oldE := if x.state = .synced then x.e.toNat else 0
      let s := s.modChan c.ch fun y =>
        { y with
          state := .synced, e := c.pkt.seq + 1, kept := [], nextId := y.nextId + 1
          peer := if c.ch = 0 then some (sourceKey c.src) else y.peer
          inProg := y.inProg.map fun e => { e with stale := true } }
      s.sendResult c.ch me 0 0 (leBytes 4 oldE ++ leBytes 4 x.inProg.length ++ leBytes 2 c.ch ++ leBytes 1 inst ++ zeros 1 ++
        leBytes 2 (s.genOf inst).toNat ++ zeros 2)

end Sys2Proof.Machine
end

