-- ==== Sys2Proof/Machine/Zaren.lean ====
section
/-! DEFINITION. Zaren frames at ingress and the flows that carry them (R250 to R252, R263 to R266): checks, acceptance by
PSN, acknowledgements, retransmission, failed flows and RESYNC, and the bindings that frames of a job meet (R270). -/

namespace Sys2Proof

/-- The payload rule of a frame type, its reserved bytes among it (R251, R252, R255, R257, R258). -/
def ZFrame.payloadOk (z : ZFrame) : Bool :=
  let n := z.payload.length
  match z.typ with
  | 1 | 3 => decide (16 ≤ n) && decide (n ≤ 4096) && decide (n % 16 = 0)
  | 2 =>
    let len := fieldAt z.payload 4 4
    n = 8 && decide (16 ≤ len) && decide (len ≤ 1048576) && decide (len % 16 = 0)
  | 4 | 5 | 7 => n = 0
  | 6 => n = 16 && allZero (z.payload.drop 2)
  | 8 => n = 64
  | 9 => decide (32 ≤ n) && decide (n ≤ 1056)
  | 0xA => n = 32 && allZero (slice z.payload 14 2) && allZero (slice z.payload 28 4)
  | 0xB =>
    let m := fieldAt z.payload 15 1
    n = 80 + 16 * m && decide (m ≤ 240) && decide (fieldAt z.payload 14 1 ≤ 64) &&
      (List.range m).all fun j => fieldAt z.payload (80 + 16 * j + 11) 1 = 0
  | 0xC =>
    let m := fieldAt z.payload 22 2
    n = 96 + 8 * m && decide (m ≤ 500) && allZero (slice z.payload 26 6)
  | 0xD => decide (60 ≤ n) && decide (n ≤ 4224)
  | 0xE => n = 4 && (fieldAt z.payload 0 1 = 6 || fieldAt z.payload 0 1 = 7) && decide (fieldAt z.payload 1 1 < 2) && allZero (z.payload.drop 2)
  | _ => false

/-- The frame is malformed (R250, R252). -/
def ZFrame.malformed (z : ZFrame) : Bool :=
  z.version ≠ 1 || z.typ = 0 || decide (15 ≤ z.typ) || !z.lenOk || !z.payloadOk || z.rsv ≠ 0 ||
  (z.typ ≠ 0xD && z.pcp ≠ if 1 ≤ z.typ ∧ z.typ ≤ 4 then 7 else 6) ||
  (decide (0x4000 ≤ z.dst) && decide (z.dst ≤ 0xFFFB)) || z.dst = 0xFFFE

/-- Serial-number order of PSNs (R263): `a` is at or before `b`. -/
def psnLe (a b : BitVec 24) : Bool := decide ((b - a).toNat < 2 ^ 23)

end Sys2Proof

namespace Sys2Proof.Machine


/-- A good frame of `n` bytes, FCS included, was received on a link (NET_LCNT0, NET_LCNT1). -/
def State.countRx (s : State) (link n : Nat) : State :=
  s.modLink link fun x => { x with cnt := (x.cnt.bump 0).bump 1 n }


/-- Sends a PACK for a flow (R264). -/
def State.sendPack (s : State) (dev cls : Nat) : State :=
  let k := flowKey dev cls
  let z := { s.zblank 7 dev with avalid := true, aclass := bit (cls = 7), apsn := (s.flow k).rxNext - 1 }
  (s.modFlow k fun f => { f with rxDue := 0, rxSince := none }).sendZ z

/-- The frame still waits in an egress queue of its link. -/
def State.zQueued (s : State) (z : ZFrame) : Bool :=
  let is (f : TxFrame) : Bool := match f.body with
    | .zaren y => y.typ = z.typ && y.dst = z.dst && y.psn = z.psn && y.pcp = z.pcp && y.src = z.src
    | _ => false
  (s.traffic.queues.any fun e => e.2.frames.any is) || (s.traffic.dflt.any fun e => e.2.frames.any is) ||
  s.traffic.ctrl.any fun e => e.2.frames.any is

/-- Sends again the unacknowledged frames of a flow that a predicate names, in order, up to their eighth transmission
(R265, R266). A frame that still waits in its queue is not sent twice. -/
def State.resend (s : State) (k : Nat) (p : Unacked → Bool) : State :=
  (s.flow k).unacked.foldl (fun s u =>
    if !p u || 8 ≤ u.count || s.zQueued u.frame then s
    else
      match (if u.frame.transfer && (s.wayTo s.fabric.id u.frame.dst).isNone then .done (s.noRoute u.frame) else s.putZ u.frame true) with
      | .wait => s
      | .done s => s.modFlow k fun f => { f with unacked := f.unacked.map fun v =>
          if v.frame.psn = u.frame.psn then { v with count := v.count + 1, sent := s.now } else v }) s

/-- An APSN acknowledges every frame up to it; one below the last frame sent makes the sender send again (R265). -/
def State.ackFlow (s : State) (dev cls : Nat) (apsn : BitVec 24) : State :=
  let k := flowKey dev cls
  let s := s.modFlow k fun f => { f with unacked := f.unacked.filter fun u => !psnLe u.frame.psn apsn }
  let s := s.resend k fun _ => true
  s.pumpFlow k (s.flow k).waiting.length

/-! ## Failed flows (R266) -/

/-- Ends with NACK 0x0023 every transfer sourced towards a device. -/
def State.failTransfers (s : State) (dev : Nat) : State :=
  s.facets.foldl (fun s (f, x) =>
    x.xfers.foldl (fun s t =>
      match t.peer with
      | some r =>
        if s.deviceOf f r = dev then s.nackFacet (s.linkTo dev) f t.tag x.who.1 x.who.2 0x23 else s
      | none => s) s) s

/-- Ends every running job that holds a device in its RANKTAB: TIME_FAULT when timed, else BEAT_LIMIT. -/
def State.failJobs (s : State) (dev : Nat) : State :=
  s.parcels.foldl (fun s (p, x) =>
    match x.cut with
    | some c => if x.jobOn && c.ranktab.contains dev then s.endJob p (if c.timed then 8 else 6) c.rank true else s
    | none => s) s

/-- RESYNC to a device (R266): the class, and 0 for a request or 1 for a reply. -/
def State.sendResync (s : State) (dev cls kind : Nat) : State :=
  let s := s.modFlow (flowKey dev cls) fun f => { f with resync := s.now }
  s.sendZ { s.zblank 0xE dev with payload := leBytes 1 cls ++ leBytes 1 kind ++ zeros 2 }

/-- The sender fails a flow: its transfers and jobs end, and RESYNC goes out. -/
def State.failFlow (s : State) (dev cls : Nat) : State :=
  let s := s.modFlow (flowKey dev cls) fun f => { f with failed := true, unacked := [], waiting := [] }
  ((s.failTransfers dev).failJobs dev).sendResync dev cls 0

/-- A flow restarts at PSN 0 in both directions; what waits for it goes out. -/
def State.restartFlow (s : State) (dev cls : Nat) (drop : Bool) : State :=
  let k := flowKey dev cls
  let s := s.modFlow k fun f =>
    { f with
      txNext := 0, rxNext := 0, unacked := [], rxDue := 0, rxSince := none, failed := false
      waiting := if drop then [] else f.waiting }
  s.pumpFlow k (s.flow k).waiting.length

/-! ## Ingress -/

/-- A PSN-bearing frame meets its flow (R264): accepted in order, or discarded with an acknowledgement. Whether it finds its ingress
buffer full, whose size the spec does not give, a free value decides (log entry 67). -/
def State.acceptPsn (s : State) (z : ZFrame) : State × Bool :=
  let k := flowKey z.src z.pcp
  let f := s.flow k
  let (full, s) := s.mayFail
  if !full && z.psn = f.rxNext then
    let s := s.modFlow k fun f =>
      { f with rxNext := f.rxNext + 1, rxDue := f.rxDue + 1, rxSince := if f.rxSince.isNone then some s.now else f.rxSince }
    (if 16 ≤ (s.flow k).rxDue then s.sendPack z.src z.pcp else s, true)
  else ((s.zDiscard 3).sendPack z.src z.pcp, false)

/-- A Zaren frame reaches this device on a link of a fabric-mode port: the state after ingress, and whether its type's rule
applies. A frame for another device is ZAREN_FORWARD's. -/
def State.zIngress (s : State) (link : Nat) (z : ZFrame) : State × Bool :=
  if 64 ≤ link ∨ (s.link link).state ≠ .up ∨ !s.fabricLink link ∨ 3 ≤ s.power.rung then (s, false)
  else
    let s := if z.typ ≤ 9 ∨ z.typ = 0xD then s.wakeDeep else s
    if z.malformed then ((s.countRx link z.wire).zDiscard 2, false)
    else if z.dst ≠ s.fabric.id then (s, false)
    else
      let s := s.countRx link z.wire
      let s := if z.avalid then s.ackFlow z.src (6 + z.aclass) z.apsn else s
      if z.hasPsn then s.acceptPsn z else (s, true)

/-- The binding of a job frame (R270). -/
def State.bindingOf (s : State) (z : ZFrame) : Option Binding :=
  s.fabric.bindings.find? fun b => b.inst = z.inst && b.job = z.job && b.ranktab.contains z.src

/-- A frame of a job at ingress: its binding, or a discard (R270). -/
def State.jobIngress (s : State) (link : Nat) (z : ZFrame) (typ : Nat) (k : State → Binding → State) : State :=
  if z.typ ≠ typ then s
  else
    let (s, ok) := s.zIngress link z
    if !ok then s
    else
      match s.bindingOf z with
      | some b => k (s.charge z.inst 3 z.wire) b
      | none => s.zDiscard 0

end Sys2Proof.Machine
end

