-- ==== Sys2Proof/Machine/Image.lean ====
section
/-! DEFINITION. The cut image (R131 to R135, R142, R143, R153): its header, sections and lists, and the load checks in
their order. -/

namespace Sys2Proof.Machine

/-- A section of an image (R133): its entry, and its bytes. -/
structure Sect where
  typ    : Nat
  flags  : Nat
  fx     : Nat
  fy     : Nat
  off    : Nat
  target : Nat
  crc    : Nat
  rsvOk  : Bool
  data   : List Byte
  deriving DecidableEq, Repr

/-- Length of a section. -/
def Sect.len (x : Sect) : Nat := x.data.length

/-- The entry is for every facet. -/
def Sect.all (x : Sect) : Bool := x.fx = 0xFF && x.fy = 0xFF

/-- The section concerns the facet at a parcel position. -/
def Sect.covers (x : Sect) (dx dy : Nat) : Bool := x.all || (x.fx = dx && x.fy = dy)

/-- MAGIC of R132. -/
def cutMagic : List Byte := [0x46, 0x58, 0x44, 0x43, 0x55, 0x54, 0, 0]

/-- The section table of an image whose SECT_OFF and SECT_COUNT are sound. -/
def sections (img : List Byte) : List Sect :=
  (List.range (fieldAt img 24 2)).map fun j =>
    let b := slice img (fieldAt img 20 4 + 32 * j) 32
    { typ := fieldAt b 0 2, flags := fieldAt b 2 2, fx := fieldAt b 4 1, fy := fieldAt b 5 1, off := fieldAt b 8 4,
      target := fieldAt b 16 4, crc := fieldAt b 20 4, rsvOk := allZero (slice b 6 2) && allZero (slice b 24 8),
      data := slice img (fieldAt b 8 4) (fieldAt b 12 4) }

/-- LENGTH as the section table states it, for the range checks that precede reading the section. -/
def sectSpan (img : List Byte) (j : Nat) : Nat × Nat :=
  let b := fieldAt img 20 4 + 32 * j
  (fieldAt img (b + 8) 4, fieldAt img (b + 12) 4)

/-- No two ranges of a list, as (first, length), share a byte. -/
def disjoint : List (Nat × Nat) → Bool
  | [] => true
  | (a, n) :: t => t.all (fun (b, m) => n = 0 || m = 0 || decide (a + n ≤ b) || decide (b + m ≤ a)) && disjoint t

/-- IDENTITY recomputed (R134). -/
def identityOf (img : List Byte) : List Byte :=
  sha256 (img.take 12 ++ zeros 4 ++ slice img 16 48 ++ zeros 64 ++ img.drop 128)

/-- The header fields lie in their ranges, reserved bytes are zero, and TIMED agrees with the fields that depend on it
(R132, R135 item 6). -/
def headerOk (img : List Byte) : Bool :=
  let w := fieldAt img 26 1
  let h := fieldAt img 27 1
  let js := fieldAt img 28 2
  let rk := fieldAt img 30 2
  let cyc := fieldAt img 32 8
  let gd := fieldAt img 40 4
  let sm := fieldAt img 44 2
  let bl := fieldAt img 48 4
  decide (4 ≤ w ∧ w ≤ 48 ∧ w % 4 = 0) && decide (4 ≤ h ∧ h ≤ 32 ∧ h % 4 = 0) && decide (1 ≤ js ∧ js ≤ 1024) &&
  (decide (rk < js) || rk = 0xFFFF) && decide (fieldAt img 52 4 ≤ 0x00FF_FFFF) && allZero (slice img 46 2) &&
  allZero (slice img 56 8) && allZero (slice img 128 128) &&
  if bitAt (fieldAt img 10 2) 0 then
    decide (1000 ≤ cyc ∧ cyc ≤ 100000000) && decide (100 ≤ gd ∧ gd ≤ cyc / 2) && decide (1 ≤ sm ∧ sm ≤ 1000) && bl = 0
  else cyc = 0 && gd = 0 && sm = 0 && decide (1 ≤ bl ∧ bl ≤ 60000000)

/-- A section entry obeys its type (R135 item 8). -/
def Sect.ok (x : Sect) (w h : Nat) : Bool :=
  x.rsvOk && decide (1 ≤ x.typ ∧ x.typ ≤ 6) && decide (x.flags < if x.typ = 1 then 4 else 1) &&
  (x.all || (decide (x.typ ≤ 3) && decide (x.fx < w) && decide (x.fy < h))) &&
  match x.typ with
  | 1 => decide (x.target % 16 = 0 ∧ x.len % 16 = 0 ∧ 16 ≤ x.len ∧ x.len ≤ 1048576)
  | 2 => decide (x.target % 16 = 0 ∧ x.len % 16 = 0)
  | 3 => x.target = 0 && x.len = 8
  | _ => x.target = 0

/-- Every parcel position of a shape. -/
def positions (w h : Nat) : List (Nat × Nat) := (List.range h).flatMap fun y => (List.range w).map fun x => (x, y)

/-! ## Static streams (R123, R124, R142) -/

/-- A route entry (R142). -/
structure RouteEntry where
  sx : Nat
  sy : Nat
  dx : Nat
  dy : Nat
  w  : Nat
  deriving DecidableEq, Repr

/-- The route entries of a section. -/
def routeEntries (bs : List Byte) : List RouteEntry :=
  (List.range (bs.length / 8)).map fun j =>
    { sx := fieldAt bs (8 * j) 1, sy := fieldAt bs (8 * j + 1) 1, dx := fieldAt bs (8 * j + 2) 1, dy := fieldAt bs (8 * j + 3) 1,
      w := fieldAt bs (8 * j + 4) 1 }

/-- The output ports along a route in dimension order, as (x, y, port), less the local one (R121, R123). -/
def routePorts : Nat → Nat → Nat → Nat → Nat → List (Nat × Nat × Nat)
  | 0, _, _, _, _ => []
  | n + 1, x, y, dx, dy =>
    if x < dx then (x, y, 2) :: routePorts n (x + 1) y dx dy
    else if dx < x then (x, y, 3) :: routePorts n (x - 1) y dx dy
    else if y < dy then (x, y, 0) :: routePorts n x (y + 1) dx dy
    else if dy < y then (x, y, 1) :: routePorts n x (y - 1) dx dy
    else []

/-- The ports of an entry. -/
def RouteEntry.ports (e : RouteEntry) : List (Nat × Nat × Nat) := routePorts 80 e.sx e.sy e.dx e.dy

/-- The ROUTE section breaks R123 or R142. -/
def routesBad (w h : Nat) (bs : List Byte) : Bool :=
  let es := routeEntries bs
  bs.length % 8 ≠ 0 ||
  ((List.range (bs.length / 8)).any fun j => !allZero (slice bs (8 * j + 5) 3)) ||
  (es.any fun e => decide (w ≤ e.sx ∨ h ≤ e.sy ∨ w ≤ e.dx ∨ h ≤ e.dy ∨ e.w = 0 ∨ 8 < e.w)) ||
  (es.any fun e => decide (4 < (es.filter fun q => q.sx = e.sx && q.sy = e.sy).length)) ||
  (es.any fun e => decide (1 < (es.filter fun q => q.sx = e.sx && q.sy = e.sy && q.dx = e.dx && q.dy = e.dy).length)) ||
  (es.any fun e => e.ports.any fun pt => decide (12 < ((es.filter fun q => q.ports.contains pt).map (·.w)).sum))

/-- The first free slot at or after one, wrapping (R124). -/
def firstSlot (used : BitVec 16) (want : Nat) : Nat :=
  ((List.range 16).find? fun j => !used.getLsbD ((want + j) % 16)).map (fun j => (want + j) % 16) |>.getD 0

/-- The slots a stream of share w takes on a wheel, one after another, with the wheel that results (R124). -/
def slotsTaken (used : BitVec 16) (w : Nat) : BitVec 16 × List Nat :=
  (List.range w).foldl (fun (u, js) n => let j := firstSlot u (n * 16 / w); (u ||| BitVec.ofNat 16 (2 ^ j), js ++ [j])) (used, [])

/-- The wheel after a stream of share w has taken its slots (R124). -/
def takeSlots (used : BitVec 16) (w : Nat) : BitVec 16 := (slotsTaken used w).1

/-! ## Gate lists and output slots (R143, R153, R275) -/

/-- The entries of a gate list from its bytes. -/
def gateEntries (bs : List Byte) : List GateEntry :=
  (List.range (bs.length / 8)).map fun j => { dur := fieldAt bs (8 * j) 4, mask := BitVec.ofNat 8 (fieldAt bs (8 * j + 4) 1) }

/-- A GATES section breaks R143 or R275; `gated` are the ports that loaded cuts gate. -/
def gatesBad (s : State) (cyc : Nat) (x : Sect) : Bool :=
  let port := fieldAt x.data 0 2
  let n := fieldAt x.data 2 2
  let es := gateEntries (x.data.drop 8)
  decide (x.len < 8) || x.len ≠ 8 + 8 * n || decide (16 ≤ port) || !allZero (slice x.data 4 4) ||
  ((List.range n).any fun j => !allZero (slice x.data (8 * j + 13) 3)) || decide (n < 1 ∨ 1024 < n) ||
  (es.any fun e => decide (e.dur < 200) || !e.mask.getLsbD 6) || (es.map (·.dur)).sum ≠ cyc ||
  s.fabric.edge.contains port || (s.gatesOf port).gated

/-- The output slots of a section. -/
def outSlots (bs : List Byte) : List OutSlot :=
  (List.range (bs.length / 16)).map fun j =>
    { slot := fieldAt bs (16 * j) 1, fx := fieldAt bs (16 * j + 1) 1, fy := fieldAt bs (16 * j + 2) 1,
      offset := fieldAt bs (16 * j + 4) 4, len := fieldAt bs (16 * j + 8) 2 }

/-- The OUTPUTS section breaks R153. -/
def outputsBad (w h : Nat) (bs : List Byte) : Bool :=
  let os := outSlots bs
  bs.length % 16 ≠ 0 || decide (16 < os.length) ||
  ((List.range os.length).any fun j => !allZero (slice bs (16 * j + 3) 1) || !allZero (slice bs (16 * j + 10) 6)) ||
  (os.any fun o => decide (16 ≤ o.slot ∨ w ≤ o.fx ∨ h ≤ o.fy ∨ o.offset % 16 ≠ 0 ∨ o.len < 16 ∨ 4096 < o.len ∨ o.len % 16 ≠ 0 ∨
    0x10_0000 < o.offset + o.len)) ||
  os.any fun o => decide (1 < (os.filter fun q => q.slot = o.slot).length)

/-! ## The checks in their order (R135) -/

/-- Items 1 to 5: what can be checked before the entries are read. -/
def imageFrame (img : List Byte) (len : Nat) (ident : List Byte) : Option (Nat × Nat) :=
  if img.take 8 ≠ cutMagic ∨ fieldAt img 8 2 ≠ 1 ∨ 2 ≤ fieldAt img 10 2 ∨ fieldAt img 16 4 ≠ len then some (0x2001, 0)
  else if crc32c (img.take 12 ++ zeros 4 ++ slice img 16 240) ≠ fieldAt img 12 4 then some (0x2002, 0)
  else
    let so := fieldAt img 20 4
    let n := fieldAt img 24 2
    if so % 16 ≠ 0 ∨ so < 256 ∨ n = 0 ∨ 16384 < n then some (0x2006, 0)
    else if len < so + 32 * n then some (0x2003, 0)
    else
      let spans := (List.range n).map (sectSpan img)
      if (spans.any fun (o, m) => decide (o % 16 ≠ 0 ∨ len < o + m)) || !disjoint ((0, 256) :: (so, 32 * n) :: spans) then
        some (0x2003, 0)
      else
        match ((sections img).zipIdx).find? fun (x, _) => crc32c x.data ≠ x.crc with
        | some (_, j) => some (0x2004, j)
        | none =>
          if slice img 64 32 ≠ ident ∨ identityOf img ≠ slice img 64 32 then some (0x2005, 0) else none

/-- Sections of a type. -/
def ofType (xs : List Sect) (t : Nat) : List Sect := xs.filter fun x => x.typ = t

/-- Items 6 to 14, for a parcel of `w` × `h` facets and a command's JOB_SIZE, RANK and RING_LEN. -/
def imageBody (s : State) (img : List Byte) (w h js rank ringLen : Nat) : Option Nat :=
  let xs := sections img
  let timed := bitAt (fieldAt img 10 2) 0
  if !headerOk img then some 0x2006
  else if fieldAt img 26 1 ≠ w ∨ fieldAt img 27 1 ≠ h ∨ fieldAt img 28 2 ≠ js ∨
      (fieldAt img 30 2 ≠ 0xFFFF ∧ fieldAt img 30 2 ≠ rank) then some 0x2007
  else if xs.any fun x => !x.ok w h then some 0x2008
  else if (positions w h).any fun (dx, dy) => (List.range 4).any fun st =>
      ((ofType xs 1).filter fun x => x.flags = st && x.covers dx dy).length ≠ 1 then some 0x2009
  else if (xs.any fun x => decide (x.typ ≤ 2 ∧ 0x10_0000 < x.target + x.len)) ||
      (positions w h).any fun (dx, dy) =>
        !disjoint ((xs.filter fun x => decide (x.typ ≤ 2) && x.covers dx dy).map fun x => (x.target, x.len)) then some 0x200A
  else if (positions w h).any fun (dx, dy) => decide (1 < ((ofType xs 3).filter fun x => x.covers dx dy).length) then some 0x200B
  else if decide (1 < (ofType xs 4).length) || (ofType xs 4).any fun x => routesBad w h x.data then some 0x200C
  else if (!timed && !(ofType xs 5).isEmpty) || ((ofType xs 5).any fun x => gatesBad s (fieldAt img 32 8) x) ||
      (ofType xs 5).any fun x => decide (1 < ((ofType xs 5).filter fun q => fieldAt q.data 0 2 = fieldAt x.data 0 2).length)
  then some 0x200E
  else if decide (1 < (ofType xs 6).length) || (ringLen = 0 && !(ofType xs 6).isEmpty) ||
      (ofType xs 6).any fun x => outputsBad w h x.data then some 0x200F
  else none

end Sys2Proof.Machine
end

