-- ==== Sys2Proof/Machine/Cuts.lean ====
section
/-! DEFINITION. The cut commands (R136 to R138, R150 to R152, R154, R270, R279). -/

namespace Sys2Proof.Machine

/-! ## Common to the cut commands -/

/-- The parcel that INST and PARCEL name. -/
def State.theParcel (s : State) (ps : List Byte) : Option Nat :=
  let p := fieldAt ps 1 1
  let x := s.parcel p
  if x.valid && x.inst = fieldAt ps 0 1 then some p else none

/-- A command reads an instance's memory: what it read, and the state with the account, or with the ADDRESS event of a
translation that is refused (R33, R222). -/
def State.cmdRead (s : State) (blk i a n obj : Nat) : State × Option (List Byte) :=
  match s.readBy clsHost i a n with
  | (s, .ok bs) => (s, some bs)
  | (s, .error (.trans _)) => (s.addressEvent blk i a obj, none)
  | (s, .error _) => (s, none)

/-- A command writes an instance's memory. -/
def State.cmdWrite (s : State) (blk i a obj : Nat) (bs : List Byte) : State × Bool :=
  match s.writeBy clsHost i a bs with
  | (s, .ok _) => (s, true)
  | (s, .error (.trans _)) => (s.addressEvent blk i a obj, false)
  | (s, .error _) => (s, false)

/-- The outcome of an event that this model gives a next state in every case. -/
def Res.state (r : Res) (s : State) : State := match r with | .next t => t | _ => s

/-- The instructions in flight of a facet's engines complete (R76). -/
def State.finishFlight (s : State) (f : Nat) : State :=
  let s := (execMmaComplete f s).state s
  let s := (execMdrainComplete f s).state s
  (execVectorComplete f s).state s

/-- A facet returns to Empty once its instructions in flight are complete; its scratchpad is kept and its static streams are
cleared (R124, R214). -/
def State.emptyFacet (s : State) (f : Nat) : State :=
  (s.finishFlight f).modFacet f fun x =>
    { x with
      state := .empty, inflight := [], xfers := [], signals := [], statics := [], wheels := [], slots := [], arrived := none
      exc := none, stepEnd := false, refused := [] }

/-! ## CUT_LOAD (R136, R137, R154, R270) -/

/-- The ring of a load overlaps a ring in use without coinciding with it (R154). -/
def State.ringClash (s : State) (i ring len : Nat) : Bool :=
  s.rings.any fun r => r.inst = i && !(r.addr = ring && r.len = len) &&
    decide (ring < r.addr + r.len + 64 ∧ r.addr < ring + len + 64)

/-- The ring of a load is in use already, and is shared (R154). -/
def State.ringInUse (s : State) (i ring : Nat) : Bool := s.rings.any fun r => r.inst = i && r.addr = ring

/-- A fresh ring's PROD and CONS are written as zero; false when the ring takes no write (R154). -/
def State.freshRing (s : State) (i ring len : Nat) : State × Bool :=
  if len = 0 || s.ringInUse i ring then (s, true) else s.ringReset clsHost i ring

/-- A parcel takes a ring into use: a fresh one starts with PROD and SEQ at 0. -/
def State.useRing (s : State) (p i ring len : Nat) : State :=
  if len = 0 then s
  else if s.ringInUse i ring then
    { s with rings := s.rings.map fun r => if r.inst = i && r.addr = ring then { r with users := p :: r.users } else r }
  else { s with rings := s.rings ++ [{ inst := i, addr := ring, len, prod := 0, seq := 0, users := [p] }] }

/-- A parcel leaves its ring; a ring that nothing uses is no longer in use. -/
def State.leaveRing (s : State) (p : Nat) : State :=
  { s with rings := (s.rings.map fun r => { r with users := r.users.filter (· ≠ p) }).filter fun r => !r.users.isEmpty }

/-- Step 3 and 4 for one facet: banks On, zeroes, sections, registers. -/
def State.loadFacet (s : State) (xs : List Sect) (f dx dy js rank waitLim : Nat) : State :=
  let mine := xs.filter fun x => x.covers dx dy
  let s := s.modFacet f fun x => { x with banks := [], bankMove := [], bankSet := [] }
  let s := s.zeroRange (spadAddr f 0) 0x10_0000
  let s := mine.foldl (fun s x => if x.typ ≤ 2 then (s.storeRaw (spadAddr f x.target) x.data).1 else s) s
  let own := match mine.find? fun x => x.typ = 3 with | some x => leNat x.data | none => 0
  s.modFacet f fun y =>
    { y with
      state := .loaded, tokown := BitVec.ofNat 64 own, waitlim := waitLim, jobSize := js, rank, statics := [], wheels := [], slots := []
      streams := (List.range 4).map fun st =>
        match mine.find? fun x => x.typ = 1 && x.flags = st with
        | some x => (st, { Stream.initial with base := x.target / 16, len := x.len / 16 })
        | none => (st, Stream.initial) }

/-- A static stream takes its slots at an output port (R124); the streams' numbers are `streamKey`'s. -/
def Facet.takePort (y : Facet) (port w key : Nat) : Facet :=
  let r := slotsTaken (y.wheels.getD port 0) w
  { y with
    wheels := y.wheels.put port r.1
    slots := r.2.foldl (fun t j => t.put (16 * port + j) key) y.slots }

/-- Programs the static streams of a ROUTE section, in its order (R124). -/
def State.loadRoutes (s : State) (x : Parcel) (es : List RouteEntry) : State :=
  es.foldl (fun s e =>
    let src := x.facetOf e.sx e.sy
    let dst := x.facetOf e.dx e.dy
    let s := s.modFacet src fun y => { y with statics := y.statics ++ [(dst, e.w)] }
    e.ports.foldl (fun s (px, py, port) => s.modFacet (x.facetOf px py) fun y => y.takePort port e.w (2048 * src + dst)) s) s

/-- The parameter fields of CUT_LOAD. -/
def cutLoadFields (_ : State) (ps : List Byte) : List (Nat × Bool) :=
  let rl := fieldAt ps 40 4
  [below ps 0 1 64, (2, decide (fieldAt ps 2 2 < fieldAt ps 20 2)), address ps 8 16,
   (16, decide (256 ≤ fieldAt ps 16 4 ∧ fieldAt ps 16 4 ≤ 2147483648 ∧ fieldAt ps 16 4 % 16 = 0)),
   within ps 20 2 1 1024, rsv ps 22 2, address ps 24 2, address ps 32 4096,
   (40, rl = 0 || decide (rl ∈ (List.range 15).map fun j => 65536 * 2 ^ j)), rsv ps 44 4]

/-- Loads a checked image (R136 steps 3 to 5, R270). -/
def State.loadCut (s : State) (p : Nat) (ps img : List Byte) (tab : List Nat) : State :=
  let x := s.parcel p
  let xs := sections img
  let js := fieldAt ps 20 2
  let rank := fieldAt ps 2 2
  let job := fieldAt ps 4 4
  let s := (positions (4 * x.gw) (4 * x.gh)).foldl (fun s (dx, dy) =>
    s.loadFacet xs (x.facetOf dx dy) dx dy js rank (fieldAt img 52 4)) s
  let s := s.loadRoutes x ((ofType xs 4).flatMap fun r => routeEntries r.data)
  let gates := (ofType xs 5).map fun g => (fieldAt g.data 0 2, gateEntries (g.data.drop 8))
  let s := gates.foldl (fun s (port, _) => s.modGates port fun g => { g with gated := true }) s
  let c : Cut :=
    { identity := slice img 64 32, jobHash := slice img 96 32, timed := bitAt (fieldAt img 10 2) 0, cycle := fieldAt img 32 8,
      guardNs := fieldAt img 40 4, slipMax := fieldAt img 44 2, beatLimit := fieldAt img 48 4, jobSize := js, rank, job,
      ranktab := tab, ring := fieldAt ps 32 8, ringLen := fieldAt ps 40 4, gates,
      slots := (ofType xs 6).flatMap fun o => outSlots o.data }
  let s := s.useRing p x.inst c.ring c.ringLen
  let s := s.modParcel p fun y =>
    { y with cut := some c, run := Run.initial, ckp := { y.ckp with restored := none, sealedBy := [], armed := [], armedSelf := false } }
  { s with fabric := { s.fabric with bindings := s.fabric.bindings ++
      [{ inst := x.inst, job, parcel := p, rank, gen := s.genOf x.inst, ranktab := tab }] } }

/-- A load whose placement meets an ECC or bank fault: the facets return to Empty, and an event says so (R137). -/
def State.loadFailed (s : State) (p : Nat) (ps img : List Byte) : State :=
  let x := s.parcel p
  let s := (positions (4 * x.gw) (4 * x.gh)).foldl (fun s (dx, dy) =>
    s.loadFacet (sections img) (x.facetOf dx dy) dx dy (fieldAt ps 20 2) (fieldAt ps 2 2) (fieldAt img 52 4)) s
  (x.facets.foldl State.emptyFacet s).raise blkPCL 0x20FF (some x.inst) p 0x2016

/-- CUT_LOAD after its parameter checks. Whether the placement meets an ECC or bank fault is the silicon's to say: a free value decides
(log entry 65). -/
def cutLoadRun (s : State) (_ : Waiter) (_ : Nat) (ps : List Byte) : Act :=
  let i := fieldAt ps 0 1
  let len := fieldAt ps 16 4
  let js := fieldAt ps 20 2
  let ring := fieldAt ps 32 8
  let rl := fieldAt ps 40 4
  match s.deviceFault with
  | some code => fails s 0x000D code
  | none =>
  match s.theParcel ps with
  | none => fails s 0x2015
  | some p =>
    let x := s.parcel p
    if !(x.facets.all fun f => (s.facet f).state = .empty) || x.cut.isSome ||
        s.fabric.bindings.any fun b => b.inst = i && b.job = fieldAt ps 4 4 then fails s 0x200D
    else
      match s.cmdRead blkPCL i (fieldAt ps 8 8) len p with
      | (s, none) => fails s 0x2010
      | (s, some img) =>
        match imageFrame img len (slice ps 48 32) with
        | some (st, d) => fails s st d
        | none =>
          match imageBody s img (4 * x.gw) (4 * x.gh) js (fieldAt ps 2 2) rl with
          | some st => fails s st
          | none =>
            match s.cmdRead blkPCL i (fieldAt ps 24 8) (2 * js) p with
            | (s, none) => fails s 0x2010
            | (s, some tb) =>
              let tab := (List.range js).map fun r => fieldAt tb (2 * r) 2
              if tab.eraseDups.length ≠ js ∨ tab.getD (fieldAt ps 2 2) 0x10000 ≠ s.fabric.id then fails s 0x2011
              else if rl ≠ 0 ∧ s.ringClash i ring rl then fails s 0x200F
              else if rl ≠ 0 ∧ !s.mapsRw i ring (rl + 64) then fails (s.addressEvent blkPCL i ring p) 0x2010
              else match s.freshRing i ring rl with
                | (s, false) => fails s 0x2010
                | (s, true) =>
                  let (bad, s) := s.mayFail
                  if bad then fails (s.loadFailed p ps img) 0x2016 else okay (s.loadCut p ps img tab)

/-- CUT_LOAD (R136). -/
def cutLoadSpec : Spec := { opcode := 0x2001, permits := ownAt 0, plen := fixed 80, fields := cutLoadFields, run := cutLoadRun }

/-- CUT_LOAD (R136): checks a cut image and loads it into an Empty parcel. -/
def execCutLoad (c : Cmd) (s : State) : Res := .next (s.command cutLoadSpec c)

/-! ## CUT_START (R138, R145, R152, R279) -/

/-- The fields the other cut commands share; `used` says that TIME is used. -/
def cutFields (flagBound : Nat) (used : State → List Byte → Bool) (s : State) (ps : List Byte) : List (Nat × Bool) :=
  [below ps 0 1 64, below ps 2 2 flagBound, rsv ps 4 4, (8, fieldAt ps 8 8 = 0 || used s ps)]

/-- The cut of the parcel that the parameters name is timed, and, for CUT_START, this device is rank 0; without a cut the
state check comes instead. -/
def timeUsed (root : Bool) (s : State) (ps : List Byte) : Bool :=
  match (s.parcel (fieldAt ps 1 1)).cut with
  | some c => c.timed && (!root || c.rank = 0)
  | none => true

/-- Tenths of a nanosecond that a 138-byte CTRL frame takes on the slowest fabric link (R279). -/
def State.ctrlTenths (s : State) : Nat :=
  (List.range 16).foldl (fun m p =>
    if s.fabric.edge.contains p || !(s.port p).enable then m
    else max m (match (s.port p).split with | 0 => 14 | 1 => 28 | _ => 56)) 14

/-- The bound b of a job (R279). -/
def State.boundB (s : State) (c : Cut) : Nat :=
  if c.jobSize ≤ 1 then 0
  else
    let lat := (c.ranktab.zipIdx).foldl (fun m (d, r) => if r = c.rank then m else max m (bitsOf (s.route d).toNat 23 0)) 0
    lat + ((c.jobSize - 1) * s.ctrlTenths + 9) / 10 + 1000

/-- The HASH that READY carries from this device (R152, R200). -/
def Parcel.readyHash (x : Parcel) (c : Cut) : List Byte :=
  match x.ckp.restored with
  | some st => sha256 (c.jobHash ++ leBytes 8 st)
  | none => c.jobHash

/-- CUT_START after its parameter checks. -/
def cutStartRun (s : State) (_ : Waiter) (_ : Nat) (ps : List Byte) : Act :=
  let time := fieldAt ps 8 8
  match s.deviceFault with
  | some code => fails s 0x000D code
  | none =>
  match s.theParcel ps with
  | none => fails s 0x2015
  | some p =>
    let x := s.parcel p
    match x.cut with
    | none => fails s 0x200D
    | some c =>
      if s.parcelState p ≠ .loaded ∨ x.run.started.isSome ∨ x.run.reason ≠ 0 then fails s 0x200D
      else if c.timed ∧ s.fabric.lock = 0 then fails s 0x2012
      else if c.timed ∧ c.rank = 0 ∧ (time < s.gptp + 1000000 ∨ s.gptp + 60000000000 < time) then fails s 0x2013
      else if c.ranktab.zipIdx.any fun (d, r) => r ≠ c.rank && (s.wayTo s.fabric.id d).isNone then fails s 0x2017
      else
        let b := s.boundB c
        if c.timed ∧ c.guardNs < b then fails s 0x2014
        else
          let restored := x.ckp.restored.isSome
          let s := x.facets.foldl (fun s f => s.modFacet f fun y => y.atStart c.rank restored) s
          let s := s.modRun p fun r => { r with started := some s.now, startTime := time, b }
          let s := s.modCkp p fun k =>
            { k with
              keep := if restored then k.restored else k.keep
              timerAt := match k.conf with
                | some q => if c.rank = 0 ∧ 0 < q.periodMs then some (s.now + q.periodMs * 1000000) else none
                | none => none }
          okay (s.readyUp p c (x.readyHash c))

/-- CUT_START (R152). -/
def cutStartSpec : Spec :=
  { opcode := 0x2002, permits := ownAt 0, plen := fixed 16, fields := cutFields 1 (timeUsed true), run := cutStartRun }

/-- CUT_START (R152): starts a loaded cut and sends READY up the tree. -/
def execCutStart (c : Cmd) (s : State) : Res := .next (s.command cutStartSpec c)

/-! ## Pause, resume, stop (R150, R151) -/

/-- A command on a parcel whose job runs or is paused. -/
def onJob (s : State) (ps : List Byte) (k : Nat → Cut → Act) : Act :=
  match s.theParcel ps with
  | none => fails s 0x2015
  | some p =>
    match (s.parcel p).cut with
    | none => fails s 0x200D
    | some c => if s.parcelState p = .running ∨ s.parcelState p = .paused then k p c else fails s 0x200D

/-- TIME is not used by this command. -/
def noTime : State → List Byte → Bool := fun _ _ => false

/-- CUT_PAUSE (R150): the reply leaves once this device holds p. -/
def cutPauseSpec : Spec :=
  { opcode := 0x2003, permits := ownAt 0, plen := fixed 16, fields := cutFields 1 noTime
    run := fun s w _ ps => onJob s ps fun p c =>
      if s.parcelState p = .paused then gives s (s.cutStatus p)
      else .wait ((s.modRun p fun r => { r with pauseWait := r.pauseWait ++ [w] }).requestPause p c 1) }

/-- CUT_PAUSE (R150): requests a pause of the job at a chosen beat. -/
def execCutPause (c : Cmd) (s : State) : Res := .next (s.command cutPauseSpec c)

/-- CUT_RESUME after its parameter checks. -/
def cutResumeRun (s : State) (_ : Waiter) (_ : Nat) (ps : List Byte) : Act :=
  let time := fieldAt ps 8 8
  onJob s ps fun p c =>
    let r := (s.parcel p).run
    if s.parcelState p ≠ .paused ∨ !r.pauses.has r.beat then fails s 0x200D
    else if c.timed ∧ s.fabric.lock = 0 then fails s 0x2012
    else if c.timed ∧ (time < s.gptp + 1000000 ∨ time < s.gptp + r.goB ∨ s.gptp + 60000000000 < time) then fails s 0x2013
    else okay ((s.ctrlAll p c 6 r.beat time).applyResume p c r.beat time)

/-- CUT_RESUME (R150). -/
def cutResumeSpec : Spec :=
  { opcode := 0x2004, permits := ownAt 0, plen := fixed 16, fields := cutFields 1 (timeUsed false), run := cutResumeRun }

/-- CUT_RESUME (R150): resumes a paused job. -/
def execCutResume (c : Cmd) (s : State) : Res := .next (s.command cutResumeSpec c)

/-- CUT_STOP (R151). At a Paused job that a resume has reached already the stop comes second (R152). -/
def cutStopSpec : Spec :=
  { opcode := 0x2005, permits := ownAt 0, plen := fixed 16, fields := cutFields 2 noTime
    run := fun s w _ ps => onJob s ps fun p c =>
      if bitAt (fieldAt ps 2 2) 0 then
        let s := s.endJob p 3 c.rank true
        gives s (s.cutStatus p)
      else if (s.parcel p).run.pausedAt.isSome && (s.parcel p).run.resumeAt.isSome then fails s 0x200D
      else .wait ((s.modRun p fun r => { r with stopWait := r.stopWait ++ [w] }).requestStop p c) }

/-- CUT_STOP (R151): stops the job at a beat, or immediately. -/
def execCutStop (c : Cmd) (s : State) : Res := .next (s.command cutStopSpec c)

/-! ## CUT_UNLOAD (R270, R275) and CUT_STATUS (R148) -/

/-- What a parcel's cut holds outside the parcel is given up: gates, ring, binding, arriving transfers. With it ends the cause of the
faults of the parcel's facets (R466). -/
def State.dropCut (s : State) (p : Nat) : State :=
  let x := s.parcel p
  match x.cut with
  | none => s
  | some c =>
    let s := c.gates.foldl (fun s (port, _) => s.modGates port fun g =>
      { g with cut := [], cutOn := false, gated := false, idx := 0 }) s
    let s := x.facets.foldl (fun s f => s.objectWell .parcel f) (s.leaveRing p)
    let s := s.modParcel p fun y => { y with cut := none, run := Run.initial }
    { s with fabric := { s.fabric with
        bindings := s.fabric.bindings.filter fun b => b.parcel ≠ p
        peersIn := s.fabric.peersIn.filter fun t => !(t.inst = x.inst && t.job = c.job) } }

/-- CUT_UNLOAD after its parameter checks. -/
def cutUnloadRun (s : State) (_ : Waiter) (_ : Nat) (ps : List Byte) : Act :=
  match s.theParcel ps with
  | none => fails s 0x2015
  | some p =>
    let st := s.parcelState p
    if st = .loaded ∨ st = .done ∨ st = .faulted then
      okay (((s.parcel p).facets.foldl State.emptyFacet s).dropCut p).refreshRails
    else fails s 0x200D

/-- CUT_UNLOAD. -/
def cutUnloadSpec : Spec :=
  { opcode := 0x2006, permits := ownAt 0, plen := fixed 16, fields := cutFields 1 noTime, run := cutUnloadRun }

/-- CUT_UNLOAD (R270): returns a parcel's facets to Empty and removes the binding, the gates and the static streams. -/
def execCutUnload (c : Cmd) (s : State) : Res := .next (s.command cutUnloadSpec c)

/-- CUT_STATUS. -/
def cutStatusSpec : Spec :=
  { opcode := 0x2007, permits := ownAt 0, plen := fixed 16, fields := cutFields 1 noTime
    run := fun s _ _ ps => match s.theParcel ps with
      | none => fails s 0x2015
      | some p => gives s (s.cutStatus p) }

/-- CUT_STATUS (R148): reports the parcel's job state. -/
def execCutStatus (c : Cmd) (s : State) : Res := .next (s.command cutStatusSpec c)

end Sys2Proof.Machine
end

