-- ==== Sys2Proof/Machine/Beats.lean ====
section
/-! DEFINITION. Beats: arrivals, deadlines, windows, limits, output records, and the job messages that a device receives
(R139 to R154, R188, R190, R197, R276 to R278). -/

namespace Sys2Proof.Machine

/-- Moves time forward to a gPTP instant at which something is due (log entry 8). -/
def State.reachGptp (s : State) (t : Nat) : State :=
  let d : Int := (t : Int) - s.fabric.offset
  s.reach (if 0 ≤ d then d.toNat else 0)

/-- The parcel is paced: it has a budget and no credit (R220). -/
def Parcel.pacing (x : Parcel) : Bool := x.budget ≠ 0 && decide (x.credit < 0)

/-- The first beat that pacing delays counts in PCL_PACED (R220). -/
def State.countPaced (s : State) (p : Nat) : State :=
  if (s.parcel p).run.pacedBeat then s
  else (s.modParcel p fun x => { x with paced := min (2 ^ 64 - 1) (x.paced + 1) }).modRun p fun r => { r with pacedBeat := true }

/-- A checkpoint copy is under way. -/
def Ckp.busy (k : Ckp) : Bool := k.phase = .capturing || k.phase = .copying || k.phase = .sealing

/-- A gather descriptor of a facet of the parcel is queued or in progress (R189). -/
def State.gathering (s : State) (p : Nat) : Bool :=
  s.gather.dies.any fun e => e.2.jobs.any fun j => (s.parcel p).facets.contains j.facet

/-- DEVICE_ARRIVE (R139, R189, R220): the parcel has arrived, the output copy of a step end is complete, and nothing holds
the arrival. A device whose facets are all Done may learn here that those of the others are too (R149, log entry 21). -/
def execDeviceArrive (p : Nat) (s : State) : Res :=
  .next <|
    let x := s.parcel p
    match x.cut with
    | none => s
    | some c =>
      let r := x.run
      let (ended, s) := if x.jobOn && r.released && s.allDone p then s.doneElsewhere c else (false, s)
      if ended then s.endJob p 1 c.rank false
      else if !x.jobOn || !r.released || r.arrivedAt.isSome || !s.parcelArrived p || r.closingAt.isSome then s
      else
        let se := s.stepEndOf p
        let due := se && x.ckp.announced.contains r.step
        if se && decide (r.outputs < c.slots.length) then s
        else if due && (x.ckp.busy || s.gathering p) then s
        else if !c.timed && x.pacing then s.countPaced p
        else
          let s := s.modRun p fun q => { q with arrivedAt := some s.now }
          if c.timed then s else s.arriveUp p c

/-- Writes the output records that are still due, as long as there is room. Uncorrectable data in a slot's region end the job with
OUTPUT_RING (DESIGN CHOICE, log entry 61). -/
def State.putSlots (s : State) (p : Nat) (c : Cut) (step : Nat) : List OutSlot → State
  | [] => s
  | o :: t =>
    let f := (s.parcel p).facetOf o.fx o.fy
    if s.rangeBad (spadAddr f o.offset) o.len then (s.metBad clsHost (spadAddr f o.offset) o.len).endJob p 9 c.rank true
    else match s.putOutput p c step o.slot 0 (s.readBytes (spadAddr f o.offset) o.len) with
    | .ok s' _ => State.putSlots (s'.modRun p fun r => { r with outputs := r.outputs + 1 }) p c step t
    | .full => s
    | .bad s => s.endJob p 9 c.rank true

/-- The slots in slot order. -/
def Cut.ordered (c : Cut) : List OutSlot := (List.range 16).filterMap fun n => c.slots.find? fun o => o.slot = n

/-- OUTPUT_RECORD_WRITE (R154): the records of a step end, or the end record, while the ring has room. -/
def execOutputRecordWrite (p : Nat) (s : State) : Res :=
  .next <|
    let x := s.parcel p
    match x.cut with
    | none => s
    | some c =>
      if x.run.endDue then s.writeEnd p
      else if x.jobOn && x.run.released && s.parcelArrived p && s.stepEndOf p && x.run.arrivedAt.isNone then
        s.putSlots p c x.run.step (c.ordered.drop x.run.outputs)
      else s

/-- BEAT_LIMIT_EXPIRE (R141, R190): an untimed beat has not closed within BEAT_LIMIT of the device's arrival, or RELEASE has
not come within BEAT_LIMIT of the closure. The record names the children whose arrivals are missing. -/
def execBeatLimitExpire (p : Nat) (s : State) : Res :=
  .next <|
    let x := s.parcel p
    let r := x.run
    match x.cut, r.arrivedAt with
    | some c, some a =>
      if !x.jobOn || c.timed || r.pausedAt.isSome then s
      else
        let since := match r.closingAt with | some t => t | none => a
        let missing := c.children.filter fun k => !r.arrivals.contains k
        let s := s.reach (since + 1000 * c.beatLimit + r.pausedFor)
        (s.raise blkPCL 0x2005 (some x.inst) p c.beatLimit (missing.flatMap fun k => leBytes 2 k)).endJob p 6 c.rank true
    | _, _ => s

/-! ## Timed windows (R144) -/

/-- The timed job is inside a window: released, not ended, not paused. -/
def Parcel.inWindow (x : Parcel) : Bool := x.jobOn && x.run.released && x.run.pausedAt.isNone

/-- The device's latest facet at a deadline (R148): one that has not arrived at the beat, else the one that arrived last. -/
def State.lastFacet (s : State) (p : Nat) : Nat :=
  let fs := (s.parcel p).facets
  match fs.find? fun f => (s.facet f).arrived.isNone && decide ((s.facet f).state ≠ .done) with
  | some f => f
  | none => (fs.foldl (fun (b : Option (Nat × Nat)) f => match (s.facet f).arrived, b with
      | some t, some (_, m) => if m < t then some (f, t) else b
      | some t, none => some (f, t)
      | none, _ => b) none).map (·.1) |>.getD (fs.headD 0)

/-- BEAT_DEADLINE (R144, R148, R220): at D(n) a device that has not arrived, that is pacing, or whose capture is incomplete sends
SLIP(n) to every device and records LAG. The rail controller acts only after the beat, so that the action in the record is a free
value (log entry 63). -/
def execBeatDeadline (p : Nat) (s : State) : Res :=
  .next <|
    let x := s.parcel p
    match x.cut with
    | none => s
    | some c =>
      if !c.timed || !x.inWindow then s
      else
        let s := s.reachGptp (x.run.windowAt + c.cycle - c.guardNs)
        let r := x.run
        let late := r.arrivedAt.isNone || (r.closingAt.isSome && !x.ckp.armedSelf)
        if late || x.pacing then
          let s := if late then s else s.countPaced p
          let s := (s.ctrlAll p c 3 r.beat 0).modRun p fun q =>
            { q with slip := true, slipped := q.slipped || r.arrivedAt.isNone, slipCap := q.slipCap || (late && r.closingAt.isSome) }
          let (v, s) := s.takeFree
          s.lag p (s.lastFacet p) (v % 6)
        else s

/-- The window of the present beat is held (R144): σ rises and the window repeats; only holds that capture does not cause
count against SLIP_MAX (R190). -/
def State.holdWindow (s : State) (p : Nat) (c : Cut) (capture : Bool) (at_ : Nat) : State :=
  let r := (s.parcel p).run
  if !capture ∧ c.slipMax ≤ r.holds then s.endJob p 7 c.rank true
  else
    (s.modRun p fun q => { q with sigma := q.sigma + 1, holds := q.holds + bit (!capture) }).openWindow p c at_

/-- A timed beat closes and the next window opens (R144). -/
def State.closeWindow (s : State) (p : Nat) (c : Cut) (at_ : Nat) : State :=
  let s := s.closeBeat p
  if (s.parcel p).jobOn then s.openWindow p c at_ else s

/-- WINDOW_END (R144, R150, R190): the window is held after a slip or for a capture, paused, or closed. -/
def execWindowEnd (p : Nat) (s : State) : Res :=
  .next <|
    let x := s.parcel p
    match x.cut with
    | none => s
    | some c =>
      let r := x.run
      let t := r.windowAt + c.cycle
      if !c.timed || !x.inWindow then s
      else if r.slip then
        (s.reachGptp t).holdWindow p c r.slipCap t
      else if r.arrivedAt.isNone || (r.closingAt.isSome && !x.ckp.armedSelf) then s
      else
        let s := s.reachGptp t
        if s.captureDue p then ((s.capture p c).modRun p fun q => { q with closingAt := some s.now }).holdWindow p c true t
        else if r.pauseHere then s.enterPause p
        else s.closeWindow p c t

/-- TIMED_START (R152): at S the window of the first beat opens. -/
def execTimedStart (p : Nat) (s : State) : Res :=
  .next <|
    let x := s.parcel p
    match x.cut, x.run.resumeAt with
    | some c, some t =>
      if c.timed && x.jobOn && !x.run.released then
        ((s.reachGptp t).modRun p fun r => { r with resumeAt := none }).beginRun p c
      else s
    | _, _ => s

/-- RESUME_WINDOW_START (R150): the window of beat p + 1 opens at TIME and the facets are released. -/
def execResumeWindowStart (p : Nat) (s : State) : Res :=
  .next <|
    let x := s.parcel p
    match x.cut, x.run.resumeAt with
    | some c, some t =>
      if c.timed && x.jobOn && x.run.released && x.run.pausedAt.isSome then
        ((s.reachGptp t).modRun p fun r => { r with resumeAt := none }).closeWindow p c t
      else s
    | _, _ => s

/-- START_LIMIT_EXPIRE (R152): GO has not left rank 0 within 10 s of its CUT_START. -/
def execStartLimitExpire (p : Nat) (s : State) : Res :=
  .next <|
    let x := s.parcel p
    match x.cut, x.run.started with
    | some c, some t =>
      if c.rank = 0 && x.jobOn && !x.run.released && x.run.resumeAt.isNone then
        (s.reach (t + 10000000000)).endJob p 0x0A c.rank true
      else s
    | _, _ => s

/-! ## Job messages (R277, R278) -/

/-- A CTRL payload after its CODE. -/
structure CtrlMsg where
  srank : Nat
  arg   : Nat
  arg2  : Nat
  arg3  : Nat
  hash  : List Byte
  deriving DecidableEq, Repr

/-- The fields of a CTRL payload (R277). -/
def ctrlMsg (b : List Byte) : CtrlMsg :=
  { srank := fieldAt b 2 2, arg := fieldAt b 8 8, arg2 := fieldAt b 16 8, arg3 := fieldAt b 24 8, hash := slice b 32 32 }

/-- A CTRL frame with a reserved CODE or a reserved field that is not zero (R278). -/
def ctrlBad (b : List Byte) : Bool :=
  fieldAt b 0 1 = 0 || decide (0x12 < fieldAt b 0 1) || !allZero (slice b 1 1) || !allZero (slice b 4 4)

/-- A CTRL frame of one code at ingress: discarded under R252, R264, R270 or R278, or applied to the job's parcel. -/
def State.ctrlIn (s : State) (link : Nat) (z : ZFrame) (code : Nat) (k : State → Nat → Cut → CtrlMsg → State) : State :=
  let c := fieldAt z.payload 0 1
  if c ≠ code ∧ 1 ≤ c ∧ c ≤ 0x12 then s
  else s.jobIngress link z 8 fun s b =>
    if ctrlBad z.payload then s.zDiscard 2
    else match (s.parcel b.parcel).cut with
      | some c => k s b.parcel c (ctrlMsg z.payload)
      | none => s

/-- The same for a message of a job that runs here. -/
def State.ctrlRun (s : State) (link : Nat) (z : ZFrame) (code : Nat) (k : State → Nat → Cut → CtrlMsg → State) : State :=
  s.ctrlIn link z code fun s p c m => if (s.parcel p).jobOn then k s p c m else s

/-- CTRL_ARRIVE (R140): a child has arrived at the present beat. -/
def execCtrlArrive (link : Nat) (z : ZFrame) (s : State) : Res :=
  .next <| s.ctrlRun link z 1 fun s p c m =>
    let r := (s.parcel p).run
    if c.timed || m.arg ≠ r.beat || !c.children.contains m.srank || r.arrivals.contains m.srank then s
    else (s.modRun p fun q => { q with arrivals := q.arrivals ++ [m.srank] }).arriveUp p c

/-- CTRL_CLOSE (R140, R190): the closure of the present beat comes from the parent. -/
def execCtrlClose (link : Nat) (z : ZFrame) (s : State) : Res :=
  .next <| s.ctrlRun link z 2 fun s p c m =>
    let r := (s.parcel p).run
    if c.timed || c.rank = 0 || m.arg ≠ r.beat || m.srank ≠ c.parent || r.arrivedAt.isNone || r.closingAt.isSome then s
    else s.closureHere p c

/-- CTRL_SLIP (R144): the window of the present beat is held; a slip for a closed beat is a TIME_FAULT. A slip does not say why it was
sent; one that comes while a capture holds the beat is taken to be for the capture (log entry 63). -/
def execCtrlSlip (link : Nat) (z : ZFrame) (s : State) : Res :=
  .next <| s.ctrlRun link z 3 fun s p c m =>
    let r := (s.parcel p).run
    if !c.timed then s
    else if m.arg < r.beat then s.endJob p 8 c.rank true
    else if m.arg = r.beat then s.modRun p fun q => { q with slip := true, slipCap := q.slipCap || r.closingAt.isSome }
    else s

/-- CTRL_ABORT (R149): another device ended the job, which may not have started here. -/
def execCtrlAbort (link : Nat) (z : ZFrame) (s : State) : Res :=
  .next <| s.ctrlIn link z 4 fun s p _ m => s.endJob p 5 (bitsOf m.arg2 31 16) false

/-- CTRL_PAUSE (R150). -/
def execCtrlPause (link : Nat) (z : ZFrame) (s : State) : Res :=
  .next <| s.ctrlRun link z 5 fun s p c m => s.applyPause p c m.arg m.arg2

/-- CTRL_RESUME (R150, R276). -/
def execCtrlResume (link : Nat) (z : ZFrame) (s : State) : Res :=
  .next <| s.ctrlRun link z 6 fun s p c m => s.applyResume p c m.arg m.arg2

/-- CTRL_STOP (R151). -/
def execCtrlStop (link : Nat) (z : ZFrame) (s : State) : Res :=
  .next <| s.ctrlRun link z 7 fun s p c m => s.applyStop p c m.arg

/-- CTRL_READY (R152, R278): a child is ready, with its HASH and the largest b it holds. -/
def execCtrlReady (link : Nat) (z : ZFrame) (s : State) : Res :=
  .next <| s.ctrlIn link z 8 fun s p c m =>
    if !c.children.contains m.srank || (s.parcel p).run.reason ≠ 0 then s
    else (s.modRun p fun r => { r with ready := r.ready.put m.srank (m.hash, m.arg2) }).readyUp p c ((s.parcel p).readyHash c)

/-- CTRL_GO (R152, R276): the facets are released, or the start time is fixed. -/
def execCtrlGo (link : Nat) (z : ZFrame) (s : State) : Res :=
  .next <| s.ctrlRun link z 9 fun s p c m =>
    if c.rank = 0 || m.srank ≠ c.parent || (s.parcel p).run.resumeAt.isSome then s else s.go p c m.arg2 m.arg3

/-- CTRL_CKNOW (R188): rank 0 chooses the step of a checkpoint that another device asked for, and announces it, anew where the step was
announced already. -/
def execCtrlCknow (link : Nat) (z : ZFrame) (s : State) : Res :=
  .next <| s.ctrlRun link z 0x0A fun s p c _ =>
    if c.rank ≠ 0 || (s.parcel p).ckp.conf.isNone then s
    else
      let known := (s.parcel p).ckp.announced
      let (s, st) := s.announceCkpt p c (s.parcel p).run.step
      if known.contains st then s.ctrlAll p c 0x0B st 0 else s

/-- The reply to CKP_NOW leaves once this device holds the s that answers it (R188): a CKPT names no request, and one for a step more
than two ahead of this device's answers another target (log entry 64). -/
def State.answerNow (s : State) (p st : Nat) : State :=
  match (s.parcel p).ckp.nowWait with
  | some w =>
    if (s.parcel p).run.step + 2 < st then s
    else (s.modCkp p fun k => { k with nowWait := none, nowStep := some st }).finish w 0 0 (leBytes 8 st)
  | none => s

/-- CTRL_CKPT (R188): the announced step is received. -/
def execCtrlCkpt (link : Nat) (z : ZFrame) (s : State) : Res :=
  .next <| s.ctrlRun link z 0x0B fun s p _ m => (s.noteCkpt p m.arg).answerNow p m.arg

/-- CTRL_ARMED (R190): a child is armed. -/
def execCtrlArmed (link : Nat) (z : ZFrame) (s : State) : Res :=
  .next <| s.ctrlRun link z 0x0C fun s p c m =>
    let x := s.parcel p
    if c.timed || m.arg ≠ x.run.beat || !c.children.contains m.srank || x.ckp.armed.contains m.srank then s
    else (s.modCkp p fun k => { k with armed := k.armed ++ [m.srank] }).armedUp p c

/-- CTRL_RELEASE (R190): the beat closes and the facets are released. -/
def execCtrlRelease (link : Nat) (z : ZFrame) (s : State) : Res :=
  .next <| s.ctrlRun link z 0x0D fun s p c m =>
    let r := (s.parcel p).run
    if c.timed || c.rank = 0 || m.arg ≠ r.beat || m.srank ≠ c.parent || r.closingAt.isNone then s
    else (s.ctrlChildren p c 0x0D r.beat 0 0).closeBeat p

/-- Rank 0 takes a report on step `st`: when SEALED has come from every rank it sends DONE, and the kept step becomes `st`
(R197). The reports on other steps stay until theirs is complete. -/
def State.sealReport (s : State) (p : Nat) (c : Cut) (rank st : Nat) (ok : Bool) : State :=
  let s := s.modCkp p fun k => { k with sealedBy := (k.sealedBy.filter fun e => !(e.1 = st && e.2.1 = rank)) ++ [(st, rank, ok)] }
  if (List.range c.jobSize).all fun r => (s.parcel p).ckp.sealedBy.contains (st, r, true) then
    (s.ctrlAll p c 0x10 st 0).modCkp p fun k =>
      { k with keep := some st, sealedBy := k.sealedBy.filter fun e => decide (st < e.1) }
  else s

/-- CTRL_SEALED (R197): a device has sealed step s. -/
def execCtrlSealed (link : Nat) (z : ZFrame) (s : State) : Res :=
  .next <| s.ctrlIn link z 0x0E fun s p c m => if c.rank = 0 then s.sealReport p c m.srank m.arg true else s

/-- CTRL_FAILED (R197): a device has failed step s. -/
def execCtrlFailed (link : Nat) (z : ZFrame) (s : State) : Res :=
  .next <| s.ctrlIn link z 0x0F fun s p c m => if c.rank = 0 then s.sealReport p c m.srank m.arg false else s

/-- CTRL_DONE (R197): the kept step becomes s. -/
def execCtrlDone (link : Nat) (z : ZFrame) (s : State) : Res :=
  .next <| s.ctrlIn link z 0x10 fun s p _ m => s.modCkp p fun k => { k with keep := some m.arg }

/-- CTRL_PAUSE_REQ (R150): rank 0 chooses p and announces the pause. -/
def execCtrlPauseReq (link : Nat) (z : ZFrame) (s : State) : Res :=
  .next <| s.ctrlRun link z 0x11 fun s p c m => if c.rank = 0 && !c.timed then s.requestPause p c m.arg2 else s

/-- CTRL_STOP_REQ (R151): rank 0 chooses p and announces the stop. -/
def execCtrlStopReq (link : Nat) (z : ZFrame) (s : State) : Res :=
  .next <| s.ctrlRun link z 0x12 fun s p c _ => if c.rank = 0 && !c.timed then s.requestStop p c else s

end Sys2Proof.Machine
end

