-- ==== Sys2Proof/Machine/Fabric.lean ====
section
/-! DEFINITION. The fabric (spec/10): discovery, election, routes, frames of transfers between devices, flows' timers,
gPTP, gates, and the fabric commands. -/

namespace Sys2Proof.Machine



/-! ## Adjacencies and the candidate (R255, R256) -/

/-- The adjacencies of a link that are up. -/
def Fabric.upOn (x : Fabric) (link : Nat) : List Adjacency := x.adjs.filter fun a => a.link = link && a.up

/-- A candidate: priority, key, distance, and the link it was learned on (none for the device itself). -/
structure Candidate where
  prio : Nat
  key  : BitVec 64
  dist : Nat
  link : Option Nat
  deriving DecidableEq, Repr

/-- The order of candidates: priority, key, distance, lowest link (R256). -/
def Candidate.before (a b : Candidate) : Bool :=
  if a.prio ≠ b.prio then decide (a.prio < b.prio)
  else if a.key ≠ b.key then decide (a.key.toNat < b.key.toNat)
  else if a.dist ≠ b.dist then decide (a.dist < b.dist)
  else decide (a.link.getD 0 < b.link.getD 0)

/-- The device's own entry. -/
def State.ownCandidate (s : State) : Candidate := { prio := s.fabric.priority, key := key64, dist := 0, link := none }

/-- The device's candidate (R256). -/
def State.candidate (s : State) : Candidate :=
  s.fabric.adjs.foldl (fun b a =>
    let c : Candidate := { prio := a.cprio, key := a.ckey, dist := a.cdist + 1, link := some a.link }
    if a.up && decide (a.cdist < 63) && !(s.fabric.excluded.any fun e => e.1 = a.ckey) && c.before b then c else b) s.ownCandidate

/-- The device is the fabric manager. -/
def State.isFm (s : State) : Bool := s.candidate.key = key64

/-- A frame leaves on a link of its own choice, if its port is in fabric mode: HELLO, LSA and ROUTES (R248, R305). -/
def State.sendOn (s : State) (link : Nat) (z : ZFrame) : State :=
  if s.fabricLink link then s.egressDrop link 6 none true (.zaren z) z.wire else s

/-- The link runs Zaren: up, of a fabric-mode port, not unusable (R248, R255). -/
def State.zarenLink (s : State) (link : Nat) : Bool :=
  decide (link < 64) && (s.link link).state = .up && s.fabricLink link && !s.fabric.unusable.contains link

/-! ## Identifiers and routes of the fabric manager (R260, R261) -/

/-- Flags of an adjacency in an LSA: switched, and the rate (R257). -/
def State.adjFlags (s : State) (link : Nat) : Nat :=
  bit (s.fabric.switched.contains link) + 2 * min 2 (s.port (portOf link)).split

/-- The device's adjacencies as its LSA reports them: up, by rising link, at most 240 (R257). -/
def State.ownAdjs (s : State) : List (BitVec 64 × Nat × Nat × Nat × Nat) :=
  ((List.range 64).flatMap fun l => (s.fabric.upOn l).map fun a =>
    (a.key, l, a.rlink, s.adjFlags l, Tbl.getD s.fabric.delay l 0)).take 240

/-- The device's own entry in the view. -/
def State.ownView (s : State) : FmDevice :=
  { key := key64, id := s.fabric.id, pref := s.fabric.prefId, epoch := s.fabric.epoch, path := [], adjs := s.ownAdjs }

/-- A view ordered by key, with one entry per key. -/
def viewPut (v : List FmDevice) (d : FmDevice) : List FmDevice :=
  (v.filter fun e => decide (e.key.toNat < d.key.toNat)) ++ d :: v.filter fun e => decide (d.key.toNat < e.key.toNat)

/-- The lowest identifier that no entry holds. -/
def freeId (t : List (BitVec 64 × Nat)) : Nat := ((List.range (t.length + 1)).find? fun n => !t.any fun e => e.2 = n).getD 0

/-- The identifier a device has: the one the manager has assigned to it, else the one its LSA reports (R260). -/
def heldId (old : List (BitVec 64 × Nat)) (d : FmDevice) : Option Nat :=
  match old.find? fun e => e.1 = d.key with
  | some e => some e.2
  | none => if d.id < 0x4000 then some d.id else none

/-- Identifiers for a view in ascending key order, given the table so far (R260): an identifier that a device has it keeps, the lowest
key first where two have the same; the first pass then gives the devices that have none their free preferences, and the second gives
the lowest free identifiers to those that remain. -/
def assignIds (view : List FmDevice) (old : List (BitVec 64 × Nat)) : List (BitVec 64 × Nat) :=
  let kept := view.foldl (fun t d => match heldId old d with
    | some n => if t.any fun e => e.2 = n then t else t ++ [(d.key, n)]
    | none => t) []
  let first := view.foldl (fun t d =>
    if (heldId old d).isSome || decide (0x4000 ≤ d.pref) || t.any fun e => e.2 = d.pref then t else t ++ [(d.key, d.pref)]) kept
  view.foldl (fun t d => if t.any fun e => e.1 = d.key then t else t ++ [(d.key, freeId t)]) first

/-- An edge of the fabric that both ends report (R261): from, its link, to, the link there, and its time. -/
structure Edge where
  a  : BitVec 64
  la : Nat
  b  : BitVec 64
  lb : Nat
  ns : Nat
  deriving DecidableEq, Repr

/-- The frame time of a rate code (R279). -/
def frameNs (rate : Nat) : Nat := match rate with | 0 => 43 | 1 => 86 | _ => 172

/-- The edges of a view. `sw` is the switch allowance of a link of this device; other devices' allowances are not reported and
stand at their reset value (log entry 12). -/
def edgesOf (view : List FmDevice) (sw : Nat → Nat) : List Edge :=
  view.flatMap fun d => d.adjs.filterMap fun (k, l, r, fl, dl) =>
    match view.find? fun e => e.key = k with
    | none => none
    | some e =>
      if e.adjs.any fun (k', l', r', _, _) => k' = d.key && l' = r && r' = l then
        some { a := d.key, la := l, b := k, lb := r
               ns := dl + 150 + frameNs (fl / 2 % 4) + if bitAt fl 0 then (if d.key = key64 then sw l else 0x07D0) else 0 }
      else none

/-- The best way from a device entered through a die: cost, time, hops. -/
abbrev Way := Nat × Nat × Nat

/-- The better of two ways: least cost; of equal costs the larger time and hop count, which bound both (R261). -/
def betterWay (a b : Option Way) : Option Way :=
  match a, b with
  | none, y => y
  | x, none => x
  | some (c, t, h), some (c', t', h') =>
    if c < c' then some (c, t, h) else if c' < c then some (c', t', h') else some (c, max t t', max h h')

/-- The ways to a target by rounds of relaxation, from each device and ingress die. -/
def waysTo (es : List Edge) (target : BitVec 64) : Nat → BitVec 64 → Nat → Option Way
  | 0, k, _ => if k = target then some (0, 0, 0) else none
  | n + 1, k, die =>
    if k = target then some (0, 0, 0)
    else es.foldl (fun best e =>
      if e.a ≠ k then best
      else match waysTo es target n e.b (dieOfLink e.lb) with
        | none => best
        | some (c, t, h) => betterWay best (some (c + 4 + bit (decide (die ≠ dieOfLink e.la)), t + e.ns + 400, h + 1))) none

/-- The route entry from a device to a target (R259, R261): the links of up to four least-cost paths, and the largest bound and hop
count of the paths that leave by them. -/
def routeEntry (view : List FmDevice) (es : List Edge) (from_ target : BitVec 64) : BitVec 64 :=
  if from_ = target then 0
  else
    let outs := (es.filter fun e => e.a = from_).filterMap fun e =>
      (waysTo es target view.length e.b (dieOfLink e.lb)).map fun (c, t, h) => (e.la, c + 4, t + e.ns, h + 1)
    match (outs.map fun o => o.2.1).min? with
    | none => 0
    | some m =>
      let least := outs.filter fun o => o.2.1 = m
      let links := ((List.range 64).filter fun l => least.any fun o => o.1 = l).take 4
      let best := least.filter fun o => links.contains o.1
      pack [(63, 1, 1), (61, 2, links.length - 1), (55, 6, links.getD 0 0), (49, 6, links.getD 1 0), (43, 6, links.getD 2 0),
        (37, 6, links.getD 3 0), (24, 8, (best.map fun o => o.2.2.2).foldl max 0), (0, 24, (best.map fun o => o.2.2.1).foldl max 0)]

/-- The fabric manager's route entries for a device (R258). -/
def State.routesFor (s : State) (key : BitVec 64) (first n : Nat) : List (BitVec 64) :=
  let es := edgesOf s.fabric.fmView fun l => Tbl.getD s.fabric.switchNs l 0x07D0
  (List.range n).map fun j =>
    match s.fabric.fmTable.find? fun e => e.2 = first + j with
    | some e => routeEntry s.fabric.fmView es key e.1
    | none => 0

/-! ## Epochs (R259) -/

/-- A route table, identifier and epoch take effect at one instant: jobs end when the identifier changes (R260), and a larger
bound of a running job is recorded (R279). -/
def State.installRoutes (s : State) (routes : Tbl (BitVec 64)) (id epoch : Nat) : State :=
  let changed := s.fabric.id ≠ id
  let s : State := { s with fabric := { s.fabric with routes, id, epoch, collect := [], lsaDue := true } }
  let s := if changed then
      s.parcels.foldl (fun s (p, x) => match x.cut with
        | some c => if x.jobOn then s.endJob p 0x0B c.rank true else s
        | none => s) s
    else s
  s.parcels.foldl (fun s (p, x) => match x.cut with
    | some c => if (s.parcel p).jobOn && decide (x.run.b < s.boundB c) then s.raise blkZLK 0x50FF (some x.inst) c.job (s.boundB c) else s
    | none => s) s

/-- The entries that differ from zero. -/
def sparse (es : List (Nat × BitVec 64)) : Tbl (BitVec 64) := es.filter fun e => e.2 ≠ 0

/-- What routes depend on in a view. -/
def topology (v : List FmDevice) : List (BitVec 64 × List (BitVec 64 × Nat × Nat × Nat × Nat)) := v.map fun d => (d.key, d.adjs)

/-- The fabric manager brings its view, with a device whose LSA has come, its identifiers and its epoch up to date, and installs
its own routes (R257 to R261). -/
def State.fmUpdate (s : State) (new : Option FmDevice := none) : State :=
  if !s.isFm then s
  else
    let view := viewPut (match new with | some d => viewPut s.fabric.fmView d | none => s.fabric.fmView) s.ownView
    let table := assignIds view s.fabric.fmTable
    if topology view == topology s.fabric.fmView && table == s.fabric.fmTable then
      { s with fabric := { s.fabric with fmView := view } }
    else
      let epoch := (s.fabric.fmEpoch + 1) % 0xFFFF
      let s : State := { s with fabric := { s.fabric with fmView := view, fmTable := table, fmEpoch := epoch } }
      let ids := table.map (·.2)
      let own := ((table.find? fun e => e.1 = key64).map (·.2)).getD 0xFFFF
      let rs := (List.range 0x4000).filter fun d => ids.contains d
      let s := s.installRoutes (sparse (rs.map fun d => (d, (s.routesFor key64 d 1).headD 0))) own epoch
      { s with fabric := { s.fabric with fmId := own } }

/-- The candidate is chosen again; a new one restarts the heartbeat watch, and a device that becomes fabric manager begins
its view (R256). -/
def State.reElect (s : State) : State :=
  let c := s.candidate
  if c.key = s.fabric.candKey then s.fmUpdate
  else
    let s : State := { s with fabric := { s.fabric with candKey := c.key, heartbeat := s.now } }
    if c.key = key64 then
      ({ s with fabric := { s.fabric with
          fmView := [], fmTable := if s.fabric.id < 0x4000 then [(key64, s.fabric.id)] else []
          fmEpoch := if s.fabric.epoch = 0xFFFF then 0xFFFE else s.fabric.epoch } }).fmUpdate
    else { s with fabric := { s.fabric with fmView := [], fmTable := [] } }

/-- The adjacencies of a link go down (R255). -/
def State.dropAdjs (s : State) (link : Nat) : State :=
  let f := s.fabric
  if f.adjs.any fun a => a.link = link then
    ({ s with fabric := { f with adjs := f.adjs.filter fun a => a.link ≠ link, lsaDue := true } }).reElect
  else s

/-- The Zaren frames and gPTP messages that wait for a link are dropped. -/
def State.purgeFabric (s : State) (link : Nat) : State :=
  let keep (fs : List TxFrame) : List TxFrame := fs.filter fun f => match f.body with | .eth _ => true | _ => false
  let left (fs : List TxFrame) (d : Nat) : Nat := if (keep fs).isEmpty then 0 else d
  let t := s.traffic
  { s with traffic := { t with
      queues := t.queues.map fun (k, q) => (k, if k / 1024 = portOf link && q.sub = link % 4 then
        { q with frames := keep q.frames, deficit := left q.frames q.deficit } else q)
      dflt := t.dflt.map fun (k, q) => (k, if k / 8 = link then { q with frames := keep q.frames, deficit := left q.frames q.deficit } else q)
      ctrl := t.ctrl.map fun (k, q) => (k, if k = link then { q with frames := keep q.frames } else q) } }

/-! ## HELLO, LSA, ROUTES -/

/-- HELLO_SEND (R255): a HELLO on a fabric link. -/
def execHelloSend (link : Nat) (s : State) : Res :=
  .next <|
    if !s.zarenLink link || !subExists (s.port (portOf link)).split (link % 4) then s
    else
      let c := s.candidate
      s.sendOn link { s.zblank 0xA 0xFFFF with
        payload := leBytes 8 key64.toNat ++ leBytes 2 s.fabric.id ++ leBytes 1 link ++ leBytes 1 s.fabric.priority ++
          leBytes 1 c.prio ++ leBytes 1 c.dist ++ zeros 2 ++ leBytes 8 c.key.toNat ++
          leBytes 4 (Tbl.getD s.fabric.delay link 0) ++ zeros 4 }

/-- A frame of the three special destinations at ingress (R252). -/
def State.specialIngress (s : State) (link : Nat) (z : ZFrame) (typ dst : Nat) (k : State → State) : State :=
  if z.typ ≠ typ || !s.zarenLink link || decide (3 ≤ s.power.rung) then s
  else if z.malformed || z.dst ≠ dst then (s.countRx link z.wire).zDiscard 2
  else k (s.countRx link z.wire)

/-- HELLO_RECEIVE (R255): the adjacency and the candidate are brought up to date; a hello of the device itself makes the link
unusable. -/
def execHelloReceive (link : Nat) (z : ZFrame) (s : State) : Res :=
  .next <| s.specialIngress link z 0xA 0xFFFF fun s =>
    let b := z.payload
    let key := BitVec.ofNat 64 (fieldAt b 0 8)
    let x := s.fabric
    if key = key64 then
      (({ s with fabric := { x with
          unusable := link :: x.unusable, adjs := x.adjs.filter fun a => a.link ≠ link, lsaDue := true } }).raise
        blkZLK 0x50FF none link 0).reElect
    else
      let old := x.adjs.find? fun a => a.link = link && a.key = key
      if old.isNone ∧ 32 ≤ (x.adjs.filter fun a => a.link = link).length then s.raise blkZLK 0x5007 none link key.toNat
      else
        let n := match old with | some a => min 3 (a.hellos + 1) | none => 1
        let up := (match old with | some a => a.up | none => false) || decide (3 ≤ n)
        let a : Adjacency :=
          { link := link, key := key, rlink := fieldAt b 10 1, id := fieldAt b 8 2, delay := fieldAt b 24 4, hellos := n, heard := s.now, up,
            cprio := fieldAt b 12 1, ckey := BitVec.ofNat 64 (fieldAt b 16 8), cdist := fieldAt b 13 1 }
        let changed := up && !(match old with | some o => o.up | none => false)
        ({ s with fabric := { x with
            adjs := (x.adjs.filter fun (q : Adjacency) => !(q.link = link && q.key = key)) ++ [a], lsaDue := x.lsaDue || changed } }).reElect

/-- ADJACENCY_DOWN (R255): no hello for 3 ms. -/
def execAdjacencyDown (link : Nat) (key : BitVec 64) (s : State) : Res :=
  .next <|
    match s.fabric.adjs.find? fun a => a.link = link && a.key = key with
    | none => s
    | some a =>
      let s := s.reach (a.heard + 3000000)
      ({ s with fabric := { s.fabric with
          adjs := s.fabric.adjs.filter fun q => !(q.link = link && q.key = key), lsaDue := true } }).reElect

/-- The LSA of this device (R257). -/
def State.ownLsa (s : State) : ZFrame :=
  let as_ := s.ownAdjs
  { s.zblank 0xB 0xFFFD with
    payload := leBytes 8 key64.toNat ++ leBytes 2 s.fabric.id ++ leBytes 2 s.fabric.prefId ++ leBytes 2 s.fabric.epoch ++ leBytes 1 0 ++
      leBytes 1 as_.length ++ zeros 64 ++
      as_.flatMap fun (k, l, r, fl, dl) => leBytes 8 k.toNat ++ leBytes 1 l ++ leBytes 1 r ++ leBytes 1 fl ++ zeros 1 ++ leBytes 4 dl }

/-- LSA_SEND (R257): the LSA goes to the candidate, or into the view of the device that is the fabric manager; adjacencies
that do not fit are recorded. -/
def execLsaSend (s : State) : Res :=
  .next <|
    let n := ((List.range 64).map fun l => (s.fabric.upOn l).length).sum
    let s := if 240 < n then s.raise blkZLK 0x5007 none 240 n else s
    let s : State := { s with fabric := { s.fabric with lsaDue := false } }
    match s.candidate.link with
    | none => s.fmUpdate
    | some l => s.sendOn l s.ownLsa

/-- The device an LSA describes. -/
def lsaDevice (b : List Byte) (path : List Nat) : FmDevice :=
  { key := BitVec.ofNat 64 (fieldAt b 0 8), id := fieldAt b 8 2, pref := fieldAt b 10 2, epoch := fieldAt b 12 2, path
    adjs := (List.range (fieldAt b 15 1)).map fun j =>
      let o := 80 + 16 * j
      (BitVec.ofNat 64 (fieldAt b o 8), fieldAt b (o + 8) 1, fieldAt b (o + 9) 1, fieldAt b (o + 10) 1, fieldAt b (o + 12) 4) }

/-- The path of an LSA with one link more. -/
def lsaPath (b : List Byte) (link : Nat) : List Nat := (List.range (fieldAt b 14 1)).map (fun j => fieldAt b (16 + j) 1) ++ [link]

/-- LSA_RECEIVE (R257): the arrival link joins the path; the fabric manager takes the LSA, any other device forwards it. -/
def execLsaReceive (link : Nat) (z : ZFrame) (s : State) : Res :=
  .next <| s.specialIngress link z 0xB 0xFFFD fun s =>
    let b := z.payload
    if 64 ≤ fieldAt b 14 1 then s
    else
      let path := lsaPath b link
      match s.candidate.link with
      | none => s.fmUpdate (some (lsaDevice b path))
      | some l =>
        s.sendOn l { z with
          payload := b.take 14 ++ leBytes 1 path.length ++ slice b 15 1 ++
          padTo 64 (path.map (BitVec.ofNat 8)) ++ b.drop 80 }

/-- A ROUTES frame to a device along the path of its LSA (R258). -/
def State.sendRoutes (s : State) (d : FmDevice) (first n : Nat) : State :=
  match d.path.getLast? with
  | none => s
  | some l =>
    let id := ((s.fabric.fmTable.find? fun e => e.1 = d.key).map (·.2)).getD 0xFFFF
    s.sendOn l { s.zblank 0xC 0xFFFC with
      payload := leBytes 8 d.key.toNat ++ leBytes 8 key64.toNat ++ leBytes 2 id ++ leBytes 2 s.fabric.fmEpoch ++ leBytes 2 first ++
        leBytes 2 n ++ leBytes 1 (d.path.length - 1) ++ leBytes 1 d.path.length ++ zeros 6 ++
        padTo 64 (d.path.map (BitVec.ofNat 8)) ++ (s.routesFor d.key first n).flatMap fun e => leBytes 8 e.toNat }

/-- HEARTBEAT_SEND (R258): the fabric manager sends every device a ROUTES frame without entries. -/
def execHeartbeatSend (s : State) : Res :=
  .next <|
    if s.isFm then (s.fabric.fmView.filter fun d => d.key ≠ key64).foldl (fun s d => s.sendRoutes d 0 0) s else s

/-- ROUTES_RESEND (R258): a device whose LSA does not report the present epoch receives the whole table, in frames of up to 500
entries. -/
def execRoutesResend (key : BitVec 64) (s : State) : Res :=
  .next <|
    match s.fabric.fmView.find? fun d => d.key = key with
    | none => s
    | some d =>
      if !s.isFm || key = key64 || d.epoch = s.fabric.fmEpoch then s
      else (List.range 33).foldl (fun s j => s.sendRoutes d (500 * j) (min 500 (0x4000 - 500 * j))) s

/-- ROUTES_RECEIVE (R258, R259): the frame goes on along its path, or is accepted here: a heartbeat of the candidate, and
entries of an epoch, which takes effect once all 16,384 are there. -/
def execRoutesReceive (link : Nat) (z : ZFrame) (s : State) : Res :=
  .next <| s.specialIngress link z 0xC 0xFFFC fun s =>
    let b := z.payload
    let idx := fieldAt b 24 1
    if 0 < idx then
      let l := fieldAt b (32 + idx - 1) 1
      if l < 64 then s.sendOn l { z with payload := b.take 24 ++ leBytes 1 (idx - 1) ++ b.drop 25 } else s
    else if fieldAt b 0 8 ≠ key64.toNat then s
    else
      let x := s.fabric
      let beat : Bool := decide (fieldAt b 8 8 = x.candKey.toNat)
      let epoch := fieldAt b 18 2
      let n := fieldAt b 22 2
      let x := { x with heartbeat := if beat && n = 0 then s.now else x.heartbeat, fmId := z.src }
      let first := fieldAt b 20 2
      if n = 0 ∨ epoch = x.epoch then { s with fabric := x }
      else
        let fresh : Tbl (BitVec 64) := if epoch = x.collEpoch then x.collect else []
        let got := (List.range n).foldl (fun (t : Tbl (BitVec 64)) j =>
          if first + j < 0x4000 then t.put (first + j) (BitVec.ofNat 64 (fieldAt b (96 + 8 * j) 8)) else t) fresh
        let x := { x with collect := got, collEpoch := epoch, collId := fieldAt b 16 2 }
        let s : State := { s with fabric := x }
        if got.length = 0x4000 then s.installRoutes (sparse got) x.collId epoch else s

/-- HEARTBEAT_LOSS (R256): no heartbeat from the candidate for 50 ms excludes its key for 100 ms. -/
def execHeartbeatLoss (s : State) : Res :=
  .next <|
    if s.isFm then s
    else
      let s := s.reach (s.fabric.heartbeat + 50000000)
      ({ s with fabric := { s.fabric with
          excluded := s.fabric.excluded ++ [(s.fabric.candKey, s.now + 100000000)] } }).reElect

/-- CANDIDATE_EXCLUSION_END (R256). -/
def execCandidateExclusionEnd (key : BitVec 64) (s : State) : Res :=
  .next <|
    match s.fabric.excluded.find? fun e => e.1 = key with
    | none => s
    | some e =>
      let s := s.reach e.2
      ({ s with fabric := { s.fabric with excluded := s.fabric.excluded.filter fun q => q.1 ≠ key } }).reElect

/-! ## Transfers between devices (R267 to R270) -/

/-- The status of a refused access in a FAIL frame (R269); none when a facet discards it silently (R73). -/
def failStatus : AccErr → Option Nat
  | .trans 7 => some 0x0002
  | .trans _ => some 0x0020
  | .uncorr => some 0x0021
  | .lost => none

/-- A frame that ends a transfer of a peer: DONE or FAIL, with the header of the transfer (R251, R268). -/
def State.endPeer (s : State) (z : ZFrame) (typ : Nat) (payload : List Byte) : State :=
  s.sendFlow { s.zblank typ z.src with tag := z.tag, job := z.job, inst := z.inst, sfx := z.sfx, sfy := z.sfy, payload }

/-- FAIL with a status (R269). -/
def State.failPeer (s : State) (z : ZFrame) (status : Nat) : State := s.endPeer z 6 (leBytes 2 status ++ zeros 14)

/-- The event of a translation that a peer's access is refused (R33). -/
def State.peerEvent (s : State) (z : ZFrame) (e : AccErr) : State :=
  match e with | .trans _ => s.addressEvent blkZLK z.inst z.addr z.src | _ => s

/-- Names a transfer of a peer. -/
def PeerIn.is (t : PeerIn) (z : ZFrame) : Bool := t.src = z.src && t.tag = z.tag && t.sfx = z.sfx && t.sfy = z.sfy

/-- Notes a frame of a transfer that arrives: its first refusal, and its last frame with the signal. -/
def State.notePeer (s : State) (z : ZFrame) (err : Option Nat) (last : Bool) (lost : Bool := false) : State :=
  let x := s.fabric
  let t : PeerIn := match x.peersIn.find? fun t => t.is z with
    | some t => t
    | none => { src := z.src, tag := z.tag, sfx := z.sfx, sfy := z.sfy, job := z.job, inst := z.inst, signal := none, err := none,
                last := false, lost := false }
  let t := { t with
    err := if t.err.isSome then t.err else err, last := t.last || last, lost := t.lost || lost
    signal := if z.sig then some (z.rsx, z.rsy, z.tokc, z.tokn) else t.signal }
  { s with fabric := { x with peersIn := (x.peersIn.filter fun q => !q.is z) ++ [t] } }

/-- The facets in a list of device ranges that discard an access of an instance and generation (R73). -/
def State.refusing (s : State) (i : Nat) (g : BitVec 16) (rs : List (Nat × Nat)) : List Nat :=
  rs.filterMap fun r => match regionOf r.1 with
    | .spad f _ => if (s.facet f).accepts i g then none else some f
    | _ => none

/-- ZAREN_WRITE_RECEIVE (R268, R269): the frame is written through the instance map. -/
def execZarenWriteReceive (link : Nat) (z : ZFrame) (s : State) : Res :=
  .next <| s.jobIngress link z 1 fun s b =>
    match s.rangesOf z.inst z.addr z.payload.length true with
    | .error e => (s.peerEvent z (.trans e)).notePeer z (failStatus (.trans e)) z.last
    | .ok rs =>
      match s.saveAll (some (z.inst, b.gen)) rs z.payload with
      | .ok s' => (s'.charge z.inst 2 (hbmBytes rs)).notePeer z none z.last (!(s.refusing z.inst b.gen rs).isEmpty)
      | .error e =>
        let s := match e with | .uncorr => s.saveSome (some (z.inst, b.gen)) clsNet rs z.payload | _ => s
        s.notePeer z (failStatus e) z.last

/-- DATA frames that answer a READ, in ascending order (R268). -/
def State.dataFrames (s : State) (z : ZFrame) : Nat → Nat → List Byte → State
  | 0, _, _ => s
  | n + 1, off, bs =>
    if bs.isEmpty then s
    else
      State.dataFrames (s.sendFlow { s.zblank 3 z.src with
        tag := z.tag, job := z.job, inst := z.inst, sfx := z.sfx, sfy := z.sfy, addr := off
        last := decide (bs.length ≤ 4096), payload := bs.take 4096 }) z n (off + 4096) (bs.drop 4096)

/-- ZAREN_READ_RECEIVE (R268, R269): the READ is answered with DATA frames, or with FAIL. -/
def execZarenReadReceive (link : Nat) (z : ZFrame) (s : State) : Res :=
  .next <| s.jobIngress link z 2 fun s b =>
    let off := fieldAt z.payload 0 4
    let n := fieldAt z.payload 4 4
    match s.rangesOf z.inst z.addr n false with
      | .error e => (s.peerEvent z (.trans e)).failPeer z 0x0020
      | .ok rs =>
        match s.loadAll (some (z.inst, b.gen)) rs with
        | .ok bs => ((rs.foldl (fun s r => s.met r.1 r.2) s).charge z.inst 1 (hbmBytes rs)).dataFrames z (n / 4096 + 1) off bs
        | .error e =>
          let s : State := match e with | .uncorr => rs.foldl (fun s r => s.metBad clsNet r.1 r.2) s | _ => s
          match failStatus e with
          | some st => s.failPeer z st
          | none => (s.refusing z.inst b.gen rs).foldl (fun s f => s.facetDiscard f) s

/-- The requesting facet of an answer. -/
def askingFacet (z : ZFrame) : Nat := facetAt z.sfx z.sfy

/-- ZAREN_DATA_RECEIVE (R268): the data pass to the requesting facet as DATA flits. -/
def execZarenDataReceive (link : Nat) (z : ZFrame) (s : State) : Res :=
  .next <| s.jobIngress link z 3 fun s b =>
    let ps := (List.range ((z.payload.length + 127) / 128)).map fun j => (j, slice z.payload (128 * j) 128)
    ps.foldl (fun s (j, bs) => s.dieSend (8 + dieOfLink link) { fromDie (8 + dieOfLink link) (askingFacet z) z.inst b.gen 2 with
      tag := z.tag, units := unitsOf bs.length, addr := spadAddr (askingFacet z) (z.addr + 128 * j), payload := bs
      last := z.last && j + 1 = ps.length }) s

/-- ZAREN_TOKEN_RECEIVE (R268): a signal without data. -/
def execZarenTokenReceive (link : Nat) (z : ZFrame) (s : State) : Res :=
  .next <| s.jobIngress link z 4 fun s _ => s.notePeer z none true

/-- ZAREN_DONE_RECEIVE (R268): DONE becomes an ACK flit. -/
def execZarenDoneReceive (link : Nat) (z : ZFrame) (s : State) : Res :=
  .next <| s.jobIngress link z 5 fun s b =>
    s.dieSend (8 + dieOfLink link) { fromDie (8 + dieOfLink link) (askingFacet z) z.inst b.gen 4 with tag := z.tag, last := true }

/-- ZAREN_FAIL_RECEIVE (R269): FAIL becomes a NACK flit with its status. -/
def execZarenFailReceive (link : Nat) (z : ZFrame) (s : State) : Res :=
  .next <| s.jobIngress link z 6 fun s b => s.nackFacet link (askingFacet z) z.tag z.inst b.gen (fieldAt z.payload 0 2)

/-- PEER_TRANSFER_DONE (R268, R269): every write of the transfer is acknowledged; the signal is applied in the bound parcel,
then DONE goes to the source, or FAIL with the first refusal. A flit that a facet discards is never acknowledged (R73). -/
def execPeerTransferDone (src tag : Nat) (s : State) : Res :=
  .next <|
    match s.fabric.peersIn.find? fun t => t.src = src && t.tag = tag && t.last && !t.lost with
    | none => s
    | some t =>
      let z := { s.zblank 5 src with
        src, tag, sfx := t.sfx, sfy := t.sfy, job := t.job, inst := t.inst }
      let s : State := { s with fabric := { s.fabric with peersIn := s.fabric.peersIn.filter fun q => !q.is z } }
      match s.fabric.bindings.find? fun b => b.inst = t.inst && b.job = t.job with
      | none => s
      | some b =>
        match t.err, t.signal with
        | some e, _ => s.failPeer z e
        | none, none => s.endPeer z 5 []
        | none, some (rx, ry, c, n) =>
          let x := s.parcel b.parcel
          if 4 * x.gw ≤ rx ∨ 4 * x.gh ≤ ry then s.failPeer z 0x0024
          else
            let f := x.facetOf rx ry
            if (s.facet f).accepts t.inst b.gen then (s.addTok f c n).endPeer z 5 [] else s.facetDiscard f

/-! ## Flows' frames and timers (R264 to R266) -/

/-- PACK_RECEIVE (R265): the acknowledgement it carries is taken at ingress. -/
def execPackReceive (link : Nat) (z : ZFrame) (s : State) : Res :=
  .next <| if z.typ ≠ 7 then s else (s.zIngress link z).1

/-- RESYNC_RECEIVE (R266): a request restarts the flow here, ends the transfers and jobs towards the peer, and is answered; a
reply restarts a failed flow. -/
def execResyncReceive (link : Nat) (z : ZFrame) (s : State) : Res :=
  .next <|
    if z.typ ≠ 0xE then s
    else
      let (s, ok) := s.zIngress link z
      let cls := fieldAt z.payload 0 1
      let kind := fieldAt z.payload 1 1
      if !ok then s
      else if kind = 0 then ((((s.failTransfers z.src).failJobs z.src).restartFlow z.src cls true)).sendResync z.src cls 1
      else if (s.flow (flowKey z.src cls)).failed then s.restartFlow z.src cls false
      else s

/-- ZAREN_FORWARD (R262): a frame for another device goes on along its route, or is discarded; one that leaves on a port of another
network-girdle die crosses the table. -/
def execZarenForward (link : Nat) (z : ZFrame) (s : State) : Res :=
  .next <|
    if !s.zarenLink link || decide (3 ≤ s.power.rung) then s
    else if z.malformed then (s.countRx link z.wire).zDiscard 2
    else if z.dst = s.fabric.id ∨ 0x4000 ≤ z.dst then s
    else
      let s := s.countRx link z.wire
      let s := if z.typ ≤ 9 ∨ z.typ = 0xD then s.wakeDeep else s
      let y := { z with hops := z.hops - 1 }
      match s.wayTo z.src z.dst with
      | none => s.zDiscard 1
      | some l =>
        if z.hops ≤ 1 then s.zDiscard 1
        else if dieOfLink l = dieOfLink link then s.egressDrop l z.pcp none z.ctl (.zaren y) z.wire
        else s.crossOut (8 + dieOfLink link) (8 + dieOfLink l) y

/-- ZLK_RTO_EXPIRE (R265, R266): frames not acknowledged within ZLK_RTO of their latest transmission are sent again; after the
eighth transmission of one the flow fails. -/
def execZlkRtoExpire (dev cls : Nat) (s : State) : Res :=
  .next <|
    let f := s.flow (flowKey dev cls)
    match f.unacked.find? fun u => !s.zQueued u.frame with
    | none => s
    | some u =>
      let s := s.reach (u.sent + 1000 * s.fabric.rto)
      if 8 ≤ u.count then s.failFlow dev cls
      else s.resend (flowKey dev cls) fun v => decide (v.sent + 1000 * s.fabric.rto ≤ s.now)

/-- ZAREN_ACK_TIMER (R264): an unacknowledged arrival is acknowledged within 2 µs. -/
def execZarenAckTimer (dev cls : Nat) (s : State) : Res :=
  .next <|
    match (s.flow (flowKey dev cls)).rxSince with
    | none => s
    | some t => (s.reach (t + 2000)).sendPack dev cls

/-- RESYNC_SEND (R266): a failed flow asks again every ZLK_RTO. -/
def execResyncSend (dev cls : Nat) (s : State) : Res :=
  .next <|
    let f := s.flow (flowKey dev cls)
    if f.failed then (s.reach (f.resync + 1000 * s.fabric.rto)).sendResync dev cls 0 else s

/-! ## gPTP (R271, R272) -/

/-- The device loses lock (R145, R272): every timed job here pauses with cause TIME_LOST. -/
def State.loseLock (s : State) : State :=
  let locked := s.fabric.lock ≠ 0
  let s : State := { s with fabric := { s.fabric with lock := 0, goodSync := 0 } }
  if locked then
    s.parcels.foldl (fun s (p, x) => match x.cut with
      | some c => s.pauseLost p c
      | none => s) s.timeMark
  else s

/-- The device's clock identity: KEY64 in its byte order (R249, log entry 68). -/
def clockId : BitVec 64 := BitVec.ofNat 64 (beNat (deviceKey.take 8))

/-- Lexicographic order. -/
def lexLt : List Nat → List Nat → Bool
  | a :: s, b :: t => decide (a < b) || (a = b && lexLt s t)
  | [], _ :: _ => true
  | _, [] => false

/-- The priority vector of an announce in the order of the best master clock algorithm (R271). -/
def annRank (a : Announce) : List Nat :=
  [a.prio1, a.cls, a.acc, a.var, a.prio2, a.gm.toNat, a.steps, a.src.toNat, a.port]

/-- The device's own vector: priority1 of ZLK_LOCK.PRIO1 and clockClass 248 (R271); the rest as IEEE 802.1AS has it for a clock of
unknown quality (log entry 68). -/
def State.ownAnnounce (s : State) : Announce :=
  { prio1 := s.fabric.prio1, cls := 248, acc := 0xFE, var := 0x436A, prio2 := 248, gm := clockId, steps := 0, src := clockId, port := 0
    path := [] }

/-- An announce that takes part in the choice: not the device's own, nor one that has come through it. -/
def annFits (a : Announce) : Bool :=
  a.src ≠ clockId && a.gm ≠ clockId && decide (a.steps < 255) && !a.path.contains clockId

/-- The best master of the device and the link it is heard on; none when the device is the grandmaster (R271). -/
def State.master (s : State) : Announce × Option Nat :=
  s.fabric.announces.foldl (fun b e =>
    if lexLt ((annRank e.2) ++ [e.1]) ((annRank b.1) ++ [b.2.getD 64]) then (e.2, some e.1) else b) (s.ownAnnounce, none)

/-- What the device announces on a link: the present grandmaster, one step further. -/
def State.announceOn (s : State) (link : Nat) : Announce :=
  let m := s.master
  { m.1 with steps := m.1.steps + bit m.2.isSome, src := clockId, port := link + 1, path := m.1.path ++ [clockId] }

/-- The link's port is a master port: not the slave port, and nothing better is heard there (R271). -/
def State.masterPort (s : State) (link : Nat) : Bool :=
  s.master.2 ≠ some link && match s.fabric.announces.find link with
    | some a => lexLt (annRank (s.announceOn link)) (annRank a)
    | none => true

/-- The announces have changed from those under which `was` was the master: a new master starts the synchronisation anew; a device that
becomes grandmaster counts its 1 s from here, and one that was grandmaster and is no more loses lock (R271, R272). -/
def State.reMaster (s : State) (was : Announce × Option Nat) : State :=
  let m := s.master
  if m.1.gm = was.1.gm ∧ m.2 = was.2 then s
  else
    let s := if s.fabric.lock = 2 ∧ m.2.isSome then s.loseLock else s
    { s with fabric := { s.fabric with
        goodSync := if m.1.gm = was.1.gm then s.fabric.goodSync else 0, synced := false
        masterAt := if m.2.isSome then none else some s.now } }

/-- The announce of a link is no longer in force: its port is down, or its messages have stopped. -/
def State.dropAnnounce (s : State) (link : Nat) : State :=
  let was := s.master
  if s.fabric.announces.has link then
    ({ s with fabric := { s.fabric with announces := Tbl.del s.fabric.announces link } }).reMaster was
  else s

/-- The PTP message of a gPTP frame (IEEE 802.1AS; log entry 68): type, flags, control, log interval, sequence number and body, behind
the common header with domain 0 and the link's port identity. -/
def ptpMessage (link typ flags ctl log seq : Nat) (body : List Byte) : List Byte :=
  beBytes 1 (0x10 + typ) ++ [0x12] ++ beBytes 2 (34 + body.length) ++ [0, 0] ++ beBytes 2 flags ++ zeros 12 ++ beBytes 8 clockId.toNat ++
  beBytes 2 (link + 1) ++ beBytes 2 seq ++ beBytes 1 ctl ++ beBytes 1 log ++ body

/-- A PTP timestamp: seconds and nanoseconds. -/
def ptpTime (ns : Nat) : List Byte := beBytes 6 (ns / 10 ^ 9) ++ beBytes 4 (ns % 10 ^ 9)

/-- The Follow_Up information TLV, with no rate offset and no phase change. -/
def followTlv : List Byte := [0, 3, 0, 28, 0, 0x80, 0xC2, 0, 0, 1] ++ zeros 22

/-- The message that leaves on a link (R271): two-step synchronisation at the log interval -5, peer delay, and announces. -/
def State.gptpBody (s : State) (link : Nat) (m : GptpOut) : List Byte :=
  match m with
  | .sync n => ptpMessage link 0 0x0208 0 0xFB n (zeros 10)
  | .followUp n => ptpMessage link 8 0x0008 2 0xFB n (ptpTime (Tbl.getD s.fabric.syncAt link 0) ++ followTlv)
  | .announce n a => ptpMessage link 0xB 0x0008 5 0 n (zeros 13 ++ beBytes 1 a.prio1 ++ beBytes 1 a.cls ++ beBytes 1 a.acc ++
      beBytes 2 a.var ++ beBytes 1 a.prio2 ++ beBytes 8 a.gm.toNat ++ beBytes 2 a.steps ++ [0xA0, 0, 8] ++ beBytes 2 (8 * a.path.length) ++
      a.path.flatMap fun k => beBytes 8 k.toNat)
  | .pdelayReq n => ptpMessage link 2 0x0008 5 0 n (zeros 20)
  | .pdelayResp n src port t => ptpMessage link 3 0x0208 5 0x7F n (ptpTime t ++ beBytes 8 src.toNat ++ beBytes 2 port)
  | .pdelayFollow n src port =>
    ptpMessage link 0xA 0x0008 5 0x7F n (ptpTime (Tbl.getD s.fabric.respAt link 0) ++ beBytes 8 src.toNat ++ beBytes 2 port)

/-- The frame of a gPTP message, untagged, to the group address of IEEE 802.1AS (R253). -/
def State.gptpFrame (s : State) (link : Nat) (m : GptpOut) : List Byte :=
  padTo 60 ([0x01, 0x80, 0xC2, 0, 0, 0x0E] ++ linkMac link ++ [0x88, 0xF7] ++ s.gptpBody link m)

/-- A gPTP frame begins on a link: the times of a Sync and of a peer-delay response are taken for the message that follows. -/
def State.emitGptp (s : State) (link : Nat) (m : GptpOut) : State :=
  let x := s.fabric
  let s := s.emit (.eth link (s.gptpFrame link m))
  match m with
  | .sync _ => { s with fabric := { x with syncAt := x.syncAt.put link s.gptp } }
  | .pdelayResp .. => { s with fabric := { x with respAt := x.respAt.put link s.now } }
  | _ => s

/-- A gPTP message waits in the control queue of a link (R253, R305). -/
def State.queueGptp (s : State) (link : Nat) (m : GptpOut) : State :=
  s.egressDrop link 6 none true (.gptp m) ((s.gptpFrame link m).length + 4)

/-- The next sequence number of a kind of message on a link: 0 synchronisation, 1 announce, 2 peer-delay request. -/
def State.nextGptp (s : State) (link kind : Nat) : Nat × State :=
  let n := Tbl.getD s.fabric.gptpSeq (4 * link + kind) 0
  (n, { s with fabric := { s.fabric with gptpSeq := s.fabric.gptpSeq.put (4 * link + kind) ((n + 1) % 65536) } })

/-- The frame lengths, with FCS, in which a message has come. -/
def msgFrames : GptpMsg → List Nat
  | .sync _ => [64, 94]
  | .pdelayReq .. => [72]
  | .pdelay _ => [72, 72]
  | .announce a => [86 + 8 * a.path.length]

/-- A synchronisation on the slave port corrects the clock by its offset and counts towards lock (R272). -/
def State.takeSync (s : State) (o : Int) : State :=
  let x := s.fabric
  let good := if o.natAbs ≤ 100 then min 8 (x.goodSync + 1) else 0
  let s : State := { s with fabric := { x with
      lastOff := o, offset := x.offset - o, lastSync := s.now, goodSync := good, synced := true
      lock := if good = 8 ∧ x.lock = 0 then 1 else x.lock } }
  if 1000 < o.natAbs then s.loseLock else if s.fabric.lock ≠ x.lock then s.timeMark else s

/-- An announce is heard on a link: it takes the place of a worse one, or of the same sender's, and the best master is chosen again
(R271). -/
def State.takeAnnounce (s : State) (link : Nat) (a : Announce) : State :=
  let was := s.master
  let old := s.fabric.announces.find link
  let takes : Bool := annFits a && match old with
    | some b => (a.src = b.src && a.port = b.port) || lexLt (annRank a) (annRank b)
    | none => true
  if takes then ({ s with fabric := { s.fabric with announces := s.fabric.announces.put link a } }).reMaster was else s

/-- GPTP_MESSAGE_RECEIVE (R271, R272): a synchronisation on the slave port, an announce, a peer-delay exchange that measures the link, or
a peer-delay request, which is answered. -/
def execGptpMessageReceive (link : Nat) (m : GptpMsg) (s : State) : Res :=
  .next <|
    if 64 ≤ link ∨ !s.fabricLink link ∨ (s.link link).state ≠ .up then s
    else
      let s := (msgFrames m).foldl (fun s n => s.countRx link n) s
      match m with
      | .sync o => if s.master.2 = some link then s.takeSync o else s
      | .pdelay ns => { s with fabric := { s.fabric with delay := s.fabric.delay.put link ns } }
      | .pdelayReq n src port => (s.queueGptp link (.pdelayResp n src port s.now)).queueGptp link (.pdelayFollow n src port)
      | .announce a => s.takeAnnounce link a

/-- GPTP_LOCK_LOSS (R272): lock is lost by an offset above 1,000 ns, or by three missed synchronisations, with which the slave port's
announce is no longer in force. -/
def execGptpLockLoss (offset : Int) (s : State) : Res :=
  .next <|
    match s.master.2 with
    | none => s
    | some l =>
      let s : State := { s with fabric := { s.fabric with lastOff := offset } }
      let s := if s.fabric.lock = 1 then s.loseLock else s
      if 1000 < offset.natAbs then s else s.dropAnnounce l

/-- GRANDMASTER_LOCK (R272): a device that has been grandmaster for 1 s is locked. -/
def execGrandmasterLock (s : State) : Res :=
  .next <|
    match s.fabric.masterAt with
    | some t =>
      let s := s.reach (t + 1000000000)
      let fresh := s.fabric.lock = 0
      let s : State := { s with fabric := { s.fabric with lock := 2, lastOff := 0 } }
      if fresh then s.timeMark else s
    | none => s

/-- GPTP_SYNC_SEND (R271): the gPTP messages of a fabric link: a peer-delay request on every port; on a master port an announce, and
the synchronisation with its follow-up while the device is the grandmaster or is synchronised by it. -/
def execGptpSyncSend (link : Nat) (s : State) : Res :=
  .next <|
    if 64 ≤ link ∨ !s.fabricLink link ∨ (s.link link).state ≠ .up then s
    else
      let (n, s) := s.nextGptp link 2
      let s := s.queueGptp link (.pdelayReq n)
      if !s.masterPort link then s
      else
        let (n, s) := s.nextGptp link 1
        let s := s.queueGptp link (.announce n (s.announceOn link))
        if s.master.2.isSome && !s.fabric.synced then s
        else
          let (n, s) := s.nextGptp link 0
          (s.queueGptp link (.sync n)).queueGptp link (.followUp n)

/-- PREEMPTION_VERIFIED (R273): preemption is allowed on the link. -/
def execPreemptionVerified (link : Nat) (s : State) : Res :=
  .next <|
    if 64 ≤ link ∨ (s.link link).state ≠ .up ∨ s.fabric.preempt.contains link then s
    else { s with fabric := { s.fabric with preempt := link :: s.fabric.preempt } }

/-! ## Gates (R273 to R276, R281) -/

/-- The list in force on a port; none when every class is open. -/
def PortGates.inForce (g : PortGates) : List GateEntry := if g.cutOn then g.cut else if g.adminOn then g.admin else []

/-- GATE_ENTRY_ADVANCE (R273): the next entry of the list in force takes effect. -/
def execGateEntryAdvance (port : Nat) (s : State) : Res :=
  .next <|
    let g := s.gatesOf port
    let l := g.inForce
    match l[g.idx]? with
    | none => s
    | some e => (s.reachGptp (g.since + e.dur)).modGates port fun g => { g with idx := (g.idx + 1) % l.length, since := g.since + e.dur }

/-- ADMIN_GATE_START (R276): the administrative list that waits takes effect; one entry with every class open restores the port
to open (R281). -/
def execAdminGateStart (port : Nat) (s : State) : Res :=
  .next <|
    let g := s.gatesOf port
    match g.adminAt with
    | none => s
    | some t =>
      let open_ : Bool := match g.next with | [e] => e.mask = 0xFF | _ => false
      (s.reachGptp t).modGates port fun g =>
        { g with admin := if open_ then [] else g.next, next := [], adminAt := none, adminOn := !open_, idx := 0, since := t }

/-- FAB_GATE_SET after its parameter checks (R276, R281). -/
def fabGateSetRun (s : State) (_ : Waiter) (_ : Nat) (ps : List Byte) : Act :=
  let port := fieldAt ps 0 1
  let n := fieldAt ps 2 2
  let es := gateEntries (ps.drop 16)
  if s.fabric.lock = 0 ∧ 1 < n then fails s 0x5001
  else if (s.gatesOf port).gated then fails s 0x5002
  else if (!s.fabric.edge.contains port && es.any fun e => !e.mask.getLsbD 6) || es.any fun e => decide (e.dur < 200) then fails s 0x5003
  else
    let cyc := max 1 (es.map (·.dur)).sum
    let base := fieldAt ps 8 8
    let least := s.gptp + 10000
    let at_ := if least ≤ base then base else base + (least - base + cyc - 1) / cyc * cyc
    okay (s.modGates port fun g => { g with next := es, adminAt := some at_ })

/-- FAB_GATE_SET. -/
def fabGateSetSpec : Spec :=
  { opcode := 0x5001, permits := managerOnly
    plen := fun ps => let n := fieldAt ps 2 2; if ps.length = 16 + 8 * n then none else some (16 + 8 * n)
    fields := fun _ ps => [below ps 0 1 16, rsv ps 1 1, within ps 2 2 1 126, rsv ps 4 4] ++
      (List.range (fieldAt ps 2 2)).map fun j => rsv ps (21 + 8 * j) 3
    run := fabGateSetRun }

/-- FAB_GATE_SET (R281): sets a port's administrative gate list. -/
def execFabGateSet (c : Cmd) (s : State) : Res := .next (s.command fabGateSetSpec c)

/-- FAB_JOB_GET. -/
def fabJobGetSpec : Spec :=
  { opcode := 0x5002, permits := ownAt 0, plen := fixed 8
    fields := fun _ ps => [below ps 0 1 64, rsv ps 1 3]
    run := fun s _ _ ps =>
      match s.fabric.bindings.find? fun b => b.inst = fieldAt ps 0 1 && b.job = fieldAt ps 4 4 with
      | none => fails s 0x5004
      | some b =>
        let r := (s.parcel b.parcel).run
        gives s (leBytes 2 b.rank ++ leBytes 2 b.ranktab.length ++ leBytes 4 r.b ++ leBytes 4 r.goB ++ zeros 4) }

/-- FAB_JOB_GET (R279): reports a job binding and its bounds. -/
def execFabJobGet (c : Cmd) (s : State) : Res := .next (s.command fabJobGetSpec c)

/-- FAB_NEIGH_GET. -/
def fabNeighGetSpec : Spec :=
  { opcode := 0x5003, permits := managerOnly, plen := fixed 8
    fields := fun _ ps => [below ps 0 1 64, rsv ps 1 7]
    run := fun s _ _ ps =>
      let as_ := s.fabric.upOn (fieldAt ps 0 1)
      gives s (leBytes 1 as_.length ++ zeros 7 ++
        as_.flatMap fun a => leBytes 8 a.key.toNat ++ leBytes 2 a.id ++ leBytes 1 a.rlink ++ zeros 1 ++ leBytes 4 a.delay) }

/-- FAB_NEIGH_GET (R255): lists a link's adjacencies. -/
def execFabNeighGet (c : Cmd) (s : State) : Res := .next (s.command fabNeighGetSpec c)

end Sys2Proof.Machine
end

