-- ==== Sys2Proof/Machine/Traffic.lean ====
section
/-! DEFINITION. Scheduling, metering and shaping (spec/12): the transmitter of a link, shapers, meters and the traffic
commands. -/

namespace Sys2Proof.Machine

/-! ## Meters (R316 to R319) -/

/-- The colours of R318. -/
inductive Colour where
  | green | yellow | red
  deriving DecidableEq, Repr

/-- The number of a colour, in the order of ACT and of TMS_MCNT. -/
def Colour.code : Colour → Nat
  | .green => 0 | .yellow => 1 | .red => 2

/-- A meter's buckets at an instant, before a frame (R317). -/
def Meter.fill (m : Meter) (now : Nat) : Meter :=
  let dt := now - m.last
  let capC := 8000 * m.cbs
  let capE := 8000 * m.ebs
  if m.trtcm then { m with c := min capC (m.c + m.cir * dt), e := min capE (m.e + m.pir * dt), last := now }
  else
    let c := m.c + m.cir * dt
    { m with c := min capC c, e := min capE (m.e + (c - capC)), last := now }

/-- The colour of a frame of `h` bytes, and the meter after it (R318). -/
def Meter.mark (m : Meter) (h : Nat) (pre : Colour) : Meter × Colour :=
  let cost := 8000 * h
  let pre := if m.aware then pre else .green
  if m.trtcm then
    if pre = .red ∨ m.e < cost then (m, .red)
    else if pre = .yellow ∨ m.c < cost then ({ m with e := m.e - cost }, .yellow)
    else ({ m with c := m.c - cost, e := m.e - cost }, .green)
  else if pre = .green ∧ cost ≤ m.c then ({ m with c := m.c - cost }, .green)
  else if pre ≠ .red ∧ cost ≤ m.e then ({ m with e := m.e - cost }, .yellow)
  else (m, .red)

/-- A meter acts on a frame (R317 to R319): its colour, and its action: 0 pass, 1 pass and mark, 2 drop. A meter that is not
valid does nothing (R316). -/
def State.meterFrame (s : State) (n h : Nat) (earlier : Colour) (dei : Bool) : State × Colour × Nat :=
  match s.traffic.meters.find n with
  | none => (s, earlier, 0)
  | some m =>
    let pre := if m.colsrc then (if dei then .yellow else .green) else earlier
    let (m, col) := (m.fill s.now).mark h pre
    let k := 2 * col.code
    let m := { m with counts := (m.counts.bump k).bump (k + 1) h }
    ({ s with traffic := { s.traffic with meters := s.traffic.meters.put n m } }, col, bitsOf m.act (2 * col.code + 1) (2 * col.code))

/-! ## Gates seen by a class (R273, R274) -/

/-- The entries of a list from an index on, once round. -/
def rotate {α : Type} (l : List α) (i : Nat) : List α := l.drop i ++ l.take i

/-- Nanoseconds of consecutive open entries at the front of a list. -/
def openSpan (c : Nat) : List GateEntry → Nat
  | [] => 0
  | e :: t => if e.mask.getLsbD c then e.dur + openSpan c t else 0

/-- The time until the class's gate closes: none when it never does, 0 when it is closed (R273). -/
def State.gateLeft (s : State) (port c : Nat) : Option Nat :=
  let g := s.gatesOf port
  let l := g.inForce
  if l.isEmpty || l.all fun e => e.mask.getLsbD c then none
  else
    let span := openSpan c (rotate l g.idx)
    some (g.since + span - max g.since (min s.gptp (g.since + span)))

/-- The longest opening of a class in the list in force; none when the gate never closes (R274). -/
def State.longestOpening (s : State) (port c : Nat) : Option Nat :=
  let l := (s.gatesOf port).inForce
  if l.isEmpty || l.all fun e => e.mask.getLsbD c then none
  else some (((List.range l.length).map fun i => openSpan c (rotate l i)).foldl max 0)

/-- Nanoseconds a frame of `n` bytes takes on a link, with preamble and gap. -/
def State.wireNs (s : State) (link n : Nat) : Nat := ((n + 20) * 8 + s.linkGbps link - 1) / s.linkGbps link

/-- The class is preemptable on the link (R273). -/
def State.preemptable (s : State) (link c : Nat) : Bool := decide (c < 6) && s.fabric.preempt.contains link

/-- A frame of `n` bytes may begin now (R274). -/
def State.mayBegin (s : State) (link c n : Nat) : Bool :=
  match s.gateLeft (portOf link) c with
  | none => true
  | some t => decide (s.wireNs link (if s.preemptable link c then min 64 n else n) ≤ t)

/-- No opening of its class is long enough for the frame (R274). -/
def State.neverFits (s : State) (link c n : Nat) : Bool :=
  !s.preemptable link c && match s.longestOpening (portOf link) c with
    | none => false
    | some t => decide (t < s.wireNs link n)

/-! ## Queues of a link and class (R305, R310, R311) -/

/-- A queue as the scheduler sees it: its number (1,024 for the default queue), frames, deficit, quantum, tier, shaper. -/
structure SchedQ where
  num     : Nat
  frames  : List TxFrame
  deficit : Nat
  quantum : Nat
  lower   : Bool
  shaper  : Option Nat
  deriving DecidableEq, Repr

/-- The quantum of an egress queue in bytes, and whether it lies in the lower tier (R311). -/
def State.quantumOf (s : State) (q : EgressQueue) : Nat × Bool :=
  if q.quantum = 0 then
    match q.inst with
    | some i => let w := (s.inst i).shares.portWeight; (64 * max w 1, w = 0)
    | none => (64, true)
  else (64 * q.quantum, false)

/-- What a queue's visit goes by: fixed for the visit that goes on, and the present settings for the next (R311, R322). -/
def State.visitOf (s : State) (q : EgressQueue) : Visit :=
  let (quantum, lower) := s.quantumOf q
  q.visit.getD { quantum, lower, shaper := q.shaper, limit := q.limit, zero := false }

/-- The queues of a link and class that hold frames, by rising number. -/
def State.activeQueues (s : State) (link c : Nat) : List SchedQ :=
  let named := s.traffic.queues.filterMap fun (k, q) =>
    if k / 1024 = portOf link && q.enable && q.sub = link % 4 && q.cls = c && !q.frames.isEmpty then
      let v := s.visitOf q
      some { num := k % 1024, frames := q.frames, deficit := q.deficit, quantum := v.quantum, lower := v.lower, shaper := v.shaper }
    else none
  let d := s.traffic.dflt.getD (8 * link + c) LinkQueue.initial
  if d.frames.isEmpty then named
  else named ++ [{ num := 1024, frames := d.frames, deficit := d.deficit, quantum := 1536, lower := false, shaper := none }]

/-- Writes back the frames and deficit of a queue. -/
def State.putSched (s : State) (link c num : Nat) (frames : List TxFrame) (deficit : Nat) : State :=
  let t := s.traffic
  if num = 1024 then
    let q := t.dflt.getD (8 * link + c) LinkQueue.initial
    { s with traffic := { t with dflt := t.dflt.put (8 * link + c) { q with frames, deficit } } }
  else
    let k := 1024 * portOf link + num
    let q := t.queues.getD k EgressQueue.initial
    { s with traffic := { t with queues := t.queues.put k { q with frames, deficit } } }

/-- Counts a drop at a queue (R308). -/
def State.queueDrop (s : State) (link c num : Nat) : State :=
  let t := s.traffic
  if num = 1024 then
    let q := t.dflt.getD (8 * link + c) LinkQueue.initial
    { s with traffic := { t with dflt := t.dflt.put (8 * link + c) { q with drops := min 0xFFFFFFFF (q.drops + 1) } } }
  else
    let k := 1024 * portOf link + num
    let q := t.queues.getD k EgressQueue.initial
    { s with traffic := { t with queues := t.queues.put k { q with drops := min 0xFFFFFFFF (q.drops + 1) } } }

/-- The frame's instance has moved to another generation (R323). -/
def State.oldFrame (s : State) (f : TxFrame) : Bool :=
  match f.inst with | some (i, g) => s.genOf i ≠ g | none => false

/-- Heads of old generations leave a queue silently, counted in TMS_DROP2; heads that no opening can take are dropped and
recorded (R274, R323). -/
def State.pruneHead (s : State) (link c num : Nat) : List TxFrame → Nat → State
  | [], _ => s
  | f :: t, d =>
    if s.oldFrame f then
      State.pruneHead ((s.tmsDrop (dieOfLink link) 2).putSched link c num t (if t.isEmpty then 0 else d)) link c num t d
    else if s.neverFits link c f.len then
      State.pruneHead ((((s.tmsDrop (dieOfLink link) 1).queueDrop link c num).raise blkTMS 0x6007 none link num).putSched link c num t
        (if t.isEmpty then 0 else d)) link c num t d
    else s

/-- Tokens a shaped frame needs (R313). -/
def shaperNeed (x : Shaper) (len : Nat) : Nat := 8 * (len + x.overhead)

/-- The head frame of a queue is eligible (R309, R313). -/
def State.eligible (s : State) (link c : Nat) (q : SchedQ) : Bool :=
  match q.frames with
  | [] => false
  | f :: _ => s.mayBegin link c f.len && match q.shaper with
    | none => true
    | some n => match s.traffic.shapers.find n with
      | some x => decide (shaperNeed x f.len ≤ x.tokens)
      | none => false

/-- The deficit round robin of a class and tier (R310), from the queue number `from_` on: the queue whose new visit sends its head
frame, with the deficit before it, and the queues with theirs. -/
def drr (ok : SchedQ → Bool) : Nat → List SchedQ → Nat → Option (SchedQ × List SchedQ)
  | 0, _, _ => none
  | fuel + 1, qs, from_ =>
    match (qs.find? fun q => decide (from_ ≤ q.num)).orElse fun _ => qs.head? with
    | none => none
    | some q =>
      match q.frames with
      | [] => none
      | f :: _ =>
        let d := if q.deficit < f.len then q.deficit + q.quantum else q.deficit
        if ok q && decide (f.len ≤ d) then some ({ q with deficit := d }, qs)
        else drr ok fuel (qs.map fun y => if y.num = q.num then { y with deficit := min d (q.quantum + f.len) } else y) (q.num + 1)

/-- The fuel that lets every queue reach its largest frame. -/
def drrFuel (qs : List SchedQ) : Nat := (qs.length + 1) * 200

/-! ## Transmission (R309 to R313) -/

/-- The MAC stamps the send of a queue pair's request packet (R344). -/
def State.stampSent (s : State) (q : Nat) (n : BitVec 24) : State :=
  match s.rma.qps.find q with
  | some x =>
    let us := x.unacked.map fun (u : SentPkt) => if u.psn = n then { u with at_ := s.now } else u
    { s with rma := { s.rma with qps := s.rma.qps.put q { x with unacked := us } } }
  | none => s

/-- The frame, or its last `n` bytes, takes a link until it ends, or until its gate closes, when it is cut with at least 64 bytes left
(R273, R274). -/
def State.takeLink (s : State) (link c : Nat) (f : TxFrame) (n : Nat) : State :=
  let dur := s.wireNs link n
  let b : TxBusy := match s.gateLeft (portOf link) c with
    | some t =>
      if t < dur then { frame := f, cls := c, began := s.now, till := s.now + t, rest := max 64 (n - (t * s.linkGbps link / 8 - 20)) }
      else { frame := f, cls := c, began := s.now, till := s.now + dur, rest := 0 }
    | none => { frame := f, cls := c, began := s.now, till := s.now + dur, rest := 0 }
  let x := s.traffic.tx.getD link LinkTx.initial
  { s with traffic := { s.traffic with tx := s.traffic.tx.put link { x with busy := some b } } }

/-- A frame begins on a link: it leaves, is counted and charged, and takes the link (R222, R273). -/
def State.beginFrame (s : State) (link c : Nat) (f : TxFrame) : State :=
  let s := match f.body with
    | .zaren z => (s.emitZaren link z).modFlow (flowKey z.dst z.pcp) fun w =>
        { w with unacked := w.unacked.map fun (u : Unacked) =>
            if z.hasPsn && z.src = s.fabric.id && u.frame.psn = z.psn && u.frame.typ = z.typ then { u with sent := s.now } else u }
    | .eth b => s.emit (.eth link b)
    | .gptp m => s.emitGptp link m
  let s := match f.mark with | some (q, n) => s.stampSent q n | none => s
  let s := match f.inst with | some (i, _) => s.charge i 4 f.len | none => s
  (s.modLink link fun x => { x with cnt := (x.cnt.bump 4).bump 5 f.len }).takeLink link c f f.len

/-- A preempted frame resumes at the opening of its class (R274). -/
def State.resumeFrame (s : State) (link : Nat) (f : TxFrame) (c rest : Nat) : State :=
  let x := s.traffic.tx.getD link LinkTx.initial
  let s : State := { s with traffic := { s.traffic with tx := s.traffic.tx.put link { x with preempted := none } } }
  s.takeLink link c f rest

/-- The control queue's head leaves, in TC6 ahead of every other queue (R309). -/
def State.sendControl (s : State) (link : Nat) : Option State :=
  let q := s.traffic.ctrl.getD link LinkQueue.initial
  match q.frames with
  | [] => none
  | f :: t =>
    if s.mayBegin link 6 f.len then
      let s : State := { s with traffic := { s.traffic with ctrl := s.traffic.ctrl.put link { q with frames := t } } }
      some (s.beginFrame link 6 f)
    else none

/-- The queues of a tier of a class that hold frames. -/
def State.tierQueues (s : State) (link c : Nat) (lower : Bool) : List SchedQ :=
  (s.activeQueues link c).filter fun q => q.lower = lower

/-- The round-robin position of a class and tier. -/
def State.posOf (s : State) (link c : Nat) (lower : Bool) : Nat :=
  Tbl.getD (s.traffic.tx.getD link LinkTx.initial).pos (2 * c + bit lower) 0

/-- Sets that position. -/
def State.setPos (s : State) (link c : Nat) (lower : Bool) (pos : Nat) : State :=
  let x := s.traffic.tx.getD link LinkTx.initial
  { s with traffic := { s.traffic with tx := s.traffic.tx.put link { x with pos := x.pos.put (2 * c + bit lower) pos } } }

/-- A queue's visit begins or goes on by `v`; or it is over, and a deficit that a new configuration set to 0 is 0 (R320, R322). -/
def State.setVisit (s : State) (link num : Nat) (v : Option Visit) : State :=
  let k := 1024 * portOf link + num
  match s.traffic.queues.find k with
  | some q =>
    let zero : Bool := v.isNone && (match q.visit with | some w => w.zero | none => false)
    { s with traffic := { s.traffic with queues := s.traffic.queues.put k { q with visit := v, deficit := if zero then 0 else q.deficit } } }
  | none => s

/-- The visit that goes on in a tier ends where `goes` does not hold of its queue (R310). -/
def State.endVisit (s : State) (link c : Nat) (lower : Bool) (goes : SchedQ → Bool) : State :=
  let p := s.posOf link c lower
  if p % 2 = 0 || (s.tierQueues link c lower).any fun q => q.num = p / 2 && goes q then s
  else (s.setPos link c lower (p + 1)).setVisit link (p / 2) none

/-- The head frame of a queue fits in its deficit. -/
def SchedQ.affords (q : SchedQ) : Bool := match q.frames with | f :: _ => decide (f.len ≤ q.deficit) | [] => false

/-- A queue sends its head frame (R310, R313): its deficit and its shaper pay for it, and the visit ends if no frame is left. -/
def State.sendHead (s : State) (link c : Nat) (q : SchedQ) : State :=
  match q.frames with
  | [] => s
  | f :: t =>
    let e := s.traffic.queues.getD (1024 * portOf link + q.num) EgressQueue.initial
    let s := s.putSched link c q.num t (if t.isEmpty then 0 else q.deficit - f.len)
    let s := (s.setPos link c q.lower (if t.isEmpty then 2 * (q.num + 1) else 2 * q.num + 1)).setVisit link q.num
      (if t.isEmpty then none else some (s.visitOf e))
    let shapers := match q.shaper with
      | some n => match s.traffic.shapers.find n with
        | some y => s.traffic.shapers.put n { y with tokens := y.tokens - shaperNeed y f.len }
        | none => s.traffic.shapers
      | none => s.traffic.shapers
    ({ s with traffic := { s.traffic with shapers } }).beginFrame link c f

/-- A tier of a class sends its next eligible frame; the second answer says whether there is one (R310). The visit that goes on is
judged when the tier is served (log entry 70). -/
def State.sendTier (s : State) (link c : Nat) (lower : Bool) : State × Bool :=
  let any (s : State) : Bool := (s.tierQueues link c lower).any fun q => s.eligible link c q
  if !any s then (s, false)
  else
    let s := s.endVisit link c lower fun q => s.eligible link c q && q.affords
    let qs := s.tierQueues link c lower
    let p := s.posOf link c lower
    match (if p % 2 = 1 then qs.find? fun q => q.num = p / 2 else none) with
    | some q => (s.sendHead link c q, true)
    | none =>
      if !any s then (s, false)
      else match drr (s.eligible link c) (drrFuel qs) qs (p / 2) with
        | none => (s, false)
        | some (q, qs') => ((qs'.foldl (fun s q => s.putSched link c q.num q.frames q.deficit) s).sendHead link c q, true)

/-- A class sends its next eligible frame, the higher tier first (R310); heads of old generations, and those that never fit, are gone in
any case (R274, R323). -/
def State.sendClass (s : State) (link c : Nat) : State × Bool :=
  let s := (s.activeQueues link c).foldl (fun s q => s.pruneHead link c q.num q.frames q.deficit) s
  let s := (s.endVisit link c false fun _ => true).endVisit link c true fun _ => true
  let (t, sent) := s.sendTier link c false
  if sent then (t, true) else t.sendTier link c true

/-- The next eligible frame, from TC7 down to the class `n` above the last one looked at (R309). While a preempted frame waits for its
class's gate, no other preemptable frame begins. -/
def State.sendNext (s : State) (link : Nat) : Nat → State
  | 0 => s
  | c + 1 =>
    match (if c = 6 then s.sendControl link else none) with
    | some t => t
    | none =>
      match (s.traffic.tx.getD link LinkTx.initial).preempted with
      | some (f, pc, rest) =>
        if pc = c ∧ s.gateLeft (portOf link) c ≠ some 0 then s.resumeFrame link f c rest
        else if c < 6 then State.sendNext s link c
        else let (t, sent) := s.sendClass link c; if sent then t else State.sendNext t link c
      | none => let (t, sent) := s.sendClass link c; if sent then t else State.sendNext t link c

/-- An express frame may begin on a link (R273, R309). -/
def State.expressReady (s : State) (link : Nat) : Bool :=
  ((s.traffic.ctrl.getD link LinkQueue.initial).frames.head?.any fun f => s.mayBegin link 6 f.len) ||
    [6, 7].any fun k => (s.activeQueues link k).any (s.eligible link k)

/-- The frame that is being sent ends or is cut by its gate, or an express frame preempts it: not before 64 bytes of it have left, and
not when fewer than 64 are left (R273). -/
def State.freeLink (s : State) (link : Nat) : State :=
  let x := s.traffic.tx.getD link LinkTx.initial
  let put (s : State) (p : Option (TxFrame × Nat × Nat)) : State :=
    { s with traffic := { s.traffic with tx := s.traffic.tx.put link { x with busy := none, preempted := p } } }
  match x.busy with
  | none => s
  | some b =>
    let t := max s.now (b.began + s.wireNs link 64)
    let left := b.rest + (b.till - t) * s.linkGbps link / 8
    if s.preemptable link b.cls && decide (t < b.till) && decide (64 ≤ left) && s.expressReady link then
      put (s.reach t) (some (b.frame, b.cls, left))
    else put (s.reach b.till) (if b.rest = 0 then x.preempted else some (b.frame, b.cls, b.rest))

/-- TRANSMIT_SELECT (R309): a free link begins the next eligible frame. -/
def execTransmitSelect (link : Nat) (s : State) : Res :=
  .next <|
    if 64 ≤ link ∨ (s.link link).state ≠ .up then s else ((s.freeLink link).sendNext link 8).pumpAll

/-- The transmitter of a link stops: a frame being sent is ended with an error code (R284). -/
def State.cutTx (s : State) (link : Nat) : State :=
  let x := s.traffic.tx.getD link LinkTx.initial
  let s := if x.busy.isSome then s.emit (.txError link) else s
  { s with traffic := { s.traffic with tx := s.traffic.tx.put link { x with busy := none, preempted := none } } }

/-! ## Shapers (R312, R314, R315) -/

/-- One shaper at a refill of `n` ticks: a pending change takes effect first. -/
def Shaper.refill (x : Shaper) (n : Nat) : Shaper :=
  let x := match x.pending with
    | some (r, b, o) => { x with rate := r, burst := b, overhead := o, pending := none }
    | none => x
  { x with tokens := min (8 * x.burst) (x.tokens + n * x.rate) }

/-- `n` refill ticks of every shaper. -/
def State.refill (s : State) (n : Nat) : State :=
  { s with traffic := { s.traffic with
      lastTick := s.traffic.lastTick + n, shapers := s.traffic.shapers.map fun (k, x) => (k, x.refill n) } }

/-- The ticks up to now that have not been counted refill the shapers, with the parameters in force at them (R312, R315). -/
def State.refillNow (s : State) : State :=
  let n := s.now / 1000 - s.traffic.lastTick
  if n = 0 then s else s.refill n

/-- SHAPER_REFILL (R312): every whole microsecond of local time since the last refill adds RATE bits. -/
def execShaperRefill (s : State) : Res :=
  .next <|
    let n := max 1 (s.now / 1000 - s.traffic.lastTick)
    (s.reach (1000 * (s.traffic.lastTick + n))).refill n

/-! ## Commands (R320 to R322) -/

/-- Meters, or shapers, an instance holds. -/
def State.metersOf (s : State) (i : Nat) : Nat := (s.traffic.meters.filter fun e => e.2.owner = i).length
def State.shapersOf (s : State) (i : Nat) : Nat := (s.traffic.shapers.filter fun e => e.2.owner = i).length

/-- TMS_METER_SET after its parameter checks (R317, R320, R321). -/
def tmsMeterSetRun (s : State) (_ : Waiter) (i : Nat) (ps : List Byte) : Act :=
  let n := fieldAt ps 0 2
  let own := fieldAt ps 2 1
  let mode := fieldAt ps 3 1
  let act := fieldAt ps 4 1
  let old := s.traffic.meters.find n
  let cbs := fieldAt ps 16 4
  let ebs := fieldAt ps 20 4
  let who : Option Nat := old.map (·.owner)
  if i ≠ 0 ∧ (own ≠ i ∨ who.getD i ≠ i) then fails s 0x6801
  else if who ≠ some own ∧ (s.inst own).shares.meter ≤ s.metersOf own then fails s 0x6802
  else if (bitAt mode 0 ∧ fieldAt ps 12 4 < fieldAt ps 8 4) ∨ (cbs = 0 ∧ ebs = 0) ∨ bitsOf act 1 0 = 3 ∨ bitsOf act 3 2 = 3 ∨
      bitsOf act 5 4 = 3 then fails s 0x6803
  else
    let full := !bitAt mode 3
    let m : Meter :=
      { owner := own, trtcm := bitAt mode 0, aware := bitAt mode 1, colsrc := bitAt mode 2, act, cir := fieldAt ps 8 4,
        pir := fieldAt ps 12 4, cbs, ebs, c := if full then 8000 * cbs else 0, e := if full then 8000 * ebs else 0, last := s.now
        counts := match old with | some m => m.counts | none => [] }
    okay { s with traffic := { s.traffic with meters := s.traffic.meters.put n m } }

/-- TMS_METER_SET. -/
def tmsMeterSetSpec : Spec :=
  { opcode := 0x6801, permits := anyone, plen := fixed 32
    fields := fun _ ps => [below ps 0 2 16384, below ps 2 1 64, below ps 3 1 16, below ps 4 1 64, rsv ps 5 3, within ps 8 4 0 800000,
      (12, fieldAt ps 12 4 = 0 || (bitAt (fieldAt ps 3 1) 0 && decide (fieldAt ps 12 4 ≤ 800000))), within ps 16 4 0 16777215,
      within ps 20 4 0 16777215, rsv ps 24 8]
    run := tmsMeterSetRun }

/-- TMS_METER_SET (R317): creates or changes a meter. -/
def execTmsMeterSet (c : Cmd) (s : State) : Res := .next (s.command tmsMeterSetSpec c)

/-- TMS_SHAPER_SET after its parameter checks (R314, R315, R321). -/
def tmsShaperSetRun (s : State) (_ : Waiter) (i : Nat) (ps : List Byte) : Act :=
  let n := fieldAt ps 0 2
  let own := fieldAt ps 2 1
  let fl := fieldAt ps 3 1
  let rate := fieldAt ps 4 4
  let burst := fieldAt ps 8 4
  let ovh := fieldAt ps 12 1
  let s := s.refillNow
  let old := s.traffic.shapers.find n
  let put (x : Shaper) : State := { s with traffic := { s.traffic with shapers := s.traffic.shapers.put n x } }
  let who : Option Nat := old.map (·.owner)
  if i ≠ 0 ∧ (own ≠ i ∨ who.getD i ≠ i) then fails s 0x6801
  else if who ≠ some own ∧ (s.inst own).shares.shaper ≤ s.shapersOf own then fails s 0x6802
  else if burst < 10240 then fails s 0x6803
  else
    let compat := bitAt fl 1
    match old with
    | some x =>
      if compat then okay (put { x with owner := own, compat, pending := some (rate, burst, ovh) })
      else okay (put { owner := own, compat, rate, burst, overhead := ovh, tokens := if bitAt fl 0 then 0 else 8 * burst, pending := none })
    | none =>
      okay (put { owner := own, compat, rate, burst, overhead := ovh
                  tokens := if bitAt fl 0 && !compat then 0 else 8 * burst, pending := none })

/-- TMS_SHAPER_SET. -/
def tmsShaperSetSpec : Spec :=
  { opcode := 0x6802, permits := anyone, plen := fixed 16
    fields := fun _ ps => [below ps 0 2 16384, below ps 2 1 64, below ps 3 1 4, within ps 4 4 1 800000, within ps 8 4 0 16777215,
      below ps 12 1 64, rsv ps 13 3]
    run := tmsShaperSetRun }

/-- TMS_SHAPER_SET (R314, R315): creates or changes a shaper. -/
def execTmsShaperSet (c : Cmd) (s : State) : Res := .next (s.command tmsShaperSetSpec c)

/-- An action names a meter. -/
def actionMeter (a : List Byte) (n : Nat) : Bool := bitAt (fieldAt a 1 1) 2 && fieldAt a 24 2 = n

/-- The fields that TMS_OBJ_FREE and TMS_OBJ_GET share. -/
def tmsObjFields (_ : State) (ps : List Byte) : List (Nat × Bool) :=
  [below ps 0 1 2, rsv ps 1 1, below ps 2 2 16384, rsv ps 4 4]

/-- The owner of a meter or shaper. -/
def State.tmsOwner (s : State) (kind n : Nat) : Option Nat :=
  if kind = 0 then (s.traffic.meters.find n).map (·.owner) else (s.traffic.shapers.find n).map (·.owner)

/-- TMS_OBJ_FREE. -/
def tmsObjFreeSpec : Spec :=
  { opcode := 0x6803, permits := anyone, plen := fixed 8, fields := tmsObjFields
    run := fun s _ i ps =>
      let kind := fieldAt ps 0 1
      let n := fieldAt ps 2 2
      match s.tmsOwner kind n with
      | none => fails s 0x6807
      | some o =>
        if i ≠ 0 ∧ o ≠ i then fails s 0x6801
        else if kind = 0 then
          if s.eth.rules.any fun e => actionMeter e.2.action n then fails s 0x6808
          else okay { s with traffic := { s.traffic with meters := Tbl.del s.traffic.meters n } }
        else if s.traffic.queues.any fun e => e.2.shaper = some n then fails s 0x6808
        else okay { s with traffic := { s.traffic with shapers := Tbl.del s.traffic.shapers n } } }

/-- TMS_OBJ_FREE (R321): frees a meter or shaper. -/
def execTmsObjFree (c : Cmd) (s : State) : Res := .next (s.command tmsObjFreeSpec c)

/-- The SET parameters of a meter with FILL 0, then its buckets. -/
def Meter.image (m : Meter) (n : Nat) : List Byte :=
  leBytes 2 n ++ leBytes 1 m.owner ++ leBytes 1 (bit m.trtcm + 2 * bit m.aware + 4 * bit m.colsrc) ++ leBytes 1 m.act ++ zeros 3 ++
  leBytes 4 m.cir ++ leBytes 4 m.pir ++ leBytes 4 m.cbs ++ leBytes 4 m.ebs ++ zeros 8 ++ leBytes 8 m.c ++ leBytes 8 m.e

/-- The SET parameters of a shaper with FILL 0, then its tokens. -/
def Shaper.image (x : Shaper) (n : Nat) : List Byte :=
  leBytes 2 n ++ leBytes 1 x.owner ++ leBytes 1 (2 * bit x.compat) ++ leBytes 4 x.rate ++ leBytes 4 x.burst ++ leBytes 1 x.overhead ++
  zeros 3 ++ leBytes 8 x.tokens

/-- TMS_OBJ_GET. -/
def tmsObjGetSpec : Spec :=
  { opcode := 0x6804, permits := anyone, plen := fixed 8, fields := tmsObjFields
    run := fun s _ i ps =>
      let kind := fieldAt ps 0 1
      let n := fieldAt ps 2 2
      match s.tmsOwner kind n with
      | none => fails s 0x6807
      | some o =>
        if i ≠ 0 ∧ o ≠ i then fails s 0x6801
        else if kind = 0 then gives s (match s.traffic.meters.find n with | some m => m.image n | none => [])
        else gives s (match s.traffic.shapers.find n with | some x => x.image n | none => []) }

/-- TMS_OBJ_GET (R320): returns a meter or shaper and its buckets. -/
def execTmsObjGet (c : Cmd) (s : State) : Res := .next (s.command tmsObjGetSpec c)

/-- TMS_EQ_SET after its parameter checks (R321, R322). -/
def tmsEqSetRun (s : State) (_ : Waiter) (_ : Nat) (ps : List Byte) : Act :=
  let port := fieldAt ps 0 1
  let on := bitAt (fieldAt ps 1 1) 0
  let k := 1024 * port + fieldAt ps 2 2
  let sub := fieldAt ps 4 1
  let cls := fieldAt ps 5 1
  let inst := if fieldAt ps 6 1 = 0xFF then none else some (fieldAt ps 6 1)
  let quantum := fieldAt ps 8 2
  let shaper := if fieldAt ps 10 2 = 0xFFFF then none else some (fieldAt ps 10 2)
  let badShaper : Bool := match shaper with
    | some n => n / 4096 ≠ dieOfPort port || (match s.traffic.shapers.find n with
      | some x => x.owner ≠ 0 && some x.owner ≠ inst
      | none => true)
    | none => false
  let q := s.traffic.queues.getD k EgressQueue.initial
  if !subExists (s.port port).split sub || (!q.frames.isEmpty && (q.sub ≠ sub || q.cls ≠ cls || q.inst ≠ inst)) then fails s 0x6804
  else if badShaper then fails s 0x6805
  else if quantum = 0 ∧ inst.isNone then fails s 0x6806
  else
    let s := if on then s else s.tmsDrop (dieOfPort port) 2 q.frames.length
    let visit := if on && q.enable && !q.stopped then q.visit.map fun v => { v with zero := true } else none
    let q' : EgressQueue :=
      { enable := on, stopped := false, sub, cls, inst, shaper, quantum, limit := fieldAt ps 12 2
        frames := if on then q.frames else []
        deficit := if visit.isSome then q.deficit else 0, drops := q.drops, visit }
    okay { s with traffic := { s.traffic with queues := s.traffic.queues.put k q' } }

/-- TMS_EQ_SET. -/
def tmsEqSetSpec : Spec :=
  { opcode := 0x6805, permits := managerOnly, plen := fixed 16
    fields := fun _ ps => [below ps 0 1 16, below ps 1 1 2, below ps 2 2 1024, below ps 4 1 4, below ps 5 1 8,
      (6, decide (fieldAt ps 6 1 < 64) || fieldAt ps 6 1 = 0xFF), rsv ps 7 1, within ps 8 2 0 16384,
      (10, decide (fieldAt ps 10 2 < 16384) || fieldAt ps 10 2 = 0xFFFF), within ps 12 2 1 2048, rsv ps 14 2]
    run := tmsEqSetRun }

/-- TMS_EQ_SET (R322): configures an egress queue. -/
def execTmsEqSet (c : Cmd) (s : State) : Res := .next (s.command tmsEqSetSpec c)

/-- TMS_IQMAP_SET. -/
def tmsIqmapSetSpec : Spec :=
  { opcode := 0x6806, permits := managerOnly, plen := fixed 8
    fields := fun _ ps => [below ps 0 1 64, below ps 1 1 64, below ps 2 1 8, rsv ps 3 1,
      (4, decide (fieldAt ps 4 2 < 1024) || fieldAt ps 4 2 = 0xFFFF), rsv ps 6 2]
    run := fun s _ _ ps =>
      let k := 512 * fieldAt ps 0 1 + 8 * fieldAt ps 1 1 + fieldAt ps 2 1
      let m := s.traffic.iqmap
      let m := if fieldAt ps 4 2 = 0xFFFF then Tbl.del m k else m.put k (fieldAt ps 4 2)
      okay { s with traffic := { s.traffic with iqmap := m } } }

/-- TMS_IQMAP_SET (R307): maps a link, instance and class to an egress queue. -/
def execTmsIqmapSet (c : Cmd) (s : State) : Res := .next (s.command tmsIqmapSetSpec c)

end Sys2Proof.Machine
end

