-- ==== Sys2Proof/Machine/Parser.lean ====
section
/-! DEFINITION. The parser, the classification key, and the edits of a frame (spec/11): every function here takes frame bytes
from destination address up to, not including, the FCS. -/

namespace Sys2Proof.Machine

/-! ## Headers (R289, R290) -/

/-- A byte of a frame. -/
def byteAt (bs : List Byte) (o : Nat) : Nat := (bs.getD o 0).toNat

/-- A big-endian field of a frame. -/
def wordAt (bs : List Byte) (o n : Nat) : Nat := beNat (slice bs o n)

/-- The PFLAGS bits of R290. -/
def pfFrag : Nat := 1
def pfDepth : Nat := 2
def pfLimit : Nat := 4
def pfErr : Nat := 8

/-- A network header as reached: its version, place, addresses of 16 bytes, protocol, TOS, the offset after it and its
extension headers, and whether the walk may go on to the transport header. -/
structure IpHdr where
  v6    : Bool
  off   : Nat
  src   : List Byte
  dst   : List Byte
  proto : Nat
  tos   : Nat
  fin   : Nat
  go    : Bool
  deriving DecidableEq, Repr

/-- A transport header as reached: its kind in KIND[7:5], ports, TCP flags, RoCEv2 queue pair, and the offset after it. -/
structure L4Hdr where
  kind  : Nat
  sport : List Byte
  dport : List Byte
  tcpfl : List Byte
  dqp   : List Byte
  fin   : Nat
  deriving DecidableEq, Repr

/-- What the walk of R289 reached. `etOff` is the offset of the EtherType after the last outer tag; `inner` where the tunnel's
payload starts and its kind: 0 Ethernet, 1 IPv4, 2 IPv6. -/
structure Parsed where
  tags   : List Nat
  etOff  : Nat
  labels : List Nat
  ip1    : Option IpHdr
  l41    : Option L4Hdr
  tunnel : Nat
  tunId  : List Byte
  inner  : Option (Nat × Nat)
  ip2    : Option IpHdr
  l42    : Option L4Hdr
  flags  : Nat
  deriving DecidableEq, Repr


/-- An EtherType that names a tag (R289 step 2). -/
def isTpid (tpid2 : Nat) (t : Nat) : Bool := t = 0x8100 || t = 0x88A8 || (tpid2 ≠ 0 && t = tpid2)

/-- Up to `fuel` tags from the EtherType position `o`: their offsets and the position of the EtherType after them. -/
def walkTags (bs : List Byte) (tpid2 : Nat) : Nat → Nat → List Nat × Nat
  | 0, o => ([], o)
  | fuel + 1, o =>
    if isTpid tpid2 (wordAt bs o 2) && decide (o + 6 ≤ bs.length) then
      let (t, e) := walkTags bs tpid2 fuel (o + 4)
      (o :: t, e)
    else ([], o)

/-- Up to `fuel` labels from `o`: their offsets, the offset after them, and whether the last has S set. -/
def walkLabels (bs : List Byte) (lim : Nat) : Nat → Nat → List Nat × Nat × Bool
  | 0, o => ([], o, false)
  | fuel + 1, o =>
    if lim < o + 4 then ([], o, false)
    else if bitAt (byteAt bs (o + 2)) 0 then ([o], o + 4, true)
    else
      let (t, e, d) := walkLabels bs lim fuel (o + 4)
      (o :: t, e, d)

/-- A next header that R289 step 4 walks. -/
def isExt (n : Nat) : Bool := n = 0 || n = 43 || n = 44 || n = 60

/-- Extension headers: the next header and offset reached, whether the transport may follow, and PFLAGS. -/
def walkExt (bs : List Byte) (lim : Nat) : Nat → Nat → Nat → Bool → Nat → Nat × Nat × Bool × Nat
  | 0, nh, o, first, fl => if isExt nh then (nh, o, false, fl ||| pfLimit) else (nh, o, first, fl)
  | fuel + 1, nh, o, first, fl =>
    if !isExt nh then (nh, o, first, fl)
    else if lim < o + 2 then (nh, o, false, fl ||| pfDepth)
    else
      let len := if nh = 44 then 8 else 8 * (byteAt bs (o + 1) + 1)
      if bs.length < o + len then (nh, o, false, fl ||| pfErr)
      else if lim < o + len then (nh, o, false, fl ||| pfDepth)
      else
        let w := wordAt bs (o + 2) 2
        if nh = 44 && (bitAt w 0 || decide (0 < w / 8)) then (nh, o, false, fl ||| pfFrag)
        else walkExt bs lim fuel (byteAt bs o) (o + len) first fl

/-- An IPv4 address in the key (R292). -/
def mapped4 (a : List Byte) : List Byte := zeros 10 ++ [0xFF, 0xFF] ++ a

/-- An IPv4 or IPv6 header at an offset, within the depth read (R289 step 4, R290). -/
def walkIp (bs : List Byte) (lim : Nat) (v6 : Bool) (o : Nat) : Option IpHdr × Nat :=
  let n := bs.length
  if v6 then
    if lim < o + 40 then (none, pfDepth)
    else if n < o + 40 + wordAt bs (o + 4) 2 then (none, pfErr)
    else
      let (nh, e, go, fl) := walkExt bs lim 4 (byteAt bs (o + 6)) (o + 40) true 0
      (some
        { v6, off := o, src := slice bs (o + 8) 16, dst := slice bs (o + 24) 16, proto := nh
          tos := bitsOf (wordAt bs o 2) 11 4, fin := e, go }, fl)
  else if lim < o + 1 then (none, pfDepth)
  else
    let h := 4 * (byteAt bs o % 16)
    if h < 20 then (none, pfErr)
    else if lim < o + h then (none, pfDepth)
    else if n < o + wordAt bs (o + 2) 2 ∨ onesSum (slice bs o h) ≠ 0xFFFF then (none, pfErr)
    else
      if wordAt bs (o + 6) 2 % 16384 ≠ 0 then (none, pfFrag)
      else
        (some
          { v6, off := o, src := mapped4 (slice bs (o + 12) 4), dst := mapped4 (slice bs (o + 16) 4), proto := byteAt bs (o + 9)
            tos := byteAt bs (o + 1), fin := o + h, go := true }, 0)

/-- The transport header of a datagram (R289 step 5). -/
def walkL4 (bs : List Byte) (lim : Nat) (ip : IpHdr) : Option L4Hdr × Nat :=
  let o := ip.fin
  let blank : L4Hdr := { kind := 5, sport := zeros 2, dport := zeros 2, tcpfl := zeros 1, dqp := zeros 3, fin := o }
  let ports : L4Hdr := { blank with sport := slice bs o 2, dport := slice bs (o + 2) 2 }
  if !ip.go then (none, 0)
  else if ip.proto = 17 then
    if lim < o + 8 then (none, pfDepth)
    else if wordAt bs (o + 2) 2 = 4791 then
      if lim < o + 20 then (some { ports with kind := 4, fin := o + 8 }, pfDepth)
      else (some { ports with kind := 4, dqp := slice bs (o + 13) 3, fin := o + 8 }, 0)
    else (some { ports with kind := 1, fin := o + 8 }, 0)
  else if ip.proto = 6 then
    let h := max 20 (4 * (byteAt bs (o + 12) / 16))
    if lim < o + 20 ∨ lim < o + h then (none, pfDepth)
    else (some { ports with kind := 2, tcpfl := slice bs (o + 13) 1, fin := o + h }, 0)
  else if ip.proto = 1 ∨ ip.proto = 58 then
    if lim < o + 8 then (none, pfDepth) else (some { blank with kind := 3, fin := o + 8 }, 0)
  else (some blank, 0)

/-- A tunnel's kind (KIND[2:0]), identifier of 4 bytes, payload as offset and kind, and PFLAGS. -/
structure Tunnel where
  kind  : Nat
  id    : List Byte
  inner : Option (Nat × Nat)
  flags : Nat
  deriving DecidableEq, Repr

/-- A payload by its protocol type. -/
def payloadOf (t o : Nat) : Option (Nat × Nat) :=
  if t = 0x6558 then some (o, 0) else if t = 0x0800 then some (o, 1) else if t = 0x86DD then some (o, 2) else none

/-- The kind of tunnel that follows a network and transport header; 0 for none (R289 step 6). -/
def tunnelKind (bs : List Byte) (vx gn : Nat) (ip : IpHdr) (l4 : Option L4Hdr) : Nat :=
  if !ip.go then 0
  else if ip.proto = 47 then 3 else if ip.proto = 4 then 4 else if ip.proto = 41 then 5
  else match l4 with
    | some l => if ip.proto = 17 ∧ wordAt bs (ip.fin + 2) 2 = vx ∧ l.kind ≠ 4 then 1
      else if ip.proto = 17 ∧ wordAt bs (ip.fin + 2) 2 = gn ∧ l.kind ≠ 4 then 2 else 0
    | none => 0

/-- The tunnel header at an offset (R289 step 6, R290). -/
def walkTunnel (bs : List Byte) (lim kind o : Nat) : Tunnel :=
  let bad (f : Nat) : Tunnel := { kind := 0, id := zeros 4, inner := none, flags := f }
  match kind with
  | 1 => if lim < o + 8 then bad pfDepth else { kind := 1, id := 0 :: slice bs (o + 4) 3, inner := some (o + 8, 0), flags := 0 }
  | 2 =>
    if lim < o + 8 then bad pfDepth
    else
      let e := o + 8 + 4 * (byteAt bs o % 64)
      if bs.length < e then bad pfErr
      else if lim < e then bad pfDepth
      else { kind := 2, id := 0 :: slice bs (o + 4) 3, inner := payloadOf (wordAt bs (o + 2) 2) e, flags := 0 }
  | 3 =>
    if lim < o + 4 then bad pfDepth
    else
      let f := byteAt bs o
      let k := o + 4 + if bitAt f 7 then 4 else 0
      let e := k + (if bitAt f 5 then 4 else 0) + if bitAt f 4 then 4 else 0
      if bs.length < e then bad pfErr
      else if lim < e then bad pfDepth
      else { kind := 3, id := if bitAt f 5 then slice bs k 4 else zeros 4, inner := payloadOf (wordAt bs (o + 2) 2) e, flags := 0 }
  | 4 => { kind := 4, id := zeros 4, inner := some (o, 1), flags := 0 }
  | 5 => { kind := 5, id := zeros 4, inner := some (o, 2), flags := 0 }
  | _ => bad 0

/-- The inner headers of a tunnel (R289 step 7). -/
def walkInner (bs : List Byte) (lim tpid2 vx gn : Nat) (p : Parsed) (o kind : Nat) : Parsed :=
  let ipAt (v6 : Bool) (o : Nat) : Parsed :=
    let (ip, f1) := walkIp bs lim v6 o
    match ip with
    | none => { p with flags := p.flags ||| f1 }
    | some h =>
      let (l4, f2) := walkL4 bs lim h
      let f3 := if tunnelKind bs vx gn h l4 = 0 then 0 else pfLimit
      { p with ip2 := some h, l42 := l4, flags := p.flags ||| f1 ||| f2 ||| f3 }
  if kind = 0 then
    if lim < o + 14 then { p with flags := p.flags ||| pfDepth }
    else
      let (ts, e) := walkTags bs tpid2 2 (o + 12)
      if lim < e + 2 then { p with flags := p.flags ||| pfDepth }
      else
        let t := wordAt bs e 2
        if ts.length ≤ 2 ∧ t = 0x0800 then ipAt false (e + 2) else if t = 0x86DD then ipAt true (e + 2) else p
  else ipAt (kind = 2) o

/-- The walk of R289 over a frame, reading at most `depth` bytes. -/
def parseFrame (bs : List Byte) (depth tpid2 vx gn : Nat) : Parsed :=
  let lim := min depth bs.length
  let (ts, e) := walkTags bs tpid2 4 12
  let p : Parsed :=
    { tags := ts, etOff := e, labels := [], ip1 := none, l41 := none, tunnel := 0, tunId := zeros 4, inner := none, ip2 := none,
      l42 := none, flags := 0 }
  let et := wordAt bs e 2
  if isTpid tpid2 et then { p with flags := pfLimit }
  else
    let mpls : Bool := et = 0x8847 || et = 0x8848
    let (ls, o, done) := if mpls then walkLabels bs lim 4 (e + 2) else ([], e + 2, true)
    let p := { p with labels := ls }
    if !done then { p with flags := if ls.length = 4 then pfLimit else pfDepth }
    else
      let ver : Nat :=
        if mpls then (if byteAt bs o / 16 = 4 then 1 else if byteAt bs o / 16 = 6 then 2 else 0)
        else if et = 0x0800 then 1 else if et = 0x86DD then 2 else 0
      if ver = 0 then p
      else
        let (ip, f1) := walkIp bs lim (ver = 2) o
        match ip with
        | none => { p with flags := f1 }
        | some h =>
          let (l4, f2) := walkL4 bs lim h
          let p := { p with ip1 := some h, l41 := l4, flags := f1 ||| f2 }
          let k := tunnelKind bs vx gn h l4
          if k = 0 then p
          else
            let t := walkTunnel bs lim k (match l4 with | some l => l.fin | none => h.fin)
            let p := { p with tunnel := t.kind, tunId := t.id, inner := t.inner, flags := p.flags ||| t.flags }
            match t.inner with
            | some (a, kd) => walkInner bs lim tpid2 vx gn p a kd
            | none => p

/-! ## The key (R292) -/

/-- The 80-byte key of a frame. -/
def keyOf (bs : List Byte) (p : Parsed) (link : Nat) (l3sel encap : Bool) : List Byte :=
  let sel : Option IpHdr × Option L4Hdr := if !l3sel && p.ip2.isSome then (p.ip2, p.l42) else (p.ip1, p.l41)
  let net := match sel.1 with | none => 0 | some h => if h.v6 then 2 else 1
  let tr := match sel.2 with | none => 0 | some l => l.kind
  let tci (n : Nat) : List Byte := match p.tags[n]? with | some o => slice bs (o + 2) 2 | none => zeros 2
  let lbl (o : Option Nat) : List Byte := match o with | some o => slice bs o 4 | none => zeros 4
  let byte (n : Nat) : List Byte := leBytes 1 n
  byte (link % 64) ++ byte (p.tags.length + 8 * p.labels.length) ++ byte (p.tunnel + 8 * net + 32 * tr) ++
  byte (p.flags + 16 * bit encap) ++ slice bs 0 12 ++ tci 0 ++ tci 1 ++ slice bs p.etOff 2 ++ lbl p.labels.head? ++
  lbl p.labels.getLast? ++ zeros 2 ++
  (match sel.1 with | some h => h.src ++ h.dst ++ byte h.proto ++ byte h.tos | none => zeros 34) ++
  (match sel.2 with | some l => l.sport ++ l.dport ++ l.tcpfl | none => zeros 5) ++ zeros 1 ++ p.tunId ++
  (match sel.2 with | some l => l.dqp | none => zeros 3) ++ zeros 1

/-! ## Edits (R297, R298) -/

/-- Where the headers that edits name lie: tags, the EtherType, labels and the first network header. -/
structure Layout where
  tags   : Nat
  etOff  : Nat
  labels : List Nat
  ip     : Option (Nat × Bool)
  deriving DecidableEq, Repr

/-- The layout of a frame as it stands. -/
def layoutOf (bs : List Byte) (tpid2 : Nat) : Layout :=
  let (ts, e) := walkTags bs tpid2 (bs.length / 4) 12
  let et := wordAt bs e 2
  let mpls : Bool := et = 0x8847 || et = 0x8848
  let (ls, o, done) := if mpls then walkLabels bs bs.length (bs.length / 4) (e + 2) else ([], e + 2, true)
  let v4 : Bool := if mpls then decide (byteAt bs o / 16 = 4) else decide (et = 0x0800)
  let v6 : Bool := if mpls then decide (byteAt bs o / 16 = 6) else decide (et = 0x86DD)
  { tags := ts.length, etOff := e, labels := ls
    ip := if !done then none
      else if v4 && decide (5 ≤ byteAt bs o % 16) && decide (o + 20 ≤ bs.length) then some (o, false)
      else if v6 && decide (o + 40 ≤ bs.length) then some (o, true) else none }

/-- Replaces the bytes at an offset. -/
def patch (bs : List Byte) (o : Nat) (new : List Byte) : List Byte := bs.take o ++ new ++ bs.drop (o + new.length)

/-- Inserts bytes at an offset. -/
def insertAt (bs : List Byte) (o : Nat) (new : List Byte) : List Byte := bs.take o ++ new ++ bs.drop o

/-- Removes `n` bytes at an offset. -/
def removeAt (bs : List Byte) (o n : Nat) : List Byte := bs.take o ++ bs.drop (o + n)

/-- An IPv4 header checksum after a word of the header changed from `old` to `new`. -/
def fixSum (sum old new : Nat) : Nat :=
  let v := (65535 - sum) + (65535 - old) + new
  let v := v % 65536 + v / 65536
  let v := v % 65536 + v / 65536
  65535 - v

/-- Changes the 16-bit word at an even offset of an IPv4 header, and its checksum. -/
def patch4 (bs : List Byte) (ip o new : Nat) : List Byte :=
  let sum := fixSum (wordAt bs (ip + 10) 2) (wordAt bs (ip + o) 2) new
  patch (patch bs (ip + o) (beBytes 2 new)) (ip + 10) (beBytes 2 sum)

/-- One edit; none when DEC_TTL drops the frame (R298). -/
def applyEdit (bs : List Byte) (tpid2 : Nat) (e : List Byte) : Option (List Byte) :=
  let l := layoutOf bs tpid2
  let a1 := fieldAt e 1 1
  match fieldAt e 0 1 with
  | 1 => some (if l.tags = 0 then bs else removeAt bs 12 4)
  | 2 => some (insertAt bs 12 ((if a1 = 0 then [0x81, 0x00] else [0x88, 0xA8]) ++ slice e 2 2))
  | 3 => some (if l.tags = 0 then bs else patch bs 14 (beBytes 2 (wordAt bs 14 2 / 4096 * 4096 + fieldAt e 2 2 % 4096)))
  | 4 => some (if l.tags = 0 then bs else patch bs 14 (leBytes 1 (byteAt bs 14 % 32 + 32 * (a1 % 8))))
  | 5 =>
    match l.labels with
    | [] => some bs
    | o :: rest =>
      let bs' := removeAt bs o 4
      let v := byteAt bs' o / 16
      some (if rest.isEmpty ∧ v = 4 then patch bs' l.etOff [0x08, 0x00]
        else if rest.isEmpty ∧ v = 6 then patch bs' l.etOff [0x86, 0xDD] else bs')
  | 6 =>
    let entry (s : Bool) : List Byte := beBytes 4 (wordAt e 4 4 / 512 * 512 + wordAt e 4 4 % 256 + if s then 256 else 0)
    some (if l.labels.isEmpty then insertAt (patch bs l.etOff [0x88, 0x47]) (l.etOff + 2) (entry true)
      else insertAt bs (l.etOff + 2) (entry false))
  | 7 => some (patch bs 0 (slice e 2 6))
  | 8 => some (patch bs 6 (slice e 2 6))
  | 9 =>
    some (match l.ip with
      | some (o, false) => patch4 bs o 0 (256 * byteAt bs o + 4 * (a1 % 64) + byteAt bs (o + 1) % 4)
      | some (o, true) =>
        let w := wordAt bs o 2
        patch bs o (beBytes 2 (w / 4096 * 4096 + 64 * (a1 % 64) + w % 64))
      | none => bs)
  | 0xA =>
    match l.ip with
    | some (o, false) =>
      let t := byteAt bs (o + 8)
      if t ≤ 1 then none else some (patch4 bs o 8 (256 * (t - 1) + byteAt bs (o + 9)))
    | some (o, true) =>
      let t := byteAt bs (o + 7)
      if t ≤ 1 then none else some (patch bs (o + 7) (leBytes 1 (t - 1)))
    | none => some bs
  | _ => some bs

/-- DECAP by the tunnel of the key, and whether it applied (R298). -/
def decap (bs : List Byte) (p : Parsed) : List Byte × Bool :=
  if p.tunnel = 0 ∨ p.flags &&& (pfDepth ||| pfLimit ||| pfErr) ≠ 0 then (bs, false)
  else
    match p.inner with
    | some (o, 0) => (bs.drop o, true)
    | some (o, k) =>
      if p.tunnel = 2 then (bs, false)
      else (bs.take p.etOff ++ (if k = 1 then [0x08, 0x00] else [0x86, 0xDD]) ++ bs.drop o, true)
    | none => (bs, false)

/-- Sets DEI in the outermost tag (R319). -/
def markDei (bs : List Byte) (tpid2 : Nat) : List Byte :=
  if isTpid tpid2 (wordAt bs 12 2) then patch bs 14 [BitVec.ofNat 8 (byteAt bs 14) ||| 0x10] else bs

/-- An edit that the table of edits defines, with its reserved bytes zero (R297). -/
def editOk (e : List Byte) : Bool :=
  let z (o n : Nat) : Bool := allZero (slice e o n)
  let a1 := fieldAt e 1 1
  match fieldAt e 0 1 with
  | 0 | 1 | 5 | 0xA => z 1 7
  | 2 => decide (a1 ≤ 1) && z 4 4
  | 3 => z 1 1 && decide (fieldAt e 2 2 < 4096) && z 4 4
  | 4 => decide (a1 < 8) && z 2 6
  | 6 => z 1 3
  | 7 | 8 => z 1 1
  | 9 => decide (a1 < 64) && z 2 6
  | _ => false

end Sys2Proof.Machine
end

