-- ==== Sys2Proof/Machine/Ports.lean ====
section
/-! DEFINITION. Ethernet ports, classification and receive queues (spec/11): rules, verdicts, delivery, links, the commands of
the chapter and the write of a port's settings. -/

namespace Sys2Proof.Machine

/-! ## Drops and counts -/

/-- Adds 1 to NET_DROPn of a die. -/
def State.netDrop (s : State) (die n : Nat) : State :=
  { s with eth := { s.eth with drops := s.eth.drops.bumpSat (8 * die + n) (2 ^ 64 - 1) } }

/-! ## Rules (R293 to R296) -/

/-- A rule matches a key (R293). -/
def Rule.matches (r : Rule) (key : List Byte) : Bool :=
  (List.zipWith (fun (k m : Byte) => k &&& m) key r.mask) == r.value

/-- The best matching rule of a die and stage: lowest priority, then lowest slot (R295). -/
def State.bestRule (s : State) (die stage : Nat) (owner : Option Nat) (key : List Byte) : Option (Nat × Rule) :=
  (s.eth.rules.filter fun e => e.1 / 16384 = die && e.2.stage = stage && (match owner with | some o => e.2.owner = o | none => true) &&
    e.2.matches key).foldl
    (fun (best : Option (Nat × Rule)) e => match best with
      | none => some e
      | some b => if e.2.prio < b.2.prio then some e else some b) none

def actVerdict (a : List Byte) : Nat := fieldAt a 0 1
def actFlag (a : List Byte) (n : Nat) : Bool := bitAt (fieldAt a 1 1) n
def actTarget (a : List Byte) : Nat := fieldAt a 4 4

/-- COUNT of a rule (R300). -/
def State.countRule (s : State) (slot : Nat) (r : Rule) (n : Nat) : State :=
  if actFlag r.action 1 then
    let r' : Rule := { r with frames := r.frames + 1, bytes := r.bytes + BitVec.ofNat 64 n }
    { s with eth := { s.eth with rules := s.eth.rules.put slot r' } }
  else s

/-- A slot is cleared: its counters stand until it is set again (R296). -/
def State.clearRule (s : State) (slot : Nat) (r : Rule) : State :=
  { s with eth := { s.eth with rules := Tbl.del s.eth.rules slot, cleared := s.eth.cleared.put slot (r.frames, r.bytes) } }

/-- METER of a rule: the state, the frame's colour, whether it is to be marked, by this meter or an earlier one, and whether it is
dropped (R295, R319). -/
def State.meterRule (s : State) (r : Rule) (n : Nat) (earlier : Colour) (dei marked : Bool) : State × Colour × Bool × Bool :=
  if actFlag r.action 2 && s.traffic.meters.has (fieldAt r.action 24 2) then
    let (s, col, a) := s.meterFrame (fieldAt r.action 24 2) n earlier dei
    (s, col, marked || a = 1, a = 2)
  else (s, earlier, marked, false)

/-! ## Receive queues (R301, R302) -/

/-- What a receive record says of its frame (R301). -/
structure RxInfo where
  link  : Nat
  flags : Nat
  rule1 : Nat
  rule2 : Nat
  kinds : List Byte
  time  : Nat
  deriving DecidableEq, Repr

/-- A receive record. -/
def rxRecord (f : RxInfo) (seq : Nat) (bs : List Byte) : List Byte :=
  leBytes 2 bs.length ++ leBytes 1 f.link ++ leBytes 1 f.flags ++ leBytes 4 f.rule1 ++ leBytes 4 f.rule2 ++ f.kinds ++ zeros 1 ++
  leBytes 8 f.time ++ leBytes 8 seq ++ bs

/-- A pad record of a receive queue. -/
def rxPad (seq : Nat) : List Byte := zeros 3 ++ leBytes 1 1 ++ zeros 20 ++ leBytes 8 seq ++ zeros 32

/-- What became of a frame at a receive queue. -/
inductive Enqueue where
  | written (s : State)
  | noQueue (s : State)
  | oldGen
  | full (s : State)
  deriving DecidableEq, Repr

/-- A frame at enqueue: the checks of R302 in their order, then its record. -/
def State.enqueue (s : State) (q : Nat) (owner : Option Nat) (f : RxInfo) (bs : List Byte) : Enqueue :=
  match s.eth.queues.find q with
  | none => .noQueue s
  | some x =>
    if x.error || (match owner with | some o => o ≠ x.inst | none => false) then .noQueue s
    else if !s.isActive x.inst || s.genOf x.inst ≠ x.gen then .oldGen
    else
      let n := (32 + bs.length + 63) / 64 * 64
      let wraps : Bool := decide (x.len < x.prod + n)
      let seq := if wraps then x.seq + 1 else x.seq
      let put (s : State) (y : RxQueue) : State := { s with eth := { s.eth with queues := s.eth.queues.put q y } }
      match s.ringPut clsNet x.inst x.ring x.len x.prod 64 (rxRecord f seq bs) (rxPad x.seq) with
      | .ok s' prod => .written (put s' { x with prod, seq := (seq + 1) % 2 ^ 64 })
      | .full => .full (put s { x with drops := min 0xFFFFFFFF (x.drops + 1) })
      | .bad s => .noQueue ((put s { x with error := true }).raise blkNET 0x6004 (some x.inst) q 0)

/-! ## Verdicts (R295 to R300) -/

/-- The pieces of a frame that the parser needs of its port. -/
def State.parse (s : State) (link : Nat) (bs : List Byte) : Parsed :=
  parseFrame bs (64 * (s.port (portOf link)).depth) s.eth.tpid2.toNat s.eth.vxlan.toNat s.eth.geneve.toNat

/-- A frame as its class-less verdict finds it: PCP of the outermost tag, or 0 (R299). -/
def State.pcpOf (s : State) (bs : List Byte) : Nat :=
  if isTpid s.eth.tpid2.toNat (wordAt bs 12 2) then byteAt bs 14 / 32 else 0

/-- A copy for MIRROR (R300): made after the original, dropped and counted when there is no room. -/
def State.mirrorCopy (s : State) (a : List Byte) (f : RxInfo) (bs : List Byte) : State :=
  let t := fieldAt a 28 2
  let cut := if t = 0 then bs else bs.take t
  let m := fieldAt a 26 2
  let die := dieOfLink f.link
  if bitAt m 15 then
    match s.enqueue (m % 4096) none { f with flags := f.flags % 8 % 2 + 2 + (if cut.length < bs.length then 4 else 0) + f.flags / 16 * 16 } cut with
    | .written s' => s'.charge ((s.eth.queues.find (m % 4096)).map (·.inst) |>.getD 0) 3 (cut.length + 4)
    | .noQueue s' => s'.netDrop die 6
    | .oldGen => s.netDrop die 6
    | .full s' => s'.netDrop die 6
  else
    let s' := s.egressDrop (m % 64) 0 none false (.eth (padTo 60 cut)) (wireLen (cut.length + 4))
    if s'.traffic.drops = s.traffic.drops then s' else s'.netDrop die 6

/-- Where a classified frame goes. -/
inductive Verdict where
  | none | queue (q : Nat) (owner : Option Nat) | rma | link (l cls : Nat) | drop (n : Nat) | fabric (dev cls : Nat)
  deriving DecidableEq, Repr

/-- The largest frame, from destination address to FCS, that a link takes (R286, R298). -/
def State.linkLimit (s : State) (link : Nat) : Nat :=
  if s.fabricLink link then 4288 else (s.port (portOf link)).maxfrm

/-- Delivers an edited frame by its verdict (R298, R299, R302, R303). A frame for the remote-memory engine is the second
answer. -/
def State.deliver (s : State) (v : Verdict) (owner : Option Nat) (f : RxInfo) (rx : Nat) (bs : List Byte) : State × Option (List Byte) :=
  let die := dieOfLink f.link
  match v with
  | .none => (s.netDrop die 0, none)
  | .drop n => (s.netDrop die n, none)
  | .rma => (s, some bs)
  | .queue q o =>
    match s.enqueue q o f bs with
    | .written s' => (s'.charge ((s.eth.queues.find q).map (·.inst) |>.getD 0) 3 rx, none)
    | .noQueue s' => (s'.netDrop die 3, none)
    | .oldGen => (s.netDrop die 4, none)
    | .full s' => (s'.netDrop die 2, none)
  | .link l c =>
    if s.linkLimit l < bs.length + 4 then (s.netDrop die 5, none)
    else (s.egressDrop l c owner false (.eth (padTo 60 bs)) (wireLen (bs.length + 4)), none)
  | .fabric d c =>
    if 4224 < bs.length then (s.netDrop die 5, none)
    else
      let z : ZFrame := { s.zblank 0xD d with pcp := c, payload := padTo 60 bs }
      (match s.wayTo s.fabric.id d with | some l => s.egressDrop l c owner false (.zaren z) z.wire | none => s, none)

/-- The verdict of an action, in a class. -/
def verdictOf (a : List Byte) (owner : Option Nat) (cls : Nat) : Verdict :=
  match actVerdict a with
  | 1 => .queue (actTarget a % 4096) owner
  | 2 => .rma
  | 3 => .link (actTarget a % 64) cls
  | 4 => .drop 1
  | 5 => .fabric (actTarget a % 65536) cls
  | _ => .none

/-- Classification of a frame and its delivery (R295): the second answer is a frame for the remote-memory engine. -/
def State.classify (s : State) (link : Nat) (encap : Bool) (time : Nat) (bs : List Byte) : State × Option (List Byte) :=
  let port := s.port (portOf link)
  let die := dieOfLink link
  let tp := s.eth.tpid2.toNat
  let p := s.parse link bs
  let key := keyOf bs p link port.l3sel encap
  let rx := bs.length + 4
  let f : RxInfo :=
    { link, flags := 16 * bit encap, rule1 := 0xFFFFFFFF, rule2 := 0xFFFFFFFF, kinds := slice key 1 3, time }
  match s.bestRule die 1 none key with
  | none =>
    if port.roce && byteAt key 2 / 32 = 4 then s.deliver .rma none f rx bs
    else s.deliver (if port.dverdict = 1 then .queue port.dqueue none else .none) none f rx bs
  | some (k1, r1) =>
    let f := { f with rule1 := k1 }
    let dei : Bool := isTpid tp (wordAt bs 12 2) && bitAt (byteAt bs 14) 4
    let s := s.countRule k1 r1 rx
    let (s, col, mark, dropped) := s.meterRule r1 rx .green dei false
    if dropped then (s.netDrop die 1, none)
    else
      let owner := (s.eth.queues.find (actTarget r1.action % 4096)).map (·.inst)
      let two := if actVerdict r1.action = 1 then owner.bind fun o => s.bestRule die 2 (some o) key else none
      let (s, mark, dropped) := match two with
        | none => (s, mark, false)
        | some (k2, r2) =>
          let s := s.countRule k2 r2 rx
          let (s, _, mark, dropped) := s.meterRule r2 rx col dei mark
          (s, mark, dropped)
      let f := match two with | some (k2, _) => { f with rule2 := k2 } | none => f
      let mirror (s : State) : State := if actFlag r1.action 3 then s.mirrorCopy r1.action f bs else s
      if dropped then (mirror (s.netDrop die 1), none)
      else
        let act2 := two.map fun e => e.2.action
        let dropBy2 : Bool := match act2 with | some a => actVerdict a = 4 | none => false
        if actVerdict r1.action = 4 || dropBy2 then (mirror (s.netDrop die 1), none)
        else if actVerdict r1.action = 0 then (mirror (s.netDrop die 0), none)
        else
          let wants : Bool := actFlag r1.action 4 || (match act2 with | some a => actFlag a 4 | none => false)
          let (bs1, did) := if wants then decap bs p else (bs, false)
          match (applyEdit bs1 tp (slice r1.action 8 8)).bind fun b => applyEdit b tp (slice r1.action 16 8) with
          | none => (mirror (s.netDrop die 5), none)
          | some b =>
            let b := if mark then markDei b tp else b
            let cls := if actFlag r1.action 0 then fieldAt r1.action 2 1 % 8 else s.pcpOf b
            let v := match verdictOf r1.action owner cls, act2 with
              | .queue q o, some a => if actVerdict a = 1 then .queue (actTarget a % 4096) o else .queue q o
              | v, _ => v
            let (s, rma) := s.deliver v (some r1.owner) { f with flags := f.flags + 8 * bit did } rx b
            (mirror s, rma)

/-- The verdict that R435 asks of a frame at Doze: whether it wakes the device. -/
def State.frameWakes (s : State) (link : Nat) (bs : List Byte) : Bool :=
  let port := s.port (portOf link)
  let p := s.parse link bs
  let key := keyOf bs p link port.l3sel false
  match s.bestRule (dieOfLink link) 1 none key with
  | none => (port.roce && byteAt key 2 / 32 = 4) || port.dverdict = 1
  | some (_, r) => let v := actVerdict r.action; v = 1 || v = 2 || v = 3 || v = 5

/-! ## Links (R282 to R284) -/

/-- The state in which a link starts: negotiating, or FEC alignment with MEDIA 2 (R283). -/
def EthPort.startState (p : EthPort) : LinkState := if p.media = 2 then .fec else .negotiating

/-- The link's PHY goes down: its adjacencies go down with it (R255), what its neighbour announces is no longer in force (R271), and a
frame being sent ends (R284). -/
def State.phyDown (s : State) (link : Nat) : State := ((s.cutTx link).dropAdjs link).dropAnnounce link

/-- A link starts (R283), unless its die has failed or lacks its clock (R466, R484), or the rung keeps it down (R434). -/
def State.startLink (s : State) (link : Nat) : State :=
  if s.dieFailed (8 + dieOfLink link) || !s.pins.ethClk.getD (dieOfLink link) true || decide (3 ≤ s.power.rung) then s
  else s.modLink link fun x => { x with state := (s.port (portOf link)).startState, started := s.now }

/-- LINK_UP (R283): a link that was started completes its negotiation and trains, completes its training and aligns its FEC, or
completes that and enters Up; a restart of the PHY makes an unusable link usable again (R255). -/
def execLinkUp (link : Nat) (s : State) : Res :=
  .next <|
    if 64 ≤ link ∨ (s.link link).state = .down ∨ (s.link link).state = .up then s
    else if (s.link link).state = .negotiating then s.modLink link fun x => { x with state := .training }
    else if (s.link link).state = .training then s.modLink link fun x => { x with state := .fec }
    else
      let s := s.modLink link fun x => { x with state := .up, consec := 0, lfault := false, rfault := false }
      { s with fabric := { s.fabric with unusable := s.fabric.unusable.filter fun l => l ≠ link } }

/-- LINK_RESTART (R283): a link that is not Up within 1 s of starting starts again. -/
def execLinkRestart (link : Nat) (s : State) : Res :=
  .next <|
    if 64 ≤ link ∨ (s.link link).state = .down ∨ (s.link link).state = .up then s
    else
      let s := s.reach ((s.link link).started + 1000000000)
      let s := (s.modLink link fun x => { x with restarts := min 0xFFFFFFFF (x.restarts + 1), consec := x.consec + 1 }).startLink link
      if (s.link link).consec % 8 = 0 then s.raise blkNET 0x6006 none link (s.link link).state.code else s

/-- LINK_FAULT (R283): the faults of a link change; a fault takes a link out of Up, and the time-out of a start applies. -/
def execLinkFault (link : Nat) (lf rf phy : Bool) (s : State) : Res :=
  .next <|
    if 64 ≤ link then s
    else
      let s := s.modLink link fun x => { x with lfault := lf, rfault := rf }
      let s := if phy then s.phyDown link else s
      if (s.link link).state = .up && (lf || rf || phy) then (s.cutTx link).startLink link else s

/-- Takes every link of a port down (R284). -/
def State.portDown (s : State) (port : Nat) : State :=
  (List.range 4).foldl (fun s k =>
    let l := 4 * port + k
    if (s.link l).state = .down then s else (s.modLink l fun x => { x with state := .down, consec := 0 }).phyDown l) s

/-- Starts the links of a port that its SPLIT gives. -/
def State.portUp (s : State) (port : Nat) : State :=
  (List.range 4).foldl (fun s k => if subExists (s.port port).split k then s.startLink (4 * port + k) else s) s

/-- NET_PORTn as a register. -/
def EthPort.word (p : EthPort) : BitVec 64 :=
  pack [(63, 1, bit p.enable), (61, 2, p.split), (59, 2, p.media), (58, 1, bit p.roce), (57, 1, bit p.l3sel), (48, 4, p.depth),
    (32, 16, p.maxfrm), (30, 2, p.dverdict), (0, 12, p.dqueue)]

/-- Writes NET_PORTn: each field by its own rule, SPLIT and MEDIA only while ENABLE is 0, and a SPLIT that changes takes the queues
bound to a sub-port that no longer exists to STOPPED (R284, R322). A write that changes ENABLE too is judged by the ENABLE that it
writes, as R492 has it of fields that depend on another (DEDUCED, log entry 58). -/
def State.writePort (s : State) (port : Nat) (v : BitVec 64) : State :=
  let n := v.toNat
  let x := s.port port
  let split := bitsOf n 62 61
  let media := bitsOf n 60 59
  let depth := bitsOf n 51 48
  let maxf := bitsOf n 47 32
  let dv := bitsOf n 31 30
  let wantS := if split = 3 then x.split else split
  let wantM := if media = 3 then x.media else media
  let on := bitAt n 63
  let held : Bool := on && (wantS ≠ x.split || wantM ≠ x.media)
  let s := if held then s.raise blkNET 0x6001 none (0x0200000100 + 8 * port) n else s
  let y : EthPort :=
    { enable := on, split := if on then x.split else wantS, media := if on then x.media else wantM
      roce := bitAt n 58, l3sel := bitAt n 57, depth := if 1 ≤ depth ∧ depth ≤ 8 then depth else x.depth
      maxfrm := if 1518 ≤ maxf ∧ maxf ≤ 9728 then maxf else x.maxfrm, dverdict := if dv ≤ 1 then dv else x.dverdict
      dqueue := bitsOf n 11 0 }
  let s := s.modPort port fun _ => y
  let s : State := { s with traffic := { s.traffic with queues := s.traffic.queues.map fun (k, q) =>
    (k, if k / 1024 = port && !subExists y.split q.sub then { q with stopped := true } else q) } }
  if x.enable && !y.enable then s.portDown port
  else if !x.enable && y.enable && !s.dieFailed (8 + dieOfPort port) then s.portUp port
  else s

/-! ## Commands -/

/-- The rules an instance holds (R294). -/
def State.rulesOf (s : State) (i : Nat) : Nat := (s.eth.rules.filter fun e => e.2.owner = i).length

/-- The parameter fields of NET_RULE_SET. -/
def netRuleFields (_ : State) (ps : List Byte) : List (Nat × Bool) :=
  let a := slice ps 8 32
  let v := actVerdict a
  let m := fieldAt a 26 2
  let t := fieldAt a 28 2
  [below ps 2 1 64, below ps 3 1 2, rsv ps 6 2, (8, decide (v ≤ 5)), (9, decide (fieldAt a 1 1 < 32)), (10, decide (fieldAt a 2 1 < 8)),
   rsv ps 11 1,
   (12, if v = 1 then decide (actTarget a < 4096) else if v = 3 then decide (actTarget a < 64)
     else if v = 5 then decide (actTarget a < 65536) else decide (actTarget a = 0)),
   (16, editOk (slice a 8 8)), (24, editOk (slice a 16 8)), (32, decide (fieldAt a 24 2 < 16384)),
   (34, bitsOf m 14 12 = 0 && (bitAt m 15 || decide (m % 4096 < 64))),
   (36, t = 0 || (decide (64 ≤ t) && decide (t ≤ 4096) && t % 64 = 0)), rsv ps 38 2,
   (40, (List.zipWith (fun (v m : Byte) => v &&& ~~~m) (slice ps 40 80) (slice ps 120 80)).all fun b => b == 0)]

/-- NET_RULE_SET after its parameter checks (R294, R296, R297, R316). -/
def netRuleSetRun (s : State) (_ : Waiter) (i : Nat) (ps : List Byte) : Act :=
  let slot := fieldAt ps 0 2
  let own := fieldAt ps 2 1
  let stage := fieldAt ps 3 1 + 1
  let a := slice ps 8 32
  let who : Option Nat := (s.eth.rules.find slot).map (·.owner)
  let v := actVerdict a
  let n := fieldAt a 24 2
  let held : Bool := match s.traffic.meters.find n with | some m => m.owner = own | none => false
  if who.getD own ≠ own then fails s 0x6001
  else if who.isNone ∧ (s.inst own).shares.rule ≤ s.rulesOf own then fails s 0x6002
  else if (stage = 1 ∧ i ≠ 0) ∨ (stage = 2 ∧ ((v ≠ 0 ∧ v ≠ 1 ∧ v ≠ 4) ∨ actFlag a 0 ∨ actFlag a 3 ∨ fieldAt a 8 1 ≠ 0 ∨
      fieldAt a 16 1 ≠ 0)) then fails s 0x6003
  else if actFlag a 2 ∧ (n / 4096 ≠ slot / 16384 ∨ (stage = 2 ∧ !held)) then fails s 0x6004
  else
    let r : Rule :=
      { owner := own, stage, prio := fieldAt ps 4 2, value := slice ps 40 80, mask := slice ps 120 80, action := a, frames := 0, bytes := 0 }
    okay { s with eth := { s.eth with rules := s.eth.rules.put slot r, cleared := Tbl.del s.eth.cleared slot } }
/-- NET_RULE_SET. -/
def netRuleSetSpec : Spec :=
  { opcode := 0x6001, permits := ownAt 2, plen := fixed 200, fields := netRuleFields, run := netRuleSetRun }

/-- NET_RULE_SET (R296): writes a classification slot. -/
def execNetRuleSet (c : Cmd) (s : State) : Res := .next (s.command netRuleSetSpec c)

/-- NET_RULE_CLEAR. -/
def netRuleClearSpec : Spec :=
  { opcode := 0x6002, permits := anyone, plen := fixed 8, fields := fun _ ps => [rsv ps 2 6]
    run := fun s _ i ps =>
      let slot := fieldAt ps 0 2
      match s.eth.rules.find slot with
      | none => fails s 0x6005
      | some r =>
        if i ≠ 0 ∧ r.owner ≠ i then fails s 0x6001
        else if i ≠ 0 ∧ r.stage = 1 then fails s 0x6003
        else okay (s.clearRule slot r) }

/-- NET_RULE_CLEAR (R296): empties a slot. -/
def execNetRuleClear (c : Cmd) (s : State) : Res := .next (s.command netRuleClearSpec c)

/-- The parameters that set a rule, then its counters. -/
def Rule.image (r : Rule) (slot : Nat) : List Byte :=
  leBytes 2 slot ++ leBytes 1 r.owner ++ leBytes 1 (r.stage - 1) ++ leBytes 2 r.prio ++ zeros 2 ++ r.action ++ r.value ++ r.mask ++
  leBytes 8 r.frames.toNat ++ leBytes 8 r.bytes.toNat

/-- NET_RULE_GET. -/
def netRuleGetSpec : Spec :=
  { opcode := 0x6003, permits := anyone, plen := fixed 8, fields := fun _ ps => [rsv ps 2 6]
    run := fun s _ i ps =>
      let slot := fieldAt ps 0 2
      match s.eth.rules.find slot with
      | none => fails s 0x6005
      | some r => if i ≠ 0 ∧ r.owner ≠ i then fails s 0x6001 else gives s (r.image slot) }

/-- NET_RULE_GET (R293): returns a rule and its counters. -/
def execNetRuleGet (c : Cmd) (s : State) : Res := .next (s.command netRuleGetSpec c)

/-- A power of two between two bounds. -/
def powerIn (n lo hi : Nat) : Bool := decide (lo ≤ n) && decide (n ≤ hi) && decide (2 ^ Nat.log2 n = n)

/-- NET_QUEUE_SET after its parameter checks (R301). -/
def netQueueSetRun (s : State) (_ : Waiter) (_ : Nat) (ps : List Byte) : Act :=
  let q := fieldAt ps 0 2
  let own := fieldAt ps 2 1
  let len := fieldAt ps 4 4
  let ring := fieldAt ps 8 8
  let old := s.eth.queues.find q
  if len = 0 then
    if old.isNone then fails s 0x6005 else okay { s with eth := { s.eth with queues := Tbl.del s.eth.queues q } }
  else if !s.isActive own || !s.mapsRw own ring (len + 64) then fails s 0x6006
  else
    match s.ringReset clsNet own ring with
    | (s, false) => fails s 0x6006
    | (s', true) =>
      let x : RxQueue :=
        { inst := own, gen := s.genOf own, error := false, drops := (old.map (·.drops)).getD 0, ring, len, prod := 0, seq := 0 }
      okay { s' with eth := { s'.eth with queues := s'.eth.queues.put q x } }

/-- NET_QUEUE_SET. -/
def netQueueSetSpec : Spec :=
  { opcode := 0x6004, permits := managerOnly, plen := fixed 16
    fields := fun _ ps => [below ps 0 2 4096, below ps 2 1 64, rsv ps 3 1,
      (4, fieldAt ps 4 4 = 0 || powerIn (fieldAt ps 4 4) 0x10000 0x40000000), address ps 8 4096]
    run := netQueueSetRun }

/-- NET_QUEUE_SET (R301): creates, replaces or removes a receive queue. -/
def execNetQueueSet (c : Cmd) (s : State) : Res := .next (s.command netQueueSetSpec c)

/-- NET_QSTATq as a register. -/
def rxStat : Option RxQueue → BitVec 64
  | none => 0
  | some x => pack [(63, 1, 1), (62, 1, bit x.error), (56, 6, x.inst), (40, 16, x.gen.toNat), (0, 32, x.drops)]

/-- NET_QSTATq is read: DROPS is read and cleared. -/
def State.clearQstat (s : State) (q : Nat) : State :=
  match s.eth.queues.find q with
  | none => s
  | some x => { s with eth := { s.eth with queues := s.eth.queues.put q { x with drops := 0 } } }

/-- NET_QUEUE_GET. -/
def netQueueGetSpec : Spec :=
  { opcode := 0x6005
    permits := fun s i ps => i = 0 || (match s.eth.queues.find (fieldAt ps 0 2) with | some x => x.inst = i | none => false)
    plen := fixed 8, fields := fun _ ps => [below ps 0 2 4096, rsv ps 2 6]
    run := fun s _ _ ps =>
      let q := fieldAt ps 0 2
      match s.eth.queues.find q with
      | none => fails s 0x6005
      | some x => gives (s.clearQstat q) (leBytes 8 (rxStat (some x)).toNat) }

/-- NET_QUEUE_GET (R301): returns NET_QSTATq as it stood before the read. -/
def execNetQueueGet (c : Cmd) (s : State) : Res := .next (s.command netQueueGetSpec c)

end Sys2Proof.Machine
end

