-- ==== Sys2Proof/Machine/Cipher.lean ====
section
/-! DEFINITION. The cipher engine (spec/16): contexts, nonces, chained operations, the payloads of queue pairs, hashing, signature
verification, and the erasure of keys. -/

namespace Sys2Proof.Machine

/-! ## Contexts (R408 to R413) -/

/-- The bytes of a label. -/
def ascii (t : String) : List Byte := t.toList.map fun c => BitVec.ofNat 8 c.toNat

/-- The wrapping key of an instance (R409, R444). -/
def wrapKey (i : Nat) : List Byte := kdf Config.deviceSecret (ascii "FXD-WRAP") (leBytes 1 i) 32

/-- Key bytes of a mode. -/
def keyLen (mode : Nat) : Nat := match mode with | 1 => 16 | 2 => 32 | _ => 64

/-- Writes a context. -/
def State.putCtx (s : State) (n : Nat) (x : CipCtx) : State := { s with cipher := { s.cipher with ctxs := s.cipher.ctxs.put n x } }

/-- Adds 1 to CIP_STATn. -/
def State.cipStat (s : State) (n : Nat) : State := { s with cipher := { s.cipher with stats := s.cipher.stats.bump n } }

/-- The context of a number, when an instance (or the manager) holds it. -/
def State.heldCtx (s : State) (i n : Nat) : Option CipCtx :=
  match s.cipher.ctxs.find n with
  | some x => if i = 0 ∨ x.owner = i then some x else none
  | none => none

/-- Contexts an instance holds. -/
def State.ctxsOf (s : State) (i : Nat) : Nat := (s.cipher.ctxs.filter fun e => e.2.owner = i).length

/-- The IV of a context's next encryption (R412); none once the counter is exhausted. -/
def State.nextIv (s : State) (n : Nat) : Option (List Byte × State) :=
  let c := s.cipher.counters.getD n 0
  if 2 ^ 52 ≤ c then none
  else some (beBytes 4 s.boot.epoch ++ beBytes 8 (n * 2 ^ 52 + c),
    { s with cipher := { s.cipher with counters := s.cipher.counters.put n (c + 1) } })

/-- The key of a context for the payloads of packets: it is of mode 1 or 2 (R420). -/
def CipCtx.packetKey (x : CipCtx) : Option (List Byte) := if x.mode = 3 then none else x.key

/-- Encrypts the payload of a packet under a context, laid out as R420; none when the context is not keyed or its counter is
exhausted. -/
def State.sealPacket (s : State) (n : Nat) (aad pt : List Byte) : Option (List Byte × State) :=
  match s.cipher.ctxs.find n with
  | none => none
  | some x =>
    match x.packetKey, s.nextIv n with
    | some k, some (iv, s') => let (ct, tag) := gcmSeal k iv aad pt; some (iv ++ ct ++ tag, s')
    | _, _ => none

/-- What decrypting a packet's payload gives (R421). -/
inductive Unsealed where
  | ok (pt : List Byte) | notKeyed | failed
  deriving DecidableEq, Repr

/-- Decrypts the payload of a packet (R420, R421). -/
def State.openPacket (s : State) (n : Nat) (aad body : List Byte) : Unsealed :=
  match (s.cipher.ctxs.find n).bind CipCtx.packetKey with
  | none => .notKeyed
  | some k =>
    if body.length < 28 then .failed
    else
      match gcmOpen k (body.take 12) aad (slice body 12 (body.length - 28)) (body.drop (body.length - 16)) with
      | some pt => .ok pt
      | none => .failed

/-- References to a context by queue pairs and by namespaces (R411, CIP_CTX). -/
def State.qpRefs (s : State) (n : Nat) : Nat := (s.rma.qps.filter fun e => e.2.cipTx = some n ∨ e.2.cipRx = some n).length
def State.nsRefs (s : State) (n : Nat) : Nat := (s.storage.nss.filter fun e => e.2.cipher ∧ e.2.ciph = n).length

/-- CIP_CTX_SET after its parameter checks (R408 to R410). -/
def cipCtxSetRun (s : State) (_ : Waiter) (_ : Nat) (ps : List Byte) : Act :=
  let n := fieldAt ps 0 2
  let own := fieldAt ps 2 1
  let mode := fieldAt ps 3 1
  let wrapped : Bool := fieldAt ps 4 1 = 1
  let len := keyLen mode
  let place : Option Nat := if n = 0xFFFF then s.cipher.ctxs.free 4096 else some n
  let key : Option (List Byte) := if wrapped then kwUnwrap (wrapKey own) (slice ps 8 (len + 8)) else some (slice ps 8 len)
  let weak : Bool := match key with | some k => mode = 3 && k.take 32 == k.drop 32 | none => true
  if n = 0xFFFF ∧ (place.isNone ∨ (s.inst own).shares.ciph ≤ s.ctxsOf own) then fails s 0xA001
  else if n ≠ 0xFFFF ∧ (s.cipher.ctxs.find n).map (·.owner) ≠ some own then fails s 0xA002
  else if s.cipher.alarm then fails s 0xA00B
  else if weak || (wrapped && !s.cipher.keys) then fails s 0xA00A
  else
    let n := place.getD 0
    let keyid := BitVec.ofNat 64 (s.boot.epoch % 2 ^ 32 * 2 ^ 32 + s.cipher.loads % 2 ^ 32)
    let old := s.cipher.ctxs.find n
    let x : CipCtx :=
      { owner := own, gen := s.genOf own, mode, key, keyid, pend := old.bind (·.pend), chain := none }
    let s : State := { s with cipher := { s.cipher with ctxs := s.cipher.ctxs.put n x, loads := s.cipher.loads + 1 } }
    gives s (leBytes 2 n ++ zeros 6 ++ leBytes 8 keyid.toNat)

/-- CIP_CTX_SET. -/
def cipCtxSetSpec : Spec :=
  { opcode := 0xA001, permits := ownAt 2, plen := fixed 80
    fields := fun _ ps =>
      let len := keyLen (fieldAt ps 3 1) + 8 * fieldAt ps 4 1
      [(0, decide (fieldAt ps 0 2 < 4096) || fieldAt ps 0 2 = 0xFFFF), below ps 2 1 64, within ps 3 1 1 3, below ps 4 1 2, rsv ps 5 3,
       (8, allZero (slice ps (8 + len) (72 - len)))]
    run := cipCtxSetRun }

/-- CIP_CTX_SET (R410): allocates or keys a context. -/
def execCipCtxSet (c : Cmd) (s : State) : Res := .next (s.command cipCtxSetSpec c)

/-- CIP_CTX_FREE. -/
def cipCtxFreeSpec : Spec :=
  { opcode := 0xA002, permits := anyone, plen := fixed 8, fields := fun _ ps => [below ps 0 2 4096, rsv ps 2 6]
    run := fun s _ i ps =>
      let n := fieldAt ps 0 2
      if (s.heldCtx i n).isNone then fails s 0xA002
      else if s.qpRefs n ≠ 0 ∨ s.nsRefs n ≠ 0 then fails s 0xA00C
      else okay { s with cipher := { s.cipher with ctxs := Tbl.del s.cipher.ctxs n } } }

/-- CIP_CTX_FREE (R411): frees a context. -/
def execCipCtxFree (c : Cmd) (s : State) : Res := .next (s.command cipCtxFreeSpec c)

/-! ## Operations (R414 to R416) -/

/-- Zeroes the output of a decryption so far (R415). -/
def State.zeroOutput (s : State) (own : Nat) (ch : Chain) (n : Nat) : State :=
  if ch.dec ∧ 0 < n then (s.writeBy clsHost own ch.outBase (zeros n)).1 else s

/-- Closes the chain of a context; a decryption's earlier output is zeroed (R416). -/
def State.abortChain (s : State) (n : Nat) (x : CipCtx) : State :=
  let s := match x.chain with | some ch => s.zeroOutput x.owner ch ch.bytes | none => s
  s.putCtx n { x with chain := none }

/-- The parameter fields of CIP_OP, by the context's mode. -/
def cipOpFields (s : State) (ps : List Byte) : List (Nat × Bool) :=
  let mode : Option Nat := (s.cipher.ctxs.find (fieldAt ps 0 2)).map (·.mode)
  let xts : Bool := mode = some 3
  let gcm : Bool := mode.isSome && !xts
  let fl := fieldAt ps 2 1
  let first := bitAt fl 1
  let last := bitAt fl 2
  let inA := fieldAt ps 8 8
  let outA := fieldAt ps 16 8
  let len := fieldAt ps 24 8
  [below ps 0 2 4096, below ps 2 1 8, rsv ps 3 1,
   (4, fieldAt ps 4 4 = 0 || (!xts && first && decide (fieldAt ps 4 4 ≤ 65536))), address ps 8 1,
   (16, decide (outA < 2 ^ 48) && (decide (outA = inA) || decide (outA + len ≤ inA) || decide (inA + len ≤ outA))),
   within ps 24 8 0 1073741824, (32, if fieldAt ps 4 4 = 0 then fieldAt ps 32 8 = 0 else decide (fieldAt ps 32 8 < 2 ^ 48)),
   (40, decide (fieldAt ps 40 8 < 2 ^ 48) && (fieldAt ps 40 8 = 0 || (!xts && last))),
   (48, allZero (slice ps 48 12) || (!xts && bitAt fl 0 && first)), rsv ps 60 4, (64, fieldAt ps 64 8 = 0 || !gcm),
   (72, if gcm then fieldAt ps 72 4 = 0 else if xts then decide (16 ≤ fieldAt ps 72 4) && decide (fieldAt ps 72 4 ≤ 65536)
     else decide (fieldAt ps 72 4 ≤ 65536)), rsv ps 76 4]

/-- An XTS operation on a keyed context (R414). No chain is ever open on it; FIRST without LAST is log entry 44's. -/
def cipXts (s : State) (x : CipCtx) (key : List Byte) (ps : List Byte) : Act :=
  let len := fieldAt ps 24 8
  let du := fieldAt ps 72 4
  if !bitAt (fieldAt ps 2 1) 1 then fails s 0xA007
  else if !bitAt (fieldAt ps 2 1) 2 then fails s 0xA006
  else if len = 0 ∨ len % du ≠ 0 then fails s 0xA005
  else
    match s.cmdRead blkCIP x.owner (fieldAt ps 8 8) len (fieldAt ps 0 2) with
    | (s1, none) => fails s1 0xA009
    | (s1, some inp) =>
      let out := xtsUnits (bitAt (fieldAt ps 2 1) 0) key du (len / du) (fieldAt ps 64 8) inp
      match s1.cmdWrite blkCIP x.owner (fieldAt ps 16 8) (fieldAt ps 0 2) out with
      | (s2, false) => fails s2 0xA009
      | (s2, true) => gives (s2.cipStat 0) (zeros 16 ++ leBytes 8 len)

/-- One piece of a GCM operation whose chain stands as `ch`, `y0` before the piece (R414, R415). -/
def cipPiece (s : State) (n : Nat) (x : CipCtx) (key : List Byte) (ch : Chain) (ps : List Byte) : Act :=
  let len := fieldAt ps 24 8
  let last := bitAt (fieldAt ps 2 1) 2
  let ks := roundKeys key
  let fault (s : State) : Act := fails (s.abortChain n { x with chain := some ch }) 0xA009
  match s.cmdRead blkCIP x.owner (fieldAt ps 8 8) len n with
  | (s1, none) => fault s1
  | (s1, some inp) =>
    let out := gcmCtr ks ch.iv (len / 16 + 1) (2 + ch.bytes / 16) inp
    let y := ghashAll (gcmH ks) ch.y (if ch.dec then inp else out)
    let total := ch.bytes + len
    let tag := gcmTag ks ch.iv y ch.aadLen total
    let iv := if bitAt (fieldAt ps 2 1) 1 ∧ !ch.dec then ch.iv else zeros 12
    let reply := iv ++ zeros 4 ++ leBytes 8 total
    let given : State × Option (List Byte) :=
      if last && ch.dec then s1.cmdRead blkCIP x.owner (fieldAt ps 40 8) 16 n else (s1, some tag)
    match given with
    | (s2, none) => fault s2
    | (s2, some want) =>
      match s2.cmdWrite blkCIP x.owner (fieldAt ps 16 8) n out with
      | (_, false) => fault (s2.cmdWrite blkCIP x.owner (fieldAt ps 16 8) n out).1
      | (s3, true) =>
        if !last then gives (s3.putCtx n { x with chain := some { ch with bytes := total, y } }) reply
        else if ch.dec then
          if want = tag then gives ((s3.putCtx n { x with chain := none }).cipStat 0) reply
          else fails ((((s3.zeroOutput x.owner ch total).putCtx n { x with chain := none }).cipStat 0).cipStat 1) 0xA003
        else
          match s3.cmdWrite blkCIP x.owner (fieldAt ps 40 8) n tag with
          | (_, false) => fault (s2.cmdWrite blkCIP x.owner (fieldAt ps 40 8) n tag).1
          | (s4, true) => gives ((s4.putCtx n { x with chain := none }).cipStat 0) reply

/-- A GCM piece on a keyed context: the chain's rules, then the piece (R412 to R416). -/
def cipGcm (s : State) (n : Nat) (x : CipCtx) (key : List Byte) (ps : List Byte) : Act :=
  let fl := fieldAt ps 2 1
  let first := bitAt fl 1
  let last := bitAt fl 2
  let len := fieldAt ps 24 8
  let out := fieldAt ps 16 8
  let dec := bitAt fl 0
  match x.chain with
  | some ch =>
    if first then fails s 0xA007
    else if ch.dec ≠ dec then fails s 0xA007
    else if (!last && len % 16 ≠ 0) || out ≠ ch.outBase + ch.bytes || decide (0x4_0000_0000 < ch.bytes + len) then
      fails (s.abortChain n x) 0xA005
    else cipPiece s n x key ch ps
  | none =>
    if !first then fails s 0xA007
    else if !last && len % 16 ≠ 0 then fails s 0xA005
    else
      let aadLen := fieldAt ps 4 4
      let go (s : State) (iv : List Byte) : Act :=
        match s.cmdRead blkCIP x.owner (fieldAt ps 32 8) aadLen n with
        | (s1, none) => fails s1 0xA009
        | (s1, some aad) =>
          let ks := roundKeys key
          cipPiece s1 n x key { dec, iv, aadLen, bytes := 0, outBase := out, y := ghashAll (gcmH ks) 0 aad } ps
      if dec then go s (slice ps 48 12)
      else
        match s.nextIv n with
        | none => fails s 0xA008
        | some (iv, s') => go s' iv

/-- CIP_OP after its parameter checks. Work whose context is of an old generation is discarded (R424). -/
def cipOpRun (s : State) (_ : Waiter) (i : Nat) (ps : List Byte) : Act :=
  let n := fieldAt ps 0 2
  match s.heldCtx i n with
  | none => fails s 0xA002
  | some x =>
    if x.gen ≠ s.genOf x.owner then .wait (s.cipStat 2)
    else
      match x.key with
      | none => fails s 0xA004
      | some k => if x.mode = 3 then cipXts s x k ps else cipGcm s n x k ps

/-- CIP_OP. -/
def cipOpSpec : Spec := { opcode := 0xA003, permits := anyone, plen := fixed 80, fields := cipOpFields, run := cipOpRun }

/-- CIP_OP (R414): encrypts or decrypts a piece. -/
def execCipOp (c : Cmd) (s : State) : Res := .next (s.command cipOpSpec c)

/-! ## Chaining state (R417, R418) -/

/-- The state record of an open chain. -/
def chainRecord (n : Nat) (x : CipCtx) (ch : Chain) : List Byte :=
  [0x46, 0x58, 0x44, 0x43, 0x53, 0x54, 0x41, 0x54] ++ leBytes 2 1 ++ leBytes 2 n ++ leBytes 1 x.owner ++ leBytes 1 x.mode ++
  leBytes 1 (bit ch.dec) ++ zeros 1 ++ leBytes 8 x.keyid.toNat ++ ch.iv ++ leBytes 4 ch.aadLen ++ leBytes 8 ch.bytes ++
  leBytes 8 ch.outBase ++ blockBytes ch.y ++ zeros 56

/-- The counter field of an IV (R412). -/
def ivCounter (iv : List Byte) : Nat := beNat (slice iv 4 8) % 2 ^ 52

/-- The fields that CIP_STATE_SAVE and CIP_STATE_RESTORE share. -/
def cipStateFields (_ : State) (ps : List Byte) : List (Nat × Bool) := [below ps 0 2 4096, below ps 2 1 2, rsv ps 3 5, address ps 8 8]

/-- CIP_STATE_SAVE after its parameter checks (R417). -/
def cipStateSaveRun (s : State) (_ : Waiter) (i : Nat) (ps : List Byte) : Act :=
  let n := fieldAt ps 0 2
  let wrap : Bool := fieldAt ps 2 1 = 1
  match s.heldCtx i n with
  | none => fails s 0xA002
  | some x =>
    match x.chain with
    | none => fails s 0xA007
    | some ch =>
      if !ch.dec && !wrap then fails s 0xA00E
      else
        let r := chainRecord n x ch
        let (s', ok) := s.cmdWrite blkCIP x.owner (fieldAt ps 8 8) n (if wrap then kwWrap (wrapKey x.owner) r else r)
        if !ok then fails s' 0xA009
        else if ch.dec then okay s'
        else okay (s'.putCtx n { x with chain := none, pend := some (ivCounter ch.iv) })

/-- CIP_STATE_SAVE. -/
def cipStateSaveSpec : Spec :=
  { opcode := 0xA004, permits := anyone, plen := fixed 16, fields := cipStateFields, run := cipStateSaveRun }

/-- CIP_STATE_SAVE (R417): saves an open chain. -/
def execCipStateSave (c : Cmd) (s : State) : Res := .next (s.command cipStateSaveSpec c)

/-- The chain of a record that R418 does not refuse. -/
def chainFrom (n : Nat) (x : CipCtx) (wrapped : Bool) (r : List Byte) : Option Chain :=
  let dec : Bool := fieldAt r 14 1 = 1
  let iv := slice r 24 12
  if r.take 8 ≠ [0x46, 0x58, 0x44, 0x43, 0x53, 0x54, 0x41, 0x54] ∨ fieldAt r 8 2 ≠ 1 ∨ fieldAt r 10 2 ≠ n ∨ fieldAt r 12 1 ≠ x.owner ∨
      fieldAt r 16 8 ≠ x.keyid.toNat ∨ x.key.isNone ∨ (!dec ∧ (!wrapped ∨ x.pend ≠ some (ivCounter iv))) then none
  else some { dec, iv, aadLen := fieldAt r 36 4, bytes := fieldAt r 40 8, outBase := fieldAt r 48 8, y := blockOf (slice r 56 16) }

/-- CIP_STATE_RESTORE after its parameter checks (R418). -/
def cipStateRestoreRun (s : State) (_ : Waiter) (i : Nat) (ps : List Byte) : Act :=
  let n := fieldAt ps 0 2
  let wrap : Bool := fieldAt ps 2 1 = 1
  match s.heldCtx i n with
  | none => fails s 0xA002
  | some x =>
    if x.chain.isSome then fails s 0xA007
    else
      match s.cmdRead blkCIP x.owner (fieldAt ps 8 8) (if wrap then 136 else 128) n with
      | (s', none) => fails s' 0xA009
      | (s', some bs) =>
        match (if wrap then (if s.cipher.keys then kwUnwrap (wrapKey x.owner) bs else none) else some bs).bind (chainFrom n x wrap) with
        | none => fails s' 0xA00D
        | some ch => okay (s'.putCtx n { x with chain := some ch, pend := if ch.dec then x.pend else none })

/-- CIP_STATE_RESTORE. -/
def cipStateRestoreSpec : Spec :=
  { opcode := 0xA005, permits := anyone, plen := fixed 16, fields := cipStateFields, run := cipStateRestoreRun }

/-- CIP_STATE_RESTORE (R418): reopens a chain from a record. -/
def execCipStateRestore (c : Cmd) (s : State) : Res := .next (s.command cipStateRestoreSpec c)

/-! ## Queue pairs (R420) -/

/-- The queue pair that a QPN names, with its current incarnation (R329). -/
def State.qpByQpn (s : State) (qpn : Nat) : Option (Nat × Qp) :=
  let k := qpn % 2 ^ 18
  match s.rma.qps.find k with
  | some q => if s.rma.incarn.getD k 1 = qpn / 2 ^ 18 then some (k, q) else none
  | none => none

/-- CIP_QP_BIND after its parameter checks (R420). -/
def cipQpBindRun (s : State) (_ : Waiter) (i : Nat) (ps : List Byte) : Act :=
  let pick (o : Nat) : Option Nat := if fieldAt ps o 2 = 0xFFFF then none else some (fieldAt ps o 2)
  let tx := pick 4
  let rx := pick 6
  let held (c : Option Nat) : Bool := match c with | some n => (s.heldCtx i n).isSome | none => true
  let modeOk (c : Option Nat) : Bool := match c with
    | some n => (match s.cipher.ctxs.find n with | some x => x.mode ≠ 3 | none => false) | none => true
  let ownedBy (o : Nat) (c : Option Nat) : Bool := match c with
    | some n => (s.cipher.ctxs.find n).map (·.owner) = some o | none => true
  if !held tx || !held rx then fails s 0xA002
  else if !modeOk tx || !modeOk rx then fails s 0xA006
  else
    match s.qpByQpn (fieldAt ps 0 4) with
    | none => fails s 0xA010
    | some (k, q) =>
      if (i ≠ 0 ∧ q.inst ≠ i) ∨ (q.state ≠ .reset ∧ q.state ≠ .init) ∨ !ownedBy q.inst tx ∨ !ownedBy q.inst rx then fails s 0xA010
      else okay { s with rma := { s.rma with qps := s.rma.qps.put k { q with cipTx := tx, cipRx := rx } } }

/-- CIP_QP_BIND. -/
def cipQpBindSpec : Spec :=
  { opcode := 0xA006, permits := anyone, plen := fixed 8
    fields := fun _ ps => [below ps 0 4 0x1000000, (4, decide (fieldAt ps 4 2 < 4096) || fieldAt ps 4 2 = 0xFFFF),
      (6, decide (fieldAt ps 6 2 < 4096) || fieldAt ps 6 2 = 0xFFFF)]
    run := cipQpBindRun }

/-- CIP_QP_BIND (R420): binds contexts to a queue pair. -/
def execCipQpBind (c : Cmd) (s : State) : Res := .next (s.command cipQpBindSpec c)

/-! ## Hashing and verification (R406) -/

/-- CIP_HASH. -/
def cipHashSpec : Spec :=
  { opcode := 0xA007, permits := anyone, plen := fixed 16
    fields := fun _ ps => [address ps 0 1, within ps 8 8 0 0x4_0000_0000]
    run := fun s _ i ps =>
      match s.cmdRead blkCIP i (fieldAt ps 0 8) (fieldAt ps 8 8) 0 with
      | (s', none) => fails s' 0xA009
      | (s', some bs) => gives s' (sha256 bs) }

/-- CIP_HASH (R406): SHA-256 of a range. -/
def execCipHash (c : Cmd) (s : State) : Res := .next (s.command cipHashSpec c)

/-- CIP_LMS_VERIFY after its parameter checks. -/
def cipLmsRun (s : State) (_ : Waiter) (i : Nat) (ps : List Byte) : Act :=
  match s.cmdRead blkCIP i (fieldAt ps 32 8) 60 0 with
  | (s1, none) => fails s1 0xA009
  | (s1, some pub) =>
    match s1.cmdRead blkCIP i (fieldAt ps 16 8) (fieldAt ps 24 4) 0 with
    | (s2, none) => fails s2 0xA009
    | (s2, some sig) =>
      match s2.cmdRead blkCIP i (fieldAt ps 0 8) (fieldAt ps 8 8) 0 with
      | (s3, none) => fails s3 0xA009
      | (s3, some msg) =>
        match hssVerify pub msg sig with
        | none => fails s3 0xA00F
        | some ok => gives s3 (leBytes 8 (bit ok))

/-- CIP_LMS_VERIFY. -/
def cipLmsSpec : Spec :=
  { opcode := 0xA008, permits := anyone, plen := fixed 40
    fields := fun _ ps => [address ps 0 1, within ps 8 8 0 0x4_0000_0000, address ps 16 1, within ps 24 4 1 131072, rsv ps 28 4, address ps 32 1]
    run := cipLmsRun }

/-- CIP_LMS_VERIFY (R406): verifies an HSS signature. -/
def execCipLmsVerify (c : Cmd) (s : State) : Res := .next (s.command cipLmsSpec c)

/-! ## Erasure (R422, R423) -/

/-- An alarm erases every key, open chain and PEND; the output of an open decryption is zeroed, and storage commands under a key
will end with SC 0x06 (R423). -/
def State.eraseKeys (s : State) : State :=
  let s := s.cipher.ctxs.foldl (fun s e => match e.2.chain with | some ch => s.zeroOutput e.2.owner ch ch.bytes | none => s) s
  let c : Cipher := {
    s.cipher with
    ctxs := s.cipher.ctxs.map fun (k, x) => (k, { x with key := none, keyid := 0, pend := none, chain := none })
    keys := false, alarm := true, erasures := min 0xFFFFFFFF (s.cipher.erasures + 1) }
  let st : Storage := {
    s.storage with
    cmds := s.storage.cmds.map fun (k, c) => (k, if c.key.isSome then { c with fail := some (0, 6) } else c) }
  { s with cipher := c, storage := st }

/-- The wrapping keys are derived again and ALARM clears (R422). -/
def State.rearmKeys (s : State) : State := { s with cipher := { s.cipher with keys := true, alarm := false } }

/-- CIP_STATUS as a register. -/
def State.cipStatus (s : State) : BitVec 64 := pack [(63, 1, bit s.cipher.alarm), (0, 32, s.cipher.erasures)]

end Sys2Proof.Machine
end

