-- ==== Sys2Proof/Machine/RocePackets.lean ====
section
/-! DEFINITION. RoCEv2 packets on the wire (spec/13, R324 to R326): headers, the ICRC, reading a frame, and handing a frame to the
egress queues. -/

namespace Sys2Proof.Machine

/-! ## CRC-32 and the ICRC (R324) -/

/-- One bit of the Ethernet CRC-32, reflected. -/
def eCrcBit (c : Nat) : Nat := if c % 2 = 1 then (c / 2) ^^^ 0xEDB88320 else c / 2

/-- One byte of the Ethernet CRC-32. -/
def eCrcByte (c : Nat) (b : Byte) : Nat :=
  eCrcBit (eCrcBit (eCrcBit (eCrcBit (eCrcBit (eCrcBit (eCrcBit (eCrcBit (c ^^^ b.toNat))))))))

/-- The Ethernet CRC-32 of bytes. -/
def crc32 (bs : List Byte) : Nat := (bs.foldl eCrcByte 0xFFFFFFFF) ^^^ 0xFFFFFFFF

/-- The ICRC of a packet: its network header, UDP header and the bytes from the BTH on, with the variant fields as ones. -/
def icrcOf (v6 : Bool) (ip udp body : List Byte) : List Byte :=
  let f : Byte := 0xFF
  let ip' :=
    if v6 then [ip.getD 0 0 ||| 0x0F, f, f, f] ++ slice ip 4 3 ++ [f] ++ ip.drop 8
    else ip.take 1 ++ [f] ++ slice ip 2 6 ++ [f] ++ slice ip 9 1 ++ [f, f] ++ ip.drop 12
  leBytes 4 (crc32 (List.replicate 8 f ++ ip' ++ udp.take 6 ++ [f, f] ++ body.take 4 ++ [f] ++ body.drop 5))

/-! ## Building (R325) -/

/-- Path MTU in bytes (RMA_QP_MODIFY). -/
def mtuBytes (m : Nat) : Nat := match m with | 0 => 1024 | 1 => 2048 | _ => 4096

/-- Data bytes a packet carries: the MTU, less IV and tag when its payload is sealed (R420). -/
def dataMtu (m : Nat) (ctx : Option Nat) : Nat := mtuBytes m - if ctx.isSome then 28 else 0

/-- A base transport header. -/
def bthBytes (op pad dqpn : Nat) (ackReq : Bool) (psn : BitVec 24) : List Byte :=
  leBytes 1 op ++ leBytes 1 (16 * pad) ++ beBytes 2 0xFFFF ++ zeros 1 ++ beBytes 3 dqpn ++ leBytes 1 (128 * bit ackReq) ++
  beBytes 3 psn.toNat

/-- An RDMA extended transport header. -/
def rethBytes (va rkey len : Nat) : List Byte := beBytes 8 va ++ beBytes 4 rkey ++ beBytes 4 len

/-- An acknowledge extended transport header. -/
def aethBytes (syndrome : Nat) (msn : BitVec 24) : List Byte := leBytes 1 syndrome ++ beBytes 3 msn.toNat

/-- Padding to a multiple of four bytes. -/
def padOf (n : Nat) : Nat := (4 - n % 4) % 4

/-- The UDP source port of a queue pair (R325). -/
def sportOf (p : QpPath) (k : Nat) : Nat := if p.sport = 0 then 0xC000 + k % 0x4000 else p.sport

/-- A frame of a queue pair, from destination address up to the FCS, around the bytes from the BTH to the padding (R325). -/
def roceFrame (p : QpPath) (k : Nat) (body : List Byte) : List Byte :=
  let ulen := 8 + body.length + 4
  let udp := beBytes 2 (sportOf p k) ++ beBytes 2 4791 ++ beBytes 2 ulen ++ zeros 2
  let ip :=
    if p.ipv6 then
      beBytes 4 (0x60000000 + p.tos * 2 ^ 20) ++ beBytes 2 ulen ++ [17] ++ leBytes 1 p.ttl ++ p.sip ++ p.dip
    else
      let h := [0x45] ++ leBytes 1 p.tos ++ beBytes 2 (20 + ulen) ++ zeros 2 ++ [0x40, 0x00] ++ leBytes 1 p.ttl ++ [17]
      let a := p.sip.drop 12 ++ p.dip.drop 12
      h ++ beBytes 2 (0xFFFF - onesSum (h ++ zeros 2 ++ a)) ++ a
  p.dmac ++ p.smac ++ (if p.tagged then [0x81, 0x00] ++ beBytes 2 p.tci.toNat else []) ++
  (if p.ipv6 then [0x86, 0xDD] else [0x08, 0x00]) ++ ip ++ udp ++ body ++ icrcOf p.ipv6 ip udp body

/-- The length of such a frame from destination address to FCS, with extended headers and payload of given lengths. -/
def roceLen (p : QpPath) (ext payload : Nat) : Nat :=
  14 + (if p.tagged then 4 else 0) + (if p.ipv6 then 40 else 20) + 8 + 12 + ext + payload + padOf payload + 4 + 4

/-! ## Reading (R326) -/

/-- The opcodes of R324. -/
def roceOps : List Nat := [0x06, 0x07, 0x08, 0x0A, 0x0C, 0x0D, 0x0E, 0x0F, 0x10, 0x11]

/-- The packet has a RETH. -/
def hasReth (op : Nat) : Bool := op = 0x06 || op = 0x0A || op = 0x0C
/-- The packet has an AETH. -/
def hasAeth (op : Nat) : Bool := op = 0x0D || op = 0x0F || op = 0x10 || op = 0x11

/-- The packet a frame holds; one that cannot be read as RoCEv2 reads as one whose ICRC fails. -/
def roceOf (bs : List Byte) (tpid2 stamp : Nat) : RocePkt :=
  let bad : RocePkt :=
    { icrcOk := false, tver := 0, pkey := 0, opcode := 0, dqpn := 0, psn := 0, ackReq := false, va := 0, rkey := 0, dmaLen := 0
      syndrome := 0, payload := [], frameLen := bs.length + 4, stamp }
  match (layoutOf bs tpid2).ip with
  | none => bad
  | some (o, v6) =>
    match (walkIp bs bs.length v6 o).1 with
    | none => bad
    | some h =>
      let u := h.fin
      let ulen := wordAt bs (u + 4) 2
      if h.proto ≠ 17 ∨ !h.go ∨ wordAt bs (u + 2) 2 ≠ 4791 ∨ ulen < 24 ∨ bs.length < u + ulen then bad
      else
        let body := slice bs (u + 8) (ulen - 12)
        let op := byteAt body 0
        let e := 12 + if hasReth op then 16 else if hasAeth op then 4 else 0
        let pad := byteAt body 1 / 16 % 4
        if body.length < e + pad then bad
        else
          { icrcOk := icrcOf v6 (slice bs o (u - o)) (slice bs u 8) body = slice bs (u + ulen - 4) 4
            tver := byteAt body 1 % 16, pkey := wordAt body 2 2, opcode := op, dqpn := wordAt body 5 3
            psn := BitVec.ofNat 24 (wordAt body 9 3), ackReq := bitAt (byteAt body 8) 7
            va := if hasReth op then wordAt body 12 8 else 0, rkey := if hasReth op then wordAt body 20 4 else 0
            dmaLen := if hasReth op then wordAt body 24 4 else 0, syndrome := if hasAeth op then byteAt body 12 else 0
            payload := slice body e (body.length - e - pad), frameLen := bs.length + 4, stamp }

/-- The additional data of a sealed payload as it was sent: the BTH and, when there is one, the RETH (R420). -/
def RocePktAad (p : RocePkt) : List Byte :=
  bthBytes p.opcode (padOf p.payload.length) p.dqpn p.ackReq p.psn ++ if hasReth p.opcode then rethBytes p.va p.rkey p.dmaLen else []

/-! ## Queue pairs in the state -/

/-- Adds to RMA_STATn of a die. -/
def State.rmaStat (s : State) (die n : Nat) (by_ : Nat := 1) : State :=
  { s with rma := { s.rma with stats := s.rma.stats.bump (8 * die + n) by_ } }

/-- Writes a queue pair. -/
def State.putQp (s : State) (k : Nat) (q : Qp) : State := { s with rma := { s.rma with qps := s.rma.qps.put k q } }

/-- Changes a queue pair that exists. -/
def State.modQp (s : State) (k : Nat) (g : Qp → Qp) : State :=
  match s.rma.qps.find k with | some q => s.putQp k (g q) | none => s

/-- The context is pinned (R342). -/
def Qp.pinned (q : Qp) : Bool :=
  !q.unacked.isEmpty || !q.resps.isEmpty || q.reqs.any fun r => r.op = 2 && r.started && r.status.isNone

/-- Cached, and pinned, contexts of a die. -/
def State.cachedOn (s : State) (die : Nat) : Nat := (s.rma.qps.filter fun e => e.2.home = die ∧ e.2.cached).length
def State.pinnedOn (s : State) (die : Nat) : Nat := (s.rma.qps.filter fun e => e.2.home = die ∧ e.2.pinned).length

/-- Hands a frame of a queue pair to its path: by ENCAP when FABRIC is set, else on its link (R325). -/
def State.rocePut (s : State) (q : Qp) (frame : List Byte) (mark : Option (Nat × BitVec 24)) : Egress :=
  if q.path.fabric then
    let z : ZFrame := { s.zblank 0xD q.path.destId with pcp := q.path.cls, payload := padTo 60 frame }
    match s.wayTo s.fabric.id q.path.destId with
    | some l => s.egress l q.path.cls (some q.inst) false true (.zaren z) z.wire mark
    | none => .done s
  else s.egress q.path.link q.path.cls (some q.inst) false true (.eth (padTo 60 frame)) (wireLen (frame.length + 4)) mark

/-! ## The context cache (R342, R343) -/

/-- The least recently used context of a die that is not pinned. -/
def State.victim (s : State) (die : Nat) : Option Nat :=
  ((s.rma.qps.filter fun e => e.2.home = die && e.2.cached && !e.2.pinned).foldl
    (fun (best : Option (Nat × Nat)) e => match best with
      | none => some (e.1, e.2.used)
      | some (k, u) => if e.2.used < u then some (e.1, e.2.used) else some (k, u)) none).map (·.1)

/-- A context is written back to its slot: its 256 bytes have no layout in this spec, so the slot then holds a free value (log
entry 7). -/
def State.evict (s : State) (k : Nat) : State :=
  match s.rma.qps.find k with
  | none => s
  | some q =>
    let (v, s) := s.takeFree
    let s := match s.rma.ctxArea with | some a => (s.store (a + 256 * k) (leBytes 256 v)).1 | none => s
    (s.putQp k { q with cached := false }).rmaStat q.home 2

/-- A context is used: its place in the order of use. -/
def State.touchQp (s : State) (k : Nat) : State :=
  let n := s.rma.clockUse + 1
  let s : State := { s with rma := { s.rma with clockUse := n } }
  s.modQp k fun q => { q with used := n }

/-- Brings a context into its home die's cache; none when every cached context is pinned. -/
def State.fetchQp (s : State) (k : Nat) : Option State :=
  match s.rma.qps.find k with
  | none => none
  | some q =>
    if q.cached then some (s.touchQp k)
    else
      let room : Option State := if s.cachedOn q.home < 1024 then some s else (s.victim q.home).map fun v => s.evict v
      room.map fun s => ((s.modQp k fun q => { q with cached := true }).rmaStat q.home 1).touchQp k

/-! ## Errors and completions (R334, R347) -/

/-- Requests finish: the one at an index with its status and syndrome, every other unfinished one flushed (R347). -/
def flushReqs (blame : Option (Nat × Nat × Nat)) (rs : List WorkReq) : List WorkReq :=
  (rs.zipIdx).map fun (r, i) =>
    if r.status.isSome then r
    else match blame with
      | some (j, st, syn) => if i = j then { r with status := some (st, syn) } else { r with status := some (1, 0) }
      | none => { r with status := some (1, 0) }

/-- A queue pair enters Error (R347). -/
def State.qpError (s : State) (k : Nat) (blame : Option (Nat × Nat × Nat)) : State :=
  s.modQp k fun q =>
    { q with
      state := .error, reqs := flushReqs blame q.reqs, unacked := [], resps := [], inMsg := none, parked := [], probing := false
      ackDue := 0, ackSince := none, owed := [] }

/-- The request of a PSN, by its index. -/
def Qp.reqOf (q : Qp) (psn : BitVec 24) : Option (Nat × WorkReq) :=
  ((q.reqs.zipIdx).find? fun e => decide ((psn - e.1.psn0).toNat < e.1.npsn) && e.1.status.isNone).map fun e => (e.2, e.1)

/-- A finished request needs a completion entry (R334); one that an engine posted has none (R329). -/
def WorkReq.entry (r : WorkReq) : Bool := !r.eng && match r.status with | some (st, _) => st ≠ 0 || r.signal | none => false

/-- What a request of an engine came to is there for the engine (R329). -/
def State.engEnds (s : State) (r : WorkReq) : State :=
  { s with rma := { s.rma with engDone := s.rma.engDone.put r.wrid.toNat { ok := r.status.any fun e => e.1 = 0, data := if r.op = 2 then r.data else [] } } }

/-- Advances the send ring's CONS past a request and forgets it. -/
def State.passReq (s : State) (k : Nat) : State :=
  match s.rma.qps.find k with
  | none => s
  | some q =>
    match q.reqs with
    | [] => s
    | r :: rest =>
      if r.eng then (s.putQp k { q with reqs := rest }).engEnds r
      else
        let cons := (r.off + 64) % q.sqLen
        let s := s.putQp k { q with reqs := rest, cons }
        match s.writeBy clsNet q.inst (q.sq + 8) (leBytes 8 cons) with
        | (s, .ok _) => s
        | (s, .error _) => s.qpError k none

/-- Requests at the head that finished without needing an entry are passed, in ring order (R334). -/
def State.retire (s : State) (k : Nat) : Nat → State
  | 0 => s
  | n + 1 =>
    match (s.rma.qps.find k).bind fun q => q.reqs.head? with
    | some r => if r.status.isSome && !r.entry then State.retire (s.passReq k) k n else s
    | none => s

/-- Every silent head is passed. -/
def State.retireAll (s : State) (k : Nat) : State :=
  match s.rma.qps.find k with | some q => s.retire k q.reqs.length | none => s

/-! ## Congestion control (R344 to R346) -/

/-- The window after a sample of `rtt` ns for `b` bytes. -/
def State.sample (s : State) (k rtt b : Nat) : State :=
  match s.rma.qps.find k with
  | none => s
  | some q =>
    let base := if q.base = 0 then rtt else min q.base rtt
    let t := base + s.rma.target
    let q := { q with base, minRtt := some (match q.minRtt with | some m => min m rtt | none => rtt) }
    let q :=
      if rtt ≤ t then { q with w := min 16777216 (q.w + s.rma.ai * b / max 1 q.w) }
      else if rtt ≤ s.now - q.lastCut then { q with w := max 256 (q.w * (rtt + t) / (2 * rtt)), lastCut := s.now }
      else q
    let dest := if q.path.fabric then leBytes 2 q.path.destId else q.path.dip
    let old := (s.rma.paths.getD q.home []).filter fun e => e.1 ≠ dest
    let new := ((dest, base, s.now) :: old).take 4096
    let s := s.putQp k q
    { s with rma := { s.rma with paths := s.rma.paths.put q.home new } }

end Sys2Proof.Machine
end

