-- ==== Sys2Proof/Machine/Roce.lean ====
section
/-! DEFINITION. Queue pairs at work (spec/13, R327 to R349): the requester, the responder, acknowledgements, retransmission, the
context cache and the doorbells. -/

namespace Sys2Proof.Machine

/-! ## Sending (R333, R337, R345) -/

/-- The packet of a request: its headers from the BTH on, payload in clear, and whether it asks for an acknowledgement. -/
structure ReqPkt where
  op    : Nat
  reth  : List Byte
  ack   : Bool
  psn   : BitVec 24
  place : Option Nat
  data  : List Byte
  len   : Nat
  deriving DecidableEq, Repr

/-- Packet `j` of a request (R333); a READ is asked again from the first byte not yet received. `place` is the local address its
data is read from. -/
def packetOf (q : Qp) (r : WorkReq) (j : Nat) : ReqPkt :=
  if r.op = 2 then
    let m := dataMtu q.mtu q.cipRx
    { op := 0x0C, reth := rethBytes (r.raddr + r.got) r.rkey (r.len - r.got), ack := true, psn := r.psn0 + BitVec.ofNat 24 (r.got / m)
      place := none, data := [], len := 0 }
  else
    let m := dataMtu q.mtu q.cipTx
    let n := min m (r.len - m * j)
    let op := if r.npsn = 1 then 0x0A else if j = 0 then 0x06 else if j + 1 = r.npsn then 0x08 else 0x07
    { op, reth := if hasReth op then rethBytes r.raddr r.rkey r.len else [], ack := decide (j + 1 = r.npsn) || j % 8 = 7
      psn := r.psn0 + BitVec.ofNat 24 j, place := if r.eng ∨ n = 0 then none else some (r.laddr + m * j)
      data := if r.eng then slice r.data (m * j) n else [], len := n }

/-- The zero-length WRITE that measures a cold path; it took the PSN before the first request's (R346). -/
def probePkt (q : Qp) : ReqPkt :=
  { op := 0x0A, reth := rethBytes 0 0 0, ack := true, psn := (match q.reqs with | r :: _ => r.psn0 | [] => q.sqPsn) - 1, place := none, data := [], len := 0 }

/-- The frame length of a request packet. -/
def ReqPkt.frameLen (x : ReqPkt) (q : Qp) : Nat :=
  roceLen q.path x.reth.length (if x.op = 0x0C then 0 else x.len + if q.cipTx.isSome then 28 else 0)

/-- What sending a request packet came to. -/
inductive SendRes where
  | sent (s : State) | wait | failed (s : State)
  deriving DecidableEq, Repr

/-- Reads the data of a request packet, seals it and hands the frame to the path (R325, R349, R420). -/
def State.sendRequest (s : State) (k : Nat) (q : Qp) (x : ReqPkt) : SendRes :=
  if s.genOf q.inst ≠ q.gen then .sent (s.rmaStat q.home 5)
  else
    let got : State × Except AccErr (List Byte) := match x.place with | some a => s.readBy clsNet q.inst a x.len | none => (s, .ok x.data)
    match got with
    | (s, .error _) => .failed s
    | (s, .ok pt) =>
      let lane : Option Nat := if x.op = 0x0C then none else q.cipTx
      let plen := x.len + if lane.isSome then 28 else 0
      let bth := bthBytes x.op (padOf plen) q.dqpn x.ack x.psn
      let body : Option (List Byte × State) := match lane with
        | some c => s.sealPacket c (bth ++ x.reth) pt
        | none => some (pt, s)
      match body with
      | none => .failed s
      | some (b, s) =>
        match s.rocePut q (roceFrame q.path k (bth ++ x.reth ++ b ++ zeros (padOf b.length))) (some (k, x.psn)) with
        | .wait => .wait
        | .done s' => .sent s'

/-- Notes that a request packet was sent: a new one becomes unacknowledged, a resent one is counted. -/
def Qp.noteSent (q : Qp) (x : ReqPkt) (again : Bool) (now : Nat) : Qp :=
  let u : SentPkt := { psn := x.psn, bytes := x.frameLen q, at_ := now, sends := 1, ack := x.ack, again := false }
  if again then
    { q with unacked := q.unacked.map fun (y : SentPkt) => if y.psn = x.psn then { y with at_ := now, sends := y.sends + 1, again := false } else y }
  else { q with unacked := q.unacked ++ [u] }

/-- A new request packet may begin (R345). -/
def Qp.windowOk (q : Qp) (n : Nat) : Bool := q.unacked.isEmpty || decide ((q.unacked.map (·.bytes)).sum + n ≤ q.w)

/-- READs that are outstanding. -/
def Qp.readsOut (q : Qp) : Nat := (q.reqs.filter fun r => r.op = 2 && r.started && r.status.isNone).length

/-- The first request with packets still to be sent, by its index, when its fence and the READ depth let it go on (R333). -/
def Qp.nextReq (q : Qp) : Option (Nat × WorkReq) :=
  match ((q.reqs.zipIdx).find? fun e => e.1.status.isNone && decide (e.1.sent < if e.1.op = 2 then 1 else e.1.npsn)) with
  | none => none
  | some (r, i) =>
    let fenced : Bool := r.fence && (q.reqs.take i).any fun y => y.op = 2 && y.status.isNone
    if (!r.started && fenced) || (r.op = 2 && decide (q.initDepth ≤ q.readsOut)) then none else some (i, r)

/-- What the queue pair sends next as requester: a packet, whether it is a resend, and the index of its request. -/
def Qp.nextPacket (q : Qp) : Option (ReqPkt × Bool × Option Nat) :=
  match q.unacked.find? (·.again) with
  | some u =>
    if q.probing then some ({ probePkt q with psn := u.psn }, true, none)
    else (q.reqOf u.psn).map fun (i, r) => (packetOf q r (u.psn - r.psn0).toNat, true, some i)
  | none =>
    if q.probing then if q.unacked.isEmpty then some (probePkt q, false, none) else none
    else q.nextReq.map fun (i, r) => (packetOf q r r.sent, false, some i)

/-- The completion ring's next place is free: its PROD, or none when the ring is full; an error when it is unusable. -/
def State.cqRoom (s : State) (q : Qp) : Except Unit Bool :=
  match s.readInst q.inst (q.cq + 8) 8 with
  | .error _ => .error ()
  | .ok b =>
    let c := leNat b
    if c % 32 ≠ 0 ∨ q.cqLen ≤ c then .error () else .ok (decide ((q.cqProd + 32) % q.cqLen ≠ c))

/-- A completion waits for room in its ring: no new request is started (R334). -/
def State.stalled (s : State) (q : Qp) : Bool := q.reqs.any (·.entry) && match s.cqRoom q with | .ok b => !b | .error _ => true

/-- One request packet is sent if R334, R342 and R345 allow it. -/
def State.sendOne (s : State) (k : Nat) : SendRes :=
  match s.rma.qps.find k with
  | none => .wait
  | some q =>
    if q.state ≠ .rts then .wait
    else
      match q.nextPacket with
      | none => .wait
      | some (x, again, i) =>
        let starts : Bool := !again && match i.bind fun j => q.reqs[j]? with | some r => !r.started | none => false
        if (!again && !q.windowOk (x.frameLen q)) || (!q.pinned && decide (768 ≤ s.pinnedOn q.home)) || (starts && s.stalled q) then .wait
        else
          match s.fetchQp k with
          | none => .wait
          | some s =>
            match s.sendRequest k q x with
            | .wait => .wait
            | .failed s => .sent ((s.qpError k (i.map fun j => (j, 2, 0))).retireAll k)
            | .sent s' =>
              let s' := s'.modQp k fun q =>
                let q := q.noteSent x again s.now
                if again then q
                else match i with
                  | none => q
                  | some j => { q with reqs := (q.reqs.zipIdx).map fun (r, n) =>
                      if n = j then { r with sent := r.sent + 1, started := true } else r }
              .sent (if again then s'.rmaStat q.home 7 else s')

/-- Resends every packet marked to be resent, while the egress queue has room. -/
def State.pumpResend (s : State) (k : Nat) : Nat → State
  | 0 => s
  | n + 1 =>
    match s.rma.qps.find k with
    | none => s
    | some q =>
      if q.unacked.any (·.again) then
        match s.sendOne k with
        | .sent s' => State.pumpResend s' k n
        | _ => s
      else s

/-- A resend from a PSN on: it counts against RETRY (R337). -/
def State.resendFrom (s : State) (k : Nat) (psn : BitVec 24) : State :=
  match s.rma.qps.find k with
  | none => s
  | some q =>
    if q.retry ≤ q.retries then
      let who : Option Nat := (q.unacked.head?.bind fun u => q.reqOf u.psn).map (·.1)
      (s.qpError k (who.map fun i => (i, 6, 0))).retireAll k
    else
      let s := s.putQp k { q with
        retries := q.retries + 1
        unacked := q.unacked.map fun (u : SentPkt) => if psnLe psn u.psn then { u with again := true } else u }
      s.pumpResend k q.unacked.length

/-! ## Acknowledgements at the requester (R337, R344) -/

/-- The unacknowledged entry is a READ request that still misses data. -/
def Qp.openRead (q : Qp) (u : SentPkt) : Bool := match q.reqOf u.psn with | some (_, r) => r.op = 2 | none => false

/-- Everything up to a PSN is acknowledged, but for READs, which their responses acknowledge. `stamp` is the receive stamp of an
acknowledgement packet, and none for a response. -/
def State.ackUpTo (s : State) (k : Nat) (psn : BitVec 24) (stamp : Option Nat) : State :=
  match s.rma.qps.find k with
  | none => s
  | some q =>
    let hit := q.unacked.filter fun u => psnLe u.psn psn && !q.openRead u
    if hit.isEmpty then s
    else
      let b := (hit.map (·.bytes)).sum
      let q' : Qp := { q with
        unacked := q.unacked.filter fun u => !(psnLe u.psn psn && !q.openRead u)
        retries := 0, probing := false
        reqs := q.reqs.map fun (r : WorkReq) =>
          if r.status.isNone && r.op = 1 && r.sent = r.npsn && psnLe (r.psn0 + BitVec.ofNat 24 (r.npsn - 1)) psn then
            { r with status := some (0, 0), got := r.len } else r }
      let s := s.putQp k q'
      let s := match stamp, hit.find? fun u => u.psn = psn && u.ack with
        | some t, some u => if u.sends = 1 ∨ q.probing then s.sample k (t - u.at_) b else s
        | _, _ => s
      s.retireAll k

/-- An acknowledgement arrives (R337). -/
def State.ackArrives (s : State) (k : Nat) (pk : RocePkt) : State :=
  match s.rma.qps.find k with
  | none => s
  | some q =>
    match q.unacked.head? with
    | none => s
    | some u =>
      if q.state ≠ .rts ∨ !(psnLe u.psn pk.psn) ∨ psnLe q.sqPsn pk.psn then s
      else
        match pk.syndrome / 32 % 4 with
        | 0 => s.ackUpTo k pk.psn (some pk.stamp)
        | 2 => s
        | t =>
          let s := s.ackUpTo k (pk.psn - 1) none
          let code := pk.syndrome % 32
          if t = 1 ∨ code = 0 then s.resendFrom k pk.psn
          else
            let st := if code = 2 then 3 else if code = 3 then 5 else 4
            let who : Option Nat := ((s.rma.qps.find k).bind fun q => q.reqOf pk.psn).map (·.1)
            (s.qpError k (who.map fun i => (i, st, pk.syndrome))).retireAll k

/-! ## READ responses at the requester (R333, R421) -/

/-- A READ response arrives: in order, it is written at LADDR in order of offset. -/
def State.responseArrives (s : State) (k : Nat) (pk : RocePkt) : State :=
  match s.rma.qps.find k with
  | none => s
  | some q =>
    match q.reqOf pk.psn with
    | none => s
    | some (i, r) =>
      let m := dataMtu q.mtu q.cipRx
      let n := min m (r.len - r.got)
      let plain := pk.payload.length - if q.cipRx.isSome then 28 else 0
      if q.state ≠ .rts ∨ r.op ≠ 2 ∨ !r.started ∨ pk.psn ≠ r.psn0 + BitVec.ofNat 24 (r.got / m) ∨ plain ≠ n then s
      else
        let fail (s : State) : State := (s.qpError k (some (i, 2, 0))).retireAll k
        let place := r.laddr + r.got
        let zero (s : State) : State :=
          if r.eng then s else (s.writeBy clsNet q.inst place (zeros n)).1
        let clear : Unsealed := match q.cipRx with | some c => s.openPacket c (RocePktAad pk) pk.payload | none => .ok pk.payload
        match clear with
        | .notKeyed => fail s
        | .failed => fail ((zero s).cipStat 3)
        | .ok pt =>
          let out : State × Except AccErr Unit := if r.eng then (s, .ok ()) else s.writeBy clsNet q.inst place pt
          match out with
          | (s, .error _) => fail s
          | (s, .ok _) =>
            let s := s.ackUpTo k (pk.psn - 1) none
            let s := match q.unacked.find? fun u => u.psn = pk.psn with
              | some u => if u.sends = 1 ∧ u.ack then s.sample k (pk.stamp - u.at_) u.bytes else s
              | none => s
            let done : Bool := decide (r.len ≤ r.got + n)
            let s := s.modQp k fun q => { q with
              retries := 0
              unacked := if done then q.unacked.filter fun u => u.psn ≠ pk.psn
                else q.unacked.map fun (u : SentPkt) => if u.psn = pk.psn then { u with psn := u.psn + 1, at_ := s.now, sends := 2 } else u
              reqs := q.reqs.map fun (y : WorkReq) => if y.psn0 = r.psn0 && y.status.isNone then
                { y with got := y.got + n, status := if done then some (0, 0) else none, data := if y.eng then y.data ++ pt else y.data } else y }
            s.retireAll k

/-! ## The responder (R335, R336) -/

/-- An acknowledgement packet has been sent: a NAK is counted, and after any but a PSN sequence error the responder's queue pair enters
Error (R335). -/
def State.aethSent (s : State) (k home syndrome : Nat) : State :=
  if syndrome < 0x60 then s
  else if syndrome = 0x60 then s.rmaStat home 6
  else ((s.rmaStat home 6).qpError k none).retireAll k

/-- Sends an acknowledgement packet of a queue pair. It waits behind others, and for room in the egress queue (R308); of
acknowledgements that wait, the last stands for all. -/
def State.sendAeth (s : State) (k : Nat) (q : Qp) (psn : BitVec 24) (syndrome : Nat) : State :=
  let wait : State := s.modQp k fun q =>
    { q with owed := (if syndrome = 0x1F then q.owed.filter fun e => e.2 ≠ 0x1F else q.owed) ++ [(psn, syndrome)] }
  if !q.owed.isEmpty then wait
  else match s.rocePut q (roceFrame q.path k (bthBytes 0x11 0 q.dqpn false psn ++ aethBytes syndrome q.msn)) none with
    | .done s' => s'.aethSent k q.home syndrome
    | .wait => wait

/-- The first acknowledgement packet that waits is sent, if the egress queue has room now; one of an old generation is dropped (R213). -/
def State.payOwed (s : State) (k : Nat) : State :=
  match s.rma.qps.find k with
  | none => s
  | some q =>
    match q.owed with
    | [] => s
    | (psn, syn) :: rest =>
      let t := s.putQp k { q with owed := rest }
      if s.genOf q.inst ≠ q.gen then t.rmaStat q.home 5
      else match t.rocePut q (roceFrame q.path k (bthBytes 0x11 0 q.dqpn false psn ++ aethBytes syn q.msn)) none with
        | .done t' => t'.aethSent k q.home syn
        | .wait => s

/-- Acknowledges everything accepted so far (R336). -/
def State.sendAck (s : State) (k : Nat) : State :=
  match s.rma.qps.find k with
  | none => s
  | some q => (s.modQp k fun q => { q with ackDue := 0, ackSince := none }).sendAeth k q (q.rqPsn - 1) 0x1F

/-- Sends a NAK of a PSN: code 0 PSN sequence error, 1 invalid request, 2 remote access error, 3 remote operational error (R335, R336). -/
def State.nakAt (s : State) (k code : Nat) (psn : BitVec 24) : State :=
  match s.rma.qps.find k with
  | none => s
  | some q => (if code = 0 then s.modQp k fun q => { q with nakSent := true } else s).sendAeth k q psn (0x60 + code)

/-- Sends a NAK of the expected PSN. -/
def State.nak (s : State) (k code : Nat) : State :=
  match s.rma.qps.find k with | none => s | some q => s.nakAt k code q.rqPsn

/-- The R_Key check of R335, for a range and a permission. -/
def State.keyOk (s : State) (q : Qp) (rkey addr len : Nat) (write : Bool) : Bool :=
  match s.rma.wins.find (rkey / 65536) with
  | none => false
  | some w =>
    w.revoking.isNone && s.rma.wgen.getD (rkey / 65536) 0 = BitVec.ofNat 16 rkey && w.pd = q.pd && w.inst = q.inst &&
    (if write then w.wr else w.rd) && decide (w.base ≤ addr) && decide (addr + len ≤ w.base + w.len)

/-- A packet is accepted: the expected PSN advances, and an acknowledgement is sent or becomes due (R336). -/
def State.accepted (s : State) (k n : Nat) (ackReq ends : Bool) : State :=
  let s := s.modQp k fun q => { q with
    rqPsn := q.rqPsn + BitVec.ofNat 24 n, nakSent := false, ackDue := q.ackDue + 1
    ackSince := if q.ackSince.isNone then some s.now else q.ackSince, msn := if ends then q.msn + 1 else q.msn }
  let due : Bool := match s.rma.qps.find k with | some q => decide (16 ≤ q.ackDue) | none => false
  if ackReq || due then s.sendAck k else s

/-- A WRITE packet with the expected PSN (R335, R341, R421). -/
def State.writeInOrder (s : State) (k : Nat) (q : Qp) (pk : RocePkt) : State :=
  let m := dataMtu q.mtu q.cipRx
  let n := pk.payload.length - if q.cipRx.isSome then 28 else 0
  let first : Bool := pk.opcode = 0x06 || pk.opcode = 0x0A
  let ends : Bool := pk.opcode = 0x08 || pk.opcode = 0x0A
  let msg : Option InMsg := if first then (if q.inMsg.isNone then some { rkey := pk.rkey, addr := pk.va, left := pk.dmaLen } else none) else q.inMsg
  match msg with
  | none => s.nak k 1
  | some g =>
    let lenOk : Bool := (q.cipRx.isNone || decide (28 ≤ pk.payload.length)) && (if ends then n = g.left && decide (n ≤ m) && (pk.opcode = 0x0A || decide (0 < n))
      else n = m && decide (m < g.left)) && decide (g.left ≤ 2147483648)
    if !lenOk then s.nak k 1
    else if n = 0 then (s.modQp k fun q => { q with inMsg := none }).accepted k 1 pk.ackReq true
    else if !s.keyOk q g.rkey g.addr g.left true then s.nak k 2
    else
      let clear : Unsealed := match q.cipRx with | some c => s.openPacket c (RocePktAad pk) pk.payload | none => .ok pk.payload
      match clear with
      | .notKeyed => s.nak k 3
      | .failed =>
        let s := (s.writeBy clsNet q.inst g.addr (zeros n)).1
        (s.cipStat 3).nak k 3
      | .ok pt =>
        match s.writeBy clsNet q.inst g.addr pt with
        | (s, .error (.trans _)) => (s.addressEvent blkRMA q.inst g.addr k).nak k 3
        | (s, .error _) => s.nak k 3
        | (s, .ok _) =>
          let rest : Option InMsg := if ends then none else some { g with addr := g.addr + n, left := g.left - n }
          (s.modQp k fun q => { q with inMsg := rest }).accepted k 1 pk.ackReq ends

/-- Sends the next READ response of a queue pair; none when it must wait or has none. -/
def State.sendResponse (s : State) (k : Nat) : Option State :=
  match s.rma.qps.find k with
  | none => none
  | some q =>
    match q.resps with
    | [] => none
    | r :: rest =>
      if s.genOf q.inst ≠ q.gen then some ((s.putQp k { q with resps := rest }).rmaStat q.home 5)
      else
        let m := dataMtu q.mtu q.cipTx
        let n := min m r.left
        match s.readBy clsNet q.inst r.addr n with
        | (s, .error (.trans _)) => some ((s.addressEvent blkRMA q.inst r.addr k).nakAt k 3 r.psn)
        | (s, .error _) => some (s.nakAt k 3 r.psn)
        | (s, .ok pt) =>
          let last : Bool := decide (r.left ≤ m)
          let op := if r.first && last then 0x10 else if r.first then 0x0D else if last then 0x0F else 0x0E
          let plen := n + if q.cipTx.isSome then 28 else 0
          let bth := bthBytes op (padOf plen) q.dqpn false r.psn
          let body : Option (List Byte × State) := match q.cipTx with | some c => s.sealPacket c bth pt | none => some (pt, s)
          match body with
          | none => some (s.nakAt k 3 r.psn)
          | some (b, s') =>
            let ext := if hasAeth op then aethBytes 0x1F q.msn else []
            match s'.rocePut q (roceFrame q.path k (bth ++ ext ++ b ++ zeros (padOf b.length))) none with
            | .wait => none
            | .done s' =>
              let more : List ReadOut := if last then rest else { r with psn := r.psn + 1, addr := r.addr + n, left := r.left - n, first := false } :: rest
              some (s'.modQp k fun q => { q with resps := more, ackDue := 0, ackSince := none })

/-- Sends READ responses while the egress queue has room. -/
def State.pumpResponses (s : State) (k : Nat) : Nat → State
  | 0 => s
  | n + 1 => match s.sendResponse k with | some s' => State.pumpResponses s' k n | none => s

/-- A READ request is checked and its responses are queued; `fresh` says that its PSN is the expected one (R335, R336). -/
def State.readRequest (s : State) (k : Nat) (q : Qp) (pk : RocePkt) (fresh : Bool) : State :=
  let m := dataMtu q.mtu q.cipTx
  let n := max 1 ((pk.dmaLen + m - 1) / m)
  if fresh && (q.inMsg.isSome || decide (2147483648 < pk.dmaLen) || decide (q.respDepth ≤ q.resps.length)) then s.nak k 1
  else if !s.keyOk q pk.rkey pk.va pk.dmaLen false then s.nakAt k 2 pk.psn
  else
    let out : ReadOut := { psn := pk.psn, rkey := pk.rkey, addr := pk.va, left := pk.dmaLen, first := true }
    let s := s.modQp k fun q => { q with
      resps := q.resps ++ [out], rqPsn := if fresh then q.rqPsn + BitVec.ofNat 24 n else q.rqPsn, nakSent := if fresh then false else q.nakSent
      msn := if fresh then q.msn + 1 else q.msn }
    s.pumpResponses k n

/-- A request packet arrives at the responder: in order, ahead, or a duplicate (R335, R336). While a NAK waits after which the queue pair
is in Error, none is accepted. -/
def State.requestArrives (s : State) (k : Nat) (pk : RocePkt) : State :=
  match s.rma.qps.find k with
  | none => s
  | some q =>
    if (q.state ≠ .rtr ∧ q.state ≠ .rts) ∨ q.owed.any fun e => decide (0x60 < e.2) then s
    else
      let d := (pk.psn - q.rqPsn).toNat
      if d = 0 then if pk.opcode = 0x0C then s.readRequest k q pk true else s.writeInOrder k q pk
      else if d < 2 ^ 23 then if q.nakSent then s else s.nak k 0
      else if pk.opcode = 0x0C then s.readRequest k q pk false
      else s.sendAck k

/-- A packet is applied by its opcode; one whose queue pair is of an old generation is dropped (R349). -/
def State.applyPkt (s : State) (k : Nat) (pk : RocePkt) : State :=
  let op := pk.opcode
  let (old, home) : Bool × Nat := match s.rma.qps.find k with | some q => (decide (s.genOf q.inst ≠ q.gen), q.home) | none => (false, 0)
  if old then s.rmaStat home 5
  else if op = 0x11 then s.ackArrives k pk
  else if 0x0D ≤ op ∧ op ≤ 0x10 then s.responseArrives k pk
  else s.requestArrives k pk

/-! ## Receipt (R326, R327, R343, R351) -/

/-- Parked packets of a die, and their bytes. -/
def State.parkedOn (s : State) (die : Nat) : Nat × Nat :=
  (s.rma.qps.filter fun e => e.2.home = die).foldl
    (fun (r : Nat × Nat) e => (r.1 + e.2.parked.length, r.2 + (e.2.parked.map fun p => p.frameLen).sum)) (0, 0)

/-- A packet whose context is not cached enters the park buffer (R343). -/
def State.park (s : State) (k : Nat) (q : Qp) (pk : RocePkt) : State :=
  let (n, b) := s.parkedOn q.home
  if 1024 ≤ n ∨ 64 ≤ q.parked.length ∨ 0x20_0000 < b + pk.frameLen then s.rmaStat q.home 4
  else ((s.putQp k { q with parked := q.parked ++ [pk] }).charge q.inst 3 pk.frameLen).rmaStat q.home 3

/-- A READ request that would pin one context too many (R342). -/
def State.noPin (s : State) (q : Qp) (pk : RocePkt) : Bool := pk.opcode = 0x0C && !q.pinned && decide (768 ≤ s.pinnedOn q.home)

/-- A packet is dropped silently (R326). -/
def pktDropped (p : RocePkt) : Bool :=
  !p.icrcOk || p.tver ≠ 0 || (p.pkey ≠ 0xFFFF && p.pkey ≠ 0x7FFF) || !roceOps.contains p.opcode || p.dqpn % 2 ^ 18 = 0

/-- A packet reaches the engine of a die: the drops of R326, then its context, then its effect. A frame that is accepted is charged
(R351). -/
def State.engineAt (s : State) (die : Nat) (pk : RocePkt) : State :=
  let drop := s.rmaStat die 5
  if pktDropped pk then drop
  else
    match s.qpByQpn pk.dqpn with
    | none => drop
    | some (k, q) =>
      if q.state = .reset ∨ q.state = .init then drop
      else if s.genOf q.inst ≠ q.gen then s.rmaStat q.home 5
      else if q.state = .error then s
      else if !q.cached || !q.parked.isEmpty || s.noPin q pk then s.park k q pk
      else (((s.charge q.inst 3 pk.frameLen).rmaStat q.home 0).touchQp k).applyPkt k pk

/-- A frame that arrived on another die than its queue pair's home crosses the table in WRITE flits on channel 3 with FLOW = index mod
256, in order (R327). What else the flits hold is the model's choice (log entry 67). -/
def State.crossRoce (s : State) (die home k : Nat) (pk : RocePkt) : State :=
  let flow := k % 256
  let a := runAt (8 + die) flow
  let b := runAt (8 + home) flow
  let n := max 1 ((pk.frameLen + 127) / 128)
  let key := crossKey (8 + home) { Flit.blank with flow, sx := facetX a, sy := facetY a }
  let bs := padTo (128 * n) pk.payload
  let s : State := { s with rma := { s.rma with crossing := s.rma.crossing.put key (s.rma.crossing.getD key [] ++ [pk]) } }
  (List.range n).foldl (fun s j => s.dieSend (8 + die) { Flit.blank with
    vc := 3, dx := facetX b, dy := facetY b, side := (dieRun (8 + home)).1, sx := facetX a, sy := facetY a, tag := 1
    last := decide (j + 1 = n), units := 7, flow, payload := slice bs (128 * j) 128 }) s

/-- A flit of such a frame reaches the home die; with the last one the frame does. -/
def State.crossRoceIn (s : State) (d : Nat) (fl : Flit) : State :=
  let key := crossKey d fl
  if !fl.last then s
  else match s.rma.crossing.getD key [] with
    | [] => s
    | pk :: rest =>
      let t : State := { s with rma := { s.rma with crossing := if rest.isEmpty then Tbl.del s.rma.crossing key else s.rma.crossing.put key rest } }
      t.engineAt (d - 8) pk

/-- A packet reaches the engine of a link's die, and from there that of its queue pair's home die (R326, R327). -/
def State.engineTakes (s : State) (link : Nat) (pk : RocePkt) : State :=
  match s.qpByQpn pk.dqpn with
  | some (k, q) => if pktDropped pk || q.home = dieOfLink link then s.engineAt (dieOfLink link) pk else s.crossRoce (dieOfLink link) q.home k pk
  | none => s.engineAt (dieOfLink link) pk

/-- A packet arrives on a link that serves; the wake of R435 comes first. -/
def State.roceIn (s : State) (link : Nat) (pk : RocePkt) (ops : List Nat) : State :=
  if 64 ≤ link ∨ (s.link link).state ≠ .up ∨ 3 ≤ s.power.rung ∨ (roceOps.contains pk.opcode ∧ !ops.contains pk.opcode) then s
  else s.wakeDeep.engineTakes link pk

/-- ROCE_WRITE_RECEIVE (R335): an RDMA WRITE packet at the responder. -/
def execRoceWriteReceive (link : Nat) (pk : RocePkt) (s : State) : Res := .next (s.roceIn link pk [0x06, 0x07, 0x08, 0x0A])

/-- ROCE_READ_REQUEST_RECEIVE (R335): a READ request at the responder. -/
def execRoceReadRequestReceive (link : Nat) (pk : RocePkt) (s : State) : Res := .next (s.roceIn link pk [0x0C])

/-- ROCE_READ_RESPONSE_RECEIVE (R333): a READ response at the requester. -/
def execRoceReadResponseReceive (link : Nat) (pk : RocePkt) (s : State) : Res := .next (s.roceIn link pk [0x0D, 0x0E, 0x0F, 0x10])

/-- ROCE_ACK_RECEIVE (R337): an acknowledgement at the requester. -/
def execRoceAckReceive (link : Nat) (pk : RocePkt) (s : State) : Res := .next (s.roceIn link pk [0x11])

/-- CONTEXT_FETCH_DONE (R343): the context is cached and its parked packets are applied in arrival order. -/
def execContextFetchDone (qp : Nat) (s : State) : Res :=
  .next <|
    match s.rma.qps.find qp with
    | none => s
    | some q =>
      if q.parked.isEmpty || q.parked.any (s.noPin q) then s
      else
        match s.fetchQp qp with
        | none => s
        | some s =>
          let s := s.modQp qp fun q => { q with parked := [] }
          q.parked.foldl (fun s pk => s.applyPkt qp pk) s

/-! ## Requests (R331, R332) -/

/-- The engine reads the send ring's PROD of a queue pair. -/
def State.readSendProd (s : State) (k : Nat) : State :=
  match s.rma.qps.find k with
  | none => s
  | some q =>
    match s.readBy clsNet q.inst q.sq 8 with
    | (s, .error _) => (s.qpError k none).retireAll k
    | (s, .ok b) =>
      let p := leNat b
      if p % 64 ≠ 0 ∨ q.sqLen ≤ p then (s.qpError k none).retireAll k else s.putQp k { q with prodSeen := p }

/-- A doorbell names a queue pair of an instance: its PROD is read, or the doorbell is ignored and counted (R329, R331). -/
def State.ringQp (s : State) (i k : Nat) : State :=
  match s.rma.qps.find k with
  | some q => if q.inst = i ∧ q.kind = 0 then s.readSendProd k else s.rmaStat q.home 5
  | none => s.rmaStat 0 5

/-- A work request is malformed (R332). -/
def wrBad (b : List Byte) : Bool :=
  let op := fieldAt b 0 1
  (op ≠ 1 && op ≠ 2) || decide (4 ≤ fieldAt b 1 1) || !allZero (slice b 2 2) || decide (2147483648 < fieldAt b 4 4) ||
  !allZero (slice b 36 28)

/-- The local range of a request translates and meets no uncorrectable data (R332); a refused translation is the engine's ADDRESS
event (R33, R34). -/
def State.localOk (s : State) (qp i a n : Nat) (write : Bool) : State × Bool :=
  match s.rangesOf i a n write with
  | .error _ => (s.addressEvent blkRMA i a qp, false)
  | .ok rs => (s, !rs.any fun r => s.rangeBad r.1 r.2)

/-- A request as fetched, with its PSNs. -/
def Qp.request (q : Qp) (off : Nat) (b : List Byte) : WorkReq :=
  let op := fieldAt b 0 1
  let len := fieldAt b 4 4
  let m := dataMtu q.mtu (if op = 2 then q.cipRx else q.cipTx)
  { off, op, signal := bitAt (fieldAt b 1 1) 0, fence := bitAt (fieldAt b 1 1) 1, len, wrid := BitVec.ofNat 64 (fieldAt b 8 8)
    laddr := fieldAt b 16 8, raddr := fieldAt b 24 8, rkey := fieldAt b 32 4, psn0 := q.sqPsn, npsn := max 1 ((len + m - 1) / m)
    sent := 0, got := 0, started := false, status := none, eng := false, data := [] }

/-- WORK_REQUEST_FETCH (R332, R347): the next posted request is fetched and checked; in Error it is flushed. -/
def execWorkRequestFetch (qp : Nat) (s : State) : Res :=
  .next <|
    match s.rma.qps.find qp with
    | none => s
    | some q =>
      if q.kind ≠ 0 ∨ (q.state ≠ .rts ∧ q.state ≠ .error) ∨ q.prodSeen = q.fetched then s
      else if q.state = .rts && s.stalled q then s
      else
        match s.readBy clsNet q.inst (q.sq + 64 + q.fetched) 64 with
        | (s, .error _) => (s.qpError qp none).retireAll qp
        | (s, .ok b) =>
          let r := q.request q.fetched b
          let q := { q with fetched := (q.fetched + 64) % q.sqLen }
          if q.state = .error then s.putQp qp { q with reqs := q.reqs ++ [{ r with status := some (1, 0) }] }
          else
            let (s, good) := if wrBad b then (s, false) else s.localOk qp q.inst r.laddr r.len (r.op = 2)
            if good then s.putQp qp { q with reqs := q.reqs ++ [r], sqPsn := q.sqPsn + BitVec.ofNat 24 r.npsn }
            else
              let n := q.reqs.length
              ((s.putQp qp { q with reqs := q.reqs ++ [r] }).qpError qp (some (n, 2, 0))).retireAll qp

/-- An engine posts a request to a KIND 1 queue pair in RTS (R329, R350), and knows it by a number; none when it may not. -/
def State.postEngine (s : State) (k i op raddr rkey len : Nat) (data : List Byte) : Option (State × Nat) :=
  match s.rma.qps.find k with
  | none => none
  | some q =>
    if q.kind ≠ 1 ∨ q.inst ≠ i ∨ q.state ≠ .rts then none
    else
      let m := dataMtu q.mtu (if op = 2 then q.cipRx else q.cipTx)
      let r : WorkReq :=
        { off := 0, op, signal := false, fence := false, len, wrid := BitVec.ofNat 64 s.rma.nextEng, laddr := 0, raddr, rkey, psn0 := q.sqPsn
          npsn := max 1 ((len + m - 1) / m), sent := 0, got := 0, started := false, status := none, eng := true, data }
      let s := s.putQp k { q with reqs := q.reqs ++ [r], sqPsn := q.sqPsn + BitVec.ofNat 24 r.npsn }
      some ({ s with rma := { s.rma with nextEng := s.rma.nextEng + 1 } }, s.rma.nextEng)

/-- ROCE_PACKET_SEND (R335, R345): an acknowledgement packet that waits, else a READ response, else the next request packet, is sent. -/
def execRocePacketSend (qp : Nat) (s : State) : Res :=
  .next <|
    match s.rma.qps.find qp with
    | none => s
    | some q =>
      if !q.owed.isEmpty then s.payOwed qp
      else if !q.resps.isEmpty then (s.sendResponse qp).getD s
      else match s.sendOne qp with | .sent s' => s' | _ => s

/-- ROCE_RETRANSMIT_TIMEOUT (R337): the oldest unacknowledged packet is due, and everything from it on is resent. -/
def execRoceRetransmitTimeout (qp : Nat) (s : State) : Res :=
  .next <|
    match s.rma.qps.find qp with
    | none => s
    | some q =>
      match q.unacked with
      | [] => s
      | u :: _ => if q.state ≠ .rts then s else (s.reach (u.at_ + 4096 * 2 ^ q.timeout)).resendFrom qp u.psn

/-- ROCE_ACK_TIMER (R336): an acknowledgement leaves 2 µs after the first packet that awaits one. -/
def execRoceAckTimer (qp : Nat) (s : State) : Res :=
  .next <|
    match s.rma.qps.find qp with
    | none => s
    | some q => match q.ackSince with | some t => (s.reach (t + 2000)).sendAck qp | none => s

/-- BASE_DELAY_REFRESH (R345): every 10 s the base delay becomes the smallest sample of the last 10 s. -/
def execBaseDelayRefresh (s : State) : Res :=
  .next <|
    let s := s.reach (s.rma.lastBase + 10000000000)
    { s with rma := { s.rma with
        lastBase := s.now
        qps := s.rma.qps.map fun (k, q) => (k, if q.state = .rts then { q with base := q.minRtt.getD q.base, minRtt := none } else q) } }

/-- The completion entry of a request (R334). -/
def cqEntry (s : State) (k : Nat) (q : Qp) (r : WorkReq) : List Byte :=
  let (st, syn) := r.status.getD (0, 0)
  leBytes 8 r.wrid.toNat ++ leBytes 8 q.cqSeq.toNat ++ leBytes 4 (s.rma.incarn.getD k 1 * 2 ^ 18 + k) ++ leBytes 4 r.off ++
  leBytes 4 (if st = 0 then r.len else r.got) ++ leBytes 1 st ++ leBytes 1 syn ++ zeros 2

/-- COMPLETION_ENTRY_WRITE (R334, R349): the entry of the request at the head is written once the completion ring has room. -/
def execCompletionEntryWrite (qp : Nat) (s : State) : Res :=
  .next <|
    match s.rma.qps.find qp with
    | none => s
    | some q =>
      match q.reqs with
      | [] => s
      | r :: _ =>
        if !r.entry then s.retireAll qp
        else if s.genOf q.inst ≠ q.gen then (s.putQp qp { q with reqs := q.reqs.tail }).rmaStat q.home 5
        else
          match s.cqRoom q with
          | .error _ =>
            let s := (s.readBy clsNet q.inst (q.cq + 8) 8).1
            if q.state = .error then s else s.qpError qp none
          | .ok false => s
          | .ok true =>
            let s := (s.readBy clsNet q.inst (q.cq + 8) 8).1
            match s.writeBy clsNet q.inst (q.cq + 64 + q.cqProd) (cqEntry s qp q r) with
            | (s, .error _) => if q.state = .error then s else s.qpError qp none
            | (s, .ok _) =>
              let prod := (q.cqProd + 32) % q.cqLen
              match s.writeBy clsNet q.inst q.cq (leBytes 8 prod) with
              | (s, .error _) => if q.state = .error then s else s.qpError qp none
              | (s2, .ok _) => ((s2.putQp qp { q with cqProd := prod, cqSeq := q.cqSeq + 1 }).passReq qp).retireAll qp

/-! ## Doorbell rings (R331) -/

/-- The entries of a doorbell ring from CONS up to PROD, each read and acted on. -/
def State.doorbells (s : State) (i : Nat) (d : DbRing) : Nat → Nat → Nat → State × Option Nat
  | 0, cons, _ => (s, some cons)
  | n + 1, cons, prod =>
    if cons = prod then (s, some cons)
    else
      match s.readBy clsNet i (d.ring + 64 + cons) 8 with
      | (s, .error _) => (s, none)
      | (s, .ok b) => State.doorbells (s.ringQp i (leNat b % 2 ^ 18)) i d n ((cons + 8) % d.len) prod

/-- A doorbell ring stops (R331). -/
def State.stopDb (s : State) (i : Nat) (d : DbRing) : State :=
  ({ s with rma := { s.rma with rings := s.rma.rings.put i { d with stopped := true } } }).raise blkRMA 0x7004 (some i) i 0

/-- DOORBELL_RING_POLL (R331): the engine reads an instance's doorbell ring. -/
def execDoorbellRingPoll (i : Nat) (s : State) : Res :=
  .next <|
    match s.rma.rings.find i with
    | none => s
    | some d =>
      if d.stopped ∨ 2 ≤ s.power.rung then s
      else
        match s.readBy clsNet i d.ring 8 with
        | (s, .error _) => s.stopDb i d
        | (s, .ok b) =>
          let prod := leNat b
          if prod % 8 ≠ 0 ∨ d.len ≤ prod then s.stopDb i d
          else
            match s.doorbells i d (d.len / 8) d.cons prod with
            | (s, none) => s.stopDb i d
            | (s', some cons) =>
              let s' : State := { s' with rma := { s'.rma with rings := s'.rma.rings.put i { d with cons } } }
              match s'.writeBy clsNet i (d.ring + 8) (leBytes 8 cons) with
              | (t, .ok _) => t
              | (t, .error _) => t.stopDb i d

end Sys2Proof.Machine
end

