-- ==== Sys2Proof/Machine/Nvme.lean ====
section
/-! DEFINITION. The storage queue engine's shared operations (spec/14): controller memory, completions and their signals, freezes,
asynchronous events, the fetch arbiter, PRPs, and what a command's end sets going. -/

namespace Sys2Proof.Machine

/-! ## Parts -/

def State.nss (s : State) (n : Nat) : Option Namespace := s.storage.nss.find n
def State.putNs (s : State) (n : Nat) (x : Namespace) : State :=
  { s with storage := { s.storage with nss := s.storage.nss.put n x } }
def State.putCmd (s : State) (id : Nat) (c : NvCmd) : State :=
  { s with storage := { s.storage with cmds := s.storage.cmds.put id c } }
def State.dropCmd (s : State) (id : Nat) : State :=
  { s with storage := { s.storage with cmds := Tbl.del s.storage.cmds id } }
/-- Adds 1 to NVC_STATn. -/
def State.nvStat (s : State) (n : Nat) : State := { s with storage := { s.storage with stats := s.storage.stats.bump n } }
/-- Bytes of an LBA. -/
def Namespace.lba (x : Namespace) : Nat := if x.lba4k then 4096 else 512
/-- Commands in progress of a controller. -/
def State.cmdsOf (s : State) (i : Nat) : Tbl NvCmd := s.storage.cmds.filter fun e => e.2.ctrl = i
/-- A submission queue of a controller. -/
def State.sq (s : State) (i y : Nat) : Option NvSq := (s.ctrl i).sqs.find y
def State.putSq (s : State) (i y : Nat) (q : NvSq) : State := s.modCtrl i fun c => { c with sqs := c.sqs.put y q }
def State.cq (s : State) (i y : Nat) : Option NvCq := (s.ctrl i).cqs.find y
def State.putCq (s : State) (i y : Nat) (q : NvCq) : State := s.modCtrl i fun c => { c with cqs := c.cqs.put y q }
/-- The controller's work belongs to its instance's present generation (R375). -/
def State.ctrlFresh (s : State) (i : Nat) : Bool := (s.ctrl i).gen = s.genOf i

/-! ## The shards of a checkpoint (R185) -/

/-- A shard: kind 1 facet or 2 region, its place, source address and length. -/
structure Shard where
  kind : Nat
  fx   : Nat
  fy   : Nat
  src  : Nat
  len  : Nat
  deriving DecidableEq, Repr

/-- The shards of one region of R185: 1 GiB each, the last one the remainder. -/
def regionShards (a : Nat) : Nat → Nat → List Shard
  | 0, _ => []
  | fuel + 1, n =>
    if n = 0 then []
    else
      let k := min n 0x4000_0000
      { kind := 2, fx := 0, fy := 0, src := a, len := k } :: (regionShards (a + k) fuel (n - k))

/-- Every shard of a checkpoint in its order (R185). -/
def shardsOf (w h : Nat) (regions : List (Nat × Nat)) : List Shard :=
  ((List.range (w * h)).map fun j => { kind := 1, fx := j % w, fy := j / w, src := 0, len := facetShard : Shard }) ++
  regions.flatMap fun r => regionShards r.1 (r.2 / 0x4000_0000 + 1) r.2

/-! ## Controller memory (R352) -/

/-- A controller writes at an address of its queues and commands. -/
def State.ctrlWrite (s : State) (i a : Nat) (bs : List Byte) : State × Bool :=
  if (s.ctrl i).mode = .host then
    match s.fnOf i with
    | some fn => s.busWrite fn a bs
    | none => (s, false)
  else match s.writeBy clsHost i a bs with
    | (s, .ok _) => (s, true)
    | (s, .error (.trans _)) => (s.addressEvent blkNVC i a i, false)
    | (s, .error _) => (s, false)

/-- A controller reads at an address of its queues and commands. -/
def State.ctrlRead (s : State) (i a n : Nat) : State × Option (List Byte) :=
  if (s.ctrl i).mode = .host then
    match s.fnOf i with
    | some fn => match s.masterReason fn with
      | some r => (s.masterRefused fn r, none)
      | none => (s, s.busRead fn a n)
    | none => (s, none)
  else match s.readBy clsHost i a n with
    | (s, .ok bs) => (s, some bs)
    | (s, .error (.trans _)) => (s.addressEvent blkNVC i a i, none)
    | (s, .error _) => (s, none)

/-- Writes bytes over the pages of a command, in order; false at the first that fails. -/
def State.ctrlPut (s : State) (i : Nat) : List (Nat × Nat) → List Byte → State × Bool
  | [], _ => (s, true)
  | (a, n) :: t, bs =>
    if bs.isEmpty then (s, true)
    else match s.ctrlWrite i a (bs.take n) with
      | (s', true) => State.ctrlPut s' i t (bs.drop n)
      | r => r

/-- Reads the pages of a command, in order. -/
def State.ctrlGet (s : State) (i : Nat) : List (Nat × Nat) → State × Option (List Byte)
  | [] => (s, some [])
  | (a, n) :: t => match s.ctrlRead i a n with
    | (s, none) => (s, none)
    | (s, some x) => match State.ctrlGet s i t with
      | (s, some y) => (s, some (x ++ y))
      | r => r

/-! ## Completions (R356, R358, R360) -/

/-- Do Not Retry is clear for success and for the two statuses that allow a retry (R358). -/
def dnr (sct sc : Nat) : Bool := !(sct = 0 && (sc = 0 || sc = 0x21 || sc = 0x82))

/-- The status field above the phase tag. -/
def statusField (sct sc : Nat) : Nat := 2 * sc + 512 * sct + 32768 * bit (dnr sct sc)

/-- A completion entry with its phase tag clear. -/
def cqe (dw0 sqhd sqid cid sct sc : Nat) : List Byte :=
  leBytes 4 dw0 ++ zeros 4 ++ leBytes 2 sqhd ++ leBytes 2 sqid ++ leBytes 2 cid ++ leBytes 2 (statusField sct sc)

/-- Interrupt Coalescing holds the vector of an I/O completion queue (R354, R356): threshold and time are set and the vector's
configuration does not exempt it. -/
def State.coalesces (s : State) (i y : Nat) (q : NvCq) : Bool :=
  let c := s.ctrl i
  c.mode = .host && y ≠ 0 && bitsOf c.feat.coal.toNat 7 0 ≠ 0 && bitsOf c.feat.coal.toNat 15 8 ≠ 0 &&
  !(c.feat.ivc.getD q.vec 0).getLsbD 16

/-- A completion queue signals after an entry (R356, R360): its MSI-X vector, at once or when the threshold is reached, or a
token to its facet. -/
def State.cqSignal (s : State) (i y : Nat) : State :=
  match s.cq i y with
  | none => s
  | some q =>
    if !q.ien then s
    else if (s.ctrl i).mode = .host then
      match s.fnOf i with
      | none => s
      | some fn =>
        if s.coalesces i y q then
          if bitsOf (s.ctrl i).feat.coal.toNat 7 0 < q.coal + 1 then (s.putCq i y { q with coal := 0, coalAt := none }).msix fn q.vec
          else s.putCq i y { q with coal := q.coal + 1, coalAt := some (q.coalAt.getD s.now) }
        else s.msix fn q.vec
    else
      let f := q.vec / 32
      s.dieSend 12 { fromDie 12 f i (s.genOf i) 3 with
        tokc := q.vec % 32, tokn := 1, last := true, tag := 0, addr := 0x1000_0000_0000 + f * 0x10_0000 }

/-- The Error Information entry of a queue (R366). -/
def State.errorEntry (s : State) (i y cid sct sc : Nat) : State :=
  s.modCtrl i fun c =>
    let n := c.errCnt + 1
    let e := leBytes 8 n.toNat ++ leBytes 2 y ++ leBytes 2 cid ++ leBytes 2 (statusField sct sc) ++ zeros 50
    { c with errCnt := n, errs := (e :: c.errs).take 64 }

/-- The completion queue of a submission queue. -/
def State.cqOf (s : State) (i y : Nat) : Option (Nat × NvCq) :=
  match s.sq i y with
  | some q => (s.cq i q.cq).map fun x => (q.cq, x)
  | none => none

/-- Writes one entry into a completion queue that has room; a failed write is the third freeze case of R366. Answers whether it
was written. -/
def State.writeCqe (s : State) (i n : Nat) (q : NvCq) (e : List Byte) : State × Bool :=
  let e := e.take 14 ++ [e.getD 14 0 ||| (if q.phase then 1 else 0)] ++ e.drop 15
  match s.ctrlWrite i (q.base + 16 * q.tail) e with
  | (s', true) =>
    let t := (q.tail + 1) % q.size
    ((s'.putCq i n { q with tail := t, phase := if t = 0 then !q.phase else q.phase }).cqSignal i n, true)
  | (s', false) => (s', false)

/-- An asynchronous event of a type reaches the oldest waiting request, or waits for one; a type that was reported is masked until its log
page is read (NVM Express 2.0). The answer names the request's CID. -/
def State.takeAen (s : State) (i typ : Nat) (dw : BitVec 32) : State × Option Nat :=
  let c := s.ctrl i
  if c.mode = .off ∨ c.masked.contains typ then (s, none)
  else match c.aers with
    | cid :: rest => (s.modCtrl i fun c => { c with aers := rest, masked := c.masked ++ [typ] }, some cid)
    | [] => if c.aens.contains dw then (s, none) else (s.modCtrl i fun c => { c with aens := c.aens ++ [dw] }, none)

/-- A completion that the failed part of a pair loses (R366). -/
def State.loseCqe (s : State) (i : Nat) : State := s.modCtrl i fun c => { c with lost := min 0xFFFF (c.lost + 1) }

/-- A queue pair freezes (R366): `cause` is 1 for a doorbell, 2 for an SQ read, 3 for a CQ write, after which the completion queue
takes nothing more. The admin queue sets CSTS.CFS (R367). The asynchronous event of a doorbell case is posted by the caller, which
has the admin queue. -/
def State.freezePair (s : State) (i y cause : Nat) : State :=
  let s := match s.cqOf i y with
    | some (n, q) => if cause = 3 then s.putCq i n { q with failed := true } else s
    | none => s
  let s := if y = 0 then s.modCtrl i fun c => { c with cfs := true } else s
  let s := match s.sq i y with
    | some q => s.putSq i y { q with frozen := true }
    | none => s
  (s.errorEntry i y 0xFFFF 7 cause).raise blkNVC 0x8004 (some i) y cause

/-- A completion entry of a submission queue goes to its completion queue, or is held for want of room (R360), or is lost with a
queue that cannot be written (R366). -/
def State.putCqe (s : State) (i y : Nat) (e : List Byte) : State :=
  match s.cqOf i y with
  | none => s
  | some (n, q) =>
    if q.failed then s.loseCqe i
    else if !q.stuck.isEmpty || decide ((q.tail + 1) % q.size = q.head) then s.putCq i n { q with stuck := q.stuck ++ [e] }
    else match s.writeCqe i n q e with
      | (s', true) => s'
      | (s', false) => (s'.freezePair i y 3).loseCqe i

/-- Writes the held completions of the completion queue of pair `y` while there is room (R360). -/
def State.drainCq (s : State) (i y : Nat) : Nat → State
  | 0 => s
  | fuel + 1 =>
    match s.cqOf i y with
    | none => s
    | some (n, q) =>
      match q.stuck with
      | [] => s
      | e :: rest =>
        if (q.tail + 1) % q.size = q.head then s
        else match s.writeCqe i n { q with stuck := rest } e with
          | (s', true) => State.drainCq s' i y fuel
          | (s', false) =>
            let s' := s'.putCq i n { q with stuck := [] }
            (s'.freezePair i y 3).modCtrl i fun c => { c with lost := min 0xFFFF (c.lost + rest.length + 1) }

/-- The completion of a command is still to be written: it is in progress, or its entry is held (R368). -/
def State.cqeDue (s : State) (i y cid : Nat) : Bool :=
  ((s.cmdsOf i).any fun e => e.2.sq = y && e.2.cid = cid) ||
  match s.cqOf i y with
  | some (_, q) => q.stuck.any fun e => fieldAt e 10 2 = y && fieldAt e 12 2 = cid
  | none => false

/-- A command completes at its queue, if the controller is enabled, unless the generation is another: then the work is discarded and
counted (R369, R375). -/
def State.nvDone (s : State) (i y cid dw0 sct sc : Nat) : State :=
  if (s.ctrl i).mode = .off ∨ (s.ctrl i).resetting then s
  else if !s.ctrlFresh i then s.nvStat 2
  else
    let s := if sct = 0 ∧ sc = 0 then s else s.nvStat 1
    s.putCqe i y (cqe dw0 ((s.sq i y).map (·.head) |>.getD 0) y cid sct sc)

/-- An asynchronous event of a type (0 error, 2 notice), information and log page (R361, R366, R371). -/
def State.asyncEvent (s : State) (i typ info log : Nat) : State :=
  let dw := typ + 256 * info + 65536 * log
  match s.takeAen i typ (BitVec.ofNat 32 dw) with
  | (s', some cid) => s'.nvDone i 0 cid dw 0 0
  | (s', none) => s'

/-- A queue pair freezes, with the asynchronous event of a doorbell case (R366). -/
def State.freeze (s : State) (i y cause : Nat) : State :=
  let s := s.freezePair i y cause
  if cause = 1 then s.asyncEvent i 0 1 1 else s

/-- A namespace's attachment to a controller changes: the Changed Namespace List and its notice (R361). -/
def State.nsChanged (s : State) (i n : Nat) : State :=
  let s := s.modCtrl i fun c => { c with changed := if c.changed.contains (n + 1) then c.changed else c.changed ++ [n + 1] }
  if (s.ctrl i).feat.aec.getLsbD 8 then s.asyncEvent i 2 0 4 else s

/-! ## Drive power states (R372) -/

/-- The controller power state whose drive state a drive may be in: the least deep of every controller with a namespace on it. -/
def State.driveWant (s : State) (p : Nat) : Nat :=
  let users := (List.range 64).filter fun i => s.storage.nss.any fun e => e.2.kind = 1 && e.2.port = p && e.2.attach.contains i
  let copy := s.parcels.any fun e => e.2.ckp.phase = .copying && match e.2.ckp.conf with
    | some c => c.kind = 1 && (match s.nss (c.nsid - 1) with | some x => x.kind = 1 && x.port = p | none => false)
    | none => false
  match (users.map fun i => (s.ctrl i).ps).min? with
  | none => 0
  | some m =>
    if copy then 0
    else if m = 2 ∧ (s.drive p).exitUs ≤ 9000 then 2
    else if 1 ≤ m ∧ (s.drive p).exitUs ≤ 90 then 1 else 0

/-- Sends every drive to the state it may be in. -/
def State.drivesPower (s : State) : State :=
  (List.range 8).foldl (fun s p =>
    let w := s.driveWant p
    if (s.drive p).state = .ready ∧ (s.drive p).low ≠ w then
      (s.modDrive p fun d => { d with low := w }).emit (.driveAdmin p (10 + w) 0)
    else s) s

/-! ## Doorbells (R356, R357, R366) -/

/-- A doorbell value of a queue: the SQ tail, or the CQ head. A frozen queue ignores it. An arrival takes the controller back to PS0
and the drives with it (R373, R374). -/
def State.nvDoorbell (s : State) (i y : Nat) (isCq : Bool) (v : Nat) : State :=
  if (s.ctrl i).mode = .off ∨ (s.ctrl i).resetting ∨ (s.ctrl i).cfs then s
  else if isCq then
    match s.cq i y with
    | none => s
    | some q =>
      let owner := ((s.ctrl i).sqs.find? fun e => e.2.cq = y).map (·.1)
      let frozen := match owner.bind (s.sq i) with | some x => x.frozen | none => false
      if frozen then s
      else if q.size ≤ v ∨ (q.tail + q.size - q.head) % q.size < (v + q.size - q.head) % q.size then s.freeze i (owner.getD y) 1
      else (s.putCq i y { q with head := v }).drainCq i (owner.getD y) q.stuck.length
  else
    match s.sq i y with
    | none => s
    | some q =>
      if q.frozen then s
      else if q.size ≤ v then s.freeze i y 1
      else if q.tail = v then s
      else ((s.putSq i y { q with tail := v }).modCtrl i fun c => { c with idleAt := none, ps := 0 }).drivesPower

/-! ## Fetch (R359, R360) -/

/-- Commands in progress that the device holds at most (R360). -/
def maxCmds : Nat := 16384

/-- An entry can be fetched from a queue: its completion queue has room (R360). -/
def State.mayFetch (s : State) (i y : Nat) : Bool :=
  let c := s.ctrl i
  c.mode ≠ .off && c.rdy && !c.cfs && !c.resetting && c.shst = 0 && s.boot.activating.isNone && !s.boot.switching && !s.power.pfw &&
  decide (s.storage.cmds.length < maxCmds) &&
  match s.cqOf i y, s.sq i y with
  | some (_, q), some x =>
    q.stuck.isEmpty && decide ((q.tail + 1) % q.size ≠ q.head) && !x.frozen && x.deleting.isNone && decide (x.head ≠ x.tail)
  | _, _ => false

/-- The cost of an entry (R359). -/
def State.entryCost (s : State) (e : List Byte) : Nat :=
  let op := fieldAt e 0 1
  if op = 1 ∨ op = 2 then
    match s.nss (fieldAt e 4 4 - 1) with
    | some x => max 4096 ((fieldAt e 48 2 + 1) * x.lba)
    | none => 4096
  else 4096

/-- The entry at the head of a queue, read without consuming it (R359). -/
def State.headEntry (s : State) (i y : Nat) : Option (List Byte) :=
  match s.sq i y with
  | some q => (s.ctrlRead i (q.base + 64 * q.head) 64).2
  | none => none

/-- A queue as an arbiter sees it. -/
structure NvQ where
  num     : Nat
  cost    : Nat
  quantum : Nat
  deficit : Nat
  deriving DecidableEq, Repr

/-- The queues with one of them holding another deficit. -/
def setDeficit (qs : List NvQ) (num d : Nat) : List NvQ := qs.map fun q => if q.num = num then { q with deficit := d } else q

/-- Deficit round robin in the form of R310, by new visits from the number `from_` on: which queue is served, and the deficits
after it. -/
def nvDrr : Nat → List NvQ → Nat → Option (Nat × List NvQ)
  | 0, _, _ => none
  | fuel + 1, qs, from_ =>
    match (qs.find? fun q => decide (from_ ≤ q.num)).orElse fun _ => qs.head? with
    | none => none
    | some q =>
      let d := if q.deficit < q.cost then q.deficit + q.quantum else q.deficit
      if q.cost ≤ d then some (q.num, setDeficit qs q.num (d - q.cost)) else nvDrr fuel (setDeficit qs q.num d) (q.num + 1)

/-- The queue that is served from a position: the visit there goes on while its deficit lasts, else the next begins. The last
answer says whether the visit went on. -/
def nvServe (qs : List NvQ) (pos : Nat) : Option (Nat × List NvQ × Bool) :=
  match (if pos % 2 = 1 then qs.find? fun q => decide (q.num = pos / 2 ∧ q.cost ≤ q.deficit) else none) with
  | some q => some (q.num, setDeficit qs q.num (q.deficit - q.cost), true)
  | none => (nvDrr ((qs.length + 1) * 40) qs ((pos + 1) / 2)).map fun r => (r.1, r.2, false)

/-- The number of the copier's queue, after the highest SQ (R359). -/
def copierQ : Nat := 65536

/-- The bytes of the next write that a parcel's copier makes, where one is due: the zeros over the slot's head, a piece of a shard, or
the manifest (R193, R196). -/
def Ckp.nextWrite (c : Ckp) : Option Nat :=
  match c.conf, c.info with
  | some k, some m =>
    let xs := shardsOf m.width m.height k.regions
    if c.phase ≠ .copying then none
    else match c.stage with
      | 0 => some 4096
      | 3 => (xs[c.pos]?).map fun x => min 65536 (x.len - c.part.length)
      | 5 => if c.outs.isEmpty && c.posts.isEmpty then some ((256 + 64 * xs.length + 4095) / 4096 * 4096) else none
      | _ => none
  | _, _ => none

/-- The cost of the copier's next write to a namespace of an instance, if there is one (R359). -/
def State.copierWrites (s : State) (i : Nat) : Option Nat :=
  s.parcels.findSome? fun e => match e.2.ckp.conf with
    | some c =>
      if c.kind = 1 && (match s.nss (c.nsid - 1) with | some x => x.owner = i | none => false) then (e.2.ckp.nextWrite).map (max 4096)
      else none
    | none => none

/-- The I/O queues of a controller that can be served, with costs; `ev` gives the entry of the queue a fetch names. -/
def State.ioQueues (s : State) (i : Nat) (ev : Option (Nat × Nat × List Byte)) : List NvQ :=
  let qs := ((s.ctrl i).sqs.filter fun e => e.1 ≠ 0 && s.mayFetch i e.1).map fun e =>
    let entry := match ev with
      | some (j, y, b) => if j = i ∧ y = e.1 then some b else s.headEntry i e.1
      | none => s.headEntry i e.1
    { num := e.1, cost := s.entryCost (entry.getD []), quantum := 131072, deficit := s.storage.qDeficit.getD (65536 * i + e.1) 0 : NvQ }
  match s.copierWrites i with
  | some n => qs ++ [{ num := copierQ, cost := n, quantum := 131072, deficit := s.storage.qDeficit.getD (65536 * 64 + i) 0 }]
  | none => qs

/-- What the second level chose for a controller: the queue, the deficits after it, whether the visit went on, and the cost. -/
structure NvPick where
  ctrl : Nat
  num  : Nat
  qs   : List NvQ
  mid  : Bool
  cost : Nat
  deriving DecidableEq, Repr

/-- The second level's choice for a controller: at most 2^AB commands a visit (R359). -/
def State.pickQueue (s : State) (i : Nat) (ev : Option (Nat × Nat × List Byte)) : Option NvPick :=
  let qs := s.ioQueues i ev
  let ab := bitsOf (s.ctrl i).feat.arb.toNat 2 0
  let pos := s.storage.qPos.getD i 0
  let pos := if pos % 2 = 1 ∧ ab ≠ 7 ∧ 2 ^ ab ≤ s.storage.qTaken.getD i 0 then pos + 1 else pos
  (nvServe qs pos).map fun r =>
    { ctrl := i, num := r.1, qs := r.2.1, mid := r.2.2, cost := ((qs.find? fun q => q.num = r.1).map (·.cost)).getD 4096 }

/-- The tier of a controller (R311, R359): that of its visit while it goes on, for a change of weight applies from the next (R212). -/
def State.lowTier (s : State) (c : NvPick) : Bool :=
  let goes (t : Nat) : Bool := s.storage.arbPos.getD t 0 = 2 * c.ctrl + 1 && decide (c.cost ≤ s.storage.deficit.getD c.ctrl 0)
  if goes 0 then false else if goes 1 then true else (s.inst c.ctrl).shares.storWeight = 0

/-- The arbiter's choice among the controllers with something to fetch (R359): controllers of weight 0 only when no other waits.
Answers controller and queue, and the state with the arbiter moved. -/
def State.arbiter (s : State) (ev : Option (Nat × Nat × List Byte)) : Option (Nat × Nat × State) :=
  let cs := (List.range 64).filterMap fun i => s.pickQueue i ev
  let low : Bool := cs.all s.lowTier
  let tier := cs.filter fun c => s.lowTier c = low
  let qs := tier.map fun c => ({ num := c.ctrl, cost := c.cost, quantum := 65536 * max (s.inst c.ctrl).shares.storWeight 1
                                 deficit := s.storage.deficit.getD c.ctrl 0 } : NvQ)
  match nvServe qs (s.storage.arbPos.getD (bit low) 0) with
  | none => none
  | some (i, qs', _) =>
    match tier.find? fun c => c.ctrl = i with
    | none => none
    | some c =>
      let st := s.storage
      let key (n : Nat) : Nat := if n = copierQ then 65536 * 64 + i else 65536 * i + n
      some (i, c.num, { s with storage := { st with
        deficit := qs'.foldl (fun t q => t.put q.num q.deficit) st.deficit
        arbPos := st.arbPos.put (bit low) (2 * i + 1)
        qDeficit := c.qs.foldl (fun t q => t.put (key q.num) q.deficit) st.qDeficit
        qPos := st.qPos.put i (2 * c.num + 1)
        qTaken := st.qTaken.put i (if c.mid then st.qTaken.getD i 0 + 1 else 1) } })

/-- A queue or controller with nothing left keeps no deficit, and its visit is over (R310). -/
def State.arbEmpty (s : State) (i y : Nat) : State :=
  let empty : Bool := if y = copierQ then (s.copierWrites i).isNone else match s.sq i y with | some q => q.head = q.tail | none => true
  let idle : Bool := (s.copierWrites i).isNone && !(s.ctrl i).sqs.any fun e => e.1 ≠ 0 && e.2.head ≠ e.2.tail
  let over_ (t : Tbl Nat) (k n : Nat) : Tbl Nat := if t.getD k 0 = 2 * n + 1 then t.put k (2 * n + 2) else t
  let st := s.storage
  { s with storage := { st with
      qDeficit := if empty then Tbl.del st.qDeficit (if y = copierQ then 65536 * 64 + i else 65536 * i + y) else st.qDeficit
      qPos := if empty then over_ st.qPos i y else st.qPos
      deficit := if idle then Tbl.del st.deficit i else st.deficit
      arbPos := if idle then over_ (over_ st.arbPos 0 i) 1 i else st.arbPos } }

/-! ## PRPs (R354, R358) -/

/-- The pages of a list of PRP entries for `n` bytes: (0, 0x13) when one has an offset. -/
def prpPages : Nat → List Nat → Except (Nat × Nat) (List (Nat × Nat))
  | _, [] => .ok []
  | n, a :: t =>
    if n = 0 then .ok []
    else if a % 4096 ≠ 0 then .error (0, 0x13)
    else match prpPages (n - min n 4096) t with
      | .ok r => .ok ((a, min n 4096) :: r)
      | .error e => .error e

/-- Reads `n` entries of a PRP list that a Device controller's command names, following its chain. -/
def State.prpList (s : State) (i : Nat) : Nat → Nat → Nat → State × Option (List Nat)
  | 0, _, _ => (s, none)
  | fuel + 1, a, n =>
    let k := (4096 - a % 4096) / 8
    let (s, bs) := s.ctrlRead i a (8 * min n k)
    let es : Option (List Nat) := bs.map fun bs => (List.range (min n k)).map fun j => fieldAt bs (8 * j) 8
    if n ≤ k then (s, es)
    else match es with
      | none => (s, none)
      | some l => match State.prpList s i fuel (l.getLastD 0) (n - (k - 1)) with
        | (s, some t) => (s, some (l.dropLast ++ t))
        | r => r

/-- The pages of a command's data of `n` bytes: PRP1, then PRP2 as a page or a list (R358); `wr` says that the data go to them. For a
Host controller the list is as the master reads returned it. -/
def State.prps (s : State) (i : Nat) (e : List Byte) (list : List Nat) (n : Nat) (wr : Bool) :
    State × Except (Nat × Nat) (List (Nat × Nat)) :=
  let p1 := fieldAt e 24 8
  let p2 := fieldAt e 32 8
  let n1 := min n (4096 - p1 % 4096)
  let rest := n - n1
  if p1 % 4 ≠ 0 then (s, .error (0, 0x13))
  else
    let (s, tail) : State × Except (Nat × Nat) (List (Nat × Nat)) :=
      if rest = 0 then (s, .ok [])
      else if rest ≤ 4096 then (s, prpPages rest [p2])
      else if (s.ctrl i).mode = .host then
        (s, if list.length * 4096 < rest then .error (0, 4) else prpPages rest list)
      else match s.prpList i (rest / 4096 + 2) p2 ((rest + 4095) / 4096) with
        | (s, none) => (s, .error (0, 4))
        | (s, some l) => (s, prpPages rest l)
    match tail with
    | .error x => (s, .error x)
    | .ok t =>
      let ps := (p1, n1) :: t
      match (if (s.ctrl i).mode = .device then ps.find? fun p => (match s.rangesOf i p.1 p.2 wr with | .error _ => true | .ok _ => false)
        else none) with
      | some p => (s.addressEvent blkNVC i p.1 i, .error (0, 4))
      | none => (s, .ok ps)

/-! ## Backing access (R361 to R365) -/

/-- A new number for a command in progress. -/
def State.newId (s : State) : Nat × State :=
  (s.storage.nextCmd, { s with storage := { s.storage with nextCmd := s.storage.nextCmd + 1 } })

/-- The drive serves commands (R365). -/
def State.driveReady (s : State) (p : Nat) : Bool := (s.drive p).state = .ready && !(s.drive p).resetting

/-- First byte of the buffer that a drive command's data uses, as the drive addresses it (log entry 13). -/
def driveBuf (id : Nat) : Nat := id * 0x20_0000

/-- A drive command leaves, with the grant of its data range (R365, R405). -/
def State.driveCmd (s : State) (p ns : Nat) (op : NvOp) (flag : Bool) (slba nlb : Nat) (data : List Byte) (id len : Nat) : State :=
  (s.emit (.driveCommand p ns op flag slba nlb data id)).modRoot p fun r =>
    { r with grants := if len = 0 then r.grants else r.grants ++ [(id, driveBuf id, len, decide (op = .read))] }

/-- The data a command puts in its backing: encrypted when the namespace is (R363, R419). -/
def NvCmd.sealed (c : NvCmd) (x : Namespace) : List Byte :=
  match c.key with
  | some k => xtsUnits false k x.lba c.nlb c.slba c.data
  | none => c.data

/-- The state of a context that a namespace's commands use: its key, or none when it cannot be used (R363, R419). -/
def State.nsKey (s : State) (x : Namespace) : Option (List Byte) :=
  match s.cipher.ctxs.find x.ciph with
  | some c => if c.mode = 3 ∧ c.owner = x.owner then c.key else none
  | none => none

/-- A command begins its backing access, from which NVC_DRVTO runs: none when the backing cannot be reached, with the status (R358,
R361, R365). -/
def State.nvBack (s : State) (id : Nat) (c : NvCmd) (x : Namespace) : State × Option (Nat × Nat) :=
  let fua : Bool := !(s.ctrl c.ctrl).feat.vwc.getLsbD 0
  let c := { c with begun := true, at_ := s.now }
  let s := s.putCmd id c
  if x.kind = 1 then
    if !s.driveReady x.port then (s, some (0, 0x82))
    else
      let data := if c.op = .deallocate then
          ((c.slba, c.nlb) :: c.more).flatMap fun r => zeros 4 ++ leBytes 4 r.2 ++ leBytes 8 (x.base + r.1)
        else c.sealed x
      (s.driveCmd x.port x.drvNs c.op (c.flag || (fua && c.op = .write)) (x.base + c.slba) c.nlb data id (if c.op = .read ∨ c.op = .write then c.nlb * x.lba else 0), none)
  else if x.kind = 3 then
    let ra := x.base + c.slba * x.lba
    let r := match c.op with
      | .read => s.postEngine x.qp x.owner 2 ra x.rkey (c.nlb * x.lba) []
      | .write => s.postEngine x.qp x.owner 1 ra x.rkey (c.nlb * x.lba) (c.sealed x)
      | .zeroes => s.postEngine x.qp x.owner 1 ra x.rkey (c.nlb * x.lba) (zeros (c.nlb * x.lba))
      | _ => none
    match r, c.op with
    | some (s', n), _ => (s'.putCmd id { c with eng := some n }, none)
    | none, .read | none, .write | none, .zeroes => (s, some (0, 0x21))
    | none, _ => (s, none)
  else (s, none)

/-- The code of a backing that failed (R358, R365). -/
def backStatus : BackCode → Option (Nat × Nat)
  | .ok => none | .uncorrectable => some (2, 0x81) | .writeFault => some (2, 0x80) | .unreachable => some (0, 0x21)
  | .notPresent => some (0, 0x82) | .dataTransfer => some (0, 4) | .cipherFail => some (0, 6)

end Sys2Proof.Machine
end

