-- ==== Sys2Proof/Machine/Storage.lean ====
section
/-! DEFINITION. NVMe commands and their ends, controllers enabled, reset and shut down, drives (spec/14). -/

namespace Sys2Proof.Machine

/-! ## The end of a command (R360, R364, R367, R369, R370) -/

/-- The drives that back a namespace attached to a controller, with the drive namespaces (R370). -/
def State.drivesOf (s : State) (i : Nat) : List (Nat × Nat) :=
  ((s.storage.nss.filter fun e => e.2.kind = 1 && e.2.attach.contains i).map fun e => (e.2.port, e.2.drvNs)).eraseDups

/-- The parcel whose checkpoint copy sent a drive command (R195). -/
def State.copyOf (s : State) (id : Nat) : Option Nat :=
  s.parcels.findSome? fun e => if e.2.ckp.outs.contains id then some e.1 else none

/-- What a Flush waits for has ended: earlier commands, and the copier's writes to a drive and to a peer (R364). -/
def State.flushFree (s : State) (c : NvCmd) : Bool :=
  c.waits.all (fun w => !s.storage.cmds.has w && (s.copyOf w).isNone) &&
  c.posts.all fun n => s.rma.engDone.has n || !s.parcels.any fun e => e.2.ckp.posts.contains n

/-- A Flush whose earlier writes have ended begins at the backing (R364). -/
def State.startFlushes (s : State) : State :=
  s.storage.cmds.foldl (fun s (id, c) =>
    if c.op = .flush && !c.begun && s.flushFree c then
      match s.nss c.ns with
      | none => (s.dropCmd id).nvDone c.ctrl c.sq c.cid 0 0 0x0B
      | some x => match s.nvBack id c x with
        | (s', none) => s'
        | (s', some (a, b)) => (s'.dropCmd id).nvDone c.ctrl c.sq c.cid 0 a b
    else s) s

/-- A Delete I/O SQ whose last command has ended, with its completion written, completes (R367). -/
def State.finishDeletes (s : State) (i : Nat) : State :=
  (s.ctrl i).sqs.foldl (fun s (y, q) =>
    match q.deleting with
    | some cid =>
      if ((s.cmdsOf i).any fun e => e.2.sq = y) || (s.cqOf i y).any fun e => !e.2.stuck.isEmpty then s
      else (s.modCtrl i fun c => { c with sqs := Tbl.del c.sqs y }).nvDone i 0 cid 0 0 0
    | none => s) s

/-- Aborts whose target's completion has been written complete (R368). -/
def State.finishNvAborts (s : State) (i : Nat) : State :=
  (s.ctrl i).aborts.foldl (fun s a =>
    if s.cqeDue i a.sq a.target then s
    else (s.modCtrl i fun c => { c with aborts := c.aborts.erase a }).nvDone i 0 a.cid (bit a.late) 0 0) s

/-- The blocks of a deleted namespace are zeroed and it is gone (R362); a drive takes Write Zeroes with DEAC, whose end ends the
deletion. -/
def State.zeroNs (s : State) (w : Waiter) (n : Nat) : State :=
  match s.nss n with
  | none => s.finish w 0 0 []
  | some x =>
    let gone (s : State) : State := { s with storage := { s.storage with nss := Tbl.del s.storage.nss n } }
    if x.kind = 2 then (gone (s.zeroStore x.base (x.size * x.lba))).finish w 0 0 []
    else if x.kind = 1 then
      if s.driveReady x.port then
        let (id, s) := s.newId
        let s := s.driveCmd x.port x.drvNs .zeroes true x.base x.size [] id 0
        { s with storage := { s.storage with deletes := s.storage.deletes.put id (w, n) } }
      else ((gone s).raise blkNVC 0x80FF none n 0).finish w 0x8009 0 []
    else (gone s).finish w 0 0 []

/-- Deletions of namespaces with no command in progress go on (log entry 71). -/
def State.finishCloses (s : State) : State :=
  s.storage.closing.foldl (fun s (n, w) =>
    if s.storage.cmds.any fun e => e.2.ns = n then s
    else ({ s with storage := { s.storage with closing := Tbl.del s.storage.closing n } }).zeroNs w n) s

/-- CC enables the controller of a function (R352): pages of 4 KiB, the NVM command set, entries of 64 and 16 bytes. Any other CC
leaves it not ready with CSTS.CFS. -/
def State.hostEnable (s : State) (i : Nat) (cc : BitVec 32) : State :=
  let v := cc.toNat
  let c := s.ctrl i
  if bitsOf v 10 7 ≠ 0 ∨ bitsOf v 6 4 ≠ 0 ∨ bitsOf v 13 11 ≠ 0 ∨ bitsOf v 19 16 ≠ 6 ∨ bitsOf v 23 20 ≠ 4 then
    s.modCtrl i fun c => { c with cc, cfs := true }
  else
    let cq : NvCq :=
      { base := c.acq.toNat / 4096 * 4096, size := bitsOf c.aqa.toNat 27 16 + 1, head := 0, tail := 0, phase := true, ien := true,
        vec := 0, coal := 0, coalAt := none, stuck := [], failed := false }
    let sq : NvSq :=
      { base := c.asq.toNat / 4096 * 4096, size := bitsOf c.aqa.toNat 11 0 + 1, head := 0, tail := 0, cq := 0, frozen := false,
        deleting := none }
    s.modCtrl i fun c => { c with cc, mode := .host, rdy := true, gen := s.genOf i, sqs := [(0, sq)], cqs := [(0, cq)], ps := 0
                                  idleAt := some s.now }

/-- A controller reset completes (R369): every queue is gone and the controller is Off; the error log and LOST stay. A CC.EN that was
held is then served (R396). -/
def State.ctrlOff (s : State) (i : Nat) : State :=
  let c := s.ctrl i
  let s := s.modCtrl i fun _ => { NvCtrl.initial with
    errs := c.errs, errCnt := c.errCnt, lost := c.lost, changed := c.changed, aqa := c.aqa, asq := c.asq, acq := c.acq
    reads := c.reads, writes := c.writes, unitsR := c.unitsR, unitsW := c.unitsW }
  let s := match c.enWait with | some w => s.finish w 0 0 [] | none => s
  let s := match c.heldCc with | some v => s.hostEnable i v | none => s
  s.drivesPower

/-- A shutdown goes on once every command has completed and every completion is written: the drives are flushed, then CSTS.SHST is
2 (R370). -/
def State.shutOn (s : State) (i : Nat) : State :=
  let c := s.ctrl i
  if c.shst ≠ 1 ∨ !(s.cmdsOf i).isEmpty ∨ !c.flushes.isEmpty ∨ c.cqs.any (fun e => !e.2.stuck.isEmpty) then s
  else
    let s := (s.drivesOf i).foldl (fun s (p, ns) =>
      if s.driveReady p then
        let (id, s) := s.newId
        (s.driveCmd p ns .flush false 0 0 [] id 0).modCtrl i fun c => { c with flushes := c.flushes ++ [id] }
      else s) s
    if (s.ctrl i).flushes.isEmpty then
      let s := s.modCtrl i fun c => { c with shst := 2, enWait := none }
      match c.enWait with | some w => s.finish w 0 0 [] | none => s
    else s

/-- What the end of a command of a controller sets going. -/
def State.nvAfter (s : State) (i : Nat) : State :=
  let s := ((s.startFlushes.finishDeletes i).finishNvAborts i).finishCloses
  let s := if (s.ctrl i).resetting && (s.cmdsOf i).isEmpty then s.ctrlOff i else s
  let s := s.shutOn i
  if (s.cmdsOf i).isEmpty && !(s.ctrl i).sqs.any (fun e => e.2.head ≠ e.2.tail) && (s.ctrl i).idleAt.isNone then
    s.modCtrl i fun c => { c with idleAt := some s.now }
  else s

/-- The accounts of a Read or Write that completed (R376, SMART). -/
def State.nvCharge (s : State) (c : NvCmd) (x : Namespace) : State :=
  let n := c.nlb * x.lba
  let u : BitVec 64 := BitVec.ofNat 64 (n / 512)
  if c.op = .read then (s.charge c.ctrl 5 n).modCtrl c.ctrl fun k => { k with reads := k.reads + 1, unitsR := k.unitsR + u }
  else if c.op = .write && !c.prps.isEmpty then (s.charge c.ctrl 6 n).modCtrl c.ctrl fun k => { k with writes := k.writes + 1, unitsW := k.unitsW + u }
  else s

/-- A command ends with a status: its grant ends, and its completion is posted, with the accounts of a Read or Write that succeeded,
unless it is discarded (R360, R369, R375, R376, R405). -/
def State.nvEnd (s : State) (id : Nat) (c : NvCmd) (st : Nat × Nat) : State :=
  let s := (s.dropCmd id).modRoot (match s.nss c.ns with | some x => x.port | none => 0) fun r =>
    { r with grants := r.grants.filter fun g => g.1 ≠ id }
  let fresh := s.ctrlFresh c.ctrl
  let s := if c.dead then (if fresh then s else s.nvStat 2)
    else
      let s := match s.nss c.ns with | some x => if fresh && decide (st = (0, 0)) then s.nvCharge c x else s | none => s
      s.nvDone c.ctrl c.sq c.cid 0 st.1 st.2
  s.nvAfter c.ctrl

/-- A command's data is there, or it needs none: the backing access begins, or the command ends. -/
def State.nvStart (s : State) (id : Nat) : State :=
  match s.storage.cmds.find id with
  | none => s
  | some c =>
    match s.nss c.ns with
    | none => s.nvEnd id c (0, 0x0B)
    | some x => match s.nvBack id c x with
      | (s', none) => s'
      | (s', some st) => s'.nvEnd id { c with begun := true } st

/-- Data that a Read has from its backing reaches the submitter, deciphered (R358, R363, R376): `good` LBAs of it, then the status
of the first that failed. -/
def State.nvDeliver (s : State) (id : Nat) (c : NvCmd) (x : Namespace) (data : List Byte) (good : Nat) (bad : Option (Nat × Nat)) :
    State :=
  if c.dead then s.nvEnd id c (0, 0)
  else if !s.ctrlFresh c.ctrl then s.nvEnd id { c with dead := true } (0, 0)
  else
    let raw := data.take (good * x.lba)
    let clear := match c.key with | some k => xtsUnits true k x.lba good c.slba raw | none => raw
    match s.ctrlPut c.ctrl c.prps clear with
    | (s', false) => s'.nvEnd id c (0, 4)
    | (s', true) => s'.nvEnd id c (bad.getD (0, 0))

/-- A namespace range in HBM: its device address and bytes. -/
def NvCmd.place (c : NvCmd) (x : Namespace) : Nat × Nat := (x.base + c.slba * x.lba, c.nlb * x.lba)

/-- LBAs from the front of a range in HBM that read without error (R358). -/
def State.goodLbas (s : State) (a lba : Nat) : Nat → Nat
  | 0 => 0
  | n + 1 => if s.rangeBad a lba then 0 else 1 + State.goodLbas s (a + lba) lba n

/-- An access to an HBM namespace finishes (R361, R362). Its writes were accepted when they ended, so a Flush has nothing left to do
(R164). The contents of deallocated LBAs are free values (log entry 7). `o` is what the stacks reported of the access's first unit
(R167). -/
def State.hbmBack (s : State) (id : Nat) (c : NvCmd) (x : Namespace) (o : ReadOutcome) : State :=
  let (a, n) := c.place x
  match c.op with
  | .flush => s.nvEnd id c (0, 0)
  | .read =>
    let s := s.busMet a o
    let good := s.goodLbas a x.lba c.nlb
    (if good < c.nlb then s.metBad clsHost (a + good * x.lba) x.lba else s).nvDeliver id c x (s.readBytes a (good * x.lba)) good
      (if good < c.nlb then some (2, 0x81) else none)
  | .write => match s.saveAt none a (c.sealed x) with
    | .ok s' => (s'.busWrote clsHost a o).nvEnd id c (0, 0)
    | .error _ => s.nvEnd id c (2, 0x81)
  | .zeroes => match s.saveAt none a (zeros n) with
    | .ok s' => (s'.busWrote clsHost a o).nvEnd id c (0, 0)
    | .error _ => s.nvEnd id c (2, 0x81)
  | .deallocate =>
    let s := ((c.slba, c.nlb) :: c.more).foldl (fun (s : State) r =>
      let (v, s) := s.takeFree
      match s.saveAt none (x.base + r.1 * x.lba) ((List.range (r.2 * x.lba)).map (Config.freeByte v)) with | .ok s' => s' | .error _ => s) s
    (s.busWrote clsHost a o).nvEnd id c (0, 0)

/-- A drive's or a peer's access finishes with a result. -/
def State.outerBack (s : State) (id : Nat) (c : NvCmd) (x : Namespace) (r : BackingResult) : State :=
  let data := if r.data.isEmpty then c.data else r.data
  match backStatus r.code, c.op with
  | none, .read => s.nvDeliver id c x (padTo (c.nlb * x.lba) data) c.nlb none
  | some st, .read => s.nvDeliver id c x (padTo (c.nlb * x.lba) data) (if st = (2, 0x81) then min r.lba c.nlb else 0) (some st)
  | none, _ => s.nvEnd id c (0, 0)
  | some st, _ => s.nvEnd id c st

/-- The access of a peer namespace finishes when its request has (R361); one that needed no request finishes at once. -/
def State.peerBack (s : State) (id : Nat) (c : NvCmd) (x : Namespace) : State :=
  match c.eng with
  | none => s.outerBack id c x { code := .ok, lba := 0, data := [] }
  | some n =>
    match s.rma.engDone.find n with
    | none => s
    | some e =>
      let s : State := { s with rma := { s.rma with engDone := Tbl.del s.rma.engDone n } }
      s.outerBack id c x { code := if e.ok then .ok else .unreachable, lba := 0, data := e.data }

/-- BACKING_COMPLETE (R360): an access of an HBM or peer namespace finishes. How a peer's ended, and what it read, its request on the
queue pair says; an HBM access takes place in this step, and `o` is what the stacks reported of it. A command whose failure is known already (its cipher lane was stopped) ends so.
A Flush that waits begins if it may (R364). -/
def execBackingComplete (id : Nat) (o : ReadOutcome) (s : State) : Res :=
  .next <|
    match s.storage.cmds.find id with
    | none => s
    | some c =>
      if !c.begun then s.startFlushes
      else if c.due ≠ 0 then s
      else match s.nss c.ns with
        | none => s.nvEnd id c (0, 0x0B)
        | some x =>
          if x.kind = 1 then s
          else match c.fail with
            | some st => s.nvEnd id c st
            | none => if x.kind = 2 then s.hbmBack id c x o else s.peerBack id c x

/-! ## Fetching a command (R357 to R360) -/

/-- A command being fetched: controller, queue, entry. -/
structure Fetched where
  i     : Nat
  y     : Nat
  entry : List Byte
  list  : List Nat
  deriving DecidableEq, Repr

def Fetched.cid (q : Fetched) : Nat := fieldAt q.entry 2 2
def Fetched.nsid (q : Fetched) : Nat := fieldAt q.entry 4 4
/-- Command dword n. -/
def Fetched.dw (q : Fetched) (n : Nat) : Nat := fieldAt q.entry (4 * n) 4

/-- Opcodes of R354. -/
def adminOps : List Nat := [0, 1, 2, 4, 5, 6, 8, 9, 0x0A, 0x0C]
def ioOps : List Nat := [0, 1, 2, 8, 9]

/-- Completes a fetched command at once. -/
def State.answer (s : State) (q : Fetched) (dw0 sct sc : Nat) : State := s.nvDone q.i q.y q.cid dw0 sct sc

/-- An entry is fetched: generation, entry read, opcode, arbiter (R357 to R360, R366, R375). `op` is the row's opcode and `admin`
its queue; an opcode outside R354 is answered by whichever row meets it, and one of another row's is left to that row. -/
def State.nvFetch (s : State) (e : NvmeFetch) (admin : Bool) (op : Nat) (k : State → Fetched → State) : State :=
  if admin ≠ decide (e.sq = 0) ∨ !s.mayFetch e.ctrl e.sq then s
  else match s.sq e.ctrl e.sq with
    | none => s
    | some q =>
      let s0 := s
      let (s, entry) : State × Option (List Byte) :=
        if (s.ctrl e.ctrl).mode = .host then
          match s.fnOf e.ctrl with
          | none => (s, none)
          | some fn => match s.masterReason fn with
            | some r => (s.masterRefused fn r, none)
            | none => (s, some (padTo 64 (e.entry.take 64)))
        else s.ctrlRead e.ctrl (q.base + 64 * q.head) 64
      match entry with
      | none => s.freeze e.ctrl e.sq 2
      | some b =>
        let o := fieldAt b 0 1
        if o ≠ op ∧ (if admin then adminOps else ioOps).contains o then s0
        else
          let allowed : Option State :=
            if admin then some s
            else if s.mayFetch e.ctrl 0 then none
            else match s.arbiter (some (e.ctrl, e.sq, b)) with
              | some (i, y, s') => if i = e.ctrl ∧ y = e.sq then some s' else none
              | none => none
          match allowed with
          | none => s0
          | some s =>
            let s := (s.putSq e.ctrl e.sq { q with head := (q.head + 1) % q.size }).nvStat 0
            let s := if admin then s else s.arbEmpty e.ctrl e.sq
            let s := s.modCtrl e.ctrl fun c => { c with idleAt := none, ps := 0 }
            let s := s.drivesPower
            if !s.ctrlFresh e.ctrl then s.nvStat 2
            else
              let f : Fetched := { i := e.ctrl, y := e.sq, entry := b, list := e.prpList }
              let s := if o ≠ op then s.answer f 0 0 1 else k s f
              s.nvAfter e.ctrl

/-- Bytes of an entry that its command reserves are zero; FUSE and PSDT too (R358). -/
def Fetched.clean (q : Fetched) (rs : List (Nat × Nat)) : Bool :=
  fieldAt q.entry 1 1 = 0 && fieldAt q.entry 8 8 = 0 && rs.all fun r => allZero (slice q.entry r.1 r.2)

/-! ## I/O commands -/

/-- A command on a namespace: reserved fields, NSID, LBA range, then its pages and its cipher key (R358, R419). -/
def State.nvIo (s : State) (q : Fetched) (op : NvOp) (slba nlb bytes : Nat) (more : List (Nat × Nat)) (flag : Bool) : State :=
  if q.nsid = 0 then s.answer q 0 0 0x0B
  else match s.nss (q.nsid - 1) with
    | none => s.answer q 0 0 0x0B
    | some x =>
      if !x.attach.contains q.i then s.answer q 0 0 0x0B
      else if (op ≠ .flush ∧ op ≠ .deallocate) ∧ (if x.lba4k then 512 else 4096) < nlb then s.answer q 0 0 2
      else if x.size < slba + nlb ∨ more.any (fun r => decide (x.size < r.1 + r.2)) then s.answer q 0 0 0x80
      else
        let (s, pages) := if op = .read ∨ op = .write then s.prps q.i q.entry q.list (bytes * x.lba) (op = .read) else (s, .ok [])
        match pages with
        | .error st => s.answer q 0 st.1 st.2
        | .ok ps =>
          let key := if x.cipher then s.nsKey x else none
          if x.cipher ∧ key.isNone ∧ op ≠ .flush ∧ op ≠ .deallocate then s.answer q 0 0 6
          else
            let (id, s) := s.newId
            let (op, data) : NvOp × List Byte :=
              if op = .zeroes ∧ key.isSome then (.write, zeros (nlb * x.lba)) else (op, [])
            let flag := if op = .write then bitAt (q.dw 12) 30 else flag
            let writes := (s.storage.cmds.filter fun e =>
              e.2.ns = q.nsid - 1 && (e.2.op = .write || e.2.op = .zeroes || e.2.op = .deallocate)).map (·.1)
            let copies := s.parcels.filter fun e => e.2.ckp.conf.any fun k => k.kind = 1 && k.nsid = q.nsid
            let c : NvCmd :=
              { ctrl := q.i, gen := s.genOf q.i, sq := q.y, cid := q.cid, op, ns := q.nsid - 1, slba, nlb, flag, more, data, prps := ps
                begun := false, at_ := s.now, aborted := none, due := 0, fail := none
                waits := if op = .flush then writes ++ copies.flatMap (·.2.ckp.outs) else [], key, dead := false, eng := none
                posts := if op = .flush then copies.flatMap (·.2.ckp.posts) else [] }
            let s := s.putCmd id c
            if op = .flush then s
            else if op = .write ∧ !ps.isEmpty then
              if (s.ctrl q.i).mode = .host then
                match s.fnOf q.i with
                | none => s.nvEnd id c (0, 4)
                | some fn =>
                  let (s', n) := s.queueReads q.i (s.genOf q.i) (fun o => .command id o) (ps.map fun p => (fn, p.1, p.2)) 0
                  s'.putCmd id { c with due := n, data := zeros (nlb * x.lba) }
              else match s.ctrlGet q.i ps with
                | (s, none) => s.nvEnd id c (0, 4)
                | (s, some d) => (s.putCmd id { c with data := d }).nvStart id
            else s.nvStart id

/-- NVM_FLUSH (R364). -/
def execNvmFlush (e : NvmeFetch) (s : State) : Res :=
  .next <| s.nvFetch e false 0 fun s q => if q.clean [(16, 48)] then s.nvIo q .flush 0 0 0 [] false else s.answer q 0 0 2

/-- Reserved bits of dword 12 of a Read, Write or Write Zeroes, and of dword 13. -/
def rwClean (q : Fetched) : Bool :=
  q.clean [(16, 8)] && bitsOf (q.dw 12) 23 16 = 0 && !bitAt (q.dw 12) 25 && q.dw 13 < 256

/-- NVM_WRITE (R361, R363). -/
def execNvmWrite (e : NvmeFetch) (s : State) : Res :=
  .next <| s.nvFetch e false 1 fun s q =>
    let n := bitsOf (q.dw 12) 15 0 + 1
    if rwClean q then s.nvIo q .write (fieldAt q.entry 40 8) n n [] (bitAt (q.dw 12) 30) else s.answer q 0 0 2

/-- NVM_READ (R361, R363). -/
def execNvmRead (e : NvmeFetch) (s : State) : Res :=
  .next <| s.nvFetch e false 2 fun s q =>
    let n := bitsOf (q.dw 12) 15 0 + 1
    if rwClean q then s.nvIo q .read (fieldAt q.entry 40 8) n n [] (bitAt (q.dw 12) 30) else s.answer q 0 0 2

/-- WRITE_ZEROES (R354); bit 25 is DEAC. -/
def execWriteZeroes (e : NvmeFetch) (s : State) : Res :=
  .next <| s.nvFetch e false 8 fun s q =>
    let n := bitsOf (q.dw 12) 15 0 + 1
    if q.clean [(16, 24), (52, 4)] && bitsOf (q.dw 12) 23 16 = 0 then
      s.nvIo q .zeroes (fieldAt q.entry 40 8) n 0 [] (bitAt (q.dw 12) 25)
    else s.answer q 0 0 2

/-- DATASET_MANAGEMENT (R354): Deallocate only. -/
def execDatasetManagement (e : NvmeFetch) (s : State) : Res :=
  .next <| s.nvFetch e false 9 fun s q =>
    if !(q.clean [(16, 8), (48, 16)] && q.dw 10 < 256 && q.dw 11 = 4) then s.answer q 0 0 2
    else
      let n := q.dw 10 + 1
      match s.prps q.i q.entry q.list (16 * n) false with
      | (s, .error st) => s.answer q 0 st.1 st.2
      | (s, .ok ps) => match s.ctrlGet q.i ps with
        | (s, none) => s.answer q 0 0 4
        | (s, some b) =>
          let rs := (List.range n).map fun j => (fieldAt b (16 * j + 8) 8, fieldAt b (16 * j + 4) 4)
          match rs with
          | [] => s.answer q 0 0 0
          | r :: t => s.nvIo q .deallocate r.1 r.2 0 t false

/-! ## Controllers enabled, reset and shut down (R352, R369, R370) -/

/-- A controller reset (R369): fetch stops, commands that have not begun are discarded, those that have finish unseen, and the
controller is Off when the last has. Master reads of discarded commands end. -/
def State.ctrlReset (s : State) (i : Nat) : State :=
  if (s.ctrl i).mode = .off then s
  else
    let gone := (s.cmdsOf i).filter fun e => !e.2.begun || e.2.due ≠ 0
    let s := gone.foldl (fun s e => s.dropCmd e.1) s
    let s := (s.cmdsOf i).foldl (fun s e => s.putCmd e.1 { e.2 with dead := true }) s
    let s := match s.fnOf i with
      | some fn => s.modFn fn fun x => { x with waiting := x.waiting.filter fun r => match r.dest with | .command _ _ => false | _ => true }
      | none => s
    let s := s.modCtrl i fun c => { c with rdy := false, resetting := true }
    (s.startFlushes).nvAfter i

/-- A shutdown begins (R370). -/
def State.ctrlShut (s : State) (i : Nat) : State :=
  if (s.ctrl i).mode = .off ∨ (s.ctrl i).shst ≠ 0 ∨ (s.ctrl i).resetting then s
  else (s.modCtrl i fun c => { c with shst := 1 }).nvAfter i

/-- A BAR0 access reaches a bound function's registers (R380, R385, R396, R400): one to a function in D3hot or in a reset is an
Unsupported Request, one to an unbound function does nothing. It wakes the device (R435). -/
def State.barWrite (s : State) (fn : Nat) (k : State → Nat → State) : State :=
  if !s.pcie.linkUp ∨ (fn ≠ 0 ∧ !s.pcie.vfEnable) then s
  else if (s.fn fn).d3 ∨ (s.fn fn).flr then s.aerUncor fn erUnsupported true
  else match (s.fn fn).bound with
    | none => s
    | some i => k s.wakeDeep i

/-- CC_EN_WRITE (R352, R353, R369): CC is written with EN; 1 enables an Off controller, 0 resets a Host one. -/
def execCcEnWrite (fn : Nat) (v : BitVec 32) (s : State) : Res :=
  .next <| s.barWrite fn fun s i =>
    let c := s.ctrl i
    if c.mode = .device then s
    else if v.getLsbD 0 then
      if c.resetting then s.modCtrl i fun c => { c with heldCc := some v }
      else if c.mode = .off then s.hostEnable i v
      else s.modCtrl i fun c => { c with cc := v }
    else if c.mode = .host then (s.modCtrl i fun c => { c with cc := v, heldCc := none }).ctrlReset i
    else s.modCtrl i fun c => { c with cc := v, cfs := false }

/-- CC_SHN_WRITE (R370): SHN 1 or 2 shuts a Host controller down. -/
def execCcShnWrite (fn : Nat) (v : BitVec 32) (s : State) : Res :=
  .next <| s.barWrite fn fun s i =>
    let c := s.ctrl i
    let n := bitsOf v.toNat 15 14
    if c.mode = .host ∧ (n = 1 ∨ n = 2) then (s.modCtrl i fun c => { c with cc := v }).ctrlShut i else s

/-- SQ_DOORBELL_WRITE (R357, R366): a doorbell of the register file, 4 bytes each from 0x1000, SQ tail and CQ head in turn. -/
def execSqDoorbellWrite (fn off : Nat) (v : BitVec 32) (s : State) : Res :=
  .next <| s.barWrite fn fun s i =>
    if off < 0x1000 ∨ 0x10000 ≤ off ∨ off % 4 ≠ 0 ∨ (s.ctrl i).mode ≠ .host then s
    else (s.nvDoorbell i ((off - 0x1000) / 8) (off % 8 = 4) (v.toNat % 65536)).nvAfter i

/-- DOORBELL_AREA_POLL (R356): the whole doorbell area of a Device controller is read, and each queue takes its doorbells; suspended at
Doze (R437). -/
def execDoorbellAreaPoll (i : Nat) (s : State) : Res :=
  .next <|
    if (s.ctrl i).mode ≠ .device ∨ 2 ≤ s.power.rung then s
    else
      match s.ctrlRead i (s.ctrl i).dbArea 32768 with
      | (s, none) => s
      | (s, some b) =>
        let s := (s.ctrl i).sqs.foldl (fun s e => s.nvDoorbell i e.1 false (fieldAt b (8 * e.1) 4)) s
        ((s.ctrl i).cqs.foldl (fun s e => s.nvDoorbell i e.1 true (fieldAt b (8 * e.1 + 4) 4)) s).nvAfter i

/-- APST_IDLE_EXPIRE (R373): an idle controller in PS0 enters the target state of its table's first entry. -/
def execApstIdleExpire (i : Nat) (s : State) : Res :=
  .next <|
    let c := s.ctrl i
    let e := fieldAt c.feat.apstTab 0 8
    let ps := bitsOf e 7 3
    let ms := bitsOf e 31 8
    match c.idleAt with
    | some t =>
      if c.mode ≠ .off ∧ c.feat.apst.getLsbD 0 ∧ c.ps = 0 ∧ ms ≠ 0 ∧ (ps = 1 ∨ ps = 2) then
        ((s.reach (t + ms * 1000000)).modCtrl i fun c => { c with ps }).drivesPower
      else s
    | none => s

/-- AGGREGATION_TIME_EXPIRE (R354): the held message of a completion queue is sent. -/
def execAggregationTimeExpire (i cq : Nat) (s : State) : Res :=
  .next <|
    match s.cq i cq, s.fnOf i with
    | some q, some fn =>
      match q.coalAt with
      | some t =>
        (((s.reach (t + bitsOf (s.ctrl i).feat.coal.toNat 15 8 * 100000)).putCq i cq { q with coal := 0, coalAt := none }).msix fn q.vec)
      | none => s
    | _, _ => s

/-! ## Drives (R365, R404) -/

/-- Every command for a drive's namespaces that is at the drive completes with a status; a checkpoint copy with
commands there fails (R198). -/
def State.endDrive (s : State) (p : Nat) (st : Nat × Nat) : State :=
  let s := s.storage.cmds.foldl (fun s (id, c) =>
    match s.nss c.ns with
    | some x => if x.kind = 1 && x.port = p && c.begun then s.nvEnd id c st else s
    | none => s) s
  s.parcels.foldl (fun s e =>
    let uses : Bool := match e.2.ckp.conf with
      | some c => c.kind = 1 && (match s.nss (c.nsid - 1) with | some x => x.kind = 1 && x.port = p | none => false)
      | none => false
    if uses && !e.2.ckp.outs.isEmpty then s.ckpFail e.1 2 else s) s

/-- The port of a drive command in progress. -/
def State.portOfCmd (s : State) (c : NvCmd) : Option Nat :=
  match s.nss c.ns with | some x => if x.kind = 1 then some x.port else none | none => none

/-- A STO_NS_DELETE whose drive has answered, or has not in time: the namespace goes (R362). -/
def State.endNsDelete (s : State) (id : Nat) (ok : Bool) : State :=
  match s.storage.deletes.find id with
  | none => s
  | some (w, n) =>
    let s : State := { s with storage := { s.storage with
      deletes := Tbl.del s.storage.deletes id, nss := Tbl.del s.storage.nss n } }
    if ok then s.finish w 0 0 [] else (s.raise blkNVC 0x80FF none n 0).finish w 0x8009 0 []

/-- A namespace goes with its owner (R215): commands on it end with SC 0x0B, a deletion in progress ends, and each controller it was
attached to hears of it. -/
def State.dropNs (s : State) (n : Nat) (x : Namespace) : State :=
  let s := (s.storage.cmds.filter fun e => e.2.ns = n).foldl (fun s e => s.nvEnd e.1 e.2 (0, 0x0B)) s
  let ws := (s.storage.closing.filter fun e => e.1 = n).map (·.2) ++ (s.storage.deletes.filter fun e => e.2.2 = n).map (·.2.1)
  let st := s.storage
  let s : State := { s with storage := { st with
    nss := Tbl.del st.nss n, closing := Tbl.del st.closing n, deletes := st.deletes.filter fun e => e.2.2 ≠ n } }
  ws.foldl (fun s w => s.finish w 0 0 []) (x.attach.foldl (fun s i => s.nsChanged i n) s)

/-- A drive flush of a shutdown has ended (R370). -/
def State.endShutFlush (s : State) (id : Nat) : State :=
  s.storage.ctrls.foldl (fun s e =>
    if (s.ctrl e.1).flushes.contains id then
      let s := s.modCtrl e.1 fun c => { c with flushes := c.flushes.filter fun x => x ≠ id }
      if (s.ctrl e.1).flushes.isEmpty ∧ (s.ctrl e.1).shst = 1 then
        let w := (s.ctrl e.1).enWait
        let s := s.modCtrl e.1 fun c => { c with shst := 2, enWait := none }
        match w with | some w => s.finish w 0 0 [] | none => s
      else s
    else s) s

/-- DRIVE_COMPLETION_RECEIVE (R365): a drive completes a command of a namespace or of a checkpoint copy, a flush of a shutdown, or the
zeroing of a deleted namespace. -/
def execDriveCompletionReceive (id : Nat) (r : BackingResult) (s : State) : Res :=
  .next <|
    match s.storage.cmds.find id with
    | some c =>
      match s.nss c.ns with
      | some x =>
        if x.kind ≠ 1 ∨ !c.begun then s
        else match c.fail with
          | some st => s.nvEnd id c st
          | none => if c.aborted.isSome then s.nvEnd id c (0, 0x21) else s.outerBack id c x r
      | none => s
    | none =>
      if s.storage.deletes.has id then s.endNsDelete id (r.code = .ok)
      else match s.copyOf id with
        | some p => (if r.code = .ok then s.modCkp p fun k => { k with outs := k.outs.erase id } else s.ckpFail p 2).startFlushes
        | none => s.endShutFlush id

/-- DRIVE_TIMEOUT (R365): a command exceeds NVC_DRVTO and is aborted at the drive. -/
def execDriveTimeout (id : Nat) (s : State) : Res :=
  .next <|
    match s.storage.cmds.find id with
    | some c =>
      match s.portOfCmd c with
      | some p =>
        if !c.begun ∨ c.aborted.isSome then s
        else
          let s := s.reach (c.at_ + s.storage.drvto * 1000000)
          let s := (s.nvStat 3).raise blkNVC 0x8005 (some c.ctrl) p (s.storage.drvto * 1000)
          (s.putCmd id { c with aborted := some s.now }).emit (.driveAdmin p 1 id)
      | none => s
    | none =>
      if s.storage.deletes.has id then s.endNsDelete id false
      else match s.copyOf id with
        | some p => (s.ckpFail p 2).startFlushes
        | none => s.endShutFlush id

/-- A drive's controller is reset (R365): its commands complete with SC 0x82, but the one whose abort failed with SC 0x21. -/
def State.resetDrive (s : State) (p : Nat) : State :=
  ((s.modDrive p fun d => { d with resetting := true, low := 0 }).emit (.driveAdmin p 2 0)).endDrive p (0, 0x82)

/-- DRIVE_RESET_TIMEOUT (R365): an aborted command is still incomplete after 1 s; the drive's controller is reset. -/
def execDriveResetTimeout (id : Nat) (s : State) : Res :=
  .next <|
    match s.storage.cmds.find id with
    | some c =>
      match c.aborted, s.portOfCmd c with
      | some t, some p => ((s.reach (t + 1000000000)).nvEnd id c (0, 0x21)).resetDrive p
      | _, _ => s
    | none => s

/-- The class code of an NVM Express controller (R404). -/
def nvmeClass : Nat := 0x010802

/-- DRIVE_LINK_UP (R365, R404): the port trains, the device is enumerated and the drive enabled (3), given 64 I/O queue pairs of 1,024
entries (4) and asked for its namespaces (5); another class of device leaves the port failed. A drive that was being reset is ready
again. -/
def execDriveLinkUp (port : Nat) (d : DriveInfo) (s : State) : Res :=
  .next <|
    if s.boot.phase ≠ .running ∨ s.pins.prsnt.getD port false then s
    else
      let ok : Bool := d.classCode = nvmeClass
      let s := if s.pins.rpPerst.getD port true then
          ({ s with pins := { s.pins with rpPerst := s.pins.rpPerst.put port false } }).emit
            (.pin ("RP" ++ toString port ++ "_PERST_N") true)
        else s
      let s := s.modRoot port fun r => { r with state := if ok then .up else .failed, rate := d.rate, width := d.width }
      let s := (s.raise blkPCE 0x9006 none port (if ok then 2 else 3)).modDrive port fun _ =>
        { state := if ok then .ready else .failed, nss := if ok then d.namespaces else [], exitUs := d.exitUs, vwc := d.vwc
          resetting := false, low := 0 }
      let s := if ok then [(3, 0), (4, 64 * 65536 + 1024), (5, 0)].foldl (fun (s : State) c => s.emit (.driveAdmin port c.1 c.2)) s else s
      (s.raise blkNVC 0x8006 none port (if ok then 2 else 3)).drivesPower

/-- A drive is no longer reached: its commands complete with SC 0x82 (R365). -/
def State.driveGone (s : State) (p : Nat) (st : DriveState) : State :=
  let s := (s.modDrive p fun d => { d with state := st, resetting := false, low := 0 }).raise blkNVC 0x8006 none p
    (match st with | .absent => 0 | .training => 1 | .ready => 2 | .failed => 3)
  s.endDrive p (0, 0x82)

/-- ROOT_PORT_LINK_DOWN (R365, R404): the port drives the drive's reset and its commands complete with SC 0x82. -/
def execRootPortLinkDown (port : Nat) (s : State) : Res :=
  .next <|
    if (s.rootPort port).state ≠ .up then s
    else
      let s := s.modRoot port fun r => { r with state := .down, rate := 0, width := 0, grants := [], downAt := s.now }
      let s := ({ s with pins := { s.pins with rpPerst := s.pins.rpPerst.put port true } }).emit
        (.pin ("RP" ++ toString port ++ "_PERST_N") false)
      (s.raise blkPCE 0x9006 none port 0).driveGone port .training

/-- ROOT_PORT_AER_ERROR (R404): the error is counted and recorded; an uncorrectable one resets the drive's controller. -/
def execRootPortAerError (port : Nat) (uncorr : Bool) (s : State) : Res :=
  .next <|
    let s := (s.modRoot port fun r => { r with errors := min 0xFFFFFFFF (r.errors + 1) }).raise blkPCE 0x90FF none port (0x200 + bit uncorr)
    if uncorr && decide ((s.drive port).state = .ready) then s.resetDrive port else s

end Sys2Proof.Machine
end

