-- ==== Sys2Proof/Machine/NvmeAdmin.lean ====
section
/-! DEFINITION. The admin commands of R354: queues, Identify, log pages, features, Abort and asynchronous events. Layouts of the data
structures are those of NVM Express 2.0 (log entry 14). -/

namespace Sys2Proof.Machine

/-- Data returned by an admin command goes to its pages; a failed transfer is a Data Transfer Error (R358). -/
def State.giveData (s : State) (q : Fetched) (data : List Byte) : State :=
  match s.prps q.i q.entry q.list data.length true with
  | (s, .error st) => s.answer q 0 st.1 st.2
  | (s, .ok ps) => match s.ctrlPut q.i ps data with
    | (s', true) => s'.answer q 0 0 0
    | (s', false) => s'.answer q 0 0 4

/-! ## Queues (R355, R356, R367) -/

/-- I/O submission queues of a controller, and of the device. -/
def NvCtrl.ioSqs (c : NvCtrl) : Nat := (c.sqs.filter fun e => e.1 ≠ 0).length
def State.allSqs (s : State) : Nat := (s.storage.ctrls.map fun e => e.2.ioSqs).sum

/-- The interrupt vector or token of a completion queue is valid (R356): a vector of the function's table, or a token of a facet in a
parcel of the instance. -/
def State.vectorOk (s : State) (i v : Nat) : Bool :=
  if (s.ctrl i).mode = .host then (match s.fnOf i with | some fn => decide (v < vectors fn) | none => false)
  else match s.parcelOf (v / 32) with
    | some p => (s.parcel p).inst = i
    | none => false

/-- CREATE_IO_CQ (R355, R356). -/
def execCreateIoCq (e : NvmeFetch) (s : State) : Res :=
  .next <| s.nvFetch e true 5 fun s q =>
    let y := bitsOf (q.dw 10) 15 0
    let size := bitsOf (q.dw 10) 31 16 + 1
    let c := s.ctrl q.i
    let ien := bitAt (q.dw 11) 1
    let v := bitsOf (q.dw 11) 31 16
    if !q.clean [(16, 8), (32, 8), (48, 16)] || bitsOf (q.dw 11) 15 2 ≠ 0 || !bitAt (q.dw 11) 0 then s.answer q 0 0 2
    else if fieldAt q.entry 24 8 % 4096 ≠ 0 then s.answer q 0 0 0x13
    else if y = 0 ∨ c.granted < y ∨ (c.cqs.find y).isSome then s.answer q 0 1 1
    else if size < 2 then s.answer q 0 1 2
    else if ien && !s.vectorOk q.i v then s.answer q 0 1 8
    else
      let x : NvCq :=
        { base := fieldAt q.entry 24 8, size, head := 0, tail := 0, phase := true, ien, vec := v, coal := 0, coalAt := none, stuck := []
          failed := false }
      (s.putCq q.i y x).answer q 0 0 0

/-- CREATE_IO_SQ (R355): it counts against the SQP share (R211), and the device holds at most 4,096. -/
def execCreateIoSq (e : NvmeFetch) (s : State) : Res :=
  .next <| s.nvFetch e true 1 fun s q =>
    let y := bitsOf (q.dw 10) 15 0
    let size := bitsOf (q.dw 10) 31 16 + 1
    let c := s.ctrl q.i
    let n := bitsOf (q.dw 11) 31 16
    if !q.clean [(16, 8), (32, 8), (48, 16)] || bitsOf (q.dw 11) 15 3 ≠ 0 || !bitAt (q.dw 11) 0 then s.answer q 0 0 2
    else if fieldAt q.entry 24 8 % 4096 ≠ 0 then s.answer q 0 0 0x13
    else if y = 0 ∨ c.granted < y ∨ (c.sqs.find y).isSome ∨ (s.inst q.i).shares.sqp ≤ c.ioSqs ∨ 4096 ≤ s.allSqs then s.answer q 0 1 1
    else if size < 2 then s.answer q 0 1 2
    else if n = 0 || (c.cqs.find n).isNone || c.sqs.any (fun e => e.2.cq = n) then s.answer q 0 1 0
    else
      let x : NvSq := { base := fieldAt q.entry 24 8, size, head := 0, tail := 0, cq := n, frozen := false, deleting := none }
      (s.putSq q.i y x).answer q 0 0 0

/-- The master reads of a command that wait to be sent are not sent. -/
def State.dropWaiting (s : State) (i id : Nat) : State :=
  match s.fnOf i with
  | some fn => s.modFn fn fun x =>
    { x with waiting := x.waiting.filter fun r => match r.dest with | .command m _ => decide (m ≠ id) | _ => true }
  | none => s

/-- DELETE_IO_SQ (R367): commands that have not begun their backing access end with SC 0x08; it completes once the rest have. -/
def execDeleteIoSq (e : NvmeFetch) (s : State) : Res :=
  .next <| s.nvFetch e true 0 fun s q =>
    let y := bitsOf (q.dw 10) 15 0
    if !q.clean [(16, 24), (44, 20)] || bitsOf (q.dw 10) 31 16 ≠ 0 then s.answer q 0 0 2
    else match if y = 0 then none else s.sq q.i y with
      | none => s.answer q 0 1 1
      | some x =>
        let s := s.putSq q.i y { x with deleting := some q.cid }
        ((s.cmdsOf q.i).filter fun e => e.2.sq = y && (!e.2.begun || e.2.due ≠ 0)).foldl
          (fun s e => ((s.dropWaiting q.i e.1).dropCmd e.1).nvDone q.i y e.2.cid 0 0 8) s

/-- DELETE_IO_CQ (R355): one that a submission queue uses is not deleted. -/
def execDeleteIoCq (e : NvmeFetch) (s : State) : Res :=
  .next <| s.nvFetch e true 4 fun s q =>
    let y := bitsOf (q.dw 10) 15 0
    if !q.clean [(16, 24), (44, 20)] || bitsOf (q.dw 10) 31 16 ≠ 0 then s.answer q 0 0 2
    else if y = 0 ∨ (s.cq q.i y).isNone then s.answer q 0 1 1
    else if (s.ctrl q.i).sqs.any fun e => e.2.cq = y then s.answer q 0 1 0x0C
    else (s.modCtrl q.i fun c => { c with cqs := Tbl.del c.cqs y }).answer q 0 0 0

/-! ## Identify (R354, R361) -/

/-- Bytes laid over others at an offset. -/
def overlay (bs : List Byte) (o : Nat) (new : List Byte) : List Byte := bs.take o ++ new ++ bs.drop (o + new.length)

/-- `n` bytes that no rule states (log entry 6). -/
def openBytes (o n : Nat) : List Byte := (List.range n).map fun j => Config.identifyByte (o + j)

/-- A power state descriptor: maximum power in 10 mW, non-operational, entry and exit latency in µs. -/
def psDescriptor (mp : Nat) (nops : Bool) (en ex : Nat) : List Byte :=
  padTo 32 (leBytes 2 mp ++ zeros 1 ++ leBytes 1 (2 * bit nops) ++ leBytes 4 en ++ leBytes 4 ex)

/-- Identify Controller: the fixed values of R354, the identifiers of R378. -/
def identifyController (i : Nat) : List Byte :=
  let f : List (Nat × List Byte) :=
    [(0, leBytes 2 0x1F9C), (2, leBytes 2 0x1F9C), (77, leBytes 1 9), (78, leBytes 2 i), (80, leBytes 4 0x00020000), (92, leBytes 4 0x300),
     (111, leBytes 1 1), (256, leBytes 2 0), (258, leBytes 2 0x0303), (260, leBytes 1 3), (262, leBytes 1 63), (263, leBytes 1 2),
     (265, leBytes 1 1), (270, leBytes 2 10), (512, leBytes 2 0x4466), (516, leBytes 4 1024), (520, leBytes 2 0x0C), (525, leBytes 1 1),
     (536, leBytes 4 0), (2048, psDescriptor 2500 false 0 0 ++ psDescriptor 800 true 20 100 ++ psDescriptor 200 true 1000 10000)]
  f.foldl (fun bs e => overlay bs e.1 e.2) (openBytes 0 4096)

/-- Identify Namespace: size, LBA formats and NMIC. -/
def Namespace.identifyData (x : Namespace) : List Byte :=
  let f : List (Nat × List Byte) :=
    [(0, leBytes 8 x.size ++ leBytes 8 x.size ++ leBytes 8 x.size), (25, leBytes 1 1), (26, leBytes 1 (bit x.lba4k)),
     (30, leBytes 1 (bit (1 < x.attach.length))), (128, leBytes 4 0x00090000 ++ leBytes 4 0x000C0000)]
  f.foldl (fun bs e => overlay bs e.1 e.2) (zeros 4096)

/-- The namespaces attached to a controller whose NSID is above one. -/
def State.activeNs (s : State) (i above : Nat) : List Nat :=
  ((s.storage.nss.filter fun e => e.2.attach.contains i && decide (above < e.1 + 1)).map fun e => e.1 + 1).take 1024

/-- IDENTIFY (R354): CNS 0 to 3. -/
def execIdentify (e : NvmeFetch) (s : State) : Res :=
  .next <| s.nvFetch e true 6 fun s q =>
    let cns := q.dw 10 % 256
    if !q.clean [(16, 8)] || 3 < cns || bitsOf (q.dw 10) 15 8 ≠ 0 then s.answer q 0 0 2
    else if cns = 1 then s.giveData q (identifyController q.i)
    else if cns = 2 then s.giveData q (padTo 4096 ((s.activeNs q.i q.nsid).flatMap fun n => leBytes 4 n))
    else if q.nsid = 0 then s.answer q 0 0 0x0B
    else match s.nss (q.nsid - 1) with
      | none => s.answer q 0 0 0x0B
      | some x =>
        if !x.attach.contains q.i then s.answer q 0 0 0x0B
        else if cns = 0 then s.giveData q x.identifyData
        else s.giveData q (padTo 4096 ([3, 16, 0, 0] ++ openBytes (4096 + 16 * q.nsid) 16))

/-! ## Log pages (R354) -/

/-- The SMART / Health Information page: the counts the controller keeps; the temperature is a free value, the rest is no rule's. -/
def smartPage (c : NvCtrl) (temp : Nat) : List Byte :=
  let kilo (u : BitVec 64) : Nat := (u.toNat + 999) / 1000
  let f : List (Nat × List Byte) :=
    [(1, leBytes 2 temp), (32, leBytes 16 (kilo c.unitsR)), (48, leBytes 16 (kilo c.unitsW)), (64, leBytes 16 c.reads.toNat),
     (80, leBytes 16 c.writes.toNat), (176, leBytes 16 c.errCnt.toNat)]
  f.foldl (fun bs e => overlay bs e.1 e.2) (openBytes 8192 512)

/-- The Commands Supported and Effects page: bit 0 says that a command is supported, bit 1 that it changes LBA content. -/
def effectsPage : List Byte :=
  (List.range 1024).flatMap fun j =>
    leBytes 4 (if j < 256 then bit (adminOps.contains j)
      else if j < 512 then bit (ioOps.contains (j - 256)) + 2 * bit ([1, 8, 9].contains (j - 256)) else 0)

/-- GET_LOG_PAGE (R354, R367): reading a page without Retain Asynchronous Event unmasks its event type and clears the Changed
Namespace List. -/
def execGetLogPage (e : NvmeFetch) (s : State) : Res :=
  .next <| s.nvFetch e true 2 fun s q =>
    let lid := q.dw 10 % 256
    let n := 4 * (bitsOf (q.dw 10) 31 16 + 65536 * bitsOf (q.dw 11) 15 0 + 1)
    let off := fieldAt q.entry 48 8
    let c := s.ctrl q.i
    if !q.clean [(16, 8)] || off % 4 ≠ 0 then s.answer q 0 0 2
    else
      let (temp, s) := if lid = 2 then s.takeFree else (0, s)
      let page : Option (List Byte) :=
        match lid with
        | 1 => some (padTo 4096 c.errs.flatten)
        | 2 => some (smartPage c temp)
        | 3 => some (padTo 512 (overlay (overlay (zeros 512) 0 [1]) 8 (openBytes 64 8)))
        | 4 => some (padTo 4096 ((c.changed.mergeSort (· ≤ ·)).flatMap fun m => leBytes 4 m))
        | 5 => some effectsPage
        | _ => none
      match page with
      | none => s.answer q 0 0 2
      | some p =>
        let typ := if lid = 1 then 0 else if lid = 2 then 1 else 2
        let s := if bitAt (q.dw 10) 15 ∨ lid = 5 then s
          else s.modCtrl q.i fun c => { c with masked := c.masked.filter fun t => t ≠ typ, changed := if lid = 4 then [] else c.changed }
        s.giveData q (padTo n (slice p off n))

/-! ## Features (R354) -/

/-- SET_FEATURES (R354, R355, R372, R373). -/
def execSetFeatures (e : NvmeFetch) (s : State) : Res :=
  .next <| s.nvFetch e true 9 fun s q =>
    let v := q.dw 11
    let w : BitVec 32 := BitVec.ofNat 32 v
    let put (g : NvFeatures → NvFeatures) : State := s.modCtrl q.i fun c => { c with feat := g c.feat }
    if !q.clean [(16, 8)] || 256 ≤ q.dw 10 then s.answer q 0 0 2
    else match q.dw 10 with
      | 1 => (put fun f => { f with arb := w }).answer q 0 0 0
      | 2 =>
        if 2 < v % 32 then s.answer q 0 0 2
        else
          let s := (put fun f => { f with pm := w }).modCtrl q.i fun c => { c with ps := v % 32 }
          s.drivesPower.answer q 0 0 0
      | 4 =>
        (put fun f => if bitsOf v 21 20 = 1 then { f with tempUnder := w } else { f with temp := w }).answer q 0 0 0
      | 6 => (put fun f => { f with vwc := w &&& 1 }).answer q 0 0 0
      | 7 =>
        if v % 65536 = 0xFFFF ∨ v / 65536 = 0xFFFF then s.answer q 0 0 2
        else if (s.ctrl q.i).ioSqs ≠ 0 ∨ (s.ctrl q.i).cqs.any fun e => e.1 ≠ 0 then s.answer q 0 0 0x0C
        else
          let n := min (min (v % 65536 + 1) (v / 65536 + 1)) (min 4095 (s.inst q.i).shares.sqp)
          let s := (put fun f => { f with nq := w }).modCtrl q.i fun c => { c with granted := n }
          if n = 0 then let (x, s) := s.takeFree; s.answer q (x % 2 ^ 32) 0 0
          else s.answer q ((n - 1) * 65537) 0 0
      | 8 => (put fun f => { f with coal := w }).answer q 0 0 0
      | 9 =>
        let t := (s.ctrl q.i).feat.ivc
        if (match s.fnOf q.i with | some fn => decide (vectors fn ≤ v % 65536) | none => true) then s.answer q 0 0 2
        else (put fun f => { f with ivc := t.put (v % 65536) w }).answer q 0 0 0
      | 0x0B => if 0x400 ≤ v then s.answer q 0 0 2 else (put fun f => { f with aec := w }).answer q 0 0 0
      | 0x0C =>
        match s.prps q.i q.entry q.list 256 false with
        | (s, .error st) => s.answer q 0 st.1 st.2
        | (s, .ok ps) => match s.ctrlGet q.i ps with
          | (s, none) => s.answer q 0 0 4
          | (s, some b) => (s.modCtrl q.i fun c => { c with feat := { c.feat with apst := w &&& 1, apstTab := b } }).answer q 0 0 0
      | _ => s.answer q 0 0 2

/-- GET_FEATURES (R354): the current value in Dword 0; APST also returns its table. -/
def execGetFeatures (e : NvmeFetch) (s : State) : Res :=
  .next <| s.nvFetch e true 0x0A fun s q =>
    let f := (s.ctrl q.i).feat
    let v := q.dw 11
    if !q.clean [(16, 8)] || 256 ≤ q.dw 10 then s.answer q 0 0 2
    else match q.dw 10 with
      | 1 => s.answer q f.arb.toNat 0 0
      | 2 => s.answer q (f.pm.toNat / 32 * 32 + (s.ctrl q.i).ps) 0 0
      | 4 => s.answer q (if bitsOf v 21 20 = 1 then f.tempUnder.toNat else f.temp.toNat) 0 0
      | 6 => s.answer q f.vwc.toNat 0 0
      | 7 => s.answer q (((s.ctrl q.i).granted - 1) * 65537) 0 0
      | 8 => s.answer q f.coal.toNat 0 0
      | 9 => s.answer q (f.ivc.getD (v % 65536) (BitVec.ofNat 32 (v % 65536))).toNat 0 0
      | 0x0B => s.answer q f.aec.toNat 0 0
      | 0x0C =>
        match s.prps q.i q.entry q.list 256 true with
        | (s, .error st) => s.answer q 0 st.1 st.2
        | (s, .ok ps) => match s.ctrlPut q.i ps (padTo 256 f.apstTab) with
          | (s', true) => s'.answer q f.apst.toNat 0 0
          | (s', false) => s'.answer q 0 0 4
      | _ => s.answer q 0 0 2

/-! ## Abort and asynchronous events (R354, R368) -/

/-- NVME_ABORT (R368): a fetched command that has begun nothing, an Asynchronous Event Request among them, is ended first; bit 0 of
Dword 0 is set in every other case. The Abort completes once the target's completion has been written, and at most four wait. -/
def execNvmeAbort (e : NvmeFetch) (s : State) : Res :=
  .next <| s.nvFetch e true 8 fun s q =>
    let y := bitsOf (q.dw 10) 15 0
    let cid := bitsOf (q.dw 10) 31 16
    let wait (s : State) (late : Bool) : State :=
      (s.modCtrl q.i fun c => { c with aborts := c.aborts ++ [{ cid := q.cid, sq := y, target := cid, late }] }).finishNvAborts q.i
    if !q.clean [(16, 24), (44, 20)] then s.answer q 0 0 2
    else if 4 ≤ (s.ctrl q.i).aborts.length then s.answer q 0 1 3
    else if y = 0 ∧ (s.ctrl q.i).aers.contains cid then
      wait ((s.modCtrl q.i fun c => { c with aers := c.aers.erase cid }).nvDone q.i 0 cid 0 0 7) false
    else match (s.cmdsOf q.i).find? fun e => e.2.sq = y && e.2.cid = cid && !e.2.begun with
      | some (id, c) => wait (((s.dropWaiting q.i id).dropCmd id).nvDone q.i y c.cid 0 0 7) false
      | none => wait s true

/-- ASYNCHRONOUS_EVENT_REQUEST (R354): at most four wait; an event that waits completes one at once. -/
def execAsynchronousEventRequest (e : NvmeFetch) (s : State) : Res :=
  .next <| s.nvFetch e true 0x0C fun s q =>
    let c := s.ctrl q.i
    if !q.clean [(16, 48)] then s.answer q 0 0 2
    else if 4 ≤ c.aers.length then s.answer q 0 1 5
    else match c.aens.find? fun dw => !c.masked.contains (dw.toNat % 8) with
      | some dw =>
        (s.modCtrl q.i fun c => { c with aens := c.aens.filter fun x => x ≠ dw, masked := c.masked ++ [dw.toNat % 8] }).answer q dw.toNat 0 0
      | none => s.modCtrl q.i fun c => { c with aers := c.aers ++ [q.cid] }

end Sys2Proof.Machine
end

