-- ==== Sys2Proof/Machine/StorageCommands.lean ====
section
/-! DEFINITION. The storage command packets of spec/14, and the controller register. -/

namespace Sys2Proof.Machine

/-! ## STO_CTRL_EN and STO_CTRL_STATUS (R352, R353, R356) -/

/-- An instance range translates for reading. -/
def State.mapsRd (s : State) (i a n : Nat) : Bool := match s.rangesOf i a n false with | .ok _ => true | .error _ => false

/-- STO_CTRL_EN after its parameter checks. SHN goes before EN; a reset ends a shutdown that is waited for with 0x8001. -/
def stoCtrlEnRun (s : State) (w : Waiter) (_ : Nat) (ps : List Byte) : Act :=
  let i := fieldAt ps 0 1
  let fl := fieldAt ps 1 1
  let c := s.ctrl i
  let late (s : State) : State := match c.enWait with | some w => s.finish w 0x8001 0 [] | none => s
  if c.mode = .host then fails s 0x8001
  else if bitAt fl 1 then
    if c.mode ≠ .device ∨ c.resetting ∨ c.shst ≠ 0 then fails s 0x8001
    else .wait ((s.modCtrl i fun c => { c with enWait := some w }).ctrlShut i)
  else if bitAt fl 0 then
    let sqs := fieldAt ps 2 2 + 1
    let cqs := fieldAt ps 4 2 + 1
    let asq := fieldAt ps 8 8
    let acq := fieldAt ps 16 8
    let db := fieldAt ps 24 8
    if c.mode ≠ .off then fails s 0x8001
    else if !s.mapsRd i asq (64 * sqs) || !s.mapsRw i acq (16 * cqs) || !s.mapsRd i db 32768 then fails s 0x8002
    else
      let cq : NvCq :=
        { base := acq, size := cqs, head := 0, tail := 0, phase := true, ien := false, vec := 0, coal := 0, coalAt := none, stuck := []
          failed := false }
      let sq : NvSq := { base := asq, size := sqs, head := 0, tail := 0, cq := 0, frozen := false, deleting := none }
      okay (s.modCtrl i fun c => { c with
        mode := .device, rdy := true, gen := s.genOf i, sqs := [(0, sq)], cqs := [(0, cq)], dbArea := db, pollUs := fieldAt ps 6 2, ps := 0
        idleAt := some s.now })
  else if c.mode ≠ .device ∨ c.resetting then fails s 0x8001
  else .wait (((late s).modCtrl i fun c => { c with enWait := some w }).ctrlReset i)

/-- STO_CTRL_EN: the queue fields are checked when they are used. -/
def stoCtrlEnSpec : Spec :=
  { opcode := 0x8001, permits := ownAt 0, plen := fixed 32
    fields := fun _ ps =>
      let en : Bool := fieldAt ps 1 1 = 1
      let on (f : Nat × Bool) : Nat × Bool := (f.1, !en || f.2)
      [below ps 0 1 64, below ps 1 1 4, on (within ps 2 2 1 4095), on (within ps 4 2 1 4095), on (within ps 6 2 1 1000),
       on (address ps 8 4096), on (address ps 16 4096), on (address ps 24 4096)]
    run := stoCtrlEnRun }

/-- STO_CTRL_EN (R352). -/
def execStoCtrlEn (c : Cmd) (s : State) : Res := .next (s.command stoCtrlEnSpec c)

/-- NVC_CTRLn. -/
def State.nvcCtrl (s : State) (i : Nat) : BitVec 64 :=
  let c := s.ctrl i
  pack [(62, 2, match c.mode with | .off => 0 | .host => 1 | .device => 2), (61, 1, bit c.rdy), (60, 1, bit c.cfs), (58, 2, c.ps),
    (56, 2, c.shst), (44, 12, c.ioSqs), (32, 12, (c.sqs.filter fun e => e.1 ≠ 0 && e.2.frozen).length), (16, 16, c.lost),
    (0, 16, (s.cmdsOf i).length)]

/-- STO_CTRL_STATUS. -/
def stoCtrlStatusSpec : Spec :=
  { opcode := 0x8002, permits := ownAt 0, plen := fixed 8, fields := fun _ ps => [below ps 0 1 64, rsv ps 1 7]
    run := fun s _ _ ps =>
      let i := fieldAt ps 0 1
      gives s (leBytes 8 (s.nvcCtrl i).toNat ++ leBytes 8 (s.ctrl i).errCnt.toNat) }

/-- STO_CTRL_STATUS (R353). -/
def execStoCtrlStatus (c : Cmd) (s : State) : Res := .next (s.command stoCtrlStatusSpec c)

/-! ## Namespaces (R361 to R363) -/

/-- A device range of HBM is mapped by a valid entry of an instance map. Only an entry with a listed byte can be valid. -/
def State.mappedBy (s : State) (a n : Nat) : Bool :=
  s.insts.any fun (i, x) => x.state ≠ .free && s.mem.any fun (k, b) =>
    decide (x.mapBase ≤ k ∧ k < x.mapBase + 8 * x.mapLen) && decide ((k - x.mapBase) % 8 = 7) && b.getLsbD 7 &&
    (let d := bitsOf (s.mapEntry i ((k - x.mapBase) / 8)) 47 21 * granule
     decide (d < a + n ∧ a < d + granule))

/-- The range is that of another HBM namespace. -/
def State.nsUses (s : State) (a n : Nat) : Bool :=
  s.storage.nss.any fun e => e.2.kind = 2 && decide (e.2.base < a + n ∧ a < e.2.base + e.2.size * e.2.lba)

/-- Namespaces an instance owns. -/
def State.nsOf (s : State) (i : Nat) : Nat := (s.storage.nss.filter fun e => e.2.owner = i).length

/-- The backing of a new namespace is good (R361, R362). -/
def State.backingOk (s : State) (x : Namespace) : Bool :=
  if x.kind = 1 then
    s.driveReady x.port && match (s.drive x.port).nss.find? fun d => d.1 = x.drvNs with
      | some (_, e, n) => e = (if x.lba4k then 12 else 9) && decide (x.base + x.size ≤ n)
      | none => false
  else
    let n := x.size * x.lba
    if x.kind = 2 then
      decide (x.base % granule = 0) && decide (n % granule = 0) && decide (x.base + n ≤ hbmSize) && !s.mappedBy x.base n && !s.nsUses x.base n
    else match s.rma.qps.find x.qp with
      | some q => q.inst = x.owner && q.kind = 1 && q.state = .rts && decide (x.base + n ≤ 2 ^ 64)
      | none => false

/-- STO_NS_CREATE after its parameter checks. -/
def stoNsCreateRun (s : State) (_ : Waiter) (_ : Nat) (ps : List Byte) : Act :=
  let own := fieldAt ps 0 1
  let x : Namespace :=
    { kind := fieldAt ps 1 1, owner := own, lba4k := fieldAt ps 2 1 = 12, cipher := bitAt (fieldAt ps 3 1) 0, ciph := fieldAt ps 4 2
      port := fieldAt ps 6 1, base := fieldAt ps 16 8, size := fieldAt ps 8 8, drvNs := fieldAt ps 24 4, qp := fieldAt ps 28 4
      rkey := fieldAt ps 32 4, attach := [own] }
  if (s.inst own).shares.ns ≤ s.nsOf own then fails s 0x8003
  else match s.storage.nss.free 1024 with
    | none => fails s 0x8004
    | some n =>
      if !s.backingOk x then fails s 0x8006
      else if x.cipher && !(match s.cipher.ctxs.find x.ciph with | some c => c.owner = own | none => false) then fails s 0x800A
      else gives ((s.putNs n x).nsChanged own n) (leBytes 4 (n + 1) ++ zeros 4)

/-- STO_NS_CREATE. -/
def stoNsCreateSpec : Spec :=
  { opcode := 0x8101, permits := managerOnly, plen := fixed 40
    fields := fun _ ps =>
      let k := fieldAt ps 1 1
      [below ps 0 1 64, within ps 1 1 1 3, (2, fieldAt ps 2 1 = 9 || fieldAt ps 2 1 = 12), below ps 3 1 2, below ps 4 2 4096,
       below ps 6 1 8, rsv ps 7 1, within ps 8 8 1 (2 ^ 46 - 1), (16, decide (k ≠ 2 ∨ fieldAt ps 16 8 < 2 ^ 48)), below ps 28 4 262144,
       rsv ps 36 4]
    run := stoNsCreateRun }

/-- STO_NS_CREATE (R361). -/
def execStoNsCreate (c : Cmd) (s : State) : Res := .next (s.command stoNsCreateSpec c)

/-- The namespace that an NSID names; one that is being deleted is no longer valid. -/
def State.nsAt (s : State) (nsid : Nat) : Option Namespace :=
  if nsid = 0 ∨ s.storage.closing.has (nsid - 1) ∨ s.storage.deletes.any (fun e => e.2.2 = nsid - 1) then none else s.nss (nsid - 1)

/-- STO_NS_DELETE after its parameter checks: the namespace is detached, and once no command on it is in progress its blocks are
zeroed (R362; log entry 71). -/
def stoNsDeleteRun (s : State) (w : Waiter) (_ : Nat) (ps : List Byte) : Act :=
  let nsid := fieldAt ps 0 4
  match s.nsAt nsid with
  | none => fails s 0x8007
  | some x =>
    let n := nsid - 1
    if x.attach.any fun i => i ≠ x.owner then fails s 0x8005
    else
      let s := (s.putNs n { x with attach := [] }).nsChanged x.owner n
      .wait ({ s with storage := { s.storage with closing := s.storage.closing.put n w } }).finishCloses

/-- A STO_NS_DELETE that has zeroed nothing is stopped: the namespace is its owner's again (R240). -/
def State.keepNs (s : State) (n : Nat) : State :=
  let s : State := { s with storage := { s.storage with closing := Tbl.del s.storage.closing n } }
  match s.nss n with
  | some x => (s.putNs n { x with attach := [x.owner] }).nsChanged x.owner n
  | none => s

/-- STO_NS_DELETE. -/
def stoNsDeleteSpec : Spec :=
  { opcode := 0x8102, permits := managerOnly, plen := fixed 8, fields := fun _ ps => [within ps 0 4 1 1024, rsv ps 4 4]
    run := stoNsDeleteRun }

/-- STO_NS_DELETE (R362). -/
def execStoNsDelete (c : Cmd) (s : State) : Res := .next (s.command stoNsDeleteSpec c)

/-- STO_NS_ATTACH. -/
def stoNsAttachSpec : Spec :=
  { opcode := 0x8103, permits := managerOnly, plen := fixed 8
    fields := fun _ ps => [within ps 0 4 1 1024, below ps 4 1 64, below ps 5 1 2, rsv ps 6 2]
    run := fun s _ _ ps =>
      let nsid := fieldAt ps 0 4
      let i := fieldAt ps 4 1
      match s.nsAt nsid with
      | none => fails s 0x8007
      | some x =>
        let on := bitAt (fieldAt ps 5 1) 0
        if x.attach.contains i = on then okay s
        else
          let a := if on then x.attach ++ [i] else x.attach.filter fun j => j ≠ i
          okay (((s.putNs (nsid - 1) { x with attach := a }).nsChanged i (nsid - 1)).drivesPower) }

/-- STO_NS_ATTACH (R361). -/
def execStoNsAttach (c : Cmd) (s : State) : Res := .next (s.command stoNsAttachSpec c)

/-! ## STO_NS_COPY (R376, R419) -/

/-- Whether an access that the device itself makes to a drive or a peer succeeds: it takes place within one step, and its outcome is a
free value (log entry 32). -/
def State.outerOk (s : State) : Bool × State :=
  let (v, s) := s.takeFree
  (decide (v % 2 = 0), s)

/-- Reads LBAs of a namespace for the device itself; a drive's and a peer's bytes come from outside (log entry 9). None when the
backing fails. -/
def State.nsRead (s : State) (x : Namespace) (slba nlb : Nat) : State × Option (List Byte) :=
  let n := nlb * x.lba
  let a := x.base + slba * x.lba
  if x.kind = 1 then
    if s.driveReady x.port then
      let (id, s) := s.newId
      let bs := (List.range n).map fun j => Config.driveByte s.now s.emitted.length x.port ((x.base + slba) * x.lba + j)
      let (good, s) := (s.emit (.driveCommand x.port x.drvNs .read false (x.base + slba) nlb [] id)).outerOk
      (s, if good then some bs else none)
    else (s, none)
  else if x.kind = 2 then if s.rangeBad a n then (s.metBad clsHost a n, none) else (s, some (s.readBytes a n))
  else match s.postEngine x.qp x.owner 2 a x.rkey n [] with
    | some (s', _) =>
      let bs := (List.range n).map fun j => Config.peerByte s.now s.emitted.length (a + j)
      let (good, s') := s'.outerOk
      (s', if good then some bs else none)
    | none => (s, none)

/-- Writes LBAs of a namespace for the device itself. -/
def State.nsWrite (s : State) (x : Namespace) (slba nlb : Nat) (bs : List Byte) : State × Bool :=
  let a := x.base + slba * x.lba
  if x.kind = 1 then
    if s.driveReady x.port then
      let (id, s) := s.newId
      let (good, s) := (s.emit (.driveCommand x.port x.drvNs .write false (x.base + slba) nlb bs id)).outerOk
      (s, good)
    else (s, false)
  else if x.kind = 2 then match s.saveAt none a bs with
    | .ok s' => (s', true)
    | .error _ => (s, false)
  else match s.postEngine x.qp x.owner 1 a x.rkey bs.length bs with
    | some (s', _) =>
      let (good, s') := s'.outerOk
      (s', good)
    | none => (s, false)

/-- Copies LBAs in pieces of 2 MiB until one fails. -/
def State.nsCopy (s : State) (x y : Namespace) (kx ky : Option (List Byte)) : Nat → Nat → Nat → Nat → State × Bool
  | 0, _, _, _ => (s, true)
  | fuel + 1, sl, dl, n =>
    if n = 0 then (s, true)
    else
      let k := min n (granule / x.lba)
      match s.nsRead x sl k with
      | (s1, none) => (s1, false)
      | (s1, some raw) =>
        let clear := match kx with | some key => xtsUnits true key x.lba k sl raw | none => raw
        let out := match ky with | some key => xtsUnits false key y.lba k dl clear | none => clear
        match s1.nsWrite y dl k out with
        | (s2, false) => (s2, false)
        | (s2, true) => State.nsCopy ((s2.charge x.owner 5 (k * x.lba)).charge y.owner 6 (k * x.lba)) x y kx ky fuel (sl + k) (dl + k) (n - k)

/-- STO_NS_COPY after its parameter checks. It runs in one step, so no abort point is met (log entry 15). -/
def stoNsCopyRun (s : State) (_ : Waiter) (_ : Nat) (ps : List Byte) : Act :=
  match s.nsAt (fieldAt ps 0 4), s.nsAt (fieldAt ps 4 4) with
  | some x, some y =>
    let sl := fieldAt ps 8 8
    let dl := fieldAt ps 16 8
    let n := fieldAt ps 24 4
    let kx := if x.cipher then s.nsKey x else none
    let ky := if y.cipher then s.nsKey y else none
    if x.lba4k ≠ y.lba4k ∨ x.size < sl + n ∨ y.size < dl + n then fails s 0x8008
    else if (x.cipher && kx.isNone) || (y.cipher && ky.isNone) then fails s 0x8A01
    else match s.nsCopy x y kx ky (n * x.lba / granule + 1) sl dl n with
      | (s', true) => okay s'
      | (s', false) => fails s' 0x8009
  | _, _ => fails s 0x8007

/-- STO_NS_COPY. -/
def stoNsCopySpec : Spec :=
  { opcode := 0x8104, permits := managerOnly, plen := fixed 32
    fields := fun _ ps => [within ps 0 4 1 1024, within ps 4 4 1 1024, within ps 24 4 1 (2 ^ 32 - 1), rsv ps 28 4]
    run := stoNsCopyRun }

/-- STO_NS_COPY (R376). -/
def execStoNsCopy (c : Cmd) (s : State) : Res := .next (s.command stoNsCopySpec c)

/-! ## STO_DRIVE_STATUS (R365) -/

/-- STO_DRIVE_STATUS. -/
def stoDriveStatusSpec : Spec :=
  { opcode := 0x8201, permits := managerOnly, plen := fixed 8, fields := fun _ ps => [below ps 0 1 8, rsv ps 1 7]
    run := fun s _ _ ps =>
      let d := s.drive (fieldAt ps 0 1)
      let st := match d.state with | .absent => 0 | .training => 1 | .ready => 2 | .failed => 3
      gives s (leBytes 1 st ++ leBytes 1 d.nss.length ++ zeros 2 ++ leBytes 4 d.exitUs) }

/-- STO_DRIVE_STATUS (R365). -/
def execStoDriveStatus (c : Cmd) (s : State) : Res := .next (s.command stoDriveStatusSpec c)

end Sys2Proof.Machine
end

