-- ==== Sys2Proof/Machine/Hbm.lean ====
section
/-! DEFINITION. Stacks and the memory girdle (R155 to R169): flits at a memory-girdle die, queued writes, reads, errors,
refresh, scrub and zones. GATHER and the receipt of flits as a whole are in Gather. -/

namespace Sys2Proof.Machine

/-! ## Writes (R161, R164 to R166) -/

/-- A write enters its stack's queue, visible to every later read from then on; a cached row it overlaps is gone (R164,
R177). One that meets an uncorrectable unit is performed at once; the answer is false when a part of such a unit is not
written (R168). -/
def State.queueWrite (s : State) (a : Nat) (bs : List Byte) (i : Nat) (g : BitVec 16) : State × Bool :=
  let k := s.stackOf a
  if (s.hbm.bad.any fun u => decide (u < a + bs.length ∧ a < u + 32)) || decide (s.stackOf (a + bs.length - 1) ≠ k) then
    s.drainHbm.storeRaw a bs
  else ((s.modStack k fun x => { x with writes := x.writes ++ [{ addr := a, data := bs, inst := i, gen := g }] }).dropRows a bs.length, true)

/-- A WRITE flit is performed at its die: to HBM through the queue, to girdle SRAM at once. -/
def State.mgWrite (s : State) (k : Nat) (fl : Flit) : State :=
  let n := fl.data.length
  let s : State := match regionOf fl.addr with
    | .hbm =>
      if dieOfStack (s.stackOf fl.addr) ≠ k then s.mgRefuse k fl 4
      else if (s.stack (s.stackOf fl.addr)).state = .failed then
        (s.raise blkMEM 0x30FF (some fl.inst) k 1).mgRefuse k fl 1
      else
        let (s', ok) := (s.charge fl.inst 2 (hbmBytes [(fl.addr, n)])).queueWrite fl.addr fl.data fl.inst fl.gen
        if ok then s' else (s'.ueLogRange 0 fl.addr n).mgRefuse k fl 1
    | .sram d off =>
      if d ≠ k ∨ s.cacheMeets d off n ∨ 0x0200_0000 < off + n then s.mgRefuse k fl 4
      else
        let (s', ok) := s.storeRaw fl.addr fl.data
        if ok then s' else (s'.ueLogRange 0 fl.addr n).mgRefuse k fl 1
    | _ => s.mgRefuse k fl 4
  s.mgLast k fl

/-- The held write that a WRITE flit must follow: a pending granule it meets, one with held writes, or an earlier flit of its
own transfer that is held (R126, R192). -/
def State.heldBehind (s : State) (fl : Flit) : Option (Nat × Nat) :=
  match s.parcels.findSome? fun (p, x) => (x.ckp.held.find? fun h => match h.flit with
      | some e => transferKey e = transferKey fl
      | none => false).map fun h => (p, h.granule) with
  | some e => some e
  | none =>
    if hbmSize ≤ fl.addr then none
    else match s.heldGranule fl.addr with
      | some e => some e
      | none => s.pendingGranule fl.addr

/-- A WRITE flit arrives: held during a checkpoint copy, else performed (R192). -/
def State.mgWriteArrive (s : State) (k : Nat) (fl : Flit) : State :=
  match s.heldBehind fl with
  | some (p, g) =>
    s.holdWrite p g { addr := fl.addr, data := fl.payload, inst := fl.inst, gen := fl.gen } (some fl)
  | none => s.mgWrite k fl

/-- HBM_WRITE_ISSUE (R166): the stack issues its oldest queued write unless its generation is old; the first write to a MiB
sets its bit (R161). What the bus reports of it (R167) a free value says: a parity error is counted and cured by the retry; a second
one logs the write's first unit as uncorrectable, class 0, as only facets' flits wait in the queue (log entry 72). -/
def execHbmWriteIssue (stack : Nat) (s : State) : Res :=
  .next <|
    match (s.stack stack).writes with
    | [] => s
    | w :: _ =>
      let live : Bool := s.genOf w.inst = w.gen
      let s := s.issueWrite stack
      let s : State := { s with faults := { s.faults with timeouts := Tbl.del s.faults.timeouts stack } }
      if !live then s
      else
        let (o, s) := s.writeOutcome
        s.busWrote 0 w.addr o

/-! ## Reads (R167, R168) -/

/-- A READ flit arrives (R117): a READ of HBM waits for its stack, one of girdle SRAM is answered at once. -/
def State.mgReadArrive (s : State) (k : Nat) (fl : Flit) : State :=
  let (o, n, bad) := readFields fl
  if bad ∨ fl.tokc ≠ 0 ∨ fl.tokn ≠ 0 then s.mgNack k fl 4
  else
    match regionOf fl.addr with
    | .hbm =>
      let st := s.stackOf fl.addr
      if dieOfStack st ≠ k ∨ hbmSize < fl.addr + n then s.mgNack k fl 4
      else if (s.stack st).state = .failed then (s.raise blkMEM 0x30FF (some fl.inst) k 1).mgNack k fl 1
      else
        s.modStack st fun x => { x with reads := x.reads ++
          [{ flit := fl, addr := unit32 fl.addr, units := (fl.addr + n + 31) / 32 - fl.addr / 32, done := 0, second := false
             data := s.readBytes fl.addr n }] }
    | .sram d off =>
      if d ≠ k ∨ s.cacheMeets d off n ∨ 0x0200_0000 < off + n then s.mgNack k fl 4
      else if s.rangeBad fl.addr n then (s.ueLogRange 0 fl.addr n).mgNack k fl 1
      else (dataFlits fl (facetAt fl.sx fl.sy) (n / 128 + 1) o (s.readBytes fl.addr n)).foldl (fun s g => s.dieSend k g) s
    | _ => s.mgNack k fl 4

/-- The stack's oldest read, replaced or dropped. -/
def State.setRead (s : State) (k : Nat) (r : Option HbmRead) : State :=
  s.modStack k fun x => { x with reads := r.toList ++ x.reads.drop 1 }

/-- One unit of a read has come back: the next one follows, or the data goes to the requester. -/
def State.unitRead (s : State) (k : Nat) (r : HbmRead) : State :=
  if r.done + 1 < r.units then s.setRead k (some { r with done := r.done + 1, second := false })
  else
    let (o, n, _) := readFields r.flit
    let s := (s.setRead k none).charge r.flit.inst 1 (32 * r.units)
    let s := if s.mibWritten r.addr then s.modStack k fun x => { x with acts := x.acts + 1 } else s
    (dataFlits r.flit (facetAt r.flit.sx r.flit.sy) (n / 128 + 1) o r.data).foldl (fun s g => s.dieSend (dieOfStack k) g) s

/-- The outcome of reading one unit (R167): a MiB that was never written reads as zeros without touching the stack (R161), a
unit known as uncorrectable reads so, and the second bad read ends the request with NACK 1. -/
def State.unitOutcome (s : State) (k : Nat) (r : HbmRead) (o : ReadOutcome) : State :=
  let u := r.addr + 32 * r.done
  if !s.mibWritten u then s.unitRead k r
  else
    let o := if s.hbm.bad.contains u && (o = .ok || o = .corrected) then ReadOutcome.uncorrected else o
    match o with
    | .ok => (s.met u 32).unitRead k r
    | .corrected => (s.eccCorr u).unitRead k r
    | _ =>
      let s := if o = .parity then s.parityErr u else s
      if !r.second then s.setRead k (some { r with second := true })
      else ((s.setRead k none).ueLog 0 u).dieSend (dieOfStack k) (answerTo r.flit 5 (nackBytes 1))

/-- HBM_READ_COMPLETE (R167): the next unit of the stack's oldest read returns. -/
def execHbmReadComplete (stack : Nat) (o : ReadOutcome) (s : State) : Res :=
  .next <|
    match (s.stack stack).reads with
    | [] => s
    | r :: _ =>
      let s : State := { s with faults := { s.faults with timeouts := Tbl.del s.faults.timeouts stack } }
      s.unitOutcome stack r o

/-- A stack fails (R466): it serves nothing more, and what waits gets NACK 1. -/
def State.failStack (s : State) (k : Nat) : State :=
  let rs := (s.stack k).reads
  let s := s.modStack k fun x => { x with state := .failed, reads := [], writes := [] }
  rs.foldl (fun s r => s.dieSend (dieOfStack k) (answerTo r.flit 5 (nackBytes 1))) s

/-- STACK_REQUEST_TIMEOUT (R468): a request to a stack passes 10 µs and counts as an uncorrectable outcome; the sixteenth in a
row fails the stack. -/
def execStackRequestTimeout (stack : Nat) (s : State) : Res :=
  .next <|
    let x := s.stack stack
    if x.state = .failed ∨ (x.reads.isEmpty ∧ x.writes.isEmpty) then s
    else
      let n := s.faults.timeouts.getD stack 0 + 1
      let s : State := { s with faults := { s.faults with timeouts := s.faults.timeouts.put stack n } }
      let s := match x.reads with
        | r :: _ => s.unitOutcome stack r .uncorrected
        | [] => s
      if n < 16 then s else (s.failStack stack).recordFault 0x000A .stack stack

/-! ## Refresh, temperature, scrub (R158, R169) -/

/-- The refresh interval of a stack in ns. -/
def Stack.interval (x : Stack) : Nat := 32_000_000 / x.refmul

/-- The refresh of a pseudo-channel that falls due next, as its bank and instant: the banks take turns, a 64th of the interval
apart, so that each is refreshed once per interval and no two at once; the first begins after the stack's share of an interval
(R158). -/
def Stack.nextRefresh (x : Stack) (stack pc : Nat) : Nat × Nat :=
  match x.refresh.find pc with
  | some r => ((r.bank + 1) % 64, r.at_ + x.interval / 64)
  | none => (0, x.readyAt + stack * x.interval / 32)

/-- HBM_REFRESH (R158): the bank of a pseudo-channel whose turn it is is refreshed when it falls due. -/
def execHbmRefresh (stack pc bank : Nat) (s : State) : Res :=
  .next <|
    let x := s.stack stack
    let (b, due) := x.nextRefresh stack pc
    if x.state ≠ .ready ∨ 32 ≤ pc ∨ bank ≠ b then s
    else
      let s := s.reach due
      s.modStack stack fun y => { y with refresh := y.refresh.put pc { bank, at_ := s.now } }

/-- STACK_TEMP_CROSS (R158): the reported temperature changes, and above 85 °C the interval is 16 ms. -/
def execStackTempCross (stack temp : Nat) (s : State) : Res :=
  .next (s.modStack stack fun x => { x with temp, refmul := if temp ≤ 85 then 1 else 2 })

/-- PATROL_SCRUB (R169): scrub reads a unit of a written MiB, and, when the first read was uncorrected or met a parity error,
reads it once more, which is the next row for the unit (R167). -/
def execPatrolScrub (addr : Nat) (o : ReadOutcome) (s : State) : Res :=
  .next <|
    let u := unit32 addr
    let d := dieOfStack (s.stackOf u)
    if hbmSize ≤ u ∨ (s.memDie d).scrub = 0 ∨ (s.stack (s.stackOf u)).state ≠ .ready ∨ !s.mibWritten u then s
    else
      let again := (s.memDie d).rereads.contains u
      let s := s.modMemDie d fun x => { x with rereads := x.rereads.filter (· ≠ u) }
      match if s.hbm.bad.contains u && (o = .ok || o = .corrected) then ReadOutcome.uncorrected else o with
      | .ok => s.met u 32
      | .corrected => s.eccCorr u
      | o =>
        let s := if o = .parity then s.parityErr u else s
        if again then s.ueLog 4 u else s.modMemDie d fun x => { x with rereads := x.rereads ++ [u] }

/-! ## Zones (R160) -/

/-- A map array of an instance lies in a device range. -/
def State.holdsMap (s : State) (a n : Nat) : Bool :=
  s.insts.any fun e => e.2.state ≠ .free && decide (e.2.mapBase < a + n ∧ a < e.2.mapBase + 8 * e.2.mapLen)

/-- MEM_ZONE_SET after its parameter checks. -/
def memZoneSetRun (s : State) (_ : Waiter) (_ : Nat) (ps : List Byte) : Act :=
  let z := fieldAt ps 0 1
  let a := z * 0xC_0000_0000
  let n := 0xC_0000_0000
  if s.mappedBy a n || s.holdsMap a n || s.nsUses a n then fails s 0x3001
  else
    let s := s.zeroRange a n
    let bit1 : BitVec 32 := BitVec.ofNat 32 (2 ^ z)
    let zones := if fieldAt ps 1 1 = 1 then s.hbm.zones ||| bit1 else s.hbm.zones &&& ~~~bit1
    okay { s with hbm := { s.hbm with
      zones
      stks := s.hbm.stks.map fun e => (e.1, { e.2 with written := e.2.written.filter fun m => m / 1536 ≠ z }) } }

/-- MEM_ZONE_SET. -/
def memZoneSetSpec : Spec :=
  { opcode := 0x3001, permits := managerOnly, plen := fixed 8
    fields := fun _ ps => [below ps 0 1 32, below ps 1 1 2, rsv ps 2 6], run := memZoneSetRun }

/-- MEM_ZONE_SET (R160): a zone not in use changes its mode and is zeroed. -/
def execMemZoneSet (c : Cmd) (s : State) : Res := .next (s.command memZoneSetSpec c)

/-! ## Registers (spec/06) -/

/-- MEM_UELOGn. -/
def UeEntry.word (e : UeEntry) : BitVec 64 := pack [(63, 1, bit e.valid), (59, 4, e.cls), (0, 41, e.addr)]

/-- A write of MEM_UELOG (R167): VALID is cleared by writing one. -/
def State.writeUelog (s : State) (k n : Nat) (v : BitVec 64) : State :=
  if v.getLsbD 63 then
    s.modMemDie k fun d => match d.uelog.find n with
      | some e => { d with uelog := d.uelog.put n { e with valid := false } }
      | none => d
  else s

end Sys2Proof.Machine
end

