-- ==== Sys2Proof/Machine/Gather.lean ====
section
/-! DEFINITION. The gather engines (R170 to R183): tables, descriptors, the hot-row cache, arithmetic and delivery; and the
receipt of flits at a memory-girdle die. -/

namespace Sys2Proof.Machine

/-! ## Rows of a table (R170) -/

/-- The least multiple of 4 from a number up. -/
def up4 (n : Nat) : Nat := (n + 3) / 4 * 4

/-- Bytes of a row: its elements, then scale and bias by format. -/
def GatherTable.rowLen (t : GatherTable) : Nat :=
  let e := packedBytes t.format t.dim
  if t.format = 4 ∨ t.format = 5 then up4 e + 4 else if t.format = 9 ∨ t.format = 0xA then up4 e + 8 else e

/-- PITCH is one that R170 allows. -/
def pitchOk (p : Nat) : Bool :=
  [32, 64, 128, 256, 512].contains p || (decide (0 < p ∧ p ≤ 16384) && decide (p % 1024 = 0))

/-- The FP32 patterns of a row's elements (R170, R179). -/
def GatherTable.dequant (t : GatherTable) (b : List Byte) : List (BitVec 32) :=
  let e := packedBytes t.format t.dim
  let s := fieldAt b (up4 e) 4
  let o := fieldAt b (up4 e + 4) 4
  (List.range t.dim).map fun n =>
    let x := (convert 1 0 false (decodeElem t.format (packedElem t.format b n))).1
    BitVec.ofNat 32
      (if t.format = 4 ∨ t.format = 5 then (fMul 1 0 x s).1
       else if t.format = 9 ∨ t.format = 0xA then (fFma 1 0 x s o).1
       else x)

/-- A value divided by a count, rounded once to FP32 (R179). -/
def divCount (a n : Nat) : Nat :=
  match decodeElem 1 a with
  | .fin neg m e =>
    if m = 0 then a
    else
      let k := m * 2 ^ 64
      (roundFloat 1 0 false neg (2 * (k / n) + bit (decide (k % n ≠ 0))) (e - 65)).1
  | v => (convert 1 0 false v).1

/-- Pools rows, each with its weight, into one row of FP32 patterns (R179): 1 sum, 2 mean, 3 max. -/
def poolRows (pool dim : Nat) (rs : List (List (BitVec 32) × Option (BitVec 32))) : List Nat :=
  let acc := rs.foldl (fun (acc : List Nat) r => acc.zipWith (fun a (x : BitVec 32) =>
    if pool = 3 then fMax 1 false a x.toNat
    else match r.2 with
      | some w => (fFma 1 0 x.toNat w.toNat a).1
      | none => (fAdd 1 0 a x.toNat).1) r.1) (List.replicate dim 0)
  if pool = 2 ∧ !rs.isEmpty then acc.map fun a => divCount a rs.length else acc

/-! ## Jobs -/

/-- The distinct row numbers of a descriptor in the order they first appear (R175). -/
def GatherJob.distinct (j : GatherJob) : List Nat := j.indices.eraseDups

/-- Output rows (R173). -/
def Descriptor.rowsOut (d : Descriptor) : Nat := if d.pool = 0 then d.count else d.bags

/-- Bytes from one output row to the next (R173). -/
def rowOut (outFmt dim : Nat) : Nat := (packedBytes outFmt dim + 15) / 16 * 16

/-- Output row n as bytes (R173, R179). -/
def GatherJob.output (j : GatherJob) (n : Nat) : List Byte :=
  let one (q : Nat) : List (BitVec 32) × Option (BitVec 32) :=
    (j.rows.getD (j.indices.getD q 0) [], if j.desc.weighted then j.weights[q]? else none)
  let vals : List Nat :=
    if j.desc.pool = 0 then
      let (r, w) := one n
      r.map fun x => match w with | some w => (fMul 1 0 x.toNat w.toNat).1 | none => x.toNat
    else
      let lo := j.offsets.getD n 0
      poolRows j.desc.pool j.tab.dim ((List.range (j.offsets.getD (n + 1) lo - lo)).map fun q => one (lo + q))
  padTo (rowOut j.desc.outFmt j.tab.dim)
    (packElems j.desc.outFmt (vals.map fun v => (convert j.desc.outFmt 0 false (decodeElem 1 v)).1))

/-- The queue's descriptor at the head is replaced or leaves. -/
def State.setJob (s : State) (k : Nat) (j : Option GatherJob) : State :=
  s.modGatherDie k fun d => { d with jobs := j.toList ++ d.jobs.drop 1 }

/-- WRITE flits from a gather engine to the submitting facet (R181). -/
def GatherJob.writeFlits (j : GatherJob) (k : Nat) : Nat → Nat → List Byte → List Flit
  | 0, _, _ => []
  | fuel + 1, off, bs =>
    if bs.isEmpty then []
    else
      { fromDie k j.facet j.inst j.gen 0 with
        units := unitsOf (min 128 bs.length), tag := j.tag, flow := j.tag, addr := spadAddr j.facet off, payload := bs.take 128 } ::
        GatherJob.writeFlits j k fuel (off + 128) (bs.drop 128)

/-- The status record's flit (R181, R182). -/
def GatherJob.statusFlit (j : GatherJob) (k status rows : Nat) : Flit :=
  { fromDie k j.facet j.inst j.gen 0 with
    tag := j.tag, flow := j.tag, last := true, addr := spadAddr j.facet j.desc.stat
    payload := leBytes 4 status ++ leBytes 4 rows ++ zeros 8 }

/-- A failure after acceptance ends a descriptor (R182). -/
def State.gatherFail (s : State) (k : Nat) (j : GatherJob) (status : Nat) : State :=
  let s := s.modGatherDie k fun d => { d with jobs := d.jobs.filter fun x => x ≠ j }
  let s := s.raise blkGTH 0x30FF (some j.inst) k status
  (s.dieSend k (j.statusFlit k status 0)).dieSend k
    { fromDie k j.facet j.inst j.gen 5 with last := true, tag := 0x7F, payload := nackBytes status }

/-! ## Acceptance (R172 to R174) -/

/-- The fields of a descriptor. -/
def parseDesc (b : List Byte) : Descriptor :=
  { pool := fieldAt b 0 1, outFmt := fieldAt b 1 1, table := fieldAt b 2 1, weighted := bitAt (fieldAt b 3 1) 0, count := fieldAt b 4 4
    idx := fieldAt b 8 8, offs := fieldAt b 16 8, wts := fieldAt b 24 8, bags := fieldAt b 32 4, dest := fieldAt b 36 4
    stat := fieldAt b 40 4, chunk := fieldAt b 44 2, tokc := fieldAt b 46 1, tokn := fieldAt b 47 1 }

/-- A field of a descriptor is out of range (R172). -/
def descBad (b : List Byte) (d : Descriptor) : Bool :=
  decide (b.length ≠ 64) || decide (3 < d.pool) || d.outFmt = 0 || decide (3 < d.outFmt) || decide (15 < d.table) ||
  decide (1 < fieldAt b 3 1) || (d.weighted && d.pool = 3) || d.count = 0 || decide (65536 < d.count) || decide (d.idx % 4 ≠ 0) ||
  (d.pool ≠ 0 && (decide (d.offs % 4 ≠ 0) || d.bags = 0 || decide (65536 < d.bags))) || (d.weighted && decide (d.wts % 4 ≠ 0)) ||
  decide (d.dest % 16 ≠ 0) || decide (d.stat % 16 ≠ 0) || d.chunk = 0 || decide (31 < d.tokc) || d.tokn = 0 || decide (7 < d.tokn) ||
  !allZero (slice b 48 16)

/-- The 32-bit numbers of a list. -/
def nats4 : Nat → List Byte → List Nat
  | 0, _ => []
  | n + 1, b => leNat (b.take 4) :: nats4 n (b.drop 4)

/-- An engine's read of instance memory, with the status of its failure (R182). -/
def State.gatherRead (s : State) (i a n : Nat) : Except Nat (List Byte) :=
  match s.readInst i a n with
  | .ok b => .ok b
  | .error (.uncorr) => .error 1
  | .error _ => .error 0x11

/-- What the failure of a read leaves: the event of R33, or the log of R167. -/
def State.gatherReadFailed (s : State) (k i a n status : Nat) : State :=
  if status = 0x11 then s.addressEvent blkGTH i a k
  else match s.rangesOf i a n false with
    | .ok rs => rs.foldl (fun s r => s.metBad 1 r.1 r.2) s
    | .error _ => s

/-- Offsets start at 0, end at the count and never decrease (R173). -/
def offsetsOk (count : Nat) (l : List Nat) : Bool :=
  l.head? = some 0 && l.getLast? = some count && (l.zip (l.drop 1)).all fun e => decide (e.1 ≤ e.2)

/-- The checks of R174 on a descriptor in their order: the job, or the status of the first that fails with the read that failed. -/
def State.gatherCheck (s : State) (f : Nat) (fl : Flit) : Except (Nat × Nat × Nat) GatherJob :=
  let b := fl.data
  let d := parseDesc b
  let x := s.facet f
  if descBad b d then .error (0x10, 0, 0)
  else match s.gather.tables.find (16 * fl.inst + d.table) with
    | none => .error (0x10, 0, 0)
    | some t =>
      if x.jobSize < t.shards then .error (0x10, 0, 0)
      else match s.gatherRead fl.inst d.idx (4 * d.count) with
        | .error e => .error (e, d.idx, 4 * d.count)
        | .ok ib =>
          let no := if d.pool = 0 then 0 else d.bags + 1
          match if no = 0 then .ok [] else s.gatherRead fl.inst d.offs (4 * no) with
          | .error e => .error (e, d.offs, 4 * no)
          | .ok ob =>
            let indices := nats4 d.count ib
            let offsets := nats4 no ob
            let out := d.rowsOut * rowOut d.outFmt t.dim
            if d.pool ≠ 0 ∧ !offsetsOk d.count offsets then .error (0x10, 0, 0)
            else if indices.any fun r => decide (t.rows * t.shards ≤ r) then .error (0x12, 0, 0)
            else if 0x10_0000 < d.dest + out ∨ 0x10_0000 < d.stat + 16 then .error (0x14, 0, 0)
            else if d.stat < d.dest + out ∧ d.dest < d.stat + 16 then .error (0x10, 0, 0)
            else
              .ok { facet := f, tag := fl.tag, inst := fl.inst, gen := fl.gen, rank := x.rank, desc := d, tab := t, indices, offsets
                    weights := [], rows := [], chunks := 0, asked := none }

/-- The row lies on this device (R171). -/
def GatherJob.own (j : GatherJob) (r : Nat) : Bool := j.tab.shards = 1 || r / j.tab.rows = j.rank

/-- Where a row begins, in the instance of the device that holds it (R171). -/
def GatherJob.addrOf (j : GatherJob) (r : Nat) : Nat := j.tab.base + (r % j.tab.rows) * j.tab.pitch

/-- A row is in the cache of an engine (R176). -/
def GatherDie.cached (d : GatherDie) (i t r : Nat) : Option CachedRow := d.cache.find? fun c => c.inst = i && c.table = t && c.row = r

/-- The engine asks for the next peer row of a job, the first that is neither here nor on this device nor in the cache, by a READ on
the entry's queue pair (R171, R350); none when that may not take it. A job asks for one peer row at a time, so that none is asked for
after a failure (R182). No rule gives the RKEY (log entry 42). -/
def State.askPeer (s : State) (k : Nat) (j : GatherJob) : Option (State × GatherJob) :=
  match j.distinct.find? fun r => !(j.rows.has r || j.own r || ((s.gatherDie k).cached j.inst j.desc.table r).isSome) with
  | none => some (s, { j with asked := none })
  | some r =>
    let (v, s) := s.takeFree
    (s.postEngine j.tab.qp j.inst 2 (j.addrOf r) (v % 2 ^ 32) j.tab.rowLen []).map fun (s, n) => (s, { j with asked := some (r, n) })

/-- The account of the lists that the checks of a descriptor read (R174, R222). -/
def State.chargeLists (s : State) (f : Nat) (fl : Flit) : State :=
  let d := parseDesc fl.data
  match s.gather.tables.find (16 * fl.inst + d.table) with
  | none => s
  | some t =>
    if descBad fl.data d ∨ (s.facet f).jobSize < t.shards then s
    else match s.gatherRead fl.inst d.idx (4 * d.count) with
      | .error _ => s
      | .ok _ =>
        let u := s.chargeRead fl.inst d.idx (4 * d.count)
        if d.pool = 0 then u
        else match s.gatherRead fl.inst d.offs (4 * (d.bags + 1)) with
          | .error _ => u
          | .ok _ => u.chargeRead fl.inst d.offs (4 * (d.bags + 1))

/-- A descriptor is checked and accepted, or refused with its own TAG (R174). -/
def State.takeDesc (s : State) (k : Nat) (fl : Flit) : State :=
  let f := facetAt fl.sx fl.sy
  match s.gatherCheck f fl with
  | .error (e, a, n) =>
    let s := s.chargeLists f fl
    let s := if n = 0 then s else s.gatherReadFailed k fl.inst a n e
    (s.raise blkGTH 0x30FF (some fl.inst) k e).dieSend k (answerTo fl 5 (nackBytes e))
  | .ok j =>
    let s := ((s.chargeLists f fl).dieSend k (answerTo fl 4 [])).modGatherDie k fun d => { d with stats := d.stats.bump 0 j.desc.count }
    match s.askPeer k j with
    | some (s, j) => s.modGatherDie k fun d => { d with jobs := d.jobs ++ [j] }
    | none => s.gatherFail k j 0x13

/-- A DESC flit whose descriptor goes on in another flit is longer than 64 bytes, and so refused when its last one comes (R172). -/
def State.takeDescFlit (s : State) (k : Nat) (fl : Flit) : State :=
  if !fl.last then s.mgRefuse k fl 0x10
  else match (s.memDie k).refused.find (transferKey fl) with
    | some e =>
      let s := (s.modMemDie k fun d => { d with refused := Tbl.del d.refused (transferKey fl) }).raise blkGTH 0x30FF (some fl.inst) k e
      s.dieSend k (answerTo fl 5 (nackBytes e))
    | none => s.takeDesc k fl

/-- GATHER_DESC_RECEIVE (R166, R174): the next DESC flit of an edge link. It waits while the queue is full or its entry is about to
change. -/
def execGatherDescReceive (k : Nat) (fl : Flit) (s : State) : Res :=
  .next <|
    if fl.typ ≠ 6 ∨ !s.atDie k fl ∨ 256 ≤ (s.gatherDie k).jobs.length ∨
        s.gather.waits.any (fun w => w.inst = fl.inst && w.tab = fieldAt fl.payload 2 1) then s
    else
      let s := s.taken (.die k) fl
      if s.dieFailed k then s.dieSend k (answerTo fl 5 (nackBytes 1))
      else if s.genOf fl.inst ≠ fl.gen then s.mgDiscard k
      else s.takeDescFlit k fl

/-! ## The hot-row cache (R176 to R178) -/

/-- Lines of 256 bytes in a way. -/
def wayLines : Nat := 8192

/-- The ways an instance may allocate in. -/
def GatherDie.waysOf (d : GatherDie) (i : Nat) : List Nat :=
  (List.range 16).filter fun w => decide (16 - d.ways ≤ w) && (d.masks.getD i 0).getLsbD w

/-- A row whose lines begin at a set of a way shares a line with a cached row (R176). -/
def CachedRow.meets (r : CachedRow) (way set_ lines : Nat) : Bool :=
  r.way = way && decide ((set_ + wayLines - r.set_) % wayLines < r.lines ∨ (r.set_ + wayLines - set_) % wayLines < lines)

/-- The row of lowest use count in some ways. -/
def leastUsed (c : List CachedRow) (ws : List Nat) : Option CachedRow :=
  (c.filter fun r => ws.contains r.way).foldl (fun (b : Option CachedRow) r =>
    match b with
    | some x => if r.uses < x.uses then some r else b
    | none => some r) none

/-- A way in which the consecutive sets of a row are free, evicting the rows of lowest use count in the instance's ways until there is
one (R176). -/
def makeRoom (ws : List Nat) (set_ lines : Nat) : Nat → List CachedRow → List CachedRow × Option Nat
  | 0, c => (c, none)
  | fuel + 1, c =>
    match ws.find? fun w => !c.any fun r => r.meets w set_ lines with
    | some w => (c, some w)
    | none =>
      match leastUsed c ws with
      | some r => makeRoom ws set_ lines fuel (c.erase r)
      | none => (c, none)

/-- A fetched row fills the cache (R176, R177). No rule says at which set a row begins: an unknown function of the row (log entry
56). -/
def GatherDie.fill (d : GatherDie) (r : CachedRow) : GatherDie :=
  let ws := d.waysOf r.inst
  if ws.isEmpty then d
  else
    let r : CachedRow := { r with set_ := Config.cacheSet r.inst r.table r.row % wayLines }
    match makeRoom ws r.set_ r.lines (d.cache.length + 1) d.cache with
    | (c, some w) => { d with cache := c ++ [{ r with way := w }] }
    | (c, none) => { d with cache := c }

/-- Drops the cached rows that satisfy a condition, in every engine. -/
def State.dropCached (s : State) (p : CachedRow → Bool) : State :=
  { s with gather := { s.gather with dies := s.gather.dies.map fun e => (e.1, { e.2 with cache := e.2.cache.filter fun r => !p r }) } }

/-- The gather work of an instance ends with its generation (R178, R183, R214): descriptors, tables and cached rows. A table command
that waited for them ends, and the entry stays empty. -/
def State.gatherReset (s : State) (i : Nat) : State :=
  let s := s.dropCached fun r => r.inst = i
  let ws := s.gather.waits.filter fun w => w.inst = i
  let s : State := { s with gather := { s.gather with
      tables := s.gather.tables.filter fun e => e.1 / 16 ≠ i
      waits := s.gather.waits.filter fun w => w.inst ≠ i
      dies := s.gather.dies.map fun e => (e.1, { e.2 with jobs := e.2.jobs.filter fun j => j.inst ≠ i }) } }
  ws.foldl (fun s w => s.finish w.waiter 0 0 []) s

/-! ## Rows (R175, R179) -/

/-- A row of a job is there: it is dequantized, and when it was the peer row asked for, the next one is. -/
def State.rowHere (s : State) (k : Nat) (j : GatherJob) (r : Nat) (b : List Byte) : State :=
  let j := { j with rows := j.rows.put r (j.tab.dequant b) }
  if j.asked.any fun e => e.1 = r then
    match s.askPeer k j with
    | some (s, j) => s.setJob k (some j)
    | none => (s.setJob k (some j)).gatherFail k j 0x13
  else s.setJob k (some j)

/-- The activations and counts of a row fetched from HBM (R159, R176). -/
def State.rowFetched (s : State) (k a n : Nat) : State :=
  if hbmSize ≤ a then s
  else
    let s := s.modGatherDie k fun d => { d with stats := d.stats.bump 1 }
    (List.range ((a + n - 1) / 1024 - a / 1024 + 1)).foldl (fun s q =>
      let u := (a / 1024 + q) * 1024
      if s.mibWritten u then s.modStack (s.stackOf u) fun x => { x with acts := x.acts + 1 } else s) s

/-- Every KiB of an HBM range lies in the stacks of a die (R159, R177). -/
def State.onDie (s : State) (k a n : Nat) : Bool :=
  decide (a + n ≤ hbmSize) &&
    (List.range ((a + n - 1) / 1024 - a / 1024 + 1)).all fun q => dieOfStack (s.stackOf ((a / 1024 + q) * 1024)) = k

/-- A row of this device arrives from memory, and fills the cache where R177 lets it; `o` is what the stacks reported of its first
unit (R167). -/
def State.localRow (s : State) (k : Nat) (j : GatherJob) (r : Nat) (o : ReadOutcome) : State :=
  let a := j.addrOf r
  let n := j.tab.rowLen
  let s := match s.rangesOf j.inst a n false with | .ok (e :: _) => s.busMet e.1 o | _ => s
  match s.gatherRead j.inst a n with
  | .error e => (s.gatherReadFailed k j.inst a n e).gatherFail k j e
  | .ok b =>
    let s := s.chargeRead j.inst a n
    match s.rangesOf j.inst a n false with
    | .ok rs =>
      let s := rs.foldl (fun s e => s.rowFetched k e.1 e.2) s
      let s := if j.tab.cache && rs.all fun e => s.onDie k e.1 e.2 then
          s.modGatherDie k fun x => x.fill
            { inst := j.inst, table := j.desc.table, row := r, way := 0, set_ := 0, uses := 0, lines := (n + 255) / 256, segs := rs, data := [] }
        else s
      s.rowHere k j r b
    | .error _ => s

/-- A peer row arrives as the READ that asked for it returned it; a READ that failed ends the descriptor (R171, R182). Until then, or
when the row has yet to be asked for, the engine waits. -/
def State.peerRow (s : State) (k : Nat) (j : GatherJob) (r : Nat) : State :=
  match j.asked with
  | none =>
    match s.askPeer k j with
    | some (s, j) => s.setJob k (some j)
    | none => s.gatherFail k j 0x13
  | some (_, n) =>
    match s.rma.engDone.find n with
    | none => s
    | some e =>
      let s : State := { s with rma := { s.rma with engDone := Tbl.del s.rma.engDone n } }
      if !e.ok then s.gatherFail k j 0x13
      else
        let s := s.modGatherDie k fun d =>
          let d := { d with stats := d.stats.bump 3 }
          if j.tab.cache && j.tab.immutable then
            d.fill { inst := j.inst, table := j.desc.table, row := r, way := 0, set_ := 0, uses := 0, lines := (e.data.length + 255) / 256
                     segs := [], data := e.data }
          else d
        s.rowHere k j r e.data

/-- A row is in the cache: its use count rises. -/
def State.cachedRow (s : State) (k : Nat) (j : GatherJob) (r : Nat) (c : CachedRow) : State :=
  let s := s.modGatherDie k fun d =>
    { d with
      stats := d.stats.bump 2
      cache := d.cache.map fun x => if x = c then { x with uses := x.uses + 1 } else x }
  s.rowHere k j r (if c.segs.isEmpty then c.data else c.segs.flatMap fun e => s.readBytes e.1 e.2)

/-- The weights of a job are read before its first row. -/
def State.weightsOf (s : State) (j : GatherJob) : Except Nat (List (BitVec 32)) :=
  if !j.desc.weighted || !j.weights.isEmpty then .ok j.weights
  else (s.gatherRead j.inst j.desc.wts (4 * j.desc.count)).map fun b => (nats4 j.desc.count b).map (BitVec.ofNat 32)

/-- GATHER_ROW_ARRIVE (R175, R179): the next distinct row of the descriptor at the head of the queue arrives, from the cache,
from this device's memory or from a peer. -/
def execGatherRowArrive (k : Nat) (o : ReadOutcome) (s : State) : Res :=
  .next <|
    match (s.gatherDie k).jobs with
    | [] => s
    | j :: _ =>
      if s.genOf j.inst ≠ j.gen then s.setJob k none
      else
        match j.distinct.find? fun r => !j.rows.has r with
        | none => s
        | some r =>
          match s.weightsOf j with
          | .error e => (s.gatherReadFailed k j.inst j.desc.wts (4 * j.desc.count) e).gatherFail k j e
          | .ok weights =>
            let s := if j.desc.weighted && j.weights.isEmpty then s.chargeRead j.inst j.desc.wts (4 * j.desc.count) else s
            let j := { j with weights }
            let s := s.setJob k (some j)
            match (s.gatherDie k).cached j.inst j.desc.table r with
            | some c => s.cachedRow k j r c
            | none => if j.own r then s.localRow k j r o else s.peerRow k j r

/-! ## Delivery (R181) -/

/-- GATHER_CHUNK_DELIVER (R181, R183): the next chunk of the descriptor at the head, all of whose rows are there, is written and
signalled; the last chunk's signal follows the status record. -/
def execGatherChunkDeliver (k : Nat) (s : State) : Res :=
  .next <|
    match (s.gatherDie k).jobs with
    | [] => s
    | j :: _ =>
      if s.genOf j.inst ≠ j.gen then s.setJob k none
      else if j.distinct.any fun r => !j.rows.has r then s
      else
        let l := rowOut j.desc.outFmt j.tab.dim
        let lo := j.chunks * j.desc.chunk
        let n := min j.desc.chunk (j.desc.rowsOut - lo)
        let final : Bool := decide (j.desc.rowsOut ≤ lo + n)
        let bytes := (List.range n).flatMap fun q => j.output (lo + q)
        let fls := j.writeFlits k (bytes.length / 128 + 1) (j.desc.dest + lo * l) bytes ++
          if final then [j.statusFlit k 0 j.distinct.length] else []
        let marked := fls.dropLast ++ (fls.getLast?.toList.map fun fl => { fl with last := true, tokc := j.desc.tokc, tokn := j.desc.tokn })
        let s := marked.foldl (fun s g => s.dieSend k g) s
        s.setJob k (if final then none else some { j with chunks := j.chunks + 1 })

/-! ## Flits at a memory-girdle die -/

/-- A NACK that answers a gather engine's output ends its descriptor (R182); its TAG is the descriptor's (R181). -/
def State.outputRefused (s : State) (k : Nat) (fl : Flit) : State :=
  match (s.gatherDie k).jobs.find? fun j => j.facet = facetAt fl.sx fl.sy && j.tag = fl.tag with
  | some j => s.gatherFail k j (fieldAt fl.payload 0 2)
  | none => s

/-- MG_FLIT_RECEIVE (R164, R166): the next flit of an edge link. A failed die answers with NACK 1 (R466); a flit of an old generation,
of whatever type, is discarded and counted; DESC flits go to the gather engine's own row. -/
def execMgFlitReceive (k : Nat) (fl : Flit) (s : State) : Res :=
  .next <|
    if fl.typ = 6 ∨ !s.atDie k fl then s
    else
      let s := s.taken (.die k) fl
      let answer : Bool := fl.typ = 2 || fl.typ = 4 || fl.typ = 5
      if s.dieFailed k then if answer then s else s.dieSend k (answerTo fl 5 (nackBytes 1))
      else if s.genOf fl.inst ≠ fl.gen then s.mgDiscard k
      else match fl.typ with
        | 0 => if fl.tokc ≠ 0 ∨ fl.tokn ≠ 0 then (s.mgRefuse k fl 4).mgLast k fl else s.mgWriteArrive k fl
        | 1 => s.mgReadArrive k fl
        | 2 => s
        | 4 => s
        | 5 => s.outputRefused k fl
        | _ => s.mgNack k fl 4

/-! ## Commands (R170, R177) -/

/-- A table entry from its 32 bytes. -/
def parseTable (ps : List Byte) : GatherTable :=
  { cache := bitAt (fieldAt ps 2 1) 0, immutable := bitAt (fieldAt ps 2 1) 1, format := fieldAt ps 3 1, dim := fieldAt ps 4 2
    shards := fieldAt ps 6 2, base := fieldAt ps 8 8, rows := fieldAt ps 16 4, pitch := fieldAt ps 20 4, qp := fieldAt ps 24 4 }

/-- The 32 bytes of a valid table entry. -/
def GatherTable.bytes (t : GatherTable) (i n : Nat) : List Byte :=
  leBytes 1 i ++ leBytes 1 n ++ leBytes 1 (bit t.cache + 2 * bit t.immutable + 0x80) ++ leBytes 1 t.format ++ leBytes 2 t.dim ++
  leBytes 2 t.shards ++ leBytes 8 t.base ++ leBytes 4 t.rows ++ leBytes 4 t.pitch ++ leBytes 4 t.qp ++ zeros 4

/-- Descriptors naming an entry are in flight. -/
def State.tableBusy (s : State) (i t : Nat) : Bool :=
  s.gather.dies.any fun e => e.2.jobs.any fun j => j.inst = i && j.desc.table = t

/-- An entry takes its value, and its cached rows go. -/
def State.setTable (s : State) (i t : Nat) (v : Option GatherTable) : State :=
  let s := s.dropCached fun r => r.inst = i && r.table = t
  { s with gather := { s.gather with tables := match v with
      | some x => s.gather.tables.put (16 * i + t) x
      | none => Tbl.del s.gather.tables (16 * i + t) } }

/-- A table command waits for the descriptors in flight, or acts at once. -/
def State.tableCommand (s : State) (w : Waiter) (i t : Nat) (v : Option GatherTable) : Act :=
  if s.tableBusy i t || s.gather.waits.any (fun x => x.inst = i && x.tab = t) then
    .wait { s with gather := { s.gather with waits := s.gather.waits ++ [{ waiter := w, began := s.now, inst := i, tab := t, value := v }] } }
  else okay (s.setTable i t v)

/-- GTH_TABLE_SET after its parameter checks. -/
def gthTableSetRun (s : State) (w : Waiter) (_ : Nat) (ps : List Byte) : Act :=
  let t := parseTable ps
  if !pitchOk t.pitch || decide (t.pitch < t.rowLen) then fails s 0x3002 else s.tableCommand w (fieldAt ps 0 1) (fieldAt ps 1 1) (some t)

/-- GTH_TABLE_SET. -/
def gthTableSetSpec : Spec :=
  { opcode := 0x3002, permits := ownAt 0, plen := fixed 32
    fields := fun _ ps =>
      [below ps 0 1 64, below ps 1 1 16, below ps 2 1 4, (3, [1, 2, 3, 4, 5, 9, 10].contains (fieldAt ps 3 1)),
       (4, decide (1 ≤ fieldAt ps 4 2 ∧ fieldAt ps 4 2 ≤ 4096) && (fieldAt ps 3 1 ≠ 10 || decide (fieldAt ps 4 2 % 2 = 0))),
       within ps 6 2 1 1024, address ps 8 1024, within ps 16 4 1 (2 ^ 32 - 1), rsv ps 28 4]
    run := gthTableSetRun }

/-- GTH_TABLE_SET (R170). -/
def execGthTableSet (c : Cmd) (s : State) : Res := .next (s.command gthTableSetSpec c)

/-- The fields INST and TABLE of GTH_TABLE_CLEAR and GTH_TABLE_GET. -/
def tableFields : State → List Byte → List (Nat × Bool) := fun _ ps => [below ps 0 1 64, below ps 1 1 16, rsv ps 2 6]

/-- GTH_TABLE_CLEAR. -/
def gthTableClearSpec : Spec :=
  { opcode := 0x3003, permits := ownAt 0, plen := fixed 8, fields := tableFields
    run := fun s w _ ps =>
      let i := fieldAt ps 0 1
      let t := fieldAt ps 1 1
      if s.gather.tables.has (16 * i + t) then s.tableCommand w i t none else fails s 0x3003 }

/-- GTH_TABLE_CLEAR (R170). -/
def execGthTableClear (c : Cmd) (s : State) : Res := .next (s.command gthTableClearSpec c)

/-- GTH_TABLE_GET. -/
def gthTableGetSpec : Spec :=
  { opcode := 0x3004, permits := ownAt 0, plen := fixed 8, fields := tableFields
    run := fun s _ _ ps =>
      let i := fieldAt ps 0 1
      let t := fieldAt ps 1 1
      match s.gather.tables.find (16 * i + t) with
      | some x => gives s (x.bytes i t)
      | none => fails s 0x3003 }

/-- GTH_TABLE_GET (R170). -/
def execGthTableGet (c : Cmd) (s : State) : Res := .next (s.command gthTableGetSpec c)

/-- GTH_CACHE_DROP. -/
def gthCacheDropSpec : Spec :=
  { opcode := 0x3005, permits := ownAt 0, plen := fixed 8
    fields := fun _ ps => [below ps 0 1 64, (1, decide (fieldAt ps 1 1 < 16) || fieldAt ps 1 1 = 0xFF), rsv ps 2 6]
    run := fun s _ _ ps =>
      let i := fieldAt ps 0 1
      let t := fieldAt ps 1 1
      if t = 0xFF then okay (s.dropCached fun r => r.inst = i)
      else if s.gather.tables.has (16 * i + t) then okay (s.dropCached fun r => r.inst = i && r.table = t)
      else fails s 0x3003 }

/-- GTH_CACHE_DROP (R177). -/
def execGthCacheDrop (c : Cmd) (s : State) : Res := .next (s.command gthCacheDropSpec c)

/-- GTH_TABLE_WAIT_END (R170): the descriptors using the entry have finished and it changes, or 1 s has passed and it does
not. -/
def execGthTableWaitEnd (inst tab : Nat) (s : State) : Res :=
  .next <|
    match s.gather.waits.find? fun w => w.inst = inst && w.tab = tab with
    | none => s
    | some w =>
      let s : State := { s with gather := { s.gather with waits := s.gather.waits.erase w } }
      if s.tableBusy inst tab then (s.reach (w.began + 1_000_000_000)).finish w.waiter 0x3004 0 []
      else (s.setTable inst tab w.value).finish w.waiter 0 0 []

/-! ## Registers (R176, R178) -/

/-- A write of GTH_CACHE (R178): the way count changes, the cache empties, and SRAM that was cache reads as zero. -/
def State.writeCache (s : State) (k : Nat) (v : BitVec 64) : State :=
  let n := bitsOf v.toNat 4 0
  if 16 < n then s
  else
    let d := s.gatherDie k
    let s := s.modGatherDie k fun d => { d with ways := n, cache := [] }
    if n < d.ways then s.zeroRange (sramBase + k * 0x0200_0000 + (16 - d.ways) * 0x20_0000) ((d.ways - n) * 0x20_0000) else s

/-- A write of GTH_CWAYS (R176, R178): an instance's mask, unless it overlaps another's or names a way that is not cache; rows in the
ways concerned go. -/
def State.writeCways (s : State) (k inst : Nat) (v : BitVec 64) : State :=
  let d := s.gatherDie k
  let m : BitVec 16 := BitVec.ofNat 16 v.toNat
  let other : Bool := d.masks.any fun e => e.1 ≠ inst && e.2 &&& m ≠ 0
  let beyond : Bool := (List.range 16).any fun w => m.getLsbD w && decide (w < 16 - d.ways)
  if other || beyond then s.raise blkGTH 0x3001 none (0x05_0000_0000 + k * 0x1000_0000 + 0x100 + 8 * inst) v.toNat
  else
    let old := d.masks.getD inst 0
    s.modGatherDie k fun d =>
      { d with
        masks := if m = 0 then Tbl.del d.masks inst else d.masks.put inst m
        cache := d.cache.filter fun r => r.inst ≠ inst || !(old ^^^ m).getLsbD r.way }

end Sys2Proof.Machine
end

