-- ==== Sys2Proof/Machine/HostPcie.lean ====
section
/-! DEFINITION. The PCIe endpoint and root ports (spec/15): master reads and their completions, resets of functions, configuration,
BAR0 and BAR2, the link, windows, written-page logging and the endpoint's commands. -/

namespace Sys2Proof.Machine

/-! ## Master reads (R389 to R394) -/

/-- The event of a master read that fails: a transfer of a facet to the attached host while the link is down is refused as under
R33 (R34), so its event is the facet's ADDRESS; any other failure is the endpoint's (R389). -/
def State.readFailEvent (s : State) (fn reason : Nat) (r : MasterRead) : State :=
  match r.dest with
  | .facet f tag _ =>
    if reason = 1 then s.raise blkFCT 0x0002 (some r.inst) (match (s.facet f).xfer tag with | some t => t.remote | none => r.addr) f
    else s.raise blkPCE 0x90FF (some r.inst) fn reason
  | .command _ _ => s.raise blkPCE 0x90FF (some r.inst) fn reason

/-- A read of a facet's transfer or of a storage command fails: each engine acts as its own chapter states (R69, R358). A function
that may not issue (reason 2) ends the transfer with ADDRESS and status 0x0006, which R491 does not list for it (log entry 55). A
reason that is no translation failure has no status of R117, so the DETAIL of its TRANSFER is a free value (log entry 7). -/
def State.readFailed (s : State) (fn reason : Nat) (r : MasterRead) : State :=
  let s := s.readFailEvent fn reason r
  match r.dest with
  | .facet f tag _ =>
    match (s.facet f).xfer tag with
    | some t =>
      if !(s.facet f).accepts r.inst r.gen then s
      else
        let s := s.modFacet f fun x => x.dropXfer tag
        if reason ≤ 3 then s.facetExc f 0x09 2 t.index 6
        else
          let (v, s) := s.takeFree
          s.facetExc f 0x0A 2 t.index (v % 65536)
    | none => s
  | .command id _ =>
    match s.storage.cmds.find id with
    | none => s
    | some c =>
      let c := { c with fail := some (0, 4), due := c.due - 1 }
      if c.due = 0 then s.nvEnd id { c with begun := true } (0, 4) else s.putCmd id c

/-- Reads of a function that wait to be sent fail (R395). -/
def State.failWaiting (s : State) (fn reason : Nat) : State :=
  let rs := (s.fn fn).waiting
  rs.foldl (fun s r => (s.pceStat 7).readFailed fn reason r) (s.modFn fn fun x => { x with waiting := [] })

/-- Tags of a function (R391). -/
def State.tagSpace (s : State) (fn : Nat) : Nat :=
  let x := s.fn fn
  if s.pcie.flit && x.devCtl3.getLsbD 2 then 16384 else if x.devCtl2.getLsbD 12 then 768 else 256

/-- The lowest free tag of a function that is not quarantined (R391). -/
def State.freeTag (s : State) (fn : Nat) : Option Nat :=
  let x := s.fn fn
  (List.range (min (s.tagSpace fn) (x.reads.length + x.quarantine.length + 1))).find? fun t =>
    !(x.reads.any fun r => r.tag = t) && !(x.quarantine.any fun q => q.1 = t)

/-- Reads outstanding across the device, and the bytes of the completion buffer that they hold. -/
def State.readsOut (s : State) : Nat := (s.pcie.fns.map fun e => e.2.reads.length).sum
def State.bufferUsed (s : State) : Nat := (s.pcie.fns.map fun e => (e.2.reads.map fun r => r.len - r.got).sum).sum

/-- MASTER_READ_ISSUE (R389, R391): the function's oldest waiting read is sent with a tag, or fails. -/
def execMasterReadIssue (fn : Nat) (s : State) : Res :=
  .next <|
    match (s.fn fn).waiting with
    | [] => s
    | r :: rest =>
      let bus : Bool := match r.dest with | .command _ _ => true | _ => false
      let reason := if !s.pcie.linkUp then some 1
        else if !s.mayMaster fn || (bus && (s.fn fn).bound.isNone) then some 2 else none
      match reason with
      | some e => ((s.modFn fn fun x => { x with waiting := rest }).pceStat 7).readFailed fn e r
      | none =>
        match s.freeTag fn with
        | none => s
        | some tag =>
          if 4096 ≤ s.readsOut ∨ 0x20_0000 < s.bufferUsed + r.len then s
          else
            let i := if bus then (s.fn fn).bound.getD 0 else r.inst
            let r := { r with tag, sent := s.now, inst := i, gen := if bus then s.genOf i else r.gen }
            let s := (s.modFn fn fun x => { x with waiting := rest, reads := x.reads ++ [r] }).pceStat 0
            let s := match r.dest with
              | .command id _ => match s.storage.cmds.find id with
                | some c => s.putCmd id { c with begun := true }
                | none => s
              | _ => s
            s.emit (.memRead fn tag r.addr r.len)

/-- The outstanding read with a tag. -/
def PceFn.read (x : PceFn) (tag : Nat) : Option MasterRead := x.reads.find? fun r => r.tag = tag

/-- A read is no longer outstanding. -/
def State.dropRead (s : State) (fn tag : Nat) : State := s.modFn fn fun x => { x with reads := x.reads.filter fun r => r.tag ≠ tag }

/-- An accepted piece is written to its destination at once; the last one ends the read (R392). -/
def State.takePiece (s : State) (fn : Nat) (r : MasterRead) (bs : List Byte) : State :=
  let got := r.got + bs.length
  let last : Bool := decide (r.len ≤ got)
  let s := if last then s.dropRead fn r.tag
    else s.modFn fn fun x => { x with reads := x.reads.map fun y => if y.tag = r.tag then { y with got } else y }
  match r.dest with
  | .facet f tag off =>
    match (s.facet f).xfer tag with
    | some t => if (s.facet f).accepts r.inst r.gen then s.dataArrive f 5 t (off + r.got) bs last else s.facetDiscard f
    | none => s.facetDiscard f
  | .command id off =>
    match s.storage.cmds.find id with
    | none => s
    | some c =>
      let c := { c with data := overlay c.data (off + r.got) bs, due := if last then c.due - 1 else c.due }
      let s := s.putCmd id c
      if c.due ≠ 0 then s
      else match c.fail with
        | some st => s.nvEnd id c st
        | none => s.nvStart id

/-- A piece matches no outstanding read, or a quarantined tag (R392, R393). -/
def State.unexpected (s : State) (fn : Nat) : State := (s.pceStat 2).aerUncor fn erUnexpected true

/-- A piece fits its request (R392). -/
def State.fits (s : State) (r : MasterRead) (pc : CplPiece) : Bool :=
  let n := pc.payload.length
  let a := r.addr + r.got
  decide (pc.lowerAddr = a % 128) && decide (pc.byteCount = r.len - r.got) && decide (0 < n ∧ n ≤ s.maxPayload pc.fn) &&
  decide (r.got + n ≤ r.len) && (decide ((a + n) % 64 = 0) || decide (r.got + n = r.len))

/-- COMPLETION_RECEIVE (R392 to R394): a piece is checked, and its data written. -/
def execCompletionReceive (pc : CplPiece) (s : State) : Res :=
  .next <|
    let fn := pc.fn
    match (s.fn fn).read pc.tag with
    | none =>
      match (s.fn fn).quarantine.find? fun q => q.1 = pc.tag with
      | some q => if q.2.2 then s else s.unexpected fn
      | none => s.unexpected fn
    | some r =>
      if s.genOf r.inst ≠ r.gen then
        let got := r.got + pc.payload.length
        let s := s.pceStat 3
        if r.len ≤ got ∨ pc.status ≠ 0 then s.dropRead fn r.tag
        else s.modFn fn fun x => { x with reads := x.reads.map fun y => if y.tag = r.tag then { y with got } else y }
      else if pc.status ≠ 0 then (s.dropRead fn r.tag).readFailed fn 5 r
      else if pc.ep then ((s.dropRead fn r.tag).aerUncor fn erPoisoned).readFailed fn 6 r
      else if s.fits r pc then s.takePiece fn r pc.payload
      else ((s.dropRead fn r.tag).unexpected fn).readFailed fn 7 r

/-- The completion time-out of a function in ns (R393). -/
def timeoutNs (v : Nat) : Nat :=
  match v with
  | 1 => 100_000 | 2 => 10_000_000 | 5 => 55_000_000 | 6 => 210_000_000 | 9 => 900_000_000 | 10 => 3_500_000_000
  | 13 => 13_000_000_000 | 14 => 64_000_000_000 | _ => 50_000_000

/-- The completion time-out in force. -/
def State.timeoutOf (s : State) (fn : Nat) : Nat := timeoutNs ((s.fn fn).devCtl2.toNat % 16)

/-- COMPLETION_TIMEOUT (R393, R394): a read fails and its tag is quarantined; one of an old generation only frees its tag. -/
def execCompletionTimeout (fn tag : Nat) (s : State) : Res :=
  .next <|
    match (s.fn fn).read tag with
    | none => s
    | some r =>
      let lim := s.timeoutOf fn
      let s := (s.reach (r.sent + lim)).dropRead fn tag
      if s.genOf r.inst ≠ r.gen then s
      else
        let s := s.modFn fn fun x => { x with quarantine := x.quarantine ++ [(tag, s.now + 2 * lim, false)] }
        ((s.pceStat 1).aerUncor fn erTimeout).readFailed fn 4 r

/-- TAG_QUARANTINE_END (R393): a tag is free again. -/
def execTagQuarantineEnd (fn tag : Nat) (s : State) : Res :=
  .next <|
    match (s.fn fn).quarantine.find? fun q => q.1 = tag with
    | none => s
    | some q => (s.reach q.2.1).modFn fn fun x => { x with quarantine := x.quarantine.filter fun y => y.1 ≠ tag }

/-! ## Stopping functions (R395 to R397, R400) -/

/-- BUS_MASTER_DISABLE (R395): the function sends no further request. -/
def execBusMasterDisable (fn : Nat) (s : State) : Res :=
  .next ((s.modFn fn fun x => { x with cmd := x.cmd &&& ~~~(4 : BitVec 32) }).failWaiting fn 2)

/-- A function's reset (R396): its reads end with a reason, its tags are quarantined silently, its controller resets, its mailbox
and its configuration return to their reset values. The binding, the windows and written-page logging stay, and so do the sticky bits:
AER's registers, PME_En and PME_Status (log entry 5). -/
def State.fnReset (s : State) (fn reason : Nat) : State :=
  let s := s.modFn fn fun x => { x with flr := true }
  let s := s.failWaiting fn reason
  let rs := (s.fn fn).reads
  let till := s.now + 2 * s.timeoutOf fn
  let s := s.modFn fn fun x =>
    { x with
      reads := []
      quarantine := x.quarantine ++ rs.map fun r => (r.tag, till, true) }
  let s := rs.foldl (fun s r => if s.genOf r.inst = r.gen then s.readFailed fn reason r else s) s
  let s : State := match (s.fn fn).bound with
    | some i => if (s.ctrl i).mode = CtrlMode.host then s.ctrlReset i else s
    | none => s
  let s := s.modChan (fn + 2) fun c => { c with inProg := [], aborts := [], held := [] }
  s.modFn fn fun x =>
    { PceFn.initial fn with
      bound := x.bound, dlog := x.dlog, quarantine := x.quarantine, aer := x.aer, pmeEn := x.pmeEn, pmeStat := x.pmeStat }

/-- Every VF is reset, and its mailbox channel disabled with its binding kept (R397); a new VF aperture size applies (R382). -/
def State.vfReset (s : State) (reason : Nat) : State :=
  let s := (List.range 63).foldl (fun s j =>
    (s.fnReset (j + 1) reason).modChan (j + 3) fun c => { c with state := .disabled, kept := [] }) s
  { s with pcie := { s.pcie with vfEnable := false, vfLog2 := s.pcie.nextVf } }

/-- Every function is reset with a reason (R397); SR-IOV's registers return to their reset values and a new aperture size applies. -/
def State.allReset (s : State) (reason : Nat) : State :=
  let s := (s.vfReset reason).fnReset 0 reason
  { s with pcie := { s.pcie with pfLog2 := s.pcie.nextPf, numVfs := 0, vfBar0 := 0, vfBar2 := 0 } }

/-- FUNCTION_LEVEL_RESET (R396, R397): one of PF0 also clears VF Enable. -/
def execFunctionLevelReset (fn : Nat) (s : State) : Res :=
  .next (if fn = 0 then s.allReset 2 else s.fnReset fn 2)

/-- VF_ENABLE_CLEAR (R397). -/
def execVfEnableClear (s : State) : Res := .next (if s.pcie.vfEnable then s.vfReset 2 else s)


/-- The endpoint link leaves L0 and trains again (R397). -/
def State.retrain (s : State) : State :=
  { s with pcie := { s.pcie with
      link := .training, flit := false, rate := 0, width := 0, downAt := s.now, retrains := min 0xFFFFFFFF (s.pcie.retrains + 1) } }

/-- HOT_RESET (R397): a hot reset or a loss of the link; every function is reset with LINK_DOWN. -/
def execHotReset (s : State) : Res := .next (if s.pcie.linkUp || s.pcie.link = .l23 then s.retrain.allReset 1 else s)

/-- A function enters or leaves D3hot (R400). -/
def State.setD3 (s : State) (fn : Nat) (d3 : Bool) : State :=
  if d3 then (s.modFn fn fun x => { x with d3 := true }).failWaiting fn 2
  else ((s.modFn fn fun x => { x with d3 := false }).flushReplies (fn + 2)).flushMsix fn

/-- D3HOT_ENTRY (R400). -/
def execD3hotEntry (fn : Nat) (d3 : Bool) (s : State) : Res := .next (if (s.fn fn).d3 = d3 then s else s.setD3 fn d3)

/-- PME_TURN_OFF (R400): PME_TO_Ack is sent, and the link enters L2/L3 Ready. -/
def execPmeTurnOff (s : State) : Res :=
  .next (if s.pcie.linkUp then (let t := s.emit (.message 0 5); { t with pcie := { t.pcie with link := .l23 } }) else s)

/-! ## The link (R377, R397) -/

/-- ENDPOINT_LINK_RETRY (R377): a link that cannot reach 16 GT/s is taken down; 1 s later it trains again. -/
def execEndpointLinkRetry (s : State) : Res :=
  .next <|
    match s.pcie.link with
    | .training =>
      ({ s with pcie := { s.pcie with link := .down, downAt := s.now } }).raise blkPCE 0x90FF none 0 0x300
    | .down =>
      let s := s.reach (s.pcie.downAt + 1_000_000_000)
      { s with pcie := { s.pcie with link := .training, retrains := min 0xFFFFFFFF (s.pcie.retrains + 1) } }
    | _ => s


/-- ENDPOINT_LINK_UP (R377, R397, R466): the link trains at a rate of 16 GT/s or more; master requests may go again, and Endpoint
containment ends. -/
def execEndpointLinkUp (flit : Bool) (rate width : Nat) (s : State) : Res :=
  .next <|
    if s.pcie.link ≠ .training ∨ rate < 4 ∨ !s.pins.peClk ∨ s.pins.perst then s
    else
      let s : State := { s with pcie := { s.pcie with link := .l0, flit, rate, width } }
      (List.range 64).foldl State.flushMsix (s.causeGone 0x0007)

/-- PCE_LINK. -/
def Pcie.linkWord (x : Pcie) : BitVec 64 :=
  let st := match x.link with | .down => 0 | .training => 1 | .l0 => 2 | .l1 => 3 | .l23 => 4
  pack [(60, 4, st), (59, 1, bit x.flit), (56, 3, x.rate), (51, 5, x.width), (0, 32, x.retrains)]

/-! ## Configuration requests (R378, R379) -/

/-- A function exists: PF0, or a VF that is enabled. -/
def State.fnExists (s : State) (fn : Nat) : Bool := fn = 0 || (s.pcie.vfEnable && decide (fn ≤ s.pcie.numVfs))

/-- The low bits of a BAR of 2^k bytes, as it reads: 64-bit, and prefetchable for BAR2. -/
def barLow (v : BitVec 64) (k : Nat) (pf : Bool) : BitVec 64 :=
  BitVec.ofNat 64 (v.toNat / 2 ^ k * 2 ^ k + if pf then 0xC else 4)

/-- The value of a configuration register. -/
def State.configValue (s : State) (fn : Nat) (r : CfgReg) : BitVec 32 :=
  let x := s.fn fn
  let lo (v : BitVec 64) : BitVec 32 := BitVec.ofNat 32 v.toNat
  let hi (v : BitVec 64) : BitVec 32 := BitVec.ofNat 32 (v.toNat / 2 ^ 32)
  match r with
  | .identity => BitVec.ofNat 32 ((if fn = 0 then 0xD320 else 0xD321) * 65536 + 0x1F9C)
  | .subsystem => BitVec.ofNat 32 ((if Config.energyBinned then 0x0E32 else 0x0F32) * 65536 + 0x1F9C)
  | .classRev => 0x010802B0
  | .command => x.cmd
  | .devControl => x.devCtl
  | .devControl2 => x.devCtl2
  | .devControl3 => x.devCtl3
  | .msixControl => BitVec.ofNat 32 (2 ^ 31 * bit x.msixEn + 2 ^ 30 * bit x.msixMask + 65536 * (vectors fn - 1))
  | .pmcsr => BitVec.ofNat 32 (32768 * bit x.pmeStat + 256 * bit x.pmeEn + 8 + 3 * bit x.d3)
  | .sriovControl => if fn = 0 then BitVec.ofNat 32 (bit s.pcie.vfEnable) else 0
  | .sriovNumVfs => if fn = 0 then BitVec.ofNat 32 s.pcie.numVfs else 0
  | .aerUncorStatus => x.aer.ustat
  | .aerUncorMask => x.aer.umask
  | .aerUncorSeverity => x.aer.usev
  | .aerCorStatus => x.aer.cstat
  | .aerCorMask => x.aer.cmask
  | .linkControl => x.linkCtl
  | .bar0 => if fn = 0 then lo (barLow x.bar0 18 false) else 0
  | .bar0Hi => if fn = 0 then hi (barLow x.bar0 18 false) else 0
  | .bar2 => if fn = 0 then lo (barLow x.bar2 s.pcie.pfLog2 true) else 0
  | .bar2Hi => if fn = 0 then hi (barLow x.bar2 s.pcie.pfLog2 true) else 0
  | .vfBar0 => if fn = 0 then lo (barLow s.pcie.vfBar0 18 false) else 0
  | .vfBar0Hi => if fn = 0 then hi (barLow s.pcie.vfBar0 18 false) else 0
  | .vfBar2 => if fn = 0 then lo (barLow s.pcie.vfBar2 s.pcie.vfLog2 true) else 0
  | .vfBar2Hi => if fn = 0 then hi (barLow s.pcie.vfBar2 s.pcie.vfLog2 true) else 0

/-- Half of a 64-bit BAR written. -/
def putHalf (v : BitVec 64) (high : Bool) (w : BitVec 32) : BitVec 64 :=
  if high then BitVec.ofNat 64 (v.toNat % 2 ^ 32 + w.toNat * 2 ^ 32) else BitVec.ofNat 64 (v.toNat / 2 ^ 32 * 2 ^ 32 + w.toNat)

/-- A write of a configuration register, with what follows from it (R389, R395 to R397, R400). -/
def State.configWrite (s : State) (fn : Nat) (r : CfgReg) (v : BitVec 32) : State :=
  let x := s.fn fn
  match r with
  | .identity | .subsystem | .classRev => s
  | .command =>
    let c := v &&& (if fn = 0 then 0x546 else 4)
    let s := s.modFn fn fun x => { x with cmd := c }
    if x.cmd.getLsbD 2 && !c.getLsbD 2 then s.failWaiting fn 2 else s.flushMsix fn
  | .devControl =>
    if v.getLsbD 15 then if fn = 0 then s.allReset 2 else s.fnReset fn 2
    else s.modFn fn fun x => { x with devCtl := v &&& 0x71EF }
  | .devControl2 => s.modFn fn fun x => { x with devCtl2 := v &&& 0x100F }
  | .devControl3 => s.modFn fn fun x => { x with devCtl3 := v &&& 4 }
  | .msixControl => (s.modFn fn fun x => { x with msixEn := v.getLsbD 31, msixMask := v.getLsbD 30 }).flushMsix fn
  | .pmcsr =>
    let s := s.modFn fn fun x => { x with pmeEn := v.getLsbD 8, pmeStat := x.pmeStat && !v.getLsbD 15 }
    let st := v.toNat % 4
    if st = 3 ∧ !x.d3 then s.setD3 fn true else if st = 0 ∧ x.d3 then s.setD3 fn false else s
  | .sriovControl =>
    if fn ≠ 0 then s
    else if v.getLsbD 0 then { s with pcie := { s.pcie with vfEnable := true } }
    else if s.pcie.vfEnable then s.vfReset 2 else s
  | .sriovNumVfs => if fn = 0 ∧ !s.pcie.vfEnable then { s with pcie := { s.pcie with numVfs := min 63 (v.toNat % 65536) } } else s
  | .aerUncorStatus => s.modFn fn fun x => { x with aer := { x.aer with ustat := x.aer.ustat &&& ~~~v } }
  | .aerUncorMask => s.modFn fn fun x => { x with aer := { x.aer with umask := v } }
  | .aerUncorSeverity => s.modFn fn fun x => { x with aer := { x.aer with usev := v } }
  | .aerCorStatus => s.modFn fn fun x => { x with aer := { x.aer with cstat := x.aer.cstat &&& ~~~v } }
  | .aerCorMask => s.modFn fn fun x => { x with aer := { x.aer with cmask := v } }
  | .linkControl => s.modFn fn fun x => { x with linkCtl := v &&& 0xFFFF }
  | .bar0 => if fn = 0 then s.modFn 0 fun x => { x with bar0 := putHalf x.bar0 false v } else s
  | .bar0Hi => if fn = 0 then s.modFn 0 fun x => { x with bar0 := putHalf x.bar0 true v } else s
  | .bar2 => if fn = 0 then s.modFn 0 fun x => { x with bar2 := putHalf x.bar2 false v } else s
  | .bar2Hi => if fn = 0 then s.modFn 0 fun x => { x with bar2 := putHalf x.bar2 true v } else s
  | .vfBar0 => if fn = 0 then { s with pcie := { s.pcie with vfBar0 := putHalf s.pcie.vfBar0 false v } } else s
  | .vfBar0Hi => if fn = 0 then { s with pcie := { s.pcie with vfBar0 := putHalf s.pcie.vfBar0 true v } } else s
  | .vfBar2 => if fn = 0 then { s with pcie := { s.pcie with vfBar2 := putHalf s.pcie.vfBar2 false v } } else s
  | .vfBar2Hi => if fn = 0 then { s with pcie := { s.pcie with vfBar2 := putHalf s.pcie.vfBar2 true v } } else s

/-- The endpoint answers configuration requests: boot has configured it, and 100 ms have passed since PERST_N deasserted (R379). -/
def State.configReady (s : State) : Bool :=
  s.pcie.configured && match s.pcie.perstAt with | some t => decide (t + 100_000_000 ≤ s.now) | none => true

/-- CONFIG_REQUEST (R379): a request is retried, refused for a function that does not exist, or answered. -/
def execConfigRequest (fn : Nat) (r : CfgReq) (s : State) : Res :=
  .next <|
    if !s.pcie.linkUp then s
    else if !s.configReady then s.emit (.config fn r.reg 0 true)
    else if !s.fnExists fn then (s.emit (.config fn r.reg 0xFFFFFFFF false)).aerUncor 0 erUnsupported
    else match r.write with
      | none => s.emit (.config fn r.reg (s.configValue fn r.reg) false)
      | some v => (s.configWrite fn r.reg v).emit (.config fn r.reg 0 false)

end Sys2Proof.Machine
end

