-- ==== Sys2Proof/Machine/HostBars.lean ====
section
/-! DEFINITION. BAR0 and BAR2 of the endpoint's functions, the endpoint's commands and the root ports (spec/15). -/

namespace Sys2Proof.Machine

/-! ## BAR0 (R380, R382) -/

/-- CAP: 65,536 entries, contiguous queues, 1 s, the NVM command set (R354). -/
def nvmeCap : Nat := 0x0000_0020_0201_FFFF

/-- MB_STATE of a function. -/
def State.mbState (s : State) (fn : Nat) : Nat :=
  match (s.chan (fn + 2)).state with | .disabled => 0 | .unsynced => 1 | .synced => 2 | .error => 3

/-- The 8 bytes of BAR0 at a multiple of 8, as a read sees them; `i` is the bound instance. -/
def State.barQword (s : State) (fn i off : Nat) : Nat :=
  let x := s.fn fn
  let c := s.ctrl i
  let host : Bool := c.mode ≠ .device
  if off = 0 then nvmeCap
  else if off = 8 then 0x0002_0000 + c.intms.toNat * 2 ^ 32
  else if off = 0x10 then c.intms.toNat + (if host then c.cc.toNat else 0) * 2 ^ 32
  else if off = 0x18 then (if host then bit c.rdy + 2 * bit c.cfs + 4 * c.shst else 0) * 2 ^ 32
  else if off = 0x20 then c.aqa.toNat * 2 ^ 32
  else if off = 0x28 then c.asq.toNat
  else if off = 0x30 then c.acq.toNat
  else if off = 0x1_0000 then x.mbCmd.toNat
  else if off = 0x1_0008 then x.mbRep.toNat
  else if off = 0x1_0010 then x.mbLen + x.mbVec * 2 ^ 32
  else if off = 0x1_0020 then s.mbState fn
  else if 0x3_0000 ≤ off ∧ off < 0x3_0000 + 16 * vectors fn then
    let v := x.vector ((off - 0x3_0000) / 16)
    if off % 16 = 0 then v.addr.toNat else v.data.toNat + bit v.masked * 2 ^ 32
  else if 0x3_8000 ≤ off ∧ off < 0x3_8100 then
    ((List.range 64).map fun j => bit (x.vector (8 * (off - 0x3_8000) + j)).pending * 2 ^ j).sum
  else 0

/-- New 8 bytes written to the registers that have no row of their own; `lo` and `hi` say which halves are written. -/
def State.barStore (s : State) (fn i off v : Nat) (lo hi : Bool) : State :=
  let v32 : BitVec 32 := BitVec.ofNat 32 v
  let h32 : BitVec 32 := BitVec.ofNat 32 (v / 2 ^ 32)
  let v64 : BitVec 64 := BitVec.ofNat 64 v
  if off = 8 then if hi then s.modCtrl i fun c => { c with intms := c.intms ||| h32 } else s
  else if off = 0x10 then if lo then s.modCtrl i fun c => { c with intms := c.intms &&& ~~~v32 } else s
  else if off = 0x20 then if hi then s.modCtrl i fun c => { c with aqa := h32 &&& 0x0FFF0FFF } else s
  else if off = 0x28 then s.modCtrl i fun c => { c with asq := v64 &&& ~~~(0xFFF : BitVec 64) }
  else if off = 0x30 then s.modCtrl i fun c => { c with acq := v64 &&& ~~~(0xFFF : BitVec 64) }
  else if off = 0x1_0000 then s.modFn fn fun x => { x with mbCmd := v64 &&& ~~~(0xFFF : BitVec 64) }
  else if off = 0x1_0008 then s.modFn fn fun x => { x with mbRep := v64 &&& ~~~(0xFFF : BitVec 64) }
  else if 0x3_0000 ≤ off ∧ off < 0x3_0000 + 16 * vectors fn then
    let n := (off - 0x3_0000) / 16
    let y := (s.fn fn).vector n
    let y : MsixVec := if off % 16 = 0 then { y with addr := v64 } else { y with data := v32, masked := bitAt v 32 }
    (s.putVector fn n y).flushMsix fn
  else s

/-- BAR0_BAD_ACCESS (R382): an access of a wrong size or alignment reads zero or is ignored, and is recorded; a proper one acts on
the registers that have no row of their own (log entry 13). -/
def execBar0BadAccess (fn off size : Nat) (write : Bool) (v : BitVec 64) (s : State) : Res :=
  .next <|
    let good : Bool := (size = 4 || size = 8) && decide (off % size = 0)
    if !s.pcie.linkUp ∨ !s.fnExists fn then s
    else if (s.fn fn).d3 ∨ (s.fn fn).flr then
      let s := s.aerUncor fn erUnsupported write
      if write then s else s.emit (.completion fn 0 1 [])
    else if !good then
      let s := s.raise blkPCE 0x9001 (s.fn fn).bound off (if write then v.toNat else 0)
      if write then s else s.emit (.barRead fn off 0)
    else
      match (s.fn fn).bound with
      | none => if write then s else s.emit (.barRead fn off 0)
      | some i =>
        let s := s.wakeDeep
        let o8 := off / 8 * 8
        let old := s.barQword fn i o8
        let high : Bool := decide (off % 8 = 4)
        if write then
          let new := if size = 8 then v.toNat
            else if high then old % 2 ^ 32 + v.toNat % 2 ^ 32 * 2 ^ 32
            else v.toNat % 2 ^ 32 + old / 2 ^ 32 * 2 ^ 32
          s.barStore fn i o8 new (size = 8 || !high) (size = 8 || high)
        else s.emit (.barRead fn off (BitVec.ofNat 64 (if size = 8 then old else if high then old / 2 ^ 32 else old % 2 ^ 32)))

/-- RMA_DB (R381, R331): a doorbell of the bound instance. -/
def execRmaDb (fn : Nat) (v : BitVec 64) (s : State) : Res := .next (s.barWrite fn fun s i => s.ringQp i (v.toNat % 2 ^ 18))

/-- The mailbox channel becomes unsynced with its rings reprogrammed (R231, R233). -/
def State.mailboxFresh (s : State) (ch : Nat) : State :=
  s.modChan ch fun c => if c.state = .disabled then c else { c with state := .unsynced, kept := [], cons := 0, prod := 0, repCons := 0, held := [] }

/-- MB_CFG_WRITE (R231, R382): a good length programs the rings, writing PROD and CONS of both as zero; any other leaves the channel
fetching nothing. -/
def execMbCfgWrite (fn : Nat) (v : BitVec 64) (s : State) : Res :=
  .next <| s.barWrite fn fun s _ =>
    let n := v.toNat % 2 ^ 32
    let s := s.modFn fn fun x => { x with mbVec := bitsOf v.toNat 42 32, mbLen := n }
    if !ringLenOk n then s
    else
      let x := s.fn fn
      let s := (s.busWrite fn x.mbCmd.toNat (zeros 16)).1
      ((s.busWrite fn x.mbRep.toNat (zeros 16)).1).mailboxFresh (fn + 2)

/-! ## BAR2 (R383 to R385) -/

/-- The window that serves a request to a function's BAR2 (R383, R384). -/
def State.inWindow (s : State) (fn off n : Nat) (write : Bool) : Option InWindow :=
  if (s.fn fn).bound.isNone then none
  else (s.pcie.inWin.find? fun e =>
    e.2.fn = fn && decide (e.2.obase ≤ off ∧ off + n ≤ e.2.obase + e.2.len) && (if write then e.2.wr else e.2.rd) &&
    decide (s.genOf e.2.inst = e.2.gen)).map (·.2)

/-- The completions of a read: pieces of at most the payload size, each ending at a 64-byte address or at the end (R385). -/
def State.complete (s : State) (fn tag : Nat) : Nat → Nat → List Byte → State
  | 0, _, _ => s
  | fuel + 1, a, bs =>
    if bs.isEmpty then s
    else
      let k := s.maxPayload fn - a % 64
      State.complete (s.emit (.completion fn tag 0 (bs.take k))) fn tag fuel (a + k) (bs.drop k)

/-- A request to a function that takes none: it is in D3hot or in a reset (R396, R400). -/
def State.fnDeaf (s : State) (fn : Nat) : Bool := (s.fn fn).d3 || (s.fn fn).flr

/-- A host access that the Destan takes wakes it (R435). Completion status: 1 Unsupported Request, 4 Completer Abort. -/
def State.noWindow (s : State) (fn : Nat) (write : Bool) : State := ((if write then s.pceStat 4 |>.pceStat 5 else s.pceStat 4)).aerUncor fn erUnsupported write

/-- An inbound access that its device address refuses: the ADDRESS event of R33, a refused account for a facet's owner (R73). -/
def State.inboundRefused (s : State) (w : InWindow) (a n : Nat) (e : AccErr) : State :=
  match e with
  | .trans _ => s.raise blkPCE 0x0002 (some w.inst) a w.fn
  | .lost => s.discardReads (some (w.inst, w.gen)) [(a, n)]
  | .uncorr => s.metBad clsHost a n

/-- INBOUND_READ (R384, R385): a read through BAR2. -/
def execInboundRead (fn off len tag : Nat) (s : State) : Res :=
  .next <|
    if !s.pcie.linkUp ∨ !s.fnExists fn then s
    else if s.fnDeaf fn then (s.aerUncor fn erUnsupported).emit (.completion fn tag 1 [])
    else match s.inWindow fn off len false with
      | none => (s.noWindow fn false).emit (.completion fn tag 1 [])
      | some w =>
        let s := s.wakeDeep
        let a := w.daddr + (off - w.obase)
        match s.load (some (w.inst, w.gen)) a len with
        | .ok bs => (s.met a len).complete fn tag (len / 64 + 2) off bs
        | .error e => (((s.inboundRefused w a len e).pceStat 6).aerUncor fn erAbort true).emit (.completion fn tag 4 [])

/-- INBOUND_WRITE (R384, R385): a write through BAR2. -/
def execInboundWrite (fn off : Nat) (data : List Byte) (ep : Bool) (s : State) : Res :=
  .next <|
    if !s.pcie.linkUp ∨ !s.fnExists fn then s
    else if s.fnDeaf fn then s.aerUncor fn erUnsupported true
    else if ep then (s.pceStat 5).aerUncor fn erPoisoned
    else match s.inWindow fn off data.length true with
      | none => s.noWindow fn true
      | some w =>
        let s := s.wakeDeep
        let a := w.daddr + (off - w.obase)
        match s.saveAt (some (w.inst, w.gen)) a data with
        | .ok s' => s'
        | .error .uncorr => (s.storeMet clsHost a data).pceStat 5
        | .error e => (s.inboundRefused w a data.length e).pceStat 5

/-! ## Windows (R383, R386 to R388) -/

/-- A VF that is not enabled, or a function that is not bound. -/
def State.fnUnusable (s : State) (fn : Nat) : Bool := (decide (fn ≠ 0) && !s.pcie.vfEnable) || (s.fn fn).bound.isNone

/-- A device range that an inbound window may reach: mapped, on the device, no cache way (R383). -/
def State.windowTarget (s : State) (a n : Nat) : Bool :=
  if a < hbmSize then decide (a + n ≤ hbmSize)
  else if spadBase ≤ a ∧ a < spadBase + 0x6000_0000 then decide (a + n ≤ spadBase + 0x6000_0000)
  else if sramBase ≤ a ∧ a < sramBase + 0x1000_0000 then
    decide (a + n ≤ sramBase + 0x1000_0000) && (List.range (n / 0x20_0000)).all fun j => !s.unmapped (a + j * 0x20_0000)
  else false

/-- A write translated with an inbound window is under way (R386): it waits for a granule to be saved (R192). -/
def State.inBusy (s : State) (a len : Nat) : Bool :=
  s.parcels.any fun e => e.2.ckp.held.any fun h => decide (h.write.addr < a + len ∧ a < h.write.addr + h.write.data.length)

/-- Answers a window command that has changed its entry, at once or when the accesses translated with the old entry have ended. -/
def windowDone (s : State) (busy : Bool) (x : WindowWait) : Act :=
  if busy then .wait { s with pcie := { s.pcie with winWait := s.pcie.winWait ++ [x] } } else okay s

/-- PCE_IWIN_SET after its parameter checks. -/
def pceIwinSetRun (s : State) (wt : Waiter) (_ : Nat) (ps : List Byte) : Act :=
  let e := fieldAt ps 0 2
  let fn := fieldAt ps 2 1
  let fl := fieldAt ps 3 1
  let w : InWindow :=
    { fn, rd := bitAt fl 1, wr := bitAt fl 2, inst := fieldAt ps 4 1, gen := s.genOf (fieldAt ps 4 1), obase := fieldAt ps 8 8
      len := fieldAt ps 16 8, daddr := fieldAt ps 24 8 }
  let s' : State := { s with pcie := { s.pcie with inWin := Tbl.del s.pcie.inWin e } }
  let done (s' : State) : Act := match s.pcie.inWin.find e with
    | some o => windowDone s' (s.inBusy o.daddr o.len) { outbound := false, entry := e, waiter := wt, fn := o.fn, addr := o.daddr, len := o.len }
    | none => okay s'
  if !bitAt fl 0 then done s'
  else if s.fnUnusable fn then fails s 0x9004
  else if w.obase % 0x20_0000 ≠ 0 ∨ w.len % 0x20_0000 ≠ 0 ∨ w.len = 0 ∨ 2 ^ 40 < w.len ∨ w.daddr % 0x20_0000 ≠ 0 ∨
      !s.windowTarget w.daddr w.len then fails s 0x9003
  else if s'.pcie.inWin.any fun x => x.2.fn = fn && decide (x.2.obase < w.obase + w.len ∧ w.obase < x.2.obase + x.2.len) then
    fails s 0x9002
  else done { s' with pcie := { s'.pcie with inWin := s'.pcie.inWin.put e w } }

/-- PCE_IWIN_SET. -/
def pceIwinSetSpec : Spec :=
  { opcode := 0x9002, permits := managerOnly, plen := fixed 32
    fields := fun _ ps => [below ps 0 2 4096, below ps 2 1 64, below ps 3 1 8, below ps 4 1 64, rsv ps 5 3], run := pceIwinSetRun }

/-- PCE_IWIN_SET (R383). -/
def execPceIwinSet (c : Cmd) (s : State) : Res := .next (s.command pceIwinSetSpec c)

/-- Reads translated with an outbound window are under way (R388). -/
def State.outBusy (s : State) (fn bus len : Nat) : Bool :=
  let x := s.fn fn
  (x.reads ++ x.waiting).any fun r => match r.dest with
    | .facet _ _ _ => decide (r.addr < bus + len ∧ bus < r.addr + r.len)
    | _ => false

/-- PCE_OWIN_SET after its parameter checks. -/
def pceOwinSetRun (s : State) (w : Waiter) (_ : Nat) (ps : List Byte) : Act :=
  let e := fieldAt ps 0 2
  let fn := fieldAt ps 2 1
  let fl := fieldAt ps 3 1
  let x : OutWindow :=
    { fn, rd := bitAt fl 1, wr := bitAt fl 2, dbase := fieldAt ps 8 8, len := fieldAt ps 16 8, bus := fieldAt ps 24 8 }
  let rest := Tbl.del s.pcie.outWin e
  let go (s : State) : Act :=
    let t : State := { s with pcie := { s.pcie with outWin := if bitAt fl 0 then rest.put e x else rest } }
    match s.pcie.outWin.find e with
    | some o => windowDone t (s.outBusy o.fn o.bus o.len) { outbound := true, entry := e, waiter := w, fn := o.fn, addr := o.bus, len := o.len }
    | none => okay t
  if !bitAt fl 0 then go s
  else if s.fnUnusable fn then fails s 0x9004
  else if x.dbase < hostBase ∨ 0x1_0000_0000_0000 < x.dbase + x.len ∨ x.dbase % 4096 ≠ 0 ∨ x.len % 4096 ≠ 0 ∨ x.len = 0 ∨ 2 ^ 40 < x.len ∨
      x.bus % 4096 ≠ 0 ∨ 2 ^ 64 < x.bus + x.len then fails s 0x9003
  else if rest.any fun y => decide (y.2.dbase < x.dbase + x.len ∧ x.dbase < y.2.dbase + y.2.len) then fails s 0x9002
  else go s

/-- PCE_OWIN_SET. -/
def pceOwinSetSpec : Spec :=
  { opcode := 0x9003, permits := managerOnly, plen := fixed 32
    fields := fun _ ps => [below ps 0 2 4096, below ps 2 1 64, below ps 3 1 8, rsv ps 4 4], run := pceOwinSetRun }

/-- PCE_OWIN_SET (R387, R388). -/
def execPceOwinSet (c : Cmd) (s : State) : Res := .next (s.command pceOwinSetSpec c)

/-- PCE_WINDOW_DRAINED (R386, R388): the accesses translated with the old entry have ended, and the command replies. -/
def execPceWindowDrained (outbound : Bool) (entry : Nat) (s : State) : Res :=
  .next <|
    match s.pcie.winWait.find? fun x => x.outbound = outbound && x.entry = entry with
    | none => s
    | some x =>
      if (if outbound then s.outBusy x.fn x.addr x.len else s.inBusy x.addr x.len) then s
      else ({ s with pcie := { s.pcie with winWait := s.pcie.winWait.erase x } }).finish x.waiter 0 0 []

/-- The 32 parameter bytes that would set a window again. -/
def State.windowBytes (s : State) (kind e : Nat) : List Byte :=
  if kind = 0 then match s.pcie.inWin.find e with
    | some w => leBytes 2 e ++ leBytes 1 w.fn ++ leBytes 1 (1 + 2 * bit w.rd + 4 * bit w.wr) ++ leBytes 1 w.inst ++ zeros 3 ++
        leBytes 8 w.obase ++ leBytes 8 w.len ++ leBytes 8 w.daddr
    | none => leBytes 2 e ++ zeros 30
  else match s.pcie.outWin.find e with
    | some w => leBytes 2 e ++ leBytes 1 w.fn ++ leBytes 1 (1 + 2 * bit w.rd + 4 * bit w.wr) ++ zeros 4 ++
        leBytes 8 w.dbase ++ leBytes 8 w.len ++ leBytes 8 w.bus
    | none => leBytes 2 e ++ zeros 30

/-- PCE_WIN_GET. -/
def pceWinGetSpec : Spec :=
  { opcode := 0x9004, permits := managerOnly, plen := fixed 8
    fields := fun _ ps => [below ps 0 1 2, rsv ps 1 1, below ps 2 2 4096, rsv ps 4 4]
    run := fun s _ _ ps => gives s (s.windowBytes (fieldAt ps 0 1) (fieldAt ps 2 2)) }

/-- PCE_WIN_GET (R383). -/
def execPceWinGet (c : Cmd) (s : State) : Res := .next (s.command pceWinGetSpec c)

/-! ## Bindings, apertures, wake, status (R380, R382, R389, R401) -/

/-- PCE_FN_BIND after its parameter checks. -/
def pceFnBindRun (s : State) (_ : Waiter) (_ : Nat) (ps : List Byte) : Act :=
  let fn := fieldAt ps 0 1
  let i := fieldAt ps 1 1
  let busy : Bool := match (s.fn fn).bound with | some j => (s.ctrl j).mode = .host || (s.ctrl j).resetting | none => false
  let taken : Bool := i ≠ 0xFF && match s.fnOf i with | some n => n ≠ fn | none => false
  if busy || taken then fails s 0x9001
  else okay (s.modFn fn fun x => { x with bound := if i = 0xFF then none else some i })

/-- PCE_FN_BIND. -/
def pceFnBindSpec : Spec :=
  { opcode := 0x9001, permits := managerOnly, plen := fixed 8
    fields := fun _ ps =>
      [within ps 0 1 1 63, (1, decide (1 ≤ fieldAt ps 1 1 ∧ fieldAt ps 1 1 ≤ 63) || fieldAt ps 1 1 = 0xFF), rsv ps 2 6]
    run := pceFnBindRun }

/-- PCE_FN_BIND (R380). -/
def execPceFnBind (c : Cmd) (s : State) : Res := .next (s.command pceFnBindSpec c)

/-- PCE_APER_SET: the sizes apply from the next reset of R397. -/
def pceAperSetSpec : Spec :=
  { opcode := 0x9007, permits := managerOnly, plen := fixed 8
    fields := fun _ ps => [within ps 0 1 20 40, within ps 1 1 20 36, rsv ps 2 6]
    run := fun s _ _ ps => okay { s with pcie := { s.pcie with nextPf := fieldAt ps 0 1, nextVf := fieldAt ps 1 1 } } }

/-- PCE_APER_SET (R382). -/
def execPceAperSet (c : Cmd) (s : State) : Res := .next (s.command pceAperSetSpec c)

/-- FN, then reserved bytes. -/
def fnFields : State → List Byte → List (Nat × Bool) := fun _ ps => [below ps 0 1 64, rsv ps 1 7]

/-- PCE_WAKE. -/
def pceWakeSpec : Spec :=
  { opcode := 0x9008, permits := managerOnly, plen := fixed 8, fields := fnFields
    run := fun s _ _ ps =>
      let fn := fieldAt ps 0 1
      if s.fnUnusable fn then fails s 0x9004
      else if (!(s.fn fn).d3 && s.pcie.link ≠ .l23 && !s.pins.perst) || !(s.fn fn).pmeEn then fails s 0x9005
      else okay (s.pmeEvent fn) }

/-- PCE_WAKE (R401): a PME event. -/
def execPceWake (c : Cmd) (s : State) : Res := .next (s.command pceWakeSpec c)

/-- PCE_FNn. -/
def State.fnWord (s : State) (fn : Nat) : BitVec 64 :=
  let x := s.fn fn
  let d := x.dlog
  pack [(63, 1, bit x.bound.isSome), (57, 6, x.bound.getD 0), (56, 1, bit x.d3), (55, 1, bit (x.cmd.getLsbD 2)), (54, 1, bit x.flr),
    (53, 1, bit (match d with | some l => l.on | none => false)), (52, 1, match d with | some l => l.active | none => 0),
    (51, 1, bit (match d with | some l => l.outside | none => false)), (50, 1, bit (match d with | some l => l.err | none => false)),
    (0, 13, x.reads.length)]

/-- PCE_FN_STATUS. -/
def pceFnStatusSpec : Spec :=
  { opcode := 0x9009, permits := managerOnly, plen := fixed 8, fields := fnFields
    run := fun s _ _ ps => gives s (leBytes 8 (s.fnWord (fieldAt ps 0 1)).toNat) }

/-- PCE_FN_STATUS (R389). -/
def execPceFnStatus (c : Cmd) (s : State) : Res := .next (s.command pceFnStatusSpec c)

/-! ## Written-page logging (R402, R403) -/

/-- Zeroes an instance range that translates to HBM. -/
def State.zeroInst (s : State) (i a n : Nat) : State :=
  match s.rangesOf i a n true with
  | .ok rs => rs.foldl (fun s r => s.zeroRange r.1 r.2) s
  | .error _ => s

/-- PCE_DIRTY_SET after its parameter checks. -/
def pceDirtySetRun (s : State) (_ : Waiter) (_ : Nat) (ps : List Byte) : Act :=
  let fn := fieldAt ps 0 1
  let base := fieldAt ps 8 8
  let len := fieldAt ps 16 8
  let b0 := fieldAt ps 24 8
  let b1 := fieldAt ps 32 8
  let n := len / 0x8000
  if s.fnUnusable fn then fails s 0x9004
  else if fieldAt ps 1 1 = 0 then okay (s.modFn fn fun x => { x with dlog := none })
  else if !s.inHbm 0 b0 n || !s.inHbm 0 b1 n then fails s 0x9006
  else
    let log : DirtyLog := { base, len, bmap0 := b0, bmap1 := b1, active := 0, outside := false, err := false, on := true, count := 0 }
    okay (((s.zeroInst 0 b0 n).zeroInst 0 b1 n).modFn fn fun x => { x with dlog := some log })

/-- PCE_DIRTY_SET. -/
def pceDirtySetSpec : Spec :=
  { opcode := 0x9005, permits := managerOnly, plen := fixed 40
    fields := fun _ ps =>
      let en : Bool := fieldAt ps 1 1 = 1
      [below ps 0 1 64, below ps 1 1 2, rsv ps 2 6, (8, !en || decide (fieldAt ps 8 8 % 4096 = 0)),
       (16, !en || (decide (fieldAt ps 16 8 % 0x8000 = 0) && decide (0 < fieldAt ps 16 8 ∧ fieldAt ps 16 8 ≤ 2 ^ 40))),
       (24, !en || decide (fieldAt ps 24 8 < 2 ^ 48)), (32, !en || decide (fieldAt ps 32 8 < 2 ^ 48))]
    run := pceDirtySetRun }

/-- PCE_DIRTY_SET (R402). -/
def execPceDirtySet (c : Cmd) (s : State) : Res := .next (s.command pceDirtySetSpec c)

/-- PCE_DIRTY_SWAP after its parameter checks. -/
def pceDirtySwapRun (s : State) (_ : Waiter) (_ : Nat) (ps : List Byte) : Act :=
  let fn := fieldAt ps 0 1
  if s.fnUnusable fn then fails s 0x9004
  else match (s.fn fn).dlog with
    | none => fails s 0x9007
    | some d =>
      gives (s.modFn fn fun x => { x with dlog := some { d with active := 1 - d.active, outside := false, count := 0 } })
        (leBytes 1 (1 - d.active) ++ leBytes 1 (bit d.outside + 2 * bit d.err) ++ zeros 6 ++ leBytes 8 d.count)

/-- PCE_DIRTY_SWAP. -/
def pceDirtySwapSpec : Spec :=
  { opcode := 0x9006, permits := managerOnly, plen := fixed 8, fields := fnFields, run := pceDirtySwapRun }

/-- PCE_DIRTY_SWAP (R403). -/
def execPceDirtySwap (c : Cmd) (s : State) : Res := .next (s.command pceDirtySwapSpec c)

/-! ## Root ports (R404, R405) -/

/-- ROOT_PORT_LINK_RETRY (R404): a port whose link is down tries again 1 s later. -/
def execRootPortLinkRetry (port : Nat) (s : State) : Res :=
  .next <|
    let r := s.rootPort port
    if r.state ≠ .down ∨ s.boot.phase ≠ .running ∨ s.pins.prsnt.getD port false then s
    else
      let s := (s.reach (r.downAt + 1_000_000_000)).modRoot port fun r => { r with state := .training, downAt := r.downAt + 1_000_000_000 }
      if (s.drive port).state = .absent then s.modDrive port fun d => { d with state := .training } else s

/-- The grant that covers a drive's request: the command, and its offset in the command's data (R405). -/
def RootPort.grant (r : RootPort) (q : DriveReq) : Option (Nat × Nat) :=
  let n := if q.write then q.data.length else q.len
  (r.grants.find? fun (_, a, len, wr) => decide (a ≤ q.addr ∧ q.addr + n ≤ a + len) && (wr = q.write)).map fun (id, a, _, _) => (id, q.addr - a)

/-- DRIVE_REQUEST_RECEIVE (R405): a drive reads the data of a Write, or writes the data of a Read, within the grants of its port. -/
def execDriveRequestReceive (port : Nat) (r : DriveReq) (s : State) : Res :=
  .next <|
    if (s.rootPort port).state ≠ .up then s
    else match (s.rootPort port).grant r with
      | none =>
        let s := s.raise blkPCE 0x90FF none port 0x400
        if r.write then s else s.emit (.driveReply port false [])
      | some (id, off) =>
        match s.storage.cmds.find id with
        | none => s
        | some c =>
          if r.write then s.putCmd id { c with data := overlay (padTo (off + r.data.length) c.data) off r.data }
          else match s.nss c.ns with
            | some x => s.emit (.driveReply port true (slice (c.sealed x) off r.len))
            | none => s

/-- PCE_RPORTn. -/
def RootPort.word (r : RootPort) : BitVec 64 :=
  let st := match r.state with | .down => 0 | .training => 1 | .up => 2 | .failed => 3
  pack [(60, 4, st), (57, 3, r.rate), (54, 3, r.width), (0, 32, r.errors)]

end Sys2Proof.Machine
end

