-- ==== Sys2Proof/Machine/Checkpoint.lean ====
section
/-! DEFINITION. Checkpoint and restore (spec/07): the commands, the triggers, the end of a capture, held writes, the copier, the seal
and the restore. -/

namespace Sys2Proof.Machine

/-! ## Shards and the destination (R185, R195, R196) -/

/-- The least multiple of 4 KiB from a number up. -/
def up4k (n : Nat) : Nat := (n + 4095) / 4096 * 4096

/-- The offset in the slot of the shard that follows some others (R195). -/
def shardOffset (before : List Shard) : Nat := 0x10_0000 + (before.map fun x => up4k x.len).sum

/-- The magic of a manifest. -/
def ckpMagic : List Byte := [0x46, 0x58, 0x44, 0x43, 0x4B, 0x50, 0x54, 0x00]

/-- The digest of a shard (R195). -/
def shardDigest (step index : Nat) (bytes : List Byte) : List Byte := sha256 (leBytes 8 step ++ leBytes 4 index ++ bytes)

/-- A manifest (R195): header, then one entry for each shard; MAN_DIGEST is computed with its own field zero. -/
def manifestBytes (m : CkpMeta) (slot ckseq : Nat) (xs : List Shard) (digests : List (List Byte)) : List Byte :=
  let entries := (List.range xs.length).flatMap fun j =>
    match xs[j]? with
    | some x => leBytes 1 x.kind ++ leBytes 1 x.fx ++ leBytes 1 x.fy ++ zeros 5 ++ leBytes 8 x.src ++ leBytes 8 x.len ++
        leBytes 8 (shardOffset (xs.take j)) ++ padTo 32 ((digests[j]?).getD [])
    | none => []
  let front := ckpMagic ++ leBytes 2 1 ++ leBytes 2 xs.length ++ leBytes 1 slot ++ zeros 3 ++ leBytes 8 ckseq ++ leBytes 8 m.step ++
    leBytes 8 m.beat ++ leBytes 2 m.jobSize ++ leBytes 2 m.rank ++ leBytes 1 m.width ++ leBytes 1 m.height ++ zeros 2 ++
    leBytes 4 m.job ++ zeros 12 ++ padTo 32 m.identity ++ padTo 32 m.jobHash
  let back := zeros 96 ++ entries
  front ++ sha256 (front ++ zeros 32 ++ back) ++ back

/-- Writes bytes at an offset of the destination for a copy: a namespace of the instance, encrypted when it is, or a peer's memory
through the queue pair; no rule gives the RKEY of the latter. What a drive or a peer has yet to acknowledge is noted. The answer is
none when the destination fails. -/
def State.destWrite (s : State) (p : Nat) (k : CkpConf) (i off : Nat) (bs : List Byte) : Option State :=
  let s := (s.charge i 7 bs.length).modCkp p fun c => { c with bytes := c.bytes + bs.length }
  let post (s : State) (qp ra rkey : Nat) (bs : List Byte) : Option State :=
    (s.postEngine qp i 1 ra rkey bs.length bs).map fun (s, n) => s.modCkp p fun c => { c with posts := c.posts ++ [n] }
  if k.kind = 2 then
    let (v, s) := s.takeFree
    post s k.qp (k.base + off) (v % 2 ^ 32) bs
  else match s.nsAt k.nsid with
    | none => none
    | some x =>
      let a := (k.base + off) / x.lba
      let n := bs.length / x.lba
      let key := if x.cipher then s.nsKey x else none
      if x.owner ≠ i ∨ x.size < a + n ∨ (x.cipher ∧ key.isNone) then none
      else
        let data := match key with | some y => xtsUnits false y x.lba n a bs | none => bs
        if x.kind = 1 then
          if s.driveReady x.port then
            let (id, s) := s.newId
            some ((s.emit (.driveCommand x.port x.drvNs .write false (x.base + a) n data id)).modCkp p fun c => { c with outs := c.outs ++ [id] })
          else none
        else if x.kind = 2 then match s.saveAt none (x.base + a * x.lba) data with
          | .ok s' => some s'
          | .error _ => none
        else post s x.qp (x.base + a * x.lba) x.rkey data

/-- Reads bytes at an offset of the destination. Whether a drive or a peer serves it well is theirs to say (log entry 65). -/
def State.destRead (s : State) (k : CkpConf) (i off n : Nat) : State × Option (List Byte) :=
  if k.kind = 2 then
    let (v, s) := s.takeFree
    match s.postEngine k.qp i 2 (k.base + off) (v % 2 ^ 32) n [] with
    | some (s, _) =>
      let bs := (List.range n).map fun j => Config.peerByte s.now s.emitted.length (k.base + off + j)
      let (good, s) := s.outerOk
      (s, if good then some bs else none)
    | none => (s, none)
  else match s.nsAt k.nsid with
    | none => (s, none)
    | some x =>
      let a := (k.base + off) / x.lba
      let m := (n + x.lba - 1) / x.lba
      if x.owner ≠ i ∨ x.size < a + m then (s, none)
      else
        let key := if x.cipher then s.nsKey x else none
        if x.cipher ∧ key.isNone then (s, none)
        else match s.nsRead x a m with
          | (s', none) => (s', none)
          | (s', some bs) => (s', some ((match key with | some y => xtsUnits true y x.lba m a bs | none => bs).take n))

/-- The destination is flushed: a drive takes a Flush; an HBM namespace has nothing to flush, and a peer's flush is the
acknowledgement of every write before it (R196). -/
def State.destFlush (s : State) (p : Nat) (k : CkpConf) : State :=
  if k.kind ≠ 1 then s
  else match s.nsAt k.nsid with
    | some x =>
      if x.kind = 1 then
        let (id, s) := s.newId
        (s.emit (.driveCommand x.port x.drvNs .flush false 0 0 [] id)).modCkp p fun c => { c with outs := c.outs ++ [id] }
      else s
    | none => s

/-- How a copy's requests at its destination stand: whether all are complete, or that one has failed (R196, R198). The ends of requests
on a queue pair are taken in. -/
def State.destDone (s : State) (p : Nat) : Except State (State × Bool) :=
  let c := (s.parcel p).ckp
  let ended := c.posts.filter fun n => s.rma.engDone.has n
  let bad : Bool := ended.any fun n => (s.rma.engDone.find n).any fun e => !e.ok
  let s : State := { s with rma := { s.rma with engDone := s.rma.engDone.filter fun e => !ended.contains e.1 } }
  let s := s.modCkp p fun c => { c with posts := c.posts.filter fun n => !ended.contains n }
  if bad then .error s
  else
    let c := (s.parcel p).ckp
    .ok (s, c.outs.isEmpty && c.posts.isEmpty)

/-! ## Triggers (R188) -/

/-- The parameters INST and PARCEL, and the rest zero. -/
def ckpFields : State → List Byte → List (Nat × Bool) := fun _ ps => [below ps 0 1 64, rsv ps 2 6]

/-- CKP_NOW after its parameter checks. -/
def ckpNowRun (s : State) (w : Waiter) (_ : Nat) (ps : List Byte) : Act :=
  match s.theParcel ps with
  | none => fails s 0x4003
  | some p =>
    let x := s.parcel p
    match x.cut with
    | none => fails s 0x4003
    | some c =>
      if s.parcelState p ≠ .running then fails s 0x4003
      else if x.ckp.conf.isNone then fails s 0x4004
      else match x.ckp.nowStep, x.ckp.nowWait with
        | some st, _ => .done s 0x400A 0 (leBytes 8 st)
        | none, some _ => .done s 0x400A 0 (leBytes 8 x.run.step)
        | none, none =>
          if c.rank = 0 then
            let (s, st) := s.announceCkpt p c x.run.step
            gives (s.modCkp p fun k => { k with nowStep := some st }) (leBytes 8 st)
          else .wait ((s.ctrlTo p c 0 0x0A 0 0 0 []).modCkp p fun k => { k with nowWait := some w })

/-- CKP_NOW. -/
def ckpNowSpec : Spec := { opcode := 0x4002, permits := ownAt 0, plen := fixed 8, fields := ckpFields, run := ckpNowRun }

/-- CKP_NOW (R188): a checkpoint at the next step. -/
def execCkpNow (c : Cmd) (s : State) : Res := .next (s.command ckpNowSpec c)

/-- CKP_TIMER_EXPIRE (R188): rank 0's timer runs out, and the target is the next step. -/
def execCkpTimerExpire (p : Nat) (s : State) : Res :=
  .next <|
    let x := s.parcel p
    match x.ckp.timerAt, x.cut with
    | some t, some c =>
      let s := (s.reach t).modCkp p fun k => { k with timerAt := none }
      if c.rank = 0 && x.jobOn && x.run.reason = 0 then (s.announceCkpt p c x.run.step).1 else s
    | _, _ => s

/-! ## The end of a capture (R190) -/

/-- CAPTURE_COMPLETE (R190, R191): the device sends ARMED, or stops holding; the copy begins unless the capture failed. -/
def execCaptureComplete (p : Nat) (s : State) : Res :=
  .next <|
    let x := s.parcel p
    if x.ckp.phase ≠ .capturing then s
    else
      let s := s.modCkp p fun k =>
        { k with
          armedSelf := true
          phase := if k.active then .copying else if k.announced.isEmpty then .idle else .announced }
      match x.cut with
      | some c => if !c.timed && x.run.closingAt.isSome then s.armedUp p c else s
      | none => s

/-! ## Held writes (R192) -/

/-- The held writes of a granule go on in arrival order. -/
def State.releaseGranule (s : State) (p g : Nat) : State :=
  let hs := (s.parcel p).ckp.held.filter fun h => h.granule = g
  (s.modCkp p fun c => { c with held := c.held.filter fun h => h.granule ≠ g }).freeHeld hs

/-- A copy that met uncorrectable data while a granule was saved fails (R198). -/
def State.failHurt (s : State) (p : Nat) : State := if (s.parcel p).ckp.hurt then s.ckpFail p 1 else s

/-- GRANULE_SAVE_DONE (R192): a pending granule is in the save area, and its held writes proceed; without a free place they wait. -/
def execGranuleSaveDone (p g : Nat) (s : State) : Res :=
  .next <|
    let c := (s.parcel p).ckp
    if !c.active ∨ c.hurt ∨ g < c.copied ∨ c.saved.has g ∨ (c.segs.map (·.2)).sum / ckpGranule ≤ g then s.failHurt p
    else match s.drainHbm.saveGranule p g with
      | some s' => (s'.releaseGranule p g).failHurt p
      | none => s

/-! ## The copier (R193, R196, R198) -/

/-- The 64 KiB piece that the copier reads next, as device ranges: of a facet shard from the save area, of a region from the save area
or the live region. `done` bytes of the shard have been sent. -/
def Ckp.nextPiece (c : Ckp) (x : Shard) (done : Nat) : List (Nat × Nat) :=
  let n := min ckpGranule (x.len - done)
  if x.kind = 1 then segSlice c.saveSegs (c.pos * facetShard + done) n
  else
    let at_ := match c.saved.find c.copied with
      | some pl => segAt c.saveSegs (pl * ckpGranule)
      | none => segAt c.segs (c.copied * ckpGranule)
    match at_ with | some a => [(a, n)] | none => []

/-- The copier goes on to a stage (R196): 0 the zeros over the slot's head, 1 their flush, 2 its end, 3 the shards, 4 their flush, 5 its
end and the manifest, 6 the manifest's flush, 7 its end, at which the manifest is sealed. -/
def State.toStage (s : State) (p n : Nat) : State :=
  s.modCkp p fun c => { c with stage := n, phase := if n = 6 then .sealing else c.phase }

/-- The first step of a copy (R196): zeros over the first 4 KiB of the slot. -/
def State.openSlot (s : State) (p : Nat) (k : CkpConf) (i slot : Nat) : State :=
  match s.destWrite p k i (slot * k.slotBytes) (zeros 4096) with
  | some s => (s.toStage p 1).modCkp p fun c => if slot = 0 then { c with slot0 := none } else { c with slot1 := none }
  | none => s.ckpFail p 2

/-- The manifest follows the shards (R195, R196). -/
def State.writeManifest (s : State) (p : Nat) (k : CkpConf) (m : CkpMeta) : State :=
  let c := (s.parcel p).ckp
  let bs := padMul 4096 (manifestBytes m c.slot c.ckseq (shardsOf m.width m.height k.regions) c.digests)
  match s.destWrite p k m.inst (c.slot * k.slotBytes) bs with
  | some s => s.toStage p 6
  | none => s.ckpFail p 2

/-- The copier's turn at a namespace (R359): for a write, the arbiter chooses its queue, or another waits before it. -/
def State.copierTurn (s : State) (k : CkpConf) (c : Ckp) : Option State :=
  if k.kind ≠ 1 ∨ c.nextWrite.isNone then some s
  else match s.nsAt k.nsid with
    | none => some s
    | some x => match s.arbiter none with
      | some (i, y, s') => if i = x.owner ∧ y = copierQ then some s' else none
      | none => none

/-- The copier sends a piece of the present shard; after the last shard comes the flush. -/
def State.copyPiece (s : State) (p : Nat) (k : CkpConf) (m : CkpMeta) : State :=
  let c := (s.parcel p).ckp
  let xs := shardsOf m.width m.height k.regions
  match xs[c.pos]? with
  | none => s.toStage p 4
  | some x =>
    let done := c.part.length
    let rs := c.nextPiece x done
    if rs.any fun r => s.rangeBad r.1 r.2 then (rs.foldl (fun s r => s.metBad clsHost r.1 r.2) s).ckpFail p 1
    else
      let bs := rs.flatMap fun r => s.readBytes r.1 r.2
      let s := (rs.foldl (fun s r => s.met r.1 r.2) s).charge m.inst 1 (hbmBytes rs)
      match s.destWrite p k m.inst (c.slot * k.slotBytes + shardOffset (xs.take c.pos) + done) bs with
      | none => s.ckpFail p 2
      | some s =>
        let part := c.part ++ bs
        let ends : Bool := decide (x.len ≤ part.length)
        let s := s.modCkp p fun c =>
          { c with
            part := if ends then [] else part
            digests := if ends then c.digests ++ [shardDigest m.step c.pos part] else c.digests
            pos := if ends then c.pos + 1 else c.pos
            copied := if x.kind = 2 then c.copied + 1 else c.copied
            saved := if x.kind = 2 then Tbl.del c.saved c.copied else c.saved }
        let s := if x.kind = 2 then s.releaseGranule p c.copied else s
        if ends ∧ xs.length ≤ c.pos + 1 then s.toStage p 4 else s

/-- The copier's next action, once every request before a flush is complete, and every flush before what follows it (R196). -/
def State.copierAct (s : State) (p : Nat) (k : CkpConf) (m : CkpMeta) : State :=
  let c := (s.parcel p).ckp
  match c.stage with
  | 0 => s.openSlot p k m.inst c.slot
  | 3 => s.copyPiece p k m
  | n => match s.destDone p with
    | .error s => s.ckpFail p 2
    | .ok (s, false) => s
    | .ok (s, true) => match n with
      | 1 => (s.destFlush p k).toStage p 2
      | 2 => s.toStage p 3
      | 4 => (s.destFlush p k).toStage p 5
      | 5 => s.writeManifest p k m
      | 6 => (s.destFlush p k).toStage p 7
      | _ => s

/-- COPIER_GRANULE (R193, R196, R198): the next 64 KiB of a shard, or the next write or flush of a copy, goes to the destination, after
the generation check. -/
def execCopierGranule (p : Nat) (s : State) : Res :=
  .next <|
    let c := (s.parcel p).ckp
    match c.conf, c.info with
    | some k, some m =>
      if c.phase ≠ .copying ∧ c.phase ≠ .sealing then s
      else if c.hurt then s.ckpFail p 1
      else if s.genOf m.inst ≠ m.gen then s.ckpFail p 5
      else if s.power.pfw then s.ckpFail p 4
      else match s.copierTurn k c with
        | none => s
        | some s =>
          let s := s.copierAct p k m
          if k.kind ≠ 1 then s else match s.nss (k.nsid - 1) with | some x => s.arbEmpty x.owner copierQ | none => s
    | _, _ => s

/-- CKPT_SEAL (R196, R197): the final flush has completed and the manifest is sealed; the marks and the save area are free, and rank 0
hears of it. -/
def execCkptSeal (p : Nat) (s : State) : Res :=
  .next <|
    let c := (s.parcel p).ckp
    match c.conf, c.info with
    | some _, some m =>
      if c.phase ≠ .sealing ∨ c.stage ≠ 7 then s
      else if s.genOf m.inst ≠ m.gen then s.ckpFail p 5
      else match s.destDone p with
        | .error s => s.ckpFail p 2
        | .ok (s, false) => s
        | .ok (s, true) =>
          let s := s.raise blkCKP 0x4101 (some m.inst) m.step c.ckseq
          let s := s.modCkp p fun c =>
            { c.over with
              held := []
              slot0 := if c.slot = 0 then some m.step else c.slot0
              slot1 := if c.slot = 1 then some m.step else c.slot1 }
          let s := s.freeHeld c.held
          if m.rank ≠ 0 then s.ctrlTo p m.asCut 0 0x0E m.step 0 0 []
          else match (s.parcel p).cut with
            | some y => if y.job = m.job then s.sealReport p m.asCut 0 m.step true else s
            | none => s
    | _, _ => s

/-! ## CKP_CONFIG (R186, R187) -/

/-- Two ranges meet. -/
def rangesMeet (a b : Nat × Nat) : Bool := decide (a.1 < b.1 + b.2 ∧ b.1 < a.1 + a.2)

/-- A configuration keeps R187. -/
def State.confOk (s : State) (x : Parcel) (k : CkpConf) : Bool :=
  let xs := shardsOf (4 * x.gw) (4 * x.gh) k.regions
  let facets := x.facets.length * facetShard
  (k.regions.all fun r => decide (r.1 % ckpGranule = 0 ∧ r.2 % ckpGranule = 0 ∧ 0 < r.2 ∧ r.2 ≤ 2 ^ 40 ∧ r.1 + r.2 ≤ 2 ^ 48) &&
    (s.hbmRanges x.inst r.1 r.2).isSome) &&
  disjoint ((k.save, k.saveLen) :: k.regions) &&
  decide (k.save % 0x20_0000 = 0 ∧ 0x20_0000 ≤ k.saveLen ∧ k.saveLen ≤ 0x10_0000_0000 ∧ facets + 0x20_0000 ≤ k.saveLen) &&
  (s.hbmRanges x.inst k.save k.saveLen).isSome && decide (shardOffset xs ≤ k.slotBytes) && decide (xs.length ≤ 8192)

/-- CKP_CONFIG after its parameter checks: K is none and CKSEQ starts anew (R196, R197). What belongs to the job, not to the
configuration, stays: the announced steps, the captures heard, the restored step, and, at the same destination, what its slots hold. -/
def ckpConfigRun (s : State) (_ : Waiter) (_ : Nat) (ps : List Byte) : Act :=
  match s.theParcel ps with
  | none => fails s 0x4003
  | some p =>
    let x := s.parcel p
    let st := s.parcelState p
    let nreg := fieldAt ps 3 1
    if st ≠ .empty ∧ st ≠ .loaded ∧ st ≠ .paused then fails s 0x4003
    else if x.ckp.busy then fails s 0x4002
    else match s.cmdRead blkCKP x.inst (fieldAt ps 56 8) (16 * nreg) p with
      | (s, none) => fails s 0x4001
      | (s, some b) =>
        let k : CkpConf :=
          { kind := fieldAt ps 2 1, periodMs := fieldAt ps 4 4, every := fieldAt ps 8 4, nsid := fieldAt ps 12 4, peer := fieldAt ps 16 2
            qp := fieldAt ps 20 4, base := fieldAt ps 24 8, slotBytes := fieldAt ps 32 8, save := fieldAt ps 40 8
            saveLen := fieldAt ps 48 8, regions := (List.range nreg).map fun j => (fieldAt b (16 * j) 8, fieldAt b (16 * j + 8) 8) }
        if !s.confOk x k then fails s 0x4001
        else
          let s := s.modCkp p fun c =>
            let same : Bool := match c.conf with
              | some o => o.kind = k.kind && o.nsid = k.nsid && o.peer = k.peer && o.qp = k.qp && o.base = k.base && o.slotBytes = k.slotBytes
              | none => false
            { Ckp.initial with
              conf := some k, restored := c.restored, nowWait := c.nowWait, nowStep := c.nowStep, announced := c.announced, phase := c.phase
              armed := c.armed, armedSelf := c.armedSelf, slot0 := if same then c.slot0 else none, slot1 := if same then c.slot1 else none
              timerAt := match x.run.started with
                | some t => if x.jobOn && decide (0 < k.periodMs) && (match x.cut with | some y => decide (y.rank = 0) | none => false) then
                    some (max s.now (t + k.periodMs * 1000000)) else none
                | none => none }
          okay (match x.cut with | some c => if x.jobOn then s.everyTarget p c else s | none => s)

/-- CKP_CONFIG. -/
def ckpConfigSpec : Spec :=
  { opcode := 0x4001, permits := ownAt 0, plen := fixed 64
    fields := fun _ ps =>
      let ns : Bool := fieldAt ps 2 1 = 1
      [below ps 0 1 64, within ps 2 1 1 2, below ps 3 1 65,
       (4, fieldAt ps 4 4 = 0 || decide (1000 ≤ fieldAt ps 4 4 ∧ fieldAt ps 4 4 ≤ 86400000)),
       (12, if ns then decide (1 ≤ fieldAt ps 12 4 ∧ fieldAt ps 12 4 ≤ 1024) else fieldAt ps 12 4 = 0),
       (16, !ns || fieldAt ps 16 2 = 0), rsv ps 18 2, (20, !ns || fieldAt ps 20 4 = 0), aligned ps 24 8 4096, aligned ps 32 8 4096,
       (40, decide (fieldAt ps 40 8 < 2 ^ 48)), (56, decide (fieldAt ps 56 8 < 2 ^ 48))]
    run := ckpConfigRun }

/-- CKP_CONFIG (R186, R187). -/
def execCkpConfig (c : Cmd) (s : State) : Res := .next (s.command ckpConfigSpec c)

/-! ## CKP_STATUS -/

/-- The code of a phase (CKP_PSTAT.PHASE). -/
def CkpPhase.code : CkpPhase → Nat
  | .idle => 0 | .announced => 1 | .capturing => 2 | .copying => 3 | .sealing => 4 | .restoring => 5

/-- All ones for none. -/
def stepWord : Option Nat → Nat
  | some n => n
  | none => 2 ^ 64 - 1

/-- CKP_STATUS. -/
def ckpStatusSpec : Spec :=
  { opcode := 0x4003, permits := ownAt 0, plen := fixed 8, fields := ckpFields
    run := fun s _ _ ps =>
      match s.theParcel ps with
      | none => fails s 0x4003
      | some p =>
        let c := (s.parcel p).ckp
        gives s (leBytes 1 c.phase.code ++ leBytes 1 c.fail ++ zeros 6 ++ leBytes 8 c.ckseq ++ leBytes 8 (stepWord c.announced.min?) ++
          leBytes 8 (stepWord c.keep) ++ leBytes 8 (stepWord c.slot0) ++ leBytes 8 (stepWord c.slot1) ++ leBytes 8 c.bytes) }

/-- CKP_STATUS (R196). -/
def execCkpStatus (c : Cmd) (s : State) : Res := .next (s.command ckpStatusSpec c)

/-! ## Restore (R199, R200) -/

/-- Why a restore stops: the status and its detail. -/
abbrev RestoreFail := Nat × Nat

/-- The manifest of a slot if it is sealed (R196); none otherwise. A destination that cannot be read fails. -/
def State.manifestOf (s : State) (k : CkpConf) (i slot : Nat) : State × Option (Option (List Byte)) :=
  match s.destRead k i (slot * k.slotBytes) 4096 with
  | (s, none) => (s, none)
  | (s, some h) =>
    let n := fieldAt h 10 2
    if h.take 8 ≠ ckpMagic ∨ fieldAt h 8 2 ≠ 1 ∨ n = 0 ∨ 8192 < n then (s, some none)
    else match s.destRead k i (slot * k.slotBytes) (up4k (256 + 64 * n)) with
      | (s, none) => (s, none)
      | (s, some b) =>
        let b := b.take (256 + 64 * n)
        (s, some (if sha256 (b.take 128 ++ zeros 32 ++ b.drop 160) = slice b 128 32 then some b else none))

/-- Restores the shards of a manifest from index `j` on: each is read, checked and written. -/
def State.restoreShards (s : State) (p : Nat) (k : CkpConf) (i : Nat) (man : List Byte) (slot : Nat) : Nat → Nat → State × Option RestoreFail
  | 0, _ => (s, none)
  | fuel + 1, j =>
    let e := slice man (256 + 64 * j) 64
    let n := fieldAt e 16 8
    match s.destRead k i (slot * k.slotBytes + fieldAt e 24 8) n with
    | (s, none) => (s, some (0x4009, 0))
    | (s, some b) =>
      if shardDigest (fieldAt man 24 8) j b ≠ slice e 32 32 then (s, some (0x4008, j))
      else if fieldAt e 0 1 = 1 then
        let f := (s.parcel p).facetOf (fieldAt e 1 1) (fieldAt e 2 1)
        let s := (s.storeRaw (spadAddr f 0) (b.take 0x10_0000)).1
        let s := s.modFacet f fun x => facetFrom x (b.drop 0x10_0000) (fieldAt man 32 8)
        State.restoreShards s p k i man slot fuel (j + 1)
      else if (s.hbmRanges i (fieldAt e 8 8) n).isNone then (s.addressEvent blkCKP i (fieldAt e 8 8) p, some (0x400B, 0))
      else match s.writeBy clsHost i (fieldAt e 8 8) b with
        | (s, .ok _) => State.restoreShards s p k i man slot fuel (j + 1)
        | (s, .error (.trans _)) => (s.addressEvent blkCKP i (fieldAt e 8 8) p, some (0x400B, 0))
        | (s, .error _) => (s, some (0x400B, 0))

/-- The sealed manifest that a restore takes, with its slot (R199). -/
def pickManifest (step : Nat) (a b : Option (List Byte)) : Option (Nat × List Byte) :=
  let ok (m : Option (List Byte)) : Option (List Byte) := match m with
    | some x => if step = 2 ^ 64 - 1 ∨ fieldAt x 24 8 = step then some x else none
    | none => none
  match ok a, ok b with
  | some x, some y => if fieldAt x 16 8 < fieldAt y 16 8 then some (1, y) else some (0, x)
  | some x, none => some (0, x)
  | none, some y => some (1, y)
  | none, none => none

/-- CKP_RESTORE after its parameter checks. It runs in one step. -/
def ckpRestoreRun (s : State) (_ : Waiter) (_ : Nat) (ps : List Byte) : Act :=
  match s.theParcel ps with
  | none => fails s 0x4003
  | some p =>
    let x := s.parcel p
    match x.ckp.conf, x.cut with
    | none, _ => fails s 0x4004
    | _, none => fails s 0x4003
    | some k, some c =>
      if s.parcelState p ≠ .loaded ∨ x.run.started.isSome ∨ x.run.reason ≠ 0 then fails s 0x4003
      else if x.ckp.busy then fails s 0x4002
      else match s.manifestOf k x.inst 0 with
        | (s, none) => fails s 0x4009
        | (s, some a) => match s.manifestOf k x.inst 1 with
          | (s, none) => fails s 0x4009
          | (s, some b) =>
            let stepOf (m : Option (List Byte)) : Option Nat := m.map fun y => fieldAt y 24 8
            match pickManifest (fieldAt ps 8 8) a b with
            | none => fails s 0x4005
            | some (slot, man) =>
              if fieldAt man 40 2 ≠ c.jobSize ∨ fieldAt man 42 2 ≠ c.rank ∨ fieldAt man 44 1 ≠ 4 * x.gw ∨ fieldAt man 45 1 ≠ 4 * x.gh then
                fails s 0x4006
              else if slice man 64 32 ≠ c.identity then fails s 0x4007
              else match s.restoreShards p k x.inst man slot (fieldAt man 10 2) 0 with
                | (s, some (st, d)) => fails (((x.facets.foldl State.emptyFacet s).dropCut p).refreshRails) st d
                | (s, none) =>
                  let s := s.modCkp p fun q =>
                    { q with restored := some (fieldAt man 24 8), slot0 := stepOf a, slot1 := stepOf b }
                  okay (s.modRun p fun r => { r with beat := fieldAt man 32 8, step := fieldAt man 24 8 + 1 })

/-- CKP_RESTORE. -/
def ckpRestoreSpec : Spec := { opcode := 0x4004, permits := ownAt 0, plen := fixed 16, fields := ckpFields, run := ckpRestoreRun }

/-- CKP_RESTORE (R199, R200). -/
def execCkpRestore (c : Cmd) (s : State) : Res := .next (s.command ckpRestoreSpec c)

end Sys2Proof.Machine
end

