-- ==== Sys2Proof/Machine/Cross.lean ====
section
/-! DEFINITION. A flit that a router sends on (R121, R124), and what a girdle die other than a memory-girdle die does with a flit that has
reached it (R122, R262, R327). -/

namespace Sys2Proof.Machine

/-- A flit that has left by an edge link: a network-girdle die and the host-girdle die consume their answers at once, and a
network-girdle die the flits of frames that cross to it (R262, R327); a memory-girdle die takes its flits by rows of its own. -/
def State.dieTakes (s : State) (x y : Nat) (fl : Flit) : State :=
  match nextPlace x y fl with
  | .die d =>
    if d < 8 then s
    else
      let s := s.taken (.die d) fl
      if d < 12 ∧ fl.vc = 3 ∧ fl.typ = 0 then (if fl.tag = 1 then s.crossRoceIn d fl else s.crossIn d fl) else s
  | _ => s

/-- FLIT_ROUTE (R121, R124): the flit at the head of its channel in an input port is discarded with a NACK to its source, or, when
it is what its output port sends next and the next place has room, sent on. Any other flit stays where it is. -/
def execFlitRoute (x y port : Nat) (fl : Flit) (s : State) : Res :=
  .next <|
    if 48 ≤ x ∨ 32 ≤ y ∨ (s.headAt x y port fl.vc).map (·.flit) ≠ some fl then s
    else
      match routeFault x y fl with
      | some status =>
        let a := answerTo fl 5 (nackBytes status)
        ((s.leaveInput x y port fl).nackEvent (facetAt x y) fl.inst fl.addr status).sendFlit { a with sx := x, sy := y }
      | none => if s.pick x y (outPort x y fl) = some (port, fl) then (s.forward x y port fl).dieTakes x y fl else s

end Sys2Proof.Machine
end

