-- ==== Sys2Proof/Machine/Contain.lean ====
section
/-! DEFINITION. Containment of faults at their scopes (R466): failed dies, the endpoint, the bezel (R469), alarms (R471). -/

namespace Sys2Proof.Machine

/-! ## Dies (R466) -/

/-- The flit leaves the mesh at a die. -/
def flitBoundFor (fl : Flit) (d : Nat) : Bool := fl.side ≠ 0 && edgeDie fl.dx fl.dy fl.side = some d

/-- Every flit on its way to a failed die, in a router or at the die, is answered with NACK 1; answers to the die need none. -/
def State.answerFlits (s : State) (d : Nat) : State :=
  let fls := s.mesh.transit.filter fun h => flitBoundFor h.flit d
  let s : State := { s with mesh := { s.mesh with transit := s.mesh.transit.filter fun h => !flitBoundFor h.flit d } }
  fls.foldl (fun s h =>
    if h.flit.typ = 2 ∨ h.flit.typ = 4 ∨ h.flit.typ = 5 then s else s.dieSend d (answerTo h.flit 5 (nackBytes 1))) s

/-- Transfers to peers that leave by a failed network-girdle die end with NACK 1. -/
def State.endPeers (s : State) : State :=
  s.facets.foldl (fun s (f, x) => x.xfers.foldl (fun s t =>
    match t.peer with
    | some r => if s.peerDead f r then s.deadNack f r t.tag else s
    | none => s) s) s

/-- A die fails (R466): a memory-girdle die with its four stacks and its gather engine's work, a network-girdle die with its
links and queue pairs. A die that has failed already stays so. -/
def State.failDie (s : State) (d : Nat) : State :=
  if s.dieFailed d || decide (12 ≤ d) then s
  else
    let s : State := { s with faults := { s.faults with failedDies := s.faults.failedDies ++ [d] } }
    let s := s.answerFlits d
    if d < 8 then
      let s := (List.range 4).foldl (fun s j => s.failStack (4 * d + j)) s
      s.modGatherDie d fun g => { g with jobs := [], cache := [] }
    else
      let k := d - 8
      let s := s.endPeers
      let s := (List.range 4).foldl (fun s p => s.portDown (4 * k + p)) s
      (s.rma.qps.filter fun e => e.2.home = k && e.2.state ≠ .reset).foldl (fun s e => s.qpError e.1 (some (0, 5, 0))) s

/-- A fault at Die scope (R465, R466). -/
def State.faultDie (s : State) (code d : Nat) : State := (s.failDie d).recordFault code .die d

/-- The block has left power-on reset. -/
def State.awake (s : State) : Bool := s.boot.phase ≠ .reset

/-- A die stops with a fault: 0 to 11 at Die scope; HG, which holds the bezel and the endpoint, at Device scope (R466). -/
def State.stopDie (s : State) (code d : Nat) : State :=
  if !s.awake || s.dieFailed d || decide (12 < d) then s
  else if d = 12 then s.raiseDevice code 12
  else s.faultDie code d

/-! ## The endpoint (R398, R466) -/

/-- A fault at Endpoint scope: the link goes down, every function is reset, and the link trains again. -/
def State.faultEndpoint (s : State) : State := (s.retrain.allReset 1).recordFault 0x0007 .endpoint 0

/-! ## Alarms (R422, R471) -/


/-- A sensor's alarm has not cleared. -/
def State.alarmOn (s : State) (src sensor : Nat) : Bool :=
  s.faults.alarms.contains src && (s.faults.late.contains (src, sensor) ||
    s.faults.table.any fun e => e.2.code = alarmCode src && e.2.object = sensor && e.2.status = .active)

/-- The condition of an alarm is met (R471): keys are erased at once, the ALARM record and the Device-scope fault follow. At Doze
it is a wake event (R435, R473); at Sleep and Dormant the device does not climb, and records it at the next exit to Run (R487). A sensor
whose alarm has not cleared raises none anew (log entry 20). -/
def State.alarm (s : State) (src sensor : Nat) : State :=
  if s.alarmOn src sensor then s
  else
    let s := if s.power.rung = 1 ∨ s.power.rung = 2 ∨ s.power.entering.isSome then s.wake else s
    let s := s.eraseKeys
    let s : State := { s with faults := { s.faults with
      alarms := if s.faults.alarms.contains src then s.faults.alarms else s.faults.alarms ++ [src] } }
    if 3 ≤ s.power.rung then { s with faults := { s.faults with late := s.faults.late ++ [(src, sensor)] } }
    else s.recordAlarm src sensor

/-! ## The bezel (R469) -/

/-- Ends every command in progress with a status. -/
def State.endCommands (s : State) (status detail : Nat) : State :=
  s.chans.foldl (fun s e => e.2.inProg.foldl (fun s p => s.finish { ch := e.1, id := p.id, seq := p.seq } status detail []) s) s

/-- A BEZEL fault: both microcontrollers restart and commands in progress end. The third within 10 s raises the clock alarm, and
there is no fourth restart (log entry 16). -/
def State.faultBezel (s : State) : State :=
  let recent := s.faults.bezelTimes.filter fun t => decide (s.now < t + 10_000_000_000)
  let s : State := { s with faults := { s.faults with bezelTimes := recent ++ [s.now] } }
  let s := s.recordFault 0x0009 .bezel 0
  let s := if 2 ≤ recent.length then s.alarm 3 0 else s
  if 3 ≤ recent.length then s
  else
    let s := s.endCommands 0x000D 0x0009
    { s with
      faults := { s.faults with bezelRestart := true }
      boot := if s.boot.switching then s.boot else { s.boot with activating := none } }

end Sys2Proof.Machine
end

