-- ==== Sys2Proof/Machine/RoceCommands.lean ====
section
/-! DEFINITION. The remote-memory commands (spec/13): protection domains, queue pairs, windows, doorbell rings and the context
area. -/

namespace Sys2Proof.Machine

/-- A ring of R331 at an instance address: its address and its length, a power of two within bounds. -/
def ringOk (ring len lo hi : Nat) : Bool := ring % 64 = 0 && decide (ring + len + 64 ≤ 2 ^ 48) && powerIn len lo hi

/-! ## Context area and protection domains (R328, R342) -/

/-- The device address of a contiguous range of an instance that is all HBM. -/
def State.hbmPiece (s : State) (i a n : Nat) : Option Nat :=
  match s.rangesOf i a n true, s.rangesOf i a n false with
  | .ok rs, .ok _ =>
    match rs with
    | [] => none
    | (d, _) :: _ =>
      if s.inHbm i a n && (rs.foldl (fun (e : Bool × Nat) r => (e.1 && decide (r.1 = e.2), r.1 + r.2)) (true, d)).1 then some d else none
  | _, _ => none

/-- RMA_CTX_AREA. -/
def rmaCtxAreaSpec : Spec :=
  { opcode := 0x7001, permits := managerOnly, plen := fixed 8, fields := fun _ ps => [address ps 0 1]
    run := fun s _ _ ps =>
      let a := fieldAt ps 0 8
      if a % granule ≠ 0 then fails s 0x7004
      else
        match s.hbmPiece 0 a 0x400_0000 with
        | none => fails s 0x7004
        | some d => if !s.rma.qps.isEmpty then fails s 0x7007 else okay { s with rma := { s.rma with ctxArea := some d } } }

/-- RMA_CTX_AREA (R342): sets the context area. -/
def execRmaCtxArea (c : Cmd) (s : State) : Res := .next (s.command rmaCtxAreaSpec c)

/-- Objects an instance holds. -/
def State.pdsOf (s : State) (i : Nat) : Nat := (s.rma.pds.filter fun e => e.2 = i).length
def State.qpsOf (s : State) (i : Nat) : Nat := (s.rma.qps.filter fun e => e.2.inst = i).length
def State.winsOf (s : State) (i : Nat) : Nat := (s.rma.wins.filter fun e => e.2.inst = i).length

/-- RMA_PD_ALLOC. -/
def rmaPdAllocSpec : Spec :=
  { opcode := 0x7002, permits := ownAt 0, plen := fixed 8, fields := fun _ ps => [below ps 0 1 64, rsv ps 1 7]
    run := fun s _ _ ps =>
      let own := fieldAt ps 0 1
      if (s.inst own).shares.pd ≤ s.pdsOf own then fails s 0x7001
      else
        match s.rma.pds.free 4096 with
        | none => fails s 0x7006
        | some n => gives { s with rma := { s.rma with pds := s.rma.pds.put n own } } (leBytes 2 n ++ zeros 6) }

/-- RMA_PD_ALLOC (R328): allocates a protection domain. -/
def execRmaPdAlloc (c : Cmd) (s : State) : Res := .next (s.command rmaPdAllocSpec c)

/-- RMA_PD_FREE. -/
def rmaPdFreeSpec : Spec :=
  { opcode := 0x7003, permits := anyone, plen := fixed 8, fields := fun _ ps => [below ps 0 2 4096, rsv ps 2 6]
    run := fun s _ i ps =>
      let n := fieldAt ps 0 2
      match s.rma.pds.find n with
      | none => fails s 0x7002
      | some o =>
        if i ≠ 0 ∧ o ≠ i then fails s 0x7002
        else if (s.rma.qps.any fun e => e.2.pd = n) || s.rma.wins.any fun e => e.2.pd = n then fails s 0x7005
        else okay { s with rma := { s.rma with pds := Tbl.del s.rma.pds n } } }

/-- RMA_PD_FREE (R328): frees a protection domain that nothing names. -/
def execRmaPdFree (c : Cmd) (s : State) : Res := .next (s.command rmaPdFreeSpec c)

/-! ## Queue pairs (R329, R330, R348) -/

/-- A path with every field zero. -/
def QpPath.blank : QpPath :=
  { ipv6 := false, fabric := false, tagged := false, link := 0, cls := 0, ttl := 0, tci := 0, destId := 0, sport := 0, dmac := zeros 6
    smac := zeros 6, tos := 0, sip := zeros 16, dip := zeros 16 }

/-- A queue pair in Reset. -/
def Qp.fresh (inst : Nat) (gen : BitVec 16) (kind pd home sq sqLen cq cqLen : Nat) : Qp :=
  { inst, gen, kind, pd, home, state := .reset, sq, sqLen, cq, cqLen, cons := 0, fetched := 0, prodSeen := 0, cqProd := 0, cqSeq := 0
    dqpn := 0, sqPsn := 0, rqPsn := 0, mtu := 0, retry := 0, timeout := 0, initDepth := 0, respDepth := 0, path := QpPath.blank, w := 0
    base := 0, lastCut := 0, probing := false, retries := 0, reqs := [], unacked := [], inMsg := none, nakSent := false, ackDue := 0
    ackSince := none, owed := [], minRtt := none, msn := 0, resps := [], cached := false, used := 0, parked := [], cipTx := none, cipRx := none }

/-- RMA_QP_CREATE after its parameter checks. -/
def rmaQpCreateRun (s : State) (_ : Waiter) (_ : Nat) (ps : List Byte) : Act :=
  let own := fieldAt ps 0 1
  let pd := fieldAt ps 2 2
  let sq := fieldAt ps 8 8
  let sqLen := fieldAt ps 16 4
  let cqLen := fieldAt ps 20 4
  let cq := fieldAt ps 24 8
  if (s.inst own).shares.qp ≤ s.qpsOf own then fails s 0x7001
  else if !s.rma.pds.has pd then fails s 0x7002
  else if !ringOk sq sqLen 0x1000 0x40_0000 || !ringOk cq cqLen 0x1000 0x20_0000 then fails s 0x7004
  else
    match s.rma.qps.free 262144 with
    | none => fails s 0x7006
    | some k =>
      if s.rma.ctxArea.isNone then fails s 0x7007
      else if s.rma.pds.find pd ≠ some own then fails s 0x7009
      else
        let q := Qp.fresh own (s.genOf own) (fieldAt ps 1 1) pd (fieldAt ps 4 1) sq sqLen cq cqLen
        gives (s.putQp k q) (leBytes 4 (s.rma.incarn.getD k 1 * 2 ^ 18 + k) ++ zeros 4)

/-- RMA_QP_CREATE. -/
def rmaQpCreateSpec : Spec :=
  { opcode := 0x7004, permits := ownAt 0, plen := fixed 32
    fields := fun _ ps => [below ps 0 1 64, below ps 1 1 2, below ps 2 2 4096, below ps 4 1 4, rsv ps 5 3]
    run := rmaQpCreateRun }

/-- RMA_QP_CREATE (R329): creates a queue pair at the lowest free index. -/
def execRmaQpCreate (c : Cmd) (s : State) : Res := .next (s.command rmaQpCreateSpec c)

/-- The queue pair a QPN names, when an instance (or the manager) holds it. -/
def State.heldQp (s : State) (i qpn : Nat) : Option (Nat × Qp) :=
  match s.qpByQpn qpn with
  | some (k, q) => if i = 0 ∨ q.inst = i then some (k, q) else none
  | none => none

/-- The parameter fields of RMA_QP_MODIFY: those its target state uses in their ranges, every other zero (R330). -/
def rmaQpModifyFields (_ : State) (ps : List Byte) : List (Nat × Bool) :=
  let st := fieldAt ps 4 1
  let use (on : Bool) (o n : Nat) (ok : Bool) : Nat × Bool := (o, if on then ok else allZero (slice ps o n))
  let rtr : Bool := st = 2
  let rts : Bool := st = 3
  let sp := fieldAt ps 30 2
  let iw := fieldAt ps 80 4
  [below ps 0 4 0x1000000, below ps 4 1 5, use rtr 5 1 (decide (fieldAt ps 5 1 < 8)), use rtr 6 1 (decide (fieldAt ps 6 1 < 64)),
   use rtr 7 1 (decide (fieldAt ps 7 1 < 8)), use rtr 8 4 (decide (fieldAt ps 8 4 < 2 ^ 24)), use rtr 12 4 (decide (fieldAt ps 12 4 < 2 ^ 24)),
   use rts 16 4 (decide (fieldAt ps 16 4 < 2 ^ 24)), use rtr 20 1 (decide (fieldAt ps 20 1 ≤ 2)), use rts 21 1 (decide (fieldAt ps 21 1 ≤ 7)),
   use rts 22 1 (decide (8 ≤ fieldAt ps 22 1) && decide (fieldAt ps 22 1 ≤ 20)),
   use rts 23 1 (decide (1 ≤ fieldAt ps 23 1) && decide (fieldAt ps 23 1 ≤ 16)),
   use rtr 24 1 (decide (1 ≤ fieldAt ps 24 1) && decide (fieldAt ps 24 1 ≤ 16)), use rtr 25 1 (decide (1 ≤ fieldAt ps 25 1)),
   use rtr 26 2 true, use rtr 28 2 (decide (fieldAt ps 28 2 < 0x4000)), use rtr 30 2 (sp = 0 || decide (0xC000 ≤ sp)), use rtr 32 6 true,
   use rtr 38 6 true, use rtr 44 1 true, rsv ps 45 3, use rtr 48 16 true, use rtr 64 16 true,
   use rts 80 4 (iw = 0 || (decide (4096 ≤ iw) && decide (iw ≤ 16777216))), rsv ps 84 12]

/-- The path that RMA_QP_MODIFY sets. -/
def pathFrom (ps : List Byte) : QpPath :=
  let fl := fieldAt ps 5 1
  { ipv6 := bitAt fl 0, fabric := bitAt fl 1, tagged := bitAt fl 2, link := fieldAt ps 6 1, cls := fieldAt ps 7 1, ttl := fieldAt ps 25 1
    tci := BitVec.ofNat 16 (beNat (slice ps 26 2)), destId := fieldAt ps 28 2, sport := fieldAt ps 30 2, dmac := slice ps 32 6
    smac := slice ps 38 6, tos := fieldAt ps 44 1, sip := slice ps 48 16, dip := slice ps 64 16 }

/-- The base delay that the path table of a die holds for a queue pair's destination, updated within 10 s (R346). -/
def State.pathDelay (s : State) (q : Qp) : Option Nat :=
  let dest := if q.path.fabric then leBytes 2 q.path.destId else q.path.dip
  ((s.rma.paths.getD q.home []).find? fun e => e.1 = dest && decide (s.now - e.2.2 ≤ 10000000000)).map (·.2.1)

/-- The work that engines have posted on a queue pair ends without success (R350). -/
def State.endEng (s : State) (q : Qp) : State :=
  (q.reqs.filter (·.eng)).foldl (fun s r => s.engEnds { r with status := some (1, 0) }) s

/-- RMA_QP_MODIFY after its parameter checks (R330, R346). -/
def rmaQpModifyRun (s : State) (_ : Waiter) (i : Nat) (ps : List Byte) : Act :=
  match s.heldQp i (fieldAt ps 0 4) with
  | none => fails s 0x7002
  | some (k, q) =>
    match fieldAt ps 4 1 with
    | 0 =>
      okay ((s.endEng q).putQp k { Qp.fresh q.inst q.gen q.kind q.pd q.home q.sq q.sqLen q.cq q.cqLen with
        cached := q.cached, used := q.used, cqSeq := q.cqSeq, cipTx := q.cipTx, cipRx := q.cipRx })
    | 1 => if q.state = .reset then okay (s.putQp k { q with state := .init }) else fails s 0x7003
    | 2 =>
      if q.state ≠ .init then fails s 0x7003
      else
        let p := pathFrom ps
        if (!p.fabric && p.link / 16 ≠ q.home) || (p.fabric && (s.wayTo s.fabric.id p.destId).isNone) then fails s 0x7008
        else okay (s.putQp k { q with
          state := .rtr, dqpn := fieldAt ps 8 4, rqPsn := BitVec.ofNat 24 (fieldAt ps 12 4), mtu := fieldAt ps 20 1
          respDepth := fieldAt ps 24 1, path := p })
    | 3 =>
      if q.state ≠ .rtr then fails s 0x7003
      else
        let iw := fieldAt ps 80 4
        let known := s.pathDelay q
        let psn := BitVec.ofNat 24 (fieldAt ps 16 4)
        okay (s.putQp k { q with
          state := .rts, sqPsn := if known.isSome then psn else psn + 1, retry := fieldAt ps 21 1, timeout := fieldAt ps 22 1
          initDepth := fieldAt ps 23 1, w := if iw = 0 then 1024 * s.rma.initKib else iw, base := known.getD 0
          probing := known.isNone, lastCut := 0, minRtt := none, retries := 0 })
    | _ => okay ((s.qpError k none).retireAll k)

/-- RMA_QP_MODIFY. -/
def rmaQpModifySpec : Spec :=
  { opcode := 0x7005, permits := anyone, plen := fixed 96, fields := rmaQpModifyFields, run := rmaQpModifyRun }

/-- RMA_QP_MODIFY (R330): moves a queue pair between states. -/
def execRmaQpModify (c : Cmd) (s : State) : Res := .next (s.command rmaQpModifySpec c)

/-- Destroys a queue pair (R348): its index is free and its incarnation advances. -/
def State.destroyQp (s : State) (k : Nat) : State :=
  let n := s.rma.incarn.getD k 1
  { s with rma := { s.rma with qps := Tbl.del s.rma.qps k, incarn := s.rma.incarn.put k (if n = 63 then 1 else n + 1) } }

/-- RMA_QP_DESTROY. -/
def rmaQpDestroySpec : Spec :=
  { opcode := 0x7006, permits := anyone, plen := fixed 8, fields := fun _ ps => [below ps 0 4 0x1000000, rsv ps 4 4]
    run := fun s _ i ps => match s.heldQp i (fieldAt ps 0 4) with | none => fails s 0x7002 | some (k, q) => okay ((s.endEng q).destroyQp k) }

/-- RMA_QP_DESTROY (R348): destroys a queue pair. -/
def execRmaQpDestroy (c : Cmd) (s : State) : Res := .next (s.command rmaQpDestroySpec c)

/-- The number of a state (RMA_QP_MODIFY). -/
def QpState.code : QpState → Nat
  | .reset => 0 | .init => 1 | .rtr => 2 | .rts => 3 | .error => 4

/-- RMA_QP_GET. -/
def rmaQpGetSpec : Spec :=
  { opcode := 0x7007, permits := anyone, plen := fixed 8, fields := fun _ ps => [below ps 0 4 0x1000000, rsv ps 4 4]
    run := fun s _ i ps =>
      match s.heldQp i (fieldAt ps 0 4) with
      | none => fails s 0x7002
      | some (_, q) =>
        gives s (leBytes 1 (match q.state with | .reset => 0 | .init => 1 | .rtr => 2 | .rts => 3 | .error => 4) ++ leBytes 1 q.kind ++
          leBytes 1 (bit q.cached) ++ zeros 1 ++ leBytes 4 q.sqPsn.toNat ++ leBytes 4 q.rqPsn.toNat ++ leBytes 4 q.retries ++ leBytes 4 q.w ++
          leBytes 4 q.base ++ leBytes 8 q.cqSeq.toNat) }

/-- RMA_QP_GET (R330): reports a queue pair. -/
def execRmaQpGet (c : Cmd) (s : State) : Res := .next (s.command rmaQpGetSpec c)

/-! ## Memory windows (R338 to R341) -/

/-- RMA_MW_OPEN after its parameter checks. -/
def rmaMwOpenRun (s : State) (_ : Waiter) (_ : Nat) (ps : List Byte) : Act :=
  let own := fieldAt ps 0 1
  let acc := fieldAt ps 1 1
  let pd := fieldAt ps 2 2
  let base := fieldAt ps 8 8
  let len := fieldAt ps 16 8
  if (s.inst own).shares.mw ≤ s.winsOf own then fails s 0x7001
  else if !s.rma.pds.has pd then fails s 0x7002
  else if base % 4096 ≠ 0 ∨ len % 4096 ≠ 0 ∨ len = 0 ∨ 2 ^ 40 < len ∨ 2 ^ 48 < base + len then fails s 0x7004
  else
    match s.rma.wins.free 65536 with
    | none => fails s 0x7006
    | some n =>
      if s.rma.pds.find pd ≠ some own then fails s 0x7009
      else
        let w : Window := { inst := own, pd, rd := bitAt acc 0, wr := bitAt acc 1, base, len, revoking := none }
        gives { s with rma := { s.rma with wins := s.rma.wins.put n w } } (leBytes 4 (n * 65536 + (s.rma.wgen.getD n 0).toNat) ++ zeros 4)

/-- RMA_MW_OPEN. -/
def rmaMwOpenSpec : Spec :=
  { opcode := 0x7008, permits := ownAt 0, plen := fixed 24
    fields := fun _ ps => [below ps 0 1 64, below ps 1 1 4, below ps 2 2 4096, rsv ps 4 4]
    run := rmaMwOpenRun }

/-- RMA_MW_OPEN (R339): opens a memory window. -/
def execRmaMwOpen (c : Cmd) (s : State) : Res := .next (s.command rmaMwOpenSpec c)

/-- No further READ response of a window is sent (R340). -/
def State.stopReads (s : State) (n : Nat) : State :=
  { s with rma := { s.rma with qps := s.rma.qps.map fun (k, q) => (k, { q with resps := q.resps.filter fun r => r.rkey / 65536 ≠ n }) } }

/-- RMA_MW_REVOKE. -/
def rmaMwRevokeSpec : Spec :=
  { opcode := 0x7009, permits := anyone, plen := fixed 8, fields := fun _ ps => [rsv ps 4 4]
    run := fun s w i ps =>
      let key := fieldAt ps 0 4
      let n := key / 65536
      match s.rma.wins.find n with
      | none => fails s 0x7002
      | some x =>
        if (i ≠ 0 ∧ x.inst ≠ i) ∨ x.revoking.isSome ∨ s.rma.wgen.getD n 0 ≠ BitVec.ofNat 16 key then fails s 0x7002
        else .wait (({ s with rma := { s.rma with wins := s.rma.wins.put n { x with revoking := some w } } }).stopReads n) }

/-- RMA_MW_REVOKE (R340): marks a window revoking. -/
def execRmaMwRevoke (c : Cmd) (s : State) : Res := .next (s.command rmaMwRevokeSpec c)

/-- A window is free again, its generation advanced (R340 step 3). -/
def State.freeWindow (s : State) (n : Nat) : State :=
  { s with rma := { s.rma with wins := Tbl.del s.rma.wins n, wgen := s.rma.wgen.put n (s.rma.wgen.getD n 0 + 1) } }

/-- MW_REVOKE_DRAINED (R340): the accesses checked before the revocation have finished; the reply leaves. -/
def execMwRevokeDrained (w : Nat) (s : State) : Res :=
  .next <|
    match s.rma.wins.find w with
    | none => s
    | some x => match x.revoking with | some r => (s.freeWindow w).finish r 0 0 [] | none => s

/-! ## Doorbell rings (R331) -/

/-- RMA_DB_SET. -/
def rmaDbSetSpec : Spec :=
  { opcode := 0x700A, permits := ownAt 0, plen := fixed 24
    fields := fun _ ps => [below ps 0 1 64, rsv ps 1 3, within ps 4 4 100 100000, rsv ps 20 4]
    run := fun s _ _ ps =>
      let own := fieldAt ps 0 1
      let ring := fieldAt ps 8 8
      let len := fieldAt ps 16 4
      if len = 0 then okay { s with rma := { s.rma with rings := Tbl.del s.rma.rings own } }
      else if !ringOk ring len 0x1000 0x10_0000 then fails s 0x7004
      else
        let d : DbRing := { ring, len, pollNs := fieldAt ps 4 4, cons := 0, stopped := false }
        okay { s with rma := { s.rma with rings := s.rma.rings.put own d } } }

/-- RMA_DB_SET (R331): sets an instance's doorbell ring. -/
def execRmaDbSet (c : Cmd) (s : State) : Res := .next (s.command rmaDbSetSpec c)

/-! ## Step 4 of R214 -/

/-- Destroys an instance's queue pairs, revokes its windows and frees its protection domains and doorbell ring (R349). -/
def State.dropRma (s : State) (i : Nat) : State :=
  let s := (s.rma.qps.filter fun e => e.2.inst = i).foldl (fun s e => s.destroyQp e.1) s
  let s := (s.rma.wins.filter fun e => e.2.inst = i).foldl (fun s e =>
    let s := s.freeWindow e.1
    match e.2.revoking with | some r => s.finish r 0 0 [] | none => s) s
  { s with rma := { s.rma with pds := s.rma.pds.filter fun e => e.2 ≠ i, rings := Tbl.del s.rma.rings i } }

end Sys2Proof.Machine
end

