-- ==== Sys2Proof/Machine/Tenants.lean ====
section
/-! DEFINITION. Instances, parcels, maps, shares, budgets and accounting (spec/08). -/

namespace Sys2Proof.Machine

/-! ## The instance map (R203 to R207) -/

/-- The valid entries of an instance's map as (granule, entry). Only an entry with a listed byte can be valid. -/
def State.validEntries (s : State) (i : Nat) : List (Nat × Nat) :=
  let x := s.inst i
  s.mem.filterMap fun (k, b) =>
    if x.mapBase ≤ k ∧ k < x.mapBase + 8 * x.mapLen ∧ (k - x.mapBase) % 8 = 7 ∧ b.getLsbD 7 then
      some ((k - x.mapBase) / 8, s.mapEntry i ((k - x.mapBase) / 8))
    else none

/-- The device granule of an entry. -/
def entryGran (e : Nat) : Nat := bitsOf e 47 21
/-- The entry is VALID. -/
def entryValid (e : Nat) : Bool := bitAt e 63

/-- Instances that have a map. -/
def State.mapped (s : State) : List Nat := (s.insts.filter fun e => e.2.mapLen ≠ 0).map (·.1)

/-- Some instance maps a device granule. -/
def State.granMapped (s : State) (g : Nat) : Bool :=
  s.mapped.any fun i => (s.validEntries i).any fun e => entryGran e.2 = g

/-- A map array overlaps a device range. -/
def State.mapArrayMeets (s : State) (a n : Nat) : Bool :=
  s.insts.any fun e => e.2.mapLen ≠ 0 && decide (e.2.mapBase < a + n ∧ a < e.2.mapBase + 8 * e.2.mapLen)

/-- Writes map entries as the bezel does, past every instance map. -/
def State.writeEntries (s : State) (i first : Nat) (es : List Nat) : State :=
  (s.storeRaw ((s.inst i).mapBase + 8 * first) (es.flatMap fun e => leBytes 8 e)).1

/-- Zeroes HBM granules; a granule of a checkpoint copy that is still pending is saved first (R192, R207). -/
def State.zeroGrans (s : State) (gs : List Nat) : State :=
  gs.foldl (fun s g => if g * granule < hbmSize then s.zeroStore (g * granule) granule else s) s

/-- Both facets of a scratchpad granule lie in parcels of an instance (R206). -/
def State.spadOwned (s : State) (i g : Nat) : Bool :=
  match regionOf (g * granule) with
  | .spad f _ => [f, f + 1].all fun f => match (s.facet f).owner with | some o => o.inst = i | none => false
  | _ => true

/-- The Destan refuses a valid entry for an instance with 0x1007 (R206). `others` are the valid entries of other instances. -/
def State.entryRefused (s : State) (i e : Nat) (others : List Nat) : Bool :=
  let g := entryGran e
  s.unmapped (g * granule) || s.mapArrayMeets (g * granule) granule || !s.spadOwned i g ||
  others.any fun o => entryGran o = g && !(bitAt o 60 && bitAt e 60)

/-- HBM granules among entries, each counted once. -/
def hbmGrans (es : List Nat) : Nat := ((es.map entryGran).filter fun g => decide (g * granule < hbmSize)).eraseDups.length

/-- The value of the entry `k` of a PCL_MAP_SET: DGRAN advances by 1 (spec/08). -/
def entryAt (entry k : Nat) : Nat := entry - entryGran entry * granule + ((entryGran entry + k) % 2 ^ 27) * granule

/-- Granules in one GiB of zeroing. -/
def mapPiece : Nat := 512

/-- The next entries of a PCL_MAP_SET change: as many as unmap at most one GiB of HBM, since its abort point lies between two
zeroed GiB (R207, R240). -/
def State.mapBatch (s : State) (i : Nat) (w : Waiter) (first count entry done : Nat) : State × MapWork :=
  let s := s.drainHbm
  let rest := (s.validEntries i).filter fun e => decide (first + done ≤ e.1 ∧ e.1 < first + count)
  let done' := match (rest.filter fun e => decide (entryGran e.2 * granule < hbmSize))[mapPiece]? with
    | some e => e.1 - first
    | none => count
  let olds := (rest.filter fun e => decide (e.1 < first + done')).map fun e => entryGran e.2
  let s := s.writeEntries i (first + done) ((List.range (done' - done)).map fun k => entryAt entry (done + k))
  let zero := olds.eraseDups.filter fun g => decide (g * granule < hbmSize) && !s.granMapped g
  (s.zeroGrans zero, { waiter := w, first, count, entry, done := done', olds, zero })

/-- The status with which the Destan refuses a change of map entries (R206). -/
def State.mapRefusal (s : State) (i first count entry : Nat) : Option Nat :=
  let news := (List.range count).map fun k => entryAt entry k
  let others := ((s.mapped.filter fun j => j ≠ i).flatMap fun j => s.validEntries j).map (·.2)
  let mine := s.validEntries i
  let kept := mine.filter fun e => !decide (first ≤ e.1 ∧ e.1 < first + count)
  let after := hbmGrans (kept.map (·.2) ++ news)
  if !entryValid entry then none
  else if news.any fun e => s.entryRefused i e others then some 0x1007
  else if hbmGrans (mine.map (·.2)) < after ∧ (s.inst i).shares.hbmGran < after then some 0x1008
  else none

/-- PCL_MAP_SET after its parameter checks: the reply waits for old translations and zeroing (R207). -/
def pclMapSetRun (s : State) (w : Waiter) (_ : Nat) (ps : List Byte) : Act :=
  let i := fieldAt ps 0 1
  let first := fieldAt ps 4 4
  let count := fieldAt ps 8 4
  let entry := fieldAt ps 16 8
  if !s.isActive i then fails s 0x1002
  else if (s.inst i).mapLen < first + count then fails s 0x1007
  else
    let s := s.drainHbm
    match s.mapRefusal i first count entry with
    | some e => fails s e
    | none =>
      let (s, m) := s.mapBatch i w first count entry 0
      .wait (s.modInst i fun x => { x with mapWork := x.mapWork ++ [m] })

/-- PCL_MAP_SET. -/
def pclMapSetSpec : Spec :=
  { opcode := 0x1007, permits := managerOnly, plen := fixed 24
    fields := fun _ ps =>
      [below ps 0 1 64, rsv ps 1 3, within ps 8 4 1 65536, rsv ps 12 4,
       (16, decide (bitsOf (fieldAt ps 16 8) 59 48 = 0) && decide (fieldAt ps 16 8 % granule = 0))]
    run := pclMapSetRun }

/-- PCL_MAP_SET (R206): changes instance map entries. -/
def execPclMapSet (c : Cmd) (s : State) : Res := .next (s.command pclMapSetSpec c)

/-- An access translated with an old entry is still under way: a flit on its way to the granule, a write that waits for the granule's
copy, or a master read of it (R192, R207). -/
def State.granBusy (s : State) (g : Nat) : Bool :=
  (s.mesh.transit.any fun h => decide (h.flit.typ = 0 ∨ h.flit.typ = 1) && h.flit.addr / granule = g) ||
  (s.parcels.any fun e => e.2.ckp.held.any fun h => h.write.addr / granule = g) ||
  s.hbm.stks.any (fun e => e.2.reads.any fun r => r.addr / granule = g) ||
  (match s.outWindow (g * granule) true, s.outWindow (g * granule) false with
   | some v, _ => s.outBusy v.fn v.bus v.len
   | none, some v => s.outBusy v.fn v.bus v.len
   | none, none => false)

/-- MAP_SET_DRAINED (R207, R240, R388): every access translated with an old entry has completed and granules whose last mapping
was removed are zeroed; the oldest waiting PCL_MAP_SET of the instance goes on with its next entries, is stopped there by a
SYS_ABORT, or is answered. -/
def execMapSetDrained (i : Nat) (s : State) : Res :=
  .next <|
    match (s.inst i).mapWork with
    | [] => s
    | m :: t =>
      let s := s.drainHbm
      if m.olds.any s.granBusy then s
      else
        let s := s.zeroGrans (m.zero.filter fun g => !s.granMapped g)
        let w := m.waiter
        if m.count ≤ m.done then (s.modInst i fun x => { x with mapWork := t }).finish w 0 0 []
        else if (s.chan w.ch).aborts.any fun a => a.1 = w.id then
          ((s.modInst i fun x => { x with mapWork := t }).finishOne w.ch w.id 0x0C m.done []).finishAborts w.ch w.id 0
        else
          let (s, m) := s.mapBatch i w m.first m.count m.entry m.done
          s.modInst i fun x => { x with mapWork := m :: t }

/-! ## Creation (R201 to R204) -/

/-- PCL_INST_CREATE after its parameter checks. -/
def pclInstCreateRun (s : State) (_ : Waiter) (_ : Nat) (ps : List Byte) : Act :=
  let i := fieldAt ps 0 1
  let base := fieldAt ps 8 8
  let len := fieldAt ps 16 4
  if i = 0 then fails s 0x1003
  else if (s.inst i).state ≠ .free then fails s 0x1001
  else if base % granule ≠ 0 ∨ hbmSize < base + 8 * len ∨ s.mapArrayMeets base (8 * len) ∨ s.mappedBy base (8 * len) then fails s 0x100B
  else
    let s := (s.zeroRange base (8 * len)).putInst i
      { Instance.initial with state := .active, gen := s.genOf i, mapBase := base, mapLen := len }
    okay (s.account 5 i 0xFF (2 ^ 64 - 1) [] (zeros 32))

/-- PCL_INST_CREATE. -/
def pclInstCreateSpec : Spec :=
  { opcode := 0x1001, permits := managerOnly, plen := fixed 24
    fields := fun _ ps => [below ps 0 1 64, rsv ps 1 7, below ps 8 8 (2 ^ 48), within ps 16 4 1 1048576, rsv ps 20 4]
    run := pclInstCreateRun }

/-- PCL_INST_CREATE (R203): creates an instance with every map entry zero. -/
def execPclInstCreate (c : Cmd) (s : State) : Res := .next (s.command pclInstCreateSpec c)

/-! ## Reset and removal (R213 to R216) -/

/-- The parcels of an instance. -/
def State.parcelsOf (s : State) (i : Nat) : List Nat := (s.parcels.filter fun e => e.2.valid && e.2.inst = i).map (·.1)

/-- Egress objects of an instance go (R323): frames of its queues, meters, shapers, and its IQMAP entries. -/
def State.dropTraffic (s : State) (i : Nat) : State :=
  let t := s.traffic
  let gone := (t.shapers.filter fun e => e.2.owner = i).map (·.1)
  let s := t.queues.foldl (fun s (k, q) =>
    if q.inst = some i ∧ !q.frames.isEmpty then s.tmsDrop (dieOfPort (k / 1024)) 2 q.frames.length else s) s
  { s with traffic := { s.traffic with
      queues := t.queues.map fun (k, q) =>
        let q := if q.inst = some i then { q with frames := [], deficit := 0, visit := none } else q
        (k, match q.shaper with | some n => if gone.contains n then { q with stopped := true } else q | none => q)
      meters := t.meters.filter fun e => e.2.owner ≠ i
      shapers := t.shapers.filter fun e => e.2.owner ≠ i
      iqmap := t.iqmap.filter fun e => e.1 % 512 / 8 ≠ i } }

/-- The checkpoint work of a parcel ends with its instance's reset (R198, R214): a copy fails, nothing chosen is left to capture. The
configuration, its slots and K stay with the parcel (R186). -/
def State.dropCkp (s : State) (p : Nat) : State :=
  let s := if (s.parcel p).ckp.busy then s.ckpFail p 5 else s
  s.modCkp p fun c =>
    { Ckp.initial with
      fail := c.fail, conf := c.conf, keep := c.keep, ckseq := c.ckseq, slot0 := c.slot0, slot1 := c.slot1, slot := c.slot, bytes := c.bytes }

/-- Step 4 of R214: what an instance owns beyond its parcels, shares, map, namespaces and budgets is destroyed. -/
def State.destroyOwned (s : State) (i : Nat) : State :=
  let s := (s.dropRma i).ctrlReset i
  let s := s.cipher.ctxs.foldl (fun s (n, x) => if x.owner = i then s.abortChain n x else s) s
  let s : State := { s with
    cipher := { s.cipher with ctxs := s.cipher.ctxs.filter fun e => e.2.owner ≠ i }
    storage := { s.storage with cmds := s.storage.cmds.map fun (k, c) =>
      (k, if c.key.isSome && (s.nss c.ns).any fun x => x.owner = i then { c with fail := some (0, 6) } else c) } }
  let s := s.gatherReset i
  let s := (s.parcelsOf i).foldl (fun s p => (s.dropCkp p).dropCut p) s
  let s := s.dropTraffic i
  let s := s.eth.rules.foldl (fun s e => if e.2.owner = i && e.2.stage = 2 then s.clearRule e.1 e.2 else s) s
  { s with
    eth := { s.eth with queues := s.eth.queues.filter fun e => e.2.inst ≠ i }
    loupe := { s.loupe with ilogs := Tbl.del s.loupe.ilogs i } }

/-- Steps 1 to 4 of R214: the instance is Resetting or Removing under its next generation, its jobs end with STOP_NOW, and what
it owns is destroyed. -/
def State.beginReset (s : State) (w : Waiter) (i : Nat) (st : InstState) : State :=
  let s := s.modInst i fun x => { x with state := st, gen := x.gen + 1, reset := some { waiter := w, began := s.now } }
  let g := s.genOf i
  let s : State := { s with facets := s.facets.map fun (f, x) =>
    (f, match x.owner with | some o => if o.inst = i then { x with owner := some { o with gen := g } } else x | none => x) }
  ((s.parcelsOf i).foldl State.stopNow s).destroyOwned i

/-- PCL_INST_RESET and PCL_INST_REMOVE after their parameter checks. -/
def pclResetRun (st : InstState) (s : State) (w : Waiter) (_ : Nat) (ps : List Byte) : Act :=
  let i := fieldAt ps 0 1
  if i = 0 then fails s 0x1003
  else if !s.isActive i then fails s 0x1002
  else .wait (s.beginReset w i st)

/-- PCL_INST_RESET. -/
def pclInstResetSpec : Spec :=
  { opcode := 0x1002, permits := managerOnly, plen := fixed 8, fields := fun _ ps => [below ps 0 1 64, rsv ps 1 7]
    run := pclResetRun .resetting }

/-- PCL_INST_RESET (R214): resets an instance. -/
def execPclInstReset (c : Cmd) (s : State) : Res := .next (s.command pclInstResetSpec c)

/-- PCL_INST_REMOVE. -/
def pclInstRemoveSpec : Spec :=
  { opcode := 0x1003, permits := managerOnly, plen := fixed 8, fields := fun _ ps => [below ps 0 1 64, rsv ps 1 7]
    run := pclResetRun .removing }

/-- PCL_INST_REMOVE (R215): removes an instance. -/
def execPclInstRemove (c : Cmd) (s : State) : Res := .next (s.command pclInstRemoveSpec c)

/-- A parcel is given up (R210): its scratchpads are zeroed, each bank takes its requested state, and the number is free. A
checkpoint copy in progress goes on, and its configuration goes with its end. -/
def State.freeParcel (s : State) (p : Nat) : State :=
  let x := s.parcel p
  let s := x.facets.foldl (fun s f =>
    let s := s.zeroRange (spadAddr f 0) 0x10_0000
    let s := (List.range 16).foldl (fun s b =>
      let y := s.facet f
      if y.bankWant b = y.bank b then s else s.setBank f b (y.bankWant b)) s
    s.modFacet f fun y => { y with owner := none, bankMove := [] }) s
  let busy := x.ckp.busy
  let s := s.putParcel p { Parcel.initial with
    inst := if busy then x.inst else 0
    ckp := if busy then { x.ckp with dropConf := true } else Ckp.initial }
  let s : State := { s with power := { s.power with demands := s.power.demands.filter fun e => e.1 / 6 ≠ p } }
  s.refreshRails

/-- What PCL_INST_REMOVE does once the steps of R214 are over (R215): map, parcels, namespaces, shares. Drives are told to
deallocate a deleted namespace's blocks; the removal does not wait for them (log entry 17). -/
def State.removeRest (s : State) (i : Nat) : State :=
  let s := s.drainHbm
  let es := s.validEntries i
  let s := es.foldl (fun s e => s.writeEntries i e.1 [0]) s
  let s := s.zeroGrans ((es.map fun e => entryGran e.2).eraseDups.filter fun g => decide (g * granule < hbmSize) && !s.granMapped g)
  let s := (s.parcelsOf i).foldl State.freeParcel s
  let s := (s.storage.nss.filter fun e => e.2.owner = i).foldl (fun s (n, x) =>
    let s := if x.kind = 2 then s.zeroStore x.base (x.size * x.lba)
      else if x.kind = 1 && s.driveReady x.port then
        let (id, s) := s.newId
        s.driveCmd x.port x.drvNs .zeroes true x.base x.size [] id 0
      else s
    s.dropNs n x) s
  s.modInst i fun x => { x with shares := Shares.zero }

/-- Channels bound to an instance become unsynced when its reset or removal completes (R233). -/
def State.unsync (s : State) (i : Nat) : State :=
  { s with chans := s.chans.map fun (k, x) =>
      (k, if x.bound = some i ∧ x.state = .synced then { x with state := .unsynced, kept := [] } else x) }

/-- A removal still waits (R215): a PCL_MAP_SET of the instance has not been answered, or an access to a granule of its map is
under way (R207). -/
def State.mapHolds (s : State) (i : Nat) : Bool :=
  !(s.inst i).mapWork.isEmpty || (s.drainHbm.validEntries i).any fun e => s.granBusy (entryGran e.2)

/-- INST_RESET_DRAINED (R214, R215): every engine holds no work of the old generation. The facets return to Empty, the record is
written and the reply leaves. A storage controller with commands that have begun still holds work, and a removal waits for its
map. -/
def execInstResetDrained (i : Nat) (s : State) : Res :=
  .next <|
    let x := s.inst i
    match x.reset with
    | none => s
    | some r =>
      if (s.ctrl i).resetting then s
      else if x.state = .removing && s.mapHolds i then s
      else
        let s := (s.parcelsOf i).foldl (fun s p => (s.parcel p).facets.foldl State.emptyFacet s) s
        let s :=
          if x.state = .removing then
            let s := s.removeRest i
            let s := s.account 4 i 0xFF (2 ^ 64 - 1) (s.inst i).counts (zeros 32)
            s.modInst i fun y => { y with state := .free, reset := none, mapBase := 0, mapLen := 0, mapWork := [], counts := [], last := [], energyFj := 0 }
          else
            let s := s.modInst i fun y => { y with state := .active, reset := none }
            s.account 3 i 0xFF (2 ^ 64 - 1) (s.inst i).counts (zeros 32)
        ((s.unsync i).finish r.waiter 0 0 []).refreshRails

/-- INST_RESET_TIMEOUT (R214, R465): an engine has not reported within 10 ms. Its die fails, and the reply carries 0x100C; the
instance stays as it is. -/
def execInstResetTimeout (i die : Nat) (s : State) : Res :=
  .next <|
    match (s.inst i).reset with
    | none => s
    | some r =>
      let s := (s.reach (r.began + 10_000_000)).faultDie 0x0002 die
      (s.modInst i fun x => { x with reset := none }).finish r.waiter 0x100C 0 []

/-! ## Parcels (R208 to R210) -/

/-- PCL_PARCEL_ALLOC after its parameter checks. -/
def pclParcelAllocRun (s : State) (_ : Waiter) (_ : Nat) (ps : List Byte) : Act :=
  let i := fieldAt ps 0 1
  let gx := fieldAt ps 1 1
  let gy := fieldAt ps 2 1
  let gw := fieldAt ps 3 1
  let gh := fieldAt ps 4 1
  if !s.isActive i then fails s 0x1002
  else
    let x : Parcel := { Parcel.initial with valid := true, inst := i, gx, gy, gw, gh }
    if 12 < gx + gw ∨ 8 < gy + gh ∨ x.facets.any fun f => (s.facet f).owner.isSome then fails s 0x1004
    else match (List.range 64).find? fun p => !(s.parcel p).valid with
      | none => fails s 0x1005
      | some p =>
        let k := (s.parcel p).ckp
        let s := s.putParcel p { x with ckp := if k.busy then k else Ckp.initial }
        let o : Owner := { gen := s.genOf i, inst := i, px := 4 * gx, py := 4 * gy, pw := 4 * gw - 1, ph := 4 * gh - 1 }
        let s := x.facets.foldl (fun s f => s.modFacet f fun y => { y with owner := some o, state := .empty }) s
        gives s (leBytes 1 p ++ zeros 7)

/-- PCL_PARCEL_ALLOC. -/
def pclParcelAllocSpec : Spec :=
  { opcode := 0x1004, permits := managerOnly, plen := fixed 8
    fields := fun _ ps => [below ps 0 1 64, below ps 1 1 12, below ps 2 1 8, within ps 3 1 1 12, within ps 4 1 1 8, rsv ps 5 3]
    run := pclParcelAllocRun }

/-- PCL_PARCEL_ALLOC (R208, R209): allocates a rectangle of granules to an instance. -/
def execPclParcelAlloc (c : Cmd) (s : State) : Res := .next (s.command pclParcelAllocSpec c)

/-- A map entry of some instance points into a parcel's scratchpads (R210). -/
def State.parcelMapped (s : State) (x : Parcel) : Bool :=
  s.mapped.any fun i => (s.validEntries i).any fun e =>
    match regionOf (entryGran e.2 * granule) with
    | .spad f _ => x.facets.contains f || x.facets.contains (f + 1)
    | _ => false

/-- PCL_PARCEL_FREE. -/
def pclParcelFreeSpec : Spec :=
  { opcode := 0x1005, permits := managerOnly, plen := fixed 8, fields := fun _ ps => [below ps 0 1 64, rsv ps 1 7]
    run := fun s _ _ ps =>
      let p := fieldAt ps 0 1
      let x := s.parcel p
      if !x.valid then fails s 0x100D
      else if x.facets.any (fun f => (s.facet f).state ≠ .empty) || s.drainHbm.parcelMapped x then fails s 0x1006
      else okay (s.freeParcel p) }

/-- PCL_PARCEL_FREE (R210): frees an Empty parcel. -/
def execPclParcelFree (c : Cmd) (s : State) : Res := .next (s.command pclParcelFreeSpec c)

/-! ## Shares and budgets (R211, R212, R219) -/

/-- The share fields of PCL_SHARE_SET. -/
def parseShares (ps : List Byte) : Shares :=
  { portWeight := fieldAt ps 1 1, storWeight := fieldAt ps 2 1, hbmGran := fieldAt ps 4 4, qp := fieldAt ps 8 4, pd := fieldAt ps 12 2
    sqp := fieldAt ps 14 2, mw := fieldAt ps 16 4, ns := fieldAt ps 20 2, ciph := fieldAt ps 22 2, meter := fieldAt ps 24 2
    shaper := fieldAt ps 26 2, rule := fieldAt ps 28 4 }

/-- PCL_SHARE_SET. -/
def pclShareSetSpec : Spec :=
  { opcode := 0x1006, permits := managerOnly, plen := fixed 32
    fields := fun _ ps =>
      [below ps 0 1 64, rsv ps 3 1, within ps 4 4 0 786432, within ps 8 4 0 262144, within ps 12 2 0 4096, within ps 14 2 0 4096,
       within ps 16 4 0 65536, within ps 20 2 0 1024, within ps 22 2 0 4096, within ps 24 2 0 16384, within ps 26 2 0 16384,
       within ps 28 4 0 65536]
    run := fun s _ _ ps =>
      let i := fieldAt ps 0 1
      if !s.isActive i then fails s 0x1002 else okay (s.modInst i fun x => { x with shares := parseShares ps }) }

/-- PCL_SHARE_SET (R211, R212): sets an instance's shares. -/
def execPclShareSet (c : Cmd) (s : State) : Res := .next (s.command pclShareSetSpec c)

/-- PCL_BUDGET_SET. -/
def pclBudgetSetSpec : Spec :=
  { opcode := 0x1008, permits := managerOnly, plen := fixed 16
    fields := fun _ ps => [below ps 0 1 64, rsv ps 1 3, rsv ps 10 6]
    run := fun s _ _ ps =>
      let p := fieldAt ps 0 1
      let b := fieldAt ps 4 4
      let t := fieldAt ps 8 2
      let x := s.parcel p
      if !x.valid then fails s 0x100D
      else if !s.isActive x.inst then fails s 0x1002
      else if (b ≠ 0 ∧ b < 125 * x.facets.length) ∨ 2400000 < b ∨ t < 1 ∨ 10000 < t then fails s 0x1009
      else okay (s.modParcel p fun x => { x with budgetNext := some (b, t) }) }

/-- PCL_BUDGET_SET (R219): sets a parcel's energy budget from the next interval. -/
def execPclBudgetSet (c : Cmd) (s : State) : Res := .next (s.command pclBudgetSetSpec c)

/-! ## Accounting (R217, R222 to R224) -/

/-- PCL_ACCT_CONFIG. -/
def pclAcctConfigSpec : Spec :=
  { opcode := 0x1009, permits := managerOnly, plen := fixed 16
    fields := fun _ ps => [address ps 0 4096]
    run := fun s _ _ ps =>
      let ring := fieldAt ps 0 8
      let n := fieldAt ps 8 4
      let ms := fieldAt ps 12 4
      if n = 0 then okay { s with acct := { s.acct with ringLen := 0, ring := 0, periodMs := 0 } }
      else if !powerIn n 0x10000 0x4000_0000 || decide (ms < 100 ∨ 3600000 < ms) || !s.mapsRw 0 ring (n + 64) then fails s 0x100A
      else match s.ringReset clsHost 0 ring with
        | (s, false) => fails s 0x100A
        | (s, true) => okay { s with acct := { s.acct with ring, ringLen := n, periodMs := ms, prod := 0, seq := 0, lastPeriod := s.now } } }

/-- PCL_ACCT_CONFIG (R223): sets the accounting ring. -/
def execPclAcctConfig (c : Cmd) (s : State) : Res := .next (s.command pclAcctConfigSpec c)

/-- The code of an instance's state (PCL_ISTATE). -/
def InstState.code : InstState → Nat
  | .free => 0 | .active => 1 | .resetting => 2 | .removing => 3

/-- PCL_INST_STATUS. -/
def pclInstStatusSpec : Spec :=
  { opcode := 0x100A, permits := ownAt 0, plen := fixed 8, fields := fun _ ps => [below ps 0 1 64, rsv ps 1 7]
    run := fun s _ _ ps =>
      let x := s.inst (fieldAt ps 0 1)
      gives s (leBytes 1 x.state.code ++ zeros 1 ++ leBytes 2 x.gen.toNat ++ zeros 4 ++ (countBytes x.counts).take 56) }

/-- PCL_INST_STATUS (R201): reports an instance's state and counts. -/
def execPclInstStatus (c : Cmd) (s : State) : Res := .next (s.command pclInstStatusSpec c)

/-- ACCT_PERIOD (R224): PERIOD records for every Active instance. -/
def execAcctPeriod (s : State) : Res :=
  .next <|
    if s.acct.ringLen = 0 then s
    else
      let s := s.reach (s.acct.lastPeriod + 1000000 * s.acct.periodMs)
      let s := if s.power.rung = 2 then s.wake else s
      let s : State := { s with acct := { s.acct with lastPeriod := s.now } }
      s.insts.foldl (fun s (i, x) => if x.state = .active then s.account 1 i 0xFF (2 ^ 64 - 1) x.counts (zeros 32) else s) s

/-! ## Energy (R217 to R221) -/

/-- The weighted count of a facet since the last interval (R217). -/
def Facet.weighted (x : Facet) : Nat :=
  let (m, v, st, b) := x.energyPrev
  Config.weightM.toNat * (x.hskm - m).toNat + Config.weightV.toNat * (x.hskv - v).toNat +
  Config.weightS.toNat * (x.hsks - st).toNat + Config.weightP.toNat * (x.hskp - b).toNat

/-- What a facet is charged for an interval, in fJ: `e` and `l` are the field's energy and its static part in pJ, `total` the
weighted count of the field. -/
def chargeFj (e l total u : Nat) : Nat :=
  1000 * l / 256 + if total = 0 then 1000 * (e - l) / 256 else 1000 * (e - l) * u / total

/-- Adds energy to an instance's account, in whole microjoules with the rest kept. -/
def State.chargeEnergy (s : State) (i fj : Nat) : State :=
  let x := s.inst i
  let t := x.energyFj + fj
  s.putInst i { x with counts := x.counts.bump 0 (t / 10 ^ 9), energyFj := t % 10 ^ 9 }

/-- The apportionment of one field (R217): the owners' charges, then the rest to no instance. Answers the charges by parcel. -/
def State.apportion (s : State) (f : Nat) (by_ : List (Nat × Nat)) : State × List (Nat × Nat) :=
  let r := s.rail f
  let e := r.interval
  let l := min (Config.leak r.mv (s.pfield f).temp) e
  let fs := s.facets.filter fun x => fieldOf x.1 = f
  let total := (fs.map fun x => x.2.weighted).sum
  let owned := fs.filterMap fun x => (s.parcelOf x.1).map fun p => (p, chargeFj e l total x.2.weighted)
  let s := owned.foldl (fun s c => s.chargeEnergy (s.parcel c.1).inst c.2) s
  let rest := s.acct.unownedFj + (1000 * e - (owned.map (·.2)).sum)
  let s : State := { s with acct := { s.acct with
    unowned := s.acct.unowned + BitVec.ofNat 64 (rest / 10 ^ 9), unownedFj := rest % 10 ^ 9 } }
  (s.modRail f fun x => { x with interval := 0 }, by_ ++ owned)

/-- A set budget takes its place for the next interval: the credit is cut to its cap and never raised (R219). -/
def Parcel.takeBudget (x : Parcel) : Parcel :=
  match x.budgetNext with
  | none => x
  | some (b, t) => { x with budget := b, burst := t, budgetNext := none, credit := min x.credit ((b * t : Nat) : Int) }

/-- A parcel's credit and charges at the end of an interval (R219, R221), in microjoules, under the budget the interval had. -/
def Parcel.settleCredit (x : Parcel) (uj : Nat) : Parcel :=
  let x := { x with charges := (uj :: x.charges).take 16 }
  (if x.budget = 0 then x
   else { x with credit := min (x.credit + (x.budget / 10 : Nat)) ((x.budget * x.burst : Nat) : Int) - uj }).takeBudget

/-- ENERGY_INTERVAL (R217, R219): each field's energy is apportioned, credits are settled, and the counts stand as STEP records
will take them (R224). -/
def execEnergyInterval (s : State) : Res :=
  .next <|
    let s := s.reach (s.acct.lastInterval + 100000)
    let (s, ch) := (List.range 6).foldl (fun (r : State × List (Nat × Nat)) f => r.1.apportion f r.2) (s, [])
    let s := s.parcels.foldl (fun s (p, x) =>
      if x.valid then s.modParcel p fun x => x.settleCredit (((ch.filter fun c => c.1 = p).map (·.2)).sum / 10 ^ 9) else s) s
    { s with
      facets := s.facets.map fun (f, x) => (f, { x with energyPrev := (x.hskm, x.hskv, x.hsks, x.hskp) })
      insts := s.insts.map fun (i, x) => (i, { x with last := x.counts })
      acct := { s.acct with lastInterval := s.now } }

end Sys2Proof.Machine
end

