-- ==== Sys2Proof/Machine/Power.lean ====
section
/-! DEFINITION. Rail telemetry, ceilings, issue gates and the rungs of the power ladder (spec/17). -/

namespace Sys2Proof.Machine

/-! ## Telemetry and package power (R426, R427, R431, R432) -/

/-- The mean of the newest samples of package power as (sum in mW, count). -/
def Power.mean (x : Power) (n : Nat) : Nat × Nat := ((x.samples.take n).sum, (x.samples.take n).length)

/-- A mean in W. -/
def Power.watts (x : Power) (n : Nat) : Nat := (x.mean n).1 / ((x.mean n).2 * 1000)

/-- One sample of a rail (R427): a missing one is replaced by the last good one, and the third in a row is a RAIL fault. -/
def State.sampleRail (s : State) (r : Nat) (v : Option (Nat × Nat)) : State :=
  let x := s.rail r
  let heal : FaultEntry → FaultEntry := fun e => if e.code = 6 ∧ e.object = r ∧ e.status = .active then { e with status := .causeClear } else e
  let s : State := match v with
    | some _ => { s with faults := { s.faults with table := s.faults.table.map fun (k, e) => (k, heal e) } }
    | none => if x.missing = 2 then s.recordFault 0x0006 .record r else s
  s.modRail r fun x =>
    let y := match v with
      | some (mv, ma) => { x with mv, ma, missing := 0 }
      | none => { x with missing := x.missing + 1 }
    let pj := 10 * y.mv * y.ma
    { y with uj := y.uj + BitVec.ofNat 64 ((y.pj + pj) / 10 ^ 6), pj := (y.pj + pj) % 10 ^ 6, interval := y.interval + pj }

/-- AVS_SAMPLE (R427, R432): the readings of the eleven rails, and the closure of the gates above 2,500 W. -/
def execAvsSample (readings : List (Option (Nat × Nat))) (s : State) : Res :=
  .next <|
    let s := s.reach (s.power.lastSample + 10000)
    let s := (List.range 11).foldl (fun s r => s.sampleRail r (readings.getD r none)) s
    let mw := ((List.range 11).map fun r => (s.rail r).mv * (s.rail r).ma).sum / 1000
    let s : State := { s with power := { s.power with lastSample := s.now, samples := (mw :: s.power.samples).take 10000 } }
    let (sum, n) := s.power.mean 10
    if 2_500_000 * n < sum then
      if s.gateHeld || s.power.reopenAt.isSome then s
      else
        let fresh := !s.power.gateRun
        let s := s.closeGates
        let s : State := { s with power := { s.power with
          gates := min 0xFFFFFFFF (s.power.gates + 1), reopenAt := some (s.now + 10000), gateRun := true } }
        if fresh then s.raise blkPWR 0xB0FF none 0 (sum / (n * 1000)) else s
    else if s.power.reopenAt.isSome then s
    else { s with power := { s.power with gateRun := false } }

/-- ISSUE_GATE_REOPEN (R432): a field's gate opens, 150 ns after the one before it, in field order; a reason that holds the gates keeps
it closed. -/
def execIssueGateReopen (field : Nat) (s : State) : Res :=
  .next <|
    match s.power.reopenAt with
    | none => s
    | some t =>
      if 6 ≤ field ∨ (s.gateHeld = false ∧ ((List.range field).any fun f => (s.pfield f).closed) = true) then s
      else
        let s := s.reach (t + 150 * field)
        let s := if s.gateHeld then s else s.openGate field
        if field = 5 then { s with power := { s.power with reopenAt := none } } else s

/-- THERMAL_CEILING_TICK (R428): the hottest sensor of each field moves its thermal ceiling by 10 mV. -/
def execThermalCeilingTick (temps : List Nat) (s : State) : Res :=
  .next <|
    let s := s.reach (s.power.lastTherm + 1_000_000)
    let s : State := { s with power := { s.power with lastTherm := s.now } }
    ((List.range 6).foldl (fun s f =>
      let t := temps.getD f 0
      s.modPField f fun x =>
        { x with
          temp := t
          thermal := if s.power.tjthr < t then max 450 (x.thermal - 10)
            else if t + 5 ≤ s.power.tjthr then min railCeiling (x.thermal + 10) else x.thermal }) s).refreshRails

/-- POWER_CAP_TICK (R431): the mean of 100 ms moves the cap ceilings by 10 mV. -/
def execPowerCapTick (s : State) : Res :=
  .next <|
    let s := s.reach (s.power.lastCap + 1_000_000)
    let s : State := { s with power := { s.power with lastCap := s.now } }
    let (sum, n) := s.power.mean 10000
    let cap := s.power.capW * 1000 * n
    let s :=
      if 98 * cap < 100 * sum then
        (List.range 6).foldl (fun s f => if (s.runningIn f).isEmpty then s
          else s.modPField f fun x => { x with cap := max 450 (x.cap - 10) }) s
      else if 100 * sum < 95 * cap ∨ n = 0 then
        (List.range 6).foldl (fun s f => s.modPField f fun x => { x with cap := min railCeiling (x.cap + 10) }) s
      else s
    s.refreshRails

/-! ## The ladder (R434 to R438) -/

/-- A storage command is fetchable. -/
def State.fetchable (s : State) : Bool := s.storage.ctrls.any fun e => e.2.sqs.any fun q => s.mayFetch e.1 q.1

/-- Every egress queue and transmitter is empty. -/
def Traffic.quiet (t : Traffic) : Bool :=
  t.queues.all (fun e => e.2.frames.isEmpty) && t.dflt.all (fun e => e.2.frames.isEmpty) && t.ctrl.all (fun e => e.2.frames.isEmpty) &&
  t.tx.all fun e => e.2.busy.isNone && e.2.preempted.isNone

/-- The entry conditions of Doze at one instant (R435); `me` is a command that does not count. -/
def State.dozeOk (s : State) (me : Option Waiter) : Bool :=
  s.idleOk &&
  s.chans.all (fun e => e.2.inProg.all fun p => match me with | some w => e.1 = w.ch && p.id = w.id | none => false) &&
  s.storage.cmds.isEmpty && !s.fetchable &&
  s.rma.qps.all (fun e => e.2.unacked.isEmpty && e.2.parked.isEmpty) &&
  s.traffic.quiet && s.parcels.all (fun e => !e.2.ckp.busy && e.2.ckp.phase ≠ .restoring) &&
  s.mesh.transit.isEmpty && s.hbm.stks.all fun e => e.2.writes.isEmpty && e.2.reads.isEmpty

/-- The entry conditions of Sleep and Dormant (R435). -/
def State.sleepOk (s : State) (r : Nat) (me : Option Waiter) : Bool :=
  s.dozeOk me && s.insts.all (fun e => e.1 = 0 || e.2.state = .free) && s.parcels.all (fun e => !e.2.valid) &&
  s.storage.nss.all (fun e => e.2.kind ≠ 2) && (s.pcie.link = .down || s.pcie.link = .l23) &&
  (r = 3 || s.loupe.flushDue.isNone && s.boot.activating.isNone && !s.boot.switching)

/-- Entry to a rung begins. -/
def State.startEntry (s : State) (r : Nat) : State :=
  { s with power := { s.power with entering := some r, enterAt := s.now, request := none } }

/-- DOZE_IDLE_EXPIRE (R435): the conditions of Doze have held for DOZE_IDLE. -/
def execDozeIdleExpire (s : State) : Res :=
  .next <|
    if s.power.rung ≠ 1 ∨ s.power.floor < 2 ∨ s.power.entering.isSome ∨ s.power.request.isSome ∨ s.power.exiting ∨ !s.dozeOk none then s
    else (s.reach (s.power.idleSince.getD 0 + 1000 * s.power.dozeIdle)).startEntry 2

/-- RUNG_ENTRY_START (R435): 1 ms after the reply, entry to Sleep or Dormant begins; a request whose conditions no longer hold
lapses (log entry 18). -/
def execRungEntryStart (s : State) : Res :=
  .next <|
    match s.power.request with
    | none => s
    | some (r, t) =>
      let s := s.reach (t + 1_000_000)
      if s.sleepOk r none then s.startEntry r
      else { s with power := { s.power with request := none, floor := s.power.prevFloor } }

/-- RUNG_ENTRY_COMPLETE (R434): the rung is reached. -/
def execRungEntryComplete (s : State) : Res :=
  .next <| match s.power.entering with
    | some r => if s.power.exiting then s else s.enterRung r
    | none => s

/-- A wake event counts at a rung (R435). -/
def countsAt (w : Wake) (r : Nat) : Bool :=
  match w with
  | .start => r = 1
  | .rungSet => r = 1
  | .alarm => r = 1 || r = 2
  | .command ch => r = 2 || (r = 3 && decide (ch < 2))
  | .frame v t => r = 2 && (v = 1 || v = 2 || v = 3 || v = 5 || (decide (1 ≤ t) && decide (t ≤ 9)) || t = 0xD)
  | .bar => r = 2
  | .drive => r = 2
  | .timer => r = 2
  | .wakeAt => r = 2 || r = 3 || r = 4
  | .pwrwake => r = 2 || r = 3 || r = 4
  | .perst => r = 3 || r = 4
  | .smbus => r = 4

/-- The device begins its exit to Run (R438): at a rung, or from an entry, which is abandoned. -/
def State.startExit (s : State) (w : Wake) : State :=
  let hit := countsAt w s.power.rung || (match s.power.entering with | some r => countsAt w r | none => false)
  if s.power.exiting || !hit then s
  else { s with power := { s.power with exiting := true, enterAt := s.now, request := none } }

/-- WAKE_EVENT (R435, R438): a wake event abandons entry or starts exit to Run. -/
def execWakeEvent (w : Wake) (s : State) : Res := .next (s.startExit w)

/-- WAKE_AT_EXPIRE (R435): the WAKE_AT time is reached. -/
def execWakeAtExpire (s : State) : Res :=
  .next <|
    if s.power.wakeAt = 0 then s
    else
      let s := s.reach s.power.wakeAt
      ({ s with power := { s.power with wakeAt := 0 } }).startExit .wakeAt

/-- PWRWAKE_N_ASSERT (R435, R487): the wake pin is asserted. -/
def execPwrwakeNAssert (s : State) : Res :=
  .next (({ s with pins := { s.pins with pwrwake := true } }).startExit .pwrwake)

/-- The exit that began completes (R434): time is the exit latency of the rung after the wake event. -/
def State.finishExit (s : State) : State :=
  let r := s.power.entering.getD s.power.rung
  (s.reach (s.power.enterAt + exitNs r)).exitRung

/-! ## Commands -/

/-- PWR_RUNG. -/
def State.rungWord (s : State) : BitVec 64 :=
  pack [(61, 3, s.power.rung), (58, 3, s.power.floor), (57, 1, bit (s.power.entering.isSome && !s.power.exiting)), (56, 1, bit s.power.pfw),
    (0, 32, s.power.dozeIdle)]
/-- PWR_PKG. -/
def State.pkgWord (s : State) : BitVec 64 :=
  pack [(48, 16, s.power.watts 10), (32, 16, s.power.watts 10000), (16, 16, s.power.capW)]
/-- PWR_FIELDf. -/
def State.fieldWord (s : State) (f : Nat) : BitVec 64 :=
  let r := s.rail f
  pack [(52, 12, r.set), (40, 12, r.mv), (30, 10, r.ma / 1000), (22, 8, (s.pfield f).temp), (10, 12, s.fieldCeil f)]

/-- PWR_RUNG_SET after its parameter checks: a floor of 0 to 2 holds from now on, one of 3 or 4 is a single request. -/
def pwrRungSetRun (s : State) (w : Waiter) (_ : Nat) (ps : List Byte) : Act :=
  let f := fieldAt ps 0 1
  if s.power.pfw then fails s 0xB005
  else
    let set (s : State) : State := { s with power := { s.power with dozeIdle := fieldAt ps 4 4, wakeAt := fieldAt ps 8 8 } }
    if f ≤ 2 then
      let s := set s
      let s : State := { s with power := { s.power with floor := f, prevFloor := f, request := none } }
      okay (if f = 0 ∧ s.power.rung = 1 then s.wake else s.settle)
    else if !s.sleepOk f (some w) then fails s 0xB002
    else
      let s := set s
      okay { s with power := { s.power with
        prevFloor := if s.power.floor ≤ 2 then s.power.floor else s.power.prevFloor, floor := f, request := some (f, s.now) } }

/-- PWR_RUNG_SET. -/
def pwrRungSetSpec : Spec :=
  { opcode := 0xB001, permits := managerOnly, plen := fixed 16
    fields := fun _ ps => [below ps 0 1 5, rsv ps 1 3, within ps 4 4 10 1000000], run := pwrRungSetRun }

/-- PWR_RUNG_SET (R435): sets the rung floor. -/
def execPwrRungSet (c : Cmd) (s : State) : Res := .next (s.command pwrRungSetSpec c)

/-- PWR_STATUS. -/
def pwrStatusSpec : Spec :=
  { opcode := 0xB002, permits := managerOnly, plen := fixed 0, fields := fun _ _ => []
    run := fun s _ _ _ =>
      gives s ((s.rungWord :: s.pkgWord :: (List.range 6).map s.fieldWord).flatMap fun w => leBytes 8 w.toNat) }

/-- PWR_STATUS (R434): reports power state. -/
def execPwrStatus (c : Cmd) (s : State) : Res := .next (s.command pwrStatusSpec c)

/-- PWR_CAP_SET. -/
def pwrCapSetSpec : Spec :=
  { opcode := 0xB003, permits := managerOnly, plen := fixed 8, fields := fun _ ps => [within ps 0 4 300 2400, rsv ps 4 4]
    run := fun s _ _ ps => okay { s with power := { s.power with capW := fieldAt ps 0 4 } } }

/-- PWR_CAP_SET (R431): sets the package power cap. -/
def execPwrCapSet (c : Cmd) (s : State) : Res := .next (s.command pwrCapSetSpec c)

/-- PWR_PACE_SET. -/
def pwrPaceSetSpec : Spec :=
  { opcode := 0xB004, permits := ownAt 0, plen := fixed 8
    fields := fun _ ps => [below ps 0 1 64, below ps 1 1 64, (2, decide (450 ≤ fieldAt ps 2 2)), rsv ps 4 4]
    run := fun s _ _ ps =>
      match s.theParcel ps with
      | none => fails s 0xB001
      | some p =>
        if s.parcelState p ≠ .running ∨ railCeiling < fieldAt ps 2 2 then fails s 0xB001
        else okay (s.modParcel p fun x => { x with vpace := fieldAt ps 2 2 }) }

/-- PWR_PACE_SET (R430): sets a parcel's VPACE. -/
def execPwrPaceSet (c : Cmd) (s : State) : Res := .next (s.command pwrPaceSetSpec c)

/-! ## Registers -/

/-- A write of PWR_RAILCTL (R488, R492): each field by its own range, SLKHI against SLKLO as it stands after the write. -/
def State.writeRailctl (s : State) (v : BitVec 64) : State :=
  let n := v.toNat
  let idle := bitsOf n 63 52
  let lo := bitsOf n 51 44
  let hi := bitsOf n 43 36
  let tj := bitsOf n 35 28
  let x := s.power
  ({ s with power := { x with
    idlev := if 450 ≤ idle ∧ idle ≤ 600 then idle else x.idlev, slklo := lo
    slkhi := if lo < hi then hi else x.slkhi, tjthr := if 60 ≤ tj ∧ tj ≤ 105 then tj else x.tjthr } }).refreshRails

/-- PWR_GATES. -/
def Power.gatesWord (x : Power) : BitVec 64 := pack [(32, 32, x.gates), (0, 32, x.wakedrop)]

end Sys2Proof.Machine
end

