-- ==== Sys2Proof/Machine/Loupe.lean ====
section
/-! DEFINITION. The loupe: records, staging, the device and instance logs, freezing and flash (spec/18). -/

namespace Sys2Proof.Machine

/-! ## Records (R450) -/

/-- The parameters of an event: P0, P1 and the rest, zero-filled to a multiple of 16. -/
def Event.params (e : Event) : List Byte := leBytes 8 e.p0 ++ leBytes 8 e.p1 ++ padMul 16 e.extra

/-- A record: header and parameters, in the fixed form where asked or where it would pass 256 bytes; `summary` is appended. -/
def recordBytes (seq : Nat) (e : Event) (fixed : Bool) (summary : List Byte) : List Byte :=
  let ps := e.params
  let fix := fixed || decide (240 < ps.length + summary.length)
  let ps' := (if fix then ps.take 16 else ps) ++ summary
  let (i, g) := match e.inst with | some (i, g) => (i, g.toNat) | none => (0, 0)
  let attr := severityOf e.code + 8 * bit e.inst.isSome + 16 * bit (!summary.isEmpty) + 32 * bit (fix && decide (16 < ps.length))
  leBytes 8 seq ++ leBytes 2 e.code ++ leBytes 1 attr ++ leBytes 1 i ++ leBytes 2 (16 + ps'.length) ++ leBytes 2 g ++ ps'

/-- The bytes of a staged record. -/
def Record.bytes (r : Record) : List Byte := recordBytes r.seq r.ev r.fixed []
/-- The severity of a staged record. -/
def Record.sev (r : Record) : Nat := severityOf r.ev.code

/-- A pad record that fills the rest of a segment or ring. -/
def padFill (n : Nat) : List Byte := zeros 12 ++ leBytes 2 n ++ zeros (n - 14)

/-- Adds 1 to LOG_DROP of a severity. -/
def State.logDropped (s : State) (sev : Nat) : State :=
  { s with loupe := { s.loupe with drop := s.loupe.drop.bumpSat sev (2 ^ 64 - 1) } }

/-- Counts a record against a freeze by its severity (R458). -/
def Freeze.count (f : Freeze) (sev : Nat) : Freeze :=
  { f with counts := (List.range 6).map fun k => let n := f.counts.getD k 0; if k + 1 = sev then min 0xFFFFFFFF (n + 1) else n }

/-! ## Instance logs (R456, R457) -/

/-- Bytes of an instance log's record area. -/
def ilogArea : Nat := 0x10000

/-- Writes record bytes into an instance's log, then its control block; a failed access removes the log (R456). -/
def State.ilogWrite (s : State) (i : Nat) (l : InstanceLog) (seq : Nat) (bs : List Byte) : State :=
  let base := l.ring + 64
  let wrap := decide (ilogArea < l.prod + bs.length)
  let put (s : State) (a : Nat) (b : List Byte) : Option State := match s.writeBy clsHost i a b with | (t, .ok _) => some t | (_, .error _) => none
  let p0 := if wrap then 0 else l.prod
  let full := decide (p0 + bs.length = ilogArea)
  let prod := if full then 0 else p0 + bs.length
  let wraps := l.wraps + bit wrap + bit full
  let done : Option State :=
    ((if wrap ∧ l.prod < ilogArea then put s (base + l.prod) (padFill (ilogArea - l.prod)) else some s).bind fun s =>
      put s (base + p0) bs).bind fun s =>
        put s l.ring (leBytes 8 prod ++ leBytes 8 wraps ++ leBytes 8 seq ++ zeros 40)
  match done with
  | some t => { t with loupe := { t.loupe with ilogs := t.loupe.ilogs.put i { l with prod, wraps, lastSeq := seq } } }
  | none => ({ s with loupe := { s.loupe with ilogs := Tbl.del s.loupe.ilogs i } }).raise blkLOG 0xC004 none i 1

/-- The bucket of a code with what it has gained since it was last counted (R457): a record is 10^9, and 16 of them its limit. -/
def InstanceLog.bucket (l : InstanceLog) (code now : Nat) : Bucket :=
  match l.buckets.find? fun b => b.code = code with
  | some b => { b with nano := min 16_000_000_000 (b.nano + (now - b.at_) * l.rate), at_ := now }
  | none => { code, nano := 16_000_000_000, at_ := now, suppressed := 0, used := 0 }

/-- Puts a bucket back, replacing the least recently used of 512. -/
def InstanceLog.putBucket (l : InstanceLog) (b : Bucket) : InstanceLog :=
  let bs := l.buckets.filter fun x => x.code ≠ b.code
  let bs := if bs.length < 512 then bs
    else match (bs.map (·.used)).min? with
      | some u => bs.filter fun x => x.used ≠ u
      | none => bs
  { l with buckets := bs ++ [b] }

/-- A record reaches the log of the instance it names (R456 to R458). -/
def State.toIlog (s : State) (r : Record) : State :=
  match r.ev.inst with
  | none => s
  | some (i, g) =>
    match s.loupe.ilogs.find i with
    | none => s
    | some l =>
      if s.genOf i ≠ g then s
      else match l.frozen with
        | some f => { s with loupe := { s.loupe with ilogs := s.loupe.ilogs.put i { l with frozen := some (f.count r.sev) } } }
        | none =>
          let b := l.bucket r.ev.code s.now
          if b.nano < 1_000_000_000 then
            { s with loupe := { s.loupe with
                ilogs := s.loupe.ilogs.put i (l.putBucket { b with suppressed := b.suppressed + 1, used := r.seq }) } }
          else
            let l' := l.putBucket { b with nano := b.nano - 1_000_000_000, suppressed := 0, used := r.seq }
            s.ilogWrite i l' r.seq
              (recordBytes r.seq r.ev r.fixed (if b.suppressed = 0 then [] else leBytes 8 b.suppressed ++ zeros 8))

/-! ## The device log (R454, R455, R463) -/

/-- Bytes of a segment. -/
def segSize : Nat := 0x10000

/-- A segment header. -/
def State.segHeader (s : State) (st : Nat) (g : Segment) : List Byte :=
  [0x46, 0x58, 0x44, 0x4C, 0x4F, 0x47, 0x44, 0x4C] ++ leBytes 1 st ++ leBytes 1 g.maxSev ++ leBytes 2 g.count ++
  leBytes 4 s.boot.epoch ++ leBytes 8 g.firstSeq ++ leBytes 8 g.lastSeq ++ leBytes 4 g.used ++ zeros 28

/-- The loupe writes in the device log. -/
def State.dlogPut (s : State) (d : DeviceLog) (off : Nat) (bs : List Byte) : Option State :=
  match s.writeBy clsHost 0 (d.addr + off) bs with | (t, .ok _) => some t | (_, .error _) => none

/-- Replaces the device log. -/
def State.setDlog (s : State) (d : Option DeviceLog) : State := { s with loupe := { s.loupe with dlog := d } }

/-- Closes the filling segment with a pad record and seals it. -/
def State.sealSegment (s : State) (d : DeviceLog) (k : Nat) (g : Segment) : Option (State × DeviceLog) :=
  let g' : Segment := { g with sealed := true, used := segSize }
  ((if g.used < segSize then s.dlogPut d (k * segSize + g.used) (padFill (segSize - g.used)) else some s).bind fun s =>
    s.dlogPut d (k * segSize) (s.segHeader 2 g')).map fun s => (s, { d with segs := d.segs.put k g', filling := none })

/-- The segment that a record of a severity takes when none is filling: the first free one, else the sealed one of lowest
FIRST_SEQ whose MAXSEV is at or below the severity (R455). -/
def DeviceLog.choose (d : DeviceLog) (sev : Nat) : Option Nat :=
  match d.segs.free 4096 with
  | some k => some k
  | none =>
    let c := d.segs.filter fun e => e.2.sealed && decide (e.2.maxSev ≤ sev)
    (c.map fun e => e.2.firstSeq).min?.bind fun m => (c.find? fun e => e.2.firstSeq = m).map (·.1)

/-- A record is written in a segment, then its header. -/
def State.fillSegment (s : State) (d : DeviceLog) (k : Nat) (g : Segment) (r : Record) : Option State :=
  let bs := r.bytes
  let g' : Segment :=
    { sealed := false, maxSev := max g.maxSev r.sev, count := g.count + 1, firstSeq := if g.count = 0 then r.seq else g.firstSeq
      lastSeq := r.seq, used := g.used + bs.length }
  ((s.dlogPut d (k * segSize + g.used) bs).bind fun s => s.dlogPut d (k * segSize) (s.segHeader 1 g')).map fun s =>
    s.setDlog (some { d with segs := d.segs.put k g', filling := some k, lastSeq := r.seq })

/-- A record enters the device log, or is dropped where no segment qualifies; none when an access fails (R455). -/
def State.dlogWrite (s : State) (d : DeviceLog) (r : Record) : Option State :=
  let fresh : Segment := { sealed := false, maxSev := 0, count := 0, firstSeq := r.seq, lastSeq := r.seq, used := 64 }
  let cur : Option (Nat × Segment) := d.filling.bind fun k => (d.segs.find k).map fun g => (k, g)
  let next (s : State) (d : DeviceLog) : Option State :=
    match d.choose r.sev with
    | some k => s.fillSegment d k fresh r
    | none => some ((s.setDlog (some d)).logDropped r.sev)
  match cur with
  | some (k, g) =>
    if g.used + r.bytes.length ≤ segSize then s.fillSegment d k g r
    else (s.sealSegment d k g).bind fun (s, d) => next s d
  | none => next s d

/-! ## Staging (R452, R453) -/

/-- Bytes of the staging buffer. -/
def stageSize : Nat := 0x20_0000

/-- Flood mode begins above 1.5 MiB of undrained records and ends below 1 MiB. -/
def State.floodCheck (s : State) : State :=
  let n := ((s.loupe.staging.filter fun r => !r.drained).map fun r => r.bytes.length).sum
  { s with loupe := { s.loupe with flood := if 0x18_0000 < n then true else if n < 0x10_0000 then false else s.loupe.flood } }

/-- The device log takes records. -/
def Loupe.draining (x : Loupe) : Bool := x.dlog.isSome && !x.dlogErr

/-- The staged records after a change to each (R453). -/
def State.restage (s : State) (g : Record → Record) : State :=
  { s with loupe := { s.loupe with staging := s.loupe.staging.map g } }

/-- A staged record drains (R454 to R458): to the log of its instance and to the device log, each once. -/
def State.drainRecord (s : State) (r : Record) : State :=
  let s := if r.copied then s else s.toIlog r
  let (s, done) : State × Bool :=
    if r.drained || !s.loupe.draining then (s, r.drained)
    else match s.loupe.dlog with
      | none => (s, false)
      | some d => match d.frozen with
        | some f => (s.setDlog (some { d with frozen := some (f.count r.sev) }), true)
        | none => match s.dlogWrite d r with
          | some t => (t, true)
          | none => (({ s with loupe := { s.loupe with dlogErr := true } }).raise blkLOG 0xC103 none 2 d.addr, false)
  (s.restage fun x => if x.seq = r.seq then { x with drained := done, copied := true } else x).floodCheck

/-- The oldest staged record that has somewhere to go. -/
def Loupe.nextDrain (x : Loupe) : Option Record := x.staging.find? fun r => !r.copied || (x.draining && !r.drained)

/-- LOG_DRAIN (R454 to R457): the oldest staged record drains to the device log and to its instance log. -/
def execLogDrain (s : State) : Res := .next (match s.loupe.nextDrain with | some r => s.drainRecord r | none => s)

/-- Drains records until none has anywhere to go. -/
def State.drainAll (s : State) : Nat → State
  | 0 => s
  | n + 1 => match s.loupe.nextDrain with
    | some r => State.drainAll (s.drainRecord r) n
    | none => s

/-- The ring overwrites its oldest records; an undrained one is lost to the device log (R453). -/
def State.evictStaged (s : State) : Nat → State
  | 0 => s
  | n + 1 =>
    if (s.loupe.staging.map fun r => r.bytes.length).sum ≤ stageSize then s
    else match s.loupe.staging with
      | [] => s
      | r :: t =>
        let s := if r.copied then s else s.toIlog r
        let s : State := { s with loupe := { s.loupe with staging := t } }
        let s := if r.drained then s
          else
            let s := s.logDropped r.sev
            { s with loupe := { s.loupe with lost := match s.loupe.lost with | some (a, _) => some (a, r.seq) | none => some (r.seq, r.seq) } }
        State.evictStaged s n

/-- A record of severity CRITICAL or ALARM makes a flush due (R460). -/
def State.flushFor (s : State) (sev : Nat) : State :=
  if sev < 5 ∨ s.loupe.flushDue.isSome then s
  else
    let at_ := match s.loupe.lastFlush with
      | some t => if s.now < t + 10_000_000_000 then t + 10_000_000_000 else s.now
      | none => s.now
    { s with loupe := { s.loupe with flushDue := some at_ } }

/-- A fault entry notes the SEQ of its FAULT record (R474). -/
def State.noteFault (s : State) (e : Event) (seq : Nat) : State :=
  if e.code ≠ 0xD009 then s
  else { s with faults := { s.faults with table := s.faults.table.map fun (k, x) =>
    (k, if x.code = e.p0 ∧ x.object = e.p1 then
      { x with firstSeq := match x.firstSeq with | some q => some q | none => some seq, lastSeq := seq } else x) } }

/-- In fall-back a record goes to the ring of 256 (R462): a free slot, else the oldest slot of severity at or below its own. -/
def State.stageFallback (s : State) (e : Event) : State :=
  let r : Record := { seq := s.loupe.seq, ev := e, fixed := true, drained := true, copied := true, inFlash := false }
  let c := s.loupe.fbRing.filter fun x => decide (x.2.sev ≤ r.sev)
  let slot := match s.loupe.fbRing.free 256 with
    | some k => some k
    | none => (c.map fun x => x.2.seq).min?.bind fun m => (c.find? fun x => x.2.seq = m).map (·.1)
  let s : State := { s with loupe := { s.loupe with seq := s.loupe.seq + 1 } }
  match slot with
  | some k => { s with loupe := { s.loupe with fbRing := s.loupe.fbRing.put k r, fbLast := k } }
  | none => s.logDropped r.sev

/-- An event becomes a staged record (R451 to R453). -/
def State.stageEvent (s : State) (e : Event) : State :=
  let seq := s.loupe.seq
  let s := (s.noteFault e seq).flushFor (severityOf e.code)
  if s.loupe.fallback then s.stageFallback e
  else
    let r : Record := { seq, ev := e, fixed := s.loupe.flood, drained := false, copied := e.inst.isNone, inFlash := false }
    let s : State := { s with loupe := { s.loupe with staging := s.loupe.staging ++ [r], seq := seq + 1 } }
    let s := (s.evictStaged s.loupe.staging.length).floodCheck
    match s.loupe.lost with
    | some (a, b) =>
      if e.code = 0xC104 then s else ({ s with loupe := { s.loupe with lost := none } }).raise blkLOG 0xC104 none a b
    | none => s

/-- The freeze of a log: 0 to 63 an instance's, 0xFF the device log's. -/
def Loupe.freezeOf (x : Loupe) (target : Nat) : Option Freeze :=
  if target = 0xFF then x.dlog.bind (·.frozen) else (x.ilogs.find target).bind (·.frozen)

/-- Sets the freeze of a log. -/
def State.setFreeze (s : State) (target : Nat) (f : Option Freeze) : State :=
  if target = 0xFF then s.setDlog (s.loupe.dlog.map fun d => { d with frozen := f })
  else match s.loupe.ilogs.find target with
    | some l => { s with loupe := { s.loupe with ilogs := s.loupe.ilogs.put target { l with frozen := f } } }
    | none => s

/-- FREEZE_END is taken (R458): what was staged before it is counted against the freeze, and the log resumes with it. A log that
is gone has none. -/
def State.stageThaw (s : State) (e : Event) : State :=
  let s := s.drainAll (s.loupe.staging.length + 1)
  match s.loupe.freezeOf e.p0 with
  | none => s
  | some f =>
    let b := (List.range 6).flatMap (fun k => leBytes 4 (f.counts.getD k 0)) ++ leBytes 8 f.seq
    (s.setFreeze e.p0 none).stageEvent { e with p0 := leNat (b.take 8), p1 := leNat (slice b 8 8), extra := b.drop 16 }

/-- The arbiter takes from the queue of a block (R452): its OVERFLOW record first, else its oldest event. -/
def State.takeFrom (s : State) (b : Nat) : State :=
  let q := s.inQueue b
  let s : State := { s with loupe := { s.loupe with rr := (b + 1) % 16 } }
  let put (s : State) (q : InQueue) : State := { s with loupe := { s.loupe with queues := s.loupe.queues.put b q } }
  if q.pending ≠ 0 then
    (put s { q with pending := 0 }).stageEvent { code := 0xC100, inst := none, p0 := b, p1 := q.pending, extra := [] }
  else match q.events with
    | [] => s
    | e :: t =>
      let s := put s { q with events := t }
      if e.code = 0xC102 then s.stageThaw e else s.stageEvent e

/-- The next block in round robin with something to take. -/
def State.nextBlock (s : State) : Option Nat :=
  ((List.range 16).map fun k => (s.loupe.rr + k) % 16).find? fun b => !(s.inQueue b).events.isEmpty || (s.inQueue b).pending ≠ 0

/-- EVENT_STAGE (R452): the arbiter takes one event. -/
def execEventStage (s : State) : Res := .next (match s.nextBlock with | some b => s.takeFrom b | none => s)

/-- The arbiter takes every event that waits. -/
def State.stageAll (s : State) : Nat → State
  | 0 => s
  | n + 1 => match s.nextBlock with
    | some b => State.stageAll (s.takeFrom b) n
    | none => s

/-- TIME_MARK (R451): the mark of every MARK_MS. -/
def execTimeMark (s : State) : Res :=
  .next <|
    if s.boot.phase ≠ .running then s
    else
      let s := (s.reach (s.loupe.lastMark + 1_000_000 * s.loupe.markMs)).timeMark
      { s with loupe := { s.loupe with lastMark := s.now } }

/-! ## Flash (R459 to R461) -/

/-- A byte of the boot flash. -/
def Boot.flashGet (x : Boot) (a : Nat) : Byte := ~~~(Memory.get x.flash a)
/-- Bytes of the boot flash. -/
def Boot.flashRead (x : Boot) (a n : Nat) : List Byte := (Memory.read x.flash a n).map fun b => ~~~b
/-- Erases a range of the boot flash. -/
def Boot.flashErase (x : Boot) (a n : Nat) : Boot := { x with flash := Memory.erase (fun k => decide (a ≤ k ∧ k < a + n)) x.flash }
/-- Writes bytes in the boot flash. -/
def Boot.flashWrite (x : Boot) (a : Nat) (bs : List Byte) : Boot := { x with flash := Memory.write x.flash a (bs.map fun b => ~~~b) }

/-- Start of the log region, bytes of a flash segment, and segments of the region. -/
def logRegion : Nat := 0x800_0000
def flashSegSize : Nat := 0x10_0000
def Boot.flashSegs (x : Boot) : Nat := (x.flashSize - logRegion) / flashSegSize

/-- The newest records whose bytes fit in a flash segment, oldest first. -/
def newestFit : List Record → Nat → List Record → List Record
  | [], _, acc => acc
  | r :: t, room, acc => if r.bytes.length ≤ room then newestFit t (room - r.bytes.length) (r :: acc) else acc

/-- What a flush writes: the records, or in fall-back the ring (R459, R462). -/
def Loupe.toFlush (x : Loupe) : List Record :=
  if x.fallback then x.fbRing.map (·.2)
  else newestFit (x.staging.filter fun r => !r.inFlash).reverse (flashSegSize - 64) []

/-- A flash segment of records: its header with the CRC, then the records. -/
def flashSegment (reason epoch first last : Nat) (bs : List Byte) : List Byte :=
  let h (crc : Nat) : List Byte :=
    [0x46, 0x58, 0x44, 0x4C, 0x4F, 0x47, 0x46, 0x4C] ++ leBytes 1 reason ++ zeros 3 ++ leBytes 4 epoch ++ leBytes 8 first ++
    leBytes 8 last ++ leBytes 4 bs.length ++ leBytes 4 crc ++ zeros 24
  h (crc32c (h 0 ++ bs)) ++ bs

/-- A flush (R459, R460): the segment is written and the next one erased, or a failed write is recorded and that segment passed
over. Answers the first and last SEQ written. -/
def State.flush (s : State) (reason : Nat) (ok : Bool) : State × Option (Nat × Nat) :=
  let rs := s.loupe.toFlush
  match (rs.map (·.seq)).min?, (rs.map (·.seq)).max? with
  | some first, some last =>
    let k := s.loupe.flashSeg
    let n := max 1 s.boot.flashSegs
    let a := logRegion + k * flashSegSize
    let next := (k + 1) % n
    let s : State := { s with loupe := { s.loupe with flashSeg := next, flashErr := !ok } }
    if !ok then (s.raise blkLOG 0xB003 none k 0, none)
    else
      let bs := rs.flatMap Record.bytes
      let b := (s.boot.flashErase a flashSegSize).flashWrite a (flashSegment reason s.boot.epoch first last bs)
      let s := s.restage fun r => if rs.any (fun x => x.seq = r.seq) then { r with inFlash := true } else r
      ({ s with boot := b.flashErase (logRegion + next * flashSegSize) flashSegSize }, some (first, last))
  | _, _ => (s, none)

/-- FLASH_FLUSH (R460, R461): the flush of PFW_N, or one that a severe record made due. -/
def execFlashFlush (ok : Bool) (s : State) : Res :=
  .next <|
    if s.loupe.flushPfw then (({ s with loupe := { s.loupe with flushPfw := false } }).flush 2 ok).1
    else match s.loupe.flushDue with
      | none => s
      | some t =>
        let s := s.reach t
        (({ s with loupe := { s.loupe with flushDue := none, lastFlush := some s.now } }).flush 1 ok).1

/-! ## Commands -/

/-- LOG_DLOG_SET after its parameter checks (R454). -/
def logDlogSetRun (s : State) (_ : Waiter) (_ : Nat) (ps : List Byte) : Act :=
  let a := fieldAt ps 0 8
  let n := fieldAt ps 8 8
  if s.loupe.fallback then fails s 0xC006
  else if (s.loupe.freezeOf 0xFF).isSome then fails s 0xC003
  else if n = 0 then okay { s with loupe := { s.loupe with dlog := none, dlogErr := false } }
  else if n ≠ 0x1000_0000 ∨ a % granule ≠ 0 ∨ !s.inHbm 0 a n then fails s 0xC001
  else
    let d : DeviceLog := { addr := a, segs := [], filling := none, lastSeq := 0, frozen := none }
    let blank : Segment := { sealed := false, maxSev := 0, count := 0, firstSeq := 0, lastSeq := 0, used := 64 }
    let s := (List.range 4096).foldl (fun s k => (s.dlogPut d (k * segSize) (s.segHeader 0 blank)).getD s) s
    let s := s.restage fun r => { r with drained := false }
    okay (({ s with loupe := { s.loupe with dlog := some d, dlogErr := false } }).floodCheck)

/-- LOG_DLOG_SET. -/
def logDlogSetSpec : Spec :=
  { opcode := 0xC001, permits := managerOnly, plen := fixed 16, fields := fun _ _ => [], run := logDlogSetRun }

/-- LOG_DLOG_SET (R454): places the device log. -/
def execLogDlogSet (c : Cmd) (s : State) : Res := .next (s.command logDlogSetSpec c)

/-- LOG_ILOG_SET after its parameter checks (R456). -/
def logIlogSetRun (s : State) (_ : Waiter) (_ : Nat) (ps : List Byte) : Act :=
  let i := fieldAt ps 0 1
  let ring := fieldAt ps 8 8
  if s.loupe.fallback then fails s 0xC006
  else if (s.loupe.freezeOf i).isSome then fails s 0xC003
  else if ring = 0 then okay { s with loupe := { s.loupe with ilogs := Tbl.del s.loupe.ilogs i } }
  else if ring % 4096 ≠ 0 ∨ !s.inHbm i ring (64 + ilogArea) then fails s 0xC001
  else match s.writeBy clsHost i ring (zeros 64) with
    | (s, .error _) => fails s 0xC001
    | (s, .ok _) =>
      let x : InstanceLog := { ring, prod := 0, wraps := 0, lastSeq := 0, rate := fieldAt ps 2 2, buckets := [], frozen := none }
      okay { s with loupe := { s.loupe with ilogs := s.loupe.ilogs.put i x } }

/-- LOG_ILOG_SET. -/
def logIlogSetSpec : Spec :=
  { opcode := 0xC002, permits := ownAt 0, plen := fixed 16
    fields := fun _ ps => [below ps 0 1 64, rsv ps 1 1, within ps 2 2 1 1000, rsv ps 4 4], run := logIlogSetRun }

/-- LOG_ILOG_SET (R456): sets or removes an instance log. -/
def execLogIlogSet (c : Cmd) (s : State) : Res := .next (s.command logIlogSetSpec c)

/-- A log thaws (R458): its FREEZE_END is on the way, and a TIME_MARK follows (R451). -/
def State.thaw (s : State) (target : Nat) (f : Freeze) : State :=
  ((s.setFreeze target (some { f with until_ := 0 })).raise blkLOG 0xC102 (if target = 0xFF then none else some target) target 0).timeMark

/-- LOG_FREEZE after its parameter checks. -/
def logFreezeRun (s : State) (_ : Waiter) (_ : Nat) (ps : List Byte) : Act :=
  let t := fieldAt ps 0 1
  let last := if t = 0xFF then s.loupe.dlog.map (·.lastSeq) else (s.loupe.ilogs.find t).map (·.lastSeq)
  if s.loupe.fallback then fails s 0xC006
  else match last with
    | none => fails s 0xC002
    | some q =>
      match s.loupe.freezeOf t with
      | some f =>
        if fieldAt ps 1 1 = 1 ∨ f.until_ = 0 then fails s 0xC003 else gives (s.thaw t f) (leBytes 8 q)
      | none =>
        if fieldAt ps 1 1 = 0 then fails s 0xC003
        else gives (s.setFreeze t (some { seq := q, counts := [], until_ := s.now + 1_000_000 * fieldAt ps 2 2 })) (leBytes 8 q)

/-- LOG_FREEZE. -/
def logFreezeSpec : Spec :=
  { opcode := 0xC003, permits := ownAt 0, plen := fixed 8
    fields := fun _ ps =>
      [(0, decide (fieldAt ps 0 1 < 64 ∨ fieldAt ps 0 1 = 0xFF)), below ps 1 1 2, within ps 2 2 1 10000, rsv ps 4 4]
    run := logFreezeRun }

/-- LOG_FREEZE (R458): freezes or thaws a log. -/
def execLogFreeze (c : Cmd) (s : State) : Res := .next (s.command logFreezeSpec c)

/-- FREEZE_LIMIT_EXPIRE (R458): a frozen log thaws by itself. -/
def execFreezeLimitExpire (target : Nat) (s : State) : Res :=
  .next <| match s.loupe.freezeOf target with
    | some f => if f.until_ = 0 then s else (s.reach f.until_).thaw target f
    | none => s

/-- LOG_FLUSH. A flush that wrote nothing reports free values (log entry 7). -/
def logFlushSpec : Spec :=
  { opcode := 0xC004, permits := managerOnly, plen := fixed 0, fields := fun _ _ => []
    run := fun s _ _ _ =>
      let (bad, s) := s.mayFail
      if bad && !s.loupe.toFlush.isEmpty then fails (s.flush 3 false).1 0xC005
      else match s.flush 3 true with
        | (s, some (a, b)) => gives s (leBytes 8 a ++ leBytes 8 b)
        | (s, none) =>
          let (a, s) := s.takeFree
          let (b, s) := s.takeFree
          gives s (leBytes 8 a ++ leBytes 8 b) }

/-- LOG_FLUSH (R460): flushes records to flash. -/
def execLogFlush (c : Cmd) (s : State) : Res := .next (s.command logFlushSpec c)

/-- A flash segment passes its CRC (R459). -/
def flashSegOk (b : List Byte) : Bool :=
  let n := fieldAt b 32 4
  b.take 8 = [0x46, 0x58, 0x44, 0x4C, 0x4F, 0x47, 0x46, 0x4C] && decide (n ≤ flashSegSize - 64) &&
  decide (crc32c (b.take 36 ++ zeros 4 ++ slice b 40 (24 + n)) = fieldAt b 36 4)

/-- LOG_FLASH_READ. -/
def logFlashReadSpec : Spec :=
  { opcode := 0xC005, permits := managerOnly, plen := fixed 16
    fields := fun _ ps => [rsv ps 4 4, address ps 8 4096]
    run := fun s _ _ ps =>
      let k := fieldAt ps 0 4
      let b := s.boot.flashRead (logRegion + k * flashSegSize) flashSegSize
      let (bad, s) := s.mayFail
      if s.boot.flashSegs ≤ k then fails s 0xC004
      else if bad then fails s 0xC005
      else if !flashSegOk b then fails s 0xC004
      else
        let (s, ok) := s.cmdWrite blkLOG 0 (fieldAt ps 8 8) k b
        if ok then okay s else fails s 0xC001 }

/-- LOG_FLASH_READ (R459): copies a flash segment to memory. -/
def execLogFlashRead (c : Cmd) (s : State) : Res := .next (s.command logFlashReadSpec c)

/-! ## Registers -/

/-- LOG_OVF_READ (R452): the count of a block goes out and is cleared. -/
def execLogOvfRead (blk : Nat) (s : State) : Res :=
  .next <| if 16 ≤ blk then s
    else
      let t := s.emit (.readback (BitVec.ofNat 64 (s.loupe.ovf.getD blk 0)))
      { t with loupe := { t.loupe with ovf := Tbl.del t.loupe.ovf blk } }

/-- LOG_STATUS. -/
def State.logStatus (s : State) : BitVec 64 :=
  let x := s.loupe
  pack [(63, 1, bit x.dlog.isSome), (62, 1, bit x.dlogErr), (61, 1, bit x.fallback), (60, 1, bit (x.freezeOf 0xFF).isSome),
    (59, 1, bit x.flood), (58, 1, bit x.flashErr), (0, 32, x.flashSeg)]

end Sys2Proof.Machine
end

