-- ==== Sys2Proof/Machine/Firmware.lean ====
section
/-! DEFINITION. Power-on, boot, the power-fail warning, firmware update and attestation (spec/17, spec/20). -/

namespace Sys2Proof.Machine

/-! ## Images (R440, R442) -/

/-- Bytes of a slot, and where a slot starts in the boot flash. -/
def slotSize : Nat := 0x200_0000
def slotBase (k : Nat) : Nat := if k = 0 then 0x10_0000 else 0x210_0000

/-- What the header of an accepted image says. -/
structure Image where
  version  : BitVec 32
  seclevel : Nat
  hash     : List Byte
  deriving DecidableEq, Repr

/-- The image of a slot, if the mask ROM accepts it (R442). -/
def Boot.image (x : Boot) (k : Nat) : Option Image :=
  let h := x.flashRead (slotBase k) 128
  let len := fieldAt h 16 4
  let sigLen := fieldAt h 20 4
  if h.take 8 ≠ [0x46, 0x58, 0x44, 0x46, 0x57, 0x49, 0x4D, 0x47] ∨ 33030144 < len ∨ sigLen < 1 ∨ 131072 < sigLen ∨
      slotSize < 128 + len + sigLen then none
  else if sha256 (slice h 64 60) ≠ Config.vendorKeyHash then none
  else if hssVerify (slice h 64 60) h (x.flashRead (slotBase k + 128 + len) sigLen) ≠ some true then none
  else if sha256 (x.flashRead (slotBase k + 128) len) ≠ slice h 32 32 then none
  else if fieldAt h 12 4 < x.cnt0 then none
  else some { version := BitVec.ofNat 32 (fieldAt h 8 4), seclevel := fieldAt h 12 4, hash := slice h 32 32 }

/-- The slot that does not run. -/
def Boot.idleSlot (x : Boot) : Nat := if x.slot = 0 then 1 else 0

/-- The image of a slot runs. -/
def Boot.runs (x : Boot) (k : Nat) (i : Image) : Boot :=
  { x with slot := k, version := i.version, seclevel := i.seclevel, imageHash := i.hash }

/-- The slots in the order in which the mask ROM tries them (R442). -/
def Boot.order (x : Boot) : List Nat :=
  match x.committed with
  | some k => if k = 0 then [0, 1] else [1, 0]
  | none => [0, 1]

/-- The image that boots: the first accepted one, with its slot. -/
def Boot.choose (x : Boot) : Option (Nat × Image) := x.order.findSome? fun k => (x.image k).map fun i => (k, i)

/-! ## Reset (R475, R487) -/

/-- The outputs at their reset levels: enables, drive resets, WAKE_N and the reset of the management PHY (R485, R480). -/
def State.pinsReset (s : State) : State :=
  let s := (((s.setEn 3 false).setEn 2 false).setEn 1 false).setEn 0 true
  let s := (List.range 8).foldl (fun s p =>
    if s.pins.rpPerst.getD p true then s else s.emit (.pin ("RP" ++ toString p ++ "_PERST_N") false)) s
  let s := if s.pcie.wakeN then s.emit (.pin "WAKE_N" true) else s
  if s.pins.phyRst then s else s.emit (.pin "MGMT_PHY_RST_N" false)

/-- Every state is lost but the flash contents and counters, and the levels of the inputs (R487). -/
def State.lose (s : State) : State :=
  let s := s.pinsReset
  let z := State.reset
  { z with
    emitted := s.emitted, free := s.free, pending := s.pending
    boot := { z.boot with
      flash := s.boot.flash, flashSize := s.boot.flashSize, cnt0 := s.boot.cnt0, cnt1 := s.boot.cnt1, cnt2 := s.boot.cnt2
      committed := s.boot.committed }
    power := { z.power with pfw := s.power.pfw }
    pins := { s.pins with en := 1, pg := s.pins.pg &&& 1, enAt := [], rpPerst := [], phyRst := true, porst := true, vioAt := 0, lastPps := 0 } }

/-- PORST_N_ASSERT (R487): a power-on reset. -/
def execPorstNAssert (s : State) : Res := .next s.lose

/-- Boot is to restart at the mask ROM (R440, R475): the state is that after power-on reset, but for local time, the staging buffer
and its SEQ, the flash counters and the straps. -/
def State.restartBoot (s : State) : State :=
  let z := s.lose
  { z with
    now := s.now
    loupe := { z.loupe with staging := s.loupe.staging, seq := s.loupe.seq }
    boot := { z.boot with resetDue := true }
    pins := { z.pins with porst := false } }

/-- A reset that a command asked for follows its reply. -/
def State.resetIfDue (s : State) : State := if s.boot.resetDue ∧ s.boot.phase ≠ .reset then s.restartBoot else s

/-! ## Boot (R439 to R445, R485) -/

/-- Boot stops in recovery (R440). -/
def State.recover (s : State) (reason : Nat) : State := { s with boot := { s.boot with phase := .recovery, reason } }

/-- Boot from the mask ROM to the release of VGRD. -/
def State.bootFrom (s : State) (b : BootInput) : State :=
  let s : State := { s with boot := { s.boot with resetDue := false } }
  if !b.flashOk then s.recover 5
  else match s.boot.choose with
    | none => s.recover 1
    | some (k, i) =>
      let s : State := { s with boot := s.boot.runs k i }
      if !b.epochOk then s.recover 4
      else
        let s : State := { s with boot := { s.boot with cnt1 := s.boot.cnt1 + 1, epoch := s.boot.cnt1 + 1 } }
        if !b.pufOk then s.recover 3
        else if !b.trimsOk then s.recover 2
        else
          let s : State := { s with boot := { s.boot with phase := .starting, plan := (b.dieFail, b.stackFail) } }
          (s.setRail 6 750).setEn 2 true

/-- PORST_N_DEASSERT (R439): boot begins, after a power-on reset with the straps sampled (R480), or again at the mask ROM. -/
def execPorstNDeassert (b : BootInput) (s : State) : Res :=
  .next <|
    if s.boot.phase ≠ .reset then s
    else if s.pins.porst then
      let t : State := { s with now := 0, pins := { s.pins with porst := false, smbAddr := b.smbAddr % 4, busSel := b.busSel } }
      t.bootFrom b
    else s.bootFrom b

/-- The link of the endpoint begins to train when PERST_N and its clock allow it. -/
def State.trainEndpoint (s : State) : State :=
  if s.pcie.link = .down ∧ s.pins.peClk ∧ !s.pins.perst then { s with pcie := { s.pcie with link := .training } } else s

/-- UCIe modules are trained and the endpoint is configured (R21, R439); a die whose module failed is Failed, and HG stops the
device (R466). -/
def State.bootDies (s : State) : State :=
  let s := s.boot.plan.1.foldl (fun s d => s.stopDie 0x0003 d) s
  ({ s with pcie := { s.pcie with configured := true } }).trainEndpoint

/-- Stacks are initialised (R439): every one is ready but those that failed, or whose die did. -/
def State.bootStacks (s : State) : State :=
  (List.range 32).foldl (fun s k =>
    if s.boot.plan.2.contains k then
      if (s.stack k).state = .failed then s else (s.failStack k).recordFault 0x000A .stack k
    else if (s.stack k).state = .failed then s
    else s.modStack k fun x => x.serve s.now) s

/-- One setting of the configuration region (R441): out of range, it is skipped and recorded. -/
def State.applyConfig (s : State) (e : Nat × BitVec 64) : State :=
  let n := e.2.toNat
  if e.1 < 16 then
    if bitsOf n 62 61 = 3 ∨ bitsOf n 60 59 = 3 ∨ bitsOf n 51 48 < 1 ∨ 8 < bitsOf n 51 48 ∨ bitsOf n 47 32 < 1518 ∨ 9728 < bitsOf n 47 32 ∨
        2 ≤ bitsOf n 31 30 ∨ bitsOf n 56 52 ≠ 0 ∨ bitsOf n 29 12 ≠ 0 then s.raise blkBZL 0xB008 none e.1 n
    else s.writePort e.1 e.2
  else if e.1 = 16 ∧ n < 2 ^ 32 then { s with eth := { s.eth with mgmtIp4 := e.2 } }
  else if e.1 = 17 then { s with eth := { s.eth with mgmtIp6a := e.2 } }
  else if e.1 = 18 then { s with eth := { s.eth with mgmtIp6b := e.2 } }
  else s.raise blkBZL 0xB008 none e.1 n

/-- The configuration region is applied; one that is erased holds no setting. -/
def State.bootConfig (s : State) : State :=
  let region := s.boot.flashRead 0x2_0000 0x1_0000
  if region.all fun b => b = 0xFF then s else (Config.configEntries region).foldl State.applyConfig s

/-- Root ports of drives that are present leave reset and train (R439, R480, R485). -/
def State.bootDrives (s : State) : State :=
  (List.range 8).foldl (fun s p =>
    if s.pins.prsnt.getD p false then s
    else
      let s := ({ s with pins := { s.pins with rpPerst := s.pins.rpPerst.put p false } }).emit (.pin ("RP" ++ toString p ++ "_PERST_N") true)
      (s.modRoot p fun r => { r with state := .training }).modDrive p fun d => { d with state := .training }) s

/-- Power-on ends (R439): stacks, field rails, the configuration region; then instance 0 is Active, the rung is Run and the
floor is 1. -/
def State.endBoot (s : State) : State :=
  let s := s.bootStacks
  let s := (List.range 6).foldl (fun s f =>
    (s.modPField f fun x => { x with thermal := railCeiling, cap := railCeiling }).fieldOn f) s
  let s : State := { s with boot := { s.boot with phase := .running, endOfBoot := s.now, plan := ([], []) } }
  let s := s.bootConfig.bootDrives.placeMap0
  let s := s.modInst 0 fun i => { i with state := .active }
  let s : State := { s with
    cipher := { s.cipher with keys := true }
    power := { s.power with rung := 0, floor := 1, prevFloor := 1, lastSample := s.now, lastTherm := s.now, lastCap := s.now }
    acct := { s.acct with lastInterval := s.now, lastPeriod := s.now }
    loupe := { s.loupe with lastMark := s.now }
    fabric := { s.fabric with masterAt := some s.now } }
  ((s.raise blkBZL 0xB100 none s.boot.epoch s.boot.version.toNat).timeMark).settle

/-- PG_ASSERT (R485, R486): a power good asserts: group 0 IO, 1 STK, 2 GRD, 3 TAB. While boot waits for it, the next rail follows. -/
def execPgAssert (grp : Nat) (s : State) : Res :=
  .next <|
    if 4 ≤ grp ∨ s.pins.pg.getLsbD grp then s
    else
      let s : State := { s with pins := { s.pins with
        pg := s.pins.pg ||| BitVec.ofNat 4 (2 ^ grp), vioAt := if grp = 0 then s.now else s.pins.vioAt } }
      let s := if grp = 2 ∧ s.pins.en.getLsbD 2 then s.modRail 6 fun x => { x with armed := true, onAt := some s.now } else s
      if s.boot.phase ≠ .starting ∨ !s.pins.en.getLsbD grp then s
      else if grp = 2 then s.bootDies.setEn 1 true
      else if grp = 1 then s.setEn 3 true
      else if grp = 3 then s.endBoot
      else s

/-- PG_TIMEOUT (R486): a power good does not assert within 1 ms of its enable's release, which is the voltage alarm. -/
def execPgTimeout (grp : Nat) (s : State) : Res :=
  .next <|
    if 4 ≤ grp ∨ s.pins.pg.getLsbD grp ∨ !s.pins.en.getLsbD grp then s
    else (s.reach (s.pins.enAt.getD grp s.now + 1_000_000)).alarm 1 (grp + 1)

/-! ## Power-fail warning (R449, R461) -/

/-- Flush goes to every drive with a volatile write cache. -/
def State.flushDrives (s : State) : State :=
  (List.range 8).foldl (fun s p =>
    if s.driveReady p && (s.drive p).vwc then
      let (id, s) := s.newId
      s.emit (.driveCommand p 0xFFFFFFFF .flush false 0 0 [] id)
    else s) s

/-- PFW_N_ASSERT (R449, R461): gates close, checkpoint copies fail, storage stops fetching, drives are flushed, and the loupe records
PFW, drains and is to flush. At Doze or deeper, or during an entry, the device climbs to Idle. -/
def execPfwNAssert (s : State) : Res :=
  .next <|
    if s.power.pfw then s
    else if s.boot.phase = .reset then { s with power := { s.power with pfw := true } }
    else
      let s := if 2 ≤ s.power.rung ∨ s.power.entering.isSome then s.wake.toRung 1 else s
      let s := ({ s with power := { s.power with pfw := true } }).closeGates
      let s := s.parcels.foldl (fun s e => if e.2.ckp.busy then s.ckpFail e.1 4 else s) s
      let s := s.flushDrives.raise blkBZL 0xB102 none (s.power.watts 10) 0
      let s := s.stageAll 1040
      let s := s.drainAll s.loupe.staging.length
      { s with loupe := { s.loupe with flushPfw := true } }

/-- PFW_N_DEASSERT (R449): the gates reopen in field order, fetching resumes, and the loupe records an event. -/
def execPfwNDeassert (s : State) : Res :=
  .next <|
    if !s.power.pfw then s
    else
      let s : State := { s with power := { s.power with pfw := false } }
      if s.boot.phase = .reset then s else ((s.openGates).raise blkBZL 0xB0FF none 0 0).settle

/-! ## Firmware update (R446, R447) -/

/-- FW_STAGE after its parameter checks: bytes of the slot that does not run; staging after a commit removes the commit. -/
def fwStageRun (s : State) (_ : Waiter) (_ : Nat) (ps : List Byte) : Act :=
  let (bad, s) := s.mayFail
  if bad then fails s 0xB006
  else
    let k := s.boot.idleSlot
    let b := s.boot.flashWrite (slotBase k + fieldAt ps 0 4) (slice ps 8 (fieldAt ps 4 4))
    okay { s with boot := { b with committed := if b.committed = some k then none else b.committed } }

/-- FW_STAGE. -/
def fwStageSpec : Spec :=
  { opcode := 0xB005, permits := managerOnly
    plen := fun ps =>
      let n := fieldAt ps 4 4
      if ps.length = 8 + n ∨ n % 8 ≠ 0 ∨ n < 8 ∨ 1000 < n then (if ps.length < 16 then some 16 else none) else some (8 + n)
    fields := fun _ ps =>
      [(0, decide (fieldAt ps 0 4 % 8 = 0 ∧ fieldAt ps 0 4 < slotSize)),
       (4, decide (fieldAt ps 4 4 % 8 = 0 ∧ 8 ≤ fieldAt ps 4 4 ∧ fieldAt ps 4 4 ≤ 1000 ∧ fieldAt ps 0 4 + fieldAt ps 4 4 ≤ slotSize))]
    run := fwStageRun }

/-- FW_STAGE (R446): writes image bytes into the idle slot. -/
def execFwStage (c : Cmd) (s : State) : Res := .next (s.command fwStageSpec c)

/-- FW_COMMIT after its parameter checks; in recovery boot is to restart (R440). -/
def fwCommitRun (s : State) (_ : Waiter) (_ : Nat) (_ : List Byte) : Act :=
  let k := s.boot.idleSlot
  match s.boot.image k with
  | none => fails s 0xB003
  | some i =>
    let (bad, s) := s.mayFail
    if bad then fails s 0xB006
    else
      gives { s with boot := { s.boot with committed := some k, resetDue := s.boot.phase = .recovery } }
        (leBytes 4 i.version.toNat ++ leBytes 4 i.seclevel)

/-- FW_COMMIT. -/
def fwCommitSpec : Spec := { opcode := 0xB006, permits := managerOnly, plen := fixed 0, fields := fun _ _ => [], run := fwCommitRun }

/-- FW_COMMIT (R446, R440): verifies and commits the slot that does not run. -/
def execFwCommit (c : Cmd) (s : State) : Res := .next (s.command fwCommitSpec c).resetIfDue

/-- FW_ACTIVATE after its parameter checks: the notice of R371, then fetching stops. -/
def fwActivateRun (s : State) (w : Waiter) (_ : Nat) (_ : List Byte) : Act :=
  if s.boot.committed.isNone then fails s 0xB00A
  else
    let s := (List.range 64).foldl (fun s i =>
      if (s.ctrl i).mode ≠ .off && (s.ctrl i).feat.aec.getLsbD 9 then s.asyncEvent i 2 1 3 else s) s
    .wait { s with boot := { s.boot with activating := some (w, s.now + 500_000_000) } }

/-- FW_ACTIVATE. -/
def fwActivateSpec : Spec := { opcode := 0xB007, permits := managerOnly, plen := fixed 0, fields := fun _ _ => [], run := fwActivateRun }

/-- FW_ACTIVATE (R446): stops fetching, to start the committed image. -/
def execFwActivate (c : Cmd) (s : State) : Res := .next (s.command fwActivateSpec c)

/-- Activation ends with a status; fetching resumes, and the rails follow the rail controller again. -/
def State.endActivate (s : State) (w : Waiter) (status : Nat) : State :=
  ({ s with boot := { s.boot with activating := none, switching := false } }).refreshRails.finish w status 0 []

/-- FW_ACTIVATE_DRAINED (R446): once no other command is in progress the committed slot is verified again and started; with one still
in progress after 500 ms activation is abandoned. -/
def execFwActivateDrained (s : State) : Res :=
  .next <|
    match s.boot.activating with
    | none => s
    | some (w, t) =>
      if s.boot.switching then s
      else if s.chans.all fun e => e.2.inProg.all fun p => e.1 = w.ch && p.id = w.id then
        match s.boot.committed.bind s.boot.image with
        | none => s.endActivate w 0xB003
        | some _ => { s with boot := { s.boot with switching := true } }
      else (s.reach t).endActivate w 0xB007

/-- The committed image runs from now on. -/
def State.switchImage (s : State) : State :=
  match s.boot.committed with
  | some k => (match s.boot.image k with | some i => { s with boot := s.boot.runs k i } | none => s)
  | none => s

/-- FW_ACTIVATE_COMPLETE (R446): the new image replies, or the previous one runs on and replies 0xB008. -/
def execFwActivateComplete (ok : Bool) (s : State) : Res :=
  .next <|
    match s.boot.activating with
    | none => s
    | some (w, _) =>
      if !s.boot.switching || s.faults.bezelRestart then s
      else if ok then s.switchImage.endActivate w 0
      else s.endActivate w 0xB008

/-- FW_FLOOR_SET after its parameter checks (R447). -/
def fwFloorSetRun (s : State) (_ : Waiter) (_ : Nat) (ps : List Byte) : Act :=
  let n := fieldAt ps 0 4
  if n ≤ s.boot.cnt0 ∨ s.boot.seclevel < n then fails s 0xB004
  else
    let (bad, s) := s.mayFail
    if bad then fails s 0xB006
    else
      let b : Boot := { s.boot with cnt0 := n }
      okay { s with boot := { b with committed := match b.committed with
        | some k => if fieldAt (b.flashRead (slotBase k) 16) 12 4 < n then none else some k
        | none => none } }

/-- FW_FLOOR_SET. -/
def fwFloorSetSpec : Spec :=
  { opcode := 0xB008, permits := managerOnly, plen := fixed 8, fields := fun _ ps => [rsv ps 4 4], run := fwFloorSetRun }

/-- FW_FLOOR_SET (R447): raises the rollback floor. -/
def execFwFloorSet (c : Cmd) (s : State) : Res := .next (s.command fwFloorSetSpec c)

/-! ## Attestation (R444, R448) -/

/-- The LMS seed and identifier (R444). -/
def lmsSeed : List Byte := kdf Config.deviceSecret (ascii "FXD-LMS-SEED") [] 32
def lmsId : List Byte := kdf Config.deviceSecret (ascii "FXD-LMS-ID") [] 16

/-- The first 128 bytes of a quote (R448). -/
def State.quoteBody (s : State) (nonce : List Byte) : List Byte :=
  let b := s.boot
  [0x46, 0x58, 0x44, 0x51, 0x55, 0x4F, 0x54, 0x45] ++ leBytes 4 b.version.toNat ++ leBytes 4 b.seclevel ++ leBytes 4 b.cnt0 ++
  leBytes 4 b.epoch ++ leBytes 8 (s.now - b.endOfBoot) ++ padTo 32 nonce ++ padTo 32 b.imageHash ++ padTo 32 deviceKey

/-- ATTEST_QUOTE after its parameter checks: counter 2 advances first. A DEST that does not translate, for which chapter 17 lists no
status, is 0x0001 with its offset (DESIGN CHOICE, log entry 59). -/
def attestQuoteRun (s : State) (_ : Waiter) (i : Nat) (ps : List Byte) : Act :=
  let q := s.boot.cnt2
  if 1048576 ≤ q then fails s 0xB009
  else
    let (bad, s) := s.mayFail
    if bad then fails s 0xB006
    else
      let s : State := { s with boot := { s.boot with cnt2 := q + 1 } }
      let body := s.quoteBody (slice ps 8 32)
      let (s, ok) := s.cmdWrite blkBZL i (fieldAt ps 0 8) q (body ++ lmsSign lmsSeed lmsId (Config.lmsRandom q) q body)
      if ok then okay s else fails s 1 32

/-- ATTEST_QUOTE. -/
def attestQuoteSpec : Spec :=
  { opcode := 0xB009, permits := anyone, plen := fixed 40, fields := fun _ ps => [address ps 0 8], run := attestQuoteRun }

/-- ATTEST_QUOTE (R448): writes a signed quote. -/
def execAttestQuote (c : Cmd) (s : State) : Res := .next (s.command attestQuoteSpec c)

end Sys2Proof.Machine
end

