-- ==== Sys2Proof/Machine/Faults.lean ====
section
/-! DEFINITION. Faults that no single object holds, alarms, and the diagnostic commands (spec/19). -/

namespace Sys2Proof.Machine

/-! ## Watchdogs and internal errors (R21, R398, R468, R469) -/


/-- ENGINE_WD (R468): a handshake of a girdle engine passes 100 µs. -/
def execEngineWd (die : Nat) (s : State) : Res := .next (s.stopDie 0x0008 die)

/-- UCIE_RETRY (R21): a UCIe module exhausts its retries. -/
def execUcieRetry (die : Nat) (s : State) : Res := .next (s.stopDie 0x0004 die)

/-- BEZEL_WATCHDOG (R469): the bezel was not serviced within 100 ms. -/
def execBezelWatchdog (s : State) : Res := .next (if s.awake then s.faultBezel else s)

/-- LOCKSTEP_MISMATCH (R469): the two microcontrollers disagree. -/
def execLockstepMismatch (s : State) : Res := .next (if s.awake then s.faultBezel else s)

/-- BEZEL_RESTART_DONE (R469): the bezel runs again; a restart during an activation starts the image that was starting (R473). -/
def execBezelRestartDone (s : State) : Res :=
  .next <|
    if !s.faults.bezelRestart then s
    else
      let s := ({ s with faults := { s.faults with bezelRestart := false } }).causeGone 0x0009
      if s.boot.switching then
        let s := s.switchImage
        ({ s with boot := { s.boot with activating := none, switching := false } }).refreshRails
      else s.refreshRails

/-- PCIE_INTERNAL (R398): an Uncorrectable Internal Error of the endpoint. -/
def execPcieInternal (s : State) : Res := .next (if s.awake then (s.aerUncor 0 erInternal).faultEndpoint else s)

/-! ## Alarms (R471) -/

/-- The voltage monitors (DESIGN CHOICE, log entry 69): 1 to 4 the power goods of R486 by their rail groups, 5 to 10 VTAB0 to VTAB5, 11
VGRD, and any other VAON. A power good whose enable is held low and a rail that is not armed are ignored. -/
def State.voltageFail (s : State) (sensor : Nat) : State :=
  if 1 ≤ sensor ∧ sensor ≤ 4 then
    if s.pins.en.getLsbD (sensor - 1) then
      ({ s with pins := { s.pins with pg := s.pins.pg &&& ~~~BitVec.ofNat 4 (2 ^ (sensor - 1)) } }).alarm 1 sensor
    else s
  else if 5 ≤ sensor ∧ sensor ≤ 11 then
    let r := s.rail (sensor - 5)
    if r.armed then (s.reach (r.onAt.getD 0 + 10000)).alarm 1 sensor else s
  else s.alarm 1 sensor

/-- VOLTAGE_ALARM (R471, R486): an armed rail leaves its limits, or a power good fails. -/
def execVoltageAlarm (sensor : Nat) (s : State) : Res := .next (if s.awake then s.voltageFail sensor else s)

/-- TEMPERATURE_ALARM (R471): a junction sensor exceeds 110 °C. -/
def execTemperatureAlarm (sensor : Nat) (s : State) : Res := .next (if s.awake then s.alarm 2 sensor else s)

/-- CLOCK_ALARM (R471): the timekeeping reference drifts or stops. -/
def execClockAlarm (sensor : Nat) (s : State) : Res :=
  .next <|
    let s : State := { s with pins := { s.pins with tkclkOk := false } }
    if s.awake then s.alarm 3 sensor else s

/-- TAMPER_ALARM (R471): the tamper input asserts (sensor 0), or the lid mesh is opened or shorted. -/
def execTamperAlarm (sensor : Nat) (s : State) : Res :=
  .next <|
    let s : State := if sensor = 0 then { s with pins := { s.pins with tamper := true } } else s
    if s.awake then s.alarm 4 sensor else s

/-- ALARM_CLEAR (R422, R467, R471): a source is clear; the tamper alarm never is. Without an alarm left the wrapping keys are derived
again, and without a fault that holds them the gates reopen in field order. -/
def execAlarmClear (source : Nat) (s : State) : Res :=
  .next <|
    if source = 4 ∨ !s.faults.alarms.contains source then s
    else
      let s : State := { s with
        faults := { s.faults with alarms := s.faults.alarms.filter fun a => a ≠ source }
        pins := if source = 3 then { s.pins with tkclkOk := true } else s.pins }
      let s := s.causeGone (alarmCode source)
      let s := if s.faults.alarms.isEmpty then s.rearmKeys else s
      s.openGates

/-! ## The fault table (R474) -/

/-- A fault entry as DGN_FAULT_GET reports it; zeros for a free one. -/
def faultBytes : Option FaultEntry → List Byte
  | none => zeros 32
  | some e =>
    let st := match e.status with | .active => 1 | .causeClear => 2 | .cleared => 3
    leBytes 2 e.code ++ leBytes 1 (scopeCode e.scope) ++ leBytes 1 st ++ leBytes 4 e.object ++ leBytes 4 e.count ++ zeros 4 ++
    leBytes 8 (e.firstSeq.getD 0) ++ leBytes 8 e.lastSeq

/-- DGN_FAULT_GET. -/
def dgnFaultGetSpec : Spec :=
  { opcode := 0xD001, permits := managerOnly, plen := fixed 8
    fields := fun _ ps => [below ps 0 1 64, within ps 1 1 1 24, rsv ps 2 6]
    run := fun s _ _ ps =>
      let active := (s.faults.table.filter fun e => e.2.status = .active).length
      gives s (leBytes 1 active ++ zeros 7 ++
        (List.range (fieldAt ps 1 1)).flatMap fun j => faultBytes (s.faults.table.find (fieldAt ps 0 1 + j))) }

/-- DGN_FAULT_GET (R474): returns fault entries. -/
def execDgnFaultGet (c : Cmd) (s : State) : Res := .next (s.command dgnFaultGetSpec c)

/-- DGN_FAULT_CLEAR after its parameter checks. An entry that is cleared stays so. -/
def dgnFaultClearRun (s : State) (_ : Waiter) (_ : Nat) (ps : List Byte) : Act :=
  let n := fieldAt ps 0 1
  match s.faults.table.find n with
  | none => fails s 0xD001
  | some e =>
    if e.status = .active ∧ e.scope ≠ .record ∧ e.scope ≠ .command then fails s 0xD002
    else okay { s with faults := { s.faults with table := s.faults.table.put n { e with status := .cleared } } }

/-- DGN_FAULT_CLEAR. -/
def dgnFaultClearSpec : Spec :=
  { opcode := 0xD002, permits := managerOnly, plen := fixed 8
    fields := fun _ ps => [below ps 0 1 64, rsv ps 1 7], run := dgnFaultClearRun }

/-- DGN_FAULT_CLEAR (R474): clears a fault entry. -/
def execDgnFaultClear (c : Cmd) (s : State) : Res := .next (s.command dgnFaultClearSpec c)

/-! ## Restart, reset and injection (R475) -/


/-- A stack is trained and initialised anew: it reads as zero (R161). -/
def State.freshStack (s : State) (k : Nat) : State :=
  let inStack (a : Nat) : Bool := decide (a < hbmSize) && s.stackOf a = k
  let t : State := { s with
    mem := Memory.erase inStack s.mem
    hbm := { s.hbm with bad := s.hbm.bad.filter fun a => !inStack a }
    faults := { s.faults with timeouts := Tbl.del s.faults.timeouts k } }
  let t := t.modStack k fun x => { x.serve s.now with writes := [], reads := [], written := [] }
  (t.modGatherDie (dieOfStack k) fun g =>
    { g with cache := g.cache.filter fun r => !r.segs.any fun e => (List.range (e.2 / 1024 + 2)).any fun q => s.stackOf (e.1 + 1024 * q) = k }).objectWell .stack k

/-- A failed die serves again. -/
def State.freshDie (s : State) (d : Nat) : State :=
  let s : State := { s with faults := { s.faults with failedDies := s.faults.failedDies.filter fun x => x ≠ d } }
  let s :=
    if d < 8 then (List.range 4).foldl (fun s j => s.freshStack (4 * d + j)) s
    else (List.range 4).foldl (fun s j =>
      let p := 4 * (d - 8) + j
      if (s.port p).enable then s.portUp p else s) s
  s.objectWell .die d

/-- DGN_DIE_RESTART after its parameter checks. Whether training succeeds is not this spec's to say: a free value decides
(log entry 7). A stack cannot be trained while its die is Failed. -/
def dgnDieRestartRun (s : State) (_ : Waiter) (_ : Nat) (ps : List Byte) : Act :=
  let d := fieldAt ps 0 1
  let j := fieldAt ps 1 1
  let k := 4 * d + j
  if s.power.pfw then fails s 0xD006
  else if s.parcels.any fun e => e.2.valid && s.parcelState e.1 = .running then fails s 0xD003
  else if j = 0xFF then
    if !s.dieFailed d then fails s 0xD003
    else
      let (bad, s) := s.mayFail
      if bad then fails (s.recordFault 0x0003 .die d) 0xD004 else okay (s.freshDie d)
  else if 8 ≤ d ∨ (s.stack k).state ≠ .failed then fails s 0xD003
  else if s.dieFailed d then fails s 0xD004
  else
    let (bad, s) := s.mayFail
    if bad then fails (s.recordFault 0x000A .stack k) 0xD004 else okay (s.freshStack k)

/-- DGN_DIE_RESTART. -/
def dgnDieRestartSpec : Spec :=
  { opcode := 0xD003, permits := managerOnly, plen := fixed 8
    fields := fun _ ps => [below ps 0 1 12, (1, decide (fieldAt ps 1 1 < 4 ∨ fieldAt ps 1 1 = 0xFF)), rsv ps 2 6]
    run := dgnDieRestartRun }

/-- DGN_DIE_RESTART (R475): restarts a failed die or stack. -/
def execDgnDieRestart (c : Cmd) (s : State) : Res := .next (s.command dgnDieRestartSpec c)

/-- DGN_DEVICE_RESET. -/
def dgnDeviceResetSpec : Spec :=
  { opcode := 0xD004, permits := managerOnly, plen := fixed 0, fields := fun _ _ => []
    run := fun s _ _ _ =>
      if s.power.pfw then fails s 0xD006 else okay { s with boot := { s.boot with resetDue := true } } }

/-- DGN_DEVICE_RESET (R475): boot restarts at the mask ROM once the reply has left. -/
def execDgnDeviceReset (c : Cmd) (s : State) : Res := .next (s.command dgnDeviceResetSpec c).resetIfDue

/-- DGN_INJECT after its parameter checks. -/
def dgnInjectRun (s : State) (_ : Waiter) (_ : Nat) (ps : List Byte) : Act :=
  let a := fieldAt ps 8 8
  let u := a / unitOf a * unitOf a
  let reach : Bool := match regionOf a with | .hbm => true | .spad _ _ => true | _ => false
  if !reach || s.unmapped a then fails s 0xD005
  else if fieldAt ps 0 1 = 1 then okay { s with faults := { s.faults with inject := s.faults.inject.put u 1 } }
  else okay { s with hbm := { s.hbm with bad := if s.hbm.bad.contains u then s.hbm.bad else u :: s.hbm.bad } }

/-- DGN_INJECT. -/
def dgnInjectSpec : Spec :=
  { opcode := 0xD005, permits := managerOnly, plen := fixed 16, fields := fun _ ps => [within ps 0 1 1 2, rsv ps 1 7], run := dgnInjectRun }

/-- DGN_INJECT (R475): arms an error on the next read of a unit. -/
def execDgnInject (c : Cmd) (s : State) : Res := .next (s.command dgnInjectSpec c)

end Sys2Proof.Machine
end

