-- ==== Sys2Proof/Machine/Pins.lean ====
section
/-! DEFINITION. Pins and reference clocks (spec/20). -/

namespace Sys2Proof.Machine

/-- PERST_N_ASSERT (R397): the endpoint link goes down and every function is reset. -/
def execPerstNAssert (s : State) : Res :=
  .next <|
    if s.pins.perst then s
    else
      let s : State := { s with pins := { s.pins with perst := true }, pcie := { s.pcie with perstAt := none } }
      let was := s.pcie.linkUp || s.pcie.link = .l23
      let s : State := { s with pcie := { s.pcie with link := .down, flit := false, rate := 0, width := 0, downAt := s.now } }
      if was then s.allReset 1 else s

/-- PERST_N_DEASSERT (R379, R401, R435): WAKE_N is released and the link trains; it is a wake event. -/
def execPerstNDeassert (s : State) : Res :=
  .next <|
    if !s.pins.perst then s
    else
      let s : State := { s with pins := { s.pins with perst := false }, pcie := { s.pcie with perstAt := some s.now } }
      let s := if s.pcie.wakeN then ({ s with pcie := { s.pcie with wakeN := false } }).emit (.pin "WAKE_N" true) else s
      if s.boot.phase = .running ∨ s.pcie.configured then s.trainEndpoint.startExit .perst else s

/-- The name of a drive's reset pin. -/
def rpPin (p : Nat) : String := "RP" ++ toString p ++ "_PERST_N"

/-- PRSNT_N_CHANGE (R480): while it is high the port holds the drive's reset and is absent; when it falls the port leaves reset and
trains. -/
def execPrsntNChange (port : Nat) (high : Bool) (s : State) : Res :=
  .next <|
    if 8 ≤ port ∨ s.pins.prsnt.getD port false = high then s
    else
      let s : State := { s with pins := { s.pins with prsnt := s.pins.prsnt.put port high } }
      if s.boot.phase ≠ .running then s
      else if high then
        let s := if s.pins.rpPerst.getD port true then s
          else ({ s with pins := { s.pins with rpPerst := s.pins.rpPerst.put port true } }).emit (.pin (rpPin port) false)
        let s := s.modRoot port fun r => { r with state := .down, rate := 0, width := 0, grants := [], downAt := s.now }
        if (s.drive port).state = .absent then s else s.driveGone port .absent
      else
        let s := ({ s with pins := { s.pins with rpPerst := s.pins.rpPerst.put port false } }).emit (.pin (rpPin port) true)
        (s.modRoot port fun r => { r with state := .training }).driveGone port .training

/-- PPS_OUT (R480): at the next whole second of gPTP time while locked the output rises, and falls 1 µs later. -/
def execPpsOut (s : State) : Res :=
  .next <|
    if s.fabric.lock ≠ 1 ∧ s.fabric.lock ≠ 2 then s
    else
      let g := s.gptp
      let second := if g % 10 ^ 9 = 0 ∧ s.pins.lastPps ≠ g / 10 ^ 9 then g / 10 ^ 9 else g / 10 ^ 9 + 1
      let s := s.reach (s.now + (second * 10 ^ 9 - g))
      (({ s with pins := { s.pins with lastPps := second } }).emit (.pin "PPS_OUT" true)).emit (.pin "PPS_OUT" false)

/-- MGMT_PHY_RESET_RELEASE (R480): 10 ms after VIO is in range. -/
def execMgmtPhyResetRelease (s : State) : Res :=
  .next <|
    if !s.pins.phyRst || !s.pins.en.getLsbD 0 then s
    else
      let s := s.reach (s.pins.vioAt + 10_000_000)
      ({ s with pins := { s.pins with phyRst := false } }).emit (.pin "MGMT_PHY_RST_N" true)

/-- REFERENCE_CLOCK_CHANGE (R484): clocks 0 to 3 are those of NG0 to NG3, 4 that of the endpoint. A missing one keeps the links
concerned down and is recorded; no fault is raised. -/
def execReferenceClockChange (clk : Nat) (present : Bool) (s : State) : Res :=
  .next <|
    if clk < 4 then
      if s.pins.ethClk.getD clk true = present then s
      else
        let s : State := { s with pins := { s.pins with ethClk := s.pins.ethClk.put clk present } }
        if present then
          (List.range 4).foldl (fun s j => if (s.port (4 * clk + j)).enable then s.portUp (4 * clk + j) else s)
            (s.raise blkBZL 0xD006 none clk 1)
        else (List.range 4).foldl (fun s j => s.portDown (4 * clk + j)) (s.raise blkBZL 0xD006 none clk 0)
    else if clk = 4 ∧ s.pins.peClk ≠ present then
      let s : State := { s with pins := { s.pins with peClk := present } }
      if present then if s.pcie.configured then s.trainEndpoint else s
      else if s.pcie.linkUp || s.pcie.link = .l23 then
        let s := s.retrain.allReset 1
        { s with pcie := { s.pcie with link := .down } }
      else { s with pcie := { s.pcie with link := .down } }
    else s

/-- MGMT_LINK_CHANGE (R288): the management link goes down or comes up; the state of channel 0 is kept. -/
def execMgmtLinkChange (up : Bool) (s : State) : Res := .next { s with eth := { s.eth with mgmtUp := up } }

end Sys2Proof.Machine
end

