-- ==== Sys2Proof/Machine/Regs.lean ====
section
/-! DEFINITION. Control space (R27 to R31): the block of an address, the value of every register and what a read clears, what a
write changes (R492), and the commands that read or write one register. -/

namespace Sys2Proof.Machine

/-! ## The control-space map (R27) -/

/-- The bases of the blocks. -/
def baseBZL : Nat := 0x00_0000_0000
def basePWR : Nat := 0x00_1000_0000
def baseLOG : Nat := 0x00_2000_0000
def basePCE : Nat := 0x01_0000_0000
def baseNVC : Nat := 0x01_4000_0000
def baseCIP : Nat := 0x01_8000_0000
def baseNET : Nat := 0x02_0000_0000
def baseTMS : Nat := 0x02_4000_0000
def baseRMA : Nat := 0x02_8000_0000
def baseZLK : Nat := 0x03_0000_0000
def baseMEM : Nat := 0x04_0000_0000
def baseGTH : Nat := 0x05_0000_0000
def baseCKP : Nat := 0x06_0000_0000
def basePCL : Nat := 0x07_0000_0000
def baseTBL : Nat := 0x08_0000_0000
def baseFCT : Nat := 0x10_0000_0000

/-- The blocks in the order of the map: number, base and bytes of the range. -/
def blocks : List (Nat × Nat × Nat) :=
  [(blkBZL, baseBZL, 0x1000_0000), (blkPWR, basePWR, 0x1000_0000), (blkLOG, baseLOG, 0x1000_0000),
   (blkPCE, basePCE, 0x4000_0000), (blkNVC, baseNVC, 0x4000_0000), (blkCIP, baseCIP, 0x4000_0000),
   (blkNET, baseNET, 0x4000_0000), (blkTMS, baseTMS, 0x4000_0000), (blkRMA, baseRMA, 0x4000_0000),
   (blkZLK, baseZLK, 0x4000_0000), (blkMEM, baseMEM, 0x8000_0000), (blkGTH, baseGTH, 0x8000_0000),
   (blkCKP, baseCKP, 0x1000_0000), (blkPCL, basePCL, 0x1000_0000), (blkTBL, baseTBL, 0x1000_0000),
   (blkFCT, baseFCT, 0x6000_0000)]

/-- The block whose range holds an address, with the offset in it. -/
def blockAt (a : Nat) : Option (Nat × Nat) :=
  (blocks.find? fun b => decide (b.2.1 ≤ a) && decide (a < b.2.1 + b.2.2)).map fun b => (b.1, a - b.2.1)

/-- The block through whose queue an access event passes (R490). -/
def blockHolding (a : Nat) : Nat := ((blockAt a).map (·.1)).getD blkBZL

/-- The index of a register in a row of `n` registers `stride` bytes apart. -/
def rowIdx (off base stride n : Nat) : Option Nat :=
  if base ≤ off ∧ off < base + stride * n ∧ (off - base) % stride = 0 then some ((off - base) / stride) else none

/-! ## Reads -/

/-- A register that a read leaves as it is. -/
def State.seen (s : State) (v : BitVec 64) : Option (BitVec 64 × State) := some (v, s)

/-- A number as a register. -/
def reg (n : Nat) : BitVec 64 := BitVec.ofNat 64 n

/-- Codes of register fields. -/
def FacetState.code : FacetState → Nat
  | .empty => 0 | .loaded => 1 | .running => 2 | .paused => 3 | .done => 4 | .faulted => 5
def StackState.code : StackState → Nat
  | .off => 0 | .training => 1 | .ready => 2 | .selfRefresh => 3 | .failed => 4

/-- BZL registers (spec/17, spec/20). -/
def State.readBzl (s : State) (off : Nat) : Option (BitVec 64 × State) :=
  let b := s.boot
  let p := s.pins
  if off = 0x00 then s.seen (pack [(63, 1, b.slot), (62, 1, bit (b.phase = .recovery)), (56, 6, b.reason), (0, 32, b.epoch)])
  else if off = 0x08 then s.seen (pack [(32, 32, b.version.toNat), (0, 32, b.seclevel)])
  else if off = 0x10 then s.seen (pack [(32, 32, b.cnt0), (0, 21, b.cnt2)])
  else if off = 0x18 then
    s.seen (pack [(14, 2, p.smbAddr), (13, 1, bit p.busSel), (12, 1, bit p.tkclkOk), (8, 4, p.en.toNat), (4, 4, p.pg.toNat),
      (3, 1, bit p.tamper), (2, 1, bit p.pwrwake), (1, 1, bit p.perst), (0, 1, bit s.power.pfw)])
  else none

/-- PWR registers (spec/17). -/
def State.readPwr (s : State) (off : Nat) : Option (BitVec 64 × State) :=
  let x := s.power
  if off = 0x00 then s.seen s.rungWord
  else if off = 0x08 then s.seen s.pkgWord
  else if off = 0x10 then some (x.gatesWord, { s with power := { x with gates := 0, wakedrop := 0 } })
  else if off = 0x18 then s.seen (pack [(52, 12, x.idlev), (44, 8, x.slklo), (36, 8, x.slkhi), (28, 8, x.tjthr)])
  else
    ((rowIdx off 0x100 8 6).bind fun f => s.seen (s.fieldWord f)) <|>
    ((rowIdx off 0x140 8 6).bind fun f => s.seen (s.rail f).uj)

/-- The fixed form of a fall-back slot (R462). -/
def State.fallbackWord (s : State) (n : Nat) : Nat :=
  match s.loupe.fbRing.find (n / 4) with
  | some r => fieldAt r.bytes (8 * (n % 4)) 8
  | none => 0

/-- LOG registers (spec/18). -/
def State.readLog (s : State) (off : Nat) : Option (BitVec 64 × State) :=
  let x := s.loupe
  if off = 0x00 then s.seen s.logStatus
  else if off = 0x08 then s.seen (reg x.seq)
  else if off = 0x10 then s.seen (reg x.markMs)
  else if off = 0x200 then s.seen (reg x.fbLast)
  else
    ((rowIdx off 0x48 8 6).bind fun k =>
      some (reg (x.drop.getD (k + 1) 0), { s with loupe := { x with drop := x.drop.del (k + 1) } })) <|>
    ((rowIdx off 0x100 8 16).bind fun b => some (reg (x.ovf.getD b 0), { s with loupe := { x with ovf := x.ovf.del b } })) <|>
    ((rowIdx off 0x1_0000 8 1024).bind fun n => s.seen (reg (s.fallbackWord n)))

/-- PCE registers (spec/15). -/
def State.readPce (s : State) (off : Nat) : Option (BitVec 64 × State) :=
  if off = 0 then some (s.pcie.linkWord, { s with pcie := { s.pcie with retrains := 0 } })
  else
    ((rowIdx off 0x100 8 64).bind fun fn => s.seen (s.fnWord fn)) <|>
    ((rowIdx off 0x1000 8 8).bind fun n => s.seen (s.pcie.stats.getD n 0)) <|>
    ((rowIdx off 0x2000 8 8).bind fun p => some ((s.rootPort p).word, s.modRoot p fun r => { r with errors := 0 }))

/-- NVC_NS of a namespace. -/
def nsWord : Option Namespace → BitVec 64
  | none => 0
  | some x => pack [(63, 1, 1), (61, 2, x.kind), (60, 1, bit x.lba4k), (59, 1, bit x.cipher), (53, 6, x.owner),
      (46, 7, x.attach.length), (0, 46, x.size)]

/-- NVC registers (spec/14). -/
def State.readNvc (s : State) (off : Nat) : Option (BitVec 64 × State) :=
  if off = 0x2_0000 then s.seen (reg s.storage.drvto)
  else
    ((rowIdx off 0x0 0x100 64).bind fun i => some (s.nvcCtrl i, s.modCtrl i fun c => { c with lost := 0 })) <|>
    ((rowIdx off 0x8 0x100 64).bind fun i => s.seen (s.ctrl i).errCnt) <|>
    ((rowIdx off 0x1_0000 0x10 1024).bind fun n => s.seen (nsWord (s.nss n))) <|>
    ((rowIdx off 0x2_0040 8 4).bind fun n => s.seen (s.storage.stats.getD n 0))

/-- CIP_CTX of a context. -/
def State.ctxWord (s : State) (n : Nat) : BitVec 64 :=
  match s.cipher.ctxs.find n with
  | none => 0
  | some x => pack [(63, 1, 1), (62, 1, bit x.key.isSome), (61, 1, bit x.chain.isSome),
      (60, 1, bit (match x.chain with | some ch => ch.dec | none => false)), (58, 2, x.mode), (52, 6, x.owner),
      (33, 19, s.qpRefs n), (22, 11, s.nsRefs n)]

/-- CIP registers (spec/16). -/
def State.readCip (s : State) (off : Nat) : Option (BitVec 64 × State) :=
  let x := s.cipher
  if off = 0 then some (s.cipStatus, { s with cipher := { x with erasures := 0 } })
  else
    ((rowIdx off 0x100 8 4).bind fun n => s.seen (x.stats.getD n 0)) <|>
    ((rowIdx off 0x1_0000 0x20 4096).bind fun n => s.seen (s.ctxWord n)) <|>
    ((rowIdx off 0x1_0008 0x20 4096).bind fun n =>
      s.seen (match x.ctxs.find n with | some c => if c.key.isSome then c.keyid else 0 | none => 0)) <|>
    ((rowIdx off 0x1_0010 0x20 4096).bind fun n => s.seen (pack [(0, 52, x.counters.getD n 0)])) <|>
    ((rowIdx off 0x1_0018 0x20 4096).bind fun n =>
      s.seen (match (x.ctxs.find n).bind (·.pend) with | some c => pack [(63, 1, 1), (0, 52, c)] | none => 0))

/-- NET_LINK of a link. -/
def EthLink.word (l : EthLink) : BitVec 64 :=
  pack [(60, 4, l.state.code), (59, 1, bit l.lfault), (58, 1, bit l.rfault), (0, 32, l.restarts)]

/-- NET_RHIT of a slot: 0 frames, 1 bytes. A cleared slot keeps them until it is set again (R296). -/
def State.ruleCount (s : State) (i which : Nat) : BitVec 64 :=
  let (n, b) := match s.eth.rules.find i with
    | some r => (r.frames, r.bytes)
    | none => s.eth.cleared.getD i (0, 0)
  if which = 0 then n else b

/-- NET registers (spec/11). -/
def State.readNet (s : State) (off : Nat) : Option (BitVec 64 × State) :=
  let e := s.eth
  if off = 0x00 then s.seen (pack [(48, 16, e.tpid2.toNat), (32, 16, e.vxlan.toNat), (16, 16, e.geneve.toNat)])
  else if off = 0x08 then s.seen e.mgmtIp4
  else if off = 0x10 then s.seen e.mgmtIp6a
  else if off = 0x18 then s.seen e.mgmtIp6b
  else
    ((rowIdx off 0x100 8 16).bind fun p => s.seen (s.port p).word) <|>
    ((rowIdx off 0x200 8 64).bind fun l => some ((s.link l).word, s.modLink l fun x => { x with restarts := 0 })) <|>
    ((rowIdx off 0x1000 8 128).bind fun j =>
      if 8 ≤ j % 32 then none
      else
        let n := 8 * (j / 32) + j % 32
        some (reg (e.drops.getD n 0), { s with eth := { e with drops := e.drops.del n } })) <|>
    ((rowIdx off 0x1_0000 8 512).bind fun j => s.seen ((s.link (j / 8)).cnt.getD (j % 8) 0)) <|>
    ((rowIdx off 0x10_0000 8 131072).bind fun j => s.seen (s.ruleCount (j / 2) (j % 2))) <|>
    ((rowIdx off 0x20_0000 8 4096).bind fun q =>
      match e.queues.find q with
      | none => s.seen 0
      | some x => some (rxStat (some x), { s with eth := { e with queues := e.queues.put q { x with drops := 0 } } }))

/-- TMS_EQ of a queue. -/
def eqWord : Option EgressQueue → BitVec 64
  | none => 0
  | some q => pack [(63, 1, bit q.enable), (62, 1, bit q.stopped), (60, 2, q.sub), (57, 3, q.cls), (56, 1, bit q.inst.isSome),
      (50, 6, q.inst.getD 0), (49, 1, bit q.shaper.isSome), (35, 14, q.shaper.getD 0), (20, 15, q.quantum), (8, 12, q.limit)]

/-- TMS_MCFG of a meter. -/
def meterWord : Option Meter → BitVec 64
  | none => 0
  | some m => pack [(63, 1, 1), (62, 1, bit m.trtcm), (61, 1, bit m.aware), (60, 1, bit m.colsrc), (54, 6, m.owner), (48, 6, m.act)]

/-- TMS_SCFG of a shaper. -/
def shaperWord : Option Shaper → BitVec 64
  | none => 0
  | some x => pack [(63, 1, 1), (62, 1, bit x.compat), (61, 1, bit x.pending.isSome), (55, 6, x.owner), (48, 6, x.overhead),
      (28, 20, x.rate), (0, 28, 8 * x.burst)]

/-- TMS_EQSTAT, TMS_DSTAT and TMS_CSTAT: bytes queued now and drops. -/
def queueStat (fs : List TxFrame) (drops : Nat) : BitVec 64 := pack [(32, 25, queuedBytes fs), (0, 32, drops)]

/-- A queue's status register; its drops are cleared. -/
def State.readQueue (s : State) : EqName → Option (BitVec 64 × State)
  | .queue p q =>
    let k := 1024 * p + q
    match s.traffic.queues.find k with
    | none => s.seen 0
    | some x => some (queueStat x.frames x.drops,
        { s with traffic := { s.traffic with queues := s.traffic.queues.put k { x with drops := 0 } } })
  | .dflt l c =>
    let k := 8 * l + c
    match s.traffic.dflt.find k with
    | none => s.seen 0
    | some x => some (queueStat x.frames x.drops,
        { s with traffic := { s.traffic with dflt := s.traffic.dflt.put k { x with drops := 0 } } })
  | .ctrl l =>
    match s.traffic.ctrl.find l with
    | none => s.seen 0
    | some x => some (queueStat x.frames x.drops,
        { s with traffic := { s.traffic with ctrl := s.traffic.ctrl.put l { x with drops := 0 } } })

/-- TMS registers (spec/12). -/
def State.readTms (s : State) (off : Nat) : Option (BitVec 64 × State) :=
  let t := s.traffic
  ((rowIdx off 0x0 8 16384).bind fun k => s.seen (eqWord (t.queues.find k))) <|>
  ((rowIdx off 0x2_0000 8 16384).bind fun k => s.readQueue (.queue (k / 1024) (k % 1024))) <|>
  ((rowIdx off 0x4_0000 8 512).bind fun k => s.readQueue (.dflt (k / 8) (k % 8))) <|>
  ((rowIdx off 0x4_1000 8 64).bind fun l => s.readQueue (.ctrl l)) <|>
  ((rowIdx off 0x4_2000 8 128).bind fun j =>
    if 3 ≤ j % 32 then none
    else
      let n := 3 * (j / 32) + j % 32
      some (reg (t.drops.getD n 0), { s with traffic := { t with drops := t.drops.del n } })) <|>
  ((rowIdx off 0x10_0000 8 32768).bind fun k =>
    s.seen (match t.iqmap.find k with | some q => pack [(63, 1, 1), (0, 10, q)] | none => 0)) <|>
  ((rowIdx off 0x20_0000 0x40 16384).bind fun m => s.seen (meterWord (t.meters.find m))) <|>
  ((rowIdx off 0x20_0000 8 131072).bind fun j =>
    if j % 8 < 1 ∨ 6 < j % 8 then none
    else s.seen (match t.meters.find (j / 8) with | some m => m.counts.getD (j % 8 - 1) 0 | none => 0)) <|>
  ((rowIdx off 0x30_0000 0x10 16384).bind fun k => s.seen (shaperWord (t.shapers.find k))) <|>
  ((rowIdx off 0x30_0008 0x10 16384).bind fun k =>
    s.seen (match t.shapers.find k with | some x => pack [(0, 28, x.tokens)] | none => 0))

/-- RMA_MWCFG of a window. -/
def State.windowWord (s : State) (w : Nat) : BitVec 64 :=
  let g := (s.rma.wgen.getD w 0).toNat
  match s.rma.wins.find w with
  | none => reg g
  | some x => pack [(63, 1, 1), (62, 1, bit x.rd), (61, 1, bit x.wr), (60, 1, bit x.revoking.isSome), (48, 12, x.pd),
      (42, 6, x.inst), (0, 16, g)]

/-- RMA registers (spec/13). -/
def State.readRma (s : State) (off : Nat) : Option (BitVec 64 × State) :=
  let x := s.rma
  if off = 0 then s.seen (match x.ctxArea with | some a => pack [(63, 1, 1), (0, 48, a)] | none => 0)
  else if off = 8 then s.seen (pack [(32, 16, x.target), (16, 16, x.ai), (0, 16, x.initKib)])
  else
    ((rowIdx off 0x1000 8 128).bind fun j => if 8 ≤ j % 32 then none else s.seen (x.stats.getD (8 * (j / 32) + j % 32) 0)) <|>
    ((rowIdx off 0x2000 8 4).bind fun k => s.seen (pack [(32, 11, s.pinnedOn k), (0, 11, s.cachedOn k)])) <|>
    ((rowIdx off 0x10_0000 8 65536).bind fun w => s.seen (s.windowWord w))

/-- ZLK_LINK of a link. -/
def State.zlkLink (s : State) (l : Nat) : BitVec 64 :=
  let f := s.fabric
  let n := (f.adjs.filter fun a => decide (a.link = l) && a.up).length
  pack [(63, 1, bit (decide (n ≠ 0))), (62, 1, bit (f.switched.contains l)), (61, 1, bit (f.preempt.contains l)), (48, 8, n),
    (24, 16, f.switchNs.getD l 0x07D0), (0, 24, f.delay.getD l 0)]

/-- ZLK registers (spec/10). -/
def State.readZlk (s : State) (off : Nat) : Option (BitVec 64 × State) :=
  let f := s.fabric
  if off = 0x00 then s.seen (pack [(48, 16, f.etype.toNat), (32, 16, f.prefId), (24, 8, f.priority), (16, 8, f.hops), (0, 12, f.vid)])
  else if off = 0x08 then s.seen (pack [(63, 1, bit (s.boot.phase = .running && s.isFm)), (32, 16, f.fmId), (16, 16, f.id), (0, 16, f.epoch)])
  else if off = 0x10 then s.seen key64
  else if off = 0x18 then s.seen (reg f.rto)
  else if off = 0x20 then s.seen (reg s.gptp)
  else if off = 0x28 then s.seen (pack [(62, 2, f.lock), (32, 8, f.prio1), (0, 32, wrapInt 32 f.lastOff)])
  else
    ((rowIdx off 0x40 8 4).bind fun n =>
      some (reg (f.discards.getD n 0), { s with fabric := { f with discards := f.discards.del n } })) <|>
    ((rowIdx off 0x200 8 16).bind fun p =>
      s.seen (pack [(1, 1, bit (s.gatesOf p).gated), (0, 1, bit (!f.edge.contains p))])) <|>
    ((rowIdx off 0x400 8 64).bind fun l => s.seen (s.zlkLink l)) <|>
    ((rowIdx off 0x1_0000 8 16384).bind fun n => s.seen (f.routes.getD n 0))

/-- MEM_STK of a stack. -/
def Stack.word (x : Stack) : BitVec 64 := pack [(56, 8, x.temp), (48, 2, x.refmul), (0, 4, x.state.code)]

/-- MEM registers of a die (spec/06). -/
def State.readMem (s : State) (k off : Nat) : Option (BitVec 64 × State) :=
  let d := s.memDie k
  if off = 0x00 then s.seen (pack [(0, 32, s.hbm.zones.toNat)])
  else if off = 0x08 then s.seen (pack [(12, 4, d.w3), (8, 4, d.w2), (4, 4, d.w1), (0, 4, d.w0)])
  else if off = 0x10 then s.seen (pack [(8, 8, 0x04), (0, 8, 0x40)])
  else if off = 0x18 then s.seen (reg d.scrub)
  else if off = 0x200 then
    some (pack [(32, 32, d.corr), (16, 16, d.uncorr), (0, 16, d.parity)],
      s.modMemDie k fun d => { d with corr := 0, uncorr := 0, parity := 0 })
  else if off = 0x280 then s.seen (reg d.ueNext)
  else if off = 0x400 then some (pack [(0, 32, d.discard)], s.modMemDie k fun d => { d with discard := 0 })
  else
    ((rowIdx off 0x100 8 4).bind fun j => s.seen (s.stack (4 * k + j)).word) <|>
    ((rowIdx off 0x120 8 4).bind fun j => s.seen (s.stack (4 * k + j)).acts) <|>
    ((rowIdx off 0x300 8 16).bind fun n => s.seen (match d.uelog.find n with | some e => e.word | none => 0))

/-- GTH registers of a die (spec/06). -/
def State.readGth (s : State) (k off : Nat) : Option (BitVec 64 × State) :=
  let d := s.gatherDie k
  if off = 0 then s.seen (reg d.ways)
  else if off = 0x300 then s.seen (pack [(0, 9, d.jobs.length)])
  else
    ((rowIdx off 0x100 8 64).bind fun i => s.seen (reg (d.masks.getD i 0).toNat)) <|>
    ((rowIdx off 0x400 8 4).bind fun n => s.seen (d.stats.getD n 0))

/-- CKP registers of a parcel (spec/07). -/
def State.readCkp (s : State) (p off : Nat) : Option (BitVec 64 × State) :=
  let c := (s.parcel p).ckp
  if off = 0x00 then s.seen (pack [(56, 8, c.fail), (52, 4, c.phase.code), (0, 32, c.saved.length)])
  else if off = 0x08 then s.seen (reg c.bytes)
  else if off = 0x10 then s.seen (reg (stepWord c.keep))
  else none

/-- PCL registers (spec/08). -/
def State.readPcl (s : State) (off : Nat) : Option (BitVec 64 × State) :=
  let a := s.acct
  if off = 0x800_0000 then s.seen a.seq
  else if off = 0x800_0008 then some (reg a.dropped, { s with acct := { a with dropped := 0 } })
  else if off = 0x800_0010 then s.seen a.unowned
  else if off = 0x800_0018 then
    s.seen (pack [(48, 16, Config.weightP.toNat), (32, 16, Config.weightS.toNat), (16, 16, Config.weightV.toNat),
      (0, 16, Config.weightM.toNat)])
  else if off < 0x4_0000 then
    let x := s.inst (off / 0x1000)
    let o := off % 0x1000
    if o = 0x00 then s.seen (pack [(48, 16, x.gen.toNat), (0, 2, x.state.code)])
    else if o = 0x08 then s.seen (reg x.mapBase)
    else if o = 0x10 then s.seen (reg x.mapLen)
    else (rowIdx o 0x100 8 8).bind fun n => s.seen (x.counts.getD n 0)
  else if 0x40_0000 ≤ off ∧ off < 0x44_0000 then
    let p := (off - 0x40_0000) / 0x1000
    let x := s.parcel p
    let o := off % 0x1000
    if o = 0x00 then
      s.seen (if x.valid then pack [(63, 1, 1), (16, 6, x.inst), (12, 4, x.gx), (9, 3, x.gy), (5, 4, x.gw - 1), (2, 3, x.gh - 1)] else 0)
    else if o = 0x08 then
      let (b, t) := x.budgetNext.getD (x.budget, x.burst)
      s.seen (pack [(32, 14, t), (0, 32, b)])
    else if o = 0x10 then s.seen (reg (wrapInt 64 x.credit))
    else if o = 0x18 then some (reg x.paced, s.modParcel p fun x => { x with paced := 0 })
    else none
  else none

/-- The states of a facet's banks as TBL_BANKSTAT shows them. -/
def Facet.bankWord (x : Facet) : Nat := ((List.range 16).map fun b => bankCode (x.bank b) * 4 ^ b).sum

/-- TBL registers of a facet (spec/04). -/
def State.readTbl (s : State) (f off : Nat) : Option (BitVec 64 × State) :=
  let x := s.facet f
  if off = 0x00 then s.seen (pack [(32, 16, x.dozeKeep.toNat), (0, 32, x.bankReq.toNat)])
  else if off = 0x08 then s.seen (pack [(32, 1, bit (!x.bankMove.isEmpty)), (0, 32, x.bankWord)])
  else if off = 0x80 then
    some (pack [(32, 32, x.eccCorr), (24, 8, x.eccUnc), (20, 4, x.eccBank), (0, 9, x.eccWord)],
      s.modFacet f fun x => { x with eccCorr := 0, eccUnc := 0 })
  else if off = 0x140 then s.seen (stallWord x.stall)
  else
    ((rowIdx off 0x40 8 8).bind fun n => s.seen (x.confl.getD n 0)) <|>
    ((rowIdx off 0xC0 8 5).bind fun n => s.seen (x.links.getD n 0)) <|>
    ((rowIdx off 0x100 8 4).bind fun n => s.seen (reg (x.wheels.getD n 0).toNat))

/-- FCT_OWNER. -/
def ownerWord : Option Owner → BitVec 64
  | none => 0
  | some o => pack [(48, 16, o.gen.toNat), (40, 6, o.inst), (39, 1, 1), (22, 6, o.px), (17, 5, o.py), (11, 6, o.pw), (6, 5, o.ph)]

/-- FCT_IPTR of a stream. -/
def Stream.word (y : Stream) : BitVec 64 :=
  pack [(32, 16, match y.loops.getLast? with | some l => l.idx | none => 0), (19, 1, bit y.waiting.isSome), (16, 3, y.loops.length),
    (0, 16, y.next)]

/-- FCT registers of a facet (spec/02). -/
def State.readFct (s : State) (f off : Nat) : Option (BitVec 64 × State) :=
  let x := s.facet f
  if off = 0x00 then s.seen (pack [(16, 11, f), (13, 3, fieldOf f), (5, 6, facetX f), (0, 5, facetY f)])
  else if off = 0x08 then s.seen (pack [(32, 32, x.beats.toNat), (0, 3, x.state.code)])
  else if off = 0x10 then s.seen (ownerWord x.owner)
  else if off = 0x18 then s.seen x.tokown
  else if off = 0x20 then s.seen (reg x.waitlim)
  else if off = 0x28 then s.seen (excWord x.exc)
  else if off = 0x30 then s.seen (pack [(5, 5, x.fpVec.toNat), (0, 5, x.fpMat.toNat)])
  else if off = 0x38 then some (pack [(0, 32, x.discard)], s.modFacet f fun x => { x with discard := 0 })
  else if off = 0x40 then s.seen (pack [(16, 10, x.jobSize - 1), (0, 10, x.rank)])
  else if off = 0x90 then s.seen (pack [(0, 32, x.slack)])
  else if off = 0x98 then some (pack [(0, 32, x.slackMin)], s.modFacet f fun x => { x with slackMin := 0xFFFFFFFF })
  else if off = 0xA0 then s.seen x.hskm
  else if off = 0xA8 then s.seen x.hskv
  else if off = 0xB0 then s.seen x.hsks
  else if off = 0xB8 then s.seen x.hskp
  else
    ((rowIdx off 0x50 8 4).bind fun n => s.seen (pack [(32, 16, (x.stream n).len), (0, 16, (x.stream n).base)])) <|>
    ((rowIdx off 0x70 8 4).bind fun n => s.seen (x.stream n).word) <|>
    ((rowIdx off 0x100 8 8).bind fun n =>
      s.seen (pack [(48, 16, x.tok (4 * n + 3)), (32, 16, x.tok (4 * n + 2)), (16, 16, x.tok (4 * n + 1)), (0, 16, x.tok (4 * n))]))

/-- The girdle-die core rail is on (R31). -/
def State.girdleOn (s : State) : Bool := decide ((s.rail 6).set ≠ 0)

/-- The register at an offset of a block: its value and the state after the read; none when no register is there (R28) or its
rail is off (R31). -/
def State.readBlock (s : State) (blk off : Nat) : Option (BitVec 64 × State) :=
  if blk = blkBZL then s.readBzl off
  else if blk = blkPWR then s.readPwr off
  else if blk = blkLOG then s.readLog off
  else if blk = blkPCE then if s.girdleOn then s.readPce off else none
  else if blk = blkNVC then if s.girdleOn then s.readNvc off else none
  else if blk = blkCIP then if s.girdleOn then s.readCip off else none
  else if blk = blkNET then if s.girdleOn then s.readNet off else none
  else if blk = blkTMS then if s.girdleOn then s.readTms off else none
  else if blk = blkRMA then if s.girdleOn then s.readRma off else none
  else if blk = blkZLK then if s.girdleOn then s.readZlk off else none
  else if blk = blkMEM then if s.girdleOn then s.readMem (off / 0x1000_0000) (off % 0x1000_0000) else none
  else if blk = blkGTH then if s.girdleOn then s.readGth (off / 0x1000_0000) (off % 0x1000_0000) else none
  else if blk = blkCKP then if off < 0x4_0000 then s.readCkp (off / 0x1000) (off % 0x1000) else none
  else if blk = blkPCL then s.readPcl off
  else if blk = blkTBL then
    if off = 0x800_0000 then s.seen (reg s.mesh.holdlim)
    else if off / 0x1_0000 < nFacets then s.readTbl (off / 0x1_0000) (off % 0x1_0000) else none
  else
    let f := off / 0x10_0000
    if (s.rail (fieldOf f)).set = 0 then none else s.readFct f (off % 0x10_0000)

/-- A register access finds a register: aligned, and occupied (R8, R28, R31). -/
def State.regAt (s : State) (a : Nat) : Option (BitVec 64 × State) :=
  if a % 8 ≠ 0 then none else (blockAt a).bind fun (blk, off) => s.readBlock blk off

/-- The event of an access that is refused (R8, R28, R31, R464). -/
def State.accessEvent (s : State) (a v : Nat) : State := s.raise (blockHolding a) 0x0001 none a v

/-- A read of control space (R8, R28 to R31). -/
def State.regRead (s : State) (a : Nat) : BitVec 64 × State := (s.regAt a).getD (0, s.accessEvent a 0)

/-! ## Writes (R492) -/

/-- TBL_BANKPWR (R113): DOZE_KEEP always; STATE of an Empty or Faulted facet. A bank in a transition takes the newest request when
that completes. -/
def State.writeBankPwr (s : State) (f : Nat) (v : BitVec 64) : State :=
  let s := s.modFacet f fun x => { x with dozeKeep := BitVec.ofNat 16 (bitsOf v.toNat 47 32) }
  let st := (s.facet f).state
  if st = .empty ∨ st = .faulted then
    let s := s.modFacet f fun x => { x with bankReq := BitVec.ofNat 32 v.toNat }
    let s := s.modFacet f Facet.keepBankSet
    (List.range 16).foldl (fun s b => s.startBank f b) s
  else s.raise blkTBL 0x2001 none (baseTBL + 0x1_0000 * f) v.toNat

/-- TBL_STALL (R129): VALID and MORE clear by writing one. -/
def State.writeStall (s : State) (f : Nat) (v : BitVec 64) : State :=
  s.modFacet f fun x =>
    { x with stall := if v.getLsbD 63 then none else if v.getLsbD 62 then x.stall.map fun t => { t with more := false } else x.stall }

/-- FCT registers that can be written. -/
def State.writeFct (s : State) (f off : Nat) (v : BitVec 64) : State :=
  if off = 0x20 then s.modFacet f fun x => { x with waitlim := bitsOf v.toNat 23 0 }
  else if off = 0x30 then
    s.modFacet f fun x =>
      { x with fpVec := x.fpVec &&& ~~~(BitVec.ofNat 5 (bitsOf v.toNat 9 5)), fpMat := x.fpMat &&& ~~~(BitVec.ofNat 5 (bitsOf v.toNat 4 0)) }
  else s

/-- ZLK_CFG. -/
def Fabric.writeCfg (f : Fabric) (n : Nat) : Fabric :=
  { f with
    etype := BitVec.ofNat 16 (bitsOf n 63 48), prefId := bitsOf n 47 32, priority := bitsOf n 31 24
    hops := if bitsOf n 23 16 = 0 then f.hops else bitsOf n 23 16, vid := bitsOf n 11 0 }

/-- ZLK_PORT (R248, R275): the fabric mode of a port; on a gated port the write is ignored and recorded. A port that becomes an edge port
has no neighbours and no part in gPTP any more, and the fabric's frames that wait for its links are dropped (log entry 67). -/
def State.writeZlkPort (s : State) (p : Nat) (v : BitVec 64) : State :=
  if (s.gatesOf p).gated then s.raise blkZLK 0x5001 none (baseZLK + 0x200 + 8 * p) v.toNat
  else
    let was := s.fabric.edge.contains p
    let s : State := { s with fabric := { s.fabric with edge := (s.fabric.edge.filter (· ≠ p)) ++ if v.getLsbD 0 then [] else [p] } }
    if was || v.getLsbD 0 then s
    else (List.range 4).foldl (fun s k => ((s.purgeFabric (4 * p + k)).dropAdjs (4 * p + k)).dropAnnounce (4 * p + k)) s

/-- ZLK registers that can be written. -/
def State.writeZlk (s : State) (off : Nat) (v : BitVec 64) : State :=
  let n := v.toNat
  let f := s.fabric
  if off = 0x00 then { s with fabric := f.writeCfg n }
  else if off = 0x18 then
    let us := bitsOf n 23 0
    if 1 ≤ us ∧ us ≤ 100000 then { s with fabric := { f with rto := us } } else s
  else if off = 0x28 then { s with fabric := { f with prio1 := bitsOf n 39 32 } }
  else match rowIdx off 0x200 8 16 with
    | some p => s.writeZlkPort p v
    | none => match rowIdx off 0x400 8 64 with
      | some l => { s with fabric := { f with
          switched := (f.switched.filter (· ≠ l)) ++ (if v.getLsbD 62 then [l] else []), switchNs := f.switchNs.put l (bitsOf n 39 24) } }
      | none => s

/-- NET registers that can be written. -/
def State.writeNet (s : State) (off : Nat) (v : BitVec 64) : State :=
  let n := v.toNat
  let e := s.eth
  if off = 0x00 then
    { s with eth := { e with
      tpid2 := BitVec.ofNat 16 (bitsOf n 63 48), vxlan := BitVec.ofNat 16 (bitsOf n 47 32), geneve := BitVec.ofNat 16 (bitsOf n 31 16) } }
  else if off = 0x08 then { s with eth := { e with mgmtIp4 := reg (bitsOf n 31 0) } }
  else if off = 0x10 then { s with eth := { e with mgmtIp6a := v } }
  else if off = 0x18 then { s with eth := { e with mgmtIp6b := v } }
  else match rowIdx off 0x100 8 16 with
    | some p => s.writePort p v
    | none => s

/-- RMA_CC. -/
def State.writeCc (s : State) (n : Nat) : State :=
  let x := s.rma
  let ai := bitsOf n 31 16
  let w := bitsOf n 15 0
  { s with rma := { x with
    target := bitsOf n 47 32, ai := if ai = 0 then x.ai else ai, initKib := if 4 ≤ w ∧ w ≤ 16384 then w else x.initKib } }

/-- MEM registers that can be written. -/
def State.writeMem (s : State) (k off : Nat) (v : BitVec 64) : State :=
  let n := v.toNat
  if off = 0x08 then s.modMemDie k fun d => { d with w3 := bitsOf n 15 12, w2 := bitsOf n 11 8, w1 := bitsOf n 7 4, w0 := bitsOf n 3 0 }
  else if off = 0x18 then if bitsOf n 7 0 ≤ 168 then s.modMemDie k fun d => { d with scrub := bitsOf n 7 0 } else s
  else match rowIdx off 0x300 8 16 with
    | some e => s.writeUelog k e v
    | none => s

/-- GTH registers that can be written. -/
def State.writeGth (s : State) (k off : Nat) (v : BitVec 64) : State :=
  if off = 0 then s.writeCache k v
  else match rowIdx off 0x100 8 64 with
    | some i => s.writeCways k i v
    | none => s

/-- A write to a register that is there: fields that cannot be written keep their values. -/
def State.writeBlock (s : State) (blk off : Nat) (v : BitVec 64) : State :=
  let n := v.toNat
  if blk = blkPWR then if off = 0x18 then s.writeRailctl v else s
  else if blk = blkLOG then
    let ms := bitsOf n 15 0
    if off = 0x10 ∧ 100 ≤ ms ∧ ms ≤ 60000 then { s with loupe := { s.loupe with markMs := ms } } else s
  else if blk = blkNVC then
    let ms := bitsOf n 19 0
    if off = 0x2_0000 ∧ 100 ≤ ms ∧ ms ≤ 600000 then { s with storage := { s.storage with drvto := ms } } else s
  else if blk = blkNET then s.writeNet off v
  else if blk = blkRMA then if off = 8 then s.writeCc n else s
  else if blk = blkZLK then s.writeZlk off v
  else if blk = blkMEM then s.writeMem (off / 0x1000_0000) (off % 0x1000_0000) v
  else if blk = blkGTH then s.writeGth (off / 0x1000_0000) (off % 0x1000_0000) v
  else if blk = blkTBL then
    if off = 0x800_0000 then
      let us := bitsOf n 23 0
      if us = 0 then s else { s with mesh := { s.mesh with holdlim := us } }
    else
      let f := off / 0x1_0000
      if off % 0x1_0000 = 0 then s.writeBankPwr f v else if off % 0x1_0000 = 0x140 then s.writeStall f v else s
  else if blk = blkFCT then s.writeFct (off / 0x10_0000) (off % 0x10_0000) v
  else s

/-- A write of control space (R8, R28 to R31, R492). -/
def State.regWrite (s : State) (a : Nat) (v : BitVec 64) : State :=
  match s.regAt a, blockAt a with
  | some _, some (blk, off) => s.writeBlock blk off v
  | _, _ => s.accessEvent a v.toNat

/-! ## Commands on one register -/

/-- A read whose value goes out on the control ring. -/
def State.readOut (s : State) (a : Nat) : State := let r := s.regRead a; r.2.emit (.readback r.1)

/-- REGISTER_WRITE (R9, R492): a write to a control-space register. -/
def execRegisterWrite (addr : Nat) (v : BitVec 64) (s : State) : Res := .next (s.regWrite addr v)

/-- TBL_BANKPWR_WRITE (R113). -/
def execTblBankpwrWrite (f : Nat) (v : BitVec 64) (s : State) : Res := .next (s.regWrite (baseTBL + 0x1_0000 * f) v)

/-- TBL_STALL_WRITE (R129). -/
def execTblStallWrite (f : Nat) (v : BitVec 64) (s : State) : Res := .next (s.regWrite (baseTBL + 0x1_0000 * f + 0x140) v)

/-- FCT_FPFLAGS_WRITE (R64). -/
def execFctFpflagsWrite (f : Nat) (v : BitVec 64) (s : State) : Res := .next (s.regWrite (baseFCT + 0x10_0000 * f + 0x30) v)

/-- FCT_DISCARD_READ (R73). -/
def execFctDiscardRead (f : Nat) (s : State) : Res := .next (s.readOut (baseFCT + 0x10_0000 * f + 0x38))

/-- FCT_SLACKMIN_READ (R77). -/
def execFctSlackminRead (f : Nat) (s : State) : Res := .next (s.readOut (baseFCT + 0x10_0000 * f + 0x98))

/-- TBL_ECC_READ (R108). -/
def execTblEccRead (f : Nat) (s : State) : Res := .next (s.readOut (baseTBL + 0x1_0000 * f + 0x80))

/-- MEM_ECC_READ (R167). -/
def execMemEccRead (k : Nat) (s : State) : Res := .next (s.readOut (baseMEM + 0x1000_0000 * k + 0x200))

/-- MEM_DISCARD_READ (R166). -/
def execMemDiscardRead (k : Nat) (s : State) : Res := .next (s.readOut (baseMEM + 0x1000_0000 * k + 0x400))

/-- MEM_UELOG_WRITE (R167). -/
def execMemUelogWrite (k n : Nat) (v : BitVec 64) (s : State) : Res :=
  .next (s.regWrite (baseMEM + 0x1000_0000 * k + 0x300 + 8 * n) v)

/-- GTH_CACHE_WRITE (R178). -/
def execGthCacheWrite (k : Nat) (v : BitVec 64) (s : State) : Res := .next (s.regWrite (baseGTH + 0x1000_0000 * k) v)

/-- GTH_CWAYS_WRITE (R176, R178). -/
def execGthCwaysWrite (k inst : Nat) (v : BitVec 64) (s : State) : Res :=
  .next (s.regWrite (baseGTH + 0x1000_0000 * k + 0x100 + 8 * inst) v)

/-- PCL_PACED_READ (R220). -/
def execPclPacedRead (p : Nat) (s : State) : Res := .next (s.readOut (basePCL + 0x40_0000 + 0x1000 * p + 0x18))

/-- PCL_ACCTDROP_READ (R223). -/
def execPclAcctdropRead (s : State) : Res := .next (s.readOut (basePCL + 0x800_0008))

/-- ZLK_PORT_WRITE (R275). -/
def execZlkPortWrite (port : Nat) (v : BitVec 64) (s : State) : Res := .next (s.regWrite (baseZLK + 0x200 + 8 * port) v)

/-- ZLK_DISCARD_READ (R252). -/
def execZlkDiscardRead (n : Nat) (s : State) : Res := .next (s.readOut (baseZLK + 0x40 + 8 * n))

/-- NET_PORT_WRITE (R284). -/
def execNetPortWrite (port : Nat) (v : BitVec 64) (s : State) : Res := .next (s.regWrite (baseNET + 0x100 + 8 * port) v)

/-- NET_LINK_READ (R283). -/
def execNetLinkRead (link : Nat) (s : State) : Res := .next (s.readOut (baseNET + 0x200 + 8 * link))

/-- NET_DROP_READ (R302). -/
def execNetDropRead (k n : Nat) (s : State) : Res := .next (s.readOut (baseNET + 0x1000 + 0x100 * k + 8 * n))

/-- NET_QSTAT_READ (R302). -/
def execNetQstatRead (q : Nat) (s : State) : Res := .next (s.readOut (baseNET + 0x20_0000 + 8 * q))

/-- The address of a queue's status register. -/
def statAddr : EqName → Nat
  | .queue p q => baseTMS + 0x2_0000 + 0x2000 * p + 8 * q
  | .dflt l c => baseTMS + 0x4_0000 + 0x40 * l + 8 * c
  | .ctrl l => baseTMS + 0x4_1000 + 8 * l

/-- TMS_EQSTAT_READ (R308). -/
def execTmsEqstatRead (q : EqName) (s : State) : Res := .next (s.readOut (statAddr q))

/-- TMS_DROP_READ (R308). -/
def execTmsDropRead (k n : Nat) (s : State) : Res := .next (s.readOut (baseTMS + 0x4_2000 + 0x100 * k + 8 * n))

/-- NVC_CTRL_READ (R366). -/
def execNvcCtrlRead (i : Nat) (s : State) : Res := .next (s.readOut (baseNVC + 0x100 * i))

/-- PCE_LINK_READ (R377). -/
def execPceLinkRead (s : State) : Res := .next (s.readOut basePCE)

/-- PCE_RPORT_READ (R404). -/
def execPceRportRead (port : Nat) (s : State) : Res := .next (s.readOut (basePCE + 0x2000 + 8 * port))

/-- CIP_STATUS_READ (R422). -/
def execCipStatusRead (s : State) : Res := .next (s.readOut baseCIP)

/-- PWR_GATES_READ (R432, R437). -/
def execPwrGatesRead (s : State) : Res := .next (s.readOut (basePWR + 0x10))

/-- PWR_RAILCTL_WRITE (R488, R492). -/
def execPwrRailctlWrite (v : BitVec 64) (s : State) : Res := .next (s.regWrite (basePWR + 0x18) v)

/-- LOG_DROP_READ (R455). -/
def execLogDropRead (sev : Nat) (s : State) : Res := .next (s.readOut (baseLOG + 0x40 + 8 * sev))

end Sys2Proof.Machine
end

