-- ==== Sys2Proof/Machine/System.lean ====
section
/-! DEFINITION. System commands (R240 to R247), the arrival of packets by their bytes on every transport (R228 to R231, R237), and
the commands' reply bounds (R238). -/

namespace Sys2Proof.Machine

/-! ## SYS_SYNC, SYS_IDENTIFY, SYS_ECHO -/

/-- SYS_SYNC (R236, R241): resynchronises a channel. -/
def execSysSync (c : Cmd) (s : State) : Res := .next (s.syncCommand c)

/-- ORDER of SYS_IDENTIFY. -/
def orderName : List Byte := ascii (if Config.energyBinned then "FXD-3232-E" else "FXD-3232-P")

/-- SYS_IDENTIFY: its reply. UPTIME before the end of boot is a free value (log entry 7). -/
def sysIdentifyRun (s : State) (_ : Waiter) (_ : Nat) (_ : List Byte) : Act :=
  let b := s.boot
  let (v, s) := if b.phase = .running then (s.now - b.endOfBoot, s) else s.takeFree
  gives s (padTo 16 orderName ++ ascii "B0" ++ zeros 2 ++ leBytes 4 b.version.toNat ++ leBytes 4 b.cnt0 ++ leBytes 4 b.epoch ++
    leBytes 2 s.fabric.id ++ leBytes 2 railCeiling ++ zeros 4 ++ padTo 32 deviceKey ++ leBytes 8 v)

/-- SYS_IDENTIFY. -/
def sysIdentifySpec : Spec := { opcode := 2, permits := anyone, plen := fixed 0, fields := fun _ _ => [], run := sysIdentifyRun }

/-- SYS_IDENTIFY (R242): the identity of the part. -/
def execSysIdentify (c : Cmd) (s : State) : Res := .next (s.command sysIdentifySpec c)

/-- SYS_ECHO: any length up to 64. -/
def sysEchoSpec : Spec :=
  { opcode := 4, permits := anyone, plen := fun ps => if ps.length ≤ 64 then none else some 64, fields := fun _ _ => []
    run := fun s _ _ ps => gives s ps }

/-- SYS_ECHO (R243): returns its parameters. -/
def execSysEcho (c : Cmd) (s : State) : Res := .next (s.command sysEchoSpec c)

/-! ## SYS_ABORT (R240, R243) -/

/-- The reply of SYS_ABORT. -/
def abortReply (result : Nat) : List Byte := leBytes 8 result

/-- Stops a target that stands at its abort point: a table command that waits for descriptors, or an activation in its step 2. -/
def State.stopTarget (s : State) (t : Waiter) : Option State :=
  match s.gather.waits.find? fun x => x.waiter.ch = t.ch && x.waiter.id = t.id with
  | some x =>
    let s : State := { s with gather := { s.gather with waits := s.gather.waits.erase x } }
    some (s.finish t 0x0C 0 [])
  | none =>
    match s.storage.closing.find? fun e => e.2.ch = t.ch && e.2.id = t.id with
    | some (n, _) => some ((s.keepNs n).finish t 0x0C 0 [])
    | none =>
      match s.boot.activating with
      | some (a, _) => if a.ch = t.ch ∧ a.id = t.id ∧ !s.boot.switching then some (s.endActivate a 0x0C) else none
      | none => none

/-- SYS_ABORT after its parameter checks. -/
def sysAbortRun (s : State) (w : Waiter) (_ : Nat) (ps : List Byte) : Act :=
  let seq : BitVec 32 := BitVec.ofNat 32 (fieldAt ps 0 4)
  let c := s.chan w.ch
  let hit (e : InProgress) : Bool := e.seq = seq && decide (e.id ≠ w.id)
  let target := (c.inProg.find? fun e => hit e && !e.stale).orElse fun _ => c.inProg.find? hit
  match target with
  | some e =>
    match s.stopTarget { ch := w.ch, id := e.id, seq } with
    | some s => gives s (abortReply 0)
    | none => .wait (s.modChan w.ch fun c => { c with aborts := c.aborts ++ [(e.id, w.id)] })
  | none =>
    if seq = w.seq then gives s (abortReply 2)
    else if c.kept.any fun k => k.seq = seq then gives s (abortReply 1)
    else gives s (abortReply 3)

/-- SYS_ABORT. -/
def sysAbortSpec : Spec :=
  { opcode := 3, permits := anyone, plen := fixed 8, fields := fun _ ps => [rsv ps 4 4], run := sysAbortRun }

/-- SYS_ABORT (R240): stops a command at its abort point, or says what became of it. -/
def execSysAbort (c : Cmd) (s : State) : Res := .next (s.command sysAbortSpec c)

/-! ## SYS_REG_READ, SYS_REG_WRITE (R244) -/

/-- The PLEN of a register command: COUNT entries of `m` bytes behind the first 8. A command without COUNT is told the length of one
entry (log entry 66). -/
def regPlen (m : Nat) (ps : List Byte) : Option Nat :=
  let n := fieldAt ps 0 2
  if ps.length < 8 then some (8 + m) else if ps.length ≠ 8 + m * n then some (8 + m * n) else none

/-- The fields of a register command: COUNT, and bits [63:40] of every address. -/
def regFields (m most : Nat) (ps : List Byte) : List (Nat × Bool) :=
  [within ps 0 2 1 most, rsv ps 2 6] ++ (List.range (fieldAt ps 0 2)).map fun k => rsv ps (8 + m * k + 5) 3

/-- SYS_REG_READ after its parameter checks: the entries one at a time, in order. -/
def sysRegReadRun (s : State) (_ : Waiter) (_ : Nat) (ps : List Byte) : Act :=
  let r := (List.range (fieldAt ps 0 2)).foldl (fun (acc : State × List Byte) k =>
    let (v, t) := acc.1.regRead (fieldAt ps (8 + 8 * k) 5)
    (t, acc.2 ++ leBytes 8 v.toNat)) (s, [])
  gives r.1 r.2

/-- SYS_REG_READ. -/
def sysRegReadSpec : Spec :=
  { opcode := 5, permits := managerOnly, plen := regPlen 8, fields := fun _ ps => regFields 8 64 ps, run := sysRegReadRun }

/-- SYS_REG_READ (R29, R244): reads control-space registers. -/
def execSysRegRead (c : Cmd) (s : State) : Res := .next (s.command sysRegReadSpec c)

/-- SYS_REG_WRITE after its parameter checks. -/
def sysRegWriteRun (s : State) (_ : Waiter) (_ : Nat) (ps : List Byte) : Act :=
  okay ((List.range (fieldAt ps 0 2)).foldl (fun s k =>
    s.regWrite (fieldAt ps (8 + 16 * k) 5) (BitVec.ofNat 64 (fieldAt ps (16 + 16 * k) 8))) s)

/-- SYS_REG_WRITE. -/
def sysRegWriteSpec : Spec :=
  { opcode := 6, permits := managerOnly, plen := regPlen 16, fields := fun _ ps => regFields 16 63 ps, run := sysRegWriteRun }

/-- SYS_REG_WRITE (R29, R244): writes control-space registers. -/
def execSysRegWrite (c : Cmd) (s : State) : Res := .next (s.command sysRegWriteSpec c)

/-! ## SYS_CHAN_SET, SYS_CHAN_STATUS, SYS_RING_SET (R245 to R247) -/

/-- A channel is bound, and enabled or disabled, anew: unsynced, with nothing in progress or retained (R232, R233). -/
def State.setChan (s : State) (ch inst : Nat) (on : Bool) (source port : Nat) : State :=
  s.modChan ch fun c =>
    { c with
      bound := some inst, state := if on then .unsynced else .disabled, e := 0, rseq := 0, source, udpPort := port, peer := none
      inProg := [], kept := [], aborts := [], held := [] }

/-- An enabled channel is bound to instance 0. -/
def State.managed (s : State) : Bool :=
  (List.range 194).any fun c => (s.chan c).state ≠ .disabled && (s.chan c).bound = some 0

/-- SYS_CHAN_SET after its parameter checks: its own reply leaves before the change. -/
def sysChanSetRun (s : State) (w : Waiter) (_ : Nat) (ps : List Byte) : Act :=
  let ch := fieldAt ps 0 2
  let inst := fieldAt ps 2 1
  let on := bitAt (fieldAt ps 3 1) 0
  let src := fieldAt ps 4 2
  let port := fieldAt ps 6 2
  let taken : Bool := (List.range 64).any fun k =>
    decide (130 + k ≠ ch) && (s.chan (130 + k)).bound.isSome && (s.chan (130 + k)).source = src
  if !(s.setChan ch inst on src port).managed then fails s 0x0101
  else if 130 ≤ ch ∧ taken then fails s 0x0102
  else if 3 ≤ ch ∧ ch ≤ 65 ∧ !(s.pcie.vfEnable && decide (ch - 2 ≤ s.pcie.numVfs)) then fails s 0x0103
  else .wait ((s.finish w 0 0 []).setChan ch inst on src port)

/-- The parameter fields of SYS_CHAN_SET. -/
def sysChanSetFields (_ : State) (ps : List Byte) : List (Nat × Bool) :=
  let ch := fieldAt ps 0 2
  let inst := fieldAt ps 2 1
  [below ps 0 2 194, (2, decide (inst < 64) && (decide (ch < 66) || decide (129 < ch) || inst = ch - 66)), below ps 3 1 2,
   (4, if 130 ≤ ch then decide (fieldAt ps 4 2 < 0x4000) else fieldAt ps 4 2 = 0), (6, if ch = 0 then fieldAt ps 6 2 ≠ 0 else fieldAt ps 6 2 = 0),
   rsv ps 8 8]

/-- SYS_CHAN_SET. -/
def sysChanSetSpec : Spec :=
  { opcode := 7, permits := managerOnly, plen := fixed 16, fields := sysChanSetFields, run := sysChanSetRun }

/-- SYS_CHAN_SET (R245): binds, enables or disables a channel. -/
def execSysChanSet (c : Cmd) (s : State) : Res := .next (s.command sysChanSetSpec c)

/-- The code of a channel's state (R246). -/
def ChanState.code : ChanState → Nat
  | .disabled => 0 | .unsynced => 1 | .synced => 2 | .error => 3

/-- SYS_CHAN_STATUS. -/
def sysChanStatusSpec : Spec :=
  { opcode := 8, permits := fun s i ps => i = 0 || (s.chan (fieldAt ps 0 2)).bound = some i, plen := fixed 8
    fields := fun _ ps => [below ps 0 2 194, rsv ps 2 6]
    run := fun s _ _ ps =>
      let c := s.chan (fieldAt ps 0 2)
      gives s (leBytes 1 c.state.code ++ leBytes 1 (c.bound.getD 0xFF) ++ leBytes 1 c.inProg.length ++ zeros 1 ++
        leBytes 4 (if c.state = .synced then c.e.toNat else 0) ++ leBytes 4 c.rseq.toNat ++ leBytes 4 c.discards ++ leBytes 2 c.source ++
        leBytes 2 c.udpPort ++ zeros 4) }

/-- SYS_CHAN_STATUS (R246): reports a channel. -/
def execSysChanStatus (c : Cmd) (s : State) : Res := .next (s.command sysChanStatusSpec c)

/-- SYS_RING_SET after its parameter checks. -/
def sysRingSetRun (s : State) (w : Waiter) (_ : Nat) (ps : List Byte) : Act :=
  let i := fieldAt ps 0 1
  let ch := 66 + i
  let a := fieldAt ps 8 8
  let b := fieldAt ps 16 8
  let n := fieldAt ps 24 4
  if n = 0 then .wait ((s.finish w 0 0 []).disableChan ch)
  else if (a < b + 64 + n ∧ b < a + 64 + n) ∨ !s.mapsRw i a (64 + n) ∨ !s.mapsRw i b (64 + n) then fails s 0x0104
  else
    match s.ringReset clsHost i a with
    | (s, false) => fails s 0x0104
    | (s1, true) => match s1.ringReset clsHost i b with
      | (s, false) => fails s 0x0104
      | (s2, true) =>
        let s3 := s2.modChan ch fun c =>
          { c with
            bound := some i, state := .unsynced, e := 0, rseq := 0, kept := [], aborts := [], held := [], repCons := 0
            inProg := c.inProg.filter fun e => decide (w.ch = ch) && e.id = w.id
            cmdRing := a, repRing := b, ringLen := n, pollUs := fieldAt ps 28 2, cons := 0, prod := 0 }
        .wait ((s3.finish w 0 0 []).modChan ch fun c => { c with kept := [] })

/-- SYS_RING_SET. -/
def sysRingSetSpec : Spec :=
  { opcode := 9, permits := managerOnly, plen := fixed 32
    fields := fun _ ps => [below ps 0 1 64, rsv ps 1 7, address ps 8 4096, address ps 16 4096,
      (24, fieldAt ps 24 4 = 0 || ringLenOk (fieldAt ps 24 4)), within ps 28 2 1 1000, rsv ps 30 2]
    run := sysRingSetRun }

/-- SYS_RING_SET (R247): places the rings of an on-device channel. -/
def execSysRingSet (c : Cmd) (s : State) : Res := .next (s.command sysRingSetSpec c)

/-! ## Packets by their bytes -/

/-- Every opcode that a chapter defines but SYS_SYNC (R13, R14). -/
def commandSpecs : List Spec :=
  [sysIdentifySpec, sysAbortSpec, sysEchoSpec, sysRegReadSpec, sysRegWriteSpec, sysChanSetSpec, sysChanStatusSpec, sysRingSetSpec,
   pclInstCreateSpec, pclInstResetSpec, pclInstRemoveSpec, pclParcelAllocSpec, pclParcelFreeSpec, pclShareSetSpec, pclMapSetSpec,
   pclBudgetSetSpec, pclAcctConfigSpec, pclInstStatusSpec,
   cutLoadSpec, cutStartSpec, cutPauseSpec, cutResumeSpec, cutStopSpec, cutUnloadSpec, cutStatusSpec,
   memZoneSetSpec, gthTableSetSpec, gthTableClearSpec, gthTableGetSpec, gthCacheDropSpec,
   ckpConfigSpec, ckpNowSpec, ckpStatusSpec, ckpRestoreSpec,
   fabGateSetSpec, fabJobGetSpec, fabNeighGetSpec,
   netRuleSetSpec, netRuleClearSpec, netRuleGetSpec, netQueueSetSpec, netQueueGetSpec] ++
  [tmsMeterSetSpec, tmsShaperSetSpec, tmsObjFreeSpec, tmsObjGetSpec, tmsEqSetSpec, tmsIqmapSetSpec,
   rmaCtxAreaSpec, rmaPdAllocSpec, rmaPdFreeSpec, rmaQpCreateSpec, rmaQpModifySpec, rmaQpDestroySpec, rmaQpGetSpec, rmaMwOpenSpec,
   rmaMwRevokeSpec, rmaDbSetSpec,
   stoCtrlEnSpec, stoCtrlStatusSpec, stoNsCreateSpec, stoNsDeleteSpec, stoNsAttachSpec, stoNsCopySpec, stoDriveStatusSpec,
   pceFnBindSpec, pceIwinSetSpec, pceOwinSetSpec, pceWinGetSpec, pceDirtySetSpec, pceDirtySwapSpec, pceAperSetSpec, pceWakeSpec,
   pceFnStatusSpec,
   cipCtxSetSpec, cipCtxFreeSpec, cipOpSpec, cipStateSaveSpec, cipStateRestoreSpec, cipQpBindSpec, cipHashSpec, cipLmsSpec,
   pwrRungSetSpec, pwrStatusSpec, pwrCapSetSpec, pwrPaceSetSpec, fwStageSpec, fwCommitSpec, fwActivateSpec, fwFloorSetSpec,
   attestQuoteSpec,
   logDlogSetSpec, logIlogSetSpec, logFreezeSpec, logFlushSpec, logFlashReadSpec,
   dgnFaultGetSpec, dgnFaultClearSpec, dgnDieRestartSpec, dgnDeviceResetSpec, dgnInjectSpec]

/-- The command of an opcode that no chapter defines. -/
def unknownSpec (op : Nat) : Spec :=
  { known := false, opcode := op, permits := anyone, plen := fun _ => none, fields := fun _ _ => [], run := fun s _ _ _ => okay s }

/-- Bytes that are no packet arrive on a channel: they are discarded and counted (R237 item 1). -/
def State.junk (s : State) (ch : Nat) : State :=
  if s.power.rung = 4 then if ch = 1 then s.wake else s
  else if s.power.rung = 3 ∧ 2 ≤ ch then s
  else if !s.serves ch 0 then s
  else s.chanDiscard ch

/-- A packet arrives: its opcode names the command. Opcode 0 is a pad record and no command (R227). -/
def State.runPacket (s : State) (op : Nat) (c : Cmd) : State :=
  if op = 0 then if c.pkt.framed 0 ∧ s.power.rung ≠ 4 then s else s.junk c.ch
  else if op = 1 then s.syncCommand c
  else match commandSpecs.find? fun sp => sp.opcode = op with
    | some sp => (s.command sp c).resetIfDue
    | none => s.command (unknownSpec op) c

/-- The packet that bytes spell; none when they are too short or too long (R237 item 1). -/
def parsePacket (bs : List Byte) : Option (Nat × Packet) :=
  if bs.length < 32 ∨ 1056 < bs.length then none
  else
    let w (o n : Nat) : BitVec 32 := BitVec.ofNat 32 (fieldAt bs o n)
    some (fieldAt bs 0 2,
      { version := bs.getD 2 0, flags := bs.getD 3 0, seq := w 4 4, plen := fieldAt bs 8 4
        status := BitVec.ofNat 16 (fieldAt bs 12 2), rsv14 := BitVec.ofNat 16 (fieldAt bs 14 2), detail := w 16 4, crc := w 20 4
        rseq := w 24 4, elapsed := w 28 4, params := bs.drop 32 })

/-- Bytes arrive on a channel as one message. -/
def State.arrive (s : State) (ch src : Nat) (bs : List Byte) : State :=
  match parsePacket bs with
  | none => s.junk ch
  | some (op, p) => s.runPacket op { ch, src, pkt := p }

/-- UNKNOWN_OPCODE (R14): a command whose opcode no chapter defines; any other opcode is its own command's. -/
def execUnknownOpcode (op : Nat) (c : Cmd) (s : State) : Res := .next (s.runPacket op c)

/-- COMMAND_PACKET_DISCARD (R237): bytes that fail framing. -/
def execCommandPacketDiscard (ch src : Nat) (raw : List Byte) (s : State) : Res :=
  .next (match parsePacket raw with
    | some (op, p) => if p.framed op then s else s.arrive ch src raw
    | none => s.junk ch)

/-- MCTP_REASSEMBLY_TIMEOUT (R237): a message that is not complete is discarded. -/
def execMctpReassemblyTimeout (s : State) : Res := .next (if s.power.rung = 4 then s else s.junk 1)

/-- REPLY_BOUND_EXPIRE (R238): a command has not finished by its bound: a fault, and the reply 0x000D, or what its chapter names: 0x100C
of an instance's reset or removal; 0x3004 of a table command that waits for descriptors, whose entry stays unchanged (R174). What it
has done remains, and its block goes on. -/
def execReplyBoundExpire (ch : Nat) (seq : BitVec 32) (s : State) : Res :=
  .next <|
    let ps := (s.chan ch).inProg
    match (ps.find? fun e => e.seq = seq && !e.stale).orElse fun _ => ps.find? fun e => e.seq = seq with
    | none => s
    | some e =>
      let w : Waiter := { ch, id := e.id, seq }
      match s.storage.deletes.find? fun d => d.2.1.ch = ch && d.2.1.id = e.id with
      | some d => s.endNsDelete d.1 false
      | none =>
      let s := s.recordFault 0x0001 .command e.opcode
      if e.opcode = 0x1002 ∨ e.opcode = 0x1003 then s.finish w 0x100C 0 []
      else match s.gather.waits.find? fun x => x.waiter.ch = ch && x.waiter.id = e.id with
        | some x => ({ s with gather := { s.gather with waits := s.gather.waits.erase x } }).finish w 0x3004 0 []
        | none => s.finish w 0x0D 0x0001 []

/-! ## Ring channels (R230, R231) -/

/-- A ring offset that is out of place. -/
def ringBad (n len : Nat) : Bool := decide (n % 64 ≠ 0) || decide (len ≤ n)

/-- Bytes of a record in a ring, by the PLEN in its header: 64 where the header gives no packet. -/
def recordSize (hdr : List Byte) : Nat :=
  let n := fieldAt hdr 8 4
  if n ≤ 1024 ∧ n % 8 = 0 then (32 + n + 63) / 64 * 64 else 64

/-- The check of a command ring: PROD, the reply ring's CONS, how a record at an offset is read and how CONS is written. One record is
taken: a pad record returns CONS to 0. -/
def State.ringCheck (s : State) (ch len prod repCons : Nat) (rd : State → Nat → Nat → State × Option (List Byte)) (wr : State → Nat → Option State) :
    State :=
  if ringBad prod len || ringBad repCons len then s.chanError ch
  else
  let s := (s.modChan ch fun c => { c with repCons }).flushReplies ch
  let c := s.chan ch
  let k := c.inProg.length
  if c.state = .error ∨ 16 ≤ k ∨ prod = c.cons ∨ ringRoom c.prod repCons len ≤ 1088 * (k + c.held.length + 1) then s
  else
    match rd s c.cons 64 with
    | (s, none) => s.chanError ch
    | (s, some hdr) =>
      let pad : Bool := fieldAt hdr 0 2 = 0
      let n := recordSize hdr
      if !pad && decide (len < c.cons + n) then s.chanError ch
      else
        let next := if pad then 0 else (c.cons + n) % len
        let (s, rec) := if pad then (s, some hdr) else rd s c.cons n
        match rec, wr s next with
        | some bs, some s =>
          let s := s.modChan ch fun c => { c with cons := next }
          if pad then s else s.arrive ch 0 (bs.take (32 + min 1024 (fieldAt hdr 8 4)))
        | _, _ => s.chanError ch

/-- A mailbox's rings are checked: what the host's memory holds comes from outside (log entry 9). -/
def State.mailboxCheck (s : State) (fn : Nat) (h : HostRing) : State :=
  let x := s.fn fn
  let ch := fn + 2
  if !s.serves ch 0 || !ringLenOk x.mbLen || x.d3 || x.flr || decide (3 ≤ s.power.rung) then s
  else match s.masterReason fn with
    | some r => s.masterRefused fn r
    | none =>
      if !h.ok then s.chanError ch
      else s.ringCheck ch x.mbLen h.prod h.repCons (fun s _ n => (s, some (h.record.take n))) fun s n =>
        let r := s.busWrite fn (x.mbCmd.toNat + 8) (leBytes 8 n)
        if r.2 then some r.1 else none

/-- An on-device ring is checked, in its instance's memory; not at Doze (R437). -/
def State.deviceCheck (s : State) (i : Nat) : State :=
  let ch := 66 + i
  let c := s.chan ch
  if !s.serves ch 0 || decide (c.ringLen = 0) || decide (2 ≤ s.power.rung) then s
  else
    let (s, p) := s.readBy clsHost i c.cmdRing 8
    let (s, q) := s.readBy clsHost i (c.repRing + 8) 8
    match p, q with
    | .ok p, .ok q =>
      s.ringCheck ch c.ringLen (leNat p) (leNat q) (fun s o n => match s.readBy clsHost i (c.cmdRing + 64 + o) n with
          | (s, .ok bs) => (s, some bs)
          | (s, .error _) => (s, none))
        fun s n => match s.writeBy clsHost i (c.cmdRing + 8) (leBytes 8 n) with | (s, .ok _) => some s | (_, .error _) => none
    | _, _ => s.chanError ch

/-- COMMAND_RING_POLL (R231): a ring channel is checked. -/
def execCommandRingPoll (ch : Nat) (h : HostRing) (s : State) : Res :=
  .next <|
    match mailboxFn ch with
    | some fn => s.mailboxCheck fn h
    | none => if 66 ≤ ch ∧ ch < 130 then s.deviceCheck (ch - 66) else s

/-- MB_DOORBELL (R231, R382): a write makes the Destan check a mailbox's command ring. -/
def execMbDoorbell (fn : Nat) (h : HostRing) (s : State) : Res := .next (s.barWrite fn fun s _ => s.mailboxCheck fn h)

end Sys2Proof.Machine
end

