-- ==== Sys2Proof/Machine/Frames.lean ====
section
/-! DEFINITION. Frames at the ports: CMD and ENCAP frames of the fabric (R228, R254), frames at a MAC and their classification
(R285 to R287, R295), frames held during exit (R437), and the management port (R288). -/

namespace Sys2Proof.Machine

/-! ## The fabric's frames for channels and the parser -/

/-- The enabled fabric channel that a device's frames reach (R228, R245). -/
def State.fabricChan (s : State) (dev : Nat) : Option Nat :=
  (List.range 64).map (130 + ·) |>.find? fun c => (s.chan c).state ≠ .disabled && (s.chan c).bound.isSome && (s.chan c).source = dev

/-- CMD_FRAME_RECEIVE (R228, R252): the packet reaches the channel of its source; without one the frame is discarded at ingress. -/
def execCmdFrameReceive (link : Nat) (z : ZFrame) (s : State) : Res :=
  .next <|
    let z := { z with typ := 9 }
    let here : Bool := decide (link < 64) && (s.link link).state = .up && s.fabricLink link && decide (s.power.rung < 3)
    match s.fabricChan z.src with
    | none =>
      if here && !z.malformed && z.dst = s.fabric.id then (s.wakeDeep.countRx link z.wire).zDiscard 2 else (s.zIngress link z).1
    | some ch =>
      let (s, ok) := s.zIngress link z
      if ok then s.arrive ch z.src z.payload else s

/-- A frame is classified and delivered; one for the remote-memory engine goes there (R295, R299). -/
def State.frameIn (s : State) (link : Nat) (encap : Bool) (time : Nat) (bs : List Byte) : State :=
  let (s, rma) := s.classify link encap time bs
  match rma with
  | some b => s.engineTakes link (roceOf b s.eth.tpid2.toNat time)
  | none => s

/-- The frames held during exit are released in arrival order (R437). -/
def State.releaseFrames (s : State) : State :=
  s.power.held.foldl (fun s e => s.frameIn e.1 false e.2.time e.2.bytes) { s with power := { s.power with held := [] } }

/-- ENCAP_RECEIVE (R254, R291): the inner frame is parsed as one that arrived on the link, behind frames that were held. -/
def execEncapReceive (link : Nat) (z : ZFrame) (s : State) : Res :=
  .next <|
    let (s, ok) := s.zIngress link { z with typ := 0xD }
    if ok then (if s.power.exiting then s else s.releaseFrames).frameIn link true s.gptp z.payload else s

/-! ## Frames at a MAC (R285 to R287, R437) -/

/-- The EtherType after any tags (R287). -/
def innerType (bs : List Byte) (tpid2 : Nat) : Nat := wordAt bs (walkTags bs tpid2 bs.length 12).2 2

/-- The Zaren frame that the bytes of a frame are (R251): one whose header does not stand behind one tag is malformed by its class. -/
def zarenOf (bs : List Byte) (tpid2 : Nat) : ZFrame :=
  match walkTags bs tpid2 bs.length 12 with
  | ([12], _) => ZFrame.read (if wordAt bs 12 2 = 0x8100 && !bitAt (byteAt bs 14) 4 then byteAt bs 14 / 32 else 8) 18 bs
  | (_, e) => ZFrame.read 8 (e + 2) bs

/-- What a CTRL frame does, by its CODE (R277). -/
def ctrlExec (code link : Nat) (z : ZFrame) : State → Res :=
  match code with
  | 1 => execCtrlArrive link z
  | 2 => execCtrlClose link z
  | 3 => execCtrlSlip link z
  | 4 => execCtrlAbort link z
  | 5 => execCtrlPause link z
  | 6 => execCtrlResume link z
  | 7 => execCtrlStop link z
  | 8 => execCtrlReady link z
  | 9 => execCtrlGo link z
  | 0x0A => execCtrlCknow link z
  | 0x0B => execCtrlCkpt link z
  | 0x0C => execCtrlArmed link z
  | 0x0D => execCtrlRelease link z
  | 0x0E => execCtrlSealed link z
  | 0x0F => execCtrlFailed link z
  | 0x10 => execCtrlDone link z
  | 0x11 => execCtrlPauseReq link z
  | 0x12 => execCtrlStopReq link z
  | _ => execCtrlArrive link z

/-- What a Zaren frame does at ingress, by its TYPE and DST (R250, R251, R262). -/
def zarenExec (link : Nat) (z : ZFrame) (s : State) : Res :=
  if z.typ = 0xA then execHelloReceive link z s
  else if z.typ = 0xB then execLsaReceive link z s
  else if z.typ = 0xC then execRoutesReceive link z s
  else if z.dst ≠ s.fabric.id then execZarenForward link z s
  else match z.typ with
    | 1 => execZarenWriteReceive link z s
    | 2 => execZarenReadReceive link z s
    | 3 => execZarenDataReceive link z s
    | 4 => execZarenTokenReceive link z s
    | 5 => execZarenDoneReceive link z s
    | 6 => execZarenFailReceive link z s
    | 7 => execPackReceive link z s
    | 8 => ctrlExec (fieldAt z.payload 0 1) link z s
    | 9 => execCmdFrameReceive link z s
    | 0xD => execEncapReceive link z s
    | 0xE => execResyncReceive link z s
    | _ => .next (s.zIngress link z).1

/-- A frame with the fabric's EtherType on a fabric-mode port goes to the fabric (R287). -/
def State.zarenArrive (s : State) (link : Nat) (bs : List Byte) : State :=
  match zarenExec link (zarenOf bs s.eth.tpid2.toNat) s with
  | .next t => t
  | _ => s

/-- The bytes of frames that a die holds during exit. -/
def State.heldBytes (s : State) (die : Nat) : Nat :=
  ((s.power.held.filter fun e => dieOfLink e.1 = die).map fun e => e.2.bytes.length + 4).sum

/-- A frame that the MAC has taken goes on to the parser. One whose verdict is delivery wakes the device (R435). -/
def State.frameOn (s : State) (link : Nat) (fr : EthFrame) : State :=
  let s := if s.frameWakes link fr.bytes then s.wakeDeep else s
  s.frameIn link false fr.time fr.bytes

/-- A frame arrives at a MAC. -/
def State.frameArrives (s : State) (link : Nat) (fr : EthFrame) : State :=
  let n := fr.bytes.length + 4
  let count (c : Nat) : State := s.modLink link fun x => { x with cnt := x.cnt.bump c }
  let t := innerType fr.bytes s.eth.tpid2.toNat
  if !fr.fcsOk || !fr.phyOk then count 2
  else if n < 64 ∨ s.linkLimit link < n then count 3
  else if s.fabricLink link && t = 0x88F7 then s
  else if s.fabricLink link && t = s.fabric.etype.toNat then s.zarenArrive link fr.bytes
  else
    let s := s.countRx link n
    if wordAt fr.bytes 12 2 = 0x8808 then s.netDrop (dieOfLink link) 7
    else if s.power.exiting then
      if 0x100_0000 < s.heldBytes (dieOfLink link) + n then
        { s with power := { s.power with wakedrop := min 0xFFFFFFFF (s.power.wakedrop + 1) } }
      else { s with power := { s.power with held := s.power.held ++ [(link, fr)] } }
    else s.frameOn link fr

/-- FRAME_RECEIVE (R286, R287, R295): a frame is checked by its MAC, parsed, classified and delivered. On a fabric-mode port a Zaren
frame goes to the fabric; a gPTP message is a command of its own. -/
def execFrameReceive (link : Nat) (fr : EthFrame) (s : State) : Res :=
  .next <|
    if 64 ≤ link ∨ (s.link link).state ≠ .up ∨ 3 ≤ s.power.rung then s
    else
      let s := if s.power.exiting then s else s.releaseFrames
      s.frameArrives link fr

/-- RUNG_EXIT_COMPLETE (R434, R437, R438): the device is at Run, and the frames it held are released. -/
def execRungExitComplete (s : State) : Res := .next ((if s.power.exiting then s.finishExit else s).releaseFrames)

/-! ## The management port (R288) -/


/-- The address is one of the port's; one that is zero is not. -/
def State.isMgmt4 (s : State) (a : List Byte) : Bool := a = s.mgmtIp4 && !allZero a
def State.isMgmt6 (s : State) (a : List Byte) : Bool := (a = s.mgmtIp6 && !allZero a) || a = linkLocal


/-- ARP (RFC 826): a request for NET_MGMT_IP4 is answered. -/
def State.mgmtArp (s : State) (src b : List Byte) : State :=
  if slice b 0 8 = [0, 1, 8, 0, 6, 4, 0, 1] ∧ 28 ≤ b.length ∧ s.isMgmt4 (slice b 24 4) then
    s.mgmtSend src 0x0806 ([0, 1, 8, 0, 6, 4, 0, 2] ++ mgmtMac ++ slice b 24 4 ++ slice b 8 6 ++ slice b 14 4)
  else s

/-- A datagram to the command port carries one packet (R228). -/
def State.mgmtUdp (s : State) (mac addr pseudo u : List Byte) (v6 ll : Bool) : State :=
  let n := wordAt u 4 2
  let sum := wordAt u 6 2
  let d := u.take n
  if n < 8 ∨ u.length < n ∨ wordAt u 2 2 ≠ (s.chan 0).udpPort then s
  else if (sum = 0 && v6) || (sum ≠ 0 && onesSum (pseudo ++ d) ≠ 65535) then s
  else s.arrive 0 (sourceNo v6 ll addr (wordAt u 0 2) mac) (d.drop 8)

/-- An IPv4 packet: an echo request (RFC 792) or a datagram. Fragments are dropped. -/
def State.mgmtIpv4 (s : State) (src b : List Byte) : State :=
  let h := 4 * (byteAt b 0 % 16)
  let n := wordAt b 2 2
  let from_ := slice b 12 4
  let own := slice b 16 4
  let p := (b.take n).drop h
  if byteAt b 0 / 16 ≠ 4 ∨ h < 20 ∨ n < h ∨ b.length < n ∨ onesSum (b.take h) ≠ 65535 ∨ !s.isMgmt4 own ∨ wordAt b 6 2 % 0x4000 ≠ 0 then s
  else if byteAt b 9 = 1 then
    if p.length < 8 ∨ byteAt p 0 ≠ 8 ∨ byteAt p 1 ≠ 0 ∨ onesSum p ≠ 65535 then s
    else
      let body := p.drop 4
      let icmp := [0, 0] ++ beBytes 2 (inetSum ([0, 0, 0, 0] ++ body)) ++ body
      s.ip4Send src own from_ 1 icmp
  else if byteAt b 9 = 17 then s.mgmtUdp src from_ (pseudo4 from_ own (wordAt p 4 2) 17) p false false
  else s
/-- Sends an ICMPv6 message (RFC 4443). -/
def State.icmp6 (s : State) (mac own dst : List Byte) (typ hop : Nat) (body : List Byte) : State :=
  let msg (sum : List Byte) := beBytes 1 typ ++ [0] ++ sum ++ body
  s.ip6Send mac own dst 58 hop (msg (beBytes 2 (inetSum (pseudo6 own dst (4 + body.length) 58 ++ msg [0, 0]))))

/-- FF02::1, to which an advertisement goes when the request has no source address (RFC 4861). -/
def allNodes : List Byte := [0xFF, 0x02] ++ zeros 13 ++ [1]

/-- An IPv6 packet: a neighbour solicitation (RFC 4861), an echo request (RFC 4443) or a datagram. -/
def State.mgmtIpv6 (s : State) (src b : List Byte) : State :=
  let n := wordAt b 4 2
  let from_ := slice b 8 16
  let own := slice b 24 16
  let p := (b.drop 40).take n
  if byteAt b 0 / 16 ≠ 6 ∨ p.length < n ∨ b.length < 40 then s
  else if byteAt b 6 = 58 then
    if onesSum (pseudo6 from_ own n 58 ++ p) ≠ 65535 then s
    else if byteAt p 0 = 135 ∧ byteAt p 1 = 0 ∧ byteAt b 7 = 255 ∧ 24 ≤ n then
      let target := slice p 8 16
      if !s.isMgmt6 target then s
      else
        let (dst, flags) := if allZero from_ then (allNodes, 0x20) else (from_, 0x60)
        s.icmp6 src target dst 136 255 (beBytes 1 flags ++ [0, 0, 0] ++ target ++ [2, 1] ++ mgmtMac)
    else if byteAt p 0 = 128 ∧ byteAt p 1 = 0 ∧ 8 ≤ n ∧ s.isMgmt6 own then
      let (v, s) := s.takeFree
      s.icmp6 src own from_ 129 (v % 256) (p.drop 4)
    else s
  else if byteAt b 6 = 17 ∧ s.isMgmt6 own then s.mgmtUdp src from_ (pseudo6 from_ own (wordAt p 4 2) 17) p true (own = linkLocal)
  else s

/-- MGMT_FRAME_RECEIVE (R288): a frame at the management port, from its destination address up to its FCS. -/
def execMgmtFrameReceive (fr : List Byte) (s : State) : Res :=
  .next <|
    let to_ := fr.take 6
    let src := slice fr 6 6
    let b := fr.drop 14
    let et := wordAt fr 12 2
    if !s.eth.mgmtUp || s.pins.phyRst || fr.length < 14 || !(to_ = mgmtMac || (to_.getD 0 0).getLsbD 0) || s.power.rung = 4 then s
    else if et = 0x0806 then s.mgmtArp src b
    else if et = 0x0800 then s.mgmtIpv4 src b
    else if et = 0x86DD then s.mgmtIpv6 src b
    else s

end Sys2Proof.Machine
end

