-- ==== Sys2Proof/Machine/Dispatch.lean ====
section
/-! DEFINITION. The dispatch: one arm per constructor of `Instr`, each one direct call of the command's meaning. -/

namespace Sys2Proof.Machine

/-- The command's effect on everything but the queue. -/
def exec (i : Instr) (s : State) : Host.Outcome State Fault Refusal :=
  match i with
  | .tok f st => Sys2Proof.Machine.execTok f st s
  | .beat f st => Sys2Proof.Machine.execBeat f st s
  | .loop f st => Sys2Proof.Machine.execLoop f st s
  | .setstep f st => Sys2Proof.Machine.execSetstep f st s
  | .stop f st => Sys2Proof.Machine.execStop f st s
  | .mma f st => Sys2Proof.Machine.execMma f st s
  | .mmaComplete f => Sys2Proof.Machine.execMmaComplete f s
  | .mdrain f st => Sys2Proof.Machine.execMdrain f st s
  | .mdrainComplete f => Sys2Proof.Machine.execMdrainComplete f s
  | .vld f st => Sys2Proof.Machine.execVld f st s
  | .vst f st => Sys2Proof.Machine.execVst f st s
  | .vmovi f st => Sys2Proof.Machine.execVmovi f st s
  | .vadd f st => Sys2Proof.Machine.execVadd f st s
  | .vsub f st => Sys2Proof.Machine.execVsub f st s
  | .vmul f st => Sys2Proof.Machine.execVmul f st s
  | .vfma f st => Sys2Proof.Machine.execVfma f st s
  | .vmax f st => Sys2Proof.Machine.execVmax f st s
  | .vmin f st => Sys2Proof.Machine.execVmin f st s
  | .vabs f st => Sys2Proof.Machine.execVabs f st s
  | .vneg f st => Sys2Proof.Machine.execVneg f st s
  | .vcmp f st => Sys2Proof.Machine.execVcmp f st s
  | .vsel f st => Sys2Proof.Machine.execVsel f st s
  | .vcvt f st => Sys2Proof.Machine.execVcvt f st s
  | .vrsum f st => Sys2Proof.Machine.execVrsum f st s
  | .vrmax f st => Sys2Proof.Machine.execVrmax f st s
  | .vexp2 f st => Sys2Proof.Machine.execVexp2 f st s
  | .vrcp f st => Sys2Proof.Machine.execVrcp f st s
  | .vrsqrt f st => Sys2Proof.Machine.execVrsqrt f st s
  | .vand f st => Sys2Proof.Machine.execVand f st s
  | .vor f st => Sys2Proof.Machine.execVor f st s
  | .vxor f st => Sys2Proof.Machine.execVxor f st s
  | .vshl f st => Sys2Proof.Machine.execVshl f st s
  | .vshr f st => Sys2Proof.Machine.execVshr f st s
  | .vectorComplete f => Sys2Proof.Machine.execVectorComplete f s
  | .saddr f st => Sys2Proof.Machine.execSaddr f st s
  | .speer f st => Sys2Proof.Machine.execSpeer f st s
  | .sput f st => Sys2Proof.Machine.execSput f st s
  | .sget f st => Sys2Proof.Machine.execSget f st s
  | .stok f st => Sys2Proof.Machine.execStok f st s
  | .sgather f st => Sys2Proof.Machine.execSgather f st s
  | .tadd f st => Sys2Proof.Machine.execTadd f st s
  | .waitLimit f st => Sys2Proof.Machine.execWaitLimit f st s
  | .watchdog f st => Sys2Proof.Machine.execWatchdog f st s
  | .facetArrive f => Sys2Proof.Machine.execFacetArrive f s
  | .facetDone f => Sys2Proof.Machine.execFacetDone f s
  | .flitRoute x y port fl => Sys2Proof.Machine.execFlitRoute x y port fl s
  | .flitWriteReceive f fl => Sys2Proof.Machine.execFlitWriteReceive f fl s
  | .flitReadReceive f fl => Sys2Proof.Machine.execFlitReadReceive f fl s
  | .flitDataReceive f fl => Sys2Proof.Machine.execFlitDataReceive f fl s
  | .flitTokenReceive f fl => Sys2Proof.Machine.execFlitTokenReceive f fl s
  | .flitAckReceive f fl => Sys2Proof.Machine.execFlitAckReceive f fl s
  | .flitNackReceive f fl => Sys2Proof.Machine.execFlitNackReceive f fl s
  | .meshStall f port vc => Sys2Proof.Machine.execMeshStall f port vc s
  | .bankTransitionDone f bank => Sys2Proof.Machine.execBankTransitionDone f bank s
  | .tblBankpwrWrite f v => Sys2Proof.Machine.execTblBankpwrWrite f v s
  | .tblStallWrite f v => Sys2Proof.Machine.execTblStallWrite f v s
  | .fctFpflagsWrite f v => Sys2Proof.Machine.execFctFpflagsWrite f v s
  | .fctDiscardRead f => Sys2Proof.Machine.execFctDiscardRead f s
  | .fctSlackminRead f => Sys2Proof.Machine.execFctSlackminRead f s
  | .tblEccRead f => Sys2Proof.Machine.execTblEccRead f s
  | .cutLoad c => Sys2Proof.Machine.execCutLoad c s
  | .cutStart c => Sys2Proof.Machine.execCutStart c s
  | .cutPause c => Sys2Proof.Machine.execCutPause c s
  | .cutResume c => Sys2Proof.Machine.execCutResume c s
  | .cutStop c => Sys2Proof.Machine.execCutStop c s
  | .cutUnload c => Sys2Proof.Machine.execCutUnload c s
  | .cutStatus c => Sys2Proof.Machine.execCutStatus c s
  | .deviceArrive p => Sys2Proof.Machine.execDeviceArrive p s
  | .outputRecordWrite p => Sys2Proof.Machine.execOutputRecordWrite p s
  | .beatLimitExpire p => Sys2Proof.Machine.execBeatLimitExpire p s
  | .beatDeadline p => Sys2Proof.Machine.execBeatDeadline p s
  | .windowEnd p => Sys2Proof.Machine.execWindowEnd p s
  | .timedStart p => Sys2Proof.Machine.execTimedStart p s
  | .startLimitExpire p => Sys2Proof.Machine.execStartLimitExpire p s
  | .ctrlArrive link z => Sys2Proof.Machine.execCtrlArrive link z s
  | .ctrlClose link z => Sys2Proof.Machine.execCtrlClose link z s
  | .ctrlSlip link z => Sys2Proof.Machine.execCtrlSlip link z s
  | .ctrlAbort link z => Sys2Proof.Machine.execCtrlAbort link z s
  | .ctrlPause link z => Sys2Proof.Machine.execCtrlPause link z s
  | .ctrlResume link z => Sys2Proof.Machine.execCtrlResume link z s
  | .ctrlStop link z => Sys2Proof.Machine.execCtrlStop link z s
  | .ctrlReady link z => Sys2Proof.Machine.execCtrlReady link z s
  | .ctrlGo link z => Sys2Proof.Machine.execCtrlGo link z s
  | .ctrlCknow link z => Sys2Proof.Machine.execCtrlCknow link z s
  | .ctrlCkpt link z => Sys2Proof.Machine.execCtrlCkpt link z s
  | .ctrlArmed link z => Sys2Proof.Machine.execCtrlArmed link z s
  | .ctrlRelease link z => Sys2Proof.Machine.execCtrlRelease link z s
  | .ctrlSealed link z => Sys2Proof.Machine.execCtrlSealed link z s
  | .ctrlFailed link z => Sys2Proof.Machine.execCtrlFailed link z s
  | .ctrlDone link z => Sys2Proof.Machine.execCtrlDone link z s
  | .ctrlPauseReq link z => Sys2Proof.Machine.execCtrlPauseReq link z s
  | .ctrlStopReq link z => Sys2Proof.Machine.execCtrlStopReq link z s
  | .memZoneSet c => Sys2Proof.Machine.execMemZoneSet c s
  | .gthTableSet c => Sys2Proof.Machine.execGthTableSet c s
  | .gthTableClear c => Sys2Proof.Machine.execGthTableClear c s
  | .gthTableGet c => Sys2Proof.Machine.execGthTableGet c s
  | .gthCacheDrop c => Sys2Proof.Machine.execGthCacheDrop c s
  | .gthTableWaitEnd inst tab => Sys2Proof.Machine.execGthTableWaitEnd inst tab s
  | .mgFlitReceive k fl => Sys2Proof.Machine.execMgFlitReceive k fl s
  | .hbmWriteIssue stack => Sys2Proof.Machine.execHbmWriteIssue stack s
  | .hbmReadComplete stack o => Sys2Proof.Machine.execHbmReadComplete stack o s
  | .hbmRefresh stack pc bank => Sys2Proof.Machine.execHbmRefresh stack pc bank s
  | .stackTempCross stack temp => Sys2Proof.Machine.execStackTempCross stack temp s
  | .patrolScrub addr o => Sys2Proof.Machine.execPatrolScrub addr o s
  | .stackRequestTimeout stack => Sys2Proof.Machine.execStackRequestTimeout stack s
  | .gatherDescReceive k fl => Sys2Proof.Machine.execGatherDescReceive k fl s
  | .gatherRowArrive k o => Sys2Proof.Machine.execGatherRowArrive k o s
  | .gatherChunkDeliver k => Sys2Proof.Machine.execGatherChunkDeliver k s
  | .gthCacheWrite k v => Sys2Proof.Machine.execGthCacheWrite k v s
  | .gthCwaysWrite k inst v => Sys2Proof.Machine.execGthCwaysWrite k inst v s
  | .memUelogWrite k n v => Sys2Proof.Machine.execMemUelogWrite k n v s
  | .memEccRead k => Sys2Proof.Machine.execMemEccRead k s
  | .memDiscardRead k => Sys2Proof.Machine.execMemDiscardRead k s
  | .ckpConfig c => Sys2Proof.Machine.execCkpConfig c s
  | .ckpNow c => Sys2Proof.Machine.execCkpNow c s
  | .ckpStatus c => Sys2Proof.Machine.execCkpStatus c s
  | .ckpRestore c => Sys2Proof.Machine.execCkpRestore c s
  | .ckpTimerExpire p => Sys2Proof.Machine.execCkpTimerExpire p s
  | .granuleSaveDone p g => Sys2Proof.Machine.execGranuleSaveDone p g s
  | .copierGranule p => Sys2Proof.Machine.execCopierGranule p s
  | .ckptSeal p => Sys2Proof.Machine.execCkptSeal p s
  | .pclInstCreate c => Sys2Proof.Machine.execPclInstCreate c s
  | .pclInstReset c => Sys2Proof.Machine.execPclInstReset c s
  | .pclInstRemove c => Sys2Proof.Machine.execPclInstRemove c s
  | .pclParcelAlloc c => Sys2Proof.Machine.execPclParcelAlloc c s
  | .pclParcelFree c => Sys2Proof.Machine.execPclParcelFree c s
  | .pclShareSet c => Sys2Proof.Machine.execPclShareSet c s
  | .pclMapSet c => Sys2Proof.Machine.execPclMapSet c s
  | .pclBudgetSet c => Sys2Proof.Machine.execPclBudgetSet c s
  | .pclAcctConfig c => Sys2Proof.Machine.execPclAcctConfig c s
  | .pclInstStatus c => Sys2Proof.Machine.execPclInstStatus c s
  | .instResetDrained i0 => Sys2Proof.Machine.execInstResetDrained i0 s
  | .instResetTimeout i0 die => Sys2Proof.Machine.execInstResetTimeout i0 die s
  | .mapSetDrained i0 => Sys2Proof.Machine.execMapSetDrained i0 s
  | .energyInterval => Sys2Proof.Machine.execEnergyInterval s
  | .acctPeriod => Sys2Proof.Machine.execAcctPeriod s
  | .pclPacedRead p => Sys2Proof.Machine.execPclPacedRead p s
  | .pclAcctdropRead => Sys2Proof.Machine.execPclAcctdropRead s
  | .sysSync c => Sys2Proof.Machine.execSysSync c s
  | .sysIdentify c => Sys2Proof.Machine.execSysIdentify c s
  | .sysAbort c => Sys2Proof.Machine.execSysAbort c s
  | .sysEcho c => Sys2Proof.Machine.execSysEcho c s
  | .sysRegRead c => Sys2Proof.Machine.execSysRegRead c s
  | .sysRegWrite c => Sys2Proof.Machine.execSysRegWrite c s
  | .sysChanSet c => Sys2Proof.Machine.execSysChanSet c s
  | .sysChanStatus c => Sys2Proof.Machine.execSysChanStatus c s
  | .sysRingSet c => Sys2Proof.Machine.execSysRingSet c s
  | .unknownOpcode op c => Sys2Proof.Machine.execUnknownOpcode op c s
  | .commandPacketDiscard ch src raw => Sys2Proof.Machine.execCommandPacketDiscard ch src raw s
  | .commandRingPoll ch h => Sys2Proof.Machine.execCommandRingPoll ch h s
  | .mctpReassemblyTimeout => Sys2Proof.Machine.execMctpReassemblyTimeout s
  | .replyBoundExpire ch seq => Sys2Proof.Machine.execReplyBoundExpire ch seq s
  | .registerWrite addr v => Sys2Proof.Machine.execRegisterWrite addr v s
  | .helloSend link => Sys2Proof.Machine.execHelloSend link s
  | .helloReceive link z => Sys2Proof.Machine.execHelloReceive link z s
  | .adjacencyDown link key => Sys2Proof.Machine.execAdjacencyDown link key s
  | .lsaSend => Sys2Proof.Machine.execLsaSend s
  | .lsaReceive link z => Sys2Proof.Machine.execLsaReceive link z s
  | .routesReceive link z => Sys2Proof.Machine.execRoutesReceive link z s
  | .heartbeatSend => Sys2Proof.Machine.execHeartbeatSend s
  | .routesResend key => Sys2Proof.Machine.execRoutesResend key s
  | .heartbeatLoss => Sys2Proof.Machine.execHeartbeatLoss s
  | .candidateExclusionEnd key => Sys2Proof.Machine.execCandidateExclusionEnd key s
  | .zarenWriteReceive link z => Sys2Proof.Machine.execZarenWriteReceive link z s
  | .zarenReadReceive link z => Sys2Proof.Machine.execZarenReadReceive link z s
  | .zarenDataReceive link z => Sys2Proof.Machine.execZarenDataReceive link z s
  | .zarenTokenReceive link z => Sys2Proof.Machine.execZarenTokenReceive link z s
  | .zarenDoneReceive link z => Sys2Proof.Machine.execZarenDoneReceive link z s
  | .zarenFailReceive link z => Sys2Proof.Machine.execZarenFailReceive link z s
  | .packReceive link z => Sys2Proof.Machine.execPackReceive link z s
  | .cmdFrameReceive link z => Sys2Proof.Machine.execCmdFrameReceive link z s
  | .encapReceive link z => Sys2Proof.Machine.execEncapReceive link z s
  | .resyncReceive link z => Sys2Proof.Machine.execResyncReceive link z s
  | .zarenForward link z => Sys2Proof.Machine.execZarenForward link z s
  | .peerTransferDone src tag => Sys2Proof.Machine.execPeerTransferDone src tag s
  | .zlkRtoExpire dev cls => Sys2Proof.Machine.execZlkRtoExpire dev cls s
  | .zarenAckTimer dev cls => Sys2Proof.Machine.execZarenAckTimer dev cls s
  | .resyncSend dev cls => Sys2Proof.Machine.execResyncSend dev cls s
  | .gptpMessageReceive link m => Sys2Proof.Machine.execGptpMessageReceive link m s
  | .gptpLockLoss offset => Sys2Proof.Machine.execGptpLockLoss offset s
  | .grandmasterLock => Sys2Proof.Machine.execGrandmasterLock s
  | .gateEntryAdvance port => Sys2Proof.Machine.execGateEntryAdvance port s
  | .adminGateStart port => Sys2Proof.Machine.execAdminGateStart port s
  | .fabGateSet c => Sys2Proof.Machine.execFabGateSet c s
  | .fabJobGet c => Sys2Proof.Machine.execFabJobGet c s
  | .fabNeighGet c => Sys2Proof.Machine.execFabNeighGet c s
  | .zlkPortWrite port v => Sys2Proof.Machine.execZlkPortWrite port v s
  | .zlkDiscardRead n => Sys2Proof.Machine.execZlkDiscardRead n s
  | .frameReceive link fr => Sys2Proof.Machine.execFrameReceive link fr s
  | .linkUp link => Sys2Proof.Machine.execLinkUp link s
  | .linkRestart link => Sys2Proof.Machine.execLinkRestart link s
  | .linkFault link lf rf phy => Sys2Proof.Machine.execLinkFault link lf rf phy s
  | .mgmtFrameReceive fr => Sys2Proof.Machine.execMgmtFrameReceive fr s
  | .netRuleSet c => Sys2Proof.Machine.execNetRuleSet c s
  | .netRuleClear c => Sys2Proof.Machine.execNetRuleClear c s
  | .netRuleGet c => Sys2Proof.Machine.execNetRuleGet c s
  | .netQueueSet c => Sys2Proof.Machine.execNetQueueSet c s
  | .netQueueGet c => Sys2Proof.Machine.execNetQueueGet c s
  | .netPortWrite port v => Sys2Proof.Machine.execNetPortWrite port v s
  | .netLinkRead link => Sys2Proof.Machine.execNetLinkRead link s
  | .netDropRead k n => Sys2Proof.Machine.execNetDropRead k n s
  | .netQstatRead q => Sys2Proof.Machine.execNetQstatRead q s
  | .transmitSelect link => Sys2Proof.Machine.execTransmitSelect link s
  | .shaperRefill => Sys2Proof.Machine.execShaperRefill s
  | .tmsMeterSet c => Sys2Proof.Machine.execTmsMeterSet c s
  | .tmsShaperSet c => Sys2Proof.Machine.execTmsShaperSet c s
  | .tmsObjFree c => Sys2Proof.Machine.execTmsObjFree c s
  | .tmsObjGet c => Sys2Proof.Machine.execTmsObjGet c s
  | .tmsEqSet c => Sys2Proof.Machine.execTmsEqSet c s
  | .tmsIqmapSet c => Sys2Proof.Machine.execTmsIqmapSet c s
  | .tmsEqstatRead q => Sys2Proof.Machine.execTmsEqstatRead q s
  | .tmsDropRead k n => Sys2Proof.Machine.execTmsDropRead k n s
  | .roceWriteReceive link pk => Sys2Proof.Machine.execRoceWriteReceive link pk s
  | .roceReadRequestReceive link pk => Sys2Proof.Machine.execRoceReadRequestReceive link pk s
  | .roceReadResponseReceive link pk => Sys2Proof.Machine.execRoceReadResponseReceive link pk s
  | .roceAckReceive link pk => Sys2Proof.Machine.execRoceAckReceive link pk s
  | .doorbellRingPoll i0 => Sys2Proof.Machine.execDoorbellRingPoll i0 s
  | .rmaDb fn v => Sys2Proof.Machine.execRmaDb fn v s
  | .workRequestFetch qp => Sys2Proof.Machine.execWorkRequestFetch qp s
  | .rocePacketSend qp => Sys2Proof.Machine.execRocePacketSend qp s
  | .roceRetransmitTimeout qp => Sys2Proof.Machine.execRoceRetransmitTimeout qp s
  | .roceAckTimer qp => Sys2Proof.Machine.execRoceAckTimer qp s
  | .contextFetchDone qp => Sys2Proof.Machine.execContextFetchDone qp s
  | .baseDelayRefresh => Sys2Proof.Machine.execBaseDelayRefresh s
  | .completionEntryWrite qp => Sys2Proof.Machine.execCompletionEntryWrite qp s
  | .rmaCtxArea c => Sys2Proof.Machine.execRmaCtxArea c s
  | .rmaPdAlloc c => Sys2Proof.Machine.execRmaPdAlloc c s
  | .rmaPdFree c => Sys2Proof.Machine.execRmaPdFree c s
  | .rmaQpCreate c => Sys2Proof.Machine.execRmaQpCreate c s
  | .rmaQpModify c => Sys2Proof.Machine.execRmaQpModify c s
  | .rmaQpDestroy c => Sys2Proof.Machine.execRmaQpDestroy c s
  | .rmaQpGet c => Sys2Proof.Machine.execRmaQpGet c s
  | .rmaMwOpen c => Sys2Proof.Machine.execRmaMwOpen c s
  | .rmaMwRevoke c => Sys2Proof.Machine.execRmaMwRevoke c s
  | .mwRevokeDrained w => Sys2Proof.Machine.execMwRevokeDrained w s
  | .rmaDbSet c => Sys2Proof.Machine.execRmaDbSet c s
  | .sqDoorbellWrite fn off v => Sys2Proof.Machine.execSqDoorbellWrite fn off v s
  | .doorbellAreaPoll i0 => Sys2Proof.Machine.execDoorbellAreaPoll i0 s
  | .ccEnWrite fn v => Sys2Proof.Machine.execCcEnWrite fn v s
  | .ccShnWrite fn v => Sys2Proof.Machine.execCcShnWrite fn v s
  | .deleteIoSq e => Sys2Proof.Machine.execDeleteIoSq e s
  | .createIoSq e => Sys2Proof.Machine.execCreateIoSq e s
  | .getLogPage e => Sys2Proof.Machine.execGetLogPage e s
  | .deleteIoCq e => Sys2Proof.Machine.execDeleteIoCq e s
  | .createIoCq e => Sys2Proof.Machine.execCreateIoCq e s
  | .identify e => Sys2Proof.Machine.execIdentify e s
  | .nvmeAbort e => Sys2Proof.Machine.execNvmeAbort e s
  | .setFeatures e => Sys2Proof.Machine.execSetFeatures e s
  | .getFeatures e => Sys2Proof.Machine.execGetFeatures e s
  | .asynchronousEventRequest e => Sys2Proof.Machine.execAsynchronousEventRequest e s
  | .nvmFlush e => Sys2Proof.Machine.execNvmFlush e s
  | .nvmWrite e => Sys2Proof.Machine.execNvmWrite e s
  | .nvmRead e => Sys2Proof.Machine.execNvmRead e s
  | .writeZeroes e => Sys2Proof.Machine.execWriteZeroes e s
  | .datasetManagement e => Sys2Proof.Machine.execDatasetManagement e s
  | .backingComplete id o => Sys2Proof.Machine.execBackingComplete id o s
  | .driveCompletionReceive id r => Sys2Proof.Machine.execDriveCompletionReceive id r s
  | .driveTimeout id => Sys2Proof.Machine.execDriveTimeout id s
  | .driveResetTimeout id => Sys2Proof.Machine.execDriveResetTimeout id s
  | .driveLinkUp port d => Sys2Proof.Machine.execDriveLinkUp port d s
  | .apstIdleExpire i0 => Sys2Proof.Machine.execApstIdleExpire i0 s
  | .stoCtrlEn c => Sys2Proof.Machine.execStoCtrlEn c s
  | .stoCtrlStatus c => Sys2Proof.Machine.execStoCtrlStatus c s
  | .stoNsCreate c => Sys2Proof.Machine.execStoNsCreate c s
  | .stoNsDelete c => Sys2Proof.Machine.execStoNsDelete c s
  | .stoNsAttach c => Sys2Proof.Machine.execStoNsAttach c s
  | .stoNsCopy c => Sys2Proof.Machine.execStoNsCopy c s
  | .stoDriveStatus c => Sys2Proof.Machine.execStoDriveStatus c s
  | .nvcCtrlRead i0 => Sys2Proof.Machine.execNvcCtrlRead i0 s
  | .configRequest fn r => Sys2Proof.Machine.execConfigRequest fn r s
  | .bar0BadAccess fn off size write v => Sys2Proof.Machine.execBar0BadAccess fn off size write v s
  | .mbCfgWrite fn v => Sys2Proof.Machine.execMbCfgWrite fn v s
  | .mbDoorbell fn h => Sys2Proof.Machine.execMbDoorbell fn h s
  | .inboundRead fn off len tag => Sys2Proof.Machine.execInboundRead fn off len tag s
  | .inboundWrite fn off data ep => Sys2Proof.Machine.execInboundWrite fn off data ep s
  | .masterReadIssue fn => Sys2Proof.Machine.execMasterReadIssue fn s
  | .completionReceive pc => Sys2Proof.Machine.execCompletionReceive pc s
  | .completionTimeout fn tag => Sys2Proof.Machine.execCompletionTimeout fn tag s
  | .tagQuarantineEnd fn tag => Sys2Proof.Machine.execTagQuarantineEnd fn tag s
  | .busMasterDisable fn => Sys2Proof.Machine.execBusMasterDisable fn s
  | .functionLevelReset fn => Sys2Proof.Machine.execFunctionLevelReset fn s
  | .vfEnableClear => Sys2Proof.Machine.execVfEnableClear s
  | .hotReset => Sys2Proof.Machine.execHotReset s
  | .d3hotEntry fn d3 => Sys2Proof.Machine.execD3hotEntry fn d3 s
  | .pmeTurnOff => Sys2Proof.Machine.execPmeTurnOff s
  | .endpointLinkRetry => Sys2Proof.Machine.execEndpointLinkRetry s
  | .pceWindowDrained outbound entry => Sys2Proof.Machine.execPceWindowDrained outbound entry s
  | .pceFnBind c => Sys2Proof.Machine.execPceFnBind c s
  | .pceIwinSet c => Sys2Proof.Machine.execPceIwinSet c s
  | .pceOwinSet c => Sys2Proof.Machine.execPceOwinSet c s
  | .pceWinGet c => Sys2Proof.Machine.execPceWinGet c s
  | .pceDirtySet c => Sys2Proof.Machine.execPceDirtySet c s
  | .pceDirtySwap c => Sys2Proof.Machine.execPceDirtySwap c s
  | .pceAperSet c => Sys2Proof.Machine.execPceAperSet c s
  | .pceWake c => Sys2Proof.Machine.execPceWake c s
  | .pceFnStatus c => Sys2Proof.Machine.execPceFnStatus c s
  | .rootPortLinkRetry port => Sys2Proof.Machine.execRootPortLinkRetry port s
  | .driveRequestReceive port r => Sys2Proof.Machine.execDriveRequestReceive port r s
  | .pceLinkRead => Sys2Proof.Machine.execPceLinkRead s
  | .pceRportRead port => Sys2Proof.Machine.execPceRportRead port s
  | .cipCtxSet c => Sys2Proof.Machine.execCipCtxSet c s
  | .cipCtxFree c => Sys2Proof.Machine.execCipCtxFree c s
  | .cipOp c => Sys2Proof.Machine.execCipOp c s
  | .cipStateSave c => Sys2Proof.Machine.execCipStateSave c s
  | .cipStateRestore c => Sys2Proof.Machine.execCipStateRestore c s
  | .cipQpBind c => Sys2Proof.Machine.execCipQpBind c s
  | .cipHash c => Sys2Proof.Machine.execCipHash c s
  | .cipLmsVerify c => Sys2Proof.Machine.execCipLmsVerify c s
  | .cipStatusRead => Sys2Proof.Machine.execCipStatusRead s
  | .avsSample readings => Sys2Proof.Machine.execAvsSample readings s
  | .issueGateReopen field => Sys2Proof.Machine.execIssueGateReopen field s
  | .thermalCeilingTick temps => Sys2Proof.Machine.execThermalCeilingTick temps s
  | .powerCapTick => Sys2Proof.Machine.execPowerCapTick s
  | .dozeIdleExpire => Sys2Proof.Machine.execDozeIdleExpire s
  | .rungEntryStart => Sys2Proof.Machine.execRungEntryStart s
  | .rungEntryComplete => Sys2Proof.Machine.execRungEntryComplete s
  | .wakeEvent w => Sys2Proof.Machine.execWakeEvent w s
  | .wakeAtExpire => Sys2Proof.Machine.execWakeAtExpire s
  | .rungExitComplete => Sys2Proof.Machine.execRungExitComplete s
  | .porstNDeassert b => Sys2Proof.Machine.execPorstNDeassert b s
  | .porstNAssert => Sys2Proof.Machine.execPorstNAssert s
  | .pfwNAssert => Sys2Proof.Machine.execPfwNAssert s
  | .pfwNDeassert => Sys2Proof.Machine.execPfwNDeassert s
  | .pwrwakeNAssert => Sys2Proof.Machine.execPwrwakeNAssert s
  | .pwrRungSet c => Sys2Proof.Machine.execPwrRungSet c s
  | .pwrStatus c => Sys2Proof.Machine.execPwrStatus c s
  | .pwrCapSet c => Sys2Proof.Machine.execPwrCapSet c s
  | .pwrPaceSet c => Sys2Proof.Machine.execPwrPaceSet c s
  | .fwStage c => Sys2Proof.Machine.execFwStage c s
  | .fwCommit c => Sys2Proof.Machine.execFwCommit c s
  | .fwActivate c => Sys2Proof.Machine.execFwActivate c s
  | .fwActivateDrained => Sys2Proof.Machine.execFwActivateDrained s
  | .fwFloorSet c => Sys2Proof.Machine.execFwFloorSet c s
  | .attestQuote c => Sys2Proof.Machine.execAttestQuote c s
  | .pwrRailctlWrite v => Sys2Proof.Machine.execPwrRailctlWrite v s
  | .pwrGatesRead => Sys2Proof.Machine.execPwrGatesRead s
  | .eventStage => Sys2Proof.Machine.execEventStage s
  | .logDrain => Sys2Proof.Machine.execLogDrain s
  | .timeMark => Sys2Proof.Machine.execTimeMark s
  | .flashFlush ok => Sys2Proof.Machine.execFlashFlush ok s
  | .freezeLimitExpire target => Sys2Proof.Machine.execFreezeLimitExpire target s
  | .logDlogSet c => Sys2Proof.Machine.execLogDlogSet c s
  | .logIlogSet c => Sys2Proof.Machine.execLogIlogSet c s
  | .logFreeze c => Sys2Proof.Machine.execLogFreeze c s
  | .logFlush c => Sys2Proof.Machine.execLogFlush c s
  | .logFlashRead c => Sys2Proof.Machine.execLogFlashRead c s
  | .logDropRead sev => Sys2Proof.Machine.execLogDropRead sev s
  | .logOvfRead blk => Sys2Proof.Machine.execLogOvfRead blk s
  | .dgnFaultGet c => Sys2Proof.Machine.execDgnFaultGet c s
  | .dgnFaultClear c => Sys2Proof.Machine.execDgnFaultClear c s
  | .dgnDieRestart c => Sys2Proof.Machine.execDgnDieRestart c s
  | .dgnDeviceReset c => Sys2Proof.Machine.execDgnDeviceReset c s
  | .dgnInject c => Sys2Proof.Machine.execDgnInject c s
  | .engineWd die => Sys2Proof.Machine.execEngineWd die s
  | .ucieRetry die => Sys2Proof.Machine.execUcieRetry die s
  | .bezelWatchdog => Sys2Proof.Machine.execBezelWatchdog s
  | .lockstepMismatch => Sys2Proof.Machine.execLockstepMismatch s
  | .bezelRestartDone => Sys2Proof.Machine.execBezelRestartDone s
  | .pcieInternal => Sys2Proof.Machine.execPcieInternal s
  | .voltageAlarm sensor => Sys2Proof.Machine.execVoltageAlarm sensor s
  | .temperatureAlarm sensor => Sys2Proof.Machine.execTemperatureAlarm sensor s
  | .clockAlarm sensor => Sys2Proof.Machine.execClockAlarm sensor s
  | .tamperAlarm sensor => Sys2Proof.Machine.execTamperAlarm sensor s
  | .alarmClear source => Sys2Proof.Machine.execAlarmClear source s
  | .pgTimeout grp => Sys2Proof.Machine.execPgTimeout grp s
  | .perstNAssert => Sys2Proof.Machine.execPerstNAssert s
  | .perstNDeassert => Sys2Proof.Machine.execPerstNDeassert s
  | .prsntNChange port high => Sys2Proof.Machine.execPrsntNChange port high s
  | .ppsOut => Sys2Proof.Machine.execPpsOut s
  | .mgmtPhyResetRelease => Sys2Proof.Machine.execMgmtPhyResetRelease s
  | .sputSourceRead f tag => Sys2Proof.Machine.execSputSourceRead f tag s
  | .captureComplete p => Sys2Proof.Machine.execCaptureComplete p s
  | .resumeWindowStart p => Sys2Proof.Machine.execResumeWindowStart p s
  | .gptpSyncSend link => Sys2Proof.Machine.execGptpSyncSend link s
  | .preemptionVerified link => Sys2Proof.Machine.execPreemptionVerified link s
  | .endpointLinkUp flit rate width => Sys2Proof.Machine.execEndpointLinkUp flit rate width s
  | .rootPortLinkDown port => Sys2Proof.Machine.execRootPortLinkDown port s
  | .rootPortAerError port uncorr => Sys2Proof.Machine.execRootPortAerError port uncorr s
  | .aggregationTimeExpire i0 cq => Sys2Proof.Machine.execAggregationTimeExpire i0 cq s
  | .pgAssert grp => Sys2Proof.Machine.execPgAssert grp s
  | .referenceClockChange clk present => Sys2Proof.Machine.execReferenceClockChange clk present s
  | .mgmtLinkChange up => Sys2Proof.Machine.execMgmtLinkChange up s
  | .fwActivateComplete ok => Sys2Proof.Machine.execFwActivateComplete ok s

end Sys2Proof.Machine
end

