-- ==== Sys2Proof/Safety.lean ====
section
/-! DEFINITION. The terms the statements use: what a good state is, when a command completes, when a facet's next
instruction issues, and when a command packet is accepted. -/

namespace Sys2Proof.Machine

/-- The step answers a next state: the block goes on. -/
def GoesOn (s : State) : Prop := ∃ t, step s = .next t

/-- Memory is in its canonical form. -/
def MemOk (s : State) : Prop := Memory.wf s.mem = true

/-- Every byte of device memory reads in `t` as it reads in `s`. -/
def SameMem (s t : State) : Prop := ∀ a, t.readByte a = s.readByte a

/-- The command completes: `exec` answers a next state, and `Q` holds of it. -/
def Runs (c : Instr) (s : State) (Q : State → Prop) : Prop := ∃ t, exec c s = .next t ∧ Q t

/-! ## Facet instructions -/

/-- The next instruction of stream `st` of facet `f` has opcode `op` and issues at this instant: the facet may issue, the
stream goes on, its word `w` is fetched (leaving `s1`), it is legal, no hazard or full engine holds it, and its counts are
there. -/
structure Issues (s : State) (f st op : Nat) (s1 : State) (w : BitVec 128) : Prop where
  inTable : f < nFacets ∧ st < 4
  may     : s.mayIssue f = true
  goes    : ((s.facet f).stream st).stopped = false ∧ ((s.facet f).stream st).atBeat = false
  more    : ((s.facet f).stream st).next < ((s.facet f).stream st).len
  fetched : s.fetch f st = .ok (s1, w)
  code    : wOp w = op
  legal   : decodeExc (s1.facet f) st w = none
  free    : (s1.facet f).hazard st (usesOf w (((s.facet f).stream st).slot w 0) (((s.facet f).stream st).slot w 1)) = false
  engine  : (s1.facet f).engineFree w = true
  counts  : (s1.facet f).counts w = true

/-- The state in which an instruction has issued and not yet acted: its counts are consumed and its stream is past it. -/
def State.issued (s1 : State) (f st : Nat) (w : BitVec 128) : State :=
  s1.putFacet f (((s1.facet f).consume w).modStream st fun y => y.advance w)

/-- An instruction that issues: the state it acts on is `u`, and every facet but its own is as the fetch left it. -/
def OnlyFacet (s1 t : State) (f : Nat) : Prop := ∀ g, g ≠ f → t.facet g = s1.facet g

/-- Every parcel but `p` is as it was. -/
def OnlyParcel (s t : State) (p : Nat) : Prop := ∀ q, q ≠ p → t.parcel q = s.parcel q

/-! ## Frames of the fabric (spec/10) -/

/-- A frame of a job is taken at ingress (R252, R264, R270): `s1` is the state in which its binding `b` is served. -/
structure JobFrame (s : State) (link : Nat) (z : ZFrame) (typ : Nat) (s1 : State) (b : Binding) : Prop where
  typed : z.typ = typ
  taken : ∃ s0, s.zIngress link z = (s0, true) ∧ s0.bindingOf z = some b ∧ s1 = s0.charge z.inst 3 z.wire

/-- A CTRL frame of one code is taken for the job of parcel `p` with cut `c` (R277, R278). -/
structure CtrlFrame (s : State) (link : Nat) (z : ZFrame) (code : Nat) (s1 : State) (p : Nat) (c : Cut) : Prop where
  coded : fieldAt z.payload 0 1 = code
  job   : ∃ b, JobFrame s link z 8 s1 b ∧ b.parcel = p
  good  : ctrlBad z.payload = false
  cut   : (s1.parcel p).cut = some c

/-- A discovery frame is taken at ingress (R252, R255): of a running link, well formed, and to its special destination. -/
def State.special (s : State) (link : Nat) (z : ZFrame) (typ dst : Nat) : Bool :=
  z.typ = typ && s.zarenLink link && decide (s.power.rung < 3) && !z.malformed && z.dst = dst

/-- A candidate that an adjacency reports and that may be chosen (R256). -/
def State.mayLead (s : State) (a : Adjacency) : Bool :=
  a.up && decide (a.cdist < 63) && !(s.fabric.excluded.any fun e => e.1 = a.ckey)

/-! ## NVMe entries (spec/14) -/

/-- The state in which a fetched entry acts: the queue's head is past it, it is counted, and its controller is in PS0. -/
def State.nvConsumed (s : State) (i y : Nat) (q : NvSq) : State :=
  let v := (s.putSq i y { q with head := (q.head + 1) % q.size }).nvStat 0
  ((if y = 0 then v else v.arbEmpty i y).modCtrl i fun c => { c with idleAt := none, ps := 0 }).drivesPower

/-- The entry at the head of a queue has an opcode and is fetched as `f`, acting on `v`: the queue may be fetched from, its entry is
read, the arbiter chooses it unless it is an admin command, and the controller's generation stands (R357 to R360, R375). -/
structure NvTakes (s : State) (e : NvmeFetch) (op : Nat) (f : Fetched) (v : State) : Prop where
  may    : s.mayFetch e.ctrl e.sq = true
  named  : f.i = e.ctrl ∧ f.y = e.sq ∧ f.list = e.prpList
  code   : fieldAt f.entry 0 1 = op
  chosen : ∃ s1 s2 q, s.sq e.ctrl e.sq = some q ∧
    (if (s.ctrl e.ctrl).mode = .host then
       s1 = s ∧ f.entry = padTo 64 (e.entry.take 64) ∧ ∃ fn, s.fnOf e.ctrl = some fn ∧ s.masterReason fn = none
     else s.ctrlRead e.ctrl (q.base + 64 * q.head) 64 = (s1, some f.entry)) ∧
    (if e.sq = 0 then s2 = s1 else s1.mayFetch e.ctrl 0 = false ∧ s1.arbiter (some (e.ctrl, e.sq, f.entry)) = some (e.ctrl, e.sq, s2)) ∧
    v = s2.nvConsumed e.ctrl e.sq q
  fresh  : v.ctrlFresh e.ctrl = true

/-- The entry's row answers it at once, with Dword 0 and a status, after the effect `E`. -/
def Answers (c : Instr) (s : State) (f : Fetched) (dw0 sct sc : Nat) (E : State → Prop) : Prop :=
  ∃ u : State, exec c s = .next ((u.answer f dw0 sct sc).nvAfter f.i) ∧ E u

/-! ## The endpoint (spec/15) -/

/-- A BAR access of a function reaches instance `i`'s registers of an awake device. -/
def State.barServes (s : State) (fn i : Nat) : Bool :=
  s.pcie.linkUp && (fn = 0 || s.pcie.vfEnable) && !(s.fn fn).d3 && !(s.fn fn).flr && (s.fn fn).bound = some i &&
  decide (s.power.rung < 2) && s.power.entering.isNone && !s.power.exiting

/-! ## Command packets (spec/09) -/

/-- The instance that sends a command, as its channel is bound. -/
def State.senderOf (s : State) (c : Cmd) : Nat := (s.wakeDeep.chan c.ch).bound.getD 0

/-- The name of a command that is taken. -/
def State.waiterOf (s : State) (c : Cmd) : Waiter :=
  { ch := c.ch, id := (s.wakeDeep.chan c.ch).nextId, seq := c.pkt.seq }

/-- The state in which a taken command executes: awake, its number consumed, the command in progress. -/
def State.entered (s : State) (sp : Spec) (c : Cmd) : State :=
  (s.wakeDeep.modChan c.ch fun x => { x with e := x.e + 1 }).begin c sp.opcode (s.senderOf c)

/-- The packet reaches its channel and is well framed, from a source the channel answers (R228, R237, R245). -/
def State.reaches (s : State) (op : Nat) (c : Cmd) : Bool :=
  s.power.rung ≠ 4 && (s.power.rung ≠ 3 || decide (c.ch < 2)) && s.serves c.ch op && c.pkt.framed op && s.fromSource c (decide (op = 1))

/-- The packet is its channel's next command and may start: what a packet meets before checks 5 to 8 of R237. -/
def State.meets (s : State) (sp : Spec) (c : Cmd) : Bool :=
  s.reaches sp.opcode c && (s.wakeDeep.chan c.ch).state = .synced && c.pkt.seq = (s.wakeDeep.chan c.ch).e &&
  decide ((s.wakeDeep.chan c.ch).inProg.length < 16)

/-- The checks 2 and 5 to 8 of R237 on a command that has consumed its number. -/
def State.verdict (s : State) (sp : Spec) (c : Cmd) : Option (Nat × Nat) := (s.entered sp c).checked sp c (s.senderOf c)

/-- The packet is taken as the channel's next command and passes every check of R237. -/
def State.takes (s : State) (sp : Spec) (c : Cmd) : Bool := s.meets sp c && (s.verdict sp c).isNone

/-- The command succeeds at once: it has the effect `E` on the state in which it executes, then its reply carries `ps`. -/
def Succeeds (i : Instr) (c : Cmd) (s : State) (ps : List Byte) (E : State → Prop) : Prop :=
  ∃ u, exec i s = .next (u.finish (s.waiterOf c) 0 0 ps) ∧ E u

/-- The reply that ends a taken command carries this status. -/
def Ends (i : Instr) (c : Cmd) (s : State) (status : Nat) (E : State → Prop) : Prop :=
  ∃ u detail ps, exec i s = .next (u.finish (s.waiterOf c) status detail ps) ∧ E u

end Sys2Proof.Machine
end

