-- ==== Sys2Proof/Certificates/Slice0/Obligations.lean ====
section
/-! DEFINITION. The statements for the provers: what the commands of each chapter do, what they leave alone, and the
invariants that every step keeps. -/

open Sys2Proof Sys2Proof.Machine

/-! ## Facet instructions (spec/02, spec/03) -/

/-- R44, R71 to R72: when an instruction issues, both its counts are subtracted in one update, and its stream moves past
it; no other stream, register, facet or memory byte changes. -/
def Obligations.IssueConsumesCounts : Prop :=
  ∀ (s s1 : State) (f st op : Nat) (w : BitVec 128), Issues s f st op s1 w →
    (∀ c, ((s1.issued f st w).facet f).tok c =
      (s1.facet f).tok c - (if c = wWca w then wWna w else 0) - (if c = wWcb w then wWnb w else 0)) ∧
    ((s1.issued f st w).facet f).stream st = ((s1.facet f).stream st).advance w ∧
    (∀ k, k ≠ st → ((s1.issued f st w).facet f).stream k = (s1.facet f).stream k) ∧
    ((s1.issued f st w).facet f).vregs = (s1.facet f).vregs ∧ ((s1.issued f st w).facet f).masks = (s1.facet f).masks ∧
    ((s1.issued f st w).facet f).acc = (s1.facet f).acc ∧ ((s1.issued f st w).facet f).dregs = (s1.facet f).dregs ∧
    OnlyFacet s1 (s1.issued f st w) f ∧ (s1.issued f st w).mem = s1.mem

/-- R44, R50, R51, R70 to R72: TOK, BEAT, LOOP, SETSTEP, STOP and TADD issue and complete at once: their own effect, then
the signals of their token word. -/
def Obligations.ControlInstructions : Prop :=
  ∀ (s s1 : State) (f st : Nat) (w : BitVec 128),
    (Issues s f st 0x00 s1 w → Runs (.tok f st) s fun t => t = (s1.issued f st w).signal f w) ∧
    (Issues s f st 0x01 s1 w → Runs (.beat f st) s fun t => ∃ u, t = u.signal f w ∧ OnlyFacet s1 u f ∧ SameMem s1 u ∧
      (u.facet f).stream st = { ((s1.facet f).stream st).advance w with atBeat := true } ∧
      (∀ k, k ≠ st → (u.facet f).stream k = (s1.facet f).stream k) ∧
      (u.facet f).stepEnd = if st = 3 then bitAt w.toNat 48 else (s1.facet f).stepEnd) ∧
    (Issues s f st 0x02 s1 w → Runs (.loop f st) s fun t => ∃ u, t = u.signal f w ∧ OnlyFacet s1 u f ∧ SameMem s1 u ∧
      ((u.facet f).stream st).next = ((s1.facet f).stream st).next + 1 ∧
      ((u.facet f).stream st).loops = ((s1.facet f).stream st).loops ++
        [{ start := ((s1.facet f).stream st).next + 1, len := wS1 w, trip := wS0 w, idx := 0 }] ∧
      ((u.facet f).stream st).steps = ((s1.facet f).stream st).steps) ∧
    (Issues s f st 0x03 s1 w → Runs (.setstep f st) s fun t => ∃ u, t = u.signal f w ∧ OnlyFacet s1 u f ∧ SameMem s1 u ∧
      Tbl.getD ((u.facet f).stream st).steps (3 * bitsOf w.toNat 49 48) 0 = signedOf 16 (wS0 w) ∧
      Tbl.getD ((u.facet f).stream st).steps (3 * bitsOf w.toNat 49 48 + 1) 0 = signedOf 16 (wS1 w) ∧
      Tbl.getD ((u.facet f).stream st).steps (3 * bitsOf w.toNat 49 48 + 2) 0 = signedOf 16 (wS2 w)) ∧
    (Issues s f st 0x04 s1 w → Runs (.stop f st) s fun t => ∃ u, t = u.signal f w ∧ OnlyFacet s1 u f ∧ SameMem s1 u ∧
      ((u.facet f).stream st).stopped = true ∧ ∀ k, k ≠ st → (u.facet f).stream k = (s1.facet f).stream k) ∧
    (Issues s f st 0xC0 s1 w → Runs (.tadd f st) s fun t =>
      t = ((s1.issued f st w).addTok f (bitsOf w.toNat 36 32) (wS1 w)).signal f w)

/-- R47: an increment that would take a counter above 65,535 is discarded and raises TOKEN_OVERFLOW with the counter's
consumer, that stream's next index and the counter number; any other is added, and no other counter or facet changes.
R45, R76: the local signal of a completing instruction adds LSN to counter LSC of its own facet, and its remote signal
leaves as one TOKEN flit to the facet at (RSX, RSY) of its parcel; a Faulted facet signals nothing. -/
def Obligations.TokensAndSignals : Prop :=
  (∀ (s : State) (f c n : Nat),
      ((s.facet f).tok c + n ≤ 65535 → ((s.addTok f c n).facet f).tok c = (s.facet f).tok c + n ∧
        (∀ d, d ≠ c → ((s.addTok f c n).facet f).tok d = (s.facet f).tok d) ∧ OnlyFacet s (s.addTok f c n) f) ∧
      (65535 < (s.facet f).tok c + n → s.addTok f c n =
        s.facetExc f 0x07 (bitsOf (s.facet f).tokown.toNat (2 * c + 1) (2 * c))
          ((s.facet f).stream (bitsOf (s.facet f).tokown.toNat (2 * c + 1) (2 * c))).next c)) ∧
  (∀ (s : State) (f : Nat) (w : BitVec 128),
      ((s.facet f).state = .faulted → s.signal f w = s) ∧
      ((s.facet f).state ≠ .faulted → wRsn w = 0 → s.signal f w = if wLsn w = 0 then s else s.addTok f (wLsc w) (wLsn w)) ∧
      ((s.facet f).state ≠ .faulted → wLsn w = 0 → wRsn w ≠ 0 →
        ∀ o tag, (s.facet f).owner = some o → (s.facet f).freeSignal = some tag →
          ∃ u fl, s.signal f w = u.sendFlit fl ∧ fl.typ = 3 ∧ fl.tokc = wRsc w ∧ fl.tokn = wRsn w ∧ fl.tag = tag ∧
            fl.last = true ∧ fl.addr = spadAddr (facetAt (o.px + wRsx w) (o.py + wRsy w)) 0 ∧
            (u.facet f).signals = (s.facet f).signals ++ [tag] ∧ OnlyFacet s u f))

/-- R62, R63, R97 to R100: what a vector operation writes. A lane operation fills each lane of Vd with the result of the
lanes of its sources; VCMP writes a mask; VSEL selects by the mask, a NaN as its format's canonical NaN; VRSUM and VRMAX leave the
value of their tree in lane 0 and zero elsewhere. No other vector register, mask, tile, address register or counter changes, and VMAX, VMIN, VABS, VNEG and the
bitwise operations set no flag.
R99: I32 lanes wrap modulo 2^32, VMAX and VMIN compare as signed integers, and the shifts take b[4:0].
R62, R63: every vector instruction of R62 but VMOVI issues and completes: one of a single handshake writes its result and
signals, a longer one enters the engine; VECTOR_COMPLETE then writes that result and signals. -/
def Obligations.VectorResult : Prop :=
  (∀ (x : Facet) (w : BitVec 128),
      let low := fun r => (x.lanes r).map (· % 2 ^ fmtBits (wHi w))
      (∀ r, r ≠ wVd w → (x.vector w).lanes r = x.lanes r) ∧
      (x.vector w).acc = x.acc ∧ (x.vector w).dregs = x.dregs ∧ (x.vector w).toks = x.toks ∧
      (x.vector w).streams = x.streams ∧ (x.vector w).fpMat = x.fpMat ∧
      (x.vector w).hskv = x.hskv + BitVec.ofNat 64 (vecHandshakes w) ∧
      (wOp w = 0x58 → (x.vector w).vregs = x.vregs ∧ (∀ m, m ≠ wVd w → (x.vector w).mask m = x.mask m) ∧
        ∀ l < 64, ((x.vector w).mask (wVd w)).getLsbD l =
          laneCmp (wHi w) (wLo w) ((low (wVa w)).getD l 0) ((low (wVb w)).getD l 0)) ∧
      (wOp w = 0x59 → (x.vector w).masks = x.masks ∧ ∀ l < 64, ((x.vector w).lanes (wVd w)).getD l 0 =
        quietNan (wHi w) (if (x.mask (wVm w)).getLsbD l then (low (wVa w)).getD l 0 else (low (wVb w)).getD l 0) % 2 ^ 64) ∧
      (wOp w = 0x5B → ((x.vector w).lanes (wVd w)).getD 0 0 =
        (reduceTree (fun p q => laneBinary 0x50 (wHi w) (wRound w) p q) 6 (low (wVa w))).1.headD 0 % 2 ^ 64) ∧
      (wOp w = 0x5C → ((x.vector w).lanes (wVd w)).getD 0 0 =
        (reduceTree (fun p q => laneBinary 0x54 (wHi w) 0 p q) 6 (low (wVa w))).1.headD 0 % 2 ^ 64) ∧
      (wOp w = 0x5B ∨ wOp w = 0x5C → (x.vector w).masks = x.masks ∧ ∀ l, 1 ≤ l → l < 64 → ((x.vector w).lanes (wVd w)).getD l 0 = 0) ∧
      (0x50 ≤ wOp w → wOp w ≤ 0x64 → ¬(0x58 ≤ wOp w ∧ wOp w ≤ 0x59) → ¬(0x5B ≤ wOp w ∧ wOp w ≤ 0x5C) →
        (x.vector w).masks = x.masks ∧ ∀ l < 64, ((x.vector w).lanes (wVd w)).getD l 0 =
          (laneResult w ((low (wVa w)).getD l 0) ((low (wVb w)).getD l 0) ((low (wVc w)).getD l 0)).1 % 2 ^ 64) ∧
      (0x54 ≤ wOp w ∧ wOp w ≤ 0x57 → (x.vector w).fpVec = x.fpVec)) ∧
  (∀ (m a b : Nat), a < 2 ^ 32 → b < 2 ^ 32 →
      laneBinary 0x50 11 m a b = ((a + b) % 2 ^ 32, 0) ∧
      laneBinary 0x51 11 m a b = ((a + (2 ^ 32 - b)) % 2 ^ 32, 0) ∧
      laneBinary 0x52 11 m a b = (a * b % 2 ^ 32, 0) ∧
      laneBinary 0x54 11 m a b = ((if signedOf 32 a < signedOf 32 b then b else a), 0) ∧
      laneBinary 0x55 11 m a b = ((if signedOf 32 a < signedOf 32 b then a else b), 0) ∧
      laneBinary 0x60 11 m a b = (a &&& b, 0) ∧ laneBinary 0x61 11 m a b = (a ||| b, 0) ∧ laneBinary 0x62 11 m a b = (a ^^^ b, 0) ∧
      laneBinary 0x63 11 m a b = (a * 2 ^ (b % 32) % 2 ^ 32, 0) ∧
      laneBinary 0x64 11 m a b = (wrapInt 32 (signedOf 32 a / 2 ^ (b % 32)), 0) ∧
      laneUnary 0x56 11 0x8000_0000 = 0x8000_0000 ∧ laneUnary 0x57 11 0x8000_0000 = 0x8000_0000) ∧
  ((∀ (s s1 : State) (f st : Nat) (w : BitVec 128),
      let done := fun t : State => ∃ u, OnlyFacet s1 u f ∧ SameMem s1 u ∧
        (vecHandshakes w = 1 → t = u.signal f w ∧ u.facet f = ((s1.issued f st w).facet f).vector w) ∧
        (vecHandshakes w ≠ 1 → t = u ∧ (u.facet f).vregs = (s1.facet f).vregs ∧ (u.facet f).inflight = (s1.facet f).inflight ++
          [{ stream := st, index := ((s.facet f).stream st).next, word := w
             e0 := (((s.facet f).stream st).slot w 0).toNat, e1 := (((s.facet f).stream st).slot w 1).toNat }])
      (Issues s f st 0x50 s1 w → Runs (.vadd f st) s done) ∧
      (Issues s f st 0x51 s1 w → Runs (.vsub f st) s done) ∧
      (Issues s f st 0x52 s1 w → Runs (.vmul f st) s done) ∧
      (Issues s f st 0x53 s1 w → Runs (.vfma f st) s done) ∧
      (Issues s f st 0x54 s1 w → Runs (.vmax f st) s done) ∧
      (Issues s f st 0x55 s1 w → Runs (.vmin f st) s done) ∧
      (Issues s f st 0x56 s1 w → Runs (.vabs f st) s done) ∧
      (Issues s f st 0x57 s1 w → Runs (.vneg f st) s done) ∧
      (Issues s f st 0x58 s1 w → Runs (.vcmp f st) s done) ∧
      (Issues s f st 0x59 s1 w → Runs (.vsel f st) s done) ∧
      (Issues s f st 0x5A s1 w → Runs (.vcvt f st) s done) ∧
      (Issues s f st 0x5B s1 w → Runs (.vrsum f st) s done) ∧
      (Issues s f st 0x5C s1 w → Runs (.vrmax f st) s done) ∧
      (Issues s f st 0x5D s1 w → Runs (.vexp2 f st) s done) ∧
      (Issues s f st 0x5E s1 w → Runs (.vrcp f st) s done) ∧
      (Issues s f st 0x5F s1 w → Runs (.vrsqrt f st) s done) ∧
      (Issues s f st 0x60 s1 w → Runs (.vand f st) s done) ∧
      (Issues s f st 0x61 s1 w → Runs (.vor f st) s done) ∧
      (Issues s f st 0x62 s1 w → Runs (.vxor f st) s done) ∧
      (Issues s f st 0x63 s1 w → Runs (.vshl f st) s done) ∧
      (Issues s f st 0x64 s1 w → Runs (.vshr f st) s done)) ∧
    ∀ (s : State) (f : Nat) (q : InFlight), (s.facet f).flight opVec = some q →
      Runs (.vectorComplete f) s fun t => ∃ u, t = u.signal f q.word ∧ u.facet f = ((s.facet f).leave opVec).vector q.word ∧
        OnlyFacet s u f ∧ SameMem s u)

/-- R61, R62, R108: VLD fills its register from the elements it reads, VST stores its register's elements, rounded once,
and VMOVI fills every lane with its immediate; each then signals. -/
def Obligations.VectorMemory : Prop :=
  ∀ (s s1 : State) (f st : Nat) (w : BitVec 128),
    let off := 16 * (((s.facet f).stream st).slot w 0).toNat
    (∀ bs, Issues s f st 0x40 s1 w → (s1.issued f st w).spadGather f (vecRanges w off) = .ok bs →
      Runs (.vld f st) s fun t => ∃ u, t = u.signal f w ∧ SameMem s1 u ∧ OnlyFacet s1 u f ∧
        (∀ r, r ≠ wVa w → (u.facet f).lanes r = (s1.facet f).lanes r) ∧
        ∀ l < 64, ((u.facet f).lanes (wVa w)).getD l 0 =
          (if wHi w = wLo w then packedElem (wHi w) bs l
            else (convert (wLo w) 0 false (decodeElem (wHi w) (packedElem (wHi w) bs l))).1) % 2 ^ 64) ∧
    (∀ u, Issues s f st 0x41 s1 w →
      (State.spadStore ((s1.issued f st w).modFacet f fun x =>
        { x.vecFlags ((x.lanes (wVa w)).foldl (fun fl v => fl ||| (if wHi w = wLo w then 0
            else (convert (wHi w) (bitsOf w.toNat 15 14) (bitAt w.toNat 13) (decodeElem (wLo w) (v % 2 ^ fmtBits (wLo w)))).2)) 0) with
          hskv := x.hskv + 1 }) f (vecRanges w off)
        (packElems (wHi w) (((s1.facet f).lanes (wVa w)).map fun v => if wHi w = wLo w then v % 2 ^ fmtBits (wLo w)
          else (convert (wHi w) (bitsOf w.toNat 15 14) (bitAt w.toNat 13) (decodeElem (wLo w) (v % 2 ^ fmtBits (wLo w)))).1)))
        = .ok u →
      Runs (.vst f st) s fun t => t = (u.bankWords f 3 true (wordsCovered (vecRanges w off))).signal f w) ∧
    (Issues s f st 0x42 s1 w → Runs (.vmovi f st) s fun t => ∃ u, t = u.signal f w ∧ SameMem s1 u ∧ OnlyFacet s1 u f ∧
      (∀ r, r ≠ wVd w → (u.facet f).lanes r = (s1.facet f).lanes r) ∧
      (u.facet f).lanes (wVd w) = List.replicate 64 (immOf w % 2 ^ 64))

/-- R55 to R60, R91 to R96: MMA and MDRAIN enter the matrix engine; an MMA's completion accumulates its products in its
tile, and an MDRAIN's writes the tile's results to the scratchpad and zeroes the tile if asked. -/
def Obligations.MatrixEngine : Prop :=
  (∀ (s s1 : State) (f st : Nat) (w : BitVec 128),
    let entry : InFlight :=
      { stream := st, index := ((s.facet f).stream st).next, word := w
        e0 := (((s.facet f).stream st).slot w 0).toNat, e1 := (((s.facet f).stream st).slot w 1).toNat }
    (Issues s f st 0x20 s1 w → Runs (.mma f st) s fun t => OnlyFacet s1 t f ∧ SameMem s1 t ∧
      (t.facet f).acc = (s1.facet f).acc ∧ (t.facet f).inflight = (s1.facet f).inflight ++ [entry] ∧
      (t.facet f).accClass.find (wTile w) = (if wClr w then fmtClass (wHi w) else (s1.facet f).accClass.find (wTile w))) ∧
    (Issues s f st 0x21 s1 w → Runs (.mdrain f st) s fun t => OnlyFacet s1 t f ∧ SameMem s1 t ∧
      (t.facet f).acc = (s1.facet f).acc ∧ (t.facet f).inflight = (s1.facet f).inflight ++ [entry])) ∧
  (∀ (s : State) (f : Nat) (q : InFlight) (a b : List Byte), (s.facet f).flight (· = 0x20) = some q →
    s.spadRead f (16 * q.e0) (aBytes (wHi q.word) (wK q.word) (wMx q.word)) = .ok a →
    s.spadRead f (16 * q.e1) (bBytes (wLo q.word) (wK q.word) (wMx q.word)) = .ok b →
    let r := mmaCells q.word ((fmtClass (wHi q.word)).getD .f) ((s.facet f).cells (wTile q.word)) a b
    Runs (.mmaComplete f) s fun t => ∃ u, t = u.signal f q.word ∧ OnlyFacet s u f ∧ SameMem s u ∧
      (u.facet f).cells (wTile q.word) = r.1 ∧ (∀ k, k ≠ wTile q.word → (u.facet f).cells k = (s.facet f).cells k) ∧
      (u.facet f).fpMat = (s.facet f).fpMat ||| BitVec.ofNat 5 r.2 ∧ (u.facet f).vregs = (s.facet f).vregs ∧
      (u.facet f).hskm = (s.facet f).hskm + BitVec.ofNat 64 (mmaHandshakes q.word)) ∧
  ∀ (s : State) (f : Nat) (q : InFlight), (s.facet f).flight (· = 0x21) = some q →
    let w := q.word
    let r := drainBytes (wHi w) (wDRound w) (wDMx w) (wDTr w) (wDSat w)
      (((s.facet f).cells (wDTile w)).map (cellVal (((s.facet f).accClass.find (wDTile w)).getD .f)))
    f < nFacets → MemOk s → 16 * q.e0 + r.1.length ≤ 0x10_0000 → (s.facet f).banksOn (16 * q.e0) r.1.length = true → s.hbm.bad = [] →
    Runs (.mdrainComplete f) s fun t => ∃ u, t = u.signal f w ∧ OnlyFacet s u f ∧
      u.readBytes (spadAddr f (16 * q.e0)) r.1.length = r.1 ∧
      (∀ a, ¬(spadAddr f (16 * q.e0) ≤ a ∧ a < spadAddr f (16 * q.e0) + r.1.length) → u.readByte a = s.readByte a) ∧
      (u.facet f).cells (wDTile w) =
        (if wDClr w then List.replicate 2048 AccCell.zero else (s.facet f).cells (wDTile w)) ∧
      (u.facet f).fpMat = (s.facet f).fpMat ||| BitVec.ofNat 5 r.2

/-- R65 to R69, R127: the stream engine. SADDR and SPEER write their register and signal; SPUT, SGET, STOK and SGATHER
become one of the 16 transfers, and a transfer to a facet of the device sends its flits; SPUT's local signal comes when its
source is read, before the bytes leave. -/
def Obligations.StreamTransfers : Prop :=
  (∀ (s s1 : State) (f st : Nat) (w : BitVec 128),
    let y := (s.facet f).stream st
    let i := (s1.issued f st w)
    let x := i.facet f
    let q : Issued := { f, st, index := y.next, word := w, e0 := y.slot w 0, e1 := y.slot w 1, e2 := y.slot w 2 }
    (Issues s f st 0x80 s1 w → Runs (.saddr f st) s fun t => ∃ u, t = u.signal f w ∧ OnlyFacet s1 u f ∧ SameMem s1 u ∧
      Tbl.getD (u.facet f).dregs (wLo w) 0 = BitVec.ofNat 48 w.toNat +
        (if bitAt w.toNat 52 then Tbl.getD (s1.facet f).dregs (wLo w) 0 else 0) ∧
      ∀ d, d ≠ wLo w → Tbl.getD (u.facet f).dregs d 0 = Tbl.getD (s1.facet f).dregs d 0) ∧
    (Issues s f st 0x83 s1 w → Runs (.speer f st) s fun t => ∃ u, t = u.signal f w ∧ OnlyFacet s1 u f ∧ SameMem s1 u ∧
      ((u.facet f).peer : Int) = y.slot w 2 % ((s1.facet f).jobSize : Int) ∧ (u.facet f).dregs = (s1.facet f).dregs) ∧
    (∀ rs, Issues s f st 0x81 s1 w → peerOf x w = none → i.rangesOf x.who.1 (remoteAddr x q) (16 * (wS2 w + 1)) true = .ok rs →
      Runs (.sput f st) s fun t => OnlyFacet s1 t f ∧ SameMem s1 t ∧ t.mesh = s1.mesh ∧ (t.facet f).xfers = (s1.facet f).xfers ++
        [{ tag := x.freeTag, kind := .put, index := y.next, word := w, loc := 16 * q.e0.toNat, remote := remoteAddr x q
           bytes := 16 * (wS2 w + 1), peer := none, srcRead := false, sig := false, due := 0 }]) ∧
    (∀ r, Issues s f st 0x81 s1 w → peerOf x w = some r →
      Runs (.sput f st) s fun t => OnlyFacet s1 t f ∧ SameMem s1 t ∧ ∃ p, (t.facet f).xfers = (s1.facet f).xfers ++ [p] ∧
        p.kind = .put ∧ p.peer = some r ∧ p.tag = x.freeTag ∧ p.remote = remoteAddr x q) ∧
    (∀ rs, Issues s f st 0x82 s1 w → peerOf x w = none → i.rangesOf x.who.1 (remoteAddr x q) (16 * (wS2 w + 1)) false = .ok rs →
      Runs (.sget f st) s fun t => t = i.getLocal f
        { tag := x.freeTag, kind := .get, index := y.next, word := w, loc := 16 * q.e0.toNat, remote := remoteAddr x q
          bytes := 16 * (wS2 w + 1), peer := none, srcRead := true, sig := false, due := 1 } rs) ∧
    (∀ r, Issues s f st 0x82 s1 w → peerOf x w = some r → i.peerDead f r = false →
      Runs (.sget f st) s fun t => ∃ p, t = (i.addXfer f p).sendFlow { (i.addXfer f p).peerFrame f r 2 x.freeTag with
          addr := remoteAddr x q, payload := leBytes 4 (16 * q.e0.toNat) ++ leBytes 4 (16 * (wS2 w + 1)) } ∧
        p.kind = .get ∧ p.peer = some r ∧ p.tag = x.freeTag ∧ p.due = 1) ∧
    (Issues s f st 0x84 s1 w → peerOf x w = none →
      Runs (.stok f st) s fun t => ∃ fl p, t = (i.sendFlit fl).addXfer f p ∧ fl.typ = 3 ∧ fl.tokc = wRsc w ∧ fl.tokn = wRsn w ∧
        fl.tag = x.freeTag ∧ p.tag = x.freeTag ∧ p.kind = .tok ∧ p.due = 1) ∧
    (∀ r, Issues s f st 0x84 s1 w → peerOf x w = some r → i.peerDead f r = false →
      Runs (.stok f st) s fun t => ∃ p, t = (i.addXfer f p).sendFlow { (i.addXfer f p).peerFrame f r 4 x.freeTag with
          last := true, sig := true, tokn := wRsn w, rsx := wRsx w, rsy := wRsy w, tokc := wRsc w } ∧
        p.kind = .tok ∧ p.peer = some r ∧ p.tag = x.freeTag ∧ p.due = 1) ∧
    (∀ bs, Issues s f st 0x85 s1 w → i.spadRead f (16 * q.e0.toNat) (16 * (wS1 w + 1)) = .ok bs →
      Runs (.sgather f st) s fun t => ∃ (u : State) (fls : List Flit) (p : Xfer), t = (fls.foldl State.sendFlit u).addXfer f p ∧ SameMem s1 u ∧ OnlyFacet s1 u f ∧
        fls.flatMap Flit.payload = bs ∧ (∀ fl ∈ fls, fl.typ = 6 ∧ fl.tag = x.freeTag ∧ fl.payload.length ≤ 128) ∧
        (fls.getLast?.map Flit.last) = some true ∧ p.tag = x.freeTag ∧ p.kind = .gather ∧ p.bytes = 16 * (wS1 w + 1))) ∧
  ∀ (s : State) (f tag : Nat) (t0 : Xfer) (bs : List Byte), (s.facet f).xfer tag = some t0 → t0.kind = .put →
    t0.srcRead = false → s.spadRead f t0.loc t0.bytes = .ok bs →
    (∀ rs, t0.peer = none → s.rangesOf (s.facet f).who.1 t0.remote t0.bytes true = .ok rs →
      Runs (.sputSourceRead f tag) s fun t => ∃ u, t = (u.localSignal f t0.word).putLocal f { t0 with srcRead := true } rs bs ∧
        SameMem s u ∧ OnlyFacet s u f ∧ (u.facet f).hsks = (s.facet f).hsks + BitVec.ofNat 64 (t0.bytes / 16)) ∧
    (∀ r, t0.peer = some r → Runs (.sputSourceRead f tag) s fun t => ∃ u, t = (u.localSignal f t0.word).putPeer f r t0 bs ∧
        SameMem s u ∧ OnlyFacet s u f)

/-- R76: the first exception of a facet is recorded and its event raised, a later one sets MORE, and of two streams' exceptions at one
instant the lower stream's stands; the facet is Faulted, and its vector registers, tiles and counters keep their values.
R49, R71, R72, R468: a token wait that lasts its limit raises WAIT_LIMIT with the short counter; a handshake that does
not complete raises WATCHDOG; a quiet facet arrives at the beat its four streams have reached, and enters Done when they
have all stopped. -/
def Obligations.FacetStops : Prop :=
  (∀ (s : State) (f code st index detail : Nat),
      let t := s.markExc f code st index detail
      (t.facet f).state = .faulted ∧ OnlyFacet s t f ∧ SameMem s t ∧ (t.facet f).vregs = (s.facet f).vregs ∧
      (t.facet f).acc = (s.facet f).acc ∧ (t.facet f).toks = (s.facet f).toks ∧
      ((s.facet f).exc = none → (t.facet f).exc = some { more := false, code, stream := st, index, detail, at_ := s.now }) ∧
      (∀ e, (s.facet f).exc = some e → (e.at_ ≠ s.now ∨ e.stream ≤ st) → (t.facet f).exc = some { e with more := true }) ∧
      (∀ e, (s.facet f).exc = some e → e.at_ = s.now → st < e.stream → e.code ≠ 0x0E → code ≠ 0x0E →
        (t.facet f).exc = some { e with more := true, code, stream := st, index, detail })) ∧
  (∀ (s : State) (f st : Nat), f < nFacets →
      let x := s.facet f
      let w := BitVec.ofNat 128 (leNat (s.readBytes (spadAddr f (16 * ((x.stream st).base + (x.stream st).next))) 16))
      (∀ b lim, st < 4 → x.state = .running → (x.stream st).waiting = some (b, lim) → lim ≠ 0 → x.counts w = false →
        Runs (.waitLimit f st) s fun t => t = (s.reach (b + 1000 * lim)).facetExc f 0x0C st (x.stream st).next
          (if x.tok (wWca w) < wWna w then wWca w else wWcb w)) ∧
      (st < 4 → x.state ≠ .empty →
        Runs (.watchdog f st) s fun t => t = s.facetExc f 0x0D st (x.stream st).next 0) ∧
      (x.state = .running → x.arrived = none → x.quiet = true → ((List.range 4).all fun k => (x.stream k).atBeat) = true →
        Runs (.facetArrive f) s fun t => t.facet f = { x with arrived := some s.now } ∧ OnlyFacet s t f ∧ SameMem s t) ∧
      (x.state = .running → x.quiet = true → ((List.range 4).all fun k => (x.stream k).stopped) = true → s.parcelOf f = none →
        Runs (.facetDone f) s fun t => t.facet f = { x with state := .done } ∧ OnlyFacet s t f ∧ SameMem s t) ∧
      (∀ p c, x.state = .running → x.quiet = true → ((List.range 4).all fun k => (x.stream k).stopped) = true →
        s.parcelOf f = some p → (s.parcel p).cut = some c → (s.parcel p).jobOn = true → c.ranktab.length ≤ 1 →
        (s.putFacet f { x with state := .done }).allDone p = true →
        Runs (.facetDone f) s fun t => t = (s.putFacet f { x with state := .done }).endJob p 1 c.rank false))

/-! ## Scratchpads and the mesh (spec/04) -/

/-- R73, R126: the ingress of a facet takes the flit that arrived first and no other: a flit that is not the next one stays. A WRITE,
READ, DATA or TOKEN flit whose instance or generation is not the facet's, or that meets an Empty or Faulted facet, changes nothing
but FCT_DISCARD; no answer leaves.
R119 to R121, R124: a flit that stands at the head of its channel of an input port, that its output port serves next, and for
which the next place has room goes along x to DX, then along y to DY, then out by SIDE, into the facing input of the next router, to
its facet or to its die, and is counted at its output port; while the next place has no room, or another flit is served, it stays.
A network-girdle or host-girdle die takes what reaches it at
once, a frame that crosses to it going on by its route. One whose destination or SIDE is out of range leaves the mesh with NACK 4 to its source. -/
def Obligations.FlitOwnerAndRoute : Prop :=
  (∀ (s : State) (f : Nat) (fl : Flit), f < nFacets →
      (s.atFacet f fl = true → (s.facet f).accepts fl.inst fl.gen = false →
        ∀ c, (c = .flitWriteReceive f fl ∧ fl.typ = 0) ∨ (c = .flitReadReceive f fl ∧ fl.typ = 1) ∨
            (c = .flitDataReceive f fl ∧ fl.typ = 2) ∨ (c = .flitTokenReceive f fl ∧ fl.typ = 3) →
          Runs c s fun t => t = (s.taken (.facet f) fl).modFacet f fun x => { x with discard := min 0xFFFFFFFF (x.discard + 1) }) ∧
      (s.atFacet f fl = false → ∀ c ∈ [Instr.flitWriteReceive f fl, .flitReadReceive f fl, .flitDataReceive f fl,
          .flitTokenReceive f fl, .flitAckReceive f fl, .flitNackReceive f fl], Runs c s fun t => t = s)) ∧
  (∀ (s : State) (x y port : Nat) (fl : Flit), x < 48 → y < 32 → port < 5 → (s.headAt x y port fl.vc).map (·.flit) = some fl →
      (routeFault x y fl = none → s.pick x y (outPort x y fl) = some (port, fl) → (∀ d, nextPlace x y fl = .die d → d < 8) →
        Runs (.flitRoute x y port fl) s fun t =>
        (t.facet (facetAt x y)).links.getD (outPort x y fl) 0 = (s.facet (facetAt x y)).links.getD (outPort x y fl) 0 + 1 ∧
        OnlyFacet s t (facetAt x y) ∧ SameMem s t ∧
        t.mesh.transit = (s.leaveInput x y port fl).mesh.transit ++ [{ flit := fl, place := nextPlace x y fl, since := s.now }] ∧
        (x < fl.dx → nextPlace x y fl = .buf (x + 1) y 3) ∧ (fl.dx < x → nextPlace x y fl = .buf (x - 1) y 2) ∧
        (fl.dx = x → y < fl.dy → nextPlace x y fl = .buf x (y + 1) 1) ∧ (fl.dx = x → fl.dy < y → nextPlace x y fl = .buf x (y - 1) 0) ∧
        (fl.dx = x → fl.dy = y → fl.side = 0 → nextPlace x y fl = .facet (facetAt x y)) ∧
        (∀ d, fl.dx = x → fl.dy = y → fl.side ≠ 0 → edgeDie x y fl.side = some d → nextPlace x y fl = .die d)) ∧
      (∀ d, routeFault x y fl = none → s.pick x y (outPort x y fl) = some (port, fl) → nextPlace x y fl = .die d → 8 ≤ d →
        s.firstAt (.die d) (fun _ => true) = none → Runs (.flitRoute x y port fl) s fun t => ∃ u : State, u.mesh = (s.leaveInput x y port fl).mesh ∧ SameMem s u ∧
          OnlyFacet s u (facetAt x y) ∧
          t = if d < 12 ∧ fl.vc = 3 ∧ fl.typ = 0 then (if fl.tag = 1 then u.crossRoceIn d fl else u.crossIn d fl) else u) ∧
      (routeFault x y fl = none → s.pick x y (outPort x y fl) ≠ some (port, fl) → Runs (.flitRoute x y port fl) s fun t => t = s) ∧
      (48 ≤ fl.dx ∨ 32 ≤ fl.dy ∨ 5 ≤ fl.side → Runs (.flitRoute x y port fl) s fun t => ∃ (a : Flit) (u : State),
        t = u.putFlit (.buf x y 4) a ∧
        u.mesh = (s.leaveInput x y port fl).mesh ∧ SameMem s u ∧ a.typ = 5 ∧ a.dx = fl.sx ∧ a.dy = fl.sy ∧ a.tag = fl.tag ∧
        fieldAt a.payload 0 2 = 4))

/-- R47, R67, R117, R126 to R128: what an accepted flit does. A WRITE lands in its bytes and in no others, and its last
flit applies the increment and sends the ACK; a READ is answered by DATA of the bytes it names; returned DATA lands in the
requester's bytes; a TOKEN adds its increment and is acknowledged; the last acknowledgement ends its transfer, and a
refusal ends its transfer with the exception that its status names. The flit is the one its ingress takes next. -/
def Obligations.FlitRows : Prop :=
  ∀ (s : State) (f : Nat) (fl : Flit), f < nFacets → s.atFacet f fl = true →
    let off := fl.addr % 0x10_0000
    let n := fl.data.length
    (fl.typ = 0 → MemOk s → (s.facet f).accepts fl.inst fl.gen = true → (s.facet f).banksOn off n = true → s.hbm.bad = [] →
      off + n ≤ 0x10_0000 → (s.facet f).refused.find (transferKey fl) = none →
      Runs (.flitWriteReceive f fl) s fun t => ∃ u, u.readBytes (spadAddr f off) n = fl.data ∧
        (∀ a, ¬(spadAddr f off ≤ a ∧ a < spadAddr f off + n) → u.readByte a = s.readByte a) ∧ OnlyFacet s u f ∧
        (u.facet f).toks = (s.facet f).toks ∧ (u.facet f).streams = (s.facet f).streams ∧
        (fl.last = false → t = u) ∧
        (fl.last = true → t = (if fl.tokn = 0 then u else u.addTok f fl.tokc fl.tokn).sendFlit (answerTo fl 4 []))) ∧
    (fl.typ = 1 → (s.facet f).accepts fl.inst fl.gen = true → (readFields fl).2.2 = false →
      off + (readFields fl).2.1 ≤ 0x10_0000 → (s.facet f).banksOn off (readFields fl).2.1 = true →
      s.rangeBad (spadAddr f off) (readFields fl).2.1 = false →
      Runs (.flitReadReceive f fl) s fun t => ∃ u : State, SameMem s u ∧ OnlyFacet s u f ∧ u.mesh = (s.taken (.facet f) fl).mesh ∧
        t = (dataFlits fl (facetAt fl.sx fl.sy) ((readFields fl).2.1 / 128 + 1) (readFields fl).1
          (s.readBytes (spadAddr f off) (readFields fl).2.1)).foldl State.sendFlit u) ∧
    (∀ x, fl.typ = 2 → MemOk s → (s.facet f).accepts fl.inst fl.gen = true → (s.facet f).xfer fl.tag = some x → x.kind = .get →
      (s.facet f).banksOn off n = true → s.hbm.bad = [] → off + n ≤ 0x10_0000 →
      Runs (.flitDataReceive f fl) s fun t => ∃ u, u.readBytes (spadAddr f off) n = fl.data ∧
        (∀ a, ¬(spadAddr f off ≤ a ∧ a < spadAddr f off + n) → u.readByte a = s.readByte a) ∧ OnlyFacet s u f ∧
        (u.facet f).hsks = (s.facet f).hsks + BitVec.ofNat 64 ((n + 15) / 16) ∧
        t = if fl.last then u.xferAck f x else u) ∧
    (fl.typ = 3 → (s.facet f).accepts fl.inst fl.gen = true →
      Runs (.flitTokenReceive f fl) s fun t => t = ((s.taken (.facet f) fl).addTok f fl.tokc fl.tokn).sendFlit (answerTo fl 4 [])) ∧
    (∀ x, fl.typ = 4 → (s.facet f).xfer fl.tag = some x →
      Runs (.flitAckReceive f fl) s fun t => SameMem s t ∧
        (1 < x.due → OnlyFacet s t f ∧ (t.facet f).toks = (s.facet f).toks ∧
          (t.facet f).xfers = (s.facet f).xfers.map fun y => if y.tag = fl.tag then { y with due := y.due - 1 } else y) ∧
        (x.due ≤ 1 → t = (s.taken (.facet f) fl).xferComplete f x)) ∧
    (fl.typ = 4 → (s.facet f).xfer fl.tag = none → fl.tag ∈ (s.facet f).signals →
      Runs (.flitAckReceive f fl) s fun t => (t.facet f).signals = (s.facet f).signals.filter (· ≠ fl.tag) ∧ OnlyFacet s t f ∧
        SameMem s t) ∧
    (∀ x, fl.typ = 5 → (s.facet f).xfer fl.tag = some x →
      Runs (.flitNackReceive f fl) s fun t => t = (s.taken (.facet f) fl).xferFail f x (fieldAt fl.payload 0 2))

/-- R112, R113, R129: a flit that waits for TBL_HOLDLIM at the head of its channel of a router input while none of its channel leaves
is a mesh stall, recorded in TBL_STALL once; a bank takes the state of its transition when that
completes, an Off bank holding zeros; TBL_BANKPWR begins transitions of an Empty or Faulted facet only. -/
def Obligations.BanksAndStalls : Prop :=
  ∀ (s : State) (f : Nat), f < nFacets →
    (∀ port vc h, s.headAt (facetX f) (facetY f) port vc = some h → (s.facet f).stall = none → s.parcelOf f = none →
      Runs (.meshStall f port vc) s fun t => ∃ u, t = u.raiseDevice 0x0005 f ∧ OnlyFacet s u f ∧ SameMem s u ∧ u.mesh = s.mesh ∧
        u.now = max s.now (h.since + 1000 * s.mesh.holdlim) ∧
        (u.facet f).stall = some { more := false, port, vc }) ∧
    (∀ port vc h x p, s.headAt (facetX f) (facetY f) port vc = some h → (s.facet f).stall = some x → s.parcelOf f = some p → s.parcelState p = .running →
      Runs (.meshStall f port vc) s fun t => ∃ u : State, t = u.facetExc f 0x0D 0 ((s.facet f).stream 0).next (0x0100 + port) ∧
        (u.facet f).stall = some { x with more := true }) ∧
    (∀ b q, b < 16 → (s.facet f).bankMove.find b = some q → (s.facet f).bankWant b = q →
      Runs (.bankTransitionDone f b) s fun t => (t.facet f).bank b = q ∧ (t.facet f).bankMove.find b = none ∧
        (∀ c, c ≠ b → (t.facet f).bank c = (s.facet f).bank c) ∧ OnlyFacet s t f ∧
        ∀ a, t.readByte a = if q = .off ∧ spadAddr f (0x1_0000 * b) ≤ a ∧ a < spadAddr f (0x1_0000 * b) + 0x1_0000 then 0
          else s.readByte a) ∧
    (∀ v, (s.facet f).state = .empty ∨ (s.facet f).state = .faulted →
      Runs (.tblBankpwrWrite f v) s fun t => (t.facet f).bankReq = BitVec.ofNat 32 v.toNat ∧
        (t.facet f).dozeKeep = BitVec.ofNat 16 (bitsOf v.toNat 47 32) ∧ (t.facet f).banks = (s.facet f).banks ∧ OnlyFacet s t f ∧
        SameMem s t ∧ ∀ b < 16, (s.facet f).bankMove.has b = false →
          ((t.facet f).bankMove.find b =
            if bankOf (bitsOf v.toNat (2 * b + 1) (2 * b)) ((s.facet f).bank b) = (s.facet f).bank b then none
            else some (bankOf (bitsOf v.toNat (2 * b + 1) (2 * b)) ((s.facet f).bank b)))) ∧
    (∀ v, (s.facet f).state ≠ .empty → (s.facet f).state ≠ .faulted →
      Runs (.tblBankpwrWrite f v) s fun t => ∃ u, t = u.raise blkTBL 0x2001 none (baseTBL + 0x1_0000 * f) v.toNat ∧
        u.facet f = { s.facet f with dozeKeep := BitVec.ofNat 16 (bitsOf v.toNat 47 32) } ∧ OnlyFacet s u f ∧ SameMem s u)

/-- R64, R73, R77, R108, R129: the facet registers that a read or a write of ones clears: FCT_DISCARD, FCT_SLACKMIN and the
counts of TBL_ECC answer their value and start again; FCT_FPFLAGS and TBL_STALL lose exactly the bits written as one. -/
def Obligations.FacetRegisters : Prop :=
  ∀ (s : State) (f : Nat), f < nFacets →
    (∀ v, Runs (.tblStallWrite f v) s fun t => OnlyFacet s t f ∧ SameMem s t ∧ (t.facet f).stall =
      if v.getLsbD 63 then none else (s.facet f).stall.map fun x => if v.getLsbD 62 then { x with more := false } else x) ∧
    (∀ v, (s.rail (fieldOf f)).set ≠ 0 → Runs (.fctFpflagsWrite f v) s fun t => OnlyFacet s t f ∧ SameMem s t ∧
      ∀ i < 5, (t.facet f).fpMat.getLsbD i = ((s.facet f).fpMat.getLsbD i && !v.getLsbD i) ∧
        (t.facet f).fpVec.getLsbD i = ((s.facet f).fpVec.getLsbD i && !v.getLsbD (5 + i))) ∧
    ((s.rail (fieldOf f)).set ≠ 0 → Runs (.fctDiscardRead f) s fun t => ∃ u, t = u.emit (.readback (pack [(0, 32, (s.facet f).discard)])) ∧
      OnlyFacet s u f ∧ u.facet f = { s.facet f with discard := 0 }) ∧
    ((s.rail (fieldOf f)).set ≠ 0 → Runs (.fctSlackminRead f) s fun t => ∃ u, t = u.emit (.readback (pack [(0, 32, (s.facet f).slackMin)])) ∧
      OnlyFacet s u f ∧ u.facet f = { s.facet f with slackMin := 0xFFFFFFFF }) ∧
    Runs (.tblEccRead f) s fun t => ∃ u, t = u.emit (.readback (pack
        [(32, 32, (s.facet f).eccCorr), (24, 8, (s.facet f).eccUnc), (20, 4, (s.facet f).eccBank), (0, 9, (s.facet f).eccWord)])) ∧
      OnlyFacet s u f ∧ u.facet f = { s.facet f with eccCorr := 0, eccUnc := 0 }

/-! ## Cuts and beats (spec/05) -/

/-- R136 to R138, R148, R150 to R152, R270: the cut commands. CUT_LOAD leaves every facet of the parcel Loaded with the
image's cut, or, where the placement fails, Empty with 0x2016; CUT_START clears the facets and sends READY up; CUT_PAUSE and CUT_STOP are requested and wait for their beat;
CUT_RESUME is announced and applied; CUT_STOP with IMMEDIATE ends the job with STOP_NOW, and one that comes after the resume of a Paused job fails; CUT_UNLOAD leaves the facets
Empty; CUT_STATUS reports. -/
def Obligations.CutCommands : Prop :=
  ∀ (s : State) (c : Cmd),
    let ps := c.pkt.params
    let i := fieldAt ps 0 1
    let w := s.waiterOf c
    (∀ v p s1 s2 bad s3 img tb, s.takes cutLoadSpec c = true → v = s.entered cutLoadSpec c → v.deviceFault = none →
      v.theParcel ps = some p → (∀ f ∈ (v.parcel p).facets, (v.facet f).state = .empty) → (v.parcel p).cut = none →
      (∀ b ∈ v.fabric.bindings, ¬(b.inst = i ∧ b.job = fieldAt ps 4 4)) →
      v.cmdRead blkPCL i (fieldAt ps 8 8) (fieldAt ps 16 4) p = (s1, some img) →
      imageFrame img (fieldAt ps 16 4) (slice ps 48 32) = none →
      imageBody s1 img (4 * (v.parcel p).gw) (4 * (v.parcel p).gh) (fieldAt ps 20 2) (fieldAt ps 2 2) (fieldAt ps 40 4) = none →
      s1.cmdRead blkPCL i (fieldAt ps 24 8) (2 * fieldAt ps 20 2) p = (s2, some tb) →
      let tab := (List.range (fieldAt ps 20 2)).map fun r => fieldAt tb (2 * r) 2
      tab.eraseDups.length = fieldAt ps 20 2 → tab.getD (fieldAt ps 2 2) 0x10000 = s2.fabric.id → fieldAt ps 40 4 = 0 →
      s2.mayFail = (bad, s3) →
      (bad = false → Succeeds (.cutLoad c) c s [] fun u => u = s3.loadCut p ps img tab ∧
        (∀ f ∈ (v.parcel p).facets, (u.facet f).state = .loaded ∧ (u.facet f).rank = fieldAt ps 2 2 ∧
          (u.facet f).jobSize = fieldAt ps 20 2) ∧
        (∀ f, f ∉ (v.parcel p).facets → (u.facet f).state = (s2.facet f).state) ∧
        ∃ k, (u.parcel p).cut = some k ∧ k.job = fieldAt ps 4 4 ∧ k.rank = fieldAt ps 2 2 ∧ k.ranktab = tab ∧
          k.identity = slice img 64 32 ∧ k.jobHash = slice img 96 32) ∧
      (bad = true → Ends (.cutLoad c) c s 0x2016 fun u => (u.parcel p).cut = none ∧
        (∀ f ∈ (v.parcel p).facets, (u.facet f).state = .empty) ∧
        ((∀ f ∈ (v.parcel p).facets, (s2.facet f).inflight = []) →
          ∀ f, f ∉ (v.parcel p).facets → (u.facet f).state = (s2.facet f).state))) ∧
    (∀ v p k, s.takes cutStartSpec c = true → v = s.entered cutStartSpec c → v.deviceFault = none → v.theParcel ps = some p →
      (v.parcel p).cut = some k → v.parcelState p = .loaded → (v.parcel p).run.started = none → (v.parcel p).run.reason = 0 →
      k.timed = false → (∀ r ∈ k.ranktab.zipIdx, r.2 ≠ k.rank → (v.wayTo v.fabric.id r.1).isSome = true) →
      Succeeds (.cutStart c) c s [] fun u => ∃ x : State, u = x.readyUp p k ((v.parcel p).readyHash k) ∧
        (x.parcel p).run.started = some v.now ∧ OnlyParcel v x p ∧ SameMem v x ∧
        (∀ f ∈ (v.parcel p).facets, (x.facet f).exc = none ∧ (x.facet f).arrived = none ∧ (x.facet f).inflight = [] ∧
          (x.facet f).xfers = [] ∧ ((v.parcel p).ckp.restored = none →
            (x.facet f).toks = [] ∧ (x.facet f).vregs = [] ∧ (x.facet f).acc = [] ∧ (x.facet f).accClass = [] ∧
            (x.facet f).beats = 0 ∧ (x.facet f).peer = k.rank)) ∧
        ∀ f, f ∉ (v.parcel p).facets → x.facet f = v.facet f) ∧
    (∀ v p k, s.takes cutPauseSpec c = true → v = s.entered cutPauseSpec c → v.theParcel ps = some p → (v.parcel p).cut = some k →
      (v.parcelState p = .paused → Succeeds (.cutPause c) c s (v.cutStatus p) fun u => u = v) ∧
      (v.parcelState p = .running → Runs (.cutPause c) s fun t => ∃ u : State, t = u.requestPause p k 1 ∧
        (u.parcel p).run = { (v.parcel p).run with pauseWait := (v.parcel p).run.pauseWait ++ [w] } ∧ OnlyParcel v u p ∧
        u.facets = v.facets)) ∧
    (∀ v p k, s.takes cutResumeSpec c = true → v = s.entered cutResumeSpec c → v.theParcel ps = some p → (v.parcel p).cut = some k →
      v.parcelState p = .paused → (v.parcel p).run.pauses.has (v.parcel p).run.beat = true → k.timed = false →
      Succeeds (.cutResume c) c s [] fun u => u = (v.ctrlAll p k 6 (v.parcel p).run.beat (fieldAt ps 8 8)).applyResume p k
        (v.parcel p).run.beat (fieldAt ps 8 8)) ∧
    (∀ v p k, s.takes cutStopSpec c = true → v = s.entered cutStopSpec c → v.theParcel ps = some p → (v.parcel p).cut = some k →
      v.parcelState p = .running ∨ v.parcelState p = .paused →
      (bitAt (fieldAt ps 2 2) 0 = true → Succeeds (.cutStop c) c s ((v.endJob p 3 k.rank true).cutStatus p) fun u =>
        u = v.endJob p 3 k.rank true) ∧
      (bitAt (fieldAt ps 2 2) 0 = false → (v.parcel p).run.pausedAt.isSome = true → (v.parcel p).run.resumeAt.isSome = true →
        Ends (.cutStop c) c s 0x200D fun u => u = v) ∧
      (bitAt (fieldAt ps 2 2) 0 = false → (v.parcel p).run.pausedAt = none ∨ (v.parcel p).run.resumeAt = none →
        Runs (.cutStop c) s fun t => ∃ u : State, t = u.requestStop p k ∧
        (u.parcel p).run = { (v.parcel p).run with stopWait := (v.parcel p).run.stopWait ++ [w] } ∧ OnlyParcel v u p ∧
        u.facets = v.facets)) ∧
    (∀ v p, s.takes cutUnloadSpec c = true → v = s.entered cutUnloadSpec c → v.theParcel ps = some p →
      v.parcelState p = .loaded ∨ v.parcelState p = .done ∨ v.parcelState p = .faulted →
      Succeeds (.cutUnload c) c s [] fun u => ∃ x : State, u = x.refreshRails ∧ (x.parcel p).cut = none ∧
        (∀ f ∈ (v.parcel p).facets, (x.facet f).state = .empty) ∧
        ((∀ f ∈ (v.parcel p).facets, (v.facet f).inflight = []) →
          ∀ f, f ∉ (v.parcel p).facets → (x.facet f).state = (v.facet f).state)) ∧
    (∀ v p, s.takes cutStatusSpec c = true → v = s.entered cutStatusSpec c → v.theParcel ps = some p →
      Succeeds (.cutStatus c) c s (v.cutStatus p) fun u => u = v)

/-- R71, R77, R139: at the closure of a beat a facet that arrived takes its slack sample, counts the beat and is released;
a facet that did not arrive keeps everything, but for Done at a stop. -/
def Obligations.FacetBeatClosure : Prop :=
  ∀ (x : Facet) (now : Nat) (stop : Bool),
    (∀ t, x.arrived = some t →
      (x.closeBeat now stop).slack = min 0xFFFFFFFF (now - t) ∧
      (x.closeBeat now stop).slackMin = min x.slackMin (min 0xFFFFFFFF (now - t)) ∧
      (x.closeBeat now stop).beats = x.beats + 1 ∧ (x.closeBeat now stop).arrived = none ∧
      (x.closeBeat now stop).state = (if stop then .done else .running) ∧
      (∀ k y, x.streams.find k = some y → (x.closeBeat now stop).streams.find k = some { y with atBeat := false }) ∧
      (x.closeBeat now stop).toks = x.toks ∧ (x.closeBeat now stop).vregs = x.vregs ∧ (x.closeBeat now stop).acc = x.acc) ∧
    (x.arrived = none → stop = false → x.closeBeat now stop = x)

/-- R139, R141, R144, R149, R150, R152, R154: the rows of a running job. The device arrives once its parcel has arrived and
nothing holds it; a due end record is written when its ring has room; an untimed beat that does not close in time ends the
job with BEAT_LIMIT; a late timed device sends SLIP and names its latest facet in LAG; a window is held after a slip and closes its beat otherwise; at S, and
at a resume's TIME, a window opens; a start without GO ends the job with START_LIMIT.
R150, R151: a pause that is received before its beat closes is held, and the smallest beat asked for comes first; of stops the
smallest is held. -/
def Obligations.BeatRows : Prop :=
  (∀ (s : State) (p : Nat) (c : Cut), (s.parcel p).cut = some c →
      let x := s.parcel p
      let r := x.run
      (x.jobOn = true → r.released = true → s.allDone p = false → r.arrivedAt = none → r.closingAt = none →
        s.parcelArrived p = true → s.stepEndOf p = false → x.pacing = false →
        Runs (.deviceArrive p) s fun t => ∃ u : State, (u.parcel p).run = { r with arrivedAt := some s.now } ∧ OnlyParcel s u p ∧
          u.facets = s.facets ∧ SameMem s u ∧ t = if c.timed then u else u.arriveUp p c) ∧
      (∀ u prod, r.endDue = true → s.putOutput p c r.step 0xFFFF r.reason [] = .ok u prod →
        Runs (.outputRecordWrite p) s fun t => t = u.modRun p fun r => { r with endDue := false }) ∧
      (r.endDue = false → x.jobOn = true → r.released = true → s.parcelArrived p = true → s.stepEndOf p = true →
        r.arrivedAt = none → Runs (.outputRecordWrite p) s fun t => t = s.putSlots p c r.step (c.ordered.drop r.outputs)) ∧
      (∀ a, r.arrivedAt = some a → x.jobOn = true → c.timed = false → r.pausedAt = none → r.closingAt = none →
        Runs (.beatLimitExpire p) s fun t => ∃ u : State, t = u.endJob p 6 c.rank true ∧ u.parcels = s.parcels ∧ u.facets = s.facets ∧
          u.now = max s.now (a + 1000 * c.beatLimit + r.pausedFor)) ∧
      (c.timed = true → x.inWindow = true → r.arrivedAt = none →
        Runs (.beatDeadline p) s fun t => OnlyParcel s t p ∧ t.facets = s.facets ∧ SameMem s t ∧ (t.parcel p).run =
          { r with slip := true, slipped := true, slipCap := r.slipCap || r.closingAt.isSome, lagFacet := s.lastFacet p }) ∧
      (c.timed = true → x.inWindow = true → r.slip = true → r.slipCap = true →
        Runs (.windowEnd p) s fun t => (t.parcel p).run =
          { r with sigma := r.sigma + 1, windowAt := r.windowAt + c.cycle, slip := false, slipCap := false } ∧
          OnlyParcel s t p ∧ t.facets = s.facets ∧ SameMem s t) ∧
      (c.timed = true → x.inWindow = true → r.slip = true → r.slipCap = false → r.holds < c.slipMax →
        Runs (.windowEnd p) s fun t => (t.parcel p).run =
          { r with sigma := r.sigma + 1, holds := r.holds + 1, windowAt := r.windowAt + c.cycle, slip := false } ∧
          OnlyParcel s t p ∧ t.facets = s.facets ∧ SameMem s t) ∧
      (c.timed = true → x.inWindow = true → r.slip = true → r.slipCap = false → c.slipMax ≤ r.holds →
        Runs (.windowEnd p) s fun t => ∃ u : State, t = u.endJob p 7 c.rank true ∧ u.parcels = s.parcels ∧ u.facets = s.facets) ∧
      (c.timed = true → x.inWindow = true → r.slip = false → r.arrivedAt.isSome = true → r.closingAt = none →
        x.ckp.announced = [] → r.pauses = [] →
        Runs (.windowEnd p) s fun t => ∃ u : State, t = u.closeWindow p c (r.windowAt + c.cycle) ∧ u.parcels = s.parcels ∧
          u.facets = s.facets) ∧
      (∀ a, c.timed = true → x.jobOn = true → r.released = false → r.resumeAt = some a →
        Runs (.timedStart p) s fun t => ∃ u : State, t = u.beginRun p c ∧ (u.parcel p).run = { r with resumeAt := none } ∧
          OnlyParcel s u p ∧ u.facets = s.facets) ∧
      (∀ a, c.timed = true → x.jobOn = true → r.released = true → r.pausedAt.isSome = true → r.resumeAt = some a →
        Runs (.resumeWindowStart p) s fun t => ∃ u : State, t = u.closeWindow p c a ∧ (u.parcel p).run = { r with resumeAt := none } ∧
          OnlyParcel s u p ∧ u.facets = s.facets) ∧
      (∀ a, c.rank = 0 → x.jobOn = true → r.released = false → r.resumeAt = none → r.started = some a →
        Runs (.startLimitExpire p) s fun t => ∃ u : State, t = u.endJob p 0x0A c.rank true ∧ u.parcels = s.parcels ∧
          u.facets = s.facets ∧ u.now = max s.now (a + 10000000000))) ∧
  (∀ (s : State) (p : Nat) (c : Cut) (n cause : Nat), (s.parcel p).run.reason = 0 → (s.parcel p).run.beat ≤ n →
      (s.parcel p).run.pauseWait = [] → (s.parcel p).run.stopWait = [] → (s.parcel p).run.arrivedAt = none →
      (s.parcel p).run.pausedAt = none →
      ((s.applyPause p c n cause).parcel p).run.pause = some (match (s.parcel p).run.pause with | some m => min m n | none => n) ∧
      ((s.applyStop p c n).parcel p).run.stop = some (match (s.parcel p).run.stop with | some m => min m n | none => n) ∧
      (s.applyPause p c n cause).facets = s.facets ∧ (s.applyStop p c n).facets = s.facets ∧
      OnlyParcel s (s.applyPause p c n cause) p ∧ OnlyParcel s (s.applyStop p c n) p)

/-- R140, R144, R149 to R152, R188, R190, R197, R277: what each CTRL frame that is taken does to the job of its parcel. -/
def Obligations.CtrlFrames : Prop :=
  ∀ (s s1 : State) (link : Nat) (z : ZFrame) (p : Nat) (c : Cut),
    let m := ctrlMsg z.payload
    let x := s1.parcel p
    let r := x.run
    (CtrlFrame s link z 1 s1 p c → x.jobOn = true → c.timed = false → m.arg = r.beat → m.srank ∈ c.children →
      m.srank ∉ r.arrivals → Runs (.ctrlArrive link z) s fun t => ∃ u : State, t = u.arriveUp p c ∧
        (u.parcel p).run = { r with arrivals := r.arrivals ++ [m.srank] } ∧ OnlyParcel s1 u p ∧ u.facets = s1.facets) ∧
    (CtrlFrame s link z 2 s1 p c → x.jobOn = true → c.timed = false → c.rank ≠ 0 → m.arg = r.beat → m.srank = c.parent →
      r.arrivedAt.isSome = true → r.closingAt = none → x.ckp.announced = [] →
      Runs (.ctrlClose link z) s fun t => ∃ u : State, u = s1.ctrlChildren p c 2 r.beat 0 0 ∧ (u.captureDue p = false → t = u.closeBeat p)) ∧
    (CtrlFrame s link z 3 s1 p c → x.jobOn = true → c.timed = true →
      Runs (.ctrlSlip link z) s fun t => (m.arg < r.beat → t = s1.endJob p 8 c.rank true) ∧ (r.beat < m.arg → t = s1) ∧
        (m.arg = r.beat → (t.parcel p).run = { r with slip := true, slipCap := r.slipCap || r.closingAt.isSome } ∧ OnlyParcel s1 t p ∧ t.facets = s1.facets)) ∧
    (CtrlFrame s link z 4 s1 p c →
      Runs (.ctrlAbort link z) s fun t => t = s1.endJob p 5 (bitsOf m.arg2 31 16) false) ∧
    (CtrlFrame s link z 5 s1 p c → x.jobOn = true → Runs (.ctrlPause link z) s fun t => t = s1.applyPause p c m.arg m.arg2) ∧
    (CtrlFrame s link z 6 s1 p c → x.jobOn = true → Runs (.ctrlResume link z) s fun t => t = s1.applyResume p c m.arg m.arg2) ∧
    (CtrlFrame s link z 7 s1 p c → x.jobOn = true → Runs (.ctrlStop link z) s fun t => t = s1.applyStop p c m.arg) ∧
    (CtrlFrame s link z 8 s1 p c → m.srank ∈ c.children → r.reason = 0 →
      Runs (.ctrlReady link z) s fun t => ∃ u : State, t = u.readyUp p c (x.readyHash c) ∧
        (u.parcel p).run = { r with ready := r.ready.put m.srank (m.hash, m.arg2) } ∧ OnlyParcel s1 u p ∧ u.facets = s1.facets) ∧
    (CtrlFrame s link z 9 s1 p c → x.jobOn = true → c.rank ≠ 0 → m.srank = c.parent → r.resumeAt = none →
      Runs (.ctrlGo link z) s fun t => t = s1.go p c m.arg2 m.arg3) ∧
    (CtrlFrame s link z 0x0A s1 p c → x.jobOn = true → c.rank = 0 → x.ckp.conf.isSome = true →
      Runs (.ctrlCknow link z) s fun t => t = if x.ckp.announced.contains (s1.announceCkpt p c r.step).2 = true
        then (s1.announceCkpt p c r.step).1.ctrlAll p c 0x0B (s1.announceCkpt p c r.step).2 0 else (s1.announceCkpt p c r.step).1) ∧
    (CtrlFrame s link z 0x0B s1 p c → x.jobOn = true → x.ckp.conf.isSome = true → r.step ≤ m.arg → m.arg ∉ x.ckp.announced →
      x.ckp.nowWait = none → Runs (.ctrlCkpt link z) s fun t => (t.parcel p).ckp.announced = x.ckp.announced ++ [m.arg] ∧
        (t.parcel p).run = r ∧ OnlyParcel s1 t p ∧ t.facets = s1.facets) ∧
    (CtrlFrame s link z 0x0C s1 p c → x.jobOn = true → c.timed = false → m.arg = r.beat → m.srank ∈ c.children →
      m.srank ∉ x.ckp.armed → Runs (.ctrlArmed link z) s fun t => ∃ u : State, t = u.armedUp p c ∧
        (u.parcel p).ckp = { x.ckp with armed := x.ckp.armed ++ [m.srank] } ∧ (u.parcel p).run = r ∧ OnlyParcel s1 u p) ∧
    (CtrlFrame s link z 0x0D s1 p c → x.jobOn = true → c.timed = false → c.rank ≠ 0 → m.arg = r.beat → m.srank = c.parent →
      r.closingAt.isSome = true → Runs (.ctrlRelease link z) s fun t => t = (s1.ctrlChildren p c 0x0D r.beat 0 0).closeBeat p) ∧
    (CtrlFrame s link z 0x0E s1 p c → c.rank = 0 → Runs (.ctrlSealed link z) s fun t => t = s1.sealReport p c m.srank m.arg true) ∧
    (CtrlFrame s link z 0x0F s1 p c → c.rank = 0 → Runs (.ctrlFailed link z) s fun t => t = s1.sealReport p c m.srank m.arg false) ∧
    (CtrlFrame s link z 0x10 s1 p c → Runs (.ctrlDone link z) s fun t => (t.parcel p).ckp = { x.ckp with keep := some m.arg } ∧
      (t.parcel p).run = r ∧ OnlyParcel s1 t p ∧ t.facets = s1.facets) ∧
    (CtrlFrame s link z 0x11 s1 p c → x.jobOn = true → c.rank = 0 → c.timed = false →
      Runs (.ctrlPauseReq link z) s fun t => t = s1.requestPause p c m.arg2) ∧
    (CtrlFrame s link z 0x12 s1 p c → x.jobOn = true → c.rank = 0 → c.timed = false →
      Runs (.ctrlStopReq link z) s fun t => t = s1.requestStop p c)

/-! ## Stacks, memory girdle and gather engines (spec/06) -/

/-- R158, R161, R164 to R169, R468: the rows of a stack. The oldest queued write lands in its bytes and no others, or not at
all when its generation is old, and a parity error of the write is counted; a read's units return in turn, then the data its request
found, or NACK 1 after a second bad read, which is logged; the banks of a pseudo-channel are refreshed in turn when they fall due; a
temperature, a scrub and a request that times out leave what their rule states. -/
def Obligations.StackRows : Prop :=
  ∀ (s : State) (k : Nat), k < 32 →
    (∀ w ws, MemOk s → (s.stack k).writes = w :: ws → s.genOf w.inst = w.gen → s.hbm.bad = [] → w.addr < hbmSize → w.data ≠ [] →
      s.writeOutcome.1 = .ok → Runs (.hbmWriteIssue k) s fun t => (t.stack k).writes = ws ∧ (t.stack k).acts = (s.stack k).acts + 1 ∧
        Memory.read t.mem w.addr w.data.length = w.data ∧ t.facets = s.facets ∧
        ∀ a, ¬(w.addr ≤ a ∧ a < w.addr + w.data.length) → Memory.get t.mem a = Memory.get s.mem a) ∧
    (∀ w ws, (s.stack k).writes = w :: ws → s.genOf w.inst = w.gen →
      (s.writeOutcome.1 = .parity → Runs (.hbmWriteIssue k) s fun t => (t.stack k).writes = ws ∧ (t.memDie (dieOfStack (s.stackOf w.addr))).parity =
        min 0xFFFF ((s.memDie (dieOfStack (s.stackOf w.addr))).parity + 1)) ∧
      (s.writeOutcome.1 = .uncorrected → Runs (.hbmWriteIssue k) s fun t => (t.stack k).writes = ws ∧ unit32 w.addr ∈ t.hbm.bad)) ∧
    (∀ w ws, (s.stack k).writes = w :: ws → s.genOf w.inst ≠ w.gen →
      Runs (.hbmWriteIssue k) s fun t => (t.stack k).writes = ws ∧ t.mem = s.mem ∧ t.facets = s.facets) ∧
    (∀ r rs, (s.stack k).reads = r :: rs → s.mibWritten (r.addr + 32 * r.done) = true → (r.addr + 32 * r.done) ∉ s.hbm.bad →
      s.faults.inject = [] →
      (r.done + 1 < r.units → Runs (.hbmReadComplete k .ok) s fun t =>
        (t.stack k).reads = { r with done := r.done + 1, second := false } :: rs ∧ SameMem s t ∧ t.mesh = s.mesh) ∧
      (r.units ≤ r.done + 1 → Runs (.hbmReadComplete k .ok) s fun t => (t.stack k).reads = rs ∧ SameMem s t ∧
        ∃ u : State, u.mesh = s.mesh ∧ t = (dataFlits r.flit (facetAt r.flit.sx r.flit.sy) ((readFields r.flit).2.1 / 128 + 1)
          (readFields r.flit).1 r.data).foldl (fun s g => s.dieSend (dieOfStack k) g) u) ∧
      (r.second = false → Runs (.hbmReadComplete k .uncorrected) s fun t => (t.stack k).reads = { r with second := true } :: rs ∧
        SameMem s t ∧ t.mesh = s.mesh ∧ t.hbm.bad = s.hbm.bad) ∧
      (r.second = true → Runs (.hbmReadComplete k .uncorrected) s fun t => (t.stack k).reads = rs ∧ SameMem s t ∧
        unit32 (r.addr + 32 * r.done) ∈ t.hbm.bad ∧
        ∃ u : State, u.mesh = s.mesh ∧ t = u.dieSend (dieOfStack k) (answerTo r.flit 5 (nackBytes 1)))) ∧
    (∀ pc bank due, pc < 32 → (s.stack k).state = .ready → (s.stack k).nextRefresh k pc = (bank, due) →
      (Runs (.hbmRefresh k pc bank) s fun t => t.now = max s.now due ∧
        (t.stack k).refresh.find pc = some { bank, at_ := max s.now due } ∧ SameMem s t ∧ t.facets = s.facets) ∧
      (∀ r, (s.stack k).refresh.find pc = some r → bank = (r.bank + 1) % 64 ∧ due = r.at_ + 32_000_000 / (s.stack k).refmul / 64) ∧
      ∀ b, b ≠ bank → Runs (.hbmRefresh k pc b) s fun t => t = s) ∧
    (∀ temp, Runs (.stackTempCross k temp) s fun t => (t.stack k).temp = temp ∧
      (t.stack k).refmul = (if temp ≤ 85 then 1 else 2) ∧ (t.stack k).reads = (s.stack k).reads ∧ SameMem s t) ∧
    (∀ a, unit32 a < hbmSize → s.stackOf (unit32 a) = k → (s.memDie (dieOfStack k)).scrub ≠ 0 → (s.stack k).state = .ready →
      s.mibWritten (unit32 a) = true → unit32 a ∉ s.hbm.bad →
      (Runs (.patrolScrub a .corrected) s fun t => (t.memDie (dieOfStack k)).corr = min 0xFFFFFFFF ((s.memDie (dieOfStack k)).corr + 1) ∧
        SameMem s t ∧ t.hbm.bad = s.hbm.bad) ∧
      (unit32 a ∉ (s.memDie (dieOfStack k)).rereads → Runs (.patrolScrub a .uncorrected) s fun t => t.hbm.bad = s.hbm.bad ∧ SameMem s t ∧
        (t.memDie (dieOfStack k)).rereads = (s.memDie (dieOfStack k)).rereads ++ [unit32 a] ∧
        (t.memDie (dieOfStack k)).uncorr = (s.memDie (dieOfStack k)).uncorr) ∧
      (unit32 a ∈ (s.memDie (dieOfStack k)).rereads → Runs (.patrolScrub a .uncorrected) s fun t => unit32 a ∈ t.hbm.bad ∧ SameMem s t ∧
        (t.memDie (dieOfStack k)).uncorr = min 0xFFFF ((s.memDie (dieOfStack k)).uncorr + 1) ∧
        (t.memDie (dieOfStack k)).uelog.find (s.memDie (dieOfStack k)).ueNext =
          some { valid := true, cls := 4, addr := unit32 (unit32 a) })) ∧
    (∀ w ws, (s.stack k).state ≠ .failed → (s.stack k).reads = [] → (s.stack k).writes = w :: ws →
      (s.faults.timeouts.getD k 0 < 15 → Runs (.stackRequestTimeout k) s fun t =>
        t.faults.timeouts.getD k 0 = s.faults.timeouts.getD k 0 + 1 ∧ (t.stack k).state = (s.stack k).state ∧ SameMem s t) ∧
      (15 ≤ s.faults.timeouts.getD k 0 → Runs (.stackRequestTimeout k) s fun t => ∃ u : State, t = u.recordFault 0x000A .stack k ∧
        (u.stack k).state = .failed ∧ (u.stack k).writes = [] ∧ (u.stack k).reads = [] ∧ u.mem = s.mem))

/-- R117, R125, R130, R164 to R168: flits at a memory-girdle die, which takes the next one of each edge facet and channel; another
stays. One of an old generation only counts in MEM_DISCARD; a WRITE to girdle SRAM lands at once and one to HBM enters its stack's
queue, visible to reads, with its ACK when it is the last; a READ of SRAM is answered with its bytes and one of HBM waits for its
stack with the data it found. -/
def Obligations.GirdleFlits : Prop :=
  ∀ (s : State) (k : Nat) (fl : Flit), k < 8 → s.dieFailed k = false →
    let n := fl.data.length
    let ended := fun u t : State => u.mesh = (s.taken (.die k) fl).mesh ∧ t = if fl.last then u.dieSend k (answerTo fl 4 []) else u
    (s.atDie k fl = false → Runs (.mgFlitReceive k fl) s fun t => t = s) ∧
    (s.atDie k fl = true →
      (fl.typ ≠ 6 → s.genOf fl.inst ≠ fl.gen →
        Runs (.mgFlitReceive k fl) s fun t => t = (s.taken (.die k) fl).mgDiscard k) ∧
      (∀ off, MemOk s → fl.typ = 0 → s.genOf fl.inst = fl.gen → fl.tokc = 0 → fl.tokn = 0 → s.heldBehind fl = none →
        regionOf fl.addr = .sram k off → s.cacheMeets k off n = false → off + n ≤ 0x0200_0000 → s.hbm.bad = [] →
        (s.memDie k).refused.find (transferKey fl) = none →
        Runs (.mgFlitReceive k fl) s fun t => Memory.read t.mem fl.addr n = fl.data ∧ t.facets = s.facets ∧
          (∀ a, ¬(fl.addr ≤ a ∧ a < fl.addr + n) → Memory.get t.mem a = Memory.get s.mem a) ∧ ∃ u, ended u t) ∧
      (fl.typ = 0 → s.genOf fl.inst = fl.gen → fl.tokc = 0 → fl.tokn = 0 → s.heldBehind fl = none →
        regionOf fl.addr = .hbm → dieOfStack (s.stackOf fl.addr) = k → (s.stack (s.stackOf fl.addr)).state ≠ .failed → s.hbm.bad = [] →
        s.stackOf (fl.addr + n - 1) = s.stackOf fl.addr → (s.memDie k).refused.find (transferKey fl) = none →
        Runs (.mgFlitReceive k fl) s fun t => t.mem = s.mem ∧ t.facets = s.facets ∧
          (∀ a, ¬(fl.addr ≤ a ∧ a < fl.addr + n) → t.readByte a = s.readByte a) ∧
          (t.stack (s.stackOf fl.addr)).writes = (s.stack (s.stackOf fl.addr)).writes ++
            [{ addr := fl.addr, data := fl.data, inst := fl.inst, gen := fl.gen }] ∧ ∃ u, ended u t) ∧
      (fl.typ = 1 → s.genOf fl.inst = fl.gen → fl.tokc = 0 → fl.tokn = 0 → (readFields fl).2.2 = false → regionOf fl.addr = .hbm →
        dieOfStack (s.stackOf fl.addr) = k → fl.addr + (readFields fl).2.1 ≤ hbmSize → (s.stack (s.stackOf fl.addr)).state ≠ .failed →
        Runs (.mgFlitReceive k fl) s fun t => SameMem s t ∧ t.facets = s.facets ∧ t.mesh = (s.taken (.die k) fl).mesh ∧
          (t.stack (s.stackOf fl.addr)).reads = (s.stack (s.stackOf fl.addr)).reads ++
            [{ flit := fl, addr := unit32 fl.addr, units := (fl.addr + (readFields fl).2.1 + 31) / 32 - fl.addr / 32, done := 0
               second := false, data := s.readBytes fl.addr (readFields fl).2.1 }]) ∧
      (∀ off, fl.typ = 1 → s.genOf fl.inst = fl.gen → fl.tokc = 0 → fl.tokn = 0 → (readFields fl).2.2 = false →
        regionOf fl.addr = .sram k off → s.cacheMeets k off (readFields fl).2.1 = false → off + (readFields fl).2.1 ≤ 0x0200_0000 →
        s.rangeBad fl.addr (readFields fl).2.1 = false →
        Runs (.mgFlitReceive k fl) s fun t => SameMem s t ∧ t.facets = s.facets ∧
          t = (dataFlits fl (facetAt fl.sx fl.sy) ((readFields fl).2.1 / 128 + 1) (readFields fl).1
            (s.readBytes fl.addr (readFields fl).2.1)).foldl (fun s g => s.dieSend k g) (s.taken (.die k) fl)))

/-- R164: a write that has entered a stack's queue is visible to every later read, before the stack issues it. -/
def Obligations.QueuedWriteVisible : Prop :=
  ∀ (s : State) (a : Nat) (bs : List Byte) (i : Nat) (g : BitVec 16), s.hbm.bad = [] → a + bs.length ≤ hbmSize →
    (∀ b, a ≤ b → b < a + bs.length → s.stackOf b = s.stackOf a) → 0 < bs.length →
    (s.queueWrite a bs i g).1.readBytes a bs.length = bs ∧
    ∀ b, b < a ∨ a + bs.length ≤ b → (s.queueWrite a bs i g).1.readByte b = s.readByte b

/-- R160, R170, R177: MEM_ZONE_SET changes the mode of a zone not in use and zeroes it, and only it; GTH_TABLE_SET and
GTH_TABLE_CLEAR change an entry at once, or wait while descriptors use it; GTH_TABLE_GET answers the entry; GTH_CACHE_DROP
leaves no cached row that it names. -/
def Obligations.MemoryCommands : Prop :=
  ∀ (s : State) (c : Cmd),
    let ps := c.pkt.params
    let i := fieldAt ps 0 1
    let n := fieldAt ps 1 1
    let w := s.waiterOf c
    (∀ v, s.takes memZoneSetSpec c = true → v = s.entered memZoneSetSpec c →
      v.mappedBy (i * 0xC_0000_0000) 0xC_0000_0000 = false → v.holdsMap (i * 0xC_0000_0000) 0xC_0000_0000 = false →
      v.nsUses (i * 0xC_0000_0000) 0xC_0000_0000 = false →
      Succeeds (.memZoneSet c) c s [] fun u => (∀ z < 32, u.hbm.zones.getLsbD z = if z = i then n = 1 else v.hbm.zones.getLsbD z) ∧
        (∀ a, i * 0xC_0000_0000 ≤ a → a < (i + 1) * 0xC_0000_0000 → Memory.get u.mem a = 0) ∧ u.facets = v.facets) ∧
    (∀ v, s.takes gthTableSetSpec c = true → v = s.entered gthTableSetSpec c → pitchOk (parseTable ps).pitch = true →
      (parseTable ps).rowLen ≤ (parseTable ps).pitch → (∀ x ∈ v.gather.waits, ¬(x.inst = i ∧ x.tab = n)) →
      (v.tableBusy i n = false → Succeeds (.gthTableSet c) c s [] fun u => u.gather.tables.find (16 * i + n) = some (parseTable ps) ∧
        (∀ k, k ≠ 16 * i + n → u.gather.tables.find k = v.gather.tables.find k) ∧ SameMem v u ∧ u.facets = v.facets) ∧
      (v.tableBusy i n = true → Runs (.gthTableSet c) s fun t => t.gather.tables = v.gather.tables ∧
        t.gather.waits = v.gather.waits ++ [{ waiter := w, began := v.now, inst := i, tab := n, value := some (parseTable ps) }])) ∧
    (∀ v, s.takes gthTableClearSpec c = true → v = s.entered gthTableClearSpec c → v.gather.tables.has (16 * i + n) = true →
      (∀ x ∈ v.gather.waits, ¬(x.inst = i ∧ x.tab = n)) → v.tableBusy i n = false →
      Succeeds (.gthTableClear c) c s [] fun u => u.gather.tables.find (16 * i + n) = none ∧
        (∀ k, k ≠ 16 * i + n → u.gather.tables.find k = v.gather.tables.find k) ∧ SameMem v u ∧ u.facets = v.facets) ∧
    (∀ v x, s.takes gthTableGetSpec c = true → v = s.entered gthTableGetSpec c → v.gather.tables.find (16 * i + n) = some x →
      Succeeds (.gthTableGet c) c s (x.bytes i n) fun u => u = v) ∧
    (∀ v, s.takes gthCacheDropSpec c = true → v = s.entered gthCacheDropSpec c → n = 0xFF ∨ v.gather.tables.has (16 * i + n) = true →
      Succeeds (.gthCacheDrop c) c s [] fun u => u.gather.tables = v.gather.tables ∧ SameMem v u ∧
        ∀ e ∈ u.gather.dies, ∀ r ∈ e.2.cache, r.inst = i → n ≠ 0xFF ∧ r.table ≠ n)

/-- R170 to R183: the rows of a gather engine. A descriptor that passes R174 is acknowledged and queued, one that fails is
refused with its own TAG; the next distinct row comes from the cache, from this device or from a peer, whose READ that fails ends the
descriptor; a chunk whose rows are there leaves in order, the last after the status record; a table command that waited changes its
entry, or fails with 0x3004 after 1 s. -/
def Obligations.GatherRows : Prop :=
  ∀ (s : State) (k : Nat), k < 8 →
    (∀ fl v, fl.typ = 6 → s.atDie k fl = true → fl.last = true → (s.gatherDie k).jobs.length < 256 → s.gather.waits = [] →
      s.dieFailed k = false → s.genOf fl.inst = fl.gen → (s.memDie k).refused.find (transferKey fl) = none → v = s.taken (.die k) fl →
      (∀ e a, v.gatherCheck (facetAt fl.sx fl.sy) fl = .error (e, a, 0) →
        Runs (.gatherDescReceive k fl) s fun t => ∃ u : State, t = u.dieSend k (answerTo fl 5 (nackBytes e)) ∧
          u.gather = s.gather ∧ SameMem s u ∧ u.mesh = v.mesh) ∧
      (∀ j, v.gatherCheck (facetAt fl.sx fl.sy) fl = .ok j → j.tab.shards = 1 →
        Runs (.gatherDescReceive k fl) s fun t => (t.gatherDie k).jobs = (s.gatherDie k).jobs ++ [j] ∧ SameMem s t ∧
          t.mesh = (v.dieSend k (answerTo fl 4 [])).mesh)) ∧
    (∀ j js r ws o, (s.gatherDie k).jobs = j :: js → s.genOf j.inst = j.gen → s.weightsOf j = .ok ws →
      (j.distinct.find? fun q => !j.rows.has q) = some r →
      let arrives := fun (vals : List (BitVec 32)) (t : State) => SameMem s t ∧ ∃ j', (t.gatherDie k).jobs = j' :: js ∧
        j'.rows = j.rows.put r vals ∧ j'.chunks = j.chunks ∧ j'.weights = ws
      (∀ x, j.asked = none → (s.gatherDie k).cached j.inst j.desc.table r = some x →
        Runs (.gatherRowArrive k o) s (arrives (j.tab.dequant
          (if x.segs.isEmpty then x.data else x.segs.flatMap fun e => s.readBytes e.1 e.2)))) ∧
      (∀ b, j.asked = none → (s.gatherDie k).cached j.inst j.desc.table r = none → j.own r = true →
        s.gatherRead j.inst (j.addrOf r) j.tab.rowLen = .ok b → o ≠ .uncorrected → Runs (.gatherRowArrive k o) s (arrives (j.tab.dequant b))) ∧
      (∀ e rs, (s.gatherDie k).cached j.inst j.desc.table r = none → j.own r = true →
        s.rangesOf j.inst (j.addrOf r) j.tab.rowLen false = .ok (e :: rs) → e.1 < hbmSize → s.mibWritten e.1 = true →
        Runs (.gatherRowArrive k .uncorrected) s fun t => ∃ (u : State) (st : Nat), t = u.gatherFail k { j with weights := ws } st ∧ SameMem s u) ∧
      (∀ n b, j.asked = some (r, n) → (s.gatherDie k).cached j.inst j.desc.table r = none → j.own r = false →
        (∀ q ∈ j.distinct, q = r ∨ j.rows.has q = true ∨ j.own q = true) → s.rma.engDone.find n = some { ok := true, data := b } →
        Runs (.gatherRowArrive k o) s fun t => arrives (j.tab.dequant b) t ∧ t.rma.engDone.find n = none) ∧
      (∀ n b, j.asked = some (r, n) → (s.gatherDie k).cached j.inst j.desc.table r = none → j.own r = false →
        s.rma.engDone.find n = some { ok := false, data := b } →
        Runs (.gatherRowArrive k o) s fun t => ∃ u : State, t = u.gatherFail k { j with weights := ws } 0x13 ∧ SameMem s u)) ∧
    (∀ j js, (s.gatherDie k).jobs = j :: js → s.genOf j.inst = j.gen → (∀ r ∈ j.distinct, j.rows.has r = true) →
      Runs (.gatherChunkDeliver k) s fun t => SameMem s t ∧ t.facets = s.facets ∧
        (t.gatherDie k).jobs = (if j.desc.rowsOut ≤ (j.chunks + 1) * j.desc.chunk then js else { j with chunks := j.chunks + 1 } :: js) ∧
        ∃ new : List Flit, t.mesh = (new.foldl (fun s g => s.dieSend k g) s).mesh ∧ ∀ fl ∈ new, fl.typ = 0 ∧ fl.flow = j.tag ∧
          (fl.last = false → fl.tokn = 0)) ∧
    (∀ i n w, s.gather.waits.find? (fun x => x.inst = i && x.tab = n) = some w →
      (s.tableBusy i n = false → Runs (.gthTableWaitEnd i n) s fun t => ∃ u : State, t = u.finish w.waiter 0 0 [] ∧
        u.gather.tables.find (16 * i + n) = w.value ∧ u.gather.waits = s.gather.waits.erase w ∧ SameMem s u) ∧
      (s.tableBusy i n = true → Runs (.gthTableWaitEnd i n) s fun t => ∃ u : State, t = u.finish w.waiter 0x3004 0 [] ∧
        u.gather.tables = s.gather.tables ∧ u.gather.waits = s.gather.waits.erase w ∧ SameMem s u))

/-- R166, R167, R176, R178: GTH_CACHE takes a way count up to 16 and the cache starts empty; GTH_CWAYS takes a mask of cache
ways that no other instance holds; MEM_UELOG loses its VALID to a one; MEM_ECC and MEM_DISCARD are cleared by their read. -/
def Obligations.MemoryRegisters : Prop :=
  ∀ (s : State) (k : Nat), k < 8 → s.girdleOn = true →
    (∀ v : BitVec 64, bitsOf v.toNat 4 0 ≤ 16 → Runs (.gthCacheWrite k v) s fun t => (t.gatherDie k).ways = bitsOf v.toNat 4 0 ∧
      (t.gatherDie k).cache = [] ∧ (t.gatherDie k).jobs = (s.gatherDie k).jobs ∧ t.facets = s.facets) ∧
    (∀ (i : Nat) (v : BitVec 64), i < 64 → (∀ e ∈ (s.gatherDie k).masks, e.1 ≠ i → e.2 &&& BitVec.ofNat 16 v.toNat = 0) →
      (∀ w, w < 16 - (s.gatherDie k).ways → v.getLsbD w = false) →
      Runs (.gthCwaysWrite k i v) s fun t => (t.gatherDie k).masks.getD i 0 = BitVec.ofNat 16 v.toNat ∧ SameMem s t ∧
        (t.gatherDie k).ways = (s.gatherDie k).ways ∧ ∀ r ∈ (t.gatherDie k).cache, r ∈ (s.gatherDie k).cache) ∧
    (∀ n v e, n < 16 → (s.memDie k).uelog.find n = some e → Runs (.memUelogWrite k n v) s fun t =>
      (t.memDie k).uelog.find n = some (if v.getLsbD 63 then { e with valid := false } else e) ∧ SameMem s t ∧ t.facets = s.facets) ∧
    (Runs (.memEccRead k) s fun t => ∃ u : State, t = u.emit (.readback (pack
        [(32, 32, (s.memDie k).corr), (16, 16, (s.memDie k).uncorr), (0, 16, (s.memDie k).parity)])) ∧
      u.memDie k = { s.memDie k with corr := 0, uncorr := 0, parity := 0 } ∧ u.facets = s.facets ∧ SameMem s u) ∧
    (Runs (.memDiscardRead k) s fun t => ∃ u : State, t = u.emit (.readback (pack [(0, 32, (s.memDie k).discard)])) ∧
      u.memDie k = { s.memDie k with discard := 0 } ∧ u.facets = s.facets ∧ SameMem s u)

/-! ## Checkpoint and restore (spec/07) -/

/-- R186 to R188, R196, R199, R200: the checkpoint commands. CKP_CONFIG that keeps R187 replaces the configuration, with no
kept step, and keeps what belongs to the job; CKP_NOW at rank 0 answers the chosen step, at another rank asks rank 0 and waits, and
fails while an earlier one stands; CKP_STATUS reports; CKP_RESTORE of a sealed manifest that fits leaves
the cut at its beat and the following step. -/
def Obligations.CheckpointCommands : Prop :=
  ∀ (s : State) (c : Cmd),
    let ps := c.pkt.params
    (∀ v p s1 b k, s.takes ckpConfigSpec c = true → v = s.entered ckpConfigSpec c → v.theParcel ps = some p →
      v.parcelState p = .empty ∨ v.parcelState p = .loaded ∨ v.parcelState p = .paused → (v.parcel p).ckp.busy = false →
      v.cmdRead blkCKP (v.parcel p).inst (fieldAt ps 56 8) (16 * fieldAt ps 3 1) p = (s1, some b) →
      k = ({ kind := fieldAt ps 2 1, periodMs := fieldAt ps 4 4, every := fieldAt ps 8 4, nsid := fieldAt ps 12 4, peer := fieldAt ps 16 2
             qp := fieldAt ps 20 4, base := fieldAt ps 24 8, slotBytes := fieldAt ps 32 8, save := fieldAt ps 40 8
             saveLen := fieldAt ps 48 8
             regions := (List.range (fieldAt ps 3 1)).map fun j => (fieldAt b (16 * j) 8, fieldAt b (16 * j + 8) 8) } : CkpConf) →
      s1.confOk (v.parcel p) k = true →
      Succeeds (.ckpConfig c) c s [] fun u => ∃ x : State, (x.parcel p).ckp.conf = some k ∧ (x.parcel p).ckp.keep = none ∧
        (x.parcel p).ckp.ckseq = 0 ∧ (x.parcel p).ckp.announced = (v.parcel p).ckp.announced ∧
        (x.parcel p).ckp.restored = (v.parcel p).ckp.restored ∧ (x.parcel p).ckp.armedSelf = (v.parcel p).ckp.armedSelf ∧
        (x.parcel p).run = (v.parcel p).run ∧ OnlyParcel s1 x p ∧ SameMem s1 x ∧ x.facets = s1.facets ∧
        u = match (v.parcel p).cut with
          | some y => if (v.parcel p).jobOn then x.everyTarget p y else x
          | none => x) ∧
    (∀ v p k st u0, s.takes ckpNowSpec c = true → v = s.entered ckpNowSpec c → v.theParcel ps = some p → (v.parcel p).cut = some k →
      v.parcelState p = .running → (v.parcel p).ckp.conf.isSome = true → (v.parcel p).ckp.nowStep = none →
      (v.parcel p).ckp.nowWait = none → k.rank = 0 → v.announceCkpt p k (v.parcel p).run.step = (u0, st) →
      Succeeds (.ckpNow c) c s (leBytes 8 st) fun u => (u.parcel p).ckp.nowStep = some st ∧ (v.parcel p).run.step ≤ st ∧
        u.facets = v.facets) ∧
    (∀ v p k, s.takes ckpNowSpec c = true → v = s.entered ckpNowSpec c → v.theParcel ps = some p → (v.parcel p).cut = some k →
      v.parcelState p = .running → (v.parcel p).ckp.conf.isSome = true →
      ((v.parcel p).ckp.nowStep = none → (v.parcel p).ckp.nowWait = none → k.rank ≠ 0 → Runs (.ckpNow c) s fun t =>
        t = (v.ctrlTo p k 0 0x0A 0 0 0 []).modCkp p fun q => { q with nowWait := some (s.waiterOf c) }) ∧
      ((v.parcel p).ckp.nowStep.isSome = true ∨ (v.parcel p).ckp.nowWait.isSome = true →
        Ends (.ckpNow c) c s 0x400A fun u => u = v)) ∧
    (∀ v p, s.takes ckpStatusSpec c = true → v = s.entered ckpStatusSpec c → v.theParcel ps = some p →
      Succeeds (.ckpStatus c) c s (leBytes 1 (v.parcel p).ckp.phase.code ++ leBytes 1 (v.parcel p).ckp.fail ++ zeros 6 ++
        leBytes 8 (v.parcel p).ckp.ckseq ++ leBytes 8 (stepWord (v.parcel p).ckp.announced.min?) ++
        leBytes 8 (stepWord (v.parcel p).ckp.keep) ++ leBytes 8 (stepWord (v.parcel p).ckp.slot0) ++
        leBytes 8 (stepWord (v.parcel p).ckp.slot1) ++ leBytes 8 (v.parcel p).ckp.bytes) fun u => u = v) ∧
    (∀ v p k q s1 a s2 b slot man s3, s.takes ckpRestoreSpec c = true → v = s.entered ckpRestoreSpec c → v.theParcel ps = some p →
      (v.parcel p).ckp.conf = some k → (v.parcel p).cut = some q → v.parcelState p = .loaded → (v.parcel p).run.started = none →
      (v.parcel p).run.reason = 0 → (v.parcel p).ckp.busy = false →
      v.manifestOf k (v.parcel p).inst 0 = (s1, some a) → s1.manifestOf k (v.parcel p).inst 1 = (s2, some b) →
      pickManifest (fieldAt ps 8 8) a b = some (slot, man) →
      fieldAt man 40 2 = q.jobSize → fieldAt man 42 2 = q.rank → fieldAt man 44 1 = 4 * (v.parcel p).gw →
      fieldAt man 45 1 = 4 * (v.parcel p).gh → slice man 64 32 = q.identity →
      s2.restoreShards p k (v.parcel p).inst man slot (fieldAt man 10 2) 0 = (s3, none) →
      Succeeds (.ckpRestore c) c s [] fun u => (u.parcel p).run.beat = fieldAt man 32 8 ∧
        (u.parcel p).run.step = fieldAt man 24 8 + 1 ∧ (u.parcel p).ckp.restored = some (fieldAt man 24 8) ∧
        OnlyParcel s3 u p ∧ SameMem s3 u ∧ u.facets = s3.facets)

/-- R188 to R192, R196 to R198: the rows of a checkpoint. Rank 0's timer announces a step; a capture that ends arms the
device; a pending granule is saved with its bytes, and the live ones stay, or the copy fails on uncorrectable data; the copier appends
its piece to the shard, and goes past a flush only when what came before it is complete; after the last flush the slot is sealed with
the step; an old generation or a power-fail warning fails the copy.
R197: rank 0 sends DONE and keeps step s exactly when SEALED has come from every rank of the job for that step; a report that
leaves one of them missing, and a FAILED report of a rank, keep the step that was kept and send nothing. -/
def Obligations.CheckpointRows : Prop :=
  (∀ (s : State) (p : Nat),
      let x := s.parcel p
      let k := x.ckp
      let turned := fun (q : CkpConf) (w : State) =>
        if q.kind ≠ 1 then w else match w.nss (q.nsid - 1) with | some y => w.arbEmpty y.owner copierQ | none => w
      (∀ a c, k.timerAt = some a → x.cut = some c → c.rank = 0 → x.jobOn = true →
        Runs (.ckpTimerExpire p) s fun t => ∃ u : State, t = (u.announceCkpt p c x.run.step).1 ∧ u.now = max s.now a ∧
          (u.parcel p).ckp = { k with timerAt := none } ∧ OnlyParcel s u p ∧ u.facets = s.facets ∧ SameMem s u) ∧
      (k.phase = .capturing → x.cut = none ∨ x.run.closingAt = none →
        Runs (.captureComplete p) s fun t => (t.parcel p).ckp.armedSelf = true ∧
          (t.parcel p).ckp.phase = (if k.active then .copying else if k.announced.isEmpty then .idle else .announced) ∧
          OnlyParcel s t p ∧ t.facets = s.facets ∧ SameMem s t) ∧
      (∀ c, k.phase = .capturing → x.cut = some c → c.timed = false → x.run.closingAt.isSome = true →
        Runs (.captureComplete p) s fun t => ∃ u : State, t = u.armedUp p c ∧ (u.parcel p).ckp.armedSelf = true ∧ u.facets = s.facets ∧
          SameMem s u) ∧
      (∀ g u, k.active = true → k.hurt = false → k.copied ≤ g → k.saved.has g = false → g < (k.segs.map (·.2)).sum / ckpGranule →
        s.drainHbm.saveGranule p g = some u →
        (s.hbm.bad = [] → k.held = [] →
          Runs (.granuleSaveDone p g) s fun t => SameMem u t ∧ ∃ pl src dst, k.freePlace = some pl ∧
            segAt k.segs (g * ckpGranule) = some src ∧ segAt k.saveSegs (pl * ckpGranule) = some dst ∧
            (t.parcel p).ckp.saved.find g = some pl ∧
            (MemOk s → Memory.read t.mem dst ckpGranule = s.drainHbm.readBytes src ckpGranule) ∧
            ∀ a, ¬(dst ≤ a ∧ a < dst + ckpGranule) → Memory.get t.mem a = Memory.get s.drainHbm.mem a) ∧
        ((u.parcel p).ckp.hurt = true → Runs (.granuleSaveDone p g) s fun t => t = (u.releaseGranule p g).ckpFail p 1)) ∧
      (∀ q m xs f s1 s2 bs, k.conf = some q → k.info = some m → k.phase = .copying → k.stage = 3 → k.hurt = false →
        s.genOf m.inst = m.gen → s.power.pfw = false → s.copierTurn q k = some s1 → (s1.parcel p).ckp = k →
        xs = shardsOf m.width m.height q.regions → xs[k.pos]? = some f → f.kind = 1 →
        (∀ r ∈ k.nextPiece f k.part.length, s1.rangeBad r.1 r.2 = false) →
        bs = (k.nextPiece f k.part.length).flatMap (fun r => s1.readBytes r.1 r.2) → k.part.length + bs.length < f.len →
        (((k.nextPiece f k.part.length).foldl (fun s r => s.met r.1 r.2) s1).charge m.inst 1 (hbmBytes (k.nextPiece f k.part.length))).destWrite
          p q m.inst (k.slot * q.slotBytes + shardOffset (xs.take k.pos) + k.part.length) bs = some s2 →
        Runs (.copierGranule p) s fun t => ∃ w : State, t = turned q w ∧ OnlyParcel s2 w p ∧ SameMem s2 w ∧ w.facets = s2.facets ∧
          (w.parcel p).ckp = { (s2.parcel p).ckp with part := k.part ++ bs }) ∧
      (∀ q m s1 s2 done, k.conf = some q → k.info = some m → k.phase = .copying ∨ k.phase = .sealing → k.stage = 2 ∨ k.stage = 7 →
        k.hurt = false → s.genOf m.inst = m.gen → s.power.pfw = false → s.copierTurn q k = some s1 → (s1.parcel p).ckp = k →
        s1.destDone p = .ok (s2, done) →
        Runs (.copierGranule p) s fun t => t = turned q (if done = true ∧ k.stage = 2 then s2.toStage p 3 else s2)) ∧
      (∀ q m, k.conf = some q → k.info = some m → k.phase = .copying → k.hurt = true →
        Runs (.copierGranule p) s fun t => t = s.ckpFail p 1) ∧
      (∀ q m, k.conf = some q → k.info = some m → k.phase = .copying → k.hurt = false → s.genOf m.inst ≠ m.gen →
        Runs (.copierGranule p) s fun t => t = s.ckpFail p 5) ∧
      (∀ q m, k.conf = some q → k.info = some m → k.phase = .copying → k.hurt = false → s.genOf m.inst = m.gen → s.power.pfw = true →
        Runs (.copierGranule p) s fun t => t = s.ckpFail p 4) ∧
      (∀ q m s1, k.conf = some q → k.info = some m → k.phase = .sealing → k.stage = 7 → k.held = [] → s.genOf m.inst = m.gen →
        s.destDone p = .ok (s1, true) →
        Runs (.ckptSeal p) s fun t => ∃ u : State, u.facets = s.facets ∧ SameMem s u ∧ OnlyParcel s u p ∧
          (u.parcel p).ckp.active = false ∧ (u.parcel p).ckp.saved = [] ∧
          (u.parcel p).ckp.slot0 = (if k.slot = 0 then some m.step else k.slot0) ∧
          (u.parcel p).ckp.slot1 = (if k.slot = 1 then some m.step else k.slot1) ∧
          (m.rank ≠ 0 → t = u.ctrlTo p m.asCut 0 0x0E m.step 0 0 []) ∧
          (∀ y, m.rank = 0 → x.cut = some y → y.job = m.job → t = u.sealReport p m.asCut 0 m.step true))) ∧
  (∀ (s : State) (p rank st : Nat) (c : Cut),
      ((∀ r < c.jobSize, r = rank ∨ (st, r, true) ∈ (s.parcel p).ckp.sealedBy) →
        ((s.sealReport p c rank st true).parcel p).ckp.keep = some st ∧
        ∃ u : State, (s.sealReport p c rank st true).fabric = (u.ctrlAll p c 0x10 st 0).fabric ∧ u.fabric = s.fabric) ∧
      (∀ r, r < c.jobSize → r ≠ rank → (st, r, true) ∉ (s.parcel p).ckp.sealedBy →
        ((s.sealReport p c rank st true).parcel p).ckp.keep = (s.parcel p).ckp.keep ∧
        (s.sealReport p c rank st true).fabric = s.fabric) ∧
      (rank < c.jobSize → ((s.sealReport p c rank st false).parcel p).ckp.keep = (s.parcel p).ckp.keep ∧
        (s.sealReport p c rank st false).fabric = s.fabric))

/-! ## Instances, parcels and accounting (spec/08) -/

/-- R203, R206 to R215, R219, R223: the instance and parcel commands. A created instance has a map of zeros; a reset or a
removal begins with the next generation at every facet of the instance; an allocated parcel is the lowest free number and its
facets are Empty under their owner; a freed one leaves zeroed scratchpads and no owner; shares, map entries and the
accounting ring take the given values, a budget from the next interval on; PCL_INST_STATUS reports. -/
def Obligations.TenantCommands : Prop :=
  ∀ (s : State) (c : Cmd),
    let ps := c.pkt.params
    let i := fieldAt ps 0 1
    let w := s.waiterOf c
    let begun := fun (v : State) (st : InstState) (t : State) => ∃ u : State, t = ((u.parcelsOf i).foldl State.stopNow u).destroyOwned i ∧
      u.inst i = { v.inst i with state := st, gen := (v.inst i).gen + 1, reset := some { waiter := w, began := v.now } } ∧
      (∀ j, j ≠ i → u.inst j = v.inst j) ∧ u.parcels = v.parcels ∧ SameMem v u ∧
      ∀ f, (u.facet f).owner = (v.facet f).owner.map fun o => if o.inst = i then { o with gen := (v.inst i).gen + 1 } else o
    (∀ v base len, s.takes pclInstCreateSpec c = true → v = s.entered pclInstCreateSpec c → base = fieldAt ps 8 8 → len = fieldAt ps 16 4 →
      i ≠ 0 → (v.inst i).state = .free → base % granule = 0 → base + 8 * len ≤ hbmSize → v.mapArrayMeets base (8 * len) = false →
      v.mappedBy base (8 * len) = false →
      Succeeds (.pclInstCreate c) c s [] fun u => ∃ x : State, u = x.account 5 i 0xFF (2 ^ 64 - 1) [] (zeros 32) ∧
        x.inst i = { Instance.initial with state := .active, gen := v.genOf i, mapBase := base, mapLen := len } ∧
        (∀ j, j ≠ i → x.inst j = v.inst j) ∧ (∀ a, base ≤ a → a < base + 8 * len → Memory.get x.mem a = 0) ∧
        (∀ a, a < base ∨ base + 8 * len ≤ a → Memory.get x.mem a = Memory.get v.drainHbm.mem a) ∧ x.facets = v.facets) ∧
    (∀ v, s.takes pclInstResetSpec c = true → v = s.entered pclInstResetSpec c → i ≠ 0 → v.isActive i = true →
      Runs (.pclInstReset c) s (begun v .resetting)) ∧
    (∀ v, s.takes pclInstRemoveSpec c = true → v = s.entered pclInstRemoveSpec c → i ≠ 0 → v.isActive i = true →
      Runs (.pclInstRemove c) s (begun v .removing)) ∧
    (∀ v p x, s.takes pclParcelAllocSpec c = true → v = s.entered pclParcelAllocSpec c →
      x = { Parcel.initial with valid := true, inst := i, gx := fieldAt ps 1 1, gy := fieldAt ps 2 1, gw := fieldAt ps 3 1, gh := fieldAt ps 4 1 } →
      v.isActive i = true → x.gx + x.gw ≤ 12 → x.gy + x.gh ≤ 8 → (∀ f ∈ x.facets, (v.facet f).owner = none) →
      p < 64 → (v.parcel p).valid = false → (∀ q, q < p → (v.parcel q).valid = true) →
      Succeeds (.pclParcelAlloc c) c s (leBytes 1 p ++ zeros 7) fun u =>
        (u.parcel p).valid = true ∧ (u.parcel p).inst = i ∧ (u.parcel p).facets = x.facets ∧ (u.parcel p).budget = 0 ∧
        OnlyParcel v u p ∧ SameMem v u ∧
        (∀ f ∈ x.facets, u.facet f = { v.facet f with
          owner := some { gen := v.genOf i, inst := i, px := 4 * x.gx, py := 4 * x.gy, pw := 4 * x.gw - 1, ph := 4 * x.gh - 1 }
          state := .empty }) ∧
        ∀ f, f ∉ x.facets → u.facet f = v.facet f) ∧
    (∀ v p x, s.takes pclParcelFreeSpec c = true → v = s.entered pclParcelFreeSpec c → p = i → x = v.parcel p → x.valid = true →
      (∀ f ∈ x.facets, (v.facet f).state = .empty) → v.drainHbm.parcelMapped x = false →
      Succeeds (.pclParcelFree c) c s [] fun u => ∃ y : State, u = y.refreshRails ∧ (y.parcel p).valid = false ∧
        (y.parcel p).budget = 0 ∧ OnlyParcel v y p ∧
        (∀ f ∈ x.facets, (y.facet f).owner = none ∧ (∀ b < 16, (y.facet f).bank b = (v.facet f).bankWant b) ∧
          ∀ o < 0x10_0000, Memory.get y.mem (spadAddr f o) = 0) ∧
        (∀ f, f ∉ x.facets → y.facet f = v.facet f) ∧
        ∀ a, (∀ f ∈ x.facets, ¬(spadAddr f 0 ≤ a ∧ a < spadAddr f 0 + 0x10_0000)) → Memory.get y.mem a = Memory.get v.mem a) ∧
    (∀ v, s.takes pclShareSetSpec c = true → v = s.entered pclShareSetSpec c → v.isActive i = true →
      Succeeds (.pclShareSet c) c s [] fun u => u.inst i = { v.inst i with shares := parseShares ps } ∧
        (∀ j, j ≠ i → u.inst j = v.inst j) ∧ SameMem v u ∧ u.facets = v.facets) ∧
    (∀ v first count entry, s.takes pclMapSetSpec c = true → v = s.entered pclMapSetSpec c → first = fieldAt ps 4 4 → count = fieldAt ps 8 4 →
      entry = fieldAt ps 16 8 → v.isActive i = true → first + count ≤ (v.inst i).mapLen → (v.inst i).mapBase + 8 * (v.inst i).mapLen ≤ hbmSize →
      MemOk v → v.hbm.bad = [] → v.drainHbm.mapRefusal i first count entry = none → (∀ e ∈ v.drainHbm.validEntries i, v.mapArrayMeets (entryGran e.2 * granule) granule = false) →
      Runs (.pclMapSet c) s fun t => ∃ m : MapWork, (t.inst i).mapWork = (v.inst i).mapWork ++ [m] ∧ m.waiter = w ∧ m.count = count ∧
        0 < m.done ∧ (∀ k, k < m.done → t.mapEntry i (first + k) = entryAt entry k) ∧
        (∀ g, g < first ∨ first + m.done ≤ g → g < (v.inst i).mapLen → t.mapEntry i g = v.drainHbm.mapEntry i g) ∧
        (v.copying = false → ∀ g ∈ m.zero, ∀ a, g * granule ≤ a → a < (g + 1) * granule → t.readByte a = 0) ∧ t.facets = v.facets) ∧
    (∀ v b n, s.takes pclBudgetSetSpec c = true → v = s.entered pclBudgetSetSpec c → b = fieldAt ps 4 4 → n = fieldAt ps 8 2 →
      (v.parcel i).valid = true → v.isActive (v.parcel i).inst = true → b = 0 ∨ 125 * (v.parcel i).facets.length ≤ b → b ≤ 2400000 →
      1 ≤ n → n ≤ 10000 →
      Succeeds (.pclBudgetSet c) c s [] fun u => OnlyParcel v u i ∧ SameMem v u ∧ u.facets = v.facets ∧
        u.parcel i = { v.parcel i with budgetNext := some (b, n) }) ∧
    (∀ v, s.takes pclAcctConfigSpec c = true → v = s.entered pclAcctConfigSpec c →
      (fieldAt ps 8 4 = 0 → Succeeds (.pclAcctConfig c) c s [] fun u => u.acct.ringLen = 0 ∧ SameMem v u ∧ u.facets = v.facets) ∧
      (∀ x, powerIn (fieldAt ps 8 4) 0x10000 0x4000_0000 = true → 100 ≤ fieldAt ps 12 4 → fieldAt ps 12 4 ≤ 3600000 →
        v.mapsRw 0 (fieldAt ps 0 8) (fieldAt ps 8 4 + 64) = true → v.ringReset clsHost 0 (fieldAt ps 0 8) = (x, true) →
        Succeeds (.pclAcctConfig c) c s [] fun u => u.acct = { x.acct with
          ring := fieldAt ps 0 8, ringLen := fieldAt ps 8 4, periodMs := fieldAt ps 12 4, prod := 0, seq := 0, lastPeriod := x.now } ∧
          SameMem x u ∧ u.facets = x.facets ∧ u.insts = x.insts)) ∧
    (∀ v, s.takes pclInstStatusSpec c = true → v = s.entered pclInstStatusSpec c →
      Succeeds (.pclInstStatus c) c s (leBytes 1 (v.inst i).state.code ++ zeros 1 ++ leBytes 2 (v.inst i).gen.toNat ++ zeros 4 ++
        (countBytes (v.inst i).counts).take 56) fun u => u = v)

/-- R207, R214, R215, R217, R219, R220, R223, R224: what completes tenant work and what counts it. A drained reset leaves the
instance Active with Empty facets, a drained removal, which waits for its map, leaves it Free; a late one answers 0x100C; a drained PCL_MAP_SET leaves
zeros where a last mapping went; each interval refills and charges every credit, under the budget it had, and ends every field's energy count; the period
writes one record for each Active instance. -/
def Obligations.TenantRows : Prop :=
  ∀ (s : State),
    (∀ i r, (s.inst i).reset = some r → (s.ctrl i).resetting = false →
      ((s.inst i).state = .resetting → Runs (.instResetDrained i) s fun t => ∃ u : State,
        t = (((u.account 3 i 0xFF (2 ^ 64 - 1) (u.inst i).counts (zeros 32)).unsync i).finish r.waiter 0 0 []).refreshRails ∧
        (u.inst i).state = .active ∧ (u.inst i).reset = none ∧ (u.inst i).gen = (s.inst i).gen ∧
        ∀ p ∈ s.parcelsOf i, ∀ f ∈ (s.parcel p).facets, (u.facet f).state = .empty) ∧
      ((s.inst i).state = .removing → s.mapHolds i = true → Runs (.instResetDrained i) s fun t => t = s) ∧
      ((s.inst i).state = .removing → s.mapHolds i = false → Runs (.instResetDrained i) s fun t => ∃ u : State,
        t = ((u.unsync i).finish r.waiter 0 0 []).refreshRails ∧ (u.inst i).state = .free ∧ (u.inst i).reset = none ∧
        (u.inst i).mapLen = 0 ∧ (u.inst i).counts = [] ∧ (u.inst i).shares = Shares.zero)) ∧
    (∀ i die r, (s.inst i).reset = some r → Runs (.instResetTimeout i die) s fun t => ∃ u x : State,
      t = u.finish r.waiter 0x100C 0 [] ∧ x = { s with now := max s.now (r.began + 10_000_000) } ∧
      u = (x.faultDie 0x0002 die).modInst i fun y => { y with reset := none }) ∧
    (∀ i m ms, (s.inst i).mapWork = m :: ms →
      (m.olds.any s.drainHbm.granBusy = true → Runs (.mapSetDrained i) s fun t => t = s.drainHbm) ∧
      (m.olds.any s.drainHbm.granBusy = false → m.count ≤ m.done → Runs (.mapSetDrained i) s fun t => ∃ u : State,
        t = u.finish m.waiter 0 0 [] ∧ u.inst i = { s.inst i with mapWork := ms } ∧ u.facets = s.facets ∧
        (s.copying = false → ∀ g ∈ m.zero, g * granule < hbmSize → s.drainHbm.granMapped g = false →
          ∀ a, g * granule ≤ a → a < (g + 1) * granule → Memory.get u.mem a = 0) ∧
        ∀ a, (∀ g ∈ m.zero, ¬(g * granule ≤ a ∧ a < (g + 1) * granule)) → Memory.get u.mem a = Memory.get s.drainHbm.mem a)) ∧
    Runs .energyInterval s (fun t => t.now = max s.now (s.acct.lastInterval + 100000) ∧ t.acct.lastInterval = t.now ∧ SameMem s t ∧
      (∀ f < 6, (t.rail f).interval = 0) ∧
      (∀ p, (s.parcel p).valid = true → (s.parcels.map (·.1)).Nodup → ∃ uj : Nat, (t.parcel p).charges = (uj :: (s.parcel p).charges).take 16 ∧
        let settled : Int := if (s.parcel p).budget = 0 then (s.parcel p).credit
          else min ((s.parcel p).credit + ((s.parcel p).budget / 10 : Nat)) (((s.parcel p).budget * (s.parcel p).burst : Nat) : Int) - uj
        ((s.parcel p).budgetNext = none → (t.parcel p).credit = settled ∧ (t.parcel p).budget = (s.parcel p).budget ∧
          (t.parcel p).burst = (s.parcel p).burst) ∧
        ∀ b n, (s.parcel p).budgetNext = some (b, n) → (t.parcel p).credit = min settled ((b * n : Nat) : Int) ∧ (t.parcel p).budget = b ∧
          (t.parcel p).burst = n ∧ (t.parcel p).budgetNext = none) ∧
      ∀ i, (t.inst i).last = (t.inst i).counts ∧ (t.inst i).state = (s.inst i).state ∧ (t.inst i).gen = (s.inst i).gen) ∧
    (s.acct.ringLen = 0 → Runs .acctPeriod s fun t => t = s) ∧
    (s.acct.ringLen ≠ 0 → s.power.rung ≠ 2 → Runs .acctPeriod s fun t =>
      t.acct.lastPeriod = max s.now (s.acct.lastPeriod + 1000000 * s.acct.periodMs) ∧
      t.acct.seq = s.acct.seq + BitVec.ofNat 64 (s.insts.filter fun e => e.2.state = .active).length) ∧
    (∀ p < 64, Runs (.pclPacedRead p) s fun t => ∃ u : State, t = u.emit (.readback (BitVec.ofNat 64 (s.parcel p).paced)) ∧
      u.parcel p = { s.parcel p with paced := 0 } ∧ OnlyParcel s u p ∧ SameMem s u ∧ u.facets = s.facets) ∧
    Runs .pclAcctdropRead s fun t => ∃ u : State, t = u.emit (.readback (BitVec.ofNat 64 s.acct.dropped)) ∧
      u.acct = { s.acct with dropped := 0 } ∧ SameMem s u ∧ u.facets = s.facets

/-! ## Command packets and registers (spec/09, spec/01) -/

/-- R233 to R236: what a packet's SEQ does. An unsynced channel answers 0x0003, a number ahead 0x0004, a duplicate its retained
reply, 0x0009 or 0x000B, an old number 0x000A, and the seventeenth command in progress 0x0008; none of these executes anything.
A packet of another version answers
0x0002. SYS_SYNC sets E to SEQ + 1, clears what is retained and makes what is in progress stale; one that fails a check is
answered, or on channel 0, from another source than the channel's, discarded and counted (log entry 66).
R226, R237: a command that fails a check of R237 has no effect but its reply: its number is consumed, its status and detail
are those of the first check that fails, and no parameters follow. An opcode that no chapter defines answers 0x0005. -/
def Obligations.CommandSequence : Prop :=
  (∀ (s : State) (sp : Spec) (c : Cmd) (v : State) (x : Channel) (d : Nat), s.reaches sp.opcode c = true → v = s.wakeDeep → x = v.chan c.ch →
      d = (c.pkt.seq - x.e).toNat →
      (c.pkt.version ≠ 1 → x.state = .unsynced ∨ d ≠ 0 → s.command sp c = v.refuse1 c sp.opcode 2 0) ∧
      (c.pkt.version = 1 → (x.state = .unsynced → s.command sp c = v.refuse1 c sp.opcode 3 0) ∧
      (x.state = .synced → d = 0 → 16 ≤ x.inProg.length → s.command sp c = v.refuse1 c sp.opcode 8 x.inProg.length) ∧
      (x.state = .synced → 1 ≤ d → d ≤ 2 ^ 31 → s.command sp c = v.refuse1 c sp.opcode 4 x.e.toNat) ∧
      (∀ k, x.state = .synced → 2 ^ 32 - 16 ≤ d → (∀ e ∈ x.inProg, e.seq ≠ c.pkt.seq) → (x.kept.find? fun k => k.seq = c.pkt.seq) = some k →
        s.command sp c = if k.crc = c.pkt.crc then v.emitReply c.ch
            { dst := c.src, opcode := k.opcode, flags := fReply + fReplay, seq := k.seq, status := k.status, detail := k.detail, at_ := v.now,
              inst := k.inst, gen := k.gen, params := k.params }
          else v.refuse1 c sp.opcode 0x0B 0) ∧
      (∀ e, x.state = .synced → 2 ^ 32 - 16 ≤ d → (x.inProg.find? fun e => e.seq = c.pkt.seq && !e.stale) = some e →
        s.command sp c = if e.crc = c.pkt.crc then v.refuse1 c sp.opcode 9 0 true else v.refuse1 c sp.opcode 0x0B 0) ∧
      (x.state = .synced → 2 ^ 31 < d → d < 2 ^ 32 - 16 → s.command sp c = v.refuse1 c sp.opcode 0x0A x.e.toNat)) ∧
      (∀ e n, sp.opcode = 1 → v.checked syncSpec c (x.bound.getD 0) = some (e, n) →
        (c.ch = 0 → v.knownSource c = false → Runs (.sysSync c) s fun t => t = v.chanDiscard 0) ∧
        (c.ch ≠ 0 ∨ v.knownSource c = true → x.state ≠ .synced ∨ c.pkt.seq ≠ x.e → Runs (.sysSync c) s fun t => t = v.refuse1 c 1 e n)) ∧
      (sp.opcode = 1 → v.checked syncSpec c (x.bound.getD 0) = none → Runs (.sysSync c) s fun t => ∃ (u : State) (me : InProgress),
        t = u.sendResult c.ch me 0 0 (leBytes 4 (if x.state = .synced then x.e.toNat else 0) ++ leBytes 4 x.inProg.length ++ leBytes 2 c.ch ++
          leBytes 1 (x.bound.getD 0) ++ zeros 1 ++ leBytes 2 (v.genOf (x.bound.getD 0)).toNat ++ zeros 2) ∧
        me.seq = c.pkt.seq ∧ me.opcode = 1 ∧ me.stale = false ∧ (u.chan c.ch).state = .synced ∧ (u.chan c.ch).e = c.pkt.seq + 1 ∧
        (u.chan c.ch).kept = [] ∧ (c.ch = 0 → (u.chan 0).peer = some (sourceKey c.src)) ∧ (u.chan c.ch).inProg = x.inProg.map (fun e => { e with stale := true }) ∧
        (∀ k, k ≠ c.ch → u.chan k = v.chan k) ∧ SameMem v u ∧ u.facets = v.facets)) ∧
  ((∀ (s : State) (sp : Spec) (c : Cmd) (e d : Nat), s.meets sp c = true → s.verdict sp c = some (e, d) →
      s.command sp c = (s.entered sp c).finish (s.waiterOf c) e d []) ∧
    ∀ (s : State) (op : Nat) (c : Cmd), op ≠ 0 → op ≠ 1 → (∀ sp ∈ commandSpecs, sp.opcode ≠ op) → s.meets (unknownSpec op) c = true →
      c.pkt.version = 1 → Ends (.unknownOpcode op c) c s 5 fun u => u = s.entered (unknownSpec op) c)

/-- R239 to R247: the system commands. SYS_IDENTIFY and SYS_ECHO only answer; SYS_ABORT answers what became of its target;
register commands act one entry at a time; SYS_CHAN_SET answers before it changes its channel; SYS_RING_SET leaves the channel
unsynced with zeroed rings, or disabled; SYS_CHAN_STATUS reports. UPTIME before the end of boot is a free value (log entry 7). -/
def Obligations.SystemCommands : Prop :=
  ∀ (s : State) (c : Cmd),
    let ps := c.pkt.params
    let w := s.waiterOf c
    (∀ v, s.takes sysIdentifySpec c = true → v = s.entered sysIdentifySpec c → ∃ up : Nat,
      (v.boot.phase = .running → up = v.now - v.boot.endOfBoot) ∧
      Succeeds (.sysIdentify c) c s (padTo 16 orderName ++ ascii "B0" ++ zeros 2 ++ leBytes 4 v.boot.version.toNat ++ leBytes 4 v.boot.cnt0 ++
        leBytes 4 v.boot.epoch ++ leBytes 2 v.fabric.id ++ leBytes 2 railCeiling ++ zeros 4 ++ padTo 32 deviceKey ++ leBytes 8 up)
        fun u => u.chans = v.chans ∧ SameMem v u ∧ u.facets = v.facets ∧ u.now = v.now) ∧
    (∀ v, s.takes sysEchoSpec c = true → v = s.entered sysEchoSpec c → Succeeds (.sysEcho c) c s ps fun u => u = v) ∧
    (∀ v seq, s.takes sysAbortSpec c = true → v = s.entered sysAbortSpec c → seq = BitVec.ofNat 32 (fieldAt ps 0 4) →
      ((∀ e ∈ (v.chan c.ch).inProg, e.seq = seq → e.id = w.id) → Succeeds (.sysAbort c) c s
        (leBytes 8 (if seq = w.seq then 2 else if (v.chan c.ch).kept.any (fun k => k.seq = seq) then 1 else 3)) fun u => u = v) ∧
      (∀ e x, ((v.chan c.ch).inProg.find? fun e => e.seq = seq && decide (e.id ≠ w.id) && !e.stale) = some e →
        (v.gather.waits.find? fun g => g.waiter.ch = c.ch && g.waiter.id = e.id) = some x →
        Succeeds (.sysAbort c) c s (leBytes 8 0) fun u => u = { v with gather := { v.gather with waits := v.gather.waits.erase x } }.finish
          { ch := c.ch, id := e.id, seq } 0x0C 0 []) ∧
      (∀ e, ((v.chan c.ch).inProg.find? fun e => e.seq = seq && decide (e.id ≠ w.id) && !e.stale) = some e →
        v.stopTarget { ch := c.ch, id := e.id, seq } = none → Runs (.sysAbort c) s fun t =>
          t.chan c.ch = { v.chan c.ch with aborts := (v.chan c.ch).aborts ++ [(e.id, w.id)] } ∧ SameMem v t ∧ t.facets = v.facets)) ∧
    (∀ v n, s.takes sysRegReadSpec c = true → v = s.entered sysRegReadSpec c → n = fieldAt ps 0 2 → ∃ us : Nat → State, us 0 = v ∧
      (∀ k, k < n → us (k + 1) = ((us k).regRead (fieldAt ps (8 + 8 * k) 5)).2) ∧
      Succeeds (.sysRegRead c) c s ((List.range n).flatMap fun k => leBytes 8 ((us k).regRead (fieldAt ps (8 + 8 * k) 5)).1.toNat)
        fun u => u = us n) ∧
    (∀ v n, s.takes sysRegWriteSpec c = true → v = s.entered sysRegWriteSpec c → n = fieldAt ps 0 2 → ∃ us : Nat → State, us 0 = v ∧
      (∀ k, k < n → us (k + 1) = (us k).regWrite (fieldAt ps (8 + 16 * k) 5) (BitVec.ofNat 64 (fieldAt ps (16 + 16 * k) 8))) ∧
      Succeeds (.sysRegWrite c) c s [] fun u => u = us n) ∧
    (∀ v ch i on src, s.takes sysChanSetSpec c = true → v = s.entered sysChanSetSpec c → ch = fieldAt ps 0 2 → i = fieldAt ps 2 1 →
      on = bitAt (fieldAt ps 3 1) 0 → src = fieldAt ps 4 2 → (v.setChan ch i on src (fieldAt ps 6 2)).managed = true →
      (130 ≤ ch → ∀ k < 64, 130 + k ≠ ch → (v.chan (130 + k)).bound = none ∨ (v.chan (130 + k)).source ≠ src) →
      (3 ≤ ch → ch ≤ 65 → v.pcie.vfEnable = true ∧ ch - 2 ≤ v.pcie.numVfs) →
      Runs (.sysChanSet c) s fun t => (∀ k, k ≠ ch → t.chan k = (v.finish w 0 0 []).chan k) ∧ t.mem = (v.finish w 0 0 []).mem ∧
        (t.chan ch).bound = some i ∧ (t.chan ch).state = (if on then .unsynced else .disabled) ∧ (t.chan ch).rseq = 0 ∧
        (t.chan ch).kept = [] ∧ (t.chan ch).held = [] ∧ (t.chan ch).inProg = [] ∧ (t.chan ch).source = src ∧ (t.chan ch).udpPort = fieldAt ps 6 2) ∧
    (∀ v x, s.takes sysChanStatusSpec c = true → v = s.entered sysChanStatusSpec c → x = v.chan (fieldAt ps 0 2) →
      Succeeds (.sysChanStatus c) c s (leBytes 1 x.state.code ++ leBytes 1 (x.bound.getD 0xFF) ++ leBytes 1 x.inProg.length ++ zeros 1 ++
        leBytes 4 (if x.state = .synced then x.e.toNat else 0) ++ leBytes 4 x.rseq.toNat ++ leBytes 4 x.discards ++ leBytes 2 x.source ++
        leBytes 2 x.udpPort ++ zeros 4) fun u => u = v) ∧
    (∀ v i ch, s.takes sysRingSetSpec c = true → v = s.entered sysRingSetSpec c → i = fieldAt ps 0 1 → ch = 66 + i →
      (fieldAt ps 24 4 = 0 → Runs (.sysRingSet c) s fun t => t = (v.finish w 0 0 []).disableChan ch) ∧
      (∀ a b n s1 s2, a = fieldAt ps 8 8 → b = fieldAt ps 16 8 → n = fieldAt ps 24 4 → n ≠ 0 → a + 64 + n ≤ b ∨ b + 64 + n ≤ a →
        v.mapsRw i a (64 + n) = true → v.mapsRw i b (64 + n) = true → v.ringReset clsHost i a = (s1, true) →
        s1.ringReset clsHost i b = (s2, true) → Runs (.sysRingSet c) s fun t => ∃ u : State,
          t = (u.finish w 0 0 []).modChan ch (fun c => { c with kept := [] }) ∧ (∀ k, k ≠ ch → u.chan k = s2.chan k) ∧ SameMem s2 u ∧
          (u.chan ch).bound = some i ∧ (u.chan ch).state = .unsynced ∧ (u.chan ch).rseq = 0 ∧ (u.chan ch).cmdRing = a ∧
          (u.chan ch).repRing = b ∧ (u.chan ch).ringLen = n ∧ (u.chan ch).pollUs = fieldAt ps 28 2 ∧ (u.chan ch).cons = 0 ∧
          (u.chan ch).prod = 0))

/-- R231, R237, R238: the rows of the transports. Bytes that are no packet are discarded and counted; a poll of an on-device
ring takes one packet and advances CONS, returns it to 0 at a pad record, or puts the channel in Error; a mailbox is polled
alike, the host's bytes coming from outside; a command past its bound is answered with 0x000D, or 0x100C. -/
def Obligations.TransportRows : Prop :=
  ∀ (s : State),
    (∀ ch src raw, s.power.rung < 3 → s.serves ch 0 = true → raw.length < 32 ∨ 1056 < raw.length →
      Runs (.commandPacketDiscard ch src raw) s fun t =>
        t.chan ch = { s.chan ch with discards := min 0xFFFFFFFF ((s.chan ch).discards + 1) } ∧ (∀ k, k ≠ ch → t.chan k = s.chan k) ∧
        SameMem s t ∧ t.facets = s.facets ∧ t.emitted = s.emitted) ∧
    (∀ ch src raw op p, s.power.rung < 3 → s.serves ch op = true → s.serves ch 0 = true → parsePacket raw = some (op, p) → p.framed op = false →
      (commandSpecs.find? (fun sp => sp.opcode = op)).isSome = true → s.boot.resetDue = false →
      Runs (.commandPacketDiscard ch src raw) s fun t =>
        t.chan ch = { s.chan ch with discards := min 0xFFFFFFFF ((s.chan ch).discards + 1) } ∧ (∀ k, k ≠ ch → t.chan k = s.chan k) ∧
        SameMem s t ∧ t.facets = s.facets ∧ t.emitted = s.emitted) ∧
    (s.power.rung < 4 → s.serves 1 0 = true → Runs .mctpReassemblyTimeout s fun t =>
      t.chan 1 = { s.chan 1 with discards := min 0xFFFFFFFF ((s.chan 1).discards + 1) } ∧ (∀ k, k ≠ 1 → t.chan k = s.chan k) ∧
      SameMem s t ∧ t.facets = s.facets) ∧
    (∀ i ch x s1 p s2 q h w k, i < 64 → ch = 66 + i → x = s.chan ch → s.serves ch 0 = true → x.ringLen ≠ 0 → s.power.rung < 2 →
      s.readBy clsHost i x.cmdRing 8 = (s1, .ok p) → s1.readBy clsHost i (x.repRing + 8) 8 = (s2, .ok q) →
      w = (s2.modChan ch fun c => { c with repCons := leNat q }).flushReplies ch → k = w.chan ch →
      (ringBad (leNat p) x.ringLen = true ∨ ringBad (leNat q) x.ringLen = true →
        Runs (.commandRingPoll ch h) s fun t => t = s2.chanError ch) ∧
      (ringBad (leNat p) x.ringLen = false → ringBad (leNat q) x.ringLen = false →
        (k.state = .error ∨ 16 ≤ k.inProg.length ∨ leNat p = k.cons ∨
            ringRoom k.prod (leNat q) x.ringLen ≤ 1088 * (k.inProg.length + k.held.length + 1) →
          Runs (.commandRingPoll ch h) s fun t => t = w) ∧
        (∀ s3 hdr s4 bs s5 n, k.state ≠ .error → leNat p ≠ k.cons → k.inProg.length < 16 →
          1088 * (k.inProg.length + k.held.length + 1) < ringRoom k.prod (leNat q) x.ringLen →
          w.readBy clsHost i (x.cmdRing + 64 + k.cons) 64 = (s3, .ok hdr) → fieldAt hdr 0 2 ≠ 0 → n = recordSize hdr → k.cons + n ≤ x.ringLen →
          s3.readBy clsHost i (x.cmdRing + 64 + k.cons) n = (s4, .ok bs) →
          s4.writeBy clsHost i (x.cmdRing + 8) (leBytes 8 ((k.cons + n) % x.ringLen)) = (s5, .ok ()) →
          Runs (.commandRingPoll ch h) s fun t => ∃ u : State, t = u.arrive ch 0 (bs.take (32 + min 1024 (fieldAt hdr 8 4))) ∧
            u = s5.modChan ch fun c => { c with cons := (k.cons + n) % x.ringLen }))) ∧
    (∀ fn h w, fn < 64 → s.serves (fn + 2) 0 = true → ringLenOk (s.fn fn).mbLen = true → (s.fn fn).d3 = false →
      (s.fn fn).flr = false → s.power.rung < 3 → s.masterReason fn = none →
      w = (s.modChan (fn + 2) fun c => { c with repCons := h.repCons }).flushReplies (fn + 2) →
      (h.ok = false → Runs (.commandRingPoll (fn + 2) h) s fun t => t = s.chanError (fn + 2)) ∧
      (h.ok = true → h.prod = (w.chan (fn + 2)).cons → ringBad h.prod (s.fn fn).mbLen = false → ringBad h.repCons (s.fn fn).mbLen = false →
        Runs (.commandRingPoll (fn + 2) h) s fun t => t = w)) ∧
    (∀ ch seq e, ((s.chan ch).inProg.find? fun e => e.seq = seq && !e.stale) = some e →
      (∀ d, (s.storage.deletes.find? fun d => d.2.1.ch = ch && d.2.1.id = e.id) = some d →
        Runs (.replyBoundExpire ch seq) s fun t => t = s.endNsDelete d.1 false) ∧
      ((s.storage.deletes.find? fun d => d.2.1.ch = ch && d.2.1.id = e.id) = none → Runs (.replyBoundExpire ch seq) s fun t =>
        ∃ u w : _, u = s.recordFault 0x0001 .command e.opcode ∧ w = ({ ch, id := e.id, seq } : Waiter) ∧
        (e.opcode = 0x1002 ∨ e.opcode = 0x1003 → t = u.finish w 0x100C 0 []) ∧
        (e.opcode ≠ 0x1002 → e.opcode ≠ 0x1003 →
          (∀ g, (u.gather.waits.find? fun g => g.waiter.ch = ch && g.waiter.id = e.id) = some g →
            t = { u with gather := { u.gather with waits := u.gather.waits.erase g } }.finish w 0x3004 0 []) ∧
          ((u.gather.waits.find? fun g => g.waiter.ch = ch && g.waiter.id = e.id) = none → t = u.finish w 0x0D 0x0001 []))))

/-- R8, R28, R29, R113, R492: a write of control space reaches the register at its address, whatever row names it; a write
that meets no register changes nothing and leaves the event of R464. A write keeps the fields it cannot change: MEM_SCRUB,
ZLK_RTO, LOG_MARK and NVC_DRVTO take a value in range and keep the old one otherwise. -/
def Obligations.RegisterWrites : Prop :=
  ∀ (s : State) (a : Nat) (v : BitVec 64),
    (s.regAt a = none → Runs (.registerWrite a v) s fun t => t = s.raise (blockHolding a) 0x0001 none a v.toNat) ∧
    (a % 8 ≠ 0 → Runs (.registerWrite a v) s fun t => t = s.raise (blockHolding a) 0x0001 none a v.toNat) ∧
    (∀ f, f < nFacets → a = baseTBL + 0x1_0000 * f → exec (.registerWrite a v) s = exec (.tblBankpwrWrite f v) s) ∧
    (∀ f, f < nFacets → a = baseFCT + 0x10_0000 * f + 0x30 → exec (.registerWrite a v) s = exec (.fctFpflagsWrite f v) s) ∧
    (∀ k, k < 8 → (s.rail 6).set ≠ 0 → a = baseMEM + 0x1000_0000 * k + 0x18 → Runs (.registerWrite a v) s fun t =>
      (t.memDie k).scrub = (if bitsOf v.toNat 7 0 ≤ 168 then bitsOf v.toNat 7 0 else (s.memDie k).scrub) ∧ SameMem s t ∧ t.facets = s.facets) ∧
    ((s.rail 6).set ≠ 0 → a = baseZLK + 0x18 → Runs (.registerWrite a v) s fun t =>
      t = { s with fabric := { s.fabric with
        rto := if 1 ≤ bitsOf v.toNat 23 0 ∧ bitsOf v.toNat 23 0 ≤ 100000 then bitsOf v.toNat 23 0 else s.fabric.rto } }) ∧
    (a = baseLOG + 0x10 → Runs (.registerWrite a v) s fun t =>
      t = { s with loupe := { s.loupe with
        markMs := if 100 ≤ bitsOf v.toNat 15 0 ∧ bitsOf v.toNat 15 0 ≤ 60000 then bitsOf v.toNat 15 0 else s.loupe.markMs } }) ∧
    ((s.rail 6).set ≠ 0 → a = baseNVC + 0x2_0000 → Runs (.registerWrite a v) s fun t =>
      t = { s with storage := { s.storage with
        drvto := if 100 ≤ bitsOf v.toNat 19 0 ∧ bitsOf v.toNat 19 0 ≤ 600000 then bitsOf v.toNat 19 0 else s.storage.drvto } })

/-! ## The fabric (spec/10) -/

/-- R256, R260: the candidate is the device itself or an eligible reported one, and none of them comes before it; the identifiers
of a view are all different, every device of the view has one, and a device keeps the identifier it has, the lowest key where two have the same. -/
def Obligations.FabricElection : Prop :=
  (∀ s : State, (s.candidate = s.ownCandidate ∨ ∃ a ∈ s.fabric.adjs, s.mayLead a = true ∧
      s.candidate = { prio := a.cprio, key := a.ckey, dist := a.cdist + 1, link := some a.link }) ∧
    s.ownCandidate.before s.candidate = false ∧
    ∀ a ∈ s.fabric.adjs, s.mayLead a = true →
      Candidate.before { prio := a.cprio, key := a.ckey, dist := a.cdist + 1, link := some a.link } s.candidate = false) ∧
  ∀ (view : List FmDevice) (old : List (BitVec 64 × Nat)),
    ((assignIds view old).map (·.2)).Nodup ∧ (∀ d ∈ view, ∃ n, (d.key, n) ∈ assignIds view old) ∧
    ∀ l d m n, view = l ++ d :: m → heldId old d = some n → (∀ e ∈ l, heldId old e ≠ some n) → (d.key, n) ∈ assignIds view old

/-- R255 to R260: the discovery rows. A HELLO carries the device's key and candidate; one received counts towards its adjacency,
or makes a looped link unusable; three silent ms end an adjacency; an LSA goes to the candidate with the arrival link added to
its path; ROUTES go back along that path, and an epoch's entries wait until all are there, and only a frame without entries is a heartbeat; a lost heartbeat excludes the
candidate until the exclusion ends. -/
def Obligations.FabricDiscovery : Prop :=
  ∀ (s : State) (link : Nat) (z : ZFrame),
    let v := s.countRx link z.wire
    let b := z.payload
    (s.zarenLink link = true → subExists (s.port (portOf link)).split (link % 4) = true →
      Runs (.helloSend link) s fun t => ∃ h : ZFrame, t = s.sendOn link h ∧ h.typ = 0xA ∧ h.dst = 0xFFFF ∧ h.payload.length = 32 ∧
        fieldAt h.payload 0 8 = key64.toNat ∧ fieldAt h.payload 8 2 = s.fabric.id % 2 ^ 16 ∧ fieldAt h.payload 10 1 = link ∧
        fieldAt h.payload 11 1 = s.fabric.priority % 256 ∧ fieldAt h.payload 16 8 = s.candidate.key.toNat ∧
        fieldAt h.payload 24 4 = Tbl.getD s.fabric.delay link 0 % 2 ^ 32 ∧ t.fabric = s.fabric ∧ SameMem s t ∧ t.facets = s.facets) ∧
    (s.special link z 0xA 0xFFFF = true → fieldAt b 0 8 = key64.toNat → Runs (.helloReceive link z) s fun t => ∃ u : State,
      t = u.reElect ∧ link ∈ u.fabric.unusable ∧ (∀ a ∈ u.fabric.adjs, a.link ≠ link) ∧ SameMem s u ∧ u.facets = s.facets) ∧
    (∀ key old, s.special link z 0xA 0xFFFF = true → key = BitVec.ofNat 64 (fieldAt b 0 8) → key ≠ key64 →
      (s.fabric.adjs.find? fun a => a.link = link && a.key = key) = old → old.isSome = true ∨ (s.fabric.adjs.filter fun a => a.link = link).length < 32 →
      Runs (.helloReceive link z) s fun t => ∃ (u : State) (a : Adjacency), t = u.reElect ∧ u.facets = s.facets ∧ SameMem s u ∧
        u.fabric.adjs = (s.fabric.adjs.filter fun q => !(q.link = link && q.key = key)) ++ [a] ∧ a.link = link ∧ a.key = key ∧ a.heard = s.now ∧
        a.id = fieldAt b 8 2 ∧ a.rlink = fieldAt b 10 1 ∧ a.ckey = BitVec.ofNat 64 (fieldAt b 16 8) ∧ a.cdist = fieldAt b 13 1 ∧
        a.hellos = (match old with | some o => min 3 (o.hellos + 1) | none => 1) ∧
        a.up = (decide (3 ≤ a.hellos) || match old with | some o => o.up | none => false)) ∧
    (∀ key a, (s.fabric.adjs.find? fun a => a.link = link && a.key = key) = some a → Runs (.adjacencyDown link key) s fun t => ∃ u : State,
      t = u.reElect ∧ u.now = max s.now (a.heard + 3000000) ∧ u.facets = s.facets ∧ SameMem s u ∧
      u.fabric.adjs = s.fabric.adjs.filter fun q => !(q.link = link && q.key = key)) ∧
    (Runs .lsaSend s fun t => ∃ u : State, u.fabric = { s.fabric with lsaDue := false } ∧ u.traffic = s.traffic ∧ u.facets = s.facets ∧ SameMem s u ∧
      t = match u.candidate.link with | none => u.fmUpdate | some l => u.sendOn l u.ownLsa) ∧
    (∀ l, s.special link z 0xB 0xFFFD = true → fieldAt b 14 1 < 64 → v.candidate.link = some l → Runs (.lsaReceive link z) s fun t =>
      ∃ y : ZFrame, t = v.sendOn l y ∧ y = { z with payload := y.payload } ∧ y.payload.length = b.length ∧
        fieldAt y.payload 14 1 = fieldAt b 14 1 + 1 ∧ fieldAt y.payload (16 + fieldAt b 14 1) 1 = link ∧
        (∀ j, j < fieldAt b 14 1 → fieldAt y.payload (16 + j) 1 = fieldAt b (16 + j) 1) ∧ y.payload.drop 80 = b.drop 80) ∧
    (s.special link z 0xB 0xFFFD = true → fieldAt b 14 1 < 64 → v.candidate.link = none → Runs (.lsaReceive link z) s fun t =>
      t = v.fmUpdate (some (lsaDevice b (lsaPath b link)))) ∧
    (s.special link z 0xC 0xFFFC = true → 0 < fieldAt b 24 1 → fieldAt b (31 + fieldAt b 24 1) 1 < 64 → Runs (.routesReceive link z) s fun t =>
      t = v.sendOn (fieldAt b (31 + fieldAt b 24 1) 1) { z with payload := b.take 24 ++ leBytes 1 (fieldAt b 24 1 - 1) ++ b.drop 25 }) ∧
    (s.special link z 0xC 0xFFFC = true → fieldAt b 24 1 = 0 → fieldAt b 0 8 = key64.toNat →
      (fieldAt b 22 2 = 0 ∨ fieldAt b 18 2 = s.fabric.epoch → Runs (.routesReceive link z) s fun t => t = { v with fabric := { v.fabric with
        heartbeat := if fieldAt b 8 8 = s.fabric.candKey.toNat ∧ fieldAt b 22 2 = 0 then s.now else s.fabric.heartbeat, fmId := z.src } }) ∧
      (fieldAt b 22 2 ≠ 0 → fieldAt b 18 2 ≠ s.fabric.epoch → Runs (.routesReceive link z) s fun t =>
        (t.fabric.collect.length ≠ 0 → t.fabric.routes = s.fabric.routes ∧ t.fabric.epoch = s.fabric.epoch ∧ t.fabric.id = s.fabric.id ∧
          ∀ j, j < fieldAt b 22 2 → fieldAt b 20 2 + j < 0x4000 →
            t.fabric.collect.find (fieldAt b 20 2 + j) = some (BitVec.ofNat 64 (fieldAt b (96 + 8 * j) 8))) ∧
        (t.fabric.epoch ≠ s.fabric.epoch → t.fabric.epoch = fieldAt b 18 2 ∧ t.fabric.id = fieldAt b 16 2))) ∧
    (s.isFm = true → Runs .heartbeatSend s fun t =>
      t = (s.fabric.fmView.filter fun d => d.key ≠ key64).foldl (fun s d => s.sendRoutes d 0 0) s ∧ t.fabric = s.fabric ∧ SameMem s t) ∧
    (∀ key d, s.isFm = true → key ≠ key64 → (s.fabric.fmView.find? fun d => d.key = key) = some d → d.epoch ≠ s.fabric.fmEpoch →
      Runs (.routesResend key) s fun t => t.fabric = s.fabric ∧ SameMem s t ∧ t.facets = s.facets ∧
        t = (List.range 33).foldl (fun s j => s.sendRoutes d (500 * j) (if j = 32 then 384 else 500)) s) ∧
    (s.isFm = false → Runs .heartbeatLoss s fun t => ∃ u : State, t = u.reElect ∧ u.now = max s.now (s.fabric.heartbeat + 50000000) ∧
      u.fabric.excluded = s.fabric.excluded ++ [(s.fabric.candKey, u.now + 100000000)] ∧ u.facets = s.facets ∧ SameMem s u) ∧
    (∀ key e, (s.fabric.excluded.find? fun e => e.1 = key) = some e → Runs (.candidateExclusionEnd key) s fun t => ∃ u : State,
      t = u.reElect ∧ u.now = max s.now e.2 ∧ (∀ q ∈ u.fabric.excluded, q.1 ≠ key) ∧ u.facets = s.facets ∧ SameMem s u)

/-- R262 to R270: transfers between devices and the frames of flows. A WRITE lands through the instance map and is noted; a READ is
answered with DATA in order; DATA, DONE and FAIL reach the asking facet as flits with the transfer's tag; a complete transfer
is answered with DONE after its signal, or FAIL; a frame for another device goes on with one hop less, across the table to another die; a RESYNC request
restarts its flow. -/
def Obligations.FabricTransfers : Prop :=
  ∀ (s : State) (link : Nat) (z : ZFrame) (s1 : State) (b : Binding),
    let entersAt := fun (die : Nat) (h : Hop) => h.place = .buf h.flit.sx h.flit.sy (sidePort (dieRun die).1) ∧ h.since = s1.now
    (JobFrame s link z 1 s1 b → ∀ rs s2, s1.rangesOf z.inst z.addr z.payload.length true = .ok rs →
      s1.saveAll (some (z.inst, b.gen)) rs z.payload = .ok s2 → Runs (.zarenWriteReceive link z) s fun t => SameMem s2 t ∧ t.facets = s2.facets ∧
        ∃ x ∈ t.fabric.peersIn, x.is z = true ∧ (z.last = true → x.last = true) ∧
          (z.sig = true → x.signal = some (z.rsx, z.rsy, z.tokc, z.tokn)) ∧
          ((∀ y ∈ s1.fabric.peersIn, y.is z = false) → x.err = none)) ∧
    (JobFrame s link z 2 s1 b → ∀ rs bs n, n = fieldAt z.payload 4 4 →
      s1.rangesOf z.inst z.addr n false = .ok rs → s1.loadAll (some (z.inst, b.gen)) rs = .ok bs → Runs (.zarenReadReceive link z) s fun t =>
        ∃ u : State, t = u.dataFrames z (n / 4096 + 1) (fieldAt z.payload 0 4) bs ∧ SameMem s1 u ∧ u.fabric = s1.fabric ∧ SameMem s1 t) ∧
    (JobFrame s link z 3 s1 b → Runs (.zarenDataReceive link z) s fun t => ∃ hs : List Hop,
      t = { s1 with mesh := { s1.mesh with transit := s1.mesh.transit ++ hs } } ∧ hs.length = (z.payload.length + 127) / 128 ∧
      ∀ j h, hs[j]? = some h → entersAt (8 + dieOfLink link) h ∧ h.flit.typ = 2 ∧ h.flit.tag = z.tag ∧
        facetAt h.flit.dx h.flit.dy = facetAt z.sfx z.sfy ∧ h.flit.payload = slice z.payload (128 * j) 128 ∧
        h.flit.addr = spadAddr (facetAt z.sfx z.sfy) (z.addr + 128 * j) ∧ h.flit.inst = z.inst ∧ h.flit.gen = b.gen ∧
        h.flit.last = (z.last && decide (j + 1 = hs.length))) ∧
    (JobFrame s link z 4 s1 b → Runs (.zarenTokenReceive link z) s fun t => SameMem s1 t ∧ t.facets = s1.facets ∧
      ∃ x ∈ t.fabric.peersIn, x.is z = true ∧ x.last = true ∧ (z.sig = true → x.signal = some (z.rsx, z.rsy, z.tokc, z.tokn))) ∧
    (JobFrame s link z 5 s1 b → Runs (.zarenDoneReceive link z) s fun t => ∃ h : Hop,
      t = { s1 with mesh := { s1.mesh with transit := s1.mesh.transit ++ [h] } } ∧ entersAt (8 + dieOfLink link) h ∧ h.flit.typ = 4 ∧
      h.flit.tag = z.tag ∧ h.flit.last = true ∧ facetAt h.flit.dx h.flit.dy = facetAt z.sfx z.sfy ∧ h.flit.inst = z.inst ∧ h.flit.gen = b.gen) ∧
    (JobFrame s link z 6 s1 b → Runs (.zarenFailReceive link z) s fun t =>
      t = s1.nackFacet link (facetAt z.sfx z.sfy) z.tag z.inst b.gen (fieldAt z.payload 0 2)) ∧
    (∀ src tag x k, (s.fabric.peersIn.find? fun t => t.src = src && t.tag = tag && t.last && !t.lost) = some x →
      (s.fabric.bindings.find? fun b => b.inst = x.inst && b.job = x.job) = some k → Runs (.peerTransferDone src tag) s fun t =>
        ∃ (u : State) (y : ZFrame), u.fabric.bindings = s.fabric.bindings ∧ x ∉ u.fabric.peersIn ∧ SameMem s u ∧ y.src = src ∧ y.tag = tag ∧
          y.job = x.job ∧ y.inst = x.inst ∧ y.sfx = x.sfx ∧ y.sfy = x.sfy ∧
          (∀ e, x.err = some e → t = u.failPeer y e ∧ u.facets = s.facets) ∧
          (x.err = none → x.signal = none → t = u.endPeer y 5 [] ∧ u.facets = s.facets) ∧
          (∀ rx ry c n f, x.err = none → x.signal = some (rx, ry, c, n) → f = (s.parcel k.parcel).facetOf rx ry →
            (4 * (s.parcel k.parcel).gw ≤ rx ∨ 4 * (s.parcel k.parcel).gh ≤ ry → t = u.failPeer y 0x0024 ∧ u.facets = s.facets) ∧
            (rx < 4 * (s.parcel k.parcel).gw → ry < 4 * (s.parcel k.parcel).gh → (s.facet f).accepts x.inst k.gen = true →
              (s.facet f).tok c + n ≤ 65535 → 0 < n → t = u.endPeer y 5 [] ∧ OnlyFacet s u f ∧
              u.facet f = { s.facet f with toks := (s.facet f).toks.put c ((s.facet f).tok c + n) }))) ∧
    (∀ v, z.typ = 7 → link < 64 → (s.link link).state = .up → s.fabricLink link = true → s.power.rung < 3 → z.malformed = false →
      v = s.wakeDeep → z.dst = v.fabric.id → z.avalid = true → Runs (.packReceive link z) s fun t =>
        t = (v.countRx link z.wire).ackFlow z.src (6 + z.aclass) z.apsn ∧
        ((v.flow (flowKey z.src (6 + z.aclass))).waiting = [] →
          ∀ u ∈ (t.flow (flowKey z.src (6 + z.aclass))).unacked, psnLe u.frame.psn z.apsn = false)) ∧
    (∀ ch s0, s.fabricChan z.src = some ch → z.typ = 9 → s.zIngress link z = (s0, true) → Runs (.cmdFrameReceive link z) s fun t =>
      t = s0.arrive ch z.src z.payload) ∧
    (∀ s0, z.typ = 0xD → s.zIngress link z = (s0, true) → Runs (.encapReceive link z) s fun t =>
      t = (if s0.power.exiting then s0 else s0.releaseFrames).frameIn link true s0.gptp z.payload) ∧
    (∀ s0 cls, z.typ = 0xE → s.zIngress link z = (s0, true) → cls = fieldAt z.payload 0 1 →
      (fieldAt z.payload 1 1 = 0 → Runs (.resyncReceive link z) s fun t => ∃ u : State, t = u.sendResync z.src cls 1 ∧
        u = ((s0.failTransfers z.src).failJobs z.src).restartFlow z.src cls true ∧ (u.flow (flowKey z.src cls)).txNext = 0 ∧
        (u.flow (flowKey z.src cls)).rxNext = 0 ∧ (u.flow (flowKey z.src cls)).unacked = [] ∧ (u.flow (flowKey z.src cls)).failed = false) ∧
      (fieldAt z.payload 1 1 = 1 → (s0.flow (flowKey z.src cls)).failed = true → Runs (.resyncReceive link z) s fun t =>
        t = s0.restartFlow z.src cls false ∧ (t.flow (flowKey z.src cls)).failed = false)) ∧
    (∀ v, s.zarenLink link = true → s.power.rung < 3 → z.malformed = false → z.dst ≠ s.fabric.id → z.dst < 0x4000 →
      v = (if z.typ ≤ 9 ∨ z.typ = 0xD then (s.countRx link z.wire).wakeDeep else s.countRx link z.wire) →
      (z.hops ≤ 1 ∨ v.wayTo z.src z.dst = none → Runs (.zarenForward link z) s fun t => t = v.zDiscard 1) ∧
      (∀ l, 1 < z.hops → v.wayTo z.src z.dst = some l → Runs (.zarenForward link z) s fun t =>
        t = if dieOfLink l = dieOfLink link then v.egressDrop l z.pcp none z.ctl (.zaren { z with hops := z.hops - 1 }) z.wire
          else v.crossOut (8 + dieOfLink link) (8 + dieOfLink l) { z with hops := z.hops - 1 }))

/-- R264 to R266, R271 to R276, R279, R281: timers of flows, gPTP, gates, and the fabric's commands and registers. -/
def Obligations.FabricTimeAndGates : Prop :=
  ∀ (s : State) (link port : Nat) (dev cls : Nat) (c : Cmd),
    let ps := c.pkt.params
    let k := flowKey dev cls
    let g := s.gatesOf port
    (∀ u x, ((s.flow k).unacked.find? fun u => !s.zQueued u.frame) = some u → x = s.reach (u.sent + 1000 * s.fabric.rto) →
      (8 ≤ u.count → Runs (.zlkRtoExpire dev cls) s fun t => t = x.failFlow dev cls) ∧
      (u.count < 8 → Runs (.zlkRtoExpire dev cls) s fun t => t = x.resend k fun v => decide (v.sent + 1000 * s.fabric.rto ≤ x.now))) ∧
    (∀ a, (s.flow k).rxSince = some a → Runs (.zarenAckTimer dev cls) s fun t => t = (s.reach (a + 2000)).sendPack dev cls ∧
      (t.flow k).rxSince = none ∧ (t.flow k).rxDue = 0 ∧ (t.flow k).rxNext = (s.flow k).rxNext) ∧
    ((s.flow k).failed = true → Runs (.resyncSend dev cls) s fun t =>
      t = (s.reach ((s.flow k).resync + 1000 * s.fabric.rto)).sendResync dev cls 0) ∧
    (∀ m v, link < 64 → s.fabricLink link = true → (s.link link).state = .up → v = (msgFrames m).foldl (fun s n => s.countRx link n) s →
      (∀ o, m = .sync o → s.master.2 = some link → Runs (.gptpMessageReceive link m) s fun t =>
        t.fabric.offset = s.fabric.offset - o ∧ t.fabric.lastOff = o ∧ t.fabric.lastSync = s.now ∧
        (o.natAbs ≤ 100 → t.fabric.goodSync = min 8 (s.fabric.goodSync + 1) ∧
          t.fabric.lock = (if 7 ≤ s.fabric.goodSync ∧ s.fabric.lock = 0 then 1 else s.fabric.lock)) ∧
        (100 < o.natAbs → t.fabric.goodSync = 0) ∧ (1000 < o.natAbs → t.fabric.lock = 0)) ∧
      (∀ o, m = .sync o → s.master.2 ≠ some link → Runs (.gptpMessageReceive link m) s fun t => t = v) ∧
      (∀ ns, m = .pdelay ns → Runs (.gptpMessageReceive link m) s fun t =>
        t = { v with fabric := { s.fabric with delay := s.fabric.delay.put link ns } }) ∧
      (∀ n src port, m = .pdelayReq n src port → Runs (.gptpMessageReceive link m) s fun t =>
        t = (v.queueGptp link (.pdelayResp n src port s.now)).queueGptp link (.pdelayFollow n src port)) ∧
      (∀ a, m = .announce a → annFits a = true → s.fabric.announces.find link = none ∨
          (∃ b, s.fabric.announces.find link = some b ∧ ((a.src = b.src ∧ a.port = b.port) ∨ lexLt (annRank a) (annRank b) = true)) →
        Runs (.gptpMessageReceive link m) s fun t => ∃ u : State, t = u.reMaster s.master ∧
          u = { v with fabric := { s.fabric with announces := s.fabric.announces.put link a } }) ∧
      (∀ a, m = .announce a → annFits a = false → Runs (.gptpMessageReceive link m) s fun t => t = v)) ∧
    (∀ o l, s.master.2 = some l → s.fabric.lock = 1 → Runs (.gptpLockLoss o) s fun t => t.fabric.lock = 0 ∧ t.fabric.goodSync = 0 ∧
      t.fabric.lastOff = o ∧ (o.natAbs ≤ 1000 → t.fabric.announces.find l = none)) ∧
    (∀ a, s.fabric.masterAt = some a → Runs .grandmasterLock s fun t => t.fabric = { s.fabric with lock := 2, lastOff := 0 } ∧
      t.now = max s.now (a + 1000000000) ∧ SameMem s t ∧ t.facets = s.facets) ∧
    (∀ n a y u w, link < 64 → s.fabricLink link = true → (s.link link).state = .up →
      n = Tbl.getD s.fabric.gptpSeq (4 * link + 2) 0 → u = ((s.nextGptp link 2).2).queueGptp link (.pdelayReq n) →
      a = Tbl.getD s.fabric.gptpSeq (4 * link + 1) 0 → w = ((u.nextGptp link 1).2).queueGptp link (.announce a (s.announceOn link)) →
      y = Tbl.getD s.fabric.gptpSeq (4 * link) 0 →
      (s.masterPort link = false → Runs (.gptpSyncSend link) s fun t => t = u) ∧
      (s.masterPort link = true → s.master.2.isSome = true → s.fabric.synced = false → Runs (.gptpSyncSend link) s fun t => t = w) ∧
      (s.masterPort link = true → s.master.2 = none ∨ s.fabric.synced = true → Runs (.gptpSyncSend link) s fun t =>
        t = (((w.nextGptp link 0).2).queueGptp link (.sync y)).queueGptp link (.followUp y))) ∧
    (link < 64 → (s.link link).state = .up → link ∉ s.fabric.preempt → Runs (.preemptionVerified link) s fun t =>
      t = { s with fabric := { s.fabric with preempt := link :: s.fabric.preempt } }) ∧
    (∀ e, g.inForce[g.idx]? = some e → Runs (.gateEntryAdvance port) s fun t =>
      t.gatesOf port = { g with idx := (g.idx + 1) % g.inForce.length, since := g.since + e.dur } ∧
      (∀ q, q ≠ port → t.gatesOf q = s.gatesOf q) ∧ s.now ≤ t.now ∧ SameMem s t ∧ t.facets = s.facets) ∧
    (∀ a, g.adminAt = some a → Runs (.adminGateStart port) s fun t => (∀ q, q ≠ port → t.gatesOf q = s.gatesOf q) ∧ SameMem s t ∧
      (t.gatesOf port).adminAt = none ∧ (t.gatesOf port).idx = 0 ∧ (t.gatesOf port).since = a ∧
      (∀ e, g.next = [e] → e.mask = 0xFF → (t.gatesOf port).adminOn = false ∧ (t.gatesOf port).admin = []) ∧
      (1 < g.next.length → (t.gatesOf port).adminOn = true ∧ (t.gatesOf port).admin = g.next)) ∧
    (∀ v es, s.takes fabGateSetSpec c = true → v = s.entered fabGateSetSpec c → es = gateEntries (ps.drop 16) → fieldAt ps 0 1 = port →
      v.fabric.lock ≠ 0 ∨ fieldAt ps 2 2 ≤ 1 → (v.gatesOf port).gated = false → (∀ e ∈ es, 200 ≤ e.dur) →
      port ∈ v.fabric.edge ∨ (∀ e ∈ es, e.mask.getLsbD 6 = true) →
      Succeeds (.fabGateSet c) c s [] fun u => ∃ a n, u.gatesOf port = { v.gatesOf port with next := es, adminAt := some a } ∧
        a = fieldAt ps 8 8 + n * max 1 (es.map (·.dur)).sum ∧ v.gptp + 10000 ≤ a ∧
        (∀ j, v.gptp + 10000 ≤ fieldAt ps 8 8 + j * max 1 (es.map (·.dur)).sum → n ≤ j) ∧
        (∀ q, q ≠ port → u.gatesOf q = v.gatesOf q) ∧ SameMem v u) ∧
    (∀ v b, s.takes fabJobGetSpec c = true → v = s.entered fabJobGetSpec c →
      (v.fabric.bindings.find? fun b => b.inst = fieldAt ps 0 1 && b.job = fieldAt ps 4 4) = some b →
      Succeeds (.fabJobGet c) c s (leBytes 2 b.rank ++ leBytes 2 b.ranktab.length ++ leBytes 4 (v.parcel b.parcel).run.b ++
        leBytes 4 (v.parcel b.parcel).run.goB ++ zeros 4) fun u => u = v) ∧
    (∀ v as_, s.takes fabNeighGetSpec c = true → v = s.entered fabNeighGetSpec c → as_ = v.fabric.upOn (fieldAt ps 0 1) →
      Succeeds (.fabNeighGet c) c s (leBytes 1 as_.length ++ zeros 7 ++ as_.flatMap fun a => leBytes 8 a.key.toNat ++ leBytes 2 a.id ++
        leBytes 1 a.rlink ++ zeros 1 ++ leBytes 4 a.delay) fun u => u = v) ∧
    (∀ v : BitVec 64, port < 16 → (s.rail 6).set ≠ 0 →
      (g.gated = true → Runs (.zlkPortWrite port v) s fun t => t = s.raise blkZLK 0x5001 none (baseZLK + 0x200 + 8 * port) v.toNat) ∧
      (g.gated = false → Runs (.zlkPortWrite port v) s fun t => (port ∈ t.fabric.edge ↔ v.getLsbD 0 = false) ∧
        (∀ q, q ≠ port → (q ∈ t.fabric.edge ↔ q ∈ s.fabric.edge)) ∧
        (v.getLsbD 0 = true ∨ port ∈ s.fabric.edge → SameMem s t ∧ t.facets = s.facets) ∧
        (v.getLsbD 0 = false → port ∉ s.fabric.edge → ∀ k, k < 4 → (∀ a ∈ t.fabric.adjs, a.link ≠ 4 * port + k) ∧
          t.fabric.announces.find (4 * port + k) = none))) ∧
    (∀ n, n < 4 → (s.rail 6).set ≠ 0 → Runs (.zlkDiscardRead n) s fun t => ∃ u : State,
      t = u.emit (.readback (BitVec.ofNat 64 (s.fabric.discards.getD n 0))) ∧ u.fabric.discards.getD n 0 = 0 ∧
      (∀ m, m ≠ n → u.fabric.discards.getD m 0 = s.fabric.discards.getD m 0) ∧ SameMem s u ∧ u.facets = s.facets)

/-! ## Ethernet ports, parsing and classification (spec/11) -/

/-- R293, R295: the rule that classifies a frame matches its key in its stage and die, no other such rule has a lower priority,
and of equal priorities it is the lowest slot; none is chosen only where none matches. -/
def Obligations.BestRuleWins : Prop :=
  ∀ (s : State) (die stage : Nat) (owner : Option Nat) (key : List Byte), (s.eth.rules.map (·.1)).Pairwise (· < ·) →
    let fits (e : Nat × Rule) : Prop := e.1 / 16384 = die ∧ e.2.stage = stage ∧ (∀ o, owner = some o → e.2.owner = o) ∧
      List.zipWith (fun (k m : Byte) => k &&& m) key e.2.mask = e.2.value
    (∀ e, s.bestRule die stage owner key = some e → e ∈ s.eth.rules ∧ fits e ∧
      ∀ x ∈ s.eth.rules, fits x → e.2.prio < x.2.prio ∨ (e.2.prio = x.2.prio ∧ e.1 ≤ x.1)) ∧
    (s.bestRule die stage owner key = none → ∀ x ∈ s.eth.rules, ¬fits x)

/-- R286, R287, R295, R299, R301, R302: a frame at a MAC. A bad or wrongly sized frame is counted and dropped; MAC control is
dropped at an edge-mode port; with no rule the port's default applies; a plain QUEUE rule writes the record that R301 lays out
and advances SEQ; a full, missing or stale queue drops the frame under its own count. -/
def Obligations.FrameRows : Prop :=
  ∀ (s : State) (link : Nat) (fr : EthFrame), link < 64 → (s.link link).state = .up → s.power.rung < 2 → s.power.exiting = false →
    s.power.entering = none → s.power.held = [] →
    let n := fr.bytes.length + 4
    let die := dieOfLink link
    (fr.fcsOk = false ∨ fr.phyOk = false → Runs (.frameReceive link fr) s fun t =>
      t.link link = { s.link link with cnt := (s.link link).cnt.bump 2 } ∧ t.traffic = s.traffic ∧ SameMem s t ∧ t.facets = s.facets) ∧
    (fr.fcsOk = true → fr.phyOk = true → n < 64 ∨ s.linkLimit link < n → Runs (.frameReceive link fr) s fun t =>
      t.link link = { s.link link with cnt := (s.link link).cnt.bump 3 } ∧ t.traffic = s.traffic ∧ SameMem s t ∧ t.facets = s.facets) ∧
    (fr.fcsOk = true → fr.phyOk = true → 64 ≤ n → n ≤ s.linkLimit link → s.fabricLink link = false →
      (wordAt fr.bytes 12 2 = 0x8808 → Runs (.frameReceive link fr) s fun t => t = (s.countRx link n).netDrop die 7) ∧
      (wordAt fr.bytes 12 2 ≠ 0x8808 → ∀ v p key port, v = s.countRx link n → port = s.port (portOf link) → p = v.parse link fr.bytes →
        key = keyOf fr.bytes p link port.l3sel false →
        (v.bestRule die 1 none key = none → port.roce = false ∨ byteAt key 2 / 32 ≠ 4 → port.dverdict = 0 → Runs (.frameReceive link fr) s fun t => t = v.netDrop die 0) ∧
        (∀ k r, v.bestRule die 1 none key = some (k, r) → actVerdict r.action = 1 → fieldAt r.action 1 1 = 0 → fieldAt r.action 8 1 = 0 →
          fieldAt r.action 16 1 = 0 → ∀ q o x, q = actTarget r.action % 4096 → v.eth.queues.find q = some x → o = x.inst →
          v.bestRule die 2 (some o) key = none →
          ∀ f : RxInfo, f = { link, flags := 0, rule1 := k, rule2 := 0xFFFFFFFF, kinds := slice key 1 3, time := fr.time } →
            (x.error = true → Runs (.frameReceive link fr) s fun t => t = v.netDrop die 3) ∧
            (x.error = false → v.isActive o = false ∨ v.genOf o ≠ x.gen → Runs (.frameReceive link fr) s fun t => t = v.netDrop die 4) ∧
            (x.error = false → v.isActive o = true → v.genOf o = x.gen → ∀ m seq, m = (32 + fr.bytes.length + 63) / 64 * 64 →
              seq = (if x.len < x.prod + m then x.seq + 1 else x.seq) →
              (∀ u prod, v.ringPut clsNet o x.ring x.len x.prod 64 (rxRecord f seq fr.bytes) (rxPad x.seq) = .ok u prod →
                Runs (.frameReceive link fr) s fun t => SameMem u t ∧
                  t.eth.queues.find q = some { x with prod := prod, seq := (seq + 1) % 2 ^ 64 } ∧
                  (∀ j, j ≠ q → t.eth.queues.find j = u.eth.queues.find j)) ∧
              (v.ringPut clsNet o x.ring x.len x.prod 64 (rxRecord f seq fr.bytes) (rxPad x.seq) = .full →
                Runs (.frameReceive link fr) s fun t => SameMem s t ∧ t.eth.drops = (v.netDrop die 2).eth.drops ∧
                  t.eth.queues.find q = some { x with drops := min 0xFFFFFFFF (x.drops + 1) }))))) ∧
    (∀ et src ip, s.eth.mgmtUp = true → s.pins.phyRst = false → ip = s.mgmtIp4 → allZero ip = false → src.length = 6 → et.length = 4 →
      Runs (.mgmtFrameReceive (mgmtMac ++ src ++ [8, 6, 0, 1, 8, 0, 6, 4, 0, 1] ++ src ++ et ++ zeros 6 ++ ip)) s fun t =>
        t = s.emit (.mgmt (padTo 60 (src ++ mgmtMac ++ [8, 6, 0, 1, 8, 0, 6, 4, 0, 2] ++ mgmtMac ++ ip ++ src ++ et)))) ∧
    (∀ to_ : List Byte, s.eth.mgmtUp = true → s.pins.phyRst = false → 14 ≤ to_.length → to_.take 6 ≠ mgmtMac → (to_.getD 0 0).getLsbD 0 = false →
      Runs (.mgmtFrameReceive to_) s fun t => t = s)

/-- R283, R284, R288, R293 to R303: links, the chapter's commands and its registers. -/
def Obligations.PortsAndRules : Prop :=
  ∀ (s : State) (c : Cmd) (link : Nat), link < 64 →
    let ps := c.pkt.params
    let x := s.link link
    (x.state ≠ .down → x.state ≠ .up →
      (x.state = .negotiating → Runs (.linkUp link) s fun t => t = s.modLink link fun y => { y with state := .training }) ∧
      (x.state = .training → Runs (.linkUp link) s fun t => t = s.modLink link fun y => { y with state := .fec }) ∧
      (x.state = .fec → Runs (.linkUp link) s fun t => t.link link = { x with state := .up, consec := 0, lfault := false, rfault := false } ∧
        (∀ l, l ≠ link → t.link l = s.link l) ∧ link ∉ t.fabric.unusable ∧ SameMem s t ∧ t.facets = s.facets) ∧
      (s.dieFailed (8 + dieOfLink link) = false → s.power.rung < 3 → s.pins.ethClk.getD (dieOfLink link) true = true → Runs (.linkRestart link) s fun t =>
        t.link link = { x with restarts := min 0xFFFFFFFF (x.restarts + 1), consec := x.consec + 1, started := max s.now (x.started + 1000000000)
                               state := (s.port (portOf link)).startState } ∧
        (∀ l, l ≠ link → t.link l = s.link l) ∧ SameMem s t ∧ t.facets = s.facets)) ∧
    (∀ lf rf, Runs (.linkFault link lf rf true) s fun t => (t.link link).lfault = lf ∧ (t.link link).rfault = rf ∧
      (∀ a ∈ t.fabric.adjs, a.link ≠ link) ∧ t.fabric.announces.find link = none ∧
      (t.traffic.tx.getD link LinkTx.initial).busy = none) ∧
    (x.state = .up → s.dieFailed (8 + dieOfLink link) = false → s.power.rung < 3 → s.pins.ethClk.getD (dieOfLink link) true = true →
      (Runs (.linkFault link true false false) s fun t => (t.link link).state = (s.port (portOf link)).startState ∧
        (t.link link).lfault = true ∧ (t.link link).rfault = false ∧ (∀ l, l ≠ link → t.link l = s.link l) ∧ SameMem s t) ∧
      Runs (.linkFault link false false false) s fun t => t.link link = { x with lfault := false, rfault := false } ∧ SameMem s t) ∧
    (∀ up, Runs (.mgmtLinkChange up) s fun t => t = { s with eth := { s.eth with mgmtUp := up } }) ∧
    (∀ v slot own r, s.takes netRuleSetSpec c = true → v = s.entered netRuleSetSpec c → slot = fieldAt ps 0 2 → own = fieldAt ps 2 1 →
      r = { owner := own, stage := fieldAt ps 3 1 + 1, prio := fieldAt ps 4 2, value := slice ps 40 80, mask := slice ps 120 80
            action := slice ps 8 32, frames := 0, bytes := 0 } →
      (v.eth.rules.find slot = none ∧ v.rulesOf own < (v.inst own).shares.rule) ∨ (∃ y, v.eth.rules.find slot = some y ∧ y.owner = own) →
      (r.stage = 1 ∧ s.senderOf c = 0) ∨ (r.stage = 2 ∧ (actVerdict r.action = 0 ∨ actVerdict r.action = 1 ∨ actVerdict r.action = 4) ∧
        actFlag r.action 0 = false ∧ actFlag r.action 3 = false ∧ fieldAt r.action 8 1 = 0 ∧ fieldAt r.action 16 1 = 0) →
      (actFlag r.action 2 = true → fieldAt r.action 24 2 / 4096 = slot / 16384 ∧
        (r.stage = 2 → ∃ m, v.traffic.meters.find (fieldAt r.action 24 2) = some m ∧ m.owner = own)) →
      Succeeds (.netRuleSet c) c s [] fun u => u.eth.rules.find slot = some r ∧ u.eth.cleared.find slot = none ∧ (∀ k, k ≠ slot → u.eth.rules.find k = v.eth.rules.find k) ∧
        SameMem v u ∧ u.facets = v.facets) ∧
    (∀ v slot r, s.takes netRuleClearSpec c = true → v = s.entered netRuleClearSpec c → slot = fieldAt ps 0 2 → v.eth.rules.find slot = some r →
      s.senderOf c = 0 ∨ (r.owner = s.senderOf c ∧ r.stage ≠ 1) → Succeeds (.netRuleClear c) c s [] fun u => u.eth.rules.find slot = none ∧
        u.eth.cleared.find slot = some (r.frames, r.bytes) ∧ (∀ k, k ≠ slot → u.eth.rules.find k = v.eth.rules.find k) ∧ SameMem v u ∧ u.facets = v.facets) ∧
    (∀ v slot r, s.takes netRuleGetSpec c = true → v = s.entered netRuleGetSpec c → slot = fieldAt ps 0 2 → v.eth.rules.find slot = some r →
      s.senderOf c = 0 ∨ r.owner = s.senderOf c → Succeeds (.netRuleGet c) c s (r.image slot) fun u => u = v) ∧
    (∀ v q own len, s.takes netQueueSetSpec c = true → v = s.entered netQueueSetSpec c → q = fieldAt ps 0 2 → own = fieldAt ps 2 1 →
      len = fieldAt ps 4 4 →
      (len = 0 → (v.eth.queues.find q).isSome = true → Succeeds (.netQueueSet c) c s [] fun u => u.eth.queues.find q = none ∧
        (∀ k, k ≠ q → u.eth.queues.find k = v.eth.queues.find k) ∧ SameMem v u) ∧
      (∀ y, len ≠ 0 → v.isActive own = true → v.mapsRw own (fieldAt ps 8 8) (len + 64) = true →
        v.ringReset clsNet own (fieldAt ps 8 8) = (y, true) → Succeeds (.netQueueSet c) c s [] fun u => SameMem y u ∧
          (∀ k, k ≠ q → u.eth.queues.find k = y.eth.queues.find k) ∧
          u.eth.queues.find q = some { inst := own, gen := v.genOf own, error := false, drops := ((v.eth.queues.find q).map (·.drops)).getD 0
                                       ring := fieldAt ps 8 8, len, prod := 0, seq := 0 })) ∧
    (∀ v q y, s.takes netQueueGetSpec c = true → v = s.entered netQueueGetSpec c → q = fieldAt ps 0 2 → v.eth.queues.find q = some y →
      Succeeds (.netQueueGet c) c s (leBytes 8 (rxStat (some y)).toNat) fun u => u.eth.queues.find q = some { y with drops := 0 } ∧
        (∀ k, k ≠ q → u.eth.queues.find k = v.eth.queues.find k) ∧ SameMem v u) ∧
    ((s.rail 6).set ≠ 0 →
      (∀ port v, port < 16 → Runs (.netPortWrite port v) s fun t =>
        (t.port port).enable = v.getLsbD 63 ∧ (t.port port).roce = v.getLsbD 58 ∧ (t.port port).l3sel = v.getLsbD 57 ∧
        (t.port port).split = (if v.getLsbD 63 ∨ bitsOf v.toNat 62 61 = 3 then (s.port port).split else bitsOf v.toNat 62 61) ∧
        (t.port port).media = (if v.getLsbD 63 ∨ bitsOf v.toNat 60 59 = 3 then (s.port port).media else bitsOf v.toNat 60 59) ∧
        (t.port port).depth = (if 1 ≤ bitsOf v.toNat 51 48 ∧ bitsOf v.toNat 51 48 ≤ 8 then bitsOf v.toNat 51 48 else (s.port port).depth) ∧
        (t.port port).maxfrm = (if 1518 ≤ bitsOf v.toNat 47 32 ∧ bitsOf v.toNat 47 32 ≤ 9728 then bitsOf v.toNat 47 32 else (s.port port).maxfrm) ∧
        (t.port port).dverdict = (if bitsOf v.toNat 31 30 ≤ 1 then bitsOf v.toNat 31 30 else (s.port port).dverdict) ∧
        (t.port port).dqueue = bitsOf v.toNat 11 0 ∧ (∀ q, q ≠ port → t.port q = s.port q)) ∧
      (Runs (.netLinkRead link) s fun t => ∃ u : State, t = u.emit (.readback x.word) ∧ u.link link = { x with restarts := 0 } ∧
        (∀ l, l ≠ link → u.link l = s.link l) ∧ SameMem s u ∧ u.facets = s.facets) ∧
      (∀ k n, k < 4 → n < 8 → Runs (.netDropRead k n) s fun t => ∃ u : State,
        t = u.emit (.readback (BitVec.ofNat 64 (s.eth.drops.getD (8 * k + n) 0))) ∧ u.eth.drops.getD (8 * k + n) 0 = 0 ∧
        (∀ m, m ≠ 8 * k + n → u.eth.drops.getD m 0 = s.eth.drops.getD m 0) ∧ SameMem s u ∧ u.facets = s.facets) ∧
      (∀ q, q < 4096 → Runs (.netQstatRead q) s fun t => ∃ u : State, t = u.emit (.readback (rxStat (s.eth.queues.find q))) ∧
        u.eth.queues.find q = ((s.eth.queues.find q).map fun y => { y with drops := 0 }) ∧
        (∀ k, k ≠ q → u.eth.queues.find k = s.eth.queues.find k) ∧ SameMem s u ∧ u.facets = s.facets))

/-! ## Scheduling, metering and shaping (spec/12) -/

/-- R317, R318: a meter fills its buckets up to their caps, overflow of C filling E by RFC 2697; and it colours a frame by its
buckets: a green frame has paid for itself, a yellow one from E, a red one pays nothing and meets too few tokens or a red
pre-colour. -/
def Obligations.MeterMarks : Prop :=
  ∀ (m : Meter) (now h : Nat) (pre : Colour),
    let f := m.fill now
    let dt := now - m.last
    let p := if m.aware then pre else Colour.green
    (f.c = min (8000 * m.cbs) (m.c + m.cir * dt) ∧ f.last = now ∧ f.e ≤ 8000 * m.ebs ∧
      (m.trtcm = true → f.e = min (8000 * m.ebs) (m.e + m.pir * dt)) ∧
      (m.trtcm = false → m.e ≤ 8000 * m.ebs → f.e + f.c ≤ m.e + m.c + m.cir * dt ∧
        (f.e < 8000 * m.ebs → m.c + m.cir * dt ≤ f.c + (f.e - m.e)))) ∧
    ((m.mark h pre).2 = .green → 8000 * h ≤ m.c ∧ (m.mark h pre).1.c = m.c - 8000 * h ∧ p = .green ∧
      (m.mark h pre).1.e = if m.trtcm then m.e - 8000 * h else m.e) ∧
    ((m.mark h pre).2 = .yellow → 8000 * h ≤ m.e ∧ (m.mark h pre).1 = { m with e := m.e - 8000 * h } ∧ p ≠ .red ∧
      (p = .green → m.c < 8000 * h)) ∧
    ((m.mark h pre).2 = .red → (m.mark h pre).1 = m ∧ (p = .red ∨ m.e < 8000 * h))

/-- R307 to R312, R314, R315, R320 to R322: scheduling. A free link serves the control queue ahead of TC6, and a default queue by its
quantum; each whole microsecond fills every shaper, a pending change first; meters, shapers, egress queues and the instance map
take what the commands give; the status registers answer and clear their drops. -/
def Obligations.TrafficCommands : Prop :=
  ∀ (s : State) (c : Cmd) (link : Nat),
    let ps := c.pkt.params
    let n := fieldAt ps 0 2
    let own := fieldAt ps 2 1
    let i := s.senderOf c
    (link < 64 → (s.link link).state = .up → s.traffic.tx.getD link LinkTx.initial = LinkTx.initial → (s.gatesOf (portOf link)).inForce = [] →
      (∀ f rest, (s.traffic.ctrl.getD link LinkQueue.initial).frames = f :: rest → s.activeQueues link 7 = [] →
        Runs (.transmitSelect link) s fun t => ∃ u : State, t = (u.beginFrame link 6 f).pumpAll ∧
          (u.traffic.ctrl.getD link LinkQueue.initial).frames = rest ∧ u.traffic.queues = s.traffic.queues ∧
          u.traffic.dflt = s.traffic.dflt ∧ SameMem s u ∧ u.facets = s.facets) ∧
      (∀ k f rest, k < 8 → s.traffic.queues = [] → (s.traffic.ctrl.getD link LinkQueue.initial).frames = [] →
        (∀ j, k < j → j < 8 → (s.traffic.dflt.getD (8 * link + j) LinkQueue.initial).frames = []) →
        (s.traffic.dflt.getD (8 * link + k) LinkQueue.initial).frames = f :: rest → f.len ≤ 1536 → s.oldFrame f = false →
        Runs (.transmitSelect link) s fun t => ∃ u : State, t = (u.beginFrame link k f).pumpAll ∧
          (u.traffic.dflt.getD (8 * link + k) LinkQueue.initial).frames = rest ∧ SameMem s u ∧ u.facets = s.facets)) ∧
    (∀ k x, s.traffic.shapers.find k = some x → Runs .shaperRefill s fun t => ∃ m, 1 ≤ m ∧ t.traffic.lastTick = s.traffic.lastTick + m ∧
      s.now ≤ t.now ∧ 1000 * t.traffic.lastTick ≤ t.now ∧ t.now < 1000 * (t.traffic.lastTick + 1) ∧ SameMem s t ∧ t.facets = s.facets ∧
      t.traffic.shapers.find k = some (match x.pending with
        | some (r, b, o) => { x with rate := r, burst := b, overhead := o, pending := none, tokens := min (8 * b) (x.tokens + m * r) }
        | none => { x with tokens := min (8 * x.burst) (x.tokens + m * x.rate) })) ∧
    (∀ v m mode, s.takes tmsMeterSetSpec c = true → v = s.entered tmsMeterSetSpec c → mode = fieldAt ps 3 1 →
      i = 0 ∨ (own = i ∧ ∀ y, v.traffic.meters.find n = some y → y.owner = i) →
      (∃ y, v.traffic.meters.find n = some y ∧ y.owner = own) ∨ v.metersOf own < (v.inst own).shares.meter →
      (bitAt mode 0 = true → fieldAt ps 8 4 ≤ fieldAt ps 12 4) → fieldAt ps 16 4 ≠ 0 ∨ fieldAt ps 20 4 ≠ 0 →
      bitsOf (fieldAt ps 4 1) 1 0 ≠ 3 → bitsOf (fieldAt ps 4 1) 3 2 ≠ 3 → bitsOf (fieldAt ps 4 1) 5 4 ≠ 3 →
      Succeeds (.tmsMeterSet c) c s [] fun u => u.traffic.meters.find n = some m ∧ (∀ k, k ≠ n → u.traffic.meters.find k = v.traffic.meters.find k) ∧
        m.owner = own ∧ m.trtcm = bitAt mode 0 ∧ m.aware = bitAt mode 1 ∧ m.colsrc = bitAt mode 2 ∧ m.cir = fieldAt ps 8 4 ∧ m.pir = fieldAt ps 12 4 ∧
        m.cbs = fieldAt ps 16 4 ∧ m.ebs = fieldAt ps 20 4 ∧ m.c = (if bitAt mode 3 then 0 else 8000 * m.cbs) ∧
        m.e = (if bitAt mode 3 then 0 else 8000 * m.ebs) ∧ m.act = fieldAt ps 4 1 ∧ SameMem v u ∧ u.facets = v.facets) ∧
    (∀ v fl, s.takes tmsShaperSetSpec c = true → v = (s.entered tmsShaperSetSpec c).refillNow → fl = fieldAt ps 3 1 →
      i = 0 ∨ (own = i ∧ ∀ y, v.traffic.shapers.find n = some y → y.owner = i) →
      (∃ y, v.traffic.shapers.find n = some y ∧ y.owner = own) ∨ v.shapersOf own < (v.inst own).shares.shaper → 10240 ≤ fieldAt ps 8 4 →
      Succeeds (.tmsShaperSet c) c s [] fun u => (∀ k, k ≠ n → u.traffic.shapers.find k = v.traffic.shapers.find k) ∧ SameMem v u ∧
        u.facets = v.facets ∧ ∃ x, u.traffic.shapers.find n = some x ∧ x.owner = own ∧ x.compat = bitAt fl 1 ∧
          (bitAt fl 1 = false → x.rate = fieldAt ps 4 4 ∧ x.burst = fieldAt ps 8 4 ∧ x.overhead = fieldAt ps 12 1 ∧ x.pending = none ∧
            x.tokens = if bitAt fl 0 then 0 else 8 * x.burst) ∧
          (bitAt fl 1 = true → ∀ y, v.traffic.shapers.find n = some y → x.rate = y.rate ∧ x.burst = y.burst ∧ x.tokens = y.tokens ∧
            x.pending = some (fieldAt ps 4 4, fieldAt ps 8 4, fieldAt ps 12 1)) ∧
          (bitAt fl 1 = true → v.traffic.shapers.find n = none → x.rate = fieldAt ps 4 4 ∧ x.tokens = 8 * fieldAt ps 8 4)) ∧
    (∀ v, s.takes tmsObjFreeSpec c = true → v = s.entered tmsObjFreeSpec c →
      (∀ y, fieldAt ps 0 1 = 0 → v.traffic.meters.find (fieldAt ps 2 2) = some y → i = 0 ∨ y.owner = i →
        (∀ e ∈ v.eth.rules, actionMeter e.2.action (fieldAt ps 2 2) = false) → Succeeds (.tmsObjFree c) c s [] fun u =>
          u.traffic.meters.find (fieldAt ps 2 2) = none ∧ u.traffic.shapers = v.traffic.shapers ∧ SameMem v u ∧
          ∀ k, k ≠ fieldAt ps 2 2 → u.traffic.meters.find k = v.traffic.meters.find k) ∧
      (∀ y, fieldAt ps 0 1 = 1 → v.traffic.shapers.find (fieldAt ps 2 2) = some y → i = 0 ∨ y.owner = i →
        (∀ e ∈ v.traffic.queues, e.2.shaper ≠ some (fieldAt ps 2 2)) → Succeeds (.tmsObjFree c) c s [] fun u =>
          u.traffic.shapers.find (fieldAt ps 2 2) = none ∧ u.traffic.meters = v.traffic.meters ∧ SameMem v u ∧
          ∀ k, k ≠ fieldAt ps 2 2 → u.traffic.shapers.find k = v.traffic.shapers.find k)) ∧
    (∀ v, s.takes tmsObjGetSpec c = true → v = s.entered tmsObjGetSpec c →
      (∀ y, fieldAt ps 0 1 = 0 → v.traffic.meters.find (fieldAt ps 2 2) = some y → i = 0 ∨ y.owner = i →
        Succeeds (.tmsObjGet c) c s (y.image (fieldAt ps 2 2)) fun u => u = v) ∧
      (∀ y, fieldAt ps 0 1 = 1 → v.traffic.shapers.find (fieldAt ps 2 2) = some y → i = 0 ∨ y.owner = i →
        Succeeds (.tmsObjGet c) c s (y.image (fieldAt ps 2 2)) fun u => u = v)) ∧
    (∀ v k q on inst sh, s.takes tmsEqSetSpec c = true → v = s.entered tmsEqSetSpec c → k = 1024 * fieldAt ps 0 1 + fieldAt ps 2 2 →
      q = v.traffic.queues.getD k EgressQueue.initial → on = bitAt (fieldAt ps 1 1) 0 →
      inst = (if fieldAt ps 6 1 = 0xFF then none else some (fieldAt ps 6 1)) → sh = fieldAt ps 10 2 →
      subExists (v.port (fieldAt ps 0 1)).split (fieldAt ps 4 1) = true →
      q.frames = [] ∨ (q.sub = fieldAt ps 4 1 ∧ q.cls = fieldAt ps 5 1 ∧ q.inst = inst) →
      sh = 0xFFFF ∨ (∃ x, v.traffic.shapers.find sh = some x ∧ sh / 4096 = dieOfPort (fieldAt ps 0 1) ∧ (x.owner = 0 ∨ inst = some x.owner)) →
      fieldAt ps 8 2 ≠ 0 ∨ inst ≠ none →
      Succeeds (.tmsEqSet c) c s [] fun u => (∀ j, j ≠ k → u.traffic.queues.find j = v.traffic.queues.find j) ∧ SameMem v u ∧ u.facets = v.facets ∧
        ∃ deficit visit, (on = false ∨ q.enable = false ∨ q.stopped = true ∨ q.visit = none → deficit = 0 ∧ visit = none) ∧
        (∀ w, on = true → q.enable = true → q.stopped = false → q.visit = some w → deficit = q.deficit ∧ visit = some { w with zero := true }) ∧
        u.traffic.queues.find k = some { enable := on, stopped := false, sub := fieldAt ps 4 1, cls := fieldAt ps 5 1, inst := inst
                                         shaper := if sh = 0xFFFF then none else some sh, quantum := fieldAt ps 8 2, limit := fieldAt ps 12 2
                                         frames := if on then q.frames else []
                                         deficit := deficit, drops := q.drops, visit := visit }) ∧
    (∀ v k, s.takes tmsIqmapSetSpec c = true → v = s.entered tmsIqmapSetSpec c → k = 512 * fieldAt ps 0 1 + 8 * fieldAt ps 1 1 + own →
      Succeeds (.tmsIqmapSet c) c s [] fun u => u.traffic.iqmap.find k = (if fieldAt ps 4 2 = 0xFFFF then none else some (fieldAt ps 4 2)) ∧
        (∀ j, j ≠ k → u.traffic.iqmap.find j = v.traffic.iqmap.find j) ∧ SameMem v u ∧ u.facets = v.facets) ∧
    ((s.rail 6).set ≠ 0 →
      (∀ p q x, p < 16 → q < 1024 → x = s.traffic.queues.getD (1024 * p + q) EgressQueue.initial → Runs (.tmsEqstatRead (.queue p q)) s fun t =>
        ∃ u : State, t = u.emit (.readback (queueStat x.frames x.drops)) ∧
        u.traffic.queues.getD (1024 * p + q) EgressQueue.initial = { x with drops := 0 } ∧ SameMem s u ∧ u.facets = s.facets) ∧
      (∀ l k x, l < 64 → k < 8 → x = s.traffic.dflt.getD (8 * l + k) LinkQueue.initial → Runs (.tmsEqstatRead (.dflt l k)) s fun t =>
        ∃ u : State, t = u.emit (.readback (queueStat x.frames x.drops)) ∧
        u.traffic.dflt.getD (8 * l + k) LinkQueue.initial = { x with drops := 0 } ∧ SameMem s u ∧ u.facets = s.facets) ∧
      (∀ l x, l < 64 → x = s.traffic.ctrl.getD l LinkQueue.initial → Runs (.tmsEqstatRead (.ctrl l)) s fun t =>
        ∃ u : State, t = u.emit (.readback (queueStat x.frames x.drops)) ∧
        u.traffic.ctrl.getD l LinkQueue.initial = { x with drops := 0 } ∧ SameMem s u ∧ u.facets = s.facets) ∧
      (∀ k m, k < 4 → m < 3 → Runs (.tmsDropRead k m) s fun t => ∃ u : State,
        t = u.emit (.readback (BitVec.ofNat 64 (s.traffic.drops.getD (3 * k + m) 0))) ∧ u.traffic.drops.getD (3 * k + m) 0 = 0 ∧
        (∀ j, j ≠ 3 * k + m → u.traffic.drops.getD j 0 = s.traffic.drops.getD j 0) ∧ SameMem s u ∧ u.facets = s.facets))

/-! ## Remote memory access (spec/13) -/

/-- R326, R327, R335, R336, R341, R343, R351: RoCEv2 packets at the responder. What R326 drops changes only its count; a packet whose
context is not cached is parked; one that arrived on another die crosses to its queue pair's home; an in-order WRITE packet that passes its checks is written and accepted, alone of its message; one
whose R_Key fails is refused and writes nothing, and the queue pair is in Error once the NAK has left, which may wait for room; an in-order READ request advances the expected PSN
by the packets of its responses. -/
def Obligations.RoceResponder : Prop :=
  ∀ (s : State) (link : Nat) (pk : RocePkt), link < 64 → (s.link link).state = .up → s.power.rung < 2 → s.power.exiting = false →
    s.power.entering = none →
    let isW := pk.opcode ∈ [0x06, 0x07, 0x08, 0x0A]
    (pktDropped pk = true ∨ s.qpByQpn pk.dqpn = none → (isW → Runs (.roceWriteReceive link pk) s fun t => t = s.rmaStat (dieOfLink link) 5) ∧
      (pk.opcode = 0x0C → Runs (.roceReadRequestReceive link pk) s fun t => t = s.rmaStat (dieOfLink link) 5) ∧
      (pk.opcode ∈ [0x0D, 0x0E, 0x0F, 0x10] → Runs (.roceReadResponseReceive link pk) s fun t => t = s.rmaStat (dieOfLink link) 5) ∧
      (pk.opcode = 0x11 → Runs (.roceAckReceive link pk) s fun t => t = s.rmaStat (dieOfLink link) 5)) ∧
    ∀ k q v, pktDropped pk = false → s.qpByQpn pk.dqpn = some (k, q) → q.state = .rtr ∨ q.state = .rts → s.genOf q.inst = q.gen →
      v = ((s.charge q.inst 3 pk.frameLen).rmaStat q.home 0).touchQp k →
      (isW → q.home ≠ dieOfLink link → Runs (.roceWriteReceive link pk) s fun t => t = s.crossRoce (dieOfLink link) q.home k pk) ∧
      (q.home = dieOfLink link →
      (isW → q.cached = false → (s.parkedOn q.home).1 < 1024 → q.parked.length < 64 → (s.parkedOn q.home).2 + pk.frameLen ≤ 0x20_0000 →
        Runs (.roceWriteReceive link pk) s fun t => t.rma.qps.find k = some { q with parked := q.parked ++ [pk] } ∧ SameMem s t ∧ t.facets = s.facets) ∧
      (q.cached = true → q.parked = [] → (∀ e ∈ q.owed, e.2 ≤ 0x60) →
        (∀ g n m (ends : Bool), pk.psn = q.rqPsn → q.cipRx = none → n = pk.payload.length → ends = (pk.opcode = 0x08 || pk.opcode = 0x0A) →
          (pk.opcode ∈ [0x06, 0x0A] ∧ q.inMsg = none ∧ g = { rkey := pk.rkey, addr := pk.va, left := pk.dmaLen }) ∨
            (pk.opcode ∈ [0x07, 0x08] ∧ q.inMsg = some g) →
          (if ends then n = g.left ∧ n ≤ mtuBytes q.mtu else n = mtuBytes q.mtu ∧ n < g.left) → 0 < n → g.left ≤ 2147483648 →
          (v.keyOk q g.rkey g.addr g.left true = true → v.writeBy clsNet q.inst g.addr pk.payload = (m, .ok ()) → pk.ackReq = false →
            q.ackDue < 15 → Runs (.roceWriteReceive link pk) s fun t => SameMem m t ∧ (∀ j, j ≠ k → t.rma.qps.find j = s.rma.qps.find j) ∧
              t.rma.qps.find k = some { q with
                used := s.rma.clockUse + 1, rqPsn := q.rqPsn + 1, nakSent := false, ackDue := q.ackDue + 1
                ackSince := q.ackSince.or (some s.now), msn := if ends then q.msn + 1 else q.msn
                inMsg := if ends then none else some { g with addr := g.addr + n, left := g.left - n } }) ∧
          (v.keyOk q g.rkey g.addr g.left true = false → q.reqs = [] → q.owed = [] →
            (v.rocePut q (roceFrame q.path k (bthBytes 0x11 0 q.dqpn false q.rqPsn ++ aethBytes 0x62 q.msn)) none ≠ .wait →
              Runs (.roceWriteReceive link pk) s fun t => SameMem s t ∧ (∀ j, j ≠ k → t.rma.qps.find j = s.rma.qps.find j) ∧
                ∃ y, t.rma.qps.find k = some y ∧ y.state = .error ∧ y.rqPsn = q.rqPsn ∧ y.inMsg = none) ∧
            (v.rocePut q (roceFrame q.path k (bthBytes 0x11 0 q.dqpn false q.rqPsn ++ aethBytes 0x62 q.msn)) none = .wait →
              Runs (.roceWriteReceive link pk) s fun t => SameMem s t ∧ (∀ j, j ≠ k → t.rma.qps.find j = s.rma.qps.find j) ∧
                t.rma.qps.find k = some { q with used := s.rma.clockUse + 1, owed := [(q.rqPsn, 0x62)] }))) ∧
        (isW → 0 < (pk.psn - q.rqPsn).toNat → (pk.psn - q.rqPsn).toNat < 2 ^ 23 →
          Runs (.roceWriteReceive link pk) s fun t => t = if q.nakSent then v else v.nak k 0) ∧
        (pk.opcode = 0x0C → pk.psn = q.rqPsn → q.inMsg = none → pk.dmaLen ≤ 2147483648 → q.resps.length < q.respDepth → q.reqs = [] →
          q.pinned = true ∨ s.pinnedOn q.home < 768 →
          (v.keyOk q pk.rkey pk.va pk.dmaLen false = true → Runs (.roceReadRequestReceive link pk) s fun t => SameMem s t ∧
            (∀ j, j ≠ k → t.rma.qps.find j = s.rma.qps.find j) ∧ ∃ y, t.rma.qps.find k = some y ∧ y.msn = q.msn + 1 ∧
              y.rqPsn = q.rqPsn + BitVec.ofNat 24 (max 1 ((pk.dmaLen + dataMtu q.mtu q.cipTx - 1) / dataMtu q.mtu q.cipTx))) ∧
          (v.keyOk q pk.rkey pk.va pk.dmaLen false = false → q.owed = [] →
            v.rocePut q (roceFrame q.path k (bthBytes 0x11 0 q.dqpn false q.rqPsn ++ aethBytes 0x62 q.msn)) none ≠ .wait →
            Runs (.roceReadRequestReceive link pk) s fun t => SameMem s t ∧
              ∃ y, t.rma.qps.find k = some y ∧ y.state = .error ∧ y.rqPsn = q.rqPsn))))

/-- R332 to R334, R336, R337, R342, R343, R345, R347: a queue pair at work as requester. Requests are fetched in ring order and
checked; the next packet is sent as R325 builds it; an acknowledgement completes the WRITEs it covers; an in-order READ response is
written at LADDR; a timeout resends from the oldest packet or ends in status 6; the completion entry is written and both rings
advance; a fetched context applies its parked packets in arrival order; every 10 s the base delay becomes the smallest sample. -/
def Obligations.RoceRequester : Prop :=
  ∀ (s : State) (k : Nat) (q : Qp), s.rma.qps.find k = some q →
    let others (t : State) := ∀ j, j ≠ k → t.rma.qps.find j = s.rma.qps.find j
    (∀ m b rq, q.kind = 0 → q.prodSeen ≠ q.fetched → s.readBy clsNet q.inst (q.sq + 64 + q.fetched) 64 = (m, .ok b) →
      rq = q.request q.fetched b →
      (q.state = .error → Runs (.workRequestFetch k) s fun t => SameMem s t ∧ others t ∧
        t.rma.qps.find k = some { q with fetched := (q.fetched + 64) % q.sqLen, reqs := q.reqs ++ [{ rq with status := some (1, 0) }] }) ∧
      (q.state = .rts → (∀ x ∈ q.reqs, x.entry = false) → wrBad b = false → (m.localOk k q.inst rq.laddr rq.len (rq.op = 2)).2 = true →
        Runs (.workRequestFetch k) s fun t => SameMem s t ∧ others t ∧ t.rma.qps.find k = some { q with
          fetched := (q.fetched + 64) % q.sqLen, reqs := q.reqs ++ [rq], sqPsn := q.sqPsn + BitVec.ofNat 24 rq.npsn }) ∧
      (q.state = .rts → q.reqs = [] → wrBad b = true → Runs (.workRequestFetch k) s fun t => SameMem s t ∧ others t ∧
        ∃ y, t.rma.qps.find k = some y ∧ y.state = .error ∧ y.reqs = [{ rq with status := some (2, 0) }])) ∧
    (∀ psn syn rest u, q.owed = (psn, syn) :: rest → s.genOf q.inst = q.gen → (s.putQp k { q with owed := rest }).rocePut q
      (roceFrame q.path k (bthBytes 0x11 0 q.dqpn false psn ++ aethBytes syn q.msn)) none = .done u →
      Runs (.rocePacketSend k) s fun t => t = u.aethSent k q.home syn) ∧
    (∀ i rq x pt m key e, q.state = .rts → q.owed = [] → q.resps = [] → rq.started = true ∨ s.stalled q = false → q.cached = true → (∀ u ∈ q.unacked, u.again = false) → q.probing = false →
      q.nextReq = some (i, rq) → x = packetOf q rq rq.sent → q.windowOk (x.frameLen q) = true → q.pinned = true ∨ s.pinnedOn q.home < 768 →
      s.genOf q.inst = q.gen → q.cipTx = none → q.path.fabric = false →
      (match x.place with | some a => (s.touchQp k).readBy clsNet q.inst a x.len | none => (s.touchQp k, .ok x.data)) = (m, .ok pt) →
      key = 8 * q.path.link + q.path.cls → s.traffic.iqmap.find (512 * q.path.link + 8 * q.inst + q.path.cls) = none →
      e = s.traffic.dflt.getD key LinkQueue.initial →
      ∀ fr n, fr = roceFrame q.path k (bthBytes x.op (padOf x.len) q.dqpn x.ack x.psn ++ x.reth ++ pt ++ zeros (padOf pt.length)) →
        n = wireLen (fr.length + 4) → roomFor n (queuedBytes e.frames) 262144 (s.dieQueued (dieOfLink q.path.link)) = true →
        Runs (.rocePacketSend k) s fun t => SameMem s t ∧ others t ∧ t.traffic.queues = s.traffic.queues ∧
          (t.traffic.dflt.getD key LinkQueue.initial).frames =
            e.frames ++ [{ body := .eth (padTo 60 fr), len := n, inst := some (q.inst, q.gen), mark := some (k, x.psn) }] ∧
          ∃ y, t.rma.qps.find k = some y ∧ y.sqPsn = q.sqPsn ∧ y.reqs = q.reqs.set i { rq with sent := rq.sent + 1, started := true } ∧
            y.unacked = q.unacked ++ [{ psn := x.psn, bytes := x.frameLen q, at_ := s.now, sends := 1, ack := x.ack, again := false }]) ∧
    (∀ link pk rq u us, link < 64 → (s.link link).state = .up → s.power.rung < 2 → s.power.exiting = false → s.power.entering = none →
      pktDropped pk = false → s.qpByQpn pk.dqpn = some (k, q) → q.state = .rts → s.genOf q.inst = q.gen → q.cached = true → q.parked = [] →
      q.home = dieOfLink link → q.unacked = u :: us → psnLe u.psn pk.psn = true → psnLe q.sqPsn pk.psn = false →
      (pk.opcode = 0x11 → q.reqs = [rq] → rq.op = 1 → rq.status = none → rq.sent = rq.npsn → rq.eng = false → rq.signal = true →
        psnLe (rq.psn0 + BitVec.ofNat 24 (rq.npsn - 1)) pk.psn = true → pk.syndrome / 32 % 4 = 0 →
        Runs (.roceAckReceive link pk) s fun t => SameMem s t ∧ others t ∧ ∃ y, t.rma.qps.find k = some y ∧ y.state = .rts ∧ y.retries = 0 ∧
          y.unacked = q.unacked.filter (fun x => !psnLe x.psn pk.psn) ∧ y.reqs = [{ rq with status := some (0, 0), got := rq.len }]) ∧
      (pk.opcode = 0x11 → q.reqs = [rq] → rq.op = 1 → rq.status = none → rq.eng = false → (pk.psn - rq.psn0).toNat < rq.npsn →
        psnLe (rq.psn0 + BitVec.ofNat 24 (rq.npsn - 1)) (pk.psn - 1) = false → ∀ code, 1 ≤ code → code ≤ 3 → pk.syndrome = 0x60 + code →
        Runs (.roceAckReceive link pk) s fun t => SameMem s t ∧ others t ∧ ∃ y, t.rma.qps.find k = some y ∧ y.state = .error ∧
          y.unacked = [] ∧ y.reqs = [{ rq with status := some (if code = 2 then 3 else if code = 3 then 5 else 4, pk.syndrome) }]) ∧
      (∀ n m (done : Bool), pk.opcode ∈ [0x0D, 0x0E, 0x0F, 0x10] → q.reqs = [rq] → rq.op = 2 → rq.started = true → rq.status = none →
        rq.eng = false → q.cipRx = none → us = [] → u.psn = pk.psn → (pk.psn - rq.psn0).toNat < rq.npsn →
        pk.psn = rq.psn0 + BitVec.ofNat 24 (rq.got / mtuBytes q.mtu) → n = min (mtuBytes q.mtu) (rq.len - rq.got) → pk.payload.length = n →
        done = decide (rq.len ≤ rq.got + n) → done = false ∨ rq.signal = true →
        (((s.charge q.inst 3 pk.frameLen).rmaStat q.home 0).touchQp k).writeBy clsNet q.inst (rq.laddr + rq.got) pk.payload = (m, .ok ()) →
        Runs (.roceReadResponseReceive link pk) s fun t => SameMem m t ∧ others t ∧ ∃ y, t.rma.qps.find k = some y ∧ y.state = .rts ∧
          y.retries = 0 ∧ y.reqs = [{ rq with got := rq.got + n, status := if done then some (0, 0) else none }] ∧
          (done = true → y.unacked = []))) ∧
    (∀ u us, q.state = .rts → q.unacked = u :: us →
      (q.retries < q.retry → Runs (.roceRetransmitTimeout k) s fun t => u.at_ + 4096 * 2 ^ q.timeout ≤ t.now ∧ s.now ≤ t.now ∧
        (q.cached = true → others t) ∧
        ∃ y, t.rma.qps.find k = some y ∧ y.retries = q.retries + 1) ∧
      (∀ rq, q.retry ≤ q.retries → q.reqs = [rq] → rq.status = none → rq.eng = false → (u.psn - rq.psn0).toNat < rq.npsn →
        Runs (.roceRetransmitTimeout k) s fun t => others t ∧ SameMem s t ∧
          ∃ y, t.rma.qps.find k = some y ∧ y.state = .error ∧ y.unacked = [] ∧ y.reqs = [{ rq with status := some (6, 0) }])) ∧
    (∀ t0 x, q.ackSince = some t0 → q.owed = [] → x = (s.reach (t0 + 2000)).rocePut q
        (roceFrame q.path k (bthBytes 0x11 0 q.dqpn false (q.rqPsn - 1) ++ aethBytes 0x1F q.msn)) none →
      (∀ u, x = .done u → Runs (.roceAckTimer k) s fun t => t.traffic = u.traffic ∧ SameMem s t ∧ others t ∧ t.now = max s.now (t0 + 2000) ∧
        t.rma.qps.find k = some { q with ackDue := 0, ackSince := none }) ∧
      (x = .wait → Runs (.roceAckTimer k) s fun t => t.traffic = s.traffic ∧ SameMem s t ∧ others t ∧
        t.rma.qps.find k = some { q with ackDue := 0, ackSince := none, owed := [(q.rqPsn - 1, 0x1F)] })) ∧
    (q.cached = false → s.cachedOn q.home < 1024 → ∃ u, s.fetchQp k = some u ∧ SameMem s u ∧ others u ∧
      u.rma.qps.find k = some { q with cached := true, used := s.rma.clockUse + 1 }) ∧
    (∀ u, q.parked ≠ [] → (∀ pk ∈ q.parked, s.noPin q pk = false) → s.fetchQp k = some u → Runs (.contextFetchDone k) s fun t =>
      t = q.parked.foldl (fun v pk => v.applyPkt k pk) (u.modQp k fun q => { q with parked := [] })) ∧
    (Runs .baseDelayRefresh s fun t => t.now = max s.now (s.rma.lastBase + 10000000000) ∧ t.rma.lastBase = t.now ∧ SameMem s t ∧
      ∀ j, t.rma.qps.find j = (s.rma.qps.find j).map fun q =>
        if q.state = .rts then { q with base := q.minRtt.getD q.base, minRtt := none } else q) ∧
    (∀ rq rest st syn s1 b s2 s3 s4 prod, q.reqs = rq :: rest → rq.status = some (st, syn) → st ≠ 0 ∨ rq.signal = true → rq.eng = false →
      s.genOf q.inst = q.gen → s.cqRoom q = .ok true → s.readBy clsNet q.inst (q.cq + 8) 8 = (s1, b) → prod = (q.cqProd + 32) % q.cqLen →
      s1.writeBy clsNet q.inst (q.cq + 64 + q.cqProd)
        (leBytes 8 rq.wrid.toNat ++ leBytes 8 q.cqSeq.toNat ++ leBytes 4 (s.rma.incarn.getD k 1 * 2 ^ 18 + k) ++ leBytes 4 rq.off ++
          leBytes 4 (if st = 0 then rq.len else rq.got) ++ leBytes 1 st ++ leBytes 1 syn ++ zeros 2) = (s2, .ok ()) →
      s2.writeBy clsNet q.inst q.cq (leBytes 8 prod) = (s3, .ok ()) →
      ((s3.putQp k { q with cqProd := prod, cqSeq := q.cqSeq + 1 }).putQp k { q with
        cqProd := prod, cqSeq := q.cqSeq + 1, reqs := rest, cons := (rq.off + 64) % q.sqLen }).writeBy clsNet q.inst (q.sq + 8)
          (leBytes 8 ((rq.off + 64) % q.sqLen)) = (s4, .ok ()) →
      Runs (.completionEntryWrite k) s fun t => t = s4.retireAll k) ∧
    (∀ d i m b, s.rma.rings.find i = some d → d.stopped = false → s.power.rung < 2 → s.readBy clsNet i d.ring 8 = (m, .ok b) →
      (leNat b % 8 ≠ 0 ∨ d.len ≤ leNat b → Runs (.doorbellRingPoll i) s fun t => t.rma.rings.find i = some { d with stopped := true } ∧
        t.rma.qps = s.rma.qps ∧ SameMem s t) ∧
      (∀ u y, leNat b % 8 = 0 → leNat b < d.len → m.doorbells i d (d.len / 8) d.cons (leNat b) = (u, some (leNat b)) →
        ({ u with rma := { u.rma with rings := u.rma.rings.put i { d with cons := leNat b } } }).writeBy clsNet i (d.ring + 8)
          (leBytes 8 (leNat b)) = (y, .ok ()) → Runs (.doorbellRingPoll i) s fun t => t = y)) ∧
    (∀ fn v i, s.barServes fn i = true → v.toNat % 2 ^ 18 = k →
      (q.inst = i → q.kind = 0 → ∀ m b, s.readBy clsNet i q.sq 8 = (m, .ok b) → leNat b % 64 = 0 → leNat b < q.sqLen → Runs (.rmaDb fn v) s
        fun t => SameMem s t ∧ others t ∧ t.rma.qps.find k = some { q with prodSeen := leNat b }) ∧
      (q.inst ≠ i ∨ q.kind = 1 → Runs (.rmaDb fn v) s fun t => t = s.rmaStat q.home 5))

/-- R328 to R331, R338 to R342, R348: the remote-memory commands. A domain, a queue pair at the lowest free index with its
incarnation, a window at the lowest free index with its generation; the five transitions; what is destroyed or freed advances its
incarnation or generation; a revoking window's key opens nothing, and after the reply neither does its old key. -/
def Obligations.RoceCommands : Prop :=
  ∀ (s : State) (c : Cmd),
    let ps := c.pkt.params
    let i := s.senderOf c
    let own := fieldAt ps 0 1
    let qpn := fieldAt ps 0 4
    (∀ v d, s.takes rmaCtxAreaSpec c = true → v = s.entered rmaCtxAreaSpec c → fieldAt ps 0 8 % granule = 0 → v.rma.qps = [] →
      v.hbmPiece 0 (fieldAt ps 0 8) 0x400_0000 = some d →
      Succeeds (.rmaCtxArea c) c s [] fun u => u = { v with rma := { v.rma with ctxArea := some d } }) ∧
    (∀ v n, s.takes rmaPdAllocSpec c = true → v = s.entered rmaPdAllocSpec c → v.pdsOf own < (v.inst own).shares.pd →
      v.rma.pds.free 4096 = some n → Succeeds (.rmaPdAlloc c) c s (leBytes 2 n ++ zeros 6) fun u => n < 4096 ∧ v.rma.pds.find n = none ∧
        u.rma.pds.find n = some own ∧ (∀ k, k ≠ n → u.rma.pds.find k = v.rma.pds.find k) ∧ u.rma.qps = v.rma.qps ∧ u.rma.wins = v.rma.wins ∧
        SameMem v u ∧ u.facets = v.facets) ∧
    (∀ v n o, s.takes rmaPdFreeSpec c = true → v = s.entered rmaPdFreeSpec c → n = fieldAt ps 0 2 → v.rma.pds.find n = some o → i = 0 ∨ o = i →
      ((∀ e ∈ v.rma.qps, e.2.pd ≠ n) → (∀ e ∈ v.rma.wins, e.2.pd ≠ n) → Succeeds (.rmaPdFree c) c s [] fun u =>
        u.rma.pds.find n = none ∧ (∀ k, k ≠ n → u.rma.pds.find k = v.rma.pds.find k) ∧ SameMem v u ∧ u.facets = v.facets) ∧
      ((∃ e ∈ v.rma.qps, e.2.pd = n) ∨ (∃ e ∈ v.rma.wins, e.2.pd = n) → Ends (.rmaPdFree c) c s 0x7005 fun u => u = v)) ∧
    (∀ v k, s.takes rmaQpCreateSpec c = true → v = s.entered rmaQpCreateSpec c → v.qpsOf own < (v.inst own).shares.qp →
      v.rma.pds.find (fieldAt ps 2 2) = some own → ringOk (fieldAt ps 8 8) (fieldAt ps 16 4) 0x1000 0x40_0000 = true →
      ringOk (fieldAt ps 24 8) (fieldAt ps 20 4) 0x1000 0x20_0000 = true → v.rma.qps.free 262144 = some k →
      (v.rma.ctxArea ≠ none → Succeeds (.rmaQpCreate c) c s (leBytes 4 (v.rma.incarn.getD k 1 * 2 ^ 18 + k) ++ zeros 4) fun u =>
        k < 262144 ∧ v.rma.qps.find k = none ∧ (∀ j, j < k → v.rma.qps.find j ≠ none) ∧
        u.rma.qps.find k = some (Qp.fresh own (v.genOf own) (fieldAt ps 1 1) (fieldAt ps 2 2) (fieldAt ps 4 1) (fieldAt ps 8 8) (fieldAt ps 16 4)
          (fieldAt ps 24 8) (fieldAt ps 20 4)) ∧ (∀ j, j ≠ k → u.rma.qps.find j = v.rma.qps.find j) ∧ u.rma.wins = v.rma.wins ∧
        SameMem v u ∧ u.facets = v.facets) ∧
      (v.rma.ctxArea = none → Ends (.rmaQpCreate c) c s 0x7007 fun u => u = v)) ∧
    (∀ v k q, s.takes rmaQpModifySpec c = true → v = s.entered rmaQpModifySpec c → v.qpByQpn qpn = some (k, q) → i = 0 ∨ q.inst = i →
      let want := fieldAt ps 4 1
      let rest (u : State) := (∀ j, j ≠ k → u.rma.qps.find j = v.rma.qps.find j) ∧ u.rma.wins = v.rma.wins ∧ u.facets = v.facets
      (want = 0 → Succeeds (.rmaQpModify c) c s [] fun u => rest u ∧ SameMem v u ∧ ∃ y, u.rma.qps.find k = some y ∧ y.state = .reset ∧
        y.reqs = [] ∧ y.unacked = [] ∧ y.resps = [] ∧ y.cons = 0 ∧ y.fetched = 0 ∧ y.cqProd = 0 ∧ y.kind = q.kind ∧ y.pd = q.pd ∧
        y.sq = q.sq ∧ y.cq = q.cq ∧ y.cipTx = q.cipTx ∧ y.cipRx = q.cipRx) ∧
      (want = 1 → q.state = .reset → Succeeds (.rmaQpModify c) c s [] fun u => rest u ∧ SameMem v u ∧
        u.rma.qps.find k = some { q with state := .init }) ∧
      (want = 2 → q.state = .init → (if bitAt (fieldAt ps 5 1) 1 then (v.wayTo v.fabric.id (fieldAt ps 28 2)).isSome = true else fieldAt ps 6 1 / 16 = q.home) →
        Succeeds (.rmaQpModify c) c s [] fun u => rest u ∧ SameMem v u ∧ u.rma.qps.find k = some { q with
          state := .rtr, dqpn := fieldAt ps 8 4, rqPsn := BitVec.ofNat 24 (fieldAt ps 12 4), mtu := fieldAt ps 20 1, respDepth := fieldAt ps 24 1
          path := pathFrom ps }) ∧
      (want = 3 → q.state = .rtr → Succeeds (.rmaQpModify c) c s [] fun u => rest u ∧ SameMem v u ∧ ∃ y, u.rma.qps.find k = some y ∧
        y.state = .rts ∧ y.retry = fieldAt ps 21 1 ∧ y.timeout = fieldAt ps 22 1 ∧ y.initDepth = fieldAt ps 23 1 ∧ y.retries = 0 ∧
        y.w = (if fieldAt ps 80 4 = 0 then 1024 * v.rma.initKib else fieldAt ps 80 4) ∧
        (∀ b, v.pathDelay q = some b → y.base = b ∧ y.probing = false ∧ y.sqPsn = BitVec.ofNat 24 (fieldAt ps 16 4)) ∧
        (v.pathDelay q = none → y.probing = true ∧ y.sqPsn = BitVec.ofNat 24 (fieldAt ps 16 4) + 1)) ∧
      (want = 4 → Succeeds (.rmaQpModify c) c s [] fun u => (∀ j, j ≠ k → u.rma.qps.find j = v.rma.qps.find j) ∧
        ∃ y, u.rma.qps.find k = some y ∧ y.state = .error ∧ y.unacked = [] ∧ y.resps = [] ∧ ∀ r ∈ y.reqs, r.status ≠ none) ∧
      ((want = 1 ∧ q.state ≠ .reset) ∨ (want = 2 ∧ q.state ≠ .init) ∨ (want = 3 ∧ q.state ≠ .rtr) →
        Ends (.rmaQpModify c) c s 0x7003 fun u => u = v)) ∧
    (∀ v k q, s.takes rmaQpDestroySpec c = true → v = s.entered rmaQpDestroySpec c → v.qpByQpn qpn = some (k, q) → i = 0 ∨ q.inst = i →
      Succeeds (.rmaQpDestroy c) c s [] fun u => u.rma.qps.find k = none ∧ (∀ j, j ≠ k → u.rma.qps.find j = v.rma.qps.find j) ∧
        u.rma.incarn.getD k 1 = (if v.rma.incarn.getD k 1 = 63 then 1 else v.rma.incarn.getD k 1 + 1) ∧ u.qpByQpn qpn = none ∧ SameMem v u ∧
        u.facets = v.facets) ∧
    (∀ v k q, s.takes rmaQpGetSpec c = true → v = s.entered rmaQpGetSpec c → v.qpByQpn qpn = some (k, q) → i = 0 ∨ q.inst = i →
      Succeeds (.rmaQpGet c) c s (leBytes 1 q.state.code ++ leBytes 1 q.kind ++ leBytes 1 (bit q.cached) ++ zeros 1 ++ leBytes 4 q.sqPsn.toNat ++
        leBytes 4 q.rqPsn.toNat ++ leBytes 4 q.retries ++ leBytes 4 q.w ++ leBytes 4 q.base ++ leBytes 8 q.cqSeq.toNat) fun u => u = v) ∧
    (∀ v n b len, s.takes rmaMwOpenSpec c = true → v = s.entered rmaMwOpenSpec c → b = fieldAt ps 8 8 → len = fieldAt ps 16 8 →
      v.winsOf own < (v.inst own).shares.mw → v.rma.pds.find (fieldAt ps 2 2) = some own → b % 4096 = 0 → len % 4096 = 0 → len ≠ 0 → len ≤ 2 ^ 40 →
      b + len ≤ 2 ^ 48 → v.rma.wins.free 65536 = some n →
      Succeeds (.rmaMwOpen c) c s (leBytes 4 (n * 65536 + (v.rma.wgen.getD n 0).toNat) ++ zeros 4) fun u => n < 65536 ∧
        v.rma.wins.find n = none ∧ (∀ j, j < n → v.rma.wins.find j ≠ none) ∧ (∀ j, j ≠ n → u.rma.wins.find j = v.rma.wins.find j) ∧
        u.rma.wins.find n = some { inst := own, pd := fieldAt ps 2 2, rd := bitAt (fieldAt ps 1 1) 0, wr := bitAt (fieldAt ps 1 1) 1, base := b, len
                                   revoking := none } ∧ u.rma.wgen = v.rma.wgen ∧ u.rma.qps = v.rma.qps ∧ SameMem v u ∧ u.facets = v.facets) ∧
    (∀ v n x, s.takes rmaMwRevokeSpec c = true → v = s.entered rmaMwRevokeSpec c → n = qpn / 65536 → v.rma.wins.find n = some x →
      i = 0 ∨ x.inst = i → x.revoking = none → v.rma.wgen.getD n 0 = BitVec.ofNat 16 qpn → Runs (.rmaMwRevoke c) s fun t =>
        t.rma.wins.find n = some { x with revoking := some (s.waiterOf c) } ∧ (∀ j, j ≠ n → t.rma.wins.find j = v.rma.wins.find j) ∧
        (∀ q addr len wr, t.keyOk q qpn addr len wr = false) ∧ (∀ k y, t.rma.qps.find k = some y → ∀ r ∈ y.resps, r.rkey / 65536 ≠ n) ∧
        t.rma.wgen = v.rma.wgen ∧ SameMem v t ∧ t.facets = v.facets ∧ t.chans = v.chans) ∧
    (∀ n x r, s.rma.wins.find n = some x → x.revoking = some r → Runs (.mwRevokeDrained n) s fun t => ∃ u : State, t = u.finish r 0 0 [] ∧
      u.rma.wins.find n = none ∧ (∀ j, j ≠ n → u.rma.wins.find j = s.rma.wins.find j) ∧ u.rma.wgen.getD n 0 = s.rma.wgen.getD n 0 + 1 ∧
      (∀ j, j ≠ n → u.rma.wgen.getD j 0 = s.rma.wgen.getD j 0) ∧
      (∀ q addr len wr rkey, rkey / 65536 = n → u.keyOk q rkey addr len wr = false) ∧ SameMem s u ∧ u.facets = s.facets) ∧
    (∀ v, s.takes rmaDbSetSpec c = true → v = s.entered rmaDbSetSpec c →
      (fieldAt ps 16 4 = 0 → Succeeds (.rmaDbSet c) c s [] fun u => u.rma.rings.find own = none ∧
        (∀ j, j ≠ own → u.rma.rings.find j = v.rma.rings.find j) ∧ SameMem v u) ∧
      (fieldAt ps 16 4 ≠ 0 → ringOk (fieldAt ps 8 8) (fieldAt ps 16 4) 0x1000 0x10_0000 = true → Succeeds (.rmaDbSet c) c s [] fun u =>
        u.rma.rings.find own = some { ring := fieldAt ps 8 8, len := fieldAt ps 16 4, pollNs := fieldAt ps 4 4, cons := 0, stopped := false } ∧
        (∀ j, j ≠ own → u.rma.rings.find j = v.rma.rings.find j) ∧ SameMem v u))

/-! ## Storage queues (spec/14) -/

/-- R354 to R358, R360, R361, R366 to R368: completions, doorbells and the admin commands. A completion entry is written at the tail
with the phase tag and the tail advances; a doorbell beyond its queue freezes the pair; queues are created and deleted with the
checks of R355; Abort ends a fetched command that has begun nothing and completes once its completion is written; features, log pages and asynchronous
events answer by the controller's state. -/
def Obligations.NvmeAdminCommands : Prop :=
  ∀ (s : State) (e : NvmeFetch) (f : Fetched) (v : State),
    let i := f.i
    let y := bitsOf (f.dw 10) 15 0
    let size := bitsOf (f.dw 10) 31 16 + 1
    let hi := bitsOf (f.dw 11) 31 16
    let base := fieldAt f.entry 24 8
    let rest (u : State) := (∀ j, j ≠ i → u.ctrl j = v.ctrl j) ∧ u.storage.nss = v.storage.nss ∧ SameMem v u ∧ u.facets = v.facets
    (∀ n q dw0 cid m, (s.ctrl i).mode = .device → (s.ctrl i).resetting = false → s.ctrlFresh i = true → s.cqOf i y = some (n, q) →
      q.stuck = [] → q.failed = false → (q.tail + 1) % q.size ≠ q.head → q.ien = false → ∀ x, s.sq i y = some x →
      s.writeBy clsHost i (q.base + 16 * q.tail) (leBytes 4 dw0 ++ zeros 4 ++ leBytes 2 x.head ++ leBytes 2 y ++ leBytes 2 cid ++
        [if q.phase then 1 else 0, 0]) = (m, .ok ()) →
      ∃ u : State, s.nvDone i y cid dw0 0 0 = u ∧ SameMem m u ∧ u.cq i n = some { q with
        tail := (q.tail + 1) % q.size, phase := if (q.tail + 1) % q.size = 0 then !q.phase else q.phase }) ∧
    (e.sq = 0 → (
      (NvTakes s e 5 f v → f.clean [(16, 8), (32, 8), (48, 16)] = true → bitsOf (f.dw 11) 15 2 = 0 → bitAt (f.dw 11) 0 = true → base % 4096 = 0 →
        1 ≤ y → y ≤ (v.ctrl i).granted → v.cq i y = none → 2 ≤ size → (bitAt (f.dw 11) 1 = true → v.vectorOk i hi = true) →
        Answers (.createIoCq e) s f 0 0 0 fun u => rest u ∧ (∀ j, j ≠ y → u.cq i j = v.cq i j) ∧ (u.ctrl i).sqs = (v.ctrl i).sqs ∧
          u.cq i y = some { base, size, head := 0, tail := 0, phase := true, ien := bitAt (f.dw 11) 1, vec := hi, coal := 0, coalAt := none
                            stuck := [], failed := false }) ∧
      (NvTakes s e 1 f v → f.clean [(16, 8), (32, 8), (48, 16)] = true → bitsOf (f.dw 11) 15 3 = 0 → bitAt (f.dw 11) 0 = true → base % 4096 = 0 →
        1 ≤ y → y ≤ (v.ctrl i).granted → v.sq i y = none → (v.ctrl i).ioSqs < (v.inst i).shares.sqp → v.allSqs < 4096 → 2 ≤ size →
        (hi ≠ 0 → v.cq i hi ≠ none → (∀ x ∈ (v.ctrl i).sqs, x.2.cq ≠ hi) → Answers (.createIoSq e) s f 0 0 0 fun u => rest u ∧
          (∀ j, j ≠ y → u.sq i j = v.sq i j) ∧ (u.ctrl i).cqs = (v.ctrl i).cqs ∧
          u.sq i y = some { base, size, head := 0, tail := 0, cq := hi, frozen := false, deleting := none }) ∧
        (hi = 0 ∨ v.cq i hi = none ∨ (∃ x ∈ (v.ctrl i).sqs, x.2.cq = hi) → Answers (.createIoSq e) s f 0 1 0 fun u => u = v)) ∧
      (∀ x, NvTakes s e 0 f v → f.clean [(16, 24), (44, 20)] = true → bitsOf (f.dw 10) 31 16 = 0 → y ≠ 0 → v.sq i y = some x →
        ((∀ k ∈ v.cmdsOf i, k.2.sq = y → k.2.begun = true ∧ k.2.due = 0) → Runs (.deleteIoSq e) s fun t =>
          t = (v.putSq i y { x with deleting := some f.cid }).nvAfter i) ∧
        (∀ k, ((v.cmdsOf i).filter fun k => k.2.sq = y && (!k.2.begun || k.2.due ≠ 0)) = [k] → Runs (.deleteIoSq e) s fun t =>
          t = ((((v.putSq i y { x with deleting := some f.cid }).dropWaiting i k.1).dropCmd k.1).nvDone i y k.2.cid 0 0 8).nvAfter i)) ∧
      (NvTakes s e 4 f v → f.clean [(16, 24), (44, 20)] = true → bitsOf (f.dw 10) 31 16 = 0 → y ≠ 0 → v.cq i y ≠ none →
        ((∀ x ∈ (v.ctrl i).sqs, x.2.cq ≠ y) → Answers (.deleteIoCq e) s f 0 0 0 fun u => rest u ∧ u.cq i y = none ∧
          (∀ j, j ≠ y → u.cq i j = v.cq i j) ∧ (u.ctrl i).sqs = (v.ctrl i).sqs) ∧
        ((∃ x ∈ (v.ctrl i).sqs, x.2.cq = y) → Answers (.deleteIoCq e) s f 0 1 0x0C fun u => u = v)) ∧
      (∀ d a ps m x, NvTakes s e 6 f v → f.clean [(16, 8)] = true → bitsOf (f.dw 10) 15 8 = 0 →
        (f.dw 10 % 256 = 1 ∧ d = identifyController i) ∨ (f.dw 10 % 256 = 2 ∧ d = padTo 4096 ((v.activeNs i f.nsid).flatMap fun n => leBytes 4 n)) ∨
          (f.dw 10 % 256 = 0 ∧ v.nsAt f.nsid = some x ∧ x.attach.contains i = true ∧ d = x.identifyData) →
        v.prps i f.entry f.list d.length true = (a, .ok ps) → a.ctrlPut i ps d = (m, true) → Answers (.identify e) s f 0 0 0 fun u => u = m) ∧
      (∀ n off p a b ps m, NvTakes s e 2 f v → f.clean [(16, 8)] = true → off = fieldAt f.entry 48 8 → off % 4 = 0 →
        n = 4 * (bitsOf (f.dw 10) 31 16 + 65536 * bitsOf (f.dw 11) 15 0 + 1) →
        (f.dw 10 % 256 = 1 ∧ p = padTo 4096 (v.ctrl i).errs.flatten ∧
          a = if bitAt (f.dw 10) 15 then v else v.modCtrl i fun c => { c with masked := c.masked.filter (· ≠ 0) }) ∨
        (f.dw 10 % 256 = 4 ∧ p = padTo 4096 (((v.ctrl i).changed.mergeSort (· ≤ ·)).flatMap fun m => leBytes 4 m) ∧
          a = if bitAt (f.dw 10) 15 then v else v.modCtrl i fun c => { c with masked := c.masked.filter (· ≠ 2), changed := [] }) →
        a.prps i f.entry f.list (padTo n (slice p off n)).length true = (b, .ok ps) → b.ctrlPut i ps (padTo n (slice p off n)) = (m, true) →
        Answers (.getLogPage e) s f 0 0 0 fun u => u = m) ∧
      (∀ n wait, NvTakes s e 8 f v → f.clean [(16, 24), (44, 20)] = true → n = bitsOf (f.dw 10) 31 16 →
        wait = (fun (u : State) (late : Bool) => (u.modCtrl i fun c =>
          { c with aborts := c.aborts ++ [{ cid := f.cid, sq := y, target := n, late }] }).finishNvAborts i) →
        (4 ≤ (v.ctrl i).aborts.length → Answers (.nvmeAbort e) s f 0 1 3 fun u => u = v) ∧
        ((v.ctrl i).aborts.length < 4 →
          (y = 0 → n ∈ (v.ctrl i).aers → Runs (.nvmeAbort e) s fun t =>
            t = (wait ((v.modCtrl i fun c => { c with aers := c.aers.erase n }).nvDone i 0 n 0 0 7) false).nvAfter i) ∧
          (∀ id c, y ≠ 0 ∨ n ∉ (v.ctrl i).aers → ((v.cmdsOf i).find? fun k => k.2.sq = y && k.2.cid = n && !k.2.begun) = some (id, c) →
            Runs (.nvmeAbort e) s fun t => t = (wait (((v.dropWaiting i id).dropCmd id).nvDone i y c.cid 0 0 7) false).nvAfter i) ∧
          (y ≠ 0 ∨ n ∉ (v.ctrl i).aers → (∀ k ∈ v.cmdsOf i, k.2.sq = y → k.2.cid = n → k.2.begun = true) →
            Runs (.nvmeAbort e) s fun t => t = (wait v true).nvAfter i))) ∧
      (NvTakes s e 9 f v → f.clean [(16, 8)] = true →
        (f.dw 10 = 1 → Answers (.setFeatures e) s f 0 0 0 fun u => rest u ∧ (u.ctrl i).feat = { (v.ctrl i).feat with arb := BitVec.ofNat 32 (f.dw 11) }) ∧
        (f.dw 10 = 8 → Answers (.setFeatures e) s f 0 0 0 fun u => rest u ∧ (u.ctrl i).feat = { (v.ctrl i).feat with coal := BitVec.ofNat 32 (f.dw 11) }) ∧
        (∀ n, f.dw 10 = 7 → f.dw 11 % 65536 ≠ 0xFFFF → f.dw 11 / 65536 ≠ 0xFFFF → (v.ctrl i).ioSqs = 0 → (∀ k ∈ (v.ctrl i).cqs, k.1 = 0) →
          n = min (min (f.dw 11 % 65536 + 1) (f.dw 11 / 65536 + 1)) (min 4095 (v.inst i).shares.sqp) → n ≠ 0 →
          Answers (.setFeatures e) s f ((n - 1) * 65537) 0 0 fun u => rest u ∧ (u.ctrl i).granted = n) ∧
        (f.dw 10 = 2 → 2 < f.dw 11 % 32 → Answers (.setFeatures e) s f 0 0 2 fun u => u = v) ∧
        (f.dw 10 = 2 → f.dw 11 % 32 ≤ 2 → Answers (.setFeatures e) s f 0 0 0 fun u => (u.ctrl i).ps = f.dw 11 % 32 ∧
          (∀ j, j ≠ i → u.ctrl j = v.ctrl j) ∧ SameMem v u)) ∧
      (NvTakes s e 0x0A f v → f.clean [(16, 8)] = true →
        (f.dw 10 = 1 → Answers (.getFeatures e) s f (v.ctrl i).feat.arb.toNat 0 0 fun u => u = v) ∧
        (f.dw 10 = 8 → Answers (.getFeatures e) s f (v.ctrl i).feat.coal.toNat 0 0 fun u => u = v) ∧
        (f.dw 10 = 7 → Answers (.getFeatures e) s f (((v.ctrl i).granted - 1) * 65537) 0 0 fun u => u = v)) ∧
      (NvTakes s e 0x0C f v → f.clean [(16, 48)] = true →
        (4 ≤ (v.ctrl i).aers.length → Answers (.asynchronousEventRequest e) s f 0 1 5 fun u => u = v) ∧
        ((v.ctrl i).aers.length < 4 → (v.ctrl i).aens = [] → Runs (.asynchronousEventRequest e) s fun t => ∃ u : State, t = u.nvAfter i ∧
          u.ctrl i = { v.ctrl i with aers := (v.ctrl i).aers ++ [f.cid] } ∧ rest u)))) ∧
    (∀ fn off w k, s.barServes fn k = true → (s.ctrl k).mode = .host → (s.ctrl k).resetting = false → (s.ctrl k).cfs = false → 0x1000 ≤ off →
      off < 0x10000 → off % 8 = 0 → ∀ x a, s.sq k ((off - 0x1000) / 8) = some x → x.frozen = false → a = w.toNat % 65536 →
      (a < x.size → a ≠ x.tail → Runs (.sqDoorbellWrite fn off w) s fun t => ∃ u : State, t = u.nvAfter k ∧
        u.sq k ((off - 0x1000) / 8) = some { x with tail := a } ∧ (∀ j, j ≠ k → u.ctrl j = s.ctrl j) ∧ SameMem s u) ∧
      (x.size ≤ a → Runs (.sqDoorbellWrite fn off w) s fun t => ∃ u : State, t = (u.asyncEvent k 0 1 1).nvAfter k ∧
        u.sq k ((off - 0x1000) / 8) = some { x with frozen := true } ∧ (u.ctrl k).errCnt = (s.ctrl k).errCnt + 1 ∧ SameMem s u)) ∧
    (∀ k q m b u, (s.ctrl k).mode = .device → s.power.rung < 2 → (s.ctrl k).sqs = [(0, q)] →
      s.readBy clsHost k (s.ctrl k).dbArea 32768 = (m, .ok b) → u = m.nvDoorbell k 0 false (fieldAt b 0 4) → (u.ctrl k).cqs.map (·.1) = [0] →
      Runs (.doorbellAreaPoll k) s fun t => t = (u.nvDoorbell k 0 true (fieldAt b 4 4)).nvAfter k)

/-- R358, R360, R361, R363 to R365, R372, R373, R375, R376, R404: I/O commands and drives. An entry that fails a check of R358 answers
its status and begins nothing; a command of a drive's namespace goes to the drive in drive LBAs; a Flush waits for the writes
fetched before it; an HBM access moves the bytes and ends; a drive that is late is aborted, then reset. -/
def Obligations.NvmeInputOutput : Prop :=
  ∀ (s : State),
    (∀ (e : NvmeFetch) (f : Fetched) (v : State), e.sq ≠ 0 →
      let i := f.i
      let slba := fieldAt f.entry 40 8
      let n := bitsOf (f.dw 12) 15 0 + 1
      let id := v.storage.nextCmd
      (f.nsid = 0 ∨ (∀ x, v.nss (f.nsid - 1) = some x → x.attach.contains i = false) →
        (NvTakes s e 0 f v → f.clean [(16, 48)] = true → Answers (.nvmFlush e) s f 0 0 0x0B fun u => u = v) ∧
        (NvTakes s e 1 f v → rwClean f = true → Answers (.nvmWrite e) s f 0 0 0x0B fun u => u = v) ∧
        (NvTakes s e 2 f v → rwClean f = true → Answers (.nvmRead e) s f 0 0 0x0B fun u => u = v)) ∧
      (∀ x, f.nsid ≠ 0 → v.nss (f.nsid - 1) = some x → x.attach.contains i = true → x.cipher = false →
        (NvTakes s e 2 f v → rwClean f = true → n ≤ (if x.lba4k then 512 else 4096) → x.size < slba + n →
          Answers (.nvmRead e) s f 0 0 0x80 fun u => u = v) ∧
        (NvTakes s e 2 f v → rwClean f = true → (if x.lba4k then 512 else 4096) < n → Answers (.nvmRead e) s f 0 0 2 fun u => u = v) ∧
        (NvTakes s e 0 f v → f.clean [(16, 48)] = true → Runs (.nvmFlush e) s fun t => ∃ (u : State) (c : NvCmd), t = u.nvAfter i ∧
          u.storage.cmds.find id = some c ∧ c.op = .flush ∧ c.begun = false ∧ c.ns = f.nsid - 1 ∧ c.ctrl = i ∧ c.cid = f.cid ∧
          (∃ copies, copies = (v.parcels.filter fun p => p.2.ckp.conf.any fun k => k.kind = 1 && k.nsid = f.nsid) ∧
            c.waits = (v.storage.cmds.filter fun k => k.2.ns = f.nsid - 1 && (k.2.op = .write || k.2.op = .zeroes || k.2.op = .deallocate)).map
              (·.1) ++ copies.flatMap (·.2.ckp.outs) ∧ c.posts = copies.flatMap (·.2.ckp.posts)) ∧
          (∀ k, k ≠ id → u.storage.cmds.find k = v.storage.cmds.find k) ∧ SameMem v u ∧ u.facets = v.facets) ∧
        (∀ a ps, NvTakes s e 2 f v → rwClean f = true → n ≤ (if x.lba4k then 512 else 4096) → slba + n ≤ x.size →
          v.prps i f.entry f.list (n * x.lba) true = (a, .ok ps) →
          (x.kind = 2 → Runs (.nvmRead e) s fun t => ∃ (u : State) (c : NvCmd), t = u.nvAfter i ∧ u.storage.cmds.find id = some c ∧
            c.op = .read ∧ c.begun = true ∧ c.slba = slba ∧ c.nlb = n ∧ c.prps = ps ∧ c.ctrl = i ∧ c.cid = f.cid ∧ SameMem a u) ∧
          (x.kind = 1 → v.driveReady x.port = true → Runs (.nvmRead e) s fun t => ∃ (u : State) (c : NvCmd), t = u.nvAfter i ∧
            u.storage.cmds.find id = some c ∧ c.op = .read ∧ c.begun = true ∧ SameMem a u ∧
            u.emitted = a.emitted ++ [.driveCommand x.port x.drvNs .read (bitAt (f.dw 12) 30) (x.base + slba) n [] id])) ∧
        (∀ a ps b d, NvTakes s e 1 f v → rwClean f = true → n ≤ (if x.lba4k then 512 else 4096) → slba + n ≤ x.size →
          v.prps i f.entry f.list (n * x.lba) false = (a, .ok ps) → ps ≠ [] → (v.ctrl i).mode = .device →
          a.newId.2.ctrlGet i ps = (b, some d) → (∀ c, (a.newId.2.putCmd id c).ctrlGet i ps = (b.putCmd id c, some d)) →
          (x.kind = 2 → Runs (.nvmWrite e) s fun t => ∃ (u : State) (c : NvCmd), t = u.nvAfter i ∧ u.storage.cmds.find id = some c ∧
            c.op = .write ∧ c.begun = true ∧ c.slba = slba ∧ c.nlb = n ∧ c.data = d ∧ c.ctrl = i ∧ c.cid = f.cid ∧ SameMem b u) ∧
          (x.kind = 1 → v.driveReady x.port = true → b.drive x.port = v.drive x.port → Runs (.nvmWrite e) s fun t => ∃ u : State, t = u.nvAfter i ∧
            SameMem b u ∧ u.emitted = b.emitted ++ [.driveCommand x.port x.drvNs .write
              (bitAt (f.dw 12) 30 || !(b.ctrl i).feat.vwc.getLsbD 0) (x.base + slba) n d id])) ∧
        (NvTakes s e 8 f v → f.clean [(16, 24), (52, 4)] = true → bitsOf (f.dw 12) 23 16 = 0 → n ≤ (if x.lba4k then 512 else 4096) →
          slba + n ≤ x.size → x.kind = 2 → Runs (.writeZeroes e) s fun t => ∃ (u : State) (c : NvCmd), t = u.nvAfter i ∧
            u.storage.cmds.find id = some c ∧ c.op = .zeroes ∧ c.begun = true ∧ c.slba = slba ∧ c.nlb = n ∧ SameMem v u) ∧
        (∀ a ps b d, NvTakes s e 9 f v → f.clean [(16, 8), (48, 16)] = true → f.dw 10 = 0 → f.dw 11 = 4 →
          v.prps i f.entry f.list 16 false = (a, .ok ps) → a.ctrlGet i ps = (b, some d) → b.nss (f.nsid - 1) = some x →
          fieldAt d 8 8 + fieldAt d 4 4 ≤ x.size → x.kind = 2 → b.storage.nextCmd = id → Runs (.datasetManagement e) s fun t =>
            ∃ (u : State) (c : NvCmd), t = u.nvAfter i ∧ u.storage.cmds.find id = some c ∧ c.op = .deallocate ∧ c.begun = true ∧
              c.slba = fieldAt d 8 8 ∧ c.nlb = fieldAt d 4 4 ∧ c.more = [] ∧ SameMem b u))) ∧
    (∀ id c x r o, s.storage.cmds.find id = some c → s.nss c.ns = some x → c.begun = true → c.due = 0 → c.fail = none →
      (x.kind = 2 → c.dead = false → c.key = none →
        (∀ m, c.op = .write → s.saveAt none (x.base + c.slba * x.lba) c.data = .ok m → Runs (.backingComplete id .ok) s fun t =>
          t = m.nvEnd id c (0, 0)) ∧
        (∀ m, c.op = .read → s.goodLbas (x.base + c.slba * x.lba) x.lba c.nlb = c.nlb →
          s.ctrlFresh c.ctrl = true → s.ctrlPut c.ctrl c.prps ((s.readBytes (x.base + c.slba * x.lba) (c.nlb * x.lba)).take (c.nlb * x.lba)) = (m, true) →
          Runs (.backingComplete id .ok) s fun t => t = m.nvEnd id c (0, 0)) ∧
        (c.op = .read → c.nlb = 1 → s.rangeBad (x.base + c.slba * x.lba) x.lba = true → s.ctrlFresh c.ctrl = true → Runs (.backingComplete id o) s fun t =>
          ∃ u : State, t = u.nvEnd id c (2, 0x81) ∧ SameMem s u) ∧
        (c.op = .flush → Runs (.backingComplete id o) s fun t => t = s.nvEnd id c (0, 0))) ∧
      (x.kind = 3 → ∀ n d, c.op = .write → c.eng = some n → s.rma.engDone.find n = some d → Runs (.backingComplete id o) s fun t =>
        t = ({ s with rma := { s.rma with engDone := Tbl.del s.rma.engDone n } }).nvEnd id c (if d.ok then (0, 0) else (0, 0x21))) ∧
      (x.kind = 1 → c.aborted = none → c.dead = false → c.op = .write →
        (r.code = .ok → Runs (.driveCompletionReceive id r) s fun t => t = s.nvEnd id c (0, 0)) ∧
        (r.code = .writeFault → Runs (.driveCompletionReceive id r) s fun t => t = s.nvEnd id c (2, 0x80)) ∧
        (r.code = .unreachable → Runs (.driveCompletionReceive id r) s fun t => t = s.nvEnd id c (0, 0x21))) ∧
      (x.kind = 1 → ∀ t0, c.aborted = some t0 →
        (Runs (.driveCompletionReceive id r) s fun t => t = s.nvEnd id c (0, 0x21)) ∧
        (Runs (.driveResetTimeout id) s fun t => t = ((s.reach (t0 + 1000000000)).nvEnd id c (0, 0x21)).resetDrive x.port)) ∧
      (x.kind = 1 → c.aborted = none → Runs (.driveTimeout id) s fun t => c.at_ + s.storage.drvto * 1000000 ≤ t.now ∧
        t.storage.cmds.find id = some { c with aborted := some t.now } ∧ t.emitted = s.emitted ++ [.driveAdmin x.port 1 id] ∧
        t.storage.stats.getD 3 0 = s.storage.stats.getD 3 0 + 1 ∧ SameMem s t ∧ (∀ k, k ≠ id → t.storage.cmds.find k = s.storage.cmds.find k))) ∧
    (∀ id w n r, s.storage.cmds.find id = none → s.storage.deletes.find id = some (w, n) → r.code = .ok →
      Runs (.driveCompletionReceive id r) s fun t => t = ({ s with storage := { s.storage with
        deletes := Tbl.del s.storage.deletes id, nss := Tbl.del s.storage.nss n } }).finish w 0 0 []) ∧
    (∀ port d, s.boot.phase = .running → s.pins.prsnt.getD port false = false → port < 8 → Runs (.driveLinkUp port d) s fun t =>
      ∃ u : State, t = u.drivesPower ∧ (u.rootPort port).state = (if d.classCode = nvmeClass then .up else .failed) ∧
        (u.drive port).state = (if d.classCode = nvmeClass then .ready else .failed) ∧ (d.classCode = nvmeClass → (u.drive port).nss = d.namespaces) ∧
        (∀ p, p ≠ port → u.drive p = s.drive p) ∧ SameMem s u ∧ u.facets = s.facets) ∧
    (∀ port, (s.rootPort port).state = .up → Runs (.rootPortLinkDown port) s fun t => ∃ u : State, t = u.endDrive port (0, 0x82) ∧
      (u.rootPort port).state = .down ∧ (u.drive port).state = .training ∧ u.pins.rpPerst.getD port false = true ∧ SameMem s u ∧
      (∀ p, p ≠ port → u.drive p = s.drive p)) ∧
    (∀ port, Runs (.rootPortAerError port false) s fun t => (t.rootPort port).errors = min 0xFFFFFFFF ((s.rootPort port).errors + 1) ∧
      SameMem s t ∧ t.facets = s.facets ∧ t.storage = s.storage) ∧
    (∀ port, (s.drive port).state = .ready → Runs (.rootPortAerError port true) s fun t => ∃ u : State, t = u.resetDrive port ∧
      (u.rootPort port).errors = min 0xFFFFFFFF ((s.rootPort port).errors + 1) ∧ u.storage = s.storage ∧ SameMem s u) ∧
    (∀ i t0 ms, ms = bitsOf (fieldAt (s.ctrl i).feat.apstTab 0 8) 31 8 → (s.ctrl i).idleAt = some t0 → (s.ctrl i).mode ≠ .off →
      (s.ctrl i).feat.apst.getLsbD 0 = true → (s.ctrl i).ps = 0 → ms ≠ 0 → ∀ ps, ps = bitsOf (fieldAt (s.ctrl i).feat.apstTab 0 8) 7 3 →
      ps = 1 ∨ ps = 2 → Runs (.apstIdleExpire i) s fun t => (t.ctrl i).ps = ps ∧ t.now = max s.now (t0 + ms * 1000000) ∧
        (∀ j, j ≠ i → t.ctrl j = s.ctrl j) ∧ SameMem s t) ∧
    (∀ i k q fn t0, s.cq i k = some q → s.fnOf i = some fn → q.coalAt = some t0 → Runs (.aggregationTimeExpire i k) s fun t =>
      ∃ u : State, t = u.msix fn q.vec ∧ u.cq i k = some { q with coal := 0, coalAt := none } ∧ s.now ≤ u.now ∧ t0 ≤ u.now ∧ SameMem s u)

/-- R352, R353, R361, R362, R365, R369, R370, R376: controllers enabled, reset and shut down from either side, and the storage commands.
STO_CTRL_EN is refused while the controller is Host; a namespace takes the lowest number that is free and its range is zeroed when it
goes, once no command on it is in progress; a copy of plain HBM namespaces moves the bytes and charges both owners. -/
def Obligations.StorageCommands : Prop :=
  ∀ (s : State) (c : Cmd),
    let ps := c.pkt.params
    let i := fieldAt ps 0 1
    let nsid := fieldAt ps 0 4
    (∀ v, s.takes stoCtrlEnSpec c = true → v = s.entered stoCtrlEnSpec c →
      ((v.ctrl i).mode = .host → Ends (.stoCtrlEn c) c s 0x8001 fun u => u = v) ∧
      ((v.ctrl i).mode = .off → fieldAt ps 1 1 = 1 → v.mapsRd i (fieldAt ps 8 8) (64 * (fieldAt ps 2 2 + 1)) = true →
        v.mapsRw i (fieldAt ps 16 8) (16 * (fieldAt ps 4 2 + 1)) = true → v.mapsRd i (fieldAt ps 24 8) 32768 = true →
        Succeeds (.stoCtrlEn c) c s [] fun u => (u.ctrl i).mode = .device ∧ (u.ctrl i).rdy = true ∧ (u.ctrl i).gen = v.genOf i ∧
          (∃ q, (u.ctrl i).sqs = [(0, q)] ∧ q.base = fieldAt ps 8 8 ∧ q.size = fieldAt ps 2 2 + 1 ∧ q.head = 0 ∧ q.tail = 0) ∧
          (∃ q, (u.ctrl i).cqs = [(0, q)] ∧ q.base = fieldAt ps 16 8 ∧ q.size = fieldAt ps 4 2 + 1 ∧ q.head = 0 ∧ q.tail = 0) ∧
          (u.ctrl i).dbArea = fieldAt ps 24 8 ∧ (∀ j, j ≠ i → u.ctrl j = v.ctrl j) ∧ SameMem v u) ∧
      ((v.ctrl i).mode = .device → (v.ctrl i).resetting = false →
        (fieldAt ps 1 1 = 0 → (v.ctrl i).enWait = none → Runs (.stoCtrlEn c) s fun t => t = (v.modCtrl i fun k => { k with enWait := some (s.waiterOf c) }).ctrlReset i) ∧
        (fieldAt ps 1 1 = 2 → (v.ctrl i).shst = 0 → Runs (.stoCtrlEn c) s fun t =>
          t = ((v.modCtrl i fun k => { k with enWait := some (s.waiterOf c) }).modCtrl i fun k => { k with shst := 1 }).nvAfter i) ∧
        (∀ w, fieldAt ps 1 1 = 0 → (v.ctrl i).enWait = some w → Runs (.stoCtrlEn c) s fun t =>
          t = ((v.finish w 0x8001 0 []).modCtrl i fun k => { k with enWait := some (s.waiterOf c) }).ctrlReset i))) ∧
    (∀ v, s.takes stoCtrlStatusSpec c = true → v = s.entered stoCtrlStatusSpec c →
      Succeeds (.stoCtrlStatus c) c s (leBytes 8 (v.nvcCtrl i).toNat ++ leBytes 8 (v.ctrl i).errCnt.toNat) fun u => u = v) ∧
    (∀ k, k < 64 → (s.rail 6).set ≠ 0 → Runs (.nvcCtrlRead k) s fun t => ∃ u : State, t = u.emit (.readback (s.nvcCtrl k)) ∧ u.ctrl k = { s.ctrl k with lost := 0 } ∧
      (∀ j, j ≠ k → u.ctrl j = s.ctrl j) ∧ SameMem s u ∧ u.facets = s.facets) ∧
    (∀ fn k w, s.barServes fn k = true →
      ((s.ctrl k).mode = .off → (s.ctrl k).resetting = false → w = 0x00460001 → Runs (.ccEnWrite fn w) s fun t => (t.ctrl k).mode = .host ∧
        (t.ctrl k).rdy = true ∧ (t.ctrl k).gen = s.genOf k ∧ (t.ctrl k).cc = w ∧
        (∃ q, (t.ctrl k).sqs = [(0, q)] ∧ q.base = (s.ctrl k).asq.toNat / 4096 * 4096 ∧ q.size = bitsOf (s.ctrl k).aqa.toNat 11 0 + 1) ∧
        (∃ q, (t.ctrl k).cqs = [(0, q)] ∧ q.base = (s.ctrl k).acq.toNat / 4096 * 4096 ∧ q.size = bitsOf (s.ctrl k).aqa.toNat 27 16 + 1) ∧
        (∀ j, j ≠ k → t.ctrl j = s.ctrl j) ∧ SameMem s t) ∧
      ((s.ctrl k).mode = .device → Runs (.ccEnWrite fn w) s fun t => t = s) ∧
      ((s.ctrl k).mode = .host → w.getLsbD 0 = false → Runs (.ccEnWrite fn w) s fun t =>
        t = (s.modCtrl k fun x => { x with cc := w, heldCc := none }).ctrlReset k) ∧
      ((s.ctrl k).mode = .host → bitsOf w.toNat 15 14 = 1 ∨ bitsOf w.toNat 15 14 = 2 → (s.ctrl k).shst = 0 → (s.ctrl k).resetting = false →
        Runs (.ccShnWrite fn w) s fun t => ∃ u : State, t = u.nvAfter k ∧ u.ctrl k = { s.ctrl k with cc := w, shst := 1 } ∧
          (∀ j, j ≠ k → u.ctrl j = s.ctrl j) ∧ SameMem s u)) ∧
    (∀ v n x, s.takes stoNsCreateSpec c = true → v = s.entered stoNsCreateSpec c →
      x = { kind := fieldAt ps 1 1, owner := i, lba4k := fieldAt ps 2 1 = 12, cipher := bitAt (fieldAt ps 3 1) 0, ciph := fieldAt ps 4 2
            port := fieldAt ps 6 1, base := fieldAt ps 16 8, size := fieldAt ps 8 8, drvNs := fieldAt ps 24 4, qp := fieldAt ps 28 4
            rkey := fieldAt ps 32 4, attach := [i] } →
      v.nsOf i < (v.inst i).shares.ns → v.storage.nss.free 1024 = some n →
      (v.backingOk x = true → (x.cipher = true → ∃ k, v.cipher.ctxs.find x.ciph = some k ∧ k.owner = i) →
        Succeeds (.stoNsCreate c) c s (leBytes 4 (n + 1) ++ zeros 4) fun u => ∃ u0 : State, u = u0.nsChanged i n ∧ n < 1024 ∧
          v.storage.nss.find n = none ∧ u0.storage.nss.find n = some x ∧ (∀ k, k ≠ n → u0.storage.nss.find k = v.storage.nss.find k) ∧
          SameMem v u0) ∧
      (v.backingOk x = false → Ends (.stoNsCreate c) c s 0x8006 fun u => u = v)) ∧
    (∀ v x, s.takes stoNsDeleteSpec c = true → v = s.entered stoNsDeleteSpec c → v.nsAt nsid = some x →
      ((∃ k ∈ x.attach, k ≠ x.owner) → Ends (.stoNsDelete c) c s 0x8005 fun u => u = v) ∧
      ((∀ k ∈ x.attach, k = x.owner) → v.storage.closing = [] → ∀ y n z w, w = s.waiterOf c → n = nsid - 1 →
        y = (v.putNs n { x with attach := [] }).nsChanged x.owner n → z = y.zeroStore x.base (x.size * x.lba) →
        ((∃ e ∈ v.storage.cmds, e.2.ns = n) → Runs (.stoNsDelete c) s fun t =>
          t = { y with storage := { y.storage with closing := [(n, w)] } }) ∧
        ((∀ e ∈ v.storage.cmds, e.2.ns ≠ n) →
          (x.kind = 2 → Runs (.stoNsDelete c) s fun t =>
            t = ({ z with storage := { z.storage with nss := Tbl.del z.storage.nss n } }).finish w 0 0 []) ∧
          (x.kind = 1 → v.driveReady x.port = true → Runs (.stoNsDelete c) s fun t =>
            t.emitted = y.emitted ++ [.driveCommand x.port x.drvNs .zeroes true x.base x.size [] y.storage.nextCmd] ∧
            t.storage.nss = y.storage.nss ∧ t.storage.deletes.find y.storage.nextCmd = some (w, n) ∧ SameMem y t)))) ∧
    (∀ v x k on, s.takes stoNsAttachSpec c = true → v = s.entered stoNsAttachSpec c → v.nsAt nsid = some x → k = fieldAt ps 4 1 →
      on = bitAt (fieldAt ps 5 1) 0 →
      (x.attach.contains k = on → Succeeds (.stoNsAttach c) c s [] fun u => u = v) ∧
      (x.attach.contains k ≠ on → Succeeds (.stoNsAttach c) c s [] fun u => ∃ u0 : State, u = (u0.nsChanged k (nsid - 1)).drivesPower ∧
        u0.storage.nss.find (nsid - 1) = some { x with attach := if on then x.attach ++ [k] else x.attach.filter (· ≠ k) } ∧
        (∀ j, j ≠ nsid - 1 → u0.storage.nss.find j = v.storage.nss.find j) ∧ SameMem v u0)) ∧
    (∀ v x y m sl dl n, s.takes stoNsCopySpec c = true → v = s.entered stoNsCopySpec c → v.nsAt nsid = some x → v.nsAt (fieldAt ps 4 4) = some y →
      sl = fieldAt ps 8 8 → dl = fieldAt ps 16 8 → n = fieldAt ps 24 4 →
      (x.lba4k ≠ y.lba4k ∨ x.size < sl + n ∨ y.size < dl + n → Ends (.stoNsCopy c) c s 0x8008 fun u => u = v) ∧
      (x.lba4k = y.lba4k → sl + n ≤ x.size → dl + n ≤ y.size → x.cipher = false → y.cipher = false → x.kind = 2 → y.kind = 2 →
        n * x.lba ≤ granule → v.rangeBad (x.base + sl * x.lba) (n * x.lba) = false →
        v.saveAt none (y.base + dl * y.lba) (v.readBytes (x.base + sl * x.lba) (n * x.lba)) = .ok m → Succeeds (.stoNsCopy c) c s [] fun u =>
          u = (m.charge x.owner 5 (n * x.lba)).charge y.owner 6 (n * x.lba))) ∧
    (∀ v d, s.takes stoDriveStatusSpec c = true → v = s.entered stoDriveStatusSpec c → d = v.drive i → Succeeds (.stoDriveStatus c) c s
      (leBytes 1 (match d.state with | .absent => 0 | .training => 1 | .ready => 2 | .failed => 3) ++ leBytes 1 d.nss.length ++ zeros 2 ++
        leBytes 4 d.exitUs) fun u => u = v)

/-! ## The PCIe endpoint and device sharing (spec/15) -/

/-- A function with no master read under way or waiting and no Host controller. -/
def quietFn (s : State) (fn : Nat) : Prop :=
  (s.fn fn).waiting = [] ∧ (s.fn fn).reads = [] ∧ ∀ i, (s.fn fn).bound = some i → (s.ctrl i).mode ≠ .host

/-- R377 to R379, R382, R384, R385, R389 to R397, R400, R404, R405: requests, completions, resets and links. A read leaves with the lowest
free tag or fails with its reason; a piece is written only if it fits, and any other ends the read; a time-out quarantines the tag;
a reset of a function keeps its binding, windows, written-page logging and the sticky error and PME bits, and returns the rest to reset
values; inbound requests
act through their window or are refused. -/
def Obligations.EndpointRows : Prop :=
  ∀ (s : State) (fn : Nat),
    let x := s.fn fn
    let reset0 (j : Nat) : PceFn :=
      { PceFn.initial j with
        bound := (s.fn j).bound, dlog := (s.fn j).dlog, quarantine := (s.fn j).quarantine, aer := (s.fn j).aer, pmeEn := (s.fn j).pmeEn
        pmeStat := (s.fn j).pmeStat }
    let frame (t : State) := (∀ j, j ≠ fn → t.fn j = s.fn j) ∧ t.pcie.inWin = s.pcie.inWin ∧ t.pcie.outWin = s.pcie.outWin ∧ SameMem s t
    (∀ r rest, x.waiting = r :: rest →
      (∀ f g off tag, r.dest = .facet f g off → s.pcie.linkUp = true → s.mayMaster fn = true → s.freeTag fn = some tag → s.readsOut < 4096 →
        s.bufferUsed + r.len ≤ 0x20_0000 → Runs (.masterReadIssue fn) s fun t => frame t ∧ t.facets = s.facets ∧
          t.fn fn = { x with waiting := rest, reads := x.reads ++ [{ r with tag, sent := s.now }] } ∧
          t.emitted = s.emitted ++ [.memRead fn tag r.addr r.len] ∧ (∀ y ∈ x.reads, y.tag ≠ tag) ∧ (∀ y ∈ x.quarantine, y.1 ≠ tag)) ∧
      (s.pcie.linkUp = false → Runs (.masterReadIssue fn) s fun t => ∃ u : State, t = u.readFailed fn 1 r ∧ frame u ∧
        u.fn fn = { x with waiting := rest } ∧ u.pcie.stats.getD 7 0 = s.pcie.stats.getD 7 0 + 1) ∧
      (s.pcie.linkUp = true → s.mayMaster fn = false → Runs (.masterReadIssue fn) s fun t => ∃ u : State, t = u.readFailed fn 2 r ∧ frame u ∧
        u.fn fn = { x with waiting := rest })) ∧
    (∀ pc r, pc.fn = fn → x.read pc.tag = some r →
      let gone (u : State) := frame u ∧ (u.fn fn).reads = x.reads.filter fun y => y.tag ≠ pc.tag
      (s.genOf r.inst ≠ r.gen → r.len ≤ r.got + pc.payload.length → Runs (.completionReceive pc) s fun t => gone t ∧ t.facets = s.facets ∧
        t.storage = s.storage ∧ t.pcie.stats.getD 3 0 = s.pcie.stats.getD 3 0 + 1) ∧
      (s.genOf r.inst = r.gen → pc.status ≠ 0 → Runs (.completionReceive pc) s fun t => ∃ u : State, t = u.readFailed fn 5 r ∧ gone u) ∧
      (s.genOf r.inst = r.gen → pc.status = 0 → pc.ep = true → Runs (.completionReceive pc) s fun t => ∃ u : State, t = u.readFailed fn 6 r ∧ gone u ∧
        (u.fn fn).aer.ustat.getLsbD 12 = true) ∧
      (s.genOf r.inst = r.gen → pc.status = 0 → pc.ep = false → s.fits r pc = false → Runs (.completionReceive pc) s fun t =>
        ∃ u : State, t = u.readFailed fn 7 r ∧ gone u ∧ (u.fn fn).aer.ustat.getLsbD 16 = true) ∧
      (∀ id off c, s.genOf r.inst = r.gen → pc.status = 0 → pc.ep = false → s.fits r pc = true → r.dest = .command id off →
        s.storage.cmds.find id = some c → r.got + pc.payload.length < r.len → c.due ≠ 0 → Runs (.completionReceive pc) s fun t => frame t ∧
          (t.fn fn).reads = x.reads.map (fun y => if y.tag = r.tag then { y with got := r.got + pc.payload.length } else y) ∧
          t.storage.cmds.find id = some { c with data := overlay c.data (off + r.got) pc.payload } ∧
          (∀ k, k ≠ id → t.storage.cmds.find k = s.storage.cmds.find k))) ∧
    (∀ pc, pc.fn = fn → x.read pc.tag = none →
      ((∀ q ∈ x.quarantine, q.1 ≠ pc.tag) → Runs (.completionReceive pc) s fun t => t = s.unexpected fn) ∧
      (∀ q, (x.quarantine.find? fun q => q.1 = pc.tag) = some q → Runs (.completionReceive pc) s fun t => t = if q.2.2 then s else s.unexpected fn)) ∧
    (∀ tag r lim, x.read tag = some r → lim = timeoutNs (x.devCtl2.toNat % 16) → s.genOf r.inst = r.gen → Runs (.completionTimeout fn tag) s fun t =>
      ∃ u : State, t = u.readFailed fn 4 r ∧ frame u ∧ r.sent + lim ≤ u.now ∧ (u.fn fn).reads = x.reads.filter (fun y => y.tag ≠ tag) ∧
        (u.fn fn).quarantine = x.quarantine ++ [(tag, u.now + 2 * lim, false)] ∧ (u.fn fn).aer.ustat.getLsbD 14 = true ∧
        u.pcie.stats.getD 1 0 = s.pcie.stats.getD 1 0 + 1) ∧
    (∀ tag q, (x.quarantine.find? fun q => q.1 = tag) = some q → Runs (.tagQuarantineEnd fn tag) s fun t => frame t ∧ t.facets = s.facets ∧
      t.now = max s.now q.2.1 ∧ t.fn fn = { x with quarantine := x.quarantine.filter fun y => y.1 ≠ tag }) ∧
    (x.waiting = [] → Runs (.busMasterDisable fn) s fun t => frame t ∧ t.facets = s.facets ∧
      t.fn fn = { x with cmd := x.cmd &&& ~~~(4 : BitVec 32) } ∧ t.mayMaster fn = false) ∧
    (fn ≠ 0 → quietFn s fn → Runs (.functionLevelReset fn) s fun t => frame t ∧ t.facets = s.facets ∧ t.storage = s.storage ∧
      t.fn fn = reset0 fn ∧ (t.chan (fn + 2)).inProg = [] ∧ (t.chan (fn + 2)).held = [] ∧ (t.chan (fn + 2)).bound = (s.chan (fn + 2)).bound) ∧
    (s.pcie.vfEnable = true → (∀ j, 1 ≤ j → j ≤ 63 → quietFn s j) → Runs .vfEnableClear s fun t => t.pcie.vfEnable = false ∧ SameMem s t ∧
      t.facets = s.facets ∧ t.fn 0 = s.fn 0 ∧ (∀ ch, ch < 3 ∨ 65 < ch → t.chan ch = s.chan ch) ∧
      ∀ j, 1 ≤ j → j ≤ 63 → (t.chan (j + 2)).state = .disabled ∧ (t.chan (j + 2)).bound = (s.chan (j + 2)).bound ∧
        t.fn j = reset0 j) ∧
    (s.pcie.linkUp = true → (∀ j, j ≤ 63 → quietFn s j) → Runs .hotReset s fun t => t.pcie.link = .training ∧ t.pcie.linkUp = false ∧ t.pcie.vfEnable = false ∧
      t.pcie.numVfs = 0 ∧ t.pcie.pfLog2 = s.pcie.nextPf ∧ t.pcie.vfLog2 = s.pcie.nextVf ∧ SameMem s t ∧ t.facets = s.facets ∧
      ∀ j, j ≤ 63 → t.fn j = reset0 j) ∧
    (x.d3 = false → x.waiting = [] → Runs (.d3hotEntry fn true) s fun t => frame t ∧ t.facets = s.facets ∧ t.fn fn = { x with d3 := true } ∧
      t.mayMaster fn = false) ∧
    (x.d3 = true → (s.chan (fn + 2)).held = [] → x.msix = [] → Runs (.d3hotEntry fn false) s fun t => frame t ∧ t.facets = s.facets ∧
      t.fn fn = { x with d3 := false }) ∧
    (x.d3 = true → Runs (.d3hotEntry fn false) s fun t =>
      t = ((s.modFn fn fun y => { y with d3 := false }).flushReplies (fn + 2)).flushMsix fn) ∧
    (s.pcie.linkUp = true → Runs .pmeTurnOff s fun t => t.emitted = s.emitted ++ [.message 0 5] ∧ t.pcie = { s.pcie with link := .l23 } ∧
      SameMem s t ∧ t.facets = s.facets) ∧
    ((s.pcie.link = .training → Runs .endpointLinkRetry s fun t => t.pcie = { s.pcie with link := .down, downAt := s.now } ∧ SameMem s t) ∧
     (s.pcie.link = .down → Runs .endpointLinkRetry s fun t => s.pcie.downAt + 1_000_000_000 ≤ t.now ∧ s.now ≤ t.now ∧ SameMem s t ∧
       t.pcie = { s.pcie with link := .training, retrains := min 0xFFFFFFFF (s.pcie.retrains + 1) })) ∧
    (∀ flit rate width, s.pcie.link = .training → s.pins.peClk = true → s.pins.perst = false →
      (4 ≤ rate → Runs (.endpointLinkUp flit rate width) s fun t => t.pcie.link = .l0 ∧ t.pcie.flit = flit ∧ t.pcie.rate = rate ∧
        t.pcie.width = width ∧ SameMem s t ∧ t.facets = s.facets) ∧
      (rate < 4 → Runs (.endpointLinkUp flit rate width) s fun t => t = s)) ∧
    (∀ out entry y, (s.pcie.winWait.find? fun y => y.outbound = out && y.entry = entry) = some y →
      let busy := if out then s.outBusy y.fn y.addr y.len else s.inBusy y.addr y.len
      (busy = false → Runs (.pceWindowDrained out entry) s fun t => ∃ u : State, t = u.finish y.waiter 0 0 [] ∧
        u = { s with pcie := { s.pcie with winWait := s.pcie.winWait.erase y } }) ∧
      (busy = true → Runs (.pceWindowDrained out entry) s fun t => t = s)) ∧
    (∀ reg w, s.pcie.linkUp = true →
      (s.configReady = false → Runs (.configRequest fn { reg, write := w }) s fun t => t = s.emit (.config fn reg 0 true)) ∧
      (s.configReady = true → s.fnExists fn = true →
        Runs (.configRequest fn { reg, write := none }) s fun t => t = s.emit (.config fn reg (s.configValue fn reg) false)) ∧
      s.configValue fn .classRev = 0x010802B0 ∧ s.configValue 0 .identity = 0xD3201F9C ∧
      (fn ≠ 0 → s.configValue fn .identity = 0xD3211F9C) ∧
      (∀ v, s.configReady = true → s.fnExists fn = true → reg = .devControl2 → Runs (.configRequest fn { reg, write := some v }) s fun t =>
        frame t ∧ t.fn fn = { x with devCtl2 := v &&& 0x100F } ∧ t.emitted = s.emitted ++ [.config fn reg 0 false])) ∧
    (∀ off size v i, s.barServes fn i = true → s.fnExists fn = true →
      (¬((size = 4 ∨ size = 8) ∧ off % size = 0) → (Runs (.bar0BadAccess fn off size true v) s fun t => frame t ∧ t.fn fn = x ∧
          t.storage = s.storage ∧ t.facets = s.facets) ∧
        Runs (.bar0BadAccess fn off size false v) s fun t => frame t ∧ t.fn fn = x ∧ t.emitted = s.emitted ++ [.barRead fn off 0]) ∧
      (Runs (.bar0BadAccess fn 0x10000 8 true v) s fun t => frame t ∧ t.fn fn = { x with mbCmd := v &&& ~~~(0xFFF : BitVec 64) }) ∧
      (Runs (.bar0BadAccess fn 0 8 false v) s fun t => t = s.emit (.barRead fn 0 0x0000002002_01FFFF)) ∧
      (Runs (.bar0BadAccess fn 0x28 8 true v) s fun t => frame t ∧ (t.ctrl i).asq = v &&& ~~~(0xFFF : BitVec 64) ∧
        ∀ j, j ≠ i → t.ctrl j = s.ctrl j)) ∧
    (∀ v i n, s.barServes fn i = true → n = v.toNat % 2 ^ 32 →
      (ringLenOk n = false → Runs (.mbCfgWrite fn v) s fun t => frame t ∧ t.fn fn = { x with mbVec := bitsOf v.toNat 42 32, mbLen := n } ∧
        t.chans = s.chans) ∧
      (ringLenOk n = true → (s.chan (fn + 2)).state ≠ .disabled → Runs (.mbCfgWrite fn v) s fun t => (t.fn fn).mbLen = n ∧
        (t.fn fn).mbVec = bitsOf v.toNat 42 32 ∧ (t.chan (fn + 2)).state = .unsynced ∧ (t.chan (fn + 2)).cons = 0 ∧ (t.chan (fn + 2)).prod = 0 ∧
        (∀ ch, ch ≠ fn + 2 → t.chan ch = s.chan ch))) ∧
    (∀ h i, s.barServes fn i = true →
      (ringLenOk x.mbLen = false → Runs (.mbDoorbell fn h) s fun t => t = s) ∧
      (s.serves (fn + 2) 0 = true → ringLenOk x.mbLen = true →
        (∀ e, s.masterReason fn = some e → Runs (.mbDoorbell fn h) s fun t => t = s.masterRefused fn e) ∧
        (s.masterReason fn = none → h.ok = false → Runs (.mbDoorbell fn h) s fun t => t = s.chanError (fn + 2)) ∧
        (s.masterReason fn = none → h.ok = true → ringBad h.prod x.mbLen = true ∨ ringBad h.repCons x.mbLen = true →
          Runs (.mbDoorbell fn h) s fun t => t = s.chanError (fn + 2)) ∧
        (∀ y k rec_, s.masterReason fn = none → h.ok = true → ringBad h.prod x.mbLen = false → ringBad h.repCons x.mbLen = false →
          y = (s.modChan (fn + 2) fun c => { c with repCons := h.repCons }).flushReplies (fn + 2) → k = y.chan (fn + 2) →
          rec_ = h.record.take (recordSize (h.record.take 64)) →
          (h.prod = k.cons → Runs (.mbDoorbell fn h) s fun t => t = y) ∧
          (k.state ≠ .error → h.prod ≠ k.cons → k.inProg.length < 16 →
            1088 * (k.inProg.length + k.held.length + 1) < ringRoom k.prod h.repCons x.mbLen → fieldAt (h.record.take 64) 0 2 ≠ 0 →
            k.cons + recordSize (h.record.take 64) ≤ x.mbLen → y.masterReason fn = none → Runs (.mbDoorbell fn h) s fun t => ∃ u : State,
              t = u.arrive (fn + 2) 0 (rec_.take (32 + min 1024 (fieldAt (h.record.take 64) 8 4))) ∧
              u.chan (fn + 2) = { k with cons := (k.cons + recordSize (h.record.take 64)) % x.mbLen } ∧
              (∀ ch, ch ≠ fn + 2 → u.chan ch = y.chan ch))))) ∧
    (∀ off len tag w a, s.pcie.linkUp = true → s.fnExists fn = true → s.fnDeaf fn = false → a = w.daddr + (off - w.obase) →
      (s.inWindow fn off len false = none → Runs (.inboundRead fn off len tag) s fun t => ∃ u : State, t = u.emit (.completion fn tag 1 []) ∧
        SameMem s u ∧ u.facets = s.facets ∧ u.pcie.stats.getD 4 0 = s.pcie.stats.getD 4 0 + 1) ∧
      (s.inWindow fn off len true = none → ∀ data, data.length = len → Runs (.inboundWrite fn off data false) s fun t => SameMem s t ∧
        t.facets = s.facets ∧ t.pcie.stats.getD 4 0 = s.pcie.stats.getD 4 0 + 1 ∧ t.pcie.stats.getD 5 0 = s.pcie.stats.getD 5 0 + 1) ∧
      (∀ data, Runs (.inboundWrite fn off data true) s fun t => SameMem s t ∧ t.facets = s.facets ∧ (t.fn fn).aer.ustat.getLsbD 12 = true) ∧
      (s.power.rung < 2 → s.power.entering = none → s.power.exiting = false →
        (∀ bs, s.inWindow fn off len false = some w → s.load (some (w.inst, w.gen)) a len = .ok bs → Runs (.inboundRead fn off len tag) s fun t =>
          t = (s.met a len).complete fn tag (len / 64 + 2) off bs) ∧
        (∀ e, s.inWindow fn off len false = some w → s.load (some (w.inst, w.gen)) a len = .error e → Runs (.inboundRead fn off len tag) s fun t =>
          ∃ u : State, t = u.emit (.completion fn tag 4 []) ∧ SameMem s u ∧ u.pcie.stats.getD 6 0 = s.pcie.stats.getD 6 0 + 1) ∧
        (∀ data m, data.length = len → s.inWindow fn off len true = some w → s.saveAt (some (w.inst, w.gen)) a data = .ok m →
          Runs (.inboundWrite fn off data false) s fun t => t = m) ∧
        (∀ data e, data.length = len → s.inWindow fn off len true = some w → s.saveAt (some (w.inst, w.gen)) a data = .error (.trans e) →
          Runs (.inboundWrite fn off data false) s fun t => t = (s.raise blkPCE 0x0002 (some w.inst) a w.fn).pceStat 5 ∧ SameMem s t))) ∧
    ((s.rail 6).set ≠ 0 → Runs .pceLinkRead s fun t => ∃ u : State, t = u.emit (.readback s.pcie.linkWord) ∧ u.pcie = { s.pcie with retrains := 0 } ∧ SameMem s u ∧
      u.facets = s.facets) ∧
    (∀ port, port < 8 → (s.rail 6).set ≠ 0 → Runs (.pceRportRead port) s fun t => ∃ u : State, t = u.emit (.readback (s.rootPort port).word) ∧
      u.rootPort port = { s.rootPort port with errors := 0 } ∧ (∀ p, p ≠ port → u.rootPort p = s.rootPort p) ∧ SameMem s u) ∧
    (∀ port, port < 8 → (s.rootPort port).state = .down → s.boot.phase = .running → s.pins.prsnt.getD port false = false →
      Runs (.rootPortLinkRetry port) s fun t => (t.rootPort port).state = .training ∧ (s.rootPort port).downAt + 1_000_000_000 ≤ t.now ∧
        (∀ p, p ≠ port → t.rootPort p = s.rootPort p) ∧ SameMem s t ∧ t.facets = s.facets) ∧
    (∀ port r, (s.rootPort port).state = .up →
      ((s.rootPort port).grant r = none → (r.write = true → Runs (.driveRequestReceive port r) s fun t => SameMem s t ∧ t.storage = s.storage ∧
          t.emitted = s.emitted) ∧
        (r.write = false → Runs (.driveRequestReceive port r) s fun t => SameMem s t ∧ t.storage = s.storage ∧
          t.emitted = s.emitted ++ [.driveReply port false []])) ∧
      (∀ id off c y, (s.rootPort port).grant r = some (id, off) → s.storage.cmds.find id = some c → s.nss c.ns = some y →
        (r.write = true → Runs (.driveRequestReceive port r) s fun t => SameMem s t ∧ t.storage.cmds.find id =
          some { c with data := overlay (padTo (off + r.data.length) c.data) off r.data }) ∧
        (r.write = false → Runs (.driveRequestReceive port r) s fun t => t = s.emit (.driveReply port true (slice (c.sealed y) off r.len)))))

/-- R380, R382, R383, R386 to R388, R401 to R403: the endpoint's commands. A VF is bound only while its controller is Off and the
instance free; windows are refused where they overlap, are misaligned or reach what they must not, and otherwise hold what the
command gives with the instance's generation; a window in use answers when the accesses translated with its old entry have ended; a swap makes the other
bitmap active and reports what was recorded. -/
def Obligations.EndpointCommands : Prop :=
  ∀ (s : State) (c : Cmd),
    let ps := c.pkt.params
    let fn := fieldAt ps 0 1
    (∀ v i, s.takes pceFnBindSpec c = true → v = s.entered pceFnBindSpec c → i = fieldAt ps 1 1 →
      (∀ j, (v.fn fn).bound = some j → (v.ctrl j).mode ≠ .host ∧ (v.ctrl j).resetting = false) →
      (i = 0xFF → Succeeds (.pceFnBind c) c s [] fun u => u.fn fn = { v.fn fn with bound := none } ∧ (∀ j, j ≠ fn → u.fn j = v.fn j) ∧
        SameMem v u) ∧
      (i ≠ 0xFF → (∀ n, v.fnOf i = some n → n = fn) → Succeeds (.pceFnBind c) c s [] fun u => u.fn fn = { v.fn fn with bound := some i } ∧
        (∀ j, j ≠ fn → u.fn j = v.fn j) ∧ SameMem v u) ∧
      (∀ n, i ≠ 0xFF → v.fnOf i = some n → n ≠ fn → Ends (.pceFnBind c) c s 0x9001 fun u => u = v)) ∧
    (∀ v e g w, s.takes pceIwinSetSpec c = true → v = s.entered pceIwinSetSpec c → e = fieldAt ps 0 2 → g = fieldAt ps 2 1 →
      w = { fn := g, rd := bitAt (fieldAt ps 3 1) 1, wr := bitAt (fieldAt ps 3 1) 2, inst := fieldAt ps 4 1, gen := v.genOf (fieldAt ps 4 1)
            obase := fieldAt ps 8 8, len := fieldAt ps 16 8, daddr := fieldAt ps 24 8 } →
      let others (u : State) := (∀ k, k ≠ e → u.pcie.inWin.find k = v.pcie.inWin.find k) ∧ SameMem v u ∧ u.facets = v.facets
      let still := ∀ o, v.pcie.inWin.find e = some o → v.inBusy o.daddr o.len = false
      (∀ o, bitAt (fieldAt ps 3 1) 0 = false → v.pcie.inWin.find e = some o → v.inBusy o.daddr o.len = true → Runs (.pceIwinSet c) s fun t =>
        t.pcie.inWin.find e = none ∧ others t ∧ t.chans = v.chans ∧ t.pcie.winWait = v.pcie.winWait ++
          [{ outbound := false, entry := e, waiter := s.waiterOf c, fn := o.fn, addr := o.daddr, len := o.len }]) ∧
      (bitAt (fieldAt ps 3 1) 0 = false → still → Succeeds (.pceIwinSet c) c s [] fun u => u.pcie.inWin.find e = none ∧ others u) ∧
      (bitAt (fieldAt ps 3 1) 0 = true → v.fnUnusable g = false → w.obase % 0x20_0000 = 0 → w.len % 0x20_0000 = 0 → w.len ≠ 0 → w.len ≤ 2 ^ 40 →
        w.daddr % 0x20_0000 = 0 → v.windowTarget w.daddr w.len = true →
        ((∀ k y, v.pcie.inWin.find k = some y → k ≠ e → y.fn = g → y.obase + y.len ≤ w.obase ∨ w.obase + w.len ≤ y.obase) →
          (v.pcie.inWin.map (·.1)).Nodup → still → Succeeds (.pceIwinSet c) c s [] fun u => u.pcie.inWin.find e = some w ∧ others u) ∧
        (∀ k y, v.pcie.inWin.find k = some y → k ≠ e → y.fn = g → y.obase < w.obase + w.len → w.obase < y.obase + y.len →
          Ends (.pceIwinSet c) c s 0x9002 fun u => u = v)) ∧
      (bitAt (fieldAt ps 3 1) 0 = true → v.fnUnusable g = false → w.obase % 0x20_0000 ≠ 0 ∨ w.len = 0 ∨ v.windowTarget w.daddr w.len = false →
        Ends (.pceIwinSet c) c s 0x9003 fun u => u = v)) ∧
    (∀ v e g w, s.takes pceOwinSetSpec c = true → v = s.entered pceOwinSetSpec c → e = fieldAt ps 0 2 → g = fieldAt ps 2 1 →
      w = { fn := g, rd := bitAt (fieldAt ps 3 1) 1, wr := bitAt (fieldAt ps 3 1) 2, dbase := fieldAt ps 8 8, len := fieldAt ps 16 8
            bus := fieldAt ps 24 8 } → bitAt (fieldAt ps 3 1) 0 = true → v.fnUnusable g = false → hostBase ≤ w.dbase →
      w.dbase + w.len ≤ 0x1_0000_0000_0000 → w.dbase % 4096 = 0 → w.len % 4096 = 0 → w.len ≠ 0 → w.len ≤ 2 ^ 40 → w.bus % 4096 = 0 →
      w.bus + w.len ≤ 2 ^ 64 → (v.pcie.outWin.map (·.1)).Nodup →
      (∀ k y, v.pcie.outWin.find k = some y → k ≠ e → y.dbase + y.len ≤ w.dbase ∨ w.dbase + w.len ≤ y.dbase) →
      let others (u : State) := (∀ k, k ≠ e → u.pcie.outWin.find k = v.pcie.outWin.find k) ∧ SameMem v u ∧ u.facets = v.facets
      ((∀ y, v.pcie.outWin.find e = some y → v.outBusy y.fn y.bus y.len = false) → Succeeds (.pceOwinSet c) c s [] fun u =>
        u.pcie.outWin.find e = some w ∧ others u) ∧
      (∀ y, v.pcie.outWin.find e = some y → v.outBusy y.fn y.bus y.len = true → Runs (.pceOwinSet c) s fun t => t.pcie.outWin.find e = some w ∧
        others t ∧ t.chans = v.chans ∧ t.pcie.winWait = v.pcie.winWait ++
          [{ outbound := true, entry := e, waiter := s.waiterOf c, fn := y.fn, addr := y.bus, len := y.len }])) ∧
    (∀ v, s.takes pceWinGetSpec c = true → v = s.entered pceWinGetSpec c →
      Succeeds (.pceWinGet c) c s (v.windowBytes fn (fieldAt ps 2 2)) fun u => u = v) ∧
    (∀ v, s.takes pceDirtySetSpec c = true → v = s.entered pceDirtySetSpec c → v.fnUnusable fn = false →
      (fieldAt ps 1 1 = 0 → Succeeds (.pceDirtySet c) c s [] fun u => u.fn fn = { v.fn fn with dlog := none } ∧ SameMem v u) ∧
      (fieldAt ps 1 1 ≠ 0 → v.inHbm 0 (fieldAt ps 24 8) (fieldAt ps 16 8 / 0x8000) = true → v.inHbm 0 (fieldAt ps 32 8) (fieldAt ps 16 8 / 0x8000) = true →
        ∀ d0 : DirtyLog,
          d0 = { base := fieldAt ps 8 8, len := fieldAt ps 16 8, bmap0 := fieldAt ps 24 8, bmap1 := fieldAt ps 32 8, active := 0, outside := false
                 err := false, on := true, count := 0 } →
          Succeeds (.pceDirtySet c) c s [] fun u => (u.fn fn).dlog = some d0 ∧
          u.mem = ((v.zeroInst 0 (fieldAt ps 24 8) (fieldAt ps 16 8 / 0x8000)).zeroInst 0 (fieldAt ps 32 8) (fieldAt ps 16 8 / 0x8000)).mem) ∧
      (fieldAt ps 1 1 ≠ 0 → v.inHbm 0 (fieldAt ps 24 8) (fieldAt ps 16 8 / 0x8000) = false → Ends (.pceDirtySet c) c s 0x9006 fun u => u = v)) ∧
    (∀ v d, s.takes pceDirtySwapSpec c = true → v = s.entered pceDirtySwapSpec c → v.fnUnusable fn = false →
      ((v.fn fn).dlog = some d → Succeeds (.pceDirtySwap c) c s
        (leBytes 1 (1 - d.active) ++ leBytes 1 (bit d.outside + 2 * bit d.err) ++ zeros 6 ++ leBytes 8 d.count) fun u =>
          u.fn fn = { v.fn fn with dlog := some { d with active := 1 - d.active, outside := false, count := 0 } } ∧ SameMem v u) ∧
      ((v.fn fn).dlog = none → Ends (.pceDirtySwap c) c s 0x9007 fun u => u = v)) ∧
    (∀ v, s.takes pceAperSetSpec c = true → v = s.entered pceAperSetSpec c → Succeeds (.pceAperSet c) c s [] fun u =>
      u = { v with pcie := { v.pcie with nextPf := fieldAt ps 0 1, nextVf := fieldAt ps 1 1 } }) ∧
    (∀ v, s.takes pceWakeSpec c = true → v = s.entered pceWakeSpec c → v.fnUnusable fn = false →
      ((v.fn fn).d3 = true → (v.fn fn).pmeEn = true → v.pcie.linkUp = true → Succeeds (.pceWake c) c s [] fun u => (u.fn fn).pmeStat = true ∧
        u.emitted = v.emitted ++ [.message fn 4] ∧ SameMem v u) ∧
      ((v.fn fn).pmeEn = false → Ends (.pceWake c) c s 0x9005 fun u => u = v)) ∧
    (∀ v, s.takes pceFnStatusSpec c = true → v = s.entered pceFnStatusSpec c →
      Succeeds (.pceFnStatus c) c s (leBytes 8 (v.fnWord fn).toNat) fun u => u = v)

/-! ## Cipher engine (spec/16) -/

/-- R406, R408 to R412, R414 to R418, R420, R422: the cipher commands. A key load numbers its KEYID; a context that is named is not
freed; an XTS operation uses one tweak a data unit; a GCM piece takes the counter's IV, chains, and ends in a tag or in a zeroed
output; a saved encryption chain closes and reopens at most once; contexts bind to queue pairs in Reset or Init; hashing and
verification answer from memory. -/
def Obligations.CipherCommands : Prop :=
  ∀ (s : State) (c : Cmd),
    let ps := c.pkt.params
    let i := s.senderOf c
    let n := fieldAt ps 0 2
    let fl := fieldAt ps 2 1
    let ia := fieldAt ps 8 8
    let oa := fieldAt ps 16 8
    let len := fieldAt ps 24 8
    (∀ v own mode k key id, s.takes cipCtxSetSpec c = true → v = s.entered cipCtxSetSpec c → own = fl → mode = fieldAt ps 3 1 →
      (n = 0xFFFF ∧ v.cipher.ctxs.free 4096 = some k ∧ v.ctxsOf own < (v.inst own).shares.ciph) ∨
        (k = n ∧ n ≠ 0xFFFF ∧ ∃ x, v.cipher.ctxs.find n = some x ∧ x.owner = own) →
      id = BitVec.ofNat 64 (v.boot.epoch % 2 ^ 32 * 2 ^ 32 + v.cipher.loads % 2 ^ 32) →
      (v.cipher.alarm = true → Ends (.cipCtxSet c) c s 0xA00B fun u => u = v) ∧
      (v.cipher.alarm = false → (fieldAt ps 4 1 = 0 ∧ key = slice ps 8 (keyLen mode)) ∨
          (fieldAt ps 4 1 = 1 ∧ v.cipher.keys = true ∧ kwUnwrap (wrapKey own) (slice ps 8 (keyLen mode + 8)) = some key) →
        mode ≠ 3 ∨ key.take 32 ≠ key.drop 32 → Succeeds (.cipCtxSet c) c s (leBytes 2 k ++ zeros 6 ++ leBytes 8 id.toNat) fun u =>
          u.cipher.ctxs.find k = some { owner := own, gen := v.genOf own, mode, key := some key, keyid := id
                                        pend := (v.cipher.ctxs.find k).bind (·.pend), chain := none } ∧
          (∀ j, j ≠ k → u.cipher.ctxs.find j = v.cipher.ctxs.find j) ∧ u.cipher.loads = v.cipher.loads + 1 ∧
          u.cipher.counters = v.cipher.counters ∧ SameMem v u ∧ u.facets = v.facets) ∧
      (v.cipher.alarm = false → mode = 3 → fieldAt ps 4 1 = 0 → (slice ps 8 64).take 32 = (slice ps 8 64).drop 32 →
        Ends (.cipCtxSet c) c s 0xA00A fun u => u = v)) ∧
    (∀ v x, s.takes cipCtxFreeSpec c = true → v = s.entered cipCtxFreeSpec c → v.heldCtx i n = some x →
      (v.qpRefs n = 0 → v.nsRefs n = 0 → Succeeds (.cipCtxFree c) c s [] fun u => u.cipher.ctxs.find n = none ∧
        (∀ j, j ≠ n → u.cipher.ctxs.find j = v.cipher.ctxs.find j) ∧ u.cipher.counters = v.cipher.counters ∧ SameMem v u) ∧
      (v.qpRefs n ≠ 0 ∨ v.nsRefs n ≠ 0 → Ends (.cipCtxFree c) c s 0xA00C fun u => u = v)) ∧
    (∀ v x, s.takes cipOpSpec c = true → v = s.entered cipOpSpec c → v.heldCtx i n = some x → x.gen = v.genOf x.owner →
      (x.key = none → Ends (.cipOp c) c s 0xA004 fun u => u = v) ∧
      ∀ k, x.key = some k →
        (x.mode = 3 → bitAt fl 1 = false → Ends (.cipOp c) c s 0xA007 fun u => u = v) ∧
        (∀ du a b p, x.mode = 3 → fl / 2 % 4 = 3 → du = fieldAt ps 72 4 → len ≠ 0 → len % du = 0 → v.cmdRead blkCIP x.owner ia len n = (a, some p) →
          a.cmdWrite blkCIP x.owner oa n (xtsUnits (bitAt fl 0) k du (len / du) (fieldAt ps 64 8) p) = (b, true) →
          Succeeds (.cipOp c) c s (zeros 16 ++ leBytes 8 len) fun u => u = b.cipStat 0) ∧
        (x.mode ≠ 3 → x.chain ≠ none → bitAt fl 1 = true → Ends (.cipOp c) c s 0xA007 fun u => u = v) ∧
        (x.mode ≠ 3 → x.chain = none → bitAt fl 1 = false → Ends (.cipOp c) c s 0xA007 fun u => u = v) ∧
        (∀ ks iv v1 a aad b p ct tag, x.mode ≠ 3 → x.chain = none → fl = 6 → ks = roundKeys k → v.nextIv n = some (iv, v1) →
          v1.cmdRead blkCIP x.owner (fieldAt ps 32 8) (fieldAt ps 4 4) n = (a, some aad) → a.cmdRead blkCIP x.owner ia len n = (b, some p) →
          ct = gcmCtr ks iv (len / 16 + 1) 2 p →
          tag = gcmTag ks iv (ghashAll (gcmH ks) (ghashAll (gcmH ks) 0 aad) ct) (fieldAt ps 4 4) len →
          ∀ d e, b.cmdWrite blkCIP x.owner oa n ct = (d, true) → d.cmdWrite blkCIP x.owner (fieldAt ps 40 8) n tag = (e, true) →
          Succeeds (.cipOp c) c s (iv ++ zeros 4 ++ leBytes 8 len) fun u => u = (e.putCtx n { x with chain := none }).cipStat 0) ∧
        (∀ ch a b p out, x.mode ≠ 3 → x.chain = some ch → bitAt fl 1 = false → bitAt fl 0 = ch.dec → oa = ch.outBase + ch.bytes →
          ch.bytes + len ≤ 0x4_0000_0000 → v.cmdRead blkCIP x.owner ia len n = (a, some p) →
          out = gcmCtr (roundKeys k) ch.iv (len / 16 + 1) (2 + ch.bytes / 16) p →
          (bitAt fl 2 = false → len % 16 = 0 → a.cmdWrite blkCIP x.owner oa n out = (b, true) →
            Succeeds (.cipOp c) c s (zeros 16 ++ leBytes 8 (ch.bytes + len)) fun u => u = b.putCtx n { x with
              chain := some { ch with bytes := ch.bytes + len, y := ghashAll (gcmH (roundKeys k)) ch.y (if ch.dec then p else out) } }) ∧
          (∀ w d, bitAt fl 2 = true → ch.dec = true → a.cmdRead blkCIP x.owner (fieldAt ps 40 8) 16 n = (b, some w) →
            b.cmdWrite blkCIP x.owner oa n out = (d, true) →
            (w = gcmTag (roundKeys k) ch.iv (ghashAll (gcmH (roundKeys k)) ch.y p) ch.aadLen (ch.bytes + len) →
              Succeeds (.cipOp c) c s (zeros 16 ++ leBytes 8 (ch.bytes + len)) fun u => u = (d.putCtx n { x with chain := none }).cipStat 0) ∧
            (w ≠ gcmTag (roundKeys k) ch.iv (ghashAll (gcmH (roundKeys k)) ch.y p) ch.aadLen (ch.bytes + len) →
              Ends (.cipOp c) c s 0xA003 fun u => u.mem = (d.zeroOutput x.owner ch (ch.bytes + len)).mem ∧
                u.cipher.ctxs.find n = some { x with chain := none })))) ∧
    (∀ v x ch a, s.takes cipStateSaveSpec c = true → v = s.entered cipStateSaveSpec c → v.heldCtx i n = some x → x.chain = some ch →
      (ch.dec = false → fl = 0 → Ends (.cipStateSave c) c s 0xA00E fun u => u = v) ∧
      (ch.dec = true → fl = 0 → v.cmdWrite blkCIP x.owner ia n (chainRecord n x ch) = (a, true) →
        Succeeds (.cipStateSave c) c s [] fun u => u = a) ∧
      (fl = 1 → v.cmdWrite blkCIP x.owner ia n (kwWrap (wrapKey x.owner) (chainRecord n x ch)) = (a, true) →
        Succeeds (.cipStateSave c) c s [] fun u => u = if ch.dec then a else a.putCtx n { x with chain := none, pend := some (ivCounter ch.iv) })) ∧
    (∀ v x r a ch, s.takes cipStateRestoreSpec c = true → v = s.entered cipStateRestoreSpec c → v.heldCtx i n = some x → x.chain = none →
      (fl = 0 ∧ v.cmdRead blkCIP x.owner ia 128 n = (a, some r)) ∨
        (∃ b, fl = 1 ∧ v.cmdRead blkCIP x.owner ia 136 n = (a, some b) ∧ v.cipher.keys = true ∧ a.cipher.keys = true ∧ kwUnwrap (wrapKey x.owner) b = some r) →
      (r.take 8 = [0x46, 0x58, 0x44, 0x43, 0x53, 0x54, 0x41, 0x54] → fieldAt r 8 2 = 1 → fieldAt r 10 2 = n → fieldAt r 12 1 = x.owner →
        fieldAt r 16 8 = x.keyid.toNat → x.key ≠ none → ch.dec = decide (fieldAt r 14 1 = 1) →
        ch.dec = true ∨ (fl = 1 ∧ x.pend = some (ivCounter (slice r 24 12))) → ch.iv = slice r 24 12 → ch.aadLen = fieldAt r 36 4 →
        ch.bytes = fieldAt r 40 8 → ch.outBase = fieldAt r 48 8 → ch.y = blockOf (slice r 56 16) → Succeeds (.cipStateRestore c) c s [] fun u =>
          u = a.putCtx n { x with chain := some ch, pend := if ch.dec then x.pend else none }) ∧
      (fieldAt r 16 8 ≠ x.keyid.toNat ∨ fieldAt r 12 1 ≠ x.owner ∨ (fieldAt r 14 1 ≠ 1 ∧ fl = 0) →
        Ends (.cipStateRestore c) c s 0xA00D fun u => u = a)) ∧
    (∀ v k q tx rx, s.takes cipQpBindSpec c = true → v = s.entered cipQpBindSpec c →
      tx = (if fieldAt ps 4 2 = 0xFFFF then none else some (fieldAt ps 4 2)) → rx = (if fieldAt ps 6 2 = 0xFFFF then none else some (fieldAt ps 6 2)) →
      v.qpByQpn (fieldAt ps 0 4) = some (k, q) → i = 0 ∨ q.inst = i →
      (∀ m, tx = some m ∨ rx = some m → ∃ x, v.cipher.ctxs.find m = some x ∧ x.mode ≠ 3 ∧ x.owner = q.inst) →
      (q.state = .reset ∨ q.state = .init → Succeeds (.cipQpBind c) c s [] fun u => u.rma.qps.find k = some { q with cipTx := tx, cipRx := rx } ∧
        (∀ j, j ≠ k → u.rma.qps.find j = v.rma.qps.find j) ∧ SameMem v u) ∧
      (q.state = .rtr ∨ q.state = .rts ∨ q.state = .error → Ends (.cipQpBind c) c s 0xA010 fun u => u = v)) ∧
    (∀ v a bs, s.takes cipHashSpec c = true → v = s.entered cipHashSpec c → v.cmdRead blkCIP i (fieldAt ps 0 8) ia 0 = (a, some bs) →
      Succeeds (.cipHash c) c s (sha256 bs) fun u => u = a) ∧
    (∀ v a b d pub sig msg ok, s.takes cipLmsSpec c = true → v = s.entered cipLmsSpec c → v.cmdRead blkCIP i (fieldAt ps 32 8) 60 0 = (a, some pub) →
      a.cmdRead blkCIP i oa (fieldAt ps 24 4) 0 = (b, some sig) → b.cmdRead blkCIP i (fieldAt ps 0 8) ia 0 = (d, some msg) →
      hssVerify pub msg sig = some ok → Succeeds (.cipLmsVerify c) c s (leBytes 8 (bit ok)) fun u => u = d) ∧
    ((s.rail 6).set ≠ 0 → Runs .cipStatusRead s fun t => ∃ u : State, t = u.emit (.readback s.cipStatus) ∧ u.cipher = { s.cipher with erasures := 0 } ∧ SameMem s u ∧
      u.facets = s.facets)

/-! ## Rails and the ladder (spec/17) -/

/-- R426 to R428, R430 to R432, R434 to R438, R488, R492: rails, gates, ceilings and rungs. A sample adds 10 µs of V × I to its rail;
above 2,500 W over 100 µs every gate closes for 10 µs; ceilings move 10 mV a tick between 0.45 V and the rail ceiling; entries begin
only where their conditions hold, and what a rung loses is lost at entry; a wake event that counts begins the exit. -/
def Obligations.PowerLadder : Prop :=
  ∀ (s : State),
    let frame (t : State) := SameMem s t ∧ t.facets = s.facets ∧ t.chans = s.chans
    let mean (t : State) (n : Nat) := ((t.power.samples.take n).sum, (t.power.samples.take n).length)
    (∀ readings, (∀ r, r < 11 → (readings.getD r none).isSome = true) → Runs (.avsSample readings) s fun t => SameMem s t ∧ t.chans = s.chans ∧
      t.now = max s.now (s.power.lastSample + 10000) ∧
      (∀ r mv ma, r < 11 → readings.getD r none = some (mv, ma) → t.rail r = { s.rail r with
        mv, ma, missing := 0, uj := (s.rail r).uj + BitVec.ofNat 64 (((s.rail r).pj + 10 * mv * ma) / 10 ^ 6)
        pj := ((s.rail r).pj + 10 * mv * ma) % 10 ^ 6, interval := (s.rail r).interval + 10 * mv * ma }) ∧
      (2_500_000 * (mean t 10).2 < (mean t 10).1 → s.gateHeld = false → s.power.reopenAt = none → (∀ f, f < 6 → (t.pfield f).closed = true) ∧
        t.power.reopenAt = some (t.now + 10000) ∧ t.power.gates = min 0xFFFFFFFF (s.power.gates + 1)) ∧
      ((mean t 10).1 ≤ 2_500_000 * (mean t 10).2 → t.power.fields = s.power.fields ∧ t.power.gates = s.power.gates ∧
        t.power.reopenAt = s.power.reopenAt)) ∧
    (∀ readings r, r < 11 → readings.getD r none = none → Runs (.avsSample readings) s fun t => (t.rail r).mv = (s.rail r).mv ∧
      (t.rail r).ma = (s.rail r).ma ∧ (t.rail r).missing = (s.rail r).missing + 1) ∧
    (∀ field t0, field < 6 → s.power.reopenAt = some t0 → s.gateHeld = true ∨ (∀ f, f < field → (s.pfield f).closed = false) →
      Runs (.issueGateReopen field) s fun t => SameMem s t ∧ t.chans = s.chans ∧
      t.now = max s.now (t0 + 150 * field) ∧ (∀ g, g ≠ field → t.pfield g = s.pfield g) ∧
      t.power.reopenAt = (if field = 5 then none else some t0) ∧
      (s.gateHeld = false → (t.pfield field).closed = false) ∧ (s.gateHeld = true → t.pfield field = s.pfield field)) ∧
    (∀ temps, Runs (.thermalCeilingTick temps) s fun t => frame t ∧ t.now = max s.now (s.power.lastTherm + 1_000_000) ∧
      ∀ f, f < 6 → (t.pfield f).temp = temps.getD f 0 ∧ (t.pfield f).cap = (s.pfield f).cap ∧
        (s.power.tjthr < temps.getD f 0 → (t.pfield f).thermal = max 450 ((s.pfield f).thermal - 10)) ∧
        (temps.getD f 0 + 5 ≤ s.power.tjthr → (t.pfield f).thermal = min railCeiling ((s.pfield f).thermal + 10)) ∧
        (temps.getD f 0 ≤ s.power.tjthr → s.power.tjthr < temps.getD f 0 + 5 → (t.pfield f).thermal = (s.pfield f).thermal)) ∧
    (∀ cap, cap = s.power.capW * 1000 * (mean s 10000).2 → Runs .powerCapTick s fun t => frame t ∧
      t.now = max s.now (s.power.lastCap + 1_000_000) ∧ (∀ f, f < 6 → (t.pfield f).thermal = (s.pfield f).thermal) ∧
      (98 * cap < 100 * (mean s 10000).1 → ∀ f, f < 6 →
        (t.pfield f).cap = if s.runningIn f = [] then (s.pfield f).cap else max 450 ((s.pfield f).cap - 10)) ∧
      (100 * (mean s 10000).1 < 95 * cap → ∀ f, f < 6 → (t.pfield f).cap = min railCeiling ((s.pfield f).cap + 10)) ∧
      (95 * cap ≤ 100 * (mean s 10000).1 → 100 * (mean s 10000).1 ≤ 98 * cap → (mean s 10000).2 ≠ 0 →
        ∀ f, f < 6 → (t.pfield f).cap = (s.pfield f).cap)) ∧
    (s.power.rung = 1 → 2 ≤ s.power.floor → s.power.entering = none → s.power.request = none → s.power.exiting = false →
      s.dozeOk none = true → Runs .dozeIdleExpire s fun t => frame t ∧ t.power.rung = 1 ∧ t.power.entering = some 2 ∧ t.power.enterAt = t.now ∧
        t.now = max s.now (s.power.idleSince.getD 0 + 1000 * s.power.dozeIdle)) ∧
    (∀ r t0, s.power.request = some (r, t0) → Runs .rungEntryStart s fun t => frame t ∧ t.now = max s.now (t0 + 1_000_000) ∧ t.power.request = none ∧
      t.power.rung = s.power.rung ∧ ((s.reach (t0 + 1_000_000)).sleepOk r none = true → t.power.entering = some r) ∧
      ((s.reach (t0 + 1_000_000)).sleepOk r none = false → t.power.entering = s.power.entering ∧ t.power.floor = s.power.prevFloor)) ∧
    (s.power.exiting = false →
      (s.power.entering = some 2 → Runs .rungEntryComplete s fun t => t.power.rung = 2 ∧ t.power.entering = none ∧ t.chans = s.chans ∧
        (∀ f, f < 6 → (t.rail f).set = 400) ∧
        ∀ k x, s.hbm.stks.find k = some x → x.state = .ready → (t.stack k).state = .selfRefresh) ∧
      (∀ r, s.power.entering = some r → r = 3 ∨ r = 4 → Runs .rungEntryComplete s fun t => t.power.rung = r ∧ t.power.entering = none ∧
        (∀ f, f < 6 → (t.rail f).set = 0 ∧ (t.rail f).armed = false) ∧ (∀ a, a < hbmSize → t.readByte a = 0) ∧
        (∀ k, k < 128 → (t.chan (66 + k)).state = .disabled) ∧ t.acct.ring = 0 ∧ t.loupe.dlog = none ∧ t.fabric.lock = 0 ∧ t.rma.qps = [] ∧
        (∀ l x, t.eth.links.find l = some x → x.state = .down) ∧ t.chan 1 = s.chan 1 ∧
        (r = 3 → t.chan 0 = s.chan 0) ∧ (r = 4 → ∀ ch, ch < 66 → ch ≠ 1 → (t.chan ch).state = .disabled))) ∧
    (∀ w, s.power.exiting = false → s.power.entering = none →
      (countsAt w s.power.rung = true → Runs (.wakeEvent w) s fun t =>
        t = { s with power := { s.power with exiting := true, enterAt := s.now, request := none } }) ∧
      (countsAt w s.power.rung = false → Runs (.wakeEvent w) s fun t => t = s)) ∧
    (s.power.wakeAt ≠ 0 → Runs .wakeAtExpire s fun t => frame t ∧ t.now = max s.now s.power.wakeAt ∧ t.power.wakeAt = 0 ∧
      (2 ≤ s.power.rung → s.power.rung ≤ 4 → t.power.exiting = true)) ∧
    (Runs .pwrwakeNAssert s fun t => frame t ∧ t.pins.pwrwake = true ∧ (2 ≤ s.power.rung → s.power.rung ≤ 4 → t.power.exiting = true)) ∧
    (s.power.exiting = true → s.power.held = [] → s.faults.late = [] → Runs .rungExitComplete s fun t => t.power.exiting = false ∧ t.power.entering = none ∧
      t.power.rung ≤ 1 ∧ t.now = max s.now (s.power.enterAt + exitNs (s.power.entering.getD s.power.rung)) ∧
      t.power.floor = (if 3 ≤ s.power.floor then s.power.prevFloor else s.power.floor) ∧
      (s.power.rung = 2 → ∀ k x, s.hbm.stks.find k = some x → x.state = .selfRefresh → (t.stack k).state = .ready)) ∧
    (∀ v, Runs (.pwrRailctlWrite v) s fun t => frame t ∧ t.power.slklo = bitsOf v.toNat 51 44 ∧
      t.power.slkhi = (if t.power.slklo < bitsOf v.toNat 43 36 then bitsOf v.toNat 43 36 else s.power.slkhi) ∧
      t.power.idlev = (if 450 ≤ bitsOf v.toNat 63 52 ∧ bitsOf v.toNat 63 52 ≤ 600 then bitsOf v.toNat 63 52 else s.power.idlev) ∧
      t.power.tjthr = (if 60 ≤ bitsOf v.toNat 35 28 ∧ bitsOf v.toNat 35 28 ≤ 105 then bitsOf v.toNat 35 28 else s.power.tjthr)) ∧
    (Runs .pwrGatesRead s fun t => frame t ∧ t.power = { s.power with gates := 0, wakedrop := 0 } ∧
      t.emitted = s.emitted ++ [.readback s.power.gatesWord])

/-- R430, R431, R434, R435, R449: the manager's power commands, and an owner's PWR_PACE_SET. A floor of 0 to 2 holds from now on; one of 3
or 4 is a single request, refused where its entry conditions do not hold; every rung request is refused under PFW_N. -/
def Obligations.PowerCommands : Prop :=
  ∀ (s : State) (c : Cmd),
    let ps := c.pkt.params
    let f := fieldAt ps 0 1
    (∀ v, s.takes pwrRungSetSpec c = true → v = s.entered pwrRungSetSpec c →
      (v.power.pfw = true → Ends (.pwrRungSet c) c s 0xB005 fun u => u = v) ∧
      (v.power.pfw = false → f ≤ 2 → f ≠ 0 ∨ v.power.rung ≠ 1 → Succeeds (.pwrRungSet c) c s [] fun u => u.power.floor = f ∧ u.power.prevFloor = f ∧
        u.power.dozeIdle = fieldAt ps 4 4 ∧ u.power.wakeAt = fieldAt ps 8 8 ∧ u.power.request = none ∧ SameMem v u ∧ u.facets = v.facets) ∧
      (v.power.pfw = false → f = 0 → v.power.rung = 1 → Succeeds (.pwrRungSet c) c s [] fun u => ∃ w : State, u = w.wake ∧ w =
        { v with power := { v.power with dozeIdle := fieldAt ps 4 4, wakeAt := fieldAt ps 8 8, floor := 0, prevFloor := 0, request := none } } ∧
        (v.faults.late = [] → u.power.rung = 0)) ∧
      (v.power.pfw = false → 3 ≤ f → v.sleepOk f (some (s.waiterOf c)) = false → Ends (.pwrRungSet c) c s 0xB002 fun u => u = v) ∧
      (v.power.pfw = false → 3 ≤ f → v.sleepOk f (some (s.waiterOf c)) = true → Succeeds (.pwrRungSet c) c s [] fun u =>
        u.power.floor = f ∧ u.power.request = some (f, v.now) ∧ u.power.rung = v.power.rung ∧
        u.power.prevFloor = (if v.power.floor ≤ 2 then v.power.floor else v.power.prevFloor) ∧ SameMem v u ∧ u.facets = v.facets)) ∧
    (∀ v, s.takes pwrStatusSpec c = true → v = s.entered pwrStatusSpec c → Succeeds (.pwrStatus c) c s
      (([v.rungWord, v.pkgWord] ++ (List.range 6).map v.fieldWord).flatMap fun w => leBytes 8 w.toNat) fun u => u = v) ∧
    (∀ v, s.takes pwrCapSetSpec c = true → v = s.entered pwrCapSetSpec c → Succeeds (.pwrCapSet c) c s [] fun u =>
      u = { v with power := { v.power with capW := fieldAt ps 0 4 } }) ∧
    (∀ v p, s.takes pwrPaceSetSpec c = true → v = s.entered pwrPaceSetSpec c → v.theParcel ps = some p →
      (v.parcelState p = .running → fieldAt ps 2 2 ≤ railCeiling → Succeeds (.pwrPaceSet c) c s [] fun u =>
        u.parcel p = { v.parcel p with vpace := fieldAt ps 2 2 } ∧ OnlyParcel v u p ∧ SameMem v u ∧ u.facets = v.facets ∧ u.power = v.power) ∧
      (v.parcelState p ≠ .running ∨ railCeiling < fieldAt ps 2 2 → Ends (.pwrPaceSet c) c s 0xB001 fun u => u = v))

/-! ## Start-up, firmware and pins (spec/17, spec/20) -/

/-- R435, R439, R440, R442, R443, R449, R461, R480, R484 to R487: resets, boot, the power-fail warning and the pins. Boot stops in recovery
with its reason, takes its epoch once, brings its rails up in order and ends with instance 0 Active; PFW_N closes every gate and
makes a flush due. -/
def Obligations.BootAndPins : Prop :=
  ∀ (s : State),
    let b0 := s.boot
    (Runs .porstNAssert s fun t => t.mem = [] ∧ t.facets = [] ∧ t.chans = [] ∧ t.now = 0 ∧ t.loupe = State.reset.loupe ∧ t.boot.phase = .reset ∧
      t.boot.flash = b0.flash ∧ t.boot.cnt0 = b0.cnt0 ∧ t.boot.cnt1 = b0.cnt1 ∧ t.boot.cnt2 = b0.cnt2 ∧ t.boot.committed = b0.committed ∧
      t.pins.en = 1 ∧ t.pins.porst = true ∧ t.pins.prsnt = s.pins.prsnt ∧ t.pending = s.pending) ∧
    (∀ b, b0.phase = .reset → Runs (.porstNDeassert b) s fun t => SameMem s t ∧ t.facets = s.facets ∧ t.chans = s.chans ∧
      (s.pins.porst = true → t.now = 0 ∧ t.pins.smbAddr = b.smbAddr % 4 ∧ t.pins.busSel = b.busSel) ∧ (s.pins.porst = false → t.now = s.now) ∧
      (b.flashOk = false → t.boot.phase = .recovery ∧ t.boot.reason = 5 ∧ t.boot.cnt1 = b0.cnt1) ∧
      (b.flashOk = true → b0.choose = none → t.boot.phase = .recovery ∧ t.boot.reason = 1 ∧ t.boot.cnt1 = b0.cnt1) ∧
      (∀ k im, b.flashOk = true → b0.choose = some (k, im) → t.boot.slot = k ∧ t.boot.version = im.version ∧ t.boot.seclevel = im.seclevel ∧
        t.boot.imageHash = im.hash ∧ (b.epochOk = false → t.boot.phase = .recovery ∧ t.boot.reason = 4 ∧ t.boot.cnt1 = b0.cnt1) ∧
        (b.epochOk = true → t.boot.cnt1 = b0.cnt1 + 1 ∧ t.boot.epoch = b0.cnt1 + 1 ∧
          (b.pufOk = false → t.boot.phase = .recovery ∧ t.boot.reason = 3) ∧
          (b.pufOk = true → b.trimsOk = false → t.boot.phase = .recovery ∧ t.boot.reason = 2) ∧
          (b.pufOk = true → b.trimsOk = true → t.boot.phase = .starting ∧ t.pins.en.getLsbD 2 = true ∧ (t.rail 6).set = 750)))) ∧
    (∀ grp, grp < 4 → s.pins.pg.getLsbD grp = false →
      (b0.phase ≠ .starting → Runs (.pgAssert grp) s fun t => SameMem s t ∧ t.facets = s.facets ∧ t.chans = s.chans ∧
        t.pins.pg = s.pins.pg ||| BitVec.ofNat 4 (2 ^ grp) ∧ t.boot = b0) ∧
      (b0.phase = .starting → s.pins.en.getLsbD grp = true →
        (grp = 2 → b0.plan.1 = [] → Runs (.pgAssert grp) s fun t => t.pcie.configured = true ∧ t.pins.en.getLsbD 1 = true ∧
          (t.rail 6).armed = true ∧ t.boot = b0 ∧ SameMem s t) ∧
        (∀ d, grp = 2 → d ∈ b0.plan.1 → d < 12 → Runs (.pgAssert grp) s fun t => t.dieFailed d = true) ∧
        (grp = 1 → Runs (.pgAssert grp) s fun t => t.pins.en.getLsbD 3 = true ∧ t.boot = b0 ∧ SameMem s t) ∧
        (grp = 3 → Runs (.pgAssert grp) s fun t => t.boot.phase = .running ∧ t.boot.endOfBoot = s.now ∧ (t.inst 0).state = .active ∧
          t.cipher.keys = true ∧ t.power.floor = 1 ∧ t.power.rung ≤ 1 ∧
          ∀ k, k < 32 → k ∉ b0.plan.2 → (s.stack k).state ≠ .failed → (t.stack k).state = .ready))) ∧
    (∀ grp, grp < 4 → s.pins.pg.getLsbD grp = false → s.pins.en.getLsbD grp = true → Runs (.pgTimeout grp) s fun t =>
      t = (s.reach (s.pins.enAt.getD grp s.now + 1_000_000)).alarm 1 (grp + 1)) ∧
    (s.power.pfw = false → b0.phase ≠ .reset → Runs .pfwNAssert s fun t => t.power.pfw = true ∧ (∀ f, f < 6 → (t.pfield f).closed = true) ∧
      t.loupe.flushPfw = true ∧ t.power.rung ≤ 1 ∧ t.boot = b0) ∧
    (s.power.pfw = true → b0.phase ≠ .reset → Runs .pfwNDeassert s fun t => t.power.pfw = false ∧ SameMem s t ∧ t.chans = s.chans ∧
      ((∀ e ∈ s.faults.table, e.2.scope = .device → e.2.status ≠ .active) → s.power.reopenAt = none → ∀ f, f < 6 → (t.pfield f).closed = false)) ∧
    (s.pins.perst = false → Runs .perstNAssert s fun t => t.pins.perst = true ∧ t.pcie.link = .down ∧ t.pcie.linkUp = false ∧
      (s.pcie.link = .down ∨ s.pcie.link = .training → SameMem s t ∧ t.facets = s.facets ∧ t.pcie.fns = s.pcie.fns)) ∧
    (s.pins.perst = true → Runs .perstNDeassert s fun t => t.pins.perst = false ∧ t.pcie.wakeN = false ∧ SameMem s t ∧ t.facets = s.facets ∧
      (b0.phase = .running → s.pcie.link = .down → s.pins.peClk = true → t.pcie.link = .training) ∧
      (b0.phase = .running → s.power.rung = 3 ∨ s.power.rung = 4 → t.power.exiting = true)) ∧
    (∀ port, port < 8 → b0.phase = .running →
      (s.pins.prsnt.getD port false = false → Runs (.prsntNChange port true) s fun t => t.pins.prsnt.getD port false = true ∧
        (t.rootPort port).state = .down ∧ (t.drive port).state = .absent) ∧
      (s.pins.prsnt.getD port false = true → Runs (.prsntNChange port false) s fun t => t.pins.prsnt.getD port false = false ∧
        (t.rootPort port).state = .training ∧ (t.drive port).state = .training)) ∧
    (s.fabric.lock = 1 ∨ s.fabric.lock = 2 → s.gptp < 2 ^ 64 - 10 ^ 9 → Runs .ppsOut s fun t => t.gptp = t.pins.lastPps * 10 ^ 9 ∧
      t.emitted = s.emitted ++ [.pin "PPS_OUT" true, .pin "PPS_OUT" false] ∧ SameMem s t ∧ t.facets = s.facets) ∧
    (s.pins.phyRst = true → s.pins.en.getLsbD 0 = true → Runs .mgmtPhyResetRelease s fun t => t.pins = { s.pins with phyRst := false } ∧
      t.now = max s.now (s.pins.vioAt + 10_000_000) ∧ t.emitted = s.emitted ++ [.pin "MGMT_PHY_RST_N" true] ∧ SameMem s t) ∧
    (∀ clk, clk < 4 → s.pins.ethClk.getD clk true = true → Runs (.referenceClockChange clk false) s fun t =>
      t.pins = { s.pins with ethClk := s.pins.ethClk.put clk false } ∧ ∀ l, l < 64 → dieOfLink l = clk → (t.link l).state = .down) ∧
    (s.pins.peClk = true → Runs (.referenceClockChange 4 false) s fun t => t.pins.peClk = false ∧ t.pcie.link = .down) ∧
    (s.pins.peClk = false → Runs (.referenceClockChange 4 true) s fun t => t.pins.peClk = true ∧ SameMem s t ∧ t.facets = s.facets ∧
      (s.pcie.configured = true → s.pcie.link = .down → s.pins.perst = false → t.pcie.link = .training))

/-- R440, R442, R446 to R448: staging, committing and activating an image, the rollback floor, and the quote. Only the slot that does not
run is written; an image is verified before it is committed and again before it starts; a quote takes its leaf before it is signed. -/
def Obligations.FirmwareCommands : Prop :=
  ∀ (s : State) (c : Cmd),
    let ps := c.pkt.params
    (∀ v w k, s.takes fwStageSpec c = true → v = s.entered fwStageSpec c → k = v.boot.idleSlot →
      (v.mayFail = (true, w) → Ends (.fwStage c) c s 0xB006 fun u => u = w) ∧
      (v.mayFail = (false, w) → Succeeds (.fwStage c) c s [] fun u => SameMem v u ∧ u.facets = v.facets ∧ u.boot =
        { w.boot.flashWrite (slotBase k + fieldAt ps 0 4) (slice ps 8 (fieldAt ps 4 4)) with
          committed := if w.boot.committed = some k then none else w.boot.committed })) ∧
    (∀ v k, s.takes fwCommitSpec c = true → v = s.entered fwCommitSpec c → k = v.boot.idleSlot → v.boot.resetDue = false →
      (v.boot.image k = none → Ends (.fwCommit c) c s 0xB003 fun u => u = v) ∧
      (∀ im w, v.boot.image k = some im → v.mayFail = (true, w) → Ends (.fwCommit c) c s 0xB006 fun u => u = w) ∧
      (∀ im w, v.boot.image k = some im → v.mayFail = (false, w) →
        (v.boot.phase ≠ .recovery → Succeeds (.fwCommit c) c s (leBytes 4 im.version.toNat ++ leBytes 4 im.seclevel) fun u =>
          u = { w with boot := { w.boot with committed := some k, resetDue := false } }) ∧
        (v.boot.phase = .recovery → Runs (.fwCommit c) s fun t => t.boot.phase = .reset ∧ t.boot.resetDue = true ∧ t.boot.committed = some k ∧
          t.now = v.now ∧ t.boot.cnt1 = v.boot.cnt1))) ∧
    (∀ v, s.takes fwActivateSpec c = true → v = s.entered fwActivateSpec c →
      (v.boot.committed = none → Ends (.fwActivate c) c s 0xB00A fun u => u = v) ∧
      (v.boot.committed ≠ none → Runs (.fwActivate c) s fun t =>
        t.boot = { v.boot with activating := some (s.waiterOf c, v.now + 500_000_000) } ∧
        ((∀ i, i < 64 → (v.ctrl i).mode = .off) → t.chans = v.chans ∧ SameMem v t ∧ t.facets = v.facets))) ∧
    (∀ w t0, s.boot.activating = some (w, t0) → s.boot.switching = false →
      let over_ (u : State) (st : Nat) := ({ u with boot := { u.boot with activating := none, switching := false } }).refreshRails.finish w st 0 []
      ((∀ e ∈ s.chans, ∀ p ∈ e.2.inProg, e.1 = w.ch ∧ p.id = w.id) →
        ((s.boot.committed.bind s.boot.image).isSome = true → Runs .fwActivateDrained s fun t =>
          t = { s with boot := { s.boot with switching := true } }) ∧
        (s.boot.committed.bind s.boot.image = none → Runs .fwActivateDrained s fun t => t = over_ s 0xB003)) ∧
      (∀ e ∈ s.chans, ∀ p ∈ e.2.inProg, ¬(e.1 = w.ch ∧ p.id = w.id) → Runs .fwActivateDrained s fun t => t = over_ (s.reach t0) 0xB007)) ∧
    (∀ w t0, s.boot.activating = some (w, t0) → s.boot.switching = true → s.faults.bezelRestart = false →
      (∀ k im, s.boot.committed = some k → s.boot.image k = some im → Runs (.fwActivateComplete true) s fun t =>
        t = ({ s with boot := { s.boot.runs k im with activating := none, switching := false } }).refreshRails.finish w 0 0 []) ∧
      (Runs (.fwActivateComplete false) s fun t =>
        t = ({ s with boot := { s.boot with activating := none, switching := false } }).refreshRails.finish w 0xB008 0 [])) ∧
    (∀ v n w, s.takes fwFloorSetSpec c = true → v = s.entered fwFloorSetSpec c → n = fieldAt ps 0 4 →
      (n ≤ v.boot.cnt0 ∨ v.boot.seclevel < n → Ends (.fwFloorSet c) c s 0xB004 fun u => u = v) ∧
      (v.boot.cnt0 < n → n ≤ v.boot.seclevel → v.mayFail = (false, w) → Succeeds (.fwFloorSet c) c s [] fun u => u.boot.cnt0 = n ∧
        u.boot.cnt1 = v.boot.cnt1 ∧ u.boot.cnt2 = v.boot.cnt2 ∧ u.boot.flash = v.boot.flash ∧ SameMem v u ∧
        (∀ k, v.boot.committed = some k → fieldAt (v.boot.flashRead (slotBase k) 16) 12 4 < n → u.boot.committed = none) ∧
        (∀ k, v.boot.committed = some k → n ≤ fieldAt (v.boot.flashRead (slotBase k) 16) 12 4 → u.boot.committed = some k))) ∧
    (∀ v q w x d sig, s.takes attestQuoteSpec c = true → v = s.entered attestQuoteSpec c → q = v.boot.cnt2 →
      (1048576 ≤ q → Ends (.attestQuote c) c s 0xB009 fun u => u = v) ∧
      (q < 1048576 → v.mayFail = (true, w) → Ends (.attestQuote c) c s 0xB006 fun u => u = w) ∧
      (q < 1048576 → v.mayFail = (false, w) → x = { w with boot := { w.boot with cnt2 := q + 1 } } →
        sig = lmsSign lmsSeed lmsId (Config.lmsRandom q) q (x.quoteBody (slice ps 8 32)) →
        x.cmdWrite blkBZL (s.senderOf c) (fieldAt ps 0 8) q (x.quoteBody (slice ps 8 32) ++ sig) = (d, true) →
        Succeeds (.attestQuote c) c s [] fun u => u = d))

/-! ## The loupe (spec/18) -/

/-- R450 to R463: events become records in round robin with one series of SEQ, an overflow and a thaw first taking their own record; records
drain oldest first to the logs; a frozen log counts and writes nothing; severe records make a flush due, and a flush writes one
segment and erases the next. -/
def Obligations.RecorderRows : Prop :=
  ∀ (s : State),
    let x := s.loupe
    let frame (t : State) := SameMem s t ∧ t.facets = s.facets ∧ t.chans = s.chans ∧ t.boot = s.boot
    let size (rs : List Record) := (rs.map fun r => r.bytes.length).sum
    (∀ b e rest r, s.nextBlock = some b → x.fallback = false → x.lost = none →
      ((s.inQueue b).pending = 0 ∧ (s.inQueue b).events = e :: rest ∧ e.code ≠ 0xC102) ∨
        ((s.inQueue b).pending ≠ 0 ∧ rest = (s.inQueue b).events ∧ e = { code := 0xC100, inst := none, p0 := b, p1 := (s.inQueue b).pending, extra := [] }) →
      r = { seq := x.seq, ev := e, fixed := x.flood, drained := false, copied := e.inst.isNone, inFlash := false } →
      size (x.staging ++ [r]) ≤ stageSize → Runs .eventStage s fun t => frame t ∧ t.loupe.staging = x.staging ++ [r] ∧ t.loupe.seq = x.seq + 1 ∧
        t.loupe.rr = (b + 1) % 16 ∧ t.inQueue b = { events := rest, pending := 0 } ∧ (∀ k, k ≠ b → t.inQueue k = s.inQueue k) ∧
        t.loupe.drop = x.drop ∧ t.loupe.ovf = x.ovf ∧ (severityOf e.code < 5 → t.loupe.flushDue = x.flushDue) ∧
        (5 ≤ severityOf e.code → t.loupe.flushDue ≠ none)) ∧
    (∀ b e rest f, s.nextBlock = some b → x.fallback = false → x.lost = none → (s.inQueue b).pending = 0 → (s.inQueue b).events = e :: rest →
      e.code = 0xC102 → x.nextDrain = none →
      (x.freezeOf e.p0 = none → Runs .eventStage s fun t => frame t ∧ t.loupe.staging = x.staging ∧ t.loupe.seq = x.seq) ∧
      (∀ r k, x.freezeOf e.p0 = some f → k = (fun j => f.counts.getD j 0) → r.ev.code = 0xC102 → r.ev.inst = e.inst →
        r.ev.params = (List.range 6).flatMap (fun j => leBytes 4 (k j)) ++ leBytes 8 f.seq → r.ev.extra.length = 16 → r.ev.p0 < 2 ^ 64 → r.ev.p1 < 2 ^ 64 →
        r.seq = x.seq → r.fixed = x.flood → r.drained = false → r.copied = e.inst.isNone → r.inFlash = false →
        size (x.staging ++ [r]) ≤ stageSize → Runs .eventStage s fun t => frame t ∧ t.loupe.freezeOf e.p0 = none ∧
          t.loupe.staging = x.staging ++ [r] ∧ t.loupe.seq = x.seq + 1)) ∧
    (∀ r d, x.nextDrain = some r → x.dlog = some d → x.dlogErr = false → r.copied = true → r.drained = false →
      (∀ f, d.frozen = some f → Runs .logDrain s fun t => frame t ∧ t.loupe.dlog = some { d with frozen := some (f.count r.sev) } ∧
        t.loupe.staging = x.staging.map fun y => if y.seq = r.seq then { y with drained := true, copied := true } else y) ∧
      (∀ u, d.frozen = none → s.dlogWrite d r = some u → Runs .logDrain s fun t => SameMem u t ∧ t.loupe.dlog = u.loupe.dlog ∧ t.loupe.drop = u.loupe.drop ∧
        t.loupe.staging = u.loupe.staging.map fun y => if y.seq = r.seq then { y with drained := true, copied := true } else y) ∧
      (d.frozen = none → s.dlogWrite d r = none → Runs .logDrain s fun t => frame t ∧ t.loupe.dlogErr = true ∧ t.loupe.dlog = some d)) ∧
    (∀ r i g l y, x.nextDrain = some r → r.copied = false → r.ev.inst = some (i, g) → x.ilogs.find i = some l → s.genOf i = g →
      x.draining = false → y = l.bucket r.ev.code s.now →
      (∀ f, l.frozen = some f → Runs .logDrain s fun t => frame t ∧ t.loupe.ilogs = x.ilogs.put i { l with frozen := some (f.count r.sev) }) ∧
      (l.frozen = none → y.nano < 1_000_000_000 → Runs .logDrain s fun t => frame t ∧
        t.loupe.ilogs = x.ilogs.put i (l.putBucket { y with suppressed := y.suppressed + 1, used := r.seq })) ∧
      (∀ u, l.frozen = none → 1_000_000_000 ≤ y.nano →
        u = s.ilogWrite i (l.putBucket { y with nano := y.nano - 1_000_000_000, suppressed := 0, used := r.seq }) r.seq
          (recordBytes r.seq r.ev r.fixed (if y.suppressed = 0 then [] else leBytes 8 y.suppressed ++ zeros 8)) →
        Runs .logDrain s fun t => SameMem u t ∧ t.loupe.ilogs = u.loupe.ilogs ∧ t.loupe.dlog = x.dlog)) ∧
    (∀ r i g, x.nextDrain = some r → r.copied = false → r.ev.inst = some (i, g) → s.genOf i ≠ g → x.draining = false →
      Runs .logDrain s fun t => frame t ∧ t.loupe.ilogs = x.ilogs ∧ t.loupe.dlog = x.dlog) ∧
    (s.boot.phase = .running → (s.inQueue blkLOG).events.length < 64 → Runs .timeMark s fun t => frame t ∧ t.loupe.lastMark = t.now ∧
      t.now = max s.now (x.lastMark + 1_000_000 * x.markMs) ∧ (t.inQueue blkLOG).events = (s.inQueue blkLOG).events ++
        [{ code := 0xC101, inst := none, p0 := t.now, p1 := if s.fabric.lock = 0 then 2 ^ 64 - 1 else t.gptp, extra := [] }]) ∧
    (∀ k a next due first last, x.flushPfw = false → x.flushDue = some due → k = x.flashSeg → a = logRegion + k * flashSegSize →
      next = (k + 1) % max 1 s.boot.flashSegs → (x.toFlush.map (·.seq)).min? = some first → (x.toFlush.map (·.seq)).max? = some last →
      (Runs (.flashFlush false) s fun t => t.boot = s.boot ∧ t.loupe.flashErr = true ∧ t.loupe.flashSeg = next ∧ t.loupe.staging = x.staging ∧ SameMem s t) ∧
      (Runs (.flashFlush true) s fun t => t.loupe.flashErr = false ∧ t.loupe.flashSeg = next ∧ t.now = max s.now due ∧ t.loupe.lastFlush = some t.now ∧
        t.loupe.flushDue = none ∧ SameMem s t ∧ t.facets = s.facets ∧
        t.boot = ((s.boot.flashErase a flashSegSize).flashWrite a (flashSegment 1 s.boot.epoch first last (x.toFlush.flatMap Record.bytes))).flashErase
          (logRegion + next * flashSegSize) flashSegSize ∧
        t.loupe.staging = x.staging.map fun r => if x.toFlush.any (fun y => y.seq = r.seq) then { r with inFlash := true } else r)) ∧
    (∀ ok, x.toFlush = [] → Runs (.flashFlush ok) s fun t => frame t ∧ t.loupe.flashSeg = x.flashSeg ∧ t.loupe.flashErr = x.flashErr ∧
      t.loupe.flushPfw = false ∧ (x.flushPfw = false → t.loupe.flushDue = none)) ∧
    (∀ target f, x.freezeOf target = some f →
      (f.until_ = 0 → Runs (.freezeLimitExpire target) s fun t => t = s) ∧
      (f.until_ ≠ 0 → Runs (.freezeLimitExpire target) s fun t => frame t ∧ t.now = max s.now f.until_ ∧
        t.loupe.freezeOf target = some { f with until_ := 0 } ∧ t.loupe.staging = x.staging)) ∧
    (∀ sev, 1 ≤ sev → sev ≤ 6 → Runs (.logDropRead sev) s fun t => frame t ∧ t.emitted = s.emitted ++ [.readback (BitVec.ofNat 64 (x.drop.getD sev 0))] ∧
      t.loupe = { x with drop := x.drop.del sev }) ∧
    (∀ blk, blk < 16 → Runs (.logOvfRead blk) s fun t => frame t ∧ t.emitted = s.emitted ++ [.readback (BitVec.ofNat 64 (x.ovf.getD blk 0))] ∧
      t.loupe = { x with ovf := x.ovf.del blk })

/-- R454, R456, R458 to R460, R462: placing, freezing, thawing and flushing logs, and reading the flash. -/
def Obligations.RecorderCommands : Prop :=
  ∀ (s : State) (c : Cmd),
    let ps := c.pkt.params
    let a := fieldAt ps 0 8
    let n := fieldAt ps 8 8
    let i := fieldAt ps 0 1
    (∀ v, s.takes logDlogSetSpec c = true → v = s.entered logDlogSetSpec c →
      (v.loupe.fallback = true → Ends (.logDlogSet c) c s 0xC006 fun u => u = v) ∧
      (v.loupe.fallback = false → (v.loupe.freezeOf 0xFF).isSome = true → Ends (.logDlogSet c) c s 0xC003 fun u => u = v) ∧
      (v.loupe.fallback = false → v.loupe.freezeOf 0xFF = none →
        (n = 0 → Succeeds (.logDlogSet c) c s [] fun u => u = { v with loupe := { v.loupe with dlog := none, dlogErr := false } }) ∧
        (n ≠ 0 → n ≠ 0x1000_0000 ∨ a % 0x20_0000 ≠ 0 ∨ v.inHbm 0 a n = false → Ends (.logDlogSet c) c s 0xC001 fun u => u = v) ∧
        (n = 0x1000_0000 → a % 0x20_0000 = 0 → v.inHbm 0 a n = true → Succeeds (.logDlogSet c) c s [] fun u =>
          u.loupe.dlog = some { addr := a, segs := [], filling := none, lastSeq := 0, frozen := none } ∧ u.loupe.dlogErr = false ∧
          u.loupe.staging = v.loupe.staging.map fun r => { r with drained := false }))) ∧
    (∀ v l, s.takes logIlogSetSpec c = true → v = s.entered logIlogSetSpec c →
      l = { ring := n, prod := 0, wraps := 0, lastSeq := 0, rate := fieldAt ps 2 2, buckets := [], frozen := none } →
      v.loupe.fallback = false →
      ((v.loupe.freezeOf i).isSome = true → Ends (.logIlogSet c) c s 0xC003 fun u => u = v) ∧
      (v.loupe.freezeOf i = none →
        (n = 0 → Succeeds (.logIlogSet c) c s [] fun u => u = { v with loupe := { v.loupe with ilogs := v.loupe.ilogs.del i } }) ∧
        (n ≠ 0 → n % 4096 ≠ 0 ∨ v.inHbm i n 65600 = false → Ends (.logIlogSet c) c s 0xC001 fun u => u = v) ∧
        (∀ w y, n ≠ 0 → n % 4096 = 0 → v.inHbm i n 65600 = true → v.writeBy clsHost i n (zeros 64) = (w, .ok y) →
          Succeeds (.logIlogSet c) c s [] fun u => u = { w with loupe := { w.loupe with ilogs := w.loupe.ilogs.put i l } }))) ∧
    (∀ v q, s.takes logFreezeSpec c = true → v = s.entered logFreezeSpec c → v.loupe.fallback = false →
      (if i = 0xFF then v.loupe.dlog.map (·.lastSeq) else (v.loupe.ilogs.find i).map (·.lastSeq)) = some q →
      (∀ f, v.loupe.freezeOf i = some f → f.until_ ≠ 0 →
        (fieldAt ps 1 1 = 1 → Ends (.logFreeze c) c s 0xC003 fun u => u = v) ∧
        (fieldAt ps 1 1 = 0 → Succeeds (.logFreeze c) c s (leBytes 8 q) fun u => u.loupe.freezeOf i = some { f with until_ := 0 } ∧ SameMem v u)) ∧
      (v.loupe.freezeOf i = none →
        (fieldAt ps 1 1 = 0 → Ends (.logFreeze c) c s 0xC003 fun u => u = v) ∧
        (fieldAt ps 1 1 = 1 → Succeeds (.logFreeze c) c s (leBytes 8 q) fun u =>
          u.loupe.freezeOf i = some { seq := q, counts := [], until_ := v.now + 1_000_000 * fieldAt ps 2 2 } ∧ SameMem v u ∧
          u.loupe.staging = v.loupe.staging))) ∧
    (∀ v w, s.takes logFlushSpec c = true → v = s.entered logFlushSpec c →
      (v.mayFail = (true, w) → w.loupe.toFlush ≠ [] → Ends (.logFlush c) c s 0xC005 fun u => u = (w.flush 3 false).1) ∧
      (∀ u first last, v.mayFail = (false, w) → w.flush 3 true = (u, some (first, last)) →
        Succeeds (.logFlush c) c s (leBytes 8 first ++ leBytes 8 last) fun z => z = u) ∧
      (v.loupe.toFlush = [] → Runs (.logFlush c) s fun t => t.boot = v.boot ∧ t.loupe.flashSeg = v.loupe.flashSeg)) ∧
    (∀ v w, s.takes logFlashReadSpec c = true → v = s.entered logFlashReadSpec c → v.mayFail = (true, w) → fieldAt ps 0 4 < v.boot.flashSegs →
      Ends (.logFlashRead c) c s 0xC005 fun z => z = w) ∧
    (∀ v w k b u, s.takes logFlashReadSpec c = true → v = s.entered logFlashReadSpec c → v.mayFail = (false, w) → k = fieldAt ps 0 4 →
      b = v.boot.flashRead (logRegion + k * flashSegSize) flashSegSize →
      (v.boot.flashSegs ≤ k ∨ flashSegOk b = false → Ends (.logFlashRead c) c s 0xC004 fun z => z = w) ∧
      (k < v.boot.flashSegs → flashSegOk b = true → w.cmdWrite blkLOG 0 n k b = (u, true) → Succeeds (.logFlashRead c) c s [] fun z => z = u))

/-! ## Faults and containment (spec/19) -/

/-- The fault table lists a fault of a code, scope and object, active, with one occurrence (R474). -/
def listsFault (t : State) (code : Nat) (scope : Scope) (object : Nat) : Prop :=
  ∃ k e, t.faults.table.find k = some e ∧ e.code = code ∧ e.object = object ∧ e.status = .active ∧ e.scope = scope ∧ e.count = 1

/-- R21, R398, R422, R465 to R469, R471, R473: a fault is held at its scope. A die that stops fails with its stacks or links, HG at Device
scope; a bezel restart ends commands with 0x000D; an alarm erases every key, closes the gates and stops jobs, at Sleep and Dormant once
the device is at Run again; the tamper alarm never clears.
R422, R467, R471: an alarm other than tamper clears: its fault's cause is gone, the wrapping keys come back once no alarm is left, and
the gates reopen where nothing holds them. -/
def Obligations.FaultRows : Prop :=
  (∀ (s : State), s.boot.phase ≠ .reset → (s.faults.table = []) →
      (∀ die, die < 12 → s.dieFailed die = false →
        (Runs (.engineWd die) s fun t => t.dieFailed die = true ∧ listsFault t 8 .die die ∧
          (die < 8 → ∀ j, j < 4 → (t.stack (4 * die + j)).state = .failed) ∧
          (8 ≤ die → ∀ l, l < 64 → dieOfLink l = die - 8 → (t.link l).state = .down)) ∧
        (Runs (.ucieRetry die) s fun t => t.dieFailed die = true ∧ listsFault t 4 .die die ∧
          (die < 8 → ∀ j, j < 4 → (t.stack (4 * die + j)).state = .failed) ∧
          (8 ≤ die → ∀ l, l < 64 → dieOfLink l = die - 8 → (t.link l).state = .down))) ∧
      (s.dieFailed 12 = false → exec (.ucieRetry 12) s = .next (s.raiseDevice 0x0004 12)) ∧
      (s.dieFailed 12 = false → Runs (.engineWd 12) s fun t => t.dieFailed 12 = false ∧ listsFault t 8 .device 12 ∧ t.gateHeld = true ∧
        ∀ f, f < 6 → (t.pfield f).closed = true) ∧
      (s.faults.bezelTimes = [] → (∀ e ∈ s.chans, e.2.inProg = []) →
        (Runs .bezelWatchdog s fun t => listsFault t 9 .bezel 0 ∧ t.faults.bezelRestart = true ∧ t.faults.bezelTimes = [s.now] ∧ t.chans = s.chans ∧
          SameMem s t ∧ t.facets = s.facets) ∧
        (Runs .lockstepMismatch s fun t => listsFault t 9 .bezel 0 ∧ t.faults.bezelRestart = true ∧ t.faults.bezelTimes = [s.now] ∧ t.chans = s.chans ∧
          SameMem s t ∧ t.facets = s.facets)) ∧
      (∀ w p y, s.faults.bezelTimes = [] → s.chans = [(p, y)] → y.inProg = [w] → Runs .bezelWatchdog s fun t =>
        t.faults.bezelRestart = true ∧ ∃ u : State, t.chans = (u.finish { ch := p, id := w.id, seq := w.seq } 0x000D 0x0009 []).chans ∧ u.chans = s.chans ∧
          u.now = s.now ∧ SameMem s u) ∧
      (s.faults.bezelRestart = true → Runs .bezelRestartDone s fun t => t.faults.bezelRestart = false ∧ t.chans = s.chans ∧ SameMem s t ∧
        t.facets = s.facets ∧ (s.boot.switching = false → t.boot = s.boot) ∧
        (∀ k im, s.boot.switching = true → s.boot.committed = some k → s.boot.image k = some im →
          t.boot = { s.boot.runs k im with activating := none, switching := false })) ∧
      (Runs .pcieInternal s fun t => listsFault t 7 .endpoint 0 ∧ t.pcie.link = .training ∧ t.pcie.linkUp = false) ∧
      (∀ sensor, s.faults.alarms = [] → s.faults.late = [] → (s.cipher.ctxs.all fun e => e.2.chain.isNone) = true → s.parcels = [] →
        let erased (t : State) := t.cipher.alarm = true ∧ t.cipher.keys = false ∧ t.cipher.erasures = min 0xFFFFFFFF (s.cipher.erasures + 1) ∧
          t.cipher.counters = s.cipher.counters ∧ ∀ e ∈ t.cipher.ctxs, e.2.key = none
        let kept (t : State) := erased t ∧ (∀ f, f < 6 → (t.pfield f).closed = true) ∧ t.gateHeld = true ∧
          (s.power.rung = 0 → s.power.entering = none → SameMem s t ∧ t.facets = s.facets ∧ t.chans = s.chans)
        let met : Prop := (sensor = 0 ∨ 11 < sensor) ∨ (1 ≤ sensor ∧ sensor ≤ 4 ∧ s.pins.en.getLsbD (sensor - 1) = true) ∨
          (5 ≤ sensor ∧ sensor ≤ 11 ∧ (s.rail (sensor - 5)).armed = true)
        (¬met → Runs (.voltageAlarm sensor) s fun t => t = s) ∧
        (s.power.rung < 3 →
          (met → Runs (.voltageAlarm sensor) s fun t => kept t ∧ listsFault t 0x10 .device sensor ∧ t.faults.alarms = [1] ∧
            (1 ≤ sensor → sensor ≤ 4 → t.pins.pg.getLsbD (sensor - 1) = false)) ∧
          (Runs (.temperatureAlarm sensor) s fun t => kept t ∧ listsFault t 0x11 .device sensor ∧ t.faults.alarms = [2]) ∧
          (Runs (.clockAlarm sensor) s fun t => kept t ∧ listsFault t 0x12 .device sensor ∧ t.faults.alarms = [3] ∧ t.pins.tkclkOk = false) ∧
          (Runs (.tamperAlarm sensor) s fun t => kept t ∧ listsFault t 0x13 .device sensor ∧ t.faults.alarms = [4] ∧
            (sensor = 0 → t.pins.tamper = true))) ∧
        (3 ≤ s.power.rung → s.power.entering = none → Runs (.temperatureAlarm sensor) s fun t => erased t ∧ t.faults.table = [] ∧
          t.faults.alarms = [2] ∧ t.faults.late = [(2, sensor)] ∧ t.power = s.power ∧ SameMem s t))) ∧
  (∀ (s : State) (source : Nat),
      (source = 4 ∨ source ∉ s.faults.alarms → Runs (.alarmClear source) s fun t => t = s) ∧
      (source ≠ 4 → source ∈ s.faults.alarms → Runs (.alarmClear source) s fun t => SameMem s t ∧ t.chans = s.chans ∧ source ∉ t.faults.alarms ∧
        (∀ a, a ≠ source → (a ∈ t.faults.alarms ↔ a ∈ s.faults.alarms)) ∧
        (∀ e ∈ t.faults.table, e.2.code = alarmCode source → e.2.status ≠ .active) ∧
        ((∀ a ∈ s.faults.alarms, a = source) → t.cipher.keys = true ∧ t.cipher.alarm = false) ∧
        ((∃ a ∈ s.faults.alarms, a ≠ source) → t.cipher = s.cipher) ∧
        (s.power.pfw = false → s.power.reopenAt = none → (∀ e ∈ s.faults.table, e.2.scope = .device → e.2.status = .active → e.2.code = alarmCode source) →
          ∀ f, f < 6 → (t.pfield f).closed = false)))

/-- R474, R475: the diagnostic commands. An entry clears only once its cause is gone, or at Record or Command scope; a failed die or stack
restarts empty while no parcel runs; a device reset follows its reply; an injected error waits for its unit. -/
def Obligations.DiagnosticCommands : Prop :=
  ∀ (s : State) (c : Cmd),
    let ps := c.pkt.params
    let n := fieldAt ps 0 1
    let j := fieldAt ps 1 1
    (∀ v, s.takes dgnFaultGetSpec c = true → v = s.entered dgnFaultGetSpec c → Succeeds (.dgnFaultGet c) c s
      (leBytes 1 (v.faults.table.filter fun e => e.2.status = .active).length ++ zeros 7 ++
        (List.range j).flatMap fun k => faultBytes (v.faults.table.find (n + k))) fun u => u = v) ∧
    (∀ v, s.takes dgnFaultClearSpec c = true → v = s.entered dgnFaultClearSpec c →
      (v.faults.table.find n = none → Ends (.dgnFaultClear c) c s 0xD001 fun u => u = v) ∧
      (∀ e, v.faults.table.find n = some e →
        (e.status = .active → e.scope ≠ .record → e.scope ≠ .command → Ends (.dgnFaultClear c) c s 0xD002 fun u => u = v) ∧
        (e.status = .causeClear ∨ e.scope = .record ∨ e.scope = .command → Succeeds (.dgnFaultClear c) c s [] fun u =>
          u = { v with faults := { v.faults with table := v.faults.table.put n { e with status := .cleared } } }))) ∧
    (∀ v w k, s.takes dgnDieRestartSpec c = true → v = s.entered dgnDieRestartSpec c → k = 4 * n + j →
      (v.power.pfw = true → Ends (.dgnDieRestart c) c s 0xD006 fun u => u = v) ∧
      (v.power.pfw = false → (v.parcels.any fun e => e.2.valid && v.parcelState e.1 = .running) = true →
        Ends (.dgnDieRestart c) c s 0xD003 fun u => u = v) ∧
      (v.power.pfw = false → (v.parcels.any fun e => e.2.valid && v.parcelState e.1 = .running) = false →
        (j = 0xFF → v.dieFailed n = false → Ends (.dgnDieRestart c) c s 0xD003 fun u => u = v) ∧
        (j = 0xFF → v.dieFailed n = true →
          (v.mayFail = (true, w) → Ends (.dgnDieRestart c) c s 0xD004 fun u => u = w.recordFault 0x0003 .die n) ∧
          (v.mayFail = (false, w) → Succeeds (.dgnDieRestart c) c s [] fun u => u.dieFailed n = false ∧
            (n < 8 → ∀ m, m < 4 → (u.stack (4 * n + m)).state = .ready ∧ (u.stack (4 * n + m)).written = [] ∧
              ∀ a, a < hbmSize → v.stackOf a = 4 * n + m → u.readByte a = 0))) ∧
        (j < 4 → n < 8 → (v.stack k).state = .failed → v.dieFailed n = false → v.mayFail = (false, w) → Succeeds (.dgnDieRestart c) c s [] fun u =>
          (u.stack k).state = .ready ∧ (∀ a, a < hbmSize → v.stackOf a = k → u.readByte a = 0) ∧
          ∀ a, a < hbmSize → v.stackOf a ≠ k → u.readByte a = v.readByte a) ∧
        (j < 4 → n < 8 → (v.stack k).state = .failed → v.dieFailed n = false → v.mayFail = (true, w) →
          Ends (.dgnDieRestart c) c s 0xD004 fun u => u = w.recordFault 0x000A .stack k) ∧
        (j < 4 → n < 8 → (v.stack k).state ≠ .failed → Ends (.dgnDieRestart c) c s 0xD003 fun u => u = v))) ∧
    (∀ v, s.takes dgnDeviceResetSpec c = true → v = s.entered dgnDeviceResetSpec c → v.boot.resetDue = false →
      (v.power.pfw = true → Ends (.dgnDeviceReset c) c s 0xD006 fun u => u = v) ∧
      (v.power.pfw = false → v.boot.phase ≠ .reset → Runs (.dgnDeviceReset c) s fun t => t.boot.phase = .reset ∧ t.boot.resetDue = true ∧
        t.now = v.now ∧ t.mem = [] ∧ t.facets = [] ∧ t.chans = [] ∧ t.loupe.staging = v.loupe.staging ∧ t.loupe.seq = v.loupe.seq ∧
        t.boot.flash = v.boot.flash ∧ t.boot.cnt0 = v.boot.cnt0 ∧ t.boot.cnt1 = v.boot.cnt1 ∧ t.boot.cnt2 = v.boot.cnt2)) ∧
    (∀ v a unit, s.takes dgnInjectSpec c = true → v = s.entered dgnInjectSpec c → a = fieldAt ps 8 8 → unit = a / unitOf a * unitOf a →
      let ours : Prop := v.unmapped a = false ∧ (regionOf a = .hbm ∨ ∃ f b, regionOf a = .spad f b)
      (¬ours → Ends (.dgnInject c) c s 0xD005 fun u => u = v) ∧
      (ours → n = 1 → Succeeds (.dgnInject c) c s [] fun u => u = { v with faults := { v.faults with inject := v.faults.inject.put unit 1 } }) ∧
      (ours → n = 2 → Succeeds (.dgnInject c) c s [] fun u => unit ∈ u.hbm.bad ∧ (∀ k ∈ u.hbm.bad, k = unit ∨ k ∈ v.hbm.bad) ∧ SameMem v u ∧
        u.faults = v.faults))

/-! ## The block as a whole -/

/-- A step takes the command at the front of the queue and runs it with the queue's rest; on an empty queue
only local time moves (the model's choice, log entry 1). -/
def Obligations.StepRunsFront : Prop :=
  (∀ (s : State) (c : Instr), step { s with pending := c :: s.pending } = exec c s) ∧
  (∀ s : State, s.pending = [] → step s = .next { s with now := s.now + 1 })

/-- Every step keeps device memory in its canonical form: no command leaves an address listed twice, out of order, or listed with the
byte that an unlisted address reads as. -/
def Obligations.StepKeepsMemoryForm : Prop :=
  ∀ s t : State, MemOk s → step s = .next t → MemOk t

/-- Every step consumes exactly the command at the front of the queue, and no command's effect reaches the commands that wait. -/
def Obligations.StepConsumesOneCommand : Prop :=
  ∀ s t : State, step s = .next t → t.pending = s.pending.tail

/-- Control-space addresses with the value that their register tables give after power-on reset. -/
def resetWords : List (Nat × Nat) :=
  [(baseBZL, 0), (baseBZL + 8, 0), (baseBZL + 0x10, 0), (basePWR, 0x0400_0000_0000_03E8), (basePWR + 8, 0x0960_0000), (basePWR + 0x10, 0),
    (basePWR + 0x18, 0x1F40_D405_F000_0000), (basePWR + 0x140, 0), (baseLOG, 0), (baseLOG + 8, 0), (baseLOG + 0x10, 0x3E8), (baseLOG + 0x48, 0),
    (baseLOG + 0x100, 0), (baseLOG + 0x200, 0), (baseNVC + 0x2_0000, 0x1F40), (baseCIP, 0), (baseNET, 0x12B5_17C1_0000),
    (baseNET + 0x100, 0x0408_2600_0000_0000), (baseRMA + 8, 0x0BB8_1000_0040), (baseZLK, 0x88B5_FFFF_8020_0000), (baseZLK + 8, 0xFFFF_FFFF_FFFF),
    (baseZLK + 0x18, 0x14), (baseZLK + 0x28, 0xF8_0000_0000), (baseZLK + 0x200, 1), (baseZLK + 0x400, 0x0007_D000_0000), (baseMEM + 8, 0x4488),
    (baseMEM + 0x10, 0x440), (baseMEM + 0x18, 0x18), (baseMEM + 0x100, 0x0001_0000_0000_0000), (baseGTH, 0x10), (baseTBL + 0x800_0000, 0x64),
    (baseTBL, 0), (baseTBL + 0x80, 0), (baseFCT + 8, 0), (baseFCT + 0x10, 0), (baseFCT + 0x20, 0xF_4240), (baseFCT + 0x28, 0), (baseFCT + 0x90, 0),
    (baseFCT + 0x98, 0xFFFF_FFFF)]

/-- R233, R380, R451, R487 and the reset columns of the register tables: the state after power-on reset is the one the spec gives:
its memory is in canonical form, no command waits, SEQ is 0, channels 0 to 2 are unsynced and the others disabled, nothing is loaded,
and the registers listed read as their tables say once the rail of their block is on. -/
def Obligations.ResetState : Prop :=
  MemOk State.reset ∧ State.reset.pending = [] ∧ State.reset.emitted = [] ∧ State.reset.now = 0 ∧ State.reset.loupe.seq = 0 ∧
  (∀ f, f < nFacets → (State.reset.facet f).state = .empty ∧ (State.reset.facet f).owner = none ∧ (State.reset.facet f).exc = none) ∧
  (∀ p, (State.reset.parcel p).valid = false) ∧
  (∀ i, i ≠ 0 → (State.reset.inst i).state = .free) ∧ (∀ i, (State.reset.inst i).gen = 0) ∧
  (∀ ch, (State.reset.chan ch).state = if ch < 3 then .unsynced else .disabled) ∧
  (∀ f, (State.reset.fn f).bound = if f = 0 then some 0 else none) ∧ (∀ i, (State.reset.ctrl i).mode = .off) ∧
  ∀ e ∈ resetWords, (((State.reset.setRail 0 500).setRail 6 750).regRead e.1).1 = BitVec.ofNat 64 e.2
end

