-- ==== Sys2Proof/Laws/Tables.lean ====
section
/-! SUPPORT. Tables by number: what a write or a removal of one entry does to every entry; and memory: what a write of one
byte does to every byte, and that every memory operation keeps the canonical form. -/

namespace Sys2Proof

/-! ## Tables -/

variable {α : Type} (t : Tbl α)

@[simp] theorem Tbl.find_put_self (n : Nat) (x : α) : Tbl.find (Tbl.put t n x) n = some x := by
  induction t with
  | nil => simp [Tbl.put, Tbl.find]
  | cons e t ih =>
    obtain ⟨k, v⟩ := e
    simp only [Tbl.put]
    split
    · simp [Tbl.find]
    · split
      · simp [Tbl.find]
      · rename_i h
        simp [Tbl.find, Ne.symm h, ih]

theorem Tbl.find_put_ne {m n : Nat} (h : m ≠ n) (x : α) : Tbl.find (Tbl.put t n x) m = Tbl.find t m := by
  induction t with
  | nil => simp [Tbl.put, Tbl.find, Ne.symm h]
  | cons e t ih =>
    obtain ⟨k, v⟩ := e
    simp only [Tbl.put]
    split
    · simp [Tbl.find, Ne.symm h]
    · split
      · rename_i h'
        subst h'
        simp [Tbl.find, Ne.symm h]
      · simp only [Tbl.find, ih]

@[simp] theorem Tbl.getD_put_self (n : Nat) (x d : α) : Tbl.getD (Tbl.put t n x) n d = x := by simp [Tbl.getD]

theorem Tbl.getD_put_ne {m n : Nat} (h : m ≠ n) (x d : α) : Tbl.getD (Tbl.put t n x) m d = Tbl.getD t m d := by
  simp [Tbl.getD, Tbl.find_put_ne t h]

@[simp] theorem Tbl.find_del_self (n : Nat) : Tbl.find (Tbl.del t n) n = none := by
  induction t with
  | nil => rfl
  | cons e t ih =>
    obtain ⟨k, v⟩ := e
    by_cases h : k = n
    · subst h
      simpa [Tbl.del, List.filter] using ih
    · simp only [Tbl.del, List.filter, ne_eq, h, not_false_eq_true, decide_true, Tbl.find, if_false]
      simpa [Tbl.del] using ih

theorem Tbl.find_del_ne {m n : Nat} (h : m ≠ n) : Tbl.find (Tbl.del t n) m = Tbl.find t m := by
  induction t with
  | nil => rfl
  | cons e t ih =>
    obtain ⟨k, v⟩ := e
    by_cases hk : k = n
    · subst hk
      simp only [Tbl.del, List.filter, ne_eq, not_true_eq_false, decide_false, Tbl.find, Ne.symm h, if_false]
      simpa [Tbl.del] using ih
    · simp only [Tbl.del, List.filter, ne_eq, hk, not_false_eq_true, decide_true, Tbl.find]
      split
      · rfl
      · simpa [Tbl.del] using ih

@[simp] theorem Tbl.getD_del_self (n : Nat) (d : α) : Tbl.getD (Tbl.del t n) n d = d := by simp [Tbl.getD]

theorem Tbl.getD_del_ne {m n : Nat} (h : m ≠ n) (d : α) : Tbl.getD (Tbl.del t n) m d = Tbl.getD t m d := by
  simp [Tbl.getD, Tbl.find_del_ne t h]

/-! ## Memory -/

theorem Memory.get_set_self (m : List Host.Cell) (a : Nat) (v : Byte) (h : Memory.wf m = true) :
    Memory.get (Memory.set m a v) a = v := by
  have gen : ∀ (m : List Host.Cell) (lo : Nat), Memory.wfFrom lo m = true → (∀ b, lo ≤ b → True) →
      Memory.get (Memory.set m a v) a = v := by
    intro m
    induction m with
    | nil =>
      intro lo _ _
      simp only [Memory.set]
      split
      · rename_i h; simp [Memory.get, h]
      · simp [Memory.get]
    | cons c m ih =>
      intro lo hw _
      obtain ⟨k, b⟩ := c
      simp only [Memory.wfFrom, Bool.and_eq_true, decide_eq_true_eq] at hw
      simp only [Memory.set]
      have out : ∀ (m : List Host.Cell) (lo : Nat), Memory.wfFrom lo m = true → a < lo → Memory.get m a = 0 := by
        intro m
        induction m with
        | nil => intro _ _ _; rfl
        | cons c m ih =>
          intro lo hw hl
          obtain ⟨k, b⟩ := c
          simp only [Memory.wfFrom, Bool.and_eq_true, decide_eq_true_eq] at hw
          simp only [Memory.get]
          rw [if_neg (by omega)]
          exact ih _ hw.2 (by omega)
      split
      · split
        · rename_i h1 h2
          simp only [Memory.get]
          rw [if_neg (by omega), h2]
          exact out _ _ hw.2 (by omega)
        · simp [Memory.get]
      · split
        · rename_i h1 h2
          split
          · rename_i h3
            rw [h3]
            exact out _ _ hw.2 (by omega)
          · simp [Memory.get]
        · rename_i h1 h2
          simp only [Memory.get]
          rw [if_neg (by omega)]
          exact ih _ hw.2 (by simp)
  exact gen m 0 h (by simp)

theorem Memory.get_set_ne (m : List Host.Cell) {a n : Nat} (v : Byte) (h : n ≠ a) : Memory.get (Memory.set m a v) n = Memory.get m n := by
  induction m with
  | nil =>
    simp only [Memory.set]
    split
    · rfl
    · simp [Memory.get, Ne.symm h]
  | cons c m ih =>
    obtain ⟨k, b⟩ := c
    simp only [Memory.set]
    split
    · split
      · rfl
      · simp [Memory.get, Ne.symm h]
    · split
      · rename_i h2
        subst h2
        split
        · simp [Memory.get, Ne.symm h]
        · simp [Memory.get, Ne.symm h]
      · simp [Memory.get, ih]

theorem Memory.wfFrom_mono {lo lo' : Nat} (m : List Host.Cell) (h : Memory.wfFrom lo m = true) (hl : lo' ≤ lo) : Memory.wfFrom lo' m = true := by
  cases m with
  | nil => rfl
  | cons c m =>
    simp only [Memory.wfFrom, Bool.and_eq_true, decide_eq_true_eq] at h ⊢
    exact ⟨⟨by omega, h.1.2⟩, h.2⟩

theorem Memory.wfFrom_set (m : List Host.Cell) (a : Nat) (v : Byte) :
    ∀ lo, lo ≤ a → Memory.wfFrom lo m = true → Memory.wfFrom lo (Memory.set m a v) = true := by
  induction m with
  | nil =>
    intro lo hl _
    simp only [Memory.set]
    split
    · rfl
    · rename_i h
      have h' : v ≠ 0#8 := h
      simp [Memory.wfFrom, hl, h']
  | cons c m ih =>
    intro lo hl hw
    obtain ⟨k, b⟩ := c
    simp only [Memory.wfFrom, Bool.and_eq_true, decide_eq_true_eq] at hw
    simp only [Memory.set]
    split
    · split
      · simp only [Memory.wfFrom, Bool.and_eq_true, decide_eq_true_eq]; exact hw
      · rename_i h1 h2
        simp only [Memory.wfFrom, Bool.and_eq_true, decide_eq_true_eq]
        exact ⟨⟨hl, by simpa using h2⟩, ⟨by omega, hw.1.2⟩, hw.2⟩
    · split
      · split
        · exact Memory.wfFrom_mono _ hw.2 (by omega)
        · rename_i h1 h2 h3
          subst h2
          simp only [Memory.wfFrom, Bool.and_eq_true, decide_eq_true_eq]
          exact ⟨⟨hl, by simpa using h3⟩, hw.2⟩
      · simp only [Memory.wfFrom, Bool.and_eq_true, decide_eq_true_eq]
        exact ⟨hw.1, ih _ (by omega) hw.2⟩

/-- A write of one byte keeps the canonical form. -/
theorem Memory.wf_set (m : List Host.Cell) (a : Nat) (v : Byte) (h : Memory.wf m = true) : Memory.wf (Memory.set m a v) = true :=
  Memory.wfFrom_set m a v 0 (Nat.zero_le _) h

/-- A write of bytes keeps the canonical form. -/
theorem Memory.wf_write (m : List Host.Cell) (a : Nat) (bs : List Byte) (h : Memory.wf m = true) : Memory.wf (Memory.write m a bs) = true := by
  induction bs generalizing m a with
  | nil => exact h
  | cons b bs ih => exact ih _ _ (Memory.wf_set m a b h)

theorem Memory.wfFrom_erase (p : Nat → Bool) (m : List Host.Cell) : ∀ lo, Memory.wfFrom lo m = true → Memory.wfFrom lo (Memory.erase p m) = true := by
  induction m with
  | nil => intro lo _; rfl
  | cons c m ih =>
    intro lo hw
    obtain ⟨k, b⟩ := c
    simp only [Memory.wfFrom, Bool.and_eq_true, decide_eq_true_eq] at hw
    simp only [Memory.erase, List.filter]
    split
    · simp only [Memory.wfFrom, Bool.and_eq_true, decide_eq_true_eq]
      exact ⟨hw.1, ih _ hw.2⟩
    · exact Memory.wfFrom_mono _ (ih _ hw.2) (by omega)

/-- Zeroing addresses keeps the canonical form. -/
theorem Memory.wf_erase (p : Nat → Bool) (m : List Host.Cell) (h : Memory.wf m = true) : Memory.wf (Memory.erase p m) = true :=
  Memory.wfFrom_erase p m 0 h

/-- A write leaves every byte outside it. -/
theorem Memory.get_write_outside (bs : List Byte) : ∀ (m : List Host.Cell) (a n : Nat), (n < a ∨ a + bs.length ≤ n) →
    Memory.get (Memory.write m a bs) n = Memory.get m n := by
  induction bs with
  | nil => intro m a n _; rfl
  | cons b bs ih =>
    intro m a n h
    simp only [List.length_cons] at h
    rw [Memory.write, ih _ _ _ (by omega), Memory.get_set_ne _ _ (by omega)]

/-- Every byte of a write reads back. -/
theorem Memory.get_write_inside (bs : List Byte) : ∀ (m : List Host.Cell) (a j : Nat), Memory.wf m = true → (h : j < bs.length) →
    Memory.get (Memory.write m a bs) (a + j) = bs[j] := by
  induction bs with
  | nil => intro m a j _ h; simp at h
  | cons b bs ih =>
    intro m a j hw h
    cases j with
    | zero =>
      rw [Memory.write, Memory.get_write_outside _ _ _ _ (by omega)]
      simpa using Memory.get_set_self m a b hw
    | succ j =>
      have := ih (Memory.set m a b) (a + 1) j (Memory.wf_set m a b hw) (by simpa using h)
      rw [Memory.write]
      rw [show a + (j + 1) = a + 1 + j by omega]
      simpa using this

end Sys2Proof
end

