-- ==== Sys2Proof/Laws/State.lean ====
section
/-! SUPPORT. What the updates of the state's parts leave as it was, field by field, and what they write: so that no proof
unfolds a record update. -/

namespace Sys2Proof.Machine

variable (s : State)

/-! ### putFacet -/

@[simp] theorem State.putFacet_now (f : Nat) (x : Facet) : (s.putFacet f x).now = s.now := rfl
@[simp] theorem State.putFacet_mem (f : Nat) (x : Facet) : (s.putFacet f x).mem = s.mem := rfl
@[simp] theorem State.putFacet_emitted (f : Nat) (x : Facet) : (s.putFacet f x).emitted = s.emitted := rfl
@[simp] theorem State.putFacet_loupe (f : Nat) (x : Facet) : (s.putFacet f x).loupe = s.loupe := rfl
@[simp] theorem State.putFacet_faults (f : Nat) (x : Facet) : (s.putFacet f x).faults = s.faults := rfl
@[simp] theorem State.putFacet_mesh (f : Nat) (x : Facet) : (s.putFacet f x).mesh = s.mesh := rfl
@[simp] theorem State.putFacet_hbm (f : Nat) (x : Facet) : (s.putFacet f x).hbm = s.hbm := rfl
@[simp] theorem State.putFacet_gather (f : Nat) (x : Facet) : (s.putFacet f x).gather = s.gather := rfl
@[simp] theorem State.putFacet_parcels (f : Nat) (x : Facet) : (s.putFacet f x).parcels = s.parcels := rfl
@[simp] theorem State.putFacet_rings (f : Nat) (x : Facet) : (s.putFacet f x).rings = s.rings := rfl
@[simp] theorem State.putFacet_insts (f : Nat) (x : Facet) : (s.putFacet f x).insts = s.insts := rfl
@[simp] theorem State.putFacet_acct (f : Nat) (x : Facet) : (s.putFacet f x).acct = s.acct := rfl
@[simp] theorem State.putFacet_chans (f : Nat) (x : Facet) : (s.putFacet f x).chans = s.chans := rfl
@[simp] theorem State.putFacet_fabric (f : Nat) (x : Facet) : (s.putFacet f x).fabric = s.fabric := rfl
@[simp] theorem State.putFacet_eth (f : Nat) (x : Facet) : (s.putFacet f x).eth = s.eth := rfl
@[simp] theorem State.putFacet_traffic (f : Nat) (x : Facet) : (s.putFacet f x).traffic = s.traffic := rfl
@[simp] theorem State.putFacet_rma (f : Nat) (x : Facet) : (s.putFacet f x).rma = s.rma := rfl
@[simp] theorem State.putFacet_storage (f : Nat) (x : Facet) : (s.putFacet f x).storage = s.storage := rfl
@[simp] theorem State.putFacet_pcie (f : Nat) (x : Facet) : (s.putFacet f x).pcie = s.pcie := rfl
@[simp] theorem State.putFacet_cipher (f : Nat) (x : Facet) : (s.putFacet f x).cipher = s.cipher := rfl
@[simp] theorem State.putFacet_power (f : Nat) (x : Facet) : (s.putFacet f x).power = s.power := rfl
@[simp] theorem State.putFacet_boot (f : Nat) (x : Facet) : (s.putFacet f x).boot = s.boot := rfl
@[simp] theorem State.putFacet_pins (f : Nat) (x : Facet) : (s.putFacet f x).pins = s.pins := rfl
@[simp] theorem State.putFacet_free (f : Nat) (x : Facet) : (s.putFacet f x).free = s.free := rfl
@[simp] theorem State.putFacet_pending (f : Nat) (x : Facet) : (s.putFacet f x).pending = s.pending := rfl

/-! ### modFacet -/

@[simp] theorem State.modFacet_now (f : Nat) (g : Facet → Facet) : (s.modFacet f g).now = s.now := rfl
@[simp] theorem State.modFacet_mem (f : Nat) (g : Facet → Facet) : (s.modFacet f g).mem = s.mem := rfl
@[simp] theorem State.modFacet_emitted (f : Nat) (g : Facet → Facet) : (s.modFacet f g).emitted = s.emitted := rfl
@[simp] theorem State.modFacet_loupe (f : Nat) (g : Facet → Facet) : (s.modFacet f g).loupe = s.loupe := rfl
@[simp] theorem State.modFacet_faults (f : Nat) (g : Facet → Facet) : (s.modFacet f g).faults = s.faults := rfl
@[simp] theorem State.modFacet_mesh (f : Nat) (g : Facet → Facet) : (s.modFacet f g).mesh = s.mesh := rfl
@[simp] theorem State.modFacet_hbm (f : Nat) (g : Facet → Facet) : (s.modFacet f g).hbm = s.hbm := rfl
@[simp] theorem State.modFacet_gather (f : Nat) (g : Facet → Facet) : (s.modFacet f g).gather = s.gather := rfl
@[simp] theorem State.modFacet_parcels (f : Nat) (g : Facet → Facet) : (s.modFacet f g).parcels = s.parcels := rfl
@[simp] theorem State.modFacet_rings (f : Nat) (g : Facet → Facet) : (s.modFacet f g).rings = s.rings := rfl
@[simp] theorem State.modFacet_insts (f : Nat) (g : Facet → Facet) : (s.modFacet f g).insts = s.insts := rfl
@[simp] theorem State.modFacet_acct (f : Nat) (g : Facet → Facet) : (s.modFacet f g).acct = s.acct := rfl
@[simp] theorem State.modFacet_chans (f : Nat) (g : Facet → Facet) : (s.modFacet f g).chans = s.chans := rfl
@[simp] theorem State.modFacet_fabric (f : Nat) (g : Facet → Facet) : (s.modFacet f g).fabric = s.fabric := rfl
@[simp] theorem State.modFacet_eth (f : Nat) (g : Facet → Facet) : (s.modFacet f g).eth = s.eth := rfl
@[simp] theorem State.modFacet_traffic (f : Nat) (g : Facet → Facet) : (s.modFacet f g).traffic = s.traffic := rfl
@[simp] theorem State.modFacet_rma (f : Nat) (g : Facet → Facet) : (s.modFacet f g).rma = s.rma := rfl
@[simp] theorem State.modFacet_storage (f : Nat) (g : Facet → Facet) : (s.modFacet f g).storage = s.storage := rfl
@[simp] theorem State.modFacet_pcie (f : Nat) (g : Facet → Facet) : (s.modFacet f g).pcie = s.pcie := rfl
@[simp] theorem State.modFacet_cipher (f : Nat) (g : Facet → Facet) : (s.modFacet f g).cipher = s.cipher := rfl
@[simp] theorem State.modFacet_power (f : Nat) (g : Facet → Facet) : (s.modFacet f g).power = s.power := rfl
@[simp] theorem State.modFacet_boot (f : Nat) (g : Facet → Facet) : (s.modFacet f g).boot = s.boot := rfl
@[simp] theorem State.modFacet_pins (f : Nat) (g : Facet → Facet) : (s.modFacet f g).pins = s.pins := rfl
@[simp] theorem State.modFacet_free (f : Nat) (g : Facet → Facet) : (s.modFacet f g).free = s.free := rfl
@[simp] theorem State.modFacet_pending (f : Nat) (g : Facet → Facet) : (s.modFacet f g).pending = s.pending := rfl

/-! ### putInst -/

@[simp] theorem State.putInst_now (i : Nat) (x : Instance) : (s.putInst i x).now = s.now := rfl
@[simp] theorem State.putInst_mem (i : Nat) (x : Instance) : (s.putInst i x).mem = s.mem := rfl
@[simp] theorem State.putInst_emitted (i : Nat) (x : Instance) : (s.putInst i x).emitted = s.emitted := rfl
@[simp] theorem State.putInst_loupe (i : Nat) (x : Instance) : (s.putInst i x).loupe = s.loupe := rfl
@[simp] theorem State.putInst_faults (i : Nat) (x : Instance) : (s.putInst i x).faults = s.faults := rfl
@[simp] theorem State.putInst_facets (i : Nat) (x : Instance) : (s.putInst i x).facets = s.facets := rfl
@[simp] theorem State.putInst_mesh (i : Nat) (x : Instance) : (s.putInst i x).mesh = s.mesh := rfl
@[simp] theorem State.putInst_hbm (i : Nat) (x : Instance) : (s.putInst i x).hbm = s.hbm := rfl
@[simp] theorem State.putInst_gather (i : Nat) (x : Instance) : (s.putInst i x).gather = s.gather := rfl
@[simp] theorem State.putInst_parcels (i : Nat) (x : Instance) : (s.putInst i x).parcels = s.parcels := rfl
@[simp] theorem State.putInst_rings (i : Nat) (x : Instance) : (s.putInst i x).rings = s.rings := rfl
@[simp] theorem State.putInst_acct (i : Nat) (x : Instance) : (s.putInst i x).acct = s.acct := rfl
@[simp] theorem State.putInst_chans (i : Nat) (x : Instance) : (s.putInst i x).chans = s.chans := rfl
@[simp] theorem State.putInst_fabric (i : Nat) (x : Instance) : (s.putInst i x).fabric = s.fabric := rfl
@[simp] theorem State.putInst_eth (i : Nat) (x : Instance) : (s.putInst i x).eth = s.eth := rfl
@[simp] theorem State.putInst_traffic (i : Nat) (x : Instance) : (s.putInst i x).traffic = s.traffic := rfl
@[simp] theorem State.putInst_rma (i : Nat) (x : Instance) : (s.putInst i x).rma = s.rma := rfl
@[simp] theorem State.putInst_storage (i : Nat) (x : Instance) : (s.putInst i x).storage = s.storage := rfl
@[simp] theorem State.putInst_pcie (i : Nat) (x : Instance) : (s.putInst i x).pcie = s.pcie := rfl
@[simp] theorem State.putInst_cipher (i : Nat) (x : Instance) : (s.putInst i x).cipher = s.cipher := rfl
@[simp] theorem State.putInst_power (i : Nat) (x : Instance) : (s.putInst i x).power = s.power := rfl
@[simp] theorem State.putInst_boot (i : Nat) (x : Instance) : (s.putInst i x).boot = s.boot := rfl
@[simp] theorem State.putInst_pins (i : Nat) (x : Instance) : (s.putInst i x).pins = s.pins := rfl
@[simp] theorem State.putInst_free (i : Nat) (x : Instance) : (s.putInst i x).free = s.free := rfl
@[simp] theorem State.putInst_pending (i : Nat) (x : Instance) : (s.putInst i x).pending = s.pending := rfl

/-! ### modInst -/

@[simp] theorem State.modInst_now (i : Nat) (g : Instance → Instance) : (s.modInst i g).now = s.now := rfl
@[simp] theorem State.modInst_mem (i : Nat) (g : Instance → Instance) : (s.modInst i g).mem = s.mem := rfl
@[simp] theorem State.modInst_emitted (i : Nat) (g : Instance → Instance) : (s.modInst i g).emitted = s.emitted := rfl
@[simp] theorem State.modInst_loupe (i : Nat) (g : Instance → Instance) : (s.modInst i g).loupe = s.loupe := rfl
@[simp] theorem State.modInst_faults (i : Nat) (g : Instance → Instance) : (s.modInst i g).faults = s.faults := rfl
@[simp] theorem State.modInst_facets (i : Nat) (g : Instance → Instance) : (s.modInst i g).facets = s.facets := rfl
@[simp] theorem State.modInst_mesh (i : Nat) (g : Instance → Instance) : (s.modInst i g).mesh = s.mesh := rfl
@[simp] theorem State.modInst_hbm (i : Nat) (g : Instance → Instance) : (s.modInst i g).hbm = s.hbm := rfl
@[simp] theorem State.modInst_gather (i : Nat) (g : Instance → Instance) : (s.modInst i g).gather = s.gather := rfl
@[simp] theorem State.modInst_parcels (i : Nat) (g : Instance → Instance) : (s.modInst i g).parcels = s.parcels := rfl
@[simp] theorem State.modInst_rings (i : Nat) (g : Instance → Instance) : (s.modInst i g).rings = s.rings := rfl
@[simp] theorem State.modInst_acct (i : Nat) (g : Instance → Instance) : (s.modInst i g).acct = s.acct := rfl
@[simp] theorem State.modInst_chans (i : Nat) (g : Instance → Instance) : (s.modInst i g).chans = s.chans := rfl
@[simp] theorem State.modInst_fabric (i : Nat) (g : Instance → Instance) : (s.modInst i g).fabric = s.fabric := rfl
@[simp] theorem State.modInst_eth (i : Nat) (g : Instance → Instance) : (s.modInst i g).eth = s.eth := rfl
@[simp] theorem State.modInst_traffic (i : Nat) (g : Instance → Instance) : (s.modInst i g).traffic = s.traffic := rfl
@[simp] theorem State.modInst_rma (i : Nat) (g : Instance → Instance) : (s.modInst i g).rma = s.rma := rfl
@[simp] theorem State.modInst_storage (i : Nat) (g : Instance → Instance) : (s.modInst i g).storage = s.storage := rfl
@[simp] theorem State.modInst_pcie (i : Nat) (g : Instance → Instance) : (s.modInst i g).pcie = s.pcie := rfl
@[simp] theorem State.modInst_cipher (i : Nat) (g : Instance → Instance) : (s.modInst i g).cipher = s.cipher := rfl
@[simp] theorem State.modInst_power (i : Nat) (g : Instance → Instance) : (s.modInst i g).power = s.power := rfl
@[simp] theorem State.modInst_boot (i : Nat) (g : Instance → Instance) : (s.modInst i g).boot = s.boot := rfl
@[simp] theorem State.modInst_pins (i : Nat) (g : Instance → Instance) : (s.modInst i g).pins = s.pins := rfl
@[simp] theorem State.modInst_free (i : Nat) (g : Instance → Instance) : (s.modInst i g).free = s.free := rfl
@[simp] theorem State.modInst_pending (i : Nat) (g : Instance → Instance) : (s.modInst i g).pending = s.pending := rfl

/-! ### putParcel -/

@[simp] theorem State.putParcel_now (p : Nat) (x : Parcel) : (s.putParcel p x).now = s.now := rfl
@[simp] theorem State.putParcel_mem (p : Nat) (x : Parcel) : (s.putParcel p x).mem = s.mem := rfl
@[simp] theorem State.putParcel_emitted (p : Nat) (x : Parcel) : (s.putParcel p x).emitted = s.emitted := rfl
@[simp] theorem State.putParcel_loupe (p : Nat) (x : Parcel) : (s.putParcel p x).loupe = s.loupe := rfl
@[simp] theorem State.putParcel_faults (p : Nat) (x : Parcel) : (s.putParcel p x).faults = s.faults := rfl
@[simp] theorem State.putParcel_facets (p : Nat) (x : Parcel) : (s.putParcel p x).facets = s.facets := rfl
@[simp] theorem State.putParcel_mesh (p : Nat) (x : Parcel) : (s.putParcel p x).mesh = s.mesh := rfl
@[simp] theorem State.putParcel_hbm (p : Nat) (x : Parcel) : (s.putParcel p x).hbm = s.hbm := rfl
@[simp] theorem State.putParcel_gather (p : Nat) (x : Parcel) : (s.putParcel p x).gather = s.gather := rfl
@[simp] theorem State.putParcel_rings (p : Nat) (x : Parcel) : (s.putParcel p x).rings = s.rings := rfl
@[simp] theorem State.putParcel_insts (p : Nat) (x : Parcel) : (s.putParcel p x).insts = s.insts := rfl
@[simp] theorem State.putParcel_acct (p : Nat) (x : Parcel) : (s.putParcel p x).acct = s.acct := rfl
@[simp] theorem State.putParcel_chans (p : Nat) (x : Parcel) : (s.putParcel p x).chans = s.chans := rfl
@[simp] theorem State.putParcel_fabric (p : Nat) (x : Parcel) : (s.putParcel p x).fabric = s.fabric := rfl
@[simp] theorem State.putParcel_eth (p : Nat) (x : Parcel) : (s.putParcel p x).eth = s.eth := rfl
@[simp] theorem State.putParcel_traffic (p : Nat) (x : Parcel) : (s.putParcel p x).traffic = s.traffic := rfl
@[simp] theorem State.putParcel_rma (p : Nat) (x : Parcel) : (s.putParcel p x).rma = s.rma := rfl
@[simp] theorem State.putParcel_storage (p : Nat) (x : Parcel) : (s.putParcel p x).storage = s.storage := rfl
@[simp] theorem State.putParcel_pcie (p : Nat) (x : Parcel) : (s.putParcel p x).pcie = s.pcie := rfl
@[simp] theorem State.putParcel_cipher (p : Nat) (x : Parcel) : (s.putParcel p x).cipher = s.cipher := rfl
@[simp] theorem State.putParcel_power (p : Nat) (x : Parcel) : (s.putParcel p x).power = s.power := rfl
@[simp] theorem State.putParcel_boot (p : Nat) (x : Parcel) : (s.putParcel p x).boot = s.boot := rfl
@[simp] theorem State.putParcel_pins (p : Nat) (x : Parcel) : (s.putParcel p x).pins = s.pins := rfl
@[simp] theorem State.putParcel_free (p : Nat) (x : Parcel) : (s.putParcel p x).free = s.free := rfl
@[simp] theorem State.putParcel_pending (p : Nat) (x : Parcel) : (s.putParcel p x).pending = s.pending := rfl

/-! ### modParcel -/

@[simp] theorem State.modParcel_now (p : Nat) (g : Parcel → Parcel) : (s.modParcel p g).now = s.now := rfl
@[simp] theorem State.modParcel_mem (p : Nat) (g : Parcel → Parcel) : (s.modParcel p g).mem = s.mem := rfl
@[simp] theorem State.modParcel_emitted (p : Nat) (g : Parcel → Parcel) : (s.modParcel p g).emitted = s.emitted := rfl
@[simp] theorem State.modParcel_loupe (p : Nat) (g : Parcel → Parcel) : (s.modParcel p g).loupe = s.loupe := rfl
@[simp] theorem State.modParcel_faults (p : Nat) (g : Parcel → Parcel) : (s.modParcel p g).faults = s.faults := rfl
@[simp] theorem State.modParcel_facets (p : Nat) (g : Parcel → Parcel) : (s.modParcel p g).facets = s.facets := rfl
@[simp] theorem State.modParcel_mesh (p : Nat) (g : Parcel → Parcel) : (s.modParcel p g).mesh = s.mesh := rfl
@[simp] theorem State.modParcel_hbm (p : Nat) (g : Parcel → Parcel) : (s.modParcel p g).hbm = s.hbm := rfl
@[simp] theorem State.modParcel_gather (p : Nat) (g : Parcel → Parcel) : (s.modParcel p g).gather = s.gather := rfl
@[simp] theorem State.modParcel_rings (p : Nat) (g : Parcel → Parcel) : (s.modParcel p g).rings = s.rings := rfl
@[simp] theorem State.modParcel_insts (p : Nat) (g : Parcel → Parcel) : (s.modParcel p g).insts = s.insts := rfl
@[simp] theorem State.modParcel_acct (p : Nat) (g : Parcel → Parcel) : (s.modParcel p g).acct = s.acct := rfl
@[simp] theorem State.modParcel_chans (p : Nat) (g : Parcel → Parcel) : (s.modParcel p g).chans = s.chans := rfl
@[simp] theorem State.modParcel_fabric (p : Nat) (g : Parcel → Parcel) : (s.modParcel p g).fabric = s.fabric := rfl
@[simp] theorem State.modParcel_eth (p : Nat) (g : Parcel → Parcel) : (s.modParcel p g).eth = s.eth := rfl
@[simp] theorem State.modParcel_traffic (p : Nat) (g : Parcel → Parcel) : (s.modParcel p g).traffic = s.traffic := rfl
@[simp] theorem State.modParcel_rma (p : Nat) (g : Parcel → Parcel) : (s.modParcel p g).rma = s.rma := rfl
@[simp] theorem State.modParcel_storage (p : Nat) (g : Parcel → Parcel) : (s.modParcel p g).storage = s.storage := rfl
@[simp] theorem State.modParcel_pcie (p : Nat) (g : Parcel → Parcel) : (s.modParcel p g).pcie = s.pcie := rfl
@[simp] theorem State.modParcel_cipher (p : Nat) (g : Parcel → Parcel) : (s.modParcel p g).cipher = s.cipher := rfl
@[simp] theorem State.modParcel_power (p : Nat) (g : Parcel → Parcel) : (s.modParcel p g).power = s.power := rfl
@[simp] theorem State.modParcel_boot (p : Nat) (g : Parcel → Parcel) : (s.modParcel p g).boot = s.boot := rfl
@[simp] theorem State.modParcel_pins (p : Nat) (g : Parcel → Parcel) : (s.modParcel p g).pins = s.pins := rfl
@[simp] theorem State.modParcel_free (p : Nat) (g : Parcel → Parcel) : (s.modParcel p g).free = s.free := rfl
@[simp] theorem State.modParcel_pending (p : Nat) (g : Parcel → Parcel) : (s.modParcel p g).pending = s.pending := rfl

/-! ### modRun -/

@[simp] theorem State.modRun_now (p : Nat) (g : Run → Run) : (s.modRun p g).now = s.now := rfl
@[simp] theorem State.modRun_mem (p : Nat) (g : Run → Run) : (s.modRun p g).mem = s.mem := rfl
@[simp] theorem State.modRun_emitted (p : Nat) (g : Run → Run) : (s.modRun p g).emitted = s.emitted := rfl
@[simp] theorem State.modRun_loupe (p : Nat) (g : Run → Run) : (s.modRun p g).loupe = s.loupe := rfl
@[simp] theorem State.modRun_faults (p : Nat) (g : Run → Run) : (s.modRun p g).faults = s.faults := rfl
@[simp] theorem State.modRun_facets (p : Nat) (g : Run → Run) : (s.modRun p g).facets = s.facets := rfl
@[simp] theorem State.modRun_mesh (p : Nat) (g : Run → Run) : (s.modRun p g).mesh = s.mesh := rfl
@[simp] theorem State.modRun_hbm (p : Nat) (g : Run → Run) : (s.modRun p g).hbm = s.hbm := rfl
@[simp] theorem State.modRun_gather (p : Nat) (g : Run → Run) : (s.modRun p g).gather = s.gather := rfl
@[simp] theorem State.modRun_rings (p : Nat) (g : Run → Run) : (s.modRun p g).rings = s.rings := rfl
@[simp] theorem State.modRun_insts (p : Nat) (g : Run → Run) : (s.modRun p g).insts = s.insts := rfl
@[simp] theorem State.modRun_acct (p : Nat) (g : Run → Run) : (s.modRun p g).acct = s.acct := rfl
@[simp] theorem State.modRun_chans (p : Nat) (g : Run → Run) : (s.modRun p g).chans = s.chans := rfl
@[simp] theorem State.modRun_fabric (p : Nat) (g : Run → Run) : (s.modRun p g).fabric = s.fabric := rfl
@[simp] theorem State.modRun_eth (p : Nat) (g : Run → Run) : (s.modRun p g).eth = s.eth := rfl
@[simp] theorem State.modRun_traffic (p : Nat) (g : Run → Run) : (s.modRun p g).traffic = s.traffic := rfl
@[simp] theorem State.modRun_rma (p : Nat) (g : Run → Run) : (s.modRun p g).rma = s.rma := rfl
@[simp] theorem State.modRun_storage (p : Nat) (g : Run → Run) : (s.modRun p g).storage = s.storage := rfl
@[simp] theorem State.modRun_pcie (p : Nat) (g : Run → Run) : (s.modRun p g).pcie = s.pcie := rfl
@[simp] theorem State.modRun_cipher (p : Nat) (g : Run → Run) : (s.modRun p g).cipher = s.cipher := rfl
@[simp] theorem State.modRun_power (p : Nat) (g : Run → Run) : (s.modRun p g).power = s.power := rfl
@[simp] theorem State.modRun_boot (p : Nat) (g : Run → Run) : (s.modRun p g).boot = s.boot := rfl
@[simp] theorem State.modRun_pins (p : Nat) (g : Run → Run) : (s.modRun p g).pins = s.pins := rfl
@[simp] theorem State.modRun_free (p : Nat) (g : Run → Run) : (s.modRun p g).free = s.free := rfl
@[simp] theorem State.modRun_pending (p : Nat) (g : Run → Run) : (s.modRun p g).pending = s.pending := rfl

/-! ### modCkp -/

@[simp] theorem State.modCkp_now (p : Nat) (g : Ckp → Ckp) : (s.modCkp p g).now = s.now := rfl
@[simp] theorem State.modCkp_mem (p : Nat) (g : Ckp → Ckp) : (s.modCkp p g).mem = s.mem := rfl
@[simp] theorem State.modCkp_emitted (p : Nat) (g : Ckp → Ckp) : (s.modCkp p g).emitted = s.emitted := rfl
@[simp] theorem State.modCkp_loupe (p : Nat) (g : Ckp → Ckp) : (s.modCkp p g).loupe = s.loupe := rfl
@[simp] theorem State.modCkp_faults (p : Nat) (g : Ckp → Ckp) : (s.modCkp p g).faults = s.faults := rfl
@[simp] theorem State.modCkp_facets (p : Nat) (g : Ckp → Ckp) : (s.modCkp p g).facets = s.facets := rfl
@[simp] theorem State.modCkp_mesh (p : Nat) (g : Ckp → Ckp) : (s.modCkp p g).mesh = s.mesh := rfl
@[simp] theorem State.modCkp_hbm (p : Nat) (g : Ckp → Ckp) : (s.modCkp p g).hbm = s.hbm := rfl
@[simp] theorem State.modCkp_gather (p : Nat) (g : Ckp → Ckp) : (s.modCkp p g).gather = s.gather := rfl
@[simp] theorem State.modCkp_rings (p : Nat) (g : Ckp → Ckp) : (s.modCkp p g).rings = s.rings := rfl
@[simp] theorem State.modCkp_insts (p : Nat) (g : Ckp → Ckp) : (s.modCkp p g).insts = s.insts := rfl
@[simp] theorem State.modCkp_acct (p : Nat) (g : Ckp → Ckp) : (s.modCkp p g).acct = s.acct := rfl
@[simp] theorem State.modCkp_chans (p : Nat) (g : Ckp → Ckp) : (s.modCkp p g).chans = s.chans := rfl
@[simp] theorem State.modCkp_fabric (p : Nat) (g : Ckp → Ckp) : (s.modCkp p g).fabric = s.fabric := rfl
@[simp] theorem State.modCkp_eth (p : Nat) (g : Ckp → Ckp) : (s.modCkp p g).eth = s.eth := rfl
@[simp] theorem State.modCkp_traffic (p : Nat) (g : Ckp → Ckp) : (s.modCkp p g).traffic = s.traffic := rfl
@[simp] theorem State.modCkp_rma (p : Nat) (g : Ckp → Ckp) : (s.modCkp p g).rma = s.rma := rfl
@[simp] theorem State.modCkp_storage (p : Nat) (g : Ckp → Ckp) : (s.modCkp p g).storage = s.storage := rfl
@[simp] theorem State.modCkp_pcie (p : Nat) (g : Ckp → Ckp) : (s.modCkp p g).pcie = s.pcie := rfl
@[simp] theorem State.modCkp_cipher (p : Nat) (g : Ckp → Ckp) : (s.modCkp p g).cipher = s.cipher := rfl
@[simp] theorem State.modCkp_power (p : Nat) (g : Ckp → Ckp) : (s.modCkp p g).power = s.power := rfl
@[simp] theorem State.modCkp_boot (p : Nat) (g : Ckp → Ckp) : (s.modCkp p g).boot = s.boot := rfl
@[simp] theorem State.modCkp_pins (p : Nat) (g : Ckp → Ckp) : (s.modCkp p g).pins = s.pins := rfl
@[simp] theorem State.modCkp_free (p : Nat) (g : Ckp → Ckp) : (s.modCkp p g).free = s.free := rfl
@[simp] theorem State.modCkp_pending (p : Nat) (g : Ckp → Ckp) : (s.modCkp p g).pending = s.pending := rfl

/-! ### putChan -/

@[simp] theorem State.putChan_now (c : Nat) (x : Channel) : (s.putChan c x).now = s.now := rfl
@[simp] theorem State.putChan_mem (c : Nat) (x : Channel) : (s.putChan c x).mem = s.mem := rfl
@[simp] theorem State.putChan_emitted (c : Nat) (x : Channel) : (s.putChan c x).emitted = s.emitted := rfl
@[simp] theorem State.putChan_loupe (c : Nat) (x : Channel) : (s.putChan c x).loupe = s.loupe := rfl
@[simp] theorem State.putChan_faults (c : Nat) (x : Channel) : (s.putChan c x).faults = s.faults := rfl
@[simp] theorem State.putChan_facets (c : Nat) (x : Channel) : (s.putChan c x).facets = s.facets := rfl
@[simp] theorem State.putChan_mesh (c : Nat) (x : Channel) : (s.putChan c x).mesh = s.mesh := rfl
@[simp] theorem State.putChan_hbm (c : Nat) (x : Channel) : (s.putChan c x).hbm = s.hbm := rfl
@[simp] theorem State.putChan_gather (c : Nat) (x : Channel) : (s.putChan c x).gather = s.gather := rfl
@[simp] theorem State.putChan_parcels (c : Nat) (x : Channel) : (s.putChan c x).parcels = s.parcels := rfl
@[simp] theorem State.putChan_rings (c : Nat) (x : Channel) : (s.putChan c x).rings = s.rings := rfl
@[simp] theorem State.putChan_insts (c : Nat) (x : Channel) : (s.putChan c x).insts = s.insts := rfl
@[simp] theorem State.putChan_acct (c : Nat) (x : Channel) : (s.putChan c x).acct = s.acct := rfl
@[simp] theorem State.putChan_fabric (c : Nat) (x : Channel) : (s.putChan c x).fabric = s.fabric := rfl
@[simp] theorem State.putChan_eth (c : Nat) (x : Channel) : (s.putChan c x).eth = s.eth := rfl
@[simp] theorem State.putChan_traffic (c : Nat) (x : Channel) : (s.putChan c x).traffic = s.traffic := rfl
@[simp] theorem State.putChan_rma (c : Nat) (x : Channel) : (s.putChan c x).rma = s.rma := rfl
@[simp] theorem State.putChan_storage (c : Nat) (x : Channel) : (s.putChan c x).storage = s.storage := rfl
@[simp] theorem State.putChan_pcie (c : Nat) (x : Channel) : (s.putChan c x).pcie = s.pcie := rfl
@[simp] theorem State.putChan_cipher (c : Nat) (x : Channel) : (s.putChan c x).cipher = s.cipher := rfl
@[simp] theorem State.putChan_power (c : Nat) (x : Channel) : (s.putChan c x).power = s.power := rfl
@[simp] theorem State.putChan_boot (c : Nat) (x : Channel) : (s.putChan c x).boot = s.boot := rfl
@[simp] theorem State.putChan_pins (c : Nat) (x : Channel) : (s.putChan c x).pins = s.pins := rfl
@[simp] theorem State.putChan_free (c : Nat) (x : Channel) : (s.putChan c x).free = s.free := rfl
@[simp] theorem State.putChan_pending (c : Nat) (x : Channel) : (s.putChan c x).pending = s.pending := rfl

/-! ### modChan -/

@[simp] theorem State.modChan_now (c : Nat) (g : Channel → Channel) : (s.modChan c g).now = s.now := rfl
@[simp] theorem State.modChan_mem (c : Nat) (g : Channel → Channel) : (s.modChan c g).mem = s.mem := rfl
@[simp] theorem State.modChan_emitted (c : Nat) (g : Channel → Channel) : (s.modChan c g).emitted = s.emitted := rfl
@[simp] theorem State.modChan_loupe (c : Nat) (g : Channel → Channel) : (s.modChan c g).loupe = s.loupe := rfl
@[simp] theorem State.modChan_faults (c : Nat) (g : Channel → Channel) : (s.modChan c g).faults = s.faults := rfl
@[simp] theorem State.modChan_facets (c : Nat) (g : Channel → Channel) : (s.modChan c g).facets = s.facets := rfl
@[simp] theorem State.modChan_mesh (c : Nat) (g : Channel → Channel) : (s.modChan c g).mesh = s.mesh := rfl
@[simp] theorem State.modChan_hbm (c : Nat) (g : Channel → Channel) : (s.modChan c g).hbm = s.hbm := rfl
@[simp] theorem State.modChan_gather (c : Nat) (g : Channel → Channel) : (s.modChan c g).gather = s.gather := rfl
@[simp] theorem State.modChan_parcels (c : Nat) (g : Channel → Channel) : (s.modChan c g).parcels = s.parcels := rfl
@[simp] theorem State.modChan_rings (c : Nat) (g : Channel → Channel) : (s.modChan c g).rings = s.rings := rfl
@[simp] theorem State.modChan_insts (c : Nat) (g : Channel → Channel) : (s.modChan c g).insts = s.insts := rfl
@[simp] theorem State.modChan_acct (c : Nat) (g : Channel → Channel) : (s.modChan c g).acct = s.acct := rfl
@[simp] theorem State.modChan_fabric (c : Nat) (g : Channel → Channel) : (s.modChan c g).fabric = s.fabric := rfl
@[simp] theorem State.modChan_eth (c : Nat) (g : Channel → Channel) : (s.modChan c g).eth = s.eth := rfl
@[simp] theorem State.modChan_traffic (c : Nat) (g : Channel → Channel) : (s.modChan c g).traffic = s.traffic := rfl
@[simp] theorem State.modChan_rma (c : Nat) (g : Channel → Channel) : (s.modChan c g).rma = s.rma := rfl
@[simp] theorem State.modChan_storage (c : Nat) (g : Channel → Channel) : (s.modChan c g).storage = s.storage := rfl
@[simp] theorem State.modChan_pcie (c : Nat) (g : Channel → Channel) : (s.modChan c g).pcie = s.pcie := rfl
@[simp] theorem State.modChan_cipher (c : Nat) (g : Channel → Channel) : (s.modChan c g).cipher = s.cipher := rfl
@[simp] theorem State.modChan_power (c : Nat) (g : Channel → Channel) : (s.modChan c g).power = s.power := rfl
@[simp] theorem State.modChan_boot (c : Nat) (g : Channel → Channel) : (s.modChan c g).boot = s.boot := rfl
@[simp] theorem State.modChan_pins (c : Nat) (g : Channel → Channel) : (s.modChan c g).pins = s.pins := rfl
@[simp] theorem State.modChan_free (c : Nat) (g : Channel → Channel) : (s.modChan c g).free = s.free := rfl
@[simp] theorem State.modChan_pending (c : Nat) (g : Channel → Channel) : (s.modChan c g).pending = s.pending := rfl

/-! ### modStack -/

@[simp] theorem State.modStack_now (k : Nat) (g : Stack → Stack) : (s.modStack k g).now = s.now := rfl
@[simp] theorem State.modStack_mem (k : Nat) (g : Stack → Stack) : (s.modStack k g).mem = s.mem := rfl
@[simp] theorem State.modStack_emitted (k : Nat) (g : Stack → Stack) : (s.modStack k g).emitted = s.emitted := rfl
@[simp] theorem State.modStack_loupe (k : Nat) (g : Stack → Stack) : (s.modStack k g).loupe = s.loupe := rfl
@[simp] theorem State.modStack_faults (k : Nat) (g : Stack → Stack) : (s.modStack k g).faults = s.faults := rfl
@[simp] theorem State.modStack_facets (k : Nat) (g : Stack → Stack) : (s.modStack k g).facets = s.facets := rfl
@[simp] theorem State.modStack_mesh (k : Nat) (g : Stack → Stack) : (s.modStack k g).mesh = s.mesh := rfl
@[simp] theorem State.modStack_gather (k : Nat) (g : Stack → Stack) : (s.modStack k g).gather = s.gather := rfl
@[simp] theorem State.modStack_parcels (k : Nat) (g : Stack → Stack) : (s.modStack k g).parcels = s.parcels := rfl
@[simp] theorem State.modStack_rings (k : Nat) (g : Stack → Stack) : (s.modStack k g).rings = s.rings := rfl
@[simp] theorem State.modStack_insts (k : Nat) (g : Stack → Stack) : (s.modStack k g).insts = s.insts := rfl
@[simp] theorem State.modStack_acct (k : Nat) (g : Stack → Stack) : (s.modStack k g).acct = s.acct := rfl
@[simp] theorem State.modStack_chans (k : Nat) (g : Stack → Stack) : (s.modStack k g).chans = s.chans := rfl
@[simp] theorem State.modStack_fabric (k : Nat) (g : Stack → Stack) : (s.modStack k g).fabric = s.fabric := rfl
@[simp] theorem State.modStack_eth (k : Nat) (g : Stack → Stack) : (s.modStack k g).eth = s.eth := rfl
@[simp] theorem State.modStack_traffic (k : Nat) (g : Stack → Stack) : (s.modStack k g).traffic = s.traffic := rfl
@[simp] theorem State.modStack_rma (k : Nat) (g : Stack → Stack) : (s.modStack k g).rma = s.rma := rfl
@[simp] theorem State.modStack_storage (k : Nat) (g : Stack → Stack) : (s.modStack k g).storage = s.storage := rfl
@[simp] theorem State.modStack_pcie (k : Nat) (g : Stack → Stack) : (s.modStack k g).pcie = s.pcie := rfl
@[simp] theorem State.modStack_cipher (k : Nat) (g : Stack → Stack) : (s.modStack k g).cipher = s.cipher := rfl
@[simp] theorem State.modStack_power (k : Nat) (g : Stack → Stack) : (s.modStack k g).power = s.power := rfl
@[simp] theorem State.modStack_boot (k : Nat) (g : Stack → Stack) : (s.modStack k g).boot = s.boot := rfl
@[simp] theorem State.modStack_pins (k : Nat) (g : Stack → Stack) : (s.modStack k g).pins = s.pins := rfl
@[simp] theorem State.modStack_free (k : Nat) (g : Stack → Stack) : (s.modStack k g).free = s.free := rfl
@[simp] theorem State.modStack_pending (k : Nat) (g : Stack → Stack) : (s.modStack k g).pending = s.pending := rfl

/-! ### modMemDie -/

@[simp] theorem State.modMemDie_now (k : Nat) (g : MemDie → MemDie) : (s.modMemDie k g).now = s.now := rfl
@[simp] theorem State.modMemDie_mem (k : Nat) (g : MemDie → MemDie) : (s.modMemDie k g).mem = s.mem := rfl
@[simp] theorem State.modMemDie_emitted (k : Nat) (g : MemDie → MemDie) : (s.modMemDie k g).emitted = s.emitted := rfl
@[simp] theorem State.modMemDie_loupe (k : Nat) (g : MemDie → MemDie) : (s.modMemDie k g).loupe = s.loupe := rfl
@[simp] theorem State.modMemDie_faults (k : Nat) (g : MemDie → MemDie) : (s.modMemDie k g).faults = s.faults := rfl
@[simp] theorem State.modMemDie_facets (k : Nat) (g : MemDie → MemDie) : (s.modMemDie k g).facets = s.facets := rfl
@[simp] theorem State.modMemDie_mesh (k : Nat) (g : MemDie → MemDie) : (s.modMemDie k g).mesh = s.mesh := rfl
@[simp] theorem State.modMemDie_gather (k : Nat) (g : MemDie → MemDie) : (s.modMemDie k g).gather = s.gather := rfl
@[simp] theorem State.modMemDie_parcels (k : Nat) (g : MemDie → MemDie) : (s.modMemDie k g).parcels = s.parcels := rfl
@[simp] theorem State.modMemDie_rings (k : Nat) (g : MemDie → MemDie) : (s.modMemDie k g).rings = s.rings := rfl
@[simp] theorem State.modMemDie_insts (k : Nat) (g : MemDie → MemDie) : (s.modMemDie k g).insts = s.insts := rfl
@[simp] theorem State.modMemDie_acct (k : Nat) (g : MemDie → MemDie) : (s.modMemDie k g).acct = s.acct := rfl
@[simp] theorem State.modMemDie_chans (k : Nat) (g : MemDie → MemDie) : (s.modMemDie k g).chans = s.chans := rfl
@[simp] theorem State.modMemDie_fabric (k : Nat) (g : MemDie → MemDie) : (s.modMemDie k g).fabric = s.fabric := rfl
@[simp] theorem State.modMemDie_eth (k : Nat) (g : MemDie → MemDie) : (s.modMemDie k g).eth = s.eth := rfl
@[simp] theorem State.modMemDie_traffic (k : Nat) (g : MemDie → MemDie) : (s.modMemDie k g).traffic = s.traffic := rfl
@[simp] theorem State.modMemDie_rma (k : Nat) (g : MemDie → MemDie) : (s.modMemDie k g).rma = s.rma := rfl
@[simp] theorem State.modMemDie_storage (k : Nat) (g : MemDie → MemDie) : (s.modMemDie k g).storage = s.storage := rfl
@[simp] theorem State.modMemDie_pcie (k : Nat) (g : MemDie → MemDie) : (s.modMemDie k g).pcie = s.pcie := rfl
@[simp] theorem State.modMemDie_cipher (k : Nat) (g : MemDie → MemDie) : (s.modMemDie k g).cipher = s.cipher := rfl
@[simp] theorem State.modMemDie_power (k : Nat) (g : MemDie → MemDie) : (s.modMemDie k g).power = s.power := rfl
@[simp] theorem State.modMemDie_boot (k : Nat) (g : MemDie → MemDie) : (s.modMemDie k g).boot = s.boot := rfl
@[simp] theorem State.modMemDie_pins (k : Nat) (g : MemDie → MemDie) : (s.modMemDie k g).pins = s.pins := rfl
@[simp] theorem State.modMemDie_free (k : Nat) (g : MemDie → MemDie) : (s.modMemDie k g).free = s.free := rfl
@[simp] theorem State.modMemDie_pending (k : Nat) (g : MemDie → MemDie) : (s.modMemDie k g).pending = s.pending := rfl

/-! ### modGatherDie -/

@[simp] theorem State.modGatherDie_now (k : Nat) (g : GatherDie → GatherDie) : (s.modGatherDie k g).now = s.now := rfl
@[simp] theorem State.modGatherDie_mem (k : Nat) (g : GatherDie → GatherDie) : (s.modGatherDie k g).mem = s.mem := rfl
@[simp] theorem State.modGatherDie_emitted (k : Nat) (g : GatherDie → GatherDie) : (s.modGatherDie k g).emitted = s.emitted := rfl
@[simp] theorem State.modGatherDie_loupe (k : Nat) (g : GatherDie → GatherDie) : (s.modGatherDie k g).loupe = s.loupe := rfl
@[simp] theorem State.modGatherDie_faults (k : Nat) (g : GatherDie → GatherDie) : (s.modGatherDie k g).faults = s.faults := rfl
@[simp] theorem State.modGatherDie_facets (k : Nat) (g : GatherDie → GatherDie) : (s.modGatherDie k g).facets = s.facets := rfl
@[simp] theorem State.modGatherDie_mesh (k : Nat) (g : GatherDie → GatherDie) : (s.modGatherDie k g).mesh = s.mesh := rfl
@[simp] theorem State.modGatherDie_hbm (k : Nat) (g : GatherDie → GatherDie) : (s.modGatherDie k g).hbm = s.hbm := rfl
@[simp] theorem State.modGatherDie_parcels (k : Nat) (g : GatherDie → GatherDie) : (s.modGatherDie k g).parcels = s.parcels := rfl
@[simp] theorem State.modGatherDie_rings (k : Nat) (g : GatherDie → GatherDie) : (s.modGatherDie k g).rings = s.rings := rfl
@[simp] theorem State.modGatherDie_insts (k : Nat) (g : GatherDie → GatherDie) : (s.modGatherDie k g).insts = s.insts := rfl
@[simp] theorem State.modGatherDie_acct (k : Nat) (g : GatherDie → GatherDie) : (s.modGatherDie k g).acct = s.acct := rfl
@[simp] theorem State.modGatherDie_chans (k : Nat) (g : GatherDie → GatherDie) : (s.modGatherDie k g).chans = s.chans := rfl
@[simp] theorem State.modGatherDie_fabric (k : Nat) (g : GatherDie → GatherDie) : (s.modGatherDie k g).fabric = s.fabric := rfl
@[simp] theorem State.modGatherDie_eth (k : Nat) (g : GatherDie → GatherDie) : (s.modGatherDie k g).eth = s.eth := rfl
@[simp] theorem State.modGatherDie_traffic (k : Nat) (g : GatherDie → GatherDie) : (s.modGatherDie k g).traffic = s.traffic := rfl
@[simp] theorem State.modGatherDie_rma (k : Nat) (g : GatherDie → GatherDie) : (s.modGatherDie k g).rma = s.rma := rfl
@[simp] theorem State.modGatherDie_storage (k : Nat) (g : GatherDie → GatherDie) : (s.modGatherDie k g).storage = s.storage := rfl
@[simp] theorem State.modGatherDie_pcie (k : Nat) (g : GatherDie → GatherDie) : (s.modGatherDie k g).pcie = s.pcie := rfl
@[simp] theorem State.modGatherDie_cipher (k : Nat) (g : GatherDie → GatherDie) : (s.modGatherDie k g).cipher = s.cipher := rfl
@[simp] theorem State.modGatherDie_power (k : Nat) (g : GatherDie → GatherDie) : (s.modGatherDie k g).power = s.power := rfl
@[simp] theorem State.modGatherDie_boot (k : Nat) (g : GatherDie → GatherDie) : (s.modGatherDie k g).boot = s.boot := rfl
@[simp] theorem State.modGatherDie_pins (k : Nat) (g : GatherDie → GatherDie) : (s.modGatherDie k g).pins = s.pins := rfl
@[simp] theorem State.modGatherDie_free (k : Nat) (g : GatherDie → GatherDie) : (s.modGatherDie k g).free = s.free := rfl
@[simp] theorem State.modGatherDie_pending (k : Nat) (g : GatherDie → GatherDie) : (s.modGatherDie k g).pending = s.pending := rfl

/-! ### modFlow -/

@[simp] theorem State.modFlow_now (n : Nat) (g : Flow → Flow) : (s.modFlow n g).now = s.now := rfl
@[simp] theorem State.modFlow_mem (n : Nat) (g : Flow → Flow) : (s.modFlow n g).mem = s.mem := rfl
@[simp] theorem State.modFlow_emitted (n : Nat) (g : Flow → Flow) : (s.modFlow n g).emitted = s.emitted := rfl
@[simp] theorem State.modFlow_loupe (n : Nat) (g : Flow → Flow) : (s.modFlow n g).loupe = s.loupe := rfl
@[simp] theorem State.modFlow_faults (n : Nat) (g : Flow → Flow) : (s.modFlow n g).faults = s.faults := rfl
@[simp] theorem State.modFlow_facets (n : Nat) (g : Flow → Flow) : (s.modFlow n g).facets = s.facets := rfl
@[simp] theorem State.modFlow_mesh (n : Nat) (g : Flow → Flow) : (s.modFlow n g).mesh = s.mesh := rfl
@[simp] theorem State.modFlow_hbm (n : Nat) (g : Flow → Flow) : (s.modFlow n g).hbm = s.hbm := rfl
@[simp] theorem State.modFlow_gather (n : Nat) (g : Flow → Flow) : (s.modFlow n g).gather = s.gather := rfl
@[simp] theorem State.modFlow_parcels (n : Nat) (g : Flow → Flow) : (s.modFlow n g).parcels = s.parcels := rfl
@[simp] theorem State.modFlow_rings (n : Nat) (g : Flow → Flow) : (s.modFlow n g).rings = s.rings := rfl
@[simp] theorem State.modFlow_insts (n : Nat) (g : Flow → Flow) : (s.modFlow n g).insts = s.insts := rfl
@[simp] theorem State.modFlow_acct (n : Nat) (g : Flow → Flow) : (s.modFlow n g).acct = s.acct := rfl
@[simp] theorem State.modFlow_chans (n : Nat) (g : Flow → Flow) : (s.modFlow n g).chans = s.chans := rfl
@[simp] theorem State.modFlow_eth (n : Nat) (g : Flow → Flow) : (s.modFlow n g).eth = s.eth := rfl
@[simp] theorem State.modFlow_traffic (n : Nat) (g : Flow → Flow) : (s.modFlow n g).traffic = s.traffic := rfl
@[simp] theorem State.modFlow_rma (n : Nat) (g : Flow → Flow) : (s.modFlow n g).rma = s.rma := rfl
@[simp] theorem State.modFlow_storage (n : Nat) (g : Flow → Flow) : (s.modFlow n g).storage = s.storage := rfl
@[simp] theorem State.modFlow_pcie (n : Nat) (g : Flow → Flow) : (s.modFlow n g).pcie = s.pcie := rfl
@[simp] theorem State.modFlow_cipher (n : Nat) (g : Flow → Flow) : (s.modFlow n g).cipher = s.cipher := rfl
@[simp] theorem State.modFlow_power (n : Nat) (g : Flow → Flow) : (s.modFlow n g).power = s.power := rfl
@[simp] theorem State.modFlow_boot (n : Nat) (g : Flow → Flow) : (s.modFlow n g).boot = s.boot := rfl
@[simp] theorem State.modFlow_pins (n : Nat) (g : Flow → Flow) : (s.modFlow n g).pins = s.pins := rfl
@[simp] theorem State.modFlow_free (n : Nat) (g : Flow → Flow) : (s.modFlow n g).free = s.free := rfl
@[simp] theorem State.modFlow_pending (n : Nat) (g : Flow → Flow) : (s.modFlow n g).pending = s.pending := rfl

/-! ### modGates -/

@[simp] theorem State.modGates_now (p : Nat) (g : PortGates → PortGates) : (s.modGates p g).now = s.now := rfl
@[simp] theorem State.modGates_mem (p : Nat) (g : PortGates → PortGates) : (s.modGates p g).mem = s.mem := rfl
@[simp] theorem State.modGates_emitted (p : Nat) (g : PortGates → PortGates) : (s.modGates p g).emitted = s.emitted := rfl
@[simp] theorem State.modGates_loupe (p : Nat) (g : PortGates → PortGates) : (s.modGates p g).loupe = s.loupe := rfl
@[simp] theorem State.modGates_faults (p : Nat) (g : PortGates → PortGates) : (s.modGates p g).faults = s.faults := rfl
@[simp] theorem State.modGates_facets (p : Nat) (g : PortGates → PortGates) : (s.modGates p g).facets = s.facets := rfl
@[simp] theorem State.modGates_mesh (p : Nat) (g : PortGates → PortGates) : (s.modGates p g).mesh = s.mesh := rfl
@[simp] theorem State.modGates_hbm (p : Nat) (g : PortGates → PortGates) : (s.modGates p g).hbm = s.hbm := rfl
@[simp] theorem State.modGates_gather (p : Nat) (g : PortGates → PortGates) : (s.modGates p g).gather = s.gather := rfl
@[simp] theorem State.modGates_parcels (p : Nat) (g : PortGates → PortGates) : (s.modGates p g).parcels = s.parcels := rfl
@[simp] theorem State.modGates_rings (p : Nat) (g : PortGates → PortGates) : (s.modGates p g).rings = s.rings := rfl
@[simp] theorem State.modGates_insts (p : Nat) (g : PortGates → PortGates) : (s.modGates p g).insts = s.insts := rfl
@[simp] theorem State.modGates_acct (p : Nat) (g : PortGates → PortGates) : (s.modGates p g).acct = s.acct := rfl
@[simp] theorem State.modGates_chans (p : Nat) (g : PortGates → PortGates) : (s.modGates p g).chans = s.chans := rfl
@[simp] theorem State.modGates_eth (p : Nat) (g : PortGates → PortGates) : (s.modGates p g).eth = s.eth := rfl
@[simp] theorem State.modGates_traffic (p : Nat) (g : PortGates → PortGates) : (s.modGates p g).traffic = s.traffic := rfl
@[simp] theorem State.modGates_rma (p : Nat) (g : PortGates → PortGates) : (s.modGates p g).rma = s.rma := rfl
@[simp] theorem State.modGates_storage (p : Nat) (g : PortGates → PortGates) : (s.modGates p g).storage = s.storage := rfl
@[simp] theorem State.modGates_pcie (p : Nat) (g : PortGates → PortGates) : (s.modGates p g).pcie = s.pcie := rfl
@[simp] theorem State.modGates_cipher (p : Nat) (g : PortGates → PortGates) : (s.modGates p g).cipher = s.cipher := rfl
@[simp] theorem State.modGates_power (p : Nat) (g : PortGates → PortGates) : (s.modGates p g).power = s.power := rfl
@[simp] theorem State.modGates_boot (p : Nat) (g : PortGates → PortGates) : (s.modGates p g).boot = s.boot := rfl
@[simp] theorem State.modGates_pins (p : Nat) (g : PortGates → PortGates) : (s.modGates p g).pins = s.pins := rfl
@[simp] theorem State.modGates_free (p : Nat) (g : PortGates → PortGates) : (s.modGates p g).free = s.free := rfl
@[simp] theorem State.modGates_pending (p : Nat) (g : PortGates → PortGates) : (s.modGates p g).pending = s.pending := rfl

/-! ### modFn -/

@[simp] theorem State.modFn_now (n : Nat) (g : PceFn → PceFn) : (s.modFn n g).now = s.now := rfl
@[simp] theorem State.modFn_mem (n : Nat) (g : PceFn → PceFn) : (s.modFn n g).mem = s.mem := rfl
@[simp] theorem State.modFn_emitted (n : Nat) (g : PceFn → PceFn) : (s.modFn n g).emitted = s.emitted := rfl
@[simp] theorem State.modFn_loupe (n : Nat) (g : PceFn → PceFn) : (s.modFn n g).loupe = s.loupe := rfl
@[simp] theorem State.modFn_faults (n : Nat) (g : PceFn → PceFn) : (s.modFn n g).faults = s.faults := rfl
@[simp] theorem State.modFn_facets (n : Nat) (g : PceFn → PceFn) : (s.modFn n g).facets = s.facets := rfl
@[simp] theorem State.modFn_mesh (n : Nat) (g : PceFn → PceFn) : (s.modFn n g).mesh = s.mesh := rfl
@[simp] theorem State.modFn_hbm (n : Nat) (g : PceFn → PceFn) : (s.modFn n g).hbm = s.hbm := rfl
@[simp] theorem State.modFn_gather (n : Nat) (g : PceFn → PceFn) : (s.modFn n g).gather = s.gather := rfl
@[simp] theorem State.modFn_parcels (n : Nat) (g : PceFn → PceFn) : (s.modFn n g).parcels = s.parcels := rfl
@[simp] theorem State.modFn_rings (n : Nat) (g : PceFn → PceFn) : (s.modFn n g).rings = s.rings := rfl
@[simp] theorem State.modFn_insts (n : Nat) (g : PceFn → PceFn) : (s.modFn n g).insts = s.insts := rfl
@[simp] theorem State.modFn_acct (n : Nat) (g : PceFn → PceFn) : (s.modFn n g).acct = s.acct := rfl
@[simp] theorem State.modFn_chans (n : Nat) (g : PceFn → PceFn) : (s.modFn n g).chans = s.chans := rfl
@[simp] theorem State.modFn_fabric (n : Nat) (g : PceFn → PceFn) : (s.modFn n g).fabric = s.fabric := rfl
@[simp] theorem State.modFn_eth (n : Nat) (g : PceFn → PceFn) : (s.modFn n g).eth = s.eth := rfl
@[simp] theorem State.modFn_traffic (n : Nat) (g : PceFn → PceFn) : (s.modFn n g).traffic = s.traffic := rfl
@[simp] theorem State.modFn_rma (n : Nat) (g : PceFn → PceFn) : (s.modFn n g).rma = s.rma := rfl
@[simp] theorem State.modFn_storage (n : Nat) (g : PceFn → PceFn) : (s.modFn n g).storage = s.storage := rfl
@[simp] theorem State.modFn_cipher (n : Nat) (g : PceFn → PceFn) : (s.modFn n g).cipher = s.cipher := rfl
@[simp] theorem State.modFn_power (n : Nat) (g : PceFn → PceFn) : (s.modFn n g).power = s.power := rfl
@[simp] theorem State.modFn_boot (n : Nat) (g : PceFn → PceFn) : (s.modFn n g).boot = s.boot := rfl
@[simp] theorem State.modFn_pins (n : Nat) (g : PceFn → PceFn) : (s.modFn n g).pins = s.pins := rfl
@[simp] theorem State.modFn_free (n : Nat) (g : PceFn → PceFn) : (s.modFn n g).free = s.free := rfl
@[simp] theorem State.modFn_pending (n : Nat) (g : PceFn → PceFn) : (s.modFn n g).pending = s.pending := rfl

/-! ### modRoot -/

@[simp] theorem State.modRoot_now (p : Nat) (g : RootPort → RootPort) : (s.modRoot p g).now = s.now := rfl
@[simp] theorem State.modRoot_mem (p : Nat) (g : RootPort → RootPort) : (s.modRoot p g).mem = s.mem := rfl
@[simp] theorem State.modRoot_emitted (p : Nat) (g : RootPort → RootPort) : (s.modRoot p g).emitted = s.emitted := rfl
@[simp] theorem State.modRoot_loupe (p : Nat) (g : RootPort → RootPort) : (s.modRoot p g).loupe = s.loupe := rfl
@[simp] theorem State.modRoot_faults (p : Nat) (g : RootPort → RootPort) : (s.modRoot p g).faults = s.faults := rfl
@[simp] theorem State.modRoot_facets (p : Nat) (g : RootPort → RootPort) : (s.modRoot p g).facets = s.facets := rfl
@[simp] theorem State.modRoot_mesh (p : Nat) (g : RootPort → RootPort) : (s.modRoot p g).mesh = s.mesh := rfl
@[simp] theorem State.modRoot_hbm (p : Nat) (g : RootPort → RootPort) : (s.modRoot p g).hbm = s.hbm := rfl
@[simp] theorem State.modRoot_gather (p : Nat) (g : RootPort → RootPort) : (s.modRoot p g).gather = s.gather := rfl
@[simp] theorem State.modRoot_parcels (p : Nat) (g : RootPort → RootPort) : (s.modRoot p g).parcels = s.parcels := rfl
@[simp] theorem State.modRoot_rings (p : Nat) (g : RootPort → RootPort) : (s.modRoot p g).rings = s.rings := rfl
@[simp] theorem State.modRoot_insts (p : Nat) (g : RootPort → RootPort) : (s.modRoot p g).insts = s.insts := rfl
@[simp] theorem State.modRoot_acct (p : Nat) (g : RootPort → RootPort) : (s.modRoot p g).acct = s.acct := rfl
@[simp] theorem State.modRoot_chans (p : Nat) (g : RootPort → RootPort) : (s.modRoot p g).chans = s.chans := rfl
@[simp] theorem State.modRoot_fabric (p : Nat) (g : RootPort → RootPort) : (s.modRoot p g).fabric = s.fabric := rfl
@[simp] theorem State.modRoot_eth (p : Nat) (g : RootPort → RootPort) : (s.modRoot p g).eth = s.eth := rfl
@[simp] theorem State.modRoot_traffic (p : Nat) (g : RootPort → RootPort) : (s.modRoot p g).traffic = s.traffic := rfl
@[simp] theorem State.modRoot_rma (p : Nat) (g : RootPort → RootPort) : (s.modRoot p g).rma = s.rma := rfl
@[simp] theorem State.modRoot_storage (p : Nat) (g : RootPort → RootPort) : (s.modRoot p g).storage = s.storage := rfl
@[simp] theorem State.modRoot_cipher (p : Nat) (g : RootPort → RootPort) : (s.modRoot p g).cipher = s.cipher := rfl
@[simp] theorem State.modRoot_power (p : Nat) (g : RootPort → RootPort) : (s.modRoot p g).power = s.power := rfl
@[simp] theorem State.modRoot_boot (p : Nat) (g : RootPort → RootPort) : (s.modRoot p g).boot = s.boot := rfl
@[simp] theorem State.modRoot_pins (p : Nat) (g : RootPort → RootPort) : (s.modRoot p g).pins = s.pins := rfl
@[simp] theorem State.modRoot_free (p : Nat) (g : RootPort → RootPort) : (s.modRoot p g).free = s.free := rfl
@[simp] theorem State.modRoot_pending (p : Nat) (g : RootPort → RootPort) : (s.modRoot p g).pending = s.pending := rfl

/-! ### modCtrl -/

@[simp] theorem State.modCtrl_now (i : Nat) (g : NvCtrl → NvCtrl) : (s.modCtrl i g).now = s.now := rfl
@[simp] theorem State.modCtrl_mem (i : Nat) (g : NvCtrl → NvCtrl) : (s.modCtrl i g).mem = s.mem := rfl
@[simp] theorem State.modCtrl_emitted (i : Nat) (g : NvCtrl → NvCtrl) : (s.modCtrl i g).emitted = s.emitted := rfl
@[simp] theorem State.modCtrl_loupe (i : Nat) (g : NvCtrl → NvCtrl) : (s.modCtrl i g).loupe = s.loupe := rfl
@[simp] theorem State.modCtrl_faults (i : Nat) (g : NvCtrl → NvCtrl) : (s.modCtrl i g).faults = s.faults := rfl
@[simp] theorem State.modCtrl_facets (i : Nat) (g : NvCtrl → NvCtrl) : (s.modCtrl i g).facets = s.facets := rfl
@[simp] theorem State.modCtrl_mesh (i : Nat) (g : NvCtrl → NvCtrl) : (s.modCtrl i g).mesh = s.mesh := rfl
@[simp] theorem State.modCtrl_hbm (i : Nat) (g : NvCtrl → NvCtrl) : (s.modCtrl i g).hbm = s.hbm := rfl
@[simp] theorem State.modCtrl_gather (i : Nat) (g : NvCtrl → NvCtrl) : (s.modCtrl i g).gather = s.gather := rfl
@[simp] theorem State.modCtrl_parcels (i : Nat) (g : NvCtrl → NvCtrl) : (s.modCtrl i g).parcels = s.parcels := rfl
@[simp] theorem State.modCtrl_rings (i : Nat) (g : NvCtrl → NvCtrl) : (s.modCtrl i g).rings = s.rings := rfl
@[simp] theorem State.modCtrl_insts (i : Nat) (g : NvCtrl → NvCtrl) : (s.modCtrl i g).insts = s.insts := rfl
@[simp] theorem State.modCtrl_acct (i : Nat) (g : NvCtrl → NvCtrl) : (s.modCtrl i g).acct = s.acct := rfl
@[simp] theorem State.modCtrl_chans (i : Nat) (g : NvCtrl → NvCtrl) : (s.modCtrl i g).chans = s.chans := rfl
@[simp] theorem State.modCtrl_fabric (i : Nat) (g : NvCtrl → NvCtrl) : (s.modCtrl i g).fabric = s.fabric := rfl
@[simp] theorem State.modCtrl_eth (i : Nat) (g : NvCtrl → NvCtrl) : (s.modCtrl i g).eth = s.eth := rfl
@[simp] theorem State.modCtrl_traffic (i : Nat) (g : NvCtrl → NvCtrl) : (s.modCtrl i g).traffic = s.traffic := rfl
@[simp] theorem State.modCtrl_rma (i : Nat) (g : NvCtrl → NvCtrl) : (s.modCtrl i g).rma = s.rma := rfl
@[simp] theorem State.modCtrl_pcie (i : Nat) (g : NvCtrl → NvCtrl) : (s.modCtrl i g).pcie = s.pcie := rfl
@[simp] theorem State.modCtrl_cipher (i : Nat) (g : NvCtrl → NvCtrl) : (s.modCtrl i g).cipher = s.cipher := rfl
@[simp] theorem State.modCtrl_power (i : Nat) (g : NvCtrl → NvCtrl) : (s.modCtrl i g).power = s.power := rfl
@[simp] theorem State.modCtrl_boot (i : Nat) (g : NvCtrl → NvCtrl) : (s.modCtrl i g).boot = s.boot := rfl
@[simp] theorem State.modCtrl_pins (i : Nat) (g : NvCtrl → NvCtrl) : (s.modCtrl i g).pins = s.pins := rfl
@[simp] theorem State.modCtrl_free (i : Nat) (g : NvCtrl → NvCtrl) : (s.modCtrl i g).free = s.free := rfl
@[simp] theorem State.modCtrl_pending (i : Nat) (g : NvCtrl → NvCtrl) : (s.modCtrl i g).pending = s.pending := rfl

/-! ### modDrive -/

@[simp] theorem State.modDrive_now (p : Nat) (g : Drive → Drive) : (s.modDrive p g).now = s.now := rfl
@[simp] theorem State.modDrive_mem (p : Nat) (g : Drive → Drive) : (s.modDrive p g).mem = s.mem := rfl
@[simp] theorem State.modDrive_emitted (p : Nat) (g : Drive → Drive) : (s.modDrive p g).emitted = s.emitted := rfl
@[simp] theorem State.modDrive_loupe (p : Nat) (g : Drive → Drive) : (s.modDrive p g).loupe = s.loupe := rfl
@[simp] theorem State.modDrive_faults (p : Nat) (g : Drive → Drive) : (s.modDrive p g).faults = s.faults := rfl
@[simp] theorem State.modDrive_facets (p : Nat) (g : Drive → Drive) : (s.modDrive p g).facets = s.facets := rfl
@[simp] theorem State.modDrive_mesh (p : Nat) (g : Drive → Drive) : (s.modDrive p g).mesh = s.mesh := rfl
@[simp] theorem State.modDrive_hbm (p : Nat) (g : Drive → Drive) : (s.modDrive p g).hbm = s.hbm := rfl
@[simp] theorem State.modDrive_gather (p : Nat) (g : Drive → Drive) : (s.modDrive p g).gather = s.gather := rfl
@[simp] theorem State.modDrive_parcels (p : Nat) (g : Drive → Drive) : (s.modDrive p g).parcels = s.parcels := rfl
@[simp] theorem State.modDrive_rings (p : Nat) (g : Drive → Drive) : (s.modDrive p g).rings = s.rings := rfl
@[simp] theorem State.modDrive_insts (p : Nat) (g : Drive → Drive) : (s.modDrive p g).insts = s.insts := rfl
@[simp] theorem State.modDrive_acct (p : Nat) (g : Drive → Drive) : (s.modDrive p g).acct = s.acct := rfl
@[simp] theorem State.modDrive_chans (p : Nat) (g : Drive → Drive) : (s.modDrive p g).chans = s.chans := rfl
@[simp] theorem State.modDrive_fabric (p : Nat) (g : Drive → Drive) : (s.modDrive p g).fabric = s.fabric := rfl
@[simp] theorem State.modDrive_eth (p : Nat) (g : Drive → Drive) : (s.modDrive p g).eth = s.eth := rfl
@[simp] theorem State.modDrive_traffic (p : Nat) (g : Drive → Drive) : (s.modDrive p g).traffic = s.traffic := rfl
@[simp] theorem State.modDrive_rma (p : Nat) (g : Drive → Drive) : (s.modDrive p g).rma = s.rma := rfl
@[simp] theorem State.modDrive_pcie (p : Nat) (g : Drive → Drive) : (s.modDrive p g).pcie = s.pcie := rfl
@[simp] theorem State.modDrive_cipher (p : Nat) (g : Drive → Drive) : (s.modDrive p g).cipher = s.cipher := rfl
@[simp] theorem State.modDrive_power (p : Nat) (g : Drive → Drive) : (s.modDrive p g).power = s.power := rfl
@[simp] theorem State.modDrive_boot (p : Nat) (g : Drive → Drive) : (s.modDrive p g).boot = s.boot := rfl
@[simp] theorem State.modDrive_pins (p : Nat) (g : Drive → Drive) : (s.modDrive p g).pins = s.pins := rfl
@[simp] theorem State.modDrive_free (p : Nat) (g : Drive → Drive) : (s.modDrive p g).free = s.free := rfl
@[simp] theorem State.modDrive_pending (p : Nat) (g : Drive → Drive) : (s.modDrive p g).pending = s.pending := rfl

/-! ### modPort -/

@[simp] theorem State.modPort_now (p : Nat) (g : EthPort → EthPort) : (s.modPort p g).now = s.now := rfl
@[simp] theorem State.modPort_mem (p : Nat) (g : EthPort → EthPort) : (s.modPort p g).mem = s.mem := rfl
@[simp] theorem State.modPort_emitted (p : Nat) (g : EthPort → EthPort) : (s.modPort p g).emitted = s.emitted := rfl
@[simp] theorem State.modPort_loupe (p : Nat) (g : EthPort → EthPort) : (s.modPort p g).loupe = s.loupe := rfl
@[simp] theorem State.modPort_faults (p : Nat) (g : EthPort → EthPort) : (s.modPort p g).faults = s.faults := rfl
@[simp] theorem State.modPort_facets (p : Nat) (g : EthPort → EthPort) : (s.modPort p g).facets = s.facets := rfl
@[simp] theorem State.modPort_mesh (p : Nat) (g : EthPort → EthPort) : (s.modPort p g).mesh = s.mesh := rfl
@[simp] theorem State.modPort_hbm (p : Nat) (g : EthPort → EthPort) : (s.modPort p g).hbm = s.hbm := rfl
@[simp] theorem State.modPort_gather (p : Nat) (g : EthPort → EthPort) : (s.modPort p g).gather = s.gather := rfl
@[simp] theorem State.modPort_parcels (p : Nat) (g : EthPort → EthPort) : (s.modPort p g).parcels = s.parcels := rfl
@[simp] theorem State.modPort_rings (p : Nat) (g : EthPort → EthPort) : (s.modPort p g).rings = s.rings := rfl
@[simp] theorem State.modPort_insts (p : Nat) (g : EthPort → EthPort) : (s.modPort p g).insts = s.insts := rfl
@[simp] theorem State.modPort_acct (p : Nat) (g : EthPort → EthPort) : (s.modPort p g).acct = s.acct := rfl
@[simp] theorem State.modPort_chans (p : Nat) (g : EthPort → EthPort) : (s.modPort p g).chans = s.chans := rfl
@[simp] theorem State.modPort_fabric (p : Nat) (g : EthPort → EthPort) : (s.modPort p g).fabric = s.fabric := rfl
@[simp] theorem State.modPort_traffic (p : Nat) (g : EthPort → EthPort) : (s.modPort p g).traffic = s.traffic := rfl
@[simp] theorem State.modPort_rma (p : Nat) (g : EthPort → EthPort) : (s.modPort p g).rma = s.rma := rfl
@[simp] theorem State.modPort_storage (p : Nat) (g : EthPort → EthPort) : (s.modPort p g).storage = s.storage := rfl
@[simp] theorem State.modPort_pcie (p : Nat) (g : EthPort → EthPort) : (s.modPort p g).pcie = s.pcie := rfl
@[simp] theorem State.modPort_cipher (p : Nat) (g : EthPort → EthPort) : (s.modPort p g).cipher = s.cipher := rfl
@[simp] theorem State.modPort_power (p : Nat) (g : EthPort → EthPort) : (s.modPort p g).power = s.power := rfl
@[simp] theorem State.modPort_boot (p : Nat) (g : EthPort → EthPort) : (s.modPort p g).boot = s.boot := rfl
@[simp] theorem State.modPort_pins (p : Nat) (g : EthPort → EthPort) : (s.modPort p g).pins = s.pins := rfl
@[simp] theorem State.modPort_free (p : Nat) (g : EthPort → EthPort) : (s.modPort p g).free = s.free := rfl
@[simp] theorem State.modPort_pending (p : Nat) (g : EthPort → EthPort) : (s.modPort p g).pending = s.pending := rfl

/-! ### modLink -/

@[simp] theorem State.modLink_now (l : Nat) (g : EthLink → EthLink) : (s.modLink l g).now = s.now := rfl
@[simp] theorem State.modLink_mem (l : Nat) (g : EthLink → EthLink) : (s.modLink l g).mem = s.mem := rfl
@[simp] theorem State.modLink_emitted (l : Nat) (g : EthLink → EthLink) : (s.modLink l g).emitted = s.emitted := rfl
@[simp] theorem State.modLink_loupe (l : Nat) (g : EthLink → EthLink) : (s.modLink l g).loupe = s.loupe := rfl
@[simp] theorem State.modLink_faults (l : Nat) (g : EthLink → EthLink) : (s.modLink l g).faults = s.faults := rfl
@[simp] theorem State.modLink_facets (l : Nat) (g : EthLink → EthLink) : (s.modLink l g).facets = s.facets := rfl
@[simp] theorem State.modLink_mesh (l : Nat) (g : EthLink → EthLink) : (s.modLink l g).mesh = s.mesh := rfl
@[simp] theorem State.modLink_hbm (l : Nat) (g : EthLink → EthLink) : (s.modLink l g).hbm = s.hbm := rfl
@[simp] theorem State.modLink_gather (l : Nat) (g : EthLink → EthLink) : (s.modLink l g).gather = s.gather := rfl
@[simp] theorem State.modLink_parcels (l : Nat) (g : EthLink → EthLink) : (s.modLink l g).parcels = s.parcels := rfl
@[simp] theorem State.modLink_rings (l : Nat) (g : EthLink → EthLink) : (s.modLink l g).rings = s.rings := rfl
@[simp] theorem State.modLink_insts (l : Nat) (g : EthLink → EthLink) : (s.modLink l g).insts = s.insts := rfl
@[simp] theorem State.modLink_acct (l : Nat) (g : EthLink → EthLink) : (s.modLink l g).acct = s.acct := rfl
@[simp] theorem State.modLink_chans (l : Nat) (g : EthLink → EthLink) : (s.modLink l g).chans = s.chans := rfl
@[simp] theorem State.modLink_fabric (l : Nat) (g : EthLink → EthLink) : (s.modLink l g).fabric = s.fabric := rfl
@[simp] theorem State.modLink_traffic (l : Nat) (g : EthLink → EthLink) : (s.modLink l g).traffic = s.traffic := rfl
@[simp] theorem State.modLink_rma (l : Nat) (g : EthLink → EthLink) : (s.modLink l g).rma = s.rma := rfl
@[simp] theorem State.modLink_storage (l : Nat) (g : EthLink → EthLink) : (s.modLink l g).storage = s.storage := rfl
@[simp] theorem State.modLink_pcie (l : Nat) (g : EthLink → EthLink) : (s.modLink l g).pcie = s.pcie := rfl
@[simp] theorem State.modLink_cipher (l : Nat) (g : EthLink → EthLink) : (s.modLink l g).cipher = s.cipher := rfl
@[simp] theorem State.modLink_power (l : Nat) (g : EthLink → EthLink) : (s.modLink l g).power = s.power := rfl
@[simp] theorem State.modLink_boot (l : Nat) (g : EthLink → EthLink) : (s.modLink l g).boot = s.boot := rfl
@[simp] theorem State.modLink_pins (l : Nat) (g : EthLink → EthLink) : (s.modLink l g).pins = s.pins := rfl
@[simp] theorem State.modLink_free (l : Nat) (g : EthLink → EthLink) : (s.modLink l g).free = s.free := rfl
@[simp] theorem State.modLink_pending (l : Nat) (g : EthLink → EthLink) : (s.modLink l g).pending = s.pending := rfl

/-! ### modRail -/

@[simp] theorem State.modRail_now (r : Nat) (g : Rail → Rail) : (s.modRail r g).now = s.now := rfl
@[simp] theorem State.modRail_mem (r : Nat) (g : Rail → Rail) : (s.modRail r g).mem = s.mem := rfl
@[simp] theorem State.modRail_emitted (r : Nat) (g : Rail → Rail) : (s.modRail r g).emitted = s.emitted := rfl
@[simp] theorem State.modRail_loupe (r : Nat) (g : Rail → Rail) : (s.modRail r g).loupe = s.loupe := rfl
@[simp] theorem State.modRail_faults (r : Nat) (g : Rail → Rail) : (s.modRail r g).faults = s.faults := rfl
@[simp] theorem State.modRail_facets (r : Nat) (g : Rail → Rail) : (s.modRail r g).facets = s.facets := rfl
@[simp] theorem State.modRail_mesh (r : Nat) (g : Rail → Rail) : (s.modRail r g).mesh = s.mesh := rfl
@[simp] theorem State.modRail_hbm (r : Nat) (g : Rail → Rail) : (s.modRail r g).hbm = s.hbm := rfl
@[simp] theorem State.modRail_gather (r : Nat) (g : Rail → Rail) : (s.modRail r g).gather = s.gather := rfl
@[simp] theorem State.modRail_parcels (r : Nat) (g : Rail → Rail) : (s.modRail r g).parcels = s.parcels := rfl
@[simp] theorem State.modRail_rings (r : Nat) (g : Rail → Rail) : (s.modRail r g).rings = s.rings := rfl
@[simp] theorem State.modRail_insts (r : Nat) (g : Rail → Rail) : (s.modRail r g).insts = s.insts := rfl
@[simp] theorem State.modRail_acct (r : Nat) (g : Rail → Rail) : (s.modRail r g).acct = s.acct := rfl
@[simp] theorem State.modRail_chans (r : Nat) (g : Rail → Rail) : (s.modRail r g).chans = s.chans := rfl
@[simp] theorem State.modRail_fabric (r : Nat) (g : Rail → Rail) : (s.modRail r g).fabric = s.fabric := rfl
@[simp] theorem State.modRail_eth (r : Nat) (g : Rail → Rail) : (s.modRail r g).eth = s.eth := rfl
@[simp] theorem State.modRail_traffic (r : Nat) (g : Rail → Rail) : (s.modRail r g).traffic = s.traffic := rfl
@[simp] theorem State.modRail_rma (r : Nat) (g : Rail → Rail) : (s.modRail r g).rma = s.rma := rfl
@[simp] theorem State.modRail_storage (r : Nat) (g : Rail → Rail) : (s.modRail r g).storage = s.storage := rfl
@[simp] theorem State.modRail_pcie (r : Nat) (g : Rail → Rail) : (s.modRail r g).pcie = s.pcie := rfl
@[simp] theorem State.modRail_cipher (r : Nat) (g : Rail → Rail) : (s.modRail r g).cipher = s.cipher := rfl
@[simp] theorem State.modRail_boot (r : Nat) (g : Rail → Rail) : (s.modRail r g).boot = s.boot := rfl
@[simp] theorem State.modRail_pins (r : Nat) (g : Rail → Rail) : (s.modRail r g).pins = s.pins := rfl
@[simp] theorem State.modRail_free (r : Nat) (g : Rail → Rail) : (s.modRail r g).free = s.free := rfl
@[simp] theorem State.modRail_pending (r : Nat) (g : Rail → Rail) : (s.modRail r g).pending = s.pending := rfl

/-! ### modPField -/

@[simp] theorem State.modPField_now (f : Nat) (g : PField → PField) : (s.modPField f g).now = s.now := rfl
@[simp] theorem State.modPField_mem (f : Nat) (g : PField → PField) : (s.modPField f g).mem = s.mem := rfl
@[simp] theorem State.modPField_emitted (f : Nat) (g : PField → PField) : (s.modPField f g).emitted = s.emitted := rfl
@[simp] theorem State.modPField_loupe (f : Nat) (g : PField → PField) : (s.modPField f g).loupe = s.loupe := rfl
@[simp] theorem State.modPField_faults (f : Nat) (g : PField → PField) : (s.modPField f g).faults = s.faults := rfl
@[simp] theorem State.modPField_facets (f : Nat) (g : PField → PField) : (s.modPField f g).facets = s.facets := rfl
@[simp] theorem State.modPField_mesh (f : Nat) (g : PField → PField) : (s.modPField f g).mesh = s.mesh := rfl
@[simp] theorem State.modPField_hbm (f : Nat) (g : PField → PField) : (s.modPField f g).hbm = s.hbm := rfl
@[simp] theorem State.modPField_gather (f : Nat) (g : PField → PField) : (s.modPField f g).gather = s.gather := rfl
@[simp] theorem State.modPField_parcels (f : Nat) (g : PField → PField) : (s.modPField f g).parcels = s.parcels := rfl
@[simp] theorem State.modPField_rings (f : Nat) (g : PField → PField) : (s.modPField f g).rings = s.rings := rfl
@[simp] theorem State.modPField_insts (f : Nat) (g : PField → PField) : (s.modPField f g).insts = s.insts := rfl
@[simp] theorem State.modPField_acct (f : Nat) (g : PField → PField) : (s.modPField f g).acct = s.acct := rfl
@[simp] theorem State.modPField_chans (f : Nat) (g : PField → PField) : (s.modPField f g).chans = s.chans := rfl
@[simp] theorem State.modPField_fabric (f : Nat) (g : PField → PField) : (s.modPField f g).fabric = s.fabric := rfl
@[simp] theorem State.modPField_eth (f : Nat) (g : PField → PField) : (s.modPField f g).eth = s.eth := rfl
@[simp] theorem State.modPField_traffic (f : Nat) (g : PField → PField) : (s.modPField f g).traffic = s.traffic := rfl
@[simp] theorem State.modPField_rma (f : Nat) (g : PField → PField) : (s.modPField f g).rma = s.rma := rfl
@[simp] theorem State.modPField_storage (f : Nat) (g : PField → PField) : (s.modPField f g).storage = s.storage := rfl
@[simp] theorem State.modPField_pcie (f : Nat) (g : PField → PField) : (s.modPField f g).pcie = s.pcie := rfl
@[simp] theorem State.modPField_cipher (f : Nat) (g : PField → PField) : (s.modPField f g).cipher = s.cipher := rfl
@[simp] theorem State.modPField_boot (f : Nat) (g : PField → PField) : (s.modPField f g).boot = s.boot := rfl
@[simp] theorem State.modPField_pins (f : Nat) (g : PField → PField) : (s.modPField f g).pins = s.pins := rfl
@[simp] theorem State.modPField_free (f : Nat) (g : PField → PField) : (s.modPField f g).free = s.free := rfl
@[simp] theorem State.modPField_pending (f : Nat) (g : PField → PField) : (s.modPField f g).pending = s.pending := rfl

/-! ### reach -/

@[simp] theorem State.reach_mem (t : Nat) : (s.reach t).mem = s.mem := rfl
@[simp] theorem State.reach_emitted (t : Nat) : (s.reach t).emitted = s.emitted := rfl
@[simp] theorem State.reach_loupe (t : Nat) : (s.reach t).loupe = s.loupe := rfl
@[simp] theorem State.reach_faults (t : Nat) : (s.reach t).faults = s.faults := rfl
@[simp] theorem State.reach_facets (t : Nat) : (s.reach t).facets = s.facets := rfl
@[simp] theorem State.reach_mesh (t : Nat) : (s.reach t).mesh = s.mesh := rfl
@[simp] theorem State.reach_hbm (t : Nat) : (s.reach t).hbm = s.hbm := rfl
@[simp] theorem State.reach_gather (t : Nat) : (s.reach t).gather = s.gather := rfl
@[simp] theorem State.reach_parcels (t : Nat) : (s.reach t).parcels = s.parcels := rfl
@[simp] theorem State.reach_rings (t : Nat) : (s.reach t).rings = s.rings := rfl
@[simp] theorem State.reach_insts (t : Nat) : (s.reach t).insts = s.insts := rfl
@[simp] theorem State.reach_acct (t : Nat) : (s.reach t).acct = s.acct := rfl
@[simp] theorem State.reach_chans (t : Nat) : (s.reach t).chans = s.chans := rfl
@[simp] theorem State.reach_fabric (t : Nat) : (s.reach t).fabric = s.fabric := rfl
@[simp] theorem State.reach_eth (t : Nat) : (s.reach t).eth = s.eth := rfl
@[simp] theorem State.reach_traffic (t : Nat) : (s.reach t).traffic = s.traffic := rfl
@[simp] theorem State.reach_rma (t : Nat) : (s.reach t).rma = s.rma := rfl
@[simp] theorem State.reach_storage (t : Nat) : (s.reach t).storage = s.storage := rfl
@[simp] theorem State.reach_pcie (t : Nat) : (s.reach t).pcie = s.pcie := rfl
@[simp] theorem State.reach_cipher (t : Nat) : (s.reach t).cipher = s.cipher := rfl
@[simp] theorem State.reach_power (t : Nat) : (s.reach t).power = s.power := rfl
@[simp] theorem State.reach_boot (t : Nat) : (s.reach t).boot = s.boot := rfl
@[simp] theorem State.reach_pins (t : Nat) : (s.reach t).pins = s.pins := rfl
@[simp] theorem State.reach_free (t : Nat) : (s.reach t).free = s.free := rfl
@[simp] theorem State.reach_pending (t : Nat) : (s.reach t).pending = s.pending := rfl

/-! ### emit -/

@[simp] theorem State.emit_now (o : Out) : (s.emit o).now = s.now := rfl
@[simp] theorem State.emit_mem (o : Out) : (s.emit o).mem = s.mem := rfl
@[simp] theorem State.emit_loupe (o : Out) : (s.emit o).loupe = s.loupe := rfl
@[simp] theorem State.emit_faults (o : Out) : (s.emit o).faults = s.faults := rfl
@[simp] theorem State.emit_facets (o : Out) : (s.emit o).facets = s.facets := rfl
@[simp] theorem State.emit_mesh (o : Out) : (s.emit o).mesh = s.mesh := rfl
@[simp] theorem State.emit_hbm (o : Out) : (s.emit o).hbm = s.hbm := rfl
@[simp] theorem State.emit_gather (o : Out) : (s.emit o).gather = s.gather := rfl
@[simp] theorem State.emit_parcels (o : Out) : (s.emit o).parcels = s.parcels := rfl
@[simp] theorem State.emit_rings (o : Out) : (s.emit o).rings = s.rings := rfl
@[simp] theorem State.emit_insts (o : Out) : (s.emit o).insts = s.insts := rfl
@[simp] theorem State.emit_acct (o : Out) : (s.emit o).acct = s.acct := rfl
@[simp] theorem State.emit_chans (o : Out) : (s.emit o).chans = s.chans := rfl
@[simp] theorem State.emit_fabric (o : Out) : (s.emit o).fabric = s.fabric := rfl
@[simp] theorem State.emit_eth (o : Out) : (s.emit o).eth = s.eth := rfl
@[simp] theorem State.emit_traffic (o : Out) : (s.emit o).traffic = s.traffic := rfl
@[simp] theorem State.emit_rma (o : Out) : (s.emit o).rma = s.rma := rfl
@[simp] theorem State.emit_storage (o : Out) : (s.emit o).storage = s.storage := rfl
@[simp] theorem State.emit_pcie (o : Out) : (s.emit o).pcie = s.pcie := rfl
@[simp] theorem State.emit_cipher (o : Out) : (s.emit o).cipher = s.cipher := rfl
@[simp] theorem State.emit_power (o : Out) : (s.emit o).power = s.power := rfl
@[simp] theorem State.emit_boot (o : Out) : (s.emit o).boot = s.boot := rfl
@[simp] theorem State.emit_pins (o : Out) : (s.emit o).pins = s.pins := rfl
@[simp] theorem State.emit_free (o : Out) : (s.emit o).free = s.free := rfl
@[simp] theorem State.emit_pending (o : Out) : (s.emit o).pending = s.pending := rfl

/-! ### charge -/

@[simp] theorem State.charge_now (i n k : Nat) : (s.charge i n k).now = s.now := rfl
@[simp] theorem State.charge_mem (i n k : Nat) : (s.charge i n k).mem = s.mem := rfl
@[simp] theorem State.charge_emitted (i n k : Nat) : (s.charge i n k).emitted = s.emitted := rfl
@[simp] theorem State.charge_loupe (i n k : Nat) : (s.charge i n k).loupe = s.loupe := rfl
@[simp] theorem State.charge_faults (i n k : Nat) : (s.charge i n k).faults = s.faults := rfl
@[simp] theorem State.charge_facets (i n k : Nat) : (s.charge i n k).facets = s.facets := rfl
@[simp] theorem State.charge_mesh (i n k : Nat) : (s.charge i n k).mesh = s.mesh := rfl
@[simp] theorem State.charge_hbm (i n k : Nat) : (s.charge i n k).hbm = s.hbm := rfl
@[simp] theorem State.charge_gather (i n k : Nat) : (s.charge i n k).gather = s.gather := rfl
@[simp] theorem State.charge_parcels (i n k : Nat) : (s.charge i n k).parcels = s.parcels := rfl
@[simp] theorem State.charge_rings (i n k : Nat) : (s.charge i n k).rings = s.rings := rfl
@[simp] theorem State.charge_acct (i n k : Nat) : (s.charge i n k).acct = s.acct := rfl
@[simp] theorem State.charge_chans (i n k : Nat) : (s.charge i n k).chans = s.chans := rfl
@[simp] theorem State.charge_fabric (i n k : Nat) : (s.charge i n k).fabric = s.fabric := rfl
@[simp] theorem State.charge_eth (i n k : Nat) : (s.charge i n k).eth = s.eth := rfl
@[simp] theorem State.charge_traffic (i n k : Nat) : (s.charge i n k).traffic = s.traffic := rfl
@[simp] theorem State.charge_rma (i n k : Nat) : (s.charge i n k).rma = s.rma := rfl
@[simp] theorem State.charge_storage (i n k : Nat) : (s.charge i n k).storage = s.storage := rfl
@[simp] theorem State.charge_pcie (i n k : Nat) : (s.charge i n k).pcie = s.pcie := rfl
@[simp] theorem State.charge_cipher (i n k : Nat) : (s.charge i n k).cipher = s.cipher := rfl
@[simp] theorem State.charge_power (i n k : Nat) : (s.charge i n k).power = s.power := rfl
@[simp] theorem State.charge_boot (i n k : Nat) : (s.charge i n k).boot = s.boot := rfl
@[simp] theorem State.charge_pins (i n k : Nat) : (s.charge i n k).pins = s.pins := rfl
@[simp] theorem State.charge_free (i n k : Nat) : (s.charge i n k).free = s.free := rfl
@[simp] theorem State.charge_pending (i n k : Nat) : (s.charge i n k).pending = s.pending := rfl

/-! ### raise -/

@[simp] theorem State.raise_now (b c : Nat) (i : Option Nat) (x y : Nat) (l : List Byte) : (s.raise b c i x y l).now = s.now := rfl
@[simp] theorem State.raise_mem (b c : Nat) (i : Option Nat) (x y : Nat) (l : List Byte) : (s.raise b c i x y l).mem = s.mem := rfl
@[simp] theorem State.raise_emitted (b c : Nat) (i : Option Nat) (x y : Nat) (l : List Byte) : (s.raise b c i x y l).emitted = s.emitted := rfl
@[simp] theorem State.raise_faults (b c : Nat) (i : Option Nat) (x y : Nat) (l : List Byte) : (s.raise b c i x y l).faults = s.faults := rfl
@[simp] theorem State.raise_facets (b c : Nat) (i : Option Nat) (x y : Nat) (l : List Byte) : (s.raise b c i x y l).facets = s.facets := rfl
@[simp] theorem State.raise_mesh (b c : Nat) (i : Option Nat) (x y : Nat) (l : List Byte) : (s.raise b c i x y l).mesh = s.mesh := rfl
@[simp] theorem State.raise_hbm (b c : Nat) (i : Option Nat) (x y : Nat) (l : List Byte) : (s.raise b c i x y l).hbm = s.hbm := rfl
@[simp] theorem State.raise_gather (b c : Nat) (i : Option Nat) (x y : Nat) (l : List Byte) : (s.raise b c i x y l).gather = s.gather := rfl
@[simp] theorem State.raise_parcels (b c : Nat) (i : Option Nat) (x y : Nat) (l : List Byte) : (s.raise b c i x y l).parcels = s.parcels := rfl
@[simp] theorem State.raise_rings (b c : Nat) (i : Option Nat) (x y : Nat) (l : List Byte) : (s.raise b c i x y l).rings = s.rings := rfl
@[simp] theorem State.raise_insts (b c : Nat) (i : Option Nat) (x y : Nat) (l : List Byte) : (s.raise b c i x y l).insts = s.insts := rfl
@[simp] theorem State.raise_acct (b c : Nat) (i : Option Nat) (x y : Nat) (l : List Byte) : (s.raise b c i x y l).acct = s.acct := rfl
@[simp] theorem State.raise_chans (b c : Nat) (i : Option Nat) (x y : Nat) (l : List Byte) : (s.raise b c i x y l).chans = s.chans := rfl
@[simp] theorem State.raise_fabric (b c : Nat) (i : Option Nat) (x y : Nat) (l : List Byte) : (s.raise b c i x y l).fabric = s.fabric := rfl
@[simp] theorem State.raise_eth (b c : Nat) (i : Option Nat) (x y : Nat) (l : List Byte) : (s.raise b c i x y l).eth = s.eth := rfl
@[simp] theorem State.raise_traffic (b c : Nat) (i : Option Nat) (x y : Nat) (l : List Byte) : (s.raise b c i x y l).traffic = s.traffic := rfl
@[simp] theorem State.raise_rma (b c : Nat) (i : Option Nat) (x y : Nat) (l : List Byte) : (s.raise b c i x y l).rma = s.rma := rfl
@[simp] theorem State.raise_storage (b c : Nat) (i : Option Nat) (x y : Nat) (l : List Byte) : (s.raise b c i x y l).storage = s.storage := rfl
@[simp] theorem State.raise_pcie (b c : Nat) (i : Option Nat) (x y : Nat) (l : List Byte) : (s.raise b c i x y l).pcie = s.pcie := rfl
@[simp] theorem State.raise_cipher (b c : Nat) (i : Option Nat) (x y : Nat) (l : List Byte) : (s.raise b c i x y l).cipher = s.cipher := rfl
@[simp] theorem State.raise_power (b c : Nat) (i : Option Nat) (x y : Nat) (l : List Byte) : (s.raise b c i x y l).power = s.power := rfl
@[simp] theorem State.raise_boot (b c : Nat) (i : Option Nat) (x y : Nat) (l : List Byte) : (s.raise b c i x y l).boot = s.boot := rfl
@[simp] theorem State.raise_pins (b c : Nat) (i : Option Nat) (x y : Nat) (l : List Byte) : (s.raise b c i x y l).pins = s.pins := rfl
@[simp] theorem State.raise_free (b c : Nat) (i : Option Nat) (x y : Nat) (l : List Byte) : (s.raise b c i x y l).free = s.free := rfl
@[simp] theorem State.raise_pending (b c : Nat) (i : Option Nat) (x y : Nat) (l : List Byte) : (s.raise b c i x y l).pending = s.pending := rfl
@[simp] theorem State.facet_raise_other (b c : Nat) (i : Option Nat) (x y : Nat) (l : List Byte) (m : Nat) : (s.raise b c i x y l).facet m = s.facet m := rfl
@[simp] theorem State.inst_raise_other (b c : Nat) (i : Option Nat) (x y : Nat) (l : List Byte) (m : Nat) : (s.raise b c i x y l).inst m = s.inst m := rfl
@[simp] theorem State.parcel_raise_other (b c : Nat) (i : Option Nat) (x y : Nat) (l : List Byte) (m : Nat) : (s.raise b c i x y l).parcel m = s.parcel m := rfl
@[simp] theorem State.chan_raise_other (b c : Nat) (i : Option Nat) (x y : Nat) (l : List Byte) (m : Nat) : (s.raise b c i x y l).chan m = s.chan m := rfl
@[simp] theorem State.genOf_raise_other (b c : Nat) (i : Option Nat) (x y : Nat) (l : List Byte) (m : Nat) : (s.raise b c i x y l).genOf m = s.genOf m := rfl

/-! ### putFlit -/

@[simp] theorem State.putFlit_now (p : Place) (fl : Flit) : (s.putFlit p fl).now = s.now := rfl
@[simp] theorem State.putFlit_mem (p : Place) (fl : Flit) : (s.putFlit p fl).mem = s.mem := rfl
@[simp] theorem State.putFlit_emitted (p : Place) (fl : Flit) : (s.putFlit p fl).emitted = s.emitted := rfl
@[simp] theorem State.putFlit_loupe (p : Place) (fl : Flit) : (s.putFlit p fl).loupe = s.loupe := rfl
@[simp] theorem State.putFlit_faults (p : Place) (fl : Flit) : (s.putFlit p fl).faults = s.faults := rfl
@[simp] theorem State.putFlit_facets (p : Place) (fl : Flit) : (s.putFlit p fl).facets = s.facets := rfl
@[simp] theorem State.putFlit_hbm (p : Place) (fl : Flit) : (s.putFlit p fl).hbm = s.hbm := rfl
@[simp] theorem State.putFlit_gather (p : Place) (fl : Flit) : (s.putFlit p fl).gather = s.gather := rfl
@[simp] theorem State.putFlit_parcels (p : Place) (fl : Flit) : (s.putFlit p fl).parcels = s.parcels := rfl
@[simp] theorem State.putFlit_rings (p : Place) (fl : Flit) : (s.putFlit p fl).rings = s.rings := rfl
@[simp] theorem State.putFlit_insts (p : Place) (fl : Flit) : (s.putFlit p fl).insts = s.insts := rfl
@[simp] theorem State.putFlit_acct (p : Place) (fl : Flit) : (s.putFlit p fl).acct = s.acct := rfl
@[simp] theorem State.putFlit_chans (p : Place) (fl : Flit) : (s.putFlit p fl).chans = s.chans := rfl
@[simp] theorem State.putFlit_fabric (p : Place) (fl : Flit) : (s.putFlit p fl).fabric = s.fabric := rfl
@[simp] theorem State.putFlit_eth (p : Place) (fl : Flit) : (s.putFlit p fl).eth = s.eth := rfl
@[simp] theorem State.putFlit_traffic (p : Place) (fl : Flit) : (s.putFlit p fl).traffic = s.traffic := rfl
@[simp] theorem State.putFlit_rma (p : Place) (fl : Flit) : (s.putFlit p fl).rma = s.rma := rfl
@[simp] theorem State.putFlit_storage (p : Place) (fl : Flit) : (s.putFlit p fl).storage = s.storage := rfl
@[simp] theorem State.putFlit_pcie (p : Place) (fl : Flit) : (s.putFlit p fl).pcie = s.pcie := rfl
@[simp] theorem State.putFlit_cipher (p : Place) (fl : Flit) : (s.putFlit p fl).cipher = s.cipher := rfl
@[simp] theorem State.putFlit_power (p : Place) (fl : Flit) : (s.putFlit p fl).power = s.power := rfl
@[simp] theorem State.putFlit_boot (p : Place) (fl : Flit) : (s.putFlit p fl).boot = s.boot := rfl
@[simp] theorem State.putFlit_pins (p : Place) (fl : Flit) : (s.putFlit p fl).pins = s.pins := rfl
@[simp] theorem State.putFlit_free (p : Place) (fl : Flit) : (s.putFlit p fl).free = s.free := rfl
@[simp] theorem State.putFlit_pending (p : Place) (fl : Flit) : (s.putFlit p fl).pending = s.pending := rfl
@[simp] theorem State.facet_putFlit_other (p : Place) (fl : Flit) (m : Nat) : (s.putFlit p fl).facet m = s.facet m := rfl
@[simp] theorem State.inst_putFlit_other (p : Place) (fl : Flit) (m : Nat) : (s.putFlit p fl).inst m = s.inst m := rfl
@[simp] theorem State.parcel_putFlit_other (p : Place) (fl : Flit) (m : Nat) : (s.putFlit p fl).parcel m = s.parcel m := rfl
@[simp] theorem State.chan_putFlit_other (p : Place) (fl : Flit) (m : Nat) : (s.putFlit p fl).chan m = s.chan m := rfl
@[simp] theorem State.genOf_putFlit_other (p : Place) (fl : Flit) (m : Nat) : (s.putFlit p fl).genOf m = s.genOf m := rfl

/-! ### sendFlit -/

@[simp] theorem State.sendFlit_now (fl : Flit) : (s.sendFlit fl).now = s.now := rfl
@[simp] theorem State.sendFlit_mem (fl : Flit) : (s.sendFlit fl).mem = s.mem := rfl
@[simp] theorem State.sendFlit_emitted (fl : Flit) : (s.sendFlit fl).emitted = s.emitted := rfl
@[simp] theorem State.sendFlit_loupe (fl : Flit) : (s.sendFlit fl).loupe = s.loupe := rfl
@[simp] theorem State.sendFlit_faults (fl : Flit) : (s.sendFlit fl).faults = s.faults := rfl
@[simp] theorem State.sendFlit_facets (fl : Flit) : (s.sendFlit fl).facets = s.facets := rfl
@[simp] theorem State.sendFlit_hbm (fl : Flit) : (s.sendFlit fl).hbm = s.hbm := rfl
@[simp] theorem State.sendFlit_gather (fl : Flit) : (s.sendFlit fl).gather = s.gather := rfl
@[simp] theorem State.sendFlit_parcels (fl : Flit) : (s.sendFlit fl).parcels = s.parcels := rfl
@[simp] theorem State.sendFlit_rings (fl : Flit) : (s.sendFlit fl).rings = s.rings := rfl
@[simp] theorem State.sendFlit_insts (fl : Flit) : (s.sendFlit fl).insts = s.insts := rfl
@[simp] theorem State.sendFlit_acct (fl : Flit) : (s.sendFlit fl).acct = s.acct := rfl
@[simp] theorem State.sendFlit_chans (fl : Flit) : (s.sendFlit fl).chans = s.chans := rfl
@[simp] theorem State.sendFlit_fabric (fl : Flit) : (s.sendFlit fl).fabric = s.fabric := rfl
@[simp] theorem State.sendFlit_eth (fl : Flit) : (s.sendFlit fl).eth = s.eth := rfl
@[simp] theorem State.sendFlit_traffic (fl : Flit) : (s.sendFlit fl).traffic = s.traffic := rfl
@[simp] theorem State.sendFlit_rma (fl : Flit) : (s.sendFlit fl).rma = s.rma := rfl
@[simp] theorem State.sendFlit_storage (fl : Flit) : (s.sendFlit fl).storage = s.storage := rfl
@[simp] theorem State.sendFlit_pcie (fl : Flit) : (s.sendFlit fl).pcie = s.pcie := rfl
@[simp] theorem State.sendFlit_cipher (fl : Flit) : (s.sendFlit fl).cipher = s.cipher := rfl
@[simp] theorem State.sendFlit_power (fl : Flit) : (s.sendFlit fl).power = s.power := rfl
@[simp] theorem State.sendFlit_boot (fl : Flit) : (s.sendFlit fl).boot = s.boot := rfl
@[simp] theorem State.sendFlit_pins (fl : Flit) : (s.sendFlit fl).pins = s.pins := rfl
@[simp] theorem State.sendFlit_free (fl : Flit) : (s.sendFlit fl).free = s.free := rfl
@[simp] theorem State.sendFlit_pending (fl : Flit) : (s.sendFlit fl).pending = s.pending := rfl
@[simp] theorem State.facet_sendFlit_other (fl : Flit) (m : Nat) : (s.sendFlit fl).facet m = s.facet m := rfl
@[simp] theorem State.inst_sendFlit_other (fl : Flit) (m : Nat) : (s.sendFlit fl).inst m = s.inst m := rfl
@[simp] theorem State.parcel_sendFlit_other (fl : Flit) (m : Nat) : (s.sendFlit fl).parcel m = s.parcel m := rfl
@[simp] theorem State.chan_sendFlit_other (fl : Flit) (m : Nat) : (s.sendFlit fl).chan m = s.chan m := rfl
@[simp] theorem State.genOf_sendFlit_other (fl : Flit) (m : Nat) : (s.sendFlit fl).genOf m = s.genOf m := rfl

/-! ### dieSend -/

@[simp] theorem State.dieSend_now (d : Nat) (fl : Flit) : (s.dieSend d fl).now = s.now := rfl
@[simp] theorem State.dieSend_mem (d : Nat) (fl : Flit) : (s.dieSend d fl).mem = s.mem := rfl
@[simp] theorem State.dieSend_emitted (d : Nat) (fl : Flit) : (s.dieSend d fl).emitted = s.emitted := rfl
@[simp] theorem State.dieSend_loupe (d : Nat) (fl : Flit) : (s.dieSend d fl).loupe = s.loupe := rfl
@[simp] theorem State.dieSend_faults (d : Nat) (fl : Flit) : (s.dieSend d fl).faults = s.faults := rfl
@[simp] theorem State.dieSend_facets (d : Nat) (fl : Flit) : (s.dieSend d fl).facets = s.facets := rfl
@[simp] theorem State.dieSend_hbm (d : Nat) (fl : Flit) : (s.dieSend d fl).hbm = s.hbm := rfl
@[simp] theorem State.dieSend_gather (d : Nat) (fl : Flit) : (s.dieSend d fl).gather = s.gather := rfl
@[simp] theorem State.dieSend_parcels (d : Nat) (fl : Flit) : (s.dieSend d fl).parcels = s.parcels := rfl
@[simp] theorem State.dieSend_rings (d : Nat) (fl : Flit) : (s.dieSend d fl).rings = s.rings := rfl
@[simp] theorem State.dieSend_insts (d : Nat) (fl : Flit) : (s.dieSend d fl).insts = s.insts := rfl
@[simp] theorem State.dieSend_acct (d : Nat) (fl : Flit) : (s.dieSend d fl).acct = s.acct := rfl
@[simp] theorem State.dieSend_chans (d : Nat) (fl : Flit) : (s.dieSend d fl).chans = s.chans := rfl
@[simp] theorem State.dieSend_fabric (d : Nat) (fl : Flit) : (s.dieSend d fl).fabric = s.fabric := rfl
@[simp] theorem State.dieSend_eth (d : Nat) (fl : Flit) : (s.dieSend d fl).eth = s.eth := rfl
@[simp] theorem State.dieSend_traffic (d : Nat) (fl : Flit) : (s.dieSend d fl).traffic = s.traffic := rfl
@[simp] theorem State.dieSend_rma (d : Nat) (fl : Flit) : (s.dieSend d fl).rma = s.rma := rfl
@[simp] theorem State.dieSend_storage (d : Nat) (fl : Flit) : (s.dieSend d fl).storage = s.storage := rfl
@[simp] theorem State.dieSend_pcie (d : Nat) (fl : Flit) : (s.dieSend d fl).pcie = s.pcie := rfl
@[simp] theorem State.dieSend_cipher (d : Nat) (fl : Flit) : (s.dieSend d fl).cipher = s.cipher := rfl
@[simp] theorem State.dieSend_power (d : Nat) (fl : Flit) : (s.dieSend d fl).power = s.power := rfl
@[simp] theorem State.dieSend_boot (d : Nat) (fl : Flit) : (s.dieSend d fl).boot = s.boot := rfl
@[simp] theorem State.dieSend_pins (d : Nat) (fl : Flit) : (s.dieSend d fl).pins = s.pins := rfl
@[simp] theorem State.dieSend_free (d : Nat) (fl : Flit) : (s.dieSend d fl).free = s.free := rfl
@[simp] theorem State.dieSend_pending (d : Nat) (fl : Flit) : (s.dieSend d fl).pending = s.pending := rfl
@[simp] theorem State.facet_dieSend_other (d : Nat) (fl : Flit) (m : Nat) : (s.dieSend d fl).facet m = s.facet m := rfl
@[simp] theorem State.inst_dieSend_other (d : Nat) (fl : Flit) (m : Nat) : (s.dieSend d fl).inst m = s.inst m := rfl
@[simp] theorem State.parcel_dieSend_other (d : Nat) (fl : Flit) (m : Nat) : (s.dieSend d fl).parcel m = s.parcel m := rfl
@[simp] theorem State.chan_dieSend_other (d : Nat) (fl : Flit) (m : Nat) : (s.dieSend d fl).chan m = s.chan m := rfl
@[simp] theorem State.genOf_dieSend_other (d : Nat) (fl : Flit) (m : Nat) : (s.dieSend d fl).genOf m = s.genOf m := rfl

/-! ### taken -/

@[simp] theorem State.taken_now (p : Place) (fl : Flit) : (s.taken p fl).now = s.now := rfl
@[simp] theorem State.taken_mem (p : Place) (fl : Flit) : (s.taken p fl).mem = s.mem := rfl
@[simp] theorem State.taken_emitted (p : Place) (fl : Flit) : (s.taken p fl).emitted = s.emitted := rfl
@[simp] theorem State.taken_loupe (p : Place) (fl : Flit) : (s.taken p fl).loupe = s.loupe := rfl
@[simp] theorem State.taken_faults (p : Place) (fl : Flit) : (s.taken p fl).faults = s.faults := rfl
@[simp] theorem State.taken_facets (p : Place) (fl : Flit) : (s.taken p fl).facets = s.facets := rfl
@[simp] theorem State.taken_hbm (p : Place) (fl : Flit) : (s.taken p fl).hbm = s.hbm := rfl
@[simp] theorem State.taken_gather (p : Place) (fl : Flit) : (s.taken p fl).gather = s.gather := rfl
@[simp] theorem State.taken_parcels (p : Place) (fl : Flit) : (s.taken p fl).parcels = s.parcels := rfl
@[simp] theorem State.taken_rings (p : Place) (fl : Flit) : (s.taken p fl).rings = s.rings := rfl
@[simp] theorem State.taken_insts (p : Place) (fl : Flit) : (s.taken p fl).insts = s.insts := rfl
@[simp] theorem State.taken_acct (p : Place) (fl : Flit) : (s.taken p fl).acct = s.acct := rfl
@[simp] theorem State.taken_chans (p : Place) (fl : Flit) : (s.taken p fl).chans = s.chans := rfl
@[simp] theorem State.taken_fabric (p : Place) (fl : Flit) : (s.taken p fl).fabric = s.fabric := rfl
@[simp] theorem State.taken_eth (p : Place) (fl : Flit) : (s.taken p fl).eth = s.eth := rfl
@[simp] theorem State.taken_traffic (p : Place) (fl : Flit) : (s.taken p fl).traffic = s.traffic := rfl
@[simp] theorem State.taken_rma (p : Place) (fl : Flit) : (s.taken p fl).rma = s.rma := rfl
@[simp] theorem State.taken_storage (p : Place) (fl : Flit) : (s.taken p fl).storage = s.storage := rfl
@[simp] theorem State.taken_pcie (p : Place) (fl : Flit) : (s.taken p fl).pcie = s.pcie := rfl
@[simp] theorem State.taken_cipher (p : Place) (fl : Flit) : (s.taken p fl).cipher = s.cipher := rfl
@[simp] theorem State.taken_power (p : Place) (fl : Flit) : (s.taken p fl).power = s.power := rfl
@[simp] theorem State.taken_boot (p : Place) (fl : Flit) : (s.taken p fl).boot = s.boot := rfl
@[simp] theorem State.taken_pins (p : Place) (fl : Flit) : (s.taken p fl).pins = s.pins := rfl
@[simp] theorem State.taken_free (p : Place) (fl : Flit) : (s.taken p fl).free = s.free := rfl
@[simp] theorem State.taken_pending (p : Place) (fl : Flit) : (s.taken p fl).pending = s.pending := rfl
@[simp] theorem State.facet_taken_other (p : Place) (fl : Flit) (m : Nat) : (s.taken p fl).facet m = s.facet m := rfl
@[simp] theorem State.inst_taken_other (p : Place) (fl : Flit) (m : Nat) : (s.taken p fl).inst m = s.inst m := rfl
@[simp] theorem State.parcel_taken_other (p : Place) (fl : Flit) (m : Nat) : (s.taken p fl).parcel m = s.parcel m := rfl
@[simp] theorem State.chan_taken_other (p : Place) (fl : Flit) (m : Nat) : (s.taken p fl).chan m = s.chan m := rfl
@[simp] theorem State.genOf_taken_other (p : Place) (fl : Flit) (m : Nat) : (s.taken p fl).genOf m = s.genOf m := rfl

/-! ### What they write -/

@[simp] theorem State.facet_putFacet (f : Nat) (x : Facet) : (s.putFacet f x).facet f = x := Tbl.getD_put_self ..
theorem State.facet_putFacet_ne {f n : Nat} (x : Facet) (h : n ≠ f) : (s.putFacet f x).facet n = s.facet n := Tbl.getD_put_ne _ h ..
@[simp] theorem State.facet_modFacet (f : Nat) (g : Facet → Facet) : (s.modFacet f g).facet f = g (s.facet f) := Tbl.getD_put_self ..
theorem State.facet_modFacet_ne {f n : Nat} (g : Facet → Facet) (h : n ≠ f) : (s.modFacet f g).facet n = s.facet n := Tbl.getD_put_ne _ h ..

@[simp] theorem State.inst_putInst (i : Nat) (x : Instance) : (s.putInst i x).inst i = x := Tbl.getD_put_self ..
theorem State.inst_putInst_ne {i n : Nat} (x : Instance) (h : n ≠ i) : (s.putInst i x).inst n = s.inst n := Tbl.getD_put_ne _ h ..
@[simp] theorem State.inst_modInst (i : Nat) (g : Instance → Instance) : (s.modInst i g).inst i = g (s.inst i) := Tbl.getD_put_self ..
theorem State.inst_modInst_ne {i n : Nat} (g : Instance → Instance) (h : n ≠ i) : (s.modInst i g).inst n = s.inst n := Tbl.getD_put_ne _ h ..

@[simp] theorem State.parcel_putParcel (p : Nat) (x : Parcel) : (s.putParcel p x).parcel p = x := Tbl.getD_put_self ..
theorem State.parcel_putParcel_ne {p n : Nat} (x : Parcel) (h : n ≠ p) : (s.putParcel p x).parcel n = s.parcel n := Tbl.getD_put_ne _ h ..
@[simp] theorem State.parcel_modParcel (p : Nat) (g : Parcel → Parcel) : (s.modParcel p g).parcel p = g (s.parcel p) := Tbl.getD_put_self ..
theorem State.parcel_modParcel_ne {p n : Nat} (g : Parcel → Parcel) (h : n ≠ p) : (s.modParcel p g).parcel n = s.parcel n := Tbl.getD_put_ne _ h ..

@[simp] theorem State.chan_putChan (c : Nat) (x : Channel) : (s.putChan c x).chan c = x := Tbl.getD_put_self ..
theorem State.chan_putChan_ne {c n : Nat} (x : Channel) (h : n ≠ c) : (s.putChan c x).chan n = s.chan n := Tbl.getD_put_ne _ h ..
@[simp] theorem State.chan_modChan (c : Nat) (g : Channel → Channel) : (s.modChan c g).chan c = g (s.chan c) := Tbl.getD_put_self ..
theorem State.chan_modChan_ne {c n : Nat} (g : Channel → Channel) (h : n ≠ c) : (s.modChan c g).chan n = s.chan n := Tbl.getD_put_ne _ h ..

@[simp] theorem State.stack_modStack (k : Nat) (g : Stack → Stack) : (s.modStack k g).stack k = g (s.stack k) := Tbl.getD_put_self ..
theorem State.stack_modStack_ne {k n : Nat} (g : Stack → Stack) (h : n ≠ k) : (s.modStack k g).stack n = s.stack n := Tbl.getD_put_ne _ h ..

@[simp] theorem State.memDie_modMemDie (k : Nat) (g : MemDie → MemDie) : (s.modMemDie k g).memDie k = g (s.memDie k) := Tbl.getD_put_self ..
theorem State.memDie_modMemDie_ne {k n : Nat} (g : MemDie → MemDie) (h : n ≠ k) : (s.modMemDie k g).memDie n = s.memDie n := Tbl.getD_put_ne _ h ..

@[simp] theorem State.gatherDie_modGatherDie (k : Nat) (g : GatherDie → GatherDie) : (s.modGatherDie k g).gatherDie k = g (s.gatherDie k) := Tbl.getD_put_self ..
theorem State.gatherDie_modGatherDie_ne {k n : Nat} (g : GatherDie → GatherDie) (h : n ≠ k) : (s.modGatherDie k g).gatherDie n = s.gatherDie n := Tbl.getD_put_ne _ h ..

@[simp] theorem State.flow_modFlow (k : Nat) (g : Flow → Flow) : (s.modFlow k g).flow k = g (s.flow k) := Tbl.getD_put_self ..
theorem State.flow_modFlow_ne {k n : Nat} (g : Flow → Flow) (h : n ≠ k) : (s.modFlow k g).flow n = s.flow n := Tbl.getD_put_ne _ h ..

@[simp] theorem State.gatesOf_modGates (k : Nat) (g : PortGates → PortGates) : (s.modGates k g).gatesOf k = g (s.gatesOf k) := Tbl.getD_put_self ..
theorem State.gatesOf_modGates_ne {k n : Nat} (g : PortGates → PortGates) (h : n ≠ k) : (s.modGates k g).gatesOf n = s.gatesOf n := Tbl.getD_put_ne _ h ..

@[simp] theorem State.fn_modFn (k : Nat) (g : PceFn → PceFn) : (s.modFn k g).fn k = g (s.fn k) := Tbl.getD_put_self ..
theorem State.fn_modFn_ne {k n : Nat} (g : PceFn → PceFn) (h : n ≠ k) : (s.modFn k g).fn n = s.fn n := Tbl.getD_put_ne _ h ..

@[simp] theorem State.rootPort_modRoot (k : Nat) (g : RootPort → RootPort) : (s.modRoot k g).rootPort k = g (s.rootPort k) := Tbl.getD_put_self ..
theorem State.rootPort_modRoot_ne {k n : Nat} (g : RootPort → RootPort) (h : n ≠ k) : (s.modRoot k g).rootPort n = s.rootPort n := Tbl.getD_put_ne _ h ..

@[simp] theorem State.ctrl_modCtrl (k : Nat) (g : NvCtrl → NvCtrl) : (s.modCtrl k g).ctrl k = g (s.ctrl k) := Tbl.getD_put_self ..
theorem State.ctrl_modCtrl_ne {k n : Nat} (g : NvCtrl → NvCtrl) (h : n ≠ k) : (s.modCtrl k g).ctrl n = s.ctrl n := Tbl.getD_put_ne _ h ..

@[simp] theorem State.drive_modDrive (k : Nat) (g : Drive → Drive) : (s.modDrive k g).drive k = g (s.drive k) := Tbl.getD_put_self ..
theorem State.drive_modDrive_ne {k n : Nat} (g : Drive → Drive) (h : n ≠ k) : (s.modDrive k g).drive n = s.drive n := Tbl.getD_put_ne _ h ..

@[simp] theorem State.port_modPort (k : Nat) (g : EthPort → EthPort) : (s.modPort k g).port k = g (s.port k) := Tbl.getD_put_self ..
theorem State.port_modPort_ne {k n : Nat} (g : EthPort → EthPort) (h : n ≠ k) : (s.modPort k g).port n = s.port n := Tbl.getD_put_ne _ h ..

@[simp] theorem State.link_modLink (k : Nat) (g : EthLink → EthLink) : (s.modLink k g).link k = g (s.link k) := Tbl.getD_put_self ..
theorem State.link_modLink_ne {k n : Nat} (g : EthLink → EthLink) (h : n ≠ k) : (s.modLink k g).link n = s.link n := Tbl.getD_put_ne _ h ..

@[simp] theorem State.rail_modRail (k : Nat) (g : Rail → Rail) : (s.modRail k g).rail k = g (s.rail k) := Tbl.getD_put_self ..
theorem State.rail_modRail_ne {k n : Nat} (g : Rail → Rail) (h : n ≠ k) : (s.modRail k g).rail n = s.rail n := Tbl.getD_put_ne _ h ..

@[simp] theorem State.pfield_modPField (k : Nat) (g : PField → PField) : (s.modPField k g).pfield k = g (s.pfield k) := Tbl.getD_put_self ..
theorem State.pfield_modPField_ne {k n : Nat} (g : PField → PField) (h : n ≠ k) : (s.modPField k g).pfield n = s.pfield n := Tbl.getD_put_ne _ h ..

/-! ### Parts that an update of another part leaves -/

@[simp] theorem State.inst_putFacet_other (f : Nat) (x : Facet) (m : Nat) : (s.putFacet f x).inst m = s.inst m := rfl
@[simp] theorem State.parcel_putFacet_other (f : Nat) (x : Facet) (m : Nat) : (s.putFacet f x).parcel m = s.parcel m := rfl
@[simp] theorem State.chan_putFacet_other (f : Nat) (x : Facet) (m : Nat) : (s.putFacet f x).chan m = s.chan m := rfl
@[simp] theorem State.genOf_putFacet_other (f : Nat) (x : Facet) (m : Nat) : (s.putFacet f x).genOf m = s.genOf m := rfl
@[simp] theorem State.inst_modFacet_other (f : Nat) (g : Facet → Facet) (m : Nat) : (s.modFacet f g).inst m = s.inst m := rfl
@[simp] theorem State.parcel_modFacet_other (f : Nat) (g : Facet → Facet) (m : Nat) : (s.modFacet f g).parcel m = s.parcel m := rfl
@[simp] theorem State.chan_modFacet_other (f : Nat) (g : Facet → Facet) (m : Nat) : (s.modFacet f g).chan m = s.chan m := rfl
@[simp] theorem State.genOf_modFacet_other (f : Nat) (g : Facet → Facet) (m : Nat) : (s.modFacet f g).genOf m = s.genOf m := rfl
@[simp] theorem State.facet_putInst_other (i : Nat) (x : Instance) (m : Nat) : (s.putInst i x).facet m = s.facet m := rfl
@[simp] theorem State.parcel_putInst_other (i : Nat) (x : Instance) (m : Nat) : (s.putInst i x).parcel m = s.parcel m := rfl
@[simp] theorem State.chan_putInst_other (i : Nat) (x : Instance) (m : Nat) : (s.putInst i x).chan m = s.chan m := rfl
@[simp] theorem State.facet_modInst_other (i : Nat) (g : Instance → Instance) (m : Nat) : (s.modInst i g).facet m = s.facet m := rfl
@[simp] theorem State.parcel_modInst_other (i : Nat) (g : Instance → Instance) (m : Nat) : (s.modInst i g).parcel m = s.parcel m := rfl
@[simp] theorem State.chan_modInst_other (i : Nat) (g : Instance → Instance) (m : Nat) : (s.modInst i g).chan m = s.chan m := rfl
@[simp] theorem State.facet_putParcel_other (p : Nat) (x : Parcel) (m : Nat) : (s.putParcel p x).facet m = s.facet m := rfl
@[simp] theorem State.inst_putParcel_other (p : Nat) (x : Parcel) (m : Nat) : (s.putParcel p x).inst m = s.inst m := rfl
@[simp] theorem State.chan_putParcel_other (p : Nat) (x : Parcel) (m : Nat) : (s.putParcel p x).chan m = s.chan m := rfl
@[simp] theorem State.genOf_putParcel_other (p : Nat) (x : Parcel) (m : Nat) : (s.putParcel p x).genOf m = s.genOf m := rfl
@[simp] theorem State.facet_modParcel_other (p : Nat) (g : Parcel → Parcel) (m : Nat) : (s.modParcel p g).facet m = s.facet m := rfl
@[simp] theorem State.inst_modParcel_other (p : Nat) (g : Parcel → Parcel) (m : Nat) : (s.modParcel p g).inst m = s.inst m := rfl
@[simp] theorem State.chan_modParcel_other (p : Nat) (g : Parcel → Parcel) (m : Nat) : (s.modParcel p g).chan m = s.chan m := rfl
@[simp] theorem State.genOf_modParcel_other (p : Nat) (g : Parcel → Parcel) (m : Nat) : (s.modParcel p g).genOf m = s.genOf m := rfl
@[simp] theorem State.facet_modRun_other (p : Nat) (g : Run → Run) (m : Nat) : (s.modRun p g).facet m = s.facet m := rfl
@[simp] theorem State.inst_modRun_other (p : Nat) (g : Run → Run) (m : Nat) : (s.modRun p g).inst m = s.inst m := rfl
@[simp] theorem State.chan_modRun_other (p : Nat) (g : Run → Run) (m : Nat) : (s.modRun p g).chan m = s.chan m := rfl
@[simp] theorem State.genOf_modRun_other (p : Nat) (g : Run → Run) (m : Nat) : (s.modRun p g).genOf m = s.genOf m := rfl
@[simp] theorem State.facet_modCkp_other (p : Nat) (g : Ckp → Ckp) (m : Nat) : (s.modCkp p g).facet m = s.facet m := rfl
@[simp] theorem State.inst_modCkp_other (p : Nat) (g : Ckp → Ckp) (m : Nat) : (s.modCkp p g).inst m = s.inst m := rfl
@[simp] theorem State.chan_modCkp_other (p : Nat) (g : Ckp → Ckp) (m : Nat) : (s.modCkp p g).chan m = s.chan m := rfl
@[simp] theorem State.genOf_modCkp_other (p : Nat) (g : Ckp → Ckp) (m : Nat) : (s.modCkp p g).genOf m = s.genOf m := rfl
@[simp] theorem State.facet_putChan_other (c : Nat) (x : Channel) (m : Nat) : (s.putChan c x).facet m = s.facet m := rfl
@[simp] theorem State.inst_putChan_other (c : Nat) (x : Channel) (m : Nat) : (s.putChan c x).inst m = s.inst m := rfl
@[simp] theorem State.parcel_putChan_other (c : Nat) (x : Channel) (m : Nat) : (s.putChan c x).parcel m = s.parcel m := rfl
@[simp] theorem State.genOf_putChan_other (c : Nat) (x : Channel) (m : Nat) : (s.putChan c x).genOf m = s.genOf m := rfl
@[simp] theorem State.facet_modChan_other (c : Nat) (g : Channel → Channel) (m : Nat) : (s.modChan c g).facet m = s.facet m := rfl
@[simp] theorem State.inst_modChan_other (c : Nat) (g : Channel → Channel) (m : Nat) : (s.modChan c g).inst m = s.inst m := rfl
@[simp] theorem State.parcel_modChan_other (c : Nat) (g : Channel → Channel) (m : Nat) : (s.modChan c g).parcel m = s.parcel m := rfl
@[simp] theorem State.genOf_modChan_other (c : Nat) (g : Channel → Channel) (m : Nat) : (s.modChan c g).genOf m = s.genOf m := rfl
@[simp] theorem State.facet_modStack_other (k : Nat) (g : Stack → Stack) (m : Nat) : (s.modStack k g).facet m = s.facet m := rfl
@[simp] theorem State.inst_modStack_other (k : Nat) (g : Stack → Stack) (m : Nat) : (s.modStack k g).inst m = s.inst m := rfl
@[simp] theorem State.parcel_modStack_other (k : Nat) (g : Stack → Stack) (m : Nat) : (s.modStack k g).parcel m = s.parcel m := rfl
@[simp] theorem State.chan_modStack_other (k : Nat) (g : Stack → Stack) (m : Nat) : (s.modStack k g).chan m = s.chan m := rfl
@[simp] theorem State.genOf_modStack_other (k : Nat) (g : Stack → Stack) (m : Nat) : (s.modStack k g).genOf m = s.genOf m := rfl
@[simp] theorem State.facet_modMemDie_other (k : Nat) (g : MemDie → MemDie) (m : Nat) : (s.modMemDie k g).facet m = s.facet m := rfl
@[simp] theorem State.inst_modMemDie_other (k : Nat) (g : MemDie → MemDie) (m : Nat) : (s.modMemDie k g).inst m = s.inst m := rfl
@[simp] theorem State.parcel_modMemDie_other (k : Nat) (g : MemDie → MemDie) (m : Nat) : (s.modMemDie k g).parcel m = s.parcel m := rfl
@[simp] theorem State.chan_modMemDie_other (k : Nat) (g : MemDie → MemDie) (m : Nat) : (s.modMemDie k g).chan m = s.chan m := rfl
@[simp] theorem State.genOf_modMemDie_other (k : Nat) (g : MemDie → MemDie) (m : Nat) : (s.modMemDie k g).genOf m = s.genOf m := rfl
@[simp] theorem State.facet_modGatherDie_other (k : Nat) (g : GatherDie → GatherDie) (m : Nat) : (s.modGatherDie k g).facet m = s.facet m := rfl
@[simp] theorem State.inst_modGatherDie_other (k : Nat) (g : GatherDie → GatherDie) (m : Nat) : (s.modGatherDie k g).inst m = s.inst m := rfl
@[simp] theorem State.parcel_modGatherDie_other (k : Nat) (g : GatherDie → GatherDie) (m : Nat) : (s.modGatherDie k g).parcel m = s.parcel m := rfl
@[simp] theorem State.chan_modGatherDie_other (k : Nat) (g : GatherDie → GatherDie) (m : Nat) : (s.modGatherDie k g).chan m = s.chan m := rfl
@[simp] theorem State.genOf_modGatherDie_other (k : Nat) (g : GatherDie → GatherDie) (m : Nat) : (s.modGatherDie k g).genOf m = s.genOf m := rfl
@[simp] theorem State.facet_modFlow_other (n : Nat) (g : Flow → Flow) (m : Nat) : (s.modFlow n g).facet m = s.facet m := rfl
@[simp] theorem State.inst_modFlow_other (n : Nat) (g : Flow → Flow) (m : Nat) : (s.modFlow n g).inst m = s.inst m := rfl
@[simp] theorem State.parcel_modFlow_other (n : Nat) (g : Flow → Flow) (m : Nat) : (s.modFlow n g).parcel m = s.parcel m := rfl
@[simp] theorem State.chan_modFlow_other (n : Nat) (g : Flow → Flow) (m : Nat) : (s.modFlow n g).chan m = s.chan m := rfl
@[simp] theorem State.genOf_modFlow_other (n : Nat) (g : Flow → Flow) (m : Nat) : (s.modFlow n g).genOf m = s.genOf m := rfl
@[simp] theorem State.facet_modGates_other (p : Nat) (g : PortGates → PortGates) (m : Nat) : (s.modGates p g).facet m = s.facet m := rfl
@[simp] theorem State.inst_modGates_other (p : Nat) (g : PortGates → PortGates) (m : Nat) : (s.modGates p g).inst m = s.inst m := rfl
@[simp] theorem State.parcel_modGates_other (p : Nat) (g : PortGates → PortGates) (m : Nat) : (s.modGates p g).parcel m = s.parcel m := rfl
@[simp] theorem State.chan_modGates_other (p : Nat) (g : PortGates → PortGates) (m : Nat) : (s.modGates p g).chan m = s.chan m := rfl
@[simp] theorem State.genOf_modGates_other (p : Nat) (g : PortGates → PortGates) (m : Nat) : (s.modGates p g).genOf m = s.genOf m := rfl
@[simp] theorem State.facet_modFn_other (n : Nat) (g : PceFn → PceFn) (m : Nat) : (s.modFn n g).facet m = s.facet m := rfl
@[simp] theorem State.inst_modFn_other (n : Nat) (g : PceFn → PceFn) (m : Nat) : (s.modFn n g).inst m = s.inst m := rfl
@[simp] theorem State.parcel_modFn_other (n : Nat) (g : PceFn → PceFn) (m : Nat) : (s.modFn n g).parcel m = s.parcel m := rfl
@[simp] theorem State.chan_modFn_other (n : Nat) (g : PceFn → PceFn) (m : Nat) : (s.modFn n g).chan m = s.chan m := rfl
@[simp] theorem State.genOf_modFn_other (n : Nat) (g : PceFn → PceFn) (m : Nat) : (s.modFn n g).genOf m = s.genOf m := rfl
@[simp] theorem State.facet_modRoot_other (p : Nat) (g : RootPort → RootPort) (m : Nat) : (s.modRoot p g).facet m = s.facet m := rfl
@[simp] theorem State.inst_modRoot_other (p : Nat) (g : RootPort → RootPort) (m : Nat) : (s.modRoot p g).inst m = s.inst m := rfl
@[simp] theorem State.parcel_modRoot_other (p : Nat) (g : RootPort → RootPort) (m : Nat) : (s.modRoot p g).parcel m = s.parcel m := rfl
@[simp] theorem State.chan_modRoot_other (p : Nat) (g : RootPort → RootPort) (m : Nat) : (s.modRoot p g).chan m = s.chan m := rfl
@[simp] theorem State.genOf_modRoot_other (p : Nat) (g : RootPort → RootPort) (m : Nat) : (s.modRoot p g).genOf m = s.genOf m := rfl
@[simp] theorem State.facet_modCtrl_other (i : Nat) (g : NvCtrl → NvCtrl) (m : Nat) : (s.modCtrl i g).facet m = s.facet m := rfl
@[simp] theorem State.inst_modCtrl_other (i : Nat) (g : NvCtrl → NvCtrl) (m : Nat) : (s.modCtrl i g).inst m = s.inst m := rfl
@[simp] theorem State.parcel_modCtrl_other (i : Nat) (g : NvCtrl → NvCtrl) (m : Nat) : (s.modCtrl i g).parcel m = s.parcel m := rfl
@[simp] theorem State.chan_modCtrl_other (i : Nat) (g : NvCtrl → NvCtrl) (m : Nat) : (s.modCtrl i g).chan m = s.chan m := rfl
@[simp] theorem State.genOf_modCtrl_other (i : Nat) (g : NvCtrl → NvCtrl) (m : Nat) : (s.modCtrl i g).genOf m = s.genOf m := rfl
@[simp] theorem State.facet_modDrive_other (p : Nat) (g : Drive → Drive) (m : Nat) : (s.modDrive p g).facet m = s.facet m := rfl
@[simp] theorem State.inst_modDrive_other (p : Nat) (g : Drive → Drive) (m : Nat) : (s.modDrive p g).inst m = s.inst m := rfl
@[simp] theorem State.parcel_modDrive_other (p : Nat) (g : Drive → Drive) (m : Nat) : (s.modDrive p g).parcel m = s.parcel m := rfl
@[simp] theorem State.chan_modDrive_other (p : Nat) (g : Drive → Drive) (m : Nat) : (s.modDrive p g).chan m = s.chan m := rfl
@[simp] theorem State.genOf_modDrive_other (p : Nat) (g : Drive → Drive) (m : Nat) : (s.modDrive p g).genOf m = s.genOf m := rfl
@[simp] theorem State.facet_modPort_other (p : Nat) (g : EthPort → EthPort) (m : Nat) : (s.modPort p g).facet m = s.facet m := rfl
@[simp] theorem State.inst_modPort_other (p : Nat) (g : EthPort → EthPort) (m : Nat) : (s.modPort p g).inst m = s.inst m := rfl
@[simp] theorem State.parcel_modPort_other (p : Nat) (g : EthPort → EthPort) (m : Nat) : (s.modPort p g).parcel m = s.parcel m := rfl
@[simp] theorem State.chan_modPort_other (p : Nat) (g : EthPort → EthPort) (m : Nat) : (s.modPort p g).chan m = s.chan m := rfl
@[simp] theorem State.genOf_modPort_other (p : Nat) (g : EthPort → EthPort) (m : Nat) : (s.modPort p g).genOf m = s.genOf m := rfl
@[simp] theorem State.facet_modLink_other (l : Nat) (g : EthLink → EthLink) (m : Nat) : (s.modLink l g).facet m = s.facet m := rfl
@[simp] theorem State.inst_modLink_other (l : Nat) (g : EthLink → EthLink) (m : Nat) : (s.modLink l g).inst m = s.inst m := rfl
@[simp] theorem State.parcel_modLink_other (l : Nat) (g : EthLink → EthLink) (m : Nat) : (s.modLink l g).parcel m = s.parcel m := rfl
@[simp] theorem State.chan_modLink_other (l : Nat) (g : EthLink → EthLink) (m : Nat) : (s.modLink l g).chan m = s.chan m := rfl
@[simp] theorem State.genOf_modLink_other (l : Nat) (g : EthLink → EthLink) (m : Nat) : (s.modLink l g).genOf m = s.genOf m := rfl
@[simp] theorem State.facet_modRail_other (r : Nat) (g : Rail → Rail) (m : Nat) : (s.modRail r g).facet m = s.facet m := rfl
@[simp] theorem State.inst_modRail_other (r : Nat) (g : Rail → Rail) (m : Nat) : (s.modRail r g).inst m = s.inst m := rfl
@[simp] theorem State.parcel_modRail_other (r : Nat) (g : Rail → Rail) (m : Nat) : (s.modRail r g).parcel m = s.parcel m := rfl
@[simp] theorem State.chan_modRail_other (r : Nat) (g : Rail → Rail) (m : Nat) : (s.modRail r g).chan m = s.chan m := rfl
@[simp] theorem State.genOf_modRail_other (r : Nat) (g : Rail → Rail) (m : Nat) : (s.modRail r g).genOf m = s.genOf m := rfl
@[simp] theorem State.facet_modPField_other (f : Nat) (g : PField → PField) (m : Nat) : (s.modPField f g).facet m = s.facet m := rfl
@[simp] theorem State.inst_modPField_other (f : Nat) (g : PField → PField) (m : Nat) : (s.modPField f g).inst m = s.inst m := rfl
@[simp] theorem State.parcel_modPField_other (f : Nat) (g : PField → PField) (m : Nat) : (s.modPField f g).parcel m = s.parcel m := rfl
@[simp] theorem State.chan_modPField_other (f : Nat) (g : PField → PField) (m : Nat) : (s.modPField f g).chan m = s.chan m := rfl
@[simp] theorem State.genOf_modPField_other (f : Nat) (g : PField → PField) (m : Nat) : (s.modPField f g).genOf m = s.genOf m := rfl
@[simp] theorem State.facet_reach_other (t : Nat) (m : Nat) : (s.reach t).facet m = s.facet m := rfl
@[simp] theorem State.inst_reach_other (t : Nat) (m : Nat) : (s.reach t).inst m = s.inst m := rfl
@[simp] theorem State.parcel_reach_other (t : Nat) (m : Nat) : (s.reach t).parcel m = s.parcel m := rfl
@[simp] theorem State.chan_reach_other (t : Nat) (m : Nat) : (s.reach t).chan m = s.chan m := rfl
@[simp] theorem State.genOf_reach_other (t : Nat) (m : Nat) : (s.reach t).genOf m = s.genOf m := rfl
@[simp] theorem State.facet_emit_other (o : Out) (m : Nat) : (s.emit o).facet m = s.facet m := rfl
@[simp] theorem State.inst_emit_other (o : Out) (m : Nat) : (s.emit o).inst m = s.inst m := rfl
@[simp] theorem State.parcel_emit_other (o : Out) (m : Nat) : (s.emit o).parcel m = s.parcel m := rfl
@[simp] theorem State.chan_emit_other (o : Out) (m : Nat) : (s.emit o).chan m = s.chan m := rfl
@[simp] theorem State.genOf_emit_other (o : Out) (m : Nat) : (s.emit o).genOf m = s.genOf m := rfl
@[simp] theorem State.facet_charge_other (i n k : Nat) (m : Nat) : (s.charge i n k).facet m = s.facet m := rfl
@[simp] theorem State.parcel_charge_other (i n k : Nat) (m : Nat) : (s.charge i n k).parcel m = s.parcel m := rfl
@[simp] theorem State.chan_charge_other (i n k : Nat) (m : Nat) : (s.charge i n k).chan m = s.chan m := rfl

/-! ### Streams of a facet -/

@[simp] theorem Facet.stream_putStream (x : Facet) (k : Nat) (y : Stream) : (x.putStream k y).stream k = y := Tbl.getD_put_self ..
theorem Facet.stream_putStream_ne (x : Facet) {k n : Nat} (y : Stream) (h : n ≠ k) : (x.putStream k y).stream n = x.stream n :=
  Tbl.getD_put_ne _ h ..
@[simp] theorem Facet.stream_modStream (x : Facet) (k : Nat) (g : Stream → Stream) : (x.modStream k g).stream k = g (x.stream k) :=
  Tbl.getD_put_self ..
theorem Facet.stream_modStream_ne (x : Facet) {k n : Nat} (g : Stream → Stream) (h : n ≠ k) :
    (x.modStream k g).stream n = x.stream n := Tbl.getD_put_ne _ h ..

end Sys2Proof.Machine
end

