-- ==== Sys2Proof/Laws/Commands.lean ====
section
/-! SUPPORT. How a command that is taken executes, said once. -/

namespace Sys2Proof.Machine

/-- A command that is taken executes in the state it entered, and its answer is its reply or a wait. -/
theorem State.command_eq {s : State} {sp : Spec} {c : Cmd} (h : s.takes sp c = true) :
    s.command sp c =
      match sp.run (s.entered sp c) (s.waiterOf c) (s.senderOf c) c.pkt.params with
      | .done u status detail ps => u.finish (s.waiterOf c) status detail ps
      | .wait u => u := by
  simp only [State.takes, State.meets, State.reaches, State.verdict, Bool.and_eq_true, decide_eq_true_eq, Bool.or_eq_true, Option.isNone_iff_eq_none] at h
  obtain ⟨⟨⟨⟨⟨⟨⟨⟨h1, h2⟩, h3⟩, h4⟩, h5⟩, h6⟩, h7⟩, h8⟩, h9⟩ := h
  have hv : c.pkt.version = 1 := by
    by_contra hv
    have hv' : ¬ c.pkt.version = 1#8 := hv
    simp [State.checked, hv'] at h9
  have e2 : ¬(s.power.rung = 3 ∧ 2 ≤ c.ch) := by omega
  have key : s.command sp c = s.wakeDeep.sequence sp c (s.senderOf c) := by
    simp [State.command, State.packet, h1, e2, h3, h4, h5, State.senderOf]
  rw [key]
  simp only [State.sequence, hv, h6, h7]
  simp only [ne_eq, not_true_eq_false, false_and, if_false, reduceCtorEq, BitVec.sub_self, BitVec.toNat_zero, if_true]
  rw [if_neg (fun e => Nat.not_le.mpr h8 e.2)]
  have e3 : ((s.wakeDeep.modChan c.ch fun x => { x with e := x.e + 1 }).begin c sp.opcode (s.senderOf c)) = s.entered sp c := rfl
  simp only [e3, State.execute, h9, State.waiterOf, h7]
  all_goals
    cases sp.run (s.entered sp c) { ch := c.ch, id := (s.wakeDeep.chan c.ch).nextId, seq := (s.wakeDeep.chan c.ch).e }
      (s.senderOf c) c.pkt.params <;> rfl

/-- A taken command whose meaning answers success at once. -/
theorem succeeds_of {i : Instr} {c : Cmd} {s u : State} {sp : Spec} {ps : List Byte} {E : State → Prop}
    (hi : exec i s = .next (s.command sp c)) (h : s.takes sp c = true)
    (hr : sp.run (s.entered sp c) (s.waiterOf c) (s.senderOf c) c.pkt.params = .done u 0 0 ps) (he : E u) :
    Succeeds i c s ps E :=
  ⟨u, by rw [hi, State.command_eq h, hr], he⟩

end Sys2Proof.Machine
end

