-- ==== Sys2Proof/Laws/Facets.lean ====
section
/-! SUPPORT. How a facet instruction issues, said once. -/

namespace Sys2Proof.Machine

/-- An instruction that issues acts on the state in which its counts are consumed and its stream is past it. -/
theorem State.issue_eq {s s1 : State} {f st op : Nat} {w : BitVec 128} (h : Issues s f st op s1 w) (hop : opStream op ≠ 5)
    (run : State → Issued → State) :
    s.issue f st op run = run (s1.issued f st w)
      { f, st, index := ((s.facet f).stream st).next, word := w, e0 := ((s.facet f).stream st).slot w 0
        e1 := ((s.facet f).stream st).slot w 1, e2 := ((s.facet f).stream st).slot w 2 } := by
  have h1 := h.inTable
  simp only [State.issue]
  rw [if_neg (by have := h.goes; have := h.may; simp_all), if_neg (by have := h.more; omega), h.fetched]
  simp only [hop, if_false, h.code, ne_eq, not_true_eq_false, h.legal, h.may, h.free, h.engine, h.counts, Bool.not_true,
    Bool.or_self, Bool.false_eq_true, State.issued]

/-- A stream of another opcode, or one that must wait, changes nothing but what the fetch did and the start of a wait: the
facet's streams keep their place. -/
theorem State.facet_issued (s1 : State) (f st : Nat) (w : BitVec 128) :
    (s1.issued f st w).facet f = ((s1.facet f).consume w).modStream st fun y => y.advance w := by simp [State.issued]

theorem State.facet_issued_ne (s1 : State) {f g : Nat} (st : Nat) (w : BitVec 128) (h : g ≠ f) :
    (s1.issued f st w).facet g = s1.facet g := by simp [State.issued, State.facet_putFacet_ne _ _ h]

end Sys2Proof.Machine
end

