-- ==== Sys2Proof/Laws/Memory.lean ====
section
/-! SUPPORT. Every operation on device memory keeps its canonical form, and the state after reset has it. -/

namespace Sys2Proof.Machine

theorem MemOk.reset : MemOk State.reset := by rfl

/-- A state with the same memory has it in the same form. -/
theorem MemOk.of_mem {s t : State} (h : MemOk s) (e : t.mem = s.mem) : MemOk t := by rw [MemOk, e]; exact h

/-- Folding a function that keeps the form keeps it. -/
theorem MemOk.foldl {α : Type} {g : State → α → State} (hg : ∀ s x, MemOk s → MemOk (g s x)) :
    ∀ (l : List α) (s : State), MemOk s → MemOk (l.foldl g s)
  | [], _, h => h
  | x :: t, s, h => MemOk.foldl hg t (g s x) (hg s x h)

/-- Folding a function that leaves memory alone leaves it alone. -/
theorem foldl_mem {α : Type} {g : State → α → State} (hg : ∀ s x, (g s x).mem = s.mem) :
    ∀ (l : List α) (s : State), (l.foldl g s).mem = s.mem
  | [], _ => rfl
  | x :: t, s => by rw [List.foldl_cons, foldl_mem hg t, hg]

/-- Folding byte writes keeps the form. -/
theorem Memory.wf_foldl {α : Type} {g : List Host.Cell → α → List Host.Cell}
    (hg : ∀ m x, Memory.wf m = true → Memory.wf (g m x) = true) :
    ∀ (l : List α) (m : List Host.Cell), Memory.wf m = true → Memory.wf (l.foldl g m) = true
  | [], _, h => h
  | x :: t, m, h => Memory.wf_foldl hg t (g m x) (hg m x h)

@[simp] theorem State.markWritten_mem (s : State) (a n : Nat) : (s.markWritten a n).mem = s.mem := by
  refine foldl_mem (fun s j => ?_) _ _
  simp only
  split <;> simp

@[simp] theorem State.dropRows_mem (s : State) (a n : Nat) : (s.dropRows a n).mem = s.mem := rfl

theorem State.storeRaw_memOk {s : State} (h : MemOk s) (a : Nat) (bs : List Byte) : MemOk (s.storeRaw a bs).1 := by
  unfold State.storeRaw
  simp only
  split
  · exact h
  · have key : ∀ (p : Bool) (bad : List Nat) (q : Nat → Bool), Memory.wf (if p = true then Memory.write s.mem a bs
        else (List.range bs.length).foldl (fun m i => if q i then m else Memory.set m (a + i) (bs.getD i 0)) s.mem) = true := by
      intro p bad q
      split
      · exact Memory.wf_write _ _ _ h
      · refine Memory.wf_foldl (fun m i hm => ?_) _ _ h
        split
        · exact hm
        · exact Memory.wf_set _ _ _ hm
    split
    · simp only [MemOk, State.dropRows_mem, State.markWritten_mem]
      exact key _ [] _
    · exact key _ [] _

theorem State.issueWrite_memOk {s : State} (h : MemOk s) (k : Nat) : MemOk (s.issueWrite k) := by
  unfold State.issueWrite
  split
  · exact h
  · simp only
    split
    · simp only [MemOk, State.modStack_mem]
      exact State.storeRaw_memOk (s := s.modStack k _) h _ _
    · exact h

theorem State.drainStack_memOk (k : Nat) : ∀ (n : Nat) {s : State}, MemOk s → MemOk (s.drainStack k n)
  | 0, _, h => h
  | n + 1, _, h => State.drainStack_memOk k n (State.issueWrite_memOk h k)

theorem State.drainHbm_memOk {s : State} (h : MemOk s) : MemOk s.drainHbm :=
  MemOk.foldl (fun _ e h => State.drainStack_memOk e.1 _ h) _ _ h

theorem State.zeroRange_memOk {s : State} (h : MemOk s) (a n : Nat) : MemOk (s.zeroRange a n) := by
  unfold State.zeroRange
  simp only
  split
  · simp only [MemOk, State.dropRows_mem]
    exact Memory.wf_erase _ _ (State.drainHbm_memOk h)
  · simp only [MemOk]
    exact Memory.wf_erase _ _ h

@[simp] theorem State.ueLog_mem (s : State) (cls a : Nat) : (s.ueLog cls a).mem = s.mem := by
  unfold State.ueLog
  simp only [State.raise_mem]
  split <;> simp

@[simp] theorem State.ueLogRange_mem (s : State) (cls a n : Nat) : (s.ueLogRange cls a n).mem = s.mem :=
  foldl_mem (fun s u => State.ueLog_mem s cls u) _ _

@[simp] theorem State.metSpad_mem (s : State) (f off n : Nat) : (s.metSpad f off n).mem = s.mem := by
  unfold State.metSpad
  split
  · rfl
  · simp [State.disarm]

@[simp] theorem State.met_mem (s : State) (a n : Nat) : (s.met a n).mem = s.mem := by
  unfold State.met
  split
  · exact State.metSpad_mem ..
  · exact (foldl_mem (fun s e => by simp) _ _).trans rfl

theorem State.copyRaw_memOk {s : State} (h : MemOk s) (src dst n : Nat) : MemOk (s.copyRaw src dst n) :=
  State.storeRaw_memOk h _ _

theorem State.saveGranule_memOk {s t : State} {p g : Nat} (h : MemOk s) (e : s.saveGranule p g = some t) : MemOk t := by
  unfold State.saveGranule at e
  simp only at e
  split at e
  · split at e
    · simp only [Option.some.injEq] at e
      subst e
      split
      · exact h.of_mem (by simp)
      · rw [MemOk, State.modCkp_mem]
        exact State.copyRaw_memOk (h.of_mem (by simp)) _ _ _
    · simp at e
  · simp at e

theorem State.saveFor_memOk : ∀ (n : Nat) {s t : State} {a : Nat}, MemOk s → s.saveFor a n = some t → MemOk t
  | 0, s, t, a, h, e => by
    simp only [State.saveFor, Option.some.injEq] at e
    exact e ▸ h
  | n + 1, s, t, a, h, e => by
    simp only [State.saveFor] at e
    split at e
    · simp only [Option.some.injEq] at e
      exact e ▸ h
    · split at e
      · rename_i e'
        exact State.saveFor_memOk n (State.saveGranule_memOk h e') e
      · simp at e

theorem State.storePart_memOk {s : State} (h : MemOk s) (a : Nat) (bs : List Byte) : MemOk (s.storePart a bs).1 := by
  unfold State.storePart
  simp only
  split
  · exact h.of_mem (by simp [State.holdWrite])
  · split
    · rename_i e
      exact State.storeRaw_memOk (State.saveFor_memOk _ h e) _ _
    · exact h.of_mem (by simp [State.holdWrite])
    · exact State.storeRaw_memOk h _ _

/-- An engine's write keeps the form. -/
theorem State.store_memOk {s : State} (h : MemOk s) (a : Nat) (bs : List Byte) : MemOk (s.store a bs).1 := by
  have key : ∀ (l : List (Nat × List Byte)) (r : State × Bool), MemOk r.1 →
      MemOk (l.foldl (fun r e => let q := r.1.storePart e.1 e.2; (q.1, r.2 && q.2)) r).1 := by
    intro l
    induction l with
    | nil => intro r hr; exact hr
    | cons x t ih => intro r hr; exact ih _ (State.storePart_memOk hr _ _)
  unfold State.store
  simp only
  split
  · split
    · exact key _ _ (State.drainHbm_memOk h)
    · exact State.storeRaw_memOk (State.drainHbm_memOk h) _ _
  · exact State.storeRaw_memOk h _ _

theorem State.zeroStore_memOk {s : State} (h : MemOk s) (a n : Nat) : MemOk (s.zeroStore a n) := by
  unfold State.zeroStore
  split
  · refine MemOk.foldl (fun s j h => ?_) _ _ h
    simp only
    split
    · exact State.storePart_memOk h _ _
    · exact State.zeroRange_memOk h _ _
  · exact State.zeroRange_memOk h _ _

theorem State.zeroGrans_memOk {s : State} (h : MemOk s) (gs : List Nat) : MemOk (s.zeroGrans gs) := by
  refine MemOk.foldl (fun s g h => ?_) _ _ h
  split
  · exact State.zeroStore_memOk h _ _
  · exact h

theorem State.writeEntries_memOk {s : State} (h : MemOk s) (i first : Nat) (es : List Nat) : MemOk (s.writeEntries i first es) :=
  State.storeRaw_memOk h _ _

theorem State.loseHbm_memOk {s : State} (h : MemOk s) : MemOk s.loseHbm := by
  have e : s.loseHbm.mem = Memory.erase (fun a => decide (a < hbmSize)) s.mem := rfl
  rw [MemOk, e]
  exact Memory.wf_erase _ _ h

theorem State.freshStack_memOk {s : State} (h : MemOk s) (k : Nat) : MemOk (s.freshStack k) := by
  have e : (s.freshStack k).mem = Memory.erase (fun a => decide (a < hbmSize) && s.stackOf a = k) s.mem := rfl
  rw [MemOk, e]
  exact Memory.wf_erase _ _ h

theorem State.writeOver_memOk : ∀ (l : List (Nat × Nat)) {s : State} (bs : List Byte), MemOk s → MemOk (s.writeOver l bs)
  | [], _, _, h => h
  | (_, _) :: t, _, _, h => State.writeOver_memOk t _ (State.storeRaw_memOk h _ _)

theorem State.saveFacet_memOk {s : State} (h : MemOk s) (segs : List (Nat × Nat)) (f k : Nat) : MemOk (s.saveFacet segs f k) :=
  State.writeOver_memOk _ _ (h.of_mem (by simp))

/-- What the stacks report of a read changes no byte and no facet. -/
theorem State.busMet_mem (s : State) (a : Nat) (o : ReadOutcome) : (s.busMet a o).mem = s.mem ∧ (s.busMet a o).facets = s.facets := by
  unfold State.busMet
  split
  · exact ⟨rfl, rfl⟩
  · cases o
    case uncorrected =>
      simp only
      split <;> exact ⟨rfl, rfl⟩
    all_goals exact ⟨rfl, rfl⟩

/-- What the bus reports of a write changes no byte. -/
theorem State.busWrote_mem (s : State) (cls a : Nat) (o : ReadOutcome) : (s.busWrote cls a o).mem = s.mem := by
  cases o
  case uncorrected =>
    unfold State.busWrote State.ueLog
    simp only
    split <;> simp [State.parityErr]
  all_goals rfl

/-- A queued write succeeds, meets a cured parity error or stays uncorrectable; one free value is used up. -/
theorem State.writeOutcome_cases (s : State) : ∃ o, s.writeOutcome = (o, { s with free := s.free + 1 }) ∧ o ≠ .corrected :=
  ⟨_, rfl, by split <;> [skip; split] <;> simp⟩

end Sys2Proof.Machine
end

