-- ==== Sys2Proof/WellFormed.lean ====
section
/-! DEFINITION. Which commands are well formed: every object number names an object of the part, every header field
fits its width. A command that is not well formed names nothing the spec has; its meaning changes nothing. -/

namespace Sys2Proof

/-- A packet arrives on one of the 194 channels (R228) and its PLEN fits the field (R225). -/
def Cmd.wf (c : Cmd) : Bool := decide (c.ch < 194) && decide (c.pkt.plen < 65536) && decide (c.pkt.params.length ≤ 65536)

/-- Every header field of a flit fits its width (R117). -/
def Flit.wf (fl : Flit) : Bool :=
  decide (fl.typ < 16) && decide (fl.vc < 4) && decide (fl.dx < 64) && decide (fl.dy < 32) && decide (fl.side < 8) &&
  decide (fl.sx < 64) && decide (fl.sy < 32) && decide (fl.inst < 64) && decide (fl.tokc < 32) &&
  decide (fl.tokn < 8) && decide (fl.units < 8) && decide (fl.tag < 128) && decide (fl.flow < 256) &&
  decide (fl.addr < 2 ^ 48) && decide (fl.payload.length ≤ 128)

/-- Every header field of a Zaren frame fits its width (R251). -/
def ZFrame.wf (z : ZFrame) : Bool :=
  decide (z.version < 16) && decide (z.typ < 16) && decide (z.tokn < 16) && decide (z.hops < 256) &&
  decide (z.tag < 256) && decide (z.dst < 65536) && decide (z.src < 65536) && decide (z.job < 65536) &&
  decide (z.inst < 256) && decide (z.sfx < 64) && decide (z.sfy < 32) && decide (z.aclass < 8) &&
  decide (z.addr < 2 ^ 48) && decide (z.rsx < 64) && decide (z.rsy < 32) && decide (z.tokc < 32) && decide (z.pcp < 8)

/-- Every header field of a RoCEv2 packet fits its width (R324, R326). -/
def RocePkt.wf (pk : RocePkt) : Bool :=
  decide (pk.tver < 16) && decide (pk.pkey < 65536) && decide (pk.opcode < 256) && decide (pk.dqpn < 2 ^ 24) &&
  decide (pk.va < 2 ^ 64) && decide (pk.rkey < 2 ^ 32) && decide (pk.dmaLen < 2 ^ 32) && decide (pk.syndrome < 256)

/-- A submission entry of 64 bytes of one of the 64 controllers (R352, R355). -/
def NvmeFetch.wf (e : NvmeFetch) : Bool := decide (e.ctrl < 64) && decide (e.sq < 65536) && decide (e.entry.length = 64)

/-- Every field of a completion piece fits its width (R392). -/
def CplPiece.wf (pc : CplPiece) : Bool :=
  decide (pc.fn < 64) && decide (pc.tag < 16384) && decide (pc.status < 8) && decide (pc.lowerAddr < 128) &&
  decide (pc.byteCount ≤ 4096) && decide (pc.payload.length ≤ 4096)

/-- The queue exists (R305). -/
def EqName.wf : EqName → Bool
  | .queue p q => decide (p < 16) && decide (q < 1024)
  | .dflt link cls => decide (link < 64) && decide (cls < 8)
  | .ctrl link => decide (link < 64)

/-- A frame has at least its addresses and type (R286). -/
def EthFrame.wf (fr : EthFrame) : Bool := decide (14 ≤ fr.bytes.length)

/-- A drive's request carries as many bytes as it says (R405). -/
def DriveReq.wf (r : DriveReq) : Bool := if r.write then decide (r.data.length = r.len) else decide (r.data = [])

/-- A failing LBA offset fits the 16-bit count of LBAs (R358). -/
def BackingResult.wf (r : BackingResult) : Bool := decide (r.lba < 65536)

/-- Well-formed commands. -/
def Instr.wf : Instr → Bool
  | .tok f st => decide (f < 1536) && decide (st < 4)
  | .beat f st => decide (f < 1536) && decide (st < 4)
  | .loop f st => decide (f < 1536) && decide (st < 4)
  | .setstep f st => decide (f < 1536) && decide (st < 4)
  | .stop f st => decide (f < 1536) && decide (st < 4)
  | .mma f st => decide (f < 1536) && decide (st < 4)
  | .mmaComplete f => decide (f < 1536)
  | .mdrain f st => decide (f < 1536) && decide (st < 4)
  | .mdrainComplete f => decide (f < 1536)
  | .vld f st => decide (f < 1536) && decide (st < 4)
  | .vst f st => decide (f < 1536) && decide (st < 4)
  | .vmovi f st => decide (f < 1536) && decide (st < 4)
  | .vadd f st => decide (f < 1536) && decide (st < 4)
  | .vsub f st => decide (f < 1536) && decide (st < 4)
  | .vmul f st => decide (f < 1536) && decide (st < 4)
  | .vfma f st => decide (f < 1536) && decide (st < 4)
  | .vmax f st => decide (f < 1536) && decide (st < 4)
  | .vmin f st => decide (f < 1536) && decide (st < 4)
  | .vabs f st => decide (f < 1536) && decide (st < 4)
  | .vneg f st => decide (f < 1536) && decide (st < 4)
  | .vcmp f st => decide (f < 1536) && decide (st < 4)
  | .vsel f st => decide (f < 1536) && decide (st < 4)
  | .vcvt f st => decide (f < 1536) && decide (st < 4)
  | .vrsum f st => decide (f < 1536) && decide (st < 4)
  | .vrmax f st => decide (f < 1536) && decide (st < 4)
  | .vexp2 f st => decide (f < 1536) && decide (st < 4)
  | .vrcp f st => decide (f < 1536) && decide (st < 4)
  | .vrsqrt f st => decide (f < 1536) && decide (st < 4)
  | .vand f st => decide (f < 1536) && decide (st < 4)
  | .vor f st => decide (f < 1536) && decide (st < 4)
  | .vxor f st => decide (f < 1536) && decide (st < 4)
  | .vshl f st => decide (f < 1536) && decide (st < 4)
  | .vshr f st => decide (f < 1536) && decide (st < 4)
  | .vectorComplete f => decide (f < 1536)
  | .saddr f st => decide (f < 1536) && decide (st < 4)
  | .speer f st => decide (f < 1536) && decide (st < 4)
  | .sput f st => decide (f < 1536) && decide (st < 4)
  | .sget f st => decide (f < 1536) && decide (st < 4)
  | .stok f st => decide (f < 1536) && decide (st < 4)
  | .sgather f st => decide (f < 1536) && decide (st < 4)
  | .tadd f st => decide (f < 1536) && decide (st < 4)
  | .waitLimit f st => decide (f < 1536) && decide (st < 4)
  | .watchdog f st => decide (f < 1536) && decide (st < 4)
  | .facetArrive f => decide (f < 1536)
  | .facetDone f => decide (f < 1536)
  | .flitRoute x y port fl => decide (x < 48) && decide (y < 32) && decide (port < 6) && fl.wf
  | .flitWriteReceive f fl => decide (f < 1536) && fl.wf
  | .flitReadReceive f fl => decide (f < 1536) && fl.wf
  | .flitDataReceive f fl => decide (f < 1536) && fl.wf
  | .flitTokenReceive f fl => decide (f < 1536) && fl.wf
  | .flitAckReceive f fl => decide (f < 1536) && fl.wf
  | .flitNackReceive f fl => decide (f < 1536) && fl.wf
  | .meshStall f port vc => decide (f < 1536) && decide (port < 6) && decide (vc < 4)
  | .bankTransitionDone f bank => decide (f < 1536) && decide (bank < 16)
  | .tblBankpwrWrite f _ => decide (f < 1536)
  | .tblStallWrite f _ => decide (f < 1536)
  | .fctFpflagsWrite f _ => decide (f < 1536)
  | .fctDiscardRead f => decide (f < 1536)
  | .fctSlackminRead f => decide (f < 1536)
  | .tblEccRead f => decide (f < 1536)
  | .cutLoad c => c.wf
  | .cutStart c => c.wf
  | .cutPause c => c.wf
  | .cutResume c => c.wf
  | .cutStop c => c.wf
  | .cutUnload c => c.wf
  | .cutStatus c => c.wf
  | .deviceArrive p => decide (p < 64)
  | .outputRecordWrite p => decide (p < 64)
  | .beatLimitExpire p => decide (p < 64)
  | .beatDeadline p => decide (p < 64)
  | .windowEnd p => decide (p < 64)
  | .timedStart p => decide (p < 64)
  | .startLimitExpire p => decide (p < 64)
  | .ctrlArrive link z => decide (link < 64) && z.wf
  | .ctrlClose link z => decide (link < 64) && z.wf
  | .ctrlSlip link z => decide (link < 64) && z.wf
  | .ctrlAbort link z => decide (link < 64) && z.wf
  | .ctrlPause link z => decide (link < 64) && z.wf
  | .ctrlResume link z => decide (link < 64) && z.wf
  | .ctrlStop link z => decide (link < 64) && z.wf
  | .ctrlReady link z => decide (link < 64) && z.wf
  | .ctrlGo link z => decide (link < 64) && z.wf
  | .ctrlCknow link z => decide (link < 64) && z.wf
  | .ctrlCkpt link z => decide (link < 64) && z.wf
  | .ctrlArmed link z => decide (link < 64) && z.wf
  | .ctrlRelease link z => decide (link < 64) && z.wf
  | .ctrlSealed link z => decide (link < 64) && z.wf
  | .ctrlFailed link z => decide (link < 64) && z.wf
  | .ctrlDone link z => decide (link < 64) && z.wf
  | .ctrlPauseReq link z => decide (link < 64) && z.wf
  | .ctrlStopReq link z => decide (link < 64) && z.wf
  | .memZoneSet c => c.wf
  | .gthTableSet c => c.wf
  | .gthTableClear c => c.wf
  | .gthTableGet c => c.wf
  | .gthCacheDrop c => c.wf
  | .gthTableWaitEnd inst tab => decide (inst < 64) && decide (tab < 16)
  | .mgFlitReceive k fl => decide (k < 8) && fl.wf
  | .hbmWriteIssue stack => decide (stack < 32)
  | .hbmReadComplete stack _ => decide (stack < 32)
  | .hbmRefresh stack pc bank => decide (stack < 32) && decide (pc < 32) && decide (bank < 64)
  | .stackTempCross stack temp => decide (stack < 32) && decide (temp < 256)
  | .patrolScrub _ _ => true
  | .stackRequestTimeout stack => decide (stack < 32)
  | .gatherDescReceive k fl => decide (k < 8) && fl.wf
  | .gatherRowArrive k _ => decide (k < 8)
  | .gatherChunkDeliver k => decide (k < 8)
  | .gthCacheWrite k _ => decide (k < 8)
  | .gthCwaysWrite k inst _ => decide (k < 8) && decide (inst < 64)
  | .memUelogWrite k n _ => decide (k < 8) && decide (n < 16)
  | .memEccRead k => decide (k < 8)
  | .memDiscardRead k => decide (k < 8)
  | .ckpConfig c => c.wf
  | .ckpNow c => c.wf
  | .ckpStatus c => c.wf
  | .ckpRestore c => c.wf
  | .ckpTimerExpire p => decide (p < 64)
  | .granuleSaveDone p _ => decide (p < 64)
  | .copierGranule p => decide (p < 64)
  | .ckptSeal p => decide (p < 64)
  | .pclInstCreate c => c.wf
  | .pclInstReset c => c.wf
  | .pclInstRemove c => c.wf
  | .pclParcelAlloc c => c.wf
  | .pclParcelFree c => c.wf
  | .pclShareSet c => c.wf
  | .pclMapSet c => c.wf
  | .pclBudgetSet c => c.wf
  | .pclAcctConfig c => c.wf
  | .pclInstStatus c => c.wf
  | .instResetDrained i => decide (i < 64)
  | .instResetTimeout i die => decide (i < 64) && decide (die < 13)
  | .mapSetDrained i => decide (i < 64)
  | .energyInterval => true
  | .acctPeriod => true
  | .pclPacedRead p => decide (p < 64)
  | .pclAcctdropRead => true
  | .sysSync c => c.wf
  | .sysIdentify c => c.wf
  | .sysAbort c => c.wf
  | .sysEcho c => c.wf
  | .sysRegRead c => c.wf
  | .sysRegWrite c => c.wf
  | .sysChanSet c => c.wf
  | .sysChanStatus c => c.wf
  | .sysRingSet c => c.wf
  | .unknownOpcode op c => decide (op < 65536) && c.wf
  | .commandPacketDiscard ch _ _ => decide (ch < 194)
  | .commandRingPoll ch _ => decide (ch < 194)
  | .mctpReassemblyTimeout => true
  | .replyBoundExpire ch _ => decide (ch < 194)
  | .registerWrite _ _ => true
  | .helloSend link => decide (link < 64)
  | .helloReceive link z => decide (link < 64) && z.wf
  | .adjacencyDown link _ => decide (link < 64)
  | .lsaSend => true
  | .lsaReceive link z => decide (link < 64) && z.wf
  | .routesReceive link z => decide (link < 64) && z.wf
  | .heartbeatSend => true
  | .routesResend _ => true
  | .heartbeatLoss => true
  | .candidateExclusionEnd _ => true
  | .zarenWriteReceive link z => decide (link < 64) && z.wf
  | .zarenReadReceive link z => decide (link < 64) && z.wf
  | .zarenDataReceive link z => decide (link < 64) && z.wf
  | .zarenTokenReceive link z => decide (link < 64) && z.wf
  | .zarenDoneReceive link z => decide (link < 64) && z.wf
  | .zarenFailReceive link z => decide (link < 64) && z.wf
  | .packReceive link z => decide (link < 64) && z.wf
  | .cmdFrameReceive link z => decide (link < 64) && z.wf
  | .encapReceive link z => decide (link < 64) && z.wf
  | .resyncReceive link z => decide (link < 64) && z.wf
  | .zarenForward link z => decide (link < 64) && z.wf
  | .peerTransferDone _ tag => decide (tag < 128)
  | .zlkRtoExpire dev cls => decide (dev < 65536) && decide (cls < 8)
  | .zarenAckTimer dev cls => decide (dev < 65536) && decide (cls < 8)
  | .resyncSend dev cls => decide (dev < 65536) && decide (cls < 8)
  | .gptpMessageReceive link _ => decide (link < 64)
  | .gptpLockLoss _ => true
  | .grandmasterLock => true
  | .gateEntryAdvance port => decide (port < 16)
  | .adminGateStart port => decide (port < 16)
  | .fabGateSet c => c.wf
  | .fabJobGet c => c.wf
  | .fabNeighGet c => c.wf
  | .zlkPortWrite port _ => decide (port < 16)
  | .zlkDiscardRead n => decide (n < 4)
  | .frameReceive link fr => decide (link < 64) && fr.wf
  | .linkUp link => decide (link < 64)
  | .linkRestart link => decide (link < 64)
  | .linkFault link _ _ _ => decide (link < 64)
  | .mgmtFrameReceive _ => true
  | .netRuleSet c => c.wf
  | .netRuleClear c => c.wf
  | .netRuleGet c => c.wf
  | .netQueueSet c => c.wf
  | .netQueueGet c => c.wf
  | .netPortWrite port _ => decide (port < 16)
  | .netLinkRead link => decide (link < 64)
  | .netDropRead k n => decide (k < 4) && decide (n < 8)
  | .netQstatRead q => decide (q < 4096)
  | .transmitSelect link => decide (link < 64)
  | .shaperRefill => true
  | .tmsMeterSet c => c.wf
  | .tmsShaperSet c => c.wf
  | .tmsObjFree c => c.wf
  | .tmsObjGet c => c.wf
  | .tmsEqSet c => c.wf
  | .tmsIqmapSet c => c.wf
  | .tmsEqstatRead q => q.wf
  | .tmsDropRead k n => decide (k < 4) && decide (n < 3)
  | .roceWriteReceive link pk => decide (link < 64) && pk.wf
  | .roceReadRequestReceive link pk => decide (link < 64) && pk.wf
  | .roceReadResponseReceive link pk => decide (link < 64) && pk.wf
  | .roceAckReceive link pk => decide (link < 64) && pk.wf
  | .doorbellRingPoll i => decide (i < 64)
  | .rmaDb fn _ => decide (fn < 64)
  | .workRequestFetch qp => decide (qp < 262144)
  | .rocePacketSend qp => decide (qp < 262144)
  | .roceRetransmitTimeout qp => decide (qp < 262144)
  | .roceAckTimer qp => decide (qp < 262144)
  | .contextFetchDone qp => decide (qp < 262144)
  | .baseDelayRefresh => true
  | .completionEntryWrite qp => decide (qp < 262144)
  | .rmaCtxArea c => c.wf
  | .rmaPdAlloc c => c.wf
  | .rmaPdFree c => c.wf
  | .rmaQpCreate c => c.wf
  | .rmaQpModify c => c.wf
  | .rmaQpDestroy c => c.wf
  | .rmaQpGet c => c.wf
  | .rmaMwOpen c => c.wf
  | .rmaMwRevoke c => c.wf
  | .mwRevokeDrained w => decide (w < 65536)
  | .rmaDbSet c => c.wf
  | .sqDoorbellWrite fn _ _ => decide (fn < 64)
  | .doorbellAreaPoll i => decide (i < 64)
  | .ccEnWrite fn _ => decide (fn < 64)
  | .ccShnWrite fn _ => decide (fn < 64)
  | .deleteIoSq e => e.wf
  | .createIoSq e => e.wf
  | .getLogPage e => e.wf
  | .deleteIoCq e => e.wf
  | .createIoCq e => e.wf
  | .identify e => e.wf
  | .nvmeAbort e => e.wf
  | .setFeatures e => e.wf
  | .getFeatures e => e.wf
  | .asynchronousEventRequest e => e.wf
  | .nvmFlush e => e.wf
  | .nvmWrite e => e.wf
  | .nvmRead e => e.wf
  | .writeZeroes e => e.wf
  | .datasetManagement e => e.wf
  | .backingComplete _ _ => true
  | .driveCompletionReceive _ r => r.wf
  | .driveTimeout _ => true
  | .driveResetTimeout _ => true
  | .driveLinkUp port _ => decide (port < 8)
  | .apstIdleExpire i => decide (i < 64)
  | .stoCtrlEn c => c.wf
  | .stoCtrlStatus c => c.wf
  | .stoNsCreate c => c.wf
  | .stoNsDelete c => c.wf
  | .stoNsAttach c => c.wf
  | .stoNsCopy c => c.wf
  | .stoDriveStatus c => c.wf
  | .nvcCtrlRead i => decide (i < 64)
  | .configRequest fn _ => decide (fn < 64)
  | .bar0BadAccess fn _ _ _ _ => decide (fn < 64)
  | .mbCfgWrite fn _ => decide (fn < 64)
  | .mbDoorbell fn _ => decide (fn < 64)
  | .inboundRead fn _ _ tag => decide (fn < 64) && decide (tag < 16384)
  | .inboundWrite fn _ _ _ => decide (fn < 64)
  | .masterReadIssue fn => decide (fn < 64)
  | .completionReceive pc => pc.wf
  | .completionTimeout fn tag => decide (fn < 64) && decide (tag < 16384)
  | .tagQuarantineEnd fn tag => decide (fn < 64) && decide (tag < 16384)
  | .busMasterDisable fn => decide (fn < 64)
  | .functionLevelReset fn => decide (fn < 64)
  | .vfEnableClear => true
  | .hotReset => true
  | .d3hotEntry fn _ => decide (fn < 64)
  | .pmeTurnOff => true
  | .endpointLinkRetry => true
  | .pceWindowDrained _ entry => decide (entry < 4096)
  | .pceFnBind c => c.wf
  | .pceIwinSet c => c.wf
  | .pceOwinSet c => c.wf
  | .pceWinGet c => c.wf
  | .pceDirtySet c => c.wf
  | .pceDirtySwap c => c.wf
  | .pceAperSet c => c.wf
  | .pceWake c => c.wf
  | .pceFnStatus c => c.wf
  | .rootPortLinkRetry port => decide (port < 8)
  | .driveRequestReceive port r => decide (port < 8) && r.wf
  | .pceLinkRead => true
  | .pceRportRead port => decide (port < 8)
  | .cipCtxSet c => c.wf
  | .cipCtxFree c => c.wf
  | .cipOp c => c.wf
  | .cipStateSave c => c.wf
  | .cipStateRestore c => c.wf
  | .cipQpBind c => c.wf
  | .cipHash c => c.wf
  | .cipLmsVerify c => c.wf
  | .cipStatusRead => true
  | .avsSample _ => true
  | .issueGateReopen field => decide (field < 6)
  | .thermalCeilingTick _ => true
  | .powerCapTick => true
  | .dozeIdleExpire => true
  | .rungEntryStart => true
  | .rungEntryComplete => true
  | .wakeEvent _ => true
  | .wakeAtExpire => true
  | .rungExitComplete => true
  | .porstNDeassert _ => true
  | .porstNAssert => true
  | .pfwNAssert => true
  | .pfwNDeassert => true
  | .pwrwakeNAssert => true
  | .pwrRungSet c => c.wf
  | .pwrStatus c => c.wf
  | .pwrCapSet c => c.wf
  | .pwrPaceSet c => c.wf
  | .fwStage c => c.wf
  | .fwCommit c => c.wf
  | .fwActivate c => c.wf
  | .fwActivateDrained => true
  | .fwFloorSet c => c.wf
  | .attestQuote c => c.wf
  | .pwrRailctlWrite _ => true
  | .pwrGatesRead => true
  | .eventStage => true
  | .logDrain => true
  | .timeMark => true
  | .flashFlush _ => true
  | .freezeLimitExpire target => decide (target < 65)
  | .logDlogSet c => c.wf
  | .logIlogSet c => c.wf
  | .logFreeze c => c.wf
  | .logFlush c => c.wf
  | .logFlashRead c => c.wf
  | .logDropRead sev => decide (sev < 7)
  | .logOvfRead blk => decide (blk < 16)
  | .dgnFaultGet c => c.wf
  | .dgnFaultClear c => c.wf
  | .dgnDieRestart c => c.wf
  | .dgnDeviceReset c => c.wf
  | .dgnInject c => c.wf
  | .engineWd die => decide (die < 13)
  | .ucieRetry die => decide (die < 13)
  | .bezelWatchdog => true
  | .lockstepMismatch => true
  | .bezelRestartDone => true
  | .pcieInternal => true
  | .voltageAlarm sensor => decide (sensor < 256)
  | .temperatureAlarm sensor => decide (sensor < 256)
  | .clockAlarm sensor => decide (sensor < 256)
  | .tamperAlarm sensor => decide (sensor < 256)
  | .alarmClear source => decide (source < 256)
  | .pgTimeout grp => decide (grp < 4)
  | .perstNAssert => true
  | .perstNDeassert => true
  | .prsntNChange port _ => decide (port < 8)
  | .ppsOut => true
  | .mgmtPhyResetRelease => true
  | .sputSourceRead f tag => decide (f < 1536) && decide (tag < 128)
  | .captureComplete p => decide (p < 64)
  | .resumeWindowStart p => decide (p < 64)
  | .gptpSyncSend link => decide (link < 64)
  | .preemptionVerified link => decide (link < 64)
  | .endpointLinkUp _ _ _ => true
  | .rootPortLinkDown port => decide (port < 8)
  | .rootPortAerError port _ => decide (port < 8)
  | .aggregationTimeExpire i cq => decide (i < 64) && decide (cq < 4096)
  | .pgAssert grp => decide (grp < 4)
  | .referenceClockChange clk _ => decide (clk < 5)
  | .mgmtLinkChange _ => true
  | .fwActivateComplete _ => true

end Sys2Proof
end

