-- ==== Sys2Proof/Tests/Slice0.lean ====
section
/-! SUPPORT. Tests: worked examples of the spec, commands that are not well formed, and for each statement of
Certificates/Slice0/Obligations.lean a theorem witness_<Name> that gives concrete states and operands meeting the hypotheses of its
clauses, at the bounds of their ranges. Where a hypothesis turns on a free value of Config, the theorem takes that value as its premise. -/

open Sys2Proof Sys2Proof.Machine

namespace Sys2Proof.Tests

set_option maxRecDepth 4000
set_option Elab.async false

/-! ## Fixtures -/


/-- An instruction's two words from their fields (R42 to R44). -/
def iw (op mod s0 s1 s2 : Nat) (tok : Nat := 0) : BitVec 128 :=
  BitVec.ofNat 128 (op * 2 ^ 56 + mod * 2 ^ 48 + s0 * 2 ^ 32 + s1 * 2 ^ 16 + s2 + tok * 2 ^ 64)

/-- Bytes placed at addresses. -/
def mem (l : List (Nat × List Byte)) : List Host.Cell := l.foldl (fun m e => Memory.write m e.1 e.2) []

/-- An instance-map entry: valid, readable and writable, to a granule of device memory (R203). -/
def mapTo (g : Nat) : List Byte := leBytes 8 (7 * 2 ^ 61 + g * 2 ^ 21)

/-- A cut of a job of one rank. -/
def cut1 : Cut :=
  { identity := [], jobHash := [], timed := false, cycle := 1000, guardNs := 0, slipMax := 0, beatLimit := 0, jobSize := 1, rank := 0
    job := 5, ranktab := [], ring := 0, ringLen := 0, gates := [], slots := [] }

/-- Parcel 0 of instance 0: the 4 × 4 facets from (0, 0), with a cut running. -/
def parcel1 : Parcel :=
  { Parcel.initial with valid := true, gw := 1, gh := 1, cut := some cut1, run := { Run.initial with started := some 0 } }

/-- A facet of that parcel that runs, with one instruction in stream `st`. -/
def facet1 (st : Nat) : Facet :=
  { Facet.initial with
    state := .running, owner := some { gen := 0, inst := 0, px := 0, py := 0, pw := 3, ph := 3 }, jobSize := 1
    streams := [(st, { Stream.initial with len := 4 })] }

/-- Facet 0 runs an instruction in stream `st`; instance 0 maps its granule 0 to granule 4 of HBM. -/
def facetOne (st : Nat) (w : BitVec 128) (g : Facet → Facet := id) : State :=
  { State.reset with
    mem := mem [(0, mapTo 4), (spadAddr 0 0, leBytes 16 w.toNat)]
    insts := [(0, { Instance.initial with state := .active, mapLen := 1 })]
    facets := [(0, g (facet1 st))] }


/-- A packet of a command on a channel, numbered and with its CRC (R225). -/
def packet (op : Nat) (ps : List Byte) (seq : Nat := 0) : Packet :=
  let p : Packet := { version := 1, flags := 0, seq := BitVec.ofNat 32 seq, plen := ps.length, status := 0, rsv14 := 0, detail := 0, crc := 0
                      rseq := 0, elapsed := 0, params := ps }
  { p with crc := BitVec.ofNat 32 (crc32c (p.image op)) }

/-- That packet on channel 2, the manager's. -/
def cmd (op : Nat) (ps : List Byte) : Cmd := { ch := 2, src := 0, pkt := packet op ps }

/-- Parameters from their lengths and values. -/
def fields (l : List (Nat × Nat)) : List Byte := l.flatMap fun e => leBytes e.1 e.2

/-- The device after boot: awake, instance 0 Active with granule 0 of its map at granule 4 of HBM, and channel 2 synced. -/
def live : State :=
  { State.reset with
    now := 1_000_000
    mem := mem [(0, mapTo 4)]
    insts := [(0, { Instance.initial with state := .active, mapLen := 1, shares := Shares.manager })]
    chans := [(2, { Channel.initial 2 with state := .synced })]
    boot := { State.reset.boot with phase := .running }
    pcie := { State.reset.pcie with link := .l0 } }

/-- The running device, its 16 facets as `g` leaves them, parcel 0 with cut `c` and run `r`. -/
def job (c : Cut) (r : Run) (g : Facet → Facet) : State :=
  { live with
    facets := parcel1.facets.map fun f => (f, g { Facet.initial with
      state := .running, owner := some { gen := 0, inst := 0, px := 0, py := 0, pw := 3, ph := 3 }, jobSize := c.jobSize })
    parcels := [(0, { parcel1 with cut := some c, run := r })] }

/-- A job that runs at beat 4. -/
def run4 : Run := { Run.initial with started := some 5, released := true, beat := 4 }

/-- A Zaren frame from device 7 to device 3, unnumbered. -/
def zframe (typ : Nat) (ps : List Byte) : ZFrame :=
  { version := 1, typ, last := true, sig := false, tokn := 0, hops := 32, tag := 0, dst := 3, src := 7, job := 5, inst := 0, psn := 0, sfx := 0, sfy := 0
    avalid := false, aclass := 0, apsn := 0, addr := 0, rsx := 0, rsy := 0, tokc := 0, pcp := if 1 ≤ typ ∧ typ ≤ 4 then 7 else 6, rsv := 0
    lenOk := true, payload := ps }

/-- A frame's flit to facet 0 of instance 0. -/
def flit0 : Flit :=
  { typ := 0, vc := 0, dx := 0, dy := 0, side := 0, sx := 1, sy := 0, inst := 0, gen := 0, tokc := 0, tokn := 0, units := 0, last := true, tag := 0
    flow := 0, addr := spadAddr 0 0, payload := [] }

/-- What the fetch of stream `st` of facet 0 leaves. -/
def fetched (s : State) (st : Nat) : State := match s.fetch 0 st with | .ok r => r.1 | .error e => e

/-! ## Small lemmas for the witnesses -/

/-- What `outNext` reads. -/
def outNext (o : Host.Outcome State Fault Refusal) (s : State) : State := match o with | .next t => t | _ => s

/-- A bounded check of a table says what it holds at every key. -/
theorem find_all {α : Type} {P : Nat → α → Prop} : ∀ {t : Tbl α}, (∀ e ∈ t, P e.1 e.2) → ∀ k y, t.find k = some y → P k y
  | [], _, _, _, h => by cases h
  | (k', v) :: t, h, k, y, hf => by
    unfold Tbl.find at hf
    split at hf
    · next e => cases hf; exact e ▸ h (k', v) (List.mem_cons_self ..)
    · exact find_all (fun e he => h e (List.mem_cons_of_mem _ he)) k y hf

/-- The decidable content of `Issues` for facet 0. -/
def issueOk (s : State) (st op : Nat) (w : BitVec 128) : Bool :=
  match s.fetch 0 st with
  | .ok (s1, v) =>
    let x := (s.facet 0).stream st
    decide (st < 4) && s.mayIssue 0 && !x.stopped && !x.atBeat && decide (x.next < x.len) && v == w && wOp w == op &&
      (decodeExc (s1.facet 0) st w).isNone && !(s1.facet 0).hazard st (usesOf w (x.slot w 0) (x.slot w 1)) && (s1.facet 0).engineFree w && (s1.facet 0).counts w
  | .error _ => false

theorem issues_of {s : State} {st op : Nat} {w : BitVec 128} (h : issueOk s st op w = true) : Issues s 0 st op (fetched s st) w := by
  unfold issueOk at h
  split at h
  · next s1 v e =>
    have e1 : fetched s st = s1 := by simp [fetched, e]
    simp only [Bool.and_eq_true, decide_eq_true_eq, Bool.not_eq_true', beq_iff_eq, Option.isNone_iff_eq_none] at h
    obtain ⟨⟨⟨⟨⟨⟨⟨⟨⟨⟨h1, h2⟩, h3⟩, h4⟩, h5⟩, h6⟩, h7⟩, h8⟩, h9⟩, h10⟩, h11⟩ := h
    subst h6
    exact ⟨⟨by decide, h1⟩, h2, ⟨h3, h4⟩, h5, by rw [e1]; exact e, h7, by rw [e1]; exact h8, by rw [e1]; exact h9, by rw [e1]; exact h10, by rw [e1]; exact h11⟩
  · cases h

/-- The state after a numbered frame is taken in order, when no buffer is full. -/
def took (s : State) (link : Nat) (z : ZFrame) : State :=
  (((if z.typ ≤ 9 ∨ z.typ = 0xD then s.wakeDeep else s).countRx link z.wire).takeFree.2).modFlow (flowKey z.src z.pcp) fun f =>
    { f with rxNext := f.rxNext + 1, rxDue := f.rxDue + 1, rxSince := if f.rxSince.isNone then some s.now else f.rxSince }

/-- What makes a numbered frame be taken in order. -/
def tookOk (s : State) (link : Nat) (z : ZFrame) : Bool :=
  let u := (if z.typ ≤ 9 ∨ z.typ = 0xD then s.wakeDeep else s).countRx link z.wire
  decide (link < 64) && decide ((s.link link).state = .up) && s.fabricLink link && decide (s.power.rung < 3) && !z.malformed &&
    decide (z.dst = (if z.typ ≤ 9 ∨ z.typ = 0xD then s.wakeDeep else s).fabric.id) && !z.avalid && z.hasPsn && decide (z.psn = (u.flow (flowKey z.src z.pcp)).rxNext) && decide (u.free = s.free) &&
    decide (u.takeFree.2.now = s.now) && decide (((took s link z).flow (flowKey z.src z.pcp)).rxDue < 16)

theorem zIngress_took {s : State} {link : Nat} {z : ZFrame} (hf : Config.freeValue s.free % 2 = 0) (h : tookOk s link z = true) :
    s.zIngress link z = (took s link z, true) := by
  simp only [tookOk, Bool.and_eq_true, decide_eq_true_eq, Bool.not_eq_true'] at h
  obtain ⟨⟨⟨⟨⟨⟨⟨⟨⟨⟨⟨h1, h2⟩, h3⟩, h4⟩, h5⟩, h6⟩, h7⟩, h8⟩, h9⟩, h10⟩, h11⟩, h12⟩ := h
  have hn : ¬ (64 ≤ link ∨ (s.link link).state ≠ .up ∨ (!s.fabricLink link) = true ∨ 3 ≤ s.power.rung) := by simp [h2, h3]; omega
  unfold State.zIngress
  rw [if_neg hn]
  simp only [h5, Bool.false_eq_true, if_false, h7, h8, if_true, h6, ne_eq, not_true]
  unfold State.acceptPsn State.mayFail
  simp only [State.takeFree, h10, hf]
  simp only [State.takeFree] at h11
  simp only [took, State.takeFree, h10, h11] at h12 ⊢
  rw [if_pos]
  · rw [if_neg (by omega)]
  · simp; exact h9

theorem job_of {s : State} {link typ : Nat} {z : ZFrame} {b : Binding} (hf : Config.freeValue s.free % 2 = 0)
    (h : (decide (z.typ = typ) && tookOk s link z && decide ((took s link z).bindingOf z = some b)) = true) :
    JobFrame s link z typ ((took s link z).charge z.inst 3 z.wire) b := by
  simp only [Bool.and_eq_true, decide_eq_true_eq] at h
  exact ⟨h.1.1, _, zIngress_took hf h.1.2, h.2, rfl⟩

theorem ctrl_of {s : State} {link code p : Nat} {z : ZFrame} {b : Binding} {c : Cut} (hf : Config.freeValue s.free % 2 = 0)
    (h : (decide (z.typ = 8) && tookOk s link z && decide ((took s link z).bindingOf z = some b)) = true)
    (h' : (decide (fieldAt z.payload 0 1 = code) && decide (b.parcel = p) && !ctrlBad z.payload &&
      decide ((((took s link z).charge z.inst 3 z.wire).parcel p).cut = some c)) = true) :
    CtrlFrame s link z code ((took s link z).charge z.inst 3 z.wire) p c := by
  simp only [Bool.and_eq_true, decide_eq_true_eq, Bool.not_eq_true'] at h'
  exact ⟨h'.1.1.1, ⟨b, job_of hf h, h'.1.1.2⟩, h'.1.2, h'.2⟩

/-- A failing device outside the spec is decided by the free value alone. -/
theorem mayFail_no {s : State} (hf : Config.freeValue s.free % 2 = 0) : s.mayFail = (false, s.takeFree.2) := by
  simp [State.mayFail, State.takeFree, hf]

theorem mayFail_yes {s : State} (hf : Config.freeValue s.free % 2 = 1) : s.mayFail = (true, s.takeFree.2) := by
  simp [State.mayFail, State.takeFree, hf]

/-- What the bus reports of a queued write is decided by the free value alone. -/
theorem writeOutcome_of {s : State} {n : Nat} (hw : Config.freeValue s.free % 4 = n) :
    s.writeOutcome.1 = if n = 1 then .parity else if n = 2 then .uncorrected else .ok := by
  subst hw; rfl

/-- The entry at the head of a device-mode queue is taken. -/
theorem nvTakes_device {s : State} {e : NvmeFetch} {op : Nat} {f : Fetched} (s1 s2 : State) (q : NvSq)
    (hr : s.ctrlRead e.ctrl (q.base + 64 * q.head) 64 = (s1, some f.entry))
    (ha : if e.sq = 0 then s2 = s1 else s1.mayFetch e.ctrl 0 = false ∧ s1.arbiter (some (e.ctrl, e.sq, f.entry)) = some (e.ctrl, e.sq, s2))
    (h : (s.mayFetch e.ctrl e.sq && decide (f.i = e.ctrl) && decide (f.y = e.sq) && decide (f.list = e.prpList) && decide (fieldAt f.entry 0 1 = op) &&
      decide (s.sq e.ctrl e.sq = some q) && decide ((s.ctrl e.ctrl).mode ≠ .host) && (s2.nvConsumed e.ctrl e.sq q).ctrlFresh e.ctrl) = true) :
    NvTakes s e op f (s2.nvConsumed e.ctrl e.sq q) := by
  simp only [Bool.and_eq_true, decide_eq_true_eq] at h
  obtain ⟨⟨⟨⟨⟨⟨⟨h1, h2⟩, h3⟩, h4⟩, h5⟩, h6⟩, h7⟩, h8⟩ := h
  exact ⟨h1, ⟨h2, h3, h4⟩, h5, ⟨s1, s2, q, h6, by rw [if_neg h7]; exact hr, ha, rfl⟩, h8⟩

/-- A field read back from the bytes it was laid out in. -/
theorem leNat_leBytes : ∀ n v : Nat, (leBytes n v).length = n ∧ leNat (leBytes n v) = v % 256 ^ n
  | 0, v => by simp [leBytes, leNat, Nat.mod_one]
  | n + 1, v => by
    obtain ⟨h1, h2⟩ := leNat_leBytes n (v / 256)
    refine ⟨by simp [leBytes, h1], ?_⟩
    have e : v % 256 ^ (n + 1) = v % 256 + 256 * (v / 256 % 256 ^ n) := by rw [Nat.pow_succ', Nat.mod_mul]
    show (BitVec.ofNat 8 v).toNat + 256 * leNat (leBytes n (v / 256)) = _
    rw [h2, e, BitVec.toNat_ofNat]

theorem fieldAt_leBytes (n v : Nat) (l : List Byte) : fieldAt (leBytes n v ++ l) 0 n = v % 256 ^ n := by
  obtain ⟨h1, h2⟩ := leNat_leBytes n v
  have : slice (leBytes n v ++ l) 0 n = leBytes n v := by simp [slice, h1]
  rw [fieldAt, this, h2]

/-- A function with no master read under way or waiting and no Host controller. -/
def quietFn (s : State) (fn : Nat) : Prop :=
  (s.fn fn).waiting = [] ∧ (s.fn fn).reads = [] ∧ ∀ i, (s.fn fn).bound = some i → (s.ctrl i).mode ≠ .host

theorem quiet_all (s : State) (h : ∀ j ∈ List.range 64, (s.fn j).waiting = [] ∧ (s.fn j).reads = [] ∧ ∀ i ∈ (s.fn j).bound, (s.ctrl i).mode ≠ .host)
    (j : Nat) (hj : j ≤ 63) : quietFn s j :=
  have ⟨h1, h2, h3⟩ := h j (List.mem_range.2 (by omega))
  ⟨h1, h2, fun i hi => h3 i hi⟩


/-! ## Worked examples of the spec -/

/-- The facet at (37, 20) in both maps (spec/01_architecture.md, "Example: one facet in both maps"). -/
theorem test_facet_maps : facetAt 37 20 = 0x3E5 ∧ baseFCT + 0x10_0000 * facetAt 37 20 = 0x10_3E50_0000 ∧ spadAddr (facetAt 37 20) 0 = 0x1000_3E50_0000 ∧
    fieldOf (facetAt 37 20) = 5 ∧ baseMEM + 5 * 0x1000_0000 = 0x04_5000_0000 := by decide

/-- The SPUT word of spec/02_facets.md, "Example: handing a tile from one facet to the next". -/
theorem test_sput_word : (fun w : BitVec 128 =>
    [wOp w, wHi w, bit (wPeer w), wS0 w, wS1 w, wS2 w, wWca w, wWna w, wWnb w, wLsn w, wRsc w, wRsn w, wRsx w, wRsy w]) 0x2801_0000_0019_0400_8120_4000_0000_00FF =
    [0x81, 2, 0, 0x4000, 0, 255, 5, 1, 0, 0, 3, 1, 1, 0] := by decide

/-- The MMA word of the same example: CLR set, ACC1, K = 128, both formats E4M3. -/
theorem test_mma_word : (fun w : BitVec 128 =>
    [wOp w, wHi w, wLo w, wS0 w, wS1 w, bit (wMx w), bit (wClr w), wShift w, wTile w, wK w]) 0x1801_0000_2129_0000_2044_2000_2400_427F =
      [0x20, 4, 4, 0x2000, 0x2400, 0, 1, 0, 1, 128] ∧
    (fun w : BitVec 128 => [wWca w, wWna w, wLsc w, wLsn w, wRsc w, wRsn w, wRsx w, wRsy w]) 0x1801_0000_2129_0000_2044_2000_2400_427F =
      [3, 1, 4, 1, 5, 1, 0, 0] := by decide

/-- A block of an MX drain to E4M3 (spec/03_number_formats.md, "Example: an MX drain to E4M3"). -/
theorem test_mx_drain : mxBlock 4 0 [.fin false 1000 0, .fin false 300 0, .fin false 0x147AE14 (-31)] = (0x80, [0x7E, 0x71, 0x03], 7) := by decide +kernel

/-- An FP32 drain of the exact sum 2^−9 (spec/03_number_formats.md, "Example: order does not matter"). -/
theorem test_exact_drain : convert 1 0 false (.fin false (2 ^ 119) (-128)) = (0x3B00_0000, 0) := by decide +kernel

/-- The IV of spec/16_cipher.md, "Example: an IV", and the counter after it. -/
theorem test_iv : let s : State := { State.reset with boot := { State.reset.boot with epoch := 0x2A }, cipher := { State.reset.cipher with counters := [(0x123, 5)] } }
    (s.nextIv 0x123).map (fun r => (r.1, r.2.cipher.counters.getD 0x123 0)) = some ([0, 0, 0, 0x2A, 0x12, 0x30, 0, 0, 0, 0, 0, 5], 6) := by decide +kernel

/-! ## The queue -/

/-- The command at the front of the queue runs, on the queue's rest. -/
theorem test_step_front : (match step { State.reset with pending := [.fctDiscardRead 3, .fctSlackminRead 4] } with
    | .next t => t.pending | _ => []) = [.fctSlackminRead 4] := by decide +kernel

/-- On an empty queue the block idles: one nanosecond passes (log entry 1). -/
theorem test_step_idle : step State.reset = .next { State.reset with now := State.reset.now + 1 } := rfl

/-- No row of the table gives bits: no word spells a command. -/
theorem test_no_word (n w : Nat) : decodeTableWord n w = none ∧ State.reset.withFetchWord n w = State.reset := ⟨rfl, rfl⟩

/-! ## Commands that are not well formed -/

/-- One command for each bound of an operand, refused by the check. -/
theorem test_wf_operands : ([.tok 1536 0, .tok 0 4, .flitRoute 48 0 0 flit0, .flitRoute 0 32 0 flit0, .flitRoute 0 0 6 flit0, .meshStall 0 0 4,
    .bankTransitionDone 0 16, .deviceArrive 64, .ctrlArrive 64 (zframe 8 []), .gthTableWaitEnd 64 0, .gthTableWaitEnd 0 16, .memEccRead 8,
    .stackRequestTimeout 32, .hbmRefresh 0 32 0, .hbmRefresh 0 0 64, .stackTempCross 0 256, .memUelogWrite 0 16 0, .instResetDrained 64,
    .instResetTimeout 0 13, .unknownOpcode 65536 (cmd 0 []), .commandPacketDiscard 194 0 [], .peerTransferDone 0 128, .zlkRtoExpire 65536 0,
    .zlkRtoExpire 0 8, .gateEntryAdvance 16, .zlkDiscardRead 4, .linkUp 64, .netDropRead 4 0, .netDropRead 0 8, .netQstatRead 4096,
    .tmsDropRead 0 3, .rmaDb 64 0, .workRequestFetch 262144, .mwRevokeDrained 65536, .driveLinkUp 8 ⟨0, 0, 0, [], 0, false⟩, .inboundRead 0 0 0 16384,
    .pceWindowDrained true 4096, .issueGateReopen 6, .freezeLimitExpire 65, .logDropRead 7, .logOvfRead 16, .voltageAlarm 256, .alarmClear 256,
    .pgTimeout 4, .aggregationTimeExpire 0 4096, .referenceClockChange 5 true] : List Instr).all (fun i => !i.wf) = true := by decide +kernel

/-- A packet on a channel that does not exist, with too long a PLEN, and with too many parameter bytes. -/
theorem test_wf_packets : (Cmd.wf { cmd 1 [] with ch := 194 } || Cmd.wf { cmd 1 [] with pkt := { (cmd 1 []).pkt with plen := 65536 } } ||
    (Instr.cutLoad { cmd 1 [] with ch := 194 }).wf) = false := by decide +kernel

/-- One flit for each header field that does not fit. -/
theorem test_wf_flits : ([{ flit0 with typ := 16 }, { flit0 with vc := 4 }, { flit0 with dx := 64 }, { flit0 with dy := 32 }, { flit0 with side := 8 },
    { flit0 with sx := 64 }, { flit0 with sy := 32 }, { flit0 with inst := 64 }, { flit0 with tokc := 32 }, { flit0 with tokn := 8 }, { flit0 with units := 8 },
    { flit0 with tag := 128 }, { flit0 with flow := 256 }, { flit0 with addr := 2 ^ 48 }, { flit0 with payload := zeros 129 }] : List Flit).all
      (fun fl => !fl.wf && !(Instr.flitWriteReceive 0 fl).wf) = true := by decide +kernel

/-- One frame for each header field that does not fit. -/
theorem test_wf_frames : let z := zframe 1 []
    ([{ z with version := 16 }, { z with typ := 16 }, { z with tokn := 16 }, { z with hops := 256 }, { z with tag := 256 }, { z with dst := 65536 }, { z with src := 65536 },
      { z with job := 65536 }, { z with inst := 256 }, { z with sfx := 64 }, { z with sfy := 32 }, { z with aclass := 8 }, { z with addr := 2 ^ 48 }, { z with rsx := 64 },
      { z with rsy := 32 }, { z with tokc := 32 }, { z with pcp := 8 }] : List ZFrame).all (fun z => !z.wf && !(Instr.ctrlArrive 0 z).wf) = true := by decide +kernel

/-- One packet for each header field that does not fit, and each other operand's own check. -/
theorem test_wf_others : let p : RocePkt := { icrcOk := true, tver := 0, pkey := 0, opcode := 0, dqpn := 0, psn := 0, ackReq := false, va := 0, rkey := 0, dmaLen := 0
                                              syndrome := 0, payload := [], frameLen := 0, stamp := 0 }
    let e : NvmeFetch := { ctrl := 0, sq := 0, entry := zeros 64, prpList := [] }
    let q : CplPiece := { fn := 0, tag := 0, status := 0, lowerAddr := 0, byteCount := 0, payload := [], ep := false }
    (([{ p with tver := 16 }, { p with pkey := 65536 }, { p with opcode := 256 }, { p with dqpn := 2 ^ 24 }, { p with va := 2 ^ 64 }, { p with rkey := 2 ^ 32 },
       { p with dmaLen := 2 ^ 32 }, { p with syndrome := 256 }] : List RocePkt).all fun p => !(Instr.roceWriteReceive 0 p).wf) = true ∧
    (([{ e with ctrl := 64 }, { e with sq := 65536 }, { e with entry := [] }] : List NvmeFetch).all fun e => !(Instr.deleteIoSq e).wf) = true ∧
    (([{ q with fn := 64 }, { q with tag := 16384 }, { q with status := 8 }, { q with lowerAddr := 128 }, { q with byteCount := 4097 }, { q with payload := zeros 4097 }] :
      List CplPiece).all fun q => !(Instr.completionReceive q).wf) = true ∧
    (([.queue 16 0, .queue 0 1024, .dflt 64 0, .dflt 0 8, .ctrl 64] : List EqName).all fun q => !(Instr.tmsEqstatRead q).wf) = true ∧
    (Instr.frameReceive 0 ⟨zeros 13, true, true, 0⟩).wf = false ∧ (Instr.driveCompletionReceive 0 ⟨.ok, 65536, []⟩).wf = false ∧
    (DriveReq.wf ⟨0, true, 2, [1]⟩ || DriveReq.wf ⟨0, false, 2, [1]⟩) = false := by decide +kernel

/-- The same commands with their operands in range are well formed. -/
theorem test_wf_accepts : ([.tok 1535 3, .flitRoute 47 31 5 flit0, .cutLoad (cmd 1 []), .ctrlArrive 63 (zframe 8 []), .linkUp 63, .tmsEqstatRead (.queue 15 1023),
    .hbmRefresh 31 31 63, .workRequestFetch 262143] : List Instr).all (fun i => i.wf) = true := by decide +kernel

/-! ## Witnesses of the statements about a step, a queued write and a meter -/

theorem witness_StepKeepsMemoryForm : MemOk live ∧ step live = .next { live with now := live.now + 1 } := ⟨by unfold MemOk; decide +kernel, rfl⟩

theorem witness_StepConsumesOneCommand : step { live with pending := [.fctDiscardRead 3] } = exec (.fctDiscardRead 3) { live with pending := [] } ∧
    (match exec (.fctDiscardRead 3) { live with pending := [] } with | .next _ => true | _ => false) = true := ⟨rfl, by decide +kernel⟩

theorem witness_StepRunsFront : live.pending = [] := rfl

/-- Two bytes within one stack, up to the last byte of memory (the others' stack is theirs). -/
theorem witness_QueuedWriteVisible : live.hbm.bad = [] ∧ 0x1000 + [1, 2].length ≤ hbmSize ∧ live.stackOf 0x1001 = live.stackOf 0x1000 ∧
    hbmSize - 1 + [1].length ≤ hbmSize := by decide +kernel

/-- A meter that marks a frame green, yellow and red: at the bounds of its two buckets. -/
theorem witness_MeterMarks : let m : Meter := { owner := 0, trtcm := false, aware := true, colsrc := false, act := 0, cir := 100, pir := 200, cbs := 2, ebs := 3, c := 8000, e := 8000, last := 10, counts := [] }
    ((m.mark 1 .green).2 = .green ∧ (m.mark 1 .yellow).2 = .yellow ∧ (m.mark 1 .red).2 = .red) ∧
    ({ m with c := 7999 }.mark 1 .green).2 = .yellow ∧ ({ m with c := 7999, e := 7999 }.mark 1 .green).2 = .red ∧ ({ m with trtcm := true }.mark 1 .green).2 = .green := by
  refine ⟨⟨?_, ?_, ?_⟩, ?_, ?_, ?_⟩ <;> rfl

/-! ## Witnesses: Facet instructions -/

namespace W02

def W1 := iw 0 0 0 0 0 (0x1F * 2^59 + 2047 * 2^48)
def S1 := facetOne 3 W1 fun x => { x with toks := [(31, 2047)], tokown := BitVec.ofNat 64 (2^64-1) }
def W2 := iw 1 1 0 0 0
def S2 := facetOne 3 W2
def W3 := iw 2 0 0xFFFF 3 0
def S3 := facetOne 0 W3
def W4 := iw 3 3 0x8000 0x7FFF 0xFFFF
def S4 := facetOne 0 W4
def W5 := iw 4 0 0 0 0
def S5 := facetOne 1 W5
def W6 := iw 0xC0 0 31 0xFFFF 0
def S6 := facetOne 3 W6
def S7 := facetOne 3 W6 fun x => { x with toks := [(31, 65535)] }
def W8 := iw 0 0 0 0 0 (31 * 2^27 + 7 * 2^24)
def W9 := iw 0 0 0 0 0 (31 * 2^19 + 7 * 2^16 + 3 * 2^10 + 2 * 2^5)
def S10 : State := facetOne 3 W6 fun x => { x with state := .faulted }
def W12 := iw 0x5E 0x10 31 1 0
def Q13 : InFlight := { stream := 1, index := 0, word := W12, e0 := 31, e1 := 1 }
def S13 := facetOne 1 W12 fun x => { x with inflight := [Q13] }
def W14 := iw 0x40 0xBB 0x10 31 1
def S14 := facetOne 1 W14
def W14b := iw 0x40 0x10 0x10 31 1
def S14b := facetOne 1 W14b
def W15 := iw 0x41 0xBB 0x10 1 1
def S15 := facetOne 1 W15 fun x => x.setLanes 1 (List.range 64)
def W16 := iw 0x42 0xB0 31 0xFFFF 0xFFFF
def S16 := facetOne 1 W16
def W17 := iw 0x20 0x99 0x10 0x20 0x4000
def S17 := facetOne 0 W17
def W18 := iw 0x21 0x91 0x10 0 0
def S18 := facetOne 0 W18 fun x => { x with accClass := [(0, .i)] }
def Q19 : InFlight := { stream := 0, index := 0, word := W17, e0 := 16, e1 := 32 }
def S19 := facetOne 0 W17 fun x => { x with inflight := [Q19], accClass := [(0, .i)] }
def Q20 : InFlight := { stream := 0, index := 0, word := W18, e0 := 16, e1 := 0 }
def S20 := facetOne 0 W18 fun x => { x with inflight := [Q20], accClass := [(0, .i)], acc := [(0, ⟨5, false, false, false⟩), (2047, ⟨7, false, false, false⟩)] }
def arg1 : Owner := ⟨0, 0, 0, 0, 3, 3⟩
def arg2 : List Byte := List.replicate 256 0
def arg3 : List Byte := List.replicate 32 0
def arg4 : List Byte := List.replicate 64 0

theorem witness_ControlInstructions :
    (Issues S1 0 3 0 (fetched S1 3) W1) ∧
    (Issues S2 0 3 1 (fetched S2 3) W2) ∧
    (Issues S3 0 0 2 (fetched S3 0) W3) ∧
    (Issues S4 0 0 3 (fetched S4 0) W4) ∧
    (Issues S5 0 1 4 (fetched S5 1) W5) ∧
    (Issues S6 0 3 192 (fetched S6 3) W6) :=
  ⟨issues_of (by decide +kernel),
    issues_of (by decide +kernel),
    issues_of (by decide +kernel),
    issues_of (by decide +kernel),
    issues_of (by decide +kernel),
    issues_of (by decide +kernel)⟩
theorem witness_TokensAndSignals :
    ((65535 < (S7.facet 0).tok 31 + 1) ∧ ((S7.facet 0).state ≠ FacetState.faulted) ∧ (wRsn W8 = 0) ∧ (wLsn W9 = 0) ∧ (wRsn W9 ≠ 0) ∧ ((S7.facet 0).owner = some arg1) ∧ ((S7.facet 0).freeSignal = some 16) ∧ ((S10.facet 0).state = FacetState.faulted)) :=
  by decide +kernel
theorem witness_VectorResult :
    ((S13.facet 0).flight opVec = some Q13) :=
  by decide +kernel
theorem witness_VectorMemory :
    (Issues S14 0 1 64 (fetched S14 1) W14) ∧
    (((fetched S14 1).issued 0 1 W14).spadGather 0 (vecRanges W14 (16 * (((S14.facet 0).stream 1).slot W14 0).toNat)) = Except.ok arg2) ∧
    (Issues S14b 0 1 64 (fetched S14b 1) W14b) ∧
    (((fetched S14b 1).issued 0 1 W14b).spadGather 0 (vecRanges W14b (16 * (((S14b.facet 0).stream 1).slot W14b 0).toNat)) = Except.ok arg2) ∧
    (Issues S15 0 1 65 (fetched S15 1) W15) ∧
    (Issues S16 0 1 66 (fetched S16 1) W16) :=
  ⟨issues_of (by decide +kernel),
    by decide +kernel,
    issues_of (by decide +kernel),
    by decide +kernel,
    issues_of (by decide +kernel),
    issues_of (by decide +kernel)⟩
theorem witness_MatrixEngine :
    (Issues S17 0 0 32 (fetched S17 0) W17) ∧
    (Issues S18 0 0 33 (fetched S18 0) W18) ∧
    ((((S19.facet 0).flight fun x => decide (x = 32)) = some Q19) ∧ (S19.spadRead 0 (16 * Q19.e0) (aBytes (wHi Q19.word) (wK Q19.word) (wMx Q19.word)) = Except.ok arg3) ∧ (S19.spadRead 0 (16 * Q19.e1) (bBytes (wLo Q19.word) (wK Q19.word) (wMx Q19.word)) = Except.ok arg4) ∧ (((S20.facet 0).flight fun x => decide (x = 33)) = some Q20) ∧ (0 < nFacets) ∧ (Memory.wf S20.mem = true) ∧ (16 * Q20.e0 + (drainBytes (wHi Q20.word) (wDRound Q20.word) (wDMx Q20.word) (wDTr Q20.word) (wDSat Q20.word) (List.map (cellVal (((S20.facet 0).accClass.find (wDTile Q20.word)).getD AccClass.f)) ((S20.facet 0).cells (wDTile Q20.word)))).1.length ≤ 1048576) ∧ ((S20.facet 0).banksOn (16 * Q20.e0) (drainBytes (wHi Q20.word) (wDRound Q20.word) (wDMx Q20.word) (wDTr Q20.word) (wDSat Q20.word) (List.map (cellVal (((S20.facet 0).accClass.find (wDTile Q20.word)).getD AccClass.f)) ((S20.facet 0).cells (wDTile Q20.word)))).1.length = true) ∧ (S20.hbm.bad = [])) :=
  ⟨issues_of (by decide +kernel),
    issues_of (by decide +kernel),
    by decide +kernel⟩

theorem witness_IssueConsumesCounts : Issues S1 0 3 0 (fetched S1 3) W1 := issues_of (by decide +kernel)


end W02

/-! ## Witnesses: Transfers, beats and scratchpads -/

namespace W02b

def W1 := iw 0x80 0x1F 0x8000 0 1
def S1 := facetOne 2 W1 fun x => { x with dregs := [(15, BitVec.ofNat 48 (2^47+5))] }
def W2 := iw 0x83 0 0 0 1
def S2 := facetOne 2 W2 fun x => { x with jobSize := 2 }
def W3 := iw 0x81 0x10 0x10 0 7
def S3 := facetOne 2 W3 fun x => { x with dregs := [(1, 0x100)] }
def W4 := iw 0x81 0x18 0x10 0 7
def peered (s : State) : State := { s with fabric := { s.fabric with routes := [(7, BitVec.ofNat 64 (2^63))], id := 3 }, parcels := [(0, { parcel1 with cut := some { cut1 with jobSize := 2, ranktab := [3, 7] } })] }
def S4 := peered (facetOne 2 W4 fun x => { x with peer := 1, jobSize := 2 })
def W5 := iw 0x82 0x10 0x10 0 7
def S5 := facetOne 2 W5
def W6 := iw 0x82 0x18 0x10 0 7
def S6 := peered (facetOne 2 W6 fun x => { x with peer := 1, jobSize := 2 })
def W7 := iw 0x84 0 0 0 0 (31 * 2^19 + 7 * 2^16 + 3 * 2^10 + 2 * 2^5)
def S7 := facetOne 2 W7
def W8 := iw 0x85 0 0x10 1 0
def S8 := facetOne 2 W8 fun x => { x with dregs := [(0, 0x1000)] }
def x9 : Xfer := { tag := 15, kind := .put, index := 0, word := W3, loc := 0x100, remote := 0, bytes := 16, peer := none, srcRead := false, sig := false, due := 0 }
def S9 := facetOne 2 W3 fun x => { x with xfers := [x9] }
def S10 := peered (facetOne 2 W4 fun x => { x with xfers := [{x9 with peer := some 1}] })
def S11 := facetOne 2 W3
def S12 := facetOne 2 W3 fun x => {x with exc := some ⟨false, 1, 2, 3, 4, 5⟩}
def W13 := iw 0 0 0 0 0 (0x1F * 2^59 + 2047 * 2^48)
def S13 := facetOne 3 W13 fun x => { x with toks := [(31, 2046)], tokown := BitVec.ofNat 64 (2^64-1), streams := [(3, { Stream.initial with len := 4, waiting := some (7, 1) })] }
def S14 := facetOne 3 W13 fun x => { x with streams := (List.range 4).map fun k => (k, { Stream.initial with len := 4, atBeat := true }) }
def S15 := facetOne 3 W13 fun x => { x with streams := (List.range 4).map fun k => (k, { Stream.initial with len := 4, stopped := true }) }
def S16 : State := { S15 with facets := (List.range 4).flatMap fun y => (List.range 4).map fun x => (48 * y + x, { S15.facet 0 with owner := some ⟨0,0,0,0,3,3⟩, state := if x = 0 ∧ y = 0 then .running else .done }), parcels := [(0, parcel1)] }
def route (x y p : Nat) (fl : Flit) (pl : Place := .buf x y p) : State := { S11 with mesh := { S11.mesh with transit := [⟨fl, pl, 5⟩] } }
def b18 : Flit := {flit0 with dx := 48, dy := 31, side := 4}
def w20 : Flit := { flit0 with payload := [1,2,3,4], tokn := 7, tokc := 31, addr := spadAddr 0 0xFFFFC }
def S20 : State := { S11 with mesh := { S11.mesh with transit := [⟨w20, .facet 0, 5⟩] } }
def r21 : Flit := { flit0 with typ := 1, payload := leBytes 4 0x100 ++ leBytes 4 15, addr := spadAddr 0 0xFFF00 }
def S21 : State := { S11 with mesh := { S11.mesh with transit := [⟨r21, .facet 0, 5⟩] } }
def d22 : Flit := { flit0 with typ := 2, payload := List.replicate 16 5, tag := 15, last := false}
def x22 : Xfer := {x9 with kind := .get, due := 1, srcRead := true}
def S22 : State := { S9 with mesh := { S11.mesh with transit := [⟨d22, .facet 0, 5⟩] } }.modFacet 0 fun x => { x with xfers := [x22] }
def t23 : Flit := { flit0 with typ := 3, tokc := 31, tokn := 7}
def put0 (fl : Flit) (s : State) : State := { s with mesh := { s.mesh with transit := [⟨fl, .facet 0, 5⟩] } }
def a24 : Flit := { flit0 with typ := 4, tag := 15}
def S24 : State := S22.modFacet 0 fun x => { x with xfers := [{x22 with due := 2}] }
def S25 : State := S22.modFacet 0 fun x => { x with xfers := [], signals := [16, 126] }
def a25 : Flit := { flit0 with typ := 4, tag := 126}
def n26 : Flit := { flit0 with typ := 5, tag := 15, payload := nackBytes 3}
def stl : Flit := { flit0 with vc := 3, dx := 3 }
def M11 : State := { S11 with mesh := { S11.mesh with transit := [⟨stl, .buf 0 0 4, 5⟩] } }
def S27 : State := {M11 with parcels := [(0, parcel1)]}.modFacet 0 fun x => { x with stall := some ⟨false, 1, 1⟩}
def S28 : State := S11.modFacet 0 fun x => { x with bankMove := [(15, .off)], bankReq := BitVec.ofNat 32 (2^31) }
def S29 : State := { S27 with power := { S27.power with rails := [(0, {Rail.initial with set := 600})] } }
def arg1 : List (ℕ × ℕ) := [(4 * 0x200000 + 256, 128)]
def arg2 : List (ℕ × ℕ) := [(4 * 0x200000, 128)]
def arg3 : List Byte := List.replicate 32 0
def arg4 : List Byte := List.replicate 16 0
def arg5 : List (ℕ × ℕ) := [(4 * 0x200000, 16)]
def arg6 : Xfer := {x9 with peer := some 1}
def arg7 : Exc := ⟨false, 1, 2, 3, 4, 5⟩
def arg8 : State := route 47 31 2 b18
def arg9 : Xfer := {x22 with due := 2}
def arg10 : Hop := ⟨stl, .buf 0 0 4, 5⟩
def arg11 : State := S11.modFacet 0 fun x => { x with state := .empty}

theorem witness_StreamTransfers :
    (Issues S1 0 2 128 (fetched S1 2) W1) ∧
    (Issues S2 0 2 131 (fetched S2 2) W2) ∧
    (Issues S3 0 2 129 (fetched S3 2) W3) ∧
    ((peerOf (((fetched S3 2).issued 0 2 W3).facet 0) W3 = none) ∧ (((fetched S3 2).issued 0 2 W3).rangesOf (((fetched S3 2).issued 0 2 W3).facet 0).who.1 (remoteAddr (((fetched S3 2).issued 0 2 W3).facet 0) { f := 0, st := 2, index := ((S3.facet 0).stream 2).next, word := W3, e0 := ((S3.facet 0).stream 2).slot W3 0, e1 := ((S3.facet 0).stream 2).slot W3 1, e2 := ((S3.facet 0).stream 2).slot W3 2 }) (16 * (wS2 W3 + 1)) true = Except.ok arg1)) ∧
    (Issues S4 0 2 129 (fetched S4 2) W4) ∧
    (peerOf (((fetched S4 2).issued 0 2 W4).facet 0) W4 = some 1) ∧
    (Issues S5 0 2 130 (fetched S5 2) W5) ∧
    ((peerOf (((fetched S5 2).issued 0 2 W5).facet 0) W5 = none) ∧ (((fetched S5 2).issued 0 2 W5).rangesOf (((fetched S5 2).issued 0 2 W5).facet 0).who.1 (remoteAddr (((fetched S5 2).issued 0 2 W5).facet 0) { f := 0, st := 2, index := ((S5.facet 0).stream 2).next, word := W5, e0 := ((S5.facet 0).stream 2).slot W5 0, e1 := ((S5.facet 0).stream 2).slot W5 1, e2 := ((S5.facet 0).stream 2).slot W5 2 }) (16 * (wS2 W5 + 1)) false = Except.ok arg2)) ∧
    (Issues S6 0 2 130 (fetched S6 2) W6) ∧
    ((peerOf (((fetched S6 2).issued 0 2 W6).facet 0) W6 = some 1) ∧ (((fetched S6 2).issued 0 2 W6).peerDead 0 1 = false)) ∧
    (Issues S7 0 2 132 (fetched S7 2) W7) ∧
    (peerOf (((fetched S7 2).issued 0 2 W7).facet 0) W7 = none) ∧
    (Issues S8 0 2 133 (fetched S8 2) W8) ∧
    ((((fetched S8 2).issued 0 2 W8).spadRead 0 (16 * ({ f := 0, st := 2, index := ((S8.facet 0).stream 2).next, word := W8, e0 := ((S8.facet 0).stream 2).slot W8 0, e1 := ((S8.facet 0).stream 2).slot W8 1, e2 := ((S8.facet 0).stream 2).slot W8 2 } : Issued).e0.toNat) (16 * (wS1 W8 + 1)) = Except.ok arg3) ∧ ((S9.facet 0).xfer 15 = some x9) ∧ (x9.kind = XferKind.put) ∧ (x9.srcRead = false) ∧ (S9.spadRead 0 x9.loc x9.bytes = Except.ok arg4) ∧ (x9.peer = none) ∧ (S9.rangesOf (S9.facet 0).who.1 x9.remote x9.bytes true = Except.ok arg5) ∧ ((S10.facet 0).xfer 15 = some arg6) ∧ (arg6.kind = XferKind.put) ∧ (arg6.srcRead = false) ∧ (S10.spadRead 0 arg6.loc arg6.bytes = Except.ok arg4) ∧ (arg6.peer = some 1)) :=
  ⟨issues_of (by decide +kernel),
    issues_of (by decide +kernel),
    issues_of (by decide +kernel),
    by decide +kernel,
    issues_of (by decide +kernel),
    by decide +kernel,
    issues_of (by decide +kernel),
    by decide +kernel,
    issues_of (by decide +kernel),
    by decide +kernel,
    issues_of (by decide +kernel),
    by decide +kernel,
    issues_of (by decide +kernel),
    by decide +kernel⟩
theorem witness_FacetStops :
    (((S12.facet 0).exc = some arg7) ∧ (arg7.at_ ≠ S12.now ∨ arg7.stream ≤ 2) ∧ (0 < nFacets) ∧ (3 < 4) ∧ ((S13.facet 0).state = FacetState.running)) ∧
    (((S13.facet 0).stream 3).waiting = some (7, 1)) ∧
    ((1 ≠ 0) ∧ ((S13.facet 0).counts (BitVec.ofNat 128 (leNat (S13.readBytes (spadAddr 0 (16 * (((S13.facet 0).stream 3).base + ((S13.facet 0).stream 3).next))) 16))) = false) ∧ ((S13.facet 0).state ≠ FacetState.empty) ∧ ((S14.facet 0).state = FacetState.running) ∧ ((S14.facet 0).arrived = none) ∧ ((S14.facet 0).quiet = true) ∧ (((List.range 4).all fun k => ((S14.facet 0).stream k).atBeat) = true) ∧ ((S15.facet 0).state = FacetState.running) ∧ ((S15.facet 0).quiet = true) ∧ (((List.range 4).all fun k => ((S15.facet 0).stream k).stopped) = true) ∧ (S15.parcelOf 0 = none) ∧ ((S16.facet 0).state = FacetState.running)) ∧
    (((S16.facet 0).quiet = true) ∧ (((List.range 4).all fun k => ((S16.facet 0).stream k).stopped) = true) ∧ (S16.parcelOf 0 = some 0) ∧ ((S16.parcel 0).cut = some cut1) ∧ ((S16.parcel 0).jobOn = true) ∧ (cut1.ranktab.length ≤ 1) ∧ ((S16.putFacet 0 { state := FacetState.done, beats := (S16.facet 0).beats, owner := (S16.facet 0).owner, tokown := (S16.facet 0).tokown, waitlim := (S16.facet 0).waitlim, exc := (S16.facet 0).exc, fpVec := (S16.facet 0).fpVec, fpMat := (S16.facet 0).fpMat, discard := (S16.facet 0).discard, jobSize := (S16.facet 0).jobSize, rank := (S16.facet 0).rank, streams := (S16.facet 0).streams, slack := (S16.facet 0).slack, slackMin := (S16.facet 0).slackMin, hskm := (S16.facet 0).hskm, hskv := (S16.facet 0).hskv, hsks := (S16.facet 0).hsks, hskp := (S16.facet 0).hskp, toks := (S16.facet 0).toks, vregs := (S16.facet 0).vregs, masks := (S16.facet 0).masks, dregs := (S16.facet 0).dregs, peer := (S16.facet 0).peer, acc := (S16.facet 0).acc, accClass := (S16.facet 0).accClass, inflight := (S16.facet 0).inflight, xfers := (S16.facet 0).xfers, signals := (S16.facet 0).signals, stepEnd := (S16.facet 0).stepEnd, arrived := (S16.facet 0).arrived, refused := (S16.facet 0).refused, banks := (S16.facet 0).banks, bankReq := (S16.facet 0).bankReq, bankSet := (S16.facet 0).bankSet, dozeKeep := (S16.facet 0).dozeKeep, bankMove := (S16.facet 0).bankMove, bankUse := (S16.facet 0).bankUse, confl := (S16.facet 0).confl, eccCorr := (S16.facet 0).eccCorr, eccUnc := (S16.facet 0).eccUnc, eccBank := (S16.facet 0).eccBank, eccWord := (S16.facet 0).eccWord, links := (S16.facet 0).links, wheels := (S16.facet 0).wheels, statics := (S16.facet 0).statics, slots := (S16.facet 0).slots, wheelPos := (S16.facet 0).wheelPos, lastIn := (S16.facet 0).lastIn, stall := (S16.facet 0).stall, energyPrev := (S16.facet 0).energyPrev }).allDone 0 = true)) :=
  ⟨by decide +kernel,
    rfl,
    by decide +kernel,
    by decide +kernel⟩
theorem witness_FlitOwnerAndRoute :
    ((47 < 48) ∧ (31 < 32) ∧ (2 < 5) ∧ (Option.map (fun x => x.flit) (arg8.headAt 47 31 2 b18.vc) = some b18) ∧ (48 ≤ b18.dx ∨ 32 ≤ b18.dy ∨ 5 ≤ b18.side)) :=
  by decide +kernel
theorem witness_FlitRows :
    ((0 < nFacets) ∧ (S20.atFacet 0 w20 = true) ∧ (w20.typ = 0) ∧ (Memory.wf S20.mem = true) ∧ ((S20.facet 0).accepts w20.inst w20.gen = true) ∧ ((S20.facet 0).banksOn (w20.addr % 1048576) w20.data.length = true) ∧ (S20.hbm.bad = []) ∧ (w20.addr % 1048576 + w20.data.length ≤ 1048576) ∧ ((S20.facet 0).refused.find (transferKey w20) = none) ∧ (S21.atFacet 0 r21 = true) ∧ (r21.typ = 1) ∧ ((S21.facet 0).accepts r21.inst r21.gen = true)) ∧
    (((readFields r21).2.2 = false) ∧ (r21.addr % 1048576 + (readFields r21).2.1 ≤ 1048576) ∧ ((S21.facet 0).banksOn (r21.addr % 1048576) (readFields r21).2.1 = true) ∧ (S21.rangeBad (spadAddr 0 (r21.addr % 1048576)) (readFields r21).2.1 = false) ∧ (S22.atFacet 0 d22 = true) ∧ (d22.typ = 2) ∧ (Memory.wf S22.mem = true) ∧ ((S22.facet 0).accepts d22.inst d22.gen = true) ∧ ((S22.facet 0).xfer d22.tag = some x22) ∧ (x22.kind = XferKind.get) ∧ ((S22.facet 0).banksOn (d22.addr % 1048576) d22.data.length = true) ∧ (S22.hbm.bad = [])) ∧
    ((d22.addr % 1048576 + d22.data.length ≤ 1048576) ∧ ((put0 t23 S22).atFacet 0 t23 = true) ∧ (t23.typ = 3) ∧ (((put0 t23 S22).facet 0).accepts t23.inst t23.gen = true) ∧ ((put0 a24 S22).atFacet 0 a24 = true) ∧ (a24.typ = 4) ∧ (((put0 a24 S22).facet 0).xfer a24.tag = some x22) ∧ ((put0 a24 S24).atFacet 0 a24 = true) ∧ (((put0 a24 S24).facet 0).xfer a24.tag = some arg9) ∧ ((put0 a25 S25).atFacet 0 a25 = true) ∧ (a25.typ = 4) ∧ (((put0 a25 S25).facet 0).xfer a25.tag = none)) ∧
    ((a25.tag ∈ ((put0 a25 S25).facet 0).signals) ∧ ((put0 n26 S22).atFacet 0 n26 = true) ∧ (n26.typ = 5) ∧ (((put0 n26 S22).facet 0).xfer n26.tag = some x22)) :=
  ⟨by decide +kernel,
    by decide +kernel,
    by decide +kernel,
    by decide +kernel⟩
theorem witness_BanksAndStalls :
    ((0 < nFacets) ∧ (M11.headAt (facetX 0) (facetY 0) 4 3 = some arg10) ∧ ((M11.facet 0).stall = none) ∧ (M11.parcelOf 0 = none) ∧ (S27.headAt (facetX 0) (facetY 0) 4 3 = some arg10) ∧ ((S27.facet 0).stall = some { more := false, port := 1, vc := 1 }) ∧ (S27.parcelOf 0 = some 0) ∧ (S27.parcelState 0 = FacetState.running) ∧ (15 < 16) ∧ ((S28.facet 0).bankMove.find 15 = some BankState.off) ∧ ((S28.facet 0).bankWant 15 = BankState.off) ∧ ((arg11.facet 0).state = FacetState.empty ∨ (arg11.facet 0).state = FacetState.faulted)) ∧
    (((S11.facet 0).state ≠ FacetState.empty) ∧ ((S11.facet 0).state ≠ FacetState.faulted)) :=
  ⟨by decide +kernel,
    by decide +kernel⟩
theorem witness_FacetRegisters :
    ((0 < nFacets) ∧ ((S29.rail (fieldOf 0)).set ≠ 0)) :=
  by decide +kernel

end W02b

/-! ## Witnesses: Cut commands -/

namespace W05

def cutCmd (op : Nat) (flags := 0) (time := 0) : Cmd := cmd op (fields [(1,0),(1,0),(2,flags),(4,0),(8,time)])
def k1 : Cut := cut1
def L : State := let s := job k1 Run.initial id; { s with facets := s.facets.map fun e => (e.1, { e.2 with state := .loaded }) }
def R : State := job k1 run4 id
def P : State := { R with facets := R.facets.map fun e => (e.1, { e.2 with state := .paused }), parcels := R.parcels.map fun e => (e.1, { e.2 with run := { e.2.run with pauses := [(4,1)], pausedAt := some 5, resumeAt := none } }) }
def st7 : Cmd := cmd 0x2007 (fields [(1,0),(1,0),(14,0)])

theorem witness_CutCommands :
    ((L.takes cutStartSpec (cutCmd 8194) = true) ∧ ((L.entered cutStartSpec (cutCmd 8194)).deviceFault = none) ∧ ((L.entered cutStartSpec (cutCmd 8194)).theParcel (cutCmd 8194).pkt.params = some 0) ∧ (((L.entered cutStartSpec (cutCmd 8194)).parcel 0).cut = some k1) ∧ ((L.entered cutStartSpec (cutCmd 8194)).parcelState 0 = FacetState.loaded) ∧ (((L.entered cutStartSpec (cutCmd 8194)).parcel 0).run.started = none) ∧ (((L.entered cutStartSpec (cutCmd 8194)).parcel 0).run.reason = 0) ∧ (k1.timed = false) ∧ (∀ r ∈ k1.ranktab.zipIdx, r.2 ≠ k1.rank → ((L.entered cutStartSpec (cutCmd 8194)).wayTo (L.entered cutStartSpec (cutCmd 8194)).fabric.id r.1).isSome = true) ∧ (R.takes cutPauseSpec (cutCmd 8195) = true) ∧ ((R.entered cutPauseSpec (cutCmd 8195)).theParcel (cutCmd 8195).pkt.params = some 0) ∧ (((R.entered cutPauseSpec (cutCmd 8195)).parcel 0).cut = some k1)) ∧
    (((R.entered cutPauseSpec (cutCmd 8195)).parcelState 0 = FacetState.running) ∧ (P.takes cutPauseSpec (cutCmd 8195) = true) ∧ ((P.entered cutPauseSpec (cutCmd 8195)).theParcel (cutCmd 8195).pkt.params = some 0) ∧ (((P.entered cutPauseSpec (cutCmd 8195)).parcel 0).cut = some k1) ∧ ((P.entered cutPauseSpec (cutCmd 8195)).parcelState 0 = FacetState.paused) ∧ (P.takes cutResumeSpec (cutCmd 8196) = true) ∧ ((P.entered cutResumeSpec (cutCmd 8196)).theParcel (cutCmd 8196).pkt.params = some 0) ∧ (((P.entered cutResumeSpec (cutCmd 8196)).parcel 0).cut = some k1) ∧ ((P.entered cutResumeSpec (cutCmd 8196)).parcelState 0 = FacetState.paused) ∧ (((P.entered cutResumeSpec (cutCmd 8196)).parcel 0).run.pauses.has ((P.entered cutResumeSpec (cutCmd 8196)).parcel 0).run.beat = true) ∧ (P.takes cutStopSpec (cutCmd 8197 1) = true) ∧ ((P.entered cutStopSpec (cutCmd 8197 1)).theParcel (cutCmd 8197 1).pkt.params = some 0)) ∧
    ((((P.entered cutStopSpec (cutCmd 8197 1)).parcel 0).cut = some k1) ∧ ((P.entered cutStopSpec (cutCmd 8197 1)).parcelState 0 = FacetState.running ∨ (P.entered cutStopSpec (cutCmd 8197 1)).parcelState 0 = FacetState.paused) ∧ (bitAt (fieldAt (cutCmd 8197 1).pkt.params 2 2) 0 = true) ∧ (L.takes cutUnloadSpec (cutCmd 8198) = true) ∧ ((L.entered cutUnloadSpec (cutCmd 8198)).theParcel (cutCmd 8198).pkt.params = some 0) ∧ ((L.entered cutUnloadSpec (cutCmd 8198)).parcelState 0 = FacetState.loaded ∨ (L.entered cutUnloadSpec (cutCmd 8198)).parcelState 0 = FacetState.done ∨ (L.entered cutUnloadSpec (cutCmd 8198)).parcelState 0 = FacetState.faulted) ∧ (L.takes cutStatusSpec st7 = true) ∧ ((L.entered cutStatusSpec st7).theParcel st7.pkt.params = some 0)) :=
  ⟨by decide +kernel,
    by decide +kernel,
    by decide +kernel⟩

theorem witness_CutCommands_later : P.takes cutStopSpec (cutCmd 8197) = true ∧ bitAt (fieldAt (cutCmd 8197).pkt.params 2 2) 0 = false := by decide +kernel

end W05

/-! ## Witnesses: Beats and CTRL frames -/

namespace W05b

def arr (x : Facet) : Facet := { x with arrived := some 9 }
def A := job cut1 run4 arr
def tc : Cut := { cut1 with timed := true, slipMax := 1, guardNs := 100 }
def tA := job tc run4 arr
def rc : Cut := { cut1 with ring := 0x10000, ringLen := 0x10000 }
def E1 : State := { job rc { run4 with endDue := true, reason := 3 } id with rings := [{ inst := 0, addr := 0x10000, len := 0x10000, prod := 0, seq := 0, users := [0] }] }
def E1o := E1.putOutput 0 rc 0 0xFFFF 3 []
def E1u : State := match E1o with | .ok u _ => u | _ => E1
def E2 : State := { job rc run4 (fun x => { x with arrived := some 9, stepEnd := true }) with rings := E1.rings }
def B := job { cut1 with beatLimit := 1 } { run4 with arrivedAt := some 6 } arr
def W (r : Run → Run) := job tc (r run4) arr
def W2 := W fun r => { r with slip := true, holds := 1 }
def W3 := W fun r => { r with arrivedAt := some 4 }
def W4 := W fun r => { r with released := false, resumeAt := some 8 }
def W5 := W fun r => { r with resumeAt := some 8, pausedAt := some 3 }
def W6 := W fun r => { r with released := false }
def ctrl (code srank arg arg2 arg3 : Nat) : ZFrame := zframe 8 (fields [(1,code),(1,0),(2,srank),(4,0),(8,arg),(8,arg2),(8,arg3)] ++ zeros 32)
def net (c : Cut) (r : Run) (g : Facet → Facet := id) : State :=
  let s := job c r g
  { s with fabric := { s.fabric with id := 3, bindings := [{ inst := 0, job := 5, parcel := 0, rank := c.rank, gen := 0, ranktab := c.ranktab }], lock := 1,
                                     routes := [(7, BitVec.ofNat 64 (2^63))] }
           eth := { s.eth with links := [(0, { EthLink.initial with state := .up })], ports := [(0, { EthPort.initial with enable := true })] } }
def two : Cut := { cut1 with jobSize := 2, ranktab := [3, 7] }
def twoB : Cut := { cut1 with jobSize := 2, ranktab := [7, 3], rank := 1 }
def bd (c : Cut) : Binding := { inst := 0, job := 5, parcel := 0, rank := c.rank, gen := 0, ranktab := c.ranktab }
def N := net two run4
def s0 (s : State) (z : ZFrame) : State := took s 0 z
def s1 (s : State) (z : ZFrame) : State := (s0 s z).charge z.inst 3 z.wire
def z1 := ctrl 1 1 4 0 0
def N2 := net twoB { run4 with arrivedAt := some 4 }
def z2 := ctrl 2 0 4 0 0
def z3 := ctrl 3 1 4 0 0
def twoT : Cut := { two with timed := true }
def N3 := net twoT run4
def z3b := ctrl 3 1 3 0 0
def z3c := ctrl 3 1 5 0 0
def z4 := ctrl 4 1 4 0x10005 0
def z5 := ctrl 5 1 9 3 0
def z6 := ctrl 6 1 4 2000000 0
def N6 := net two { run4 with pausedAt := some 9, pauses := [(4,1)] } (fun x => { x with state := .paused })
def z7 := ctrl 7 1 4 0 0
def z8 := ctrl 8 1 4 6 0
def N8 := net two Run.initial (fun x => { x with state := .loaded })
def z9 := ctrl 9 0 4 6 7
def N9 := net twoB { Run.initial with started := some 1 } (fun x => { x with state := .loaded })
def conf : CkpConf := { kind := 0, periodMs := 0, every := 0, nsid := 1, peer := 0, qp := 0, base := 0, slotBytes := 0x10000000, save := 0, saveLen := 0, regions := [] }
def ck (s : State) : State := s.modCkp 0 fun k => { k with conf := some conf }
def NA := ck N
def zA := ctrl 0xA 1 4 6 7
def zB := ctrl 0xB 1 0 6 7
def zC := ctrl 0xC 1 4 6 7
def ND := net twoB { run4 with arrivedAt := some 4, closingAt := some 6 }
def zD := ctrl 0xD 0 4 6 7
def zE := ctrl 0xE 1 4 6 7
def zF := ctrl 0xF 1 4 6 7
def z10 := ctrl 0x10 1 4 6 7
def z11 := ctrl 0x11 1 4 6 7
def z12 := ctrl 0x12 1 4 6 7
def arg1 : Cut := { cut1 with beatLimit := 1 }
def arg2 : State := W fun r => { r with slip := true, slipCap := true }
def arg3 : State := W fun r => { r with slip := true }

theorem witness_FacetBeatClosure :
    (((facet1 3).arrived = none) ∧ (false = false)) :=
  by decide +kernel
theorem witness_BeatRows :
    (((A.parcel 0).cut = some cut1) ∧ ((A.parcel 0).jobOn = true) ∧ ((A.parcel 0).run.released = true) ∧ (A.allDone 0 = false) ∧ ((A.parcel 0).run.arrivedAt = none) ∧ ((A.parcel 0).run.closingAt = none) ∧ (A.parcelArrived 0 = true) ∧ (A.stepEndOf 0 = false) ∧ ((A.parcel 0).pacing = false) ∧ ((tA.parcel 0).cut = some tc) ∧ ((tA.parcel 0).jobOn = true) ∧ ((tA.parcel 0).run.released = true)) ∧
    ((tA.allDone 0 = false) ∧ ((tA.parcel 0).run.arrivedAt = none) ∧ ((tA.parcel 0).run.closingAt = none) ∧ (tA.parcelArrived 0 = true) ∧ (tA.stepEndOf 0 = false) ∧ ((tA.parcel 0).pacing = false) ∧ ((E1.parcel 0).cut = some rc) ∧ ((E1.parcel 0).run.endDue = true) ∧ (E1.putOutput 0 rc (E1.parcel 0).run.step 65535 (E1.parcel 0).run.reason [] = RingPut.ok E1u 64) ∧ ((E2.parcel 0).cut = some rc) ∧ ((E2.parcel 0).run.endDue = false) ∧ ((E2.parcel 0).jobOn = true)) ∧
    (((E2.parcel 0).run.released = true) ∧ (E2.parcelArrived 0 = true) ∧ (E2.stepEndOf 0 = true) ∧ ((E2.parcel 0).run.arrivedAt = none) ∧ ((B.parcel 0).cut = some arg1) ∧ ((B.parcel 0).run.arrivedAt = some 6) ∧ ((B.parcel 0).jobOn = true) ∧ (arg1.timed = false) ∧ ((B.parcel 0).run.pausedAt = none) ∧ ((B.parcel 0).run.closingAt = none) ∧ (tc.timed = true) ∧ ((tA.parcel 0).inWindow = true)) ∧
    (((arg2.parcel 0).cut = some tc) ∧ ((arg2.parcel 0).inWindow = true) ∧ ((arg2.parcel 0).run.slip = true) ∧ ((arg2.parcel 0).run.slipCap = true) ∧ ((arg3.parcel 0).cut = some tc) ∧ ((arg3.parcel 0).inWindow = true) ∧ ((arg3.parcel 0).run.slip = true) ∧ ((arg3.parcel 0).run.slipCap = false) ∧ ((arg3.parcel 0).run.holds < tc.slipMax) ∧ ((W2.parcel 0).cut = some tc) ∧ ((W2.parcel 0).inWindow = true) ∧ ((W2.parcel 0).run.slip = true)) ∧
    (((W2.parcel 0).run.slipCap = false) ∧ (tc.slipMax ≤ (W2.parcel 0).run.holds) ∧ ((W3.parcel 0).cut = some tc) ∧ ((W3.parcel 0).inWindow = true) ∧ ((W3.parcel 0).run.slip = false) ∧ ((W3.parcel 0).run.arrivedAt.isSome = true) ∧ ((W3.parcel 0).run.closingAt = none) ∧ ((W3.parcel 0).ckp.announced = []) ∧ ((W3.parcel 0).run.pauses = []) ∧ ((W4.parcel 0).cut = some tc) ∧ ((W4.parcel 0).jobOn = true) ∧ ((W4.parcel 0).run.released = false)) ∧
    (((W4.parcel 0).run.resumeAt = some 8) ∧ ((W5.parcel 0).cut = some tc) ∧ ((W5.parcel 0).jobOn = true) ∧ ((W5.parcel 0).run.released = true) ∧ ((W5.parcel 0).run.pausedAt.isSome = true) ∧ ((W5.parcel 0).run.resumeAt = some 8) ∧ ((W6.parcel 0).cut = some tc) ∧ (tc.rank = 0) ∧ ((W6.parcel 0).jobOn = true) ∧ ((W6.parcel 0).run.released = false) ∧ ((W6.parcel 0).run.resumeAt = none) ∧ ((W6.parcel 0).run.started = some 5)) :=
  ⟨by decide +kernel,
    by decide +kernel,
    by decide +kernel,
    by decide +kernel,
    by decide +kernel,
    by decide +kernel⟩
theorem witness_CtrlFrames (hf : Config.freeValue 0 % 2 = 0) :
    (CtrlFrame N 0 z1 1 (s1 N z1) 0 two) ∧
    ((((s1 N z1).parcel 0).jobOn = true) ∧ (two.timed = false) ∧ ((ctrlMsg z1.payload).arg = ((s1 N z1).parcel 0).run.beat) ∧ ((ctrlMsg z1.payload).srank ∈ two.children) ∧ ((ctrlMsg z1.payload).srank ∉ ((s1 N z1).parcel 0).run.arrivals)) ∧
    (CtrlFrame N2 0 z2 2 (s1 N2 z2) 0 twoB) ∧
    ((((s1 N2 z2).parcel 0).jobOn = true) ∧ (twoB.timed = false) ∧ (twoB.rank ≠ 0) ∧ ((ctrlMsg z2.payload).arg = ((s1 N2 z2).parcel 0).run.beat) ∧ ((ctrlMsg z2.payload).srank = twoB.parent) ∧ (((s1 N2 z2).parcel 0).run.arrivedAt.isSome = true) ∧ (((s1 N2 z2).parcel 0).run.closingAt = none) ∧ (((s1 N2 z2).parcel 0).ckp.announced = [])) ∧
    (CtrlFrame N3 0 z3 3 (s1 N3 z3) 0 twoT) ∧
    ((((s1 N3 z3).parcel 0).jobOn = true) ∧ (twoT.timed = true)) ∧
    (CtrlFrame N3 0 z3b 3 (s1 N3 z3b) 0 twoT) ∧
    (((s1 N3 z3b).parcel 0).jobOn = true) ∧
    (CtrlFrame N3 0 z3c 3 (s1 N3 z3c) 0 twoT) ∧
    (((s1 N3 z3c).parcel 0).jobOn = true) ∧
    (CtrlFrame N 0 z4 4 (s1 N z4) 0 two) ∧
    (CtrlFrame N 0 z5 5 (s1 N z5) 0 two) ∧
    (((s1 N z5).parcel 0).jobOn = true) ∧
    (CtrlFrame N6 0 z6 6 (s1 N6 z6) 0 two) ∧
    (((s1 N6 z6).parcel 0).jobOn = true) ∧
    (CtrlFrame N 0 z7 7 (s1 N z7) 0 two) ∧
    (((s1 N z7).parcel 0).jobOn = true) ∧
    (CtrlFrame N8 0 z8 8 (s1 N8 z8) 0 two) ∧
    (((ctrlMsg z8.payload).srank ∈ two.children) ∧ (((s1 N8 z8).parcel 0).run.reason = 0)) ∧
    (CtrlFrame N9 0 z9 9 (s1 N9 z9) 0 twoB) ∧
    ((((s1 N9 z9).parcel 0).jobOn = true) ∧ ((ctrlMsg z9.payload).srank = twoB.parent) ∧ (((s1 N9 z9).parcel 0).run.resumeAt = none)) ∧
    (CtrlFrame NA 0 zA 10 (s1 NA zA) 0 two) ∧
    ((((s1 NA zA).parcel 0).jobOn = true) ∧ (two.rank = 0) ∧ (((s1 NA zA).parcel 0).ckp.conf.isSome = true)) ∧
    (CtrlFrame NA 0 zB 11 (s1 NA zB) 0 two) ∧
    ((((s1 NA zB).parcel 0).jobOn = true) ∧ (((s1 NA zB).parcel 0).ckp.conf.isSome = true) ∧ (((s1 NA zB).parcel 0).run.step ≤ (ctrlMsg zB.payload).arg) ∧ ((ctrlMsg zB.payload).arg ∉ ((s1 NA zB).parcel 0).ckp.announced) ∧ (((s1 NA zB).parcel 0).ckp.nowWait = none)) ∧
    (CtrlFrame NA 0 zC 12 (s1 NA zC) 0 two) ∧
    ((((s1 NA zC).parcel 0).jobOn = true) ∧ ((ctrlMsg zC.payload).arg = ((s1 NA zC).parcel 0).run.beat) ∧ ((ctrlMsg zC.payload).srank ∈ two.children) ∧ ((ctrlMsg zC.payload).srank ∉ ((s1 NA zC).parcel 0).ckp.armed)) ∧
    (CtrlFrame ND 0 zD 13 (s1 ND zD) 0 twoB) ∧
    ((((s1 ND zD).parcel 0).jobOn = true) ∧ ((ctrlMsg zD.payload).arg = ((s1 ND zD).parcel 0).run.beat) ∧ ((ctrlMsg zD.payload).srank = twoB.parent) ∧ (((s1 ND zD).parcel 0).run.closingAt.isSome = true)) ∧
    (CtrlFrame NA 0 zE 14 (s1 NA zE) 0 two) ∧
    (CtrlFrame NA 0 zF 15 (s1 NA zF) 0 two) ∧
    (CtrlFrame NA 0 z10 16 (s1 NA z10) 0 two) ∧
    (CtrlFrame NA 0 z11 17 (s1 NA z11) 0 two) ∧
    (((s1 NA z11).parcel 0).jobOn = true) ∧
    (CtrlFrame NA 0 z12 18 (s1 NA z12) 0 two) ∧
    (((s1 NA z12).parcel 0).jobOn = true) :=
  ⟨ctrl_of (b := bd two) hf (by decide +kernel) (by decide +kernel),
    by decide +kernel,
    ctrl_of (b := bd twoB) hf (by decide +kernel) (by decide +kernel),
    by decide +kernel,
    ctrl_of (b := bd twoT) hf (by decide +kernel) (by decide +kernel),
    by decide +kernel,
    ctrl_of (b := bd twoT) hf (by decide +kernel) (by decide +kernel),
    by decide +kernel,
    ctrl_of (b := bd twoT) hf (by decide +kernel) (by decide +kernel),
    by decide +kernel,
    ctrl_of (b := bd two) hf (by decide +kernel) (by decide +kernel),
    ctrl_of (b := bd two) hf (by decide +kernel) (by decide +kernel),
    by decide +kernel,
    ctrl_of (b := bd two) hf (by decide +kernel) (by decide +kernel),
    by decide +kernel,
    ctrl_of (b := bd two) hf (by decide +kernel) (by decide +kernel),
    by decide +kernel,
    ctrl_of (b := bd two) hf (by decide +kernel) (by decide +kernel),
    by decide +kernel,
    ctrl_of (b := bd twoB) hf (by decide +kernel) (by decide +kernel),
    by decide +kernel,
    ctrl_of (b := bd two) hf (by decide +kernel) (by decide +kernel),
    by decide +kernel,
    ctrl_of (b := bd two) hf (by decide +kernel) (by decide +kernel),
    by decide +kernel,
    ctrl_of (b := bd two) hf (by decide +kernel) (by decide +kernel),
    by decide +kernel,
    ctrl_of (b := bd twoB) hf (by decide +kernel) (by decide +kernel),
    by decide +kernel,
    ctrl_of (b := bd two) hf (by decide +kernel) (by decide +kernel),
    ctrl_of (b := bd two) hf (by decide +kernel) (by decide +kernel),
    ctrl_of (b := bd two) hf (by decide +kernel) (by decide +kernel),
    ctrl_of (b := bd two) hf (by decide +kernel) (by decide +kernel),
    by decide +kernel,
    ctrl_of (b := bd two) hf (by decide +kernel) (by decide +kernel),
    by decide +kernel⟩

end W05b

/-! ## Witnesses: Stacks and gather engines -/

namespace W06

def wr : HbmWrite := { addr := hbmSize - 4, data := [1,2,3,4], inst := 0, gen := 0 }
def stk (k : Nat) (g : Stack → Stack) (s : State := live) : State := { s with hbm := { s.hbm with stks := [(k, g { Stack.initial with state := .ready })] } }
def S1 := stk 31 fun x => { x with writes := [wr] }
def wr2 : HbmWrite := { wr with gen := 1 }
def S2 := stk 31 fun x => { x with writes := [wr2] }
def rf : Flit := { flit0 with typ := 1, payload := leBytes 4 0 ++ leBytes 4 1, addr := 0x40 }
def rd : HbmRead := { flit := rf, addr := 0x40, units := 1, done := 0, second := false, data := [9] }
def S3 (r : HbmRead) := stk 0 fun x => { x with reads := [r], written := [0] }
def S5 := stk 0 fun x => { x with written := [0] }
def gf (typ addr : Nat) (ps : List Byte) (gen : Nat := 0) : Flit := { flit0 with typ, addr, payload := ps, gen := BitVec.ofNat 16 gen, units := (ps.length - 1) / 16 }
def put (k : Nat) (fl : Flit) (s : State := live) : State := { s with mesh := { s.mesh with transit := [⟨fl, .die k, 5⟩] } }
def g0 := gf 1 0 (leBytes 4 0 ++ leBytes 4 1) 1
def g1 := gf 0 (sramBase) [7,8]
def P1 (fl : Flit) : State := (put 0 fl).modGatherDie 0 fun d => { d with ways := 0 }
def g2 := gf 0 0x1000 [7,8]
def k2 := dieOfStack (live.stackOf 0x1000)
def G2 := put k2 g2 (stk (live.stackOf 0x1000) id)
def g3 := gf 1 0x1000 (leBytes 4 0 ++ leBytes 4 1)
def g4 := gf 1 sramBase (leBytes 4 0 ++ leBytes 4 1)
def zoneC : Cmd := cmd 0x3001 (fields [(1,31),(1,1),(6,0)])
def tabSet : Cmd := cmd 0x3002 (fields [(1,0),(1,15),(1,3),(1,1),(2,16),(2,1),(8,0x1000),(4,64),(4,64),(4,0),(4,0)])
def tab : GatherTable := parseTable tabSet.pkt.params
def dsc : Descriptor := parseDesc (fields [(1,0),(1,1),(1,15),(1,0),(4,1),(8,0x2000),(8,0),(8,0),(4,0),(4,0x100),(4,0x80),(2,1),(1,0),(1,1),(16,0)])
def job1 : GatherJob := { facet := 0, inst := 0, gen := 0, rank := 0, tag := 5, desc := dsc, tab := tab, indices := [3], offsets := [], weights := [], rows := [], chunks := 0, asked := none }
def T (js : List GatherJob) : State := { live with facets := [(1, { Facet.initial with jobSize := 1 })], gather := { live.gather with tables := [(3, tab), (15, tab)], dies := [(0, { GatherDie.initial with jobs := js, cache := [⟨0,15,3,15,0,0,0,[],List.replicate 16 7⟩] })] } }
def tabClr : Cmd := cmd 0x3003 (fields [(1,0),(1,15),(6,0)])
def tabGet : Cmd := cmd 0x3004 (fields [(1,0),(1,15),(6,0)])
def drop : Cmd := cmd 0x3005 (fields [(1,0),(1,15),(6,0)])
def drop2 : Cmd := cmd 0x3005 (fields [(1,0),(1,0xFF),(6,0)])
def dfl : Flit := { (gf 6 0 (fields [(1,0),(1,1),(1,15),(1,0),(4,1),(8,0x2000),(8,0),(8,0),(4,0),(4,0x100),(4,0x80),(2,1),(1,0),(1,1),(16,0)])) with tag := 5, units := 3 }
def GT : State := put 0 dfl (T [])
def dfb : Flit := { dfl with payload := dfl.payload.set 0 4 }
def NC : State := let s := T [job1]; s.modGatherDie 0 fun d => { d with cache := [] }
def NCr : List (Nat × Nat) := match NC.rangesOf 0 (job1.addrOf 3) tab.rowLen false with | .ok l => l | .error _ => []
def NCw : State := NC.markWritten (NCr.headD (0, 0)).1 1
def tab2 : GatherTable := { tab with shards := 2, qp := 7 }
def job2 : GatherJob := { job1 with tab := tab2, indices := [70], asked := some (70, 9) }
def P2 (ok : Bool) : State := { T [job2] with rma := { (T []).rma with engDone := [(9, ⟨ok, List.replicate 64 1⟩)] } }
def job3 : GatherJob := { job1 with rows := [(3, List.replicate 16 5)] }
def W (js : List GatherJob) : State := { T js with gather := { (T js).gather with waits := [⟨⟨2,0,0⟩, 5, 0, 15, none⟩] } }
def R : State := ({ live with power := { live.power with rails := [(6, {Rail.initial with set := 750})] } }).modMemDie 3 fun d => { d with corr := 5, uelog := [(2, ⟨true, 1, 64⟩)], discard := 4 }
def arg1 : State := S3 {rd with units := 2}
def arg2 : HbmRead := {rd with units := 2}
def arg3 : State := S3 {rd with second := true}
def arg4 : HbmRead := {rd with second := true}
def arg5 : State := S5.modMemDie 0 fun d => { d with rereads := [0] }
def arg6 : State := {S1 with faults := { S1.faults with timeouts := [(31, 15)] }}
def arg7 : State := put k2 g3 (stk (live.stackOf 0x1000) id)
def arg8 : GatherJob := match (GT.taken (.die 0) dfl).gatherCheck (facetAt 1 0) dfl with | .ok j => j | _ => job1
def arg9 : State := put 0 dfb (T [])
def arg10 : CachedRow := ⟨0,15,3,15,0,0,0,[],List.replicate 16 7⟩
def arg11 : ℕ × ℕ := NCr.headD (0, 0)
def arg12 : List Byte := List.replicate 64 1
def arg13 : TableWait := ⟨⟨2,0,0⟩, 5, 0, 15, none⟩

theorem witness_StackRows :
    ((31 < 32) ∧ ((S2.stack 31).writes = [wr2]) ∧ (S2.genOf wr2.inst ≠ wr2.gen) ∧ (0 < 32) ∧ (((S3 rd).stack 0).reads = [rd]) ∧ ((S3 rd).mibWritten (rd.addr + 32 * rd.done) = true) ∧ (rd.addr + 32 * rd.done ∉ (S3 rd).hbm.bad) ∧ ((S3 rd).faults.inject = []) ∧ (rd.units ≤ rd.done + 1) ∧ ((arg1.stack 0).reads = [arg2]) ∧ (arg1.mibWritten (arg2.addr + 32 * arg2.done) = true) ∧ (arg2.addr + 32 * arg2.done ∉ arg1.hbm.bad)) ∧
    ((arg1.faults.inject = []) ∧ (arg2.done + 1 < arg2.units) ∧ (rd.second = false) ∧ ((arg3.stack 0).reads = [arg4]) ∧ (arg3.mibWritten (arg4.addr + 32 * arg4.done) = true) ∧ (arg4.addr + 32 * arg4.done ∉ arg3.hbm.bad) ∧ (arg3.faults.inject = []) ∧ (arg4.second = true) ∧ (unit32 31 < hbmSize) ∧ (S5.stackOf (unit32 31) = 0) ∧ ((S5.memDie (dieOfStack 0)).scrub ≠ 0) ∧ ((S5.stack 0).state = StackState.ready)) ∧
    ((S5.mibWritten (unit32 31) = true) ∧ (unit32 31 ∉ S5.hbm.bad) ∧ (unit32 31 ∉ (S5.memDie (dieOfStack 0)).rereads) ∧ (arg5.stackOf (unit32 31) = 0) ∧ ((arg5.memDie (dieOfStack 0)).scrub ≠ 0) ∧ ((arg5.stack 0).state = StackState.ready) ∧ (arg5.mibWritten (unit32 31) = true) ∧ (unit32 31 ∉ arg5.hbm.bad) ∧ (unit32 31 ∈ (arg5.memDie (dieOfStack 0)).rereads) ∧ ((S1.stack 31).state ≠ StackState.failed) ∧ ((S1.stack 31).reads = []) ∧ ((S1.stack 31).writes = [wr])) ∧
    ((S1.faults.timeouts.getD 31 0 < 15) ∧ ((arg6.stack 31).state ≠ StackState.failed) ∧ ((arg6.stack 31).reads = []) ∧ ((arg6.stack 31).writes = [wr]) ∧ (15 ≤ arg6.faults.timeouts.getD 31 0)) :=
  ⟨by decide +kernel,
    by decide +kernel,
    by decide +kernel,
    by decide +kernel⟩
theorem witness_GirdleFlits :
    ((7 < 8) ∧ ((put 7 g0).dieFailed 7 = false) ∧ ((put 7 g0).atDie 7 g0 = true) ∧ (g0.typ ≠ 6) ∧ ((put 7 g0).genOf g0.inst ≠ g0.gen) ∧ (0 < 8) ∧ ((P1 g1).dieFailed 0 = false) ∧ ((P1 g1).atDie 0 g1 = true) ∧ (Memory.wf (P1 g1).mem = true) ∧ (g1.typ = 0) ∧ ((P1 g1).genOf g1.inst = g1.gen) ∧ (g1.tokc = 0)) ∧
    ((g1.tokn = 0) ∧ ((P1 g1).heldBehind g1 = none) ∧ (regionOf g1.addr = Region.sram 0 0) ∧ ((P1 g1).cacheMeets 0 0 g1.data.length = false) ∧ (0 + g1.data.length ≤ 33554432) ∧ ((P1 g1).hbm.bad = []) ∧ (((P1 g1).memDie 0).refused.find (transferKey g1) = none) ∧ (k2 < 8) ∧ (G2.dieFailed k2 = false) ∧ (G2.atDie k2 g2 = true) ∧ (g2.typ = 0) ∧ (G2.genOf g2.inst = g2.gen)) ∧
    ((g2.tokc = 0) ∧ (g2.tokn = 0) ∧ (G2.heldBehind g2 = none) ∧ (regionOf g2.addr = Region.hbm) ∧ (dieOfStack (G2.stackOf g2.addr) = k2) ∧ ((G2.stack (G2.stackOf g2.addr)).state ≠ StackState.failed) ∧ (G2.hbm.bad = []) ∧ (G2.stackOf (g2.addr + g2.data.length - 1) = G2.stackOf g2.addr) ∧ ((G2.memDie k2).refused.find (transferKey g2) = none) ∧ (arg7.dieFailed k2 = false) ∧ (arg7.atDie k2 g3 = true) ∧ (g3.typ = 1)) ∧
    ((arg7.genOf g3.inst = g3.gen) ∧ (g3.tokc = 0) ∧ (g3.tokn = 0) ∧ ((readFields g3).2.2 = false) ∧ (regionOf g3.addr = Region.hbm) ∧ (dieOfStack (arg7.stackOf g3.addr) = k2) ∧ (g3.addr + (readFields g3).2.1 ≤ hbmSize) ∧ ((arg7.stack (arg7.stackOf g3.addr)).state ≠ StackState.failed) ∧ ((P1 g4).dieFailed 0 = false) ∧ ((P1 g4).atDie 0 g4 = true) ∧ (g4.typ = 1) ∧ ((P1 g4).genOf g4.inst = g4.gen)) ∧
    ((g4.tokc = 0) ∧ (g4.tokn = 0) ∧ ((readFields g4).2.2 = false) ∧ (regionOf g4.addr = Region.sram 0 0) ∧ ((P1 g4).cacheMeets 0 0 (readFields g4).2.1 = false) ∧ (0 + (readFields g4).2.1 ≤ 33554432) ∧ ((P1 g4).rangeBad g4.addr (readFields g4).2.1 = false)) :=
  ⟨by decide +kernel,
    by decide +kernel,
    by decide +kernel,
    by decide +kernel,
    by decide +kernel⟩
theorem witness_MemoryCommands :
    ((live.takes memZoneSetSpec zoneC = true) ∧ ((live.entered memZoneSetSpec zoneC).mappedBy (fieldAt zoneC.pkt.params 0 1 * 51539607552) 51539607552 = false) ∧ ((live.entered memZoneSetSpec zoneC).holdsMap (fieldAt zoneC.pkt.params 0 1 * 51539607552) 51539607552 = false) ∧ ((live.entered memZoneSetSpec zoneC).nsUses (fieldAt zoneC.pkt.params 0 1 * 51539607552) 51539607552 = false) ∧ (live.takes gthTableSetSpec tabSet = true) ∧ (pitchOk (parseTable tabSet.pkt.params).pitch = true) ∧ ((parseTable tabSet.pkt.params).rowLen ≤ (parseTable tabSet.pkt.params).pitch) ∧ (∀ x ∈ (live.entered gthTableSetSpec tabSet).gather.waits, ¬(x.inst = fieldAt tabSet.pkt.params 0 1 ∧ x.tab = fieldAt tabSet.pkt.params 1 1)) ∧ ((live.entered gthTableSetSpec tabSet).tableBusy (fieldAt tabSet.pkt.params 0 1) (fieldAt tabSet.pkt.params 1 1) = false) ∧ ((T [job1]).takes gthTableSetSpec tabSet = true) ∧ (∀ x ∈ ((T [job1]).entered gthTableSetSpec tabSet).gather.waits, ¬(x.inst = fieldAt tabSet.pkt.params 0 1 ∧ x.tab = fieldAt tabSet.pkt.params 1 1)) ∧ (((T [job1]).entered gthTableSetSpec tabSet).tableBusy (fieldAt tabSet.pkt.params 0 1) (fieldAt tabSet.pkt.params 1 1) = true)) ∧
    (((T []).takes gthTableClearSpec tabClr = true) ∧ (((T []).entered gthTableClearSpec tabClr).gather.tables.has (16 * fieldAt tabClr.pkt.params 0 1 + fieldAt tabClr.pkt.params 1 1) = true) ∧ (∀ x ∈ ((T []).entered gthTableClearSpec tabClr).gather.waits, ¬(x.inst = fieldAt tabClr.pkt.params 0 1 ∧ x.tab = fieldAt tabClr.pkt.params 1 1)) ∧ (((T []).entered gthTableClearSpec tabClr).tableBusy (fieldAt tabClr.pkt.params 0 1) (fieldAt tabClr.pkt.params 1 1) = false) ∧ ((T []).takes gthTableGetSpec tabGet = true) ∧ (((T []).entered gthTableGetSpec tabGet).gather.tables.find (16 * fieldAt tabGet.pkt.params 0 1 + fieldAt tabGet.pkt.params 1 1) = some tab) ∧ ((T []).takes gthCacheDropSpec drop = true) ∧ (fieldAt drop.pkt.params 1 1 = 255 ∨ ((T []).entered gthCacheDropSpec drop).gather.tables.has (16 * fieldAt drop.pkt.params 0 1 + fieldAt drop.pkt.params 1 1) = true) ∧ ((T []).takes gthCacheDropSpec drop2 = true) ∧ (fieldAt drop2.pkt.params 1 1 = 255 ∨ ((T []).entered gthCacheDropSpec drop2).gather.tables.has (16 * fieldAt drop2.pkt.params 0 1 + fieldAt drop2.pkt.params 1 1) = true)) :=
  ⟨by decide +kernel,
    by decide +kernel⟩
theorem witness_GatherRows :
    ((0 < 8) ∧ (dfl.typ = 6) ∧ (GT.atDie 0 dfl = true) ∧ (dfl.last = true) ∧ ((GT.gatherDie 0).jobs.length < 256) ∧ (GT.gather.waits = []) ∧ (GT.dieFailed 0 = false) ∧ (GT.genOf dfl.inst = dfl.gen) ∧ ((GT.memDie 0).refused.find (transferKey dfl) = none) ∧ ((GT.taken (Place.die 0) dfl).gatherCheck (facetAt dfl.sx dfl.sy) dfl = Except.ok arg8) ∧ (arg8.tab.shards = 1) ∧ (dfb.typ = 6)) ∧
    ((arg9.atDie 0 dfb = true) ∧ (dfb.last = true) ∧ ((arg9.gatherDie 0).jobs.length < 256) ∧ (arg9.gather.waits = []) ∧ (arg9.dieFailed 0 = false) ∧ (arg9.genOf dfb.inst = dfb.gen) ∧ ((arg9.memDie 0).refused.find (transferKey dfb) = none) ∧ ((arg9.taken (Place.die 0) dfb).gatherCheck (facetAt dfb.sx dfb.sy) dfb = Except.error (16, 0, 0)) ∧ (((T [job1]).gatherDie 0).jobs = [job1]) ∧ ((T [job1]).genOf job1.inst = job1.gen) ∧ ((T [job1]).weightsOf job1 = Except.ok []) ∧ (List.find? (fun q => !job1.rows.has q) job1.distinct = some 3)) ∧
    ((job1.asked = none) ∧ (((T [job1]).gatherDie 0).cached job1.inst job1.desc.table 3 = some arg10) ∧ ((NC.gatherDie 0).jobs = [job1]) ∧ (NC.genOf job1.inst = job1.gen) ∧ (NC.weightsOf job1 = Except.ok []) ∧ ((NC.gatherDie 0).cached job1.inst job1.desc.table 3 = none) ∧ (job1.own 3 = true) ∧ (NC.gatherRead job1.inst (job1.addrOf 3) job1.tab.rowLen = Except.ok (zeros 64)) ∧ (ReadOutcome.corrected ≠ ReadOutcome.uncorrected) ∧ ((NCw.gatherDie 0).jobs = [job1]) ∧ (NCw.genOf job1.inst = job1.gen) ∧ (NCw.weightsOf job1 = Except.ok [])) ∧
    (((NCw.gatherDie 0).cached job1.inst job1.desc.table 3 = none) ∧ (NCw.rangesOf job1.inst (job1.addrOf 3) job1.tab.rowLen false = Except.ok (arg11 :: List.drop 1 NCr)) ∧ (arg11.1 < hbmSize) ∧ (NCw.mibWritten arg11.1 = true) ∧ (((P2 true).gatherDie 0).jobs = [job2]) ∧ ((P2 true).genOf job2.inst = job2.gen) ∧ ((P2 true).weightsOf job2 = Except.ok []) ∧ (List.find? (fun q => !job2.rows.has q) job2.distinct = some 70)) ∧
    (job2.asked = some (70, 9)) ∧
    ((((P2 true).gatherDie 0).cached job2.inst job2.desc.table 70 = none) ∧ (job2.own 70 = false) ∧ (∀ q ∈ job2.distinct, q = 70 ∨ job2.rows.has q = true ∨ job2.own q = true) ∧ ((P2 true).rma.engDone.find 9 = some { ok := true, data := arg12 }) ∧ (((P2 false).gatherDie 0).jobs = [job2]) ∧ ((P2 false).genOf job2.inst = job2.gen) ∧ ((P2 false).weightsOf job2 = Except.ok []) ∧ (((P2 false).gatherDie 0).cached job2.inst job2.desc.table 70 = none) ∧ ((P2 false).rma.engDone.find 9 = some { ok := false, data := arg12 }) ∧ (((T [job3]).gatherDie 0).jobs = [job3]) ∧ ((T [job3]).genOf job3.inst = job3.gen) ∧ (∀ r ∈ job3.distinct, job3.rows.has r = true)) ∧
    ((List.find? (fun x => decide (x.inst = 0) && decide (x.tab = 15)) (W []).gather.waits = some arg13) ∧ ((W []).tableBusy 0 15 = false) ∧ (List.find? (fun x => decide (x.inst = 0) && decide (x.tab = 15)) (W [job1]).gather.waits = some arg13) ∧ ((W [job1]).tableBusy 0 15 = true)) :=
  ⟨by decide +kernel,
    by decide +kernel,
    by decide +kernel,
    by decide +kernel,
    rfl,
    by decide +kernel,
    by decide +kernel⟩
theorem witness_MemoryRegisters :
    ((3 < 8) ∧ (R.girdleOn = true) ∧ (bitsOf (16) 4 0 ≤ 16) ∧ (63 < 64) ∧ (∀ e ∈ (R.gatherDie 3).masks, e.1 ≠ 63 → e.2 &&& BitVec.ofNat 16 (32769) = 0) ∧ (∀ w < 16 - (R.gatherDie 3).ways, BitVec.getLsbD (32769 : BitVec 64) w = false) ∧ (2 < 16) ∧ ((R.memDie 3).uelog.find 2 = some { valid := true, cls := 1, addr := 64 })) :=
  by decide +kernel

theorem witness_StackRows_outcomes :
    (Config.freeValue 0 % 4 = 0 → S1.writeOutcome.1 = .ok) ∧ (Config.freeValue 0 % 4 = 1 → S1.writeOutcome.1 = .parity) ∧
    (Config.freeValue 0 % 4 = 2 → S1.writeOutcome.1 = .uncorrected) :=
  ⟨fun h => writeOutcome_of (s := S1) h, fun h => writeOutcome_of (s := S1) h, fun h => writeOutcome_of (s := S1) h⟩

end W06

/-! ## Witnesses: Checkpoint -/

namespace W07

/-- Instance 0 with 16 granules of its map at granules 4 to 19 of HBM. -/
def mapped (s : State) : State :=
  { s with mem := mem ((List.range 16).map fun g => (8 * g, mapTo (4 + g))), insts := [(0, { Instance.initial with state := .active, mapLen := 16, shares := Shares.manager })] }
def M0 : State := mapped (job cut1 Run.initial (fun x => { x with state := .loaded }))
def confP (n : Nat) := fields [(1,0),(1,0),(1,1),(1,n),(4,1000),(4,5),(4,1),(2,0),(2,0),(4,0),(8,0x10000),(8,0x2000000),(8,0x200000),(8,0x1800000),(8,0)]
def cc : Cmd := cmd 0x4001 (confP 0)
def ent (sp : Spec) (s : State) (c : Cmd) := s.entered sp c
def s1 := ((ent ckpConfigSpec M0 cc).cmdRead blkCKP 0 0 0 0).1
def q : CkpConf := { kind := 1, periodMs := 0, every := 0, nsid := 1, peer := 0, qp := 0, base := 0x10000, slotBytes := 0x2000000, save := 0x200000, saveLen := 0x1800000, regions := [] }
def ck (f : Ckp → Ckp) (s : State) : State := s.modCkp 0 fun k => f { k with conf := some q }
def N : State := ck id (job cut1 run4 id)
def cn : Cmd := cmd 0x4002 (fields [(1,0),(1,0),(6,0)])
def a2 := (ent ckpNowSpec N cn).announceCkpt 0 cut1 0
def N1 : State := ck id (job { cut1 with rank := 1, jobSize := 2 } run4 id)
def N2 : State := ck (fun k => { k with nowStep := some 7 }) (job cut1 run4 id)
def cs : Cmd := cmd 0x4003 (fields [(1,0),(1,0),(6,0)])
def manNoDigest (dig : List Byte) : List Byte :=
  ckpMagic ++ leBytes 2 1 ++ leBytes 2 1 ++ leBytes 1 1 ++ zeros 3 ++ leBytes 8 9 ++ leBytes 8 7 ++ leBytes 8 70 ++ leBytes 2 1 ++ leBytes 2 0 ++ [4, 4] ++ zeros 2 ++ zeros 16 ++
    zeros 32 ++ zeros 32 ++ dig ++ zeros 96 ++ ([2, 0, 0] ++ zeros 5 ++ leBytes 8 0x100000 ++ leBytes 8 32 ++ leBytes 8 0x100000 ++ shardDigest 7 0 (List.replicate 32 9))
def man := manNoDigest (sha256 (manNoDigest (zeros 32)))
def ns : Namespace := { kind := 2, owner := 0, lba4k := true, cipher := false, ciph := 0, port := 0, base := 0x8000000, size := 0x2000, drvNs := 0, qp := 0, rkey := 0, attach := [] }
def c4 : Cut := { cut1 with identity := zeros 32 }
def qr : CkpConf := { q with slotBytes := 0x200000, base := 0 }
def R : State :=
  let s := (job c4 Run.initial (fun x => { x with state := .loaded })).modCkp 0 fun k => { k with conf := some qr }
  { s with mem := mem [(0, mapTo 4), (0x8200000, man), (0x8300000, List.replicate 32 9)]
           storage := { s.storage with nss := [(0, ns)] } }
def cr : Cmd := cmd 0x4004 (fields [(1,0),(1,0),(6,0),(8,2^64-1)])
def T := ck (fun k => { k with timerAt := some 77 }) N
def C1 := ck (fun k => { k with phase := .capturing }) N
def C2 := ck (fun k => { k with phase := .capturing, active := true, announced := [4] }) (job cut1 { run4 with closingAt := some 9 } id)
def md : CkpMeta := { step := 5, beat := 50, jobSize := 1, rank := 0, width := 4, height := 4, job := 5, identity := [], jobHash := [], inst := 0, gen := 0, ranktab := [] }
def G := ck (fun k => { k with info := some md, phase := .copying, active := true, copied := 1, segs := [(0x800000, 0x40000)], saveSegs := [(0xA00000, 0x40000)], firstPlace := 2, saved := [(2,2)] }) { N with mem := mem [(0x80FFFF, [1,2,3]), (0x830000, [5,6])] }
def Gb : State := let s : State := { G with hbm := { G.hbm with bad := [0x830000] } }; s.modStack (hbmPlace 0 0x830000).1 fun x => { x with written := [(hbmPlace 0 0x830000).2 / 2^20] }
def gub := (Gb.drainHbm.saveGranule 0 3).getD G
def nsh : Namespace := { ns with base := 0x8000000 }
def P := { (ck (fun k => { k with conf := some qr, info := some { md with identity := zeros 32 }, phase := .copying, active := true, stage := 3, saveSegs := [(0xA00000, 0x1400000)], firstPlace := 2 }) N) with mem := mem [(0xA00001, [1,2,3])], storage := { N.storage with nss := [(0, nsh)] } }
def kk := (P.parcel 0).ckp
def P1 := (P.copierTurn qr kk).getD P
def fs := ((shardsOf 4 4 [])[0]?).getD ⟨1,0,0,0,0⟩
def F7 := ck (fun k => { k with stage := 7, phase := .sealing, conf := some qr, info := some md, posts := [3] }) P
def f7 : State := { F7 with rma := { F7.rma with engDone := [(3, ⟨true, []⟩), (4, ⟨false, []⟩)] } }
def f71 := (f7.copierTurn qr (f7.parcel 0).ckp).getD P
def f72 : State × Bool := match f71.destDone 0 with | .ok r => r | .error s => (s, false)
def F2 := ck (fun k => { k with stage := 2, phase := .copying, conf := some qr, info := some md }) P
def F21 := (F2.copierTurn qr (F2.parcel 0).ckp).getD P
def F22 : State × Bool := match F21.destDone 0 with | .ok r => r | .error s => (s, false)
def S7 (m : CkpMeta) := ck (fun k => { k with stage := 7, phase := .sealing, info := some m, slot := 1, slot0 := some 3 }) P
def S7d (m : CkpMeta) : State × Bool := match (S7 m).destDone 0 with | .ok r => r | .error s => (s, false)
def m1 := { md with rank := 1, jobSize := 2 }
def arg1 : CkpConf := { kind := 1, periodMs := 1000, every := 5, nsid := 1, peer := 0, qp := 0, base := 0x10000, slotBytes := 0x2000000, save := 0x200000, saveLen := 0x1800000, regions := [] }
def arg2 : Cut := { cut1 with rank := 1, jobSize := 2 }
def arg3 : CkpMeta := { md with identity := zeros 32 }
def arg4 : State := ck (fun k => { k with hurt := true, info := some md }) P
def arg5 : State := ck (fun k => { k with info := some { md with gen := 3 } }) P
def arg6 : CkpMeta := { md with gen := 3 }
def arg7 : State := { (ck (fun k => { k with info := some md }) P) with power := { P.power with pfw := true } }

theorem witness_CheckpointCommands :
    ((M0.takes ckpConfigSpec cc = true) ∧ ((M0.entered ckpConfigSpec cc).theParcel cc.pkt.params = some 0) ∧ ((M0.entered ckpConfigSpec cc).parcelState 0 = FacetState.empty ∨ (M0.entered ckpConfigSpec cc).parcelState 0 = FacetState.loaded ∨ (M0.entered ckpConfigSpec cc).parcelState 0 = FacetState.paused) ∧ (((M0.entered ckpConfigSpec cc).parcel 0).ckp.busy = false)) ∧
    ((M0.entered ckpConfigSpec cc).cmdRead blkCKP ((M0.entered ckpConfigSpec cc).parcel 0).inst (fieldAt cc.pkt.params 56 8) (16 * fieldAt cc.pkt.params 3 1) 0 = (s1, some [])) ∧
    ((arg1 = { kind := fieldAt cc.pkt.params 2 1, periodMs := fieldAt cc.pkt.params 4 4, every := fieldAt cc.pkt.params 8 4, nsid := fieldAt cc.pkt.params 12 4, peer := fieldAt cc.pkt.params 16 2, qp := fieldAt cc.pkt.params 20 4, base := fieldAt cc.pkt.params 24 8, slotBytes := fieldAt cc.pkt.params 32 8, save := fieldAt cc.pkt.params 40 8, saveLen := fieldAt cc.pkt.params 48 8, regions := List.map (fun j => (fieldAt [] (16 * j) 8, fieldAt [] (16 * j + 8) 8)) (List.range (fieldAt cc.pkt.params 3 1)) }) ∧ (s1.confOk ((M0.entered ckpConfigSpec cc).parcel 0) arg1 = true) ∧ (N.takes ckpNowSpec cn = true) ∧ ((N.entered ckpNowSpec cn).theParcel cn.pkt.params = some 0) ∧ (((N.entered ckpNowSpec cn).parcel 0).cut = some cut1) ∧ ((N.entered ckpNowSpec cn).parcelState 0 = FacetState.running) ∧ (((N.entered ckpNowSpec cn).parcel 0).ckp.conf.isSome = true) ∧ (((N.entered ckpNowSpec cn).parcel 0).ckp.nowStep = none) ∧ (((N.entered ckpNowSpec cn).parcel 0).ckp.nowWait = none) ∧ (cut1.rank = 0)) ∧
    ((N.entered ckpNowSpec cn).announceCkpt 0 cut1 ((N.entered ckpNowSpec cn).parcel 0).run.step = (a2.1, 0)) ∧
    ((N1.takes ckpNowSpec cn = true) ∧ ((N1.entered ckpNowSpec cn).theParcel cn.pkt.params = some 0) ∧ (((N1.entered ckpNowSpec cn).parcel 0).cut = some arg2) ∧ ((N1.entered ckpNowSpec cn).parcelState 0 = FacetState.running) ∧ (((N1.entered ckpNowSpec cn).parcel 0).ckp.conf.isSome = true) ∧ (((N1.entered ckpNowSpec cn).parcel 0).ckp.nowStep = none) ∧ (((N1.entered ckpNowSpec cn).parcel 0).ckp.nowWait = none) ∧ (arg2.rank ≠ 0) ∧ (N2.takes ckpNowSpec cn = true) ∧ ((N2.entered ckpNowSpec cn).theParcel cn.pkt.params = some 0) ∧ (((N2.entered ckpNowSpec cn).parcel 0).cut = some cut1) ∧ ((N2.entered ckpNowSpec cn).parcelState 0 = FacetState.running)) ∧
    ((((N2.entered ckpNowSpec cn).parcel 0).ckp.conf.isSome = true) ∧ (((N2.entered ckpNowSpec cn).parcel 0).ckp.nowStep.isSome = true ∨ ((N2.entered ckpNowSpec cn).parcel 0).ckp.nowWait.isSome = true) ∧ (N2.takes ckpStatusSpec cs = true) ∧ ((N2.entered ckpStatusSpec cs).theParcel cs.pkt.params = some 0) ∧ (R.takes ckpRestoreSpec cr = true) ∧ ((R.entered ckpRestoreSpec cr).theParcel cr.pkt.params = some 0) ∧ (((R.entered ckpRestoreSpec cr).parcel 0).ckp.conf = some qr) ∧ (((R.entered ckpRestoreSpec cr).parcel 0).cut = some c4) ∧ ((R.entered ckpRestoreSpec cr).parcelState 0 = FacetState.loaded) ∧ (((R.entered ckpRestoreSpec cr).parcel 0).run.started = none) ∧ (((R.entered ckpRestoreSpec cr).parcel 0).run.reason = 0) ∧ (((R.entered ckpRestoreSpec cr).parcel 0).ckp.busy = false)) ∧
    (pickManifest (fieldAt cr.pkt.params 8 8) none (some man) = some (1, man)) ∧
    ((fieldAt man 40 2 = c4.jobSize) ∧ (fieldAt man 42 2 = c4.rank) ∧ (fieldAt man 44 1 = 4 * ((R.entered ckpRestoreSpec cr).parcel 0).gw) ∧ (fieldAt man 45 1 = 4 * ((R.entered ckpRestoreSpec cr).parcel 0).gh) ∧ (slice man 64 32 = c4.identity)) :=
  ⟨by decide +kernel,
    Prod.ext rfl (by decide +kernel),
    by decide +kernel,
    Prod.ext rfl (by decide +kernel),
    by decide +kernel,
    by decide +kernel,
    rfl,
    by decide +kernel⟩
theorem witness_CheckpointRows :
    (((T.parcel 0).ckp.timerAt = some 77) ∧ ((T.parcel 0).cut = some cut1) ∧ (cut1.rank = 0) ∧ ((T.parcel 0).jobOn = true) ∧ ((C1.parcel 0).ckp.phase = CkpPhase.capturing) ∧ ((C1.parcel 0).cut = none ∨ (C1.parcel 0).run.closingAt = none) ∧ ((C2.parcel 0).ckp.phase = CkpPhase.capturing) ∧ ((C2.parcel 0).cut = some cut1) ∧ (cut1.timed = false) ∧ ((C2.parcel 0).run.closingAt.isSome = true) ∧ ((G.parcel 0).ckp.active = true) ∧ ((G.parcel 0).ckp.hurt = false)) ∧
    (((G.parcel 0).ckp.copied ≤ 3) ∧ ((G.parcel 0).ckp.saved.has 3 = false) ∧ (3 < (List.map (fun x => x.2) (G.parcel 0).ckp.segs).sum / ckpGranule) ∧ (G.hbm.bad = []) ∧ ((G.parcel 0).ckp.held = []) ∧ (Memory.wf G.mem = true) ∧ ((Gb.parcel 0).ckp.active = true) ∧ ((Gb.parcel 0).ckp.hurt = false) ∧ ((Gb.parcel 0).ckp.copied ≤ 3) ∧ ((Gb.parcel 0).ckp.saved.has 3 = false) ∧ (3 < (List.map (fun x => x.2) (Gb.parcel 0).ckp.segs).sum / ckpGranule) ∧ ((gub.parcel 0).ckp.hurt = true)) ∧
    (((P.parcel 0).ckp.conf = some qr) ∧ ((P.parcel 0).ckp.info = some arg3) ∧ ((P.parcel 0).ckp.phase = CkpPhase.copying) ∧ ((P.parcel 0).ckp.stage = 3) ∧ ((P.parcel 0).ckp.hurt = false) ∧ (P.genOf arg3.inst = arg3.gen) ∧ (P.power.pfw = false) ∧ (P.copierTurn qr (P.parcel 0).ckp = some P1) ∧ ((P1.parcel 0).ckp = (P.parcel 0).ckp) ∧ (shardsOf 4 4 [] = shardsOf arg3.width arg3.height qr.regions) ∧ ((shardsOf 4 4 [])[(P.parcel 0).ckp.pos]? = some fs) ∧ (fs.kind = 1)) ∧
    (((f7.parcel 0).ckp.conf = some qr) ∧ ((f7.parcel 0).ckp.info = some md) ∧ ((f7.parcel 0).ckp.phase = CkpPhase.copying ∨ (f7.parcel 0).ckp.phase = CkpPhase.sealing) ∧ ((f7.parcel 0).ckp.stage = 2 ∨ (f7.parcel 0).ckp.stage = 7) ∧ ((f7.parcel 0).ckp.hurt = false) ∧ (f7.genOf md.inst = md.gen) ∧ (f7.power.pfw = false) ∧ (f7.copierTurn qr (f7.parcel 0).ckp = some f71) ∧ ((f71.parcel 0).ckp = (f7.parcel 0).ckp) ∧ (f71.destDone 0 = Except.ok (f72.1, f72.2)) ∧ ((F2.parcel 0).ckp.conf = some qr) ∧ ((F2.parcel 0).ckp.info = some md)) ∧
    (((F2.parcel 0).ckp.phase = CkpPhase.copying ∨ (F2.parcel 0).ckp.phase = CkpPhase.sealing) ∧ ((F2.parcel 0).ckp.stage = 2 ∨ (F2.parcel 0).ckp.stage = 7) ∧ ((F2.parcel 0).ckp.hurt = false) ∧ (F2.genOf md.inst = md.gen) ∧ (F2.power.pfw = false) ∧ (F2.copierTurn qr (F2.parcel 0).ckp = some F21) ∧ ((F21.parcel 0).ckp = (F2.parcel 0).ckp) ∧ (F21.destDone 0 = Except.ok (F22.1, F22.2)) ∧ ((arg4.parcel 0).ckp.conf = some q) ∧ ((arg4.parcel 0).ckp.info = some md) ∧ ((arg4.parcel 0).ckp.phase = CkpPhase.copying) ∧ ((arg4.parcel 0).ckp.hurt = true)) ∧
    (((arg5.parcel 0).ckp.conf = some q) ∧ ((arg5.parcel 0).ckp.info = some arg6) ∧ ((arg5.parcel 0).ckp.phase = CkpPhase.copying) ∧ ((arg5.parcel 0).ckp.hurt = false) ∧ (arg5.genOf arg6.inst ≠ arg6.gen) ∧ ((arg7.parcel 0).ckp.conf = some q) ∧ ((arg7.parcel 0).ckp.info = some md) ∧ ((arg7.parcel 0).ckp.phase = CkpPhase.copying) ∧ ((arg7.parcel 0).ckp.hurt = false) ∧ (arg7.genOf md.inst = md.gen) ∧ (arg7.power.pfw = true) ∧ (((S7 md).parcel 0).ckp.conf = some q)) ∧
    ((((S7 md).parcel 0).ckp.info = some md) ∧ (((S7 md).parcel 0).ckp.phase = CkpPhase.sealing) ∧ (((S7 md).parcel 0).ckp.stage = 7) ∧ (((S7 md).parcel 0).ckp.held = []) ∧ ((S7 md).genOf md.inst = md.gen) ∧ ((S7 md).destDone 0 = Except.ok ((S7d md).1, true)) ∧ (((S7 m1).parcel 0).ckp.conf = some q) ∧ (((S7 m1).parcel 0).ckp.info = some m1) ∧ (((S7 m1).parcel 0).ckp.phase = CkpPhase.sealing) ∧ (((S7 m1).parcel 0).ckp.stage = 7) ∧ (((S7 m1).parcel 0).ckp.held = []) ∧ ((S7 m1).genOf m1.inst = m1.gen)) ∧
    ((S7 m1).destDone 0 = Except.ok ((S7d m1).1, true)) :=
  ⟨by decide +kernel,
    by decide +kernel,
    by decide +kernel,
    by decide +kernel,
    by decide +kernel,
    by decide +kernel,
    by decide +kernel,
    by decide +kernel⟩

end W07

/-! ## Witnesses: Instances and parcels -/

namespace W08

def A : State := { live with insts := live.insts ++ [(1, { Instance.initial with state := .active, mapBase := 0x1000000, mapLen := 512, gen := 4, shares := Shares.manager })] }
def cc := cmd 0x1001 (fields [(1,63),(7,0),(8,0x2000000),(4,262144),(4,0)])
def ar := cmd 0x1002 (fields [(1,1),(7,0)])
def am := cmd 0x1003 (fields [(1,1),(7,0)])
def px (i gx gy gw gh : Nat) : Parcel := { Parcel.initial with valid := true, inst := i, gx, gy, gw, gh }
def al := cmd 0x1004 (fields [(1,1),(1,11),(1,7),(1,1),(1,1),(3,0)])
def AP : State := { A with parcels := [(0, px 1 0 0 1 1)] }
def own0 : Owner := { gen := 4, inst := 1, px := 0, py := 0, pw := 3, ph := 3 }
def E : State := { AP with facets := (px 1 0 0 1 1).facets.map fun f => (f, { Facet.initial with owner := some own0, state := .empty }), mem := mem [(0, mapTo 4), (spadAddr 1 0, [1,2]), (spadAddr 100 5, [9])] }
def fr := cmd 0x1005 (fields [(1,0),(7,0)])
def ss := cmd 0x1006 (fields [(1,1),(1,3),(1,5),(1,0),(4,786432),(4,262144),(2,4096),(2,4096),(4,65536),(2,1024),(2,4096),(2,16384),(2,16384),(4,65536)])
def ms := cmd 0x1007 (fields [(1,1),(3,0),(4,510),(4,2),(4,0),(8,2^63+2^62+9*2^21)])
def MA : State := { A with mem := mem [(0, mapTo 4), (0x1000000 + 8*511, mapTo 40)] }
def bs := cmd 0x1008 (fields [(1,0),(3,0),(4,2000),(2,10000),(6,0)])
def ac0 := cmd 0x1009 (fields [(8,0),(4,0),(4,0)])
def ac := cmd 0x1009 (fields [(8,0x10000),(4,0x10000),(4,100)])
def st := cmd 0x100A (fields [(1,63),(7,0)])
def wk : ResetWork := { waiter := ⟨2, 0, 0⟩, began := 5 }
def RS (x : InstState) : State := { E with insts := live.insts ++ [(1, { Instance.initial with state := x, mapBase := 0x1000000, mapLen := 512, gen := 4, reset := some wk })] }
def RM : State := (RS .removing).modInst 1 fun x => { x with mapWork := [⟨⟨2,0,3⟩,0,1,0,1,[4],[4]⟩] }
def mw : MapWork := ⟨⟨2,0,3⟩,0,1,0,1,[40],[40]⟩
def MW : State := { A.modInst 1 (fun x => { x with mapWork := [mw] }) with mem := mem [(0, mapTo 4), (40 * granule, [1,2]), (41*granule, [4]) ] }
def fl1 : Flit := { flit0 with addr := 40 * granule, payload := [1] }
def MB : State := { MW with mesh := { MW.mesh with transit := [⟨fl1, .die 0, 5⟩] } }
def B : State := { A with parcels := [(0, { px 1 0 0 1 1 with budget := 1000, burst := 2, credit := 1999, charges := [3] }), (1, { px 1 1 0 1 1 with budget := 1000, burst := 2, credit := -5, budgetNext := some (2000, 1) })] }
def BR : State := { A with acct := { A.acct with ring := 0x10000, ringLen := 0x10000, periodMs := 100 } }
def arg1 : State := ((A.entered pclAcctConfigSpec ac).ringReset clsHost 0 0x10000).1

theorem witness_TenantCommands :
    ((live.takes pclInstCreateSpec cc = true) ∧ (33554432 = fieldAt cc.pkt.params 8 8) ∧ (262144 = fieldAt cc.pkt.params 16 4) ∧ (fieldAt cc.pkt.params 0 1 ≠ 0) ∧ (((live.entered pclInstCreateSpec cc).inst (fieldAt cc.pkt.params 0 1)).state = InstState.free) ∧ (33554432 % granule = 0) ∧ (33554432 + 8 * 262144 ≤ hbmSize) ∧ ((live.entered pclInstCreateSpec cc).mapArrayMeets 33554432 (8 * 262144) = false) ∧ ((live.entered pclInstCreateSpec cc).mappedBy 33554432 (8 * 262144) = false) ∧ (A.takes pclInstResetSpec ar = true) ∧ (fieldAt ar.pkt.params 0 1 ≠ 0) ∧ ((A.entered pclInstResetSpec ar).isActive (fieldAt ar.pkt.params 0 1) = true)) ∧
    ((A.takes pclInstRemoveSpec am = true) ∧ (fieldAt am.pkt.params 0 1 ≠ 0) ∧ ((A.entered pclInstRemoveSpec am).isActive (fieldAt am.pkt.params 0 1) = true) ∧ (AP.takes pclParcelAllocSpec al = true) ∧ ((AP.entered pclParcelAllocSpec al).isActive (fieldAt al.pkt.params 0 1) = true) ∧ ((px 1 11 7 1 1).gx + (px 1 11 7 1 1).gw ≤ 12) ∧ ((px 1 11 7 1 1).gy + (px 1 11 7 1 1).gh ≤ 8) ∧ (∀ f ∈ (px 1 11 7 1 1).facets, ((AP.entered pclParcelAllocSpec al).facet f).owner = none) ∧ (1 < 64) ∧ (((AP.entered pclParcelAllocSpec al).parcel 1).valid = false) ∧ (∀ q < 1, ((AP.entered pclParcelAllocSpec al).parcel q).valid = true) ∧ (E.takes pclParcelFreeSpec fr = true)) ∧
    ((0 = fieldAt fr.pkt.params 0 1) ∧ (px 1 0 0 1 1 = (E.entered pclParcelFreeSpec fr).parcel 0) ∧ ((px 1 0 0 1 1).valid = true) ∧ (∀ f ∈ (px 1 0 0 1 1).facets, ((E.entered pclParcelFreeSpec fr).facet f).state = FacetState.empty) ∧ ((E.entered pclParcelFreeSpec fr).drainHbm.parcelMapped (px 1 0 0 1 1) = false) ∧ (A.takes pclShareSetSpec ss = true) ∧ ((A.entered pclShareSetSpec ss).isActive (fieldAt ss.pkt.params 0 1) = true) ∧ (MA.takes pclMapSetSpec ms = true) ∧ (510 = fieldAt ms.pkt.params 4 4) ∧ (2 = fieldAt ms.pkt.params 8 4) ∧ (2 ^ 63 + 2 ^ 62 + 9 * 2 ^ 21 = fieldAt ms.pkt.params 16 8) ∧ ((MA.entered pclMapSetSpec ms).isActive (fieldAt ms.pkt.params 0 1) = true)) ∧
    ((510 + 2 ≤ ((MA.entered pclMapSetSpec ms).inst (fieldAt ms.pkt.params 0 1)).mapLen) ∧ (((MA.entered pclMapSetSpec ms).inst (fieldAt ms.pkt.params 0 1)).mapBase + 8 * ((MA.entered pclMapSetSpec ms).inst (fieldAt ms.pkt.params 0 1)).mapLen ≤ hbmSize) ∧ (Memory.wf (MA.entered pclMapSetSpec ms).mem = true) ∧ ((MA.entered pclMapSetSpec ms).hbm.bad = []) ∧ ((MA.entered pclMapSetSpec ms).drainHbm.mapRefusal (fieldAt ms.pkt.params 0 1) 510 2 (2 ^ 63 + 2 ^ 62 + 9 * 2 ^ 21) = none) ∧ (∀ e ∈ (MA.entered pclMapSetSpec ms).drainHbm.validEntries (fieldAt ms.pkt.params 0 1), (MA.entered pclMapSetSpec ms).mapArrayMeets (entryGran e.2 * granule) granule = false) ∧ (AP.takes pclBudgetSetSpec bs = true) ∧ (2000 = fieldAt bs.pkt.params 4 4) ∧ (10000 = fieldAt bs.pkt.params 8 2) ∧ (((AP.entered pclBudgetSetSpec bs).parcel (fieldAt bs.pkt.params 0 1)).valid = true) ∧ ((AP.entered pclBudgetSetSpec bs).isActive ((AP.entered pclBudgetSetSpec bs).parcel (fieldAt bs.pkt.params 0 1)).inst = true) ∧ (2000 = 0 ∨ 125 * ((AP.entered pclBudgetSetSpec bs).parcel (fieldAt bs.pkt.params 0 1)).facets.length ≤ 2000)) ∧
    ((2000 ≤ 2400000) ∧ (1 ≤ 10000) ∧ (10000 ≤ 10000) ∧ (A.takes pclAcctConfigSpec ac0 = true) ∧ (fieldAt ac0.pkt.params 8 4 = 0) ∧ (A.takes pclAcctConfigSpec ac = true) ∧ (powerIn (fieldAt ac.pkt.params 8 4) 65536 1073741824 = true) ∧ (100 ≤ fieldAt ac.pkt.params 12 4) ∧ (fieldAt ac.pkt.params 12 4 ≤ 3600000) ∧ ((A.entered pclAcctConfigSpec ac).mapsRw 0 (fieldAt ac.pkt.params 0 8) (fieldAt ac.pkt.params 8 4 + 64) = true)) ∧
    ((A.entered pclAcctConfigSpec ac).ringReset clsHost 0 (fieldAt ac.pkt.params 0 8) = (arg1, true)) ∧
    (A.takes pclInstStatusSpec st = true) :=
  ⟨by decide +kernel,
    by decide +kernel,
    by decide +kernel,
    by decide +kernel,
    by decide +kernel,
    Prod.ext rfl (by decide +kernel),
    by decide +kernel⟩
theorem witness_TenantRows :
    ((((RS InstState.resetting).inst 1).reset = some wk) ∧ (((RS InstState.resetting).ctrl 1).resetting = false) ∧ (((RS InstState.resetting).inst 1).state = InstState.resetting) ∧ ((RM.inst 1).reset = some wk) ∧ ((RM.ctrl 1).resetting = false) ∧ ((RM.inst 1).state = InstState.removing) ∧ (RM.mapHolds 1 = true) ∧ (((RS InstState.removing).inst 1).reset = some wk) ∧ (((RS InstState.removing).ctrl 1).resetting = false) ∧ (((RS InstState.removing).inst 1).state = InstState.removing) ∧ ((RS InstState.removing).mapHolds 1 = false) ∧ ((MB.inst 1).mapWork = [mw])) ∧
    ((mw.olds.any MB.drainHbm.granBusy = true) ∧ ((MW.inst 1).mapWork = [mw]) ∧ (mw.olds.any MW.drainHbm.granBusy = false) ∧ (mw.count ≤ mw.done) ∧ (B.acct.ringLen = 0) ∧ (BR.acct.ringLen ≠ 0) ∧ (BR.power.rung ≠ 2) ∧ (63 < 64)) :=
  ⟨by decide +kernel,
    by decide +kernel⟩

end W08

/-! ## Witnesses: Command packets -/

namespace W09

def pk (op : Nat) (ps : List Byte) (seq : Nat) : Cmd := { ch := 2, src := 0, pkt := packet op ps seq }
def ip (id : Nat) (seq : Nat) (op : Nat) : InProgress := { id, seq := BitVec.ofNat 32 seq, opcode := op, crc := 5, params := [], src := 0, at_ := 3, inst := 0, gen := 0, stale := false }
def on (f : Channel → Channel) (s : State := live) : State := s.modChan 2 f
def echo := sysEchoSpec
def U := on fun c => { c with state := .unsynced }
def e9 := pk 4 [] 9
def bad9 : Cmd := let p := { e9.pkt with version := 2, crc := 0 }; { e9 with pkt := { p with crc := BitVec.ofNat 32 (crc32c (p.image 4)) } }
def F16 := on fun c => { c with inProg := (List.range 16).map fun k => ip k k 4, e := 9 }
def kp : Retained := { seq := 9, crc := e9.pkt.crc, opcode := 4, status := 0, detail := 0, params := zeros 8, inst := 0, gen := 0 }
def K := on fun c => { c with e := 25, kept := [kp] }
def K2 := on fun c => { c with e := 10, kept := [{ kp with crc := 1 }] }
def I := on fun c => { c with e := 10, inProg := [ip 3 9 4] }
def I2 := on fun c => { c with e := 10, inProg := [{ ip 3 9 4 with crc := e9.pkt.crc }] }
def O := on fun c => { c with e := 26 }
def sb := pk 1 (zeros 8) 9
def L0 : State := live.modChan 0 fun c => { c with state := .synced, bound := some 0, peer := some 77 }
def sb0 : Cmd := { sb with ch := 0, src := 78 }
def sy := pk 1 [] 9
def c2 := pk 2 [] 0
def c4 := pk 4 (zeros 64) 0
def ab (n : Nat) := pk 3 (fields [(4,n),(4,0)]) 0
def gw : TableWait := ⟨⟨2,3,9⟩, 5, 0, 15, none⟩
def AG : State := let s := on fun c => { c with inProg := [ip 3 9 0x3002] }; { s with gather := { s.gather with waits := [gw] } }
def AN : State := on fun c => { c with inProg := [ip 3 9 0x4001] }
def rr := pk 5 (fields [(2,2),(6,0),(8,0x00_2000_0000),(8,0x00_2000_0010)]) 0
def rw := pk 6 (fields [(2,1),(6,0),(8,0x00_2000_0010),(8,100)]) 0
def cs := pk 7 (fields [(2,193),(1,0),(1,1),(2,77),(2,0),(8,0)]) 0
def st := pk 8 (fields [(2,193),(6,0)]) 0
def r0 := pk 9 (fields [(1,0),(7,0),(8,0),(8,0),(4,0),(2,1),(2,0)]) 0
def r1 := pk 9 (fields [(1,0),(7,0),(8,0x1000),(8,0x100000),(4,0x10000),(2,1000),(2,0)]) 0
def v1 := live.entered sysRingSetSpec r1
def q1 := (v1.ringReset clsHost 0 0x1000).1
def q2 := (q1.ringReset clsHost 0 0x100000).1
def pb : List Byte := leBytes 2 4 ++ leBytes 1 1 ++ zeros 1 ++ leBytes 4 9 ++ leBytes 4 0 ++ leBytes 4 0 ++ leBytes 4 0 ++ leBytes 4 0xBAD ++ leBytes 8 0
def pp := (parsePacket pb).getD (0, e9.pkt)
def m1 : State := live.modChan 1 fun c => { c with state := .synced, bound := some 0 }
def ring (f : Channel → Channel) (cmdr : List Byte) (prod repCons : Nat) : State :=
  let s := live.modChan 66 fun c => f { c with state := .synced, bound := some 0, cmdRing := 0x1000, repRing := 0x100000, ringLen := 0x10000, pollUs := 1 }
  { s with mem := mem [(0, mapTo 4), (4*granule + 0x1000, leBytes 8 prod), (4*granule + 0x1040, cmdr), (4*granule + 0x100008, leBytes 8 repCons)] }
def h0 : HostRing := { prod := 0, record := [], repCons := 0, ok := true }
def good : List Byte := let p := packet 4 [] 0; leBytes 2 4 ++ leBytes 1 1 ++ zeros 1 ++ leBytes 4 0 ++ leBytes 4 0 ++ leBytes 4 0 ++ leBytes 4 0 ++ leBytes 4 p.crc.toNat ++ leBytes 8 0
def X (s : State) := s.chan 66
def sA (s : State) := (s.readBy clsHost 0 0x1000 8).1
def sB (s : State) := ((sA s).readBy clsHost 0 0x100008 8).1
def ww (s : State) (q : Nat) := ((sB s).modChan 66 fun c => { c with repCons := q }).flushReplies 66
def Rb := ring id good 0x20 0
def R1 := ring id good 0 0
def R2 := ring id good 64 0
def w2 := ww R2 0
def s3 := (w2.readBy clsHost 0 0x1040 64).1
def s4 := (s3.readBy clsHost 0 0x1040 64).1
def s5 := (s4.writeBy clsHost 0 0x1008 (leBytes 8 64)).1
def MBX : State := { live with pcie := { live.pcie with fns := [(0, { PceFn.initial 0 with mbLen := 0x10000, cmd := 4, bound := some 0 })] } }
def hb : HostRing := { prod := 0, record := [], repCons := 0, ok := false }
def DL : State := let s := on fun c => { c with inProg := [ip 3 9 0x8006] }; { s with storage := { s.storage with deletes := [(7, (⟨2, 3, 9⟩, 4))] } }
def BD := on fun c => { c with inProg := [ip 3 9 0x1002] }
def RR : State := { live with power := { live.power with rails := [(6, { Rail.initial with set := 750 })] } }
def arg1 : Channel := live.wakeDeep.chan 2
def arg2 : Channel := U.wakeDeep.chan 2
def arg3 : Channel := F16.wakeDeep.chan 2
def arg4 : Channel := K.wakeDeep.chan 2
def arg5 : Channel := K2.wakeDeep.chan 2
def arg6 : Retained := { kp with crc := 1 }
def arg7 : Channel := I.wakeDeep.chan 2
def arg8 : Channel := I2.wakeDeep.chan 2
def arg9 : InProgress := { ip 3 9 4 with crc := e9.pkt.crc }
def arg10 : Channel := O.wakeDeep.chan 2
def arg11 : Channel := L0.wakeDeep.chan 0
def arg12 : Cmd := pk 4 (zeros 72) 0
def arg13 : Cmd := { ab 9 with pkt := packet 3 (fields [(4,9),(4,0)]) 25 }
def arg14 : List Byte := List.replicate 31 0
def arg15 : List Byte := List.replicate 1057 0
def arg16 : Channel := (ww Rb 0).chan 66
def arg17 : Channel := (ww R1 0).chan 66
def arg18 : List Byte := good ++ zeros 32
def arg19 : State := ((MBX.modChan 2 fun c => { c with repCons := 0 }).flushReplies 2)
def arg20 : ℕ × Waiter × ℕ := (7, (⟨2, 3, 9⟩, 4))

theorem witness_CommandSequence :
    ((live.reaches echo.opcode bad9 = true) ∧ (arg1 = live.wakeDeep.chan bad9.ch) ∧ (9 = (bad9.pkt.seq - arg1.e).toNat) ∧ (bad9.pkt.version ≠ 1) ∧ (arg1.state = ChanState.unsynced ∨ 9 ≠ 0) ∧ (U.reaches echo.opcode e9 = true) ∧ (arg2 = U.wakeDeep.chan e9.ch) ∧ (9 = (e9.pkt.seq - arg2.e).toNat) ∧ (e9.pkt.version = 1) ∧ (arg2.state = ChanState.unsynced) ∧ (F16.reaches echo.opcode e9 = true) ∧ (arg3 = F16.wakeDeep.chan e9.ch)) ∧
    ((0 = (e9.pkt.seq - arg3.e).toNat) ∧ (arg3.state = ChanState.synced) ∧ (0 = 0) ∧ (16 ≤ arg3.inProg.length) ∧ (live.reaches echo.opcode (pk 4 [] (2 ^ 31)) = true) ∧ (arg1 = live.wakeDeep.chan (pk 4 [] (2 ^ 31)).ch) ∧ (2 ^ 31 = ((pk 4 [] (2 ^ 31)).pkt.seq - arg1.e).toNat) ∧ ((pk 4 [] (2 ^ 31)).pkt.version = 1) ∧ (arg1.state = ChanState.synced) ∧ (1 ≤ 2 ^ 31) ∧ (2 ^ 31 ≤ 2 ^ 31) ∧ (K.reaches echo.opcode e9 = true)) ∧
    ((arg4 = K.wakeDeep.chan e9.ch) ∧ (2 ^ 32 - 16 = (e9.pkt.seq - arg4.e).toNat) ∧ (arg4.state = ChanState.synced) ∧ (2 ^ 32 - 16 ≤ 2 ^ 32 - 16) ∧ (∀ e ∈ arg4.inProg, e.seq ≠ e9.pkt.seq) ∧ (List.find? (fun k => decide (k.seq = e9.pkt.seq)) arg4.kept = some kp) ∧ (K2.reaches echo.opcode e9 = true) ∧ (arg5 = K2.wakeDeep.chan e9.ch) ∧ (2 ^ 32 - 1 = (e9.pkt.seq - arg5.e).toNat) ∧ (arg5.state = ChanState.synced) ∧ (2 ^ 32 - 16 ≤ 2 ^ 32 - 1) ∧ (∀ e ∈ arg5.inProg, e.seq ≠ e9.pkt.seq)) ∧
    ((List.find? (fun k => decide (k.seq = e9.pkt.seq)) arg5.kept = some arg6) ∧ (I.reaches echo.opcode e9 = true) ∧ (arg7 = I.wakeDeep.chan e9.ch) ∧ (2 ^ 32 - 1 = (e9.pkt.seq - arg7.e).toNat) ∧ (arg7.state = ChanState.synced) ∧ (List.find? (fun e => decide (e.seq = e9.pkt.seq) && !e.stale) arg7.inProg = some (ip 3 9 4)) ∧ (I2.reaches echo.opcode e9 = true) ∧ (arg8 = I2.wakeDeep.chan e9.ch) ∧ (2 ^ 32 - 1 = (e9.pkt.seq - arg8.e).toNat) ∧ (arg8.state = ChanState.synced) ∧ (List.find? (fun e => decide (e.seq = e9.pkt.seq) && !e.stale) arg8.inProg = some arg9) ∧ (O.reaches echo.opcode e9 = true)) ∧
    ((arg10 = O.wakeDeep.chan e9.ch) ∧ (2 ^ 32 - 17 = (e9.pkt.seq - arg10.e).toNat) ∧ (arg10.state = ChanState.synced) ∧ (2 ^ 31 < 2 ^ 32 - 17) ∧ (2 ^ 32 - 17 < 2 ^ 32 - 16) ∧ (live.reaches syncSpec.opcode sb = true) ∧ (arg1 = live.wakeDeep.chan sb.ch) ∧ (9 = (sb.pkt.seq - arg1.e).toNat) ∧ (syncSpec.opcode = 1)) ∧
    (live.wakeDeep.checked syncSpec sb (arg1.bound.getD 0) = some (7, 0)) ∧
    ((sb.ch ≠ 0 ∨ live.wakeDeep.knownSource sb = true) ∧ (arg1.state ≠ ChanState.synced ∨ sb.pkt.seq ≠ arg1.e) ∧ (L0.reaches syncSpec.opcode sb0 = true) ∧ (arg11 = L0.wakeDeep.chan sb0.ch) ∧ (9 = (sb0.pkt.seq - arg11.e).toNat)) ∧
    (L0.wakeDeep.checked syncSpec sb0 (arg11.bound.getD 0) = some (7, 0)) ∧
    ((sb0.ch = 0) ∧ (L0.wakeDeep.knownSource sb0 = false) ∧ (F16.reaches syncSpec.opcode sy = true) ∧ (arg3 = F16.wakeDeep.chan sy.ch) ∧ (0 = (sy.pkt.seq - arg3.e).toNat) ∧ (F16.wakeDeep.checked syncSpec sy (arg3.bound.getD 0) = none) ∧ (live.meets echo arg12 = true)) ∧
    (live.verdict echo arg12 = some (7, 64)) ∧
    ((1911 ≠ 0) ∧ (1911 ≠ 1) ∧ (∀ sp ∈ commandSpecs, sp.opcode ≠ 1911) ∧ (live.meets (unknownSpec 1911) (pk 1911 [] 0) = true) ∧ ((pk 1911 [] 0).pkt.version = 1)) :=
  ⟨by decide +kernel,
    by decide +kernel,
    by decide +kernel,
    by decide +kernel,
    by decide +kernel,
    rfl,
    by decide +kernel,
    rfl,
    by decide +kernel,
    rfl,
    by decide +kernel⟩
theorem witness_SystemCommands :
    ((live.takes sysIdentifySpec c2 = true) ∧ (live.takes sysEchoSpec c4 = true) ∧ (live.takes sysAbortSpec (ab 0) = true) ∧ (0 = BitVec.ofNat 32 (fieldAt (ab 0).pkt.params 0 4)) ∧ (∀ e ∈ ((live.entered sysAbortSpec (ab 0)).chan (ab 0).ch).inProg, e.seq = 0 → e.id = (live.waiterOf (ab 0)).id) ∧ (K.takes sysAbortSpec arg13 = true) ∧ (9 = BitVec.ofNat 32 (fieldAt arg13.pkt.params 0 4)) ∧ (∀ e ∈ ((K.entered sysAbortSpec arg13).chan arg13.ch).inProg, e.seq = 9 → e.id = (K.waiterOf arg13).id) ∧ (AG.takes sysAbortSpec (ab 9) = true) ∧ (9 = BitVec.ofNat 32 (fieldAt (ab 9).pkt.params 0 4)) ∧ (List.find? (fun e => decide (e.seq = 9) && decide (e.id ≠ (AG.waiterOf (ab 9)).id) && !e.stale) ((AG.entered sysAbortSpec (ab 9)).chan (ab 9).ch).inProg = some (ip 3 9 12290)) ∧ (List.find? (fun g => decide (g.waiter.ch = (ab 9).ch) && decide (g.waiter.id = (ip 3 9 12290).id)) (AG.entered sysAbortSpec (ab 9)).gather.waits = some gw)) ∧
    ((AN.takes sysAbortSpec (ab 9) = true) ∧ (List.find? (fun e => decide (e.seq = 9) && decide (e.id ≠ (AN.waiterOf (ab 9)).id) && !e.stale) ((AN.entered sysAbortSpec (ab 9)).chan (ab 9).ch).inProg = some (ip 3 9 16385)) ∧ ((AN.entered sysAbortSpec (ab 9)).stopTarget { ch := (ab 9).ch, id := (ip 3 9 16385).id, seq := 9 } = none) ∧ (live.takes sysRegReadSpec rr = true) ∧ (2 = fieldAt rr.pkt.params 0 2) ∧ (live.takes sysRegWriteSpec rw = true) ∧ (1 = fieldAt rw.pkt.params 0 2) ∧ (live.takes sysChanSetSpec cs = true) ∧ (193 = fieldAt cs.pkt.params 0 2) ∧ (0 = fieldAt cs.pkt.params 2 1) ∧ (true = bitAt (fieldAt cs.pkt.params 3 1) 0) ∧ (77 = fieldAt cs.pkt.params 4 2)) ∧
    ((((live.entered sysChanSetSpec cs).setChan 193 0 true 77 (fieldAt cs.pkt.params 6 2)).managed = true) ∧ (130 ≤ 193 → ∀ k < 64, 130 + k ≠ 193 → ((live.entered sysChanSetSpec cs).chan (130 + k)).bound = none ∨ ((live.entered sysChanSetSpec cs).chan (130 + k)).source ≠ 77) ∧ (3 ≤ 193 → 193 ≤ 65 → (live.entered sysChanSetSpec cs).pcie.vfEnable = true ∧ 193 - 2 ≤ (live.entered sysChanSetSpec cs).pcie.numVfs) ∧ (live.takes sysChanStatusSpec st = true) ∧ (live.chan 193 = (live.entered sysChanStatusSpec st).chan (fieldAt st.pkt.params 0 2)) ∧ (live.takes sysRingSetSpec r0 = true) ∧ (0 = fieldAt r0.pkt.params 0 1) ∧ (66 = 66 + 0) ∧ (fieldAt r0.pkt.params 24 4 = 0) ∧ (live.takes sysRingSetSpec r1 = true) ∧ (0 = fieldAt r1.pkt.params 0 1) ∧ (4096 = fieldAt r1.pkt.params 8 8)) ∧
    ((1048576 = fieldAt r1.pkt.params 16 8) ∧ (65536 = fieldAt r1.pkt.params 24 4) ∧ (65536 ≠ 0) ∧ (4096 + 64 + 65536 ≤ 1048576 ∨ 1048576 + 64 + 65536 ≤ 4096) ∧ ((live.entered sysRingSetSpec r1).mapsRw 0 4096 (64 + 65536) = true) ∧ ((live.entered sysRingSetSpec r1).mapsRw 0 1048576 (64 + 65536) = true)) ∧
    ((live.entered sysRingSetSpec r1).ringReset clsHost 0 4096 = (q1, true)) ∧
    (q1.ringReset clsHost 0 1048576 = (q2, true)) :=
  ⟨by decide +kernel,
    by decide +kernel,
    by decide +kernel,
    by decide +kernel,
    Prod.ext rfl (by decide +kernel),
    Prod.ext rfl (by decide +kernel)⟩
theorem witness_TransportRows :
    ((live.power.rung < 3) ∧ (live.serves 2 0 = true) ∧ (arg14.length < 32 ∨ 1056 < arg14.length) ∧ (arg15.length < 32 ∨ 1056 < arg15.length) ∧ (live.serves 2 pp.1 = true)) ∧
    (parsePacket pb = some (pp.1, pp.2)) ∧
    ((pp.2.framed pp.1 = false) ∧ ((List.find? (fun sp => decide (sp.opcode = pp.1)) commandSpecs).isSome = true) ∧ (live.boot.resetDue = false) ∧ (m1.power.rung < 4) ∧ (m1.serves 1 0 = true) ∧ (0 < 64) ∧ (66 = 66 + 0) ∧ (X Rb = Rb.chan 66) ∧ (Rb.serves 66 0 = true) ∧ ((X Rb).ringLen ≠ 0) ∧ (Rb.power.rung < 2)) ∧
    (Rb.readBy clsHost 0 (X Rb).cmdRing 8 = (sA Rb, Except.ok (leBytes 8 32))) ∧
    ((sA Rb).readBy clsHost 0 ((X Rb).repRing + 8) 8 = (sB Rb, Except.ok (zeros 8))) ∧
    ((ww Rb 0 = ((sB Rb).modChan 66 fun c => { bound := c.bound, state := c.state, e := c.e, rseq := c.rseq, discards := c.discards, source := c.source, udpPort := c.udpPort, peer := c.peer, inProg := c.inProg, kept := c.kept, aborts := c.aborts, nextId := c.nextId, cmdRing := c.cmdRing, repRing := c.repRing, ringLen := c.ringLen, pollUs := c.pollUs, cons := c.cons, prod := c.prod, repCons := leNat (zeros 8), held := c.held }).flushReplies 66) ∧ (arg16 = (ww Rb 0).chan 66) ∧ (ringBad (leNat (leBytes 8 32)) (X Rb).ringLen = true ∨ ringBad (leNat (zeros 8)) (X Rb).ringLen = true) ∧ (X R1 = R1.chan 66) ∧ (R1.serves 66 0 = true) ∧ ((X R1).ringLen ≠ 0) ∧ (R1.power.rung < 2)) ∧
    (R1.readBy clsHost 0 (X R1).cmdRing 8 = (sA R1, Except.ok (zeros 8))) ∧
    ((sA R1).readBy clsHost 0 ((X R1).repRing + 8) 8 = (sB R1, Except.ok (zeros 8))) ∧
    ((ww R1 0 = ((sB R1).modChan 66 fun c => { bound := c.bound, state := c.state, e := c.e, rseq := c.rseq, discards := c.discards, source := c.source, udpPort := c.udpPort, peer := c.peer, inProg := c.inProg, kept := c.kept, aborts := c.aborts, nextId := c.nextId, cmdRing := c.cmdRing, repRing := c.repRing, ringLen := c.ringLen, pollUs := c.pollUs, cons := c.cons, prod := c.prod, repCons := leNat (zeros 8), held := c.held }).flushReplies 66) ∧ (arg17 = (ww R1 0).chan 66) ∧ (ringBad (leNat (zeros 8)) (X R1).ringLen = false) ∧ (arg17.state = ChanState.error ∨ 16 ≤ arg17.inProg.length ∨ leNat (zeros 8) = arg17.cons ∨ ringRoom arg17.prod (leNat (zeros 8)) (X R1).ringLen ≤ 1088 * (arg17.inProg.length + arg17.held.length + 1)) ∧ (X R2 = R2.chan 66) ∧ (R2.serves 66 0 = true) ∧ ((X R2).ringLen ≠ 0) ∧ (R2.power.rung < 2)) ∧
    (R2.readBy clsHost 0 (X R2).cmdRing 8 = (sA R2, Except.ok (leBytes 8 64))) ∧
    ((sA R2).readBy clsHost 0 ((X R2).repRing + 8) 8 = (sB R2, Except.ok (zeros 8))) ∧
    ((w2 = ((sB R2).modChan 66 fun c => { bound := c.bound, state := c.state, e := c.e, rseq := c.rseq, discards := c.discards, source := c.source, udpPort := c.udpPort, peer := c.peer, inProg := c.inProg, kept := c.kept, aborts := c.aborts, nextId := c.nextId, cmdRing := c.cmdRing, repRing := c.repRing, ringLen := c.ringLen, pollUs := c.pollUs, cons := c.cons, prod := c.prod, repCons := leNat (zeros 8), held := c.held }).flushReplies 66) ∧ (w2.chan 66 = w2.chan 66) ∧ (ringBad (leNat (leBytes 8 64)) (X R2).ringLen = false) ∧ (ringBad (leNat (zeros 8)) (X R2).ringLen = false) ∧ ((w2.chan 66).state ≠ ChanState.error) ∧ (leNat (leBytes 8 64) ≠ (w2.chan 66).cons) ∧ ((w2.chan 66).inProg.length < 16) ∧ (1088 * ((w2.chan 66).inProg.length + (w2.chan 66).held.length + 1) < ringRoom (w2.chan 66).prod (leNat (zeros 8)) (X R2).ringLen)) ∧
    (w2.readBy clsHost 0 ((X R2).cmdRing + 64 + (w2.chan 66).cons) 64 = (s3, Except.ok arg18)) ∧
    ((fieldAt arg18 0 2 ≠ 0) ∧ (64 = recordSize arg18) ∧ ((w2.chan 66).cons + 64 ≤ (X R2).ringLen)) ∧
    (s3.readBy clsHost 0 ((X R2).cmdRing + 64 + (w2.chan 66).cons) 64 = (s4, Except.ok arg18)) ∧
    (s4.writeBy clsHost 0 ((X R2).cmdRing + 8) (leBytes 8 (((w2.chan 66).cons + 64) % (X R2).ringLen)) = (s5, Except.ok ())) ∧
    ((MBX.serves (0 + 2) 0 = true) ∧ (ringLenOk (MBX.fn 0).mbLen = true) ∧ ((MBX.fn 0).d3 = false) ∧ ((MBX.fn 0).flr = false) ∧ (MBX.power.rung < 3) ∧ (MBX.masterReason 0 = none) ∧ (arg19 = (MBX.modChan (0 + 2) fun c => { bound := c.bound, state := c.state, e := c.e, rseq := c.rseq, discards := c.discards, source := c.source, udpPort := c.udpPort, peer := c.peer, inProg := c.inProg, kept := c.kept, aborts := c.aborts, nextId := c.nextId, cmdRing := c.cmdRing, repRing := c.repRing, ringLen := c.ringLen, pollUs := c.pollUs, cons := c.cons, prod := c.prod, repCons := hb.repCons, held := c.held }).flushReplies (0 + 2)) ∧ (hb.ok = false) ∧ (arg19 = (MBX.modChan (0 + 2) fun c => { bound := c.bound, state := c.state, e := c.e, rseq := c.rseq, discards := c.discards, source := c.source, udpPort := c.udpPort, peer := c.peer, inProg := c.inProg, kept := c.kept, aborts := c.aborts, nextId := c.nextId, cmdRing := c.cmdRing, repRing := c.repRing, ringLen := c.ringLen, pollUs := c.pollUs, cons := c.cons, prod := c.prod, repCons := h0.repCons, held := c.held }).flushReplies (0 + 2)) ∧ (h0.ok = true) ∧ (h0.prod = (arg19.chan (0 + 2)).cons) ∧ (ringBad h0.prod (MBX.fn 0).mbLen = false)) ∧
    ((ringBad h0.repCons (MBX.fn 0).mbLen = false) ∧ (List.find? (fun e => decide (e.seq = 9) && !e.stale) (DL.chan 2).inProg = some (ip 3 9 32774)) ∧ (List.find? (fun d => decide (d.2.1.ch = 2) && decide (d.2.1.id = (ip 3 9 32774).id)) DL.storage.deletes = some arg20) ∧ (List.find? (fun e => decide (e.seq = 9) && !e.stale) (BD.chan 2).inProg = some (ip 3 9 4098)) ∧ (List.find? (fun d => decide (d.2.1.ch = 2) && decide (d.2.1.id = (ip 3 9 4098).id)) BD.storage.deletes = none) ∧ (List.find? (fun e => decide (e.seq = 9) && !e.stale) (AG.chan 2).inProg = some (ip 3 9 12290)) ∧ (List.find? (fun d => decide (d.2.1.ch = 2) && decide (d.2.1.id = (ip 3 9 12290).id)) AG.storage.deletes = none) ∧ (List.find? (fun e => decide (e.seq = 9) && !e.stale) (AN.chan 2).inProg = some (ip 3 9 16385)) ∧ (List.find? (fun d => decide (d.2.1.ch = 2) && decide (d.2.1.id = (ip 3 9 16385).id)) AN.storage.deletes = none)) :=
  ⟨by decide +kernel,
    rfl,
    by decide +kernel,
    Prod.ext rfl (by decide +kernel),
    Prod.ext rfl (by decide +kernel),
    by decide +kernel,
    Prod.ext rfl (by decide +kernel),
    Prod.ext rfl (by decide +kernel),
    by decide +kernel,
    Prod.ext rfl (by decide +kernel),
    Prod.ext rfl (by decide +kernel),
    by decide +kernel,
    Prod.ext rfl (by decide +kernel),
    by decide +kernel,
    Prod.ext rfl (by decide +kernel),
    Prod.ext rfl (by decide +kernel),
    by decide +kernel,
    by decide +kernel⟩
theorem witness_RegisterWrites :
    ((RR.regAt 68719476728 = none) ∧ (536870932 % 8 ≠ 0) ∧ (95 < nFacets) ∧ (baseTBL + 65536 * 95 = baseTBL + 65536 * 95) ∧ (baseFCT + 1048576 * 95 + 48 = baseFCT + 1048576 * 95 + 48) ∧ (7 < 8) ∧ ((RR.rail 6).set ≠ 0) ∧ (baseMEM + 268435456 * 7 + 24 = baseMEM + 268435456 * 7 + 24) ∧ (baseZLK + 24 = baseZLK + 24) ∧ (baseLOG + 16 = baseLOG + 16) ∧ (baseNVC + 131072 = baseNVC + 131072)) :=
  by decide +kernel

end W09

/-! ## Witnesses: Fabric -/

namespace W10

/-- Link 0 runs in fabric mode; device 3; device 7 lies on link 0, device 9 on link 20 (another die). -/
def fab (s : State := live) : State :=
  { s with fabric := { s.fabric with id := 3, lock := 1, routes := [(7, BitVec.ofNat 64 (2^63))] }
           power := { s.power with rails := [(6, { Rail.initial with set := 750 })] }
           eth := { s.eth with links := [(0, { EthLink.initial with state := .up })], ports := [(0, { EthPort.initial with enable := true })] } }
def N := fab
def adj (key : BitVec 64) (up : Bool) : Adjacency := { link := 0, key, rlink := 5, id := 7, delay := 100, hellos := 3, heard := 500, up, cprio := 1, ckey := 5, cdist := 2 }
def NA : State := { N with fabric := { N.fabric with adjs := [adj 9 true] } }
/-- The HELLO on link 0. -/
def hello : ZFrame := { N.zblank 0xA 0xFFFF with
  payload := leBytes 8 key64.toNat ++ leBytes 2 N.fabric.id ++ leBytes 1 0 ++ leBytes 1 N.fabric.priority ++ leBytes 1 N.candidate.prio ++ leBytes 1 N.candidate.dist ++
    zeros 2 ++ leBytes 8 N.candidate.key.toNat ++ leBytes 4 0 ++ zeros 4 }
def ownHello : ZFrame := { hello with src := 3, dst := 0xFFFF }
def aHello : ZFrame := { hello with payload := leBytes 8 9 ++ hello.payload.drop 8 }
def lsa (n : Nat) : ZFrame := { zframe 0xB (leBytes 8 9 ++ leBytes 2 7 ++ leBytes 2 7 ++ leBytes 2 0 ++ leBytes 1 n ++ leBytes 1 1 ++ (List.replicate n 5 ++ zeros (64 - n)) ++ leBytes 8 77 ++ leBytes 1 2 ++ leBytes 1 3 ++ zeros 2 ++ leBytes 4 100) with dst := 0xFFFD }
def NB : State := { NA with fabric := { NA.fabric with adjs := [{ adj 9 true with cprio := 0, ckey := 1 }] } }
def routes (key : Nat) (cand : Nat) (ep first n idx : Nat) : ZFrame := { zframe 0xC (leBytes 8 key ++ leBytes 8 cand ++ leBytes 2 7 ++ leBytes 2 ep ++ leBytes 2 first ++ leBytes 2 n ++ leBytes 1 idx ++ leBytes 1 0 ++ zeros 6 ++ zeros 64 ++ (List.range n).flatMap fun j => leBytes 8 (2^63 + j)) with dst := 0xFFFC }
def FM : State := { N with fabric := { N.fabric with candKey := key64, fmEpoch := 4, fmTable := [(9, 7), (key64, 3)], fmView := [⟨9, 7, 7, 3, [0], []⟩, ⟨key64, 3, 3, 4, [], []⟩] } }
def NF : State := { NB with fabric := { NB.fabric with candKey := 1 } }
def NX : State := { NF with fabric := { NF.fabric with excluded := [(1, 5000)] } }
def jb (s : State) : State := let s := fab s; { s with fabric := { s.fabric with bindings := [bd] } }
where bd : Binding := { inst := 0, job := 5, parcel := 0, rank := 0, gen := 0, ranktab := [3, 7] }
def bd : Binding := { inst := 0, job := 5, parcel := 0, rank := 0, gen := 0, ranktab := [3, 7] }
def J : State := jb (job { cut1 with jobSize := 2, ranktab := [3, 7] } run4 id)
def in0 (s : State) (z : ZFrame) : State := match z.hasPsn with | true => took s 0 z | false => (s.zIngress 0 z).1
def in1 (s : State) (z : ZFrame) : State := (in0 s z).charge 0 3 z.wire
def wr : ZFrame := { zframe 1 (List.replicate 16 7) with last := true, sig := true, tokn := 1, tag := 9, addr := 0x1FFFF0 }
def wrs (s : State) : List (Nat × Nat) := match s.rangesOf 0 0x1FFFF0 16 true with | .ok r => r | .error _ => []
def w2 : State := match (in1 J wr).saveAll (some (0, 0)) (wrs (in1 J wr)) wr.payload with | .ok s => s | .error _ => J
def rd : ZFrame := { zframe 2 (leBytes 4 0 ++ leBytes 4 4112) with last := true, tag := 9, addr := 0x1000 }
def rdr : List (Nat × Nat) := match (in1 J rd).rangesOf 0 0x1000 4112 false with | .ok r => r | .error _ => []
def rdb : List Byte := match (in1 J rd).loadAll (some (0, 0)) rdr with | .ok r => r | .error _ => []
def dt : ZFrame := { zframe 3 (List.replicate 144 7) with last := true, tag := 9, addr := 0x100, sfx := 3, sfy := 3 }
def tk : ZFrame := { zframe 4 [] with last := true, sig := true, tokn := 1, tag := 9 }
def dn : ZFrame := { zframe 5 [] with last := true, tag := 9 }
def fl : ZFrame := { zframe 6 (leBytes 2 0x20 ++ zeros 14) with last := true, tag := 9 }
def pin (sig : Option (Nat × Nat × Nat × Nat)) (err : Option Nat) : PeerIn := ⟨7, 9, 1, 1, 5, 0, sig, err, true, false⟩
def JP (x : PeerIn) : State := { J with fabric := { J.fabric with peersIn := [x] } }
def JF : State := { J with fabric := { J.fabric with flows := [(14, { Flow.initial with unacked := [⟨{ zframe 8 [] with psn := 4 }, 1, 50⟩, ⟨{ zframe 8 [] with psn := 5 }, 1, 60⟩] })] } }
def JC : State := J.modChan 130 fun c => { c with bound := some 0, state := .synced, source := 7 }
def cf : ZFrame := { zframe 9 (zeros 32) with last := true }
def en : ZFrame := { zframe 0xD (zeros 60) with last := true }
def rs0 : ZFrame := { zframe 0xE (leBytes 1 7 ++ zeros 3) with last := true }
def rs1 : ZFrame := { zframe 0xE (leBytes 1 7 ++ leBytes 1 1 ++ zeros 2) with last := true }
def JG : State := { J with fabric := { J.fabric with flows := [(15, { Flow.initial with failed := true, txNext := 8 })] } }
def fw (h : Nat) : ZFrame := { zframe 1 (zeros 16) with dst := 0x3FFF, hops := h }
def J2 (l : Nat) : State := { J with fabric := { J.fabric with routes := [(0x3FFF, BitVec.ofNat 64 (2^63 + l * 2^55))] }, eth := { J.eth with links := J.eth.links ++ [(20, { EthLink.initial with state := .up })], ports := J.eth.ports ++ [(5, { EthPort.initial with enable := true })] } }
def RX : State := { J with fabric := { J.fabric with flows := [(15, { Flow.initial with rxSince := some 90, rxDue := 3, rxNext := 6 })] } }
def an (p : Nat) : Announce := { prio1 := p, cls := 6, acc := 0, var := 0, prio2 := 0, gm := 5, steps := 1, src := 5, port := 1, path := [5] }
def SL : State := { J with fabric := { J.fabric with announces := [(0, an 0)], goodSync := 7, lock := 0 } }
def v0 (s : State) (m : GptpMsg) : State := (msgFrames m).foldl (fun s n => s.countRx 0 n) s
def bad : Announce := { an 0 with steps := 255 }
def LK : State := { SL with fabric := { SL.fabric with lock := 1 } }
def gs (s : State) (n : Nat) (y : Nat) : List State := let u := ((s.nextGptp 0 2).2).queueGptp 0 (.pdelayReq n); [u, ((u.nextGptp 0 1).2).queueGptp 0 (.announce y (s.announceOn 0))]
def ML : State := { SL with fabric := { SL.fabric with announces := [(4, an 0)] } }
def GE : State := { J with fabric := { J.fabric with gates := [(15, { PortGates.initial with admin := [⟨200, 0x7F⟩, ⟨300, 0xFF⟩], adminOn := true, next := [⟨200, 0xFF⟩], adminAt := some 500, idx := 1, since := 40 })] } }
def GE2 : State := { J with fabric := { J.fabric with gates := [(15, { PortGates.initial with next := [⟨200, 0xFF⟩, ⟨200, 0x40⟩], adminAt := some 500 })] } }
def gset : Cmd := cmd 0x5001 (fields [(1,15),(1,0),(2,2),(4,0),(8,77),(4,200),(1,0xFF),(3,0),(4,300),(1,0x40),(3,0)])
def jg : Cmd := cmd 0x5002 (fields [(1,0),(3,0),(4,5)])
def ng : Cmd := cmd 0x5003 (fields [(1,0),(7,0)])
def GG : State := { GE with fabric := { GE.fabric with gates := [(15, { PortGates.initial with gated := true })] } }
def arg1 : List FmDevice := [⟨5, 1, 0, 0, [], []⟩, ⟨6, 2, 2, 0, [], []⟩]
def arg2 : List (BitVec 64 × ℕ) := [(5, 2), (6, 2)]
def arg3 : FmDevice := ⟨5, 1, 0, 0, [], []⟩
def arg4 : List FmDevice := [⟨6, 2, 2, 0, [], []⟩]
def arg5 : Option Adjacency := some (adj 9 true)
def arg6 : ZFrame := routes 9 5 1 0 1 64
def arg7 : ZFrame := routes key64.toNat N.fabric.candKey.toNat 1 0 0 0
def arg8 : ZFrame := routes key64.toNat N.fabric.candKey.toNat 1 16383 1 0
def arg9 : FmDevice := ⟨9, 7, 7, 3, [0], []⟩
def arg10 : State := JP (pin none (some 0x20))
def arg11 : PeerIn := pin none (some 0x20)
def arg12 : State := JP (pin none none)
def arg13 : State := JP (pin (some (3, 3, 31, 7)) none)
def arg14 : PeerIn := pin (some (3, 3, 31, 7)) none
def arg15 : State := JP (pin (some (4, 3, 31, 7)) none)
def arg16 : PeerIn := pin (some (4, 3, 31, 7)) none
def arg17 : State := ((J.countRx 0 (fw 1).wire).wakeDeep)
def arg18 : State := (((J2 0).countRx 0 (fw 2).wire).wakeDeep)
def arg19 : State := (((J2 20).countRx 0 (fw 2).wire).wakeDeep)
def arg20 : State := v0 SL (.sync 100)
def arg21 : State := v0 SL (.sync (-1001))
def arg22 : State := v0 J (.sync 100)
def arg23 : State := v0 J (.pdelay 100)
def arg24 : GptpMsg := .pdelayReq 1 5 2
def arg25 : State := v0 J (.pdelayReq 1 5 2)
def arg26 : GptpMsg := .announce (an 0)
def arg27 : State := v0 J (.announce (an 0))
def arg28 : GptpMsg := .announce (an 9)
def arg29 : State := v0 SL (.announce (an 9))
def arg30 : State := v0 J (.announce bad)
def arg31 : State := { J with fabric := { J.fabric with masterAt := some 5 } }
def arg32 : State := (gs J 0 0).headD J
def arg33 : State := ((gs J 0 0).drop 1).headD J
def arg34 : State := (gs SL 0 0).headD J
def arg35 : State := ((gs SL 0 0).drop 1).headD J
def arg36 : State := (gs ML 0 0).headD J
def arg37 : State := ((gs ML 0 0).drop 1).headD J
def arg38 : List GateEntry := gateEntries (gset.pkt.params.drop 16)
def arg39 : State := { NA with fabric := { NA.fabric with edge := [0] } }
def arg40 : State := { J with fabric := { J.fabric with discards := [(3, 77)] } }

theorem witness_FabricElection :
    ((arg1 = [] ++ arg3 :: arg4) ∧ (heldId arg2 arg3 = some 2) ∧ (∀ e ∈ [], heldId arg2 e ≠ some 2)) :=
  by decide +kernel
theorem witness_FabricDiscovery (hk : key64 ≠ 9) (h1 : key64 ≠ 1) :
    ((N.zarenLink 0 = true) ∧ (subExists (N.port (portOf 0)).split (0 % 4) = true) ∧ (NA.special 0 ownHello 10 65535 = true)) ∧
    (fieldAt ownHello.payload 0 8 = key64.toNat) ∧
    ((NA.special 0 aHello 10 65535 = true) ∧ (9 = BitVec.ofNat 64 (fieldAt aHello.payload 0 8))) ∧
    (9 ≠ key64) ∧
    ((List.find? (fun a => decide (a.link = 0) && decide (a.key = 9)) NA.fabric.adjs = arg5) ∧ (arg5.isSome = true ∨ (List.filter (fun a => decide (a.link = 0)) NA.fabric.adjs).length < 32) ∧ (N.special 0 aHello 10 65535 = true) ∧ (List.find? (fun a => decide (a.link = 0) && decide (a.key = 9)) N.fabric.adjs = none) ∧ ((none : Option Adjacency).isSome = true ∨ (List.filter (fun a => decide (a.link = 0)) N.fabric.adjs).length < 32) ∧ (List.find? (fun a => decide (a.link = 0) && decide (a.key = 9)) NA.fabric.adjs = some (adj 9 true)) ∧ (NB.special 0 (lsa 63) 11 65533 = true) ∧ (fieldAt (lsa 63).payload 14 1 < 64) ∧ ((NB.countRx 0 (lsa 63).wire).candidate.link = some 0) ∧ (NB.special 0 (lsa 0) 11 65533 = true) ∧ (fieldAt (lsa 0).payload 14 1 < 64) ∧ ((NB.countRx 0 (lsa 0).wire).candidate.link = some 0)) ∧
    ((N.special 0 (lsa 63) 11 65533 = true) ∧ ((N.countRx 0 (lsa 63).wire).candidate.link = none) ∧ (N.special 0 arg6 12 65532 = true) ∧ (0 < fieldAt arg6.payload 24 1) ∧ (fieldAt arg6.payload (31 + fieldAt arg6.payload 24 1) 1 < 64) ∧ (N.special 0 arg7 12 65532 = true) ∧ (fieldAt arg7.payload 24 1 = 0)) ∧
    (fieldAt arg7.payload 0 8 = key64.toNat) ∧
    ((fieldAt arg7.payload 22 2 = 0 ∨ fieldAt arg7.payload 18 2 = N.fabric.epoch) ∧ (N.special 0 arg8 12 65532 = true) ∧ (fieldAt arg8.payload 24 1 = 0)) ∧
    (fieldAt arg8.payload 0 8 = key64.toNat) ∧
    ((fieldAt arg8.payload 22 2 ≠ 0) ∧ (fieldAt arg8.payload 18 2 ≠ N.fabric.epoch)) ∧
    (FM.isFm = true) ∧
    ((List.find? (fun d => decide (d.key = 9)) FM.fabric.fmView = some arg9) ∧ (arg9.epoch ≠ FM.fabric.fmEpoch)) ∧
    (NF.isFm = false) ∧
    (List.find? (fun e => decide (e.1 = 1)) NX.fabric.excluded = some (1, 5000)) :=
  ⟨by decide +kernel,
    (fieldAt_leBytes 8 _ _).trans (Nat.mod_eq_of_lt key64.isLt),
    by decide +kernel,
    hk.symm,
    by decide +kernel,
    by decide +kernel,
    (fieldAt_leBytes 8 _ _).trans (Nat.mod_eq_of_lt key64.isLt),
    by decide +kernel,
    (fieldAt_leBytes 8 _ _).trans (Nat.mod_eq_of_lt key64.isLt),
    by decide +kernel,
    decide_eq_true (by rfl),
    by decide +kernel,
    decide_eq_false (fun h => h1 h.symm),
    rfl⟩
theorem witness_FabricTransfers (hf : Config.freeValue 0 % 2 = 0) :
    (JobFrame J 0 wr 1 (in1 J wr) bd) ∧
    (((in1 J wr).rangesOf wr.inst wr.addr wr.payload.length true = Except.ok (wrs (in1 J wr))) ∧ ((in1 J wr).saveAll (some (wr.inst, bd.gen)) (wrs (in1 J wr)) wr.payload = Except.ok w2)) ∧
    (JobFrame J 0 rd 2 (in1 J rd) bd) ∧
    ((4112 = fieldAt rd.payload 4 4) ∧ ((in1 J rd).rangesOf rd.inst rd.addr 4112 false = Except.ok rdr) ∧ ((in1 J rd).loadAll (some (rd.inst, bd.gen)) rdr = Except.ok rdb)) ∧
    (JobFrame J 0 dt 3 (in1 J dt) bd) ∧
    (JobFrame J 0 tk 4 (in1 J tk) bd) ∧
    (JobFrame J 0 dn 5 (in1 J dn) bd) ∧
    (JobFrame J 0 fl 6 (in1 J fl) bd) ∧
    ((List.find? (fun t => decide (t.src = 7) && decide (t.tag = 9) && t.last && !t.lost) arg10.fabric.peersIn = some arg11) ∧ (List.find? (fun b => decide (b.inst = arg11.inst) && decide (b.job = arg11.job)) arg10.fabric.bindings = some bd) ∧ (List.find? (fun t => decide (t.src = 7) && decide (t.tag = 9) && t.last && !t.lost) arg12.fabric.peersIn = some (pin none none)) ∧ (List.find? (fun b => decide (b.inst = (pin none none).inst) && decide (b.job = (pin none none).job)) arg12.fabric.bindings = some bd) ∧ (List.find? (fun t => decide (t.src = 7) && decide (t.tag = 9) && t.last && !t.lost) arg13.fabric.peersIn = some arg14) ∧ (List.find? (fun b => decide (b.inst = arg14.inst) && decide (b.job = arg14.job)) arg13.fabric.bindings = some bd) ∧ (List.find? (fun t => decide (t.src = 7) && decide (t.tag = 9) && t.last && !t.lost) arg15.fabric.peersIn = some arg16) ∧ (List.find? (fun b => decide (b.inst = arg16.inst) && decide (b.job = arg16.job)) arg15.fabric.bindings = some bd) ∧ (JC.fabricChan cf.src = some 130) ∧ (cf.typ = 9)) ∧
    (JC.zIngress 0 cf = (in0 JC cf, true)) ∧
    (en.typ = 13) ∧
    (J.zIngress 0 en = (in0 J en, true)) ∧
    (rs0.typ = 14) ∧
    (JF.zIngress 0 rs0 = (in0 JF rs0, true)) ∧
    ((7 = fieldAt rs0.payload 0 1) ∧ (fieldAt rs0.payload 1 1 = 0) ∧ (rs1.typ = 14)) ∧
    (JG.zIngress 0 rs1 = (in0 JG rs1, true)) ∧
    ((7 = fieldAt rs1.payload 0 1) ∧ (fieldAt rs1.payload 1 1 = 1) ∧ (((in0 JG rs1).flow (flowKey rs1.src 7)).failed = true) ∧ (J.zarenLink 0 = true) ∧ (J.power.rung < 3) ∧ ((fw 1).malformed = false) ∧ ((fw 1).dst ≠ J.fabric.id) ∧ ((fw 1).dst < 16384) ∧ (arg17 = if (fw 1).typ ≤ 9 ∨ (fw 1).typ = 13 then (J.countRx 0 (fw 1).wire).wakeDeep else J.countRx 0 (fw 1).wire) ∧ ((fw 1).hops ≤ 1 ∨ arg17.wayTo (fw 1).src (fw 1).dst = none) ∧ ((J2 0).zarenLink 0 = true) ∧ ((J2 0).power.rung < 3)) ∧
    (((fw 2).malformed = false) ∧ ((fw 2).dst ≠ (J2 0).fabric.id) ∧ ((fw 2).dst < 16384) ∧ (arg18 = if (fw 2).typ ≤ 9 ∨ (fw 2).typ = 13 then ((J2 0).countRx 0 (fw 2).wire).wakeDeep else (J2 0).countRx 0 (fw 2).wire) ∧ (1 < (fw 2).hops) ∧ (arg18.wayTo (fw 2).src (fw 2).dst = some (((J2 0).wayTo 7 16383).getD 99)) ∧ ((J2 20).zarenLink 0 = true) ∧ ((J2 20).power.rung < 3) ∧ ((fw 2).dst ≠ (J2 20).fabric.id) ∧ (arg19 = if (fw 2).typ ≤ 9 ∨ (fw 2).typ = 13 then ((J2 20).countRx 0 (fw 2).wire).wakeDeep else (J2 20).countRx 0 (fw 2).wire) ∧ (arg19.wayTo (fw 2).src (fw 2).dst = some (((J2 20).wayTo 7 16383).getD 99))) :=
  ⟨job_of hf (by decide +kernel),
    by decide +kernel,
    job_of hf (by decide +kernel),
    by decide +kernel,
    job_of hf (by decide +kernel),
    job_of hf (by decide +kernel),
    job_of hf (by decide +kernel),
    job_of hf (by decide +kernel),
    by decide +kernel,
    zIngress_took hf (by decide +kernel),
    by decide +kernel,
    Prod.ext rfl (by decide +kernel),
    by decide +kernel,
    Prod.ext rfl (by decide +kernel),
    by decide +kernel,
    Prod.ext rfl (by decide +kernel),
    by decide +kernel,
    by decide +kernel⟩
theorem witness_FabricTimeAndGates (h5 : 5 ≠ clockId) :
    (((RX.flow (flowKey 7 7)).rxSince = some 90) ∧ ((JG.flow (flowKey 7 7)).failed = true) ∧ (0 < 64) ∧ (SL.fabricLink 0 = true) ∧ ((SL.link 0).state = LinkState.up) ∧ (arg20 = List.foldl (fun s n => s.countRx 0 n) SL (msgFrames (GptpMsg.sync 100))) ∧ (GptpMsg.sync 100 = GptpMsg.sync 100) ∧ (SL.master.2 = some 0) ∧ (arg21 = List.foldl (fun s n => s.countRx 0 n) SL (msgFrames (GptpMsg.sync (-1001)))) ∧ (GptpMsg.sync (-1001) = GptpMsg.sync (-1001)) ∧ (J.fabricLink 0 = true) ∧ ((J.link 0).state = LinkState.up)) ∧
    ((arg22 = List.foldl (fun s n => s.countRx 0 n) J (msgFrames (GptpMsg.sync 100))) ∧ (J.master.2 ≠ some 0) ∧ (arg23 = List.foldl (fun s n => s.countRx 0 n) J (msgFrames (GptpMsg.pdelay 100))) ∧ (GptpMsg.pdelay 100 = GptpMsg.pdelay 100) ∧ (arg25 = List.foldl (fun s n => s.countRx 0 n) J (msgFrames arg24)) ∧ (arg24 = GptpMsg.pdelayReq 1 5 2) ∧ (arg27 = List.foldl (fun s n => s.countRx 0 n) J (msgFrames arg26)) ∧ (arg26 = GptpMsg.announce (an 0))) ∧
    (annFits (an 0) = true) ∧
    ((J.fabric.announces.find 0 = none ∨ ∃ b, J.fabric.announces.find 0 = some b ∧ ((an 0).src = b.src ∧ (an 0).port = b.port ∨ lexLt (annRank (an 0)) (annRank b) = true)) ∧ (arg29 = List.foldl (fun s n => s.countRx 0 n) SL (msgFrames arg28)) ∧ (arg28 = GptpMsg.announce (an 9))) ∧
    (annFits (an 9) = true) ∧
    ((SL.fabric.announces.find 0 = none ∨ ∃ b, SL.fabric.announces.find 0 = some b ∧ ((an 9).src = b.src ∧ (an 9).port = b.port ∨ lexLt (annRank (an 9)) (annRank b) = true)) ∧ (arg30 = List.foldl (fun s n => s.countRx 0 n) J (msgFrames (GptpMsg.announce bad))) ∧ (GptpMsg.announce bad = GptpMsg.announce bad)) ∧
    (annFits bad = false) ∧
    ((LK.master.2 = some 0) ∧ (LK.fabric.lock = 1) ∧ (arg31.fabric.masterAt = some 5) ∧ (0 = J.fabric.gptpSeq.getD (4 * 0 + 2) 0) ∧ (arg32 = (J.nextGptp 0 2).2.queueGptp 0 (GptpOut.pdelayReq 0)) ∧ (0 = J.fabric.gptpSeq.getD (4 * 0 + 1) 0)) ∧
    (arg33 = (arg32.nextGptp 0 1).2.queueGptp 0 (GptpOut.announce 0 (J.announceOn 0))) ∧
    ((0 = J.fabric.gptpSeq.getD (4 * 0) 0) ∧ (J.masterPort 0 = true) ∧ (J.master.2 = none ∨ J.fabric.synced = true) ∧ (0 = SL.fabric.gptpSeq.getD (4 * 0 + 2) 0) ∧ (arg34 = (SL.nextGptp 0 2).2.queueGptp 0 (GptpOut.pdelayReq 0)) ∧ (0 = SL.fabric.gptpSeq.getD (4 * 0 + 1) 0)) ∧
    (arg35 = (arg34.nextGptp 0 1).2.queueGptp 0 (GptpOut.announce 0 (SL.announceOn 0))) ∧
    ((0 = SL.fabric.gptpSeq.getD (4 * 0) 0) ∧ (SL.masterPort 0 = false) ∧ (ML.fabricLink 0 = true) ∧ ((ML.link 0).state = LinkState.up) ∧ (0 = ML.fabric.gptpSeq.getD (4 * 0 + 2) 0) ∧ (arg36 = (ML.nextGptp 0 2).2.queueGptp 0 (GptpOut.pdelayReq 0)) ∧ (0 = ML.fabric.gptpSeq.getD (4 * 0 + 1) 0)) ∧
    (arg37 = (arg36.nextGptp 0 1).2.queueGptp 0 (GptpOut.announce 0 (ML.announceOn 0))) ∧
    ((0 = ML.fabric.gptpSeq.getD (4 * 0) 0) ∧ (ML.masterPort 0 = true) ∧ (ML.master.2.isSome = true) ∧ (ML.fabric.synced = false) ∧ (0 ∉ J.fabric.preempt) ∧ ((GE.gatesOf 15).inForce[(GE.gatesOf 15).idx]? = some { dur := 300, mask := 255 }) ∧ ((GE.gatesOf 15).adminAt = some 500) ∧ ((GE2.gatesOf 15).adminAt = some 500) ∧ (J.takes fabGateSetSpec gset = true) ∧ (arg38 = gateEntries (List.drop 16 gset.pkt.params)) ∧ (fieldAt gset.pkt.params 0 1 = 15) ∧ ((J.entered fabGateSetSpec gset).fabric.lock ≠ 0 ∨ fieldAt gset.pkt.params 2 2 ≤ 1)) ∧
    ((((J.entered fabGateSetSpec gset).gatesOf 15).gated = false) ∧ (∀ e ∈ arg38, 200 ≤ e.dur) ∧ (15 ∈ (J.entered fabGateSetSpec gset).fabric.edge ∨ ∀ e ∈ arg38, e.mask.getLsbD 6 = true) ∧ (J.takes fabJobGetSpec jg = true) ∧ (List.find? (fun b => decide (b.inst = fieldAt jg.pkt.params 0 1) && decide (b.job = fieldAt jg.pkt.params 4 4)) (J.entered fabJobGetSpec jg).fabric.bindings = some bd) ∧ (NA.takes fabNeighGetSpec ng = true) ∧ ([adj 9 true] = (NA.entered fabNeighGetSpec ng).fabric.upOn (fieldAt ng.pkt.params 0 1)) ∧ (15 < 16) ∧ ((GG.rail 6).set ≠ 0) ∧ ((GG.gatesOf 15).gated = true) ∧ (0 < 16) ∧ ((NA.rail 6).set ≠ 0)) ∧
    (((NA.gatesOf 0).gated = false) ∧ ((arg39.rail 6).set ≠ 0) ∧ ((arg39.gatesOf 0).gated = false) ∧ (3 < 4) ∧ ((arg40.rail 6).set ≠ 0)) :=
  ⟨by decide +kernel,
    by decide +kernel,
    by simp [annFits, an]; exact ⟨⟨decide_eq_true h5, decide_eq_true h5⟩, fun e => h5 e.symm⟩,
    by decide +kernel,
    by simp [annFits, an]; exact ⟨⟨decide_eq_true h5, decide_eq_true h5⟩, fun e => h5 e.symm⟩,
    by decide +kernel,
    by simp [annFits, bad, an],
    by decide +kernel,
    rfl,
    by decide +kernel,
    rfl,
    by decide +kernel,
    rfl,
    by decide +kernel,
    by decide +kernel,
    by decide +kernel⟩

end W10

/-! ## Witnesses: Fabric transfers, other paths -/

namespace W10t

/-- Link 0 runs in fabric mode; device 3; device 7 lies on link 0, device 9 on link 20 (another die). -/
def fab (s : State := live) : State :=
  { s with fabric := { s.fabric with id := 3, lock := 1, routes := [(7, BitVec.ofNat 64 (2^63))] }
           power := { s.power with rails := [(6, { Rail.initial with set := 750 })] }
           eth := { s.eth with links := [(0, { EthLink.initial with state := .up })], ports := [(0, { EthPort.initial with enable := true })] } }
def routes (key : Nat) (cand : Nat) (ep first n idx : Nat) : ZFrame := { zframe 0xC (leBytes 8 key ++ leBytes 8 cand ++ leBytes 2 7 ++ leBytes 2 ep ++ leBytes 2 first ++ leBytes 2 n ++ leBytes 1 idx ++ leBytes 1 0 ++ zeros 6 ++ zeros 64 ++ (List.range n).flatMap fun j => leBytes 8 (2^63 + j)) with dst := 0xFFFC }
def jb (s : State) : State := let s := fab s; { s with fabric := { s.fabric with bindings := [bd] } }
where bd : Binding := { inst := 0, job := 5, parcel := 0, rank := 0, gen := 0, ranktab := [3, 7] }
def bd : Binding := { inst := 0, job := 5, parcel := 0, rank := 0, gen := 0, ranktab := [3, 7] }
def J : State := jb (job { cut1 with jobSize := 2, ranktab := [3, 7] } run4 id)
def in0 (s : State) (z : ZFrame) : State := took s 0 z
def in1 (s : State) (z : ZFrame) : State := (in0 s z).charge 0 3 z.wire
def rd : ZFrame := { zframe 2 (leBytes 4 0 ++ leBytes 4 4112) with last := true, tag := 9, addr := 0x1000 }
def rdr : List (Nat × Nat) := match (in1 J rd).rangesOf 0 0x1000 4112 false with | .ok r => r | .error _ => []
def rdb : List Byte := match (in1 J rd).loadAll (some (0, 0)) rdr with | .ok r => r | .error _ => []
def dt : ZFrame := { zframe 3 (List.replicate 144 7) with last := true, tag := 9, addr := 0x100, sfx := 3, sfy := 3 }
def tk : ZFrame := { zframe 4 [] with last := true, sig := true, tokn := 1, tag := 9 }
def dn : ZFrame := { zframe 5 [] with last := true, tag := 9 }
def fl : ZFrame := { zframe 6 (leBytes 2 0x20 ++ zeros 14) with last := true, tag := 9 }
def pin (sig : Option (Nat × Nat × Nat × Nat)) (err : Option Nat) : PeerIn := ⟨7, 9, 1, 1, 5, 0, sig, err, true, false⟩
def JP (x : PeerIn) : State := { J with fabric := { J.fabric with peersIn := [x] } }
def arg1 : State := JP (pin none (some 0x20))
def arg2 : PeerIn := pin none (some 0x20)
def arg3 : State := JP (pin none none)

theorem witness_FabricTransfers (hf : Config.freeValue 0 % 2 = 0) :
    (JobFrame J 0 rd 2 (in1 J rd) bd) ∧
    ((4112 = fieldAt rd.payload 4 4) ∧ ((in1 J rd).rangesOf rd.inst rd.addr 4112 false = Except.ok rdr) ∧ ((in1 J rd).loadAll (some (rd.inst, bd.gen)) rdr = Except.ok rdb)) ∧
    (JobFrame J 0 dt 3 (in1 J dt) bd) ∧
    (JobFrame J 0 tk 4 (in1 J tk) bd) ∧
    (JobFrame J 0 dn 5 (in1 J dn) bd) ∧
    (JobFrame J 0 fl 6 (in1 J fl) bd) ∧
    ((List.find? (fun t => decide (t.src = 7) && decide (t.tag = 9) && t.last && !t.lost) arg1.fabric.peersIn = some arg2) ∧ (List.find? (fun b => decide (b.inst = arg2.inst) && decide (b.job = arg2.job)) arg1.fabric.bindings = some bd) ∧ (List.find? (fun t => decide (t.src = 7) && decide (t.tag = 9) && t.last && !t.lost) arg3.fabric.peersIn = some (pin none none)) ∧ (List.find? (fun b => decide (b.inst = (pin none none).inst) && decide (b.job = (pin none none).job)) arg3.fabric.bindings = some bd)) :=
  ⟨job_of hf (by decide +kernel),
    by decide +kernel,
    job_of hf (by decide +kernel),
    job_of hf (by decide +kernel),
    job_of hf (by decide +kernel),
    job_of hf (by decide +kernel),
    by decide +kernel⟩

end W10t

/-! ## Witnesses: Ethernet and the parser -/

namespace W11

/-- Link 0 up in edge mode, with rails and the queues' ring at 0x10000 of instance 0. -/
def E0 : State :=
  { live with fabric := { live.fabric with edge := [0] }
              power := { live.power with rails := [(6, { Rail.initial with set := 750 })] }
              eth := { live.eth with links := [(0, { EthLink.initial with state := .up })], ports := [(0, { EthPort.initial with enable := true })] } }
def rule (own stage prio : Nat) (value mask action : List Byte) : Rule := { owner := own, stage, prio, value, mask, action, frames := 0, bytes := 0 }
def act (v fl tgt : Nat) : List Byte := [BitVec.ofNat 8 v, BitVec.ofNat 8 fl, 0, 0] ++ leBytes 4 tgt ++ zeros 24
def r0 := rule 0 1 7 (zeros 80) (zeros 80) (act 1 0 5)
def r1 := rule 0 1 3 (zeros 80) (zeros 80) (act 0 0 5)
def B : State := { E0 with eth := { E0.eth with rules := [(0, r0), (3, r1), (9, r1)] } }
def fr (et n : Nat) (ok : Bool := true) : EthFrame := { bytes := List.replicate 12 2 ++ beBytes 2 et ++ zeros n, fcsOk := ok, phyOk := true, time := 99 }
def f1 := fr 0x9999 46
def pv (s : State) (f : EthFrame) := (s.countRx 0 (f.bytes.length + 4))
def ky (s : State) (f : EthFrame) := keyOf f.bytes ((pv s f).parse 0 f.bytes) 0 (s.port 0).l3sel false
def qq (e : Bool) (g : BitVec 16) (prod : Nat) : RxQueue := { inst := 0, gen := g, error := e, drops := 7, ring := 0x10000, len := 0x10000, prod, seq := 3 }
def Q (e : Bool) (g : BitVec 16) (prod : Nat) : State := { E0 with eth := { E0.eth with rules := [(0, r0)], queues := [(5, qq e g prod), (6, qq e g prod)] }, mem := mem [(0, mapTo 4), (4 * granule + 0x10008, leBytes 8 64)] }
def ri : RxInfo := { link := 0, flags := 0, rule1 := 0, rule2 := 0xFFFFFFFF, kinds := slice (ky E0 f1) 1 3, time := 99 }
def put (p q : Nat) : State × Nat := match (pv (Q false 0 p) f1).ringPut clsNet 0 0x10000 0x10000 p 64 (rxRecord ri q f1.bytes) (rxPad 3) with | .ok u n => (u, n) | _ => (E0, 0)
def M : State := { E0 with eth := { E0.eth with mgmtUp := true, mgmtIp4 := 0x0A000001 }, pins := { E0.pins with phyRst := false } }
def L (st : LinkState) : State := { E0 with eth := { E0.eth with links := [(63, { EthLink.initial with state := st, started := 5 })], ports := [(15, { EthPort.initial with enable := true, split := 2 })] }, pins := { E0.pins with ethClk := [(3, true)] } }
def rs (slot own st : Nat) (a : List Byte) : Cmd := cmd 0x6001 (fields [(2,slot),(1,own),(1,st-1),(2,5),(2,0)] ++ a ++ zeros 80 ++ zeros 80)
def rr (own st : Nat) (a : List Byte) := { rule own st 5 (zeros 80) (zeros 80) a with frames := 0 }
def rc := cmd 0x6002 (fields [(2,9),(6,0)])
def rg := cmd 0x6003 (fields [(2,9),(6,0)])
def qs (n : Nat) := cmd 0x6004 (fields [(2,5),(1,0),(1,0),(4,n),(8,0x10000)])
def QS := Q false 0 0
def qg := cmd 0x6005 (fields [(2,5),(6,0)])
def arg1 : EthFrame := fr 0x800 60 false
def arg2 : Parsed := (pv E0 f1).parse 0 f1.bytes
def arg3 : State := pv (Q true 0 0) f1
def arg4 : Parsed := (pv (Q true 0 0) f1).parse 0 f1.bytes
def arg5 : State := pv (Q false 3 0) f1
def arg6 : Parsed := (pv (Q false 3 0) f1).parse 0 f1.bytes
def arg7 : State := pv (Q false 0 64) f1
def arg8 : Parsed := (pv (Q false 0 64) f1).parse 0 f1.bytes
def arg9 : State := Q false 0 0xFFC0
def arg10 : State := pv (Q false 0 0xFFC0) f1
def arg11 : Parsed := (pv (Q false 0 0xFFC0) f1).parse 0 f1.bytes
def arg12 : RxQueue := qq false 0 0xFFC0
def arg13 : State := pv (Q false 0 0) f1
def arg14 : Parsed := (pv (Q false 0 0) f1).parse 0 f1.bytes
def arg15 : List Byte := [4,0,0,0,0,0,0,0,0,0,0,0,0,0]
def arg16 : Cmd := rs 65535 0 1 (act 0 0 0)
def arg17 : Rule := rr 0 1 (act 0 0 0)
def arg18 : Cmd := rs 9 0 2 (act 0 0 0)
def arg19 : Rule := rr 0 2 (act 0 0 0)
def arg20 : State := ((QS.entered netQueueSetSpec (qs 0x20000)).ringReset clsNet 0 0x10000).1
def arg21 : State := { B with eth := { B.eth with drops := [(31, 77), (30, 3)] } }

theorem witness_BestRuleWins :
    (List.Pairwise (fun x1 x2 => x1 < x2) (List.map (fun x => x.1) B.eth.rules)) ∧
    (B.bestRule 0 1 none (zeros 80) = some (3, r1)) ∧
    (((9, r1) ∈ B.eth.rules) ∧ ((9, r1).1 / 16384 = 0) ∧ ((9, r1).2.stage = 1) ∧ (∀ (o : ℕ), none = some o → (9, r1).2.owner = o) ∧ (List.zipWith (fun k m => k &&& m) (zeros 80) (9, r1).2.mask = (9, r1).2.value) ∧ (B.bestRule 0 2 none (zeros 80) = none)) :=
  ⟨by decide +kernel,
    rfl,
    by decide +kernel⟩
theorem witness_FrameRows :
    ((0 < 64) ∧ ((E0.link 0).state = LinkState.up) ∧ (E0.power.rung < 2) ∧ (E0.power.exiting = false) ∧ (E0.power.entering = none) ∧ (E0.power.held = []) ∧ (arg1.fcsOk = false ∨ arg1.phyOk = false) ∧ ((fr 4660 45).fcsOk = true) ∧ ((fr 4660 45).phyOk = true) ∧ ((fr 4660 45).bytes.length + 4 < 64 ∨ E0.linkLimit 0 < (fr 4660 45).bytes.length + 4) ∧ ((fr 34824 46).fcsOk = true) ∧ ((fr 34824 46).phyOk = true)) ∧
    ((64 ≤ (fr 34824 46).bytes.length + 4) ∧ ((fr 34824 46).bytes.length + 4 ≤ E0.linkLimit 0) ∧ (E0.fabricLink 0 = false) ∧ (wordAt (fr 34824 46).bytes 12 2 = 34824) ∧ (f1.fcsOk = true) ∧ (f1.phyOk = true) ∧ (64 ≤ f1.bytes.length + 4) ∧ (f1.bytes.length + 4 ≤ E0.linkLimit 0) ∧ (wordAt f1.bytes 12 2 ≠ 34824) ∧ (pv E0 f1 = E0.countRx 0 (f1.bytes.length + 4)) ∧ (E0.port 0 = E0.port (portOf 0)) ∧ (arg2 = (pv E0 f1).parse 0 f1.bytes)) ∧
    ((ky E0 f1 = keyOf f1.bytes arg2 0 (E0.port 0).l3sel false) ∧ ((pv E0 f1).bestRule (dieOfLink 0) 1 none (ky E0 f1) = none) ∧ ((E0.port 0).roce = false ∨ byteAt (ky E0 f1) 2 / 32 ≠ 4) ∧ ((E0.port 0).dverdict = 0) ∧ (((Q true 0 0).link 0).state = LinkState.up) ∧ ((Q true 0 0).power.rung < 2) ∧ ((Q true 0 0).power.exiting = false) ∧ ((Q true 0 0).power.entering = none) ∧ ((Q true 0 0).power.held = []) ∧ (f1.bytes.length + 4 ≤ (Q true 0 0).linkLimit 0) ∧ ((Q true 0 0).fabricLink 0 = false) ∧ (arg3 = (Q true 0 0).countRx 0 (f1.bytes.length + 4))) ∧
    ((E0.port 0 = (Q true 0 0).port (portOf 0)) ∧ (arg4 = arg3.parse 0 f1.bytes) ∧ (ky E0 f1 = keyOf f1.bytes arg4 0 (E0.port 0).l3sel false)) ∧
    (arg3.bestRule (dieOfLink 0) 1 none (ky E0 f1) = some (0, r0)) ∧
    ((actVerdict r0.action = 1) ∧ (fieldAt r0.action 1 1 = 0) ∧ (fieldAt r0.action 8 1 = 0) ∧ (fieldAt r0.action 16 1 = 0) ∧ (5 = actTarget r0.action % 4096) ∧ (arg3.eth.queues.find 5 = some (qq true 0 0)) ∧ (0 = (qq true 0 0).inst) ∧ (arg3.bestRule (dieOfLink 0) 2 (some 0) (ky E0 f1) = none) ∧ (ri = { link := 0, flags := 0, rule1 := 0, rule2 := 4294967295, kinds := slice (ky E0 f1) 1 3, time := f1.time }) ∧ ((qq true 0 0).error = true) ∧ (((Q false 3 0).link 0).state = LinkState.up) ∧ ((Q false 3 0).power.rung < 2)) ∧
    (((Q false 3 0).power.exiting = false) ∧ ((Q false 3 0).power.entering = none) ∧ ((Q false 3 0).power.held = []) ∧ (f1.bytes.length + 4 ≤ (Q false 3 0).linkLimit 0) ∧ ((Q false 3 0).fabricLink 0 = false) ∧ (arg5 = (Q false 3 0).countRx 0 (f1.bytes.length + 4)) ∧ (E0.port 0 = (Q false 3 0).port (portOf 0)) ∧ (arg6 = arg5.parse 0 f1.bytes) ∧ (ky E0 f1 = keyOf f1.bytes arg6 0 (E0.port 0).l3sel false)) ∧
    (arg5.bestRule (dieOfLink 0) 1 none (ky E0 f1) = some (0, r0)) ∧
    ((arg5.eth.queues.find 5 = some (qq false 3 0)) ∧ (0 = (qq false 3 0).inst) ∧ (arg5.bestRule (dieOfLink 0) 2 (some 0) (ky E0 f1) = none) ∧ ((qq false 3 0).error = false) ∧ (arg5.isActive 0 = false ∨ arg5.genOf 0 ≠ (qq false 3 0).gen) ∧ (((Q false 0 64).link 0).state = LinkState.up) ∧ ((Q false 0 64).power.rung < 2) ∧ ((Q false 0 64).power.exiting = false) ∧ ((Q false 0 64).power.entering = none) ∧ ((Q false 0 64).power.held = []) ∧ (f1.bytes.length + 4 ≤ (Q false 0 64).linkLimit 0) ∧ ((Q false 0 64).fabricLink 0 = false)) ∧
    ((arg7 = (Q false 0 64).countRx 0 (f1.bytes.length + 4)) ∧ (E0.port 0 = (Q false 0 64).port (portOf 0)) ∧ (arg8 = arg7.parse 0 f1.bytes) ∧ (ky E0 f1 = keyOf f1.bytes arg8 0 (E0.port 0).l3sel false)) ∧
    (arg7.bestRule (dieOfLink 0) 1 none (ky E0 f1) = some (0, r0)) ∧
    ((arg7.eth.queues.find 5 = some (qq false 0 64)) ∧ (0 = (qq false 0 64).inst) ∧ (arg7.bestRule (dieOfLink 0) 2 (some 0) (ky E0 f1) = none) ∧ ((qq false 0 64).error = false) ∧ (arg7.isActive 0 = true) ∧ (arg7.genOf 0 = (qq false 0 64).gen) ∧ (128 = (32 + f1.bytes.length + 63) / 64 * 64) ∧ (3 = if (qq false 0 64).len < (qq false 0 64).prod + 128 then (qq false 0 64).seq + 1 else (qq false 0 64).seq) ∧ (arg7.ringPut clsNet 0 (qq false 0 64).ring (qq false 0 64).len (qq false 0 64).prod 64 (rxRecord ri 3 f1.bytes) (rxPad (qq false 0 64).seq) = RingPut.ok (put 64 3).1 (put 64 3).2) ∧ ((arg9.link 0).state = LinkState.up) ∧ (arg9.power.rung < 2) ∧ (arg9.power.exiting = false)) ∧
    ((arg9.power.entering = none) ∧ (arg9.power.held = []) ∧ (f1.bytes.length + 4 ≤ arg9.linkLimit 0) ∧ (arg9.fabricLink 0 = false) ∧ (arg10 = arg9.countRx 0 (f1.bytes.length + 4)) ∧ (E0.port 0 = arg9.port (portOf 0)) ∧ (arg11 = arg10.parse 0 f1.bytes) ∧ (ky E0 f1 = keyOf f1.bytes arg11 0 (E0.port 0).l3sel false)) ∧
    (arg10.bestRule (dieOfLink 0) 1 none (ky E0 f1) = some (0, r0)) ∧
    ((arg10.eth.queues.find 5 = some arg12) ∧ (0 = arg12.inst) ∧ (arg10.bestRule (dieOfLink 0) 2 (some 0) (ky E0 f1) = none) ∧ (arg12.error = false) ∧ (arg10.isActive 0 = true) ∧ (arg10.genOf 0 = arg12.gen) ∧ (4 = if arg12.len < arg12.prod + 128 then arg12.seq + 1 else arg12.seq) ∧ (arg10.ringPut clsNet 0 arg12.ring arg12.len arg12.prod 64 (rxRecord ri 4 f1.bytes) (rxPad arg12.seq) = RingPut.full) ∧ (((Q false 0 0).link 0).state = LinkState.up) ∧ ((Q false 0 0).power.rung < 2) ∧ ((Q false 0 0).power.exiting = false) ∧ ((Q false 0 0).power.entering = none)) ∧
    (((Q false 0 0).power.held = []) ∧ (f1.bytes.length + 4 ≤ (Q false 0 0).linkLimit 0) ∧ ((Q false 0 0).fabricLink 0 = false) ∧ (arg13 = (Q false 0 0).countRx 0 (f1.bytes.length + 4)) ∧ (E0.port 0 = (Q false 0 0).port (portOf 0)) ∧ (arg14 = arg13.parse 0 f1.bytes) ∧ (ky E0 f1 = keyOf f1.bytes arg14 0 (E0.port 0).l3sel false)) ∧
    (arg13.bestRule (dieOfLink 0) 1 none (ky E0 f1) = some (0, r0)) ∧
    ((arg13.eth.queues.find 5 = some (qq false 0 0)) ∧ (0 = (qq false 0 0).inst) ∧ (arg13.bestRule (dieOfLink 0) 2 (some 0) (ky E0 f1) = none) ∧ ((qq false 0 0).error = false) ∧ (arg13.isActive 0 = true) ∧ (arg13.genOf 0 = (qq false 0 0).gen) ∧ (3 = if (qq false 0 0).len < (qq false 0 0).prod + 128 then (qq false 0 0).seq + 1 else (qq false 0 0).seq) ∧ (arg13.ringPut clsNet 0 (qq false 0 0).ring (qq false 0 0).len (qq false 0 0).prod 64 (rxRecord ri 3 f1.bytes) (rxPad (qq false 0 0).seq) = RingPut.full) ∧ ((M.link 0).state = LinkState.up) ∧ (M.power.rung < 2) ∧ (M.power.exiting = false) ∧ (M.power.entering = none)) ∧
    ((M.power.held = []) ∧ (M.eth.mgmtUp = true) ∧ (M.pins.phyRst = false) ∧ (M.mgmtIp4 = M.mgmtIp4) ∧ (allZero M.mgmtIp4 = false) ∧ ([1, 2, 3, 4, 5, 6].length = 6) ∧ ([1, 2, 3, 4].length = 4) ∧ (14 ≤ arg15.length) ∧ (List.take 6 arg15 ≠ mgmtMac) ∧ (BitVec.getLsbD (arg15.getD 0 0) 0 = false)) :=
  ⟨by decide +kernel,
    by decide +kernel,
    by decide +kernel,
    by decide +kernel,
    rfl,
    by decide +kernel,
    by decide +kernel,
    rfl,
    by decide +kernel,
    by decide +kernel,
    rfl,
    by decide +kernel,
    by decide +kernel,
    rfl,
    by decide +kernel,
    by decide +kernel,
    rfl,
    by decide +kernel,
    by decide +kernel⟩
theorem witness_PortsAndRules :
    ((63 < 64) ∧ (((L LinkState.negotiating).link 63).state ≠ LinkState.down) ∧ (((L LinkState.negotiating).link 63).state ≠ LinkState.up) ∧ (((L LinkState.negotiating).link 63).state = LinkState.negotiating) ∧ (((L LinkState.training).link 63).state ≠ LinkState.down) ∧ (((L LinkState.training).link 63).state ≠ LinkState.up) ∧ (((L LinkState.training).link 63).state = LinkState.training) ∧ (((L LinkState.fec).link 63).state ≠ LinkState.down) ∧ (((L LinkState.fec).link 63).state ≠ LinkState.up) ∧ (((L LinkState.fec).link 63).state = LinkState.fec) ∧ ((L LinkState.fec).dieFailed (8 + dieOfLink 63) = false) ∧ ((L LinkState.fec).power.rung < 3)) ∧
    (((L LinkState.fec).pins.ethClk.getD (dieOfLink 63) true = true) ∧ (((L LinkState.up).link 63).state = LinkState.up) ∧ ((L LinkState.up).dieFailed (8 + dieOfLink 63) = false) ∧ ((L LinkState.up).power.rung < 3) ∧ ((L LinkState.up).pins.ethClk.getD (dieOfLink 63) true = true) ∧ (0 < 64) ∧ (B.takes netRuleSetSpec arg16 = true) ∧ (65535 = fieldAt arg16.pkt.params 0 2) ∧ (0 = fieldAt arg16.pkt.params 2 1) ∧ (arg17 = { owner := 0, stage := fieldAt arg16.pkt.params 3 1 + 1, prio := fieldAt arg16.pkt.params 4 2, value := slice arg16.pkt.params 40 80, mask := slice arg16.pkt.params 120 80, action := slice arg16.pkt.params 8 32, frames := 0, bytes := 0 }) ∧ ((B.entered netRuleSetSpec arg16).eth.rules.find 65535 = none ∧ (B.entered netRuleSetSpec arg16).rulesOf 0 < ((B.entered netRuleSetSpec arg16).inst 0).shares.rule ∨ ∃ y, (B.entered netRuleSetSpec arg16).eth.rules.find 65535 = some y ∧ y.owner = 0) ∧ (arg17.stage = 1 ∧ B.senderOf arg16 = 0 ∨ arg17.stage = 2 ∧ (actVerdict arg17.action = 0 ∨ actVerdict arg17.action = 1 ∨ actVerdict arg17.action = 4) ∧ actFlag arg17.action 0 = false ∧ actFlag arg17.action 3 = false ∧ fieldAt arg17.action 8 1 = 0 ∧ fieldAt arg17.action 16 1 = 0)) ∧
    ((actFlag arg17.action 2 = true → fieldAt arg17.action 24 2 / 4096 = 65535 / 16384 ∧ (arg17.stage = 2 → ∃ m, (B.entered netRuleSetSpec arg16).traffic.meters.find (fieldAt arg17.action 24 2) = some m ∧ m.owner = 0)) ∧ (B.takes netRuleSetSpec arg18 = true) ∧ (9 = fieldAt arg18.pkt.params 0 2) ∧ (0 = fieldAt arg18.pkt.params 2 1) ∧ (arg19 = { owner := 0, stage := fieldAt arg18.pkt.params 3 1 + 1, prio := fieldAt arg18.pkt.params 4 2, value := slice arg18.pkt.params 40 80, mask := slice arg18.pkt.params 120 80, action := slice arg18.pkt.params 8 32, frames := 0, bytes := 0 }) ∧ ((B.entered netRuleSetSpec arg18).eth.rules.find 9 = none ∧ (B.entered netRuleSetSpec arg18).rulesOf 0 < ((B.entered netRuleSetSpec arg18).inst 0).shares.rule ∨ ∃ y, (B.entered netRuleSetSpec arg18).eth.rules.find 9 = some y ∧ y.owner = 0) ∧ (arg19.stage = 1 ∧ B.senderOf arg18 = 0 ∨ arg19.stage = 2 ∧ (actVerdict arg19.action = 0 ∨ actVerdict arg19.action = 1 ∨ actVerdict arg19.action = 4) ∧ actFlag arg19.action 0 = false ∧ actFlag arg19.action 3 = false ∧ fieldAt arg19.action 8 1 = 0 ∧ fieldAt arg19.action 16 1 = 0) ∧ (actFlag arg19.action 2 = true → fieldAt arg19.action 24 2 / 4096 = 9 / 16384 ∧ (arg19.stage = 2 → ∃ m, (B.entered netRuleSetSpec arg18).traffic.meters.find (fieldAt arg19.action 24 2) = some m ∧ m.owner = 0)) ∧ (B.takes netRuleClearSpec rc = true) ∧ (9 = fieldAt rc.pkt.params 0 2) ∧ ((B.entered netRuleClearSpec rc).eth.rules.find 9 = some r1) ∧ (B.senderOf rc = 0 ∨ r1.owner = B.senderOf rc ∧ r1.stage ≠ 1)) ∧
    ((B.takes netRuleGetSpec rg = true) ∧ (9 = fieldAt rg.pkt.params 0 2) ∧ ((B.entered netRuleGetSpec rg).eth.rules.find 9 = some r1) ∧ (B.senderOf rg = 0 ∨ r1.owner = B.senderOf rg) ∧ (QS.takes netQueueSetSpec (qs 0) = true) ∧ (5 = fieldAt (qs 0).pkt.params 0 2) ∧ (0 = fieldAt (qs 0).pkt.params 2 1) ∧ (0 = fieldAt (qs 0).pkt.params 4 4) ∧ (0 = 0) ∧ (((QS.entered netQueueSetSpec (qs 0)).eth.queues.find 5).isSome = true) ∧ (QS.takes netQueueSetSpec (qs 131072) = true) ∧ (5 = fieldAt (qs 131072).pkt.params 0 2)) ∧
    ((0 = fieldAt (qs 131072).pkt.params 2 1) ∧ (131072 = fieldAt (qs 131072).pkt.params 4 4) ∧ (131072 ≠ 0) ∧ ((QS.entered netQueueSetSpec (qs 131072)).isActive 0 = true) ∧ ((QS.entered netQueueSetSpec (qs 131072)).mapsRw 0 (fieldAt (qs 131072).pkt.params 8 8) (131072 + 64) = true)) ∧
    ((QS.entered netQueueSetSpec (qs 131072)).ringReset clsNet 0 (fieldAt (qs 131072).pkt.params 8 8) = (arg20, true)) ∧
    ((QS.takes netQueueGetSpec qg = true) ∧ (5 = fieldAt qg.pkt.params 0 2) ∧ ((QS.entered netQueueGetSpec qg).eth.queues.find 5 = some (qq false 0 0)) ∧ (((L LinkState.up).rail 6).set ≠ 0) ∧ (15 < 16) ∧ ((arg21.rail 6).set ≠ 0) ∧ (3 < 4) ∧ (7 < 8) ∧ ((QS.rail 6).set ≠ 0) ∧ (5 < 4096) ∧ (4095 < 4096)) :=
  ⟨by decide +kernel,
    by decide +kernel,
    by decide +kernel,
    by decide +kernel,
    by decide +kernel,
    Prod.ext rfl (by decide +kernel),
    by decide +kernel⟩

end W11

/-! ## Witnesses: Traffic -/

namespace W12

def mtr (tr aw : Bool) : Meter := { owner := 0, trtcm := tr, aware := aw, colsrc := false, act := 0, cir := 100, pir := 200, cbs := 2, ebs := 3, c := 15990, e := 100, last := 10, counts := [] }
/-- Link 0 up; a Zaren frame waits in its control queue, an Ethernet frame in class 7 of its default queues. -/
def zf : TxFrame := { body := .zaren (zframe 8 (zeros 64)), len := 118, inst := none, mark := none }
def ef : TxFrame := { body := .eth (zeros 60), len := 1536, inst := none, mark := none }
def R (s : State) : State := { s with power := { s.power with rails := [(6, { Rail.initial with set := 750 })] } }
def T0 : State := R { live with eth := { live.eth with links := [(0, { EthLink.initial with state := .up })], ports := [(0, { EthPort.initial with enable := true })] } }
def TX (tr : Traffic → Traffic) : State := { T0 with traffic := tr T0.traffic }
def lq (fs : List TxFrame) : LinkQueue := { LinkQueue.initial with frames := fs }
def A := TX fun t => { t with ctrl := [(0, lq [zf, zf])], dflt := [(6, lq [ef])] }
def D := TX fun t => { t with dflt := [(0, lq [ef, ef])] }
def D7 := TX fun t => { t with dflt := [(7, lq [ef])] }
def shp (p : Option (Nat × Nat × Nat)) : Shaper := { owner := 0, compat := false, rate := 100, burst := 20000, overhead := 4, tokens := 159990, pending := p }
def S (p : Option (Nat × Nat × Nat)) := TX fun t => { t with shapers := [(16383, shp p)], lastTick := 998 }
def ms (mode : Nat) := cmd 0x6801 (fields [(2,16383),(1,0),(1,mode),(1,0x2A),(3,0),(4,800000),(4,if mode % 2 = 1 then 800000 else 0),(4,16777215),(4,0),(8,0)])
def sset (fl : Nat) := cmd 0x6802 (fields [(2,16383),(1,0),(1,fl),(4,800000),(4,10240),(1,63),(3,0)])
def O := TX fun t => { t with shapers := [(16383, shp none)], meters := [(0, mtr true true)] }
def fr (k n : Nat) := cmd 0x6803 (fields [(1,k),(1,0),(2,n),(4,0)])
def gt (k n : Nat) := cmd 0x6804 (fields [(1,k),(1,0),(2,n),(4,0)])
def eset (on : Nat) := cmd 0x6805 (fields [(1,0),(1,on),(2,1023),(1,0),(1,7),(1,0),(1,0),(2,16384),(2,0xFFFF),(2,2048),(2,0)])
def eq1 : EgressQueue := { EgressQueue.initial with enable := true, cls := 7, inst := some 0, quantum := 5, limit := 9, frames := [ef], deficit := 44, visit := some ⟨5, false, none, 9, false⟩ }
def O1 := TX fun t => { t with queues := [(1023, eq1)], shapers := [(4095, shp none)] }
def eset2 (on sh : Nat) := cmd 0x6805 (fields [(1,0),(1,on),(2,1023),(1,0),(1,7),(1,0),(1,0),(2,0),(2,sh),(2,1),(2,0)])
def iq (q : Nat) := cmd 0x6806 (fields [(1,63),(1,63),(1,7),(1,0),(2,q),(2,0)])
def QS := TX fun t => { t with queues := [(1024*15+1023, { eq1 with drops := 3 })], dflt := [(8*63+7, { lq [ef] with drops := 3 })], ctrl := [(63, { lq [zf] with drops := 4 })], drops := [(11, 5)] }
def arg1 : State := S (some (50, 20001, 63))
def arg2 : Shaper := shp (some (50, 20001, 63))
def arg3 : State := TX fun t => { t with iqmap := [(512*63+8*63+7, 5)] }
def arg4 : EgressQueue := { eq1 with drops := 3 }
def arg5 : LinkQueue := { lq [ef] with drops := 3 }
def arg6 : LinkQueue := { lq [zf] with drops := 4 }

theorem witness_TrafficCommands :
    ((0 < 64) ∧ ((A.link 0).state = LinkState.up) ∧ (A.traffic.tx.getD 0 LinkTx.initial = LinkTx.initial) ∧ ((A.gatesOf (portOf 0)).inForce = []) ∧ ((A.traffic.ctrl.getD 0 LinkQueue.initial).frames = [zf, zf]) ∧ (A.activeQueues 0 7 = []) ∧ ((D.link 0).state = LinkState.up) ∧ (D.traffic.tx.getD 0 LinkTx.initial = LinkTx.initial) ∧ ((D.gatesOf (portOf 0)).inForce = []) ∧ (0 < 8) ∧ (D.traffic.queues = []) ∧ ((D.traffic.ctrl.getD 0 LinkQueue.initial).frames = [])) ∧
    (∀ (j : ℕ), 0 < j → j < 8 → (D.traffic.dflt.getD (8 * 0 + j) LinkQueue.initial).frames = []) ∧
    (((D.traffic.dflt.getD (8 * 0 + 0) LinkQueue.initial).frames = [ef, ef]) ∧ (ef.len ≤ 1536) ∧ (D.oldFrame ef = false) ∧ ((D7.link 0).state = LinkState.up) ∧ (D7.traffic.tx.getD 0 LinkTx.initial = LinkTx.initial) ∧ ((D7.gatesOf (portOf 0)).inForce = []) ∧ (7 < 8) ∧ (D7.traffic.queues = []) ∧ ((D7.traffic.ctrl.getD 0 LinkQueue.initial).frames = [])) ∧
    (∀ (j : ℕ), 7 < j → j < 8 → (D7.traffic.dflt.getD (8 * 0 + j) LinkQueue.initial).frames = []) ∧
    (((D7.traffic.dflt.getD (8 * 0 + 7) LinkQueue.initial).frames = [ef]) ∧ (D7.oldFrame ef = false) ∧ ((S none).traffic.shapers.find 16383 = some (shp none)) ∧ (arg1.traffic.shapers.find 16383 = some arg2) ∧ (T0.takes tmsMeterSetSpec (ms 15) = true) ∧ (15 = fieldAt (ms 15).pkt.params 3 1) ∧ (T0.senderOf (ms 15) = 0 ∨ fieldAt (ms 15).pkt.params 2 1 = T0.senderOf (ms 15) ∧ ∀ (y : Meter), (T0.entered tmsMeterSetSpec (ms 15)).traffic.meters.find (fieldAt (ms 15).pkt.params 0 2) = some y → y.owner = T0.senderOf (ms 15)) ∧ ((∃ y, (T0.entered tmsMeterSetSpec (ms 15)).traffic.meters.find (fieldAt (ms 15).pkt.params 0 2) = some y ∧ y.owner = fieldAt (ms 15).pkt.params 2 1) ∨ (T0.entered tmsMeterSetSpec (ms 15)).metersOf (fieldAt (ms 15).pkt.params 2 1) < ((T0.entered tmsMeterSetSpec (ms 15)).inst (fieldAt (ms 15).pkt.params 2 1)).shares.meter) ∧ (bitAt 15 0 = true → fieldAt (ms 15).pkt.params 8 4 ≤ fieldAt (ms 15).pkt.params 12 4) ∧ (fieldAt (ms 15).pkt.params 16 4 ≠ 0 ∨ fieldAt (ms 15).pkt.params 20 4 ≠ 0) ∧ (bitsOf (fieldAt (ms 15).pkt.params 4 1) 1 0 ≠ 3) ∧ (bitsOf (fieldAt (ms 15).pkt.params 4 1) 3 2 ≠ 3)) ∧
    ((bitsOf (fieldAt (ms 15).pkt.params 4 1) 5 4 ≠ 3) ∧ (T0.takes tmsMeterSetSpec (ms 0) = true) ∧ (0 = fieldAt (ms 0).pkt.params 3 1) ∧ (T0.senderOf (ms 0) = 0 ∨ fieldAt (ms 0).pkt.params 2 1 = T0.senderOf (ms 0) ∧ ∀ (y : Meter), (T0.entered tmsMeterSetSpec (ms 0)).traffic.meters.find (fieldAt (ms 0).pkt.params 0 2) = some y → y.owner = T0.senderOf (ms 0)) ∧ ((∃ y, (T0.entered tmsMeterSetSpec (ms 0)).traffic.meters.find (fieldAt (ms 0).pkt.params 0 2) = some y ∧ y.owner = fieldAt (ms 0).pkt.params 2 1) ∨ (T0.entered tmsMeterSetSpec (ms 0)).metersOf (fieldAt (ms 0).pkt.params 2 1) < ((T0.entered tmsMeterSetSpec (ms 0)).inst (fieldAt (ms 0).pkt.params 2 1)).shares.meter) ∧ (bitAt 0 0 = true → fieldAt (ms 0).pkt.params 8 4 ≤ fieldAt (ms 0).pkt.params 12 4) ∧ (fieldAt (ms 0).pkt.params 16 4 ≠ 0 ∨ fieldAt (ms 0).pkt.params 20 4 ≠ 0) ∧ (bitsOf (fieldAt (ms 0).pkt.params 4 1) 1 0 ≠ 3) ∧ (bitsOf (fieldAt (ms 0).pkt.params 4 1) 3 2 ≠ 3) ∧ (bitsOf (fieldAt (ms 0).pkt.params 4 1) 5 4 ≠ 3) ∧ ((S none).takes tmsShaperSetSpec (sset 3) = true) ∧ (3 = fieldAt (sset 3).pkt.params 3 1)) ∧
    (((S none).senderOf (sset 3) = 0 ∨ fieldAt (sset 3).pkt.params 2 1 = (S none).senderOf (sset 3) ∧ ∀ (y : Shaper), ((S none).entered tmsShaperSetSpec (sset 3)).refillNow.traffic.shapers.find (fieldAt (sset 3).pkt.params 0 2) = some y → y.owner = (S none).senderOf (sset 3)) ∧ ((∃ y, ((S none).entered tmsShaperSetSpec (sset 3)).refillNow.traffic.shapers.find (fieldAt (sset 3).pkt.params 0 2) = some y ∧ y.owner = fieldAt (sset 3).pkt.params 2 1) ∨ ((S none).entered tmsShaperSetSpec (sset 3)).refillNow.shapersOf (fieldAt (sset 3).pkt.params 2 1) < (((S none).entered tmsShaperSetSpec (sset 3)).refillNow.inst (fieldAt (sset 3).pkt.params 2 1)).shares.shaper) ∧ (10240 ≤ fieldAt (sset 3).pkt.params 8 4) ∧ ((S none).takes tmsShaperSetSpec (sset 0) = true) ∧ (0 = fieldAt (sset 0).pkt.params 3 1) ∧ ((S none).senderOf (sset 0) = 0 ∨ fieldAt (sset 0).pkt.params 2 1 = (S none).senderOf (sset 0) ∧ ∀ (y : Shaper), ((S none).entered tmsShaperSetSpec (sset 0)).refillNow.traffic.shapers.find (fieldAt (sset 0).pkt.params 0 2) = some y → y.owner = (S none).senderOf (sset 0)) ∧ ((∃ y, ((S none).entered tmsShaperSetSpec (sset 0)).refillNow.traffic.shapers.find (fieldAt (sset 0).pkt.params 0 2) = some y ∧ y.owner = fieldAt (sset 0).pkt.params 2 1) ∨ ((S none).entered tmsShaperSetSpec (sset 0)).refillNow.shapersOf (fieldAt (sset 0).pkt.params 2 1) < (((S none).entered tmsShaperSetSpec (sset 0)).refillNow.inst (fieldAt (sset 0).pkt.params 2 1)).shares.shaper) ∧ (10240 ≤ fieldAt (sset 0).pkt.params 8 4) ∧ ((S none).takes tmsShaperSetSpec (sset 1) = true) ∧ (1 = fieldAt (sset 1).pkt.params 3 1) ∧ ((S none).senderOf (sset 1) = 0 ∨ fieldAt (sset 1).pkt.params 2 1 = (S none).senderOf (sset 1) ∧ ∀ (y : Shaper), ((S none).entered tmsShaperSetSpec (sset 1)).refillNow.traffic.shapers.find (fieldAt (sset 1).pkt.params 0 2) = some y → y.owner = (S none).senderOf (sset 1)) ∧ ((∃ y, ((S none).entered tmsShaperSetSpec (sset 1)).refillNow.traffic.shapers.find (fieldAt (sset 1).pkt.params 0 2) = some y ∧ y.owner = fieldAt (sset 1).pkt.params 2 1) ∨ ((S none).entered tmsShaperSetSpec (sset 1)).refillNow.shapersOf (fieldAt (sset 1).pkt.params 2 1) < (((S none).entered tmsShaperSetSpec (sset 1)).refillNow.inst (fieldAt (sset 1).pkt.params 2 1)).shares.shaper)) ∧
    ((10240 ≤ fieldAt (sset 1).pkt.params 8 4) ∧ (T0.takes tmsShaperSetSpec (sset 2) = true) ∧ (2 = fieldAt (sset 2).pkt.params 3 1) ∧ (T0.senderOf (sset 2) = 0 ∨ fieldAt (sset 2).pkt.params 2 1 = T0.senderOf (sset 2) ∧ ∀ (y : Shaper), (T0.entered tmsShaperSetSpec (sset 2)).refillNow.traffic.shapers.find (fieldAt (sset 2).pkt.params 0 2) = some y → y.owner = T0.senderOf (sset 2)) ∧ ((∃ y, (T0.entered tmsShaperSetSpec (sset 2)).refillNow.traffic.shapers.find (fieldAt (sset 2).pkt.params 0 2) = some y ∧ y.owner = fieldAt (sset 2).pkt.params 2 1) ∨ (T0.entered tmsShaperSetSpec (sset 2)).refillNow.shapersOf (fieldAt (sset 2).pkt.params 2 1) < ((T0.entered tmsShaperSetSpec (sset 2)).refillNow.inst (fieldAt (sset 2).pkt.params 2 1)).shares.shaper) ∧ (10240 ≤ fieldAt (sset 2).pkt.params 8 4) ∧ (O.takes tmsObjFreeSpec (fr 0 0) = true) ∧ (fieldAt (fr 0 0).pkt.params 0 1 = 0) ∧ ((O.entered tmsObjFreeSpec (fr 0 0)).traffic.meters.find (fieldAt (fr 0 0).pkt.params 2 2) = some (mtr true true)) ∧ (O.senderOf (fr 0 0) = 0 ∨ (mtr true true).owner = O.senderOf (fr 0 0)) ∧ (∀ e ∈ (O.entered tmsObjFreeSpec (fr 0 0)).eth.rules, actionMeter e.2.action (fieldAt (fr 0 0).pkt.params 2 2) = false) ∧ (O.takes tmsObjFreeSpec (fr 1 16383) = true)) ∧
    ((fieldAt (fr 1 16383).pkt.params 0 1 = 1) ∧ ((O.entered tmsObjFreeSpec (fr 1 16383)).traffic.shapers.find (fieldAt (fr 1 16383).pkt.params 2 2) = some (shp none)) ∧ (O.senderOf (fr 1 16383) = 0 ∨ (shp none).owner = O.senderOf (fr 1 16383)) ∧ (∀ e ∈ (O.entered tmsObjFreeSpec (fr 1 16383)).traffic.queues, e.2.shaper ≠ some (fieldAt (fr 1 16383).pkt.params 2 2)) ∧ (O.takes tmsObjGetSpec (gt 0 0) = true) ∧ (fieldAt (gt 0 0).pkt.params 0 1 = 0) ∧ ((O.entered tmsObjGetSpec (gt 0 0)).traffic.meters.find (fieldAt (gt 0 0).pkt.params 2 2) = some (mtr true true)) ∧ (O.senderOf (gt 0 0) = 0 ∨ (mtr true true).owner = O.senderOf (gt 0 0)) ∧ (O.takes tmsObjGetSpec (gt 1 16383) = true) ∧ (fieldAt (gt 1 16383).pkt.params 0 1 = 1) ∧ ((O.entered tmsObjGetSpec (gt 1 16383)).traffic.shapers.find (fieldAt (gt 1 16383).pkt.params 2 2) = some (shp none)) ∧ (O.senderOf (gt 1 16383) = 0 ∨ (shp none).owner = O.senderOf (gt 1 16383))) ∧
    ((T0.takes tmsEqSetSpec (eset 1) = true) ∧ (1023 = 1024 * fieldAt (eset 1).pkt.params 0 1 + fieldAt (eset 1).pkt.params 2 2) ∧ (EgressQueue.initial = (T0.entered tmsEqSetSpec (eset 1)).traffic.queues.getD 1023 EgressQueue.initial) ∧ (true = bitAt (fieldAt (eset 1).pkt.params 1 1) 0) ∧ (some 0 = if fieldAt (eset 1).pkt.params 6 1 = 255 then none else some (fieldAt (eset 1).pkt.params 6 1)) ∧ (65535 = fieldAt (eset 1).pkt.params 10 2) ∧ (subExists ((T0.entered tmsEqSetSpec (eset 1)).port (fieldAt (eset 1).pkt.params 0 1)).split (fieldAt (eset 1).pkt.params 4 1) = true) ∧ (EgressQueue.initial.frames = [] ∨ EgressQueue.initial.sub = fieldAt (eset 1).pkt.params 4 1 ∧ EgressQueue.initial.cls = fieldAt (eset 1).pkt.params 5 1 ∧ EgressQueue.initial.inst = some 0) ∧ (65535 = 65535 ∨ ∃ x, (T0.entered tmsEqSetSpec (eset 1)).traffic.shapers.find 65535 = some x ∧ 65535 / 4096 = dieOfPort (fieldAt (eset 1).pkt.params 0 1) ∧ (x.owner = 0 ∨ some 0 = some x.owner)) ∧ (fieldAt (eset 1).pkt.params 8 2 ≠ 0 ∨ some 0 ≠ none) ∧ (O1.takes tmsEqSetSpec (eset2 1 4095) = true) ∧ (1023 = 1024 * fieldAt (eset2 1 4095).pkt.params 0 1 + fieldAt (eset2 1 4095).pkt.params 2 2)) ∧
    ((eq1 = (O1.entered tmsEqSetSpec (eset2 1 4095)).traffic.queues.getD 1023 EgressQueue.initial) ∧ (true = bitAt (fieldAt (eset2 1 4095).pkt.params 1 1) 0) ∧ (some 0 = if fieldAt (eset2 1 4095).pkt.params 6 1 = 255 then none else some (fieldAt (eset2 1 4095).pkt.params 6 1)) ∧ (4095 = fieldAt (eset2 1 4095).pkt.params 10 2) ∧ (subExists ((O1.entered tmsEqSetSpec (eset2 1 4095)).port (fieldAt (eset2 1 4095).pkt.params 0 1)).split (fieldAt (eset2 1 4095).pkt.params 4 1) = true) ∧ (eq1.frames = [] ∨ eq1.sub = fieldAt (eset2 1 4095).pkt.params 4 1 ∧ eq1.cls = fieldAt (eset2 1 4095).pkt.params 5 1 ∧ eq1.inst = some 0) ∧ (4095 = 65535 ∨ ∃ x, (O1.entered tmsEqSetSpec (eset2 1 4095)).traffic.shapers.find 4095 = some x ∧ 4095 / 4096 = dieOfPort (fieldAt (eset2 1 4095).pkt.params 0 1) ∧ (x.owner = 0 ∨ some 0 = some x.owner)) ∧ (fieldAt (eset2 1 4095).pkt.params 8 2 ≠ 0 ∨ some 0 ≠ none) ∧ (O1.takes tmsEqSetSpec (eset2 0 4095) = true) ∧ (1023 = 1024 * fieldAt (eset2 0 4095).pkt.params 0 1 + fieldAt (eset2 0 4095).pkt.params 2 2) ∧ (eq1 = (O1.entered tmsEqSetSpec (eset2 0 4095)).traffic.queues.getD 1023 EgressQueue.initial) ∧ (false = bitAt (fieldAt (eset2 0 4095).pkt.params 1 1) 0)) ∧
    ((some 0 = if fieldAt (eset2 0 4095).pkt.params 6 1 = 255 then none else some (fieldAt (eset2 0 4095).pkt.params 6 1)) ∧ (4095 = fieldAt (eset2 0 4095).pkt.params 10 2) ∧ (subExists ((O1.entered tmsEqSetSpec (eset2 0 4095)).port (fieldAt (eset2 0 4095).pkt.params 0 1)).split (fieldAt (eset2 0 4095).pkt.params 4 1) = true) ∧ (eq1.frames = [] ∨ eq1.sub = fieldAt (eset2 0 4095).pkt.params 4 1 ∧ eq1.cls = fieldAt (eset2 0 4095).pkt.params 5 1 ∧ eq1.inst = some 0) ∧ (4095 = 65535 ∨ ∃ x, (O1.entered tmsEqSetSpec (eset2 0 4095)).traffic.shapers.find 4095 = some x ∧ 4095 / 4096 = dieOfPort (fieldAt (eset2 0 4095).pkt.params 0 1) ∧ (x.owner = 0 ∨ some 0 = some x.owner)) ∧ (fieldAt (eset2 0 4095).pkt.params 8 2 ≠ 0 ∨ some 0 ≠ none) ∧ (T0.takes tmsIqmapSetSpec (iq 1023) = true) ∧ (512 * 63 + 8 * 63 + 7 = 512 * fieldAt (iq 1023).pkt.params 0 1 + 8 * fieldAt (iq 1023).pkt.params 1 1 + fieldAt (iq 1023).pkt.params 2 1) ∧ (arg3.takes tmsIqmapSetSpec (iq 65535) = true) ∧ (512 * 63 + 8 * 63 + 7 = 512 * fieldAt (iq 65535).pkt.params 0 1 + 8 * fieldAt (iq 65535).pkt.params 1 1 + fieldAt (iq 65535).pkt.params 2 1) ∧ ((QS.rail 6).set ≠ 0) ∧ (15 < 16)) ∧
    ((1023 < 1024) ∧ (arg4 = QS.traffic.queues.getD (1024 * 15 + 1023) EgressQueue.initial) ∧ (63 < 64) ∧ (arg5 = QS.traffic.dflt.getD (8 * 63 + 7) LinkQueue.initial) ∧ (arg6 = QS.traffic.ctrl.getD 63 LinkQueue.initial) ∧ (3 < 4) ∧ (2 < 3)) :=
  ⟨by decide +kernel,
    fun j a b => by interval_cases j <;> decide +kernel,
    by decide +kernel,
    fun j a b => by omega,
    by decide +kernel,
    by decide +kernel,
    by decide +kernel,
    by decide +kernel,
    by decide +kernel,
    by decide +kernel,
    by decide +kernel,
    by decide +kernel,
    by decide +kernel⟩

end W12

/-! ## Witnesses: Remote memory -/

namespace W13

/-- Queue pair 1 of instance 0 in RTS, cached, on die 0, its rings at 0x10000 and 0x20000. -/
def q0 : Qp := { Qp.fresh 0 0 0 3 0 0x10000 0x1000 0x20000 0x1000 with state := .rts, cached := true, dqpn := 0x40009, rqPsn := 7, sqPsn := 20, mtu := 0, respDepth := 4, initDepth := 4, w := 0x10000, retry := 2, timeout := 3 }
def win0 : Window := { inst := 0, pd := 3, rd := true, wr := true, base := 0x40000, len := 0x40000, revoking := none }
def RS (q : Qp) (ks : List (Nat × List Byte) := []) : State :=
  { live with
    mem := mem ([(0, mapTo 4)] ++ ks)
    power := { live.power with rails := [(6, { Rail.initial with set := 750 })] }
    eth := { live.eth with links := [(0, { EthLink.initial with state := .up }), (16, { EthLink.initial with state := .up })], ports := [(0, { EthPort.initial with enable := true })] }
    rma := { live.rma with pds := [(3, 0)], qps := [(1, q)], wins := [(0, win0)], clockUse := 9, ctxArea := some 0x10000000 } }
def pk (op : Nat) (psn : BitVec 24) (ps : List Byte) (f : RocePkt → RocePkt := id) : RocePkt :=
  f { icrcOk := true, tver := 0, pkey := 0xFFFF, opcode := op, dqpn := 0x40001, psn, ackReq := false, va := 0x40000, rkey := 0, dmaLen := ps.length, syndrome := 0, payload := ps, frameLen := 80 + ps.length, stamp := 3 }
def S0 := RS q0
def bad := pk 0x0A 7 [1,2,3,4] fun p => { p with icrcOk := false }
def w1 := pk 0x0A 7 [1,2,3,4]
def vv (s : State) (q : Qp) (p : RocePkt) := ((s.charge 0 3 p.frameLen).rmaStat q.home 0).touchQp 1
def SX := RS { q0 with home := 1 }
def qu := { q0 with cached := false }
def SU := RS qu
def g1 : InMsg := { rkey := 0, addr := 0x40000, left := 4 }
def m1 (s : State) (q : Qp) (p : RocePkt) (a : Nat) : State := ((vv s q p).writeBy clsNet 0 a p.payload).1
def wf := pk 0x06 7 (zeros 1024) fun p => { p with dmaLen := 1025 }
def g2 : InMsg := { rkey := 0, addr := 0x40000, left := 1025 }
def qm := { q0 with inMsg := some { rkey := 0, addr := 0x7FFFF, left := 1 } }
def wl := pk 0x08 7 [9]
def Sm := RS qm
def wk := pk 0x0A 7 [1,2,3,4] fun p => { p with rkey := 0x10000 }
def full : State := { S0 with traffic := { S0.traffic with dflt := [(0, { LinkQueue.initial with frames := List.replicate 180 { body := .eth [], len := 1518, inst := none, mark := none } })] } }
def wg := pk 0x0A 8 [1,2,3,4]
def rd := pk 0x0C 7 [] fun p => { p with dmaLen := 2049 }
def rdk := { rd with va := 0x7FFFF }
def ent (op fl len : Nat) (ra : Nat := 0x2000) : List Byte := fields [(1,op),(1,fl),(2,0),(4,len),(8,77),(8,0x1000),(8,ra),(4,5)] ++ zeros 28
def at4 (a : Nat) : Nat := 4 * granule + a
def qe (st : QpState) : Qp := { q0 with state := st, fetched := 0xFC0, prodSeen := 0 }
def SE (st : QpState) (b : List Byte) := RS (qe st) [(at4 (0x10000 + 64 + 0xFC0), b)]
def rq (st : QpState) (b : List Byte) : WorkReq := (qe st).request 0xFC0 b
def rdS (s : State) (a n : Nat) : State := (s.readBy clsNet 0 a n).1
def qo := { q0 with owed := [(6, 0x62)] }
def SO := RS qo
def uo : State := match (SO.putQp 1 { qo with owed := [] }).rocePut qo (roceFrame qo.path 1 (bthBytes 0x11 0 qo.dqpn false 6 ++ aethBytes 0x62 qo.msn)) none with | .done u => u | _ => SO
def r1 : WorkReq := { q0.request 0 (ent 1 1 1025) with psn0 := 20, npsn := 2 }
def qs := { q0 with reqs := [r1], sqPsn := 22 }
def SS := RS qs
def x1 := packetOf qs r1 0
def f1 (pt : List Byte) := roceFrame qs.path 1 (bthBytes x1.op (padOf x1.len) qs.dqpn x1.ack x1.psn ++ x1.reth ++ pt ++ zeros (padOf pt.length))
def pt1 := List.replicate 1024 (0 : Byte)
def st1 : State := ((SS.touchQp 1).readBy clsNet 0 0x1000 1024).1
def sp (psn : BitVec 24) : SentPkt := { psn, bytes := 1100, at_ := 50, sends := 1, ack := true, again := false }
def rs := { r1 with sent := 2, started := true }
def qa := { qs with reqs := [rs], unacked := [sp 20, sp 21], retries := 1 }
def SA := RS qa
def ak (psn : BitVec 24) (syn : Nat) := pk 0x11 psn [] fun p => { p with syndrome := syn }
def rr : WorkReq := { q0.request 0 (ent 2 1 1025) with psn0 := 20, npsn := 2, started := true, sent := 1 }
def qr (got : Nat) := { qs with reqs := [{ rr with got }], unacked := [sp (20 + BitVec.ofNat 24 (got / 1024))], retries := 1 }
def resp (op : Nat) (psn : BitVec 24) (n : Nat) := pk op psn (zeros n)
def mr (s : State) (q : Qp) (p : RocePkt) (a : Nat) : State := ((((s.charge 0 3 p.frameLen).rmaStat 0 0).touchQp 1).writeBy clsNet 0 a p.payload).1
def qz := { qa with retries := 2 }
def qt := { q0 with ackSince := some 999000, ackDue := 3 }
def ST0 := RS qt
def xt (s : State) := (s.reach 1001000).rocePut qt (roceFrame qt.path 1 (bthBytes 0x11 0 qt.dqpn false 6 ++ aethBytes 0x1F qt.msn)) none
def ut : State := match xt ST0 with | .done u => u | _ => ST0
def STf : State := { ST0 with traffic := full.traffic }
def qp1 := { qu with parked := [w1, pk 0x0A 8 [5,6]] }
def SP := RS qp1
def qb := { q0 with minRtt := some 900, base := 5000 }
def rc : WorkReq := { r1 with status := some (0, 0), off := 0xFC0, got := 1025, sent := 2, started := true }
def qc := { q0 with reqs := [rc], fetched := 0, cqProd := 0xFE0 }
def SC := RS qc [(at4 0x20008, leBytes 8 32)]
def s1 := rdS SC 0x20008 8
def s2 := (s1.writeBy clsNet 0 (0x20000 + 64 + 0xFE0) (leBytes 8 rc.wrid.toNat ++ leBytes 8 qc.cqSeq.toNat ++ leBytes 4 (1 * 2 ^ 18 + 1) ++ leBytes 4 rc.off ++ leBytes 4 rc.len ++ leBytes 1 0 ++ leBytes 1 0 ++ zeros 2)).1
def s3 := (s2.writeBy clsNet 0 0x20000 (leBytes 8 0)).1
def s4 := (((s3.putQp 1 { qc with cqProd := 0, cqSeq := 1 }).putQp 1 { qc with cqProd := 0, cqSeq := 1, reqs := [], cons := 0 }).writeBy clsNet 0 0x10008 (leBytes 8 0)).1
def db : DbRing := { ring := 0x30000, len := 0x1000, pollNs := 100, cons := 0xFF8, stopped := false }
def SD (p : Nat) : State := let s := RS q0 [(at4 0x30000, leBytes 8 p), (at4 (0x30000 + 64 + 0xFF8), leBytes 4 0x40001)]; { s with rma := { s.rma with rings := [(0, db)] } }
def dm (p : Nat) := rdS (SD p) 0x30000 8
def du := ((dm 0).doorbells 0 db (db.len / 8) db.cons 0).1
def BR : State := let s := RS q0 [(at4 0x10000, leBytes 8 0xFC0)]; { s with pcie := { s.pcie with fns := [(0, { PceFn.initial 0 with bound := some 0, cmd := 6 })] } }
def BR2 : State := { BR with rma := { BR.rma with qps := [(1, { q0 with kind := 1 })] } }
def noQ : State := { S0 with rma := { S0.rma with qps := [], wins := [] }, mem := mem ((List.range 32).map fun g => (8 * g, mapTo (4 + g))), insts := [(0, { Instance.initial with state := .active, mapLen := 32, shares := Shares.manager })] }
def ca := cmd 0x7001 (fields [(8,0)])
def pa := cmd 0x7002 (fields [(1,0),(7,0)])
def pf := cmd 0x7003 (fields [(2,3),(6,0)])
def qc1 := cmd 0x7004 (fields [(1,0),(1,1),(2,3),(1,3),(3,0),(8,0x10000),(4,0x1000),(4,0x200000),(8,0x20000)])
def Sq (st : QpState) := RS { q0 with state := st }
def qmP (want : Nat) (l : List (Nat × Nat)) := cmd 0x7005 (fields ([(4,0x40001),(1,want)] ++ l))
def qm1 (want _fl : Nat) := match want with
  | 2 => qmP 2 [(1,0),(1,5),(1,3),(4,0x40009),(4,5),(4,0),(1,1),(1,0),(1,0),(1,0),(1,16),(1,64),(2,0),(2,0),(2,0xC000),(6,2),(6,4),(1,0),(3,0),(16,7),(16,9),(4,0),(12,0)]
  | 3 => qmP 3 [(11,0),(4,6),(1,0),(1,7),(1,20),(1,16),(56,0),(4,4096),(12,0)]
  | w => qmP w [(91,0)]
def qd := cmd 0x7006 (fields [(4,0x40001),(4,0)])
def qg := cmd 0x7007 (fields [(4,0x40001),(4,0)])
def mo := cmd 0x7008 (fields [(1,0),(1,3),(2,3),(4,0),(8,2^48-2^40),(8,2^40)])
def mv := cmd 0x7009 (fields [(4,0),(4,0)])
def W : State := { S0 with rma := { S0.rma with wins := [(0, { win0 with revoking := some ⟨2, 0, 0⟩ })] } }
def ds (n : Nat) := cmd 0x700A (fields [(1,0),(3,0),(4,100000),(8,0x30000),(4,n),(4,0)])
def arg1 : RocePkt := { bad with opcode := 0x0C }
def arg2 : RocePkt := { bad with opcode := 0x10 }
def arg3 : RocePkt := { bad with opcode := 0x11 }
def arg4 : RocePkt := { pk 0x11 7 [] with dqpn := 0x80001 }
def arg5 : Qp := { q0 with home := 1 }
def arg6 : State := vv SX { q0 with home := 1 } w1
def arg7 : State := m1 S0 q0 w1 0x40000
def arg8 : InMsg := { rkey := 0, addr := 0x7FFFF, left := 1 }
def arg9 : State := m1 Sm qm wl 0x7FFFF
def arg10 : InMsg := { rkey := 0x10000, addr := 0x40000, left := 4 }
def arg11 : State := SE .error (ent 1 1 2049)
def arg12 : State := rdS (SE .error (ent 1 1 2049)) 0x11000 64
def arg13 : WorkReq := rq .error (ent 1 1 2049)
def arg14 : State := SE .rts (ent 1 1 2049)
def arg15 : State := rdS (SE .rts (ent 1 1 2049)) 0x11000 64
def arg16 : WorkReq := rq .rts (ent 1 1 2049)
def arg17 : State := SE .rts (ent 2 1 0)
def arg18 : State := rdS (SE .rts (ent 2 1 0)) 0x11000 64
def arg19 : WorkReq := rq .rts (ent 2 1 0)
def arg20 : State := SE .rts (ent 3 1 0)
def arg21 : State := rdS (SE .rts (ent 3 1 0)) 0x11000 64
def arg22 : WorkReq := rq .rts (ent 3 1 0)
def arg23 : LinkQueue := SS.traffic.dflt.getD 0 LinkQueue.initial
def arg24 : RocePkt := resp 0x0D 20 1024
def arg25 : WorkReq := { rr with got := 0 }
def arg26 : WorkReq := { rr with got := 1024 }
def arg27 : State := mr (RS (qr 1024)) (qr 1024) (resp 0x0F 21 1) 0x1400
def arg28 : State := (SP.fetchQp 1).getD SP
def arg29 : Except AccErr (List Byte) := .ok (leBytes 8 32)
def arg30 : List Byte := leBytes 8 0x1000
def arg31 : State := rdS BR 0x10000 8
def arg32 : Qp := { q0 with kind := 1 }
def arg33 : State := { noQ with rma := { noQ.rma with ctxArea := none } }
def arg34 : Qp := { q0 with state := .reset }
def arg35 : Qp := { q0 with state := .init }
def arg36 : Qp := { q0 with state := .rtr }
def arg37 : Window := { win0 with revoking := some ⟨2, 0, 0⟩ }

theorem witness_RoceResponder :
    ((0 < 64) ∧ ((S0.link 0).state = LinkState.up) ∧ (S0.power.rung < 2) ∧ (S0.power.exiting = false) ∧ (S0.power.entering = none) ∧ (pktDropped bad = true ∨ S0.qpByQpn bad.dqpn = none) ∧ (bad.opcode ∈ [6, 7, 8, 10]) ∧ (pktDropped arg1 = true ∨ S0.qpByQpn arg1.dqpn = none) ∧ (arg1.opcode = 12) ∧ (pktDropped arg2 = true ∨ S0.qpByQpn arg2.dqpn = none) ∧ (arg2.opcode ∈ [13, 14, 15, 16]) ∧ (pktDropped arg3 = true ∨ S0.qpByQpn arg3.dqpn = none)) ∧
    ((arg3.opcode = 17) ∧ (pktDropped arg4 = true ∨ S0.qpByQpn arg4.dqpn = none) ∧ (arg4.opcode = 17) ∧ ((SX.link 0).state = LinkState.up) ∧ (SX.power.rung < 2) ∧ (SX.power.exiting = false) ∧ (SX.power.entering = none) ∧ (pktDropped w1 = false)) ∧
    (SX.qpByQpn w1.dqpn = some (1, arg5)) ∧
    ((arg5.state = QpState.rtr ∨ arg5.state = QpState.rts) ∧ (SX.genOf arg5.inst = arg5.gen) ∧ (arg6 = ((SX.charge arg5.inst 3 w1.frameLen).rmaStat arg5.home 0).touchQp 1) ∧ (w1.opcode ∈ [6, 7, 8, 10]) ∧ (arg5.home ≠ dieOfLink 0) ∧ ((SU.link 0).state = LinkState.up) ∧ (SU.power.rung < 2) ∧ (SU.power.exiting = false) ∧ (SU.power.entering = none)) ∧
    (SU.qpByQpn w1.dqpn = some (1, qu)) ∧
    ((qu.state = QpState.rtr ∨ qu.state = QpState.rts) ∧ (SU.genOf qu.inst = qu.gen) ∧ (vv SU qu w1 = ((SU.charge qu.inst 3 w1.frameLen).rmaStat qu.home 0).touchQp 1) ∧ (qu.home = dieOfLink 0) ∧ (qu.cached = false) ∧ ((SU.parkedOn qu.home).1 < 1024) ∧ (qu.parked.length < 64) ∧ ((SU.parkedOn qu.home).2 + w1.frameLen ≤ 2097152)) ∧
    (S0.qpByQpn w1.dqpn = some (1, q0)) ∧
    ((q0.state = QpState.rtr ∨ q0.state = QpState.rts) ∧ (S0.genOf q0.inst = q0.gen) ∧ (vv S0 q0 w1 = ((S0.charge q0.inst 3 w1.frameLen).rmaStat q0.home 0).touchQp 1) ∧ (q0.home = dieOfLink 0) ∧ (q0.cached = true) ∧ (q0.parked = []) ∧ (∀ e ∈ q0.owed, e.2 ≤ 96) ∧ (w1.psn = q0.rqPsn) ∧ (q0.cipRx = none) ∧ (4 = w1.payload.length) ∧ (true = (decide (w1.opcode = 8) || decide (w1.opcode = 10))) ∧ (w1.opcode ∈ [6, 10] ∧ q0.inMsg = none ∧ g1 = { rkey := w1.rkey, addr := w1.va, left := w1.dmaLen } ∨ w1.opcode ∈ [7, 8] ∧ q0.inMsg = some g1)) ∧
    ((4 = g1.left) ∧ (4 ≤ mtuBytes q0.mtu) ∧ (0 < 4) ∧ (g1.left ≤ 2147483648) ∧ ((vv S0 q0 w1).keyOk q0 g1.rkey g1.addr g1.left true = true)) ∧
    ((vv S0 q0 w1).writeBy clsNet q0.inst g1.addr w1.payload = (arg7, Except.ok ())) ∧
    ((w1.ackReq = false) ∧ (q0.ackDue < 15) ∧ (pktDropped wf = false)) ∧
    (S0.qpByQpn wf.dqpn = some (1, q0)) ∧
    ((vv S0 q0 wf = ((S0.charge q0.inst 3 wf.frameLen).rmaStat q0.home 0).touchQp 1) ∧ (wf.psn = q0.rqPsn) ∧ (1024 = wf.payload.length) ∧ (false = (decide (wf.opcode = 8) || decide (wf.opcode = 10))) ∧ (wf.opcode ∈ [6, 10] ∧ q0.inMsg = none ∧ g2 = { rkey := wf.rkey, addr := wf.va, left := wf.dmaLen } ∨ wf.opcode ∈ [7, 8] ∧ q0.inMsg = some g2) ∧ (1024 = mtuBytes q0.mtu) ∧ (1024 < g2.left) ∧ (0 < 1024) ∧ (g2.left ≤ 2147483648) ∧ ((vv S0 q0 wf).keyOk q0 g2.rkey g2.addr g2.left true = true) ∧ (wf.ackReq = false) ∧ ((Sm.link 0).state = LinkState.up)) ∧
    ((Sm.power.rung < 2) ∧ (Sm.power.exiting = false) ∧ (Sm.power.entering = none) ∧ (pktDropped wl = false)) ∧
    (Sm.qpByQpn wl.dqpn = some (1, qm)) ∧
    ((qm.state = QpState.rtr ∨ qm.state = QpState.rts) ∧ (Sm.genOf qm.inst = qm.gen) ∧ (vv Sm qm wl = ((Sm.charge qm.inst 3 wl.frameLen).rmaStat qm.home 0).touchQp 1) ∧ (qm.home = dieOfLink 0) ∧ (qm.cached = true) ∧ (qm.parked = []) ∧ (∀ e ∈ qm.owed, e.2 ≤ 96) ∧ (wl.psn = qm.rqPsn) ∧ (qm.cipRx = none) ∧ (1 = wl.payload.length) ∧ (true = (decide (wl.opcode = 8) || decide (wl.opcode = 10))) ∧ (wl.opcode ∈ [6, 10] ∧ qm.inMsg = none ∧ arg8 = { rkey := wl.rkey, addr := wl.va, left := wl.dmaLen } ∨ wl.opcode ∈ [7, 8] ∧ qm.inMsg = some arg8)) ∧
    ((1 = arg8.left) ∧ (1 ≤ mtuBytes qm.mtu) ∧ (0 < 1) ∧ (arg8.left ≤ 2147483648) ∧ ((vv Sm qm wl).keyOk qm arg8.rkey arg8.addr arg8.left true = true)) ∧
    ((vv Sm qm wl).writeBy clsNet qm.inst arg8.addr wl.payload = (arg9, Except.ok ())) ∧
    ((wl.ackReq = false) ∧ (qm.ackDue < 15) ∧ (pktDropped wk = false)) ∧
    (S0.qpByQpn wk.dqpn = some (1, q0)) ∧
    ((vv S0 q0 wk = ((S0.charge q0.inst 3 wk.frameLen).rmaStat q0.home 0).touchQp 1) ∧ (wk.psn = q0.rqPsn) ∧ (4 = wk.payload.length) ∧ (true = (decide (wk.opcode = 8) || decide (wk.opcode = 10))) ∧ (wk.opcode ∈ [6, 10] ∧ q0.inMsg = none ∧ arg10 = { rkey := wk.rkey, addr := wk.va, left := wk.dmaLen } ∨ wk.opcode ∈ [7, 8] ∧ q0.inMsg = some arg10) ∧ (4 = arg10.left) ∧ (arg10.left ≤ 2147483648) ∧ ((vv S0 q0 wk).keyOk q0 arg10.rkey arg10.addr arg10.left true = false) ∧ (q0.reqs = []) ∧ (q0.owed = []) ∧ ((vv S0 q0 wk).rocePut q0 (roceFrame q0.path 1 (bthBytes 17 0 q0.dqpn false q0.rqPsn ++ aethBytes 98 q0.msn)) none ≠ Egress.wait) ∧ ((full.link 0).state = LinkState.up)) ∧
    ((full.power.rung < 2) ∧ (full.power.exiting = false) ∧ (full.power.entering = none)) ∧
    (full.qpByQpn wk.dqpn = some (1, q0)) ∧
    ((full.genOf q0.inst = q0.gen) ∧ (vv full q0 wk = ((full.charge q0.inst 3 wk.frameLen).rmaStat q0.home 0).touchQp 1) ∧ ((vv full q0 wk).keyOk q0 arg10.rkey arg10.addr arg10.left true = false) ∧ ((vv full q0 wk).rocePut q0 (roceFrame q0.path 1 (bthBytes 17 0 q0.dqpn false q0.rqPsn ++ aethBytes 98 q0.msn)) none = Egress.wait) ∧ (pktDropped wg = false)) ∧
    (S0.qpByQpn wg.dqpn = some (1, q0)) ∧
    ((vv S0 q0 wg = ((S0.charge q0.inst 3 wg.frameLen).rmaStat q0.home 0).touchQp 1) ∧ (wg.opcode ∈ [6, 7, 8, 10]) ∧ (0 < (wg.psn - q0.rqPsn).toNat) ∧ ((wg.psn - q0.rqPsn).toNat < 2 ^ 23) ∧ (pktDropped rd = false)) ∧
    (S0.qpByQpn rd.dqpn = some (1, q0)) ∧
    ((vv S0 q0 rd = ((S0.charge q0.inst 3 rd.frameLen).rmaStat q0.home 0).touchQp 1) ∧ (rd.opcode = 12) ∧ (rd.psn = q0.rqPsn) ∧ (q0.inMsg = none) ∧ (rd.dmaLen ≤ 2147483648) ∧ (q0.resps.length < q0.respDepth) ∧ (q0.pinned = true ∨ S0.pinnedOn q0.home < 768) ∧ ((vv S0 q0 rd).keyOk q0 rd.rkey rd.va rd.dmaLen false = true) ∧ (pktDropped rdk = false)) ∧
    (S0.qpByQpn rdk.dqpn = some (1, q0)) ∧
    ((vv S0 q0 rdk = ((S0.charge q0.inst 3 rdk.frameLen).rmaStat q0.home 0).touchQp 1) ∧ (rdk.opcode = 12) ∧ (rdk.psn = q0.rqPsn) ∧ (rdk.dmaLen ≤ 2147483648) ∧ ((vv S0 q0 rdk).keyOk q0 rdk.rkey rdk.va rdk.dmaLen false = false) ∧ ((vv S0 q0 rdk).rocePut q0 (roceFrame q0.path 1 (bthBytes 17 0 q0.dqpn false q0.rqPsn ++ aethBytes 98 q0.msn)) none ≠ Egress.wait)) :=
  ⟨by decide +kernel,
    by decide +kernel,
    rfl,
    by decide +kernel,
    rfl,
    by decide +kernel,
    rfl,
    by decide +kernel,
    by decide +kernel,
    Prod.ext rfl (by decide +kernel),
    by decide +kernel,
    rfl,
    by decide +kernel,
    by decide +kernel,
    rfl,
    by decide +kernel,
    by decide +kernel,
    Prod.ext rfl (by decide +kernel),
    by decide +kernel,
    rfl,
    by decide +kernel,
    by decide +kernel,
    rfl,
    by decide +kernel,
    rfl,
    by decide +kernel,
    rfl,
    by decide +kernel,
    rfl,
    by decide +kernel⟩
theorem witness_RoceRequester :
    ((arg11.rma.qps.find 1 = some (qe QpState.error)) ∧ ((qe QpState.error).kind = 0) ∧ ((qe QpState.error).prodSeen ≠ (qe QpState.error).fetched)) ∧
    (arg11.readBy clsNet (qe QpState.error).inst ((qe QpState.error).sq + 64 + (qe QpState.error).fetched) 64 = (arg12, Except.ok (ent 1 1 2049))) ∧
    ((arg13 = (qe QpState.error).request (qe QpState.error).fetched (ent 1 1 2049)) ∧ ((qe QpState.error).state = QpState.error) ∧ (arg14.rma.qps.find 1 = some (qe QpState.rts)) ∧ ((qe QpState.rts).kind = 0) ∧ ((qe QpState.rts).prodSeen ≠ (qe QpState.rts).fetched)) ∧
    (arg14.readBy clsNet (qe QpState.rts).inst ((qe QpState.rts).sq + 64 + (qe QpState.rts).fetched) 64 = (arg15, Except.ok (ent 1 1 2049))) ∧
    ((arg16 = (qe QpState.rts).request (qe QpState.rts).fetched (ent 1 1 2049)) ∧ ((qe QpState.rts).state = QpState.rts) ∧ (∀ x ∈ (qe QpState.rts).reqs, x.entry = false) ∧ (wrBad (ent 1 1 2049) = false) ∧ ((arg15.localOk 1 (qe QpState.rts).inst arg16.laddr arg16.len (decide (arg16.op = 2))).2 = true) ∧ (arg17.rma.qps.find 1 = some (qe QpState.rts))) ∧
    (arg17.readBy clsNet (qe QpState.rts).inst ((qe QpState.rts).sq + 64 + (qe QpState.rts).fetched) 64 = (arg18, Except.ok (ent 2 1 0))) ∧
    ((arg19 = (qe QpState.rts).request (qe QpState.rts).fetched (ent 2 1 0)) ∧ (wrBad (ent 2 1 0) = false) ∧ ((arg18.localOk 1 (qe QpState.rts).inst arg19.laddr arg19.len (decide (arg19.op = 2))).2 = true) ∧ (arg20.rma.qps.find 1 = some (qe QpState.rts))) ∧
    (arg20.readBy clsNet (qe QpState.rts).inst ((qe QpState.rts).sq + 64 + (qe QpState.rts).fetched) 64 = (arg21, Except.ok (ent 3 1 0))) ∧
    ((arg22 = (qe QpState.rts).request (qe QpState.rts).fetched (ent 3 1 0)) ∧ ((qe QpState.rts).reqs = []) ∧ (wrBad (ent 3 1 0) = true) ∧ (SO.rma.qps.find 1 = some qo) ∧ (qo.owed = [(6, 98)]) ∧ (SO.genOf qo.inst = qo.gen) ∧ ((SO.putQp 1 { inst := qo.inst, gen := qo.gen, kind := qo.kind, pd := qo.pd, home := qo.home, state := qo.state, sq := qo.sq, sqLen := qo.sqLen, cq := qo.cq, cqLen := qo.cqLen, cons := qo.cons, fetched := qo.fetched, prodSeen := qo.prodSeen, cqProd := qo.cqProd, cqSeq := qo.cqSeq, dqpn := qo.dqpn, sqPsn := qo.sqPsn, rqPsn := qo.rqPsn, mtu := qo.mtu, retry := qo.retry, timeout := qo.timeout, initDepth := qo.initDepth, respDepth := qo.respDepth, path := qo.path, w := qo.w, base := qo.base, lastCut := qo.lastCut, probing := qo.probing, retries := qo.retries, reqs := qo.reqs, unacked := qo.unacked, inMsg := qo.inMsg, nakSent := qo.nakSent, ackDue := qo.ackDue, ackSince := qo.ackSince, owed := [], minRtt := qo.minRtt, msn := qo.msn, resps := qo.resps, cached := qo.cached, used := qo.used, parked := qo.parked, cipTx := qo.cipTx, cipRx := qo.cipRx }).rocePut qo (roceFrame qo.path 1 (bthBytes 17 0 qo.dqpn false 6 ++ aethBytes 98 qo.msn)) none = Egress.done uo) ∧ (SS.rma.qps.find 1 = some qs) ∧ (qs.state = QpState.rts) ∧ (qs.owed = []) ∧ (qs.resps = []) ∧ (r1.started = true ∨ SS.stalled qs = false)) ∧
    ((qs.cached = true) ∧ (∀ u ∈ qs.unacked, u.again = false) ∧ (qs.probing = false)) ∧
    (qs.nextReq = some (0, r1)) ∧
    ((x1 = packetOf qs r1 r1.sent) ∧ (qs.windowOk (x1.frameLen qs) = true) ∧ (qs.pinned = true ∨ SS.pinnedOn qs.home < 768) ∧ (SS.genOf qs.inst = qs.gen) ∧ (qs.cipTx = none) ∧ (qs.path.fabric = false)) ∧
    ((match x1.place with | some a => (SS.touchQp 1).readBy clsNet qs.inst a x1.len | none => (SS.touchQp 1, Except.ok x1.data)) = (st1, Except.ok pt1)) ∧
    ((0 = 8 * qs.path.link + qs.path.cls) ∧ (SS.traffic.iqmap.find (512 * qs.path.link + 8 * qs.inst + qs.path.cls) = none) ∧ (arg23 = SS.traffic.dflt.getD 0 LinkQueue.initial) ∧ (f1 pt1 = roceFrame qs.path 1 (bthBytes x1.op (padOf x1.len) qs.dqpn x1.ack x1.psn ++ x1.reth ++ pt1 ++ zeros (padOf pt1.length))) ∧ (wireLen ((f1 pt1).length + 4) = wireLen ((f1 pt1).length + 4)) ∧ (roomFor (wireLen ((f1 pt1).length + 4)) (queuedBytes arg23.frames) 262144 (SS.dieQueued (dieOfLink qs.path.link)) = true) ∧ (SA.rma.qps.find 1 = some qa) ∧ (0 < 64) ∧ ((SA.link 0).state = LinkState.up) ∧ (SA.power.rung < 2) ∧ (SA.power.exiting = false) ∧ (SA.power.entering = none)) ∧
    (pktDropped (ak 21 31) = false) ∧
    (SA.qpByQpn (ak 21 31).dqpn = some (1, qa)) ∧
    ((qa.state = QpState.rts) ∧ (SA.genOf qa.inst = qa.gen) ∧ (qa.cached = true) ∧ (qa.parked = []) ∧ (qa.home = dieOfLink 0) ∧ (qa.unacked = [sp 20, sp 21]) ∧ (psnLe (sp 20).psn (ak 21 31).psn = true) ∧ (psnLe qa.sqPsn (ak 21 31).psn = false) ∧ ((ak 21 31).opcode = 17) ∧ (qa.reqs = [rs]) ∧ (rs.op = 1) ∧ (rs.status = none)) ∧
    ((rs.sent = rs.npsn) ∧ (rs.eng = false) ∧ (rs.signal = true) ∧ (psnLe (rs.psn0 + BitVec.ofNat 24 (rs.npsn - 1)) (ak 21 31).psn = true) ∧ ((ak 21 31).syndrome / 32 % 4 = 0) ∧ (pktDropped (ak 20 97) = false)) ∧
    (SA.qpByQpn (ak 20 97).dqpn = some (1, qa)) ∧
    ((psnLe (sp 20).psn (ak 20 97).psn = true) ∧ (psnLe qa.sqPsn (ak 20 97).psn = false) ∧ ((ak 20 97).opcode = 17) ∧ (((ak 20 97).psn - rs.psn0).toNat < rs.npsn) ∧ (psnLe (rs.psn0 + BitVec.ofNat 24 (rs.npsn - 1)) ((ak 20 97).psn - 1) = false) ∧ (1 ≤ 1) ∧ (1 ≤ 3) ∧ ((ak 20 97).syndrome = 96 + 1) ∧ (pktDropped (ak 21 99) = false)) ∧
    (SA.qpByQpn (ak 21 99).dqpn = some (1, qa)) ∧
    ((psnLe (sp 20).psn (ak 21 99).psn = true) ∧ (psnLe qa.sqPsn (ak 21 99).psn = false) ∧ ((ak 21 99).opcode = 17) ∧ (((ak 21 99).psn - rs.psn0).toNat < rs.npsn) ∧ (psnLe (rs.psn0 + BitVec.ofNat 24 (rs.npsn - 1)) ((ak 21 99).psn - 1) = false) ∧ (3 ≤ 3) ∧ ((ak 21 99).syndrome = 96 + 3) ∧ ((RS (qr 0)).rma.qps.find 1 = some (qr 0)) ∧ (((RS (qr 0)).link 0).state = LinkState.up) ∧ ((RS (qr 0)).power.rung < 2) ∧ ((RS (qr 0)).power.exiting = false) ∧ ((RS (qr 0)).power.entering = none)) ∧
    (pktDropped arg24 = false) ∧
    ((RS (qr 0)).qpByQpn arg24.dqpn = some (1, qr 0)) ∧
    (((qr 0).state = QpState.rts) ∧ ((RS (qr 0)).genOf (qr 0).inst = (qr 0).gen) ∧ ((qr 0).cached = true) ∧ ((qr 0).parked = []) ∧ ((qr 0).home = dieOfLink 0) ∧ ((qr 0).unacked = [sp 20]) ∧ (psnLe (sp 20).psn arg24.psn = true) ∧ (psnLe (qr 0).sqPsn arg24.psn = false) ∧ (arg24.opcode ∈ [13, 14, 15, 16]) ∧ ((qr 0).reqs = [arg25]) ∧ (arg25.op = 2) ∧ (arg25.started = true)) ∧
    ((arg25.status = none) ∧ (arg25.eng = false) ∧ ((qr 0).cipRx = none) ∧ ((sp 20).psn = arg24.psn) ∧ ((arg24.psn - arg25.psn0).toNat < arg25.npsn) ∧ (arg24.psn = arg25.psn0 + BitVec.ofNat 24 (arg25.got / mtuBytes (qr 0).mtu)) ∧ (1024 = min (mtuBytes (qr 0).mtu) (arg25.len - arg25.got)) ∧ (arg24.payload.length = 1024) ∧ (false = decide (arg25.len ≤ arg25.got + 1024)) ∧ (false = false ∨ arg25.signal = true) ∧ ((RS (qr 1024)).rma.qps.find 1 = some (qr 1024)) ∧ (((RS (qr 1024)).link 0).state = LinkState.up)) ∧
    (((RS (qr 1024)).power.rung < 2) ∧ ((RS (qr 1024)).power.exiting = false) ∧ ((RS (qr 1024)).power.entering = none) ∧ (pktDropped (resp 15 21 1) = false)) ∧
    ((RS (qr 1024)).qpByQpn (resp 15 21 1).dqpn = some (1, qr 1024)) ∧
    (((qr 1024).state = QpState.rts) ∧ ((RS (qr 1024)).genOf (qr 1024).inst = (qr 1024).gen) ∧ ((qr 1024).cached = true) ∧ ((qr 1024).parked = []) ∧ ((qr 1024).home = dieOfLink 0) ∧ ((qr 1024).unacked = [sp 21]) ∧ (psnLe (sp 21).psn (resp 15 21 1).psn = true) ∧ (psnLe (qr 1024).sqPsn (resp 15 21 1).psn = false) ∧ ((resp 15 21 1).opcode ∈ [13, 14, 15, 16]) ∧ ((qr 1024).reqs = [arg26]) ∧ (arg26.op = 2) ∧ (arg26.started = true)) ∧
    ((arg26.status = none) ∧ (arg26.eng = false) ∧ ((qr 1024).cipRx = none) ∧ ((sp 21).psn = (resp 15 21 1).psn) ∧ (((resp 15 21 1).psn - arg26.psn0).toNat < arg26.npsn) ∧ ((resp 15 21 1).psn = arg26.psn0 + BitVec.ofNat 24 (arg26.got / mtuBytes (qr 1024).mtu)) ∧ (1 = min (mtuBytes (qr 1024).mtu) (arg26.len - arg26.got)) ∧ ((resp 15 21 1).payload.length = 1) ∧ (true = decide (arg26.len ≤ arg26.got + 1)) ∧ (true = false ∨ arg26.signal = true)) ∧
    (((((RS (qr 1024)).charge (qr 1024).inst 3 (resp 15 21 1).frameLen).rmaStat (qr 1024).home 0).touchQp 1).writeBy clsNet (qr 1024).inst (arg26.laddr + arg26.got) (resp 15 21 1).payload = (arg27, Except.ok ())) ∧
    ((qa.retries < qa.retry) ∧ ((RS qz).rma.qps.find 1 = some qz) ∧ (qz.state = QpState.rts) ∧ (qz.unacked = [sp 20, sp 21]) ∧ (qz.retry ≤ qz.retries) ∧ (qz.reqs = [rs]) ∧ (((sp 20).psn - rs.psn0).toNat < rs.npsn) ∧ (ST0.rma.qps.find 1 = some qt) ∧ (qt.ackSince = some 999000) ∧ (qt.owed = []) ∧ (xt ST0 = (ST0.reach (999000 + 2000)).rocePut qt (roceFrame qt.path 1 (bthBytes 17 0 qt.dqpn false (qt.rqPsn - 1) ++ aethBytes 31 qt.msn)) none) ∧ (xt ST0 = Egress.done ut)) ∧
    ((STf.rma.qps.find 1 = some qt) ∧ (xt STf = (STf.reach (999000 + 2000)).rocePut qt (roceFrame qt.path 1 (bthBytes 17 0 qt.dqpn false (qt.rqPsn - 1) ++ aethBytes 31 qt.msn)) none) ∧ (xt STf = Egress.wait) ∧ (SU.rma.qps.find 1 = some qu) ∧ (qu.cached = false) ∧ (SU.cachedOn qu.home < 1024) ∧ (SP.rma.qps.find 1 = some qp1) ∧ (qp1.parked ≠ []) ∧ (∀ pk ∈ qp1.parked, SP.noPin qp1 pk = false) ∧ (SP.fetchQp 1 = some arg28) ∧ ((RS qb).rma.qps.find 1 = some qb) ∧ (SC.rma.qps.find 1 = some qc)) ∧
    (qc.reqs = [rc]) ∧
    (rc.status = some (0, 0)) ∧
    ((0 ≠ 0 ∨ rc.signal = true) ∧ (rc.eng = false) ∧ (SC.genOf qc.inst = qc.gen) ∧ (SC.cqRoom qc = Except.ok true)) ∧
    (SC.readBy clsNet qc.inst (qc.cq + 8) 8 = (s1, arg29)) ∧
    (0 = (qc.cqProd + 32) % qc.cqLen) ∧
    (s1.writeBy clsNet qc.inst (qc.cq + 64 + qc.cqProd) (leBytes 8 rc.wrid.toNat ++ leBytes 8 qc.cqSeq.toNat ++ leBytes 4 (SC.rma.incarn.getD 1 1 * 2 ^ 18 + 1) ++ leBytes 4 rc.off ++ leBytes 4 (if 0 = 0 then rc.len else rc.got) ++ leBytes 1 0 ++ leBytes 1 0 ++ zeros 2) = (s2, Except.ok ())) ∧
    (s2.writeBy clsNet qc.inst qc.cq (leBytes 8 0) = (s3, Except.ok ())) ∧
    (((s3.putQp 1 { inst := qc.inst, gen := qc.gen, kind := qc.kind, pd := qc.pd, home := qc.home, state := qc.state, sq := qc.sq, sqLen := qc.sqLen, cq := qc.cq, cqLen := qc.cqLen, cons := qc.cons, fetched := qc.fetched, prodSeen := qc.prodSeen, cqProd := 0, cqSeq := qc.cqSeq + 1, dqpn := qc.dqpn, sqPsn := qc.sqPsn, rqPsn := qc.rqPsn, mtu := qc.mtu, retry := qc.retry, timeout := qc.timeout, initDepth := qc.initDepth, respDepth := qc.respDepth, path := qc.path, w := qc.w, base := qc.base, lastCut := qc.lastCut, probing := qc.probing, retries := qc.retries, reqs := qc.reqs, unacked := qc.unacked, inMsg := qc.inMsg, nakSent := qc.nakSent, ackDue := qc.ackDue, ackSince := qc.ackSince, owed := qc.owed, minRtt := qc.minRtt, msn := qc.msn, resps := qc.resps, cached := qc.cached, used := qc.used, parked := qc.parked, cipTx := qc.cipTx, cipRx := qc.cipRx }).putQp 1 { inst := qc.inst, gen := qc.gen, kind := qc.kind, pd := qc.pd, home := qc.home, state := qc.state, sq := qc.sq, sqLen := qc.sqLen, cq := qc.cq, cqLen := qc.cqLen, cons := (rc.off + 64) % qc.sqLen, fetched := qc.fetched, prodSeen := qc.prodSeen, cqProd := 0, cqSeq := qc.cqSeq + 1, dqpn := qc.dqpn, sqPsn := qc.sqPsn, rqPsn := qc.rqPsn, mtu := qc.mtu, retry := qc.retry, timeout := qc.timeout, initDepth := qc.initDepth, respDepth := qc.respDepth, path := qc.path, w := qc.w, base := qc.base, lastCut := qc.lastCut, probing := qc.probing, retries := qc.retries, reqs := [], unacked := qc.unacked, inMsg := qc.inMsg, nakSent := qc.nakSent, ackDue := qc.ackDue, ackSince := qc.ackSince, owed := qc.owed, minRtt := qc.minRtt, msn := qc.msn, resps := qc.resps, cached := qc.cached, used := qc.used, parked := qc.parked, cipTx := qc.cipTx, cipRx := qc.cipRx }).writeBy clsNet qc.inst (qc.sq + 8) (leBytes 8 ((rc.off + 64) % qc.sqLen)) = (s4, Except.ok ())) ∧
    (((SD 4096).rma.qps.find 1 = some q0) ∧ ((SD 4096).rma.rings.find 0 = some db) ∧ (db.stopped = false) ∧ ((SD 4096).power.rung < 2)) ∧
    ((SD 4096).readBy clsNet 0 db.ring 8 = (dm 4096, Except.ok arg30)) ∧
    ((leNat arg30 % 8 ≠ 0 ∨ db.len ≤ leNat arg30) ∧ ((SD 0).rma.qps.find 1 = some q0) ∧ ((SD 0).rma.rings.find 0 = some db) ∧ ((SD 0).power.rung < 2)) ∧
    ((SD 0).readBy clsNet 0 db.ring 8 = (dm 0, Except.ok (leBytes 8 0))) ∧
    ((leNat (leBytes 8 0) % 8 = 0) ∧ (leNat (leBytes 8 0) < db.len)) ∧
    ((dm 0).doorbells 0 db (db.len / 8) db.cons (leNat (leBytes 8 0)) = (du, some (leNat (leBytes 8 0)))) ∧
    ((BR.rma.qps.find 1 = some q0) ∧ (BR.barServes 0 0 = true) ∧ (262145 % 2 ^ 18 = 1) ∧ (q0.inst = 0) ∧ (q0.kind = 0)) ∧
    (BR.readBy clsNet 0 q0.sq 8 = (arg31, Except.ok (leBytes 8 4032))) ∧
    ((leNat (leBytes 8 4032) % 64 = 0) ∧ (leNat (leBytes 8 4032) < q0.sqLen) ∧ (BR2.rma.qps.find 1 = some arg32) ∧ (BR2.barServes 0 0 = true) ∧ (arg32.inst ≠ 0 ∨ arg32.kind = 1)) :=
  ⟨by decide +kernel,
    Prod.ext rfl (by decide +kernel),
    by decide +kernel,
    Prod.ext rfl (by decide +kernel),
    by decide +kernel,
    Prod.ext rfl (by decide +kernel),
    by decide +kernel,
    Prod.ext rfl (by decide +kernel),
    by decide +kernel,
    by decide +kernel,
    rfl,
    by decide +kernel,
    Prod.ext rfl (by decide +kernel),
    by decide +kernel,
    by decide +kernel,
    rfl,
    by decide +kernel,
    by decide +kernel,
    rfl,
    by decide +kernel,
    rfl,
    by decide +kernel,
    by decide +kernel,
    rfl,
    by decide +kernel,
    by decide +kernel,
    by decide +kernel,
    rfl,
    by decide +kernel,
    by decide +kernel,
    Prod.ext rfl (by decide +kernel),
    by decide +kernel,
    by decide +kernel,
    by decide +kernel,
    rfl,
    by decide +kernel,
    Prod.ext rfl (by decide +kernel),
    by decide +kernel,
    Prod.ext rfl (by decide +kernel),
    Prod.ext rfl (by decide +kernel),
    Prod.ext rfl (by decide +kernel),
    by decide +kernel,
    Prod.ext rfl (by decide +kernel),
    by decide +kernel,
    Prod.ext rfl (by decide +kernel),
    by decide +kernel,
    Prod.ext rfl (by decide +kernel),
    by decide +kernel,
    Prod.ext rfl (by decide +kernel),
    by decide +kernel⟩
theorem witness_RoceCommands :
    ((noQ.takes rmaCtxAreaSpec ca = true) ∧ (fieldAt ca.pkt.params 0 8 % granule = 0) ∧ ((noQ.entered rmaCtxAreaSpec ca).rma.qps = []) ∧ ((noQ.entered rmaCtxAreaSpec ca).hbmPiece 0 (fieldAt ca.pkt.params 0 8) 67108864 = some (4 * granule)) ∧ (noQ.takes rmaPdAllocSpec pa = true) ∧ ((noQ.entered rmaPdAllocSpec pa).pdsOf (fieldAt pa.pkt.params 0 1) < ((noQ.entered rmaPdAllocSpec pa).inst (fieldAt pa.pkt.params 0 1)).shares.pd) ∧ ((noQ.entered rmaPdAllocSpec pa).rma.pds.free 4096 = some 0) ∧ (noQ.takes rmaPdFreeSpec pf = true) ∧ (3 = fieldAt pf.pkt.params 0 2) ∧ ((noQ.entered rmaPdFreeSpec pf).rma.pds.find 3 = some 0) ∧ (noQ.senderOf pf = 0 ∨ 0 = noQ.senderOf pf) ∧ (∀ e ∈ (noQ.entered rmaPdFreeSpec pf).rma.qps, e.2.pd ≠ 3)) ∧
    ((∀ e ∈ (noQ.entered rmaPdFreeSpec pf).rma.wins, e.2.pd ≠ 3) ∧ (S0.takes rmaPdFreeSpec pf = true) ∧ ((S0.entered rmaPdFreeSpec pf).rma.pds.find 3 = some 0) ∧ (S0.senderOf pf = 0 ∨ 0 = S0.senderOf pf) ∧ ((∃ e ∈ (S0.entered rmaPdFreeSpec pf).rma.qps, e.2.pd = 3) ∨ ∃ e ∈ (S0.entered rmaPdFreeSpec pf).rma.wins, e.2.pd = 3) ∧ (S0.takes rmaQpCreateSpec qc1 = true) ∧ ((S0.entered rmaQpCreateSpec qc1).qpsOf (fieldAt qc1.pkt.params 0 1) < ((S0.entered rmaQpCreateSpec qc1).inst (fieldAt qc1.pkt.params 0 1)).shares.qp) ∧ ((S0.entered rmaQpCreateSpec qc1).rma.pds.find (fieldAt qc1.pkt.params 2 2) = some (fieldAt qc1.pkt.params 0 1)) ∧ (ringOk (fieldAt qc1.pkt.params 8 8) (fieldAt qc1.pkt.params 16 4) 4096 4194304 = true) ∧ (ringOk (fieldAt qc1.pkt.params 24 8) (fieldAt qc1.pkt.params 20 4) 4096 2097152 = true) ∧ ((S0.entered rmaQpCreateSpec qc1).rma.qps.free 262144 = some 0) ∧ ((S0.entered rmaQpCreateSpec qc1).rma.ctxArea ≠ none)) ∧
    ((arg33.takes rmaQpCreateSpec qc1 = true) ∧ ((arg33.entered rmaQpCreateSpec qc1).qpsOf (fieldAt qc1.pkt.params 0 1) < ((arg33.entered rmaQpCreateSpec qc1).inst (fieldAt qc1.pkt.params 0 1)).shares.qp) ∧ ((arg33.entered rmaQpCreateSpec qc1).rma.pds.find (fieldAt qc1.pkt.params 2 2) = some (fieldAt qc1.pkt.params 0 1)) ∧ ((arg33.entered rmaQpCreateSpec qc1).rma.qps.free 262144 = some 0) ∧ ((arg33.entered rmaQpCreateSpec qc1).rma.ctxArea = none) ∧ (S0.takes rmaQpModifySpec (qm1 0 0) = true)) ∧
    ((S0.entered rmaQpModifySpec (qm1 0 0)).qpByQpn (fieldAt (qm1 0 0).pkt.params 0 4) = some (1, q0)) ∧
    ((S0.senderOf (qm1 0 0) = 0 ∨ q0.inst = S0.senderOf (qm1 0 0)) ∧ (fieldAt (qm1 0 0).pkt.params 4 1 = 0) ∧ ((Sq QpState.reset).takes rmaQpModifySpec (qm1 1 0) = true)) ∧
    (((Sq QpState.reset).entered rmaQpModifySpec (qm1 1 0)).qpByQpn (fieldAt (qm1 1 0).pkt.params 0 4) = some (1, arg34)) ∧
    (((Sq QpState.reset).senderOf (qm1 1 0) = 0 ∨ arg34.inst = (Sq QpState.reset).senderOf (qm1 1 0)) ∧ (fieldAt (qm1 1 0).pkt.params 4 1 = 1) ∧ (arg34.state = QpState.reset) ∧ ((Sq QpState.init).takes rmaQpModifySpec (qm1 2 0) = true)) ∧
    (((Sq QpState.init).entered rmaQpModifySpec (qm1 2 0)).qpByQpn (fieldAt (qm1 2 0).pkt.params 0 4) = some (1, arg35)) ∧
    (((Sq QpState.init).senderOf (qm1 2 0) = 0 ∨ arg35.inst = (Sq QpState.init).senderOf (qm1 2 0)) ∧ (fieldAt (qm1 2 0).pkt.params 4 1 = 2) ∧ (arg35.state = QpState.init) ∧ (fieldAt (qm1 2 0).pkt.params 6 1 / 16 = arg35.home) ∧ ((Sq QpState.rtr).takes rmaQpModifySpec (qm1 3 0) = true)) ∧
    (((Sq QpState.rtr).entered rmaQpModifySpec (qm1 3 0)).qpByQpn (fieldAt (qm1 3 0).pkt.params 0 4) = some (1, arg36)) ∧
    (((Sq QpState.rtr).senderOf (qm1 3 0) = 0 ∨ arg36.inst = (Sq QpState.rtr).senderOf (qm1 3 0)) ∧ (fieldAt (qm1 3 0).pkt.params 4 1 = 3) ∧ (arg36.state = QpState.rtr) ∧ (SA.takes rmaQpModifySpec (qm1 4 0) = true)) ∧
    ((SA.entered rmaQpModifySpec (qm1 4 0)).qpByQpn (fieldAt (qm1 4 0).pkt.params 0 4) = some (1, qa)) ∧
    ((SA.senderOf (qm1 4 0) = 0 ∨ qa.inst = SA.senderOf (qm1 4 0)) ∧ (fieldAt (qm1 4 0).pkt.params 4 1 = 4) ∧ (S0.takes rmaQpModifySpec (qm1 3 0) = true)) ∧
    ((S0.entered rmaQpModifySpec (qm1 3 0)).qpByQpn (fieldAt (qm1 3 0).pkt.params 0 4) = some (1, q0)) ∧
    ((S0.senderOf (qm1 3 0) = 0 ∨ q0.inst = S0.senderOf (qm1 3 0)) ∧ (fieldAt (qm1 3 0).pkt.params 4 1 = 1 ∧ q0.state ≠ QpState.reset ∨ fieldAt (qm1 3 0).pkt.params 4 1 = 2 ∧ q0.state ≠ QpState.init ∨ fieldAt (qm1 3 0).pkt.params 4 1 = 3 ∧ q0.state ≠ QpState.rtr) ∧ (S0.takes rmaQpDestroySpec qd = true)) ∧
    ((S0.entered rmaQpDestroySpec qd).qpByQpn (fieldAt qd.pkt.params 0 4) = some (1, q0)) ∧
    ((S0.senderOf qd = 0 ∨ q0.inst = S0.senderOf qd) ∧ (S0.takes rmaQpGetSpec qg = true)) ∧
    ((S0.entered rmaQpGetSpec qg).qpByQpn (fieldAt qg.pkt.params 0 4) = some (1, q0)) ∧
    ((S0.senderOf qg = 0 ∨ q0.inst = S0.senderOf qg) ∧ (S0.takes rmaMwOpenSpec mo = true) ∧ (2 ^ 48 - 2 ^ 40 = fieldAt mo.pkt.params 8 8) ∧ (2 ^ 40 = fieldAt mo.pkt.params 16 8) ∧ ((S0.entered rmaMwOpenSpec mo).winsOf (fieldAt mo.pkt.params 0 1) < ((S0.entered rmaMwOpenSpec mo).inst (fieldAt mo.pkt.params 0 1)).shares.mw) ∧ ((S0.entered rmaMwOpenSpec mo).rma.pds.find (fieldAt mo.pkt.params 2 2) = some (fieldAt mo.pkt.params 0 1)) ∧ ((2 ^ 48 - 2 ^ 40) % 4096 = 0) ∧ (2 ^ 40 % 4096 = 0) ∧ (2 ^ 40 ≠ 0) ∧ (2 ^ 40 ≤ 2 ^ 40) ∧ (2 ^ 48 - 2 ^ 40 + 2 ^ 40 ≤ 2 ^ 48) ∧ ((S0.entered rmaMwOpenSpec mo).rma.wins.free 65536 = some 1)) ∧
    ((S0.takes rmaMwRevokeSpec mv = true) ∧ (0 = fieldAt mv.pkt.params 0 4 / 65536) ∧ ((S0.entered rmaMwRevokeSpec mv).rma.wins.find 0 = some win0) ∧ (S0.senderOf mv = 0 ∨ win0.inst = S0.senderOf mv) ∧ (win0.revoking = none) ∧ ((S0.entered rmaMwRevokeSpec mv).rma.wgen.getD 0 0 = BitVec.ofNat 16 (fieldAt mv.pkt.params 0 4)) ∧ (W.rma.wins.find 0 = some arg37) ∧ (arg37.revoking = some { ch := 2, id := 0, seq := 0 }) ∧ ((SD 0).takes rmaDbSetSpec (ds 0) = true) ∧ (fieldAt (ds 0).pkt.params 16 4 = 0) ∧ ((SD 0).takes rmaDbSetSpec (ds 1048576) = true) ∧ (fieldAt (ds 1048576).pkt.params 16 4 ≠ 0)) ∧
    (ringOk (fieldAt (ds 1048576).pkt.params 8 8) (fieldAt (ds 1048576).pkt.params 16 4) 4096 1048576 = true) :=
  ⟨by decide +kernel,
    by decide +kernel,
    by decide +kernel,
    rfl,
    by decide +kernel,
    rfl,
    by decide +kernel,
    rfl,
    by decide +kernel,
    rfl,
    by decide +kernel,
    rfl,
    by decide +kernel,
    rfl,
    by decide +kernel,
    rfl,
    by decide +kernel,
    rfl,
    by decide +kernel,
    by decide +kernel,
    by decide +kernel⟩

end W13

/-! ## Witnesses: Storage queues -/

namespace W14

/-- A submission queue entry: opcode, CID, NSID, PRP1, PRP2 and dwords 10 on. -/
def nent (op cid nsid p1 p2 : Nat) (dws : List Nat) : List Byte :=
  padTo 64 (fields ([(1,op),(1,0),(2,cid),(4,nsid),(16,0),(8,p1),(8,p2)] ++ dws.map fun d => (4,d)))
def sq0 (base cq : Nat) : NvSq := { base, size := 64, head := 63, tail := 0, cq, frozen := false, deleting := none }
def cq0 (base : Nat) : NvCq := { base, size := 64, head := 0, tail := 63, phase := true, ien := false, vec := 0, coal := 0, coalAt := none, stuck := [], failed := false }
def nctrl : NvCtrl := { NvCtrl.initial with mode := .device, rdy := true, granted := 5, sqs := [(0, sq0 0x40000 0)], cqs := [(0, { cq0 0x50000 with head := 5 })], dbArea := 0x80000 }
def NV (c : NvCtrl) (ent : List Byte) (st : Storage → Storage := id) (p : Nat := 0x40000) : State :=
  { live with mem := mem [(0, mapTo 4), (4 * granule + p + 64 * 63, ent)], storage := st { live.storage with ctrls := [(0, c)] } }
def e0 : NvmeFetch := { ctrl := 0, sq := 0, entry := [], prpList := [] }
def ft (ent : List Byte) : Fetched := { i := 0, y := 0, entry := ent, list := [] }
def rd1 (s : State) : State := (s.ctrlRead 0 (0x40000 + 64 * 63) 64).1
def vv (s : State) : State := (rd1 s).nvConsumed 0 0 (sq0 0x40000 0)
def X0 := { sq0 0x40000 0 with head := 9 }
def q9 : NvCq := { cq0 0x50000 with head := 9 }
def W0 (st : Nat) := NV { nctrl with sqs := [(0, X0)], cqs := [(0, q9)] } (nent 0 0 0 0 0 [])
def bt (ent : List Byte) (c : NvCtrl := nctrl) (st : Storage → Storage := id) := NV c ent st
def Ecq := nent 5 17 0 0x60000 0 [5 + 65536 * 1, 1]
def ncq : NvCq := { base := 0x60000, size := 2, head := 0, tail := 0, phase := true, ien := false, vec := 0, coal := 0, coalAt := none, stuck := [], failed := false }
def c5 := { nctrl with cqs := nctrl.cqs.put 5 ncq }
def Esq := nent 1 17 0 0x61000 0 [5 + 65536 * 1, 1 + 65536 * 5]
def sq5 : NvSq := { base := 0x61000, size := 2, head := 0, tail := 0, cq := 5, frozen := false, deleting := none }
def c55 := { c5 with sqs := c5.sqs.put 5 sq5 }
def Eds := nent 0 18 0 0 0 [5]
def ncmd : NvCmd := { ctrl := 0, gen := 0, sq := 5, cid := 30, op := .flush, ns := 0, slba := 0, nlb := 0, flag := false, more := [], data := [], prps := [], begun := false, at_ := 500, aborted := none, due := 0, fail := none, waits := [], key := none, dead := false, eng := none, posts := [] }
def withC (c : NvCmd) (st : Storage) : Storage := { st with cmds := [(2, c)], nextCmd := 3 }
def SD1 := bt Eds c55 (withC ncmd)
def Edc := nent 4 18 0 0 0 [5]
def Eid (cns : Nat) := nent 6 18 0 0x90000 0 [cns]
def ns0 : Namespace := { kind := 2, owner := 0, lba4k := false, cipher := false, ciph := 0, port := 0, base := 5 * granule, size := 100, drvNs := 0, qp := 0, rkey := 0, attach := [0] }
def withN (st : Storage) : Storage := { st with nss := [(0, ns0)] }
def SI (cns : Nat) := bt (Eid cns) nctrl withN
def d2 : List Byte := padTo 4096 (leBytes 4 1)
def El (lid : Nat) := nent 2 18 0 0x90000 0 [lid + 65536 * 15]
def SL := bt (El 1) { nctrl with changed := [3, 2], masked := [2, 0] }
def dl : List Byte := []
def al : State := (vv SL).modCtrl 0 fun c => { c with masked := c.masked.filter (· ≠ 0) }
def bl : State := (al.prps 0 (El 1) [] 64 true).1
def Eab (y n : Nat) := nent 8 18 0 0 0 [y + 65536 * n]
def ab4 := { nctrl with aborts := [⟨1, 2, 3, true⟩, ⟨2, 2, 3, true⟩, ⟨3, 2, 3, true⟩, ⟨4, 2, 3, true⟩] }
def ab3 := { nctrl with aborts := ab4.aborts.take 3, aers := [40, 41] }
def SB (b : Bool) := bt (Eab 5 30) { c55 with aborts := ab4.aborts.take 3 } (withC { ncmd with begun := b })
def Esf (fid v : Nat) := nent 9 18 0 0 0 [fid, v]
def SF (fid v : Nat) := bt (Esf fid v)
def v7 := 65536 * 0xFFFE + 3
def Egf (fid : Nat) := nent 0xA 18 0 0 0 [fid]
def SG (fid : Nat) := bt (Egf fid)
def Eae := nent 0xC 18 0 0 0 []
def ae4 := { nctrl with aers := [1, 2, 3, 4] }
def ae3 := { nctrl with aers := [1, 2, 3] }
def hostC : NvCtrl := { nctrl with mode := .host }
def HB : State := let s := NV hostC []; { s with pcie := { s.pcie with fns := [(0, { PceFn.initial 0 with bound := some 0, cmd := 6 })] } }
def hx : NvSq := { sq0 0x40000 0 with head := 63, tail := 0 }
def PA := NV nctrl []
def mp : State := (PA.readBy clsHost 0 0x80000 32768).1
def up : State := mp.nvDoorbell 0 0 false 0
def ioC : NvCtrl := { NvCtrl.initial with mode := .device, rdy := true, granted := 5, sqs := [(0, { sq0 0x60000 0 with tail := 63 }), (1, sq0 0x40000 1)], cqs := [(0, { cq0 0x50000 with head := 5 }), (1, { cq0 0x70000 with head := 5 })], dbArea := 0x80000 }
def e1 : NvmeFetch := { ctrl := 0, sq := 1, entry := [], prpList := [] }
def fi (ent : List Byte) : Fetched := { i := 0, y := 1, entry := ent, list := [] }
def NIO (ent : List Byte) (st : Storage → Storage := id) := NV ioC ent st
def io1 (s : State) : State := (s.ctrlRead 0 (0x40000 + 64 * 63) 64).1
def io2 (s : State) (ent : List Byte) : State := match (io1 s).arbiter (some (0, 1, ent)) with | some (_, _, t) => t | none => s
def iov (s : State) (ent : List Byte) : State := (io2 s ent).nvConsumed 0 1 (sq0 0x40000 1)
def Nfl (n : Nat) := nent 0 18 n 0 0 []
def Nrw (op n p1 slba nlb : Nat) (fl : Nat := 0) := nent op 18 n p1 0 [slba, 0, nlb - 1 + fl]
def W2 := Nrw 1 0 0x90000 0 1
def R2 := Nrw 2 0 0x90000 0 1
def R3 := Nrw 2 1 0x90000 99 2
def R4 := Nrw 2 1 0x90000 0 4097
def F1 := Nfl 1
def wN (st : Storage) : Storage := withC { ncmd with op := .write, begun := true, sq := 1 } (withN st)
def R5 := Nrw 2 1 0x90000 99 1
def pa (s : State) (ent : List Byte) (wr : Bool) := ((iov s ent).prps 0 ent [] 512 wr).1
def nsd : Namespace := { ns0 with kind := 1, port := 3, base := 7, drvNs := 4 }
def wD (st : Storage) : Storage := { st with nss := [(0, nsd)], nextCmd := 3, drives := [(3, { state := .ready, nss := [(4, 9, 1000)], exitUs := 0, vwc := true, resetting := false, low := 0 })] }
def upR (s : State) : State := { s with pcie := { s.pcie with roots := [(3, { RootPort.initial with state := .up })] } }
def IOD (ent : List Byte) := upR (NIO ent wD)
def W5 := Nrw 1 1 0x90000 99 1 (2^30)
def wb (s : State) : State := ((pa s W5 false).newId.2.ctrlGet 0 [(0x90000, 512)]).1
def Z5 := Nrw 8 1 0 99 1
def D5 := nent 9 18 1 0x90000 0 [0, 4]
def SDm : State := let s := NIO D5 wN; { s with mem := mem [(0, mapTo 4), (4 * granule + 0x40000 + 64 * 63, D5), (4 * granule + 0x90000, fields [(4,0),(4,3),(8,97)])] }
def da := ((iov SDm D5).prps 0 D5 [] 16 false).1
def dB := (da.ctrlGet 0 [(0x90000, 16)]).1
def bc (op : NvOp) : NvCmd := { ncmd with op, sq := 1, begun := true, slba := 99, nlb := 1, data := zeros 512, prps := [(0x90000, 512)] }
def BK (c : NvCmd) (x : Namespace := ns0) (g : State → State := id) : State := g (NIO [] fun st => { withC c st with nss := [(0, x)], drives := [(3, { state := .ready, nss := [(4, 9, 1000)], exitUs := 0, vwc := true, resetting := false, low := 0 })] })
def r0 (code : BackCode) : BackingResult := { code, lba := 0, data := [] }
def bs (s : State) : State := match s.saveAt none (ns0.base + 99 * 512) (zeros 512) with | .ok m => m | .error _ => s
def br : NvCmd := { bc .read with nlb := 1 }
def bad (s : State) : State := let s := s.markWritten (ns0.base + 99 * 512) 1; { s with hbm := { s.hbm with bad := [ns0.base + 99 * 512] } }
def ns3 : Namespace := { ns0 with kind := 3, qp := 1 }
def b3 : NvCmd := { bc .write with eng := some 7 }
def en (ok : Bool) (s : State) : State := { s with rma := { s.rma with engDone := [(7, { ok, data := [] })] } }
def ab := { bc .write with aborted := some 900_000 }
def DL : State := let s := BK (bc .write) nsd; { s with storage := { s.storage with cmds := [], deletes := [(2, (⟨2, 0, 0⟩, 0))] } }
def LU : State := let s := BK (bc .write) nsd; { s with storage := { s.storage with cmds := [], drives := [] }, pins := { s.pins with prsnt := [] } }
def LD := BK (bc .read) nsd upR
def AP : State := NV { nctrl with sqs := [(0, { sq0 0x40000 0 with tail := 63 })], idleAt := some 1_000_000, feat := { nctrl.feat with apst := 1, apstTab := leBytes 8 (8 + 256 * 16777215) } } []
def AG : State := let s := NV { nctrl with cqs := [(0, { cq0 0x50000 with coalAt := some 900_000, coal := 3, vec := 2 })] } []; { s with pcie := { s.pcie with fns := [(0, { PceFn.initial 0 with bound := some 0, cmd := 6 })] } }
def SX (c : NvCtrl) : State := NV c []
def CE (i en : Nat) := cmd 0x8001 (fields [(1,i),(1,en),(2,4095),(2,4095),(2,1000),(8,0x40000),(8,0x10000),(8,0x80000)])
def dOff : NvCtrl := NvCtrl.initial
def CF (en : Nat) := cmd 0x8001 (fields [(1,0),(1,en),(30,0)])
def CS := cmd 0x8002 (fields [(1,0),(7,0)])
def RL : State := let s := SX { nctrl with lost := 5 }; { s with power := { s.power with rails := [(6, { Rail.initial with set := 750 })] } }
def HO (c : NvCtrl) : State := let s := NV c []; { s with pcie := { s.pcie with fns := [(0, { PceFn.initial 0 with bound := some 0, cmd := 6 })] } }
def HC : NvCtrl := { NvCtrl.initial with aqa := 0x003F003F, asq := 0x12345000, acq := 0x23456000 }
def NC (k base size : Nat) := cmd 0x8101 (fields [(1,0),(1,k),(1,9),(1,0),(2,0),(1,3),(1,0),(8,size),(8,base),(4,4),(4,0),(4,0),(4,0)])
def nsc (k base size : Nat) : Namespace := { kind := k, owner := 0, lba4k := false, cipher := false, ciph := 0, port := 3, base, size, drvNs := 4, qp := 0, rkey := 0, attach := [0] }
def ND := cmd 0x8102 (fields [(4,1),(4,0)])
def DN (x : Namespace) (c : List (Nat × NvCmd) := []) : State := upR (NIO [] fun st => { st with nss := [(0, x)], cmds := c, nextCmd := 3, drives := [(3, { state := .ready, nss := [(4, 9, 1000)], exitUs := 0, vwc := true, resetting := false, low := 0 })] })
def yd (x : Namespace) (c : List (Nat × NvCmd) := []) : State := (((DN x c).entered stoNsDeleteSpec ND).putNs 0 { x with attach := [] }).nsChanged 0 0
def n64 := { ns0 with size := 4096 }
def NA (k on : Nat) := cmd 0x8103 (fields [(4,1),(1,k),(1,on),(2,0)])
def NP (sl dl n : Nat) := cmd 0x8104 (fields [(4,1),(4,2),(8,sl),(8,dl),(4,n),(4,0)])
def n65 := { n64 with base := 9 * granule, size := 8 }
def CP : State := let s := DN n64; { s with storage := { s.storage with nss := [(0, n64), (1, n65)] } }
def cv := CP.entered stoNsCopySpec (NP 4094 6 2)
def cm : State := match cv.saveAt none (n65.base + 6 * 512) (cv.readBytes (n64.base + 4094 * 512) 1024) with | .ok m => m | .error _ => cv
def DS := cmd 0x8201 (fields [(1,3),(7,0)])
def arg1 : State := ((W0 0).writeBy clsHost 0 (0x50000 + 16 * 63) (leBytes 4 0x12345 ++ zeros 4 ++ leBytes 2 9 ++ leBytes 2 0 ++ leBytes 2 77 ++ [1, 0])).1
def arg2 : State := (bl.ctrlPut 0 [(0x90000, 64)] (padTo 64 dl)).1
def arg3 : State := bt (Eab 0 40) ab4
def arg4 : State := vv (bt (Eab 0 40) ab4)
def arg5 : State := bt (Eab 0 40) ab3
def arg6 : State := vv (bt (Eab 0 40) ab3)
def arg7 : Fetched := ft (Esf 1 0x12345607)
def arg8 : State := vv (SF 1 0x12345607)
def arg9 : Fetched := ft (Esf 8 0x1FF)
def arg10 : State := NIO (Nfl 2) withN
def arg11 : State := iov (NIO (Nfl 2) withN) (Nfl 2)
def arg12 : State := iov (NIO W2 withN) W2
def arg13 : State := iov (NIO R2 withN) R2
def arg14 : State := iov (NIO R3 withN) R3
def arg15 : State := iov (NIO R4 withN) R4
def arg16 : State := iov (NIO F1 wN) F1
def arg17 : State := iov (NIO R5 wN) R5
def arg18 : State := pa (NIO R5 wN) R5 true
def arg19 : List (ℕ × ℕ) := [(0x90000, 512)]
def arg20 : State := pa (IOD R5) R5 true
def arg21 : State := iov (NIO W5 wN) W5
def arg22 : State := pa (NIO W5 wN) W5 false
def arg23 : State := NIO W5 wD |> upR
def arg24 : State := pa (IOD W5) W5 false
def arg25 : State := iov (NIO Z5 wN) Z5
def arg26 : List Byte := fields [(4,0),(4,3),(8,97)]
def arg27 : State := bs (BK (bc .write))
def arg28 : State := BK b3 ns3 (en false)
def arg29 : EngDone := { ok := false, data := [] }
def arg30 : State := BK (bc .write) nsd
def arg31 : State := BK (bc .write) nsd upR
def arg32 : NvCq := { cq0 0x50000 with coalAt := some 900_000, coal := 3, vec := 2 }
def arg33 : State := SX { nctrl with mode := .host }
def arg34 : State := SX { nctrl with enWait := some ⟨2, 9, 0⟩ }
def arg35 : Cmd := NC 2 (6 * granule) 4096
def arg36 : Namespace := nsc 2 (6 * granule) 4096
def arg37 : Cmd := NC 2 (4 * granule) 4096
def arg38 : Namespace := nsc 2 (4 * granule) 4096
def arg39 : State := DN { ns0 with attach := [0, 1] }
def arg40 : Namespace := { ns0 with attach := [0, 1] }
def arg41 : State := DN n64 [(2, bc .write)]
def arg42 : State := yd n64 [(2, bc .write)]
def arg43 : State := (yd n64 [(2, bc .write)]).zeroStore n64.base (n64.size * n64.lba)
def arg44 : State := (yd n64).zeroStore n64.base (n64.size * n64.lba)
def arg45 : State := (yd nsd).zeroStore nsd.base (nsd.size * nsd.lba)

theorem witness_NvmeAdminCommands :
    ((((W0 0).ctrl (ft []).i).mode = CtrlMode.device) ∧ (((W0 0).ctrl (ft []).i).resetting = false) ∧ ((W0 0).ctrlFresh (ft []).i = true)) ∧
    ((W0 0).cqOf (ft []).i (bitsOf ((ft []).dw 10) 15 0) = some (0, q9)) ∧
    ((q9.stuck = []) ∧ (q9.failed = false) ∧ ((q9.tail + 1) % q9.size ≠ q9.head) ∧ (q9.ien = false) ∧ ((W0 0).sq (ft []).i (bitsOf ((ft []).dw 10) 15 0) = some X0)) ∧
    ((W0 0).writeBy clsHost (ft []).i (q9.base + 16 * q9.tail) (leBytes 4 74565 ++ zeros 4 ++ leBytes 2 X0.head ++ leBytes 2 (bitsOf ((ft []).dw 10) 15 0) ++ leBytes 2 77 ++ [if q9.phase = true then 1 else 0, 0]) = (arg1, Except.ok ())) ∧
    (e0.sq = 0) ∧
    (NvTakes (bt Ecq) e0 5 (ft Ecq) (vv (bt Ecq))) ∧
    (((ft Ecq).clean [(16, 8), (32, 8), (48, 16)] = true) ∧ (bitsOf ((ft Ecq).dw 11) 15 2 = 0) ∧ (bitAt ((ft Ecq).dw 11) 0 = true) ∧ (fieldAt (ft Ecq).entry 24 8 % 4096 = 0) ∧ (1 ≤ bitsOf ((ft Ecq).dw 10) 15 0) ∧ (bitsOf ((ft Ecq).dw 10) 15 0 ≤ ((vv (bt Ecq)).ctrl (ft Ecq).i).granted) ∧ ((vv (bt Ecq)).cq (ft Ecq).i (bitsOf ((ft Ecq).dw 10) 15 0) = none) ∧ (2 ≤ bitsOf ((ft Ecq).dw 10) 31 16 + 1) ∧ (bitAt ((ft Ecq).dw 11) 1 = true → (vv (bt Ecq)).vectorOk (ft Ecq).i (bitsOf ((ft Ecq).dw 11) 31 16) = true)) ∧
    (NvTakes (bt Esq c5) e0 1 (ft Esq) (vv (bt Esq c5))) ∧
    (((ft Esq).clean [(16, 8), (32, 8), (48, 16)] = true) ∧ (bitsOf ((ft Esq).dw 11) 15 3 = 0) ∧ (bitAt ((ft Esq).dw 11) 0 = true) ∧ (fieldAt (ft Esq).entry 24 8 % 4096 = 0) ∧ (1 ≤ bitsOf ((ft Esq).dw 10) 15 0) ∧ (bitsOf ((ft Esq).dw 10) 15 0 ≤ ((vv (bt Esq c5)).ctrl (ft Esq).i).granted) ∧ ((vv (bt Esq c5)).sq (ft Esq).i (bitsOf ((ft Esq).dw 10) 15 0) = none) ∧ (((vv (bt Esq c5)).ctrl (ft Esq).i).ioSqs < ((vv (bt Esq c5)).inst (ft Esq).i).shares.sqp) ∧ ((vv (bt Esq c5)).allSqs < 4096) ∧ (2 ≤ bitsOf ((ft Esq).dw 10) 31 16 + 1) ∧ (bitsOf ((ft Esq).dw 11) 31 16 ≠ 0) ∧ ((vv (bt Esq c5)).cq (ft Esq).i (bitsOf ((ft Esq).dw 11) 31 16) ≠ none)) ∧
    (∀ x ∈ ((vv (bt Esq c5)).ctrl (ft Esq).i).sqs, x.2.cq ≠ bitsOf ((ft Esq).dw 11) 31 16) ∧
    (NvTakes (bt Esq) e0 1 (ft Esq) (vv (bt Esq))) ∧
    ((bitsOf ((ft Esq).dw 10) 15 0 ≤ ((vv (bt Esq)).ctrl (ft Esq).i).granted) ∧ ((vv (bt Esq)).sq (ft Esq).i (bitsOf ((ft Esq).dw 10) 15 0) = none) ∧ (((vv (bt Esq)).ctrl (ft Esq).i).ioSqs < ((vv (bt Esq)).inst (ft Esq).i).shares.sqp) ∧ ((vv (bt Esq)).allSqs < 4096) ∧ (bitsOf ((ft Esq).dw 11) 31 16 = 0 ∨ (vv (bt Esq)).cq (ft Esq).i (bitsOf ((ft Esq).dw 11) 31 16) = none ∨ ∃ x ∈ ((vv (bt Esq)).ctrl (ft Esq).i).sqs, x.2.cq = bitsOf ((ft Esq).dw 11) 31 16)) ∧
    (NvTakes (bt Eds c55) e0 0 (ft Eds) (vv (bt Eds c55))) ∧
    (((ft Eds).clean [(16, 24), (44, 20)] = true) ∧ (bitsOf ((ft Eds).dw 10) 31 16 = 0) ∧ (bitsOf ((ft Eds).dw 10) 15 0 ≠ 0) ∧ ((vv (bt Eds c55)).sq (ft Eds).i (bitsOf ((ft Eds).dw 10) 15 0) = some sq5) ∧ (∀ k ∈ (vv (bt Eds c55)).cmdsOf (ft Eds).i, k.2.sq = bitsOf ((ft Eds).dw 10) 15 0 → k.2.begun = true ∧ k.2.due = 0)) ∧
    (NvTakes SD1 e0 0 (ft Eds) (vv SD1)) ∧
    (((vv SD1).sq (ft Eds).i (bitsOf ((ft Eds).dw 10) 15 0) = some sq5) ∧ (List.filter (fun k => decide (k.2.sq = bitsOf ((ft Eds).dw 10) 15 0) && (!k.2.begun || decide (k.2.due ≠ 0))) ((vv SD1).cmdsOf (ft Eds).i) = [(2, ncmd)])) ∧
    (NvTakes (bt Edc c5) e0 4 (ft Edc) (vv (bt Edc c5))) ∧
    (((ft Edc).clean [(16, 24), (44, 20)] = true) ∧ (bitsOf ((ft Edc).dw 10) 31 16 = 0) ∧ (bitsOf ((ft Edc).dw 10) 15 0 ≠ 0) ∧ ((vv (bt Edc c5)).cq (ft Edc).i (bitsOf ((ft Edc).dw 10) 15 0) ≠ none) ∧ (∀ x ∈ ((vv (bt Edc c5)).ctrl (ft Edc).i).sqs, x.2.cq ≠ bitsOf ((ft Edc).dw 10) 15 0)) ∧
    (NvTakes (bt Edc c55) e0 4 (ft Edc) (vv (bt Edc c55))) ∧
    (((vv (bt Edc c55)).cq (ft Edc).i (bitsOf ((ft Edc).dw 10) 15 0) ≠ none) ∧ ((5, sq5) ∈ ((vv (bt Edc c55)).ctrl (ft Edc).i).sqs) ∧ ((5, sq5).2.cq = bitsOf ((ft Edc).dw 10) 15 0)) ∧
    (NvTakes (SI 2) e0 6 (ft (Eid 2)) (vv (SI 2))) ∧
    (((ft (Eid 2)).clean [(16, 8)] = true) ∧ (bitsOf ((ft (Eid 2)).dw 10) 15 8 = 0) ∧ ((ft (Eid 2)).dw 10 % 256 = 1 ∧ d2 = identifyController (ft (Eid 2)).i ∨ (ft (Eid 2)).dw 10 % 256 = 2 ∧ d2 = padTo 4096 (List.flatMap (fun n => leBytes 4 n) ((vv (SI 2)).activeNs (ft (Eid 2)).i (ft (Eid 2)).nsid)) ∨ (ft (Eid 2)).dw 10 % 256 = 0 ∧ (vv (SI 2)).nsAt (ft (Eid 2)).nsid = some ns0 ∧ ns0.attach.contains (ft (Eid 2)).i = true ∧ d2 = ns0.identifyData)) ∧
    (NvTakes SL e0 2 (ft (El 1)) (vv SL)) ∧
    (((ft (El 1)).clean [(16, 8)] = true) ∧ (0 = fieldAt (ft (El 1)).entry 48 8) ∧ (0 % 4 = 0) ∧ (64 = 4 * (bitsOf ((ft (El 1)).dw 10) 31 16 + 65536 * bitsOf ((ft (El 1)).dw 11) 15 0 + 1)) ∧ (((ft (El 1)).dw 10 % 256 = 1 ∧ padTo 4096 dl = padTo 4096 ((vv SL).ctrl (ft (El 1)).i).errs.flatten ∧ al = if bitAt ((ft (El 1)).dw 10) 15 = true then vv SL else (vv SL).modCtrl (ft (El 1)).i fun c => { mode := c.mode, rdy := c.rdy, cfs := c.cfs, ps := c.ps, shst := c.shst, gen := c.gen, sqs := c.sqs, cqs := c.cqs, granted := c.granted, feat := c.feat, aers := c.aers, aens := c.aens, masked := List.filter (fun x => decide (x ≠ 0)) c.masked, resetting := c.resetting, heldCc := c.heldCc, flushes := c.flushes, errs := c.errs, errCnt := c.errCnt, lost := c.lost, dbArea := c.dbArea, pollUs := c.pollUs, idleAt := c.idleAt, changed := c.changed, cc := c.cc, aqa := c.aqa, asq := c.asq, acq := c.acq, intms := c.intms, reads := c.reads, writes := c.writes, unitsR := c.unitsR, unitsW := c.unitsW, enWait := c.enWait, aborts := c.aborts }) ∨ (ft (El 1)).dw 10 % 256 = 4 ∧ padTo 4096 dl = padTo 4096 (List.flatMap (fun m => leBytes 4 m) (((vv SL).ctrl (ft (El 1)).i).changed.mergeSort fun x1 x2 => decide (x1 ≤ x2))) ∧ al = if bitAt ((ft (El 1)).dw 10) 15 = true then vv SL else (vv SL).modCtrl (ft (El 1)).i fun c => { mode := c.mode, rdy := c.rdy, cfs := c.cfs, ps := c.ps, shst := c.shst, gen := c.gen, sqs := c.sqs, cqs := c.cqs, granted := c.granted, feat := c.feat, aers := c.aers, aens := c.aens, masked := List.filter (fun x => decide (x ≠ 2)) c.masked, resetting := c.resetting, heldCc := c.heldCc, flushes := c.flushes, errs := c.errs, errCnt := c.errCnt, lost := c.lost, dbArea := c.dbArea, pollUs := c.pollUs, idleAt := c.idleAt, changed := [], cc := c.cc, aqa := c.aqa, asq := c.asq, acq := c.acq, intms := c.intms, reads := c.reads, writes := c.writes, unitsR := c.unitsR, unitsW := c.unitsW, enWait := c.enWait, aborts := c.aborts })) ∧
    (al.prps (ft (El 1)).i (ft (El 1)).entry (ft (El 1)).list (padTo 64 (slice (padTo 4096 dl) 0 64)).length true = (bl, Except.ok [(589824, 64)])) ∧
    (bl.ctrlPut (ft (El 1)).i [(589824, 64)] (padTo 64 (slice (padTo 4096 dl) 0 64)) = (arg2, true)) ∧
    (NvTakes arg3 e0 8 (ft (Eab 0 40)) arg4) ∧
    (((ft (Eab 0 40)).clean [(16, 24), (44, 20)] = true) ∧ (40 = bitsOf ((ft (Eab 0 40)).dw 10) 31 16) ∧ (4 ≤ (arg4.ctrl (ft (Eab 0 40)).i).aborts.length)) ∧
    (NvTakes arg5 e0 8 (ft (Eab 0 40)) arg6) ∧
    (((arg6.ctrl (ft (Eab 0 40)).i).aborts.length < 4) ∧ (bitsOf ((ft (Eab 0 40)).dw 10) 15 0 = 0) ∧ (40 ∈ (arg6.ctrl (ft (Eab 0 40)).i).aers)) ∧
    (NvTakes (SB false) e0 8 (ft (Eab 5 30)) (vv (SB false))) ∧
    (((ft (Eab 5 30)).clean [(16, 24), (44, 20)] = true) ∧ (30 = bitsOf ((ft (Eab 5 30)).dw 10) 31 16) ∧ (((vv (SB false)).ctrl (ft (Eab 5 30)).i).aborts.length < 4) ∧ (bitsOf ((ft (Eab 5 30)).dw 10) 15 0 ≠ 0 ∨ 30 ∉ ((vv (SB false)).ctrl (ft (Eab 5 30)).i).aers)) ∧
    (List.find? (fun k => decide (k.2.sq = bitsOf ((ft (Eab 5 30)).dw 10) 15 0) && decide (k.2.cid = 30) && !k.2.begun) ((vv (SB false)).cmdsOf (ft (Eab 5 30)).i) = some (2, ncmd)) ∧
    (NvTakes (SB true) e0 8 (ft (Eab 5 30)) (vv (SB true))) ∧
    ((((vv (SB true)).ctrl (ft (Eab 5 30)).i).aborts.length < 4) ∧ (bitsOf ((ft (Eab 5 30)).dw 10) 15 0 ≠ 0 ∨ 30 ∉ ((vv (SB true)).ctrl (ft (Eab 5 30)).i).aers) ∧ (∀ k ∈ (vv (SB true)).cmdsOf (ft (Eab 5 30)).i, k.2.sq = bitsOf ((ft (Eab 5 30)).dw 10) 15 0 → k.2.cid = 30 → k.2.begun = true)) ∧
    (NvTakes (SF 1 305419783) e0 9 arg7 arg8) ∧
    ((arg7.clean [(16, 8)] = true) ∧ (arg7.dw 10 = 1)) ∧
    (NvTakes (SF 8 511) e0 9 arg9 (vv (SF 8 511))) ∧
    ((arg9.clean [(16, 8)] = true) ∧ (arg9.dw 10 = 8)) ∧
    (NvTakes (SF 7 v7) e0 9 (ft (Esf 7 v7)) (vv (SF 7 v7))) ∧
    (((ft (Esf 7 v7)).clean [(16, 8)] = true) ∧ ((ft (Esf 7 v7)).dw 10 = 7) ∧ ((ft (Esf 7 v7)).dw 11 % 65536 ≠ 65535) ∧ ((ft (Esf 7 v7)).dw 11 / 65536 ≠ 65535) ∧ (((vv (SF 7 v7)).ctrl (ft (Esf 7 v7)).i).ioSqs = 0) ∧ (∀ k ∈ ((vv (SF 7 v7)).ctrl (ft (Esf 7 v7)).i).cqs, k.1 = 0) ∧ (4 = min (min ((ft (Esf 7 v7)).dw 11 % 65536 + 1) ((ft (Esf 7 v7)).dw 11 / 65536 + 1)) (min 4095 ((vv (SF 7 v7)).inst (ft (Esf 7 v7)).i).shares.sqp)) ∧ (4 ≠ 0)) ∧
    (NvTakes (SF 2 3) e0 9 (ft (Esf 2 3)) (vv (SF 2 3))) ∧
    (((ft (Esf 2 3)).clean [(16, 8)] = true) ∧ ((ft (Esf 2 3)).dw 10 = 2) ∧ (2 < (ft (Esf 2 3)).dw 11 % 32)) ∧
    (NvTakes (SF 2 2) e0 9 (ft (Esf 2 2)) (vv (SF 2 2))) ∧
    (((ft (Esf 2 2)).clean [(16, 8)] = true) ∧ ((ft (Esf 2 2)).dw 10 = 2) ∧ ((ft (Esf 2 2)).dw 11 % 32 ≤ 2)) ∧
    (NvTakes (SG 1) e0 10 (ft (Egf 1)) (vv (SG 1))) ∧
    (((ft (Egf 1)).clean [(16, 8)] = true) ∧ ((ft (Egf 1)).dw 10 = 1)) ∧
    (NvTakes (SG 8) e0 10 (ft (Egf 8)) (vv (SG 8))) ∧
    (((ft (Egf 8)).clean [(16, 8)] = true) ∧ ((ft (Egf 8)).dw 10 = 8)) ∧
    (NvTakes (SG 7) e0 10 (ft (Egf 7)) (vv (SG 7))) ∧
    (((ft (Egf 7)).clean [(16, 8)] = true) ∧ ((ft (Egf 7)).dw 10 = 7)) ∧
    (NvTakes (bt Eae ae4) e0 12 (ft Eae) (vv (bt Eae ae4))) ∧
    (((ft Eae).clean [(16, 48)] = true) ∧ (4 ≤ ((vv (bt Eae ae4)).ctrl (ft Eae).i).aers.length)) ∧
    (NvTakes (bt Eae ae3) e0 12 (ft Eae) (vv (bt Eae ae3))) ∧
    ((((vv (bt Eae ae3)).ctrl (ft Eae).i).aers.length < 4) ∧ (((vv (bt Eae ae3)).ctrl (ft Eae).i).aens = []) ∧ (HB.barServes 0 0 = true) ∧ ((HB.ctrl 0).mode = CtrlMode.host) ∧ ((HB.ctrl 0).resetting = false) ∧ ((HB.ctrl 0).cfs = false) ∧ (4096 ≤ 4096) ∧ (4096 < 65536) ∧ (4096 % 8 = 0) ∧ (HB.sq 0 ((4096 - 4096) / 8) = some hx) ∧ (hx.frozen = false) ∧ (63 = 63 % 65536)) ∧
    ((63 < hx.size) ∧ (63 ≠ hx.tail) ∧ (64 = 64 % 65536) ∧ (hx.size ≤ 64) ∧ ((PA.ctrl 0).mode = CtrlMode.device) ∧ (PA.power.rung < 2) ∧ ((PA.ctrl 0).sqs = [(0, sq0 262144 0)]) ∧ (up = mp.nvDoorbell 0 0 false (fieldAt (zeros 32768) 0 4)) ∧ (List.map (fun x => x.1) (up.ctrl 0).cqs = [0])) :=
  ⟨by decide +kernel,
    rfl,
    by decide +kernel,
    Prod.ext rfl (by decide +kernel),
    by decide +kernel,
    nvTakes_device (rd1 ((bt Ecq))) (rd1 ((bt Ecq))) (sq0 0x40000 0) (Prod.ext rfl (by decide +kernel)) rfl (by decide +kernel),
    by decide +kernel,
    nvTakes_device (rd1 ((bt Esq c5))) (rd1 ((bt Esq c5))) (sq0 0x40000 0) (Prod.ext rfl (by decide +kernel)) rfl (by decide +kernel),
    by decide +kernel,
    by decide +kernel,
    nvTakes_device (rd1 ((bt Esq))) (rd1 ((bt Esq))) (sq0 0x40000 0) (Prod.ext rfl (by decide +kernel)) rfl (by decide +kernel),
    by decide +kernel,
    nvTakes_device (rd1 ((bt Eds c55))) (rd1 ((bt Eds c55))) (sq0 0x40000 0) (Prod.ext rfl (by decide +kernel)) rfl (by decide +kernel),
    by decide +kernel,
    nvTakes_device (rd1 (SD1)) (rd1 (SD1)) (sq0 0x40000 0) (Prod.ext rfl (by decide +kernel)) rfl (by decide +kernel),
    by decide +kernel,
    nvTakes_device (rd1 ((bt Edc c5))) (rd1 ((bt Edc c5))) (sq0 0x40000 0) (Prod.ext rfl (by decide +kernel)) rfl (by decide +kernel),
    by decide +kernel,
    nvTakes_device (rd1 ((bt Edc c55))) (rd1 ((bt Edc c55))) (sq0 0x40000 0) (Prod.ext rfl (by decide +kernel)) rfl (by decide +kernel),
    by decide +kernel,
    nvTakes_device (rd1 ((SI 2))) (rd1 ((SI 2))) (sq0 0x40000 0) (Prod.ext rfl (by decide +kernel)) rfl (by decide +kernel),
    by decide +kernel,
    nvTakes_device (rd1 (SL)) (rd1 (SL)) (sq0 0x40000 0) (Prod.ext rfl (by decide +kernel)) rfl (by decide +kernel),
    by decide +kernel,
    Prod.ext rfl (by decide +kernel),
    Prod.ext rfl (by decide +kernel),
    nvTakes_device (rd1 (arg3)) (rd1 (arg3)) (sq0 0x40000 0) (Prod.ext rfl (by decide +kernel)) rfl (by decide +kernel),
    by decide +kernel,
    nvTakes_device (rd1 (arg5)) (rd1 (arg5)) (sq0 0x40000 0) (Prod.ext rfl (by decide +kernel)) rfl (by decide +kernel),
    by decide +kernel,
    nvTakes_device (rd1 ((SB false))) (rd1 ((SB false))) (sq0 0x40000 0) (Prod.ext rfl (by decide +kernel)) rfl (by decide +kernel),
    by decide +kernel,
    rfl,
    nvTakes_device (rd1 ((SB true))) (rd1 ((SB true))) (sq0 0x40000 0) (Prod.ext rfl (by decide +kernel)) rfl (by decide +kernel),
    by decide +kernel,
    nvTakes_device (rd1 ((SF 1 305419783))) (rd1 ((SF 1 305419783))) (sq0 0x40000 0) (Prod.ext rfl (by decide +kernel)) rfl (by decide +kernel),
    by decide +kernel,
    nvTakes_device (rd1 ((SF 8 511))) (rd1 ((SF 8 511))) (sq0 0x40000 0) (Prod.ext rfl (by decide +kernel)) rfl (by decide +kernel),
    by decide +kernel,
    nvTakes_device (rd1 ((SF 7 v7))) (rd1 ((SF 7 v7))) (sq0 0x40000 0) (Prod.ext rfl (by decide +kernel)) rfl (by decide +kernel),
    by decide +kernel,
    nvTakes_device (rd1 ((SF 2 3))) (rd1 ((SF 2 3))) (sq0 0x40000 0) (Prod.ext rfl (by decide +kernel)) rfl (by decide +kernel),
    by decide +kernel,
    nvTakes_device (rd1 ((SF 2 2))) (rd1 ((SF 2 2))) (sq0 0x40000 0) (Prod.ext rfl (by decide +kernel)) rfl (by decide +kernel),
    by decide +kernel,
    nvTakes_device (rd1 ((SG 1))) (rd1 ((SG 1))) (sq0 0x40000 0) (Prod.ext rfl (by decide +kernel)) rfl (by decide +kernel),
    by decide +kernel,
    nvTakes_device (rd1 ((SG 8))) (rd1 ((SG 8))) (sq0 0x40000 0) (Prod.ext rfl (by decide +kernel)) rfl (by decide +kernel),
    by decide +kernel,
    nvTakes_device (rd1 ((SG 7))) (rd1 ((SG 7))) (sq0 0x40000 0) (Prod.ext rfl (by decide +kernel)) rfl (by decide +kernel),
    by decide +kernel,
    nvTakes_device (rd1 ((bt Eae ae4))) (rd1 ((bt Eae ae4))) (sq0 0x40000 0) (Prod.ext rfl (by decide +kernel)) rfl (by decide +kernel),
    by decide +kernel,
    nvTakes_device (rd1 ((bt Eae ae3))) (rd1 ((bt Eae ae3))) (sq0 0x40000 0) (Prod.ext rfl (by decide +kernel)) rfl (by decide +kernel),
    by decide +kernel,
    by decide +kernel⟩
theorem witness_NvmeInputOutput :
    ((e1.sq ≠ 0) ∧ ((fi (Nfl 2)).nsid = 0 ∨ ∀ (x : Namespace), arg11.nss ((fi (Nfl 2)).nsid - 1) = some x → x.attach.contains (fi (Nfl 2)).i = false)) ∧
    (NvTakes arg10 e1 0 (fi (Nfl 2)) arg11) ∧
    (((fi (Nfl 2)).clean [(16, 48)] = true) ∧ ((fi W2).nsid = 0 ∨ ∀ (x : Namespace), arg12.nss ((fi W2).nsid - 1) = some x → x.attach.contains (fi W2).i = false)) ∧
    (NvTakes (NIO W2 withN) e1 1 (fi W2) arg12) ∧
    ((rwClean (fi W2) = true) ∧ ((fi R2).nsid = 0 ∨ ∀ (x : Namespace), arg13.nss ((fi R2).nsid - 1) = some x → x.attach.contains (fi R2).i = false)) ∧
    (NvTakes (NIO R2 withN) e1 2 (fi R2) arg13) ∧
    ((rwClean (fi R2) = true) ∧ ((fi R3).nsid ≠ 0) ∧ (arg14.nss ((fi R3).nsid - 1) = some ns0) ∧ (ns0.attach.contains (fi R3).i = true) ∧ (ns0.cipher = false)) ∧
    (NvTakes (NIO R3 withN) e1 2 (fi R3) arg14) ∧
    ((rwClean (fi R3) = true) ∧ (bitsOf ((fi R3).dw 12) 15 0 + 1 ≤ if ns0.lba4k = true then 512 else 4096) ∧ (ns0.size < fieldAt (fi R3).entry 40 8 + (bitsOf ((fi R3).dw 12) 15 0 + 1)) ∧ ((fi R4).nsid ≠ 0) ∧ (arg15.nss ((fi R4).nsid - 1) = some ns0) ∧ (ns0.attach.contains (fi R4).i = true)) ∧
    (NvTakes (NIO R4 withN) e1 2 (fi R4) arg15) ∧
    ((rwClean (fi R4) = true) ∧ ((if ns0.lba4k = true then 512 else 4096) < bitsOf ((fi R4).dw 12) 15 0 + 1) ∧ ((fi F1).nsid ≠ 0) ∧ (arg16.nss ((fi F1).nsid - 1) = some ns0) ∧ (ns0.attach.contains (fi F1).i = true)) ∧
    (NvTakes (NIO F1 wN) e1 0 (fi F1) arg16) ∧
    (((fi F1).clean [(16, 48)] = true) ∧ ((fi R5).nsid ≠ 0) ∧ (arg17.nss ((fi R5).nsid - 1) = some ns0) ∧ (ns0.attach.contains (fi R5).i = true)) ∧
    (NvTakes (NIO R5 wN) e1 2 (fi R5) arg17) ∧
    ((rwClean (fi R5) = true) ∧ (bitsOf ((fi R5).dw 12) 15 0 + 1 ≤ if ns0.lba4k = true then 512 else 4096) ∧ (fieldAt (fi R5).entry 40 8 + (bitsOf ((fi R5).dw 12) 15 0 + 1) ≤ ns0.size)) ∧
    (arg17.prps (fi R5).i (fi R5).entry (fi R5).list ((bitsOf ((fi R5).dw 12) 15 0 + 1) * ns0.lba) true = (arg18, Except.ok arg19)) ∧
    ((ns0.kind = 2) ∧ ((iov (IOD R5) R5).nss ((fi R5).nsid - 1) = some nsd) ∧ (nsd.attach.contains (fi R5).i = true) ∧ (nsd.cipher = false)) ∧
    (NvTakes (IOD R5) e1 2 (fi R5) (iov (IOD R5) R5)) ∧
    ((bitsOf ((fi R5).dw 12) 15 0 + 1 ≤ if nsd.lba4k = true then 512 else 4096) ∧ (fieldAt (fi R5).entry 40 8 + (bitsOf ((fi R5).dw 12) 15 0 + 1) ≤ nsd.size)) ∧
    ((iov (IOD R5) R5).prps (fi R5).i (fi R5).entry (fi R5).list ((bitsOf ((fi R5).dw 12) 15 0 + 1) * nsd.lba) true = (arg20, Except.ok arg19)) ∧
    ((nsd.kind = 1) ∧ ((iov (IOD R5) R5).driveReady nsd.port = true) ∧ ((fi W5).nsid ≠ 0) ∧ (arg21.nss ((fi W5).nsid - 1) = some ns0) ∧ (ns0.attach.contains (fi W5).i = true)) ∧
    (NvTakes (NIO W5 wN) e1 1 (fi W5) arg21) ∧
    ((rwClean (fi W5) = true) ∧ (bitsOf ((fi W5).dw 12) 15 0 + 1 ≤ if ns0.lba4k = true then 512 else 4096) ∧ (fieldAt (fi W5).entry 40 8 + (bitsOf ((fi W5).dw 12) 15 0 + 1) ≤ ns0.size)) ∧
    (arg21.prps (fi W5).i (fi W5).entry (fi W5).list ((bitsOf ((fi W5).dw 12) 15 0 + 1) * ns0.lba) false = (arg22, Except.ok arg19)) ∧
    ((arg19 ≠ []) ∧ ((arg21.ctrl (fi W5).i).mode = CtrlMode.device)) ∧
    (arg22.newId.2.ctrlGet (fi W5).i arg19 = (wb (NIO W5 wN), some (zeros 512))) ∧
    (((iov (IOD W5) W5).nss ((fi W5).nsid - 1) = some nsd) ∧ (nsd.attach.contains (fi W5).i = true)) ∧
    (NvTakes arg23 e1 1 (fi W5) (iov (IOD W5) W5)) ∧
    ((bitsOf ((fi W5).dw 12) 15 0 + 1 ≤ if nsd.lba4k = true then 512 else 4096) ∧ (fieldAt (fi W5).entry 40 8 + (bitsOf ((fi W5).dw 12) 15 0 + 1) ≤ nsd.size)) ∧
    ((iov (IOD W5) W5).prps (fi W5).i (fi W5).entry (fi W5).list ((bitsOf ((fi W5).dw 12) 15 0 + 1) * nsd.lba) false = (arg24, Except.ok arg19)) ∧
    (((iov (IOD W5) W5).ctrl (fi W5).i).mode = CtrlMode.device) ∧
    (arg24.newId.2.ctrlGet (fi W5).i arg19 = (wb (IOD W5), some (zeros 512))) ∧
    (((iov (IOD W5) W5).driveReady nsd.port = true) ∧ ((wb (IOD W5)).drive nsd.port = (iov (IOD W5) W5).drive nsd.port) ∧ ((fi Z5).nsid ≠ 0) ∧ (arg25.nss ((fi Z5).nsid - 1) = some ns0) ∧ (ns0.attach.contains (fi Z5).i = true)) ∧
    (NvTakes (NIO Z5 wN) e1 8 (fi Z5) arg25) ∧
    (((fi Z5).clean [(16, 24), (52, 4)] = true) ∧ (bitsOf ((fi Z5).dw 12) 23 16 = 0) ∧ (bitsOf ((fi Z5).dw 12) 15 0 + 1 ≤ if ns0.lba4k = true then 512 else 4096) ∧ (fieldAt (fi Z5).entry 40 8 + (bitsOf ((fi Z5).dw 12) 15 0 + 1) ≤ ns0.size) ∧ ((fi D5).nsid ≠ 0) ∧ ((iov SDm D5).nss ((fi D5).nsid - 1) = some ns0) ∧ (ns0.attach.contains (fi D5).i = true)) ∧
    (NvTakes SDm e1 9 (fi D5) (iov SDm D5)) ∧
    (((fi D5).clean [(16, 8), (48, 16)] = true) ∧ ((fi D5).dw 10 = 0) ∧ ((fi D5).dw 11 = 4)) ∧
    ((iov SDm D5).prps (fi D5).i (fi D5).entry (fi D5).list 16 false = (da, Except.ok [(589824, 16)])) ∧
    (da.ctrlGet (fi D5).i [(589824, 16)] = (dB, some arg26)) ∧
    ((dB.nss ((fi D5).nsid - 1) = some ns0) ∧ (fieldAt arg26 8 8 + fieldAt arg26 4 4 ≤ ns0.size) ∧ (dB.storage.nextCmd = (iov SDm D5).storage.nextCmd) ∧ ((BK (bc NvOp.write)).storage.cmds.find 2 = some (bc NvOp.write)) ∧ ((BK (bc NvOp.write)).nss (bc NvOp.write).ns = some ns0) ∧ ((bc NvOp.write).begun = true) ∧ ((bc NvOp.write).due = 0) ∧ ((bc NvOp.write).fail = none) ∧ ((bc NvOp.write).dead = false) ∧ ((bc NvOp.write).key = none) ∧ ((bc NvOp.write).op = NvOp.write) ∧ ((BK (bc NvOp.write)).saveAt none (ns0.base + (bc NvOp.write).slba * ns0.lba) (bc NvOp.write).data = Except.ok arg27)) ∧
    (((BK (bc NvOp.read)).storage.cmds.find 2 = some (bc NvOp.read)) ∧ ((BK (bc NvOp.read)).nss (bc NvOp.read).ns = some ns0) ∧ ((bc NvOp.read).begun = true) ∧ ((bc NvOp.read).due = 0) ∧ ((bc NvOp.read).fail = none) ∧ ((bc NvOp.read).dead = false) ∧ ((bc NvOp.read).key = none) ∧ ((bc NvOp.read).op = NvOp.read) ∧ ((BK (bc NvOp.read)).goodLbas (ns0.base + (bc NvOp.read).slba * ns0.lba) ns0.lba (bc NvOp.read).nlb = (bc NvOp.read).nlb) ∧ ((BK (bc NvOp.read)).ctrlFresh (bc NvOp.read).ctrl = true) ∧ ((BK br ns0 bad).storage.cmds.find 2 = some br) ∧ ((BK br ns0 bad).nss br.ns = some ns0)) ∧
    ((br.begun = true) ∧ (br.due = 0) ∧ (br.fail = none) ∧ (br.dead = false) ∧ (br.key = none) ∧ (br.op = NvOp.read) ∧ (br.nlb = 1) ∧ ((BK br ns0 bad).rangeBad (ns0.base + br.slba * ns0.lba) ns0.lba = true) ∧ ((BK br ns0 bad).ctrlFresh br.ctrl = true) ∧ ((BK (bc NvOp.flush)).storage.cmds.find 2 = some (bc NvOp.flush)) ∧ ((BK (bc NvOp.flush)).nss (bc NvOp.flush).ns = some ns0) ∧ ((bc NvOp.flush).begun = true)) ∧
    (((bc NvOp.flush).due = 0) ∧ ((bc NvOp.flush).fail = none) ∧ ((bc NvOp.flush).dead = false) ∧ ((bc NvOp.flush).key = none) ∧ ((bc NvOp.flush).op = NvOp.flush) ∧ (arg28.storage.cmds.find 2 = some b3) ∧ (arg28.nss b3.ns = some ns3) ∧ (b3.begun = true) ∧ (b3.due = 0) ∧ (b3.fail = none) ∧ (ns3.kind = 3) ∧ (b3.op = NvOp.write)) ∧
    ((b3.eng = some 7) ∧ (arg28.rma.engDone.find 7 = some arg29) ∧ (arg30.storage.cmds.find 2 = some (bc NvOp.write)) ∧ (arg30.nss (bc NvOp.write).ns = some nsd) ∧ ((bc NvOp.write).aborted = none) ∧ ((r0 BackCode.ok).code = BackCode.ok) ∧ ((r0 BackCode.writeFault).code = BackCode.writeFault) ∧ ((r0 BackCode.unreachable).code = BackCode.unreachable) ∧ ((BK ab nsd upR).storage.cmds.find 2 = some ab) ∧ ((BK ab nsd upR).nss ab.ns = some nsd) ∧ (ab.begun = true) ∧ (ab.due = 0)) ∧
    ((ab.fail = none) ∧ (ab.aborted = some 900000) ∧ (arg31.storage.cmds.find 2 = some (bc NvOp.write)) ∧ (arg31.nss (bc NvOp.write).ns = some nsd) ∧ (DL.storage.cmds.find 2 = none)) ∧
    (DL.storage.deletes.find 2 = some ({ ch := 2, id := 0, seq := 0 }, 0)) ∧
    ((LU.boot.phase = BootPhase.running) ∧ (LU.pins.prsnt.getD 7 false = false) ∧ (7 < 8) ∧ ((LD.rootPort 3).state = RootState.up) ∧ ((LD.drive 3).state = DriveState.ready) ∧ (16777215 = bitsOf (fieldAt (AP.ctrl 0).feat.apstTab 0 8) 31 8) ∧ ((AP.ctrl 0).idleAt = some 1000000) ∧ ((AP.ctrl 0).mode ≠ CtrlMode.off) ∧ ((AP.ctrl 0).feat.apst.getLsbD 0 = true) ∧ ((AP.ctrl 0).ps = 0) ∧ (16777215 ≠ 0) ∧ (1 = bitsOf (fieldAt (AP.ctrl 0).feat.apstTab 0 8) 7 3)) ∧
    ((1 = 1 ∨ 1 = 2) ∧ (AG.cq 0 0 = some arg32) ∧ (AG.fnOf 0 = some 0) ∧ (arg32.coalAt = some 900000)) :=
  ⟨by decide +kernel,
    nvTakes_device (io1 (arg10)) (io2 (arg10) ((Nfl 2))) (sq0 0x40000 1) (Prod.ext rfl (by decide +kernel)) ⟨by decide +kernel, by decide +kernel⟩ (by decide +kernel),
    by decide +kernel,
    nvTakes_device (io1 ((NIO W2 withN))) (io2 ((NIO W2 withN)) (W2)) (sq0 0x40000 1) (Prod.ext rfl (by decide +kernel)) ⟨by decide +kernel, by decide +kernel⟩ (by decide +kernel),
    by decide +kernel,
    nvTakes_device (io1 ((NIO R2 withN))) (io2 ((NIO R2 withN)) (R2)) (sq0 0x40000 1) (Prod.ext rfl (by decide +kernel)) ⟨by decide +kernel, by decide +kernel⟩ (by decide +kernel),
    by decide +kernel,
    nvTakes_device (io1 ((NIO R3 withN))) (io2 ((NIO R3 withN)) (R3)) (sq0 0x40000 1) (Prod.ext rfl (by decide +kernel)) ⟨by decide +kernel, by decide +kernel⟩ (by decide +kernel),
    by decide +kernel,
    nvTakes_device (io1 ((NIO R4 withN))) (io2 ((NIO R4 withN)) (R4)) (sq0 0x40000 1) (Prod.ext rfl (by decide +kernel)) ⟨by decide +kernel, by decide +kernel⟩ (by decide +kernel),
    by decide +kernel,
    nvTakes_device (io1 ((NIO F1 wN))) (io2 ((NIO F1 wN)) (F1)) (sq0 0x40000 1) (Prod.ext rfl (by decide +kernel)) ⟨by decide +kernel, by decide +kernel⟩ (by decide +kernel),
    by decide +kernel,
    nvTakes_device (io1 ((NIO R5 wN))) (io2 ((NIO R5 wN)) (R5)) (sq0 0x40000 1) (Prod.ext rfl (by decide +kernel)) ⟨by decide +kernel, by decide +kernel⟩ (by decide +kernel),
    by decide +kernel,
    Prod.ext rfl (by decide +kernel),
    by decide +kernel,
    nvTakes_device (io1 ((IOD R5))) (io2 ((IOD R5)) (R5)) (sq0 0x40000 1) (Prod.ext rfl (by decide +kernel)) ⟨by decide +kernel, by decide +kernel⟩ (by decide +kernel),
    by decide +kernel,
    Prod.ext rfl (by decide +kernel),
    by decide +kernel,
    nvTakes_device (io1 ((NIO W5 wN))) (io2 ((NIO W5 wN)) (W5)) (sq0 0x40000 1) (Prod.ext rfl (by decide +kernel)) ⟨by decide +kernel, by decide +kernel⟩ (by decide +kernel),
    by decide +kernel,
    Prod.ext rfl (by decide +kernel),
    by decide +kernel,
    Prod.ext rfl (by decide +kernel),
    by decide +kernel,
    nvTakes_device (io1 (arg23)) (io2 (arg23) (W5)) (sq0 0x40000 1) (Prod.ext rfl (by decide +kernel)) ⟨by decide +kernel, by decide +kernel⟩ (by decide +kernel),
    by decide +kernel,
    Prod.ext rfl (by decide +kernel),
    by decide +kernel,
    Prod.ext rfl (by decide +kernel),
    by decide +kernel,
    nvTakes_device (io1 ((NIO Z5 wN))) (io2 ((NIO Z5 wN)) (Z5)) (sq0 0x40000 1) (Prod.ext rfl (by decide +kernel)) ⟨by decide +kernel, by decide +kernel⟩ (by decide +kernel),
    by decide +kernel,
    nvTakes_device (io1 (SDm)) (io2 (SDm) (D5)) (sq0 0x40000 1) (Prod.ext rfl (by decide +kernel)) ⟨by decide +kernel, by decide +kernel⟩ (by decide +kernel),
    by decide +kernel,
    Prod.ext rfl (by decide +kernel),
    Prod.ext rfl (by decide +kernel),
    by decide +kernel,
    by decide +kernel,
    by decide +kernel,
    by decide +kernel,
    by decide +kernel,
    by decide +kernel,
    rfl,
    by decide +kernel,
    by decide +kernel⟩
theorem witness_StorageCommands :
    ((arg33.takes stoCtrlEnSpec (CE 0 1) = true) ∧ (((arg33.entered stoCtrlEnSpec (CE 0 1)).ctrl (fieldAt (CE 0 1).pkt.params 0 1)).mode = CtrlMode.host) ∧ ((SX dOff).takes stoCtrlEnSpec (CE 0 1) = true) ∧ ((((SX dOff).entered stoCtrlEnSpec (CE 0 1)).ctrl (fieldAt (CE 0 1).pkt.params 0 1)).mode = CtrlMode.off) ∧ (fieldAt (CE 0 1).pkt.params 1 1 = 1) ∧ (((SX dOff).entered stoCtrlEnSpec (CE 0 1)).mapsRd (fieldAt (CE 0 1).pkt.params 0 1) (fieldAt (CE 0 1).pkt.params 8 8) (64 * (fieldAt (CE 0 1).pkt.params 2 2 + 1)) = true) ∧ (((SX dOff).entered stoCtrlEnSpec (CE 0 1)).mapsRw (fieldAt (CE 0 1).pkt.params 0 1) (fieldAt (CE 0 1).pkt.params 16 8) (16 * (fieldAt (CE 0 1).pkt.params 4 2 + 1)) = true) ∧ (((SX dOff).entered stoCtrlEnSpec (CE 0 1)).mapsRd (fieldAt (CE 0 1).pkt.params 0 1) (fieldAt (CE 0 1).pkt.params 24 8) 32768 = true) ∧ ((SX nctrl).takes stoCtrlEnSpec (CF 0) = true) ∧ ((((SX nctrl).entered stoCtrlEnSpec (CF 0)).ctrl (fieldAt (CF 0).pkt.params 0 1)).mode = CtrlMode.device) ∧ ((((SX nctrl).entered stoCtrlEnSpec (CF 0)).ctrl (fieldAt (CF 0).pkt.params 0 1)).resetting = false) ∧ (fieldAt (CF 0).pkt.params 1 1 = 0)) ∧
    (((((SX nctrl).entered stoCtrlEnSpec (CF 0)).ctrl (fieldAt (CF 0).pkt.params 0 1)).enWait = none) ∧ ((SX nctrl).takes stoCtrlEnSpec (CF 2) = true) ∧ ((((SX nctrl).entered stoCtrlEnSpec (CF 2)).ctrl (fieldAt (CF 2).pkt.params 0 1)).mode = CtrlMode.device) ∧ ((((SX nctrl).entered stoCtrlEnSpec (CF 2)).ctrl (fieldAt (CF 2).pkt.params 0 1)).resetting = false) ∧ (fieldAt (CF 2).pkt.params 1 1 = 2) ∧ ((((SX nctrl).entered stoCtrlEnSpec (CF 2)).ctrl (fieldAt (CF 2).pkt.params 0 1)).shst = 0) ∧ (arg34.takes stoCtrlEnSpec (CF 0) = true) ∧ (((arg34.entered stoCtrlEnSpec (CF 0)).ctrl (fieldAt (CF 0).pkt.params 0 1)).mode = CtrlMode.device) ∧ (((arg34.entered stoCtrlEnSpec (CF 0)).ctrl (fieldAt (CF 0).pkt.params 0 1)).resetting = false) ∧ (((arg34.entered stoCtrlEnSpec (CF 0)).ctrl (fieldAt (CF 0).pkt.params 0 1)).enWait = some { ch := 2, id := 9, seq := 0 }) ∧ ((SX nctrl).takes stoCtrlStatusSpec CS = true) ∧ (0 < 64)) ∧
    (((RL.rail 6).set ≠ 0) ∧ ((HO HC).barServes 0 0 = true) ∧ (((HO HC).ctrl 0).mode = CtrlMode.off) ∧ (((HO HC).ctrl 0).resetting = false) ∧ (4587521 = 4587521) ∧ ((HO nctrl).barServes 0 0 = true) ∧ (((HO nctrl).ctrl 0).mode = CtrlMode.device) ∧ ((HO hostC).barServes 0 0 = true) ∧ (((HO hostC).ctrl 0).mode = CtrlMode.host) ∧ (BitVec.getLsbD (4587520 : BitVec 64) 0 = false) ∧ (bitsOf (4603905) 15 14 = 1 ∨ bitsOf (4603905) 15 14 = 2) ∧ (((HO hostC).ctrl 0).shst = 0)) ∧
    ((((HO hostC).ctrl 0).resetting = false) ∧ ((SX dOff).takes stoNsCreateSpec arg35 = true) ∧ (arg36 = { kind := fieldAt arg35.pkt.params 1 1, owner := fieldAt arg35.pkt.params 0 1, lba4k := decide (fieldAt arg35.pkt.params 2 1 = 12), cipher := bitAt (fieldAt arg35.pkt.params 3 1) 0, ciph := fieldAt arg35.pkt.params 4 2, port := fieldAt arg35.pkt.params 6 1, base := fieldAt arg35.pkt.params 16 8, size := fieldAt arg35.pkt.params 8 8, drvNs := fieldAt arg35.pkt.params 24 4, qp := fieldAt arg35.pkt.params 28 4, rkey := fieldAt arg35.pkt.params 32 4, attach := [fieldAt arg35.pkt.params 0 1] }) ∧ (((SX dOff).entered stoNsCreateSpec arg35).nsOf (fieldAt arg35.pkt.params 0 1) < (((SX dOff).entered stoNsCreateSpec arg35).inst (fieldAt arg35.pkt.params 0 1)).shares.ns) ∧ (((SX dOff).entered stoNsCreateSpec arg35).storage.nss.free 1024 = some 0) ∧ (((SX dOff).entered stoNsCreateSpec arg35).backingOk arg36 = true) ∧ (arg36.cipher = true → ∃ k, ((SX dOff).entered stoNsCreateSpec arg35).cipher.ctxs.find arg36.ciph = some k ∧ k.owner = fieldAt arg35.pkt.params 0 1) ∧ ((SX dOff).takes stoNsCreateSpec arg37 = true) ∧ (arg38 = { kind := fieldAt arg37.pkt.params 1 1, owner := fieldAt arg37.pkt.params 0 1, lba4k := decide (fieldAt arg37.pkt.params 2 1 = 12), cipher := bitAt (fieldAt arg37.pkt.params 3 1) 0, ciph := fieldAt arg37.pkt.params 4 2, port := fieldAt arg37.pkt.params 6 1, base := fieldAt arg37.pkt.params 16 8, size := fieldAt arg37.pkt.params 8 8, drvNs := fieldAt arg37.pkt.params 24 4, qp := fieldAt arg37.pkt.params 28 4, rkey := fieldAt arg37.pkt.params 32 4, attach := [fieldAt arg37.pkt.params 0 1] }) ∧ (((SX dOff).entered stoNsCreateSpec arg37).nsOf (fieldAt arg37.pkt.params 0 1) < (((SX dOff).entered stoNsCreateSpec arg37).inst (fieldAt arg37.pkt.params 0 1)).shares.ns) ∧ (((SX dOff).entered stoNsCreateSpec arg37).storage.nss.free 1024 = some 0) ∧ (((SX dOff).entered stoNsCreateSpec arg37).backingOk arg38 = false)) ∧
    ((arg39.takes stoNsDeleteSpec ND = true) ∧ ((arg39.entered stoNsDeleteSpec ND).nsAt (fieldAt ND.pkt.params 0 4) = some arg40) ∧ (1 ∈ arg40.attach) ∧ (1 ≠ arg40.owner) ∧ (arg41.takes stoNsDeleteSpec ND = true) ∧ ((arg41.entered stoNsDeleteSpec ND).nsAt (fieldAt ND.pkt.params 0 4) = some n64) ∧ (∀ k ∈ n64.attach, k = n64.owner) ∧ ((arg41.entered stoNsDeleteSpec ND).storage.closing = []) ∧ (0 = fieldAt ND.pkt.params 0 4 - 1) ∧ (arg42 = ((arg41.entered stoNsDeleteSpec ND).putNs 0 { kind := n64.kind, owner := n64.owner, lba4k := n64.lba4k, cipher := n64.cipher, ciph := n64.ciph, port := n64.port, base := n64.base, size := n64.size, drvNs := n64.drvNs, qp := n64.qp, rkey := n64.rkey, attach := [] }).nsChanged n64.owner 0) ∧ (arg43 = arg42.zeroStore n64.base (n64.size * n64.lba)) ∧ ((2, bc NvOp.write) ∈ (arg41.entered stoNsDeleteSpec ND).storage.cmds)) ∧
    (((2, bc NvOp.write).2.ns = 0) ∧ ((DN n64).takes stoNsDeleteSpec ND = true) ∧ (((DN n64).entered stoNsDeleteSpec ND).nsAt (fieldAt ND.pkt.params 0 4) = some n64) ∧ (((DN n64).entered stoNsDeleteSpec ND).storage.closing = []) ∧ (yd n64 = (((DN n64).entered stoNsDeleteSpec ND).putNs 0 { kind := n64.kind, owner := n64.owner, lba4k := n64.lba4k, cipher := n64.cipher, ciph := n64.ciph, port := n64.port, base := n64.base, size := n64.size, drvNs := n64.drvNs, qp := n64.qp, rkey := n64.rkey, attach := [] }).nsChanged n64.owner 0) ∧ (arg44 = (yd n64).zeroStore n64.base (n64.size * n64.lba)) ∧ (∀ e ∈ ((DN n64).entered stoNsDeleteSpec ND).storage.cmds, e.2.ns ≠ 0) ∧ (n64.kind = 2) ∧ ((DN nsd).takes stoNsDeleteSpec ND = true) ∧ (((DN nsd).entered stoNsDeleteSpec ND).nsAt (fieldAt ND.pkt.params 0 4) = some nsd) ∧ (∀ k ∈ nsd.attach, k = nsd.owner) ∧ (((DN nsd).entered stoNsDeleteSpec ND).storage.closing = [])) ∧
    ((yd nsd = (((DN nsd).entered stoNsDeleteSpec ND).putNs 0 { kind := nsd.kind, owner := nsd.owner, lba4k := nsd.lba4k, cipher := nsd.cipher, ciph := nsd.ciph, port := nsd.port, base := nsd.base, size := nsd.size, drvNs := nsd.drvNs, qp := nsd.qp, rkey := nsd.rkey, attach := [] }).nsChanged nsd.owner 0) ∧ (arg45 = (yd nsd).zeroStore nsd.base (nsd.size * nsd.lba)) ∧ (∀ e ∈ ((DN nsd).entered stoNsDeleteSpec ND).storage.cmds, e.2.ns ≠ 0) ∧ (nsd.kind = 1) ∧ (((DN nsd).entered stoNsDeleteSpec ND).driveReady nsd.port = true) ∧ ((DN n64).takes stoNsAttachSpec (NA 0 1) = true) ∧ (((DN n64).entered stoNsAttachSpec (NA 0 1)).nsAt (fieldAt (NA 0 1).pkt.params 0 4) = some n64) ∧ (0 = fieldAt (NA 0 1).pkt.params 4 1) ∧ (true = bitAt (fieldAt (NA 0 1).pkt.params 5 1) 0) ∧ (n64.attach.contains 0 = true) ∧ ((DN n64).takes stoNsAttachSpec (NA 63 1) = true) ∧ (((DN n64).entered stoNsAttachSpec (NA 63 1)).nsAt (fieldAt (NA 63 1).pkt.params 0 4) = some n64)) ∧
    ((63 = fieldAt (NA 63 1).pkt.params 4 1) ∧ (true = bitAt (fieldAt (NA 63 1).pkt.params 5 1) 0) ∧ (n64.attach.contains 63 ≠ true) ∧ (CP.takes stoNsCopySpec (NP 4095 0 2) = true) ∧ ((CP.entered stoNsCopySpec (NP 4095 0 2)).nsAt (fieldAt (NP 4095 0 2).pkt.params 0 4) = some n64) ∧ ((CP.entered stoNsCopySpec (NP 4095 0 2)).nsAt (fieldAt (NP 4095 0 2).pkt.params 4 4) = some n65) ∧ (4095 = fieldAt (NP 4095 0 2).pkt.params 8 8) ∧ (0 = fieldAt (NP 4095 0 2).pkt.params 16 8) ∧ (2 = fieldAt (NP 4095 0 2).pkt.params 24 4) ∧ (n64.lba4k ≠ n65.lba4k ∨ n64.size < 4095 + 2 ∨ n65.size < 0 + 2) ∧ (CP.takes stoNsCopySpec (NP 4094 6 2) = true) ∧ ((CP.entered stoNsCopySpec (NP 4094 6 2)).nsAt (fieldAt (NP 4094 6 2).pkt.params 0 4) = some n64)) ∧
    (((CP.entered stoNsCopySpec (NP 4094 6 2)).nsAt (fieldAt (NP 4094 6 2).pkt.params 4 4) = some n65) ∧ (4094 = fieldAt (NP 4094 6 2).pkt.params 8 8) ∧ (6 = fieldAt (NP 4094 6 2).pkt.params 16 8) ∧ (2 = fieldAt (NP 4094 6 2).pkt.params 24 4) ∧ (n64.lba4k = n65.lba4k) ∧ (4094 + 2 ≤ n64.size) ∧ (6 + 2 ≤ n65.size) ∧ (n64.cipher = false) ∧ (n65.cipher = false) ∧ (n65.kind = 2) ∧ (2 * n64.lba ≤ granule) ∧ ((CP.entered stoNsCopySpec (NP 4094 6 2)).rangeBad (n64.base + 4094 * n64.lba) (2 * n64.lba) = false)) ∧
    (((CP.entered stoNsCopySpec (NP 4094 6 2)).saveAt none (n65.base + 6 * n65.lba) ((CP.entered stoNsCopySpec (NP 4094 6 2)).readBytes (n64.base + 4094 * n64.lba) (2 * n64.lba)) = Except.ok cm) ∧ ((DN nsd).takes stoDriveStatusSpec DS = true)) :=
  ⟨by decide +kernel,
    by decide +kernel,
    by decide +kernel,
    by decide +kernel,
    by decide +kernel,
    by decide +kernel,
    by decide +kernel,
    by decide +kernel,
    by decide +kernel,
    by decide +kernel⟩

end W14

/-! ## Witnesses: Host endpoint -/

namespace W15

/-- A running function of the endpoint, over which `g` works. -/
def pfn (g : PceFn → PceFn) : PceFn := g { PceFn.initial 0 with bound := some 0, cmd := 6 }
/-- Function 0 is that one, function 1 another. -/
def EP (g : PceFn → PceFn) (st : State → State := id) : State :=
  st { live with pcie := { live.pcie with vfEnable := true, numVfs := 2, configured := true, fns := [(0, pfn g), (1, { PceFn.initial 1 with cmd := 6 })] } }
def mr (d : ReadDest) : MasterRead := { tag := 0, addr := 0x1040, len := 128, got := 0, inst := 0, gen := 0, sent := 900_000, dest := d }
def mrf := mr (.facet 0 3 0)
def xw (l : List MasterRead) := EP fun x => { x with waiting := l, reads := [{ mrf with tag := 0 }], quarantine := [(1, 5, false)] }
def w2 := [mrf, mrf]
def S1 : State := let s := xw w2; { s with pcie := { s.pcie with link := .down } }
def S2 := (xw w2).modFn 0 fun x => { x with cmd := 2 }
def rdy (r : MasterRead) := EP fun x => { x with reads := [r, { r with tag := 9 }] }
def cpl (n : Nat) : CplPiece := { fn := 0, tag := 0, status := 0, lowerAddr := 64, byteCount := 128, payload := List.replicate n 7, ep := false }
def r1 := { mrf with gen := 1 }
def mrc := mr (.command 5 4)
def cc : NvCmd := { ctrl := 0, gen := 0, sq := 1, cid := 30, op := .write, ns := 0, slba := 0, nlb := 1, flag := false, more := [], data := zeros 512, prps := [], begun := false, at_ := 500, aborted := none, due := 3, fail := none, waits := [], key := none, dead := false, eng := none, posts := [] }
def SC : State := let s := rdy mrc; { s with storage := { s.storage with cmds := [(5, cc)] } }
def Q3 := (rdy mrf).modFn 0 fun x => { x with quarantine := [(3, 2_000_000, true), (4, 2_000_000, false)] }
def VF : State := let s := EP id; { s with chans := s.chans.put 3 { Channel.initial 3 with bound := some 1, held := [], state := .synced } }
def VQ : State := { VF with pcie := { VF.pcie with fns := [(0, pfn fun x => { x with cmd := 6 }), (1, { PceFn.initial 1 with bound := some 1, pmeEn := true })] } }
def D3 := EP fun x => { x with d3 := true, msixEn := true, msix := [(0, { addr := 0x1000, data := 5, masked := false, pending := true })] }
def LK (l : PceLinkState) : State := let s := EP id; { s with pcie := { s.pcie with link := l } }
def LU : State := let s := LK .training; { s with pins := { s.pins with peClk := true, perst := false } }
def ww : WindowWait := { outbound := true, entry := 4, waiter := ⟨2, 0, 0⟩, fn := 0, addr := 0x1000, len := 0x1000 }
def WW (b : Bool) : State := let s := if b then rdy mrf else EP id; { s with pcie := { s.pcie with winWait := [ww] } }
def NR : State := let s := EP id; { s with pcie := { s.pcie with perstAt := some 1_000_000 } }
def hr (prod : Nat) (rep : Nat) (rec_ : List Byte := []) : HostRing := { prod, record := rec_, repCons := rep, ok := true }
def MB (g : PceFn → PceFn) (n : Nat := 0x10000) := EP fun x => g { x with mbLen := n }
def yb (s : State) (r : Nat := 64) : State := (s.modChan 2 fun c => { c with repCons := r }).flushReplies 2
def rb (_ : State) (rec_ : List Byte) := rec_.take (recordSize (rec_.take 64))
def rec0 : List Byte := padTo 64 ((packet 0x0002 []).image 2)
def iw (rd wr : Bool) (daddr : Nat) : InWindow := { fn := 0, rd, wr, inst := 0, gen := 0, obase := 0x200000, len := 0x200000, daddr }
def IW (w : InWindow) (g : State → State := id) : State := let s := EP id; g { s with pcie := { s.pcie with inWin := [(0, w)] } }
def w0 := iw true true 0x800000
def ws := iw true true spadBase
def eio (w : InWindow) (a : Nat) : AccErr := match (IW w).load (some (0, 0)) a 64 with | .error e => e | .ok _ => .trans 0
def sv : State := match (IW w0).saveAt (some (0, 0)) 0x9FFFC0 (List.replicate 64 1) with | .ok m => m | .error _ => IW w0
def wm := iw true true (2 ^ 48 - 2 ^ 21)
def RL (g : State → State := id) : State := let s := EP id; g { s with power := { s.power with rails := [(6, { Rail.initial with set := 750 })] }, pcie := { s.pcie with retrains := 9, roots := [(7, { RootPort.initial with errors := 5, downAt := 2_000_000 })] } }
def gr (b : Bool) : State := let s := EP id; { s with pcie := { s.pcie with roots := [(7, { RootPort.initial with state := .up, grants := [(2, 0x400000, 1024, b)] })] }, storage := { s.storage with cmds := [(2, { cc with data := [], op := if b then .read else .write })], nss := [(0, { kind := 1, owner := 0, lba4k := false, cipher := false, ciph := 0, port := 7, base := 7, size := 100, drvNs := 4, qp := 0, rkey := 0, attach := [0] })] } }
def dq (w : Bool) (a : Nat) : DriveReq := { addr := a, write := w, len := 64, data := List.replicate 64 2 }
def FB (fn i : Nat) := cmd 0x9001 (fields [(1,fn),(1,i),(6,0)])
def EQ : State := let s := EP id; { s with pcie := { s.pcie with fns := s.pcie.fns.put 2 { PceFn.initial 2 with bound := some 63 } } }
def IS (fl ob len da : Nat) := cmd 0x9002 (fields [(2,4095),(1,0),(1,fl),(1,0),(3,0),(8,ob),(8,len),(8,da)])
def iwx (ob len da : Nat) : InWindow := { fn := 0, rd := true, wr := true, inst := 0, gen := 0, obase := ob, len, daddr := da }
def held (s : State) : State := { s with
  pcie := { s.pcie with inWin := [(4095, w0)] }
  parcels := [(0, { parcel1 with ckp := { Ckp.initial with held := [{ granule := 4, write := { addr := 0x800000, data := [1], inst := 0, gen := 0 }, flit := none }] } })] }
def OS (fl db len bus : Nat) := cmd 0x9003 (fields [(2,4095),(1,0),(1,fl),(4,0),(8,db),(8,len),(8,bus)])
def ow (db bus : Nat) : OutWindow := { fn := 0, rd := true, wr := true, dbase := db, len := 0x1000, bus }
def OW (g : PceFn → PceFn) : State := let s := EP g; { s with pcie := { s.pcie with outWin := [(4095, ow hostBase 0x1000), (1, ow (hostBase + 0x2000) 0x9000)] } }
def WG := cmd 0x9004 (fields [(1,1),(1,0),(2,4095),(4,0)])
def DSet (en len : Nat) (b1 : Nat := 0x1000) := cmd 0x9005 (fields [(1,0),(1,en),(6,0),(8,0),(8,len),(8,0x0),(8,b1)])
def DW := cmd 0x9006 (fields [(1,0),(7,0)])
def dlg : DirtyLog := { base := 0, len := 0x1000000, bmap0 := 0, bmap1 := 0x1000, active := 1, outside := true, err := true, on := true, count := 77 }
def WK := cmd 0x9008 (fields [(1,0),(7,0)])
def arg1 : CplPiece := { cpl 0 with status := 1 }
def arg2 : CplPiece := { cpl 64 with ep := true }
def arg3 : CplPiece := { cpl 64 with tag := 3 }
def arg4 : ℕ × ℕ × Bool := (3, 2_000_000, true)
def arg5 : CplPiece := { cpl 64 with tag := 4 }
def arg6 : ℕ × ℕ × Bool := (4, 2_000_000, false)
def arg7 : State := EP fun x => { x with d3 := true }
def arg8 : State := MB fun x => { x with cmd := 2 }
def arg9 : HostRing := { hr 64 0 with ok := false }
def arg10 : List Byte := List.replicate 128 1
def arg11 : List Byte := List.replicate 64 1
def arg12 : DriveReq := dq true 0x4003C1
def arg13 : DriveReq := dq false 0x400000
def arg14 : DriveReq := dq true 0x4003C0
def arg15 : DriveReq := dq false 0x4003C0
def arg16 : State := IW (iwx 0x400000 0x200000 0x400000)
def arg17 : Cmd := IS 7 0x200000 0x200000 0x800000
def arg18 : Cmd := IS 7 0x200000 0x400000 0x800000
def arg19 : Cmd := IS 7 0x200000 0x200000 (hbmSize - 0x200000 + 0x200000)
def arg20 : Cmd := OS 7 (hostBase + 0x1000) 0x1000 (2^64 - 0x1000)
def arg21 : State := OW fun x => { x with reads := [mrf] }
def arg22 : Cmd := DSet 1 0x1000000
def arg23 : Cmd := cmd 0x9005 (fields [(1,0),(1,1),(6,0),(8,0),(8,0x1000000),(8,0x200000),(8,0x1000)])
def arg24 : State := EP fun x => { x with dlog := some dlg }
def arg25 : Cmd := cmd 0x9007 (fields [(1,40),(1,20),(6,0)])
def arg26 : State := EP fun x => { x with d3 := true, pmeEn := true }
def arg27 : Cmd := cmd 0x9009 (fields [(1,63),(7,0)])

theorem witness_EndpointRows :
    ((((xw w2).fn 0).waiting = [mrf, mrf]) ∧ (mrf.dest = ReadDest.facet 0 3 0) ∧ ((xw w2).pcie.linkUp = true) ∧ ((xw w2).mayMaster 0 = true) ∧ ((xw w2).freeTag 0 = some 2) ∧ ((xw w2).readsOut < 4096) ∧ ((xw w2).bufferUsed + mrf.len ≤ 2097152) ∧ ((S1.fn 0).waiting = [mrf, mrf]) ∧ (S1.pcie.linkUp = false) ∧ ((S2.fn 0).waiting = [mrf, mrf]) ∧ (S2.pcie.linkUp = true) ∧ (S2.mayMaster 0 = false)) ∧
    (((cpl 128).fn = 0) ∧ (((rdy r1).fn 0).read (cpl 128).tag = some r1) ∧ ((rdy r1).genOf r1.inst ≠ r1.gen) ∧ (r1.len ≤ r1.got + (cpl 128).payload.length) ∧ (arg1.fn = 0) ∧ (((rdy mrf).fn 0).read arg1.tag = some mrf) ∧ ((rdy mrf).genOf mrf.inst = mrf.gen) ∧ (arg1.status ≠ 0) ∧ (arg2.fn = 0) ∧ (((rdy mrf).fn 0).read arg2.tag = some mrf) ∧ (arg2.status = 0) ∧ (arg2.ep = true)) ∧
    (((cpl 63).fn = 0) ∧ (((rdy mrf).fn 0).read (cpl 63).tag = some mrf) ∧ ((cpl 63).status = 0) ∧ ((cpl 63).ep = false) ∧ ((rdy mrf).fits mrf (cpl 63) = false) ∧ ((cpl 64).fn = 0) ∧ ((SC.fn 0).read (cpl 64).tag = some mrc) ∧ (SC.genOf mrc.inst = mrc.gen) ∧ ((cpl 64).status = 0) ∧ ((cpl 64).ep = false) ∧ (SC.fits mrc (cpl 64) = true) ∧ (mrc.dest = ReadDest.command 5 4)) ∧
    ((SC.storage.cmds.find 5 = some cc) ∧ (mrc.got + (cpl 64).payload.length < mrc.len) ∧ (cc.due ≠ 0) ∧ (arg3.fn = 0) ∧ (((rdy mrf).fn 0).read arg3.tag = none) ∧ (∀ q ∈ ((rdy mrf).fn 0).quarantine, q.1 ≠ arg3.tag) ∧ ((Q3.fn 0).read arg3.tag = none) ∧ (List.find? (fun q => decide (q.1 = arg3.tag)) (Q3.fn 0).quarantine = some arg4) ∧ (arg5.fn = 0) ∧ ((Q3.fn 0).read arg5.tag = none) ∧ (List.find? (fun q => decide (q.1 = arg5.tag)) (Q3.fn 0).quarantine = some arg6) ∧ (((rdy mrf).fn 0).read 0 = some mrf)) ∧
    ((List.find? (fun q => decide (q.1 = 4)) (Q3.fn 0).quarantine = some arg6) ∧ (((rdy mrf).fn 0).waiting = []) ∧ (1 ≠ 0) ∧ ((VF.fn 1).waiting = []) ∧ ((VF.fn 1).reads = []) ∧ (∀ (i : ℕ), (VF.fn 1).bound = some i → (VF.ctrl i).mode ≠ CtrlMode.host) ∧ (VQ.pcie.vfEnable = true)) ∧
    (∀ (j : ℕ), 1 ≤ j → j ≤ 63 → quietFn VQ j) ∧
    (((VQ.fn 1).waiting = []) ∧ ((VQ.fn 1).reads = []) ∧ (∀ (i : ℕ), (VQ.fn 1).bound = some i → (VQ.ctrl i).mode ≠ CtrlMode.host) ∧ ((VQ.fn 2).waiting = []) ∧ ((VQ.fn 2).reads = []) ∧ (∀ (i : ℕ), (VQ.fn 2).bound = some i → (VQ.ctrl i).mode ≠ CtrlMode.host) ∧ ((VQ.fn 3).waiting = []) ∧ ((VQ.fn 3).reads = []) ∧ (∀ (i : ℕ), (VQ.fn 3).bound = some i → (VQ.ctrl i).mode ≠ CtrlMode.host) ∧ ((VQ.fn 5).waiting = []) ∧ ((VQ.fn 5).reads = []) ∧ (∀ (i : ℕ), (VQ.fn 5).bound = some i → (VQ.ctrl i).mode ≠ CtrlMode.host)) ∧
    (((VQ.fn 63).waiting = []) ∧ ((VQ.fn 63).reads = []) ∧ (∀ (i : ℕ), (VQ.fn 63).bound = some i → (VQ.ctrl i).mode ≠ CtrlMode.host) ∧ (VQ.pcie.linkUp = true)) ∧
    (∀ j ≤ 63, quietFn VQ j) ∧
    (((VQ.fn 0).waiting = []) ∧ ((VQ.fn 0).reads = []) ∧ (∀ (i : ℕ), (VQ.fn 0).bound = some i → (VQ.ctrl i).mode ≠ CtrlMode.host) ∧ (((EP id).fn 0).d3 = false) ∧ (((EP id).fn 0).waiting = []) ∧ ((arg7.fn 0).d3 = true) ∧ ((arg7.chan (0 + 2)).held = []) ∧ ((arg7.fn 0).msix = []) ∧ ((D3.fn 0).d3 = true) ∧ ((EP id).pcie.linkUp = true) ∧ ((LK PceLinkState.training).pcie.link = PceLinkState.training) ∧ ((LK PceLinkState.down).pcie.link = PceLinkState.down)) ∧
    ((LU.pcie.link = PceLinkState.training) ∧ (LU.pins.peClk = true) ∧ (LU.pins.perst = false) ∧ (4 ≤ 6) ∧ (3 < 4) ∧ (List.find? (fun y => decide (y.outbound = true) && decide (y.entry = 4)) (WW false).pcie.winWait = some ww) ∧ ((if true = true then (WW false).outBusy ww.fn ww.addr ww.len else (WW false).inBusy ww.addr ww.len) = false) ∧ (List.find? (fun y => decide (y.outbound = true) && decide (y.entry = 4)) (WW true).pcie.winWait = some ww) ∧ ((if true = true then (WW true).outBusy ww.fn ww.addr ww.len else (WW true).inBusy ww.addr ww.len) = true) ∧ (NR.pcie.linkUp = true) ∧ (NR.configReady = false) ∧ ((EP id).configReady = true)) ∧
    (((EP id).fnExists 1 = true) ∧ ((EP id).fnExists 0 = true) ∧ (CfgReg.devControl2 = CfgReg.devControl2) ∧ ((EP id).barServes 0 0 = true) ∧ (¬((8 = 4 ∨ 8 = 8) ∧ 4 % 8 = 0)) ∧ (65535 = 8791798120447 % 2 ^ 32) ∧ (ringLenOk 65535 = false) ∧ (65536 = 8791798120448 % 2 ^ 32) ∧ (ringLenOk 65536 = true) ∧ (((EP id).chan (0 + 2)).state ≠ ChanState.disabled) ∧ ((MB id 16).barServes 0 0 = true) ∧ (ringLenOk ((MB id 16).fn 0).mbLen = false)) ∧
    ((arg8.barServes 0 0 = true) ∧ (arg8.serves (0 + 2) 0 = true) ∧ (ringLenOk (arg8.fn 0).mbLen = true) ∧ (arg8.masterReason 0 = some 2) ∧ ((MB id).barServes 0 0 = true) ∧ ((MB id).serves (0 + 2) 0 = true) ∧ (ringLenOk ((MB id).fn 0).mbLen = true) ∧ ((MB id).masterReason 0 = none) ∧ (arg9.ok = false) ∧ ((hr 63 0).ok = true) ∧ (ringBad (hr 63 0).prod ((MB id).fn 0).mbLen = true ∨ ringBad (hr 63 0).repCons ((MB id).fn 0).mbLen = true) ∧ ((hr 0 64).ok = true)) ∧
    ((ringBad (hr 0 64).prod ((MB id).fn 0).mbLen = false) ∧ (ringBad (hr 0 64).repCons ((MB id).fn 0).mbLen = false) ∧ (yb (MB id) = ((MB id).modChan (0 + 2) fun c => { bound := c.bound, state := c.state, e := c.e, rseq := c.rseq, discards := c.discards, source := c.source, udpPort := c.udpPort, peer := c.peer, inProg := c.inProg, kept := c.kept, aborts := c.aborts, nextId := c.nextId, cmdRing := c.cmdRing, repRing := c.repRing, ringLen := c.ringLen, pollUs := c.pollUs, cons := c.cons, prod := c.prod, repCons := (hr 0 64).repCons, held := c.held }).flushReplies (0 + 2)) ∧ (rb (MB id) [] = List.take (recordSize (List.take 64 (hr 0 64).record)) (hr 0 64).record) ∧ ((hr 0 64).prod = ((yb (MB id)).chan (0 + 2)).cons) ∧ ((hr 64 0 rec0).ok = true) ∧ (ringBad (hr 64 0 rec0).prod ((MB id).fn 0).mbLen = false) ∧ (ringBad (hr 64 0 rec0).repCons ((MB id).fn 0).mbLen = false) ∧ (yb (MB id) 0 = ((MB id).modChan (0 + 2) fun c => { bound := c.bound, state := c.state, e := c.e, rseq := c.rseq, discards := c.discards, source := c.source, udpPort := c.udpPort, peer := c.peer, inProg := c.inProg, kept := c.kept, aborts := c.aborts, nextId := c.nextId, cmdRing := c.cmdRing, repRing := c.repRing, ringLen := c.ringLen, pollUs := c.pollUs, cons := c.cons, prod := c.prod, repCons := (hr 64 0 rec0).repCons, held := c.held }).flushReplies (0 + 2)) ∧ (rb (MB id) rec0 = List.take (recordSize (List.take 64 (hr 64 0 rec0).record)) (hr 64 0 rec0).record) ∧ (((yb (MB id) 0).chan (0 + 2)).state ≠ ChanState.error) ∧ ((hr 64 0 rec0).prod ≠ ((yb (MB id) 0).chan (0 + 2)).cons)) ∧
    ((((yb (MB id) 0).chan (0 + 2)).inProg.length < 16) ∧ (1088 * (((yb (MB id) 0).chan (0 + 2)).inProg.length + ((yb (MB id) 0).chan (0 + 2)).held.length + 1) < ringRoom ((yb (MB id) 0).chan (0 + 2)).prod (hr 64 0 rec0).repCons ((MB id).fn 0).mbLen) ∧ (fieldAt (List.take 64 (hr 64 0 rec0).record) 0 2 ≠ 0) ∧ (((yb (MB id) 0).chan (0 + 2)).cons + recordSize (List.take 64 (hr 64 0 rec0).record) ≤ ((MB id).fn 0).mbLen) ∧ ((yb (MB id) 0).masterReason 0 = none) ∧ ((IW w0).pcie.linkUp = true) ∧ ((IW w0).fnExists 0 = true) ∧ ((IW w0).fnDeaf 0 = false) ∧ (10485696 = w0.daddr + (4194240 - w0.obase)) ∧ ((IW w0).inWindow 0 4194240 128 false = none) ∧ ((IW w0).inWindow 0 4194240 128 true = none) ∧ (arg10.length = 128)) ∧
    (((IW w0).power.rung < 2) ∧ ((IW w0).power.entering = none) ∧ ((IW w0).power.exiting = false) ∧ ((IW w0).inWindow 0 4194240 64 false = some w0) ∧ ((IW w0).load (some (w0.inst, w0.gen)) 10485696 64 = Except.ok (zeros 64)) ∧ ((IW ws).pcie.linkUp = true) ∧ ((IW ws).fnExists 0 = true) ∧ ((IW ws).fnDeaf 0 = false) ∧ (spadBase = ws.daddr + (2097152 - ws.obase)) ∧ ((IW ws).power.rung < 2) ∧ ((IW ws).power.entering = none) ∧ ((IW ws).power.exiting = false)) ∧
    (((IW ws).inWindow 0 2097152 64 false = some ws) ∧ ((IW ws).load (some (ws.inst, ws.gen)) spadBase 64 = Except.error (eio ws spadBase)) ∧ (arg11.length = 64) ∧ ((IW w0).inWindow 0 4194240 64 true = some w0) ∧ ((IW w0).saveAt (some (w0.inst, w0.gen)) 10485696 arg11 = Except.ok sv) ∧ ((IW wm).pcie.linkUp = true) ∧ ((IW wm).fnExists 0 = true) ∧ ((IW wm).fnDeaf 0 = false) ∧ (2 ^ 48 - 2 ^ 21 = wm.daddr + (2097152 - wm.obase)) ∧ ((IW wm).power.rung < 2) ∧ ((IW wm).power.entering = none) ∧ ((IW wm).power.exiting = false)) ∧
    (([1].length = 1) ∧ ((IW wm).inWindow 0 2097152 1 true = some wm) ∧ ((IW wm).saveAt (some (wm.inst, wm.gen)) (2 ^ 48 - 2 ^ 21) [1] = Except.error (AccErr.trans 6)) ∧ ((RL.rail 6).set ≠ 0) ∧ (7 < 8) ∧ ((RL.rootPort 7).state = RootState.down) ∧ (RL.boot.phase = BootPhase.running) ∧ (RL.pins.prsnt.getD 7 false = false) ∧ (((gr true).rootPort 7).state = RootState.up) ∧ (((gr true).rootPort 7).grant arg12 = none) ∧ (arg12.write = true) ∧ (((gr true).rootPort 7).grant arg13 = none)) ∧
    (arg13.write = false) ∧
    (((gr true).rootPort 7).grant arg14 = some (2, 960)) ∧
    ((arg14.write = true) ∧ (((gr false).rootPort 7).state = RootState.up)) ∧
    (((gr false).rootPort 7).grant arg15 = some (2, 960)) ∧
    (arg15.write = false) :=
  ⟨by decide +kernel,
    by decide +kernel,
    by decide +kernel,
    by decide +kernel,
    by decide +kernel,
    fun j _ h => quiet_all _ (by decide +kernel) j h,
    by decide +kernel,
    by decide +kernel,
    fun j h => quiet_all _ (by decide +kernel) j h,
    by decide +kernel,
    by decide +kernel,
    by decide +kernel,
    by decide +kernel,
    by decide +kernel,
    by decide +kernel,
    by decide +kernel,
    by decide +kernel,
    by decide +kernel,
    by decide +kernel,
    rfl,
    by decide +kernel,
    rfl,
    by decide +kernel⟩
theorem witness_EndpointCommands :
    (((EP id).takes pceFnBindSpec (FB 1 255) = true) ∧ (255 = fieldAt (FB 1 255).pkt.params 1 1) ∧ (∀ (j : ℕ), (((EP id).entered pceFnBindSpec (FB 1 255)).fn (fieldAt (FB 1 255).pkt.params 0 1)).bound = some j → (((EP id).entered pceFnBindSpec (FB 1 255)).ctrl j).mode ≠ CtrlMode.host ∧ (((EP id).entered pceFnBindSpec (FB 1 255)).ctrl j).resetting = false) ∧ (255 = 255) ∧ ((EP id).takes pceFnBindSpec (FB 1 63) = true) ∧ (63 = fieldAt (FB 1 63).pkt.params 1 1) ∧ (∀ (j : ℕ), (((EP id).entered pceFnBindSpec (FB 1 63)).fn (fieldAt (FB 1 63).pkt.params 0 1)).bound = some j → (((EP id).entered pceFnBindSpec (FB 1 63)).ctrl j).mode ≠ CtrlMode.host ∧ (((EP id).entered pceFnBindSpec (FB 1 63)).ctrl j).resetting = false) ∧ (63 ≠ 255) ∧ (∀ (n : ℕ), ((EP id).entered pceFnBindSpec (FB 1 63)).fnOf 63 = some n → n = fieldAt (FB 1 63).pkt.params 0 1) ∧ (EQ.takes pceFnBindSpec (FB 1 63) = true) ∧ (∀ (j : ℕ), ((EQ.entered pceFnBindSpec (FB 1 63)).fn (fieldAt (FB 1 63).pkt.params 0 1)).bound = some j → ((EQ.entered pceFnBindSpec (FB 1 63)).ctrl j).mode ≠ CtrlMode.host ∧ ((EQ.entered pceFnBindSpec (FB 1 63)).ctrl j).resetting = false) ∧ ((EQ.entered pceFnBindSpec (FB 1 63)).fnOf 63 = some 2)) ∧
    ((2 ≠ fieldAt (FB 1 63).pkt.params 0 1) ∧ ((held (EP id)).takes pceIwinSetSpec (IS 6 0 0 0) = true) ∧ (4095 = fieldAt (IS 6 0 0 0).pkt.params 0 2) ∧ (0 = fieldAt (IS 6 0 0 0).pkt.params 2 1) ∧ (bitAt (fieldAt (IS 6 0 0 0).pkt.params 3 1) 0 = false) ∧ (((held (EP id)).entered pceIwinSetSpec (IS 6 0 0 0)).pcie.inWin.find 4095 = some w0) ∧ (((held (EP id)).entered pceIwinSetSpec (IS 6 0 0 0)).inBusy w0.daddr w0.len = true) ∧ ((IW w0).takes pceIwinSetSpec (IS 6 0 0 0) = true) ∧ (∀ (o : InWindow), ((IW w0).entered pceIwinSetSpec (IS 6 0 0 0)).pcie.inWin.find 4095 = some o → ((IW w0).entered pceIwinSetSpec (IS 6 0 0 0)).inBusy o.daddr o.len = false) ∧ (arg16.takes pceIwinSetSpec arg17 = true) ∧ (4095 = fieldAt arg17.pkt.params 0 2) ∧ (0 = fieldAt arg17.pkt.params 2 1)) ∧
    ((bitAt (fieldAt arg17.pkt.params 3 1) 0 = true) ∧ ((arg16.entered pceIwinSetSpec arg17).fnUnusable 0 = false) ∧ (({ fn := 0, rd := bitAt (fieldAt arg17.pkt.params 3 1) 1, wr := bitAt (fieldAt arg17.pkt.params 3 1) 2, inst := fieldAt arg17.pkt.params 4 1, gen := (arg16.entered pceIwinSetSpec arg17).genOf (fieldAt arg17.pkt.params 4 1), obase := fieldAt arg17.pkt.params 8 8, len := fieldAt arg17.pkt.params 16 8, daddr := fieldAt arg17.pkt.params 24 8 } : InWindow).obase % 2097152 = 0) ∧ (({ fn := 0, rd := bitAt (fieldAt arg17.pkt.params 3 1) 1, wr := bitAt (fieldAt arg17.pkt.params 3 1) 2, inst := fieldAt arg17.pkt.params 4 1, gen := (arg16.entered pceIwinSetSpec arg17).genOf (fieldAt arg17.pkt.params 4 1), obase := fieldAt arg17.pkt.params 8 8, len := fieldAt arg17.pkt.params 16 8, daddr := fieldAt arg17.pkt.params 24 8 } : InWindow).len % 2097152 = 0) ∧ (({ fn := 0, rd := bitAt (fieldAt arg17.pkt.params 3 1) 1, wr := bitAt (fieldAt arg17.pkt.params 3 1) 2, inst := fieldAt arg17.pkt.params 4 1, gen := (arg16.entered pceIwinSetSpec arg17).genOf (fieldAt arg17.pkt.params 4 1), obase := fieldAt arg17.pkt.params 8 8, len := fieldAt arg17.pkt.params 16 8, daddr := fieldAt arg17.pkt.params 24 8 } : InWindow).len ≠ 0) ∧ (({ fn := 0, rd := bitAt (fieldAt arg17.pkt.params 3 1) 1, wr := bitAt (fieldAt arg17.pkt.params 3 1) 2, inst := fieldAt arg17.pkt.params 4 1, gen := (arg16.entered pceIwinSetSpec arg17).genOf (fieldAt arg17.pkt.params 4 1), obase := fieldAt arg17.pkt.params 8 8, len := fieldAt arg17.pkt.params 16 8, daddr := fieldAt arg17.pkt.params 24 8 } : InWindow).len ≤ 2 ^ 40) ∧ (({ fn := 0, rd := bitAt (fieldAt arg17.pkt.params 3 1) 1, wr := bitAt (fieldAt arg17.pkt.params 3 1) 2, inst := fieldAt arg17.pkt.params 4 1, gen := (arg16.entered pceIwinSetSpec arg17).genOf (fieldAt arg17.pkt.params 4 1), obase := fieldAt arg17.pkt.params 8 8, len := fieldAt arg17.pkt.params 16 8, daddr := fieldAt arg17.pkt.params 24 8 } : InWindow).daddr % 2097152 = 0) ∧ ((arg16.entered pceIwinSetSpec arg17).windowTarget ({ fn := 0, rd := bitAt (fieldAt arg17.pkt.params 3 1) 1, wr := bitAt (fieldAt arg17.pkt.params 3 1) 2, inst := fieldAt arg17.pkt.params 4 1, gen := (arg16.entered pceIwinSetSpec arg17).genOf (fieldAt arg17.pkt.params 4 1), obase := fieldAt arg17.pkt.params 8 8, len := fieldAt arg17.pkt.params 16 8, daddr := fieldAt arg17.pkt.params 24 8 } : InWindow).daddr ({ fn := 0, rd := bitAt (fieldAt arg17.pkt.params 3 1) 1, wr := bitAt (fieldAt arg17.pkt.params 3 1) 2, inst := fieldAt arg17.pkt.params 4 1, gen := (arg16.entered pceIwinSetSpec arg17).genOf (fieldAt arg17.pkt.params 4 1), obase := fieldAt arg17.pkt.params 8 8, len := fieldAt arg17.pkt.params 16 8, daddr := fieldAt arg17.pkt.params 24 8 } : InWindow).len = true)) ∧
    (∀ (k : ℕ) (y : InWindow), (arg16.entered pceIwinSetSpec arg17).pcie.inWin.find k = some y → k ≠ 4095 → y.fn = 0 → y.obase + y.len ≤ ({ fn := 0, rd := bitAt (fieldAt arg17.pkt.params 3 1) 1, wr := bitAt (fieldAt arg17.pkt.params 3 1) 2, inst := fieldAt arg17.pkt.params 4 1, gen := (arg16.entered pceIwinSetSpec arg17).genOf (fieldAt arg17.pkt.params 4 1), obase := fieldAt arg17.pkt.params 8 8, len := fieldAt arg17.pkt.params 16 8, daddr := fieldAt arg17.pkt.params 24 8 } : InWindow).obase ∨ ({ fn := 0, rd := bitAt (fieldAt arg17.pkt.params 3 1) 1, wr := bitAt (fieldAt arg17.pkt.params 3 1) 2, inst := fieldAt arg17.pkt.params 4 1, gen := (arg16.entered pceIwinSetSpec arg17).genOf (fieldAt arg17.pkt.params 4 1), obase := fieldAt arg17.pkt.params 8 8, len := fieldAt arg17.pkt.params 16 8, daddr := fieldAt arg17.pkt.params 24 8 } : InWindow).obase + ({ fn := 0, rd := bitAt (fieldAt arg17.pkt.params 3 1) 1, wr := bitAt (fieldAt arg17.pkt.params 3 1) 2, inst := fieldAt arg17.pkt.params 4 1, gen := (arg16.entered pceIwinSetSpec arg17).genOf (fieldAt arg17.pkt.params 4 1), obase := fieldAt arg17.pkt.params 8 8, len := fieldAt arg17.pkt.params 16 8, daddr := fieldAt arg17.pkt.params 24 8 } : InWindow).len ≤ y.obase) ∧
    (((List.map (fun x => x.1) (arg16.entered pceIwinSetSpec arg17).pcie.inWin).Nodup) ∧ (∀ (o : InWindow), (arg16.entered pceIwinSetSpec arg17).pcie.inWin.find 4095 = some o → (arg16.entered pceIwinSetSpec arg17).inBusy o.daddr o.len = false) ∧ (arg16.takes pceIwinSetSpec arg18 = true) ∧ (4095 = fieldAt arg18.pkt.params 0 2) ∧ (0 = fieldAt arg18.pkt.params 2 1) ∧ (bitAt (fieldAt arg18.pkt.params 3 1) 0 = true) ∧ ((arg16.entered pceIwinSetSpec arg18).fnUnusable 0 = false) ∧ (({ fn := 0, rd := bitAt (fieldAt arg18.pkt.params 3 1) 1, wr := bitAt (fieldAt arg18.pkt.params 3 1) 2, inst := fieldAt arg18.pkt.params 4 1, gen := (arg16.entered pceIwinSetSpec arg18).genOf (fieldAt arg18.pkt.params 4 1), obase := fieldAt arg18.pkt.params 8 8, len := fieldAt arg18.pkt.params 16 8, daddr := fieldAt arg18.pkt.params 24 8 } : InWindow).obase % 2097152 = 0) ∧ (({ fn := 0, rd := bitAt (fieldAt arg18.pkt.params 3 1) 1, wr := bitAt (fieldAt arg18.pkt.params 3 1) 2, inst := fieldAt arg18.pkt.params 4 1, gen := (arg16.entered pceIwinSetSpec arg18).genOf (fieldAt arg18.pkt.params 4 1), obase := fieldAt arg18.pkt.params 8 8, len := fieldAt arg18.pkt.params 16 8, daddr := fieldAt arg18.pkt.params 24 8 } : InWindow).len % 2097152 = 0) ∧ (({ fn := 0, rd := bitAt (fieldAt arg18.pkt.params 3 1) 1, wr := bitAt (fieldAt arg18.pkt.params 3 1) 2, inst := fieldAt arg18.pkt.params 4 1, gen := (arg16.entered pceIwinSetSpec arg18).genOf (fieldAt arg18.pkt.params 4 1), obase := fieldAt arg18.pkt.params 8 8, len := fieldAt arg18.pkt.params 16 8, daddr := fieldAt arg18.pkt.params 24 8 } : InWindow).len ≠ 0) ∧ (({ fn := 0, rd := bitAt (fieldAt arg18.pkt.params 3 1) 1, wr := bitAt (fieldAt arg18.pkt.params 3 1) 2, inst := fieldAt arg18.pkt.params 4 1, gen := (arg16.entered pceIwinSetSpec arg18).genOf (fieldAt arg18.pkt.params 4 1), obase := fieldAt arg18.pkt.params 8 8, len := fieldAt arg18.pkt.params 16 8, daddr := fieldAt arg18.pkt.params 24 8 } : InWindow).len ≤ 2 ^ 40) ∧ (({ fn := 0, rd := bitAt (fieldAt arg18.pkt.params 3 1) 1, wr := bitAt (fieldAt arg18.pkt.params 3 1) 2, inst := fieldAt arg18.pkt.params 4 1, gen := (arg16.entered pceIwinSetSpec arg18).genOf (fieldAt arg18.pkt.params 4 1), obase := fieldAt arg18.pkt.params 8 8, len := fieldAt arg18.pkt.params 16 8, daddr := fieldAt arg18.pkt.params 24 8 } : InWindow).daddr % 2097152 = 0)) ∧
    (((arg16.entered pceIwinSetSpec arg18).windowTarget ({ fn := 0, rd := bitAt (fieldAt arg18.pkt.params 3 1) 1, wr := bitAt (fieldAt arg18.pkt.params 3 1) 2, inst := fieldAt arg18.pkt.params 4 1, gen := (arg16.entered pceIwinSetSpec arg18).genOf (fieldAt arg18.pkt.params 4 1), obase := fieldAt arg18.pkt.params 8 8, len := fieldAt arg18.pkt.params 16 8, daddr := fieldAt arg18.pkt.params 24 8 } : InWindow).daddr ({ fn := 0, rd := bitAt (fieldAt arg18.pkt.params 3 1) 1, wr := bitAt (fieldAt arg18.pkt.params 3 1) 2, inst := fieldAt arg18.pkt.params 4 1, gen := (arg16.entered pceIwinSetSpec arg18).genOf (fieldAt arg18.pkt.params 4 1), obase := fieldAt arg18.pkt.params 8 8, len := fieldAt arg18.pkt.params 16 8, daddr := fieldAt arg18.pkt.params 24 8 } : InWindow).len = true) ∧ (0 ≠ 4095) ∧ ((iwx 4194304 2097152 4194304).fn = 0) ∧ ((iwx 4194304 2097152 4194304).obase < ({ fn := 0, rd := bitAt (fieldAt arg18.pkt.params 3 1) 1, wr := bitAt (fieldAt arg18.pkt.params 3 1) 2, inst := fieldAt arg18.pkt.params 4 1, gen := (arg16.entered pceIwinSetSpec arg18).genOf (fieldAt arg18.pkt.params 4 1), obase := fieldAt arg18.pkt.params 8 8, len := fieldAt arg18.pkt.params 16 8, daddr := fieldAt arg18.pkt.params 24 8 } : InWindow).obase + ({ fn := 0, rd := bitAt (fieldAt arg18.pkt.params 3 1) 1, wr := bitAt (fieldAt arg18.pkt.params 3 1) 2, inst := fieldAt arg18.pkt.params 4 1, gen := (arg16.entered pceIwinSetSpec arg18).genOf (fieldAt arg18.pkt.params 4 1), obase := fieldAt arg18.pkt.params 8 8, len := fieldAt arg18.pkt.params 16 8, daddr := fieldAt arg18.pkt.params 24 8 } : InWindow).len) ∧ (({ fn := 0, rd := bitAt (fieldAt arg18.pkt.params 3 1) 1, wr := bitAt (fieldAt arg18.pkt.params 3 1) 2, inst := fieldAt arg18.pkt.params 4 1, gen := (arg16.entered pceIwinSetSpec arg18).genOf (fieldAt arg18.pkt.params 4 1), obase := fieldAt arg18.pkt.params 8 8, len := fieldAt arg18.pkt.params 16 8, daddr := fieldAt arg18.pkt.params 24 8 } : InWindow).obase < (iwx 4194304 2097152 4194304).obase + (iwx 4194304 2097152 4194304).len) ∧ ((IW w0).takes pceIwinSetSpec arg19 = true) ∧ (4095 = fieldAt arg19.pkt.params 0 2) ∧ (0 = fieldAt arg19.pkt.params 2 1) ∧ (bitAt (fieldAt arg19.pkt.params 3 1) 0 = true) ∧ (((IW w0).entered pceIwinSetSpec arg19).fnUnusable 0 = false) ∧ (({ fn := 0, rd := bitAt (fieldAt arg19.pkt.params 3 1) 1, wr := bitAt (fieldAt arg19.pkt.params 3 1) 2, inst := fieldAt arg19.pkt.params 4 1, gen := ((IW w0).entered pceIwinSetSpec arg19).genOf (fieldAt arg19.pkt.params 4 1), obase := fieldAt arg19.pkt.params 8 8, len := fieldAt arg19.pkt.params 16 8, daddr := fieldAt arg19.pkt.params 24 8 } : InWindow).obase % 2097152 ≠ 0 ∨ ({ fn := 0, rd := bitAt (fieldAt arg19.pkt.params 3 1) 1, wr := bitAt (fieldAt arg19.pkt.params 3 1) 2, inst := fieldAt arg19.pkt.params 4 1, gen := ((IW w0).entered pceIwinSetSpec arg19).genOf (fieldAt arg19.pkt.params 4 1), obase := fieldAt arg19.pkt.params 8 8, len := fieldAt arg19.pkt.params 16 8, daddr := fieldAt arg19.pkt.params 24 8 } : InWindow).len = 0 ∨ ((IW w0).entered pceIwinSetSpec arg19).windowTarget ({ fn := 0, rd := bitAt (fieldAt arg19.pkt.params 3 1) 1, wr := bitAt (fieldAt arg19.pkt.params 3 1) 2, inst := fieldAt arg19.pkt.params 4 1, gen := ((IW w0).entered pceIwinSetSpec arg19).genOf (fieldAt arg19.pkt.params 4 1), obase := fieldAt arg19.pkt.params 8 8, len := fieldAt arg19.pkt.params 16 8, daddr := fieldAt arg19.pkt.params 24 8 } : InWindow).daddr ({ fn := 0, rd := bitAt (fieldAt arg19.pkt.params 3 1) 1, wr := bitAt (fieldAt arg19.pkt.params 3 1) 2, inst := fieldAt arg19.pkt.params 4 1, gen := ((IW w0).entered pceIwinSetSpec arg19).genOf (fieldAt arg19.pkt.params 4 1), obase := fieldAt arg19.pkt.params 8 8, len := fieldAt arg19.pkt.params 16 8, daddr := fieldAt arg19.pkt.params 24 8 } : InWindow).len = false) ∧ ((OW id).takes pceOwinSetSpec arg20 = true)) ∧
    ((4095 = fieldAt arg20.pkt.params 0 2) ∧ (0 = fieldAt arg20.pkt.params 2 1) ∧ (bitAt (fieldAt arg20.pkt.params 3 1) 0 = true) ∧ (((OW id).entered pceOwinSetSpec arg20).fnUnusable 0 = false) ∧ (hostBase ≤ ({ fn := 0, rd := bitAt (fieldAt arg20.pkt.params 3 1) 1, wr := bitAt (fieldAt arg20.pkt.params 3 1) 2, dbase := fieldAt arg20.pkt.params 8 8, len := fieldAt arg20.pkt.params 16 8, bus := fieldAt arg20.pkt.params 24 8 } : OutWindow).dbase) ∧ (({ fn := 0, rd := bitAt (fieldAt arg20.pkt.params 3 1) 1, wr := bitAt (fieldAt arg20.pkt.params 3 1) 2, dbase := fieldAt arg20.pkt.params 8 8, len := fieldAt arg20.pkt.params 16 8, bus := fieldAt arg20.pkt.params 24 8 } : OutWindow).dbase + ({ fn := 0, rd := bitAt (fieldAt arg20.pkt.params 3 1) 1, wr := bitAt (fieldAt arg20.pkt.params 3 1) 2, dbase := fieldAt arg20.pkt.params 8 8, len := fieldAt arg20.pkt.params 16 8, bus := fieldAt arg20.pkt.params 24 8 } : OutWindow).len ≤ 281474976710656) ∧ (({ fn := 0, rd := bitAt (fieldAt arg20.pkt.params 3 1) 1, wr := bitAt (fieldAt arg20.pkt.params 3 1) 2, dbase := fieldAt arg20.pkt.params 8 8, len := fieldAt arg20.pkt.params 16 8, bus := fieldAt arg20.pkt.params 24 8 } : OutWindow).dbase % 4096 = 0) ∧ (({ fn := 0, rd := bitAt (fieldAt arg20.pkt.params 3 1) 1, wr := bitAt (fieldAt arg20.pkt.params 3 1) 2, dbase := fieldAt arg20.pkt.params 8 8, len := fieldAt arg20.pkt.params 16 8, bus := fieldAt arg20.pkt.params 24 8 } : OutWindow).len % 4096 = 0) ∧ (({ fn := 0, rd := bitAt (fieldAt arg20.pkt.params 3 1) 1, wr := bitAt (fieldAt arg20.pkt.params 3 1) 2, dbase := fieldAt arg20.pkt.params 8 8, len := fieldAt arg20.pkt.params 16 8, bus := fieldAt arg20.pkt.params 24 8 } : OutWindow).len ≠ 0) ∧ (({ fn := 0, rd := bitAt (fieldAt arg20.pkt.params 3 1) 1, wr := bitAt (fieldAt arg20.pkt.params 3 1) 2, dbase := fieldAt arg20.pkt.params 8 8, len := fieldAt arg20.pkt.params 16 8, bus := fieldAt arg20.pkt.params 24 8 } : OutWindow).len ≤ 2 ^ 40) ∧ (({ fn := 0, rd := bitAt (fieldAt arg20.pkt.params 3 1) 1, wr := bitAt (fieldAt arg20.pkt.params 3 1) 2, dbase := fieldAt arg20.pkt.params 8 8, len := fieldAt arg20.pkt.params 16 8, bus := fieldAt arg20.pkt.params 24 8 } : OutWindow).bus % 4096 = 0) ∧ (({ fn := 0, rd := bitAt (fieldAt arg20.pkt.params 3 1) 1, wr := bitAt (fieldAt arg20.pkt.params 3 1) 2, dbase := fieldAt arg20.pkt.params 8 8, len := fieldAt arg20.pkt.params 16 8, bus := fieldAt arg20.pkt.params 24 8 } : OutWindow).bus + ({ fn := 0, rd := bitAt (fieldAt arg20.pkt.params 3 1) 1, wr := bitAt (fieldAt arg20.pkt.params 3 1) 2, dbase := fieldAt arg20.pkt.params 8 8, len := fieldAt arg20.pkt.params 16 8, bus := fieldAt arg20.pkt.params 24 8 } : OutWindow).len ≤ 2 ^ 64)) ∧
    ((List.map (fun x => x.1) ((OW id).entered pceOwinSetSpec arg20).pcie.outWin).Nodup) ∧
    (∀ (k : ℕ) (y : OutWindow), ((OW id).entered pceOwinSetSpec arg20).pcie.outWin.find k = some y → k ≠ 4095 → y.dbase + y.len ≤ ({ fn := 0, rd := bitAt (fieldAt arg20.pkt.params 3 1) 1, wr := bitAt (fieldAt arg20.pkt.params 3 1) 2, dbase := fieldAt arg20.pkt.params 8 8, len := fieldAt arg20.pkt.params 16 8, bus := fieldAt arg20.pkt.params 24 8 } : OutWindow).dbase ∨ ({ fn := 0, rd := bitAt (fieldAt arg20.pkt.params 3 1) 1, wr := bitAt (fieldAt arg20.pkt.params 3 1) 2, dbase := fieldAt arg20.pkt.params 8 8, len := fieldAt arg20.pkt.params 16 8, bus := fieldAt arg20.pkt.params 24 8 } : OutWindow).dbase + ({ fn := 0, rd := bitAt (fieldAt arg20.pkt.params 3 1) 1, wr := bitAt (fieldAt arg20.pkt.params 3 1) 2, dbase := fieldAt arg20.pkt.params 8 8, len := fieldAt arg20.pkt.params 16 8, bus := fieldAt arg20.pkt.params 24 8 } : OutWindow).len ≤ y.dbase) ∧
    ((∀ (y : OutWindow), ((OW id).entered pceOwinSetSpec arg20).pcie.outWin.find 4095 = some y → ((OW id).entered pceOwinSetSpec arg20).outBusy y.fn y.bus y.len = false) ∧ (arg21.takes pceOwinSetSpec arg20 = true) ∧ ((arg21.entered pceOwinSetSpec arg20).fnUnusable 0 = false) ∧ ((List.map (fun x => x.1) (arg21.entered pceOwinSetSpec arg20).pcie.outWin).Nodup)) ∧
    (∀ (k : ℕ) (y : OutWindow), (arg21.entered pceOwinSetSpec arg20).pcie.outWin.find k = some y → k ≠ 4095 → y.dbase + y.len ≤ ({ fn := 0, rd := bitAt (fieldAt arg20.pkt.params 3 1) 1, wr := bitAt (fieldAt arg20.pkt.params 3 1) 2, dbase := fieldAt arg20.pkt.params 8 8, len := fieldAt arg20.pkt.params 16 8, bus := fieldAt arg20.pkt.params 24 8 } : OutWindow).dbase ∨ ({ fn := 0, rd := bitAt (fieldAt arg20.pkt.params 3 1) 1, wr := bitAt (fieldAt arg20.pkt.params 3 1) 2, dbase := fieldAt arg20.pkt.params 8 8, len := fieldAt arg20.pkt.params 16 8, bus := fieldAt arg20.pkt.params 24 8 } : OutWindow).dbase + ({ fn := 0, rd := bitAt (fieldAt arg20.pkt.params 3 1) 1, wr := bitAt (fieldAt arg20.pkt.params 3 1) 2, dbase := fieldAt arg20.pkt.params 8 8, len := fieldAt arg20.pkt.params 16 8, bus := fieldAt arg20.pkt.params 24 8 } : OutWindow).len ≤ y.dbase) ∧
    (((arg21.entered pceOwinSetSpec arg20).outBusy (ow hostBase 4096).fn (ow hostBase 4096).bus (ow hostBase 4096).len = true) ∧ ((OW id).takes pceWinGetSpec WG = true) ∧ ((EP id).takes pceDirtySetSpec (DSet 0 0) = true) ∧ (((EP id).entered pceDirtySetSpec (DSet 0 0)).fnUnusable (fieldAt (DSet 0 0).pkt.params 0 1) = false) ∧ (fieldAt (DSet 0 0).pkt.params 1 1 = 0) ∧ ((EP id).takes pceDirtySetSpec arg22 = true) ∧ (((EP id).entered pceDirtySetSpec arg22).fnUnusable (fieldAt arg22.pkt.params 0 1) = false) ∧ (fieldAt arg22.pkt.params 1 1 ≠ 0) ∧ (((EP id).entered pceDirtySetSpec arg22).inHbm 0 (fieldAt arg22.pkt.params 24 8) (fieldAt arg22.pkt.params 16 8 / 32768) = true) ∧ (((EP id).entered pceDirtySetSpec arg22).inHbm 0 (fieldAt arg22.pkt.params 32 8) (fieldAt arg22.pkt.params 16 8 / 32768) = true) ∧ ((EP id).takes pceDirtySetSpec arg23 = true) ∧ (((EP id).entered pceDirtySetSpec arg23).fnUnusable (fieldAt arg23.pkt.params 0 1) = false)) ∧
    ((fieldAt arg23.pkt.params 1 1 ≠ 0) ∧ (((EP id).entered pceDirtySetSpec arg23).inHbm 0 (fieldAt arg23.pkt.params 24 8) (fieldAt arg23.pkt.params 16 8 / 32768) = false) ∧ (arg24.takes pceDirtySwapSpec DW = true) ∧ ((arg24.entered pceDirtySwapSpec DW).fnUnusable (fieldAt DW.pkt.params 0 1) = false) ∧ (((arg24.entered pceDirtySwapSpec DW).fn (fieldAt DW.pkt.params 0 1)).dlog = some dlg) ∧ ((EP id).takes pceDirtySwapSpec DW = true) ∧ (((EP id).entered pceDirtySwapSpec DW).fnUnusable (fieldAt DW.pkt.params 0 1) = false) ∧ ((((EP id).entered pceDirtySwapSpec DW).fn (fieldAt DW.pkt.params 0 1)).dlog = none) ∧ ((EP id).takes pceAperSetSpec arg25 = true) ∧ (arg26.takes pceWakeSpec WK = true) ∧ ((arg26.entered pceWakeSpec WK).fnUnusable (fieldAt WK.pkt.params 0 1) = false) ∧ (((arg26.entered pceWakeSpec WK).fn (fieldAt WK.pkt.params 0 1)).d3 = true)) ∧
    ((((arg26.entered pceWakeSpec WK).fn (fieldAt WK.pkt.params 0 1)).pmeEn = true) ∧ ((arg26.entered pceWakeSpec WK).pcie.linkUp = true) ∧ ((EP id).takes pceWakeSpec WK = true) ∧ (((EP id).entered pceWakeSpec WK).fnUnusable (fieldAt WK.pkt.params 0 1) = false) ∧ ((((EP id).entered pceWakeSpec WK).fn (fieldAt WK.pkt.params 0 1)).pmeEn = false) ∧ ((EP id).takes pceFnStatusSpec arg27 = true)) :=
  ⟨by decide +kernel,
    by decide +kernel,
    by decide +kernel,
    find_all (by decide +kernel),
    by decide +kernel,
    by decide +kernel,
    by decide +kernel,
    by decide +kernel,
    find_all (by decide +kernel),
    by decide +kernel,
    find_all (by decide +kernel),
    by decide +kernel,
    by decide +kernel,
    by decide +kernel⟩

end W15

/-! ## Witnesses: Cipher -/

namespace W16

/-- A keyed context of instance 0, mode 1. -/
def cx : CipCtx := { owner := 0, gen := 0, mode := 1, key := some (List.replicate 16 7), keyid := 0x100000001, pend := none, chain := none }
/-- The running device with context 4,095 and bytes placed in granule 0. -/
def CX (x : CipCtx) (ks : List (Nat × List Byte) := []) : State :=
  { live with mem := mem ([(0, mapTo 4)] ++ ks.map fun e => (4 * granule + e.1, e.2))
              cipher := { live.cipher with ctxs := [(4095, x)], loads := 5 }
              power := { live.power with rails := [(6, { Rail.initial with set := 750 })] } }
def CX0 := CX cx
def setC (n mode fmt : Nat) (key : List Byte) := cmd 0xA001 (fields [(2,n),(1,0),(1,mode),(1,fmt),(3,0)] ++ padTo 72 key)
def k32 : List Byte := List.replicate 16 1
def k64 : List Byte := List.replicate 32 1 ++ List.replicate 32 2
def idOf (s : State) : BitVec 64 := BitVec.ofNat 64 (s.boot.epoch % 2 ^ 32 * 2 ^ 32 + s.cipher.loads % 2 ^ 32)
def AL : State := { CX0 with cipher := { CX0.cipher with alarm := true } }
def fr := cmd 0xA002 (fields [(2,4095),(6,0)])
def CQ (st : QpState) : State := { CX0 with rma := { CX0.rma with pds := [(3, 0)], qps := [(1, { Qp.fresh 0 0 0 3 0 0x10000 0x1000 0x20000 0x1000 with state := st, cipRx := some 4095 })] } }
def op (fl ia oa len : Nat) (du : Nat := 0) (aad : Nat × Nat := (0, 0)) (tag : Nat := 0) (iv : List Byte := zeros 12) :=
  cmd 0xA003 (fields [(2,4095),(1,fl),(1,0),(4,aad.1),(8,ia),(8,oa),(8,len),(8,aad.2),(8,tag)] ++ iv ++ fields [(4,0),(8,if du = 0 then 0 else 5),(4,du),(4,0)])
def cn := { cx with key := none }
def x3 := { cx with mode := 3, key := some k64 }
def rd (s : State) (a n : Nat) : State := (s.cmdRead blkCIP 0 a n 4095).1
def wr (s : State) (a : Nat) (bs : List Byte) : State := (s.cmdWrite blkCIP 0 a 4095 bs).1
def S3 := CX x3 [(0x1000, List.replicate 32 9)]
def v3 : State := S3.entered cipOpSpec (op 7 0x1000 0x1000 32 16)
def k16 : List Byte := List.replicate 16 7
def ch (dec : Bool) : Chain := { dec, iv := [0,0,0,1,0xFF,0xF0,0,0,0,0,0,5], aadLen := 0, bytes := 16, outBase := 0x2000, y := 77 }
def xc (dec : Bool) := { cx with chain := some (ch dec) }
def pt : List Byte := (List.range 20).map fun i => BitVec.ofNat 8 i
def SG := CX cx [(0x1000, pt), (0x3000, [1, 2, 3])]
def ivG : List Byte × State := ((SG.entered cipOpSpec (op 6 0x1000 0x2000 20 0 (3, 0x3000) 0x4000)).nextIv 4095).getD ([], SG)
def aG := rd ivG.2 0x3000 3
def bG := rd aG 0x1000 20
def SP (dec : Bool) := CX (xc dec) [(0x1000, pt)]
def vP : State := (SP false).entered cipOpSpec (op 0 0x1000 0x2010 16)
def tP := gcmTag (roundKeys k16) (ch true).iv (ghashAll (gcmH (roundKeys k16)) (ch true).y pt) 0 36
def SV (t : List Byte) := CX (xc true) [(0x1000, pt), (0x4000, t)]
def aV (t : List Byte) := rd ((SV t).entered cipOpSpec (op 5 0x1000 0x2010 20 0 (0,0) 0x4000)) 0x1000 20
def tQ : List Byte := List.replicate 16 1
def sv (op w a : Nat) := cmd op (fields [(2,4095),(1,w),(5,0),(8,a)])
def vS (dec : Bool) (w : Nat) := (CX (xc dec)).entered cipStateSaveSpec (sv 0xA004 w 0x5000)
def rec_ (dec : Bool) := chainRecord 4095 cx (ch dec)
def SR (r : List Byte) (x : CipCtx := cx) := CX x [(0x5000, r)]
def cj := { cx with keyid := 3 }
def qb := cmd 0xA006 (fields [(4,0x40001),(2,4095),(2,0xFFFF)])
def hs := cmd 0xA007 (fields [(8,0x1000),(8,20)])
def rd0 (s : State) (a n : Nat) : State := (s.cmdRead blkCIP 0 a n 0).1
def pub : List Byte := beBytes 4 1 ++ beBytes 4 8 ++ beBytes 4 4 ++ List.replicate 48 3
def sg : List Byte := beBytes 4 1 ++ [0]
def SL := CX cx [(0x5000, pub), (0x6000, sg)]
def lc := cmd 0xA008 (fields [(8,0x1000),(8,20),(8,0x6000),(4,5),(4,0),(8,0x5000)])
def vL : State := SL.entered cipLmsSpec lc
def arg1 : Cmd := setC 0xFFFF 1 0 k32
def arg2 : Cmd := setC 4095 3 0 k64
def arg3 : Cmd := setC 0xFFFF 3 0 (List.replicate 64 3)
def arg4 : Cmd := op 4 0x1000 0x1000 32 16
def arg5 : Cmd := op 7 0x1000 0x1000 32 16
def arg6 : State := wr (rd v3 0x1000 32) 0x1000 (xtsUnits true k64 16 2 5 (List.replicate 32 9))
def arg7 : List Byte := List.replicate 32 9
def arg8 : Cmd := op 2 0x1000 0x2000 16
def arg9 : Cmd := op 4 0x1000 0x2000 16
def arg10 : Cmd := op 6 0x1000 0x2000 20 0 (3, 0x3000) 0x4000
def arg11 : Cmd := op 0 0x1000 0x2010 16
def arg12 : Cmd := op 5 0x1000 0x2010 20 0 (0,0) 0x4000
def arg13 : State := rd (aV tQ) 0x4000 16
def arg14 : Cmd := sv 0xA004 0 0x5000
def arg15 : State := wr (vS true 0) 0x5000 (chainRecord 4095 (xc true) (ch true))
def arg16 : Cmd := sv 0xA004 1 0x5000
def arg17 : State := wr (vS false 1) 0x5000 (kwWrap (wrapKey 0) (chainRecord 4095 (xc false) (ch false)))
def arg18 : Cmd := sv 0xA005 0 0x5000
def arg19 : State := rd ((SR (rec_ true)).entered cipStateRestoreSpec (sv 0xA005 0 0x5000)) 0x5000 128
def arg20 : State := SR (rec_ true) cj
def arg21 : State := rd ((SR (rec_ true) cj).entered cipStateRestoreSpec (sv 0xA005 0 0x5000)) 0x5000 128
def arg22 : Qp := ((CQ .init).rma.qps.find 1).getD (Qp.fresh 0 0 0 3 0 0 0 0 0)
def arg23 : Qp := ((CQ .rtr).rma.qps.find 1).getD (Qp.fresh 0 0 0 3 0 0 0 0 0)
def arg24 : State := rd0 (SG.entered cipHashSpec hs) 0x1000 20
def arg25 : State := rd0 vL 0x5000 60
def arg26 : State := rd0 (rd0 vL 0x5000 60) 0x6000 5
def arg27 : State := rd0 (rd0 (rd0 vL 0x5000 60) 0x6000 5) 0x1000 20

theorem witness_CipherCommands :
    ((AL.takes cipCtxSetSpec arg1 = true) ∧ (0 = fieldAt arg1.pkt.params 2 1) ∧ (1 = fieldAt arg1.pkt.params 3 1) ∧ (fieldAt arg1.pkt.params 0 2 = 65535 ∧ (AL.entered cipCtxSetSpec arg1).cipher.ctxs.free 4096 = some 0 ∧ (AL.entered cipCtxSetSpec arg1).ctxsOf 0 < ((AL.entered cipCtxSetSpec arg1).inst 0).shares.ciph ∨ 0 = fieldAt arg1.pkt.params 0 2 ∧ fieldAt arg1.pkt.params 0 2 ≠ 65535 ∧ ∃ x, (AL.entered cipCtxSetSpec arg1).cipher.ctxs.find (fieldAt arg1.pkt.params 0 2) = some x ∧ x.owner = 0) ∧ (idOf CX0 = BitVec.ofNat 64 ((AL.entered cipCtxSetSpec arg1).boot.epoch % 2 ^ 32 * 2 ^ 32 + (AL.entered cipCtxSetSpec arg1).cipher.loads % 2 ^ 32)) ∧ ((AL.entered cipCtxSetSpec arg1).cipher.alarm = true) ∧ (CX0.takes cipCtxSetSpec arg2 = true) ∧ (0 = fieldAt arg2.pkt.params 2 1) ∧ (3 = fieldAt arg2.pkt.params 3 1) ∧ (fieldAt arg2.pkt.params 0 2 = 65535 ∧ (CX0.entered cipCtxSetSpec arg2).cipher.ctxs.free 4096 = some 4095 ∧ (CX0.entered cipCtxSetSpec arg2).ctxsOf 0 < ((CX0.entered cipCtxSetSpec arg2).inst 0).shares.ciph ∨ 4095 = fieldAt arg2.pkt.params 0 2 ∧ fieldAt arg2.pkt.params 0 2 ≠ 65535 ∧ ∃ x, (CX0.entered cipCtxSetSpec arg2).cipher.ctxs.find (fieldAt arg2.pkt.params 0 2) = some x ∧ x.owner = 0) ∧ (idOf CX0 = BitVec.ofNat 64 ((CX0.entered cipCtxSetSpec arg2).boot.epoch % 2 ^ 32 * 2 ^ 32 + (CX0.entered cipCtxSetSpec arg2).cipher.loads % 2 ^ 32)) ∧ ((CX0.entered cipCtxSetSpec arg2).cipher.alarm = false)) ∧
    ((fieldAt arg2.pkt.params 4 1 = 0 ∧ k64 = slice arg2.pkt.params 8 (keyLen 3) ∨ fieldAt arg2.pkt.params 4 1 = 1 ∧ (CX0.entered cipCtxSetSpec arg2).cipher.keys = true ∧ kwUnwrap (wrapKey 0) (slice arg2.pkt.params 8 (keyLen 3 + 8)) = some k64) ∧ (3 ≠ 3 ∨ List.take 32 k64 ≠ List.drop 32 k64) ∧ (CX0.takes cipCtxSetSpec arg1 = true) ∧ (fieldAt arg1.pkt.params 0 2 = 65535 ∧ (CX0.entered cipCtxSetSpec arg1).cipher.ctxs.free 4096 = some 0 ∧ (CX0.entered cipCtxSetSpec arg1).ctxsOf 0 < ((CX0.entered cipCtxSetSpec arg1).inst 0).shares.ciph ∨ 0 = fieldAt arg1.pkt.params 0 2 ∧ fieldAt arg1.pkt.params 0 2 ≠ 65535 ∧ ∃ x, (CX0.entered cipCtxSetSpec arg1).cipher.ctxs.find (fieldAt arg1.pkt.params 0 2) = some x ∧ x.owner = 0) ∧ (idOf CX0 = BitVec.ofNat 64 ((CX0.entered cipCtxSetSpec arg1).boot.epoch % 2 ^ 32 * 2 ^ 32 + (CX0.entered cipCtxSetSpec arg1).cipher.loads % 2 ^ 32)) ∧ ((CX0.entered cipCtxSetSpec arg1).cipher.alarm = false) ∧ (fieldAt arg1.pkt.params 4 1 = 0 ∧ k32 = slice arg1.pkt.params 8 (keyLen 1) ∨ fieldAt arg1.pkt.params 4 1 = 1 ∧ (CX0.entered cipCtxSetSpec arg1).cipher.keys = true ∧ kwUnwrap (wrapKey 0) (slice arg1.pkt.params 8 (keyLen 1 + 8)) = some k32) ∧ (1 ≠ 3 ∨ List.take 32 k32 ≠ List.drop 32 k32) ∧ (CX0.takes cipCtxSetSpec arg3 = true) ∧ (0 = fieldAt arg3.pkt.params 2 1) ∧ (3 = fieldAt arg3.pkt.params 3 1) ∧ (fieldAt arg3.pkt.params 0 2 = 65535 ∧ (CX0.entered cipCtxSetSpec arg3).cipher.ctxs.free 4096 = some 0 ∧ (CX0.entered cipCtxSetSpec arg3).ctxsOf 0 < ((CX0.entered cipCtxSetSpec arg3).inst 0).shares.ciph ∨ 0 = fieldAt arg3.pkt.params 0 2 ∧ fieldAt arg3.pkt.params 0 2 ≠ 65535 ∧ ∃ x, (CX0.entered cipCtxSetSpec arg3).cipher.ctxs.find (fieldAt arg3.pkt.params 0 2) = some x ∧ x.owner = 0)) ∧
    ((idOf CX0 = BitVec.ofNat 64 ((CX0.entered cipCtxSetSpec arg3).boot.epoch % 2 ^ 32 * 2 ^ 32 + (CX0.entered cipCtxSetSpec arg3).cipher.loads % 2 ^ 32)) ∧ ((CX0.entered cipCtxSetSpec arg3).cipher.alarm = false) ∧ (3 = 3) ∧ (fieldAt arg3.pkt.params 4 1 = 0) ∧ (List.take 32 (slice arg3.pkt.params 8 64) = List.drop 32 (slice arg3.pkt.params 8 64)) ∧ (CX0.takes cipCtxFreeSpec fr = true) ∧ ((CX0.entered cipCtxFreeSpec fr).heldCtx (CX0.senderOf fr) (fieldAt fr.pkt.params 0 2) = some cx) ∧ ((CX0.entered cipCtxFreeSpec fr).qpRefs (fieldAt fr.pkt.params 0 2) = 0) ∧ ((CX0.entered cipCtxFreeSpec fr).nsRefs (fieldAt fr.pkt.params 0 2) = 0) ∧ ((CQ QpState.init).takes cipCtxFreeSpec fr = true) ∧ (((CQ QpState.init).entered cipCtxFreeSpec fr).heldCtx ((CQ QpState.init).senderOf fr) (fieldAt fr.pkt.params 0 2) = some cx) ∧ (((CQ QpState.init).entered cipCtxFreeSpec fr).qpRefs (fieldAt fr.pkt.params 0 2) ≠ 0 ∨ ((CQ QpState.init).entered cipCtxFreeSpec fr).nsRefs (fieldAt fr.pkt.params 0 2) ≠ 0)) ∧
    (((CX cn).takes cipOpSpec (op 6 0 0 16) = true) ∧ (((CX cn).entered cipOpSpec (op 6 0 0 16)).heldCtx ((CX cn).senderOf (op 6 0 0 16)) (fieldAt (op 6 0 0 16).pkt.params 0 2) = some cn) ∧ (cn.gen = ((CX cn).entered cipOpSpec (op 6 0 0 16)).genOf cn.owner) ∧ (cn.key = none) ∧ ((CX x3).takes cipOpSpec arg4 = true) ∧ (((CX x3).entered cipOpSpec arg4).heldCtx ((CX x3).senderOf arg4) (fieldAt arg4.pkt.params 0 2) = some x3) ∧ (x3.gen = ((CX x3).entered cipOpSpec arg4).genOf x3.owner) ∧ (x3.key = some k64) ∧ (x3.mode = 3) ∧ (bitAt (fieldAt arg4.pkt.params 2 1) 1 = false) ∧ (S3.takes cipOpSpec arg5 = true) ∧ ((S3.entered cipOpSpec arg5).heldCtx (S3.senderOf arg5) (fieldAt arg5.pkt.params 0 2) = some x3)) ∧
    ((x3.gen = (S3.entered cipOpSpec arg5).genOf x3.owner) ∧ (fieldAt arg5.pkt.params 2 1 / 2 % 4 = 3) ∧ (16 = fieldAt arg5.pkt.params 72 4) ∧ (fieldAt arg5.pkt.params 24 8 ≠ 0) ∧ (fieldAt arg5.pkt.params 24 8 % 16 = 0)) ∧
    ((S3.entered cipOpSpec arg5).cmdRead blkCIP x3.owner (fieldAt arg5.pkt.params 8 8) (fieldAt arg5.pkt.params 24 8) (fieldAt arg5.pkt.params 0 2) = (rd v3 4096 32, some arg7)) ∧
    ((rd v3 4096 32).cmdWrite blkCIP x3.owner (fieldAt arg5.pkt.params 16 8) (fieldAt arg5.pkt.params 0 2) (xtsUnits (bitAt (fieldAt arg5.pkt.params 2 1) 0) k64 16 (fieldAt arg5.pkt.params 24 8 / 16) (fieldAt arg5.pkt.params 64 8) arg7) = (arg6, true)) ∧
    (((CX (xc false)).takes cipOpSpec arg8 = true) ∧ (((CX (xc false)).entered cipOpSpec arg8).heldCtx ((CX (xc false)).senderOf arg8) (fieldAt arg8.pkt.params 0 2) = some (xc false)) ∧ ((xc false).gen = ((CX (xc false)).entered cipOpSpec arg8).genOf (xc false).owner) ∧ ((xc false).key = some k16) ∧ ((xc false).mode ≠ 3) ∧ ((xc false).chain ≠ none) ∧ (bitAt (fieldAt arg8.pkt.params 2 1) 1 = true) ∧ (CX0.takes cipOpSpec arg9 = true) ∧ ((CX0.entered cipOpSpec arg9).heldCtx (CX0.senderOf arg9) (fieldAt arg9.pkt.params 0 2) = some cx) ∧ (cx.gen = (CX0.entered cipOpSpec arg9).genOf cx.owner) ∧ (cx.key = some k16) ∧ (cx.mode ≠ 3)) ∧
    ((cx.chain = none) ∧ (bitAt (fieldAt arg9.pkt.params 2 1) 1 = false) ∧ (SG.takes cipOpSpec arg10 = true) ∧ ((SG.entered cipOpSpec arg10).heldCtx (SG.senderOf arg10) (fieldAt arg10.pkt.params 0 2) = some cx) ∧ (cx.gen = (SG.entered cipOpSpec arg10).genOf cx.owner) ∧ (fieldAt arg10.pkt.params 2 1 = 6)) ∧
    ((SG.entered cipOpSpec arg10).nextIv (fieldAt arg10.pkt.params 0 2) = some (ivG.1, ivG.2)) ∧
    (ivG.2.cmdRead blkCIP cx.owner (fieldAt arg10.pkt.params 32 8) (fieldAt arg10.pkt.params 4 4) (fieldAt arg10.pkt.params 0 2) = (aG, some [1, 2, 3])) ∧
    (aG.cmdRead blkCIP cx.owner (fieldAt arg10.pkt.params 8 8) (fieldAt arg10.pkt.params 24 8) (fieldAt arg10.pkt.params 0 2) = (bG, some pt)) ∧
    (((SP false).takes cipOpSpec arg11 = true) ∧ (((SP false).entered cipOpSpec arg11).heldCtx ((SP false).senderOf arg11) (fieldAt arg11.pkt.params 0 2) = some (xc false)) ∧ ((xc false).gen = ((SP false).entered cipOpSpec arg11).genOf (xc false).owner) ∧ ((xc false).chain = some (ch false)) ∧ (bitAt (fieldAt arg11.pkt.params 2 1) 1 = false) ∧ (bitAt (fieldAt arg11.pkt.params 2 1) 0 = (ch false).dec) ∧ (fieldAt arg11.pkt.params 16 8 = (ch false).outBase + (ch false).bytes) ∧ ((ch false).bytes + fieldAt arg11.pkt.params 24 8 ≤ 17179869184)) ∧
    (((SP false).entered cipOpSpec arg11).cmdRead blkCIP (xc false).owner (fieldAt arg11.pkt.params 8 8) (fieldAt arg11.pkt.params 24 8) (fieldAt arg11.pkt.params 0 2) = (rd vP 4096 16, some (List.take 16 pt))) ∧
    ((bitAt (fieldAt arg11.pkt.params 2 1) 2 = false) ∧ (fieldAt arg11.pkt.params 24 8 % 16 = 0) ∧ ((SV tP).takes cipOpSpec arg12 = true) ∧ (((SV tP).entered cipOpSpec arg12).heldCtx ((SV tP).senderOf arg12) (fieldAt arg12.pkt.params 0 2) = some (xc true)) ∧ ((xc true).gen = ((SV tP).entered cipOpSpec arg12).genOf (xc true).owner) ∧ ((xc true).key = some k16) ∧ ((xc true).mode ≠ 3) ∧ ((xc true).chain = some (ch true)) ∧ (bitAt (fieldAt arg12.pkt.params 2 1) 1 = false) ∧ (bitAt (fieldAt arg12.pkt.params 2 1) 0 = (ch true).dec) ∧ (fieldAt arg12.pkt.params 16 8 = (ch true).outBase + (ch true).bytes) ∧ ((ch true).bytes + fieldAt arg12.pkt.params 24 8 ≤ 17179869184)) ∧
    ((bitAt (fieldAt arg12.pkt.params 2 1) 2 = true) ∧ ((ch true).dec = true) ∧ ((SV tQ).takes cipOpSpec arg12 = true) ∧ (((SV tQ).entered cipOpSpec arg12).heldCtx ((SV tQ).senderOf arg12) (fieldAt arg12.pkt.params 0 2) = some (xc true)) ∧ ((xc true).gen = ((SV tQ).entered cipOpSpec arg12).genOf (xc true).owner)) ∧
    (((SV tQ).entered cipOpSpec arg12).cmdRead blkCIP (xc true).owner (fieldAt arg12.pkt.params 8 8) (fieldAt arg12.pkt.params 24 8) (fieldAt arg12.pkt.params 0 2) = (aV tQ, some pt)) ∧
    ((aV tQ).cmdRead blkCIP (xc true).owner (fieldAt arg12.pkt.params 40 8) 16 (fieldAt arg12.pkt.params 0 2) = (arg13, some tQ)) ∧
    (((CX (xc false)).takes cipStateSaveSpec arg14 = true) ∧ (((CX (xc false)).entered cipStateSaveSpec arg14).heldCtx ((CX (xc false)).senderOf arg14) (fieldAt arg14.pkt.params 0 2) = some (xc false)) ∧ ((ch false).dec = false) ∧ (fieldAt arg14.pkt.params 2 1 = 0) ∧ ((CX (xc true)).takes cipStateSaveSpec arg14 = true) ∧ (((CX (xc true)).entered cipStateSaveSpec arg14).heldCtx ((CX (xc true)).senderOf arg14) (fieldAt arg14.pkt.params 0 2) = some (xc true))) ∧
    (((CX (xc true)).entered cipStateSaveSpec arg14).cmdWrite blkCIP (xc true).owner (fieldAt arg14.pkt.params 8 8) (fieldAt arg14.pkt.params 0 2) (chainRecord (fieldAt arg14.pkt.params 0 2) (xc true) (ch true)) = (arg15, true)) ∧
    (((CX (xc false)).takes cipStateSaveSpec arg16 = true) ∧ (((CX (xc false)).entered cipStateSaveSpec arg16).heldCtx ((CX (xc false)).senderOf arg16) (fieldAt arg16.pkt.params 0 2) = some (xc false)) ∧ (fieldAt arg16.pkt.params 2 1 = 1)) ∧
    (((CX (xc false)).entered cipStateSaveSpec arg16).cmdWrite blkCIP (xc false).owner (fieldAt arg16.pkt.params 8 8) (fieldAt arg16.pkt.params 0 2) (kwWrap (wrapKey (xc false).owner) (chainRecord (fieldAt arg16.pkt.params 0 2) (xc false) (ch false))) = (arg17, true)) ∧
    (((SR (rec_ true)).takes cipStateRestoreSpec arg18 = true) ∧ (((SR (rec_ true)).entered cipStateRestoreSpec arg18).heldCtx ((SR (rec_ true)).senderOf arg18) (fieldAt arg18.pkt.params 0 2) = some cx) ∧ (fieldAt arg18.pkt.params 2 1 = 0)) ∧
    (((SR (rec_ true)).entered cipStateRestoreSpec arg18).cmdRead blkCIP cx.owner (fieldAt arg18.pkt.params 8 8) 128 (fieldAt arg18.pkt.params 0 2) = (arg19, some (rec_ true))) ∧
    ((List.take 8 (rec_ true) = [70, 88, 68, 67, 83, 84, 65, 84]) ∧ (fieldAt (rec_ true) 8 2 = 1) ∧ (fieldAt (rec_ true) 10 2 = fieldAt arg18.pkt.params 0 2) ∧ (fieldAt (rec_ true) 12 1 = cx.owner) ∧ (fieldAt (rec_ true) 16 8 = cx.keyid.toNat) ∧ (cx.key ≠ none) ∧ ((ch true).dec = decide (fieldAt (rec_ true) 14 1 = 1)) ∧ ((ch true).dec = true ∨ fieldAt arg18.pkt.params 2 1 = 1 ∧ cx.pend = some (ivCounter (slice (rec_ true) 24 12))) ∧ ((ch true).iv = slice (rec_ true) 24 12) ∧ ((ch true).aadLen = fieldAt (rec_ true) 36 4) ∧ ((ch true).bytes = fieldAt (rec_ true) 40 8) ∧ ((ch true).outBase = fieldAt (rec_ true) 48 8)) ∧
    (((ch true).y = blockOf (slice (rec_ true) 56 16)) ∧ (arg20.takes cipStateRestoreSpec arg18 = true) ∧ ((arg20.entered cipStateRestoreSpec arg18).heldCtx (arg20.senderOf arg18) (fieldAt arg18.pkt.params 0 2) = some cj) ∧ (cj.chain = none)) ∧
    ((arg20.entered cipStateRestoreSpec arg18).cmdRead blkCIP cj.owner (fieldAt arg18.pkt.params 8 8) 128 (fieldAt arg18.pkt.params 0 2) = (arg21, some (rec_ true))) ∧
    ((fieldAt (rec_ true) 16 8 ≠ cj.keyid.toNat ∨ fieldAt (rec_ true) 12 1 ≠ cj.owner ∨ fieldAt (rec_ true) 14 1 ≠ 1 ∧ fieldAt arg18.pkt.params 2 1 = 0) ∧ ((CQ QpState.init).takes cipQpBindSpec qb = true) ∧ (some 4095 = if fieldAt qb.pkt.params 4 2 = 65535 then none else some (fieldAt qb.pkt.params 4 2)) ∧ (none = if fieldAt qb.pkt.params 6 2 = 65535 then none else some (fieldAt qb.pkt.params 6 2))) ∧
    (((CQ QpState.init).entered cipQpBindSpec qb).qpByQpn (fieldAt qb.pkt.params 0 4) = some (1, arg22)) ∧
    ((CQ QpState.init).senderOf qb = 0 ∨ arg22.inst = (CQ QpState.init).senderOf qb) ∧
    (∀ (m : ℕ), some 4095 = some m ∨ none = some m → ∃ x, ((CQ QpState.init).entered cipQpBindSpec qb).cipher.ctxs.find m = some x ∧ x.mode ≠ 3 ∧ x.owner = arg22.inst) ∧
    ((arg22.state = QpState.reset ∨ arg22.state = QpState.init) ∧ ((CQ QpState.rtr).takes cipQpBindSpec qb = true)) ∧
    (((CQ QpState.rtr).entered cipQpBindSpec qb).qpByQpn (fieldAt qb.pkt.params 0 4) = some (1, arg23)) ∧
    ((CQ QpState.rtr).senderOf qb = 0 ∨ arg23.inst = (CQ QpState.rtr).senderOf qb) ∧
    (∀ (m : ℕ), some 4095 = some m ∨ none = some m → ∃ x, ((CQ QpState.rtr).entered cipQpBindSpec qb).cipher.ctxs.find m = some x ∧ x.mode ≠ 3 ∧ x.owner = arg23.inst) ∧
    ((arg23.state = QpState.rtr ∨ arg23.state = QpState.rts ∨ arg23.state = QpState.error) ∧ (SG.takes cipHashSpec hs = true)) ∧
    ((SG.entered cipHashSpec hs).cmdRead blkCIP (SG.senderOf hs) (fieldAt hs.pkt.params 0 8) (fieldAt hs.pkt.params 8 8) 0 = (arg24, some pt)) ∧
    (SL.takes cipLmsSpec lc = true) ∧
    ((SL.entered cipLmsSpec lc).cmdRead blkCIP (SL.senderOf lc) (fieldAt lc.pkt.params 32 8) 60 0 = (arg25, some pub)) ∧
    (arg25.cmdRead blkCIP (SL.senderOf lc) (fieldAt lc.pkt.params 16 8) (fieldAt lc.pkt.params 24 4) 0 = (arg26, some sg)) ∧
    (arg26.cmdRead blkCIP (SL.senderOf lc) (fieldAt lc.pkt.params 0 8) (fieldAt lc.pkt.params 8 8) 0 = (arg27, some (zeros 20))) ∧
    ((hssVerify pub (zeros 20) sg = some false) ∧ ((CX0.rail 6).set ≠ 0)) :=
  ⟨by decide +kernel,
    by decide +kernel,
    by decide +kernel,
    by decide +kernel,
    by decide +kernel,
    Prod.ext rfl (by decide +kernel),
    Prod.ext rfl (by decide +kernel),
    by decide +kernel,
    by decide +kernel,
    rfl,
    Prod.ext rfl (by decide +kernel),
    Prod.ext rfl (by decide +kernel),
    by decide +kernel,
    Prod.ext rfl (by decide +kernel),
    by decide +kernel,
    by decide +kernel,
    Prod.ext rfl (by decide +kernel),
    Prod.ext rfl (by decide +kernel),
    by decide +kernel,
    Prod.ext rfl (by decide +kernel),
    by decide +kernel,
    Prod.ext rfl (by decide +kernel),
    by decide +kernel,
    Prod.ext rfl (by decide +kernel),
    by decide +kernel,
    by decide +kernel,
    Prod.ext rfl (by decide +kernel),
    by decide +kernel,
    rfl,
    by decide +kernel,
    by rintro m (h | h) <;> cases h; exact ⟨_, rfl, by decide +kernel, by decide +kernel⟩,
    by decide +kernel,
    rfl,
    by decide +kernel,
    by rintro m (h | h) <;> cases h; exact ⟨_, rfl, by decide +kernel, by decide +kernel⟩,
    by decide +kernel,
    Prod.ext rfl (by decide +kernel),
    by decide +kernel,
    Prod.ext rfl (by decide +kernel),
    Prod.ext rfl (by decide +kernel),
    Prod.ext rfl (by decide +kernel),
    by decide +kernel⟩

end W16

/-! ## Witnesses: Power -/

namespace W17

/-- The running device at a rung, its power state changed by `g`. -/
def PW (g : Power → Power) (st : State → State := id) : State :=
  st { live with
    power := g { live.power with rung := 1, floor := 2, prevFloor := 2, rails := (List.range 11).map fun r => (r, { Rail.initial with set := 600, pj := 999_999, armed := true }), fields := (List.range 6).map fun f => (f, { PField.initial with thermal := 700, cap := 460 }) }
    pcie := { live.pcie with link := .down } }
def P0 := PW id
def rdg (mv ma : Nat) : List (Option (Nat × Nat)) := List.replicate 11 (some (mv, ma))
def PR (g : Power → Power := id) (pfw : Bool := false) := PW fun p => g { p with reopenAt := some 2_000_000, pfw, fields := p.fields.put 5 { PField.initial with closed := true } }
def RN (s : State) : State := { s with parcels := [(0, { parcel1 with run := run4, cut := some cut1 })], facets := (job cut1 run4 id).facets }
def rq (ok : Bool) := PW (fun p => { p with floor := 3, request := some (3, 999) }) fun s => if ok then s else { s with parcels := [(0, parcel1)] }
def ET (r : Nat) := PW (fun p => { p with entering := some r }) fun s => { s with
  hbm := { s.hbm with stks := [(0, { Stack.initial with state := .ready })] }, acct := { s.acct with ring := 4 }, fabric := { s.fabric with lock := 2 }
  eth := { s.eth with links := [(0, { EthLink.initial with state := .up })] } }
def EX (r : Nat) := PW (fun p => { p with rung := r, exiting := true, floor := if r = 3 then 3 else 2, prevFloor := 1 }) fun s => { s with
  hbm := { s.hbm with stks := [(0, { Stack.initial with state := .selfRefresh })] } }
def rs (f : Nat) := cmd 0xB001 (fields [(1,f),(3,0),(4,1000000),(8,5)])
def ps (mv : Nat) := cmd 0xB004 (fields [(1,0),(1,0),(2,mv),(4,0)])
def arg1 : List (Option (ℕ × ℕ)) := rdg 1000 300_000
def arg2 : List (Option (ℕ × ℕ)) := (rdg 700 5).set 10 none
def arg3 : State := PW (fun p => { p with dozeIdle := 10, idleSince := some 3_000_000 })
def arg4 : State := PW (fun p => { p with rung := 2, wakeAt := 2_000_000 })
def arg5 : State := PW fun p => { p with pfw := true }
def arg6 : Cmd := cmd 0xB003 (fields [(4,2400),(4,0)])
def arg7 : Cmd := ps 751

theorem witness_PowerLadder :
    ((∀ r < 11, (arg1.getD r none).isSome = true) ∧ (∀ r < 11, ((rdg 700 300000).getD r none).isSome = true) ∧ (10 < 11) ∧ (arg2.getD 10 none = none) ∧ (5 < 6) ∧ (PR.power.reopenAt = some 2000000) ∧ (PR.gateHeld = true ∨ ∀ f < 5, (PR.pfield f).closed = false) ∧ (3 < 6) ∧ ((PR id true).power.reopenAt = some 2000000) ∧ ((PR id true).gateHeld = true ∨ ∀ f < 3, ((PR id true).pfield f).closed = false) ∧ (arg3.power.rung = 1) ∧ (2 ≤ arg3.power.floor)) ∧
    ((arg3.power.entering = none) ∧ (arg3.power.request = none) ∧ (arg3.power.exiting = false) ∧ (arg3.dozeOk none = true)) ∧
    ((rq true).power.request = some (3, 999)) ∧
    ((rq false).power.request = some (3, 999)) ∧
    (((ET 2).power.exiting = false) ∧ ((ET 2).power.entering = some 2) ∧ ((ET 3).power.exiting = false) ∧ ((ET 3).power.entering = some 3) ∧ (3 = 3 ∨ 3 = 4) ∧ ((ET 4).power.exiting = false) ∧ ((ET 4).power.entering = some 4) ∧ (4 = 3 ∨ 4 = 4) ∧ (P0.power.exiting = false) ∧ (P0.power.entering = none) ∧ (countsAt Wake.alarm P0.power.rung = true) ∧ (countsAt Wake.pwrwake P0.power.rung = false)) ∧
    ((arg4.power.wakeAt ≠ 0) ∧ ((EX 2).power.exiting = true) ∧ ((EX 2).power.held = []) ∧ ((EX 2).faults.late = []) ∧ ((EX 3).power.exiting = true) ∧ ((EX 3).power.held = []) ∧ ((EX 3).faults.late = [])) :=
  ⟨by decide +kernel,
    by decide +kernel,
    rfl,
    rfl,
    by decide +kernel,
    by decide +kernel⟩
theorem witness_PowerCommands :
    ((arg5.takes pwrRungSetSpec (rs 1) = true) ∧ ((arg5.entered pwrRungSetSpec (rs 1)).power.pfw = true) ∧ (P0.takes pwrRungSetSpec (rs 2) = true) ∧ ((P0.entered pwrRungSetSpec (rs 2)).power.pfw = false) ∧ (fieldAt (rs 2).pkt.params 0 1 ≤ 2) ∧ (fieldAt (rs 2).pkt.params 0 1 ≠ 0 ∨ (P0.entered pwrRungSetSpec (rs 2)).power.rung ≠ 1) ∧ (P0.takes pwrRungSetSpec (rs 0) = true) ∧ ((P0.entered pwrRungSetSpec (rs 0)).power.pfw = false) ∧ (fieldAt (rs 0).pkt.params 0 1 = 0) ∧ ((P0.entered pwrRungSetSpec (rs 0)).power.rung = 1) ∧ ((rq false).takes pwrRungSetSpec (rs 3) = true) ∧ (((rq false).entered pwrRungSetSpec (rs 3)).power.pfw = false)) ∧
    ((3 ≤ fieldAt (rs 3).pkt.params 0 1) ∧ (((rq false).entered pwrRungSetSpec (rs 3)).sleepOk (fieldAt (rs 3).pkt.params 0 1) (some ((rq false).waiterOf (rs 3))) = false) ∧ (P0.takes pwrRungSetSpec (rs 4) = true) ∧ ((P0.entered pwrRungSetSpec (rs 4)).power.pfw = false) ∧ (3 ≤ fieldAt (rs 4).pkt.params 0 1) ∧ ((P0.entered pwrRungSetSpec (rs 4)).sleepOk (fieldAt (rs 4).pkt.params 0 1) (some (P0.waiterOf (rs 4))) = true) ∧ (P0.takes pwrStatusSpec (cmd 45058 []) = true) ∧ (P0.takes pwrCapSetSpec arg6 = true) ∧ ((RN P0).takes pwrPaceSetSpec (ps 620) = true) ∧ (((RN P0).entered pwrPaceSetSpec (ps 620)).theParcel (ps 620).pkt.params = some 0) ∧ (((RN P0).entered pwrPaceSetSpec (ps 620)).parcelState 0 = FacetState.running)) ∧
    (fieldAt (ps 620).pkt.params 2 2 ≤ railCeiling) ∧
    (((RN P0).takes pwrPaceSetSpec arg7 = true) ∧ (((RN P0).entered pwrPaceSetSpec arg7).theParcel arg7.pkt.params = some 0)) ∧
    (((RN P0).entered pwrPaceSetSpec arg7).parcelState 0 ≠ FacetState.running ∨ railCeiling < fieldAt arg7.pkt.params 2 2) :=
  ⟨by decide +kernel,
    by decide +kernel,
    by unfold railCeiling; cases Config.energyBinned <;> decide +kernel,
    by decide +kernel,
    Or.inr (by unfold railCeiling; cases Config.energyBinned <;> decide +kernel)⟩

end W17

/-! ## Witnesses: Recorder -/

namespace W18

/-- The running device with its loupe changed by `g`. -/
def LP (g : Loupe → Loupe) (st : State → State := id) : State := st { live with loupe := g live.loupe }
def ev (code : Nat) (inst : Option (Nat × BitVec 16) := none) : Event := { code, inst, p0 := 3, p1 := 4, extra := [] }
def rec_ (seq : Nat) (e : Event) : Record := { seq, ev := e, fixed := false, drained := false, copied := e.inst.isNone, inFlash := false }
def q1 (e : List Event) (p : Nat := 0) (b : Nat := 15) := LP fun x => { x with queues := [(b, { events := e, pending := p })], rr := b, seq := 77, staging := [rec_ 5 (ev 0xC101)] }
def rs (e : Event) : Record := { seq := 77, ev := e, fixed := false, drained := false, copied := e.inst.isNone, inFlash := false }
def eo (b n : Nat) : Event := { code := 0xC100, inst := none, p0 := b, p1 := n, extra := [] }
def fz : Freeze := { seq := 70, counts := [1, 2, 3, 4, 5, 6], until_ := 0 }
def dl (f : Option Freeze) : DeviceLog := { addr := 0x10000000, segs := [], filling := none, lastSeq := 0, frozen := f }
def eth' : Event := { code := 0xC102, inst := none, p0 := 0xFF, p1 := 0, extra := [] }
def TH (f : Option Freeze) := LP fun x => { x with queues := [(15, { events := [eth'], pending := 0 })], seq := 77, staging := [{ rec_ 5 (ev 0xC101) with drained := true }], dlog := some (dl f) }
def bz : List Byte := (List.range 6).flatMap (fun k => leBytes 4 (fz.counts.getD k 0)) ++ leBytes 8 70
def rz : Record := { rs eth' with ev := { eth' with p0 := leNat (bz.take 8), p1 := leNat (slice bz 8 8), extra := bz.drop 16 } }
def r5 := rec_ 5 (ev 0xC101)
def DR (d : DeviceLog) (r : Record := r5) := LP (fun x => { x with staging := [r], dlog := some d }) fun s => { s with mem := mem ((List.range 128).map fun g => (8 * g, mapTo (4 + g))), insts := [(0, { Instance.initial with state := .active, mapLen := 256, shares := Shares.manager })] }
def dd (f : Option Freeze) (a : Nat := 0) : DeviceLog := { dl f with addr := a }
def ri := rec_ 5 (ev 0x0002 (some (0, 0)))
def il (f : Option Freeze) (bs : List Bucket := []) : InstanceLog := { ring := 0x1000, prod := 0, wraps := 0, lastSeq := 0, rate := 1000, buckets := bs, frozen := f }
def IL (l : InstanceLog) (r : Record := ri) := LP fun x => { x with staging := [r], ilogs := [(0, l)] }
def bk (n : Nat) : Bucket := { code := 2, nano := n, at_ := 1_000_000, suppressed := 4, used := 1 }
def rj := rec_ 5 (ev 0x0002 (some (0, 9)))
def rq : Record := rec_ 9 (ev 0xD009)
def FL : State := LP (fun x => { x with staging := [rq], flushDue := some 2_000_000, flashSeg := 0 }) fun s => { s with boot := { s.boot with flashSize := 0x8200000 } }
def FZ (u : Nat) := LP fun x => { x with dlog := some (dl (some { fz with until_ := u })) }
def ds (a n : Nat) := cmd 0xC001 (fields [(8,a),(8,n)])
def big (g : Loupe → Loupe) := LP g fun s => { s with mem := mem ((List.range 128).map fun g => (8 * g, mapTo (4 + g))), insts := [(0, { Instance.initial with state := .active, mapLen := 256, shares := Shares.manager })] }
def is (n rate : Nat) := cmd 0xC002 (fields [(1,0),(1,0),(2,rate),(4,0),(8,n)])
def ln (n rate : Nat) : InstanceLog := { ring := n, prod := 0, wraps := 0, lastSeq := 0, rate, buckets := [], frozen := none }
def fr (op : Nat) := cmd 0xC003 (fields [(1,0xFF),(1,op),(2,10000),(4,0)])
def fq : Freeze := { fz with until_ := 9_000_000 }
def BD (f : Option Freeze) := big fun x => { x with dlog := some { dl f with lastSeq := 66 } }
def fl := cmd 0xC004 []
def mf (s : State) (sp : Spec) (c : Cmd) : State := (s.entered sp c).mayFail.2
def fre (k a : Nat) := cmd 0xC005 (fields [(4,k),(4,0),(8,a)])
def arg1 : State := q1 [ev 0xC101, ev 1]
def arg2 : State := q1 [ev 0xD009 (some (0, 0))]
def arg3 : Event := ev 0xD009 (some (0, 0))
def arg4 : Record := rs (ev 0xD009 (some (0, 0)))
def arg5 : State := DR (dd (some fz))
def arg6 : State := DR (dd none (200 * granule))
def arg7 : DeviceLog := dd none (200 * granule)
def arg8 : State := IL (il (some fz))
def arg9 : State := IL (il none [bk 999_999_999])
def arg10 : InstanceLog := il none [bk 999_999_999]
def arg11 : State := IL (il none [bk 1_000_000_000])
def arg12 : InstanceLog := il none [bk 1_000_000_000]
def arg13 : State := LP (fun x => x) fun s => { s with fabric := { s.fabric with lock := 2 } }
def arg14 : Freeze := { fz with until_ := 0 }
def arg15 : Freeze := { fz with until_ := 5_000_000 }
def arg16 : State := big fun x => { x with fallback := true }
def arg17 : State := big fun x => { x with dlog := some (dl (some fz)) }
def arg18 : Cmd := ds 0 0x0FFF_FFFF
def arg19 : State := big fun x => { x with staging := [{ r5 with drained := true }] }
def arg20 : Cmd := ds 0 0x1000_0000
def arg21 : State := big fun x => { x with ilogs := [(0, il (some fz))] }
def arg22 : State := big fun x => { x with ilogs := [(0, il none)] }
def arg23 : State := mf FL logFlushSpec fl
def arg24 : State := ((mf FL logFlushSpec fl).flush 3 true).1
def arg25 : State := mf FL logFlashReadSpec (fre 2 0x1000)

theorem witness_RecorderRows :
    ((arg1.nextBlock = some 15) ∧ (arg1.loupe.fallback = false) ∧ (arg1.loupe.lost = none) ∧ ((arg1.inQueue 15).pending = 0 ∧ (arg1.inQueue 15).events = [ev 49409, ev 1] ∧ (ev 49409).code ≠ 49410 ∨ (arg1.inQueue 15).pending ≠ 0 ∧ [ev 1] = (arg1.inQueue 15).events ∧ ev 49409 = { code := 49408, inst := none, p0 := 15, p1 := (arg1.inQueue 15).pending, extra := [] }) ∧ (rs (ev 49409) = { seq := arg1.loupe.seq, ev := ev 49409, fixed := arg1.loupe.flood, drained := false, copied := (ev 49409).inst.isNone, inFlash := false }) ∧ ((fun rs => (List.map (fun r => r.bytes.length) rs).sum) (arg1.loupe.staging ++ [rs (ev 49409)]) ≤ stageSize) ∧ (arg2.nextBlock = some 15) ∧ (arg2.loupe.fallback = false) ∧ (arg2.loupe.lost = none) ∧ ((arg2.inQueue 15).pending = 0 ∧ (arg2.inQueue 15).events = [arg3] ∧ arg3.code ≠ 49410 ∨ (arg2.inQueue 15).pending ≠ 0 ∧ [] = (arg2.inQueue 15).events ∧ arg3 = { code := 49408, inst := none, p0 := 15, p1 := (arg2.inQueue 15).pending, extra := [] }) ∧ (arg4 = { seq := arg2.loupe.seq, ev := arg3, fixed := arg2.loupe.flood, drained := false, copied := arg3.inst.isNone, inFlash := false }) ∧ ((fun rs => (List.map (fun r => r.bytes.length) rs).sum) (arg2.loupe.staging ++ [arg4]) ≤ stageSize)) ∧
    (((q1 [ev 1] 9).nextBlock = some 15) ∧ ((q1 [ev 1] 9).loupe.fallback = false) ∧ ((q1 [ev 1] 9).loupe.lost = none) ∧ (((q1 [ev 1] 9).inQueue 15).pending = 0 ∧ ((q1 [ev 1] 9).inQueue 15).events = [eo 15 9, ev 1] ∧ (eo 15 9).code ≠ 49410 ∨ ((q1 [ev 1] 9).inQueue 15).pending ≠ 0 ∧ [ev 1] = ((q1 [ev 1] 9).inQueue 15).events ∧ eo 15 9 = { code := 49408, inst := none, p0 := 15, p1 := ((q1 [ev 1] 9).inQueue 15).pending, extra := [] }) ∧ (rs (eo 15 9) = { seq := (q1 [ev 1] 9).loupe.seq, ev := eo 15 9, fixed := (q1 [ev 1] 9).loupe.flood, drained := false, copied := (eo 15 9).inst.isNone, inFlash := false }) ∧ ((fun rs => (List.map (fun r => r.bytes.length) rs).sum) ((q1 [ev 1] 9).loupe.staging ++ [rs (eo 15 9)]) ≤ stageSize) ∧ ((TH none).nextBlock = some 15) ∧ ((TH none).loupe.fallback = false) ∧ ((TH none).loupe.lost = none) ∧ (((TH none).inQueue 15).pending = 0) ∧ (((TH none).inQueue 15).events = [eth']) ∧ (eth'.code = 49410)) ∧
    (((TH none).loupe.nextDrain = none) ∧ ((TH none).loupe.freezeOf eth'.p0 = none) ∧ ((TH (some fz)).nextBlock = some 15) ∧ ((TH (some fz)).loupe.fallback = false) ∧ ((TH (some fz)).loupe.lost = none) ∧ (((TH (some fz)).inQueue 15).pending = 0) ∧ (((TH (some fz)).inQueue 15).events = [eth']) ∧ ((TH (some fz)).loupe.nextDrain = none) ∧ ((TH (some fz)).loupe.freezeOf eth'.p0 = some fz) ∧ (rz.ev.code = 49410) ∧ (rz.ev.inst = eth'.inst) ∧ (rz.ev.params = List.flatMap (fun j => leBytes 4 (fz.counts.getD j 0)) (List.range 6) ++ leBytes 8 fz.seq)) ∧
    ((rz.ev.extra.length = 16) ∧ (rz.ev.p0 < 2 ^ 64) ∧ (rz.ev.p1 < 2 ^ 64) ∧ (rz.seq = (TH (some fz)).loupe.seq) ∧ (rz.fixed = (TH (some fz)).loupe.flood) ∧ (rz.drained = false) ∧ (rz.copied = eth'.inst.isNone) ∧ (rz.inFlash = false) ∧ ((fun rs => (List.map (fun r => r.bytes.length) rs).sum) ((TH (some fz)).loupe.staging ++ [rz]) ≤ stageSize) ∧ (arg5.loupe.nextDrain = some r5) ∧ (arg5.loupe.dlog = some (dd (some fz))) ∧ (arg5.loupe.dlogErr = false)) ∧
    ((r5.copied = true) ∧ (r5.drained = false) ∧ ((dd (some fz)).frozen = some fz) ∧ ((DR (dd none)).loupe.nextDrain = some r5) ∧ ((DR (dd none)).loupe.dlog = some (dd none)) ∧ ((DR (dd none)).loupe.dlogErr = false) ∧ ((dd none).frozen = none) ∧ (arg6.loupe.nextDrain = some r5) ∧ (arg6.loupe.dlog = some arg7) ∧ (arg6.loupe.dlogErr = false) ∧ (arg7.frozen = none) ∧ (arg8.loupe.nextDrain = some ri)) ∧
    (ri.copied = false) ∧
    (ri.ev.inst = some (0, 0)) ∧
    ((arg8.loupe.ilogs.find 0 = some (il (some fz))) ∧ (arg8.genOf 0 = 0) ∧ (arg8.loupe.draining = false) ∧ ((il (some fz)).frozen = some fz) ∧ (arg9.loupe.nextDrain = some ri) ∧ (arg9.loupe.ilogs.find 0 = some arg10) ∧ (arg9.genOf 0 = 0) ∧ (arg9.loupe.draining = false) ∧ (arg10.frozen = none) ∧ ((arg10.bucket ri.ev.code arg9.now).nano < 1000000000) ∧ (arg11.loupe.nextDrain = some ri) ∧ (arg11.loupe.ilogs.find 0 = some arg12)) ∧
    ((arg11.genOf 0 = 0) ∧ (arg11.loupe.draining = false) ∧ (arg12.frozen = none) ∧ (1000000000 ≤ (arg12.bucket ri.ev.code arg11.now).nano) ∧ ((IL (il none)).loupe.nextDrain = some ri) ∧ ((IL (il none)).loupe.ilogs.find 0 = some (il none)) ∧ ((IL (il none)).genOf 0 = 0) ∧ ((IL (il none)).loupe.draining = false) ∧ ((il none).frozen = none) ∧ (1000000000 ≤ ((il none).bucket ri.ev.code (IL (il none)).now).nano) ∧ ((IL (il none) rj).loupe.nextDrain = some rj) ∧ (rj.copied = false)) ∧
    (rj.ev.inst = some (0, 9)) ∧
    (((IL (il none) rj).genOf 0 ≠ 9) ∧ ((IL (il none) rj).loupe.draining = false) ∧ ((LP id).boot.phase = BootPhase.running) ∧ (((LP id).inQueue blkLOG).events.length < 64) ∧ (arg13.boot.phase = BootPhase.running) ∧ ((arg13.inQueue blkLOG).events.length < 64) ∧ (FL.loupe.flushPfw = false) ∧ (FL.loupe.flushDue = some 2000000) ∧ (0 = FL.loupe.flashSeg) ∧ (logRegion = logRegion + 0 * flashSegSize) ∧ (1 = (0 + 1) % max 1 FL.boot.flashSegs) ∧ ((List.map (fun x => x.seq) FL.loupe.toFlush).min? = some 9)) ∧
    (((List.map (fun x => x.seq) FL.loupe.toFlush).max? = some 9) ∧ ((LP id).loupe.toFlush = []) ∧ ((FZ 0).loupe.freezeOf 255 = some arg14) ∧ (arg14.until_ = 0) ∧ ((FZ 5000000).loupe.freezeOf 255 = some arg15) ∧ (arg15.until_ ≠ 0) ∧ (1 ≤ 6) ∧ (6 ≤ 6) ∧ (15 < 16)) :=
  ⟨by decide +kernel,
    by decide +kernel,
    by decide +kernel,
    by decide +kernel,
    by decide +kernel,
    by decide +kernel,
    rfl,
    by decide +kernel,
    by decide +kernel,
    rfl,
    by decide +kernel,
    by decide +kernel⟩
theorem witness_RecorderCommands (hf : Config.freeValue 0 % 2 = 0) :
    ((arg16.takes logDlogSetSpec (ds 0 0) = true) ∧ ((arg16.entered logDlogSetSpec (ds 0 0)).loupe.fallback = true) ∧ (arg17.takes logDlogSetSpec (ds 0 0) = true) ∧ ((arg17.entered logDlogSetSpec (ds 0 0)).loupe.fallback = false) ∧ (((arg17.entered logDlogSetSpec (ds 0 0)).loupe.freezeOf 255).isSome = true) ∧ ((big id).takes logDlogSetSpec (ds 0 0) = true) ∧ (((big id).entered logDlogSetSpec (ds 0 0)).loupe.fallback = false) ∧ (((big id).entered logDlogSetSpec (ds 0 0)).loupe.freezeOf 255 = none) ∧ (fieldAt (ds 0 0).pkt.params 8 8 = 0) ∧ ((big id).takes logDlogSetSpec arg18 = true) ∧ (((big id).entered logDlogSetSpec arg18).loupe.fallback = false) ∧ (((big id).entered logDlogSetSpec arg18).loupe.freezeOf 255 = none)) ∧
    ((fieldAt arg18.pkt.params 8 8 ≠ 0) ∧ (fieldAt arg18.pkt.params 8 8 ≠ 268435456 ∨ fieldAt arg18.pkt.params 0 8 % 2097152 ≠ 0 ∨ ((big id).entered logDlogSetSpec arg18).inHbm 0 (fieldAt arg18.pkt.params 0 8) (fieldAt arg18.pkt.params 8 8) = false) ∧ (arg19.takes logDlogSetSpec arg20 = true) ∧ ((arg19.entered logDlogSetSpec arg20).loupe.fallback = false) ∧ ((arg19.entered logDlogSetSpec arg20).loupe.freezeOf 255 = none) ∧ (fieldAt arg20.pkt.params 8 8 = 268435456) ∧ (fieldAt arg20.pkt.params 0 8 % 2097152 = 0) ∧ (arg21.takes logIlogSetSpec (is 0 1000) = true) ∧ (ln 0 1000 = { ring := fieldAt (is 0 1000).pkt.params 8 8, prod := 0, wraps := 0, lastSeq := 0, rate := fieldAt (is 0 1000).pkt.params 2 2, buckets := [], frozen := none }) ∧ ((arg21.entered logIlogSetSpec (is 0 1000)).loupe.fallback = false) ∧ (((arg21.entered logIlogSetSpec (is 0 1000)).loupe.freezeOf (fieldAt (is 0 1000).pkt.params 0 1)).isSome = true) ∧ (arg22.takes logIlogSetSpec (is 0 1000) = true)) ∧
    (((arg22.entered logIlogSetSpec (is 0 1000)).loupe.fallback = false) ∧ ((arg22.entered logIlogSetSpec (is 0 1000)).loupe.freezeOf (fieldAt (is 0 1000).pkt.params 0 1) = none) ∧ (fieldAt (is 0 1000).pkt.params 8 8 = 0) ∧ ((big id).takes logIlogSetSpec (is 4097 1000) = true) ∧ (ln 4097 1000 = { ring := fieldAt (is 4097 1000).pkt.params 8 8, prod := 0, wraps := 0, lastSeq := 0, rate := fieldAt (is 4097 1000).pkt.params 2 2, buckets := [], frozen := none }) ∧ (((big id).entered logIlogSetSpec (is 4097 1000)).loupe.fallback = false) ∧ (((big id).entered logIlogSetSpec (is 4097 1000)).loupe.freezeOf (fieldAt (is 4097 1000).pkt.params 0 1) = none) ∧ (fieldAt (is 4097 1000).pkt.params 8 8 ≠ 0) ∧ (fieldAt (is 4097 1000).pkt.params 8 8 % 4096 ≠ 0 ∨ ((big id).entered logIlogSetSpec (is 4097 1000)).inHbm (fieldAt (is 4097 1000).pkt.params 0 1) (fieldAt (is 4097 1000).pkt.params 8 8) 65600 = false) ∧ ((big id).takes logIlogSetSpec (is 4096 1) = true) ∧ (ln 4096 1 = { ring := fieldAt (is 4096 1).pkt.params 8 8, prod := 0, wraps := 0, lastSeq := 0, rate := fieldAt (is 4096 1).pkt.params 2 2, buckets := [], frozen := none }) ∧ (((big id).entered logIlogSetSpec (is 4096 1)).loupe.fallback = false)) ∧
    ((((big id).entered logIlogSetSpec (is 4096 1)).loupe.freezeOf (fieldAt (is 4096 1).pkt.params 0 1) = none) ∧ (fieldAt (is 4096 1).pkt.params 8 8 ≠ 0) ∧ (fieldAt (is 4096 1).pkt.params 8 8 % 4096 = 0) ∧ ((BD (some fq)).takes logFreezeSpec (fr 1) = true) ∧ (((BD (some fq)).entered logFreezeSpec (fr 1)).loupe.fallback = false) ∧ ((if fieldAt (fr 1).pkt.params 0 1 = 255 then Option.map (fun x => x.lastSeq) ((BD (some fq)).entered logFreezeSpec (fr 1)).loupe.dlog else Option.map (fun x => x.lastSeq) (((BD (some fq)).entered logFreezeSpec (fr 1)).loupe.ilogs.find (fieldAt (fr 1).pkt.params 0 1))) = some 66) ∧ (((BD (some fq)).entered logFreezeSpec (fr 1)).loupe.freezeOf (fieldAt (fr 1).pkt.params 0 1) = some fq) ∧ (fq.until_ ≠ 0) ∧ (fieldAt (fr 1).pkt.params 1 1 = 1) ∧ ((BD (some fq)).takes logFreezeSpec (fr 0) = true) ∧ (((BD (some fq)).entered logFreezeSpec (fr 0)).loupe.fallback = false) ∧ ((if fieldAt (fr 0).pkt.params 0 1 = 255 then Option.map (fun x => x.lastSeq) ((BD (some fq)).entered logFreezeSpec (fr 0)).loupe.dlog else Option.map (fun x => x.lastSeq) (((BD (some fq)).entered logFreezeSpec (fr 0)).loupe.ilogs.find (fieldAt (fr 0).pkt.params 0 1))) = some 66)) ∧
    ((((BD (some fq)).entered logFreezeSpec (fr 0)).loupe.freezeOf (fieldAt (fr 0).pkt.params 0 1) = some fq) ∧ (fieldAt (fr 0).pkt.params 1 1 = 0) ∧ ((BD none).takes logFreezeSpec (fr 0) = true) ∧ (((BD none).entered logFreezeSpec (fr 0)).loupe.fallback = false) ∧ ((if fieldAt (fr 0).pkt.params 0 1 = 255 then Option.map (fun x => x.lastSeq) ((BD none).entered logFreezeSpec (fr 0)).loupe.dlog else Option.map (fun x => x.lastSeq) (((BD none).entered logFreezeSpec (fr 0)).loupe.ilogs.find (fieldAt (fr 0).pkt.params 0 1))) = some 66) ∧ (((BD none).entered logFreezeSpec (fr 0)).loupe.freezeOf (fieldAt (fr 0).pkt.params 0 1) = none) ∧ ((BD none).takes logFreezeSpec (fr 1) = true) ∧ (((BD none).entered logFreezeSpec (fr 1)).loupe.fallback = false) ∧ ((if fieldAt (fr 1).pkt.params 0 1 = 255 then Option.map (fun x => x.lastSeq) ((BD none).entered logFreezeSpec (fr 1)).loupe.dlog else Option.map (fun x => x.lastSeq) (((BD none).entered logFreezeSpec (fr 1)).loupe.ilogs.find (fieldAt (fr 1).pkt.params 0 1))) = some 66) ∧ (((BD none).entered logFreezeSpec (fr 1)).loupe.freezeOf (fieldAt (fr 1).pkt.params 0 1) = none) ∧ (FL.takes logFlushSpec fl = true)) ∧
    ((FL.entered logFlushSpec fl).mayFail = (false, arg23)) ∧
    (arg23.flush 3 true = (arg24, some (9, 9))) ∧
    (((LP id).takes logFlushSpec fl = true) ∧ (((LP id).entered logFlushSpec fl).loupe.toFlush = []) ∧ (FL.takes logFlashReadSpec (fre 2 4096) = true)) ∧
    ((FL.entered logFlashReadSpec (fre 2 4096)).mayFail = (false, arg25)) ∧
    ((2 = fieldAt (fre 2 4096).pkt.params 0 4) ∧ ((FL.entered logFlashReadSpec (fre 2 4096)).boot.flashSegs ≤ 2 ∨ flashSegOk ((FL.entered logFlashReadSpec (fre 2 4096)).boot.flashRead (logRegion + 2 * flashSegSize) flashSegSize) = false)) :=
  ⟨by decide +kernel,
    by decide +kernel,
    by decide +kernel,
    by decide +kernel,
    by decide +kernel,
    (mayFail_no hf).trans (Prod.ext rfl rfl),
    Prod.ext rfl (by decide +kernel),
    by decide +kernel,
    (mayFail_no hf).trans (Prod.ext rfl rfl),
    by decide +kernel⟩

theorem witness_RecorderCommands_fails (hf : Config.freeValue 0 % 2 = 1) :
    (FL.takes logFlushSpec fl = true ∧ (FL.entered logFlushSpec fl).takeFree.2.loupe.toFlush ≠ [] ∧ FL.takes logFlashReadSpec (fre 1 4096) = true ∧
      fieldAt (fre 1 4096).pkt.params 0 4 < (FL.entered logFlashReadSpec (fre 1 4096)).boot.flashSegs) ∧
    (FL.entered logFlushSpec fl).mayFail = (true, (FL.entered logFlushSpec fl).takeFree.2) ∧
    (FL.entered logFlashReadSpec (fre 1 4096)).mayFail = (true, (FL.entered logFlashReadSpec (fre 1 4096)).takeFree.2) :=
  ⟨by decide +kernel, mayFail_yes hf, mayFail_yes hf⟩

end W18

/-! ## Witnesses: Faults -/

namespace W19

/-- The running device, its faults changed by `g`. -/
def FT (g : Faults → Faults := id) (st : State → State := id) : State := st { live with faults := g live.faults, power := { live.power with rails := (List.range 11).map fun r => (r, { Rail.initial with set := 600, armed := true }), fields := (List.range 6).map fun f => (f, PField.initial) } }
def ip : InProgress := { id := 4, opcode := 5, src := 0, seq := 9, at_ := 999_000, crc := 0, params := [], inst := 0, gen := 0, stale := false }
def BW : State := FT id fun s => { s with chans := [(2, { Channel.initial 2 with state := .synced, inProg := [ip], bound := some 0 })] }
def keyed : State → State := fun s => { s with cipher := { s.cipher with keys := true, ctxs := [(0, { owner := 0, gen := 0, mode := 1, key := some [1], keyid := 0, pend := none, chain := none })], counters := [(0, 5)] }, pins := { s.pins with en := 0xF, pg := 0xF } }
def AL (r : Nat := 0) := FT id fun s => keyed { s with power := { s.power with rung := r } }
def AU : State := FT id fun s => keyed { s with power := { s.power with rails := [] } }
def AC (as : List Nat) (es : List (Nat × FaultEntry) := []) := FT (fun x => { x with alarms := as, table := es }) fun s => { s with cipher := { s.cipher with alarm := true } }
def fe (code : Nat) (st : FaultStatus) (sc : Scope := .device) (ob : Nat := 3) : FaultEntry := { code, scope := sc, object := ob, status := st, count := 1, firstSeq := none, lastSeq := 0, age := 0 }
def E0 (t : List (Nat × FaultEntry)) := FT fun x => { x with table := t }
def fg := cmd 0xD001 (fields [(1,63),(1,24),(6,0)])
def fc := cmd 0xD002 (fields [(1,63),(7,0)])
def dr (d j : Nat) := cmd 0xD003 (fields [(1,d),(1,j),(6,0)])
def mf (s : State) (c : Cmd) (sp : Spec := dgnDieRestartSpec) : State := (s.entered sp c).mayFail.2
def PF : State := FT id fun s => { s with power := { s.power with pfw := true } }
def RN : State := FT id fun s => { s with parcels := [(0, { parcel1 with run := run4, cut := some cut1 })], facets := (job cut1 run4 id).facets }
def FD (d : Nat) : State := FT (fun x => { x with failedDies := [d] }) fun s => { s with hbm := { s.hbm with stks := (List.range 4).map fun j => (4 * d + j, { Stack.initial with state := .failed }) } }
def FS : State := FT id fun s => { s with hbm := { s.hbm with stks := [(31, { Stack.initial with state := .failed })] } }
def rst := cmd 0xD004 []
def inj (k a : Nat) := cmd 0xD005 (fields [(1,k),(7,0),(8,a)])
def arg1 : State := FT fun x => { x with bezelRestart := true }
def arg2 : State := AC [1] [(0, fe 0x10 .active)]
def arg3 : State := AC [3, 1] [(0, fe 0x10 .active), (1, fe 0x12 .active)]
def arg4 : State := E0 [(63, fe 8 .active .die 7)]
def arg5 : FaultEntry := fe 8 .active .die 7
def arg6 : State := E0 [(63, fe 8 .causeClear .die 7)]
def arg7 : FaultEntry := fe 8 .causeClear .die 7
def arg8 : State := E0 [(63, fe 8 .active .record 7)]
def arg9 : FaultEntry := fe 8 .active .record 7
def arg10 : State := mf (FD 11) (dr 11 0xFF)
def arg11 : State := mf (FD 7) (dr 7 0xFF)
def arg12 : Cmd := inj 2 (spadBase + 5)

theorem witness_FaultRows :
    ((FT.boot.phase ≠ BootPhase.reset) ∧ (FT.faults.table = []) ∧ (7 < 12) ∧ (FT.dieFailed 7 = false) ∧ (11 < 12) ∧ (FT.dieFailed 11 = false) ∧ (0 < 12) ∧ (FT.dieFailed 0 = false) ∧ (8 < 12) ∧ (FT.dieFailed 8 = false) ∧ (FT.dieFailed 12 = false) ∧ (FT.faults.bezelTimes = [])) ∧
    ((∀ e ∈ FT.chans, e.2.inProg = []) ∧ (BW.boot.phase ≠ BootPhase.reset) ∧ (BW.faults.table = []) ∧ (BW.faults.bezelTimes = []) ∧ (arg1.boot.phase ≠ BootPhase.reset) ∧ (arg1.faults.table = []) ∧ (arg1.faults.bezelRestart = true) ∧ (AU.boot.phase ≠ BootPhase.reset) ∧ (AU.faults.table = []) ∧ (AU.faults.alarms = []) ∧ (AU.faults.late = []) ∧ ((List.all AU.cipher.ctxs fun e => e.2.chain.isNone) = true)) ∧
    ((AU.parcels = []) ∧ (¬((11 = 0 ∨ 11 < 11) ∨ 1 ≤ 11 ∧ 11 ≤ 4 ∧ AU.pins.en.getLsbD (11 - 1) = true ∨ 5 ≤ 11 ∧ 11 ≤ 11 ∧ (AU.rail (11 - 5)).armed = true)) ∧ (AL.boot.phase ≠ BootPhase.reset) ∧ (AL.faults.table = []) ∧ (AL.faults.alarms = []) ∧ (AL.faults.late = []) ∧ ((List.all AL.cipher.ctxs fun e => e.2.chain.isNone) = true) ∧ (AL.parcels = []) ∧ (AL.power.rung < 3) ∧ ((12 = 0 ∨ 11 < 12) ∨ 1 ≤ 12 ∧ 12 ≤ 4 ∧ AL.pins.en.getLsbD (12 - 1) = true ∨ 5 ≤ 12 ∧ 12 ≤ 11 ∧ (AL.rail (12 - 5)).armed = true) ∧ ((1 = 0 ∨ 11 < 1) ∨ 1 ≤ 1 ∧ 1 ≤ 4 ∧ AL.pins.en.getLsbD (1 - 1) = true ∨ 5 ≤ 1 ∧ 1 ≤ 11 ∧ (AL.rail (1 - 5)).armed = true) ∧ ((4 = 0 ∨ 11 < 4) ∨ 1 ≤ 4 ∧ 4 ≤ 4 ∧ AL.pins.en.getLsbD (4 - 1) = true ∨ 5 ≤ 4 ∧ 4 ≤ 11 ∧ (AL.rail (4 - 5)).armed = true)) ∧
    (((5 = 0 ∨ 11 < 5) ∨ 1 ≤ 5 ∧ 5 ≤ 4 ∧ AL.pins.en.getLsbD (5 - 1) = true ∨ 5 ≤ 5 ∧ 5 ≤ 11 ∧ (AL.rail (5 - 5)).armed = true) ∧ ((11 = 0 ∨ 11 < 11) ∨ 1 ≤ 11 ∧ 11 ≤ 4 ∧ AL.pins.en.getLsbD (11 - 1) = true ∨ 5 ≤ 11 ∧ 11 ≤ 11 ∧ (AL.rail (11 - 5)).armed = true) ∧ ((AL 2).boot.phase ≠ BootPhase.reset) ∧ ((AL 2).faults.table = []) ∧ ((AL 2).faults.alarms = []) ∧ ((AL 2).faults.late = []) ∧ ((List.all (AL 2).cipher.ctxs fun e => e.2.chain.isNone) = true) ∧ ((AL 2).parcels = []) ∧ ((AL 2).power.rung < 3) ∧ ((AL 3).boot.phase ≠ BootPhase.reset) ∧ ((AL 3).faults.table = []) ∧ ((AL 3).faults.alarms = [])) ∧
    (((AL 3).faults.late = []) ∧ ((List.all (AL 3).cipher.ctxs fun e => e.2.chain.isNone) = true) ∧ ((AL 3).parcels = []) ∧ (3 ≤ (AL 3).power.rung) ∧ ((AL 3).power.entering = none) ∧ (4 = 4 ∨ 4 ∉ (AC [4]).faults.alarms) ∧ (1 = 4 ∨ 1 ∉ (AC [2]).faults.alarms) ∧ (1 ≠ 4) ∧ (1 ∈ arg2.faults.alarms) ∧ (3 ≠ 4) ∧ (3 ∈ arg3.faults.alarms)) :=
  ⟨by decide +kernel,
    by decide +kernel,
    by decide +kernel,
    by decide +kernel,
    by decide +kernel⟩
theorem witness_DiagnosticCommands (hf : Config.freeValue 0 % 2 = 0) :
    ((arg4.takes dgnFaultGetSpec fg = true) ∧ ((E0 []).takes dgnFaultClearSpec fc = true) ∧ (((E0 []).entered dgnFaultClearSpec fc).faults.table.find (fieldAt fc.pkt.params 0 1) = none) ∧ (arg4.takes dgnFaultClearSpec fc = true) ∧ ((arg4.entered dgnFaultClearSpec fc).faults.table.find (fieldAt fc.pkt.params 0 1) = some arg5) ∧ (arg5.status = FaultStatus.active) ∧ (arg5.scope ≠ Scope.record) ∧ (arg5.scope ≠ Scope.command) ∧ (arg6.takes dgnFaultClearSpec fc = true) ∧ ((arg6.entered dgnFaultClearSpec fc).faults.table.find (fieldAt fc.pkt.params 0 1) = some arg7) ∧ (arg7.status = FaultStatus.causeClear ∨ arg7.scope = Scope.record ∨ arg7.scope = Scope.command) ∧ (arg8.takes dgnFaultClearSpec fc = true)) ∧
    (((arg8.entered dgnFaultClearSpec fc).faults.table.find (fieldAt fc.pkt.params 0 1) = some arg9) ∧ (arg9.status = FaultStatus.causeClear ∨ arg9.scope = Scope.record ∨ arg9.scope = Scope.command) ∧ (PF.takes dgnDieRestartSpec (dr 7 255) = true) ∧ ((PF.entered dgnDieRestartSpec (dr 7 255)).power.pfw = true) ∧ (RN.takes dgnDieRestartSpec (dr 7 255) = true) ∧ ((RN.entered dgnDieRestartSpec (dr 7 255)).power.pfw = false) ∧ ((List.any (RN.entered dgnDieRestartSpec (dr 7 255)).parcels fun e => e.2.valid && decide ((RN.entered dgnDieRestartSpec (dr 7 255)).parcelState e.1 = FacetState.running)) = true) ∧ (FT.takes dgnDieRestartSpec (dr 7 255) = true) ∧ ((FT.entered dgnDieRestartSpec (dr 7 255)).power.pfw = false) ∧ ((List.any (FT.entered dgnDieRestartSpec (dr 7 255)).parcels fun e => e.2.valid && decide ((FT.entered dgnDieRestartSpec (dr 7 255)).parcelState e.1 = FacetState.running)) = false) ∧ (fieldAt (dr 7 255).pkt.params 1 1 = 255) ∧ ((FT.entered dgnDieRestartSpec (dr 7 255)).dieFailed (fieldAt (dr 7 255).pkt.params 0 1) = false)) ∧
    (((FD 11).takes dgnDieRestartSpec (dr 11 255) = true) ∧ (((FD 11).entered dgnDieRestartSpec (dr 11 255)).power.pfw = false) ∧ ((List.any ((FD 11).entered dgnDieRestartSpec (dr 11 255)).parcels fun e => e.2.valid && decide (((FD 11).entered dgnDieRestartSpec (dr 11 255)).parcelState e.1 = FacetState.running)) = false) ∧ (fieldAt (dr 11 255).pkt.params 1 1 = 255) ∧ (((FD 11).entered dgnDieRestartSpec (dr 11 255)).dieFailed (fieldAt (dr 11 255).pkt.params 0 1) = true)) ∧
    (((FD 11).entered dgnDieRestartSpec (dr 11 255)).mayFail = (false, arg10)) ∧
    (((FD 7).takes dgnDieRestartSpec (dr 7 255) = true) ∧ (((FD 7).entered dgnDieRestartSpec (dr 7 255)).power.pfw = false) ∧ ((List.any ((FD 7).entered dgnDieRestartSpec (dr 7 255)).parcels fun e => e.2.valid && decide (((FD 7).entered dgnDieRestartSpec (dr 7 255)).parcelState e.1 = FacetState.running)) = false) ∧ (((FD 7).entered dgnDieRestartSpec (dr 7 255)).dieFailed (fieldAt (dr 7 255).pkt.params 0 1) = true)) ∧
    (((FD 7).entered dgnDieRestartSpec (dr 7 255)).mayFail = (false, arg11)) ∧
    ((FS.takes dgnDieRestartSpec (dr 7 3) = true) ∧ ((FS.entered dgnDieRestartSpec (dr 7 3)).power.pfw = false) ∧ ((List.any (FS.entered dgnDieRestartSpec (dr 7 3)).parcels fun e => e.2.valid && decide ((FS.entered dgnDieRestartSpec (dr 7 3)).parcelState e.1 = FacetState.running)) = false) ∧ (fieldAt (dr 7 3).pkt.params 1 1 < 4) ∧ (fieldAt (dr 7 3).pkt.params 0 1 < 8) ∧ (((FS.entered dgnDieRestartSpec (dr 7 3)).stack (4 * fieldAt (dr 7 3).pkt.params 0 1 + fieldAt (dr 7 3).pkt.params 1 1)).state = StackState.failed) ∧ ((FS.entered dgnDieRestartSpec (dr 7 3)).dieFailed (fieldAt (dr 7 3).pkt.params 0 1) = false)) ∧
    ((FS.entered dgnDieRestartSpec (dr 7 3)).mayFail = (false, mf FS (dr 7 3))) ∧
    ((FT.takes dgnDieRestartSpec (dr 7 3) = true) ∧ ((FT.entered dgnDieRestartSpec (dr 7 3)).power.pfw = false) ∧ ((List.any (FT.entered dgnDieRestartSpec (dr 7 3)).parcels fun e => e.2.valid && decide ((FT.entered dgnDieRestartSpec (dr 7 3)).parcelState e.1 = FacetState.running)) = false) ∧ (((FT.entered dgnDieRestartSpec (dr 7 3)).stack (4 * fieldAt (dr 7 3).pkt.params 0 1 + fieldAt (dr 7 3).pkt.params 1 1)).state ≠ StackState.failed) ∧ (PF.takes dgnDeviceResetSpec rst = true) ∧ ((PF.entered dgnDeviceResetSpec rst).boot.resetDue = false) ∧ ((PF.entered dgnDeviceResetSpec rst).power.pfw = true) ∧ (FT.takes dgnDeviceResetSpec rst = true) ∧ ((FT.entered dgnDeviceResetSpec rst).boot.resetDue = false) ∧ ((FT.entered dgnDeviceResetSpec rst).power.pfw = false) ∧ ((FT.entered dgnDeviceResetSpec rst).boot.phase ≠ BootPhase.reset) ∧ (FT.takes dgnInjectSpec (inj 1 63) = true)) ∧
    (((FT.entered dgnInjectSpec (inj 1 63)).unmapped (fieldAt (inj 1 63).pkt.params 8 8) = false) ∧ (regionOf (fieldAt (inj 1 63).pkt.params 8 8) = Region.hbm) ∧ (fieldAt (inj 1 63).pkt.params 0 1 = 1) ∧ (FT.takes dgnInjectSpec arg12 = true) ∧ ((FT.entered dgnInjectSpec arg12).unmapped (fieldAt arg12.pkt.params 8 8) = false) ∧ (regionOf (fieldAt arg12.pkt.params 8 8) = Region.spad 0 5) ∧ (fieldAt arg12.pkt.params 0 1 = 2)) :=
  ⟨by decide +kernel,
    by decide +kernel,
    by decide +kernel,
    (mayFail_no hf).trans (Prod.ext rfl rfl),
    by decide +kernel,
    (mayFail_no hf).trans (Prod.ext rfl rfl),
    by decide +kernel,
    (mayFail_no hf).trans (Prod.ext rfl rfl),
    by decide +kernel,
    by decide +kernel⟩

theorem witness_DiagnosticCommands_fails (hf : Config.freeValue 0 % 2 = 1) :
    ((FD 7).takes dgnDieRestartSpec (dr 7 255) = true ∧ ((FD 7).entered dgnDieRestartSpec (dr 7 255)).dieFailed 7 = true ∧
      FS.takes dgnDieRestartSpec (dr 7 3) = true ∧ ((FS.entered dgnDieRestartSpec (dr 7 3)).stack 31).state = .failed ∧
      (FS.entered dgnDieRestartSpec (dr 7 3)).dieFailed 7 = false) ∧
    ((FD 7).entered dgnDieRestartSpec (dr 7 255)).mayFail = (true, ((FD 7).entered dgnDieRestartSpec (dr 7 255)).takeFree.2) ∧
    (FS.entered dgnDieRestartSpec (dr 7 3)).mayFail = (true, (FS.entered dgnDieRestartSpec (dr 7 3)).takeFree.2) :=
  ⟨by decide +kernel, mayFail_yes hf, mayFail_yes hf⟩

end W19

/-! ## Witnesses: Signals, firmware and identity -/

namespace W20

/-- The running device, its boot state changed by `g`. -/
def BT (g : Boot → Boot := id) (st : State → State := id) : State := st { live with boot := g live.boot }
def RS : State := State.reset
def RP : State := { RS with pins := { RS.pins with porst := false }, now := 5 }
def GR (ph : BootPhase) (p : List Nat × List Nat := ([], [])) := BT (fun b => { b with phase := ph, plan := p }) fun s => { s with pins := { s.pins with en := 0xF, pg := 0 } }
def PF (r : Option Nat := none) := BT id fun s => { s with power := { s.power with pfw := true, reopenAt := r, fields := (List.range 6).map fun f => (f, { PField.initial with closed := true }) } }
def PE (b : Bool) (r : Nat := 0) (l : PceLinkState := .down) := BT id fun s => { s with pins := { s.pins with perst := b, peClk := true, prsnt := [(7, true)] }, power := { s.power with rung := r }, pcie := { s.pcie with link := l } }
def PP (n : Nat) := BT id fun s => { s with fabric := { s.fabric with lock := 2 }, now := n }
def PH := BT id fun s => { s with pins := { s.pins with phyRst := true, en := 1, vioAt := 900_000 } }
def CK (b : Bool) := BT id fun s => { s with pins := { s.pins with peClk := b, perst := false }, pcie := { s.pcie with configured := true, link := .down }, eth := { s.eth with links := [(48, { EthLink.initial with state := .up })] } }
def mf (s : State) (sp : Spec) (c : Cmd) : State := (s.entered sp c).mayFail.2
def stg (o : Nat) := cmd 0xB005 (fields [(4,o),(4,8),(8,0x1234567890)])
def SG := BT fun b => { b with committed := some 1 }
def cmt := cmd 0xB006 []
def act := cmd 0xB007 []
def ip (id : Nat) : InProgress := { id, opcode := 5, src := 0, seq := 9, at_ := 999_000, crc := 0, params := [], inst := 0, gen := 0, stale := false }
def AT (ids : List Nat) (sw : Bool := false) : State := BT (fun b => { b with activating := some (⟨2, 4, 9⟩, 500_900_000), switching := sw }) fun s => { s with chans := [(2, { Channel.initial 2 with state := .synced, inProg := ids.map ip, bound := some 0 })] }
def flo (n : Nat) := cmd 0xB008 (fields [(4,n),(4,0)])
def FV := BT fun b => { b with cnt0 := 3, seclevel := 7, committed := some 1 }
def atq (a : Nat) := cmd 0xB009 (fields [(8,a),(32,77)])
def QA := BT fun b => { b with cnt2 := 1048576 }
def arg1 : State := GR .starting ([0, 11], [])
def arg2 : State := GR .starting ([], [31])
def arg3 : State := PP 1_500_000_000
def arg4 : Cmd := stg (slotSize - 8)
def arg5 : State := mf SG fwStageSpec (stg (slotSize - 8))
def arg6 : ℕ × Channel := (2, ((AT [4, 5]).chan 2))
def arg7 : State := mf FV fwFloorSetSpec (flo 7)

theorem witness_BootAndPins :
    ((RS.boot.phase = BootPhase.reset) ∧ (RP.boot.phase = BootPhase.reset) ∧ (3 < 4) ∧ ((GR BootPhase.running).pins.pg.getLsbD 3 = false) ∧ ((GR BootPhase.running).boot.phase ≠ BootPhase.starting) ∧ (2 < 4) ∧ ((GR BootPhase.starting).pins.pg.getLsbD 2 = false) ∧ ((GR BootPhase.starting).boot.phase = BootPhase.starting) ∧ ((GR BootPhase.starting).pins.en.getLsbD 2 = true) ∧ (2 = 2) ∧ ((GR BootPhase.starting).boot.plan.1 = []) ∧ (arg1.pins.pg.getLsbD 2 = false)) ∧
    ((arg1.boot.phase = BootPhase.starting) ∧ (arg1.pins.en.getLsbD 2 = true) ∧ (11 ∈ arg1.boot.plan.1) ∧ (11 < 12) ∧ (1 < 4) ∧ ((GR BootPhase.starting).pins.pg.getLsbD 1 = false) ∧ ((GR BootPhase.starting).pins.en.getLsbD 1 = true) ∧ (1 = 1) ∧ (arg2.pins.pg.getLsbD 3 = false) ∧ (arg2.boot.phase = BootPhase.starting) ∧ (arg2.pins.en.getLsbD 3 = true) ∧ (3 = 3)) ∧
    ((0 < 4) ∧ ((GR BootPhase.running).pins.pg.getLsbD 0 = false) ∧ ((GR BootPhase.running).pins.en.getLsbD 0 = true) ∧ (BT.power.pfw = false) ∧ (BT.boot.phase ≠ BootPhase.reset) ∧ (PF.power.pfw = true) ∧ (PF.boot.phase ≠ BootPhase.reset) ∧ ((PE false).pins.perst = false) ∧ ((PE true).pins.perst = true) ∧ ((PE true 3).pins.perst = true) ∧ (7 < 8) ∧ (BT.boot.phase = BootPhase.running)) ∧
    ((BT.pins.prsnt.getD 7 false = false) ∧ ((PE true).boot.phase = BootPhase.running) ∧ ((PE true).pins.prsnt.getD 7 false = true) ∧ (arg3.fabric.lock = 1 ∨ arg3.fabric.lock = 2) ∧ (arg3.gptp < 2 ^ 64 - 10 ^ 9) ∧ (PH.pins.phyRst = true) ∧ (PH.pins.en.getLsbD 0 = true) ∧ ((CK true).pins.ethClk.getD 3 true = true) ∧ ((CK true).pins.peClk = true) ∧ ((CK false).pins.peClk = false)) :=
  ⟨by decide +kernel,
    by decide +kernel,
    by decide +kernel,
    by decide +kernel⟩
theorem witness_FirmwareCommands (hf : Config.freeValue 0 % 2 = 0) :
    ((SG.takes fwStageSpec arg4 = true) ∧ (1 = (SG.entered fwStageSpec arg4).boot.idleSlot)) ∧
    ((SG.entered fwStageSpec arg4).mayFail = (false, arg5)) ∧
    ((BT.takes fwCommitSpec cmt = true) ∧ (1 = (BT.entered fwCommitSpec cmt).boot.idleSlot) ∧ ((BT.entered fwCommitSpec cmt).boot.resetDue = false) ∧ ((BT.entered fwCommitSpec cmt).boot.image 1 = none) ∧ (BT.takes fwActivateSpec act = true) ∧ ((BT.entered fwActivateSpec act).boot.committed = none) ∧ (SG.takes fwActivateSpec act = true) ∧ ((SG.entered fwActivateSpec act).boot.committed ≠ none)) ∧
    ((AT [4]).boot.activating = some ({ ch := 2, id := 4, seq := 9 }, 500900000)) ∧
    (((AT [4]).boot.switching = false) ∧ (∀ e ∈ (AT [4]).chans, ∀ p ∈ e.2.inProg, e.1 = ({ ch := 2, id := 4, seq := 9 } : Waiter).ch ∧ p.id = ({ ch := 2, id := 4, seq := 9 } : Waiter).id) ∧ ((AT [4]).boot.committed.bind (AT [4]).boot.image = none)) ∧
    ((AT [4, 5]).boot.activating = some ({ ch := 2, id := 4, seq := 9 }, 500900000)) ∧
    (((AT [4, 5]).boot.switching = false) ∧ (arg6 ∈ (AT [4, 5]).chans) ∧ (ip 5 ∈ arg6.2.inProg) ∧ (¬(arg6.1 = ({ ch := 2, id := 4, seq := 9 } : Waiter).ch ∧ (ip 5).id = ({ ch := 2, id := 4, seq := 9 } : Waiter).id))) ∧
    ((AT [4] true).boot.activating = some ({ ch := 2, id := 4, seq := 9 }, 500900000)) ∧
    (((AT [4] true).boot.switching = true) ∧ ((AT [4] true).faults.bezelRestart = false) ∧ (FV.takes fwFloorSetSpec (flo 3) = true) ∧ (3 = fieldAt (flo 3).pkt.params 0 4) ∧ (3 ≤ (FV.entered fwFloorSetSpec (flo 3)).boot.cnt0 ∨ (FV.entered fwFloorSetSpec (flo 3)).boot.seclevel < 3) ∧ (FV.takes fwFloorSetSpec (flo 8) = true) ∧ (8 = fieldAt (flo 8).pkt.params 0 4) ∧ (8 ≤ (FV.entered fwFloorSetSpec (flo 8)).boot.cnt0 ∨ (FV.entered fwFloorSetSpec (flo 8)).boot.seclevel < 8) ∧ (FV.takes fwFloorSetSpec (flo 7) = true) ∧ (7 = fieldAt (flo 7).pkt.params 0 4) ∧ ((FV.entered fwFloorSetSpec (flo 7)).boot.cnt0 < 7) ∧ (7 ≤ (FV.entered fwFloorSetSpec (flo 7)).boot.seclevel)) ∧
    ((FV.entered fwFloorSetSpec (flo 7)).mayFail = (false, arg7)) ∧
    ((QA.takes attestQuoteSpec (atq 4096) = true) ∧ (1048576 ≤ (QA.entered attestQuoteSpec (atq 4096)).boot.cnt2)) :=
  ⟨by decide +kernel,
    (mayFail_no hf).trans (Prod.ext rfl rfl),
    by decide +kernel,
    rfl,
    by decide +kernel,
    rfl,
    by decide +kernel,
    rfl,
    by decide +kernel,
    (mayFail_no hf).trans (Prod.ext rfl rfl),
    by decide +kernel⟩

theorem witness_FirmwareCommands_fails (hf : Config.freeValue 0 % 2 = 1) :
    (SG.takes fwStageSpec (stg 0) = true ∧ BT.takes attestQuoteSpec (atq 0x1000) = true ∧ (BT.entered attestQuoteSpec (atq 0x1000)).boot.cnt2 < 1048576) ∧
    (SG.entered fwStageSpec (stg 0)).mayFail = (true, (SG.entered fwStageSpec (stg 0)).takeFree.2) ∧
    (BT.entered attestQuoteSpec (atq 0x1000)).mayFail = (true, (BT.entered attestQuoteSpec (atq 0x1000)).takeFree.2) :=
  ⟨by decide +kernel, mayFail_yes hf, mayFail_yes hf⟩

end W20

end Sys2Proof.Tests
end

section
/-! PROOF. Control space: the block of an address, the register that a write finds, and what a write changes (R8, R27 to R31,
R113, R492). -/

namespace Sys2Proof.Machine

/-! ## The block of an address (R27) -/

/-- The ranges of two different blocks do not meet. -/
theorem blocks_disjoint : ∀ b ∈ blocks, ∀ c ∈ blocks, c ≠ b → c.2.1 + c.2.2 ≤ b.2.1 ∨ b.2.1 + b.2.2 ≤ c.2.1 := by
  decide

/-- An address in a block's range lies in that block, at its offset from the base. -/
theorem blockAt_base_add {b : Nat × Nat × Nat} (hb : b ∈ blocks) {off : Nat} (h : off < b.2.2) :
    blockAt (b.2.1 + off) = some (b.1, off) := by
  have hp : (decide (b.2.1 ≤ b.2.1 + off) && decide (b.2.1 + off < b.2.1 + b.2.2)) = true := by simp [h]
  obtain ⟨c, hc⟩ := Option.isSome_iff_exists.mp
    (List.find?_isSome (p := fun c => decide (c.2.1 ≤ b.2.1 + off) && decide (b.2.1 + off < c.2.1 + c.2.2)) |>.mpr ⟨b, hb, hp⟩)
  have hcb : c = b := by
    by_contra hne
    have hin := List.find?_some hc
    simp only [Bool.and_eq_true, decide_eq_true_eq] at hin
    have := blocks_disjoint b hb c (List.mem_of_find?_eq_some hc) hne
    omega
  simp [blockAt, hc, hcb]

theorem blockAt_LOG {off : Nat} (h : off < 0x1000_0000) : blockAt (baseLOG + off) = some (blkLOG, off) :=
  blockAt_base_add (b := (blkLOG, baseLOG, 0x1000_0000)) (by decide) h

theorem blockAt_NVC {off : Nat} (h : off < 0x4000_0000) : blockAt (baseNVC + off) = some (blkNVC, off) :=
  blockAt_base_add (b := (blkNVC, baseNVC, 0x4000_0000)) (by decide) h

theorem blockAt_ZLK {off : Nat} (h : off < 0x4000_0000) : blockAt (baseZLK + off) = some (blkZLK, off) :=
  blockAt_base_add (b := (blkZLK, baseZLK, 0x4000_0000)) (by decide) h

theorem blockAt_MEM {off : Nat} (h : off < 0x8000_0000) : blockAt (baseMEM + off) = some (blkMEM, off) :=
  blockAt_base_add (b := (blkMEM, baseMEM, 0x8000_0000)) (by decide) h

section
variable {s : State} {a blk off : Nat} {r : BitVec 64 × State} (v : BitVec 64)

/-! ## A write that finds no register (R8, R28) -/

/-- No register stands at an address that 8 does not divide. -/
theorem State.regAt_misaligned (ha : a % 8 ≠ 0) : s.regAt a = none := if_pos ha

/-- A write that finds no register leaves only the event of the access. -/
theorem State.regWrite_none (h : s.regAt a = none) : s.regWrite a v = s.raise (blockHolding a) 0x0001 none a v.toNat := by
  simp [State.regWrite, h, State.accessEvent]

/-! ## A write that finds a register (R28, R31) -/

/-- At an aligned address the register is the one that the block shows at its offset. -/
theorem State.regAt_aligned (ha : a % 8 = 0) (hb : blockAt a = some (blk, off)) : s.regAt a = s.readBlock blk off := by
  simp [State.regAt, ha, hb]

/-- A write to an aligned address at whose offset the block has a register is the block's write there. -/
theorem State.regWrite_block (ha : a % 8 = 0) (hb : blockAt a = some (blk, off)) (hr : s.readBlock blk off = some r) :
    s.regWrite a v = s.writeBlock blk off v := by
  simp [State.regWrite, State.regAt_aligned ha hb, hr, hb]

/-! ## The blocks of the girdle dies, while their rail is on (R31) -/

theorem State.girdleOn_of_rail (h : (s.rail 6).set ≠ 0) : s.girdleOn = true := decide_eq_true h

theorem State.readBlock_NVC (h : (s.rail 6).set ≠ 0) : s.readBlock blkNVC off = s.readNvc off :=
  if_pos (State.girdleOn_of_rail h)

theorem State.readBlock_ZLK (h : (s.rail 6).set ≠ 0) : s.readBlock blkZLK off = s.readZlk off :=
  if_pos (State.girdleOn_of_rail h)

theorem State.readBlock_MEM (h : (s.rail 6).set ≠ 0) :
    s.readBlock blkMEM off = s.readMem (off / 0x1000_0000) (off % 0x1000_0000) :=
  if_pos (State.girdleOn_of_rail h)

/-! ## Registers that keep the old value where the new one is out of range (R492) -/

theorem State.regWrite_LOG_MARK : s.regWrite (baseLOG + 0x10) v =
    if 100 ≤ bitsOf v.toNat 15 0 ∧ bitsOf v.toNat 15 0 ≤ 60000 then { s with loupe := { s.loupe with markMs := bitsOf v.toNat 15 0 } }
    else s := by
  rw [State.regWrite_block v (by decide) (blockAt_LOG (by decide)) (r := (reg s.loupe.markMs, s)) rfl]
  simp [State.writeBlock, blkLOG, blkPWR]

theorem State.regWrite_NVC_DRVTO (h : (s.rail 6).set ≠ 0) : s.regWrite (baseNVC + 0x2_0000) v =
    if 100 ≤ bitsOf v.toNat 19 0 ∧ bitsOf v.toNat 19 0 ≤ 600000 then
      { s with storage := { s.storage with drvto := bitsOf v.toNat 19 0 } }
    else s := by
  have hr : s.readBlock blkNVC 0x2_0000 = some (reg s.storage.drvto, s) := State.readBlock_NVC h
  rw [State.regWrite_block v (by decide) (blockAt_NVC (by decide)) hr]
  simp [State.writeBlock, blkNVC, blkLOG, blkPWR]

theorem State.regWrite_ZLK_RTO (h : (s.rail 6).set ≠ 0) : s.regWrite (baseZLK + 0x18) v =
    if 1 ≤ bitsOf v.toNat 23 0 ∧ bitsOf v.toNat 23 0 ≤ 100000 then { s with fabric := { s.fabric with rto := bitsOf v.toNat 23 0 } }
    else s := by
  have hr : s.readBlock blkZLK 0x18 = some (reg s.fabric.rto, s) := State.readBlock_ZLK h
  rw [State.regWrite_block v (by decide) (blockAt_ZLK (by decide)) hr]
  rfl

theorem State.regWrite_MEM_SCRUB {k : Nat} (hk : k < 8) (h : (s.rail 6).set ≠ 0) :
    s.regWrite (baseMEM + 0x1000_0000 * k + 0x18) v =
      if bitsOf v.toNat 7 0 ≤ 168 then s.modMemDie k fun d => { d with scrub := bitsOf v.toNat 7 0 } else s := by
  have ha : (baseMEM + (0x1000_0000 * k + 0x18)) % 8 = 0 := by simp only [baseMEM]; omega
  have hdie : (0x1000_0000 * k + 0x18) / 0x1000_0000 = k := by omega
  have hoff : (0x1000_0000 * k + 0x18) % 0x1000_0000 = 0x18 := by omega
  have hr : s.readBlock blkMEM (0x1000_0000 * k + 0x18) = some (reg (s.memDie k).scrub, s) := by
    rw [State.readBlock_MEM h, hdie, hoff]; rfl
  have hw : s.writeBlock blkMEM (0x1000_0000 * k + 0x18) v = s.writeMem k 0x18 v := by
    simp only [State.writeBlock, hdie, hoff]; rfl
  rw [Nat.add_assoc, State.regWrite_block v ha (blockAt_MEM (by omega)) hr, hw]
  rfl

end

/-! ## REGISTER_WRITE -/

/-- REGISTER_WRITE always completes, in the state that the write leaves. -/
theorem runs_registerWrite {s : State} {a : Nat} {v : BitVec 64} {Q : State → Prop} (h : Q (s.regWrite a v)) :
    Runs (.registerWrite a v) s Q := ⟨_, rfl, h⟩

/-- A memory-girdle die's registers hold no byte of device memory. -/
theorem SameMem.modMemDie (s : State) (k : Nat) (g : MemDie → MemDie) : SameMem s (s.modMemDie k g) := fun _ => rfl

end Sys2Proof.Machine

open Sys2Proof Sys2Proof.Machine

/-- Settles O30. A write is told apart by what it finds at its address: nothing (the event), a row's own register (the row's
write), or a register with a range (the old value outside it). -/
theorem registerWrites : Obligations.RegisterWrites := by
  intro s a v
  refine ⟨fun h => ?none, fun h => ?misaligned, fun f _ ha => ?bankPwr, fun f _ ha => ?fpFlags, fun k hk hrail ha => ?scrub,
    fun hrail ha => ?rto, fun ha => ?mark, fun hrail ha => ?drvto⟩
  case none => exact runs_registerWrite (State.regWrite_none v h)
  case misaligned => exact runs_registerWrite (State.regWrite_none v (State.regAt_misaligned h))
  case bankPwr => subst ha; rfl
  case fpFlags => subst ha; rfl
  case scrub =>
    apply runs_registerWrite
    rw [ha, State.regWrite_MEM_SCRUB v hk hrail]
    split
    · exact ⟨by simp, SameMem.modMemDie _ _ _, rfl⟩
    · exact ⟨rfl, fun _ => rfl, rfl⟩
  case rto =>
    apply runs_registerWrite
    rw [ha, State.regWrite_ZLK_RTO v hrail]
    split <;> rfl
  case mark =>
    apply runs_registerWrite
    rw [ha, State.regWrite_LOG_MARK v]
    split <;> rfl
  case drvto =>
    apply runs_registerWrite
    rw [ha, State.regWrite_NVC_DRVTO v hrail]
    split <;> rfl

end

section
/-! PROOF. What a step is to keep, device memory in its form (R32, R164) and the queue of commands, and the rules that the proofs about
every operation use: how the two are read off a state that an operation built, through branches, folds and answers. -/

namespace Sys2Proof.Machine

/-! ## What a step is to keep -/

/-- Device memory and the queue of commands: what the two invariants of a step speak of. -/
abbrev MemQueue := List Host.Cell × List Instr

/-- Device memory and the queue of commands of a state. -/
def State.memQueue (s : State) : MemQueue := (s.mem, s.pending)

/-- From `a` on, the canonical form of memory was not lost and the queue did not change. -/
def Keeps (a b : MemQueue) : Prop := (Memory.wf a.1 = true → Memory.wf b.1 = true) ∧ b.2 = a.2

@[simp] theorem Keeps.refl (a : MemQueue) : Keeps a a := ⟨id, rfl⟩

theorem Keeps.trans {a b c : MemQueue} (h : Keeps a b) (g : Keeps b c) : Keeps a c := ⟨fun w => g.1 (h.1 w), g.2.trans h.2⟩

variable {old : MemQueue}

/-! ## Reading the pair off a state that an operation built -/

/-- An update of any other part of the state keeps both. (This lemma and its like are proved by `(rfl)` and not `rfl`: `simp` takes the
latter for definitional rewriting, and then cannot use it to meet the side conditions of the lemmas on operations that write.) -/
@[simp] theorem State.memQueue_mk {now mem emitted loupe faults facets mesh hbm gather parcels rings insts acct chans fabric eth traffic
    rma storage pcie cipher power boot pins free pending} :
    State.memQueue ⟨now, mem, emitted, loupe, faults, facets, mesh, hbm, gather, parcels, rings, insts, acct, chans, fabric, eth, traffic,
      rma, storage, pcie, cipher, power, boot, pins, free, pending⟩ = (mem, pending) := (rfl)

@[simp] theorem State.mem_pending (s : State) : (s.mem, s.pending) = s.memQueue := (rfl)

@[simp] theorem State.memQueue_ite {c : Prop} {_ : Decidable c} (s t : State) :
    (if c then s else t).memQueue = if c then s.memQueue else t.memQueue := apply_ite ..

@[simp] theorem keeps_ite {c : Prop} {_ : Decidable c} {a b : MemQueue} :
    Keeps old (if c then a else b) ↔ if c then Keeps old a else Keeps old b := by split <;> rfl

theorem Keeps.ite {c : Prop} {_ : Decidable c} {s t : State} (hs : Keeps old s.memQueue) (ht : Keeps old t.memQueue) :
    Keeps old (if c then s else t).memQueue := by split <;> assumption

/-- Folding a function that leaves both as they are leaves them. -/
@[simp] theorem foldl_memQueue {α : Type} {g : State → α → State} (hg : ∀ s x, (g s x).memQueue = s.memQueue) (l : List α)
    (s : State) : (l.foldl g s).memQueue = s.memQueue := by
  induction l generalizing s with
  | nil => rfl
  | cons x t ih => rw [List.foldl_cons, ih, hg]

/-- Folding a function that keeps both keeps them. -/
@[simp] theorem foldl_keeps {α : Type} {g : State → α → State} {l : List α} {s : State}
    (hg : ∀ s x, Keeps s.memQueue (g s x).memQueue) (hk : Keeps old s.memQueue) : Keeps old (l.foldl g s).memQueue := by
  induction l generalizing s with
  | nil => exact hk
  | cons x t ih => exact ih (hk.trans (hg s x))

/-- Folding over a state and a result at its side. -/
theorem foldl_fst_memQueue {α β : Type} {g : State × β → α → State × β} (hg : ∀ r x, (g r x).1.memQueue = r.1.memQueue)
    (l : List α) (r : State × β) : (l.foldl g r).1.memQueue = r.1.memQueue := by
  induction l generalizing r with
  | nil => rfl
  | cons x t ih => rw [List.foldl_cons, ih, hg]

theorem foldl_fst_keeps {α β : Type} {g : State × β → α → State × β} {l : List α} {r : State × β}
    (hg : ∀ r x, Keeps r.1.memQueue (g r x).1.memQueue) (hk : Keeps old r.1.memQueue) : Keeps old (l.foldl g r).1.memQueue := by
  induction l generalizing r with
  | nil => exact hk
  | cons x t ih => exact ih (hk.trans (hg r x))

/-- A state that an equation names as part of an answer. -/
theorem memQueue_fst {α : Type} {p : State × α} {t : State} {x : α} (e : p = (t, x)) : t.memQueue = p.1.memQueue := by rw [e]
theorem memQueue_snd {α : Type} {p : α × State} {t : State} {x : α} (e : p = (x, t)) : t.memQueue = p.2.memQueue := by rw [e]

theorem Keeps.fst {α : Type} {p : State × α} {t : State} {x : α} (hk : Keeps old p.1.memQueue) (e : p = (t, x)) :
    Keeps old t.memQueue := by
  rw [memQueue_fst e]; exact hk

/-- As `Keeps.fst`, where the operation left both as they were. -/
theorem Keeps.fst_same {α : Type} {s : State} {p : State × α} {t : State} {x : α} (hk : Keeps old s.memQueue)
    (hp : p.1.memQueue = s.memQueue) (e : p = (t, x)) : Keeps old t.memQueue := by
  rw [memQueue_fst e, hp]; exact hk

/-! ## What an answer leaves -/

/-- The state in which a command's execution leaves the block. -/
def Act.memQueue : Act → MemQueue
  | .done s _ _ _ => s.memQueue
  | .wait s => s.memQueue

@[simp] theorem Act.memQueue_done (s : State) (a b : Nat) (ps : List Byte) : (Act.done s a b ps).memQueue = s.memQueue := (rfl)
@[simp] theorem Act.memQueue_wait (s : State) : (Act.wait s).memQueue = s.memQueue := (rfl)
@[simp] theorem okay_memQueue (s : State) : (okay s).memQueue = s.memQueue := (rfl)
@[simp] theorem fails_memQueue (s : State) (a b : Nat) : (fails s a b).memQueue = s.memQueue := (rfl)
@[simp] theorem gives_memQueue (s : State) (ps : List Byte) : (gives s ps).memQueue = s.memQueue := (rfl)
@[simp] theorem Act.memQueue_ite {c : Prop} {_ : Decidable c} (a b : Act) :
    (if c then a else b).memQueue = if c then a.memQueue else b.memQueue := apply_ite ..

/-- A command's meaning keeps both. -/
def Spec.Kept (sp : Spec) : Prop :=
  ∀ {old : MemQueue} {s : State} (w : Waiter) (i : Nat) (ps : List Byte), Keeps old s.memQueue → Keeps old (sp.run s w i ps).memQueue

/-- The next state, if the answer is one, keeps both. -/
def KeepsNext (old : MemQueue) (r : Res) : Prop := ∀ t, r = .next t → Keeps old t.memQueue

@[simp] theorem keepsNext_next {s : State} : KeepsNext old (.next s) ↔ Keeps old s.memQueue :=
  ⟨fun h => h s rfl, fun h _ e => by cases e; exact h⟩

theorem Res.state_keeps {r : Res} {s : State} (hr : KeepsNext old r) (hk : Keeps old s.memQueue) : Keeps old (r.state s).memQueue := by
  unfold Res.state
  split
  · exact hr _ rfl
  · exact hk

end Sys2Proof.Machine
end

section
/-! PROOF. The operations that every chapter uses keep the memory's form and the queue. `storeRaw`, `zeroRange`, `loseHbm` and
`freshStack` are the only ones that write memory; each other operation either leaves both as they are or is built of those that keep
them. -/

namespace Sys2Proof.Machine

variable {old : MemQueue}

/-! ## The named operations -/

@[simp] theorem State.putFacet_memQueue (s : State) (f : Nat) (x : Facet) : (s.putFacet f x).memQueue = s.memQueue := (rfl)

@[simp] theorem State.modFacet_memQueue (s : State) (f : Nat) (g : Facet → Facet) : (s.modFacet f g).memQueue = s.memQueue := (rfl)

@[simp] theorem State.putInst_memQueue (s : State) (i : Nat) (x : Instance) : (s.putInst i x).memQueue = s.memQueue := (rfl)

@[simp] theorem State.modInst_memQueue (s : State) (i : Nat) (g : Instance → Instance) : (s.modInst i g).memQueue = s.memQueue := (rfl)

@[simp] theorem State.putParcel_memQueue (s : State) (p : Nat) (x : Parcel) : (s.putParcel p x).memQueue = s.memQueue := (rfl)

@[simp] theorem State.modParcel_memQueue (s : State) (p : Nat) (g : Parcel → Parcel) : (s.modParcel p g).memQueue = s.memQueue := (rfl)

@[simp] theorem State.modRun_memQueue (s : State) (p : Nat) (g : Run → Run) : (s.modRun p g).memQueue = s.memQueue := (rfl)

@[simp] theorem State.modCkp_memQueue (s : State) (p : Nat) (g : Ckp → Ckp) : (s.modCkp p g).memQueue = s.memQueue := (rfl)

@[simp] theorem State.putChan_memQueue (s : State) (c : Nat) (x : Channel) : (s.putChan c x).memQueue = s.memQueue := (rfl)

@[simp] theorem State.modChan_memQueue (s : State) (c : Nat) (g : Channel → Channel) : (s.modChan c g).memQueue = s.memQueue := (rfl)

@[simp] theorem State.modStack_memQueue (s : State) (k : Nat) (g : Stack → Stack) : (s.modStack k g).memQueue = s.memQueue := (rfl)

@[simp] theorem State.modMemDie_memQueue (s : State) (k : Nat) (g : MemDie → MemDie) : (s.modMemDie k g).memQueue = s.memQueue := (rfl)

@[simp] theorem State.modGatherDie_memQueue (s : State) (k : Nat) (g : GatherDie → GatherDie) :
    (s.modGatherDie k g).memQueue = s.memQueue := (rfl)

@[simp] theorem State.modFlow_memQueue (s : State) (n : Nat) (g : Flow → Flow) : (s.modFlow n g).memQueue = s.memQueue := (rfl)

@[simp] theorem State.modFn_memQueue (s : State) (n : Nat) (g : PceFn → PceFn) : (s.modFn n g).memQueue = s.memQueue := (rfl)

@[simp] theorem State.modCtrl_memQueue (s : State) (i : Nat) (g : NvCtrl → NvCtrl) : (s.modCtrl i g).memQueue = s.memQueue := (rfl)

@[simp] theorem State.modDrive_memQueue (s : State) (p : Nat) (g : Drive → Drive) : (s.modDrive p g).memQueue = s.memQueue := (rfl)

@[simp] theorem State.modPort_memQueue (s : State) (p : Nat) (g : EthPort → EthPort) : (s.modPort p g).memQueue = s.memQueue := (rfl)

@[simp] theorem State.modLink_memQueue (s : State) (l : Nat) (g : EthLink → EthLink) : (s.modLink l g).memQueue = s.memQueue := (rfl)

@[simp] theorem State.modGates_memQueue (s : State) (p : Nat) (g : PortGates → PortGates) : (s.modGates p g).memQueue = s.memQueue :=
  (rfl)

@[simp] theorem State.modRail_memQueue (s : State) (r : Nat) (g : Rail → Rail) : (s.modRail r g).memQueue = s.memQueue := (rfl)

@[simp] theorem State.modPField_memQueue (s : State) (f : Nat) (g : PField → PField) : (s.modPField f g).memQueue = s.memQueue := (rfl)

@[simp] theorem State.modRoot_memQueue (s : State) (p : Nat) (g : RootPort → RootPort) : (s.modRoot p g).memQueue = s.memQueue := (rfl)

@[simp] theorem State.reach_memQueue (s : State) (time : Nat) : (s.reach time).memQueue = s.memQueue := (rfl)

@[simp] theorem State.emit_memQueue (s : State) (o : Out) : (s.emit o).memQueue = s.memQueue := (rfl)

@[simp] theorem State.takeFree_memQueue (s : State) : (s.takeFree).2.memQueue = s.memQueue := (rfl)

@[simp] theorem State.mayFail_memQueue (s : State) : (s.mayFail).2.memQueue = s.memQueue := (rfl)

@[simp] theorem State.charge_memQueue (s : State) (i n by_ : Nat) : (s.charge i n by_).memQueue = s.memQueue := (rfl)

@[simp] theorem State.raise_memQueue (s : State) (blk code : Nat) (inst : Option Nat) (p0 p1 : Nat) (extra : List Byte) :
    (s.raise blk code inst p0 p1 extra).memQueue = s.memQueue := (rfl)

@[simp] theorem State.timeMark_memQueue (s : State) : (s.timeMark).memQueue = s.memQueue := (rfl)

@[simp] theorem State.recordFault_memQueue (s : State) (code : Nat) (scope : Scope) (object : Nat) :
    (s.recordFault code scope object).memQueue = s.memQueue := by
  simp only [State.recordFault]
  repeat' split
  all_goals simp

@[simp] theorem State.causeGone_memQueue (s : State) (code : Nat) : (s.causeGone code).memQueue = s.memQueue := (rfl)

@[simp] theorem State.objectWell_memQueue (s : State) (scope : Scope) (object : Nat) :
    (s.objectWell scope object).memQueue = s.memQueue := (rfl)

@[simp] theorem State.bankWords_memQueue (s : State) (f m : Nat) (write : Bool) (ws : List Nat) :
    (s.bankWords f m write ws).memQueue = s.memQueue := (rfl)

@[simp] theorem State.bankAccess_memQueue (s : State) (f m : Nat) (write : Bool) (off n : Nat) :
    (s.bankAccess f m write off n).memQueue = s.memQueue := (rfl)

@[simp] theorem State.markWritten_memQueue (s : State) (a n : Nat) : (s.markWritten a n).memQueue = s.memQueue := by
  simp [State.markWritten]

@[simp] theorem State.dropRows_memQueue (s : State) (a n : Nat) : (s.dropRows a n).memQueue = s.memQueue := (rfl)

theorem State.storeRaw_pending (s : State) (a : Nat) (bs : List Byte) : (s.storeRaw a bs).1.pending = s.pending := by
  have hm : (s.markWritten a bs.length).pending = s.pending := congrArg Prod.snd (State.markWritten_memQueue s a bs.length)
  simp only [State.storeRaw]
  split
  · rfl
  · split
    · exact hm
    · rfl

/-- What keeps the form of memory and the queue keeps both. -/
theorem Keeps.next {s t : State} (hk : Keeps old s.memQueue) (hm : MemOk s → MemOk t) (hp : t.pending = s.pending) :
    Keeps old t.memQueue :=
  ⟨fun w => hm (hk.1 w), hp.trans hk.2⟩

@[simp] theorem State.storeRaw_keeps {s : State} {a : Nat} {bs : List Byte} (hk : Keeps old s.memQueue) :
    Keeps old (s.storeRaw a bs).1.memQueue :=
  hk.next (fun h => State.storeRaw_memOk h a bs) (State.storeRaw_pending s a bs)

@[simp] theorem State.issueWrite_keeps {s : State} {k : Nat} (hk : Keeps old s.memQueue) : Keeps old (s.issueWrite k).memQueue := by
  unfold State.issueWrite
  split
  · exact hk
  · simp only
    split <;> simp [hk]

@[simp] theorem State.drainStack_keeps {s : State} {k n : Nat} (hk : Keeps old s.memQueue) : Keeps old (s.drainStack k n).memQueue := by
  induction n generalizing s with
  | zero => exact hk
  | succ n ih => exact ih (State.issueWrite_keeps hk)

@[simp] theorem State.drainHbm_keeps {s : State} (hk : Keeps old s.memQueue) : Keeps old (s.drainHbm).memQueue := by
  simp [State.drainHbm, hk]

@[simp] theorem State.ueLog_memQueue (s : State) (cls a : Nat) : (s.ueLog cls a).memQueue = s.memQueue := by
  simp [State.ueLog]

@[simp] theorem State.ueLogRange_memQueue (s : State) (cls a n : Nat) : (s.ueLogRange cls a n).memQueue = s.memQueue := by
  simp [State.ueLogRange]

@[simp] theorem State.eccCorr_memQueue (s : State) (a : Nat) : (s.eccCorr a).memQueue = s.memQueue := (rfl)

@[simp] theorem State.parityErr_memQueue (s : State) (a : Nat) : (s.parityErr a).memQueue = s.memQueue := (rfl)

@[simp] theorem State.busMet_memQueue (s : State) (a : Nat) (o : ReadOutcome) : (s.busMet a o).memQueue = s.memQueue := by
  unfold State.busMet
  repeat' split
  all_goals simp

@[simp] theorem State.busWrote_memQueue (s : State) (cls a : Nat) (o : ReadOutcome) : (s.busWrote cls a o).memQueue = s.memQueue := by
  unfold State.busWrote
  split <;> simp

@[simp] theorem State.writeOutcome_memQueue (s : State) : (s.writeOutcome).2.memQueue = s.memQueue := (rfl)

@[simp] theorem State.copyRaw_keeps {s : State} {src dst n : Nat} (hk : Keeps old s.memQueue) :
    Keeps old (s.copyRaw src dst n).memQueue := by
  simp [State.copyRaw, hk]

theorem State.saveGranule_keeps {s t : State} {p g : Nat} (hk : Keeps old s.memQueue) (e : s.saveGranule p g = some t) :
    Keeps old t.memQueue := by
  simp only [State.saveGranule] at e
  split at e
  · split at e
    · obtain rfl := Option.some.inj e
      simp [hk]
    · cases e
  · cases e

theorem State.saveFor_keeps {s t : State} {a n : Nat} (hk : Keeps old s.memQueue) (e : s.saveFor a n = some t) : Keeps old t.memQueue := by
  induction n generalizing s with
  | zero =>
    obtain rfl := Option.some.inj e
    exact hk
  | succ n ih =>
    simp only [State.saveFor] at e
    split at e
    · obtain rfl := Option.some.inj e
      exact hk
    · split at e
      next s' es => exact ih (State.saveGranule_keeps hk es) e
      next => cases e

@[simp] theorem State.holdWrite_memQueue (s : State) (p g : Nat) (w : HbmWrite) (flit : Option Flit) :
    (s.holdWrite p g w flit).memQueue = s.memQueue := (rfl)

@[simp] theorem State.storePart_keeps {s : State} {a : Nat} {bs : List Byte} (hk : Keeps old s.memQueue) :
    Keeps old (s.storePart a bs).1.memQueue := by
  simp only [State.storePart]
  split
  · simp [hk]
  · split
    next es => exact State.storeRaw_keeps (State.saveFor_keeps hk es)
    next => simp [hk]
    next => simp [hk]

@[simp] theorem State.store_keeps {s : State} {a : Nat} {bs : List Byte} (hk : Keeps old s.memQueue) :
    Keeps old (s.store a bs).1.memQueue := by
  simp only [State.store]
  split
  · split
    · exact foldl_fst_keeps (fun _ _ => State.storePart_keeps (Keeps.refl _)) (State.drainHbm_keeps hk)
    · simp [hk]
  · simp [hk]

@[simp] theorem State.zeroRange_keeps {s : State} {a n : Nat} (hk : Keeps old s.memQueue) : Keeps old (s.zeroRange a n).memQueue := by
  have hd : s.drainHbm.pending = s.pending := (State.drainHbm_keeps (Keeps.refl s.memQueue)).2
  refine hk.next (fun h => State.zeroRange_memOk h a n) ?_
  simp only [State.zeroRange]
  split
  · exact hd
  · rfl

@[simp] theorem State.zeroStore_keeps {s : State} {a n : Nat} (hk : Keeps old s.memQueue) : Keeps old (s.zeroStore a n).memQueue := by
  simp [State.zeroStore, hk]

@[simp] theorem State.logFail_memQueue (s : State) (fn : Nat) : (s.logFail fn).memQueue = s.memQueue := (rfl)

@[simp] theorem State.logPage_keeps {s : State} {fn bus : Nat} (hk : Keeps old s.memQueue) : Keeps old (s.logPage fn bus).memQueue := by
  simp only [State.logPage]
  repeat' split
  all_goals simp [hk]

@[simp] theorem State.masterWrite_keeps {s : State} {fn bus : Nat} {bs : List Byte} (hk : Keeps old s.memQueue) :
    Keeps old (s.masterWrite fn bus bs).memQueue :=
  foldl_keeps (fun _ _ => by simp) hk

@[simp] theorem State.masterParts_keeps {s : State} {l : List (Nat × Nat × Nat)} {bs : List Byte} (hk : Keeps old s.memQueue) :
    Keeps old (s.masterParts l bs).memQueue := by
  induction l generalizing s bs with
  | nil => exact hk
  | cons _ t ih => exact ih (State.masterWrite_keeps hk)

@[simp] theorem State.queueReads_memQueue (s : State) (i : Nat) (g : BitVec 16) (dest : Nat → ReadDest) (l : List (Nat × Nat × Nat))
    (off : Nat) : (s.queueReads i g dest l off).1.memQueue = s.memQueue := by
  induction l generalizing s off with
  | nil => rfl
  | cons _ t ih => exact (ih ..).trans (State.modFn_memQueue ..)

@[simp] theorem State.discardBytes_memQueue (s : State) (f n : Nat) : (s.discardBytes f n).memQueue = s.memQueue := (rfl)

theorem State.saveAt_keeps {s t : State} {who : Option (Nat × BitVec 16)} {a : Nat} {bs : List Byte} (hk : Keeps old s.memQueue)
    (e : s.saveAt who a bs = .ok t) : Keeps old t.memQueue := by
  have stored {s' t : State} (hk : Keeps old s'.memQueue)
      (e : (if (s'.store a bs).2 then Except.ok (s'.store a bs).1 else Except.error AccErr.uncorr) = .ok t) : Keeps old t.memQueue := by
    split at e
    · cases e
      exact State.store_keeps hk
    · cases e
  simp only [State.saveAt] at e
  split at e
  · cases e
  · split at e
    · cases e
      exact State.masterParts_keeps hk
    · cases e
  · split at e
    · cases e
      simpa using hk
    · split at e
      · cases e
      · exact stored (by simpa using hk) e
  · split at e
    · cases e
    · exact stored hk e
  · split at e
    · cases e
    · exact stored hk e

theorem State.saveAll_keeps {s t : State} {who : Option (Nat × BitVec 16)} {l : List (Nat × Nat)} {bs : List Byte}
    (hk : Keeps old s.memQueue) (e : s.saveAll who l bs = .ok t) : Keeps old t.memQueue := by
  induction l generalizing s bs with
  | nil =>
    cases e
    exact hk
  | cons _ l ih =>
    simp only [State.saveAll] at e
    split at e
    · cases e
    next es => exact ih (State.saveAt_keeps hk es) e

@[simp] theorem State.addressEvent_memQueue (s : State) (blk i a obj : Nat) : (s.addressEvent blk i a obj).memQueue = s.memQueue := by
  simp [State.addressEvent]

@[simp] theorem State.spadTouch_memQueue (s : State) (m : Nat) (rs : List (Nat × Nat)) : (s.spadTouch m rs).memQueue = s.memQueue := by
  unfold State.spadTouch
  exact foldl_memQueue (fun s x => by split <;> simp) _ _

@[simp] theorem State.discardReads_memQueue (s : State) (who : Option (Nat × BitVec 16)) (rs : List (Nat × Nat)) :
    (s.discardReads who rs).memQueue = s.memQueue := by
  unfold State.discardReads
  exact foldl_memQueue (fun s x => by split <;> simp) _ _

theorem State.writeInst_keeps {s t : State} {i a : Nat} {bs : List Byte} (hk : Keeps old s.memQueue) (e : s.writeInst i a bs = .ok t) :
    Keeps old t.memQueue := by
  simp only [State.writeInst] at e
  split at e
  · cases e
  · split at e
    · cases e
    next es =>
      cases e
      simpa using State.saveAll_keeps hk es

@[simp] theorem State.disarm_memQueue (s : State) (l : List Nat) : (s.disarm l).memQueue = s.memQueue := (rfl)

@[simp] theorem State.metSpad_memQueue (s : State) (f off n : Nat) : (s.metSpad f off n).memQueue = s.memQueue := by
  unfold State.metSpad
  split <;> simp

@[simp] theorem State.met_memQueue (s : State) (a n : Nat) : (s.met a n).memQueue = s.memQueue := by
  unfold State.met
  split
  · simp
  · exact (foldl_memQueue (fun _ _ => State.modMemDie_memQueue ..) _ _).trans (State.disarm_memQueue ..)

@[simp] theorem State.chargeRead_memQueue (s : State) (i a n : Nat) : (s.chargeRead i a n).memQueue = s.memQueue := by
  unfold State.chargeRead
  split <;> simp

@[simp] theorem State.countBad_memQueue (s : State) (f off n : Nat) : (s.countBad f off n).memQueue = s.memQueue :=
  foldl_memQueue (fun _ _ => State.modFacet_memQueue ..) _ _

@[simp] theorem State.metBad_memQueue (s : State) (cls a n : Nat) : (s.metBad cls a n).memQueue = s.memQueue := by
  unfold State.metBad
  split <;> simp

@[simp] theorem State.readBy_memQueue (s : State) (cls i a n : Nat) : (s.readBy cls i a n).1.memQueue = s.memQueue := by
  unfold State.readBy
  repeat' split
  all_goals simp

@[simp] theorem State.storeMet_keeps {s : State} {cls a : Nat} {bs : List Byte} (hk : Keeps old s.memQueue) :
    Keeps old (s.storeMet cls a bs).memQueue := by
  unfold State.storeMet
  split <;> simp [hk]

@[simp] theorem State.saveSome_keeps {s : State} {who : Option (Nat × BitVec 16)} {cls : Nat} {l : List (Nat × Nat)} {bs : List Byte}
    (hk : Keeps old s.memQueue) : Keeps old (s.saveSome who cls l bs).memQueue := by
  induction l generalizing s bs with
  | nil => exact hk
  | cons _ t ih =>
    refine ih ?_
    split
    next es => exact State.saveAt_keeps hk es
    next => exact State.storeMet_keeps hk
    next => exact hk

@[simp] theorem State.writeBy_keeps {s : State} {cls i a : Nat} {bs : List Byte} (hk : Keeps old s.memQueue) :
    Keeps old (s.writeBy cls i a bs).1.memQueue := by
  unfold State.writeBy
  split
  next es => exact State.writeInst_keeps hk es
  next =>
    simp only
    split
    · simp [hk]
    · exact hk
  next => exact hk

/-- However a ring took a record, the state it left keeps both. -/
def RingPut.Keeps (old : MemQueue) : RingPut → Prop
  | .ok s _ => Machine.Keeps old s.memQueue
  | .full => True
  | .bad s => Machine.Keeps old s.memQueue

theorem RingPut.Keeps.ok {r : RingPut} {t : State} {prod : Nat} (h : r.Keeps old) (e : r = .ok t prod) : Machine.Keeps old t.memQueue := by
  subst e; exact h

theorem RingPut.Keeps.bad {r : RingPut} {t : State} (h : r.Keeps old) (e : r = .bad t) : Machine.Keeps old t.memQueue := by
  subst e; exact h

theorem State.ringPut_keeps {s : State} {cls i ring len prod m : Nat} {rec pad : List Byte} (hk : Keeps old s.memQueue) :
    (s.ringPut cls i ring len prod m rec pad).Keeps old := by
  have hr : Keeps old (s.readBy cls i (ring + 8) 8).1.memQueue := by simpa using hk
  simp only [State.ringPut]
  split
  next e => exact hr.fst e
  next s1 _ e =>
    have h1 : Keeps old s1.memQueue := hr.fst e
    split
    · exact h1
    · generalize (if decide (len < prod + (padMul m rec).length) = true then len - prod + (padMul m rec).length
        else (padMul m rec).length) = need
      generalize (if decide (len < prod + (padMul m rec).length) = true then 0 else prod) = at_
      have hp : Keeps old (if decide (len < prod + (padMul m rec).length) = true then
          s1.writeBy cls i (ring + 64 + prod) (pad.take (len - prod)) else (s1, .ok ())).1.memQueue := by
        split <;> simp [h1]
      generalize (if decide (len < prod + (padMul m rec).length) = true then
        s1.writeBy cls i (ring + 64 + prod) (pad.take (len - prod)) else (s1, .ok ())) = p at hp ⊢
      split
      · trivial
      · split
        next => exact hp
        next =>
          split
          next e => exact (State.writeBy_keeps hp).fst e
          next e =>
            have h2 := (State.writeBy_keeps hp).fst e
            split
            next e => exact (State.writeBy_keeps h2).fst e
            next e => exact (State.writeBy_keeps h2).fst e

@[simp] theorem State.ringReset_keeps {s : State} {cls i ring : Nat} (hk : Keeps old s.memQueue) :
    Keeps old (s.ringReset cls i ring).1.memQueue := by
  unfold State.ringReset
  split
  next e => exact (State.writeBy_keeps hk).fst e
  next e => exact (State.writeBy_keeps hk).fst e

/-! ## What leaves a block for another -/

@[simp] theorem State.putFlit_memQueue (s : State) (p : Place) (fl : Flit) : (s.putFlit p fl).memQueue = s.memQueue := (rfl)

@[simp] theorem State.sendFlit_memQueue (s : State) (fl : Flit) : (s.sendFlit fl).memQueue = s.memQueue := (rfl)

@[simp] theorem State.dieSend_memQueue (s : State) (die : Nat) (fl : Flit) : (s.dieSend die fl).memQueue = s.memQueue := (rfl)

@[simp] theorem State.taken_memQueue (s : State) (pl : Place) (fl : Flit) : (s.taken pl fl).memQueue = s.memQueue := (rfl)

@[simp] theorem State.nackFacet_memQueue (s : State) (link f tag inst : Nat) (gen : BitVec 16) (status : Nat) :
    (s.nackFacet link f tag inst gen status).memQueue = s.memQueue := (rfl)

@[simp] theorem State.mgNack_memQueue (s : State) (k : Nat) (fl : Flit) (status : Nat) : (s.mgNack k fl status).memQueue = s.memQueue := by
  simp [State.mgNack]

@[simp] theorem State.mgDiscard_memQueue (s : State) (k : Nat) : (s.mgDiscard k).memQueue = s.memQueue := (rfl)

@[simp] theorem State.mgRefuse_memQueue (s : State) (k : Nat) (fl : Flit) (status : Nat) :
    (s.mgRefuse k fl status).memQueue = s.memQueue := (rfl)

@[simp] theorem State.mgLast_memQueue (s : State) (k : Nat) (fl : Flit) : (s.mgLast k fl).memQueue = s.memQueue := by
  unfold State.mgLast
  repeat' split
  all_goals simp

@[simp] theorem State.tmsDrop_memQueue (s : State) (die n by_ : Nat) : (s.tmsDrop die n by_).memQueue = s.memQueue := (rfl)

theorem State.egress_memQueue {s t : State} {link cls : Nat} {inst : Option Nat} {ctl waits : Bool} {body : TxBody} {len : Nat}
    {mark : Option (Nat × BitVec 24)} (e : s.egress link cls inst ctl waits body len mark = .done t) : t.memQueue = s.memQueue := by
  have full {s' : State} (e : (if waits then Egress.wait else .done (s'.tmsDrop (dieOfLink link) 1)) = .done t)
      (hs : s'.memQueue = s.memQueue) : t.memQueue = s.memQueue := by
    split at e
    · cases e
    · cases e
      simpa using hs
  simp only [State.egress] at e
  split at e
  · split at e
    · cases e; rfl
    · exact full e rfl
  · split at e
    · split at e
      · cases e
        simp
      · split at e
        · cases e; rfl
        · exact full e rfl
    · split at e
      · cases e; rfl
      · exact full e rfl

@[simp] theorem State.egressDrop_memQueue (s : State) (link cls : Nat) (inst : Option Nat) (ctl : Bool) (body : TxBody) (len : Nat) :
    (s.egressDrop link cls inst ctl body len).memQueue = s.memQueue := by
  unfold State.egressDrop
  split
  next e => exact State.egress_memQueue e
  next => rfl

@[simp] theorem State.withAck_memQueue (s : State) (z : ZFrame) : (s.withAck z).2.memQueue = s.memQueue := by
  simp only [State.withAck]
  repeat' split
  all_goals simp

theorem State.putZ_memQueue {s t : State} {z : ZFrame} {waits : Bool} (e : s.putZ z waits = .done t) : t.memQueue = s.memQueue := by
  unfold State.putZ at e
  split at e
  · exact State.egress_memQueue e
  · cases e; rfl

@[simp] theorem State.zDiscard_memQueue (s : State) (n : Nat) : (s.zDiscard n).memQueue = s.memQueue := (rfl)

@[simp] theorem State.zarenTo_memQueue (s : State) (link : Nat) (z : ZFrame) : (s.zarenTo link z).2.memQueue = s.memQueue := by
  simp only [State.zarenTo]
  repeat' split
  all_goals simp

@[simp] theorem State.emitZaren_memQueue (s : State) (link : Nat) (z : ZFrame) : (s.emitZaren link z).memQueue = s.memQueue := by
  simp [State.emitZaren]

@[simp] theorem State.noRoute_memQueue (s : State) (z : ZFrame) : (s.noRoute z).memQueue = s.memQueue := by
  simp [State.noRoute]

@[simp] theorem State.sendZ_memQueue (s : State) (z : ZFrame) : (s.sendZ z).memQueue = s.memQueue := by
  unfold State.sendZ
  split
  next e => exact State.putZ_memQueue e
  next => rfl

@[simp] theorem State.crossOut_memQueue (s : State) (g h : Nat) (z : ZFrame) : (s.crossOut g h z).memQueue = s.memQueue :=
  foldl_memQueue (fun _ _ => State.dieSend_memQueue ..) _ _

@[simp] theorem State.crossIn_memQueue (s : State) (d : Nat) (fl : Flit) : (s.crossIn d fl).memQueue = s.memQueue := by
  simp only [State.crossIn]
  repeat' split
  all_goals simp

@[simp] theorem State.pumpFlow_memQueue (s : State) (k n : Nat) : (s.pumpFlow k n).memQueue = s.memQueue := by
  induction n generalizing s with
  | zero => rfl
  | succ n ih =>
    simp only [State.pumpFlow]
    split
    · rfl
    · split
      · rfl
      · split
        · simp [ih]
        · split
          · rfl
          next e => simp [ih, State.putZ_memQueue e]

@[simp] theorem State.sendFlow_memQueue (s : State) (z : ZFrame) : (s.sendFlow z).memQueue = s.memQueue := by
  simp [State.sendFlow]

@[simp] theorem State.pumpAll_memQueue (s : State) : (s.pumpAll).memQueue = s.memQueue := by
  simp [State.pumpAll]

@[simp] theorem State.ctrlTo_memQueue (s : State) (p : Nat) (c : Cut) (rank code arg arg2 arg3 : Nat) (hash : List Byte) :
    (s.ctrlTo p c rank code arg arg2 arg3 hash).memQueue = s.memQueue := by
  simp [State.ctrlTo]

@[simp] theorem State.ctrlAll_memQueue (s : State) (p : Nat) (c : Cut) (code arg arg2 : Nat) :
    (s.ctrlAll p c code arg arg2).memQueue = s.memQueue := by
  simp [State.ctrlAll]

@[simp] theorem State.ctrlChildren_memQueue (s : State) (p : Nat) (c : Cut) (code arg arg2 arg3 : Nat) (hash : List Byte) :
    (s.ctrlChildren p c code arg arg2 arg3 hash).memQueue = s.memQueue := by
  simp [State.ctrlChildren]

@[simp] theorem State.ctrlParent_memQueue (s : State) (p : Nat) (c : Cut) (code arg arg2 : Nat) (hash : List Byte) :
    (s.ctrlParent p c code arg arg2 hash).memQueue = s.memQueue := by
  simp [State.ctrlParent]

/-! ## The endpoint, for its functions -/

@[simp] theorem State.pceStat_memQueue (s : State) (n : Nat) : (s.pceStat n).memQueue = s.memQueue := (rfl)

@[simp] theorem State.masterRefused_memQueue (s : State) (fn reason : Nat) : (s.masterRefused fn reason).memQueue = s.memQueue := (rfl)

@[simp] theorem State.busWrite_keeps {s : State} {fn bus : Nat} {bs : List Byte} (hk : Keeps old s.memQueue) :
    Keeps old (s.busWrite fn bus bs).1.memQueue := by
  unfold State.busWrite
  split <;> simp [hk]

@[simp] theorem State.errMessage_memQueue (s : State) (fn cls : Nat) : (s.errMessage fn cls).memQueue = s.memQueue := by
  simp [State.errMessage]

@[simp] theorem State.aerCor_memQueue (s : State) (fn b : Nat) : (s.aerCor fn b).memQueue = s.memQueue := by
  simp [State.aerCor]

@[simp] theorem State.aerUncor_memQueue (s : State) (fn b : Nat) (advisory : Bool) : (s.aerUncor fn b advisory).memQueue = s.memQueue := by
  simp only [State.aerUncor]
  repeat' split
  all_goals simp

@[simp] theorem State.putVector_memQueue (s : State) (fn v : Nat) (y : MsixVec) : (s.putVector fn v y).memQueue = s.memQueue := (rfl)

@[simp] theorem State.msix_memQueue (s : State) (fn v : Nat) : (s.msix fn v).memQueue = s.memQueue := by
  simp [State.msix]

@[simp] theorem State.flushMsix_memQueue (s : State) (fn : Nat) : (s.flushMsix fn).memQueue = s.memQueue := by
  simp [State.flushMsix]

@[simp] theorem State.pmeEvent_memQueue (s : State) (fn : Nat) : (s.pmeEvent fn).memQueue = s.memQueue := by
  simp [State.pmeEvent]

theorem State.mailboxPut_keeps {s t : State} {ch fn : Nat} {bytes : List Byte} (hk : Keeps old s.memQueue)
    (e : s.mailboxPut ch fn bytes = some t) : Keeps old t.memQueue := by
  simp only [State.mailboxPut] at e
  split at e
  all_goals
    split at e
    · cases e
    · obtain rfl := Option.some.inj e
      simp [State.busWrite_keeps hk]

/-! ## Replies to commands -/

@[simp] theorem State.mgmtSend_memQueue (s : State) (to_ : List Byte) (et : Nat) (body : List Byte) :
    (s.mgmtSend to_ et body).memQueue = s.memQueue := (rfl)

@[simp] theorem State.ip4Send_memQueue (s : State) (mac own dst : List Byte) (proto : Nat) (body : List Byte) :
    (s.ip4Send mac own dst proto body).memQueue = s.memQueue := (rfl)

@[simp] theorem State.ip6Send_memQueue (s : State) (mac own dst : List Byte) (proto hop : Nat) (body : List Byte) :
    (s.ip6Send mac own dst proto hop body).memQueue = s.memQueue := (rfl)

@[simp] theorem State.mgmtReply_memQueue (s : State) (dst : Nat) (bytes : List Byte) : (s.mgmtReply dst bytes).memQueue = s.memQueue := by
  simp [State.mgmtReply]

@[simp] theorem State.mctpReply_memQueue (s : State) (dst : Nat) (bytes : List Byte) :
    (s.mctpReply dst bytes).memQueue = s.memQueue := (rfl)

@[simp] theorem State.chanError_memQueue (s : State) (ch : Nat) : (s.chanError ch).memQueue = s.memQueue := (rfl)

@[simp] theorem State.numbered_memQueue (s : State) (ch dst : Nat) (bytes : List Byte) :
    (s.numbered ch dst bytes).memQueue = s.memQueue := (rfl)

theorem State.emitOne_keeps {s t : State} {ch : Nat} {h : HeldReply} (hk : Keeps old s.memQueue) (e : s.emitOne ch h = some t) :
    Keeps old t.memQueue := by
  simp only [State.emitOne] at e
  split at e
  · cases e
    exact hk
  · split at e
    · split at e
      · cases e
      · split at e
        · cases e
          exact hk
        · exact State.mailboxPut_keeps (by simpa using hk) e
    · split at e
      · cases e
        simp [hk]
      · split at e
        · cases e
          simp [hk]
        · split at e
          · cases e
            simp [hk]
          · split at e
            next er =>
              cases e
              simpa using (State.ringPut_keeps hk).ok er
            next => cases e
            next er =>
              cases e
              simpa using (State.ringPut_keeps hk).bad er

@[simp] theorem State.flushGo_keeps {s : State} {ch : Nat} {l : List HeldReply} (hk : Keeps old s.memQueue) :
    Keeps old (State.flushGo ch l s).memQueue := by
  induction l generalizing s with
  | nil => simpa [State.flushGo] using hk
  | cons _ t ih =>
    simp only [State.flushGo]
    split
    next e => exact ih (State.emitOne_keeps hk e)
    next => simpa using hk

@[simp] theorem State.flushReplies_keeps {s : State} {ch : Nat} (hk : Keeps old s.memQueue) : Keeps old (s.flushReplies ch).memQueue := by
  simp [State.flushReplies, hk]

@[simp] theorem State.emitReply_keeps {s : State} {ch : Nat} {h : HeldReply} (hk : Keeps old s.memQueue) :
    Keeps old (s.emitReply ch h).memQueue := by
  unfold State.emitReply
  repeat' split
  all_goals simp [hk]

@[simp] theorem State.sendResult_keeps {s : State} {ch : Nat} {e' : InProgress} {status detail : Nat} {params : List Byte}
    (hk : Keeps old s.memQueue) : Keeps old (s.sendResult ch e' status detail params).memQueue := by
  simp [State.sendResult, hk]

@[simp] theorem State.finishOne_keeps {s : State} {ch id status detail : Nat} {params : List Byte} (hk : Keeps old s.memQueue) :
    Keeps old (s.finishOne ch id status detail params).memQueue := by
  unfold State.finishOne
  split <;> simp [hk]

@[simp] theorem State.abortsGo_keeps {s : State} {ch n : Nat} {l : List (Nat × Nat)} (hk : Keeps old s.memQueue) :
    Keeps old (State.abortsGo ch n l s).memQueue := by
  induction n generalizing s l with
  | zero => exact hk
  | succ n ih =>
    cases l with
    | nil => exact hk
    | cons a t => exact ih (foldl_keeps (fun _ _ => by simp) (by simpa using hk))

@[simp] theorem State.finishAborts_keeps {s : State} {ch id result : Nat} (hk : Keeps old s.memQueue) :
    Keeps old (s.finishAborts ch id result).memQueue := by
  simp [State.finishAborts, hk]

@[simp] theorem State.finish_keeps {s : State} {w : Waiter} {status detail : Nat} {params : List Byte} (hk : Keeps old s.memQueue) :
    Keeps old (s.finish w status detail params).memQueue := by
  simp [State.finish, hk]

/-! ## The facet state block and the capture -/

@[simp] theorem State.writeOver_keeps {s : State} {l : List (Nat × Nat)} {bs : List Byte} (hk : Keeps old s.memQueue) :
    Keeps old (s.writeOver l bs).memQueue := by
  induction l generalizing s bs with
  | nil => exact hk
  | cons _ t ih => exact ih (State.storeRaw_keeps hk)

@[simp] theorem State.saveFacet_keeps {s : State} {segs : List (Nat × Nat)} {f k : Nat} (hk : Keeps old s.memQueue) :
    Keeps old (s.saveFacet segs f k).memQueue := by
  simp [State.saveFacet, hk]

@[simp] theorem State.performHeld_keeps {s : State} {h : HeldWrite} (hk : Keeps old s.memQueue) : Keeps old (s.performHeld h).memQueue := by
  unfold State.performHeld
  split <;> simp [hk]

@[simp] theorem State.freeHeld_keeps {s : State} {hs : List HeldWrite} (hk : Keeps old s.memQueue) :
    Keeps old (s.freeHeld hs).memQueue := by
  unfold State.freeHeld
  exact foldl_keeps (fun s x => by split <;> simp) hk

@[simp] theorem State.ckpFail_keeps {s : State} {p code : Nat} (hk : Keeps old s.memQueue) : Keeps old (s.ckpFail p code).memQueue := by
  simp only [State.ckpFail]
  split <;> simp [hk]

@[simp] theorem State.capture_keeps {s : State} {p : Nat} {c : Cut} (hk : Keeps old s.memQueue) : Keeps old (s.capture p c).memQueue := by
  simp only [State.capture]
  split <;> simp [hk]

/-! ## Rails, accounting records and the life of a job -/

@[simp] theorem State.putDemand_memQueue (s : State) (p f : Nat) (d : Demand) : (s.putDemand p f d).memQueue = s.memQueue := (rfl)

@[simp] theorem State.setRail_memQueue (s : State) (r mv : Nat) : (s.setRail r mv).memQueue = s.memQueue := by
  simp [State.setRail]

@[simp] theorem State.toRung_memQueue (s : State) (r : Nat) : (s.toRung r).memQueue = s.memQueue := by
  simp [State.toRung]

@[simp] theorem State.settle_memQueue (s : State) : (s.settle).memQueue = s.memQueue := by
  simp [State.settle]

@[simp] theorem State.refreshRails_memQueue (s : State) : (s.refreshRails).memQueue = s.memQueue := by
  simp [State.refreshRails]

@[simp] theorem State.coldStart_memQueue (s : State) (p : Nat) : (s.coldStart p).memQueue = s.memQueue := by
  simp [State.coldStart]

@[simp] theorem State.railField_memQueue (s : State) (p f sl t' : Nat) (timed late : Bool) :
    (s.railField p f sl t' timed late).1.memQueue = s.memQueue := by
  simp only [State.railField]
  repeat' split
  all_goals simp

@[simp] theorem State.account_keeps {s : State} {kind i parcel step : Nat} {counts : Tbl (BitVec 64)} {identity : List Byte}
    (hk : Keeps old s.memQueue) : Keeps old (s.account kind i parcel step counts identity).memQueue := by
  simp only [State.account]
  split
  · exact hk
  · split
    next e => simpa using (State.ringPut_keeps (by simpa using hk)).ok e
    next => simpa using hk
    next e => simpa using (State.ringPut_keeps (by simpa using hk)).bad e

@[simp] theorem State.markExc_memQueue (s : State) (f code stream index detail : Nat) :
    (s.markExc f code stream index detail).memQueue = s.memQueue := by
  simp only [State.markExc]
  split <;> simp

@[simp] theorem State.stopFacet_memQueue (s : State) (f detail : Nat) : (s.stopFacet f detail).memQueue = s.memQueue := by
  simp [State.stopFacet]

theorem State.putOutput_keeps {s : State} {p : Nat} {c : Cut} {step slot reason : Nat} {data : List Byte} (hk : Keeps old s.memQueue) :
    (s.putOutput p c step slot reason data).Keeps old := by
  simp only [State.putOutput]
  split
  · exact hk
  · split
    next s' _ e =>
      have h1 : Keeps old s'.memQueue := (State.ringPut_keeps hk).ok e
      exact h1
    next => exact State.ringPut_keeps hk

@[simp] theorem State.writeEnd_keeps {s : State} {p : Nat} (hk : Keeps old s.memQueue) : Keeps old (s.writeEnd p).memQueue := by
  simp only [State.writeEnd]
  split
  · split
    · split
      next e => simpa using (State.putOutput_keeps hk).ok e
      next => exact hk
      next e => simpa using (State.putOutput_keeps hk).bad e
    · exact hk
  · exact hk

@[simp] theorem State.answerHeld_keeps {s : State} {p : Nat} {stop : Bool} (hk : Keeps old s.memQueue) :
    Keeps old (s.answerHeld p stop).memQueue := by
  simp [State.answerHeld, hk]

@[simp] theorem State.endJob_keeps {s : State} {p reason rank : Nat} {send : Bool} (hk : Keeps old s.memQueue) :
    Keeps old (s.endJob p reason rank send).memQueue := by
  simp only [State.endJob]
  split
  · exact hk
  · split
    · simp [hk]
    · simp only [State.refreshRails_memQueue]
      refine State.answerHeld_keeps (State.answerHeld_keeps (State.writeEnd_keeps ?_))
      simp only [State.raise_memQueue]
      split
      · refine State.finish_keeps ?_
        simp [hk]
      · simp [hk]

@[simp] theorem State.facetExc_keeps {s : State} {f code stream index detail : Nat} (hk : Keeps old s.memQueue) :
    Keeps old (s.facetExc f code stream index detail).memQueue := by
  simp only [State.facetExc]
  split <;> simp [hk]

@[simp] theorem State.doneElsewhere_memQueue (s : State) (c : Cut) : (s.doneElsewhere c).2.memQueue = s.memQueue := by
  unfold State.doneElsewhere
  split <;> simp

@[simp] theorem State.openWindow_memQueue (s : State) (p : Nat) (c : Cut) (time : Nat) : (s.openWindow p c time).memQueue = s.memQueue := by
  unfold State.openWindow
  exact foldl_memQueue (fun s x => by simp) _ _

@[simp] theorem State.railUpdate_memQueue (s : State) (p t : Nat) (fs : List Nat) (timed late : Bool) :
    (s.railUpdate p t fs timed late).1.memQueue = s.memQueue := by
  refine foldl_fst_memQueue (fun r f => ?_) _ _
  split
  · rfl
  · simp

@[simp] theorem State.noteCkpt_memQueue (s : State) (p st : Nat) : (s.noteCkpt p st).memQueue = s.memQueue := by
  simp [State.noteCkpt]

@[simp] theorem State.announceCkpt_memQueue (s : State) (p : Nat) (c : Cut) (target : Nat) :
    (s.announceCkpt p c target).1.memQueue = s.memQueue := by
  simp only [State.announceCkpt]
  repeat' split
  all_goals simp

@[simp] theorem State.everyTarget_memQueue (s : State) (p : Nat) (c : Cut) : (s.everyTarget p c).memQueue = s.memQueue := by
  simp only [State.everyTarget]
  split <;> simp

@[simp] theorem State.lag_memQueue (s : State) (p f act : Nat) : (s.lag p f act).memQueue = s.memQueue := (rfl)

@[simp] theorem State.closeBeat_keeps {s : State} {p : Nat} (hk : Keeps old s.memQueue) : Keeps old (s.closeBeat p).memQueue := by
  unfold State.closeBeat
  extract_lets x r stop se fs resumed paused s0
  split
  · exact hk
  · extract_lets clock t tardy
    have h0 : Keeps old s0.memQueue := by simp [s0, hk]
    split
    next s1 acts e =>
      have h1 : Keeps old s1.memQueue := by simpa [memQueue_fst e] using h0
      extract_lets s2 s3 s4 s5 s6
      have h2 : Keeps old s2.memQueue := by
        simp only [s2]
        split
        · split <;> simp [h1]
        · exact h1
      have h3 : Keeps old s3.memQueue := .ite (State.account_keeps h2) h2
      have h6 : Keeps old s6.memQueue := by simpa [s6, s5, s4] using h3
      exact .ite (State.endJob_keeps h6) (by simpa using h6)

@[simp] theorem State.enterPause_memQueue (s : State) (p : Nat) : (s.enterPause p).memQueue = s.memQueue := by
  simp [State.enterPause]

@[simp] theorem State.rootClose_keeps {s : State} {p : Nat} {c : Cut} (hk : Keeps old s.memQueue) :
    Keeps old (s.rootClose p c).memQueue := by
  simp [State.rootClose, hk]

@[simp] theorem State.arriveUp_keeps {s : State} {p : Nat} {c : Cut} (hk : Keeps old s.memQueue) : Keeps old (s.arriveUp p c).memQueue := by
  simp [State.arriveUp, hk]

@[simp] theorem State.closureHere_keeps {s : State} {p : Nat} {c : Cut} (hk : Keeps old s.memQueue) :
    Keeps old (s.closureHere p c).memQueue := by
  simp [State.closureHere, hk]

@[simp] theorem State.armedUp_keeps {s : State} {p : Nat} {c : Cut} (hk : Keeps old s.memQueue) : Keeps old (s.armedUp p c).memQueue := by
  simp [State.armedUp, hk]

@[simp] theorem State.applyPause_keeps {s : State} {p : Nat} {c : Cut} {n cause : Nat} (hk : Keeps old s.memQueue) :
    Keeps old (s.applyPause p c n cause).memQueue := by
  simp [State.applyPause, hk]

@[simp] theorem State.applyStop_keeps {s : State} {p : Nat} {c : Cut} {n : Nat} (hk : Keeps old s.memQueue) :
    Keeps old (s.applyStop p c n).memQueue := by
  simp [State.applyStop, hk]

@[simp] theorem State.requestPause_keeps {s : State} {p : Nat} {c : Cut} {cause : Nat} (hk : Keeps old s.memQueue) :
    Keeps old (s.requestPause p c cause).memQueue := by
  simp [State.requestPause, hk]

@[simp] theorem State.requestStop_keeps {s : State} {p : Nat} {c : Cut} (hk : Keeps old s.memQueue) :
    Keeps old (s.requestStop p c).memQueue := by
  simp [State.requestStop, hk]

@[simp] theorem State.pauseLost_keeps {s : State} {p : Nat} {c : Cut} (hk : Keeps old s.memQueue) :
    Keeps old (s.pauseLost p c).memQueue := by
  simp [State.pauseLost, hk]

@[simp] theorem State.leavePause_memQueue (s : State) (p : Nat) : (s.leavePause p).memQueue = s.memQueue := by
  unfold State.leavePause
  split <;> simp

@[simp] theorem State.stopLost_keeps {s : State} {p : Nat} (hk : Keeps old s.memQueue) : Keeps old (s.stopLost p).memQueue := by
  simp [State.stopLost, hk]

@[simp] theorem State.applyResume_keeps {s : State} {p : Nat} {c : Cut} {n time : Nat} (hk : Keeps old s.memQueue) :
    Keeps old (s.applyResume p c n time).memQueue := by
  simp [State.applyResume, hk]

@[simp] theorem State.beginRun_memQueue (s : State) (p : Nat) (c : Cut) : (s.beginRun p c).memQueue = s.memQueue := by
  simp [State.beginRun]

@[simp] theorem State.go_keeps {s : State} {p : Nat} {c : Cut} {start bound : Nat} (hk : Keeps old s.memQueue) :
    Keeps old (s.go p c start bound).memQueue := by
  simp [State.go, hk]

@[simp] theorem State.readyUp_keeps {s : State} {p : Nat} {c : Cut} {own : List Byte} (hk : Keeps old s.memQueue) :
    Keeps old (s.readyUp p c own).memQueue := by
  simp [State.readyUp, hk]

end Sys2Proof.Machine
end

section
/-! PROOF. Facets, the mesh and the power ladder keep the memory's form and the queue. -/

namespace Sys2Proof.Machine

variable {old : MemQueue}

/-! ## The life of a facet instruction -/

theorem State.spadWrite_keeps {s t : State} {f off : Nat} {bs : List Byte} (hk : Keeps old s.memQueue) (e : s.spadWrite f off bs = .ok t) :
    Keeps old t.memQueue := by
  simp only [State.spadWrite] at e
  split at e
  · cases e
  · split at e
    · cases e
      exact State.storeRaw_keeps hk
    · cases e

@[simp] theorem State.spadFail_keeps {s : State} {f st index off n m : Nat} {write : Bool} {e' : Nat × Nat} (hk : Keeps old s.memQueue) :
    Keeps old (s.spadFail f st index off n m write e').memQueue := by
  simp [State.spadFail, hk]

@[simp] theorem State.addTok_keeps {s : State} {f c n : Nat} (hk : Keeps old s.memQueue) : Keeps old (s.addTok f c n).memQueue := by
  simp [State.addTok, hk]

@[simp] theorem State.remoteSignal_memQueue (s : State) (f c n rsx rsy : Nat) : (s.remoteSignal f c n rsx rsy).memQueue = s.memQueue := by
  simp only [State.remoteSignal]
  split <;> simp

@[simp] theorem State.localSignal_keeps {s : State} {f : Nat} {w : BitVec 128} (hk : Keeps old s.memQueue) :
    Keeps old (s.localSignal f w).memQueue := by
  simp [State.localSignal, hk]

@[simp] theorem State.farSignal_memQueue (s : State) (f : Nat) (w : BitVec 128) : (s.farSignal f w).memQueue = s.memQueue := by
  simp [State.farSignal]

@[simp] theorem State.signal_keeps {s : State} {f : Nat} {w : BitVec 128} (hk : Keeps old s.memQueue) :
    Keeps old (s.signal f w).memQueue := by
  simp [State.signal, hk]

/-- However a fetch ended, the state it left keeps both. -/
def KeepsFetch (old : MemQueue) : Except State (State × BitVec 128) → Prop
  | .error t => Keeps old t.memQueue
  | .ok r => Keeps old r.1.memQueue

theorem State.fetch_keeps {s : State} {f st : Nat} (hk : Keeps old s.memQueue) : KeepsFetch old (s.fetch f st) := by
  simp only [State.fetch]
  split <;> simp [KeepsFetch, hk]

@[simp] theorem State.issue_keeps {s : State} {f st op : Nat} {run : State → Issued → State} (hk : Keeps old s.memQueue)
    (hr : ∀ s q, Keeps s.memQueue (run s q).memQueue) : Keeps old (s.issue f st op run).memQueue := by
  simp only [State.issue]
  split
  · exact hk
  · split
    · simp [hk]
    · split
      next t e =>
        have h1 : KeepsFetch old (.error t) := e ▸ State.fetch_keeps hk
        exact h1
      next s1 w e =>
        have h1 : KeepsFetch old (.ok (s1, w)) := e ▸ State.fetch_keeps hk
        replace h1 : Keeps old s1.memQueue := h1
        split
        · simp [h1]
        · split
          · exact h1
          · split
            · simp [h1]
            · split
              · exact h1
              · split
                · simp [h1]
                · exact Keeps.trans (by simpa using h1) (hr _ _)

/-! ## Facet instructions -/

theorem execTok_keeps {s : State} {f st : Nat} (hk : Keeps old s.memQueue) : KeepsNext old (execTok f st s) := by
  simp [execTok, hk]

theorem execBeat_keeps {s : State} {f st : Nat} (hk : Keeps old s.memQueue) : KeepsNext old (execBeat f st s) := by
  simp [execBeat, hk]

theorem execLoop_keeps {s : State} {f st : Nat} (hk : Keeps old s.memQueue) : KeepsNext old (execLoop f st s) := by
  simp [execLoop, hk]

theorem execSetstep_keeps {s : State} {f st : Nat} (hk : Keeps old s.memQueue) : KeepsNext old (execSetstep f st s) := by
  simp [execSetstep, hk]

theorem execStop_keeps {s : State} {f st : Nat} (hk : Keeps old s.memQueue) : KeepsNext old (execStop f st s) := by
  simp [execStop, hk]

@[simp] theorem State.enterFlight_memQueue (s : State) (q : Issued) : (s.enterFlight q).memQueue = s.memQueue := (rfl)

theorem execMma_keeps {s : State} {f st : Nat} (hk : Keeps old s.memQueue) : KeepsNext old (execMma f st s) := by
  simp [execMma, hk]

theorem execMmaComplete_keeps {s : State} {f : Nat} (hk : Keeps old s.memQueue) : KeepsNext old (execMmaComplete f s) := by
  simp only [execMmaComplete, keepsNext_next]
  repeat' split
  all_goals simp [hk]

theorem execMdrain_keeps {s : State} {f st : Nat} (hk : Keeps old s.memQueue) : KeepsNext old (execMdrain f st s) := by
  simp [execMdrain, hk]

theorem execMdrainComplete_keeps {s : State} {f : Nat} (hk : Keeps old s.memQueue) : KeepsNext old (execMdrainComplete f s) := by
  simp only [execMdrainComplete, keepsNext_next]
  split
  · exact hk
  · split
    · simp [hk]
    next e =>
      have h1 : Keeps old _ := State.spadWrite_keeps (by simpa using hk) e
      simp [h1]

@[simp] theorem State.vecFail_keeps {s : State} {f st index off : Nat} {w : BitVec 128} {write : Bool} {e' : Nat × Nat}
    (hk : Keeps old s.memQueue) : Keeps old (s.vecFail f st index off w write e').memQueue := by
  simp [State.vecFail, hk]

theorem State.spadScatter_keeps {s t : State} {f : Nat} {l : List (Nat × Nat)} {bs : List Byte} (hk : Keeps old s.memQueue)
    (e : s.spadScatter f l bs = .ok t) : Keeps old t.memQueue := by
  induction l generalizing s bs with
  | nil =>
    cases e
    exact hk
  | cons _ l ih =>
    simp only [State.spadScatter] at e
    split at e
    · cases e
    next es => exact ih (State.spadWrite_keeps hk es) e

theorem State.spadStore_keeps {s t : State} {f : Nat} {rs : List (Nat × Nat)} {bs : List Byte} (hk : Keeps old s.memQueue)
    (e : s.spadStore f rs bs = .ok t) : Keeps old t.memQueue := by
  simp only [State.spadStore] at e
  exact State.spadScatter_keeps (by simpa using hk) e

theorem execVld_keeps {s : State} {f st : Nat} (hk : Keeps old s.memQueue) : KeepsNext old (execVld f st s) :=
  keepsNext_next.2 <| State.issue_keeps hk fun s q => by
    simp only
    split <;> simp

theorem execVst_keeps {s : State} {f st : Nat} (hk : Keeps old s.memQueue) : KeepsNext old (execVst f st s) :=
  keepsNext_next.2 <| State.issue_keeps hk fun s q => by
    simp only
    split
    · simp
    next e =>
      have h1 : Keeps s.memQueue _ := State.spadStore_keeps (by simp) e
      simp [h1]

theorem execVmovi_keeps {s : State} {f st : Nat} (hk : Keeps old s.memQueue) : KeepsNext old (execVmovi f st s) := by
  simp [execVmovi, hk]

@[simp] theorem State.vectorOp_keeps {s : State} {f st op : Nat} (hk : Keeps old s.memQueue) : Keeps old (s.vectorOp f st op).memQueue := by
  simp [State.vectorOp, hk]

theorem execVadd_keeps {s : State} {f st : Nat} (hk : Keeps old s.memQueue) : KeepsNext old (execVadd f st s) := by
  simp [execVadd, hk]

theorem execVsub_keeps {s : State} {f st : Nat} (hk : Keeps old s.memQueue) : KeepsNext old (execVsub f st s) := by
  simp [execVsub, hk]

theorem execVmul_keeps {s : State} {f st : Nat} (hk : Keeps old s.memQueue) : KeepsNext old (execVmul f st s) := by
  simp [execVmul, hk]

theorem execVfma_keeps {s : State} {f st : Nat} (hk : Keeps old s.memQueue) : KeepsNext old (execVfma f st s) := by
  simp [execVfma, hk]

theorem execVmax_keeps {s : State} {f st : Nat} (hk : Keeps old s.memQueue) : KeepsNext old (execVmax f st s) := by
  simp [execVmax, hk]

theorem execVmin_keeps {s : State} {f st : Nat} (hk : Keeps old s.memQueue) : KeepsNext old (execVmin f st s) := by
  simp [execVmin, hk]

theorem execVabs_keeps {s : State} {f st : Nat} (hk : Keeps old s.memQueue) : KeepsNext old (execVabs f st s) := by
  simp [execVabs, hk]

theorem execVneg_keeps {s : State} {f st : Nat} (hk : Keeps old s.memQueue) : KeepsNext old (execVneg f st s) := by
  simp [execVneg, hk]

theorem execVcmp_keeps {s : State} {f st : Nat} (hk : Keeps old s.memQueue) : KeepsNext old (execVcmp f st s) := by
  simp [execVcmp, hk]

theorem execVsel_keeps {s : State} {f st : Nat} (hk : Keeps old s.memQueue) : KeepsNext old (execVsel f st s) := by
  simp [execVsel, hk]

theorem execVcvt_keeps {s : State} {f st : Nat} (hk : Keeps old s.memQueue) : KeepsNext old (execVcvt f st s) := by
  simp [execVcvt, hk]

theorem execVrsum_keeps {s : State} {f st : Nat} (hk : Keeps old s.memQueue) : KeepsNext old (execVrsum f st s) := by
  simp [execVrsum, hk]

theorem execVrmax_keeps {s : State} {f st : Nat} (hk : Keeps old s.memQueue) : KeepsNext old (execVrmax f st s) := by
  simp [execVrmax, hk]

theorem execVexp2_keeps {s : State} {f st : Nat} (hk : Keeps old s.memQueue) : KeepsNext old (execVexp2 f st s) := by
  simp [execVexp2, hk]

theorem execVrcp_keeps {s : State} {f st : Nat} (hk : Keeps old s.memQueue) : KeepsNext old (execVrcp f st s) := by
  simp [execVrcp, hk]

theorem execVrsqrt_keeps {s : State} {f st : Nat} (hk : Keeps old s.memQueue) : KeepsNext old (execVrsqrt f st s) := by
  simp [execVrsqrt, hk]

theorem execVand_keeps {s : State} {f st : Nat} (hk : Keeps old s.memQueue) : KeepsNext old (execVand f st s) := by
  simp [execVand, hk]

theorem execVor_keeps {s : State} {f st : Nat} (hk : Keeps old s.memQueue) : KeepsNext old (execVor f st s) := by
  simp [execVor, hk]

theorem execVxor_keeps {s : State} {f st : Nat} (hk : Keeps old s.memQueue) : KeepsNext old (execVxor f st s) := by
  simp [execVxor, hk]

theorem execVshl_keeps {s : State} {f st : Nat} (hk : Keeps old s.memQueue) : KeepsNext old (execVshl f st s) := by
  simp [execVshl, hk]

theorem execVshr_keeps {s : State} {f st : Nat} (hk : Keeps old s.memQueue) : KeepsNext old (execVshr f st s) := by
  simp [execVshr, hk]

theorem execVectorComplete_keeps {s : State} {f : Nat} (hk : Keeps old s.memQueue) : KeepsNext old (execVectorComplete f s) := by
  simp only [execVectorComplete, keepsNext_next]
  split <;> simp [hk]

theorem execTadd_keeps {s : State} {f st : Nat} (hk : Keeps old s.memQueue) : KeepsNext old (execTadd f st s) :=
  keepsNext_next.2 <| State.issue_keeps hk fun _ _ => by simp

theorem execWaitLimit_keeps {s : State} {f st : Nat} (hk : Keeps old s.memQueue) : KeepsNext old (execWaitLimit f st s) := by
  simp only [execWaitLimit, keepsNext_next]
  split <;> simp [hk]

theorem execWatchdog_keeps {s : State} {f st : Nat} (hk : Keeps old s.memQueue) : KeepsNext old (execWatchdog f st s) := by
  simp [execWatchdog, hk]

theorem execFacetArrive_keeps {s : State} {f : Nat} (hk : Keeps old s.memQueue) : KeepsNext old (execFacetArrive f s) := by
  simp [execFacetArrive, hk]

theorem execFacetDone_keeps {s : State} {f : Nat} (hk : Keeps old s.memQueue) : KeepsNext old (execFacetDone f s) := by
  simp only [execFacetDone, keepsNext_next]
  repeat' split
  all_goals simp [hk]

/-! ## The stream engine -/

@[simp] theorem State.xferComplete_keeps {s : State} {f : Nat} {t' : Xfer} (hk : Keeps old s.memQueue) :
    Keeps old (s.xferComplete f t').memQueue := by
  simp [State.xferComplete, hk]

@[simp] theorem State.xferAck_keeps {s : State} {f : Nat} {t' : Xfer} (hk : Keeps old s.memQueue) :
    Keeps old (s.xferAck f t').memQueue := by
  simp [State.xferAck, hk]

@[simp] theorem State.xferFail_keeps {s : State} {f : Nat} {t' : Xfer} {status : Nat} (hk : Keeps old s.memQueue) :
    Keeps old (s.xferFail f t' status).memQueue := by
  simp [State.xferFail, hk]

@[simp] theorem State.addressFail_keeps {s : State} {f index a status : Nat} (hk : Keeps old s.memQueue) :
    Keeps old (s.addressFail f index a status).memQueue := by
  simp [State.addressFail, hk]

@[simp] theorem State.facetDiscard_memQueue (s : State) (f : Nat) : (s.facetDiscard f).memQueue = s.memQueue := (rfl)

@[simp] theorem State.addXfer_memQueue (s : State) (f : Nat) (t' : Xfer) : (s.addXfer f t').memQueue = s.memQueue := (rfl)

@[simp] theorem State.deadNack_memQueue (s : State) (f rank tag : Nat) : (s.deadNack f rank tag).memQueue = s.memQueue := (rfl)

theorem execSaddr_keeps {s : State} {f st : Nat} (hk : Keeps old s.memQueue) : KeepsNext old (execSaddr f st s) := by
  simp [execSaddr, hk]

theorem execSpeer_keeps {s : State} {f st : Nat} (hk : Keeps old s.memQueue) : KeepsNext old (execSpeer f st s) := by
  simp [execSpeer, hk]

theorem execSput_keeps {s : State} {f st : Nat} (hk : Keeps old s.memQueue) : KeepsNext old (execSput f st s) :=
  keepsNext_next.2 <| State.issue_keeps hk fun s q => by
    simp only
    split
    · simp
    · split <;> simp

@[simp] theorem State.putLocal_keeps {s : State} {f : Nat} {t : Xfer} {rs : List (Nat × Nat)} {bs : List Byte}
    (hk : Keeps old s.memQueue) :
    Keeps old (s.putLocal f t rs bs).memQueue := by
  unfold State.putLocal
  extract_lets x w tgt live
  split
  extract_lets fls rides marked due s1 s2 s3
  refine .ite (by simp [hk]) ?_
  have h1 : Keeps old s1.memQueue := by
    refine foldl_keeps (fun _ _ => ?_) hk
    split
    next e => exact State.saveAt_keeps (Keeps.refl _) e
    next => simp
  have h3 : Keeps old s3.memQueue := by
    simp only [s3, s2, State.modFacet_memQueue]
    exact foldl_keeps (fun _ _ => by simp) h1
  exact .ite (by simp [h3]) h3

@[simp] theorem State.putPeer_memQueue (s : State) (f rank : Nat) (t' : Xfer) (bs : List Byte) :
    (s.putPeer f rank t' bs).memQueue = s.memQueue := by
  simp [State.putPeer]

theorem execSputSourceRead_keeps {s : State} {f tag : Nat} (hk : Keeps old s.memQueue) : KeepsNext old (execSputSourceRead f tag s) := by
  simp only [execSputSourceRead, keepsNext_next]
  repeat' split
  all_goals simp [hk]

@[simp] theorem State.getLocal_memQueue (s : State) (f : Nat) (t : Xfer) (rs : List (Nat × Nat)) :
    (s.getLocal f t rs).memQueue = s.memQueue := by
  simp only [State.getLocal, State.addXfer_memQueue]
  refine foldl_fst_memQueue (fun r e => ?_) _ _
  split <;> simp

theorem execSget_keeps {s : State} {f st : Nat} (hk : Keeps old s.memQueue) : KeepsNext old (execSget f st s) :=
  keepsNext_next.2 <| State.issue_keeps hk fun s q => by
    simp only
    split
    · split <;> simp
    · split <;> simp

theorem execStok_keeps {s : State} {f st : Nat} (hk : Keeps old s.memQueue) : KeepsNext old (execStok f st s) :=
  keepsNext_next.2 <| State.issue_keeps hk fun s q => by
    simp only
    split
    · split <;> simp
    · simp

theorem execSgather_keeps {s : State} {f st : Nat} (hk : Keeps old s.memQueue) : KeepsNext old (execSgather f st s) :=
  keepsNext_next.2 <| State.issue_keeps hk fun s q => by
    simp only
    split
    · simp
    · simp

/-! ## The issue gates -/

@[simp] theorem State.closeGate_memQueue (s : State) (f : Nat) : (s.closeGate f).memQueue = s.memQueue := by
  simp [State.closeGate]

@[simp] theorem State.openGate_memQueue (s : State) (f : Nat) : (s.openGate f).memQueue = s.memQueue := by
  simp [State.openGate]

@[simp] theorem State.closeGates_memQueue (s : State) : (s.closeGates).memQueue = s.memQueue := by
  simp [State.closeGates]

@[simp] theorem State.openGates_memQueue (s : State) : (s.openGates).memQueue = s.memQueue := by
  simp [State.openGates]

@[simp] theorem State.stopNow_keeps {s : State} {p : Nat} (hk : Keeps old s.memQueue) : Keeps old (s.stopNow p).memQueue := by
  simp only [State.stopNow]
  split <;> simp [hk]

@[simp] theorem State.raiseDevice_keeps {s : State} {code object : Nat} (hk : Keeps old s.memQueue) :
    Keeps old (s.raiseDevice code object).memQueue := by
  simp [State.raiseDevice, hk]

@[simp] theorem State.recordAlarm_keeps {s : State} {src sensor : Nat} (hk : Keeps old s.memQueue) :
    Keeps old (s.recordAlarm src sensor).memQueue := by
  simp [State.recordAlarm, hk]

@[simp] theorem State.lateAlarms_keeps {s : State} (hk : Keeps old s.memQueue) : Keeps old (s.lateAlarms).memQueue := by
  simp [State.lateAlarms, hk]

/-! ## The table mesh -/

@[simp] theorem State.nackEvent_memQueue (s : State) (f inst addr status : Nat) :
    (s.nackEvent f inst addr status).memQueue = s.memQueue := by
  unfold State.nackEvent
  split <;> simp

@[simp] theorem State.nack_memQueue (s : State) (f : Nat) (fl : Flit) (status : Nat) : (s.nack f fl status).memQueue = s.memQueue := by
  simp [State.nack]

@[simp] theorem State.leaveInput_memQueue (s : State) (x y port : Nat) (fl : Flit) :
    (s.leaveInput x y port fl).memQueue = s.memQueue := (rfl)

@[simp] theorem State.forward_memQueue (s : State) (x y port : Nat) (fl : Flit) : (s.forward x y port fl).memQueue = s.memQueue := (rfl)

@[simp] theorem State.refuse_memQueue (s : State) (f : Nat) (fl : Flit) (status : Nat) :
    (s.refuse f fl status).memQueue = s.memQueue := (rfl)

theorem execFlitWriteReceive_keeps {s : State} {f : Nat} {fl : Flit} (hk : Keeps old s.memQueue) :
    KeepsNext old (execFlitWriteReceive f fl s) := by
  simp only [execFlitWriteReceive, keepsNext_next]
  repeat' split
  all_goals simp [hk]

theorem execFlitReadReceive_keeps {s : State} {f : Nat} {fl : Flit} (hk : Keeps old s.memQueue) :
    KeepsNext old (execFlitReadReceive f fl s) := by
  simp only [execFlitReadReceive, keepsNext_next]
  repeat' split
  all_goals simp [hk]

@[simp] theorem State.dataArrive_keeps {s : State} {f m : Nat} {t : Xfer} {off : Nat} {bs : List Byte} {last : Bool}
    (hk : Keeps old s.memQueue) : Keeps old (s.dataArrive f m t off bs last).memQueue := by
  simp only [State.dataArrive]
  split
  · simp [hk]
  next e =>
    have h1 := State.spadWrite_keeps hk e
    split <;> simp [h1]

@[simp] theorem State.dataStray_keeps {s : State} {f : Nat} {fl : Flit} (hk : Keeps old s.memQueue) :
    Keeps old (s.dataStray f fl).memQueue := by
  unfold State.dataStray
  split <;> simp [hk]

theorem execFlitDataReceive_keeps {s : State} {f : Nat} {fl : Flit} (hk : Keeps old s.memQueue) :
    KeepsNext old (execFlitDataReceive f fl s) := by
  simp only [execFlitDataReceive, keepsNext_next]
  repeat' split
  all_goals simp [hk]

theorem execFlitTokenReceive_keeps {s : State} {f : Nat} {fl : Flit} (hk : Keeps old s.memQueue) :
    KeepsNext old (execFlitTokenReceive f fl s) := by
  simp [execFlitTokenReceive, hk]

@[simp] theorem State.ackArrive_keeps {s : State} {f tag : Nat} (hk : Keeps old s.memQueue) : Keeps old (s.ackArrive f tag).memQueue := by
  simp only [State.ackArrive]
  split <;> simp [hk]

@[simp] theorem State.nackArrive_keeps {s : State} {f tag status : Nat} (hk : Keeps old s.memQueue) :
    Keeps old (s.nackArrive f tag status).memQueue := by
  simp only [State.nackArrive]
  split <;> simp [hk]

theorem execFlitAckReceive_keeps {s : State} {f : Nat} {fl : Flit} (hk : Keeps old s.memQueue) :
    KeepsNext old (execFlitAckReceive f fl s) := by
  simp [execFlitAckReceive, hk]

theorem execFlitNackReceive_keeps {s : State} {f : Nat} {fl : Flit} (hk : Keeps old s.memQueue) :
    KeepsNext old (execFlitNackReceive f fl s) := by
  simp [execFlitNackReceive, hk]

theorem execMeshStall_keeps {s : State} {f port vc : Nat} (hk : Keeps old s.memQueue) : KeepsNext old (execMeshStall f port vc s) := by
  simp only [execMeshStall, keepsNext_next]
  repeat' split
  all_goals simp [hk]

@[simp] theorem State.setBank_keeps {s : State} {f b : Nat} {t' : BankState} (hk : Keeps old s.memQueue) :
    Keeps old (s.setBank f b t').memQueue := by
  simp [State.setBank, hk]

@[simp] theorem State.startBank_memQueue (s : State) (f b : Nat) : (s.startBank f b).memQueue = s.memQueue := by
  simp [State.startBank]

theorem execBankTransitionDone_keeps {s : State} {f b : Nat} (hk : Keeps old s.memQueue) :
    KeepsNext old (execBankTransitionDone f b s) := by
  simp only [execBankTransitionDone, keepsNext_next]
  split <;> simp [hk]

/-! ## The power ladder -/

@[simp] theorem State.setEn_memQueue (s : State) (g : Nat) (on : Bool) : (s.setEn g on).memQueue = s.memQueue := by
  simp [State.setEn]

@[simp] theorem State.banksTo_keeps {s : State} {want : Nat → Facet → Nat → BankState} (hk : Keeps old s.memQueue) :
    Keeps old (s.banksTo want).memQueue :=
  foldl_keeps (fun _ _ => foldl_keeps (fun _ _ => by simp only; split <;> simp) (Keeps.refl _)) hk

@[simp] theorem State.endBankMoves_memQueue (s : State) : (s.endBankMoves).memQueue = s.memQueue := (rfl)

@[simp] theorem State.loseHbm_keeps {s : State} (hk : Keeps old s.memQueue) : Keeps old s.loseHbm.memQueue :=
  hk.next State.loseHbm_memOk rfl

@[simp] theorem State.stacksTo_memQueue (s : State) (from_ to_ : StackState) : (s.stacksTo from_ to_).memQueue = s.memQueue := (rfl)

@[simp] theorem State.linksDown_memQueue (s : State) : (s.linksDown).memQueue = s.memQueue := by
  simp [State.linksDown]

@[simp] theorem State.disableChan_memQueue (s : State) (c : Nat) : (s.disableChan c).memQueue = s.memQueue := (rfl)

@[simp] theorem State.sleepLoss_keeps {s : State} (hk : Keeps old s.memQueue) : Keeps old (s.sleepLoss).memQueue := by
  simp [State.sleepLoss, hk]

@[simp] theorem State.enterRung_keeps {s : State} {r : Nat} (hk : Keeps old s.memQueue) : Keeps old (s.enterRung r).memQueue := by
  unfold State.enterRung
  extract_lets pw s0 base doze lost stk off en4 chans rail6 en0 pins final
  have hb : Keeps old base.memQueue := by simp [base, s0, hk]
  clear_value base
  have hd : Keeps old doze.memQueue := by simp [doze, hb]
  have hl : Keeps old lost.memQueue := by simp [lost, hb]
  clear_value doze lost
  have h4 : Keeps old en4.memQueue := by simp [en4, off, stk, hl]
  have hf : Keeps old final.memQueue := by
    simp only [final]
    split
    · simp [en0, rail6, chans, h4]
    · exact h4
  split
  · simpa using hd
  · simpa using hf

@[simp] theorem State.fieldOn_memQueue (s : State) (f : Nat) : (s.fieldOn f).memQueue = s.memQueue := by
  simp [State.fieldOn]

@[simp] theorem State.linksStart_memQueue (s : State) : (s.linksStart).memQueue = s.memQueue := by
  simp [State.linksStart]

@[simp] theorem State.placeMap0_keeps {s : State} (hk : Keeps old s.memQueue) : Keeps old (s.placeMap0).memQueue := by
  simp [State.placeMap0, hk]

@[simp] theorem State.exitRung_keeps {s : State} (hk : Keeps old s.memQueue) : Keeps old s.exitRung.memQueue := by
  unfold State.exitRung
  extract_lets r pw s0 vio pins vioUp railUp coreUp fieldsUp banksOn final
  have h0 : Keeps old s0.memQueue := by simpa [s0] using hk
  clear_value s0
  have h3 : Keeps old fieldsUp.memQueue := by simp [fieldsUp, coreUp, railUp, vioUp, vio, h0]
  clear_value fieldsUp
  have hb : Keeps old banksOn.memQueue := by simp [banksOn, h3]
  clear_value banksOn
  have hf : Keeps old final.memQueue := by
    simp only [final]
    split
    · simp [h0]
    · split
      · simp [hb]
      · exact h0
  simp [hf]

@[simp] theorem State.wake_keeps {s : State} (hk : Keeps old s.memQueue) : Keeps old (s.wake).memQueue := by
  simp only [State.wake]
  split <;> simp [hk]

@[simp] theorem State.wakeDeep_keeps {s : State} (hk : Keeps old s.memQueue) : Keeps old (s.wakeDeep).memQueue := by
  simp [State.wakeDeep, hk]

/-! ## Command packets -/

@[simp] theorem State.chanDiscard_memQueue (s : State) (ch : Nat) : (s.chanDiscard ch).memQueue = s.memQueue := (rfl)

@[simp] theorem State.refuse1_keeps {s : State} {c : Cmd} {op status detail : Nat} {replay : Bool} (hk : Keeps old s.memQueue) :
    Keeps old (s.refuse1 c op status detail replay).memQueue := by
  simp [State.refuse1, hk]

theorem State.execute_keeps {s : State} {sp : Spec} {c : Cmd} {w : Waiter} {inst : Nat} (hsp : sp.Kept) (hk : Keeps old s.memQueue) :
    Keeps old (s.execute sp c w inst).memQueue := by
  have hr : Keeps old (sp.run s w inst c.pkt.params).memQueue := hsp _ _ _ hk
  unfold State.execute
  split
  · simp [hk]
  · split
    next e => rw [e] at hr; exact State.finish_keeps hr
    next e => rw [e] at hr; exact hr

@[simp] theorem State.begin_memQueue (s : State) (c : Cmd) (op inst : Nat) : (s.begin c op inst).memQueue = s.memQueue := (rfl)

theorem State.sequence_keeps {s : State} {sp : Spec} {c : Cmd} {inst : Nat} (hsp : sp.Kept) (hk : Keeps old s.memQueue) :
    Keeps old (s.sequence sp c inst).memQueue := by
  simp only [State.sequence]
  split
  · simp [hk]
  · split
    · simp [hk]
    · split
      · split
        · simp [hk]
        · exact State.execute_keeps hsp (by simpa using hk)
      · repeat' split
        all_goals simp [hk]

@[simp] theorem State.packet_keeps {s : State} {op : Nat} {c : Cmd} {k : State → Nat → State} (hk : Keeps old s.memQueue)
    (hr : ∀ s i, Keeps s.memQueue (k s i).memQueue) : Keeps old (s.packet op c k).memQueue := by
  simp only [State.packet]
  split
  · split <;> simp [hk]
  · split
    · exact hk
    · split
      · exact hk
      · split
        · simp [hk]
        · exact (State.wakeDeep_keeps hk).trans (hr _ _)

theorem State.command_keeps {s : State} {sp : Spec} {c : Cmd} (hsp : sp.Kept) (hk : Keeps old s.memQueue) :
    Keeps old (s.command sp c).memQueue :=
  State.packet_keeps hk fun _ _ => State.sequence_keeps hsp (Keeps.refl _)

theorem syncSpec_kept : Spec.Kept syncSpec := by
  intro old s w i ps hk
  simp [syncSpec, hk]

@[simp] theorem State.syncCommand_keeps {s : State} {c : Cmd} (hk : Keeps old s.memQueue) : Keeps old (s.syncCommand c).memQueue :=
  State.packet_keeps hk fun s i => by
    simp only
    split
    · split
      · simp
      · split <;> simp
    · simp

end Sys2Proof.Machine
end

section
/-! PROOF. The fabric, jobs, the ports and the cipher engine keep the memory's form and the queue. -/

namespace Sys2Proof.Machine

variable {old : MemQueue}

/-! ## Zaren frames at ingress -/

@[simp] theorem State.countRx_memQueue (s : State) (link n : Nat) : (s.countRx link n).memQueue = s.memQueue := (rfl)

@[simp] theorem State.sendPack_memQueue (s : State) (dev cls : Nat) : (s.sendPack dev cls).memQueue = s.memQueue := by
  simp [State.sendPack]

@[simp] theorem State.resend_memQueue (s : State) (k : Nat) (p : Unacked → Bool) : (s.resend k p).memQueue = s.memQueue := by
  refine foldl_memQueue (fun s u => ?_) _ _
  split
  · rfl
  · split
    · rfl
    next e =>
      split at e
      · cases e
        simp
      · simp [State.putZ_memQueue e]

@[simp] theorem State.ackFlow_memQueue (s : State) (dev cls : Nat) (apsn : BitVec 24) : (s.ackFlow dev cls apsn).memQueue = s.memQueue := by
  simp [State.ackFlow]

@[simp] theorem State.failTransfers_memQueue (s : State) (dev : Nat) : (s.failTransfers dev).memQueue = s.memQueue :=
  foldl_memQueue (fun _ _ => foldl_memQueue (fun _ _ => by split <;> simp) _ _) _ _

@[simp] theorem State.failJobs_keeps {s : State} {dev : Nat} (hk : Keeps old s.memQueue) : Keeps old (s.failJobs dev).memQueue :=
  foldl_keeps (fun _ _ => by simp only; split <;> simp) hk

@[simp] theorem State.sendResync_memQueue (s : State) (dev cls kind : Nat) : (s.sendResync dev cls kind).memQueue = s.memQueue := by
  simp [State.sendResync]

@[simp] theorem State.failFlow_keeps {s : State} {dev cls : Nat} (hk : Keeps old s.memQueue) : Keeps old (s.failFlow dev cls).memQueue := by
  simp [State.failFlow, hk]

@[simp] theorem State.restartFlow_memQueue (s : State) (dev cls : Nat) (drop : Bool) :
    (s.restartFlow dev cls drop).memQueue = s.memQueue := by
  simp [State.restartFlow]

@[simp] theorem State.acceptPsn_memQueue (s : State) (z : ZFrame) : (s.acceptPsn z).1.memQueue = s.memQueue := by
  simp only [State.acceptPsn]
  split <;> simp

@[simp] theorem State.zIngress_keeps {s : State} {link : Nat} {z : ZFrame} (hk : Keeps old s.memQueue) :
    Keeps old (s.zIngress link z).1.memQueue := by
  simp only [State.zIngress]
  repeat' split
  all_goals simp [hk]

@[simp] theorem State.jobIngress_keeps {s : State} {link : Nat} {z : ZFrame} {typ : Nat} {k : State → Binding → State}
    (hk : Keeps old s.memQueue) (hr : ∀ s b, Keeps s.memQueue (k s b).memQueue) : Keeps old (s.jobIngress link z typ k).memQueue := by
  have hz : Keeps old (s.zIngress link z).1.memQueue := State.zIngress_keeps hk
  simp only [State.jobIngress]
  split
  · exact hk
  · split
    · exact hz
    · split
      · exact Keeps.trans (by simpa using hz) (hr _ _)
      · simpa using hz

/-! ## The cut commands -/

@[simp] theorem State.cmdRead_memQueue (s : State) (blk i a n obj : Nat) : (s.cmdRead blk i a n obj).1.memQueue = s.memQueue := by
  unfold State.cmdRead
  split
  next e => simp [memQueue_fst e]
  next e => simp [memQueue_fst e]
  next e => simp [memQueue_fst e]

@[simp] theorem State.cmdWrite_keeps {s : State} {blk i a obj : Nat} {bs : List Byte} (hk : Keeps old s.memQueue) :
    Keeps old (s.cmdWrite blk i a obj bs).1.memQueue := by
  unfold State.cmdWrite
  split
  next e => exact (State.writeBy_keeps hk).fst e
  next e => simpa using (State.writeBy_keeps hk).fst e
  next e => exact (State.writeBy_keeps hk).fst e

@[simp] theorem State.finishFlight_keeps {s : State} {f : Nat} (hk : Keeps old s.memQueue) : Keeps old (s.finishFlight f).memQueue := by
  simp only [State.finishFlight]
  have h1 := Res.state_keeps (execMmaComplete_keeps (f := f) hk) hk
  have h2 := Res.state_keeps (execMdrainComplete_keeps (f := f) h1) h1
  exact Res.state_keeps (execVectorComplete_keeps h2) h2

@[simp] theorem State.emptyFacet_keeps {s : State} {f : Nat} (hk : Keeps old s.memQueue) : Keeps old (s.emptyFacet f).memQueue := by
  simp [State.emptyFacet, hk]

@[simp] theorem State.freshRing_keeps {s : State} {i ring len : Nat} (hk : Keeps old s.memQueue) :
    Keeps old (s.freshRing i ring len).1.memQueue := by
  unfold State.freshRing
  split <;> simp [hk]

@[simp] theorem State.useRing_memQueue (s : State) (p i ring len : Nat) : (s.useRing p i ring len).memQueue = s.memQueue := by
  simp [State.useRing]

@[simp] theorem State.leaveRing_memQueue (s : State) (p : Nat) : (s.leaveRing p).memQueue = s.memQueue := (rfl)

@[simp] theorem State.loadFacet_keeps {s : State} {xs : List Sect} {f dx dy js rank waitLim : Nat} (hk : Keeps old s.memQueue) :
    Keeps old (s.loadFacet xs f dx dy js rank waitLim).memQueue := by
  simp [State.loadFacet, hk]

@[simp] theorem State.loadRoutes_memQueue (s : State) (x : Parcel) (es : List RouteEntry) : (s.loadRoutes x es).memQueue = s.memQueue := by
  simp [State.loadRoutes]

@[simp] theorem State.loadCut_keeps {s : State} {p : Nat} {ps img : List Byte} {tab : List Nat} (hk : Keeps old s.memQueue) :
    Keeps old (s.loadCut p ps img tab).memQueue := by
  simp [State.loadCut, hk]

@[simp] theorem State.loadFailed_keeps {s : State} {p : Nat} {ps img : List Byte} (hk : Keeps old s.memQueue) :
    Keeps old (s.loadFailed p ps img).memQueue := by
  simp only [State.loadFailed, State.raise_memQueue]
  exact foldl_keeps (fun _ _ => by simp) (foldl_keeps (fun _ _ => by simp) hk)

@[simp] theorem cutLoadRun_keeps {s : State} {w : Waiter} {i : Nat} {ps : List Byte} (hk : Keeps old s.memQueue) :
    Keeps old (cutLoadRun s w i ps).memQueue := by
  simp only [cutLoadRun]
  split
  · simp [hk]
  · split
    · simp [hk]
    · split
      · simp [hk]
      · split
        next e => exact hk.fst_same (State.cmdRead_memQueue ..) e
        next s1 img e =>
          have h1 : Keeps old s1.memQueue := hk.fst_same (State.cmdRead_memQueue ..) e
          split
          · exact h1
          · split
            · exact h1
            · split
              next e => exact h1.fst_same (State.cmdRead_memQueue ..) e
              next s2 tb e =>
                have h2 : Keeps old s2.memQueue := h1.fst_same (State.cmdRead_memQueue ..) e
                split
                · exact h2
                · split
                  · exact h2
                  · split
                    · simp [h2]
                    · split
                      next e => exact (State.freshRing_keeps h2).fst e
                      next s3 e =>
                        have h3 : Keeps old s3.memQueue := (State.freshRing_keeps h2).fst e
                        split <;> simp [h3]

theorem cutLoadSpec_kept : Spec.Kept cutLoadSpec := by
  intro old s w i ps hk
  simp [cutLoadSpec, hk]

theorem execCutLoad_keeps {s : State} {c : Cmd} (hk : Keeps old s.memQueue) : KeepsNext old (execCutLoad c s) :=
  keepsNext_next.2 (State.command_keeps cutLoadSpec_kept hk)

@[simp] theorem cutStartRun_keeps {s : State} {w : Waiter} {i : Nat} {ps : List Byte} (hk : Keeps old s.memQueue) :
    Keeps old (cutStartRun s w i ps).memQueue := by
  simp only [cutStartRun]
  repeat' split
  all_goals simp [hk]

theorem cutStartSpec_kept : Spec.Kept cutStartSpec := by
  intro old s w i ps hk
  simp [cutStartSpec, hk]

theorem execCutStart_keeps {s : State} {c : Cmd} (hk : Keeps old s.memQueue) : KeepsNext old (execCutStart c s) :=
  keepsNext_next.2 (State.command_keeps cutStartSpec_kept hk)

theorem onJob_keeps {s : State} {ps : List Byte} {k : Nat → Cut → Act} (hk : Keeps old s.memQueue)
    (hr : ∀ p c, Keeps old (k p c).memQueue) : Keeps old (onJob s ps k).memQueue := by
  unfold onJob
  split
  · exact hk
  · split
    · exact hk
    · split
      · exact hr ..
      · exact hk

theorem cutPauseSpec_kept : Spec.Kept cutPauseSpec := fun _ _ _ hk =>
  onJob_keeps hk fun _ _ => by split <;> simp [hk]

theorem execCutPause_keeps {s : State} {c : Cmd} (hk : Keeps old s.memQueue) : KeepsNext old (execCutPause c s) :=
  keepsNext_next.2 (State.command_keeps cutPauseSpec_kept hk)

@[simp] theorem cutResumeRun_keeps {s : State} {w : Waiter} {i : Nat} {ps : List Byte} (hk : Keeps old s.memQueue) :
    Keeps old (cutResumeRun s w i ps).memQueue :=
  onJob_keeps hk fun _ _ => by simp [hk]

theorem cutResumeSpec_kept : Spec.Kept cutResumeSpec := by
  intro old s w i ps hk
  simp [cutResumeSpec, hk]

theorem execCutResume_keeps {s : State} {c : Cmd} (hk : Keeps old s.memQueue) : KeepsNext old (execCutResume c s) :=
  keepsNext_next.2 (State.command_keeps cutResumeSpec_kept hk)

theorem cutStopSpec_kept : Spec.Kept cutStopSpec := fun _ _ _ hk =>
  onJob_keeps hk fun _ _ => by simp [hk]

theorem execCutStop_keeps {s : State} {c : Cmd} (hk : Keeps old s.memQueue) : KeepsNext old (execCutStop c s) :=
  keepsNext_next.2 (State.command_keeps cutStopSpec_kept hk)

@[simp] theorem State.dropCut_memQueue (s : State) (p : Nat) : (s.dropCut p).memQueue = s.memQueue := by
  simp only [State.dropCut]
  split <;> simp

@[simp] theorem cutUnloadRun_keeps {s : State} {w : Waiter} {i : Nat} {ps : List Byte} (hk : Keeps old s.memQueue) :
    Keeps old (cutUnloadRun s w i ps).memQueue := by
  unfold cutUnloadRun
  split <;> simp [hk]

theorem cutUnloadSpec_kept : Spec.Kept cutUnloadSpec := by
  intro old s w i ps hk
  simp [cutUnloadSpec, hk]

theorem execCutUnload_keeps {s : State} {c : Cmd} (hk : Keeps old s.memQueue) : KeepsNext old (execCutUnload c s) :=
  keepsNext_next.2 (State.command_keeps cutUnloadSpec_kept hk)

theorem cutStatusSpec_kept : Spec.Kept cutStatusSpec := by
  intro old s w i ps hk
  simp only [cutStatusSpec]
  split <;> simp [hk]

theorem execCutStatus_keeps {s : State} {c : Cmd} (hk : Keeps old s.memQueue) : KeepsNext old (execCutStatus c s) :=
  keepsNext_next.2 (State.command_keeps cutStatusSpec_kept hk)

/-! ## Beats -/

@[simp] theorem State.reachGptp_memQueue (s : State) (time : Nat) : (s.reachGptp time).memQueue = s.memQueue := (rfl)

@[simp] theorem State.countPaced_memQueue (s : State) (p : Nat) : (s.countPaced p).memQueue = s.memQueue := by
  simp [State.countPaced]

theorem execDeviceArrive_keeps {s : State} {p : Nat} (hk : Keeps old s.memQueue) : KeepsNext old (execDeviceArrive p s) := by
  simp only [execDeviceArrive, keepsNext_next]
  repeat' split
  all_goals simp [hk]

@[simp] theorem State.putSlots_keeps {s : State} {p : Nat} {c : Cut} {step : Nat} {l : List OutSlot} (hk : Keeps old s.memQueue) :
    Keeps old (s.putSlots p c step l).memQueue := by
  induction l generalizing s with
  | nil => exact hk
  | cons o t ih =>
    simp only [State.putSlots]
    split
    · simp [hk]
    · split
      next e => exact ih (by simpa using (State.putOutput_keeps hk).ok e)
      next => exact hk
      next e => exact State.endJob_keeps ((State.putOutput_keeps hk).bad e)

theorem execOutputRecordWrite_keeps {s : State} {p : Nat} (hk : Keeps old s.memQueue) : KeepsNext old (execOutputRecordWrite p s) := by
  simp only [execOutputRecordWrite, keepsNext_next]
  split <;> simp [hk]

theorem execBeatLimitExpire_keeps {s : State} {p : Nat} (hk : Keeps old s.memQueue) : KeepsNext old (execBeatLimitExpire p s) := by
  simp only [execBeatLimitExpire, keepsNext_next]
  split <;> simp [hk]

theorem execBeatDeadline_keeps {s : State} {p : Nat} (hk : Keeps old s.memQueue) : KeepsNext old (execBeatDeadline p s) := by
  simp only [execBeatDeadline, keepsNext_next]
  split <;> simp [hk]

@[simp] theorem State.holdWindow_keeps {s : State} {p : Nat} {c : Cut} {capture : Bool} {at_ : Nat} (hk : Keeps old s.memQueue) :
    Keeps old (s.holdWindow p c capture at_).memQueue := by
  simp [State.holdWindow, hk]

@[simp] theorem State.closeWindow_keeps {s : State} {p : Nat} {c : Cut} {at_ : Nat} (hk : Keeps old s.memQueue) :
    Keeps old (s.closeWindow p c at_).memQueue := by
  simp [State.closeWindow, hk]

theorem execWindowEnd_keeps {s : State} {p : Nat} (hk : Keeps old s.memQueue) : KeepsNext old (execWindowEnd p s) := by
  simp only [execWindowEnd, keepsNext_next]
  split <;> simp [hk]

theorem execTimedStart_keeps {s : State} {p : Nat} (hk : Keeps old s.memQueue) : KeepsNext old (execTimedStart p s) := by
  simp only [execTimedStart, keepsNext_next]
  split <;> simp [hk]

theorem execResumeWindowStart_keeps {s : State} {p : Nat} (hk : Keeps old s.memQueue) : KeepsNext old (execResumeWindowStart p s) := by
  simp only [execResumeWindowStart, keepsNext_next]
  split <;> simp [hk]

theorem execStartLimitExpire_keeps {s : State} {p : Nat} (hk : Keeps old s.memQueue) : KeepsNext old (execStartLimitExpire p s) := by
  simp only [execStartLimitExpire, keepsNext_next]
  split <;> simp [hk]

/-- A message of a job: `k` keeps both, so its ingress does. -/
theorem State.ctrlIn_keeps {s : State} {link : Nat} {z : ZFrame} {code : Nat} {k : State → Nat → Cut → CtrlMsg → State}
    (hk : Keeps old s.memQueue) (hr : ∀ s p c m, Keeps s.memQueue (k s p c m).memQueue) :
    Keeps old (s.ctrlIn link z code k).memQueue := by
  simp only [State.ctrlIn]
  refine .ite hk (State.jobIngress_keeps hk fun t b => ?_)
  split
  · simp
  · split
    · exact hr ..
    · simp

theorem State.ctrlRun_keeps {s : State} {link : Nat} {z : ZFrame} {code : Nat} {k : State → Nat → Cut → CtrlMsg → State}
    (hk : Keeps old s.memQueue) (hr : ∀ s p c m, Keeps s.memQueue (k s p c m).memQueue) : Keeps old (s.ctrlRun link z code k).memQueue :=
  State.ctrlIn_keeps hk fun s p c m => .ite (hr s p c m) (.refl _)

theorem execCtrlArrive_keeps {s : State} {link : Nat} {z : ZFrame} (hk : Keeps old s.memQueue) : KeepsNext old (execCtrlArrive link z s) :=
  keepsNext_next.2 <| State.ctrlRun_keeps hk fun s p c m => by simp

theorem execCtrlClose_keeps {s : State} {link : Nat} {z : ZFrame} (hk : Keeps old s.memQueue) : KeepsNext old (execCtrlClose link z s) :=
  keepsNext_next.2 <| State.ctrlRun_keeps hk fun s p c m => by simp

theorem execCtrlSlip_keeps {s : State} {link : Nat} {z : ZFrame} (hk : Keeps old s.memQueue) : KeepsNext old (execCtrlSlip link z s) :=
  keepsNext_next.2 <| State.ctrlRun_keeps hk fun s p c m => by simp

theorem execCtrlAbort_keeps {s : State} {link : Nat} {z : ZFrame} (hk : Keeps old s.memQueue) : KeepsNext old (execCtrlAbort link z s) :=
  keepsNext_next.2 <| State.ctrlIn_keeps hk fun s p c m => by simp

theorem execCtrlPause_keeps {s : State} {link : Nat} {z : ZFrame} (hk : Keeps old s.memQueue) : KeepsNext old (execCtrlPause link z s) :=
  keepsNext_next.2 <| State.ctrlRun_keeps hk fun s p c m => by simp

theorem execCtrlResume_keeps {s : State} {link : Nat} {z : ZFrame} (hk : Keeps old s.memQueue) : KeepsNext old (execCtrlResume link z s) :=
  keepsNext_next.2 <| State.ctrlRun_keeps hk fun s p c m => by simp

theorem execCtrlStop_keeps {s : State} {link : Nat} {z : ZFrame} (hk : Keeps old s.memQueue) : KeepsNext old (execCtrlStop link z s) :=
  keepsNext_next.2 <| State.ctrlRun_keeps hk fun s p c m => by simp

theorem execCtrlReady_keeps {s : State} {link : Nat} {z : ZFrame} (hk : Keeps old s.memQueue) : KeepsNext old (execCtrlReady link z s) :=
  keepsNext_next.2 <| State.ctrlIn_keeps hk fun s p c m => by simp

theorem execCtrlGo_keeps {s : State} {link : Nat} {z : ZFrame} (hk : Keeps old s.memQueue) : KeepsNext old (execCtrlGo link z s) :=
  keepsNext_next.2 <| State.ctrlRun_keeps hk fun s p c m => by simp

theorem execCtrlCknow_keeps {s : State} {link : Nat} {z : ZFrame} (hk : Keeps old s.memQueue) : KeepsNext old (execCtrlCknow link z s) :=
  keepsNext_next.2 <| State.ctrlRun_keeps hk fun s p c m => by
    simp only
    refine .ite (.refl _) (.ite ?_ ?_) <;> simp

@[simp] theorem State.answerNow_keeps {s : State} {p st : Nat} (hk : Keeps old s.memQueue) : Keeps old (s.answerNow p st).memQueue := by
  unfold State.answerNow
  split <;> simp [hk]

theorem execCtrlCkpt_keeps {s : State} {link : Nat} {z : ZFrame} (hk : Keeps old s.memQueue) : KeepsNext old (execCtrlCkpt link z s) :=
  keepsNext_next.2 <| State.ctrlRun_keeps hk fun s p c m => by simp

theorem execCtrlArmed_keeps {s : State} {link : Nat} {z : ZFrame} (hk : Keeps old s.memQueue) : KeepsNext old (execCtrlArmed link z s) :=
  keepsNext_next.2 <| State.ctrlRun_keeps hk fun s p c m => by simp

theorem execCtrlRelease_keeps {s : State} {link : Nat} {z : ZFrame} (hk : Keeps old s.memQueue) :
    KeepsNext old (execCtrlRelease link z s) :=
  keepsNext_next.2 <| State.ctrlRun_keeps hk fun s p c m => by simp

@[simp] theorem State.sealReport_memQueue (s : State) (p : Nat) (c : Cut) (rank st : Nat) (ok : Bool) :
    (s.sealReport p c rank st ok).memQueue = s.memQueue := by
  simp [State.sealReport]

theorem execCtrlSealed_keeps {s : State} {link : Nat} {z : ZFrame} (hk : Keeps old s.memQueue) : KeepsNext old (execCtrlSealed link z s) :=
  keepsNext_next.2 <| State.ctrlIn_keeps hk fun s p c m => by simp

theorem execCtrlFailed_keeps {s : State} {link : Nat} {z : ZFrame} (hk : Keeps old s.memQueue) : KeepsNext old (execCtrlFailed link z s) :=
  keepsNext_next.2 <| State.ctrlIn_keeps hk fun s p c m => by simp

theorem execCtrlDone_keeps {s : State} {link : Nat} {z : ZFrame} (hk : Keeps old s.memQueue) : KeepsNext old (execCtrlDone link z s) :=
  keepsNext_next.2 <| State.ctrlIn_keeps hk fun s p c m => by simp

theorem execCtrlPauseReq_keeps {s : State} {link : Nat} {z : ZFrame} (hk : Keeps old s.memQueue) :
    KeepsNext old (execCtrlPauseReq link z s) :=
  keepsNext_next.2 <| State.ctrlRun_keeps hk fun s p c m => by simp

theorem execCtrlStopReq_keeps {s : State} {link : Nat} {z : ZFrame} (hk : Keeps old s.memQueue) :
    KeepsNext old (execCtrlStopReq link z s) :=
  keepsNext_next.2 <| State.ctrlRun_keeps hk fun s p c m => by simp

/-! ## The fabric -/

@[simp] theorem State.sendOn_memQueue (s : State) (link : Nat) (z : ZFrame) : (s.sendOn link z).memQueue = s.memQueue := by
  simp [State.sendOn]

@[simp] theorem State.installRoutes_keeps {s : State} {routes : Tbl (BitVec 64)} {id epoch : Nat} (hk : Keeps old s.memQueue) :
    Keeps old (s.installRoutes routes id epoch).memQueue := by
  simp only [State.installRoutes]
  refine foldl_keeps (fun _ _ => ?_) (.ite (foldl_keeps (fun _ _ => ?_) (by simpa using hk)) (by simpa using hk))
  · split <;> simp
  · split <;> simp

@[simp] theorem State.fmUpdate_keeps {s : State} {new : Option FmDevice} (hk : Keeps old s.memQueue) :
    Keeps old (s.fmUpdate new).memQueue := by
  simp [State.fmUpdate, hk]

@[simp] theorem State.reElect_keeps {s : State} (hk : Keeps old s.memQueue) : Keeps old (s.reElect).memQueue := by
  simp [State.reElect, hk]

@[simp] theorem State.dropAdjs_keeps {s : State} {link : Nat} (hk : Keeps old s.memQueue) : Keeps old (s.dropAdjs link).memQueue := by
  simp [State.dropAdjs, hk]

@[simp] theorem State.purgeFabric_memQueue (s : State) (link : Nat) : (s.purgeFabric link).memQueue = s.memQueue := (rfl)

theorem execHelloSend_keeps {s : State} {link : Nat} (hk : Keeps old s.memQueue) : KeepsNext old (execHelloSend link s) := by
  simp [execHelloSend, hk]

theorem State.specialIngress_keeps {s : State} {link : Nat} {z : ZFrame} {typ dst : Nat} {k : State → State} (hk : Keeps old s.memQueue)
    (hr : ∀ s, Keeps s.memQueue (k s).memQueue) : Keeps old (s.specialIngress link z typ dst k).memQueue := by
  unfold State.specialIngress
  split
  · exact hk
  · split
    · simp [hk]
    · exact Keeps.trans (by simpa using hk) (hr _)

theorem execHelloReceive_keeps {s : State} {link : Nat} {z : ZFrame} (hk : Keeps old s.memQueue) :
    KeepsNext old (execHelloReceive link z s) :=
  keepsNext_next.2 <| State.specialIngress_keeps hk fun s => by
    simp only
    split
    · simp
    · refine .ite ?_ ?_ <;> simp

theorem execAdjacencyDown_keeps {s : State} {link : Nat} {key : BitVec 64} (hk : Keeps old s.memQueue) :
    KeepsNext old (execAdjacencyDown link key s) := by
  simp only [execAdjacencyDown, keepsNext_next]
  split <;> simp [hk]

theorem execLsaSend_keeps {s : State} (hk : Keeps old s.memQueue) : KeepsNext old (execLsaSend s) := by
  simp only [execLsaSend, keepsNext_next]
  split <;> simp [hk]

theorem execLsaReceive_keeps {s : State} {link : Nat} {z : ZFrame} (hk : Keeps old s.memQueue) : KeepsNext old (execLsaReceive link z s) :=
  keepsNext_next.2 <| State.specialIngress_keeps hk fun s => by
    simp only
    split
    · simp
    · split <;> simp

@[simp] theorem State.sendRoutes_memQueue (s : State) (d : FmDevice) (first n : Nat) : (s.sendRoutes d first n).memQueue = s.memQueue := by
  unfold State.sendRoutes
  split <;> simp

theorem execHeartbeatSend_keeps {s : State} (hk : Keeps old s.memQueue) : KeepsNext old (execHeartbeatSend s) := by
  simp [execHeartbeatSend, hk]

theorem execRoutesResend_keeps {s : State} {key : BitVec 64} (hk : Keeps old s.memQueue) : KeepsNext old (execRoutesResend key s) := by
  simp only [execRoutesResend, keepsNext_next]
  split <;> simp [hk]

theorem execRoutesReceive_keeps {s : State} {link : Nat} {z : ZFrame} (hk : Keeps old s.memQueue) :
    KeepsNext old (execRoutesReceive link z s) :=
  keepsNext_next.2 <| State.specialIngress_keeps hk fun s => by
    simp only
    refine .ite (.ite ?_ ?_) (.ite ?_ (.ite ?_ (.ite ?_ ?_))) <;> simp

theorem execHeartbeatLoss_keeps {s : State} (hk : Keeps old s.memQueue) : KeepsNext old (execHeartbeatLoss s) := by
  simp [execHeartbeatLoss, hk]

theorem execCandidateExclusionEnd_keeps {s : State} {key : BitVec 64} (hk : Keeps old s.memQueue) :
    KeepsNext old (execCandidateExclusionEnd key s) := by
  simp only [execCandidateExclusionEnd, keepsNext_next]
  split <;> simp [hk]

@[simp] theorem State.endPeer_memQueue (s : State) (z : ZFrame) (typ : Nat) (payload : List Byte) :
    (s.endPeer z typ payload).memQueue = s.memQueue := by
  simp [State.endPeer]

@[simp] theorem State.failPeer_memQueue (s : State) (z : ZFrame) (status : Nat) : (s.failPeer z status).memQueue = s.memQueue := by
  simp [State.failPeer]

@[simp] theorem State.peerEvent_memQueue (s : State) (z : ZFrame) (e' : AccErr) : (s.peerEvent z e').memQueue = s.memQueue := by
  unfold State.peerEvent
  split <;> simp

@[simp] theorem State.notePeer_memQueue (s : State) (z : ZFrame) (err : Option Nat) (last lost : Bool) :
    (s.notePeer z err last lost).memQueue = s.memQueue := (rfl)

theorem execZarenWriteReceive_keeps {s : State} {link : Nat} {z : ZFrame} (hk : Keeps old s.memQueue) :
    KeepsNext old (execZarenWriteReceive link z s) :=
  keepsNext_next.2 <| State.jobIngress_keeps hk fun s b => by
    simp only
    split
    · simp
    · split
      next t e =>
        have h1 : Keeps s.memQueue t.memQueue := State.saveAll_keeps (.refl _) e
        simpa using h1
      next => split <;> simp

@[simp] theorem State.dataFrames_memQueue (s : State) (z : ZFrame) (n off : Nat) (bs : List Byte) :
    (s.dataFrames z n off bs).memQueue = s.memQueue := by
  induction n generalizing s off bs with
  | zero => rfl
  | succ n ih =>
    simp only [State.dataFrames]
    split
    · rfl
    · simp [ih]

theorem execZarenReadReceive_keeps {s : State} {link : Nat} {z : ZFrame} (hk : Keeps old s.memQueue) :
    KeepsNext old (execZarenReadReceive link z s) :=
  keepsNext_next.2 <| State.jobIngress_keeps hk fun s b => by
    simp only
    split
    · simp
    · split
      · simp
      · split <;> split <;> simp

theorem execZarenDataReceive_keeps {s : State} {link : Nat} {z : ZFrame} (hk : Keeps old s.memQueue) :
    KeepsNext old (execZarenDataReceive link z s) :=
  keepsNext_next.2 <| State.jobIngress_keeps hk fun s b => by simp

theorem execZarenTokenReceive_keeps {s : State} {link : Nat} {z : ZFrame} (hk : Keeps old s.memQueue) :
    KeepsNext old (execZarenTokenReceive link z s) :=
  keepsNext_next.2 <| State.jobIngress_keeps hk fun s b => by simp

theorem execZarenDoneReceive_keeps {s : State} {link : Nat} {z : ZFrame} (hk : Keeps old s.memQueue) :
    KeepsNext old (execZarenDoneReceive link z s) :=
  keepsNext_next.2 <| State.jobIngress_keeps hk fun s b => by simp

theorem execZarenFailReceive_keeps {s : State} {link : Nat} {z : ZFrame} (hk : Keeps old s.memQueue) :
    KeepsNext old (execZarenFailReceive link z s) :=
  keepsNext_next.2 <| State.jobIngress_keeps hk fun s b => by simp

theorem execPeerTransferDone_keeps {s : State} {src tag : Nat} (hk : Keeps old s.memQueue) :
    KeepsNext old (execPeerTransferDone src tag s) := by
  simp only [execPeerTransferDone, keepsNext_next]
  repeat' split
  all_goals simp [hk]

theorem execPackReceive_keeps {s : State} {link : Nat} {z : ZFrame} (hk : Keeps old s.memQueue) :
    KeepsNext old (execPackReceive link z s) := by
  simp [execPackReceive, hk]

theorem execResyncReceive_keeps {s : State} {link : Nat} {z : ZFrame} (hk : Keeps old s.memQueue) :
    KeepsNext old (execResyncReceive link z s) := by
  simp [execResyncReceive, hk]

theorem execZarenForward_keeps {s : State} {link : Nat} {z : ZFrame} (hk : Keeps old s.memQueue) :
    KeepsNext old (execZarenForward link z s) := by
  simp only [execZarenForward, keepsNext_next]
  repeat' split
  all_goals simp [hk]

theorem execZlkRtoExpire_keeps {s : State} {dev cls : Nat} (hk : Keeps old s.memQueue) : KeepsNext old (execZlkRtoExpire dev cls s) := by
  simp only [execZlkRtoExpire, keepsNext_next]
  split <;> simp [hk]

theorem execZarenAckTimer_keeps {s : State} {dev cls : Nat} (hk : Keeps old s.memQueue) : KeepsNext old (execZarenAckTimer dev cls s) := by
  simp only [execZarenAckTimer, keepsNext_next]
  split <;> simp [hk]

theorem execResyncSend_keeps {s : State} {dev cls : Nat} (hk : Keeps old s.memQueue) : KeepsNext old (execResyncSend dev cls s) := by
  simp [execResyncSend, hk]

@[simp] theorem State.loseLock_keeps {s : State} (hk : Keeps old s.memQueue) : Keeps old s.loseLock.memQueue := by
  simp only [State.loseLock]
  refine .ite (foldl_keeps (fun _ _ => ?_) (by simpa using hk)) (by simpa using hk)
  split <;> simp

@[simp] theorem State.reMaster_keeps {s : State} {was : Announce × Option Nat} (hk : Keeps old s.memQueue) :
    Keeps old (s.reMaster was).memQueue := by
  simp [State.reMaster, hk]

@[simp] theorem State.dropAnnounce_keeps {s : State} {link : Nat} (hk : Keeps old s.memQueue) :
    Keeps old (s.dropAnnounce link).memQueue := by
  simp [State.dropAnnounce, hk]

@[simp] theorem State.emitGptp_memQueue (s : State) (link : Nat) (m : GptpOut) : (s.emitGptp link m).memQueue = s.memQueue := by
  unfold State.emitGptp
  split <;> simp

@[simp] theorem State.queueGptp_memQueue (s : State) (link : Nat) (m : GptpOut) : (s.queueGptp link m).memQueue = s.memQueue := by
  simp [State.queueGptp]

@[simp] theorem State.nextGptp_memQueue (s : State) (link kind : Nat) : (s.nextGptp link kind).2.memQueue = s.memQueue := (rfl)

@[simp] theorem State.takeSync_keeps {s : State} {o : Int} (hk : Keeps old s.memQueue) : Keeps old (s.takeSync o).memQueue := by
  simp [State.takeSync, hk]

@[simp] theorem State.takeAnnounce_keeps {s : State} {link : Nat} {a : Announce} (hk : Keeps old s.memQueue) :
    Keeps old (s.takeAnnounce link a).memQueue := by
  simp [State.takeAnnounce, hk]

theorem execGptpMessageReceive_keeps {s : State} {link : Nat} {m : GptpMsg} (hk : Keeps old s.memQueue) :
    KeepsNext old (execGptpMessageReceive link m s) := by
  simp only [execGptpMessageReceive, keepsNext_next]
  repeat' split
  all_goals simp [hk]

theorem execGptpLockLoss_keeps {s : State} {offset : Int} (hk : Keeps old s.memQueue) : KeepsNext old (execGptpLockLoss offset s) := by
  simp only [execGptpLockLoss, keepsNext_next]
  split <;> simp [hk]

theorem execGrandmasterLock_keeps {s : State} (hk : Keeps old s.memQueue) : KeepsNext old (execGrandmasterLock s) := by
  simp only [execGrandmasterLock, keepsNext_next]
  repeat' split
  all_goals simp [hk]

theorem execGptpSyncSend_keeps {s : State} {link : Nat} (hk : Keeps old s.memQueue) : KeepsNext old (execGptpSyncSend link s) := by
  simp [execGptpSyncSend, hk]

theorem execPreemptionVerified_keeps {s : State} {link : Nat} (hk : Keeps old s.memQueue) :
    KeepsNext old (execPreemptionVerified link s) := by
  simp [execPreemptionVerified, hk]

theorem execGateEntryAdvance_keeps {s : State} {port : Nat} (hk : Keeps old s.memQueue) : KeepsNext old (execGateEntryAdvance port s) := by
  simp only [execGateEntryAdvance, keepsNext_next]
  split <;> simp [hk]

theorem execAdminGateStart_keeps {s : State} {port : Nat} (hk : Keeps old s.memQueue) : KeepsNext old (execAdminGateStart port s) := by
  simp only [execAdminGateStart, keepsNext_next]
  split <;> simp [hk]

@[simp] theorem fabGateSetRun_memQueue (s : State) (w : Waiter) (i : Nat) (ps : List Byte) :
    (fabGateSetRun s w i ps).memQueue = s.memQueue := by
  simp [fabGateSetRun]

theorem fabGateSetSpec_kept : Spec.Kept fabGateSetSpec := by
  intro old s w i ps hk
  simp [fabGateSetSpec, hk]

theorem execFabGateSet_keeps {s : State} {c : Cmd} (hk : Keeps old s.memQueue) : KeepsNext old (execFabGateSet c s) :=
  keepsNext_next.2 (State.command_keeps fabGateSetSpec_kept hk)

theorem fabJobGetSpec_kept : Spec.Kept fabJobGetSpec := by
  intro old s w i ps hk
  simp only [fabJobGetSpec]
  split <;> simp [hk]

theorem execFabJobGet_keeps {s : State} {c : Cmd} (hk : Keeps old s.memQueue) : KeepsNext old (execFabJobGet c s) :=
  keepsNext_next.2 (State.command_keeps fabJobGetSpec_kept hk)

theorem fabNeighGetSpec_kept : Spec.Kept fabNeighGetSpec := by
  intro old s w i ps hk
  simp [fabNeighGetSpec, hk]

theorem execFabNeighGet_keeps {s : State} {c : Cmd} (hk : Keeps old s.memQueue) : KeepsNext old (execFabNeighGet c s) :=
  keepsNext_next.2 (State.command_keeps fabNeighGetSpec_kept hk)

/-! ## Scheduling, metering and shaping -/

@[simp] theorem State.meterFrame_memQueue (s : State) (n h : Nat) (earlier : Colour) (dei : Bool) :
    (s.meterFrame n h earlier dei).1.memQueue = s.memQueue := by
  unfold State.meterFrame
  split <;> simp

@[simp] theorem State.putSched_memQueue (s : State) (link c num : Nat) (frames : List TxFrame) (deficit : Nat) :
    (s.putSched link c num frames deficit).memQueue = s.memQueue := by
  simp [State.putSched]

@[simp] theorem State.queueDrop_memQueue (s : State) (link c num : Nat) : (s.queueDrop link c num).memQueue = s.memQueue := by
  simp [State.queueDrop]

@[simp] theorem State.pruneHead_memQueue (s : State) (link c num : Nat) (l : List TxFrame) (d : Nat) :
    (s.pruneHead link c num l d).memQueue = s.memQueue := by
  induction l generalizing s d with
  | nil => rfl
  | cons f t ih =>
    simp only [State.pruneHead]
    split
    · simp [ih]
    · split
      · simp [ih]
      · rfl

@[simp] theorem State.stampSent_memQueue (s : State) (q : Nat) (n : BitVec 24) : (s.stampSent q n).memQueue = s.memQueue := by
  unfold State.stampSent
  split <;> simp

@[simp] theorem State.takeLink_memQueue (s : State) (link c : Nat) (f : TxFrame) (n : Nat) :
    (s.takeLink link c f n).memQueue = s.memQueue := (rfl)

@[simp] theorem State.beginFrame_memQueue (s : State) (link c : Nat) (f : TxFrame) : (s.beginFrame link c f).memQueue = s.memQueue := by
  unfold State.beginFrame
  repeat' split
  all_goals simp

@[simp] theorem State.resumeFrame_memQueue (s : State) (link : Nat) (f : TxFrame) (c rest : Nat) :
    (s.resumeFrame link f c rest).memQueue = s.memQueue := (rfl)

theorem State.sendControl_memQueue {s t : State} {link : Nat} (e : s.sendControl link = some t) : t.memQueue = s.memQueue := by
  simp only [State.sendControl] at e
  split at e
  · cases e
  · split at e
    · cases e
      simp
    · cases e

@[simp] theorem State.setPos_memQueue (s : State) (link c : Nat) (lower : Bool) (pos : Nat) :
    (s.setPos link c lower pos).memQueue = s.memQueue := (rfl)

@[simp] theorem State.setVisit_memQueue (s : State) (link num : Nat) (v : Option Visit) :
    (s.setVisit link num v).memQueue = s.memQueue := by
  simp only [State.setVisit]
  split <;> simp

@[simp] theorem State.endVisit_memQueue (s : State) (link c : Nat) (lower : Bool) (goes : SchedQ → Bool) :
    (s.endVisit link c lower goes).memQueue = s.memQueue := by
  simp [State.endVisit]

@[simp] theorem State.sendHead_memQueue (s : State) (link c : Nat) (q : SchedQ) : (s.sendHead link c q).memQueue = s.memQueue := by
  unfold State.sendHead
  split <;> simp

@[simp] theorem State.sendTier_memQueue (s : State) (link c : Nat) (lower : Bool) : (s.sendTier link c lower).1.memQueue = s.memQueue := by
  simp only [State.sendTier]
  repeat' split
  all_goals simp

@[simp] theorem State.sendClass_memQueue (s : State) (link c : Nat) : (s.sendClass link c).1.memQueue = s.memQueue := by
  simp only [State.sendClass]
  split <;> simp

@[simp] theorem State.sendNext_memQueue (s : State) (link n : Nat) : (s.sendNext link n).memQueue = s.memQueue := by
  induction n generalizing s with
  | zero => rfl
  | succ c ih =>
    simp only [State.sendNext]
    split
    next t e =>
      split at e
      · exact State.sendControl_memQueue e
      · cases e
    next =>
      split
      · split
        · simp
        · split
          · exact ih s
          · simp [ih]
      · simp [ih]

@[simp] theorem State.freeLink_memQueue (s : State) (link : Nat) : (s.freeLink link).memQueue = s.memQueue := by
  simp only [State.freeLink]
  split <;> simp

theorem execTransmitSelect_keeps {s : State} {link : Nat} (hk : Keeps old s.memQueue) : KeepsNext old (execTransmitSelect link s) := by
  simp [execTransmitSelect, hk]

@[simp] theorem State.cutTx_memQueue (s : State) (link : Nat) : (s.cutTx link).memQueue = s.memQueue := by
  simp [State.cutTx]

@[simp] theorem State.refill_memQueue (s : State) (n : Nat) : (s.refill n).memQueue = s.memQueue := (rfl)

@[simp] theorem State.refillNow_memQueue (s : State) : (s.refillNow).memQueue = s.memQueue := by
  simp [State.refillNow]

theorem execShaperRefill_keeps {s : State} (hk : Keeps old s.memQueue) : KeepsNext old (execShaperRefill s) := by
  simp [execShaperRefill, hk]

@[simp] theorem tmsMeterSetRun_memQueue (s : State) (x : Waiter) (i : Nat) (ps : List Byte) :
    (tmsMeterSetRun s x i ps).memQueue = s.memQueue := by
  simp [tmsMeterSetRun]

theorem tmsMeterSetSpec_kept : Spec.Kept tmsMeterSetSpec := by
  intro old s w i ps hk
  simp [tmsMeterSetSpec, hk]

theorem execTmsMeterSet_keeps {s : State} {c : Cmd} (hk : Keeps old s.memQueue) : KeepsNext old (execTmsMeterSet c s) :=
  keepsNext_next.2 (State.command_keeps tmsMeterSetSpec_kept hk)

@[simp] theorem tmsShaperSetRun_memQueue (s : State) (x : Waiter) (i : Nat) (ps : List Byte) :
    (tmsShaperSetRun s x i ps).memQueue = s.memQueue := by
  simp only [tmsShaperSetRun]
  repeat' split
  all_goals simp

theorem tmsShaperSetSpec_kept : Spec.Kept tmsShaperSetSpec := by
  intro old s w i ps hk
  simp [tmsShaperSetSpec, hk]

theorem execTmsShaperSet_keeps {s : State} {c : Cmd} (hk : Keeps old s.memQueue) : KeepsNext old (execTmsShaperSet c s) :=
  keepsNext_next.2 (State.command_keeps tmsShaperSetSpec_kept hk)

theorem tmsObjFreeSpec_kept : Spec.Kept tmsObjFreeSpec := by
  intro old s w i ps hk
  simp only [tmsObjFreeSpec]
  split <;> simp [hk]

theorem execTmsObjFree_keeps {s : State} {c : Cmd} (hk : Keeps old s.memQueue) : KeepsNext old (execTmsObjFree c s) :=
  keepsNext_next.2 (State.command_keeps tmsObjFreeSpec_kept hk)

theorem tmsObjGetSpec_kept : Spec.Kept tmsObjGetSpec := by
  intro old s w i ps hk
  simp only [tmsObjGetSpec]
  split <;> simp [hk]

theorem execTmsObjGet_keeps {s : State} {c : Cmd} (hk : Keeps old s.memQueue) : KeepsNext old (execTmsObjGet c s) :=
  keepsNext_next.2 (State.command_keeps tmsObjGetSpec_kept hk)

@[simp] theorem tmsEqSetRun_memQueue (s : State) (w : Waiter) (i : Nat) (ps : List Byte) :
    (tmsEqSetRun s w i ps).memQueue = s.memQueue := by
  simp [tmsEqSetRun]

theorem tmsEqSetSpec_kept : Spec.Kept tmsEqSetSpec := by
  intro old s w i ps hk
  simp [tmsEqSetSpec, hk]

theorem execTmsEqSet_keeps {s : State} {c : Cmd} (hk : Keeps old s.memQueue) : KeepsNext old (execTmsEqSet c s) :=
  keepsNext_next.2 (State.command_keeps tmsEqSetSpec_kept hk)

theorem tmsIqmapSetSpec_kept : Spec.Kept tmsIqmapSetSpec := by
  intro old s w i ps hk
  simp [tmsIqmapSetSpec, hk]

theorem execTmsIqmapSet_keeps {s : State} {c : Cmd} (hk : Keeps old s.memQueue) : KeepsNext old (execTmsIqmapSet c s) :=
  keepsNext_next.2 (State.command_keeps tmsIqmapSetSpec_kept hk)

/-! ## Ethernet ports and receive queues -/

@[simp] theorem State.netDrop_memQueue (s : State) (die n : Nat) : (s.netDrop die n).memQueue = s.memQueue := (rfl)

@[simp] theorem State.countRule_memQueue (s : State) (slot : Nat) (r : Rule) (n : Nat) : (s.countRule slot r n).memQueue = s.memQueue := by
  simp [State.countRule]

@[simp] theorem State.clearRule_memQueue (s : State) (slot : Nat) (r : Rule) : (s.clearRule slot r).memQueue = s.memQueue := (rfl)

@[simp] theorem State.meterRule_memQueue (s : State) (r : Rule) (n : Nat) (earlier : Colour) (dei marked : Bool) :
    (s.meterRule r n earlier dei marked).1.memQueue = s.memQueue := by
  unfold State.meterRule
  split <;> simp

/-- However a receive queue took a frame, the state it left keeps both. -/
def Enqueue.Keeps (old : MemQueue) : Enqueue → Prop
  | .written s => Machine.Keeps old s.memQueue
  | .noQueue s => Machine.Keeps old s.memQueue
  | .oldGen => True
  | .full s => Machine.Keeps old s.memQueue

theorem State.enqueue_keeps {s : State} {q : Nat} {owner : Option Nat} {f : RxInfo} {bs : List Byte} (hk : Keeps old s.memQueue) :
    (s.enqueue q owner f bs).Keeps old := by
  cases owner <;>
  · simp only [State.enqueue]
    split
    · exact hk
    · split
      · exact hk
      · split
        · trivial
        · split
          next t _ e =>
            have h1 : Keeps old t.memQueue := (State.ringPut_keeps hk).ok e
            exact h1
          next => exact hk
          next t e =>
            have h1 : Keeps old t.memQueue := (State.ringPut_keeps hk).bad e
            change Keeps old _
            simpa using h1

@[simp] theorem State.mirrorCopy_keeps {s : State} {a : List Byte} {f : RxInfo} {bs : List Byte} (hk : Keeps old s.memQueue) :
    Keeps old (s.mirrorCopy a f bs).memQueue := by
  have hq (q : Nat) (o : Option Nat) (f : RxInfo) (bs : List Byte) : (s.enqueue q o f bs).Keeps old := State.enqueue_keeps hk
  simp only [State.mirrorCopy]
  split
  · split
    next t e =>
      have h1 : Keeps old t.memQueue := (e ▸ hq ..: (Enqueue.written t).Keeps old)
      simpa using h1
    next t e =>
      have h1 : Keeps old t.memQueue := (e ▸ hq ..: (Enqueue.noQueue t).Keeps old)
      simpa using h1
    next => simpa using hk
    next t e =>
      have h1 : Keeps old t.memQueue := (e ▸ hq ..: (Enqueue.full t).Keeps old)
      simpa using h1
  · split <;> simp [hk]

@[simp] theorem State.deliver_keeps {s : State} {v : Verdict} {owner : Option Nat} {f : RxInfo} {rx : Nat} {bs : List Byte}
    (hk : Keeps old s.memQueue) : Keeps old (s.deliver v owner f rx bs).1.memQueue := by
  have hq (q : Nat) (o : Option Nat) : (s.enqueue q o f bs).Keeps old := State.enqueue_keeps hk
  simp only [State.deliver]
  split
  · simpa using hk
  · simpa using hk
  · exact hk
  · split
    next t e =>
      have h1 : Keeps old t.memQueue := (e ▸ hq ..: (Enqueue.written t).Keeps old)
      simpa using h1
    next t e =>
      have h1 : Keeps old t.memQueue := (e ▸ hq ..: (Enqueue.noQueue t).Keeps old)
      simpa using h1
    next => simpa using hk
    next t e =>
      have h1 : Keeps old t.memQueue := (e ▸ hq ..: (Enqueue.full t).Keeps old)
      simpa using h1
  · split <;> simp [hk]
  · split
    · simp [hk]
    · simp only
      split <;> simp [hk]

@[simp] theorem State.classify_keeps {s : State} {link : Nat} {encap : Bool} {time : Nat} {bs : List Byte} (hk : Keeps old s.memQueue) :
    Keeps old (s.classify link encap time bs).1.memQueue := by
  unfold State.classify
  extract_lets port die tp p key rx f
  split
  · split <;> simp [hk]
  next k1 r1 _ =>
    extract_lets f1 dei
    have h1 : Keeps old dei.memQueue := by simpa [dei] using hk
    split
    next s2 col mark dropped e =>
      have h2 : Keeps old s2.memQueue := by simpa [memQueue_fst e] using h1
      split
      · simpa using h2
      · extract_lets owner two fs mirror act2 dropBy2 wants
        have hm {t : State} (ht : Keeps old t.memQueue) : Keeps old (mirror t).memQueue := .ite (State.mirrorCopy_keeps ht) ht
        clear_value two
        split
        next s3 mark dropped e =>
          have h3 : Keeps old s3.memQueue := by
            split at e
            · cases e
              exact h2
            · simp only [Prod.mk.injEq] at e
              obtain ⟨rfl, -, -⟩ := e
              simpa using h2
          split
          · exact hm (by simpa using h3)
          · split
            · exact hm (by simpa using h3)
            · split
              · exact hm (by simpa using h3)
              · split
                split
                · exact hm (by simpa using h3)
                · exact hm (State.deliver_keeps h3)

@[simp] theorem State.phyDown_keeps {s : State} {link : Nat} (hk : Keeps old s.memQueue) : Keeps old (s.phyDown link).memQueue := by
  simp [State.phyDown, hk]

@[simp] theorem State.startLink_memQueue (s : State) (link : Nat) : (s.startLink link).memQueue = s.memQueue := by
  simp [State.startLink]

theorem execLinkUp_keeps {s : State} {link : Nat} (hk : Keeps old s.memQueue) : KeepsNext old (execLinkUp link s) := by
  simp [execLinkUp, hk]

theorem execLinkRestart_keeps {s : State} {link : Nat} (hk : Keeps old s.memQueue) : KeepsNext old (execLinkRestart link s) := by
  simp [execLinkRestart, hk]

theorem execLinkFault_keeps {s : State} {link : Nat} {lf rf phy : Bool} (hk : Keeps old s.memQueue) :
    KeepsNext old (execLinkFault link lf rf phy s) := by
  simp [execLinkFault, hk]

@[simp] theorem State.portDown_keeps {s : State} {port : Nat} (hk : Keeps old s.memQueue) : Keeps old (s.portDown port).memQueue := by
  simp [State.portDown, hk]

@[simp] theorem State.portUp_memQueue (s : State) (port : Nat) : (s.portUp port).memQueue = s.memQueue := by
  simp [State.portUp]

@[simp] theorem State.writePort_keeps {s : State} {port : Nat} {v : BitVec 64} (hk : Keeps old s.memQueue) :
    Keeps old (s.writePort port v).memQueue := by
  simp [State.writePort, hk]

@[simp] theorem netRuleSetRun_memQueue (s : State) (x : Waiter) (i : Nat) (ps : List Byte) :
    (netRuleSetRun s x i ps).memQueue = s.memQueue := by
  simp [netRuleSetRun]

theorem netRuleSetSpec_kept : Spec.Kept netRuleSetSpec := by
  intro old s w i ps hk
  simp [netRuleSetSpec, hk]

theorem execNetRuleSet_keeps {s : State} {c : Cmd} (hk : Keeps old s.memQueue) : KeepsNext old (execNetRuleSet c s) :=
  keepsNext_next.2 (State.command_keeps netRuleSetSpec_kept hk)

theorem netRuleClearSpec_kept : Spec.Kept netRuleClearSpec := by
  intro old s w i ps hk
  simp only [netRuleClearSpec]
  split <;> simp [hk]

theorem execNetRuleClear_keeps {s : State} {c : Cmd} (hk : Keeps old s.memQueue) : KeepsNext old (execNetRuleClear c s) :=
  keepsNext_next.2 (State.command_keeps netRuleClearSpec_kept hk)

theorem netRuleGetSpec_kept : Spec.Kept netRuleGetSpec := by
  intro old s w i ps hk
  simp only [netRuleGetSpec]
  split <;> simp [hk]

theorem execNetRuleGet_keeps {s : State} {c : Cmd} (hk : Keeps old s.memQueue) : KeepsNext old (execNetRuleGet c s) :=
  keepsNext_next.2 (State.command_keeps netRuleGetSpec_kept hk)

@[simp] theorem netQueueSetRun_keeps {s : State} {w : Waiter} {i : Nat} {ps : List Byte} (hk : Keeps old s.memQueue) :
    Keeps old (netQueueSetRun s w i ps).memQueue := by
  simp only [netQueueSetRun]
  split
  · split <;> simp [hk]
  · split
    · exact hk
    · split
      next e => exact (State.ringReset_keeps hk).fst e
      next t e =>
        have h1 : Keeps old t.memQueue := (State.ringReset_keeps hk).fst e
        simpa using h1

theorem netQueueSetSpec_kept : Spec.Kept netQueueSetSpec := by
  intro old s w i ps hk
  simp [netQueueSetSpec, hk]

theorem execNetQueueSet_keeps {s : State} {c : Cmd} (hk : Keeps old s.memQueue) : KeepsNext old (execNetQueueSet c s) :=
  keepsNext_next.2 (State.command_keeps netQueueSetSpec_kept hk)

@[simp] theorem State.clearQstat_memQueue (s : State) (q : Nat) : (s.clearQstat q).memQueue = s.memQueue := by
  unfold State.clearQstat
  split <;> simp

theorem netQueueGetSpec_kept : Spec.Kept netQueueGetSpec := by
  intro old s w i ps hk
  simp only [netQueueGetSpec]
  split <;> simp [hk]

theorem execNetQueueGet_keeps {s : State} {c : Cmd} (hk : Keeps old s.memQueue) : KeepsNext old (execNetQueueGet c s) :=
  keepsNext_next.2 (State.command_keeps netQueueGetSpec_kept hk)

/-! ## The cipher engine -/

@[simp] theorem State.putCtx_memQueue (s : State) (n : Nat) (x : CipCtx) : (s.putCtx n x).memQueue = s.memQueue := (rfl)

@[simp] theorem State.cipStat_memQueue (s : State) (n : Nat) : (s.cipStat n).memQueue = s.memQueue := (rfl)

theorem State.nextIv_memQueue {s t : State} {n : Nat} {iv : List Byte} (e : s.nextIv n = some (iv, t)) : t.memQueue = s.memQueue := by
  simp only [State.nextIv] at e
  split at e
  · cases e
  · cases e; rfl

theorem State.sealPacket_memQueue {s t : State} {n : Nat} {aad pt bs : List Byte} (e : s.sealPacket n aad pt = some (bs, t)) :
    t.memQueue = s.memQueue := by
  simp only [State.sealPacket] at e
  split at e
  · cases e
  · split at e
    next ei =>
      cases e
      exact State.nextIv_memQueue ei
    next => cases e

@[simp] theorem cipCtxSetRun_memQueue (s : State) (w : Waiter) (i : Nat) (ps : List Byte) :
    (cipCtxSetRun s w i ps).memQueue = s.memQueue := by
  simp [cipCtxSetRun]

theorem cipCtxSetSpec_kept : Spec.Kept cipCtxSetSpec := by
  intro old s w i ps hk
  simp [cipCtxSetSpec, hk]

theorem execCipCtxSet_keeps {s : State} {c : Cmd} (hk : Keeps old s.memQueue) : KeepsNext old (execCipCtxSet c s) :=
  keepsNext_next.2 (State.command_keeps cipCtxSetSpec_kept hk)

theorem cipCtxFreeSpec_kept : Spec.Kept cipCtxFreeSpec := by
  intro old s w i ps hk
  simp [cipCtxFreeSpec, hk]

theorem execCipCtxFree_keeps {s : State} {c : Cmd} (hk : Keeps old s.memQueue) : KeepsNext old (execCipCtxFree c s) :=
  keepsNext_next.2 (State.command_keeps cipCtxFreeSpec_kept hk)

@[simp] theorem State.zeroOutput_keeps {s : State} {own : Nat} {ch : Chain} {n : Nat} (hk : Keeps old s.memQueue) :
    Keeps old (s.zeroOutput own ch n).memQueue := by
  simp [State.zeroOutput, hk]

@[simp] theorem State.abortChain_keeps {s : State} {n : Nat} {x : CipCtx} (hk : Keeps old s.memQueue) :
    Keeps old (s.abortChain n x).memQueue := by
  unfold State.abortChain
  split <;> simp [hk]

@[simp] theorem cipXts_keeps {s : State} {x : CipCtx} {key ps : List Byte} (hk : Keeps old s.memQueue) :
    Keeps old (cipXts s x key ps).memQueue := by
  simp only [cipXts]
  split
  · exact hk
  · split
    · exact hk
    · split
      · exact hk
      · split
        next e => exact hk.fst_same (State.cmdRead_memQueue ..) e
        next s1 _ e =>
          have h1 : Keeps old s1.memQueue := hk.fst_same (State.cmdRead_memQueue ..) e
          split
          next e => exact (State.cmdWrite_keeps h1).fst e
          next e => simpa using (State.cmdWrite_keeps h1).fst e

@[simp] theorem cipPiece_keeps {s : State} {n : Nat} {x : CipCtx} {key : List Byte} {ch : Chain} {ps : List Byte} (hk :
    Keeps old s.memQueue) :
    Keeps old (cipPiece s n x key ch ps).memQueue := by
  unfold cipPiece
  extract_lets len last ks fault total iv reply
  have hf {t : State} (ht : Keeps old t.memQueue) : Keeps old (fault t).memQueue := by simp [fault, ht]
  split
  next e => exact hf (hk.fst_same (State.cmdRead_memQueue ..) e)
  next s1 inp e =>
    have h1 : Keeps old s1.memQueue := hk.fst_same (State.cmdRead_memQueue ..) e
    extract_lets out y tag given
    have hg : Keeps old given.1.memQueue := by
      simp only [given]
      split
      · simpa using h1
      · exact h1
    clear_value given
    split
    next => exact hf hg
    next s2 want =>
      have h2 : Keeps old s2.memQueue := hg
      split
      · exact hf (State.cmdWrite_keeps h2)
      next s3 e =>
        have h3 : Keeps old s3.memQueue := (State.cmdWrite_keeps h2).fst e
        split
        · simpa using h3
        · split
          · split
            · simpa using h3
            · simp [h3]
          · split
            · exact hf (State.cmdWrite_keeps h2)
            next e => simpa using (State.cmdWrite_keeps h3).fst e

@[simp] theorem cipGcm_keeps {s : State} {n : Nat} {x : CipCtx} {key ps : List Byte} (hk : Keeps old s.memQueue) :
    Keeps old (cipGcm s n x key ps).memQueue := by
  unfold cipGcm
  extract_lets fl first last len out dec aadLen ks go
  have hg {t : State} {iv : List Byte} (ht : Keeps old t.memQueue) : Keeps old (go t iv).memQueue := by
    simp only [go]
    split
    next e => exact ht.fst_same (State.cmdRead_memQueue ..) e
    next e => exact cipPiece_keeps (ht.fst_same (State.cmdRead_memQueue ..) e)
  split
  · split
    · exact hk
    · split
      · exact hk
      · split <;> simp [hk]
  · split
    · exact hk
    · split
      · exact hk
      · split
        · exact hg hk
        · split
          · exact hk
          next e => exact hg (by rw [State.nextIv_memQueue e]; exact hk)

@[simp] theorem cipOpRun_keeps {s : State} {x : Waiter} {i : Nat} {ps : List Byte} (hk : Keeps old s.memQueue) :
    Keeps old (cipOpRun s x i ps).memQueue := by
  simp only [cipOpRun]
  repeat' split
  all_goals simp [hk]

theorem cipOpSpec_kept : Spec.Kept cipOpSpec := by
  intro old s w i ps hk
  simp [cipOpSpec, hk]

theorem execCipOp_keeps {s : State} {c : Cmd} (hk : Keeps old s.memQueue) : KeepsNext old (execCipOp c s) :=
  keepsNext_next.2 (State.command_keeps cipOpSpec_kept hk)

@[simp] theorem cipStateSaveRun_keeps {s : State} {x : Waiter} {i : Nat} {ps : List Byte} (hk : Keeps old s.memQueue) :
    Keeps old (cipStateSaveRun s x i ps).memQueue := by
  simp only [cipStateSaveRun]
  repeat' split
  all_goals simp [hk]

theorem cipStateSaveSpec_kept : Spec.Kept cipStateSaveSpec := by
  intro old s w i ps hk
  simp [cipStateSaveSpec, hk]

theorem execCipStateSave_keeps {s : State} {c : Cmd} (hk : Keeps old s.memQueue) : KeepsNext old (execCipStateSave c s) :=
  keepsNext_next.2 (State.command_keeps cipStateSaveSpec_kept hk)

@[simp] theorem cipStateRestoreRun_memQueue (s : State) (w : Waiter) (i : Nat) (ps : List Byte) :
    (cipStateRestoreRun s w i ps).memQueue = s.memQueue := by
  simp only [cipStateRestoreRun]
  split
  · rfl
  · split
    · rfl
    · split
      next e => simp [memQueue_fst e]
      next e => split <;> simp [memQueue_fst e]

theorem cipStateRestoreSpec_kept : Spec.Kept cipStateRestoreSpec := by
  intro old s w i ps hk
  simp [cipStateRestoreSpec, hk]

theorem execCipStateRestore_keeps {s : State} {c : Cmd} (hk : Keeps old s.memQueue) : KeepsNext old (execCipStateRestore c s) :=
  keepsNext_next.2 (State.command_keeps cipStateRestoreSpec_kept hk)

@[simp] theorem cipQpBindRun_memQueue (s : State) (x : Waiter) (i : Nat) (ps : List Byte) :
    (cipQpBindRun s x i ps).memQueue = s.memQueue := by
  unfold cipQpBindRun
  split <;> simp

theorem cipQpBindSpec_kept : Spec.Kept cipQpBindSpec := by
  intro old s w i ps hk
  simp [cipQpBindSpec, hk]

theorem execCipQpBind_keeps {s : State} {c : Cmd} (hk : Keeps old s.memQueue) : KeepsNext old (execCipQpBind c s) :=
  keepsNext_next.2 (State.command_keeps cipQpBindSpec_kept hk)

theorem cipHashSpec_kept : Spec.Kept cipHashSpec := by
  intro old s w i ps hk
  simp only [cipHashSpec]
  split
  next e => exact hk.fst_same (State.cmdRead_memQueue ..) e
  next e => exact hk.fst_same (State.cmdRead_memQueue ..) e

theorem execCipHash_keeps {s : State} {c : Cmd} (hk : Keeps old s.memQueue) : KeepsNext old (execCipHash c s) :=
  keepsNext_next.2 (State.command_keeps cipHashSpec_kept hk)

@[simp] theorem cipLmsRun_memQueue (s : State) (w : Waiter) (i : Nat) (ps : List Byte) : (cipLmsRun s w i ps).memQueue = s.memQueue := by
  simp only [cipLmsRun]
  split
  next e => simp [memQueue_fst e]
  next e1 =>
    split
    next e2 => simp [memQueue_fst e2, memQueue_fst e1]
    next e2 =>
      split
      next e3 => simp [memQueue_fst e3, memQueue_fst e2, memQueue_fst e1]
      next e3 => split <;> simp [memQueue_fst e3, memQueue_fst e2, memQueue_fst e1]

theorem cipLmsSpec_kept : Spec.Kept cipLmsSpec := by
  intro old s w i ps hk
  simp [cipLmsSpec, hk]

theorem execCipLmsVerify_keeps {s : State} {c : Cmd} (hk : Keeps old s.memQueue) : KeepsNext old (execCipLmsVerify c s) :=
  keepsNext_next.2 (State.command_keeps cipLmsSpec_kept hk)

@[simp] theorem State.eraseKeys_keeps {s : State} (hk : Keeps old s.memQueue) : Keeps old (s.eraseKeys).memQueue := by
  unfold State.eraseKeys
  exact foldl_keeps (fun s x => by split <;> simp) hk

@[simp] theorem State.rearmKeys_memQueue (s : State) : (s.rearmKeys).memQueue = s.memQueue := (rfl)

end Sys2Proof.Machine
end

section
/-! PROOF. Remote memory and storage keep the memory's form and the queue. -/

namespace Sys2Proof.Machine

variable {old : MemQueue}

/-! ## RoCE packets -/

@[simp] theorem State.rmaStat_memQueue (s : State) (die n by_ : Nat) : (s.rmaStat die n by_).memQueue = s.memQueue := (rfl)

@[simp] theorem State.putQp_memQueue (s : State) (k : Nat) (q : Qp) : (s.putQp k q).memQueue = s.memQueue := (rfl)

@[simp] theorem State.modQp_memQueue (s : State) (k : Nat) (g : Qp → Qp) : (s.modQp k g).memQueue = s.memQueue := by
  unfold State.modQp
  split <;> simp

theorem State.rocePut_memQueue {s t : State} {q : Qp} {frame : List Byte} {mark : Option (Nat × BitVec 24)}
    (e : s.rocePut q frame mark = .done t) : t.memQueue = s.memQueue := by
  simp only [State.rocePut] at e
  split at e
  · split at e
    · exact State.egress_memQueue e
    · cases e; rfl
  · exact State.egress_memQueue e

@[simp] theorem State.evict_keeps {s : State} {k : Nat} (hk : Keeps old s.memQueue) : Keeps old (s.evict k).memQueue := by
  simp only [State.evict]
  repeat' split
  all_goals simp [hk]

@[simp] theorem State.touchQp_memQueue (s : State) (k : Nat) : (s.touchQp k).memQueue = s.memQueue := by
  simp [State.touchQp]

theorem State.fetchQp_keeps {s t : State} {k : Nat} (hk : Keeps old s.memQueue) (e : s.fetchQp k = some t) : Keeps old t.memQueue := by
  simp only [State.fetchQp] at e
  split at e
  · cases e
  · split at e
    · cases e
      simpa using hk
    · obtain ⟨u, hu, rfl⟩ := Option.map_eq_some_iff.mp e
      split at hu
      · cases hu
        simpa using hk
      · obtain ⟨v, -, rfl⟩ := Option.map_eq_some_iff.mp hu
        simp [hk]

@[simp] theorem State.qpError_memQueue (s : State) (k : Nat) (blame : Option (Nat × Nat × Nat)) :
    (s.qpError k blame).memQueue = s.memQueue := by
  simp [State.qpError]

@[simp] theorem State.engEnds_memQueue (s : State) (r : WorkReq) : (s.engEnds r).memQueue = s.memQueue := (rfl)

@[simp] theorem State.passReq_keeps {s : State} {k : Nat} (hk : Keeps old s.memQueue) : Keeps old (s.passReq k).memQueue := by
  simp only [State.passReq]
  split
  · exact hk
  · split
    · exact hk
    · split
      · simp [hk]
      · split
        next e => exact (State.writeBy_keeps (by simpa using hk)).fst e
        next t _ e =>
          have h1 : Keeps old t.memQueue := (State.writeBy_keeps (by simpa using hk)).fst e
          simpa using h1

@[simp] theorem State.retire_keeps {s : State} {k n : Nat} (hk : Keeps old s.memQueue) : Keeps old (s.retire k n).memQueue := by
  induction n generalizing s with
  | zero => exact hk
  | succ n ih =>
    simp only [State.retire]
    split
    · split
      · exact ih (State.passReq_keeps hk)
      · exact hk
    · exact hk

@[simp] theorem State.retireAll_keeps {s : State} {k : Nat} (hk : Keeps old s.memQueue) : Keeps old (s.retireAll k).memQueue := by
  unfold State.retireAll
  split <;> simp [hk]

@[simp] theorem State.sample_memQueue (s : State) (k rtt b : Nat) : (s.sample k rtt b).memQueue = s.memQueue := by
  unfold State.sample
  split <;> simp

/-! ## Queue pairs -/

/-- Whatever became of a packet to send, the state it left keeps both. -/
def SendRes.Keeps (old : MemQueue) : SendRes → Prop
  | .wait => True
  | .failed s => Machine.Keeps old s.memQueue
  | .sent s => Machine.Keeps old s.memQueue

theorem SendRes.Keeps.sent {r : SendRes} {t : State} (hr : r.Keeps old) (e : r = .sent t) : Machine.Keeps old t.memQueue := by
  subst e
  exact hr

theorem SendRes.Keeps.failed {r : SendRes} {t : State} (hr : r.Keeps old) (e : r = .failed t) : Machine.Keeps old t.memQueue := by
  subst e
  exact hr

theorem State.sendRequest_keeps {s : State} {k : Nat} {q : Qp} {x : ReqPkt} (hk : Keeps old s.memQueue) :
    (s.sendRequest k q x).Keeps old := by
  unfold State.sendRequest
  split
  · exact (by simpa using hk : Keeps old (s.rmaStat q.home 5).memQueue)
  · extract_lets got lane plen bth
    have hg : Keeps old got.1.memQueue := by
      simp only [got]
      split <;> simp [hk]
    clear_value got
    clear_value lane
    split
    next => exact hg
    next s1 pt =>
      extract_lets body
      have hb {b : List Byte} {t : State} (e : body = some (b, t)) : Keeps old t.memQueue := by
        simp only [body] at e
        split at e
        · rw [State.sealPacket_memQueue e]
          exact hg
        · cases e
          exact hg
      clear_value body
      split
      next => exact hg
      next =>
        split
        next => trivial
        next t et =>
          have h1 : Keeps old t.memQueue := by
            rw [State.rocePut_memQueue et]
            exact hb rfl
          exact h1

theorem State.sendOne_keeps {s : State} {k : Nat} (hk : Keeps old s.memQueue) : (s.sendOne k).Keeps old := by
  unfold State.sendOne
  split
  · trivial
  · split
    · trivial
    · split
      · trivial
      · extract_lets starts
        split
        · trivial
        · split
          · trivial
          next t e =>
            have h1 : Keeps old t.memQueue := State.fetchQp_keeps hk e
            split
            · trivial
            next u e =>
              have h2 : Keeps old u.memQueue := (State.sendRequest_keeps h1).failed e
              exact State.retireAll_keeps (by simpa using h2)
            next u e =>
              have h2 : Keeps old u.memQueue := (State.sendRequest_keeps h1).sent e
              exact .ite (by simpa using h2) (by simpa using h2)

@[simp] theorem State.pumpResend_keeps {s : State} {k n : Nat} (hk : Keeps old s.memQueue) : Keeps old (s.pumpResend k n).memQueue := by
  induction n generalizing s with
  | zero => exact hk
  | succ n ih =>
    simp only [State.pumpResend]
    split
    · exact hk
    · split
      · split
        next e => exact ih ((State.sendOne_keeps hk).sent e)
        · exact hk
      · exact hk

@[simp] theorem State.resendFrom_keeps {s : State} {k : Nat} {psn : BitVec 24} (hk : Keeps old s.memQueue) :
    Keeps old (s.resendFrom k psn).memQueue := by
  unfold State.resendFrom
  split <;> simp [hk]

@[simp] theorem State.ackUpTo_keeps {s : State} {k : Nat} {psn : BitVec 24} {stamp : Option Nat} (hk : Keeps old s.memQueue) :
    Keeps old (s.ackUpTo k psn stamp).memQueue := by
  simp only [State.ackUpTo]
  repeat' split
  all_goals simp [hk]

@[simp] theorem State.ackArrives_keeps {s : State} {k : Nat} {pk : RocePkt} (hk : Keeps old s.memQueue) :
    Keeps old (s.ackArrives k pk).memQueue := by
  unfold State.ackArrives
  repeat' split
  all_goals simp [hk]

@[simp] theorem State.responseArrives_keeps {s : State} {k : Nat} {pk : RocePkt} (hk : Keeps old s.memQueue) :
    Keeps old (s.responseArrives k pk).memQueue := by
  unfold State.responseArrives
  split
  · exact hk
  · split
    · exact hk
    · extract_lets m n plain fail place zero clear
      have hf {t : State} (ht : Keeps old t.memQueue) : Keeps old (fail t).memQueue := State.retireAll_keeps (by simpa using ht)
      have hz {t : State} (ht : Keeps old t.memQueue) : Keeps old (zero t).memQueue := .ite ht (State.writeBy_keeps ht)
      clear_value fail zero clear
      split
      · exact hk
      · split
        · exact hf hk
        · exact hf (by simpa using hz hk)
        · extract_lets out
          have ho : Keeps old out.1.memQueue := by
            simp only [out]
            split
            · exact hk
            · exact State.writeBy_keeps hk
          clear_value out
          split
          · exact hf ho
          next u _ =>
            extract_lets u1 u2 u3
            have h1 : Keeps old u1.memQueue := by simpa [u1] using State.ackUpTo_keeps ho
            have h2 : Keeps old u2.memQueue := by
              simp only [u2]
              split
              · split <;> simp [h1]
              · exact h1
            exact State.retireAll_keeps (by simpa [u3] using h2)

@[simp] theorem State.aethSent_keeps {s : State} {k home syndrome : Nat} (hk : Keeps old s.memQueue) :
    Keeps old (s.aethSent k home syndrome).memQueue := by
  simp [State.aethSent, hk]

@[simp] theorem State.sendAeth_keeps {s : State} {k : Nat} {q : Qp} {psn : BitVec 24} {syndrome : Nat} (hk : Keeps old s.memQueue) :
    Keeps old (s.sendAeth k q psn syndrome).memQueue := by
  simp only [State.sendAeth]
  split
  · simp [hk]
  · split
    next t e =>
      have h1 : Keeps old t.memQueue := by rwa [State.rocePut_memQueue e]
      simp [h1]
    · simp [hk]

@[simp] theorem State.payOwed_keeps {s : State} {k : Nat} (hk : Keeps old s.memQueue) : Keeps old (s.payOwed k).memQueue := by
  simp only [State.payOwed]
  split
  · exact hk
  · split
    · exact hk
    · split
      · simp [hk]
      · split
        next t e =>
          have h1 : Keeps old t.memQueue := by
            rw [State.rocePut_memQueue e]
            simpa using hk
          simp [h1]
        · exact hk

@[simp] theorem State.sendAck_keeps {s : State} {k : Nat} (hk : Keeps old s.memQueue) : Keeps old (s.sendAck k).memQueue := by
  unfold State.sendAck
  split <;> simp [hk]

@[simp] theorem State.nakAt_keeps {s : State} {k code : Nat} {psn : BitVec 24} (hk : Keeps old s.memQueue) :
    Keeps old (s.nakAt k code psn).memQueue := by
  unfold State.nakAt
  split <;> simp [hk]

@[simp] theorem State.nak_keeps {s : State} {k code : Nat} (hk : Keeps old s.memQueue) : Keeps old (s.nak k code).memQueue := by
  unfold State.nak
  split <;> simp [hk]

@[simp] theorem State.accepted_keeps {s : State} {k n : Nat} {ackReq ends : Bool} (hk : Keeps old s.memQueue) :
    Keeps old (s.accepted k n ackReq ends).memQueue := by
  simp [State.accepted, hk]

@[simp] theorem State.writeInOrder_keeps {s : State} {k : Nat} {q : Qp} {pk : RocePkt} (hk : Keeps old s.memQueue) :
    Keeps old (s.writeInOrder k q pk).memQueue := by
  unfold State.writeInOrder
  extract_lets m n first ends msg clear
  clear_value msg clear
  split
  · simp [hk]
  next g _ =>
    extract_lets lenOk rest
    split
    · simp [hk]
    · split
      · simp [hk]
      · split
        · simp [hk]
        · split
          · simp [hk]
          · exact State.nak_keeps (by simpa using State.writeBy_keeps hk)
          · split
            next e => exact State.nak_keeps (by simpa using (State.writeBy_keeps hk).fst e)
            next e => exact State.nak_keeps ((State.writeBy_keeps hk).fst e)
            next e => exact State.accepted_keeps (by simpa using (State.writeBy_keeps hk).fst e)

theorem State.sendResponse_keeps {s t : State} {k : Nat} (hk : Keeps old s.memQueue) (e : s.sendResponse k = some t) :
    Keeps old t.memQueue := by
  unfold State.sendResponse at e
  split at e
  · cases e
  · split at e
    · cases e
    · split at e
      · cases e
        simpa using hk
      · extract_lets m n at e
        split at e
        next er =>
          cases e
          exact State.nakAt_keeps (by simpa using hk.fst_same (State.readBy_memQueue ..) er)
        next er =>
          cases e
          exact State.nakAt_keeps (hk.fst_same (State.readBy_memQueue ..) er)
        next s1 pt er =>
          have h1 : Keeps old s1.memQueue := hk.fst_same (State.readBy_memQueue ..) er
          extract_lets body at e
          have hb {b : List Byte} {u : State} (eb : body = some (b, u)) : Keeps old u.memQueue := by
            simp only [body] at eb
            split at eb
            · rw [State.sealPacket_memQueue eb]
              exact h1
            · cases eb
              exact h1
          clear_value body
          split at e
          · cases e
            exact State.nakAt_keeps h1
          next =>
            split at e
            · cases e
            next u eu =>
              cases e
              simp [State.rocePut_memQueue eu, hb rfl]

@[simp] theorem State.pumpResponses_keeps {s : State} {k n : Nat} (hk : Keeps old s.memQueue) :
    Keeps old (s.pumpResponses k n).memQueue := by
  induction n generalizing s with
  | zero => exact hk
  | succ n ih =>
    simp only [State.pumpResponses]
    split
    next e => exact ih (State.sendResponse_keeps hk e)
    · exact hk

@[simp] theorem State.readRequest_keeps {s : State} {k : Nat} {q : Qp} {pk : RocePkt} {fresh : Bool} (hk : Keeps old s.memQueue) :
    Keeps old (s.readRequest k q pk fresh).memQueue := by
  simp [State.readRequest, hk]

@[simp] theorem State.requestArrives_keeps {s : State} {k : Nat} {pk : RocePkt} (hk : Keeps old s.memQueue) :
    Keeps old (s.requestArrives k pk).memQueue := by
  unfold State.requestArrives
  split <;> simp [hk]

@[simp] theorem State.applyPkt_keeps {s : State} {k : Nat} {pk : RocePkt} (hk : Keeps old s.memQueue) :
    Keeps old (s.applyPkt k pk).memQueue := by
  simp [State.applyPkt, hk]

@[simp] theorem State.park_memQueue (s : State) (k : Nat) (q : Qp) (pk : RocePkt) : (s.park k q pk).memQueue = s.memQueue := by
  simp [State.park]

@[simp] theorem State.engineAt_keeps {s : State} {die : Nat} {pk : RocePkt} (hk : Keeps old s.memQueue) :
    Keeps old (s.engineAt die pk).memQueue := by
  unfold State.engineAt
  repeat' split
  all_goals simp [hk]

@[simp] theorem State.crossRoce_memQueue (s : State) (die home k : Nat) (pk : RocePkt) :
    (s.crossRoce die home k pk).memQueue = s.memQueue := by
  simp [State.crossRoce]

@[simp] theorem State.crossRoceIn_keeps {s : State} {d : Nat} {fl : Flit} (hk : Keeps old s.memQueue) :
    Keeps old (s.crossRoceIn d fl).memQueue := by
  simp only [State.crossRoceIn]
  repeat' split
  all_goals simp [hk]

@[simp] theorem State.engineTakes_keeps {s : State} {link : Nat} {pk : RocePkt} (hk : Keeps old s.memQueue) :
    Keeps old (s.engineTakes link pk).memQueue := by
  unfold State.engineTakes
  split <;> simp [hk]

@[simp] theorem State.roceIn_keeps {s : State} {link : Nat} {pk : RocePkt} {ops : List Nat} (hk : Keeps old s.memQueue) :
    Keeps old (s.roceIn link pk ops).memQueue := by
  simp [State.roceIn, hk]

theorem execRoceWriteReceive_keeps {s : State} {link : Nat} {pk : RocePkt} (hk : Keeps old s.memQueue) :
    KeepsNext old (execRoceWriteReceive link pk s) := by
  simp [execRoceWriteReceive, hk]

theorem execRoceReadRequestReceive_keeps {s : State} {link : Nat} {pk : RocePkt} (hk : Keeps old s.memQueue) :
    KeepsNext old (execRoceReadRequestReceive link pk s) := by
  simp [execRoceReadRequestReceive, hk]

theorem execRoceReadResponseReceive_keeps {s : State} {link : Nat} {pk : RocePkt} (hk : Keeps old s.memQueue) :
    KeepsNext old (execRoceReadResponseReceive link pk s) := by
  simp [execRoceReadResponseReceive, hk]

theorem execRoceAckReceive_keeps {s : State} {link : Nat} {pk : RocePkt} (hk : Keeps old s.memQueue) :
    KeepsNext old (execRoceAckReceive link pk s) := by
  simp [execRoceAckReceive, hk]

theorem execContextFetchDone_keeps {s : State} {qp : Nat} (hk : Keeps old s.memQueue) : KeepsNext old (execContextFetchDone qp s) := by
  simp only [execContextFetchDone, keepsNext_next]
  split
  · exact hk
  · split
    · exact hk
    · split
      · exact hk
      next t e =>
        have h1 : Keeps old t.memQueue := State.fetchQp_keeps hk e
        simp [h1]

@[simp] theorem State.readSendProd_keeps {s : State} {k : Nat} (hk : Keeps old s.memQueue) : Keeps old (s.readSendProd k).memQueue := by
  simp only [State.readSendProd]
  split
  · exact hk
  · split
    next t _ e =>
      have h1 : Keeps old t.memQueue := hk.fst_same (State.readBy_memQueue ..) e
      simp [h1]
    next t _ e =>
      have h1 : Keeps old t.memQueue := hk.fst_same (State.readBy_memQueue ..) e
      split <;> simp [h1]

@[simp] theorem State.ringQp_keeps {s : State} {i k : Nat} (hk : Keeps old s.memQueue) : Keeps old (s.ringQp i k).memQueue := by
  unfold State.ringQp
  split <;> simp [hk]

@[simp] theorem State.localOk_memQueue (s : State) (qp i a n : Nat) (write : Bool) :
    (s.localOk qp i a n write).1.memQueue = s.memQueue := by
  unfold State.localOk
  split <;> simp

theorem execWorkRequestFetch_keeps {s : State} {qp : Nat} (hk : Keeps old s.memQueue) : KeepsNext old (execWorkRequestFetch qp s) := by
  rw [execWorkRequestFetch, keepsNext_next]
  split
  · exact hk
  · split
    · exact hk
    · split
      · exact hk
      · split
        next t _ e =>
          have h1 : Keeps old t.memQueue := hk.fst_same (State.readBy_memQueue ..) e
          simp [h1]
        next t _ e =>
          have h1 : Keeps old t.memQueue := hk.fst_same (State.readBy_memQueue ..) e
          simp only
          split
          · simp [h1]
          · split <;> split <;> simp [h1]

theorem State.postEngine_memQueue {s t : State} {k i op raddr rkey len n : Nat} {data : List Byte}
    (e : s.postEngine k i op raddr rkey len data = some (t, n)) : t.memQueue = s.memQueue := by
  simp only [State.postEngine] at e
  split at e
  · cases e
  · split at e
    · cases e
    · cases e
      simp

theorem execRocePacketSend_keeps {s : State} {qp : Nat} (hk : Keeps old s.memQueue) : KeepsNext old (execRocePacketSend qp s) := by
  rw [execRocePacketSend, keepsNext_next]
  split
  · exact hk
  · split
    · simp [hk]
    · split
      · cases e : s.sendResponse qp with
        | none => exact hk
        | some t => exact State.sendResponse_keeps hk e
      · split
        next e => exact (State.sendOne_keeps hk).sent e
        · exact hk

theorem execRoceRetransmitTimeout_keeps {s : State} {qp : Nat} (hk : Keeps old s.memQueue) :
    KeepsNext old (execRoceRetransmitTimeout qp s) := by
  simp only [execRoceRetransmitTimeout, keepsNext_next]
  repeat' split
  all_goals simp [hk]

theorem execRoceAckTimer_keeps {s : State} {qp : Nat} (hk : Keeps old s.memQueue) : KeepsNext old (execRoceAckTimer qp s) := by
  simp only [execRoceAckTimer, keepsNext_next]
  repeat' split
  all_goals simp [hk]

theorem execBaseDelayRefresh_keeps {s : State} (hk : Keeps old s.memQueue) : KeepsNext old (execBaseDelayRefresh s) := by
  simp [execBaseDelayRefresh, hk]

theorem execCompletionEntryWrite_keeps {s : State} {qp : Nat} (hk : Keeps old s.memQueue) :
    KeepsNext old (execCompletionEntryWrite qp s) := by
  simp only [execCompletionEntryWrite, keepsNext_next]
  split
  · exact hk
  · split
    · exact hk
    · split
      · simp [hk]
      · split
        · simp [hk]
        · split
          · split <;> simp [hk]
          · exact hk
          · split
            next t _ e =>
              have h1 : Keeps old t.memQueue := (State.writeBy_keeps (by simpa using hk)).fst e
              split <;> simp [h1]
            next t _ e =>
              have h1 : Keeps old t.memQueue := (State.writeBy_keeps (by simpa using hk)).fst e
              split
              next u _ e =>
                have h2 : Keeps old u.memQueue := (State.writeBy_keeps h1).fst e
                split <;> simp [h2]
              next u _ e =>
                have h2 : Keeps old u.memQueue := (State.writeBy_keeps h1).fst e
                exact State.retireAll_keeps (State.passReq_keeps (by simpa using h2))

@[simp] theorem State.doorbells_keeps {s : State} {i : Nat} {d : DbRing} {n cons prod : Nat} (hk : Keeps old s.memQueue) :
    Keeps old (s.doorbells i d n cons prod).1.memQueue := by
  induction n generalizing s cons with
  | zero => exact hk
  | succ n ih =>
    simp only [State.doorbells]
    split
    · exact hk
    · split
      next e => exact hk.fst_same (State.readBy_memQueue ..) e
      next t _ e =>
        have h1 : Keeps old t.memQueue := hk.fst_same (State.readBy_memQueue ..) e
        exact ih (by simp [h1])

@[simp] theorem State.stopDb_memQueue (s : State) (i : Nat) (d : DbRing) : (s.stopDb i d).memQueue = s.memQueue := (rfl)

theorem execDoorbellRingPoll_keeps {s : State} {i : Nat} (hk : Keeps old s.memQueue) : KeepsNext old (execDoorbellRingPoll i s) := by
  simp only [execDoorbellRingPoll, keepsNext_next]
  split
  · exact hk
  · split
    · exact hk
    · split
      next t _ e =>
        have h1 : Keeps old t.memQueue := hk.fst_same (State.readBy_memQueue ..) e
        simp [h1]
      next t _ e =>
        have h1 : Keeps old t.memQueue := hk.fst_same (State.readBy_memQueue ..) e
        split
        · simp [h1]
        · split
          next u e => 
            have h2 : Keeps old u.memQueue := (State.doorbells_keeps h1).fst e
            simp [h2]
          next u _ e =>
            have h2 : Keeps old u.memQueue := (State.doorbells_keeps h1).fst e
            split
            next v e => exact (State.writeBy_keeps (by simpa using h2)).fst e
            next v _ e =>
              have h3 : Keeps old v.memQueue := (State.writeBy_keeps (by simpa using h2)).fst e
              simp [h3]

/-! ## Operations of the storage queue engine -/

@[simp] theorem State.putNs_memQueue (s : State) (n : Nat) (x : Namespace) : (s.putNs n x).memQueue = s.memQueue := (rfl)

@[simp] theorem State.putCmd_memQueue (s : State) (id : Nat) (c : NvCmd) : (s.putCmd id c).memQueue = s.memQueue := (rfl)

@[simp] theorem State.dropCmd_memQueue (s : State) (id : Nat) : (s.dropCmd id).memQueue = s.memQueue := (rfl)

@[simp] theorem State.nvStat_memQueue (s : State) (n : Nat) : (s.nvStat n).memQueue = s.memQueue := (rfl)

@[simp] theorem State.putSq_memQueue (s : State) (i y : Nat) (q : NvSq) : (s.putSq i y q).memQueue = s.memQueue := (rfl)

@[simp] theorem State.putCq_memQueue (s : State) (i y : Nat) (q : NvCq) : (s.putCq i y q).memQueue = s.memQueue := (rfl)

@[simp] theorem State.ctrlWrite_keeps {s : State} {i a : Nat} {bs : List Byte} (hk : Keeps old s.memQueue) :
    Keeps old (s.ctrlWrite i a bs).1.memQueue := by
  simp only [State.ctrlWrite]
  split
  · split
    · exact State.busWrite_keeps hk
    · exact hk
  · split
    next e => exact (State.writeBy_keeps hk).fst e
    next e => simpa using (State.writeBy_keeps hk).fst e
    next e => exact (State.writeBy_keeps hk).fst e

@[simp] theorem State.ctrlRead_memQueue (s : State) (i a n : Nat) : (s.ctrlRead i a n).1.memQueue = s.memQueue := by
  simp only [State.ctrlRead]
  split
  · split
    · split <;> simp
    · rfl
  · split
    next e => simp [memQueue_fst e]
    next e => simp [memQueue_fst e]
    next e => simp [memQueue_fst e]

@[simp] theorem State.ctrlPut_keeps {s : State} {i : Nat} {l : List (Nat × Nat)} {bs : List Byte} (hk : Keeps old s.memQueue) :
    Keeps old (s.ctrlPut i l bs).1.memQueue := by
  induction l generalizing s bs with
  | nil => exact hk
  | cons p l ih =>
    simp only [State.ctrlPut]
    split
    · exact hk
    · split
      next e => exact ih ((State.ctrlWrite_keeps hk).fst e)
      next => exact State.ctrlWrite_keeps hk

@[simp] theorem State.ctrlGet_memQueue (s : State) (i : Nat) (l : List (Nat × Nat)) : (s.ctrlGet i l).1.memQueue = s.memQueue := by
  induction l generalizing s with
  | nil => rfl
  | cons p l ih =>
    simp only [State.ctrlGet]
    split
    next e => simp [memQueue_fst e]
    next e =>
      split
      next e2 => rw [memQueue_fst e2, ih, memQueue_fst e, State.ctrlRead_memQueue]
      next => rw [ih, memQueue_fst e, State.ctrlRead_memQueue]

@[simp] theorem State.cqSignal_memQueue (s : State) (i y : Nat) : (s.cqSignal i y).memQueue = s.memQueue := by
  unfold State.cqSignal
  repeat' split
  all_goals simp

@[simp] theorem State.errorEntry_memQueue (s : State) (i y cid sct sc : Nat) : (s.errorEntry i y cid sct sc).memQueue = s.memQueue := (rfl)

@[simp] theorem State.writeCqe_keeps {s : State} {i n : Nat} {q : NvCq} {e : List Byte} (hk : Keeps old s.memQueue) :
    Keeps old (s.writeCqe i n q e).1.memQueue := by
  simp only [State.writeCqe]
  split
  next e => simpa using (State.ctrlWrite_keeps hk).fst e
  next e => exact (State.ctrlWrite_keeps hk).fst e

@[simp] theorem State.takeAen_memQueue (s : State) (i typ : Nat) (dw : BitVec 32) : (s.takeAen i typ dw).1.memQueue = s.memQueue := by
  simp only [State.takeAen]
  repeat' split
  all_goals simp

@[simp] theorem State.loseCqe_memQueue (s : State) (i : Nat) : (s.loseCqe i).memQueue = s.memQueue := (rfl)

@[simp] theorem State.freezePair_memQueue (s : State) (i y cause : Nat) : (s.freezePair i y cause).memQueue = s.memQueue := by
  simp only [State.freezePair]
  repeat' split
  all_goals simp

@[simp] theorem State.putCqe_keeps {s : State} {i y : Nat} {e : List Byte} (hk : Keeps old s.memQueue) :
    Keeps old (s.putCqe i y e).memQueue := by
  simp only [State.putCqe]
  split
  · exact hk
  · split
    · simpa using hk
    · split
      · simpa using hk
      · split
        next e => exact (State.writeCqe_keeps hk).fst e
        next e => simpa using (State.writeCqe_keeps hk).fst e

@[simp] theorem State.drainCq_keeps {s : State} {i y n : Nat} (hk : Keeps old s.memQueue) : Keeps old (s.drainCq i y n).memQueue := by
  induction n generalizing s with
  | zero => exact hk
  | succ n ih =>
    simp only [State.drainCq]
    split
    · exact hk
    · split
      · exact hk
      · split
        · exact hk
        · split
          next e => exact ih ((State.writeCqe_keeps hk).fst e)
          next e => simpa using (State.writeCqe_keeps hk).fst e

@[simp] theorem State.nvDone_keeps {s : State} {i y cid dw0 sct sc : Nat} (hk : Keeps old s.memQueue) :
    Keeps old (s.nvDone i y cid dw0 sct sc).memQueue := by
  simp [State.nvDone, hk]

@[simp] theorem State.asyncEvent_keeps {s : State} {i typ info log : Nat} (hk : Keeps old s.memQueue) :
    Keeps old (s.asyncEvent i typ info log).memQueue := by
  simp only [State.asyncEvent]
  split
  next e => exact State.nvDone_keeps (hk.fst_same (State.takeAen_memQueue ..) e)
  next e => exact hk.fst_same (State.takeAen_memQueue ..) e

@[simp] theorem State.freeze_keeps {s : State} {i y cause : Nat} (hk : Keeps old s.memQueue) : Keeps old (s.freeze i y cause).memQueue := by
  simp [State.freeze, hk]

@[simp] theorem State.nsChanged_keeps {s : State} {i n : Nat} (hk : Keeps old s.memQueue) : Keeps old (s.nsChanged i n).memQueue := by
  simp [State.nsChanged, hk]

@[simp] theorem State.drivesPower_memQueue (s : State) : (s.drivesPower).memQueue = s.memQueue := by
  simp [State.drivesPower]

@[simp] theorem State.nvDoorbell_keeps {s : State} {i y : Nat} {isCq : Bool} {v : Nat} (hk : Keeps old s.memQueue) :
    Keeps old (s.nvDoorbell i y isCq v).memQueue := by
  unfold State.nvDoorbell
  repeat' split
  all_goals simp [hk]

theorem State.arbiter_memQueue {s t : State} {ev : Option (Nat × Nat × List Byte)} {i y : Nat} (e : s.arbiter ev = some (i, y, t)) :
    t.memQueue = s.memQueue := by
  unfold State.arbiter at e
  extract_lets cs low tier qs at e
  split at e
  · cases e
  · split at e
    · cases e
    · cases e
      rfl

@[simp] theorem State.arbEmpty_memQueue (s : State) (i y : Nat) : (s.arbEmpty i y).memQueue = s.memQueue := (rfl)

@[simp] theorem State.prpList_memQueue (s : State) (i fuel a n : Nat) : (s.prpList i fuel a n).1.memQueue = s.memQueue := by
  induction fuel generalizing s a n with
  | zero => rfl
  | succ fuel ih =>
    simp only [State.prpList]
    split
    · simp
    · split
      · simp
      · split
        next e => rw [memQueue_fst e, ih, State.ctrlRead_memQueue]
        next => rw [ih, State.ctrlRead_memQueue]

@[simp] theorem State.prps_memQueue (s : State) (i : Nat) (e : List Byte) (list : List Nat) (n : Nat) (wr : Bool) :
    (s.prps i e list n wr).1.memQueue = s.memQueue := by
  unfold State.prps
  extract_lets p1 p2 n1 rest
  split
  · rfl
  · split
    next t tail ht =>
      have h1 : t.memQueue = s.memQueue := by
        split at ht
        · cases ht
          rfl
        · split at ht
          · cases ht
            rfl
          · split at ht
            · cases ht
              rfl
            · split at ht
              next er =>
                cases ht
                simp [memQueue_fst er]
              next er =>
                cases ht
                simp [memQueue_fst er]
      split
      · exact h1
      · extract_lets ps
        split
        · simpa using h1
        · exact h1

@[simp] theorem State.newId_memQueue (s : State) : (s.newId).2.memQueue = s.memQueue := (rfl)

@[simp] theorem State.driveCmd_memQueue (s : State) (p ns : Nat) (op : NvOp) (flag : Bool) (slba nlb : Nat) (data : List Byte)
    (id len : Nat) : (s.driveCmd p ns op flag slba nlb data id len).memQueue = s.memQueue := (rfl)

@[simp] theorem State.nvBack_memQueue (s : State) (id : Nat) (c : NvCmd) (x : Namespace) : (s.nvBack id c x).1.memQueue = s.memQueue := by
  simp only [State.nvBack]
  split
  · split <;> simp
  · split
    · split
      next er =>
        split at er
        · simp [State.postEngine_memQueue er]
        · simp [State.postEngine_memQueue er]
        · simp [State.postEngine_memQueue er]
        · cases er
      all_goals simp
    · simp

/-! ## NVMe commands and controllers -/

@[simp] theorem State.startFlushes_keeps {s : State} (hk : Keeps old s.memQueue) : Keeps old s.startFlushes.memQueue := by
  simp only [State.startFlushes]
  refine foldl_keeps (fun s e => ?_) hk
  split
  · split
    · simp
    · split
      next eb => simp [memQueue_fst eb]
      next eb => exact State.nvDone_keeps (by simp [memQueue_fst eb])
  · simp

@[simp] theorem State.finishDeletes_keeps {s : State} {i : Nat} (hk : Keeps old s.memQueue) : Keeps old (s.finishDeletes i).memQueue := by
  simp only [State.finishDeletes]
  refine foldl_keeps (fun s e => ?_) hk
  split
  · split <;> simp
  · simp

@[simp] theorem State.finishNvAborts_keeps {s : State} {i : Nat} (hk : Keeps old s.memQueue) : Keeps old (s.finishNvAborts i).memQueue := by
  simp [State.finishNvAborts, hk]

@[simp] theorem State.zeroNs_keeps {s : State} {w : Waiter} {n : Nat} (hk : Keeps old s.memQueue) : Keeps old (s.zeroNs w n).memQueue := by
  unfold State.zeroNs
  split <;> simp [hk]

@[simp] theorem State.finishCloses_keeps {s : State} (hk : Keeps old s.memQueue) : Keeps old (s.finishCloses).memQueue := by
  simp [State.finishCloses, hk]

@[simp] theorem State.hostEnable_memQueue (s : State) (i : Nat) (cc : BitVec 32) : (s.hostEnable i cc).memQueue = s.memQueue := by
  simp [State.hostEnable]

@[simp] theorem State.ctrlOff_keeps {s : State} {i : Nat} (hk : Keeps old s.memQueue) : Keeps old (s.ctrlOff i).memQueue := by
  simp only [State.ctrlOff]
  repeat' split
  all_goals simp [hk]

@[simp] theorem State.shutOn_keeps {s : State} {i : Nat} (hk : Keeps old s.memQueue) : Keeps old (s.shutOn i).memQueue := by
  simp only [State.shutOn]
  repeat' split
  all_goals simp [hk]

@[simp] theorem State.nvAfter_keeps {s : State} {i : Nat} (hk : Keeps old s.memQueue) : Keeps old (s.nvAfter i).memQueue := by
  unfold State.nvAfter
  extract_lets s1 s2 s3
  have h1 : Keeps old s1.memQueue := State.finishCloses_keeps (State.finishNvAborts_keeps (by simp [hk]))
  have h2 : Keeps old s2.memQueue := .ite (State.ctrlOff_keeps h1) h1
  have h3 : Keeps old s3.memQueue := State.shutOn_keeps h2
  split
  · simpa using h3
  · exact h3

@[simp] theorem State.nvCharge_memQueue (s : State) (c : NvCmd) (x : Namespace) : (s.nvCharge c x).memQueue = s.memQueue := by
  simp [State.nvCharge]

@[simp] theorem State.nvEnd_keeps {s : State} {id : Nat} {c : NvCmd} {st : Nat × Nat} (hk : Keeps old s.memQueue) :
    Keeps old (s.nvEnd id c st).memQueue := by
  simp only [State.nvEnd]
  repeat' split
  all_goals simp [hk]

@[simp] theorem State.nvStart_keeps {s : State} {id : Nat} (hk : Keeps old s.memQueue) : Keeps old (s.nvStart id).memQueue := by
  simp only [State.nvStart]
  split
  · exact hk
  · split
    · simp [hk]
    · split
      next e => exact hk.fst_same (State.nvBack_memQueue ..) e
      next e => exact State.nvEnd_keeps (hk.fst_same (State.nvBack_memQueue ..) e)

@[simp] theorem State.nvDeliver_keeps {s : State} {id : Nat} {c : NvCmd} {x : Namespace} {data : List Byte} {good : Nat}
    {bad : Option (Nat × Nat)} (hk : Keeps old s.memQueue) : Keeps old (s.nvDeliver id c x data good bad).memQueue := by
  simp only [State.nvDeliver]
  refine .ite (State.nvEnd_keeps hk) (.ite (State.nvEnd_keeps hk) ?_)
  split
  next e => exact State.nvEnd_keeps ((State.ctrlPut_keeps hk).fst e)
  next e => exact State.nvEnd_keeps ((State.ctrlPut_keeps hk).fst e)

@[simp] theorem State.hbmBack_keeps {s : State} {id : Nat} {c : NvCmd} {x : Namespace} {o : ReadOutcome} (hk : Keeps old s.memQueue) :
    Keeps old (s.hbmBack id c x o).memQueue := by
  simp only [State.hbmBack]
  split
  · exact State.nvEnd_keeps hk
  · exact State.nvDeliver_keeps (.ite (by simpa using hk) (by simpa using hk))
  · split
    next t e =>
      have h1 : Keeps old t.memQueue := State.saveAt_keeps hk e
      exact State.nvEnd_keeps (by simp [h1])
    next => exact State.nvEnd_keeps hk
  · split
    next t e =>
      have h1 : Keeps old t.memQueue := State.saveAt_keeps hk e
      exact State.nvEnd_keeps (by simp [h1])
    next => exact State.nvEnd_keeps hk
  · refine State.nvEnd_keeps ?_
    rw [State.busWrote_memQueue]
    refine foldl_keeps (fun s r => ?_) hk
    split
    next e => exact State.saveAt_keeps (by simp) e
    next => simp

@[simp] theorem State.outerBack_keeps {s : State} {id : Nat} {c : NvCmd} {x : Namespace} {r : BackingResult} (hk : Keeps old s.memQueue) :
    Keeps old (s.outerBack id c x r).memQueue := by
  simp only [State.outerBack]
  split <;> simp [hk]

@[simp] theorem State.peerBack_keeps {s : State} {id : Nat} {c : NvCmd} {x : Namespace} (hk : Keeps old s.memQueue) :
    Keeps old (s.peerBack id c x).memQueue := by
  unfold State.peerBack
  repeat' split
  all_goals simp [hk]

theorem execBackingComplete_keeps {s : State} {id : Nat} {o : ReadOutcome} (hk : Keeps old s.memQueue) :
    KeepsNext old (execBackingComplete id o s) := by
  simp only [execBackingComplete, keepsNext_next]
  repeat' split
  all_goals simp [hk]

@[simp] theorem State.answer_keeps {s : State} {q : Fetched} {dw0 sct sc : Nat} (hk : Keeps old s.memQueue) :
    Keeps old (s.answer q dw0 sct sc).memQueue := by
  simp [State.answer, hk]

/-- A command fetched: `k` keeps both, so its fetch does. -/
theorem State.nvFetch_keeps {s : State} {e : NvmeFetch} {admin : Bool} {op : Nat} {k : State → Fetched → State}
    (hk : Keeps old s.memQueue) (hr : ∀ s q, Keeps s.memQueue (k s q).memQueue) : Keeps old (s.nvFetch e admin op k).memQueue := by
  unfold State.nvFetch
  split
  · exact hk
  · split
    · exact hk
    · extract_lets s0
      split
      next s1 entry e1 =>
        have h1 : Keeps old s1.memQueue := by
          refine hk.fst_same ?_ e1
          split
          · split
            · rfl
            · split <;> simp
          · simp
        split
        · exact State.freeze_keeps h1
        next b =>
          extract_lets o allowed f
          have ha {t : State} (et : allowed = some t) : Keeps old t.memQueue := by
            simp only [allowed] at et
            split at et
            · cases et
              exact h1
            · split at et
              · cases et
              · split at et
                next ea =>
                  split at et
                  · cases et
                    rwa [State.arbiter_memQueue ea]
                  · cases et
                · cases et
          clear_value allowed
          refine .ite hk ?_
          split
          · exact hk
          next t =>
            have h2 : Keeps old t.memQueue := ha rfl
            extract_lets t1 t2 t3 t4 t5
            have h3 : Keeps old t4.memQueue := by
              have h3 : Keeps old t2.memQueue := .ite (by simpa [t1] using h2) (by simpa [t1] using h2)
              simpa [t4, t3] using h3
            have h4 : Keeps old t5.memQueue := .ite (State.answer_keeps h3) (h3.trans (hr ..))
            exact .ite (by simpa using h3) (State.nvAfter_keeps h4)

@[simp] theorem State.nvIo_keeps {s : State} {q : Fetched} {op : NvOp} {slba nlb bytes : Nat} {more : List (Nat × Nat)} {flag : Bool}
    (hk : Keeps old s.memQueue) : Keeps old (s.nvIo q op slba nlb bytes more flag).memQueue := by
  have ha {t : State} {a b c : Nat} (ht : Keeps old t.memQueue) : Keeps old (t.answer q a b c).memQueue := State.answer_keeps ht
  unfold State.nvIo
  refine .ite (ha hk) ?_
  split
  · exact ha hk
  · refine .ite (ha hk) (.ite (ha hk) (.ite (ha hk) ?_))
    split
    next s1 pages e1 =>
      have h1 : Keeps old s1.memQueue := by
        refine hk.fst_same ?_ e1
        split <;> simp
      split
      · exact ha h1
      next ps =>
        extract_lets key
        refine .ite (ha h1) ?_
        split
        next id s2 e2 =>
          have h2 : Keeps old s2.memQueue := by
            rw [memQueue_snd e2]
            simpa using h1
          split
          extract_lets flag1 writes copies c s3
          have h3 : Keeps old s3.memQueue := by simpa [s3] using h2
          clear_value s3 c
          refine .ite h3 (.ite (.ite ?_ ?_) (State.nvStart_keeps h3))
          · split
            · exact State.nvEnd_keeps h3
            · simp [h3]
          · split
            next e => exact State.nvEnd_keeps (h3.fst_same (State.ctrlGet_memQueue ..) e)
            next t _ e =>
              have h4 : Keeps old t.memQueue := h3.fst_same (State.ctrlGet_memQueue ..) e
              simp [h4]

theorem execNvmFlush_keeps {s : State} {e : NvmeFetch} (hk : Keeps old s.memQueue) : KeepsNext old (execNvmFlush e s) :=
  keepsNext_next.2 <| State.nvFetch_keeps hk fun s q => by simp

theorem execNvmWrite_keeps {s : State} {e : NvmeFetch} (hk : Keeps old s.memQueue) : KeepsNext old (execNvmWrite e s) :=
  keepsNext_next.2 <| State.nvFetch_keeps hk fun s q => by simp

theorem execNvmRead_keeps {s : State} {e : NvmeFetch} (hk : Keeps old s.memQueue) : KeepsNext old (execNvmRead e s) :=
  keepsNext_next.2 <| State.nvFetch_keeps hk fun s q => by simp

theorem execWriteZeroes_keeps {s : State} {e : NvmeFetch} (hk : Keeps old s.memQueue) : KeepsNext old (execWriteZeroes e s) :=
  keepsNext_next.2 <| State.nvFetch_keeps hk fun s q => by simp

theorem execDatasetManagement_keeps {s : State} {e : NvmeFetch} (hk : Keeps old s.memQueue) : KeepsNext old (execDatasetManagement e s) :=
  keepsNext_next.2 <| State.nvFetch_keeps hk fun s q => by
    simp only
    refine .ite (by simp) ?_
    split
    next e => simp [memQueue_fst e]
    next e =>
      split
      next e2 => simp [memQueue_fst e2, memQueue_fst e]
      next t _ e2 =>
        have h1 : Keeps s.memQueue t.memQueue := by simp [memQueue_fst e2, memQueue_fst e]
        split <;> simp [h1]

@[simp] theorem State.ctrlReset_keeps {s : State} {i : Nat} (hk : Keeps old s.memQueue) : Keeps old (s.ctrlReset i).memQueue := by
  simp only [State.ctrlReset]
  refine .ite hk (State.nvAfter_keeps (State.startFlushes_keeps ?_))
  rw [State.modCtrl_memQueue]
  split <;> simp [hk]

@[simp] theorem State.ctrlShut_keeps {s : State} {i : Nat} (hk : Keeps old s.memQueue) : Keeps old (s.ctrlShut i).memQueue := by
  simp [State.ctrlShut, hk]

/-- A write to a function's registers: `k` keeps both, so the access does. -/
theorem State.barWrite_keeps {s : State} {fn : Nat} {k : State → Nat → State} (hk : Keeps old s.memQueue)
    (hr : ∀ s i, Keeps s.memQueue (k s i).memQueue) : Keeps old (s.barWrite fn k).memQueue := by
  simp only [State.barWrite]
  refine .ite hk (.ite (by simpa using hk) ?_)
  split
  · exact hk
  · exact (State.wakeDeep_keeps hk).trans (hr ..)

theorem execCcEnWrite_keeps {s : State} {fn : Nat} {v : BitVec 32} (hk : Keeps old s.memQueue) : KeepsNext old (execCcEnWrite fn v s) :=
  keepsNext_next.2 <| State.barWrite_keeps hk fun s i => by simp

theorem execCcShnWrite_keeps {s : State} {fn : Nat} {v : BitVec 32} (hk : Keeps old s.memQueue) : KeepsNext old (execCcShnWrite fn v s) :=
  keepsNext_next.2 <| State.barWrite_keeps hk fun s i => by simp

theorem execSqDoorbellWrite_keeps {s : State} {fn off : Nat} {v : BitVec 32} (hk : Keeps old s.memQueue) :
    KeepsNext old (execSqDoorbellWrite fn off v s) :=
  keepsNext_next.2 <| State.barWrite_keeps hk fun s i => by simp

theorem execDoorbellAreaPoll_keeps {s : State} {i : Nat} (hk : Keeps old s.memQueue) : KeepsNext old (execDoorbellAreaPoll i s) := by
  simp only [execDoorbellAreaPoll, keepsNext_next]
  refine .ite hk ?_
  split
  next e => exact hk.fst_same (State.ctrlRead_memQueue ..) e
  next t _ e =>
    have h1 : Keeps old t.memQueue := hk.fst_same (State.ctrlRead_memQueue ..) e
    refine State.nvAfter_keeps (foldl_keeps (fun s e => by simp) (foldl_keeps (fun s e => by simp) h1))

theorem execApstIdleExpire_keeps {s : State} {i : Nat} (hk : Keeps old s.memQueue) : KeepsNext old (execApstIdleExpire i s) := by
  simp only [execApstIdleExpire, keepsNext_next]
  split <;> simp [hk]

theorem execAggregationTimeExpire_keeps {s : State} {i cq : Nat} (hk : Keeps old s.memQueue) :
    KeepsNext old (execAggregationTimeExpire i cq s) := by
  simp only [execAggregationTimeExpire, keepsNext_next]
  repeat' split
  all_goals simp [hk]

@[simp] theorem State.endDrive_keeps {s : State} {p : Nat} {st : Nat × Nat} (hk : Keeps old s.memQueue) :
    Keeps old (s.endDrive p st).memQueue := by
  simp only [State.endDrive]
  refine foldl_keeps (fun s e => ?_) (foldl_keeps (fun s e => ?_) hk)
  · exact .ite (by simp) (by simp)
  · split <;> simp

@[simp] theorem State.endNsDelete_keeps {s : State} {id : Nat} {ok : Bool} (hk : Keeps old s.memQueue) :
    Keeps old (s.endNsDelete id ok).memQueue := by
  unfold State.endNsDelete
  split <;> simp [hk]

@[simp] theorem State.dropNs_keeps {s : State} {n : Nat} {x : Namespace} (hk : Keeps old s.memQueue) :
    Keeps old (s.dropNs n x).memQueue := by
  simp only [State.dropNs]
  refine foldl_keeps (fun _ _ => by simp) (foldl_keeps (fun _ _ => by simp) ?_)
  simp [hk]

@[simp] theorem State.endShutFlush_keeps {s : State} {id : Nat} (hk : Keeps old s.memQueue) : Keeps old (s.endShutFlush id).memQueue := by
  simp only [State.endShutFlush]
  refine foldl_keeps (fun s e => ?_) hk
  refine .ite (.ite ?_ (by simp)) (by simp)
  split <;> simp

theorem execDriveCompletionReceive_keeps {s : State} {id : Nat} {r : BackingResult} (hk : Keeps old s.memQueue) :
    KeepsNext old (execDriveCompletionReceive id r s) := by
  simp only [execDriveCompletionReceive, keepsNext_next]
  repeat' split
  all_goals simp [hk]

theorem execDriveTimeout_keeps {s : State} {id : Nat} (hk : Keeps old s.memQueue) : KeepsNext old (execDriveTimeout id s) := by
  simp only [execDriveTimeout, keepsNext_next]
  repeat' split
  all_goals simp [hk]

@[simp] theorem State.resetDrive_keeps {s : State} {p : Nat} (hk : Keeps old s.memQueue) : Keeps old (s.resetDrive p).memQueue := by
  simp [State.resetDrive, hk]

theorem execDriveResetTimeout_keeps {s : State} {id : Nat} (hk : Keeps old s.memQueue) : KeepsNext old (execDriveResetTimeout id s) := by
  simp only [execDriveResetTimeout, keepsNext_next]
  repeat' split
  all_goals simp [hk]

theorem execDriveLinkUp_keeps {s : State} {port : Nat} {d : DriveInfo} (hk : Keeps old s.memQueue) :
    KeepsNext old (execDriveLinkUp port d s) := by
  simp [execDriveLinkUp, hk]

@[simp] theorem State.driveGone_keeps {s : State} {p : Nat} {st : DriveState} (hk : Keeps old s.memQueue) :
    Keeps old (s.driveGone p st).memQueue := by
  simp [State.driveGone, hk]

theorem execRootPortLinkDown_keeps {s : State} {port : Nat} (hk : Keeps old s.memQueue) : KeepsNext old (execRootPortLinkDown port s) := by
  simp [execRootPortLinkDown, hk]

theorem execRootPortAerError_keeps {s : State} {port : Nat} {uncorr : Bool} (hk : Keeps old s.memQueue) :
    KeepsNext old (execRootPortAerError port uncorr s) := by
  simp [execRootPortAerError, hk]

/-! ## Admin commands -/

@[simp] theorem State.giveData_keeps {s : State} {q : Fetched} {data : List Byte} (hk : Keeps old s.memQueue) :
    Keeps old (s.giveData q data).memQueue := by
  simp only [State.giveData]
  split
  next e => exact State.answer_keeps (hk.fst_same (State.prps_memQueue ..) e)
  next e =>
    split
    next e2 => exact State.answer_keeps ((State.ctrlPut_keeps (hk.fst_same (State.prps_memQueue ..) e)).fst e2)
    next e2 => exact State.answer_keeps ((State.ctrlPut_keeps (hk.fst_same (State.prps_memQueue ..) e)).fst e2)

theorem execCreateIoCq_keeps {s : State} {e : NvmeFetch} (hk : Keeps old s.memQueue) : KeepsNext old (execCreateIoCq e s) :=
  keepsNext_next.2 <| State.nvFetch_keeps hk fun s q => by
    simp

theorem execCreateIoSq_keeps {s : State} {e : NvmeFetch} (hk : Keeps old s.memQueue) : KeepsNext old (execCreateIoSq e s) :=
  keepsNext_next.2 <| State.nvFetch_keeps hk fun s q => by
    simp

@[simp] theorem State.dropWaiting_memQueue (s : State) (i id : Nat) : (s.dropWaiting i id).memQueue = s.memQueue := by
  unfold State.dropWaiting
  split <;> simp

theorem execDeleteIoSq_keeps {s : State} {e : NvmeFetch} (hk : Keeps old s.memQueue) : KeepsNext old (execDeleteIoSq e s) :=
  keepsNext_next.2 <| State.nvFetch_keeps hk fun s q => by
    simp only
    refine .ite (by simp) ?_
    split
    · simp
    · exact foldl_keeps (fun s e => State.nvDone_keeps (by simp)) (by simp)

theorem execDeleteIoCq_keeps {s : State} {e : NvmeFetch} (hk : Keeps old s.memQueue) : KeepsNext old (execDeleteIoCq e s) :=
  keepsNext_next.2 <| State.nvFetch_keeps hk fun s q => by
    simp

theorem execIdentify_keeps {s : State} {e : NvmeFetch} (hk : Keeps old s.memQueue) : KeepsNext old (execIdentify e s) :=
  keepsNext_next.2 <| State.nvFetch_keeps hk fun s q => by
    simp only
    refine .ite (by simp) (.ite (by simp) (.ite (by simp) (.ite (by simp) ?_)))
    split
    · simp
    · refine .ite (by simp) (.ite ?_ ?_) <;> simp

theorem execGetLogPage_keeps {s : State} {e : NvmeFetch} (hk : Keeps old s.memQueue) : KeepsNext old (execGetLogPage e s) :=
  keepsNext_next.2 <| State.nvFetch_keeps hk fun s q => by
    simp only
    refine .ite (by simp) ?_
    split
    · exact State.answer_keeps (by split <;> simp)
    · refine State.giveData_keeps (.ite ?_ ?_)
      · split <;> simp
      · split <;> simp

theorem execSetFeatures_keeps {s : State} {e : NvmeFetch} (hk : Keeps old s.memQueue) : KeepsNext old (execSetFeatures e s) :=
  keepsNext_next.2 <| State.nvFetch_keeps hk fun s q => by
    extract_lets v w put s2 n s7 tab
    have hp (g : NvFeatures → NvFeatures) : (put g).memQueue = s.memQueue := State.modCtrl_memQueue ..
    clear_value put
    refine .ite (by simp) ?_
    split
    case h_9 =>
      split
      next e => exact State.answer_keeps (by simp [memQueue_fst e])
      next t _ e =>
        have h1 : Keeps s.memQueue t.memQueue := by simp [memQueue_fst e]
        split
        next e2 => exact State.answer_keeps (by simp [memQueue_fst e2, h1])
        next e2 => exact State.answer_keeps (by simp [memQueue_fst e2, h1])
    all_goals simp [hp, s2, s7]

theorem execGetFeatures_keeps {s : State} {e : NvmeFetch} (hk : Keeps old s.memQueue) : KeepsNext old (execGetFeatures e s) :=
  keepsNext_next.2 <| State.nvFetch_keeps hk fun s q => by
    simp only
    refine .ite (by simp) ?_
    split
    case h_9 =>
      split
      next e => exact State.answer_keeps (by simp [memQueue_fst e])
      next t _ e =>
        have h1 : Keeps s.memQueue t.memQueue := by simp [memQueue_fst e]
        split
        next e2 => exact State.answer_keeps ((State.ctrlPut_keeps h1).fst e2)
        next e2 => exact State.answer_keeps ((State.ctrlPut_keeps h1).fst e2)
    all_goals simp

theorem execNvmeAbort_keeps {s : State} {e : NvmeFetch} (hk : Keeps old s.memQueue) : KeepsNext old (execNvmeAbort e s) :=
  keepsNext_next.2 <| State.nvFetch_keeps hk fun s q => by
    simp only
    refine .ite (by simp) (.ite (by simp) (.ite ?_ ?_))
    · exact State.finishNvAborts_keeps (by simp)
    · split
      · exact State.finishNvAborts_keeps (by simp)
      · simp

theorem execAsynchronousEventRequest_keeps {s : State} {e : NvmeFetch} (hk : Keeps old s.memQueue) :
    KeepsNext old (execAsynchronousEventRequest e s) :=
  keepsNext_next.2 <| State.nvFetch_keeps hk fun s q => by
    simp only
    refine .ite (by simp) (.ite (by simp) ?_)
    split <;> simp

/-! ## Storage commands -/

@[simp] theorem stoCtrlEnRun_keeps {s : State} {w : Waiter} {i : Nat} {ps : List Byte} (hk : Keeps old s.memQueue) :
    Keeps old (stoCtrlEnRun s w i ps).memQueue := by
  simp only [stoCtrlEnRun]
  repeat' split
  all_goals simp [hk]

theorem stoCtrlEnSpec_kept : Spec.Kept stoCtrlEnSpec := by
  intro old s w i ps hk
  simp [stoCtrlEnSpec, hk]

theorem execStoCtrlEn_keeps {s : State} {c : Cmd} (hk : Keeps old s.memQueue) : KeepsNext old (execStoCtrlEn c s) :=
  keepsNext_next.2 (State.command_keeps stoCtrlEnSpec_kept hk)

theorem stoCtrlStatusSpec_kept : Spec.Kept stoCtrlStatusSpec := by
  intro old s w i ps hk
  simp [stoCtrlStatusSpec, hk]

theorem execStoCtrlStatus_keeps {s : State} {c : Cmd} (hk : Keeps old s.memQueue) : KeepsNext old (execStoCtrlStatus c s) :=
  keepsNext_next.2 (State.command_keeps stoCtrlStatusSpec_kept hk)

@[simp] theorem stoNsCreateRun_keeps {s : State} {w : Waiter} {i : Nat} {ps : List Byte} (hk : Keeps old s.memQueue) :
    Keeps old (stoNsCreateRun s w i ps).memQueue := by
  unfold stoNsCreateRun
  split <;> simp [hk]

theorem stoNsCreateSpec_kept : Spec.Kept stoNsCreateSpec := by
  intro old s w i ps hk
  simp [stoNsCreateSpec, hk]

theorem execStoNsCreate_keeps {s : State} {c : Cmd} (hk : Keeps old s.memQueue) : KeepsNext old (execStoNsCreate c s) :=
  keepsNext_next.2 (State.command_keeps stoNsCreateSpec_kept hk)

@[simp] theorem stoNsDeleteRun_keeps {s : State} {w : Waiter} {i : Nat} {ps : List Byte} (hk : Keeps old s.memQueue) :
    Keeps old (stoNsDeleteRun s w i ps).memQueue := by
  simp only [stoNsDeleteRun]
  split <;> simp [hk]

@[simp] theorem State.keepNs_keeps {s : State} {n : Nat} (hk : Keeps old s.memQueue) : Keeps old (s.keepNs n).memQueue := by
  simp only [State.keepNs]
  split <;> simp [hk]

theorem stoNsDeleteSpec_kept : Spec.Kept stoNsDeleteSpec := by
  intro old s w i ps hk
  simp [stoNsDeleteSpec, hk]

theorem execStoNsDelete_keeps {s : State} {c : Cmd} (hk : Keeps old s.memQueue) : KeepsNext old (execStoNsDelete c s) :=
  keepsNext_next.2 (State.command_keeps stoNsDeleteSpec_kept hk)

theorem stoNsAttachSpec_kept : Spec.Kept stoNsAttachSpec := by
  intro old s w i ps hk
  simp only [stoNsAttachSpec]
  split <;> simp [hk]

theorem execStoNsAttach_keeps {s : State} {c : Cmd} (hk : Keeps old s.memQueue) : KeepsNext old (execStoNsAttach c s) :=
  keepsNext_next.2 (State.command_keeps stoNsAttachSpec_kept hk)

@[simp] theorem State.outerOk_memQueue (s : State) : (s.outerOk).2.memQueue = s.memQueue := (rfl)

@[simp] theorem State.nsRead_memQueue (s : State) (x : Namespace) (slba nlb : Nat) : (s.nsRead x slba nlb).1.memQueue = s.memQueue := by
  simp only [State.nsRead]
  split
  · split <;> simp
  · split
    · split <;> simp
    · split
      next e => simp [State.postEngine_memQueue e]
      · rfl

@[simp] theorem State.nsWrite_keeps {s : State} {x : Namespace} {slba nlb : Nat} {bs : List Byte} (hk : Keeps old s.memQueue) :
    Keeps old (s.nsWrite x slba nlb bs).1.memQueue := by
  simp only [State.nsWrite]
  split
  · split <;> simp [hk]
  · split
    · split
      next e => exact State.saveAt_keeps hk e
      · exact hk
    · split
      next e => simpa [State.postEngine_memQueue e] using hk
      · exact hk

@[simp] theorem State.nsCopy_keeps {s : State} {x y : Namespace} {kx ky : Option (List Byte)} {fuel sl dl n : Nat} (hk :
    Keeps old s.memQueue) :
    Keeps old (s.nsCopy x y kx ky fuel sl dl n).1.memQueue := by
  induction fuel generalizing s sl dl n with
  | zero => exact hk
  | succ fuel ih =>
    simp only [State.nsCopy]
    split
    · exact hk
    · split
      next e => exact hk.fst_same (State.nsRead_memQueue ..) e
      next s1 _ e =>
        have h1 : Keeps old s1.memQueue := hk.fst_same (State.nsRead_memQueue ..) e
        split
        next e2 => exact (State.nsWrite_keeps h1).fst e2
        next e2 => exact ih (by simpa using (State.nsWrite_keeps h1).fst e2)

@[simp] theorem stoNsCopyRun_keeps {s : State} {w : Waiter} {i : Nat} {ps : List Byte} (hk : Keeps old s.memQueue) :
    Keeps old (stoNsCopyRun s w i ps).memQueue := by
  unfold stoNsCopyRun
  split
  · extract_lets sl dl n kx ky
    split
    · exact hk
    · split
      · exact hk
      · split
        next e => exact (State.nsCopy_keeps hk).fst e
        next e => exact (State.nsCopy_keeps hk).fst e
  · exact hk

theorem stoNsCopySpec_kept : Spec.Kept stoNsCopySpec := by
  intro old s w i ps hk
  simp [stoNsCopySpec, hk]

theorem execStoNsCopy_keeps {s : State} {c : Cmd} (hk : Keeps old s.memQueue) : KeepsNext old (execStoNsCopy c s) :=
  keepsNext_next.2 (State.command_keeps stoNsCopySpec_kept hk)

theorem stoDriveStatusSpec_kept : Spec.Kept stoDriveStatusSpec := by
  intro old s w i ps hk
  simp [stoDriveStatusSpec, hk]

theorem execStoDriveStatus_keeps {s : State} {c : Cmd} (hk : Keeps old s.memQueue) : KeepsNext old (execStoDriveStatus c s) :=
  keepsNext_next.2 (State.command_keeps stoDriveStatusSpec_kept hk)

end Sys2Proof.Machine
end

section
/-! PROOF. The memory girdle, the gather engines, the endpoint and checkpoints keep the memory's form and the queue. -/

namespace Sys2Proof.Machine

variable {old : MemQueue}

/-! ## Stacks and the memory girdle -/

@[simp] theorem State.queueWrite_keeps {s : State} {a : Nat} {bs : List Byte} {i : Nat} {g : BitVec 16} (hk : Keeps old s.memQueue) :
    Keeps old (s.queueWrite a bs i g).1.memQueue := by
  simp only [State.queueWrite]
  split <;> simp [hk]

@[simp] theorem State.mgWrite_keeps {s : State} {k : Nat} {fl : Flit} (hk : Keeps old s.memQueue) :
    Keeps old (s.mgWrite k fl).memQueue := by
  unfold State.mgWrite
  split <;> simp [hk]

@[simp] theorem State.mgWriteArrive_keeps {s : State} {k : Nat} {fl : Flit} (hk : Keeps old s.memQueue) :
    Keeps old (s.mgWriteArrive k fl).memQueue := by
  unfold State.mgWriteArrive
  split <;> simp [hk]

theorem execHbmWriteIssue_keeps {s : State} {stack : Nat} (hk : Keeps old s.memQueue) : KeepsNext old (execHbmWriteIssue stack s) := by
  simp only [execHbmWriteIssue, keepsNext_next]
  split <;> simp [hk]

@[simp] theorem State.mgReadArrive_memQueue (s : State) (k : Nat) (fl : Flit) : (s.mgReadArrive k fl).memQueue = s.memQueue := by
  unfold State.mgReadArrive
  repeat' split
  all_goals simp

@[simp] theorem State.setRead_memQueue (s : State) (k : Nat) (r : Option HbmRead) : (s.setRead k r).memQueue = s.memQueue := (rfl)

@[simp] theorem State.unitRead_memQueue (s : State) (k : Nat) (r : HbmRead) : (s.unitRead k r).memQueue = s.memQueue := by
  simp [State.unitRead]

@[simp] theorem State.unitOutcome_memQueue (s : State) (k : Nat) (r : HbmRead) (o : ReadOutcome) :
    (s.unitOutcome k r o).memQueue = s.memQueue := by
  simp only [State.unitOutcome]
  repeat' split
  all_goals simp

theorem execHbmReadComplete_keeps {s : State} {stack : Nat} {o : ReadOutcome} (hk : Keeps old s.memQueue) :
    KeepsNext old (execHbmReadComplete stack o s) := by
  simp only [execHbmReadComplete, keepsNext_next]
  split <;> simp [hk]

@[simp] theorem State.failStack_memQueue (s : State) (k : Nat) : (s.failStack k).memQueue = s.memQueue := by
  simp [State.failStack]

theorem execStackRequestTimeout_keeps {s : State} {stack : Nat} (hk : Keeps old s.memQueue) :
    KeepsNext old (execStackRequestTimeout stack s) := by
  simp only [execStackRequestTimeout, keepsNext_next]
  repeat' split
  all_goals simp [hk]

theorem execHbmRefresh_keeps {s : State} {stack pc bank : Nat} (hk : Keeps old s.memQueue) :
    KeepsNext old (execHbmRefresh stack pc bank s) := by
  simp [execHbmRefresh, hk]

theorem execStackTempCross_keeps {s : State} {stack temp : Nat} (hk : Keeps old s.memQueue) :
    KeepsNext old (execStackTempCross stack temp s) := by
  simp [execStackTempCross, hk]

theorem execPatrolScrub_keeps {s : State} {addr : Nat} {o : ReadOutcome} (hk : Keeps old s.memQueue) :
    KeepsNext old (execPatrolScrub addr o s) := by
  simp only [execPatrolScrub, keepsNext_next]
  repeat' split
  all_goals simp [hk]

@[simp] theorem memZoneSetRun_keeps {s : State} {w : Waiter} {i : Nat} {ps : List Byte} (hk : Keeps old s.memQueue) :
    Keeps old (memZoneSetRun s w i ps).memQueue := by
  simp [memZoneSetRun, hk]

theorem memZoneSetSpec_kept : Spec.Kept memZoneSetSpec := by
  intro old s w i ps hk
  simp [memZoneSetSpec, hk]

theorem execMemZoneSet_keeps {s : State} {c : Cmd} (hk : Keeps old s.memQueue) : KeepsNext old (execMemZoneSet c s) :=
  keepsNext_next.2 (State.command_keeps memZoneSetSpec_kept hk)

@[simp] theorem State.writeUelog_memQueue (s : State) (k n : Nat) (v : BitVec 64) : (s.writeUelog k n v).memQueue = s.memQueue := by
  simp [State.writeUelog]

/-! ## The gather engines -/

@[simp] theorem State.setJob_memQueue (s : State) (k : Nat) (j : Option GatherJob) : (s.setJob k j).memQueue = s.memQueue := (rfl)

@[simp] theorem State.gatherFail_memQueue (s : State) (k : Nat) (j : GatherJob) (status : Nat) :
    (s.gatherFail k j status).memQueue = s.memQueue := (rfl)

@[simp] theorem State.gatherReadFailed_memQueue (s : State) (k i a n status : Nat) :
    (s.gatherReadFailed k i a n status).memQueue = s.memQueue := by
  unfold State.gatherReadFailed
  repeat' split
  all_goals simp

theorem State.askPeer_memQueue {s t : State} {k : Nat} {j j1 : GatherJob} (e : s.askPeer k j = some (t, j1)) : t.memQueue = s.memQueue := by
  simp only [State.askPeer] at e
  split at e
  · cases e
    rfl
  · obtain ⟨r, hr, er⟩ := Option.map_eq_some_iff.mp e
    cases er
    simp [State.postEngine_memQueue hr]

@[simp] theorem State.chargeLists_memQueue (s : State) (f : Nat) (fl : Flit) : (s.chargeLists f fl).memQueue = s.memQueue := by
  simp only [State.chargeLists]
  repeat' split
  all_goals simp

@[simp] theorem State.takeDesc_memQueue (s : State) (k : Nat) (fl : Flit) : (s.takeDesc k fl).memQueue = s.memQueue := by
  unfold State.takeDesc
  extract_lets f s1
  generalize s.gatherCheck f fl = r
  cases r with
  | error e =>
    obtain ⟨e, a, n⟩ := e
    simp [s1]
  | ok j =>
    simp only
    split
    next e => simp [State.askPeer_memQueue e]
    · simp

@[simp] theorem State.takeDescFlit_memQueue (s : State) (k : Nat) (fl : Flit) : (s.takeDescFlit k fl).memQueue = s.memQueue := by
  unfold State.takeDescFlit
  repeat' split
  all_goals simp

theorem execGatherDescReceive_keeps {s : State} {k : Nat} {fl : Flit} (hk : Keeps old s.memQueue) :
    KeepsNext old (execGatherDescReceive k fl s) := by
  simp only [execGatherDescReceive, keepsNext_next]
  repeat' split
  all_goals simp [hk]

@[simp] theorem State.dropCached_memQueue (s : State) (p : CachedRow → Bool) : (s.dropCached p).memQueue = s.memQueue := (rfl)

@[simp] theorem State.gatherReset_keeps {s : State} {i : Nat} (hk : Keeps old s.memQueue) : Keeps old (s.gatherReset i).memQueue := by
  simp [State.gatherReset, hk]

@[simp] theorem State.rowHere_memQueue (s : State) (k : Nat) (j : GatherJob) (r : Nat) (b : List Byte) :
    (s.rowHere k j r b).memQueue = s.memQueue := by
  simp only [State.rowHere]
  split
  · split
    next e => simp [State.askPeer_memQueue e]
    · simp
  · simp

@[simp] theorem State.rowFetched_memQueue (s : State) (k a n : Nat) : (s.rowFetched k a n).memQueue = s.memQueue := by
  simp [State.rowFetched]

@[simp] theorem State.localRow_memQueue (s : State) (k : Nat) (j : GatherJob) (r : Nat) (o : ReadOutcome) :
    (s.localRow k j r o).memQueue = s.memQueue := by
  simp only [State.localRow]
  repeat' split
  all_goals simp

@[simp] theorem State.peerRow_memQueue (s : State) (k : Nat) (j : GatherJob) (r : Nat) : (s.peerRow k j r).memQueue = s.memQueue := by
  simp only [State.peerRow]
  split
  · split
    next e => simp [State.askPeer_memQueue e]
    · simp
  · split
    · rfl
    · split <;> simp

@[simp] theorem State.cachedRow_memQueue (s : State) (k : Nat) (j : GatherJob) (r : Nat) (c : CachedRow) :
    (s.cachedRow k j r c).memQueue = s.memQueue := by
  simp [State.cachedRow]

theorem execGatherRowArrive_keeps {s : State} {k : Nat} {o : ReadOutcome} (hk : Keeps old s.memQueue) :
    KeepsNext old (execGatherRowArrive k o s) := by
  simp only [execGatherRowArrive, keepsNext_next]
  repeat' split
  all_goals simp [hk]

theorem execGatherChunkDeliver_keeps {s : State} {k : Nat} (hk : Keeps old s.memQueue) : KeepsNext old (execGatherChunkDeliver k s) := by
  simp only [execGatherChunkDeliver, keepsNext_next]
  split <;> simp [hk]

@[simp] theorem State.outputRefused_memQueue (s : State) (k : Nat) (fl : Flit) : (s.outputRefused k fl).memQueue = s.memQueue := by
  unfold State.outputRefused
  split <;> simp

theorem execMgFlitReceive_keeps {s : State} {k : Nat} {fl : Flit} (hk : Keeps old s.memQueue) :
    KeepsNext old (execMgFlitReceive k fl s) := by
  simp only [execMgFlitReceive, keepsNext_next]
  repeat' split
  all_goals simp [hk]

@[simp] theorem State.setTable_memQueue (s : State) (i t' : Nat) (v : Option GatherTable) :
    (s.setTable i t' v).memQueue = s.memQueue := (rfl)

@[simp] theorem State.tableCommand_memQueue (s : State) (w : Waiter) (i t' : Nat) (v : Option GatherTable) :
    (s.tableCommand w i t' v).memQueue = s.memQueue := by
  simp [State.tableCommand]

@[simp] theorem gthTableSetRun_memQueue (s : State) (w : Waiter) (i : Nat) (ps : List Byte) :
    (gthTableSetRun s w i ps).memQueue = s.memQueue := by
  simp [gthTableSetRun]

theorem gthTableSetSpec_kept : Spec.Kept gthTableSetSpec := by
  intro old s w i ps hk
  simp [gthTableSetSpec, hk]

theorem execGthTableSet_keeps {s : State} {c : Cmd} (hk : Keeps old s.memQueue) : KeepsNext old (execGthTableSet c s) :=
  keepsNext_next.2 (State.command_keeps gthTableSetSpec_kept hk)

theorem gthTableClearSpec_kept : Spec.Kept gthTableClearSpec := by
  intro old s w i ps hk
  simp [gthTableClearSpec, hk]

theorem execGthTableClear_keeps {s : State} {c : Cmd} (hk : Keeps old s.memQueue) : KeepsNext old (execGthTableClear c s) :=
  keepsNext_next.2 (State.command_keeps gthTableClearSpec_kept hk)

theorem gthTableGetSpec_kept : Spec.Kept gthTableGetSpec := by
  intro old s w i ps hk
  simp only [gthTableGetSpec]
  split <;> simp [hk]

theorem execGthTableGet_keeps {s : State} {c : Cmd} (hk : Keeps old s.memQueue) : KeepsNext old (execGthTableGet c s) :=
  keepsNext_next.2 (State.command_keeps gthTableGetSpec_kept hk)

theorem gthCacheDropSpec_kept : Spec.Kept gthCacheDropSpec := by
  intro old s w i ps hk
  simp [gthCacheDropSpec, hk]

theorem execGthCacheDrop_keeps {s : State} {c : Cmd} (hk : Keeps old s.memQueue) : KeepsNext old (execGthCacheDrop c s) :=
  keepsNext_next.2 (State.command_keeps gthCacheDropSpec_kept hk)

theorem execGthTableWaitEnd_keeps {s : State} {inst tab : Nat} (hk : Keeps old s.memQueue) :
    KeepsNext old (execGthTableWaitEnd inst tab s) := by
  simp only [execGthTableWaitEnd, keepsNext_next]
  split <;> simp [hk]

@[simp] theorem State.writeCache_keeps {s : State} {k : Nat} {v : BitVec 64} (hk : Keeps old s.memQueue) :
    Keeps old (s.writeCache k v).memQueue := by
  simp [State.writeCache, hk]

@[simp] theorem State.writeCways_memQueue (s : State) (k inst : Nat) (v : BitVec 64) : (s.writeCways k inst v).memQueue = s.memQueue := by
  simp [State.writeCways]

/-! ## The PCIe endpoint -/

@[simp] theorem State.readFailEvent_memQueue (s : State) (fn reason : Nat) (r : MasterRead) :
    (s.readFailEvent fn reason r).memQueue = s.memQueue := by
  unfold State.readFailEvent
  split <;> simp

@[simp] theorem State.readFailed_keeps {s : State} {fn reason : Nat} {r : MasterRead} (hk : Keeps old s.memQueue) :
    Keeps old (s.readFailed fn reason r).memQueue := by
  simp only [State.readFailed]
  repeat' split
  all_goals simp [hk]

@[simp] theorem State.failWaiting_keeps {s : State} {fn reason : Nat} (hk : Keeps old s.memQueue) :
    Keeps old (s.failWaiting fn reason).memQueue := by
  simp [State.failWaiting, hk]

theorem execMasterReadIssue_keeps {s : State} {fn : Nat} (hk : Keeps old s.memQueue) : KeepsNext old (execMasterReadIssue fn s) := by
  simp only [execMasterReadIssue, keepsNext_next]
  repeat' split
  all_goals simp [hk]

@[simp] theorem State.dropRead_memQueue (s : State) (fn tag : Nat) : (s.dropRead fn tag).memQueue = s.memQueue := (rfl)

@[simp] theorem State.takePiece_keeps {s : State} {fn : Nat} {r : MasterRead} {bs : List Byte} (hk : Keeps old s.memQueue) :
    Keeps old (s.takePiece fn r bs).memQueue := by
  simp only [State.takePiece]
  repeat' split
  all_goals simp [hk]

@[simp] theorem State.unexpected_memQueue (s : State) (fn : Nat) : (s.unexpected fn).memQueue = s.memQueue := by
  simp [State.unexpected]

theorem execCompletionReceive_keeps {s : State} {pc : CplPiece} (hk : Keeps old s.memQueue) :
    KeepsNext old (execCompletionReceive pc s) := by
  simp only [execCompletionReceive, keepsNext_next]
  repeat' split
  all_goals simp [hk]

theorem execCompletionTimeout_keeps {s : State} {fn tag : Nat} (hk : Keeps old s.memQueue) :
    KeepsNext old (execCompletionTimeout fn tag s) := by
  simp only [execCompletionTimeout, keepsNext_next]
  split <;> simp [hk]

theorem execTagQuarantineEnd_keeps {s : State} {fn tag : Nat} (hk : Keeps old s.memQueue) :
    KeepsNext old (execTagQuarantineEnd fn tag s) := by
  simp only [execTagQuarantineEnd, keepsNext_next]
  split <;> simp [hk]

theorem execBusMasterDisable_keeps {s : State} {fn : Nat} (hk : Keeps old s.memQueue) : KeepsNext old (execBusMasterDisable fn s) := by
  simp [execBusMasterDisable, hk]

@[simp] theorem State.fnReset_keeps {s : State} {fn reason : Nat} (hk : Keeps old s.memQueue) :
    Keeps old (s.fnReset fn reason).memQueue := by
  unfold State.fnReset
  extract_lets s1 s2 rs till s3 s4 s5 s6
  have h4 : Keeps old s4.memQueue := by
    refine foldl_keeps (fun s r => .ite ?_ ?_) ?_
    · simp
    · simp
    · simp [s3, s2, s1, hk]
  have h5 : Keeps old s5.memQueue := by
    simp only [s5]
    split
    · exact .ite (State.ctrlReset_keeps h4) h4
    · exact h4
  simpa [s6] using h5

@[simp] theorem State.vfReset_keeps {s : State} {reason : Nat} (hk : Keeps old s.memQueue) : Keeps old (s.vfReset reason).memQueue := by
  simp [State.vfReset, hk]

@[simp] theorem State.allReset_keeps {s : State} {reason : Nat} (hk : Keeps old s.memQueue) : Keeps old (s.allReset reason).memQueue := by
  simp [State.allReset, hk]

theorem execFunctionLevelReset_keeps {s : State} {fn : Nat} (hk : Keeps old s.memQueue) : KeepsNext old (execFunctionLevelReset fn s) := by
  simp [execFunctionLevelReset, hk]

theorem execVfEnableClear_keeps {s : State} (hk : Keeps old s.memQueue) : KeepsNext old (execVfEnableClear s) := by
  simp [execVfEnableClear, hk]

@[simp] theorem State.retrain_memQueue (s : State) : (s.retrain).memQueue = s.memQueue := (rfl)

theorem execHotReset_keeps {s : State} (hk : Keeps old s.memQueue) : KeepsNext old (execHotReset s) := by
  simp [execHotReset, hk]

@[simp] theorem State.setD3_keeps {s : State} {fn : Nat} {d3 : Bool} (hk : Keeps old s.memQueue) : Keeps old (s.setD3 fn d3).memQueue := by
  simp [State.setD3, hk]

theorem execD3hotEntry_keeps {s : State} {fn : Nat} {d3 : Bool} (hk : Keeps old s.memQueue) : KeepsNext old (execD3hotEntry fn d3 s) := by
  simp [execD3hotEntry, hk]

theorem execPmeTurnOff_keeps {s : State} (hk : Keeps old s.memQueue) : KeepsNext old (execPmeTurnOff s) := by
  simp [execPmeTurnOff, hk]

theorem execEndpointLinkRetry_keeps {s : State} (hk : Keeps old s.memQueue) : KeepsNext old (execEndpointLinkRetry s) := by
  simp only [execEndpointLinkRetry, keepsNext_next]
  split <;> simp [hk]

theorem execEndpointLinkUp_keeps {s : State} {flit : Bool} {rate width : Nat} (hk : Keeps old s.memQueue) :
    KeepsNext old (execEndpointLinkUp flit rate width s) := by
  simp [execEndpointLinkUp, hk]

@[simp] theorem State.configWrite_keeps {s : State} {fn : Nat} {r : CfgReg} {v : BitVec 32} (hk : Keeps old s.memQueue) :
    Keeps old (s.configWrite fn r v).memQueue := by
  unfold State.configWrite
  split <;> simp [hk]

theorem execConfigRequest_keeps {s : State} {fn : Nat} {r : CfgReq} (hk : Keeps old s.memQueue) :
    KeepsNext old (execConfigRequest fn r s) := by
  simp only [execConfigRequest, keepsNext_next]
  repeat' split
  all_goals simp [hk]

/-! ## BAR0, BAR2 and the root ports -/

@[simp] theorem State.barStore_memQueue (s : State) (fn i off v : Nat) (lo hi : Bool) :
    (s.barStore fn i off v lo hi).memQueue = s.memQueue := by
  simp [State.barStore]

theorem execBar0BadAccess_keeps {s : State} {fn off size : Nat} {write : Bool} {v : BitVec 64} (hk : Keeps old s.memQueue) :
    KeepsNext old (execBar0BadAccess fn off size write v s) := by
  simp only [execBar0BadAccess, keepsNext_next]
  repeat' split
  all_goals simp [hk]

theorem execRmaDb_keeps {s : State} {fn : Nat} {v : BitVec 64} (hk : Keeps old s.memQueue) : KeepsNext old (execRmaDb fn v s) :=
  keepsNext_next.2 <| State.barWrite_keeps hk fun s i => by simp

@[simp] theorem State.mailboxFresh_memQueue (s : State) (ch : Nat) : (s.mailboxFresh ch).memQueue = s.memQueue := (rfl)

theorem execMbCfgWrite_keeps {s : State} {fn : Nat} {v : BitVec 64} (hk : Keeps old s.memQueue) : KeepsNext old (execMbCfgWrite fn v s) :=
  keepsNext_next.2 <| State.barWrite_keeps hk fun s i => by simp

@[simp] theorem State.complete_memQueue (s : State) (fn tag fuel a : Nat) (bs : List Byte) :
    (s.complete fn tag fuel a bs).memQueue = s.memQueue := by
  induction fuel generalizing s a bs with
  | zero => rfl
  | succ fuel ih =>
    simp only [State.complete]
    split
    · rfl
    · simp [ih]

@[simp] theorem State.noWindow_memQueue (s : State) (fn : Nat) (write : Bool) : (s.noWindow fn write).memQueue = s.memQueue := by
  simp [State.noWindow]

@[simp] theorem State.inboundRefused_memQueue (s : State) (w : InWindow) (a n : Nat) (e' : AccErr) :
    (s.inboundRefused w a n e').memQueue = s.memQueue := by
  unfold State.inboundRefused
  split <;> simp

theorem execInboundRead_keeps {s : State} {fn off len tag : Nat} (hk : Keeps old s.memQueue) :
    KeepsNext old (execInboundRead fn off len tag s) := by
  simp only [execInboundRead, keepsNext_next]
  repeat' split
  all_goals simp [hk]

theorem execInboundWrite_keeps {s : State} {fn off : Nat} {data : List Byte} {ep : Bool} (hk : Keeps old s.memQueue) :
    KeepsNext old (execInboundWrite fn off data ep s) := by
  simp only [execInboundWrite, keepsNext_next]
  refine .ite hk (.ite (by simpa using hk) (.ite (by simpa using hk) ?_))
  split
  · simpa using hk
  · split
    next e => exact State.saveAt_keeps (State.wakeDeep_keeps hk) e
    · simp [hk]
    · simp [hk]

@[simp] theorem windowDone_memQueue (s : State) (busy : Bool) (x : WindowWait) : (windowDone s busy x).memQueue = s.memQueue := by
  simp [windowDone]

@[simp] theorem pceIwinSetRun_memQueue (s : State) (wt : Waiter) (i : Nat) (ps : List Byte) :
    (pceIwinSetRun s wt i ps).memQueue = s.memQueue := by
  simp only [pceIwinSetRun]
  repeat' split
  all_goals simp

theorem pceIwinSetSpec_kept : Spec.Kept pceIwinSetSpec := by
  intro old s w i ps hk
  simp [pceIwinSetSpec, hk]

theorem execPceIwinSet_keeps {s : State} {c : Cmd} (hk : Keeps old s.memQueue) : KeepsNext old (execPceIwinSet c s) :=
  keepsNext_next.2 (State.command_keeps pceIwinSetSpec_kept hk)

@[simp] theorem pceOwinSetRun_memQueue (s : State) (w : Waiter) (i : Nat) (ps : List Byte) :
    (pceOwinSetRun s w i ps).memQueue = s.memQueue := by
  simp only [pceOwinSetRun]
  repeat' split
  all_goals simp

theorem pceOwinSetSpec_kept : Spec.Kept pceOwinSetSpec := by
  intro old s w i ps hk
  simp [pceOwinSetSpec, hk]

theorem execPceOwinSet_keeps {s : State} {c : Cmd} (hk : Keeps old s.memQueue) : KeepsNext old (execPceOwinSet c s) :=
  keepsNext_next.2 (State.command_keeps pceOwinSetSpec_kept hk)

theorem execPceWindowDrained_keeps {s : State} {outbound : Bool} {entry : Nat} (hk : Keeps old s.memQueue) :
    KeepsNext old (execPceWindowDrained outbound entry s) := by
  simp only [execPceWindowDrained, keepsNext_next]
  split <;> simp [hk]

theorem pceWinGetSpec_kept : Spec.Kept pceWinGetSpec := by
  intro old s w i ps hk
  simp [pceWinGetSpec, hk]

theorem execPceWinGet_keeps {s : State} {c : Cmd} (hk : Keeps old s.memQueue) : KeepsNext old (execPceWinGet c s) :=
  keepsNext_next.2 (State.command_keeps pceWinGetSpec_kept hk)

@[simp] theorem pceFnBindRun_memQueue (s : State) (w : Waiter) (i : Nat) (ps : List Byte) :
    (pceFnBindRun s w i ps).memQueue = s.memQueue := by
  simp [pceFnBindRun]

theorem pceFnBindSpec_kept : Spec.Kept pceFnBindSpec := by
  intro old s w i ps hk
  simp [pceFnBindSpec, hk]

theorem execPceFnBind_keeps {s : State} {c : Cmd} (hk : Keeps old s.memQueue) : KeepsNext old (execPceFnBind c s) :=
  keepsNext_next.2 (State.command_keeps pceFnBindSpec_kept hk)

theorem pceAperSetSpec_kept : Spec.Kept pceAperSetSpec := by
  intro old s w i ps hk
  simp [pceAperSetSpec, hk]

theorem execPceAperSet_keeps {s : State} {c : Cmd} (hk : Keeps old s.memQueue) : KeepsNext old (execPceAperSet c s) :=
  keepsNext_next.2 (State.command_keeps pceAperSetSpec_kept hk)

theorem pceWakeSpec_kept : Spec.Kept pceWakeSpec := by
  intro old s w i ps hk
  simp [pceWakeSpec, hk]

theorem execPceWake_keeps {s : State} {c : Cmd} (hk : Keeps old s.memQueue) : KeepsNext old (execPceWake c s) :=
  keepsNext_next.2 (State.command_keeps pceWakeSpec_kept hk)

theorem pceFnStatusSpec_kept : Spec.Kept pceFnStatusSpec := by
  intro old s w i ps hk
  simp [pceFnStatusSpec, hk]

theorem execPceFnStatus_keeps {s : State} {c : Cmd} (hk : Keeps old s.memQueue) : KeepsNext old (execPceFnStatus c s) :=
  keepsNext_next.2 (State.command_keeps pceFnStatusSpec_kept hk)

@[simp] theorem State.zeroInst_keeps {s : State} {i a n : Nat} (hk : Keeps old s.memQueue) : Keeps old (s.zeroInst i a n).memQueue := by
  unfold State.zeroInst
  split <;> simp [hk]

@[simp] theorem pceDirtySetRun_keeps {s : State} {w : Waiter} {i : Nat} {ps : List Byte} (hk : Keeps old s.memQueue) :
    Keeps old (pceDirtySetRun s w i ps).memQueue := by
  simp [pceDirtySetRun, hk]

theorem pceDirtySetSpec_kept : Spec.Kept pceDirtySetSpec := by
  intro old s w i ps hk
  simp [pceDirtySetSpec, hk]

theorem execPceDirtySet_keeps {s : State} {c : Cmd} (hk : Keeps old s.memQueue) : KeepsNext old (execPceDirtySet c s) :=
  keepsNext_next.2 (State.command_keeps pceDirtySetSpec_kept hk)

@[simp] theorem pceDirtySwapRun_memQueue (s : State) (w : Waiter) (i : Nat) (ps : List Byte) :
    (pceDirtySwapRun s w i ps).memQueue = s.memQueue := by
  simp only [pceDirtySwapRun]
  repeat' split
  all_goals simp

theorem pceDirtySwapSpec_kept : Spec.Kept pceDirtySwapSpec := by
  intro old s w i ps hk
  simp [pceDirtySwapSpec, hk]

theorem execPceDirtySwap_keeps {s : State} {c : Cmd} (hk : Keeps old s.memQueue) : KeepsNext old (execPceDirtySwap c s) :=
  keepsNext_next.2 (State.command_keeps pceDirtySwapSpec_kept hk)

theorem execRootPortLinkRetry_keeps {s : State} {port : Nat} (hk : Keeps old s.memQueue) :
    KeepsNext old (execRootPortLinkRetry port s) := by
  simp [execRootPortLinkRetry, hk]

theorem execDriveRequestReceive_keeps {s : State} {port : Nat} {r : DriveReq} (hk : Keeps old s.memQueue) :
    KeepsNext old (execDriveRequestReceive port r s) := by
  simp only [execDriveRequestReceive, keepsNext_next]
  repeat' split
  all_goals simp [hk]

/-! ## Checkpoint and restore -/

theorem State.destWrite_keeps {s t : State} {p : Nat} {k : CkpConf} {i off : Nat} {bs : List Byte} (hk : Keeps old s.memQueue)
    (e : s.destWrite p k i off bs = some t) : Keeps old t.memQueue := by
  unfold State.destWrite at e
  extract_lets s1 post at e
  have h1 : Keeps old s1.memQueue := by simpa [s1] using hk
  have hp {u v : State} {qp ra rkey : Nat} {l : List Byte} (hu : Keeps old u.memQueue) (ev : post u qp ra rkey l = some v) :
      Keeps old v.memQueue := by
    obtain ⟨r, hr, rfl⟩ := Option.map_eq_some_iff.mp ev
    simpa [State.postEngine_memQueue hr] using hu
  clear_value post s1
  split at e
  · exact hp (by simpa using h1) e
  · split at e
    · cases e
    next x _ =>
      extract_lets a n key data at e
      clear_value key data
      split at e
      · cases e
      · split at e
        · split at e
          · cases e
            simpa using h1
          · cases e
        · split at e
          · split at e
            next es =>
              cases e
              exact State.saveAt_keeps h1 es
            next => cases e
          · exact hp h1 e

@[simp] theorem State.destRead_memQueue (s : State) (k : CkpConf) (i off n : Nat) : (s.destRead k i off n).1.memQueue = s.memQueue := by
  simp only [State.destRead]
  split
  · split
    next e => simp [State.postEngine_memQueue e]
    · simp
  · split
    · rfl
    next x _ =>
      generalize (if x.cipher then s.nsKey x else none) = key
      split
      · rfl
      · split
        · rfl
        · split
          next e => simp [memQueue_fst e]
          next e => simp [memQueue_fst e]

@[simp] theorem State.destFlush_memQueue (s : State) (p : Nat) (k : CkpConf) : (s.destFlush p k).memQueue = s.memQueue := by
  simp only [State.destFlush]
  repeat' split
  all_goals simp

theorem State.destDone_ok {s t : State} {p : Nat} {b : Bool} (e : s.destDone p = .ok (t, b)) : t.memQueue = s.memQueue := by
  simp only [State.destDone] at e
  split at e
  · cases e
  · cases e
    simp

theorem State.destDone_error {s t : State} {p : Nat} (e : s.destDone p = .error t) : t.memQueue = s.memQueue := by
  simp only [State.destDone] at e
  split at e
  · cases e
    simp
  · cases e

@[simp] theorem ckpNowRun_memQueue (s : State) (w : Waiter) (i : Nat) (ps : List Byte) : (ckpNowRun s w i ps).memQueue = s.memQueue := by
  simp only [ckpNowRun]
  repeat' split
  all_goals simp

theorem ckpNowSpec_kept : Spec.Kept ckpNowSpec := by
  intro old s w i ps hk
  simp [ckpNowSpec, hk]

theorem execCkpNow_keeps {s : State} {c : Cmd} (hk : Keeps old s.memQueue) : KeepsNext old (execCkpNow c s) :=
  keepsNext_next.2 (State.command_keeps ckpNowSpec_kept hk)

theorem execCkpTimerExpire_keeps {s : State} {p : Nat} (hk : Keeps old s.memQueue) : KeepsNext old (execCkpTimerExpire p s) := by
  simp only [execCkpTimerExpire, keepsNext_next]
  split <;> simp [hk]

theorem execCaptureComplete_keeps {s : State} {p : Nat} (hk : Keeps old s.memQueue) : KeepsNext old (execCaptureComplete p s) := by
  simp only [execCaptureComplete, keepsNext_next]
  repeat' split
  all_goals simp [hk]

@[simp] theorem State.releaseGranule_keeps {s : State} {p g : Nat} (hk : Keeps old s.memQueue) :
    Keeps old (s.releaseGranule p g).memQueue := by
  simp [State.releaseGranule, hk]

@[simp] theorem State.failHurt_keeps {s : State} {p : Nat} (hk : Keeps old s.memQueue) : Keeps old (s.failHurt p).memQueue := by
  simp [State.failHurt, hk]

theorem execGranuleSaveDone_keeps {s : State} {p g : Nat} (hk : Keeps old s.memQueue) : KeepsNext old (execGranuleSaveDone p g s) := by
  simp only [execGranuleSaveDone, keepsNext_next]
  refine .ite (State.failHurt_keeps hk) ?_
  split
  next e => exact State.failHurt_keeps (State.releaseGranule_keeps (State.saveGranule_keeps (by simp [hk]) e))
  · exact hk

@[simp] theorem State.toStage_memQueue (s : State) (p n : Nat) : (s.toStage p n).memQueue = s.memQueue := (rfl)

@[simp] theorem State.openSlot_keeps {s : State} {p : Nat} {k : CkpConf} {i slot : Nat} (hk : Keeps old s.memQueue) :
    Keeps old (s.openSlot p k i slot).memQueue := by
  simp only [State.openSlot]
  split
  next e => simpa using State.destWrite_keeps hk e
  · simp [hk]

@[simp] theorem State.writeManifest_keeps {s : State} {p : Nat} {k : CkpConf} {m : CkpMeta} (hk : Keeps old s.memQueue) :
    Keeps old (s.writeManifest p k m).memQueue := by
  simp only [State.writeManifest]
  split
  next e => simpa using State.destWrite_keeps hk e
  · simp [hk]

theorem State.copierTurn_memQueue {s t : State} {k : CkpConf} {c : Ckp} (e : s.copierTurn k c = some t) : t.memQueue = s.memQueue := by
  simp only [State.copierTurn] at e
  split at e
  · cases e
    rfl
  · split at e
    · cases e
      rfl
    · split at e
      next ea =>
        split at e
        · cases e
          exact State.arbiter_memQueue ea
        · cases e
      next => cases e

@[simp] theorem State.copyPiece_keeps {s : State} {p : Nat} {k : CkpConf} {m : CkpMeta} (hk : Keeps old s.memQueue) :
    Keeps old (s.copyPiece p k m).memQueue := by
  simp only [State.copyPiece]
  split
  · simpa using hk
  · split
    · exact State.ckpFail_keeps (by simp [hk])
    · split
      · exact State.ckpFail_keeps (by simp [hk])
      next t e =>
        have h1 : Keeps old t.memQueue := State.destWrite_keeps (by simp [hk]) e
        refine .ite ?_ (.ite (by simp [h1]) (by simp [h1]))
        rw [State.toStage_memQueue]
        exact .ite (by simp [h1]) (by simp [h1])

@[simp] theorem State.copierAct_keeps {s : State} {p : Nat} {k : CkpConf} {m : CkpMeta} (hk : Keeps old s.memQueue) :
    Keeps old (s.copierAct p k m).memQueue := by
  simp only [State.copierAct]
  split
  · simp [hk]
  · simp [hk]
  · split
    next e => exact State.ckpFail_keeps (by rwa [State.destDone_error e])
    next e => rwa [State.destDone_ok e]
    next t e =>
      have h1 : Keeps old t.memQueue := by rwa [State.destDone_ok e]
      split <;> simp [h1]

theorem execCopierGranule_keeps {s : State} {p : Nat} (hk : Keeps old s.memQueue) : KeepsNext old (execCopierGranule p s) := by
  simp only [execCopierGranule, keepsNext_next]
  split
  · refine .ite hk (.ite (State.ckpFail_keeps hk) (.ite (State.ckpFail_keeps hk) (.ite (State.ckpFail_keeps hk) ?_)))
    split
    · exact hk
    next t e =>
      have h1 : Keeps old t.memQueue := by rwa [State.copierTurn_memQueue e]
      refine .ite (State.copierAct_keeps h1) ?_
      split <;> simp [h1]
  · exact hk

theorem execCkptSeal_keeps {s : State} {p : Nat} (hk : Keeps old s.memQueue) : KeepsNext old (execCkptSeal p s) := by
  simp only [execCkptSeal, keepsNext_next]
  split
  · refine .ite hk (.ite (State.ckpFail_keeps hk) ?_)
    split
    next e => exact State.ckpFail_keeps (by rwa [State.destDone_error e])
    next e => rwa [State.destDone_ok e]
    next t e =>
      have h1 : Keeps old t.memQueue := by rwa [State.destDone_ok e]
      split
      · simp [h1]
      · split
        · split <;> simp [h1]
        · simp [h1]
  · exact hk

@[simp] theorem ckpConfigRun_memQueue (s : State) (w : Waiter) (i : Nat) (ps : List Byte) :
    (ckpConfigRun s w i ps).memQueue = s.memQueue := by
  unfold ckpConfigRun
  split
  · rfl
  · extract_lets x st nreg
    split
    · rfl
    · split
      · rfl
      · split
        next e => simp [memQueue_fst e]
        next t _ e =>
          have h1 : t.memQueue = s.memQueue := by simp [memQueue_fst e]
          extract_lets k1 s1
          have h2 : s1.memQueue = s.memQueue := by simpa [s1] using h1
          clear_value s1
          split
          · simp [h1]
          · split
            · split <;> simp [h2]
            · simp [h2]

theorem ckpConfigSpec_kept : Spec.Kept ckpConfigSpec := by
  intro old s w i ps hk
  simp [ckpConfigSpec, hk]

theorem execCkpConfig_keeps {s : State} {c : Cmd} (hk : Keeps old s.memQueue) : KeepsNext old (execCkpConfig c s) :=
  keepsNext_next.2 (State.command_keeps ckpConfigSpec_kept hk)

theorem ckpStatusSpec_kept : Spec.Kept ckpStatusSpec := by
  intro old s w i ps hk
  simp only [ckpStatusSpec]
  split <;> simp [hk]

theorem execCkpStatus_keeps {s : State} {c : Cmd} (hk : Keeps old s.memQueue) : KeepsNext old (execCkpStatus c s) :=
  keepsNext_next.2 (State.command_keeps ckpStatusSpec_kept hk)

@[simp] theorem State.manifestOf_memQueue (s : State) (k : CkpConf) (i slot : Nat) : (s.manifestOf k i slot).1.memQueue = s.memQueue := by
  simp only [State.manifestOf]
  split
  next e => simp [memQueue_fst e]
  next e1 =>
    split
    · simp [memQueue_fst e1]
    · split
      next e2 => simp [memQueue_fst e2, memQueue_fst e1]
      next e2 => simp [memQueue_fst e2, memQueue_fst e1]

@[simp] theorem State.restoreShards_keeps {s : State} {p : Nat} {k : CkpConf} {i : Nat} {man : List Byte} {slot fuel j : Nat}
    (hk : Keeps old s.memQueue) : Keeps old (s.restoreShards p k i man slot fuel j).1.memQueue := by
  induction fuel generalizing s j with
  | zero => exact hk
  | succ fuel ih =>
    simp only [State.restoreShards]
    split
    next e => exact hk.fst_same (State.destRead_memQueue ..) e
    next t _ e =>
      have h1 : Keeps old t.memQueue := hk.fst_same (State.destRead_memQueue ..) e
      split
      · exact h1
      · split
        · exact ih (by simp [h1])
        · split
          · simpa using h1
          · split
            next e => exact ih ((State.writeBy_keeps h1).fst e)
            next e => simpa using (State.writeBy_keeps h1).fst e
            next e => exact (State.writeBy_keeps h1).fst e

@[simp] theorem ckpRestoreRun_keeps {s : State} {w : Waiter} {i : Nat} {ps : List Byte} (hk : Keeps old s.memQueue) :
    Keeps old (ckpRestoreRun s w i ps).memQueue := by
  simp only [ckpRestoreRun]
  split
  · exact hk
  · split
    · exact hk
    · exact hk
    · split
      · exact hk
      · split
        · exact hk
        · split
          next e => exact hk.fst_same (State.manifestOf_memQueue ..) e
          next t1 _ e =>
            have h1 : Keeps old t1.memQueue := hk.fst_same (State.manifestOf_memQueue ..) e
            split
            next e => exact h1.fst_same (State.manifestOf_memQueue ..) e
            next t2 _ e =>
              have h2 : Keeps old t2.memQueue := h1.fst_same (State.manifestOf_memQueue ..) e
              split
              · exact h2
              · split
                · exact h2
                · split
                  · exact h2
                  · split
                    next t3 _ _ e =>
                      have h3 : Keeps old t3.memQueue := (State.restoreShards_keeps h2).fst e
                      simp [h3]
                    next t3 e =>
                      have h3 : Keeps old t3.memQueue := (State.restoreShards_keeps h2).fst e
                      simp [h3]

theorem ckpRestoreSpec_kept : Spec.Kept ckpRestoreSpec := by
  intro old s w i ps hk
  simp [ckpRestoreSpec, hk]

theorem execCkpRestore_keeps {s : State} {c : Cmd} (hk : Keeps old s.memQueue) : KeepsNext old (execCkpRestore c s) :=
  keepsNext_next.2 (State.command_keeps ckpRestoreSpec_kept hk)

/-! ## Flits that a router sends on -/

@[simp] theorem State.dieTakes_keeps {s : State} {x y : Nat} {fl : Flit} (hk : Keeps old s.memQueue) :
    Keeps old (s.dieTakes x y fl).memQueue := by
  unfold State.dieTakes
  split <;> simp [hk]

theorem execFlitRoute_keeps {s : State} {x y port : Nat} {fl : Flit} (hk : Keeps old s.memQueue) :
    KeepsNext old (execFlitRoute x y port fl s) := by
  simp only [execFlitRoute, keepsNext_next]
  repeat' split
  all_goals simp [hk]

/-! ## Containment of faults -/

@[simp] theorem State.answerFlits_memQueue (s : State) (d : Nat) : (s.answerFlits d).memQueue = s.memQueue := by
  simp [State.answerFlits]

@[simp] theorem State.endPeers_memQueue (s : State) : s.endPeers.memQueue = s.memQueue := by
  simp only [State.endPeers]
  refine foldl_memQueue (fun s e => foldl_memQueue (fun s t => ?_) ..) ..
  split
  · split <;> simp
  · rfl

@[simp] theorem State.failDie_keeps {s : State} {d : Nat} (hk : Keeps old s.memQueue) : Keeps old (s.failDie d).memQueue := by
  simp [State.failDie, hk]

@[simp] theorem State.faultDie_keeps {s : State} {code d : Nat} (hk : Keeps old s.memQueue) : Keeps old (s.faultDie code d).memQueue := by
  simp [State.faultDie, hk]

@[simp] theorem State.stopDie_keeps {s : State} {code d : Nat} (hk : Keeps old s.memQueue) : Keeps old (s.stopDie code d).memQueue := by
  simp [State.stopDie, hk]

@[simp] theorem State.faultEndpoint_keeps {s : State} (hk : Keeps old s.memQueue) : Keeps old (s.faultEndpoint).memQueue := by
  simp [State.faultEndpoint, hk]

@[simp] theorem State.alarm_keeps {s : State} {src sensor : Nat} (hk : Keeps old s.memQueue) : Keeps old (s.alarm src sensor).memQueue := by
  simp [State.alarm, hk]

@[simp] theorem State.endCommands_keeps {s : State} {status detail : Nat} (hk : Keeps old s.memQueue) :
    Keeps old (s.endCommands status detail).memQueue :=
  foldl_keeps (fun _ _ => foldl_keeps (fun _ _ => by simp) (by simp)) hk

@[simp] theorem State.faultBezel_keeps {s : State} (hk : Keeps old s.memQueue) : Keeps old (s.faultBezel).memQueue := by
  simp [State.faultBezel, hk]

/-! ## Remote-memory commands -/

theorem rmaCtxAreaSpec_kept : Spec.Kept rmaCtxAreaSpec := by
  intro old s w i ps hk
  simp only [rmaCtxAreaSpec]
  repeat' split
  all_goals simp [hk]

theorem execRmaCtxArea_keeps {s : State} {c : Cmd} (hk : Keeps old s.memQueue) : KeepsNext old (execRmaCtxArea c s) :=
  keepsNext_next.2 (State.command_keeps rmaCtxAreaSpec_kept hk)

theorem rmaPdAllocSpec_kept : Spec.Kept rmaPdAllocSpec := by
  intro old s w i ps hk
  simp only [rmaPdAllocSpec]
  repeat' split
  all_goals simp [hk]

theorem execRmaPdAlloc_keeps {s : State} {c : Cmd} (hk : Keeps old s.memQueue) : KeepsNext old (execRmaPdAlloc c s) :=
  keepsNext_next.2 (State.command_keeps rmaPdAllocSpec_kept hk)

theorem rmaPdFreeSpec_kept : Spec.Kept rmaPdFreeSpec := by
  intro old s w i ps hk
  simp only [rmaPdFreeSpec]
  split <;> simp [hk]

theorem execRmaPdFree_keeps {s : State} {c : Cmd} (hk : Keeps old s.memQueue) : KeepsNext old (execRmaPdFree c s) :=
  keepsNext_next.2 (State.command_keeps rmaPdFreeSpec_kept hk)

@[simp] theorem rmaQpCreateRun_memQueue (s : State) (w : Waiter) (i : Nat) (ps : List Byte) :
    (rmaQpCreateRun s w i ps).memQueue = s.memQueue := by
  unfold rmaQpCreateRun
  split <;> simp

theorem rmaQpCreateSpec_kept : Spec.Kept rmaQpCreateSpec := by
  intro old s w i ps hk
  simp [rmaQpCreateSpec, hk]

theorem execRmaQpCreate_keeps {s : State} {c : Cmd} (hk : Keeps old s.memQueue) : KeepsNext old (execRmaQpCreate c s) :=
  keepsNext_next.2 (State.command_keeps rmaQpCreateSpec_kept hk)

@[simp] theorem State.endEng_memQueue (s : State) (q : Qp) : (s.endEng q).memQueue = s.memQueue := by
  simp [State.endEng]

@[simp] theorem rmaQpModifyRun_keeps {s : State} {x : Waiter} {i : Nat} {ps : List Byte} (hk : Keeps old s.memQueue) :
    Keeps old (rmaQpModifyRun s x i ps).memQueue := by
  unfold rmaQpModifyRun
  repeat' split
  all_goals simp [hk]

theorem rmaQpModifySpec_kept : Spec.Kept rmaQpModifySpec := by
  intro old s w i ps hk
  simp [rmaQpModifySpec, hk]

theorem execRmaQpModify_keeps {s : State} {c : Cmd} (hk : Keeps old s.memQueue) : KeepsNext old (execRmaQpModify c s) :=
  keepsNext_next.2 (State.command_keeps rmaQpModifySpec_kept hk)

@[simp] theorem State.destroyQp_memQueue (s : State) (k : Nat) : (s.destroyQp k).memQueue = s.memQueue := (rfl)

theorem rmaQpDestroySpec_kept : Spec.Kept rmaQpDestroySpec := by
  intro old s w i ps hk
  simp only [rmaQpDestroySpec]
  split <;> simp [hk]

theorem execRmaQpDestroy_keeps {s : State} {c : Cmd} (hk : Keeps old s.memQueue) : KeepsNext old (execRmaQpDestroy c s) :=
  keepsNext_next.2 (State.command_keeps rmaQpDestroySpec_kept hk)

theorem rmaQpGetSpec_kept : Spec.Kept rmaQpGetSpec := by
  intro old s w i ps hk
  simp only [rmaQpGetSpec]
  split <;> simp [hk]

theorem execRmaQpGet_keeps {s : State} {c : Cmd} (hk : Keeps old s.memQueue) : KeepsNext old (execRmaQpGet c s) :=
  keepsNext_next.2 (State.command_keeps rmaQpGetSpec_kept hk)

@[simp] theorem rmaMwOpenRun_memQueue (s : State) (w : Waiter) (i : Nat) (ps : List Byte) :
    (rmaMwOpenRun s w i ps).memQueue = s.memQueue := by
  unfold rmaMwOpenRun
  split <;> simp

theorem rmaMwOpenSpec_kept : Spec.Kept rmaMwOpenSpec := by
  intro old s w i ps hk
  simp [rmaMwOpenSpec, hk]

theorem execRmaMwOpen_keeps {s : State} {c : Cmd} (hk : Keeps old s.memQueue) : KeepsNext old (execRmaMwOpen c s) :=
  keepsNext_next.2 (State.command_keeps rmaMwOpenSpec_kept hk)

@[simp] theorem State.stopReads_memQueue (s : State) (n : Nat) : (s.stopReads n).memQueue = s.memQueue := (rfl)

theorem rmaMwRevokeSpec_kept : Spec.Kept rmaMwRevokeSpec := by
  intro old s w i ps hk
  simp only [rmaMwRevokeSpec]
  split <;> simp [hk]

theorem execRmaMwRevoke_keeps {s : State} {c : Cmd} (hk : Keeps old s.memQueue) : KeepsNext old (execRmaMwRevoke c s) :=
  keepsNext_next.2 (State.command_keeps rmaMwRevokeSpec_kept hk)

@[simp] theorem State.freeWindow_memQueue (s : State) (n : Nat) : (s.freeWindow n).memQueue = s.memQueue := (rfl)

theorem execMwRevokeDrained_keeps {s : State} {w : Nat} (hk : Keeps old s.memQueue) : KeepsNext old (execMwRevokeDrained w s) := by
  simp only [execMwRevokeDrained, keepsNext_next]
  repeat' split
  all_goals simp [hk]

theorem rmaDbSetSpec_kept : Spec.Kept rmaDbSetSpec := by
  intro old s w i ps hk
  simp [rmaDbSetSpec, hk]

theorem execRmaDbSet_keeps {s : State} {c : Cmd} (hk : Keeps old s.memQueue) : KeepsNext old (execRmaDbSet c s) :=
  keepsNext_next.2 (State.command_keeps rmaDbSetSpec_kept hk)

@[simp] theorem State.dropRma_keeps {s : State} {i : Nat} (hk : Keeps old s.memQueue) : Keeps old (s.dropRma i).memQueue := by
  simp only [State.dropRma, State.memQueue_mk, State.mem_pending]
  refine foldl_keeps (fun s e => ?_) (foldl_keeps (fun s e => ?_) hk)
  · split <;> simp
  · simp

end Sys2Proof.Machine
end

section
/-! PROOF. Tenants, power, the loupe, firmware and diagnostics keep the memory's form and the queue. -/

namespace Sys2Proof.Machine

variable {old : MemQueue}

/-! ## Instances, parcels, maps and budgets -/

@[simp] theorem State.writeEntries_keeps {s : State} {i first : Nat} {es : List Nat} (hk : Keeps old s.memQueue) :
    Keeps old (s.writeEntries i first es).memQueue := by
  simp [State.writeEntries, hk]

@[simp] theorem State.zeroGrans_keeps {s : State} {gs : List Nat} (hk : Keeps old s.memQueue) : Keeps old (s.zeroGrans gs).memQueue := by
  simp [State.zeroGrans, hk]

@[simp] theorem State.mapBatch_keeps {s : State} {i : Nat} {w : Waiter} {first count entry done : Nat} (hk : Keeps old s.memQueue) :
    Keeps old (s.mapBatch i w first count entry done).1.memQueue := by
  simp only [State.mapBatch]
  exact State.zeroGrans_keeps (State.writeEntries_keeps (State.drainHbm_keeps hk))

@[simp] theorem pclMapSetRun_keeps {s : State} {w : Waiter} {i : Nat} {ps : List Byte} (hk : Keeps old s.memQueue) :
    Keeps old (pclMapSetRun s w i ps).memQueue := by
  simp only [pclMapSetRun]
  repeat' split
  all_goals simp [hk]

theorem pclMapSetSpec_kept : Spec.Kept pclMapSetSpec := by
  intro old s w i ps hk
  simp [pclMapSetSpec, hk]

theorem execPclMapSet_keeps {s : State} {c : Cmd} (hk : Keeps old s.memQueue) : KeepsNext old (execPclMapSet c s) :=
  keepsNext_next.2 (State.command_keeps pclMapSetSpec_kept hk)

theorem execMapSetDrained_keeps {s : State} {i : Nat} (hk : Keeps old s.memQueue) : KeepsNext old (execMapSetDrained i s) := by
  simp only [execMapSetDrained, keepsNext_next]
  split
  · exact hk
  next m t _ =>
    have h1 : Keeps old s.drainHbm.memQueue := State.drainHbm_keeps hk
    have h2 (gs : List Nat) : Keeps old (s.drainHbm.zeroGrans gs).memQueue := State.zeroGrans_keeps h1
    generalize (m.zero.filter fun g => !s.drainHbm.granMapped g) = gs
    specialize h2 gs
    generalize s.drainHbm.zeroGrans gs = u at *
    refine .ite h1 (.ite ?_ (.ite ?_ ?_))
    · simp [h2]
    · simp [h2]
    · simp [h2]

@[simp] theorem pclInstCreateRun_keeps {s : State} {w : Waiter} {i : Nat} {ps : List Byte} (hk : Keeps old s.memQueue) :
    Keeps old (pclInstCreateRun s w i ps).memQueue := by
  simp [pclInstCreateRun, hk]

theorem pclInstCreateSpec_kept : Spec.Kept pclInstCreateSpec := by
  intro old s w i ps hk
  simp [pclInstCreateSpec, hk]

theorem execPclInstCreate_keeps {s : State} {c : Cmd} (hk : Keeps old s.memQueue) : KeepsNext old (execPclInstCreate c s) :=
  keepsNext_next.2 (State.command_keeps pclInstCreateSpec_kept hk)

@[simp] theorem State.dropTraffic_memQueue (s : State) (i : Nat) : (s.dropTraffic i).memQueue = s.memQueue := by
  simp [State.dropTraffic]

@[simp] theorem State.dropCkp_keeps {s : State} {p : Nat} (hk : Keeps old s.memQueue) : Keeps old (s.dropCkp p).memQueue := by
  simp [State.dropCkp, hk]

@[simp] theorem State.destroyOwned_keeps {s : State} {i : Nat} (hk : Keeps old s.memQueue) : Keeps old (s.destroyOwned i).memQueue := by
  unfold State.destroyOwned
  extract_lets s1 s2 st ci s3 s4 s5 s6 s7 lo et
  have h2 : Keeps old s2.memQueue := foldl_keeps (fun s e => .ite (by simp) (by simp)) (by simp [s1, hk])
  have h3 : Keeps old s3.memQueue := by simpa [s3] using h2
  clear_value s3
  have h5 : Keeps old s5.memQueue := foldl_keeps (fun _ _ => by simp) (State.gatherReset_keeps h3)
  have h7 : Keeps old s7.memQueue := foldl_keeps (fun _ _ => by simp) (by simp [s6, h5])
  exact h7

@[simp] theorem State.beginReset_keeps {s : State} {w : Waiter} {i : Nat} {st : InstState} (hk : Keeps old s.memQueue) :
    Keeps old (s.beginReset w i st).memQueue := by
  simp only [State.beginReset]
  exact State.destroyOwned_keeps (foldl_keeps (fun _ _ => by simp) (by simp [hk]))

@[simp] theorem pclResetRun_keeps {s : State} {st : InstState} {w : Waiter} {i : Nat} {ps : List Byte} (hk : Keeps old s.memQueue) :
    Keeps old (pclResetRun st s w i ps).memQueue := by
  simp [pclResetRun, hk]

theorem pclInstResetSpec_kept : Spec.Kept pclInstResetSpec := by
  intro old s w i ps hk
  simp [pclInstResetSpec, hk]

theorem execPclInstReset_keeps {s : State} {c : Cmd} (hk : Keeps old s.memQueue) : KeepsNext old (execPclInstReset c s) :=
  keepsNext_next.2 (State.command_keeps pclInstResetSpec_kept hk)

theorem pclInstRemoveSpec_kept : Spec.Kept pclInstRemoveSpec := by
  intro old s w i ps hk
  simp [pclInstRemoveSpec, hk]

theorem execPclInstRemove_keeps {s : State} {c : Cmd} (hk : Keeps old s.memQueue) : KeepsNext old (execPclInstRemove c s) :=
  keepsNext_next.2 (State.command_keeps pclInstRemoveSpec_kept hk)

@[simp] theorem State.freeParcel_keeps {s : State} {p : Nat} (hk : Keeps old s.memQueue) : Keeps old (s.freeParcel p).memQueue := by
  simp only [State.freeParcel, State.refreshRails_memQueue, State.memQueue_mk, State.mem_pending, State.putParcel_memQueue]
  refine foldl_keeps (fun s f => ?_) hk
  rw [State.modFacet_memQueue]
  refine foldl_keeps (fun s b => .ite ?_ ?_) ?_ <;> simp

@[simp] theorem State.removeRest_keeps {s : State} {i : Nat} (hk : Keeps old s.memQueue) : Keeps old (s.removeRest i).memQueue := by
  unfold State.removeRest
  extract_lets s1 es s2 s3 s4 s5
  have h2 : Keeps old s2.memQueue := foldl_keeps (fun _ _ => by simp) (by simp [s1, hk])
  have h4 : Keeps old s4.memQueue := foldl_keeps (fun _ _ => by simp) (by simp [s3, h2])
  have h5 : Keeps old s5.memQueue := by
    refine foldl_keeps (fun s e => State.dropNs_keeps ?_) h4
    refine .ite ?_ (.ite ?_ ?_) <;> simp
  simpa using h5

@[simp] theorem State.unsync_memQueue (s : State) (i : Nat) : (s.unsync i).memQueue = s.memQueue := (rfl)

theorem execInstResetDrained_keeps {s : State} {i : Nat} (hk : Keeps old s.memQueue) : KeepsNext old (execInstResetDrained i s) := by
  simp only [execInstResetDrained, keepsNext_next]
  split
  · exact hk
  · refine .ite hk (.ite hk ?_)
    have h1 : Keeps old ((s.parcelsOf i).foldl (fun s p => (s.parcel p).facets.foldl State.emptyFacet s) s).memQueue :=
      foldl_keeps (fun _ _ => foldl_keeps (fun _ _ => by simp) (by simp)) hk
    rw [State.refreshRails_memQueue]
    refine State.finish_keeps ?_
    rw [State.unsync_memQueue]
    exact .ite (by simp [h1]) (by simp [h1])

theorem execInstResetTimeout_keeps {s : State} {i die : Nat} (hk : Keeps old s.memQueue) :
    KeepsNext old (execInstResetTimeout i die s) := by
  simp only [execInstResetTimeout, keepsNext_next]
  split <;> simp [hk]

@[simp] theorem pclParcelAllocRun_memQueue (s : State) (w : Waiter) (i : Nat) (ps : List Byte) :
    (pclParcelAllocRun s w i ps).memQueue = s.memQueue := by
  unfold pclParcelAllocRun
  split <;> simp

theorem pclParcelAllocSpec_kept : Spec.Kept pclParcelAllocSpec := by
  intro old s w i ps hk
  simp [pclParcelAllocSpec, hk]

theorem execPclParcelAlloc_keeps {s : State} {c : Cmd} (hk : Keeps old s.memQueue) : KeepsNext old (execPclParcelAlloc c s) :=
  keepsNext_next.2 (State.command_keeps pclParcelAllocSpec_kept hk)

theorem pclParcelFreeSpec_kept : Spec.Kept pclParcelFreeSpec := by
  intro old s w i ps hk
  simp [pclParcelFreeSpec, hk]

theorem execPclParcelFree_keeps {s : State} {c : Cmd} (hk : Keeps old s.memQueue) : KeepsNext old (execPclParcelFree c s) :=
  keepsNext_next.2 (State.command_keeps pclParcelFreeSpec_kept hk)

theorem pclShareSetSpec_kept : Spec.Kept pclShareSetSpec := by
  intro old s w i ps hk
  simp [pclShareSetSpec, hk]

theorem execPclShareSet_keeps {s : State} {c : Cmd} (hk : Keeps old s.memQueue) : KeepsNext old (execPclShareSet c s) :=
  keepsNext_next.2 (State.command_keeps pclShareSetSpec_kept hk)

theorem pclBudgetSetSpec_kept : Spec.Kept pclBudgetSetSpec := by
  intro old s w i ps hk
  simp [pclBudgetSetSpec, hk]

theorem execPclBudgetSet_keeps {s : State} {c : Cmd} (hk : Keeps old s.memQueue) : KeepsNext old (execPclBudgetSet c s) :=
  keepsNext_next.2 (State.command_keeps pclBudgetSetSpec_kept hk)

theorem pclAcctConfigSpec_kept : Spec.Kept pclAcctConfigSpec := by
  intro old s w i ps hk
  simp only [pclAcctConfigSpec]
  split
  · simpa using hk
  · split
    · exact hk
    · split
      next e => exact (State.ringReset_keeps hk).fst e
      next e => simpa using (State.ringReset_keeps hk).fst e

theorem execPclAcctConfig_keeps {s : State} {c : Cmd} (hk : Keeps old s.memQueue) : KeepsNext old (execPclAcctConfig c s) :=
  keepsNext_next.2 (State.command_keeps pclAcctConfigSpec_kept hk)

theorem pclInstStatusSpec_kept : Spec.Kept pclInstStatusSpec := by
  intro old s w i ps hk
  simp [pclInstStatusSpec, hk]

theorem execPclInstStatus_keeps {s : State} {c : Cmd} (hk : Keeps old s.memQueue) : KeepsNext old (execPclInstStatus c s) :=
  keepsNext_next.2 (State.command_keeps pclInstStatusSpec_kept hk)

theorem execAcctPeriod_keeps {s : State} (hk : Keeps old s.memQueue) : KeepsNext old (execAcctPeriod s) := by
  simp only [execAcctPeriod, keepsNext_next]
  repeat' split
  all_goals simp [hk]

@[simp] theorem State.chargeEnergy_memQueue (s : State) (i fj : Nat) : (s.chargeEnergy i fj).memQueue = s.memQueue := (rfl)

@[simp] theorem State.apportion_memQueue (s : State) (f : Nat) (by_ : List (Nat × Nat)) : (s.apportion f by_).1.memQueue = s.memQueue := by
  simp [State.apportion]

theorem execEnergyInterval_keeps {s : State} (hk : Keeps old s.memQueue) : KeepsNext old (execEnergyInterval s) := by
  simp only [execEnergyInterval, keepsNext_next, State.memQueue_mk, State.mem_pending]
  refine foldl_keeps (fun s e => .ite ?_ ?_) (foldl_fst_keeps (fun r x => ?_) ?_) <;> simp [hk]

/-! ## Power -/

@[simp] theorem State.sampleRail_memQueue (s : State) (r : Nat) (v : Option (Nat × Nat)) : (s.sampleRail r v).memQueue = s.memQueue := by
  unfold State.sampleRail
  split <;> simp

theorem execAvsSample_keeps {s : State} {readings : List (Option (Nat × Nat))} (hk : Keeps old s.memQueue) :
    KeepsNext old (execAvsSample readings s) := by
  simp [execAvsSample, hk]

theorem execIssueGateReopen_keeps {s : State} {field : Nat} (hk : Keeps old s.memQueue) : KeepsNext old (execIssueGateReopen field s) := by
  simp only [execIssueGateReopen, keepsNext_next]
  split <;> simp [hk]

theorem execThermalCeilingTick_keeps {s : State} {temps : List Nat} (hk : Keeps old s.memQueue) :
    KeepsNext old (execThermalCeilingTick temps s) := by
  simp [execThermalCeilingTick, hk]

theorem execPowerCapTick_keeps {s : State} (hk : Keeps old s.memQueue) : KeepsNext old (execPowerCapTick s) := by
  simp only [execPowerCapTick, keepsNext_next]
  repeat' split
  all_goals simp [hk]

@[simp] theorem State.startEntry_memQueue (s : State) (r : Nat) : (s.startEntry r).memQueue = s.memQueue := (rfl)

theorem execDozeIdleExpire_keeps {s : State} (hk : Keeps old s.memQueue) : KeepsNext old (execDozeIdleExpire s) := by
  simp [execDozeIdleExpire, hk]

theorem execRungEntryStart_keeps {s : State} (hk : Keeps old s.memQueue) : KeepsNext old (execRungEntryStart s) := by
  simp only [execRungEntryStart, keepsNext_next]
  split <;> simp [hk]

theorem execRungEntryComplete_keeps {s : State} (hk : Keeps old s.memQueue) : KeepsNext old (execRungEntryComplete s) := by
  simp only [execRungEntryComplete, keepsNext_next]
  split <;> simp [hk]

@[simp] theorem State.startExit_memQueue (s : State) (w : Wake) : (s.startExit w).memQueue = s.memQueue := by
  simp [State.startExit]

theorem execWakeEvent_keeps {s : State} {w : Wake} (hk : Keeps old s.memQueue) : KeepsNext old (execWakeEvent w s) := by
  simp [execWakeEvent, hk]

theorem execWakeAtExpire_keeps {s : State} (hk : Keeps old s.memQueue) : KeepsNext old (execWakeAtExpire s) := by
  simp [execWakeAtExpire, hk]

theorem execPwrwakeNAssert_keeps {s : State} (hk : Keeps old s.memQueue) : KeepsNext old (execPwrwakeNAssert s) := by
  simp [execPwrwakeNAssert, hk]

@[simp] theorem State.finishExit_keeps {s : State} (hk : Keeps old s.memQueue) : Keeps old (s.finishExit).memQueue := by
  simp [State.finishExit, hk]

@[simp] theorem pwrRungSetRun_keeps {s : State} {w : Waiter} {i : Nat} {ps : List Byte} (hk : Keeps old s.memQueue) :
    Keeps old (pwrRungSetRun s w i ps).memQueue := by
  simp [pwrRungSetRun, hk]

theorem pwrRungSetSpec_kept : Spec.Kept pwrRungSetSpec := by
  intro old s w i ps hk
  simp [pwrRungSetSpec, hk]

theorem execPwrRungSet_keeps {s : State} {c : Cmd} (hk : Keeps old s.memQueue) : KeepsNext old (execPwrRungSet c s) :=
  keepsNext_next.2 (State.command_keeps pwrRungSetSpec_kept hk)

theorem pwrStatusSpec_kept : Spec.Kept pwrStatusSpec := by
  intro old s w i ps hk
  simp [pwrStatusSpec, hk]

theorem execPwrStatus_keeps {s : State} {c : Cmd} (hk : Keeps old s.memQueue) : KeepsNext old (execPwrStatus c s) :=
  keepsNext_next.2 (State.command_keeps pwrStatusSpec_kept hk)

theorem pwrCapSetSpec_kept : Spec.Kept pwrCapSetSpec := by
  intro old s w i ps hk
  simp [pwrCapSetSpec, hk]

theorem execPwrCapSet_keeps {s : State} {c : Cmd} (hk : Keeps old s.memQueue) : KeepsNext old (execPwrCapSet c s) :=
  keepsNext_next.2 (State.command_keeps pwrCapSetSpec_kept hk)

theorem pwrPaceSetSpec_kept : Spec.Kept pwrPaceSetSpec := by
  intro old s w i ps hk
  simp only [pwrPaceSetSpec]
  split <;> simp [hk]

theorem execPwrPaceSet_keeps {s : State} {c : Cmd} (hk : Keeps old s.memQueue) : KeepsNext old (execPwrPaceSet c s) :=
  keepsNext_next.2 (State.command_keeps pwrPaceSetSpec_kept hk)

@[simp] theorem State.writeRailctl_memQueue (s : State) (v : BitVec 64) : (s.writeRailctl v).memQueue = s.memQueue := by
  simp [State.writeRailctl]

/-! ## The loupe -/

@[simp] theorem State.logDropped_memQueue (s : State) (sev : Nat) : (s.logDropped sev).memQueue = s.memQueue := (rfl)

@[simp] theorem State.ilogWrite_keeps {s : State} {i : Nat} {l : InstanceLog} {seq : Nat} {bs : List Byte} (hk : Keeps old s.memQueue) :
    Keeps old (s.ilogWrite i l seq bs).memQueue := by
  unfold State.ilogWrite
  extract_lets base wrap put p0 full prod wraps done
  have hp {t u : State} {a : Nat} {b : List Byte} (ht : Keeps old t.memQueue) (e : put t a b = some u) : Keeps old u.memQueue := by
    simp only [put] at e
    split at e
    next ew =>
      cases e
      exact (State.writeBy_keeps ht).fst ew
    next => cases e
  have hd {t : State} (e : done = some t) : Keeps old t.memQueue := by
    obtain ⟨u, hu, e⟩ := Option.bind_eq_some_iff.mp e
    obtain ⟨v, hv, hu⟩ := Option.bind_eq_some_iff.mp hu
    refine hp (hp ?_ hu) e
    split at hv
    · exact hp hk hv
    · cases hv
      exact hk
  clear_value done
  split
  next t => simpa using hd rfl
  · simpa using hk

@[simp] theorem State.toIlog_keeps {s : State} {r : Record} (hk : Keeps old s.memQueue) : Keeps old (s.toIlog r).memQueue := by
  unfold State.toIlog
  repeat' split
  all_goals simp [hk]

theorem State.dlogPut_keeps {s t : State} {d : DeviceLog} {off : Nat} {bs : List Byte} (hk : Keeps old s.memQueue)
    (e : s.dlogPut d off bs = some t) : Keeps old t.memQueue := by
  simp only [State.dlogPut] at e
  split at e
  next ew =>
    cases e
    exact (State.writeBy_keeps hk).fst ew
  next => cases e

@[simp] theorem State.setDlog_memQueue (s : State) (d : Option DeviceLog) : (s.setDlog d).memQueue = s.memQueue := (rfl)

theorem State.sealSegment_keeps {s t : State} {d d1 : DeviceLog} {k : Nat} {g : Segment} (hk : Keeps old s.memQueue)
    (e : s.sealSegment d k g = some (t, d1)) : Keeps old t.memQueue := by
  obtain ⟨u, hu, e⟩ := Option.map_eq_some_iff.mp e
  obtain ⟨v, hv, hu⟩ := Option.bind_eq_some_iff.mp hu
  cases e
  refine State.dlogPut_keeps ?_ hu
  split at hv
  · exact State.dlogPut_keeps hk hv
  · cases hv
    exact hk

theorem State.fillSegment_keeps {s t : State} {d : DeviceLog} {k : Nat} {g : Segment} {r : Record} (hk : Keeps old s.memQueue)
    (e : s.fillSegment d k g r = some t) : Keeps old t.memQueue := by
  obtain ⟨u, hu, rfl⟩ := Option.map_eq_some_iff.mp e
  obtain ⟨v, hv, hu⟩ := Option.bind_eq_some_iff.mp hu
  rw [State.setDlog_memQueue]
  exact State.dlogPut_keeps (State.dlogPut_keeps hk hv) hu

theorem State.dlogWrite_keeps {s t : State} {d : DeviceLog} {r : Record} (hk : Keeps old s.memQueue) (e : s.dlogWrite d r = some t) :
    Keeps old t.memQueue := by
  unfold State.dlogWrite at e
  extract_lets fresh cur next at e
  have hn {u v : State} {d : DeviceLog} (hu : Keeps old u.memQueue) (e : next u d = some v) : Keeps old v.memQueue := by
    simp only [next] at e
    split at e
    · exact State.fillSegment_keeps hu e
    · cases e
      simpa using hu
  clear_value next cur
  split at e
  · split at e
    · exact State.fillSegment_keeps hk e
    · obtain ⟨⟨u, d⟩, hu, e⟩ := Option.bind_eq_some_iff.mp e
      exact hn (State.sealSegment_keeps hk hu) e
  · exact hn hk e

@[simp] theorem State.floodCheck_memQueue (s : State) : (s.floodCheck).memQueue = s.memQueue := (rfl)

@[simp] theorem State.restage_memQueue (s : State) (g : Record → Record) : (s.restage g).memQueue = s.memQueue := (rfl)

@[simp] theorem State.drainRecord_keeps {s : State} {r : Record} (hk : Keeps old s.memQueue) : Keeps old (s.drainRecord r).memQueue := by
  unfold State.drainRecord
  extract_lets s1
  have h1 : Keeps old s1.memQueue := .ite hk (State.toIlog_keeps hk)
  clear_value s1
  split
  next t done e =>
    have h2 : Keeps old t.memQueue := by
      split at e
      · cases e
        exact h1
      · split at e
        · cases e
          exact h1
        · split at e
          · cases e
            simpa using h1
          · split at e
            next ew =>
              cases e
              exact State.dlogWrite_keeps h1 ew
            next =>
              cases e
              simpa using h1
    simpa using h2

theorem execLogDrain_keeps {s : State} (hk : Keeps old s.memQueue) : KeepsNext old (execLogDrain s) := by
  simp only [execLogDrain, keepsNext_next]
  split <;> simp [hk]

@[simp] theorem State.drainAll_keeps {s : State} {n : Nat} (hk : Keeps old s.memQueue) : Keeps old (s.drainAll n).memQueue := by
  induction n generalizing s with
  | zero => exact hk
  | succ n ih =>
    simp only [State.drainAll]
    split
    · exact ih (State.drainRecord_keeps hk)
    · exact hk

@[simp] theorem State.evictStaged_keeps {s : State} {n : Nat} (hk : Keeps old s.memQueue) : Keeps old (s.evictStaged n).memQueue := by
  induction n generalizing s with
  | zero => exact hk
  | succ n ih =>
    unfold State.evictStaged
    refine .ite hk ?_
    split
    · exact hk
    · extract_lets s1 lo s2 s3 lo3 s4
      have h1 : Keeps old s1.memQueue := .ite hk (State.toIlog_keeps hk)
      exact ih (.ite h1 h1)

@[simp] theorem State.flushFor_memQueue (s : State) (sev : Nat) : (s.flushFor sev).memQueue = s.memQueue := by
  simp [State.flushFor]

@[simp] theorem State.noteFault_memQueue (s : State) (e' : Event) (seq : Nat) : (s.noteFault e' seq).memQueue = s.memQueue := by
  simp [State.noteFault]

@[simp] theorem State.stageFallback_memQueue (s : State) (e' : Event) : (s.stageFallback e').memQueue = s.memQueue := by
  simp only [State.stageFallback]
  split <;> simp

@[simp] theorem State.stageEvent_keeps {s : State} {e' : Event} (hk : Keeps old s.memQueue) : Keeps old (s.stageEvent e').memQueue := by
  simp only [State.stageEvent]
  repeat' split
  all_goals simp [hk]

@[simp] theorem State.setFreeze_memQueue (s : State) (target : Nat) (f : Option Freeze) : (s.setFreeze target f).memQueue = s.memQueue := by
  unfold State.setFreeze
  repeat' split
  all_goals simp

@[simp] theorem State.stageThaw_keeps {s : State} {e' : Event} (hk : Keeps old s.memQueue) : Keeps old (s.stageThaw e').memQueue := by
  simp only [State.stageThaw]
  split <;> simp [hk]

@[simp] theorem State.takeFrom_keeps {s : State} {b : Nat} (hk : Keeps old s.memQueue) : Keeps old (s.takeFrom b).memQueue := by
  simp only [State.takeFrom]
  repeat' split
  all_goals simp [hk]

theorem execEventStage_keeps {s : State} (hk : Keeps old s.memQueue) : KeepsNext old (execEventStage s) := by
  simp only [execEventStage, keepsNext_next]
  split <;> simp [hk]

@[simp] theorem State.stageAll_keeps {s : State} {n : Nat} (hk : Keeps old s.memQueue) : Keeps old (s.stageAll n).memQueue := by
  induction n generalizing s with
  | zero => exact hk
  | succ n ih =>
    simp only [State.stageAll]
    split
    · exact ih (State.takeFrom_keeps hk)
    · exact hk

theorem execTimeMark_keeps {s : State} (hk : Keeps old s.memQueue) : KeepsNext old (execTimeMark s) := by
  simp [execTimeMark, hk]

@[simp] theorem State.flush_memQueue (s : State) (reason : Nat) (ok : Bool) : (s.flush reason ok).1.memQueue = s.memQueue := by
  simp only [State.flush]
  repeat' split
  all_goals simp

theorem execFlashFlush_keeps {s : State} {ok : Bool} (hk : Keeps old s.memQueue) : KeepsNext old (execFlashFlush ok s) := by
  simp only [execFlashFlush, keepsNext_next]
  repeat' split
  all_goals simp [hk]

@[simp] theorem logDlogSetRun_keeps {s : State} {w : Waiter} {i : Nat} {ps : List Byte} (hk : Keeps old s.memQueue) :
    Keeps old (logDlogSetRun s w i ps).memQueue := by
  unfold logDlogSetRun
  generalize List.range 4096 = segs
  extract_lets a n lo d blank s1 s2 lo2
  have h1 : Keeps old s1.memQueue := by
    refine foldl_keeps (fun s k => ?_) hk
    cases e : s.dlogPut d (k * segSize) (s.segHeader 0 blank) with
    | none => exact .refl _
    | some t => exact State.dlogPut_keeps (.refl _) e
  clear_value s1
  have h2 : Keeps old s2.memQueue := by simpa [s2] using h1
  clear_value s2
  split
  · exact hk
  · split
    · exact hk
    · split
      · exact hk
      · split
        · exact hk
        · simpa using h2

theorem logDlogSetSpec_kept : Spec.Kept logDlogSetSpec := by
  intro old s w i ps hk
  simp [logDlogSetSpec, hk]

theorem execLogDlogSet_keeps {s : State} {c : Cmd} (hk : Keeps old s.memQueue) : KeepsNext old (execLogDlogSet c s) :=
  keepsNext_next.2 (State.command_keeps logDlogSetSpec_kept hk)

@[simp] theorem logIlogSetRun_keeps {s : State} {w : Waiter} {i : Nat} {ps : List Byte} (hk : Keeps old s.memQueue) :
    Keeps old (logIlogSetRun s w i ps).memQueue := by
  simp only [logIlogSetRun]
  split
  · exact hk
  · split
    · exact hk
    · split
      · simpa using hk
      · split
        · exact hk
        · split
          next e => exact (State.writeBy_keeps hk).fst e
          next e => simpa using (State.writeBy_keeps hk).fst e

theorem logIlogSetSpec_kept : Spec.Kept logIlogSetSpec := by
  intro old s w i ps hk
  simp [logIlogSetSpec, hk]

theorem execLogIlogSet_keeps {s : State} {c : Cmd} (hk : Keeps old s.memQueue) : KeepsNext old (execLogIlogSet c s) :=
  keepsNext_next.2 (State.command_keeps logIlogSetSpec_kept hk)

@[simp] theorem State.thaw_memQueue (s : State) (target : Nat) (f : Freeze) : (s.thaw target f).memQueue = s.memQueue := by
  simp [State.thaw]

@[simp] theorem logFreezeRun_memQueue (s : State) (w : Waiter) (i : Nat) (ps : List Byte) :
    (logFreezeRun s w i ps).memQueue = s.memQueue := by
  simp only [logFreezeRun]
  repeat' split
  all_goals simp

theorem logFreezeSpec_kept : Spec.Kept logFreezeSpec := by
  intro old s w i ps hk
  simp [logFreezeSpec, hk]

theorem execLogFreeze_keeps {s : State} {c : Cmd} (hk : Keeps old s.memQueue) : KeepsNext old (execLogFreeze c s) :=
  keepsNext_next.2 (State.command_keeps logFreezeSpec_kept hk)

theorem execFreezeLimitExpire_keeps {s : State} {target : Nat} (hk : Keeps old s.memQueue) :
    KeepsNext old (execFreezeLimitExpire target s) := by
  simp only [execFreezeLimitExpire, keepsNext_next]
  split <;> simp [hk]

theorem logFlushSpec_kept : Spec.Kept logFlushSpec := by
  intro old s w i ps hk
  simp only [logFlushSpec]
  split
  · simp [hk]
  · split
    next e => simpa [memQueue_fst e] using hk
    next e => simpa [memQueue_fst e] using hk

theorem execLogFlush_keeps {s : State} {c : Cmd} (hk : Keeps old s.memQueue) : KeepsNext old (execLogFlush c s) :=
  keepsNext_next.2 (State.command_keeps logFlushSpec_kept hk)

theorem logFlashReadSpec_kept : Spec.Kept logFlashReadSpec := by
  intro old s w i ps hk
  -- for any bytes read: what flash holds stays closed, so that no check evaluates 64 KiB of it
  have run (k : Nat) (b : List Byte) : Keeps old (match s.mayFail with
      | (bad, s) =>
        if s.boot.flashSegs ≤ k then fails s 0xC004
        else if bad then fails s 0xC005
        else if !flashSegOk b then fails s 0xC004
        else match s.cmdWrite blkLOG 0 (fieldAt ps 8 8) k b with
          | (s, ok) => if ok then okay s else fails s 0xC001 : Act).memQueue := by
    split
    next bad t e =>
      have ht : Keeps old t.memQueue := by
        rw [memQueue_snd e]
        simpa using hk
      repeat' split
      · exact ht
      · exact ht
      · exact ht
      next ew _ => exact (State.cmdWrite_keeps ht).fst ew
      next ew _ => exact (State.cmdWrite_keeps ht).fst ew
  exact run _ _

theorem execLogFlashRead_keeps {s : State} {c : Cmd} (hk : Keeps old s.memQueue) : KeepsNext old (execLogFlashRead c s) :=
  keepsNext_next.2 (State.command_keeps logFlashReadSpec_kept hk)

theorem execLogOvfRead_keeps {s : State} {blk : Nat} (hk : Keeps old s.memQueue) : KeepsNext old (execLogOvfRead blk s) := by
  simp [execLogOvfRead, hk]

/-! ## Boot and firmware -/

@[simp] theorem State.pinsReset_memQueue (s : State) : (s.pinsReset).memQueue = s.memQueue := by
  simp [State.pinsReset]

@[simp] theorem State.lose_keeps {s : State} (hk : Keeps old s.memQueue) : Keeps old s.lose.memQueue := by
  have hq := congrArg Prod.snd (State.pinsReset_memQueue s)
  simp only [State.memQueue] at hq
  simp only [State.lose, State.memQueue_mk, hq]
  exact ⟨fun _ => MemOk.reset, hk.2⟩

theorem execPorstNAssert_keeps {s : State} (hk : Keeps old s.memQueue) : KeepsNext old (execPorstNAssert s) := by
  simp [execPorstNAssert, hk]

@[simp] theorem State.restartBoot_keeps {s : State} (hk : Keeps old s.memQueue) : Keeps old (s.restartBoot).memQueue := by
  simp [State.restartBoot, hk]

@[simp] theorem State.resetIfDue_keeps {s : State} (hk : Keeps old s.memQueue) : Keeps old (s.resetIfDue).memQueue := by
  simp [State.resetIfDue, hk]

@[simp] theorem State.recover_memQueue (s : State) (reason : Nat) : (s.recover reason).memQueue = s.memQueue := (rfl)

@[simp] theorem State.bootFrom_memQueue (s : State) (b : BootInput) : (s.bootFrom b).memQueue = s.memQueue := by
  simp only [State.bootFrom]
  repeat' split
  all_goals simp

theorem execPorstNDeassert_keeps {s : State} {b : BootInput} (hk : Keeps old s.memQueue) : KeepsNext old (execPorstNDeassert b s) := by
  simp [execPorstNDeassert, hk]

@[simp] theorem State.trainEndpoint_memQueue (s : State) : (s.trainEndpoint).memQueue = s.memQueue := by
  simp [State.trainEndpoint]

@[simp] theorem State.bootDies_keeps {s : State} (hk : Keeps old s.memQueue) : Keeps old (s.bootDies).memQueue := by
  simp [State.bootDies, hk]

@[simp] theorem State.bootStacks_memQueue (s : State) : (s.bootStacks).memQueue = s.memQueue := by
  simp [State.bootStacks]

@[simp] theorem State.applyConfig_keeps {s : State} {e' : Nat × BitVec 64} (hk : Keeps old s.memQueue) :
    Keeps old (s.applyConfig e').memQueue := by
  simp [State.applyConfig, hk]

@[simp] theorem State.bootConfig_keeps {s : State} (hk : Keeps old s.memQueue) : Keeps old (s.bootConfig).memQueue := by
  simp [State.bootConfig, hk]

@[simp] theorem State.bootDrives_memQueue (s : State) : (s.bootDrives).memQueue = s.memQueue := by
  simp [State.bootDrives]

@[simp] theorem State.endBoot_keeps {s : State} (hk : Keeps old s.memQueue) : Keeps old s.endBoot.memQueue := by
  unfold State.endBoot
  extract_lets s1 s2 bo s3 s4 s5 lo ac fa ci po s6
  have h2 : Keeps old s2.memQueue := by
    have h : s2.memQueue = s1.memQueue := foldl_memQueue (fun s f => by simp) ..
    simpa [h, s1] using hk
  clear_value s2
  have h5 : Keeps old s5.memQueue := by simp [s5, s4, s3, h2]
  clear_value s5
  simpa [s6] using h5

theorem execPgAssert_keeps {s : State} {grp : Nat} (hk : Keeps old s.memQueue) : KeepsNext old (execPgAssert grp s) := by
  simp [execPgAssert, hk]

theorem execPgTimeout_keeps {s : State} {grp : Nat} (hk : Keeps old s.memQueue) : KeepsNext old (execPgTimeout grp s) := by
  simp [execPgTimeout, hk]

@[simp] theorem State.flushDrives_memQueue (s : State) : (s.flushDrives).memQueue = s.memQueue := by
  simp [State.flushDrives]

theorem execPfwNAssert_keeps {s : State} (hk : Keeps old s.memQueue) : KeepsNext old (execPfwNAssert s) := by
  unfold execPfwNAssert
  rw [keepsNext_next]
  generalize 1040 = n
  extract_lets po s1 po1 s2 s3 s4 s5 s6
  have h1 : Keeps old s1.memQueue := .ite (by simp [hk]) hk
  have h3 : Keeps old s3.memQueue := foldl_keeps (fun s e => .ite (by simp) (by simp)) (by simp [s2, h1])
  have h6 : Keeps old s6.memQueue := State.drainAll_keeps (State.stageAll_keeps (by simp [s4, h3]))
  exact .ite hk (.ite (by simpa using hk) (by simpa using h6))

theorem execPfwNDeassert_keeps {s : State} (hk : Keeps old s.memQueue) : KeepsNext old (execPfwNDeassert s) := by
  simp [execPfwNDeassert, hk]

@[simp] theorem fwStageRun_memQueue (s : State) (w : Waiter) (i : Nat) (ps : List Byte) : (fwStageRun s w i ps).memQueue = s.memQueue := by
  simp [fwStageRun]

theorem fwStageSpec_kept : Spec.Kept fwStageSpec := by
  intro old s w i ps hk
  simp [fwStageSpec, hk]

theorem execFwStage_keeps {s : State} {c : Cmd} (hk : Keeps old s.memQueue) : KeepsNext old (execFwStage c s) :=
  keepsNext_next.2 (State.command_keeps fwStageSpec_kept hk)

@[simp] theorem fwCommitRun_memQueue (s : State) (w : Waiter) (i : Nat) (ps : List Byte) :
    (fwCommitRun s w i ps).memQueue = s.memQueue := by
  simp only [fwCommitRun]
  split <;> simp

theorem fwCommitSpec_kept : Spec.Kept fwCommitSpec := by
  intro old s w i ps hk
  simp [fwCommitSpec, hk]

theorem execFwCommit_keeps {s : State} {c : Cmd} (hk : Keeps old s.memQueue) : KeepsNext old (execFwCommit c s) :=
  keepsNext_next.2 (State.resetIfDue_keeps (State.command_keeps fwCommitSpec_kept hk))

@[simp] theorem fwActivateRun_keeps {s : State} {w : Waiter} {i : Nat} {ps : List Byte} (hk : Keeps old s.memQueue) :
    Keeps old (fwActivateRun s w i ps).memQueue := by
  simp [fwActivateRun, hk]

theorem fwActivateSpec_kept : Spec.Kept fwActivateSpec := by
  intro old s w i ps hk
  simp [fwActivateSpec, hk]

theorem execFwActivate_keeps {s : State} {c : Cmd} (hk : Keeps old s.memQueue) : KeepsNext old (execFwActivate c s) :=
  keepsNext_next.2 (State.command_keeps fwActivateSpec_kept hk)

@[simp] theorem State.endActivate_keeps {s : State} {w : Waiter} {status : Nat} (hk : Keeps old s.memQueue) :
    Keeps old (s.endActivate w status).memQueue := by
  simp [State.endActivate, hk]

theorem execFwActivateDrained_keeps {s : State} (hk : Keeps old s.memQueue) : KeepsNext old (execFwActivateDrained s) := by
  simp only [execFwActivateDrained, keepsNext_next]
  repeat' split
  all_goals simp [hk]

@[simp] theorem State.switchImage_memQueue (s : State) : (s.switchImage).memQueue = s.memQueue := by
  unfold State.switchImage
  repeat' split
  all_goals simp

theorem execFwActivateComplete_keeps {s : State} {ok : Bool} (hk : Keeps old s.memQueue) : KeepsNext old (execFwActivateComplete ok s) := by
  simp only [execFwActivateComplete, keepsNext_next]
  split <;> simp [hk]

@[simp] theorem fwFloorSetRun_memQueue (s : State) (w : Waiter) (i : Nat) (ps : List Byte) :
    (fwFloorSetRun s w i ps).memQueue = s.memQueue := by
  simp [fwFloorSetRun]

theorem fwFloorSetSpec_kept : Spec.Kept fwFloorSetSpec := by
  intro old s w i ps hk
  simp [fwFloorSetSpec, hk]

theorem execFwFloorSet_keeps {s : State} {c : Cmd} (hk : Keeps old s.memQueue) : KeepsNext old (execFwFloorSet c s) :=
  keepsNext_next.2 (State.command_keeps fwFloorSetSpec_kept hk)

@[simp] theorem attestQuoteRun_keeps {s : State} {x : Waiter} {i : Nat} {ps : List Byte} (hk : Keeps old s.memQueue) :
    Keeps old (attestQuoteRun s x i ps).memQueue := by
  simp [attestQuoteRun, hk]

theorem attestQuoteSpec_kept : Spec.Kept attestQuoteSpec := by
  intro old s w i ps hk
  simp [attestQuoteSpec, hk]

theorem execAttestQuote_keeps {s : State} {c : Cmd} (hk : Keeps old s.memQueue) : KeepsNext old (execAttestQuote c s) :=
  keepsNext_next.2 (State.command_keeps attestQuoteSpec_kept hk)

/-! ## Faults, alarms and diagnostics -/

theorem execEngineWd_keeps {s : State} {die : Nat} (hk : Keeps old s.memQueue) : KeepsNext old (execEngineWd die s) := by
  simp [execEngineWd, hk]

theorem execUcieRetry_keeps {s : State} {die : Nat} (hk : Keeps old s.memQueue) : KeepsNext old (execUcieRetry die s) := by
  simp [execUcieRetry, hk]

theorem execBezelWatchdog_keeps {s : State} (hk : Keeps old s.memQueue) : KeepsNext old (execBezelWatchdog s) := by
  simp [execBezelWatchdog, hk]

theorem execLockstepMismatch_keeps {s : State} (hk : Keeps old s.memQueue) : KeepsNext old (execLockstepMismatch s) := by
  simp [execLockstepMismatch, hk]

theorem execBezelRestartDone_keeps {s : State} (hk : Keeps old s.memQueue) : KeepsNext old (execBezelRestartDone s) := by
  simp [execBezelRestartDone, hk]

theorem execPcieInternal_keeps {s : State} (hk : Keeps old s.memQueue) : KeepsNext old (execPcieInternal s) := by
  simp [execPcieInternal, hk]

@[simp] theorem State.voltageFail_keeps {s : State} {sensor : Nat} (hk : Keeps old s.memQueue) :
    Keeps old (s.voltageFail sensor).memQueue := by
  simp [State.voltageFail, hk]

theorem execVoltageAlarm_keeps {s : State} {sensor : Nat} (hk : Keeps old s.memQueue) : KeepsNext old (execVoltageAlarm sensor s) := by
  simp [execVoltageAlarm, hk]

theorem execTemperatureAlarm_keeps {s : State} {sensor : Nat} (hk : Keeps old s.memQueue) :
    KeepsNext old (execTemperatureAlarm sensor s) := by
  simp [execTemperatureAlarm, hk]

theorem execClockAlarm_keeps {s : State} {sensor : Nat} (hk : Keeps old s.memQueue) : KeepsNext old (execClockAlarm sensor s) := by
  simp [execClockAlarm, hk]

theorem execTamperAlarm_keeps {s : State} {sensor : Nat} (hk : Keeps old s.memQueue) : KeepsNext old (execTamperAlarm sensor s) := by
  simp [execTamperAlarm, hk]

theorem execAlarmClear_keeps {s : State} {source : Nat} (hk : Keeps old s.memQueue) : KeepsNext old (execAlarmClear source s) := by
  simp [execAlarmClear, hk]

theorem dgnFaultGetSpec_kept : Spec.Kept dgnFaultGetSpec := by
  intro old s w i ps hk
  simp [dgnFaultGetSpec, hk]

theorem execDgnFaultGet_keeps {s : State} {c : Cmd} (hk : Keeps old s.memQueue) : KeepsNext old (execDgnFaultGet c s) :=
  keepsNext_next.2 (State.command_keeps dgnFaultGetSpec_kept hk)

@[simp] theorem dgnFaultClearRun_memQueue (s : State) (w : Waiter) (i : Nat) (ps : List Byte) :
    (dgnFaultClearRun s w i ps).memQueue = s.memQueue := by
  simp only [dgnFaultClearRun]
  split <;> simp

theorem dgnFaultClearSpec_kept : Spec.Kept dgnFaultClearSpec := by
  intro old s w i ps hk
  simp [dgnFaultClearSpec, hk]

theorem execDgnFaultClear_keeps {s : State} {c : Cmd} (hk : Keeps old s.memQueue) : KeepsNext old (execDgnFaultClear c s) :=
  keepsNext_next.2 (State.command_keeps dgnFaultClearSpec_kept hk)

@[simp] theorem State.freshStack_keeps {s : State} {k : Nat} (hk : Keeps old s.memQueue) : Keeps old (s.freshStack k).memQueue :=
  ⟨fun w => State.freshStack_memOk (hk.1 w) k, hk.2⟩

@[simp] theorem State.freshDie_keeps {s : State} {d : Nat} (hk : Keeps old s.memQueue) : Keeps old (s.freshDie d).memQueue := by
  simp [State.freshDie, hk]

@[simp] theorem dgnDieRestartRun_keeps {s : State} {w : Waiter} {i : Nat} {ps : List Byte} (hk : Keeps old s.memQueue) :
    Keeps old (dgnDieRestartRun s w i ps).memQueue := by
  simp [dgnDieRestartRun, hk]

theorem dgnDieRestartSpec_kept : Spec.Kept dgnDieRestartSpec := by
  intro old s w i ps hk
  simp [dgnDieRestartSpec, hk]

theorem execDgnDieRestart_keeps {s : State} {c : Cmd} (hk : Keeps old s.memQueue) : KeepsNext old (execDgnDieRestart c s) :=
  keepsNext_next.2 (State.command_keeps dgnDieRestartSpec_kept hk)

theorem dgnDeviceResetSpec_kept : Spec.Kept dgnDeviceResetSpec := by
  intro old s w i ps hk
  simp [dgnDeviceResetSpec, hk]

theorem execDgnDeviceReset_keeps {s : State} {c : Cmd} (hk : Keeps old s.memQueue) : KeepsNext old (execDgnDeviceReset c s) :=
  keepsNext_next.2 (State.resetIfDue_keeps (State.command_keeps dgnDeviceResetSpec_kept hk))

@[simp] theorem dgnInjectRun_memQueue (s : State) (w : Waiter) (i : Nat) (ps : List Byte) :
    (dgnInjectRun s w i ps).memQueue = s.memQueue := by
  simp [dgnInjectRun]

theorem dgnInjectSpec_kept : Spec.Kept dgnInjectSpec := by
  intro old s w i ps hk
  simp [dgnInjectSpec, hk]

theorem execDgnInject_keeps {s : State} {c : Cmd} (hk : Keeps old s.memQueue) : KeepsNext old (execDgnInject c s) :=
  keepsNext_next.2 (State.command_keeps dgnInjectSpec_kept hk)

/-! ## Pins -/

theorem execPerstNAssert_keeps {s : State} (hk : Keeps old s.memQueue) : KeepsNext old (execPerstNAssert s) := by
  simp [execPerstNAssert, hk]

theorem execPerstNDeassert_keeps {s : State} (hk : Keeps old s.memQueue) : KeepsNext old (execPerstNDeassert s) := by
  simp [execPerstNDeassert, hk]

theorem execPrsntNChange_keeps {s : State} {port : Nat} {high : Bool} (hk : Keeps old s.memQueue) :
    KeepsNext old (execPrsntNChange port high s) := by
  simp [execPrsntNChange, hk]

theorem execPpsOut_keeps {s : State} (hk : Keeps old s.memQueue) : KeepsNext old (execPpsOut s) := by
  simp [execPpsOut, hk]

theorem execMgmtPhyResetRelease_keeps {s : State} (hk : Keeps old s.memQueue) : KeepsNext old (execMgmtPhyResetRelease s) := by
  simp [execMgmtPhyResetRelease, hk]

theorem execReferenceClockChange_keeps {s : State} {clk : Nat} {present : Bool} (hk : Keeps old s.memQueue) :
    KeepsNext old (execReferenceClockChange clk present s) := by
  simp [execReferenceClockChange, hk]

theorem execMgmtLinkChange_keeps {s : State} {up : Bool} (hk : Keeps old s.memQueue) : KeepsNext old (execMgmtLinkChange up s) := by
  simp [execMgmtLinkChange, hk]

end Sys2Proof.Machine
end

section
/-! PROOF. Control space, system commands and frames keep the memory's form and the queue; then every command, and every step (O58). -/

namespace Sys2Proof.Machine

variable {old : MemQueue}

/-! ## Control space -/

/-- What a register read left keeps both as they were. -/
def ReadSame (s : State) (r : Option (BitVec 64 × State)) : Prop := ∀ v t, r = some (v, t) → t.memQueue = s.memQueue

@[simp] theorem ReadSame.none {s : State} : ReadSame s none := fun _ _ e => by cases e

@[simp] theorem ReadSame.some {s t : State} {v : BitVec 64} (ht : t.memQueue = s.memQueue) : ReadSame s (some (v, t)) := fun _ _ e => by
  cases e
  exact ht

@[simp] theorem ReadSame.seen {s : State} {v : BitVec 64} : ReadSame s (s.seen v) := .some rfl

theorem ReadSame.ite {s : State} {c : Prop} {_ : Decidable c} {a b : Option (BitVec 64 × State)} (ha : ReadSame s a) (hb : ReadSame s b) :
    ReadSame s (if c then a else b) := by split <;> assumption

theorem ReadSame.or {s : State} {a b : Option (BitVec 64 × State)} (ha : ReadSame s a) (hb : ReadSame s b) : ReadSame s (a <|> b) := by
  cases a with
  | none => exact hb
  | some p => exact ha

/-- The rows of a table: what each row's read keeps, the table's read keeps. -/
theorem ReadSame.rows {s : State} {α : Type} {o : Option α} {g : α → Option (BitVec 64 × State)} (hg : ∀ n, ReadSame s (g n)) :
    ReadSame s (o.bind g) := by
  cases o with
  | none => exact .none
  | some n => exact hg n

theorem State.readBzl_same {s : State} {off : Nat} : ReadSame s (s.readBzl off) :=
  .ite .seen (.ite .seen (.ite .seen (.ite .seen .none)))

theorem State.readPwr_same {s : State} {off : Nat} : ReadSame s (s.readPwr off) :=
  .ite .seen (.ite .seen (.ite (.some rfl) (.ite .seen (.or (.rows fun _ => .seen) (.rows fun _ => .seen)))))

theorem State.readLog_same {s : State} {off : Nat} : ReadSame s (s.readLog off) :=
  .ite .seen (.ite .seen (.ite .seen (.ite .seen
    (.or (.rows fun _ => .some rfl) (.or (.rows fun _ => .some rfl) (.rows fun _ => .seen))))))

theorem State.readPce_same {s : State} {off : Nat} : ReadSame s (s.readPce off) :=
  .ite (.some rfl) (.or (.rows fun _ => .seen) (.or (.rows fun _ => .seen) (.rows fun _ => .some rfl)))

theorem State.readNvc_same {s : State} {off : Nat} : ReadSame s (s.readNvc off) :=
  .ite .seen (.or (.rows fun _ => .some rfl) (.or (.rows fun _ => .seen) (.or (.rows fun _ => .seen) (.rows fun _ => .seen))))

theorem State.readCip_same {s : State} {off : Nat} : ReadSame s (s.readCip off) :=
  .ite (.some rfl) (.or (.rows fun _ => .seen) (.or (.rows fun _ => .seen) (.or (.rows fun _ => .seen)
    (.or (.rows fun _ => .seen) (.rows fun _ => .seen)))))

theorem State.readNet_same {s : State} {off : Nat} : ReadSame s (s.readNet off) := by
  refine .ite .seen (.ite .seen (.ite .seen (.ite .seen (.or (.rows fun _ => .seen) (.or (.rows fun _ => .some rfl)
    (.or (.rows fun _ => .ite .none (.some rfl)) (.or (.rows fun _ => .seen) (.or (.rows fun _ => .seen) (.rows fun q => ?_)))))))))
  split
  · exact .seen
  · exact .some rfl

theorem State.readQueue_same {s : State} {q : EqName} : ReadSame s (s.readQueue q) := by
  cases q <;>
  · simp only [State.readQueue]
    split <;> simp

theorem State.readTms_same {s : State} {off : Nat} : ReadSame s (s.readTms off) :=
  .or (.rows fun _ => .seen) (.or (.rows fun _ => State.readQueue_same) (.or (.rows fun _ => State.readQueue_same)
    (.or (.rows fun _ => State.readQueue_same) (.or (.rows fun _ => .ite .none (.some rfl)) (.or (.rows fun _ => .seen)
      (.or (.rows fun _ => .seen) (.or (.rows fun _ => .ite .none .seen) (.or (.rows fun _ => .seen) (.rows fun _ => .seen)))))))))

theorem State.readRma_same {s : State} {off : Nat} : ReadSame s (s.readRma off) :=
  .ite .seen (.ite .seen (.or (.rows fun _ => .ite .none .seen) (.or (.rows fun _ => .seen) (.rows fun _ => .seen))))

theorem State.readZlk_same {s : State} {off : Nat} : ReadSame s (s.readZlk off) :=
  .ite .seen (.ite .seen (.ite .seen (.ite .seen (.ite .seen (.ite .seen
    (.or (.rows fun _ => .some rfl) (.or (.rows fun _ => .seen) (.or (.rows fun _ => .seen) (.rows fun _ => .seen)))))))))

theorem State.readMem_same {s : State} {k off : Nat} : ReadSame s (s.readMem k off) :=
  .ite .seen (.ite .seen (.ite .seen (.ite .seen (.ite (.some rfl) (.ite .seen (.ite (.some rfl)
    (.or (.rows fun _ => .seen) (.or (.rows fun _ => .seen) (.rows fun _ => .seen)))))))))

theorem State.readGth_same {s : State} {k off : Nat} : ReadSame s (s.readGth k off) :=
  .ite .seen (.ite .seen (.or (.rows fun _ => .seen) (.rows fun _ => .seen)))

theorem State.readCkp_same {s : State} {p off : Nat} : ReadSame s (s.readCkp p off) :=
  .ite .seen (.ite .seen (.ite .seen .none))

theorem State.readPcl_same {s : State} {off : Nat} : ReadSame s (s.readPcl off) :=
  .ite .seen (.ite (.some rfl) (.ite .seen (.ite .seen (.ite
    (.ite .seen (.ite .seen (.ite .seen (.rows fun _ => .seen))))
    (.ite (.ite .seen (.ite .seen (.ite .seen (.ite (.some rfl) .none)))) .none)))))

theorem State.readTbl_same {s : State} {f off : Nat} : ReadSame s (s.readTbl f off) :=
  .ite .seen (.ite .seen (.ite (.some rfl) (.ite .seen
    (.or (.rows fun _ => .seen) (.or (.rows fun _ => .seen) (.rows fun _ => .seen))))))

theorem State.readFct_same {s : State} {f off : Nat} : ReadSame s (s.readFct f off) :=
  .ite .seen (.ite .seen (.ite .seen (.ite .seen (.ite .seen (.ite .seen (.ite .seen (.ite (.some rfl) (.ite .seen (.ite .seen
    (.ite (.some rfl) (.ite .seen (.ite .seen (.ite .seen (.ite .seen
      (.or (.rows fun _ => .seen) (.or (.rows fun _ => .seen) (.rows fun _ => .seen)))))))))))))))))

theorem State.readBlock_same {s : State} {blk off : Nat} : ReadSame s (s.readBlock blk off) :=
  .ite State.readBzl_same (.ite State.readPwr_same (.ite State.readLog_same (.ite (.ite State.readPce_same .none)
    (.ite (.ite State.readNvc_same .none) (.ite (.ite State.readCip_same .none) (.ite (.ite State.readNet_same .none)
      (.ite (.ite State.readTms_same .none) (.ite (.ite State.readRma_same .none) (.ite (.ite State.readZlk_same .none)
        (.ite (.ite State.readMem_same .none) (.ite (.ite State.readGth_same .none) (.ite (.ite State.readCkp_same .none)
          (.ite State.readPcl_same (.ite (.ite .seen (.ite State.readTbl_same .none)) (.ite .none State.readFct_same)))))))))))))))

theorem State.regAt_same {s : State} {a : Nat} : ReadSame s (s.regAt a) :=
  .ite .none (.rows fun _ => State.readBlock_same)

@[simp] theorem State.accessEvent_memQueue (s : State) (a v : Nat) : (s.accessEvent a v).memQueue = s.memQueue := (rfl)

@[simp] theorem State.regRead_memQueue (s : State) (a : Nat) : (s.regRead a).2.memQueue = s.memQueue := by
  unfold State.regRead
  cases e : s.regAt a with
  | none => exact State.accessEvent_memQueue ..
  | some p => exact State.regAt_same p.1 p.2 e

@[simp] theorem State.writeBankPwr_memQueue (s : State) (f : Nat) (v : BitVec 64) : (s.writeBankPwr f v).memQueue = s.memQueue := by
  simp [State.writeBankPwr]

@[simp] theorem State.writeStall_memQueue (s : State) (f : Nat) (v : BitVec 64) : (s.writeStall f v).memQueue = s.memQueue := (rfl)

@[simp] theorem State.writeFct_memQueue (s : State) (f off : Nat) (v : BitVec 64) : (s.writeFct f off v).memQueue = s.memQueue := by
  simp [State.writeFct]

@[simp] theorem State.writeZlkPort_keeps {s : State} {p : Nat} {v : BitVec 64} (hk : Keeps old s.memQueue) :
    Keeps old (s.writeZlkPort p v).memQueue := by
  simp only [State.writeZlkPort]
  refine .ite (by simpa using hk) (.ite (by simpa using hk) (foldl_keeps (fun s k => ?_) (by simpa using hk)))
  exact State.dropAnnounce_keeps (State.dropAdjs_keeps (by simp))

@[simp] theorem State.writeZlk_keeps {s : State} {off : Nat} {v : BitVec 64} (hk : Keeps old s.memQueue) :
    Keeps old (s.writeZlk off v).memQueue := by
  unfold State.writeZlk
  repeat' split
  all_goals simp [hk]

@[simp] theorem State.writeNet_keeps {s : State} {off : Nat} {v : BitVec 64} (hk : Keeps old s.memQueue) :
    Keeps old (s.writeNet off v).memQueue := by
  unfold State.writeNet
  repeat' split
  all_goals simp [hk]

@[simp] theorem State.writeCc_memQueue (s : State) (n : Nat) : (s.writeCc n).memQueue = s.memQueue := (rfl)

@[simp] theorem State.writeMem_memQueue (s : State) (k off : Nat) (v : BitVec 64) : (s.writeMem k off v).memQueue = s.memQueue := by
  unfold State.writeMem
  repeat' split
  all_goals simp

@[simp] theorem State.writeGth_keeps {s : State} {k off : Nat} {v : BitVec 64} (hk : Keeps old s.memQueue) :
    Keeps old (s.writeGth k off v).memQueue := by
  unfold State.writeGth
  repeat' split
  all_goals simp [hk]

@[simp] theorem State.writeBlock_keeps {s : State} {blk off : Nat} {v : BitVec 64} (hk : Keeps old s.memQueue) :
    Keeps old (s.writeBlock blk off v).memQueue := by
  simp [State.writeBlock, hk]

@[simp] theorem State.regWrite_keeps {s : State} {a : Nat} {v : BitVec 64} (hk : Keeps old s.memQueue) :
    Keeps old (s.regWrite a v).memQueue := by
  unfold State.regWrite
  split <;> simp [hk]

@[simp] theorem State.readOut_memQueue (s : State) (a : Nat) : (s.readOut a).memQueue = s.memQueue := by
  simp [State.readOut]

theorem execRegisterWrite_keeps {s : State} {addr : Nat} {v : BitVec 64} (hk : Keeps old s.memQueue) :
    KeepsNext old (execRegisterWrite addr v s) := by
  simp [execRegisterWrite, hk]

theorem execTblBankpwrWrite_keeps {s : State} {f : Nat} {v : BitVec 64} (hk : Keeps old s.memQueue) :
    KeepsNext old (execTblBankpwrWrite f v s) := by
  simp [execTblBankpwrWrite, hk]

theorem execTblStallWrite_keeps {s : State} {f : Nat} {v : BitVec 64} (hk : Keeps old s.memQueue) :
    KeepsNext old (execTblStallWrite f v s) := by
  simp [execTblStallWrite, hk]

theorem execFctFpflagsWrite_keeps {s : State} {f : Nat} {v : BitVec 64} (hk : Keeps old s.memQueue) :
    KeepsNext old (execFctFpflagsWrite f v s) := by
  simp [execFctFpflagsWrite, hk]

theorem execFctDiscardRead_keeps {s : State} {f : Nat} (hk : Keeps old s.memQueue) : KeepsNext old (execFctDiscardRead f s) := by
  simp [execFctDiscardRead, hk]

theorem execFctSlackminRead_keeps {s : State} {f : Nat} (hk : Keeps old s.memQueue) : KeepsNext old (execFctSlackminRead f s) := by
  simp [execFctSlackminRead, hk]

theorem execTblEccRead_keeps {s : State} {f : Nat} (hk : Keeps old s.memQueue) : KeepsNext old (execTblEccRead f s) := by
  simp [execTblEccRead, hk]

theorem execMemEccRead_keeps {s : State} {k : Nat} (hk : Keeps old s.memQueue) : KeepsNext old (execMemEccRead k s) := by
  simp [execMemEccRead, hk]

theorem execMemDiscardRead_keeps {s : State} {k : Nat} (hk : Keeps old s.memQueue) : KeepsNext old (execMemDiscardRead k s) := by
  simp [execMemDiscardRead, hk]

theorem execMemUelogWrite_keeps {s : State} {k n : Nat} {v : BitVec 64} (hk : Keeps old s.memQueue) :
    KeepsNext old (execMemUelogWrite k n v s) := by
  simp [execMemUelogWrite, hk]

theorem execGthCacheWrite_keeps {s : State} {k : Nat} {v : BitVec 64} (hk : Keeps old s.memQueue) :
    KeepsNext old (execGthCacheWrite k v s) := by
  simp [execGthCacheWrite, hk]

theorem execGthCwaysWrite_keeps {s : State} {k inst : Nat} {v : BitVec 64} (hk : Keeps old s.memQueue) :
    KeepsNext old (execGthCwaysWrite k inst v s) := by
  simp [execGthCwaysWrite, hk]

theorem execPclPacedRead_keeps {s : State} {p : Nat} (hk : Keeps old s.memQueue) : KeepsNext old (execPclPacedRead p s) := by
  simp [execPclPacedRead, hk]

theorem execPclAcctdropRead_keeps {s : State} (hk : Keeps old s.memQueue) : KeepsNext old (execPclAcctdropRead s) := by
  simp [execPclAcctdropRead, hk]

theorem execZlkPortWrite_keeps {s : State} {port : Nat} {v : BitVec 64} (hk : Keeps old s.memQueue) :
    KeepsNext old (execZlkPortWrite port v s) := by
  simp [execZlkPortWrite, hk]

theorem execZlkDiscardRead_keeps {s : State} {n : Nat} (hk : Keeps old s.memQueue) : KeepsNext old (execZlkDiscardRead n s) := by
  simp [execZlkDiscardRead, hk]

theorem execNetPortWrite_keeps {s : State} {port : Nat} {v : BitVec 64} (hk : Keeps old s.memQueue) :
    KeepsNext old (execNetPortWrite port v s) := by
  simp [execNetPortWrite, hk]

theorem execNetLinkRead_keeps {s : State} {link : Nat} (hk : Keeps old s.memQueue) : KeepsNext old (execNetLinkRead link s) := by
  simp [execNetLinkRead, hk]

theorem execNetDropRead_keeps {s : State} {k n : Nat} (hk : Keeps old s.memQueue) : KeepsNext old (execNetDropRead k n s) := by
  simp [execNetDropRead, hk]

theorem execNetQstatRead_keeps {s : State} {q : Nat} (hk : Keeps old s.memQueue) : KeepsNext old (execNetQstatRead q s) := by
  simp [execNetQstatRead, hk]

theorem execTmsEqstatRead_keeps {s : State} {q : EqName} (hk : Keeps old s.memQueue) : KeepsNext old (execTmsEqstatRead q s) := by
  simp [execTmsEqstatRead, hk]

theorem execTmsDropRead_keeps {s : State} {k n : Nat} (hk : Keeps old s.memQueue) : KeepsNext old (execTmsDropRead k n s) := by
  simp [execTmsDropRead, hk]

theorem execNvcCtrlRead_keeps {s : State} {i : Nat} (hk : Keeps old s.memQueue) : KeepsNext old (execNvcCtrlRead i s) := by
  simp [execNvcCtrlRead, hk]

theorem execPceLinkRead_keeps {s : State} (hk : Keeps old s.memQueue) : KeepsNext old (execPceLinkRead s) := by
  simp [execPceLinkRead, hk]

theorem execPceRportRead_keeps {s : State} {port : Nat} (hk : Keeps old s.memQueue) : KeepsNext old (execPceRportRead port s) := by
  simp [execPceRportRead, hk]

theorem execCipStatusRead_keeps {s : State} (hk : Keeps old s.memQueue) : KeepsNext old (execCipStatusRead s) := by
  simp [execCipStatusRead, hk]

theorem execPwrGatesRead_keeps {s : State} (hk : Keeps old s.memQueue) : KeepsNext old (execPwrGatesRead s) := by
  simp [execPwrGatesRead, hk]

theorem execPwrRailctlWrite_keeps {s : State} {v : BitVec 64} (hk : Keeps old s.memQueue) : KeepsNext old (execPwrRailctlWrite v s) := by
  simp [execPwrRailctlWrite, hk]

theorem execLogDropRead_keeps {s : State} {sev : Nat} (hk : Keeps old s.memQueue) : KeepsNext old (execLogDropRead sev s) := by
  simp [execLogDropRead, hk]

/-! ## System commands and arriving packets -/

theorem execSysSync_keeps {s : State} {c : Cmd} (hk : Keeps old s.memQueue) : KeepsNext old (execSysSync c s) := by
  simp [execSysSync, hk]

@[simp] theorem sysIdentifyRun_memQueue (s : State) (w : Waiter) (i : Nat) (ps : List Byte) :
    (sysIdentifyRun s w i ps).memQueue = s.memQueue := by
  simp only [sysIdentifyRun]
  split <;> simp

theorem sysIdentifySpec_kept : Spec.Kept sysIdentifySpec := by
  intro old s w i ps hk
  simp [sysIdentifySpec, hk]

theorem execSysIdentify_keeps {s : State} {c : Cmd} (hk : Keeps old s.memQueue) : KeepsNext old (execSysIdentify c s) :=
  keepsNext_next.2 (State.command_keeps sysIdentifySpec_kept hk)

theorem sysEchoSpec_kept : Spec.Kept sysEchoSpec := by
  intro old s w i ps hk
  simp [sysEchoSpec, hk]

theorem execSysEcho_keeps {s : State} {c : Cmd} (hk : Keeps old s.memQueue) : KeepsNext old (execSysEcho c s) :=
  keepsNext_next.2 (State.command_keeps sysEchoSpec_kept hk)

theorem State.stopTarget_keeps {s t : State} {w : Waiter} (hk : Keeps old s.memQueue) (e : s.stopTarget w = some t) :
    Keeps old t.memQueue := by
  simp only [State.stopTarget] at e
  split at e
  · cases e
    exact State.finish_keeps (by simpa using hk)
  · split at e
    · cases e
      simp [hk]
    · split at e
      · split at e
        · cases e
          simp [hk]
        · cases e
      · cases e

@[simp] theorem sysAbortRun_keeps {s : State} {w : Waiter} {i : Nat} {ps : List Byte} (hk : Keeps old s.memQueue) :
    Keeps old (sysAbortRun s w i ps).memQueue := by
  simp only [sysAbortRun]
  split
  · split
    next e => exact State.stopTarget_keeps hk e
    · simpa using hk
  · split
    · exact hk
    · split <;> exact hk

theorem sysAbortSpec_kept : Spec.Kept sysAbortSpec := by
  intro old s w i ps hk
  simp [sysAbortSpec, hk]

theorem execSysAbort_keeps {s : State} {c : Cmd} (hk : Keeps old s.memQueue) : KeepsNext old (execSysAbort c s) :=
  keepsNext_next.2 (State.command_keeps sysAbortSpec_kept hk)

@[simp] theorem sysRegReadRun_memQueue (s : State) (w : Waiter) (i : Nat) (ps : List Byte) :
    (sysRegReadRun s w i ps).memQueue = s.memQueue :=
  foldl_fst_memQueue (fun _ _ => State.regRead_memQueue ..) ..

theorem sysRegReadSpec_kept : Spec.Kept sysRegReadSpec := by
  intro old s w i ps hk
  simp [sysRegReadSpec, hk]

theorem execSysRegRead_keeps {s : State} {c : Cmd} (hk : Keeps old s.memQueue) : KeepsNext old (execSysRegRead c s) :=
  keepsNext_next.2 (State.command_keeps sysRegReadSpec_kept hk)

@[simp] theorem sysRegWriteRun_keeps {s : State} {w : Waiter} {i : Nat} {ps : List Byte} (hk : Keeps old s.memQueue) :
    Keeps old (sysRegWriteRun s w i ps).memQueue := by
  simp [sysRegWriteRun, hk]

theorem sysRegWriteSpec_kept : Spec.Kept sysRegWriteSpec := by
  intro old s w i ps hk
  simp [sysRegWriteSpec, hk]

theorem execSysRegWrite_keeps {s : State} {c : Cmd} (hk : Keeps old s.memQueue) : KeepsNext old (execSysRegWrite c s) :=
  keepsNext_next.2 (State.command_keeps sysRegWriteSpec_kept hk)

@[simp] theorem State.setChan_memQueue (s : State) (ch inst : Nat) (on : Bool) (source port : Nat) :
    (s.setChan ch inst on source port).memQueue = s.memQueue := (rfl)

@[simp] theorem sysChanSetRun_keeps {s : State} {w : Waiter} {i : Nat} {ps : List Byte} (hk : Keeps old s.memQueue) :
    Keeps old (sysChanSetRun s w i ps).memQueue := by
  simp [sysChanSetRun, hk]

theorem sysChanSetSpec_kept : Spec.Kept sysChanSetSpec := by
  intro old s w i ps hk
  simp [sysChanSetSpec, hk]

theorem execSysChanSet_keeps {s : State} {c : Cmd} (hk : Keeps old s.memQueue) : KeepsNext old (execSysChanSet c s) :=
  keepsNext_next.2 (State.command_keeps sysChanSetSpec_kept hk)

theorem sysChanStatusSpec_kept : Spec.Kept sysChanStatusSpec := by
  intro old s w i ps hk
  simp [sysChanStatusSpec, hk]

theorem execSysChanStatus_keeps {s : State} {c : Cmd} (hk : Keeps old s.memQueue) : KeepsNext old (execSysChanStatus c s) :=
  keepsNext_next.2 (State.command_keeps sysChanStatusSpec_kept hk)

@[simp] theorem sysRingSetRun_keeps {s : State} {w : Waiter} {i : Nat} {ps : List Byte} (hk : Keeps old s.memQueue) :
    Keeps old (sysRingSetRun s w i ps).memQueue := by
  simp only [sysRingSetRun]
  split
  · simp [hk]
  · split
    · exact hk
    · split
      next e => exact (State.ringReset_keeps hk).fst e
      next t e =>
        have h1 : Keeps old t.memQueue := (State.ringReset_keeps hk).fst e
        split
        next e => exact (State.ringReset_keeps h1).fst e
        next u e =>
          have h2 : Keeps old u.memQueue := (State.ringReset_keeps h1).fst e
          simp [h2]

theorem sysRingSetSpec_kept : Spec.Kept sysRingSetSpec := by
  intro old s w i ps hk
  simp [sysRingSetSpec, hk]

theorem execSysRingSet_keeps {s : State} {c : Cmd} (hk : Keeps old s.memQueue) : KeepsNext old (execSysRingSet c s) :=
  keepsNext_next.2 (State.command_keeps sysRingSetSpec_kept hk)

/-- Every command of the chapters keeps both. -/
theorem commandSpecs_kept : ∀ sp ∈ commandSpecs, sp.Kept := by
  refine List.forall_mem_append.2 ⟨List.forall_iff_forall_mem.1 ?_, List.forall_iff_forall_mem.1 ?_⟩
  · exact
      ⟨sysIdentifySpec_kept, sysAbortSpec_kept, sysEchoSpec_kept, sysRegReadSpec_kept, sysRegWriteSpec_kept, sysChanSetSpec_kept,
       sysChanStatusSpec_kept, sysRingSetSpec_kept, pclInstCreateSpec_kept, pclInstResetSpec_kept, pclInstRemoveSpec_kept,
       pclParcelAllocSpec_kept, pclParcelFreeSpec_kept, pclShareSetSpec_kept, pclMapSetSpec_kept, pclBudgetSetSpec_kept,
       pclAcctConfigSpec_kept, pclInstStatusSpec_kept, cutLoadSpec_kept, cutStartSpec_kept, cutPauseSpec_kept, cutResumeSpec_kept,
       cutStopSpec_kept, cutUnloadSpec_kept, cutStatusSpec_kept, memZoneSetSpec_kept, gthTableSetSpec_kept, gthTableClearSpec_kept,
       gthTableGetSpec_kept, gthCacheDropSpec_kept, ckpConfigSpec_kept, ckpNowSpec_kept, ckpStatusSpec_kept, ckpRestoreSpec_kept,
       fabGateSetSpec_kept, fabJobGetSpec_kept, fabNeighGetSpec_kept, netRuleSetSpec_kept, netRuleClearSpec_kept, netRuleGetSpec_kept,
       netQueueSetSpec_kept, netQueueGetSpec_kept⟩
  · exact
      ⟨tmsMeterSetSpec_kept, tmsShaperSetSpec_kept, tmsObjFreeSpec_kept, tmsObjGetSpec_kept, tmsEqSetSpec_kept, tmsIqmapSetSpec_kept,
       rmaCtxAreaSpec_kept, rmaPdAllocSpec_kept, rmaPdFreeSpec_kept, rmaQpCreateSpec_kept, rmaQpModifySpec_kept, rmaQpDestroySpec_kept,
       rmaQpGetSpec_kept, rmaMwOpenSpec_kept, rmaMwRevokeSpec_kept, rmaDbSetSpec_kept, stoCtrlEnSpec_kept, stoCtrlStatusSpec_kept,
       stoNsCreateSpec_kept, stoNsDeleteSpec_kept, stoNsAttachSpec_kept, stoNsCopySpec_kept, stoDriveStatusSpec_kept, pceFnBindSpec_kept,
       pceIwinSetSpec_kept, pceOwinSetSpec_kept, pceWinGetSpec_kept, pceDirtySetSpec_kept, pceDirtySwapSpec_kept, pceAperSetSpec_kept,
       pceWakeSpec_kept, pceFnStatusSpec_kept, cipCtxSetSpec_kept, cipCtxFreeSpec_kept, cipOpSpec_kept, cipStateSaveSpec_kept,
       cipStateRestoreSpec_kept, cipQpBindSpec_kept, cipHashSpec_kept, cipLmsSpec_kept, pwrRungSetSpec_kept, pwrStatusSpec_kept,
       pwrCapSetSpec_kept, pwrPaceSetSpec_kept, fwStageSpec_kept, fwCommitSpec_kept, fwActivateSpec_kept, fwFloorSetSpec_kept,
       attestQuoteSpec_kept, logDlogSetSpec_kept, logIlogSetSpec_kept, logFreezeSpec_kept, logFlushSpec_kept, logFlashReadSpec_kept,
       dgnFaultGetSpec_kept, dgnFaultClearSpec_kept, dgnDieRestartSpec_kept, dgnDeviceResetSpec_kept, dgnInjectSpec_kept⟩

theorem unknownSpec_kept {op : Nat} : Spec.Kept (unknownSpec op) := by
  intro old s w i ps hk
  simp [unknownSpec, hk]

@[simp] theorem State.junk_keeps {s : State} {ch : Nat} (hk : Keeps old s.memQueue) : Keeps old (s.junk ch).memQueue := by
  simp [State.junk, hk]

@[simp] theorem State.runPacket_keeps {s : State} {op : Nat} {c : Cmd} (hk : Keeps old s.memQueue) :
    Keeps old (s.runPacket op c).memQueue := by
  unfold State.runPacket
  refine .ite (.ite hk (State.junk_keeps hk)) (.ite (State.syncCommand_keeps hk) ?_)
  split
  next sp e => exact State.resetIfDue_keeps (State.command_keeps (commandSpecs_kept sp (List.mem_of_find?_eq_some e)) hk)
  · exact State.command_keeps unknownSpec_kept hk

@[simp] theorem State.arrive_keeps {s : State} {ch src : Nat} {bs : List Byte} (hk : Keeps old s.memQueue) :
    Keeps old (s.arrive ch src bs).memQueue := by
  unfold State.arrive
  split <;> simp [hk]

theorem execUnknownOpcode_keeps {s : State} {op : Nat} {c : Cmd} (hk : Keeps old s.memQueue) :
    KeepsNext old (execUnknownOpcode op c s) := by
  simp [execUnknownOpcode, hk]

theorem execCommandPacketDiscard_keeps {s : State} {ch src : Nat} {raw : List Byte} (hk : Keeps old s.memQueue) :
    KeepsNext old (execCommandPacketDiscard ch src raw s) := by
  simp only [execCommandPacketDiscard, keepsNext_next]
  split <;> simp [hk]

theorem execMctpReassemblyTimeout_keeps {s : State} (hk : Keeps old s.memQueue) : KeepsNext old (execMctpReassemblyTimeout s) := by
  simp [execMctpReassemblyTimeout, hk]

theorem execReplyBoundExpire_keeps {s : State} {ch : Nat} {seq : BitVec 32} (hk : Keeps old s.memQueue) :
    KeepsNext old (execReplyBoundExpire ch seq s) := by
  simp only [execReplyBoundExpire, keepsNext_next]
  repeat' split
  all_goals simp [hk]

/-- The check of a command ring: what reads a record leaves both, and what writes the offset keeps them, so the check does. -/
theorem State.ringCheck_keeps {s : State} {ch len prod repCons : Nat} {rd : State → Nat → Nat → State × Option (List Byte)}
    {wr : State → Nat → Option State} (hk : Keeps old s.memQueue) (hrd : ∀ s o n, (rd s o n).1.memQueue = s.memQueue)
    (hwr : ∀ s n t, wr s n = some t → Keeps s.memQueue t.memQueue) : Keeps old (s.ringCheck ch len prod repCons rd wr).memQueue := by
  unfold State.ringCheck
  extract_lets s1 c k
  have h1 : Keeps old s1.memQueue := State.flushReplies_keeps (by simpa using hk)
  clear_value s1
  refine .ite (by simpa using hk) (.ite h1 ?_)
  split
  next e => simpa using h1.fst_same (hrd ..) e
  next t hdr e =>
    have h2 : Keeps old t.memQueue := h1.fst_same (hrd ..) e
    extract_lets pad n next
    refine .ite (by simpa using h2) ?_
    split
    next u rec e =>
      have h3 : Keeps old u.memQueue := by
        split at e
        · cases e
          exact h2
        · exact h2.fst_same (hrd ..) e
      split
      next v ew =>
        have h4 : Keeps old v.memQueue := h3.trans (hwr _ _ _ ew)
        exact .ite (by simpa using h4) (State.arrive_keeps (by simpa using h4))
      · simpa using h3

@[simp] theorem State.mailboxCheck_keeps {s : State} {fn : Nat} {h : HostRing} (hk : Keeps old s.memQueue) :
    Keeps old (s.mailboxCheck fn h).memQueue := by
  unfold State.mailboxCheck
  refine .ite hk ?_
  split
  · simpa using hk
  · refine .ite (by simpa using hk) (State.ringCheck_keeps hk (fun _ _ _ => rfl) fun s n t e => ?_)
    simp only at e
    split at e
    · cases e
      simp
    · cases e

@[simp] theorem State.deviceCheck_keeps {s : State} {i : Nat} (hk : Keeps old s.memQueue) : Keeps old (s.deviceCheck i).memQueue := by
  simp only [State.deviceCheck]
  refine .ite hk ?_
  split
  · refine State.ringCheck_keeps (by simpa using hk) (fun s o n => ?_) fun s n t e => ?_
    · split
      next e => simp [memQueue_fst e]
      next e => simp [memQueue_fst e]
    · split at e
      next ew =>
        cases e
        exact (State.writeBy_keeps (.refl _)).fst ew
      next => cases e
  · simpa using hk

theorem execCommandRingPoll_keeps {s : State} {ch : Nat} {h : HostRing} (hk : Keeps old s.memQueue) :
    KeepsNext old (execCommandRingPoll ch h s) := by
  simp only [execCommandRingPoll, keepsNext_next]
  split <;> simp [hk]

theorem execMbDoorbell_keeps {s : State} {fn : Nat} {h : HostRing} (hk : Keeps old s.memQueue) : KeepsNext old (execMbDoorbell fn h s) :=
  keepsNext_next.2 <| State.barWrite_keeps hk fun s i => by simp

/-! ## Frames at the ports -/

theorem execCmdFrameReceive_keeps {s : State} {link : Nat} {z : ZFrame} (hk : Keeps old s.memQueue) :
    KeepsNext old (execCmdFrameReceive link z s) := by
  simp only [execCmdFrameReceive, keepsNext_next]
  split <;> simp [hk]

@[simp] theorem State.frameIn_keeps {s : State} {link : Nat} {encap : Bool} {time : Nat} {bs : List Byte} (hk : Keeps old s.memQueue) :
    Keeps old (s.frameIn link encap time bs).memQueue := by
  simp only [State.frameIn]
  split <;> simp [hk]

@[simp] theorem State.releaseFrames_keeps {s : State} (hk : Keeps old s.memQueue) : Keeps old (s.releaseFrames).memQueue := by
  simp [State.releaseFrames, hk]

theorem execEncapReceive_keeps {s : State} {link : Nat} {z : ZFrame} (hk : Keeps old s.memQueue) :
    KeepsNext old (execEncapReceive link z s) := by
  simp [execEncapReceive, hk]

theorem ctrlExec_keeps {s : State} {code link : Nat} {z : ZFrame} (hk : Keeps old s.memQueue) : KeepsNext old (ctrlExec code link z s) := by
  unfold ctrlExec
  split
  · exact execCtrlArrive_keeps hk
  · exact execCtrlClose_keeps hk
  · exact execCtrlSlip_keeps hk
  · exact execCtrlAbort_keeps hk
  · exact execCtrlPause_keeps hk
  · exact execCtrlResume_keeps hk
  · exact execCtrlStop_keeps hk
  · exact execCtrlReady_keeps hk
  · exact execCtrlGo_keeps hk
  · exact execCtrlCknow_keeps hk
  · exact execCtrlCkpt_keeps hk
  · exact execCtrlArmed_keeps hk
  · exact execCtrlRelease_keeps hk
  · exact execCtrlSealed_keeps hk
  · exact execCtrlFailed_keeps hk
  · exact execCtrlDone_keeps hk
  · exact execCtrlPauseReq_keeps hk
  · exact execCtrlStopReq_keeps hk
  · exact execCtrlArrive_keeps hk

theorem zarenExec_keeps {s : State} {link : Nat} {z : ZFrame} (hk : Keeps old s.memQueue) : KeepsNext old (zarenExec link z s) := by
  unfold zarenExec
  split
  · exact execHelloReceive_keeps hk
  · split
    · exact execLsaReceive_keeps hk
    · split
      · exact execRoutesReceive_keeps hk
      · split
        · exact execZarenForward_keeps hk
        · split
          · exact execZarenWriteReceive_keeps hk
          · exact execZarenReadReceive_keeps hk
          · exact execZarenDataReceive_keeps hk
          · exact execZarenTokenReceive_keeps hk
          · exact execZarenDoneReceive_keeps hk
          · exact execZarenFailReceive_keeps hk
          · exact execPackReceive_keeps hk
          · exact ctrlExec_keeps hk
          · exact execCmdFrameReceive_keeps hk
          · exact execEncapReceive_keeps hk
          · exact execResyncReceive_keeps hk
          · exact keepsNext_next.2 (State.zIngress_keeps hk)

@[simp] theorem State.zarenArrive_keeps {s : State} {link : Nat} {bs : List Byte} (hk : Keeps old s.memQueue) :
    Keeps old (s.zarenArrive link bs).memQueue := by
  unfold State.zarenArrive
  split
  next t e => exact zarenExec_keeps hk t e
  · exact hk

@[simp] theorem State.frameOn_keeps {s : State} {link : Nat} {fr : EthFrame} (hk : Keeps old s.memQueue) :
    Keeps old (s.frameOn link fr).memQueue := by
  simp [State.frameOn, hk]

@[simp] theorem State.frameArrives_keeps {s : State} {link : Nat} {fr : EthFrame} (hk : Keeps old s.memQueue) :
    Keeps old (s.frameArrives link fr).memQueue := by
  simp [State.frameArrives, hk]

theorem execFrameReceive_keeps {s : State} {link : Nat} {fr : EthFrame} (hk : Keeps old s.memQueue) :
    KeepsNext old (execFrameReceive link fr s) := by
  simp [execFrameReceive, hk]

theorem execRungExitComplete_keeps {s : State} (hk : Keeps old s.memQueue) : KeepsNext old (execRungExitComplete s) := by
  simp [execRungExitComplete, hk]

@[simp] theorem State.mgmtArp_memQueue (s : State) (src b : List Byte) : (s.mgmtArp src b).memQueue = s.memQueue := by
  simp [State.mgmtArp]

@[simp] theorem State.mgmtUdp_keeps {s : State} {mac addr pseudo u : List Byte} {v6 ll : Bool} (hk : Keeps old s.memQueue) :
    Keeps old (s.mgmtUdp mac addr pseudo u v6 ll).memQueue := by
  simp [State.mgmtUdp, hk]

@[simp] theorem State.mgmtIpv4_keeps {s : State} {src b : List Byte} (hk : Keeps old s.memQueue) :
    Keeps old (s.mgmtIpv4 src b).memQueue := by
  simp [State.mgmtIpv4, hk]

@[simp] theorem State.icmp6_memQueue (s : State) (mac own dst : List Byte) (typ hop : Nat) (body : List Byte) :
    (s.icmp6 mac own dst typ hop body).memQueue = s.memQueue := (rfl)

@[simp] theorem State.mgmtIpv6_keeps {s : State} {src b : List Byte} (hk : Keeps old s.memQueue) :
    Keeps old (s.mgmtIpv6 src b).memQueue := by
  simp [State.mgmtIpv6, hk]

theorem execMgmtFrameReceive_keeps {s : State} {fr : List Byte} (hk : Keeps old s.memQueue) :
    KeepsNext old (execMgmtFrameReceive fr s) := by
  simp [execMgmtFrameReceive, hk]

/-! ## Every command, every step -/

/-- Every command keeps both: one lemma for each row of the command table. -/
theorem exec_keeps {s : State} (i : Instr) (hk : Keeps old s.memQueue) : KeepsNext old (exec i s) := by
  unfold exec
  split
  · exact execTok_keeps hk
  · exact execBeat_keeps hk
  · exact execLoop_keeps hk
  · exact execSetstep_keeps hk
  · exact execStop_keeps hk
  · exact execMma_keeps hk
  · exact execMmaComplete_keeps hk
  · exact execMdrain_keeps hk
  · exact execMdrainComplete_keeps hk
  · exact execVld_keeps hk
  · exact execVst_keeps hk
  · exact execVmovi_keeps hk
  · exact execVadd_keeps hk
  · exact execVsub_keeps hk
  · exact execVmul_keeps hk
  · exact execVfma_keeps hk
  · exact execVmax_keeps hk
  · exact execVmin_keeps hk
  · exact execVabs_keeps hk
  · exact execVneg_keeps hk
  · exact execVcmp_keeps hk
  · exact execVsel_keeps hk
  · exact execVcvt_keeps hk
  · exact execVrsum_keeps hk
  · exact execVrmax_keeps hk
  · exact execVexp2_keeps hk
  · exact execVrcp_keeps hk
  · exact execVrsqrt_keeps hk
  · exact execVand_keeps hk
  · exact execVor_keeps hk
  · exact execVxor_keeps hk
  · exact execVshl_keeps hk
  · exact execVshr_keeps hk
  · exact execVectorComplete_keeps hk
  · exact execSaddr_keeps hk
  · exact execSpeer_keeps hk
  · exact execSput_keeps hk
  · exact execSget_keeps hk
  · exact execStok_keeps hk
  · exact execSgather_keeps hk
  · exact execTadd_keeps hk
  · exact execWaitLimit_keeps hk
  · exact execWatchdog_keeps hk
  · exact execFacetArrive_keeps hk
  · exact execFacetDone_keeps hk
  · exact execFlitRoute_keeps hk
  · exact execFlitWriteReceive_keeps hk
  · exact execFlitReadReceive_keeps hk
  · exact execFlitDataReceive_keeps hk
  · exact execFlitTokenReceive_keeps hk
  · exact execFlitAckReceive_keeps hk
  · exact execFlitNackReceive_keeps hk
  · exact execMeshStall_keeps hk
  · exact execBankTransitionDone_keeps hk
  · exact execTblBankpwrWrite_keeps hk
  · exact execTblStallWrite_keeps hk
  · exact execFctFpflagsWrite_keeps hk
  · exact execFctDiscardRead_keeps hk
  · exact execFctSlackminRead_keeps hk
  · exact execTblEccRead_keeps hk
  · exact execCutLoad_keeps hk
  · exact execCutStart_keeps hk
  · exact execCutPause_keeps hk
  · exact execCutResume_keeps hk
  · exact execCutStop_keeps hk
  · exact execCutUnload_keeps hk
  · exact execCutStatus_keeps hk
  · exact execDeviceArrive_keeps hk
  · exact execOutputRecordWrite_keeps hk
  · exact execBeatLimitExpire_keeps hk
  · exact execBeatDeadline_keeps hk
  · exact execWindowEnd_keeps hk
  · exact execTimedStart_keeps hk
  · exact execStartLimitExpire_keeps hk
  · exact execCtrlArrive_keeps hk
  · exact execCtrlClose_keeps hk
  · exact execCtrlSlip_keeps hk
  · exact execCtrlAbort_keeps hk
  · exact execCtrlPause_keeps hk
  · exact execCtrlResume_keeps hk
  · exact execCtrlStop_keeps hk
  · exact execCtrlReady_keeps hk
  · exact execCtrlGo_keeps hk
  · exact execCtrlCknow_keeps hk
  · exact execCtrlCkpt_keeps hk
  · exact execCtrlArmed_keeps hk
  · exact execCtrlRelease_keeps hk
  · exact execCtrlSealed_keeps hk
  · exact execCtrlFailed_keeps hk
  · exact execCtrlDone_keeps hk
  · exact execCtrlPauseReq_keeps hk
  · exact execCtrlStopReq_keeps hk
  · exact execMemZoneSet_keeps hk
  · exact execGthTableSet_keeps hk
  · exact execGthTableClear_keeps hk
  · exact execGthTableGet_keeps hk
  · exact execGthCacheDrop_keeps hk
  · exact execGthTableWaitEnd_keeps hk
  · exact execMgFlitReceive_keeps hk
  · exact execHbmWriteIssue_keeps hk
  · exact execHbmReadComplete_keeps hk
  · exact execHbmRefresh_keeps hk
  · exact execStackTempCross_keeps hk
  · exact execPatrolScrub_keeps hk
  · exact execStackRequestTimeout_keeps hk
  · exact execGatherDescReceive_keeps hk
  · exact execGatherRowArrive_keeps hk
  · exact execGatherChunkDeliver_keeps hk
  · exact execGthCacheWrite_keeps hk
  · exact execGthCwaysWrite_keeps hk
  · exact execMemUelogWrite_keeps hk
  · exact execMemEccRead_keeps hk
  · exact execMemDiscardRead_keeps hk
  · exact execCkpConfig_keeps hk
  · exact execCkpNow_keeps hk
  · exact execCkpStatus_keeps hk
  · exact execCkpRestore_keeps hk
  · exact execCkpTimerExpire_keeps hk
  · exact execGranuleSaveDone_keeps hk
  · exact execCopierGranule_keeps hk
  · exact execCkptSeal_keeps hk
  · exact execPclInstCreate_keeps hk
  · exact execPclInstReset_keeps hk
  · exact execPclInstRemove_keeps hk
  · exact execPclParcelAlloc_keeps hk
  · exact execPclParcelFree_keeps hk
  · exact execPclShareSet_keeps hk
  · exact execPclMapSet_keeps hk
  · exact execPclBudgetSet_keeps hk
  · exact execPclAcctConfig_keeps hk
  · exact execPclInstStatus_keeps hk
  · exact execInstResetDrained_keeps hk
  · exact execInstResetTimeout_keeps hk
  · exact execMapSetDrained_keeps hk
  · exact execEnergyInterval_keeps hk
  · exact execAcctPeriod_keeps hk
  · exact execPclPacedRead_keeps hk
  · exact execPclAcctdropRead_keeps hk
  · exact execSysSync_keeps hk
  · exact execSysIdentify_keeps hk
  · exact execSysAbort_keeps hk
  · exact execSysEcho_keeps hk
  · exact execSysRegRead_keeps hk
  · exact execSysRegWrite_keeps hk
  · exact execSysChanSet_keeps hk
  · exact execSysChanStatus_keeps hk
  · exact execSysRingSet_keeps hk
  · exact execUnknownOpcode_keeps hk
  · exact execCommandPacketDiscard_keeps hk
  · exact execCommandRingPoll_keeps hk
  · exact execMctpReassemblyTimeout_keeps hk
  · exact execReplyBoundExpire_keeps hk
  · exact execRegisterWrite_keeps hk
  · exact execHelloSend_keeps hk
  · exact execHelloReceive_keeps hk
  · exact execAdjacencyDown_keeps hk
  · exact execLsaSend_keeps hk
  · exact execLsaReceive_keeps hk
  · exact execRoutesReceive_keeps hk
  · exact execHeartbeatSend_keeps hk
  · exact execRoutesResend_keeps hk
  · exact execHeartbeatLoss_keeps hk
  · exact execCandidateExclusionEnd_keeps hk
  · exact execZarenWriteReceive_keeps hk
  · exact execZarenReadReceive_keeps hk
  · exact execZarenDataReceive_keeps hk
  · exact execZarenTokenReceive_keeps hk
  · exact execZarenDoneReceive_keeps hk
  · exact execZarenFailReceive_keeps hk
  · exact execPackReceive_keeps hk
  · exact execCmdFrameReceive_keeps hk
  · exact execEncapReceive_keeps hk
  · exact execResyncReceive_keeps hk
  · exact execZarenForward_keeps hk
  · exact execPeerTransferDone_keeps hk
  · exact execZlkRtoExpire_keeps hk
  · exact execZarenAckTimer_keeps hk
  · exact execResyncSend_keeps hk
  · exact execGptpMessageReceive_keeps hk
  · exact execGptpLockLoss_keeps hk
  · exact execGrandmasterLock_keeps hk
  · exact execGateEntryAdvance_keeps hk
  · exact execAdminGateStart_keeps hk
  · exact execFabGateSet_keeps hk
  · exact execFabJobGet_keeps hk
  · exact execFabNeighGet_keeps hk
  · exact execZlkPortWrite_keeps hk
  · exact execZlkDiscardRead_keeps hk
  · exact execFrameReceive_keeps hk
  · exact execLinkUp_keeps hk
  · exact execLinkRestart_keeps hk
  · exact execLinkFault_keeps hk
  · exact execMgmtFrameReceive_keeps hk
  · exact execNetRuleSet_keeps hk
  · exact execNetRuleClear_keeps hk
  · exact execNetRuleGet_keeps hk
  · exact execNetQueueSet_keeps hk
  · exact execNetQueueGet_keeps hk
  · exact execNetPortWrite_keeps hk
  · exact execNetLinkRead_keeps hk
  · exact execNetDropRead_keeps hk
  · exact execNetQstatRead_keeps hk
  · exact execTransmitSelect_keeps hk
  · exact execShaperRefill_keeps hk
  · exact execTmsMeterSet_keeps hk
  · exact execTmsShaperSet_keeps hk
  · exact execTmsObjFree_keeps hk
  · exact execTmsObjGet_keeps hk
  · exact execTmsEqSet_keeps hk
  · exact execTmsIqmapSet_keeps hk
  · exact execTmsEqstatRead_keeps hk
  · exact execTmsDropRead_keeps hk
  · exact execRoceWriteReceive_keeps hk
  · exact execRoceReadRequestReceive_keeps hk
  · exact execRoceReadResponseReceive_keeps hk
  · exact execRoceAckReceive_keeps hk
  · exact execDoorbellRingPoll_keeps hk
  · exact execRmaDb_keeps hk
  · exact execWorkRequestFetch_keeps hk
  · exact execRocePacketSend_keeps hk
  · exact execRoceRetransmitTimeout_keeps hk
  · exact execRoceAckTimer_keeps hk
  · exact execContextFetchDone_keeps hk
  · exact execBaseDelayRefresh_keeps hk
  · exact execCompletionEntryWrite_keeps hk
  · exact execRmaCtxArea_keeps hk
  · exact execRmaPdAlloc_keeps hk
  · exact execRmaPdFree_keeps hk
  · exact execRmaQpCreate_keeps hk
  · exact execRmaQpModify_keeps hk
  · exact execRmaQpDestroy_keeps hk
  · exact execRmaQpGet_keeps hk
  · exact execRmaMwOpen_keeps hk
  · exact execRmaMwRevoke_keeps hk
  · exact execMwRevokeDrained_keeps hk
  · exact execRmaDbSet_keeps hk
  · exact execSqDoorbellWrite_keeps hk
  · exact execDoorbellAreaPoll_keeps hk
  · exact execCcEnWrite_keeps hk
  · exact execCcShnWrite_keeps hk
  · exact execDeleteIoSq_keeps hk
  · exact execCreateIoSq_keeps hk
  · exact execGetLogPage_keeps hk
  · exact execDeleteIoCq_keeps hk
  · exact execCreateIoCq_keeps hk
  · exact execIdentify_keeps hk
  · exact execNvmeAbort_keeps hk
  · exact execSetFeatures_keeps hk
  · exact execGetFeatures_keeps hk
  · exact execAsynchronousEventRequest_keeps hk
  · exact execNvmFlush_keeps hk
  · exact execNvmWrite_keeps hk
  · exact execNvmRead_keeps hk
  · exact execWriteZeroes_keeps hk
  · exact execDatasetManagement_keeps hk
  · exact execBackingComplete_keeps hk
  · exact execDriveCompletionReceive_keeps hk
  · exact execDriveTimeout_keeps hk
  · exact execDriveResetTimeout_keeps hk
  · exact execDriveLinkUp_keeps hk
  · exact execApstIdleExpire_keeps hk
  · exact execStoCtrlEn_keeps hk
  · exact execStoCtrlStatus_keeps hk
  · exact execStoNsCreate_keeps hk
  · exact execStoNsDelete_keeps hk
  · exact execStoNsAttach_keeps hk
  · exact execStoNsCopy_keeps hk
  · exact execStoDriveStatus_keeps hk
  · exact execNvcCtrlRead_keeps hk
  · exact execConfigRequest_keeps hk
  · exact execBar0BadAccess_keeps hk
  · exact execMbCfgWrite_keeps hk
  · exact execMbDoorbell_keeps hk
  · exact execInboundRead_keeps hk
  · exact execInboundWrite_keeps hk
  · exact execMasterReadIssue_keeps hk
  · exact execCompletionReceive_keeps hk
  · exact execCompletionTimeout_keeps hk
  · exact execTagQuarantineEnd_keeps hk
  · exact execBusMasterDisable_keeps hk
  · exact execFunctionLevelReset_keeps hk
  · exact execVfEnableClear_keeps hk
  · exact execHotReset_keeps hk
  · exact execD3hotEntry_keeps hk
  · exact execPmeTurnOff_keeps hk
  · exact execEndpointLinkRetry_keeps hk
  · exact execPceWindowDrained_keeps hk
  · exact execPceFnBind_keeps hk
  · exact execPceIwinSet_keeps hk
  · exact execPceOwinSet_keeps hk
  · exact execPceWinGet_keeps hk
  · exact execPceDirtySet_keeps hk
  · exact execPceDirtySwap_keeps hk
  · exact execPceAperSet_keeps hk
  · exact execPceWake_keeps hk
  · exact execPceFnStatus_keeps hk
  · exact execRootPortLinkRetry_keeps hk
  · exact execDriveRequestReceive_keeps hk
  · exact execPceLinkRead_keeps hk
  · exact execPceRportRead_keeps hk
  · exact execCipCtxSet_keeps hk
  · exact execCipCtxFree_keeps hk
  · exact execCipOp_keeps hk
  · exact execCipStateSave_keeps hk
  · exact execCipStateRestore_keeps hk
  · exact execCipQpBind_keeps hk
  · exact execCipHash_keeps hk
  · exact execCipLmsVerify_keeps hk
  · exact execCipStatusRead_keeps hk
  · exact execAvsSample_keeps hk
  · exact execIssueGateReopen_keeps hk
  · exact execThermalCeilingTick_keeps hk
  · exact execPowerCapTick_keeps hk
  · exact execDozeIdleExpire_keeps hk
  · exact execRungEntryStart_keeps hk
  · exact execRungEntryComplete_keeps hk
  · exact execWakeEvent_keeps hk
  · exact execWakeAtExpire_keeps hk
  · exact execRungExitComplete_keeps hk
  · exact execPorstNDeassert_keeps hk
  · exact execPorstNAssert_keeps hk
  · exact execPfwNAssert_keeps hk
  · exact execPfwNDeassert_keeps hk
  · exact execPwrwakeNAssert_keeps hk
  · exact execPwrRungSet_keeps hk
  · exact execPwrStatus_keeps hk
  · exact execPwrCapSet_keeps hk
  · exact execPwrPaceSet_keeps hk
  · exact execFwStage_keeps hk
  · exact execFwCommit_keeps hk
  · exact execFwActivate_keeps hk
  · exact execFwActivateDrained_keeps hk
  · exact execFwFloorSet_keeps hk
  · exact execAttestQuote_keeps hk
  · exact execPwrRailctlWrite_keeps hk
  · exact execPwrGatesRead_keeps hk
  · exact execEventStage_keeps hk
  · exact execLogDrain_keeps hk
  · exact execTimeMark_keeps hk
  · exact execFlashFlush_keeps hk
  · exact execFreezeLimitExpire_keeps hk
  · exact execLogDlogSet_keeps hk
  · exact execLogIlogSet_keeps hk
  · exact execLogFreeze_keeps hk
  · exact execLogFlush_keeps hk
  · exact execLogFlashRead_keeps hk
  · exact execLogDropRead_keeps hk
  · exact execLogOvfRead_keeps hk
  · exact execDgnFaultGet_keeps hk
  · exact execDgnFaultClear_keeps hk
  · exact execDgnDieRestart_keeps hk
  · exact execDgnDeviceReset_keeps hk
  · exact execDgnInject_keeps hk
  · exact execEngineWd_keeps hk
  · exact execUcieRetry_keeps hk
  · exact execBezelWatchdog_keeps hk
  · exact execLockstepMismatch_keeps hk
  · exact execBezelRestartDone_keeps hk
  · exact execPcieInternal_keeps hk
  · exact execVoltageAlarm_keeps hk
  · exact execTemperatureAlarm_keeps hk
  · exact execClockAlarm_keeps hk
  · exact execTamperAlarm_keeps hk
  · exact execAlarmClear_keeps hk
  · exact execPgTimeout_keeps hk
  · exact execPerstNAssert_keeps hk
  · exact execPerstNDeassert_keeps hk
  · exact execPrsntNChange_keeps hk
  · exact execPpsOut_keeps hk
  · exact execMgmtPhyResetRelease_keeps hk
  · exact execSputSourceRead_keeps hk
  · exact execCaptureComplete_keeps hk
  · exact execResumeWindowStart_keeps hk
  · exact execGptpSyncSend_keeps hk
  · exact execPreemptionVerified_keeps hk
  · exact execEndpointLinkUp_keeps hk
  · exact execRootPortLinkDown_keeps hk
  · exact execRootPortAerError_keeps hk
  · exact execAggregationTimeExpire_keeps hk
  · exact execPgAssert_keeps hk
  · exact execReferenceClockChange_keeps hk
  · exact execMgmtLinkChange_keeps hk
  · exact execFwActivateComplete_keeps hk

/-- What a step reaches has the memory's form and, but for the front record, the queue. -/
theorem step_keeps {s : State} : KeepsNext (s.mem, s.pending.tail) (step s) := by
  unfold step
  split
  next e => simp [e]
  next c rest e => exact exec_keeps c (by simp [e])

end Sys2Proof.Machine

open Sys2Proof Sys2Proof.Machine

/-- Settles O58: only four operations write device memory, each keeps its canonical form, and every command is built of operations that
keep it. -/
theorem stepKeepsMemoryForm : Obligations.StepKeepsMemoryForm := by
  unfold Obligations.StepKeepsMemoryForm
  intro s t hs e
  exact (step_keeps t e).1 hs

end

section
/-! PROOF. What the containment of faults marks in a state (R466): the failed dies and the fault table, the links, and the gates. The
operations that every chapter uses leave it as it is. -/

namespace Sys2Proof.Machine

/-! ## What the containment of faults marks -/

/-- The dies that have failed and the fault table, the Ethernet links, the state of the endpoint's link, and the gates that are closed. -/
abbrev Damage := (List Nat × Tbl FaultEntry) × Tbl EthLink × PceLinkState × (Nat → Bool)

/-- What the containment of faults has marked in a state. -/
def State.damage (s : State) : Damage :=
  ((s.faults.failedDies, s.faults.table), s.eth.links, s.pcie.link, fun f => (s.pfield f).closed)

@[simp] theorem State.damage_mk {now mem emitted loupe faults facets mesh hbm gather parcels rings insts acct chans fabric eth traffic
    rma storage pcie cipher power boot pins free pending} :
    State.damage ⟨now, mem, emitted, loupe, faults, facets, mesh, hbm, gather, parcels, rings, insts, acct, chans, fabric, eth, traffic,
      rma, storage, pcie, cipher, power, boot, pins, free, pending⟩ =
    ((faults.failedDies, faults.table), eth.links, pcie.link, fun f => (power.fields.getD f PField.initial).closed) := (rfl)

@[simp] theorem State.damage_parts (s : State) :
    ((s.faults.failedDies, s.faults.table), s.eth.links, s.pcie.link, fun f => (s.power.fields.getD f PField.initial).closed) =
    s.damage := (rfl)

@[simp] theorem State.damage_ite {c : Prop} {_ : Decidable c} (s t : State) :
    (if c then s else t).damage = if c then s.damage else t.damage := apply_ite ..

/-- A branch whose both sides leave the damage as it is. -/
theorem damage_ite_same {c : Prop} {_ : Decidable c} {s t : State} {d : Damage} (hs : s.damage = d) (ht : t.damage = d) :
    (if c then s else t).damage = d := by split <;> assumption

/-- Folding a function that leaves the damage as it is leaves it. -/
@[simp] theorem foldl_damage {α : Type} {g : State → α → State} (hg : ∀ s x, (g s x).damage = s.damage) (l : List α)
    (s : State) : (l.foldl g s).damage = s.damage := by
  induction l generalizing s with
  | nil => rfl
  | cons x t ih => rw [List.foldl_cons, ih, hg]

/-- Folding over a state and a result at its side. -/
theorem foldl_fst_damage {α β : Type} {g : State × β → α → State × β} (hg : ∀ r x, (g r x).1.damage = r.1.damage)
    (l : List α) (r : State × β) : (l.foldl g r).1.damage = r.1.damage := by
  induction l generalizing r with
  | nil => rfl
  | cons x t ih => rw [List.foldl_cons, ih, hg]

/-- A state that an equation names as part of an answer. -/
theorem damage_fst {α : Type} {p : State × α} {t : State} {x : α} (e : p = (t, x)) : t.damage = p.1.damage := by rw [e]

/-- A ring's answer has the damage given, where it names a state. -/
def RingPut.Leaves (d : Damage) : RingPut → Prop
  | .ok s _ => s.damage = d
  | .full => True
  | .bad s => s.damage = d

theorem RingPut.Leaves.ok {r : RingPut} {t : State} {prod : Nat} {d : Damage} (h : r.Leaves d) (e : r = .ok t prod) : t.damage = d := by
  subst e; exact h

theorem RingPut.Leaves.bad {r : RingPut} {t : State} {d : Damage} (h : r.Leaves d) (e : r = .bad t) : t.damage = d := by
  subst e; exact h

/-! ## The named operations -/

@[simp] theorem State.putFacet_damage (s : State) (f : Nat) (x : Facet) : (s.putFacet f x).damage = s.damage := (rfl)

@[simp] theorem State.modFacet_damage (s : State) (f : Nat) (g : Facet → Facet) : (s.modFacet f g).damage = s.damage := (rfl)

@[simp] theorem State.modParcel_damage (s : State) (p : Nat) (g : Parcel → Parcel) : (s.modParcel p g).damage = s.damage := (rfl)

@[simp] theorem State.modRun_damage (s : State) (p : Nat) (g : Run → Run) : (s.modRun p g).damage = s.damage := (rfl)

@[simp] theorem State.modCkp_damage (s : State) (p : Nat) (g : Ckp → Ckp) : (s.modCkp p g).damage = s.damage := (rfl)

@[simp] theorem State.modChan_damage (s : State) (c : Nat) (g : Channel → Channel) : (s.modChan c g).damage = s.damage := (rfl)

@[simp] theorem State.modStack_damage (s : State) (k : Nat) (g : Stack → Stack) : (s.modStack k g).damage = s.damage := (rfl)

@[simp] theorem State.modMemDie_damage (s : State) (k : Nat) (g : MemDie → MemDie) : (s.modMemDie k g).damage = s.damage := (rfl)

@[simp] theorem State.modFlow_damage (s : State) (n : Nat) (g : Flow → Flow) : (s.modFlow n g).damage = s.damage := (rfl)

@[simp] theorem State.modFn_damage (s : State) (n : Nat) (g : PceFn → PceFn) : (s.modFn n g).damage = s.damage := (rfl)

@[simp] theorem State.modCtrl_damage (s : State) (i : Nat) (g : NvCtrl → NvCtrl) : (s.modCtrl i g).damage = s.damage := (rfl)

@[simp] theorem State.modDrive_damage (s : State) (p : Nat) (g : Drive → Drive) : (s.modDrive p g).damage = s.damage := (rfl)

@[simp] theorem State.modRail_damage (s : State) (r : Nat) (g : Rail → Rail) : (s.modRail r g).damage = s.damage := (rfl)

theorem State.modPField_damage {s : State} {f : Nat} {g : PField → PField} (hg : ∀ x, (g x).closed = x.closed) :
    (s.modPField f g).damage = s.damage := by
  have hc : (fun n => ((s.modPField f g).pfield n).closed) = fun n => (s.pfield n).closed := by
    funext n
    by_cases hn : n = f
    · subst hn
      simp [State.pfield, State.modPField, hg]
    · simp [State.pfield, State.modPField, Tbl.getD_put_ne _ hn]
  simpa [State.damage] using hc

@[simp] theorem State.modRoot_damage (s : State) (p : Nat) (g : RootPort → RootPort) : (s.modRoot p g).damage = s.damage := (rfl)

@[simp] theorem State.emit_damage (s : State) (o : Out) : (s.emit o).damage = s.damage := (rfl)

@[simp] theorem State.takeFree_damage (s : State) : (s.takeFree).2.damage = s.damage := (rfl)

@[simp] theorem State.charge_damage (s : State) (i n by_ : Nat) : (s.charge i n by_).damage = s.damage := (rfl)

@[simp] theorem State.raise_damage (s : State) (blk code : Nat) (inst : Option Nat) (p0 p1 : Nat) (extra : List Byte) :
    (s.raise blk code inst p0 p1 extra).damage = s.damage := (rfl)

@[simp] theorem State.timeMark_damage (s : State) : (s.timeMark).damage = s.damage := (rfl)

/-! ## Device memory and the scratchpads -/

@[simp] theorem State.bankAccess_damage (s : State) (f m : Nat) (write : Bool) (off n : Nat) :
    (s.bankAccess f m write off n).damage = s.damage := (rfl)

@[simp] theorem State.markWritten_damage (s : State) (a n : Nat) : (s.markWritten a n).damage = s.damage := by
  simp [State.markWritten]

@[simp] theorem State.dropRows_damage (s : State) (a n : Nat) : (s.dropRows a n).damage = s.damage := (rfl)

@[simp] theorem State.storeRaw_damage (s : State) (a : Nat) (bs : List Byte) : (s.storeRaw a bs).1.damage = s.damage := by
  simp only [State.storeRaw]
  repeat' split
  all_goals simp

@[simp] theorem State.issueWrite_damage (s : State) (k : Nat) :
    (s.issueWrite k).damage = s.damage := by
  unfold State.issueWrite
  split
  · rfl
  · simp only
    split <;> simp

@[simp] theorem State.drainStack_damage (s : State) (k n : Nat) : (s.drainStack k n).damage = s.damage := by
  induction n generalizing s with
  | zero => rfl
  | succ n ih => simp [State.drainStack, ih]

@[simp] theorem State.drainHbm_damage (s : State) :
    (s.drainHbm).damage = s.damage := by
  simp [State.drainHbm]

@[simp] theorem State.ueLog_damage (s : State) (cls a : Nat) : (s.ueLog cls a).damage = s.damage := by
  simp [State.ueLog]

@[simp] theorem State.ueLogRange_damage (s : State) (cls a n : Nat) : (s.ueLogRange cls a n).damage = s.damage := by
  simp [State.ueLogRange]

@[simp] theorem State.copyRaw_damage (s : State) (src dst n : Nat) :
    (s.copyRaw src dst n).damage = s.damage := by
  simp [State.copyRaw]

theorem State.saveGranule_damage {s t : State} {p g : Nat} (e : s.saveGranule p g = some t) : t.damage = s.damage := by
  simp only [State.saveGranule] at e
  split at e
  · split at e
    · obtain rfl := Option.some.inj e
      simp
    · cases e
  · cases e

theorem State.saveFor_damage {s t : State} {a n : Nat} (e : s.saveFor a n = some t) : t.damage = s.damage := by
  induction n generalizing s with
  | zero => cases e; rfl
  | succ n ih =>
    simp only [State.saveFor] at e
    split at e
    · cases e; rfl
    · split at e
      next es => exact (ih e).trans (State.saveGranule_damage es)
      next => cases e

@[simp] theorem State.holdWrite_damage (s : State) (p g : Nat) (w : HbmWrite) (flit : Option Flit) :
    (s.holdWrite p g w flit).damage = s.damage := (rfl)

@[simp] theorem State.storePart_damage (s : State) (a : Nat) (bs : List Byte) : (s.storePart a bs).1.damage = s.damage := by
  simp only [State.storePart]
  split
  · simp
  · split
    next es => simp [State.saveFor_damage es]
    next => simp
    next => simp

@[simp] theorem State.store_damage (s : State) (a : Nat) (bs : List Byte) : (s.store a bs).1.damage = s.damage := by
  simp only [State.store]
  split
  · split
    · refine (foldl_fst_damage (fun r e => ?_) ..).trans (State.drainHbm_damage s)
      exact State.storePart_damage ..
    · simp
  · simp

@[simp] theorem State.zeroRange_damage (s : State) (a n : Nat) : (s.zeroRange a n).damage = s.damage := by
  simp only [State.zeroRange]
  split <;> simp

@[simp] theorem State.zeroStore_damage (s : State) (a n : Nat) :
    (s.zeroStore a n).damage = s.damage := by
  simp [State.zeroStore]

@[simp] theorem State.logFail_damage (s : State) (fn : Nat) : (s.logFail fn).damage = s.damage := (rfl)

@[simp] theorem State.logPage_damage (s : State) (fn bus : Nat) :
    (s.logPage fn bus).damage = s.damage := by
  simp only [State.logPage]
  repeat' split
  all_goals simp

@[simp] theorem State.masterWrite_damage (s : State) (fn bus : Nat) (bs : List Byte) : (s.masterWrite fn bus bs).damage = s.damage :=
  foldl_damage (fun _ _ => by simp) ..

@[simp] theorem State.masterParts_damage (s : State) (l : List (Nat × Nat × Nat)) (bs : List Byte) :
    (s.masterParts l bs).damage = s.damage := by
  induction l generalizing s bs with
  | nil => rfl
  | cons _ t ih => exact (ih ..).trans (State.masterWrite_damage ..)

@[simp] theorem State.discardBytes_damage (s : State) (f n : Nat) : (s.discardBytes f n).damage = s.damage := (rfl)

theorem State.saveAt_damage {s t : State} {who : Option (Nat × BitVec 16)} {a : Nat} {bs : List Byte}
    (e : s.saveAt who a bs = .ok t) : t.damage = s.damage := by
  have stored {s' t : State} (e : (if (s'.store a bs).2 then Except.ok (s'.store a bs).1 else Except.error AccErr.uncorr) = .ok t) :
      t.damage = s'.damage := by
    split at e
    · cases e
      simp
    · cases e
  simp only [State.saveAt] at e
  split at e
  · cases e
  · split at e
    · cases e
      simp
    · cases e
  · split at e
    · cases e
      simp
    · split at e
      · cases e
      · simpa using stored e
  · split at e
    · cases e
    · exact stored e
  · split at e
    · cases e
    · exact stored e

theorem State.saveAll_damage {s t : State} {who : Option (Nat × BitVec 16)} {l : List (Nat × Nat)} {bs : List Byte}
    (e : s.saveAll who l bs = .ok t) : t.damage = s.damage := by
  induction l generalizing s bs with
  | nil => cases e; rfl
  | cons _ l ih =>
    simp only [State.saveAll] at e
    split at e
    · cases e
    next es => exact (ih e).trans (State.saveAt_damage es)

@[simp] theorem State.addressEvent_damage (s : State) (blk i a obj : Nat) : (s.addressEvent blk i a obj).damage = s.damage := by
  simp [State.addressEvent]

@[simp] theorem State.spadTouch_damage (s : State) (m : Nat) (rs : List (Nat × Nat)) : (s.spadTouch m rs).damage = s.damage := by
  unfold State.spadTouch
  exact foldl_damage (fun s x => by split <;> simp) _ _

@[simp] theorem State.discardReads_damage (s : State) (who : Option (Nat × BitVec 16)) (rs : List (Nat × Nat)) :
    (s.discardReads who rs).damage = s.damage := by
  unfold State.discardReads
  exact foldl_damage (fun s x => by split <;> simp) _ _

theorem State.writeInst_damage {s t : State} {i a : Nat} {bs : List Byte} (e : s.writeInst i a bs = .ok t) : t.damage = s.damage := by
  simp only [State.writeInst] at e
  split at e
  · cases e
  · split at e
    · cases e
    next es =>
      cases e
      simpa using State.saveAll_damage es

@[simp] theorem State.disarm_damage (s : State) (l : List Nat) : (s.disarm l).damage = s.damage := (rfl)

@[simp] theorem State.metSpad_damage (s : State) (f off n : Nat) : (s.metSpad f off n).damage = s.damage := by
  unfold State.metSpad
  split <;> simp

@[simp] theorem State.met_damage (s : State) (a n : Nat) : (s.met a n).damage = s.damage := by
  unfold State.met
  split
  · simp
  · exact (foldl_damage (fun _ _ => State.modMemDie_damage ..) _ _).trans (State.disarm_damage ..)

@[simp] theorem State.chargeRead_damage (s : State) (i a n : Nat) : (s.chargeRead i a n).damage = s.damage := by
  unfold State.chargeRead
  split <;> simp

@[simp] theorem State.countBad_damage (s : State) (f off n : Nat) : (s.countBad f off n).damage = s.damage :=
  foldl_damage (fun _ _ => State.modFacet_damage ..) _ _

@[simp] theorem State.metBad_damage (s : State) (cls a n : Nat) : (s.metBad cls a n).damage = s.damage := by
  unfold State.metBad
  split <;> simp

@[simp] theorem State.readBy_damage (s : State) (cls i a n : Nat) : (s.readBy cls i a n).1.damage = s.damage := by
  unfold State.readBy
  repeat' split
  all_goals simp

@[simp] theorem State.storeMet_damage (s : State) (cls a : Nat) (bs : List Byte) : (s.storeMet cls a bs).damage = s.damage := by
  unfold State.storeMet
  split
  · simp
  · split <;> simp
  · simp

@[simp] theorem State.saveSome_damage (s : State) (who : Option (Nat × BitVec 16)) (cls : Nat) (l : List (Nat × Nat)) (bs : List Byte) :
    (s.saveSome who cls l bs).damage = s.damage := by
  induction l generalizing s bs with
  | nil => rfl
  | cons _ t ih =>
    refine (ih ..).trans ?_
    split
    next es => exact State.saveAt_damage es
    next => exact State.storeMet_damage ..
    next => rfl

@[simp] theorem State.writeBy_damage (s : State) (cls i a : Nat) (bs : List Byte) : (s.writeBy cls i a bs).1.damage = s.damage := by
  unfold State.writeBy
  split
  next es => exact State.writeInst_damage es
  next => split <;> simp
  next => rfl

theorem State.ringPut_damage (s : State) (cls i ring len prod m : Nat) (rec pad : List Byte) :
    (s.ringPut cls i ring len prod m rec pad).Leaves s.damage := by
  have fst {s s1 : State} {x : Except AccErr Unit} (a : Nat) (bs : List Byte) (e : s.writeBy cls i a bs = (s1, x)) :
      s1.damage = s.damage := by simp [damage_fst e]
  simp only [State.ringPut]
  split
  next e => simp [RingPut.Leaves, damage_fst e]
  next s1 _ e =>
    have h1 : s1.damage = s.damage := by simp [damage_fst e]
    split
    · exact h1
    · generalize (if decide (len < prod + (padMul m rec).length) = true then len - prod + (padMul m rec).length
        else (padMul m rec).length) = need
      generalize (if decide (len < prod + (padMul m rec).length) = true then 0 else prod) = at_
      have hp : (if decide (len < prod + (padMul m rec).length) = true then
          s1.writeBy cls i (ring + 64 + prod) (pad.take (len - prod)) else (s1, .ok ())).1.damage = s.damage := by
        split <;> simp [h1]
      generalize (if decide (len < prod + (padMul m rec).length) = true then
        s1.writeBy cls i (ring + 64 + prod) (pad.take (len - prod)) else (s1, .ok ())) = p at hp ⊢
      split
      · trivial
      · split
        next => exact hp
        next =>
          split
          next e => exact (fst _ _ e).trans hp
          next e =>
            have h2 := (fst _ _ e).trans hp
            split
            next e => exact (fst _ _ e).trans h2
            next e => exact (fst _ _ e).trans h2

/-! ## Flits and fabric frames -/

@[simp] theorem State.dieSend_damage (s : State) (die : Nat) (fl : Flit) : (s.dieSend die fl).damage = s.damage := (rfl)

@[simp] theorem State.nackFacet_damage (s : State) (link f tag inst : Nat) (gen : BitVec 16) (status : Nat) :
    (s.nackFacet link f tag inst gen status).damage = s.damage := (rfl)

@[simp] theorem State.mgNack_damage (s : State) (k : Nat) (fl : Flit) (status : Nat) : (s.mgNack k fl status).damage = s.damage := by
  simp [State.mgNack]

@[simp] theorem State.mgRefuse_damage (s : State) (k : Nat) (fl : Flit) (status : Nat) :
    (s.mgRefuse k fl status).damage = s.damage := (rfl)

@[simp] theorem State.mgLast_damage (s : State) (k : Nat) (fl : Flit) : (s.mgLast k fl).damage = s.damage := by
  unfold State.mgLast
  repeat' split
  all_goals simp

@[simp] theorem State.tmsDrop_damage (s : State) (die n by_ : Nat) : (s.tmsDrop die n by_).damage = s.damage := (rfl)

theorem State.egress_damage {s t : State} {link cls : Nat} {inst : Option Nat} {ctl waits : Bool} {body : TxBody} {len : Nat}
    {mark : Option (Nat × BitVec 24)} (e : s.egress link cls inst ctl waits body len mark = .done t) : t.damage = s.damage := by
  have full {s' : State} (e : (if waits then Egress.wait else .done (s'.tmsDrop (dieOfLink link) 1)) = .done t)
      (hs : s'.damage = s.damage) : t.damage = s.damage := by
    split at e
    · cases e
    · cases e
      simpa using hs
  simp only [State.egress] at e
  split at e
  · split at e
    · cases e; rfl
    · exact full e rfl
  · split at e
    · split at e
      · cases e
        simp
      · split at e
        · cases e; rfl
        · exact full e rfl
    · split at e
      · cases e; rfl
      · exact full e rfl

@[simp] theorem State.withAck_damage (s : State) (z : ZFrame) : (s.withAck z).2.damage = s.damage := by
  simp only [State.withAck]
  repeat' split
  all_goals simp

theorem State.putZ_damage {s t : State} {z : ZFrame} {waits : Bool} (e : s.putZ z waits = .done t) : t.damage = s.damage := by
  unfold State.putZ at e
  split at e
  · exact State.egress_damage e
  · cases e; rfl

@[simp] theorem State.noRoute_damage (s : State) (z : ZFrame) : (s.noRoute z).damage = s.damage := by
  simp [State.noRoute]

@[simp] theorem State.pumpFlow_damage (s : State) (k n : Nat) : (s.pumpFlow k n).damage = s.damage := by
  induction n generalizing s with
  | zero => rfl
  | succ n ih =>
    simp only [State.pumpFlow]
    split
    · rfl
    · split
      · rfl
      · split
        · simp [ih]
        · split
          · rfl
          next e => simp [ih, State.putZ_damage e]

@[simp] theorem State.sendFlow_damage (s : State) (z : ZFrame) : (s.sendFlow z).damage = s.damage := by
  simp [State.sendFlow]

@[simp] theorem State.ctrlTo_damage (s : State) (p : Nat) (c : Cut) (rank code arg arg2 arg3 : Nat) (hash : List Byte) :
    (s.ctrlTo p c rank code arg arg2 arg3 hash).damage = s.damage := by
  simp [State.ctrlTo]

@[simp] theorem State.ctrlAll_damage (s : State) (p : Nat) (c : Cut) (code arg arg2 : Nat) :
    (s.ctrlAll p c code arg arg2).damage = s.damage := by
  simp [State.ctrlAll]

@[simp] theorem State.ctrlChildren_damage (s : State) (p : Nat) (c : Cut) (code arg arg2 arg3 : Nat) (hash : List Byte) :
    (s.ctrlChildren p c code arg arg2 arg3 hash).damage = s.damage := by
  simp [State.ctrlChildren]

/-! ## The host link and the replies -/

@[simp] theorem State.pceStat_damage (s : State) (n : Nat) : (s.pceStat n).damage = s.damage := (rfl)

@[simp] theorem State.masterRefused_damage (s : State) (fn reason : Nat) : (s.masterRefused fn reason).damage = s.damage := (rfl)

@[simp] theorem State.busWrite_damage (s : State) (fn bus : Nat) (bs : List Byte) :
    (s.busWrite fn bus bs).1.damage = s.damage := by
  unfold State.busWrite
  split <;> simp

@[simp] theorem State.errMessage_damage (s : State) (fn cls : Nat) : (s.errMessage fn cls).damage = s.damage := by
  simp [State.errMessage]

@[simp] theorem State.aerCor_damage (s : State) (fn b : Nat) : (s.aerCor fn b).damage = s.damage := by
  simp [State.aerCor]

@[simp] theorem State.aerUncor_damage (s : State) (fn b : Nat) (advisory : Bool) : (s.aerUncor fn b advisory).damage = s.damage := by
  simp only [State.aerUncor]
  repeat' split
  all_goals simp

@[simp] theorem State.putVector_damage (s : State) (fn v : Nat) (y : MsixVec) : (s.putVector fn v y).damage = s.damage := (rfl)

@[simp] theorem State.msix_damage (s : State) (fn v : Nat) : (s.msix fn v).damage = s.damage := by
  simp [State.msix]

@[simp] theorem State.pmeEvent_damage (s : State) (fn : Nat) : (s.pmeEvent fn).damage = s.damage := by
  simp only [State.pmeEvent]
  repeat' split
  · rfl
  · simp
  · exact (State.emit_damage ..).trans (State.modFn_damage s fn fun x => { x with pmeStat := true })
  · simp

theorem State.mailboxPut_damage {s t : State} {ch fn : Nat} {bytes : List Byte} (e : s.mailboxPut ch fn bytes = some t) :
    t.damage = s.damage := by
  simp only [State.mailboxPut] at e
  split at e
  all_goals
    split at e
    · cases e
    · obtain rfl := Option.some.inj e
      simp

@[simp] theorem State.ip4Send_damage (s : State) (mac own dst : List Byte) (proto : Nat) (body : List Byte) :
    (s.ip4Send mac own dst proto body).damage = s.damage := (rfl)

@[simp] theorem State.ip6Send_damage (s : State) (mac own dst : List Byte) (proto hop : Nat) (body : List Byte) :
    (s.ip6Send mac own dst proto hop body).damage = s.damage := (rfl)

@[simp] theorem State.mgmtReply_damage (s : State) (dst : Nat) (bytes : List Byte) : (s.mgmtReply dst bytes).damage = s.damage := by
  simp [State.mgmtReply]

@[simp] theorem State.mctpReply_damage (s : State) (dst : Nat) (bytes : List Byte) :
    (s.mctpReply dst bytes).damage = s.damage := (rfl)

@[simp] theorem State.chanError_damage (s : State) (ch : Nat) : (s.chanError ch).damage = s.damage := (rfl)

@[simp] theorem State.numbered_damage (s : State) (ch dst : Nat) (bytes : List Byte) :
    (s.numbered ch dst bytes).damage = s.damage := (rfl)

theorem State.emitOne_damage {s t : State} {ch : Nat} {h : HeldReply} (e : s.emitOne ch h = some t) : t.damage = s.damage := by
  simp only [State.emitOne] at e
  split at e
  · cases e; rfl
  · split at e
    · split at e
      · cases e
      · split at e
        · cases e; rfl
        · simpa using State.mailboxPut_damage e
    · split at e
      · cases e
        simp
      · split at e
        · cases e
          simp
        · split at e
          · cases e
            simp
          · split at e
            next er =>
              cases e
              simpa using (State.ringPut_damage ..).ok er
            next => cases e
            next er =>
              cases e
              simpa using (State.ringPut_damage ..).bad er

@[simp] theorem State.flushGo_damage (s : State) (ch : Nat) (l : List HeldReply) : (State.flushGo ch l s).damage = s.damage := by
  induction l generalizing s with
  | nil => simp [State.flushGo]
  | cons _ t ih =>
    simp only [State.flushGo]
    split
    next e => exact (ih _).trans (State.emitOne_damage e)
    next => simp

@[simp] theorem State.flushReplies_damage (s : State) (ch : Nat) :
    (s.flushReplies ch).damage = s.damage := by
  simp [State.flushReplies]

@[simp] theorem State.emitReply_damage (s : State) (ch : Nat) (h : HeldReply) :
    (s.emitReply ch h).damage = s.damage := by
  unfold State.emitReply
  repeat' split
  all_goals simp

@[simp] theorem State.sendResult_damage (s : State) (ch : Nat) (e' : InProgress) (status detail : Nat) (params : List Byte) :
    (s.sendResult ch e' status detail params).damage = s.damage := by
  simp [State.sendResult]

@[simp] theorem State.finishOne_damage (s : State) (ch id status detail : Nat) (params : List Byte) :
    (s.finishOne ch id status detail params).damage = s.damage := by
  unfold State.finishOne
  split <;> simp

@[simp] theorem State.abortsGo_damage (s : State) (ch n : Nat) (l : List (Nat × Nat)) : (State.abortsGo ch n l s).damage = s.damage := by
  induction n generalizing s l with
  | zero => rfl
  | succ n ih =>
    cases l with
    | nil => rfl
    | cons a t => simp [State.abortsGo, ih]

@[simp] theorem State.finishAborts_damage (s : State) (ch id result : Nat) :
    (s.finishAborts ch id result).damage = s.damage := by
  simp [State.finishAborts]

@[simp] theorem State.finish_damage (s : State) (w : Waiter) (status detail : Nat) (params : List Byte) :
    (s.finish w status detail params).damage = s.damage := by
  simp [State.finish]

end Sys2Proof.Machine
end

section
/-! PROOF. The operations under a fault's containment leave what it marks as it is: the end of a job, of a link, of a queue pair, of a
controller and of a function. -/

namespace Sys2Proof.Machine

/-! ## Checkpoints -/

@[simp] theorem State.writeOver_damage (s : State) (l : List (Nat × Nat)) (bs : List Byte) : (s.writeOver l bs).damage = s.damage := by
  induction l generalizing s bs with
  | nil => rfl
  | cons _ t ih => exact (ih ..).trans (State.storeRaw_damage ..)

@[simp] theorem State.saveFacet_damage (s : State) (segs : List (Nat × Nat)) (f k : Nat) :
    (s.saveFacet segs f k).damage = s.damage := by
  simp [State.saveFacet]

@[simp] theorem State.performHeld_damage (s : State) (h : HeldWrite) :
    (s.performHeld h).damage = s.damage := by
  unfold State.performHeld
  split <;> simp

@[simp] theorem State.freeHeld_damage (s : State) (hs : List HeldWrite) :
    (s.freeHeld hs).damage = s.damage := by
  unfold State.freeHeld
  exact foldl_damage (fun s x => by split <;> simp) ..

@[simp] theorem State.ckpFail_damage (s : State) (p code : Nat) :
    (s.ckpFail p code).damage = s.damage := by
  simp only [State.ckpFail]
  split <;> simp

@[simp] theorem State.capture_damage (s : State) (p : Nat) (c : Cut) :
    (s.capture p c).damage = s.damage := by
  simp only [State.capture]
  split <;> simp

/-! ## Jobs, beats and pauses -/

@[simp] theorem State.putDemand_damage (s : State) (p f : Nat) (d : Demand) : (s.putDemand p f d).damage = s.damage := (rfl)

@[simp] theorem State.setRail_damage (s : State) (r mv : Nat) : (s.setRail r mv).damage = s.damage := by
  simp [State.setRail]

@[simp] theorem State.toRung_damage (s : State) (r : Nat) : (s.toRung r).damage = s.damage := by
  simp [State.toRung]

@[simp] theorem State.settle_damage (s : State) : (s.settle).damage = s.damage := by
  simp [State.settle]

@[simp] theorem State.refreshRails_damage (s : State) : (s.refreshRails).damage = s.damage := by
  simp [State.refreshRails]

@[simp] theorem State.coldStart_damage (s : State) (p : Nat) : (s.coldStart p).damage = s.damage := by
  simp [State.coldStart]

@[simp] theorem State.railField_damage (s : State) (p f sl t' : Nat) (timed late : Bool) :
    (s.railField p f sl t' timed late).1.damage = s.damage := by
  simp only [State.railField]
  repeat' split
  all_goals simp [State.modPField_damage]

@[simp] theorem State.account_damage (s : State) (kind i parcel step : Nat) (counts : Tbl (BitVec 64)) (identity : List Byte) :
    (s.account kind i parcel step counts identity).damage = s.damage := by
  simp only [State.account]
  split
  · rfl
  · split
    next e => simpa using (State.ringPut_damage ..).ok e
    next => simp
    next e => simpa using (State.ringPut_damage ..).bad e

@[simp] theorem State.markExc_damage (s : State) (f code stream index detail : Nat) :
    (s.markExc f code stream index detail).damage = s.damage := by
  simp only [State.markExc]
  split <;> simp

@[simp] theorem State.stopFacet_damage (s : State) (f detail : Nat) : (s.stopFacet f detail).damage = s.damage := by
  simp [State.stopFacet]

theorem State.putOutput_damage (s : State) (p : Nat) (c : Cut) (step slot reason : Nat) (data : List Byte) :
    (s.putOutput p c step slot reason data).Leaves s.damage := by
  simp only [State.putOutput]
  split
  · rfl
  · split
    next s' _ e =>
      have h1 : s'.damage = s.damage := (State.ringPut_damage ..).ok e
      exact h1
    next => exact State.ringPut_damage ..

@[simp] theorem State.writeEnd_damage (s : State) (p : Nat) : (s.writeEnd p).damage = s.damage := by
  simp only [State.writeEnd]
  split
  · split
    · split
      next e => simpa using (State.putOutput_damage ..).ok e
      next => rfl
      next e => simpa using (State.putOutput_damage ..).bad e
    · rfl
  · rfl

@[simp] theorem State.answerHeld_damage (s : State) (p : Nat) (stop : Bool) :
    (s.answerHeld p stop).damage = s.damage := by
  simp [State.answerHeld]

@[simp] theorem State.endJob_damage (s : State) (p reason rank : Nat) (send : Bool) : (s.endJob p reason rank send).damage = s.damage := by
  simp only [State.endJob]
  split
  · rfl
  · split
    · simp
    · split <;> simp

@[simp] theorem State.facetExc_damage (s : State) (f code stream index detail : Nat) :
    (s.facetExc f code stream index detail).damage = s.damage := by
  simp only [State.facetExc]
  split <;> simp

@[simp] theorem State.railUpdate_damage (s : State) (p t : Nat) (fs : List Nat) (timed late : Bool) :
    (s.railUpdate p t fs timed late).1.damage = s.damage := by
  refine foldl_fst_damage (fun r f => ?_) _ _
  split
  · rfl
  · simp

@[simp] theorem State.noteCkpt_damage (s : State) (p st : Nat) : (s.noteCkpt p st).damage = s.damage := by
  simp [State.noteCkpt]

@[simp] theorem State.announceCkpt_damage (s : State) (p : Nat) (c : Cut) (target : Nat) :
    (s.announceCkpt p c target).1.damage = s.damage := by
  simp only [State.announceCkpt]
  repeat' split
  all_goals simp

@[simp] theorem State.everyTarget_damage (s : State) (p : Nat) (c : Cut) : (s.everyTarget p c).damage = s.damage := by
  simp only [State.everyTarget]
  split <;> simp

@[simp] theorem State.lag_damage (s : State) (p f act : Nat) : (s.lag p f act).damage = s.damage := (rfl)

@[simp] theorem State.closeBeat_damage (s : State) (p : Nat) : (s.closeBeat p).damage = s.damage := by
  unfold State.closeBeat
  extract_lets x r stop se fs resumed paused s0
  split
  · rfl
  · extract_lets clock t tardy
    have h0 : s0.damage = s.damage := by simp [s0]
    split
    next s1 acts e =>
      have h1 : s1.damage = s.damage := by simpa [damage_fst e] using h0
      extract_lets s2 s3 s4 s5 s6
      have h2 : s2.damage = s.damage := by
        simp only [s2]
        split
        · split <;> simp [h1]
        · exact h1
      have h6 : s6.damage = s.damage := by simp [s6, s5, s4, s3, h2]
      simp [h6]

@[simp] theorem State.enterPause_damage (s : State) (p : Nat) : (s.enterPause p).damage = s.damage := by
  simp [State.enterPause]

@[simp] theorem State.rootClose_damage (s : State) (p : Nat) (c : Cut) :
    (s.rootClose p c).damage = s.damage := by
  simp [State.rootClose]

@[simp] theorem State.applyPause_damage (s : State) (p : Nat) (c : Cut) (n cause : Nat) :
    (s.applyPause p c n cause).damage = s.damage := by
  simp [State.applyPause]

@[simp] theorem State.requestPause_damage (s : State) (p : Nat) (c : Cut) (cause : Nat) :
    (s.requestPause p c cause).damage = s.damage := by
  simp [State.requestPause]

@[simp] theorem State.pauseLost_damage (s : State) (p : Nat) (c : Cut) :
    (s.pauseLost p c).damage = s.damage := by
  simp [State.pauseLost]

/-! ## The links -/

@[simp] theorem State.deadNack_damage (s : State) (f rank tag : Nat) : (s.deadNack f rank tag).damage = s.damage := (rfl)

@[simp] theorem State.stopNow_damage (s : State) (p : Nat) :
    (s.stopNow p).damage = s.damage := by
  simp only [State.stopNow]
  split <;> simp

@[simp] theorem State.installRoutes_damage (s : State) (routes : Tbl (BitVec 64)) (id epoch : Nat) :
    (s.installRoutes routes id epoch).damage = s.damage := by
  simp only [State.installRoutes]
  refine (foldl_damage (fun _ _ => ?_) ..).trans (damage_ite_same ((foldl_damage (fun _ _ => ?_) ..).trans ?_) ?_)
  · split <;> simp
  · split <;> simp
  · simp
  · simp

@[simp] theorem State.fmUpdate_damage (s : State) (new : Option FmDevice) :
    (s.fmUpdate new).damage = s.damage := by
  simp [State.fmUpdate]

@[simp] theorem State.reElect_damage (s : State) :
    (s.reElect).damage = s.damage := by
  simp [State.reElect]

@[simp] theorem State.dropAdjs_damage (s : State) (link : Nat) :
    (s.dropAdjs link).damage = s.damage := by
  simp [State.dropAdjs]

@[simp] theorem State.loseLock_damage (s : State) : s.loseLock.damage = s.damage := by
  simp only [State.loseLock]
  refine damage_ite_same ((foldl_damage (fun _ _ => ?_) ..).trans ?_) ?_
  · split <;> simp
  · simp
  · simp

@[simp] theorem State.reMaster_damage (s : State) (was : Announce × Option Nat) :
    (s.reMaster was).damage = s.damage := by
  simp [State.reMaster]

@[simp] theorem State.dropAnnounce_damage (s : State) (link : Nat) :
    (s.dropAnnounce link).damage = s.damage := by
  simp [State.dropAnnounce]

@[simp] theorem State.cutTx_damage (s : State) (link : Nat) : (s.cutTx link).damage = s.damage := by
  simp [State.cutTx]

@[simp] theorem State.phyDown_damage (s : State) (link : Nat) :
    (s.phyDown link).damage = s.damage := by
  simp [State.phyDown]

/-! ## Queue pairs and the storage controllers -/

@[simp] theorem State.putQp_damage (s : State) (k : Nat) (q : Qp) : (s.putQp k q).damage = s.damage := (rfl)

@[simp] theorem State.modQp_damage (s : State) (k : Nat) (g : Qp → Qp) : (s.modQp k g).damage = s.damage := by
  unfold State.modQp
  split <;> simp

@[simp] theorem State.qpError_damage (s : State) (k : Nat) (blame : Option (Nat × Nat × Nat)) :
    (s.qpError k blame).damage = s.damage := by
  simp [State.qpError]

theorem State.postEngine_damage {s t : State} {k i op raddr rkey len n : Nat} {data : List Byte}
    (e : s.postEngine k i op raddr rkey len data = some (t, n)) : t.damage = s.damage := by
  simp only [State.postEngine] at e
  split at e
  · cases e
  · split at e
    · cases e
    · cases e
      simp

@[simp] theorem State.putCmd_damage (s : State) (id : Nat) (c : NvCmd) : (s.putCmd id c).damage = s.damage := (rfl)

@[simp] theorem State.dropCmd_damage (s : State) (id : Nat) : (s.dropCmd id).damage = s.damage := (rfl)

@[simp] theorem State.nvStat_damage (s : State) (n : Nat) : (s.nvStat n).damage = s.damage := (rfl)

@[simp] theorem State.putSq_damage (s : State) (i y : Nat) (q : NvSq) : (s.putSq i y q).damage = s.damage := (rfl)

@[simp] theorem State.putCq_damage (s : State) (i y : Nat) (q : NvCq) : (s.putCq i y q).damage = s.damage := (rfl)

@[simp] theorem State.ctrlWrite_damage (s : State) (i a : Nat) (bs : List Byte) : (s.ctrlWrite i a bs).1.damage = s.damage := by
  simp only [State.ctrlWrite]
  split
  · split <;> simp
  · split
    next e => simp [damage_fst e]
    next e => simp [damage_fst e]
    next e => simp [damage_fst e]

@[simp] theorem State.cqSignal_damage (s : State) (i y : Nat) : (s.cqSignal i y).damage = s.damage := by
  unfold State.cqSignal
  repeat' split
  all_goals simp

@[simp] theorem State.errorEntry_damage (s : State) (i y cid sct sc : Nat) : (s.errorEntry i y cid sct sc).damage = s.damage := (rfl)

@[simp] theorem State.writeCqe_damage (s : State) (i n : Nat) (q : NvCq) (e : List Byte) : (s.writeCqe i n q e).1.damage = s.damage := by
  simp only [State.writeCqe]
  split
  next e => simp [damage_fst e]
  next e => simp [damage_fst e]

@[simp] theorem State.loseCqe_damage (s : State) (i : Nat) : (s.loseCqe i).damage = s.damage := (rfl)

@[simp] theorem State.freezePair_damage (s : State) (i y cause : Nat) : (s.freezePair i y cause).damage = s.damage := by
  simp only [State.freezePair]
  repeat' split
  all_goals simp

@[simp] theorem State.putCqe_damage (s : State) (i y : Nat) (e : List Byte) : (s.putCqe i y e).damage = s.damage := by
  simp only [State.putCqe]
  split
  · rfl
  · split
    · simp
    · split
      · simp
      · split
        next e => simp [damage_fst e]
        next e => simp [damage_fst e]

@[simp] theorem State.nvDone_damage (s : State) (i y cid dw0 sct sc : Nat) :
    (s.nvDone i y cid dw0 sct sc).damage = s.damage := by
  simp [State.nvDone]

@[simp] theorem State.drivesPower_damage (s : State) : (s.drivesPower).damage = s.damage := by
  simp [State.drivesPower]

@[simp] theorem State.newId_damage (s : State) : (s.newId).2.damage = s.damage := (rfl)

@[simp] theorem State.driveCmd_damage (s : State) (p ns : Nat) (op : NvOp) (flag : Bool) (slba nlb : Nat) (data : List Byte)
    (id len : Nat) : (s.driveCmd p ns op flag slba nlb data id len).damage = s.damage := (rfl)

@[simp] theorem State.nvBack_damage (s : State) (id : Nat) (c : NvCmd) (x : Namespace) : (s.nvBack id c x).1.damage = s.damage := by
  simp only [State.nvBack]
  split
  · split <;> simp
  · split
    · split
      next er =>
        split at er
        · simp [State.postEngine_damage er]
        · simp [State.postEngine_damage er]
        · simp [State.postEngine_damage er]
        · cases er
      all_goals simp
    · simp

@[simp] theorem State.startFlushes_damage (s : State) : s.startFlushes.damage = s.damage := by
  simp only [State.startFlushes]
  refine foldl_damage (fun s e => ?_) ..
  split
  · split
    · simp
    · split
      next eb => simp [damage_fst eb]
      next eb => simp [damage_fst eb]
  · rfl

@[simp] theorem State.finishDeletes_damage (s : State) (i : Nat) : (s.finishDeletes i).damage = s.damage := by
  simp only [State.finishDeletes]
  refine foldl_damage (fun s e => ?_) ..
  split
  · split <;> simp
  · rfl

@[simp] theorem State.finishNvAborts_damage (s : State) (i : Nat) :
    (s.finishNvAborts i).damage = s.damage := by
  simp [State.finishNvAborts]

@[simp] theorem State.zeroNs_damage (s : State) (w : Waiter) (n : Nat) :
    (s.zeroNs w n).damage = s.damage := by
  unfold State.zeroNs
  split <;> simp

@[simp] theorem State.finishCloses_damage (s : State) :
    (s.finishCloses).damage = s.damage := by
  simp [State.finishCloses]

@[simp] theorem State.hostEnable_damage (s : State) (i : Nat) (cc : BitVec 32) : (s.hostEnable i cc).damage = s.damage := by
  simp [State.hostEnable]

@[simp] theorem State.ctrlOff_damage (s : State) (i : Nat) :
    (s.ctrlOff i).damage = s.damage := by
  simp only [State.ctrlOff]
  repeat' split
  all_goals simp

@[simp] theorem State.shutOn_damage (s : State) (i : Nat) :
    (s.shutOn i).damage = s.damage := by
  simp only [State.shutOn]
  repeat' split
  all_goals simp

@[simp] theorem State.nvAfter_damage (s : State) (i : Nat) : (s.nvAfter i).damage = s.damage := by
  unfold State.nvAfter
  extract_lets s1 s2 s3
  have h3 : s3.damage = s.damage := by simp [s3, s2, s1]
  split
  · simpa using h3
  · exact h3

@[simp] theorem State.nvCharge_damage (s : State) (c : NvCmd) (x : Namespace) : (s.nvCharge c x).damage = s.damage := by
  simp [State.nvCharge]

@[simp] theorem State.nvEnd_damage (s : State) (id : Nat) (c : NvCmd) (st : Nat × Nat) :
    (s.nvEnd id c st).damage = s.damage := by
  simp only [State.nvEnd]
  repeat' split
  all_goals simp

@[simp] theorem State.ctrlReset_damage (s : State) (i : Nat) : (s.ctrlReset i).damage = s.damage := by
  simp only [State.ctrlReset]
  split
  · rfl
  · split <;> simp

/-! ## A die and a function that ends -/

@[simp] theorem State.failStack_damage (s : State) (k : Nat) : (s.failStack k).damage = s.damage := by
  simp [State.failStack]

@[simp] theorem State.readFailEvent_damage (s : State) (fn reason : Nat) (r : MasterRead) :
    (s.readFailEvent fn reason r).damage = s.damage := by
  unfold State.readFailEvent
  split <;> simp

@[simp] theorem State.readFailed_damage (s : State) (fn reason : Nat) (r : MasterRead) :
    (s.readFailed fn reason r).damage = s.damage := by
  simp only [State.readFailed]
  repeat' split
  all_goals simp

@[simp] theorem State.failWaiting_damage (s : State) (fn reason : Nat) :
    (s.failWaiting fn reason).damage = s.damage := by
  simp [State.failWaiting]

@[simp] theorem State.fnReset_damage (s : State) (fn reason : Nat) : (s.fnReset fn reason).damage = s.damage := by
  unfold State.fnReset
  extract_lets s1 s2 rs till s3 s4 s5 s6
  have h4 : s4.damage = s.damage := by
    refine (foldl_damage (fun s r => ?_) ..).trans (by simp [s3, s2, s1])
    split <;> simp
  have h5 : s5.damage = s.damage := by
    simp only [s5]
    split
    · split <;> simp [h4]
    · exact h4
  simp [s6, h5]

@[simp] theorem State.vfReset_damage (s : State) (reason : Nat) :
    (s.vfReset reason).damage = s.damage := by
  simp [State.vfReset]

@[simp] theorem State.allReset_damage (s : State) (reason : Nat) :
    (s.allReset reason).damage = s.damage := by
  simp [State.allReset]

@[simp] theorem State.answerFlits_damage (s : State) (d : Nat) : (s.answerFlits d).damage = s.damage := by
  simp [State.answerFlits]

@[simp] theorem State.endPeers_damage (s : State) : s.endPeers.damage = s.damage := by
  simp only [State.endPeers]
  refine foldl_damage (fun s e => foldl_damage (fun s t => ?_) ..) ..
  split
  · split <;> simp
  · rfl

end Sys2Proof.Machine
end

section
/-! PROOF. A fault in an empty table, and the dies, stacks and links that fail with it (R21, R465, R466, R474). -/

namespace Sys2Proof.Machine

/-! ## The fault table -/

/-- The entry that the first fault of an empty table gets. -/
def freshFault (s : State) (code : Nat) (scope : Scope) (object : Nat) : FaultEntry :=
  { code, scope, status := .active, object, count := 1, firstSeq := none, lastSeq := 0, age := s.faults.ages }

/-- Into an empty table a fault is recorded as its only entry. -/
theorem State.recordFault_of_empty {s : State} (h : s.faults.table = []) (code : Nat) (scope : Scope) (object : Nat) :
    s.recordFault code scope object =
      { s.raise blkBZL 0xD009 none code object with
        faults := { s.faults with table := [(0, freshFault s code scope object)], ages := s.faults.ages + 1 } } := by
  have he : (s.raise blkBZL 0xD009 none code object).faults.table = [] := h
  simp only [State.recordFault, Faults.entry, he]
  rfl

/-- A table whose only entry is a fresh fault lists it. -/
theorem listsFault_of_table {t s : State} {code object : Nat} {scope : Scope}
    (h : t.faults.table = [(0, freshFault s code scope object)]) : listsFault t code scope object :=
  ⟨0, freshFault s code scope object, by rw [h]; rfl, rfl, rfl, rfl, rfl, rfl⟩

/-! ## What the damage says -/

theorem failedDies_of_damage {s t : State} (h : t.damage = s.damage) : t.faults.failedDies = s.faults.failedDies := congrArg (·.1.1) h
theorem table_of_damage {s t : State} (h : t.damage = s.damage) : t.faults.table = s.faults.table := congrArg (·.1.2) h
theorem linkState_of_damage {s t : State} (h : t.damage = s.damage) : t.pcie.link = s.pcie.link := congrArg (·.2.2.1) h
theorem link_of_damage {s t : State} (h : t.damage = s.damage) (l : Nat) : t.link l = s.link l :=
  congrArg (fun d => d.2.1.getD l EthLink.initial) h
theorem closed_of_damage {s t : State} (h : t.damage = s.damage) (f : Nat) : (t.pfield f).closed = (s.pfield f).closed :=
  congrFun (congrArg (·.2.2.2) h) f

/-! ## What a fold establishes -/

/-- What each step keeps and one step of the list establishes holds after the fold. -/
theorem foldl_establishes {α : Type} {P : State → Prop} {Q : α → Prop} {g : State → α → State}
    (hg : ∀ s x, Q x ∨ P s → P (g s x)) {l : List α} {s : State} (h : (∃ x ∈ l, Q x) ∨ P s) : P (l.foldl g s) := by
  induction l generalizing s with
  | nil => simpa using h
  | cons x t ih =>
    refine ih ?_
    rcases h with ⟨y, hy, q⟩ | h
    · rcases List.mem_cons.1 hy with rfl | ht
      · exact .inr (hg _ _ (.inl q))
      · exact .inl ⟨y, ht, q⟩
    · exact .inr (hg _ _ (.inr h))

/-! ## A stack that fails -/

/-- Answers to the flits of a die leave the stacks as they are. -/
theorem foldl_dieSend_hbm {α : Type} (d : Nat) (a : α → Flit) (l : List α) (s : State) :
    (l.foldl (fun s r => s.dieSend d (a r)) s).hbm = s.hbm := by
  induction l generalizing s with
  | nil => rfl
  | cons _ t ih => exact ih _

theorem State.failStack_hbm (s : State) (k : Nat) :
    (s.failStack k).hbm = (s.modStack k fun x => { x with state := .failed, reads := [], writes := [] }).hbm :=
  foldl_dieSend_hbm ..

theorem State.stack_of_hbm {s t : State} (h : t.hbm = s.hbm) (k : Nat) : t.stack k = s.stack k := by simp only [State.stack, h]

/-- A stack that fails has failed, and one that had failed stays so. -/
theorem State.failStack_failed {s : State} {k n : Nat} (h : k = n ∨ (s.stack n).state = .failed) :
    ((s.failStack k).stack n).state = .failed := by
  rw [State.stack_of_hbm (s.failStack_hbm k)]
  by_cases hk : n = k
  · subst hk
    simp
  · rw [State.stack_modStack_ne s _ hk]
    exact h.resolve_left fun e => hk e.symm

/-! ## A port that goes down -/

/-- One link of a port goes down. -/
def State.linkDown (s : State) (l : Nat) : State :=
  if (s.link l).state = .down then s else (s.modLink l fun x => { x with state := .down, consec := 0 }).phyDown l

theorem State.portDown_eq (s : State) (port : Nat) :
    s.portDown port = (List.range 4).foldl (fun s k => s.linkDown (4 * port + k)) s := rfl

/-- A change of a link's record leaves the failed dies and the fault table. -/
theorem State.modLink_marks (s : State) (l : Nat) (g : EthLink → EthLink) : (s.modLink l g).damage.1 = s.damage.1 := rfl

theorem State.linkDown_marks (s : State) (l : Nat) : (s.linkDown l).damage.1 = s.damage.1 := by
  unfold State.linkDown
  split
  · rfl
  · rw [State.phyDown_damage, State.modLink_marks]

/-- A link that goes down is down, and one that was down stays so. -/
theorem State.linkDown_down {s : State} {l n : Nat} (h : l = n ∨ (s.link n).state = .down) :
    ((s.linkDown l).link n).state = .down := by
  unfold State.linkDown
  split
  next hd =>
    rcases h with rfl | h
    · exact hd
    · exact h
  next =>
    rw [link_of_damage (State.phyDown_damage ..)]
    by_cases hn : n = l
    · subst hn
      simp [State.link, State.modLink]
    · rw [State.link, State.modLink, Tbl.getD_put_ne _ hn]
      exact h.resolve_left fun e => hn e.symm

/-- The four links of a port that goes down are down, and every link that was down stays so. -/
theorem State.portDown_down {s : State} {port n : Nat} (h : port = n / 4 ∨ (s.link n).state = .down) :
    ((s.portDown port).link n).state = .down := by
  rw [State.portDown_eq]
  refine foldl_establishes (P := fun t => (t.link n).state = .down) (Q := fun k => 4 * port + k = n)
    (fun s k => State.linkDown_down) (h.imp (fun hp => ⟨n % 4, List.mem_range.2 (Nat.mod_lt _ (by decide)), ?_⟩) id)
  omega

theorem foldl_marks {α : Type} {g : State → α → State} (hg : ∀ s x, (g s x).damage.1 = s.damage.1) (l : List α) (s : State) :
    (l.foldl g s).damage.1 = s.damage.1 := by
  induction l generalizing s with
  | nil => rfl
  | cons x t ih => rw [List.foldl_cons, ih, hg]

theorem State.portDown_marks (s : State) (port : Nat) : (s.portDown port).damage.1 = s.damage.1 :=
  foldl_marks (fun s _ => s.linkDown_marks _) ..

/-! ## A die that fails -/

/-- A die that is marked failed, with the flits on their way to it answered. -/
def State.markDie (s : State) (d : Nat) : State :=
  ({ s with faults := { s.faults with failedDies := s.faults.failedDies ++ [d] } } : State).answerFlits d

theorem State.markDie_marks (s : State) (d : Nat) : (s.markDie d).damage.1 = (s.faults.failedDies ++ [d], s.faults.table) :=
  congrArg (·.1) (State.answerFlits_damage { s with faults := { s.faults with failedDies := s.faults.failedDies ++ [d] } } d)

/-- What a memory-girdle die takes with it: its stacks and its gather engine's work. -/
def State.loseMemDie (s : State) (d : Nat) : State :=
  ((List.range 4).foldl (fun s j => s.failStack (4 * d + j)) s).modGatherDie d fun g => { g with jobs := [], cache := [] }

/-- What network-girdle die `k` takes with it: the transfers that leave by it, its links, and its queue pairs. -/
def State.loseNetDie (s : State) (k : Nat) : State :=
  let s := (List.range 4).foldl (fun s p => s.portDown (4 * k + p)) s.endPeers
  (s.rma.qps.filter fun e => e.2.home = k && e.2.state ≠ .reset).foldl (fun s e => s.qpError e.1 (some (0, 5, 0))) s

theorem State.failDie_eq {s : State} {d : Nat} (hf : s.dieFailed d = false) (hd : d < 12) :
    s.failDie d = if d < 8 then (s.markDie d).loseMemDie d else (s.markDie d).loseNetDie (d - 8) := by
  have h12 : ¬12 ≤ d := by omega
  unfold State.failDie State.markDie State.loseMemDie State.loseNetDie
  rw [if_neg (by simp [hf, h12])]

theorem State.modGatherDie_damage (s : State) (k : Nat) (g : GatherDie → GatherDie) : (s.modGatherDie k g).damage = s.damage := (rfl)

theorem State.stack_modGatherDie (s : State) (k n : Nat) (g : GatherDie → GatherDie) : (s.modGatherDie k g).stack n = s.stack n := rfl

theorem State.loseMemDie_damage (s : State) (d : Nat) : (s.loseMemDie d).damage = s.damage :=
  (State.modGatherDie_damage ..).trans (foldl_damage (fun s _ => s.failStack_damage _) ..)

theorem State.loseMemDie_failed {s : State} {d j : Nat} (hj : j < 4) : ((s.loseMemDie d).stack (4 * d + j)).state = .failed := by
  rw [State.loseMemDie, State.stack_modGatherDie]
  exact foldl_establishes (P := fun t => (t.stack (4 * d + j)).state = .failed) (Q := fun i => 4 * d + i = 4 * d + j)
    (fun s i => State.failStack_failed) (.inl ⟨j, List.mem_range.2 hj, rfl⟩)

theorem State.loseNetDie_marks (s : State) (k : Nat) : (s.loseNetDie k).damage.1 = s.damage.1 := by
  have hq : (s.loseNetDie k).damage = ((List.range 4).foldl (fun s p => s.portDown (4 * k + p)) s.endPeers).damage :=
    foldl_damage (fun s e => s.qpError_damage ..) ..
  rw [hq, foldl_marks fun s _ => s.portDown_marks _, State.endPeers_damage]

theorem State.loseNetDie_down {s : State} {k l : Nat} (hl : dieOfLink l = k) : ((s.loseNetDie k).link l).state = .down := by
  have hq : (s.loseNetDie k).damage = ((List.range 4).foldl (fun s p => s.portDown (4 * k + p)) s.endPeers).damage :=
    foldl_damage (fun s e => s.qpError_damage ..) ..
  rw [link_of_damage hq]
  refine foldl_establishes (P := fun t => (t.link l).state = .down) (Q := fun p => 4 * k + p = l / 4)
    (fun s p => State.portDown_down) (.inl ⟨l / 4 % 4, List.mem_range.2 (Nat.mod_lt _ (by decide)), ?_⟩)
  simp only [dieOfLink] at hl
  omega

theorem State.failDie_marks {s : State} {d : Nat} (hf : s.dieFailed d = false) (hd : d < 12) :
    (s.failDie d).damage.1 = (s.faults.failedDies ++ [d], s.faults.table) := by
  rw [State.failDie_eq hf hd, ← s.markDie_marks d]
  split
  · rw [State.loseMemDie_damage]
  · rw [State.loseNetDie_marks]

/-! ## The clauses of a die -/

/-- What the model says of a die that stops at Die scope. -/
def DieDown (code d : Nat) (t : State) : Prop :=
  t.dieFailed d = true ∧ listsFault t code .die d ∧ (d < 8 → ∀ j, j < 4 → (t.stack (4 * d + j)).state = .failed) ∧
  (8 ≤ d → ∀ l, l < 64 → dieOfLink l = d - 8 → (t.link l).state = .down)

theorem State.stopDie_dieDown {s : State} {code d : Nat} (hb : s.boot.phase ≠ .reset) (ht : s.faults.table = []) (hd : d < 12)
    (hf : s.dieFailed d = false) : DieDown code d (s.stopDie code d) := by
  have hm := State.failDie_marks hf hd
  have hfail : (s.failDie d).faults.failedDies = s.faults.failedDies ++ [d] := congrArg (·.1) hm
  have htab : (s.failDie d).faults.table = [] := (congrArg (·.2) hm).trans ht
  have e : s.stopDie code d = (s.failDie d).recordFault code .die d := by
    have h1 : ¬12 < d := by omega
    have h2 : d ≠ 12 := by omega
    simp [State.stopDie, State.awake, hb, hf, h1, h2, State.faultDie]
  rw [e, State.recordFault_of_empty htab]
  refine ⟨?_, listsFault_of_table rfl, fun h8 j hj => ?_, fun h8 l hl hdl => ?_⟩
  · simp [State.dieFailed, hfail]
  · have hs : (s.failDie d).stack (4 * d + j) = ((s.markDie d).loseMemDie d).stack (4 * d + j) := by
      rw [State.failDie_eq hf hd, if_pos h8]
    exact (congrArg Stack.state hs).trans (State.loseMemDie_failed hj)
  · have hs : (s.failDie d).link l = ((s.markDie d).loseNetDie (d - 8)).link l := by
      rw [State.failDie_eq hf hd, if_neg (by omega)]
    exact (congrArg EthLink.state hs).trans (State.loseNetDie_down hdl)

end Sys2Proof.Machine
end

section
/-! PROOF. The issue gates, and a fault at Device scope (R432, R466, R467). -/

namespace Sys2Proof.Machine

/-! ## Steps of power and records only -/

/-- From `s` on only the power unit, the event records and the outputs changed. -/
def PowerOnly (s t : State) : Prop := ∃ l e w, t = { s with loupe := l, emitted := e, power := w }

theorem PowerOnly.refl (s : State) : PowerOnly s s := ⟨_, _, _, rfl⟩

theorem PowerOnly.trans {s t u : State} : PowerOnly s t → PowerOnly t u → PowerOnly s u := by
  rintro ⟨l, e, w, rfl⟩ ⟨l', e', w', rfl⟩
  exact ⟨l', e', w', rfl⟩

theorem PowerOnly.ite {c : Prop} {_ : Decidable c} {s t u : State} (ht : PowerOnly s t) (hu : PowerOnly s u) :
    PowerOnly s (if c then t else u) := by split <;> assumption

theorem PowerOnly.foldl {α : Type} {g : State → α → State} (hg : ∀ s x, PowerOnly s (g s x)) (l : List α) (s : State) :
    PowerOnly s (l.foldl g s) := by
  induction l generalizing s with
  | nil => exact .refl s
  | cons x t ih => exact (hg s x).trans (ih _)

theorem State.raise_powerOnly (s : State) (blk code : Nat) (inst : Option Nat) (p0 p1 : Nat) (extra : List Byte) :
    PowerOnly s (s.raise blk code inst p0 p1 extra) := ⟨_, _, _, rfl⟩

theorem State.modPField_powerOnly (s : State) (f : Nat) (g : PField → PField) : PowerOnly s (s.modPField f g) := ⟨_, _, _, rfl⟩

theorem State.setRail_powerOnly (s : State) (r mv : Nat) : PowerOnly s (s.setRail r mv) := .ite (.refl s) ⟨_, _, _, rfl⟩

theorem State.toRung_powerOnly (s : State) (r : Nat) : PowerOnly s (s.toRung r) := .ite (.refl s) ⟨_, _, _, rfl⟩

theorem State.settle_powerOnly (s : State) : PowerOnly s s.settle :=
  .ite (s.toRung_powerOnly 1) (.ite (s.toRung_powerOnly 0) (.refl s))

theorem State.refreshRails_powerOnly (s : State) : PowerOnly s s.refreshRails :=
  s.settle_powerOnly.trans (.ite (.foldl (fun s f => s.setRail_powerOnly f _) _ _) (.refl _))

theorem State.closeGate_powerOnly (s : State) (f : Nat) : PowerOnly s (s.closeGate f) := .ite (.refl s) (s.modPField_powerOnly ..)

theorem State.closeGates_powerOnly (s : State) : PowerOnly s s.closeGates := .foldl State.closeGate_powerOnly ..

section
variable {s t : State} (h : PowerOnly s t)
include h

theorem PowerOnly.faults : t.faults = s.faults := by obtain ⟨_, _, _, rfl⟩ := h; rfl
theorem PowerOnly.cipher : t.cipher = s.cipher := by obtain ⟨_, _, _, rfl⟩ := h; rfl
theorem PowerOnly.parcels : t.parcels = s.parcels := by obtain ⟨_, _, _, rfl⟩ := h; rfl
theorem PowerOnly.pins : t.pins = s.pins := by obtain ⟨_, _, _, rfl⟩ := h; rfl
theorem PowerOnly.facets : t.facets = s.facets := by obtain ⟨_, _, _, rfl⟩ := h; rfl
theorem PowerOnly.chans : t.chans = s.chans := by obtain ⟨_, _, _, rfl⟩ := h; rfl
theorem PowerOnly.boot : t.boot = s.boot := by obtain ⟨_, _, _, rfl⟩ := h; rfl
theorem PowerOnly.sameMem : SameMem s t := by obtain ⟨_, _, _, rfl⟩ := h; exact fun _ => rfl

end

/-! ## Gates -/

/-- A gate that closes is closed, and one that was closed stays so. -/
theorem State.closeGate_closed {s : State} {f n : Nat} (h : f = n ∨ (s.pfield n).closed = true) :
    ((s.closeGate f).pfield n).closed = true := by
  unfold State.closeGate
  split
  next hc =>
    rcases h with rfl | h
    · exact hc
    · exact h
  next =>
    by_cases hn : n = f
    · subst hn
      rw [State.pfield_modPField]
    · rw [State.pfield_modPField_ne s _ hn]
      exact h.resolve_left fun e => hn e.symm

theorem State.closeGates_closed {s : State} {f : Nat} (hf : f < 6) : ((s.closeGates).pfield f).closed = true :=
  foldl_establishes (P := fun t => (t.pfield f).closed = true) (Q := fun n => n = f)
    (fun _ _ => State.closeGate_closed) (.inl ⟨f, List.mem_range.2 hf, rfl⟩)

/-- A gate that opens is open, and one that was open stays so. -/
theorem State.openGate_open {s : State} {f n : Nat} (h : f = n ∨ (s.pfield n).closed = false) :
    ((s.openGate f).pfield n).closed = false := by
  unfold State.openGate
  split
  next =>
    show ((s.modPField f fun x => { x with closed := false }).pfield n).closed = false
    by_cases hn : n = f
    · subst hn
      rw [State.pfield_modPField]
    · rw [State.pfield_modPField_ne s _ hn]
      exact h.resolve_left fun e => hn e.symm
  next hc =>
    rcases h with rfl | h
    · exact Bool.eq_false_iff.2 hc
    · exact h

theorem State.openGates_open {s : State} (hg : s.gateHeld = false) (hr : s.power.reopenAt = none) {f : Nat} (hf : f < 6) :
    ((s.openGates).pfield f).closed = false := by
  rw [State.openGates, if_neg (by simp [hg, hr])]
  exact foldl_establishes (P := fun t => (t.pfield f).closed = false) (Q := fun n => n = f)
    (fun _ _ => State.openGate_open) (.inl ⟨f, List.mem_range.2 hf, rfl⟩)

/-- From `s` on only the facets and the power unit's fields changed. -/
def GatesOnly (s t : State) : Prop := ∃ x w, t = { s with facets := x, power := { s.power with fields := w } }

theorem State.openGate_gatesOnly (s : State) (f : Nat) : GatesOnly s (s.openGate f) := by
  unfold State.openGate
  split
  · exact ⟨_, _, rfl⟩
  · exact ⟨_, _, rfl⟩

theorem State.openGates_gatesOnly (s : State) : GatesOnly s s.openGates := by
  unfold State.openGates
  split
  · exact ⟨_, _, rfl⟩
  · refine List.foldlRecOn _ _ ⟨_, _, rfl⟩ fun t ht f _ => ?_
    obtain ⟨x, w, rfl⟩ := ht
    obtain ⟨x', w', e⟩ := State.openGate_gatesOnly { s with facets := x, power := { s.power with fields := w } } f
    exact ⟨x', w', e⟩

/-! ## A fault at Device scope -/

/-- The state in which a Device-scope fault is recorded and the gates are closed, before the running jobs end. -/
def State.deviceFaulted (s : State) (code object : Nat) : State := (s.recordFault code .device object).closeGates

theorem State.raiseDevice_eq (s : State) (code object : Nat) :
    s.raiseDevice code object = (s.deviceFaulted code object).parcels.foldl (fun s e => s.stopNow e.1) (s.deviceFaulted code object) := by
  unfold State.raiseDevice State.deviceFaulted
  rfl

theorem State.raiseDevice_damage (s : State) (code object : Nat) :
    (s.raiseDevice code object).damage = (s.deviceFaulted code object).damage := by
  rw [State.raiseDevice_eq, foldl_damage fun s (e : Nat × Parcel) => s.stopNow_damage e.1]

theorem State.deviceFaulted_table {s : State} (h : s.faults.table = []) (code object : Nat) :
    (s.deviceFaulted code object).faults.table = [(0, freshFault s code .device object)] := by
  rw [State.deviceFaulted, (State.closeGates_powerOnly _).faults, State.recordFault_of_empty h]

theorem Tbl.mem_of_find {α : Type} {t : Tbl α} {n : Nat} {x : α} (h : Tbl.find t n = some x) : (n, x) ∈ t := by
  induction t with
  | nil => cases h
  | cons e t ih =>
    obtain ⟨k, v⟩ := e
    simp only [Tbl.find] at h
    split at h
    next hk =>
      cases h
      exact hk ▸ List.mem_cons_self
    next => exact List.mem_cons_of_mem _ (ih h)

/-- A Device-scope fault in the table holds the gates. -/
theorem State.gateHeld_of_device {t : State} {code object : Nat} (h : listsFault t code .device object) : t.gateHeld = true := by
  obtain ⟨k, e, hk, -, -, ha, hs, -⟩ := h
  simp only [State.gateHeld, Bool.or_eq_true, List.any_eq_true]
  exact .inr ⟨_, Tbl.mem_of_find hk, by simp [ha, hs]⟩

/-- What a Device-scope fault leaves that the first records: its entry, the gates held and closed. -/
theorem State.raiseDevice_holds {s : State} (h : s.faults.table = []) (code object : Nat) :
    listsFault (s.raiseDevice code object) code .device object ∧ (s.raiseDevice code object).gateHeld = true ∧
    ∀ f, f < 6 → ((s.raiseDevice code object).pfield f).closed = true := by
  have hd := s.raiseDevice_damage code object
  have hl : listsFault (s.raiseDevice code object) code .device object :=
    listsFault_of_table ((table_of_damage hd).trans (State.deviceFaulted_table h code object))
  exact ⟨hl, State.gateHeld_of_device hl, fun f hf => (closed_of_damage hd f).trans (State.closeGates_closed hf)⟩

theorem State.raiseDevice_failedDies {s : State} (h : s.faults.table = []) (code object : Nat) :
    (s.raiseDevice code object).faults.failedDies = s.faults.failedDies := by
  rw [failedDies_of_damage (s.raiseDevice_damage code object), State.deviceFaulted, (State.closeGates_powerOnly _).faults,
    State.recordFault_of_empty h]

/-- Without a parcel no job runs that a Device-scope fault could end. -/
theorem State.raiseDevice_of_noParcels {s : State} (ht : s.faults.table = []) (hp : s.parcels = []) (code object : Nat) :
    s.raiseDevice code object = s.deviceFaulted code object := by
  have h : (s.deviceFaulted code object).parcels = [] := by
    rw [State.deviceFaulted, (State.closeGates_powerOnly _).parcels, State.recordFault_of_empty ht]
    exact hp
  rw [State.raiseDevice_eq, h, List.foldl_nil]

end Sys2Proof.Machine
end

section
/-! PROOF. Alarms (R422, R471): what the exit from Idle or Doze, the erasure of the keys and the record of the alarm leave. -/

namespace Sys2Proof.Machine

/-! ## What an exit from Idle or Doze leaves -/

/-- What containment reads of a state when an alarm's condition is met: the faults, the cipher unit, the parcels and the pins. -/
def State.guarded (s : State) : Faults × Cipher × Tbl Parcel × Pins := (s.faults, s.cipher, s.parcels, s.pins)

theorem PowerOnly.guarded {s t : State} (h : PowerOnly s t) : t.guarded = s.guarded := by obtain ⟨_, _, _, rfl⟩ := h; rfl

theorem GatesOnly.guarded {s t : State} (h : GatesOnly s t) : t.guarded = s.guarded := by obtain ⟨_, _, rfl⟩ := h; rfl
theorem GatesOnly.rung {s t : State} (h : GatesOnly s t) : t.power.rung = s.power.rung := by obtain ⟨_, _, rfl⟩ := h; rfl

theorem foldl_guarded {α : Type} {g : State → α → State} (hg : ∀ s x, (g s x).guarded = s.guarded) (l : List α) (s : State) :
    (l.foldl g s).guarded = s.guarded := by
  induction l generalizing s with
  | nil => rfl
  | cons x t ih => rw [List.foldl_cons, ih, hg]

theorem State.modFacet_guarded (s : State) (f : Nat) (g : Facet → Facet) : (s.modFacet f g).guarded = s.guarded := (rfl)
theorem State.modStack_guarded (s : State) (k : Nat) (g : Stack → Stack) : (s.modStack k g).guarded = s.guarded := (rfl)
theorem State.dropRows_guarded (s : State) (a n : Nat) : (s.dropRows a n).guarded = s.guarded := (rfl)
theorem State.stacksTo_guarded (s : State) (x y : StackState) : (s.stacksTo x y).guarded = s.guarded := (rfl)

theorem State.markWritten_guarded (s : State) (a n : Nat) : (s.markWritten a n).guarded = s.guarded := by
  unfold State.markWritten
  refine foldl_guarded (fun s _ => ?_) ..
  dsimp only
  split <;> rfl

theorem State.storeRaw_guarded (s : State) (a : Nat) (bs : List Byte) : (s.storeRaw a bs).1.guarded = s.guarded := by
  simp only [State.storeRaw]
  split
  · rfl
  · split
    · exact (State.dropRows_guarded ..).trans (State.markWritten_guarded s a bs.length)
    · rfl

theorem State.issueWrite_guarded (s : State) (k : Nat) : (s.issueWrite k).guarded = s.guarded := by
  simp only [State.issueWrite]
  split
  · rfl
  · split
    · exact (State.modStack_guarded ..).trans ((State.storeRaw_guarded ..).trans (State.modStack_guarded ..))
    · exact State.modStack_guarded ..

theorem State.drainStack_guarded (s : State) (k n : Nat) : (s.drainStack k n).guarded = s.guarded := by
  induction n generalizing s with
  | zero => rfl
  | succ n ih => exact (ih _).trans (s.issueWrite_guarded k)

theorem State.drainHbm_guarded (s : State) : s.drainHbm.guarded = s.guarded := foldl_guarded (fun s _ => s.drainStack_guarded ..) ..

theorem State.zeroRange_guarded (s : State) (a n : Nat) : (s.zeroRange a n).guarded = s.guarded := by
  simp only [State.zeroRange]
  split
  · exact (State.dropRows_guarded ..).trans s.drainHbm_guarded
  · rfl

theorem State.setBank_guarded (s : State) (f b : Nat) (x : BankState) : (s.setBank f b x).guarded = s.guarded := by
  simp only [State.setBank]
  split
  · exact (State.zeroRange_guarded ..).trans (State.modFacet_guarded ..)
  · rfl

theorem State.banksTo_guarded (s : State) (want : Nat → Facet → Nat → BankState) : (s.banksTo want).guarded = s.guarded := by
  refine foldl_guarded (fun s f => foldl_guarded (fun s b => ?_) ..) ..
  dsimp only
  split
  · rfl
  · exact State.setBank_guarded ..

/-- Without an alarm of Sleep or Dormant there is none to record at the exit. -/
theorem State.lateAlarms_of_none {s : State} (h : s.faults.late = []) : s.lateAlarms = s := by
  obtain ⟨now, mem, emitted, loupe, faults, facets, mesh, hbm, gather, parcels, rings, insts, acct, chans, fabric, eth, traffic,
    rma, storage, pcie, cipher, power, boot, pins, free, pending⟩ := s
  obtain ⟨table, ages, alarms, bezelTimes, timeouts, failedDies, inject, bezelRestart, late⟩ := faults
  cases (show late = [] from h)
  rfl

theorem State.toRung_rung (s : State) (r : Nat) : (s.toRung r).power.rung = r := by
  unfold State.toRung
  split
  next h => exact h
  next => rfl

theorem State.setRail_rung (s : State) (r mv : Nat) : (s.setRail r mv).power.rung = s.power.rung := by
  unfold State.setRail
  split <;> rfl

theorem foldl_setRail_rung {s : State} {g : State → Nat → Nat} (l : List Nat) :
    (l.foldl (fun s f => s.setRail f (g s f)) s).power.rung = s.power.rung := by
  induction l generalizing s with
  | nil => rfl
  | cons x t ih => exact ih.trans (State.setRail_rung ..)

/-- Between Active and Idle the rails are set and the rung settles, and no deeper. -/
theorem State.refreshRails_rung {s : State} (h : s.power.rung ≤ 1) : s.refreshRails.power.rung ≤ 1 := by
  have hs : s.settle.power.rung ≤ 1 := by
    unfold State.settle
    split
    · exact (State.toRung_rung s 1).le
    · split
      · exact (State.toRung_rung s 0).le.trans (Nat.zero_le 1)
      · exact h
  unfold State.refreshRails
  dsimp only
  split
  · rw [foldl_setRail_rung]
    exact hs
  · exact hs

/-- The end of every exit: the device is at Active or Idle, and the rest stands. -/
def State.atRun (s : State) : State := (s.toRung 0).timeMark.lateAlarms.openGates.refreshRails

theorem State.atRun_guarded {s : State} (h : s.faults.late = []) : s.atRun.guarded = s.guarded ∧ s.atRun.power.rung ≤ 1 := by
  have ht : PowerOnly s (s.toRung 0).timeMark := (s.toRung_powerOnly 0).trans (State.raise_powerOnly ..)
  have hl : (s.toRung 0).timeMark.lateAlarms = (s.toRung 0).timeMark := State.lateAlarms_of_none (ht.faults ▸ h)
  have hg := (s.toRung 0).timeMark.openGates_gatesOnly
  have hr : (s.toRung 0).timeMark.openGates.power.rung = 0 := hg.rung.trans (State.toRung_rung s 0)
  unfold State.atRun
  rw [hl]
  exact ⟨(State.refreshRails_powerOnly _).guarded.trans (hg.guarded.trans ht.guarded),
    State.refreshRails_rung (hr.le.trans (Nat.zero_le 1))⟩

theorem State.exitRung_guarded {s : State} (hr : s.power.rung < 3) (h : s.faults.late = []) :
    s.exitRung.guarded = s.guarded ∧ s.exitRung.power.rung ≤ 1 := by
  have h3 : ¬3 ≤ s.power.rung := by omega
  have done {t : State} (ht : t.guarded = s.guarded) : t.atRun.guarded = s.guarded ∧ t.atRun.power.rung ≤ 1 := by
    have hf : t.faults = s.faults := congrArg (·.1) ht
    have hd := State.atRun_guarded (s := t) (hf ▸ h)
    exact ⟨hd.1.trans ht, hd.2⟩
  unfold State.exitRung
  extract_lets r power s0 s1 pins s2 s3 s4 s5 s6 s7
  refine done ?_
  simp only [s7]
  split
  · refine (State.banksTo_guarded ..).trans ((foldl_guarded (fun s f => ?_) ..).trans (State.stacksTo_guarded ..))
    exact (State.setRail_powerOnly ..).guarded
  · rfl

/-- The device wakes from Idle or Doze, or gives up the entry it had begun. -/
theorem State.wake_guarded {s : State} (hr : s.power.rung < 3) (h : s.faults.late = []) :
    s.wake.guarded = s.guarded ∧ s.wake.power.rung < 3 := by
  have done (n : Nat) : (s.reach n).exitRung.guarded = s.guarded ∧ (s.reach n).exitRung.power.rung < 3 := by
    have hd := State.exitRung_guarded (s := s.reach n) hr h
    exact ⟨hd.1, hd.2.trans_lt (by decide)⟩
  unfold State.wake
  dsimp only
  split
  · exact done _
  · split
    · exact ⟨rfl, hr⟩
    · exact done _

/-! ## An alarm -/

/-- No alarm, no fault and no job: what the first alarm of a block finds, with no chain of ciphered pieces under way. -/
structure FirstAlarm (s : State) : Prop where
  table : s.faults.table = []
  alarms : s.faults.alarms = []
  late : s.faults.late = []
  chains : ∀ e ∈ s.cipher.ctxs, e.2.chain = none
  parcels : s.parcels = []

theorem FirstAlarm.of_guarded {s t : State} (h : FirstAlarm s) (e : t.guarded = s.guarded) : FirstAlarm t := by
  have hf : t.faults = s.faults := congrArg (·.1) e
  have hc : t.cipher = s.cipher := congrArg (·.2.1) e
  have hp : t.parcels = s.parcels := congrArg (·.2.2.1) e
  exact ⟨hf ▸ h.table, hf ▸ h.alarms, hf ▸ h.late, hc ▸ h.chains, hp ▸ h.parcels⟩

/-- The keys of `c` are erased in `d`: every context's and the wrapping keys, counted once more. -/
def KeysErased (c d : Cipher) : Prop :=
  d.alarm = true ∧ d.keys = false ∧ d.erasures = min 0xFFFFFFFF (c.erasures + 1) ∧ d.counters = c.counters ∧
  ∀ e ∈ d.ctxs, e.2.key = none

/-- A cipher unit whose keys are erased. -/
def Cipher.erased (c : Cipher) : Cipher :=
  { c with
    ctxs := c.ctxs.map fun (k, x) => (k, { x with key := none, keyid := 0, pend := none, chain := none })
    keys := false, alarm := true, erasures := min 0xFFFFFFFF (c.erasures + 1) }

theorem Cipher.erased_keysErased (c : Cipher) : KeysErased c c.erased := by
  refine ⟨rfl, rfl, rfl, rfl, fun e he => ?_⟩
  obtain ⟨x, -, rfl⟩ := List.mem_map.1 he
  rfl

theorem foldl_fixed_of_mem {α β : Type} {g : β → α → β} {s : β} {l : List α} (h : ∀ x ∈ l, g s x = s) : l.foldl g s = s := by
  induction l with
  | nil => rfl
  | cons x t ih =>
    rw [List.foldl_cons, h x List.mem_cons_self]
    exact ih fun y hy => h y (List.mem_cons_of_mem x hy)

/-- With no chain under way the erasure of the keys touches the cipher unit and the drives' commands only. -/
theorem State.eraseKeys_of_noChains {s : State} (h : ∀ e ∈ s.cipher.ctxs, e.2.chain = none) :
    ∃ st, s.eraseKeys = { s with cipher := s.cipher.erased, storage := st } := by
  have hz : s.cipher.ctxs.foldl (fun s e => match e.2.chain with | some ch => s.zeroOutput e.2.owner ch ch.bytes | none => s) s = s :=
    foldl_fixed_of_mem fun e he => by simp only [h e he]
  unfold State.eraseKeys
  extract_lets s1
  have h1 : s1 = s := hz
  clear_value s1
  subst h1
  exact ⟨_, rfl⟩

/-- What an alarm leaves in a block that runs: the keys erased, its fault at Device scope, the gates closed and held. -/
structure AlarmRaised (s t : State) (src sensor : Nat) : Prop where
  erased : KeysErased s.cipher t.cipher
  closed : ∀ f, f < 6 → (t.pfield f).closed = true
  held : t.gateHeld = true
  still : s.power.rung = 0 → s.power.entering = none → SameMem s t ∧ t.facets = s.facets ∧ t.chans = s.chans
  listed : listsFault t (alarmCode src) .device sensor
  alarms : t.faults.alarms = [src]
  pins : t.pins = s.pins

/-- The state in which an alarm's keys are erased and its source is listed, from the state `w` that the device woke to. -/
def State.alarmed (w : State) (src : Nat) : State :=
  { w.eraseKeys with faults := { w.eraseKeys.faults with
      alarms := if w.eraseKeys.faults.alarms.contains src then w.eraseKeys.faults.alarms else w.eraseKeys.faults.alarms ++ [src] } }

/-- The state that an alarm's condition wakes the device to. -/
def State.alarmWake (s : State) : State :=
  if s.power.rung = 1 ∨ s.power.rung = 2 ∨ s.power.entering.isSome then s.wake else s

/-- A state in which an alarm waits for the exit to Run. -/
def State.withLate (s : State) (src sensor : Nat) : State := { s with faults := { s.faults with late := s.faults.late ++ [(src, sensor)] } }

theorem State.alarm_eq {s : State} (h : s.faults.alarms = []) (src sensor : Nat) :
    s.alarm src sensor =
      if 3 ≤ (s.alarmWake.alarmed src).power.rung then (s.alarmWake.alarmed src).withLate src sensor
      else (s.alarmWake.alarmed src).recordAlarm src sensor := by
  unfold State.alarm
  rw [if_neg (by simp [State.alarmOn, h])]
  rfl

/-- What erasing the keys and listing the source leaves of a state that awaits its first alarm. -/
theorem State.alarmed_eq {w : State} (h : FirstAlarm w) (src : Nat) :
    ∃ st, w.alarmed src = { w with cipher := w.cipher.erased, storage := st, faults := { w.faults with alarms := [src] } } := by
  obtain ⟨st, e⟩ := State.eraseKeys_of_noChains h.chains
  refine ⟨st, ?_⟩
  unfold State.alarmed
  rw [e]
  simp [h.alarms]

theorem State.alarmWake_guarded {s : State} (hr : s.power.rung < 3) (h : s.faults.late = []) :
    s.alarmWake.guarded = s.guarded ∧ s.alarmWake.power.rung < 3 := by
  unfold State.alarmWake
  split
  · exact State.wake_guarded hr h
  · exact ⟨rfl, hr⟩

theorem State.alarmWake_of_run {s : State} (h0 : s.power.rung = 0) (he : s.power.entering = none) : s.alarmWake = s :=
  if_neg (by simp [h0, he])

/-- At Run, Idle and Doze an alarm is recorded as its condition is met. -/
theorem State.alarm_raised {s : State} (h : FirstAlarm s) (hr : s.power.rung < 3) (src sensor : Nat) :
    AlarmRaised s (s.alarm src sensor) src sensor := by
  have hw := State.alarmWake_guarded hr h.late
  have hs := State.alarmWake_of_run (s := s)
  rw [State.alarm_eq h.alarms]
  generalize s.alarmWake = w at hw hs ⊢
  have hc : w.cipher = s.cipher := congrArg (·.2.1) hw.1
  have hp : w.pins = s.pins := congrArg (·.2.2.2) hw.1
  have hf := h.of_guarded hw.1
  obtain ⟨st, e⟩ := State.alarmed_eq hf src
  rw [e, if_neg (by simpa using hw.2), State.recordAlarm]
  set v : State := State.raise { w with cipher := w.cipher.erased, storage := st, faults := { w.faults with alarms := [src] } }
    blkBZL 0xB103 none src sensor with hv
  have ht : v.faults.table = [] := hf.table
  have hd := State.raiseDevice_holds ht (alarmCode src) sensor
  have hq : v.raiseDevice (alarmCode src) sensor = v.deviceFaulted (alarmCode src) sensor :=
    State.raiseDevice_of_noParcels ht hf.parcels ..
  have hg : PowerOnly (v.recordFault (alarmCode src) .device sensor) (v.raiseDevice (alarmCode src) sensor) :=
    hq ▸ State.closeGates_powerOnly _
  have hrec := State.recordFault_of_empty ht (alarmCode src) .device sensor
  refine ⟨?_, hd.2.2, hd.2.1, fun h0 he => ?_, hd.1, ?_, ?_⟩
  · rw [hg.cipher, hrec, ← hc]
    exact w.cipher.erased_keysErased
  · obtain rfl := hs h0 he
    rw [hg.facets, hg.chans, hrec]
    exact ⟨fun a => (hg.sameMem a).trans (by rw [hrec]; rfl), rfl, rfl⟩
  · rw [hg.faults, hrec]
    rfl
  · rw [hg.pins, hrec, ← hp]
    rfl

/-- At Sleep and Dormant the keys are erased at once, and the alarm waits for the exit to Run. -/
theorem State.alarm_late {s : State} (h : FirstAlarm s) (hr : 3 ≤ s.power.rung) (he : s.power.entering = none) (src sensor : Nat) :
    KeysErased s.cipher (s.alarm src sensor).cipher ∧ (s.alarm src sensor).faults.table = [] ∧
    (s.alarm src sensor).faults.alarms = [src] ∧ (s.alarm src sensor).faults.late = [(src, sensor)] ∧
    (s.alarm src sensor).power = s.power ∧ SameMem s (s.alarm src sensor) := by
  have h1 : s.power.rung ≠ 1 := by omega
  have h2 : s.power.rung ≠ 2 := by omega
  have hw : s.alarmWake = s := if_neg (by simp [h1, h2, he])
  obtain ⟨st, e⟩ := State.alarmed_eq h src
  rw [State.alarm_eq h.alarms, hw, e, if_pos hr]
  exact ⟨s.cipher.erased_keysErased, h.table, rfl, by simp [State.withLate, h.late], rfl, fun _ => rfl⟩

end Sys2Proof.Machine
end

section
/-! PROOF. The bezel, the endpoint and the end of an alarm (R398, R422, R467, R469, R471). -/

namespace Sys2Proof.Machine

/-! ## The bezel -/

/-- The first fault of the bezel, before its commands end. -/
def State.bezelFaulted (s : State) : State :=
  ({ s with faults := { s.faults with bezelTimes := [s.now] } } : State).recordFault 0x0009 .bezel 0

/-- The bezel restarts: its time stands, and an activation that has not begun to switch is given up. -/
def State.bezelRestarts (s : State) : State :=
  { s with
    faults := { s.faults with bezelRestart := true }
    boot := if s.boot.switching then s.boot else { s.boot with activating := none } }

theorem State.faultBezel_of_first {s : State} (h : s.faults.bezelTimes = []) :
    s.faultBezel = (s.bezelFaulted.endCommands 0x000D 0x0009).bezelRestarts := by
  unfold State.faultBezel
  rw [h]
  rfl

theorem State.bezelFaulted_eq {s : State} (h : s.faults.table = []) :
    s.bezelFaulted = { s.raise blkBZL 0xD009 none 0x0009 0 with
      faults := { s.faults with
        bezelTimes := [s.now], table := [(0, freshFault s 0x0009 .bezel 0)], ages := s.faults.ages + 1 } } := by
  unfold State.bezelFaulted
  rw [State.recordFault_of_empty (show ({ s with faults := { s.faults with bezelTimes := [s.now] } } : State).faults.table = [] from h)]
  rfl

/-- Where no command is in progress none ends. -/
theorem State.endCommands_of_idle {s : State} (h : ∀ e ∈ s.chans, e.2.inProg = []) (status detail : Nat) :
    s.endCommands status detail = s :=
  foldl_fixed_of_mem fun e he => by simp only [h e he, List.foldl_nil]

/-- What the first fault of the bezel leaves where no command is in progress. -/
theorem State.faultBezel_idle {s : State} (ht : s.faults.table = []) (hb : s.faults.bezelTimes = [])
    (hi : ∀ e ∈ s.chans, e.2.inProg = []) :
    listsFault s.faultBezel 9 .bezel 0 ∧ s.faultBezel.faults.bezelRestart = true ∧ s.faultBezel.faults.bezelTimes = [s.now] ∧
    s.faultBezel.chans = s.chans ∧ SameMem s s.faultBezel ∧ s.faultBezel.facets = s.facets := by
  have hc : ∀ e ∈ s.bezelFaulted.chans, e.2.inProg = [] := by
    rw [State.bezelFaulted_eq ht]
    exact hi
  rw [State.faultBezel_of_first hb, State.endCommands_of_idle hc, State.bezelFaulted_eq ht]
  exact ⟨listsFault_of_table rfl, rfl, rfl, rfl, fun _ => rfl, rfl⟩

/-- The one command in progress ends with the bezel's status. -/
theorem State.faultBezel_one {s : State} {w : InProgress} {p : Nat} {y : Channel} (ht : s.faults.table = []) (hb : s.faults.bezelTimes = [])
    (hc : s.chans = [(p, y)]) (hy : y.inProg = [w]) :
    s.faultBezel.faults.bezelRestart = true ∧ ∃ u : State,
      s.faultBezel.chans = (u.finish { ch := p, id := w.id, seq := w.seq } 0x000D 0x0009 []).chans ∧ u.chans = s.chans ∧
      u.now = s.now ∧ SameMem s u := by
  have hu : s.bezelFaulted.chans = s.chans := by rw [State.bezelFaulted_eq ht]; rfl
  rw [State.faultBezel_of_first hb]
  refine ⟨rfl, s.bezelFaulted, ?_, hu, ?_, ?_⟩
  · simp only [State.endCommands, hu, hc, hy, List.foldl_cons, List.foldl_nil]
    rfl
  · rw [State.bezelFaulted_eq ht]
    rfl
  · rw [State.bezelFaulted_eq ht]
    exact fun _ => rfl

/-- The bezel runs again: its faults' cause is gone. -/
def State.bezelBack (s : State) : State := ({ s with faults := { s.faults with bezelRestart := false } } : State).causeGone 0x0009

/-- An activation's image starts. -/
def State.activated (s : State) : State :=
  { s.switchImage with boot := { s.switchImage.boot with activating := none, switching := false } }

theorem State.switchImage_boot (s : State) : ∃ b, s.switchImage = { s with boot := b } := by
  unfold State.switchImage
  split
  · split <;> exact ⟨_, rfl⟩
  · exact ⟨_, rfl⟩

theorem State.activated_boot {s : State} {k : Nat} {im : Image} (hk : s.boot.committed = some k) (hi : s.boot.image k = some im) :
    s.activated.boot = { s.boot.runs k im with activating := none, switching := false } := by
  simp only [State.activated, State.switchImage, hk, hi]

theorem State.bezelReturned_boot (s : State) :
    ∃ b, (if s.boot.switching then s.bezelBack.activated else s.bezelBack) = { s.bezelBack with boot := b } := by
  obtain ⟨b, hb⟩ := s.bezelBack.switchImage_boot
  split
  · rw [State.activated, hb]
    exact ⟨_, rfl⟩
  · exact ⟨_, rfl⟩

theorem execBezelRestartDone_eq {s : State} (h : s.faults.bezelRestart = true) :
    execBezelRestartDone s = .next ((if s.boot.switching then s.bezelBack.activated else s.bezelBack).refreshRails) := by
  unfold execBezelRestartDone
  rw [if_neg (by simp [h])]
  exact congrArg Host.Outcome.next (apply_ite State.refreshRails ..).symm

/-- What the bezel's return leaves. -/
theorem bezelRestartDone_runs {s : State} (h : s.faults.bezelRestart = true) :
    Runs .bezelRestartDone s fun t => t.faults.bezelRestart = false ∧ t.chans = s.chans ∧ SameMem s t ∧
      t.facets = s.facets ∧ (s.boot.switching = false → t.boot = s.boot) ∧
      (∀ k im, s.boot.switching = true → s.boot.committed = some k → s.boot.image k = some im →
        t.boot = { s.boot.runs k im with activating := none, switching := false }) := by
  refine ⟨_, execBezelRestartDone_eq h, ?_⟩
  have hp := State.refreshRails_powerOnly (if s.boot.switching then s.bezelBack.activated else s.bezelBack)
  obtain ⟨b, hb⟩ := s.bezelReturned_boot
  beta_reduce
  rw [hp.faults, hp.chans, hp.facets, hp.boot]
  refine ⟨?_, ?_, fun a => (hp.sameMem a).trans ?_, ?_, fun hs => ?_, fun k im hs hk hi => ?_⟩
  · rw [hb]; rfl
  · rw [hb]; rfl
  · rw [hb]; rfl
  · rw [hb]; rfl
  · rw [hs]; rfl
  · rw [if_pos hs]
    exact State.activated_boot (s := s.bezelBack) hk hi

/-! ## The endpoint -/

/-- After a fault of the endpoint the link trains, and its fault is listed. -/
theorem State.faultEndpoint_trains {s : State} (h : s.faults.table = []) :
    listsFault s.faultEndpoint 7 .endpoint 0 ∧ s.faultEndpoint.pcie.link = .training := by
  have hd := s.retrain.allReset_damage 1
  have ht : (s.retrain.allReset 1).faults.table = [] := (table_of_damage hd).trans h
  unfold State.faultEndpoint
  rw [State.recordFault_of_empty ht]
  exact ⟨listsFault_of_table rfl, (linkState_of_damage hd).trans rfl⟩

/-! ## The end of an alarm -/

/-- The alarm's source is no longer listed, and its faults' cause is gone. -/
def State.sourceCleared (s : State) (source : Nat) : State :=
  ({ s with
    faults := { s.faults with alarms := s.faults.alarms.filter fun a => a ≠ source }
    pins := if source = 3 then { s.pins with tkclkOk := true } else s.pins } : State).causeGone (alarmCode source)

/-- With no alarm left the wrapping keys come back. -/
def State.keysBack (s : State) : State := if s.faults.alarms.isEmpty then s.rearmKeys else s

theorem execAlarmClear_eq {s : State} {source : Nat} (h4 : source ≠ 4) (hm : source ∈ s.faults.alarms) :
    execAlarmClear source s = .next ((s.sourceCleared source).keysBack.openGates) := by
  unfold execAlarmClear
  rw [if_neg (by simp [h4, hm])]
  rfl

theorem State.keysBack_cipher (s : State) : ∃ c, s.keysBack = { s with cipher := c } := by
  unfold State.keysBack
  split <;> exact ⟨_, rfl⟩

theorem GatesOnly.faults {s t : State} (h : GatesOnly s t) : t.faults = s.faults := by obtain ⟨_, _, rfl⟩ := h; rfl
theorem GatesOnly.cipher {s t : State} (h : GatesOnly s t) : t.cipher = s.cipher := by obtain ⟨_, _, rfl⟩ := h; rfl
theorem GatesOnly.chans {s t : State} (h : GatesOnly s t) : t.chans = s.chans := by obtain ⟨_, _, rfl⟩ := h; rfl
theorem GatesOnly.sameMem {s t : State} (h : GatesOnly s t) : SameMem s t := by obtain ⟨_, _, rfl⟩ := h; exact fun _ => rfl

/-- An entry of the faults whose cause is gone is active only where it was, with another code. -/
theorem State.mem_causeGone {s : State} {code : Nat} {e : Nat × FaultEntry} (he : e ∈ (s.causeGone code).faults.table)
    (ha : e.2.status = .active) : e ∈ s.faults.table ∧ e.2.code ≠ code := by
  obtain ⟨x, hx, rfl⟩ := List.mem_map.1 he
  dsimp only at ha ⊢
  split at ha
  · cases ha
  next hn =>
    rw [if_neg hn]
    exact ⟨hx, fun hc => hn ⟨hc, ha⟩⟩

/-- What the end of an alarm other than tamper gives back. -/
theorem alarmClear_runs {s : State} {source : Nat} (h4 : source ≠ 4) (hm : source ∈ s.faults.alarms) :
    Runs (.alarmClear source) s fun t => SameMem s t ∧ t.chans = s.chans ∧ source ∉ t.faults.alarms ∧
      (∀ a, a ≠ source → (a ∈ t.faults.alarms ↔ a ∈ s.faults.alarms)) ∧
      (∀ e ∈ t.faults.table, e.2.code = alarmCode source → e.2.status ≠ .active) ∧
      ((∀ a ∈ s.faults.alarms, a = source) → t.cipher.keys = true ∧ t.cipher.alarm = false) ∧
      ((∃ a ∈ s.faults.alarms, a ≠ source) → t.cipher = s.cipher) ∧
      (s.power.pfw = false → s.power.reopenAt = none →
        (∀ e ∈ s.faults.table, e.2.scope = .device → e.2.status = .active → e.2.code = alarmCode source) →
        ∀ f, f < 6 → (t.pfield f).closed = false) := by
  refine ⟨_, execAlarmClear_eq h4 hm, ?_⟩
  have hg := ((s.sourceCleared source).keysBack).openGates_gatesOnly
  obtain ⟨c, hc⟩ := (s.sourceCleared source).keysBack_cipher
  have hf : (s.sourceCleared source).keysBack.faults = (s.sourceCleared source).faults := by rw [hc]
  have hal : (s.sourceCleared source).faults.alarms = s.faults.alarms.filter fun a => a ≠ source := rfl
  have gone {e : Nat × FaultEntry} (he : e ∈ (s.sourceCleared source).faults.table) (ha : e.2.status = .active) :
      e ∈ s.faults.table ∧ e.2.code ≠ alarmCode source := State.mem_causeGone he ha
  beta_reduce
  rw [hg.faults, hg.chans, hg.cipher, hf]
  refine ⟨fun a => (hg.sameMem a).trans ?_, ?_, ?_, fun a ha => ?_, fun e he hcode ha => (gone he ha).2 hcode, fun hall => ?_,
    fun ⟨a, ha, hne⟩ => ?_, fun hp hr hdev f hf6 => State.openGates_open ?_ ?_ hf6⟩
  · rw [hc]; rfl
  · rw [hc]; rfl
  · simp [hal]
  · simp [hal, ha]
  · have he : (s.sourceCleared source).faults.alarms.isEmpty = true := by
      simpa [hal] using hall
    rw [State.keysBack, if_pos he]
    exact ⟨rfl, rfl⟩
  · have he : ¬(s.sourceCleared source).faults.alarms.isEmpty = true := by
      simp only [hal, List.isEmpty_iff, List.filter_eq_nil_iff, decide_eq_true_eq]
      exact fun h => h a ha hne
    rw [State.keysBack, if_neg he]
    rfl
  · have hpw : (s.sourceCleared source).keysBack.power.pfw = false := by
      rw [hc]
      exact hp
    simp only [State.gateHeld, hpw, Bool.false_or, List.any_eq_false, hf]
    intro e he hsa
    simp only [Bool.and_eq_true, decide_eq_true_eq] at hsa
    exact (gone he hsa.2).2 (hdev e (gone he hsa.2).1 hsa.1 hsa.2)
  · rw [hc]
    exact hr

end Sys2Proof.Machine
end

section
/-! PROOF. The clauses on faults and their containment (R21, R398, R422, R465 to R469, R471, R473), from the chapters above. -/

namespace Sys2Proof.Machine

/-! ## The clauses of `FaultRows` -/

theorem State.awake_of_phase {s : State} (h : s.boot.phase ≠ .reset) : s.awake = true := decide_eq_true h

/-- A handshake of a girdle's engine that fails stops its die, and so does a link module that gives up (R21, R466, R468). -/
theorem dieStops_runs {s : State} (hb : s.boot.phase ≠ .reset) (ht : s.faults.table = []) {d : Nat} (hd : d < 12)
    (hf : s.dieFailed d = false) : Runs (.engineWd d) s (DieDown 8 d) ∧ Runs (.ucieRetry d) s (DieDown 4 d) :=
  ⟨⟨_, rfl, State.stopDie_dieDown hb ht hd hf⟩, ⟨_, rfl, State.stopDie_dieDown hb ht hd hf⟩⟩

theorem State.stopDie_bezelDie {s : State} (hb : s.boot.phase ≠ .reset) (hf : s.dieFailed 12 = false) (code : Nat) :
    s.stopDie code 12 = s.raiseDevice code 12 := by
  unfold State.stopDie
  rw [if_neg (by simp [State.awake_of_phase hb, hf]), if_pos rfl]

/-- HG fails at Device scope: the die that holds the bezel is not marked failed, and the gates close. -/
theorem engineWd_bezelDie_runs {s : State} (hb : s.boot.phase ≠ .reset) (ht : s.faults.table = []) (hf : s.dieFailed 12 = false) :
    Runs (.engineWd 12) s fun t => t.dieFailed 12 = false ∧ listsFault t 8 .device 12 ∧ t.gateHeld = true ∧
      ∀ f, f < 6 → (t.pfield f).closed = true := by
  refine ⟨_, congrArg Host.Outcome.next (State.stopDie_bezelDie hb hf 8), ?_, State.raiseDevice_holds ht 8 12⟩
  rw [State.dieFailed, State.raiseDevice_failedDies ht]
  exact hf

/-- A watchdog of the bezel and a disagreement of its two halves are the same fault (R469). -/
theorem bezelFault_runs {s : State} (hb : s.boot.phase ≠ .reset) {Q : State → Prop} (h : Q s.faultBezel) :
    Runs .bezelWatchdog s Q ∧ Runs .lockstepMismatch s Q :=
  have e : (if s.awake then s.faultBezel else s) = s.faultBezel := if_pos (State.awake_of_phase hb)
  ⟨⟨_, congrArg Host.Outcome.next e, h⟩, ⟨_, congrArg Host.Outcome.next e, h⟩⟩

theorem pcieInternal_runs {s : State} (hb : s.boot.phase ≠ .reset) (ht : s.faults.table = []) :
    Runs .pcieInternal s fun t => listsFault t 7 .endpoint 0 ∧ t.pcie.link = .training ∧ t.pcie.linkUp = false := by
  have h := State.faultEndpoint_trains ((table_of_damage (s.aerUncor_damage 0 erInternal false)).trans ht)
  refine ⟨_, congrArg Host.Outcome.next (if_pos (State.awake_of_phase hb)), h.1, h.2, ?_⟩
  rw [Pcie.linkUp, h.2]
  rfl

/-! ### Alarms -/

/-- The condition of a voltage monitor's alarm: VAON, a power good whose enable is held, or an armed rail. -/
def VoltageMet (s : State) (sensor : Nat) : Prop :=
  (sensor = 0 ∨ 11 < sensor) ∨ (1 ≤ sensor ∧ sensor ≤ 4 ∧ s.pins.en.getLsbD (sensor - 1) = true) ∨
  (5 ≤ sensor ∧ sensor ≤ 11 ∧ (s.rail (sensor - 5)).armed = true)

theorem State.voltageFail_of_not_met {s : State} {sensor : Nat} (h : ¬VoltageMet s sensor) : s.voltageFail sensor = s := by
  simp only [VoltageMet, not_or, not_and] at h
  obtain ⟨⟨h0, h11⟩, hpg, hrail⟩ := h
  unfold State.voltageFail
  split
  next hs => rw [if_neg (hpg hs.1 hs.2)]
  next =>
    have hs : 5 ≤ sensor ∧ sensor ≤ 11 := by omega
    rw [if_pos hs]
    exact if_neg (hrail hs.1 hs.2)

/-- The state in which a voltage monitor that fails raises its alarm: its power good is lost, or an armed rail has had its time. -/
def State.voltageAt (s : State) (sensor : Nat) : State :=
  if 1 ≤ sensor ∧ sensor ≤ 4 then { s with pins := { s.pins with pg := s.pins.pg &&& ~~~BitVec.ofNat 4 (2 ^ (sensor - 1)) } }
  else if 5 ≤ sensor ∧ sensor ≤ 11 then s.reach ((s.rail (sensor - 5)).onAt.getD 0 + 10000)
  else s

theorem State.voltageFail_of_met {s : State} {sensor : Nat} (h : VoltageMet s sensor) :
    s.voltageFail sensor = (s.voltageAt sensor).alarm 1 sensor := by
  unfold State.voltageFail State.voltageAt
  split
  next hs =>
    have he : s.pins.en.getLsbD (sensor - 1) = true := by
      rcases h with h | ⟨-, -, h⟩ | ⟨h, -⟩
      · omega
      · exact h
      · omega
    rw [if_pos he]
  next hn =>
    split
    next hs =>
      have he : (s.rail (sensor - 5)).armed = true := by
        rcases h with h | ⟨h1, h2, -⟩ | ⟨-, -, h⟩
        · omega
        · exact absurd ⟨h1, h2⟩ hn
        · exact h
      exact if_pos he
    next => rfl

/-- A state in which only the pins and the time differ. -/
def PinsTime (s t : State) : Prop := ∃ n p, t = { s with now := n, pins := p }

theorem State.voltageAt_pinsTime (s : State) (sensor : Nat) : PinsTime s (s.voltageAt sensor) := by
  unfold State.voltageAt
  split
  · exact ⟨_, _, rfl⟩
  · split <;> exact ⟨_, _, rfl⟩

theorem FirstAlarm.of_pinsTime {s t : State} (h : FirstAlarm s) (e : PinsTime s t) : FirstAlarm t := by
  obtain ⟨n, p, rfl⟩ := e
  exact ⟨h.table, h.alarms, h.late, h.chains, h.parcels⟩

/-- A power good that fails is low. -/
theorem pg_cleared {x : BitVec 4} {n : Nat} (hn : n < 4) : (x &&& ~~~BitVec.ofNat 4 (2 ^ n)).getLsbD n = false := by
  have h : (BitVec.ofNat 4 (2 ^ n)).getLsbD n = true := by
    rw [BitVec.getLsbD_ofNat, Nat.testBit_two_pow_self, Bool.and_true]
    exact decide_eq_true hn
  rw [BitVec.getLsbD_and, BitVec.getLsbD_not, h, Bool.not_true, Bool.and_false, Bool.and_false]

/-- The keys are erased, the gates closed and held, and at Run nothing else moves. -/
def AlarmKept (s t : State) : Prop :=
  (t.cipher.alarm = true ∧ t.cipher.keys = false ∧ t.cipher.erasures = min 0xFFFFFFFF (s.cipher.erasures + 1) ∧
    t.cipher.counters = s.cipher.counters ∧ ∀ e ∈ t.cipher.ctxs, e.2.key = none) ∧
  (∀ f, f < 6 → (t.pfield f).closed = true) ∧ t.gateHeld = true ∧
  (s.power.rung = 0 → s.power.entering = none → SameMem s t ∧ t.facets = s.facets ∧ t.chans = s.chans)

theorem AlarmRaised.kept {s u t : State} {src sensor : Nat} (h : AlarmRaised u t src sensor) (e : PinsTime s u) : AlarmKept s t := by
  obtain ⟨n, p, rfl⟩ := e
  exact ⟨h.erased, h.closed, h.held, h.still⟩

/-- An alarm raised from a state that differs by pins and time only. -/
theorem State.alarm_kept {s u : State} (h : FirstAlarm s) (hr : s.power.rung < 3) (e : PinsTime s u) (src sensor : Nat) :
    AlarmKept s (u.alarm src sensor) ∧ listsFault (u.alarm src sensor) (alarmCode src) .device sensor ∧
    (u.alarm src sensor).faults.alarms = [src] ∧ (u.alarm src sensor).pins = u.pins := by
  have hru : u.power.rung < 3 := by
    obtain ⟨n, p, rfl⟩ := e
    exact hr
  have ha := State.alarm_raised (h.of_pinsTime e) hru src sensor
  exact ⟨ha.kept e, ha.listed, ha.alarms, ha.pins⟩

theorem voltageAlarm_runs {s : State} (hb : s.boot.phase ≠ .reset) (h : FirstAlarm s) (hr : s.power.rung < 3) {sensor : Nat}
    (hm : VoltageMet s sensor) :
    Runs (.voltageAlarm sensor) s fun t => AlarmKept s t ∧ listsFault t 0x10 .device sensor ∧ t.faults.alarms = [1] ∧
      (1 ≤ sensor → sensor ≤ 4 → t.pins.pg.getLsbD (sensor - 1) = false) := by
  obtain ⟨hk, hl, ha, hp⟩ := State.alarm_kept h hr (s.voltageAt_pinsTime sensor) 1 sensor
  refine ⟨_, congrArg Host.Outcome.next ((if_pos (State.awake_of_phase hb)).trans (State.voltageFail_of_met hm)), hk, hl, ha,
    fun h1 h4 => ?_⟩
  rw [hp, State.voltageAt, if_pos ⟨h1, h4⟩]
  exact pg_cleared (by omega)

theorem temperatureAlarm_runs {s : State} (hb : s.boot.phase ≠ .reset) (h : FirstAlarm s) (hr : s.power.rung < 3) (sensor : Nat) :
    Runs (.temperatureAlarm sensor) s fun t => AlarmKept s t ∧ listsFault t 0x11 .device sensor ∧ t.faults.alarms = [2] := by
  obtain ⟨hk, hl, ha, -⟩ := State.alarm_kept h hr ⟨s.now, s.pins, rfl⟩ 2 sensor
  exact ⟨_, congrArg Host.Outcome.next (if_pos (State.awake_of_phase hb)), hk, hl, ha⟩

theorem clockAlarm_runs {s : State} (hb : s.boot.phase ≠ .reset) (h : FirstAlarm s) (hr : s.power.rung < 3) (sensor : Nat) :
    Runs (.clockAlarm sensor) s fun t => AlarmKept s t ∧ listsFault t 0x12 .device sensor ∧ t.faults.alarms = [3] ∧
      t.pins.tkclkOk = false := by
  obtain ⟨hk, hl, ha, hp⟩ := State.alarm_kept h hr ⟨s.now, { s.pins with tkclkOk := false }, rfl⟩ 3 sensor
  exact ⟨_, congrArg Host.Outcome.next (if_pos (State.awake_of_phase (s := { s with pins := { s.pins with tkclkOk := false } }) hb)),
    hk, hl, ha, congrArg Pins.tkclkOk hp⟩

/-- The tamper input, or the lid mesh, as the tamper alarm's sensor says. -/
def State.tamperAt (s : State) (sensor : Nat) : State := if sensor = 0 then { s with pins := { s.pins with tamper := true } } else s

theorem State.tamperAt_pinsTime (s : State) (sensor : Nat) : PinsTime s (s.tamperAt sensor) := by
  unfold State.tamperAt
  split <;> exact ⟨_, _, rfl⟩

theorem tamperAlarm_runs {s : State} (hb : s.boot.phase ≠ .reset) (h : FirstAlarm s) (hr : s.power.rung < 3) (sensor : Nat) :
    Runs (.tamperAlarm sensor) s fun t => AlarmKept s t ∧ listsFault t 0x13 .device sensor ∧ t.faults.alarms = [4] ∧
      (sensor = 0 → t.pins.tamper = true) := by
  have e := s.tamperAt_pinsTime sensor
  have hbt : (s.tamperAt sensor).boot.phase ≠ .reset := by
    obtain ⟨n, p, he⟩ := e
    rw [he]
    exact hb
  obtain ⟨hk, hl, ha, hp⟩ := State.alarm_kept h hr e 4 sensor
  refine ⟨_, congrArg Host.Outcome.next (if_pos (State.awake_of_phase hbt)), hk, hl, ha, fun h0 => (congrArg Pins.tamper hp).trans ?_⟩
  rw [State.tamperAt, if_pos h0]

theorem temperatureAlarm_late_runs {s : State} (hb : s.boot.phase ≠ .reset) (h : FirstAlarm s) (hr : 3 ≤ s.power.rung)
    (he : s.power.entering = none) (sensor : Nat) :
    Runs (.temperatureAlarm sensor) s fun t => KeysErased s.cipher t.cipher ∧ t.faults.table = [] ∧
      t.faults.alarms = [2] ∧ t.faults.late = [(2, sensor)] ∧ t.power = s.power ∧ SameMem s t :=
  ⟨_, congrArg Host.Outcome.next (if_pos (State.awake_of_phase hb)), State.alarm_late h hr he 2 sensor⟩

theorem alarmClear_none_runs {s : State} {source : Nat} (h : source = 4 ∨ source ∉ s.faults.alarms) :
    Runs (.alarmClear source) s fun t => t = s :=
  ⟨_, congrArg Host.Outcome.next (if_pos (h.imp_right fun hn => by simpa using hn)), rfl⟩

end Sys2Proof.Machine

open Sys2Proof Sys2Proof.Machine

/-- Settles O55: what a fault's containment marks is kept by every operation under it (`State.damage`), so that the entry of the fault
table, the failed die, the links and the gates can be read off where the fault is recorded. -/
theorem faultRows : Obligations.FaultRows := by
  unfold Obligations.FaultRows
  refine ⟨fun s hb ht => ⟨fun d hd hf => dieStops_runs hb ht hd hf,
    fun hf => congrArg Host.Outcome.next (State.stopDie_bezelDie hb hf 4),
    engineWd_bezelDie_runs hb ht, fun ht0 hi => bezelFault_runs hb (State.faultBezel_idle ht ht0 hi),
    fun w p y ht0 hc hy => (bezelFault_runs hb (State.faultBezel_one ht ht0 hc hy)).1, bezelRestartDone_runs, pcieInternal_runs hb ht,
    fun sensor ha hl hch hp => ?_⟩, fun s source => ⟨alarmClear_none_runs, alarmClear_runs⟩⟩
  have hq : FirstAlarm s := ⟨ht, ha, hl, by simpa using hch, hp⟩
  exact ⟨fun hm => ⟨_, congrArg Host.Outcome.next (if_pos (State.awake_of_phase hb)), State.voltageFail_of_not_met hm⟩,
    fun hr => ⟨fun hm => voltageAlarm_runs hb hq hr hm, temperatureAlarm_runs hb hq hr sensor, clockAlarm_runs hb hq hr sensor,
      tamperAlarm_runs hb hq hr sensor⟩,
    fun hr he => temperatureAlarm_late_runs hb hq hr he sensor⟩

end

section
/-! PROOF. Frames of the facets and of device memory: which facets an operation changes, which bytes, and what an access to a
scratchpad leaves of its facet (R32, R78, R108). -/

namespace Sys2Proof.Machine

/-! ## Every facet but one -/

variable {s t u : State} {f : Nat}

@[simp] theorem OnlyFacet.refl (s : State) (f : Nat) : OnlyFacet s s f := fun _ _ => rfl

theorem OnlyFacet.trans (h : OnlyFacet s t f) (g : OnlyFacet t u f) : OnlyFacet s u f := fun n hn => (g n hn).trans (h n hn)

theorem OnlyFacet.putFacet (s : State) (f : Nat) (x : Facet) : OnlyFacet s (s.putFacet f x) f :=
  fun _ hn => State.facet_putFacet_ne s x hn

theorem OnlyFacet.modFacet (s : State) (f : Nat) (g : Facet → Facet) : OnlyFacet s (s.modFacet f g) f :=
  fun _ hn => State.facet_modFacet_ne s g hn

/-! ## Every byte of device memory -/

@[simp] theorem SameMem.refl (s : State) : SameMem s s := fun _ => rfl

theorem SameMem.trans (h : SameMem s t) (g : SameMem t u) : SameMem s u := fun a => (g a).trans (h a)

theorem SameMem.putFacet (s : State) (f : Nat) (x : Facet) : SameMem s (s.putFacet f x) := fun _ => rfl

theorem SameMem.modFacet (s : State) (f : Nat) (g : Facet → Facet) : SameMem s (s.modFacet f g) := fun _ => rfl

theorem State.readBytes_of_sameMem (h : SameMem s t) (a n : Nat) : t.readBytes a n = s.readBytes a n := by
  induction n generalizing a with
  | zero => rfl
  | succ n ih => rw [State.readBytes, State.readBytes, h, ih]

@[simp] theorem State.length_readBytes (s : State) (a n : Nat) : (s.readBytes a n).length = n := by
  induction n generalizing a with
  | zero => rfl
  | succ n ih => simp [State.readBytes, ih]

/-- Bytes that read one by one as a list does are the list. -/
theorem State.readBytes_eq (bs : List Byte) {a : Nat} (h : ∀ j (hj : j < bs.length), s.readByte (a + j) = bs[j]) :
    s.readBytes a bs.length = bs := by
  induction bs generalizing a with
  | nil => rfl
  | cons b bs ih =>
    have h0 := h 0 (by simp)
    have ht := ih (a := a + 1) fun j hj => by
      rw [Nat.add_right_comm]
      exact h (j + 1) (by simpa using hj)
    rw [List.length_cons, State.readBytes, ht]
    simpa using h0

/-! ## What an access to a scratchpad leaves -/

/-- From `s` to `t` streams or the mesh accessed the scratchpad of facet `f`: of the facet the banks' use, the denials, FCT_HSKP and
the corrected count may differ, and the armed errors that were met are gone. -/
structure SpadAccess (s t : State) (f : Nat) : Prop where
  others : OnlyFacet s t f
  facet  : ∃ corr use confl words, t.facet f = { s.facet f with eccCorr := corr, bankUse := use, confl := confl, hskp := words }
  rest   : ∃ facets inject, t = { s with facets, faults := { s.faults with inject } }

theorem SpadAccess.refl (s : State) (f : Nat) : SpadAccess s s f := ⟨OnlyFacet.refl s f, ⟨_, _, _, _, rfl⟩, ⟨_, _, rfl⟩⟩

theorem SpadAccess.trans (h : SpadAccess s t f) (g : SpadAccess t u f) : SpadAccess s u f := by
  obtain ⟨ho, ⟨_, _, _, _, hf⟩, ⟨_, _, rfl⟩⟩ := h
  obtain ⟨go, ⟨_, _, _, _, gf⟩, ⟨_, _, rfl⟩⟩ := g
  exact ⟨ho.trans go, ⟨_, _, _, _, by rw [gf, hf]⟩, ⟨_, _, rfl⟩⟩

theorem SpadAccess.foldl {α : Type} {g : State → α → State} (hg : ∀ s x, SpadAccess s (g s x) f) (l : List α) (s : State) :
    SpadAccess s (l.foldl g s) f := by
  induction l generalizing s with
  | nil => exact .refl ..
  | cons x l ih => exact (hg s x).trans (ih _)

section
variable (h : SpadAccess s t f)
include h

theorem SpadAccess.sameMem : SameMem s t := by obtain ⟨_, _, rfl⟩ := h.rest; exact fun _ => rfl

/-- A part of the facet that no access changes. -/
theorem SpadAccess.part {α : Type} {p : Facet → α}
    (hp : ∀ (x : Facet) corr use confl words, p { x with eccCorr := corr, bankUse := use, confl := confl, hskp := words } = p x) :
    p (t.facet f) = p (s.facet f) := by
  obtain ⟨_, _, _, _, e⟩ := h.facet
  rw [e, hp]

end

/-- The bank handshakes of an access: of the facet they change the banks' use and the denials. -/
theorem foldl_banks {g : Facet → Nat → Facet} (hg : ∀ x b, ∃ use confl, g x b = { x with bankUse := use, confl := confl })
    (l : List Nat) (x : Facet) : ∃ use confl, l.foldl g x = { x with bankUse := use, confl := confl } := by
  induction l generalizing x with
  | nil => exact ⟨_, _, rfl⟩
  | cons b l ih =>
    obtain ⟨_, _, eb⟩ := hg x b
    obtain ⟨use, confl, e⟩ := ih (g x b)
    exact ⟨use, confl, by rw [List.foldl_cons, e, eb]⟩

theorem State.bankWords_access (s : State) (f m : Nat) (write : Bool) (ws : List Nat) : SpadAccess s (s.bankWords f m write ws) f := by
  refine ⟨OnlyFacet.modFacet s f _, ?_, ⟨_, _, rfl⟩⟩
  unfold State.bankWords
  rw [State.facet_modFacet]
  obtain ⟨use, confl, e⟩ := foldl_banks (g := fun x b =>
      match ws.filter fun w => w / 512 = b with
      | [] => x
      | w :: t => x.bankTouch s.now m write b w (t.getLastD w))
    (fun x b => by split <;> exact ⟨_, _, rfl⟩) (List.range 16) (s.facet f)
  exact ⟨_, use, confl, _, congrArg (fun x : Facet => { x with hskp := x.hskp + BitVec.ofNat 64 ws.length }) e⟩

theorem State.bankAccess_access (s : State) (f m : Nat) (write : Bool) (off n : Nat) :
    SpadAccess s (s.bankAccess f m write off n) f := State.bankWords_access ..

theorem State.metSpad_access (s : State) (f off n : Nat) : SpadAccess s (s.metSpad f off n) f := by
  unfold State.metSpad
  split
  · exact .refl ..
  · exact ⟨OnlyFacet.modFacet (s.disarm _) f _, ⟨_, _, _, _, State.facet_modFacet (s.disarm _) ..⟩, ⟨_, _, rfl⟩⟩

end Sys2Proof.Machine
end

section
/-! PROOF. How a facet instruction issues (R44, R50, R71, R72): the state in which it acts, and the rule by which a command of a stream
runs. -/

namespace Sys2Proof.Machine

/-! ## The counts and the streams -/

theorem Facet.tok_putToks (x : Facet) (c n d : Nat) : Facet.tok { x with toks := x.toks.put c n } d = if d = c then n else x.tok d := by
  split
  next h => exact h ▸ Tbl.getD_put_self ..
  next h => exact Tbl.getD_put_ne _ h ..

/-- Taking a count from a counter. -/
theorem Facet.tok_take (x : Facet) (c n d : Nat) :
    (if n = 0 then x else { x with toks := x.toks.put c (x.tok c - n) } : Facet).tok d = x.tok d - if d = c then n else 0 := by
  split
  next h => simp [h]
  next =>
    rw [Facet.tok_putToks]
    split
    next h => rw [h]
    next => rfl

/-- The counts that an issuing word consumes; one counter may be named twice (R44). -/
theorem Facet.tok_consume (x : Facet) (w : BitVec 128) (c : Nat) :
    (x.consume w).tok c = x.tok c - (if c = wWca w then wWna w else 0) - (if c = wWcb w then wWnb w else 0) := by
  unfold Facet.consume
  rw [Facet.tok_take, Facet.tok_take]

theorem Facet.consume_eq (x : Facet) (w : BitVec 128) : ∃ toks, x.consume w = { x with toks := toks } := by
  unfold Facet.consume
  dsimp only
  split <;> split <;> exact ⟨_, rfl⟩

/-! ## The state in which an instruction has issued -/

variable {s s1 : State} {f st op : Nat} {w : BitVec 128}

theorem State.issued_onlyFacet (s1 : State) (f st : Nat) (w : BitVec 128) : OnlyFacet s1 (s1.issued f st w) f :=
  fun _ h => State.facet_issued_ne s1 st w h

theorem State.issued_sameMem (s1 : State) (f st : Nat) (w : BitVec 128) : SameMem s1 (s1.issued f st w) := fun _ => rfl

/-- Of its facet an issuing instruction changes the counters and its stream. -/
theorem State.facet_issued_eq (s1 : State) (f st : Nat) (w : BitVec 128) :
    ∃ toks streams, (s1.issued f st w).facet f = { s1.facet f with toks := toks, streams := streams } := by
  obtain ⟨toks, e⟩ := Facet.consume_eq (s1.facet f) w
  rw [State.facet_issued, e]
  exact ⟨_, _, rfl⟩

/-- A part of the facet that issuing does not change. -/
theorem State.issued_part {α : Type} {p : Facet → α} (hp : ∀ (x : Facet) toks streams, p { x with toks := toks, streams := streams } = p x)
    (s1 : State) (f st : Nat) (w : BitVec 128) : p ((s1.issued f st w).facet f) = p (s1.facet f) := by
  obtain ⟨_, _, e⟩ := State.facet_issued_eq s1 f st w
  rw [e, hp]

theorem State.stream_issued (s1 : State) (f st : Nat) (w : BitVec 128) :
    ((s1.issued f st w).facet f).stream st = ((s1.facet f).stream st).advance w := by
  obtain ⟨toks, e⟩ := Facet.consume_eq (s1.facet f) w
  rw [State.facet_issued, Facet.stream_modStream, e]
  rfl

theorem State.stream_issued_ne (s1 : State) (f : Nat) {st k : Nat} (w : BitVec 128) (h : k ≠ st) :
    ((s1.issued f st w).facet f).stream k = (s1.facet f).stream k := by
  obtain ⟨toks, e⟩ := Facet.consume_eq (s1.facet f) w
  rw [State.facet_issued, Facet.stream_modStream_ne _ _ h, e]
  rfl

/-! ## Running an instruction of a stream -/

/-- The issued instruction: the word with the place and the slots that its stream gave it. -/
def issuedAs (s : State) (f st : Nat) (w : BitVec 128) : Issued :=
  { f, st, index := ((s.facet f).stream st).next, word := w, e0 := ((s.facet f).stream st).slot w 0
    e1 := ((s.facet f).stream st).slot w 1, e2 := ((s.facet f).stream st).slot w 2 }

/-- A command whose meaning is an instruction that issues runs it on the state in which it has issued. -/
theorem runs_of_issues {c : Instr} {run : State → Issued → State} {Q : State → Prop} (h : Issues s f st op s1 w)
    (hc : exec c s = .next (s.issue f st op run)) (hop : opStream op ≠ 5) (hq : Q (run (s1.issued f st w) (issuedAs s f st w))) :
    Runs c s Q :=
  ⟨_, hc.trans (congrArg _ (State.issue_eq h hop run)), hq⟩

/-- As `runs_of_issues`, for an instruction that changes its own facet and then signals: what it leaves before the signals. -/
theorem runs_signal_of_issues {c : Instr} {g : Issued → Facet → Facet} {P : State → Prop} (h : Issues s f st op s1 w)
    (hc : exec c s = .next (s.issue f st op fun s q => (s.modFacet f (g q)).signal f q.word)) (hop : opStream op ≠ 5)
    (hq : ∀ u : State, u.facet f = g (issuedAs s f st w) ((s1.issued f st w).facet f) → P u) :
    Runs c s fun t => ∃ u, t = u.signal f w ∧ OnlyFacet s1 u f ∧ SameMem s1 u ∧ P u :=
  have ho := (State.issued_onlyFacet s1 f st w).trans (OnlyFacet.modFacet _ f (g (issuedAs s f st w)))
  runs_of_issues h hc hop ⟨_, rfl, ho, fun _ => rfl, hq _ (State.facet_modFacet ..)⟩

end Sys2Proof.Machine

open Sys2Proof Sys2Proof.Machine

/-- Settles O1: the counts, the stream and the frame of the state in which an instruction has issued. -/
theorem issueConsumesCounts : Obligations.IssueConsumesCounts := by
  unfold Obligations.IssueConsumesCounts
  intro s s1 f st op w _
  refine ⟨fun c => ?_, State.stream_issued .., fun k hk => State.stream_issued_ne _ _ _ hk, State.issued_part (fun _ _ _ => rfl) ..,
    State.issued_part (fun _ _ _ => rfl) .., State.issued_part (fun _ _ _ => rfl) .., State.issued_part (fun _ _ _ => rfl) ..,
    State.issued_onlyFacet s1 f st w, rfl⟩
  rw [State.facet_issued]
  exact Facet.tok_consume ..

end

section
/-! PROOF. The instructions of every stream, token counters and signals (R44 to R51, R70 to R72, R76). -/

namespace Sys2Proof.Machine

/-! ## Steps (R51) -/

/-- A step that is written reads back, one of zero being unlisted. -/
theorem getD_putInt_self (t : Tbl Int) (n : Nat) (z : Int) : Tbl.getD (putInt t n z) n 0 = z := by
  unfold putInt
  split
  next h => rw [Tbl.getD_del_self, h]
  next => exact Tbl.getD_put_self ..

theorem getD_putInt_ne (t : Tbl Int) {m n : Nat} (z : Int) (h : m ≠ n) : Tbl.getD (putInt t n z) m 0 = Tbl.getD t m 0 := by
  unfold putInt
  split
  · exact Tbl.getD_del_ne t h 0
  · exact Tbl.getD_put_ne t h z 0

/-- The three steps of a level, written one after another. -/
theorem getD_putInt_level (t : Tbl Int) (l : Nat) (a b c : Int) :
    Tbl.getD (putInt (putInt (putInt t l a) (l + 1) b) (l + 2) c) l 0 = a ∧
    Tbl.getD (putInt (putInt (putInt t l a) (l + 1) b) (l + 2) c) (l + 1) 0 = b ∧
    Tbl.getD (putInt (putInt (putInt t l a) (l + 1) b) (l + 2) c) (l + 2) 0 = c := by
  refine ⟨?_, ?_, getD_putInt_self ..⟩
  · rw [getD_putInt_ne _ _ (by omega), getD_putInt_ne _ _ (by omega), getD_putInt_self]
  · rw [getD_putInt_ne _ _ (by omega), getD_putInt_self]

/-! ## A stream past its instruction (R50) -/

/-- A LOOP opens the next level and keeps the steps. -/
theorem Stream.advance_loop (y : Stream) {w : BitVec 128} (h : wOp w = 0x02) :
    (y.advance w).next = y.next + 1 ∧
    (y.advance w).loops = y.loops ++ [{ start := y.next + 1, len := wS1 w, trip := wS0 w, idx := 0 }] ∧
    (y.advance w).steps = y.steps := by
  unfold Stream.advance
  rw [if_pos h]
  exact ⟨rfl, rfl, rfl⟩

/-- A stream stands at its BEAT; the scoreboard's marks whether a step ends (R71). -/
def Facet.standAtBeat (x : Facet) (st : Nat) (mark : Bool) : Facet :=
  let x := x.modStream st fun y => { y with atBeat := true }
  if st = 3 then { x with stepEnd := mark } else x

theorem Facet.streams_standAtBeat (x : Facet) (st : Nat) (mark : Bool) :
    (x.standAtBeat st mark).streams = (x.modStream st fun y => { y with atBeat := true }).streams := by
  unfold Facet.standAtBeat
  dsimp only
  split <;> rfl

theorem Facet.stream_standAtBeat (x : Facet) (st : Nat) (mark : Bool) :
    (x.standAtBeat st mark).stream st = { x.stream st with atBeat := true } := by
  rw [Facet.stream, Facet.streams_standAtBeat]
  exact Facet.stream_modStream x st _

theorem Facet.stream_standAtBeat_ne (x : Facet) {st k : Nat} (mark : Bool) (h : k ≠ st) :
    (x.standAtBeat st mark).stream k = x.stream k := by
  rw [Facet.stream, Facet.streams_standAtBeat]
  exact Facet.stream_modStream_ne x _ h

theorem Facet.stepEnd_standAtBeat (x : Facet) (st : Nat) (mark : Bool) :
    (x.standAtBeat st mark).stepEnd = if st = 3 then mark else x.stepEnd := by
  unfold Facet.standAtBeat
  split <;> rfl

/-! ## Token counters (R47) -/

theorem State.addTok_eq {s : State} {f c n : Nat} (h : (s.facet f).tok c + n ≤ 65535) :
    s.addTok f c n = if n = 0 then s else s.modFacet f fun x => { x with toks := x.toks.put c (x.tok c + n) } :=
  if_neg (Nat.not_lt.mpr h)

/-- An increment that fits is added to its counter and to no other. -/
theorem State.addTok_fits {s : State} {f c n : Nat} (h : (s.facet f).tok c + n ≤ 65535) :
    ((s.addTok f c n).facet f).tok c = (s.facet f).tok c + n ∧
    (∀ d, d ≠ c → ((s.addTok f c n).facet f).tok d = (s.facet f).tok d) ∧ OnlyFacet s (s.addTok f c n) f := by
  rw [State.addTok_eq h]
  split
  next hn => exact ⟨by rw [hn, Nat.add_zero], fun _ _ => rfl, OnlyFacet.refl s f⟩
  next =>
    refine ⟨?_, fun d hd => ?_, OnlyFacet.modFacet s f _⟩
    · rw [State.facet_modFacet, Facet.tok_putToks, if_pos rfl]
    · rw [State.facet_modFacet, Facet.tok_putToks, if_neg hd]

theorem State.addTok_overflows {s : State} {f c n : Nat} (h : 65535 < (s.facet f).tok c + n) :
    s.addTok f c n = s.facetExc f 0x07 (bitsOf (s.facet f).tokown.toNat (2 * c + 1) (2 * c))
      ((s.facet f).stream (bitsOf (s.facet f).tokown.toNat (2 * c + 1) (2 * c))).next c := if_pos h

/-! ## Signals (R45, R76) -/

section
variable {s : State} {f : Nat} {w : BitVec 128}

/-- A Faulted facet signals nothing. -/
theorem State.signal_faulted (h : (s.facet f).state = .faulted) : s.signal f w = s := by
  have hl : s.localSignal f w = s := if_pos (.inl h)
  rw [State.signal, hl]
  exact if_pos (.inl h)

theorem State.localSignal_zero (h : wLsn w = 0) : s.localSignal f w = s := if_pos (.inr h)

theorem State.localSignal_live (h : (s.facet f).state ≠ .faulted) :
    s.localSignal f w = if wLsn w = 0 then s else s.addTok f (wLsc w) (wLsn w) := by
  simp only [State.localSignal, h, false_or]

/-- Where there is no remote signal only the local one applies. -/
theorem State.signal_local (h : wRsn w = 0) : s.signal f w = s.localSignal f w := if_pos (.inr h)

theorem State.farSignal_live (h : (s.facet f).state ≠ .faulted) (hn : wRsn w ≠ 0) :
    s.farSignal f w = s.remoteSignal f (wRsc w) (wRsn w) (wRsx w) (wRsy w) := if_neg (by simp [h, hn])

end

/-- A remote signal takes a TAG and leaves as one TOKEN flit to its facet of the parcel. -/
theorem State.remoteSignal_sends {s : State} {f c n rsx rsy tag : Nat} {o : Owner} (ho : (s.facet f).owner = some o)
    (ht : (s.facet f).freeSignal = some tag) :
    ∃ u fl, s.remoteSignal f c n rsx rsy = u.sendFlit fl ∧ fl.typ = 3 ∧ fl.tokc = c ∧ fl.tokn = n ∧ fl.tag = tag ∧
      fl.last = true ∧ fl.addr = spadAddr (facetAt (o.px + rsx) (o.py + rsy)) 0 ∧
      (u.facet f).signals = (s.facet f).signals ++ [tag] ∧ OnlyFacet s u f := by
  have e : s.remoteSignal f c n rsx rsy = (s.putFacet f { s.facet f with signals := (s.facet f).signals ++ [tag] }).sendFlit
      { s.facetFlit f (facetAt (o.px + rsx) (o.py + rsy)) 3 with
        tokc := c, tokn := n, last := true, tag, addr := spadAddr (facetAt (o.px + rsx) (o.py + rsy)) 0 } := by
    simp only [State.remoteSignal, ho, ht]
  exact ⟨_, _, e, rfl, rfl, rfl, rfl, rfl, rfl, congrArg Facet.signals (State.facet_putFacet ..), OnlyFacet.putFacet s f _⟩

/-! ## The instructions -/

variable {s s1 : State} {f st : Nat} {w : BitVec 128}

theorem beat_runs (h : Issues s f st 0x01 s1 w) : Runs (.beat f st) s fun t => ∃ u, t = u.signal f w ∧ OnlyFacet s1 u f ∧ SameMem s1 u ∧
    (u.facet f).stream st = { ((s1.facet f).stream st).advance w with atBeat := true } ∧
    (∀ k, k ≠ st → (u.facet f).stream k = (s1.facet f).stream k) ∧
    (u.facet f).stepEnd = if st = 3 then bitAt w.toNat 48 else (s1.facet f).stepEnd := by
  refine runs_signal_of_issues (g := fun q x => x.standAtBeat st (bitAt q.word.toNat 48)) h rfl (by decide) fun u hu => ?_
  rw [hu]
  refine ⟨?_, fun k hk => ?_, ?_⟩
  · rw [Facet.stream_standAtBeat, State.stream_issued]
  · rw [Facet.stream_standAtBeat_ne _ _ hk, State.stream_issued_ne s1 f w hk]
  · rw [Facet.stepEnd_standAtBeat, State.issued_part (p := Facet.stepEnd) fun _ _ _ => rfl]
    rfl

theorem loop_runs (h : Issues s f st 0x02 s1 w) : Runs (.loop f st) s fun t => ∃ u, t = u.signal f w ∧ OnlyFacet s1 u f ∧ SameMem s1 u ∧
    ((u.facet f).stream st).next = ((s1.facet f).stream st).next + 1 ∧
    ((u.facet f).stream st).loops = ((s1.facet f).stream st).loops ++
      [{ start := ((s1.facet f).stream st).next + 1, len := wS1 w, trip := wS0 w, idx := 0 }] ∧
    ((u.facet f).stream st).steps = ((s1.facet f).stream st).steps := by
  refine runs_of_issues h rfl (by decide) ⟨_, rfl, State.issued_onlyFacet s1 f st w, State.issued_sameMem s1 f st w, ?_⟩
  rw [State.stream_issued]
  exact Stream.advance_loop _ h.code

theorem setstep_runs (h : Issues s f st 0x03 s1 w) :
    Runs (.setstep f st) s fun t => ∃ u, t = u.signal f w ∧ OnlyFacet s1 u f ∧ SameMem s1 u ∧
      Tbl.getD ((u.facet f).stream st).steps (3 * bitsOf w.toNat 49 48) 0 = signedOf 16 (wS0 w) ∧
      Tbl.getD ((u.facet f).stream st).steps (3 * bitsOf w.toNat 49 48 + 1) 0 = signedOf 16 (wS1 w) ∧
      Tbl.getD ((u.facet f).stream st).steps (3 * bitsOf w.toNat 49 48 + 2) 0 = signedOf 16 (wS2 w) := by
  refine runs_signal_of_issues h rfl (by decide) fun u hu => ?_
  rw [hu, Facet.stream_modStream]
  exact getD_putInt_level ..

theorem stop_runs (h : Issues s f st 0x04 s1 w) : Runs (.stop f st) s fun t => ∃ u, t = u.signal f w ∧ OnlyFacet s1 u f ∧ SameMem s1 u ∧
    ((u.facet f).stream st).stopped = true ∧ ∀ k, k ≠ st → (u.facet f).stream k = (s1.facet f).stream k := by
  refine runs_signal_of_issues h rfl (by decide) fun u hu => ?_
  rw [hu, Facet.stream_modStream]
  refine ⟨rfl, fun k hk => ?_⟩
  rw [Facet.stream_modStream_ne _ _ hk, State.stream_issued_ne s1 f w hk]

end Sys2Proof.Machine

open Sys2Proof Sys2Proof.Machine

/-- Settles O2: each instruction acts on the state in which it has issued and then signals. -/
theorem controlInstructions : Obligations.ControlInstructions := by
  unfold Obligations.ControlInstructions
  exact fun _ _ _ _ _ => ⟨fun h => runs_of_issues h rfl (by decide) rfl, beat_runs, loop_runs, setstep_runs, stop_runs,
    fun h => runs_of_issues h rfl (by decide) rfl⟩

/-- Settles O3: a counter's increment by whether it fits, and a signal by the state of its facet and the counts of its word. -/
theorem tokensAndSignals : Obligations.TokensAndSignals := by
  unfold Obligations.TokensAndSignals
  refine ⟨fun s f c n => ⟨State.addTok_fits, State.addTok_overflows⟩, fun s f w =>
    ⟨State.signal_faulted, fun hs hn => (State.signal_local hn).trans (State.localSignal_live hs), fun hs hl hn o tag ho ht => ?_⟩⟩
  rw [State.signal, State.localSignal_zero hl, State.farSignal_live hs hn]
  exact State.remoteSignal_sends ho ht

end

section
/-! PROOF. How a facet stops (R49, R71, R72, R76, R468), and the closure of a beat at one facet (R77, R139). -/

namespace Sys2Proof.Machine

/-! ## The exception of a facet (R76) -/

section
variable {s : State} {f : Nat} (code st index detail : Nat)

/-- The first exception of a facet is recorded, with the instant. -/
theorem State.facet_markExc_first (h : (s.facet f).exc = none) : ∃ streams, (s.markExc f code st index detail).facet f =
    { s.facet f with
      exc := some { more := false, code, stream := st, index, detail, at_ := s.now }, state := .faulted, streams := streams } := by
  simp only [State.markExc, h]
  exact ⟨_, State.facet_putFacet ..⟩

/-- A later exception sets MORE, and replaces the recorded one where that gives way. -/
theorem State.facet_markExc_later {e : Exc} (h : (s.facet f).exc = some e) : (s.markExc f code st index detail).facet f =
    { s.facet f with
      exc := some { (if e.yields s.now st code then { e with code, stream := st, index, detail } else e : Exc) with more := true }
      state := .faulted } := by
  simp only [State.markExc, h]
  exact State.facet_putFacet ..

/-- An exception changes its facet and what the recorder is told. -/
theorem State.markExc_eq (s : State) (f code st index detail : Nat) :
    ∃ x loupe, s.markExc f code st index detail = { s.putFacet f x with loupe } := by
  unfold State.markExc
  dsimp only
  split <;> exact ⟨_, _, rfl⟩

theorem State.markExc_onlyFacet (s : State) (f code st index detail : Nat) : OnlyFacet s (s.markExc f code st index detail) f := by
  obtain ⟨x, _, e⟩ := State.markExc_eq s f code st index detail
  rw [e]
  exact OnlyFacet.putFacet s f x

theorem State.markExc_sameMem (s : State) (f code st index detail : Nat) : SameMem s (s.markExc f code st index detail) := by
  obtain ⟨_, _, e⟩ := State.markExc_eq s f code st index detail
  rw [e]
  exact fun _ => rfl

/-- What an exception leaves of its facet: all but FCT_EXC, the state and the streams' waits. -/
theorem State.facet_markExc (s : State) (f code st index detail : Nat) : ∃ exc streams, (s.markExc f code st index detail).facet f =
    { s.facet f with exc := exc, state := .faulted, streams := streams } := by
  cases h : (s.facet f).exc with
  | none =>
    obtain ⟨streams, e⟩ := State.facet_markExc_first code st index detail h
    exact ⟨_, streams, e⟩
  | some e => exact ⟨_, _, State.facet_markExc_later code st index detail h⟩

end

/-- A recorded exception stays at another instant, and where its stream is not the higher one. -/
theorem Exc.not_yields {e : Exc} {now st : Nat} (h : e.at_ ≠ now ∨ e.stream ≤ st) (code : Nat) : e.yields now st code = false := by
  unfold Exc.yields
  rcases h with h | h
  · simp [h]
  · simp [Nat.not_lt.mpr h]

theorem Exc.yields_lower {e : Exc} {now st code : Nat} (ht : e.at_ = now) (hst : st < e.stream) (he : e.code ≠ 0x0E) (hc : code ≠ 0x0E) :
    e.yields now st code = true := by
  simp [Exc.yields, ht, hst, he, hc]

/-! ## The rows of a facet that stops -/

/-- A token wait that has lasted its limit, its counts still not there, raises WAIT_LIMIT (R49). -/
theorem waitLimit_runs {s : State} {f st b lim : Nat} (hf : f < nFacets) (hst : st < 4) (hr : (s.facet f).state = .running)
    (hw : ((s.facet f).stream st).waiting = some (b, lim)) (hl : lim ≠ 0) {w : BitVec 128}
    (he : w = BitVec.ofNat 128 (leNat (s.readBytes (spadAddr f (16 * (((s.facet f).stream st).base + ((s.facet f).stream st).next))) 16)))
    (hc : (s.facet f).counts w = false) :
    Runs (.waitLimit f st) s fun t => t = (s.reach (b + 1000 * lim)).facetExc f 0x0C st ((s.facet f).stream st).next
      (if (s.facet f).tok (wWca w) < wWna w then wWca w else wWcb w) := by
  subst he
  refine ⟨_, rfl, ?_⟩
  dsimp only
  rw [hw]
  dsimp only
  rw [if_neg (by simp [hl, hr, Nat.not_le.mpr hf, Nat.not_le.mpr hst]), hc]
  exact if_neg (by decide)

theorem watchdog_runs {s : State} {f st : Nat} (hf : f < nFacets) (hst : st < 4) (he : (s.facet f).state ≠ .empty) :
    Runs (.watchdog f st) s fun t => t = s.facetExc f 0x0D st ((s.facet f).stream st).next 0 :=
  ⟨_, rfl, if_neg (by simp [he, Nat.not_le.mpr hf, Nat.not_le.mpr hst])⟩

/-- A quiet facet whose four streams stand at a BEAT arrives (R71). -/
theorem facetArrive_runs {s : State} {f : Nat} (hr : (s.facet f).state = .running) (ha : (s.facet f).arrived = none)
    (hq : (s.facet f).quiet = true) (hb : ((List.range 4).all fun k => ((s.facet f).stream k).atBeat) = true) :
    Runs (.facetArrive f) s fun t => t.facet f = { s.facet f with arrived := some s.now } ∧ OnlyFacet s t f ∧ SameMem s t := by
  refine ⟨_, congrArg Host.Outcome.next (if_pos ?_), State.facet_putFacet .., OnlyFacet.putFacet s f _, SameMem.putFacet s f _⟩
  simp only [hr, ha, hq, hb, Option.isNone_none, Bool.and_self, decide_true]

section
variable {s : State} {f : Nat} (hr : (s.facet f).state = .running) (hq : (s.facet f).quiet = true)
  (hs : ((List.range 4).all fun k => ((s.facet f).stream k).stopped) = true)
include hr hq hs

/-- A quiet facet whose four streams have stopped is Done (R72). -/
theorem facetDone_runs (hp : s.parcelOf f = none) :
    Runs (.facetDone f) s fun t => t.facet f = { s.facet f with state := .done } ∧ OnlyFacet s t f ∧ SameMem s t := by
  have hc : ((s.facet f).state = .running && (s.facet f).quiet && (List.range 4).all fun k => ((s.facet f).stream k).stopped) = true := by
    simp [hr, hq, hs]
  have hn : (s.putFacet f { s.facet f with state := .done }).parcelOf f = none := hp
  have e : exec (.facetDone f) s = .next (s.putFacet f { s.facet f with state := .done }) := by
    refine congrArg Host.Outcome.next ((if_pos hc).trans ?_)
    dsimp only
    rw [hn]
  exact ⟨_, e, State.facet_putFacet .., OnlyFacet.putFacet s f _, SameMem.putFacet s f _⟩

/-- The last facet of a job of one device ends the job with DONE (R149). -/
theorem facetDone_ends {p : Nat} {c : Cut} (hp : s.parcelOf f = some p) (hcut : (s.parcel p).cut = some c)
    (hj : (s.parcel p).jobOn = true) (h1 : c.ranktab.length ≤ 1)
    (ha : (s.putFacet f { s.facet f with state := .done }).allDone p = true) :
    Runs (.facetDone f) s fun t => t = (s.putFacet f { s.facet f with state := .done }).endJob p 1 c.rank false := by
  have hc : ((s.facet f).state = .running && (s.facet f).quiet && (List.range 4).all fun k => ((s.facet f).stream k).stopped) = true := by
    simp [hr, hq, hs]
  refine ⟨_, congrArg Host.Outcome.next (if_pos hc), ?_⟩
  dsimp only
  generalize hu : s.putFacet f { s.facet f with state := .done } = u at ha
  have hup : u.parcelOf f = some p := by rw [← hu]; exact hp
  have hpar : u.parcel p = s.parcel p := by rw [← hu]; rfl
  have hd : u.doneElsewhere c = (true, u) := if_pos h1
  rw [hup]
  simp only [hpar, hcut, hj, ha, hd, Bool.and_self, if_true]

end

/-! ## The closure of a beat (R77, R139) -/

/-- Changing every entry of a table changes the entry that is found. -/
theorem Tbl.find_map {α β : Type} (t : Tbl α) (g : α → β) (k : Nat) : Tbl.find (t.map fun e => (e.1, g e.2)) k = (Tbl.find t k).map g := by
  induction t with
  | nil => rfl
  | cons e t ih =>
    rw [List.map_cons, Tbl.find, Tbl.find]
    split
    · rfl
    · exact ih

end Sys2Proof.Machine

open Sys2Proof Sys2Proof.Machine

/-- Settles O8: the first and a later exception, and the rows by what they ask of the facet. -/
theorem facetStops : Obligations.FacetStops := by
  unfold Obligations.FacetStops
  refine ⟨fun s f code st index detail => ?_, fun s f st hf =>
    ⟨fun b lim hst hr hw hl hc => waitLimit_runs hf hst hr hw hl rfl hc, watchdog_runs hf, facetArrive_runs, facetDone_runs,
      fun p c hr hq hs hp hcut hj h1 ha => facetDone_ends hr hq hs hp hcut hj h1 ha⟩⟩
  obtain ⟨exc, streams, hx⟩ := State.facet_markExc s f code st index detail
  refine ⟨by rw [hx], State.markExc_onlyFacet s f code st index detail, State.markExc_sameMem s f code st index detail, by rw [hx],
    by rw [hx], by rw [hx], fun h => ?first, fun e he h => ?stays, fun e he ht hst hc0 hc => ?gives⟩
  case first =>
    obtain ⟨_, e⟩ := State.facet_markExc_first code st index detail h
    exact congrArg Facet.exc e
  case stays =>
    have hy := Exc.not_yields h code
    simp only [State.facet_markExc_later code st index detail he, hy, Bool.false_eq_true, if_false]
  case gives =>
    have hy := Exc.yields_lower ht hst hc0 hc
    simp only [State.facet_markExc_later code st index detail he, hy, if_true]

/-- Settles O14: an arrived facet takes its sample and is released, one that has not arrived stays. -/
theorem facetBeatClosure : Obligations.FacetBeatClosure := by
  unfold Obligations.FacetBeatClosure
  refine fun x now stop => ⟨fun t ht => ?arrived, fun ha hs => ?waits⟩
  case arrived =>
    simp only [Facet.closeBeat, ht, true_and, and_true]
    exact fun k y hk => (Tbl.find_map x.streams (fun y => { y with atBeat := false }) k).trans (by rw [hk]; rfl)
  case waits => simp [Facet.closeBeat, ha, hs]

end

section
/-! PROOF. Facet registers that a read or a write of ones clears (R28, R31, R64, R73, R77, R108, R129). -/

namespace Sys2Proof.Machine

theorem blockAt_TBL {off : Nat} (h : off < 0x1000_0000) : blockAt (baseTBL + off) = some (blkTBL, off) :=
  blockAt_base_add (b := (blkTBL, baseTBL, 0x1000_0000)) (by decide) h

theorem blockAt_FCT {off : Nat} (h : off < 0x6000_0000) : blockAt (baseFCT + off) = some (blkFCT, off) :=
  blockAt_base_add (b := (blkFCT, baseFCT, 0x6000_0000)) (by decide) h

/-- A read that finds a register answers its value in the state that the read leaves. -/
theorem State.readOut_eq {s t : State} {a : Nat} {v : BitVec 64} (h : s.regAt a = some (v, t)) : s.readOut a = t.emit (.readback v) := by
  simp [State.readOut, State.regRead, h]

section
variable {s : State} {f o : Nat}

/-! ## The registers of a facet in the two blocks -/

/-- A register of the table block at one of a facet's offsets. -/
theorem State.readBlock_TBL (hf : f < nFacets) (ho : o < 0x1_0000) : s.readBlock blkTBL (0x1_0000 * f + o) = s.readTbl f o := by
  have hf' : f < 1536 := hf
  have h1 : ¬(0x1_0000 * f + o = 0x800_0000) := by omega
  have h2 : (0x1_0000 * f + o) / 0x1_0000 = f := by omega
  have h3 : (0x1_0000 * f + o) % 0x1_0000 = o := by omega
  have e : s.readBlock blkTBL (0x1_0000 * f + o) = if 0x1_0000 * f + o = 0x800_0000 then s.seen (reg s.mesh.holdlim)
      else if (0x1_0000 * f + o) / 0x1_0000 < nFacets then s.readTbl ((0x1_0000 * f + o) / 0x1_0000) ((0x1_0000 * f + o) % 0x1_0000)
      else none := rfl
  rw [e, if_neg h1, h2, if_pos hf, h3]

/-- A register of the facet block, while the rail of the facet's field is on (R31). -/
theorem State.readBlock_FCT (ho : o < 0x10_0000) (hr : (s.rail (fieldOf f)).set ≠ 0) :
    s.readBlock blkFCT (0x10_0000 * f + o) = s.readFct f o := by
  have h2 : (0x10_0000 * f + o) / 0x10_0000 = f := by omega
  have h3 : (0x10_0000 * f + o) % 0x10_0000 = o := by omega
  have e : s.readBlock blkFCT (0x10_0000 * f + o) =
      if (s.rail (fieldOf ((0x10_0000 * f + o) / 0x10_0000))).set = 0 then none
      else s.readFct ((0x10_0000 * f + o) / 0x10_0000) ((0x10_0000 * f + o) % 0x10_0000) := rfl
  rw [e, h2, h3, if_neg hr]

theorem State.regAt_TBL (hf : f < nFacets) (ho : o < 0x1_0000) (h8 : o % 8 = 0) :
    s.regAt (baseTBL + 0x1_0000 * f + o) = s.readTbl f o := by
  have hf' : f < 1536 := hf
  rw [Nat.add_assoc, State.regAt_aligned (by simp only [baseTBL]; omega) (blockAt_TBL (by omega)), State.readBlock_TBL hf ho]

theorem State.regAt_FCT (hf : f < nFacets) (ho : o < 0x10_0000) (h8 : o % 8 = 0) (hr : (s.rail (fieldOf f)).set ≠ 0) :
    s.regAt (baseFCT + 0x10_0000 * f + o) = s.readFct f o := by
  have hf' : f < 1536 := hf
  rw [Nat.add_assoc, State.regAt_aligned (by simp only [baseFCT]; omega) (blockAt_FCT (by omega)), State.readBlock_FCT ho hr]

/-- TBL_STALL is always there, and a write of it is the write of the facet's stall (R129). -/
theorem State.regWrite_TBL_STALL (hf : f < nFacets) (v : BitVec 64) :
    s.regWrite (baseTBL + 0x1_0000 * f + 0x140) v = s.writeStall f v := by
  have hf' : f < 1536 := hf
  have hr : s.readBlock blkTBL (0x1_0000 * f + 0x140) = some (stallWord (s.facet f).stall, s) := State.readBlock_TBL hf (by decide)
  rw [Nat.add_assoc, State.regWrite_block v (by simp only [baseTBL]; omega) (blockAt_TBL (by omega)) hr]
  have h1 : ¬(0x1_0000 * f + 0x140 = 0x800_0000) := by omega
  have h2 : (0x1_0000 * f + 0x140) / 0x1_0000 = f := by omega
  have h3 : (0x1_0000 * f + 0x140) % 0x1_0000 = 0x140 := by omega
  have e (off : Nat) : s.writeBlock blkTBL off v =
      if off = 0x800_0000 then if bitsOf v.toNat 23 0 = 0 then s else { s with mesh := { s.mesh with holdlim := bitsOf v.toNat 23 0 } }
      else if off % 0x1_0000 = 0 then s.writeBankPwr (off / 0x1_0000) v
      else if off % 0x1_0000 = 0x140 then s.writeStall (off / 0x1_0000) v else s := rfl
  rw [e, if_neg h1, h2, h3]
  rfl

/-- A write of FCT_FPFLAGS is the facet's write (R64). -/
theorem State.regWrite_FCT_FPFLAGS (hf : f < nFacets) (hr : (s.rail (fieldOf f)).set ≠ 0) (v : BitVec 64) :
    s.regWrite (baseFCT + 0x10_0000 * f + 0x30) v = s.modFacet f fun x =>
      { x with
        fpVec := x.fpVec &&& ~~~(BitVec.ofNat 5 (bitsOf v.toNat 9 5)), fpMat := x.fpMat &&& ~~~(BitVec.ofNat 5 (bitsOf v.toNat 4 0)) } := by
  have hf' : f < 1536 := hf
  have hb : s.readBlock blkFCT (0x10_0000 * f + 0x30) =
      some (pack [(5, 5, (s.facet f).fpVec.toNat), (0, 5, (s.facet f).fpMat.toNat)], s) := State.readBlock_FCT (by decide) hr
  rw [Nat.add_assoc, State.regWrite_block v (by simp only [baseFCT]; omega) (blockAt_FCT (by omega)) hb]
  have h2 : (0x10_0000 * f + 0x30) / 0x10_0000 = f := by omega
  have h3 : (0x10_0000 * f + 0x30) % 0x10_0000 = 0x30 := by omega
  have e (off : Nat) : s.writeBlock blkFCT off v = s.writeFct (off / 0x10_0000) (off % 0x10_0000) v := rfl
  rw [e, h2, h3]
  rfl

end

/-- Bit `i` of a field of a word is bit `lo + i` of the word. -/
theorem bitsOf_testBit (n hi lo : Nat) {i : Nat} (h : i < hi + 1 - lo) : (bitsOf n hi lo).testBit i = n.testBit (lo + i) := by
  rw [bitsOf, Nat.testBit_mod_two_pow, decide_eq_true h, Bool.true_and, Nat.testBit_div_two_pow, Nat.add_comm]

/-- Five flags lose exactly the bits that are written as one. -/
theorem flags_cleared (x : BitVec 5) (v : BitVec 64) (lo : Nat) {i : Nat} (hi : i < 5) :
    (x &&& ~~~(BitVec.ofNat 5 (bitsOf v.toNat (lo + 4) lo))).getLsbD i = (x.getLsbD i && !v.getLsbD (lo + i)) := by
  have hb : (BitVec.ofNat 5 (bitsOf v.toNat (lo + 4) lo)).getLsbD i = v.getLsbD (lo + i) := by
    rw [BitVec.getLsbD_ofNat, decide_eq_true hi, Bool.true_and, bitsOf_testBit _ _ _ (by omega)]
    rfl
  rw [BitVec.getLsbD_and, BitVec.getLsbD_not, hb, decide_eq_true hi, Bool.true_and]

/-- TBL_STALL: a one in VALID clears the stall, a one in MORE its MORE (R129). -/
theorem stall_cleared (v : BitVec 64) (x : Option Stall) :
    (if v.getLsbD 63 then none else if v.getLsbD 62 then x.map fun t => { t with more := false } else x : Option Stall) =
      if v.getLsbD 63 then none else x.map fun t => if v.getLsbD 62 then { t with more := false } else t := by
  cases v.getLsbD 62
  · cases x <;> rfl
  · rfl

end Sys2Proof.Machine

open Sys2Proof Sys2Proof.Machine

/-- Settles O12: each register is found at its facet's offset in its block, and its row's own read or write follows. -/
theorem facetRegisters : Obligations.FacetRegisters := by
  unfold Obligations.FacetRegisters
  refine fun s f hf => ⟨fun v => ?stall, fun v hr => ?flags, fun hr => ?discard, fun hr => ?slack, ?ecc⟩
  case stall =>
    refine ⟨_, congrArg Host.Outcome.next (State.regWrite_TBL_STALL hf v), OnlyFacet.modFacet s f _, SameMem.modFacet s f _, ?_⟩
    rw [State.writeStall, State.facet_modFacet]
    exact stall_cleared ..
  case flags =>
    refine ⟨_, congrArg Host.Outcome.next (State.regWrite_FCT_FPFLAGS hf hr v), OnlyFacet.modFacet s f _, SameMem.modFacet s f _,
      fun i hi => ?_⟩
    rw [State.facet_modFacet]
    exact ⟨(flags_cleared _ v 0 hi).trans (by rw [Nat.zero_add]), flags_cleared _ v 5 hi⟩
  case discard =>
    exact ⟨_, congrArg Host.Outcome.next (State.readOut_eq (State.regAt_FCT hf (by decide) rfl hr)), _, rfl, OnlyFacet.modFacet s f _,
      State.facet_modFacet ..⟩
  case slack =>
    exact ⟨_, congrArg Host.Outcome.next (State.readOut_eq (State.regAt_FCT hf (by decide) rfl hr)), _, rfl, OnlyFacet.modFacet s f _,
      State.facet_modFacet ..⟩
  case ecc =>
    exact ⟨_, congrArg Host.Outcome.next (State.readOut_eq (State.regAt_TBL hf (by decide) rfl)), _, rfl, OnlyFacet.modFacet s f _,
      State.facet_modFacet ..⟩

end

section
/-! PROOF. The registers of the engines (R61, R91): vector registers and accumulator tiles are ranges of a table, written as a whole. -/

namespace Sys2Proof.Machine

/-! ## A range of a table -/

section
variable {α : Type}

theorem Tbl.find_append (a b : Tbl α) (k : Nat) : Tbl.find (a ++ b) k = (Tbl.find a k).or (Tbl.find b k) := by
  induction a with
  | nil => rfl
  | cons e a ih =>
    rw [List.cons_append, Tbl.find, Tbl.find]
    split
    · rfl
    · exact ih

/-- Keeping the entries of some keys keeps what is found at them. -/
theorem Tbl.find_filter (t : Tbl α) (p : Nat → Bool) (k : Nat) :
    Tbl.find (t.filter fun e => p e.1) k = if p k then Tbl.find t k else none := by
  induction t with
  | nil => simp [Tbl.find]
  | cons e t ih =>
    obtain ⟨n, v⟩ := e
    rw [List.filter_cons]
    by_cases hp : p n = true
    · rw [if_pos hp, Tbl.find, Tbl.find, ih]
      split
      next h => rw [← h, if_pos hp]
      next => rfl
    · rw [if_neg hp, ih, Tbl.find]
      by_cases hk : n = k
      · rw [← hk, if_neg hp, if_neg hp]
      · rw [if_neg hk]

theorem Tbl.find_eq_none {t : Tbl α} {k : Nat} (h : ∀ e ∈ t, e.1 ≠ k) : Tbl.find t k = none := by
  induction t with
  | nil => rfl
  | cons e t ih =>
    rw [Tbl.find, if_neg (h e (List.mem_cons_self ..))]
    exact ih fun e he => h e (List.mem_cons_of_mem _ he)

/-- What is found after a range has new entries: in the range the new ones, elsewhere the old ones. -/
theorem Tbl.find_replace (t : Tbl α) (lo n : Nat) {new : Tbl α} (hn : ∀ e ∈ new, lo ≤ e.1 ∧ e.1 < lo + n) (k : Nat) :
    Tbl.find (Tbl.replace t lo n new) k = if lo ≤ k ∧ k < lo + n then Tbl.find new k else Tbl.find t k := by
  rw [Tbl.replace, Tbl.find_append, Tbl.find_append, Tbl.find_filter t (fun m => decide (m < lo)),
    Tbl.find_filter t (fun m => decide (lo + n ≤ m))]
  by_cases h : lo ≤ k ∧ k < lo + n
  · rw [if_pos h, if_neg (by simp; omega), if_neg (by simp; omega), Option.none_or, Option.or_none]
  · have hnew : Tbl.find new k = none := Tbl.find_eq_none fun e he hk => h (hk ▸ hn e he)
    rw [if_neg h, hnew, Option.or_none]
    by_cases hlo : k < lo
    · rw [if_pos (by simp; omega), if_neg (by simp; omega), Option.or_none]
    · rw [if_neg (by simp; omega), if_pos (by simp; omega), Option.none_or]

/-! ## The entries of a list, its default values unlisted -/

variable {β : Type} [DecidableEq β]

/-- The entries of a list at the keys from `b` on, its default values unlisted. -/
def listed (b : Nat) (d : β) (g : β → α) (l : List (β × Nat)) : Tbl α :=
  l.filterMap fun e => if e.1 = d then none else some (b + e.2, g e.1)

theorem listed_key {b : Nat} {d : β} {g : β → α} {l : List β} {n : Nat} {e : Nat × α} (h : e ∈ listed b d g (l.zipIdx n)) :
    b + n ≤ e.1 ∧ e.1 < b + n + l.length := by
  obtain ⟨⟨v, i⟩, hv, he⟩ := List.mem_filterMap.mp h
  obtain ⟨h1, h2, _⟩ := List.mem_zipIdx hv
  dsimp only at he
  split at he
  · cases he
  · obtain rfl := Option.some.inj he
    exact ⟨by omega, by dsimp only; omega⟩

/-- What is found of a list's entries. -/
theorem getD_listed (b : Nat) (d : β) (g : β → α) (l : List β) (n j : Nat) :
    Tbl.getD (listed b d g (l.zipIdx n)) (b + (n + j)) (g d) = g (l.getD j d) := by
  induction l generalizing n j with
  | nil => rfl
  | cons v l ih =>
    have hrest : Tbl.find (listed b d g (l.zipIdx (n + 1))) (b + n) = none :=
      Tbl.find_eq_none fun e he hk => by have := (listed_key he).1; omega
    have hcons : listed b d g ((v :: l).zipIdx n) =
        (if v = d then [] else [(b + n, g v)]) ++ listed b d g (l.zipIdx (n + 1)) := by
      rw [List.zipIdx_cons, listed, List.filterMap_cons]
      split <;> rename_i h <;> split at h <;> rename_i hv
      · rw [if_pos hv]; rfl
      · cases h
      · cases h
      · obtain rfl := Option.some.inj h
        rw [if_neg hv]; rfl
    rw [hcons, Tbl.getD, Tbl.find_append]
    cases j with
    | zero =>
      rw [Nat.add_zero, hrest, Option.or_none]
      split
      next hv => rw [List.getD_cons_zero, hv]; rfl
      next => simp [Tbl.find]
    | succ j =>
      have hhead : Tbl.find (if v = d then [] else [(b + n, g v)] : Tbl α) (b + (n + (j + 1))) = none :=
        Tbl.find_eq_none fun e he => by
          split at he
          · cases he
          · obtain rfl := List.mem_singleton.mp he
            dsimp only
            omega
      rw [hhead, Option.none_or, List.getD_cons_succ, ← ih (n + 1) j, Tbl.getD, Nat.add_right_comm n 1 j, Nat.add_assoc n j 1]

/-- What is read, from a range of a table that a list was written to, with the default that is not listed. -/
theorem getD_replace_listed (t : Tbl α) (b n : Nat) (d : β) (g : β → α) {l : List β} (hl : l.length ≤ n) {j : Nat} (hj : j < n) :
    Tbl.getD (Tbl.replace t b n (listed b d g l.zipIdx)) (b + j) (g d) = g (l.getD j d) := by
  rw [Tbl.getD, Tbl.find_replace _ _ _ (fun e he => by have := listed_key he; omega), if_pos (by omega)]
  have h := getD_listed b d g l 0 j
  rwa [Nat.zero_add] at h

theorem getD_replace_listed_outside (t : Tbl α) (b n : Nat) (d : β) (g : β → α) {l : List β} (hl : l.length ≤ n) {k : Nat}
    (hk : k < b ∨ b + n ≤ k) (x : α) :
    Tbl.getD (Tbl.replace t b n (listed b d g l.zipIdx)) k x = Tbl.getD t k x := by
  rw [Tbl.getD, Tbl.find_replace _ _ _ (fun e he => by have := listed_key he; omega), if_neg (by omega), Tbl.getD]

end

theorem getD_range_map {α : Type} (n : Nat) (g : Nat → α) {j : Nat} (h : j < n) (d : α) : ((List.range n).map g).getD j d = g j := by
  simp [List.getD, h]

/-! ## Vector registers (R61) -/

theorem Facet.vregs_setLanes (x : Facet) (r : Nat) (ls : List Nat) :
    (x.setLanes r ls).vregs = Tbl.replace x.vregs (64 * r) 64 (listed (64 * r) 0 (BitVec.ofNat 64) ls.zipIdx) := rfl

@[simp] theorem Facet.length_lanes (x : Facet) (r : Nat) : (x.lanes r).length = 64 := by simp [Facet.lanes]

theorem Facet.lanes_of_vregs {x y : Facet} (h : x.vregs = y.vregs) (r : Nat) : x.lanes r = y.lanes r := by
  rw [Facet.lanes, h, Facet.lanes]

/-- A lane that is written reads back in 64 bits; one past the list reads zero. -/
theorem Facet.lane_setLanes (x : Facet) (r : Nat) {ls : List Nat} (hl : ls.length ≤ 64) {l : Nat} (h : l < 64) :
    ((x.setLanes r ls).lanes r).getD l 0 = ls.getD l 0 % 2 ^ 64 := by
  rw [Facet.lanes, getD_range_map _ _ h, Facet.vregs_setLanes]
  exact congrArg BitVec.toNat (getD_replace_listed x.vregs (64 * r) 64 0 (BitVec.ofNat 64) hl h)

theorem Facet.lanes_setLanes_ne (x : Facet) {r k : Nat} {ls : List Nat} (hl : ls.length ≤ 64) (h : k ≠ r) :
    (x.setLanes r ls).lanes k = x.lanes k := by
  refine List.map_congr_left fun l hm => congrArg BitVec.toNat ?_
  have hl64 := List.mem_range.mp hm
  rw [Facet.vregs_setLanes]
  exact getD_replace_listed_outside _ _ _ _ _ hl (by omega) 0

/-! ## Accumulator tiles (R91) -/

theorem Facet.acc_setCells (x : Facet) (t : Nat) (cs : List AccCell) :
    (x.setCells t cs).acc = Tbl.replace x.acc (2048 * t) 2048 (listed (2048 * t) AccCell.zero id cs.zipIdx) := rfl

@[simp] theorem Facet.length_cells (x : Facet) (t : Nat) : (x.cells t).length = 2048 := by simp [Facet.cells]

/-- A tile that is written holds its cells, those past the list zero. -/
theorem Facet.cells_setCells (x : Facet) (t : Nat) {cs : List AccCell} (hl : cs.length ≤ 2048) :
    (x.setCells t cs).cells t = (List.range 2048).map fun n => cs.getD n AccCell.zero := by
  refine List.map_congr_left fun n hm => ?_
  rw [Facet.acc_setCells]
  exact getD_replace_listed x.acc (2048 * t) 2048 AccCell.zero id hl (List.mem_range.mp hm)

/-- A whole tile that is written reads back. -/
theorem Facet.cells_setCells_whole (x : Facet) (t : Nat) {cs : List AccCell} (hl : cs.length = 2048) : (x.setCells t cs).cells t = cs := by
  rw [Facet.cells_setCells x t (Nat.le_of_eq hl)]
  refine List.ext_getElem (by simp [hl]) fun n h1 h2 => ?_
  simp [List.getD, h2]

theorem Facet.cells_setCells_nil (x : Facet) (t : Nat) : (x.setCells t []).cells t = List.replicate 2048 AccCell.zero := by
  rw [Facet.cells_setCells x t (Nat.zero_le _)]
  refine (List.map_congr_left fun n _ => List.getD_nil).trans ?_
  rw [List.map_const', List.length_range]

theorem Facet.cells_setCells_ne (x : Facet) {t k : Nat} {cs : List AccCell} (hl : cs.length ≤ 2048) (h : k ≠ t) :
    (x.setCells t cs).cells k = x.cells k := by
  refine List.map_congr_left fun n hm => ?_
  have hn := List.mem_range.mp hm
  rw [Facet.acc_setCells]
  exact getD_replace_listed_outside _ _ _ _ _ hl (by omega) _

end Sys2Proof.Machine
end

section
/-! PROOF. The vector operations: what each writes, lane by lane, and how they issue and complete (R62, R63, R97 to R100). -/

namespace Sys2Proof.Machine

/-! ## Lists of lanes -/

section
variable {α : Type}

theorem getD_zip_map (a b : List Nat) (g : (Nat × Nat) × Nat → α) {l : Nat} (ha : l < a.length) (hb : l < b.length) (d : α) :
    ((List.zip a b).zipIdx.map g).getD l d = g ((a.getD l 0, b.getD l 0), l) := by
  simp [List.getD, ha, hb, List.zip]

theorem getD_zip3_map (a b c : List Nat) (g : (Nat × Nat) × Nat → α) {l : Nat} (ha : l < a.length) (hb : l < b.length)
    (hc : l < c.length) (d : α) : ((List.zip (List.zip a b) c).map g).getD l d = g ((a.getD l 0, b.getD l 0), c.getD l 0) := by
  simp [List.getD, ha, hb, hc, List.zip]

theorem getD_zipWith (a b : List Nat) (g : Nat → Nat → α) {l : Nat} (ha : l < a.length) (hb : l < b.length) (d : α) :
    (List.zipWith g a b).getD l d = g (a.getD l 0) (b.getD l 0) := by
  simp [List.getD, ha, hb]

end

/-- Lanes that set no flag set none together. -/
theorem foldl_flags_zero {rs : List (Nat × Nat)} (h : ∀ r ∈ rs, r.2 = 0) : rs.foldl (fun fl r => fl ||| r.2) 0 = 0 := by
  induction rs with
  | nil => rfl
  | cons r rs ih =>
    rw [List.foldl_cons, h r (List.mem_cons_self ..), Nat.or_zero]
    exact ih fun r hr => h r (List.mem_cons_of_mem _ hr)

/-! ## A mask from its lanes -/

/-- The number whose bits are a list's, the first one lowest. -/
def bitsValue : List Bool → Nat
  | [] => 0
  | b :: t => bit b + 2 * bitsValue t

theorem sum_bits (l : List Bool) (n : Nat) : ((l.zipIdx n).map fun e => bit e.1 * 2 ^ e.2).sum = 2 ^ n * bitsValue l := by
  induction l generalizing n with
  | nil => rfl
  | cons b l ih =>
    rw [List.zipIdx_cons, List.map_cons, List.sum_cons, ih, bitsValue]
    ring

theorem testBit_bitsValue (l : List Bool) (j : Nat) : (bitsValue l).testBit j = l.getD j false := by
  induction l generalizing j with
  | nil => simp [bitsValue]
  | cons b l ih =>
    cases j with
    | zero => cases b <;> simp [bitsValue, bit, Nat.add_mod]
    | succ j =>
      have hb : bit b ≤ 1 := by cases b <;> decide
      have hb : (bit b + 2 * bitsValue l) / 2 = bitsValue l := by omega
      rw [bitsValue, Nat.testBit_succ, hb, ih, List.getD_cons_succ]

/-- The bits of a mask that lanes write. -/
theorem getLsbD_mask (l : List Bool) {j : Nat} (h : j < 64) :
    (BitVec.ofNat 64 (l.zipIdx.map fun e => bit e.1 * 2 ^ e.2).sum).getLsbD j = l.getD j false := by
  rw [BitVec.getLsbD_ofNat, decide_eq_true h, Bool.true_and, sum_bits, Nat.pow_zero, Nat.one_mul, testBit_bitsValue]

/-! ## What a vector operation writes -/

/-- The low bits of a register's lanes, for a format. -/
def Facet.low (x : Facet) (fmt r : Nat) : List Nat := (x.lanes r).map (· % 2 ^ fmtBits fmt)

@[simp] theorem Facet.length_low (x : Facet) (fmt r : Nat) : (x.low fmt r).length = 64 := by simp [Facet.low]

/-- The results of a lane operation. -/
def Facet.laneResults (x : Facet) (w : BitVec 128) : List (Nat × Nat) :=
  (List.zip (List.zip (x.low (wHi w) (wVa w)) (x.low (wHi w) (wVb w))) (x.low (wHi w) (wVc w))).map fun e =>
    laneResult w e.1.1 e.1.2 e.2

section
variable (x : Facet) {w : BitVec 128}

theorem Facet.vector_vcmp (h : wOp w = 0x58) : x.vector w =
    { x with
      hskv := x.hskv + BitVec.ofNat 64 (vecHandshakes w)
      masks := x.masks.put (wVd w) (BitVec.ofNat 64 ((List.zipWith (fun p q => laneCmp (wHi w) (wLo w) p q) (x.low (wHi w) (wVa w))
        (x.low (wHi w) (wVb w))).zipIdx.map fun e => bit e.1 * 2 ^ e.2).sum) } := by
  unfold Facet.vector
  rw [h]
  rfl

theorem Facet.vector_vsel (h : wOp w = 0x59) : x.vector w =
    Facet.setLanes { x with hskv := x.hskv + BitVec.ofNat 64 (vecHandshakes w) } (wVd w)
      ((List.zip (x.low (wHi w) (wVa w)) (x.low (wHi w) (wVb w))).zipIdx.map fun e =>
        quietNan (wHi w) (if (x.mask (wVm w)).getLsbD e.2 then e.1.1 else e.1.2)) := by
  unfold Facet.vector
  rw [h]
  rfl

theorem Facet.vector_vrsum (h : wOp w = 0x5B) : ∃ fl, x.vector w =
    (Facet.setLanes { x with hskv := x.hskv + BitVec.ofNat 64 (vecHandshakes w) } (wVd w)
      [(reduceTree (fun p q => laneBinary 0x50 (wHi w) (wRound w) p q) 6 (x.low (wHi w) (wVa w))).1.headD 0]).vecFlags fl := by
  unfold Facet.vector
  rw [h]
  exact ⟨_, rfl⟩

theorem Facet.vector_vrmax (h : wOp w = 0x5C) : x.vector w =
    Facet.setLanes { x with hskv := x.hskv + BitVec.ofNat 64 (vecHandshakes w) } (wVd w)
      [(reduceTree (fun p q => laneBinary 0x54 (wHi w) 0 p q) 6 (x.low (wHi w) (wVa w))).1.headD 0] := by
  unfold Facet.vector
  rw [h]
  rfl

/-- Any other operation fills its register lane by lane. -/
theorem Facet.vector_lanewise (h58 : wOp w ≠ 0x58) (h59 : wOp w ≠ 0x59) (h5B : wOp w ≠ 0x5B) (h5C : wOp w ≠ 0x5C) : x.vector w =
    (Facet.setLanes { x with hskv := x.hskv + BitVec.ofNat 64 (vecHandshakes w) } (wVd w) ((x.laneResults w).map (·.1))).vecFlags
      ((x.laneResults w).foldl (fun fl r => fl ||| r.2) 0) := by
  unfold Facet.vector
  dsimp only
  split
  next h => exact absurd h h58
  next h => exact absurd h h59
  next h => exact absurd h h5B
  next h => exact absurd h h5C
  next => rfl

@[simp] theorem Facet.length_laneResults (w : BitVec 128) : (x.laneResults w).length = 64 := by simp [Facet.laneResults]

/-- A vector operation writes one register or one mask, the flags and the count of handshakes. -/
theorem Facet.vector_eq (x : Facet) (w : BitVec 128) :
    ∃ vregs masks fpVec, x.vector w = { x with
      hskv := x.hskv + BitVec.ofNat 64 (vecHandshakes w), vregs := vregs, masks := masks, fpVec := fpVec } ∧
      ∀ r, r ≠ wVd w → Facet.lanes { x with vregs := vregs } r = x.lanes r := by
  by_cases h58 : wOp w = 0x58
  · exact ⟨_, _, _, Facet.vector_vcmp x h58, fun _ _ => rfl⟩
  by_cases h59 : wOp w = 0x59
  · exact ⟨_, _, _, Facet.vector_vsel x h59, fun r hr => Facet.lanes_setLanes_ne x (by simp) hr⟩
  by_cases h5B : wOp w = 0x5B
  · obtain ⟨fl, e⟩ := Facet.vector_vrsum x h5B
    exact ⟨_, _, _, e, fun r hr => Facet.lanes_setLanes_ne x (by simp) hr⟩
  by_cases h5C : wOp w = 0x5C
  · exact ⟨_, _, _, Facet.vector_vrmax x h5C, fun r hr => Facet.lanes_setLanes_ne x (by simp) hr⟩
  · exact ⟨_, _, _, Facet.vector_lanewise x h58 h59 h5B h5C, fun r hr => Facet.lanes_setLanes_ne x (by simp) hr⟩

/-! ### Each operation's destination -/

theorem Facet.mask_vcmp (h : wOp w = 0x58) : (x.vector w).vregs = x.vregs ∧ (∀ m, m ≠ wVd w → (x.vector w).mask m = x.mask m) ∧
    ∀ l < 64, ((x.vector w).mask (wVd w)).getLsbD l =
      laneCmp (wHi w) (wLo w) ((x.low (wHi w) (wVa w)).getD l 0) ((x.low (wHi w) (wVb w)).getD l 0) := by
  rw [Facet.vector_vcmp x h]
  refine ⟨rfl, fun m hm => Tbl.getD_put_ne _ hm .., fun l hl => ?_⟩
  rw [Facet.mask, Tbl.getD_put_self, getLsbD_mask _ hl]
  exact getD_zipWith _ _ _ (by simpa using hl) (by simpa using hl) _

theorem Facet.lane_vsel (h : wOp w = 0x59) : (x.vector w).masks = x.masks ∧ ∀ l < 64, ((x.vector w).lanes (wVd w)).getD l 0 =
    quietNan (wHi w) (if (x.mask (wVm w)).getLsbD l then (x.low (wHi w) (wVa w)).getD l 0 else (x.low (wHi w) (wVb w)).getD l 0) %
      2 ^ 64 := by
  rw [Facet.vector_vsel x h]
  refine ⟨rfl, fun l hl => ?_⟩
  rw [Facet.lane_setLanes _ _ (by simp) hl, getD_zip_map _ _ _ (by simpa using hl) (by simpa using hl)]

/-- A reduction leaves the value of its tree in lane 0 and zeros in the others. -/
theorem Facet.lane_setLanes_one (x : Facet) (r v : Nat) : ((x.setLanes r [v]).lanes r).getD 0 0 = v % 2 ^ 64 ∧
    ∀ l, 1 ≤ l → l < 64 → ((x.setLanes r [v]).lanes r).getD l 0 = 0 := by
  refine ⟨Facet.lane_setLanes x r (by simp) (by decide), fun l h1 hl => ?_⟩
  obtain ⟨k, rfl⟩ := Nat.exists_eq_add_of_le' h1
  exact Facet.lane_setLanes x r (by simp) hl

theorem Facet.lane_vrsum (h : wOp w = 0x5B) : (x.vector w).masks = x.masks ∧
    ((x.vector w).lanes (wVd w)).getD 0 0 =
      (reduceTree (fun p q => laneBinary 0x50 (wHi w) (wRound w) p q) 6 (x.low (wHi w) (wVa w))).1.headD 0 % 2 ^ 64 ∧
    ∀ l, 1 ≤ l → l < 64 → ((x.vector w).lanes (wVd w)).getD l 0 = 0 := by
  obtain ⟨fl, e⟩ := Facet.vector_vrsum x h
  rw [e]
  exact ⟨rfl, Facet.lane_setLanes_one ..⟩

theorem Facet.lane_vrmax (h : wOp w = 0x5C) : (x.vector w).masks = x.masks ∧
    ((x.vector w).lanes (wVd w)).getD 0 0 =
      (reduceTree (fun p q => laneBinary 0x54 (wHi w) 0 p q) 6 (x.low (wHi w) (wVa w))).1.headD 0 % 2 ^ 64 ∧
    ∀ l, 1 ≤ l → l < 64 → ((x.vector w).lanes (wVd w)).getD l 0 = 0 := by
  rw [Facet.vector_vrmax x h]
  exact ⟨rfl, Facet.lane_setLanes_one ..⟩

theorem Facet.lane_lanewise (h58 : wOp w ≠ 0x58) (h59 : wOp w ≠ 0x59) (h5B : wOp w ≠ 0x5B) (h5C : wOp w ≠ 0x5C) :
    (x.vector w).masks = x.masks ∧ ∀ l < 64, ((x.vector w).lanes (wVd w)).getD l 0 =
      (laneResult w ((x.low (wHi w) (wVa w)).getD l 0) ((x.low (wHi w) (wVb w)).getD l 0) ((x.low (wHi w) (wVc w)).getD l 0)).1 %
        2 ^ 64 := by
  rw [Facet.vector_lanewise x h58 h59 h5B h5C]
  refine ⟨rfl, fun l hl => (Facet.lane_setLanes _ _ (by simp) hl).trans ?_⟩
  rw [Facet.laneResults, List.map_map, getD_zip3_map _ _ _ _ (by simpa using hl) (by simpa using hl) (by simpa using hl)]
  rfl

/-! ### Operations that set no flag (R98, R99) -/

theorem laneBinary_54_flags (fmt m a b : Nat) : (laneBinary 0x54 fmt m a b).2 = 0 := by
  unfold laneBinary
  split <;> rfl

theorem laneBinary_55_flags (fmt m a b : Nat) : (laneBinary 0x55 fmt m a b).2 = 0 := by
  unfold laneBinary
  split <;> rfl

/-- VMAX, VMIN, VABS and VNEG set no flag in any lane. -/
theorem laneResult_flags (h : 0x54 ≤ wOp w ∧ wOp w ≤ 0x57) (a b c : Nat) : (laneResult w a b c).2 = 0 := by
  obtain h | h | h | h : wOp w = 0x54 ∨ wOp w = 0x55 ∨ wOp w = 0x56 ∨ wOp w = 0x57 := by omega
  all_goals
    unfold laneResult
    rw [h]
  case inl => exact laneBinary_54_flags ..
  case inr.inl => exact laneBinary_55_flags ..
  all_goals rfl

theorem Facet.fpVec_vector (h : 0x54 ≤ wOp w ∧ wOp w ≤ 0x57) : (x.vector w).fpVec = x.fpVec := by
  have hz : (x.laneResults w).foldl (fun fl r => fl ||| r.2) 0 = 0 := foldl_flags_zero fun r hr => by
    obtain ⟨e, _, rfl⟩ := List.mem_map.mp hr
    exact laneResult_flags h ..
  rw [Facet.vector_lanewise x (by omega) (by omega) (by omega) (by omega), hz]
  exact BitVec.or_zero

end

/-! ## Integer lanes (R99) -/

section
variable {a b : Nat}

theorem toInt_ofNat32 (ha : a < 2 ^ 32) : (BitVec.ofNat 32 a).toInt = signedOf 32 a := by
  rw [BitVec.toInt_eq_toNat_cond, BitVec.toNat_ofNat, Nat.mod_eq_of_lt ha, signedOf]
  split <;> split <;> omega

theorem wrapInt_toInt (x : BitVec 32) : wrapInt 32 x.toInt = x.toNat := by
  have := x.isLt
  rw [wrapInt, BitVec.toInt_eq_toNat_cond]
  split <;> omega

theorem i32_arith (ha : a < 2 ^ 32) (hb : b < 2 ^ 32) :
    i32Op 0x50 a b = (a + b) % 2 ^ 32 ∧ i32Op 0x51 a b = (a + (2 ^ 32 - b)) % 2 ^ 32 ∧ i32Op 0x52 a b = a * b % 2 ^ 32 := by
  simp only [i32Op, BitVec.toNat_add, BitVec.toNat_sub, BitVec.toNat_mul, BitVec.toNat_ofNat, Nat.mod_eq_of_lt ha, Nat.mod_eq_of_lt hb,
    true_and, and_true]
  omega

theorem i32_bitwise (ha : a < 2 ^ 32) (hb : b < 2 ^ 32) :
    i32Op 0x60 a b = a &&& b ∧ i32Op 0x61 a b = a ||| b ∧ i32Op 0x62 a b = a ^^^ b := by
  simp only [i32Op, BitVec.toNat_and, BitVec.toNat_or, BitVec.toNat_xor, BitVec.toNat_ofNat, Nat.mod_eq_of_lt ha, Nat.mod_eq_of_lt hb,
    and_self]

/-- VMAX and VMIN compare as signed integers. -/
theorem i32_compare (ha : a < 2 ^ 32) (hb : b < 2 ^ 32) :
    i32Op 0x54 a b = (if signedOf 32 a < signedOf 32 b then b else a) ∧
    i32Op 0x55 a b = (if signedOf 32 a < signedOf 32 b then a else b) := by
  simp only [i32Op, BitVec.slt, toInt_ofNat32 ha, toInt_ofNat32 hb, decide_eq_true_eq, apply_ite BitVec.toNat, BitVec.toNat_ofNat,
    Nat.mod_eq_of_lt ha, Nat.mod_eq_of_lt hb, true_and]
  rcases lt_trichotomy (signedOf 32 a) (signedOf 32 b) with h | h | h
  · rw [if_neg (by omega), if_pos h]
  · have hab : a = b := by
      simp only [signedOf] at h
      split at h <;> split at h <;> omega
    simp [hab]
  · rw [if_pos h, if_neg (by omega)]

/-- The shifts take b[4:0]; the right shift keeps the sign. -/
theorem i32_shift (ha : a < 2 ^ 32) (b : Nat) :
    i32Op 0x63 a b = a * 2 ^ (b % 32) % 2 ^ 32 ∧ i32Op 0x64 a b = wrapInt 32 (signedOf 32 a / 2 ^ (b % 32)) := by
  refine ⟨?_, ?_⟩
  · simp only [i32Op, BitVec.toNat_shiftLeft, BitVec.toNat_ofNat, Nat.mod_eq_of_lt ha, Nat.shiftLeft_eq]
  · rw [← toInt_ofNat32 ha]
    have h : ((BitVec.ofNat 32 a).sshiftRight (b % 32)).toInt = (BitVec.ofNat 32 a).toInt / 2 ^ (b % 32) := by
      rw [BitVec.toInt_sshiftRight, Int.shiftRight_eq_div_pow]
      push_cast
      rfl
    rw [← h, wrapInt_toInt]
    rfl

end

/-! ## Issue and completion (R62, R63) -/

/-- What an issued vector instruction leaves: its result and its signals after one handshake, else an entry of the engine. -/
def VectorIssued (s s1 : State) (f st : Nat) (w : BitVec 128) (t : State) : Prop :=
  ∃ u, OnlyFacet s1 u f ∧ SameMem s1 u ∧
    (vecHandshakes w = 1 → t = u.signal f w ∧ u.facet f = ((s1.issued f st w).facet f).vector w) ∧
    (vecHandshakes w ≠ 1 → t = u ∧ (u.facet f).vregs = (s1.facet f).vregs ∧ (u.facet f).inflight = (s1.facet f).inflight ++
      [{ stream := st, index := ((s.facet f).stream st).next, word := w
         e0 := (((s.facet f).stream st).slot w 0).toNat, e1 := (((s.facet f).stream st).slot w 1).toNat }])

/-- An instruction that enters its engine. -/
theorem State.enterFlight_issued (s s1 : State) (f st : Nat) (w : BitVec 128) :
    OnlyFacet s1 ((s1.issued f st w).enterFlight (issuedAs s f st w)) f ∧
    SameMem s1 ((s1.issued f st w).enterFlight (issuedAs s f st w)) ∧
    (((s1.issued f st w).enterFlight (issuedAs s f st w)).facet f) = { (s1.issued f st w).facet f with
      inflight := (s1.facet f).inflight ++ [{ stream := st, index := ((s.facet f).stream st).next, word := w
                                              e0 := (((s.facet f).stream st).slot w 0).toNat
                                              e1 := (((s.facet f).stream st).slot w 1).toNat }] } := by
  refine ⟨(State.issued_onlyFacet s1 f st w).trans (OnlyFacet.modFacet _ f _), fun _ => rfl, (State.facet_modFacet ..).trans ?_⟩
  rw [← State.issued_part (p := Facet.inflight) (fun _ _ _ => rfl) s1 f st w]
  rfl

theorem vectorOp_runs {s s1 : State} {f st op : Nat} {w : BitVec 128} {c : Instr} (h : Issues s f st op s1 w)
    (hc : exec c s = .next (s.vectorOp f st op)) (hop : opStream op ≠ 5) : Runs c s (VectorIssued s s1 f st w) := by
  refine runs_of_issues h hc hop ?_
  split
  next h1 =>
    exact ⟨_, (State.issued_onlyFacet s1 f st w).trans (OnlyFacet.modFacet _ f _), fun _ => rfl, fun _ => ⟨rfl, State.facet_modFacet ..⟩,
      fun hn => absurd h1 hn⟩
  next h1 =>
    obtain ⟨ho, hm, hx⟩ := State.enterFlight_issued s s1 f st w
    have hv := State.issued_part (p := Facet.vregs) (fun _ _ _ => rfl) s1 f st w
    exact ⟨_, ho, hm, fun h => absurd h h1, fun _ => ⟨rfl, by rw [hx]; exact hv, by rw [hx]⟩⟩

theorem vectorComplete_runs {s : State} {f : Nat} {q : InFlight} (h : (s.facet f).flight opVec = some q) :
    Runs (.vectorComplete f) s fun t => ∃ u, t = u.signal f q.word ∧ u.facet f = ((s.facet f).leave opVec).vector q.word ∧
      OnlyFacet s u f ∧ SameMem s u := by
  have e : exec (.vectorComplete f) s = .next ((s.putFacet f (((s.facet f).leave opVec).vector q.word)).signal f q.word) := by
    refine congrArg Host.Outcome.next ?_
    rw [h]
  exact ⟨_, e, _, rfl, State.facet_putFacet .., OnlyFacet.putFacet s f _, SameMem.putFacet s f _⟩

end Sys2Proof.Machine

open Sys2Proof Sys2Proof.Machine

/-- Settles O4: what the operations write by kind, integer lanes through `BitVec 32`, and one rule for the issue of every operation. -/
theorem vectorResult : Obligations.VectorResult := by
  unfold Obligations.VectorResult
  refine ⟨fun x w => ?written, fun m a b ha hb => ?integer, fun s s1 f st w => ?issue, fun s f q hq => vectorComplete_runs hq⟩
  case written =>
    obtain ⟨vregs, masks, fpVec, e, hl⟩ := Facet.vector_eq x w
    have hother (r : Nat) (hr : r ≠ wVd w) : (x.vector w).lanes r = x.lanes r := by rw [e]; exact hl r hr
    refine ⟨hother, by rw [e], by rw [e], by rw [e], by rw [e], by rw [e], by rw [e], Facet.mask_vcmp x, Facet.lane_vsel x,
      fun h => (Facet.lane_vrsum x h).2.1, fun h => (Facet.lane_vrmax x h).2.1, fun h => ?_, fun _ _ h89 hBC => ?_, Facet.fpVec_vector x⟩
    · obtain h | h := h
      · exact ⟨(Facet.lane_vrsum x h).1, (Facet.lane_vrsum x h).2.2⟩
      · exact ⟨(Facet.lane_vrmax x h).1, (Facet.lane_vrmax x h).2.2⟩
    · exact Facet.lane_lanewise x (by omega) (by omega) (by omega) (by omega)
  case integer =>
    have e (op : Nat) : laneBinary op 11 m a b = (i32Op op a b, 0) := rfl
    obtain ⟨hadd, hsub, hmul⟩ := i32_arith ha hb
    obtain ⟨hmax, hmin⟩ := i32_compare ha hb
    obtain ⟨hand, hor, hxor⟩ := i32_bitwise ha hb
    obtain ⟨hshl, hshr⟩ := i32_shift ha b
    rw [e, e, e, e, e, e, e, e, e, e, hadd, hsub, hmul, hmax, hmin, hand, hor, hxor, hshl, hshr]
    exact ⟨rfl, rfl, rfl, rfl, rfl, rfl, rfl, rfl, rfl, rfl, by decide, by decide⟩
  case issue =>
    have run {op : Nat} {c : Instr} (hc : exec c s = .next (s.vectorOp f st op)) (hop : opStream op ≠ 5) :
        Issues s f st op s1 w → Runs c s (VectorIssued s s1 f st w) := fun h => vectorOp_runs h hc hop
    exact ⟨run rfl (by decide), run rfl (by decide), run rfl (by decide), run rfl (by decide), run rfl (by decide), run rfl (by decide),
      run rfl (by decide), run rfl (by decide), run rfl (by decide), run rfl (by decide), run rfl (by decide), run rfl (by decide),
      run rfl (by decide), run rfl (by decide), run rfl (by decide), run rfl (by decide), run rfl (by decide), run rfl (by decide),
      run rfl (by decide), run rfl (by decide), run rfl (by decide)⟩

end

section
/-! PROOF. VLD, VST and VMOVI (R61, R62, R108). -/

namespace Sys2Proof.Machine

variable {s s1 : State} {f st : Nat} {w : BitVec 128}

theorem lanes_issued (s1 : State) (f st : Nat) (w : BitVec 128) (r : Nat) :
    ((s1.issued f st w).facet f).lanes r = (s1.facet f).lanes r :=
  Facet.lanes_of_vregs (State.issued_part (p := Facet.vregs) (fun _ _ _ => rfl) s1 f st w) r

/-- What an issued instruction leaves that fills a register between its accesses to the scratchpad. -/
theorem lanes_loaded {m u : State} {g : Facet → Facet} {r : Nat} {v : Nat → Nat} (hm : SpadAccess (s1.issued f st w) m f)
    (hu : SpadAccess (m.modFacet f g) u f) (hg : ∀ x, (g x).vregs = (x.setLanes r ((List.range 64).map v)).vregs) :
    SameMem s1 u ∧ OnlyFacet s1 u f ∧ (∀ k, k ≠ r → (u.facet f).lanes k = (s1.facet f).lanes k) ∧
    ∀ l < 64, ((u.facet f).lanes r).getD l 0 = v l % 2 ^ 64 := by
  have hl : ((List.range 64).map v).length ≤ 64 := by simp
  have hv : (u.facet f).vregs = ((m.facet f).setLanes r ((List.range 64).map v)).vregs := by
    rw [hu.part (p := Facet.vregs) fun _ _ _ _ _ => rfl, State.facet_modFacet, hg]
  have ho := ((State.issued_onlyFacet s1 f st w).trans hm.others).trans ((OnlyFacet.modFacet m f g).trans hu.others)
  refine ⟨hm.sameMem.trans hu.sameMem, ho, fun k hk => ?_, fun l h => ?_⟩
  · rw [Facet.lanes_of_vregs hv, Facet.lanes_setLanes_ne _ hl hk, ← lanes_issued s1 f st w]
    exact Facet.lanes_of_vregs (hm.part (p := Facet.vregs) fun _ _ _ _ _ => rfl) k
  · rw [Facet.lanes_of_vregs hv, Facet.lane_setLanes _ _ hl h, getD_range_map _ _ h]

/-- VLD: the elements it reads, widened or copied, fill its register. -/
theorem vld_runs {bs : List Byte} (h : Issues s f st 0x40 s1 w)
    (hg : (s1.issued f st w).spadGather f (vecRanges w (16 * (((s.facet f).stream st).slot w 0).toNat)) = .ok bs) :
    Runs (.vld f st) s fun t => ∃ u, t = u.signal f w ∧ SameMem s1 u ∧ OnlyFacet s1 u f ∧
      (∀ r, r ≠ wVa w → (u.facet f).lanes r = (s1.facet f).lanes r) ∧
      ∀ l < 64, ((u.facet f).lanes (wVa w)).getD l 0 =
        (if wHi w = wLo w then packedElem (wHi w) bs l
          else (convert (wLo w) 0 false (decodeElem (wHi w) (packedElem (wHi w) bs l))).1) % 2 ^ 64 := by
  refine runs_of_issues h rfl (by decide) ?_
  dsimp only [issuedAs]
  split
  next e he => exact absurd (he.symm.trans hg) nofun
  next cs hc =>
    obtain rfl := Except.ok.inj (hc.symm.trans hg)
    refine ⟨_, rfl, lanes_loaded (st := st) (w := w) ?_ (State.bankWords_access ..) fun _ => rfl⟩
    exact SpadAccess.foldl (fun s (r : Nat × Nat) => State.metSpad_access s f r.1 r.2) _ _

/-- One element of a VST, rounded once: its bits and flags. -/
def storeElem (w : BitVec 128) (v : Nat) : Nat × Nat :=
  if wHi w = wLo w then (v % 2 ^ fmtBits (wLo w), 0)
  else convert (wHi w) (bitsOf w.toNat 15 14) (bitAt w.toNat 13) (decodeElem (wLo w) (v % 2 ^ fmtBits (wLo w)))

theorem storeElem_fst (w : BitVec 128) (v : Nat) : (storeElem w v).1 = if wHi w = wLo w then v % 2 ^ fmtBits (wLo w)
    else (convert (wHi w) (bitsOf w.toNat 15 14) (bitAt w.toNat 13) (decodeElem (wLo w) (v % 2 ^ fmtBits (wLo w)))).1 := by
  unfold storeElem
  split <;> rfl

theorem storeElem_snd (w : BitVec 128) (v : Nat) : (storeElem w v).2 = if wHi w = wLo w then 0
    else (convert (wHi w) (bitsOf w.toNat 15 14) (bitAt w.toNat 13) (decodeElem (wLo w) (v % 2 ^ fmtBits (wLo w)))).2 := by
  unfold storeElem
  split <;> rfl

/-- The elements of a VST, with the flags that they set. -/
def Facet.storeElems (x : Facet) (w : BitVec 128) : List (Nat × Nat) := (x.lanes (wVa w)).map (storeElem w)

/-- The facet of a VST once its elements are rounded. -/
def Facet.rounded (es : List (Nat × Nat)) (x : Facet) : Facet :=
  { x.vecFlags (es.foldl (fun fl e => fl ||| e.2) 0) with hskv := x.hskv + 1 }

/-- The values that a VST stores. -/
theorem Facet.storeElems_fst (x : Facet) (w : BitVec 128) : (x.storeElems w).map (·.1) =
    (x.lanes (wVa w)).map fun v => if wHi w = wLo w then v % 2 ^ fmtBits (wLo w)
      else (convert (wHi w) (bitsOf w.toNat 15 14) (bitAt w.toNat 13) (decodeElem (wLo w) (v % 2 ^ fmtBits (wLo w)))).1 :=
  List.map_map.trans (List.map_congr_left fun v _ => storeElem_fst w v)

/-- The flags that a VST sets. -/
theorem Facet.rounded_storeElems (x : Facet) (w : BitVec 128) : Facet.rounded (x.storeElems w) x =
    { x.vecFlags ((x.lanes (wVa w)).foldl (fun fl v => fl ||| (if wHi w = wLo w then 0
        else (convert (wHi w) (bitsOf w.toNat 15 14) (bitAt w.toNat 13) (decodeElem (wLo w) (v % 2 ^ fmtBits (wLo w)))).2)) 0) with
      hskv := x.hskv + 1 } := by
  simp only [Facet.rounded, Facet.storeElems, List.foldl_map, storeElem_snd]

/-- VST: what it stores, once the store goes through, leaves with its accesses and its signals. -/
theorem vst_runs {u : State} (h : Issues s f st 0x41 s1 w)
    (hu : State.spadStore ((s1.issued f st w).modFacet f (Facet.rounded (((s1.issued f st w).facet f).storeElems w))) f
      (vecRanges w (16 * (((s.facet f).stream st).slot w 0).toNat))
      (packElems (wHi w) ((((s1.issued f st w).facet f).storeElems w).map (·.1))) = .ok u) :
    Runs (.vst f st) s fun t =>
      t = (u.bankWords f 3 true (wordsCovered (vecRanges w (16 * (((s.facet f).stream st).slot w 0).toNat)))).signal f w := by
  refine runs_of_issues h rfl (by decide) ?_
  dsimp only [issuedAs]
  split
  next e he => exact absurd (he.symm.trans hu) nofun
  next v hv =>
    obtain rfl := Except.ok.inj (hv.symm.trans hu)
    rfl

/-- VMOVI: every lane takes the immediate. -/
theorem vmovi_runs (h : Issues s f st 0x42 s1 w) :
    Runs (.vmovi f st) s fun t => ∃ u, t = u.signal f w ∧ SameMem s1 u ∧ OnlyFacet s1 u f ∧
      (∀ r, r ≠ wVd w → (u.facet f).lanes r = (s1.facet f).lanes r) ∧
      (u.facet f).lanes (wVd w) = List.replicate 64 (immOf w % 2 ^ 64) := by
  refine runs_of_issues h rfl (by decide) ⟨_, rfl, fun _ => rfl, (State.issued_onlyFacet s1 f st w).trans (OnlyFacet.modFacet _ f _), ?_⟩
  rw [State.facet_modFacet]
  refine ⟨fun r hr => (Facet.lanes_setLanes_ne ((s1.issued f st w).facet f) (by simp) hr).trans (lanes_issued ..), ?_⟩
  refine List.ext_getElem (by simp) fun l h1 h2 => ?_
  have hl : l < 64 := by simpa using h2
  have hv := Facet.lane_setLanes ((s1.issued f st w).facet f) (wVd w) (ls := List.replicate 64 (immOf w)) (by simp) hl
  rw [List.getElem_replicate, ← List.getD_eq_getElem _ 0 h1]
  refine hv.trans ?_
  rw [List.getD_replicate _ hl]

end Sys2Proof.Machine

open Sys2Proof Sys2Proof.Machine

/-- Settles O5: the register that VLD and VMOVI fill, and the elements that VST stores. -/
theorem vectorMemory : Obligations.VectorMemory := by
  unfold Obligations.VectorMemory
  refine fun s s1 f st w => ⟨fun bs => vld_runs, fun u h hu => vst_runs h ?_, vmovi_runs⟩
  rw [← hu, Facet.storeElems_fst, lanes_issued s1]
  congr 1
  exact congrArg (State.putFacet (s1.issued f st w) f) (Facet.rounded_storeElems _ w)

end

section
/-! PROOF. The matrix engine: how MMA and MDRAIN issue and what their completions leave (R55 to R60, R91 to R96). -/

namespace Sys2Proof.Machine

/-! ## Reads and writes of a scratchpad by its own streams -/

/-- The reads of a scratchpad do not depend on the facet's registers but for its banks. -/
theorem State.spadRead_modFacet (s : State) (f : Nat) {g : Facet → Facet}
    (hg : ∀ off n, (g (s.facet f)).banksOn off n = (s.facet f).banksOn off n) (off n : Nat) :
    (s.modFacet f g).spadRead f off n = s.spadRead f off n := by
  unfold State.spadRead
  rw [State.facet_modFacet, hg, State.readBytes_of_sameMem (SameMem.modFacet s f g)]
  rfl

/-- A scratchpad lies above the HBM. -/
theorem hbmSize_le_spadAddr (f off : Nat) : hbmSize ≤ spadAddr f off := by
  unfold hbmSize spadAddr spadBase
  omega

section
variable {s : State} {a : Nat}

/-- With no bad unit a store outside the HBM writes its bytes and nothing else. -/
theorem State.storeRaw_sound (h : s.hbm.bad = []) (ha : hbmSize ≤ a) (bs : List Byte) :
    s.storeRaw a bs = ({ s with mem := Memory.write s.mem a bs }, true) := by
  unfold State.storeRaw
  cases bs with
  | nil => rfl
  | cons b bs =>
    have hs : ({ s with mem := Memory.write s.mem a (b :: bs), hbm := { s.hbm with bad := [] } } : State) =
        { s with mem := Memory.write s.mem a (b :: bs) } := by rw [← h]
    simp only [List.length_cons, Nat.succ_ne_zero, if_false, Nat.not_lt.mpr ha, h, List.filter_nil, List.isEmpty_nil, if_true]
    rw [hs]

theorem State.readByte_of_hbmSize_le (s : State) (ha : hbmSize ≤ a) : s.readByte a = Memory.get s.mem a := by
  rw [State.readByte, if_neg (Nat.not_lt.mpr ha)]

/-- What a write outside the HBM leaves reads back. -/
theorem State.readBytes_write (hm : MemOk s) (ha : hbmSize ≤ a) (bs : List Byte) :
    State.readBytes { s with mem := Memory.write s.mem a bs } a bs.length = bs :=
  State.readBytes_eq bs fun j hj => (State.readByte_of_hbmSize_le _ (Nat.le_add_right_of_le ha)).trans
    (Memory.get_write_inside bs s.mem a j hm hj)

theorem State.readByte_write_outside (s : State) (bs : List Byte) {b : Nat} (hb : ¬(a ≤ b ∧ b < a + bs.length)) :
    State.readByte { s with mem := Memory.write s.mem a bs } b = s.readByte b := by
  have h : Memory.get (Memory.write s.mem a bs) b = Memory.get s.mem b := Memory.get_write_outside bs s.mem a b (by omega)
  unfold State.readByte
  dsimp only
  rw [h]
  rfl

/-- A write by a facet's own streams, with its banks On and no bad unit. -/
theorem State.spadWrite_sound {f off : Nat} {bs : List Byte} (h : s.hbm.bad = []) (hb : (s.facet f).banksOn off bs.length = true) :
    s.spadWrite f off bs = .ok { s with mem := Memory.write s.mem (spadAddr f off) bs } := by
  unfold State.spadWrite
  rw [hb, State.storeRaw_sound h (hbmSize_le_spadAddr ..)]
  rfl

end

/-! ## Issue (R57, R59) -/

section
variable {s s1 : State} {f st : Nat} {w : BitVec 128}

/-- A legal MMA has an operand format with a class (R55, R57). -/
theorem fmtClass_of_legal {x : Facet} (h : decodeExc x st w = none) (hop : wOp w = 0x20) : ∃ c, fmtClass (wHi w) = some c := by
  have hb : mmaBad x w = false := by
    by_contra hb
    have he : engineBad x w = true := by
      unfold engineBad
      rw [hop]
      simpa using hb
    unfold decodeExc at h
    dsimp only at h
    rw [he, Bool.true_or, if_pos rfl] at h
    split at h <;> cases h
  unfold mmaBad at hb
  split at hb
  next c _ hc _ => exact ⟨c, hc⟩
  next => cases hb

theorem State.facet_enterFlight {f : Nat} {q : Issued} (hf : q.f = f) (s : State) : (s.enterFlight q).facet f =
    { s.facet f with inflight := (s.facet f).inflight ++
        [{ stream := q.st, index := q.index, word := q.word, e0 := q.e0.toNat, e1 := q.e1.toNat }] } := by
  subst hf
  exact State.facet_modFacet ..

theorem mma_runs (h : Issues s f st 0x20 s1 w) : Runs (.mma f st) s fun t => OnlyFacet s1 t f ∧ SameMem s1 t ∧
    (t.facet f).acc = (s1.facet f).acc ∧ (t.facet f).inflight = (s1.facet f).inflight ++
      [{ stream := st, index := ((s.facet f).stream st).next, word := w
         e0 := (((s.facet f).stream st).slot w 0).toNat, e1 := (((s.facet f).stream st).slot w 1).toNat }] ∧
    (t.facet f).accClass.find (wTile w) = (if wClr w then fmtClass (wHi w) else (s1.facet f).accClass.find (wTile w)) := by
  obtain ⟨c, hc⟩ := fmtClass_of_legal h.legal h.code
  have hacc := State.issued_part (p := Facet.acc) (fun _ _ _ => rfl) s1 f st w
  have hin := State.issued_part (p := Facet.inflight) (fun _ _ _ => rfl) s1 f st w
  have hcl := State.issued_part (p := Facet.accClass) (fun _ _ _ => rfl) s1 f st w
  refine runs_of_issues h rfl (by decide) ⟨(State.issued_onlyFacet s1 f st w).trans
    ((OnlyFacet.modFacet _ f _).trans (OnlyFacet.modFacet _ f _)), fun _ => rfl, ?_⟩
  rw [issuedAs, State.facet_enterFlight (by rfl), State.facet_modFacet, ← hacc, ← hin, ← hcl]
  dsimp only
  rw [hc]
  cases wClr w with
  | true => exact ⟨rfl, rfl, Tbl.find_put_self ..⟩
  | false => exact ⟨rfl, rfl, rfl⟩

theorem mdrain_runs (h : Issues s f st 0x21 s1 w) : Runs (.mdrain f st) s fun t => OnlyFacet s1 t f ∧ SameMem s1 t ∧
    (t.facet f).acc = (s1.facet f).acc ∧ (t.facet f).inflight = (s1.facet f).inflight ++
      [{ stream := st, index := ((s.facet f).stream st).next, word := w
         e0 := (((s.facet f).stream st).slot w 0).toNat, e1 := (((s.facet f).stream st).slot w 1).toNat }] := by
  obtain ⟨ho, hm, hx⟩ := State.enterFlight_issued s s1 f st w
  have ha := State.issued_part (p := Facet.acc) (fun _ _ _ => rfl) s1 f st w
  exact runs_of_issues h rfl (by decide) ⟨ho, hm, by rw [hx]; exact ha, by rw [hx]⟩

end

/-! ## Completion (R58, R59) -/

theorem length_mmaCells (w : BitVec 128) (cls : AccClass) (old : List AccCell) (a b : List Byte) :
    (mmaCells w cls old a b).1.length = old.length := by
  simp [mmaCells]

/-- The facet once an MMA's products are accumulated. -/
def Facet.accumulate (w : BitVec 128) (a b : List Byte) (x : Facet) : Facet :=
  let r := mmaCells w ((fmtClass (wHi w)).getD .f) (x.cells (wTile w)) a b
  { (x.setCells (wTile w) r.1).matFlags r.2 with hskm := x.hskm + BitVec.ofNat 64 (mmaHandshakes w) }

theorem Facet.cells_accumulate (w : BitVec 128) (a b : List Byte) (x : Facet) :
    (x.accumulate w a b).cells (wTile w) = (mmaCells w ((fmtClass (wHi w)).getD .f) (x.cells (wTile w)) a b).1 :=
  Facet.cells_setCells_whole x _ (by simp [length_mmaCells])

theorem Facet.cells_accumulate_ne (w : BitVec 128) (a b : List Byte) (x : Facet) {k : Nat} (h : k ≠ wTile w) :
    (x.accumulate w a b).cells k = x.cells k :=
  Facet.cells_setCells_ne x (by simp [length_mmaCells]) h

section
variable (w : BitVec 128) (a b : List Byte) (x : Facet)

theorem Facet.fpMat_accumulate : (x.accumulate w a b).fpMat =
    x.fpMat ||| BitVec.ofNat 5 (mmaCells w ((fmtClass (wHi w)).getD .f) (x.cells (wTile w)) a b).2 := rfl

theorem Facet.vregs_accumulate : (x.accumulate w a b).vregs = x.vregs := rfl

theorem Facet.hskm_accumulate : (x.accumulate w a b).hskm = x.hskm + BitVec.ofNat 64 (mmaHandshakes w) := rfl

end

section
variable {s m u : State} {f : Nat} (h : SpadAccess m u f)
include h

theorem SpadAccess.cells (k : Nat) : (u.facet f).cells k = (m.facet f).cells k := h.part (p := fun x => x.cells k) fun _ _ _ _ _ => rfl

theorem SpadAccess.fpMat : (u.facet f).fpMat = (m.facet f).fpMat := h.part (p := Facet.fpMat) fun _ _ _ _ _ => rfl

theorem SpadAccess.vregs : (u.facet f).vregs = (m.facet f).vregs := h.part (p := Facet.vregs) fun _ _ _ _ _ => rfl

theorem SpadAccess.hskm : (u.facet f).hskm = (m.facet f).hskm := h.part (p := Facet.hskm) fun _ _ _ _ _ => rfl

end

/-- What an MMA leaves of its facet: its access to the operands, the accumulation, and the banks' handshakes. -/
theorem accumulated {s m u : State} {f : Nat} {w : BitVec 128} {a b : List Byte} (hm : SpadAccess s m f)
    (hu : SpadAccess (m.modFacet f (Facet.accumulate w a b)) u f) :
    let r := mmaCells w ((fmtClass (wHi w)).getD .f) ((s.facet f).cells (wTile w)) a b
    OnlyFacet s u f ∧ SameMem s u ∧
      (u.facet f).cells (wTile w) = r.1 ∧ (∀ k, k ≠ wTile w → (u.facet f).cells k = (s.facet f).cells k) ∧
      (u.facet f).fpMat = (s.facet f).fpMat ||| BitVec.ofNat 5 r.2 ∧ (u.facet f).vregs = (s.facet f).vregs ∧
      (u.facet f).hskm = (s.facet f).hskm + BitVec.ofNat 64 (mmaHandshakes w) := by
  refine ⟨hm.others.trans ((OnlyFacet.modFacet m f _).trans hu.others), hm.sameMem.trans hu.sameMem, ?_, fun k hk => ?_, ?_, ?_, ?_⟩
  · rw [hu.cells, State.facet_modFacet, Facet.cells_accumulate, hm.cells]
  · rw [hu.cells, State.facet_modFacet, Facet.cells_accumulate_ne w a b _ hk, hm.cells]
  · rw [hu.fpMat, State.facet_modFacet, Facet.fpMat_accumulate, hm.fpMat, hm.cells]
  · rw [hu.vregs, State.facet_modFacet, Facet.vregs_accumulate, hm.vregs]
  · rw [hu.hskm, State.facet_modFacet, Facet.hskm_accumulate, hm.hskm]

theorem mmaComplete_runs {s : State} {f : Nat} {q : InFlight} {a b : List Byte} (hq : (s.facet f).flight (· = 0x20) = some q)
    (ha : s.spadRead f (16 * q.e0) (aBytes (wHi q.word) (wK q.word) (wMx q.word)) = .ok a)
    (hb : s.spadRead f (16 * q.e1) (bBytes (wLo q.word) (wK q.word) (wMx q.word)) = .ok b) :
    let r := mmaCells q.word ((fmtClass (wHi q.word)).getD .f) ((s.facet f).cells (wTile q.word)) a b
    Runs (.mmaComplete f) s fun t => ∃ u, t = u.signal f q.word ∧ OnlyFacet s u f ∧ SameMem s u ∧
      (u.facet f).cells (wTile q.word) = r.1 ∧ (∀ k, k ≠ wTile q.word → (u.facet f).cells k = (s.facet f).cells k) ∧
      (u.facet f).fpMat = (s.facet f).fpMat ||| BitVec.ofNat 5 r.2 ∧ (u.facet f).vregs = (s.facet f).vregs ∧
      (u.facet f).hskm = (s.facet f).hskm + BitVec.ofNat 64 (mmaHandshakes q.word) := by
  have hr := State.spadRead_modFacet s f (g := fun x => x.leave (· = 0x20)) fun _ _ => rfl
  let na := aBytes (wHi q.word) (wK q.word) (wMx q.word)
  let nb := bBytes (wLo q.word) (wK q.word) (wMx q.word)
  let m := ((s.modFacet f fun x => x.leave (· = 0x20)).metSpad f (16 * q.e0) na).metSpad f (16 * q.e1) nb
  have hrun : exec (.mmaComplete f) s = .next ((((m.modFacet f (Facet.accumulate q.word a b)).bankAccess f 1 false (16 * q.e0)
      na).bankAccess f 1 false (16 * q.e1) nb).signal f q.word) := by
    refine congrArg Host.Outcome.next ?_
    rw [hq]
    dsimp only
    rw [hr, hr, ha, hb]
    rfl
  have hx := State.facet_modFacet s f fun x => x.leave (· = 0x20)
  obtain ⟨ho, hmem, hc⟩ := accumulated (w := q.word) (a := a) (b := b) (s := s.modFacet f fun x => x.leave (· = 0x20)) (m := m)
    ((State.metSpad_access ..).trans (State.metSpad_access ..))
    ((State.bankAccess_access _ f 1 false (16 * q.e0) na).trans (State.bankAccess_access _ f 1 false (16 * q.e1) nb))
  rw [hx] at hc
  exact ⟨_, hrun, _, rfl, (OnlyFacet.modFacet s f _).trans ho, hmem, hc⟩

/-- The facet once an MDRAIN has read its tile. -/
def Facet.drained (w : BitVec 128) (flags : Nat) (x : Facet) : Facet :=
  let x : Facet := { x.matFlags flags with hskm := x.hskm + 32 }
  if wDClr w then x.setCells (wDTile w) [] else x

/-- The store of an MDRAIN, then its banks' handshakes and its signals. -/
def State.drainTo (u : State) (f : Nat) (q : InFlight) (bs : List Byte) : State :=
  match u.spadWrite f (16 * q.e0) bs with
  | .error e => u.spadFail f 0 q.index (16 * q.e0) bs.length 2 true e
  | .ok v => (v.bankAccess f 2 true (16 * q.e0) bs.length).signal f q.word

theorem Facet.banksOn_drained (w : BitVec 128) (fl : Nat) (x : Facet) (off n : Nat) :
    (x.drained w fl).banksOn off n = x.banksOn off n := by
  unfold Facet.drained
  dsimp only
  split <;> rfl

theorem Facet.cells_drained (w : BitVec 128) (fl : Nat) (x : Facet) :
    (x.drained w fl).cells (wDTile w) = if wDClr w then List.replicate 2048 AccCell.zero else x.cells (wDTile w) := by
  unfold Facet.drained
  dsimp only
  split
  · exact Facet.cells_setCells_nil ..
  · rfl

theorem Facet.fpMat_drained (w : BitVec 128) (fl : Nat) (x : Facet) : (x.drained w fl).fpMat = x.fpMat ||| BitVec.ofNat 5 fl := by
  unfold Facet.drained
  dsimp only
  split <;> rfl

theorem mdrainComplete_runs {s : State} {f : Nat} {q : InFlight} (hq : (s.facet f).flight (· = 0x21) = some q)
    (hm : MemOk s) (hbad : s.hbm.bad = []) {r : List Byte × Nat}
    (hr : drainBytes (wHi q.word) (wDRound q.word) (wDMx q.word) (wDTr q.word) (wDSat q.word)
      (((s.facet f).cells (wDTile q.word)).map (cellVal (((s.facet f).accClass.find (wDTile q.word)).getD .f))) = r)
    (hon : (s.facet f).banksOn (16 * q.e0) r.1.length = true) :
    Runs (.mdrainComplete f) s fun t => ∃ u, t = u.signal f q.word ∧ OnlyFacet s u f ∧
      u.readBytes (spadAddr f (16 * q.e0)) r.1.length = r.1 ∧
      (∀ a, ¬(spadAddr f (16 * q.e0) ≤ a ∧ a < spadAddr f (16 * q.e0) + r.1.length) → u.readByte a = s.readByte a) ∧
      (u.facet f).cells (wDTile q.word) =
        (if wDClr q.word then List.replicate 2048 AccCell.zero else (s.facet f).cells (wDTile q.word)) ∧
      (u.facet f).fpMat = (s.facet f).fpMat ||| BitVec.ofNat 5 r.2 := by
  let x := (s.facet f).leave (· = 0x21)
  let u := s.putFacet f (x.drained q.word r.2)
  let v : State := { u with mem := Memory.write u.mem (spadAddr f (16 * q.e0)) r.1 }
  have hu : u.facet f = x.drained q.word r.2 := State.facet_putFacet ..
  have hw : u.spadWrite f (16 * q.e0) r.1 = .ok v := State.spadWrite_sound hbad (by rw [hu, Facet.banksOn_drained]; exact hon)
  have hrun : exec (.mdrainComplete f) s = .next ((v.bankAccess f 2 true (16 * q.e0) r.1.length).signal f q.word) := by
    refine congrArg Host.Outcome.next ?_
    rw [hq]
    refine Eq.trans (b := u.drainTo f q r.1) ?_ (by rw [State.drainTo, hw])
    subst hr
    rfl
  have ha : SpadAccess v (v.bankAccess f 2 true (16 * q.e0) r.1.length) f := State.bankAccess_access ..
  have hv : v.facet f = x.drained q.word r.2 := hu
  refine ⟨_, hrun, _, rfl, OnlyFacet.trans (OnlyFacet.putFacet s f _) (OnlyFacet.trans (t := v) (fun _ _ => rfl) ha.others), ?_,
    fun a h => ?_, ?_, ?_⟩
  · rw [State.readBytes_of_sameMem ha.sameMem]
    exact State.readBytes_write (s := u) hm (hbmSize_le_spadAddr ..) r.1
  · exact (ha.sameMem a).trans (State.readByte_write_outside u r.1 h)
  · rw [ha.cells, hv]
    exact Facet.cells_drained ..
  · rw [ha.fpMat, hv]
    exact Facet.fpMat_drained ..

end Sys2Proof.Machine

open Sys2Proof Sys2Proof.Machine

/-- Settles O6: the facet after each completion, and the bytes that a drain stores. -/
theorem matrixEngine : Obligations.MatrixEngine := by
  unfold Obligations.MatrixEngine
  exact ⟨fun s s1 f st w => ⟨mma_runs, mdrain_runs⟩, fun s f q a b => mmaComplete_runs,
    fun s f q hq _ hm _ hon hbad => mdrainComplete_runs hq hm hbad rfl hon⟩

end

section
/-! PROOF. The stream engine: what its instructions set, and the transfers that they start (R65 to R69, R127). -/

namespace Sys2Proof.Machine

/-! ## What translation reads (R203, R387) -/

/-- What the translation of addresses reads: the maps, the cache ways and the outbound windows. -/
structure SameMap (s t : State) : Prop where
  mem    : SameMem s t
  insts  : t.insts = s.insts
  gather : t.gather = s.gather
  pcie   : t.pcie = s.pcie

section
variable {s t : State} (h : SameMap s t)
include h

theorem SameMap.outParts (write : Bool) (fuel a n : Nat) : t.outParts write fuel a n = s.outParts write fuel a n := by
  induction fuel generalizing a n with
  | zero => rfl
  | succ fuel ih =>
    have hw : t.outWindow a write = s.outWindow a write := by rw [State.outWindow, h.pcie, State.outWindow]
    unfold State.outParts
    simp only [ih, hw]

theorem SameMap.translate (i a : Nat) (write : Bool) : t.translate i a write = s.translate i a write := by
  have hi : t.inst i = s.inst i := by rw [State.inst, h.insts, State.inst]
  have hm (g : Nat) : t.mapEntry i g = s.mapEntry i g := by rw [State.mapEntry, hi, State.readBytes_of_sameMem h.mem, State.mapEntry]
  have hu (d : Nat) : t.unmapped d = s.unmapped d := by
    have hc (k off : Nat) : t.inCacheWay k off = s.inCacheWay k off := by
      rw [State.inCacheWay, State.gatherDie, h.gather, State.inCacheWay, State.gatherDie]
    unfold State.unmapped
    split
    · rfl
    · exact hc ..
    · rfl
  have hw (d : Nat) : t.outWindow d write = s.outWindow d write := by rw [State.outWindow, h.pcie, State.outWindow]
  unfold State.translate
  simp only [hi, hm, hu, hw, h.pcie]

theorem SameMap.rangesOf (i a n : Nat) (write : Bool) : t.rangesOf i a n write = s.rangesOf i a n write := by
  have ho (a k : Nat) : t.rangeOne i a k write = s.rangeOne i a k write := by
    unfold State.rangeOne
    rw [h.translate]
    split
    · rfl
    · rw [State.hostParts, h.outParts, h.pcie, State.hostParts]
  unfold State.rangesOf
  generalize n / granule + 2 = fuel
  induction fuel generalizing a n with
  | zero => rfl
  | succ fuel ih =>
    unfold State.ranges
    simp only [ho, ih]

end

theorem SameMap.trans {s t u : State} (h : SameMap s t) (g : SameMap t u) : SameMap s u :=
  ⟨h.mem.trans g.mem, g.insts.trans h.insts, g.gather.trans h.gather, g.pcie.trans h.pcie⟩

theorem SpadAccess.sameMap {s t : State} {f : Nat} (h : SpadAccess s t f) : SameMap s t := by
  obtain ⟨_, _, rfl⟩ := h.rest
  exact ⟨fun _ => rfl, rfl, rfl, rfl⟩

theorem SameMap.modFacet (s : State) (f : Nat) (g : Facet → Facet) : SameMap s (s.modFacet f g) := ⟨fun _ => rfl, rfl, rfl, rfl⟩

/-! ## Address registers and the peer (R65) -/

variable {s s1 : State} {f st : Nat} {w : BitVec 128}

theorem saddr_runs (h : Issues s f st 0x80 s1 w) :
    Runs (.saddr f st) s fun t => ∃ u, t = u.signal f w ∧ OnlyFacet s1 u f ∧ SameMem s1 u ∧
      Tbl.getD (u.facet f).dregs (wLo w) 0 = BitVec.ofNat 48 w.toNat +
        (if bitAt w.toNat 52 then Tbl.getD (s1.facet f).dregs (wLo w) 0 else 0) ∧
      ∀ d, d ≠ wLo w → Tbl.getD (u.facet f).dregs d 0 = Tbl.getD (s1.facet f).dregs d 0 := by
  refine runs_signal_of_issues h rfl (by decide) fun u hu => ?_
  rw [hu, ← State.issued_part (p := Facet.dregs) (fun _ _ _ => rfl) s1 f st w]
  refine ⟨(Tbl.getD_put_self ..).trans ?_, fun d hd => Tbl.getD_put_ne _ hd ..⟩
  rw [issuedAs]
  cases bitAt w.toNat 52 with
  | true => exact BitVec.add_comm ..
  | false => exact (BitVec.add_zero ..).symm

/-- A legal SPEER names a rank of a job that has ranks (R65, R75). -/
theorem jobSize_pos_of_legal {x : Facet} (h : decodeExc x st w = none) (hop : wOp w = 0x83) : 0 < x.jobSize := by
  by_contra h0
  have hs : wOp w = 0x83 ∧ x.jobSize ≤ bitsOf w.toNat 9 0 := ⟨hop, by omega⟩
  unfold decodeExc at h
  dsimp only at h
  rw [if_pos hs] at h
  iterate 5
    split at h
    · cases h
  split at h
  · cases h
  · split at h <;> cases h

theorem speer_runs (h : Issues s f st 0x83 s1 w) :
    Runs (.speer f st) s fun t => ∃ u, t = u.signal f w ∧ OnlyFacet s1 u f ∧ SameMem s1 u ∧
      ((u.facet f).peer : Int) = ((s.facet f).stream st).slot w 2 % ((s1.facet f).jobSize : Int) ∧
      (u.facet f).dregs = (s1.facet f).dregs := by
  have hp := jobSize_pos_of_legal h.legal h.code
  refine runs_signal_of_issues h rfl (by decide) fun u hu => ?_
  rw [hu, ← State.issued_part (p := Facet.dregs) (fun _ _ _ => rfl) s1 f st w]
  refine ⟨?_, rfl⟩
  rw [← State.issued_part (p := Facet.jobSize) (fun _ _ _ => rfl) s1 f st w] at hp ⊢
  exact Int.toNat_of_nonneg (Int.emod_nonneg _ (by omega))

/-! ## Transfers (R66, R68) -/

/-- A transfer that an issued instruction starts. -/
theorem State.addXfer_issued (s1 : State) (f st : Nat) (w : BitVec 128) (p : Xfer) :
    OnlyFacet s1 ((s1.issued f st w).addXfer f p) f ∧ SameMem s1 ((s1.issued f st w).addXfer f p) ∧
    (((s1.issued f st w).addXfer f p).facet f).xfers = (s1.facet f).xfers ++ [p] := by
  refine ⟨(State.issued_onlyFacet s1 f st w).trans (OnlyFacet.modFacet _ f _), fun _ => rfl, ?_⟩
  rw [State.addXfer, State.facet_modFacet, ← State.issued_part (p := Facet.xfers) (fun _ _ _ => rfl) s1 f st w]

/-- A read of a scratchpad answers as many bytes as it names. -/
theorem State.length_of_spadRead {off n : Nat} {bs : List Byte} (h : s.spadRead f off n = .ok bs) : bs.length = n := by
  unfold State.spadRead at h
  split at h
  · cases h
  · split at h
    · cases h
    · rw [← Except.ok.inj h]
      exact State.length_readBytes ..

theorem State.peerDead_addXfer (s : State) (f : Nat) (p : Xfer) (r : Nat) : (s.addXfer f p).peerDead f r = s.peerDead f r := rfl

theorem sput_runs (h : Issues s f st 0x81 s1 w) {rs : List (Nat × Nat)} (hp : peerOf ((s1.issued f st w).facet f) w = none)
    (hr : (s1.issued f st w).rangesOf ((s1.issued f st w).facet f).who.1 (remoteAddr ((s1.issued f st w).facet f) (issuedAs s f st w))
      (16 * (wS2 w + 1)) true = .ok rs) :
    Runs (.sput f st) s fun t => OnlyFacet s1 t f ∧ SameMem s1 t ∧ t.mesh = s1.mesh ∧ (t.facet f).xfers = (s1.facet f).xfers ++
        [{ tag := ((s1.issued f st w).facet f).freeTag, kind := .put, index := ((s.facet f).stream st).next, word := w
           loc := 16 * (((s.facet f).stream st).slot w 0).toNat
           remote := remoteAddr ((s1.issued f st w).facet f) (issuedAs s f st w)
           bytes := 16 * (wS2 w + 1), peer := none, srcRead := false, sig := false, due := 0 }] := by
  refine runs_of_issues h rfl (by decide) ?_
  rw [issuedAs] at hr ⊢
  dsimp only
  rw [hp]
  dsimp only
  rw [hr]
  obtain ⟨ho, hm, hx⟩ := State.addXfer_issued s1 f st w _
  exact ⟨ho, hm, rfl, hx⟩

/-- A SPUT to a peer: its source is read, and its bytes leave, later. -/
theorem sput_peer_runs (h : Issues s f st 0x81 s1 w) {r : Nat} (hp : peerOf ((s1.issued f st w).facet f) w = some r) :
    Runs (.sput f st) s fun t => OnlyFacet s1 t f ∧ SameMem s1 t ∧ ∃ p, (t.facet f).xfers = (s1.facet f).xfers ++ [p] ∧
      p.kind = .put ∧ p.peer = some r ∧ p.tag = ((s1.issued f st w).facet f).freeTag ∧
      p.remote = remoteAddr ((s1.issued f st w).facet f) (issuedAs s f st w) := by
  refine runs_of_issues h rfl (by decide) ?_
  rw [issuedAs]
  dsimp only
  rw [hp]
  have ht (p : Xfer) := State.addXfer_issued s1 f st w p
  exact ⟨(ht _).1, (ht _).2.1, _, (ht _).2.2, rfl, rfl, rfl, rfl⟩

theorem sget_runs (h : Issues s f st 0x82 s1 w) {rs : List (Nat × Nat)} (hp : peerOf ((s1.issued f st w).facet f) w = none)
    (hr : (s1.issued f st w).rangesOf ((s1.issued f st w).facet f).who.1 (remoteAddr ((s1.issued f st w).facet f) (issuedAs s f st w))
      (16 * (wS2 w + 1)) false = .ok rs) :
    Runs (.sget f st) s fun t => t = (s1.issued f st w).getLocal f
      { tag := ((s1.issued f st w).facet f).freeTag, kind := .get, index := ((s.facet f).stream st).next, word := w
        loc := 16 * (((s.facet f).stream st).slot w 0).toNat
        remote := remoteAddr ((s1.issued f st w).facet f) (issuedAs s f st w)
        bytes := 16 * (wS2 w + 1), peer := none, srcRead := true, sig := false, due := 1 } rs := by
  refine runs_of_issues h rfl (by decide) ?_
  rw [issuedAs] at hr ⊢
  dsimp only
  rw [hp]
  dsimp only
  rw [hr]

theorem sget_peer_runs (h : Issues s f st 0x82 s1 w) {r : Nat} (hp : peerOf ((s1.issued f st w).facet f) w = some r)
    (hd : (s1.issued f st w).peerDead f r = false) :
    Runs (.sget f st) s fun t => ∃ p, t = ((s1.issued f st w).addXfer f p).sendFlow
        { ((s1.issued f st w).addXfer f p).peerFrame f r 2 ((s1.issued f st w).facet f).freeTag with
          addr := remoteAddr ((s1.issued f st w).facet f) (issuedAs s f st w)
          payload := leBytes 4 (16 * (((s.facet f).stream st).slot w 0).toNat) ++ leBytes 4 (16 * (wS2 w + 1)) } ∧
      p.kind = .get ∧ p.peer = some r ∧ p.tag = ((s1.issued f st w).facet f).freeTag ∧ p.due = 1 := by
  refine runs_of_issues h rfl (by decide) ?_
  rw [issuedAs]
  dsimp only
  rw [hp]
  dsimp only
  rw [State.peerDead_addXfer, hd]
  exact ⟨_, rfl, rfl, rfl, rfl, rfl⟩

theorem stok_runs (h : Issues s f st 0x84 s1 w) (hp : peerOf ((s1.issued f st w).facet f) w = none) :
    Runs (.stok f st) s fun t => ∃ fl p, t = ((s1.issued f st w).sendFlit fl).addXfer f p ∧ fl.typ = 3 ∧ fl.tokc = wRsc w ∧
      fl.tokn = wRsn w ∧ fl.tag = ((s1.issued f st w).facet f).freeTag ∧ p.tag = ((s1.issued f st w).facet f).freeTag ∧
      p.kind = .tok ∧ p.due = 1 := by
  refine runs_of_issues h rfl (by decide) ?_
  rw [issuedAs]
  dsimp only
  rw [hp]
  exact ⟨_, _, rfl, rfl, rfl, rfl, rfl, rfl, rfl, rfl⟩

theorem stok_peer_runs (h : Issues s f st 0x84 s1 w) {r : Nat} (hp : peerOf ((s1.issued f st w).facet f) w = some r)
    (hd : (s1.issued f st w).peerDead f r = false) :
    Runs (.stok f st) s fun t => ∃ p, t = ((s1.issued f st w).addXfer f p).sendFlow
        { ((s1.issued f st w).addXfer f p).peerFrame f r 4 ((s1.issued f st w).facet f).freeTag with
          last := true, sig := true, tokn := wRsn w, rsx := wRsx w, rsy := wRsy w, tokc := wRsc w } ∧
      p.kind = .tok ∧ p.peer = some r ∧ p.tag = ((s1.issued f st w).facet f).freeTag ∧ p.due = 1 := by
  refine runs_of_issues h rfl (by decide) ?_
  rw [issuedAs]
  dsimp only
  rw [hp]
  dsimp only
  rw [State.peerDead_addXfer, hd]
  exact ⟨_, rfl, rfl, rfl, rfl, rfl⟩

/-! ### Descriptors (R116) -/

section
variable (base : Flit)

/-- The flits of a descriptor carry its bytes in order. -/
theorem flatMap_descFlits (fuel a : Nat) (bs : List Byte) (h : bs.length ≤ 128 * fuel) :
    (descFlits base fuel a bs).flatMap Flit.payload = bs := by
  induction fuel generalizing a bs with
  | zero => exact (List.length_eq_zero_iff.mp (by omega)).symm
  | succ fuel ih =>
    unfold descFlits
    split
    next he => exact (List.isEmpty_iff.mp he).symm
    next =>
      rw [List.flatMap_cons, ih _ _ (by rw [List.length_drop]; omega)]
      exact List.take_append_drop 128 bs

theorem mem_descFlits {fuel a : Nat} {bs : List Byte} {fl : Flit} (h : fl ∈ descFlits base fuel a bs) :
    fl.typ = base.typ ∧ fl.tag = base.tag ∧ fl.payload.length ≤ 128 := by
  induction fuel generalizing a bs with
  | zero => cases h
  | succ fuel ih =>
    unfold descFlits at h
    split at h
    · cases h
    · obtain rfl | h := List.mem_cons.mp h
      · exact ⟨rfl, rfl, List.length_take_le ..⟩
      · exact ih h

theorem descFlits_nil (fuel a : Nat) : descFlits base fuel a [] = [] := by
  cases fuel <;> rfl

/-- The last flit of a descriptor has LAST. -/
theorem last_descFlits {fuel a : Nat} {bs : List Byte} (h0 : bs ≠ []) (h : bs.length ≤ 128 * fuel) :
    (descFlits base fuel a bs).getLast?.map Flit.last = some true := by
  induction fuel generalizing a bs with
  | zero => exact absurd (List.length_eq_zero_iff.mp (by omega)) h0
  | succ fuel ih =>
    unfold descFlits
    rw [if_neg (by simpa using h0)]
    by_cases hl : bs.length ≤ 128
    · rw [List.drop_eq_nil_of_le hl, descFlits_nil]
      exact congrArg some (decide_eq_true hl)
    · have hd : bs.drop 128 ≠ [] := fun h => hl (List.drop_eq_nil_iff.mp h)
      obtain ⟨e, he, h1⟩ := Option.map_eq_some_iff.mp (ih (a := a + 128) hd (by rw [List.length_drop]; omega))
      rw [List.getLast?_cons, he]
      exact congrArg some h1

end

/-- What a descriptor's read leaves before its flits go: its accesses, and its handshakes. -/
theorem sgather_runs (h : Issues s f st 0x85 s1 w) {bs : List Byte}
    (hr : (s1.issued f st w).spadRead f (16 * (((s.facet f).stream st).slot w 0).toNat) (16 * (wS1 w + 1)) = .ok bs) :
    Runs (.sgather f st) s fun t => ∃ (u : State) (fls : List Flit) (p : Xfer), t = (fls.foldl State.sendFlit u).addXfer f p ∧
      SameMem s1 u ∧ OnlyFacet s1 u f ∧ fls.flatMap Flit.payload = bs ∧
      (∀ fl ∈ fls, fl.typ = 6 ∧ fl.tag = ((s1.issued f st w).facet f).freeTag ∧ fl.payload.length ≤ 128) ∧
      (fls.getLast?.map Flit.last) = some true ∧ p.tag = ((s1.issued f st w).facet f).freeTag ∧ p.kind = .gather ∧
      p.bytes = 16 * (wS1 w + 1) := by
  have hlen := State.length_of_spadRead hr
  refine runs_of_issues h rfl (by decide) ?_
  rw [issuedAs]
  dsimp only
  rw [hr]
  have ha := (State.metSpad_access (s1.issued f st w) f (16 * (((s.facet f).stream st).slot w 0).toNat) (16 * (wS1 w + 1))).trans
    (State.bankAccess_access _ f 4 false (16 * (((s.facet f).stream st).slot w 0).toNat) (16 * (wS1 w + 1)))
  exact ⟨_, _, _, rfl, ha.sameMem, ((State.issued_onlyFacet s1 f st w).trans ha.others).trans (OnlyFacet.modFacet _ f _),
    flatMap_descFlits _ _ _ _ (by omega), fun fl hfl => mem_descFlits _ hfl,
    last_descFlits _ (List.ne_nil_of_length_pos (by omega)) (by omega), rfl, rfl, rfl⟩

/-! ## The source of a SPUT (R67) -/

/-- The facet once a source is read: the mark of the transfer, and its handshakes. -/
def Facet.sourceRead (tag n : Nat) (x : Facet) : Facet :=
  { x.modXfer tag (fun p => { p with srcRead := true }) with hsks := x.hsks + BitVec.ofNat 64 (n / 16) }

theorem Facet.hsks_sourceRead (x : Facet) (tag n : Nat) : (x.sourceRead tag n).hsks = x.hsks + BitVec.ofNat 64 (n / 16) := rfl

theorem Facet.who_sourceRead (x : Facet) (tag n : Nat) : (x.sourceRead tag n).who = x.who := rfl

/-- What reading a source leaves: its accesses and its facet. -/
def State.sourceRead (s : State) (f tag : Nat) (p : Xfer) : State :=
  ((s.metSpad f p.loc p.bytes).bankAccess f 4 false p.loc p.bytes).modFacet f (Facet.sourceRead tag p.bytes)

theorem State.sourceRead_frame (s : State) (f tag : Nat) (p : Xfer) :
    SameMap s (s.sourceRead f tag p) ∧ OnlyFacet s (s.sourceRead f tag p) f ∧
    ((s.sourceRead f tag p).facet f).hsks = (s.facet f).hsks + BitVec.ofNat 64 (p.bytes / 16) ∧
    ((s.sourceRead f tag p).facet f).who = (s.facet f).who := by
  have ha := (State.metSpad_access s f p.loc p.bytes).trans (State.bankAccess_access _ f 4 false p.loc p.bytes)
  refine ⟨ha.sameMap.trans (SameMap.modFacet _ f _), ha.others.trans (OnlyFacet.modFacet _ f _), ?_, ?_⟩
  all_goals rw [State.sourceRead, State.facet_modFacet]
  · rw [Facet.hsks_sourceRead, ha.part (p := Facet.hsks) fun _ _ _ _ _ => rfl]
  · rw [Facet.who_sourceRead, ha.part (p := Facet.who) fun _ _ _ _ _ => rfl]

section
variable {tag : Nat} {p : Xfer} {bs : List Byte} (hx : (s.facet f).xfer tag = some p) (hk : p.kind = .put) (hs : p.srcRead = false)
  (hr : s.spadRead f p.loc p.bytes = .ok bs)
include hx hk hs hr

theorem sourceRead_runs {rs : List (Nat × Nat)} (hp : p.peer = none) (hm : s.rangesOf (s.facet f).who.1 p.remote p.bytes true = .ok rs) :
    Runs (.sputSourceRead f tag) s fun t => ∃ u, t = (u.localSignal f p.word).putLocal f { p with srcRead := true } rs bs ∧
      SameMem s u ∧ OnlyFacet s u f ∧ (u.facet f).hsks = (s.facet f).hsks + BitVec.ofNat 64 (p.bytes / 16) := by
  obtain ⟨hmap, ho, hh, hw⟩ := State.sourceRead_frame s f tag p
  have hm' : (s.sourceRead f tag p).rangesOf ((s.sourceRead f tag p).facet f).who.1 p.remote p.bytes true = .ok rs := by
    rw [hmap.rangesOf, hw, hm]
  have hrun : exec (.sputSourceRead f tag) s =
      .next (((s.sourceRead f tag p).localSignal f p.word).putLocal f { p with srcRead := true } rs bs) := by
    refine congrArg Host.Outcome.next ?_
    rw [hx]
    dsimp only
    rw [if_neg (by simp [hk, hs]), hr]
    dsimp only
    rw [hp]
    dsimp only
    split
    next e he => exact absurd (he.symm.trans hm') nofun
    next rs' hrs =>
      obtain rfl := Except.ok.inj (hrs.symm.trans hm')
      rfl
  exact ⟨_, hrun, _, rfl, hmap.mem, ho, hh⟩

theorem sourceRead_peer_runs {r : Nat} (hp : p.peer = some r) :
    Runs (.sputSourceRead f tag) s fun t => ∃ u, t = (u.localSignal f p.word).putPeer f r p bs ∧ SameMem s u ∧ OnlyFacet s u f := by
  obtain ⟨hmap, ho, _, _⟩ := State.sourceRead_frame s f tag p
  have hrun : exec (.sputSourceRead f tag) s = .next (((s.sourceRead f tag p).localSignal f p.word).putPeer f r p bs) := by
    refine congrArg Host.Outcome.next ?_
    rw [hx]
    dsimp only
    rw [if_neg (by simp [hk, hs]), hr]
    dsimp only
    rw [hp]
    rfl
  exact ⟨_, hrun, _, rfl, hmap.mem, ho⟩

end

end Sys2Proof.Machine

open Sys2Proof Sys2Proof.Machine

/-- Settles O7: the state that each stream instruction leaves, and the translation that reading a source does not change. -/
theorem streamTransfers : Obligations.StreamTransfers := by
  unfold Obligations.StreamTransfers
  exact ⟨fun s s1 f st w => ⟨saddr_runs, speer_runs, fun rs h hp hr => sput_runs h hp hr, fun r h hp => sput_peer_runs h hp,
    fun rs h hp hr => sget_runs h hp hr, fun r h hp hd => sget_peer_runs h hp hd, stok_runs,
    fun r h hp hd => stok_peer_runs h hp hd, fun bs h hr => sgather_runs h hr⟩,
    fun s f tag p bs hx hk hs hr => ⟨fun rs => sourceRead_runs hx hk hs hr, fun r => sourceRead_peer_runs hx hk hs hr⟩⟩

end

section
/-! PROOF. O10 fails: the acknowledgement that ends a transfer may write memory. Its local signal takes a full counter past 65,535
(R47), the exception ends the job of the parcel (R76, R149), and the job's end record goes to the output ring (R154). -/

namespace Sys2Proof.Machine

/-- An SGET that waits for its last acknowledgement and will then add 1 to counter 0. -/
def fullGet : Xfer :=
  { tag := 0, kind := .get, index := 0, word := BitVec.twoPow 128 88, loc := 0, remote := 0, bytes := 16, peer := none
    srcRead := true, sig := false, due := 1 }

/-- The acknowledgement of `fullGet`. -/
def fullAck : Flit := { Flit.blank with typ := 4, vc := 1, inst := 1 }

/-- A job of one device, whose output ring stands at address 0 of its owner. -/
def fullCut : Cut :=
  { identity := [], jobHash := [], timed := false, cycle := 0, guardNs := 0, slipMax := 0, beatLimit := 0, jobSize := 1, rank := 0
    job := 0, ranktab := [0], ring := 0, ringLen := 128, gates := [], slots := [] }

/-- A running facet with counter 0 at 65,535, in a parcel of owner 1 whose job runs. The owner's memory is the first granule of
the SRAM of die 0, no way of which is cache; its map's one entry is valid, readable and writable. -/
def fullState : State :=
  { State.reset with
    mem := [(sramBase + 0x1005, 0x18), (sramBase + 0x1007, 0xE0)]
    facets := [(0, { Facet.initial with
      state := .running, owner := some { gen := 0, inst := 1, px := 0, py := 0, pw := 4, ph := 4 }, xfers := [fullGet]
      toks := [(0, 65535)] })]
    mesh := { State.reset.mesh with transit := [{ flit := fullAck, place := .facet 0, since := 0 }] }
    gather := { State.reset.gather with dies := [(0, { GatherDie.initial with ways := 0 })] }
    parcels := [(0, { Parcel.initial with
      valid := true, inst := 1, cut := some fullCut, run := { Run.initial with started := some 0 } })]
    rings := [{ inst := 1, addr := 0, len := 128, prod := 0, seq := 0, users := [0] }]
    insts := State.reset.insts ++ [(1, { Instance.initial with state := .active, mapBase := sramBase + 0x1000, mapLen := 1 })] }

/-- A byte of memory in the state that an outcome answers. -/
def byteAfter (r : Res) (a : Nat) : Option Byte := match r with
  | .next t => some (t.readByte a)
  | _ => none

theorem fullAck_atFacet : fullState.atFacet 0 fullAck = true := by decide

theorem xfer_fullAck : (fullState.facet 0).xfer fullAck.tag = some fullGet := by decide

theorem readByte_fullState : fullState.readByte sramBase = 0 := by decide

/-- The first byte of the ring's PROD, which the end record moves to 64. -/
theorem byteAfter_fullAck : byteAfter (exec (.flitAckReceive 0 fullAck) fullState) sramBase = some 64 := by decide +kernel

end Sys2Proof.Machine

open Sys2Proof Sys2Proof.Machine

/-- Refutes O10: in `fullState` the acknowledgement `fullAck` ends `fullGet`, and byte 0 of the SRAM, the output ring's PROD, goes from
0 to 64, where the clause of acknowledgements has every byte of memory kept. -/
theorem not_flitRows : ¬ Obligations.FlitRows := by
  unfold Obligations.FlitRows
  intro h
  obtain ⟨_, _, _, _, hack, _⟩ := h fullState 0 fullAck (by decide) fullAck_atFacet
  obtain ⟨t, ht, hmem, _⟩ := hack fullGet rfl xfer_fullAck
  have hb := byteAfter_fullAck
  rw [ht, byteAfter, hmem, readByte_fullState] at hb
  exact absurd hb (by decide)

end

section
/-! PROOF. Flits on the mesh: which of them a facet's ingress takes, the way along x, then y, then out by SIDE, and how a router passes
one on (R73, R116, R119 to R124, R126). -/

namespace Sys2Proof.Machine

/-! ## The ingress of a facet (R73, R126) -/

section
variable {s t : State} {f n : Nat} {fl : Flit}

/-- A row of the ingress leaves a flit that is not the next one, whatever it does with the others. -/
theorem ingress_other (ha : s.atFacet f fl = false) : (if fl.typ ≠ n ∨ !s.atFacet f fl then s else t) = s :=
  if_pos (.inr (by rw [ha]; rfl))

/-- A row of the ingress takes the next flit of its type, and of one that the facet does not accept it keeps only the count. -/
theorem ingress_foreign (ht : fl.typ = n) (ha : s.atFacet f fl = true) (ho : (s.facet f).accepts fl.inst fl.gen = false) :
    (if fl.typ ≠ n ∨ !s.atFacet f fl then s
      else if !((s.taken (.facet f) fl).facet f).accepts fl.inst fl.gen then (s.taken (.facet f) fl).facetDiscard f else t) =
    (s.taken (.facet f) fl).facetDiscard f := by
  have hnext : ¬(fl.typ ≠ n ∨ (!s.atFacet f fl) = true) := by simp [ht, ha]
  have hforeign : (!((s.taken (.facet f) fl).facet f).accepts fl.inst fl.gen) = true := congrArg not ho
  rw [if_neg hnext, if_pos hforeign]

end

/-! ## The way of a flit (R121) -/

section
variable {x y : Nat} {fl : Flit}

theorem nextPlace_east (h : x < fl.dx) : nextPlace x y fl = .buf (x + 1) y 3 := by
  have hd : ¬(fl.dx = x ∧ fl.dy = y) := by omega
  simp [nextPlace, hd, outPort, h]

theorem nextPlace_west (h : fl.dx < x) : nextPlace x y fl = .buf (x - 1) y 2 := by
  have hd : ¬(fl.dx = x ∧ fl.dy = y) := by omega
  simp [nextPlace, hd, outPort, h, Nat.lt_asymm h]

theorem nextPlace_north (hx : fl.dx = x) (h : y < fl.dy) : nextPlace x y fl = .buf x (y + 1) 1 := by
  have hd : ¬fl.dy = y := by omega
  simp [nextPlace, hd, outPort, hx, h]

theorem nextPlace_south (hx : fl.dx = x) (h : fl.dy < y) : nextPlace x y fl = .buf x (y - 1) 0 := by
  have hd : ¬fl.dy = y := by omega
  simp [nextPlace, hd, outPort, hx, h, Nat.lt_asymm h]

theorem nextPlace_facet (hx : fl.dx = x) (hy : fl.dy = y) (h : fl.side = 0) : nextPlace x y fl = .facet (facetAt x y) := by
  simp [nextPlace, hx, hy, h]

theorem nextPlace_die {d : Nat} (hx : fl.dx = x) (hy : fl.dy = y) (h : fl.side ≠ 0) (hd : edgeDie x y fl.side = some d) :
    nextPlace x y fl = .die d := by
  simp [nextPlace, hx, hy, hd]

/-- No router sends on a flit whose destination or SIDE is out of range. -/
theorem routeFault_outOfRange (h : 48 ≤ fl.dx ∨ 32 ≤ fl.dy ∨ 5 ≤ fl.side) : routeFault x y fl = some 4 := if_pos h

end

/-! ## A router sends a flit on (R116, R119, R124) -/

section
variable {s : State} {x y port : Nat} {fl : Flit}

/-- What waits at a place after a flit left a router input waited there before. -/
theorem State.mem_leaveInput {h : Hop} (hm : h ∈ (s.leaveInput x y port fl).mesh.transit) :
    ∃ g ∈ s.mesh.transit, g.place = h.place := by
  obtain ⟨g, hg, rfl⟩ := List.mem_map.mp hm
  exact ⟨g, List.mem_of_mem_eraseP hg, by split <;> rfl⟩

/-- A facet whose router has sent a flit of channel `vc` from an input by output `out`. -/
def Facet.served (x : Facet) (out vc port : Nat) : Facet :=
  { x with
    links := x.links.bump out
    wheelPos := if out < 4 then x.wheelPos.put out ((x.wheelPos.getD out 0 + 1) % 16) else x.wheelPos
    lastIn := x.lastIn.put (4 * out + vc) port }

theorem State.facet_forward : (s.forward x y port fl).facet (facetAt x y) =
    (s.facet (facetAt x y)).served (outPort x y fl) fl.vc port :=
  State.facet_modFacet (s.leaveInput x y port fl) (facetAt x y) fun t => t.served (outPort x y fl) fl.vc port

theorem State.forward_links : ((s.forward x y port fl).facet (facetAt x y)).links.getD (outPort x y fl) 0 =
    (s.facet (facetAt x y)).links.getD (outPort x y fl) 0 + 1 := by
  rw [State.facet_forward]
  exact Tbl.getD_put_self ..

theorem State.forward_onlyFacet : OnlyFacet s (s.forward x y port fl) (facetAt x y) :=
  OnlyFacet.modFacet (s.leaveInput x y port fl) (facetAt x y) fun t => t.served (outPort x y fl) fl.vc port

theorem State.forward_sameMem : SameMem s (s.forward x y port fl) := fun _ => rfl

theorem State.forward_transit : (s.forward x y port fl).mesh.transit =
    (s.leaveInput x y port fl).mesh.transit ++ [{ flit := fl, place := nextPlace x y fl, since := s.now }] := rfl

/-- A flit that leaves its place leaves the mesh and nothing else. -/
theorem SameMem.taken (s : State) (pl : Place) (fl : Flit) : SameMem s (s.taken pl fl) := fun _ => rfl

theorem OnlyFacet.taken (s : State) (pl : Place) (fl : Flit) (f : Nat) : OnlyFacet s (s.taken pl fl) f := fun _ _ => rfl

/-- Taking what has just come to a place where nothing waited leaves what was on the way before. -/
theorem State.taken_forward {pl : Place} (hp : nextPlace x y fl = pl) (h : s.firstAt pl (fun _ => true) = none) :
    ((s.forward x y port fl).taken pl fl).mesh = (s.leaveInput x y port fl).mesh := by
  have hfree : ∀ g ∈ (s.leaveInput x y port fl).mesh.transit, ¬(decide (g.place = pl) && decide (g.flit = fl)) = true := by
    intro g hg hat
    obtain ⟨g', hg', hpl⟩ := State.mem_leaveInput hg
    have hne := List.find?_eq_none.mp h g' hg'
    simp only [Bool.and_eq_true, decide_eq_true_eq, and_true] at hat hne
    exact hne (hpl.trans hat.1)
  have herase : (s.forward x y port fl).mesh.transit.eraseP (fun g => decide (g.place = pl) && decide (g.flit = fl)) =
      (s.leaveInput x y port fl).mesh.transit := by
    rw [State.forward_transit, List.eraseP_append_right _ hfree]
    simp [hp]
  exact congrArg (fun l => ({ s.mesh with transit := l } : Mesh)) herase

/-- The flits for a facet, for the next router and for a memory-girdle die wait there for rows of their own. -/
theorem State.dieTakes_waits {t : State} (h : ∀ d, nextPlace x y fl = .die d → d < 8) : t.dieTakes x y fl = t := by
  unfold State.dieTakes
  split
  next d hd => exact if_pos (h d hd)
  next => rfl

/-- A network-girdle or host-girdle die takes its flits at once. -/
theorem State.dieTakes_atOnce {t : State} {d : Nat} (h : nextPlace x y fl = .die d) (hd : 8 ≤ d) : t.dieTakes x y fl =
    if d < 12 ∧ fl.vc = 3 ∧ fl.typ = 0 then
      if fl.tag = 1 then (t.taken (.die d) fl).crossRoceIn d fl else (t.taken (.die d) fl).crossIn d fl
    else t.taken (.die d) fl := by
  simp only [State.dieTakes, h, if_neg (Nat.not_lt.mpr hd)]

end

/-! ## FLIT_ROUTE -/

/-- An answer differs from the flit's own answer in its SIDE at most. -/
theorem answerTo_eq (fl : Flit) (typ : Nat) (payload : List Byte) :
    ∃ side, answerTo fl typ payload = { fl.answer typ payload with side := side } := by
  unfold answerTo
  split
  · exact ⟨_, rfl⟩
  · exact ⟨_, rfl⟩

section
variable {s : State} {x y port : Nat} {fl : Flit} (hx : x < 48) (hy : y < 32) (hh : (s.headAt x y port fl.vc).map (·.flit) = some fl)
include hx hy hh

theorem standsAtHead : ¬(48 ≤ x ∨ 32 ≤ y ∨ (s.headAt x y port fl.vc).map (·.flit) ≠ some fl) := by simp [hx, hy, hh]

theorem flitRoute_chosen (hr : routeFault x y fl = none) (hp : s.pick x y (outPort x y fl) = some (port, fl)) :
    exec (.flitRoute x y port fl) s = .next ((s.forward x y port fl).dieTakes x y fl) := by
  refine congrArg Host.Outcome.next ?_
  rw [if_neg (standsAtHead hx hy hh), hr]
  exact if_pos hp

theorem flitRoute_notChosen (hr : routeFault x y fl = none) (hp : s.pick x y (outPort x y fl) ≠ some (port, fl)) :
    exec (.flitRoute x y port fl) s = .next s := by
  refine congrArg Host.Outcome.next ?_
  rw [if_neg (standsAtHead hx hy hh), hr]
  exact if_neg hp

theorem flitRoute_refused {e : Nat} (hr : routeFault x y fl = some e) : exec (.flitRoute x y port fl) s =
    .next (((s.leaveInput x y port fl).nackEvent (facetAt x y) fl.inst fl.addr e).putFlit (.buf x y 4)
      { answerTo fl 5 (nackBytes e) with sx := x, sy := y }) := by
  refine congrArg Host.Outcome.next ?_
  rw [if_neg (standsAtHead hx hy hh), hr]
  rfl

/-- A flit that goes on to a facet, a router or a memory-girdle die. -/
theorem flitRoute_goesOn (hr : routeFault x y fl = none) (hp : s.pick x y (outPort x y fl) = some (port, fl))
    (hd : ∀ d, nextPlace x y fl = .die d → d < 8) :
    exec (.flitRoute x y port fl) s = .next (s.forward x y port fl) := by
  rw [flitRoute_chosen hx hy hh hr hp, State.dieTakes_waits hd]

/-- A flit that a network-girdle or host-girdle die takes. -/
theorem flitRoute_leaves {d : Nat} (hr : routeFault x y fl = none) (hp : s.pick x y (outPort x y fl) = some (port, fl))
    (hd : nextPlace x y fl = .die d) (h8 : 8 ≤ d) (hfree : s.firstAt (.die d) (fun _ => true) = none) :
    Runs (.flitRoute x y port fl) s fun t => ∃ u : State, u.mesh = (s.leaveInput x y port fl).mesh ∧ SameMem s u ∧
      OnlyFacet s u (facetAt x y) ∧
      t = if d < 12 ∧ fl.vc = 3 ∧ fl.typ = 0 then (if fl.tag = 1 then u.crossRoceIn d fl else u.crossIn d fl) else u :=
  ⟨_, flitRoute_chosen hx hy hh hr hp, (s.forward x y port fl).taken (.die d) fl, State.taken_forward hd hfree,
    State.forward_sameMem.trans (.taken _ _ _), State.forward_onlyFacet.trans (.taken _ _ _ _), State.dieTakes_atOnce hd h8⟩

/-- A flit that names no place of the mesh. -/
theorem flitRoute_outOfRange (h : 48 ≤ fl.dx ∨ 32 ≤ fl.dy ∨ 5 ≤ fl.side) :
    Runs (.flitRoute x y port fl) s fun t => ∃ (a : Flit) (u : State), t = u.putFlit (.buf x y 4) a ∧
      u.mesh = (s.leaveInput x y port fl).mesh ∧ SameMem s u ∧ a.typ = 5 ∧ a.dx = fl.sx ∧ a.dy = fl.sy ∧ a.tag = fl.tag ∧
      fieldAt a.payload 0 2 = 4 := by
  obtain ⟨side, ha⟩ := answerTo_eq fl 5 (nackBytes 4)
  refine ⟨_, flitRoute_refused hx hy hh (routeFault_outOfRange h), _, _, rfl, rfl, fun _ => rfl, ?_⟩
  rw [ha]
  exact ⟨rfl, rfl, rfl, rfl, rfl⟩

end

end Sys2Proof.Machine

open Sys2Proof Sys2Proof.Machine

/-- Settles O9: what each row of a facet's ingress leaves, and the router's choice between refusing a flit, sending it on and keeping it. -/
theorem flitOwnerAndRoute : Obligations.FlitOwnerAndRoute := by
  unfold Obligations.FlitOwnerAndRoute
  refine ⟨fun s f fl _ => ⟨fun ha ho c hc => ?foreign, fun ha c hc => ?other⟩,
    fun s x y port fl hx hy _ hh => ⟨fun hr hp hd => ?goesOn, fun d hr hp hd h8 hfree => flitRoute_leaves hx hy hh hr hp hd h8 hfree,
      fun hr hp => ⟨s, flitRoute_notChosen hx hy hh hr hp, rfl⟩, flitRoute_outOfRange hx hy hh⟩⟩
  case foreign =>
    rcases hc with ⟨rfl, ht⟩ | ⟨rfl, ht⟩ | ⟨rfl, ht⟩ | ⟨rfl, ht⟩
    all_goals exact ⟨_, congrArg Host.Outcome.next (ingress_foreign ht ha ho), rfl⟩
  case other =>
    simp only [List.mem_cons, List.not_mem_nil, or_false] at hc
    rcases hc with rfl | rfl | rfl | rfl | rfl | rfl
    all_goals exact ⟨_, congrArg Host.Outcome.next (ingress_other ha), rfl⟩
  case goesOn =>
    exact ⟨_, flitRoute_goesOn hx hy hh hr hp hd, State.forward_links, State.forward_onlyFacet, State.forward_sameMem,
      State.forward_transit, nextPlace_east, nextPlace_west, nextPlace_north, nextPlace_south, nextPlace_facet,
      fun _ => nextPlace_die⟩

end

section
/-! PROOF. Bank transitions and mesh stalls: how a bank takes a state, how a request begins its transitions, and what a stall records
(R112, R113, R129). -/

namespace Sys2Proof.Machine

/-! ## Stalls (R129) -/

/-- A facet notes a stall at its router: the first one, or that there was another. -/
def Facet.noteStall (x : Facet) (port vc : Nat) : Facet :=
  { x with stall := match x.stall with | some t => some { t with more := true } | none => some { more := false, port, vc } }

/-- The state in which a stall is noted and its event raised, and not yet contained. -/
def State.stallNoted (s : State) (f port vc since : Nat) : State :=
  let u := (s.reach (since + 1000 * s.mesh.holdlim)).modFacet f fun x => x.noteStall port vc
  u.raise blkTBL 0x2103 ((u.facet f).owner.map (·.inst)) f (stallWord (u.facet f).stall).toNat

/-- A stall is contained in the facet's Running parcel, else in the device (R466). -/
def State.containStall (s : State) (f port : Nat) : State :=
  match s.parcelOf f with
  | some p =>
    if s.parcelState p = .running then
      (s.recordFault 0x0005 .parcel f).facetExc f 0x0D 0 ((s.facet f).stream 0).next (0x0100 + port)
    else s.raiseDevice 0x0005 f
  | none => s.raiseDevice 0x0005 f

section
variable {s : State} {f port vc since : Nat}

theorem State.facet_stallNoted : (s.stallNoted f port vc since).facet f = (s.facet f).noteStall port vc :=
  State.facet_modFacet (s.reach (since + 1000 * s.mesh.holdlim)) f fun x => x.noteStall port vc

theorem State.stallNoted_onlyFacet : OnlyFacet s (s.stallNoted f port vc since) f :=
  OnlyFacet.modFacet (s.reach (since + 1000 * s.mesh.holdlim)) f fun x => x.noteStall port vc

/-- A stall changes no facet's state, so that it changes no parcel's. -/
theorem State.parcelState_stallNoted (p : Nat) : (s.stallNoted f port vc since).parcelState p = s.parcelState p := by
  have hst (g : Nat) : ((s.stallNoted f port vc since).facet g).state = (s.facet g).state := by
    by_cases h : g = f
    · rw [h, State.facet_stallNoted]; rfl
    · rw [State.stallNoted_onlyFacet g h]
  simp only [State.parcelState, hst]
  rfl

/-- Recording a fault changes no facet. -/
theorem State.recordFault_facets (s : State) (code : Nat) (scope : Scope) (object : Nat) :
    (s.recordFault code scope object).facets = s.facets := by
  simp only [State.recordFault]
  split
  · rfl
  · split <;> rfl

variable {h : Hop} (hh : s.headAt (facetX f) (facetY f) port vc = some h)
include hh

theorem meshStall_eq : exec (.meshStall f port vc) s = .next ((s.stallNoted f port vc h.since).containStall f port) := by
  refine congrArg Host.Outcome.next ?_
  rw [hh]
  rfl

/-- A stall at the router of a facet that no parcel holds is a fault of the device. -/
theorem meshStall_device (hp : s.parcelOf f = none) :
    exec (.meshStall f port vc) s = .next ((s.stallNoted f port vc h.since).raiseDevice 0x0005 f) := by
  have hp' : (s.stallNoted f port vc h.since).parcelOf f = none := hp
  rw [meshStall_eq hh, State.containStall, hp']

/-- A stall at the router of a facet of a running parcel is that facet's exception. -/
theorem meshStall_parcel {p : Nat} (hp : s.parcelOf f = some p) (hr : s.parcelState p = .running) :
    exec (.meshStall f port vc) s = .next (((s.stallNoted f port vc h.since).recordFault 0x0005 .parcel f).facetExc f 0x0D 0
      ((s.facet f).stream 0).next (0x0100 + port)) := by
  have hp' : (s.stallNoted f port vc h.since).parcelOf f = some p := hp
  have hr' : (s.stallNoted f port vc h.since).parcelState p = .running := (State.parcelState_stallNoted p).trans hr
  rw [meshStall_eq hh, State.containStall, hp']
  dsimp only
  rw [if_pos hr', State.facet_stallNoted]
  rfl

end

/-! ## A bank takes a state (R112) -/

/-- A byte after a range of addresses was erased. -/
theorem Memory.get_erase (p : Nat → Bool) (m : List Host.Cell) (a : Nat) :
    Memory.get (Memory.erase p m) a = if p a then 0 else Memory.get m a := by
  induction m with
  | nil => exact (ite_self _).symm
  | cons c m ih =>
    obtain ⟨k, b⟩ := c
    have ih' : Memory.get (m.filter fun c => !p c.1) a = if p a then 0 else Memory.get m a := ih
    by_cases hk : k = a
    · subst hk
      cases hp : p k <;> simp [Memory.erase, Memory.get, hp, ih']
    · cases hp : p k <;> simp [Memory.erase, Memory.get, hp, ih', hk]

/-- A facet with one of its banks in a state. -/
def Facet.withBank (x : Facet) (b : Nat) (t : BankState) : Facet :=
  { x with banks := if t = .on then Tbl.del x.banks b else x.banks.put b t }

section
variable {s : State} {f b : Nat} {q : BankState}

theorem Facet.bank_withBank (x : Facet) (b : Nat) (t : BankState) : (x.withBank b t).bank b = t := by
  by_cases h : t = .on
  · simp [Facet.withBank, Facet.bank, h]
  · simp [Facet.withBank, Facet.bank, h]

theorem Facet.bank_withBank_ne (x : Facet) {b c : Nat} (t : BankState) (h : c ≠ b) : (x.withBank b t).bank c = x.bank c := by
  by_cases ht : t = .on
  · simp [Facet.withBank, Facet.bank, ht, Tbl.getD_del_ne _ h]
  · simp [Facet.withBank, Facet.bank, ht, Tbl.getD_put_ne _ h]

/-- Zeroing a range of a scratchpad changes no facet. -/
theorem State.zeroRange_spad_facets (s : State) (f off n : Nat) : (s.zeroRange (spadAddr f off) n).facets = s.facets := by
  simp only [State.zeroRange, if_neg (Nat.not_lt.mpr (hbmSize_le_spadAddr f off))]

/-- A range of a scratchpad reads as zeros once zeroed, and no other byte changes. -/
theorem State.readByte_zeroRange_spad (s : State) (f off n a : Nat) : (s.zeroRange (spadAddr f off) n).readByte a =
    if spadAddr f off ≤ a ∧ a < spadAddr f off + n then 0 else s.readByte a := by
  have hlo := hbmSize_le_spadAddr f off
  have hout : a < hbmSize → ¬(spadAddr f off ≤ a ∧ a < spadAddr f off + n) := fun h g => by omega
  simp only [State.zeroRange, if_neg (Nat.not_lt.mpr hlo), State.readByte, Memory.get_erase, decide_eq_true_eq]
  by_cases ha : a < hbmSize
  · simp only [if_pos ha, if_neg (hout ha)]
    rfl
  · simp only [if_neg ha]

theorem State.setBank_eq (s : State) (f b : Nat) (q : BankState) : s.setBank f b q =
    if q = .off then (s.modFacet f fun x => x.withBank b q).zeroRange (spadAddr f (0x1_0000 * b)) 0x1_0000
    else s.modFacet f fun x => x.withBank b q := rfl

theorem State.setBank_facets (s : State) (f b : Nat) (q : BankState) :
    (s.setBank f b q).facets = (s.modFacet f fun x => x.withBank b q).facets := by
  rw [State.setBank_eq]
  split
  · exact State.zeroRange_spad_facets ..
  · rfl

theorem State.facet_setBank (s : State) (f b : Nat) (q : BankState) : (s.setBank f b q).facet f = (s.facet f).withBank b q :=
  (congrArg (Tbl.getD · f Facet.initial) (State.setBank_facets s f b q)).trans (State.facet_modFacet ..)

theorem State.setBank_onlyFacet (s : State) (f b : Nat) (q : BankState) : OnlyFacet s (s.setBank f b q) f := fun g hg =>
  (congrArg (Tbl.getD · g Facet.initial) (State.setBank_facets s f b q)).trans (OnlyFacet.modFacet s f _ g hg)

theorem State.readByte_setBank (s : State) (f b : Nat) (q : BankState) (a : Nat) : (s.setBank f b q).readByte a =
    if q = .off ∧ spadAddr f (0x1_0000 * b) ≤ a ∧ a < spadAddr f (0x1_0000 * b) + 0x1_0000 then 0 else s.readByte a := by
  rw [State.setBank_eq]
  by_cases h : q = .off
  · rw [if_pos h, State.readByte_zeroRange_spad, SameMem.modFacet s f _ a]
    simp only [h, true_and]
  · rw [if_neg h, if_neg fun g => h g.1]
    exact SameMem.modFacet s f _ a

/-! ## A bank begins a transition (R113) -/

/-- No transition begins towards the state in which a bank is. -/
theorem State.startBank_idle (h : (s.facet f).bankWant b = (s.facet f).bank b) : s.startBank f b = s := if_pos (.inr h)

/-- A request asks nothing more of a bank that has gone where it asks. -/
theorem bankOf_bankOf (code : Nat) (t : BankState) : bankOf code (bankOf code t) = bankOf code t :=
  match code with
  | 0 | 1 | 2 | _ + 3 => rfl

theorem Facet.bankWant_withBank {x : Facet} (h : x.bankWant b = q) : (x.withBank b q).bankWant b = q := by
  have hb : (x.withBank b q).bankWant b = bankOf (bitsOf x.bankReq.toNat (2 * b + 1) (2 * b)) q :=
    congrArg (bankOf _) (Facet.bank_withBank x b q)
  rw [hb, ← h]
  exact bankOf_bankOf ..

theorem bankTransitionDone_ends (hm : (s.facet f).bankMove.find b = some q) (hw : (s.facet f).bankWant b = q) :
    exec (.bankTransitionDone f b) s = .next ((s.modFacet f fun x => { x with bankMove := Tbl.del x.bankMove b }).setBank f b q) := by
  refine congrArg Host.Outcome.next ?_
  rw [hm]
  apply State.startBank_idle
  rw [State.facet_setBank, Facet.bank_withBank, State.facet_modFacet]
  exact Facet.bankWant_withBank hw

end

/-! ## TBL_BANKPWR (R113) -/

/-- From `s` to `t` transitions of the banks `l` of a facet began, of those in none that are to change, and nothing else happened. -/
structure BanksBegin (s t : State) (f : Nat) (l : List Nat) : Prop where
  facet  : ∃ moves, t.facet f = { s.facet f with bankMove := moves }
  others : OnlyFacet s t f
  mem    : SameMem s t
  begins : ∀ c, (t.facet f).bankMove.find c =
    if c ∈ l ∧ (s.facet f).bankMove.find c = none ∧ (s.facet f).bankWant c ≠ (s.facet f).bank c then some ((s.facet f).bankWant c)
    else (s.facet f).bankMove.find c

section
variable {s t u : State} {f : Nat}

theorem BanksBegin.nil (s : State) (f : Nat) : BanksBegin s s f [] :=
  ⟨⟨_, rfl⟩, OnlyFacet.refl s f, SameMem.refl s, fun c => (if_neg (by simp)).symm⟩

theorem BanksBegin.startBank (s : State) (f b : Nat) : BanksBegin s (s.startBank f b) f [b] := by
  by_cases h : (s.facet f).bankMove.has b = true ∨ (s.facet f).bankWant b = (s.facet f).bank b
  · have hs : s.startBank f b = s := if_pos h
    rw [hs]
    refine ⟨⟨_, rfl⟩, OnlyFacet.refl s f, SameMem.refl s, fun c => (if_neg ?_).symm⟩
    rintro ⟨hc, hm, hw⟩
    obtain rfl := List.mem_singleton.mp hc
    exact h.elim (fun hm' => by simp [Tbl.has, hm] at hm') hw
  · have hs : s.startBank f b = s.putFacet f { s.facet f with bankMove := (s.facet f).bankMove.put b ((s.facet f).bankWant b) } := if_neg h
    obtain ⟨hm, hw⟩ := not_or.mp h
    have hnone : (s.facet f).bankMove.find b = none := by simpa [Tbl.has] using hm
    rw [hs]
    refine ⟨⟨_, State.facet_putFacet ..⟩, OnlyFacet.putFacet _ _ _, SameMem.putFacet _ _ _, fun c => ?_⟩
    rw [State.facet_putFacet]
    by_cases hc : c = b
    · rw [hc, if_pos ⟨List.mem_singleton_self b, hnone, hw⟩]
      exact Tbl.find_put_self ..
    · rw [if_neg fun hl => hc (List.mem_singleton.mp hl.1)]
      exact Tbl.find_put_ne _ hc _

theorem BanksBegin.append {l m : List Nat} (h : BanksBegin s t f l) (g : BanksBegin t u f m) : BanksBegin s u f (l ++ m) := by
  obtain ⟨⟨ms, hs⟩, ho, hm, hb⟩ := h
  obtain ⟨⟨mt, ht⟩, go, gm, gb⟩ := g
  refine ⟨⟨mt, by rw [ht, hs]⟩, ho.trans go, hm.trans gm, fun c => ?_⟩
  have hwant : (t.facet f).bankWant c = (s.facet f).bankWant c := by rw [hs]; rfl
  have hbank : (t.facet f).bank c = (s.facet f).bank c := by rw [hs]; rfl
  rw [gb c, hb c, hwant, hbank]
  by_cases hc : (s.facet f).bankMove.find c = none ∧ (s.facet f).bankWant c ≠ (s.facet f).bank c
  · by_cases hl : c ∈ l <;> by_cases hr : c ∈ m <;> simp [hl, hr, hc]
  · have hno (k : List Nat) : ¬(c ∈ k ∧ (s.facet f).bankMove.find c = none ∧ (s.facet f).bankWant c ≠ (s.facet f).bank c) :=
      fun h => hc h.2
    rw [if_neg (hno l), if_neg (hno m), if_neg (hno _)]

theorem BanksBegin.foldl (l : List Nat) (s : State) (f : Nat) : BanksBegin s (l.foldl (fun s b => s.startBank f b) s) f l := by
  induction l generalizing s with
  | nil => exact BanksBegin.nil s f
  | cons b l ih => exact (BanksBegin.startBank s f b).append (ih _)

end

/-- The low bits of a word hold its low fields. -/
theorem bitsOf_mod (n : Nat) {hi lo w : Nat} (hl : lo ≤ hi) (h : hi < w) : bitsOf (n % 2 ^ w) hi lo = bitsOf n hi lo := by
  have hw : 2 ^ w = 2 ^ lo * 2 ^ (w - lo) := by rw [← pow_add]; congr 1; omega
  rw [bitsOf, hw, Nat.mod_mul_right_div_self, Nat.mod_mod_of_dvd _ (pow_dvd_pow 2 (by omega)), bitsOf]

/-- The facet after a write of DOZE_KEEP. -/
def Facet.keepInDoze (x : Facet) (v : BitVec 64) : Facet := { x with dozeKeep := BitVec.ofNat 16 (bitsOf v.toNat 47 32) }

/-- The facet after a write of STATE, before its transitions begin. -/
def Facet.askBanks (x : Facet) (v : BitVec 64) : Facet := { x with bankReq := BitVec.ofNat 32 v.toNat }.keepBankSet

section
variable {s : State} {f : Nat} {v : BitVec 64}

theorem Facet.bankWant_askBanks (x : Facet) (v : BitVec 64) {b : Nat} (hb : b < 16) :
    (x.askBanks v).bankWant b = bankOf (bitsOf v.toNat (2 * b + 1) (2 * b)) (x.bank b) := by
  have h : (x.askBanks v).bankWant b = bankOf (bitsOf (v.toNat % 2 ^ 32) (2 * b + 1) (2 * b)) (x.bank b) := rfl
  rw [h, bitsOf_mod _ (by omega) (by omega)]

/-- A write of TBL_BANKPWR is the write of the facet's bank power. -/
theorem State.regWrite_TBL_BANKPWR (hf : f < nFacets) (v : BitVec 64) :
    s.regWrite (baseTBL + 0x1_0000 * f) v = s.writeBankPwr f v := by
  have hf' : f < 1536 := hf
  have hr : s.readBlock blkTBL (0x1_0000 * f) =
      some (pack [(32, 16, (s.facet f).dozeKeep.toNat), (0, 32, (s.facet f).bankReq.toNat)], s) :=
    State.readBlock_TBL (o := 0) hf (by decide)
  rw [State.regWrite_block v (by simp only [baseTBL]; omega) (blockAt_TBL (off := 0x1_0000 * f) (by omega)) hr]
  have h1 : ¬(0x1_0000 * f = 0x800_0000) := by omega
  have h2 : 0x1_0000 * f / 0x1_0000 = f := by omega
  have h3 : 0x1_0000 * f % 0x1_0000 = 0 := by omega
  have e : s.writeBlock blkTBL (0x1_0000 * f) v =
      if 0x1_0000 * f = 0x800_0000 then
        if bitsOf v.toNat 23 0 = 0 then s else { s with mesh := { s.mesh with holdlim := bitsOf v.toNat 23 0 } }
      else if 0x1_0000 * f % 0x1_0000 = 0 then s.writeBankPwr (0x1_0000 * f / 0x1_0000) v
      else if 0x1_0000 * f % 0x1_0000 = 0x140 then s.writeStall (0x1_0000 * f / 0x1_0000) v else s := rfl
  rw [e, if_neg h1, h2, if_pos h3]

/-- The state in which a write of TBL_BANKPWR stands in its facet's registers, and no transition has begun. -/
def State.bankAsked (s : State) (f : Nat) (v : BitVec 64) : State :=
  ((s.modFacet f fun x => x.keepInDoze v).modFacet f fun x => { x with bankReq := BitVec.ofNat 32 v.toNat }).modFacet f Facet.keepBankSet

theorem State.facet_bankAsked : (s.bankAsked f v).facet f = ((s.facet f).keepInDoze v).askBanks v := by
  simp only [State.bankAsked, State.facet_modFacet]
  rfl

theorem State.bankAsked_onlyFacet : OnlyFacet s (s.bankAsked f v) f :=
  (OnlyFacet.modFacet _ _ _).trans ((OnlyFacet.modFacet _ _ _).trans (OnlyFacet.modFacet _ _ _))

theorem State.bankAsked_sameMem : SameMem s (s.bankAsked f v) := fun _ => rfl

/-- The banks of an Empty or Faulted facet go where the register asks. -/
theorem State.writeBankPwr_begins (hs : (s.facet f).state = .empty ∨ (s.facet f).state = .faulted) :
    s.writeBankPwr f v = (List.range 16).foldl (fun s b => s.startBank f b) (s.bankAsked f v) := by
  have hk : ((s.modFacet f fun x => x.keepInDoze v).facet f).state = (s.facet f).state := by
    rw [State.facet_modFacet]; rfl
  exact if_pos (by rw [← hk] at hs; exact hs)

theorem State.writeBankPwr_refused (he : (s.facet f).state ≠ .empty) (hf : (s.facet f).state ≠ .faulted) : s.writeBankPwr f v =
    (s.modFacet f fun x => x.keepInDoze v).raise blkTBL 0x2001 none (baseTBL + 0x1_0000 * f) v.toNat := by
  have hk : ((s.modFacet f fun x => x.keepInDoze v).facet f).state = (s.facet f).state := by
    rw [State.facet_modFacet]; rfl
  exact if_neg (by rw [← hk] at he hf; exact not_or.mpr ⟨he, hf⟩)

end

/-- The facet of `s` as a write of TBL_BANKPWR leaves it, with the transitions that it begins. -/
theorem tblBankpwrWrite_begins {s : State} {f : Nat} {v : BitVec 64} (hf : f < nFacets)
    (hs : (s.facet f).state = .empty ∨ (s.facet f).state = .faulted) :
    Runs (.tblBankpwrWrite f v) s fun t => ∃ moves, t.facet f = { ((s.facet f).keepInDoze v).askBanks v with bankMove := moves } ∧
      OnlyFacet s t f ∧ SameMem s t ∧ ∀ b < 16, (s.facet f).bankMove.has b = false → moves.find b =
        if bankOf (bitsOf v.toNat (2 * b + 1) (2 * b)) ((s.facet f).bank b) = (s.facet f).bank b then none
        else some (bankOf (bitsOf v.toNat (2 * b + 1) (2 * b)) ((s.facet f).bank b)) := by
  refine ⟨_, congrArg Host.Outcome.next ((State.regWrite_TBL_BANKPWR hf v).trans (State.writeBankPwr_begins hs)), ?_⟩
  obtain ⟨⟨moves, hx⟩, ho, hm, hb⟩ := BanksBegin.foldl (List.range 16) (s.bankAsked f v) f
  rw [State.facet_bankAsked] at hx hb
  refine ⟨moves, hx, State.bankAsked_onlyFacet.trans ho, State.bankAsked_sameMem.trans hm, fun b h16 hno => ?_⟩
  have hnone : (((s.facet f).keepInDoze v).askBanks v).bankMove.find b = none :=
    Option.not_isSome_iff_eq_none.mp (Bool.not_eq_true _ ▸ hno)
  have hbank : (((s.facet f).keepInDoze v).askBanks v).bank b = (s.facet f).bank b := rfl
  have hfind := hb b
  rw [hx, Facet.bankWant_askBanks _ v h16, hbank, hnone] at hfind
  refine hfind.trans ?_
  by_cases hw : bankOf (bitsOf v.toNat (2 * b + 1) (2 * b)) ((s.facet f).bank b) = (s.facet f).bank b
  · rw [if_pos hw]
    exact if_neg fun h => h.2.2 hw
  · rw [if_neg hw]
    exact if_pos ⟨List.mem_range.mpr h16, rfl, hw⟩

end Sys2Proof.Machine

open Sys2Proof Sys2Proof.Machine

/-- Settles O11: the state that notes a stall and what contains it, the bank that has moved, and the banks that begin to. -/
theorem banksAndStalls : Obligations.BanksAndStalls := by
  unfold Obligations.BanksAndStalls
  refine fun s f hf => ⟨fun port vc h hh hst hp => ?device, fun port vc h x p hh hst hp hr => ?parcel, fun b q _ hm hw => ?moved,
    fun v hs => ?begins, fun v he hfa => ?refused⟩
  case device =>
    refine ⟨_, meshStall_device hh hp, _, rfl, State.stallNoted_onlyFacet, fun _ => rfl, rfl, rfl, ?_⟩
    rw [State.facet_stallNoted, Facet.noteStall, hst]
  case parcel =>
    refine ⟨_, meshStall_parcel hh hp hr, _, rfl, ?_⟩
    rw [State.facet, State.recordFault_facets, ← State.facet, State.facet_stallNoted, Facet.noteStall, hst]
  case moved =>
    refine ⟨_, bankTransitionDone_ends hm hw, ?_⟩
    simp only [State.facet_setBank, State.facet_modFacet]
    exact ⟨Facet.bank_withBank .., Tbl.find_del_self .., fun c hc => Facet.bank_withBank_ne _ q hc,
      (OnlyFacet.modFacet _ _ _).trans (State.setBank_onlyFacet _ _ _ _), State.readByte_setBank _ f b q⟩
  case begins =>
    obtain ⟨t, ht, moves, hx, ho, hm, hb⟩ := tblBankpwrWrite_begins (v := v) hf hs
    refine ⟨t, ht, ?_⟩
    simp only [hx]
    exact ⟨rfl, rfl, rfl, ho, hm, hb⟩
  case refused =>
    exact ⟨_, congrArg Host.Outcome.next ((State.regWrite_TBL_BANKPWR hf v).trans (State.writeBankPwr_refused he hfa)),
      s.modFacet f fun x => x.keepInDoze v, rfl, State.facet_modFacet .., OnlyFacet.modFacet _ _ _, SameMem.modFacet _ _ _⟩

end

section
/-! PROOF. Flits at a memory-girdle die: writes to girdle SRAM and into a stack's queue, and reads of both (R117, R125, R130, R164 to
R168). -/

namespace Sys2Proof.Machine

/-! ## Bytes of memory and queued writes (R164) -/

theorem Memory.read_eq_of_get (bs : List Byte) {m : List Host.Cell} {a : Nat} (h : ∀ j (hj : j < bs.length), Memory.get m (a + j) = bs[j]) :
    Memory.read m a bs.length = bs := by
  induction bs generalizing a with
  | nil => rfl
  | cons b bs ih =>
    have hb : Memory.get m a = b := h 0 (Nat.zero_lt_succ _)
    have ht : Memory.read m (a + 1) bs.length = bs := ih fun j hj => by
      rw [Nat.add_assoc, Nat.add_comm 1 j]
      exact h (j + 1) (Nat.succ_lt_succ hj)
    exact congrArg₂ List.cons hb ht

theorem Memory.read_write (bs : List Byte) {m : List Host.Cell} (hm : Memory.wf m = true) (a : Nat) :
    Memory.read (Memory.write m a bs) a bs.length = bs :=
  Memory.read_eq_of_get bs fun j hj => Memory.get_write_inside bs m a j hm hj

/-- A write at the end of a queue says nothing of the bytes outside it. -/
theorem queuedByte_append_outside (ws : List HbmWrite) {w : HbmWrite} {a : Nat} (h : ¬(w.addr ≤ a ∧ a < w.addr + w.data.length)) :
    queuedByte (ws ++ [w]) a = queuedByte ws a := by
  simp only [queuedByte, List.foldl_append, List.foldl_cons, List.foldl_nil, if_neg h]

/-- A die's girdle SRAM lies above the HBM. -/
theorem hbmSize_le_of_sram {a k off : Nat} (h : regionOf a = .sram k off) : hbmSize ≤ a := by
  by_contra hlt
  rw [regionOf, if_pos (Nat.lt_of_not_le hlt)] at h
  exact absurd h nofun

/-! ## A write that enters a stack's queue (R164) -/

section
variable {s : State} {a i : Nat} {bs : List Byte} {g : BitVec 16}

theorem State.queueWrite_queues (hb : s.hbm.bad = []) (hk : s.stackOf (a + bs.length - 1) = s.stackOf a) :
    s.queueWrite a bs i g = ((s.modStack (s.stackOf a) fun x =>
      { x with writes := x.writes ++ [{ addr := a, data := bs, inst := i, gen := g }] }).dropRows a bs.length, true) := by
  simp [State.queueWrite, hb, hk]

theorem State.readByte_queueOutside {k b : Nat} {w : HbmWrite} (h : ¬(w.addr ≤ b ∧ b < w.addr + w.data.length)) :
    (s.modStack k fun x => { x with writes := x.writes ++ [w] }).readByte b = s.readByte b := by
  have hq : queuedByte ((s.modStack k fun x => { x with writes := x.writes ++ [w] }).stack (s.stackOf b)).writes b =
      queuedByte (s.stack (s.stackOf b)).writes b := by
    by_cases hk : s.stackOf b = k
    · rw [hk, State.stack_modStack]
      exact queuedByte_append_outside _ h
    · rw [State.stack_modStack_ne _ _ hk]
  have hz : (s.modStack k fun x => { x with writes := x.writes ++ [w] }).stackOf b = s.stackOf b := rfl
  simp only [State.readByte, hz, hq, State.modStack_mem]

end

/-! ## The end of a transfer's WRITE flits (R127) -/

section
variable {s : State} {k : Nat} {fl : Flit}

/-- The state after a WRITE flit of a transfer of which nothing was refused. -/
theorem State.mgLast_ack (h : (s.memDie k).refused.find (transferKey fl) = none) :
    s.mgLast k fl = if fl.last then s.dieSend k (answerTo fl 4 []) else s := by
  unfold State.mgLast
  rw [h]
  cases fl.last <;> rfl

/-- Ending a transfer changes the mesh only. -/
theorem State.mgLast_frame (h : (s.memDie k).refused.find (transferKey fl) = none) :
    (s.mgLast k fl).mem = s.mem ∧ (s.mgLast k fl).facets = s.facets ∧ (s.mgLast k fl).hbm = s.hbm := by
  rw [State.mgLast_ack h]
  split
  · exact ⟨rfl, rfl, rfl⟩
  · exact ⟨rfl, rfl, rfl⟩

theorem State.readByte_of_frame {s t : State} (hm : t.mem = s.mem) (hh : t.hbm = s.hbm) (a : Nat) : t.readByte a = s.readByte a := by
  simp only [State.readByte, State.stack, State.stackOf, hm, hh]

/-! ## Writes (R164, R165) -/

/-- The state in which a WRITE flit's bytes are in memory. -/
def State.storedFlit (s : State) (fl : Flit) : State := { s with mem := Memory.write s.mem fl.addr fl.data }

theorem State.mgWriteArrive_free (h : s.heldBehind fl = none) : s.mgWriteArrive k fl = s.mgWrite k fl := by
  rw [State.mgWriteArrive, h]

theorem State.mgWrite_sram {off : Nat} (hr : regionOf fl.addr = .sram k off) (hc : s.cacheMeets k off fl.data.length = false)
    (hn : off + fl.data.length ≤ 0x0200_0000) (hb : s.hbm.bad = []) :
    s.mgWrite k fl = (s.storedFlit fl).mgLast k fl := by
  have hin : ¬(k ≠ k ∨ s.cacheMeets k off fl.data.length = true ∨ 0x0200_0000 < off + fl.data.length) := by
    simp [hc, Nat.not_lt.mpr hn]
  simp only [State.mgWrite, hr, if_neg hin, State.storeRaw_sound hb (hbmSize_le_of_sram hr), if_true]
  rfl

/-- The state in which a WRITE flit to HBM is charged and has entered its stack's queue. -/
def State.queuedFlit (s : State) (fl : Flit) : State :=
  ((s.charge fl.inst 2 (hbmBytes [(fl.addr, fl.data.length)])).modStack (s.stackOf fl.addr) fun x =>
    { x with writes := x.writes ++ [{ addr := fl.addr, data := fl.data, inst := fl.inst, gen := fl.gen }] }).dropRows fl.addr fl.data.length

theorem State.mgWrite_hbm (hr : regionOf fl.addr = .hbm) (hd : dieOfStack (s.stackOf fl.addr) = k)
    (hs : (s.stack (s.stackOf fl.addr)).state ≠ .failed) (hb : s.hbm.bad = [])
    (hk : s.stackOf (fl.addr + fl.data.length - 1) = s.stackOf fl.addr) :
    s.mgWrite k fl = (s.queuedFlit fl).mgLast k fl := by
  have hq := State.queueWrite_queues (s := s.charge fl.inst 2 (hbmBytes [(fl.addr, fl.data.length)])) (i := fl.inst) (g := fl.gen) hb hk
  simp only [State.mgWrite, hr, if_neg (not_not_intro hd), if_neg hs, hq, if_true]
  rfl

theorem State.readByte_queuedFlit {b : Nat} (h : ¬(fl.addr ≤ b ∧ b < fl.addr + fl.data.length)) :
    (s.queuedFlit fl).readByte b = s.readByte b :=
  State.readByte_queueOutside (s := s.charge fl.inst 2 (hbmBytes [(fl.addr, fl.data.length)])) h

theorem State.writes_queuedFlit : ((s.queuedFlit fl).stack (s.stackOf fl.addr)).writes = (s.stack (s.stackOf fl.addr)).writes ++
    [{ addr := fl.addr, data := fl.data, inst := fl.inst, gen := fl.gen }] :=
  congrArg Stack.writes (State.stack_modStack (s.charge fl.inst 2 (hbmBytes [(fl.addr, fl.data.length)])) (s.stackOf fl.addr) fun x =>
    { x with writes := x.writes ++ [{ addr := fl.addr, data := fl.data, inst := fl.inst, gen := fl.gen }] })

/-! ## Reads (R117, R165) -/

/-- The request of a READ flit to HBM, with the data that it found (R164). -/
def State.readOf (s : State) (fl : Flit) : HbmRead :=
  { flit := fl, addr := unit32 fl.addr, units := (fl.addr + (readFields fl).2.1 + 31) / 32 - fl.addr / 32, done := 0, second := false
    data := s.readBytes fl.addr (readFields fl).2.1 }

theorem State.readOf_sameMem {s t : State} (h : SameMem s t) (fl : Flit) : t.readOf fl = s.readOf fl := by
  rw [State.readOf, State.readBytes_of_sameMem h]
  rfl

/-- A request waits for its stack. -/
def State.queueRead (s : State) (k : Nat) (r : HbmRead) : State := s.modStack k fun x => { x with reads := x.reads ++ [r] }

theorem State.mgReadArrive_hbm (hc : fl.tokc = 0) (hn : fl.tokn = 0) (hf : (readFields fl).2.2 = false) (hr : regionOf fl.addr = .hbm)
    (hd : dieOfStack (s.stackOf fl.addr) = k) (hlen : fl.addr + (readFields fl).2.1 ≤ hbmSize)
    (hs : (s.stack (s.stackOf fl.addr)).state ≠ .failed) : s.mgReadArrive k fl = s.queueRead (s.stackOf fl.addr) (s.readOf fl) := by
  have hgood : ¬((readFields fl).2.2 = true ∨ fl.tokc ≠ 0 ∨ fl.tokn ≠ 0) := by simp [hf, hc, hn]
  have hin : ¬(dieOfStack (s.stackOf fl.addr) ≠ k ∨ hbmSize < fl.addr + (readFields fl).2.1) := by simp [hd, Nat.not_lt.mpr hlen]
  simp only [State.mgReadArrive, if_neg hgood, hr, if_neg hin, if_neg hs]
  rfl

theorem State.mgReadArrive_sram {off : Nat} (hc : fl.tokc = 0) (hn : fl.tokn = 0) (hf : (readFields fl).2.2 = false)
    (hr : regionOf fl.addr = .sram k off) (hw : s.cacheMeets k off (readFields fl).2.1 = false)
    (hlen : off + (readFields fl).2.1 ≤ 0x0200_0000) (hb : s.rangeBad fl.addr (readFields fl).2.1 = false) :
    s.mgReadArrive k fl = (dataFlits fl (facetAt fl.sx fl.sy) ((readFields fl).2.1 / 128 + 1) (readFields fl).1
      (s.readBytes fl.addr (readFields fl).2.1)).foldl (fun s g => s.dieSend k g) s := by
  have hgood : ¬((readFields fl).2.2 = true ∨ fl.tokc ≠ 0 ∨ fl.tokn ≠ 0) := by simp [hf, hc, hn]
  have hin : ¬(k ≠ k ∨ s.cacheMeets k off (readFields fl).2.1 = true ∨ 0x0200_0000 < off + (readFields fl).2.1) := by
    simp [hw, Nat.not_lt.mpr hlen]
  have hsound : ¬s.rangeBad fl.addr (readFields fl).2.1 = true := by simp [hb]
  simp only [State.mgReadArrive, if_neg hgood, hr, if_neg hin, if_neg hsound]

/-- A stack's reads that wait are no part of what memory reads as. -/
theorem State.modStack_sameMem (s : State) (k : Nat) {g : Stack → Stack} (hg : ∀ x, (g x).writes = x.writes) :
    SameMem s (s.modStack k g) := fun a => by
  have hw : ((s.modStack k g).stack (s.stackOf a)).writes = (s.stack (s.stackOf a)).writes := by
    by_cases h : s.stackOf a = k
    · rw [h, State.stack_modStack, hg]
    · rw [State.stack_modStack_ne _ _ h]
  have hz : (s.modStack k g).stackOf a = s.stackOf a := rfl
  simp only [State.readByte, hz, hw, State.modStack_mem]

theorem State.queueRead_sameMem (s : State) (k : Nat) (r : HbmRead) : SameMem s (s.queueRead k r) := State.modStack_sameMem s k fun _ => rfl

theorem State.reads_queueRead (s : State) (k : Nat) (r : HbmRead) : ((s.queueRead k r).stack k).reads = (s.stack k).reads ++ [r] :=
  congrArg Stack.reads (State.stack_modStack s k fun x => { x with reads := x.reads ++ [r] })

/-- What a die sends is on the mesh and nowhere else. -/
theorem foldl_dieSend_frame (k : Nat) (l : List Flit) (s : State) :
    SameMem s (l.foldl (fun s g => s.dieSend k g) s) ∧ (l.foldl (fun s g => s.dieSend k g) s).facets = s.facets := by
  induction l generalizing s with
  | nil => exact ⟨SameMem.refl s, rfl⟩
  | cons g l ih =>
    obtain ⟨hm, hf⟩ := ih (s.dieSend k g)
    exact ⟨SameMem.trans (t := s.dieSend k g) (fun _ => rfl) hm, hf⟩

end

/-! ## MG_FLIT_RECEIVE -/

section
variable {s : State} {k : Nat} {fl : Flit}

theorem mgFlitReceive_other (ha : s.atDie k fl = false) : exec (.mgFlitReceive k fl) s = .next s :=
  congrArg Host.Outcome.next (if_pos (.inr (by rw [ha]; rfl)))

variable (hd : s.dieFailed k = false) (ha : s.atDie k fl = true)
include hd ha

/-- A live die takes the next flit, of any type but DESC. -/
theorem mgIngress_next {t u : State} (ht : fl.typ ≠ 6) :
    (if fl.typ = 6 ∨ !s.atDie k fl then s else if (s.taken (.die k) fl).dieFailed k then t else u) = u := by
  have hnext : ¬(fl.typ = 6 ∨ (!s.atDie k fl) = true) := by simp [ht, ha]
  have hdie : (s.taken (.die k) fl).dieFailed k = false := hd
  rw [if_neg hnext, if_neg (by rw [hdie]; nofun)]

theorem mgFlitReceive_old (ht : fl.typ ≠ 6) (hg : s.genOf fl.inst ≠ fl.gen) :
    exec (.mgFlitReceive k fl) s = .next ((s.taken (.die k) fl).mgDiscard k) :=
  congrArg Host.Outcome.next ((mgIngress_next hd ha ht).trans (if_pos hg))

theorem mgFlitReceive_write (ht : fl.typ = 0) (hg : s.genOf fl.inst = fl.gen) (hc : fl.tokc = 0) (hn : fl.tokn = 0) :
    exec (.mgFlitReceive k fl) s = .next ((s.taken (.die k) fl).mgWriteArrive k fl) := by
  refine congrArg Host.Outcome.next ((mgIngress_next hd ha (by omega)).trans ((if_neg (not_not_intro hg)).trans ?_))
  rw [ht]
  exact if_neg (by simp [hc, hn])

theorem mgFlitReceive_read (ht : fl.typ = 1) (hg : s.genOf fl.inst = fl.gen) :
    exec (.mgFlitReceive k fl) s = .next ((s.taken (.die k) fl).mgReadArrive k fl) := by
  refine congrArg Host.Outcome.next ((mgIngress_next hd ha (by omega)).trans ((if_neg (not_not_intro hg)).trans ?_))
  rw [ht]
  rfl

end

end Sys2Proof.Machine

open Sys2Proof Sys2Proof.Machine

/-- Settles O18: the row by what it asks of the flit, then a write by its region, with the ACK that ends it, and a read by its region. -/
theorem girdleFlits : Obligations.GirdleFlits := by
  unfold Obligations.GirdleFlits
  refine fun s k fl _ hd => ⟨fun ha => ⟨s, mgFlitReceive_other ha, rfl⟩, fun ha =>
    ⟨fun ht hg => ⟨_, mgFlitReceive_old hd ha ht hg, rfl⟩,
    fun off hm ht hg hc hn hh hr hw hlen hb hf => ?sram, fun ht hg hc hn hh hr hk hs hb hst hf => ?hbm,
    fun ht hg hc hn hrf hr hk hlen hs => ?readHbm, fun off ht hg hc hn hrf hr hw hlen hb => ?readSram⟩⟩
  case sram =>
    have hex := mgFlitReceive_write hd ha ht hg hc hn
    rw [State.mgWriteArrive_free (s := s.taken (.die k) fl) hh, State.mgWrite_sram (s := s.taken (.die k) fl) hr hw hlen hb] at hex
    have hf' : (((s.taken (.die k) fl).storedFlit fl).memDie k).refused.find (transferKey fl) = none := hf
    obtain ⟨hmem, hfac, -⟩ := State.mgLast_frame hf'
    refine ⟨_, hex, ?_, hfac, fun a hout => ?_, (s.taken (.die k) fl).storedFlit fl, rfl, State.mgLast_ack hf'⟩
    · rw [hmem]
      exact Memory.read_write fl.data hm fl.addr
    · rw [hmem]
      exact Memory.get_write_outside fl.data s.mem fl.addr a (by omega)
  case hbm =>
    have hex := mgFlitReceive_write hd ha ht hg hc hn
    rw [State.mgWriteArrive_free (s := s.taken (.die k) fl) hh, State.mgWrite_hbm (s := s.taken (.die k) fl) hr hk hs hb hst] at hex
    have hf' : (((s.taken (.die k) fl).queuedFlit fl).memDie k).refused.find (transferKey fl) = none := hf
    obtain ⟨hmem, hfac, hhbm⟩ := State.mgLast_frame hf'
    refine ⟨_, hex, hmem, hfac, fun a hout => ?_, ?_, (s.taken (.die k) fl).queuedFlit fl, rfl, State.mgLast_ack hf'⟩
    · rw [State.readByte_of_frame hmem hhbm]
      exact State.readByte_queuedFlit (s := s.taken (.die k) fl) hout
    · rw [State.stack_of_hbm hhbm]
      exact State.writes_queuedFlit (s := s.taken (.die k) fl)
  case readHbm =>
    have hex := mgFlitReceive_read hd ha ht hg
    rw [State.mgReadArrive_hbm (s := s.taken (.die k) fl) hc hn hrf hr hk hlen hs,
      State.readOf_sameMem (SameMem.taken s (.die k) fl)] at hex
    exact ⟨_, hex, (SameMem.taken s _ fl).trans (State.queueRead_sameMem _ _ _), rfl, rfl,
      State.reads_queueRead (s.taken (.die k) fl) (s.stackOf fl.addr) (s.readOf fl)⟩
  case readSram =>
    have hex := mgFlitReceive_read hd ha ht hg
    rw [State.mgReadArrive_sram (s := s.taken (.die k) fl) hc hn hrf hr hw hlen hb] at hex
    obtain ⟨hm, hfac⟩ := foldl_dieSend_frame k (dataFlits fl (facetAt fl.sx fl.sy) ((readFields fl).2.1 / 128 + 1) (readFields fl).1
      ((s.taken (.die k) fl).readBytes fl.addr (readFields fl).2.1)) (s.taken (.die k) fl)
    refine ⟨_, hex, (SameMem.taken s _ fl).trans hm, hfac, ?_⟩
    rw [State.readBytes_of_sameMem (SameMem.taken s (.die k) fl)]

end

section
/-! PROOF. The CTRL frames of a job: a frame that is taken reaches the job of its parcel, and what each code does to it (R140, R144,
R149 to R152, R188, R190, R197, R277, R278). -/

namespace Sys2Proof.Machine

/-! ## A frame that is taken (R270, R277, R278) -/

section
variable {s s1 : State} {link code p : Nat} {z : ZFrame} {c : Cut} (h : CtrlFrame s link z code s1 p c)
include h

/-- A frame that is taken acts on its parcel's job, in the state in which its binding is served. -/
theorem CtrlFrame.ctrlIn_eq (k : State → Nat → Cut → CtrlMsg → State) : s.ctrlIn link z code k = k s1 p c (ctrlMsg z.payload) := by
  obtain ⟨hcode, ⟨b, ⟨htyp, s0, hin, hb, rfl⟩, rfl⟩, hgood, hcut⟩ := h
  rw [State.parcel_charge_other] at hcut
  simp [State.ctrlIn, State.jobIngress, hcode, htyp, hin, hb, hgood, hcut]

theorem CtrlFrame.runs {i : Instr} {k : State → Nat → Cut → CtrlMsg → State} {Q : State → Prop}
    (hi : exec i s = .next (s.ctrlIn link z code k)) (hq : Q (k s1 p c (ctrlMsg z.payload))) : Runs i s Q :=
  ⟨_, hi.trans (congrArg Host.Outcome.next (h.ctrlIn_eq k)), hq⟩

/-- The same for a code that only a job which runs here takes. -/
theorem CtrlFrame.runsOn {i : Instr} {k : State → Nat → Cut → CtrlMsg → State} {Q : State → Prop}
    (hi : exec i s = .next (s.ctrlRun link z code k)) (hj : (s1.parcel p).jobOn = true)
    (hq : Q (k s1 p c (ctrlMsg z.payload))) : Runs i s Q :=
  h.runs hi (by rwa [if_pos hj])

end

/-! ## What a frame changes in its parcel -/

section
variable (s : State) (p : Nat)

theorem OnlyParcel.modParcel (g : Parcel → Parcel) : OnlyParcel s (s.modParcel p g) p := fun _ h => State.parcel_modParcel_ne s g h

theorem OnlyParcel.modRun (g : Run → Run) : OnlyParcel s (s.modRun p g) p := OnlyParcel.modParcel s p _

theorem OnlyParcel.modCkp (g : Ckp → Ckp) : OnlyParcel s (s.modCkp p g) p := OnlyParcel.modParcel s p _

theorem State.run_modRun (g : Run → Run) : ((s.modRun p g).parcel p).run = g (s.parcel p).run :=
  congrArg Parcel.run (State.parcel_modParcel ..)

theorem State.ckp_modCkp (g : Ckp → Ckp) : ((s.modCkp p g).parcel p).ckp = g (s.parcel p).ckp :=
  congrArg Parcel.ckp (State.parcel_modParcel ..)

theorem State.run_modCkp (g : Ckp → Ckp) : ((s.modCkp p g).parcel p).run = (s.parcel p).run :=
  (congrArg Parcel.run (State.parcel_modParcel s p fun x => { x with ckp := g x.ckp }) :)

end

theorem Parcel.reason_of_jobOn {x : Parcel} (h : x.jobOn = true) : x.run.reason = 0 := by
  simp only [Parcel.jobOn, Bool.and_eq_true, decide_eq_true_eq] at h
  exact h.2

/-- A step of a checkpoint that is new to a job with a configuration, and not past, is noted. -/
theorem State.noteCkpt_new {s : State} {p st : Nat} (hj : (s.parcel p).jobOn = true) (hc : (s.parcel p).ckp.conf.isSome = true)
    (hst : (s.parcel p).run.step ≤ st) (hn : st ∉ (s.parcel p).ckp.announced) :
    s.noteCkpt p st = s.modCkp p fun k =>
      { k with announced := k.announced ++ [st], phase := if k.phase = .idle then .announced else k.phase } := by
  have hr := Parcel.reason_of_jobOn hj
  have hconf : (s.parcel p).ckp.conf ≠ none := Option.isSome_iff_ne_none.mp hc
  exact if_neg (by simp [hr, hconf, hn, Nat.not_lt.mpr hst])

/-- Without a CKP_NOW that waits, the step that comes answers none. -/
theorem State.answerNow_none {s : State} {p st : Nat} (h : (s.parcel p).ckp.nowWait = none) : s.answerNow p st = s := by
  rw [State.answerNow, h]

end Sys2Proof.Machine

open Sys2Proof Sys2Proof.Machine

/-- Settles O16: code by code. The frame reaches its parcel's job, whose guards the premises meet; what the code then does is its own. -/
theorem ctrlFrames : Obligations.CtrlFrames := by
  unfold Obligations.CtrlFrames
  intro s s1 link z p c
  dsimp only
  refine ⟨fun h hj ht hb hk ha => ?arrive, fun h hj ht hc hb hk ha hcl hann => ?close, fun h hj ht => ?slip, fun h => ?abort,
    fun h hj => ?pause, fun h hj => ?resume, fun h hj => ?stop, fun h hk hr => ?ready, fun h hj hc hk hr => ?go,
    fun h hj hc hq => ?cknow, fun h hj hq hst hn hw => ?ckpt, fun h hj ht hb hk ha => ?armed, fun h hj ht hc hb hk hcl => ?release,
    fun h hc => ?sealed, fun h hc => ?failed, fun h => ?done, fun h hj hc ht => ?pauseReq, fun h hj hc ht => ?stopReq⟩
  case arrive =>
    refine h.runsOn rfl hj ⟨s1.modRun p fun q => { q with arrivals := q.arrivals ++ [(ctrlMsg z.payload).srank] }, ?_,
      State.run_modRun .., OnlyParcel.modRun s1 p _, rfl⟩
    exact if_neg (by simp [ht, hb, hk, ha])
  case close =>
    refine h.runsOn rfl hj ⟨_, rfl, fun hdue => ?_⟩
    have hgo : ¬((c.timed || decide (c.rank = 0) || decide ((ctrlMsg z.payload).arg ≠ (s1.parcel p).run.beat) ||
        decide ((ctrlMsg z.payload).srank ≠ c.parent) || (s1.parcel p).run.arrivedAt.isNone ||
        (s1.parcel p).run.closingAt.isSome) = true) := by
      simp [ht, hc, hb, hk, hcl, Option.isSome_iff_ne_none.mp ha]
    exact (if_neg hgo).trans (if_neg (by simp [hdue]))
  case slip =>
    have htimed : ¬((!c.timed) = true) := by simp [ht]
    refine h.runsOn rfl hj ⟨fun hlt => ?_, fun hlt => ?_, fun heq => ?_⟩
    · exact (if_neg htimed).trans (if_pos hlt)
    · exact (if_neg htimed).trans ((if_neg (by omega)).trans (if_neg (by omega)))
    · dsimp only
      rw [if_neg htimed, if_neg (by omega), if_pos heq]
      exact ⟨State.run_modRun .., OnlyParcel.modRun s1 p _, rfl⟩
  case abort => exact h.runs rfl rfl
  case pause => exact h.runsOn rfl hj rfl
  case resume => exact h.runsOn rfl hj rfl
  case stop => exact h.runsOn rfl hj rfl
  case ready =>
    refine h.runs rfl ⟨s1.modRun p fun r =>
        { r with ready := r.ready.put (ctrlMsg z.payload).srank ((ctrlMsg z.payload).hash, (ctrlMsg z.payload).arg2) }, ?_,
      State.run_modRun .., OnlyParcel.modRun s1 p _, rfl⟩
    exact if_neg (by simp [hk, hr])
  case go => exact h.runsOn rfl hj (if_neg (by simp [hc, hk, hr]))
  case cknow => exact h.runsOn rfl hj (if_neg (by simp [hc, Option.isSome_iff_ne_none.mp hq]))
  case ckpt =>
    refine h.runsOn rfl hj ?_
    rw [State.noteCkpt_new hj hq hst hn, State.answerNow_none (by rw [State.ckp_modCkp]; exact hw)]
    exact ⟨by rw [State.ckp_modCkp], State.run_modCkp .., OnlyParcel.modCkp s1 p _, rfl⟩
  case armed =>
    refine h.runsOn rfl hj ⟨s1.modCkp p fun k => { k with armed := k.armed ++ [(ctrlMsg z.payload).srank] }, ?_,
      State.ckp_modCkp .., State.run_modCkp .., OnlyParcel.modCkp s1 p _⟩
    exact if_neg (by simp [ht, hb, hk, ha])
  case release => exact h.runsOn rfl hj (if_neg (by simp [ht, hc, hb, hk, Option.isSome_iff_ne_none.mp hcl]))
  case sealed => exact h.runs rfl (if_pos hc)
  case failed => exact h.runs rfl (if_pos hc)
  case done => exact h.runs rfl ⟨State.ckp_modCkp .., State.run_modCkp .., OnlyParcel.modCkp s1 p _, rfl⟩
  case pauseReq => exact h.runsOn rfl hj (if_pos (by simp [hc, ht]))
  case stopReq => exact h.runsOn rfl hj (if_pos (by simp [hc, ht]))

end

section
/-! PROOF. Where a device's jobs stand: the roster of its facets and parcels, and the operations that leave it as it is. -/

namespace Sys2Proof.Machine

/-! ## The roster -/

/-- How a facet stands in its job: its state, the rank and size of the job, and the instructions its engines hold. -/
def Facet.standing (x : Facet) : FacetState × Nat × Nat × List InFlight := (x.state, x.rank, x.jobSize, x.inflight)

/-- What a parcel holds: its cut, and its place and size on the table. -/
def Parcel.holding (x : Parcel) : Option Cut × Nat × Nat × Nat × Nat := (x.cut, x.gx, x.gy, x.gw, x.gh)

/-- The standing of every facet and the holding of every parcel. -/
abbrev Roster := (Nat → FacetState × Nat × Nat × List InFlight) × (Nat → Option Cut × Nat × Nat × Nat × Nat)

/-- The roster of a device. -/
def State.roster (s : State) : Roster := (fun f => (s.facet f).standing, fun p => (s.parcel p).holding)

@[simp] theorem State.roster_mk {now mem emitted loupe faults facets mesh hbm gather parcels rings insts acct chans fabric eth traffic
    rma storage pcie cipher power boot pins free pending} :
    State.roster ⟨now, mem, emitted, loupe, faults, facets, mesh, hbm, gather, parcels, rings, insts, acct, chans, fabric, eth, traffic,
      rma, storage, pcie, cipher, power, boot, pins, free, pending⟩ =
    (fun f => (facets.getD f Facet.initial).standing, fun p => (parcels.getD p Parcel.initial).holding) := (rfl)

@[simp] theorem State.roster_parts (s : State) :
    (fun f => (s.facets.getD f Facet.initial).standing, fun p => (s.parcels.getD p Parcel.initial).holding) = s.roster := (rfl)

@[simp] theorem State.roster_ite {c : Prop} {_ : Decidable c} (s t : State) :
    (if c then s else t).roster = if c then s.roster else t.roster := apply_ite ..

/-- Folding a function that leaves the roster as it is leaves it. -/
@[simp] theorem foldl_roster {α : Type} {g : State → α → State} (hg : ∀ s x, (g s x).roster = s.roster) (l : List α)
    (s : State) : (l.foldl g s).roster = s.roster := by
  induction l generalizing s with
  | nil => rfl
  | cons x t ih => rw [List.foldl_cons, ih, hg]

theorem foldl_fst_roster {α β : Type} {g : State × β → α → State × β} (hg : ∀ r x, (g r x).1.roster = r.1.roster)
    (l : List α) (r : State × β) : (l.foldl g r).1.roster = r.1.roster := by
  induction l generalizing r with
  | nil => rfl
  | cons x t ih => rw [List.foldl_cons, ih, hg]

theorem roster_fst {α : Type} {p : State × α} {t : State} {x : α} (e : p = (t, x)) : t.roster = p.1.roster := by rw [e]

theorem PowerOnly.roster {s t : State} (h : PowerOnly s t) : t.roster = s.roster := by obtain ⟨_, _, _, rfl⟩ := h; rfl

/-- A ring's answer has the roster given, where it names a state. -/
def RingPut.Holds (d : Roster) : RingPut → Prop
  | .ok s _ => s.roster = d
  | .full => True
  | .bad s => s.roster = d

theorem RingPut.Holds.ok {r : RingPut} {t : State} {prod : Nat} {d : Roster} (h : r.Holds d) (e : r = .ok t prod) : t.roster = d := by
  subst e; exact h

theorem RingPut.Holds.bad {r : RingPut} {t : State} {d : Roster} (h : r.Holds d) (e : r = .bad t) : t.roster = d := by
  subst e; exact h

/-! ## What the roster says -/

section
variable {s t : State} (h : t.roster = s.roster)
include h

theorem standing_of_roster (f : Nat) : (t.facet f).standing = (s.facet f).standing := congrFun (congrArg Prod.fst h) f
theorem holding_of_roster (p : Nat) : (t.parcel p).holding = (s.parcel p).holding := congrFun (congrArg Prod.snd h) p

end

/-! ## Updates of a facet and of a parcel -/

/-- An update of a facet that leaves its standing. -/
theorem State.putFacet_roster {s : State} {f : Nat} {x : Facet} (h : x.standing = (s.facet f).standing) :
    (s.putFacet f x).roster = s.roster := by
  refine Prod.ext (funext fun n => ?_) rfl
  by_cases hn : n = f
  · subst hn
    exact (congrArg Facet.standing (State.facet_putFacet ..)).trans h
  · exact congrArg Facet.standing (State.facet_putFacet_ne _ _ hn)

theorem State.modFacet_roster {s : State} {f : Nat} {g : Facet → Facet} (h : ∀ x, (g x).standing = x.standing) :
    (s.modFacet f g).roster = s.roster := State.putFacet_roster (h _)

/-- An update of a parcel that leaves its holding. -/
theorem State.modParcel_roster {s : State} {p : Nat} {g : Parcel → Parcel} (h : ∀ x, (g x).holding = x.holding) :
    (s.modParcel p g).roster = s.roster := by
  refine Prod.ext rfl (funext fun n => ?_)
  by_cases hn : n = p
  · subst hn
    exact (congrArg Parcel.holding (State.parcel_modParcel ..)).trans (h _)
  · exact congrArg Parcel.holding (State.parcel_modParcel_ne _ _ hn)

/-! ## The named operations -/

@[simp] theorem State.modRun_roster (s : State) (p : Nat) (g : Run → Run) : (s.modRun p g).roster = s.roster :=
  State.modParcel_roster fun _ => rfl

@[simp] theorem State.modCkp_roster (s : State) (p : Nat) (g : Ckp → Ckp) : (s.modCkp p g).roster = s.roster :=
  State.modParcel_roster fun _ => rfl

@[simp] theorem State.modChan_roster (s : State) (c : Nat) (g : Channel → Channel) : (s.modChan c g).roster = s.roster := (rfl)

@[simp] theorem State.modStack_roster (s : State) (k : Nat) (g : Stack → Stack) : (s.modStack k g).roster = s.roster := (rfl)

@[simp] theorem State.modMemDie_roster (s : State) (k : Nat) (g : MemDie → MemDie) : (s.modMemDie k g).roster = s.roster := (rfl)

@[simp] theorem State.modFlow_roster (s : State) (n : Nat) (g : Flow → Flow) : (s.modFlow n g).roster = s.roster := (rfl)

@[simp] theorem State.modFn_roster (s : State) (n : Nat) (g : PceFn → PceFn) : (s.modFn n g).roster = s.roster := (rfl)

@[simp] theorem State.emit_roster (s : State) (o : Out) : (s.emit o).roster = s.roster := (rfl)

@[simp] theorem State.takeFree_roster (s : State) : (s.takeFree).2.roster = s.roster := (rfl)

@[simp] theorem State.charge_roster (s : State) (i n by_ : Nat) : (s.charge i n by_).roster = s.roster := (rfl)

@[simp] theorem State.raise_roster (s : State) (blk code : Nat) (inst : Option Nat) (p0 p1 : Nat) (extra : List Byte) :
    (s.raise blk code inst p0 p1 extra).roster = s.roster := (rfl)

/-! ## Device memory and the scratchpads -/

/-- An access to a scratchpad. -/
theorem SpadAccess.roster {s t : State} {f : Nat} (h : SpadAccess s t f) : t.roster = s.roster := by
  obtain ⟨_, _, hr⟩ := h.rest
  refine Prod.ext (funext fun n => ?_) (by rw [hr]; rfl)
  by_cases hn : n = f
  · subst hn
    exact h.part (p := Facet.standing) fun _ _ _ _ _ => rfl
  · exact congrArg Facet.standing (h.others n hn)

@[simp] theorem State.bankAccess_roster (s : State) (f m : Nat) (write : Bool) (off n : Nat) :
    (s.bankAccess f m write off n).roster = s.roster := (State.bankAccess_access ..).roster

@[simp] theorem State.metSpad_roster (s : State) (f off n : Nat) : (s.metSpad f off n).roster = s.roster := (State.metSpad_access ..).roster

@[simp] theorem State.discardBytes_roster (s : State) (f n : Nat) : (s.discardBytes f n).roster = s.roster :=
  State.modFacet_roster fun _ => rfl

@[simp] theorem State.countBad_roster (s : State) (f off n : Nat) : (s.countBad f off n).roster = s.roster := by
  unfold State.countBad
  refine foldl_roster (fun _ _ => ?_) ..
  exact State.modFacet_roster fun _ => rfl

@[simp] theorem State.markWritten_roster (s : State) (a n : Nat) : (s.markWritten a n).roster = s.roster := by
  simp [State.markWritten]

@[simp] theorem State.dropRows_roster (s : State) (a n : Nat) : (s.dropRows a n).roster = s.roster := (rfl)

@[simp] theorem State.storeRaw_roster (s : State) (a : Nat) (bs : List Byte) : (s.storeRaw a bs).1.roster = s.roster := by
  simp only [State.storeRaw]
  repeat' split
  all_goals simp

@[simp] theorem State.issueWrite_roster (s : State) (k : Nat) :
    (s.issueWrite k).roster = s.roster := by
  unfold State.issueWrite
  split
  · rfl
  · simp only
    split <;> simp

@[simp] theorem State.drainStack_roster (s : State) (k n : Nat) : (s.drainStack k n).roster = s.roster := by
  induction n generalizing s with
  | zero => rfl
  | succ n ih => simp [State.drainStack, ih]

@[simp] theorem State.drainHbm_roster (s : State) :
    (s.drainHbm).roster = s.roster := by
  simp [State.drainHbm]

@[simp] theorem State.ueLog_roster (s : State) (cls a : Nat) : (s.ueLog cls a).roster = s.roster := by
  simp [State.ueLog]

@[simp] theorem State.ueLogRange_roster (s : State) (cls a n : Nat) : (s.ueLogRange cls a n).roster = s.roster := by
  simp [State.ueLogRange]

@[simp] theorem State.copyRaw_roster (s : State) (src dst n : Nat) :
    (s.copyRaw src dst n).roster = s.roster := by
  simp [State.copyRaw]

theorem State.saveGranule_roster {s t : State} {p g : Nat} (e : s.saveGranule p g = some t) : t.roster = s.roster := by
  simp only [State.saveGranule] at e
  split at e
  · split at e
    · obtain rfl := Option.some.inj e
      simp
    · cases e
  · cases e

theorem State.saveFor_roster {s t : State} {a n : Nat} (e : s.saveFor a n = some t) : t.roster = s.roster := by
  induction n generalizing s with
  | zero => cases e; rfl
  | succ n ih =>
    simp only [State.saveFor] at e
    split at e
    · cases e; rfl
    · split at e
      next es => exact (ih e).trans (State.saveGranule_roster es)
      next => cases e

@[simp] theorem State.holdWrite_roster (s : State) (p g : Nat) (w : HbmWrite) (flit : Option Flit) :
    (s.holdWrite p g w flit).roster = s.roster := State.modCkp_roster ..

@[simp] theorem State.storePart_roster (s : State) (a : Nat) (bs : List Byte) : (s.storePart a bs).1.roster = s.roster := by
  simp only [State.storePart]
  split
  · simp
  · split
    next es => simp [State.saveFor_roster es]
    next => simp
    next => simp

@[simp] theorem State.store_roster (s : State) (a : Nat) (bs : List Byte) : (s.store a bs).1.roster = s.roster := by
  simp only [State.store]
  split
  · split
    · refine (foldl_fst_roster (fun r e => ?_) ..).trans (State.drainHbm_roster s)
      exact State.storePart_roster ..
    · simp
  · simp

@[simp] theorem State.zeroRange_roster (s : State) (a n : Nat) : (s.zeroRange a n).roster = s.roster := by
  simp only [State.zeroRange]
  split <;> simp

@[simp] theorem State.logFail_roster (s : State) (fn : Nat) : (s.logFail fn).roster = s.roster := (rfl)

@[simp] theorem State.logPage_roster (s : State) (fn bus : Nat) :
    (s.logPage fn bus).roster = s.roster := by
  simp only [State.logPage]
  repeat' split
  all_goals simp

@[simp] theorem State.masterWrite_roster (s : State) (fn bus : Nat) (bs : List Byte) : (s.masterWrite fn bus bs).roster = s.roster :=
  foldl_roster (fun _ _ => by simp) ..

@[simp] theorem State.masterParts_roster (s : State) (l : List (Nat × Nat × Nat)) (bs : List Byte) :
    (s.masterParts l bs).roster = s.roster := by
  induction l generalizing s bs with
  | nil => rfl
  | cons _ t ih => exact (ih ..).trans (State.masterWrite_roster ..)

theorem State.saveAt_roster {s t : State} {who : Option (Nat × BitVec 16)} {a : Nat} {bs : List Byte}
    (e : s.saveAt who a bs = .ok t) : t.roster = s.roster := by
  have stored {s' t : State} (e : (if (s'.store a bs).2 then Except.ok (s'.store a bs).1 else Except.error AccErr.uncorr) = .ok t) :
      t.roster = s'.roster := by
    split at e
    · cases e
      simp
    · cases e
  simp only [State.saveAt] at e
  split at e
  · cases e
  · split at e
    · cases e
      simp
    · cases e
  · split at e
    · cases e
      simp
    · split at e
      · cases e
      · simpa using stored e
  · split at e
    · cases e
    · exact stored e
  · split at e
    · cases e
    · exact stored e

theorem State.saveAll_roster {s t : State} {who : Option (Nat × BitVec 16)} {l : List (Nat × Nat)} {bs : List Byte}
    (e : s.saveAll who l bs = .ok t) : t.roster = s.roster := by
  induction l generalizing s bs with
  | nil => cases e; rfl
  | cons _ l ih =>
    simp only [State.saveAll] at e
    split at e
    · cases e
    next es => exact (ih e).trans (State.saveAt_roster es)

@[simp] theorem State.addressEvent_roster (s : State) (blk i a obj : Nat) : (s.addressEvent blk i a obj).roster = s.roster := by
  simp [State.addressEvent]

@[simp] theorem State.spadTouch_roster (s : State) (m : Nat) (rs : List (Nat × Nat)) : (s.spadTouch m rs).roster = s.roster := by
  unfold State.spadTouch
  exact foldl_roster (fun s x => by split <;> simp) _ _

@[simp] theorem State.discardReads_roster (s : State) (who : Option (Nat × BitVec 16)) (rs : List (Nat × Nat)) :
    (s.discardReads who rs).roster = s.roster := by
  unfold State.discardReads
  exact foldl_roster (fun s x => by split <;> simp) _ _

theorem State.writeInst_roster {s t : State} {i a : Nat} {bs : List Byte} (e : s.writeInst i a bs = .ok t) : t.roster = s.roster := by
  simp only [State.writeInst] at e
  split at e
  · cases e
  · split at e
    · cases e
    next es =>
      cases e
      simpa using State.saveAll_roster es

@[simp] theorem State.disarm_roster (s : State) (l : List Nat) : (s.disarm l).roster = s.roster := (rfl)

@[simp] theorem State.met_roster (s : State) (a n : Nat) : (s.met a n).roster = s.roster := by
  unfold State.met
  split
  · simp
  · exact (foldl_roster (fun _ _ => State.modMemDie_roster ..) _ _).trans (State.disarm_roster ..)

@[simp] theorem State.chargeRead_roster (s : State) (i a n : Nat) : (s.chargeRead i a n).roster = s.roster := by
  unfold State.chargeRead
  split <;> simp

@[simp] theorem State.metBad_roster (s : State) (cls a n : Nat) : (s.metBad cls a n).roster = s.roster := by
  unfold State.metBad
  split <;> simp

@[simp] theorem State.readBy_roster (s : State) (cls i a n : Nat) : (s.readBy cls i a n).1.roster = s.roster := by
  unfold State.readBy
  repeat' split
  all_goals simp

@[simp] theorem State.storeMet_roster (s : State) (cls a : Nat) (bs : List Byte) : (s.storeMet cls a bs).roster = s.roster := by
  unfold State.storeMet
  split
  · simp
  · split <;> simp
  · simp

@[simp] theorem State.saveSome_roster (s : State) (who : Option (Nat × BitVec 16)) (cls : Nat) (l : List (Nat × Nat)) (bs : List Byte) :
    (s.saveSome who cls l bs).roster = s.roster := by
  induction l generalizing s bs with
  | nil => rfl
  | cons _ t ih =>
    refine (ih ..).trans ?_
    split
    next es => exact State.saveAt_roster es
    next => exact State.storeMet_roster ..
    next => rfl

@[simp] theorem State.writeBy_roster (s : State) (cls i a : Nat) (bs : List Byte) : (s.writeBy cls i a bs).1.roster = s.roster := by
  unfold State.writeBy
  split
  next es => exact State.writeInst_roster es
  next => split <;> simp
  next => rfl

theorem State.ringPut_roster (s : State) (cls i ring len prod m : Nat) (rec pad : List Byte) :
    (s.ringPut cls i ring len prod m rec pad).Holds s.roster := by
  have fst {s s1 : State} {x : Except AccErr Unit} (a : Nat) (bs : List Byte) (e : s.writeBy cls i a bs = (s1, x)) :
      s1.roster = s.roster := by simp [roster_fst e]
  simp only [State.ringPut]
  split
  next e => simp [RingPut.Holds, roster_fst e]
  next s1 _ e =>
    have h1 : s1.roster = s.roster := by simp [roster_fst e]
    split
    · exact h1
    · generalize (if decide (len < prod + (padMul m rec).length) = true then len - prod + (padMul m rec).length
        else (padMul m rec).length) = need
      generalize (if decide (len < prod + (padMul m rec).length) = true then 0 else prod) = at_
      have hp : (if decide (len < prod + (padMul m rec).length) = true then
          s1.writeBy cls i (ring + 64 + prod) (pad.take (len - prod)) else (s1, .ok ())).1.roster = s.roster := by
        split <;> simp [h1]
      generalize (if decide (len < prod + (padMul m rec).length) = true then
        s1.writeBy cls i (ring + 64 + prod) (pad.take (len - prod)) else (s1, .ok ())) = p at hp ⊢
      split
      · trivial
      · split
        next => exact hp
        next =>
          split
          next e => exact (fst _ _ e).trans hp
          next e =>
            have h2 := (fst _ _ e).trans hp
            split
            next e => exact (fst _ _ e).trans h2
            next e => exact (fst _ _ e).trans h2

/-! ## Flits and fabric frames -/

@[simp] theorem State.nackFacet_roster (s : State) (link f tag inst : Nat) (gen : BitVec 16) (status : Nat) :
    (s.nackFacet link f tag inst gen status).roster = s.roster := (rfl)

@[simp] theorem State.tmsDrop_roster (s : State) (die n by_ : Nat) : (s.tmsDrop die n by_).roster = s.roster := (rfl)

theorem State.egress_roster {s t : State} {link cls : Nat} {inst : Option Nat} {ctl waits : Bool} {body : TxBody} {len : Nat}
    {mark : Option (Nat × BitVec 24)} (e : s.egress link cls inst ctl waits body len mark = .done t) : t.roster = s.roster := by
  have full {s' : State} (e : (if waits then Egress.wait else .done (s'.tmsDrop (dieOfLink link) 1)) = .done t)
      (hs : s'.roster = s.roster) : t.roster = s.roster := by
    split at e
    · cases e
    · cases e
      simpa using hs
  simp only [State.egress] at e
  split at e
  · split at e
    · cases e; rfl
    · exact full e rfl
  · split at e
    · split at e
      · cases e
        simp
      · split at e
        · cases e; rfl
        · exact full e rfl
    · split at e
      · cases e; rfl
      · exact full e rfl

@[simp] theorem State.withAck_roster (s : State) (z : ZFrame) : (s.withAck z).2.roster = s.roster := by
  simp only [State.withAck]
  repeat' split
  all_goals simp

theorem State.putZ_roster {s t : State} {z : ZFrame} {waits : Bool} (e : s.putZ z waits = .done t) : t.roster = s.roster := by
  unfold State.putZ at e
  split at e
  · exact State.egress_roster e
  · cases e; rfl

@[simp] theorem State.noRoute_roster (s : State) (z : ZFrame) : (s.noRoute z).roster = s.roster := by
  simp [State.noRoute]

@[simp] theorem State.pumpFlow_roster (s : State) (k n : Nat) : (s.pumpFlow k n).roster = s.roster := by
  induction n generalizing s with
  | zero => rfl
  | succ n ih =>
    simp only [State.pumpFlow]
    split
    · rfl
    · split
      · rfl
      · split
        · simp [ih]
        · split
          · rfl
          next e => simp [ih, State.putZ_roster e]

@[simp] theorem State.sendFlow_roster (s : State) (z : ZFrame) : (s.sendFlow z).roster = s.roster := by
  simp [State.sendFlow]

@[simp] theorem State.ctrlTo_roster (s : State) (p : Nat) (c : Cut) (rank code arg arg2 arg3 : Nat) (hash : List Byte) :
    (s.ctrlTo p c rank code arg arg2 arg3 hash).roster = s.roster := by
  simp [State.ctrlTo]

@[simp] theorem State.ctrlAll_roster (s : State) (p : Nat) (c : Cut) (code arg arg2 : Nat) :
    (s.ctrlAll p c code arg arg2).roster = s.roster := by
  simp [State.ctrlAll]

/-! ## The host link and the replies -/

@[simp] theorem State.masterRefused_roster (s : State) (fn reason : Nat) : (s.masterRefused fn reason).roster = s.roster := (rfl)

@[simp] theorem State.busWrite_roster (s : State) (fn bus : Nat) (bs : List Byte) :
    (s.busWrite fn bus bs).1.roster = s.roster := by
  unfold State.busWrite
  split <;> simp

@[simp] theorem State.putVector_roster (s : State) (fn v : Nat) (y : MsixVec) : (s.putVector fn v y).roster = s.roster := (rfl)

@[simp] theorem State.msix_roster (s : State) (fn v : Nat) : (s.msix fn v).roster = s.roster := by
  simp [State.msix]

@[simp] theorem State.pmeEvent_roster (s : State) (fn : Nat) : (s.pmeEvent fn).roster = s.roster := by
  simp only [State.pmeEvent]
  repeat' split
  · rfl
  · simp
  · exact (State.emit_roster ..).trans (State.modFn_roster s fn fun x => { x with pmeStat := true })
  · simp

theorem State.mailboxPut_roster {s t : State} {ch fn : Nat} {bytes : List Byte} (e : s.mailboxPut ch fn bytes = some t) :
    t.roster = s.roster := by
  simp only [State.mailboxPut] at e
  split at e
  all_goals
    split at e
    · cases e
    · obtain rfl := Option.some.inj e
      simp

@[simp] theorem State.ip4Send_roster (s : State) (mac own dst : List Byte) (proto : Nat) (body : List Byte) :
    (s.ip4Send mac own dst proto body).roster = s.roster := (rfl)

@[simp] theorem State.ip6Send_roster (s : State) (mac own dst : List Byte) (proto hop : Nat) (body : List Byte) :
    (s.ip6Send mac own dst proto hop body).roster = s.roster := (rfl)

@[simp] theorem State.mgmtReply_roster (s : State) (dst : Nat) (bytes : List Byte) : (s.mgmtReply dst bytes).roster = s.roster := by
  simp [State.mgmtReply]

@[simp] theorem State.mctpReply_roster (s : State) (dst : Nat) (bytes : List Byte) :
    (s.mctpReply dst bytes).roster = s.roster := (rfl)

@[simp] theorem State.chanError_roster (s : State) (ch : Nat) : (s.chanError ch).roster = s.roster := (rfl)

@[simp] theorem State.numbered_roster (s : State) (ch dst : Nat) (bytes : List Byte) :
    (s.numbered ch dst bytes).roster = s.roster := (rfl)

theorem State.emitOne_roster {s t : State} {ch : Nat} {h : HeldReply} (e : s.emitOne ch h = some t) : t.roster = s.roster := by
  simp only [State.emitOne] at e
  split at e
  · cases e; rfl
  · split at e
    · split at e
      · cases e
      · split at e
        · cases e; rfl
        · simpa using State.mailboxPut_roster e
    · split at e
      · cases e
        simp
      · split at e
        · cases e
          simp
        · split at e
          · cases e
            simp
          · split at e
            next er =>
              cases e
              simpa using (State.ringPut_roster ..).ok er
            next => cases e
            next er =>
              cases e
              simpa using (State.ringPut_roster ..).bad er

@[simp] theorem State.flushGo_roster (s : State) (ch : Nat) (l : List HeldReply) : (State.flushGo ch l s).roster = s.roster := by
  induction l generalizing s with
  | nil => simp [State.flushGo]
  | cons _ t ih =>
    simp only [State.flushGo]
    split
    next e => exact (ih _).trans (State.emitOne_roster e)
    next => simp

@[simp] theorem State.flushReplies_roster (s : State) (ch : Nat) :
    (s.flushReplies ch).roster = s.roster := by
  simp [State.flushReplies]

@[simp] theorem State.emitReply_roster (s : State) (ch : Nat) (h : HeldReply) :
    (s.emitReply ch h).roster = s.roster := by
  unfold State.emitReply
  repeat' split
  all_goals simp

@[simp] theorem State.sendResult_roster (s : State) (ch : Nat) (e' : InProgress) (status detail : Nat) (params : List Byte) :
    (s.sendResult ch e' status detail params).roster = s.roster := by
  simp [State.sendResult]

@[simp] theorem State.finishOne_roster (s : State) (ch id status detail : Nat) (params : List Byte) :
    (s.finishOne ch id status detail params).roster = s.roster := by
  unfold State.finishOne
  split <;> simp

@[simp] theorem State.abortsGo_roster (s : State) (ch n : Nat) (l : List (Nat × Nat)) : (State.abortsGo ch n l s).roster = s.roster := by
  induction n generalizing s l with
  | zero => rfl
  | succ n ih =>
    cases l with
    | nil => rfl
    | cons a t => simp [State.abortsGo, ih]

@[simp] theorem State.finishAborts_roster (s : State) (ch id result : Nat) :
    (s.finishAborts ch id result).roster = s.roster := by
  simp [State.finishAborts]

@[simp] theorem State.finish_roster (s : State) (w : Waiter) (status detail : Nat) (params : List Byte) :
    (s.finish w status detail params).roster = s.roster := by
  simp [State.finish]

/-! ## Jobs, beats and pauses -/

theorem State.putOutput_roster (s : State) (p : Nat) (c : Cut) (step slot reason : Nat) (data : List Byte) :
    (s.putOutput p c step slot reason data).Holds s.roster := by
  simp only [State.putOutput]
  split
  · rfl
  · split
    next s' _ e =>
      have h1 : s'.roster = s.roster := (State.ringPut_roster ..).ok e
      exact h1
    next => exact State.ringPut_roster ..

@[simp] theorem State.writeEnd_roster (s : State) (p : Nat) : (s.writeEnd p).roster = s.roster := by
  simp only [State.writeEnd]
  split
  · split
    · split
      next e => simpa using (State.putOutput_roster ..).ok e
      next => rfl
      next e => simpa using (State.putOutput_roster ..).bad e
    · rfl
  · rfl

@[simp] theorem State.answerHeld_roster (s : State) (p : Nat) (stop : Bool) :
    (s.answerHeld p stop).roster = s.roster := by
  simp [State.answerHeld]

@[simp] theorem State.refreshRails_roster (s : State) : s.refreshRails.roster = s.roster := s.refreshRails_powerOnly.roster

/-! ## A facet's own accesses, and a command's reads -/

theorem State.spadWrite_roster {s t : State} {f off : Nat} {bs : List Byte} (e : s.spadWrite f off bs = .ok t) : t.roster = s.roster := by
  simp only [State.spadWrite] at e
  split at e
  · cases e
  · split at e
    · cases e
      simp
    · cases e

theorem State.cmdRead_roster {s t : State} {blk i a n obj : Nat} {r : Option (List Byte)} (e : s.cmdRead blk i a n obj = (t, r)) :
    t.roster = s.roster := by
  simp only [State.cmdRead] at e
  split at e
  all_goals
    cases e
    next es => simp [roster_fst es]


end Sys2Proof.Machine
end

section
/-! PROOF. Facets that return to Empty (R76, R124, R149, R214): the instructions in flight of a facet complete, which may end the job of
its parcel, and every other Empty facet stays Empty meanwhile. -/

namespace Sys2Proof.Machine

/-! ## Empty facets are spared -/

/-- Every facet that is Empty in `old`, but for `f`, is Empty in `new`, and the parcels hold what they held. -/
structure Roster.Spares (f : Nat) (old new : Roster) : Prop where
  empty : ∀ n, n ≠ f → (old.1 n).1 = .empty → (new.1 n).1 = .empty
  held  : new.2 = old.2

theorem Roster.Spares.refl (f : Nat) (r : Roster) : Roster.Spares f r r := ⟨fun _ _ h => h, rfl⟩

section
variable {f : Nat} {old : Roster} {s : State}

theorem foldl_spares {α : Type} {g : State → α → State} (hg : ∀ s x, Roster.Spares f old s.roster → Roster.Spares f old (g s x).roster)
    (l : List α) (h : Roster.Spares f old s.roster) : Roster.Spares f old (l.foldl g s).roster := by
  induction l generalizing s with
  | nil => exact h
  | cons x t ih => exact ih (hg s x h)

variable (h : Roster.Spares f old s.roster)
include h

/-- An update of a facet under which Empty stays Empty. -/
theorem Roster.Spares.modFacet {n : Nat} {g : Facet → Facet} (hg : (s.facet n).state = .empty → (g (s.facet n)).state = .empty) :
    Roster.Spares f old (s.modFacet n g).roster := by
  refine ⟨fun m hm he => ?_, h.held⟩
  have hs : (s.facet m).state = .empty := h.empty m hm he
  show ((s.modFacet n g).facet m).state = .empty
  by_cases hmn : m = n
  · subst hmn
    rw [State.facet_modFacet]
    exact hg hs
  · rwa [State.facet_modFacet_ne _ _ hmn]

/-- Whatever the facet itself becomes. -/
theorem Roster.Spares.putFacet (x : Facet) : Roster.Spares f old (s.putFacet f x).roster := by
  refine ⟨fun m hm he => ?_, h.held⟩
  show ((s.putFacet f x).facet m).state = .empty
  rw [State.facet_putFacet_ne _ _ hm]
  exact h.empty m hm he

/-! ## Exceptions and the end of a job -/

theorem Roster.Spares.markExc (code stream index detail : Nat) : Roster.Spares f old (s.markExc f code stream index detail).roster := by
  obtain ⟨x, _, e⟩ := State.markExc_eq s f code stream index detail
  rw [e]
  exact h.putFacet x

/-- The end of a job stops no Empty facet. -/
theorem Roster.Spares.stopFacet (n detail : Nat) : Roster.Spares f old (s.stopFacet n detail).roster := by
  simp only [State.stopFacet]
  split
  · exact h
  next hn =>
    obtain ⟨x, _, e⟩ := State.markExc_eq s n 0x0E 0 0 detail
    rw [e]
    exact h.modFacet (g := fun _ => x) fun he => absurd (.inl he) hn

theorem Roster.Spares.endJob (p reason rank : Nat) (send : Bool) : Roster.Spares f old (s.endJob p reason rank send).roster := by
  simp only [State.endJob]
  split
  · exact h
  · split
    · simpa using h
    · split
      all_goals
        simp only [State.refreshRails_roster, State.answerHeld_roster, State.writeEnd_roster, State.raise_roster, State.finish_roster,
          State.modCkp_roster]
        split
        · refine foldl_spares (fun s n hs => hs.modFacet fun he => ?_) _ (by simpa using h)
          rw [if_neg (by simp [he])]
          exact he
        · exact foldl_spares (fun s n hs => hs.stopFacet ..) _ (by simpa using h)

theorem Roster.Spares.facetExc (code stream index detail : Nat) :
    Roster.Spares f old (s.facetExc f code stream index detail).roster := by
  have hm := h.markExc code stream index detail
  simp only [State.facetExc]
  split
  · exact hm
  · split
    · split
      · exact Roster.Spares.endJob (by simpa using hm) ..
      · simpa using hm
    · split
      · exact hm.endJob ..
      · exact hm

/-! ## Instructions in flight complete -/

theorem Roster.Spares.spadFail (st index off n m : Nat) (write : Bool) (e : Nat × Nat) :
    Roster.Spares f old (s.spadFail f st index off n m write e).roster :=
  Roster.Spares.facetExc (by split <;> simpa using h) ..

theorem Roster.Spares.addTok (c n : Nat) : Roster.Spares f old (s.addTok f c n).roster := by
  simp only [State.addTok]
  split
  · exact h.facetExc ..
  · split
    · exact h
    · exact h.putFacet _

theorem Roster.Spares.remoteSignal (c n rsx rsy : Nat) : Roster.Spares f old (s.remoteSignal f c n rsx rsy).roster := by
  simp only [State.remoteSignal]
  split
  · exact h.putFacet _
  · exact h

theorem Roster.Spares.signal (w : BitVec 128) : Roster.Spares f old (s.signal f w).roster := by
  have hl : Roster.Spares f old (s.localSignal f w).roster := by
    unfold State.localSignal
    split
    · exact h
    · exact h.addTok ..
  unfold State.signal State.farSignal
  split
  · exact hl
  · exact hl.remoteSignal ..

theorem Roster.Spares.mmaComplete : Roster.Spares f old ((execMmaComplete f s).state s).roster := by
  simp only [execMmaComplete, Res.state]
  split
  · exact h
  next q _ =>
    have hq : Roster.Spares f old (s.modFacet f fun x => x.leave (· = 0x20)).roster := h.putFacet _
    split
    · exact hq.spadFail ..
    · exact hq.spadFail ..
    · refine Roster.Spares.signal ?_ _
      rw [State.bankAccess_roster, State.bankAccess_roster]
      exact Roster.Spares.putFacet (by simpa using hq) _

theorem Roster.Spares.mdrainComplete : Roster.Spares f old ((execMdrainComplete f s).state s).roster := by
  simp only [execMdrainComplete, Res.state]
  split
  · exact h
  · split
    · exact (h.putFacet _).spadFail ..
    next e =>
      refine Roster.Spares.signal ?_ _
      rw [State.bankAccess_roster, State.spadWrite_roster e]
      exact h.putFacet _

theorem Roster.Spares.vectorComplete : Roster.Spares f old ((execVectorComplete f s).state s).roster := by
  simp only [execVectorComplete, Res.state]
  split
  · exact h
  · exact (h.putFacet _).signal _

theorem Roster.Spares.finishFlight : Roster.Spares f old (s.finishFlight f).roster :=
  h.mmaComplete.mdrainComplete.vectorComplete

end

/-! ## A facet returns to Empty -/

/-- A facet that has returned to Empty. -/
def Facet.emptied (x : Facet) : Facet :=
  { x with
    state := .empty, inflight := [], xfers := [], signals := [], statics := [], wheels := [], slots := [], arrived := none
    exc := none, stepEnd := false, refused := [] }

section
variable {s : State} {f n : Nat}

theorem State.emptyFacet_eq (s : State) (f : Nat) : s.emptyFacet f = (s.finishFlight f).modFacet f Facet.emptied := rfl

theorem State.emptyFacet_held (s : State) (f : Nat) : (s.emptyFacet f).roster.2 = s.roster.2 :=
  (Roster.Spares.finishFlight (f := f) (.refl f s.roster)).held

/-- The facet is Empty, and one that was Empty stays so. -/
theorem State.emptyFacet_empty (h : f = n ∨ (s.facet n).state = .empty) : ((s.emptyFacet f).facet n).state = .empty := by
  by_cases hn : n = f
  · subst hn
    exact congrArg Facet.state (State.facet_modFacet ..)
  · rw [State.emptyFacet_eq, State.facet_modFacet_ne _ _ hn]
    exact (Roster.Spares.finishFlight (.refl f s.roster)).empty n hn (h.resolve_left fun e => hn e.symm)

theorem Facet.flight_idle {x : Facet} (h : x.inflight = []) (q : Nat → Bool) : x.flight q = none := by rw [Facet.flight, h]; rfl

/-- A facet whose engines are idle has nothing to complete. -/
theorem State.finishFlight_idle (h : (s.facet f).inflight = []) : s.finishFlight f = s := by
  have hm : (execMmaComplete f s).state s = s := by simp only [execMmaComplete, Res.state, Facet.flight_idle h]
  have hd : (execMdrainComplete f s).state s = s := by simp only [execMdrainComplete, Res.state, Facet.flight_idle h]
  have hv : (execVectorComplete f s).state s = s := by simp only [execVectorComplete, Res.state, Facet.flight_idle h]
  simp only [State.finishFlight, hm, hd, hv]

/-! ## The facets of a parcel return to Empty -/

theorem foldl_emptyFacet_held (l : List Nat) (s : State) : (l.foldl State.emptyFacet s).roster.2 = s.roster.2 := by
  induction l generalizing s with
  | nil => rfl
  | cons f t ih => exact (ih _).trans (State.emptyFacet_held s f)

theorem foldl_emptyFacet_empty {l : List Nat} (h : n ∈ l) : ((l.foldl State.emptyFacet s).facet n).state = .empty :=
  foldl_establishes (P := fun t => (t.facet n).state = .empty) (Q := fun f => f = n) (fun _ _ => State.emptyFacet_empty)
    (.inl ⟨n, h, rfl⟩)

/-- Where the engines of those facets are idle, no other facet changes. -/
theorem foldl_emptyFacet_others {l : List Nat} (hidle : ∀ f ∈ l, (s.facet f).inflight = []) (hn : n ∉ l) :
    (l.foldl State.emptyFacet s).facet n = s.facet n := by
  induction l generalizing s with
  | nil => rfl
  | cons f t ih =>
    obtain ⟨hnf, hnt⟩ := not_or.mp (List.mem_cons.not.mp hn)
    have he : s.emptyFacet f = s.modFacet f Facet.emptied := by
      rw [State.emptyFacet_eq, State.finishFlight_idle (hidle f List.mem_cons_self)]
    rw [List.foldl_cons, he, ih (fun m hm => ?_) hnt, State.facet_modFacet_ne _ _ hnf]
    by_cases hmf : m = f
    · subst hmf
      rw [State.facet_modFacet]
      rfl
    · rw [State.facet_modFacet_ne _ _ hmf]
      exact hidle m (List.mem_cons_of_mem _ hm)

end

end Sys2Proof.Machine
end

section
/-! PROOF. A cut is loaded onto the facets of its parcel (R136, R137, R270): what each facet becomes and what the others keep. -/

namespace Sys2Proof.Machine

/-! ## The facets of a parcel by their positions (R208) -/

theorem Parcel.mem_facets_iff {x : Parcel} {f : Nat} :
    f ∈ x.facets ↔ ∃ d ∈ positions (4 * x.gw) (4 * x.gh), x.facetOf d.1 d.2 = f := by
  simp only [Parcel.facets, Parcel.facetOf, positions, List.mem_flatMap, List.mem_map]
  constructor
  · rintro ⟨dy, hy, dx, hx, rfl⟩
    exact ⟨(dx, dy), ⟨dy, hy, dx, hx, rfl⟩, rfl⟩
  · rintro ⟨_, ⟨dy, hy, dx, hx, rfl⟩, rfl⟩
    exact ⟨dy, hy, dx, hx, rfl⟩

section
variable {x y : Parcel} (h : x.holding = y.holding)
include h

theorem Parcel.cut_of_holding : x.cut = y.cut := congrArg Prod.fst h

theorem Parcel.facets_of_holding : x.facets = y.facets := by
  obtain ⟨-, hx, hy, hw, hh⟩ : x.cut = y.cut ∧ x.gx = y.gx ∧ x.gy = y.gy ∧ x.gw = y.gw ∧ x.gh = y.gh := by
    simpa only [Parcel.holding, Prod.mk.injEq] using h
  simp only [Parcel.facets, hx, hy, hw, hh]

end

/-! ## One facet is loaded (R136 steps 3 and 4) -/

section
variable (s : State) (xs : List Sect) (f dx dy js rank waitLim : Nat)

/-- Placing a section in a scratchpad. -/
theorem foldl_sections_roster (l : List Sect) (s : State) :
    (l.foldl (fun s x => if x.typ ≤ 2 then (s.storeRaw (spadAddr f x.target) x.data).1 else s) s).roster = s.roster :=
  foldl_roster (fun s x => by split <;> simp) l s

/-- The state in which the sections of one facet are in its scratchpad, its banks all On. -/
def State.placeSections (s : State) (mine : List Sect) (f : Nat) : State :=
  mine.foldl (fun s x => if x.typ ≤ 2 then (s.storeRaw (spadAddr f x.target) x.data).1 else s)
    ((s.modFacet f fun x => { x with banks := [], bankMove := [], bankSet := [] }).zeroRange (spadAddr f 0) 0x10_0000)

theorem State.placeSections_roster (mine : List Sect) : (s.placeSections mine f).roster = s.roster := by
  rw [State.placeSections, foldl_sections_roster, State.zeroRange_roster]
  exact State.modFacet_roster fun _ => rfl

/-- A facet whose sections are placed is Loaded for its rank and job size, its registers and streams as they say. -/
def Facet.loaded (y : Facet) (mine : List Sect) (js rank waitLim : Nat) : Facet :=
  { y with
    state := .loaded, tokown := BitVec.ofNat 64 (match mine.find? fun x => x.typ = 3 with | some x => leNat x.data | none => 0)
    waitlim := waitLim, jobSize := js, rank, statics := [], wheels := [], slots := []
    streams := (List.range 4).map fun st =>
      match mine.find? fun x => x.typ = 1 && x.flags = st with
      | some x => (st, { Stream.initial with base := x.target / 16, len := x.len / 16 })
      | none => (st, Stream.initial) }

theorem State.loadFacet_eq : s.loadFacet xs f dx dy js rank waitLim =
    (s.placeSections (xs.filter fun x => x.covers dx dy) f).modFacet f fun y =>
      y.loaded (xs.filter fun x => x.covers dx dy) js rank waitLim := rfl

theorem State.loadFacet_self :
    ((s.loadFacet xs f dx dy js rank waitLim).facet f).standing = (.loaded, rank, js, (s.facet f).inflight) := by
  have hi := congrArg (fun y => y.2.2.2) (standing_of_roster (s.placeSections_roster f (xs.filter fun x => x.covers dx dy)) f)
  rw [State.loadFacet_eq, State.facet_modFacet]
  exact congrArg (fun q => (FacetState.loaded, rank, js, q)) hi

theorem State.loadFacet_ne {n : Nat} (h : n ≠ f) :
    ((s.loadFacet xs f dx dy js rank waitLim).facet n).standing = (s.facet n).standing := by
  rw [State.loadFacet_eq, State.facet_modFacet_ne _ _ h]
  exact standing_of_roster (State.placeSections_roster ..) n

theorem State.loadFacet_held : (s.loadFacet xs f dx dy js rank waitLim).roster.2 = s.roster.2 := by
  have h := congrArg Prod.snd (s.placeSections_roster f (xs.filter fun x => x.covers dx dy))
  exact h

end

/-! ## The facets of a parcel are loaded -/

/-- Every facet of a parcel is loaded. -/
def State.loadFacets (s : State) (x : Parcel) (xs : List Sect) (js rank waitLim : Nat) : State :=
  (positions (4 * x.gw) (4 * x.gh)).foldl (fun s d => s.loadFacet xs (x.facetOf d.1 d.2) d.1 d.2 js rank waitLim) s

section
variable {s : State} {x : Parcel} {xs : List Sect} {js rank waitLim n : Nat}

theorem State.loadFacets_held : (s.loadFacets x xs js rank waitLim).roster.2 = s.roster.2 := by
  unfold State.loadFacets
  exact List.foldlRecOn (motive := fun t : State => t.roster.2 = s.roster.2) _ _ rfl
    fun t ht d _ => (t.loadFacet_held ..).trans ht

theorem State.loadFacets_inflight : ((s.loadFacets x xs js rank waitLim).facet n).inflight = (s.facet n).inflight := by
  unfold State.loadFacets
  refine List.foldlRecOn (motive := fun t : State => (t.facet n).inflight = (s.facet n).inflight) _ _ rfl fun t ht d _ => ?_
  by_cases hn : n = x.facetOf d.1 d.2
  · subst hn
    exact (congrArg (fun y => y.2.2.2) (t.loadFacet_self ..)).trans ht
  · exact (congrArg (fun y => y.2.2.2) (t.loadFacet_ne _ _ _ _ _ _ _ hn)).trans ht

theorem State.loadFacets_self (h : n ∈ x.facets) :
    ((s.loadFacets x xs js rank waitLim).facet n).standing = (.loaded, rank, js, (s.facet n).inflight) := by
  obtain ⟨d, hd, hn⟩ := Parcel.mem_facets_iff.mp h
  have loads : ∀ (t : State) (d : Nat × Nat),
      (x.facetOf d.1 d.2 = n ∨ ∃ q, (t.facet n).standing = (.loaded, rank, js, q)) →
      ∃ q, ((t.loadFacet xs (x.facetOf d.1 d.2) d.1 d.2 js rank waitLim).facet n).standing = (.loaded, rank, js, q) := by
    intro t d ht
    by_cases hd : x.facetOf d.1 d.2 = n
    · rw [hd]
      exact ⟨_, t.loadFacet_self ..⟩
    · rw [t.loadFacet_ne _ _ _ _ _ _ _ fun e => hd e.symm]
      exact ht.resolve_left hd
  have hex : ∃ q, ((s.loadFacets x xs js rank waitLim).facet n).standing = (.loaded, rank, js, q) := by
    unfold State.loadFacets
    exact foldl_establishes (P := fun t => ∃ q, (t.facet n).standing = (.loaded, rank, js, q))
      (Q := fun d : Nat × Nat => x.facetOf d.1 d.2 = n) loads (.inl ⟨d, hd, hn⟩)
  obtain ⟨q, hq⟩ := hex
  have hi : ((s.loadFacets x xs js rank waitLim).facet n).inflight = q := congrArg (fun y => y.2.2.2) hq
  rw [hq, ← hi, State.loadFacets_inflight]

theorem State.loadFacets_ne (h : n ∉ x.facets) :
    ((s.loadFacets x xs js rank waitLim).facet n).standing = (s.facet n).standing := by
  unfold State.loadFacets
  refine List.foldlRecOn (motive := fun t : State => (t.facet n).standing = (s.facet n).standing) _ _ rfl fun t ht d hd => ?_
  exact (t.loadFacet_ne _ _ _ _ _ _ _ fun e => h (Parcel.mem_facets_iff.mpr ⟨d, hd, e.symm⟩)).trans ht

end

/-! ## What a cut takes besides: its routes, gates and ring (R124, R154, R270) -/

@[simp] theorem State.modGates_roster (s : State) (p : Nat) (g : PortGates → PortGates) : (s.modGates p g).roster = s.roster := (rfl)

@[simp] theorem State.loadRoutes_roster (s : State) (x : Parcel) (es : List RouteEntry) : (s.loadRoutes x es).roster = s.roster := by
  refine foldl_roster (fun s e => ?_) es s
  dsimp only
  rw [foldl_roster fun _ _ => State.modFacet_roster fun _ => ?_]
  · exact State.modFacet_roster fun _ => rfl
  · rfl

@[simp] theorem State.useRing_roster (s : State) (p i ring len : Nat) : (s.useRing p i ring len).roster = s.roster := by
  simp [State.useRing]

/-- The cut of a load (R136, R270). -/
def cutOfImage (ps img : List Byte) (tab : List Nat) : Cut :=
  { identity := slice img 64 32, jobHash := slice img 96 32, timed := bitAt (fieldAt img 10 2) 0, cycle := fieldAt img 32 8
    guardNs := fieldAt img 40 4, slipMax := fieldAt img 44 2, beatLimit := fieldAt img 48 4, jobSize := fieldAt ps 20 2
    rank := fieldAt ps 2 2, job := fieldAt ps 4 4, ranktab := tab, ring := fieldAt ps 32 8, ringLen := fieldAt ps 40 4
    gates := (ofType (sections img) 5).map fun g => (fieldAt g.data 0 2, gateEntries (g.data.drop 8))
    slots := (ofType (sections img) 6).flatMap fun o => outSlots o.data }

/-- A parcel that takes a cut into use. -/
def Parcel.takeCut (y : Parcel) (c : Cut) : Parcel :=
  { y with cut := some c, run := Run.initial, ckp := { y.ckp with restored := none, sealedBy := [], armed := [], armedSelf := false } }

/-- The facets of parcel `p` as the image of a load leaves them. -/
def State.loadImage (s : State) (p : Nat) (ps img : List Byte) : State :=
  s.loadFacets (s.parcel p) (sections img) (fieldAt ps 20 2) (fieldAt ps 2 2) (fieldAt img 52 4)

/-- The state in which the facets of a load, its routes, gates and ring are in use. -/
def State.placeCut (s : State) (p : Nat) (ps img : List Byte) (tab : List Nat) : State :=
  ((cutOfImage ps img tab).gates.foldl (fun s e => s.modGates e.1 fun g => { g with gated := true })
    ((s.loadImage p ps img).loadRoutes (s.parcel p) ((ofType (sections img) 4).flatMap fun r => routeEntries r.data))).useRing p
      (s.parcel p).inst (fieldAt ps 32 8) (fieldAt ps 40 4)

section
variable (s : State) (p : Nat) (ps img : List Byte) (tab : List Nat)

theorem State.placeCut_roster : (s.placeCut p ps img tab).roster = (s.loadImage p ps img).roster := by
  rw [State.placeCut, State.useRing_roster, foldl_roster fun _ _ => State.modGates_roster .., State.loadRoutes_roster]

/-- The parcel takes the cut into use, and the fabric its binding. -/
theorem State.loadCut_eq : ∃ fabric, s.loadCut p ps img tab =
    { (s.placeCut p ps img tab).modParcel p fun y => y.takeCut (cutOfImage ps img tab) with fabric } := ⟨_, rfl⟩

theorem State.loadCut_cut : ((s.loadCut p ps img tab).parcel p).cut = some (cutOfImage ps img tab) := by
  obtain ⟨_, e⟩ := s.loadCut_eq p ps img tab
  rw [e]
  exact congrArg Parcel.cut (State.parcel_modParcel (s.placeCut p ps img tab) p fun y => y.takeCut (cutOfImage ps img tab))

theorem State.loadCut_standing (n : Nat) :
    ((s.loadCut p ps img tab).facet n).standing = ((s.loadImage p ps img).facet n).standing := by
  obtain ⟨_, e⟩ := s.loadCut_eq p ps img tab
  rw [e]
  exact standing_of_roster (s.placeCut_roster p ps img tab) n

theorem State.loadFailed_eq : s.loadFailed p ps img =
    ((s.parcel p).facets.foldl State.emptyFacet (s.loadImage p ps img)).raise blkPCL 0x20FF (some (s.parcel p).inst) p 0x2016 := rfl

/-- A load that fails leaves the parcels what they held (R137). -/
theorem State.loadFailed_held : (s.loadFailed p ps img).roster.2 = s.roster.2 := by
  rw [State.loadFailed_eq, State.raise_roster, foldl_emptyFacet_held]
  exact State.loadFacets_held

variable {s p ps img}

theorem State.loadFailed_empty {n : Nat} (h : n ∈ (s.parcel p).facets) : ((s.loadFailed p ps img).facet n).state = .empty :=
  foldl_emptyFacet_empty h

theorem State.loadFailed_others {n : Nat} (hidle : ∀ f ∈ (s.parcel p).facets, (s.facet f).inflight = [])
    (h : n ∉ (s.parcel p).facets) : ((s.loadFailed p ps img).facet n).state = (s.facet n).state := by
  have he : (s.loadFailed p ps img).facet n = (s.loadImage p ps img).facet n :=
    foldl_emptyFacet_others (fun f hf => State.loadFacets_inflight.trans (hidle f hf)) h
  rw [he]
  exact congrArg Prod.fst (State.loadFacets_ne h)

end

end Sys2Proof.Machine
end

section
/-! PROOF. The cut commands (R136 to R138, R148, R150 to R152, R270): what each answers once it is taken. -/

namespace Sys2Proof.Machine

/-! ## The answers of a taken command -/

section
variable {i : Instr} {c : Cmd} {s u : State} {sp : Spec} (hi : exec i s = .next (s.command sp c)) (h : s.takes sp c = true)
include hi h

theorem ends_of {status detail : Nat} {ps : List Byte} {E : State → Prop}
    (hr : sp.run (s.entered sp c) (s.waiterOf c) (s.senderOf c) c.pkt.params = .done u status detail ps) (he : E u) :
    Ends i c s status E :=
  ⟨u, detail, ps, by rw [hi, State.command_eq h, hr], he⟩

theorem runs_of_waits {Q : State → Prop}
    (hr : sp.run (s.entered sp c) (s.waiterOf c) (s.senderOf c) c.pkt.params = .wait u) (hq : Q u) : Runs i s Q :=
  ⟨u, by rw [hi, State.command_eq h, hr], hq⟩

end

/-! ## One update of many facets -/

section
variable {g : Facet → Facet} {l : List Nat} {s : State} {n : Nat}

theorem foldl_modFacet_eq (g : Facet → Facet) (l : List Nat) (s : State) :
    ∃ facets, l.foldl (fun s f => s.modFacet f g) s = { s with facets } := by
  induction l generalizing s with
  | nil => exact ⟨_, rfl⟩
  | cons f t ih =>
    obtain ⟨facets, e⟩ := ih (s.modFacet f g)
    exact ⟨facets, e⟩

/-- What the update establishes of any facet holds of those it meets. -/
theorem foldl_modFacet_mem {P : Facet → Prop} (hP : ∀ x, P (g x)) (h : n ∈ l) :
    P ((l.foldl (fun s f => s.modFacet f g) s).facet n) := by
  refine foldl_establishes (P := fun t : State => P (t.facet n)) (Q := fun f => f = n) (fun t f ht => ?_) (.inl ⟨n, h, rfl⟩)
  by_cases hf : n = f
  · subst hf
    rw [State.facet_modFacet]
    exact hP _
  · rw [State.facet_modFacet_ne _ _ hf]
    exact ht.resolve_left fun e => hf e.symm

theorem foldl_modFacet_ne (h : n ∉ l) : (l.foldl (fun s f => s.modFacet f g) s).facet n = s.facet n :=
  List.foldlRecOn (motive := fun t : State => t.facet n = s.facet n) _ _ rfl fun _ ht f hf =>
    (State.facet_modFacet_ne _ _ (by rintro rfl; exact h hf)).trans ht

end

/-! ## CUT_LOAD (R136, R137) -/

/-- The devices of a load's ranks, from the bytes of its table (R136). -/
def rankTable (ps tb : List Byte) : List Nat := (List.range (fieldAt ps 20 2)).map fun r => fieldAt tb (2 * r) 2

/-- The checks of a load that uses no ring hold: in state `v` it names parcel `p`, whose facets are Empty and whose job is new; it reads
the image, in `s1`, and the rank table, in `s2`, and both are good. -/
structure LoadChecked (v s1 s2 : State) (ps img tb : List Byte) (p : Nat) : Prop where
  sound    : v.deviceFault = none
  named    : v.theParcel ps = some p
  empty    : ∀ f ∈ (v.parcel p).facets, (v.facet f).state = .empty
  uncut    : (v.parcel p).cut = none
  unbound  : ∀ b ∈ v.fabric.bindings, ¬(b.inst = fieldAt ps 0 1 ∧ b.job = fieldAt ps 4 4)
  image    : v.cmdRead blkPCL (fieldAt ps 0 1) (fieldAt ps 8 8) (fieldAt ps 16 4) p = (s1, some img)
  framed   : imageFrame img (fieldAt ps 16 4) (slice ps 48 32) = none
  body     : imageBody s1 img (4 * (v.parcel p).gw) (4 * (v.parcel p).gh) (fieldAt ps 20 2) (fieldAt ps 2 2) (fieldAt ps 40 4) = none
  table    : s1.cmdRead blkPCL (fieldAt ps 0 1) (fieldAt ps 24 8) (2 * fieldAt ps 20 2) p = (s2, some tb)
  distinct : (rankTable ps tb).eraseDups.length = fieldAt ps 20 2
  own      : (rankTable ps tb).getD (fieldAt ps 2 2) 0x10000 = s2.fabric.id
  ringless : fieldAt ps 40 4 = 0

section
variable {v s1 s2 : State} {ps img tb : List Byte} {p : Nat} (h : LoadChecked v s1 s2 ps img tb p)
include h

/-- Whether the placement fails is the silicon's to say. -/
theorem LoadChecked.run_eq (w : Waiter) (n : Nat) : cutLoadRun v w n ps =
    if s2.mayFail.1 then fails (s2.mayFail.2.loadFailed p ps img) 0x2016 else okay (s2.mayFail.2.loadCut p ps img (rankTable ps tb)) := by
  have hfree : ¬((!((v.parcel p).facets.all fun f => (v.facet f).state = .empty) || (v.parcel p).cut.isSome ||
      v.fabric.bindings.any fun b => b.inst = fieldAt ps 0 1 && b.job = fieldAt ps 4 4) = true) := by
    simpa [h.uncut] using And.intro h.empty h.unbound
  have hranks : ¬((rankTable ps tb).eraseDups.length ≠ fieldAt ps 20 2 ∨
      (rankTable ps tb).getD (fieldAt ps 2 2) 0x10000 ≠ s2.fabric.id) := by
    rw [h.distinct, h.own]
    simp
  simp only [cutLoadRun, h.sound, h.named, if_neg hfree, h.image, h.framed, h.body, h.table]
  refine (if_neg hranks).trans ?_
  simp [h.ringless, State.freshRing, rankTable]

/-- The reads of a load and the free value it takes leave the roster. -/
theorem LoadChecked.roster : s2.mayFail.2.roster = v.roster :=
  (State.takeFree_roster s2).trans ((State.cmdRead_roster h.table).trans (State.cmdRead_roster h.image))

theorem LoadChecked.facets : (s2.mayFail.2.parcel p).facets = (v.parcel p).facets :=
  Parcel.facets_of_holding (holding_of_roster h.roster p)

theorem LoadChecked.failed_cut : ((s2.mayFail.2.loadFailed p ps img).parcel p).cut = none := by
  rw [Parcel.cut_of_holding (congrFun (s2.mayFail.2.loadFailed_held p ps img) p),
    Parcel.cut_of_holding (holding_of_roster h.roster p), h.uncut]

end

/-- A facet of a load is Loaded for the load's rank and job size. -/
theorem State.loadCut_loaded {s : State} {p n : Nat} {ps img : List Byte} {tab : List Nat} (h : n ∈ (s.parcel p).facets) :
    ((s.loadCut p ps img tab).facet n).state = .loaded ∧ ((s.loadCut p ps img tab).facet n).rank = fieldAt ps 2 2 ∧
    ((s.loadCut p ps img tab).facet n).jobSize = fieldAt ps 20 2 := by
  have e := (s.loadCut_standing p ps img tab n).trans (State.loadFacets_self h)
  exact ⟨congrArg (·.1) e, congrArg (·.2.1) e, congrArg (·.2.2.1) e⟩

theorem State.loadCut_others {s : State} {p n : Nat} {ps img : List Byte} {tab : List Nat} (h : n ∉ (s.parcel p).facets) :
    ((s.loadCut p ps img tab).facet n).state = (s.facet n).state :=
  congrArg (·.1) ((s.loadCut_standing p ps img tab n).trans (State.loadFacets_ne h))

/-! ## CUT_START (R138, R152) -/

/-- What the start of a cut leaves in a facet. -/
def Facet.Cleared (rank : Nat) (restored : Bool) (x : Facet) : Prop :=
  x.exc = none ∧ x.arrived = none ∧ x.inflight = [] ∧ x.xfers = [] ∧
  (restored = false → x.toks = [] ∧ x.vregs = [] ∧ x.acc = [] ∧ x.accClass = [] ∧ x.beats = 0 ∧ x.peer = rank)

theorem Facet.atStart_cleared (x : Facet) (rank : Nat) (restored : Bool) : (x.atStart rank restored).Cleared rank restored := by
  cases restored
  · exact ⟨rfl, rfl, rfl, rfl, fun _ => ⟨rfl, rfl, rfl, rfl, rfl, rfl⟩⟩
  · exact ⟨rfl, rfl, rfl, rfl, nofun⟩

/-- The facets of a parcel as the start of its cut leaves them. -/
def State.clearFacets (s : State) (p : Nat) (c : Cut) : State :=
  (s.parcel p).facets.foldl (fun t f => t.modFacet f fun y => y.atStart c.rank (s.parcel p).ckp.restored.isSome) s

/-- The state in which a cut has started and its READY has not yet left. -/
def State.startCut (s : State) (p : Nat) (c : Cut) (time : Nat) : State :=
  ((s.clearFacets p c).modRun p fun r => { r with started := some (s.clearFacets p c).now, startTime := time, b := s.boundB c }).modCkp p
    fun k =>
      { k with
        keep := if (s.parcel p).ckp.restored.isSome then k.restored else k.keep
        timerAt := match k.conf with
          | some q => if c.rank = 0 ∧ 0 < q.periodMs then some ((s.clearFacets p c).now + q.periodMs * 1000000) else none
          | none => none }

section
variable {v : State} {ps : List Byte} {p : Nat} {c : Cut} (w : Waiter) (n time : Nat)

/-- An untimed cut that is Loaded, has not started and has a route to every other rank starts. -/
theorem cutStartRun_loaded (hfault : v.deviceFault = none) (hp : v.theParcel ps = some p) (hcut : (v.parcel p).cut = some c)
    (hstate : v.parcelState p = .loaded) (hstart : (v.parcel p).run.started = none) (hreason : (v.parcel p).run.reason = 0)
    (htimed : c.timed = false) (hroutes : ∀ r ∈ c.ranktab.zipIdx, r.2 ≠ c.rank → (v.wayTo v.fabric.id r.1).isSome = true) :
    cutStartRun v w n ps = okay ((v.startCut p c (fieldAt ps 8 8)).readyUp p c ((v.parcel p).readyHash c)) := by
  have hfresh : ¬(v.parcelState p ≠ .loaded ∨ (v.parcel p).run.started.isSome = true ∨ (v.parcel p).run.reason ≠ 0) := by
    simp [hstate, hstart, hreason]
  have hways : ¬((c.ranktab.zipIdx.any fun (d, r) => r ≠ c.rank && (v.wayTo v.fabric.id d).isNone) = true) := by
    rw [List.any_eq_true]
    rintro ⟨r, hr, hno⟩
    simp only [Bool.and_eq_true, decide_eq_true_eq] at hno
    have hway := hroutes r hr hno.1
    rw [Option.isNone_iff_eq_none.mp hno.2] at hway
    exact absurd hway nofun
  simp only [cutStartRun, hfault, hp, hcut, if_neg hfresh, if_neg hways, htimed]
  rfl

theorem State.clearFacets_eq (v : State) (p : Nat) (c : Cut) : ∃ facets, v.clearFacets p c = { v with facets } := foldl_modFacet_eq ..

theorem State.startCut_started (v : State) (p : Nat) (c : Cut) : ((v.startCut p c time).parcel p).run.started = some v.now := by
  have hnow : (v.clearFacets p c).now = v.now := by obtain ⟨_, e⟩ := v.clearFacets_eq p c; rw [e]
  rw [State.startCut, State.run_modCkp, State.run_modRun, hnow]

theorem State.startCut_onlyParcel (v : State) (p : Nat) (c : Cut) : OnlyParcel v (v.startCut p c time) p := fun q hq => by
  have hpar : (v.clearFacets p c).parcel q = v.parcel q := by obtain ⟨_, e⟩ := v.clearFacets_eq p c; rw [e]; rfl
  rw [State.startCut, OnlyParcel.modCkp _ p _ q hq, OnlyParcel.modRun _ p _ q hq, hpar]

theorem State.startCut_sameMem (v : State) (p : Nat) (c : Cut) : SameMem v (v.startCut p c time) := fun a => by
  have hmem : (v.clearFacets p c).readByte a = v.readByte a := by obtain ⟨_, e⟩ := v.clearFacets_eq p c; rw [e]; rfl
  exact hmem

theorem State.startCut_cleared (v : State) (c : Cut) {f : Nat} (hf : f ∈ (v.parcel p).facets) :
    ((v.startCut p c time).facet f).Cleared c.rank (v.parcel p).ckp.restored.isSome :=
  foldl_modFacet_mem (P := Facet.Cleared c.rank (v.parcel p).ckp.restored.isSome) (fun x => x.atStart_cleared ..) hf

theorem State.startCut_others (v : State) (c : Cut) {f : Nat} (hf : f ∉ (v.parcel p).facets) :
    (v.startCut p c time).facet f = v.facet f := foldl_modFacet_ne hf

end

/-! ## Commands on a job that runs or is paused (R150, R151) -/

section
variable {v : State} {ps : List Byte} {p : Nat} {c : Cut}

theorem onJob_eq (hp : v.theParcel ps = some p) (hcut : (v.parcel p).cut = some c)
    (hs : v.parcelState p = .running ∨ v.parcelState p = .paused) (k : Nat → Cut → Act) : onJob v ps k = k p c := by
  simp only [onJob, hp, hcut, if_pos hs]

theorem cutResumeRun_paused (w : Waiter) (n : Nat) (hp : v.theParcel ps = some p) (hcut : (v.parcel p).cut = some c)
    (hs : v.parcelState p = .paused) (hheld : (v.parcel p).run.pauses.has (v.parcel p).run.beat = true) (htimed : c.timed = false) :
    cutResumeRun v w n ps = okay ((v.ctrlAll p c 6 (v.parcel p).run.beat (fieldAt ps 8 8)).applyResume p c
      (v.parcel p).run.beat (fieldAt ps 8 8)) := by
  rw [cutResumeRun, onJob_eq hp hcut (.inr hs)]
  simp [hs, hheld, htimed]

end

/-! ## CUT_STATUS (R148) -/

theorem cutStatusSpec_run {v : State} {ps : List Byte} {p : Nat} (w : Waiter) (n : Nat) (hp : v.theParcel ps = some p) :
    cutStatusSpec.run v w n ps = gives v (v.cutStatus p) := by
  simp only [cutStatusSpec, hp]

/-! ## CUT_UNLOAD (R270) -/

section
variable {s : State} {p : Nat}

/-- The state in which what a cut holds outside its parcel and the fabric's lists is given up: its gates, its ring, its facets' faults. -/
def State.closeCut (s : State) (p : Nat) (c : Cut) : State :=
  (s.parcel p).facets.foldl (fun s f => s.objectWell .parcel f)
    ((c.gates.foldl (fun s e => s.modGates e.1 fun g => { g with cut := [], cutOn := false, gated := false, idx := 0 }) s).leaveRing p)

/-- A parcel without its cut. -/
def Parcel.withoutCut (y : Parcel) : Parcel := { y with cut := none, run := Run.initial }

theorem State.dropCut_none (h : (s.parcel p).cut = none) : s.dropCut p = s := by simp only [State.dropCut, h]

theorem State.dropCut_some {c : Cut} (h : (s.parcel p).cut = some c) :
    ∃ fabric, s.dropCut p = { (s.closeCut p c).modParcel p Parcel.withoutCut with fabric } := by
  simp only [State.dropCut, h]
  exact ⟨_, rfl⟩

theorem State.closeCut_facets (c : Cut) : (s.closeCut p c).facets = s.facets := by
  have hgates (l : List (Nat × List GateEntry)) : (l.foldl (fun s e => s.modGates e.1 fun g =>
      { g with cut := [], cutOn := false, gated := false, idx := 0 }) s).facets = s.facets :=
    List.foldlRecOn (motive := fun t : State => t.facets = s.facets) l _ rfl fun _ ht _ _ => ht
  exact List.foldlRecOn (motive := fun t : State => t.facets = s.facets) _ _ (hgates c.gates) fun _ ht _ _ => ht

/-- Giving a cut up leaves the facets as they are. -/
theorem State.dropCut_facets (s : State) (p : Nat) : (s.dropCut p).facets = s.facets := by
  cases h : (s.parcel p).cut with
  | none => rw [State.dropCut_none h]
  | some c =>
    obtain ⟨_, e⟩ := State.dropCut_some h
    rw [e]
    exact State.closeCut_facets c

/-- The parcel holds no cut then. -/
theorem State.dropCut_cut (s : State) (p : Nat) : ((s.dropCut p).parcel p).cut = none := by
  cases h : (s.parcel p).cut with
  | none => rw [State.dropCut_none h, h]
  | some c =>
    obtain ⟨_, e⟩ := State.dropCut_some h
    rw [e]
    exact congrArg Parcel.cut (State.parcel_modParcel (s.closeCut p c) p Parcel.withoutCut)

/-- The state in which a parcel's facets are Empty and its cut is given up, before the rails follow. -/
def State.unloadCut (s : State) (p : Nat) : State := ((s.parcel p).facets.foldl State.emptyFacet s).dropCut p

theorem State.facet_unloadCut (s : State) (p n : Nat) :
    (s.unloadCut p).facet n = ((s.parcel p).facets.foldl State.emptyFacet s).facet n :=
  congrArg (fun t : Tbl Facet => t.getD n Facet.initial) (State.dropCut_facets ..)

theorem State.unloadCut_empty {n : Nat} (h : n ∈ (s.parcel p).facets) : ((s.unloadCut p).facet n).state = .empty := by
  rw [State.facet_unloadCut]
  exact foldl_emptyFacet_empty h

theorem State.unloadCut_others {n : Nat} (hidle : ∀ f ∈ (s.parcel p).facets, (s.facet f).inflight = [])
    (h : n ∉ (s.parcel p).facets) : ((s.unloadCut p).facet n).state = (s.facet n).state := by
  rw [State.facet_unloadCut, foldl_emptyFacet_others hidle h]

end

end Sys2Proof.Machine

open Sys2Proof Sys2Proof.Machine

/-- Settles O13: command by command. A taken command executes in the state it entered; the premises meet the checks of its meaning, and
its own lemma says what it leaves. -/
theorem cutCommands : Obligations.CutCommands := by
  unfold Obligations.CutCommands
  intro s c
  dsimp only
  refine ⟨fun v p s1 s2 bad s3 img tb h hv hfault hp hempty hcut hbind hread hframe hbody htab hdistinct hown hring hfail => ?load,
    fun v p k h hv hfault hp hcut hs hstart hreason ht hroutes => ?start, fun v p k h hv hp hcut => ?pause,
    fun v p k h hv hp hcut hs hheld ht => ?resume, fun v p k h hv hp hcut hs => ?stop, fun v p h hv hp hs => ?unload,
    fun v p h hv hp => ?status⟩
  all_goals subst hv
  case load =>
    have hload : LoadChecked (s.entered cutLoadSpec c) s1 s2 c.pkt.params img tb p :=
      ⟨hfault, hp, hempty, hcut, hbind, hread, hframe, hbody, htab, hdistinct, hown, hring⟩
    have hrun := hload.run_eq (s.waiterOf c) (s.senderOf c)
    have hfacets := hload.facets
    have hcutless := hload.failed_cut
    rw [hfail] at hrun hfacets hcutless
    have hs3 (f : Nat) : (s3.facet f).standing = (s2.facet f).standing := by
      rw [← show s2.mayFail.2 = s3 from congrArg Prod.snd hfail]
      rfl
    rw [← hfacets]
    refine ⟨fun hb => ?_, fun hb => ?_⟩
    · subst hb
      exact succeeds_of rfl h hrun ⟨rfl, fun f hf => State.loadCut_loaded hf,
        fun f hf => (State.loadCut_others hf).trans (congrArg Prod.fst (hs3 f)), _, State.loadCut_cut .., rfl, rfl, rfl, rfl, rfl⟩
    · subst hb
      refine ends_of rfl h hrun ⟨hcutless, fun f hf => State.loadFailed_empty hf, fun hidle f hf => ?_⟩
      have hidle3 : ∀ f ∈ (s3.parcel p).facets, (s3.facet f).inflight = [] := fun f hf =>
        (congrArg (fun y => y.2.2.2) (hs3 f)).trans (hidle f hf)
      exact (State.loadFailed_others hidle3 hf).trans (congrArg Prod.fst (hs3 f))
  case start =>
    refine succeeds_of rfl h (cutStartRun_loaded (s.waiterOf c) (s.senderOf c) hfault hp hcut hs hstart hreason ht hroutes)
      ⟨_, rfl, State.startCut_started .., State.startCut_onlyParcel _ _ p k, State.startCut_sameMem _ _ p k, fun f hf => ?_, fun f hf =>
        State.startCut_others _ _ _ hf⟩
    obtain ⟨hexc, harr, hfl, hx, hclear⟩ := State.startCut_cleared (fieldAt c.pkt.params 8 8) (s.entered cutStartSpec c) k hf
    exact ⟨hexc, harr, hfl, hx, fun hr => hclear (by rw [hr]; rfl)⟩
  case pause =>
    refine ⟨fun hs => succeeds_of rfl h ((onJob_eq hp hcut (.inr hs) _).trans (if_pos hs)) rfl, fun hs => ?_⟩
    refine runs_of_waits rfl h ((onJob_eq hp hcut (.inl hs) _).trans (if_neg (by simp [hs]))) ⟨_, rfl, State.run_modRun ..,
      OnlyParcel.modRun _ p _, rfl⟩
  case resume => exact succeeds_of rfl h (cutResumeRun_paused (s.waiterOf c) (s.senderOf c) hp hcut hs hheld ht) rfl
  case stop =>
    refine ⟨fun hnow => ?_, fun hnow hpa hre => ?_, fun hnow hno => ?_⟩
    · exact succeeds_of rfl h ((onJob_eq hp hcut hs _).trans (if_pos hnow)) rfl
    · exact ends_of rfl h ((onJob_eq hp hcut hs _).trans ((if_neg (by simp [hnow])).trans (if_pos (by simp [hpa, hre])))) rfl
    · refine runs_of_waits rfl h ((onJob_eq hp hcut hs _).trans ((if_neg (by simp [hnow])).trans (if_neg ?_))) ⟨_, rfl,
        State.run_modRun .., OnlyParcel.modRun _ p _, rfl⟩
      rcases hno with hno | hno <;> simp [hno]
  case unload =>
    have hr : cutUnloadRun (s.entered cutUnloadSpec c) (s.waiterOf c) (s.senderOf c) c.pkt.params =
        okay ((s.entered cutUnloadSpec c).unloadCut p).refreshRails := by
      simp only [cutUnloadRun, hp, if_pos hs]
      rfl
    exact succeeds_of rfl h hr ⟨_, rfl, State.dropCut_cut .., fun f hf => State.unloadCut_empty hf, fun hidle f hf =>
      State.unloadCut_others hidle hf⟩
  case status => exact succeeds_of rfl h (cutStatusSpec_run (s.waiterOf c) (s.senderOf c) hp) rfl

end

section
/-! PROOF. A write that has entered a stack's queue is read before the stack issues it (R164). -/

namespace Sys2Proof.Machine

section
variable {s : State} {a i : Nat} {bs : List Byte} {g : BitVec 16}

/-- A write at the end of a queue says each of its own bytes. -/
theorem queuedByte_append_inside (ws : List HbmWrite) {w : HbmWrite} {a : Nat} (h : w.addr ≤ a ∧ a < w.addr + w.data.length) :
    queuedByte (ws ++ [w]) a = w.data[a - w.addr]? := by
  simp only [queuedByte, List.foldl_append, List.foldl_cons, List.foldl_nil, if_pos h]

theorem State.readByte_queueInside {k j : Nat} {w : HbmWrite} (hj : j < w.data.length) (hb : w.addr + j < hbmSize)
    (hk : s.stackOf (w.addr + j) = k) :
    (s.modStack k fun x => { x with writes := x.writes ++ [w] }).readByte (w.addr + j) = w.data[j] := by
  have hz : (s.modStack k fun x => { x with writes := x.writes ++ [w] }).stackOf (w.addr + j) = k := hk
  simp only [State.readByte, if_pos hb, hz, State.stack_modStack]
  rw [queuedByte_append_inside _ ⟨Nat.le_add_right .., Nat.add_lt_add_left hj _⟩, Nat.add_sub_cancel_left, List.getElem?_eq_getElem hj]

/-- Cached rows that go are no part of what memory reads as. -/
theorem State.dropRows_sameMem (s : State) (a n : Nat) : SameMem s (s.dropRows a n) := fun _ => rfl

end

end Sys2Proof.Machine

open Sys2Proof Sys2Proof.Machine

/-- Settles O19: the write is the newest of its stack's queue, so a byte inside it is its own, and one outside it reads as before. -/
theorem queuedWriteVisible : Obligations.QueuedWriteVisible := by
  unfold Obligations.QueuedWriteVisible
  intro s a bs i g hbad hfit hone hpos
  rw [State.queueWrite_queues hbad (hone _ (by omega) (by omega))]
  constructor
  · rw [State.readBytes_of_sameMem (State.dropRows_sameMem _ _ _)]
    refine State.readBytes_eq bs fun j hj => ?_
    exact State.readByte_queueInside (w := { addr := a, data := bs, inst := i, gen := g }) hj
      (Nat.lt_of_lt_of_le (Nat.add_lt_add_left hj a) hfit) (hone _ (Nat.le_add_right ..) (Nat.add_lt_add_left hj a))
  · intro b hout
    rw [State.dropRows_sameMem]
    exact State.readByte_queueOutside (w := { addr := a, data := bs, inst := i, gen := g }) fun ⟨hlo, hhi⟩ =>
      hout.elim (Nat.not_lt.mpr hlo) (Nat.not_le.mpr hhi)

end

section
/-! PROOF. The rows of a stack: queued writes, reads, refresh, temperature, scrub and time-outs (R158, R161, R164 to R169, R468). -/

namespace Sys2Proof.Machine

/-! ## What a write leaves of the stacks (R161, R165) -/

/-- A stack without the MiB that are marked written. -/
def Stack.unmarked (x : Stack) : Stack := { x with written := [] }

/-- From `s` to `t` bytes were written: memory, the marks of the stacks, the bad units and the cached rows may differ. -/
structure Stores (s t : State) : Prop where
  rest   : ∃ mem stks bad gather, t = { s with mem, hbm := { s.hbm with stks, bad }, gather }
  queues : ∀ k, (t.stack k).unmarked = (s.stack k).unmarked

section
variable {s t u : State}

theorem Stores.refl (s : State) : Stores s s := ⟨⟨_, _, _, _, rfl⟩, fun _ => rfl⟩

theorem Stores.trans (h : Stores s t) (g : Stores t u) : Stores s u := by
  obtain ⟨⟨_, _, _, _, rfl⟩, hs⟩ := h
  obtain ⟨⟨_, _, _, _, rfl⟩, gs⟩ := g
  exact ⟨⟨_, _, _, _, rfl⟩, fun k => (gs k).trans (hs k)⟩

theorem Stores.foldl {α : Type} {g : State → α → State} (hg : ∀ s x, Stores s (g s x)) (l : List α) (s : State) :
    Stores s (l.foldl g s) := by
  induction l generalizing s with
  | nil => exact .refl s
  | cons x l ih => exact (hg s x).trans (ih _)

/-- A MiB that is marked written, with its bad units gone. -/
theorem Stores.mark (s : State) (k m : Nat) (bad : List Nat) :
    Stores s { s.modStack k fun x => { x with written := m :: x.written } with
      hbm := { (s.modStack k fun x => { x with written := m :: x.written }).hbm with bad } } := by
  refine ⟨⟨_, _, _, _, rfl⟩, fun n => ?_⟩
  by_cases hn : n = k
  · subst hn
    exact (congrArg Stack.unmarked (State.stack_modStack s n fun x => { x with written := m :: x.written }) :)
  · exact congrArg Stack.unmarked (State.stack_modStack_ne s (fun x => { x with written := m :: x.written }) hn)

theorem Stores.markWritten (s : State) (a n : Nat) : Stores s (s.markWritten a n) := by
  refine Stores.foldl (fun s j => ?_) ..
  dsimp only
  split
  · exact .refl s
  · exact Stores.mark ..

theorem Stores.storeRaw (s : State) (a : Nat) (bs : List Byte) : Stores s (s.storeRaw a bs).1 := by
  simp only [State.storeRaw]
  split
  · exact .refl s
  · split
    · exact (Stores.markWritten s a bs.length).trans ⟨⟨_, _, _, _, rfl⟩, fun _ => rfl⟩
    · exact ⟨⟨_, _, _, _, rfl⟩, fun _ => rfl⟩

section
variable (h : Stores s t)
include h

theorem Stores.facets : t.facets = s.facets := by obtain ⟨_, _, _, _, rfl⟩ := h.rest; rfl
theorem Stores.free : t.free = s.free := by obtain ⟨_, _, _, _, rfl⟩ := h.rest; rfl
theorem Stores.memDie (d : Nat) : t.memDie d = s.memDie d := by obtain ⟨_, _, _, _, rfl⟩ := h.rest; rfl
theorem Stores.stackOf (a : Nat) : t.stackOf a = s.stackOf a := by obtain ⟨_, _, _, _, rfl⟩ := h.rest; rfl
theorem Stores.writes (k : Nat) : (t.stack k).writes = (s.stack k).writes := (congrArg Stack.writes (h.queues k) :)
theorem Stores.acts (k : Nat) : (t.stack k).acts = (s.stack k).acts := (congrArg Stack.acts (h.queues k) :)

end

/-- Where no unit is bad, none becomes bad by marking. -/
theorem State.markWritten_sound (hb : s.hbm.bad = []) (a n : Nat) : (s.markWritten a n).hbm.bad = [] := by
  refine List.foldlRecOn (motive := fun t : State => t.hbm.bad = []) _ _ hb fun t ht j _ => ?_
  dsimp only
  split
  · exact ht
  · exact List.filter_eq_nil_iff.mpr fun u hu => absurd (show u ∈ t.hbm.bad from hu) (by rw [ht]; exact List.not_mem_nil)

/-- Where no unit is bad a write puts all its bytes (R165). -/
theorem State.storeRaw_mem (hb : s.hbm.bad = []) (a : Nat) (bs : List Byte) : (s.storeRaw a bs).1.mem = Memory.write s.mem a bs := by
  cases bs with
  | nil => rfl
  | cons b bs =>
    have hm := State.markWritten_sound hb a (b :: bs).length
    by_cases ha : a < hbmSize
    · simp only [State.storeRaw, List.length_cons, Nat.succ_ne_zero, if_false, if_pos ha] at hm ⊢
      simp [hm]
    · simp [State.storeRaw, ha, hb]

end

/-! ## HBM_WRITE_ISSUE (R166, R167) -/

/-- What the bus reports is the free value that comes next. -/
theorem State.writeOutcome_of_free {s t : State} (h : t.free = s.free) : t.writeOutcome.1 = s.writeOutcome.1 :=
  (congrArg (fun n => ({ s with free := n } : State).writeOutcome.1) h :)

section
variable {s : State} {k : Nat} {w : HbmWrite} {ws : List HbmWrite}

/-- The stack serves a request: its count of time-outs in a row starts anew (R468). -/
def State.served (s : State) (k : Nat) : State := { s with faults := { s.faults with timeouts := Tbl.del s.faults.timeouts k } }

/-- The stack's queue after its oldest write has left it. -/
def State.popWrite (s : State) (k : Nat) (ws : List HbmWrite) : State := s.modStack k fun x => { x with writes := ws }

/-- The state in which the stack has issued its oldest write and counted it. -/
def State.wrote (s : State) (k : Nat) (w : HbmWrite) (ws : List HbmWrite) : State :=
  ((s.popWrite k ws).storeRaw w.addr w.data).1.modStack k fun x => { x with acts := x.acts + 1 }

theorem State.wrote_stores : Stores (s.popWrite k ws) ((s.popWrite k ws).storeRaw w.addr w.data).1 := Stores.storeRaw ..

theorem State.wrote_writes : ((s.wrote k w ws).stack k).writes = ws := by
  rw [State.wrote, State.stack_modStack, State.wrote_stores.writes, State.popWrite, State.stack_modStack]

theorem State.wrote_acts : ((s.wrote k w ws).stack k).acts = (s.stack k).acts + 1 := by
  rw [State.wrote, State.stack_modStack, State.wrote_stores.acts, State.popWrite, State.stack_modStack]

theorem State.wrote_facets : (s.wrote k w ws).facets = s.facets := (State.wrote_stores (w := w)).facets
theorem State.wrote_free : (s.wrote k w ws).free = s.free := (State.wrote_stores (w := w)).free
theorem State.wrote_memDie (d : Nat) : (s.wrote k w ws).memDie d = s.memDie d := (State.wrote_stores (w := w)).memDie d
theorem State.wrote_stackOf (a : Nat) : (s.wrote k w ws).stackOf a = s.stackOf a := (State.wrote_stores (w := w)).stackOf a

theorem State.wrote_mem (hb : s.hbm.bad = []) : (s.wrote k w ws).mem = Memory.write s.mem w.addr w.data :=
  State.storeRaw_mem (s := s.popWrite k ws) hb w.addr w.data

/-- The state in which the write has landed and the bus has its free value (log entry 72), before what the bus reports. -/
def State.landed (s : State) (k : Nat) (w : HbmWrite) (ws : List HbmWrite) : State := ((s.wrote k w ws).served k).writeOutcome.2

theorem State.landed_eq : ∃ faults free, s.landed k w ws = { s.wrote k w ws with faults, free } := ⟨_, _, rfl⟩

theorem State.landed_stack (n : Nat) : (s.landed k w ws).stack n = (s.wrote k w ws).stack n := by
  obtain ⟨_, _, e⟩ := State.landed_eq (s := s) (k := k) (w := w) (ws := ws)
  rw [e]
  rfl

theorem State.landed_memDie (d : Nat) : (s.landed k w ws).memDie d = s.memDie d := by
  obtain ⟨_, _, e⟩ := State.landed_eq (s := s) (k := k) (w := w) (ws := ws)
  rw [e]
  exact State.wrote_memDie d

theorem State.landed_stackOf (a : Nat) : (s.landed k w ws).stackOf a = s.stackOf a := by
  obtain ⟨_, _, e⟩ := State.landed_eq (s := s) (k := k) (w := w) (ws := ws)
  rw [e]
  exact State.wrote_stackOf a

theorem State.landed_facets : (s.landed k w ws).facets = s.facets := by
  obtain ⟨_, _, e⟩ := State.landed_eq (s := s) (k := k) (w := w) (ws := ws)
  rw [e]
  exact State.wrote_facets

theorem State.landed_mem (hb : s.hbm.bad = []) : (s.landed k w ws).mem = Memory.write s.mem w.addr w.data := by
  obtain ⟨_, _, e⟩ := State.landed_eq (s := s) (k := k) (w := w) (ws := ws)
  rw [e]
  exact State.wrote_mem hb

section
variable (hq : (s.stack k).writes = w :: ws)
include hq

theorem State.issueWrite_live (hg : s.genOf w.inst = w.gen) : s.issueWrite k = s.wrote k w ws := by
  simp only [State.issueWrite, hq]
  exact if_pos hg

theorem State.issueWrite_old (hg : s.genOf w.inst ≠ w.gen) : s.issueWrite k = s.popWrite k ws := by
  simp only [State.issueWrite, hq]
  exact if_neg hg

theorem hbmWriteIssue_live (hg : s.genOf w.inst = w.gen) :
    exec (.hbmWriteIssue k) s = .next ((s.landed k w ws).busWrote 0 w.addr s.writeOutcome.1) := by
  have ho : ((s.wrote k w ws).served k).writeOutcome.1 = s.writeOutcome.1 :=
    State.writeOutcome_of_free State.wrote_free
  have e : exec (.hbmWriteIssue k) s = .next (if !decide (s.genOf w.inst = w.gen) then (s.issueWrite k).served k
      else ((s.issueWrite k).served k).writeOutcome.2.busWrote 0 w.addr ((s.issueWrite k).served k).writeOutcome.1) := by
    show execHbmWriteIssue k s = _
    simp only [execHbmWriteIssue, hq]
    rfl
  rw [e, if_neg (by simp [hg]), State.issueWrite_live hq hg, ho]
  rfl

theorem hbmWriteIssue_old (hg : s.genOf w.inst ≠ w.gen) : exec (.hbmWriteIssue k) s = .next ((s.popWrite k ws).served k) := by
  show execHbmWriteIssue k s = _
  simp only [execHbmWriteIssue, hq, State.issueWrite_old hq hg, hg, decide_false, Bool.not_false, if_true]
  rfl

end

end

/-! ## What a die counts and logs (R167, R168) -/

section
variable (s : State) (cls a : Nat)

/-- The registers of a die that has counted and logged an uncorrectable unit. -/
def MemDie.logged (d : MemDie) (cls u : Nat) : MemDie :=
  { d with
    uncorr := min 0xFFFF (d.uncorr + 1)
    uelog := d.uelog.put d.ueNext { valid := true, cls, addr := u }
    ueNext := (d.ueNext + 1) % 16 }

/-- The state in which the die of a unit has counted and logged it. -/
def State.unitLogged (s : State) (cls u : Nat) : State := s.modMemDie (dieOfStack (s.stackOf u)) fun d => d.logged cls u

/-- The log also raises its event, and the unit is bad from then on. -/
theorem State.ueLog_eq : ∃ loupe bad, s.ueLog cls a = { s.unitLogged cls (unit32 a) with
    loupe, hbm := { (s.unitLogged cls (unit32 a)).hbm with bad } } ∧ unit32 a ∈ bad := by
  by_cases hb : s.hbm.bad.contains (unit32 a)
  · have e : s.ueLog cls a = (s.unitLogged cls (unit32 a)).raise blkMEM 0x3003 none (unit32 a) cls :=
      congrArg (fun t : State => t.raise blkMEM 0x3003 none (unit32 a) cls) (if_pos hb)
    exact ⟨_, _, e, List.contains_iff_mem.mp hb⟩
  · have e : s.ueLog cls a = ({ s.unitLogged cls (unit32 a) with
        hbm := { (s.unitLogged cls (unit32 a)).hbm with bad := unit32 a :: s.hbm.bad } } : State).raise blkMEM 0x3003 none (unit32 a) cls :=
      congrArg (fun t : State => t.raise blkMEM 0x3003 none (unit32 a) cls) (if_neg hb)
    exact ⟨_, _, e, List.mem_cons_self⟩

theorem State.ueLog_bad : unit32 a ∈ (s.ueLog cls a).hbm.bad := by
  obtain ⟨_, _, e, hb⟩ := State.ueLog_eq s cls a
  rw [e]
  exact hb

theorem State.ueLog_stack (k : Nat) : (s.ueLog cls a).stack k = s.stack k := by
  obtain ⟨_, _, e, -⟩ := State.ueLog_eq s cls a
  rw [e]
  rfl

theorem State.ueLog_sameMem : SameMem s (s.ueLog cls a) := by
  obtain ⟨_, _, e, -⟩ := State.ueLog_eq s cls a
  rw [e]
  exact fun _ => rfl

theorem State.ueLog_mesh : (s.ueLog cls a).mesh = s.mesh := by
  obtain ⟨_, _, e, -⟩ := State.ueLog_eq s cls a
  rw [e]
  rfl

theorem State.memDie_ueLog : (s.ueLog cls a).memDie (dieOfStack (s.stackOf (unit32 a))) =
    (s.memDie (dieOfStack (s.stackOf (unit32 a)))).logged cls (unit32 a) := by
  obtain ⟨_, _, e, -⟩ := State.ueLog_eq s cls a
  rw [e]
  exact State.memDie_modMemDie s _ fun d => d.logged cls (unit32 a)

/-- A corrected unit and a parity error are counted by the die of their address. -/
theorem State.memDie_eccCorr : (s.eccCorr a).memDie (dieOfStack (s.stackOf a)) =
    { s.memDie (dieOfStack (s.stackOf a)) with corr := min 0xFFFFFFFF ((s.memDie (dieOfStack (s.stackOf a))).corr + 1) } :=
  State.memDie_modMemDie ..

theorem State.memDie_parityErr : (s.parityErr a).memDie (dieOfStack (s.stackOf a)) =
    { s.memDie (dieOfStack (s.stackOf a)) with parity := min 0xFFFF ((s.memDie (dieOfStack (s.stackOf a))).parity + 1) } :=
  State.memDie_modMemDie ..

theorem State.stack_parityErr (k : Nat) : (s.parityErr a).stack k = s.stack k := rfl

theorem unit32_unit32 : unit32 (unit32 a) = unit32 a := by simp only [unit32]; omega

end

/-! ## HBM_READ_COMPLETE (R161, R167, R168) -/

section
variable {s : State} {k : Nat} {r : HbmRead} {rs : List HbmRead}

/-- A read of a range where no error is armed meets none (R475). -/
theorem State.met_unarmed (h : s.faults.inject = []) (a n : Nat) : s.met a n = s := by
  have harm (b : Nat) : s.armedIn b n = [] := by rw [State.armedIn, h]; rfl
  have hdis : s.disarm [] = s := by
    have hf : s.faults = { s.faults with inject := [] } := by rw [← h]
    simp only [State.disarm, h, List.filter_nil]
    rw [← hf]
  rw [State.met]
  split
  · rw [State.metSpad, harm]
  · rw [harm, hdis]
    rfl

/-- The state in which a read has all its units, is charged to its owner, and counts as an access of the stack if its MiB is
written (R161, R222). -/
def State.readDone (s : State) (k : Nat) (r : HbmRead) : State :=
  let s := (s.setRead k none).charge r.flit.inst 1 (32 * r.units)
  if s.mibWritten r.addr then s.modStack k fun x => { x with acts := x.acts + 1 } else s

theorem State.unitRead_more (h : r.done + 1 < r.units) :
    s.unitRead k r = s.setRead k (some { r with done := r.done + 1, second := false }) := if_pos h

theorem State.unitRead_last (h : r.units ≤ r.done + 1) : s.unitRead k r =
    (dataFlits r.flit (facetAt r.flit.sx r.flit.sy) ((readFields r.flit).2.1 / 128 + 1) (readFields r.flit).1 r.data).foldl
      (fun s g => s.dieSend (dieOfStack k) g) (s.readDone k r) := if_neg (Nat.not_lt.mpr h)

theorem State.setRead_sameMem (s : State) (k : Nat) (o : Option HbmRead) : SameMem s (s.setRead k o) :=
  State.modStack_sameMem s k fun _ => rfl

theorem State.readDone_sameMem (s : State) (k : Nat) (r : HbmRead) : SameMem s (s.readDone k r) := by
  have hset : SameMem s ((s.setRead k none).charge r.flit.inst 1 (32 * r.units)) := State.setRead_sameMem s k none
  simp only [State.readDone]
  split
  · exact hset.trans (State.modStack_sameMem _ k fun _ => rfl)
  · exact hset

theorem State.readDone_mesh (s : State) (k : Nat) (r : HbmRead) : (s.readDone k r).mesh = s.mesh := by
  simp only [State.readDone]
  split <;> rfl

section
variable (hq : (s.stack k).reads = r :: rs)
include hq

theorem State.reads_setRead (o : Option HbmRead) : ((s.setRead k o).stack k).reads = o.toList ++ rs := by
  rw [State.setRead, State.stack_modStack, hq]
  rfl

theorem State.reads_readDone : ((s.readDone k r).stack k).reads = rs := by
  have hset : (((s.setRead k none).charge r.flit.inst 1 (32 * r.units)).stack k).reads = rs := State.reads_setRead hq none
  simp only [State.readDone]
  split
  · rw [State.stack_modStack]
    exact hset
  · exact hset

theorem hbmReadComplete_eq (o : ReadOutcome) : exec (.hbmReadComplete k o) s = .next ((s.served k).unitOutcome k r o) := by
  show execHbmReadComplete k o s = _
  simp only [execHbmReadComplete, hq]
  rfl

end

section
variable (hw : s.mibWritten (r.addr + 32 * r.done) = true)
include hw

/-- A good unit comes back. -/
theorem State.unitOutcome_ok (hb : r.addr + 32 * r.done ∉ s.hbm.bad) (hi : s.faults.inject = []) :
    s.unitOutcome k r .ok = s.unitRead k r := by
  simp [State.unitOutcome, hw, hb, State.met_unarmed hi]

/-- A unit that is bad is read once more. -/
theorem State.unitOutcome_again (h2 : r.second = false) :
    s.unitOutcome k r .uncorrected = s.setRead k (some { r with second := true }) := by
  simp [State.unitOutcome, hw, h2]

/-- A unit that is bad twice ends the request. -/
theorem State.unitOutcome_bad (h2 : r.second = true) : s.unitOutcome k r .uncorrected =
    ((s.setRead k none).ueLog 0 (r.addr + 32 * r.done)).dieSend (dieOfStack k) (answerTo r.flit 5 (nackBytes 1)) := by
  simp [State.unitOutcome, hw, h2]

end

end

/-! ## HBM_REFRESH (R158) -/

section
variable {s : State} {k pc bank due : Nat}

theorem hbmRefresh_due (hpc : pc < 32) (hr : (s.stack k).state = .ready) (hn : (s.stack k).nextRefresh k pc = (bank, due)) :
    exec (.hbmRefresh k pc bank) s =
      .next ((s.reach due).modStack k fun y => { y with refresh := y.refresh.put pc { bank, at_ := max s.now due } }) := by
  show execHbmRefresh k pc bank s = _
  simp only [execHbmRefresh, hn]
  rw [if_neg (by simp [hr, hpc])]
  rfl

theorem hbmRefresh_other {b : Nat} (hn : (s.stack k).nextRefresh k pc = (bank, due)) (hb : b ≠ bank) :
    exec (.hbmRefresh k pc b) s = .next s := by
  show execHbmRefresh k pc b s = _
  simp only [execHbmRefresh, hn]
  rw [if_pos (.inr (.inr hb))]

end

/-! ## PATROL_SCRUB (R167, R169) -/

section
variable {s : State} {a k : Nat}

@[simp] theorem State.bad_modMemDie (s : State) (d : Nat) (g : MemDie → MemDie) : (s.modMemDie d g).hbm.bad = s.hbm.bad := rfl

/-- The state in which scrub has begun to read a unit, which it is not to read again any more. -/
def State.scrubs (s : State) (k u : Nat) : State :=
  s.modMemDie (dieOfStack k) fun x => { x with rereads := x.rereads.filter (· ≠ u) }

theorem State.memDie_scrubs (s : State) (k u : Nat) : (s.scrubs k u).memDie (dieOfStack k) =
    { s.memDie (dieOfStack k) with rereads := (s.memDie (dieOfStack k)).rereads.filter (· ≠ u) } := State.memDie_modMemDie ..

/-- Scrub reads the unit of `a`, of stack `k` and not known as bad. -/
structure Scrubs (s : State) (a k : Nat) : Prop where
  inHbm   : unit32 a < hbmSize
  stack   : s.stackOf (unit32 a) = k
  on      : (s.memDie (dieOfStack k)).scrub ≠ 0
  ready   : (s.stack k).state = .ready
  written : s.mibWritten (unit32 a) = true
  good    : unit32 a ∉ s.hbm.bad

section
variable (h : Scrubs s a k)
include h

theorem Scrubs.stackOf_scrubs : (s.scrubs k (unit32 a)).stackOf (unit32 a) = k := h.stack

theorem Scrubs.corrected : exec (.patrolScrub a .corrected) s = .next ((s.scrubs k (unit32 a)).eccCorr (unit32 a)) := by
  obtain ⟨hin, rfl, hon, hr, hw, hb⟩ := h
  show execPatrolScrub a .corrected s = _
  simp [execPatrolScrub, Nat.not_le.mpr hin, hon, hr, hw, hb, State.scrubs]

theorem Scrubs.uncorrected : exec (.patrolScrub a .uncorrected) s = .next
    (if (s.memDie (dieOfStack k)).rereads.contains (unit32 a) then (s.scrubs k (unit32 a)).ueLog 4 (unit32 a)
      else (s.scrubs k (unit32 a)).modMemDie (dieOfStack k) fun x => { x with rereads := x.rereads ++ [unit32 a] }) := by
  obtain ⟨hin, rfl, hon, hr, hw, -⟩ := h
  show execPatrolScrub a .uncorrected s = _
  simp [execPatrolScrub, Nat.not_le.mpr hin, hon, hr, hw, State.scrubs]

end

end

/-! ## STACK_REQUEST_TIMEOUT (R468) -/

section
variable {s : State} {k : Nat} {w : HbmWrite} {ws : List HbmWrite}

/-- The state in which one more time-out of the stack is counted. -/
def State.timedOut (s : State) (k : Nat) : State :=
  { s with faults := { s.faults with timeouts := s.faults.timeouts.put k (s.faults.timeouts.getD k 0 + 1) } }

theorem stackRequestTimeout_write (hf : (s.stack k).state ≠ .failed) (hr : (s.stack k).reads = []) (hq : (s.stack k).writes = w :: ws) :
    exec (.stackRequestTimeout k) s = .next (if s.faults.timeouts.getD k 0 + 1 < 16 then s.timedOut k
      else ((s.timedOut k).failStack k).recordFault 0x000A .stack k) := by
  show execStackRequestTimeout k s = _
  simp only [execStackRequestTimeout, hr, hq]
  rw [if_neg (by simp [hf])]
  rfl

/-- A stack that fails has nothing waiting any more, and no byte of memory changes. -/
theorem State.failStack_empty (s : State) (k : Nat) :
    ((s.failStack k).stack k).writes = [] ∧ ((s.failStack k).stack k).reads = [] ∧ (s.failStack k).mem = s.mem := by
  have hk : (s.failStack k).stack k = { s.stack k with state := .failed, reads := [], writes := [] } :=
    (State.stack_of_hbm (s.failStack_hbm k) k).trans (State.stack_modStack ..)
  exact ⟨congrArg Stack.writes hk, congrArg Stack.reads hk, congrArg Prod.fst (s.failStack_memQueue k)⟩

end

end Sys2Proof.Machine

open Sys2Proof Sys2Proof.Machine

/-- Settles O17: row by row. A queued write lands in its bytes and then what the bus reports of it counts; a unit of a read comes back
or is bad; the bank whose turn it is is refreshed; a temperature, a scrub and a time-out act on their own counts. -/
theorem stackRows : Obligations.StackRows := by
  unfold Obligations.StackRows
  refine fun s k _ => ⟨fun w ws hm hq hg hb _ _ ho => ?lands, fun w ws hq hg => ⟨fun ho => ?parity, fun ho => ?uncorrected⟩,
    fun w ws hq hg => ?old, fun r rs hq hw hb hi => ⟨fun hmore => ?unit, fun hlast => ?last, fun h2 => ?again, fun h2 => ?bad⟩,
    fun pc bank due hpc hr hn => ⟨?due, fun r hf => ?turns, fun b hne => ?notDue⟩, fun temp => ?temp,
    fun a hin hst hon hr hw hb => ?scrub, fun w ws hf hr hq => ⟨fun hn => ?timeout, fun hn => ?fails⟩⟩
  case lands =>
    have hex := hbmWriteIssue_live hq hg
    rw [ho] at hex
    refine ⟨s.landed k w ws, hex, ?_, ?_, ?_, State.landed_facets, fun a hout => ?_⟩
    · rw [State.landed_stack, State.wrote_writes]
    · rw [State.landed_stack, State.wrote_acts]
    · rw [State.landed_mem hb]
      exact Memory.read_write w.data hm w.addr
    · rw [State.landed_mem hb]
      exact Memory.get_write_outside w.data s.mem w.addr a (by omega)
  case parity =>
    have hex := hbmWriteIssue_live hq hg
    rw [ho, State.busWrote] at hex
    have hd := (s.landed k w ws).memDie_parityErr w.addr
    rw [State.landed_stackOf, State.landed_memDie] at hd
    refine ⟨_, hex, ?_, congrArg MemDie.parity hd⟩
    rw [State.stack_parityErr, State.landed_stack, State.wrote_writes]
  case uncorrected =>
    have hex := hbmWriteIssue_live hq hg
    rw [ho, State.busWrote] at hex
    refine ⟨_, hex, ?_, State.ueLog_bad ..⟩
    rw [State.ueLog_stack, State.stack_parityErr, State.stack_parityErr, State.landed_stack, State.wrote_writes]
  case old =>
    exact ⟨_, hbmWriteIssue_old hq hg, congrArg Stack.writes (State.stack_modStack s k fun x => { x with writes := ws }), rfl, rfl⟩
  case unit =>
    have hex := hbmReadComplete_eq hq .ok
    rw [State.unitOutcome_ok (s := s.served k) hw hb hi, State.unitRead_more hmore] at hex
    exact ⟨_, hex, State.reads_setRead (s := s.served k) hq _, State.setRead_sameMem (s.served k) k _, rfl⟩
  case last =>
    have hex := hbmReadComplete_eq hq .ok
    rw [State.unitOutcome_ok (s := s.served k) hw hb hi, State.unitRead_last hlast] at hex
    refine ⟨_, hex, ?_, ?_, _, State.readDone_mesh (s.served k) k r, rfl⟩
    · rw [State.stack_of_hbm (foldl_dieSend_hbm ..)]
      exact State.reads_readDone (s := s.served k) hq
    · exact (State.readDone_sameMem (s.served k) k r).trans (foldl_dieSend_frame ..).1
  case again =>
    have hex := hbmReadComplete_eq hq .uncorrected
    rw [State.unitOutcome_again (s := s.served k) hw h2] at hex
    exact ⟨_, hex, State.reads_setRead (s := s.served k) hq _, State.setRead_sameMem (s.served k) k _, rfl, rfl⟩
  case bad =>
    have hex := hbmReadComplete_eq hq .uncorrected
    rw [State.unitOutcome_bad (s := s.served k) hw h2] at hex
    refine ⟨_, hex, ?_, ?_, State.ueLog_bad .., ((s.served k).setRead k none).ueLog 0 (r.addr + 32 * r.done), State.ueLog_mesh .., rfl⟩
    · exact (congrArg Stack.reads (State.ueLog_stack ..)).trans (State.reads_setRead (s := s.served k) hq none)
    · exact (State.setRead_sameMem (s.served k) k none).trans
        (State.ueLog_sameMem ((s.served k).setRead k none) 0 (r.addr + 32 * r.done))
  case due =>
    have hs := State.stack_modStack (s.reach due) k fun y => { y with refresh := y.refresh.put pc { bank, at_ := max s.now due } }
    refine ⟨_, hbmRefresh_due hpc hr hn, rfl, ?_, State.modStack_sameMem (s.reach due) k fun _ => rfl, rfl⟩
    rw [hs]
    exact Tbl.find_put_self ..
  case turns =>
    have hturn : (s.stack k).nextRefresh k pc = ((r.bank + 1) % 64, r.at_ + (s.stack k).interval / 64) := by
      simp only [Stack.nextRefresh, hf]
    rw [hn] at hturn
    exact Prod.mk.inj hturn
  case notDue => exact ⟨s, hbmRefresh_other hn hne, rfl⟩
  case temp =>
    have hs := State.stack_modStack s k fun x => { x with temp, refmul := if temp ≤ 85 then 1 else 2 }
    exact ⟨_, rfl, (congrArg Stack.temp hs :), (congrArg Stack.refmul hs :), (congrArg Stack.reads hs :),
      State.modStack_sameMem s k fun _ => rfl⟩
  case scrub =>
    have h : Scrubs s a k := ⟨hin, hst, hon, hr, hw, hb⟩
    have hd := State.memDie_scrubs s k (unit32 a)
    refine ⟨⟨_, h.corrected, ?_, fun _ => rfl, rfl⟩, fun hnew => ?_, fun hold => ?_⟩
    · have hc := (s.scrubs k (unit32 a)).memDie_eccCorr (unit32 a)
      rw [h.stackOf_scrubs, hd] at hc
      exact congrArg MemDie.corr hc
    · have hex := h.uncorrected
      rw [if_neg (by simp [hnew])] at hex
      have hx := State.memDie_modMemDie (s.scrubs k (unit32 a)) (dieOfStack k) fun x => { x with rereads := x.rereads ++ [unit32 a] }
      rw [hd] at hx
      refine ⟨_, hex, rfl, fun _ => rfl, (congrArg MemDie.rereads hx :).trans ?_, (congrArg MemDie.uncorr hx :)⟩
      rw [List.filter_eq_self.mpr fun u hu => by simpa using fun e : u = unit32 a => hnew (e ▸ hu)]
    · have hex := h.uncorrected
      rw [if_pos (List.contains_iff_mem.mpr hold)] at hex
      have hl := (s.scrubs k (unit32 a)).memDie_ueLog 4 (unit32 a)
      have hb := (s.scrubs k (unit32 a)).ueLog_bad 4 (unit32 a)
      rw [unit32_unit32, h.stackOf_scrubs, hd] at hl
      rw [unit32_unit32] at hb
      refine ⟨_, hex, hb, (SameMem.modMemDie s _ _).trans (State.ueLog_sameMem (s.scrubs k (unit32 a)) 4 _),
        (congrArg MemDie.uncorr hl :), ?_⟩
      rw [hl, unit32_unit32]
      exact Tbl.find_put_self ..
  case timeout =>
    have hex := stackRequestTimeout_write hf hr hq
    rw [if_pos (by omega)] at hex
    exact ⟨_, hex, Tbl.getD_put_self .., rfl, fun _ => rfl⟩
  case fails =>
    have hex := stackRequestTimeout_write hf hr hq
    rw [if_neg (by omega)] at hex
    obtain ⟨hwrites, hreads, hmem⟩ := (s.timedOut k).failStack_empty k
    exact ⟨_, hex, _, rfl, State.failStack_failed (.inl rfl), hwrites, hreads, hmem⟩

end

section
/-! PROOF. Registers of a memory-girdle die and of its gather engine (R31, R166, R167, R176, R178). -/

namespace Sys2Proof.Machine

/-! ## Rows of registers -/

/-- The register of a row at an index is found at its own offset. -/
theorem rowIdx_mul {base stride n i : Nat} (hi : i < n) (hs : 0 < stride) : rowIdx (base + stride * i) base stride n = some i := by
  have hlt : stride * i < stride * n := Nat.mul_lt_mul_of_pos_left hi hs
  rw [rowIdx, if_pos ⟨Nat.le_add_right .., Nat.add_lt_add_left hlt _, by rw [Nat.add_sub_cancel_left, Nat.mul_mod_right]⟩,
    Nat.add_sub_cancel_left, Nat.mul_div_cancel_left i hs]

/-- A register outside a row's range is none of it. -/
theorem rowIdx_outside {off base stride n : Nat} (h : off < base ∨ base + stride * n ≤ off) : rowIdx off base stride n = none :=
  if_neg fun ⟨hlo, hhi, _⟩ => h.elim (Nat.not_lt.mpr hlo) (Nat.not_le.mpr hhi)

/-! ## A die's registers in the two blocks, while the girdle rail is on (R31) -/

theorem blockAt_GTH {off : Nat} (h : off < 0x8000_0000) : blockAt (baseGTH + off) = some (blkGTH, off) :=
  blockAt_base_add (b := (blkGTH, baseGTH, 0x8000_0000)) (by decide) h

section
variable {s : State} {k o : Nat} {r : BitVec 64 × State} (hk : k < 8) (hon : s.girdleOn = true) (ho : o < 0x1000_0000)
include hon ho

theorem State.readBlock_MEM_die : s.readBlock blkMEM (0x1000_0000 * k + o) = s.readMem k o := by
  have hdie : (0x1000_0000 * k + o) / 0x1000_0000 = k := by omega
  have hoff : (0x1000_0000 * k + o) % 0x1000_0000 = o := by omega
  rw [State.readBlock_MEM (of_decide_eq_true hon), hdie, hoff]

theorem State.readBlock_GTH_die : s.readBlock blkGTH (0x1000_0000 * k + o) = s.readGth k o := by
  have hdie : (0x1000_0000 * k + o) / 0x1000_0000 = k := by omega
  have hoff : (0x1000_0000 * k + o) % 0x1000_0000 = o := by omega
  have e (off : Nat) : s.readBlock blkGTH off =
      if s.girdleOn then s.readGth (off / 0x1000_0000) (off % 0x1000_0000) else none := rfl
  rw [e, if_pos hon, hdie, hoff]

variable (h8 : o % 8 = 0)
include hk h8

theorem State.regAt_MEM : s.regAt (baseMEM + 0x1000_0000 * k + o) = s.readMem k o := by
  rw [Nat.add_assoc, State.regAt_aligned (by simp only [baseMEM]; omega) (blockAt_MEM (by omega)), State.readBlock_MEM_die hon ho]

theorem State.regWrite_MEM (hr : s.readMem k o = some r) (v : BitVec 64) :
    s.regWrite (baseMEM + 0x1000_0000 * k + o) v = s.writeMem k o v := by
  have hdie : (0x1000_0000 * k + o) / 0x1000_0000 = k := by omega
  have hoff : (0x1000_0000 * k + o) % 0x1000_0000 = o := by omega
  have e (off : Nat) : s.writeBlock blkMEM off v = s.writeMem (off / 0x1000_0000) (off % 0x1000_0000) v := rfl
  rw [Nat.add_assoc, State.regWrite_block v (by simp only [baseMEM]; omega) (blockAt_MEM (by omega))
    ((State.readBlock_MEM_die hon ho).trans hr), e, hdie, hoff]

theorem State.regWrite_GTH (hr : s.readGth k o = some r) (v : BitVec 64) :
    s.regWrite (baseGTH + 0x1000_0000 * k + o) v = s.writeGth k o v := by
  have hdie : (0x1000_0000 * k + o) / 0x1000_0000 = k := by omega
  have hoff : (0x1000_0000 * k + o) % 0x1000_0000 = o := by omega
  have e (off : Nat) : s.writeBlock blkGTH off v = s.writeGth (off / 0x1000_0000) (off % 0x1000_0000) v := rfl
  rw [Nat.add_assoc, State.regWrite_block v (by simp only [baseGTH]; omega) (blockAt_GTH (by omega))
    ((State.readBlock_GTH_die hon ho).trans hr), e, hdie, hoff]

end

section
variable {s : State} {k i n : Nat} (hk : k < 8) (hon : s.girdleOn = true) (v : BitVec 64)

/-! ## What each register's write is -/

section
include hk hon

theorem gthCacheWrite_eq : exec (.gthCacheWrite k v) s = .next (s.writeCache k v) :=
  congrArg Host.Outcome.next (State.regWrite_GTH (o := 0) hk hon (by decide) rfl (r := (reg (s.gatherDie k).ways, s)) rfl v)

theorem gthCwaysWrite_eq (hi : i < 64) : exec (.gthCwaysWrite k i v) s = .next (s.writeCways k i v) := by
  have hrow : rowIdx (0x100 + 8 * i) 0x100 8 64 = some i := rowIdx_mul hi (by decide)
  have h0 : ¬(0x100 + 8 * i = 0) := by omega
  have h300 : ¬(0x100 + 8 * i = 0x300) := by omega
  have hr : s.readGth k (0x100 + 8 * i) = some (reg ((s.gatherDie k).masks.getD i 0).toNat, s) := by
    simp only [State.readGth, if_neg h0, if_neg h300, hrow]
    rfl
  have hw := State.regWrite_GTH hk hon (by omega) (by omega) hr v
  rw [State.writeGth, if_neg h0, hrow] at hw
  exact congrArg Host.Outcome.next ((congrArg (s.regWrite · v) (Nat.add_assoc ..)).trans hw)

theorem memUelogWrite_eq (hn : n < 16) : exec (.memUelogWrite k n v) s = .next (s.writeUelog k n v) := by
  have hrow : rowIdx (0x300 + 8 * n) 0x300 8 16 = some n := rowIdx_mul hn (by decide)
  have hstk : rowIdx (0x300 + 8 * n) 0x100 8 4 = none := rowIdx_outside (by omega)
  have hact : rowIdx (0x300 + 8 * n) 0x120 8 4 = none := rowIdx_outside (by omega)
  have hne (m : Nat) (hm : m < 0x300 ∨ 0x380 ≤ m) : ¬(0x300 + 8 * n = m) := by omega
  have hr : ∃ r, s.readMem k (0x300 + 8 * n) = some r := by
    simp only [State.readMem, hne 0x00 (by decide), hne 0x08 (by decide), hne 0x10 (by decide), hne 0x18 (by decide),
      hne 0x200 (by decide), hne 0x280 (by decide), hne 0x400 (by decide), if_false, hstk, hact, hrow]
    exact ⟨_, rfl⟩
  obtain ⟨r, hr⟩ := hr
  have hw := State.regWrite_MEM hk hon (by omega) (by omega) hr v
  rw [State.writeMem, if_neg (hne 0x08 (by decide)), if_neg (hne 0x18 (by decide)), hrow] at hw
  exact congrArg Host.Outcome.next ((congrArg (s.regWrite · v) (Nat.add_assoc ..)).trans hw)

end

/-! ## What each write leaves -/

/-- Zeroing girdle SRAM touches no gather engine and no facet. -/
theorem State.zeroRange_sram (s : State) {a : Nat} (h : sramBase ≤ a) (n : Nat) :
    (s.zeroRange a n).gather = s.gather ∧ (s.zeroRange a n).facets = s.facets := by
  have hout : ¬a < hbmSize := Nat.not_lt.mpr (Nat.le_trans (by decide) h)
  simp only [State.zeroRange, if_neg hout, and_self]

/-- A gather engine with a new count of cache ways: its cache is empty (R178). -/
def GatherDie.withWays (d : GatherDie) (n : Nat) : GatherDie := { d with ways := n, cache := [] }

/-- GTH_CACHE: a way count up to 16 is taken, and no facet changes (R178). -/
theorem State.writeCache_takes (s : State) (hw : bitsOf v.toNat 4 0 ≤ 16) :
    (s.writeCache k v).gatherDie k = (s.gatherDie k).withWays (bitsOf v.toNat 4 0) ∧ (s.writeCache k v).facets = s.facets := by
  have htaken : (s.modGatherDie k fun d => d.withWays (bitsOf v.toNat 4 0)).gatherDie k =
      (s.gatherDie k).withWays (bitsOf v.toNat 4 0) := State.gatherDie_modGatherDie ..
  simp only [State.writeCache, if_neg (Nat.not_lt.mpr hw)]
  split
  · obtain ⟨hg, hf⟩ := State.zeroRange_sram (s.modGatherDie k fun d => d.withWays (bitsOf v.toNat 4 0))
      (a := sramBase + k * 0x0200_0000 + (16 - (s.gatherDie k).ways) * 0x20_0000) (by omega)
      (((s.gatherDie k).ways - bitsOf v.toNat 4 0) * 0x20_0000)
    exact ⟨(congrArg (fun g : Gather => g.dies.getD k GatherDie.initial) hg).trans htaken, hf⟩
  · exact ⟨htaken, rfl⟩

/-- The mask that GTH_CWAYS names. -/
def waysMask (v : BitVec 64) : BitVec 16 := BitVec.ofNat 16 v.toNat

/-- A gather engine in which one owner's mask is changed and its rows in the ways concerned are gone. -/
def GatherDie.withMask (d : GatherDie) (i : Nat) (m : BitVec 16) : GatherDie :=
  { d with
    masks := if m = 0 then Tbl.del d.masks i else d.masks.put i m
    cache := d.cache.filter fun r => r.inst ≠ i || !(d.masks.getD i 0 ^^^ m).getLsbD r.way }

theorem GatherDie.mask_withMask (d : GatherDie) (i : Nat) (m : BitVec 16) : (d.withMask i m).masks.getD i 0 = m := by
  simp only [GatherDie.withMask]
  split
  next h => rw [Tbl.getD_del_self, h]
  next => rw [Tbl.getD_put_self]

/-- GTH_CWAYS: a mask of ways that are cache, none of them another owner's, is taken (R176). -/
theorem State.writeCways_free (hfree : ∀ e ∈ (s.gatherDie k).masks, e.1 ≠ i → e.2 &&& waysMask v = 0)
    (hcache : ∀ w, w < 16 - (s.gatherDie k).ways → v.getLsbD w = false) :
    s.writeCways k i v = s.modGatherDie k fun d => d.withMask i (waysMask v) := by
  have hother : ((s.gatherDie k).masks.any fun e => e.1 ≠ i && e.2 &&& waysMask v ≠ 0) = false := by
    rw [List.any_eq_false]
    intro e he
    by_cases hne : e.1 = i
    · simp [hne]
    · simp [hfree e he hne]
  have hbeyond : ((List.range 16).any fun w => (waysMask v).getLsbD w && decide (w < 16 - (s.gatherDie k).ways)) = false := by
    rw [List.any_eq_false]
    intro w _
    by_cases hlt : w < 16 - (s.gatherDie k).ways
    · have hbit : (waysMask v).getLsbD w = false := by
        rw [waysMask, BitVec.getLsbD_ofNat, show v.toNat.testBit w = false from hcache w hlt, Bool.and_false]
      simp [hbit]
    · simp [hlt]
  exact if_neg (by rw [waysMask] at hother hbeyond; simp only [hother, hbeyond]; nofun)

/-- MEM_UELOG: a one in bit 63 clears VALID of the entry (R167). -/
theorem State.writeUelog_entry {e : UeEntry} (h : (s.memDie k).uelog.find n = some e) :
    ((s.writeUelog k n v).memDie k).uelog.find n = some (if v.getLsbD 63 then { e with valid := false } else e) := by
  rw [State.writeUelog]
  split
  · rw [State.memDie_modMemDie, h]
    exact Tbl.find_put_self ..
  · exact h

/-- The log holds no byte of memory and no facet. -/
theorem State.writeUelog_frame (s : State) (k n : Nat) : SameMem s (s.writeUelog k n v) ∧ (s.writeUelog k n v).facets = s.facets := by
  rw [State.writeUelog]
  split
  · exact ⟨SameMem.modMemDie s k _, rfl⟩
  · exact ⟨SameMem.refl s, rfl⟩

end

end Sys2Proof.Machine

open Sys2Proof Sys2Proof.Machine

/-- Settles O22: each register is found at its die's offset in its block, and its row's own write or read follows. -/
theorem memoryRegisters : Obligations.MemoryRegisters := by
  unfold Obligations.MemoryRegisters
  refine fun s k hk hon => ⟨fun v hw => ?cache, fun i v hi hfree hcache => ?cways, fun n v e hn he => ?uelog, ?ecc, ?discard⟩
  case cache =>
    obtain ⟨hd, hf⟩ := State.writeCache_takes (k := k) v s hw
    exact ⟨_, gthCacheWrite_eq hk hon v, by rw [hd]; rfl, by rw [hd]; rfl, by rw [hd]; rfl, hf⟩
  case cways =>
    have hd := State.gatherDie_modGatherDie s k fun d => d.withMask i (waysMask v)
    refine ⟨_, (gthCwaysWrite_eq hk hon v hi).trans (congrArg Host.Outcome.next (State.writeCways_free v hfree hcache)), ?_,
      fun _ => rfl, ?_, ?_⟩
    · rw [hd]
      exact GatherDie.mask_withMask ..
    · rw [hd]
      rfl
    · rw [hd]
      exact fun r hr => List.mem_of_mem_filter hr
  case uelog =>
    obtain ⟨hm, hf⟩ := State.writeUelog_frame v s k n
    exact ⟨_, memUelogWrite_eq hk hon v hn, State.writeUelog_entry v he, hm, hf⟩
  case ecc =>
    exact ⟨_, congrArg Host.Outcome.next (State.readOut_eq (State.regAt_MEM hk hon (by decide) rfl)), _, rfl,
      State.memDie_modMemDie .., rfl, SameMem.modMemDie s k _⟩
  case discard =>
    exact ⟨_, congrArg Host.Outcome.next (State.readOut_eq (State.regAt_MEM hk hon (by decide) rfl)), _, rfl,
      State.memDie_modMemDie .., rfl, SameMem.modMemDie s k _⟩

end

section
/-! PROOF. What a read of an instance's memory leaves of the parcels (R33, R108, R167, R222), and what a message of a job leaves of the
facets (R262 to R269, R277). -/

namespace Sys2Proof.Machine

/-! ## A read by an engine changes no parcel -/

theorem foldl_parcels {α : Type} {g : State → α → State} (hg : ∀ s x, (g s x).parcels = s.parcels) (l : List α) (s : State) :
    (l.foldl g s).parcels = s.parcels := by
  induction l generalizing s with
  | nil => rfl
  | cons x t ih => rw [List.foldl_cons, ih, hg]

section
variable (s : State)

@[simp] theorem State.ueLogRange_parcels (cls a n : Nat) : (s.ueLogRange cls a n).parcels = s.parcels :=
  foldl_parcels (fun s u => by obtain ⟨_, _, e, _⟩ := s.ueLog_eq (cls := cls) (a := u); rw [e]; rfl) ..

@[simp] theorem State.bankAccess_parcels (f m : Nat) (write : Bool) (off n : Nat) : (s.bankAccess f m write off n).parcels = s.parcels :=
  State.modFacet_parcels ..

@[simp] theorem State.metBad_parcels (cls a n : Nat) : (s.metBad cls a n).parcels = s.parcels := by
  unfold State.metBad
  split
  · exact (foldl_parcels (fun _ _ => State.modFacet_parcels ..) ..).trans (State.bankAccess_parcels ..)
  · exact State.ueLogRange_parcels ..

@[simp] theorem State.met_parcels (a n : Nat) : (s.met a n).parcels = s.parcels := by
  unfold State.met
  split
  · unfold State.metSpad
    split <;> rfl
  · exact (foldl_parcels (fun _ _ => State.modMemDie_parcels ..) ..).trans rfl

@[simp] theorem State.spadTouch_parcels (m : Nat) (rs : List (Nat × Nat)) : (s.spadTouch m rs).parcels = s.parcels :=
  foldl_parcels (fun _ _ => by split <;> simp) ..

@[simp] theorem State.discardReads_parcels (who : Option (Nat × BitVec 16)) (rs : List (Nat × Nat)) :
    (s.discardReads who rs).parcels = s.parcels :=
  foldl_parcels (fun _ _ => by
    split
    · split <;> rfl
    · rfl) ..

@[simp] theorem State.chargeRead_parcels (i a n : Nat) : (s.chargeRead i a n).parcels = s.parcels := by
  unfold State.chargeRead
  split
  · simp [foldl_parcels]
  · rfl

@[simp] theorem State.readBy_parcels (cls i a n : Nat) : (s.readBy cls i a n).1.parcels = s.parcels := by
  unfold State.readBy
  repeat' split
  all_goals simp [foldl_parcels]

@[simp] theorem State.addressEvent_parcels (blk i a obj : Nat) : (s.addressEvent blk i a obj).parcels = s.parcels := by
  unfold State.addressEvent
  split <;> rfl

end

theorem State.parcel_of_parcels {s t : State} (h : t.parcels = s.parcels) (p : Nat) : t.parcel p = s.parcel p := by
  rw [State.parcel, h, State.parcel]

theorem State.cmdRead_parcels {s t : State} {blk i a n obj : Nat} {r : Option (List Byte)} (e : s.cmdRead blk i a n obj = (t, r)) :
    t.parcels = s.parcels := by
  have hread {u : State} {x : Except AccErr (List Byte)} (eu : s.readBy clsHost i a n = (u, x)) : u.parcels = s.parcels := by
    rw [← State.readBy_parcels s clsHost i a n, eu]
  simp only [State.cmdRead] at e
  split at e
  all_goals
    cases e
    next eu => simp [hread eu]

/-! ## Messages of a job change no facet (R262 to R269, R277) -/

/-- From `s` on only what carries frames changed: the mesh, the fabric, the egress queues and the event records. -/
def SendsOnly (s t : State) : Prop := ∃ l m f r, t = { s with loupe := l, mesh := m, fabric := f, traffic := r }

theorem SendsOnly.refl (s : State) : SendsOnly s s := ⟨_, _, _, _, rfl⟩

theorem SendsOnly.trans {s t u : State} : SendsOnly s t → SendsOnly t u → SendsOnly s u := by
  rintro ⟨_, _, _, _, rfl⟩ ⟨_, _, _, _, rfl⟩
  exact ⟨_, _, _, _, rfl⟩

theorem SendsOnly.foldl {α : Type} {g : State → α → State} (hg : ∀ s x, SendsOnly s (g s x)) (l : List α) (s : State) :
    SendsOnly s (l.foldl g s) := by
  induction l generalizing s with
  | nil => exact .refl s
  | cons x t ih => exact (hg s x).trans (ih _)

theorem SendsOnly.facets {s t : State} (h : SendsOnly s t) : t.facets = s.facets := by obtain ⟨_, _, _, _, rfl⟩ := h; rfl

theorem State.modFlow_sendsOnly (s : State) (k : Nat) (g : Flow → Flow) : SendsOnly s (s.modFlow k g) := ⟨_, _, _, _, rfl⟩

theorem State.egress_sendsOnly {s t : State} {link cls : Nat} {inst : Option Nat} {ctl waits : Bool} {body : TxBody} {len : Nat}
    {mark : Option (Nat × BitVec 24)} (e : s.egress link cls inst ctl waits body len mark = .done t) : SendsOnly s t := by
  simp only [State.egress] at e
  repeat' split at e
  all_goals cases e <;> exact ⟨_, _, _, _, rfl⟩

theorem State.withAck_sendsOnly (s : State) (z : ZFrame) : SendsOnly s (s.withAck z).2 := by
  simp only [State.withAck]
  repeat' split
  all_goals exact ⟨_, _, _, _, rfl⟩

theorem State.putZ_sendsOnly {s t : State} {z : ZFrame} {waits : Bool} (e : s.putZ z waits = .done t) : SendsOnly s t := by
  unfold State.putZ at e
  split at e
  · exact State.egress_sendsOnly e
  · cases e
    exact .refl s

theorem State.noRoute_sendsOnly (s : State) (z : ZFrame) : SendsOnly s (s.noRoute z) := by
  unfold State.noRoute
  dsimp only
  split
  · exact ⟨_, _, _, _, rfl⟩
  · exact .refl s

theorem State.pumpFlow_sendsOnly (s : State) (k n : Nat) : SendsOnly s (s.pumpFlow k n) := by
  induction n generalizing s with
  | zero => exact .refl s
  | succ n ih =>
    simp only [State.pumpFlow]
    split
    · exact .refl s
    · split
      · exact .refl s
      · split
        · exact ((s.modFlow_sendsOnly ..).trans (State.noRoute_sendsOnly ..)).trans (ih _)
        · split
          · exact .refl s
          next e => exact (((State.withAck_sendsOnly ..).trans (State.putZ_sendsOnly e)).trans (State.modFlow_sendsOnly ..)).trans (ih _)

theorem State.ctrlTo_sendsOnly (s : State) (p : Nat) (c : Cut) (rank code arg arg2 arg3 : Nat) (hash : List Byte) :
    SendsOnly s (s.ctrlTo p c rank code arg arg2 arg3 hash) :=
  (State.modFlow_sendsOnly ..).trans (State.pumpFlow_sendsOnly ..)

theorem State.ctrlAll_sendsOnly (s : State) (p : Nat) (c : Cut) (code arg arg2 : Nat) : SendsOnly s (s.ctrlAll p c code arg arg2) :=
  .foldl (fun s r => by
    split
    · exact .refl s
    · exact s.ctrlTo_sendsOnly ..) ..

/-- Rank 0 chooses a step at or after its target, and announces one that it had not chosen before (R188). -/
theorem State.announceCkpt_cases (s : State) (p : Nat) (c : Cut) (target : Nat) : ∃ st, target ≤ st ∧
    (s.announceCkpt p c target = (s, st) ∨ s.announceCkpt p c target = ((s.ctrlAll p c 0x0B st 0).noteCkpt p st, st)) := by
  refine ⟨max target (if s.pickBeat p c = (s.parcel p).run.beat then (s.parcel p).run.step else (s.parcel p).run.step + 1),
    Nat.le_max_left .., ?_⟩
  exact (em ((s.parcel p).ckp.announced.contains _ = true)).imp (fun h => if_pos h) fun h => if_neg h

theorem State.noteCkpt_facets (s : State) (p st : Nat) : (s.noteCkpt p st).facets = s.facets := by
  rw [State.noteCkpt]
  split <;> rfl

theorem State.announceCkpt_ge {s t : State} {p target st : Nat} {c : Cut} (e : s.announceCkpt p c target = (t, st)) : target ≤ st := by
  obtain ⟨_, h, e' | e'⟩ := s.announceCkpt_cases p c target
  all_goals
    cases e.symm.trans e'
    exact h

theorem State.announceCkpt_facets {s t : State} {p target st : Nat} {c : Cut} (e : s.announceCkpt p c target = (t, st)) :
    t.facets = s.facets := by
  obtain ⟨_, _, e' | e'⟩ := s.announceCkpt_cases p c target
  all_goals cases e.symm.trans e'
  · rfl
  · exact (State.noteCkpt_facets ..).trans (s.ctrlAll_sendsOnly ..).facets

end Sys2Proof.Machine
end

section
/-! PROOF. The checkpoint commands (R186 to R188, R196, R199, R200): what each answers once it is taken. -/

namespace Sys2Proof.Machine

/-! ## CKP_CONFIG (R186, R187) -/

/-- The configuration in the parameters of CKP_CONFIG and in the bytes of its region list (R186). -/
def confOf (ps b : List Byte) : CkpConf :=
  { kind := fieldAt ps 2 1, periodMs := fieldAt ps 4 4, every := fieldAt ps 8 4, nsid := fieldAt ps 12 4, peer := fieldAt ps 16 2
    qp := fieldAt ps 20 4, base := fieldAt ps 24 8, slotBytes := fieldAt ps 32 8, save := fieldAt ps 40 8, saveLen := fieldAt ps 48 8
    regions := (List.range (fieldAt ps 3 1)).map fun j => (fieldAt b (16 * j) 8, fieldAt b (16 * j + 8) 8) }

/-- An update to configuration `k` keeps of a checkpoint what belongs to the job, and no step and no number (R196, R197). -/
structure Configures (k : CkpConf) (g : Ckp → Ckp) : Prop where
  conf      : ∀ c, (g c).conf = some k
  keep      : ∀ c, (g c).keep = none
  ckseq     : ∀ c, (g c).ckseq = 0
  announced : ∀ c, (g c).announced = c.announced
  restored  : ∀ c, (g c).restored = c.restored
  armedSelf : ∀ c, (g c).armedSelf = c.armedSelf

/-- The step-count trigger where the job of a parcel runs here (R188). -/
def State.everyOn (s : State) (p : Nat) (x : Parcel) : State :=
  match x.cut with
  | some c => if x.jobOn then s.everyTarget p c else s
  | none => s

/-- What CKP_STATUS reports of a checkpoint. -/
def Ckp.status (c : Ckp) : List Byte :=
  leBytes 1 c.phase.code ++ leBytes 1 c.fail ++ zeros 6 ++ leBytes 8 c.ckseq ++ leBytes 8 (stepWord c.announced.min?) ++
    leBytes 8 (stepWord c.keep) ++ leBytes 8 (stepWord c.slot0) ++ leBytes 8 (stepWord c.slot1) ++ leBytes 8 c.bytes

theorem State.ckp_modRun (s : State) (p : Nat) (g : Run → Run) : ((s.modRun p g).parcel p).ckp = (s.parcel p).ckp :=
  (congrArg Parcel.ckp (State.parcel_modParcel s p fun x => { x with run := g x.run }) :)

/-- A device whose shards are restored, at the cut's beat and the following step; `slot0` and `slot1` are the steps that the slots hold
(R199, R200). -/
def State.restoredTo (s : State) (p : Nat) (man : List Byte) (slot0 slot1 : Option Nat) : State :=
  (s.modCkp p fun c => { c with restored := some (fieldAt man 24 8), slot0, slot1 }).modRun p fun r =>
    { r with beat := fieldAt man 32 8, step := fieldAt man 24 8 + 1 }

section
variable {v : State} {ps : List Byte} {p : Nat} (hp : v.theParcel ps = some p) (w : Waiter) (n : Nat)
include hp

/-- A configuration that keeps R187 takes effect, and then the step-count trigger may announce a step. -/
theorem ckpConfigRun_ok {s1 : State} {b : List Byte}
    (hs : v.parcelState p = .empty ∨ v.parcelState p = .loaded ∨ v.parcelState p = .paused) (hb : (v.parcel p).ckp.busy = false)
    (hread : v.cmdRead blkCKP (v.parcel p).inst (fieldAt ps 56 8) (16 * fieldAt ps 3 1) p = (s1, some b))
    (hok : s1.confOk (v.parcel p) (confOf ps b) = true) :
    ∃ g, Configures (confOf ps b) g ∧ ckpConfigRun v w n ps = okay ((s1.modCkp p g).everyOn p (v.parcel p)) := by
  have hfree : ¬(v.parcelState p ≠ .empty ∧ v.parcelState p ≠ .loaded ∧ v.parcelState p ≠ .paused) := by tauto
  have hok' : ¬((!s1.confOk (v.parcel p) (confOf ps b)) = true) := by simp [hok]
  -- The update is the one that the command's meaning writes: the second part finds it, the first reads it off.
  apply Exists.intro
  apply And.symm
  constructor
  · simp only [ckpConfigRun, hp, if_neg hfree, hb, hread]
    exact if_neg hok'
  · exact ⟨fun _ => rfl, fun _ => rfl, fun _ => rfl, fun _ => rfl, fun _ => rfl, fun _ => rfl⟩

/-! ## CKP_NOW (R188) -/

section
variable {k : Cut} (hcut : (v.parcel p).cut = some k) (hs : v.parcelState p = .running) (hconf : (v.parcel p).ckp.conf.isSome = true)
include hcut hs hconf

/-- While an earlier CKP_NOW stands, another fails with a step. -/
theorem ckpNowRun_standing (h : (v.parcel p).ckp.nowStep.isSome = true ∨ (v.parcel p).ckp.nowWait.isSome = true) :
    ∃ st, ckpNowRun v w n ps = .done v 0x400A 0 (leBytes 8 st) := by
  have hc := Option.isNone_eq_false_iff.mpr hconf
  simp only [ckpNowRun, hp, hcut, hs, hc]
  cases hstep : (v.parcel p).ckp.nowStep with
  | some st => exact ⟨st, rfl⟩
  | none =>
    cases hwait : (v.parcel p).ckp.nowWait with
    | some _ => exact ⟨_, rfl⟩
    | none => simp [hstep, hwait] at h

variable (hstep : (v.parcel p).ckp.nowStep = none) (hwait : (v.parcel p).ckp.nowWait = none)
include hstep hwait

/-- Rank 0 answers with the step that it chooses. -/
theorem ckpNowRun_root (hk : k.rank = 0) {u : State} {st : Nat} (hu : v.announceCkpt p k (v.parcel p).run.step = (u, st)) :
    ckpNowRun v w n ps = gives (u.modCkp p fun q => { q with nowStep := some st }) (leBytes 8 st) := by
  have hc := Option.isNone_eq_false_iff.mpr hconf
  simp only [ckpNowRun, hp, hcut, hs, hc, hstep, hwait, if_pos hk, hu]
  rfl

/-- Another rank asks rank 0, and the command waits. -/
theorem ckpNowRun_asks (hk : k.rank ≠ 0) : ckpNowRun v w n ps =
    .wait ((v.ctrlTo p k 0 0x0A 0 0 0 []).modCkp p fun q => { q with nowWait := some w }) := by
  have hc := Option.isNone_eq_false_iff.mpr hconf
  simp only [ckpNowRun, hp, hcut, hs, hc, hstep, hwait, if_neg hk]
  rfl

end

/-! ## CKP_STATUS (R196) -/

theorem ckpStatusSpec_run : ckpStatusSpec.run v w n ps = gives v (v.parcel p).ckp.status := by
  simp only [ckpStatusSpec, hp]
  rfl

/-! ## CKP_RESTORE (R199, R200) -/

/-- A sealed manifest that fits the cut, and whose shards are good, is restored. -/
theorem ckpRestoreRun_ok {k : CkpConf} {q : Cut} {s1 s2 s3 : State} {a b : Option (List Byte)} {slot : Nat} {man : List Byte}
    (hconf : (v.parcel p).ckp.conf = some k) (hcut : (v.parcel p).cut = some q) (hs : v.parcelState p = .loaded)
    (hstart : (v.parcel p).run.started = none) (hreason : (v.parcel p).run.reason = 0) (hb : (v.parcel p).ckp.busy = false)
    (h0 : v.manifestOf k (v.parcel p).inst 0 = (s1, some a)) (h1 : s1.manifestOf k (v.parcel p).inst 1 = (s2, some b))
    (hpick : pickManifest (fieldAt ps 8 8) a b = some (slot, man))
    (hfit : fieldAt man 40 2 = q.jobSize ∧ fieldAt man 42 2 = q.rank ∧ fieldAt man 44 1 = 4 * (v.parcel p).gw ∧
      fieldAt man 45 1 = 4 * (v.parcel p).gh)
    (hid : slice man 64 32 = q.identity)
    (hshards : s2.restoreShards p k (v.parcel p).inst man slot (fieldAt man 10 2) 0 = (s3, none)) :
    ckpRestoreRun v w n ps = okay (s3.restoredTo p man (a.map fun y => fieldAt y 24 8) (b.map fun y => fieldAt y 24 8)) := by
  obtain ⟨hsize, hrank, hwidth, hheight⟩ := hfit
  have hfresh : ¬(v.parcelState p ≠ .loaded ∨ (v.parcel p).run.started.isSome = true ∨ (v.parcel p).run.reason ≠ 0) := by
    simp [hs, hstart, hreason]
  have hsame : ¬(fieldAt man 40 2 ≠ q.jobSize ∨ fieldAt man 42 2 ≠ q.rank ∨ fieldAt man 44 1 ≠ 4 * (v.parcel p).gw ∨
      fieldAt man 45 1 ≠ 4 * (v.parcel p).gh) := by
    simp [hsize, hrank, hwidth, hheight]
  have hident : ¬(slice man 64 32 ≠ q.identity) := not_not_intro hid
  simp only [ckpRestoreRun, hp, hconf, hcut, if_neg hfresh, hb, h0, h1, hpick, if_neg hsame, if_neg hident, hshards]
  rfl

end

end Sys2Proof.Machine

open Sys2Proof Sys2Proof.Machine

/-- Settles O23: command by command. The premises meet the checks of the command's meaning, and its own lemma says what it answers. -/
theorem checkpointCommands : Obligations.CheckpointCommands := by
  unfold Obligations.CheckpointCommands
  intro s c
  dsimp only
  refine ⟨fun v p s1 b k h hv hp hs hb hread hk hok => ?config, fun v p k st u0 h hv hp hcut hs hconf hstep hwait hk hu => ?now,
    fun v p k h hv hp hcut hs hconf => ⟨fun hstep hwait hk => ?asks, fun hstand => ?stands⟩, fun v p h hv hp => ?status,
    fun v p k q s1 a s2 b slot man s3 h hv hp hconf hcut hs hstart hreason hb h0 h1 hpick hsize hrank hwidth hheight hid hsh =>
      ?restore⟩
  all_goals subst hv
  case config =>
    subst hk
    obtain ⟨g, hg, hrun⟩ := ckpConfigRun_ok hp (s.waiterOf c) (s.senderOf c) hs hb hread hok
    have hold := State.parcel_of_parcels (State.cmdRead_parcels hread) p
    refine succeeds_of rfl h hrun ⟨s1.modCkp p g, ?_, ?_, ?_, ?_, ?_, ?_, ?_, OnlyParcel.modCkp s1 p g, fun _ => rfl, rfl, rfl⟩
    · rw [State.ckp_modCkp, hg.conf]; rfl
    · rw [State.ckp_modCkp, hg.keep]
    · rw [State.ckp_modCkp, hg.ckseq]
    · rw [State.ckp_modCkp, hg.announced, hold]
    · rw [State.ckp_modCkp, hg.restored, hold]
    · rw [State.ckp_modCkp, hg.armedSelf, hold]
    · rw [State.run_modCkp, hold]
  case now =>
    refine succeeds_of rfl h (ckpNowRun_root hp (s.waiterOf c) (s.senderOf c) hcut hs hconf hstep hwait hk hu) ⟨?_, ?_, ?_⟩
    · rw [State.ckp_modCkp]
    · exact State.announceCkpt_ge hu
    · exact (State.modCkp_facets ..).trans (State.announceCkpt_facets hu)
  case asks => exact runs_of_waits rfl h (ckpNowRun_asks hp (s.waiterOf c) (s.senderOf c) hcut hs hconf hstep hwait hk) rfl
  case stands =>
    obtain ⟨st, hrun⟩ := ckpNowRun_standing hp (s.waiterOf c) (s.senderOf c) hcut hs hconf hstand
    exact ends_of rfl h hrun rfl
  case status => exact succeeds_of rfl h (ckpStatusSpec_run hp (s.waiterOf c) (s.senderOf c)) rfl
  case restore =>
    refine succeeds_of rfl h (ckpRestoreRun_ok hp (s.waiterOf c) (s.senderOf c) hconf hcut hs hstart hreason hb h0 h1 hpick
      ⟨hsize, hrank, hwidth, hheight⟩ hid hsh) ⟨?_, ?_, ?_, ?_, fun _ => rfl, rfl⟩
    · exact congrArg Run.beat (State.run_modRun ..)
    · exact congrArg Run.step (State.run_modRun ..)
    · exact congrArg Ckp.restored ((State.ckp_modRun ..).trans (State.ckp_modCkp ..))
    · exact fun n hn => (OnlyParcel.modRun _ p _ n hn).trans (OnlyParcel.modCkp s3 p _ n hn)

end

section
/-! PROOF. O24 fails: its clause of a granule that is saved rules out uncorrectable units (`bad`), but not that the stack of the region's
bytes has failed, whose reads are uncorrectable all the same (R168, R466); that copy fails and gives up what it saved (R198). -/

namespace Sys2Proof.Machine

/-- A parcel of 16 facets whose copy of a region of one granule has begun. -/
def copyBegun : Ckp :=
  { Ckp.initial with
    phase := .copying, active := true, segs := [(0x80_0000, 0x1_0000)], saveSegs := [(0xA0_0000, 0x140_0000)], firstPlace := 294 }

/-- `copyBegun` in parcel 0 of a device that lists no uncorrectable unit, after the stack of the region's first byte has failed. -/
def deadStackCopy : State :=
  { State.reset with
    hbm := { State.reset.hbm with stks := [(State.reset.stackOf 0x80_0000, { Stack.initial with state := .failed })] }
    parcels := [(0, { Parcel.initial with valid := true, inst := 1, ckp := copyBegun })] }

/-- The place in the save area of a granule of a parcel's copy, in the state that an outcome answers. -/
def placeAfter (r : Res) (p g : Nat) : Option Nat := match r with
  | .next t => (t.parcel p).ckp.saved.find g
  | _ => none

/-- The granule has a free place, so what its saving leaves is a state. -/
theorem saveGranule_deadStackCopy : (deadStackCopy.drainHbm.saveGranule 0 0).isSome = true := by decide

theorem placeAfter_deadStackCopy : placeAfter (exec (.granuleSaveDone 0 0) deadStackCopy) 0 0 = none := by decide

end Sys2Proof.Machine

open Sys2Proof Sys2Proof.Machine

/-- Refutes O24: in `deadStackCopy` granule 0 is pending, no unit is uncorrectable and no write is held, where the clause has the granule
saved at a free place; but its stack has failed, so the copy fails and holds no saved granule. -/
theorem not_checkpointRows : ¬ Obligations.CheckpointRows := by
  unfold Obligations.CheckpointRows
  intro h
  obtain ⟨_, _, _, hgranule, _⟩ := h.1 deadStackCopy 0
  obtain ⟨u, hu⟩ := Option.isSome_iff_exists.mp saveGranule_deadStackCopy
  obtain ⟨t, ht, _, pl, _, _, _, _, _, hplace, _⟩ := (hgranule 0 u rfl rfl (by decide) rfl (by decide) hu).1 rfl rfl
  have hnone := placeAfter_deadStackCopy
  rw [ht, placeAfter, hplace] at hnone
  exact absurd hnone nofun
end

section
/-! PROOF. O25 and O26 fail while a checkpoint copy is under way. Zeros over a pending granule first save it (R192, R207), so the
granule's bytes appear in the save area: bytes outside every zeroed granule change, and with them map entries that lie there. -/

namespace Sys2Proof.Machine

/-! ## Memory without queued writes, bad units or failed stacks -/

section
variable {s t : State} (h : Stores s t)
include h

theorem Stores.parcels : t.parcels = s.parcels := by obtain ⟨_, _, _, _, rfl⟩ := h.rest; rfl
theorem Stores.faults : t.faults = s.faults := by obtain ⟨_, _, _, _, rfl⟩ := h.rest; rfl
theorem Stores.inst (i : Nat) : t.inst i = s.inst i := by obtain ⟨_, _, _, _, rfl⟩ := h.rest; rfl
theorem Stores.state (k : Nat) : (t.stack k).state = (s.stack k).state := (congrArg Stack.state (h.queues k) :)

end

/-- Where no unit is bad, a write leaves none. -/
theorem State.storeRaw_bad {s : State} (hb : s.hbm.bad = []) (a : Nat) (bs : List Byte) : (s.storeRaw a bs).1.hbm.bad = [] := by
  cases bs with
  | nil => exact hb
  | cons b bs =>
    have hm := State.markWritten_sound hb a (b :: bs).length
    by_cases ha : a < hbmSize
    · simp only [State.storeRaw, List.length_cons, Nat.succ_ne_zero, if_false, if_pos ha] at hm ⊢
      simp [hm, State.dropRows]
    · simp [State.storeRaw, ha, hb]

/-- Memory reads as its cells say, and every write lands: no unit is bad, and every stack serves with an empty queue. -/
structure Quiet (s : State) : Prop where
  sound  : s.hbm.bad = []
  dies   : s.faults.failedDies = []
  queues : ∀ k, (s.stack k).writes = []
  serves : ∀ k, (s.stack k).state ≠ .failed

/-- Only the stacks and the failed dies matter. -/
theorem Quiet.congr {s t : State} (h : Quiet s) (hh : t.hbm = s.hbm) (hf : t.faults = s.faults) : Quiet t := by
  have hk (k : Nat) : t.stack k = s.stack k := by rw [State.stack, hh, State.stack]
  exact ⟨hh ▸ h.sound, hf ▸ h.dies, fun k => hk k ▸ h.queues k, fun k => hk k ▸ h.serves k⟩

/-- The state after reset has stacks without work. -/
theorem Quiet.reset : Quiet State.reset := by
  refine ⟨rfl, rfl, fun k => ?_, fun k => ?_⟩ <;> simp [State.stack, State.reset, Tbl.getD, Tbl.find, Stack.initial]

namespace Quiet

variable {s : State} (h : Quiet s)
include h

theorem issueWrite (k : Nat) : s.issueWrite k = s := by simp [State.issueWrite, h.queues]

theorem drainStack (k n : Nat) : s.drainStack k n = s := by
  induction n with
  | zero => rfl
  | succ n ih => rw [State.drainStack, h.issueWrite, ih]

theorem drainHbm : s.drainHbm = s :=
  List.foldlRecOn (motive := (· = s)) _ _ rfl fun t ht e _ => by subst ht; exact h.drainStack ..

theorem readByte (a : Nat) : s.readByte a = Memory.get s.mem a := by simp [State.readByte, h.queues, queuedByte]

theorem rangeBad (a n : Nat) : s.rangeBad a n = false := by
  simp [State.rangeBad, State.badUnits, h.sound, h.serves, State.dieFailed, h.dies]

theorem storeRaw (a : Nat) (bs : List Byte) : Quiet (s.storeRaw a bs).1 :=
  have hs := Stores.storeRaw s a bs
  ⟨State.storeRaw_bad h.sound a bs, hs.faults.symm ▸ h.dies, fun k => (hs.writes k).trans (h.queues k),
    fun k e => h.serves k ((hs.state k).symm.trans e)⟩

/-- Zeroing a range changes its bytes, and the cached rows that it drops. -/
theorem zeroRange_eq (a n : Nat) : ∃ gather, s.zeroRange a n =
    { s with mem := Memory.erase (fun k => decide (a ≤ k ∧ k < a + n)) s.mem, gather } := by
  have hb : s.hbm = { s.hbm with bad := [] } := by rw [← h.sound]
  by_cases ha : a < hbmSize
  · refine ⟨(s.dropRows a n).gather, ?_⟩
    simp only [State.zeroRange, if_pos ha, h.drainHbm, h.sound, List.filter_nil, State.dropRows, ← hb]
  · refine ⟨s.gather, ?_⟩
    simp only [State.zeroRange, if_neg ha, h.sound, List.filter_nil, ← hb]

end Quiet

/-! ## A copy that saves the granule it is asked to zero (R192) -/

/-- The device address of the one granule that the copy has pending. -/
def savedFrom : Nat := 0x80_0000

/-- The device address of the copy's save area. -/
def savedTo : Nat := 0x100_0000

/-- The checkpoint copy of one granule, with a save area that holds one. -/
def savingCopy : Ckp :=
  { Ckp.initial with phase := .copying, active := true, segs := [(savedFrom, ckpGranule)], saveSegs := [(savedTo, ckpGranule)] }

/-- Parcel 0 of tenant 1 before its granule is saved. -/
def savingParcel : Parcel := { Parcel.initial with valid := true, inst := 1, ckp := savingCopy }

/-- That parcel after its granule is saved. -/
def savedParcel : Parcel := { savingParcel with ckp := { savingCopy with saved := [(0, 0)] } }

/-- The granule is pending, and its first byte is 1; the map of tenant 1 stands where the save area does. -/
structure Saving (s : State) : Prop where
  quiet   : Quiet s
  form    : MemOk s
  parcels : s.parcels = [(0, savingParcel)]
  first   : Memory.get s.mem savedFrom = 1
  base    : (s.inst 1).mapBase = savedTo

/-- The granule is saved: its first byte, 1, stands in the save area. -/
structure Saved (s : State) : Prop where
  quiet   : Quiet s
  parcels : s.parcels = [(0, savedParcel)]
  first   : Memory.get s.mem savedTo = 1
  base    : (s.inst 1).mapBase = savedTo

/-- The state before the bytes of the granule are copied: the copy is charged to tenant 0, in whose name it is made. -/
def State.chargedSave (s : State) : State := (s.charge 0 1 ckpGranule).charge 0 2 ckpGranule

/-- The state in which the granule is saved. -/
def State.savedCopy (s : State) : State :=
  (s.chargedSave.copyRaw savedFrom savedTo ckpGranule).modCkp 0 fun c => { c with saved := c.saved.put 0 0 }

theorem Saving.saveGranule {s : State} (h : Saving s) : s.saveGranule 0 0 = some s.savedCopy := by
  have hp : s.parcel 0 = savingParcel := by simp [State.parcel, h.parcels, Tbl.getD, Tbl.find]
  have hfree : savingParcel.ckp.freePlace = some 0 := by decide
  have hsrc : segAt savingParcel.ckp.segs (0 * ckpGranule) = some savedFrom := by decide
  have hdst : segAt savingParcel.ckp.saveSegs (0 * ckpGranule) = some savedTo := by decide
  have howner : savingParcel.ckp.owner = 0 := by decide
  simp only [State.saveGranule, hp, hfree, hsrc, hdst, howner, h.quiet.rangeBad, Bool.false_eq_true, if_false, State.savedCopy, State.chargedSave]

/-- Charges touch nothing that `Saving` speaks of. -/
theorem Saving.charged {s : State} (h : Saving s) : Saving s.chargedSave :=
  ⟨h.quiet.congr rfl rfl, h.form, h.parcels, h.first, by
    have h10 : (1 : Nat) ≠ 0 := by decide
    rw [State.chargedSave, State.charge, State.inst_modInst_ne _ _ h10, State.charge, State.inst_modInst_ne _ _ h10]
    exact h.base⟩

/-- The bytes stand in the save area, and the granule is noted as saved. -/
theorem Saved.of_copied {s : State} (hq : Quiet s) (hp : s.parcels = [(0, savingParcel)]) (h1 : Memory.get s.mem savedTo = 1)
    (hb : (s.inst 1).mapBase = savedTo) : Saved (s.modCkp 0 fun c => { c with saved := c.saved.put 0 0 }) := by
  refine ⟨hq.congr rfl rfl, ?_, h1, hb⟩
  simp only [State.modCkp, State.modParcel, State.putParcel, State.parcel, hp]
  rfl

theorem State.readBytes_cons (s : State) (a : Nat) {n : Nat} (hn : 0 < n) :
    s.readBytes a n = s.readByte a :: s.readBytes (a + 1) (n - 1) := by
  cases n with
  | zero => exact absurd hn (Nat.lt_irrefl 0)
  | succ n => rfl

theorem Saving.readBytes {s : State} (h : Saving s) : ∃ bs, s.readBytes savedFrom ckpGranule = 1 :: bs := by
  have hn : 0 < ckpGranule := by decide
  exact ⟨_, by rw [State.readBytes_cons s savedFrom hn, h.quiet.readByte, h.first]⟩

theorem Saving.savedCopy {s : State} (h : Saving s) : Saved s.savedCopy := by
  have hc := h.charged
  rw [State.savedCopy, State.copyRaw]
  generalize s.chargedSave = v at hc ⊢
  obtain ⟨bs, hbs⟩ := hc.readBytes
  have hs := Stores.storeRaw v savedTo (1 :: bs)
  have hfirst : Memory.get (v.storeRaw savedTo (1 :: bs)).1.mem savedTo = 1 := by
    rw [State.storeRaw_mem hc.quiet.sound]
    exact Memory.get_write_inside (1 :: bs) _ savedTo 0 hc.form (Nat.zero_lt_succ _)
  rw [hbs]
  exact .of_copied (hc.quiet.storeRaw ..) (hs.parcels.trans hc.parcels) hfirst ((congrArg Instance.mapBase (hs.inst 1)).trans hc.base)

/-! ## Zeroing a granule of the map piece by piece -/

/-- The zeros of one 64 KiB piece: a held or pending granule is written as any other write, the rest is zeroed. -/
def State.zeroPiece (a n : Nat) (s : State) (j : Nat) : State :=
  let b := a + j * ckpGranule
  let k := min ckpGranule (n - j * ckpGranule)
  if (s.heldGranule b).isSome || (s.pendingGranule b).isSome then (s.storePart b (zeros k)).1 else s.zeroRange b k

theorem State.zeroStore_copying {s : State} {a n : Nat} (ha : a < hbmSize) (hc : s.copying = true) :
    s.zeroStore a n = (List.range ((n + ckpGranule - 1) / ckpGranule)).foldl (State.zeroPiece a n) s := by
  rw [State.zeroStore, hc, decide_eq_true ha]
  rfl

theorem Saved.noneHeld {s : State} (h : Saved s) (a : Nat) : s.heldGranule a = none := by
  simp [State.heldGranule, h.parcels, savedParcel, savingParcel, savingCopy, Ckp.initial]

theorem Saved.nonePending {s : State} (h : Saved s) (a : Nat) : s.pendingGranule a = none := by
  have hseg : ∀ q, segPos [(savedFrom, ckpGranule)] 0 a = some q → q / ckpGranule = 0 := by
    intro q hq
    simp only [segPos] at hq
    split at hq
    · simp only [Option.some.injEq] at hq
      simp only [ckpGranule] at *
      omega
    · cases hq
  simp only [State.pendingGranule, h.parcels, List.findSome?_cons, List.findSome?_nil]
  simp only [savedParcel, savingParcel, savingCopy, Ckp.initial]
  cases hq : segPos [(savedFrom, ckpGranule)] 0 a with
  | none => rfl
  | some q => simp [hseg q hq, Tbl.has, Tbl.find]

theorem Saved.modInst_mapWork {s : State} (h : Saved s) (f : List MapWork → List MapWork) :
    Saved (s.modInst 1 fun x => { x with mapWork := f x.mapWork }) :=
  ⟨h.quiet.congr rfl rfl, h.parcels, h.first, by rw [State.inst_modInst]; exact h.base⟩

/-- Bytes below the save area are written. -/
theorem Saved.storeRaw {s : State} (h : Saved s) {a : Nat} {bs : List Byte} (ha : a + bs.length ≤ savedTo) : Saved (s.storeRaw a bs).1 := by
  have hs := Stores.storeRaw s a bs
  refine ⟨h.quiet.storeRaw a bs, hs.parcels.trans h.parcels, ?_, (congrArg Instance.mapBase (hs.inst 1)).trans h.base⟩
  rw [State.storeRaw_mem h.quiet.sound, Memory.get_write_outside _ _ _ _ (.inr ha)]
  exact h.first

/-- Bytes below the save area are zeroed. -/
theorem Saved.zeroRange {s : State} (h : Saved s) {a n : Nat} (ha : a + n ≤ savedTo) : Saved (s.zeroRange a n) := by
  obtain ⟨gather, hs⟩ := h.quiet.zeroRange_eq a n
  rw [hs]
  refine ⟨h.quiet.congr rfl rfl, h.parcels, ?_, h.base⟩
  simpa [Memory.get_erase, Nat.not_lt.mpr ha] using h.first

theorem Saved.zeroPiece {s : State} (h : Saved s) {a n j : Nat} (ha : a + n ≤ savedTo) (hj : j * ckpGranule ≤ n) :
    Saved (s.zeroPiece a n j) := by
  simp only [State.zeroPiece, h.noneHeld, h.nonePending, Option.isSome_none, Bool.or_self, Bool.false_eq_true, if_false]
  exact h.zeroRange (by omega)

theorem Saving.noneHeld {s : State} (h : Saving s) (a : Nat) : s.heldGranule a = none := by
  simp [State.heldGranule, h.parcels, savingParcel, savingCopy, Ckp.initial]

theorem Saving.pending {s : State} (h : Saving s) : s.pendingGranule savedFrom = some (0, 0) := by
  rw [State.pendingGranule, h.parcels]
  decide

theorem Saving.saveFor {s : State} (h : Saving s) : s.saveFor savedFrom (s.parcels.length + 1) = some s.savedCopy := by
  have hn : s.parcels.length = 1 := by rw [h.parcels, List.length_singleton]
  simp [hn, State.saveFor, h.pending, h.saveGranule, h.savedCopy.nonePending]

/-- The first piece is the pending granule: it is saved, then zeroed. -/
theorem Saving.zeroPiece {s : State} (h : Saving s) : Saved (s.zeroPiece savedFrom granule 0) := by
  have hw : s.zeroPiece savedFrom granule 0 = (s.savedCopy.storeRaw savedFrom (zeros ckpGranule)).1 := by
    have hk : min ckpGranule (granule - 0 * ckpGranule) = ckpGranule := by decide
    have ha : savedFrom + 0 * ckpGranule = savedFrom := by decide
    simp only [State.zeroPiece, hk, ha, h.noneHeld, h.pending, State.storePart, h.saveFor, Option.isSome_some, Bool.or_true, if_true]
  rw [hw]
  refine h.savedCopy.storeRaw ?_
  rw [zeros, List.length_replicate]
  decide

/-- Zeroing the map granule that holds the pending granule saves it. -/
theorem Saving.zeroGrans {s : State} (h : Saving s) : Saved (s.zeroGrans [4]) := by
  have hc : s.copying = true := by
    rw [State.copying, h.parcels]
    decide
  have hz : s.zeroGrans [4] = (List.range' 1 31).foldl (State.zeroPiece savedFrom granule) (s.zeroPiece savedFrom granule 0) := by
    have hg : 4 * granule = savedFrom := by decide
    have hr : List.range ((granule + ckpGranule - 1) / ckpGranule) = 0 :: List.range' 1 31 := by decide
    rw [State.zeroGrans, List.foldl_cons, List.foldl_nil, hg, if_pos (by decide), State.zeroStore_copying (by decide) hc, hr, List.foldl_cons]
  rw [hz]
  refine List.foldlRecOn (motive := Saved) _ _ h.zeroPiece fun t ht j hj => ht.zeroPiece (by decide) ?_
  obtain ⟨_, hlt⟩ := List.mem_range'_1.mp hj
  simp only [ckpGranule, granule]
  omega

/-! ## Replies of channel 1 write no memory (R228) -/

theorem State.emitOne_one_mem {s t : State} {h : HeldReply} (e : s.emitOne 1 h = some t) : t.mem = s.mem := by
  simp only [State.emitOne, mailboxFn] at e
  split at e <;> cases e <;> rfl

section
variable (s : State)

theorem State.flushGo_one_mem (l : List HeldReply) : (State.flushGo 1 l s).mem = s.mem := by
  induction l generalizing s with
  | nil => rfl
  | cons h l ih =>
    rw [State.flushGo]
    split
    next e => exact (ih _).trans (State.emitOne_one_mem e)
    next => rfl

theorem State.emitReply_one_mem (h : HeldReply) : (s.emitReply 1 h).mem = s.mem := by
  rw [State.emitReply]
  split
  · rfl
  · exact State.flushGo_one_mem ..

theorem State.finishOne_one_mem (id status detail : Nat) (params : List Byte) : (s.finishOne 1 id status detail params).mem = s.mem := by
  unfold State.finishOne State.sendResult
  split
  · rfl
  · split
    · rfl
    · refine (State.emitReply_one_mem ..).trans ?_
      split <;> rfl

theorem State.abortsGo_one_mem (n : Nat) (l : List (Nat × Nat)) : (State.abortsGo 1 n l s).mem = s.mem := by
  induction n generalizing s l with
  | zero => rfl
  | succ n ih =>
    cases l with
    | nil => rfl
    | cons a l => exact (ih _ _).trans (foldl_mem (fun s _ => s.finishOne_one_mem ..) _ _)

theorem State.finish_one_mem (id status detail : Nat) (seq : BitVec 32) (params : List Byte) :
    (s.finish ⟨1, id, seq⟩ status detail params).mem = s.mem :=
  (State.abortsGo_one_mem ..).trans (State.finishOne_one_mem ..)

end

/-! ## The two states -/

/-- A running device with the copy under way; tenant 0 is the manager, and tenant 1 has a map of one entry. -/
def copyingState (mem : List Host.Cell) (work : List MapWork) : State :=
  { State.reset with
    mem
    insts := [(0, { Instance.initial with state := .active }),
      (1, { Instance.initial with state := .active, mapBase := savedTo, mapLen := 1, mapWork := work })]
    parcels := [(0, savingParcel)]
    chans := [(1, { Channel.initial 1 with state := .synced })]
    boot := { State.reset.boot with phase := .running } }

theorem Saving.of_parts {s : State} (hh : s.hbm = State.reset.hbm) (hf : s.faults = State.reset.faults) (hm : MemOk s)
    (hp : s.parcels = [(0, savingParcel)]) (h1 : Memory.get s.mem savedFrom = 1) (hb : (s.inst 1).mapBase = savedTo) : Saving s :=
  ⟨Quiet.reset.congr hh hf, hm, hp, h1, hb⟩

/-- A PCL_MAP_SET that has cleared the entry of granule 4 and waits for its old translations. -/
def clearing : MapWork := { waiter := ⟨1, 0, 0⟩, first := 0, count := 1, entry := 0, done := 1, olds := [4], zero := [4] }

/-- That PCL_MAP_SET while the copy has the first 64 KiB of granule 4 pending. -/
def drainedState : State := copyingState [(savedFrom, 1)] [clearing]

theorem drainedState_saving : Saving drainedState := .of_parts rfl rfl rfl rfl rfl rfl

theorem mapSetDrained_drainedState : ∃ u : State, Saved u ∧
    exec (.mapSetDrained 1) drainedState = .next (u.finish clearing.waiter 0 0 []) := by
  refine ⟨_, drainedState_saving.zeroGrans.modInst_mapWork fun _ => [], ?_⟩
  have hwork : (drainedState.inst 1).mapWork = [clearing] := rfl
  have hbusy : clearing.olds.any drainedState.granBusy = false := by decide
  have hzero : (clearing.zero.filter fun g => !drainedState.granMapped g) = [4] := by decide
  have hdone : clearing.count ≤ clearing.done := by decide
  simp only [exec, execMapSetDrained, hwork, drainedState_saving.quiet.drainHbm, hbusy, hzero, if_pos hdone, Bool.false_eq_true, if_false]

/-- A PCL_MAP_SET of the manager's that clears entry 0 of tenant 1. -/
def clearCmd : Cmd :=
  let ps := leBytes 1 1 ++ zeros 7 ++ leBytes 4 1 ++ zeros 12
  let p : Packet := { version := 1, flags := 0, seq := 0, plen := 24, status := 0, rsv14 := 0, detail := 0, crc := 0, rseq := 0, elapsed := 0, params := ps }
  { ch := 1, src := 0, pkt := { p with crc := BitVec.ofNat 32 (crc32c (p.image 0x1007)) } }

/-- Entry 0 of tenant 1 maps granule 4, of which the copy has the first 64 KiB pending. -/
def mappedState : State := copyingState [(savedFrom, 1), (savedTo + 2, 0x80), (savedTo + 7, 0x80)] []

/-- The state in which `clearCmd` executes. -/
def clearState : State := mappedState.entered pclMapSetSpec clearCmd

theorem mappedState_takes : mappedState.takes pclMapSetSpec clearCmd = true := by decide +kernel

theorem clearState_saving : Saving clearState := .of_parts rfl rfl rfl rfl rfl rfl

theorem writeEntries_clearState : Saving (clearState.writeEntries 1 0 [0]) :=
  have h := clearState_saving
  have hs : Stores clearState (clearState.writeEntries 1 0 [0]) := Stores.storeRaw ..
  ⟨h.quiet.storeRaw .., State.writeEntries_memOk h.form .., hs.parcels.trans h.parcels, by decide +kernel,
    (congrArg Instance.mapBase (hs.inst 1)).trans h.base⟩

/-- A step of a PCL_MAP_SET writes its entries, then zeroes the granules whose last mapping went (R207). -/
theorem State.mapBatch_fst (s : State) (i : Nat) (w : Waiter) (first count entry done : Nat) :
    (s.mapBatch i w first count entry done).1 =
      (s.drainHbm.writeEntries i (first + done) ((List.range ((s.mapBatch i w first count entry done).2.done - done)).map fun k =>
        entryAt entry (done + k))).zeroGrans (s.mapBatch i w first count entry done).2.zero := rfl

/-- What `clearCmd` leaves: entry 0 is written, and the zeros of granule 4 have saved the pending granule over it. -/
theorem pclMapSet_mappedState : ∃ u : State, Saved u ∧ exec (.pclMapSet clearCmd) mappedState = .next u := by
  refine ⟨_, writeEntries_clearState.zeroGrans.modInst_mapWork fun l => l ++ [(clearState.mapBatch 1 (mappedState.waiterOf clearCmd) 0 1 0 0).2], ?_⟩
  have hquiet := clearState_saving.quiet.drainHbm
  have hzero : (clearState.mapBatch 1 (mappedState.waiterOf clearCmd) 0 1 0 0).2.zero = [4] := by decide +kernel
  have hdone : (clearState.mapBatch 1 (mappedState.waiterOf clearCmd) 0 1 0 0).2.done = 1 := by decide +kernel
  have hbatch : (clearState.mapBatch 1 (mappedState.waiterOf clearCmd) 0 1 0 0).1 = (clearState.writeEntries 1 0 [0]).zeroGrans [4] := by
    rw [State.mapBatch_fst, hzero, hdone, hquiet]
    rfl
  have hrun : pclMapSetSpec.run clearState (mappedState.waiterOf clearCmd) (mappedState.senderOf clearCmd) clearCmd.pkt.params =
      .wait (((clearState.writeEntries 1 0 [0]).zeroGrans [4]).modInst 1 fun x =>
        { x with mapWork := x.mapWork ++ [(clearState.mapBatch 1 (mappedState.waiterOf clearCmd) 0 1 0 0).2] }) := by
    have hi : fieldAt clearCmd.pkt.params 0 1 = 1 := by decide
    have hfirst : fieldAt clearCmd.pkt.params 4 4 = 0 := by decide
    have hcount : fieldAt clearCmd.pkt.params 8 4 = 1 := by decide
    have hentry : fieldAt clearCmd.pkt.params 16 8 = 0 := by decide
    have hactive : clearState.isActive 1 = true := by decide
    have hlen : ¬(clearState.inst 1).mapLen < 0 + 1 := by decide
    have hok : clearState.mapRefusal 1 0 1 0 = none := by decide
    simp only [pclMapSetSpec, pclMapSetRun, hi, hfirst, hcount, hentry, hactive, hlen, hquiet, hok, ← hbatch]
    rfl
  rw [exec, execPclMapSet, State.command_eq mappedState_takes, show mappedState.entered pclMapSetSpec clearCmd = clearState from rfl, hrun]

/-- Entry 0 of tenant 1 is not 0 once the granule is saved over it. -/
theorem Saved.mapEntry_ne_zero {s : State} (h : Saved s) : s.mapEntry 1 0 ≠ 0 := by
  have hb : s.readByte savedTo = 1 := (h.quiet.readByte _).trans h.first
  simp [State.mapEntry, h.base, State.readBytes, leNat, hb]

end Sys2Proof.Machine

open Sys2Proof Sys2Proof.Machine

/-- Refutes O25: in `mappedState` a PCL_MAP_SET clears entry 0 of tenant 1 and zeroes its granule, where the clause has entry 0 read
as written; the checkpoint copy saves the granule's first 64 KiB over the map, and entry 0 reads as the granule's bytes. -/
theorem not_tenantCommands : ¬ Obligations.TenantCommands := by
  unfold Obligations.TenantCommands
  intro h
  obtain ⟨_, _, _, _, _, _, hmap, _⟩ := h mappedState clearCmd
  obtain ⟨t, ht, m, _, _, _, hdone, hentry, _⟩ := hmap clearState 0 1 0 mappedState_takes rfl (by decide) (by decide) (by decide) (by decide)
    (by decide) (by decide) clearState_saving.form rfl (by decide +kernel) (by decide +kernel)
  obtain ⟨u, hu, ht'⟩ := pclMapSet_mappedState
  obtain rfl : u = t := Host.Outcome.next.inj (ht'.symm.trans ht)
  exact hu.mapEntry_ne_zero (hentry 0 hdone)

/-- Refutes O26: in `drainedState` the zeros of granule 4 first save its pending 64 KiB, so the first byte of the save area, which lies
in no zeroed granule, goes from 0 to 1, where the clause keeps every such byte. -/
theorem not_tenantRows : ¬ Obligations.TenantRows := by
  unfold Obligations.TenantRows
  intro h
  obtain ⟨_, _, hmap, _⟩ := h drainedState
  obtain ⟨t, ht, u, hu, _, _, _, hframe⟩ := (hmap 1 clearing [] rfl).2 (by decide) (by decide)
  obtain ⟨v, hv, ht'⟩ := mapSetDrained_drainedState
  have hend := Host.Outcome.next.inj (ht'.symm.trans (ht.trans (congrArg _ hu)))
  have hmem : v.mem = u.mem := (State.finish_one_mem ..).symm.trans ((congrArg State.mem hend).trans (State.finish_one_mem ..))
  have hkept := hframe savedTo (by decide)
  rw [← hmem, hv.first, drainedState_saving.quiet.drainHbm] at hkept
  exact absurd hkept (by decide)
end

section
/-! PROOF. The state after power-on reset (R233, R380, R451, R487): its tables list only instance 0, so every other object is at its
initial value, and the registers read as their tables say. -/

namespace Sys2Proof.Machine

/-! ## Objects at power-on reset -/

theorem State.facet_reset (f : Nat) : State.reset.facet f = Facet.initial := rfl

theorem State.parcel_reset (p : Nat) : State.reset.parcel p = Parcel.initial := rfl

theorem State.chan_reset (ch : Nat) : State.reset.chan ch = Channel.initial ch := rfl

theorem State.fn_reset (n : Nat) : State.reset.fn n = PceFn.initial n := rfl

theorem State.ctrl_reset (i : Nat) : State.reset.ctrl i = NvCtrl.initial := rfl

/-- Instance 0 is listed with the manager's shares. -/
theorem State.inst_reset_zero : State.reset.inst 0 = { Instance.initial with shares := Shares.manager } := rfl

theorem State.inst_reset_ne_zero {i : Nat} (h : i ≠ 0) : State.reset.inst i = Instance.initial := by
  cases i with
  | zero => exact absurd rfl h
  | succ _ => rfl

/-- Every instance is of generation 0, the manager too. -/
theorem State.genOf_reset (i : Nat) : State.reset.genOf i = 0 := by
  by_cases h : i = 0
  · subst h
    exact congrArg Instance.gen State.inst_reset_zero
  · exact congrArg Instance.gen (State.inst_reset_ne_zero h)

/-! ## Registers at power-on reset -/

/-- A field rail and the girdle rail on, each register of the list reads its table's value. -/
theorem regRead_resetWords : ∀ e ∈ resetWords, (((State.reset.setRail 0 500).setRail 6 750).regRead e.1).1 = BitVec.ofNat 64 e.2 := by
  decide +kernel

end Sys2Proof.Machine

open Sys2Proof Sys2Proof.Machine

/-- Settles O60: each object is at its initial value, which is the rule's, and the registers are read one by one. -/
theorem resetState : Obligations.ResetState := by
  unfold Obligations.ResetState
  refine ⟨MemOk.reset, rfl, rfl, rfl, rfl, fun f _ => ?facet, fun p => ?parcel, fun i hi => ?inst, State.genOf_reset, fun ch => ?chan,
    fun f => ?fn, fun i => ?ctrl, regRead_resetWords⟩
  case facet => rw [State.facet_reset]; exact ⟨rfl, rfl, rfl⟩
  case parcel => rw [State.parcel_reset]; rfl
  case inst => rw [State.inst_reset_ne_zero hi]; rfl
  case chan => rw [State.chan_reset]; rfl
  case fn => rw [State.fn_reset]; rfl
  case ctrl => rw [State.ctrl_reset]; rfl

end

section
/-! PROOF. What a packet's SEQ does (R226, R233 to R237): the packet that reaches its channel, each branch on its number, SYS_SYNC, and
the command that fails a check. -/

namespace Sys2Proof.Machine

/-! ## A packet that reaches its channel (R228, R237, R245) -/

/-- A packet that reaches its channel goes on in the awake state, for the instance the channel is bound to. -/
theorem State.packet_reaches {s : State} {op : Nat} {c : Cmd} (h : s.reaches op c = true) (k : State → Nat → State) :
    s.packet op c k = k s.wakeDeep (s.senderOf c) := by
  simp only [State.reaches, Bool.and_eq_true, Bool.or_eq_true, decide_eq_true_eq] at h
  obtain ⟨⟨⟨⟨hdormant, hsleep⟩, hserves⟩, hframed⟩, hsource⟩ := h
  have hawake : ¬(s.power.rung = 3 ∧ 2 ≤ c.ch) := by omega
  simp [State.packet, hdormant, hawake, hserves, hframed, hsource, State.senderOf]

/-! ## The branches on SEQ (R233 to R235) -/

/-- A retained reply as it leaves again (R234). -/
def Retained.replay (k : Retained) (dst now : Nat) : HeldReply :=
  { dst, opcode := k.opcode, flags := fReply + fReplay, seq := k.seq, status := k.status, detail := k.detail, at_ := now, inst := k.inst
    gen := k.gen, params := k.params }

section
variable {s : State} {sp : Spec} {c : Cmd} {n : Nat} (hv : c.pkt.version = 1)

/-- Another version is answered before the channel's state and the number, but for the next command. -/
theorem State.sequence_version (hver : c.pkt.version ≠ 1)
    (h : (s.chan c.ch).state = .unsynced ∨ (c.pkt.seq - (s.chan c.ch).e).toNat ≠ 0) :
    s.sequence sp c n = s.refuse1 c sp.opcode 2 0 := if_pos ⟨hver, h⟩

/-- The next command, of any version, while there is room: it consumes its number and enters progress. -/
theorem State.sequence_next (h : (s.chan c.ch).state = .synced) (hd : (c.pkt.seq - (s.chan c.ch).e).toNat = 0)
    (hroom : (s.chan c.ch).inProg.length < 16) :
    s.sequence sp c n = ((s.modChan c.ch fun x => { x with e := x.e + 1 }).begin c sp.opcode n).execute sp c
      { ch := c.ch, id := (s.chan c.ch).nextId, seq := c.pkt.seq } n := by
  simp [State.sequence, h, hd, Nat.not_le.mpr hroom]

section
include hv

theorem State.sequence_unsynced (h : (s.chan c.ch).state = .unsynced) : s.sequence sp c n = s.refuse1 c sp.opcode 3 0 :=
  (if_neg fun hver => hver.1 hv).trans (if_pos h)

/-- The seventeenth command in progress. -/
theorem State.sequence_full (h : (s.chan c.ch).state = .synced) (hd : (c.pkt.seq - (s.chan c.ch).e).toNat = 0)
    (hfull : 16 ≤ (s.chan c.ch).inProg.length) : s.sequence sp c n = s.refuse1 c sp.opcode 8 (s.chan c.ch).inProg.length := by
  simp [State.sequence, hv, h, hd, hfull]

/-- A number ahead of the next. -/
theorem State.sequence_ahead (h : (s.chan c.ch).state = .synced) (hlo : 1 ≤ (c.pkt.seq - (s.chan c.ch).e).toNat)
    (hhi : (c.pkt.seq - (s.chan c.ch).e).toNat ≤ 2 ^ 31) : s.sequence sp c n = s.refuse1 c sp.opcode 4 (s.chan c.ch).e.toNat := by
  have hne := Nat.ne_of_gt hlo
  simp only [State.sequence, hv, h, hne, hhi]
  simp

/-- An old number, of none of the last 16. -/
theorem State.sequence_old (h : (s.chan c.ch).state = .synced) (hlo : 2 ^ 31 < (c.pkt.seq - (s.chan c.ch).e).toNat)
    (hhi : (c.pkt.seq - (s.chan c.ch).e).toNat < 2 ^ 32 - 16) : s.sequence sp c n = s.refuse1 c sp.opcode 0x0A (s.chan c.ch).e.toNat := by
  have hne := Nat.ne_of_gt (Nat.zero_lt_of_lt hlo)
  simp only [State.sequence, hv, h, hne, Nat.not_le.mpr hlo, Nat.not_le.mpr hhi]
  simp

section
variable (h : (s.chan c.ch).state = .synced) (hlast : 2 ^ 32 - 16 ≤ (c.pkt.seq - (s.chan c.ch).e).toNat)
include h hlast

/-- One of the last 16 numbers whose command is in progress and not stale. -/
theorem State.sequence_inProg {e : InProgress}
    (he : ((s.chan c.ch).inProg.find? fun e => e.seq = c.pkt.seq && !e.stale) = some e) :
    s.sequence sp c n = if e.crc = c.pkt.crc then s.refuse1 c sp.opcode 9 0 true else s.refuse1 c sp.opcode 0x0B 0 := by
  have hne : (c.pkt.seq - (s.chan c.ch).e).toNat ≠ 0 := by omega
  have hback : ¬(c.pkt.seq - (s.chan c.ch).e).toNat ≤ 2 ^ 31 := by omega
  simp only [State.sequence, hv, h, hne, hback, hlast, he]
  simp

/-- One of the last 16 numbers that is in progress no more and whose reply is retained. -/
theorem State.sequence_kept (hno : ∀ e ∈ (s.chan c.ch).inProg, e.seq ≠ c.pkt.seq) {k : Retained}
    (hk : ((s.chan c.ch).kept.find? fun k => k.seq = c.pkt.seq) = some k) :
    s.sequence sp c n = if k.crc = c.pkt.crc then s.emitReply c.ch (k.replay c.src s.now) else s.refuse1 c sp.opcode 0x0B 0 := by
  have hne : (c.pkt.seq - (s.chan c.ch).e).toNat ≠ 0 := by omega
  have hback : ¬(c.pkt.seq - (s.chan c.ch).e).toNat ≤ 2 ^ 31 := by omega
  have hnone : ((s.chan c.ch).inProg.find? fun e => e.seq = c.pkt.seq && !e.stale) = none :=
    List.find?_eq_none.mpr fun e he => by simp [hno e he]
  simp only [State.sequence, hv, h, hne, hback, hlast, hnone, hk]
  simp [Retained.replay]

end

end

end

/-! ## The next command (R233, R237) -/

section
variable {s : State} {sp : Spec} {c : Cmd} (h : s.meets sp c = true)
include h

/-- A packet that is its channel's next command consumes its number, enters progress, and is checked and executed. -/
theorem State.command_meets : s.command sp c = (s.entered sp c).execute sp c (s.waiterOf c) (s.senderOf c) := by
  simp only [State.meets, Bool.and_eq_true, decide_eq_true_eq] at h
  obtain ⟨⟨⟨hreach, hstate⟩, hseq⟩, hroom⟩ := h
  have hd : (c.pkt.seq - (s.wakeDeep.chan c.ch).e).toNat = 0 := by rw [hseq, BitVec.sub_self]; rfl
  rw [State.command, State.packet_reaches hreach]
  exact State.sequence_next hstate hd hroom

/-- A command that fails a check ends with that check's status and detail, and nothing else happens. -/
theorem State.command_refused {e d : Nat} (hc : s.verdict sp c = some (e, d)) :
    s.command sp c = (s.entered sp c).finish (s.waiterOf c) e d [] := by
  rw [State.verdict] at hc
  rw [State.command_meets h, State.execute, hc]

end

/-- An opcode that no chapter defines is run as the unknown command. -/
theorem State.runPacket_unknown {op : Nat} (h0 : op ≠ 0) (h1 : op ≠ 1) (hop : ∀ sp ∈ commandSpecs, sp.opcode ≠ op)
    (s : State) (c : Cmd) : s.runPacket op c = s.command (unknownSpec op) c := by
  have hnone : (commandSpecs.find? fun sp => sp.opcode = op) = none := List.find?_eq_none.mpr fun sp hsp => by simp [hop sp hsp]
  simp only [State.runPacket, if_neg h0, if_neg h1, hnone]

/-- The unknown command fails the check of its opcode. -/
theorem State.verdict_unknown {c : Cmd} (hv : c.pkt.version = 1) (s : State) (op : Nat) : s.verdict (unknownSpec op) c = some (5, 0) :=
  (if_neg (not_not_intro hv)).trans (if_pos rfl)

/-! ## SYS_SYNC (R236, R241) -/

/-- A SYS_SYNC as its reply names it: it never enters progress. -/
def State.syncEntry (s : State) (c : Cmd) (n : Nat) : InProgress :=
  { id := (s.chan c.ch).nextId, seq := c.pkt.seq, opcode := 1, crc := c.pkt.crc, params := [], src := c.src, at_ := s.now, inst := n,
    gen := s.genOf n, stale := false }

/-- What SYS_SYNC makes of its channel. -/
def Channel.sync (y : Channel) (c : Cmd) : Channel :=
  { y with
    state := .synced, e := c.pkt.seq + 1, kept := [], nextId := y.nextId + 1
    peer := if c.ch = 0 then some (sourceKey c.src) else y.peer
    inProg := y.inProg.map fun e => { e with stale := true } }

/-- The parameters of SYS_SYNC's reply (R241). -/
def State.syncReply (s : State) (c : Cmd) (n : Nat) : List Byte :=
  leBytes 4 (if (s.chan c.ch).state = .synced then (s.chan c.ch).e.toNat else 0) ++ leBytes 4 (s.chan c.ch).inProg.length ++
    leBytes 2 c.ch ++ leBytes 1 n ++ zeros 1 ++ leBytes 2 (s.genOf n).toNat ++ zeros 2

section
variable {s : State} {c : Cmd} (h : s.reaches 1 c = true)
include h

/-- A SYS_SYNC that passes its checks. -/
theorem State.syncCommand_passes (hc : s.wakeDeep.checked syncSpec c (s.senderOf c) = none) :
    s.syncCommand c = (s.wakeDeep.modChan c.ch fun y => y.sync c).sendResult c.ch (s.wakeDeep.syncEntry c (s.senderOf c)) 0 0
      (s.wakeDeep.syncReply c (s.senderOf c)) := by
  rw [State.syncCommand, State.packet_reaches h]
  simp only [hc]
  rfl

section
variable {e d : Nat} (hc : s.wakeDeep.checked syncSpec c (s.senderOf c) = some (e, d))
include hc

/-- A SYS_SYNC of channel 0 that fails a check and comes from a source the channel does not answer is discarded. -/
theorem State.syncCommand_unknown (h0 : c.ch = 0) (hsource : s.wakeDeep.knownSource c = false) :
    s.syncCommand c = s.wakeDeep.chanDiscard 0 := by
  rw [State.syncCommand, State.packet_reaches h]
  simp [hc, h0, hsource]

/-- Any other that fails a check and is not its channel's next number is answered and consumes none. -/
theorem State.syncCommand_refused (hsource : c.ch ≠ 0 ∨ s.wakeDeep.knownSource c = true)
    (hnext : (s.wakeDeep.chan c.ch).state ≠ .synced ∨ c.pkt.seq ≠ (s.wakeDeep.chan c.ch).e) :
    s.syncCommand c = s.wakeDeep.refuse1 c 1 e d := by
  have hanswers : ¬((c.ch = 0 && !s.wakeDeep.knownSource c) = true) := by
    rcases hsource with hch | hknown <;> simp [*]
  have hother : ¬((s.wakeDeep.chan c.ch).state = .synced ∧ c.pkt.seq = (s.wakeDeep.chan c.ch).e) := by tauto
  rw [State.syncCommand, State.packet_reaches h]
  simp only [hc, if_neg hanswers, if_neg hother]

end

end

end Sys2Proof.Machine

open Sys2Proof Sys2Proof.Machine

/-- Settles O27: a packet that reaches its channel goes on by its number, branch by branch; SYS_SYNC is told apart by its own checks; and
a command that fails a check leaves the state it entered with its reply. -/
theorem commandSequence : Obligations.CommandSequence := by
  unfold Obligations.CommandSequence
  refine ⟨fun s sp c v x d hreach hv hx hd => ?_, fun s sp c e d hm hc => State.command_refused hm hc,
    fun s op c h0 h1 hop hm hver => ?unknown⟩
  case unknown =>
    exact ⟨_, _, _, congrArg Host.Outcome.next ((State.runPacket_unknown h0 h1 hop s c).trans
      (State.command_refused hm (State.verdict_unknown hver s op))), rfl⟩
  subst hv hx hd
  have hrun : s.command sp c = s.wakeDeep.sequence sp c (s.senderOf c) := State.packet_reaches hreach _
  rw [hrun]
  refine ⟨fun hver h => State.sequence_version hver h,
    fun hver => ⟨fun h => State.sequence_unsynced hver h, fun h hd hfull => State.sequence_full hver h hd hfull,
      fun h hlo hhi => State.sequence_ahead hver h hlo hhi, fun k h hlast hno hk => State.sequence_kept hver h hlast hno hk,
      fun e h hlast he => State.sequence_inProg hver h hlast he, fun h hlo hhi => State.sequence_old hver h hlo hhi⟩,
    fun e n hop hc => ?syncFails, fun hop hc => ?syncPasses⟩
  all_goals rw [hop] at hreach
  case syncFails =>
    exact ⟨fun h0 hsource => ⟨_, congrArg Host.Outcome.next (State.syncCommand_unknown hreach hc h0 hsource), rfl⟩,
      fun hsource hnext => ⟨_, congrArg Host.Outcome.next (State.syncCommand_refused hreach hc hsource hnext), rfl⟩⟩
  case syncPasses =>
    have hchan := State.chan_modChan s.wakeDeep c.ch fun y => y.sync c
    refine ⟨_, congrArg Host.Outcome.next (State.syncCommand_passes hreach hc), s.wakeDeep.modChan c.ch fun y => y.sync c,
      s.wakeDeep.syncEntry c (s.senderOf c), rfl, rfl, rfl, rfl, ?_, ?_, ?_, fun h0 => ?peer, ?_,
      fun k hk => State.chan_modChan_ne _ _ hk, fun _ => rfl, rfl⟩
    case peer =>
      rw [← h0, hchan]
      exact if_pos h0
    all_goals rw [hchan]; rfl

end

section
/-! PROOF. The system commands (R239 to R247): what each answers once it is taken. -/

namespace Sys2Proof.Machine

section
variable {v : State} {ps : List Byte} (w : Waiter) (i : Nat)

/-! ## SYS_IDENTIFY (R242) -/

/-- The parameters of SYS_IDENTIFY's reply with an UPTIME. -/
def State.identity (s : State) (up : Nat) : List Byte :=
  padTo 16 orderName ++ ascii "B0" ++ zeros 2 ++ leBytes 4 s.boot.version.toNat ++ leBytes 4 s.boot.cnt0 ++ leBytes 4 s.boot.epoch ++
    leBytes 2 s.fabric.id ++ leBytes 2 railCeiling ++ zeros 4 ++ padTo 32 deviceKey ++ leBytes 8 up

/-- After boot UPTIME counts from its end. -/
theorem sysIdentifyRun_running (h : v.boot.phase = .running) :
    sysIdentifyRun v w i ps = gives v (v.identity (v.now - v.boot.endOfBoot)) := by
  simp only [sysIdentifyRun, if_pos h]
  rfl

/-- Before the end of boot UPTIME is a free value, which is used up. -/
theorem sysIdentifyRun_booting (h : v.boot.phase ≠ .running) :
    sysIdentifyRun v w i ps = gives v.takeFree.2 (v.identity v.takeFree.1) := by
  simp only [sysIdentifyRun, if_neg h]
  rfl

/-! ## SYS_ABORT (R240, R243) -/

/-- A table command that waits for descriptors stands at its abort point: it leaves the list and ends with status 0x000C. -/
theorem State.stopTarget_waiting {t : Waiter} {x : TableWait}
    (h : (v.gather.waits.find? fun x => x.waiter.ch = t.ch && x.waiter.id = t.id) = some x) :
    v.stopTarget t = some ({ v with gather := { v.gather with waits := v.gather.waits.erase x } }.finish t 0x0C 0 []) := by
  simp only [State.stopTarget, h]

section
variable {seq : BitVec 32} (hseq : seq = BitVec.ofNat 32 (fieldAt ps 0 4))
include hseq

/-- No other command in progress has the number: the target is the SYS_ABORT itself, retained, or unknown. -/
theorem sysAbortRun_absent (h : ∀ e ∈ (v.chan w.ch).inProg, e.seq = seq → e.id = w.id) :
    sysAbortRun v w i ps =
      gives v (abortReply (if seq = w.seq then 2 else if (v.chan w.ch).kept.any (fun k => k.seq = seq) then 1 else 3)) := by
  subst hseq
  have hnone (p : InProgress → Bool) : ((v.chan w.ch).inProg.find? fun e =>
      decide (e.seq = BitVec.ofNat 32 (fieldAt ps 0 4)) && decide (e.id ≠ w.id) && p e) = none :=
    List.find?_eq_none.mpr fun e he => by
      by_cases hs : e.seq = BitVec.ofNat 32 (fieldAt ps 0 4)
      · simp [h e he hs]
      · simp [hs]
  have hno := hnone fun _ => true
  simp only [Bool.and_true] at hno
  simp only [sysAbortRun, hnone fun e => !e.stale, hno, Option.orElse]
  split
  · rfl
  · split <;> rfl

section
variable {e : InProgress}
  (he : ((v.chan w.ch).inProg.find? fun e => e.seq = seq && decide (e.id ≠ w.id) && !e.stale) = some e)
include he

/-- A target that stands at its abort point is stopped. -/
theorem sysAbortRun_stops {u : State} (h : v.stopTarget { ch := w.ch, id := e.id, seq } = some u) :
    sysAbortRun v w i ps = gives u (abortReply 0) := by
  subst hseq
  simp only [sysAbortRun, he, Option.orElse, h]

/-- Any other target runs on, and the SYS_ABORT waits for its end. -/
theorem sysAbortRun_waits (h : v.stopTarget { ch := w.ch, id := e.id, seq } = none) :
    sysAbortRun v w i ps = .wait (v.modChan w.ch fun c => { c with aborts := c.aborts ++ [(e.id, w.id)] }) := by
  subst hseq
  simp only [sysAbortRun, he, Option.orElse, h]

end

end

/-! ## SYS_REG_READ, SYS_REG_WRITE (R244) -/

/-- The state after the first `k` reads of a SYS_REG_READ. -/
def State.regReads (s : State) (ps : List Byte) : Nat → State
  | 0 => s
  | k + 1 => ((s.regReads ps k).regRead (fieldAt ps (8 + 8 * k) 5)).2

/-- The state after the first `k` writes of a SYS_REG_WRITE. -/
def State.regWrites (s : State) (ps : List Byte) : Nat → State
  | 0 => s
  | k + 1 => (s.regWrites ps k).regWrite (fieldAt ps (8 + 16 * k) 5) (BitVec.ofNat 64 (fieldAt ps (16 + 16 * k) 8))

/-- The entries are read in order, each in the state that those before it leave. -/
theorem sysRegReadRun_eq : sysRegReadRun v w i ps = gives (v.regReads ps (fieldAt ps 0 2))
    ((List.range (fieldAt ps 0 2)).flatMap fun k => leBytes 8 ((v.regReads ps k).regRead (fieldAt ps (8 + 8 * k) 5)).1.toNat) := by
  have hfold (n : Nat) : (List.range n).foldl (fun (acc : State × List Byte) k =>
      ((acc.1.regRead (fieldAt ps (8 + 8 * k) 5)).2, acc.2 ++ leBytes 8 (acc.1.regRead (fieldAt ps (8 + 8 * k) 5)).1.toNat)) (v, []) =
      (v.regReads ps n, (List.range n).flatMap fun k => leBytes 8 ((v.regReads ps k).regRead (fieldAt ps (8 + 8 * k) 5)).1.toNat) := by
    induction n with
    | zero => rfl
    | succ n ih => simp [List.range_succ, ih, State.regReads]
  exact congrArg (fun r : State × List Byte => gives r.1 r.2) (hfold _)

/-- The entries are written in order. -/
theorem sysRegWriteRun_eq : sysRegWriteRun v w i ps = okay (v.regWrites ps (fieldAt ps 0 2)) := by
  have hfold (n : Nat) : (List.range n).foldl (fun s k =>
      s.regWrite (fieldAt ps (8 + 16 * k) 5) (BitVec.ofNat 64 (fieldAt ps (16 + 16 * k) 8))) v = v.regWrites ps n := by
    induction n with
    | zero => rfl
    | succ n ih => simp [List.range_succ, ih, State.regWrites]
  exact congrArg okay (hfold _)

/-! ## SYS_CHAN_SET (R245) -/

/-- A change that leaves the manager a channel, takes no other channel's source and names a virtual function that is enabled is made
behind the reply. -/
theorem sysChanSetRun_ok {ch : Nat} {on : Bool} (hch : ch = fieldAt ps 0 2) (hon : on = bitAt (fieldAt ps 3 1) 0)
    (hmanaged : (v.setChan ch (fieldAt ps 2 1) on (fieldAt ps 4 2) (fieldAt ps 6 2)).managed = true)
    (hfree : 130 ≤ ch → ∀ k < 64, 130 + k ≠ ch → (v.chan (130 + k)).bound = none ∨ (v.chan (130 + k)).source ≠ fieldAt ps 4 2)
    (hfn : 3 ≤ ch → ch ≤ 65 → v.pcie.vfEnable = true ∧ ch - 2 ≤ v.pcie.numVfs) :
    sysChanSetRun v w i ps = .wait ((v.finish w 0 0 []).setChan ch (fieldAt ps 2 1) on (fieldAt ps 4 2) (fieldAt ps 6 2)) := by
  subst hch hon
  have hkept : ¬((!(v.setChan (fieldAt ps 0 2) (fieldAt ps 2 1) (bitAt (fieldAt ps 3 1) 0) (fieldAt ps 4 2)
      (fieldAt ps 6 2)).managed) = true) := by
    simp [hmanaged]
  have huntaken : ¬(130 ≤ fieldAt ps 0 2 ∧ ((List.range 64).any fun k => decide (130 + k ≠ fieldAt ps 0 2) &&
      (v.chan (130 + k)).bound.isSome && decide ((v.chan (130 + k)).source = fieldAt ps 4 2)) = true) := by
    rintro ⟨hge, htaken⟩
    simp only [List.any_eq_true, List.mem_range, Bool.and_eq_true, decide_eq_true_eq] at htaken
    obtain ⟨k, hk, ⟨hne, hbound⟩, hsource⟩ := htaken
    rcases hfree hge k hk hne with hnone | hother
    · rw [hnone] at hbound
      exact absurd hbound nofun
    · exact hother hsource
  have henabled : ¬(3 ≤ fieldAt ps 0 2 ∧ fieldAt ps 0 2 ≤ 65 ∧
      (!(v.pcie.vfEnable && decide (fieldAt ps 0 2 - 2 ≤ v.pcie.numVfs))) = true) := by
    rintro ⟨hlo, hhi, hoff⟩
    obtain ⟨hvf, hnum⟩ := hfn hlo hhi
    simp [hvf, hnum] at hoff
  exact (if_neg hkept).trans ((if_neg huntaken).trans (if_neg henabled))

/-! ## SYS_RING_SET (R247) -/

/-- A channel without rings is disabled behind the reply. -/
theorem sysRingSetRun_none (h : fieldAt ps 24 4 = 0) :
    sysRingSetRun v w i ps = .wait ((v.finish w 0 0 []).disableChan (66 + fieldAt ps 0 1)) := if_pos h

/-- What SYS_RING_SET makes of its channel. -/
def Channel.withRings (c : Channel) (w : Waiter) (ps : List Byte) : Channel :=
  { c with
    bound := some (fieldAt ps 0 1), state := .unsynced, e := 0, rseq := 0, kept := [], aborts := [], held := [], repCons := 0
    inProg := c.inProg.filter fun e => decide (w.ch = 66 + fieldAt ps 0 1) && e.id = w.id
    cmdRing := fieldAt ps 8 8, repRing := fieldAt ps 16 8, ringLen := fieldAt ps 24 4, pollUs := fieldAt ps 28 2, cons := 0, prod := 0 }

/-- Two rings that do not meet and that the instance's memory holds are zeroed and taken into use. -/
theorem sysRingSetRun_ok {s1 s2 : State} (hlen : fieldAt ps 24 4 ≠ 0)
    (hapart : fieldAt ps 8 8 + 64 + fieldAt ps 24 4 ≤ fieldAt ps 16 8 ∨ fieldAt ps 16 8 + 64 + fieldAt ps 24 4 ≤ fieldAt ps 8 8)
    (hcmd : v.mapsRw (fieldAt ps 0 1) (fieldAt ps 8 8) (64 + fieldAt ps 24 4) = true)
    (hrep : v.mapsRw (fieldAt ps 0 1) (fieldAt ps 16 8) (64 + fieldAt ps 24 4) = true)
    (h1 : v.ringReset clsHost (fieldAt ps 0 1) (fieldAt ps 8 8) = (s1, true))
    (h2 : s1.ringReset clsHost (fieldAt ps 0 1) (fieldAt ps 16 8) = (s2, true)) :
    sysRingSetRun v w i ps = .wait (((s2.modChan (66 + fieldAt ps 0 1) fun c => c.withRings w ps).finish w 0 0 []).modChan
      (66 + fieldAt ps 0 1) fun c => { c with kept := [] }) := by
  have hplaced : ¬((fieldAt ps 8 8 < fieldAt ps 16 8 + 64 + fieldAt ps 24 4 ∧ fieldAt ps 16 8 < fieldAt ps 8 8 + 64 + fieldAt ps 24 4) ∨
      (!v.mapsRw (fieldAt ps 0 1) (fieldAt ps 8 8) (64 + fieldAt ps 24 4)) = true ∨
      (!v.mapsRw (fieldAt ps 0 1) (fieldAt ps 16 8) (64 + fieldAt ps 24 4)) = true) := by
    rintro (⟨hlo, hhi⟩ | hno | hno)
    · omega
    · simp [hcmd] at hno
    · simp [hrep] at hno
  simp only [sysRingSetRun, if_neg hlen, if_neg hplaced, h1, h2]
  rfl

end

end Sys2Proof.Machine

open Sys2Proof Sys2Proof.Machine

/-- Settles O28: command by command. The premises meet the checks of the command's meaning, and its own lemma says what it answers. -/
theorem systemCommands : Obligations.SystemCommands := by
  unfold Obligations.SystemCommands
  intro s c
  dsimp only
  refine ⟨fun v h hv => ?identify, fun v h hv => ?echo, fun v seq h hv hseq => ⟨fun hno => ?absent, fun e x he hx => ?stops,
    fun e he hstop => ?waits⟩, fun v n h hv hn => ?regRead, fun v n h hv hn => ?regWrite,
    fun v ch j on src h hv hch hj hon hsrc hmanaged hfree hfn => ?chanSet, fun v x h hv hx => ?chanStatus,
    fun v j ch h hv hj hch => ⟨fun hlen => ?ringNone,
      fun a b n s1 s2 ha hb hn hlen hapart hcmd hrep h1 h2 => ?ringSet⟩⟩
  all_goals subst hv
  case identify =>
    by_cases hrun : (s.entered sysIdentifySpec c).boot.phase = .running
    · exact ⟨_, fun _ => rfl, succeeds_of rfl h (sysIdentifyRun_running (ps := c.pkt.params) (s.waiterOf c) (s.senderOf c) hrun)
        ⟨rfl, fun _ => rfl, rfl, rfl⟩⟩
    · exact ⟨_, fun hno => absurd hno hrun, succeeds_of rfl h
        (sysIdentifyRun_booting (ps := c.pkt.params) (s.waiterOf c) (s.senderOf c) hrun) ⟨rfl, fun _ => rfl, rfl, rfl⟩⟩
  case echo => exact succeeds_of rfl h rfl rfl
  case absent => exact succeeds_of rfl h (sysAbortRun_absent (s.waiterOf c) (s.senderOf c) hseq hno) rfl
  case stops =>
    exact succeeds_of rfl h (sysAbortRun_stops (s.waiterOf c) (s.senderOf c) hseq he (State.stopTarget_waiting hx)) rfl
  case waits =>
    exact runs_of_waits rfl h (sysAbortRun_waits (s.waiterOf c) (s.senderOf c) hseq he hstop)
      ⟨State.chan_modChan .., fun _ => rfl, rfl⟩
  case regRead =>
    subst hn
    exact ⟨(s.entered sysRegReadSpec c).regReads c.pkt.params, rfl, fun _ _ => rfl,
      succeeds_of rfl h (sysRegReadRun_eq (s.waiterOf c) (s.senderOf c)) rfl⟩
  case regWrite =>
    subst hn
    exact ⟨(s.entered sysRegWriteSpec c).regWrites c.pkt.params, rfl, fun _ _ => rfl,
      succeeds_of rfl h (sysRegWriteRun_eq (s.waiterOf c) (s.senderOf c)) rfl⟩
  case chanSet =>
    subst hj hsrc
    refine runs_of_waits rfl h (sysChanSetRun_ok (s.waiterOf c) (s.senderOf c) hch hon hmanaged hfree hfn)
      ⟨fun k hk => State.chan_modChan_ne _ _ hk, State.modChan_mem .., ?_⟩
    rw [State.setChan, State.chan_modChan]
    exact ⟨rfl, rfl, rfl, rfl, rfl, rfl, rfl, rfl⟩
  case chanStatus =>
    subst hx
    exact succeeds_of rfl h rfl rfl
  case ringNone =>
    subst hj hch
    exact runs_of_waits rfl h (sysRingSetRun_none (s.waiterOf c) (s.senderOf c) hlen) rfl
  case ringSet =>
    subst hj hch ha hb hn
    refine runs_of_waits rfl h (sysRingSetRun_ok (s.waiterOf c) (s.senderOf c) hlen hapart hcmd hrep h1 h2)
      ⟨_, rfl, fun k hk => State.chan_modChan_ne _ _ hk, fun _ => rfl, ?_⟩
    rw [State.chan_modChan]
    exact ⟨rfl, rfl, rfl, rfl, rfl, rfl, rfl, rfl, rfl⟩

end

section
/-! PROOF. The election of the fabric manager, and the identifiers that it gives (R256, R260). -/

namespace Sys2Proof.Machine

/-! ## The order of candidates (R256) -/

/-- What candidates are compared by: priority, key, distance, link. -/
def Candidate.rank (a : Candidate) : Nat ×ₗ Nat ×ₗ Nat ×ₗ Nat :=
  toLex (a.prio, toLex (a.key.toNat, toLex (a.dist, a.link.getD 0)))

theorem Candidate.before_iff (a b : Candidate) : a.before b = true ↔ a.rank < b.rank := by
  have hkey : a.key = b.key ↔ a.key.toNat = b.key.toNat := BitVec.toNat_inj.symm
  simp only [Candidate.before, Candidate.rank, Prod.Lex.toLex_lt_toLex, ne_eq, hkey]
  split_ifs <;> simp <;> omega

theorem Candidate.not_before_iff (a b : Candidate) : a.before b = false ↔ b.rank ≤ a.rank := by
  rw [← Bool.not_eq_true, Candidate.before_iff, not_lt]

/-- Taking the better of two, one after the other, ends with one of those compared, and none of them comes before it. -/
theorem foldl_best (p : Adjacency → Bool) (f : Adjacency → Candidate) (l : List Adjacency) (b : Candidate) {r : Candidate}
    (hr : r = l.foldl (fun b a => if p a && (f a).before b then f a else b) b) :
    (r = b ∨ ∃ a ∈ l, p a = true ∧ r = f a) ∧ r.rank ≤ b.rank ∧ ∀ a ∈ l, p a = true → r.rank ≤ (f a).rank := by
  induction l generalizing b with
  | nil => simp [hr]
  | cons a l ih =>
    obtain ⟨hone, hle, hall⟩ := ih _ hr
    beta_reduce at hone hle
    by_cases h : (p a && (f a).before b) = true
    · rw [if_pos h] at hone hle
      obtain ⟨hp, hb⟩ := Bool.and_eq_true_iff.mp h
      have hlt := (Candidate.before_iff ..).mp hb
      refine ⟨.inr ?_, hle.trans hlt.le, by simpa using ⟨fun _ => hle, hall⟩⟩
      rcases hone with hone | ⟨c, hc, hone⟩
      · exact ⟨a, List.mem_cons_self, hp, hone⟩
      · exact ⟨c, List.mem_cons_of_mem a hc, hone⟩
    · rw [if_neg h] at hone hle
      have ha (hp : p a = true) : b.rank ≤ (f a).rank := by simpa [hp, Candidate.not_before_iff] using h
      exact ⟨hone.imp_right fun ⟨c, hc, hone⟩ => ⟨c, List.mem_cons_of_mem a hc, hone⟩, hle,
        by simpa using ⟨fun hp => hle.trans (ha hp), hall⟩⟩

/-- The candidate that an adjacency reports. -/
def Adjacency.reports (a : Adjacency) : Candidate := { prio := a.cprio, key := a.ckey, dist := a.cdist + 1, link := some a.link }

theorem State.candidate_eq (s : State) :
    s.candidate = s.fabric.adjs.foldl (fun b a => if s.mayLead a && a.reports.before b then a.reports else b) s.ownCandidate := rfl

/-! ## Identifiers of a view (R260) -/

/-- A device joins a table of identifiers, with one that no device there has, or the table stays as it is. -/
def JoinsFresh (t : List (BitVec 64 × Nat)) (d : FmDevice) (u : List (BitVec 64 × Nat)) : Prop :=
  u = t ∨ ∃ n, u = t ++ [(d.key, n)] ∧ ∀ e ∈ t, e.2 ≠ n

/-- A device keeps the identifier that it holds, if no device before it does. -/
def keepId (old t : List (BitVec 64 × Nat)) (d : FmDevice) : List (BitVec 64 × Nat) :=
  match heldId old d with
  | some n => if t.any fun e => e.2 = n then t else t ++ [(d.key, n)]
  | none => t

/-- A device that holds none receives its preference, if that is free. -/
def preferId (old t : List (BitVec 64 × Nat)) (d : FmDevice) : List (BitVec 64 × Nat) :=
  if (heldId old d).isSome || decide (0x4000 ≤ d.pref) || t.any fun e => e.2 = d.pref then t else t ++ [(d.key, d.pref)]

/-- A device that still has none receives the lowest free identifier. -/
def fillId (t : List (BitVec 64 × Nat)) (d : FmDevice) : List (BitVec 64 × Nat) :=
  if t.any fun e => e.1 = d.key then t else t ++ [(d.key, freeId t)]

theorem assignIds_eq (view : List FmDevice) (old : List (BitVec 64 × Nat)) :
    assignIds view old = view.foldl fillId (view.foldl (preferId old) (view.foldl (keepId old) [])) := rfl

section
variable (old t : List (BitVec 64 × Nat)) (d : FmDevice)

theorem any_id_eq_false {t : List (BitVec 64 × Nat)} {n : Nat} : (t.any fun e => e.2 = n) = false ↔ ∀ e ∈ t, e.2 ≠ n := by
  rw [List.any_eq_false]
  exact forall₂_congr fun _ _ => by rw [decide_eq_true_iff]

theorem keepId_joinsFresh : JoinsFresh t d (keepId old t d) := by
  unfold keepId
  split
  · split
    · exact .inl rfl
    next h => exact .inr ⟨_, rfl, any_id_eq_false.mp (Bool.eq_false_iff.mpr h)⟩
  · exact .inl rfl

theorem preferId_joinsFresh : JoinsFresh t d (preferId old t d) := by
  unfold preferId
  split
  · exact .inl rfl
  next h =>
    simp only [Bool.or_eq_true, not_or] at h
    exact .inr ⟨_, rfl, any_id_eq_false.mp (Bool.eq_false_iff.mpr h.2)⟩

/-- More numbers lie below the bound than there are entries, so one of them is free. -/
theorem freeId_fresh : ∀ e ∈ t, e.2 ≠ freeId t := by
  have hfree : ∃ n ∈ List.range (t.length + 1), n ∉ t.map (·.2) := by
    by_contra hall
    push Not at hall
    have hlen := (List.nodup_range.subperm hall).length_le
    simp at hlen
  obtain ⟨n, hn, hnot⟩ := hfree
  have hp : (t.any fun e => decide (e.2 = n)) = false := any_id_eq_false.mpr fun e he h => hnot (h ▸ List.mem_map_of_mem he)
  obtain ⟨m, hm⟩ := Option.isSome_iff_exists.mp
    (List.find?_isSome (p := fun n => !t.any fun e => decide (e.2 = n)) |>.mpr ⟨n, hn, by rw [hp]; rfl⟩)
  have hfresh := List.find?_some hm
  simp only [freeId, hm, Option.getD_some]
  exact any_id_eq_false.mp (by simpa only [Bool.not_eq_true'] using hfresh)

theorem fillId_joinsFresh : JoinsFresh t d (fillId t d) := by
  unfold fillId
  split
  · exact .inl rfl
  · exact .inr ⟨_, rfl, freeId_fresh t⟩

theorem fillId_has : ∃ n, (d.key, n) ∈ fillId t d := by
  unfold fillId
  split
  next h =>
    obtain ⟨⟨k, n⟩, hmem, hk⟩ := List.any_eq_true.mp h
    obtain rfl : k = d.key := by simpa using hk
    exact ⟨n, hmem⟩
  · exact ⟨_, List.mem_append_right _ List.mem_cons_self⟩

end

section
variable {g : List (BitVec 64 × Nat) → FmDevice → List (BitVec 64 × Nat)} (hg : ∀ t d, JoinsFresh t d (g t d))
include hg

/-- No device leaves the table while others join. -/
theorem subset_of_joinsFresh (l : List FmDevice) (t : List (BitVec 64 × Nat)) : t ⊆ l.foldl g t := by
  induction l generalizing t with
  | nil => exact List.Subset.refl t
  | cons d l ih =>
    refine List.Subset.trans ?_ (ih (g t d))
    rcases hg t d with h | ⟨n, h, -⟩
    · rw [h]; exact List.Subset.refl t
    · rw [h]; exact List.subset_append_left ..

theorem nodup_of_joinsFresh (l : List FmDevice) {t : List (BitVec 64 × Nat)} (ht : (t.map (·.2)).Nodup) :
    ((l.foldl g t).map (·.2)).Nodup := by
  induction l generalizing t with
  | nil => exact ht
  | cons d l ih =>
    refine ih ?_
    rcases hg t d with h | ⟨n, h, hn⟩
    · rwa [h]
    · rw [h, List.map_append, List.map_singleton, List.nodup_append_comm, List.singleton_append, List.nodup_cons]
      exact ⟨by simpa using fun k hk => hn _ hk rfl, ht⟩

end

/-- What is kept is held by a device of the view. -/
theorem held_of_mem_keepId (old : List (BitVec 64 × Nat)) (l : List FmDevice) {e : BitVec 64 × Nat}
    (he : e ∈ l.foldl (keepId old) []) : ∃ d ∈ l, heldId old d = some e.2 := by
  refine List.foldlRecOn (motive := fun t => ∀ e ∈ t, ∃ d ∈ l, heldId old d = some e.2) l (keepId old) (by simp)
    (fun t ih d hd e he => ?_) e he
  unfold keepId at he
  split at he
  next n hn =>
    split at he
    · exact ih e he
    · rcases List.mem_append.mp he with he | he
      · exact ih e he
      · obtain rfl := List.mem_singleton.mp he
        exact ⟨d, hd, hn⟩
  · exact ih e he

theorem keepId_of_held {old t : List (BitVec 64 × Nat)} {d : FmDevice} {n : Nat} (hd : heldId old d = some n) (hn : ∀ e ∈ t, e.2 ≠ n) :
    (d.key, n) ∈ keepId old t d := by
  simp [keepId, hd, any_id_eq_false.mpr hn]

end Sys2Proof.Machine

open Sys2Proof Sys2Proof.Machine

/-- Settles O31: candidates are compared by a linear order, of which the fold takes the least; and each pass of the identifiers only adds
entries whose identifier is free. -/
theorem fabricElection : Obligations.FabricElection := by
  unfold Obligations.FabricElection
  refine ⟨fun s => ?candidate, fun view old => ⟨?nodup, fun d hd => ?all, fun l d m n hview hheld hfirst => ?kept⟩⟩
  case candidate =>
    obtain ⟨hone, hown, hall⟩ := foldl_best s.mayLead Adjacency.reports s.fabric.adjs s.ownCandidate s.candidate_eq
    exact ⟨hone, (Candidate.not_before_iff ..).mpr hown, fun a ha hp => (Candidate.not_before_iff ..).mpr (hall a ha hp)⟩
  all_goals rw [assignIds_eq]
  case nodup =>
    exact nodup_of_joinsFresh fillId_joinsFresh view
      (nodup_of_joinsFresh (preferId_joinsFresh old) view (nodup_of_joinsFresh (keepId_joinsFresh old) view List.nodup_nil))
  case all =>
    obtain ⟨l, m, rfl⟩ := List.append_of_mem hd
    rw [List.foldl_append (f := fillId), List.foldl_cons (f := fillId)]
    obtain ⟨n, hn⟩ := fillId_has (l.foldl fillId ((l ++ d :: m).foldl (preferId old) ((l ++ d :: m).foldl (keepId old) []))) d
    exact ⟨n, subset_of_joinsFresh fillId_joinsFresh m _ hn⟩
  case kept =>
    have hfree (e : BitVec 64 × Nat) (he : e ∈ l.foldl (keepId old) []) : e.2 ≠ n := by
      obtain ⟨c, hc, hcn⟩ := held_of_mem_keepId old l he
      rintro rfl
      exact hfirst c hc hcn
    refine subset_of_joinsFresh fillId_joinsFresh view _ (subset_of_joinsFresh (preferId_joinsFresh old) view _ ?_)
    rw [hview, List.foldl_append, List.foldl_cons]
    exact subset_of_joinsFresh (keepId_joinsFresh old) m _ (keepId_of_held hheld hfree)

end

section
/-! PROOF. Device memory, the host link, the rails and the facets leave the fabric as it is (R32, R154, R223, R428). -/

namespace Sys2Proof.Machine

/-! ## Reading the fabric off a state that an operation built -/

@[simp] theorem State.fabric_ite {c : Prop} {_ : Decidable c} (s t : State) :
    (if c then s else t).fabric = if c then s.fabric else t.fabric := apply_ite ..

/-- Folding a function that leaves the fabric as it is leaves it. -/
@[simp] theorem foldl_fabric {α : Type} {g : State → α → State} (hg : ∀ s x, (g s x).fabric = s.fabric) (l : List α)
    (s : State) : (l.foldl g s).fabric = s.fabric := by
  induction l generalizing s with
  | nil => rfl
  | cons x t ih => rw [List.foldl_cons, ih, hg]

/-- One update of many facets leaves it. -/
@[simp] theorem foldl_modFacet_fabric {α : Type} (f : State → α → Nat) (g : State → α → Facet → Facet) (l : List α) (s : State) :
    (l.foldl (fun s x => s.modFacet (f s x) (g s x)) s).fabric = s.fabric := foldl_fabric (fun _ _ => State.modFacet_fabric ..) l s

/-- Folding over a state and a result at its side. -/
theorem foldl_fst_fabric {α β : Type} {g : State × β → α → State × β} (hg : ∀ r x, (g r x).1.fabric = r.1.fabric)
    (l : List α) (r : State × β) : (l.foldl g r).1.fabric = r.1.fabric := by
  induction l generalizing r with
  | nil => rfl
  | cons x t ih => rw [List.foldl_cons, ih, hg]

/-- A state that an equation names as part of an answer. -/
theorem fabric_fst {α : Type} {p : State × α} {t : State} {x : α} (e : p = (t, x)) : t.fabric = p.1.fabric := by rw [e]

/-- A property of the state that a ring's answer names, where it names one. -/
def RingPut.Leads (P : State → Prop) : RingPut → Prop
  | .ok s _ => P s
  | .full => True
  | .bad s => P s

section
variable {r : RingPut} {t : State} {P : State → Prop} (h : r.Leads P)
include h

theorem RingPut.Leads.ok {prod : Nat} (e : r = .ok t prod) : P t := by subst e; exact h

theorem RingPut.Leads.bad (e : r = .bad t) : P t := by subst e; exact h

end

/-! ## Device memory, the scratchpads and the rings in them -/

@[simp] theorem State.takeFree_fabric (s : State) : s.takeFree.2.fabric = s.fabric := (rfl)

@[simp] theorem State.bankAccess_fabric (s : State) (f m : Nat) (write : Bool) (off n : Nat) :
    (s.bankAccess f m write off n).fabric = s.fabric := (rfl)

@[simp] theorem State.markWritten_fabric (s : State) (a n : Nat) : (s.markWritten a n).fabric = s.fabric := by
  simp [State.markWritten]

@[simp] theorem State.dropRows_fabric (s : State) (a n : Nat) : (s.dropRows a n).fabric = s.fabric := (rfl)

@[simp] theorem State.storeRaw_fabric (s : State) (a : Nat) (bs : List Byte) : (s.storeRaw a bs).1.fabric = s.fabric := by
  simp only [State.storeRaw]
  repeat' split
  all_goals simp

@[simp] theorem State.issueWrite_fabric (s : State) (k : Nat) :
    (s.issueWrite k).fabric = s.fabric := by
  unfold State.issueWrite
  split
  · rfl
  · simp only
    split <;> simp

@[simp] theorem State.drainStack_fabric (s : State) (k n : Nat) : (s.drainStack k n).fabric = s.fabric := by
  induction n generalizing s with
  | zero => rfl
  | succ n ih => simp [State.drainStack, ih]

@[simp] theorem State.drainHbm_fabric (s : State) :
    (s.drainHbm).fabric = s.fabric := by
  simp [State.drainHbm]

@[simp] theorem State.ueLog_fabric (s : State) (cls a : Nat) : (s.ueLog cls a).fabric = s.fabric := by
  simp [State.ueLog]

@[simp] theorem State.ueLogRange_fabric (s : State) (cls a n : Nat) : (s.ueLogRange cls a n).fabric = s.fabric := by
  simp [State.ueLogRange]

@[simp] theorem State.copyRaw_fabric (s : State) (src dst n : Nat) :
    (s.copyRaw src dst n).fabric = s.fabric := by
  simp [State.copyRaw]

theorem State.saveGranule_fabric {s t : State} {p g : Nat} (e : s.saveGranule p g = some t) : t.fabric = s.fabric := by
  simp only [State.saveGranule] at e
  split at e
  · split at e
    · obtain rfl := Option.some.inj e
      simp
    · cases e
  · cases e

theorem State.saveFor_fabric {s t : State} {a n : Nat} (e : s.saveFor a n = some t) : t.fabric = s.fabric := by
  induction n generalizing s with
  | zero => cases e; rfl
  | succ n ih =>
    simp only [State.saveFor] at e
    split at e
    · cases e; rfl
    · split at e
      next es => exact (ih e).trans (State.saveGranule_fabric es)
      next => cases e

@[simp] theorem State.holdWrite_fabric (s : State) (p g : Nat) (w : HbmWrite) (flit : Option Flit) :
    (s.holdWrite p g w flit).fabric = s.fabric := (rfl)

@[simp] theorem State.storePart_fabric (s : State) (a : Nat) (bs : List Byte) : (s.storePart a bs).1.fabric = s.fabric := by
  simp only [State.storePart]
  split
  · simp
  · split
    next es => simp [State.saveFor_fabric es]
    next => simp
    next => simp

@[simp] theorem State.store_fabric (s : State) (a : Nat) (bs : List Byte) : (s.store a bs).1.fabric = s.fabric := by
  simp only [State.store]
  split
  · split
    · refine (foldl_fst_fabric (fun r e => ?_) ..).trans (State.drainHbm_fabric s)
      exact State.storePart_fabric ..
    · simp
  · simp

@[simp] theorem State.logFail_fabric (s : State) (fn : Nat) : (s.logFail fn).fabric = s.fabric := (rfl)

@[simp] theorem State.logPage_fabric (s : State) (fn bus : Nat) :
    (s.logPage fn bus).fabric = s.fabric := by
  simp only [State.logPage]
  repeat' split
  all_goals simp

@[simp] theorem State.masterWrite_fabric (s : State) (fn bus : Nat) (bs : List Byte) : (s.masterWrite fn bus bs).fabric = s.fabric :=
  foldl_fabric (fun _ _ => by simp) ..

@[simp] theorem State.masterParts_fabric (s : State) (l : List (Nat × Nat × Nat)) (bs : List Byte) :
    (s.masterParts l bs).fabric = s.fabric := by
  induction l generalizing s bs with
  | nil => rfl
  | cons _ t ih => exact (ih ..).trans (State.masterWrite_fabric ..)

@[simp] theorem State.discardBytes_fabric (s : State) (f n : Nat) : (s.discardBytes f n).fabric = s.fabric := (rfl)

theorem State.saveAt_fabric {s t : State} {who : Option (Nat × BitVec 16)} {a : Nat} {bs : List Byte}
    (e : s.saveAt who a bs = .ok t) : t.fabric = s.fabric := by
  have stored {s' t : State} (e : (if (s'.store a bs).2 then Except.ok (s'.store a bs).1 else Except.error AccErr.uncorr) = .ok t) :
      t.fabric = s'.fabric := by
    split at e
    · cases e
      simp
    · cases e
  simp only [State.saveAt] at e
  split at e
  · cases e
  · split at e
    · cases e
      simp
    · cases e
  · split at e
    · cases e
      simp
    · split at e
      · cases e
      · simpa using stored e
  · split at e
    · cases e
    · exact stored e
  · split at e
    · cases e
    · exact stored e

theorem State.saveAll_fabric {s t : State} {who : Option (Nat × BitVec 16)} {l : List (Nat × Nat)} {bs : List Byte}
    (e : s.saveAll who l bs = .ok t) : t.fabric = s.fabric := by
  induction l generalizing s bs with
  | nil => cases e; rfl
  | cons _ l ih =>
    simp only [State.saveAll] at e
    split at e
    · cases e
    next es => exact (ih e).trans (State.saveAt_fabric es)

@[simp] theorem State.spadTouch_fabric (s : State) (m : Nat) (rs : List (Nat × Nat)) : (s.spadTouch m rs).fabric = s.fabric := by
  unfold State.spadTouch
  exact foldl_fabric (fun s x => by split <;> simp) _ _

@[simp] theorem State.discardReads_fabric (s : State) (who : Option (Nat × BitVec 16)) (rs : List (Nat × Nat)) :
    (s.discardReads who rs).fabric = s.fabric := by
  unfold State.discardReads
  exact foldl_fabric (fun s x => by split <;> simp) _ _

theorem State.writeInst_fabric {s t : State} {i a : Nat} {bs : List Byte} (e : s.writeInst i a bs = .ok t) : t.fabric = s.fabric := by
  simp only [State.writeInst] at e
  split at e
  · cases e
  · split at e
    · cases e
    next es =>
      cases e
      simpa using State.saveAll_fabric es

@[simp] theorem State.disarm_fabric (s : State) (l : List Nat) : (s.disarm l).fabric = s.fabric := (rfl)

@[simp] theorem State.metSpad_fabric (s : State) (f off n : Nat) : (s.metSpad f off n).fabric = s.fabric := by
  unfold State.metSpad
  split <;> simp

@[simp] theorem State.met_fabric (s : State) (a n : Nat) : (s.met a n).fabric = s.fabric := by
  unfold State.met
  split
  · simp
  · exact (foldl_fabric (fun _ _ => State.modMemDie_fabric ..) _ _).trans (State.disarm_fabric ..)

@[simp] theorem State.chargeRead_fabric (s : State) (i a n : Nat) : (s.chargeRead i a n).fabric = s.fabric := by
  unfold State.chargeRead
  split <;> simp

@[simp] theorem State.countBad_fabric (s : State) (f off n : Nat) : (s.countBad f off n).fabric = s.fabric :=
  foldl_fabric (fun _ _ => State.modFacet_fabric ..) _ _

@[simp] theorem State.metBad_fabric (s : State) (cls a n : Nat) : (s.metBad cls a n).fabric = s.fabric := by
  unfold State.metBad
  split <;> simp

@[simp] theorem State.readBy_fabric (s : State) (cls i a n : Nat) : (s.readBy cls i a n).1.fabric = s.fabric := by
  unfold State.readBy
  repeat' split
  all_goals simp

@[simp] theorem State.storeMet_fabric (s : State) (cls a : Nat) (bs : List Byte) : (s.storeMet cls a bs).fabric = s.fabric := by
  unfold State.storeMet
  split
  · simp
  · split <;> simp
  · simp

@[simp] theorem State.saveSome_fabric (s : State) (who : Option (Nat × BitVec 16)) (cls : Nat) (l : List (Nat × Nat)) (bs : List Byte) :
    (s.saveSome who cls l bs).fabric = s.fabric := by
  induction l generalizing s bs with
  | nil => rfl
  | cons _ t ih =>
    refine (ih ..).trans ?_
    split
    next es => exact State.saveAt_fabric es
    next => exact State.storeMet_fabric ..
    next => rfl

@[simp] theorem State.writeBy_fabric (s : State) (cls i a : Nat) (bs : List Byte) : (s.writeBy cls i a bs).1.fabric = s.fabric := by
  unfold State.writeBy
  split
  next es => exact State.writeInst_fabric es
  next => split <;> simp
  next => rfl

theorem State.ringPut_fabric (s : State) (cls i ring len prod m : Nat) (rec pad : List Byte) :
    (s.ringPut cls i ring len prod m rec pad).Leads (·.fabric = s.fabric) := by
  have fst {s s1 : State} {x : Except AccErr Unit} (a : Nat) (bs : List Byte) (e : s.writeBy cls i a bs = (s1, x)) :
      s1.fabric = s.fabric := by simp [fabric_fst e]
  simp only [State.ringPut]
  split
  next e => simp [RingPut.Leads, fabric_fst e]
  next s1 _ e =>
    have h1 : s1.fabric = s.fabric := by simp [fabric_fst e]
    split
    · exact h1
    · generalize (if decide (len < prod + (padMul m rec).length) = true then len - prod + (padMul m rec).length
        else (padMul m rec).length) = need
      generalize (if decide (len < prod + (padMul m rec).length) = true then 0 else prod) = at_
      have hp : (if decide (len < prod + (padMul m rec).length) = true then
          s1.writeBy cls i (ring + 64 + prod) (pad.take (len - prod)) else (s1, .ok ())).1.fabric = s.fabric := by
        split <;> simp [h1]
      generalize (if decide (len < prod + (padMul m rec).length) = true then
        s1.writeBy cls i (ring + 64 + prod) (pad.take (len - prod)) else (s1, .ok ())) = p at hp ⊢
      split
      · trivial
      · split
        next => exact hp
        next =>
          split
          next e => exact (fst _ _ e).trans hp
          next e =>
            have h2 := (fst _ _ e).trans hp
            split
            next e => exact (fst _ _ e).trans h2
            next e => exact (fst _ _ e).trans h2

@[simp] theorem State.masterRefused_fabric (s : State) (fn reason : Nat) : (s.masterRefused fn reason).fabric = s.fabric := (rfl)

@[simp] theorem State.busWrite_fabric (s : State) (fn bus : Nat) (bs : List Byte) :
    (s.busWrite fn bus bs).1.fabric = s.fabric := by
  unfold State.busWrite
  split <;> simp

@[simp] theorem State.putVector_fabric (s : State) (fn v : Nat) (y : MsixVec) : (s.putVector fn v y).fabric = s.fabric := (rfl)

@[simp] theorem State.msix_fabric (s : State) (fn v : Nat) : (s.msix fn v).fabric = s.fabric := by
  simp [State.msix]

@[simp] theorem State.pmeEvent_fabric (s : State) (fn : Nat) : (s.pmeEvent fn).fabric = s.fabric := by
  simp only [State.pmeEvent]
  repeat' split
  · rfl
  · simp
  · exact (State.emit_fabric ..).trans (State.modFn_fabric s fn fun x => { x with pmeStat := true })
  · simp

theorem State.mailboxPut_fabric {s t : State} {ch fn : Nat} {bytes : List Byte} (e : s.mailboxPut ch fn bytes = some t) :
    t.fabric = s.fabric := by
  simp only [State.mailboxPut] at e
  split at e
  all_goals
    split at e
    · cases e
    · obtain rfl := Option.some.inj e
      simp

@[simp] theorem State.ip4Send_fabric (s : State) (mac own dst : List Byte) (proto : Nat) (body : List Byte) :
    (s.ip4Send mac own dst proto body).fabric = s.fabric := (rfl)

@[simp] theorem State.ip6Send_fabric (s : State) (mac own dst : List Byte) (proto hop : Nat) (body : List Byte) :
    (s.ip6Send mac own dst proto hop body).fabric = s.fabric := (rfl)

@[simp] theorem State.mgmtReply_fabric (s : State) (dst : Nat) (bytes : List Byte) : (s.mgmtReply dst bytes).fabric = s.fabric := by
  simp [State.mgmtReply]

@[simp] theorem State.mctpReply_fabric (s : State) (dst : Nat) (bytes : List Byte) :
    (s.mctpReply dst bytes).fabric = s.fabric := (rfl)

@[simp] theorem State.chanError_fabric (s : State) (ch : Nat) : (s.chanError ch).fabric = s.fabric := (rfl)

@[simp] theorem State.numbered_fabric (s : State) (ch dst : Nat) (bytes : List Byte) :
    (s.numbered ch dst bytes).fabric = s.fabric := (rfl)

@[simp] theorem State.nackFacet_fabric (s : State) (link f tag inst : Nat) (gen : BitVec 16) (status : Nat) :
    (s.nackFacet link f tag inst gen status).fabric = s.fabric := (rfl)

@[simp] theorem State.tmsDrop_fabric (s : State) (die n by_ : Nat) : (s.tmsDrop die n by_).fabric = s.fabric := (rfl)

theorem State.egress_fabric {s t : State} {link cls : Nat} {inst : Option Nat} {ctl waits : Bool} {body : TxBody} {len : Nat}
    {mark : Option (Nat × BitVec 24)} (e : s.egress link cls inst ctl waits body len mark = .done t) : t.fabric = s.fabric := by
  have full {s' : State} (e : (if waits then Egress.wait else .done (s'.tmsDrop (dieOfLink link) 1)) = .done t)
      (hs : s'.fabric = s.fabric) : t.fabric = s.fabric := by
    split at e
    · cases e
    · cases e
      simpa using hs
  simp only [State.egress] at e
  split at e
  · split at e
    · cases e; rfl
    · exact full e rfl
  · split at e
    · split at e
      · cases e
        simp
      · split at e
        · cases e; rfl
        · exact full e rfl
    · split at e
      · cases e; rfl
      · exact full e rfl

theorem State.putZ_fabric {s t : State} {z : ZFrame} {waits : Bool} (e : s.putZ z waits = .done t) : t.fabric = s.fabric := by
  unfold State.putZ at e
  split at e
  · exact State.egress_fabric e
  · cases e; rfl

@[simp] theorem State.noRoute_fabric (s : State) (z : ZFrame) : (s.noRoute z).fabric = s.fabric := by
  simp [State.noRoute]

@[simp] theorem State.mgRefuse_fabric (s : State) (k : Nat) (fl : Flit) (status : Nat) :
    (s.mgRefuse k fl status).fabric = s.fabric := (rfl)

@[simp] theorem State.mgNack_fabric (s : State) (k : Nat) (fl : Flit) (status : Nat) : (s.mgNack k fl status).fabric = s.fabric := by
  simp [State.mgNack]

@[simp] theorem State.mgLast_fabric (s : State) (k : Nat) (fl : Flit) : (s.mgLast k fl).fabric = s.fabric := by
  unfold State.mgLast
  repeat' split
  all_goals simp

@[simp] theorem State.writeOver_fabric (s : State) (l : List (Nat × Nat)) (bs : List Byte) : (s.writeOver l bs).fabric = s.fabric := by
  induction l generalizing s bs with
  | nil => rfl
  | cons _ t ih => exact (ih ..).trans (State.storeRaw_fabric ..)

@[simp] theorem State.saveFacet_fabric (s : State) (segs : List (Nat × Nat)) (f k : Nat) :
    (s.saveFacet segs f k).fabric = s.fabric := by
  simp [State.saveFacet]

@[simp] theorem State.performHeld_fabric (s : State) (h : HeldWrite) :
    (s.performHeld h).fabric = s.fabric := by
  unfold State.performHeld
  split <;> simp

@[simp] theorem State.freeHeld_fabric (s : State) (hs : List HeldWrite) :
    (s.freeHeld hs).fabric = s.fabric := by
  unfold State.freeHeld
  exact foldl_fabric (fun s x => by split <;> simp) ..

@[simp] theorem State.putDemand_fabric (s : State) (p f : Nat) (d : Demand) : (s.putDemand p f d).fabric = s.fabric := (rfl)

@[simp] theorem State.setRail_fabric (s : State) (r mv : Nat) : (s.setRail r mv).fabric = s.fabric := by
  simp [State.setRail]

@[simp] theorem State.toRung_fabric (s : State) (r : Nat) : (s.toRung r).fabric = s.fabric := by
  simp [State.toRung]

@[simp] theorem State.settle_fabric (s : State) : (s.settle).fabric = s.fabric := by
  simp [State.settle]

@[simp] theorem State.refreshRails_fabric (s : State) : (s.refreshRails).fabric = s.fabric := by
  simp [State.refreshRails]

@[simp] theorem State.coldStart_fabric (s : State) (p : Nat) : (s.coldStart p).fabric = s.fabric := by
  simp [State.coldStart]

@[simp] theorem State.railField_fabric (s : State) (p f sl t' : Nat) (timed late : Bool) :
    (s.railField p f sl t' timed late).1.fabric = s.fabric := by
  simp only [State.railField]
  repeat' split
  all_goals simp

@[simp] theorem State.account_fabric (s : State) (kind i parcel step : Nat) (counts : Tbl (BitVec 64)) (identity : List Byte) :
    (s.account kind i parcel step counts identity).fabric = s.fabric := by
  simp only [State.account]
  split
  · rfl
  · split
    next e => simpa using (State.ringPut_fabric ..).ok e
    next => simp
    next e => simpa using (State.ringPut_fabric ..).bad e

@[simp] theorem State.markExc_fabric (s : State) (f code stream index detail : Nat) :
    (s.markExc f code stream index detail).fabric = s.fabric := by
  simp only [State.markExc]
  split <;> simp

@[simp] theorem State.stopFacet_fabric (s : State) (f detail : Nat) : (s.stopFacet f detail).fabric = s.fabric := by
  simp [State.stopFacet]

theorem State.putOutput_fabric (s : State) (p : Nat) (c : Cut) (step slot reason : Nat) (data : List Byte) :
    (s.putOutput p c step slot reason data).Leads (·.fabric = s.fabric) := by
  simp only [State.putOutput]
  split
  · rfl
  · split
    next s' _ e =>
      have h1 : s'.fabric = s.fabric := (State.ringPut_fabric ..).ok e
      exact h1
    next => exact State.ringPut_fabric ..

@[simp] theorem State.writeEnd_fabric (s : State) (p : Nat) : (s.writeEnd p).fabric = s.fabric := by
  simp only [State.writeEnd]
  split
  · split
    · split
      next e => simpa using (State.putOutput_fabric ..).ok e
      next => rfl
      next e => simpa using (State.putOutput_fabric ..).bad e
    · rfl
  · rfl

@[simp] theorem State.railUpdate_fabric (s : State) (p t : Nat) (fs : List Nat) (timed late : Bool) :
    (s.railUpdate p t fs timed late).1.fabric = s.fabric := by
  refine foldl_fst_fabric (fun r f => ?_) _ _
  split
  · rfl
  · simp

@[simp] theorem State.noteCkpt_fabric (s : State) (p st : Nat) : (s.noteCkpt p st).fabric = s.fabric := by
  simp [State.noteCkpt]

@[simp] theorem State.lag_fabric (s : State) (p f act : Nat) : (s.lag p f act).fabric = s.fabric := (rfl)

@[simp] theorem State.enterPause_fabric (s : State) (p : Nat) : (s.enterPause p).fabric = s.fabric := by
  simp [State.enterPause]

end Sys2Proof.Machine
end

section
/-! PROOF. The life of a job changes nothing of the fabric but its flows (R149, R150, R190, R240, R263, R277). -/

namespace Sys2Proof.Machine

/-! ## The fabric beyond its flows -/

/-- The fabric without its flows: what messages of a job and replies to commands leave as it is. -/
def Fabric.beyondFlows (f : Fabric) : Fabric := { f with flows := [] }

@[simp] theorem Fabric.beyondFlows_ite {c : Prop} {_ : Decidable c} (f g : Fabric) :
    (if c then f else g).beyondFlows = if c then f.beyondFlows else g.beyondFlows := apply_ite ..

/-- Folding a function that leaves the fabric beyond its flows as it is leaves it. -/
@[simp] theorem foldl_beyondFlows {α : Type} {g : State → α → State} (hg : ∀ s x, (g s x).fabric.beyondFlows = s.fabric.beyondFlows)
    (l : List α) (s : State) : (l.foldl g s).fabric.beyondFlows = s.fabric.beyondFlows := by
  induction l generalizing s with
  | nil => rfl
  | cons x t ih => rw [List.foldl_cons, ih, hg]

/-- A part of the fabric that is none of its flows. -/
theorem part_of_beyondFlows {α : Type} {f g : Fabric} (h : f.beyondFlows = g.beyondFlows) {part : Fabric → α}
    (hp : ∀ x, part x.beyondFlows = part x := by exact fun _ => rfl) : part f = part g := by
  rw [← hp f, h, hp]

@[simp] theorem State.modFlow_beyondFlows (s : State) (k : Nat) (g : Flow → Flow) :
    (s.modFlow k g).fabric.beyondFlows = s.fabric.beyondFlows := (rfl)

@[simp] theorem State.withAck_beyondFlows (s : State) (z : ZFrame) : (s.withAck z).2.fabric.beyondFlows = s.fabric.beyondFlows := by
  simp only [State.withAck]
  repeat' split
  all_goals simp

@[simp] theorem State.pumpFlow_beyondFlows (s : State) (k n : Nat) : (s.pumpFlow k n).fabric.beyondFlows = s.fabric.beyondFlows := by
  induction n generalizing s with
  | zero => rfl
  | succ n ih =>
    simp only [State.pumpFlow]
    split
    · rfl
    · split
      · rfl
      · split
        · simp [ih]
        · split
          · rfl
          next e => simp [ih, State.putZ_fabric e]

@[simp] theorem State.sendFlow_beyondFlows (s : State) (z : ZFrame) : (s.sendFlow z).fabric.beyondFlows = s.fabric.beyondFlows := by
  simp [State.sendFlow]

@[simp] theorem State.ctrlTo_beyondFlows (s : State) (p : Nat) (c : Cut) (rank code arg arg2 arg3 : Nat) (hash : List Byte) :
    (s.ctrlTo p c rank code arg arg2 arg3 hash).fabric.beyondFlows = s.fabric.beyondFlows := by
  simp [State.ctrlTo]

@[simp] theorem State.ctrlAll_beyondFlows (s : State) (p : Nat) (c : Cut) (code arg arg2 : Nat) :
    (s.ctrlAll p c code arg arg2).fabric.beyondFlows = s.fabric.beyondFlows := by
  simp [State.ctrlAll]

@[simp] theorem State.ctrlChildren_beyondFlows (s : State) (p : Nat) (c : Cut) (code arg arg2 arg3 : Nat) (hash : List Byte) :
    (s.ctrlChildren p c code arg arg2 arg3 hash).fabric.beyondFlows = s.fabric.beyondFlows := by
  simp [State.ctrlChildren]

theorem State.emitOne_beyondFlows {s t : State} {ch : Nat} {h : HeldReply} (e : s.emitOne ch h = some t) :
    t.fabric.beyondFlows = s.fabric.beyondFlows := by
  simp only [State.emitOne] at e
  split at e
  · cases e; rfl
  · split at e
    · split at e
      · cases e
      · split at e
        · cases e; rfl
        · simpa using congrArg Fabric.beyondFlows (State.mailboxPut_fabric e)
    · split at e
      · cases e
        simp
      · split at e
        · cases e
          simp
        · split at e
          · cases e
            simp
          · split at e
            next er =>
              cases e
              simpa using congrArg Fabric.beyondFlows ((State.ringPut_fabric ..).ok er)
            next => cases e
            next er =>
              cases e
              simpa using congrArg Fabric.beyondFlows ((State.ringPut_fabric ..).bad er)

@[simp] theorem State.flushGo_beyondFlows (s : State) (ch : Nat) (l : List HeldReply) :
    (State.flushGo ch l s).fabric.beyondFlows = s.fabric.beyondFlows := by
  induction l generalizing s with
  | nil => simp [State.flushGo]
  | cons _ t ih =>
    simp only [State.flushGo]
    split
    next e => exact (ih _).trans (State.emitOne_beyondFlows e)
    next => simp

@[simp] theorem State.flushReplies_beyondFlows (s : State) (ch : Nat) :
    (s.flushReplies ch).fabric.beyondFlows = s.fabric.beyondFlows := by
  simp [State.flushReplies]

@[simp] theorem State.emitReply_beyondFlows (s : State) (ch : Nat) (h : HeldReply) :
    (s.emitReply ch h).fabric.beyondFlows = s.fabric.beyondFlows := by
  unfold State.emitReply
  repeat' split
  all_goals simp

@[simp] theorem State.sendResult_beyondFlows (s : State) (ch : Nat) (e' : InProgress) (status detail : Nat) (params : List Byte) :
    (s.sendResult ch e' status detail params).fabric.beyondFlows = s.fabric.beyondFlows := by
  simp [State.sendResult]

@[simp] theorem State.finishOne_beyondFlows (s : State) (ch id status detail : Nat) (params : List Byte) :
    (s.finishOne ch id status detail params).fabric.beyondFlows = s.fabric.beyondFlows := by
  unfold State.finishOne
  split <;> simp

@[simp] theorem State.abortsGo_beyondFlows (s : State) (ch n : Nat) (l : List (Nat × Nat)) :
    (State.abortsGo ch n l s).fabric.beyondFlows = s.fabric.beyondFlows := by
  induction n generalizing s l with
  | zero => rfl
  | succ n ih =>
    cases l with
    | nil => rfl
    | cons a t => simp [State.abortsGo, ih]

@[simp] theorem State.finishAborts_beyondFlows (s : State) (ch id result : Nat) :
    (s.finishAborts ch id result).fabric.beyondFlows = s.fabric.beyondFlows := by
  simp [State.finishAborts]

@[simp] theorem State.finish_beyondFlows (s : State) (w : Waiter) (status detail : Nat) (params : List Byte) :
    (s.finish w status detail params).fabric.beyondFlows = s.fabric.beyondFlows := by
  simp [State.finish]

@[simp] theorem State.ckpFail_beyondFlows (s : State) (p code : Nat) :
    (s.ckpFail p code).fabric.beyondFlows = s.fabric.beyondFlows := by
  simp only [State.ckpFail]
  split <;> simp

@[simp] theorem State.capture_beyondFlows (s : State) (p : Nat) (c : Cut) :
    (s.capture p c).fabric.beyondFlows = s.fabric.beyondFlows := by
  simp only [State.capture]
  split <;> simp

@[simp] theorem State.answerHeld_beyondFlows (s : State) (p : Nat) (stop : Bool) :
    (s.answerHeld p stop).fabric.beyondFlows = s.fabric.beyondFlows := by
  simp [State.answerHeld]

@[simp] theorem State.endJob_beyondFlows (s : State) (p reason rank : Nat) (send : Bool) :
    (s.endJob p reason rank send).fabric.beyondFlows = s.fabric.beyondFlows := by
  simp only [State.endJob]
  split
  · rfl
  · split
    · simp
    · split <;> simp

@[simp] theorem State.announceCkpt_beyondFlows (s : State) (p : Nat) (c : Cut) (target : Nat) :
    (s.announceCkpt p c target).1.fabric.beyondFlows = s.fabric.beyondFlows := by
  simp only [State.announceCkpt]
  repeat' split
  all_goals simp

@[simp] theorem State.everyTarget_beyondFlows (s : State) (p : Nat) (c : Cut) :
    (s.everyTarget p c).fabric.beyondFlows = s.fabric.beyondFlows := by
  simp only [State.everyTarget]
  split <;> simp

@[simp] theorem State.closeBeat_beyondFlows (s : State) (p : Nat) : (s.closeBeat p).fabric.beyondFlows = s.fabric.beyondFlows := by
  unfold State.closeBeat
  extract_lets x r stop se fs resumed paused s0
  split
  · rfl
  · extract_lets clock t tardy
    have h0 : s0.fabric.beyondFlows = s.fabric.beyondFlows := by simp [s0]
    split
    next s1 acts e =>
      have h1 : s1.fabric.beyondFlows = s.fabric.beyondFlows := by simpa [fabric_fst e] using h0
      extract_lets s2 s3 s4 s5 s6
      have h2 : s2.fabric.beyondFlows = s.fabric.beyondFlows := by
        simp only [s2]
        split
        · split <;> simp [h1]
        · exact h1
      have h6 : s6.fabric.beyondFlows = s.fabric.beyondFlows := by simp [s6, s5, s4, s3, h2]
      simp [h6]

@[simp] theorem State.rootClose_beyondFlows (s : State) (p : Nat) (c : Cut) :
    (s.rootClose p c).fabric.beyondFlows = s.fabric.beyondFlows := by
  simp [State.rootClose]

@[simp] theorem State.applyPause_beyondFlows (s : State) (p : Nat) (c : Cut) (n cause : Nat) :
    (s.applyPause p c n cause).fabric.beyondFlows = s.fabric.beyondFlows := by
  simp [State.applyPause]

@[simp] theorem State.requestPause_beyondFlows (s : State) (p : Nat) (c : Cut) (cause : Nat) :
    (s.requestPause p c cause).fabric.beyondFlows = s.fabric.beyondFlows := by
  simp [State.requestPause]

@[simp] theorem State.pauseLost_beyondFlows (s : State) (p : Nat) (c : Cut) :
    (s.pauseLost p c).fabric.beyondFlows = s.fabric.beyondFlows := by
  simp [State.pauseLost]

end Sys2Proof.Machine
end

section
/-! PROOF. What the operations of the fabric leave: frames that only enter an egress queue, and the election, the routes and gPTP, which
leave the neighbours as they are (R255 to R260, R271, R272, R305). -/

namespace Sys2Proof.Machine

/-! ## Frames that enter an egress queue (R305 to R308) -/

/-- From `s` on only the egress queues changed. -/
def EgressOnly (s t : State) : Prop := ∃ r, t = { s with traffic := r }

theorem EgressOnly.refl (s : State) : EgressOnly s s := ⟨_, rfl⟩

theorem EgressOnly.trans {s t u : State} : EgressOnly s t → EgressOnly t u → EgressOnly s u := by
  rintro ⟨_, rfl⟩ ⟨_, rfl⟩
  exact ⟨_, rfl⟩

theorem EgressOnly.foldl {α : Type} {g : State → α → State} (hg : ∀ s x, EgressOnly s (g s x)) (l : List α) (s : State) :
    EgressOnly s (l.foldl g s) := by
  induction l generalizing s with
  | nil => exact .refl s
  | cons x t ih => exact (hg s x).trans (ih _)

section
variable {s t : State} (h : EgressOnly s t)
include h

theorem EgressOnly.fabric : t.fabric = s.fabric := by obtain ⟨_, rfl⟩ := h; rfl
theorem EgressOnly.facets : t.facets = s.facets := by obtain ⟨_, rfl⟩ := h; rfl
theorem EgressOnly.sameMem : SameMem s t := by obtain ⟨_, rfl⟩ := h; exact fun _ => rfl

end

theorem State.egress_egressOnly {s t : State} {link cls : Nat} {inst : Option Nat} {ctl waits : Bool} {body : TxBody} {len : Nat}
    {mark : Option (Nat × BitVec 24)} (e : s.egress link cls inst ctl waits body len mark = .done t) : EgressOnly s t := by
  simp only [State.egress] at e
  repeat' split at e
  all_goals cases e <;> exact ⟨_, rfl⟩

theorem State.egressDrop_egressOnly (s : State) (link cls : Nat) (inst : Option Nat) (ctl : Bool) (body : TxBody) (len : Nat) :
    EgressOnly s (s.egressDrop link cls inst ctl body len) := by
  unfold State.egressDrop
  split
  next e => exact State.egress_egressOnly e
  next => exact .refl s

theorem State.sendOn_egressOnly (s : State) (link : Nat) (z : ZFrame) : EgressOnly s (s.sendOn link z) := by
  unfold State.sendOn
  split
  · exact s.egressDrop_egressOnly ..
  · exact .refl s

theorem State.sendRoutes_egressOnly (s : State) (d : FmDevice) (first n : Nat) : EgressOnly s (s.sendRoutes d first n) := by
  unfold State.sendRoutes
  split
  · exact .refl s
  · exact s.sendOn_egressOnly ..

theorem State.sendZ_egressOnly (s : State) (z : ZFrame) : EgressOnly s (s.sendZ z) := by
  unfold State.sendZ State.putZ
  split
  next e =>
    split at e
    · exact State.egress_egressOnly e
    · cases e
      exact .refl s
  next => exact .refl s

theorem State.queueGptp_egressOnly (s : State) (link : Nat) (m : GptpOut) : EgressOnly s (s.queueGptp link m) :=
  s.egressDrop_egressOnly ..

theorem SendsOnly.sameMem {s t : State} (h : SendsOnly s t) : SameMem s t := by obtain ⟨_, _, _, _, rfl⟩ := h; exact fun _ => rfl

theorem State.sendFlow_sendsOnly (s : State) (z : ZFrame) : SendsOnly s (s.sendFlow z) :=
  (State.modFlow_sendsOnly ..).trans (State.pumpFlow_sendsOnly ..)

/-! ## Routes and epochs (R259, R260) -/

/-- A device that installs a route table takes its identifier and epoch with it; the jobs that this ends send their messages. -/
theorem State.installRoutes_beyondFlows (s : State) (routes : Tbl (BitVec 64)) (id epoch : Nat) :
    (s.installRoutes routes id epoch).fabric.beyondFlows =
      ({ s.fabric with routes, id, epoch, collect := [], lsaDue := true } : Fabric).beyondFlows := by
  have ends (s : State) (e : Nat × Parcel) : (match e.2.cut with
      | some c => if e.2.jobOn then s.endJob e.1 0x0B c.rank true else s
      | none => s).fabric.beyondFlows = s.fabric.beyondFlows := by
    split <;> simp
  have notes (s : State) (e : Nat × Parcel) : (match e.2.cut with
      | some c => if (s.parcel e.1).jobOn && decide (e.2.run.b < s.boundB c) then s.raise blkZLK 0x50FF (some e.2.inst) c.job (s.boundB c)
        else s
      | none => s).fabric.beyondFlows = s.fabric.beyondFlows := by
    split <;> simp
  simp only [State.installRoutes]
  refine (foldl_beyondFlows notes ..).trans ?_
  split
  · exact foldl_beyondFlows ends ..
  · rfl

/-! ## What is heard of the neighbours (R255, R271) -/

/-- The ports in edge mode, the adjacencies, and the announces in force. -/
def Fabric.heard (f : Fabric) : List Nat × List Adjacency × Tbl Announce := (f.edge, f.adjs, f.announces)

theorem heard_of_beyondFlows {f g : Fabric} (h : f.beyondFlows = g.beyondFlows) : f.heard = g.heard := part_of_beyondFlows h

theorem State.installRoutes_heard (s : State) (routes : Tbl (BitVec 64)) (id epoch : Nat) :
    (s.installRoutes routes id epoch).fabric.heard = s.fabric.heard :=
  (heard_of_beyondFlows (s.installRoutes_beyondFlows routes id epoch) :)

theorem State.fmUpdate_heard (s : State) (new : Option FmDevice) : (s.fmUpdate new).fabric.heard = s.fabric.heard := by
  unfold State.fmUpdate
  split
  · rfl
  · extract_lets view table
    split
    · rfl
    · exact State.installRoutes_heard ..

theorem State.reElect_heard (s : State) : s.reElect.fabric.heard = s.fabric.heard := by
  simp only [State.reElect]
  split
  · exact State.fmUpdate_heard ..
  · split
    · exact State.fmUpdate_heard ..
    · rfl

/-- The adjacencies of a link are gone, whether there were any or not. -/
theorem State.dropAdjs_heard (s : State) (link : Nat) : (s.dropAdjs link).fabric.heard =
    (s.fabric.edge, s.fabric.adjs.filter (fun a => a.link ≠ link), s.fabric.announces) := by
  simp only [State.dropAdjs]
  split
  · exact State.reElect_heard ..
  next h =>
    have hall : s.fabric.adjs.filter (fun a => a.link ≠ link) = s.fabric.adjs :=
      List.filter_eq_self.mpr fun a ha => by
        simp only [List.any_eq_true, not_exists, not_and] at h
        simpa using h a ha
    rw [hall]
    rfl

/-- A device that loses lock starts the synchronisation anew; the pauses of its timed jobs only send messages. -/
theorem State.loseLock_beyondFlows (s : State) :
    s.loseLock.fabric.beyondFlows = ({ s.fabric with lock := 0, goodSync := 0 } : Fabric).beyondFlows := by
  have pauses (s : State) (e : Nat × Parcel) : (match e.2.cut with
      | some c => s.pauseLost e.1 c
      | none => s).fabric.beyondFlows = s.fabric.beyondFlows := by
    split <;> simp
  simp only [State.loseLock]
  split
  · exact foldl_beyondFlows pauses ..
  · rfl

theorem State.reMaster_heard (s : State) (was : Announce × Option Nat) : (s.reMaster was).fabric.heard = s.fabric.heard := by
  unfold State.reMaster
  extract_lets m
  split
  · rfl
  next t _ _ =>
    have ht : t.fabric.heard = s.fabric.heard := by
      simp only [t]
      split
      · exact (heard_of_beyondFlows s.loseLock_beyondFlows :)
      · rfl
    exact ht

theorem Tbl.del_of_not_has {α : Type} {t : Tbl α} {n : Nat} (h : Tbl.has t n = false) : Tbl.del t n = t := by
  refine List.filter_eq_self.mpr fun e he => ?_
  induction t with
  | nil => cases he
  | cons c t ih =>
    obtain ⟨k, v⟩ := c
    by_cases hk : k = n
    · simp [Tbl.has, Tbl.find, hk] at h
    · rcases List.mem_cons.mp he with rfl | ht
      · simpa using hk
      · exact ih (by simpa [Tbl.has, Tbl.find, hk] using h) ht

/-- The announce of a link is gone, whether there was one or not. -/
theorem State.dropAnnounce_heard (s : State) (link : Nat) : (s.dropAnnounce link).fabric.heard =
    (s.fabric.edge, s.fabric.adjs, Tbl.del s.fabric.announces link) := by
  simp only [State.dropAnnounce]
  split
  · exact State.reMaster_heard ..
  next h =>
    rw [Tbl.del_of_not_has (by simpa using h)]
    rfl

end Sys2Proof.Machine
end

section
/-! PROOF. Discovery (R255 to R260): what each row of the fabric's own frames does. -/

namespace Sys2Proof.Machine

/-! ## Fields of a payload (R7) -/

@[simp] theorem length_leBytes (n v : Nat) : (leBytes n v).length = n := by
  induction n generalizing v with
  | zero => rfl
  | succ n ih => simp [leBytes, ih]

@[simp] theorem length_zeros (n : Nat) : (zeros n).length = n := List.length_replicate ..

theorem leNat_leBytes (n v : Nat) : leNat (leBytes n v) = v % 256 ^ n := by
  induction n generalizing v with
  | zero => simp [leBytes, leNat, Nat.mod_one]
  | succ n ih =>
    rw [leBytes, leNat, ih, BitVec.toNat_ofNat, pow_succ' 256 n, Nat.mod_mul]

section
variable {xs ys : List Byte} {o n : Nat}

theorem fieldAt_leBytes_append (n v : Nat) (ys : List Byte) : fieldAt (leBytes n v ++ ys) 0 n = v % 256 ^ n := by
  rw [← leNat_leBytes, fieldAt, slice, List.drop_zero, List.take_append_of_le_length (by simp), List.take_of_length_le (by simp)]

theorem fieldAt_append_right (h : xs.length ≤ o) : fieldAt (xs ++ ys) o n = fieldAt ys (o - xs.length) n := by
  rw [fieldAt, slice, List.drop_append, List.drop_eq_nil_of_le h, List.nil_append]
  rfl

theorem fieldAt_append_left (h : o + n ≤ xs.length) : fieldAt (xs ++ ys) o n = fieldAt xs o n := by
  rw [fieldAt, slice, List.drop_append_of_le_length (by omega), List.take_append_of_le_length (by rw [List.length_drop]; omega)]
  rfl

theorem fieldAt_one (bs : List Byte) (o : Nat) : fieldAt bs o 1 = (bs[o]?.getD 0).toNat := by
  rw [fieldAt, slice, List.take_one, List.head?_drop]
  cases bs[o]? <;> rfl

end

/-! ## HELLO (R255) -/

/-- The HELLO of the device on a link. -/
def State.hello (s : State) (link : Nat) : ZFrame :=
  { s.zblank 0xA 0xFFFF with
    payload := leBytes 8 key64.toNat ++ leBytes 2 s.fabric.id ++ leBytes 1 link ++ leBytes 1 s.fabric.priority ++
      leBytes 1 s.candidate.prio ++ leBytes 1 s.candidate.dist ++ zeros 2 ++ leBytes 8 s.candidate.key.toNat ++
      leBytes 4 (Tbl.getD s.fabric.delay link 0) ++ zeros 4 }

section
variable {s : State} {link : Nat} {z : ZFrame}

theorem helloSend_eq (hl : s.zarenLink link = true) (hs : subExists (s.port (portOf link)).split (link % 4) = true) :
    exec (.helloSend link) s = .next (s.sendOn link (s.hello link)) := by
  refine congrArg Host.Outcome.next (if_neg ?_)
  simp [hl, hs]

theorem State.hello_fields (hl : link < 64) :
    (s.hello link).payload.length = 32 ∧ fieldAt (s.hello link).payload 0 8 = key64.toNat ∧
    fieldAt (s.hello link).payload 8 2 = s.fabric.id % 2 ^ 16 ∧ fieldAt (s.hello link).payload 10 1 = link ∧
    fieldAt (s.hello link).payload 11 1 = s.fabric.priority % 256 ∧ fieldAt (s.hello link).payload 16 8 = s.candidate.key.toNat ∧
    fieldAt (s.hello link).payload 24 4 = Tbl.getD s.fabric.delay link 0 % 2 ^ 32 := by
  have hkey (k : BitVec 64) : k.toNat % 18446744073709551616 = k.toNat := Nat.mod_eq_of_lt k.isLt
  simp [State.hello, fieldAt_leBytes_append, fieldAt_append_right, hkey, Nat.mod_eq_of_lt (hl.trans (by decide : 64 < 256))]

theorem State.lt_of_zarenLink (h : s.zarenLink link = true) : link < 64 := by
  simp only [State.zarenLink, Bool.and_eq_true, decide_eq_true_eq] at h
  obtain ⟨⟨⟨hlink, -⟩, -⟩, -⟩ := h
  exact hlink

/-! ## A frame of the three special destinations (R252) -/

section
variable {typ dst : Nat} (h : s.special link z typ dst = true)
include h

theorem State.special_cases : z.typ = typ ∧ s.zarenLink link = true ∧ s.power.rung < 3 ∧ z.malformed = false ∧ z.dst = dst := by
  simpa [State.special, and_assoc] using h

/-- One that is taken is counted, and its row's rule applies. -/
theorem runs_special {i : Instr} {k : State → State} {Q : State → Prop} (hi : exec i s = .next (s.specialIngress link z typ dst k))
    (hq : Q (k (s.countRx link z.wire))) : Runs i s Q := by
  obtain ⟨htyp, hlink, hrung, hgood, hdst⟩ := State.special_cases h
  refine ⟨_, hi.trans (congrArg Host.Outcome.next ?_), hq⟩
  unfold State.specialIngress
  rw [if_neg (by simp [htyp, hlink, hrung]), if_neg (by simp [hgood, hdst])]

theorem payloadOk_of_special : z.payloadOk = true := by
  obtain ⟨-, -, -, hgood, -⟩ := State.special_cases h
  by_contra hbad
  simp [ZFrame.malformed, hbad] at hgood

end

/-! ## HELLO_RECEIVE (R255) -/

theorem helloReceive_own (h : s.special link z 0xA 0xFFFF = true) (hkey : fieldAt z.payload 0 8 = key64.toNat) :
    Runs (.helloReceive link z) s fun t => ∃ u : State, t = u.reElect ∧ link ∈ u.fabric.unusable ∧
      (∀ a ∈ u.fabric.adjs, a.link ≠ link) ∧ SameMem s u ∧ u.facets = s.facets := by
  refine runs_special h rfl ⟨_, if_pos (by rw [hkey, BitVec.ofNat_toNat, BitVec.setWidth_eq]), List.mem_cons_self, fun a ha => ?_,
    fun _ => rfl, rfl⟩
  simpa using (List.mem_filter.mp ha).2

/-- The adjacency that a hello leaves, given the one that there was (R255). -/
def State.adjacencyAfter (s : State) (link : Nat) (b : List Byte) (old : Option Adjacency) : Adjacency :=
  let n := match old with | some a => min 3 (a.hellos + 1) | none => 1
  { link, key := BitVec.ofNat 64 (fieldAt b 0 8), rlink := fieldAt b 10 1, id := fieldAt b 8 2, delay := fieldAt b 24 4, hellos := n
    heard := s.now, up := (match old with | some a => a.up | none => false) || decide (3 ≤ n), cprio := fieldAt b 12 1
    ckey := BitVec.ofNat 64 (fieldAt b 16 8), cdist := fieldAt b 13 1 }

theorem helloReceive_other {key : BitVec 64} {old : Option Adjacency} (h : s.special link z 0xA 0xFFFF = true)
    (hkey : key = BitVec.ofNat 64 (fieldAt z.payload 0 8)) (hne : key ≠ key64)
    (hold : (s.fabric.adjs.find? fun a => a.link = link && a.key = key) = old)
    (hroom : old.isSome = true ∨ (s.fabric.adjs.filter fun a => a.link = link).length < 32) :
    Runs (.helloReceive link z) s fun t => ∃ u : State, t = u.reElect ∧ u.facets = s.facets ∧ SameMem s u ∧
      u.fabric.adjs = (s.fabric.adjs.filter fun q => !(q.link = link && q.key = key)) ++ [s.adjacencyAfter link z.payload old] := by
  subst hkey hold
  have hroom' : ¬((s.fabric.adjs.find? fun a => a.link = link && a.key = BitVec.ofNat 64 (fieldAt z.payload 0 8)).isNone = true ∧
      32 ≤ (s.fabric.adjs.filter fun a => a.link = link).length) := by
    rintro ⟨hnone, hfull⟩
    rcases hroom with hsome | hroom
    · simp [Option.isNone_iff_eq_none.mp hnone] at hsome
    · omega
  refine runs_special h rfl ⟨_, (if_neg hne).trans (if_neg hroom'), rfl, fun _ => rfl, rfl⟩

/-! ## Adjacencies and the candidate's end (R255, R256) -/

theorem adjacencyDown_eq {key : BitVec 64} {a : Adjacency}
    (h : (s.fabric.adjs.find? fun a => a.link = link && a.key = key) = some a) :
    exec (.adjacencyDown link key) s = .next ({ s.reach (a.heard + 3000000) with fabric := { s.fabric with
      adjs := s.fabric.adjs.filter fun q => !(q.link = link && q.key = key), lsaDue := true } } : State).reElect := by
  show execAdjacencyDown link key s = _
  simp only [execAdjacencyDown, h]
  rfl

theorem heartbeatLoss_eq (h : s.isFm = false) :
    exec .heartbeatLoss s = .next ({ s.reach (s.fabric.heartbeat + 50000000) with fabric := { s.fabric with
      excluded := s.fabric.excluded ++ [(s.fabric.candKey, (s.reach (s.fabric.heartbeat + 50000000)).now + 100000000)] } } : State).reElect :=
  congrArg Host.Outcome.next (if_neg (by simp [h]))

theorem candidateExclusionEnd_eq {key : BitVec 64} {e : BitVec 64 × Nat} (h : (s.fabric.excluded.find? fun e => e.1 = key) = some e) :
    exec (.candidateExclusionEnd key) s = .next ({ s.reach e.2 with fabric := { s.fabric with
      excluded := s.fabric.excluded.filter fun q => q.1 ≠ key } } : State).reElect := by
  show execCandidateExclusionEnd key s = _
  simp only [execCandidateExclusionEnd, h]
  rfl

/-! ## LSA (R257) -/

/-- The payload of an LSA that goes on from a link. -/
def lsaOnward (b : List Byte) (link : Nat) : List Byte :=
  b.take 14 ++ leBytes 1 (lsaPath b link).length ++ slice b 15 1 ++ padTo 64 ((lsaPath b link).map (BitVec.ofNat 8)) ++ b.drop 80

theorem lsaReceive_onward {l : Nat} (h : s.special link z 0xB 0xFFFD = true) (hn : fieldAt z.payload 14 1 < 64)
    (hl : (s.countRx link z.wire).candidate.link = some l) : Runs (.lsaReceive link z) s fun t =>
      t = (s.countRx link z.wire).sendOn l { z with payload := lsaOnward z.payload link } := by
  refine runs_special h rfl ?_
  dsimp only
  rw [if_neg (by omega), hl]
  rfl

theorem lsaReceive_manager (h : s.special link z 0xB 0xFFFD = true) (hn : fieldAt z.payload 14 1 < 64)
    (hl : (s.countRx link z.wire).candidate.link = none) : Runs (.lsaReceive link z) s fun t =>
      t = (s.countRx link z.wire).fmUpdate (some (lsaDevice z.payload (lsaPath z.payload link))) := by
  refine runs_special h rfl ?_
  dsimp only
  rw [if_neg (by omega), hl]

@[simp] theorem length_lsaPath (b : List Byte) (link : Nat) : (lsaPath b link).length = fieldAt b 14 1 + 1 := by simp [lsaPath]

section
variable {b : List Byte} (hb : 80 ≤ b.length) (hn : fieldAt b 14 1 < 64)
include hb

/-- The payload of an onward LSA is its first 14 bytes, N, COUNT and the path, and what stood behind the path. -/
theorem lsaOnward_parts (link : Nat) : ∃ head, head.length = 16 ∧ fieldAt head 14 1 = (fieldAt b 14 1 + 1) % 256 ∧
    lsaOnward b link = head ++ ((lsaPath b link).map (BitVec.ofNat 8) ++ (zeros (64 - (fieldAt b 14 1 + 1)) ++ b.drop 80)) := by
  refine ⟨b.take 14 ++ (leBytes 1 (lsaPath b link).length ++ slice b 15 1), ?_, ?_, ?_⟩
  · simp [slice]; omega
  · rw [fieldAt_append_right (by simp), List.length_take_of_le (by omega), fieldAt_leBytes_append, length_lsaPath, pow_one]
  · simp [lsaOnward, padTo]

include hn

theorem length_lsaOnward (link : Nat) : (lsaOnward b link).length = b.length := by
  obtain ⟨head, hlen, -, e⟩ := lsaOnward_parts hb link
  simp [e, hlen]
  omega

theorem lsaOnward_count (link : Nat) : fieldAt (lsaOnward b link) 14 1 = fieldAt b 14 1 + 1 := by
  obtain ⟨head, hlen, hcount, e⟩ := lsaOnward_parts hb link
  rw [e, fieldAt_append_left (by omega), hcount, Nat.mod_eq_of_lt (by omega)]

theorem lsaOnward_drop (link : Nat) : (lsaOnward b link).drop 80 = b.drop 80 := by
  obtain ⟨head, hlen, -, e⟩ := lsaOnward_parts hb link
  rw [e, ← List.append_assoc, ← List.append_assoc, List.drop_append_of_le_length (by simp [hlen]; omega),
    List.drop_eq_nil_of_le (by simp [hlen]; omega), List.nil_append]

/-- The path stands from byte 16 on. -/
theorem lsaOnward_path {link j : Nat} (hj : j ≤ fieldAt b 14 1) :
    fieldAt (lsaOnward b link) (16 + j) 1 = (lsaPath b link)[j]'(by simp; omega) % 256 := by
  obtain ⟨head, hlen, -, e⟩ := lsaOnward_parts hb link
  rw [e, fieldAt_append_right (by omega), hlen, Nat.add_sub_cancel_left, fieldAt_one, List.getElem?_append_left (by simp; omega),
    List.getElem?_map, List.getElem?_eq_getElem (by simp; omega)]
  simp

end

theorem lsaPath_last (b : List Byte) (link : Nat) : (lsaPath b link)[fieldAt b 14 1]'(by simp) = link := by simp [lsaPath]

theorem lsaPath_before (b : List Byte) (link : Nat) {j : Nat} (hj : j < fieldAt b 14 1) :
    (lsaPath b link)[j]'(by simp; omega) = fieldAt b (16 + j) 1 := by
  simp [lsaPath, hj]

theorem fieldAt_one_lt (bs : List Byte) (o : Nat) : fieldAt bs o 1 < 256 := by
  rw [fieldAt_one]
  exact BitVec.isLt _

/-- An LSA holds its whole path. -/
theorem lsa_length (h : s.special link z 0xB 0xFFFD = true) : 80 ≤ z.payload.length := by
  have hok := payloadOk_of_special h
  simp only [ZFrame.payloadOk, (State.special_cases h).1, Bool.and_eq_true, decide_eq_true_eq] at hok
  omega

/-- The state in which a ROUTES frame that ends here is noted: the manager's heartbeat, and its identifier. -/
def State.heardManager (s : State) (z : ZFrame) : State :=
  { s with fabric := { s.fabric with
    heartbeat := if fieldAt z.payload 8 8 = s.fabric.candKey.toNat ∧ fieldAt z.payload 22 2 = 0 then s.now else s.fabric.heartbeat
    fmId := z.src } }

/-- The first `n` entries of a ROUTES payload join those of their epoch. -/
def collected (b : List Byte) (t : Tbl (BitVec 64)) (n : Nat) : Tbl (BitVec 64) :=
  (List.range n).foldl (fun t j =>
    if fieldAt b 20 2 + j < 0x4000 then t.put (fieldAt b 20 2 + j) (BitVec.ofNat 64 (fieldAt b (96 + 8 * j) 8)) else t) t

/-- The entries of a ROUTES frame's epoch that are there once it has come. -/
def State.entriesWith (s : State) (b : List Byte) : Tbl (BitVec 64) :=
  collected b (if fieldAt b 18 2 = s.fabric.collEpoch then s.fabric.collect else []) (fieldAt b 22 2)

/-- The state in which the entries of a ROUTES frame are collected. -/
def State.collects (s : State) (z : ZFrame) : State :=
  { s with fabric := { (s.heardManager z).fabric with
    collect := s.entriesWith z.payload, collEpoch := fieldAt z.payload 18 2, collId := fieldAt z.payload 16 2 } }

theorem find_collected (b : List Byte) (t : Tbl (BitVec 64)) {n j : Nat} (hj : j < n) (hin : fieldAt b 20 2 + j < 0x4000) :
    Tbl.find (collected b t n) (fieldAt b 20 2 + j) = some (BitVec.ofNat 64 (fieldAt b (96 + 8 * j) 8)) := by
  induction n with
  | zero => omega
  | succ n ih =>
    rw [collected, List.range_succ, List.foldl_append, List.foldl_cons, List.foldl_nil]
    rcases Nat.lt_succ_iff_lt_or_eq.mp hj with hlt | rfl
    · split
      · rw [Tbl.find_put_ne _ (by omega)]
        exact ih hlt
      · exact ih hlt
    · rw [if_pos hin, Tbl.find_put_self]

/-! ## ROUTES (R258, R259) -/

section
variable (h : s.special link z 0xC 0xFFFC = true)
include h

theorem routesReceive_onward (hi : 0 < fieldAt z.payload 24 1) (hl : fieldAt z.payload (31 + fieldAt z.payload 24 1) 1 < 64) :
    Runs (.routesReceive link z) s fun t => t = (s.countRx link z.wire).sendOn (fieldAt z.payload (31 + fieldAt z.payload 24 1) 1)
      { z with payload := z.payload.take 24 ++ leBytes 1 (fieldAt z.payload 24 1 - 1) ++ z.payload.drop 25 } := by
  have hpos : 32 + fieldAt z.payload 24 1 - 1 = 31 + fieldAt z.payload 24 1 := by omega
  refine runs_special h rfl ?_
  dsimp only
  rw [if_pos hi, hpos, if_pos hl]

section
variable (hi : fieldAt z.payload 24 1 = 0) (hkey : fieldAt z.payload 0 8 = key64.toNat)
include hi hkey

theorem routesReceive_heartbeat (hb : fieldAt z.payload 22 2 = 0 ∨ fieldAt z.payload 18 2 = s.fabric.epoch) :
    Runs (.routesReceive link z) s fun t => t = (s.countRx link z.wire).heardManager z := by
  have hb' : fieldAt z.payload 22 2 = 0 ∨ fieldAt z.payload 18 2 = (s.countRx link z.wire).fabric.epoch := hb
  refine runs_special h rfl ?_
  dsimp only
  rw [if_neg (by omega), if_neg (by simp [hkey]), if_pos hb']
  simp only [Bool.and_eq_true, decide_eq_true_eq]
  rfl

/-- The entries of another epoch wait until all are there, and then take effect at once. -/
theorem routesReceive_entries (hn : fieldAt z.payload 22 2 ≠ 0) (he : fieldAt z.payload 18 2 ≠ s.fabric.epoch) :
    Runs (.routesReceive link z) s fun t => t =
      if ((s.countRx link z.wire).entriesWith z.payload).length = 0x4000 then
        ((s.countRx link z.wire).collects z).installRoutes (sparse ((s.countRx link z.wire).entriesWith z.payload))
          (fieldAt z.payload 16 2) (fieldAt z.payload 18 2)
      else (s.countRx link z.wire).collects z := by
  have hother : ¬(fieldAt z.payload 22 2 = 0 ∨ fieldAt z.payload 18 2 = (s.countRx link z.wire).fabric.epoch) := not_or.mpr ⟨hn, he⟩
  refine runs_special h rfl ?_
  dsimp only
  rw [if_neg (by omega), if_neg (by simp [hkey]), if_neg hother]
  simp only [Bool.and_eq_true, decide_eq_true_eq]
  rfl

end

end

/-! ## The manager's frames (R258) -/

theorem heartbeatSend_eq (h : s.isFm = true) : exec .heartbeatSend s =
    .next ((s.fabric.fmView.filter fun d => d.key ≠ key64).foldl (fun s d => s.sendRoutes d 0 0) s) :=
  congrArg Host.Outcome.next (if_pos h)

theorem routesResend_eq {key : BitVec 64} {d : FmDevice} (hfm : s.isFm = true) (hne : key ≠ key64)
    (hd : (s.fabric.fmView.find? fun d => d.key = key) = some d) (he : d.epoch ≠ s.fabric.fmEpoch) :
    exec (.routesResend key) s = .next
      ((List.range 33).foldl (fun s j => s.sendRoutes d (500 * j) (min 500 (0x4000 - 500 * j))) s) := by
  show execRoutesResend key s = _
  simp only [execRoutesResend, hd]
  exact congrArg Host.Outcome.next (if_neg (by simp [hfm, hne, he]))

/-- Of 16,384 entries in frames of 500 the last frame has 384. -/
theorem entries_of_frame {j : Nat} (hj : j ∈ List.range 33) : min 500 (0x4000 - 500 * j) = if j = 32 then 384 else 500 := by
  rw [List.mem_range] at hj
  split <;> omega

/-- The state from which an LSA goes, once those of its `n` adjacencies that do not fit in it are recorded. -/
def State.lsaNoted (s : State) (n : Nat) : State :=
  let t := if 240 < n then s.raise blkZLK 0x5007 none 240 n else s
  { t with fabric := { t.fabric with lsaDue := false } }

theorem lsaSend_eq (s : State) : ∃ n, exec .lsaSend s = .next (match (s.lsaNoted n).candidate.link with
    | none => (s.lsaNoted n).fmUpdate
    | some l => (s.lsaNoted n).sendOn l (s.lsaNoted n).ownLsa) := by
  refine ⟨((List.range 64).map fun l => (s.fabric.upOn l).length).sum, ?_⟩
  show execLsaSend s = _
  unfold execLsaSend
  generalize ((List.range 64).map fun l => (s.fabric.upOn l).length).sum = n
  rfl

theorem State.lsaNoted_frame (s : State) (n : Nat) : (s.lsaNoted n).fabric = { s.fabric with lsaDue := false } ∧
    (s.lsaNoted n).traffic = s.traffic ∧ (s.lsaNoted n).facets = s.facets ∧ SameMem s (s.lsaNoted n) := by
  unfold State.lsaNoted
  split
  · exact ⟨rfl, rfl, rfl, fun _ => rfl⟩
  · exact ⟨rfl, rfl, rfl, fun _ => rfl⟩

end

end Sys2Proof.Machine
end

section
open Sys2Proof Sys2Proof.Machine

/-- Settles O32: each row by the equation that says what it does; a frame that is sent enters an egress queue and leaves the rest. -/
theorem fabricDiscovery : Obligations.FabricDiscovery := by
  unfold Obligations.FabricDiscovery
  intro s link z v b
  refine ⟨fun hl hs => ?hello, helloReceive_own, fun key old hz hkey hne hold hroom => ?helloFrom, fun key a ha => ?silent, ?lsaSend,
    fun l hz hn hl => ?lsaOnward, lsaReceive_manager, routesReceive_onward,
    fun hz hi hkey => ⟨routesReceive_heartbeat hz hi hkey, fun hn he => ?routes⟩, fun hfm => ?heartbeat,
    fun key d hfm hne hd he => ?resend, fun hfm => ?lost, fun key e he => ?excluded⟩
  case hello =>
    obtain ⟨hlen, hkey, hid, hlink, hprio, hcand, hdelay⟩ := State.hello_fields (s := s) (State.lt_of_zarenLink hl)
    have sends := s.sendOn_egressOnly link (s.hello link)
    exact ⟨_, helloSend_eq hl hs, s.hello link, rfl, rfl, rfl, hlen, hkey, hid, hlink, hprio, hcand, hdelay, sends.fabric, sends.sameMem,
      sends.facets⟩
  case helloFrom =>
    obtain ⟨t, ht, u, hu, hfacets, hmem, hadjs⟩ := helloReceive_other hz hkey hne hold hroom
    exact ⟨t, ht, u, _, hu, hfacets, hmem, hadjs, rfl, hkey.symm, rfl, rfl, rfl, rfl, rfl, rfl, Bool.or_comm ..⟩
  case silent => exact ⟨_, adjacencyDown_eq ha, _, rfl, rfl, rfl, fun _ => rfl, rfl⟩
  case lsaSend =>
    obtain ⟨n, ht⟩ := lsaSend_eq s
    obtain ⟨hfabric, htraffic, hfacets, hmem⟩ := s.lsaNoted_frame n
    exact ⟨_, ht, s.lsaNoted n, hfabric, htraffic, hfacets, hmem, rfl⟩
  case lsaOnward =>
    have hlen := lsa_length hz
    obtain ⟨t, ht, rfl⟩ := lsaReceive_onward hz hn hl
    refine ⟨_, ht, _, rfl, rfl, length_lsaOnward hlen hn link, lsaOnward_count hlen hn link, ?_, fun j hj => ?_,
      lsaOnward_drop hlen hn link⟩
    · have hl64 := State.lt_of_zarenLink (State.special_cases hz).2.1
      rw [lsaOnward_path hlen hn le_rfl, lsaPath_last, Nat.mod_eq_of_lt (by omega)]
    · rw [lsaOnward_path hlen hn hj.le, lsaPath_before _ _ hj, Nat.mod_eq_of_lt (fieldAt_one_lt ..)]
  case routes =>
    obtain ⟨t, ht, rfl⟩ := routesReceive_entries hz hi hkey hn he
    refine ⟨_, ht, ?_⟩
    split
    · have h := State.installRoutes_beyondFlows (v.collects z) (sparse (v.entriesWith z.payload)) (fieldAt z.payload 16 2)
        (fieldAt z.payload 18 2)
      exact ⟨fun hlen => absurd (congrArg List.length (part_of_beyondFlows h (part := (·.collect)))) hlen,
        fun _ => ⟨part_of_beyondFlows h (part := (·.epoch)), part_of_beyondFlows h (part := (·.id))⟩⟩
    · exact ⟨fun _ => ⟨rfl, rfl, rfl, fun j hj hin => find_collected _ _ hj hin⟩, fun hne => absurd rfl hne⟩
  case heartbeat =>
    have sends := EgressOnly.foldl (fun s d => State.sendRoutes_egressOnly s d 0 0) (s.fabric.fmView.filter fun d => d.key ≠ key64) s
    exact ⟨_, heartbeatSend_eq hfm, rfl, sends.fabric, sends.sameMem⟩
  case resend =>
    have sends := EgressOnly.foldl (fun s j => State.sendRoutes_egressOnly s d (500 * j) (min 500 (0x4000 - 500 * j))) (List.range 33) s
    refine ⟨_, routesResend_eq hfm hne hd he, sends.fabric, sends.sameMem, sends.facets, ?_⟩
    exact List.foldl_ext _ _ _ fun t j hj => by rw [entries_of_frame hj]
  case lost => exact ⟨_, heartbeatLoss_eq hfm, _, rfl, rfl, rfl, rfl, fun _ => rfl⟩
  case excluded =>
    exact ⟨_, candidateExclusionEnd_eq he, _, rfl, rfl, fun q hq => by simpa using (List.mem_filter.mp hq).2, rfl, fun _ => rfl⟩

end

section
/-! PROOF. Transfers between devices, and the frames of flows (R262 to R270). -/

namespace Sys2Proof.Machine

/-! ## A frame of a job (R264, R270) -/

section
variable {s s1 : State} {link typ : Nat} {z : ZFrame} {b : Binding} (h : JobFrame s link z typ s1 b)
include h

/-- A frame that is taken is served in the state of its binding. -/
theorem JobFrame.jobIngress_eq (k : State → Binding → State) : s.jobIngress link z typ k = k s1 b := by
  obtain ⟨htyp, s0, hin, hb, rfl⟩ := h
  simp [State.jobIngress, htyp, hin, hb]

theorem JobFrame.runs {i : Instr} {k : State → Binding → State} {Q : State → Prop} (hi : exec i s = .next (s.jobIngress link z typ k))
    (hq : Q (k s1 b)) : Runs i s Q :=
  ⟨_, hi.trans (congrArg Host.Outcome.next (h.jobIngress_eq k)), hq⟩

end

/-! ## What a device notes of another's transfer (R268, R269) -/

/-- The transfer of a frame as it is noted so far. -/
def State.peerOf (s : State) (z : ZFrame) : PeerIn :=
  (s.fabric.peersIn.find? fun t => t.is z).getD { src := z.src, tag := z.tag, sfx := z.sfx, sfy := z.sfy, job := z.job, inst := z.inst
                                                  signal := none, err := none, last := false, lost := false }

theorem State.peerOf_is (s : State) (z : ZFrame) : (s.peerOf z).is z = true := by
  unfold State.peerOf
  cases hfind : s.fabric.peersIn.find? fun t => t.is z with
  | some t => exact List.find?_some (p := fun t : PeerIn => t.is z) hfind
  | none => simp [PeerIn.is]

theorem State.peerOf_new {s : State} {z : ZFrame} (h : ∀ y ∈ s.fabric.peersIn, y.is z = false) : (s.peerOf z).err = none := by
  have hnone : s.fabric.peersIn.find? (fun t => t.is z) = none := List.find?_eq_none.mpr fun y hy => by simp [h y hy]
  rw [State.peerOf, hnone]
  rfl

/-- The note of a transfer, with what its newest frame adds. -/
def State.peerNoted (s : State) (z : ZFrame) (err : Option Nat) (last lost : Bool) : PeerIn :=
  { s.peerOf z with
    err := if (s.peerOf z).err.isSome then (s.peerOf z).err else err, last := (s.peerOf z).last || last, lost := (s.peerOf z).lost || lost
    signal := if z.sig then some (z.rsx, z.rsy, z.tokc, z.tokn) else (s.peerOf z).signal }

theorem State.notePeer_peersIn (s : State) (z : ZFrame) (err : Option Nat) (last lost : Bool) :
    (s.notePeer z err last lost).fabric.peersIn = (s.fabric.peersIn.filter fun q => !q.is z) ++ [s.peerNoted z err last lost] := by
  simp only [State.notePeer, State.peerNoted, State.peerOf]
  split
  next hfind => simp [hfind]
  next hfind => simp [hfind]

theorem State.notePeer_noted (s : State) (z : ZFrame) (err : Option Nat) (last lost : Bool) :
    ∃ x ∈ (s.notePeer z err last lost).fabric.peersIn, x.is z = true ∧ (last = true → x.last = true) ∧
      (z.sig = true → x.signal = some (z.rsx, z.rsy, z.tokc, z.tokn)) ∧
      ((∀ y ∈ s.fabric.peersIn, y.is z = false) → x.err = err) := by
  refine ⟨s.peerNoted z err last lost, by simp [State.notePeer_peersIn], s.peerOf_is z, fun hl => ?_, fun hs => ?_, fun hnew => ?_⟩
  · simp [State.peerNoted, hl]
  · simp [State.peerNoted, hs]
  · simp [State.peerNoted, State.peerOf_new hnew]

section
variable {s s1 : State} {link : Nat} {z : ZFrame} {b : Binding}

/-! ## WRITE and TOKEN (R268, R269) -/

theorem zarenWriteReceive_ok {rs : List (Nat × Nat)} {s2 : State} (h : JobFrame s link z 1 s1 b)
    (hrs : s1.rangesOf z.inst z.addr z.payload.length true = .ok rs) (hsave : s1.saveAll (some (z.inst, b.gen)) rs z.payload = .ok s2) :
    Runs (.zarenWriteReceive link z) s fun t =>
      t = (s2.charge z.inst 2 (hbmBytes rs)).notePeer z none z.last (!(s1.refusing z.inst b.gen rs).isEmpty) := by
  refine h.runs rfl ?_
  simp only [hrs, hsave]

theorem zarenTokenReceive_eq (h : JobFrame s link z 4 s1 b) : Runs (.zarenTokenReceive link z) s fun t => t = s1.notePeer z none true :=
  h.runs rfl rfl

/-! ## READ (R268) -/

theorem SameMem.foldl {α : Type} {g : State → α → State} (hg : ∀ s x, SameMem s (g s x)) (l : List α) (s : State) :
    SameMem s (l.foldl g s) := by
  induction l generalizing s with
  | nil => exact SameMem.refl s
  | cons x t ih => exact (hg s x).trans (ih _)

/-- Correcting what a read met changes no byte. -/
theorem State.met_sameMem (s : State) (a n : Nat) : SameMem s (s.met a n) := by
  unfold State.met
  split
  · unfold State.metSpad
    split
    · exact SameMem.refl s
    · exact SameMem.modFacet (s.disarm _) _ _
  · exact SameMem.trans (t := s.disarm (s.armedIn a n)) (fun _ => rfl) (SameMem.foldl (fun s e => SameMem.modMemDie s _ _) _ _)

/-- The state in which what a read of ranges met is corrected, and the read charged. -/
def State.readThrough (s : State) (i : Nat) (rs : List (Nat × Nat)) : State :=
  (rs.foldl (fun s r => s.met r.1 r.2) s).charge i 1 (hbmBytes rs)

theorem State.readThrough_frame (s : State) (i : Nat) (rs : List (Nat × Nat)) :
    SameMem s (s.readThrough i rs) ∧ (s.readThrough i rs).fabric = s.fabric := by
  have hmem : SameMem s (rs.foldl (fun s r => s.met r.1 r.2) s) :=
    SameMem.foldl (fun (s : State) (r : Nat × Nat) => s.met_sameMem r.1 r.2) rs s
  have hfab : (rs.foldl (fun s r => s.met r.1 r.2) s).fabric = s.fabric :=
    foldl_fabric (fun (s : State) (r : Nat × Nat) => s.met_fabric r.1 r.2) rs s
  exact ⟨hmem, hfab⟩

theorem State.dataFrames_sendsOnly (s : State) (z : ZFrame) (n off : Nat) (bs : List Byte) : SendsOnly s (s.dataFrames z n off bs) := by
  induction n generalizing s off bs with
  | zero => exact .refl s
  | succ n ih =>
    rw [State.dataFrames]
    split
    · exact .refl s
    · exact (State.sendFlow_sendsOnly ..).trans (ih ..)

theorem zarenReadReceive_ok {rs : List (Nat × Nat)} {bs : List Byte} (h : JobFrame s link z 2 s1 b)
    (hrs : s1.rangesOf z.inst z.addr (fieldAt z.payload 4 4) false = .ok rs) (hload : s1.loadAll (some (z.inst, b.gen)) rs = .ok bs) :
    Runs (.zarenReadReceive link z) s fun t =>
      t = (s1.readThrough z.inst rs).dataFrames z (fieldAt z.payload 4 4 / 4096 + 1) (fieldAt z.payload 0 4) bs := by
  refine h.runs rfl ?_
  simp only [hrs, hload]
  rfl

/-! ## DATA, DONE and FAIL (R268, R269) -/

/-- The state with more flits on the mesh. -/
def State.inTransit (s : State) (hs : List Hop) : State := { s with mesh := { s.mesh with transit := s.mesh.transit ++ hs } }

theorem State.inTransit_inTransit (s : State) (hs ks : List Hop) : (s.inTransit hs).inTransit ks = s.inTransit (hs ++ ks) := by
  simp [State.inTransit]

/-- A flit that has entered at the edge router of a die. -/
def State.entering (s : State) (die : Nat) (fl : Flit) : Hop :=
  { flit := fl, place := .buf fl.sx fl.sy (sidePort (dieRun die).1), since := s.now }

/-- The flits that a die sends wait at its edge router, in their order. -/
theorem foldl_dieSend_eq {α : Type} (die : Nat) (a : α → Flit) (l : List α) (s : State) :
    l.foldl (fun s x => s.dieSend die (a x)) s = s.inTransit (l.map fun x => s.entering die (a x)) := by
  induction l generalizing s with
  | nil => simp [State.inTransit]
  | cons x t ih =>
    have hone : s.dieSend die (a x) = s.inTransit [s.entering die (a x)] := rfl
    rw [List.foldl_cons, ih, hone, State.inTransit_inTransit]
    rfl

@[simp] theorem facetAt_facetX_facetY (f : Nat) : facetAt (facetX f) (facetY f) = f := by
  simp only [facetAt, facetX, facetY]
  omega

/-- The flit of 128 bytes of the data. -/
def dataFlit (link : Nat) (z : ZFrame) (b : Binding) (n j : Nat) : Flit :=
  { fromDie (8 + dieOfLink link) (askingFacet z) z.inst b.gen 2 with
    tag := z.tag, units := unitsOf (slice z.payload (128 * j) 128).length, addr := spadAddr (askingFacet z) (z.addr + 128 * j)
    payload := slice z.payload (128 * j) 128, last := z.last && j + 1 = n }

theorem zarenDataReceive_eq (h : JobFrame s link z 3 s1 b) : Runs (.zarenDataReceive link z) s fun t =>
    t = s1.inTransit ((List.range ((z.payload.length + 127) / 128)).map fun j =>
      s1.entering (8 + dieOfLink link) (dataFlit link z b ((z.payload.length + 127) / 128) j)) := by
  refine h.runs rfl ?_
  simp only [List.foldl_map, List.length_map, List.length_range]
  exact foldl_dieSend_eq (8 + dieOfLink link) (dataFlit link z b ((z.payload.length + 127) / 128)) ..

/-- The flit that ends a transfer at the facet that asked for it. -/
def doneFlit (link : Nat) (z : ZFrame) (b : Binding) : Flit :=
  { fromDie (8 + dieOfLink link) (askingFacet z) z.inst b.gen 4 with tag := z.tag, last := true }

theorem zarenDoneReceive_eq (h : JobFrame s link z 5 s1 b) : Runs (.zarenDoneReceive link z) s fun t =>
    t = s1.inTransit [s1.entering (8 + dieOfLink link) (doneFlit link z b)] :=
  h.runs rfl rfl

theorem zarenFailReceive_eq (h : JobFrame s link z 6 s1 b) : Runs (.zarenFailReceive link z) s fun t =>
    t = s1.nackFacet link (askingFacet z) z.tag z.inst b.gen (fieldAt z.payload 0 2) :=
  h.runs rfl rfl

end

/-! ## PEER_TRANSFER_DONE (R269) -/

/-- An increment that fits and is not empty adds to its counter, and to nothing else. -/
theorem State.addTok_adds {s : State} {f c n : Nat} (hfits : (s.facet f).tok c + n ≤ 65535) (hn : 0 < n) :
    (s.addTok f c n).fabric = s.fabric ∧ SameMem s (s.addTok f c n) ∧ OnlyFacet s (s.addTok f c n) f ∧
      (s.addTok f c n).facet f = { s.facet f with toks := (s.facet f).toks.put c ((s.facet f).tok c + n) } := by
  rw [State.addTok_eq hfits, if_neg hn.ne']
  exact ⟨rfl, SameMem.modFacet s f _, OnlyFacet.modFacet s f _, State.facet_modFacet ..⟩

/-- The frame that names a noted transfer, and carries its answer. -/
def State.peerAnswer (s : State) (x : PeerIn) : ZFrame :=
  { s.zblank 5 x.src with src := x.src, tag := x.tag, sfx := x.sfx, sfy := x.sfy, job := x.job, inst := x.inst }

/-- The state without a transfer's note. -/
def State.dropPeer (s : State) (x : PeerIn) : State :=
  { s with fabric := { s.fabric with peersIn := s.fabric.peersIn.filter fun q => !q.is (s.peerAnswer x) } }

theorem State.not_mem_dropPeer (s : State) (x : PeerIn) : x ∉ (s.dropPeer x).fabric.peersIn := by
  simp [State.dropPeer, PeerIn.is, State.peerAnswer]

section
variable {s : State} {src tag : Nat} {x : PeerIn} {k : Binding}
  (hx : (s.fabric.peersIn.find? fun t => t.src = src && t.tag = tag && t.last && !t.lost) = some x)
  (hk : (s.fabric.bindings.find? fun b => b.inst = x.inst && b.job = x.job) = some k)
include hx

theorem peer_of_find : x.src = src ∧ x.tag = tag := by
  have := List.find?_some hx
  simp only [Bool.and_eq_true, decide_eq_true_eq] at this
  exact this.1.1

/-- A transfer's note is gone from the state `u` before the answer `y`, which names the transfer. -/
theorem runs_peerTransferDone {t u : State} {Q : State → State → ZFrame → Prop} (hrun : exec (.peerTransferDone src tag) s = .next t)
    (hfab : u.fabric = (s.dropPeer x).fabric) (hmem : SameMem s u) (hq : Q t u (s.peerAnswer x)) :
    Runs (.peerTransferDone src tag) s fun t => ∃ (u : State) (y : ZFrame), u.fabric.bindings = s.fabric.bindings ∧
      x ∉ u.fabric.peersIn ∧ SameMem s u ∧ y.src = src ∧ y.tag = tag ∧ y.job = x.job ∧ y.inst = x.inst ∧ y.sfx = x.sfx ∧ y.sfy = x.sfy ∧ Q t u y := by
  obtain ⟨rfl, rfl⟩ := peer_of_find hx
  refine ⟨t, hrun, u, _, ?_, ?_, hmem, rfl, rfl, rfl, rfl, rfl, rfl, hq⟩
  · rw [hfab]
    rfl
  · rw [hfab]
    exact s.not_mem_dropPeer x

include hk

/-- A complete transfer is answered once its signal is served. -/
theorem peerTransferDone_eq : exec (.peerTransferDone src tag) s = .next
    (match x.err, x.signal with
    | some e, _ => (s.dropPeer x).failPeer (s.peerAnswer x) e
    | none, none => (s.dropPeer x).endPeer (s.peerAnswer x) 5 []
    | none, some (rx, ry, c, n) =>
      if 4 * (s.parcel k.parcel).gw ≤ rx ∨ 4 * (s.parcel k.parcel).gh ≤ ry then (s.dropPeer x).failPeer (s.peerAnswer x) 0x0024
      else if (s.facet ((s.parcel k.parcel).facetOf rx ry)).accepts x.inst k.gen then
        ((s.dropPeer x).addTok ((s.parcel k.parcel).facetOf rx ry) c n).endPeer (s.peerAnswer x) 5 []
      else (s.dropPeer x).facetDiscard ((s.parcel k.parcel).facetOf rx ry)) := by
  obtain ⟨rfl, rfl⟩ := peer_of_find hx
  show execPeerTransferDone x.src x.tag s = _
  simp only [execPeerTransferDone, hx, hk]
  rfl

end

end Sys2Proof.Machine
end

section
/-! PROOF. The frames of flows: acknowledgements, resynchronisation, CMD and encapsulated frames, and forwarding (R262 to R266). -/

namespace Sys2Proof.Machine

/-! ## Flows (R264 to R266) -/

theorem State.flow_congr {s t : State} (h : t.fabric = s.fabric) (k : Nat) : t.flow k = s.flow k := by rw [State.flow, State.flow, h]

/-- An operation keeps whether a flow failed where it keeps it of the flow that it is about. -/
theorem State.flow_modFlow_failed {g : Flow → Flow} (hg : ∀ f, (g f).failed = f.failed) (s : State) (m k : Nat) :
    ((s.modFlow m g).flow k).failed = (s.flow k).failed := by
  by_cases hk : k = m
  · rw [hk, State.flow_modFlow, hg]
  · rw [State.flow_modFlow_ne _ _ hk]

/-- An acknowledgement that goes along with a frame is all that its flow loses. -/
theorem State.withAck_failed (s : State) (z : ZFrame) (k : Nat) : ((s.withAck z).2.flow k).failed = (s.flow k).failed := by
  unfold State.withAck
  extract_lets due stamp
  have hstamp (cls : Nat) : ((stamp cls).2.flow k).failed = (s.flow k).failed := State.flow_modFlow_failed (by exact fun _ => rfl) ..
  split
  · exact hstamp 7
  · split
    · exact hstamp 6
    · rfl

/-- Sending does not end a flow's failure, and does not make it fail. -/
theorem State.pumpFlow_failed (s : State) (k n : Nat) : ((s.pumpFlow k n).flow k).failed = (s.flow k).failed := by
  induction n generalizing s with
  | zero => rfl
  | succ n ih =>
    simp only [State.pumpFlow]
    split
    · rfl
    · split
      · rfl
      · split
        · rw [ih, State.flow_congr (State.noRoute_fabric ..)]
          exact State.flow_modFlow_failed (by exact fun _ => rfl) ..
        · split
          · rfl
          next s2 hput =>
            rw [ih, State.flow_modFlow_failed (by exact fun _ => rfl), State.flow_congr (State.putZ_fabric hput)]
            exact State.withAck_failed ..

section
variable (s : State) (dev cls : Nat)

theorem State.restartFlow_failed (drop : Bool) : ((s.restartFlow dev cls drop).flow (flowKey dev cls)).failed = false :=
  (State.pumpFlow_failed ..).trans (congrArg Flow.failed (State.flow_modFlow ..))

/-- A flow that drops what waits restarts empty. -/
theorem State.restartFlow_drop : (s.restartFlow dev cls true).flow (flowKey dev cls) =
    { s.flow (flowKey dev cls) with
      txNext := 0, rxNext := 0, unacked := [], rxDue := 0, rxSince := none, failed := false, waiting := [] } := by
  simp [State.restartFlow, State.pumpFlow]

end

/-! ## PACK (R265) -/

/-- A flow with nothing that waits, and nothing unacknowledged up to a PSN. -/
def Flow.AckedTo (apsn : BitVec 24) (f : Flow) : Prop := f.waiting = [] ∧ ∀ u ∈ f.unacked, psnLe u.frame.psn apsn = false

/-- Retransmission changes when and how often a frame was sent, and no frame. -/
theorem State.resend_ackedTo {s : State} {k : Nat} {apsn : BitVec 24} (h : (s.flow k).AckedTo apsn) (p : Unacked → Bool) :
    ((s.resend k p).flow k).AckedTo apsn := by
  refine List.foldlRecOn (motive := fun t : State => (t.flow k).AckedTo apsn) _ _ h fun t ht u _ => ?_
  split
  · exact ht
  · split
    · exact ht
    next t' he =>
      have hflow : t'.flow k = t.flow k := by
        split at he
        · cases he
          exact State.flow_congr (State.noRoute_fabric ..) k
        · exact State.flow_congr (State.putZ_fabric he) k
      obtain ⟨hwait, hun⟩ := ht
      rw [State.flow_modFlow, hflow]
      refine ⟨hwait, fun v hv => ?_⟩
      obtain ⟨w, hw, rfl⟩ := List.mem_map.mp hv
      split
      · exact hun w hw
      · exact hun w hw

theorem State.ackFlow_ackedTo {s : State} {dev cls : Nat} (apsn : BitVec 24) (h : (s.flow (flowKey dev cls)).waiting = []) :
    ((s.ackFlow dev cls apsn).flow (flowKey dev cls)).AckedTo apsn := by
  have hacked := State.resend_ackedTo (k := flowKey dev cls) (apsn := apsn)
    (s := s.modFlow (flowKey dev cls) fun f => { f with unacked := f.unacked.filter fun u => !psnLe u.frame.psn apsn })
    (by simpa [Flow.AckedTo] using h) fun _ => true
  simp only [State.ackFlow, hacked.1]
  exact hacked

section
variable {s : State} {link : Nat} {z : ZFrame}

/-- A PACK has no PSN of its own: it only acknowledges. -/
theorem packReceive_eq (htyp : z.typ = 7) (hlink : link < 64) (hup : (s.link link).state = .up) (hfab : s.fabricLink link = true)
    (hrung : s.power.rung < 3) (hgood : z.malformed = false) (hdst : z.dst = s.wakeDeep.fabric.id) (hval : z.avalid = true) :
    exec (.packReceive link z) s = .next ((s.wakeDeep.countRx link z.wire).ackFlow z.src (6 + z.aclass) z.apsn) := by
  have hpsn : z.hasPsn = false := by simp [ZFrame.hasPsn, htyp]
  show execPackReceive link z s = _
  simp [execPackReceive, State.zIngress, htyp, hlink.not_ge, hup, hfab, hrung.not_ge, hgood, hdst, hval, hpsn]

/-! ## CMD and encapsulated frames (R263, R279) -/

variable {s0 : State} (hin : s.zIngress link z = (s0, true))
include hin

theorem cmdFrameReceive_eq {ch : Nat} (hch : s.fabricChan z.src = some ch) (htyp : z.typ = 9) :
    exec (.cmdFrameReceive link z) s = .next (s0.arrive ch z.src z.payload) := by
  have hz : ({ z with typ := 9 } : ZFrame) = z := by rw [← htyp]
  show execCmdFrameReceive link z s = _
  simp only [execCmdFrameReceive, hz, hch, hin]
  rfl

theorem encapReceive_eq (htyp : z.typ = 0xD) : exec (.encapReceive link z) s = .next
    ((if s0.power.exiting then s0 else s0.releaseFrames).frameIn link true s0.gptp z.payload) := by
  have hz : ({ z with typ := 0xD } : ZFrame) = z := by rw [← htyp]
  show execEncapReceive link z s = _
  simp only [execEncapReceive, hz, hin]
  rfl

/-! ## RESYNC (R266) -/

variable (htyp : z.typ = 0xE)
include htyp

theorem resyncReceive_request (hkind : fieldAt z.payload 1 1 = 0) : exec (.resyncReceive link z) s = .next
    ((((s0.failTransfers z.src).failJobs z.src).restartFlow z.src (fieldAt z.payload 0 1) true).sendResync z.src
      (fieldAt z.payload 0 1) 1) := by
  show execResyncReceive link z s = _
  simp [execResyncReceive, htyp, hin, hkind]

theorem resyncReceive_answer (hkind : fieldAt z.payload 1 1 = 1) (hfail : (s0.flow (flowKey z.src (fieldAt z.payload 0 1))).failed = true) :
    exec (.resyncReceive link z) s = .next (s0.restartFlow z.src (fieldAt z.payload 0 1) false) := by
  show execResyncReceive link z s = _
  simp [execResyncReceive, htyp, hin, hkind, hfail]

end

/-! ## ZAREN_FORWARD (R262) -/

/-- The state in which a frame for another device is counted. -/
def State.forwards (s : State) (link : Nat) (z : ZFrame) : State :=
  if z.typ ≤ 9 ∨ z.typ = 0xD then (s.countRx link z.wire).wakeDeep else s.countRx link z.wire

section
variable {s : State} {link : Nat} {z : ZFrame} (hlink : s.zarenLink link = true) (hrung : s.power.rung < 3) (hgood : z.malformed = false)
  (hne : z.dst ≠ s.fabric.id) (hdst : z.dst < 0x4000)
include hlink hrung hgood hne hdst

theorem zarenForward_eq : exec (.zarenForward link z) s = .next
    (match (s.forwards link z).wayTo z.src z.dst with
    | none => (s.forwards link z).zDiscard 1
    | some l =>
      if z.hops ≤ 1 then (s.forwards link z).zDiscard 1
      else if dieOfLink l = dieOfLink link then
        (s.forwards link z).egressDrop l z.pcp none z.ctl (.zaren { z with hops := z.hops - 1 }) z.wire
      else (s.forwards link z).crossOut (8 + dieOfLink link) (8 + dieOfLink l) { z with hops := z.hops - 1 }) := by
  have hon : ¬((!s.zarenLink link || decide (3 ≤ s.power.rung)) = true) := by simp [hlink, hrung]
  show execZarenForward link z s = _
  rw [execZarenForward, if_neg hon, if_neg (by simp [hgood]), if_neg (by simp [hne, hdst])]
  rfl

theorem zarenForward_discards (h : z.hops ≤ 1 ∨ (s.forwards link z).wayTo z.src z.dst = none) :
    exec (.zarenForward link z) s = .next ((s.forwards link z).zDiscard 1) := by
  rw [zarenForward_eq hlink hrung hgood hne hdst]
  split
  · rfl
  next l hl =>
    rw [if_pos (h.resolve_right (by simp [hl]))]

end

end Sys2Proof.Machine
end

section
open Sys2Proof Sys2Proof.Machine

/-- Settles O33: each row by the equation that says what it does; the flits that a frame becomes are read off the mesh, and what a
transfer's or a flow's frame leaves in the fabric is read off the state that the equation names. -/
theorem fabricTransfers : Obligations.FabricTransfers := by
  unfold Obligations.FabricTransfers
  intro s link z s1 b entersAt
  refine ⟨fun h rs s2 hrs hsave => ?write, fun h rs bs n hn hrs hload => ?read, fun h => ?data, fun h => ?token, fun h => ?done,
    zarenFailReceive_eq, fun src tag x k hx hk => ?peer, fun v htyp hlink hup hfab hrung hgood hv hdst hval => ?pack,
    fun ch s0 hch htyp hin => ⟨_, cmdFrameReceive_eq hin hch htyp, rfl⟩, fun s0 htyp hin => ⟨_, encapReceive_eq hin htyp, rfl⟩,
    fun s0 cls htyp hin hcls => ⟨fun hkind => ?request, fun hkind hfail => ?answer⟩,
    fun v hlink hrung hgood hne hdst hv => ⟨fun h => ?discard, fun l hhops hway => ?forward⟩⟩
  case write =>
    obtain ⟨t, ht, rfl⟩ := zarenWriteReceive_ok h hrs hsave
    obtain ⟨x, hx, his, hlast, hsig, herr⟩ := State.notePeer_noted (s2.charge z.inst 2 (hbmBytes rs)) z none z.last
      (!(s1.refusing z.inst b.gen rs).isEmpty)
    refine ⟨_, ht, fun _ => rfl, rfl, x, hx, his, hlast, hsig, fun hnew => herr ?_⟩
    rwa [State.charge_fabric, State.saveAll_fabric hsave]
  case read =>
    subst hn
    obtain ⟨t, ht, rfl⟩ := zarenReadReceive_ok h hrs hload
    obtain ⟨hmem, hfab⟩ := s1.readThrough_frame z.inst rs
    exact ⟨_, ht, _, rfl, hmem, hfab, hmem.trans (State.dataFrames_sendsOnly ..).sameMem⟩
  case data =>
    obtain ⟨t, ht, rfl⟩ := zarenDataReceive_eq h
    refine ⟨_, ht, _, rfl, by simp, fun j hop hj => ?_⟩
    rw [List.getElem?_map] at hj
    obtain ⟨i, hi, rfl⟩ := Option.map_eq_some_iff.mp hj
    obtain ⟨hlt, rfl⟩ := List.getElem?_eq_some_iff.mp hi
    refine ⟨⟨rfl, rfl⟩, rfl, rfl, facetAt_facetX_facetY .., ?_⟩
    simp [State.entering, dataFlit, fromDie, askingFacet]
  case token =>
    obtain ⟨t, ht, rfl⟩ := zarenTokenReceive_eq h
    obtain ⟨x, hx, his, hlast, hsig, -⟩ := s1.notePeer_noted z none true false
    exact ⟨_, ht, fun _ => rfl, rfl, x, hx, his, hlast rfl, hsig⟩
  case done =>
    obtain ⟨t, ht, rfl⟩ := zarenDoneReceive_eq h
    exact ⟨_, ht, _, rfl, ⟨rfl, rfl⟩, rfl, rfl, rfl, facetAt_facetX_facetY .., rfl, rfl⟩
  case peer =>
    have hrun := peerTransferDone_eq hx hk
    rcases herr : x.err with _ | e
    · rcases hsig : x.signal with _ | ⟨rx, ry, c, n⟩
      · simp only [herr, hsig] at hrun
        exact runs_peerTransferDone hx hrun rfl (fun _ => rfl) ⟨nofun, fun _ _ => ⟨rfl, rfl⟩, nofun⟩
      · simp only [herr, hsig] at hrun
        by_cases hout : 4 * (s.parcel k.parcel).gw ≤ rx ∨ 4 * (s.parcel k.parcel).gh ≤ ry
        · rw [if_pos hout] at hrun
          refine runs_peerTransferDone hx hrun rfl (fun _ => rfl) ⟨nofun, nofun, ?_⟩
          rintro _ _ _ _ _ - ⟨⟩ rfl
          exact ⟨fun _ => ⟨rfl, rfl⟩, fun hw hh => by omega⟩
        · rw [if_neg hout] at hrun
          by_cases hadd : (s.facet ((s.parcel k.parcel).facetOf rx ry)).accepts x.inst k.gen = true ∧
              (s.facet ((s.parcel k.parcel).facetOf rx ry)).tok c + n ≤ 65535 ∧ 0 < n
          · obtain ⟨hacc, hfits, hn⟩ := hadd
            obtain ⟨hfab, hmem, honly, hfacet⟩ := State.addTok_adds (s := s.dropPeer x) hfits hn
            rw [if_pos hacc] at hrun
            refine runs_peerTransferDone hx hrun hfab hmem ⟨nofun, nofun, ?_⟩
            rintro _ _ _ _ _ - ⟨⟩ rfl
            exact ⟨fun h => absurd h hout, fun _ _ _ _ _ => ⟨rfl, honly, hfacet⟩⟩
          · refine runs_peerTransferDone hx hrun (u := s.dropPeer x) rfl (fun _ => rfl) ⟨nofun, nofun, ?_⟩
            rintro _ _ _ _ _ - ⟨⟩ rfl
            exact ⟨fun h => absurd h hout, fun _ _ hacc hfits hn => absurd ⟨hacc, hfits, hn⟩ hadd⟩
    · simp only [herr] at hrun
      refine runs_peerTransferDone hx hrun rfl (fun _ => rfl) ⟨?_, nofun, nofun⟩
      rintro _ ⟨⟩
      exact ⟨rfl, rfl⟩
  case pack =>
    subst hv
    refine ⟨_, packReceive_eq htyp hlink hup hfab hrung hgood hdst hval, rfl, fun hwait => ?_⟩
    exact (State.ackFlow_ackedTo (s := s.wakeDeep.countRx link z.wire) z.apsn hwait).2
  case request =>
    subst hcls
    refine ⟨_, resyncReceive_request hin htyp hkind, _, rfl, rfl, ?_⟩
    rw [State.restartFlow_drop]
    exact ⟨rfl, rfl, rfl, rfl⟩
  case answer =>
    subst hcls
    exact ⟨_, resyncReceive_answer hin htyp hkind hfail, rfl, State.restartFlow_failed ..⟩
  case discard =>
    subst hv
    exact ⟨_, zarenForward_discards hlink hrung hgood hne hdst h, rfl⟩
  case forward =>
    subst hv
    refine ⟨_, zarenForward_eq hlink hrung hgood hne hdst, ?_⟩
    have hway' : (s.forwards link z).wayTo z.src z.dst = some l := hway
    rw [hway']
    exact if_neg (by omega)

end

section
/-! PROOF. Flow timers, gPTP, gates, and the fabric's registers (R264 to R266, R271 to R276, R279, R281). -/

namespace Sys2Proof.Machine

/-! ## Timers of flows (R264 to R266) -/

section
variable {s : State} {dev cls : Nat}

section
variable {u : Unacked} (hu : ((s.flow (flowKey dev cls)).unacked.find? fun u => !s.zQueued u.frame) = some u)
include hu

theorem zlkRtoExpire_eq : exec (.zlkRtoExpire dev cls) s = .next
    (if 8 ≤ u.count then (s.reach (u.sent + 1000 * s.fabric.rto)).failFlow dev cls
    else (s.reach (u.sent + 1000 * s.fabric.rto)).resend (flowKey dev cls) fun v =>
      decide (v.sent + 1000 * s.fabric.rto ≤ (s.reach (u.sent + 1000 * s.fabric.rto)).now)) := by
  show execZlkRtoExpire dev cls s = _
  simp only [execZlkRtoExpire, hu]
  rfl

end

theorem zarenAckTimer_eq {a : Nat} (ha : (s.flow (flowKey dev cls)).rxSince = some a) :
    exec (.zarenAckTimer dev cls) s = .next ((s.reach (a + 2000)).sendPack dev cls) := by
  show execZarenAckTimer dev cls s = _
  simp only [execZarenAckTimer, ha]

/-- An acknowledgement that is sent is no longer due. -/
theorem State.sendPack_flow (s : State) (dev cls : Nat) : (s.sendPack dev cls).flow (flowKey dev cls) =
    { s.flow (flowKey dev cls) with rxDue := 0, rxSince := none } := by
  rw [State.sendPack, State.flow_congr (State.sendZ_egressOnly ..).fabric, State.flow_modFlow]

theorem resyncSend_eq (h : (s.flow (flowKey dev cls)).failed = true) : exec (.resyncSend dev cls) s = .next
    ((s.reach ((s.flow (flowKey dev cls)).resync + 1000 * s.fabric.rto)).sendResync dev cls 0) :=
  congrArg Host.Outcome.next (if_pos h)

end

/-! ## gPTP messages (R271 to R273) -/

/-- The state in which a message's frames are counted. -/
def State.countMsg (s : State) (link : Nat) (m : GptpMsg) : State := (msgFrames m).foldl (fun s n => s.countRx link n) s

/-- Counting frames changes only their link's counts. -/
theorem State.countMsg_frame (s : State) (link : Nat) (m : GptpMsg) :
    (s.countMsg link m).fabric = s.fabric ∧ (s.countMsg link m).now = s.now :=
  List.foldlRecOn (motive := fun t : State => t.fabric = s.fabric ∧ t.now = s.now) _ _ ⟨rfl, rfl⟩ fun _ ht _ _ => ht

theorem State.master_congr {s t : State} (h : t.fabric.announces = s.fabric.announces) (hp : t.fabric.prio1 = s.fabric.prio1) :
    t.master = s.master := by
  simp only [State.master, State.ownAnnounce, h, hp]

section
variable {s : State} {link : Nat} (hlink : link < 64) (hfab : s.fabricLink link = true) (hup : (s.link link).state = .up)
include hlink hfab hup

/-- Each of a message's frames is counted, and then its rule applies. -/
theorem gptpMessageReceive_eq (m : GptpMsg) : exec (.gptpMessageReceive link m) s = .next
    (match m with
    | .sync o => if (s.countMsg link m).master.2 = some link then (s.countMsg link m).takeSync o else s.countMsg link m
    | .pdelay ns =>
      { s.countMsg link m with fabric := { (s.countMsg link m).fabric with delay := (s.countMsg link m).fabric.delay.put link ns } }
    | .pdelayReq n src port =>
      ((s.countMsg link m).queueGptp link (.pdelayResp n src port (s.countMsg link m).now)).queueGptp link (.pdelayFollow n src port)
    | .announce a => (s.countMsg link m).takeAnnounce link a) :=
  congrArg Host.Outcome.next (if_neg (by simp [hlink, hfab, hup]))

end

/-! ## Sync (R272) -/

/-- The fabric that has taken the offset of a Sync. -/
def Fabric.steered (f : Fabric) (now : Nat) (o : Int) : Fabric :=
  { f with
    lastOff := o, offset := f.offset - o, lastSync := now, synced := true
    goodSync := if o.natAbs ≤ 100 then min 8 (f.goodSync + 1) else 0
    lock := if (if o.natAbs ≤ 100 then min 8 (f.goodSync + 1) else 0) = 8 ∧ f.lock = 0 then 1 else f.lock }

/-- A Sync is taken, and what it does to the lock is acted on. -/
def State.steered (s : State) (o : Int) : State := { s with fabric := s.fabric.steered s.now o }

theorem State.takeSync_eq (s : State) (o : Int) : s.takeSync o =
    if 1000 < o.natAbs then (s.steered o).loseLock
    else if (s.steered o).fabric.lock ≠ s.fabric.lock then (s.steered o).timeMark else s.steered o := rfl

/-- A small offset may complete the lock, which is only recorded. -/
theorem State.takeSync_near {o : Int} (h : o.natAbs ≤ 1000) (s : State) : (s.takeSync o).fabric = s.fabric.steered s.now o := by
  rw [State.takeSync_eq, if_neg (by omega)]
  split
  · rfl
  · rfl

/-- With a large one the lock is lost. -/
theorem State.takeSync_far {o : Int} (h : 1000 < o.natAbs) (s : State) : (s.takeSync o).fabric.beyondFlows =
    ({ s.fabric.steered s.now o with lock := 0, goodSync := 0 } : Fabric).beyondFlows := by
  rw [State.takeSync_eq, if_pos h]
  exact State.loseLock_beyondFlows ..

theorem State.takeSync_steers (s : State) (o : Int) : (s.takeSync o).fabric.offset = s.fabric.offset - o ∧
    (s.takeSync o).fabric.lastOff = o ∧ (s.takeSync o).fabric.lastSync = s.now := by
  by_cases h : o.natAbs ≤ 1000
  · rw [State.takeSync_near h]
    exact ⟨rfl, rfl, rfl⟩
  · have hfar := State.takeSync_far (Nat.lt_of_not_le h) s
    exact ⟨part_of_beyondFlows hfar (part := (·.offset)), part_of_beyondFlows hfar (part := (·.lastOff)),
      part_of_beyondFlows hfar (part := (·.lastSync))⟩

theorem State.takeSync_good {o : Int} (h : o.natAbs ≤ 100) (s : State) :
    (s.takeSync o).fabric.goodSync = min 8 (s.fabric.goodSync + 1) ∧
    (s.takeSync o).fabric.lock = if 7 ≤ s.fabric.goodSync ∧ s.fabric.lock = 0 then 1 else s.fabric.lock := by
  have hfull : min 8 (s.fabric.goodSync + 1) = 8 ↔ 7 ≤ s.fabric.goodSync := by omega
  rw [State.takeSync_near (by omega)]
  simp [Fabric.steered, h, hfull]

theorem State.takeSync_bad {o : Int} (h : 100 < o.natAbs) (s : State) : (s.takeSync o).fabric.goodSync = 0 := by
  by_cases hnear : o.natAbs ≤ 1000
  · rw [State.takeSync_near hnear]
    exact if_neg (by omega)
  · exact part_of_beyondFlows (State.takeSync_far (Nat.lt_of_not_le hnear) s) (part := (·.goodSync))

theorem State.takeSync_lost {o : Int} (h : 1000 < o.natAbs) (s : State) : (s.takeSync o).fabric.lock = 0 :=
  part_of_beyondFlows (State.takeSync_far h s) (part := (·.lock))

/-! ## Announce (R271) -/

/-- An announce is taken where it fits, and where it replaces its sender's own or is better. -/
theorem State.takeAnnounce_takes {s : State} {link : Nat} {a : Announce} (hfits : annFits a = true)
    (h : s.fabric.announces.find link = none ∨ ∃ b, s.fabric.announces.find link = some b ∧
      ((a.src = b.src ∧ a.port = b.port) ∨ lexLt (annRank a) (annRank b) = true)) :
    s.takeAnnounce link a =
      ({ s with fabric := { s.fabric with announces := s.fabric.announces.put link a } } : State).reMaster s.master := by
  refine if_pos ?_
  rcases h with hnone | ⟨b, hb, hbetter⟩
  · simp [hfits, hnone]
  · simpa [hfits, hb] using hbetter

theorem State.takeAnnounce_unfit {a : Announce} (hfits : annFits a = false) (s : State) (link : Nat) : s.takeAnnounce link a = s :=
  if_neg (by simp [hfits])

/-! ## GPTP_LOCK_LOSS and GRANDMASTER_LOCK (R272, R273) -/

/-- The choice of another master does not start a lock, and counts no Sync. -/
theorem State.reMaster_unlocked {s : State} (hlock : s.fabric.lock = 0) (hgood : s.fabric.goodSync = 0) (was : Announce × Option Nat) :
    (s.reMaster was).fabric.lock = 0 ∧ (s.reMaster was).fabric.goodSync = 0 ∧ (s.reMaster was).fabric.lastOff = s.fabric.lastOff := by
  simp only [State.reMaster, hlock]
  split
  · exact ⟨hlock, hgood, rfl⟩
  · exact ⟨hlock, by simp [hgood], rfl⟩

theorem State.dropAnnounce_unlocked {s : State} (hlock : s.fabric.lock = 0) (hgood : s.fabric.goodSync = 0) (l : Nat) :
    (s.dropAnnounce l).fabric.lock = 0 ∧ (s.dropAnnounce l).fabric.goodSync = 0 ∧ (s.dropAnnounce l).fabric.lastOff = s.fabric.lastOff := by
  simp only [State.dropAnnounce]
  split
  · exact State.reMaster_unlocked (s := { s with fabric := { s.fabric with announces := Tbl.del s.fabric.announces l } }) hlock hgood _
  · exact ⟨hlock, hgood, rfl⟩

theorem State.dropAnnounce_find (s : State) (l : Nat) : (s.dropAnnounce l).fabric.announces.find l = none := by
  have h : (s.dropAnnounce l).fabric.announces = Tbl.del s.fabric.announces l := congrArg (·.2.2) (s.dropAnnounce_heard l)
  rw [h, Tbl.find_del_self]

theorem gptpLockLoss_eq {s : State} {l : Nat} (o : Int) (hl : s.master.2 = some l) (hlock : s.fabric.lock = 1) :
    exec (.gptpLockLoss o) s = .next
      (if 1000 < o.natAbs then ({ s with fabric := { s.fabric with lastOff := o } } : State).loseLock
      else ({ s with fabric := { s.fabric with lastOff := o } } : State).loseLock.dropAnnounce l) := by
  show execGptpLockLoss o s = _
  simp only [execGptpLockLoss, hl, if_pos hlock]

/-- A device that is the grandmaster takes its own clock for the fabric's. -/
def State.masters (s : State) (t : Nat) : State := { s.reach t with fabric := { s.fabric with lock := 2, lastOff := 0 } }

theorem grandmasterLock_eq {s : State} {a : Nat} (ha : s.fabric.masterAt = some a) : exec .grandmasterLock s = .next
    (if s.fabric.lock = 0 then (s.masters (a + 1000000000)).timeMark else s.masters (a + 1000000000)) := by
  show execGrandmasterLock s = _
  simp only [execGrandmasterLock, ha]
  rfl

/-! ## GPTP_SYNC_SEND (R271) -/

/-- The state that has sent a message under the next number of its kind. -/
def State.sendGptp (s : State) (link kind : Nat) (m : GptpOut) : State := ((s.nextGptp link kind).2).queueGptp link m

/-- Sending counts the message of its kind, and changes nothing else of the fabric. -/
theorem State.sendGptp_fabric (s : State) (link kind : Nat) (m : GptpOut) : (s.sendGptp link kind m).fabric = { s.fabric with
    gptpSeq := s.fabric.gptpSeq.put (4 * link + kind) ((Tbl.getD s.fabric.gptpSeq (4 * link + kind) 0 + 1) % 65536) } :=
  (State.queueGptp_egressOnly ..).fabric

section
variable (s : State) (link kind : Nat) (m : GptpOut)

theorem State.sendGptp_master : (s.sendGptp link kind m).master = s.master :=
  State.master_congr (by rw [State.sendGptp_fabric]) (by rw [State.sendGptp_fabric])

theorem State.sendGptp_masterPort : (s.sendGptp link kind m).masterPort link = s.masterPort link := by
  simp only [State.masterPort, State.announceOn, State.sendGptp_master]
  rw [State.sendGptp_fabric]

theorem State.sendGptp_seq {j : Nat} (hj : j ≠ kind) : Tbl.getD (s.sendGptp link kind m).fabric.gptpSeq (4 * link + j) 0 =
    Tbl.getD s.fabric.gptpSeq (4 * link + j) 0 := by
  rw [State.sendGptp_fabric]
  exact Tbl.getD_put_ne _ (by omega) ..

end

/-- The number of the next message of a kind on a link. -/
def State.gptpNumber (s : State) (link kind : Nat) : Nat := Tbl.getD s.fabric.gptpSeq (4 * link + kind) 0

theorem State.announceOn_congr {s t : State} (h : t.master = s.master) (link : Nat) : t.announceOn link = s.announceOn link := by
  rw [State.announceOn, State.announceOn, h]

/-- The messages of a link in their order, each sent in the state that the one before it leaves. -/
theorem gptpSyncSend_eq {s u w : State} {link : Nat} (hlink : link < 64) (hfab : s.fabricLink link = true) (hup : (s.link link).state = .up)
    (hu : u = s.sendGptp link 2 (.pdelayReq (s.gptpNumber link 2)))
    (hw : w = u.sendGptp link 1 (.announce (u.gptpNumber link 1) (u.announceOn link))) :
    exec (.gptpSyncSend link) s = .next
      (if !u.masterPort link then u
      else if w.master.2.isSome && !w.fabric.synced then w
      else (w.sendGptp link 0 (.sync (w.gptpNumber link 0))).queueGptp link (.followUp (w.gptpNumber link 0))) := by
  have hann : (u.nextGptp link 1).2.announceOn link = u.announceOn link := State.announceOn_congr (State.master_congr rfl rfl) link
  have hin : ¬(64 ≤ link ∨ (!s.fabricLink link) = true ∨ (s.link link).state ≠ .up) := by simp [hlink, hfab, hup]
  have hu' : ((s.nextGptp link 2).2).queueGptp link (.pdelayReq (s.nextGptp link 2).1) = u := hu.symm
  have hw' : ((u.nextGptp link 1).2).queueGptp link (.announce (u.nextGptp link 1).1 ((u.nextGptp link 1).2.announceOn link)) = w := by
    rw [hann, hw]
    rfl
  show execGptpSyncSend link s = _
  rw [execGptpSyncSend, if_neg hin]
  dsimp only
  rw [hu', hw']
  rfl

section
variable {s : State} {link : Nat}

/-- Each message has the number that stood for its kind at the start. -/
theorem State.sendGptp_starts (s : State) (link : Nat) (m k : GptpOut) :
    (s.sendGptp link 2 m).gptpNumber link 1 = s.gptpNumber link 1 ∧
    ((s.sendGptp link 2 m).sendGptp link 1 k).gptpNumber link 0 = s.gptpNumber link 0 :=
  ⟨State.sendGptp_seq _ _ _ _ (by decide), (State.sendGptp_seq _ _ _ _ (by decide)).trans (State.sendGptp_seq _ _ _ _ (by decide))⟩

/-- What decides which messages go is as it was at the start. -/
theorem State.sendGptp_decides (s : State) (link : Nat) (m k : GptpOut) :
    (s.sendGptp link 2 m).masterPort link = s.masterPort link ∧ (s.sendGptp link 2 m).announceOn link = s.announceOn link ∧
    ((s.sendGptp link 2 m).sendGptp link 1 k).master = s.master ∧
    ((s.sendGptp link 2 m).sendGptp link 1 k).fabric.synced = s.fabric.synced :=
  ⟨State.sendGptp_masterPort .., State.announceOn_congr (State.sendGptp_master ..) link,
    (State.sendGptp_master ..).trans (State.sendGptp_master ..), by rw [State.sendGptp_fabric, State.sendGptp_fabric]⟩

/-! ## Preemption and gates (R274, R276) -/

theorem preemptionVerified_eq (hlink : link < 64) (hup : (s.link link).state = .up) (hnew : link ∉ s.fabric.preempt) :
    exec (.preemptionVerified link) s = .next { s with fabric := { s.fabric with preempt := link :: s.fabric.preempt } } :=
  congrArg Host.Outcome.next (if_neg (by simp [hlink, hup, hnew]))

/-- Reaching a time of the fabric only passes time. -/
theorem State.reachGptp_eq (s : State) (t : Nat) : ∃ d, s.reachGptp t = s.reach d := ⟨_, rfl⟩

/-- One port's gates change in a state that only time has passed in. -/
theorem State.reachGptp_modGates (s : State) (t port : Nat) (g : PortGates → PortGates) :
    ((s.reachGptp t).modGates port g).gatesOf port = g (s.gatesOf port) ∧
    (∀ q, q ≠ port → ((s.reachGptp t).modGates port g).gatesOf q = s.gatesOf q) ∧ s.now ≤ ((s.reachGptp t).modGates port g).now ∧
    SameMem s ((s.reachGptp t).modGates port g) ∧ ((s.reachGptp t).modGates port g).facets = s.facets := by
  obtain ⟨d, hd⟩ := s.reachGptp_eq t
  rw [hd]
  exact ⟨State.gatesOf_modGates .., fun q hq => State.gatesOf_modGates_ne _ _ hq, Nat.le_max_left .., fun _ => rfl, rfl⟩

variable {port : Nat}

theorem gateEntryAdvance_eq {e : GateEntry} (he : (s.gatesOf port).inForce[(s.gatesOf port).idx]? = some e) :
    exec (.gateEntryAdvance port) s = .next ((s.reachGptp ((s.gatesOf port).since + e.dur)).modGates port fun g =>
      { g with idx := (g.idx + 1) % (s.gatesOf port).inForce.length, since := g.since + e.dur }) := by
  show execGateEntryAdvance port s = _
  simp only [execGateEntryAdvance, he]

/-- A list of one entry that opens every gate ends the gating of a port. -/
def opensAll : List GateEntry → Bool
  | [e] => e.mask = 0xFF
  | _ => false

theorem adminGateStart_eq {a : Nat} (ha : (s.gatesOf port).adminAt = some a) : exec (.adminGateStart port) s = .next
    ((s.reachGptp a).modGates port fun g =>
      { g with admin := if opensAll (s.gatesOf port).next then [] else g.next, next := [], adminAt := none
               adminOn := !opensAll (s.gatesOf port).next, idx := 0, since := a }) := by
  show execAdminGateStart port s = _
  simp only [execAdminGateStart, ha]
  rfl

end

theorem opensAll_of_long {l : List GateEntry} (h : 1 < l.length) : opensAll l = false := by
  unfold opensAll
  split
  · simp at h
  · rfl

/-! ## FAB_GATE_SET (R274, R281) -/

/-- The first start of a cycle from a time on. -/
def firstStart (least base cyc : Nat) : Nat := if least ≤ base then base else base + (least - base + cyc - 1) / cyc * cyc

/-- It is a start of the cycle, not before that time, and none before it is. -/
theorem firstStart_spec {cyc : Nat} (hcyc : 0 < cyc) (least base : Nat) : ∃ n, firstStart least base cyc = base + n * cyc ∧
    least ≤ firstStart least base cyc ∧ ∀ j, least ≤ base + j * cyc → n ≤ j := by
  unfold firstStart
  split
  next h => exact ⟨0, by simp, h, fun _ _ => Nat.zero_le _⟩
  next h =>
    refine ⟨(least - base + cyc - 1) / cyc, rfl, ?_, fun j hj => ?_⟩
    · have := Nat.lt_div_mul_add (a := least - base + cyc - 1) hcyc
      omega
    · refine Nat.le_of_lt_succ ((Nat.div_lt_iff_lt_mul hcyc).mpr ?_)
      rw [Nat.succ_mul]
      omega

section
variable {v : State} {ps : List Byte} {port : Nat} {es : List GateEntry}

theorem fabGateSetRun_ok (w : Waiter) (i : Nat) (hes : es = gateEntries (ps.drop 16)) (hport : fieldAt ps 0 1 = port)
    (hlock : v.fabric.lock ≠ 0 ∨ fieldAt ps 2 2 ≤ 1) (hgate : (v.gatesOf port).gated = false) (hdur : ∀ e ∈ es, 200 ≤ e.dur)
    (hctl : port ∈ v.fabric.edge ∨ ∀ e ∈ es, e.mask.getLsbD 6 = true) :
    fabGateSetRun v w i ps = okay (v.modGates port fun g =>
      { g with next := es, adminAt := some (firstStart (v.gptp + 10000) (fieldAt ps 8 8) (max 1 (es.map (·.dur)).sum)) }) := by
  subst hes hport
  have hlocked : ¬(v.fabric.lock = 0 ∧ 1 < fieldAt ps 2 2) := by omega
  have hshort : (gateEntries (ps.drop 16)).any (fun e => decide (e.dur < 200)) = false := by
    simpa using hdur
  have hclosed : (!v.fabric.edge.contains (fieldAt ps 0 1) && (gateEntries (ps.drop 16)).any fun e => !e.mask.getLsbD 6) = false := by
    rcases hctl with hedge | hopen
    · simp [hedge]
    · simp only [Bool.and_eq_false_iff]
      exact .inr (by simpa using hopen)
  simp only [fabGateSetRun]
  rw [if_neg hlocked, if_neg (by simp [hgate]), if_neg (by rw [hclosed, hshort]; exact Bool.false_ne_true)]
  rfl

end

/-! ## FAB_JOB_GET (R279) -/

theorem fabJobGet_run {v : State} {b : Binding} {ps : List Byte} (w : Waiter) (i : Nat)
    (hb : (v.fabric.bindings.find? fun b => b.inst = fieldAt ps 0 1 && b.job = fieldAt ps 4 4) = some b) :
    fabJobGetSpec.run v w i ps = gives v (leBytes 2 b.rank ++ leBytes 2 b.ranktab.length ++ leBytes 4 (v.parcel b.parcel).run.b ++
      leBytes 4 (v.parcel b.parcel).run.goB ++ zeros 4) := by
  simp only [fabJobGetSpec, hb]

/-! ## ZLK_PORT (R275) -/

section
variable {s : State} {port : Nat}

theorem zlkPortWrite_eq (v : BitVec 64) (hport : port < 16) (hrail : (s.rail 6).set ≠ 0) :
    exec (.zlkPortWrite port v) s = .next (s.writeZlkPort port v) := by
  have hrow : rowIdx (0x200 + 8 * port) 0x200 8 16 = some port := rowIdx_mul hport (by decide)
  have hdis : rowIdx (0x200 + 8 * port) 0x40 8 4 = none := rowIdx_outside (by omega)
  have hne (m : Nat) (hm : m < 0x200) : ¬(0x200 + 8 * port = m) := by omega
  have hr : ∃ r, s.readBlock blkZLK (0x200 + 8 * port) = some r := by
    rw [State.readBlock_ZLK hrail]
    simp only [State.readZlk, hne 0x00 (by decide), hne 0x08 (by decide), hne 0x10 (by decide), hne 0x18 (by decide),
      hne 0x20 (by decide), hne 0x28 (by decide), if_false, hdis, hrow]
    exact ⟨_, rfl⟩
  obtain ⟨r, hr⟩ := hr
  have hw : s.writeBlock blkZLK (0x200 + 8 * port) v = s.writeZlk (0x200 + 8 * port) v := rfl
  have hp : s.writeZlk (0x200 + 8 * port) v = s.writeZlkPort port v := by
    rw [State.writeZlk, if_neg (hne 0x00 (by decide)), if_neg (hne 0x18 (by decide)), if_neg (hne 0x28 (by decide)), hrow]
  show Host.Outcome.next (s.regWrite (baseZLK + 0x200 + 8 * port) v) = _
  rw [Nat.add_assoc, State.regWrite_block v (by simp only [baseZLK]; omega) (blockAt_ZLK (by omega)) hr, hw, hp]

/-- The state whose port has its mode. -/
def State.portMode (s : State) (p : Nat) (fabric : Bool) : State :=
  { s with fabric := { s.fabric with edge := (s.fabric.edge.filter (· ≠ p)) ++ if fabric then [] else [p] } }

theorem State.mem_edge_portMode (s : State) (p : Nat) (fabric : Bool) (q : Nat) :
    q ∈ (s.portMode p fabric).fabric.edge ↔ if q = p then fabric = false else q ∈ s.fabric.edge := by
  by_cases h : q = p
  · simp [State.portMode, h]
  · simp [State.portMode, h]

/-- A link of an edge port is without its frames, its neighbours and its announce. -/
def State.leaveLink (s : State) (l : Nat) : State := ((s.purgeFabric l).dropAdjs l).dropAnnounce l

theorem State.leaveLink_heard (s : State) (l : Nat) : (s.leaveLink l).fabric.heard =
    (s.fabric.edge, s.fabric.adjs.filter (fun a => a.link ≠ l), Tbl.del s.fabric.announces l) := by
  have hadjs := (s.purgeFabric l).dropAdjs_heard l
  have hpurge : (s.purgeFabric l).fabric = s.fabric := rfl
  simp only [Fabric.heard, hpurge, Prod.mk.injEq] at hadjs
  obtain ⟨hedge, hadj, hann⟩ := hadjs
  rw [State.leaveLink, State.dropAnnounce_heard, hedge, hadj, hann]

theorem State.writeZlkPort_gated (v : BitVec 64) (h : (s.gatesOf port).gated = true) :
    s.writeZlkPort port v = s.raise blkZLK 0x5001 none (baseZLK + 0x200 + 8 * port) v.toNat := if_pos h

/-- A port that becomes an edge port leaves its four links. -/
theorem State.writeZlkPort_eq (v : BitVec 64) (h : (s.gatesOf port).gated = false) : s.writeZlkPort port v =
    if s.fabric.edge.contains port || v.getLsbD 0 then s.portMode port (v.getLsbD 0)
    else (List.range 4).foldl (fun s k => s.leaveLink (4 * port + k)) (s.portMode port (v.getLsbD 0)) :=
  if_neg (by simp [h])

theorem foldl_leaveLink_edge (port : Nat) (l : List Nat) (s : State) :
    (l.foldl (fun s k => s.leaveLink (4 * port + k)) s).fabric.edge = s.fabric.edge :=
  List.foldlRecOn (motive := fun t : State => t.fabric.edge = s.fabric.edge) _ _ rfl fun t ht k _ =>
    (congrArg (·.1) (t.leaveLink_heard (4 * port + k))).trans ht

/-- Nothing is known of a link's neighbours. -/
def State.Left (l : Nat) (s : State) : Prop := (∀ a ∈ s.fabric.adjs, a.link ≠ l) ∧ s.fabric.announces.find l = none

theorem State.leaveLink_left (s : State) {l m : Nat} (h : m = l ∨ s.Left l) : (s.leaveLink m).Left l := by
  have hheard := s.leaveLink_heard m
  simp only [Fabric.heard, Prod.mk.injEq] at hheard
  obtain ⟨-, hadjs, hann⟩ := hheard
  rw [State.Left, hadjs, hann]
  refine ⟨fun a ha => ?_, ?_⟩
  · obtain ⟨hin, hne⟩ := List.mem_filter.mp ha
    rcases h with rfl | hleft
    · simpa using hne
    · exact hleft.1 a hin
  · by_cases hm : l = m
    · rw [hm, Tbl.find_del_self]
    · rw [Tbl.find_del_ne _ hm]
      exact (h.resolve_left (Ne.symm hm)).2

theorem foldl_leaveLink_left {port k : Nat} (hk : k < 4) (s : State) :
    ((List.range 4).foldl (fun s k => s.leaveLink (4 * port + k)) s).Left (4 * port + k) := by
  have hleaves (s : State) (n : Nat) (h : n = k ∨ s.Left (4 * port + k)) : (s.leaveLink (4 * port + n)).Left (4 * port + k) :=
    s.leaveLink_left (h.imp_left fun e => by rw [e])
  exact foldl_establishes hleaves (.inl ⟨k, List.mem_range.mpr hk, rfl⟩)

/-! ## ZLK_DISCARD (R281) -/

/-- A read of a count clears it. -/
theorem zlkDiscardRead_eq {n : Nat} (hn : n < 4) (hrail : (s.rail 6).set ≠ 0) : exec (.zlkDiscardRead n) s = .next
    (({ s with fabric := { s.fabric with discards := s.fabric.discards.del n } } : State).emit
      (.readback (BitVec.ofNat 64 (s.fabric.discards.getD n 0)))) := by
  have hrow : rowIdx (0x40 + 8 * n) 0x40 8 4 = some n := rowIdx_mul hn (by decide)
  have hne (m : Nat) (hm : m < 0x40) : ¬(0x40 + 8 * n = m) := by omega
  have hr : s.regAt (baseZLK + 0x40 + 8 * n) = some (reg (s.fabric.discards.getD n 0),
      { s with fabric := { s.fabric with discards := s.fabric.discards.del n } }) := by
    rw [Nat.add_assoc, State.regAt_aligned (by simp only [baseZLK]; omega) (blockAt_ZLK (by omega)), State.readBlock_ZLK hrail]
    simp only [State.readZlk, hne 0x00 (by decide), hne 0x08 (by decide), hne 0x10 (by decide), hne 0x18 (by decide),
      hne 0x20 (by decide), hne 0x28 (by decide), if_false, hrow]
    rfl
  exact congrArg Host.Outcome.next (State.readOut_eq hr)

end

end Sys2Proof.Machine
end

section
open Sys2Proof Sys2Proof.Machine

/-- Settles O34: each row by the equation that says what it does, and what its last operation leaves read off that operation's rule. -/
theorem fabricTimeAndGates : Obligations.FabricTimeAndGates := by
  unfold Obligations.FabricTimeAndGates
  intro s link port dev cls c ps k g
  refine ⟨fun u x hu hx => ?rto, fun a ha => ?ackTimer, fun h => ⟨_, resyncSend_eq h, rfl⟩, fun m v hlink hfab hup hv => ?message,
    fun o l hl hlock => ?lockLoss, fun a ha => ?grandmaster, fun n a y u w hlink hfab hup hn hu ha hw hy => ?syncSend,
    fun hlink hup hnew => ⟨_, preemptionVerified_eq hlink hup hnew, rfl⟩, fun e he => ?advance, fun a ha => ?start,
    fun v es ht hv hes hport hlock hgate hdur hctl => ?gateSet, fun v b ht hv hb => ?jobGet, fun v as_ ht hv has => ?neighGet,
    fun v hport hrail => ?portWrite, fun n hn hrail => ?discard⟩
  case rto =>
    subst hx
    refine ⟨fun hcount => ⟨_, zlkRtoExpire_eq hu, if_pos hcount⟩, fun hcount => ⟨_, zlkRtoExpire_eq hu, if_neg (by omega)⟩⟩
  case ackTimer =>
    refine ⟨_, zarenAckTimer_eq ha, rfl, ?_⟩
    rw [State.sendPack_flow]
    exact ⟨rfl, rfl, rfl⟩
  case message =>
    obtain ⟨hfabric, hnow⟩ := s.countMsg_frame link m
    have hmaster : (s.countMsg link m).master = s.master := State.master_congr (by rw [hfabric]) (by rw [hfabric])
    have hrun := gptpMessageReceive_eq hlink hfab hup m
    have hv : v = s.countMsg link m := hv
    refine ⟨?_, ?_, ?_, ?_, ?_, ?_⟩
    · rintro o rfl hl
      refine ⟨_, hrun.trans (congrArg Host.Outcome.next (if_pos (by rw [hmaster, hl]))), ?_⟩
      obtain ⟨hoff, hlast, hsync⟩ := (s.countMsg link (.sync o)).takeSync_steers o
      rw [hoff, hlast, hsync, hnow, hfabric]
      refine ⟨rfl, rfl, rfl, fun h => ?_, fun h => State.takeSync_bad h _, fun h => State.takeSync_lost h _⟩
      have hgood := State.takeSync_good h (s.countMsg link (.sync o))
      rwa [hfabric] at hgood
    · rintro o rfl hl
      exact ⟨_, hrun.trans (congrArg Host.Outcome.next (if_neg (by rwa [hmaster]))), hv.symm⟩
    · rintro ns rfl
      refine ⟨_, hrun, ?_⟩
      dsimp only
      rw [hv, hfabric]
    · rintro n src port rfl
      refine ⟨_, hrun, ?_⟩
      dsimp only
      rw [hv, hnow]
    · rintro a rfl hfits hbetter
      refine ⟨_, hrun, _, ?_, rfl⟩
      dsimp only
      rw [State.takeAnnounce_takes hfits (by rwa [hfabric]), hmaster, hfabric, hv]
    · rintro a rfl hfits
      refine ⟨_, hrun, ?_⟩
      dsimp only
      rw [State.takeAnnounce_unfit hfits, hv]
  case lockLoss =>
    refine ⟨_, gptpLockLoss_eq o hl hlock, ?_⟩
    have hlost := ({ s with fabric := { s.fabric with lastOff := o } } : State).loseLock_beyondFlows
    have hzero := part_of_beyondFlows hlost (part := (·.lock))
    have hgood := part_of_beyondFlows hlost (part := (·.goodSync))
    have hoff := part_of_beyondFlows hlost (part := (·.lastOff))
    split
    next hfar => exact ⟨hzero, hgood, hoff, fun hnear => by omega⟩
    next =>
      obtain ⟨hzero', hgood', hoff'⟩ := State.dropAnnounce_unlocked hzero hgood l
      exact ⟨hzero', hgood', hoff'.trans hoff, fun _ => State.dropAnnounce_find ..⟩
  case grandmaster =>
    refine ⟨_, grandmasterLock_eq ha, ?_⟩
    split
    · exact ⟨rfl, rfl, fun _ => rfl, rfl⟩
    · exact ⟨rfl, rfl, fun _ => rfl, rfl⟩
  case syncSend =>
    subst hn ha hy
    have hu' : u = s.sendGptp link 2 (.pdelayReq (s.gptpNumber link 2)) := hu
    have hw' : w = u.sendGptp link 1 (.announce (s.gptpNumber link 1) (s.announceOn link)) := hw
    obtain ⟨hnum1, hnum0⟩ :=
      s.sendGptp_starts link (.pdelayReq (s.gptpNumber link 2)) (.announce (s.gptpNumber link 1) (s.announceOn link))
    obtain ⟨hport, hann, hmaster, hsynced⟩ :=
      s.sendGptp_decides link (.pdelayReq (s.gptpNumber link 2)) (.announce (s.gptpNumber link 1) (s.announceOn link))
    rw [← hu'] at hnum1 hnum0 hport hann hmaster hsynced
    rw [← hw'] at hnum0 hmaster hsynced
    have hrun := gptpSyncSend_eq (w := w) hlink hfab hup hu' (by rw [hnum1, hann, hw'])
    rw [hport, hmaster, hsynced, hnum0] at hrun
    refine ⟨fun hp => ⟨_, hrun, ?_⟩, fun hp hm hs => ⟨_, hrun, ?_⟩, fun hp hm => ⟨_, hrun, ?_⟩⟩
    · simp [hp]
    · simp [hp, hm, hs]
    · rw [if_neg (by simp [hp]), if_neg (by rcases hm with hm | hm <;> simp [hm])]
      rfl
  case advance =>
    obtain ⟨hgates, hothers, hlater, hmem, hfacets⟩ := s.reachGptp_modGates (g.since + e.dur) port fun g' =>
      { g' with idx := (g'.idx + 1) % g.inForce.length, since := g'.since + e.dur }
    exact ⟨_, gateEntryAdvance_eq he, hgates, hothers, hlater, hmem, hfacets⟩
  case start =>
    obtain ⟨hgates, hothers, -, hmem, -⟩ := s.reachGptp_modGates a port fun g' =>
      { g' with admin := if opensAll g.next then [] else g'.next, next := [], adminAt := none
                adminOn := !opensAll g.next, idx := 0, since := a }
    refine ⟨_, adminGateStart_eq ha, hothers, hmem, ?_⟩
    rw [hgates]
    refine ⟨rfl, rfl, rfl, fun e he hmask => ?_, fun hlong => ?_⟩
    · simp [he, opensAll, hmask]
    · rw [opensAll_of_long hlong]
      exact ⟨rfl, rfl⟩
  case gateSet =>
    subst hv
    obtain ⟨n, hn, hleast, hfirst⟩ := firstStart_spec (cyc := max 1 (es.map (·.dur)).sum) (by omega)
      ((s.entered fabGateSetSpec c).gptp + 10000) (fieldAt ps 8 8)
    exact succeeds_of rfl ht (fabGateSetRun_ok (s.waiterOf c) (s.senderOf c) hes hport hlock hgate hdur hctl) ⟨_, n,
      State.gatesOf_modGates .., hn, hleast, hfirst, fun q hq => State.gatesOf_modGates_ne _ _ hq, fun _ => rfl⟩
  case jobGet =>
    subst hv
    exact succeeds_of rfl ht (fabJobGet_run (s.waiterOf c) (s.senderOf c) hb) rfl
  case neighGet =>
    subst hv has
    exact succeeds_of rfl ht rfl rfl
  case portWrite =>
    refine ⟨fun hgated => ⟨_, zlkPortWrite_eq v hport hrail, State.writeZlkPort_gated v hgated⟩, fun hgated => ?_⟩
    refine ⟨_, zlkPortWrite_eq v hport hrail, ?_⟩
    rw [State.writeZlkPort_eq v hgated]
    split
    next hstays =>
      refine ⟨?_, fun q hq => ?_, fun _ => ⟨fun _ => rfl, rfl⟩, fun hv hnot => ?_⟩
      · simp [State.mem_edge_portMode]
      · simp [State.mem_edge_portMode, hq]
      · exact absurd hstays (by rw [hv]; simp [hnot])
    next hleaves =>
      rw [foldl_leaveLink_edge]
      refine ⟨?_, fun q hq => ?_, fun h => ?_, fun _ _ j hj => foldl_leaveLink_left hj _⟩
      · simp [State.mem_edge_portMode]
      · simp [State.mem_edge_portMode, hq]
      · exact absurd (by simpa using h.symm) hleaves
  case discard =>
    exact ⟨_, zlkDiscardRead_eq hn hrail, _, rfl, Tbl.getD_del_self .., fun m hm => Tbl.getD_del_ne _ hm .., fun _ => rfl, rfl⟩

end

section
/-! PROOF. The rule that classifies a frame (R293, R295). -/

namespace Sys2Proof.Machine

/-! ## The order of the rules that match (R295) -/

/-- A slot with its rule comes no later than another: a lower priority, or the same and no higher slot. -/
def NoLater (e x : Nat × Rule) : Prop := e.2.prio < x.2.prio ∨ (e.2.prio = x.2.prio ∧ e.1 ≤ x.1)

theorem NoLater.refl (e : Nat × Rule) : NoLater e e := .inr ⟨rfl, Nat.le_refl _⟩

theorem NoLater.trans {e x y : Nat × Rule} (h : NoLater e x) (g : NoLater x y) : NoLater e y := by
  unfold NoLater at *
  omega

/-- Of the best rule so far and the next slot's rule, the one that stays. -/
def keepBest (best : Option (Nat × Rule)) (e : Nat × Rule) : Option (Nat × Rule) :=
  match best with
  | none => some e
  | some b => if e.2.prio < b.2.prio then some e else some b

/-- The better of two slots stays, and it comes no later than the lower slot or the higher. -/
theorem keepBest_some {b y : Nat × Rule} (h : b.1 < y.1) :
    ∃ c, keepBest (some b) y = some c ∧ (c = b ∨ c = y) ∧ NoLater c b ∧ NoLater c y := by
  by_cases hp : y.2.prio < b.2.prio
  · exact ⟨y, if_pos hp, .inr rfl, .inl hp, .refl y⟩
  · refine ⟨b, if_neg hp, .inl rfl, .refl b, ?_⟩
    unfold NoLater
    omega

/-- Over slots in rising order, the best is one of them and comes no later than any. -/
theorem foldl_keepBest_least : ∀ (l : List (Nat × Rule)) (b : Nat × Rule), (b :: l).Pairwise (·.1 < ·.1) →
    ∃ e, l.foldl keepBest (some b) = some e ∧ e ∈ b :: l ∧ ∀ x ∈ b :: l, NoLater e x
  | [], b, _ => ⟨b, rfl, List.mem_singleton_self b, fun _ hx => List.mem_singleton.mp hx ▸ .refl b⟩
  | y :: l, b, h => by
    obtain ⟨hb, hl⟩ := List.pairwise_cons.mp h
    obtain ⟨hy, hrest⟩ := List.pairwise_cons.mp hl
    obtain ⟨c, hkeep, hc, hcb, hcy⟩ := keepBest_some (hb y List.mem_cons_self)
    have hrises : (c :: l).Pairwise (·.1 < ·.1) :=
      List.pairwise_cons.mpr ⟨fun x hx => by
        rcases hc with rfl | rfl
        · exact hb x (List.mem_cons_of_mem _ hx)
        · exact hy x hx, hrest⟩
    obtain ⟨e, hfold, he, hleast⟩ := foldl_keepBest_least l c hrises
    have hec := hleast c List.mem_cons_self
    refine ⟨e, by rw [List.foldl_cons, hkeep, hfold], ?_, fun x hx => ?_⟩
    · rcases List.mem_cons.mp he with rfl | he
      · rcases hc with rfl | rfl <;> simp
      · simp [he]
    · rcases List.mem_cons.mp hx with rfl | hx
      · exact hec.trans hcb
      · rcases List.mem_cons.mp hx with rfl | hx
        · exact hec.trans hcy
        · exact hleast x (List.mem_cons_of_mem _ hx)

/-! ## The rules that match a key (R293) -/

/-- The slots of a die and stage whose rule matches a key, for the owner named if there is one. -/
def State.matching (s : State) (die stage : Nat) (owner : Option Nat) (key : List Byte) : List (Nat × Rule) :=
  s.eth.rules.filter fun e => e.1 / 16384 = die && e.2.stage = stage &&
    (match owner with | some o => e.2.owner = o | none => true) && e.2.matches key

theorem State.bestRule_eq (s : State) (die stage : Nat) (owner : Option Nat) (key : List Byte) :
    s.bestRule die stage owner key = (s.matching die stage owner key).foldl keepBest none := rfl

theorem State.mem_matching {s : State} {die stage : Nat} {owner : Option Nat} {key : List Byte} {e : Nat × Rule} :
    e ∈ s.matching die stage owner key ↔ e ∈ s.eth.rules ∧ e.1 / 16384 = die ∧ e.2.stage = stage ∧
      (∀ o, owner = some o → e.2.owner = o) ∧ List.zipWith (fun (k m : Byte) => k &&& m) key e.2.mask = e.2.value := by
  cases owner <;> simp [State.matching, Rule.matches, and_assoc]

theorem State.matching_rises {s : State} (h : (s.eth.rules.map (·.1)).Pairwise (· < ·)) (die stage : Nat) (owner : Option Nat)
    (key : List Byte) : (s.matching die stage owner key).Pairwise (·.1 < ·.1) :=
  (List.pairwise_map.mp h).filter _

end Sys2Proof.Machine

open Sys2Proof Sys2Proof.Machine

/-- Settles O35: of the rules that match, in the rising order of their slots, the choice keeps the one that comes no later than any. -/
theorem bestRuleWins : Obligations.BestRuleWins := by
  unfold Obligations.BestRuleWins
  intro s die stage owner key hrises fits
  have hsorted := State.matching_rises hrises die stage owner key
  rw [State.bestRule_eq]
  cases hm : s.matching die stage owner key with
  | nil =>
    refine ⟨fun e he => (Option.some_ne_none e he.symm).elim, fun _ x hx hfits => ?_⟩
    have hin : x ∈ s.matching die stage owner key := State.mem_matching.mpr ⟨hx, hfits⟩
    rw [hm] at hin
    exact List.not_mem_nil hin
  | cons b l =>
    rw [hm] at hsorted
    obtain ⟨c, hfold, hc, hleast⟩ := foldl_keepBest_least l b hsorted
    rw [← hm] at hc hleast
    have hbest : (b :: l).foldl keepBest none = some c := hfold
    refine ⟨fun e he => ?_, fun hnone => (Option.some_ne_none c (hbest.symm.trans hnone)).elim⟩
    obtain rfl : c = e := Option.some.inj (hbest.symm.trans he)
    obtain ⟨hin, hfits⟩ := State.mem_matching.mp hc
    exact ⟨hin, hfits, fun x hx hxfits => hleast x (State.mem_matching.mpr ⟨hx, hxfits⟩)⟩

end

section
/-! PROOF. Frames at a MAC and at the management port (R286 to R288, R295, R299, R301, R302). -/

namespace Sys2Proof.Machine

/-! ## A MAC of an awake device -/

/-- A link of a device at Run or Idle, with no frame held and no change of rung under way. -/
structure MacAwake (s : State) (link : Nat) : Prop where
  inRange  : link < 64
  up       : (s.link link).state = .up
  rung     : s.power.rung < 2
  exiting  : s.power.exiting = false
  entering : s.power.entering = none
  held     : s.power.held = []

theorem State.releaseFrames_of_none {s : State} (h : s.power.held = []) : s.releaseFrames = s := by
  have hs : ({ s with power := { s.power with held := [] } } : State) = s := by rw [← h]
  simp [State.releaseFrames, h, hs]

theorem State.wakeDeep_of_awake {s : State} (hr : s.power.rung < 2) (he : s.power.entering = none) (hx : s.power.exiting = false) :
    s.wakeDeep = s :=
  if_neg (by simp [he, hx]; omega)

section
variable {s : State} {link : Nat} {fr : EthFrame} (h : MacAwake s link)
include h

theorem MacAwake.frameReceive : exec (.frameReceive link fr) s = .next (s.frameArrives link fr) := by
  have hgone : ¬(64 ≤ link ∨ (s.link link).state ≠ .up ∨ 3 ≤ s.power.rung) := by
    have := h.inRange
    have := h.rung
    rintro (_ | hdown | _)
    · omega
    · exact hdown h.up
    · omega
  show execFrameReceive link fr s = _
  simp [execFrameReceive, hgone, h.exiting, State.releaseFrames_of_none h.held]

end

/-! ## The checks of the MAC (R286, R287) -/

section
variable {s : State} {link : Nat} {fr : EthFrame}

theorem State.frameArrives_bad (h : fr.fcsOk = false ∨ fr.phyOk = false) :
    s.frameArrives link fr = s.modLink link fun x => { x with cnt := x.cnt.bump 2 } := by
  simp [State.frameArrives, h]

variable (hf : fr.fcsOk = true) (hp : fr.phyOk = true)
include hf hp

theorem State.frameArrives_wrongSize (h : fr.bytes.length + 4 < 64 ∨ s.linkLimit link < fr.bytes.length + 4) :
    s.frameArrives link fr = s.modLink link fun x => { x with cnt := x.cnt.bump 3 } := by
  simp only [State.frameArrives, hf, hp, Bool.not_true, Bool.or_self, Bool.false_eq_true, if_false]
  exact if_pos h

variable (hmin : 64 ≤ fr.bytes.length + 4) (hmax : fr.bytes.length + 4 ≤ s.linkLimit link) (hedge : s.fabricLink link = false)
include hmin hmax hedge

/-- A sound frame at an edge-mode port is counted; MAC control is dropped, and any other goes on unless the device is waking. -/
theorem State.frameArrives_sound (hx : s.power.exiting = false) : s.frameArrives link fr =
    if wordAt fr.bytes 12 2 = 0x8808 then (s.countRx link (fr.bytes.length + 4)).netDrop (dieOfLink link) 7
    else (s.countRx link (fr.bytes.length + 4)).frameOn link fr := by
  have hx' : (s.countRx link (fr.bytes.length + 4)).power.exiting = false := hx
  have hsize : ¬(fr.bytes.length + 4 < 64 ∨ s.linkLimit link < fr.bytes.length + 4) := by omega
  simp [State.frameArrives, hf, hp, hsize, hedge, hx']

end

theorem State.frameOn_awake {s : State} (hr : s.power.rung < 2) (he : s.power.entering = none) (hx : s.power.exiting = false)
    (link : Nat) (fr : EthFrame) : s.frameOn link fr = s.frameIn link false fr.time fr.bytes := by
  simp [State.frameOn, State.wakeDeep_of_awake hr he hx]

/-- A frame that the MAC of an awake device's edge-mode port passes on, and that does not go to the remote-memory engine, is done with
when it is classified. -/
theorem MacAwake.classified {s u : State} {link : Nat} {fr : EthFrame} (h : MacAwake s link) (hf : fr.fcsOk = true)
    (hp : fr.phyOk = true) (hmin : 64 ≤ fr.bytes.length + 4) (hmax : fr.bytes.length + 4 ≤ s.linkLimit link)
    (hedge : s.fabricLink link = false) (hmac : wordAt fr.bytes 12 2 ≠ 0x8808)
    (hc : (s.countRx link (fr.bytes.length + 4)).classify link false fr.time fr.bytes = (u, none)) :
    exec (.frameReceive link fr) s = .next u := by
  rw [h.frameReceive, State.frameArrives_sound hf hp hmin hmax hedge h.exiting, if_neg hmac,
    State.frameOn_awake (s := s.countRx link (fr.bytes.length + 4)) h.rung h.entering h.exiting, State.frameIn, hc]

/-! ## Classification (R295, R299) -/

section
variable {s : State} {link time : Nat} {bs key : List Byte}
  (hkey : key = keyOf bs (s.parse link bs) link (s.port (portOf link)).l3sel false)
include hkey

/-- With no rule, and no RoCEv2 for the engine, a port whose default is NONE drops the frame. -/
theorem State.classify_noRule (hnone : s.bestRule (dieOfLink link) 1 none key = none)
    (hroce : (s.port (portOf link)).roce = false ∨ byteAt key 2 / 32 ≠ 4) (hdefault : (s.port (portOf link)).dverdict = 0) :
    s.classify link false time bs = (s.netDrop (dieOfLink link) 0, none) := by
  have hengine : ((s.port (portOf link)).roce && decide (byteAt key 2 / 32 = 4)) = false := by
    rcases hroce with hroce | hroce <;> simp [hroce]
  simp only [State.classify, ← hkey, hnone, hengine, hdefault]
  rfl

end

/-! ### A plain QUEUE rule (R295 to R301) -/

theorem actFlag_of_zero {a : List Byte} (h : fieldAt a 1 1 = 0) (n : Nat) : actFlag a n = false := by
  simp [actFlag, h, bitAt]

theorem fieldAt_slice (bs : List Byte) (off n : Nat) (h : 1 ≤ n) : fieldAt (slice bs off n) 0 1 = fieldAt bs off 1 := by
  simp [fieldAt, slice, List.take_take, Nat.min_eq_left h]

/-- An edit with code 0 leaves the frame. -/
theorem applyEdit_none (bs : List Byte) (tpid2 : Nat) {e : List Byte} (h : fieldAt e 0 1 = 0) : applyEdit bs tpid2 e = some bs := by
  simp [applyEdit, h]

/-- A QUEUE rule that neither counts, meters, mirrors, edits nor sets a class. -/
structure PlainQueue (r : Rule) : Prop where
  verdict : actVerdict r.action = 1
  flags   : fieldAt r.action 1 1 = 0
  edit0   : fieldAt r.action 8 1 = 0
  edit1   : fieldAt r.action 16 1 = 0

section
variable {s : State} {link time k q : Nat} {bs key : List Byte} {r : Rule} {x : RxQueue}
  (hkey : key = keyOf bs (s.parse link bs) link (s.port (portOf link)).l3sel false)
  (hrule : s.bestRule (dieOfLink link) 1 none key = some (k, r)) (hplain : PlainQueue r)
  (hq : q = actTarget r.action % 4096) (hx : s.eth.queues.find q = some x)
  (htwo : s.bestRule (dieOfLink link) 2 (some x.inst) key = none)
include hkey hrule hplain hq hx htwo

/-- Where no rule of the second stage matches, the frame goes to the queue as it came. -/
theorem State.classify_plainQueue : s.classify link false time bs = s.deliver (.queue q (some x.inst)) (some r.owner)
    { link, flags := 0, rule1 := k, rule2 := 0xFFFFFFFF, kinds := slice key 1 3, time } (bs.length + 4) bs := by
  subst hq
  have hflag := actFlag_of_zero hplain.flags
  have hedit0 (b : List Byte) (tp : Nat) := applyEdit_none b tp ((fieldAt_slice r.action 8 8 (by decide)).trans hplain.edit0)
  have hedit1 (b : List Byte) (tp : Nat) := applyEdit_none b tp ((fieldAt_slice r.action 16 8 (by decide)).trans hplain.edit1)
  simp [State.classify, ← hkey, hrule, State.countRule, State.meterRule, hflag, hx, hplain.verdict, htwo, hedit0, hedit1, verdictOf, bit]

end

/-! ## A frame at its receive queue (R301, R302) -/

/-- The state with another receive queue. -/
def State.putRxQueue (s : State) (q : Nat) (y : RxQueue) : State := { s with eth := { s.eth with queues := s.eth.queues.put q y } }

/-- The bytes of a ring that a frame's record takes. -/
def rxRoom (bs : List Byte) : Nat := (32 + bs.length + 63) / 64 * 64

/-- The number of the next record: a pad record before it takes one. -/
def RxQueue.nextSeq (x : RxQueue) (n : Nat) : Nat := if decide (x.len < x.prod + n) then x.seq + 1 else x.seq

theorem RxQueue.nextSeq_eq (x : RxQueue) (n : Nat) : x.nextSeq n = if x.len < x.prod + n then x.seq + 1 else x.seq := by
  simp [RxQueue.nextSeq]

/-- What becomes of a frame by the answer of its queue's ring. -/
def State.rxTaken (s : State) (q : Nat) (x : RxQueue) (seq : Nat) : RingPut → Enqueue
  | .ok u prod => .written (u.putRxQueue q { x with prod, seq := (seq + 1) % 2 ^ 64 })
  | .full => .full (s.putRxQueue q { x with drops := min 0xFFFFFFFF (x.drops + 1) })
  | .bad u => .noQueue ((u.putRxQueue q { x with error := true }).raise blkNET 0x6004 (some x.inst) q 0)

section
variable {s u : State} {q rx prod : Nat} {x : RxQueue} {f : RxInfo} {bs : List Byte} {owner : Option Nat}
  (hx : s.eth.queues.find q = some x)
include hx

/-- A queue in error takes no frame. -/
theorem State.deliver_error (h : x.error = true) :
    s.deliver (.queue q (some x.inst)) owner f rx bs = (s.netDrop (dieOfLink f.link) 3, none) := by
  simp [State.deliver, State.enqueue, hx, h]

variable (herr : x.error = false)
include herr

/-- Nor does one whose instance is not Active or has another generation. -/
theorem State.deliver_stale (h : s.isActive x.inst = false ∨ s.genOf x.inst ≠ x.gen) :
    s.deliver (.queue q (some x.inst)) owner f rx bs = (s.netDrop (dieOfLink f.link) 4, none) := by
  simp [State.deliver, State.enqueue, hx, herr, h]

variable (hactive : s.isActive x.inst = true) (hgen : s.genOf x.inst = x.gen)
include hactive hgen

/-- A queue that serves offers the record to its ring. -/
theorem State.enqueue_serves : s.enqueue q (some x.inst) f bs = s.rxTaken q x (x.nextSeq (rxRoom bs))
    (s.ringPut clsNet x.inst x.ring x.len x.prod 64 (rxRecord f (x.nextSeq (rxRoom bs)) bs) (rxPad x.seq)) := by
  simp only [State.enqueue, hx]
  rw [if_neg (by simp [herr]), if_neg (by simp [hactive, hgen])]
  rfl

/-- The record is in the ring, and its bytes are charged to the instance. -/
theorem State.deliver_written (hput : s.ringPut clsNet x.inst x.ring x.len x.prod 64 (rxRecord f (x.nextSeq (rxRoom bs)) bs)
      (rxPad x.seq) = .ok u prod) : s.deliver (.queue q (some x.inst)) owner f rx bs =
    ((u.putRxQueue q { x with prod, seq := (x.nextSeq (rxRoom bs) + 1) % 2 ^ 64 }).charge x.inst 3 rx, none) := by
  simp [State.deliver, State.enqueue_serves hx herr hactive hgen, hput, State.rxTaken, hx]

/-- A full ring drops the frame, under the queue's count and the die's. -/
theorem State.deliver_full (hput : s.ringPut clsNet x.inst x.ring x.len x.prod 64 (rxRecord f (x.nextSeq (rxRoom bs)) bs)
      (rxPad x.seq) = .full) : s.deliver (.queue q (some x.inst)) owner f rx bs =
    ((s.putRxQueue q { x with drops := min 0xFFFFFFFF (x.drops + 1) }).netDrop (dieOfLink f.link) 2, none) := by
  simp [State.deliver, State.enqueue_serves hx herr hactive hgen, hput, State.rxTaken]

end

/-! ## The management port (R288) -/

theorem sha256_length (m : List Byte) : (sha256 m).length = 32 := by
  simp [sha256, beBytes]

theorem mgmtMac_length : mgmtMac.length = 6 := by
  simp [mgmtMac, deviceKey, sha256_length]

/-- The bytes between two others. -/
theorem slice_between {l a b c : List Byte} {off n : Nat} (h : l = a ++ (b ++ c)) (ha : a.length = off) (hb : b.length = n) :
    slice l off n = b := by
  rw [h, slice, List.drop_left' ha, List.take_left' hb]

/-- What follows the EtherType of an ARP request (RFC 826). -/
def arpBody (src et ip : List Byte) : List Byte := [0, 1, 8, 0, 6, 4, 0, 1] ++ (src ++ (et ++ (zeros 6 ++ ip)))

/-- An ARP request to the port, for an address. -/
def arpRequest (src et ip : List Byte) : List Byte := mgmtMac ++ (src ++ ([8, 6] ++ arpBody src et ip))

/-- The port's answer to an ARP request. -/
def arpReply (src et ip : List Byte) : List Byte :=
  src ++ mgmtMac ++ [8, 6, 0, 1, 8, 0, 6, 4, 0, 2] ++ mgmtMac ++ ip ++ src ++ et

/-- A frame to neither the port nor a group is not taken. -/
theorem mgmtFrameReceive_other {s : State} {fr : List Byte} (hto : fr.take 6 ≠ mgmtMac) (hone : (fr.getD 0 0).getLsbD 0 = false) :
    exec (.mgmtFrameReceive fr) s = .next s := by
  have hfirst : ((fr.take 6).getD 0 0).getLsbD 0 = false := by
    cases fr <;> exact hone
  show execMgmtFrameReceive fr s = _
  simp only [execMgmtFrameReceive, hto, hfirst]
  simp

section
variable {s : State} {src et ip : List Byte} (hsrc : src.length = 6) (het : et.length = 4) (hip : ip.length = 4)
include hsrc het hip

theorem State.mgmtArp_answers (hmine : s.isMgmt4 ip = true) : s.mgmtArp src (arpBody src et ip) =
    s.emit (.mgmt (padTo 60 (arpReply src et ip))) := by
  have hhead : slice (arpBody src et ip) 0 8 = [0, 1, 8, 0, 6, 4, 0, 1] := slice_between (a := []) rfl rfl rfl
  have hsha : slice (arpBody src et ip) 8 6 = src := slice_between rfl rfl hsrc
  have hspa : slice (arpBody src et ip) 14 4 = et :=
    slice_between (a := [0, 1, 8, 0, 6, 4, 0, 1] ++ src) (by simp [arpBody]; rfl) (by simp [hsrc]) het
  have htpa : slice (arpBody src et ip) 24 4 = ip :=
    slice_between (a := [0, 1, 8, 0, 6, 4, 0, 1] ++ src ++ et ++ zeros 6) (c := []) (by simp [arpBody])
      (by simp [hsrc, het]) hip
  have hlen : 28 ≤ (arpBody src et ip).length := by
    simp [arpBody, hsrc, het, hip]
  have hsends : s.mgmtArp src (arpBody src et ip) =
      s.mgmtSend src 0x0806 ([0, 1, 8, 0, 6, 4, 0, 2] ++ mgmtMac ++ ip ++ src ++ et) := by
    simp [State.mgmtArp, hhead, hsha, hspa, htpa, hlen, hmine]
  rw [hsends, State.mgmtSend, arpReply]
  simp [beBytes, leBytes]

/-- A request for an address of the port is answered. -/
theorem mgmtFrameReceive_arp (hup : s.eth.mgmtUp = true) (hrst : s.pins.phyRst = false) (hrung : s.power.rung < 2)
    (hmine : s.isMgmt4 ip = true) :
    exec (.mgmtFrameReceive (arpRequest src et ip)) s = .next (s.emit (.mgmt (padTo 60 (arpReply src et ip)))) := by
  have hto : (arpRequest src et ip).take 6 = mgmtMac := List.take_left' mgmtMac_length
  have hfrom : slice (arpRequest src et ip) 6 6 = src := slice_between rfl mgmtMac_length hsrc
  have htype : wordAt (arpRequest src et ip) 12 2 = 0x0806 := by
    have : slice (arpRequest src et ip) 12 2 = [8, 6] :=
      slice_between (a := mgmtMac ++ src) (by simp [arpRequest]; rfl) (by simp [mgmtMac_length, hsrc]) rfl
    rw [wordAt, this]
    rfl
  have hbody : (arpRequest src et ip).drop 14 = arpBody src et ip := by
    have : arpRequest src et ip = (mgmtMac ++ src ++ [8, 6]) ++ arpBody src et ip := by simp [arpRequest]
    rw [this, List.drop_left' (by simp [mgmtMac_length, hsrc])]
  have hlen : ¬(arpRequest src et ip).length < 14 := by
    simp [arpRequest, mgmtMac_length, hsrc]
    omega
  have hawake : ¬s.power.rung = 4 := by omega
  show execMgmtFrameReceive (arpRequest src et ip) s = _
  simp [execMgmtFrameReceive, hup, hrst, hto, hfrom, htype, hbody, hlen, hawake, State.mgmtArp_answers hsrc het hip hmine]

end

end Sys2Proof.Machine
end

section
open Sys2Proof Sys2Proof.Machine

/-- Settles O36: a frame goes by the checks of the MAC, then by its rule, then by the state of its queue and the answer of its ring. -/
theorem frameRows : Obligations.FrameRows := by
  unfold Obligations.FrameRows
  intro s link fr hlink hup hrung hexiting hentering hheld n die
  have hawake : MacAwake s link := ⟨hlink, hup, hrung, hexiting, hentering, hheld⟩
  refine ⟨fun h => ?bad, fun hf hp h => ?wrongSize, fun hf hp hmin hmax hedge => ⟨fun hmac => ?control, ?classified⟩,
    fun et src ip hmgmt hrst hip hzero hsrc het => ?arp, fun fr hmgmt hrst hlen hto hone => ⟨_, mgmtFrameReceive_other hto hone, rfl⟩⟩
  case bad =>
    refine ⟨_, hawake.frameReceive, ?_⟩
    rw [State.frameArrives_bad h]
    exact ⟨State.link_modLink .., rfl, fun _ => rfl, rfl⟩
  case wrongSize =>
    refine ⟨_, hawake.frameReceive, ?_⟩
    rw [State.frameArrives_wrongSize hf hp h]
    exact ⟨State.link_modLink .., rfl, fun _ => rfl, rfl⟩
  case control =>
    exact ⟨_, hawake.frameReceive, by rw [State.frameArrives_sound hf hp hmin hmax hedge hexiting, if_pos hmac]⟩
  case classified =>
    rintro hmac v p key port rfl rfl rfl hkey
    refine ⟨fun hnone hroce hdefault => ⟨_, hawake.classified hf hp hmin hmax hedge hmac
      (State.classify_noRule hkey hnone hroce hdefault), rfl⟩, ?_⟩
    rintro k r hrule hverdict hflags hedit0 hedit1 q o x hq hx rfl htwo f rfl
    have hplain : PlainQueue r := ⟨hverdict, hflags, hedit0, hedit1⟩
    have hdelivered {u : State} (hu : _ = (u, none)) := hawake.classified hf hp hmin hmax hedge hmac
      ((State.classify_plainQueue (time := fr.time) hkey hrule hplain hq hx htwo).trans hu)
    refine ⟨fun herr => ⟨_, hdelivered (State.deliver_error hx herr), rfl⟩,
      fun herr hstale => ⟨_, hdelivered (State.deliver_stale hx herr hstale), rfl⟩, fun herr hactive hgen m seq hm hseq => ?_⟩
    subst hm hseq
    refine ⟨fun u prod hput => ?written, fun hput => ?full⟩
    case written =>
      rw [← rxRoom, ← x.nextSeq_eq] at hput ⊢
      exact ⟨_, hdelivered (State.deliver_written hx herr hactive hgen hput), fun _ => rfl, Tbl.find_put_self ..,
        fun j hj => Tbl.find_put_ne _ hj _⟩
    case full =>
      rw [← rxRoom, ← x.nextSeq_eq] at hput
      exact ⟨_, hdelivered (State.deliver_full hx herr hactive hgen hput), fun _ => rfl, rfl, Tbl.find_put_self ..⟩
  case arp =>
    have hmine : s.isMgmt4 ip = true := by simp [State.isMgmt4, ← hip, hzero]
    have hlen : ip.length = 4 := hip ▸ length_leBytes ..
    have hframe : mgmtMac ++ src ++ [8, 6, 0, 1, 8, 0, 6, 4, 0, 1] ++ src ++ et ++ zeros 6 ++ ip = arpRequest src et ip := by
      simp [arpRequest, arpBody]
    rw [hframe]
    exact ⟨_, mgmtFrameReceive_arp hsrc het hlen hmgmt hrst (by omega) hmine, rfl⟩

end

section
/-! PROOF. Device memory, the host link, the rails and the facets leave what the MACs hold as it is (R32, R154, R223, R428). -/

namespace Sys2Proof.Machine

/-! ## What the MACs hold -/

/-- The ports, links, rules and receive queues, and the transmitters of the links. -/
abbrev Macs := Eth × Tbl LinkTx

/-- What the MACs of a state hold. -/
def State.macs (s : State) : Macs := (s.eth, s.traffic.tx)

@[simp] theorem State.macs_mk {now mem emitted loupe faults facets mesh hbm gather parcels rings insts acct chans fabric eth traffic
    rma storage pcie cipher power boot pins free pending} :
    State.macs ⟨now, mem, emitted, loupe, faults, facets, mesh, hbm, gather, parcels, rings, insts, acct, chans, fabric, eth, traffic,
      rma, storage, pcie, cipher, power, boot, pins, free, pending⟩ = (eth, traffic.tx) := (rfl)

@[simp] theorem State.macs_parts (s : State) : (s.eth, s.traffic.tx) = s.macs := rfl

@[simp] theorem State.macs_ite {c : Prop} {_ : Decidable c} (s t : State) :
    (if c then s else t).macs = if c then s.macs else t.macs := apply_ite ..

/-- Folding a function that leaves the MACs as they are leaves them. -/
@[simp] theorem foldl_macs {α : Type} {g : State → α → State} (hg : ∀ s x, (g s x).macs = s.macs) (l : List α)
    (s : State) : (l.foldl g s).macs = s.macs :=
  List.foldlRecOn (motive := fun t : State => t.macs = s.macs) _ _ rfl fun t ht x _ => (hg t x).trans ht

/-- Folding over a state and a result at its side. -/
theorem foldl_fst_macs {α β : Type} {g : State × β → α → State × β} (hg : ∀ r x, (g r x).1.macs = r.1.macs)
    (l : List α) (r : State × β) : (l.foldl g r).1.macs = r.1.macs :=
  List.foldlRecOn (motive := fun t : State × β => t.1.macs = r.1.macs) _ _ rfl fun t ht x _ => (hg t x).trans ht

/-- A state that an equation names as part of an answer. -/
theorem macs_fst {α : Type} {p : State × α} {t : State} {x : α} (e : p = (t, x)) : t.macs = p.1.macs := by rw [e]

/-! ## Parts of the state by number, and the records -/

section
variable (s : State) (n : Nat)

@[simp] theorem State.modFacet_macs (g : Facet → Facet) : (s.modFacet n g).macs = s.macs := (rfl)
@[simp] theorem State.modParcel_macs (g : Parcel → Parcel) : (s.modParcel n g).macs = s.macs := (rfl)
@[simp] theorem State.modRun_macs (g : Run → Run) : (s.modRun n g).macs = s.macs := (rfl)
@[simp] theorem State.modCkp_macs (g : Ckp → Ckp) : (s.modCkp n g).macs = s.macs := (rfl)
@[simp] theorem State.modChan_macs (g : Channel → Channel) : (s.modChan n g).macs = s.macs := (rfl)
@[simp] theorem State.modStack_macs (g : Stack → Stack) : (s.modStack n g).macs = s.macs := (rfl)
@[simp] theorem State.modMemDie_macs (g : MemDie → MemDie) : (s.modMemDie n g).macs = s.macs := (rfl)
@[simp] theorem State.modFlow_macs (g : Flow → Flow) : (s.modFlow n g).macs = s.macs := (rfl)
@[simp] theorem State.modFn_macs (g : PceFn → PceFn) : (s.modFn n g).macs = s.macs := (rfl)
@[simp] theorem State.modPField_macs (g : PField → PField) : (s.modPField n g).macs = s.macs := (rfl)
@[simp] theorem State.emit_macs (o : Out) : (s.emit o).macs = s.macs := (rfl)
@[simp] theorem State.charge_macs (k by_ : Nat) : (s.charge n k by_).macs = s.macs := (rfl)
@[simp] theorem State.raise_macs (code : Nat) (inst : Option Nat) (p0 p1 : Nat) (extra : List Byte) :
    (s.raise n code inst p0 p1 extra).macs = s.macs := (rfl)

@[simp] theorem State.bankAccess_macs (m : Nat) (write : Bool) (off k : Nat) : (s.bankAccess n m write off k).macs = s.macs := (rfl)
@[simp] theorem State.discardBytes_macs (k : Nat) : (s.discardBytes n k).macs = s.macs := (rfl)

end

/-- A unit that changed only its power, its records and its outputs has the MACs it had. -/
theorem PowerOnly.macs {s t : State} (h : PowerOnly s t) : t.macs = s.macs := by obtain ⟨_, _, _, rfl⟩ := h; rfl

/-! ## Device memory and the scratchpads -/

section
variable (s : State)

@[simp] theorem State.storeRaw_macs (a : Nat) (bs : List Byte) : (s.storeRaw a bs).1.macs = s.macs := by
  have marked (a n : Nat) : (s.markWritten a n).macs = s.macs := by simp [State.markWritten]
  simp only [State.storeRaw, State.dropRows]
  repeat' split
  all_goals simp [marked]

theorem State.issueWrite_macs (k : Nat) : (s.issueWrite k).macs = s.macs := by
  unfold State.issueWrite
  split
  · rfl
  · simp only
    split <;> simp

@[simp] theorem State.drainHbm_macs : s.drainHbm.macs = s.macs := by
  have drained (k n : Nat) (s : State) : (s.drainStack k n).macs = s.macs := by
    induction n generalizing s with
    | zero => rfl
    | succ n ih => rw [State.drainStack, ih, State.issueWrite_macs]
  simp [State.drainHbm, drained]

@[simp] theorem State.ueLogRange_macs (cls a n : Nat) : (s.ueLogRange cls a n).macs = s.macs := by
  simp [State.ueLogRange, State.ueLog]

@[simp] theorem State.countBad_macs (f off n : Nat) : (s.countBad f off n).macs = s.macs := by
  simp [State.countBad]

@[simp] theorem State.metBad_macs (cls a n : Nat) : (s.metBad cls a n).macs = s.macs := by
  unfold State.metBad
  split <;> simp

theorem State.saveGranule_macs {s t : State} {p g : Nat} (e : s.saveGranule p g = some t) : t.macs = s.macs := by
  simp only [State.saveGranule] at e
  split at e
  · split at e
    · obtain rfl := Option.some.inj e
      simp [State.copyRaw]
    · cases e
  · cases e

theorem State.saveFor_macs {s t : State} {a n : Nat} (e : s.saveFor a n = some t) : t.macs = s.macs := by
  induction n generalizing s with
  | zero => cases e; rfl
  | succ n ih =>
    simp only [State.saveFor] at e
    split at e
    · cases e; rfl
    · split at e
      next es => exact (ih e).trans (State.saveGranule_macs es)
      next => cases e

@[simp] theorem State.store_macs (a : Nat) (bs : List Byte) : (s.store a bs).1.macs = s.macs := by
  have part (s : State) (a : Nat) (bs : List Byte) : (s.storePart a bs).1.macs = s.macs := by
    simp only [State.storePart, State.holdWrite]
    split
    · rfl
    · split
      next es => simp [State.saveFor_macs es]
      next => rfl
      next => simp
  simp only [State.store]
  split
  · split
    · refine (foldl_fst_macs (fun r e => ?_) ..).trans s.drainHbm_macs
      exact part ..
    · simp
  · simp

@[simp] theorem State.masterWrite_macs (fn bus : Nat) (bs : List Byte) : (s.masterWrite fn bus bs).macs = s.macs := by
  refine foldl_macs (fun s e => ?_) ..
  have logged : (s.logPage fn e.1).macs = s.macs := by
    simp only [State.logPage, State.logFail]
    repeat' split
    all_goals simp
  simp [logged]

@[simp] theorem State.masterParts_macs (l : List (Nat × Nat × Nat)) (bs : List Byte) : (s.masterParts l bs).macs = s.macs := by
  induction l generalizing s bs with
  | nil => rfl
  | cons _ t ih => exact (ih ..).trans (State.masterWrite_macs ..)

theorem State.saveAt_macs {s t : State} {who : Option (Nat × BitVec 16)} {a : Nat} {bs : List Byte}
    (e : s.saveAt who a bs = .ok t) : t.macs = s.macs := by
  have stored {s' : State} (e : (if (s'.store a bs).2 then Except.ok (s'.store a bs).1 else Except.error AccErr.uncorr) = .ok t) :
      t.macs = s'.macs := by
    split at e <;> cases e
    simp
  simp only [State.saveAt] at e
  split at e
  · cases e
  · split at e
    · cases e
      simp
    · cases e
  · split at e
    · cases e
      simp
    · split at e
      · cases e
      · simpa using stored e
  · split at e
    · cases e
    · exact stored e
  · split at e
    · cases e
    · exact stored e

theorem State.saveAll_macs {s t : State} {who : Option (Nat × BitVec 16)} {l : List (Nat × Nat)} {bs : List Byte}
    (e : s.saveAll who l bs = .ok t) : t.macs = s.macs := by
  induction l generalizing s bs with
  | nil => cases e; rfl
  | cons _ l ih =>
    simp only [State.saveAll] at e
    split at e
    · cases e
    next es => exact (ih e).trans (State.saveAt_macs es)

@[simp] theorem State.readBy_macs (cls i a n : Nat) : (s.readBy cls i a n).1.macs = s.macs := by
  have met (s : State) (a n : Nat) : (s.met a n).macs = s.macs := by
    unfold State.met State.metSpad
    repeat' split
    all_goals simp [State.disarm]
  have touched (m : Nat) (rs : List (Nat × Nat)) (s : State) : (s.spadTouch m rs).macs = s.macs :=
    foldl_macs (fun s x => by split <;> simp) ..
  have discarded (who : Option (Nat × BitVec 16)) (rs : List (Nat × Nat)) (s : State) : (s.discardReads who rs).macs = s.macs :=
    foldl_macs (fun s x => by split <;> simp) ..
  have charged : (s.chargeRead i a n).macs = s.macs := by
    unfold State.chargeRead
    split <;> simp [touched, met]
  unfold State.readBy
  repeat' split
  all_goals simp [charged, discarded]

@[simp] theorem State.writeBy_macs (cls i a : Nat) (bs : List Byte) : (s.writeBy cls i a bs).1.macs = s.macs := by
  have some (who : Option (Nat × BitVec 16)) (l : List (Nat × Nat)) (bs : List Byte) (s : State) :
      (s.saveSome who cls l bs).macs = s.macs := by
    induction l generalizing s bs with
    | nil => rfl
    | cons _ t ih =>
      refine (ih ..).trans ?_
      split
      next es => exact State.saveAt_macs es
      next =>
        unfold State.storeMet
        repeat' split
        all_goals simp
      next => rfl
  unfold State.writeBy
  split
  next es =>
    simp only [State.writeInst] at es
    split at es
    · cases es
    · split at es
      · cases es
      next ea =>
        cases es
        simpa using State.saveAll_macs ea
  next => split <;> simp [some]
  next => rfl

/-- What every access by an engine keeps, a ring's answer keeps in the state that it names. -/
theorem State.ringPut_leads {P : State → Prop} (hr : ∀ s cls i a n, P s → P (s.readBy cls i a n).1)
    (hw : ∀ s cls i a bs, P s → P (s.writeBy cls i a bs).1) {s : State} (h : P s) (cls i ring len prod m : Nat)
    (rec pad : List Byte) : (s.ringPut cls i ring len prod m rec pad).Leads P := by
  have wrote {s s1 : State} {a : Nat} {bs : List Byte} {x : Except AccErr Unit} (e : s.writeBy cls i a bs = (s1, x)) (h : P s) : P s1 := by
    simpa [e] using hw s cls i a bs h
  have hread := hr s cls i (ring + 8) 8 h
  simp only [State.ringPut]
  split
  next e =>
    rw [e] at hread
    exact hread
  next s1 _ e =>
    have h1 : P s1 := by simpa [e] using hread
    split
    · exact h1
    · generalize (if decide (len < prod + (padMul m rec).length) = true then len - prod + (padMul m rec).length
        else (padMul m rec).length) = need
      generalize (if decide (len < prod + (padMul m rec).length) = true then 0 else prod) = at_
      have hpad : P (if decide (len < prod + (padMul m rec).length) = true then
          s1.writeBy cls i (ring + 64 + prod) (pad.take (len - prod)) else (s1, .ok ())).1 := by
        split
        · exact hw _ _ _ _ _ h1
        · exact h1
      generalize (if decide (len < prod + (padMul m rec).length) = true then
        s1.writeBy cls i (ring + 64 + prod) (pad.take (len - prod)) else (s1, .ok ())) = padded at hpad ⊢
      split
      · trivial
      · split
        next => exact hpad
        next =>
          split
          next e => exact wrote e hpad
          next e =>
            have h2 := wrote e hpad
            split
            next e => exact wrote e h2
            next e => exact wrote e h2

theorem State.ringPut_macs (cls i ring len prod m : Nat) (rec pad : List Byte) :
    (s.ringPut cls i ring len prod m rec pad).Leads (·.macs = s.macs) :=
  State.ringPut_leads (fun s _ _ _ _ h => (s.readBy_macs ..).trans h) (fun s _ _ _ _ h => (s.writeBy_macs ..).trans h) rfl ..

end

end Sys2Proof.Machine
end


section
/-! PROOF. The frames, flits and replies that leave for another block leave the MACs as they are (R228, R230, R240, R263, R277, R305). -/

namespace Sys2Proof.Machine

section
variable (s : State)

/-! ## Frames of the fabric -/

theorem State.putZ_macs {s t : State} {z : ZFrame} {waits : Bool} (e : s.putZ z waits = .done t) : t.macs = s.macs := by
  simp only [State.putZ, State.egress, State.tmsDrop] at e
  repeat' split at e
  all_goals cases e <;> rfl

@[simp] theorem State.pumpFlow_macs (k n : Nat) : (s.pumpFlow k n).macs = s.macs := by
  have acked (s : State) (z : ZFrame) : (s.withAck z).2.macs = s.macs := by
    simp only [State.withAck]
    repeat' split
    all_goals simp
  have routeless (s : State) (z : ZFrame) : (s.noRoute z).macs = s.macs := by
    simp only [State.noRoute]
    split <;> rfl
  induction n generalizing s with
  | zero => rfl
  | succ n ih =>
    simp only [State.pumpFlow]
    split
    · rfl
    · split
      · rfl
      · split
        · simp [ih, routeless]
        · split
          · rfl
          next e => simp [ih, acked, State.putZ_macs e]

@[simp] theorem State.sendFlow_macs (z : ZFrame) : (s.sendFlow z).macs = s.macs := by
  simp [State.sendFlow]

@[simp] theorem State.ctrlTo_macs (p : Nat) (c : Cut) (rank code arg arg2 arg3 : Nat) (hash : List Byte) :
    (s.ctrlTo p c rank code arg arg2 arg3 hash).macs = s.macs := by
  simp [State.ctrlTo]

@[simp] theorem State.ctrlAll_macs (p : Nat) (c : Cut) (code arg arg2 : Nat) : (s.ctrlAll p c code arg arg2).macs = s.macs := by
  simp [State.ctrlAll]

@[simp] theorem State.ctrlChildren_macs (p : Nat) (c : Cut) (code arg arg2 arg3 : Nat) (hash : List Byte) :
    (s.ctrlChildren p c code arg arg2 arg3 hash).macs = s.macs := by
  simp [State.ctrlChildren]

/-! ## Replies -/

theorem State.mailboxPut_macs {s t : State} {ch fn : Nat} {bytes : List Byte} (e : s.mailboxPut ch fn bytes = some t) :
    t.macs = s.macs := by
  have written (s : State) (fn bus : Nat) (bs : List Byte) : (s.busWrite fn bus bs).1.macs = s.macs := by
    unfold State.busWrite
    split
    · rfl
    · simp
  have signalled (s : State) (fn v : Nat) : (s.msix fn v).macs = s.macs := by
    simp [State.msix, State.putVector]
  simp only [State.mailboxPut] at e
  split at e
  all_goals
    split at e
    · cases e
    · obtain rfl := Option.some.inj e
      simp [written, signalled]

theorem State.emitOne_macs {s t : State} {ch : Nat} {h : HeldReply} (e : s.emitOne ch h = some t) : t.macs = s.macs := by
  have numbered (s : State) : ∀ dst bytes, (s.numbered ch dst bytes).macs = s.macs := fun _ _ => rfl
  have errs (s : State) : (s.chanError ch).macs = s.macs := rfl
  have managed (s : State) (bytes : List Byte) : (s.mgmtReply h.dst bytes).macs = s.macs := by
    simp only [State.mgmtReply]
    split <;> rfl
  have carried (s : State) (bytes : List Byte) : (s.mctpReply h.dst bytes).macs = s.macs := rfl
  simp only [State.emitOne] at e
  split at e
  · cases e; rfl
  · split at e
    · split at e
      · cases e
      · split at e
        · cases e; rfl
        · exact (State.mailboxPut_macs e).trans (numbered ..)
    · split at e
      · cases e
        simp [managed, numbered]
      · split at e
        · cases e
          simp [carried, numbered]
        · split at e
          · cases e
            simp [numbered]
          · split at e
            next er =>
              cases e
              simpa [numbered] using (State.ringPut_macs ..).ok er
            next => cases e
            next er =>
              cases e
              simpa [errs] using (State.ringPut_macs ..).bad er

@[simp] theorem State.emitReply_macs (ch : Nat) (h : HeldReply) : (s.emitReply ch h).macs = s.macs := by
  have flushed (l : List HeldReply) (s : State) : (State.flushGo ch l s).macs = s.macs := by
    induction l generalizing s with
    | nil => rfl
    | cons _ t ih =>
      simp only [State.flushGo]
      split
      next e => exact (ih _).trans (State.emitOne_macs e)
      next => rfl
  have woken (s : State) (fn : Nat) : (s.pmeEvent fn).macs = s.macs := by
    simp only [State.pmeEvent]
    repeat' split
    all_goals simp
  unfold State.emitReply State.flushReplies
  repeat' split
  all_goals simp [flushed, woken]

@[simp] theorem State.finish_macs (w : Waiter) (status detail : Nat) (params : List Byte) :
    (s.finish w status detail params).macs = s.macs := by
  have finished (s : State) (ch id status detail : Nat) (params : List Byte) :
      (s.finishOne ch id status detail params).macs = s.macs := by
    unfold State.finishOne State.sendResult
    split
    · rfl
    · simp
  have aborted (ch n : Nat) (l : List (Nat × Nat)) (s : State) : (State.abortsGo ch n l s).macs = s.macs := by
    induction n generalizing s l with
    | zero => rfl
    | succ n ih =>
      cases l with
      | nil => rfl
      | cons a t => simp [State.abortsGo, ih, finished]
  simp [State.finish, State.finishAborts, finished, aborted]

end

end Sys2Proof.Machine
end


section
/-! PROOF. The end of a job, the pause of one, and the loss of a neighbour leave the MACs as they are (R149, R150, R190, R255 to R260, R271). -/

namespace Sys2Proof.Machine

section
variable (s : State)

/-! ## Jobs -/

@[simp] theorem State.refreshRails_macs : s.refreshRails.macs = s.macs := s.refreshRails_powerOnly.macs

@[simp] theorem State.account_macs (kind i parcel step : Nat) (counts : Tbl (BitVec 64)) (identity : List Byte) :
    (s.account kind i parcel step counts identity).macs = s.macs := by
  simp only [State.account]
  split
  · rfl
  · split
    next e => simpa using (State.ringPut_macs ..).ok e
    next => simp
    next e => simpa using (State.ringPut_macs ..).bad e

@[simp] theorem State.stopFacet_macs (f detail : Nat) : (s.stopFacet f detail).macs = s.macs := by
  have put (s : State) (y : Facet) : (s.putFacet f y).macs = s.macs := rfl
  have marked : (s.markExc f 0x0E 0 0 detail).macs = s.macs := by
    simp only [State.markExc]
    split <;> simp [put]
  simp [State.stopFacet, marked]

theorem State.putOutput_macs (p : Nat) (c : Cut) (step slot reason : Nat) (data : List Byte) :
    (s.putOutput p c step slot reason data).Leads (·.macs = s.macs) := by
  simp only [State.putOutput]
  split
  · rfl
  · split
    next s' _ e =>
      have h1 : s'.macs = s.macs := (State.ringPut_macs ..).ok e
      exact h1
    next => exact State.ringPut_macs ..

@[simp] theorem State.writeEnd_macs (p : Nat) : (s.writeEnd p).macs = s.macs := by
  simp only [State.writeEnd]
  split
  · split
    · split
      next e => simpa using (State.putOutput_macs ..).ok e
      next => rfl
      next e => simpa using (State.putOutput_macs ..).bad e
    · rfl
  · rfl

@[simp] theorem State.answerHeld_macs (p : Nat) (stop : Bool) : (s.answerHeld p stop).macs = s.macs := by
  simp [State.answerHeld]

@[simp] theorem State.endJob_macs (p reason rank : Nat) (send : Bool) : (s.endJob p reason rank send).macs = s.macs := by
  simp only [State.endJob]
  split
  · rfl
  · split
    · simp
    · split <;> simp

/-! ## Captures and beats -/

@[simp] theorem State.writeOver_macs (l : List (Nat × Nat)) (bs : List Byte) : (s.writeOver l bs).macs = s.macs := by
  induction l generalizing s bs with
  | nil => rfl
  | cons _ t ih => exact (ih ..).trans (State.storeRaw_macs ..)

@[simp] theorem State.saveFacet_macs (segs : List (Nat × Nat)) (f k : Nat) : (s.saveFacet segs f k).macs = s.macs := by
  have met (off n : Nat) : (s.metSpad f off n).macs = s.macs := by
    have disarmed (s : State) (l : List Nat) : (s.disarm l).macs = s.macs := rfl
    unfold State.metSpad
    split <;> simp [disarmed]
  simp [State.saveFacet, met]

theorem State.mgLast_macs (k : Nat) (fl : Flit) : (s.mgLast k fl).macs = s.macs := by
  have sent (s : State) (fl : Flit) : (s.dieSend k fl).macs = s.macs := rfl
  unfold State.mgLast
  split
  · rfl
  · split <;> simp [State.mgNack, sent]

@[simp] theorem State.performHeld_macs (h : HeldWrite) : (s.performHeld h).macs = s.macs := by
  have refused (s : State) (k st : Nat) (fl : Flit) : (s.mgRefuse k fl st).macs = s.macs := rfl
  unfold State.performHeld
  split <;> simp [State.mgLast_macs, refused]

@[simp] theorem State.freeHeld_macs (hs : List HeldWrite) : (s.freeHeld hs).macs = s.macs := by
  unfold State.freeHeld
  refine foldl_macs (fun s x => ?_) ..
  split
  · rfl
  · simp

@[simp] theorem State.ckpFail_macs (p code : Nat) : (s.ckpFail p code).macs = s.macs := by
  simp only [State.ckpFail]
  split <;> simp

@[simp] theorem State.capture_macs (p : Nat) (c : Cut) : (s.capture p c).macs = s.macs := by
  simp only [State.capture]
  split <;> simp

@[simp] theorem State.announceCkpt_macs (p : Nat) (c : Cut) (target : Nat) : (s.announceCkpt p c target).1.macs = s.macs := by
  simp only [State.announceCkpt, State.noteCkpt]
  repeat' split
  all_goals simp

@[simp] theorem State.railUpdate_macs (p t : Nat) (fs : List Nat) (timed late : Bool) :
    (s.railUpdate p t fs timed late).1.macs = s.macs := by
  have field (s : State) (p f sl t : Nat) (timed late : Bool) : (s.railField p f sl t timed late).1.macs = s.macs := by
    have put (s : State) (d : Demand) : (s.putDemand p f d).macs = s.macs := rfl
    simp only [State.railField, put]
    repeat' split
    all_goals simp
  refine foldl_fst_macs (fun r f => ?_) _ _
  split
  · rfl
  · simp [field]

theorem State.coldStart_macs (p : Nat) : (s.coldStart p).macs = s.macs := by
  have put (s : State) (f : Nat) (d : Demand) : (s.putDemand p f d).macs = s.macs := rfl
  simp [State.coldStart, put]

theorem State.everyTarget_macs (p : Nat) (c : Cut) : (s.everyTarget p c).macs = s.macs := by
  simp only [State.everyTarget]
  split <;> simp

@[simp] theorem State.closeBeat_macs (p : Nat) : (s.closeBeat p).macs = s.macs := by
  have lagged (s : State) (f act : Nat) : (s.lag p f act).macs = s.macs := rfl
  unfold State.closeBeat
  extract_lets x r stop se fs resumed paused s0
  split
  · rfl
  · extract_lets clock t tardy
    have h0 : s0.macs = s.macs := by simp [s0]
    split
    next s1 acts e =>
      have h1 : s1.macs = s.macs := by simpa [macs_fst e] using h0
      extract_lets s2 s3 s4 s5 s6
      have h2 : s2.macs = s.macs := by
        simp only [s2]
        split
        · split <;> simp [lagged, h1]
        · exact h1
      have h6 : s6.macs = s.macs := by simp [s6, s5, s4, s3, h2, State.coldStart_macs]
      simp [h6, State.everyTarget_macs]

@[simp] theorem State.pauseLost_macs (p : Nat) (c : Cut) : (s.pauseLost p c).macs = s.macs := by
  simp [State.pauseLost, State.requestPause, State.applyPause, State.rootClose, State.enterPause]

/-! ## Neighbours -/

theorem State.installRoutes_macs (routes : Tbl (BitVec 64)) (id epoch : Nat) : (s.installRoutes routes id epoch).macs = s.macs := by
  have ends (s : State) (e : Nat × Parcel) : (match e.2.cut with
      | some c => if e.2.jobOn then s.endJob e.1 0x0B c.rank true else s
      | none => s).macs = s.macs := by
    split <;> simp
  have notes (s : State) (e : Nat × Parcel) : (match e.2.cut with
      | some c => if (s.parcel e.1).jobOn && decide (e.2.run.b < s.boundB c) then s.raise blkZLK 0x50FF (some e.2.inst) c.job (s.boundB c)
        else s
      | none => s).macs = s.macs := by
    split <;> simp
  simp only [State.installRoutes]
  refine (foldl_macs notes ..).trans ?_
  split
  · exact foldl_macs ends ..
  · rfl

@[simp] theorem State.dropAdjs_macs (link : Nat) : (s.dropAdjs link).macs = s.macs := by
  have updated (s : State) : s.fmUpdate.macs = s.macs := by
    simp [State.fmUpdate, State.installRoutes_macs]
  simp [State.dropAdjs, State.reElect, updated]

@[simp] theorem State.dropAnnounce_macs (link : Nat) : (s.dropAnnounce link).macs = s.macs := by
  have unlocked (s : State) : s.loseLock.macs = s.macs := by
    have pauses (s : State) (e : Nat × Parcel) : (match e.2.cut with
        | some c => s.pauseLost e.1 c
        | none => s).macs = s.macs := by
      split <;> simp
    simp only [State.loseLock]
    split
    · exact foldl_macs pauses ..
    · rfl
  simp [State.dropAnnounce, State.reMaster, unlocked]

end

end Sys2Proof.Machine
end

section
/-! PROOF. Links of the MACs (R283, R284), the port registers (R284, R288, R492), and the registers that a read clears (R283, R302). -/

namespace Sys2Proof.Machine

/-! ## The start of a link (R283) -/

/-- Nothing keeps a link from starting: its die has not failed and has its clock, and the rung is not deep. -/
structure LinkMayStart (s : State) (link : Nat) : Prop where
  die  : s.dieFailed (8 + dieOfLink link) = false
  rung : s.power.rung < 3
  clk  : s.pins.ethClk.getD (dieOfLink link) true = true

theorem LinkMayStart.startLink {s : State} {link : Nat} (h : LinkMayStart s link) :
    s.startLink link = s.modLink link fun x => { x with state := (s.port (portOf link)).startState, started := s.now } := by
  obtain ⟨hdie, hrung, hclk⟩ := h
  have hrung' : ¬3 ≤ s.power.rung := by omega
  simp [State.startLink, hdie, hrung', hclk]

section
variable (s : State) (link : Nat)

theorem State.startLink_faults : ((s.startLink link).link link).lfault = (s.link link).lfault ∧
    ((s.startLink link).link link).rfault = (s.link link).rfault := by
  unfold State.startLink
  split
  · exact ⟨rfl, rfl⟩
  · simp

theorem State.startLink_rest : (s.startLink link).fabric = s.fabric ∧ (s.startLink link).traffic = s.traffic ∧
    (s.startLink link).eth.ports = s.eth.ports := by
  unfold State.startLink
  split <;> exact ⟨rfl, rfl, rfl⟩

/-! ## The loss of a PHY (R255, R271, R284) -/

/-- A transmitter that stops changes nothing but itself and what has been put out. -/
theorem State.cutTx_eq : ∃ em, s.cutTx link = { s with
    emitted := em
    traffic := { s.traffic with
      tx := s.traffic.tx.put link { s.traffic.tx.getD link LinkTx.initial with busy := none, preempted := none } } } := by
  simp only [State.cutTx]
  split
  · exact ⟨_, rfl⟩
  · exact ⟨s.emitted, rfl⟩

theorem State.cutTx_busy : ((s.cutTx link).traffic.tx.getD link LinkTx.initial).busy = none := by
  obtain ⟨em, h⟩ := s.cutTx_eq link
  simp [h]

theorem State.link_of_eth {s t : State} (h : t.eth = s.eth) (l : Nat) : t.link l = s.link l := by
  rw [State.link, h, State.link]

theorem State.cutTx_eth : (s.cutTx link).eth = s.eth := by
  obtain ⟨em, h⟩ := s.cutTx_eq link
  rw [h]

theorem State.phyDown_macs : (s.phyDown link).macs = (s.cutTx link).macs := by
  simp [State.phyDown]

theorem State.phyDown_eth : (s.phyDown link).eth = s.eth :=
  (congrArg Prod.fst (s.phyDown_macs link)).trans (s.cutTx_eth link)

theorem State.phyDown_busy : ((s.phyDown link).traffic.tx.getD link LinkTx.initial).busy = none := by
  have htx : (s.phyDown link).traffic.tx = (s.cutTx link).traffic.tx := congrArg Prod.snd (s.phyDown_macs link)
  rw [htx, s.cutTx_busy]

theorem State.phyDown_left : (s.phyDown link).Left link := by
  have hadjs : (s.phyDown link).fabric.adjs = _ := congrArg (·.2.1) ((((s.cutTx link).dropAdjs link).dropAnnounce_heard link))
  have hdrop : ((s.cutTx link).dropAdjs link).fabric.adjs = _ := congrArg (·.2.1) ((s.cutTx link).dropAdjs_heard link)
  refine ⟨fun a ha => ?_, State.dropAnnounce_find ..⟩
  rw [hadjs] at ha
  simp only [hdrop] at ha
  simpa using (List.mem_filter.mp ha).2

end

/-! ## LINK_UP (R283) -/

/-- A link on its way up: neither Down nor Up. -/
structure LinkStarting (s : State) (link : Nat) : Prop where
  inRange : link < 64
  notDown : (s.link link).state ≠ .down
  notUp   : (s.link link).state ≠ .up

theorem LinkStarting.goesOn {s : State} {link : Nat} (h : LinkStarting s link) :
    ¬(64 ≤ link ∨ (s.link link).state = .down ∨ (s.link link).state = .up) := by
  simp [h.inRange, h.notDown, h.notUp]

section
variable {s : State} {link : Nat} (h : LinkStarting s link)
include h

theorem LinkStarting.linkUp_negotiated (hs : (s.link link).state = .negotiating) :
    exec (.linkUp link) s = .next (s.modLink link fun x => { x with state := .training }) := by
  show execLinkUp link s = _
  rw [execLinkUp, if_neg h.goesOn, if_pos hs]

theorem LinkStarting.linkUp_trained (hs : (s.link link).state = .training) :
    exec (.linkUp link) s = .next (s.modLink link fun x => { x with state := .fec }) := by
  show execLinkUp link s = _
  rw [execLinkUp, if_neg h.goesOn, if_neg (by simp [hs]), if_pos hs]

/-- The state in which a link is Up, and usable again. -/
def State.linkRisen (s : State) (link : Nat) : State :=
  let t := s.modLink link fun x => { x with state := .up, consec := 0, lfault := false, rfault := false }
  { t with fabric := { t.fabric with unusable := t.fabric.unusable.filter fun l => l ≠ link } }

theorem LinkStarting.linkUp_aligned (hs : (s.link link).state = .fec) : Runs (.linkUp link) s fun t =>
    t.link link = { s.link link with state := .up, consec := 0, lfault := false, rfault := false } ∧
    (∀ l, l ≠ link → t.link l = s.link l) ∧ link ∉ t.fabric.unusable ∧ SameMem s t ∧ t.facets = s.facets := by
  have hexec : exec (.linkUp link) s = .next (s.linkRisen link) := by
    show execLinkUp link s = _
    rw [execLinkUp, if_neg h.goesOn, if_neg (by simp [hs]), if_neg (by simp [hs])]
    rfl
  exact ⟨_, hexec, Tbl.getD_put_self .., fun l hl => Tbl.getD_put_ne _ hl .., by simp [State.linkRisen], fun _ => rfl, rfl⟩

/-! ## LINK_RESTART (R283) -/

/-- The link as a restart leaves it, from 1 s after its last start on. -/
def State.linkRestarted (s : State) (link : Nat) : State :=
  ((s.reach ((s.link link).started + 1000000000)).modLink link fun x =>
    { x with restarts := min 0xFFFFFFFF (x.restarts + 1), consec := x.consec + 1 }).startLink link

/-- Every eighth restart in a row is recorded. -/
theorem LinkStarting.linkRestart : exec (.linkRestart link) s = .next
    (if ((s.linkRestarted link).link link).consec % 8 = 0 then
      (s.linkRestarted link).raise blkNET 0x6006 none link ((s.linkRestarted link).link link).state.code
    else s.linkRestarted link) := by
  show execLinkRestart link s = _
  rw [execLinkRestart, if_neg h.goesOn]
  rfl

theorem LinkStarting.linkRestart_runs (hm : LinkMayStart s link) : Runs (.linkRestart link) s fun t =>
    t.link link = { s.link link with
      restarts := min 0xFFFFFFFF ((s.link link).restarts + 1), consec := (s.link link).consec + 1
      started := max s.now ((s.link link).started + 1000000000), state := (s.port (portOf link)).startState } ∧
    (∀ l, l ≠ link → t.link l = s.link l) ∧ SameMem s t ∧ t.facets = s.facets := by
  have hstart : s.linkRestarted link = _ :=
    LinkMayStart.startLink (s := (s.reach ((s.link link).started + 1000000000)).modLink link fun x =>
      { x with restarts := min 0xFFFFFFFF (x.restarts + 1), consec := x.consec + 1 }) ⟨hm.die, hm.rung, hm.clk⟩
  have hself : (s.linkRestarted link).link link = { s.link link with
      restarts := min 0xFFFFFFFF ((s.link link).restarts + 1), consec := (s.link link).consec + 1
      started := max s.now ((s.link link).started + 1000000000), state := (s.port (portOf link)).startState } := by
    rw [hstart, State.link_modLink, State.link_modLink]
    rfl
  have hother (l : Nat) (hl : l ≠ link) : (s.linkRestarted link).link l = s.link l := by
    rw [hstart, State.link_modLink_ne _ _ hl, State.link_modLink_ne _ _ hl]
    rfl
  have hmem : SameMem s (s.linkRestarted link) := by
    rw [hstart]
    exact fun _ => rfl
  have hfacets : (s.linkRestarted link).facets = s.facets := by
    rw [hstart]
    rfl
  rw [Runs, h.linkRestart]
  split
  · exact ⟨_, rfl, hself, hother, hmem, hfacets⟩
  · exact ⟨_, rfl, hself, hother, hmem, hfacets⟩

end

/-! ## LINK_FAULT (R283, R255, R271, R284) -/

/-- The state in which a link has lost its PHY: it starts again where it was Up. -/
def State.phyLost (s : State) (link : Nat) : State :=
  if ((s.phyDown link).link link).state = .up then ((s.phyDown link).cutTx link).startLink link else s.phyDown link

/-- What a lost PHY leaves: its faults as they were reported, no neighbour and no frame on its way. -/
theorem State.phyLost_spec (s : State) (link : Nat) : ((s.phyLost link).link link).lfault = (s.link link).lfault ∧
    ((s.phyLost link).link link).rfault = (s.link link).rfault ∧ (s.phyLost link).Left link ∧
    ((s.phyLost link).traffic.tx.getD link LinkTx.initial).busy = none := by
  have hlink : (s.phyDown link).link link = s.link link := State.link_of_eth (s.phyDown_eth link) link
  have hleft := s.phyDown_left link
  unfold State.phyLost
  split
  · have hcut : ((s.phyDown link).cutTx link).link link = s.link link :=
      (State.link_of_eth ((s.phyDown link).cutTx_eth link) link).trans hlink
    have hfabric : ((s.phyDown link).cutTx link).fabric = (s.phyDown link).fabric := by
      obtain ⟨em, hc⟩ := (s.phyDown link).cutTx_eq link
      rw [hc]
    obtain ⟨hlf, hrf⟩ := ((s.phyDown link).cutTx link).startLink_faults link
    obtain ⟨hsf, hst, -⟩ := ((s.phyDown link).cutTx link).startLink_rest link
    rw [hlf, hrf, hcut, State.Left, hsf, hfabric, hst, State.cutTx_busy]
    exact ⟨rfl, rfl, hleft, rfl⟩
  · rw [hlink]
    exact ⟨rfl, rfl, hleft, s.phyDown_busy link⟩

/-- A link that stops sending and starts again. -/
theorem LinkMayStart.cutStart {s : State} {link : Nat} (h : LinkMayStart s link) :
    ((s.cutTx link).startLink link).link link =
      { s.link link with state := (s.port (portOf link)).startState, started := s.now } ∧
    (∀ l, l ≠ link → ((s.cutTx link).startLink link).link l = s.link l) ∧ SameMem s ((s.cutTx link).startLink link) := by
  obtain ⟨em, hc⟩ := s.cutTx_eq link
  have hstart : (s.cutTx link).startLink link = _ :=
    LinkMayStart.startLink (s := s.cutTx link) (by rw [hc]; exact ⟨h.die, h.rung, h.clk⟩)
  rw [hstart, hc]
  exact ⟨Tbl.getD_put_self .., fun l hl => Tbl.getD_put_ne _ hl .., fun _ => rfl⟩

section
variable {s : State} {link : Nat} (hlink : link < 64)
include hlink

/-- The loss of the PHY takes the neighbours with it, whatever state the link was in. -/
theorem linkFault_phy (lf rf : Bool) : Runs (.linkFault link lf rf true) s fun t =>
    (t.link link).lfault = lf ∧ (t.link link).rfault = rf ∧ (∀ a ∈ t.fabric.adjs, a.link ≠ link) ∧
    t.fabric.announces.find link = none ∧ (t.traffic.tx.getD link LinkTx.initial).busy = none := by
  have hexec : exec (.linkFault link lf rf true) s =
      .next ((s.modLink link fun x => { x with lfault := lf, rfault := rf }).phyLost link) := by
    show execLinkFault link lf rf true s = _
    simp [execLinkFault, hlink, State.phyLost]
  obtain ⟨hlf, hrf, ⟨hadjs, hann⟩, hbusy⟩ := (s.modLink link fun x => { x with lfault := lf, rfault := rf }).phyLost_spec link
  rw [State.link_modLink] at hlf hrf
  exact ⟨_, hexec, hlf, hrf, hadjs, hann, hbusy⟩

/-- A fault takes a link out of Up, to where it starts. -/
theorem linkFault_local (hup : (s.link link).state = .up) (hm : LinkMayStart s link) : Runs (.linkFault link true false false) s fun t =>
    (t.link link).state = (s.port (portOf link)).startState ∧ (t.link link).lfault = true ∧ (t.link link).rfault = false ∧
    (∀ l, l ≠ link → t.link l = s.link l) ∧ SameMem s t := by
  have hexec : exec (.linkFault link true false false) s =
      .next (((s.modLink link fun x => { x with lfault := true, rfault := false }).cutTx link).startLink link) := by
    show execLinkFault link true false false s = _
    rw [execLinkFault, if_neg (Nat.not_le.mpr hlink)]
    exact congrArg Host.Outcome.next (if_pos (by simp [hup]))
  obtain ⟨hself, hother, hmem⟩ := LinkMayStart.cutStart
    (s := s.modLink link fun x => { x with lfault := true, rfault := false }) (link := link) ⟨hm.die, hm.rung, hm.clk⟩
  rw [State.link_modLink] at hself
  refine ⟨_, hexec, congrArg EthLink.state hself, congrArg EthLink.lfault hself, congrArg EthLink.rfault hself, fun l hl => ?_, hmem⟩
  rw [hother l hl, State.link_modLink_ne _ _ hl]

/-- Faults that clear leave the link as it is but for them. -/
theorem linkFault_clear : Runs (.linkFault link false false false) s fun t =>
    t.link link = { s.link link with lfault := false, rfault := false } ∧ SameMem s t := by
  refine ⟨s.modLink link fun x => { x with lfault := false, rfault := false }, ?_, s.link_modLink link _, fun _ => rfl⟩
  show execLinkFault link false false false s = _
  simp [execLinkFault, hlink]

end

/-! ## NET registers (R28, R31) -/

theorem blockAt_NET {off : Nat} (h : off < 0x4000_0000) : blockAt (baseNET + off) = some (blkNET, off) :=
  blockAt_base_add (b := (blkNET, baseNET, 0x4000_0000)) (by decide) h

theorem bitAt_toNat (v : BitVec 64) (n : Nat) : bitAt v.toNat n = v.getLsbD n := by
  rw [BitVec.getLsbD, Nat.testBit_eq_decide_div_mod_eq, bitAt]

section
variable {s : State} (hrail : (s.rail 6).set ≠ 0)
include hrail

theorem State.readBlock_NET (off : Nat) : s.readBlock blkNET off = s.readNet off := if_pos (State.girdleOn_of_rail hrail)

theorem State.regAt_NET {off : Nat} (ho : off < 0x4000_0000) (h8 : off % 8 = 0) : s.regAt (baseNET + off) = s.readNet off := by
  rw [State.regAt_aligned (by simp only [baseNET]; omega) (blockAt_NET ho), State.readBlock_NET hrail]

/-- A read of a link's register clears its count of restarts (R283). -/
theorem netLinkRead_eq {link : Nat} (hlink : link < 64) : exec (.netLinkRead link) s = .next
    ((s.modLink link fun x => { x with restarts := 0 }).emit (.readback (s.link link).word)) := by
  have hport : rowIdx (0x200 + 8 * link) 0x100 8 16 = none := rowIdx_outside (by omega)
  have hrow : rowIdx (0x200 + 8 * link) 0x200 8 64 = some link := rowIdx_mul hlink (by decide)
  have hne (m : Nat) (hm : m < 0x200) : ¬(0x200 + 8 * link = m) := by omega
  have hr : s.regAt (baseNET + 0x200 + 8 * link) = some ((s.link link).word, s.modLink link fun x => { x with restarts := 0 }) := by
    rw [Nat.add_assoc, State.regAt_NET hrail (by omega) (by omega), State.readNet]
    simp only [hne 0x00 (by decide), hne 0x08 (by decide), hne 0x10 (by decide), hne 0x18 (by decide), if_false, hport, hrow]
    rfl
  exact congrArg Host.Outcome.next (State.readOut_eq hr)

theorem netDropRead_eq {k n : Nat} (hk : k < 4) (hn : n < 8) : exec (.netDropRead k n) s = .next
    (({ s with eth := { s.eth with drops := s.eth.drops.del (8 * k + n) } } : State).emit
      (.readback (BitVec.ofNat 64 (s.eth.drops.getD (8 * k + n) 0)))) := by
  have haddr : baseNET + 0x1000 + 0x100 * k + 8 * n = baseNET + (0x1000 + 8 * (32 * k + n)) := by omega
  have hport : rowIdx (0x1000 + 8 * (32 * k + n)) 0x100 8 16 = none := rowIdx_outside (by omega)
  have hlink : rowIdx (0x1000 + 8 * (32 * k + n)) 0x200 8 64 = none := rowIdx_outside (by omega)
  have hrow : rowIdx (0x1000 + 8 * (32 * k + n)) 0x1000 8 128 = some (32 * k + n) := rowIdx_mul (by omega) (by decide)
  have hne (m : Nat) (hm : m < 0x1000) : ¬(0x1000 + 8 * (32 * k + n) = m) := by omega
  have hmod : (32 * k + n) % 32 = n := by omega
  have hdiv : (32 * k + n) / 32 = k := by omega
  have hr : s.regAt (baseNET + 0x1000 + 0x100 * k + 8 * n) = some (reg (s.eth.drops.getD (8 * k + n) 0),
      { s with eth := { s.eth with drops := s.eth.drops.del (8 * k + n) } }) := by
    rw [haddr, State.regAt_NET hrail (by omega) (by omega), State.readNet]
    simp only [hne 0x00 (by decide), hne 0x08 (by decide), hne 0x10 (by decide), hne 0x18 (by decide), if_false, hport, hlink, hrow]
    simp [hmod, hdiv, Nat.not_le.mpr hn]
  exact congrArg Host.Outcome.next (State.readOut_eq hr)

theorem netQstatRead_eq {q : Nat} (hq : q < 4096) : exec (.netQstatRead q) s = .next
    ((s.clearQstat q).emit (.readback (rxStat (s.eth.queues.find q)))) := by
  have hrow : rowIdx (0x20_0000 + 8 * q) 0x20_0000 8 4096 = some q := rowIdx_mul hq (by decide)
  have hport : rowIdx (0x20_0000 + 8 * q) 0x100 8 16 = none := rowIdx_outside (by omega)
  have hlink : rowIdx (0x20_0000 + 8 * q) 0x200 8 64 = none := rowIdx_outside (by omega)
  have hdrop : rowIdx (0x20_0000 + 8 * q) 0x1000 8 128 = none := rowIdx_outside (by omega)
  have hcnt : rowIdx (0x20_0000 + 8 * q) 0x1_0000 8 512 = none := rowIdx_outside (by omega)
  have hrule : rowIdx (0x20_0000 + 8 * q) 0x10_0000 8 131072 = none := rowIdx_outside (by omega)
  have hne (m : Nat) (hm : m < 0x20_0000) : ¬(0x20_0000 + 8 * q = m) := by omega
  have hr : s.regAt (baseNET + 0x20_0000 + 8 * q) = some (rxStat (s.eth.queues.find q), s.clearQstat q) := by
    rw [Nat.add_assoc, State.regAt_NET hrail (by omega) (by omega), State.readNet]
    simp only [hne 0x00 (by decide), hne 0x08 (by decide), hne 0x10 (by decide), hne 0x18 (by decide), if_false, hport, hlink, hdrop,
      hcnt, hrule, hrow, State.clearQstat]
    cases h : s.eth.queues.find q <;> simp [h, State.seen, rxStat]
  exact congrArg Host.Outcome.next (State.readOut_eq hr)

theorem netPortWrite_eq {port : Nat} (hport : port < 16) (v : BitVec 64) :
    exec (.netPortWrite port v) s = .next (s.writePort port v) := by
  have hrow : rowIdx (0x100 + 8 * port) 0x100 8 16 = some port := rowIdx_mul hport (by decide)
  have hne (m : Nat) (hm : m < 0x100) : ¬(0x100 + 8 * port = m) := by omega
  have hr : s.readBlock blkNET (0x100 + 8 * port) = some ((s.port port).word, s) := by
    rw [State.readBlock_NET hrail, State.readNet]
    simp only [hne 0x00 (by decide), hne 0x08 (by decide), hne 0x10 (by decide), hne 0x18 (by decide), if_false, hrow]
    rfl
  have hw : s.writeBlock blkNET (0x100 + 8 * port) v = s.writeNet (0x100 + 8 * port) v := rfl
  have hp : s.writeNet (0x100 + 8 * port) v = s.writePort port v := by
    rw [State.writeNet, if_neg (hne 0x00 (by decide)), if_neg (hne 0x08 (by decide)), if_neg (hne 0x10 (by decide)),
      if_neg (hne 0x18 (by decide)), hrow]
  show Host.Outcome.next (s.regWrite (baseNET + 0x100 + 8 * port) v) = _
  rw [Nat.add_assoc, State.regWrite_block v (by simp only [baseNET]; omega) (blockAt_NET (by omega)) hr, hw, hp]

end

/-- A read of a queue's status clears its count of drops, and nothing else. -/
theorem State.clearQstat_queues (s : State) (q : Nat) :
    (s.clearQstat q).eth.queues.find q = ((s.eth.queues.find q).map fun y => { y with drops := 0 }) ∧
    (∀ k, k ≠ q → (s.clearQstat q).eth.queues.find k = s.eth.queues.find k) ∧ SameMem s (s.clearQstat q) ∧
    (s.clearQstat q).facets = s.facets := by
  unfold State.clearQstat
  split
  next h => exact ⟨by rw [h]; rfl, fun _ _ => rfl, fun _ => rfl, rfl⟩
  next y h => exact ⟨by rw [h]; exact Tbl.find_put_self .., fun k hk => Tbl.find_put_ne _ hk _, fun _ => rfl, rfl⟩

/-! ## NET_PORT (R284, R288, R492) -/

/-- A port as a write of its register leaves it. -/
def EthPort.written (x : EthPort) (v : BitVec 64) : EthPort :=
  let n := v.toNat
  { enable := v.getLsbD 63
    split := if v.getLsbD 63 ∨ bitsOf n 62 61 = 3 then x.split else bitsOf n 62 61
    media := if v.getLsbD 63 ∨ bitsOf n 60 59 = 3 then x.media else bitsOf n 60 59
    roce := v.getLsbD 58, l3sel := v.getLsbD 57
    depth := if 1 ≤ bitsOf n 51 48 ∧ bitsOf n 51 48 ≤ 8 then bitsOf n 51 48 else x.depth
    maxfrm := if 1518 ≤ bitsOf n 47 32 ∧ bitsOf n 47 32 ≤ 9728 then bitsOf n 47 32 else x.maxfrm
    dverdict := if bitsOf n 31 30 ≤ 1 then bitsOf n 31 30 else x.dverdict, dqueue := bitsOf n 11 0 }

theorem State.portDown_ports (s : State) (port : Nat) : (s.portDown port).eth.ports = s.eth.ports := by
  have down (s : State) (l : Nat) : (s.linkDown l).eth.ports = s.eth.ports := by
    unfold State.linkDown
    split
    · rfl
    · rw [State.phyDown_eth]
      rfl
  rw [State.portDown_eq]
  exact List.foldlRecOn (motive := fun t : State => t.eth.ports = s.eth.ports) _ _ rfl fun t ht k _ => (down t _).trans ht

theorem State.portUp_ports (s : State) (port : Nat) : (s.portUp port).eth.ports = s.eth.ports := by
  refine List.foldlRecOn (motive := fun t : State => t.eth.ports = s.eth.ports) _ _ rfl fun t ht k _ => ?_
  split
  · obtain ⟨-, -, hports⟩ := t.startLink_rest (4 * port + k)
    exact hports.trans ht
  · exact ht

/-- A write of a port's register changes that port, and no other. -/
theorem State.writePort_ports (s : State) (port : Nat) (v : BitVec 64) :
    (s.writePort port v).eth.ports = s.eth.ports.put port ((s.port port).written v) := by
  unfold State.writePort
  extract_lets n x split media depth maxf dv wantS wantM on held s1 y s2 tr s3
  have h1 : s1.eth = s.eth := by
    simp only [s1]
    split <;> rfl
  have h3 : s3.eth.ports = s.eth.ports.put port ((s.port port).written v) := by
    show s1.eth.ports.put port y = _
    have hy : y = (s.port port).written v := by
      simp only [EthPort.written, y, on, wantS, wantM, split, media, depth, maxf, dv, n, x, bitAt_toNat, ite_or]
    rw [h1, hy]
  split
  · exact (State.portDown_ports ..).trans h3
  · split
    · exact (State.portUp_ports ..).trans h3
    · exact h3

end Sys2Proof.Machine
end

section
/-! PROOF. Rules and receive queues by command (R293 to R297, R301, R303), and the statement of the chapter's links, rules and
registers. -/

namespace Sys2Proof.Machine

/-! ## Rules (R293 to R297) -/

/-- The state with a rule in a slot, its counts from 0. -/
def State.putRule (s : State) (slot : Nat) (r : Rule) : State :=
  { s with eth := { s.eth with rules := s.eth.rules.put slot r, cleared := Tbl.del s.eth.cleared slot } }

/-- The rule that NET_RULE_SET's parameters give. -/
def ruleOf (ps : List Byte) : Rule :=
  { owner := fieldAt ps 2 1, stage := fieldAt ps 3 1 + 1, prio := fieldAt ps 4 2, value := slice ps 40 80, mask := slice ps 120 80
    action := slice ps 8 32, frames := 0, bytes := 0 }

section
variable {v : State} {i slot : Nat} {r : Rule}

/-- The slot is free and its owner has a rule left, or it is the owner's. -/
def State.slotFor (v : State) (slot own : Nat) : Prop :=
  (v.eth.rules.find slot = none ∧ v.rulesOf own < (v.inst own).shares.rule) ∨ ∃ y, v.eth.rules.find slot = some y ∧ y.owner = own

/-- The sender may set a rule of this stage with this action (R297). -/
def Rule.stageOk (r : Rule) (i : Nat) : Prop :=
  (r.stage = 1 ∧ i = 0) ∨ (r.stage = 2 ∧ (actVerdict r.action = 0 ∨ actVerdict r.action = 1 ∨ actVerdict r.action = 4) ∧
    actFlag r.action 0 = false ∧ actFlag r.action 3 = false ∧ fieldAt r.action 8 1 = 0 ∧ fieldAt r.action 16 1 = 0)

/-- The meter that the rule names is of its slot's die, and for a rule of the second stage its owner's (R316). -/
def State.meterFor (v : State) (slot : Nat) (r : Rule) : Prop :=
  actFlag r.action 2 = true → fieldAt r.action 24 2 / 4096 = slot / 16384 ∧
    (r.stage = 2 → ∃ m, v.traffic.meters.find (fieldAt r.action 24 2) = some m ∧ m.owner = r.owner)

theorem State.slotFor.owner {own : Nat} (h : v.slotFor slot own) : ((v.eth.rules.find slot).map (·.owner)).getD own = own := by
  obtain ⟨hnone, -⟩ | ⟨y, hsome, hown⟩ := h
  · simp [hnone]
  · simp [hsome, hown]

theorem State.slotFor.share {own : Nat} (h : v.slotFor slot own) :
    ¬(((v.eth.rules.find slot).map (·.owner)).isNone = true ∧ (v.inst own).shares.rule ≤ v.rulesOf own) := by
  obtain ⟨-, hshare⟩ | ⟨y, hsome, -⟩ := h
  · exact fun e => Nat.not_le.mpr hshare e.2
  · simp [hsome]

theorem Rule.stageOk.allowed (h : r.stageOk i) :
    ¬((r.stage = 1 ∧ i ≠ 0) ∨ (r.stage = 2 ∧ ((actVerdict r.action ≠ 0 ∧ actVerdict r.action ≠ 1 ∧ actVerdict r.action ≠ 4) ∨
      actFlag r.action 0 ∨ actFlag r.action 3 ∨ fieldAt r.action 8 1 ≠ 0 ∨ fieldAt r.action 16 1 ≠ 0))) := by
  obtain ⟨hone, hi⟩ | ⟨htwo, hverdict, hmeter, hdecap, hedit0, hedit1⟩ := h
  · simp [hone, hi]
  · simp only [htwo, hmeter, hdecap, hedit0, hedit1]
    simp
    omega

/-- `held` says that the named meter is the owner's. -/
theorem State.meterFor.allowed (h : v.meterFor slot r) {held : Bool}
    (hheld : ∀ m, v.traffic.meters.find (fieldAt r.action 24 2) = some m → m.owner = r.owner → held = true) :
    ¬(actFlag r.action 2 = true ∧ (fieldAt r.action 24 2 / 4096 ≠ slot / 16384 ∨ (r.stage = 2 ∧ (!held) = true))) := by
  rintro ⟨hflag, hcase⟩
  obtain ⟨hdie, hown⟩ := h hflag
  rcases hcase with hdie' | ⟨htwo, hnot⟩
  · exact hdie' hdie
  · obtain ⟨m, hm, ho⟩ := hown htwo
    simp [hheld m hm ho] at hnot

end

theorem netRuleSetRun_ok {v : State} {i : Nat} {ps : List Byte} (w : Waiter) (hslot : v.slotFor (fieldAt ps 0 2) (fieldAt ps 2 1))
    (hstage : (ruleOf ps).stageOk i) (hmeter : v.meterFor (fieldAt ps 0 2) (ruleOf ps)) :
    netRuleSetRun v w i ps = okay (v.putRule (fieldAt ps 0 2) (ruleOf ps)) := by
  exact (if_neg (not_not.mpr hslot.owner)).trans <| (if_neg hslot.share).trans <| (if_neg hstage.allowed).trans <|
    if_neg (hmeter.allowed fun m hm hown => by simp_all [ruleOf])

theorem State.putRule_rules (s : State) (slot : Nat) (r : Rule) : (s.putRule slot r).eth.rules.find slot = some r ∧
    (s.putRule slot r).eth.cleared.find slot = none ∧ (∀ k, k ≠ slot → (s.putRule slot r).eth.rules.find k = s.eth.rules.find k) ∧
    SameMem s (s.putRule slot r) ∧ (s.putRule slot r).facets = s.facets :=
  ⟨Tbl.find_put_self .., Tbl.find_del_self .., fun _ hk => Tbl.find_put_ne _ hk _, fun _ => rfl, rfl⟩

theorem netRuleClear_ok {v : State} {i : Nat} {ps : List Byte} {r : Rule} (w : Waiter) (hr : v.eth.rules.find (fieldAt ps 0 2) = some r)
    (hi : i = 0 ∨ (r.owner = i ∧ r.stage ≠ 1)) : netRuleClearSpec.run v w i ps = okay (v.clearRule (fieldAt ps 0 2) r) := by
  have howner : ¬(i ≠ 0 ∧ r.owner ≠ i) := by
    rcases hi with hi | ⟨hi, -⟩ <;> simp [hi]
  have hstage : ¬(i ≠ 0 ∧ r.stage = 1) := by
    rcases hi with hi | ⟨-, hi⟩ <;> simp [hi]
  simp [netRuleClearSpec, hr, if_neg howner, if_neg hstage]

theorem State.clearRule_rules (s : State) (slot : Nat) (r : Rule) : (s.clearRule slot r).eth.rules.find slot = none ∧
    (s.clearRule slot r).eth.cleared.find slot = some (r.frames, r.bytes) ∧
    (∀ k, k ≠ slot → (s.clearRule slot r).eth.rules.find k = s.eth.rules.find k) ∧
    SameMem s (s.clearRule slot r) ∧ (s.clearRule slot r).facets = s.facets :=
  ⟨Tbl.find_del_self .., Tbl.find_put_self .., fun _ hk => Tbl.find_del_ne _ hk, fun _ => rfl, rfl⟩

theorem netRuleGet_ok {v : State} {i : Nat} {ps : List Byte} {r : Rule} (w : Waiter) (hr : v.eth.rules.find (fieldAt ps 0 2) = some r)
    (hi : i = 0 ∨ r.owner = i) : netRuleGetSpec.run v w i ps = gives v (r.image (fieldAt ps 0 2)) := by
  have howner : ¬(i ≠ 0 ∧ r.owner ≠ i) := by
    rcases hi with hi | hi <;> simp [hi]
  simp [netRuleGetSpec, hr, if_neg howner]

/-! ## Receive queues (R301) -/

section
variable {v : State} {ps : List Byte} (w : Waiter) (i : Nat)

theorem netQueueSetRun_removed (hlen : fieldAt ps 4 4 = 0) (hq : (v.eth.queues.find (fieldAt ps 0 2)).isSome = true) :
    netQueueSetRun v w i ps = okay { v with eth := { v.eth with queues := Tbl.del v.eth.queues (fieldAt ps 0 2) } } := by
  obtain ⟨y, hy⟩ := Option.isSome_iff_exists.mp hq
  simp [netQueueSetRun, hlen, hy]

/-- A queue is set in the state in which its ring has been reset. -/
theorem netQueueSetRun_set {y : State} (hlen : fieldAt ps 4 4 ≠ 0) (hact : v.isActive (fieldAt ps 2 1) = true)
    (hmap : v.mapsRw (fieldAt ps 2 1) (fieldAt ps 8 8) (fieldAt ps 4 4 + 64) = true)
    (hreset : v.ringReset clsNet (fieldAt ps 2 1) (fieldAt ps 8 8) = (y, true)) :
    netQueueSetRun v w i ps = okay (y.putRxQueue (fieldAt ps 0 2)
      { inst := fieldAt ps 2 1, gen := v.genOf (fieldAt ps 2 1), error := false
        drops := ((v.eth.queues.find (fieldAt ps 0 2)).map (·.drops)).getD 0, ring := fieldAt ps 8 8, len := fieldAt ps 4 4, prod := 0
        seq := 0 }) := by
  simp [netQueueSetRun, hlen, hact, hmap, hreset, State.putRxQueue]

theorem netQueueGet_ok {y : RxQueue} (hy : v.eth.queues.find (fieldAt ps 0 2) = some y) :
    netQueueGetSpec.run v w i ps = gives (v.clearQstat (fieldAt ps 0 2)) (leBytes 8 (rxStat (some y)).toNat) := by
  simp [netQueueGetSpec, hy]

end

end Sys2Proof.Machine
end

section

open Sys2Proof Sys2Proof.Machine

/-- Settles O37: each link event, command and register by the lemma about it; the adjacencies of a link that loses its PHY and the
transmitter that it stops outlast what ends with the neighbour, since that leaves the MACs alone. -/
theorem portsAndRules : Obligations.PortsAndRules := by
  intro s c link hlink
  refine ⟨fun hdown hup => ?_, linkFault_phy hlink, fun hup hdie hrung hclk => ⟨linkFault_local hlink hup ⟨hdie, hrung, hclk⟩,
    linkFault_clear hlink⟩, fun up => ⟨_, rfl, rfl⟩, ?_, ?_, ?_, ?_, ?_, fun hrail => ⟨?_, ?_, ?_, ?_⟩⟩
  case refine_1 =>
    have h : LinkStarting s link := ⟨hlink, hdown, hup⟩
    exact ⟨fun hs => ⟨_, h.linkUp_negotiated hs, rfl⟩, fun hs => ⟨_, h.linkUp_trained hs, rfl⟩, h.linkUp_aligned,
      fun hdie hrung hclk => h.linkRestart_runs ⟨hdie, hrung, hclk⟩⟩
  case refine_2 =>
    rintro v slot own r ht rfl rfl rfl rfl hslot hstage hmeter
    exact succeeds_of rfl ht (netRuleSetRun_ok (s.waiterOf c) hslot hstage hmeter) (State.putRule_rules ..)
  case refine_3 =>
    rintro v slot r ht rfl rfl hr hi
    exact succeeds_of rfl ht (netRuleClear_ok (s.waiterOf c) hr hi) (State.clearRule_rules ..)
  case refine_4 =>
    rintro v slot r ht rfl rfl hr hi
    exact succeeds_of rfl ht (netRuleGet_ok (s.waiterOf c) hr hi) rfl
  case refine_5 =>
    rintro v q own len ht rfl rfl rfl rfl
    refine ⟨fun hlen hq => ?_, fun y hlen hact hmap hreset => ?_⟩
    · exact succeeds_of rfl ht (netQueueSetRun_removed (s.waiterOf c) (s.senderOf c) hlen hq)
        ⟨Tbl.find_del_self .., fun _ hk => Tbl.find_del_ne _ hk, fun _ => rfl⟩
    · exact succeeds_of rfl ht (netQueueSetRun_set (s.waiterOf c) (s.senderOf c) hlen hact hmap hreset)
        ⟨fun _ => rfl, fun _ hk => Tbl.find_put_ne _ hk _, Tbl.find_put_self ..⟩
  case refine_6 =>
    rintro v q y ht rfl rfl hy
    obtain ⟨hself, hother, hmem, -⟩ := (s.entered netQueueGetSpec c).clearQstat_queues (fieldAt c.pkt.params 0 2)
    exact succeeds_of rfl ht (netQueueGet_ok (s.waiterOf c) (s.senderOf c) hy) ⟨hself.trans (by rw [hy]; rfl), hother, hmem⟩
  case refine_7 =>
    intro port v hport
    have hports := s.writePort_ports port v
    have hself : (s.writePort port v).port port = (s.port port).written v := by
      rw [State.port, hports]
      exact Tbl.getD_put_self ..
    have hother (q : Nat) (hq : q ≠ port) : (s.writePort port v).port q = s.port q := by
      rw [State.port, hports]
      exact Tbl.getD_put_ne _ hq ..
    have hfields {α : Type} (g : EthPort → α) := congrArg g hself
    exact ⟨_, netPortWrite_eq hrail hport v, hfields EthPort.enable, hfields EthPort.roce, hfields EthPort.l3sel, hfields EthPort.split,
      hfields EthPort.media, hfields EthPort.depth, hfields EthPort.maxfrm, hfields EthPort.dverdict, hfields EthPort.dqueue, hother⟩
  case refine_8 =>
    exact ⟨_, netLinkRead_eq hrail hlink, _, rfl, s.link_modLink link _, fun l hl => s.link_modLink_ne _ hl, fun _ => rfl, rfl⟩
  case refine_9 =>
    intro k n hk hn
    exact ⟨_, netDropRead_eq hrail hk hn, _, rfl, Tbl.getD_del_self .., fun m hm => Tbl.getD_del_ne _ hm .., fun _ => rfl, rfl⟩
  case refine_10 =>
    intro q hq
    exact ⟨_, netQstatRead_eq hrail hq, _, rfl, s.clearQstat_queues q⟩

end
